-- ==== Sys2Proof/Word.lean ====
section
/-! DEFINITION. Words, bit fields, saturating counters and sparse tables keyed by an index (conventions of spec/00_scope.md R4). -/

namespace Sys2Proof

/-- One byte (R4). -/
abbrev Byte := BitVec 8
/-- A 32-bit register word (R5). -/
abbrev W32 := BitVec 32
/-- A 64-bit word (R6). -/
abbrev W64 := BitVec 64

/-- Bits [lo + len - 1 : lo] of a number (bit 0 the least significant, R4). -/
def bitsOf (w lo len : Nat) : Nat := (w >>> lo) % 2 ^ len

/-- Bit `i` of a number. -/
def bitAt (w i : Nat) : Bool := w.testBit i

/-- `n` placed at bit `lo`, cut to `len` bits. -/
def place (n lo len : Nat) : Nat := (n % 2 ^ len) <<< lo

/-- A Boolean placed at bit `i`. -/
def placeB (b : Bool) (i : Nat) : Nat := if b then 2 ^ i else 0

/-- Replace bits [lo + len - 1 : lo] of `w` by the low bits of `v`. -/
def setBits (w lo len v : Nat) : Nat :=
  w - (bitsOf w lo len) <<< lo + place v lo len

/-- A counter of `b` bits that saturates (R4, R79 and the register tables). -/
def satAdd (b c n : Nat) : Nat := min (c + n) (2 ^ b - 1)

/-- Two's-complement value of the low `n` bits. -/
def signed (n w : Nat) : Int :=
  let m := w % 2 ^ n
  if m < 2 ^ (n - 1) then (m : Int) else (m : Int) - (2 ^ n : Nat)

/-- The `n`-bit word of an integer. -/
def unsigned (n : Nat) (i : Int) : Nat := (i % ((2 ^ n : Nat) : Int)).toNat

/-- Little-endian bytes of a number (R4). -/
def leBytes : Nat → Nat → List Byte
  | 0, _ => []
  | n + 1, w => BitVec.ofNat 8 w :: leBytes n (w / 256)

/-- Number of a little-endian byte list (R4). -/
def ofLe : List Byte → Nat
  | [] => 0
  | b :: bs => b.toNat + 256 * ofLe bs

/-- A sparse table: index and value pairs, indices strictly rising. -/
abbrev Tbl (α : Type) := List (Nat × α)

/-- The entry at an index. -/
def Tbl.find {α : Type} : Tbl α → Nat → Option α
  | [], _ => none
  | (k, v) :: t, i => if i = k then some v else Tbl.find t i

/-- Write the entry at an index, in its place of the rising order. -/
def Tbl.put {α : Type} : Tbl α → Nat → α → Tbl α
  | [], i, x => [(i, x)]
  | (k, v) :: t, i, x =>
    if i = k then (i, x) :: t
    else if i < k then (i, x) :: (k, v) :: t
    else (k, v) :: Tbl.put t i x

/-- Remove the entry at an index. -/
def Tbl.drop {α : Type} (t : Tbl α) (i : Nat) : Tbl α := t.filter (fun p => p.1 ≠ i)

/-- The entry at an index, or the reset entry `d` where nothing was written. -/
def Tbl.at {α : Type} (d : α) (t : Tbl α) (i : Nat) : α := (t.find i).getD d

/-- Rewrite one entry from its present value (`d` where nothing was written). -/
def Tbl.upd {α : Type} (d : α) (t : Tbl α) (i : Nat) (f : α → α) : Tbl α := t.put i (f (Tbl.at d t i))

/-- Rewrite every listed entry. -/
def Tbl.mapV {α : Type} (t : Tbl α) (f : Nat → α → α) : Tbl α := t.map (fun p => (p.1, f p.1 p.2))

/-- The listed indices. -/
def Tbl.keys {α : Type} (t : Tbl α) : List Nat := t.map (·.1)

end Sys2Proof
end

