-- ==== Sys2Proof/Parts.lean ====
section
/-! DEFINITION. The operand types of the commands: descriptors, engine encodings, register accesses, PTP messages. -/

namespace Sys2Proof

/-- Where a descriptor comes from: a submission ring (device-wide number, descriptor index), a CALL of an engine
thread (global thread, call slot), or device firmware and the island on their own path. -/
inductive Source where
  | ring (ring : Nat) (index : BitVec 32)
  | call (thread slot : Nat)
  | internal
  /-- A descriptor that a function-level reset ended (R52). -/
  | ended
  deriving DecidableEq, Repr

/-- A descriptor (spec/03_host_rings.md R66): its source, the DID it carries, and its 64 bytes. -/
structure Desc where
  src : Source
  did : Nat
  raw : BitVec 512
  deriving DecidableEq, Repr

/-- The fields of an engine instruction besides its opcode (spec/13_engine_instructions.md R301). -/
structure Enc where
  d : BitVec 5
  a : BitVec 5
  b : BitVec 5
  i : Bool
  f : BitVec 4
  m : BitVec 4
  imm : BitVec 32
  deriving DecidableEq, Repr

/-- A PCIe access of BAR0 (spec/00_scope.md R5): the DID it carries, the control processor for DID 1 (R507), the byte
offset (in BAR0 of the PF for DIDs 0 to 2, in the VF BAR0 for DIDs 3 to 15), the access size in bytes, the data. -/
structure BarAccess where
  did : Nat
  cp : Nat
  offset : Nat
  size : Nat
  data : W32
  deriving DecidableEq, Repr

/-- The writes of one FAB cycle that meet (R5, R9): a master's own, and those of other masters. -/
structure RegWrite where
  own : BarAccess
  rivals : List BarAccess
  deriving DecidableEq, Repr

/-- Who waits for a descriptor's bytes: a submission ring (R63, R71), or a thread whose call is on its way to its unit (R299). -/
inductive DescHolder where
  | ring (ring : Nat)
  | thread (thread : Nat)
  deriving DecidableEq, Repr

/-- A turn of one of the 8 parsers (R35, R145), in which the program store may answer an uncorrectable error. -/
structure ParserTurn where
  parser : Nat
  ecc : Bool
  deriving DecidableEq, Repr

/-- A processor of an interrupt controller, and whether its firmware has cleared its global mask since its last vector (R499, R500). -/
structure ProcTurn where
  proc : Nat
  cleared : Bool
  deriving DecidableEq, Repr

/-- The straps on the pins BOOT_SRC and CLK_MODE (R541). -/
structure Straps where
  bootSrc : Nat
  clkMode : Nat
  deriving DecidableEq, Repr

/-- An access of the debug memory window: its byte offset and its size in bytes (R5, R639). -/
structure WindowSpan where
  offset : Nat
  size : Nat
  deriving DecidableEq, Repr

/-- What holds a port's link: its line, and the pins SFP_MOD_ABS_L and SFP_LOS (R610). -/
structure PortPins where
  line : Bool
  modAbs : Bool
  los : Bool
  deriving DecidableEq, Repr

/-- A PTP message at a port (spec/05_time_base.md R110 to R114): messageType, sequenceId, domainNumber; transport (0 L2, 1 UDP/IPv4, 2 UDP/IPv6);
its twoStepFlag, the time it carries and its correctionField, both in units of 2^-16 ns; whether it uses an unsupported feature, comes from the
selected parent, and carries a valid UTC offset; its instant within the TIME cycle in units of 2^-16 ns. -/
structure PtpMsg where
  port : Nat
  type : Nat
  seq : Nat
  domain : Nat
  transport : Nat
  twoStep : Bool
  time : Int
  corr : Int
  unsupported : Bool
  fromParent : Bool
  utcValid : Bool
  utcOffset : Nat
  sub : Nat
  deriving DecidableEq, Repr

/-- A field of a DataSetMessage (spec/07_intake.md R166, R168): its raw bits, the type that a Variant or a DataValue's Variant carries (1 to 11
in the order of R166, 0 any other built-in type, array or structure), and a DataValue's
source time-stamp (100 ns units since 1601) and StatusCode. -/
structure UadpField where
  bits : Nat
  type : Option Nat
  srcTime : Option Nat
  status : Option Nat
  deriving DecidableEq, Repr

/-- Type of a DataSetMessage (R166). -/
inductive MsgKind where
  | keyFrame | keepAlive | deltaFrame | event
  deriving DecidableEq, Repr

/-- A DataSetMessage (R166): writer, SequenceNumber, Timestamp (100 ns units since 1601), Status, type, fields. -/
structure DataSetMsg where
  writer : Nat
  seq : Option Nat
  time : Option Nat
  status : Option Nat
  kind : MsgKind
  fields : List UadpField
  deriving DecidableEq, Repr

/-- What a received frame carries, decoded under the standard that the spec names for it (spec/07_intake.md R142 to R166). -/
inductive Content where
  | arp (target : Nat)
  | solicit (target : Nat)
  | ptp
  | actionAck
  /-- GVSP leader: block_id, time-stamp, payload type, pixel format (0 to 13 in the order of R156), width, height. -/
  | gvspLeader (block time type format width height : Nat)
  | gvspPayload (block packet : Nat) (bytes : List Byte)
  | gvspTrailer (block : Nat)
  /-- RFC 4175: SSRC, RTP timestamp, marker, segments of line, pixel offset and bytes. -/
  | rtp (ssrc time : Nat) (marker : Bool) (segs : List (Nat × Nat × List Byte))
  /-- A packet for microcode: the payload from the first byte after UDP. -/
  | raw (payload : List Byte)
  /-- UADP: PublisherId, WriterGroupId, SecurityFlags, chunked, with promoted fields, its messages. -/
  | uadp (publisher group security : Nat) (chunked promoted : Bool) (msgs : List DataSetMsg)
  /-- A discovery message, which is ignored (R166). -/
  | discovery
  | other
  deriving DecidableEq, Repr

/-- A frame at a port (R142, R143); `group` marks a broadcast carrying ARP, or an IP or PTP multicast destination; `sub` is
the arrival's instant within the TIME cycle in units of 2^-16 ns. -/
structure Frame where
  port : Nat
  length : Nat
  fcsOk : Bool
  fragment : Bool
  vid : Option Nat
  dstMac : Nat
  group : Bool
  srcMac : Nat
  srcIp4 : Option Nat
  srcIp6 : Option Nat
  udpDst : Nat
  sub : Nat
  content : Content
  deriving DecidableEq, Repr

/-- A packet that arrives at an Octur port (spec/24_plant_ports_octur.md R574): header, payload, and whether its CRC-32C is right. -/
structure OctPacket where
  port : Nat
  header : BitVec 128
  payload : List Byte
  crcOk : Bool
  deriving DecidableEq, Repr

end Sys2Proof
end

