-- ==== Sys2Proof/Machine/StHost.lean ====
section
/-! DEFINITION. State of the host interface, the queue management unit and the knot unit (spec/03_host_rings.md, spec/04_queues_knots.md, MSI-X of spec/21_interrupts.md R508). -/

namespace Sys2Proof.Machine

/-- Ring state, R59, coded as HIF_RING_STATUS.state. -/
inductive RingState where
  | idle | running | stopped | error
  deriving DecidableEq, Repr

/-- A flow result that waits in a ring's pending store (R76, R77), as the record words of R72 before its phase bit. -/
structure FlowRec where
  flow : Nat
  tov : Nat
  epoch : Nat
  age : Nat
  status : Nat
  flags : Nat
  deriving DecidableEq, Repr

/-- A ring event of R72 (`code` 1 FLOW_RECORDS_DROPPED, 2 SRING_ERROR, 3 SRING_STOPPED). -/
structure RingEvent where
  code : Nat
  ring : Nat
  status : Nat
  detail : Nat
  deriving DecidableEq, Repr

/-- The fields of a completion record but its phase (R72). -/
structure Rec where
  w0 : Nat
  w1 : Nat
  w2 : Nat
  age : Nat
  num : Nat
  kind : Nat
  status : Nat
  flags : Nat
  deriving DecidableEq, Repr

/-- What becomes ready for completion ring `com` (R74, R75): a flow result, the completion of a ring's descriptor (none: it writes no
record), or a ring event. -/
inductive Ready where
  | flow (com : Nat) (f : FlowRec)
  | desc (com ring : Nat) (index : W32) (r : Option Rec)
  | event (com : Nat) (e : RingEvent)
  deriving DecidableEq, Repr

/-- One submission or completion ring: its registers of R81 and the device's side of R58 to R77. -/
structure Ring where
  st : RingState
  /-- HIF_RING_CFG.vector. -/
  vector : Nat
  /-- HIF_RING_CFG.cring, a ring number within the function. -/
  cring : Nat
  intEn : Bool
  sizeLog2 : Nat
  base : W64
  db : W64
  /-- Free-running indices of R58. -/
  head : W32
  tail : W32
  lastEvent : Nat
  cfgDrop : Bool
  /-- HIF_RING_DROP. -/
  dropped : Nat
  /-- Completion entries reserved for fetched descriptors, R71. -/
  reserved : Nat
  /-- Poll interval I of R64, in µs. -/
  interval : Nat
  /-- Next due instant in ns; none while a poll is outstanding or its fetches have not arrived. -/
  nextDue : Option Nat
  /-- Issue instant of the outstanding poll. -/
  pollIssued : Option Nat
  /-- The last poll found work and its fetches are not all in (R64 fetch_done). -/
  awaitFetch : Bool
  /-- STOP was taken and its effects are not complete (R60). -/
  stopping : Bool
  /-- Held flow results, in the order in which they became ready (R76). -/
  held : List FlowRec
  /-- Held ring events, one place per submission ring, ascending ring number (R76). -/
  heldEvents : List RingEvent
  /-- Records dropped for want of space since the last FLOW_RECORDS_DROPPED (R76). -/
  sinceEvent : Nat
  /-- Records dropped while the ring was not RUNNING, for the event that START writes (R77). -/
  downDrops : Nat
  /-- The first drop after the ring left RUNNING has been reported (R77). -/
  lostReported : Bool
  deriving DecidableEq, Repr

/-- Reset values of R81. -/
def Ring.reset : Ring :=
  { st := .idle, vector := 0, cring := 0, intEn := false, sizeLog2 := 6, base := 0, db := 0,
    head := 0, tail := 0, lastEvent := 0, cfgDrop := false, dropped := 0, reserved := 0,
    interval := 1, nextDue := none, pollIssued := none, awaitFetch := false, stopping := false,
    held := [], heldEvents := [], sinceEvent := 0, downDrops := 0, lostReported := false }

/-- The wait of a descriptor in flight (R66, R96). -/
inductive DescWait where
  | free | registered | tableFull
  deriving DecidableEq, Repr

/-- A descriptor in flight (R71): fetched from ring `ring` at index `index`. -/
structure Flight where
  ring : Nat
  index : W32
  arrived : Bool
  raw : BitVec 512
  fenced : Bool
  wait : DescWait
  /-- The registered wait was satisfied at a change of its knot and is due for release (R92). -/
  satisfied : Bool
  started : Bool
  deriving DecidableEq, Repr

/-- One MSI-X vector (R80, R508). -/
structure Msix where
  /-- Words 0 to 3 of the table entry (address low, address high, data, vector control). -/
  addrLo : W32
  addrHi : W32
  data : W32
  masked : Bool
  pba : Bool
  /-- Moderation interval in µs. -/
  mod : Nat
  lastSent : Option Nat
  held : Bool
  deriving DecidableEq, Repr

def Msix.reset : Msix :=
  { addrLo := 0, addrHi := 0, data := 0, masked := true, pba := false, mod := 0, lastSent := none, held := false }

/-- A PCI function's identification in configuration space (R2, R51). -/
structure PciId where
  vendor : Nat
  device : Nat
  classCode : Nat
  deriving DecidableEq, Repr

/-- Identification of function `fn` (R2, R51). -/
def pciId (fn : Nat) : PciId := { vendor := 0x1F0E, device := if fn = 0 then 0x7240 else 0x7241, classCode := 0x120000 }

/-- The SR-IOV capability of the PF (R51): TotalVFs, VF Offset, VF Stride. -/
def sriov : Nat × Nat × Nat := (13, 1, 1)

/-- Functions of the endpoint: the PF and the virtual functions of the SR-IOV capability (R51). -/
def fnCount : Nat := 1 + sriov.1

/-- Routing ID of VF `n` relative to the PF's, from the SR-IOV capability (R51). -/
def vfRoute (n : Nat) : Nat := sriov.2.1 + (n - 1) * sriov.2.2

/-- The host interface (HIF). Functions are numbered 0 (PF) to 13 (VF 13); DIDs 0 to 15. -/
structure Hif where
  pollMax : Nat
  pollMin : Nat
  fnSel : Tbl Nat
  allocDrop : Bool
  /-- Assigned blocks (base, count) per function; the PF's reset block is all 1,024 rings (R56). -/
  sRings : Tbl (Nat × Nat)
  cRings : Tbl (Nat × Nat)
  winBaseHi : Nat
  /-- HIF_RING_SEL per DID: kind (true completion) and ring. -/
  ringSel : Tbl (Bool × Nat)
  sub : Tbl Ring
  com : Tbl Ring
  flights : List Flight
  /-- Earliest instant of the next doorbell read, in half nanoseconds (R65). -/
  pollSlot : Nat
  msix : Tbl Msix
  /-- MSI-X Enable per function, a standard PCIe capability (R508). -/
  msixEn : Tbl Bool
  /-- Bus Master Enable per function, of the standard PCI Command register (R63, R426; log entry 124). -/
  busMaster : Tbl Bool
  /-- Functions that issue no request until a ring is started again (R52). -/
  quiet : Tbl Bool
  /-- What has become ready in a FAB cycle whose effects are being gathered, oldest first; none outside one (R74, R75; the model's own field). -/
  batch : Option (List Ready)
  deriving DecidableEq, Repr

def Hif.reset : Hif :=
  { pollMax := 0x100, pollMin := 1, fnSel := [], allocDrop := false, sRings := [(0, (0, 0x400))],
    cRings := [(0, (0, 0x400))], winBaseHi := 0, ringSel := [], sub := [], com := [], flights := [],
    pollSlot := 0, msix := [], msixEn := [], busMaster := [], quiet := [], batch := none }

/-- Knot state, coded as KNT_CFG.state (R91, R100). -/
inductive KnotState where
  | free | active | poisoned | cadence
  deriving DecidableEq, Repr

/-- One knot (R91, R93). -/
structure Knot where
  st : KnotState
  value : W32
  guarded : Bool
  owner : Nat
  mask : Nat
  deriving DecidableEq, Repr

def Knot.reset : Knot := { st := .free, value := 0, guarded := false, owner := 0, mask := 0 }

/-- A signal to a knot with what ranks it among the SETs of one cycle (R9, R92): its DID, then a global engine number, a unit index or a
ring, then a descriptor index. -/
structure Signal where
  knot : Nat
  set : Bool
  value : W32
  did : Nat
  unit : Nat
  index : Nat
  deriving DecidableEq, Repr

/-- A descriptor of device firmware that waits on a knot (R66, R96). -/
structure InnerWait where
  did : Nat
  raw : BitVec 512
  wait : DescWait
  satisfied : Bool
  deriving DecidableEq, Repr

/-- The knot unit (KNT): knots by number, the waits of firmware's descriptors, KNT_SEL per DID, KNT_STATUS.retries. -/
structure Knots where
  knots : Tbl Knot
  inner : List InnerWait
  /-- Signals of a FAB cycle whose effects are being gathered, oldest first; none outside one (R92; the model's own field). -/
  cycle : Option (List Signal)
  retries : Nat
  sel : Tbl Nat
  deriving DecidableEq, Repr

def Knots.reset : Knots := { knots := [], inner := [], cycle := none, retries := 0, sel := [] }

/-- Who waits in an enqueue or runs a queue operation: an engine thread (R86). -/
structure Producer where
  thread : Nat
  did : Nat
  bytes : List Byte
  deriving DecidableEq, Repr

/-- One queue context (R83 to R89). Pointers are kept twice, the second copy bit-inverted (R88). -/
structure Queue where
  active : Bool
  guarded : Bool
  owner : Nat
  widthLog2 : Nat
  entriesLog2 : Nat
  refuse : Bool
  base : Nat
  dataKnot : Option Nat
  spaceKnot : Option Nat
  head : W32
  tail : W32
  headInv : W32
  tailInv : W32
  resets : Nat
  /-- Blocked producers in the order in which they are served (R86, R87). -/
  blocked : List Producer
  /-- The context holds an uncorrectable error (R88). -/
  ctxBad : Bool
  deriving DecidableEq, Repr

def Queue.reset : Queue :=
  { active := false, guarded := false, owner := 0, widthLog2 := 4, entriesLog2 := 4, refuse := false,
    base := 0, dataKnot := none, spaceKnot := none, head := 0, tail := 0, headInv := 0xFFFFFFFF,
    tailInv := 0xFFFFFFFF, resets := 0, blocked := [], ctxBad := false }

/-- The queue management unit (QMU). -/
structure Qmu where
  queues : Tbl Queue
  total : Nat
  corrected : Nat
  sel : Tbl Nat
  /-- Next context of the background sweep (R88). -/
  sweep : Nat
  deriving DecidableEq, Repr

def Qmu.reset : Qmu := { queues := [], total := 0, corrected := 0, sel := [], sweep := 0 }

end Sys2Proof.Machine
end

