-- ==== Sys2Proof/Machine/StEngine.lean ====
section
/-! DEFINITION. State of the engines: threads, instances, tasks, programs, copy units and core memory pages (spec/12_engine_execution.md, spec/13_engine_instructions.md). -/

namespace Sys2Proof.Machine

/-- WAIT reasons, coded as ENG_THREAD_STATE.reason (R270, R300). -/
inductive WaitReason where
  | mem | copy | knot | queue | call
  deriving DecidableEq, Repr

/-- Thread states of R270. -/
inductive ThreadState where
  | free | ready | wait (r : WaitReason) | halted
  deriving DecidableEq, Repr

/-- A place outside the thread's tile SRAM window (R279, R318). -/
inductive Place where
  /-- Device-virtual memory in the instance's DID context. -/
  | device
  /-- Core memory of the thread's own core. -/
  | core
  deriving DecidableEq, Repr

/-- A load in flight (R279, R318): into x[d] (sign-extended or not) or into v[d]. -/
structure Load where
  place : Place
  addr : Nat
  size : Nat
  vector : Bool
  signExt : Bool
  d : Nat
  deriving DecidableEq, Repr

/-- A posted store (R279). -/
structure Store where
  place : Place
  addr : Nat
  bytes : List Byte
  /-- Order in which the engine issued its stores (R42). -/
  no : Nat
  inst : Nat
  did : Nat
  guarded : Bool
  flows : List Nat
  deriving DecidableEq, Repr

/-- A request of the async copy unit (R280, R320); spaces are coded 0 to 3 as in R320. -/
structure CopyReq where
  thread : Nat
  inst : Nat
  did : Nat
  guarded : Bool
  flows : List Nat
  /-- Issued count of the request (R281). -/
  no : Nat
  /-- Stores of the thread that precede it and are not done (R280). -/
  ahead : Nat
  src : Nat
  dst : Nat
  srcStride : Int
  dstStride : Int
  rowBytes : Nat
  rows : Nat
  srcSpace : Nat
  dstSpace : Nat
  knot : Option Nat
  deriving DecidableEq, Repr

/-- An effect that leaves the window, held in RESIDUE until the earlier verdicts pass (R292). -/
inductive Effect where
  | store (s : Store)
  | copy (c : CopyReq)
  | signal (knot module : Nat) (remote set : Bool) (value : Nat)
  | push (queue : Nat) (bytes : List Byte)
  | call (desc rcd slot : Nat)
  | finish
  deriving DecidableEq, Repr

/-- A wait for a queue answer (R323): QPUSH (pop = false) or QPOP into v[reg]; the outcome goes to x[d]. -/
structure QueueWait where
  pop : Bool
  queue : Nat
  d : Nat
  reg : Nat
  /-- The outcome of R323, once the queue management unit has one. -/
  answer : Option Nat
  /-- The entry a QPOP took. -/
  data : List Byte
  deriving DecidableEq, Repr

/-- A call slot in use (R299, R324): where the completion record goes. -/
structure CallSlot where
  slot : Nat
  recOff : Nat
  raw : BitVec 512
  /-- The descriptor has passed its checks at the unit (R70, R299). -/
  arrived : Bool
  /-- The wait of the call's descriptor in the knot unit (R66, R96). -/
  wait : DescWait
  satisfied : Bool
  /-- Status, result, detail and flags, once the unit has completed the descriptor. -/
  done : Option (Nat × Nat × Nat × Nat)
  deriving DecidableEq, Repr

/-- What a waiting thread waits for beside its reason. -/
inductive Waiting where
  | none
  | load (l : Load)
  | storeSlot (s : Store)
  | copySlot (c : CopyReq) (d : Nat)
  | copyDone (k : Nat)
  | fence (mask : Nat)
  | knot
  | readKnot (d knot : Nat)
  | queue (q : QueueWait)
  | callSlot (desc rcd d : Nat)
  deriving DecidableEq, Repr

/-- One hardware thread (R31, R270, R273, R306). Registers not listed read as 0 (R273). -/
structure Thread where
  st : ThreadState
  inst : Option Nat
  x : Tbl W64
  v : Tbl (BitVec 2048)
  flags : Nat
  issued : Nat
  done : Nat
  seed : W32
  /-- Count of the ENG clock when the instance started (R306). -/
  start : Nat
  /-- Code offset of the next instruction in units of 8 bytes. -/
  pc : Nat
  /-- 64-byte code block in the fetch buffer. -/
  fetched : Option Nat
  waiting : Waiting
  /-- Instructions issued and verdicts passed in RESIDUE (R291, R292). -/
  issueNo : Nat
  passNo : Nat
  /-- Held effects with the number of instructions issued before them, oldest first. -/
  held : List (Nat × Effect)
  posted : List Store
  /-- Signals that wait for the posted stores before them (R296): stores still ahead, then the signal. -/
  signals : List (Nat × Effect)
  calls : List CallSlot
  /-- C of the thread's latest MMA while no later instruction of the thread has issued: base, row stride, rows and bytes per row (R317). -/
  mma : Option (Nat × Nat × Nat × Nat)
  deriving DecidableEq, Repr

def Thread.reset : Thread :=
  { st := .free, inst := none, x := [], v := [], flags := 0, issued := 0, done := 0, seed := 0, start := 0,
    pc := 0, fetched := none, waiting := .none, issueNo := 0, passNo := 0, held := [], posted := [],
    signals := [], calls := [], mma := none }

/-- The body of ENG_TASK and ENG_TASK_BIND (R286). -/
structure TaskBody where
  program : Nat
  entry : Nat
  instances : Nat
  threads : Nat
  stage : Nat
  seq : Nat
  cadence : Nat
  flow : Nat
  window : Nat
  args : Nat
  engines : Nat
  swizzle : Nat
  export_ : Bool
  handle : Nat
  /-- The pinned core of unit bytes 0x41 to 0x46 (R285). -/
  core : Option Nat
  deriving DecidableEq, Repr

/-- A bound task (R286, R287): its configuration, under R28. -/
structure BoundTask where
  body : TaskBody
  did : Nat
  guarded : Bool
  deriving DecidableEq, Repr

/-- A task being run: a one-shot task of a descriptor or one epoch of a bound task (R274, R287). -/
structure TaskRun where
  body : TaskBody
  did : Nat
  guarded : Bool
  /-- The descriptor of a one-shot task. -/
  desc : Option Desc
  /-- Handle of a bound task. -/
  bound : Option Nat
  epoch : Nat
  /-- Instance indices not yet placed. -/
  waiting : List Nat
  /-- Indices placed again after their engine left service (R290). -/
  again : List Nat
  /-- Instance ids running. -/
  running : List Nat
  /-- Status of each ended instance, by index. -/
  ended : Tbl Nat
  deriving DecidableEq, Repr

/-- One instance: a placed copy of a task (R277, R288, R289). -/
structure Instance where
  run : Nat
  index : Nat
  engine : Nat
  threads : List Nat
  window : Nat
  windowBytes : Nat
  swizzle : Nat
  exported : Bool
  did : Nat
  guarded : Bool
  program : Nat
  /-- Handle and instance index under which a bound instance keeps its place (R289). -/
  kept : Option (Nat × Nat)
  active : Bool
  restarted : Bool
  status : Nat
  deriving DecidableEq, Repr

/-- A resident program of an engine (R284). -/
structure Resident where
  handle : Nat
  base : Nat
  pages : Nat
  lastUsed : Nat
  pinned : Bool
  deriving DecidableEq, Repr

/-- One engine: its copy unit, resident code and counters (R280, R284, R300). -/
structure Engine where
  resident : List Resident
  copies : List CopyReq
  /-- Stores issued so far (R42; the model's own field). -/
  stores : Nat
  reservedGuarded : Bool
  mismatches : Nat
  lastMismatch : Nat
  goldenFail : Nat
  corrected : Nat
  lastCode : Nat
  sticky : Bool
  lastThread : Nat
  deriving DecidableEq, Repr

def Engine.reset : Engine :=
  { resident := [], copies := [], stores := 0, reservedGuarded := false, mismatches := 0, lastMismatch := 0, goldenFail := 0,
    corrected := 0, lastCode := 0, sticky := false, lastThread := 0 }

/-- A registered program (R282, R283). -/
structure Program where
  owner : Nat
  guarded : Bool
  codeBytes : Nat
  minWindow : Nat
  threads : Nat
  residue : Bool
  entries : List Nat
  code : List Byte
  deriving DecidableEq, Repr

/-- A wait of an engine thread in the knot unit (R96, R297). -/
structure ThreadWait where
  knot : Nat
  value : W32
  satisfied : Bool
  deriving DecidableEq, Repr

/-- The engines. -/
structure Engines where
  threads : Tbl Thread
  engines : Tbl Engine
  instances : Tbl Instance
  runs : Tbl TaskRun
  /-- Next instance and task-run numbers. -/
  nextInst : Nat
  nextRun : Nat
  programs : Tbl Program
  waits : Tbl ThreadWait
  /-- Core memory pages (core * 64 + page): owner DID and class (R319). -/
  pages : Tbl (Nat × Bool)
  /-- 8-byte words of tile SRAM and core memory (key / 8) that hold an uncorrectable error (R278, R478). -/
  bad : List Nat
  threadSel : Tbl Nat
  deriving DecidableEq, Repr

def Engines.reset : Engines :=
  { threads := [], engines := [], instances := [], runs := [], nextInst := 0, nextRun := 0, programs := [],
    waits := [], pages := [], bad := [], threadSel := [] }

end Sys2Proof.Machine
end

