-- ==== Sys2Proof/Machine/StGeo.lean ====
section
/-! DEFINITION. State of the Splice unit, the transform unit, the Erg units and the grids (spec/08_splice_alignment.md, spec/09_transforms_ego_motion.md, spec/10_erg_point_units.md, spec/11_grids_fusion.md). -/

namespace Sys2Proof.Machine

/-- Dispositions of R195. -/
inductive Disp where
  | used | missing | excluded | extrapolated | stale | capacity
  deriving DecidableEq, Repr

/-- A stream entry of the epoch table (R195). -/
structure StreamEntry where
  stream : Nat
  disp : Disp
  members : Nat
  first : Nat
  tOld : Option Nat
  delta : Option Int
  late : Nat
  deriving DecidableEq, Repr

/-- A value entry: position and rate as FP64 bits, or six FP32 components (R186, R195). -/
structure ValueEntry where
  stream : Nat
  disp : Disp
  z : Bool
  holdover : Bool
  status : Nat
  imu : Bool
  pos : Nat
  rate : Nat
  comps : List Nat
  deriving DecidableEq, Repr

/-- A query with its value entries (R184, R195): kind 0 TOV, 1 CAMERA, 2 SCAN_START, 3 SCAN_END; `member` is the sample index. -/
structure Query where
  time : Nat
  frac : Nat
  source : Nat
  kind : Nat
  member : Nat
  values : List ValueEntry
  deriving DecidableEq, Repr

/-- A tag entry (R188, R195). -/
structure TagEntry where
  tag : Nat
  value : Nat
  age : Nat
  disp : Disp
  flags : Nat
  source : Nat
  deriving DecidableEq, Repr

/-- An epoch table (R195). -/
structure EpochTable where
  epoch : Nat
  tov : Nat
  close : Nat
  streams : List StreamEntry
  queries : List Query
  tags : List TagEntry
  /-- The limits of R196 cut the epoch. -/
  cut : Bool
  ended : Option Nat
  deriving DecidableEq, Repr

/-- The Splice unit (SPL): the tables by 2 * cadence + n mod 2. -/
structure Splice where
  tables : Tbl EpochTable
  /-- Held slots: cadence, epoch, stream, sample index (R183). -/
  holds : List (Nat × Nat × Nat × Nat)
  /-- Latest epoch whose ALIGN has ended, per cadence (R197). -/
  latest : Tbl Nat
  queries : Tbl Nat
  capacity : Tbl Bool
  alignUs : Tbl Nat
  cadSel : Tbl Nat
  streamSel : Tbl Nat
  deriving DecidableEq, Repr

def Splice.reset : Splice :=
  { tables := [], holds := [], latest := [], queries := [], capacity := [], alignUs := [], cadSel := [], streamSel := [] }

/-- A pose: quaternion (w, x, y, z) and translation as FP32 bits (R200). -/
structure Pose where
  w : Nat
  x : Nat
  y : Nat
  z : Nat
  tx : Nat
  ty : Nat
  tz : Nat
  deriving DecidableEq, Repr

/-- A transform table entry (R203). -/
structure XEntry where
  pose : Pose
  valid : Bool
  deriving DecidableEq, Repr

/-- A rig (R13, R221). -/
structure Rig where
  joints : Nat
  enable : Bool
  root : Nat
  deriving DecidableEq, Repr

/-- A joint's configuration (R222); FP fields as bits. -/
structure Joint where
  rig : Nat
  position : Nat
  prismatic : Bool
  axis : Nat
  zHome : Bool
  wrap : Bool
  primary : Nat
  check : Option Nat
  zTol : Nat
  pre : Nat
  zOffset : Int
  zPeriod : Nat
  scale : Nat
  ref : Int
  zero : Nat
  min : Nat
  max : Nat
  deriving DecidableEq, Repr

/-- An ego group's configuration (R223). -/
structure EgoCfg where
  rig : Nat
  link : Nat
  erg : Nat
  required : Bool
  enable : Bool
  streams : List Nat
  regPoints : Nat
  minInliers : Nat
  iterMax : Nat
  coastMax : Nat
  refAgeMax : Nat
  regCell : Nat
  corrMax : Nat
  rmsMax : Nat
  gateT : Nat
  gateR : Nat
  degRatio : Nat
  deriving DecidableEq, Repr

/-- Reference of a joint measurement: primary or check (R206, R209). -/
structure Refd where
  referenced : Bool
  ref : Int
  /-- Position bits (FP64) at the latest TOV evaluation. -/
  lastPos : Option Nat
  deriving DecidableEq, Repr

/-- Dynamic state of a joint. -/
structure JointSt where
  primary : Refd
  check : Refd
  /-- References that take effect at the next acq_start (R206, R28). -/
  nextPrimary : Option (Bool × Int)
  nextCheck : Option (Bool × Int)
  /-- Time (of `up`) at which software last set them: an acq_start of the same cycle does not take them (R28). -/
  askedAt : Option Nat
  slips : Nat
  range : Nat
  deriving DecidableEq, Repr

def Refd.reset : Refd := { referenced := false, ref := 0, lastPos := none }
def JointSt.reset : JointSt :=
  { primary := Refd.reset, check := Refd.reset, nextPrimary := none, nextCheck := none, askedAt := none, slips := 0, range := 0 }

/-- Ego group states of R216. -/
inductive EgoState where
  | init | seeded | tracking | coast
  deriving DecidableEq, Repr

/-- A reference point and its normal, FP32 components (R218). -/
structure RefPoint where
  p : Nat × Nat × Nat
  normal : Option (Nat × Nat × Nat)
  deriving DecidableEq, Repr

/-- Dynamic state of an ego group (R216 to R219). -/
structure Ego where
  st : EgoState
  coast : Nat
  refAge : Nat
  iterations : Nat
  inliers : Nat
  reseeds : Nat
  failures : Nat
  d : Pose
  /-- ω and v, six FP32 patterns. -/
  xi : List Nat
  tovLast : Nat
  /-- The reference, the epoch it is of and its step generation (R218). -/
  reference : List RefPoint
  refEpoch : Nat
  refGen : Nat
  rms : Nat
  /-- Epochs from which the group starts anew: configuration changes that took effect (R28, R218). -/
  restarts : List Nat
  deriving DecidableEq, Repr

/-- The identity pose. -/
def Pose.id : Pose := { w := 0x3F800000, x := 0, y := 0, z := 0, tx := 0, ty := 0, tz := 0 }

def Ego.reset : Ego :=
  { st := .init, coast := 0, refAge := 0, iterations := 0, inliers := 0, reseeds := 0, failures := 0, d := Pose.id,
    xi := [0, 0, 0, 0, 0, 0], tovLast := 0, reference := [], refEpoch := 0, refGen := 0, rms := 0, restarts := [] }

/-- A pose record (R211); status 0 OK, 1 JOINT_MISSING, 2 UNREFERENCED, 3 OUT_OF_RANGE, 4 ENTRY_POISONED. -/
structure PoseRec where
  query : Nat
  stream : Nat
  status : Nat
  flags : Nat
  rig : Nat
  link : Pose
  sensor : Pose
  deriving DecidableEq, Repr

/-- A joint record (R211). -/
structure JointRec where
  joint : Nat
  state : Nat
  check : Nat
  v : Nat
  vCheck : Nat
  rate : Nat
  deriving DecidableEq, Repr

/-- A group record (R219). -/
structure GroupRec where
  group : Nat
  state : Nat
  flags : Nat
  iterations : Nat
  correspondences : Nat
  d : Pose
  xi : List Nat
  rms : Nat
  deriving DecidableEq, Repr

/-- A pose table (R211). -/
structure PoseTable where
  epoch : Nat
  tov : Nat
  kinematic : Nat
  corrected : Option Nat
  groups : List GroupRec
  joints : List JointRec
  poses : List PoseRec
  deriving DecidableEq, Repr

/-- The transform unit (XFT): pose tables by 2 * cadence + n mod 2. -/
structure Xft where
  tables : Tbl PoseTable
  joints : Tbl JointSt
  egos : Tbl Ego
  /-- POISONED entries (R203). -/
  poisoned : List Nat
  capacity : Bool
  poseUs : Nat
  jointSel : Tbl Nat
  egoSel : Tbl Nat
  deriving DecidableEq, Repr

def Xft.reset : Xft :=
  { tables := [], joints := [], egos := [], poisoned := [], capacity := false, poseUs := 0, jointSel := [], egoSel := [] }

/-- A volume (R225). -/
structure Volume where
  vox : Bool
  reefMax : Nat
  keep : Nat
  cadence : Nat
  /-- Member streams by position. -/
  members : Tbl Nat
  blocksMax : Nat
  rangeMax : Nat
  cell : Nat
  ox : Nat
  oy : Nat
  oz : Nat
  pointBase : Nat
  siteBase : Nat
  did : Nat
  guarded : Bool
  deriving DecidableEq, Repr

/-- A slot of a voxel entry: epoch, member, count (R230). -/
structure VSlot where
  epoch : Nat
  member : Nat
  count : Nat
  deriving DecidableEq, Repr

/-- A voxel entry: cell coordinate and its slots 0 to 3 (R230). -/
structure Voxel where
  ix : Int
  iy : Int
  iz : Int
  slots : List (Option VSlot)
  deriving DecidableEq, Repr

/-- A deskewed point of a frame (R227): FP32 site position, intensity, channel, flags, band. -/
structure FramePt where
  x : Nat
  y : Nat
  z : Nat
  intensity : Nat
  channel : Nat
  flags : Nat
  band : Nat
  deriving DecidableEq, Repr

/-- One Erg unit (R225 to R245). -/
structure ErgUnit where
  level : Nat
  truncated : Bool
  storeErr : Bool
  /-- Buckets and stash of the voxel store: (bucket * 4 + way) to entry; stash places from 262,144. -/
  store : Tbl Voxel
  lastBuild : Option (Nat × Nat)
  /-- The volume as the last build found it (R225). -/
  lastVol : Option Volume
  buildUs : Nat
  opUs : Nat
  reefs : Nat
  truncations : Nat
  truncPoints : Nat
  oov : Nat
  evicted : Nat
  /-- Sites of the latest list, and its flags: reefed, truncated, store fault. -/
  entries : Nat
  stash : Nat
  /-- Points of members without a pose (R213). -/
  lost : Nat
  /-- When the unit's latest work ended, in time since power-on. -/
  lastEnd : Nat
  deriving DecidableEq, Repr

def ErgUnit.reset : ErgUnit :=
  { level := 0, truncated := false, storeErr := false, store := [], lastBuild := none, lastVol := none, buildUs := 0,
    opUs := 0, reefs := 0, truncations := 0, truncPoints := 0, oov := 0, evicted := 0, entries := 0, stash := 0, lost := 0, lastEnd := 0 }

/-- A grid source slot (R253). -/
structure GridSrc where
  stream : Nat
  lift : Bool
  stride : Nat
  tolAbs : Nat
  tolRel : Nat
  fx : Nat
  fy : Nat
  cx : Nat
  cy : Nat
  k1 : Nat
  k2 : Nat
  wf : Nat
  hf : Nat
  base : Nat
  deriving DecidableEq, Repr

/-- A grid's output (R267). -/
structure GridOut where
  slots : Nat
  format : Nat
  first : Nat
  count : Nat
  fill : Nat
  base : Nat
  did : Nat
  deriving DecidableEq, Repr

/-- A grid's configuration (R251, R253, R267). -/
structure GridCfg where
  enable : Bool
  guarded : Bool
  cadence : Nat
  format : Nat
  reefMax : Nat
  regionLog2 : Nat
  w : Nat
  h : Nat
  c : Nat
  bins : Nat
  cf : Nat
  cp : Nat
  ptFormat : Nat
  ptReduce : Nat
  ptUnit : Nat
  ptStride : Nat
  g0 : Nat
  x0 : Nat
  y0 : Nat
  z0 : Nat
  dz : Nat
  base : Nat
  did : Nat
  sources : Tbl GridSrc
  out : Option GridOut
  deriving DecidableEq, Repr

/-- A flow's area of a grid (R265). -/
structure Area where
  grid : Nat
  required : Bool
  col0 : Nat
  row0 : Nat
  col1 : Nat
  row1 : Nat
  unseenMax : Nat
  deriving DecidableEq, Repr

/-- Region states of R260. -/
inductive RegState where
  | unseen | single | known | voted | contested
  deriving DecidableEq, Repr

/-- A region table entry (R260). -/
structure RegionRow where
  cov : List Nat
  votedOut : List Nat
  contested : List Nat
  st : RegState
  m : Nat
  lastSeen : Nat
  consensus : Nat
  deriving DecidableEq, Repr

/-- Dynamic state of a grid (R248, R254, R269). -/
structure Grid where
  /-- Buffer 0 and 1: epoch and level of the complete state it holds. -/
  buf0 : Option (Nat × Nat)
  buf1 : Option (Nat × Nat)
  /-- The epoch whose steps run: epoch, last step done, level. -/
  running : Option (Nat × Nat × Nat)
  regions : List RegionRow
  lastSeen : Tbl Nat
  level : Nat
  contested : Nat
  unseen : Nat
  fuseUs : Nat
  liftUs : Nat
  voted : Nat
  contests : Nat
  /-- Instant of step 3 and of the start of step 5. -/
  fuseAt : Nat
  stepAt : Nat
  /-- Output slots: slot to the epoch whose record it holds. -/
  outs : Tbl Nat
  /-- Epochs from which the buffers count as empty: configuration changes that took effect (R28, R249). -/
  restarts : List Nat
  deriving DecidableEq, Repr

def Grid.reset : Grid :=
  { buf0 := none, buf1 := none, running := none, regions := [], lastSeen := [], level := 0, contested := 0, unseen := 0, fuseUs := 0,
    liftUs := 0, voted := 0, contests := 0, fuseAt := 0, stepAt := 0, outs := [], restarts := [] }

/-- The Erg units and the grids. -/
structure Geo where
  erg : Tbl ErgUnit
  ergSel : Tbl Nat
  /-- Operations that wait for an Erg unit: unit, descriptor, issue instant (R234). -/
  ergJobs : List (Nat × Desc × Nat)
  /-- The operation that runs on each unit: descriptor, start instant (R234). -/
  ergRun : Tbl (Desc × Nat)
  grids : Tbl Grid
  gridSel : Tbl Nat
  monJoint : Nat
  deriving DecidableEq, Repr

def Geo.reset : Geo := { erg := [], ergSel := [], ergJobs := [], ergRun := [], grids := [], gridSel := [], monJoint := 0 }

end Sys2Proof.Machine
end

