-- ==== Sys2Proof/Machine/StIntake.lean ====
section
/-! DEFINITION. State of the intake: ports, partners, streams, parser programs and the tag table (spec/07_intake.md), and of the streams' admission (R18, spec/08_splice_alignment.md R192 to R194, R261). -/

namespace Sys2Proof.Machine

/-- One Ethernet port (R146, R177) and its link (R610). -/
structure IngPort where
  speed : Nat
  vlanEn : Bool
  ipv4En : Bool
  ipv6En : Bool
  vid : Nat
  mac : Nat
  ipv4 : Nat
  ipv6 : Nat
  linkUp : Bool
  rx : Nat
  unknown : Nat
  overflow : Nat
  malformed : Nat
  deriving DecidableEq, Repr

def IngPort.reset : IngPort :=
  { speed := 0, vlanEn := false, ipv4En := false, ipv6En := false, vid := 0, mac := 0, ipv4 := 0, ipv6 := 0, linkUp := false, rx := 0,
    unknown := 0, overflow := 0, malformed := 0 }

/-- A partner entry (R148). -/
structure Partner where
  port : Nat
  proto : Nat
  match_ : Nat
  program : Nat
  udpDst : Nat
  peerMac : Nat
  peerIp : Nat
  publisher : Nat
  writerGroup : Nat
  deriving DecidableEq, Repr

/-- A run of mapped fields of a TAG stream (R167). -/
structure TagRun where
  firstField : Nat
  firstTag : Nat
  count : Nat
  type : Nat
  utcOffset : Nat
  deriving DecidableEq, Repr

/-- The configuration of a stream: STREAM_CONFIG (R150), SPL_STREAM (R198), XFT_MOUNT (R221) and TAG_MAP (R167). -/
structure StreamCfg where
  kind : Nat
  cadence : Nat
  sig : Bool
  cnt : Bool
  acceptPartial : Bool
  source : Nat
  field : Bool
  slotLog2 : Nat
  slotsLog2 : Nat
  base : Nat
  selector : Nat
  latency : Nat
  width : Nat
  height : Nat
  format : Nat
  did : Nat
  /-- SPL_STREAM. -/
  selectAll : Bool
  driftOff : Bool
  maxGap : Nat
  extrapMax : Nat
  maxAge : Nat
  statusMask : Nat
  /-- XFT_MOUNT: rig, link, mount entry; out_frame SENSOR_AT_TOV. -/
  mount : Option (Nat × Nat × Nat)
  atTov : Bool
  tags : List TagRun
  deriving DecidableEq, Repr

/-- What SPL_STREAM leaves unset selects (R198). -/
def StreamCfg.blank : StreamCfg :=
  { kind := 0, cadence := 0, sig := false, cnt := false, acceptPartial := false, source := 0, field := false, slotLog2 := 8, slotsLog2 := 2,
    base := 0, selector := 0, latency := 0, width := 0, height := 0, format := 0, did := 0, selectAll := false, driftOff := false,
    maxGap := 1000, extrapMax := 0, maxAge := 1000, statusMask := 0, mount := none, atTov := false, tags := [] }

/-- A sample in its slot: the header of R151 and the payload. -/
structure Sample where
  index : Nat
  /-- Sample time DT64 and DT16F. -/
  time : Nat
  frac : Nat
  gen : Nat
  holdover : Bool
  test : Bool
  partial_ : Bool
  frozen : Bool
  /-- The sample time comes from the sensor's own clock (R192). -/
  sensor : Bool
  kind : Nat
  sequence : Nat
  /-- CRC-64 of R171 where one was computed. -/
  signature : Option Nat
  ingress : Nat
  commit : Nat
  elements : Nat
  payload : List Byte
  deriving DecidableEq, Repr

/-- A pending test injection of a stream (R174, R175), and the instant at which it is given up. -/
structure Injection where
  desc : Desc
  pattern : Nat
  seed : Nat
  packet : List Byte
  expected : Nat
  deadline : Nat
  deriving DecidableEq, Repr

/-- Dynamic state of a stream (R18, R173, R177, R193, R199). -/
structure Stream where
  enabled : Bool
  silent : Bool
  suspect : Bool
  frozen : Bool
  /-- Closes of the bound cadence left in CONTESTED (R261). -/
  contested : Option Nat
  /-- Samples written, newest first; a later sample of the same slot replaces an older one. -/
  samples : List Sample
  /-- Next sample index k, and the index of the latest committed sample. -/
  next : Nat
  lastIndex : Nat
  lastCommit : Option Nat
  /-- Signature run of R171: the latest signature and how many samples in a row carry it. -/
  sigRun : Option (Nat × Nat)
  lastSeq : Option (Nat × Nat)
  /-- Consecutive passing samples while FROZEN, and whether the recovery injection passed (R173). -/
  passRun : Nat
  injected : Bool
  ringFull : Nat
  partials : Nat
  genDrop : Nat
  frozenCount : Nat
  gaps : Nat
  restarts : Nat
  lastRule : Nat
  /-- Drift check: δ_min of the running epoch and of the latest evaluated one, in ns (R192). -/
  delta : Option Int
  deltaShown : Option Int
  suspects : Nat
  run : Nat
  late : Nat
  missing : Nat
  extrap : Nat
  /-- The start-up injection passed (R553), and the STREAM_ENABLE that waits for it. -/
  started : Bool
  starting : Option Desc
  /-- An enable, and a disable, that take effect at the next acq_start of the bound cadence (R28, R553). -/
  joining : Bool
  leaving : Bool
  /-- Time (of `up`) at which that enable or disable was accepted: an acq_start of the same cycle does not take it (R28). -/
  askedAt : Option Nat
  /-- Index of the acq_start from which a TIME_SUSPECT stream returns (R193). -/
  back : Option Nat
  /-- Cadence and first epoch to which a stream back from FROZEN, TIME_SUSPECT or CONTESTED contributes again (R173, R193, R261). -/
  backFrom : Option (Nat × Nat)
  deriving DecidableEq, Repr

def Stream.reset : Stream :=
  { enabled := false, silent := false, suspect := false, frozen := false, contested := none, samples := [], next := 0, lastIndex := 0, lastCommit := none,
    sigRun := none, lastSeq := none, passRun := 0, injected := false, ringFull := 0, partials := 0, genDrop := 0, frozenCount := 0, gaps := 0,
    restarts := 0, lastRule := 0, delta := none, deltaShown := none, suspects := 0, run := 0, late := 0, missing := 0, extrap := 0,
    started := false, starting := none, joining := false, leaving := false, askedAt := none, back := none, backFrom := none }

/-- A tag table entry (R168); the value is the FP64 bit pattern. -/
structure Tag where
  value : Nat
  source : Nat
  receive : Nat
  status : Nat
  stream : Nat
  written : Bool
  mismatch : Bool
  deriving DecidableEq, Repr

def Tag.reset : Tag := { value := 0, source := 0, receive := 0, status := 0, stream := 0, written := false, mismatch := false }

/-- A received frame or serial record that waits for its parser (R145): ingress time, content. -/
structure RxFrame where
  port : Nat
  /-- Partner, or the field serial port where `serial`. -/
  source : Nat
  serial : Bool
  bytes : Nat
  time : Nat
  frac : Nat
  gen : Nat
  holdover : Bool
  udpDst : Nat
  content : Content
  /-- The partner's entry, and the tag mappings of its TAG streams, when the frame arrived (R149, R167). -/
  partner : Option Partner
  maps : Tbl (List TagRun)
  deriving DecidableEq, Repr

/-- A camera frame in reception (R156, R157). -/
structure CamFrame where
  stream : Nat
  block : Nat
  /-- Payload bytes of the whole frame. -/
  total : Nat
  firstSize : Nat
  /-- Received pieces: offset and bytes. -/
  pieces : List (Nat × List Byte)
  /-- Sample time (R132, R155), and whether it comes from the sensor's clock. -/
  time : Nat
  frac : Nat
  sensor : Bool
  ingress : Nat
  gen : Nat
  lastAt : Nat
  gvsp : Bool
  /-- The monitor discarded the frame: its packets form no sample (R132). -/
  dropped : Bool
  deriving DecidableEq, Repr

/-- The intake (ING). -/
structure Intake where
  ports : Tbl IngPort
  partners : Tbl Partner
  streams : Tbl Stream
  programs : Tbl (List W64)
  tags : Tbl Tag
  waiting : List RxFrame
  cams : List CamFrame
  /-- Injections by stream, oldest first. -/
  injections : List (Nat × Injection)
  /-- TAG streams whose table writes are deferred, per cadence whose ALIGN runs (R187). -/
  deferring : List (Nat × Nat)
  deferred : List RxFrame
  portSel : Tbl Nat
  streamSel : Tbl Nat
  uEcc : Nat
  uSteps : Nat
  uBounds : Nat
  uDrop : Nat
  /-- Packets discarded by DROP and by undefined opcodes, by reason (R162; the model's own count). -/
  uReasons : Tbl Nat
  deriving DecidableEq, Repr

def Intake.reset : Intake :=
  { ports := [], partners := [], streams := [], programs := [], tags := [], waiting := [], cams := [], injections := [], deferring := [],
    deferred := [], portSel := [], streamSel := [], uEcc := 0, uSteps := 0, uBounds := 0, uDrop := 0, uReasons := [] }

end Sys2Proof.Machine
end

