-- ==== Sys2Proof/Machine/StPorts.lean ====
section
/-! DEFINITION. State of the plant ports' quiet mode and of the Octur link (spec/24_plant_ports_octur.md). -/

namespace Sys2Proof.Machine

/-- A publication (R566, R567). -/
structure Publication where
  enable : Bool
  port : Nat
  ip6 : Bool
  pcp : Nat
  flow : Nat
  lead : Nat
  dstMac : Nat
  udpDst : Nat
  dstIp : Nat
  writerGroup : Nat
  writer : Nat
  utcOffset : Nat
  /-- Header of the field list: base, slot size, slot count. -/
  base : Nat
  slotSize : Nat
  slots : Nat
  /-- Entries: offset, source format, UADP type, base selector. -/
  fields : List (Nat × Nat × Nat × Nat)
  did : Nat
  guarded : Bool
  /-- Defined by the safety configuration image. -/
  image : Bool
  /-- Frame bytes L of one message (R562, R565). -/
  frameBytes : Nat
  deriving DecidableEq, Repr

/-- A pending message (R568): its publication, time of validity, class and bytes. -/
structure Message where
  pub : Nat
  /-- Its plant port, 0 or 1. -/
  port : Nat
  tov : Nat
  guarded : Bool
  /-- Where it goes: VLAN priority, destination addresses and port (R566). -/
  pcp : Nat
  dstMac : Nat
  ip6 : Bool
  dstIp : Nat
  udpDst : Nat
  bytes : List Byte
  deriving DecidableEq, Repr

/-- Quiet mode of one plant port (R559 to R563, R584). -/
structure PlantPort where
  txEn : Bool
  mgmtFps : Nat
  period : Nat
  /-- Windows: offset and length in units of 10 µs. -/
  wins : Tbl (Nat × Nat)
  burst : Nat
  rate : Nat
  pubId : Nat
  sentMessages : Nat
  sentMgmt : Nat
  superseded : Nat
  mgmtDropped : Nat
  /-- Token bucket in units of 10^-6 byte, and the instant to which it is filled (R562). -/
  bucket : Nat
  bucketAt : Nat
  /-- Management frames left in the aligned second `mgmtSecond` of DT64 (R561). -/
  mgmtSecond : Nat
  mgmtCount : Nat
  /-- Instant at which the frame in transmission ends. -/
  busyUntil : Nat
  deriving DecidableEq, Repr

def PlantPort.reset : PlantPort :=
  { txEn := false, mgmtFps := 0x20, period := 0, wins := [], burst := 0, rate := 0, pubId := 0, sentMessages := 0,
    sentMgmt := 0, superseded := 0, mgmtDropped := 0, bucket := 0, bucketAt := 0, mgmtSecond := 0, mgmtCount := 0,
    busyUntil := 0 }

/-- Plant-side publication state (ETH). -/
structure Eth where
  plant : Tbl PlantPort
  qsel : Tbl Nat
  /-- SequenceNumber of the next message of each publication. -/
  seqs : Tbl Nat
  pending : Tbl Message
  /-- Epoch and writing instant of the record that each publication last turned into a message (R568). -/
  taken : Tbl (Nat × Nat)
  deriving DecidableEq, Repr

def Eth.reset : Eth := { plant := [], qsel := [], seqs := [], pending := [], taken := [] }

/-- Port states of R573, coded as OCT_PSTATUS.state. -/
inductive OctState where
  | down | training | hello | up | fault
  deriving DecidableEq, Repr

/-- One Octur port (R572 to R576, R585). -/
structure OctPort where
  st : OctState
  peerModule : Nat
  peerPort : Nat
  retrains : Nat
  crc : Nat
  replays : Nat
  asym : Nat
  /-- Instant of the latest entry into FAULT. -/
  faultAt : Nat
  /-- Replays of the packet at the head of the replay buffer. -/
  replayCount : Nat
  /-- Link sequence number of the packet last replayed. -/
  replaySeq : Nat
  /-- Link sequence number of the next packet. -/
  seq : Nat
  /-- The replay buffer of 256 packets, oldest first: link sequence number, header, payload (R576). -/
  unacked : List (Nat × BitVec 128 × List Byte)
  deriving DecidableEq, Repr

def OctPort.reset : OctPort :=
  { st := .down, peerModule := 0, peerPort := 0, retrains := 0, crc := 0, replays := 0, asym := 0, faultAt := 0,
    replayCount := 0, replaySeq := 0, seq := 0, unacked := [] }

/-- What an outstanding request of this module waits for (R578, R579, R582). -/
inductive OctKind where
  | read | write
  | knot (knot : Nat) (guarded : Bool)
  | reset (d : Desc)
  deriving DecidableEq, Repr

/-- An outstanding request: tag, peer module, sender's DID, kind, issue instant. -/
structure OctReq where
  tag : Nat
  module : Nat
  did : Nat
  kind : OctKind
  issued : Nat
  /-- The work whose access it is, where that work may signal a knot (R98, R99). -/
  src : Option Source
  deriving DecidableEq, Repr

/-- A signal that waits until the remote writes of its work are acknowledged (R98, R99): the work, the signal, the peer module that holds the
knot (none: this module), and its class and requester. -/
structure HeldSignal where
  src : Source
  sig : Signal
  module : Option Nat
  guarded : Bool
  kind : Nat
  index : Nat
  deriving DecidableEq, Repr

/-- The Octur link (OCT). -/
structure Oct where
  enable : Bool
  torus : Bool
  rows : Nat
  cols : Nat
  module : Nat
  psel : Tbl Nat
  ports : Tbl OctPort
  throttled : Bool
  budget : Nat
  distance : Nat
  unreachable : Nat
  knotsLost : Nat
  nextTag : Nat
  requests : List OctReq
  /-- Signals that wait for acknowledgements, in issue order (R98, R99). -/
  held : List HeldSignal
  /-- Packets of a type that R575 does not list, dropped. -/
  otherTypes : Nat
  deriving DecidableEq, Repr

def Oct.reset : Oct :=
  { enable := false, torus := false, rows := 0, cols := 0, module := 0, psel := [], ports := [], throttled := false,
    budget := 0x19, distance := 0xF, unreachable := 0, knotsLost := 0, nextTag := 0, requests := [], held := [], otherTypes := 0 }

end Sys2Proof.Machine
end

