-- ==== Sys2Proof/Machine/StSeq.lean ====
section
/-! DEFINITION. State of the sequence manager, the sequence pipelines, the solver units and the layout engines (spec/15_tensor_layout.md, spec/16_sequence_pipeline.md, spec/17_qp_solver.md). -/

namespace Sys2Proof.Machine

/-- A page pool (R371, R373). -/
structure Pool where
  enable : Bool
  owner : Nat
  guarded : Bool
  base : Nat
  pages : Nat
  /-- Pages given to sequences, and pages found not to translate. -/
  taken : List Nat
  lost : List Nat
  deriving DecidableEq, Repr

def Pool.reset : Pool := { enable := false, owner := 0, guarded := false, base := 0, pages := 0, taken := [], lost := [] }

/-- A SEQ_APPEND that waits (R376, R378). -/
structure AppendWait where
  desc : Desc
  time : Nat
  invalid : Bool
  epoch : Nat
  /-- Waits for a page since this instant; none while an earlier position is pending. -/
  since : Option Nat
  deriving DecidableEq, Repr

/-- A sequence (R369, R370, R374). -/
structure Seq where
  active : Bool
  failed : Bool
  guarded : Bool
  ownerDid : Nat
  pool : Nat
  policy : Nat
  layers : Nat
  heads : Nat
  width : Nat
  format : Nat
  flow : Nat
  /-- Pages of the virtual range (page_limit). -/
  reservedPages : Nat
  stallUs : Nat
  base : Nat
  first : Nat
  count : Nat
  /-- Logical page of the first held page, and the pool pages held, in logical order. -/
  firstPage : Nat
  held : List Nat
  /-- The pending position's epoch. -/
  pending : Option Nat
  /-- Latest epochs for which an APPEND was accepted, newest first (R376). -/
  appended : List Nat
  waiting : List AppendWait
  slides : Nat
  exhausted : Nat
  discarded : Nat
  deriving DecidableEq, Repr

/-- A bias table (R384): heads, base_us, FP32 values. -/
structure Bias where
  heads : Nat
  baseUs : Nat
  values : List Nat
  guarded : Bool
  deriving DecidableEq, Repr

/-- An operation that a unit holds: its descriptor and, once started, its instant and what it took then. -/
structure Job where
  desc : Desc
  /-- The core or engine it may run on; none: any. -/
  on_ : Option Nat
  start : Nat
  /-- SEQ_ATTEND: first, count and pending position taken at its start (R381). -/
  first : Nat
  count : Nat
  pend : Option Nat
  deriving DecidableEq, Repr

/-- One sequence pipeline (R389). -/
structure Pipe where
  job : Option Job
  cls : Bool
  checkFail : Bool
  lastStatus : Nat
  emptyRows : Nat
  deriving DecidableEq, Repr

def Pipe.reset : Pipe := { job := none, cls := false, checkFail := false, lastStatus := 0, emptyRows := 0 }

/-- The sequence manager and the pipelines. -/
structure SeqUnit where
  pools : Tbl Pool
  seqs : Tbl Seq
  pipes : Tbl Pipe
  /-- SEQ_ATTENDs that wait for a pipeline. -/
  waiting : List Job
  /-- SEQ_TRIM and SEQ_DESTROY that wait for a running SEQ_ATTEND (R380). -/
  blocked : List Desc
  /-- Bias tables whose SRAM holds an uncorrectable error (R386, R478). -/
  badBias : List Nat
  sel : Tbl Nat
  poolSel : Tbl Nat
  deriving DecidableEq, Repr

def SeqUnit.reset : SeqUnit := { pools := [], seqs := [], pipes := [], waiting := [], blocked := [], badBias := [], sel := [], poolSel := [] }

/-- A solve under way (R395, R398, R399): start, deadline, the problem image as read at setup, and the initial point as FP64 vectors:
states, inputs, slacks, multipliers, costates; a dense form has z as its only state. -/
structure SolveRun where
  start : Nat
  deadline : Option Nat
  warm : Bool
  image : List Byte
  x : List (List Nat)
  u : List (List Nat)
  s : List (List Nat)
  l : List (List Nat)
  y : List (List Nat)
  /-- Keys of the bytes of its areas that another running solve's areas also hold (R409). -/
  mixed : List Nat
  deriving DecidableEq, Repr

/-- One solver unit (R413). -/
structure SolveUnit where
  job : Option Job
  run : Option SolveRun
  cls : Bool
  checkFail : Bool
  streamed : Bool
  lastStatus : Nat
  lastIter : Nat
  solves : Nat
  misses : Nat
  limits : Nat
  numerics : Nat
  checks : Nat
  pivots : Nat
  maxUs : Nat
  lastUs : Nat
  deriving DecidableEq, Repr

def SolveUnit.reset : SolveUnit :=
  { job := none, run := none, cls := false, checkFail := false, streamed := false, lastStatus := 0, lastIter := 0, solves := 0, misses := 0,
    limits := 0, numerics := 0, checks := 0, pivots := 0, maxUs := 0, lastUs := 0 }

/-- The solver units. -/
structure Solvers where
  units : Tbl SolveUnit
  waiting : List Job
  sel : Tbl Nat
  deriving DecidableEq, Repr

def Solvers.reset : Solvers := { units := [], waiting := [], sel := [] }

/-- One layout engine (R367). -/
structure LytEngine where
  job : Option Job
  /-- The operation's tensor descriptors as it read them when it started: status and bytes (R348). -/
  descs : List (Nat × List Byte)
  cls : Bool
  checkFail : Bool
  lastStatus : Nat
  opcode : Nat
  ops : Nat
  drop : Nat
  fill : Nat
  sat : Nat
  corrected : Nat
  uncorrectable : Nat
  deriving DecidableEq, Repr

def LytEngine.reset : LytEngine :=
  { job := none, descs := [], cls := false, checkFail := false, lastStatus := 0, opcode := 0, ops := 0, drop := 0, fill := 0, sat := 0,
    corrected := 0, uncorrectable := 0 }

/-- The layout engines. -/
structure Layout where
  engines : Tbl LytEngine
  waiting : List Job
  sel : Tbl Nat
  deriving DecidableEq, Repr

def Layout.reset : Layout := { engines := [], waiting := [], sel := [] }

end Sys2Proof.Machine
end

