-- ==== Sys2Proof/Machine/StCfg.lean ====
section
/-! DEFINITION. The configuration that spec/01_working_model.md R28 governs: a change takes effect at the next acq_start of a cadence that uses the object, and an epoch keeps the configuration it started with. -/

namespace Sys2Proof.Machine

/-- An output flow (R24, R69); guarded flows come from the safety configuration image (R440). -/
structure FlowCfg where
  guarded : Bool
  cadence : Nat
  enable : Bool
  grid : Option Nat
  /-- Device-wide completion ring (R69). -/
  cring : Option Nat
  deriving DecidableEq, Repr

/-- An input of a flow: a stream or a flow, required or optional (R189). -/
structure InputRef where
  isFlow : Bool
  required : Bool
  index : Nat
  deriving DecidableEq, Repr

/-- The configured objects. -/
structure Cfg where
  flows : Tbl FlowCfg
  tasks : Tbl BoundTask
  streams : Tbl StreamCfg
  entries : Tbl XEntry
  rigs : Tbl Rig
  joints : Tbl Joint
  egos : Tbl EgoCfg
  volumes : Tbl Volume
  grids : Tbl GridCfg
  /-- Areas by flow * 8 + grid (R265). -/
  areas : Tbl Area
  inputs : Tbl (List InputRef)
  biases : Tbl Bias
  /-- Publications (R566), which R28 governs under R565. -/
  pubs : Tbl Publication
  deriving DecidableEq, Repr

def Cfg.reset : Cfg :=
  { flows := [], tasks := [], streams := [], entries := [], rigs := [], joints := [], egos := [], volumes := [], grids := [],
    areas := [], inputs := [], biases := [], pubs := [] }

end Sys2Proof.Machine
end

