-- ==== Sys2Proof/Machine/StFld.lean ====
section
/-! DEFINITION. State of the field die but its clock (spec/25_field_side.md). -/

namespace Sys2Proof.Machine

/-- Settings of an encoder input (R605). -/
structure EncCfg where
  htl : Bool
  enable : Bool
  cadence : Nat
  k : Nat
  filter : Nat
  deriving DecidableEq, Repr

/-- Settings of a serial port (R605). -/
structure SerCfg where
  mode : Nat
  parity : Nat
  framing : Nat
  gap : Nat
  syncCount : Nat
  sync : Nat
  length : Nat
  rate : Nat
  deriving DecidableEq, Repr

/-- Settings of a digital input (R605). -/
structure DinCfg where
  edges : Nat
  enable : Bool
  filter : Nat
  deriving DecidableEq, Repr

/-- Settings of the channels: the field die's banks and inputs. -/
structure FldCfg where
  enc : Tbl EncCfg
  ser : Tbl SerCfg
  din : Tbl DinCfg
  deriving DecidableEq, Repr

def FldCfg.reset : FldCfg := { enc := [], ser := [], din := [] }

/-- A record of the field die on its way to the intake (R165, R590): channel, kind 0 encoder, 1 serial, 2 digital. -/
structure FieldRec where
  kind : Nat
  channel : Nat
  /-- Sample time in field time, units of 2^-16 ns, and its step generation. -/
  time : Int
  gen : Nat
  holdover : Bool
  payload : List Byte
  /-- Wrapping record counter of the channel. -/
  count : Nat
  deriving DecidableEq, Repr

/-- One encoder input (R593, R594). -/
structure EncSt where
  position : Int
  /-- Z pulses since power-up. -/
  zs : Nat
  /-- The latest epoch and index j sampled. -/
  last : Option (Nat × Nat)
  count : Nat
  fault : Bool
  illegal : Nat
  faults : Nat
  deriving DecidableEq, Repr

def EncSt.reset : EncSt :=
  { position := 0, zs := 0, last := none, count := 0, fault := false, illegal := 0, faults := 0 }

/-- One serial port. -/
structure SerSt where
  records : Nat
  discards : Nat
  /-- The second in which a framing record was last written. -/
  warned : Option Nat
  count : Nat
  deriving DecidableEq, Repr

def SerSt.reset : SerSt := { records := 0, discards := 0, warned := none, count := 0 }

/-- One digital input. -/
structure DinSt where
  level : Bool
  edges : Nat
  glitches : Nat
  count : Nat
  deriving DecidableEq, Repr

def DinSt.reset : DinSt := { level := false, edges := 0, glitches := 0, count := 0 }

/-- One safe-state channel at the field die (R600 to R603). -/
structure Switch where
  /-- Both switches on: ENERGISED. -/
  on_ : Bool
  /-- The request held by the field die. -/
  request : Bool
  /-- A local condition of R601 turned the channel off since the island last dropped its request. -/
  localOff : Bool
  /-- Consecutive read-backs that differ, and since when the load current is out of its range. -/
  bad : Nat
  overSince : Option Nat
  openSince : Option Nat
  openLoad : Bool
  ma : Nat
  hs : Bool
  ls : Bool
  lastTest : Nat
  deriving DecidableEq, Repr

def Switch.reset : Switch :=
  { on_ := false, request := false, localOff := false, bad := 0, overSince := none, openSince := none, openLoad := false, ma := 0, hs := false,
    ls := false, lastTest := 0 }

/-- The field die. -/
structure Fld where
  powered : Bool
  fwRunning : Bool
  overvoltage : Bool
  brownoutFlag : Bool
  /-- Non-volatile brown-out counter (R588). -/
  brownouts : Nat
  supply : Nat
  /-- Bank modes of the field die, and those the logic side keeps (R589, R591). -/
  banks : Tbl Nat
  bankCfg : Tbl Nat
  /-- The logic side's settings, and those the field die runs with. -/
  cfg : FldCfg
  live : FldCfg
  enc : Tbl EncSt
  ser : Tbl SerSt
  din : Tbl DinSt
  /-- Records buffered while the link is down, oldest first. -/
  buffer : List FieldRec
  dropped : Nat
  crc : Nat
  chSel : Tbl Nat
  /-- Line of a trigger output switched off by overload until this instant (R592). -/
  overload : Tbl Nat
  /-- Key as reported: 0 RUN, 1 MAINT, 2 KEY_FAULT; the present pair and since when it stands (R521). -/
  key : Nat
  pair : Nat
  pairSince : Nat
  /-- Seal loop: 0 intact, 1 open, 2 shorted; resistance; out of band since; latched break (R522, R599). -/
  sealSt : Nat
  sealOhm : Nat
  sealBad : Option Nat
  sealBroken : Bool
  sealLatched : Bool
  sw0 : Switch
  sw1 : Switch
  /-- Instants of the latest key reading, seal measurement and read-back. -/
  keyAt : Nat
  sealAt : Nat
  readAt : Nat
  /-- Arrival of the last valid heartbeat or request, in the field die's time. -/
  heartbeat : Option Nat
  readback : Bool
  /-- The FLD window's copy of the field die's state, by offset, per-channel words at 0x100 * channel + offset (R607). -/
  mirror : Tbl Nat
  deriving DecidableEq, Repr

def Fld.reset : Fld :=
  { powered := false, fwRunning := false, overvoltage := false, brownoutFlag := false, brownouts := 0, supply := 0, banks := [], bankCfg := [],
    cfg := FldCfg.reset, live := FldCfg.reset, enc := [], ser := [], din := [], buffer := [], dropped := 0, crc := 0, chSel := [],
    overload := [], key := 0, pair := 0, pairSince := 0, sealSt := 0, sealOhm := 0, sealBad := none, sealBroken := false, sealLatched := false,
    sw0 := Switch.reset, sw1 := Switch.reset, keyAt := 0, sealAt := 0, readAt := 0,
    heartbeat := none, readback := false, mirror := [] }

end Sys2Proof.Machine
end

