-- ==== Sys2Proof/Machine/StMem.lean ====
section
/-! DEFINITION. State of the memories, the MMU, the firewall and the memory controllers (spec/18_memory_translation.md; tile SRAM and core memory of spec/12_engine_execution.md and spec/13_engine_instructions.md R319). -/

namespace Sys2Proof.Machine

/-- A run of leaf entries of one context (R425): `pages` 64 KiB pages from virtual page `va`. Large runs stand for 32 MiB leaves. -/
structure LeafRun where
  va : Nat
  pages : Nat
  /-- 0 LOCAL, 1 HOST, 2 PEER. -/
  target : Nat
  read : Bool
  write : Bool
  managed : Bool
  large : Bool
  module : Nat
  /-- First target page (bits [63:16] of the target address). -/
  page : Nat
  deriving DecidableEq, Repr

/-- One translation context (R423). -/
structure Context where
  enable : Bool
  /-- Root table address in units of 32 KiB. -/
  root : Nat
  runs : List LeafRun
  deriving DecidableEq, Repr

def Context.reset : Context := { enable := false, root := 0, runs := [] }

/-- A cached translation: DID, virtual page in units of its size, and that size (R430). What it caches is the leaf of the tables, since
every change of a leaf invalidates it first (R429). -/
structure TlbEntry where
  did : Nat
  page : Nat
  large : Bool
  deriving DecidableEq, Repr

/-- A line that a slice of the system cache holds in one of its 16 ways (R421). -/
structure CacheLine where
  way : Nat
  /-- Physical address / 64. -/
  line : Nat
  dirty : Bool
  deriving DecidableEq, Repr

/-- The TLBs and the walker (R430), and the system cache (R421): TLBs 0 to 5 the core TLBs, 6 to 21 those of the routers at 6 + 4 y + x, 32 + i set i of the shared TLB;
newest entry first; the lines of set i of slice k at 4096 k + i, latest used first. `walks`: table walks. -/
structure Tlbs where
  held : Tbl (List TlbEntry)
  walks : Nat
  lines : Tbl (List CacheLine)
  deriving DecidableEq, Repr

def Tlbs.reset : Tlbs := { held := [], walks := 0, lines := [] }

/-- One firewall region (R433, R435); base and limit are physical address bits [47:16]. -/
structure Region where
  enable : Bool
  base : Nat
  limit : Nat
  rmask : Nat
  wmask : Nat
  guardWrite : Bool
  denials : Nat
  deriving DecidableEq, Repr

def Region.reset : Region :=
  { enable := false, base := 0, limit := 0, rmask := 0, wmask := 0, guardWrite := false, denials := 0 }

/-- The latest fault of a DID (MMU_FAULT_INFO and MMU_FAULT_VA, R436). -/
structure MmuFault where
  status : Nat
  valid : Bool
  write : Bool
  guarded : Bool
  level : Nat
  count : Nat
  va : Nat
  deriving DecidableEq, Repr

def MmuFault.reset : MmuFault :=
  { status := 0, valid := false, write := false, guarded := false, level := 0, count := 0, va := 0 }

/-- One memory controller (R415 to R420, R437). -/
structure MemCtl where
  trained : Bool
  hot : Bool
  mr4 : Nat
  ce : Nat
  ue : Nat
  ueAddr : Nat
  /-- MEM_SCRUB.period in hours. -/
  period : Nat
  behind : Bool
  /-- Next controller-local line of the patrol scrubber (R419). -/
  scrub : Nat
  /-- Instant at which the present sweep started. -/
  sweepAt : Nat
  deriving DecidableEq, Repr

def MemCtl.reset : MemCtl :=
  { trained := false, hot := false, mr4 := 0, ce := 0, ue := 0, ueAddr := 0, period := 0x18, behind := false, scrub := 0, sweepAt := 0 }

/-- The MMU, the firewall and the controllers. -/
structure Mmu where
  ctx : Tbl Context
  regions : Tbl Region
  faults : Tbl MmuFault
  /-- Entries invalidated for parity (MMU_TLB). -/
  parity : Nat
  ctxSel : Tbl Nat
  fwSel : Tbl Nat
  mcs : Tbl MemCtl
  memSel : Tbl Nat
  /-- MEM_SC_CFG.guarded_ways. -/
  guardedWays : Nat
  /-- Poisoned lines by physical address / 64, rising (R416). -/
  poison : List Nat
  deriving DecidableEq, Repr

def Mmu.reset : Mmu :=
  { ctx := [], regions := [], faults := [], parity := 0, ctxSel := [], fwSel := [], mcs := [],
    memSel := [], guardedWays := 0, poison := [] }

end Sys2Proof.Machine
end

