-- ==== Sys2Proof/Machine/StTime.lean ====
section
/-! DEFINITION. State of the time base unit, the PTP ports and the field die's clock (spec/05_time_base.md), and of the cadence generators, triggers and actions (spec/06_cadences_triggers.md). -/

namespace Sys2Proof.Machine

/-- Servo states of R106, coded as TBU_STATUS.state. -/
inductive Servo where
  | freerun | acquire | track | locked | holdover
  deriving DecidableEq, Repr

/-- PTP configuration of one port (R121, TBU_PORT_CFG to TBU_PORT_ASYM). -/
structure PtpPort where
  logDelay : Nat
  logSync : Nat
  role : Nat
  oneStep : Bool
  peer : Bool
  transport : Nat
  enable : Bool
  extTx : W32
  extRx : W32
  asym : W32
  /-- The latest Sync of the parent whose origin time is known: sequenceId and t1 with its correction (R114). -/
  sync : Option (Nat × Int)
  /-- The latest delay exchange: t4 - t3, and the step generation of t3 (R109, R114). -/
  delay : Option (Int × Nat)
  /-- A two-step Pdelay_Resp that waits for its Follow_Up: sequenceId, t4 - t1 and t2, the generations of t1 and t4 being one (R114). -/
  pdelay : Option (Nat × Int × Int)
  /-- The mean link delay of the peer-to-peer mechanism (R114). -/
  link : Option Int
  /-- θ samples averaged for the calibration of R115: sum and count. -/
  calSum : Int
  calCount : Nat
  /-- Delay_Req dropped over the limit of 4,096 per second (R110). -/
  reqDropped : Nat
  deriving DecidableEq, Repr

/-- Reset values: a plant port is SLAVE_ONLY, a sensor port MASTER_ONLY. -/
def PtpPort.reset (port : Nat) : PtpPort :=
  { logDelay := 0, logSync := 0xD, role := if 8 ≤ port then 1 else 0, oneStep := true, peer := false, transport := 0, enable := false,
    extTx := 0, extRx := 0, asym := 0, sync := none, delay := none, pdelay := none, link := none, calSum := 0, calCount := 0, reqDropped := 0 }

/-- A time-stamp entry of a port (R113); the time is in units of 2^-16 ns. -/
structure Stamp where
  port : Nat
  seq : Nat
  type : Nat
  gen : Nat
  time : Int
  deriving DecidableEq, Repr

/-- The time base unit (TBU). -/
structure Tb where
  /-- DT16F of the time counter (R101). -/
  frac : Nat
  lastCmd : Nat
  gen : Nat
  stepRefused : Bool
  refLost : Bool
  servo : Servo
  servoEn : Bool
  domain : Nat
  profile : Nat
  octurPort : Nat
  srcBackup : Nat
  srcPrimary : Nat
  /-- The servo switched to its backup source (R106). -/
  onBackup : Bool
  /-- REACQUIRE was given and no sample accepted since. -/
  reacquire : Bool
  operand : W64
  kp : W32
  ki : W32
  /-- y and i of R105, exact, in ppb; TBU_FREQ in units of 2^-6 ppb. -/
  y : Rat
  i : Rat
  yReg : Int
  /-- TBU_OFFSET, units 2^-8 ns. -/
  offset : Int
  /-- θ of the last accepted sample in 2^-16 ns, and its instant. -/
  lastTheta : Option Int
  lastAt : Nat
  rejects : Nat
  /-- Samples taken in ACQUIRE: θ and instant. -/
  acq : List (Int × Nat)
  lockRun : Nat
  farRun : Nat
  everLocked : Bool
  /-- y over the last 64 samples in LOCKED. -/
  lockedY : List Rat
  holdAt : Nat
  backupSeen : Bool
  outlier : Nat
  stepThreshold : Nat
  lockThreshold : Nat
  holdoverDelay : Nat
  freqLim : Nat
  utcValid : Bool
  utcOffset : Nat
  portSel : Tbl Nat
  ports : Tbl PtpPort
  egress : List Stamp
  ingress : List Stamp
  /-- Event messages without a time-stamp (R113), unsupported messages (R110). -/
  unstamped : Nat
  unsupported : Nat
  /-- Delay_Req answered per port in the running second. -/
  reqCount : Tbl (Nat × Nat)
  outWidth : Nat
  outForce : Bool
  ppsSel : Bool
  fldOutEn : Bool
  outEn : Bool
  inFalling : Bool
  outDelay : Nat
  inDelay : Nat
  /-- Frequency of CLK10M_IN in units of 2^-6 ppb from nominal, where present and valid (R116). -/
  clk10m : Option Int
  /-- SET_TOD waits for the next PPS edge: DT64 of that edge. -/
  setTod : Option Nat
  /-- The latest PPS stamp: time in 2^-16 ns, step generation, field-holdover bit (R109, R116, R118). -/
  pps : Option (Int × Nat × Bool)
  deriving DecidableEq, Repr

def Tb.reset : Tb :=
  { frac := 0, lastCmd := 0, gen := 0, stepRefused := false, refLost := false, servo := .freerun, servoEn := true, domain := 0,
    profile := 0, octurPort := 0, srcBackup := 0, srcPrimary := 1, onBackup := false, reacquire := false, operand := 0,
    kp := 0x8000, ki := 0x1000, y := 0, i := 0, yReg := 0, offset := 0, lastTheta := none, lastAt := 0, rejects := 0, acq := [],
    lockRun := 0, farRun := 0, everLocked := false, lockedY := [], holdAt := 0, backupSeen := false, outlier := 0x0A,
    stepThreshold := 1, lockThreshold := 0x32, holdoverDelay := 0x7D0, freqLim := 0x7530, utcValid := false, utcOffset := 0,
    portSel := [], ports := [], egress := [], ingress := [], unstamped := 0, unsupported := 0, reqCount := [],
    outWidth := 0x64, outForce := false, ppsSel := false, fldOutEn := false, outEn := false, inFalling := false, outDelay := 0,
    inDelay := 0, clk10m := none, setTod := none, pps := none }

/-- FLD states, coded as TBU_FLD_STATUS.state. -/
inductive FldState where
  | down | acquire | locked | holdover
  deriving DecidableEq, Repr

/-- The field die's clock and the field link (R117 to R119). -/
structure FldTime where
  st : FldState
  linkUp : Bool
  /-- The link has been up since power-on reset. -/
  wasUp : Bool
  /-- Field time is valid: stepped by a completed exchange since power-up or brown-out. -/
  valid : Bool
  /-- Field time minus device time, units 2^-16 ns. -/
  off : Int
  gen : Nat
  /-- Last field θ, units 2^-4 ns, and the delay d of the link, units 2^-16 ns (R117). -/
  error : Int
  delay : Int
  /-- The field-holdover bit that every stamp carries, from a link loss until LOCKED again (R118, R119). -/
  hold : Bool
  relinks : Nat
  aFld : W32
  y : Rat
  i : Rat
  lastAt : Nat
  inRun : Nat
  /-- Events discarded while field time was invalid. -/
  discarded : Nat
  deriving DecidableEq, Repr

def FldTime.reset : FldTime :=
  { st := .down, linkUp := false, wasUp := false, valid := false, off := 0, gen := 0, error := 0, delay := 0, hold := false, relinks := 0, aFld := 0, y := 0, i := 0,
    lastAt := 0, inRun := 0, discarded := 0 }

/-- Cadence states of R20, coded as TBU_CAD_STATUS.state. -/
inductive CadState where
  | stopped | armed | running
  deriving DecidableEq, Repr

/-- One cadence generator (R19, R124, R137, R141). Times in ns; the budget in µs as configured. -/
structure Cadence where
  st : CadState
  trimFrac : Nat
  catchupLimit : Nat
  period : Nat
  phase : Nat
  acqWindow : Nat
  tovOffset : Nat
  closeMargin : Nat
  budget : Nat
  /-- Start index of the arming. -/
  start : Nat
  /-- Indices of the next acq_start, close and deadline to be reached. -/
  nextStart : Nat
  nextClose : Nat
  nextDeadline : Nat
  /-- The last epoch that a CAD_STOP lets run. -/
  last : Option Nat
  debt : Nat
  cut : Nat
  /-- Consecutive epochs with cut > 0. -/
  catchupRun : Nat
  stalled : Bool
  reef : Nat
  /-- Index of the latest close. -/
  epoch : Nat
  late : Nat
  abandoned : Nat
  /-- d_core and d_grid of the previous completed epoch (R139). -/
  dCore : Nat
  dGrid : Nat
  deriving DecidableEq, Repr

def Cadence.reset : Cadence :=
  { st := .stopped, trimFrac := 0x40, catchupLimit := 64, period := 0, phase := 0, acqWindow := 0, tovOffset := 0, closeMargin := 0,
    budget := 0, start := 0, nextStart := 0, nextClose := 0, nextDeadline := 0, last := none, debt := 0, cut := 0, catchupRun := 0, stalled := false,
    reef := 0, epoch := 0, late := 0, abandoned := 0, dCore := 0, dGrid := 0 }

/-- A trigger output (R126, R127). -/
structure TrigOut where
  cadence : Nat
  activeLow : Bool
  enable : Bool
  /-- The enable bit from the next acq_start on (R128). -/
  enableNext : Bool
  divider : Nat
  divPhase : Nat
  offset : Nat
  width : Nat
  /-- The latest epoch index for which the output fired. -/
  fired : Option Nat
  /-- Instant at which the pulse in progress ends. -/
  activeUntil : Option Nat
  /-- The outputs resume from this instant after a brown-out (R127). -/
  resumeAt : Nat
  deriving DecidableEq, Repr

def TrigOut.reset : TrigOut :=
  { cadence := 0, activeLow := false, enable := false, enableNext := false, divider := 0, divPhase := 0, offset := 0, width := 0,
    fired := none, activeUntil := none, resumeAt := 0 }

/-- An action schedule (R129). -/
structure Action where
  cadence : Nat
  port : Nat
  broadcast : Bool
  ackReq : Bool
  enable : Bool
  enableNext : Bool
  divider : Nat
  divPhase : Nat
  partner : Nat
  lead : Nat
  offset : Nat
  deviceKey : Nat
  groupKey : Nat
  groupMask : Nat
  sent : Option Nat
  /-- Action time of a command that a link-down state holds back (R130). -/
  held : Option Nat
  deriving DecidableEq, Repr

def Action.reset : Action :=
  { cadence := 0, port := 0, broadcast := false, ackReq := false, enable := false, enableNext := false, divider := 0, divPhase := 0,
    partner := 0, lead := 20, offset := 0, deviceKey := 0, groupKey := 0, groupMask := 0, sent := none, held := none }

/-- A trigger instant that a monitored stream waits on (R132). -/
structure Instant where
  time : Nat
  matched : Bool
  acked : Bool
  deriving DecidableEq, Repr

/-- A trigger monitor (R131 to R133, TBU_MON registers). -/
structure TrigMon where
  source : Nat
  action : Bool
  enable : Bool
  checkTs : Bool
  expDelay : Nat
  exposure : Nat
  latMax : Nat
  tsTol : Nat
  instants : List Instant
  missed : Nat
  unmatched : Nat
  missRun : Nat
  latLargest : Nat
  latLast : Nat
  tsErrors : Nat
  tsLast : Int
  deriving DecidableEq, Repr

/-- Cadences, triggers and actions. -/
structure Trig where
  cads : Tbl Cadence
  outs : Tbl TrigOut
  actions : Tbl Action
  mons : Tbl TrigMon
  cadSel : Tbl Nat
  monSel : Tbl Nat
  /-- CAD_ARM descriptors that wait for start-up injections: descriptor, cadence, result (R553). -/
  arming : List (Desc × Nat × Nat)
  deriving DecidableEq, Repr

def Trig.reset : Trig := { cads := [], outs := [], actions := [], mons := [], cadSel := [], monSel := [], arming := [] }

end Sys2Proof.Machine
end

