-- ==== Sys2Proof/Machine/StImage.lean ====
section
/-! DEFINITION. The contents of a safety configuration image (spec/19_safety_concept.md R440, R441, R450, R451, spec/22_security_presence.md R517). -/

namespace Sys2Proof.Machine

/-- A flow safety entry (R441). Recipes: 0 HOLD, 1 LINEAR, 2 SAFE_MOVE, 3 STOP. The flow's cadence and grid stand
beside it: the image binds them, and the entry's layout has no place for them (log entry 30). -/
structure FlowSafety where
  cadence : Nat
  grid : Option Nat
  recipe : Nat
  stop0 : Bool
  stop1 : Bool
  index : Nat
  recoveryMs : Nat
  holdMs : Nat
  ageMax : Nat
  outSlots : Nat
  did : Nat
  resultBytes : Nat
  resultBase : Nat
  deriving DecidableEq, Repr

/-- An output of a LINEAR estimator: bias and limits as FP32 bits (R450). -/
structure LinOut where
  b : Nat
  lo : Nat
  hi : Nat
  deriving DecidableEq, Repr

/-- A term of a LINEAR estimator: tag, default and weights as FP32 bits (R450). -/
structure LinTerm where
  tag : Nat
  dflt : Nat
  w : List Nat
  deriving DecidableEq, Repr

/-- A LINEAR estimator (R450). -/
structure Linear where
  missMax : Nat
  outs : List LinOut
  terms : List LinTerm
  deriving DecidableEq, Repr

/-- Alignment parameters of a stream (R198). -/
structure SplPar where
  selectAll : Bool
  driftOff : Bool
  maxGap : Nat
  extrapMax : Nat
  maxAge : Nat
  statusMask : Nat
  deriving DecidableEq, Repr

/-- A stage window watchdog (R471), in µs after close(n). -/
structure Window where
  enable : Bool
  open_ : Nat
  close : Nat
  deriving DecidableEq, Repr

/-- Quiet-mode settings of a plant port: record type 20 (R564). -/
structure Quiet where
  txEn : Bool
  mgmtFps : Nat
  period : Nat
  wins : Tbl (Nat × Nat)
  burst : Nat
  rate : Nat
  pubId : Nat
  deriving DecidableEq, Repr

/-- The contents of an image (R440, record types 1 to 22). -/
structure Image where
  /-- Type 1; a value the image leaves at 0 selects its default. -/
  mismatchEpochs : Nat
  fatalReset : Bool
  readmitMax : Nat
  guardedWays : Nat
  scrubHours : Nat
  windowMax : Nat
  octurResetEn : Bool
  perstScope : Bool
  plimit : Nat
  /-- Types 2 to 4. -/
  flows : Tbl FlowSafety
  linear : Tbl Linear
  moves : Tbl (List Nat)
  /-- Types 5 and 6. -/
  inputs : Tbl (List InputRef)
  streams : Tbl SplPar
  /-- Types 7 and 8. -/
  digests : List Nat
  tasks : Tbl BoundTask
  reserved : List Nat
  /-- Types 9 to 14. -/
  entries : Tbl XEntry
  rigs : Tbl Rig
  joints : Tbl Joint
  mounts : Tbl (Nat × Nat × Nat × Bool)
  egos : Tbl EgoCfg
  volumes : Tbl Volume
  /-- Types 15 and 16. -/
  grids : Tbl GridCfg
  areas : Tbl Area
  /-- Type 17. -/
  pools : Tbl Pool
  seqs : Tbl Seq
  biases : Tbl Bias
  /-- Types 18 and 19; windows by 8 * cadence + stage. -/
  regions : Tbl Region
  windows : Tbl Window
  /-- Types 20 to 22. -/
  plant : Tbl Quiet
  pubs : Tbl Publication
  banks : Tbl Nat
  field : FldCfg
  outs : Tbl TrigOut
  actions : Tbl Action
  mons : Tbl TrigMon
  deriving DecidableEq, Repr

end Sys2Proof.Machine
end

