-- ==== Sys2Proof/Syntax.lean ====
section
/-! DEFINITION. The commands of the block, one constructor per row of spec/opcode_table.json, with their operands. -/

namespace Sys2Proof

open Sys2Proof.Machine

/-- The commands: one constructor per row of spec/opcode_table.json, in the table's order. -/
inductive Instr where
  /-- REGISTER_WRITE (R5). A BAR0 write to a register that has no row of its own lands, is merged under the access codes, or is dropped. -/
  | registerWrite (w : RegWrite)
  /-- REGISTER_READ_LO (R6). A read of a _LO register captures the whole 64-bit value into the reading DID's snapshot. -/
  | registerReadLo (a : BarAccess)
  /-- REGISTER_WRITE_LO (R6). A write to a _LO register is held for the writing DID. -/
  | registerWriteLo (a : BarAccess)
  /-- REGISTER_WRITE_HI (R6). A write to a _HI register combines with the held low half and applies the 64-bit value in one FAB cycle. -/
  | registerWriteHi (a : BarAccess)
  /-- BAR2_WINDOW_ACCESS (R55). A PCIe access through the BAR2 window is translated in the DID 2 context and checked at the firewall. -/
  | bar2WindowAccess (write : Bool) (offset : Nat) (bytes : List Byte)
  /-- FUNCTION_LEVEL_RESET (R52). A function-level reset returns the function's rings to IDLE and ends its in-flight descriptors. -/
  | functionLevelReset (fn : Nat)
  /-- HIF_FN_ASSIGN (R56). A write of HIF_FN_SRINGS or HIF_FN_CRINGS assigns a ring block to a function, or is dropped and sets alloc_drop. -/
  | hifFnAssign (did : Nat) (completion : Bool) (value : W32)
  /-- START (R60). HIF_RING_CMD START moves a ring to RUNNING if its checks pass. -/
  | start (did : Nat)
  /-- STOP (R60). HIF_RING_CMD STOP ends fetching and aborts fetched descriptors that have not started. -/
  | stop (did : Nat)
  /-- RESET (R60). HIF_RING_CMD RESET zeroes the ring's indices and discards held flow records. -/
  | reset (did : Nat)
  /-- SRING_STOPPED (R60). Once a stopped submission ring's executing descriptors finish, the ring enters STOPPED and the ring event is written. -/
  | sringStopped (ring : Nat)
  /-- DOORBELL_POLL (R64). The poll interval of a ring expires and the device issues a doorbell read, subject to the rate limit. -/
  | doorbellPoll
  /-- DOORBELL_POLL_RETURN (R62). A doorbell read returns; the device checks it, and reserves entries and fetches descriptors or adapts the interval. -/
  | doorbellPollReturn (completion : Bool) (ring : Nat) (record : Option (BitVec 128))
  /-- DESCRIPTOR_ARRIVAL (R70). A fetched descriptor arrives and is checked, then dispatched or completed with an error status. -/
  | descriptorArrival (holder : DescHolder) (index : BitVec 32) (bytes : Option (BitVec 512))
  /-- NOP (R68). The HIF NOP descriptor completes with result 0. -/
  | nop (d : Desc)
  /-- TIME_MARK (R68). TIME_MARK returns the FAB copy of DT64 at execution. -/
  | timeMark (d : Desc)
  /-- FLOW_CONFIG (R69). FLOW_CONFIG creates or changes an advisory output flow. -/
  | flowConfig (d : Desc)
  /-- FLOW_RING (R69). FLOW_RING names the completion ring of a flow. -/
  | flowRing (d : Desc)
  /-- FLOW_DELETE (R69). FLOW_DELETE deletes an advisory flow that no object names. -/
  | flowDelete (d : Desc)
  /-- MSIX_MODERATION_EXPIRY (R508). A vector's moderation interval ends and one message covering the held requests is sent, or its PBA bit is set. -/
  | msixModerationExpiry (vector : Nat)
  /-- MSIX_VECTOR_UNMASK (R80). Unmasking a vector with its PBA bit set sends one message. -/
  | msixVectorUnmask (vector : Nat)
  /-- Q_CREATE (R84). Q_CREATE claims a FREE queue with its width, count, policy and linked knots. -/
  | qCreate (d : Desc)
  /-- Q_DESTROY (R84). Q_DESTROY returns an empty, unblocked queue to FREE. -/
  | qDestroy (d : Desc)
  /-- Q_FLUSH (R90). Q_FLUSH discards a queue's contents and aborts blocked producers. -/
  | qFlush (d : Desc)
  /-- Q_QUERY (R83). Q_QUERY returns a queue's head and tail. -/
  | qQuery (d : Desc)
  /-- BLOCKED_ENQUEUE_RESUME (R87). A dequeue frees a slot and a blocked producer's enqueue proceeds. -/
  | blockedEnqueueResume (queue : Nat)
  /-- QMU_BACKGROUND_SWEEP (R88). The background sweep checks a queue context's pointer copies and SECDED. -/
  | qmuBackgroundSweep (fault : Nat) (queue : Nat)
  /-- K_INIT (R93). K_INIT claims or re-initialises a knot with its value, mask and class. -/
  | kInit (d : Desc)
  /-- K_SIGNAL (R92). K_SIGNAL adds to a knot or sets it. -/
  | kSignal (d : Desc)
  /-- K_READ (R92). K_READ returns a knot's value. -/
  | kRead (d : Desc)
  /-- K_FREE (R93). K_FREE returns a knot to FREE. -/
  | kFree (d : Desc)
  /-- KNOT_WAIT_RELEASE (R92). A knot change satisfies a registered wait and releases the waiting descriptor or thread. -/
  | knotWaitRelease (knot : Nat)
  /-- KNOT_WAIT_RETRY (R96). A descriptor of the source whose wait found the table full retries its registration after 1 µs; `turn` tells a source's descriptors apart. -/
  | knotWaitRetry (src : Source) (turn : Nat)
  /-- KNOT_POISONED (R97). An uncorrectable knot RAM error poisons the knot and completes its waits with INTERNAL. -/
  | knotPoisoned (knot : Nat)
  /-- STEP (R108). TBU_CMD STEP steps the time counter by the operand if every cadence is STOPPED. -/
  | step (did : Nat)
  /-- REACQUIRE (R106). TBU_CMD REACQUIRE restarts servo acquisition. -/
  | reacquire (did : Nat)
  /-- TIME_RESET (R120). TBU_CMD TIME_RESET stops the cadences, abandons epochs and zeroes device time within a presence window. -/
  | timeReset (did : Nat)
  /-- SET_TOD (R108). TBU_CMD SET_TOD arms a step of device time to the operand at the next PPS edge. -/
  | setTod (did : Nat)
  /-- PTP_MESSAGE_RX (R110). A PTP message received on a port is time-stamped and handled by firmware. -/
  | ptpMessageRx (m : PtpMsg)
  /-- PTP_MESSAGE_TX (R111). A port's PTP message interval expires and a Sync, Announce or delay request is sent. -/
  | ptpMessageTx (m : PtpMsg)
  /-- SERVO_SAMPLE (R105). An offset sample of the port's Sync `seq` reaches the servo, which updates the DPLL correction and its state; firmware reads so many time-stamps. -/
  | servoSample (port seq ingress egress : Nat)
  /-- SERVO_HOLDOVER_TIMEOUT (R106). holdover_delay passes without an accepted sample and the servo enters HOLDOVER or switches to its backup source. -/
  | servoHoldoverTimeout
  /-- DPLL_REF_LOST (R101). The DPLL reference is lost; the DPLL continues from the TCXO and ref_lost is set. -/
  | dpllRefLost
  /-- PPS_IN_EDGE (R116). A configured PPS_IN or FLD_PPS_IN edge is time-stamped and yields a PPS sample or a pending SET_TOD step. -/
  | ppsInEdge (field falling : Bool) (sub : Nat)
  /-- PPS_OUT_EDGE (R116). PPS_OUT and FLD_PPS_OUT are driven at a whole DT64 second. -/
  | ppsOutEdge
  /-- CLK10M_GATE (R116). A 1 s gate ends and the CLK10M_IN frequency is measured. -/
  | clk10mGate (freq : Option Int)
  /-- FIELD_TIME_MARKER (R117). A 10 µs field-link time marker exchange updates the field servo, or steps field time. -/
  | fieldTimeMarker (ta tb tc : Int) (td : Option Int)
  /-- FIELD_LINK_DOWN (R119). The eighth missed marker takes the field link down and the field die into FLD HOLDOVER. -/
  | fieldLinkDown
  /-- FIELD_LINK_UP (R119). The field link returns; the field die slews or steps, and buffered records are sent. -/
  | fieldLinkUp
  /-- CAD_CONFIG (R124). CAD_CONFIG sets a stopped cadence's parameters. -/
  | cadConfig (d : Desc)
  /-- CAD_ARM (R125). CAD_ARM arms a STOPPED cadence with a start index. -/
  | cadArm (d : Desc)
  /-- CAD_STOP (R125). CAD_STOP ends the generation of new epochs of a cadence. -/
  | cadStop (d : Desc)
  /-- TRIG_CONFIG (R126). TRIG_CONFIG binds a trigger output to a cadence with its offset, width and divider. -/
  | trigConfig (d : Desc)
  /-- ACT_CONFIG (R129). ACT_CONFIG configures a scheduled action command schedule. -/
  | actConfig (d : Desc)
  /-- TRIG_MON (R131). TRIG_MON binds a camera stream to its trigger source and sets its monitoring limits. -/
  | trigMon (d : Desc)
  /-- FLOW_CATCHUP (R138). FLOW_CATCHUP sets the catch-up mode of an advisory flow. -/
  | flowCatchup (d : Desc)
  /-- CADENCE_ACQ_START (R19). acq_start(n) of a cadence is reached; the cadence enters RUNNING and pending configuration changes apply. -/
  | cadenceAcqStart (c : Nat)
  /-- CADENCE_CLOSE (R95). close(n) of a cadence is reached; its knot is set, catch-up is computed and ALIGN begins. -/
  | cadenceClose (c : Nat)
  /-- CADENCE_DEADLINE (R134). deadline(n) passes; late work is marked, missing guarded verdicts fail, and epoch n − 1 is abandoned. -/
  | cadenceDeadline (c : Nat)
  /-- EPOCH_WORK_FINISH (R137). The last non-deferred work of an epoch ends and the cadence's debt is updated. -/
  | epochWorkFinish (c n : Nat)
  /-- TRIGGER_EDGE (R127). The field die places a trigger output edge at its instant. -/
  | triggerEdge (output : Nat)
  /-- ACTION_CMD_SEND (R130). A scheduled ACTION_CMD is sent at t_act − lead, or reported late. -/
  | actionCmdSend (action hold : Nat)
  /-- ACTION_ACK_RX (R132). A GVCP ACTION_ACK is received for a monitored action. -/
  | actionAckRx (action : Nat)
  /-- TRIGGER_MISSED (R132). lat_max passes after a trigger instant with no frame or acknowledgement, and a MISSED is counted. -/
  | triggerMissed (stream : Nat)
  /-- PORT_CONFIG (R146). PORT_CONFIG sets a port's speed, VLAN and addresses. -/
  | portConfig (d : Desc)
  /-- PARTNER_SET (R148). PARTNER_SET configures a partner entry. -/
  | partnerSet (d : Desc)
  /-- PARTNER_CLEAR (R146). PARTNER_CLEAR removes a partner entry. -/
  | partnerClear (d : Desc)
  /-- STREAM_CONFIG (R150). STREAM_CONFIG configures a stream context and its ring. -/
  | streamConfig (d : Desc)
  /-- STREAM_ENABLE (R146). STREAM_ENABLE enables or disables a stream. -/
  | streamEnable (d : Desc)
  /-- UCODE_LOAD (R146). UCODE_LOAD loads a parser microcode program. -/
  | ucodeLoad (d : Desc)
  /-- TAG_MAP (R167). TAG_MAP maps DataSetMessage fields of a TAG stream to tags. -/
  | tagMap (d : Desc)
  /-- TEST_INJECT (R174). TEST_INJECT requests a test sample injection into a stream. -/
  | testInject (d : Desc)
  /-- TAG_READ (R146). TAG_READ returns a tag table entry's value and StatusCode. -/
  | tagRead (d : Desc)
  /-- STREAM_DELETE (R147). STREAM_DELETE returns a DISABLED stream to its unconfigured state. -/
  | streamDelete (d : Desc)
  /-- FRAME_RECEIVE (R143). A frame arrives at a port and is classified, answered, buffered or dropped. -/
  | frameReceive (f : Frame)
  /-- PARSER_RUN (R159). A parser takes a waiting frame, parses it into a sample, runs the Mirage check and commits it to the stream ring. -/
  | parserRun (w : ParserTurn)
  /-- GVSP_FRAME_TIMEOUT (R156). 10 ms after its last packet a GVSP frame ends and is committed or discarded as partial. -/
  | gvspFrameTimeout (stream : Nat)
  /-- FIELD_RECORD_RX (R165). An encoder, digital or serial record from the field die arrives and is committed to its stream. -/
  | fieldRecordRx
  /-- TAG_WRITE_RESUME (R187). After the Splice copy of a stream's tags for a cadence, the deferred tag messages are applied in arrival order. -/
  | tagWriteResume (copied : Nat × Nat)
  /-- TEST_INJECTION_START (R175). At the stream's next blanking interval the test sample is injected and checked by the Splice unit. -/
  | testInjectionStart (stream : Nat)
  /-- TEST_INJECT_TIMEOUT (R175). No blanking interval arrives within 100 ms and the injection completes with ABORTED. -/
  | testInjectTimeout (stream : Nat)
  /-- STREAM_FROZEN_RECOVERY (R173). After 8 passing samples and a passing injection, the stream leaves FROZEN at the next acq_start. -/
  | streamFrozenRecovery (stream : Nat)
  /-- STREAM_TIME_RESTORED (R193). After 8 consecutive consistent epochs a TIME_SUSPECT stream returns at the next acq_start. -/
  | streamTimeRestored (stream : Nat)
  /-- CONTESTED_EXPIRY (R261). At the eighth close after entry a stream leaves CONTESTED. -/
  | contestedExpiry (stream : Nat)
  /-- ALIGN_END (R195). The Splice unit finishes the epoch table and ALIGN ends. -/
  | alignEnd (c : Nat)
  /-- SPL_STREAM (R198). SPL_STREAM sets a stream's alignment parameters. -/
  | splStream (d : Desc)
  /-- SPL_INPUTS (R189). SPL_INPUTS sets the input list of an advisory flow. -/
  | splInputs (d : Desc)
  /-- SPL_SNAPSHOT (R197). SPL_SNAPSHOT copies the latest completed epoch table. -/
  | splSnapshot (d : Desc)
  /-- POSE_EVALUATION (R210). After ALIGN, the transform unit evaluates the epoch's pose and joint records. -/
  | poseEvaluation (bad : List Nat)
  /-- EGO_MOTION (R216). An ego group deskews, registers and updates its estimate for the epoch. -/
  | egoMotion (g : Nat)
  /-- XFT_ENTRY (R221). XFT_ENTRY writes a transform table entry. -/
  | xftEntry (d : Desc)
  /-- XFT_RIG (R221). XFT_RIG configures a rig. -/
  | xftRig (d : Desc)
  /-- XFT_JOINT (R222). XFT_JOINT configures a joint. -/
  | xftJoint (d : Desc)
  /-- XFT_MOUNT (R221). XFT_MOUNT attaches or detaches a stream mount. -/
  | xftMount (d : Desc)
  /-- XFT_EGO (R223). XFT_EGO configures an ego group. -/
  | xftEgo (d : Desc)
  /-- XFT_SET_REF (R206). XFT_SET_REF sets the reference of a FIXED joint. -/
  | xftSetRef (d : Desc)
  /-- XFT_DELETE (R221). XFT_DELETE returns an entry, joint, rig or ego group to its unconfigured state. -/
  | xftDelete (d : Desc)
  /-- VOXEL_BUILD (R233). The Erg unit builds the epoch's point frames, voxel table, site list and maps. -/
  | voxelBuild (unit errs : Nat)
  /-- ERG_VOLUME (R225). ERG_VOLUME configures an Erg unit's volume. -/
  | ergVolume (d : Desc)
  /-- ERG_KNN (R238). ERG_KNN performs a neighbour search. -/
  | ergKnn (d : Desc)
  /-- ERG_FPS (R239). ERG_FPS performs farthest-point sampling. -/
  | ergFps (d : Desc)
  /-- ERG_RULES (R240). ERG_RULES writes a sparse convolution rulebook. -/
  | ergRules (d : Desc)
  /-- ERG_BEV (R242). ERG_BEV scatters site features onto a bird's-eye grid. -/
  | ergBev (d : Desc)
  /-- GRID_CONFIG (R251). GRID_CONFIG configures a site grid. -/
  | gridConfig (d : Desc)
  /-- GRID_SOURCE (R253). GRID_SOURCE binds a grid source slot to a stream. -/
  | gridSource (d : Desc)
  /-- GRID_OUTPUT (R267). GRID_OUTPUT sets the output of a grid's flow. -/
  | gridOutput (d : Desc)
  /-- GRID_AREA (R265). GRID_AREA sets an advisory flow's grid area and unseen limit. -/
  | gridArea (d : Desc)
  /-- GRID_DELETE (R250). GRID_DELETE disables a grid and removes its sources, areas and output. -/
  | gridDelete (d : Desc)
  /-- FUSE_STEP_START (R254). A grid's next fusion step starts once the previous one has finished and its writes are visible. -/
  | fuseStepStart (g : Nat)
  /-- ENG_PROG_LOAD (R283). ENG_PROG_LOAD registers and checks a program image under a handle. -/
  | engProgLoad (d : Desc)
  /-- ENG_PROG_FREE (R283). ENG_PROG_FREE releases a program handle. -/
  | engProgFree (d : Desc)
  /-- ENG_TASK (R286). ENG_TASK submits a one-shot engine task. -/
  | engTask (d : Desc)
  /-- ENG_TASK_BIND (R287). ENG_TASK_BIND binds a periodic task to a flow's stage. -/
  | engTaskBind (d : Desc)
  /-- ENG_TASK_UNBIND (R285). ENG_TASK_UNBIND removes a bound task. -/
  | engTaskUnbind (d : Desc)
  /-- BOUND_TASK_READY (R287). A bound task's predecessors end for the epoch and it becomes ready. -/
  | boundTaskReady (h : Nat)
  /-- INSTANCE_PLACEMENT (R288). Firmware places a waiting instance on a candidate engine once resources allow. -/
  | instancePlacement
  /-- INSTANCE_END (R274). All threads of an instance end or halt; the instance and possibly its task end. -/
  | instanceEnd (inst : Nat)
  /-- FETCH_ARRIVAL (R273). A thread's fetch block arrives and the thread becomes eligible. -/
  | fetchArrival (t ecc : Nat)
  /-- LOAD_RETURN (R279). A thread's outstanding load returns its data or faults. -/
  | loadReturn (t ecc : Nat)
  /-- COPY_DONE (R281). A copy request's bytes are all visible; done advances and its knot is signalled. -/
  | copyDone (t : Nat)
  /-- RESIDUE_VERDICT (R293). A residue or duplication verdict arrives; held effects are released or the instance ends with CHECK_MISMATCH. -/
  | residueVerdict (t : Nat) (pass : Bool)
  /-- QUEUE_ANSWER (R323). The queue management unit answers a QPUSH or QPOP and the thread resumes. -/
  | queueAnswer (t : Nat)
  /-- CALL_COMPLETION (R299). A called unit writes its completion record into the window and frees the call slot. -/
  | callCompletion (t slot : Nat)
  /-- ENG_NOP (R305). Engine NOP does nothing. -/
  | engNop (t : Nat) (e : Enc)
  /-- ADD (R305). Scalar add modulo 2^64. -/
  | add (t : Nat) (e : Enc)
  /-- SUB (R305). Scalar subtract modulo 2^64. -/
  | sub (t : Nat) (e : Enc)
  /-- AND (R305). Scalar bitwise and. -/
  | and (t : Nat) (e : Enc)
  /-- OR (R305). Scalar bitwise or. -/
  | or (t : Nat) (e : Enc)
  /-- XOR (R305). Scalar bitwise exclusive or. -/
  | xor (t : Nat) (e : Enc)
  /-- SHL (R305). Scalar shift left. -/
  | shl (t : Nat) (e : Enc)
  /-- SHR (R305). Scalar logical shift right. -/
  | shr (t : Nat) (e : Enc)
  /-- SAR (R305). Scalar arithmetic shift right. -/
  | sar (t : Nat) (e : Enc)
  /-- MIN (R305). Scalar signed minimum. -/
  | min (t : Nat) (e : Enc)
  /-- MAX (R305). Scalar signed maximum. -/
  | max (t : Nat) (e : Enc)
  /-- MINU (R305). Scalar unsigned minimum. -/
  | minu (t : Nat) (e : Enc)
  /-- MAXU (R305). Scalar unsigned maximum. -/
  | maxu (t : Nat) (e : Enc)
  /-- SLT (R305). Scalar signed set-less-than. -/
  | slt (t : Nat) (e : Enc)
  /-- SLTU (R305). Scalar unsigned set-less-than. -/
  | sltu (t : Nat) (e : Enc)
  /-- SEQ (R305). Scalar set-equal. -/
  | seq (t : Nat) (e : Enc)
  /-- MUL (R305). Scalar multiply, low 64 bits. -/
  | mul (t : Nat) (e : Enc)
  /-- MULH (R305). Scalar signed multiply, high 64 bits. -/
  | mulh (t : Nat) (e : Enc)
  /-- MULHU (R305). Scalar unsigned multiply, high 64 bits. -/
  | mulhu (t : Nat) (e : Enc)
  /-- DIV (R305). Scalar signed division on the engine's divider. -/
  | div (t : Nat) (e : Enc)
  /-- DIVU (R305). Scalar unsigned division. -/
  | divu (t : Nat) (e : Enc)
  /-- REM (R305). Scalar signed remainder. -/
  | rem (t : Nat) (e : Enc)
  /-- REMU (R305). Scalar unsigned remainder. -/
  | remu (t : Nat) (e : Enc)
  /-- MOVI (R305). Scalar move of a sign-extended immediate. -/
  | movi (t : Nat) (e : Enc)
  /-- MOVHI (R305). Scalar move of an immediate into the high word. -/
  | movhi (t : Nat) (e : Enc)
  /-- MFS (R306). Read a special register. -/
  | mfs (t : Nat) (e : Enc)
  /-- MTS (R306). Write a special register. -/
  | mts (t : Nat) (e : Enc)
  /-- RDTIME (R305). Read the ENG copy of DT64. -/
  | rdtime (t : Nat) (e : Enc)
  /-- LDT (R307). Scalar load from tile SRAM. -/
  | ldt (t : Nat) (e : Enc)
  /-- STT (R307). Scalar store to tile SRAM. -/
  | stt (t : Nat) (e : Enc)
  /-- ATADD (R308). Atomic add on a tile SRAM word. -/
  | atadd (t : Nat) (e : Enc)
  /-- ATCAS (R308). Atomic compare-and-swap on a tile SRAM word. -/
  | atcas (t : Nat) (e : Enc)
  /-- VADD (R310). Vector add. -/
  | vadd (t : Nat) (e : Enc)
  /-- VSUB (R310). Vector subtract. -/
  | vsub (t : Nat) (e : Enc)
  /-- VMUL (R310). Vector multiply. -/
  | vmul (t : Nat) (e : Enc)
  /-- VFMA (R310). Vector fused multiply-add. -/
  | vfma (t : Nat) (e : Enc)
  /-- VMIN (R310). Vector minimum. -/
  | vmin (t : Nat) (e : Enc)
  /-- VMAX (R310). Vector maximum. -/
  | vmax (t : Nat) (e : Enc)
  /-- VABS (R310). Vector absolute value. -/
  | vabs (t : Nat) (e : Enc)
  /-- VNEG (R310). Vector negation. -/
  | vneg (t : Nat) (e : Enc)
  /-- VDIV (R310). Vector division, correctly rounded. -/
  | vdiv (t : Nat) (e : Enc)
  /-- VSQRT (R310). Vector square root, correctly rounded. -/
  | vsqrt (t : Nat) (e : Enc)
  /-- VRCP (R310). Vector reciprocal estimate. -/
  | vrcp (t : Nat) (e : Enc)
  /-- VRSQRT (R310). Vector reciprocal square root estimate. -/
  | vrsqrt (t : Nat) (e : Enc)
  /-- VEXP2 (R310). Vector base-2 exponential. -/
  | vexp2 (t : Nat) (e : Enc)
  /-- VLOG2 (R310). Vector base-2 logarithm. -/
  | vlog2 (t : Nat) (e : Enc)
  /-- VAND (R310). Vector bitwise and. -/
  | vand (t : Nat) (e : Enc)
  /-- VOR (R310). Vector bitwise or. -/
  | vor (t : Nat) (e : Enc)
  /-- VXOR (R310). Vector bitwise exclusive or. -/
  | vxor (t : Nat) (e : Enc)
  /-- VSHL (R310). Vector shift left. -/
  | vshl (t : Nat) (e : Enc)
  /-- VSHR (R310). Vector logical shift right. -/
  | vshr (t : Nat) (e : Enc)
  /-- VSAR (R310). Vector arithmetic shift right. -/
  | vsar (t : Nat) (e : Enc)
  /-- VCMP (R310). Vector compare into a scalar mask. -/
  | vcmp (t : Nat) (e : Enc)
  /-- VSEL (R310). Vector select by mask. -/
  | vsel (t : Nat) (e : Enc)
  /-- VPERM (R310). Vector permute. -/
  | vperm (t : Nat) (e : Enc)
  /-- VBCAST (R310). Vector broadcast of a scalar. -/
  | vbcast (t : Nat) (e : Enc)
  /-- VEXT (R310). Extract a vector element into a scalar. -/
  | vext (t : Nat) (e : Enc)
  /-- VINS (R310). Insert a scalar into a vector element. -/
  | vins (t : Nat) (e : Enc)
  /-- VREDADD (R312). Vector pairwise-tree sum reduction. -/
  | vredadd (t : Nat) (e : Enc)
  /-- VREDMAX (R312). Vector maximum reduction. -/
  | vredmax (t : Nat) (e : Enc)
  /-- VCVTN (R311). Narrowing vector conversion into a part. -/
  | vcvtn (t : Nat) (e : Enc)
  /-- VCVTW (R311). Widening vector conversion from a part. -/
  | vcvtw (t : Nat) (e : Enc)
  /-- VCVT (R311). Conversion between the lane types. -/
  | vcvt (t : Nat) (e : Enc)
  /-- VLDT (R313). Vector load from tile SRAM. -/
  | vldt (t : Nat) (e : Enc)
  /-- VSTT (R313). Vector store to tile SRAM. -/
  | vstt (t : Nat) (e : Enc)
  /-- VGATH (R313). Vector gather from tile SRAM. -/
  | vgath (t : Nat) (e : Enc)
  /-- VSCAT (R313). Vector scatter to tile SRAM. -/
  | vscat (t : Nat) (e : Enc)
  /-- MMA (R314). Matrix multiply-accumulate of one output tile. -/
  | mma (t : Nat) (e : Enc)
  /-- LDG (R318). Scalar load from device memory. -/
  | ldg (t : Nat) (e : Enc)
  /-- STG (R318). Scalar store to device memory. -/
  | stg (t : Nat) (e : Enc)
  /-- LDGV (R318). Vector load from device memory. -/
  | ldgv (t : Nat) (e : Enc)
  /-- STGV (R318). Vector store to device memory. -/
  | stgv (t : Nat) (e : Enc)
  /-- LDC (R318). Scalar load from core memory. -/
  | ldc (t : Nat) (e : Enc)
  /-- STC (R318). Scalar store to core memory. -/
  | stc (t : Nat) (e : Enc)
  /-- LDCV (R318). Vector load from core memory. -/
  | ldcv (t : Nat) (e : Enc)
  /-- STCV (R318). Vector store to core memory. -/
  | stcv (t : Nat) (e : Enc)
  /-- COPY (R320). Hand an async copy request to the copy unit. -/
  | copy (t : Nat) (e : Enc)
  /-- WAITC (R320). Wait until a copy count is done. -/
  | waitc (t : Nat) (e : Enc)
  /-- SIGK (R322). Signal a knot from a thread. -/
  | sigk (t : Nat) (e : Enc)
  /-- WAITK (R297). Register a thread wait on a knot. -/
  | waitk (t : Nat) (e : Enc)
  /-- RDK (R322). Read a knot's value into a register. -/
  | rdk (t : Nat) (e : Enc)
  /-- QPUSH (R323). Enqueue a vector register's bytes to a queue. -/
  | qpush (t : Nat) (e : Enc)
  /-- QPOP (R323). Dequeue an entry into a vector register. -/
  | qpop (t : Nat) (e : Enc)
  /-- CALL (R324). Submit a descriptor from the window to a chip-level unit. -/
  | call (t : Nat) (e : Enc)
  /-- FENCE (R325). Wait for stores, copies or calls to drain. -/
  | fence (t : Nat) (e : Enc)
  /-- BEQ (R326). Branch if equal. -/
  | beq (t : Nat) (e : Enc)
  /-- BNE (R326). Branch if not equal. -/
  | bne (t : Nat) (e : Enc)
  /-- BLT (R326). Branch if signed less. -/
  | blt (t : Nat) (e : Enc)
  /-- BGE (R326). Branch if signed greater or equal. -/
  | bge (t : Nat) (e : Enc)
  /-- BLTU (R326). Branch if unsigned less. -/
  | bltu (t : Nat) (e : Enc)
  /-- BGEU (R326). Branch if unsigned greater or equal. -/
  | bgeu (t : Nat) (e : Enc)
  /-- JMP (R326). Jump relative. -/
  | jmp (t : Nat) (e : Enc)
  /-- JAL (R326). Jump and link. -/
  | jal (t : Nat) (e : Enc)
  /-- JR (R326). Jump to a register address. -/
  | jr (t : Nat) (e : Enc)
  /-- TRAPF (R326). Halt with NUMERIC if selected flags are set. -/
  | trapf (t : Nat) (e : Enc)
  /-- END (R274). End the thread. -/
  | endThread (t : Nat) (e : Enc)
  /-- LYT_COPY (R352). LYT_COPY copies a tensor box with permutation and conversion. -/
  | lytCopy (d : Desc)
  /-- LYT_GATHER (R360). LYT_GATHER gathers tensor elements by an index list. -/
  | lytGather (d : Desc)
  /-- LYT_SCATTER (R360). LYT_SCATTER scatters tensor elements by an index list. -/
  | lytScatter (d : Desc)
  /-- LYT_FILL (R347). LYT_FILL fills a tensor box with a value. -/
  | lytFill (d : Desc)
  /-- LAYOUT_OPERATION_END (R365). A layout engine operation finishes or stops and completes. -/
  | layoutOperationEnd (engine fault after : Nat)
  /-- SEQ_POOL (R373). SEQ_POOL sets or withdraws a page pool. -/
  | seqPool (d : Desc)
  /-- SEQ_CREATE (R374). SEQ_CREATE creates a sequence. -/
  | seqCreate (d : Desc)
  /-- SEQ_DESTROY (R380). SEQ_DESTROY returns every page and frees the sequence. -/
  | seqDestroy (d : Desc)
  /-- SEQ_APPEND (R376). SEQ_APPEND opens the pending position, mapping or recycling a page as needed. -/
  | seqAppend (d : Desc)
  /-- SEQ_ATTEND (R385). SEQ_ATTEND starts attention over a sequence on a pipeline. -/
  | seqAttend (d : Desc)
  /-- SEQ_BIAS (R384). SEQ_BIAS loads a bias table. -/
  | seqBias (d : Desc)
  /-- SEQ_TRIM (R380). SEQ_TRIM returns old pages of a sequence. -/
  | seqTrim (d : Desc)
  /-- SEQ_INFO (R372). SEQ_INFO returns a sequence's first and count. -/
  | seqInfo (d : Desc)
  /-- SEQ_ATTEND_END (R386). A SEQ_ATTEND finishes and completes with its outcome. -/
  | seqAttendEnd (core fault after : Nat)
  /-- SEQ_STALL_APPEND_RESUME (R378). A page returns to a pool and a stalled APPEND is mapped and completes. -/
  | seqStallAppendResume (pool : Nat)
  /-- SEQ_STALL_TIMEOUT (R378). stall_us expires and the stalled APPEND completes with PAGE_EXHAUSTED. -/
  | seqStallTimeout (k : Nat)
  /-- SLV_SOLVE (R397). SLV_SOLVE submits a quadratic program to a solver unit. -/
  | slvSolve (d : Desc)
  /-- SOLVE_START (R399). A solver unit becomes free, starts a waiting solve and forms its deadline and initial point. -/
  | solveStart
  /-- SOLVE_OUTCOME (R409). A solve reaches OK, ITERATION_LIMIT or NUMERIC and writes its output areas. -/
  | solveOutcome (core fault after : Nat)
  /-- SOLVE_DEADLINE (R407). The solve deadline D is reached and the solve ends with DEADLINE_MISS. -/
  | solveDeadline (core after : Nat)
  /-- MMU_MAP (R428). MMU_MAP installs leaf entries after its checks. -/
  | mmuMap (d : Desc)
  /-- MMU_UNMAP (R429). MMU_UNMAP removes leaf entries and drains old translations. -/
  | mmuUnmap (d : Desc)
  /-- MMU_QUERY (R427). MMU_QUERY returns the leaf entry of an address. -/
  | mmuQuery (d : Desc)
  /-- MMU_FW_SET (R435). MMU_FW_SET sets a firewall region. -/
  | mmuFwSet (d : Desc)
  /-- MEM_PATROL_SCRUB (R419). The patrol scrubber reads the next DRAM line and corrects or poisons it. -/
  | memPatrolScrub (mc ecc : Nat)
  /-- DRAM_MR4_READ (R420). Every 16 ms the controller reads MR4 and scales refresh. -/
  | dramMr4Read (mc rate : Nat) (above : Bool)
  /-- ERROR_REPORT_RAISE (R461). A unit raises an error report into the island's intake queue, or it is dropped or overflows. -/
  | errorReportRaise (severity kind index event status : Nat) (guarded : Bool) (flows : List Nat) (did detail detail2 : Nat) (epoch : Option Nat)
  /-- ERROR_REPORT_PROCESS (R461). The island takes the next intake report, records it in the ring and applies doubts, latches and escalation. -/
  | errorReportProcess
  /-- VERDICT_FORMED (R442). A guarded flow's last work before EMIT ends, its verdict is formed and EMIT writes the result or the recipe record. -/
  | verdictFormed (c n f : Nat)
  /-- LATCH_CLEAR (R447). SFI_FLOW_CMD clear requests the clearing of a flow's latch. -/
  | latchClear (did : Nat)
  /-- SAFE_ACK (R455). SFI_SAFE_CMD ack re-energises a channel when no other condition holds, or sets ack_refused. -/
  | safeAck (did bits : Nat)
  /-- ISLAND_HEARTBEAT (R454). Every 1 ms the island sends a heartbeat with the energise requests to the field die. -/
  | islandHeartbeat
  /-- ENERGISE_REQUEST_RX (R600). A heartbeat or request message reaches the field die and it switches the channels to match. -/
  | energiseRequestRx
  /-- FIELD_HEARTBEAT_TIMEOUT (R454). 4 ms pass without a valid heartbeat and the field die de-energises both channels. -/
  | fieldHeartbeatTimeout
  /-- LOCKSTEP_MISMATCH (R454). A lockstep mismatch clears both requests and stops the heartbeat in hardware. -/
  | lockstepMismatch
  /-- ISLAND_WATCHDOG_EXPIRY (R454). The island's own watchdog expires, clearing the requests and raising SAFE_WATCHDOG. -/
  | islandWatchdogExpiry
  /-- FIRMWARE_SILENT (R459). The control processors miss the firmware heartbeat for 10 ms and a FATAL is raised. -/
  | firmwareSilent
  /-- IMAGE_CHECK (R520). Every 100 ms the island recomputes the digests of the applied safety image. -/
  | imageCheck (copyOk recordsOk : Bool)
  /-- SAFETY_ESCALATION (R460). 100 ms after a FATAL with fatal_reset set, the island requests a DEVICE-scope reset. -/
  | safetyEscalation
  /-- WATCHDOG_WINDOW_CLOSE (R473). A stage window's close_us is reached without its end event and WATCHDOG_WINDOW is raised. -/
  | watchdogWindowClose (c n t : Nat)
  /-- STAGE_END_EVENT (R473). A stage's end event arrives and its window is evaluated as met or early. -/
  | stageEndEvent (c n t : Nat)
  /-- INTAKE_CLOSE_TIMEOUT (R473). No close(n + 1) arrives within 1.01 periods and WATCHDOG_WINDOW is raised on INTAKE. -/
  | intakeCloseTimeout (c : Nat)
  /-- SRAM_SCRUB (R477). A scrubber reads its next SRAM word, corrects it or reports it uncorrectable. -/
  | sramScrub (m ecc : Nat) (guarded : Bool)
  /-- GOLDEN_RUN (R480). A unit owing a golden run starts it as soon as the scheduler allows. -/
  | goldenRun (u : Nat)
  /-- GOLDEN_RUN_END (R481). A golden run ends, settling debts or raising GOLDEN_FAIL. -/
  | goldenRunEnd (u : Nat) (ok : Bool)
  /-- SELFTEST_SCHEDULE (R483). On idle or every 100 µs the island chooses and starts a self-test slice. -/
  | selftestSchedule (u : Nat)
  /-- SELFTEST_SLICE_END (R486). A self-test slice passes, or fails with SELFTEST_FAIL. -/
  | selftestSliceEnd (u : Nat) (ok : Bool)
  /-- SELFTEST_ABORT (R484). Guarded work becomes ready and aborts a running slice or golden run. -/
  | selftestAbort (u : Nat)
  /-- LATENT_TEST_OVERDUE (R485). A checker's test age reaches 1 s or 2 s and a WARN or DOUBT is written. -/
  | latentTestOverdue (u : Nat)
  /-- UNIT_ISOLATE (R494). SFI_UNIT_CMD isolate takes the selected unit out of service. -/
  | unitIsolate (did : Nat)
  /-- UNIT_READMIT (R490). SFI_UNIT_CMD readmit starts readmission of the selected unit. -/
  | unitReadmit (did : Nat)
  /-- READMISSION_STEP (R491). The next readmission step of a unit starts once the previous one ends. -/
  | readmissionStep (u fault : Nat)
  /-- UNIT_READMITTED (R491). At the next close the readmitted unit enters IN_SERVICE. -/
  | unitReadmitted (u : Nat)
  /-- ICU_SOURCE_EVENT (R498). An interrupt source input changes and its pending bit is set, or overrun is set. -/
  | icuSourceEvent (sic : Bool) (source : Nat) (level : Bool)
  /-- ICU_DELIVERY (R499). The controller delivers the highest deliverable source to a processor, whose global mask firmware may have `cleared`. -/
  | icuDelivery (sic : Bool) (w : ProcTurn)
  /-- ICU_EOI (R500). A write to ICU_CP_EOI ends the service of a source. -/
  | icuEoi (sic : Bool) (p : Nat) (source : Nat)
  /-- ICU_SRC_MASK (R507). ICU_SRC_CMD mask sets the selected source's mask bit. -/
  | icuSrcMask (did cp : Nat)
  /-- ICU_SRC_UNMASK (R507). ICU_SRC_CMD unmask clears the selected source's mask bit. -/
  | icuSrcUnmask (did cp : Nat)
  /-- ICU_SRC_SET_PEND (R507). ICU_SRC_CMD set_pend sets the selected source pending. -/
  | icuSrcSetPend (did cp : Nat)
  /-- ICU_SRC_CLR_PEND (R507). ICU_SRC_CMD clr_pend clears the selected source's pending bit. -/
  | icuSrcClrPend (did cp : Nat)
  /-- ICU_SWI (R509). A write to ICU_SWI sets a software source pending. -/
  | icuSwi (did : Nat) (source : Nat)
  /-- ICU_LOCK_ACQUIRE (R509). A read of ICU_LOCK by DID 1 acquires the lock if free. -/
  | icuLockAcquire (did : Nat) (lock : Nat)
  /-- ICU_LOCK_RELEASE (R509). A write of 0 to ICU_LOCK releases the lock. -/
  | icuLockRelease (did : Nat) (lock : Nat)
  /-- STORM_WINDOW_RESET (R504). At each millisecond boundary the storm guard counters restart. -/
  | stormWindowReset
  /-- PROCESSOR_WAKE (R503). A sleeping processor, whose global mask firmware may have `cleared`, wakes on a pending unmasked source. -/
  | processorWake (sic : Bool) (w : ProcTurn)
  /-- SEC_FW_UPDATE (R516). SEC_FW_UPDATE writes and verifies firmware in the inactive bank. -/
  | secFwUpdate (d : Desc)
  /-- SEC_IMAGE_LOAD (R518). SEC_IMAGE_LOAD checks, writes and applies a safety configuration image, unlocked. -/
  | secImageLoad (d : Desc) (img : Machine.Image)
  /-- SEC_KEY_ROTATE (R515). SEC_KEY_ROTATE installs the next generation of a key. -/
  | secKeyRotate (d : Desc)
  /-- SEC_LIFECYCLE (R512). SEC_LIFECYCLE makes a lifecycle transition. -/
  | secLifecycle (d : Desc)
  /-- SEC_LOCK (R519). SEC_LOCK locks the safety configuration. -/
  | secLock (d : Desc)
  /-- KEY_READ (R598). Every 1 ms the field die reads the maintenance key, which may open a presence window. -/
  | keyRead (a b : Bool)
  /-- SEAL_MEASUREMENT (R599). Every 1 ms the field die measures the seal loop resistance. -/
  | sealMeasurement (ohm : Nat)
  /-- PRESENCE_WINDOW_TIMEOUT (R523). window_max elapses and the presence window closes. -/
  | presenceWindowTimeout
  /-- PRESENCE_CLOSE (R523). SEC_PRESENCE close closes the window. -/
  | presenceClose (did : Nat)
  /-- SEAL_OVERRIDE (R524). SEC_PRESENCE override opens an override window. -/
  | sealOverride (did : Nat)
  /-- SEAL_REARM (R525). SEC_PRESENCE rearm clears the seal break latch. -/
  | sealRearm (did : Nat)
  /-- DBG_LEVEL_WRITE (R528). A DBG_LEVEL write sets the debug level, or is refused. -/
  | dbgLevelWrite (did level : Nat)
  /-- DBG_NONCE_READ (R530). A read of DBG_NONCE's first word renews the nonce. -/
  | dbgNonceRead (did : Nat)
  /-- DBG_AUTH_GO (R530). Writing go to DBG_AUTH verifies the signed level request. -/
  | dbgAuthGo
  /-- POR (R537). The standby input crosses its threshold and a FULL-scope reset is asserted. -/
  | por (vbackup : Bool)
  /-- LOGIC_BROWNOUT (R537). The 12 V input or a logic rail leaves its band and a DEVICE-scope reset is held. -/
  | logicBrownout
  /-- RESET_PIN (R537). RESET_L is held low and a DEVICE-scope reset is asserted. -/
  | resetPin
  /-- PCIE_FUNDAMENTAL (R537). PERST_L is asserted and a HOST or DEVICE-scope reset is held. -/
  | pcieFundamental
  /-- PCIE_HOT (R537). A hot reset or link disable on PCIe asserts a HOST-scope reset. -/
  | pcieHot
  /-- HOST_DEVICE_CMD (R537). RCU_CMD device by the PF asserts a DEVICE-scope reset. -/
  | hostDeviceCmd (did : Nat)
  /-- HOST_UNIT_CMD (R538). RCU_CMD unit by the PF resets one unit or port, or is refused. -/
  | hostUnitCmd (did : Nat)
  /-- OCTUR_CMD (R538). An accepted Octur peer reset command asserts a DEVICE-scope reset. -/
  | octurCmd (module did : Nat)
  /-- SAFE_WATCHDOG (R537). The island watchdog expiry asserts a DEVICE-scope reset. -/
  | safeWatchdog
  /-- THERMAL_TRIP (R537). The junction reaches 115 °C and a DEVICE-scope reset is held. -/
  | thermalTrip
  /-- DEBUG_CMD (R537). A debug port reset request, or leaving EXTEST or a production instruction, asserts a DEVICE-scope reset. -/
  | debugCmd
  /-- DOMAIN_RELEASE (R539). The next domain of a reset scope is released once its clock is stable and its predecessor has reported release. -/
  | domainRelease (straps : Straps) (rails : Bool)
  /-- BOOT_STAGE_ADVANCE (R550). The next boot step starts once the one it waits for has ended. -/
  | bootStageAdvance (error : Nat)
  /-- BOOT_GO (R549). RCU_BOOT boot_go tells the boot ROM that the staging buffer holds the image. -/
  | bootGo (did : Nat)
  /-- BOOT_SOURCE_TIMEOUT (R552). 60 s pass without boot_go and boot stops FAILED. -/
  | bootSourceTimeout
  /-- STARTUP_INJECTION (R553). Firmware runs the start-up injection of a newly enabled camera or scan stream. -/
  | startupInjection (stream : Nat) (packet : List Byte) (expected : Nat)
  /-- OAS_CLEAR (R544). OAS_CMD clear zeroes the reset counters as a maintenance command. -/
  | oasClear (did : Nat)
  /-- PSTATE_REQUEST (R546). A CPM_PSTATE write requests a power state transition. -/
  | pstateRequest (did target : Nat)
  /-- PSTATE_TRANSITION (R546). A requested power state transition is taken once its condition holds. -/
  | pstateTransition
  /-- P3_WAKE (R546). WAKE_L, CPM_WAKE or RESET_L wakes the device from P3. -/
  | p3Wake (cause : Nat)
  /-- STANDBY_LOSS (R546). The standby input falls below threshold with VBACKUP present and the device enters P4. -/
  | standbyLoss
  /-- THERMAL_TRIM (R548). The junction reaches 100 °C and the device trims to P1. -/
  | thermalTrim (junction : Nat)
  /-- POWER_TRIM (R548). Input power over 100 ms exceeds plimit and the device trims to P1. -/
  | powerTrim (power : Nat)
  /-- TRIM_RELEASE (R548). After 10 s within limits the device returns from a trim to P0. -/
  | trimRelease (junction power : Nat)
  /-- PUB_CONFIG (R566). PUB_CONFIG configures a plant-port publication. -/
  | pubConfig (d : Desc)
  /-- PUB_REMOVE (R565). PUB_REMOVE removes a publication. -/
  | pubRemove (d : Desc)
  /-- PUBLICATION_ASSEMBLE (R568). In the cycle after a flow's record is written, the port assembles its UADP message. -/
  | publicationAssemble (pub : Nat)
  /-- PUBLICATION_TRANSMIT (R563). An eligible pending message starts transmission in a quiet window. -/
  | publicationTransmit (port : Nat)
  /-- OCTUR_HELLO (R573). A trained Octur port exchanges HELLO and becomes UP or enters FAULT. -/
  | octurHello (port module peerPort cols rows : Nat) (torus : Bool)
  /-- OCTUR_RETRAIN (R573). 10 ms after FAULT the Octur port retrains. -/
  | octurRetrain (port : Nat)
  /-- OCTUR_REPLAY (R576). A NAK makes the sender replay from the failed packet. -/
  | octurReplay (port seq : Nat)
  /-- RD_REQ (R578). A remote read request is checked and answered. -/
  | rdReq (p : OctPacket) (held : Bool)
  /-- RD_RESP (R578). A remote read response completes the requester's access. -/
  | rdResp (p : OctPacket)
  /-- WR_REQ (R578). A remote write request is checked, applied and acknowledged. -/
  | wrReq (p : OctPacket) (held : Bool)
  /-- WR_ACK (R578). A remote write acknowledgement completes the requester's write. -/
  | wrAck (p : OctPacket)
  /-- KNOT_ADD (R99). A remote knot signal is checked and applied at the peer. -/
  | knotAdd (p : OctPacket)
  /-- KNOT_ACK (R579). A remote knot signal acknowledgement arrives at the sender. -/
  | knotAck (p : OctPacket)
  /-- TIME (R581). An Octur TIME packet arrives and may yield a servo sample. -/
  | time (p : OctPacket) (ta tb tc td : Int) (genA genB : Nat)
  /-- OCTUR_TIME_SEND (R581). Every 15.625 ms each port sends a TIME packet. -/
  | octurTimeSend
  /-- RESET_CMD (R582). An Octur reset command arrives and is accepted or refused. -/
  | resetCmd (p : OctPacket)
  /-- RESET_ACK (R582). An Octur reset answer completes the OCT_RESET descriptor. -/
  | resetAck (p : OctPacket)
  /-- OCTUR_REQUEST_TIMEOUT (R578). No answer arrives within 100 µs and the remote access or knot signal fails. -/
  | octurRequestTimeout (tag : Nat)
  /-- OCT_RESET (R582). OCT_RESET sends a reset command to a peer module. -/
  | octReset (d : Desc)
  /-- FLD_BANK (R591). FLD_BANK sets a trigger bank's electrical mode. -/
  | fldBank (d : Desc)
  /-- FLD_ENC (R594). FLD_ENC configures an encoder input. -/
  | fldEnc (d : Desc)
  /-- FLD_SERIAL (R596). FLD_SERIAL configures a serial port. -/
  | fldSerial (d : Desc)
  /-- FLD_DIN (R597). FLD_DIN configures a digital input. -/
  | fldDin (d : Desc)
  /-- FIELD_BROWNOUT (R588). The field supply falls below 16.5 V and the field die resets with every output off. -/
  | fieldBrownout
  /-- FIELD_SUPPLY_GOOD (R588). The field supply is good for 20 ms and the field die's boot ROM starts. -/
  | fieldSupplyGood
  /-- FIELD_FIRMWARE_LOAD (R586). Device firmware sends the field die its firmware and resends its configuration. -/
  | fieldFirmwareLoad
  /-- FIELD_OVERVOLTAGE (R588). The field supply exceeds 32 V and the outputs and channels switch off. -/
  | fieldOvervoltage
  /-- FIELD_OVERVOLTAGE_RESTORE (R588). 100 ms after the supply returns below 31 V the outputs are restored. -/
  | fieldOvervoltageRestore
  /-- ENCODER_SAMPLE (R594). An encoder sample instant latches the count and stamps it. -/
  | encoderSample (input : Nat) (edges : Int) (zs : Nat) (illegal fault : Bool)
  /-- SERIAL_RECORD (R596). A serial port frames a record and sends it as one packet, or discards it. -/
  | serialRecord (port : Nat) (bytes : List Byte) (back : Nat) (ok : Bool)
  /-- DIGITAL_INPUT_CHANGE (R597). A digital input holds its new level for the filter time and a record is sent. -/
  | digitalInputChange (input held : Nat) (level : Bool)
  /-- TRIGGER_OVERLOAD (R592). A push-pull line over its current limit for 20 µs switches off. -/
  | triggerOverload (output : Nat)
  /-- TRIGGER_OVERLOAD_RETRY (R592). 10 ms after an overload the line is retried. -/
  | triggerOverloadRetry (output : Nat)
  /-- SAFE_READBACK (R602). Every 100 µs the field die reads back the switch outputs. -/
  | safeReadback (hs0 ls0 hs1 ls1 : Bool) (ma0 ma1 : Nat)
  /-- SAFE_TEST_PULSE (R602). Every 250 ms an energised channel's switches are pulsed off in turn. -/
  | safeTestPulse (channel : Nat) (followed : Bool)
  /-- LINK_TEST_START (R630). DBG_LINK_CTRL run = 1 starts a link pattern test, or is refused. -/
  | linkTestStart (did loop pattern : Nat)
  /-- LINK_TEST_STOP (R631). DBG_LINK_CTRL run = 0 ends a link test and the link retrains. -/
  | linkTestStop (did : Nat)
  /-- LINK_TEST_INJECT (R631). DBG_LINK_CTRL inject flips one transmitted bit. -/
  | linkTestInject (did : Nat)
  /-- EXTEST (R633). JTAG EXTEST drives J1 pins from the boundary cells. -/
  | extest
  /-- SAMPLE_PRELOAD (R632). JTAG SAMPLE/PRELOAD samples and loads the boundary register. -/
  | samplePreload (pins cells : Nat)
  /-- IDCODE (R632). JTAG IDCODE selects the identification register. -/
  | idcode
  /-- EXTEST_PULSE (R633). JTAG EXTEST_PULSE drives AC-coupled pins with pulses. -/
  | extestPulse
  /-- EXTEST_TRAIN (R633). JTAG EXTEST_TRAIN drives AC-coupled pins with pulse trains. -/
  | extestTrain
  /-- DBG_ACCESS (R634). A JTAG DBG_ACCESS Update-DR performs one 32-bit BAR0 access as DID 1. -/
  | dbgAccess (word : BitVec 64)
  /-- BYPASS (R632). JTAG BYPASS selects the 1-bit register. -/
  | bypass (code : Nat)
  /-- PRODUCTION_INSTRUCTION (R636). A production JTAG instruction acts in BLANK at INTRUSIVE, and as BYPASS otherwise. -/
  | productionInstruction (code : Nat)
  /-- TRACE_SYNC (R635). Every 1 ms the trace port emits a SYNC record. -/
  | traceSync
  /-- TRACE_PC_SAMPLE (R635). Every 1 µs a control-processor PC sample record is emitted. -/
  | tracePcSample (cp : Nat) (pc : W32)
  /-- DBG_MEM_WINDOW_ACCESS (R639). An access to the DBG memory window reads DID 1 device-virtual memory. -/
  | dbgMemWindowAccess (did : Nat) (span : WindowSpan) (write : Bool)
  /-- ETHERNET_LINK_CHANGE (R610). A sensor or plant port's link goes up or down, including when SFP_MOD_ABS_L or SFP_LOS changes. -/
  | ethernetLinkChange (port : Nat) (pins : PortPins)
  /-- OCTUR_ACK_TIMEOUT (R576). 1 ms passes without a link acknowledgement and the Octur port enters FAULT and writes OCTUR_LINK_DOWN. -/
  | octurAckTimeout (port : Nat)
  /-- OCTUR_PACKET_FORWARD (R577). A packet in transit arrives at an intermediate module and is passed from Octur port to Octur port, or found unreachable. -/
  | octurPacketForward (p : OctPacket)
  /-- FIRMWARE_HEARTBEAT (R459). A control-processor firmware heartbeat arrives at the safety island and restarts its FIRMWARE_SILENT count. -/
  | firmwareHeartbeat
  /-- ERG_OPERATION_END (R234). An Erg unit operation or build finishes, completes, and the unit starts its next waiting work. -/
  | ergOperationEnd (unit ecc : Nat)
  /-- POSTED_STORE_DONE (R279). A thread's posted store completes or faults, freeing a store slot or releasing a FENCE. -/
  | postedStoreDone (t : Nat)
  /-- PATTERN_CHECKER_SYNC (R631). A link test checker gains sync after 64 good bits, or drops it and counts a resync after more than 8 errors in 64 bits. -/
  | patternCheckerSync (link errors : Nat) (lost : Bool)
  deriving DecidableEq, Repr

end Sys2Proof
end

