-- ==== Sys2Proof/Decode.lean ====
section
/-! DEFINITION. Decoding of command words. spec/opcode_table.json gives no row any bits: commands of this block are operations, not words. -/

namespace Sys2Proof

/-- The command that a word spells: none, since no row of spec/opcode_table.json gives bits (the engine encodings of
spec/13_engine_instructions.md R301 reach a command as the operand `Enc`, and descriptor bytes as `Desc.raw`). -/
def decodeTableWord (_nbits _w : Nat) : Option Instr := none

end Sys2Proof
end

