-- ==== Sys2Proof/Machine/Flags.lean ====
section
/-! DEFINITION. The FLAGS bits of a thread (spec/13_engine_instructions.md R306, spec/14_number_formats.md R340) and the arithmetic that sets them: exact dyadic numbers, rounding, the floating-point formats and their conversions (R329 to R344). -/

namespace Sys2Proof.Machine

/-! ### FLAGS bits -/

def flInvalid : Nat := 1
def flDivZero : Nat := 2
def flOverflow : Nat := 4
def flUnderflow : Nat := 8
def flInexact : Nat := 16
def flSaturated : Nat := 32
def flNonFinite : Nat := 64

/-! ### Formats -/

/-- How the all-ones exponent behaves (R330). -/
inductive FmtKind where
  | ieee | e4m3 | e2m1
  deriving DecidableEq, Repr

/-- A floating-point format (R329): exponent bits, significand bits, bias. -/
structure Fmt where
  eb : Nat
  mb : Nat
  bias : Nat
  kind : FmtKind
  deriving DecidableEq, Repr

def fp64 : Fmt := ⟨11, 52, 1023, .ieee⟩
def fp32 : Fmt := ⟨8, 23, 127, .ieee⟩
def bf16 : Fmt := ⟨8, 7, 127, .ieee⟩
def fp16 : Fmt := ⟨5, 10, 15, .ieee⟩
def e4m3 : Fmt := ⟨4, 3, 7, .e4m3⟩
def e5m2 : Fmt := ⟨5, 2, 15, .ieee⟩
def e2m1 : Fmt := ⟨2, 1, 1, .e2m1⟩

/-- Width in bits. -/
def Fmt.width (f : Fmt) : Nat := 1 + f.eb + f.mb

/-- A decoded value: finite values are (-1)^neg * m * 2^e. -/
inductive FVal where
  | nan (signalling : Bool)
  | inf (neg : Bool)
  | fin (neg : Bool) (m : Nat) (e : Int)
  deriving DecidableEq, Repr

/-- Value of an encoding (R330). -/
def decodeF (f : Fmt) (w : Nat) : FVal :=
  let neg := w.testBit (f.eb + f.mb)
  let ex := bitsOf w f.mb f.eb
  let t := bitsOf w 0 f.mb
  let top := 2 ^ f.eb - 1
  if ex = top ∧ f.kind = .ieee then
    if t = 0 then .inf neg else .nan (!t.testBit (f.mb - 1))
  else if ex = top ∧ f.kind = .e4m3 ∧ t = 2 ^ f.mb - 1 then .nan false
  else if ex = 0 then .fin neg t (1 - (f.bias : Int) - f.mb)
  else .fin neg (2 ^ f.mb + t) ((ex : Int) - f.bias - f.mb)

/-- Sign bit in place. -/
def signBit (f : Fmt) (neg : Bool) : Nat := placeB neg (f.eb + f.mb)

/-- The canonical NaN (R332); E2M1 has none and the caller writes a NaN block. -/
def nanBits (f : Fmt) : Nat :=
  match f.kind with
  | .ieee => (2 ^ f.eb - 1) * 2 ^ f.mb + 2 ^ (f.mb - 1)
  | .e4m3 => 0x7F
  | .e2m1 => 0

/-- Largest finite magnitude (R329). -/
def maxBits (f : Fmt) : Nat :=
  match f.kind with
  | .ieee => (2 ^ f.eb - 1) * 2 ^ f.mb - 1
  | .e4m3 => 0x7E
  | .e2m1 => 7

/-- Infinity of a format that has one. -/
def infBits (f : Fmt) : Nat := (2 ^ f.eb - 1) * 2 ^ f.mb

/-- Floor of the base-2 logarithm of m * 2^e (m not 0). -/
def log2E (m : Nat) (e : Int) : Int := (Nat.log2 m : Int) + e

/-- Shift a significand down by `sh`, rounding to nearest even. Answers the result and whether it is inexact. -/
def rneShift (m sh : Nat) : Nat × Bool :=
  if sh = 0 then (m, false)
  else
    let lo := m >>> sh
    let r := m % 2 ^ sh
    let half := 2 ^ (sh - 1)
    (if half < r ∨ (r = half ∧ lo % 2 = 1) then lo + 1 else lo, r ≠ 0)

/-- A magnitude on a format's grid, extended without an upper bound (R336): m * 2^q, inexact, tiny after rounding. -/
structure Rounded where
  m : Nat
  q : Int
  inexact : Bool
  tiny : Bool

/-- Smallest normal exponent. -/
def Fmt.emin (f : Fmt) : Int := 1 - (f.bias : Int)

/-- Quantum exponent of the grid at a magnitude. -/
def quantum (f : Fmt) (m : Nat) (e : Int) : Int := max (log2E m e - f.mb) (f.emin - f.mb)

/-- Round a magnitude to nearest even (R336). -/
def roundMag (f : Fmt) (m : Nat) (e : Int) : Rounded :=
  if m = 0 then ⟨0, f.emin - f.mb, false, false⟩
  else
    let q := quantum f m e
    let p := log2E m e - f.mb
    -- tininess: the value rounded with an unbounded exponent lies below the smallest normal
    let u := rneShift m (p - e).toNat
    let tiny := if p ≤ e then decide (log2E m e < f.emin) else decide (log2E u.1 p < f.emin)
    if q ≤ e then ⟨m * 2 ^ (e - q).toNat, q, false, tiny⟩
    else
      let r := rneShift m (q - e).toNat
      ⟨r.1, q, r.2, tiny⟩

/-- Round a magnitude stochastically with the advanced generator state (R337). -/
def roundMagSr (f : Fmt) (seed : W32) (m : Nat) (e : Int) : Rounded :=
  if m = 0 then ⟨0, f.emin - f.mb, false, false⟩
  else
    let q := quantum f m e
    if q ≤ e then ⟨m * 2 ^ (e - q).toNat, q, false, decide (log2E m e < f.emin)⟩
    else
      let sh := (q - e).toNat
      let lo := m >>> sh
      let r := m % 2 ^ sh
      let up := decide (r * 65536 / 2 ^ sh + (seed.toNat >>> 16) ≥ 65536)
      let m' := if up then lo + 1 else lo
      ⟨m', q, r ≠ 0, decide (m' = 0 ∨ log2E m' q < f.emin)⟩

/-- Encoding of a grid magnitude, or none where it lies beyond the largest finite value. -/
def encodeMag (f : Fmt) (r : Rounded) : Option Nat :=
  if r.m = 0 then some 0
  else
    let big := decide (2 ^ (f.mb + 1) ≤ r.m)
    let m := if big then r.m / 2 else r.m
    let q := if big then r.q + 1 else r.q
    let w := if m < 2 ^ f.mb then m else ((q + f.mb + f.bias).toNat) * 2 ^ f.mb + (m - 2 ^ f.mb)
    if w ≤ maxBits f then some w else none

/-- How a result beyond the largest finite value is delivered. -/
inductive OverPolicy where
  | arith | saturate | overflowInf
  deriving DecidableEq, Repr

/-- Deliver a rounded magnitude with its flags (R336, R338, R340). -/
def deliver (f : Fmt) (pol : OverPolicy) (neg : Bool) (r : Rounded) : Nat × Nat :=
  let fl := (if r.inexact then flInexact else 0) ||| (if r.inexact ∧ r.tiny then flUnderflow else 0)
  match encodeMag f r with
  | some w => (signBit f neg + w, fl)
  | none =>
    match pol with
    | .arith => (signBit f neg + infBits f, flOverflow ||| flInexact ||| flNonFinite)
    | .overflowInf =>
      if f.kind = .ieee then (signBit f neg + infBits f, flOverflow ||| flInexact)
      else (signBit f neg + maxBits f, flSaturated ||| flInexact)
    | .saturate => (signBit f neg + maxBits f, flSaturated ||| flInexact)

/-- The sign-magnitude of an exact integer multiple of 2^e, and its rounding as an arithmetic result. -/
def arithOf (f : Fmt) (zeroNeg : Bool) (n : Int) (e : Int) : Nat × Nat :=
  if n = 0 then (signBit f zeroNeg, 0) else deliver f .arith (decide (n < 0)) (roundMag f n.natAbs e)

/-- Signed significand of a finite value at a common exponent. -/
def alignTo (neg : Bool) (m : Nat) (e : Int) (base : Int) : Int :=
  let v : Int := (m * 2 ^ (e - base).toNat : Nat)
  if neg then -v else v

/-- A NaN result: canonical, with bit 6, and bit 0 where an operand signals or the operation is invalid. -/
def nanOut (f : Fmt) (invalid : Bool) : Nat × Nat :=
  (nanBits f, flNonFinite ||| (if invalid then flInvalid else 0))

def FVal.isNan : FVal → Bool
  | .nan _ => true
  | _ => false

def FVal.signals : FVal → Bool
  | .nan b => b
  | _ => false

def FVal.negate : FVal → FVal
  | .nan b => .nan b
  | .inf n => .inf (!n)
  | .fin n m e => .fin (!n) m e

/-! ### Arithmetic (R310, R331, R332, R336, R340) -/

/-- Addition. -/
def addV (f : Fmt) (x y : FVal) : Nat × Nat :=
  match x, y with
  | .nan a, v => nanOut f (a || v.signals)
  | u, .nan b => nanOut f (b || u.signals)
  | .inf a, .inf b => if a = b then (signBit f a + infBits f, flNonFinite) else nanOut f true
  | .inf a, .fin _ _ _ => (signBit f a + infBits f, flNonFinite)
  | .fin _ _ _, .inf b => (signBit f b + infBits f, flNonFinite)
  | .fin a m e, .fin b n g =>
    let base := min e g
    arithOf f (a && b && m == 0 && n == 0) (alignTo a m e base + alignTo b n g base) base

/-- Multiplication. -/
def mulV (f : Fmt) (x y : FVal) : Nat × Nat :=
  match x, y with
  | .nan a, v => nanOut f (a || v.signals)
  | u, .nan b => nanOut f (b || u.signals)
  | .inf a, .inf b => (signBit f (a != b) + infBits f, flNonFinite)
  | .inf a, .fin b n _ => if n = 0 then nanOut f true else (signBit f (a != b) + infBits f, flNonFinite)
  | .fin a m _, .inf b => if m = 0 then nanOut f true else (signBit f (a != b) + infBits f, flNonFinite)
  | .fin a m e, .fin b n g =>
    if m * n = 0 then (signBit f (a != b), 0) else deliver f .arith (a != b) (roundMag f (m * n) (e + g))

/-- Fused multiply-add x * y + z, one rounding. -/
def fmaV (f : Fmt) (x y z : FVal) : Nat × Nat :=
  let sig := x.signals || y.signals || z.signals
  match x, y, z with
  | .fin a m e, .fin b n g, .fin c k h =>
    let base := min (e + g) h
    let p := alignTo (a != b) (m * n) (e + g) base
    arithOf f ((a != b) && c && (m * n == 0) && k == 0) (p + alignTo c k h base) base
  | .fin _ _ _, .fin _ _ _, .inf c => (signBit f c + infBits f, flNonFinite)
  | .nan _, _, _ => nanOut f sig
  | _, .nan _, _ => nanOut f sig
  | .inf _, .fin _ 0 _, _ => nanOut f true
  | .fin _ 0 _, .inf _, _ => nanOut f true
  | _, _, .nan _ => nanOut f sig
  | .inf a, .inf b, .inf c => if (a != b) = c then (signBit f c + infBits f, flNonFinite) else nanOut f true
  | .inf a, .fin b _ _, .inf c => if (a != b) = c then (signBit f c + infBits f, flNonFinite) else nanOut f true
  | .fin a _ _, .inf b, .inf c => if (a != b) = c then (signBit f c + infBits f, flNonFinite) else nanOut f true
  | .inf a, .inf b, .fin _ _ _ => (signBit f (a != b) + infBits f, flNonFinite)
  | .inf a, .fin b _ _, .fin _ _ _ => (signBit f (a != b) + infBits f, flNonFinite)
  | .fin a _ _, .inf b, .fin _ _ _ => (signBit f (a != b) + infBits f, flNonFinite)

/-- Division, correctly rounded. -/
def divV (f : Fmt) (x y : FVal) : Nat × Nat :=
  match x, y with
  | .nan a, v => nanOut f (a || v.signals)
  | u, .nan b => nanOut f (b || u.signals)
  | .inf _, .inf _ => nanOut f true
  | .inf a, .fin b _ _ => (signBit f (a != b) + infBits f, flNonFinite)
  | .fin a _ _, .inf b => (signBit f (a != b), 0)
  | .fin a m e, .fin b n g =>
    if n = 0 then
      if m = 0 then nanOut f true else (signBit f (a != b) + infBits f, flDivZero ||| flNonFinite)
    else if m = 0 then (signBit f (a != b), 0)
    else
      let k := f.mb + 4 + Nat.log2 n - Nat.log2 m
      let q := m * 2 ^ k / n
      let sticky := if m * 2 ^ k % n = 0 then 0 else 1
      deliver f .arith (a != b) (roundMag f (2 * q + sticky) (e - g - k - 1))

/-- Integer square root by bits, from bit `k` downwards. -/
def isqrtGo (n : Nat) : Nat → Nat → Nat
  | 0, r => r
  | k + 1, r => isqrtGo n k (if (r + 2 ^ k) * (r + 2 ^ k) ≤ n then r + 2 ^ k else r)

/-- Largest r with r * r ≤ n. -/
def isqrt (n : Nat) : Nat := isqrtGo n (Nat.log2 n / 2 + 1) 0

/-- Square root, correctly rounded. -/
def sqrtV (f : Fmt) (x : FVal) : Nat × Nat :=
  match x with
  | .nan a => nanOut f a
  | .inf a => if a then nanOut f true else (infBits f, flNonFinite)
  | .fin a m e =>
    if m = 0 then (signBit f a, 0)
    else if a then nanOut f true
    else
      let k0 := 2 * (f.mb + 4)
      let k := if (e - k0) % 2 = 0 then k0 else k0 + 1
      let n := m * 2 ^ k
      let r := isqrt n
      let sticky := if r * r = n then 0 else 1
      deliver f .arith false (roundMag f (2 * r + sticky) ((e - k) / 2 - 1))

/-- a ≤ b for signed dyadics. -/
def leD (a : Int) (e : Int) (b : Int) (g : Int) : Bool :=
  let base := min e g
  decide (a * (2 ^ (e - base).toNat : Nat) ≤ b * (2 ^ (g - base).toNat : Nat))

/-- Signed significand of a finite value. -/
def sgn (neg : Bool) (m : Nat) : Int := if neg then -(m : Int) else m

/-- x < y and x = y of two values that are not NaN. -/
def ltV : FVal → FVal → Bool
  | .inf a, .inf b => a && !b
  | .inf a, _ => a
  | _, .inf b => !b
  | .fin a m e, .fin b n g => !leD (sgn b n) g (sgn a m) e
  | _, _ => false

def eqV : FVal → FVal → Bool
  | .inf a, .inf b => a == b
  | .fin a m e, .fin b n g => leD (sgn a m) e (sgn b n) g && leD (sgn b n) g (sgn a m) e
  | _, _ => false

/-- minimumNumber or maximumNumber on encodings (R310, R312): -0 lies below +0, a NaN loses to a number. -/
def minMaxF (f : Fmt) (wantMax : Bool) (u w : Nat) : Nat × Nat :=
  let x := decodeF f u
  let y := decodeF f w
  let fl := if x.signals || y.signals then flInvalid else 0
  if x.isNan then (if y.isNan then nanBits f else w, fl)
  else if y.isNan then (u, fl)
  else if eqV x y then
    -- equal values differ at most in the sign of zero
    let uNeg := u.testBit (f.eb + f.mb)
    (if uNeg == wantMax then w else u, fl)
  else (if ltV x y == wantMax then w else u, fl)

/-- Condition codes of VCMP (R310). -/
def cmpF (f : Fmt) (cond u w : Nat) : Bool × Nat :=
  let x := decodeF f u
  let y := decodeF f w
  let un := x.isNan || y.isNan
  let r := match cond with
    | 0 => !un && eqV x y
    | 1 => un || !eqV x y
    | 2 => !un && ltV x y
    | 3 => !un && (ltV x y || eqV x y)
    | _ => un
  (r, if x.signals || y.signals then flInvalid else 0)

/-! ### Conversions (R336 to R341) -/

/-- Convert a value to a floating-point format: nearest even, or stochastic with a generator state. -/
def convF (f : Fmt) (pol : OverPolicy) (sr : Option W32) (x : FVal) : Nat × Nat :=
  match x with
  | .nan sig => (nanBits f, if sig then flInvalid else 0)
  | .inf n =>
    if f.kind = .ieee then (signBit f n + infBits f, 0)
    else (signBit f n + maxBits f, flSaturated ||| flInexact)
  | .fin n m e =>
    if m = 0 then (signBit f n, 0)
    else deliver f pol n (match sr with | some sd => roundMagSr f sd m e | none => roundMag f m e)

/-- Round a finite value to an integer, nearest even. -/
def toIntRne (neg : Bool) (m : Nat) (e : Int) : Int × Bool :=
  if 0 ≤ e then (sgn neg (m * 2 ^ e.toNat), false)
  else
    let r := rneShift m (-e).toNat
    (sgn neg r.1, r.2)

/-- Saturate an integer to `n` bits. -/
def satInt (n : Nat) (i : Int) : Int × Bool :=
  let hi : Int := 2 ^ (n - 1) - 1
  let lo : Int := -(2 ^ (n - 1))
  if hi < i then (hi, true) else if i < lo then (lo, true) else (i, false)

/-- Convert a value to an `n`-bit integer word (R338, R340). -/
def convI (n : Nat) (x : FVal) : Nat × Nat :=
  match x with
  | .nan _ => (0, flInvalid)
  | .inf neg => (unsigned n (if neg then -(2 ^ (n - 1)) else 2 ^ (n - 1) - 1), flInvalid ||| flSaturated ||| flInexact)
  | .fin neg m e =>
    let r := toIntRne neg m e
    let t := satInt n r.1
    (unsigned n t.1, (if r.2 || t.2 then flInexact else 0) ||| (if t.2 then flSaturated else 0))

/-- The exact value of an integer. -/
def intV (i : Int) : FVal := .fin (decide (i < 0)) i.natAbs 0

/-- Stochastic-rounding generator step (R337). -/
def srStep (s : W32) : W32 :=
  let s := s ^^^ (s <<< 13)
  let s := s ^^^ (s >>> 17)
  s ^^^ (s <<< 5)

/-! ### CB4 blocks (R334, R341) -/

/-- Value of a nibble scaled by a block's byte (R333, R334). -/
def cb4V (scale nibble : Nat) : FVal :=
  if 253 ≤ scale then .nan false
  else match decodeF e2m1 nibble with
    | .fin n m e => .fin n m (e + scale - 127)
    | v => v

/-- Magnitude of a value for the block maximum; an infinity counts as the largest finite FP32 (R341). -/
def cb4Mag : FVal → Nat × Int
  | .fin _ m e => (m, e)
  | _ => (2 ^ 24 - 1, 104)

/-- The larger of two magnitudes. -/
def magMax (a b : Nat × Int) : Nat × Int := if leD a.1 a.2 b.1 b.2 then b else a

/-- Advance a generator over `n` elements; the states used, in order. -/
def srStates : Nat → W32 → List W32
  | 0, _ => []
  | n + 1, s => srStep s :: srStates n (srStep s)

/-- Encode one block of 32 FP32 values: scale byte, nibbles, flags (R341). `sr` gives each element's generator state. -/
def cb4Block (sr : Option (List W32)) (xs : List FVal) : Nat × List Nat × Nat :=
  let sig := if xs.any FVal.signals then flInvalid else 0
  if xs.any FVal.isNan then (0xFF, xs.map (fun _ => 0), sig)
  else
    let am := xs.foldl (fun a x => magMax a (cb4Mag x)) (0, 0)
    if am.1 = 0 then (0, xs.map (fun x => match x with | .fin true _ _ => 8 | _ => 0), 0)
    else
      let want := log2E am.1 am.2 - 2
      let xe := max (-127) (min 125 want)
      let states : List (Option W32) := match sr with
        | some l => l.map some
        | none => xs.map (fun _ => none)
      let enc := (xs.zip states).map (fun p =>
        match p.1 with
        | .fin n m e => convF e2m1 .saturate p.2 (.fin n m (e - xe))
        | v => convF e2m1 .saturate p.2 v)
      let fl := enc.foldl (fun a r => a ||| (r.2 &&& (flInexact ||| flSaturated))) 0
      let lost := enc.zip xs |>.any (fun p => match p.2 with | .fin _ m _ => m ≠ 0 ∧ p.1.1 % 8 = 0 | _ => false)
      ((xe + 127).toNat, enc.map (·.1), fl ||| (if want < -127 ∧ lost then flUnderflow else 0))

/-! ### Accumulation of R343 -/

/-- Truncate a signed dyadic toward zero to a multiple of 2^q; the exact multiple and whether anything was lost. -/
def truncTo (q : Int) (neg : Bool) (m : Nat) (e : Int) : Int × Bool :=
  if q ≤ e then (sgn neg (m * 2 ^ (e - q).toNat), false)
  else (sgn neg (m >>> (q - e).toNat), m % 2 ^ (q - e).toNat ≠ 0)

/-- One chunk of R343 over its terms: the new accumulator bits and flags. -/
def chunkSum (terms : List FVal) : Nat × Nat :=
  let sig := if terms.any FVal.signals then flInvalid else 0
  let pinf := terms.any (fun t => t == .inf false)
  let ninf := terms.any (fun t => t == .inf true)
  if terms.any FVal.isNan then (nanBits fp32, flNonFinite ||| sig)
  else if pinf && ninf then (nanBits fp32, flNonFinite ||| flInvalid)
  else if pinf then (infBits fp32, flNonFinite)
  else if ninf then (signBit fp32 true + infBits fp32, flNonFinite)
  else
    let fins := terms.filterMap (fun t => match t with | .fin n m e => some (n, m, e) | _ => none)
    let mx := fins.foldl (fun a t => magMax a (t.2.1, t.2.2)) (0, 0)
    if mx.1 = 0 then (signBit fp32 (fins.all (fun t => t.1)), 0)
    else
      let q := log2E mx.1 mx.2 - 38
      let tr := fins.map (fun t => truncTo q t.1 t.2.1 t.2.2)
      let r := arithOf fp32 false (tr.foldl (fun a t => a + t.1) 0) q
      (r.1, r.2 ||| (if tr.any (fun t => t.2) then flInexact else 0))

/-- The exact product of two values as a term of R343; ∞ × 0 is a NaN term. -/
def prodV : FVal → FVal → FVal
  | .nan a, v => .nan (a || v.signals)
  | u, .nan b => .nan (b || u.signals)
  | .inf a, .inf b => .inf (a != b)
  | .inf a, .fin b m _ => if m = 0 then .nan true else .inf (a != b)
  | .fin a m _, .inf b => if m = 0 then .nan true else .inf (a != b)
  | .fin a m e, .fin b n g => .fin (a != b) (m * n) (e + g)

end Sys2Proof.Machine
end

