-- ==== Sys2Proof/Config.lean ====
section
/-! DEFINITION. Values the spec leaves open: free values, as constants without a body (spec/00_scope.md R3; each is named in notes/assumptions). -/

namespace Sys2Proof

/-- Byte that host memory returns for a read of the device (counter, bus address). The host owns its memory. -/
opaque Config.hostByte : Nat → Nat → Byte
/-- Whether a host access fails on PCIe (R426). -/
opaque Config.hostFails : Nat → Nat → Bool
/-- Byte that an Octur peer returns (counter, module, peer physical address). -/
opaque Config.peerByte : Nat → Nat → Nat → Byte
/-- Status with which an Octur peer answers a write or read (R575). -/
opaque Config.peerStatus : Nat → Nat → Nat → Nat
/-- What VRCP, VRSQRT, VEXP2 and VLOG2 give for an FP32 operand (R310 bounds the error, not the bits). -/
opaque Config.vrcp : Nat → Nat
opaque Config.vrsqrt : Nat → Nat
opaque Config.vexp2 : Nat → Nat
opaque Config.vlog2 : Nat → Nat
/-- FLAGS bits 3 and 4 that these four set where the spec states no rule for them. -/
opaque Config.vapproxFlags : Nat → Nat → Nat
/-- A free byte (counter, index). -/
opaque Config.freeByte : Nat → Nat → Byte
/-- SHA-256 digest of a byte list. -/
opaque Config.sha256 : List Byte → Nat
/-- SHA-384 digest of a byte list. -/
opaque Config.sha384 : List Byte → Nat
/-- Rate error of the field die's oscillator against device time in ppb (an instant; spec/05_time_base.md R117 gives none). -/
opaque Config.fieldOsc : Nat → Int
/-- Isolator asymmetry of the field link in the module flash, measured in production (spec/05_time_base.md R117). -/
opaque Config.fieldCal : W32
/-- Field supply in units of 10 mV that the field die measures at an instant (R607). -/
opaque Config.fieldSupply : Nat → Nat
/-- clockIdentity of the PTP Instance, derived from the serial number in a way that the spec does not give (spec/05_time_base.md R110). -/
opaque Config.clockIdentity : W64
/-- A free 64-bit value (counter). -/
opaque Config.freeWord : Nat → W64

/-- Parser POL: x, y, z of a range, azimuth and elevation (range, azimuth, elevation, axis); the spec bounds its error only (spec/07_intake.md R163). -/
opaque Config.polar : Nat → Nat → Nat → Nat → Int
/-- How PRBS31 takes its seed and fills its bytes (R174 gives neither): bit 0 seed reversed, bit 1 inverted, bit 2 first bit highest. -/
opaque Config.prbs31 : Nat
/-- The parser of a partner, or of a field serial port at 2,048 + port (spec/07_intake.md R145 gives no assignment). -/
opaque Config.parserOf : Nat → Nat
/-- Microcode program of a field serial port (R159 names none). -/
opaque Config.serialProgram : Nat → Nat
/-- A free byte list (counter): the payload of a TAG sample, whose layout R151 does not give. -/
opaque Config.freeBytes : Nat → List Byte
/-- Whether a frame of the field link arrives with a good CRC (R587; log 139). -/
opaque Config.frameIntact : Nat → Bool

/-- Owner DID and class of a core memory page (core * 64 + page), as device firmware assigns it (spec/13_engine_instructions.md R319 gives no assignment). -/
opaque Config.corePage : Nat → Nat × Bool

/-- Set of a system cache slice that a line of 64 bytes uses (spec/18_memory_translation.md R421 gives no index). -/
opaque Config.cacheSet : Nat → Nat

/-- Set of the shared TLB that a page of a DID uses, and the entry that a full TLB gives up (spec/18_memory_translation.md R430 gives neither). -/
opaque Config.tlbSet : Nat → Nat → Nat
opaque Config.tlbVictim : Nat → Nat → Nat

/-- Half-angle sine and cosine of an FP64 angle as FP32 encodings (spec/09_transforms_ego_motion.md R205 bounds the error only). -/
opaque Config.sinHalf : Nat → Nat
opaque Config.cosHalf : Nat → Nat
/-- Reduction of an FP64 angle outside (−π, π] to that range (R205 gives no arithmetic). -/
opaque Config.wrapAngle : Nat → Nat
/-- Components of the normals of a reference (counter, place): R218 gives no bits for a unit eigenvector (log entry 131). -/
opaque Config.register : Nat → Nat → Nat

/-- ECDSA P-384 verification: digest of the key, message, signature (spec/22_security_presence.md R513; FIPS 186-5 itself is not in the spec). -/
opaque Config.sigOk : Nat → List Byte → List Byte → Bool
/-- The Holtotte signatures of a firmware image verify; its security version (R514 gives the image no layout). -/
opaque Config.fwOk : List Byte → Bool
opaque Config.fwSvn : List Byte → Nat
/-- Word of the debug port's nonce (nonce number, word; R530). -/
opaque Config.nonce : Nat → Nat → W32
/-- Root table address of a context, in units of 32 KiB (R423 leaves it to device firmware). -/
opaque Config.contextRoot : Nat → Nat

end Sys2Proof
end

