-- ==== Sys2Proof/Machine/Operands.lean ====
section
/-! DEFINITION. Operand forms: the fields of a descriptor's header and body (spec/03_host_rings.md R66) and the operands of an engine instruction (spec/13_engine_instructions.md R301). -/

namespace Sys2Proof.Machine

/-- Bits [bit + len - 1 : bit] of the number that starts at byte `byte` of a descriptor. -/
def dfld (d : Desc) (byte bit len : Nat) : Nat := bitsOf d.raw.toNat (8 * byte + bit) len

/-- One bit of a descriptor. -/
def dbit (d : Desc) (byte bit : Nat) : Bool := d.raw.toNat.testBit (8 * byte + bit)

/-- Opcode: unit in [15:8], operation in [7:0] (R66). -/
def dOpcode (d : Desc) : Nat := dfld d 0 0 16
def dFence (d : Desc) : Bool := dbit d 2 0
def dQuiet (d : Desc) : Bool := dbit d 2 1
/-- Class bit: true is guarded. -/
def dGuarded (d : Desc) : Bool := dbit d 3 0
def dTag (d : Desc) : Nat := dfld d 4 0 32
def dWaitKnot (d : Desc) : Nat := dfld d 8 0 13
def dWaitEn (d : Desc) : Bool := dbit d 9 7
def dSignalKnot (d : Desc) : Nat := dfld d 10 0 13
def dSignalEn (d : Desc) : Bool := dbit d 11 7
def dWaitValue (d : Desc) : W32 := BitVec.ofNat 32 (dfld d 12 0 32)

/-- A body field: first byte, first bit, length in bits. -/
abbrev BodyField := Nat × Nat × Nat

/-- The bits of a descriptor that the named fields occupy. -/
def bodyMask : List BodyField → Nat
  | [] => 0
  | (b, l, n) :: fs => (2 ^ n - 1) <<< (8 * b + l) ||| bodyMask fs

/-- Reserved header bits of R66: byte 2 [7:2], byte 3 [7:1], bytes 8 to 11 bits [14:13]. -/
def headerReserved : Nat :=
  bodyMask [(2, 2, 6), (3, 1, 7), (8, 13, 2), (10, 13, 2)]

/-- No reserved header bit is set. -/
def headerOk (d : Desc) : Bool := d.raw.toNat &&& headerReserved == 0

/-- No body bit outside the named fields is set (R66). -/
def bodyOk (fs : List BodyField) (d : Desc) : Bool :=
  (d.raw.toNat >>> 128) &&& ((2 ^ 384 - 1) ^^^ (bodyMask fs >>> 128)) == 0

/-- All of the body: a body that the operation ignores. -/
def wholeBody : List BodyField := [(16, 0, 384)]

/-- Immediate of an engine instruction, sign-extended to 64 bits (R301). -/
def immS (e : Enc) : W64 := e.imm.signExtend 64

/-- Bits of the immediate. -/
def immBits (e : Enc) (lo len : Nat) : Nat := bitsOf e.imm.toNat lo len

/-- Modifier bit `k`. -/
def mBit (e : Enc) (k : Nat) : Bool := e.m.getLsbD k

/-- Which fields of an instruction word its definition uses (R301): the others must be 0. -/
structure Uses where
  d : Bool := false
  a : Bool := false
  b : Bool := false
  i : Bool := false
  f : Bool := false
  /-- Modifier bits used, as a mask. -/
  m : Nat := 0
  /-- Immediate bits used, as a mask. -/
  imm : Nat := 0
  /-- The d, a, b fields that name vector registers: their bit 4 must be 0. -/
  vd : Bool := false
  va : Bool := false
  vb : Bool := false

/-- Unused fields are 0, and vector fields have bit 4 clear (R301, R327). -/
def encOk (u : Uses) (e : Enc) : Bool :=
  (u.d || e.d == 0) && (u.a || e.a == 0) && (u.b || e.b == 0) && (u.i || !e.i) && (u.f || e.f == 0)
    && (e.m.toNat &&& (15 ^^^ u.m) == 0) && (e.imm.toNat &&& ((2 ^ 32 - 1) ^^^ u.imm) == 0)
    && !(u.vd && e.d.getLsbD 4) && !(u.va && e.a.getLsbD 4) && !(u.vb && e.b.getLsbD 4)

end Sys2Proof.Machine
end

