-- ==== Sys2Proof/Machine/Memory.lean ====
section
/-! DEFINITION. The byte memory: one list of cells in canonical form, keyed by space and address (spec/18_memory_translation.md R414, spec/12_engine_execution.md R275, spec/13_engine_instructions.md R319). -/

namespace Sys2Proof.Machine

/-- The memories of the device whose bytes the model holds. -/
inductive Space where
  | dram
  | tile (engine : Nat)
  | core (core : Nat)
  /-- The boot ROM's staging buffer of 64 MiB (R549). -/
  | staging
  deriving DecidableEq, Repr

/-- The key of an address of a space; spaces do not overlap because an address is cut to its space's size. -/
def Space.key : Space → Nat → Nat
  | .dram, a => a % 2 ^ 48
  | .tile e, a => 2 ^ 48 + e * 2 ^ 21 + a % 2 ^ 21
  | .core c, a => 2 ^ 49 + c * 2 ^ 23 + a % 2 ^ 23
  | .staging, a => 2 ^ 50 + a % 2 ^ 26

/-- What an unlisted byte reads as (log entry 3, DESIGN CHOICE: the spec gives no power-on contents). -/
def Memory.blank : Byte := 0

/-- Read one byte. -/
def Memory.read : List Host.Cell → Nat → Byte
  | [], _ => Memory.blank
  | (k, b) :: m, a => if a = k then b else Memory.read m a

/-- Write one byte, keeping the canonical form: keys strictly rising, no entry equal to an unlisted byte. -/
def Memory.write : List Host.Cell → Nat → Byte → List Host.Cell
  | [], a, b => if b = Memory.blank then [] else [(a, b)]
  | (k, c) :: m, a, b =>
    if a = k then (if b = Memory.blank then m else (a, b) :: m)
    else if a < k then (if b = Memory.blank then (k, c) :: m else (a, b) :: (k, c) :: m)
    else (k, c) :: Memory.write m a b

/-- The keys of a list lie strictly above `lo`, rise strictly, and no byte is blank. -/
def Memory.above (lo : Nat) : List Host.Cell → Bool
  | [] => true
  | (k, b) :: m => decide (lo < k + 1) && decide (b ≠ Memory.blank) && Memory.above (k + 1) m

/-- The canonical form. -/
def Memory.wf (m : List Host.Cell) : Bool := Memory.above 0 m

/-- Read `n` bytes from key `k` upwards. -/
def Memory.reads (m : List Host.Cell) (k : Nat) : Nat → List Byte
  | 0 => []
  | n + 1 => Memory.read m k :: Memory.reads m (k + 1) n

/-- Write a byte list from key `k` upwards. -/
def Memory.writes (m : List Host.Cell) (k : Nat) : List Byte → List Host.Cell
  | [] => m
  | b :: bs => Memory.writes (Memory.write m k b) (k + 1) bs

end Sys2Proof.Machine
end

