-- ==== Sys2Proof/Machine/StDbg.lean ====
section
/-! DEFINITION. State of test and diagnostics (spec/27_test_diagnostics.md, debug levels of spec/22_security_presence.md). -/

namespace Sys2Proof.Machine

/-- One link test (R629 to R631). -/
structure LinkTest where
  run : Bool
  loop : Nat
  pattern : Nat
  state : Nat
  sync : Bool
  reason : Nat
  resyncs : Nat
  errors : Nat
  bits : Nat
  /-- Instant since which the checker in sync counts (the model's own field). -/
  since : Nat
  deriving DecidableEq, Repr

def LinkTest.reset : LinkTest :=
  { run := false, loop := 0, pattern := 0, state := 0, sync := false, reason := 0, resyncs := 0, errors := 0, bits := 0, since := 0 }

/-- The debug block (DBG) and the debug port. -/
structure Dbg where
  level : Nat
  source : Nat
  refused : Bool
  portLocked : Bool
  fails : Nat
  /-- The nonce is that of this free-value number (R530). -/
  nonce : Nat
  /-- Words of DBG_AUTH as written, by word index. -/
  auth : Tbl W32
  links : Tbl LinkTest
  linkSel : Tbl Nat
  traceTypes : Nat
  traceLost : Nat
  /-- Instant at which the trace buffer will be empty, in thirds of a ns, and records dropped since it filled (R635). -/
  traceFree : Nat
  traceDropped : Nat
  traceSyncs : Nat
  ir : Nat
  refusedIr : Nat
  /-- Result of the latest DBG_ACCESS: data, error. -/
  drData : W32
  drError : Bool
  boundary : Bool
  production : Bool
  memBase : Nat
  /-- Cells of the boundary register (R632, R633). -/
  cells : Nat
  deriving DecidableEq, Repr

def Dbg.reset : Dbg :=
  { level := 0, source := 0, refused := false, portLocked := false, fails := 0, nonce := 0, auth := [], links := [], linkSel := [],
    traceTypes := 7, traceLost := 0, traceFree := 0, traceDropped := 0, traceSyncs := 0, ir := 0xFF, refusedIr := 0, drData := 0,
    drError := false, boundary := false, production := false, memBase := 0, cells := 0 }

/-- A link test runs on one of the links in [lo, lo + n) (R630). -/
def Dbg.tests (d : Dbg) (lo n : Nat) : Bool := d.links.any (fun p => p.2.run && decide (lo ≤ p.1) && decide (p.1 < lo + n))

end Sys2Proof.Machine
end

