-- ==== Sys2Proof/Machine/StFlow.lean ====
section
/-! DEFINITION. The epochs in processing and the results of flows (spec/01_working_model.md R19 to R30, spec/06_cadences_triggers.md R134 to R140, spec/08_splice_alignment.md R189 to R191). -/

namespace Sys2Proof.Machine

/-- A written result of a flow (R26, R27, R30), with what later readers of it need. -/
structure FlowResult where
  flow : Nat
  epoch : Nat
  tov : Nat
  age : Nat
  /-- Earliest contribution in ns, none where no sample contributed. -/
  old : Option Nat
  status : Nat
  flags : Nat
  /-- FAB DT64 at which the completion record was written. -/
  at_ : Nat
  /-- The region table of the result's grid output record (R266, R268) and its source epoch. -/
  regions : List RegionRow
  source : Nat
  deriving DecidableEq, Repr

/-- The results of one flow that later epochs may read (R27, R449). -/
structure FlowHist where
  latest : Option FlowResult
  /-- Latest with a status below 0x10. -/
  usable : Option FlowResult
  /-- Latest written after a PASS (R449). -/
  good : Option FlowResult
  /-- Latest, and latest with a status below 0x10, before the records of the FAB cycle in which `latest` was written (R27). -/
  prev : Option FlowResult
  prevUsable : Option FlowResult
  deriving DecidableEq, Repr

def FlowHist.reset : FlowHist := { latest := none, usable := none, good := none, prev := none, prevUsable := none }

/-- What a flow took from a flow input at its close (R27). -/
structure Taken where
  flow : Nat
  required : Bool
  result : Option FlowResult
  /-- An earlier result in place of the latest one. -/
  substituted : Bool
  deriving DecidableEq, Repr

/-- One flow in one epoch. -/
structure FlowRun where
  flow : Nat
  guarded : Bool
  /-- Catch-up mode of the flow in this epoch (R138). -/
  mode : Nat
  taken : List Taken
  /-- ALIGN has ended and the inputs are marked (R190). -/
  gated : Bool
  /-- The flow's work runs in this epoch. -/
  runs : Bool
  /-- A required input is missing; a grid input is contested or unseen (R442 condition 4). -/
  missing : Bool
  partial_ : Bool
  degraded : Bool
  /-- A consumed result carries FALLBACK. -/
  fallback : Bool
  reefed : Bool
  truncated : Bool
  /-- Earliest contribution in ns. -/
  old : Option Nat
  /-- Status of the flow's work so far. -/
  status : Nat
  /-- Flags EMPTY_ATTN and OOB_FILL of the flow's operations (R79). -/
  flags : Nat
  /-- Some work of the flow ended after deadline(n). -/
  late : Bool
  /-- All work before EMIT has ended. -/
  ended : Bool
  /-- Instant at which FAIL was fixed (R442). -/
  failAt : Option Nat
  /-- The record of the doubt that fixed it (R462). -/
  failSeq : Option Nat
  doubted : Bool
  written : Bool
  deriving DecidableEq, Repr

/-- One epoch of a cadence from its acq_start to the end of its work. -/
structure Epoch where
  cadence : Nat
  epoch : Nat
  /-- The configuration the epoch started with (R28). -/
  cfg : Cfg
  /-- Streams enabled at acq_start(n), and the references of the joints then (R28, R206). -/
  enabledAt : List Nat
  joints : Tbl JointSt
  /-- Bound tasks unbound or changed by then: they give up their places (R28, R289). -/
  changedTasks : List Nat
  closed : Bool
  /-- Step generation at the close (R108, R218). -/
  gen : Nat
  /-- Streams ACTIVE at the end of the cycle before close(n), but for those that its drift check puts in TIME_SUSPECT (R179, R193). -/
  active : List Nat
  /-- Catch-up of the epoch (R137, R139). -/
  cut : Nat
  target : Nat
  reef : Nat
  flows : List FlowRun
  alignEnd : Option Nat
  poseEnd : Option Nat
  egosDone : List Nat
  volsDone : List Nat
  geoEnd : Option Nat
  /-- Joints found in disagreement (R262), and streams treated as giving no evidence. -/
  badJoints : List Nat
  badStreams : List Nat
  /-- Bound tasks ended: handle and status. -/
  tasks : Tbl Nat
  /-- Grids whose steps 1 to 8 have ended. -/
  gridsDone : List Nat
  gridNs : Nat
  /-- The end of the non-deferred work has been accounted (R137). -/
  finished : Bool
  /-- The epoch has been counted in TBU_CAD_LATE (R134, R141). -/
  lateSeen : Bool
  aborted : Bool
  /-- deadline(n) has passed. -/
  past : Bool
  /-- A stage window of the epoch was missed (R442 condition 3). -/
  windowMissed : Bool
  /-- Stages whose window is decided, and whose end event has come (R472, R473). -/
  decided : List Nat
  stagesEnded : List Nat
  deriving DecidableEq, Repr

end Sys2Proof.Machine
end

