-- ==== Sys2Proof/Machine/StIcu.lean ====
section
/-! DEFINITION. State of the interrupt controllers (spec/21_interrupts.md). -/

namespace Sys2Proof.Machine

/-- One source (R496 to R504). -/
structure IntSource where
  sense : Nat
  input : Bool
  pending : Bool
  masked : Bool
  storm : Bool
  overrun : Bool
  target : Nat
  modEn : Bool
  prio : Nat
  inService : Bool
  /-- Deliveries in the aligned millisecond `ms`. -/
  count : Nat
  ms : Nat
  deriving DecidableEq, Repr

/-- Reset sense of an ICU source (R496). -/
def icuSense (s : Nat) : Nat :=
  if s ≤ 63 then 3 else if s ≤ 135 then 1 else if s ≤ 161 then 3 else if s ≤ 175 then 5 else if s ≤ 183 then 1
  else if s ≤ 186 then 3 else if s ≤ 255 then 0 else 3

/-- Reset sense of a SIC source (R497). -/
def sicSense (s : Nat) : Nat :=
  if s = 0 ∨ s = 3 then 1 else if s ≤ 4 then 3 else if s ≤ 15 then 0 else if s ≤ 239 then 3 else 0

def IntSource.reset (sense : Nat) : IntSource :=
  { sense := sense, input := false, pending := false, masked := true, storm := false, overrun := false, target := 0, modEn := false,
    prio := 0, inService := false, count := 0, ms := 0 }

/-- One processor (R499 to R503). -/
structure IntProc where
  vbase : Nat
  modUs : Nat
  threshold : Nat
  asleep : Bool
  gmask : Bool
  /-- Sources in service, latest delivered first. -/
  stack : List Nat
  lastMod : Option Nat
  deriving DecidableEq, Repr

def IntProc.reset : IntProc :=
  { vbase := 0, modUs := 0, threshold := 0, asleep := false, gmask := false, stack := [], lastMod := none }

/-- A controller: the ICU, or the SIC with one processor. -/
structure IntCtl where
  sources : Tbl IntSource
  procs : Tbl IntProc
  eoiErr : Nat
  overrunAny : Bool
  storms : Nat
  /-- ICU_LOCK bits by number (R509). -/
  locks : Tbl Bool
  /-- ICU_SRC_SEL per DID, and for DID 1 per processor at 16 + p (R507). -/
  srcSel : Tbl Nat
  msixSel : Tbl Nat
  deriving DecidableEq, Repr

def IntCtl.reset : IntCtl :=
  { sources := [], procs := [], eoiErr := 0, overrunAny := false, storms := 0, locks := [], srcSel := [], msixSel := [] }

end Sys2Proof.Machine
end

