-- ==== Sys2Proof/Machine/StOut.lean ====
section
/-! DEFINITION. Error reports (spec/19_safety_concept.md R461, R464) and what the device sends out of itself. -/

namespace Sys2Proof.Machine

/-- An error report, with the fields of the record of R464. `flows` lists every flow affected, first named first. -/
structure Report where
  time : Nat
  /-- 0 INFO, 1 WARN, 2 DOUBT, 3 FATAL. -/
  severity : Nat
  kind : Nat
  index : Nat
  event : Nat
  status : Nat
  guarded : Bool
  flows : List Nat
  did : Nat
  detail : Nat
  detail2 : Nat
  /-- Epoch of the work concerned, where the report concerns work of one epoch (R445). -/
  epoch : Option Nat
  /-- Set by the rule that writes the record (R478), and for what the island's handling of an earlier record raises (R462). -/
  nested : Bool
  /-- Sequence number of that earlier record. -/
  cause : Option Nat
  deriving DecidableEq, Repr

/-- What leaves the device: PCIe writes and messages, frames, packets and pin edges. -/
inductive Output where
  /-- A posted PCIe write of a function: completion records, doorbell bytes and results (R61, R74). -/
  | hostWrite (did : Nat) (addr : Nat) (bytes : List Byte)
  /-- An MSI-X message of a device-wide vector (R508). -/
  | msix (vector : Nat)
  /-- A read of host memory was issued: a doorbell poll or a descriptor fetch (R62, R71). -/
  | hostRead (did : Nat) (addr : Nat) (bytes : Nat)
  /-- The data of a register read (R5, R6). -/
  | readData (did : Nat) (offset : Nat) (data : W32)
  /-- The data of a read through the BAR2 window (R55). -/
  | windowData (bytes : List Byte)
  /-- A frame sent on Ethernet port `port` (kind, bytes). -/
  | frame (port : Nat) (kind : Nat) (bytes : List Byte)
  /-- A publication's UDP datagram on plant port `port`: destination MAC address, VLAN tag, IPv6 or IPv4, destination address and port, payload
  (R566, R569). -/
  | datagram (port dstMac : Nat) (tag : Option Nat) (ip6 : Bool) (dstIp udpDst : Nat) (payload : List Byte)
  /-- An Octur packet sent on a port: header and payload (R574). -/
  | packet (port : Nat) (header : BitVec 128) (payload : List Byte)
  /-- A trigger output edge and its report: output, epoch, field time, active, level on the line by its polarity, field-holdover bit (R126, R127). -/
  | edge (output epoch : Nat) (time : Int) (active level holdover : Bool)
  /-- A rising edge of PPS_OUT, or of FLD_PPS_OUT in field time, in units of 2^-16 ns, with its high time in ms (R116). -/
  | pps (field : Bool) (time : Int) (width : Nat)
  /-- A pulse or level on a named pin: pin code and value. -/
  | pin (code : Nat) (value : Nat)
  /-- What the debug port captures from a data register (R632, R634). -/
  | tdo (value : Nat)
  /-- The boundary cells drive every output of J1 (R633). -/
  | boundary (cells : Nat)
  /-- A NAK on an Octur port (R576). -/
  | nak (port : Nat)
  /-- A processor begins to fetch at a vector address (R499): controller, processor, address. -/
  | vector (sic : Bool) (p : Nat) (addr : Nat)
  /-- A trace record (R635). -/
  | trace (bytes : BitVec 128)
  deriving DecidableEq, Repr

/-- Leaves through the module connector J1, which the boundary cells cover; the field side does not (R632). -/
def Output.atJ1 (o : Output) : Bool :=
  match o with
  | .hostWrite .. | .msix .. | .hostRead .. | .readData .. | .windowData .. | .frame .. | .datagram .. | .packet .. | .nak .. | .trace .. => true
  | .pin code _ => (decide (code < 64) && decide (code ≠ 2) && decide (code ≠ 16) && decide (code ≠ 17)) || decide (300 < code)
  | .pps field _ _ => !field
  | .edge .. | .tdo .. | .boundary .. | .vector .. => false

end Sys2Proof.Machine
end

