-- ==== Sys2Proof/Machine/StPower.lean ====
section
/-! DEFINITION. State of reset, power and boot (spec/23_reset_power_boot.md). -/

namespace Sys2Proof.Machine

/-- Reset domains, numbered as the bits of RCU_STATUS.in_reset: 0 SAFE, 1 TIME, 2 FAB, 3 PCIE, 4 MEM, 5 CTL, 6 ENG, 7 ETH,
8 OCT, 9 field link. -/
abbrev Domain := Nat

structure Power where
  /-- Domains in reset. -/
  inReset : List Domain
  /-- MOD_PG is released: every on-module logic rail is good (R609). -/
  railsGood : Bool
  /-- Causes held (R537), and the widest scope and cause of the sequence in progress. -/
  held : List Nat
  seqCause : Option Nat
  /-- Oasis counters by cause, total, last cause, fresh, time resets, overrides, seal breaks (R543). -/
  counts : Tbl Nat
  total : Nat
  lastCause : Nat
  fresh : Bool
  timeResets : Nat
  overrides : Nat
  sealBreaks : Nat
  /-- OAS_FIELD and OAS_CMD.status. -/
  fieldBrownouts : Nat
  oasStatus : Nat
  rcuTarget : Nat
  rcuLast : Nat
  octurResetEn : Bool
  perstScope : Bool
  bootSrc : Nat
  clkMode : Nat
  clkActive : Nat
  /-- Power state 0 to 4, requested state, reason; the wait for running work of a request for P2 or P3. -/
  pstate : Nat
  target : Nat
  reason : Nat
  busy : Bool
  /-- The state that the transition in progress leads to (R546). -/
  goal : Nat
  plimit : Nat
  power : Nat
  junction : Nat
  engMhz : Nat
  /-- Thousandths of ENG cycles counted up to the last change of the ENG clock, and the instant of that change (R306; the model's own fields). -/
  engBase : Nat
  engSince : Nat
  ctlMhz : Nat
  wake : Nat
  /-- The copy in the TIME domain (R546). -/
  wakeCopy : Nat
  /-- GLB_BOOT: stage, error, bank, source; the boot step reached (R550). -/
  stage : Nat
  error : Nat
  bank : Nat
  source : Nat
  step : Nat
  bootGo : Bool
  /-- Firmware banks that failed in this boot (R514, R516). -/
  failedBanks : List Nat
  /-- CLK_MODE = 11 was taken as 00, and the island has not yet said so (R542). -/
  strapWarn : Bool
  /-- Instant at which a wait for boot_go began. -/
  waitFrom : Option Nat
  /-- Failed training attempts, and whether training has ended (R550). -/
  training : Nat
  trained : Bool
  deriving DecidableEq, Repr

/-- Right after the Oasis domain has powered up: every domain in reset, no cause counted yet (R539, R543). -/
def Power.reset : Power :=
  { inReset := [0, 1, 2, 3, 4, 5, 6, 7, 8, 9], railsGood := false, held := [], seqCause := none, counts := [], total := 0, lastCause := 0, fresh := true
    timeResets := 0, overrides := 0, sealBreaks := 0, fieldBrownouts := 0, oasStatus := 0, rcuTarget := 0, rcuLast := 0, octurResetEn := false
    perstScope := false, bootSrc := 0, clkMode := 0, clkActive := 0, pstate := 0, target := 0, reason := 0, busy := false, goal := 0
    plimit := 240, power := 0, junction := 0, engMhz := 1250, engBase := 0, engSince := 0, ctlMhz := 1500, wake := 0, wakeCopy := 0, stage := 0, error := 0, bank := 0
    source := 0, step := 1, bootGo := false, failedBanks := [], strapWarn := false, waitFrom := none, training := 0, trained := false }

end Sys2Proof.Machine
end

