-- ==== Sys2Proof/Machine/StSafe.lean ====
section
/-! DEFINITION. State of the safety island (spec/19_safety_concept.md, spec/20_safety_mechanisms.md). -/

namespace Sys2Proof.Machine

/-- A record of the error ring (R464). -/
structure ErrRec where
  report : Report
  seq : Nat
  repeats : Nat
  merged : Bool
  nested : Bool
  /-- Sequence number of the earlier record of a nested one. -/
  cause : Option Nat
  deriving DecidableEq, Repr

/-- Safety state of a guarded flow (R442 to R447). -/
structure FlowSafe where
  latched : Bool
  /-- A clear was accepted and acts at the next acq_start. -/
  clearing : Bool
  /-- First epoch after an effective clear: those that started before it still fail (R28, R447). -/
  clearedFrom : Option Nat
  /-- Doubts, newest first: epoch and time. -/
  doubts : List (Nat × Nat)
  count : Nat
  fallbacks : Nat
  verdict : Bool
  shadow : Bool
  /-- Verdict FAIL stands (R452). -/
  failing : Bool
  deriving DecidableEq, Repr

def FlowSafe.reset : FlowSafe :=
  { latched := false, clearing := false, clearedFrom := none, doubts := [], count := 0, fallbacks := 0, verdict := false, shadow := false, failing := false }

/-- What a unit tests now (R480, R483): a golden run or a slice, and its start. -/
inductive UnitTest where
  | none
  | golden (start : Nat)
  | slice (n : Nat) (start : Nat)
  deriving DecidableEq, Repr

/-- One unit of R487. -/
structure UnitSafe where
  /-- 0 IN_SERVICE, 1 FENCED, 2 OUT_OF_SERVICE. -/
  service : Nat
  cause : Nat
  outs : Nat
  readmissions : Nat
  blocked : Bool
  /-- Instants at which it went out of service, newest first (R490). -/
  outAt : List Nat
  /-- Instant of the last single disagreement (R456). -/
  t1 : Option Nat
  /-- Readmission step in progress, 1 to 6; 0 none. At start-up the unit skips the epoch boundary (R493). -/
  step : Nat
  startup : Bool
  /-- Epochs (cadence, 32 for one-shot tasks; epoch) for which a golden run is owed (R480). -/
  owed : List (Nat × Nat)
  test : UnitTest
  /-- Last pass of each slice. -/
  passes : Tbl Nat
  /-- Release of the SAFE domain, from which untested slices age. -/
  born : Nat
  /-- Device time of the latest readmission at an epoch boundary (R491). -/
  since : Nat
  sliceFails : Nat
  aborts : Nat
  goldenOk : Nat
  goldenBad : Nat
  warned : Bool
  doubtAt : Option Nat
  /-- Work that the unit has run: flow, cadence and epoch, for each flow its open epochs and the latest one (R445, R456, R481). -/
  used : List (Nat × Nat × Nat)
  deriving DecidableEq, Repr

def UnitSafe.reset : UnitSafe :=
  { service := 1, cause := 0, outs := 0, readmissions := 0, blocked := false, outAt := [], t1 := none, step := 0, startup := false, owed := [],
    test := .none, passes := [], born := 0, since := 0, sliceFails := 0, aborts := 0, goldenOk := 0, goldenBad := 0, warned := false, doubtAt := none, used := [] }

/-- One window watchdog's status (R494). -/
structure WdStatus where
  misses : Nat
  lastUs : Nat
  /-- Close whose absence the INTAKE watchdog has reported (R473). -/
  gapAt : Nat
  deriving DecidableEq, Repr

def WdStatus.reset : WdStatus := { misses := 0, lastUs := 0, gapAt := 0 }

/-- The safety island (SFI). -/
structure Safe where
  /-- Both sides of the intake queue run, and the island has started (R461). -/
  intakeUp : Bool
  intake : List Report
  /-- The record whose handling is going on: what it raises is nested under it (R462). -/
  acting : Option Nat
  /-- A report was lost to overflow, whether one of them was FATAL; counts of SFI_RING_LOST. -/
  overflow : Bool
  overflowFatal : Bool
  lostDropped : Nat
  lostOverflow : Nat
  ring : Tbl ErrRec
  next : Nat
  /-- Cause and record number of the first FATAL held (SFI_FATAL). -/
  fatal : Option (Nat × Nat)
  fatalAt : Nat
  flows : Tbl FlowSafe
  units : Tbl UnitSafe
  windows : Tbl WdStatus
  ack0 : Bool
  ack1 : Bool
  /-- The island's energise requests, as last sent. -/
  req0 : Bool
  req1 : Bool
  ackRefused : Bool
  clearRefused : Bool
  /-- The island has started after its release (R453, R461). -/
  running : Bool
  /-- The island's heartbeat runs (R454), the last one sent, the last firmware heartbeat. -/
  beating : Bool
  beatAt : Nat
  fwBeat : Option Nat
  flowSel : Tbl Nat
  wdSel : Tbl Nat
  unitSel : Tbl Nat
  overdueWarn : Bool
  overdueDoubt : Bool
  /-- Next word of each SRAM scrubber, by memory (R477). -/
  scrub : Tbl Nat
  deriving DecidableEq, Repr

def Safe.reset : Safe :=
  { intakeUp := false, intake := [], acting := none, overflow := false, overflowFatal := false, lostDropped := 0, lostOverflow := 0, ring := [], next := 0,
    fatal := none, fatalAt := 0, flows := [], units := [], windows := [], ack0 := false, ack1 := false, req0 := false, req1 := false,
    ackRefused := false, clearRefused := false, running := false, beating := false, beatAt := 0, fwBeat := none, flowSel := [], wdSel := [],
    unitSel := [], overdueWarn := false, overdueDoubt := false, scrub := [] }

end Sys2Proof.Machine
end

