-- ==== Sys2Proof/Machine/StSec.lean ====
section
/-! DEFINITION. State of security and presence (spec/22_security_presence.md). -/

namespace Sys2Proof.Machine

structure Sec where
  /-- 0 BLANK, 1 PROVISIONED, 2 SERVICE, 3 RETIRED. -/
  lifecycle : Nat
  transitions : Nat
  ownerGen : Nat
  safetyGen : Nat
  debugGen : Nat
  /-- Digests of the key slots in fuses, by usage (R513, R515). -/
  keys : Tbl Nat
  serial : Nat
  /-- The applied safety configuration image, its bytes' digest, and its state (R518 to R520). -/
  image : Option Image
  imageDigest : Nat
  locked : Bool
  imageSlot : Nat
  imageSvn : Nat
  /-- The image stored in flash, and whether it is stored locked. -/
  stored : Option (Image × Nat × Nat × Bool)
  /-- SAFETY generation that signed the stored image. -/
  storedGen : Nat
  fwSvn : Nat
  /-- Security versions of the images in the firmware banks. -/
  bankSvn : Tbl Nat
  /-- Fuse values of the security versions (R514). -/
  fuseImage : Nat
  fuseFw : Nat
  activeBank : Nat
  pendingBank : Option Nat
  /-- Boot attempts left for a pending bank, and banks marked bad (R516). -/
  tries : Nat
  badBanks : List Nat
  rwlDrop : Bool
  maintRefused : Bool
  windowMax : Nat
  /-- Presence window: open, under override, its opening instant. -/
  open_ : Bool
  override : Bool
  openedAt : Nat
  /-- The island's view of the key, whether it has been in RUN since the last window, and the instant of a MAINT that
  found the seal broken (R523, R524). -/
  key : Nat
  mayOpen : Bool
  refusedAt : Option Nat
  /-- Seal: intact now; latched in OAS (R522). -/
  sealOk : Bool
  sealLatched : Bool
  deriving DecidableEq, Repr

/-- A module as it leaves production: BLANK, no owner key (R511, R513). -/
def Sec.reset : Sec :=
  { lifecycle := 0, transitions := 0, ownerGen := 0, safetyGen := 0, debugGen := 0, keys := [], serial := 0, image := none, imageDigest := 0
    locked := false, imageSlot := 0, imageSvn := 0, stored := none, storedGen := 0, fwSvn := 0, bankSvn := [], fuseImage := 0, fuseFw := 0
    activeBank := 0, pendingBank := none, tries := 0, badBanks := [], rwlDrop := false, maintRefused := false, windowMax := 15, open_ := false
    override := false, openedAt := 0, key := 0, mayOpen := false, refusedAt := none, sealOk := false, sealLatched := false }

end Sys2Proof.Machine
end

