-- ==== Sys2Proof/Machine/State.lean ====
section
/-! DEFINITION. The state of the CF-7240: every register, buffer, counter and mode of the spec, and the command queue. -/

namespace Sys2Proof.Machine

/-- Reasons for which a run ends with a fault: there is none. The spec answers every access and every failed check with a
status, a record or a dropped write, and the device goes on, so no meaning ends a run and the type has no constructor. -/
inductive Fault : Type
  deriving DecidableEq, Repr

/-- Commands that the model gives no meaning: none at present. -/
inductive Refusal where
  /-- Raised by `exec` for a command whose arm has no meaning; no arm raises it now. Safe: the run stops. -/
  | notModelled (mnemonic : String)
  deriving DecidableEq, Repr

/-- The machine. -/
structure State where
  /-- Commands that wait, first in, first out. -/
  pending : List Instr
  /-- GLB_BOOT reads READY (R551). -/
  bootReady : Bool
  /-- What the device has sent, newest first. -/
  out : List Output
  /-- Counter of the free values handed out (the model's own field). -/
  fresh : Nat
  /-- Device time DT64 in ns (R4). DESIGN CHOICE: R38 lets the FAB copy and the local copies of ENG, CTL, PCIE and SAFE differ by up to 4 ns
  plus a cycle; the model takes every difference as 0, so all of them are this one value (log entry 138). -/
  now : Nat
  /-- Time since power-on in ns, which no step of device time moves: what the units' own timers count (the model's own field). -/
  up : Nat
  /-- Bytes of DRAM, tile SRAM and core memory. -/
  mem : List Host.Cell
  mmu : Mmu
  tlb : Tlbs
  hif : Hif
  knots : Knots
  qmu : Qmu
  eng : Engines
  safe : Safe
  power : Power
  tb : Tb
  fldT : FldTime
  trig : Trig
  ing : Intake
  spl : Splice
  xft : Xft
  geo : Geo
  eth : Eth
  oct : Oct
  seq : SeqUnit
  slv : Solvers
  lyt : Layout
  icu : IntCtl
  sic : IntCtl
  sec : Sec
  fld : Fld
  dbg : Dbg
  /-- The configuration as last set, and the one each cadence's latest acq_start took (R28). -/
  cfg : Cfg
  live : Tbl Cfg
  /-- The configuration before the changes of the present instant, and the time (of `up`) of that instant (R28; the model's own). -/
  cfgPrev : Cfg
  changedAt : Option Nat
  /-- Epochs from acq_start to the end of their work, oldest first. -/
  epochs : List Epoch
  results : Tbl FlowHist
  /-- Catch-up modes of advisory flows as last set (R138), and those in force since the cadence's latest close. -/
  modesNext : Tbl Nat
  modes : Tbl Nat
  /-- Halves of 64-bit register pairs, by DID * 2^26 + offset of the low register (R6): upper halves latched by reads, low halves written. -/
  readHi : Tbl Nat
  writeLo : Tbl Nat
  deriving DecidableEq, Repr

/-- The machine right after reset: the Oasis domain has just powered up, every other domain is in reset, and the field die has no supply. -/
def State.reset : State :=
  { pending := [], bootReady := false, out := [], fresh := 0, now := 0, up := 0, mem := [], mmu := Mmu.reset, tlb := Tlbs.reset, hif := Hif.reset
    knots := Knots.reset, qmu := Qmu.reset, eng := Engines.reset, safe := Safe.reset, power := Power.reset, tb := Tb.reset
    fldT := FldTime.reset, trig := Trig.reset, ing := Intake.reset, spl := Splice.reset, xft := Xft.reset, geo := Geo.reset
    eth := Eth.reset, oct := Oct.reset, seq := SeqUnit.reset, slv := Solvers.reset, lyt := Layout.reset, icu := IntCtl.reset
    sic := IntCtl.reset, sec := Sec.reset, fld := Fld.reset, dbg := Dbg.reset, cfg := Cfg.reset, live := []
    cfgPrev := Cfg.reset, changedAt := none, epochs := [], results := []
    modesNext := [], modes := [], readHi := [], writeLo := [] }

end Sys2Proof.Machine
end

