-- ==== Sys2Proof/Machine/Ops.lean ====
section
/-! DEFINITION. The shared operations: error reports, device-virtual memory, MSI-X, completion records, knot signals and the run of a descriptor. -/

namespace Sys2Proof.Machine

/-! ### Output and free values -/

/-- Send something out of the device; under a boundary instruction the functional logic is disconnected from J1 (R633). -/
def emit (s : State) (o : Output) : State := if s.dbg.boundary && o.atJ1 then s else { s with out := o :: s.out }

/-- Consume one free value (the counter that `Config` constants are applied to). -/
def tickFresh (s : State) : State := { s with fresh := s.fresh + 1 }

/-- Move device time forward to an instant that an event says is reached (log entry 4). -/
def advanceTo (s : State) (t : Nat) : State := { s with now := max s.now t, up := s.up + (t - s.now) }

/-- Move time forward to an instant of a unit's own timer (log entry 4). -/
def advanceUp (s : State) (t : Nat) : State := advanceTo s (s.now + (t - s.up))

/-- Count of the ENG clock in thousandths of a cycle (R306). -/
def engClock (s : State) : Nat := s.power.engBase + (s.up - s.power.engSince) * s.power.engMhz

/-- One TIME cycle with no command: the time counter adds exactly 2 ns unless its domain is in reset (R101, R103; log entry 4). Every
other event of the spec is a command of its own. -/
def idle (s : State) : State :=
  { s with now := if s.power.inReset.contains 1 then s.now else (s.now + 2) % 2 ^ 64, up := s.up + 2 }

/-! ### Status codes of R78 -/

def stOk : Nat := 0x00
def stOkLate : Nat := 0x01
def stDegraded : Nat := 0x02
def stFallback : Nat := 0x03
def stDeadlineMiss : Nat := 0x10
def stNumeric : Nat := 0x11
def stIterLimit : Nat := 0x12
def stPageExhausted : Nat := 0x18
def stDescInvalid : Nat := 0x20
def stDescAlias : Nat := 0x21
def stOverlap : Nat := 0x22
def stFormat : Nat := 0x23
def stTranslation : Nat := 0x28
def stFirewall : Nat := 0x29
def stIsolated : Nat := 0x30
def stUnitReset : Nat := 0x31
def stQueueReset : Nat := 0x32
def stMismatch : Nat := 0x38
def stInputSuspect : Nat := 0x39
def stContested : Nat := 0x3A
def stNotAuth : Nat := 0x40
def stAborted : Nat := 0x7F
def stInternal : Nat := 0xFF

/-! ### Interrupt sources (R496 to R501) -/

def icuSource (s : State) (k : Nat) : IntSource := Tbl.at (IntSource.reset (icuSense k)) s.icu.sources k

/-- An edge-sensed source takes an event: pending, or lost with its overrun bit while pending or in service (R501). -/
def IntSource.event (x : IntSource) : IntSource :=
  if x.pending ∨ x.inService then { x with overrun := true } else { x with pending := true }

/-- A source's sense takes this change of its input as an event (R498). -/
def IntSource.edge (x : IntSource) (level : Bool) : Bool :=
  (x.input != level) && (x.sense == 5 || (x.sense == 3 && level) || (x.sense == 4 && !level))

/-- A source loses the event of this change of its input: it is in service or pending (R501). -/
def IntSource.loses (x : IntSource) (level : Bool) : Bool := x.edge level && (x.pending || x.inService)

/-- The input of a source takes a level (R498). -/
def IntSource.drive (x : IntSource) (level : Bool) : IntSource :=
  if x.edge level then { x.event with input := level } else { x with input := level }

/-- Drive an ICU source. -/
def icuSet (s : State) (k : Nat) (level : Bool) : State :=
  let x := icuSource s k
  { s with icu.sources := s.icu.sources.put k (x.drive level), icu.overrunAny := s.icu.overrunAny || x.loses level }

/-- A pulse of a device-internal source (R498). -/
def icuPulse (s : State) (k : Nat) : State := icuSet (icuSet s k true) k false

/-- Drive a SIC source. -/
def sicSet (s : State) (k : Nat) (level : Bool) : State :=
  let x := Tbl.at (IntSource.reset (sicSense k)) s.sic.sources k
  { s with sic.sources := s.sic.sources.put k (x.drive level), sic.overrunAny := s.sic.overrunAny || x.loses level }

/-- A pulse of a SIC source. -/
def sicPulse (s : State) (k : Nat) : State := sicSet (sicSet s k true) k false

/-- ICU source of the unit that raises a report (R496): none where the unit has none. -/
def reportSource (kind index : Nat) : Option Nat :=
  if kind = 4 then
    match index / 256 with
    | 8 => some 154 | 9 => some 155 | 10 => some 156 | 5 => some 157 | 6 => some 158 | 0x14 => some 159
    | 7 => some 160 | 0x13 => some 161 | _ => none
  else if kind = 5 then some 154
  else if kind = 12 ∨ kind = 17 then some 156
  else if kind = 7 then some 157
  else if kind = 8 then some 158
  else if kind = 16 then some 160
  else if kind = 11 then some 161
  else none

/-! ### Error reports -/

/-- Severities of R458. -/
def sevInfo : Nat := 0
def sevWarn : Nat := 1
def sevDoubt : Nat := 2
def sevFatal : Nat := 3

/-- DOUBT for guarded work and WARN for advisory work (R459). -/
def sevOf (guarded : Bool) : Nat := if guarded then sevDoubt else sevWarn

/-- A report raised now, with no flow, DID or detail (R464). -/
def reportOf (s : State) (severity kind index event : Nat) : Report :=
  { time := s.now, severity := severity, kind := kind, index := index, event := event, status := 0,
    guarded := false, flows := [], did := 0, detail := 0, detail2 := 0, epoch := none, nested := false, cause := none }

/-- Order of reports of one FAB cycle: severity, FATAL first; precedence; source kind and index (R9, R461). -/
def Report.rank (r : Report) : Nat := (((3 - r.severity) * 16 + r.did % 16) * 32 + r.kind) * 65536 + r.index

/-- The queue takes a report, in the order of its FAB cycle (R461). -/
def queueReport (r : Report) : List Report → List Report
  | [] => [r]
  | x :: l => if x.time = r.time ∧ r.rank < x.rank then r :: x :: l else x :: queueReport r l

/-- A report enters the intake queue, and the interrupt source of its unit pulses (R461, R496). -/
def enterIntake (s : State) (r : Report) : State :=
  let s := sicSet { s with safe.intake := queueReport r s.safe.intake } 0 true
  match reportSource r.kind r.index with
  | some k => icuPulse s k
  | none => s

/-- What the island's handling of a record raises is nested under it (R462). -/
def nest (s : State) (r : Report) : Report :=
  match s.safe.acting with
  | some k => if r.cause.isSome then r else { r with nested := true, cause := some k }
  | none => r

/-- The island acts on account of a record. -/
def actingOn (k : Option Nat) (s : State) (g : State → State) : State :=
  { g { s with safe.acting := k } with safe.acting := none }

/-- A report enters the intake of the island under R461, or is lost as that rule says. -/
def raiseNow (s : State) (r : Report) : State :=
  if !s.safe.intakeUp then s
  else if r.severity ≤ sevWarn then
    if s.safe.intake.length + 9 ≤ 64 then enterIntake s r
    else { s with safe.lostDropped := satAdd 16 s.safe.lostDropped 1 }
  else if s.safe.intake.length < 64 then enterIntake s r
  else { s with safe.overflow := true, safe.overflowFatal := s.safe.overflowFatal || r.severity == sevFatal }

/-- Raise a report. -/
def raise (s : State) (r : Report) : State := raiseNow s (nest s r)

/-- Write an SRAM at a key: words written whole lose their error. -/
def sramWrite (s : State) (k : Nat) (bs : List Byte) : State :=
  { s with
    mem := Memory.writes s.mem k bs
    eng.bad := s.eng.bad.filter (fun w => !(decide (k ≤ w * 8) && decide (w * 8 + 8 ≤ k + bs.length))) }

/-! ### Trace port (R635) -/

/-- A trace record of an event now. -/
def traceBits (s : State) (type kind index data : Nat) : BitVec 128 :=
  BitVec.ofNat 128 (s.now % 2 ^ 64 + type % 256 * 2 ^ 64 + kind % 256 * 2 ^ 72 + index % 65536 * 2 ^ 80 + data % 2 ^ 32 * 2 ^ 96)

/-- Put a record into the trace buffer of 4,096 records, which sends one record each 80 / 3 ns. -/
def tracePut (s : State) (r : BitVec 128) : State :=
  emit { s with dbg.traceFree := max (3 * s.up) s.dbg.traceFree + 80 } (.trace r)

/-- The 64 KiB trace buffer has no room for a record of 16 bytes. -/
def traceFull (s : State) : Bool := decide (3 * s.up + 80 * 4096 ≤ s.dbg.traceFree + 79)

/-- A record enters the buffer, or finds it full and is dropped and counted. -/
def tracePush (s : State) (r : BitVec 128) : State :=
  if traceFull s then { s with dbg.traceDropped := s.dbg.traceDropped + 1 } else tracePut s r

/-- Trace an event: at level OBSERVE or INTRUSIVE, for an enabled type. The first record after space returns is an OVERFLOW record with the
count of those dropped. -/
def trace (s : State) (type kind index data : Nat) : State :=
  if s.dbg.level = 0 ∨ (type ≠ 0 ∧ !s.dbg.traceTypes.testBit type) then s
  else if s.dbg.traceDropped = 0 || traceFull s then tracePush s (traceBits s type kind index data)
  else
    let s := tracePut s (traceBits s 6 0 0 s.dbg.traceDropped)
    tracePush { s with dbg.traceDropped := 0, dbg.traceLost := satAdd 8 s.dbg.traceLost 1 } (traceBits s type kind index data)

/-- Take back the newest trace records of a list of outputs. -/
def dropTraces : Nat → List Output → List Output
  | n + 1, .trace _ :: out => dropTraces n out
  | n, o :: out => o :: dropTraces n out
  | _, [] => []

/-- The trace port at a level: at OFF it finishes the record in transmission and stops, and what the buffer still holds never leaves (log
entry 137). -/
def stopTrace (s : State) : State :=
  if s.dbg.level ≠ 0 then s else
  let left := s.dbg.traceFree - 3 * s.up
  { s with out := dropTraces (left / 80) s.out, dbg.traceFree := 3 * s.up + left % 80 }

/-! ### Octur packets that other units send (R574, R577, R578) -/

/-- Coded dimension of OCT_CFG: 0, 1, 2 stand for 1, 2, 4. -/
def octDim (code : Nat) : Nat := if code = 0 then 1 else if code = 1 then 2 else 4

/-- Direction in one dimension: none where source and destination agree, some true for + (R577). -/
def octDir (src dst n : Nat) (ring : Bool) : Option Bool :=
  if src = dst then none
  else if ring then some (decide ((dst + n - src) % n * 2 ≤ n))
  else some (decide (src < dst))

/-- The port toward a module: x first, then y (R572, R577). -/
def octRoute (o : Oct) (dst : Nat) : Option Nat :=
  let nx := octDim o.cols
  let ny := octDim o.rows
  match octDir (o.module % nx) (dst % nx) nx (o.torus && nx == 4) with
  | some plus => some (if plus then 0 else 1)
  | none =>
    match octDir (o.module / nx) (dst / nx) ny (o.torus && ny == 4) with
    | some plus => some (if plus then 2 else 3)
    | none => none

def octPort (s : State) (p : Nat) : OctPort := Tbl.at OctPort.reset s.oct.ports p

/-- A packet header (R574). -/
def octHeader (type vc cls dst src did hops len tag addr op : Nat) : BitVec 128 :=
  BitVec.ofNat 128 (type % 16 + vc % 4 * 16 + cls % 2 * 64 + dst % 16 * 2 ^ 8 + src % 16 * 2 ^ 12 + did % 16 * 2 ^ 16
    + hops % 16 * 2 ^ 20 + len % 128 * 2 ^ 24 + tag % 2 ^ 16 * 2 ^ 32 + addr % 2 ^ 48 * 2 ^ 48 + op % 2 ^ 32 * 2 ^ 96)

/-- The last `n` elements of a list. -/
def lastOf {α : Type} (n : Nat) (l : List α) : List α := l.drop (l.length - n)

/-- Send a packet from a port: it takes the next link sequence number and waits for its acknowledgement (R576). -/
def octSend (s : State) (p : Nat) (h : BitVec 128) (payload : List Byte) : State :=
  let x := octPort s p
  let y : OctPort := { x with seq := (x.seq + 1) % 256, unacked := lastOf 256 (x.unacked ++ [(x.seq, h, payload)]) }
  emit { s with oct.ports := s.oct.ports.put p y } (.packet p h payload)

/-- The record OCTUR_UNREACHABLE naming the module (R578). -/
def raiseUnreachable (s : State) (m did : Nat) : State :=
  raise { s with oct.unreachable := satAdd 16 s.oct.unreachable 1 }
    { reportOf s sevWarn 4 0x1200 0x0172 with status := stTranslation, did := did, detail := m }

/-- The record KNOT_UNDELIVERED: its source names the knot, its detail the module (R464, R579). -/
def raiseUndelivered (s : State) (m k did : Nat) (guarded : Bool) : State :=
  raise { s with oct.knotsLost := satAdd 16 s.oct.knotsLost 1 }
    { reportOf s (sevOf guarded) 8 k 0x0173 with guarded := guarded, did := did, detail := m }

/-- The pieces of a remote access: up to 256 bytes, none across a 4 KiB boundary (R578). -/
def octPieces : Nat → Nat → Nat → List (Nat × Nat)
  | 0, _, _ => []
  | fuel + 1, a, n =>
    if n = 0 then [] else
    let len := min n (min 256 (4096 - a % 4096))
    (a, len) :: octPieces fuel (a + len) (n - len)

/-- Send the requests of a remote access in issue order; each waits for its answer. -/
def octRequest (s : State) (p m did : Nat) (src : Option Source) (guarded write : Bool) (a : Nat) (bs : List Byte) (n : Nat) : State :=
  (octPieces (n / 256 + n / 4096 + 2) a n).foldl (fun s x =>
    let tag := s.oct.nextTag % 65536
    let r : OctReq := { tag := tag, module := m, did := did, kind := if write then .write else .read, issued := s.up, src := src }
    octSend { s with oct.nextTag := s.oct.nextTag + 1, oct.requests := s.oct.requests ++ [r] } p
      (octHeader (if write then 3 else 1) 0 (if guarded then 1 else 0) m s.oct.module did 0 ((x.2 + 3) / 4) tag x.1 0)
      (if write then (bs.drop (x.1 - a)).take x.2 else [])) s

/-- The status that a peer answers: one of R575. -/
def peerAnswer (k m a : Nat) : Nat :=
  let c := Config.peerStatus k m a % 4
  if c = 0 then stOk else if c = 1 then stTranslation else if c = 2 then stFirewall else stInternal

/-- A remote access of module `m` (R578): unreachable, or requested and answered. -/
def octAccess (s : State) (m did : Nat) (src : Option Source) (guarded write : Bool) (a : Nat) (bs : List Byte) (n : Nat) : Nat × State :=
  match (octRoute s.oct m).filter (fun p => (octPort s p).st == .up) with
  | none => (stTranslation, raiseUnreachable s m did)
  | some p => (peerAnswer s.fresh m a, tickFresh (octRequest s p m did src guarded write a bs n))

/-- Signal a knot of a peer module with ADD (R99, R575, R579). -/
def remoteSignal (s : State) (m k did : Nat) (guarded : Bool) (value : Nat) : State :=
  match octRoute s.oct m with
  | none => raiseUndelivered s m k did guarded
  | some p =>
    if (octPort s p).st ≠ .up then raiseUndelivered s m k did guarded
    else
      let tag := s.oct.nextTag % 65536
      let r : OctReq := { tag := tag, module := m, did := did, kind := .knot k guarded, issued := s.up, src := none }
      octSend { s with oct.nextTag := s.oct.nextTag + 1, oct.requests := s.oct.requests ++ [r] } p
        (octHeader 5 2 (if guarded then 1 else 0) m s.oct.module did 0 0 tag k value) []

/-! ### Device-virtual memory (R423 to R435) -/

/-- Whose access it is: its DID and class, the requester named in error records, the flows it serves, and the work where it may signal. -/
structure Who where
  did : Nat
  guarded : Bool
  kind : Nat
  index : Nat
  flows : List Nat
  src : Option Source := none

/-- Where a translated access goes (R426). -/
inductive Target where
  | localMem (pa : Nat)
  | host (addr : Nat)
  | peer (module addr : Nat)

/-- A run covers a virtual page. -/
def LeafRun.covers (r : LeafRun) (page : Nat) : Bool := decide (r.va ≤ page) && decide (page < r.va + r.pages)

/-- The run that maps a virtual page. -/
def findRun (runs : List LeafRun) (page : Nat) : Option LeafRun := runs.find? (fun r => r.covers page)

/-- Level at which a walk stops on an unmapped page: tables exist where a mapped page shares their index bits (R424). -/
def walkLevel (runs : List LeafRun) (page : Nat) : Nat :=
  let shares := fun sh => runs.any (fun r => decide (r.va >>> sh ≤ page >>> sh) && decide (page >>> sh ≤ (r.va + r.pages - 1) >>> sh))
  if shares 9 then 0 else if shares 20 then 1 else 2

/-- Translate one address: its target, or the fault's status and level (R424, R431). -/
def translate (s : State) (did va : Nat) (write : Bool) : Except (Nat × Nat) Target :=
  let c := Tbl.at Context.reset s.mmu.ctx did
  if va ≥ 2 ^ 48 ∨ !c.enable then .error (stTranslation, 2)
  else match findRun c.runs (va / 65536) with
    | none => .error (stTranslation, walkLevel c.runs (va / 65536))
    | some r =>
      if (if write then r.write else r.read) then
        let a := (r.page + (va / 65536 - r.va)) * 65536 + va % 65536
        if r.target = 0 then .ok (.localMem a)
        else if r.target = 1 then .ok (.host a)
        else .ok (.peer r.module a)
      else .error (stTranslation, if r.large then 1 else 0)

/-! ### Translation caches (R430) -/

/-- Router of a chip unit's requester by its block and instance, as 4 y + x (R39); units that R39 does not place use router 0 (log entry 133). -/
def routerOf (index : Nat) : Nat :=
  match index / 256, index % 256 with
  | 0x03, _ => 14
  | 0x08, _ => 1
  | 0x09, _ => 2
  | 0x0A, _ => 2
  | 0x0B, 0 => 3
  | 0x0B, _ => 15
  | 0x0E, i => if i < 2 then 7 else 11
  | 0x11, _ => 12
  | 0x12, _ => 13
  | 0x16, _ => 14
  | _, _ => 0

/-- The TLB that serves a requester (R430): its core's, or its router's. -/
def tlbOf (w : Who) : Nat :=
  match w.kind with
  | 1 => w.index / 12 % 6
  | 2 => w.index % 6
  | 3 => w.index % 6
  | 4 => 6 + routerOf w.index
  | 6 => 6 + 15
  | 7 => 6 + 7
  | _ => 6

/-- Install an entry; a full TLB gives up one that nothing names. -/
def tlbPut (t : Tlbs) (k size : Nat) (e : TlbEntry) : Tlbs :=
  let l := Tbl.at [] t.held k
  { t with held := t.held.put k (e :: (if size ≤ l.length then l.eraseIdx (Config.tlbVictim t.walks k % size) else l)) }

/-- The caches after a translation of an address: a hit in the requester's TLB, in the shared one, or a walk, which caches nothing where
no leaf maps the address. -/
def tlbsAfter (s : State) (w : Who) (va : Nat) : Tlbs :=
  let t := s.tlb
  let c := Tbl.at Context.reset s.mmu.ctx w.did
  if va ≥ 2 ^ 48 ∨ !c.enable then t
  else match findRun c.runs (va / 65536) with
    | none => { t with walks := t.walks + 1 }
    | some r =>
      let e : TlbEntry := { did := w.did, page := va / 65536 / (if r.large then 512 else 1), large := r.large }
      let own := tlbOf w
      let shared := 32 + Config.tlbSet w.did e.page % 1024
      if (Tbl.at [] t.held own).contains e then t
      else if (Tbl.at [] t.held shared).contains e then tlbPut t own (if own < 6 then 512 else 128) e
      else tlbPut (tlbPut { t with walks := t.walks + 1 } shared 8 e) own (if own < 6 then 512 else 128) e

/-- A translation passes the TLBs. -/
def tlbTouch (s : State) (w : Who) (va : Nat) : State := { s with tlb := tlbsAfter s w va }

/-- Invalidate a range of pages of a context in every TLB (R429 step 2). -/
def tlbDrop (s : State) (did page n : Nat) : State :=
  { s with tlb.held := s.tlb.held.mapV (fun _ l => l.filter (fun e =>
      !(e.did == did && (if e.large then decide (e.page * 512 < page + n) && decide (page < e.page * 512 + 512) else decide (page ≤ e.page) && decide (e.page < page + n))))) }

/-- The lowest-numbered enabled region that contains a physical address (R433). -/
def regionOf (s : State) (pa : Nat) : Option (Nat × Region) :=
  s.mmu.regions.find? (fun p => p.2.enable && decide (p.2.base ≤ pa / 65536) && decide (pa / 65536 ≤ p.2.limit))

/-- The firewall lets a local access pass (R433). -/
def fwAllows (s : State) (did pa : Nat) (write guarded : Bool) : Bool :=
  match regionOf s pa with
  | some (_, r) => ((if write then r.wmask else r.rmask).testBit did) && (!(write && r.guardWrite) || guarded || did == 0)
  | none => decide (did ≤ 1)

/-- Count a denial in the region that denied (MMU_FW_CTRL.denials). -/
def countDenial (s : State) (pa : Nat) : State :=
  match regionOf s pa with
  | some (k, r) => { s with mmu.regions := s.mmu.regions.put k { r with denials := satAdd 16 r.denials 1 } }
  | none => s

/-- Record a fault in MMU_FAULT of the DID and raise its error record (R431). -/
def memFault (s : State) (w : Who) (va : Nat) (write : Bool) (status level : Nat) : State :=
  let f := Tbl.at MmuFault.reset s.mmu.faults w.did
  let f : MmuFault :=
    { status := status, valid := true, write := write, guarded := w.guarded, level := level,
      count := satAdd 16 f.count 1, va := va }
  let s := { s with mmu.faults := s.mmu.faults.put w.did f }
  raise s { reportOf s (sevOf w.guarded) w.kind w.index status with
    status := status, guarded := w.guarded, flows := w.flows, did := w.did, detail2 := va / 65536 % 2 ^ 32 }

/-- Memory controller of a physical address (R415). -/
def mcOf (pa : Nat) : Nat := (bitsOf pa 8 3) ^^^ (bitsOf pa 17 3) ^^^ (bitsOf pa 26 3)

/-- The ways of a set in which a transaction may allocate, where `g` ways are reserved (R421). -/
def ownWays (g : Nat) (guarded : Bool) : List Nat :=
  (List.range 16).filter (fun w => g == 0 || (if guarded then decide (w < g) else decide (g ≤ w)))

/-- One line passes its slice: a hit in any way, or the least recently used of the transaction's own ways takes it (R421). -/
def cacheLine (own : List Nat) (write : Bool) (t : Tbl (List CacheLine)) (line : Nat) : Tbl (List CacheLine) :=
  let k := 4096 * mcOf (line * 64) + Config.cacheSet line % 4096
  let l := Tbl.at [] t k
  match l.find? (fun x => x.line == line) with
  | some x => t.put k ({ x with dirty := x.dirty || write } :: l.filter (fun y => y.line != line))
  | none =>
    match (own.find? (fun w => !l.any (fun x => x.way == w))).orElse (fun _ => (l.reverse.find? (fun x => own.contains x.way)).map (·.way)) with
    | some w => t.put k ({ way := w, line := line, dirty := write } :: l.filter (fun y => y.way != w))
    | none => t

/-- The lines of an access to local DRAM pass the system cache (R421). -/
def cacheTouch (s : State) (did : Nat) (guarded write : Bool) (pa n : Nat) : State :=
  let own := ownWays s.mmu.guardedWays (guarded || did == 0)
  let lines := (List.range ((pa + n + 63) / 64 - pa / 64)).map (· + pa / 64)
  { s with tlb.lines := lines.foldl (cacheLine own write) s.tlb.lines }

/-- Table level of the leaf that maps an address, at which a walk stops (R424, MMU_FAULT_INFO). -/
def leafLevel (s : State) (did va : Nat) : Nat :=
  match findRun (Tbl.at Context.reset s.mmu.ctx did).runs (va / 65536) with
  | some r => if r.large then 1 else 0
  | none => 0

/-- Severity of an uncorrectable line (R418). -/
def ueSeverity (s : State) (pa : Nat) (guarded : Bool) : Nat :=
  match regionOf s pa with
  | some (_, r) => if r.guardWrite || guarded then sevDoubt else sevWarn
  | none => sevOf guarded

/-- The error record of an uncorrectable or poisoned line (R418, R464). -/
def raiseUe (s : State) (pa : Nat) (guarded : Bool) (did : Nat) (flows : List Nat) : State :=
  raise s { reportOf s (ueSeverity s pa guarded) 9 (mcOf pa) stInternal with
    status := stInternal, guarded := guarded, did := did, flows := flows, detail2 := pa / 65536 }

/-- Insert a line in the rising list of poisoned lines. -/
def insertLine : List Nat → Nat → List Nat
  | [], l => [l]
  | k :: ks, l => if l = k then k :: ks else if l < k then l :: k :: ks else k :: insertLine ks l

/-- A first poisoned line among the lines that `n` bytes from `pa` touch. -/
def poisonedIn (s : State) (pa n : Nat) : Option Nat :=
  s.mmu.poison.find? (fun l => decide (pa / 64 ≤ l) && decide (l ≤ (pa + n - 1) / 64))

/-- Bytes of the host or of a peer: free values. -/
def extBytes (f : Nat → Byte) (a : Nat) : Nat → List Byte
  | 0 => []
  | n + 1 => f a :: extBytes f (a + 1) n

/-- A host access fails: on PCIe, or because a function that was reset issues no request (R52, R426). -/
def hostDown (s : State) (did a : Nat) : Bool :=
  Config.hostFails s.fresh a || Tbl.at false s.hif.quiet (did - 2)

/-- One access inside a 64 KiB page: read `n` bytes. Answers status, bytes and state. -/
def readSeg (s : State) (w : Who) (va n : Nat) : Nat × List Byte × State :=
  let s := tlbTouch s w va
  match translate s w.did va false with
  | .error (st, lv) => (st, [], memFault s w va false st lv)
  | .ok (.localMem pa) =>
    if !fwAllows s w.did pa false w.guarded then
      (stFirewall, [], memFault (countDenial s pa) w va false stFirewall (leafLevel s w.did va))
    else
      let s := cacheTouch s w.did w.guarded false pa n
      match poisonedIn s pa n with
      | some l => (stInternal, [], raiseUe s (l * 64) w.guarded w.did w.flows)
      | none => (stOk, Memory.reads s.mem (Space.key .dram pa) n, s)
  | .ok (.host a) =>
    if hostDown s w.did a then (stTranslation, [], memFault (tickFresh s) w va false stTranslation (leafLevel s w.did va))
    else (stOk, extBytes (Config.hostByte s.fresh) a n, emit (tickFresh s) (.hostRead w.did a n))
  | .ok (.peer m a) =>
    let r := octAccess s m w.did w.src w.guarded false a [] n
    if r.1 = stOk then (stOk, extBytes (Config.peerByte s.fresh m) a n, r.2) else (r.1, [], memFault r.2 w va false r.1 (leafLevel s w.did va))

/-- A write clears the poison of every line it covers whole (R418). -/
def clearPoison (s : State) (pa n : Nat) : State :=
  { s with mmu.poison := s.mmu.poison.filter (fun l => !(decide (pa ≤ l * 64) && decide (l * 64 + 64 ≤ pa + n))) }

/-- Write bytes of local DRAM at a physical address (R417, R418). -/
def dramWrite (s : State) (pa : Nat) (bs : List Byte) : State :=
  clearPoison { s with mem := Memory.writes s.mem (Space.key .dram pa) bs } pa bs.length

/-- One access inside a 64 KiB page: write bytes. -/
def writeSeg (s : State) (w : Who) (va : Nat) (bs : List Byte) : Nat × State :=
  let s := tlbTouch s w va
  match translate s w.did va true with
  | .error (st, lv) => (st, memFault s w va true st lv)
  | .ok (.localMem pa) =>
    if !fwAllows s w.did pa true w.guarded then
      (stFirewall, memFault (countDenial s pa) w va true stFirewall (leafLevel s w.did va))
    else (stOk, dramWrite (cacheTouch s w.did w.guarded true pa bs.length) pa bs)
  | .ok (.host a) =>
    if Tbl.at false s.hif.quiet (w.did - 2) then (stTranslation, memFault s w va true stTranslation (leafLevel s w.did va))
    else (stOk, emit s (.hostWrite w.did a bs))
  | .ok (.peer m a) =>
    let r := octAccess s m w.did w.src w.guarded true a bs bs.length
    if r.1 = stOk then (stOk, r.2) else (r.1, memFault r.2 w va true r.1 (leafLevel s w.did va))

/-- Read `n` bytes at a device-virtual address, page by page; the first failing page ends the read. -/
def devReadGo (w : Who) : Nat → State → Nat → Nat → Nat × List Byte × State
  | 0, s, _, _ => (stOk, [], s)
  | fuel + 1, s, va, n =>
    if n = 0 then (stOk, [], s) else
    let len := min n (65536 - va % 65536)
    match readSeg s w va len with
    | (st, bs, s) =>
      if st ≠ stOk then (st, [], s) else
      match devReadGo w fuel s (va + len) (n - len) with
      | (st, bs', s) => (st, bs ++ bs', s)

/-- Read at a device-virtual address (R423 to R433). -/
def devRead (s : State) (w : Who) (va n : Nat) : Nat × List Byte × State :=
  devReadGo w (n / 65536 + 2) s va n

/-- Write page by page; the first failing page ends the write. -/
def devWriteGo (w : Who) : Nat → State → Nat → List Byte → Nat × State
  | 0, s, _, _ => (stOk, s)
  | fuel + 1, s, va, bs =>
    if bs.isEmpty then (stOk, s) else
    let len := min bs.length (65536 - va % 65536)
    match writeSeg s w va (bs.take len) with
    | (st, s) => if st ≠ stOk then (st, s) else devWriteGo w fuel s (va + len) (bs.drop len)

/-- Write at a device-virtual address (R423 to R433). -/
def devWrite (s : State) (w : Who) (va : Nat) (bs : List Byte) : Nat × State :=
  devWriteGo w (bs.length / 65536 + 2) s va bs

/-! ### MSI-X (R80, R508) -/

/-- Function of a device-wide vector (R508). -/
def vectorFn (v : Nat) : Nat := if v < 384 then 0 else 1 + (v - 384) / 128

/-- Send the message of a vector, or set its PBA bit where it is masked or MSI-X is not enabled. -/
def msixSend (s : State) (v : Nat) : State :=
  let m := Tbl.at Msix.reset s.hif.msix v
  if m.masked || !(Tbl.at false s.hif.msixEn (vectorFn v)) then
    { s with hif.msix := s.hif.msix.put v { m with pba := true, held := false } }
  else
    emit { s with hif.msix := s.hif.msix.put v { m with pba := false, held := false, lastSent := some s.up } } (.msix v)

/-- A request of a vector under its moderation interval (R508). -/
def msixRequest (s : State) (v : Nat) : State :=
  let m := Tbl.at Msix.reset s.hif.msix v
  let recent := match m.lastSent with
    | none => false
    | some t => decide (s.up < t + m.mod * 1000)
  if m.mod = 0 ∨ !recent then msixSend s v
  else { s with hif.msix := s.hif.msix.put v { m with held := true } }

/-! ### Rings and completion records (R56 to R77) -/

/-- The block of rings (base, count) of a function. -/
def ringBlock (s : State) (com : Bool) (fn : Nat) : Nat × Nat :=
  Tbl.at (0, 0) (if com then s.hif.cRings else s.hif.sRings) fn

/-- The function through whose register window a DID works: VFs their own, DIDs 0 to 2 the PF. -/
def fnOfDid (did : Nat) : Nat := did - 2

/-- Device-wide number of ring `n` of a function (R56). -/
def ringNo (s : State) (com : Bool) (fn n : Nat) : Option Nat :=
  if n < (ringBlock s com fn).2 then some ((ringBlock s com fn).1 + n) else none

/-- The function that holds a device-wide ring. -/
def ringFn (s : State) (com : Bool) (r : Nat) : Option Nat :=
  (List.range fnCount).find? (fun fn => decide ((ringBlock s com fn).1 ≤ r) && decide (r < (ringBlock s com fn).1 + (ringBlock s com fn).2))

def subRing (s : State) (r : Nat) : Ring := Tbl.at Ring.reset s.hif.sub r
def comRing (s : State) (r : Nat) : Ring := Tbl.at Ring.reset s.hif.com r
def setSub (s : State) (r : Nat) (x : Ring) : State := { s with hif.sub := s.hif.sub.put r x }
def setCom (s : State) (r : Nat) (x : Ring) : State := { s with hif.com := s.hif.com.put r x }

/-- Entries of a ring (R57). -/
def Ring.entries (r : Ring) : Nat := 2 ^ r.sizeLog2

/-- Free space of a completion ring (R71). -/
def Ring.space (r : Ring) : Nat := r.entries - (r.tail - r.head).toNat - r.reserved

/-- The completion ring, device-wide, that a submission ring is bound to. -/
def boundCom (s : State) (r : Nat) : Option Nat := do
  let fn ← ringFn s false r
  ringNo s true fn (subRing s r).cring

/-- Ring number within its function, as records carry it (R72; log entry 5). -/
def localNo (s : State) (com : Bool) (r : Nat) : Nat :=
  match ringFn s com r with
  | some fn => r - (ringBlock s com fn).1
  | none => r

/-- The DID of a ring's function (R51). -/
def ringDid (s : State) (com : Bool) (r : Nat) : Nat :=
  match ringFn s com r with
  | some fn => fn + 2
  | none => 2

/-- Coding of HIF_RING_STATUS.state. -/
def RingState.code : RingState → Nat
  | .idle => 0 | .running => 1 | .stopped => 2 | .error => 3

/-- The 32 bytes of a record (R72). -/
def Rec.bytes (r : Rec) (phase : Bool) : List Byte :=
  leBytes 8 r.w0 ++ leBytes 8 r.w1 ++ leBytes 8 r.w2 ++ leBytes 4 r.age
    ++ leBytes 2 (r.num % 4096 + r.kind * 4096 + (if phase then 32768 else 0))
    ++ [BitVec.ofNat 8 r.status, BitVec.ofNat 8 r.flags]

/-- Bytes 8 to 15 of a doorbell record (R61). -/
def devBytes (idx : W32) (st : RingState) : List Byte :=
  leBytes 4 idx.toNat ++ [BitVec.ofNat 8 st.code, 0]
    ++ leBytes 2 ((bitsOf idx.toNat 0 16) ^^^ (bitsOf idx.toNat 16 16) ^^^ st.code ^^^ 0xFFFF)

/-- Write the device's half of a ring's doorbell record. -/
def writeDev (s : State) (com : Bool) (r : Nat) : State :=
  let x := if com then comRing s r else subRing s r
  emit s (.hostWrite (ringDid s com r) (x.db.toNat + 8) (devBytes (if com then x.tail else x.head) x.st))

/-- Write one record at the tail of a completion ring (R73, R74). -/
def putRec (s : State) (c : Nat) (r : Rec) : State :=
  let x := comRing s c
  let i := x.tail.toNat
  let s := emit s (.hostWrite (ringDid s true c) (x.base.toNat + 32 * (i % x.entries))
    (r.bytes (i / x.entries % 2 == 0)))
  setCom s c { x with tail := x.tail + 1 }

/-- Device-wide number of the vector of a completion ring. -/
def ringVector (s : State) (c : Nat) : Nat :=
  match ringFn s true c with
  | some 0 => (comRing s c).vector
  | some fn => 384 + 128 * (fn - 1) + (comRing s c).vector
  | none => (comRing s c).vector

/-- After the records of a cycle: the dev_index update, then the MSI-X request (R74, R80). -/
def announce (s : State) (c : Nat) : State :=
  let s := writeDev s true c
  if (comRing s c).intEn then msixRequest s (ringVector s c) else s

/-- Insert a ring event in ascending submission ring number. -/
def insertEvent : List RingEvent → RingEvent → List RingEvent
  | [], e => [e]
  | x :: xs, e => if e.ring < x.ring then e :: x :: xs else x :: insertEvent xs e

/-- The record of a ring event (R72). -/
def eventRec (s : State) (e : RingEvent) : Rec :=
  { w0 := e.detail, w1 := s.now, w2 := e.code, age := 0, num := e.ring, kind := 2, status := e.status, flags := 0 }

/-- The record of a flow result (R72). -/
def flowRec (s : State) (f : FlowRec) : Rec :=
  { w0 := f.tov, w1 := s.now, w2 := f.epoch, age := f.age, num := f.flow, kind := 0, status := f.status, flags := f.flags }

/-- The report FLOW_RECORD_LOST (R76, R77). -/
def raiseLost (s : State) (flow c : Nat) : State :=
  raise s { reportOf s sevWarn 6 flow 0x0111 with flows := [flow], detail := c }

/-- Records or an event of drops wait for space, and what comes after them waits too (R76). -/
def Ring.backed (r : Ring) : Bool := !r.held.isEmpty || !r.heldEvents.isEmpty || r.sinceEvent != 0 || r.downDrops != 0

/-- A flow result that is ready: written, held for want of space, or dropped and counted (R76, R77). DESIGN CHOICE (log 124): a ring that was
never RUNNING also reports its first drop. -/
def putFlow (s : State) (c : Nat) (f : FlowRec) : State :=
  let x := comRing s c
  if x.st ≠ .running then
    let s' := setCom s c { x with dropped := satAdd 32 x.dropped 1, downDrops := x.downDrops + 1, lostReported := true }
    if x.lostReported then s' else raiseLost s' f.flow c
  else if !x.backed ∧ x.space ≠ 0 then putRec s c (flowRec s f)
  else if x.held.length < 8 then
    setCom s c { x with held := x.held ++ [f], nextDue := some (x.nextDue.getD (s.up + s.hif.pollMin * 1000)) }
  else raiseLost (setCom s c { x with dropped := satAdd 32 x.dropped 1, sinceEvent := x.sinceEvent + 1 }) f.flow c

/-- A ring event that is ready: written to a RUNNING completion ring, or held for want of space (R60, R63, R76). -/
def putEvent (s : State) (c : Nat) (e : RingEvent) : State :=
  let x := comRing s c
  if x.st ≠ .running then s
  else if !x.backed ∧ x.space ≠ 0 then putRec s c (eventRec s e)
  else setCom s c { x with heldEvents := insertEvent x.heldEvents e }

/-- A descriptor's completion that is ready: its reservation ends as its record is written or suppressed (R71). -/
def putDesc (s : State) (c : Nat) (r : Option Rec) : State :=
  let x := comRing s c
  let s := setCom s c { x with reserved := x.reserved - 1 }
  match r with
  | some r => if x.st = .running then putRec s c r else s
  | none => s

/-- Write held ring events, then held flow results, then the events that count drops, while entries are free (R76, R77). The status byte
of FLOW_RECORDS_DROPPED is 0 (log 124). -/
def flushGo (c : Nat) : Nat → State → State
  | 0, s => s
  | fuel + 1, s =>
    let x := comRing s c
    let dropsRec := fun n => eventRec s { code := 1, ring := localNo s true c, status := 0, detail := n }
    if x.space = 0 then s else
    match x.heldEvents, x.held with
    | e :: es, _ => flushGo c fuel (putRec (setCom s c { x with heldEvents := es }) c (eventRec s e))
    | [], f :: fs => flushGo c fuel (putRec (setCom s c { x with held := fs }) c (flowRec s f))
    | [], [] =>
      if x.downDrops ≠ 0 then flushGo c fuel (putRec (setCom s c { x with downDrops := 0 }) c (dropsRec x.downDrops))
      else if x.sinceEvent ≠ 0 then putRec (setCom s c { x with sinceEvent := 0 }) c (dropsRec x.sinceEvent)
      else s

/-- What R76 writes when space returns. -/
def flushHeld (s : State) (c : Nat) : State :=
  let x := comRing s c
  if x.st ≠ .running ∨ !x.backed then s else flushGo c (x.heldEvents.length + x.held.length + 2) s

/-- The ring that something ready is for. -/
def Ready.com : Ready → Nat
  | .flow c _ | .desc c _ _ _ | .event c _ => c

/-- The order of R75: flow results by flow, descriptor completions by ring and index, then ring events by ring. -/
def Ready.rank : Ready → Nat × Nat × Nat
  | .flow _ f => (0, f.flow, 0)
  | .desc _ r i _ => (1, r, i.toNat)
  | .event _ e => (2, e.ring, 0)

def Ready.before (a b : Ready) : Bool :=
  decide (a.rank.1 < b.rank.1) || (a.rank.1 == b.rank.1 &&
    (decide (a.rank.2.1 < b.rank.2.1) || (a.rank.2.1 == b.rank.2.1 && decide (a.rank.2.2 < b.rank.2.2))))

/-- Insert in the order of R75, behind what ranks equal. -/
def insertReady : List Ready → Ready → List Ready
  | [], a => [a]
  | x :: xs, a => if a.before x then a :: x :: xs else x :: insertReady xs a

/-- Write, hold or drop one thing that is ready. -/
def putReady (s : State) : Ready → State
  | .flow c f => putFlow s c f
  | .desc c _ _ r => putDesc s c r
  | .event c e => putEvent s c e

/-- After a cycle's records of a ring: what space now allows, then the one dev_index update and request where a record was written since
`before` (R74, R76, R80). -/
def closeRing (before : State) (s : State) (c : Nat) : State :=
  let s := flushHeld s c
  if (comRing s c).tail = (comRing before c).tail then s else announce s c

/-- What became ready in one FAB cycle, in the order of R75, with one dev_index update for each ring (R74, R80). -/
def deliverReady (s : State) (l : List Ready) : State :=
  let t := (l.foldl insertReady []).foldl putReady s
  (l.map Ready.com).eraseDups.foldl (closeRing s) t

/-- Something becomes ready: delivered now, or with the rest of the cycle that is being gathered. -/
def ready (s : State) (x : Ready) : State :=
  match s.hif.batch with
  | some l => { s with hif.batch := some (l ++ [x]) }
  | none => deliverReady s [x]

/-- A ring event reaches a completion ring (R63, R76). -/
def ringEvent (s : State) (c : Nat) (e : RingEvent) : State := ready s (.event c e)

/-- A flow result reaches its completion ring (R76, R77). -/
def flowToRing (s : State) (c : Nat) (f : FlowRec) : State := ready s (.flow c f)

/-- Descriptors of a ring in flight. -/
def flightsOf (s : State) (r : Nat) : List Flight := s.hif.flights.filter (fun f => f.ring == r)

/-- A ring error: ERROR, the ring event and the WARN record (R63). -/
def ringError (s : State) (com : Bool) (r status : Nat) : State :=
  let x := if com then comRing s r else subRing s r
  let y := { x with st := .error, lastEvent := status, nextDue := none, pollIssued := none, stopping := false }
  let s := if com then setCom s r y else setSub s r y
  let s := if com then s else match boundCom s r with
    | some c => ringEvent s c { code := 2, ring := localNo s false r, status := status, detail := 0 }
    | none => s
  raise s { reportOf s sevWarn 4 0x0400 status with status := status, did := ringDid s com r }

/-- The function of a ring may issue requests: its Bus Master Enable is set (R63). -/
def ringMayRead (s : State) (com : Bool) (r : Nat) : Bool :=
  match ringFn s com r with
  | some fn => Tbl.at false s.hif.busMaster fn
  | none => false

/-- Issue the fetch of one descriptor: reserve an entry, advance the head (R71). -/
def fetchOne (s : State) (r c : Nat) : State :=
  let x := subRing s r
  let s := emit s (.hostRead (ringDid s false r) (x.base.toNat + 64 * (x.head.toNat % x.entries)) 64)
  let f : Flight :=
    { ring := r, index := x.head, arrived := false, raw := 0, fenced := false, wait := .free, satisfied := false, started := false }
  let s := { s with hif.flights := s.hif.flights ++ [f] }
  let s := setSub s r { x with head := x.head + 1 }
  setCom s c { comRing s c with reserved := (comRing s c).reserved + 1 }

/-- Fetch while work, in-flight places and completion entries last (R71); a read that cannot be issued is a ring error (R63). -/
def fetchGo (r c : Nat) : Nat → State → State
  | 0, s => s
  | fuel + 1, s =>
    let x := subRing s r
    if x.st = .running ∧ !x.stopping ∧ x.head ≠ x.tail ∧ (flightsOf s r).length < 256 ∧ (comRing s c).space ≠ 0 then
      if ringMayRead s false r then fetchGo r c fuel (fetchOne s r c) else ringError s false r stTranslation
    else s

/-- Fetch what a submission ring may fetch now. -/
def fetchRing (s : State) (r : Nat) : State :=
  match boundCom s r with
  | some c => fetchGo r c 256 s
  | none => s

/-- Fetching resumes on every RUNNING submission ring with work, in ascending ring number (R71). -/
def pumpFetch (s : State) : State := if s.hif.batch.isSome then s else s.hif.sub.keys.foldl fetchRing s

/-! ### Knots (R91 to R98) -/

def knotOf (s : State) (k : Nat) : Knot := Tbl.at Knot.reset s.knots.knots k

/-- The comparison of R92: serial numbers. -/
def knotPassed (value wait : W32) : Bool := decide ((value - wait).toNat < 2 ^ 31)

/-- A call's descriptor waits on a knot that the value satisfies now. -/
def CallSlot.passes (c : CallSlot) (k : Nat) (v : W32) : Bool :=
  c.wait == .registered && dWaitKnot ⟨.internal, 0, c.raw⟩ == k && knotPassed v (dWaitValue ⟨.internal, 0, c.raw⟩)

/-- The waits on a knot evaluated against its present value (R92). -/
def evalWaits (s : State) (k : Nat) : State :=
  let v := (knotOf s k).value
  let passes := fun (raw : BitVec 512) => dWaitKnot ⟨.internal, 0, raw⟩ = k ∧ knotPassed v (dWaitValue ⟨.internal, 0, raw⟩)
  let fl := s.hif.flights.map (fun f => if f.wait = .registered ∧ passes f.raw then { f with satisfied := true } else f)
  let iw := s.knots.inner.map (fun w => if w.wait = .registered ∧ passes w.raw then { w with satisfied := true } else w)
  let th := s.eng.threads.mapV (fun _ x => if x.calls.any (·.passes k v)
    then { x with calls := x.calls.map (fun c => if c.passes k v then { c with satisfied := true } else c) } else x)
  let tw := s.eng.waits.mapV (fun _ w => if w.knot = k ∧ knotPassed v w.value then { w with satisfied := true } else w)
  { s with hif.flights := fl, knots.inner := iw, eng.threads := th, eng.waits := tw }

/-- Set the value of a knot and evaluate its waits. -/
def setKnot (s : State) (k : Nat) (v : W32) : State :=
  evalWaits { s with knots.knots := s.knots.knots.put k { knotOf s k with value := v } } k

/-- The knot of a cadence takes a value and the CADENCE state, which DID 1 owns (R95, R100, R122); `heal`: a POISONED knot leaves that state, as it
does at a close (R97). -/
def setCadenceKnot (s : State) (heal : Bool) (c : Nat) (v : W32) : State :=
  let k := knotOf s c
  let k : Knot := { k with st := if k.st == .poisoned && !heal then .poisoned else .cadence, owner := 1 }
  setKnot { s with knots.knots := s.knots.knots.put c k } c v

/-- Rank of a SET among those of one cycle: precedence of R9, then engine, unit or ring, then index (R92). -/
def Signal.outranks (a b : Signal) : Bool :=
  decide (a.did < b.did) || (a.did == b.did && (decide (a.unit < b.unit) || (a.unit == b.unit && decide (a.index < b.index))))

/-- The SET that stands among signals to one knot: the first of highest rank (R92). -/
def bestSet : List Signal → Option Signal
  | [] => none
  | x :: xs => match bestSet xs with
    | none => if x.set then some x else none
    | some y => if x.set && !y.outranks x then some x else some y

/-- The signals of one cycle reach one knot: the SET that stands, then the sum of the ADDs; the waits see the value at the end (R92). A
POISONED knot drops them (R97). -/
def cycleKnot (l : List Signal) (s : State) (k : Nat) : State :=
  let mine := l.filter (fun x => x.knot == k)
  if (knotOf s k).st = .poisoned then s else
  let base := match bestSet mine with
    | some x => x.value
    | none => (knotOf s k).value
  setKnot s k (mine.foldl (fun v x => if x.set then v else v + x.value) base)

/-- The signals of one cycle are applied (R92). -/
def applyCycle (s : State) (l : List Signal) : State := (l.map (·.knot)).eraseDups.foldl (cycleKnot l) s

/-- An accepted signal: applied now, or with the other signals of a cycle that is being gathered (R92). -/
def applySignal (s : State) (x : Signal) : State :=
  match s.knots.cycle with
  | some l => { s with knots.cycle := some (l ++ [x]) }
  | none => applyCycle s [x]

/-- Run effects that fall in one FAB cycle: their signals act together at its end (R92), their records share one update of each ring (R74,
R75), and fetching resumes after them. Inside such a run it only runs the effects. -/
def together (s : State) (f : State → State) : State :=
  if s.hif.batch.isSome then f s else
  let t := f { s with hif.batch := some [], knots.cycle := some [] }
  let t := applyCycle { t with knots.cycle := none } (t.knots.cycle.getD [])
  pumpFetch (deliverReady { t with hif.batch := none } (t.hif.batch.getD []))

/-- Why a knot refuses a signal: status of the check that fails, 0 where it accepts (R94, R95). -/
def signalCheck (s : State) (did : Nat) (guarded : Bool) (k : Nat) : Nat :=
  let n := knotOf s k
  if n.guarded && !guarded then stDescInvalid
  else if k < 32 then stNotAuth
  else if did ≤ 1 ∨ (n.st ≠ .free ∧ did = n.owner) ∨ n.mask.testBit did then stOk
  else stNotAuth

/-- A signal from a queue link or a thread: applied, or dropped with a WARN record (R94, R95). -/
def signalOrDrop (s : State) (did : Nat) (guarded : Bool) (k : Nat) (set : Bool) (v : W32) (kind index : Nat) : State :=
  if signalCheck s did guarded k = stOk then applySignal s { knot := k, set := set, value := v, did := did, unit := index, index := 0 }
  else raise s { reportOf s sevWarn kind index (signalCheck s did guarded k) with
    status := signalCheck s did guarded k, guarded := guarded, did := did }

/-- A remote write of a piece of work is unacknowledged; `m`: to this module only (R98, R99). -/
def writesOpen (s : State) (src : Source) (m : Option Nat) : Bool :=
  s.oct.requests.any (fun r => r.src == some src && r.kind == .write && m.all (· == r.module))

/-- A signal leaves: to a knot of this module or of a peer. -/
def sendSignal (s : State) (h : HeldSignal) : State :=
  match h.module with
  | some m => remoteSignal s m h.sig.knot h.sig.did h.guarded h.sig.value.toNat
  | none =>
    if signalCheck s h.sig.did h.guarded h.sig.knot = stOk then applySignal s h.sig
    else signalOrDrop s h.sig.did h.guarded h.sig.knot h.sig.set h.sig.value h.kind h.index

/-- Signal after the writes of the work: at once, or when its remote writes have been acknowledged (R98, R99). -/
def gateSignal (s : State) (h : HeldSignal) : State :=
  if writesOpen s h.src h.module || s.oct.held.any (fun x => x.src == h.src) then { s with oct.held := s.oct.held ++ [h] } else sendSignal s h

/-- Held signals whose writes are all acknowledged leave, in issue order. -/
def dueHeld (s : State) : State :=
  s.oct.held.foldl (fun s h => gateSignal s h) { s with oct.held := [] }

/-! ### The run of a descriptor (R70, R72) -/

/-- Class of the work a descriptor carries: work of a host function's ring is never guarded (R94). -/
def workGuarded (d : Desc) : Bool :=
  dGuarded d && match d.src with
    | .ring _ _ => decide (d.did ≤ 1)
    | _ => true

/-- Header part of checks 2 and 3 of R70 for the waits and signals of a header (R94, R95). -/
def headerKnots (s : State) (d : Desc) : Nat :=
  if dGuarded d && dWaitEn d && decide (32 ≤ dWaitKnot d) && !(knotOf s (dWaitKnot d)).guarded then stDescInvalid
  else if dSignalEn d then signalCheck s d.did (workGuarded d) (dSignalKnot d)
  else stOk

/-- The flight of a ring descriptor. -/
def flightOf (s : State) (r : Nat) (i : W32) : Option Flight :=
  s.hif.flights.find? (fun f => f.ring == r && f.index == i)

/-- An earlier descriptor of the ring has not written its record (R66 fence). -/
def fenceHolds (s : State) (f : Flight) : Bool :=
  f.fenced && s.hif.flights.any (fun g => g.ring == f.ring && decide ((f.index - g.index).toNat < 2 ^ 31) && g.index != f.index)

/-- The instance of a calling thread carries a DID (R299). -/
def callerIs (s : State) (t did : Nat) : Bool :=
  match (Tbl.at Thread.reset s.eng.threads t).inst.bind s.eng.instances.find with
  | some i => i.did == did
  | none => false

/-- The work that issues a descriptor may be guarded: a call by the class of its thread's instance (R299). -/
def callerGuarded (s : State) (d : Desc) : Bool :=
  match d.src with
  | .call t _ =>
    match (Tbl.at Thread.reset s.eng.threads t).inst.bind s.eng.instances.find with
    | some i => i.guarded
    | none => false
  | _ => true

/-- An earlier descriptor of the ring is still to be dispatched: it has not arrived, or it waits for nothing and has not started. One that waits
on its knot or its fence holds only itself (R71; log entry 125). -/
def dispatchHolds (s : State) (f : Flight) : Bool :=
  s.hif.flights.any (fun g => g.ring == f.ring && g.index != f.index && decide ((f.index - g.index).toNat < 2 ^ 31)
    && (!g.arrived || (!g.started && g.wait == .free && !fenceHolds s g)))

/-- A descriptor may start: a ring's descriptor is in flight with these bytes and under its ring's DID, and is not
held by its fence or wait (R66, R71); a call is in its slot. -/
def mayStart (s : State) (d : Desc) : Bool :=
  match d.src with
  | .ring r i => match flightOf s r i with
    | some f => f.arrived && !f.started && f.raw == d.raw && ringDid s false r == d.did && f.wait == .free && !fenceHolds s f && !dispatchHolds s f
    | none => false
  | .call t slot =>
    (Tbl.at Thread.reset s.eng.threads t).calls.any (fun c => c.slot == slot && c.raw == d.raw && c.done == none && c.arrived && c.wait == .free)
      && callerIs s t d.did
  | .internal => decide (d.did ≤ 1) && (!dWaitEn d || s.knots.inner.any (fun w => w.did == d.did && w.raw == d.raw && w.wait == .free))
  | .ended => false

/-- What ranks a descriptor among signals of one cycle (R92): its ring and index, or the engine of the calling thread. -/
def srcRank : Source → Nat × Nat
  | .ring r i => (r, i.toNat)
  | .call t _ => (t / 64, 0)
  | .internal | .ended => (0, 0)

/-- The signal of a descriptor to a knot. -/
def descSignal (d : Desc) (k : Nat) (set : Bool) (v : W32) : Signal :=
  { knot := k, set := set, value := v, did := d.did, unit := (srcRank d.src).1, index := (srcRank d.src).2 }

/-- The header signal after the record (R66, R97): dropped where the knot does not accept it. -/
def headerSignal (s : State) (d : Desc) : State :=
  if dSignalEn d ∧ signalCheck s d.did (workGuarded d) (dSignalKnot d) = stOk then
    gateSignal s { src := d.src, sig := descSignal d (dSignalKnot d) false 1, module := none, guarded := workGuarded d, kind := 8, index := dSignalKnot d }
  else s

/-- Remove a descriptor from flight (R71). -/
def dropFlight (s : State) (r : Nat) (i : W32) : State :=
  { s with hif.flights := s.hif.flights.filter (fun f => !(f.ring == r && f.index == i)) }

/-- A waiting descriptor of firmware leaves the knot unit. -/
def leaveInner (s : State) (d : Desc) : State :=
  if dWaitEn d then { s with knots.inner := s.knots.inner.filter (fun w => !(w.did == d.did && w.raw == d.raw)) } else s

/-- The record of a descriptor completion (R72). -/
def descRec (s : State) (d : Desc) (ringNum index status result detail flags : Nat) : Rec :=
  { w0 := result, w1 := s.now, w2 := dTag d + index * 2 ^ 32, age := detail, num := ringNum, kind := 1,
    status := status, flags := flags }

/-- Complete a descriptor: its record, then its signal; then fetching resumes (R66, R70 to R75). -/
def finishDesc (s : State) (d : Desc) (status result detail flags : Nat) : State :=
  match d.src with
  | .ring r i =>
    if flightOf s r i = none then s else
    let s := dropFlight s r i
    let s := match boundCom s r with
      | some c => ready s (.desc c r i
          (if dQuiet d && status == stOk then none else some (descRec s d (localNo s false r) i.toNat status result detail flags)))
      | none => s
    pumpFetch (headerSignal s d)
  | .ended => s
  | .call t slot =>
    let th := Tbl.at Thread.reset s.eng.threads t
    { s with eng.threads := s.eng.threads.put t { th with
        calls := th.calls.map (fun c => if c.slot = slot ∧ c.done = none then { c with done := some (status, result, detail, flags) } else c) } }
  | .internal => headerSignal (leaveInner s d) d

/-- What a descriptor's own checks and execution answer. -/
inductive Answer where
  /-- Complete now with status, result, detail and flags. -/
  | done (status result detail flags : Nat) (s : State)
  /-- The unit works on; an event completes the descriptor. -/
  | later (s : State)

/-- Complete with OK and a result. -/
def okWith (s : State) (result : Nat) : Answer := .done stOk result 0 0 s

/-- Complete with an error status and nothing else. -/
def failWith (s : State) (status : Nat) : Answer := .done status 0 0 0 s

/-- What R70 needs to know of an operation: its named body fields, the class of the object it names (none: no
object), whether it would configure, change or delete that object, whether only the safety configuration image may do so where the object
is guarded (R25), and whether the issuer has the authority. -/
structure OpInfo where
  fields : List BodyField
  cls : Option Bool := none
  configures : Bool := false
  imageOnly : Bool := false
  authority : Bool := true

/-- Checks 1 to 3 of R70: status of the first that fails, 0 where all pass. -/
def descChecks (s : State) (d : Desc) (o : OpInfo) : Nat :=
  if !(headerOk d && bodyOk o.fields d) then stDescInvalid
  else if dGuarded d && !callerGuarded s d then stDescInvalid
  else if o.cls = some true ∧ !dGuarded d ∧ o.configures then stNotAuth
  else if o.cls ≠ some (dGuarded d) ∧ (o.cls ≠ none ∨ dGuarded d) then stDescInvalid
  else if headerKnots s d = stDescInvalid then stDescInvalid
  else if (o.cls = some true ∧ o.imageOnly) ∨ !o.authority then stNotAuth
  else headerKnots s d

/-- A configuration operation executes: the configuration that an acq_start of this cycle takes is the one before it (R28). -/
def noteChange (s : State) : State :=
  { s with cfgPrev := if s.changedAt = some s.up then s.cfgPrev else s.cfg, changedAt := some s.up }

/-- Mark a descriptor as started. -/
def markStarted (s : State) (d : Desc) : State :=
  let s := noteChange s
  match d.src with
  | .ring r i => { s with hif.flights := s.hif.flights.map (fun f => if f.ring = r ∧ f.index = i then { f with started := true } else f) }
  | .internal => leaveInner s d
  | _ => s

/-- Descriptor waits registered, of rings, calls and firmware (R96, KNT_STATUS.used). -/
def waitsUsed (s : State) : Nat :=
  (s.hif.flights.filter (fun f => f.wait == .registered)).length + (s.knots.inner.filter (fun w => w.wait == .registered)).length
    + ((s.eng.threads.map (fun p => (p.2.calls.filter (fun c => c.wait == .registered)).length)).foldl (· + ·) 0)

/-- The wait state of a descriptor that registers now, and whether the knot's value satisfies it already (R92, R96). -/
def newWait (s : State) (d : Desc) : DescWait × Bool :=
  if waitsUsed s < 16384 then (.registered, knotPassed (knotOf s (dWaitKnot d)).value (dWaitValue d)) else (.tableFull, false)

/-- A descriptor's wait takes a state. -/
def setWait (s : State) (d : Desc) (w : DescWait × Bool) : State :=
  match d.src with
  | .ring r i => { s with hif.flights := s.hif.flights.map (fun f => if f.ring = r ∧ f.index = i then { f with wait := w.1, satisfied := w.2 } else f) }
  | .call t slot =>
    let th := Tbl.at Thread.reset s.eng.threads t
    { s with eng.threads := s.eng.threads.put t { th with calls := th.calls.map (fun c => if c.slot = slot then { c with wait := w.1, satisfied := w.2 } else c) } }
  | .internal => { s with knots.inner := s.knots.inner.filter (fun x => !(x.did == d.did && x.raw == d.raw)) ++ [{ did := d.did, raw := d.raw, wait := w.1, satisfied := w.2 }] }
  | .ended => s

/-- Register a descriptor's wait: on a POISONED knot it completes with INTERNAL, in a full table it retries (R96, R97). -/
def registerWait (s : State) (d : Desc) : State :=
  if (knotOf s (dWaitKnot d)).st = .poisoned then finishDesc s d stInternal 0 0 0 else setWait s d (newWait s d)

/-- A descriptor of firmware with wait_en is issued: its wait is registered (R66, R96). -/
def issueInner (s : State) (d : Desc) : State :=
  if d.src = .internal ∧ d.did ≤ 1 ∧ !s.knots.inner.any (fun w => w.did == d.did && w.raw == d.raw) then registerWait s d else s

/-- Run a descriptor: the checks of R70 in order, then the operation (check 4 and its effect). -/
def runDesc (s : State) (d : Desc) (o : OpInfo) (act : State → Answer) : State :=
  if !mayStart s d then issueInner s d
  else if descChecks s d o ≠ stOk then finishDesc s d (descChecks s d o) 0 0 0
  else match act (markStarted s d) with
    | .done st res det fl s' => finishDesc s' d st res det fl
    | .later s' => s'

end Sys2Proof.Machine
end

