-- ==== Sys2Proof/Machine/Threads.lean ====
section
/-! DEFINITION. Threads and instances: registers, halting, waking (spec/12_engine_execution.md R270 to R274, R327). -/

namespace Sys2Proof.Machine

def thread (s : State) (t : Nat) : Thread := Tbl.at Thread.reset s.eng.threads t
def setThread (s : State) (t : Nat) (x : Thread) : State := { s with eng.threads := s.eng.threads.put t x }
def updThread (s : State) (t : Nat) (f : Thread → Thread) : State := setThread s t (f (thread s t))
def engineOf (s : State) (g : Nat) : Engine := Tbl.at Engine.reset s.eng.engines g
def setEngine (s : State) (g : Nat) (x : Engine) : State := { s with eng.engines := s.eng.engines.put g x }

/-- Scalar register (R273: 0 until written). -/
def Thread.xr (t : Thread) (r : Nat) : W64 := Tbl.at 0 t.x r
/-- Vector register. -/
def Thread.vr (t : Thread) (r : Nat) : BitVec 2048 := Tbl.at 0 t.v r
def Thread.setX (t : Thread) (r : Nat) (w : W64) : Thread := { t with x := t.x.put r w }
def Thread.setV (t : Thread) (r : Nat) (w : BitVec 2048) : Thread := { t with v := t.v.put r w }

/-- The instance of a thread. -/
def instOf (s : State) (t : Nat) : Option Instance := (thread s t).inst.bind s.eng.instances.find

/-- Engine of a global thread number (R33). -/
def engineNo (t : Nat) : Nat := t / 64

/-- A thread as the work behind its stores and copies; its calls are slots 0 to 7 (R98). -/
def threadSrc (t : Nat) : Source := .call t 8

/-- The DID and class with which a thread acts, as the requester of its engine (R279, R295). -/
def threadWho (s : State) (t : Nat) : Who :=
  match instOf s t with
  | some i =>
    let flows := match s.eng.runs.find i.run with
      | some r => if r.bound.isSome then [r.body.flow] else []
      | none => []
    { did := i.did, guarded := i.guarded, kind := 1, index := engineNo t, flows := flows, src := some (threadSrc t) }
  | none => { did := 0, guarded := false, kind := 1, index := engineNo t, flows := [], src := some (threadSrc t) }

/-- Overwrite the bytes at keys with free values. -/
def scribble (s : State) (keys : List Nat) : State :=
  tickFresh { s with mem := keys.foldl (fun m k => Memory.write m k (Config.freeByte s.fresh k)) s.mem }

/-- Keys of C of the MMA that a thread may still be in (R317). -/
def mmaKeys (t : Nat) (x : Thread) : List Nat :=
  match x.mma with
  | some (base, stride, rows, n) => (List.range rows).flatMap (fun r => (List.range n).map (fun j => Space.key (.tile (engineNo t)) (base + r * stride + j)))
  | none => []

/-- An abandoned MMA leaves the bytes of C undefined (R317). -/
def dropMma (s : State) (t : Nat) : State :=
  match (thread s t).mma with
  | some _ => updThread (scribble s (mmaKeys t (thread s t))) t (fun x => { x with mma := none })
  | none => s

/-- Stop one thread: it issues nothing more, waits for nothing and drops its held effects (R293, R327). -/
def stopThread (s : State) (t : Nat) : State :=
  let s := updThread (dropMma s t) t (fun x => { x with st := .halted, waiting := .none, held := [] })
  { s with eng.waits := Tbl.drop s.eng.waits t }

/-- Discard the requests of an instance in its engine's copy unit (R321). -/
def dropCopies (s : State) (g inst : Nat) : State :=
  setEngine s g { engineOf s g with copies := (engineOf s g).copies.filter (fun c => c.inst ≠ inst) }

/-- A fault halts the thread and every other thread of its instance, and ENG_FAULT records it (R274, R327). -/
def haltThread (s : State) (t status : Nat) : State :=
  let g := engineNo t
  let e := engineOf s g
  let s := icuSet (setEngine s g { e with lastCode := status, sticky := true, lastThread := t % 64 }) (64 + g) true
  let s := trace s 4 1 g (status + t % 64 * 256)
  match instOf s t with
  | some i =>
    let s := { s with eng.instances := s.eng.instances.put ((thread s t).inst.getD 0) { i with status := if i.status = stOk then status else i.status } }
    let id := (thread s t).inst.getD 0
    (i.threads.filter (fun u => (thread s u).inst == some id)).foldl stopThread (dropCopies s g id)
  | none => stopThread s t

/-- Make a waiting thread READY. -/
def wakeThread (s : State) (t : Nat) : State :=
  updThread s t (fun x => { x with st := .ready, waiting := .none })

end Sys2Proof.Machine
end

