-- ==== Sys2Proof/Machine/Flow.lean ====
section
/-! DEFINITION. Epochs and flow results: what a flow's work contributes, when it has ended, and the record it writes (spec/01_working_model.md R24 to R30, spec/03_host_rings.md R72 to R79, spec/06_cadences_triggers.md R134). -/

namespace Sys2Proof.Machine

/-! ### Epochs -/

def epochOf (s : State) (c n : Nat) : Option Epoch := s.epochs.find? (fun e => e.cadence == c && e.epoch == n)

/-- Rewrite one epoch. -/
def updEpoch (s : State) (c n : Nat) (f : Epoch → Epoch) : State :=
  { s with epochs := s.epochs.map (fun e => if e.cadence = c ∧ e.epoch = n then f e else e) }

def dropEpoch (s : State) (c n : Nat) : State :=
  { s with epochs := s.epochs.filter (fun e => !(e.cadence == c && e.epoch == n)) }

/-- The run of a flow in an epoch. -/
def Epoch.flowRun (e : Epoch) (f : Nat) : Option FlowRun := e.flows.find? (fun r => r.flow == f)

def Epoch.updFlow (e : Epoch) (f : Nat) (g : FlowRun → FlowRun) : Epoch :=
  { e with flows := e.flows.map (fun r => if r.flow = f then g r else r) }

/-- Rewrite the run of one flow. -/
def updFlow (s : State) (c n f : Nat) (g : FlowRun → FlowRun) : State := updEpoch s c n (fun e => e.updFlow f g)

def Epoch.tov (s : State) (e : Epoch) : Nat :=
  let c := Tbl.at Cadence.reset s.trig.cads e.cadence
  c.phase + e.epoch * c.period + c.tovOffset

def Epoch.closeAt (s : State) (e : Epoch) : Nat :=
  let c := Tbl.at Cadence.reset s.trig.cads e.cadence
  c.phase + e.epoch * c.period + c.acqWindow + c.closeMargin

def Epoch.deadlineAt (s : State) (e : Epoch) : Nat :=
  e.closeAt s + (Tbl.at Cadence.reset s.trig.cads e.cadence).budget * 1000

/-- Guarded flows of an epoch. -/
def Epoch.guardedFlows (e : Epoch) : List Nat := (e.flows.filter (·.guarded)).map (·.flow)

/-! ### Contributions -/

/-- The earlier of two contributions. -/
def earlier : Option Nat → Option Nat → Option Nat
  | none, b => b
  | a, none => a
  | some a, some b => some (min a b)

/-- Age of a result in µs (R26). -/
def ageOf (tov : Nat) (old : Option Nat) : Nat :=
  match old with
  | none => 0
  | some t => min ((tov - t) / 1000) 0xFFFFFFFF

/-- Contribution that a consumed result adds (R26, R27). -/
def FlowResult.contribution (r : FlowResult) : Option Nat :=
  match r.old with
  | some t => some t
  | none => if r.age = 0 then none else some (r.tov - r.age * 1000)

/-- Usable: a status below 0x10 (R78). -/
def usable (status : Nat) : Bool := decide (status < 0x10)

def histOf (s : State) (f : Nat) : FlowHist := Tbl.at FlowHist.reset s.results f

/-- The latest record of a flow was written in this FAB cycle. -/
def FlowHist.isNew (h : FlowHist) (now : Nat) : Bool := h.latest.any (fun r => r.at_ == now)

/-- A record enters a flow's history. -/
def FlowHist.add (h : FlowHist) (x : FlowResult) (now : Nat) (good : Bool) : FlowHist :=
  { latest := some x, usable := if Machine.usable x.status then some x else h.usable, good := if good then some x else h.good
    prev := if h.isNew now then h.prev else h.latest, prevUsable := if h.isNew now then h.prevUsable else h.usable }

/-- What a flow input gives at a close: the latest result written before this FAB cycle, or the last earlier usable one (R27). -/
def takeResult (s : State) (f : Nat) (required : Bool) : Taken :=
  let h := histOf s f
  let new := h.isNew s.now
  let ok := if new then h.prevUsable else h.usable
  match if new then h.prev else h.latest with
  | none => { flow := f, required := required, result := none, substituted := false }
  | some r =>
    if usable r.status then { flow := f, required := required, result := some r, substituted := false }
    else { flow := f, required := required, result := ok, substituted := ok.isSome }

/-! ### Records -/

def flagLate : Nat := 1
def flagReefed : Nat := 2
def flagFallback : Nat := 4
def flagPartial : Nat := 32
def flagTruncated : Nat := 64

/-- Flags of a flow's own result (R79). -/
def FlowRun.flagBits (r : FlowRun) : Nat :=
  r.flags + (if r.late then flagLate else 0) + (if r.reefed then flagReefed else 0) + (if r.fallback then flagFallback else 0)
    + (if r.partial_ then flagPartial else 0) + (if r.truncated then flagTruncated else 0)

/-- Status of a flow's own result (R78, R134, R139, R190). -/
def FlowRun.statusCode (r : FlowRun) : Nat :=
  if !usable r.status then r.status
  else if r.reefed ∨ r.truncated ∨ (r.degraded ∧ !r.guarded) then stDegraded
  else if r.late then stOkLate
  else r.status

/-- A record is written: it enters the flow's history, goes to its completion ring and is traced (R24, R30, R72). It counts as written
for R27 from here on, also where the ring holds it back or drops it (R76, R77): DESIGN CHOICE, log entry 128. -/
def writeResult (s : State) (e : Epoch) (f : Nat) (x : FlowResult) (good : Bool) : State :=
  let s := updFlow { s with results := s.results.put f ((histOf s f).add x s.now good) } e.cadence e.epoch f (fun r => { r with written := true })
  let s := trace s 3 6 f (x.flow + x.status * 65536)
  match e.cfg.flows.find f with
  | some c =>
    match c.cring with
    | some ring => flowToRing s ring { flow := f, tov := x.tov % 2 ^ 64, epoch := x.epoch % 2 ^ 64, age := x.age, status := x.status, flags := x.flags }
    | none => s
  | none => s

/-- The region table and source epoch that a record of a grid's flow carries with it. -/
def gridPart (s : State) (e : Epoch) (f : Nat) : List RegionRow × Nat :=
  match (e.cfg.flows.find f).bind (·.grid) with
  | some g => ((Tbl.at Grid.reset s.geo.grids g).regions, e.epoch)
  | none => ([], e.epoch)

/-- The result of a flow's own work (R26, R72). -/
def ownResult (s : State) (e : Epoch) (r : FlowRun) : FlowResult :=
  let g := gridPart s e r.flow
  { flow := r.flow, epoch := e.epoch, tov := e.tov s, age := ageOf (e.tov s) r.old, old := r.old, status := r.statusCode,
    flags := r.flagBits, at_ := s.now, regions := g.1, source := g.2 }

/-- A record without a value: tov, age 0 (R190, R138, R266). -/
def emptyResult (s : State) (e : Epoch) (f status flags : Nat) : FlowResult :=
  { flow := f, epoch := e.epoch, tov := e.tov s, age := 0, old := none, status := status, flags := flags, at_ := s.now, regions := [],
    source := e.epoch }

/-! ### Sequences (R379) -/

/-- Requester of the sequence manager for a sequence's owner. -/
def seqWho (q : Seq) (index : Nat) : Who :=
  { did := q.ownerDid, guarded := q.guarded, kind := 14, index := index, flows := [q.flow] }

/-- row_bytes and rpp of a sequence (R369). -/
def Seq.elem (q : Seq) : Nat := if q.format ≤ 1 then 2 else 1
def Seq.rowBytes (q : Seq) : Nat := (q.layers * q.heads * 2 * q.width * q.elem + 63) / 64 * 64
def Seq.rpp (q : Seq) : Nat := 65536 / (q.rowBytes + 8)

/-- Addresses of a position's row and time word (R370). -/
def Seq.page (q : Seq) (p : Nat) : Nat := q.base + p / q.rpp % q.reservedPages * 65536
def Seq.row (q : Seq) (p : Nat) : Nat := q.page p + p % q.rpp * q.rowBytes
def Seq.timeWord (q : Seq) (p : Nat) : Nat := q.page p + q.rpp * q.rowBytes + 8 * (p % q.rpp)

/-- Settle a pending position: committed, or discarded with its time word invalid (R379; log entry 41). -/
def settleSeq (s : State) (k : Nat) (q : Seq) (ok : Bool) : State :=
  if ok then { s with seq.seqs := s.seq.seqs.put k { q with pending := none, count := q.count + 1 } }
  else
    let s := (devWrite s (seqWho q k) (q.timeWord (q.first + q.count)) (leBytes 8 (2 ^ 64 - 1))).2
    let q := if q.count = 0 then { q with first := q.first + 1 } else { q with count := q.count + 1 }
    { s with seq.seqs := s.seq.seqs.put k { q with pending := none, discarded := satAdd 8 q.discarded 1 } }

/-- The last work of a flow for its epoch has ended: its sequences' pending positions settle (R379). -/
def settleSeqs (s : State) (f n : Nat) (ok : Bool) : State :=
  s.seq.seqs.foldl (fun s p => if p.2.active ∧ p.2.flow = f ∧ p.2.pending = some n then settleSeq s p.1 p.2 ok else s) s

/-! ### The end of a flow's work -/

/-- Late work of an epoch: TBU_CAD_LATE counts the epoch once (R134, R141). -/
def countLate (s : State) (c n : Nat) : State :=
  if (epochOf s c n).any (fun e => !e.lateSeen) then
    let x := Tbl.at Cadence.reset s.trig.cads c
    updEpoch { s with trig.cads := s.trig.cads.put c { x with late := satAdd 16 x.late 1 } } c n (fun e => { e with lateSeen := true })
  else s

/-- Bound tasks of a flow in an epoch. -/
def Epoch.tasksOf (e : Epoch) (f : Nat) : List Nat :=
  (e.cfg.tasks.filter (fun p => p.2.body.flow == f && p.2.body.cadence == e.cadence)).map (·.1)

/-- All work of a flow before EMIT has ended: its tasks, and the steps of the grid it carries. -/
def Epoch.workEnded (e : Epoch) (r : FlowRun) : Bool :=
  r.gated && (!r.runs || ((e.tasksOf r.flow).all (fun h => (e.tasks.find h).isSome)
    && match (e.cfg.flows.find r.flow).bind (·.grid) with
      | some g => e.gridsDone.contains g || !((e.cfg.grids.find g).any (·.enable))
      | none => true))

/-- The flow does not run in this epoch: mode SKIP in catch-up (R138). -/
def Epoch.skips (e : Epoch) (r : FlowRun) : Bool := decide (0 < e.cut) && !r.guarded && r.mode == 2

/-! ### The shadow verdict (R442, R443) -/

def imageFlow (s : State) (f : Nat) : Option FlowSafety := s.sec.image.bind (fun i => i.flows.find f)

/-- age_max in ns is met (condition 6). -/
def ageOk (s : State) (e : Epoch) (r : FlowRun) : Bool :=
  let m := ((imageFlow s r.flow).map (·.ageMax)).getD 0
  m == 0 || decide (ageOf (e.tov s) r.old ≤ m)

/-- Conditions 1 to 6 (the shadow verdict, R443). -/
def shadowPass (s : State) (e : Epoch) (r : FlowRun) : Bool :=
  r.ended && usable r.status && !r.doubted && !e.windowMissed && !r.missing && ageOk s e r

/-- The shadow verdict of a guarded flow whose record was written before its work ended: it is formed at that end. -/
def shadowLate (s : State) (e : Epoch) (r : FlowRun) : State :=
  if (histOf s r.flow).latest.all (fun x => x.epoch != e.epoch) then s
  else { s with safe.flows := s.safe.flows.put r.flow { Tbl.at FlowSafe.reset s.safe.flows r.flow with shadow := shadowPass s e r } }

/-- A flow whose work has just ended: its sequences settle; an advisory flow writes its record (R30, R134, R379). -/
def endFlow (s : State) (c n f : Nat) : State :=
  match epochOf s c n with
  | none => s
  | some e =>
    match e.flowRun f with
    | none => s
    | some r =>
      if r.ended ∨ !e.workEnded r then s else
      let late := decide (e.deadlineAt s < s.now) && !e.skips r
      let s := updFlow s c n f (fun r => { r with ended := true, late := r.late || late })
      let s := if late then countLate s c n else s
      let s := settleSeqs s f n (usable r.status)
      if r.guarded then (if r.written then shadowLate s e { r with ended := true } else s)
      else if r.written then s
      else writeResult s e f (ownResult s e { r with late := r.late || late }) (usable r.status)

/-- End every flow of an epoch whose work has ended; an epoch with nothing left is dropped. -/
def endFlows (s : State) (c n : Nat) : State :=
  match epochOf s c n with
  | none => s
  | some e => together s fun s => e.flows.foldl (fun s r => endFlow s c n r.flow) s

/-- Nothing of an epoch is left to do: its holds on slots end with it (R183). -/
def Epoch.complete (e : Epoch) : Bool :=
  e.closed && e.finished && e.flows.all (fun r => r.written && (r.ended || e.aborted))

/-- The flow of an epoch that carries a grid (R69). -/
def Epoch.carrier (e : Epoch) (g : Nat) : Option FlowRun :=
  e.flows.find? (fun r => (e.cfg.flows.find r.flow).bind (·.grid) == some g)

/-- The grid's steps of an epoch are running (R248). -/
def gridRuns (s : State) (g n : Nat) : Bool := (Tbl.at Grid.reset s.geo.grids g).running.any (fun r => r.1 == n)

/-- Steps of an enabled grid are still to come in an epoch; a grid whose flow does not run stays out of the epoch (R190, R254; log entry 67). -/
def gridPending (s : State) (e : Epoch) (g : Nat) : Bool :=
  (e.cfg.grids.find g).any (fun x => x.enable && x.cadence == e.cadence) && !e.gridsDone.contains g
    && (gridRuns s g e.epoch || match e.carrier g with
      | some r => r.runs
      | none => true)

/-- Every enabled stage window of an epoch has had its end event (R472); an abandoned epoch waits for none (R476). -/
def stagesOver (s : State) (e : Epoch) : Bool :=
  e.aborted || (List.range 7).all (fun t => e.stagesEnded.contains t || !s.sec.image.any (fun i => (i.windows.find (8 * e.cadence + t)).any (·.enable)))

/-- The work of an epoch has ended or been abandoned. -/
def Epoch.over (s : State) (e : Epoch) : Bool := e.aborted || (e.complete && !e.cfg.grids.any (fun p => gridPending s e p.1))

/-! ### Work of a descriptor -/

/-- The task run that issues a descriptor through CALL. -/
def callRun (s : State) (d : Desc) : Option TaskRun :=
  match d.src with
  | .call t _ => (instOf s t).bind (fun i => s.eng.runs.find i.run)
  | _ => none

/-- The flow and epoch of the work that issues a descriptor, where a bound task issues it. -/
def callFlow (s : State) (d : Desc) : Option (Nat × Nat × Nat) :=
  (callRun s d).bind (fun r => if r.bound.isSome then some (r.body.cadence, r.epoch, r.body.flow) else none)

/-- Flows that a descriptor's work serves. -/
def callFlows (s : State) (d : Desc) : List Nat :=
  match callFlow s d with
  | some x => [x.2.2]
  | none => []

/-- Epoch index of a descriptor's work. -/
def callEpoch (s : State) (d : Desc) : Option Nat := (callFlow s d).map (fun x => x.2.1)

/-- An operation issued by DID 1 completed: its unit's interrupt source pulses (R496). -/
def fwDone (s : State) (d : Desc) (source : Nat) : State := if d.did = 1 then icuPulse s source else s

/-- Completion flags of an operation enter the record of the flow it serves (R79). -/
def noteFlags (s : State) (d : Desc) (flags : Nat) : State :=
  match callFlow s d with
  | some (c, n, f) => updFlow s c n f (fun r => { r with flags := r.flags ||| (flags &&& 0x18) })
  | none => s

end Sys2Proof.Machine
end

