-- ==== Sys2Proof/Machine/Frames.lean ====
section
/-! DEFINITION. Frames that the device sends on its Ethernet ports: the management allowance of the plant ports (spec/24_plant_ports_octur.md R559 to R563). -/

namespace Sys2Proof.Machine

def ingPort (s : State) (p : Nat) : IngPort := Tbl.at IngPort.reset s.ing.ports p
def plantPort (s : State) (q : Nat) : PlantPort := Tbl.at PlantPort.reset s.eth.plant q
def setPlant (s : State) (q : Nat) (x : PlantPort) : State := { s with eth.plant := s.eth.plant.put q x }

/-- Link of an Ethernet port is up. -/
def portUp (s : State) (p : Nat) : Bool := (ingPort s p).linkUp

/-- Line rate of a speed code in bits per µs (R146). -/
def lineRate (speed : Nat) : Nat :=
  match speed with
  | 1 => 1000
  | 2 => 10000
  | 3 => 25000
  | 4 => 25000
  | _ => 1

/-- Time in ns that a frame of `l` bytes takes on the line, rounded up (R563). -/
def lineNs (speed l : Nat) : Nat := ((l + 20) * 8 * 1000 + lineRate speed - 1) / lineRate speed

/-- Send a management frame: on a plant port with tx_en, at most mgmt_fps in an aligned second (R559, R561). Its length on
the line is a free value. -/
def sendMgmt (s : State) (port kind : Nat) (bytes : List Byte) : State :=
  if port < 8 then emit s (.frame port kind bytes) else
  let q := port - 8
  let x := plantPort s q
  if !x.txEn then s else
  let sec := s.now / 1000000000
  let n := if x.mgmtSecond = sec then x.mgmtCount else 0
  if x.mgmtFps ≤ n then setPlant s q { x with mgmtDropped := satAdd 16 x.mgmtDropped 1 }
  else
    let l := (Config.freeWord s.fresh).toNat % 1519
    let x := { x with mgmtSecond := sec, mgmtCount := n + 1, sentMgmt := satAdd 16 x.sentMgmt 1, busyUntil := max x.busyUntil s.up + lineNs (ingPort s port).speed l }
    emit (setPlant (tickFresh s) q x) (.frame port kind bytes)

/-! ### Quiet-mode settings (R562, R568) -/

/-- Capacity of a token bucket in units of 10^-6 byte. -/
def bucketFull (burst : Nat) : Nat := burst * 1024 * 1000000

/-- The bucket's content now: it fills at rate kB/s (R562). -/
def bucketNow (s : State) (x : PlantPort) : Nat := min (bucketFull x.burst) (x.bucket + (s.up - x.bucketAt) * x.rate)

/-- New settings of a plant port: setting tx_en fills the bucket, clearing it discards what waits (R562, R568). -/
def setQuiet (s : State) (q : Nat) (y : PlantPort) : State :=
  let x := plantPort s q
  let y := { y with bucket := if y.txEn && !x.txEn then bucketFull y.burst else min (bucketFull y.burst) (bucketNow s x), bucketAt := s.up }
  let s := setPlant s q y
  if y.txEn then s else { s with eth.pending := s.eth.pending.filter (fun p => p.2.port ≠ q) }

end Sys2Proof.Machine
end

