-- ==== Sys2Proof/Machine/SafeOps.lean ====
section
/-! DEFINITION. The safe-state channels' conditions and requests, the presence window and what the field die reports to the island (spec/19_safety_concept.md R453 to R455, spec/22_security_presence.md R521 to R526, spec/25_field_side.md R600 to R603). -/

namespace Sys2Proof.Machine

def flowSafe (s : State) (f : Nat) : FlowSafe := Tbl.at FlowSafe.reset s.safe.flows f
def setFlowSafe (s : State) (f : Nat) (x : FlowSafe) : State := { s with safe.flows := s.safe.flows.put f x }

/-! ### Channels (R453 to R455) -/

/-- The field die reports a read-back fault, a heartbeat loss or that it does not run (R453). -/
def fieldFault (s : State) : Bool := !s.fld.fwRunning || s.fld.readback || s.fld.heartbeat.isNone

/-- A flow with recipe STOP that selects the channel has verdict FAIL or is latched (R452). -/
def stopHolds (s : State) (ch : Nat) : Bool :=
  s.sec.image.any (fun i => i.flows.any (fun p => p.2.recipe == 3 && (if ch = 0 then p.2.stop0 else p.2.stop1)
    && ((flowSafe s p.1).failing || (flowSafe s p.1).latched)))

/-- Acknowledged since the channel last de-energised. -/
def acked (s : State) (ch : Nat) : Bool := if ch = 0 then s.safe.ack0 else s.safe.ack1

/-- Conditions of a channel but the acknowledgement, in the coding of SFI_SAFE_COND (R453, R469). -/
def hardCond (s : State) (ch : Nat) : Nat :=
  placeB s.safe.fatal.isSome 0 + placeB (stopHolds s ch) 1 + placeB (s.dbg.level == 2 && s.sec.lifecycle == 2) 2
    + placeB (s.sec.lifecycle != 2) 3 + placeB (decide (2 ≤ s.power.pstate)) 4 + placeB (fieldFault s) 6

/-- SFI_SAFE_COND of a channel. -/
def safeCond (s : State) (ch : Nat) : Nat := hardCond s ch + placeB (!acked s ch) 5

/-- A switch pair of the field die. -/
def switchOf (s : State) (ch : Nat) : Switch := if ch = 0 then s.fld.sw0 else s.fld.sw1
def setSwitch (s : State) (ch : Nat) (x : Switch) : State := if ch = 0 then { s with fld.sw0 := x } else { s with fld.sw1 := x }

/-- A channel may stay energised. -/
def mayEnergise (s : State) (ch : Nat) : Bool := s.safe.running && hardCond s ch == 0 && !(switchOf s ch).localOff

/-- The record SAFE_STATE_DRIVEN of the channels in `off` (R454). -/
def raiseDriven (s : State) (off : Nat) : State :=
  if off = 0 then s
  else raise s { reportOf s sevInfo 11 (if off % 2 = 1 then 0 else 1) 0x0123 with detail := safeCond s 0 + safeCond s 1 * 256 + off * 65536 }

/-- The island forms its requests: a channel with a condition loses its acknowledgement, and its request drops (R453 to R455). -/
def driveSafe (s : State) : State :=
  let a0 := s.safe.ack0 && mayEnergise s 0
  let a1 := s.safe.ack1 && mayEnergise s 1
  let off := placeB (s.safe.req0 && !a0) 0 + placeB (s.safe.req1 && !a1) 1
  raiseDriven { s with safe.ack0 := a0, safe.ack1 := a1, safe.req0 := a0, safe.req1 := a1 } off

/-- Acknowledge one channel (R455). -/
def ackChannel (s : State) (ch : Nat) : State :=
  if !mayEnergise s ch then { s with safe.ackRefused := true }
  else if acked s ch then s
  else
    let s := if ch = 0 then { s with safe.ack0 := true, safe.req0 := true } else { s with safe.ack1 := true, safe.req1 := true }
    raise s (reportOf s sevInfo 11 ch 0x0124)

/-- Pin code of a safe-state channel. -/
def pinSafe (ch : Nat) : Nat := 16 + ch

/-- Switch a channel at the field die (R600). -/
def switchTo (s : State) (ch : Nat) (on : Bool) : State :=
  let x := switchOf s ch
  if x.on_ = on then s else emit (setSwitch s ch { x with on_ := on, bad := 0, overSince := none, openSince := none }) (.pin (pinSafe ch) (if on then 1 else 0))

/-- A local condition turns one channel off (R601). -/
def localOff (s : State) (ch : Nat) : State :=
  let s := switchTo s ch false
  setSwitch s ch { switchOf s ch with localOff := true }

/-- A local condition turns both channels off, and the island follows (R601, R453). -/
def localOffBoth (s : State) : State := driveSafe (localOff (localOff s 0) 1)

/-! ### Link tests (R629 to R631) -/

/-- Pin code of SFP_TX_DIS of port q (R610). -/
def pinTxDis (q : Nat) : Nat := 311 + q

/-- Debug level that a test needs: INTRUSIVE for a plant port in NONE or FAR and for a field lane (R630). -/
def testLevel (link loop : Nat) : Nat := if 26 ≤ link ∨ ((link = 8 ∨ link = 9) ∧ loop ≠ 1) then 2 else 1

/-- Line rate at a link's PMA in 1/32 bit per ns (R146, R572, R587). -/
def pmaRate (s : State) (link : Nat) : Nat :=
  if link ≤ 9 then
    match (Tbl.at IngPort.reset s.ing.ports link).speed with
    | 1 => 40
    | 2 => 330
    | 3 => 825
    | 4 => 825
    | _ => 0
  else if link ≤ 25 then 1700 else 40

/-- Bits compared up to now (R631). -/
def bitsNow (s : State) (link : Nat) : Nat :=
  let x := Tbl.at LinkTest.reset s.dbg.links link
  if x.run && x.sync then (x.bits + (s.up - x.since) * pmaRate s link / 32) % 2 ^ 64 else x.bits

/-- End a running test: its counters stay, and the link retrains by events of its own (R631). -/
def endTest (s : State) (link : Nat) (reason : Nat) : State :=
  let x := Tbl.at LinkTest.reset s.dbg.links link
  if !x.run then s else
  let s := { s with dbg.links := s.dbg.links.put link { x with run := false, state := 3, sync := false, reason := reason, bits := bitsNow s link } }
  if link ≤ 9 ∧ x.loop = 1 ∧ (Tbl.at IngPort.reset s.ing.ports link).speed ≠ 0 then emit s (.pin (pinTxDis link) 0) else s

/-- A fall of the debug level ends the tests that need more (R631). -/
def dropTests (s : State) : State :=
  (s.dbg.links.filter (fun p => decide (s.dbg.level < testLevel p.1 p.2.loop))).foldl (fun s p => endTest s p.1 5) s

/-- The debug level takes a value (R528, R631, R635). -/
def putLevel (s : State) (level : Nat) : State := stopTrace (dropTests { s with dbg.level := level })

/-! ### Presence (R521 to R526) -/

/-- A SEC record: chip unit 0x03. -/
def secReport (s : State) (severity event : Nat) : Report := reportOf s severity 4 0x0300 event

/-- The presence window closes; INTRUSIVE falls to OBSERVE (R523, R528). -/
def closePresence (s : State) : State :=
  if !s.sec.open_ then s else
  let s := { s with sec.open_ := false, sec.override := false }
  let s := raise s (secReport s sevInfo 0x0152)
  if s.dbg.level = 2 then driveSafe (putLevel s 1) else s

/-- The window opens (R523, R524). -/
def openPresence (s : State) (ov : Bool) : State :=
  let s := { s with sec.open_ := true, sec.override := ov, sec.openedAt := s.up, sec.mayOpen := false, sec.refusedAt := none }
  raise s (secReport s sevInfo 0x0151)

/-- A break that the field die latched reaches the Oasis domain (R522, R523). -/
def passSeal (s : State) : State :=
  let s := { s with sec.sealOk := !s.fld.sealBroken }
  if !s.fld.sealLatched then s else
  let s := { s with fld.sealLatched := false, sec.sealLatched := true, power.sealBreaks := satAdd 16 s.power.sealBreaks 1 }
  let s := raise s (secReport s sevWarn 0x0153)
  if s.sec.override then s else closePresence s

/-- The key position reaches the island (R521, R523, R524): KEY_FAULT counts as RUN. -/
def passKey (s : State) : State :=
  let was := s.sec.key
  let s := { s with sec.key := s.fld.key }
  if s.fld.key ≠ 1 then closePresence { s with sec.mayOpen := true, sec.refusedAt := none }
  else if was = 1 ∨ !s.sec.mayOpen then s
  else if s.sec.sealOk ∧ !s.sec.sealLatched ∧ s.power.pstate ≤ 2 then openPresence s false
  else { s with sec.mayOpen := false, sec.refusedAt := some s.up }

/-- The words of the FLD window as the field die stands now; FLD_STATUS without its link bit (R607). -/
def fieldWords (f : Fld) : Tbl Nat :=
  let bank := fun (b : Nat) => place (Tbl.at 0 f.banks b) (2 * b + 18) 2
  let chan := fun (c : Nat) =>
    let e := Tbl.at EncSt.reset f.enc c
    let r := Tbl.at SerSt.reset f.ser c
    let d := Tbl.at DinSt.reset f.din c
    [(0x100 * c + 0x10, placeB e.fault 31 + place e.illegal 12 12 + place e.faults 0 12),
     (0x100 * c + 0x14, place r.records 12 20 + place r.discards 0 12),
     (0x100 * c + 0x18, place d.edges 16 16 + place d.glitches 0 16)]
  [(0x00, placeB f.fwRunning 30 + placeB f.overvoltage 29 + bank 0 + bank 1 + bank 2 + bank 3 + place f.supply 0 16),
   (0x04, place f.key 30 2 + place f.sealSt 28 2 + place f.sealOhm 8 16
      + (List.range 8).foldl (fun n i => n + placeB (Tbl.at DinSt.reset f.din i).level i) 0),
   (0x08, placeB f.sw1.hs 31 + placeB f.sw1.ls 30 + placeB f.sw0.hs 29 + placeB f.sw0.ls 28 + placeB f.sw1.openLoad 25 + placeB f.sw0.openLoad 24
      + place f.sw1.ma 12 12 + place f.sw0.ma 0 12),
   (0x1C, place f.dropped 16 16 + place f.crc 0 16)] ++ (List.range 8).flatMap chan

/-- An exchange refreshes the FLD window (R607); the supply that the field die measures is free. -/
def mirrorField (s : State) : State :=
  if s.fldT.linkUp ∧ s.fld.fwRunning then
    let f := { s.fld with supply := Config.fieldSupply s.up % 65536 }
    { s with fld := { f with mirror := fieldWords f } }
  else s

/-- What a field-link exchange carries to the island: seal before key (R522, R604). -/
def fieldReport (s : State) : State :=
  let s := mirrorField s
  if s.fldT.linkUp ∧ s.fld.fwRunning ∧ s.safe.running then passKey (passSeal s) else s

/-- A maintenance command may be accepted: window open, DID 1 or 2, P0 or P1 (R526). -/
def maintOpen (s : State) (did : Nat) : Bool := s.sec.open_ && (did == 1 || did == 2) && decide (s.power.pstate ≤ 1)

/-- The record of an accepted maintenance command (R526). -/
def maintRecord (s : State) (did command : Nat) : State :=
  raise s { secReport s sevInfo 0x0156 with did := did, detail := command }

/-- A maintenance command is refused (R526). -/
def maintRefuse (s : State) : State := { s with sec.maintRefused := true }

/-- The command code of a maintenance command given by a register: the spec gives it no number (free). -/
def freeCode (s : State) : Nat := (Config.freeWord s.fresh).toNat % 2 ^ 32

/-- Accept a maintenance command given through a register. -/
def maintAccept (s : State) (did : Nat) : State := maintRecord (tickFresh s) did (freeCode s)

end Sys2Proof.Machine
end

