-- ==== Sys2Proof/Machine/Time.lean ====
section
/-! DEFINITION. The time base unit's commands: servo, steps, PTP, PPS and the field link's clock (spec/05_time_base.md). -/

namespace Sys2Proof.Machine

/-- Device time in units of 2^-16 ns (DT64 and DT16F). -/
def time16 (s : State) : Int := ((s.now * 65536 + s.tb.frac : Nat) : Int)

/-- Some cadence is ARMED or RUNNING. -/
def cadActive (s : State) : Bool := s.trig.cads.any (fun p => p.2.st != .stopped)

/-- A chip unit's report: source kind 4, block index in [15:8] (R464). -/
def chipReport (s : State) (severity unit event : Nat) : Report := reportOf s severity 4 (unit * 256) event

/-- Step the counter by `d` units of 2^-16 ns; the field die follows with its next exchange (R108, R109, R119). -/
def stepBy (s : State) (d : Int) : State :=
  let t := (time16 s + d) % (2 ^ 80 : Nat)
  { s with
    now := (t / 65536).toNat
    tb.frac := (t % 65536).toNat
    tb.gen := (s.tb.gen + 1) % 16
    fldT.off := s.fldT.off - d }

/-- Enter a servo state: INFO for each change, WARN for HOLDOVER and for FREERUN after lock (R107). -/
def servoTo (s : State) (v : Servo) : State :=
  if s.tb.servo = v then s else
  let sev := if v = .holdover ∨ (v = .freerun ∧ s.tb.everLocked) then sevWarn else sevInfo
  raise { s with tb.servo := v, tb.lockRun := 0, tb.farRun := 0 } (chipReport s sev 0x07 0x0100)

/-- FREERUN: y held at 0 (R106), or at its value while servo_en is 0 (R121). -/
def servoFree (s : State) : State :=
  let s := servoTo s .freerun
  let s := if s.tb.servoEn then { s with tb.y := 0, tb.yReg := 0 } else s
  { s with tb.i := 0, tb.onBackup := false, tb.acq := [], tb.lastTheta := none, tb.rejects := 0 }

/-- A step that is due: applied only while every cadence is STOPPED (R108). -/
def stepDue (s : State) (d : Int) : State :=
  if cadActive s then { s with tb.stepRefused := true } else stepBy s d

/-- STEP: the operand is a signed number of ns (R108, R121). -/
def execStep (did : Nat) (s : State) : Host.Outcome State Fault Refusal :=
  if !s.bootReady ∨ 2 < did then .next s
  else if cadActive s then .next { s with tb.stepRefused := true, tb.lastCmd := stDescInvalid }
  else .next (stepBy s (s.tb.operand.toInt * 65536))

/-- REACQUIRE: the next accepted sample enters ACQUIRE (R106). -/
def execReacquire (did : Nat) (s : State) : Host.Outcome State Fault Refusal :=
  if !s.bootReady ∨ 2 < did then .next s else .next { s with tb.reacquire := true }

/-- SET_TOD: a step to the operand at the next PPS edge (R104, R108). -/
def execSetTod (did : Nat) (s : State) : Host.Outcome State Fault Refusal :=
  if !s.bootReady ∨ 2 < did then .next s
  else if cadActive s then .next { s with tb.stepRefused := true, tb.lastCmd := stDescInvalid }
  else .next { s with tb.setTod := some s.tb.operand.toNat }

/-! ### The servo (R104 to R107) -/

/-- Code of the source whose samples the servo takes now; in FREERUN and HOLDOVER it waits for the primary. -/
def servoSource (s : State) : Nat := if s.tb.onBackup then s.tb.srcBackup else s.tb.srcPrimary

def clampR (lim x : Rat) : Rat := max (-lim) (min lim x)

/-- The applied correction, clamped to freq_lim, in units of 2^-6 ppb: a value between two units rounds to either, a free choice (R102). While
servo_en is 0 it stays as it is (R121). -/
def setY (s : State) (y : Rat) : State :=
  if !s.tb.servoEn then s else
  let y := clampR (s.tb.freqLim : Rat) y
  let f := (y * 64).floor
  let up := decide ((y * 64) ≠ f) && (Config.freeByte s.fresh 0).getLsbD 0
  tickFresh { s with tb.y := y, tb.yReg := if up then f + 1 else f }

/-- θ in ns and τ in seconds. -/
def thetaNs (theta : Int) : Rat := (theta : Rat) / 65536
def tauS (ns : Nat) : Rat := (ns : Rat) / 1000000000

/-- i_k and y_k of R105 with gains in ppb per ns and ppb per ns per s. -/
def servoStep (kp ki lim i : Rat) (theta : Int) (tau : Nat) : Rat × Rat :=
  let i' := clampR lim (i + ki * thetaNs theta * tauS tau)
  (i', clampR lim (-(kp * thetaNs theta + i')))

/-- Absolute θ against a limit in ns. -/
def thetaOver (theta : Int) (ns : Nat) : Bool := decide (ns * 65536 < theta.natAbs)

/-- Signed value saturated to `n` bits. -/
def satSigned (n : Nat) (x : Int) : Int := max (-(2 ^ (n - 1) : Nat)) (min ((2 ^ (n - 1) : Nat) - 1) x)

/-- TBU_OFFSET shows the calibration average of a plant port: the port is SLAVE_ONLY, PPS is the active source (R115). -/
def calibrating (s : State) : Bool :=
  servoSource s == 2 && s.tb.servo != .freerun && s.tb.servo != .holdover
    && s.tb.ports.any (fun p => decide (8 ≤ p.1) && p.2.role == 1 && p.2.enable && p.2.calCount != 0)

/-- Record an accepted sample. -/
def acceptSample (s : State) (theta : Int) : State :=
  { s with
    tb.lastTheta := some theta, tb.lastAt := s.up, tb.rejects := 0
    tb.offset := if calibrating s then s.tb.offset else satSigned 32 (theta / 256) }

/-- The frequency estimate of R106 in ppb: the 10 MHz input where it is valid, else the slope of the four samples, negated. -/
def freqEstimate (s : State) (xs : List (Int × Nat)) : Rat :=
  match s.tb.clk10m with
  | some f => (f : Rat) / 64
  | none =>
    match xs.head?, xs.getLast? with
    | some a, some b => -(thetaNs (b.1 - a.1) / tauS (b.2 - a.2))
    | _, _ => 0

/-- A sample in ACQUIRE: the first may step; after four, TRACK (R106, R108). -/
def acquireSample (s : State) (theta : Int) : State :=
  let first := s.tb.acq.isEmpty
  if first ∧ thetaOver theta (s.tb.stepThreshold * 1000) then
    if cadActive s then servoTo { s with tb.stepRefused := true } .track
    else
      let s := stepBy s (-theta)
      { s with tb.acq := [(0, s.up)], tb.lastTheta := some 0, tb.lastAt := s.up }
  else
    let xs := s.tb.acq ++ [(theta, s.up)]
    if xs.length < 4 then { s with tb.acq := xs }
    else servoTo { s with tb.acq := [], tb.i := freqEstimate s xs } .track

/-- A sample in TRACK or LOCKED (R105, R106). -/
def trackSample (s : State) (theta : Int) (tau : Nat) : State :=
  let lim := (s.tb.freqLim : Rat)
  let r := servoStep ((s.tb.kp.toNat : Rat) / 65536) ((s.tb.ki.toNat : Rat) / 65536) lim s.tb.i theta tau
  let s := setY { s with tb.i := r.1 } r.2
  if s.tb.servo = .track then
    let run := if thetaOver theta s.tb.lockThreshold then 0 else s.tb.lockRun + 1
    let s := { s with tb.lockRun := run }
    if 16 ≤ run then { servoTo s .locked with tb.everLocked := true } else s
  else
    let s := { s with tb.lockedY := (r.2 :: s.tb.lockedY).take 64 }
    let run := if thetaOver theta (4 * s.tb.lockThreshold) then s.tb.farRun + 1 else 0
    let s := { s with tb.farRun := run }
    if 4 ≤ run then servoTo s .track else s

/-- An accepted sample of the servo's source. -/
def servoTake (s : State) (theta : Int) : State :=
  let tau := s.up - s.tb.lastAt
  let s := acceptSample s theta
  if s.tb.reacquire ∨ s.tb.servo = .freerun then
    acquireSample (servoTo { s with tb.reacquire := false, tb.acq := [] } .acquire) theta
  else match s.tb.servo with
    | .acquire => acquireSample s theta
    | .holdover => trackSample (servoTo { s with tb.i := s.tb.y } .track) theta tau
    | _ => trackSample s theta tau

/-- HOLDOVER has lasted holdover_delay. -/
def backupDue (s : State) : Bool := decide (s.tb.holdAt + s.tb.holdoverDelay * 1000000 ≤ s.up)

/-- Switch to the backup source (R106). -/
def toBackup (s : State) : State := servoTo { s with tb.onBackup := true, tb.backupSeen := false } .track

/-- A sample of the source that the servo takes: rejected as an outlier, or accepted; the fourth consecutive rejection is accepted (R105). -/
def judgeSample (s : State) (theta : Int) : State :=
  let bad : Bool := match s.tb.lastTheta with
    | some p => thetaOver (theta - p) (s.tb.outlier * 100)
    | none => false
  if bad ∧ s.tb.rejects < 3 then { s with tb.rejects := s.tb.rejects + 1 } else servoTake s theta

/-- An offset sample of a source, θ in units of 2^-16 ns (R104 to R109). -/
def servoSample (s : State) (source : Nat) (theta : Int) : State :=
  if source = 0 then s
  else if s.tb.servo = .holdover ∧ source ≠ s.tb.srcPrimary then
    if source = s.tb.srcBackup then
      if backupDue s then judgeSample (toBackup s) theta else { s with tb.backupSeen := true }
    else s
  else if source ≠ (if s.tb.servo = .holdover then s.tb.srcPrimary else servoSource s) then s
  else judgeSample s theta

def ptpPort (s : State) (p : Nat) : PtpPort := Tbl.at (PtpPort.reset p) s.tb.ports p
def setPtp (s : State) (p : Nat) (x : PtpPort) : State := { s with tb.ports := s.tb.ports.put p x }

/-- A port runs the peer-to-peer delay mechanism: always under 802.1AS (R110, R121). -/
def peerDelay (s : State) (p : PtpPort) : Bool := s.tb.profile == 1 || p.peer

/-- Under 802.1AS a port whose mean link delay exceeds 800 ns is not asCapable; nor is one that has measured none (R114; log 127). -/
def asCapable (s : State) (p : PtpPort) : Bool := s.tb.profile != 1 || p.link.any (fun l => decide (l ≤ 800 * 65536))

/-- θ of a port from its Sync's t1 and t2, with the step generation of t2; none before a delay is known, or where the time-stamps it would use
carry different generations (R109, R114). -/
def portTheta (s : State) (p : PtpPort) (t1 t2 : Int) (gen : Nat) : Option Int :=
  if peerDelay s p then p.link.map (fun l => t2 - t1 - l - p.asym.toInt)
  else match p.delay with
    | some (d, g) => if g = gen then some (((t2 - t1) - d) / 2 - p.asym.toInt) else none
    | none => none

/-- Firmware reads a port's oldest time-stamps, so many of each queue, but no egress one whose answer is awaited (R113; log 127). -/
def readStamps (s : State) (port ingress egress : Nat) : State :=
  let mine := fun (e : Stamp) => e.port == port && e.type != 1 && e.type != 2
  { s with
    tb.ingress := s.tb.ingress.filter (fun e => e.port != port) ++ (s.tb.ingress.filter (fun e => e.port == port)).drop ingress
    tb.egress := s.tb.egress.filter (fun e => !mine e) ++ (s.tb.egress.filter mine).drop egress }

/-- A θ of a port while PPS is the active source: averaged for the calibration of a plant port in SLAVE_ONLY (R115). -/
def calSample (s : State) (port : Nat) (theta : Int) : State :=
  let p := ptpPort s port
  if port < 8 ∨ p.role ≠ 1 then s
  else
    let p := { p with calSum := p.calSum + theta, calCount := p.calCount + 1 }
    { setPtp s port p with tb.offset := satSigned 32 (p.calSum / (p.calCount : Int) / 256) }

/-- SERVO_SAMPLE: firmware computes θ of a port from the time-stamps of the parent's latest Sync and feeds the servo, or averages θ for the
calibration (R104, R105, R109, R113 to R115). -/
def execServoSample (port seq ingress egress : Nat) (s : State) : Host.Outcome State Fault Refusal :=
  let p := ptpPort s port
  match p.sync with
  | none => .next s
  | some (id, t1) =>
    if id ≠ seq then .next s else
    let stamp := s.tb.ingress.find? (fun e => e.port == port && e.type == 0 && e.seq == seq)
    let s := readStamps (setPtp s port { p with sync := none }) port ingress egress
    match stamp.bind (fun e => portTheta s p t1 e.time e.gen) with
    | none => .next s
    | some theta =>
      if !p.enable ∨ !asCapable s p then .next s
      else if servoSource s = 2 ∧ s.tb.servo ≠ .freerun ∧ s.tb.servo ≠ .holdover then .next (calSample s port theta)
      else .next (servoSample s 1 theta)

/-- Mean of a list, 0 for none. -/
def meanR (xs : List Rat) : Rat := xs.foldl (· + ·) 0 / (xs.length : Rat)

/-- SERVO_HOLDOVER_TIMEOUT (R106). -/
def execServoHoldoverTimeout (s : State) : Host.Outcome State Fault Refusal :=
  let delay := s.tb.holdoverDelay * 1000000
  match s.tb.servo with
  | .track | .locked =>
    let s := servoTo (advanceUp s (s.tb.lastAt + delay)) .holdover
    let s := setY s (if s.tb.everLocked then meanR s.tb.lockedY else s.tb.i)
    .next { s with tb.holdAt := s.up, tb.onBackup := false, tb.backupSeen := false }
  | .holdover =>
    let s := advanceUp s (s.tb.holdAt + delay)
    if s.tb.backupSeen ∧ s.tb.srcBackup ≠ 0 then .next (toBackup s) else .next s
  | _ => .next s

/-- DPLL_REF_LOST: with an external or SyncE reference (R101). -/
def execDpllRefLost (s : State) : Host.Outcome State Fault Refusal :=
  let mode := s.power.clkActive
  if mode = 1 ∨ mode = 2 then .next { s with tb.refLost := true } else .next s

/-! ### PTP (R110 to R115) -/

/-- Sensor port 0 gives a recovered clock: its link is up at 10G or 25G (R116). -/
def syncE (s : State) : Bool := portUp s 0 && decide (2 ≤ (ingPort s 0).speed)

/-- A recovered clock that was there is lost as the DPLL's reference (R101, R116). -/
def clockLost (was : Bool) (s : State) : State := if s.power.clkActive = 2 ∧ was ∧ !syncE s then { s with tb.refLost := true } else s

/-- d_int of R112 in units of 2^-16 ns: port modes 0 25G without FEC, 1 25G RS-FEC, 2 10G, 3 1G. Transmit and receive. -/
def internalDelay (mode : Nat) : Int × Int :=
  let ns := fun (hundredths : Int) => hundredths * 65536 / 100
  match mode with
  | 0 => (ns 2480, ns 3160)
  | 1 => (ns 9200, ns 14880)
  | 2 => (ns 3840, ns 5220)
  | _ => (ns 11200, ns 18640)

/-- An event message type: Sync, Delay_Req, Pdelay_Req, Pdelay_Resp. -/
def ptpEvent (type : Nat) : Bool := decide (type ≤ 3)

/-- Port mode of a speed code: 0 25G without FEC, 1 25G RS-FEC, 2 10G, 3 1G (R112, R146). -/
def speedMode (speed : Nat) : Nat := if speed = 1 then 3 else if speed = 2 then 2 else if speed = 3 then 0 else 1

/-- Latencies of the mode that a port runs. -/
def portDelay (s : State) (port : Nat) : Int × Int := internalDelay (speedMode (ingPort s port).speed)

/-- Big-endian bytes of a number: PTP's network order. -/
def beBytes (n w : Nat) : List Byte := (leBytes n w).reverse

/-- A PTP Timestamp: 48 bits of seconds, 32 bits of nanoseconds; the fraction of a nanosecond goes to the correctionField (log 127). -/
def ptpStamp (t : Int) : List Byte :=
  let ns := (t / 65536).toNat
  beBytes 6 (ns / 1000000000) ++ beBytes 4 (ns % 1000000000)

/-- A PTP message of this instance: header and body (IEEE 1588-2019, which R110 names; log 127). -/
def ptpBytes (s : State) (port type seq : Nat) (twoStep : Bool) (corr : Int) (logInterval : Nat) (body : List Byte) : List Byte :=
  [BitVec.ofNat 8 (type + (if s.tb.profile = 1 then 16 else 0)), 2] ++ beBytes 2 (34 + body.length) ++ [BitVec.ofNat 8 s.tb.domain, 0]
    ++ beBytes 2 (if twoStep then 512 else 0) ++ beBytes 8 (unsigned 64 corr) ++ beBytes 4 0 ++ beBytes 8 Config.clockIdentity.toNat
    ++ beBytes 2 (port + 1) ++ beBytes 2 seq ++ [0, BitVec.ofNat 8 (unsigned 8 (signed 4 logInterval))] ++ body

/-- Ones' complement sum of 16-bit words, as the UDP checksum adds. -/
def onesSum : List Byte → Nat
  | a :: b :: t => let n := a.toNat * 256 + b.toNat + onesSum t
                   n % 65536 + n / 65536
  | _ => 0

/-- The frame kind of a port's transport: its EtherType (R110). -/
def ptpKind (p : PtpPort) : Nat := if p.transport = 0 then 0x88F7 else if p.transport = 1 then 0x0800 else 0x86DD

/-- A message on the port's transport. Over UDP a one-step Sync carries checksum 0 over IPv4; over IPv6 the two octets behind the message are
rewritten so that the checksum firmware made for a zero originTimestamp stays valid (R111). The checksum that firmware makes is a free value. -/
def ptpFrame (s : State) (p : PtpPort) (type : Nat) (inserted : List Byte) (msg : List Byte) : List Byte :=
  if p.transport = 0 then msg else
  let comp := if p.transport = 2 then beBytes 2 ((65535 - onesSum inserted % 65535) % 65535) else []
  let sum := if p.transport = 1 ∧ inserted ≠ [] then 0 else (Config.freeWord s.fresh).toNat % 65536
  let ports := if ptpEvent type then 319 else 320
  beBytes 2 ports ++ beBytes 2 ports ++ beBytes 2 (8 + msg.length + comp.length) ++ beBytes 2 sum ++ msg ++ comp

/-- Entries of a port in a time-stamp queue. -/
def stampsOf (l : List Stamp) (port : Nat) : List Stamp := l.filter (fun e => e.port == port)

/-- The egress stamp of an event message: the corrected time, or none and a count where the port's queue is full (R112, R113). -/
def stampOut (s : State) (port type seq sub : Nat) : Option Int × State :=
  let t := time16 s + (sub : Int) + (portDelay s port).1 + (ptpPort s port).extTx.toInt
  if 64 ≤ (stampsOf s.tb.egress port).length then (none, { s with tb.unstamped := s.tb.unstamped + 1 })
  else (some t, { s with tb.egress := s.tb.egress ++ [{ port := port, seq := seq, type := type, gen := s.tb.gen, time := t }] })

/-- The ingress stamp of an event message (R112, R113). -/
def stampIn (s : State) (port type seq sub : Nat) : Option Int × State :=
  let t := time16 s + (sub : Int) - (portDelay s port).2 - (ptpPort s port).extRx.toInt
  if 64 ≤ (stampsOf s.tb.ingress port).length then (none, { s with tb.unstamped := s.tb.unstamped + 1 })
  else (some t, { s with tb.ingress := s.tb.ingress ++ [{ port := port, seq := seq, type := type, gen := s.tb.gen, time := t }] })

/-- Send a general message of a port. -/
def sendPtp (s : State) (port type seq : Nat) (twoStep : Bool) (corr : Int) (logInterval : Nat) (body : List Byte) : State :=
  let p := ptpPort s port
  sendMgmt s port (ptpKind p) (ptpFrame s p type [] (ptpBytes s port type seq twoStep corr logInterval body))

/-- Send an event message: a one-step Sync carries its egress time, written at the PCS (R111); the answer is its time-stamp. -/
def sendEvent (s : State) (port type seq sub : Nat) (twoStep : Bool) (logInterval : Nat) (body : List Byte) : Option Int × State :=
  let p := ptpPort s port
  let t := time16 s + (sub : Int) + (portDelay s port).1 + p.extTx.toInt
  let r := stampOut s port type seq sub
  let one := type = 0 ∧ !twoStep
  let body := if one then ptpStamp t else body
  (r.1, sendMgmt r.2 port (ptpKind p) (ptpFrame r.2 p type (if one then body else []) (ptpBytes s port type seq twoStep (if one then t % 65536 else 0) logInterval body)))

/-- Delay_Req answered with its ingress time: at most 4,096 in the running second of a port, the excess counted (R110). A Delay_Req without a
time-stamp is not answered (R113). -/
def answerReq (s : State) (m : PtpMsg) (t4 : Option Int) : State :=
  let sec := s.up / 1000000000
  let c := Tbl.at (sec, 0) s.tb.reqCount m.port
  let n := if c.1 = sec then c.2 else 0
  let p := ptpPort s m.port
  if 4096 ≤ n then setPtp s m.port { p with reqDropped := p.reqDropped + 1 }
  else match t4 with
    | none => s
    | some t =>
      let s := { s with tb.reqCount := s.tb.reqCount.put m.port (sec, n + 1), tb.ingress := s.tb.ingress.filter (fun e => !(e.port == m.port && e.type == 1 && e.seq == m.seq)) }
      sendPtp s m.port 9 m.seq false (m.corr - t % 65536) p.logDelay (ptpStamp t)

/-- Pdelay_Req answered, two-step: Pdelay_Resp with its receipt time, then the time at which the answer left (R110, R113, R114). The answer
leaves at a free instant within the TIME cycle. -/
def answerPeer (s : State) (m : PtpMsg) (t2 : Option Int) : State :=
  let s := { s with tb.ingress := s.tb.ingress.filter (fun e => !(e.port == m.port && e.type == 2 && e.seq == m.seq)) }
  match t2 with
  | none => s
  | some t =>
    let r := sendEvent (tickFresh s) m.port 3 m.seq ((Config.freeWord s.fresh).toNat % 131072) true 15 (ptpStamp t)
    match r.1 with
    | none => r.2
    | some u =>
      let s := { r.2 with tb.egress := r.2.tb.egress.filter (fun e => !(e.port == m.port && e.type == 3 && e.seq == m.seq)) }
      sendPtp s m.port 10 m.seq false (m.corr + u % 65536 - t % 65536) 15 (ptpStamp u)

/-- The stamp of a request that an answer names; firmware has then read it and older ones of its kind. -/
def takeRequest (s : State) (port type seq : Nat) : Option Stamp × State :=
  match s.tb.egress.find? (fun e => e.port == port && e.type == type && e.seq == seq) with
  | some e => (some e, { s with tb.egress := s.tb.egress.filter (fun x => !(x.port == port && x.type == type)) })
  | none => (none, s)

/-- A Sync of the parent: its t1 is known, or comes with the Follow_Up (R114). -/
def takeSync (s : State) (m : PtpMsg) : State :=
  setPtp s m.port { ptpPort s m.port with sync := if m.type = 0 ∧ m.twoStep then none else some (m.seq, m.time + m.corr) }

/-- Delay_Resp: t4 - t3 of its exchange, t4 less the correction it carries (R114). -/
def takeDelay (s : State) (m : PtpMsg) : State :=
  match takeRequest s m.port 1 m.seq with
  | (some e, s) => setPtp s m.port { ptpPort s m.port with delay := some (m.time - m.corr - e.time, e.gen) }
  | (none, s) => s

/-- Pdelay_Resp and its Follow_Up: the mean link delay from t1 to t4, where the port's own time-stamps carry one generation (R109, R114). -/
def takePeer (s : State) (m : PtpMsg) (t4 : Option Int) : State :=
  let p := ptpPort s m.port
  if m.type = 10 then
    match p.pdelay with
    | some (seq, d, t2) =>
      if seq = m.seq then setPtp s m.port { p with pdelay := none, link := some ((d - (m.time + m.corr - t2)) / 2) } else s
    | none => s
  else
    let s := { s with tb.ingress := s.tb.ingress.filter (fun e => !(e.port == m.port && e.type == 3 && e.seq == m.seq)) }
    match takeRequest s m.port 2 m.seq, t4 with
    | (some e, s), some t =>
      if e.gen ≠ s.tb.gen then s
      else if m.twoStep then setPtp s m.port { p with pdelay := some (m.seq, t - e.time, m.time - m.corr) }
      else setPtp s m.port { p with link := some ((t - e.time - m.corr) / 2) }
    | (_, s), _ => s

/-- domainNumber of the instance: 0 under 802.1AS (R110). -/
def ptpDomain (s : State) : Nat := if s.tb.profile = 1 then 0 else s.tb.domain

/-- PTP_MESSAGE_RX (R110 to R114). The best master clock algorithm's choice of the parent comes with the message (log 127). -/
def execPtpMessageRx (m : PtpMsg) (s : State) : Host.Outcome State Fault Refusal :=
  let p := ptpPort s m.port
  if 10 ≤ m.port ∨ !p.enable ∨ m.transport ≠ p.transport then .next s
  else if m.unsupported ∨ m.domain ≠ ptpDomain s then .next { s with tb.unsupported := s.tb.unsupported + 1 }
  else
    let r := if ptpEvent m.type then stampIn s m.port m.type m.seq m.sub else (none, s)
    let s := r.2
    let slave := p.role ≠ 0 ∧ m.fromParent
    match m.type with
    | 0 => .next (if slave then takeSync s m else s)
    | 8 => .next (if slave then takeSync s m else s)
    | 1 => .next (if p.role = 1 ∨ peerDelay s p then s else answerReq s m r.1)
    | 9 => .next (if slave ∧ !peerDelay s p then takeDelay s m else s)
    | 2 => .next (if peerDelay s p then answerPeer s m r.1 else s)
    | 3 => .next (if peerDelay s p then takePeer s m r.1 else s)
    | 10 => .next (if peerDelay s p then takePeer s m none else s)
    | 11 => .next (if slave ∧ m.utcValid then { s with tb.utcValid := true, tb.utcOffset := m.utcOffset % 65536 } else s)
    | 13 => .next (sendPtp s m.port 13 m.seq false 0 15 [])
    | _ => .next s

/-- A port sends a message of this type: Sync and Announce as a master, and, under 802.1AS, where it is asCapable; the delay request of its
mechanism (R110, R114). -/
def ptpSends (s : State) (p : PtpPort) (type : Nat) : Bool :=
  match type with
  | 0 | 11 => p.role != 1 && asCapable s p
  | 1 => p.role != 0 && !peerDelay s p
  | 2 => peerDelay s p
  | _ => false

/-- PTP_MESSAGE_TX: the interval of a message of a port expires and it leaves: a Sync, one-step with its egress time or followed by it, an
Announce, or a delay request (R110 to R113). -/
def execPtpMessageTx (m : PtpMsg) (s : State) : Host.Outcome State Fault Refusal :=
  let p := ptpPort s m.port
  if 10 ≤ m.port ∨ !p.enable ∨ !ptpSends s p m.type then .next s
  else if m.type = 11 then .next (sendPtp s m.port 11 m.seq false 0 0 (Config.freeBytes s.fresh))
  else
    let two := m.type = 0 ∧ !p.oneStep
    let r := sendEvent s m.port m.type m.seq m.sub two (if m.type = 0 then p.logSync else p.logDelay) (List.replicate 10 0)
    match r.1 with
    | some t =>
      if two then
        let s := { r.2 with tb.egress := r.2.tb.egress.filter (fun e => !(e.port == m.port && e.type == 0 && e.seq == m.seq)) }
        .next (sendPtp s m.port 8 m.seq false (t % 65536) p.logSync (ptpStamp t))
      else .next r.2
    | none => .next r.2

/-! ### PPS and 10 MHz (R116) -/

/-- The field die runs its firmware on supply. -/
def fieldRuns (s : State) : Bool := s.fld.powered && s.fld.fwRunning

/-- Rate of the field die's counter against device time since the last exchange, in ppb: its oscillator's error, which is free, and its servo's
correction (R117). -/
def fieldPpb (s : State) : Rat := s.fldT.y + (Config.fieldOsc s.fldT.lastAt : Rat)

/-- Field time now, units of 2^-16 ns (R117). -/
def fieldTime (s : State) : Int :=
  time16 s + s.fldT.off + (((s.up - s.fldT.lastAt : Nat) : Rat) * 65536 * fieldPpb s / 1000000000).floor

/-- Move device time forward until field time reaches an instant in ns. -/
def advanceField (s : State) (t : Int) : State :=
  let left : Rat := ((t * 65536 - fieldTime s : Int) : Rat) / 65536
  advanceTo s (s.now + (left / (1 + fieldPpb s / 1000000000)).ceil.toNat)

/-- PPS_IN_EDGE: an edge of PPS_IN, or of FLD_PPS_IN stamped in field time, `sub` units of 2^-16 ns after the present
TIME cycle. It carries out a pending SET_TOD, or yields a PPS sample (R104, R108, R109, R116, R118). In invalid field time the field die discards
its edge and counts it (R119). -/
def execPpsInEdge (field falling : Bool) (sub : Nat) (s : State) : Host.Outcome State Fault Refusal :=
  if field ≠ s.tb.ppsSel ∨ falling ≠ s.tb.inFalling ∨ (field ∧ !fieldRuns s) then .next s else
  if field ∧ !s.fldT.valid then .next { s with fldT.discarded := s.fldT.discarded + 1 } else
  let stamp := (if field then fieldTime s else time16 s) + (sub : Int) - (s.tb.inDelay * 16384 : Nat)
  let s := { s with tb.pps := some (stamp, if field then s.fldT.gen else s.tb.gen, field && s.fldT.hold) }
  match s.tb.setTod with
  | some tod =>
    let s := { s with tb.setTod := none }
    .next (stepDue s ((tod * 65536 : Nat) - stamp))
  | none =>
    let sec : Int := 65536000000000
    let r := stamp % sec
    if field ∧ s.fldT.gen ≠ s.tb.gen then .next s
    else .next (servoSample s 2 (if sec / 2 < r then r - sec else r))

/-- PPS and 10 MHz outputs are driven (R116). -/
def ppsDriven (s : State) : Bool := s.tb.outForce || s.tb.servo == .locked || s.tb.servo == .holdover

/-- Pin code of CLK10M_OUT. -/
def pinClk10m : Nat := 3

/-- The next whole second of a time scale, less out_delay, at or after an instant; units of 2^-16 ns (R116). -/
def ppsInstant (s : State) (now : Int) : Int :=
  let sec : Int := 65536000000000
  let adv : Int := (s.tb.outDelay * 16384 : Nat)
  (now + adv + sec - 1) / sec * sec - adv

/-- PPS_OUT_EDGE: the next whole DT64 second, advanced by out_delay. The field die, where it runs in valid field time, places the edge of
FLD_PPS_OUT at that second of field time (R116). -/
def execPpsOutEdge (s : State) : Host.Outcome State Fault Refusal :=
  let t := ppsInstant s (time16 s)
  let u := ppsInstant s (fieldTime s)
  let s := advanceTo s (t / 65536).toNat
  if !ppsDriven s then .next s else
  let s := if s.tb.outEn then emit (emit s (.pps false t s.tb.outWidth)) (.pin pinClk10m 1) else s
  .next (if s.tb.fldOutEn && fieldRuns s && s.fldT.valid then emit s (.pps true u s.tb.outWidth) else s)

/-- CLK10M_GATE: the measured frequency offset in units of 2^-6 ppb, none where no clock is present; valid within ±50 ppm (R116). -/
def execClk10mGate (freq : Option Int) (s : State) : Host.Outcome State Fault Refusal :=
  .next { s with tb.clk10m := match freq with
    | some f => if f.natAbs ≤ 3200000 then some f else none
    | none => none }

/-! ### Trigger instants -/

def cadOf (s : State) (c : Nat) : Cadence := Tbl.at Cadence.reset s.trig.cads c
def setCad (s : State) (c : Nat) (x : Cadence) : State := { s with trig.cads := s.trig.cads.put c x }

/-- Boundaries of R19. -/
def Cadence.acqStart (c : Cadence) (n : Nat) : Nat := c.phase + n * c.period
def Cadence.tov (c : Cadence) (n : Nat) : Nat := c.acqStart n + c.tovOffset
def Cadence.close (c : Cadence) (n : Nat) : Nat := c.acqStart n + c.acqWindow + c.closeMargin
def Cadence.deadline (c : Cadence) (n : Nat) : Nat := c.close n + c.budget * 1000

/-- The cadence lets epoch n run. -/
def Cadence.runs (c : Cadence) (n : Nat) : Bool :=
  c.st != .stopped && decide (c.start ≤ n) && (match c.last with
    | some l => decide (n ≤ l)
    | none => true)

/-- The first selected epoch at or after `n` (R126). -/
def selectedFrom (divider phase n : Nat) : Nat := n + (phase + (divider + 1) - n % (divider + 1)) % (divider + 1)

/-- The next epoch for which an output fires at or after an instant, with its trigger instant (R126, R127). -/
def nextTrigger (s : State) (o : TrigOut) (from_ : Nat) : Option (Nat × Nat) :=
  let c := cadOf s o.cadence
  if !o.enable ∨ c.period = 0 ∨ o.divider < o.divPhase then none else
  let after := match o.fired with
    | some f => f + 1
    | none => 0
  let reach := (from_ - (c.phase + o.offset) + c.period - 1) / c.period
  let n := selectedFrom o.divider o.divPhase (max c.start (max after reach))
  if c.runs n then some (n, c.acqStart n + o.offset) else none

/-- The action of a monitor asks for an acknowledgement. -/
def wantsAck (s : State) (m : TrigMon) : Bool :=
  m.action && (s.trig.actions.find m.source).any (·.ackReq)

/-- An instant has its frame, and its acknowledgement where one is asked for (R132). -/
def instantMet (ack : Bool) (i : Instant) : Bool := i.matched && (i.acked || !ack)

/-- Instants at the head whose window is over and that were met leave the list; each ends a run of MISSED (R132, R133). -/
def TrigMon.settle (m : TrigMon) (ack : Bool) (now : Nat) : TrigMon :=
  let rest := m.instants.dropWhile (fun i => instantMet ack i && decide (i.time + m.latMax * 1000 < now))
  { m with instants := rest, missRun := if rest.length = m.instants.length then m.missRun else 0 }

/-- A monitor watches a source. -/
def TrigMon.watches (m : TrigMon) (action : Bool) (source : Nat) : Bool := m.enable && m.action == action && m.source == source

/-- A trigger instant reaches the streams that monitor its source (R132). -/
def noteInstant (s : State) (action : Bool) (source t : Nat) : State :=
  { s with trig.mons := s.trig.mons.mapV (fun _ m =>
      if m.watches action source then
        let m := m.settle (wantsAck s m) s.now
        { m with instants := m.instants ++ [{ time := t, matched := false, acked := false }] }
      else m) }

/-- A trigger output is driven: its bank has a mode, the field die runs in valid field time without overvoltage, the state is P0 to P2 (R128, R591). -/
def outputLive (s : State) (k : Nat) : Bool :=
  fieldRuns s && s.fldT.valid && !s.fld.overvoltage && decide (s.power.pstate ≤ 2) && Tbl.at 0 s.fld.banks (k / 8) != 0

/-- The instant of epoch n reaches an output: the active edge stands at field time `t` on its line, at the level of its polarity; a line that is
off after an overload places no edge, and its instant still counts for the monitors (R126, R127, R592). -/
def fireOutput (s : State) (k n t : Nat) (o : TrigOut) : State :=
  if (s.fld.overload.find k).isSome then noteInstant { s with trig.outs := s.trig.outs.put k { o with fired := some n } } false k t
  else
    let s := { s with trig.outs := s.trig.outs.put k { o with fired := some n, activeUntil := some (t + o.width) } }
    noteInstant (emit s (.edge k n ((t * 65536 : Nat) : Int) true (!o.activeLow) s.fldT.hold)) false k t

/-- The instants of one output inside a forward step of field time fire at the step, each with a TRIGGER_SHIFTED record; none before the output
resumes (R119, R127). -/
def shiftOut (before after : Int) (k : Nat) : Nat → State → State
  | 0, s => s
  | fuel + 1, s =>
    match s.trig.outs.find k with
    | none => s
    | some o =>
      match nextTrigger s o (max o.resumeAt (before / 65536 + 1).toNat) with
      | none => s
      | some (n, t) =>
        if after < ((t * 65536 : Nat) : Int) then s
        else
          let s := fireOutput s k n (after / 65536).toNat o
          shiftOut before after k fuel (raise s { reportOf s sevWarn 11 k 0x0101 with detail := n % 2 ^ 32 })

/-- A forward step of field time shifts the instants inside it on every live output (R119, R127, R128). -/
def shiftTriggers (s : State) (before after : Int) : State :=
  s.trig.outs.foldl (fun s p =>
    if outputLive s p.1 then shiftOut before after p.1 (((after - before) / 65536).toNat / (cadOf s p.2.cadence).period + 2) s else s) s

/-! ### The field link (R117 to R119) -/

/-- The field die's time steps to device time. -/
def fieldStep (s : State) (theta : Int) : State :=
  let before := time16 s + theta
  let s := { s with fldT.off := 0, fldT.gen := s.tb.gen, fldT.inRun := 0 }
  let s := if s.fldT.valid then s else
    { s with fldT.valid := true, trig.outs := s.trig.outs.mapV (fun _ o => { o with resumeAt := s.now + 1000000 }) }
  if theta < 0 then shiftTriggers s before (time16 s) else s

/-- A field-link frame with a bad CRC is discarded and counted (R587). -/
def badFrame (s : State) : State := { s with fld.crc := satAdd 16 s.fld.crc 1 }

/-- FIELD_TIME_MARKER: an exchange with its four time-stamps in units of 2^-16 ns, the last of which is missing where a frame had a bad CRC; the field die's reports
come with it (R117, R119, R522, R607). -/
def execFieldTimeMarker (ta tb tc : Int) (td : Option Int) (s : State) : Host.Outcome State Fault Refusal :=
  if !s.fldT.linkUp ∨ !s.fld.fwRunning then .next s
  else match td with
  | none => .next (badFrame s)
  | some td =>
  let theta := ((tb - ta) - (td - tc)) / 2 - s.fldT.aFld.toInt
  let tau := s.up - s.fldT.lastAt
  let s := { s with fldT.error := satSigned 16 (theta / 4096), fldT.delay := ((tb - ta) + (td - tc)) / 2, fldT.off := theta, fldT.lastAt := s.up }
  if !s.fldT.valid ∨ s.fldT.gen ≠ s.tb.gen ∨ thetaOver theta 1000 then
    .next (fieldReport { fieldStep s theta with fldT.st := if s.fldT.st = .locked ∧ s.fldT.valid then .locked else .acquire })
  else
    let lim : Rat := if s.fldT.st = .acquire then 10000 else (s.tb.freqLim : Rat)
    let r := servoStep (1 / 5) (1 / 100) lim s.fldT.i theta tau
    let run := if thetaOver theta 5 then 0 else s.fldT.inRun + 1
    let st := if s.fldT.st = .acquire ∧ 16 ≤ run then FldState.locked else s.fldT.st
    .next (fieldReport { s with fldT.i := r.1, fldT.y := r.2, fldT.inRun := run, fldT.st := st, fldT.hold := s.fldT.hold && st != .locked })

/-- The field link is down: the device holds field time over, with a record (R119). -/
def fieldLinkDown (s : State) : State :=
  if s.fldT.linkUp then raise { s with fldT.linkUp := false, fldT.st := .holdover, fldT.hold := true, fldT.inRun := 0 } (chipReport s sevWarn 0x07 0x0182) else s

/-- FIELD_LINK_DOWN: the eighth missed marker (R119). -/
def execFieldLinkDown (s : State) : Host.Outcome State Fault Refusal :=
  .next (fieldLinkDown s)

end Sys2Proof.Machine
end

