-- ==== Sys2Proof/Machine/Streams.lean ====
section
/-! DEFINITION. Stream states and the configuration in force: which objects guarded work reads, which configuration a unit works with between epochs (spec/01_working_model.md R18, R28, spec/19_safety_concept.md R440, spec/08_splice_alignment.md R192 to R194). -/

namespace Sys2Proof.Machine

/-- The configuration in force for a cadence: as of its arming or its latest acq_start while it is ARMED or RUNNING (R28; log entry 31). -/
def cfgFor (s : State) (c : Nat) : Cfg :=
  if (cadOf s c).st = .stopped then s.cfg else Tbl.at s.cfg s.live c

/-- A stream's configuration in force, under its bound cadence (R28). -/
def streamCfg (s : State) (k : Nat) : Option StreamCfg :=
  match s.cfg.streams.find k with
  | some x => (((cfgFor s x.cadence).streams.find k).getD x)
  | none => none

/-- The streams with their configuration in force, and those of a partner (R28). -/
def liveStreams (s : State) : List (Nat × StreamCfg) := s.cfg.streams.filterMap (fun x => (streamCfg s x.1).map (fun c => (x.1, c)))
def liveStreamsOf (s : State) (p : Nat) : List (Nat × StreamCfg) := (liveStreams s).filter (fun x => !x.2.field && x.2.source == p)

def streamOf (s : State) (k : Nat) : Stream := Tbl.at Stream.reset s.ing.streams k
def setStream (s : State) (k : Nat) (x : Stream) : State := { s with ing.streams := s.ing.streams.put k x }
def updStream (s : State) (k : Nat) (f : Stream → Stream) : State := setStream s k (f (streamOf s k))

/-- No condition of R18 stands against a stream. -/
def Stream.isClear (x : Stream) : Bool := !x.silent && !x.suspect && !x.frozen && x.contested.isNone

/-- A stream is ACTIVE (R18): enabled, and in none of the other states. -/
def Stream.isActive (x : Stream) : Bool := x.enabled && x.isClear

/-- A STREAM_ENABLE of the stream has been accepted, its effect may be still to come (R28, R553). -/
def Stream.isOn (x : Stream) : Bool := x.enabled || x.joining || x.starting.isSome

/-- The stream contributes to an epoch as far as its state goes: enabled when the epoch started, in none of the states of
R18, and not back only from a later epoch on (R18, R28, R173, R193, R261). -/
def Stream.serves (x : Stream) (e : Epoch) (k : Nat) : Bool :=
  e.enabledAt.contains k && x.isClear && x.backFrom.all (fun b => b.1 != e.cadence || decide (b.2 ≤ e.epoch))

/-- A camera frame in reception of a stream ends with it. -/
def dropReception (s : State) (k : Nat) : State := { s with ing.cams := s.ing.cams.filter (fun f => f.stream ≠ k) }

/-- A stream of a cadence. -/
def boundTo (s : State) (c k : Nat) : Bool := (s.cfg.streams.find k).any (fun y => y.cadence == c)

/-- The waiting disables that `sel` picks take effect. -/
def disableLeaving (s : State) (sel : Nat → Stream → Bool) : State :=
  let gone := fun (k : Nat) (x : Stream) => x.leaving && sel k x
  { s with
    ing.cams := s.ing.cams.filter (fun f => !gone f.stream (streamOf s f.stream))
    ing.streams := s.ing.streams.mapV (fun k x => if gone k x then { x with enabled := false, leaving := false } else x) }

/-- Disables that still wait take effect once the cadence is STOPPED (R28; log entry 120). -/
def stopStreams (s : State) (c : Nat) : State := disableLeaving s (fun k _ => boundTo s c k)

/-- Enables and disables that take effect at an acq_start of the cadence (R28, R553). -/
def joinStreams (s : State) (c : Nat) : State :=
  let s := disableLeaving s (fun k x => boundTo s c k && x.askedAt != some s.up)
  { s with ing.streams := s.ing.streams.mapV (fun k x =>
      if x.joining ∧ x.askedAt ≠ some s.up ∧ boundTo s c k then { x with enabled := true, silent := false, joining := false } else x) }

/-- A cadence whose last epoch is over becomes STOPPED (R125). -/
def endCadence (s : State) (c : Nat) : State :=
  let x := cadOf s c
  match x.last with
  | some l =>
    if x.st = .running ∧ l < x.nextDeadline ∧ !(s.epochs.any (fun e => e.cadence == c && !e.over s)) then
      stopStreams (setCad s c { x with st := .stopped, last := none }) c
    else s
  | none => s

/-- Release what a complete epoch holds; it stays until its stage windows are over. -/
def dropComplete (s : State) (c n : Nat) : State :=
  match epochOf s c n with
  | some e =>
    if e.over s ∧ e.complete then
      let s := { s with spl.holds := s.spl.holds.filter (fun h => !(h.1 == c && h.2.1 == n)) }
      if stagesOver s e then dropEpoch s c n else s
    else s
  | none => s

/-- Some work of an epoch has ended: what is complete is released, and a cadence that waited for it stops (R125, R183). -/
def releaseEpoch (s : State) (c n : Nat) : State := endCadence (dropComplete s c n) c

/-- Stream kinds, coded as in R150. -/
def kindCamera : Nat := 0
def kindScan : Nat := 1
def kindImu : Nat := 2
def kindEncoder : Nat := 3
def kindTag : Nat := 4
def kindDigital : Nat := 5

/-- Streams that guarded work reads, by the applied image: inputs of guarded flows, parameters it gives, measurements of its
joints, members of its ego groups, volumes and grids (R131, R198, R440; log entry 32). -/
def Image.reads (i : Image) (k : Nat) : Bool :=
  i.inputs.any (fun p => p.2.any (fun r => !r.isFlow && r.index == k)) || (i.streams.find k).isSome
    || i.joints.any (fun p => p.2.primary == k || p.2.check == some k)
    || i.egos.any (fun p => p.2.streams.contains k) || i.volumes.any (fun p => p.2.members.any (fun m => m.2 == k))
    || i.grids.any (fun p => p.2.sources.any (fun m => m.2.stream == k))

/-- Streams that guarded work reads. -/
def streamGuarded (s : State) (k : Nat) : Bool := s.sec.image.any (fun i => i.reads k)

/-- Guarded flows that read a stream directly or through a joint, group, volume or grid of the image. -/
def flowsOfStream (s : State) (k : Nat) : List Nat :=
  match s.sec.image with
  | none => []
  | some i => (i.inputs.filter (fun p => p.2.any (fun r => !r.isFlow && r.index == k))).map (·.1)

/-- Severity of a stream's report where guarded work reads it (R263). -/
def streamSev (s : State) (k : Nat) : Nat := sevOf (streamGuarded s k)

/-- A report about a stream (source kind 5). -/
def streamReport (s : State) (severity k event : Nat) : Report :=
  { reportOf s severity 5 k event with guarded := streamGuarded s k }

/-- A usable sample but for its stream's state (R180). -/
def usableSample (c : StreamCfg) (x : Sample) : Bool :=
  !x.test && !x.frozen && (!x.partial_ || c.acceptPartial)
    && (c.kind != kindEncoder || bitsOf (ofLe ((x.payload.drop 12).take 2)) 1 2 == 0)
    && (c.kind != kindImu || ofLe ((x.payload.drop 24).take 4) &&& c.statusMask == 0)

/-- The drift check's part of a commit: δ of a sensor-timed usable sample (R192). -/
def noteDelta (c : StreamCfg) (x : Sample) (st : Stream) : Stream :=
  if x.sensor ∧ usableSample c x then
    let d : Int := (x.ingress : Int) - (x.time : Int) - (c.latency : Nat)
    { st with delta := match st.delta with
      | some e => some (min d e)
      | none => some d }
  else st

/-- δ_min of a stream at a close: of a stream ACTIVE or TIME_SUSPECT that is not exempt (R180, R192, R193). -/
def Stream.deltaMin (x : Stream) (off : Bool) : Option Int := if off ∨ x.frozen ∨ x.contested.isSome then none else x.delta

/-- The drift check is off for a stream: advisory ones only (R192, R198). -/
def driftOff (s : State) (k : Nat) (sc : StreamCfg) : Bool := sc.driftOff && !streamGuarded s k

/-- The drift check of one stream at a close of its cadence (R192, R193). -/
def driftCheck (s : State) (k period next : Nat) (off : Bool) : State :=
  let x := streamOf s k
  match x.deltaMin off with
  | none => setStream s k { x with delta := none }
  | some d =>
    let s := setStream s k { x with delta := none, deltaShown := some d }
    let x := streamOf s k
    if d.natAbs ≤ period then
      let run := min 8 (x.run + 1)
      setStream s k { x with run := run, back := if x.suspect ∧ run = 8 ∧ x.back = none then some next else x.back }
    else if x.suspect then setStream s k { x with run := 0, back := none }
    else
      raise (setStream s k { x with suspect := true, run := 0, back := none, suspects := satAdd 8 x.suspects 1 })
        (streamReport s sevWarn k 0x0105)

/-- What a close does to one stream bound to the cadence: SILENT, drift, and the count of closes in CONTESTED (R193, R194, R261). -/
def closeStream (s : State) (c n k : Nat) (sc : StreamCfg) : State :=
  let cad := cadOf s c
  let x := streamOf s k
  if !x.enabled then s else
  let since := cad.acqStart n - cad.period
  let quiet : Bool := match x.lastCommit with
    | some t => decide (t < since)
    | none => true
  let s := driftCheck s k cad.period cad.nextStart (driftOff s k sc)
  updStream s k (fun x => { x with silent := x.silent || quiet, contested := x.contested.map (· - 1) })

/-- STREAM_TIME_RESTORED: after eight consistent epochs, at the next acq_start (R193). -/
def execStreamTimeRestored (stream : Nat) (s : State) : Host.Outcome State Fault Refusal :=
  let x := streamOf s stream
  match x.back, streamCfg s stream with
  | some n, some c =>
    if !x.suspect then .next s else
    let s := advanceTo s ((cadOf s c.cadence).acqStart n)
    .next (raise (setStream s stream { x with suspect := false, back := none, backFrom := some (c.cadence, n) }) (streamReport s sevInfo stream 0x0106))
  | _, _ => .next s

/-- CONTESTED_EXPIRY: at the eighth close after entry the stream leaves CONTESTED; it contributes from the next acq_start (R261). -/
def execContestedExpiry (stream : Nat) (s : State) : Host.Outcome State Fault Refusal :=
  let x := streamOf s stream
  if x.contested = some 0 then
    let from_ := (streamCfg s stream).map (fun c => (c.cadence, (cadOf s c.cadence).nextStart))
    .next (raise (setStream s stream { x with contested := none, backFrom := from_ }) (streamReport s sevInfo stream 0x0106))
  else .next s

/-- A stream enters CONTESTED (R261, R263). -/
def contestStream (s : State) (k event : Nat) : State :=
  let x := streamOf s k
  let s := setStream s k { x with contested := some 8 }
  raise s { streamReport s (streamSev s k) k event with flows := flowsOfStream s k }

end Sys2Proof.Machine
end

