-- ==== Sys2Proof/Machine/Align.lean ====
section
/-! DEFINITION. Time alignment: the epoch table that the Splice unit forms from what stood at a close (spec/08_splice_alignment.md R178 to R196). -/

namespace Sys2Proof.Machine

/-! ### FP64 arithmetic on encodings -/

def f64Add (a b : Nat) : Nat := (addV fp64 (decodeF fp64 a) (decodeF fp64 b)).1
def f64Sub (a b : Nat) : Nat := (addV fp64 (decodeF fp64 a) (decodeF fp64 b).negate).1
def f64Mul (a b : Nat) : Nat := (mulV fp64 (decodeF fp64 a) (decodeF fp64 b)).1
def f64Div (a b : Nat) : Nat := (divV fp64 (decodeF fp64 a) (decodeF fp64 b)).1
def f64Fma (a b c : Nat) : Nat := (fmaV fp64 (decodeF fp64 a) (decodeF fp64 b) (decodeF fp64 c)).1
def f64Sqrt (a : Nat) : Nat := (sqrtV fp64 (decodeF fp64 a)).1
def f64Neg (a : Nat) : Nat := a ^^^ 2 ^ 63
def f64Abs (a : Nat) : Nat := a % 2 ^ 63
def f64Lt (a b : Nat) : Bool := ltV (decodeF fp64 a) (decodeF fp64 b)
def f64Le (a b : Nat) : Bool := let x := decodeF fp64 a; let y := decodeF fp64 b; ltV x y || eqV x y
def f64Max (a b : Nat) : Nat := if f64Lt a b then b else a
def f64Min (a b : Nat) : Nat := if f64Lt b a then b else a
def f64Finite (a : Nat) : Bool := match decodeF fp64 a with | .fin _ _ _ => true | _ => false
def f64One : Nat := 0x3FF0000000000000
def f64Half : Nat := 0x3FE0000000000000

/-- FP64 of an integer, nearest even. -/
def f64Int (i : Int) : Nat := (convF fp64 .overflowInf none (intV i)).1
/-- FP64 of an FP32 encoding, and back (nearest even). -/
def f64Of32 (w : Nat) : Nat := (convF fp64 .overflowInf none (decodeF fp32 w)).1
def f32Of64 (w : Nat) : Nat := (convF fp32 .overflowInf none (decodeF fp64 w)).1
/-- A chain of FMAs in ascending index order, from `acc`. -/
def dot64 (acc : Nat) (xs ys : List Nat) : Nat := (xs.zip ys).foldl (fun a p => f64Fma p.1 p.2 a) acc

/-! ### Samples -/

/-- Sample time in units of 2^-16 ns (DT64 and DT16F). -/
def Sample.at16 (x : Sample) : Nat := x.time * 65536 + x.frac

/-- A four-byte and an eight-byte little-endian field of a payload. -/
def word32 (bs : List Byte) (i : Nat) : Nat := ofLe ((bs.drop i).take 4)
def word64 (bs : List Byte) (i : Nat) : Nat := ofLe ((bs.drop i).take 8)

/-- The flags word of an ENCODER record (R165). -/
def Sample.encFlags (x : Sample) : Nat := ofLe ((x.payload.drop 12).take 2)

/-- Usable samples of a stream for an epoch: its stream ACTIVE, committed before the close (R179, R180). -/
def usableOf (s : State) (e : Epoch) (k : Nat) (c : StreamCfg) : List Sample :=
  if !e.active.contains k then []
  else (streamOf s k).samples.filter (fun x => usableSample c x && decide (x.commit < e.closeAt s))

/-- Before in time, then in index. -/
def Sample.before (x y : Sample) : Bool := decide (x.at16 < y.at16) || (x.at16 == y.at16 && decide (x.index < y.index))

/-- Latest of a list of samples, and earliest. -/
def latestOf (xs : List Sample) : Option Sample :=
  xs.foldl (fun a x => match a with
    | none => some x
    | some y => if y.before x then some x else some y) none
def earliestOf (xs : List Sample) : Option Sample :=
  xs.foldl (fun a x => match a with
    | none => some x
    | some y => if x.before y then some x else some y) none

/-! ### Interpolation (R185, R186) -/

/-- A pair of samples joined by the ratio w: the value v_a + w (v_b − v_a) of each component in FP64. -/
def lerp (w va vb : Nat) : Nat := f64Add va (f64Mul w (f64Sub vb va))

/-- Position of an ENCODER sample in FP64. -/
def Sample.position (x : Sample) : Nat := f64Int (signed 64 (word64 x.payload 0))

/-- The six components of an IMU record in FP64. -/
def Sample.comps (x : Sample) : List Nat := (List.range 6).map (fun i => f64Of32 (word32 x.payload (4 * i)))

/-- FP64 of a time difference in units of 2^-16 ns, and in seconds. -/
def f64Diff (x y : Nat) : Nat := f64Int ((x : Int) - (y : Int))
def f64Sec (x y : Nat) : Nat := f64Div (f64Diff x y) (f64Int 65536000000000)

/-- Counts per second between two samples (log entry 61). -/
def rateOf (a b : Sample) : Nat := f64Div (f64Sub b.position a.position) (f64Sec b.at16 a.at16)

/-- The bracket that R185 takes at an instant: a, b, p. -/
structure Bracket where
  a : Option Sample
  b : Option Sample
  p : Option Sample

def bracketAt (xs : List Sample) (q : Nat) : Bracket :=
  let a := latestOf (xs.filter (fun x => decide (x.at16 ≤ q)))
  { a := a, b := earliestOf (xs.filter (fun x => decide (q < x.at16))),
    p := a.bind (fun y => latestOf (xs.filter (fun x => x.before y))) }

/-- How R185 evaluates a bracket: at a sample, between a and b, beyond a, or not at all. -/
inductive Blend where
  | exactly (a : Sample) (b : Option Sample)
  | between (a b : Sample)
  | beyond (p a : Sample)
  | missing
  deriving DecidableEq, Repr

def blendOf (c : StreamCfg) (xs : List Sample) (q : Nat) : Blend :=
  let k := bracketAt xs q
  match k.a with
  | none => .missing
  | some a =>
    if a.at16 = q then .exactly a k.b else
    match k.b with
    | some b => if c.maxGap * 65536000 < b.at16 - a.at16 ∨ a.gen ≠ b.gen then .missing else .between a b
    | none =>
      match k.p with
      | some p =>
        if q - a.at16 ≤ c.extrapMax * 65536000 ∧ a.at16 - p.at16 ≤ c.maxGap * 65536000 ∧ p.gen = a.gen ∧ p.at16 < a.at16 then .beyond p a else .missing
      | none => .missing

/-- Samples that a blend read; b gives rate, Z and holdover also where t_a = q (R183, R186). -/
def Blend.used : Blend → List Sample
  | .exactly a b => a :: b.toList
  | .between a b => [a, b]
  | .beyond p a => [p, a]
  | .missing => []

/-- Disposition of a blend. -/
def Blend.disp : Blend → Disp
  | .beyond _ _ => .extrapolated
  | .missing => .missing
  | _ => .used

/-- One component at the instant. -/
def Blend.value (x : Blend) (q : Nat) (v : Sample → Nat) : Nat :=
  match x with
  | .exactly a _ => v a
  | .between a b => lerp (f64Div (f64Diff q a.at16) (f64Diff b.at16 a.at16)) (v a) (v b)
  | .beyond p a => f64Add (v a) (f64Mul (f64Div (f64Diff q a.at16) (f64Diff a.at16 p.at16)) (f64Sub (v a) (v p)))
  | .missing => 0

/-- Rate of an ENCODER value. -/
def Blend.rate : Blend → Nat
  | .exactly a (some b) => rateOf a b
  | .exactly _ none => 0
  | .between a b => rateOf a b
  | .beyond p a => rateOf p a
  | .missing => 0

/-- The later sample of a bracket, where there is one. -/
def Blend.upper : Blend → Option Sample
  | .exactly _ b => b
  | .between _ b => some b
  | _ => none

/-- The sample a of a bracket. -/
def Blend.lower : Blend → Option Sample
  | .exactly a _ => some a
  | .between a _ => some a
  | .beyond _ a => some a
  | .missing => none

/-- A value entry (R186). -/
def valueEntry (k : Nat) (c : StreamCfg) (x : Blend) (q : Nat) : ValueEntry :=
  let both := x.lower.toList ++ x.upper.toList
  let imu := c.kind == kindImu
  { stream := k, disp := x.disp, z := c.kind == kindEncoder && x.upper.any (fun b => b.encFlags.testBit 0), holdover := both.any (·.holdover),
    status := if imu then both.foldl (fun m y => m ||| word32 y.payload 24) 0 else 0, imu := imu,
    pos := if imu then 0 else x.value q Sample.position, rate := if imu then 0 else x.rate,
    comps := if imu then (List.range 6).map (fun i => f32Of64 (x.value q (fun y => y.comps.getD i 0))) else [] }

/-! ### Which streams are evaluated (R184) -/

/-- Rig of a stream. -/
def rigOf (cfg : Cfg) (k : Nat) : Option Nat := ((cfg.streams.find k).bind (·.mount)).map (·.1)

/-- Primary and check streams of the joints of a rig. -/
def rigEncoders (cfg : Cfg) (r : Nat) : List Nat :=
  (cfg.joints.filter (fun p => p.2.rig == r)).flatMap (fun p => p.2.primary :: p.2.check.toList)

/-- IMU streams linked to a rig. -/
def rigImus (cfg : Cfg) (r : Nat) : List Nat := (cfg.streams.filter (fun p => p.2.kind == kindImu && p.2.mount.any (fun m => m.1 == r))).map (·.1)

/-- Enabled flows of an epoch's cadence. -/
def epochFlows (e : Epoch) : List Nat := (e.cfg.flows.filter (fun p => p.2.cadence == e.cadence && p.2.enable)).map (·.1)

/-- Streams that the epoch's flows name as inputs. -/
def namedStreams (e : Epoch) : List Nat :=
  (epochFlows e).flatMap (fun f => ((Tbl.at [] e.cfg.inputs f).filter (fun r => !r.isFlow)).map (·.index))

/-- Streams that the steps of a grid read: its enabled sources, and the members of the volume whose points it takes (R248, R253). -/
def gridReads (cfg : Cfg) (g : Nat) : List Nat :=
  match (cfg.grids.find g).filter (·.enable) with
  | none => []
  | some x => (x.sources.map (·.2.stream)) ++ (if x.cp = 0 then [] else ((cfg.volumes.find x.ptUnit).map (fun v => v.members.map (·.2))).getD [])

/-- Streams that a flow reads: its inputs and those of the grid it carries. -/
def flowStreams (cfg : Cfg) (f : Nat) : List Nat :=
  ((Tbl.at [] cfg.inputs f).filter (fun x => !x.isFlow)).map (·.index) ++ (((cfg.flows.find f).bind (·.grid)).map (gridReads cfg)).getD []

/-- Rigs that the epoch's flows use: those of the streams they read, and of the joints that such streams measure. -/
def usedRigs (e : Epoch) : List Nat :=
  let ks := (epochFlows e).flatMap (flowStreams e.cfg)
  (ks.filterMap (rigOf e.cfg) ++ (e.cfg.joints.filter (fun p => ks.contains p.2.primary || p.2.check.any ks.contains)).map (·.2.rig)).eraseDups

/-- The stream is interpolated. -/
def isInterp (c : StreamCfg) : Bool := c.kind == kindImu || c.kind == kindEncoder
/-- The stream contributes members of a window. -/
def isWindow (c : StreamCfg) : Bool := c.kind == kindCamera || c.kind == kindScan || c.kind == kindDigital

/-- Streams evaluated at the TOV query, in stream order. -/
def tovStreams (e : Epoch) : List (Nat × StreamCfg) :=
  let rigs := (usedRigs e).flatMap (rigEncoders e.cfg)
  e.cfg.streams.filter (fun p => isInterp p.2 && (p.2.cadence == e.cadence || rigs.contains p.1 || (namedStreams e).contains p.1))

/-- Streams evaluated at a query of a source stream, in stream order. -/
def queryStreams (e : Epoch) (k : Nat) : List (Nat × StreamCfg) :=
  match rigOf e.cfg k with
  | none => []
  | some r => e.cfg.streams.filter (fun p => isInterp p.2 && ((rigEncoders e.cfg r).contains p.1 || (rigImus e.cfg r).contains p.1))

/-! ### Members (R178, R181) -/

/-- Distance of two instants. -/
def dist (x y : Nat) : Nat := (x - y) + (y - x)

/-- The nearest member to an instant, the earlier of two at equal distance. -/
def nearest (t : Nat) (xs : List Sample) : Option Sample :=
  xs.foldl (fun a x => match a with
    | none => some x
    | some y =>
      if dist x.at16 t < dist y.at16 t ∨ (dist x.at16 t = dist y.at16 t ∧ x.before y) then some x else some y) none

/-- In index order. -/
def insertIndex : List Sample → Sample → List Sample
  | [], x => [x]
  | y :: ys, x => if x.index < y.index then x :: y :: ys else y :: insertIndex ys x

/-- Selected members of a window stream (R181). -/
def membersOf (s : State) (e : Epoch) (k : Nat) (c : StreamCfg) : List Sample :=
  let x := cadOf s e.cadence
  let lo := x.acqStart e.epoch
  let xs := (usableOf s e k c).filter (fun y => decide (lo ≤ y.time) && decide (y.time < lo + x.acqWindow))
  if c.cadence ≠ e.cadence then []
  else if c.kind = kindCamera ∧ !c.selectAll then (nearest (x.tov e.epoch * 65536) xs).toList
  else xs.foldl insertIndex []

/-- The point records of a SCAN payload: 16 bytes each (R163). -/
def scanPoints (bs : List Byte) : Nat := bs.length / 16
/-- The largest dt of a SCAN member. -/
def dtMax (bs : List Byte) : Nat := (List.range (scanPoints bs)).foldl (fun m i => max m (word32 bs (16 * i))) 0

/-! ### Queries (R184, R196) -/

/-- A query with the samples that its values read. -/
structure AQuery where
  query : Query
  reads : List (Nat × Sample)

/-- Evaluate streams at an instant. -/
def evalQuery (s : State) (e : Epoch) (t frac src kind member : Nat) (ks : List (Nat × StreamCfg)) : AQuery :=
  let q := t * 65536 + frac
  let xs := ks.map (fun p => (p.1, p.2, blendOf p.2 (usableOf s e p.1 p.2) q))
  { query := { time := t, frac := frac, source := src, kind := kind, member := member, values := xs.map (fun x => valueEntry x.1 x.2.1 x.2.2 q) },
    reads := xs.flatMap (fun x => x.2.2.used.map (fun y => (x.1, y))) }

/-- Queries of one selected member. -/
def memberQueries (s : State) (e : Epoch) (k : Nat) (c : StreamCfg) (x : Sample) : List AQuery :=
  let ks := queryStreams e k
  if c.kind = kindCamera then [evalQuery s e x.time x.frac k 1 x.index ks]
  else if c.kind = kindScan then
    evalQuery s e x.time x.frac k 2 x.index ks
      :: (if scanPoints x.payload = 0 then [] else [evalQuery s e (x.time + dtMax x.payload) x.frac k 3 x.index ks])
  else []

/-- Ascending time; on a tie TOV first, then kind, stream, member. -/
def AQuery.key (x : AQuery) : Nat × Nat × Nat × Nat :=
  (x.query.time * 65536 + x.query.frac, x.query.kind, x.query.source, x.query.member)

def AQuery.before (x y : AQuery) : Bool :=
  let a := x.key
  let b := y.key
  decide (a.1 < b.1 ∨ (a.1 = b.1 ∧ (a.2.1 < b.2.1 ∨ (a.2.1 = b.2.1 ∧ (a.2.2.1 < b.2.2.1 ∨ (a.2.2.1 = b.2.2.1 ∧ a.2.2.2 < b.2.2.2))))))

def insertQuery : List AQuery → AQuery → List AQuery
  | [], x => [x]
  | y :: ys, x => if x.before y then x :: y :: ys else y :: insertQuery ys x

/-- The queries that both limits leave, in order: `nq` and `nv` still free (R196). -/
def fitQueries : Nat → Nat → List AQuery → List AQuery
  | _, _, [] => []
  | nq, nv, x :: xs =>
    if nq = 0 ∨ nv < x.query.values.length then [] else x :: fitQueries (nq - 1) (nv - x.query.values.length) xs

/-! ### Tags (R188) -/

/-- Tags mapped to a TAG stream, in field order. -/
def runTags (rs : List TagRun) : List Nat :=
  let n := rs.foldl (fun n r => max n (r.firstField + r.count)) 0
  (List.range n).filterMap (fun i => match rs.reverse.find? (fun r => decide (r.firstField ≤ i) && decide (i < r.firstField + r.count)) with
    | some r => if r.type = 0 then none else some (r.firstTag + (i - r.firstField))
    | none => none)

/-- TAG streams that the flows of an epoch name as inputs (R187, R188). -/
def tagStreams (e : Epoch) : List Nat :=
  (e.cfg.streams.filter (fun p => p.2.kind == kindTag && (namedStreams e).contains p.1)).map (·.1)

/-- A tag's entry in the snapshot. -/
def tagEntry (s : State) (e : Epoch) (k : Nat) (c : StreamCfg) (t : Nat) : TagEntry :=
  let x := Tbl.at Tag.reset s.ing.tags t
  let tov := e.tov s
  let disp : Disp :=
    if !x.written ∨ bitsOf x.status 30 2 = 2 ∨ !e.active.contains k then .missing
    else if x.source + c.maxAge * 1000000 < tov then .stale
    else .used
  { tag := t, value := x.value, age := min ((tov - x.source) / 1000) 0xFFFFFFFF, disp := disp,
    flags := if disp = .used then placeB x.mismatch 0 + placeB (bitsOf x.status 30 2 == 1) 1 else 0, source := x.source }

/-! ### The table (R195) -/

/-- What alignment gives at a close: the table and the slots held. -/
structure Aligned where
  table : EpochTable
  holds : List (Nat × Nat × Nat × Nat)

/-- Earliest of a list of instants. -/
def minOf (xs : List Nat) : Option Nat :=
  xs.foldl (fun a x => match a with
    | none => some x
    | some y => some (min x y)) none

/-- Late samples that came since the previous close (R182). -/
def lateOf (s : State) (e : Epoch) (k : Nat) (c : StreamCfg) : Nat :=
  let x := cadOf s c.cadence
  if c.kind = kindTag ∨ c.cadence ≠ e.cadence ∨ x.period = 0 ∨ !e.active.contains k then 0
  else ((streamOf s k).samples.filter (fun y =>
    let m := (y.time - x.phase) / x.period
    usableSample c y && decide (x.phase ≤ y.time) && x.runs m && decide (y.time < x.acqStart m + x.acqWindow) && decide (x.close m ≤ y.commit)
      && decide (e.closeAt s - x.period ≤ y.commit) && decide (y.commit < e.closeAt s))).length

/-- Disposition of an interpolated stream from its value entries (R195). -/
def interpDisp (e : Epoch) (k : Nat) (vs : List ValueEntry) : Disp :=
  if vs.any (fun v => v.disp == .missing) then .missing
  else if vs.any (fun v => v.disp == .extrapolated) then .extrapolated
  else if !e.active.contains k then .excluded
  else .used

/-- The alignment of an epoch whose close has come (R178 to R196). -/
def align (s : State) (e : Epoch) (deltas : Tbl Int) : Aligned :=
  let mine := e.cfg.streams.filter (fun p => p.2.cadence == e.cadence || (namedStreams e).contains p.1 || (tovStreams e).any (fun q => q.1 == p.1))
  let sel : List (Nat × StreamCfg × List Sample) := mine.map (fun p => (p.1, p.2, if isWindow p.2 then membersOf s e p.1 p.2 else []))
  let tq := evalQuery s e (e.tov s) 0 0xFF 0 0 (tovStreams e)
  let all := (sel.flatMap (fun p => p.2.2.flatMap (memberQueries s e p.1 p.2.1))).foldl insertQuery []
  let kept := fitQueries 4095 (65536 - tq.query.values.length) all
  let cut : List (Nat × Nat) := (all.drop kept.length).map (fun x => (x.query.source, x.query.member))
  let kept := kept.filter (fun x => !cut.contains (x.query.source, x.query.member))
  let sel := sel.map (fun p => (p.1, p.2.1, p.2.2.filter (fun y => !cut.contains (p.1, y.index)), decide (p.2.2 ≠ [])))
  let qs := insertQuery kept tq
  let values := qs.flatMap (fun x => x.query.values)
  let reads := qs.flatMap (fun x => x.reads)
  let rows := e.cfg.streams.filterMap (fun p => match sel.find? (fun x => x.1 == p.1) with
    | some x => some x
    | none => if values.any (fun v => v.stream == p.1) then some (p.1, p.2, [], false) else none)
  let tags := (tagStreams e).flatMap (fun k => match e.cfg.streams.find k with
    | some c => (runTags c.tags).map (tagEntry s e k c)
    | none => [])
  let entry := fun (p : Nat × StreamCfg × List Sample × Bool) =>
    let k := p.1
    let c := p.2.1
    let xs := if isInterp c then (reads.filter (fun r => r.1 == k)).map (·.2) else p.2.2.1
    let mineTags := if c.kind = kindTag ∧ (tagStreams e).contains k then (runTags c.tags).map (tagEntry s e k c) else []
    let disp : Disp :=
      if isInterp c then interpDisp e k (values.filter (fun v => v.stream == k))
      else if !e.active.contains k then .excluded
      else if c.kind = kindTag then (if mineTags.any (fun t => t.disp != .used) then .missing else .used)
      else if p.2.2.1 ≠ [] then .used else if p.2.2.2 then .capacity else .missing
    let old := if c.kind = kindTag then minOf ((mineTags.filter (fun t => t.disp == .used)).map (·.source)) else minOf (xs.map (·.time))
    ({ stream := k, disp := disp, members := if isWindow c then p.2.2.1.length else 0, first := match p.2.2.1 with | x :: _ => x.index % 2 ^ 32 | [] => 0,
       tOld := old, delta := if c.cadence = e.cadence then deltas.find k else none, late := lateOf s e k c } : StreamEntry)
  let held := (sel.flatMap (fun p => p.2.2.1.map (fun x => (p.1, x.index)))) ++ reads.map (fun r => (r.1, r.2.index))
  { table := { epoch := e.epoch, tov := e.tov s, close := e.closeAt s, streams := rows.map entry, queries := qs.map (·.query), tags := tags, cut := !cut.isEmpty, ended := none },
    holds := held.eraseDups.map (fun h => (e.cadence, e.epoch, h.1, h.2)) }

end Sys2Proof.Machine
end

