-- ==== Sys2Proof/Machine/Hif.lean ====
section
/-! DEFINITION. The meanings of the host interface's commands: rings, polling, descriptors, MSI-X (spec/03_host_rings.md). -/

namespace Sys2Proof.Machine

/-- The device-wide ring that a DID's HIF_RING_SEL selects (R60, R81). -/
def selRing (s : State) (did : Nat) : Option (Bool × Nat) :=
  let sel := Tbl.at (false, 0) s.hif.ringSel did
  (ringNo s sel.1 (fnOfDid did) sel.2).map (fun r => (sel.1, r))

/-- Ring registers and windows other than GLB, RCU, OAS and DBG answer only once boot is READY (R551). -/
def hifOpen (s : State) : Bool := s.bootReady

/-- Vectors of a function (R51). -/
def fnVectors (fn : Nat) : Nat := if fn = 0 then 384 else 128

/-- The checks of START (R60). -/
def startChecks (s : State) (com : Bool) (r : Nat) : Bool :=
  let x := if com then comRing s r else subRing s r
  decide (6 ≤ x.sizeLog2 ∧ x.sizeLog2 ≤ 16) && decide (x.base.toNat % 4096 = 0 ∧ x.db.toNat % 16 = 0) &&
  (if com then !x.intEn || decide (x.vector < fnVectors ((ringFn s true r).getD 0))
   else match boundCom s r with
    | some c => decide ((comRing s c).st = .running)
    | none => false)

/-- Insert a held flow result in ascending flow index (R75). -/
def insertFlow : List FlowRec → FlowRec → List FlowRec
  | [], f => [f]
  | x :: xs, f => if f.flow < x.flow then f :: x :: xs else x :: insertFlow xs f

/-- Write held flow results while entries are free. -/
def flushFlows (c : Nat) : Nat → State → State
  | 0, s => s
  | fuel + 1, s =>
    let x := comRing s c
    match x.held with
    | f :: fs => if x.space = 0 then s else flushFlows c fuel (putRec (setCom s c { x with held := fs }) c (flowRec s f))
    | [] => s

/-- The records written when a completion ring becomes RUNNING again, in the order of R75; then the events that count drops (R76, R77). -/
def startFlush (s : State) (c : Nat) : State :=
  let x := comRing s c
  closeRing s (flushFlows c x.held.length (setCom s c { x with held := x.held.foldl insertFlow [] })) c

/-- START (R60, R64, R77). -/
def startRing (s : State) (com : Bool) (r : Nat) : State :=
  let x := if com then comRing s r else subRing s r
  let set := fun s x => if com then setCom s r x else setSub s r x
  if x.st = .running then s
  else if x.st = .error ∨ !startChecks s com r then set s { x with lastEvent := stDescInvalid }
  else
    let x := { x with st := .running, stopping := false, interval := s.hif.pollMin, pollIssued := none, awaitFetch := false, nextDue := if com then none else some s.up, lostReported := false }
    let s := set s x
    let fn := (ringFn s com r).getD 0
    let s := { s with hif.quiet := s.hif.quiet.put fn false, hif.busMaster := s.hif.busMaster.put fn true }
    if com then pumpFetch (startFlush s r) else s

/-- A submission ring bound to a completion ring is RUNNING. -/
def boundRunning (s : State) (c : Nat) : Bool :=
  s.hif.sub.any (fun p => p.2.st == .running && boundCom s p.1 == some c)

/-- A descriptor waits for its unit: a layout engine, pipeline, solver or Erg unit, or the engines with no instance placed yet. -/
def waitsUnit (s : State) (src : Source) : Bool :=
  (s.lyt.waiting ++ s.seq.waiting ++ s.slv.waiting).any (fun j => j.desc.src == src) || s.geo.ergJobs.any (fun j => j.2.1.src == src)
    || s.eng.runs.any (fun r => r.2.desc.any (·.src == src) && r.2.running.isEmpty && r.2.ended.isEmpty)

/-- Take the descriptors of some sources that wait for their units out of the waiting lists. -/
def leaveUnitsOf (s : State) (gone : Source → Bool) : State :=
  let keep := List.filter (fun (j : Job) => !gone j.desc.src)
  { s with
    lyt.waiting := keep s.lyt.waiting, seq.waiting := keep s.seq.waiting, slv.waiting := keep s.slv.waiting
    geo.ergJobs := s.geo.ergJobs.filter (fun j => !gone j.2.1.src)
    eng.runs := s.eng.runs.filter (fun r => !r.2.desc.any (fun d => gone d.src)) }

/-- Take a descriptor that waits for its unit out of the waiting lists. -/
def leaveUnits (s : State) (src : Source) : State := leaveUnitsOf s (· == src)

/-- Complete with ABORTED the fetched descriptors of a ring that have not started, in one cycle (R60, R408). -/
def abortFlights (s : State) (r : Nat) : State :=
  together s fun s => ((flightsOf s r).filter (fun f => f.arrived && (!f.started || waitsUnit s (.ring r f.index)))).foldl
    (fun s f => finishDesc (leaveUnits s (.ring r f.index)) ⟨.ring r f.index, ringDid s false r, f.raw⟩ stAborted 0 0 0) s

/-- A stopping submission ring with nothing left in flight enters STOPPED and writes SRING_STOPPED (R60). The event's status byte is 0
(log 124). -/
def endStop (s : State) (r : Nat) : State :=
  let x := subRing s r
  if x.st = .running ∧ x.stopping ∧ (flightsOf s r).isEmpty then
    let s := setSub s r { x with st := .stopped, stopping := false, nextDue := none, pollIssued := none }
    match boundCom s r with
    | some c => ringEvent s c { code := 3, ring := localNo s false r, status := 0, detail := 0 }
    | none => s
  else s

/-- STOP (R60). -/
def stopRing (s : State) (com : Bool) (r : Nat) : State :=
  let x := if com then comRing s r else subRing s r
  if x.st ≠ .running then s
  else if com then
    if boundRunning s r then setCom s r { x with lastEvent := stDescInvalid }
    else setCom s r { x with st := .stopped, nextDue := none, pollIssued := none }
  else abortFlights (setSub s r { x with stopping := true }) r

/-- A ring after RESET: IDLE, indices 0, no held record, no drop counted (R60, R77). -/
def Ring.cleared (x : Ring) : Ring :=
  { x with st := .idle, head := 0, tail := 0, held := [], heldEvents := [], sinceEvent := 0, downDrops := 0, dropped := 0, nextDue := none, pollIssued := none, awaitFetch := false, stopping := false }

/-- RESET (R59, R60, R77). DESIGN CHOICE (log 124): on a RUNNING ring it does nothing and leaves last_event; descriptors that a ring in ERROR had
fetched stay in flight. -/
def resetRing (s : State) (com : Bool) (r : Nat) : State :=
  let x := if com then comRing s r else subRing s r
  if x.st = .running then s
  else if com then setCom s r x.cleared else setSub s r x.cleared

/-- One operation of HIF_RING_CMD on the ring that the DID selects (R60, R81). -/
def ringCmd (s : State) (did op : Nat) : State :=
  if !hifOpen s then s else
  match selRing s did with
  | none => s
  | some (com, r) =>
    if op = 1 then startRing s com r else if op = 2 then stopRing s com r else if op = 3 then resetRing s com r else s

def execStart (did : Nat) (s : State) : Host.Outcome State Fault Refusal := .next (ringCmd s did 1)
def execStop (did : Nat) (s : State) : Host.Outcome State Fault Refusal := .next (ringCmd s did 2)
def execReset (did : Nat) (s : State) : Host.Outcome State Fault Refusal := .next (ringCmd s did 3)

/-- SRING_STOPPED: the effects of a STOP are complete (R60). -/
def execSringStopped (ring : Nat) (s : State) : Host.Outcome State Fault Refusal := .next (endStop s ring)

/-! ### Polling (R62 to R65) -/

/-- A poll that is due or will be: instant, DID, ring, kind. -/
structure Due where
  at_ : Nat
  did : Nat
  ring : Nat
  com : Bool

/-- The order of R65: earliest next_due, lower DID, lower ring number. -/
def Due.before (a b : Due) : Bool :=
  decide (a.at_ < b.at_) || (a.at_ == b.at_ && (decide (a.did < b.did) || (a.did == b.did && decide (a.ring < b.ring))))

/-- The polls that wait: RUNNING submission rings, and RUNNING completion rings that lack space (R64). DESIGN CHOICE (log 124): where all keys of
R65 agree, a submission ring is polled before a completion ring. -/
def duePolls (s : State) : List Due :=
  (s.hif.sub.filterMap (fun p =>
    if p.2.st = .running ∧ !p.2.stopping ∧ p.2.pollIssued = none then
      p.2.nextDue.map (fun t => { at_ := t, did := ringDid s false p.1, ring := p.1, com := false }) else none))
  ++ (s.hif.com.filterMap (fun p =>
    if p.2.st = .running ∧ p.2.space = 0 ∧ p.2.pollIssued = none then
      some { at_ := p.2.nextDue.getD s.up, did := ringDid s true p.1, ring := p.1, com := true } else none))

/-- First of a list by an order. -/
def firstBy (lt : Due → Due → Bool) : List Due → Option Due
  | [] => none
  | d :: ds => match firstBy lt ds with
    | none => some d
    | some e => if lt e d then some e else some d

/-- DOORBELL_POLL: issue the next doorbell read, no sooner than it is due and 62.5 ns after the last (R64, R65). -/
def execDoorbellPoll (s : State) : Host.Outcome State Fault Refusal :=
  match firstBy Due.before (duePolls s) with
  | none => .next s
  | some d =>
    let slot := max (max (2 * s.up) (2 * d.at_)) s.hif.pollSlot
    let t := (slot + 1) / 2
    let s := { advanceUp s t with hif.pollSlot := slot + 125 }
    let x := if d.com then comRing s d.ring else subRing s d.ring
    let x := { x with pollIssued := some t, nextDue := none }
    let u := if d.com then setCom s d.ring x else setSub s d.ring x
    if ringMayRead s d.com d.ring then .next (emit u (.hostRead d.did x.db.toNat 16)) else .next (ringError u d.com d.ring stTranslation)

/-- The host part of a doorbell record is accepted: check word and reserved bytes (R61, R62). -/
def hostPartOk (record : BitVec 128) : Bool :=
  let n := record.toNat
  bitsOf n 48 16 == ((bitsOf n 0 16) ^^^ (bitsOf n 16 16) ^^^ 0xFFFF) && bitsOf n 32 16 == 0

/-- A poll that found no new work: the interval doubles (R64). -/
def emptyPoll (s : State) (com : Bool) (r issue : Nat) : State :=
  if com then setCom s r { comRing s r with pollIssued := none, nextDue := some (issue + s.hif.pollMin * 1000) }
  else
    let x := subRing s r
    let i := min (2 * x.interval) s.hif.pollMax
    setSub s r { x with pollIssued := none, interval := i, nextDue := some (issue + i * 1000) }

/-- Fetches of a ring that have not arrived. -/
def fetching (s : State) (r : Nat) : Bool := (flightsOf s r).any (fun f => !f.arrived)

/-- After the fetches of a poll: the next poll is due poll_min after the last fetch arrived (R64). -/
def fetchDone (s : State) (r : Nat) : State :=
  let x := subRing s r
  if x.awaitFetch ∧ !fetching s r then
    setSub s r { x with awaitFetch := false, nextDue := some (s.up + x.interval * 1000) }
  else s

/-- A submission ring's poll returned an accepted tail (R63, R64). -/
def subPolled (s : State) (r issue : Nat) (tail : W32) : State :=
  let x := subRing s r
  if (tail - x.head).toNat > x.entries ∨ (tail - x.head).toNat < (x.tail - x.head).toNat then
    ringError s false r stDescInvalid
  else if tail = x.head then emptyPoll (setSub s r { x with tail := tail }) false r issue
  else fetchRing (setSub s r { x with tail := tail, pollIssued := none, interval := s.hif.pollMin, nextDue := none, awaitFetch := true }) r

/-- A completion ring's poll returned an accepted head: held records are written and fetching resumes (R63, R76). -/
def comPolled (s : State) (c issue : Nat) (head : W32) : State :=
  let x := comRing s c
  if (x.tail - head).toNat > x.entries then ringError s true c stDescInvalid
  else pumpFetch (closeRing s (setCom s c { x with head := head, pollIssued := none, nextDue := some (issue + s.hif.pollMin * 1000) }) c)

/-- DOORBELL_POLL_RETURN: the record that host memory returned, or a PCIe error (R62, R63). -/
def execDoorbellPollReturn (completion : Bool) (ring : Nat) (record : Option (BitVec 128)) (s : State) :
    Host.Outcome State Fault Refusal :=
  let x := if completion then comRing s ring else subRing s ring
  match x.st, x.pollIssued with
  | .running, some issue =>
    match record with
    | none => .next (ringError s completion ring stTranslation)
    | some w =>
      if !hostPartOk w then .next (emptyPoll s completion ring issue)
      else if completion then .next (comPolled s ring issue (w.truncate 32))
      else .next (subPolled s ring issue (w.truncate 32))
  | _, _ => .next s

/-! ### Descriptors -/

/-- What R70 checks of Nop. -/
def infoNop (_ : State) (_ : Desc) : OpInfo :=
  { fields := wholeBody }

/-- NOP: the body is ignored, the result is 0 (R68). -/
def execNop (d : Desc) (s : State) : Host.Outcome State Fault Refusal :=
  .next (runDesc s d (infoNop s d) (fun s => okWith s 0))

/-- What R70 checks of TimeMark. -/
def infoTimeMark (_ : State) (_ : Desc) : OpInfo :=
  { fields := wholeBody }

/-- TIME_MARK: the FAB copy of DT64 at execution (R68). -/
def execTimeMark (d : Desc) (s : State) : Host.Outcome State Fault Refusal :=
  .next (runDesc s d (infoTimeMark s d) (fun s => okWith s (s.now % 2 ^ 64)))

/-! ### Functions and MSI-X -/

/-- The units that hold descriptors go on without them: no record will be written (R52). -/
def endDescs (s : State) (gone : Desc → Bool) : State :=
  let e := fun (d : Desc) => if gone d then { d with src := .ended } else d
  let job := fun (j : Job) => { j with desc := e j.desc }
  { s with
    lyt.waiting := s.lyt.waiting.map job
    lyt.engines := s.lyt.engines.mapV (fun _ x => { x with job := x.job.map job })
    slv.waiting := s.slv.waiting.map job
    slv.units := s.slv.units.mapV (fun _ x => { x with job := x.job.map job })
    seq.waiting := s.seq.waiting.map job
    seq.pipes := s.seq.pipes.mapV (fun _ x => { x with job := x.job.map job })
    seq.blocked := s.seq.blocked.map e
    seq.seqs := s.seq.seqs.mapV (fun _ q => { q with waiting := q.waiting.map (fun a => { a with desc := e a.desc }) })
    geo.ergJobs := s.geo.ergJobs.map (fun j => (j.1, e j.2.1, j.2.2))
    geo.ergRun := s.geo.ergRun.mapV (fun _ j => (e j.1, j.2))
    eng.runs := s.eng.runs.mapV (fun _ r => { r with desc := r.desc.map e })
    ing.injections := s.ing.injections.map (fun i => (i.1, { i.2 with desc := e i.2.desc }))
    ing.streams := s.ing.streams.mapV (fun _ x => { x with starting := x.starting.map e })
    trig.arming := s.trig.arming.map (fun a => (e a.1, a.2))
    oct.requests := s.oct.requests.map (fun r => match r.kind with
      | .reset d => { r with kind := .reset (e d) }
      | _ => r) }

/-- The rings of one function return to IDLE as RESET does, and their CFG, BASE and DB to reset; its vectors return to reset; its descriptors in
flight end without records (R52, R508). -/
def resetFn (s : State) (fn : Nat) : State :=
  let mine := fun (com : Bool) (r : Nat) => ringFn s com r == some fn
  let fresh := fun (x : Ring) => { x.cleared with
    vector := Ring.reset.vector, cring := Ring.reset.cring, intEn := Ring.reset.intEn, sizeLog2 := Ring.reset.sizeLog2, base := Ring.reset.base, db := Ring.reset.db, reserved := 0 }
  let s := endDescs s (fun d => match d.src with
    | .ring r _ => mine false r
    | _ => false)
  { s with
    hif.sub := s.hif.sub.mapV (fun r x => if mine false r then fresh x else x)
    hif.com := s.hif.com.mapV (fun r x => if mine true r then fresh x else x)
    hif.flights := s.hif.flights.filter (fun f => !mine false f.ring)
    hif.msix := s.hif.msix.mapV (fun v m => if vectorFn v = fn then { m with masked := true, pba := false, held := false } else m)
    hif.msixEn := s.hif.msixEn.put fn false
    hif.busMaster := s.hif.busMaster.put fn false
    hif.quiet := s.hif.quiet.put fn true }

/-- FUNCTION_LEVEL_RESET of a function; that of the PF also applies to every VF (R52, R496). -/
def execFunctionLevelReset (fn : Nat) (s : State) : Host.Outcome State Fault Refusal :=
  if fn = 0 then .next (icuPulse ((List.range fnCount).foldl resetFn s) 184)
  else if fn < fnCount then .next (icuPulse (resetFn s fn) 184)
  else .next s

/-- Two blocks of rings share a ring. -/
def blocksMeet (a b : Nat × Nat) : Bool :=
  decide (a.2 ≠ 0) && decide (b.2 ≠ 0) && decide (a.1 < b.1 + b.2) && decide (b.1 < a.1 + a.2)

/-- Some ring of a function is RUNNING. -/
def fnRunning (s : State) (fn : Nat) : Bool :=
  s.hif.sub.any (fun p => p.2.st == .running && ringFn s false p.1 == some fn)
    || s.hif.com.any (fun p => p.2.st == .running && ringFn s true p.1 == some fn)

/-- FLOW_RING bindings to completion rings of a block end (R56). -/
def unbindFlows (b : Nat × Nat) (c : Cfg) : Cfg :=
  { c with flows := c.flows.mapV (fun _ f => match f.cring with
    | some r => if b.1 ≤ r ∧ r < b.1 + b.2 then { f with cring := none } else f
    | none => f) }

/-- A write of HIF_FN_SRINGS or HIF_FN_CRINGS for the function the DID selects (R56, R81). -/
def assignRings (s : State) (did : Nat) (com : Bool) (value : W32) : State :=
  if !hifOpen s ∨ 2 < did then s else
  let fn := Tbl.at 0 s.hif.fnSel did
  if 14 ≤ fn then s else
  let old := ringBlock s com fn
  let new : Nat × Nat := (bitsOf value.toNat 0 10, bitsOf value.toNat 16 11)
  if fnRunning s fn ∨ new.1 + new.2 > 1024 ∨ (List.range 14).any (fun g => g != fn && blocksMeet new (ringBlock s com g)) then
    { s with hif.allocDrop := true }
  else
    let s := if com then { s with hif.cRings := s.hif.cRings.put fn new } else { s with hif.sRings := s.hif.sRings.put fn new }
    if com ∧ new ≠ old then
      { s with cfg := unbindFlows old s.cfg, live := s.live.mapV (fun _ c => unbindFlows old c), epochs := s.epochs.map (fun e => { e with cfg := unbindFlows old e.cfg }) }
    else s

/-- HIF_FN_ASSIGN (R56). -/
def execHifFnAssign (did : Nat) (completion : Bool) (value : W32) (s : State) : Host.Outcome State Fault Refusal :=
  .next (assignRings s did completion value)

/-- MSIX_MODERATION_EXPIRY: the last message of a vector is one interval old; the held requests go in one message (R508). -/
def execMsixModerationExpiry (vector : Nat) (s : State) : Host.Outcome State Fault Refusal :=
  let m := Tbl.at Msix.reset s.hif.msix vector
  if m.held then .next (msixSend (advanceUp s (m.lastSent.getD 0 + m.mod * 1000)) vector) else .next s

/-- Unmask a vector: a set PBA bit sends one message (R80). -/
def unmaskVector (s : State) (v : Nat) : State :=
  let m := Tbl.at Msix.reset s.hif.msix v
  let s := { s with hif.msix := s.hif.msix.put v { m with masked := false }, hif.msixEn := s.hif.msixEn.put (vectorFn v) true }
  if m.pba then msixSend s v else s

/-- MSIX_VECTOR_UNMASK: the driver unmasks a vector, MSI-X being enabled (R80, R508; log entry 7). -/
def execMsixVectorUnmask (vector : Nat) (s : State) : Host.Outcome State Fault Refusal :=
  if vector < 2048 then .next (unmaskVector s vector) else .next s

end Sys2Proof.Machine
end

