-- ==== Sys2Proof/Machine/Icu.lean ====
section
/-! DEFINITION. The interrupt controllers' commands: the ICU, and the SIC where `sic` is set (spec/21_interrupts.md). -/

namespace Sys2Proof.Machine

/-- Controller and its parameters. -/
def ctlOf (s : State) (sic : Bool) : IntCtl := if sic then s.sic else s.icu
def setCtl (s : State) (sic : Bool) (c : IntCtl) : State := if sic then { s with sic := c } else { s with icu := c }

/-- Number of sources of a controller. -/
def sourceCount (sic : Bool) : Nat := if sic then 256 else 1024

def sourceOf (s : State) (sic : Bool) (k : Nat) : IntSource :=
  Tbl.at (IntSource.reset (if sic then sicSense k else icuSense k)) (ctlOf s sic).sources k

def setSource (s : State) (sic : Bool) (k : Nat) (x : IntSource) : State :=
  let c := ctlOf s sic
  setCtl s sic { c with sources := c.sources.put k x }

def procOf (s : State) (sic : Bool) (p : Nat) : IntProc := Tbl.at IntProc.reset (ctlOf s sic).procs p

def setProc (s : State) (sic : Bool) (p : Nat) (x : IntProc) : State :=
  let c := ctlOf s sic
  setCtl s sic { c with procs := c.procs.put p x }

/-- Reserved sources: OFF, with no configuration (R496, R497). -/
def sourceReserved (sic : Bool) (k : Nat) : Bool :=
  if sic then (decide (5 ≤ k) && decide (k ≤ 15)) || decide (240 ≤ k) else decide (187 ≤ k) && decide (k ≤ 255)

/-- The sampled input: engines' sticky faults, hot memory controllers and the intake queue are levels of the state. -/
def inputOf (s : State) (sic : Bool) (k : Nat) : Bool :=
  if sic then (if k = 0 then !s.safe.intake.isEmpty else (sourceOf s sic k).input)
  else if 64 ≤ k ∧ k ≤ 135 then (Tbl.at Engine.reset s.eng.engines (k - 64)).sticky
  else if 176 ≤ k ∧ k ≤ 183 then (Tbl.at MemCtl.reset s.mmu.mcs (k - 176)).hot
  else (sourceOf s sic k).input

/-- A level sense. -/
def IntSource.level (x : IntSource) : Bool := x.sense == 1 || x.sense == 2

/-- A source is pending: level sources follow their input (R498). -/
def pendingOf (s : State) (sic : Bool) (k : Nat) : Bool :=
  let x := sourceOf s sic k
  if x.sense = 1 then inputOf s sic k else if x.sense = 2 then !inputOf s sic k else x.pending

/-- Running priority of a processor; none where no source is in service (R499). -/
def running (s : State) (sic : Bool) (p : Nat) : Option Nat :=
  (procOf s sic p).stack.foldl (fun m k => some (max (m.getD 0) (sourceOf s sic k).prio)) none

/-- ICU_CP_CLAIM: the highest-priority source in service, the latest delivered on a tie (R500). -/
def claimOf (s : State) (sic : Bool) (p : Nat) : Option Nat :=
  (procOf s sic p).stack.foldl (fun m k => match m with
    | none => some k
    | some j => if (sourceOf s sic j).prio < (sourceOf s sic k).prio then some k else some j) none

/-- Target of a source: the SIC's is always the island. -/
def targetOf (sic : Bool) (x : IntSource) : Nat := if sic then 0 else x.target

/-- A source may be delivered to a processor (R499, R502). -/
def deliverable (s : State) (sic : Bool) (p k : Nat) : Bool :=
  let x := sourceOf s sic k
  let q := procOf s sic p
  pendingOf s sic k && !x.masked && x.sense != 0 && !x.storm && !x.inService && targetOf sic x == p
    && decide (q.threshold ≤ x.prio)
    && (match running s sic p with
      | some r => decide (r < x.prio)
      | none => true)
    && (sic || !x.modEn || q.modUs == 0 || q.asleep || (match q.lastMod with
      | some t => decide (t + q.modUs * 1000 ≤ s.up)
      | none => true))
    && !q.gmask

/-- The deliverable source of highest priority, the lowest number on a tie (R499). -/
def bestSource (s : State) (sic : Bool) (p : Nat) : Option Nat :=
  (List.range (sourceCount sic)).foldl (fun m k =>
    if deliverable s sic p k then
      match m with
      | none => some k
      | some j => if (sourceOf s sic j).prio < (sourceOf s sic k).prio then some k else some j
    else m) none

/-- Deliveries of a source in the present aligned millisecond (R504). -/
def deliveries (s : State) (x : IntSource) : Nat := if x.ms = s.now / 1000000 then x.count else 0

/-- The storm guard trips (R504). -/
def stormTrip (s : State) (sic : Bool) (k : Nat) : State :=
  let s := setSource s sic k { sourceOf s sic k with storm := true }
  let c := ctlOf s sic
  let s := setCtl s sic { c with storms := satAdd 16 c.storms 1 }
  if sic then s else icuPulse s 186

/-- Deliver a source to a processor (R499). -/
def deliverSource (s : State) (sic : Bool) (p k : Nat) : State :=
  let x := sourceOf s sic k
  let n := deliveries s x
  if 4096 ≤ n then stormTrip s sic k
  else
    let s := emit s (.vector sic p ((procOf s sic p).vbase * 65536 + 64 * k))
    let y := { x with inService := true, pending := if x.level then x.pending else false, count := n + 1, ms := s.now / 1000000 }
    let s := setSource s sic k y
    let q := procOf s sic p
    setProc s sic p { q with stack := k :: q.stack, gmask := true, asleep := false, lastMod := if x.modEn && !sic then some s.up else q.lastMod }

/-- ICU_SOURCE_EVENT: the input of a source takes a level (R498, R501, R505). -/
def execIcuSourceEvent (sic : Bool) (source : Nat) (level : Bool) (s : State) : Host.Outcome State Fault Refusal :=
  if sourceCount sic ≤ source ∨ sourceReserved sic source then .next s else
  let x := sourceOf s sic source
  let s := setSource s sic source (x.drive level)
  let c := ctlOf s sic
  .next (setCtl s sic { c with overrunAny := c.overrunAny || x.loses level })

/-- Firmware clears its processor's own global mask, which the processor sets as it takes a vector (R499, R500). -/
def openMask (s : State) (sic : Bool) (p : Nat) (cleared : Bool) : State :=
  if cleared then setProc s sic p { procOf s sic p with gmask := false } else s

/-- ICU_DELIVERY to a processor (R499, R502, R504). -/
def execIcuDelivery (sic : Bool) (w : ProcTurn) (s : State) : Host.Outcome State Fault Refusal :=
  let p := w.proc
  if (if sic then p ≠ 0 else 4 ≤ p) then .next s else
  let s := openMask s sic p w.cleared
  match bestSource s sic p with
  | some k => .next (deliverSource s sic p k)
  | none => .next s

/-- ICU_EOI: the source leaves service at its processor, or eoi_err is set (R500). -/
def execIcuEoi (sic : Bool) (p : Nat) (source : Nat) (s : State) : Host.Outcome State Fault Refusal :=
  let q := procOf s sic p
  if (if sic then p ≠ 0 else 4 ≤ p) then .next s
  else if q.stack.contains source then
    let s := setSource s sic source { sourceOf s sic source with inService := false }
    .next (setProc s sic p { q with stack := q.stack.filter (· ≠ source) })
  else
    let c := ctlOf s sic
    .next (setCtl s sic { c with eoiErr := c.eoiErr ||| 2 ^ p })

/-- Place of a master's ICU_SRC_SEL: one per DID, and for DID 1 one per control processor (R507). -/
def selPlace (did cp : Nat) : Nat := if did = 1 then 16 + cp else did

/-- The source that a master's ICU_SRC_SEL selects; the island's is the SIC's (R510). -/
def srcSelected (s : State) (did cp : Nat) : Nat := if did = 0 then Tbl.at 0 s.sic.srcSel 0 else Tbl.at 0 s.icu.srcSel (selPlace did cp)

/-- A write of ICU_SRC_CMD: DID 1 acts on the ICU, the island on the SIC (R507, R509, R510). -/
def srcCmd (s : State) (did cp : Nat) (f : IntSource → IntSource) : State :=
  let k := srcSelected s did cp
  let sic := did == 0
  if 2 ≤ did ∨ (did = 1 ∧ !s.bootReady) ∨ sourceReserved sic k then s else setSource s sic k (f (sourceOf s sic k))

def execIcuSrcMask (did cp : Nat) (s : State) : Host.Outcome State Fault Refusal :=
  .next (srcCmd s did cp (fun x => { x with masked := true }))
def execIcuSrcUnmask (did cp : Nat) (s : State) : Host.Outcome State Fault Refusal :=
  .next (srcCmd s did cp (fun x => { x with masked := false }))
def execIcuSrcSetPend (did cp : Nat) (s : State) : Host.Outcome State Fault Refusal :=
  .next (srcCmd s did cp (fun x => if x.level then x else { x with pending := true }))
def execIcuSrcClrPend (did cp : Nat) (s : State) : Host.Outcome State Fault Refusal :=
  .next (srcCmd s did cp (fun x => if x.level then x else { x with pending := false }))

/-- ICU_SWI: sources 768 to 1,023 by DID 1, 960 to 1,023 by DID 2 (R501, R507, R509). -/
def execIcuSwi (did : Nat) (source : Nat) (s : State) : Host.Outcome State Fault Refusal :=
  if !s.bootReady ∨ 1024 ≤ source ∨ source < 768 ∨ (did ≠ 1 ∧ !(did == 2 && decide (960 ≤ source))) then .next s else
  let x := sourceOf s false source
  if x.sense = 0 ∨ x.level then .next s else
  let s := setSource s false source x.event
  .next { s with icu.overrunAny := s.icu.overrunAny || (x.pending || x.inService) }

/-- ICU_LOCK_ACQUIRE: a read of ICU_LOCK; DID 1 acquires a free lock (R509). -/
def execIcuLockAcquire (did : Nat) (lock : Nat) (s : State) : Host.Outcome State Fault Refusal :=
  if !s.bootReady ∨ 16 ≤ lock then .next s else
  let held := Tbl.at false s.icu.locks lock
  let got := decide (did = 1) && !held
  let s := if got then { s with icu.locks := s.icu.locks.put lock true } else s
  .next (emit s (.readData did (0x100310 + 4 * lock) (if got then 1 else 0)))

/-- ICU_LOCK_RELEASE: a write of 0 by DID 1 (R509). -/
def execIcuLockRelease (did : Nat) (lock : Nat) (s : State) : Host.Outcome State Fault Refusal :=
  if !s.bootReady ∨ did ≠ 1 ∨ 16 ≤ lock then .next s else .next { s with icu.locks := s.icu.locks.put lock false }

/-- STORM_WINDOW_RESET: at the next millisecond boundary the counters restart; a 4,097th delivery in the millisecond
before is withheld (R504). -/
def execStormWindowReset (s : State) : Host.Outcome State Fault Refusal :=
  let s := advanceTo s ((s.now / 1000000 + 1) * 1000000)
  let zero := fun (c : IntCtl) => { c with sources := c.sources.mapV (fun _ x => { x with count := 0, ms := s.now / 1000000 }) }
  .next { s with icu := zero s.icu, sic := zero s.sic }

/-- A source wakes its processor (R503). -/
def wakes (s : State) (sic : Bool) (p k : Nat) : Bool :=
  let x := sourceOf s sic k
  targetOf sic x == p && pendingOf s sic k && !x.masked && x.sense != 0 && !x.storm && !x.inService

/-- PROCESSOR_WAKE: a processor executes its wait-for-interrupt instruction, and wakes once a source that wakes it is
pending; a deliverable source is delivered then (R503). -/
def execProcessorWake (sic : Bool) (w : ProcTurn) (s : State) : Host.Outcome State Fault Refusal :=
  let p := w.proc
  if (if sic then p ≠ 0 else 4 ≤ p) then .next s else
  let s := openMask s sic p w.cleared
  let s := setProc s sic p { procOf s sic p with asleep := true }
  if (List.range (sourceCount sic)).any (wakes s sic p) then
    match bestSource s sic p with
    | some k => .next (deliverSource s sic p k)
    | none => .next (setProc s sic p { procOf s sic p with asleep := false })
  else .next s

end Sys2Proof.Machine
end

