-- ==== Sys2Proof/Machine/Cadence.lean ====
section
/-! DEFINITION. Cadences, triggers, actions, monitoring, lateness and catch-up (spec/06_cadences_triggers.md, spec/01_working_model.md R19 to R30). -/

namespace Sys2Proof.Machine

/-- DID 1 and DID 2 only. -/
def didHost (d : Desc) : Bool := d.did == 1 || d.did == 2

/-! ### Configuration (R123 to R131, R138) -/

/-- The ranges of R19 and R124. -/
def cadParamsOk (c : Cadence) : Bool :=
  decide (100000 ≤ c.period) && decide (c.period ≤ 10000000000) && decide (c.period % 2 = 0)
    && decide (c.phase + 2 ≤ c.period) && decide (c.phase % 2 = 0)
    && decide (c.acqWindow ≤ c.period) && decide (c.acqWindow % 2 = 0)
    && decide (c.tovOffset ≤ c.period) && decide (c.tovOffset % 2 = 0)
    && decide (c.closeMargin ≤ 10000000) && decide (c.closeMargin % 2 = 0)
    && decide (100 ≤ c.budget) && decide (c.budget * 1000 ≤ c.period)

/-- What R70 checks of CadConfig. -/
def infoCadConfig (_ : State) (d : Desc) : OpInfo :=
  { fields := [(16, 0, 5), (17, 0, 8), (18, 0, 16), (24, 0, 64), (32, 0, 64), (40, 0, 64), (48, 0, 64), (56, 0, 32), (60, 0, 32)], authority := didHost d }

/-- CAD_CONFIG (R20, R124). -/
def execCadConfig (d : Desc) (s : State) : Host.Outcome State Fault Refusal :=
  .next (runDesc s d (infoCadConfig s d) fun s =>
    let c := dfld d 16 0 5
    let trim := dfld d 17 0 8
    let x : Cadence := { cadOf s c with
      trimFrac := if trim = 0 then 0x40 else trim
      catchupLimit := if dfld d 18 0 16 = 0 then 64 else dfld d 18 0 16
      period := dfld d 24 0 64
      phase := dfld d 32 0 64
      acqWindow := dfld d 40 0 64
      tovOffset := dfld d 48 0 64
      closeMargin := dfld d 56 0 32
      budget := dfld d 60 0 32 }
    if 0x80 < trim ∨ !cadParamsOk x ∨ (cadOf s c).st ≠ .stopped then failWith s stDescInvalid
    else okWith (setCad s c x) 0)

/-- Offset and width of an output against a cadence's parameters (R126). -/
def outFits (c : Cadence) (o : TrigOut) : Bool :=
  decide (o.offset + 2 ≤ c.period) && decide (o.offset % 2 = 0) && decide (o.width % 10 = 0) && decide (100 ≤ o.width)
    && decide (o.width ≤ 1000000000) && decide (o.width + 1000 ≤ (o.divider + 1) * c.period)

/-- Offset of an action against a cadence's parameters (R129). -/
def actFits (c : Cadence) (a : Action) : Bool := decide (a.offset + 2 ≤ c.period)

/-- Sample period of an encoder input against a cadence's parameters: a whole multiple of 10 µs (R594, R605). -/
def encFits (c : Cadence) (e : EncCfg) : Bool :=
  decide (0 < e.k) && decide (c.period % (e.k * 10000) = 0) && decide (0 < c.period)

/-- Everything enabled on a cadence fits its parameters (R125). -/
def armFits (s : State) (k : Nat) (c : Cadence) : Bool :=
  s.trig.outs.all (fun p => !(p.2.enable && p.2.cadence == k) || outFits c p.2)
    && s.trig.actions.all (fun p => !(p.2.enable && p.2.cadence == k) || actFits c p.2)
    && s.fld.cfg.enc.all (fun p => !(p.2.enable && p.2.cadence == k) || encFits c p.2)

/-- Port of a link of R629, or none for the field link and Octur lanes. -/
def linkPort (l : Nat) : Option Nat := if l ≤ 9 then some l else none

/-- An enabled stream of a cadence uses a link under test; an accepted enable counts as one (R630). -/
def linkBusy (s : State) (c : Nat) : Bool :=
  s.dbg.links.any (fun p => p.2.run && match linkPort p.1 with
    | some port => s.cfg.streams.any (fun x => x.2.cadence == c && (streamOf s x.1).isOn && !x.2.field
        && ((s.ing.partners.find x.2.source).any (fun q => q.port == port)))
    | none => decide (26 ≤ p.1) && s.cfg.streams.any (fun x => x.2.cadence == c && (streamOf s x.1).isOn && x.2.field))

/-- A guarded flow of a cadence while the safety configuration is unlocked (R518). -/
def armUnlocked (s : State) (c : Nat) : Bool :=
  !s.sec.locked && s.cfg.flows.any (fun p => p.2.guarded && p.2.cadence == c)

/-- What arming clears: grids of the cadence count as empty, its ego groups start anew, its flows have no earlier result
(R27, R218, R249, R449). -/
def armClear (s : State) (c : Nat) : State :=
  let s := { s with fld.enc := s.fld.enc.mapV (fun k e => if (s.fld.live.enc.find k).any (fun (x : EncCfg) => x.cadence == c) then { e with last := none } else e) }
  let mine := fun (p : Nat × FlowCfg) => decide (p.2.cadence = c)
  let grids := s.geo.grids.mapV (fun g x =>
    if (s.cfg.grids.find g).any (fun y => y.cadence == c) then { x with buf0 := none, buf1 := none, running := none, regions := [], lastSeen := [], restarts := [] } else x)
  { s with
    results := s.results.filter (fun p => !(s.cfg.flows.any (fun q => q.1 == p.1 && mine q)))
    ing.streams := s.ing.streams.mapV (fun _ x => if x.backFrom.any (fun b => b.1 == c) then { x with backFrom := none } else x)
    safe.flows := s.safe.flows.mapV (fun f x => if (s.cfg.flows.find f).any (fun y => y.cadence == c) then { x with clearedFrom := none } else x)
    geo.grids := grids }

/-- Ego groups restart at arm (R218). -/
def armEgos (s : State) (c : Nat) : State :=
  { s with xft.egos := s.xft.egos.mapV (fun g x =>
      if (s.cfg.egos.find g).any (fun e => e.streams.any (fun k => (s.cfg.streams.find k).any (fun y => y.cadence == c))) then
        { x with st := .init, coast := 0, refAge := 0, reference := [], restarts := [] } else x) }

/-- Streams of a cadence whose STREAM_ENABLE waits for its start-up injection (R553). -/
def starting (s : State) (c : Nat) : Bool :=
  s.cfg.streams.any (fun p => p.2.cadence == c && (streamOf s p.1).starting.isSome)

/-- What R70 checks of CadArm. -/
def infoCadArm (_ : State) (d : Desc) : OpInfo :=
  { fields := [(16, 0, 5), (24, 0, 64)], authority := didHost d }

/-- CAD_ARM (R20, R95, R125, R553). -/
def execCadArm (d : Desc) (s : State) : Host.Outcome State Fault Refusal :=
  .next (runDesc s d (infoCadArm s d) fun s =>
    let k := dfld d 16 0 5
    let n0 := dfld d 24 0 64
    let c := cadOf s k
    if c.st ≠ .stopped ∨ !cadParamsOk c ∨ !armFits s k c ∨ c.acqStart n0 < s.now + 10000000 ∨ armUnlocked s k ∨ linkBusy s k then
      failWith s stDescInvalid
    else
      let x : Cadence := { c with st := .armed, start := n0, nextStart := n0, nextClose := n0, nextDeadline := n0, last := none, debt := 0, cut := 0, catchupRun := 0, reef := 0, late := 0, abandoned := 0, dCore := 0, dGrid := 0 }
      let outs := s.trig.outs.mapV (fun _ o => if o.cadence = k then { o with fired := none } else o)
      let acts := s.trig.actions.mapV (fun _ a => if a.cadence = k then { a with sent := none, held := none } else a)
      let s := setCad { s with trig.outs := outs, trig.actions := acts, live := s.live.put k { Tbl.at s.cfg s.live k with streams := s.cfg.streams } } k x
      let s := setCadenceKnot (armEgos (armClear s k) k) false k (BitVec.ofNat 32 n0)
      let res := c.acqStart n0 % 2 ^ 64
      if starting s k then .later { s with trig.arming := s.trig.arming ++ [(d, k, res)] } else okWith s res)

/-- Index that CAD_STOP answers when it lets no epoch run. -/
def noEpoch : Nat := 2 ^ 64 - 1

/-- The last epoch of a RUNNING cadence whose acq_start is not after now. -/
def lastStarted (s : State) (c : Cadence) : Nat :=
  let n := if s.now < c.phase then 0 else (s.now - c.phase) / c.period
  max c.start (match c.last with
    | some l => min l n
    | none => n)

/-- What R70 checks of CadStop. -/
def infoCadStop (_ : State) (d : Desc) : OpInfo :=
  { fields := [(16, 0, 5)], authority := didHost d }

/-- CAD_STOP (R125). -/
def execCadStop (d : Desc) (s : State) : Host.Outcome State Fault Refusal :=
  .next (runDesc s d (infoCadStop s d) fun s =>
    let k := dfld d 16 0 5
    let c := cadOf s k
    match c.st with
    | .stopped => okWith s noEpoch
    | .armed => okWith (stopStreams (setCad s k { c with st := .stopped }) k) noEpoch
    | .running =>
      let l := lastStarted s c
      okWith (setCad s k { c with last := some l }) l)

/-- A cadence is ARMED or RUNNING. -/
def cadBusy (s : State) (c : Nat) : Bool := (cadOf s c).st != .stopped

/-- The image binds a trigger source to a stream that guarded work reads (R131). -/
def sourceGuarded (s : State) (action : Bool) (k : Nat) : Bool :=
  s.sec.image.any (fun i => i.mons.any (fun p => p.2.action == action && p.2.source == k && streamGuarded s p.1))

/-- What R70 checks of TrigConfig. -/
def infoTrigConfig (s : State) (d : Desc) : OpInfo :=
  let k := dfld d 16 0 5
  { fields := [(16, 0, 5), (17, 0, 5), (18, 0, 1), (18, 7, 1), (19, 0, 8), (20, 0, 8), (24, 0, 64), (32, 0, 32)], authority := didHost d && !sourceGuarded s false k }

/-- A TRIG_CONFIG that changes the polarity moves a driven line to its new inactive level (R126). -/
def holdLevel (s : State) (k : Nat) (old : Option TrigOut) (o : TrigOut) : State :=
  if outputLive s k ∧ (old.map (·.activeLow)).getD false ≠ o.activeLow then emit s (.pin (64 + k) (if o.activeLow then 1 else 0)) else s

/-- TRIG_CONFIG (R126, R128, R131). -/
def execTrigConfig (d : Desc) (s : State) : Host.Outcome State Fault Refusal :=
  let k := dfld d 16 0 5
  .next (runDesc s d (infoTrigConfig s d) fun s =>
    let c := dfld d 17 0 5
    let old := s.trig.outs.find k
    let o : TrigOut := { cadence := c, activeLow := dbit d 18 0, enable := dbit d 18 7, enableNext := dbit d 18 7, divider := dfld d 19 0 8, divPhase := dfld d 20 0 8, offset := dfld d 24 0 64, width := dfld d 32 0 32, fired := none, activeUntil := none, resumeAt := 0 }
    if !outFits (cadOf s c) o then failWith s stDescInvalid
    else match old with
      | some p =>
        let kept : TrigOut := { o with enable := p.enable, enableNext := o.enable, fired := p.fired, activeUntil := p.activeUntil, resumeAt := p.resumeAt }
        if cadBusy s p.cadence ∨ cadBusy s c then
          if { kept with enableNext := p.enableNext } = p then okWith { s with trig.outs := s.trig.outs.put k kept } 0
          else failWith s stDescInvalid
        else okWith { holdLevel s k old o with trig.outs := s.trig.outs.put k { kept with enable := o.enable } } 0
      | none =>
        if cadBusy s c then failWith s stDescInvalid
        else okWith { holdLevel s k old o with trig.outs := s.trig.outs.put k o } 0)

/-- What R70 checks of ActConfig. -/
def infoActConfig (s : State) (d : Desc) : OpInfo :=
  let k := dfld d 16 0 6
  { fields := [(16, 0, 6), (17, 0, 5), (18, 0, 5), (18, 7, 1), (19, 0, 8), (20, 0, 11), (22, 0, 8), (23, 0, 8), (24, 0, 64), (32, 0, 32), (36, 0, 32), (40, 0, 32)], authority := didHost d && !sourceGuarded s true k }

/-- ACT_CONFIG (R128, R129, R131). -/
def execActConfig (d : Desc) (s : State) : Host.Outcome State Fault Refusal :=
  let k := dfld d 16 0 6
  .next (runDesc s d (infoActConfig s d) fun s =>
    let c := dfld d 17 0 5
    let lead := dfld d 23 0 8
    let a : Action := { cadence := c, port := dfld d 18 0 3, broadcast := dbit d 18 3, ackReq := dbit d 18 4, enable := dbit d 18 7, enableNext := dbit d 18 7, divider := dfld d 19 0 8, divPhase := dfld d 22 0 8, partner := dfld d 20 0 11, lead := if lead = 0 then 20 else lead, offset := dfld d 24 0 64, deviceKey := dfld d 32 0 32, groupKey := dfld d 36 0 32, groupMask := dfld d 40 0 32, sent := none, held := none }
    if !actFits (cadOf s c) a ∨ 100 < lead ∨ (!a.broadcast ∧ (s.ing.partners.find a.partner).isNone) then failWith s stDescInvalid
    else match s.trig.actions.find k with
      | some p =>
        let kept : Action := { a with enable := p.enable, enableNext := a.enable, sent := p.sent, held := p.held }
        if cadBusy s p.cadence ∨ cadBusy s c then
          if { kept with enableNext := p.enableNext } = p then okWith { s with trig.actions := s.trig.actions.put k kept } 0
          else failWith s stDescInvalid
        else okWith { s with trig.actions := s.trig.actions.put k { kept with enable := a.enable } } 0
      | none =>
        if cadBusy s c then failWith s stDescInvalid
        else okWith { s with trig.actions := s.trig.actions.put k a } 0)

/-- What R70 checks of TrigMon. -/
def infoTrigMon (s : State) (d : Desc) : OpInfo :=
  let k := dfld d 16 0 7
  { fields := [(16, 0, 7), (17, 0, 6), (17, 7, 1), (18, 0, 2), (20, 0, 32), (24, 0, 32), (28, 0, 32), (32, 0, 32)], authority := didHost d && !streamGuarded s k }

/-- TRIG_MON (R131). -/
def execTrigMon (d : Desc) (s : State) : Host.Outcome State Fault Refusal :=
  let k := dfld d 16 0 7
  .next (runDesc s d (infoTrigMon s d) fun s =>
    let action := dbit d 17 7
    let src := dfld d 17 0 6
    let lat := dfld d 28 0 32
    if (s.cfg.streams.find k).all (fun c => c.kind != kindCamera) ∨ (!action ∧ 32 ≤ src) ∨ lat = 0 ∨ 65535 < lat then failWith s stDescInvalid
    else
      let m : TrigMon := { source := src, action := action, enable := dbit d 18 0, checkTs := dbit d 18 1, expDelay := dfld d 20 0 32, exposure := dfld d 24 0 32, latMax := lat, tsTol := dfld d 32 0 32, instants := [], missed := 0, unmatched := 0, missRun := 0, latLargest := 0, latLast := 0, tsErrors := 0, tsLast := 0 }
      okWith { s with trig.mons := s.trig.mons.put k m } 0)

/-- What R70 checks of FlowCatchup. -/
def infoFlowCatchup (_ : State) (d : Desc) : OpInfo :=
  { fields := [(16, 0, 12), (18, 0, 2)], authority := didHost d }

/-- FLOW_CATCHUP (R138): it names an advisory flow; the mode acts from the next close. -/
def execFlowCatchup (d : Desc) (s : State) : Host.Outcome State Fault Refusal :=
  .next (runDesc s d (infoFlowCatchup s d) fun s =>
    let f := dfld d 16 0 12
    match s.cfg.flows.find f with
    | some x =>
      if x.guarded ∨ 2 < dfld d 18 0 2 then failWith s stDescInvalid
      else okWith { s with modesNext := s.modesNext.put f (dfld d 18 0 2) } 0
    | none => failWith s stDescInvalid)

/-! ### acq_start (R19, R20, R28, R128, R447) -/

/-- Rigs that a cadence uses: of its streams, of the joints that its encoders measure, of its ego groups, and of its flows' inputs. -/
def rigsOfCadence (cfg : Cfg) (c : Nat) : List Nat :=
  let bound := fun (k : Nat) => (cfg.streams.find k).any (fun (y : StreamCfg) => y.cadence == c)
  let named := (cfg.flows.filter (fun p => p.2.cadence == c)).flatMap (fun p => ((Tbl.at [] cfg.inputs p.1).filter (fun r => !r.isFlow)).map (·.index))
  (cfg.streams.filter (fun p => p.2.cadence == c || named.contains p.1)).filterMap (fun p => rigOf cfg p.1)
    ++ (cfg.joints.filter (fun p => bound p.2.primary || p.2.check.any bound)).map (·.2.rig)
    ++ (cfg.egos.filter (fun p => p.2.streams.any bound)).map (·.2.rig)

/-- A joint takes its pending references at an acq_start of a cadence that uses it, or of any where none does (R28, R206). -/
def takesRefs (cfg : Cfg) (c k : Nat) : Bool :=
  let uses := fun (d : Nat) => (cfg.joints.find k).any (fun (j : Joint) => (rigsOfCadence cfg d).contains j.rig)
  uses c || !(List.range 32).any uses

/-- Changes that take effect at an acq_start of a cadence: enables, references, latch clears, joining streams, channel settings. -/
def acqEffects (s : State) (c : Nat) : State :=
  let outs := s.trig.outs.mapV (fun _ o => if o.cadence = c then { o with enable := o.enableNext } else o)
  let acts := s.trig.actions.mapV (fun _ a => if a.cadence = c then { a with enable := a.enableNext } else a)
  let joints := s.xft.joints.mapV (fun k j =>
    if j.askedAt = some s.up ∨ !takesRefs s.cfg c k then j else
    let p : Refd := match j.nextPrimary with
      | some r => { j.primary with referenced := r.1, ref := r.2 }
      | none => j.primary
    let q : Refd := match j.nextCheck with
      | some r => { j.check with referenced := r.1, ref := r.2 }
      | none => j.check
    { j with primary := p, check := q, nextPrimary := none, nextCheck := none })
  let flows := s.safe.flows.mapV (fun f x =>
    if x.clearing ∧ (s.cfg.flows.find f).any (fun y => y.cadence == c) then { x with clearing := false, latched := false, clearedFrom := some (cadOf s c).nextStart } else x)
  let s := joinStreams s c
  let mine := fun (kind ch : Nat) => s.cfg.streams.any (fun p => p.2.field && p.2.kind == kind && p.2.source == ch && p.2.cadence == c)
  let enc := s.fld.cfg.enc.foldl (fun t p => if p.2.cadence = c then t.put p.1 p.2 else t) s.fld.live.enc
  let ser := s.fld.cfg.ser.foldl (fun t p => if mine kindImu p.1 then t.put p.1 p.2 else t) s.fld.live.ser
  let din := s.fld.cfg.din.foldl (fun t p => if mine kindDigital p.1 then t.put p.1 p.2 else t) s.fld.live.din
  { s with
    trig.outs := outs, trig.actions := acts, xft.joints := joints, safe.flows := flows
    fld.live := if s.fldT.linkUp then { enc := enc, ser := ser, din := din } else s.fld.live }

/-- Bound tasks of a cadence whose configuration changes now (R28, R289). -/
def tasksChanged (s : State) (c : Nat) : List Nat :=
  ((Tbl.at s.cfg s.live c).tasks.filter (fun p => p.2.body.cadence == c && s.cfg.tasks.find p.1 != some p.2)).map (·.1)

/-- A fresh epoch. -/
def newEpoch (s : State) (c n : Nat) : Epoch :=
  { cadence := c, epoch := n, cfg := s.cfg, enabledAt := (s.ing.streams.filter (fun p => p.2.enabled)).map (·.1), joints := s.xft.joints, changedTasks := tasksChanged s c, closed := false, gen := 0, active := [], cut := 0, target := 0, reef := 0, flows := [], alignEnd := none,
    poseEnd := none, egosDone := [], volsDone := [], geoEnd := none, badJoints := [], badStreams := [], tasks := [], gridsDone := [], gridNs := 0,
    finished := false, lateSeen := false, aborted := false, past := false, windowMissed := false, decided := [], stagesEnded := [] }

/-- A configuration change that takes effect at acq_start(n) restarts an ego group and empties a grid from epoch n on
(R28, R218, R249). -/
def restartChanged (s : State) (c n : Nat) : State :=
  let old := Tbl.at s.cfg s.live c
  let rigChanged := fun (r : Nat) => old.rigs.find r != s.cfg.rigs.find r || s.cfg.joints.filter (fun p => p.2.rig == r) != old.joints.filter (fun p => p.2.rig == r)
  let mine := fun (e : EgoCfg) => e.streams.any (fun k => (s.cfg.streams.find k).any (fun y => y.cadence == c))
  { s with
    xft.egos := s.xft.egos.mapV (fun g x => match s.cfg.egos.find g with
      | some e => if mine e ∧ (old.egos.find g ≠ some e ∨ rigChanged e.rig) then { x with restarts := x.restarts ++ [n] } else x
      | none => x)
    geo.grids := s.geo.grids.mapV (fun g x => match s.cfg.grids.find g with
      | some y => if y.cadence = c ∧ old.grids.find g ≠ some y then { x with restarts := x.restarts ++ [n] } else x
      | none => x) }

/-- A bound task that is unbound or changed gives up its kept places (R28, R289). -/
def releaseKept (s : State) (changed : List Nat) : State :=
  let gone := fun (i : Instance) => i.kept.any (fun k => changed.contains k.1)
  { s with eng.instances := Tbl.mapV (s.eng.instances.filter (fun p => !(gone p.2 && !p.2.active))) (fun _ i => if gone i then { i with kept := none } else i) }

/-- Messages of publications that are removed or disabled now are discarded (R28, R568). -/
def dropMessages (s : State) (c : Nat) : State :=
  let old := Tbl.at s.cfg s.live c
  let gone := fun (m : Message) =>
    (old.pubs.find m.pub).any (fun p => (old.flows.find p.flow).any (fun f => f.cadence == c)) && !((s.cfg.pubs.find m.pub).any (·.enable))
  { s with eth.pending := s.eth.pending.filter (fun p => !gone p.2) }

/-- The configuration that an acq_start takes: a change of the same FAB cycle applies from the following epoch (R28). -/
def startCfg (s : State) : Cfg := if s.changedAt = some s.up then s.cfgPrev else s.cfg

/-- CADENCE_ACQ_START: acq_start(n) of a cadence (R19, R20, R28). -/
def execCadenceAcqStart (c : Nat) (s : State) : Host.Outcome State Fault Refusal :=
  let x := cadOf s c
  let n := x.nextStart
  if !x.runs n then .next s else
  let s := advanceTo s (x.acqStart n)
  let latest := s.cfg
  let s := acqEffects { s with cfg := startCfg s } c
  let s := setCad s c { cadOf s c with st := .running, nextStart := n + 1 }
  let e := newEpoch s c n
  let s := dropMessages (restartChanged s c n) c
  .next { s with live := s.live.put c s.cfg, epochs := s.epochs ++ [e], cfg := latest }

/-! ### close (R27, R95, R134 to R140) -/

/-- A grid may reef: advisory, or permitted by the image (R139, R247). -/
def reefable (g : GridCfg) : Bool := !g.guarded || decide (0 < g.reefMax)

/-- Enabled grids of a cadence in a configuration. -/
def gridsOf (cfg : Cfg) (c : Nat) : List (Nat × GridCfg) := cfg.grids.filter (fun p => p.2.enable && p.2.cadence == c)

/-- k_max of R139. -/
def reefLimit (cfg : Cfg) (c : Nat) : Nat :=
  match (gridsOf cfg c).filter (fun p => reefable p.2) with
  | [] => 0
  | g :: gs => gs.foldl (fun m p => min m p.2.reefMax) g.2.reefMax

/-- The reef level of R139: times in ns; the grid's share at level k is dGrid / 4^k. -/
def reefLevel (close dCore dGrid target kmax : Nat) : Nat → Nat → Nat
  | 0, k => k
  | fuel + 1, k =>
    if (target : Int) * (4 ^ k : Nat) < ((close + dCore) * 4 ^ k : Nat) - (dGrid * (4 ^ k - 1) : Nat) ∧ k < kmax then
      reefLevel close dCore dGrid target kmax fuel (k + 1)
    else k

/-- Non-deferred work of an epoch has not all ended (R137). -/
def Epoch.unfinished (e : Epoch) : Bool := e.closed && !e.finished && !e.aborted

/-- A consumed result's grid input of a flow: contested, unseen (R266). -/
def gridInput (a : Area) (g : GridCfg) (rows : List RegionRow) (tov : Nat) : Bool × Bool :=
  let nc := (g.w + 2 ^ g.regionLog2 - 1) / 2 ^ g.regionLog2
  let mine := (List.range rows.length).filter (fun q => decide (a.col0 ≤ q % nc ∧ q % nc ≤ a.col1 ∧ a.row0 ≤ q / nc ∧ q / nc ≤ a.row1))
  let row := fun q => rows[q]?
  (mine.any (fun q => (row q).any (fun r => r.st == .contested)),
   decide (a.unseenMax ≠ 0) && mine.any (fun q => (row q).any (fun r => decide (r.lastSeen + a.unseenMax * 1000000 < tov))))

/-- The area of a flow in a grid: the whole grid with the limit off where none is set (R265). -/
def areaOf (cfg : Cfg) (f g : Nat) : Area :=
  match cfg.areas.find (f * 8 + g) with
  | some a => a
  | none => { grid := g, required := true, col0 := 0, row0 := 0, col1 := 255, row1 := 255, unseenMax := 0 }

/-- The run of one flow, with what it takes from other flows at its close (R27, R138). -/
def newRun (s : State) (e : Epoch) (f : Nat) (x : FlowCfg) : FlowRun :=
  let ins := Tbl.at [] e.cfg.inputs f
  { flow := f, guarded := x.guarded, mode := if x.guarded then 1 else Tbl.at 0 s.modes f,
    taken := (ins.filter (·.isFlow)).map (fun r => takeResult s r.index r.required),
    gated := false, runs := true, missing := false, partial_ := false, degraded := false, fallback := false, reefed := false,
    truncated := false, old := none, status := stOk, flags := 0, late := false, ended := false, failAt := none, failSeq := none, doubted := false,
    written := false }

/-- Units run the epoch: the FAB domain is out of reset, the power state is P0 or P1, and neither P2 nor P3 is requested (R122, R546). -/
def processing (s : State) : Bool :=
  !s.power.inReset.contains 2 && decide (s.power.pstate ≤ 1) && !(s.power.busy && decide (2 ≤ s.power.goal))

/-- Open the epoch's processing at its close. -/
def openEpoch (s : State) (e : Epoch) (deltas : Tbl Int) (cut target reef : Nat) : State :=
  let fs := (e.cfg.flows.filter (fun p => p.2.cadence == e.cadence && p.2.enable)).map (fun p => newRun s e p.1 p.2)
  let s := updEpoch s e.cadence e.epoch (fun x => { x with closed := true, gen := s.tb.gen, active := e.active, cut := cut, target := target, reef := reef, flows := fs })
  let s := { s with ing.deferring := s.ing.deferring ++ (tagStreams e).map (fun k => (e.cadence, k)) }
  let a := align s e deltas
  { s with spl.tables := s.spl.tables.put (2 * e.cadence + e.epoch % 2) a.table, spl.holds := s.spl.holds ++ a.holds }

/-- Catch-up at a close: cut, target, reef level and the stalled report (R137, R139, R140). -/
def catchUp (s : State) (c n : Nat) (e : Epoch) (deltas : Tbl Int) : State :=
  let x := cadOf s c
  let pend := if (epochOf s c (n - 1)).any (fun p => decide (p.epoch + 1 = n) && p.unfinished) then x.close n - x.deadline (n - 1) else 0
  let cut := min (x.debt + pend) (x.trimFrac * (x.budget * 1000) / 256)
  let target := x.deadline n - cut
  let reef := if cut = 0 then 0 else reefLevel (x.close n) x.dCore x.dGrid target (reefLimit e.cfg c) 4 0
  let run := if cut = 0 then 0 else x.catchupRun + 1
  let hit := decide (0 < run) && decide (run % x.catchupLimit = 0)
  let s := setCad s c { x with cut := cut, reef := reef, catchupRun := run, stalled := x.stalled || hit }
  let s := if hit then raise s (reportOf s sevWarn 16 c 0x0103) else s
  openEpoch s e deltas cut target reef

/-- CADENCE_CLOSE: close(n) of a cadence (R95, R97, R137 to R140, R179, R193, R194). An epoch whose acq_start came before a reset of the
FAB domain and whose close follows its release is processed, with the configuration of its close (R122). -/
def execCadenceClose (c : Nat) (s : State) : Host.Outcome State Fault Refusal :=
  let x := cadOf s c
  let n := x.nextClose
  if x.st ≠ .running ∨ x.nextStart ≤ n then .next s else
  let s := advanceTo s (x.close n)
  let s := setCad s c { x with nextClose := n + 1, epoch := n }
  if s.power.inReset.contains 2 then .next (dropEpoch s c n) else
  let s := icuPulse (setCadenceKnot s true c (BitVec.ofNat 32 (n + 1))) c
  let s := trace s 2 16 c (n % 2 ^ 32)
  let mine : Tbl Nat := s.modesNext.filter (fun (p : Nat × Nat) => (s.cfg.flows.find p.1).any (fun f => f.cadence == c))
  let s := { s with modes := mine.foldl (fun (t : Tbl Nat) (p : Nat × Nat) => t.put p.1 p.2) s.modes, modesNext := s.modesNext.filter (fun (p : Nat × Nat) => !mine.contains p) }
  let cfg := ((epochOf s c n).map (·.cfg)).getD (Tbl.at s.cfg s.live c)
  let deltas : Tbl Int := cfg.streams.filterMap (fun p => ((streamOf s p.1).deltaMin (driftOff s p.1 p.2)).map (fun d => (p.1, d)))
  let before := s.ing.streams
  let s := cfg.streams.foldl (fun s p => if p.2.cadence = c then closeStream s c n p.1 p.2 else s) s
  let s := if (epochOf s c n).isNone ∧ processing s then { s with epochs := s.epochs ++ [newEpoch s c n] } else s
  match epochOf s c n with
  | none => .next s
  | some e =>
    let active := (before.filter (fun p => p.2.serves e p.1 && !(streamOf s p.1).suspect)).map (·.1)
    let s := releaseKept s e.changedTasks
    if processing s then .next (catchUp s c n { e with active := active } deltas) else .next (dropEpoch s c n)

/-! ### Lateness (R134, R135) -/

/-- The unit work that threads issued ends with them: what waits leaves its unit, what runs ends without a record (R135). -/
def dropCalls (s : State) (gone : Nat → Bool) : State :=
  let mine := fun (q : Source) => match q with
    | .call t _ => gone t
    | _ => false
  let s := { leaveUnitsOf s mine with seq.seqs := s.seq.seqs.mapV (fun _ q => { q with waiting := q.waiting.filter (fun a => !mine a.desc.src) }) }
  endDescs s (fun d => mine d.src)

/-- Stop the work of an epoch: its task runs, their instances and what these issued to units end, without statuses of their own (R135). -/
def dropRuns (s : State) (c n : Nat) : State :=
  let gone := (s.eng.runs.filter (fun p => p.2.bound.isSome && p.2.body.cadence == c && p.2.epoch == n)).map (·.1)
  let insts := s.eng.instances.filter (fun p => gone.contains p.2.run && p.2.active)
  let s := dropCalls s (fun t => insts.any (fun p => p.2.threads.contains t))
  let s := insts.foldl (fun s p => p.2.threads.foldl (fun s t =>
    updThread s t (fun x => { x with st := .free, inst := none, waiting := .none, held := [], signals := [], calls := [] })) (dropCopies s p.2.engine p.1)) s
  let waits := s.eng.waits.filter (fun w => !(insts.any (fun p => p.2.threads.contains w.1)))
  { s with
    eng.waits := waits
    eng.runs := s.eng.runs.filter (fun p => !gone.contains p.1)
    eng.instances := Tbl.mapV (s.eng.instances.filter (fun p => !(gone.contains p.2.run && p.2.kept.isNone))) (fun _ i => if gone.contains i.run then { i with active := false } else i) }

/-- Count an abandoned epoch and report it (R135, R141). -/
def noteAbandoned (s : State) (e : Epoch) : State :=
  let x := cadOf s e.cadence
  raise (setCad s e.cadence { x with abandoned := satAdd 16 x.abandoned 1 })
    { reportOf s sevWarn 16 e.cadence 0x0112 with detail := e.epoch % 2 ^ 32 }

/-- Abandon an epoch (R135): its advisory flows without records complete with ABORTED and LATE. -/
def abandon (s : State) (e : Epoch) : State :=
  let s := dropRuns (countLate s e.cadence e.epoch) e.cadence e.epoch
  let s := together s fun s => e.flows.foldl (fun s r =>
    let s := if r.ended then s else settleSeqs s r.flow e.epoch false
    if r.guarded ∨ r.written then s
    else writeResult s e r.flow { emptyResult s e r.flow stAborted flagLate with age := ageOf (e.tov s) r.old, old := r.old } false) s
  let s := updEpoch s e.cadence e.epoch (fun e => { e with aborted := true, finished := true })
  let grids := s.geo.grids.mapV (fun g y => if (e.cfg.grids.find g).any (fun q => q.cadence == e.cadence) ∧ y.running.any (fun r => r.1 == e.epoch) then { y with running := none } else y)
  noteAbandoned { s with geo.grids := grids, spl.holds := s.spl.holds.filter (fun h => !(h.1 == e.cadence && h.2.1 == e.epoch)) } e

/-- CADENCE_DEADLINE: deadline(n) passes (R30, R134, R135, R442). The instant deadline(l + 1) that ends the late work of a last epoch l
passes without an epoch of its own (R125). -/
def execCadenceDeadline (c : Nat) (s : State) : Host.Outcome State Fault Refusal :=
  let x := cadOf s c
  let n := x.nextDeadline
  if x.st ≠ .running ∨ (x.nextClose ≤ n ∧ x.last.all (fun l => l + 1 ≠ n)) then .next s else
  let s := setCad (advanceTo s (x.deadline n)) c { x with nextDeadline := n + 1 }
  let s := if n < x.nextClose then icuPulse s (32 + c) else s
  let s := match epochOf s c (n - 1) with
    | some e => if e.epoch + 1 = n ∧ !e.complete ∧ !e.aborted then abandon s e else s
    | none => s
  let s := updEpoch s c n (fun e =>
    { e with past := true, flows := e.flows.map (fun r => if r.guarded ∧ !r.written then { r with failAt := some (r.failAt.getD s.now) } else r) })
  .next (releaseEpoch s c (n - 1))

/-- A flow's work counts as deferred in this epoch: mode DEFER or SKIP in catch-up (R137, R138). -/
def deferred (e : Epoch) (r : FlowRun) : Bool := decide (0 < e.cut) && !r.guarded && r.mode != 1

/-- EPOCH_WORK_FINISH: the last non-deferred work of an epoch has ended (R125, R137). -/
def execEpochWorkFinish (c n : Nat) (s : State) : Host.Outcome State Fault Refusal :=
  match epochOf s c n with
  | none => .next s
  | some e =>
    if !e.closed ∨ e.finished ∨ e.alignEnd.isNone ∨ e.geoEnd.isNone ∨ e.flows.any (fun r => !deferred e r && !r.ended)
        ∨ e.cfg.grids.any (fun p => gridPending s e p.1 && !(e.carrier p.1).any (deferred e)) then .next s else
    let x := cadOf s c
    let debt : Int := (x.debt : Int) + ((s.now : Int) - (x.deadline n : Int))
    let late := decide (x.deadline n < s.now)
    let s := setCad s c { x with debt := debt.toNat, dCore := s.now - x.close n, dGrid := e.gridNs * 4 ^ e.reef }
    let s := if late then countLate s c n else s
    let s := updEpoch s c n (fun e => { e with finished := true })
    .next (releaseEpoch s c n)

/-! ### Scheduled actions and monitoring (R130 to R133) -/

/-- The next epoch for which a schedule sends: its index and action time. -/
def nextAction (s : State) (a : Action) : Option (Nat × Nat) :=
  let c := cadOf s a.cadence
  if !a.enable ∨ c.period = 0 ∨ a.divider < a.divPhase then none else
  let after := match a.sent with
    | some f => f + 1
    | none => 0
  let reach := (s.now + a.lead * 100000 - (c.phase + a.offset) + c.period - 1) / c.period
  let n := selectedFrom a.divider a.divPhase (max c.start (max after reach))
  if c.runs n then some (n, c.acqStart n + a.offset) else none

/-- Severity of the k-th consecutive MISSED (R133). -/
def missSev (run : Nat) : Nat := if 3 ≤ run then sevWarn else sevInfo

/-- A MISSED of a stream is counted, with its record (R132, R133). -/
def countMissed (s : State) (k : Nat) (m : TrigMon) : State :=
  let m := { m with missed := satAdd 16 m.missed 1, missRun := m.missRun + 1 }
  raise { s with trig.mons := s.trig.mons.put k m } (streamReport s (missSev m.missRun) k 0x0110)

/-- The GVCP ACTION_CMD of a schedule: header with the scheduled and acknowledge flags, keys, mask, action time (R129, R130; log 128). -/
def actionBytes (a : Action) (req t : Nat) : List Byte :=
  beBytes 1 0x42 ++ beBytes 1 (128 + if a.ackReq then 1 else 0) ++ beBytes 2 0x0100 ++ beBytes 2 20 ++ beBytes 2 req
    ++ beBytes 4 a.deviceKey ++ beBytes 4 a.groupKey ++ beBytes 4 a.groupMask ++ beBytes 8 t

/-- MAC address to which a schedule sends: limited broadcast, or its partner's (R129, R148). -/
def actionDest (s : State) (a : Action) : Nat :=
  if a.broadcast then 2 ^ 48 - 1 else ((s.ing.partners.find a.partner).map (·.peerMac)).getD 0

/-- The highest egress traffic class (R130). -/
def topClass : Nat := 7

/-- A command leaves: traffic class and destination before the message; its instant reaches the monitors (R129, R130, R132). -/
def sendAction (s : State) (k t : Nat) (a : Action) : State :=
  noteInstant (emit (tickFresh s) (.frame a.port 3956
    (beBytes 1 topClass ++ beBytes 6 (actionDest s a) ++ actionBytes a ((Config.freeWord s.fresh).toNat % 65536) t))) true k t

/-- A command held back beyond t_act − 100 µs is not sent: ACTION_LATE, and MISSED on the streams that monitor it (R130, R133). -/
def lateAction (s : State) (k : Nat) : State :=
  let s := raise s (chipReport s sevWarn 0x07 0x0102)
  (s.trig.mons.filter (fun p => p.2.watches true k)).foldl (fun s p => countMissed s p.1 p.2) s

/-- A command that its port lets go at an instant. -/
def finishAction (s : State) (k t at_ : Nat) (a : Action) : State :=
  if t < at_ + 100000 then lateAction s k else sendAction s k t a

/-- ACTION_CMD_SEND: a schedule's next send instant, held back by the port's gates for `hold` ns; a link that is down holds the command
until it is up, or until t_act − 100 µs (R128, R130). -/
def execActionCmdSend (action hold : Nat) (s : State) : Host.Outcome State Fault Refusal :=
  match s.trig.actions.find action with
  | none => .next s
  | some a =>
    let put := fun (s : State) (a : Action) => { s with trig.actions := s.trig.actions.put action a }
    if 2 < s.power.pstate then .next s else
    match a.held with
    | some t =>
      let a := { a with held := none }
      if portUp s a.port then .next (finishAction (put s a) action t (s.now + hold) a)
      else .next (lateAction (put (advanceTo s (t - 100000)) a) action)
    | none =>
      match nextAction s a with
      | none => .next s
      | some (n, t) =>
        let s := advanceTo s (t - a.lead * 100000)
        let a := { a with sent := some n }
        if portUp s a.port then .next (finishAction (put s a) action t (s.now + hold) a)
        else .next (put s { a with held := some t })

/-- The earliest instant that still waits for its acknowledgement takes one. -/
def TrigMon.ack (m : TrigMon) (now : Nat) : TrigMon :=
  match m.instants.find? (fun i => !i.acked && decide (now ≤ i.time + m.latMax * 1000)) with
  | some j => { m with instants := m.instants.map (fun i => if i.time = j.time then { i with acked := true } else i) }
  | none => m

/-- ACTION_ACK_RX: an acknowledgement of an action, which a camera may send before the action time (R132; log 128). -/
def execActionAckRx (action : Nat) (s : State) : Host.Outcome State Fault Refusal :=
  .next { s with trig.mons := s.trig.mons.mapV (fun _ m => if m.watches true action then m.ack s.now else m) }

/-- The stream has no sample for the epoch of an instant: a frame matched to it is taken out again (R132). -/
def loseSample (s : State) (k t : Nat) : State :=
  let s := updStream s k (fun x => { x with samples := x.samples.filter (fun y => y.time != t) })
  { s with ing.cams := s.ing.cams.filter (fun f => !(f.stream == k && f.time == t)) }

/-- TRIGGER_MISSED: lat_max passes after the oldest instant of a stream that was not met (R132, R133). -/
def execTriggerMissed (stream : Nat) (s : State) : Host.Outcome State Fault Refusal :=
  match s.trig.mons.find stream with
  | none => .next s
  | some m =>
    let ack := wantsAck s m
    match m.instants.find? (fun i => !instantMet ack i) with
    | none => .next s
    | some i =>
      let s := advanceTo s (i.time + m.latMax * 1000 + 1)
      let m := m.settle ack s.now
      let s := if i.matched then loseSample s stream (i.time + m.expDelay + m.exposure / 2) else s
      .next (countMissed s stream { m with instants := m.instants.drop 1 })

end Sys2Proof.Machine
end

