-- ==== Sys2Proof/Machine/Approx.lean ====
section
/-! DEFINITION. Functions whose error the spec bounds and whose bits it does not give (spec/07_intake.md R163, spec/09_transforms_ego_motion.md R205, spec/13_engine_instructions.md R310): the true value to far more bits than any result keeps, and a free choice among the results within the bound (log entry 129). -/

namespace Sys2Proof.Machine

/-! ### Fixed point with 256 fraction bits -/

def fixOne : Int := 2 ^ 256
def fixMul (a b : Int) : Int := a * b / fixOne
/-- π and the natural logarithm of 2, rounded down. -/
def fixPi : Int := 363771576891766324280234942777729862653393377328392429958772151117938894466185
def fixLn2 : Int := 80260960185991308862233904206310070533990667611589946606122867505419956976171

/-- A finite value, cut below 2^-256; none of the others. -/
def toFix (x : FVal) : Option Int :=
  match x with
  | .fin n m e =>
    let v : Int := if -256 ≤ e then (m * 2 ^ (e + 256).toNat : Nat) else (m / 2 ^ (-256 - e).toNat : Nat)
    some (if n then -v else v)
  | _ => none

/-- Terms k, k + 2, … of the series of sine and cosine: `t` is the term at k, `q` the square of the angle. -/
def trigTerms (q : Int) : Nat → Nat → Int → Int → Int
  | 0, _, _, sum => sum
  | n + 1, k, t, sum => trigTerms q n (k + 2) (-(fixMul t q) / ((k + 1) * (k + 2) : Nat)) (sum + t)

/-- An angle reduced to (−π, π]. -/
def fixReduce (x : Int) : Int := x - 2 * fixPi * (-((fixPi - x) / (2 * fixPi)))

def fixSin (x : Int) : Int :=
  let y := fixReduce x
  trigTerms (fixMul y y) 60 1 y 0
def fixCos (x : Int) : Int :=
  let y := fixReduce x
  trigTerms (fixMul y y) 60 0 fixOne 0

/-- Terms of the exponential series. -/
def expTerms (x : Int) : Nat → Nat → Int → Int → Int
  | 0, _, _, sum => sum
  | n + 1, k, t, sum => expTerms x n (k + 1) (fixMul t x / (k + 1 : Nat)) (sum + t)
def fixExp (x : Int) : Int := expTerms x 80 0 fixOne 0

/-- Terms of the inverse hyperbolic tangent. -/
def atanhTerms (q : Int) : Nat → Nat → Int → Int → Int
  | 0, _, _, sum => sum
  | n + 1, k, t, sum => atanhTerms q n (k + 2) (fixMul t q) (sum + t / (k : Nat))
/-- The natural logarithm of a number from 1 to 2. -/
def fixLn (y : Int) : Int :=
  let t := (y - fixOne) * fixOne / (y + fixOne)
  2 * atanhTerms (fixMul t t) 90 1 t 0

/-! ### A free result within a bound -/

/-- The encoding c lies within so many units in the last place of y * 2^e. -/
def ulpClose (f : Fmt) (units : Nat) (y e : Int) (c : Nat) : Bool :=
  match decodeF f c with
  | .fin n m h =>
    let q := quantum f y.natAbs e
    let b := min (min h e) q
    decide ((alignTo n m h b - y * (2 ^ (e - b).toNat : Nat)).natAbs ≤ units * 2 ^ (q - b).toNat)
  | _ => false

/-- A candidate where it lies within the bound, else y * 2^e rounded to nearest even. -/
def approxF (f : Fmt) (units : Nat) (y e : Int) (cand : Nat) : Nat :=
  let c := cand % 2 ^ f.width
  if ulpClose f units y e c then c else (arithOf f false y e).1

/-- Sine and cosine of half an FP64 angle, within 1 unit in the last place of FP32 (R205). -/
def sinHalf (v : Nat) : Nat :=
  match toFix (decodeF fp64 v) with
  | some x => approxF fp32 1 (fixSin (x / 2)) (-256) (Config.sinHalf v)
  | none => nanBits fp32
def cosHalf (v : Nat) : Nat :=
  match toFix (decodeF fp64 v) with
  | some x => approxF fp32 1 (fixCos (x / 2)) (-256) (Config.cosHalf v)
  | none => nanBits fp32

/-- An FP64 angle lies in (−π, π], π as rounded to FP64. -/
def inTurn (v : Nat) : Bool :=
  match decodeF fp64 v, decodeF fp64 0x400921FB54442D18 with
  | .fin n m e, .fin _ k h => !leD (sgn n m) e (-(k : Int)) h && leD (sgn n m) e k h
  | _, _ => false

/-- An FP64 angle reduced to (−π, π]: a free value there, by default the reduced angle to nearest (R205 gives no arithmetic for it). -/
def wrapAngle (v : Nat) : Nat :=
  let c := Config.wrapAngle v % 2 ^ 64
  if inTurn c then c else
  match toFix (decodeF fp64 v) with
  | some x =>
    let r := (arithOf fp64 false (fixReduce x) (-256)).1
    if inTurn r then r else 0x400921FB54442D18
  | none => v

/-- One coordinate of POL in units of its range, within 1 unit (R163). -/
def polar (r az el axis : Nat) : Int :=
  let turn := fun (k : Nat) => fixPi * (signed 16 k) / 32768
  let flat := fixCos (turn el)
  let v : Int := r * (match axis with
    | 0 => fixMul flat (fixCos (turn az))
    | 1 => fixMul flat (fixSin (turn az))
    | _ => fixSin (turn el))
  let q := (v + 2 ^ 155) / 2 ^ 156
  let c := Config.polar r az el axis
  if (c * 2 ^ 100 - q).natAbs ≤ 2 ^ 100 then c else (q + 2 ^ 99) / 2 ^ 100

/-- 2^x of a finite FP32 operand within 2 units in the last place, with its overflow (R310). -/
def exp2Approx (a : Nat) (x : Int) : Nat × Nat :=
  let i := min 1000 (max (-1000) (x / fixOne))
  let y := fixExp (fixMul (x % fixOne) fixLn2)
  let d := arithOf fp32 false y (i - 256)
  match decodeF fp32 d.1 with
  | .fin _ _ _ => (approxF fp32 2 y (i - 256) (Config.vexp2 a), 0)
  | _ => d

/-- log2 of m * 2^e within 2 units in the last place (R310). -/
def log2Approx (a m : Nat) (e : Int) : Nat :=
  let k := Nat.log2 m
  let ln := fixLn ((m * 2 ^ 256 / 2 ^ k : Nat) : Int)
  approxF fp32 2 (ln * fixOne / fixLn2 + (k + e) * fixOne) (-256) (Config.vlog2 a)

end Sys2Proof.Machine
end

