-- ==== Sys2Proof/Machine/Field.lean ====
section
/-! DEFINITION. The field die: supply, firmware, trigger edges, encoders, serial ports, digital inputs, key, seal loop and safe-state switches (spec/25_field_side.md, spec/05_time_base.md R118 to R119, spec/06_cadences_triggers.md R127). -/

namespace Sys2Proof.Machine

/-- A stream that guarded work reads takes its samples from this channel (R605). -/
def channelGuarded (s : State) (kind ch : Nat) : Bool :=
  s.cfg.streams.any (fun p => p.2.field && p.2.kind == kind && p.2.source == ch && streamGuarded s p.1)

/-- Cadences of the streams that read a channel. -/
def channelCads (s : State) (kind ch : Nat) : List Nat :=
  (s.cfg.streams.filter (fun p => p.2.field && p.2.kind == kind && p.2.source == ch)).map (·.2.cadence)

/-! ### Configuration (R591, R605) -/

/-- The image configures a bank: it holds an output that a binding of the image names for a camera stream of guarded work (R605). -/
def bankGuarded (s : State) (b : Nat) : Bool :=
  s.sec.image.any (fun i => i.mons.any (fun p => !p.2.action && p.2.source / 8 == b && streamGuarded s p.1))

/-- What R70 checks of FldBank. -/
def infoFldBank (s : State) (d : Desc) : OpInfo :=
  let b := dfld d 16 0 2
  { fields := [(16, 0, 2), (17, 0, 2)], authority := didHost d && !bankGuarded s b }

/-- FLD_BANK (R591, R605). -/
def execFldBank (d : Desc) (s : State) : Host.Outcome State Fault Refusal :=
  let b := dfld d 16 0 2
  .next (runDesc s d (infoFldBank s d) fun s =>
    if dfld d 17 0 2 = 3 ∨ s.trig.outs.any (fun p => p.1 / 8 == b && cadBusy s p.2.cadence) then failWith s stDescInvalid
    else
      let s := { s with fld.bankCfg := s.fld.bankCfg.put b (dfld d 17 0 2) }
      okWith (if fieldRuns s && s.fldT.linkUp then { s with fld.banks := s.fld.banks.put b (dfld d 17 0 2) } else s) 0)

/-- What R70 checks of FldEnc. -/
def infoFldEnc (s : State) (d : Desc) : OpInfo :=
  let k := dfld d 16 0 3
  { fields := [(16, 0, 3), (17, 0, 1), (17, 7, 1), (18, 0, 5), (20, 0, 32), (24, 0, 8)], authority := didHost d && !channelGuarded s kindEncoder k }

/-- FLD_ENC (R594, R605): from the next acq_start of the cadence it names. -/
def execFldEnc (d : Desc) (s : State) : Host.Outcome State Fault Refusal :=
  let k := dfld d 16 0 3
  .next (runDesc s d (infoFldEnc s d) fun s =>
    let e : EncCfg := { htl := dbit d 17 0, enable := dbit d 17 7, cadence := dfld d 18 0 5, k := dfld d 20 0 32, filter := dfld d 24 0 8 }
    let c := cadOf s e.cadence
    if 1000000 < e.k ∨ 100 < e.filter ∨ !encFits c e then failWith s stDescInvalid
    else okWith { s with fld.cfg.enc := s.fld.cfg.enc.put k e } (c.period / e.k / 1000))

/-- The rate that 200 MHz divides to, nearest to a request. -/
def serialRate (rate : Nat) : Nat :=
  let n := 200000000 / rate
  let a := 200000000 / n
  let b := 200000000 / (n + 1)
  if a - rate ≤ rate - b then a else b

/-- What R70 checks of FldSerial. -/
def infoFldSerial (s : State) (d : Desc) : OpInfo :=
  let k := dfld d 16 0 3
  { fields := [(16, 0, 3), (17, 0, 6), (18, 0, 8), (19, 0, 8), (20, 0, 16), (22, 0, 16), (24, 0, 32)], authority := didHost d && !channelGuarded s kindImu k }

/-- FLD_SERIAL (R595, R596, R605). -/
def execFldSerial (d : Desc) (s : State) : Host.Outcome State Fault Refusal :=
  let k := dfld d 16 0 3
  .next (runDesc s d (infoFldSerial s d) fun s =>
    let x : SerCfg := { mode := dfld d 17 0 2, parity := dfld d 17 2 2, framing := dfld d 17 4 2, gap := dfld d 18 0 8, syncCount := dfld d 19 0 8, sync := dfld d 20 0 16, length := dfld d 22 0 16, rate := dfld d 24 0 32 }
    if x.mode = 3 ∨ x.parity = 3 ∨ x.framing = 3 ∨ 2 < x.syncCount ∨ x.length = 0 ∨ 1024 < x.length ∨ x.rate < 9600 ∨ 12000000 < x.rate
        ∨ (x.framing = 0 ∧ x.gap = 0) ∨ (x.framing = 2 ∧ x.syncCount = 0) then failWith s stDescInvalid
    else
      let r := serialRate x.rate
      if x.rate < 100 * (max r x.rate - min r x.rate) then failWith s stDescInvalid
      else
        let s := { s with fld.cfg.ser := s.fld.cfg.ser.put k x }
        let now := channelCads s kindImu k = [] ∧ fieldRuns s ∧ s.fldT.linkUp
        okWith (if now then { s with fld.live.ser := s.fld.live.ser.put k x } else s) r)

/-- What R70 checks of FldDin. -/
def infoFldDin (s : State) (d : Desc) : OpInfo :=
  let k := dfld d 16 0 3
  { fields := [(16, 0, 3), (17, 0, 2), (17, 7, 1), (20, 0, 32)], authority := didHost d && !channelGuarded s kindDigital k }

/-- FLD_DIN (R597, R605). -/
def execFldDin (d : Desc) (s : State) : Host.Outcome State Fault Refusal :=
  let k := dfld d 16 0 3
  .next (runDesc s d (infoFldDin s d) fun s =>
    let x : DinCfg := { edges := dfld d 17 0 2, enable := dbit d 17 7, filter := dfld d 20 0 32 }
    if x.edges = 0 ∨ 10000 < x.filter then failWith s stDescInvalid
    else
      let s := { s with fld.cfg.din := s.fld.cfg.din.put k x }
      let now := channelCads s kindDigital k = [] ∧ fieldRuns s ∧ s.fldT.linkUp
      okWith (if now then { s with fld.live.din := s.fld.live.din.put k x } else s) 0)

/-! ### Supply, firmware and link (R586 to R590, R119) -/

/-- FIELD_BROWNOUT: below 16.5 V for 100 µs (R588, R589). -/
def execFieldBrownout (s : State) : Host.Outcome State Fault Refusal :=
  if !s.fld.powered then .next s else
  let s := switchTo (switchTo s 0 false) 1 false
  .next (driveSafe { s with
    fld := { s.fld with
      powered := false, fwRunning := false, overvoltage := false, brownoutFlag := true, brownouts := satAdd 16 s.fld.brownouts 1
      live := FldCfg.reset, banks := [], enc := [], ser := [], din := [], buffer := [], dropped := 0, crc := 0, overload := [], pair := 0, pairSince := 0
      sealBad := none, sealBroken := false, sealLatched := false, sw0 := Switch.reset, sw1 := Switch.reset, heartbeat := none, readback := false }
    fldT.valid := false
    fldT.hold := false
    fldT.inRun := 0
    trig.outs := s.trig.outs.mapV (fun _ o => { o with activeUntil := none }) })

/-- FIELD_SUPPLY_GOOD: above 18.0 V for 20 ms; the boot ROM starts (R588). -/
def execFieldSupplyGood (s : State) : Host.Outcome State Fault Refusal :=
  if s.fld.powered then .next s else .next { s with fld.powered := true }

/-- Insert a record in the order of stamps. -/
def insertRec : List FieldRec → FieldRec → List FieldRec
  | [], r => [r]
  | x :: xs, r => if r.time < x.time then r :: x :: xs else x :: insertRec xs r

/-- A table's entries over another's. -/
def overlayTbl {α : Type} (top base : Tbl α) : Tbl α := top.foldl (fun t p => t.put p.1 p.2) base

/-- Every joint loses its references, for the epochs under way too (R208). -/
def loseRefs (s : State) : State :=
  let lose := fun (t : Tbl JointSt) => t.mapV (fun _ j => { j with primary := { j.primary with referenced := false }, check := { j.check with referenced := false }, nextPrimary := none, nextCheck := none })
  { s with xft.joints := lose s.xft.joints, epochs := s.epochs.map (fun e => { e with joints := lose e.joints }) }

/-- The first report after link-up: its brown-out flag reaches the transform unit and the safety island (R208, R589). -/
def firstReport (s : State) : State :=
  if s.fld.brownoutFlag then raise { loseRefs s with fld.brownoutFlag := false } (chipReport s sevWarn 0x13 0x0180) else s

/-- FIELD_LINK_UP, with the first report over it: markers pass again; the field die slews or steps with the next exchange, and what
it buffered leaves in the order of stamps (R119, R590). The link stays down while its domain is in reset, and where the field die's firmware
failed (R538, R552). -/
def execFieldLinkUp (s : State) : Host.Outcome State Fault Refusal :=
  if s.fldT.linkUp ∨ !s.fld.powered ∨ s.power.inReset.contains 9 ∨ s.power.error = 5 ∨ s.dbg.tests 26 2 then .next s
  else .next (firstReport { s with
    fldT.linkUp := true
    fldT.relinks := if s.fldT.wasUp then satAdd 8 s.fldT.relinks 1 else s.fldT.relinks
    fldT.wasUp := true
    fldT.st := .acquire
    fldT.inRun := 0
    power.fieldBrownouts := s.fld.brownouts
    fld.banks := if s.fld.fwRunning then overlayTbl s.fld.bankCfg s.fld.banks else s.fld.banks
    fld.buffer := s.fld.buffer.foldl insertRec [] })

/-- The control processors run: the CTL domain is out of reset and boot has reached step 9 (R586). -/
def cpsRun (s : State) : Bool := !s.power.inReset.contains 5 && decide (9 ≤ s.power.step)

/-- FIELD_FIRMWARE_LOAD: the firmware, the bank modes and channel settings arrive (R586, R589). -/
def execFieldFirmwareLoad (s : State) : Host.Outcome State Fault Refusal :=
  if !s.fld.powered ∨ !s.fldT.linkUp ∨ s.fld.fwRunning ∨ !cpsRun s then .next s else
  let ser := s.fld.cfg.ser.filter (fun p => channelCads s kindImu p.1 == [])
  let din := s.fld.cfg.din.filter (fun p => channelCads s kindDigital p.1 == [])
  .next { s with fld.fwRunning := true, fld.banks := s.fld.bankCfg, fld.live := { enc := [], ser := ser, din := din } }

/-- FIELD_OVERVOLTAGE: above 32.0 V for 1 ms (R588, R601). -/
def execFieldOvervoltage (s : State) : Host.Outcome State Fault Refusal :=
  if !s.fld.powered ∨ s.fld.overvoltage then .next s else
  let s := { s with fld.overvoltage := true, trig.outs := s.trig.outs.mapV (fun _ o => { o with activeUntil := none }) }
  .next (localOffBoth (raise s (chipReport s sevWarn 0x13 0x0181)))

/-- FIELD_OVERVOLTAGE_RESTORE: 100 ms below 31.0 V (R588). -/
def execFieldOvervoltageRestore (s : State) : Host.Outcome State Fault Refusal :=
  .next { s with fld.overvoltage := false }

/-! ### Trigger outputs (R127, R591, R592) -/

/-- TRIGGER_EDGE: the end of the pulse in progress, or the next active edge (R126 to R128). A line that is off after an
overload places no edge, and its instant still counts for the monitors (R592). -/
def execTriggerEdge (output : Nat) (s : State) : Host.Outcome State Fault Refusal :=
  match s.trig.outs.find output with
  | none => .next s
  | some o =>
    if !outputLive s output then .next s
    else match o.activeUntil with
      | some t =>
        let s := advanceField s t
        let s := { s with trig.outs := s.trig.outs.put output { o with activeUntil := none } }
        .next (emit s (.edge output (o.fired.getD 0) ((t * 65536 : Nat) : Int) false o.activeLow s.fldT.hold))
      | none =>
        match nextTrigger s o (max o.resumeAt ((fieldTime s + 65535) / 65536).toNat) with
        | none => .next s
        | some (n, t) =>
          let s := advanceField s t
          .next (fireOutput s output n t o)

/-- TRIGGER_OVERLOAD: over the limit for 20 µs on a PUSH_PULL_24V line (R592). -/
def execTriggerOverload (output : Nat) (s : State) : Host.Outcome State Fault Refusal :=
  if !fieldRuns s ∨ Tbl.at 0 s.fld.banks (output / 8) ≠ 1 ∨ 32 ≤ output ∨ (s.fld.overload.find output).isSome then .next s else
  let s := { s with fld.overload := s.fld.overload.put output (s.up + 10000000) }
  let s := match s.trig.outs.find output with
    | some o => { s with trig.outs := s.trig.outs.put output { o with activeUntil := none } }
    | none => s
  .next (raise s { chipReport s sevWarn 0x13 0x0183 with detail := output })

/-- TRIGGER_OVERLOAD_RETRY: 10 ms later (R592). -/
def execTriggerOverloadRetry (output : Nat) (s : State) : Host.Outcome State Fault Refusal :=
  match s.fld.overload.find output with
  | none => .next s
  | some t =>
    let s := advanceUp s t
    .next { s with fld.overload := s.fld.overload.drop output }

/-! ### Channels (R593 to R597) -/

/-- Bytes of the buffered records. -/
def bufferBytes (rs : List FieldRec) : Nat := rs.foldl (fun n r => n + r.payload.length) 0

/-- Drop the oldest records while the store of 256 KiB is over-full (R590). -/
def trimBuffer : Nat → List FieldRec → Nat → List FieldRec × Nat
  | 0, rs, n => (rs, n)
  | fuel + 1, rs, n =>
    match rs with
    | [] => ([], n)
    | r :: rest => if 262144 < bufferBytes (r :: rest) then trimBuffer fuel rest (n + 1) else (r :: rest, n)

/-- A record starts on its way: sent, or buffered while the link is down (R590). Without valid field time it is discarded
and counted (R119). -/
def sendRec (s : State) (r : FieldRec) : State :=
  if !s.fldT.valid then { s with fldT.discarded := s.fldT.discarded + 1 }
  else if s.fldT.linkUp then { s with fld.buffer := s.fld.buffer ++ [r] }
  else
    let rs := s.fld.buffer ++ [r]
    let x := trimBuffer rs.length rs 0
    { s with fld.buffer := x.1, fld.dropped := satAdd 16 s.fld.dropped x.2 }

/-- A record of a channel stamped with a field time. -/
def recAt (s : State) (kind ch : Nat) (t : Int) (payload : List Byte) (count : Nat) : FieldRec :=
  { kind := kind, channel := ch, time := t, gen := s.fldT.gen, holdover := s.fldT.hold, payload := payload, count := count }

/-- The next sample of an encoder input: epoch, index and instant in ns (R594). -/
def nextSample (s : State) (e : EncCfg) (x : EncSt) : Option (Nat × Nat × Nat) :=
  let c := cadOf s e.cadence
  let sp := c.period / e.k
  if e.k = 0 ∨ sp = 0 then none else
  let now := (fieldTime s / 65536).toNat
  let nj := match x.last with
    | some (n, j) => if j + 1 < e.k then (n, j + 1) else (n + 1, 0)
    | none =>
      let m := (now - c.acqStart c.start + sp - 1) / sp
      (c.start + m / e.k, m % e.k)
  if c.st = .running ∧ c.runs nj.1 then some (nj.1, nj.2, c.acqStart nj.1 + nj.2 * sp) else none

/-- ENCODER_SAMPLE: the count is latched; `edges` and `zs` are what the input counted since the previous sample (R165, R593, R594). -/
def execEncoderSample (input : Nat) (edges : Int) (zs : Nat) (illegal fault : Bool) (s : State) : Host.Outcome State Fault Refusal :=
  match s.fld.live.enc.find input with
  | none => .next s
  | some e =>
    let x := Tbl.at EncSt.reset s.fld.enc input
    if !fieldRuns s ∨ !e.enable then .next s else
    match nextSample s e x with
    | none => .next s
    | some (n, j, t) =>
      let past := decide ((t * 65536 : Nat) < fieldTime s)
      let s := advanceField s t
      let stamp : Int := if past then fieldTime s else (t * 65536 : Nat)
      let y : EncSt := { x with position := x.position + edges, zs := x.zs + zs, last := some (n, j), count := (x.count + 1) % 2 ^ 32, fault := fault, illegal := satAdd 12 x.illegal (if illegal then 1 else 0), faults := satAdd 12 x.faults (if fault then 1 else 0) }
      let flags := placeB (decide (0 < zs)) 0 + placeB illegal 1 + placeB fault 2
      let payload := leBytes 8 (unsigned 64 y.position) ++ leBytes 4 (y.zs % 2 ^ 32) ++ leBytes 2 flags ++ leBytes 2 0
      .next (sendRec { s with fld.enc := s.fld.enc.put input y } (recAt s 0 input stamp payload x.count))

/-- Bytes that a port's framing cuts into a record (R596). -/
def framed (c : SerCfg) (bs : List Byte) : Bool :=
  if c.framing = 0 then true
  else bs.length == c.length && (c.framing == 1 || ofLe (bs.take c.syncCount) == c.sync % 2 ^ (8 * c.syncCount))

/-- SERIAL_RECORD: the bytes between two record boundaries, stamped `back` units of 2^-16 ns ago at their first start bit;
`ok` is false after a parity or framing error or a loss of sync (R595, R596). -/
def execSerialRecord (port : Nat) (bytes : List Byte) (back : Nat) (ok : Bool) (s : State) : Host.Outcome State Fault Refusal :=
  match s.fld.live.ser.find port with
  | none => .next s
  | some c =>
    let x := Tbl.at SerSt.reset s.fld.ser port
    if !fieldRuns s ∨ c.mode = 0 ∨ bytes = [] ∨ (ok ∧ !framed c bytes) then .next s
    else if ok ∧ bytes.length ≤ 1024 then
      let s := { s with fld.ser := s.fld.ser.put port { x with records := satAdd 20 x.records 1, count := (x.count + 1) % 2 ^ 32 } }
      .next (sendRec s (recAt s 1 port (fieldTime s - back) bytes x.count))
    else
      let sec := s.up / 1000000000
      let s' := { s with fld.ser := s.fld.ser.put port { x with discards := satAdd 12 x.discards 1, warned := some sec } }
      .next (if x.warned = some sec then s' else raise s' (reportOf s sevWarn 11 port 0x0185))

/-- DIGITAL_INPUT_CHANGE: the input has held the other level for `held` ns; a change shorter than the filter is dropped and
counted (R165, R597). -/
def execDigitalInputChange (input held : Nat) (level : Bool) (s : State) : Host.Outcome State Fault Refusal :=
  match s.fld.live.din.find input with
  | none => .next s
  | some c =>
    let x := Tbl.at DinSt.reset s.fld.din input
    if !fieldRuns s ∨ !c.enable ∨ level = x.level then .next s
    else if held < c.filter * 1000 then .next { s with fld.din := s.fld.din.put input { x with glitches := satAdd 16 x.glitches 1 } }
    else
      let y : DinSt := { x with level := level, edges := satAdd 16 x.edges 1 }
      if c.edges.testBit (if level then 0 else 1) then
        let payload := leBytes 1 input ++ leBytes 1 (if level then 1 else 0) ++ leBytes 1 (if level then 1 else 2) ++ leBytes 5 0
        let s := { s with fld.din := s.fld.din.put input { y with count := (x.count + 1) % 2 ^ 32 } }
        .next (sendRec s (recAt s 2 input (fieldTime s - (held * 65536 : Nat)) payload x.count))
      else .next { s with fld.din := s.fld.din.put input y }

/-! ### Key and seal (R521, R522, R598, R599) -/

/-- Position of a pair that has stood since an instant: the reported position where the pair decides none (R521). -/
def keyPosition (pair held old : Nat) : Nat :=
  if pair = 2 then (if 50000000 ≤ held then 1 else old)
  else if pair = 1 then (if 50000000 ≤ held then 0 else old)
  else if 20000000 < held then 2 else old

/-- KEY_READ: inputs A and B, every 1 ms (R521, R598). -/
def execKeyRead (a b : Bool) (s : State) : Host.Outcome State Fault Refusal :=
  if !fieldRuns s then .next s else
  let s := advanceUp s (s.fld.keyAt + 1000000)
  let pair := placeB b 0 + placeB a 1
  let kind := fun (p : Nat) => if p = 3 then 0 else p
  let since := if kind pair = kind s.fld.pair then s.fld.pairSince else s.up
  let key := keyPosition (kind pair) (s.up - since) s.fld.key
  let was := s.fld.key
  let s := { s with fld.keyAt := s.up, fld.pair := pair, fld.pairSince := since, fld.key := key }
  .next (fieldReport (if key = 2 ∧ was ≠ 2 then raise s (chipReport s sevWarn 0x13 0x0186) else s))

/-- SEAL_MEASUREMENT: the loop resistance in Ω, every 1 ms; out of band for more than 10 ms is a break (R522, R599). -/
def execSealMeasurement (ohm : Nat) (s : State) : Host.Outcome State Fault Refusal :=
  if !fieldRuns s then .next s else
  let s := advanceUp s (s.fld.sealAt + 1000000)
  let st := if 5000 < ohm then 1 else if ohm < 50 then 2 else 0
  let bad := if st = 0 then none else some (s.fld.sealBad.getD s.up)
  let broken : Bool := match bad with
    | some t => s.fld.sealBroken || decide (10000000 < s.up - t)
    | none => false
  .next { s with
    fld.sealAt := s.up, fld.sealSt := st, fld.sealOhm := min ohm 0xFFFF, fld.sealBad := bad, fld.sealBroken := broken
    fld.sealLatched := s.fld.sealLatched || (broken && !s.fld.sealBroken) }

/-! ### Safe-state switches (R454, R600 to R604) -/

/-- One channel's request reaches the field die; an off request ends a local latch (R600, R601, R604). -/
def requestRx (s : State) (ch : Nat) (req : Bool) : State :=
  let x := switchOf s ch
  let off := x.localOff && req
  let s := setSwitch s ch { x with request := req, localOff := off }
  switchTo s ch (req && !off && !s.fld.overvoltage && !s.fld.readback)

/-- ENERGISE_REQUEST_RX: a heartbeat or request message arrives, and the field die switches the channels to match (R454); a frame
with a bad CRC is lost (R587; log 139). -/
def execEnergiseRequestRx (s : State) : Host.Outcome State Fault Refusal :=
  if !fieldRuns s ∨ !s.fldT.linkUp ∨ !s.safe.beating then .next s else
  let ok := Config.frameIntact s.fresh
  let s := tickFresh s
  if !ok then .next (badFrame s)
  else .next (requestRx (requestRx { s with fld.heartbeat := some s.up } 0 s.safe.req0) 1 s.safe.req1)

/-- FIELD_HEARTBEAT_TIMEOUT: 4 ms since the last valid message (R454, R601). -/
def execFieldHeartbeatTimeout (s : State) : Host.Outcome State Fault Refusal :=
  match s.fld.heartbeat with
  | none => .next s
  | some t => .next (localOffBoth { advanceUp s (t + 4000000) with fld.heartbeat := none })

/-- READBACK_FAIL: every switch opens; FATAL (R602, R459). -/
def readbackFail (s : State) (ch : Nat) : State :=
  let s := raise { s with fld.readback := true } (reportOf s sevFatal 11 ch 0x0141)
  localOffBoth s

/-- One channel's read-back: switch outputs and load current in mA; answers whether it is a fault (R602, R603). -/
def readChannel (s : State) (ch : Nat) (hs ls : Bool) (ma : Nat) : Bool × State :=
  let x := switchOf s ch
  let bad := if hs = x.on_ ∧ ls = x.on_ then 0 else x.bad + 1
  let past := if 600 < ma then some (x.overSince.getD s.up) else none
  let thin := if x.on_ ∧ ma < 5 then some (x.openSince.getD s.up) else none
  let isOpen : Bool := match thin with
    | some t => decide (t + 10000000 ≤ s.up)
    | none => false
  let overLong : Bool := match past with
    | some t => decide (t + 1000000 ≤ s.up)
    | none => false
  let y := { x with bad := bad, overSince := past, openSince := thin, openLoad := isOpen, ma := min ma 0xFFF, hs := hs, ls := ls }
  let s' := setSwitch s ch y
  (decide (2 ≤ bad) || overLong, if isOpen ∧ !x.openLoad then raise s' (reportOf s sevWarn 11 ch 0x0184) else s')

/-- SAFE_READBACK, every 100 µs (R602, R603). -/
def execSafeReadback (hs0 ls0 hs1 ls1 : Bool) (ma0 ma1 : Nat) (s : State) : Host.Outcome State Fault Refusal :=
  if !fieldRuns s then .next s else
  let s := advanceUp s (s.fld.readAt + 100000)
  let a := readChannel { s with fld.readAt := s.up } 0 hs0 ls0 ma0
  let b := readChannel a.2 1 hs1 ls1 ma1
  if a.1 ∨ b.1 then .next (if s.fld.readback then b.2 else readbackFail b.2 (if a.1 then 0 else 1))
  else .next { b.2 with fld.readback := false }

/-- SAFE_TEST_PULSE: one switch of an energised channel off for 200 µs, the two in turn 125 ms apart; `followed` says
whether the output followed (R602). -/
def execSafeTestPulse (channel : Nat) (followed : Bool) (s : State) : Host.Outcome State Fault Refusal :=
  let x := switchOf s channel
  if !fieldRuns s ∨ 2 ≤ channel ∨ !x.on_ then .next s else
  let s := advanceUp s (x.lastTest + 125000000)
  let s := setSwitch s channel { x with lastTest := s.up }
  .next (if followed then s else readbackFail s channel)

end Sys2Proof.Machine
end

