-- ==== Sys2Proof/Machine/Commit.lean ====
section
/-! DEFINITION. The commit of a sample into its stream's ring, and the Mirage check (spec/07_intake.md R151 to R154, R170 to R173). -/

namespace Sys2Proof.Machine

/-! ### CRC-64 (R171) -/

/-- Shift the register by `n` bits. -/
def crcShift : Nat → Nat → Nat
  | 0, c => c
  | n + 1, c => crcShift n (if 2 ^ 63 ≤ c then (2 * c % 2 ^ 64) ^^^ 0x42F0E1EBA9EA3693 else 2 * c)

/-- Add bytes to the register. -/
def crcAdd (c : Nat) (bs : List Byte) : Nat := bs.foldl (fun c b => crcShift 8 (c ^^^ b.toNat <<< 56)) c

def crcInit : Nat := 2 ^ 64 - 1
def crcDone (c : Nat) : Nat := c ^^^ (2 ^ 64 - 1)
def crc64 (bs : List Byte) : Nat := crcDone (crcAdd crcInit bs)

/-! ### Slots (R151, R153) -/

/-- A sample before its commit. -/
structure Draft where
  time : Nat
  frac : Nat
  gen : Nat
  holdover : Bool
  test : Bool
  partial_ : Bool
  sensor : Bool
  sequence : Option Nat
  signature : Option Nat
  ingress : Nat
  elements : Nat
  payload : List Byte
  deriving DecidableEq, Repr

def StreamCfg.slots (c : StreamCfg) : Nat := 2 ^ c.slotsLog2
def StreamCfg.slotBytes (c : StreamCfg) : Nat := 2 ^ c.slotLog2
def StreamCfg.room (c : StreamCfg) : Nat := c.slotBytes - 64
def StreamCfg.slotAddr (c : StreamCfg) (k : Nat) : Nat := c.base + k % c.slots * c.slotBytes

/-- The slot of index `i` of a stream is held (R153, R183). -/
def slotHeld (s : State) (k : Nat) (c : StreamCfg) (i : Nat) : Bool :=
  s.spl.holds.any (fun h => h.2.2.1 == k && h.2.2.2 % c.slots == i % c.slots)

/-- The slot header (R151). -/
def slotHeader (c : StreamCfg) (x : Sample) (n : Nat) : List Byte :=
  leBytes 8 x.time ++ leBytes 2 x.frac
    ++ leBytes 1 (x.gen % 16 + placeB x.holdover 4 + placeB x.test 5 + placeB x.partial_ 6 + placeB x.frozen 7)
    ++ leBytes 1 c.kind ++ leBytes 4 n ++ leBytes 8 x.sequence ++ leBytes 8 (x.signature.getD 0) ++ leBytes 8 x.ingress
    ++ leBytes 8 x.commit ++ leBytes 4 x.index ++ leBytes 4 x.elements ++ leBytes 8 0

/-- Requester of the intake for a stream (R150). -/
def streamWho (s : State) (k : Nat) (c : StreamCfg) : Who :=
  { did := c.did, guarded := streamGuarded s k, kind := 4, index := 0x0800, flows := flowsOfStream s k }

/-! ### The Mirage check (R170 to R173) -/

/-- Counts of the sequence rule: forward jumps and backward moves (R172). -/
def countSeq (st : Stream) (x : Draft) : Stream :=
  match x.sequence, st.lastSeq with
  | some q, some (p, _) =>
    if p + 1 < q then { st with gaps := satAdd 16 st.gaps 1 }
    else if q < p then { st with restarts := satAdd 6 st.restarts 1 }
    else st
  | _, _ => st

/-- The rule that a sample fails: 0 none, 1 signature, 2 counter (R171, R172). -/
def mirageRule (c : StreamCfg) (st : Stream) (x : Draft) : Nat :=
  let sigBad : Bool := match x.signature, st.sigRun with
    | some g, some (p, n) => c.sig && g == p && decide (2 ≤ n)
    | _, _ => false
  let cntBad : Bool := match x.sequence, st.lastSeq with
    | some q, some (p, t) => c.cnt && q == p && decide (t + 1000 ≤ x.time)
    | _, _ => false
  if sigBad then 1 else if cntBad then 2 else 0

/-- The stream after the check of one sample; entry into FROZEN is reported by the caller (R173). -/
def mirageStep (st : Stream) (x : Draft) (rule : Nat) : Stream :=
  let st := countSeq st x
  let st := { st with
    sigRun := x.signature.map (fun g => match st.sigRun with
      | some (p, n) => if g = p then (g, n + 1) else (g, 1)
      | none => (g, 1))
    lastSeq := match x.sequence with
      | some q => some (q, x.time)
      | none => st.lastSeq }
  if rule = 0 then { st with passRun := if st.frozen then st.passRun + 1 else 0 }
  else
    { st with
      frozen := true, passRun := 0, injected := st.frozen && st.injected, lastRule := rule
      frozenCount := if st.frozen then st.frozenCount else satAdd 8 st.frozenCount 1 }

/-! ### Commit -/

/-- A usable sample in the window of an epoch that has closed is late; before the start index and after the last epoch there
is no window (R19, R125, R182). -/
def isLate (s : State) (st : Stream) (c : StreamCfg) (x : Sample) : Bool :=
  let cad := cadOf s c.cadence
  let n := (x.time - cad.phase) / cad.period
  cad.st == .running && cad.runs n && st.isActive && cad.period != 0 && c.kind != kindTag && usableSample c x && decide (cad.phase ≤ x.time) && decide (x.time < cad.acqStart n + cad.acqWindow) && decide (cad.close n ≤ s.now)

/-- Commit one sample of a configured stream: DISABLED streams commit test samples only (R18); generation, held slot, Mirage
check, payload, header (R151 to R154, R170 to R173). Answers whether the slot was written. -/
def commit (s : State) (k : Nat) (c : StreamCfg) (x : Draft) : Bool × State :=
  let st := streamOf s k
  if !x.test ∧ !st.enabled then (false, s)
  else if x.gen ≠ s.tb.gen then (false, setStream s k { st with genDrop := satAdd 8 st.genDrop 1 })
  else
    let i := st.next
    if slotHeld s k c i then
      let s := setStream s k { st with next := i + 1, ringFull := satAdd 16 st.ringFull 1 }
      (false, raise s { streamReport s sevInfo k 0x0113 with detail := i % 2 ^ 32 })
    else
      let checked := !x.test && !x.partial_
      let rule := if checked then mirageRule c st x else 0
      let st' := if checked then mirageStep st x rule else st
      let y : Sample :=
        { index := i, time := x.time, frac := x.frac, gen := x.gen, holdover := x.holdover, test := x.test, partial_ := x.partial_, frozen := rule != 0, sensor := x.sensor, kind := c.kind, sequence := x.sequence.getD 0, signature := x.signature, ingress := x.ingress, commit := s.now, elements := x.elements, payload := x.payload }
      let w := streamWho s k c
      let p := devWrite s w (c.slotAddr i + 64) x.payload
      let h := if p.1 = stOk then devWrite p.2 w (c.slotAddr i) (slotHeader c y x.payload.length) else p
      let s := h.2
      let ok := h.1 == stOk
      let st' := { st' with next := i + 1 }
      let st' := if ok then noteDelta c y { st' with
          silent := false, lastIndex := i
          samples := y :: st'.samples.filter (fun z => z.index % c.slots != i % c.slots)
          lastCommit := some s.now
          late := satAdd 16 st'.late (if isLate s st' c y then 1 else 0) }
        else st'
      let s := setStream s k st'
      (ok, if rule ≠ 0 ∧ !st.frozen then raise s (streamReport s sevWarn k 0x0104) else s)

/-- STREAM_FROZEN_RECOVERY: 8 passing samples, for CAMERA and SCAN a passing injection, then the next acq_start (R173). -/
def execStreamFrozenRecovery (stream : Nat) (s : State) : Host.Outcome State Fault Refusal :=
  let x := streamOf s stream
  match streamCfg s stream with
  | none => .next s
  | some c =>
    let cad := cadOf s c.cadence
    if !x.frozen ∨ x.passRun < 8 ∨ ((c.kind = kindCamera ∨ c.kind = kindScan) ∧ !x.injected) ∨ cad.st = .stopped then .next s else
    let s := advanceTo s (cad.acqStart cad.nextStart)
    .next (raise (setStream s stream { x with frozen := false, passRun := 0, injected := false, backFrom := some (c.cadence, cad.nextStart) }) (streamReport s sevInfo stream 0x0106))

end Sys2Proof.Machine
end

