-- ==== Sys2Proof/Machine/Ucode.lean ====
section
/-! DEFINITION. The parser microcode (spec/07_intake.md R159 to R164). -/

namespace Sys2Proof.Machine

/-- Where the sample time comes from: t_in − latency, the sensor's own clock, or a mode that R162 leaves open. -/
inductive TimeSrc where
  | ingress
  | sensor (t : Nat)
  | free
  deriving DecidableEq, Repr

/-- The state of a running program (R160). -/
structure Parse where
  regs : Tbl Nat
  cursor : Nat
  out : List Byte
  sig : Option Nat
  time : TimeSrc
  seq : Option Nat
  sel : Nat
  points : Nat
  deriving DecidableEq, Repr

def Parse.start : Parse := { regs := [], cursor := 0, out := [], sig := none, time := .ingress, seq := none, sel := 0, points := 0 }

/-- Register a[n] (R160). -/
def Parse.a (p : Parse) (n : Nat) : Nat := Tbl.at 0 p.regs n
/-- Write a[n]; there are sixteen. -/
def Parse.set (p : Parse) (n v : Nat) : Parse := if n < 16 then { p with regs := p.regs.put n (v % 2 ^ 32) } else p
/-- A 64-bit pair. -/
def Parse.pair (p : Parse) (n : Nat) : Nat := p.a n + 2 ^ 32 * p.a (n + 1)

/-- How a program ends (R164). -/
inductive ParseEnd where
  | commit (p : Parse)
  | bounds
  | steps
  | drop (reason : Option Nat)
  deriving DecidableEq, Repr

/-- Outcome of one instruction: the next index, or an end. -/
inductive ParseStep where
  | go (pc : Nat) (p : Parse)
  | stop (e : ParseEnd)
  deriving DecidableEq, Repr

/-- Big-endian number of bytes. -/
def ofBe (bs : List Byte) : Nat := ofLe bs.reverse

/-- A bit field of a payload: `n` bits at byte `at_`, bit `bit` of the number the bytes form in the chosen order (bit 0 the
least significant, R4). -/
def bitField (bs : List Byte) (at_ bit n : Nat) (little : Bool) : Option Nat :=
  let len := (bit + n + 7) / 8
  let x := (bs.drop at_).take len
  if x.length < len then none else some (bitsOf (if little then ofLe x else ofBe x) bit n)

/-- An instruction word's fields (R161). -/
def uOp (w : Nat) : Nat := bitsOf w 58 6
def uD (w : Nat) : Nat := bitsOf w 54 4
def uS (w : Nat) : Nat := bitsOf w 50 4
def uI (w : Nat) : Bool := w.testBit 49
def uX (w : Nat) : Nat := bitsOf w 32 16
def uImm (w : Nat) : Nat := bitsOf w 0 32

/-- Arithmetic of opcodes 0x04 to 0x0C, modulo 2^32. -/
def uAlu (op a b : Nat) : Nat :=
  match op with
  | 0x04 => a + b
  | 0x05 => a + 2 ^ 32 - b
  | 0x06 => a * b
  | 0x07 => a &&& b
  | 0x08 => a ||| b
  | 0x09 => a ^^^ b
  | 0x0A => a <<< (b % 32)
  | 0x0B => a >>> (b % 32)
  | _ => unsigned 32 (signed 32 a >>> (b % 32))

/-- Conditions of opcodes 0x10 to 0x13. -/
def uCond (op a b : Nat) : Bool :=
  match op with
  | 0x10 => a == b
  | 0x11 => a != b
  | 0x12 => decide (a < b)
  | _ => decide (signed 32 a < signed 32 b)

/-- CVTF: the FP32 encoding of int32(a) × scale (R162). -/
def uCvtf (a scale : Nat) : Nat := (convF fp32 .overflowInf none (prodV (intV (signed 32 a)) (decodeF fp32 scale))).1

/-- POL: a component, saturating at ±(2^23 − 1) (R163). -/
def uPol (r az el axis : Nat) : Nat := unsigned 32 (max (-(2 ^ 23 - 1)) (min (2 ^ 23 - 1) (polar r az el axis)))

/-- Append to the payload, unless that passes the end of the slot that the selector names (R164). -/
def Parse.emit (p : Parse) (room : Nat → Option Nat) (pc : Nat) (bs : List Byte) (points : Nat) : ParseStep :=
  if (room p.sel).any (fun n => decide (n < p.out.length + bs.length)) then .stop .bounds
  else .go (pc + 1) { p with out := p.out ++ bs, points := p.points + points }

/-- One instruction (R162); `room`: payload bytes of the slots of the stream that a selector names. -/
def parseOne (room : Nat → Option Nat) (bs : List Byte) (w pc : Nat) (p : Parse) : ParseStep :=
  let d := uD w
  let imm := uImm w
  let b := if uI w then imm else p.a (uS w)
  let at_ := p.cursor + uX w
  match uOp w with
  | 0x00 => .go (pc + 1) p
  | 0x01 =>
    let n := bitsOf imm 0 6 + 1
    match bitField bs at_ (bitsOf imm 8 3) n (imm.testBit 12) with
    | none => .stop .bounds
    | some v => .go (pc + 1) (p.set d (if imm.testBit 13 then unsigned 32 (signed n v) else v))
  | 0x02 =>
    match bitField bs at_ 0 64 (imm.testBit 12) with
    | none => .stop .bounds
    | some v => .go (pc + 1) ((p.set d v).set (d + 1) (v / 2 ^ 32))
  | 0x03 => .go (pc + 1) (p.set d imm)
  | 0x14 => .go (uX w) p
  | 0x18 => .go (pc + 1) { p with cursor := (p.cursor + b) % 2 ^ 32 }
  | 0x19 => .go (pc + 1) { p with cursor := b }
  | 0x20 =>
    let s := uS w
    let v := uPol (p.a s) (p.a (s + 1) % 65536) (p.a (s + 2) % 65536)
    .go (pc + 1) (((p.set d (v 0)).set (d + 1) (v 1)).set (d + 2) (v 2))
  | 0x21 => .go (pc + 1) (p.set d (uCvtf (p.a (uS w)) imm))
  | 0x28 =>
    let s := uS w
    .go (pc + 1) { p with time := match imm % 4 with
      | 0 => .ingress
      | 1 => .sensor (p.pair s)
      | 2 => .sensor (p.a s * 1000000000 + p.a (s + 1))
      | _ => .free }
  | 0x29 => .go (pc + 1) { p with seq := some (p.pair (uS w)) }
  | 0x2A => .go (pc + 1) { p with sel := p.a (uS w) }
  | 0x2B =>
    if bs.length < at_ + imm then .stop .bounds
    else .go (pc + 1) { p with sig := some (crcAdd (p.sig.getD crcInit) ((bs.drop at_).take imm)) }
  | 0x30 =>
    let m := p.a (d + 4)
    let r := leBytes 4 (p.a d) ++ leBytes 3 (p.a (d + 1)) ++ leBytes 3 (p.a (d + 2)) ++ leBytes 3 (p.a (d + 3)) ++ leBytes 3 m
    p.emit room pc r 1
  | 0x31 =>
    if imm = 0 ∨ 8 < imm then .stop (.drop (some 2))
    else p.emit room pc ((List.range imm).flatMap (fun j => leBytes 4 (p.a (d + j)))) 0
  | 0x38 => .stop (.commit p)
  | 0x39 => .stop (.drop (some (imm % 256)))
  | op =>
    if 0x04 ≤ op ∧ op ≤ 0x0C then .go (pc + 1) (p.set d (uAlu op (p.a d) b))
    else if 0x10 ≤ op ∧ op ≤ 0x13 then .go (if uCond op (p.a d) b then uX w else pc + 1) p
    else .stop (.drop (some 2))

/-- Run a program: at most 4,096 instructions, and none past 127 (R159, R164). -/
def parseGo (room : Nat → Option Nat) (prog : List W64) (bs : List Byte) : Nat → Nat → Parse → ParseEnd
  | 0, _, _ => .steps
  | fuel + 1, pc, p =>
    if 128 ≤ pc then .steps else
    match parseOne room bs ((prog.getD pc 0).toNat) pc p with
    | .go pc' p' => parseGo room prog bs fuel pc' p'
    | .stop e => e

/-- The parse of one packet by a program. -/
def parsePacket (room : Nat → Option Nat) (prog : List W64) (bs : List Byte) : ParseEnd := parseGo room prog bs 4096 0 Parse.start

end Sys2Proof.Machine
end

