-- ==== Sys2Proof/Machine/IntakeCmds.lean ====
section
/-! DEFINITION. The descriptor commands of the intake (spec/07_intake.md R146 to R150, R167, R168, R174, spec/23_reset_power_boot.md R553). -/

namespace Sys2Proof.Machine

/-- The intake as requester for a descriptor's data. -/
def intakeWho (d : Desc) : Who := { did := d.did, guarded := false, kind := 4, index := 0x0800, flows := [], src := some d.src }

/-- A cadence is ARMED or RUNNING. -/
def cadArmed (s : State) (c : Nat) : Bool := (cadOf s c).st != .stopped

/-- Streams fed by a partner (R16). -/
def streamsOf (s : State) (p : Nat) : List (Nat × StreamCfg) := s.cfg.streams.filter (fun x => !x.2.field && x.2.source == p)

/-- The port carries a partner that feeds a stream whose cadence is ARMED or RUNNING (R146). -/
def portBusy (s : State) (port : Nat) : Bool :=
  s.ing.partners.any (fun p => p.2.port == port && (streamsOf s p.1).any (fun x => cadArmed s x.2.cadence))

/-- What R70 checks of PortConfig. -/
def infoPortConfig (_ : State) (d : Desc) : OpInfo :=
  { fields := [(16, 0, 4), (17, 0, 3), (18, 0, 3), (20, 0, 12), (24, 0, 48), (32, 0, 32), (40, 0, 128)], authority := didHost d }

/-- PORT_CONFIG (R146, R610). -/
def execPortConfig (d : Desc) (s : State) : Host.Outcome State Fault Refusal :=
  .next (runDesc s d (infoPortConfig s d) fun s =>
    let p := dfld d 16 0 4
    let speed := dfld d 17 0 3
    if 9 < p ∨ 4 < speed ∨ (8 ≤ p ∧ 3 ≤ speed) ∨ portBusy s p then failWith s stDescInvalid
    else
      let x := ingPort s p
      let y : IngPort := { x with speed := speed, vlanEn := dbit d 18 0, ipv4En := dbit d 18 1, ipv6En := dbit d 18 2, vid := dfld d 20 0 12, mac := dfld d 24 0 48, ipv4 := dfld d 32 0 32, ipv6 := dfld d 40 0 128 }
      let s := clockLost (syncE s) { s with ing.ports := s.ing.ports.put p y }
      let s := if (x.speed == 0) = (speed == 0) then s else emit s (.pin (pinTxDis p) (if speed = 0 then 1 else 0))
      okWith s 0)

/-- Source address of a partner key: MAC or IP (R149). -/
def Partner.address (p : Partner) : Nat := if p.match_ = 0 then p.peerMac else p.peerIp

/-- Two partners have the same key (R149). -/
def Partner.sameKey (a b : Partner) : Bool :=
  a.port == b.port && a.match_ == b.match_ && a.address == b.address && a.udpDst == b.udpDst

/-- The protocol fits the port (R148). -/
def protoFits (port proto : Nat) : Bool := if 8 ≤ port then proto == 2 || proto == 3 else proto != 3

/-- What R70 checks of PartnerSet. -/
def infoPartnerSet (_ : State) (d : Desc) : OpInfo :=
  { fields := [(16, 0, 11), (18, 0, 4), (19, 0, 2), (20, 0, 2), (21, 0, 6), (22, 0, 16), (24, 0, 48), (32, 0, 128), (48, 0, 64), (56, 0, 16)], authority := didHost d }

/-- PARTNER_SET (R148, R149). -/
def execPartnerSet (d : Desc) (s : State) : Host.Outcome State Fault Refusal :=
  .next (runDesc s d (infoPartnerSet s d) fun s =>
    let k := dfld d 16 0 11
    let m := dfld d 20 0 2
    let x : Partner := { port := dfld d 18 0 4, proto := dfld d 19 0 2, match_ := m, program := dfld d 21 0 6, udpDst := dfld d 22 0 16, peerMac := dfld d 24 0 48, peerIp := if m = 2 then dfld d 32 0 128 else dfld d 32 0 32, publisher := dfld d 48 0 64, writerGroup := dfld d 56 0 16 }
    if 9 < x.port ∨ 2 < m ∨ !protoFits x.port x.proto ∨ s.ing.partners.any (fun p => p.1 != k && p.2.sameKey x) then failWith s stDescInvalid
    else okWith { s with ing.partners := s.ing.partners.put k x } 0)

/-- What R70 checks of PartnerClear. -/
def infoPartnerClear (_ : State) (d : Desc) : OpInfo :=
  { fields := [(16, 0, 11)], authority := didHost d }

/-- PARTNER_CLEAR: not of a partner that a stream names (R146, R29). -/
def execPartnerClear (d : Desc) (s : State) : Host.Outcome State Fault Refusal :=
  .next (runDesc s d (infoPartnerClear s d) fun s =>
    let k := dfld d 16 0 11
    if (streamsOf s k) ≠ [] then failWith s stDescInvalid
    else okWith { s with ing.partners := s.ing.partners.drop k } 0)

/-- Default of mirage_sig and mirage_cnt for a kind (R171, R172). -/
def sigDefault (kind : Nat) : Bool := kind == kindCamera || kind == kindScan
def cntDefault (kind : Nat) : Bool := kind != kindDigital

/-- The protocols that may feed a kind from the network (R150, R156 to R166). -/
def protoOfKind (kind proto : Nat) : Bool :=
  if kind = kindCamera then proto == 0 || proto == 1
  else if kind = kindTag then proto == 3
  else proto == 2 && (kind == kindScan || kind == kindImu || kind == kindEncoder)

/-- The source of a stream exists and fits its kind (R16, R150). -/
def sourceOk (s : State) (k : Nat) (c : StreamCfg) : Bool :=
  if c.field then decide (c.source ≤ 7) && (c.kind == kindImu || c.kind == kindEncoder || c.kind == kindDigital) && c.selector == 0
  else (s.ing.partners.find c.source).any (fun p => protoOfKind c.kind p.proto
    && decide (((streamsOf s c.source).filter (fun x => x.1 ≠ k)).length < 4))

/-- A guarded stream may not lose a Mirage rule (R150). -/
def mirageLost (old : Option StreamCfg) (c : StreamCfg) : Bool :=
  (!c.sig && (sigDefault c.kind || old.any (·.sig))) || (!c.cnt && (cntDefault c.kind || old.any (·.cnt)))

/-- A stream before its first STREAM_CONFIG, with the alignment and the mount that the image gives it (R198, R440). -/
def newStream (s : State) (k : Nat) : StreamCfg :=
  let c := match s.sec.image.bind (fun i => i.streams.find k) with
    | some p => { StreamCfg.blank with selectAll := p.selectAll, driftOff := p.driftOff, maxGap := p.maxGap, extrapMax := p.extrapMax, maxAge := p.maxAge, statusMask := p.statusMask }
    | none => StreamCfg.blank
  match s.sec.image.bind (fun i => i.mounts.find k) with
  | some (r, l, e, t) => { c with mount := some (r, l, e), atTov := t }
  | none => c

/-- What R70 checks of StreamConfig. -/
def infoStreamConfig (_ : State) (d : Desc) : OpInfo :=
  { fields := [(16, 0, 7), (17, 0, 3), (18, 0, 5), (19, 0, 3), (20, 0, 11), (20, 15, 1), (22, 0, 5), (23, 0, 4), (24, 0, 48), (32, 0, 32), (36, 0, 32), (40, 0, 16), (42, 0, 16), (44, 0, 4)], authority := didHost d }

/-- STREAM_CONFIG (R150). -/
def execStreamConfig (d : Desc) (s : State) : Host.Outcome State Fault Refusal :=
  .next (runDesc s d (infoStreamConfig s d) fun s =>
    let k := dfld d 16 0 7
    let old := s.cfg.streams.find k
    let c : StreamCfg := { old.getD (newStream s k) with kind := dfld d 17 0 3, cadence := dfld d 18 0 5, sig := dbit d 19 0, cnt := dbit d 19 1, acceptPartial := dbit d 19 2, source := dfld d 20 0 11, field := dbit d 21 7, slotLog2 := dfld d 22 0 5, slotsLog2 := dfld d 23 0 4, base := dfld d 24 0 48, selector := dfld d 32 0 32, latency := dfld d 36 0 32, width := dfld d 40 0 16, height := dfld d 42 0 16, format := dfld d 44 0 4, did := d.did }
    if 5 < c.kind ∨ !sourceOk s k c ∨ c.slotLog2 < 8 ∨ 26 < c.slotLog2 ∨ c.slotsLog2 < 2 ∨ 10 < c.slotsLog2 ∨ c.base % 65536 ≠ 0 ∨ 2 < c.format then
      failWith s stDescInvalid
    else if streamGuarded s k ∧ mirageLost old c then failWith s stNotAuth
    else okWith { s with cfg.streams := s.cfg.streams.put k c } 0)

/-- End a waiting STREAM_ENABLE. -/
def endStarting (s : State) (k status : Nat) : State :=
  match (streamOf s k).starting with
  | some w => finishDesc (updStream s k (fun x => { x with starting := none })) w status 0 0 0
  | none => s

/-- CAD_ARMs that waited for start-up injections complete once none of their cadence runs (R553). -/
def releaseArming (s : State) : State :=
  let ready := s.trig.arming.filter (fun a => !starting s a.2.1)
  let s := { s with trig.arming := s.trig.arming.filter (fun a => starting s a.2.1) }
  if ready.isEmpty then s else together s fun s => ready.foldl (fun s a => finishDesc s a.1 stOk a.2.2 0 0) s

/-- The link of a stream's partner is under test (R630). -/
def streamLinkBusy (s : State) (c : StreamCfg) : Bool :=
  s.dbg.links.any (fun p => p.2.run && match linkPort p.1 with
    | some port => !c.field && (s.ing.partners.find c.source).any (fun q => q.port == port)
    | none => c.field && decide (26 ≤ p.1))

/-- What R70 checks of StreamEnable. -/
def infoStreamEnable (_ : State) (d : Desc) : OpInfo :=
  { fields := [(16, 0, 7), (17, 0, 1)], authority := didHost d }

/-- STREAM_ENABLE (R18, R28, R146, R553): while the cadence is ARMED or RUNNING it acts from the next acq_start; the first enable of a CAMERA or SCAN stream waits for its start-up injection. -/
def execStreamEnable (d : Desc) (s : State) : Host.Outcome State Fault Refusal :=
  .next (runDesc s d (infoStreamEnable s d) fun s =>
    let k := dfld d 16 0 7
    let x := streamOf s k
    match s.cfg.streams.find k with
    | none => failWith s stDescInvalid
    | some c =>
      if !dbit d 17 0 then
        if x.enabled ∧ cadArmed s c.cadence then okWith (setStream s k { x with leaving := true, askedAt := some s.up }) 0
        else
          let s := endStarting (dropReception s k) k stAborted
          okWith (releaseArming (updStream s k (fun x => { x with enabled := false, joining := false }))) 0
      else if x.isOn then okWith (setStream s k { x with leaving := false }) 0
      else if (c.kind = kindCamera ∨ c.kind = kindScan) ∧ !x.started then .later (setStream s k { x with starting := some d })
      else if cadArmed s c.cadence then okWith (setStream s k { x with joining := true, askedAt := some s.up }) 0
      else okWith (setStream s k { x with enabled := true, silent := false }) 0)

/-- The 64-bit words of a byte list. -/
def words64 : Nat → List Byte → List W64
  | 0, _ => []
  | n + 1, bs => BitVec.ofNat 64 (ofLe (bs.take 8)) :: words64 n (bs.drop 8)

/-- A program that an enabled stream's partner names (R146). -/
def programUsed (s : State) (p : Nat) : Bool :=
  s.cfg.streams.any (fun x => !x.2.field && (streamOf s x.1).isOn && (s.ing.partners.find x.2.source).any (fun q => q.proto == 2 && q.program == p))

/-- What R70 checks of UcodeLoad. -/
def infoUcodeLoad (_ : State) (d : Desc) : OpInfo :=
  { fields := [(16, 0, 6), (24, 0, 64)], authority := didHost d }

/-- UCODE_LOAD (R146, R159). -/
def execUcodeLoad (d : Desc) (s : State) : Host.Outcome State Fault Refusal :=
  .next (runDesc s d (infoUcodeLoad s d) fun s =>
    let p := dfld d 16 0 6
    let va := dfld d 24 0 64
    if va % 8 ≠ 0 ∨ programUsed s p then failWith s stDescInvalid
    else match devRead s (intakeWho d) va 1024 with
      | (st, bs, s) =>
        if st ≠ stOk then failWith s st
        else okWith { s with ing.programs := s.ing.programs.put p (words64 128 bs) } 0)

/-- Fields mapped from index 0 (R167). -/
def mappedCount (runs : List TagRun) : Nat := runs.foldl (fun n r => max n (r.firstField + r.count)) 0

/-- The run that maps a field: the latest one that holds it. -/
def runOfField (runs : List TagRun) (i : Nat) : Option TagRun :=
  runs.reverse.find? (fun r => decide (r.firstField ≤ i) && decide (i < r.firstField + r.count))

/-- The tag of a mapped field and its run; none for type IGNORE. -/
def fieldTag (runs : List TagRun) (i : Nat) : Option (Nat × TagRun) :=
  match runOfField runs i with
  | some r => if r.type = 0 then none else some (r.firstTag + (i - r.firstField), r)
  | none => none

/-- What R70 checks of TagMap. -/
def infoTagMap (_ : State) (d : Desc) : OpInfo :=
  { fields := [(16, 0, 7), (18, 0, 11), (20, 0, 14), (22, 0, 12), (24, 0, 4), (26, 0, 16)], authority := didHost d }

/-- TAG_MAP (R167). -/
def execTagMap (d : Desc) (s : State) : Host.Outcome State Fault Refusal :=
  .next (runDesc s d (infoTagMap s d) fun s =>
    let k := dfld d 16 0 7
    let r : TagRun := { firstField := dfld d 18 0 11, firstTag := dfld d 20 0 14, count := dfld d 22 0 12, type := dfld d 24 0 4, utcOffset := dfld d 26 0 16 }
    match s.cfg.streams.find k with
    | none => failWith s stDescInvalid
    | some c =>
      let taken := r.type ≠ 0 ∧ s.cfg.streams.any (fun p => p.1 != k && (runTags p.2.tags).any (fun t => decide (r.firstTag ≤ t) && decide (t < r.firstTag + r.count)))
      if c.kind ≠ kindTag ∨ r.count = 0 ∨ 2048 < r.firstField + r.count ∨ 16384 < r.firstTag + r.count ∨ 11 < r.type ∨ mappedCount c.tags < r.firstField ∨ taken then
        failWith s stDescInvalid
      else okWith { s with cfg.streams := s.cfg.streams.put k { c with tags := c.tags ++ [r] } } 0)

/-- What R70 checks of TagRead. -/
def infoTagRead (_ : State) (d : Desc) : OpInfo :=
  { fields := [(16, 0, 14)], authority := didHost d }

/-- TAG_READ (R146, R168): the value, and the StatusCode as detail. -/
def execTagRead (d : Desc) (s : State) : Host.Outcome State Fault Refusal :=
  .next (runDesc s d (infoTagRead s d) fun s =>
    let t := Tbl.at Tag.reset s.ing.tags (dfld d 16 0 14)
    .done stOk t.value t.status 0 s)

/-- An object names a stream (R29, R146). -/
def streamNamed (s : State) (k : Nat) : Bool :=
  s.cfg.joints.any (fun p => p.2.primary == k || p.2.check == some k) || (s.cfg.streams.find k).any (fun c => c.mount.isSome)
    || s.cfg.egos.any (fun p => p.2.streams.contains k) || s.cfg.volumes.any (fun p => p.2.members.any (fun m => m.2 == k))
    || s.cfg.grids.any (fun p => p.2.sources.any (fun m => m.2.stream == k))
    || s.cfg.inputs.any (fun p => p.2.any (fun r => !r.isFlow && r.index == k))

/-- What R70 checks of StreamDelete. -/
def infoStreamDelete (_ : State) (d : Desc) : OpInfo :=
  { fields := [(16, 0, 7)], authority := didHost d }

/-- STREAM_DELETE (R146, R147). -/
def execStreamDelete (d : Desc) (s : State) : Host.Outcome State Fault Refusal :=
  .next (runDesc s d (infoStreamDelete s d) fun s =>
    let k := dfld d 16 0 7
    if s.cfg.streams.find k = none then okWith s 0
    else if streamGuarded s k then failWith s stNotAuth
    else if (streamOf s k).isOn ∨ streamNamed s k then failWith s stDescInvalid
    else okWith { dropReception s k with
      cfg.streams := s.cfg.streams.drop k
      live := s.live.mapV (fun _ c => { c with streams := c.streams.drop k })
      ing.streams := s.ing.streams.drop k
      trig.mons := s.trig.mons.drop k } 0)

/-- What R70 checks of TestInject. -/
def infoTestInject (_ : State) (d : Desc) : OpInfo :=
  { fields := [(16, 0, 7), (17, 0, 2), (20, 0, 32), (24, 0, 48), (32, 0, 14), (40, 0, 64)], authority := didHost d }

/-- TEST_INJECT: accepted, it waits for a blanking interval of the stream (R174, R175). -/
def execTestInject (d : Desc) (s : State) : Host.Outcome State Fault Refusal :=
  .next (runDesc s d (infoTestInject s d) fun s =>
    let k := dfld d 16 0 7
    let pattern := dfld d 17 0 2
    let len := dfld d 32 0 14
    match streamCfg s k with
    | none => failWith s stDescInvalid
    | some c =>
      let kindOk := c.kind == kindCamera || (c.kind == kindScan && pattern == 3) || (c.kind == kindImu && pattern == 3)
      if !kindOk ∨ (pattern = 2 ∧ dfld d 20 0 32 = 0) ∨ (pattern = 3 ∧ (len = 0 ∨ 9000 < len)) ∨ ((streamOf s k).isActive ∧ (cadOf s c.cadence).st = .running) then
        failWith s stDescInvalid
      else
        let x : Injection := { desc := d, pattern := pattern, seed := dfld d 20 0 32, packet := [], expected := dfld d 40 0 64, deadline := s.up + 100000000 }
        if pattern ≠ 3 then .later { s with ing.injections := s.ing.injections ++ [(k, x)] }
        else match devRead s (intakeWho d) (dfld d 24 0 48) len with
          | (st, bs, s) =>
            if st ≠ stOk then failWith s st
            else .later { s with ing.injections := s.ing.injections ++ [(k, { x with packet := bs })] })

end Sys2Proof.Machine
end

