-- ==== Sys2Proof/Machine/Intake.lean ====
section
/-! DEFINITION. The intake's events: frames, parsers, field records, tags and test injections (spec/07_intake.md R142 to R175, spec/06_cadences_triggers.md R131 to R133, spec/08_splice_alignment.md R187, spec/23_reset_power_boot.md R553). -/

namespace Sys2Proof.Machine

def updPort (s : State) (p : Nat) (f : IngPort → IngPort) : State := { s with ing.ports := s.ing.ports.put p (f (ingPort s p)) }
def countMalformed (s : State) (p : Nat) : State := updPort s p (fun x => { x with malformed := satAdd 8 x.malformed 1 })
def countUnknown (s : State) (p : Nat) : State := updPort s p (fun x => { x with unknown := satAdd 16 x.unknown 1 })
def countOverflow (s : State) (p : Nat) : State := updPort s p (fun x => { x with overflow := satAdd 8 x.overflow 1 })
def countRx (s : State) (p : Nat) : State := updPort s p (fun x => { x with rx := satAdd 32 x.rx 1 })

/-! ### Arrival (R142 to R145, R149) -/

/-- The source address of a frame under a match kind. -/
def frameAddress (f : Frame) (m : Nat) : Option Nat := if m = 0 then some f.srcMac else if m = 1 then f.srcIp4 else f.srcIp6

/-- The partner of a frame: exact udp_dst before 0 (R149). -/
def classify (s : State) (f : Frame) : Option (Nat × Partner) :=
  let hit := fun (udp : Nat) => s.ing.partners.find? (fun p => p.2.port == f.port && p.2.udpDst == udp && frameAddress f p.2.match_ == some p.2.address)
  match hit f.udpDst with
  | some p => some p
  | none => hit 0

/-- FCS, length, fragment or VLAN rule fails (R143). -/
def frameMalformed (f : Frame) (p : IngPort) : Bool :=
  !f.fcsOk || decide (9216 < f.length) || f.fragment || match f.vid with
    | some v => v != p.vid
    | none => p.vlanEn

/-- UADP identifiers agree with the partner, and the message came to its port: the partner's udp_dst, or 4840 where that is 0 (R148, R166). -/
def idsOk (f : Frame) (p : Partner) : Bool :=
  match f.content with
  | .uadp pub grp _ _ _ _ => pub == p.publisher && (p.writerGroup == 0 || grp == p.writerGroup) && (p.udpDst != 0 || f.udpDst == 4840)
  | .discovery => true
  | _ => false

/-- A port accepts a frame of its partner: any on a sensor port, UADP messages on a plant port (R142). -/
def acceptable (f : Frame) (p : Partner) : Bool := decide (f.port < 8) || (p.proto == 3 && idsOk f p)

/-- Mappings of the TAG streams of a partner as they are in force (R167). -/
def tagMaps (s : State) (p : Nat) : Tbl (List TagRun) := ((liveStreamsOf s p).filter (fun x => x.2.kind == kindTag)).map (fun x => (x.1, x.2.tags))

/-- Ingress time-stamp of a frame in units of 2^-16 ns (R112, R155). -/
def ingressTime (s : State) (f : Frame) : Nat :=
  (time16 s + f.sub - (portDelay s f.port).2 - ((ptpPort s f.port).extRx.toInt)).toNat

/-- Bytes that wait for a port (R145). -/
def portBytes (s : State) (p : Nat) : Nat := (s.ing.waiting.filter (fun r => !r.serial && r.port == p)).foldl (fun n r => n + r.bytes) 0

/-- Frame kinds of ARP and neighbour-discovery answers: their EtherTypes. -/
def kindArp : Nat := 0x0806
def kindNd : Nat := 0x86DD

/-- FRAME_RECEIVE (R142 to R145, R149). -/
def execFrameReceive (f : Frame) (s : State) : Host.Outcome State Fault Refusal :=
  let x := ingPort s f.port
  if 9 < f.port ∨ x.speed = 0 ∨ !x.linkUp then .next s
  else if frameMalformed f x then .next (countMalformed s f.port)
  else if f.dstMac ≠ x.mac ∧ !f.group then .next (countUnknown s f.port)
  else match f.content with
    | .arp t =>
      if x.ipv4En ∧ t = x.ipv4 then .next (sendMgmt (countRx s f.port) f.port kindArp (leBytes 6 x.mac ++ leBytes 4 x.ipv4))
      else .next (countUnknown s f.port)
    | .solicit t =>
      if x.ipv6En ∧ t = x.ipv6 then .next (sendMgmt (countRx s f.port) f.port kindNd (leBytes 6 x.mac ++ leBytes 16 x.ipv6))
      else .next (countUnknown s f.port)
    | .ptp => .next (countRx s f.port)
    | .actionAck => .next (if f.port < 8 then countRx s f.port else countUnknown s f.port)
    | c =>
      match classify s f with
      | none => .next (countUnknown s f.port)
      | some (k, p) =>
        if !acceptable f p then .next (countUnknown s f.port)
        else if 524288 < portBytes s f.port + f.length then .next (countOverflow s f.port)
        else
          let t := ingressTime s f
          let r : RxFrame := { port := f.port, source := k, serial := false, bytes := f.length, time := t / 65536, frac := t % 65536, gen := s.tb.gen, holdover := false, udpDst := f.udpDst, content := c, partner := some p, maps := tagMaps s k }
          .next { countRx s f.port with ing.waiting := s.ing.waiting ++ [r] }

/-! ### Camera frames (R131 to R133, R155 to R158) -/

/-- A trigger monitor that is on. -/
def monOf (s : State) (k : Nat) : Option TrigMon := (s.trig.mons.find k).filter (·.enable)

/-- An unmatched frame: counted, with an INFO record (R132, R133). -/
def unmatched (s : State) (k : Nat) (m : TrigMon) : State :=
  raise { s with trig.mons := s.trig.mons.put k { m with unmatched := satAdd 16 m.unmatched 1 } } { streamReport s sevInfo k 0x0110 with detail := 1 }

/-- The leader's time-stamp against t + exp_delay (R132). -/
def tsCheck (m : TrigMon) (t : Nat) (leader : Option Nat) : TrigMon :=
  match leader with
  | some l =>
    if !m.checkTs then m else
    let err : Int := (l : Int) - ((t + m.expDelay : Nat) : Int)
    { m with tsErrors := satAdd 16 m.tsErrors (if m.tsTol < err.natAbs then 1 else 0), tsLast := satSigned 16 err }
  | none => m

/-- Match a frame to its trigger: the sample time, or none where the frame is discarded (R132). -/
def matchFrame (s : State) (k : Nat) (m : TrigMon) (tin : Nat) (leader : Option Nat) : Option Nat × State :=
  let cover := m.instants.filter (fun i => decide (i.time ≤ tin) && decide (tin ≤ i.time + m.latMax * 1000))
  match cover.getLast? with
  | none => (none, unmatched s k m)
  | some i =>
    if i.matched then (none, unmatched s k m)
    else
      let us := (tin - i.time) / 1000
      let m := { m with
        instants := m.instants.map (fun j => if j.time = i.time then { j with matched := true } else j)
        latLast := min us 0xFFFF, latLargest := max m.latLargest (min us 0xFFFF) }
      (some (i.time + m.expDelay + m.exposure / 2), { s with trig.mons := s.trig.mons.put k (tsCheck m i.time leader) })

/-- Bits per pixel of the GVSP formats of R156, in their order there. -/
def gvspBpp (format : Nat) : Option Nat := [8, 10, 12, 16, 8, 8, 8, 8, 12, 12, 12, 12, 24, 16][format]?

/-- Half bytes per pixel of the RFC 4175 formats (R150). -/
def rtpHalves (format : Nat) : Nat :=
  match format with
  | 0 => 4
  | 1 => 5
  | _ => 6

/-- Insert a piece in offset order. -/
def insertPiece : List (Nat × List Byte) → (Nat × List Byte) → List (Nat × List Byte)
  | [], x => [x]
  | y :: ys, x => if x.1 < y.1 then x :: y :: ys else y :: insertPiece ys x

/-- Lay pieces out from byte `pos`: the bytes, gaps as 0, and whether there was a gap (R158). -/
def layPieces : Nat → List (Nat × List Byte) → List Byte × Bool
  | _, [] => ([], false)
  | pos, (o, bs) :: rest =>
    let gap := o - pos
    let new := bs.drop (pos - o)
    let x := layPieces (pos + gap + new.length) rest
    (List.replicate gap 0 ++ new ++ x.1, x.2 || gap != 0)

/-- A frame's payload, and whether bytes are missing. -/
def CamFrame.payload (f : CamFrame) : List Byte × Bool :=
  let x := layPieces 0 (f.pieces.foldl insertPiece [])
  let got := x.1.take f.total
  (got ++ List.replicate (f.total - got.length) 0, x.2 || decide (got.length < f.total))

/-- A frame has ended: partial frames are counted, and discarded unless accept_partial (R156 to R158). -/
def endFrame (s : State) (f : CamFrame) : State :=
  let s := { s with ing.cams := s.ing.cams.filter (fun g => g.stream ≠ f.stream) }
  match (streamCfg s f.stream).filter (fun _ => !f.dropped) with
  | none => s
  | some c =>
    let p := f.payload
    let s := if p.2 then updStream s f.stream (fun x => { x with partials := satAdd 8 x.partials 1 }) else s
    if (p.2 ∧ !c.acceptPartial) ∨ c.room < f.total then s
    else (commit s f.stream c { time := f.time, frac := f.frac, gen := f.gen, holdover := false, test := false, partial_ := p.2, sensor := f.sensor, sequence := some f.block, signature := some (crc64 p.1), ingress := f.ingress, elements := f.total, payload := p.1 }).2

/-- End the frame that a stream has in reception. -/
def endStreamFrame (s : State) (k : Nat) : State :=
  match s.ing.cams.find? (fun f => f.stream == k) with
  | some f => endFrame s f
  | none => s

/-- Open a frame: its sample time from the trigger, the leader or t_in − latency (R155); one that the monitor discards is received to its end
and forms no sample (R132, R157). -/
def openFrame (s : State) (k : Nat) (c : StreamCfg) (r : RxFrame) (gvsp : Bool) (block total : Nat) (leader : Option Nat) : State :=
  let base : CamFrame := { stream := k, block := block, total := total, firstSize := 0, pieces := [], time := r.time - c.latency, frac := r.frac, sensor := false, ingress := r.time, gen := r.gen, lastAt := s.up, gvsp := gvsp, dropped := false }
  match monOf s k with
  | some m =>
    match matchFrame s k m r.time leader with
    | (some t, s) => { s with ing.cams := s.ing.cams ++ [{ base with time := t, frac := 0 }] }
    | (none, s) => { s with ing.cams := s.ing.cams ++ [{ base with dropped := true }] }
  | none =>
    match leader with
    | some t => { s with ing.cams := s.ing.cams ++ [{ base with time := t, frac := 0, sensor := true }] }
    | none => { s with ing.cams := s.ing.cams ++ [base] }

/-- Rewrite the frame in reception of a stream. -/
def updFrame (s : State) (k : Nat) (g : CamFrame → CamFrame) : State :=
  { s with ing.cams := s.ing.cams.map (fun f => if f.stream = k then { g f with lastAt := s.up } else f) }

/-- The enabled stream of a partner with a selector. -/
def streamBySel (s : State) (p sel : Nat) : Option (Nat × StreamCfg) :=
  (liveStreamsOf s p).find? (fun x => x.2.selector == sel && (streamOf s x.1).enabled)

/-- The frame in reception of a stream has a block. -/
def inBlock (s : State) (k block : Nat) : Option CamFrame := s.ing.cams.find? (fun f => f.stream == k && f.block == block)

/-- One GVSP packet (R156); without an enabled stream of its selector it is discarded and counts in ING_PORT_RX alone (R18, R143). -/
def parseGvsp (s : State) (r : RxFrame) : State :=
  match streamBySel s r.source r.udpDst with
  | none => s
  | some (k, c) =>
    match r.content with
    | .gvspLeader block time type format width height =>
      let s := endStreamFrame s k
      match gvspBpp format with
      | none => countMalformed s r.port
      | some bpp =>
        if type ≠ 1 ∨ width ≠ c.width ∨ height ≠ c.height then countMalformed s r.port
        else openFrame s k c r true block ((width * height * bpp + 7) / 8) (some time)
    | .gvspPayload block packet bytes =>
      if inBlock s k block = none ∨ packet = 0 then s
      else updFrame s k (fun f =>
        let size := if f.firstSize = 0 then bytes.length else f.firstSize
        { f with firstSize := size, pieces := f.pieces ++ [((packet - 1) * size, bytes)] })
    | .gvspTrailer block => if inBlock s k block = none then s else endStreamFrame s k
    | _ => s

/-- One RFC 4175 packet (R157); without an enabled stream of its selector it is discarded (R18, R143). -/
def parseRtp (s : State) (r : RxFrame) (ssrc time : Nat) (marker : Bool) (segs : List (Nat × Nat × List Byte)) : State :=
  match streamBySel s r.source ssrc with
  | none => s
  | some (k, c) =>
    if 8 < segs.length ∨ segs.any (fun g => decide (c.height ≤ g.1) || decide (c.width ≤ g.2.1)) then countMalformed s r.port
    else
      let h := rtpHalves c.format
      let s := if (inBlock s k time).isSome then s
        else openFrame (endStreamFrame s k) k c r false time (c.width * c.height * h / 2) none
      let s := updFrame s k (fun f => { f with pieces := f.pieces ++ segs.map (fun g => ((g.1 * c.width + g.2.1) * h / 2, g.2.2)) })
      if marker then endStreamFrame s k else s

/-- GVSP_FRAME_TIMEOUT: 10 ms after its last packet a frame ends (R156). -/
def execGvspFrameTimeout (stream : Nat) (s : State) : Host.Outcome State Fault Refusal :=
  match s.ing.cams.find? (fun f => f.stream == stream && f.gvsp) with
  | some f => .next (endFrame (advanceUp s (f.lastAt + 10000000)) f)
  | none => .next s

/-! ### Microcode packets (R159 to R164) -/

/-- A sample's time from its program (R155, R162): nanoseconds, fraction, whether it is the sensor's. -/
def parseTime (s : State) (c : StreamCfg) (r : RxFrame) (t : TimeSrc) : Nat × Nat × Bool :=
  match t with
  | .ingress => (r.time - c.latency, r.frac, false)
  | .sensor x => (x, 0, true)
  | .free => ((Config.freeWord s.fresh).toNat, 0, true)

/-- The sample that a program formed. -/
def parseDraft (s : State) (c : StreamCfg) (r : RxFrame) (p : Parse) (test : Bool) : Draft :=
  let t := parseTime s c r p.time
  { time := t.1, frac := t.2.1, gen := r.gen, holdover := r.holdover, test := test, partial_ := false, sensor := t.2.2, sequence := p.seq, signature := if c.kind = kindScan ∨ c.kind = kindImu then p.sig.map crcDone else none, ingress := r.time, elements := if c.kind = kindScan then p.points else if c.kind = kindImu then 1 else p.out.length, payload := p.out }

/-- The stream that END names: of the partner, or of the serial port, DISABLED ones too (R18, R164). -/
def endTarget (s : State) (r : RxFrame) (sel : Nat) : Option (Nat × StreamCfg) :=
  if r.serial then
    (liveStreams s).find? (fun x => x.2.field && x.2.kind == kindImu && x.2.source == r.source && x.2.selector == sel)
  else (liveStreamsOf s r.source).find? (fun x => x.2.selector == sel)

def countBounds (s : State) : State := { s with ing.uBounds := satAdd 8 s.ing.uBounds 1 }
def countDrop (s : State) (reason : Option Nat) : State :=
  let s := { s with ing.uDrop := satAdd 12 s.ing.uDrop 1 }
  match reason with
  | some r => { s with ing.uReasons := s.ing.uReasons.put r (Tbl.at 0 s.ing.uReasons r + 1) }
  | none => s
def countSteps (s : State) : State := { s with ing.uSteps := satAdd 8 s.ing.uSteps 1 }

/-- Streams that a frame's source feeds. -/
def sourceStreams (s : State) (r : RxFrame) : List Nat :=
  if r.serial then ((liveStreams s).filter (fun x => x.2.field && x.2.kind == kindImu && x.2.source == r.source)).map (·.1)
  else (liveStreamsOf s r.source).map (·.1)

/-- An uncorrectable error of the program store (R164). -/
def programError (s : State) (r : RxFrame) : State :=
  let s := { s with ing.uEcc := satAdd 4 s.ing.uEcc 1 }
  let g := (sourceStreams s r).any (streamGuarded s)
  raise s { reportOf s (sevOf g) 4 0x0800 stInternal with status := stInternal, guarded := g, flows := (sourceStreams s r).flatMap (flowsOfStream s) }

/-- One packet through its program. -/
def parseRaw (s : State) (r : RxFrame) (payload : List Byte) (ecc : Bool) : State :=
  if ecc then programError s r else
  let prog := if r.serial then Config.serialProgram r.source % 64 else (r.partner.map (·.program)).getD 0
  match parsePacket (fun sel => (endTarget s r sel).map (fun x => x.2.room)) (Tbl.at [] s.ing.programs prog) payload with
  | .bounds => countBounds s
  | .steps => countSteps s
  | .drop reason => countDrop s reason
  | .commit p =>
    match endTarget s r p.sel with
    | none => countDrop s none
    | some (k, c) =>
      if !(streamOf s k).enabled then s
      else if c.room < p.out.length then countBounds s
      else (commit (if p.time = .free then tickFresh s else s) k c (parseDraft s c r p false)).2

/-! ### Tags (R166 to R169, R187) -/

/-- FP64 encoding of a scalar of a mapped type from its raw bits (R168). -/
def tagValue (type bits : Nat) : Nat :=
  let int := fun (i : Int) => (convF fp64 .overflowInf none (intV i)).1
  match type with
  | 1 => if bits % 256 = 0 then 0 else int 1
  | 2 => int (signed 8 bits)
  | 3 => int (bits % 2 ^ 8 : Nat)
  | 4 => int (signed 16 bits)
  | 5 => int (bits % 2 ^ 16 : Nat)
  | 6 => int (signed 32 bits)
  | 7 => int (bits % 2 ^ 32 : Nat)
  | 8 => int (signed 64 bits)
  | 9 => int (bits % 2 ^ 64 : Nat)
  | 10 => (convF fp64 .overflowInf none (decodeF fp32 (bits % 2 ^ 32))).1
  | _ => bits % 2 ^ 64

/-- DT64 of a UADP time in 100 ns units since 1601 (R168). -/
def uadpTime (t utcOffset : Nat) : Nat := (t - 116444736000000000) * 100 + utcOffset * 1000000000

/-- The tag after one field of a message (R168). -/
def tagWrite (k tin : Nat) (m : DataSetMsg) (r : TagRun) (f : UadpField) (old : Tag) : Tag :=
  let bad : Bool := match f.type with
    | some t => t != r.type
    | none => false
  { value := if bad then old.value else tagValue r.type f.bits
    source := match f.srcTime, m.time with
      | some t, _ => uadpTime t r.utcOffset
      | none, some t => uadpTime t 0
      | none, none => tin
    receive := tin
    status := match f.status, m.status with
      | some x, _ => x
      | none, some x => x * 65536
      | none, none => 0
    stream := k, written := true, mismatch := bad }

/-- Write the fields of a message in field order (R168, R169). -/
def writeTags (s : State) (k tin : Nat) (tags : List TagRun) (m : DataSetMsg) : State :=
  (m.fields.zipIdx).foldl (fun s p => match fieldTag tags p.2 with
    | some (t, r) => { s with ing.tags := s.ing.tags.put t (tagWrite k tin m r p.1 (Tbl.at Tag.reset s.ing.tags t)) }
    | none => s) s

/-- One DataSetMessage: generation, field count, tags, sample (R154, R166 to R169); it is decoded with the mapping at its arrival (R167). -/
def applyMsg (s : State) (r : RxFrame) (m : DataSetMsg) : State :=
  match (liveStreamsOf s r.source).find? (fun x => x.2.kind == kindTag && x.2.selector % 65536 == m.writer) with
  | none => s
  | some (k, c) =>
    let tags := (r.maps.find k).getD c.tags
    let alive := m.kind == .keepAlive
    if !(streamOf s k).enabled then s
    else if !alive ∧ r.gen = s.tb.gen ∧ m.fields.length ≠ mappedCount tags then countMalformed s r.port
    else
      let s := if alive ∨ r.gen ≠ s.tb.gen then s else writeTags s k r.time tags m
      let payload := if alive then [] else (Config.freeBytes s.fresh).take c.room
      let x : Draft := { time := match m.time with | some t => uadpTime t 0 | none => r.time, frac := if m.time.isSome then 0 else r.frac, gen := r.gen, holdover := false, test := false, partial_ := false, sensor := m.time.isSome, sequence := m.seq, signature := none, ingress := r.time, elements := if alive then 0 else (runTags tags).length, payload := payload }
      (commit (tickFresh s) k c x).2

/-- A TAG stream's table writes are deferred (R187). -/
def isDeferring (s : State) (k : Nat) : Bool := s.ing.deferring.any (fun p => p.2 == k)

/-- TAG streams that the messages of a frame belong to. -/
def msgStreams (s : State) (r : RxFrame) : List Nat :=
  match r.content with
  | .uadp _ _ _ _ _ ms => ((liveStreamsOf s r.source).filter (fun x => x.2.kind == kindTag && ms.any (fun m => x.2.selector % 65536 == m.writer))).map (·.1)
  | _ => []

/-- A NetworkMessage waits: a stream of it is deferred, or stands in a message that waits already (R187). -/
def mustDefer (s : State) (r : RxFrame) : Bool :=
  (msgStreams s r).any (fun k => isDeferring s k || s.ing.deferred.any (fun q => (msgStreams s q).contains k))

/-- A NetworkMessage uses only what R166 supports. -/
def uadpOk (security : Nat) (chunked promoted : Bool) (ms : List DataSetMsg) : Bool :=
  security == 0 && !chunked && !promoted && decide (ms.length ≤ 32)
    && ms.all (fun m => (m.kind == .keyFrame || m.kind == .keepAlive) && m.fields.all (fun f => f.type.all (fun t => decide (1 ≤ t) && decide (t ≤ 11))))

/-- A NetworkMessage (R166, R187); `r` carries it. -/
def parseUadp (s : State) (r : RxFrame) : State :=
  match r.content with
  | .uadp _ _ security chunked promoted ms =>
    if !uadpOk security chunked promoted ms then countMalformed s r.port
    else if mustDefer s r then
      if 32 ≤ (s.ing.deferred.filter (fun q => q.port == r.port)).length then countOverflow s r.port
      else { s with ing.deferred := s.ing.deferred ++ [r] }
    else ms.foldl (fun s m => applyMsg s r m) s
  | _ => s

/-- TAG_WRITE_RESUME: the Splice unit has copied a stream's tags for a cadence (cadence, stream); what waited is applied in arrival order (R187). -/
def execTagWriteResume (copied : Nat × Nat) (s : State) : Host.Outcome State Fault Refusal :=
  if !s.ing.deferring.contains copied then .next s else
  let ms := s.ing.deferred
  let s := { s with ing.deferring := s.ing.deferring.filter (fun p => p ≠ copied), ing.deferred := [] }
  .next (ms.foldl parseUadp s)

/-! ### Parsers (R145) -/

/-- The waiting frame that a parser takes: oldest ingress time, then lower port. -/
def nextFrame (rs : List RxFrame) : Option RxFrame :=
  rs.foldl (fun a r => match a with
    | none => some r
    | some x => if r.time < x.time ∨ (r.time = x.time ∧ (r.frac < x.frac ∨ (r.frac = x.frac ∧ r.port < x.port))) then some r else some x) none

/-- The parser of a frame's source: frames of one partner go to one parser (R35, R145). -/
def RxFrame.parser (r : RxFrame) : Nat := Config.parserOf (if r.serial then 2048 + r.source else r.source) % 8

/-- Bytes of a packet for microcode; of content given decoded they are free. -/
def packetBytes (s : State) (c : Content) : List Byte :=
  match c with
  | .raw bs => bs
  | _ => Config.freeBytes s.fresh

/-- Parse one frame by the protocol of its partner at its arrival; content of another format is a format drop (R142, R143, R149). -/
def parseFrame (s : State) (r : RxFrame) (ecc : Bool) : State :=
  match (r.partner.map (·.proto)).getD 2, r.content with
  | 0, .gvspLeader .. => parseGvsp s r
  | 0, .gvspPayload .. => parseGvsp s r
  | 0, .gvspTrailer .. => parseGvsp s r
  | 1, .rtp ssrc time marker segs => parseRtp s r ssrc time marker segs
  | 2, c => parseRaw (tickFresh s) r (packetBytes s c) ecc
  | 3, .uadp .. => parseUadp s r
  | 3, .discovery => s
  | _, _ => countMalformed s r.port

/-- PARSER_RUN: a parser takes its oldest waiting frame (R145, R151 to R173). -/
def execParserRun (w : ParserTurn) (s : State) : Host.Outcome State Fault Refusal :=
  match nextFrame (s.ing.waiting.filter (fun r => r.parser == w.parser)) with
  | none => .next s
  | some r => .next (parseFrame { s with ing.waiting := s.ing.waiting.erase r } r w.ecc)

/-! ### Field records (R155, R165) -/

/-- A field record's sample for one stream. -/
def fieldDraft (r : FieldRec) : Draft :=
  let t := r.time.toNat
  { time := t / 65536, frac := t % 65536, gen := r.gen, holdover := r.holdover, test := false, partial_ := false, sensor := false, sequence := if r.kind = 0 then some r.count else none, signature := none, ingress := t / 65536, elements := r.payload.length, payload := r.payload }

/-- Streams that read a field channel. -/
def channelStreams (s : State) (kind ch : Nat) : List (Nat × StreamCfg) :=
  (liveStreams s).filter (fun x => x.2.field && x.2.kind == kind && x.2.source == ch && (streamOf s x.1).enabled)

/-- FIELD_RECORD_RX: the oldest record of the field die arrives over the link (R165, R590); a frame with a bad CRC is lost (R587; log 139). -/
def execFieldRecordRx (s : State) : Host.Outcome State Fault Refusal :=
  if !s.fldT.linkUp then .next s else
  match s.fld.buffer with
  | [] => .next s
  | r :: rest =>
    let ok := Config.frameIntact s.fresh
    let s := tickFresh { s with fld.buffer := rest }
    if !ok then .next (badFrame s)
    else if r.kind = 1 then
      let t := r.time.toNat
      let f : RxFrame := { port := 10, source := r.channel, serial := true, bytes := r.payload.length, time := t / 65536, frac := t % 65536, gen := r.gen, holdover := r.holdover, udpDst := 0, content := .raw r.payload, partner := none, maps := [] }
      .next { s with ing.waiting := s.ing.waiting ++ [f] }
    else
      .next ((channelStreams s (if r.kind = 0 then kindEncoder else kindDigital) r.channel).foldl (fun s x => (commit s x.1 x.2 (fieldDraft r)).2) s)

/-! ### Test injections (R174 to R176, R553) -/

/-- Bytes of a frame of the configured size; the pixel format of a GVSP stream is not configured, so its size is free. -/
def testFrameBits (s : State) (c : StreamCfg) : Nat :=
  if (s.ing.partners.find c.source).any (fun p => p.proto == 1) then c.width * c.height * rtpHalves c.format * 4
  else c.width * c.height * ((gvspBpp ((Config.freeWord s.fresh).toNat % 14)).getD 8)

/-- One step of PRBS31, x^31 + x^28 + 1 (R629): the bit it puts out and the register. -/
def prbs31Step (x : Nat) : Nat × Nat :=
  let b := (x / 2 ^ 30 + x / 2 ^ 27) % 2
  (b, (2 * x + b) % 2 ^ 31)

/-- Eight bits of PRBS31 as a byte number, first bit highest, and the register. -/
def prbs31Byte : Nat → Nat → Nat → Nat × Nat
  | 0, acc, x => (acc, x)
  | n + 1, acc, x => prbs31Byte n (2 * acc + (prbs31Step x).1) (prbs31Step x).2

/-- The bits of a number of n bits, in reverse order. -/
def reverseBits (n x : Nat) : Nat := (List.range n).foldl (fun a i => 2 * a + bitsOf x i 1) 0

/-- Byte i of the PRBS31 pattern; how the seed loads, the polarity and the bit order are free (R174; log entry 130). -/
def prbs31At (seed i : Nat) : Byte :=
  let v := Config.prbs31
  let x := if v.testBit 0 then reverseBits 31 (seed % 2 ^ 31) else seed % 2 ^ 31
  let b := (prbs31Byte 8 0 ((List.range i).foldl (fun x _ => (prbs31Byte 8 0 x).2) x)).1
  let b := if v.testBit 1 then 255 - b else b
  BitVec.ofNat 8 (if v.testBit 2 then b else reverseBits 8 b)

/-- Byte i of a pattern for pixels of `bpp` bits in lines of `w` pixels (R174). -/
def patternByte (pattern seed : Nat) (packet : List Byte) (bpp w i : Nat) : Byte :=
  match pattern with
  | 0 => BitVec.ofNat 8 i
  | 1 =>
    let px := if bpp = 0 then 0 else i * 8 / bpp
    let x := if w = 0 then 0 else px % w
    let y := if w = 0 then 0 else px / w
    if (x / 8 + y / 8) % 2 = 0 then 0 else 255
  | 2 => prbs31At seed i
  | _ => packet.getD i 0

/-- The injected sample of a stream: its draft, or none where the program forms no sample for it. An injected SCAN or IMU
sample carries the CRC-64 of its emitted records as signature (log entry 60). -/
def testDraft (s : State) (c : StreamCfg) (x : Injection) : Option Draft :=
  let t := time16 s |>.toNat
  let r : RxFrame := { port := 0, source := c.source, serial := c.field, bytes := x.packet.length, time := t / 65536, frac := t % 65536, gen := s.tb.gen, holdover := false, udpDst := 0, content := .raw x.packet, partner := none, maps := [] }
  if c.kind = kindCamera then
    let bits := testFrameBits s c
    let n := min ((bits + 7) / 8) c.room
    let bpp := if c.width * c.height = 0 then 0 else bits / (c.width * c.height)
    let bytes := (List.range n).map (patternByte x.pattern x.seed x.packet bpp c.width)
    some { time := t / 65536, frac := t % 65536, gen := s.tb.gen, holdover := false, test := true, partial_ := false, sensor := false, sequence := none, signature := some (crc64 bytes), ingress := t / 65536, elements := n, payload := bytes }
  else
    let prog := if c.field then Config.serialProgram c.source % 64 else ((s.ing.partners.find c.source).map (·.program)).getD 0
    match parsePacket (fun sel => if sel = c.selector then some c.room else none) (Tbl.at [] s.ing.programs prog) x.packet with
    | .commit p => if c.room < p.out.length ∨ p.sel ≠ c.selector then none else some { parseDraft s c r p true with signature := some (crc64 p.out) }
    | _ => none

/-- The Splice unit reads the slot of an injected sample in full: status, header and payload bytes. -/
def readSlot (s : State) (k : Nat) (c : StreamCfg) (y : Draft) : Nat × List Byte × State :=
  devRead s { streamWho s k c with index := 0x0900 } (c.slotAddr (streamOf s k).lastIndex) (64 + y.payload.length)

/-- An injection's verdict: the signature over the slot's payload against the header's and, for SCAN and IMU, the expected one
(R175; log entry 60). Answers pass and the signature. -/
def injectCheck (c : StreamCfg) (x : Injection) (slot : List Byte) : Bool × Nat :=
  let g := crc64 (slot.drop 64)
  let same := ofLe ((slot.drop 24).take 8) == g
  (same && (c.kind == kindCamera || g == x.expected), g)

/-- Run an injection: commit the test sample, read it back and check it. Answers pass and signature. -/
def inject (s : State) (k : Nat) (c : StreamCfg) (x : Injection) : Bool × Nat × State :=
  match testDraft s c x with
  | none => (false, 0, tickFresh s)
  | some y =>
    match commit (tickFresh s) k c y with
    | (false, s) => (false, 0, s)
    | (true, s) =>
      match readSlot s k c y with
      | (st, bs, s) => (st == stOk && (injectCheck c x bs).1, (injectCheck c x bs).2, s)

/-- The record of a failed injection (R175). -/
def raiseInject (s : State) (k : Nat) : State :=
  raise s { streamReport s sevDoubt k stMismatch with status := stMismatch, flows := flowsOfStream s k }

/-- First injection of a stream. -/
def injectionOf (s : State) (k : Nat) : Option Injection := (s.ing.injections.find? (fun p => p.1 == k)).map (·.2)

/-- Remove the first injection of a stream. -/
def popInjection (k : Nat) : List (Nat × Injection) → List (Nat × Injection)
  | [] => []
  | p :: ps => if p.1 = k then ps else p :: popInjection k ps

/-- Blanking: nothing in reception and 10 µs since the last commit (R175). -/
def blankFrom (s : State) (k : Nat) : Option Nat :=
  if s.ing.cams.any (fun f => f.stream == k && !f.dropped) then none
  else match (streamOf s k).lastCommit with
    | some t => some (t + 10000)
    | none => some 0

/-- TEST_INJECTION_START (R175). -/
def execTestInjectionStart (stream : Nat) (s : State) : Host.Outcome State Fault Refusal :=
  match injectionOf s stream, streamCfg s stream, blankFrom s stream with
  | some x, some c, some t =>
    let s := advanceTo s t
    if x.deadline < s.up then .next s else
    let s := { s with ing.injections := popInjection stream s.ing.injections }
    match inject s stream c x with
    | (true, g, s) =>
      let y := streamOf s stream
      let s := if y.frozen ∧ 8 ≤ y.passRun then setStream s stream { y with injected := true } else s
      .next (finishDesc s x.desc stOk g 0 0)
    | (false, g, s) => .next (finishDesc (raiseInject s stream) x.desc stMismatch g 0 0)
  | _, _, _ => .next s

/-- TEST_INJECT_TIMEOUT: no blanking interval within 100 ms (R175). -/
def execTestInjectTimeout (stream : Nat) (s : State) : Host.Outcome State Fault Refusal :=
  match injectionOf s stream with
  | some x =>
    let s := advanceUp s x.deadline
    .next (finishDesc { s with ing.injections := popInjection stream s.ing.injections } x.desc stAborted 0 0 0)
  | none => .next s

/-- STARTUP_INJECTION: firmware's injection for the first enable of a CAMERA or SCAN stream, a RAMP frame or the stored
reference packet with its expected signature (R176, R553). -/
def execStartupInjection (stream : Nat) (packet : List Byte) (expected : Nat) (s : State) : Host.Outcome State Fault Refusal :=
  match (streamOf s stream).starting, streamCfg s stream with
  | some d, some c =>
    let x : Injection := { desc := d, pattern := if c.kind = kindCamera then 0 else 3, seed := 0, packet := packet, expected := expected, deadline := 0 }
    match inject s stream c x with
    | (true, _, s) =>
      let s := updStream s stream (fun y => { y with started := true, joining := true })
      .next (releaseArming (endStarting s stream stOk))
    | (false, _, s) =>
      .next (releaseArming (endStarting (raiseInject s stream) stream stMismatch))
  | _, _ => .next s

/-- ETHERNET_LINK_CHANGE: the line of a port comes up or goes down, or SFP_MOD_ABS_L or SFP_LOS changes, either of which holds the link down
while it is high; the interrupt source takes both edges (R496, R610). -/
def execEthernetLinkChange (port : Nat) (pins : PortPins) (s : State) : Host.Outcome State Fault Refusal :=
  let up := pins.line && !pins.modAbs && !pins.los
  if 9 < port ∨ (up ∧ ((ingPort s port).speed = 0 ∨ s.power.inReset.contains 7 ∨ s.dbg.tests port 1)) then .next s
  else .next (clockLost (syncE s) (icuSet (updPort s port (fun x => { x with linkUp := up })) (162 + port) up))

end Sys2Proof.Machine
end

