-- ==== Sys2Proof/Machine/Splice.lean ====
section
/-! DEFINITION. The Splice unit's commands and the end of ALIGN (spec/08_splice_alignment.md R183 to R198). -/

namespace Sys2Proof.Machine

/-- The epoch table of an epoch. -/
def tableOf (s : State) (c n : Nat) : Option EpochTable := (s.spl.tables.find (2 * c + n % 2)).filter (fun t => t.epoch == n)

/-- Entry of a stream in a table. -/
def EpochTable.entry (t : EpochTable) (k : Nat) : Option StreamEntry := t.streams.find? (fun x => x.stream == k)

/-- A stream entry that counts as missing (R190). -/
def Disp.gone : Disp → Bool
  | .missing => true
  | .excluded => true
  | .capacity => true
  | _ => false

/-- Primary streams of the joints on a stream's chain: positions 1 to its link (R14, R189). -/
def chainPrimaries (cfg : Cfg) (k : Nat) : List Nat :=
  match (cfg.streams.find k).bind (·.mount) with
  | some m => (cfg.joints.filter (fun p => p.2.rig == m.1 && decide (p.2.position ≤ m.2.1))).map (·.2.primary)
  | none => []

/-- Value entries at the queries of a stream's samples. -/
def EpochTable.valuesOf (t : EpochTable) (k : Nat) : List ValueEntry :=
  (t.queries.filter (fun q => q.source == k && q.kind != 0)).flatMap (·.values)

/-- A SCAN stream with a rig link that belongs to no volume contributes no points (R226). -/
def scanHomeless (e : Epoch) (k : Nat) : Bool :=
  (e.cfg.streams.find k).any (fun c => c.kind == kindScan && c.mount.isSome) && !(e.cfg.volumes.any (fun v => v.2.members.any (fun m => m.2 == k)))

/-- A stream input is missing (R190, R226). -/
def streamMissing (e : Epoch) (t : EpochTable) (k : Nat) : Bool :=
  scanHomeless e k || (match t.entry k with
    | some x => x.disp.gone
    | none => true)
    || (t.valuesOf k).any (fun v => (chainPrimaries e.cfg k).contains v.stream && v.disp.gone)

/-- Some value that a stream input uses is extrapolated. -/
def streamExtrapolated (t : EpochTable) (k : Nat) : Bool :=
  (t.entry k).any (fun x => x.disp == .extrapolated) || (t.valuesOf k).any (fun v => v.disp == .extrapolated)

/-- A selected member of a stream is a partial frame (R158). -/
def streamPartial (s : State) (e : Epoch) (k : Nat) : Bool :=
  s.spl.holds.any (fun h => h.1 == e.cadence && h.2.1 == e.epoch && h.2.2.1 == k
    && (streamOf s k).samples.any (fun x => x.index == h.2.2.2 && x.partial_))

/-- Earliest contribution of a stream input: its own entry and the streams evaluated at its queries (R26, R191). -/
def streamOld (e : Epoch) (t : EpochTable) (k : Nat) : Option Nat :=
  (queryStreams e k).foldl (fun a p => earlier a ((t.entry p.1).bind (·.tOld))) ((t.entry k).bind (·.tOld))

/-- What one input of a flow gives: missing, degraded (optional missing or extrapolated), partial frames, contribution. -/
structure InputView where
  missing : Bool
  contested : Bool
  degraded : Bool
  old : Option Nat
  fallback : Bool
  deriving DecidableEq, Repr

/-- A stream input (R190, R191). -/
def viewStream (s : State) (e : Epoch) (t : EpochTable) (r : InputRef) : InputView :=
  if streamMissing e t r.index then { missing := r.required, contested := false, degraded := !r.required, old := none, fallback := false }
  else { missing := false, contested := false, degraded := streamExtrapolated t r.index || streamPartial s e r.index,
         old := streamOld e t r.index, fallback := false }

/-- A flow input: what the close took, and its grid's regions in the consumer's area (R27, R266). -/
def viewFlow (e : Epoch) (f tov : Nat) (x : Taken) : InputView :=
  match x.result with
  | none => { missing := x.required, contested := false, degraded := !x.required, old := none, fallback := false }
  | some r =>
    let fb := r.flags.testBit 2 || r.status == stFallback
    match (e.cfg.flows.find x.flow).bind (·.grid) with
    | none => { missing := false, contested := false, degraded := x.substituted, old := r.contribution, fallback := fb }
    | some g =>
      let a := areaOf e.cfg f g
      match e.cfg.grids.find g with
      | none => { missing := false, contested := false, degraded := x.substituted, old := r.contribution, fallback := fb }
      | some gc =>
        let v := gridInput a gc r.regions tov
        let guarded := (e.cfg.flows.find f).any (·.guarded)
        let stop := a.required || guarded
        { missing := v.2 && stop, contested := v.1 && stop, degraded := x.substituted || ((v.1 || v.2) && !stop), old := r.contribution, fallback := fb }

/-- Status of a flow whose input stops it. -/
def stopStatus (vs : List InputView) : Nat := if vs.any (·.contested) then stContested else stInputSuspect

/-- Streams that the work of a flow reads: its inputs, those of the grid it carries, and those of the ego groups that correct the poses of
either (R26, R220). -/
def flowReads (e : Epoch) (f : Nat) : List Nat :=
  let own := flowStreams e.cfg f
  let groups := e.cfg.egos.filter (fun p => p.2.enable && own.any (fun k => ((e.cfg.streams.find k).bind (·.mount)).any (fun m => m.1 == p.2.rig && m.2.1 == p.2.link)))
  (own ++ groups.flatMap (·.2.streams)).eraseDups

/-- Gate one flow at the end of ALIGN (R138, R190, R191, R266). -/
def gateFlow (s : State) (e : Epoch) (t : EpochTable) (r : FlowRun) : FlowRun :=
  if e.skips r then { r with gated := true, runs := false, status := stAborted }
  else
    let refs := (Tbl.at [] e.cfg.inputs r.flow).filter (fun x => !x.isFlow)
    let vs := refs.map (viewStream s e t) ++ r.taken.map (viewFlow e r.flow (e.tov s))
    if vs.any (fun v => v.missing || v.contested) then { r with gated := true, runs := false, missing := true, status := stopStatus vs }
    else
      let deg := vs.any (·.degraded)
      { r with gated := true, partial_ := r.partial_ || deg, degraded := r.degraded || deg, fallback := r.fallback || vs.any (·.fallback),
               old := (flowReads e r.flow).foldl (fun a k => earlier a (streamOld e t k)) (vs.foldl (fun a v => earlier a v.old) r.old) }

/-- Counters of a stream at the end of ALIGN (R199). -/
def countEntry (s : State) (x : StreamEntry) : State :=
  if x.disp.gone then updStream s x.stream (fun y => { y with missing := satAdd 8 y.missing 1 })
  else if x.disp = .extrapolated then updStream s x.stream (fun y => { y with extrap := satAdd 8 y.extrap 1 })
  else s

/-- A guarded flow that may not run is reported to the safety island (R190): from this instant its verdict is FAIL (R442). -/
def failMissing (s : State) (r : FlowRun) : FlowRun :=
  if r.guarded ∧ r.missing then { r with failAt := some (r.failAt.getD s.now) } else r

/-- The DOUBT that names a guarded flow whose input is missing, contested or unseen (R459). -/
def raiseMissing (s : State) (n : Nat) (r : FlowRun) : State :=
  if r.guarded ∧ r.missing then
    raise s { reportOf s sevDoubt 6 r.flow r.status with status := r.status, guarded := true, flows := [r.flow], epoch := some n }
  else s

/-- The record EPOCH_CAPACITY (R196, R212). -/
def raiseCapacity (s : State) (c n : Nat) : State := raise s { reportOf s sevWarn 16 c 0x0114 with detail := n % 2 ^ 32 }

/-- The oldest epoch of a cadence whose ALIGN has not ended. -/
def aligning (s : State) (c : Nat) : Option Epoch := s.epochs.find? (fun e => e.cadence == c && e.closed && e.alignEnd.isNone && !e.aborted)

/-- ALIGN_END: the epoch table's header is written and the flows' inputs are marked (R190, R195, R196). -/
def execAlignEnd (c : Nat) (s : State) : Host.Outcome State Fault Refusal :=
  match aligning s c with
  | none => .next s
  | some e =>
    match tableOf s c e.epoch with
    | none => .next s
    | some t =>
      let s := { s with
        spl.tables := s.spl.tables.put (2 * c + e.epoch % 2) { t with ended := some s.now }
        spl.latest := s.spl.latest.put c e.epoch
        spl.queries := s.spl.queries.put c t.queries.length
        spl.alignUs := s.spl.alignUs.put c (min ((s.now - t.close) / 1000) 0xFFFF)
        spl.capacity := if t.cut then s.spl.capacity.put c true else s.spl.capacity }
      let s := if t.cut then raiseCapacity s c e.epoch else s
      let s := t.streams.foldl countEntry s
      let s' := updEpoch s c e.epoch (fun e => { e with alignEnd := some s.now, flows := e.flows.map (fun r => failMissing s (gateFlow s e t r)) })
      let s' := (((epochOf s' c e.epoch).map (·.flows)).getD []).foldl (fun s r => raiseMissing s e.epoch r) s'
      .next (releaseEpoch (endFlows s' c e.epoch) c e.epoch)

/-! ### Commands (R197, R198) -/

/-- What R70 checks of SplStream. -/
def infoSplStream (_ : State) (d : Desc) : OpInfo :=
  { fields := [(16, 0, 7), (17, 0, 2), (18, 0, 16), (20, 0, 16), (22, 0, 16), (24, 0, 32)], authority := didHost d }

/-- SPL_STREAM (R198). -/
def execSplStream (d : Desc) (s : State) : Host.Outcome State Fault Refusal :=
  .next (runDesc s d (infoSplStream s d) fun s =>
    let k := dfld d 16 0 7
    match s.cfg.streams.find k with
    | none => failWith s stDescInvalid
    | some c =>
      if streamGuarded s k then failWith s stNotAuth
      else
        let gap := dfld d 18 0 16
        let age := dfld d 22 0 16
        let c := { c with selectAll := dbit d 17 0, driftOff := dbit d 17 1, maxGap := if gap = 0 then 1000 else gap, extrapMax := dfld d 20 0 16, maxAge := if age = 0 then 1000 else age, statusMask := dfld d 24 0 32 }
        okWith { s with cfg.streams := s.cfg.streams.put k c } 0)

/-- Entries of an input list: bytes 24 to 63 (R197). -/
def inputRefs (d : Desc) (n : Nat) : List InputRef :=
  (List.range n).map (fun i => { isFlow := dbit d (25 + 2 * i) 7, required := dbit d (25 + 2 * i) 6, index := dfld d (24 + 2 * i) 0 12 })

/-- The fields of SPL_INPUTS. -/
def inputFields : List BodyField :=
  (16, 0, 12) :: (18, 0, 8) :: (List.range 20).flatMap (fun i => [(24 + 2 * i, 0, 12), (24 + 2 * i, 14, 2)])

/-- What R70 checks of SplInputs. -/
def infoSplInputs (_ : State) (d : Desc) : OpInfo :=
  { fields := inputFields, authority := didHost d }

/-- SPL_INPUTS (R189, R197). -/
def execSplInputs (d : Desc) (s : State) : Host.Outcome State Fault Refusal :=
  .next (runDesc s d (infoSplInputs s d) fun s =>
    let f := dfld d 16 0 12
    let n := dfld d 18 0 8
    let refs := inputRefs d n
    match s.cfg.flows.find f with
    | none => failWith s stDescInvalid
    | some x =>
      if x.guarded then failWith s stNotAuth
      else if 20 < n ∨ refs.any (fun r => if r.isFlow then (s.cfg.flows.find r.index).isNone else (s.cfg.streams.find r.index).isNone) then
        failWith s stDescInvalid
      else okWith { s with cfg.inputs := s.cfg.inputs.put f refs } 0)

/-- Disposition codes of R195. -/
def Disp.code : Disp → Nat
  | .used => 0 | .missing => 1 | .excluded => 2 | .extrapolated => 3 | .stale => 4 | .capacity => 5

/-- Bytes of a stream entry, a query with its values, and a tag entry (R195). -/
def StreamEntry.bytes (x : StreamEntry) : List Byte :=
  leBytes 1 x.stream ++ leBytes 1 x.disp.code ++ leBytes 2 x.members ++ leBytes 4 x.first ++ leBytes 8 (x.tOld.getD (2 ^ 64 - 1))
    ++ leBytes 8 (match x.delta with | some d => unsigned 64 d | none => 2 ^ 63) ++ leBytes 4 x.late ++ leBytes 4 0

def ValueEntry.bytes (x : ValueEntry) : List Byte :=
  leBytes 1 x.stream ++ leBytes 1 x.disp.code ++ leBytes 1 (placeB x.z 0 + placeB x.holdover 1) ++ leBytes 1 0 ++ leBytes 4 x.status
    ++ (if x.imu then (List.range 6).flatMap (fun i => leBytes 4 (x.comps.getD i 0)) else leBytes 8 x.pos ++ leBytes 8 x.rate ++ leBytes 8 0)

def Query.bytes (x : Query) : List Byte :=
  leBytes 8 x.time ++ leBytes 2 x.frac ++ leBytes 1 x.source ++ leBytes 1 x.kind ++ leBytes 2 x.values.length ++ leBytes 2 0
    ++ x.values.flatMap ValueEntry.bytes

def TagEntry.bytes (x : TagEntry) : List Byte :=
  leBytes 8 x.value ++ leBytes 4 x.age ++ leBytes 1 x.disp.code ++ leBytes 1 x.flags ++ leBytes 2 x.tag

/-- An epoch table in memory (R195). -/
def EpochTable.bytes (t : EpochTable) : List Byte :=
  leBytes 8 t.epoch ++ leBytes 8 t.tov ++ leBytes 8 t.close ++ leBytes 4 t.streams.length ++ leBytes 4 t.queries.length
    ++ leBytes 4 (t.queries.foldl (fun n q => n + q.values.length) 0) ++ leBytes 4 t.tags.length ++ leBytes 8 (t.ended.getD 0) ++ leBytes 16 0
    ++ t.streams.flatMap StreamEntry.bytes ++ t.queries.flatMap Query.bytes ++ t.tags.flatMap TagEntry.bytes

/-- What R70 checks of SplSnapshot. -/
def infoSplSnapshot (_ : State) (d : Desc) : OpInfo :=
  { fields := [(16, 0, 5), (24, 0, 64), (32, 0, 32)], authority := didHost d }

/-- SPL_SNAPSHOT: the latest table whose ALIGN has ended (R197). -/
def execSplSnapshot (d : Desc) (s : State) : Host.Outcome State Fault Refusal :=
  .next (runDesc s d (infoSplSnapshot s d) fun s =>
    let c := dfld d 16 0 5
    let va := dfld d 24 0 64
    match (s.spl.latest.find c).bind (tableOf s c) with
    | none => failWith s stDescInvalid
    | some t =>
      if va % 64 ≠ 0 then failWith s stDescInvalid
      else match devWrite s { did := d.did, guarded := false, kind := 4, index := 0x0900, flows := [] } va (t.bytes.take (dfld d 32 0 32)) with
        | (st, s) => if st ≠ stOk then failWith s st else okWith s t.epoch)

end Sys2Proof.Machine
end

