-- ==== Sys2Proof/Machine/Pose.lean ====
section
/-! DEFINITION. FP32 pose arithmetic, joints and deskew (spec/09_transforms_ego_motion.md R200 to R214). -/

namespace Sys2Proof.Machine

/-! ### FP32 arithmetic on encodings -/

def f32Add (a b : Nat) : Nat := (addV fp32 (decodeF fp32 a) (decodeF fp32 b)).1
def f32Neg (a : Nat) : Nat := a ^^^ 0x80000000
def f32Sub (a b : Nat) : Nat := f32Add a (f32Neg b)
def f32Mul (a b : Nat) : Nat := (mulV fp32 (decodeF fp32 a) (decodeF fp32 b)).1
def f32Fma (a b c : Nat) : Nat := (fmaV fp32 (decodeF fp32 a) (decodeF fp32 b) (decodeF fp32 c)).1
def f32Div (a b : Nat) : Nat := (divV fp32 (decodeF fp32 a) (decodeF fp32 b)).1
def f32Sqrt (a : Nat) : Nat := (sqrtV fp32 (decodeF fp32 a)).1
/-- FP32 of the quotient of two integers, correctly rounded. -/
def f32Ratio (n d : Int) : Nat := (divV fp32 (intV n) (intV d)).1
def f32Lt (a b : Nat) : Bool := ltV (decodeF fp32 a) (decodeF fp32 b)
def f32Le (a b : Nat) : Bool := let x := decodeF fp32 a; let y := decodeF fp32 b; ltV x y || eqV x y
def f32Finite (a : Nat) : Bool := match decodeF fp32 a with | .fin _ _ _ => true | _ => false

def f32One : Nat := 0x3F800000
def f32Half : Nat := 0x3F000000
def f32OneHalf : Nat := 0x3FC00000
def f32Two : Nat := 0x40000000

/-- Exact value of a finite number; 0 for what is not finite. -/
def ratOfV : FVal → Rat
  | .fin n m e =>
    let x : Rat := if 0 ≤ e then ((m * 2 ^ e.toNat : Nat) : Rat) else (m : Rat) / ((2 ^ (-e).toNat : Nat) : Rat)
    if n then -x else x
  | _ => 0

/-! ### Poses (R200, R201) -/

/-- x1*y1 − x2*y2 as a chain. -/
def cross1 (x1 y1 x2 y2 : Nat) : Nat := f32Fma (f32Neg x2) y2 (f32Mul x1 y1)

/-- rot(q) p: p + 2w (u × p) + 2 u × (u × p), as chains in that order (R200; log entry 62). -/
def Pose.rotate (q : Pose) (p : Nat × Nat × Nat) : Nat × Nat × Nat :=
  let c := (cross1 q.y p.2.2 q.z p.2.1, cross1 q.z p.1 q.x p.2.2, cross1 q.x p.2.1 q.y p.1)
  let e := (cross1 q.y c.2.2 q.z c.2.1, cross1 q.z c.1 q.x c.2.2, cross1 q.x c.2.1 q.y c.1)
  let w2 := f32Mul f32Two q.w
  (f32Fma f32Two e.1 (f32Fma w2 c.1 p.1), f32Fma f32Two e.2.1 (f32Fma w2 c.2.1 p.2.1), f32Fma f32Two e.2.2 (f32Fma w2 c.2.2 p.2.2))

/-- A pose maps a point (R200). -/
def Pose.map (a : Pose) (p : Nat × Nat × Nat) : Nat × Nat × Nat :=
  let r := a.rotate p
  (f32Add a.tx r.1, f32Add a.ty r.2.1, f32Add a.tz r.2.2)

/-- One renormalisation step of the quaternion (R201). -/
def Pose.renorm (a : Pose) : Pose :=
  let s := f32Fma a.z a.z (f32Fma a.y a.y (f32Fma a.x a.x (f32Mul a.w a.w)))
  let k := f32Fma (f32Neg f32Half) s f32OneHalf
  { a with w := f32Mul a.w k, x := f32Mul a.x k, y := f32Mul a.y k, z := f32Mul a.z k }

/-- compose(a, b) (R201). -/
def Pose.compose (a b : Pose) : Pose :=
  let ch := fun (p : Nat) (q : Nat × Nat) (r : Nat × Nat) (u : Nat × Nat) => f32Fma u.1 u.2 (f32Fma r.1 r.2 (f32Fma q.1 q.2 p))
  let n := f32Neg
  let t := a.map (b.tx, b.ty, b.tz)
  Pose.renorm
    { w := ch (f32Mul a.w b.w) (n a.x, b.x) (n a.y, b.y) (n a.z, b.z)
      x := ch (f32Mul a.w b.x) (a.x, b.w) (a.y, b.z) (n a.z, b.y)
      y := ch (f32Mul a.w b.y) (n a.x, b.z) (a.y, b.w) (a.z, b.x)
      z := ch (f32Mul a.w b.z) (a.x, b.y) (n a.y, b.x) (a.z, b.w)
      tx := t.1, ty := t.2.1, tz := t.2.2 }

/-- inverse(a) (R201). -/
def Pose.inverse (a : Pose) : Pose :=
  let q := { a with x := f32Neg a.x, y := f32Neg a.y, z := f32Neg a.z }
  let t := q.rotate (a.tx, a.ty, a.tz)
  { q with tx := f32Neg t.1, ty := f32Neg t.2.1, tz := f32Neg t.2.2 }

def isZero32 (a : Nat) : Bool := a % 0x80000000 == 0
def isNeg32 (a : Nat) : Bool := decide (0x80000000 ≤ a) && !isZero32 a

/-- The first of a list that is not zero is negative. -/
def firstNeg : List Nat → Bool
  | [] => false
  | x :: xs => if isZero32 x then firstNeg xs else isNeg32 x

/-- The canonical form of a pose in a table (R201). -/
def Pose.canonical (a : Pose) : Pose :=
  if firstNeg [a.w, a.x, a.y, a.z] then { a with w := f32Neg a.w, x := f32Neg a.x, y := f32Neg a.y, z := f32Neg a.z } else a

/-- The pose of an unavailable record. -/
def Pose.zero : Pose := { w := 0, x := 0, y := 0, z := 0, tx := 0, ty := 0, tz := 0 }

/-! ### Joints (R204 to R209) -/

/-- FP64 encoding of π. -/
def f64Pi : Nat := 0x400921FB54442D18

/-- Reduction to (−π, π] where the joint wraps (R205). -/
def wrapped (j : Joint) (v : Nat) : Nat :=
  if j.prismatic ∨ !j.wrap then v
  else
    let x := decodeF fp64 v
    let p := decodeF fp64 f64Pi
    if ltV p.negate x ∧ (ltV x p ∨ eqV x p) then v else wrapAngle v

/-- The joint value of a position (R205). -/
def jointValue (j : Joint) (ref : Int) (pos : Nat) : Nat :=
  wrapped j (f64Add (f64Mul j.scale (f64Sub pos (f64Int ref))) j.zero)

/-- The value is within the limits. -/
def inLimits (j : Joint) (v : Nat) : Bool :=
  let x := decodeF fp64 v
  !x.isNan && !ltV x (decodeF fp32 j.min) && !ltV (decodeF fp32 j.max) x

/-- move(v): along or about the axis (R205). -/
def jointMove (j : Joint) (v : Nat) : Pose :=
  let neg := decide (3 ≤ j.axis)
  let along := fun (m : Nat) (i : Nat) => if j.axis % 3 = i then (if neg then f32Neg m else m) else 0
  if j.prismatic then
    let t := f32Of64 v
    { Pose.id with tx := along t 0, ty := along t 1, tz := along t 2 }
  else
    let m := sinHalf v
    { Pose.id with w := cosHalf v, x := along m 0, y := along m 1, z := along m 2 }

def jointSt (s : State) (k : Nat) : JointSt := Tbl.at JointSt.reset s.xft.joints k
/-- A joint's state for the queries of an epoch: as it started (R28, R206). -/
def Epoch.jointSt (e : Epoch) (k : Nat) : JointSt := Tbl.at JointSt.reset e.joints k
def setJoint (s : State) (k : Nat) (x : JointSt) : State := { s with xft.joints := s.xft.joints.put k x }

/-- State of a joint's measurement at a query: code of R211 and value. -/
def evalRef (j : Joint) (r : Refd) (v : Option ValueEntry) : Nat × Nat :=
  match v with
  | none => (1, 0)
  | some x =>
    if x.disp ≠ .used ∧ x.disp ≠ .extrapolated then (1, 0)
    else if !r.referenced then (2, 0)
    else
      let w := jointValue j r.ref x.pos
      if inLimits j w then (0, w) else (3, w)

/-- The value entry of a stream at a query. -/
def Query.valueOf (q : Query) (k : Nat) : Option ValueEntry := q.values.find? (fun v => v.stream == k)

/-- A joint that the epoch found in disagreement is unavailable (R262). -/
def evalJoint (e : Epoch) (k : Nat) (j : Joint) (q : Query) : Nat × Nat :=
  if e.badJoints.contains k then (1, 0) else evalRef j (e.jointSt k).primary (q.valueOf j.primary)

/-- Joints of a rig at positions 1 to `p`, in chain order. -/
def chainOf (cfg : Cfg) (r p : Nat) : List (Nat × Joint) :=
  (List.range p).filterMap (fun i => cfg.joints.find? (fun x => x.2.rig == r && x.2.position == i + 1))

/-- An entry's pose, or none where it is POISONED (R203). -/
def entryPose (s : State) (cfg : Cfg) (k : Nat) : Option Pose :=
  if s.xft.poisoned.contains k then none else some (((cfg.entries.find k).map (·.pose)).getD Pose.id)

/-- The pose of a link at a query: its status and pose, composed strictly from the left (R204, R209, R211). -/
def linkGo (s : State) (e : Epoch) (q : Query) : List (Nat × Joint) → Pose → Nat × Pose
  | [], p => (0, p)
  | (k, j) :: rest, p =>
    match entryPose s e.cfg j.pre with
    | none => (4, Pose.zero)
    | some pre =>
      let v := evalJoint e k j q
      if v.1 ≠ 0 then (v.1, Pose.zero)
      else linkGo s e q rest ((p.compose pre).compose (jointMove j v.2))

def linkPose (s : State) (e : Epoch) (q : Query) (rig link : Nat) : Nat × Pose :=
  match entryPose s e.cfg ((e.cfg.rigs.find rig).map (·.root) |>.getD 0) with
  | none => (4, Pose.zero)
  | some root => linkGo s e q (chainOf e.cfg rig link) root

/-- A pose record of a stream at a query (R211). -/
def poseRec (s : State) (e : Epoch) (i : Nat) (q : Query) (k : Nat) (m : Nat × Nat × Nat) : PoseRec :=
  let l := linkPose s e q m.1 m.2.1
  let vs := (chainOf e.cfg m.1 m.2.1).filterMap (fun p => q.valueOf p.2.primary)
  let bits := placeB (vs.any (·.holdover)) 1 + placeB (vs.any (fun v => v.disp == .extrapolated)) 2
  match l.1, entryPose s e.cfg m.2.2 with
  | 0, some mount => { query := i, stream := k, status := 0, flags := bits, rig := m.1, link := l.2.canonical, sensor := (l.2.compose mount).canonical }
  | 0, none => { query := i, stream := k, status := 4, flags := bits, rig := m.1, link := Pose.zero, sensor := Pose.zero }
  | st, _ => { query := i, stream := k, status := st, flags := bits, rig := m.1, link := Pose.zero, sensor := Pose.zero }

/-! ### Deskew (R213, R214) -/

/-- Difference of two instants in units of 2^-16 ns as FP32 seconds. -/
def f32Sec (x y : Nat) : Nat := f32Ratio ((x : Int) - (y : Int)) 65536000000000

/-- motion(tau, (omega, v)) (R213). -/
def motion (tau : Nat) (xi : List Nat) : Pose :=
  let g := fun i => xi.getD i 0
  let n := f32Sqrt (f32Fma (g 2) (g 2) (f32Fma (g 1) (g 1) (f32Mul (g 0) (g 0))))
  let t := (f32Mul tau (g 3), f32Mul tau (g 4), f32Mul tau (g 5))
  if isZero32 n then { Pose.id with tx := t.1, ty := t.2.1, tz := t.2.2 }
  else
    let a := f64Of32 (f32Mul n tau)
    let m := sinHalf a
    { w := cosHalf a, x := f32Mul (f32Div (g 0) n) m, y := f32Mul (f32Div (g 1) n) m, z := f32Mul (f32Div (g 2) n) m,
      tx := t.1, ty := t.2.1, tz := t.2.2 }

/-- Normalisation of a quaternion by an FP32 square root and four divisions (R213; log entry 63). -/
def Pose.normalise (a : Pose) : Pose :=
  let n := f32Sqrt (f32Fma a.z a.z (f32Fma a.y a.y (f32Fma a.x a.x (f32Mul a.w a.w))))
  { a with w := f32Div a.w n, x := f32Div a.x n, y := f32Div a.y n, z := f32Div a.z n }

/-- The link pose between two: nlerp of the quaternion, lerp of the translation (R213; log entry 63). -/
def blendPose (a b : Pose) (w : Nat) : Pose :=
  let dot := f32Fma a.z b.z (f32Fma a.y b.y (f32Fma a.x b.x (f32Mul a.w b.w)))
  let b := if isNeg32 dot then { b with w := f32Neg b.w, x := f32Neg b.x, y := f32Neg b.y, z := f32Neg b.z } else b
  let l := fun p q => f32Fma w (f32Sub q p) p
  Pose.normalise { w := l a.w b.w, x := l a.x b.x, y := l a.y b.y, z := l a.z b.z, tx := l a.tx b.tx, ty := l a.ty b.ty, tz := l a.tz b.tz }

/-- Signed 24-bit coordinate of a point record in metres (R163). -/
def coordM (bs : List Byte) (i : Nat) : Nat := f32Ratio (signed 24 (ofLe ((bs.drop i).take 3))) 4000

/-- A group's estimate: pose and residual velocity, identity where there is none. -/
abbrev Estimate := Pose × List Nat
def Estimate.none : Estimate := (Pose.id, [0, 0, 0, 0, 0, 0])

/-- What the deskew of one member needs: link poses at its two queries and the mount. -/
structure MemberPose where
  start : Pose
  stop : Pose
  mount : Pose

/-- A point of a SCAN member before the estimate is applied: its stream, the link pose at its instant, the mount, the time from
tov(n) in FP32 seconds, and its sensor-frame position (R213). -/
structure ScanPoint where
  stream : Nat
  link : Pose
  mount : Pose
  tau : Nat
  raw : Nat × Nat × Nat

/-- Site-frame position under an estimate (R213). -/
def ScanPoint.site (p : ScanPoint) (est : Estimate) : Nat × Nat × Nat :=
  (((p.link.compose est.1).compose (motion p.tau est.2)).compose p.mount).map p.raw

/-- Point `i` of a member of stream `k` (R213). -/
def scanPoint (k : Nat) (x : Sample) (tov : Nat) (m : MemberPose) (i : Nat) : ScanPoint :=
  let rec_ := (x.payload.drop (16 * i)).take 16
  let dt := word32 rec_ 0
  let big := dtMax x.payload
  let w := if big = 0 then 0 else f32Ratio dt big
  { stream := k, link := blendPose m.start m.stop w, mount := m.mount, tau := f32Sec ((x.time + dt) * 65536 + x.frac) (tov * 65536),
    raw := (coordM rec_ 4, coordM rec_ 7, coordM rec_ 10) }

/-! ### The pose table in memory (R211, R219) -/

/-- A pose: q then t, 28 bytes. -/
def Pose.bytes (p : Pose) : List Byte := [p.w, p.x, p.y, p.z, p.tx, p.ty, p.tz].flatMap (leBytes 4)

def GroupRec.bytes (g : GroupRec) : List Byte :=
  leBytes 1 g.group ++ leBytes 1 g.state ++ leBytes 1 g.flags ++ leBytes 1 g.iterations ++ leBytes 4 g.correspondences ++ g.d.bytes
    ++ (List.range 6).flatMap (fun i => leBytes 4 (g.xi.getD i 0)) ++ leBytes 4 g.rms

def JointRec.bytes (j : JointRec) : List Byte :=
  leBytes 1 j.joint ++ leBytes 1 j.state ++ leBytes 1 j.check ++ leBytes 5 0 ++ leBytes 8 j.v ++ leBytes 8 j.vCheck ++ leBytes 8 j.rate

def PoseRec.bytes (r : PoseRec) : List Byte :=
  leBytes 4 r.query ++ leBytes 1 r.stream ++ leBytes 1 r.status ++ leBytes 1 r.flags ++ leBytes 1 r.rig ++ r.link.bytes ++ r.sensor.bytes

/-- A pose table as its 520 KiB of DID 1 memory hold it; the place of those is the firmware's (log entry 84). -/
def PoseTable.bytes (t : PoseTable) : List Byte :=
  leBytes 8 t.epoch ++ leBytes 8 t.tov ++ leBytes 4 t.poses.length ++ leBytes 4 t.joints.length ++ leBytes 8 0 ++ leBytes 8 t.kinematic
    ++ leBytes 8 (t.corrected.getD 0) ++ leBytes 16 0
    ++ (List.range 16).flatMap (fun g => (t.groups.find? (fun r => r.group == g)).elim (List.replicate 64 0) GroupRec.bytes)
    ++ t.joints.flatMap JointRec.bytes ++ t.poses.flatMap PoseRec.bytes

end Sys2Proof.Machine
end

