-- ==== Sys2Proof/Machine/Register.lean ====
section
/-! DEFINITION. Neighbour search and the registration of ego-motion (spec/09_transforms_ego_motion.md R217, R218, spec/10_erg_point_units.md R238; what the spec leaves to the arithmetic: log entry 131). -/

namespace Sys2Proof.Machine

/-! ### Neighbours (R238) -/

/-- d2 of R238. -/
def dist2 (q p : Nat × Nat × Nat) : Nat :=
  let dx := f32Sub q.1 p.1
  let dy := f32Sub q.2.1 p.2.1
  let dz := f32Sub q.2.2 p.2.2
  f32Fma dz dz (f32Fma dy dy (f32Mul dx dx))

/-- Insert a neighbour by ascending d2, later indices after earlier ones of equal d2. -/
def insertNear : List (Nat × Nat) → Nat × Nat → List (Nat × Nat)
  | [], x => [x]
  | y :: ys, x => if f32Lt x.2 y.2 then x :: y :: ys else y :: insertNear ys x

/-- Neighbours (index, d2) of one query (R238). -/
def nearestTo (ref : List ((Nat × Nat × Nat) × Bool)) (r2 k : Nat) (skip : Option Nat) (q : (Nat × Nat × Nat) × Bool) : List (Nat × Nat) :=
  if !q.2 then [] else
  let hits := (ref.zipIdx).filterMap (fun p =>
    let d := dist2 q.1 p.1.1
    if p.1.2 ∧ some p.2 ≠ skip ∧ f32Le d r2 then some (p.2, d) else none)
  (hits.foldl insertNear []).take k

/-! ### Subsampling (R217 step 1) -/

/-- Cell coordinate of a component in a grid of `cell` metres. -/
def cellOf (x cell : Nat) : Int :=
  let c := ratOfV (decodeF fp32 cell)
  if c = 0 then 0 else (ratOfV (decodeF fp32 x) / c).floor

/-- The first point in index order in each cell, up to a count; a point comes with its site-frame position. -/
def subsample {α : Type} (cell n : Nat) (ps : List (α × (Nat × Nat × Nat))) : List (α × (Nat × Nat × Nat)) :=
  let key := fun (p : Nat × Nat × Nat) => (cellOf p.1 cell, cellOf p.2.1 cell, cellOf p.2.2 cell)
  ((ps.foldl (fun (a : List (Int × Int × Int) × List (α × (Nat × Nat × Nat))) p =>
    if a.1.contains (key p.2) then a else (key p.2 :: a.1, p :: a.2)) ([], [])).2.reverse).take n

/-! ### Normals (R218) -/

/-- An FP32 component in fixed point: exact, 0 where it is not finite. -/
def fixOf (x : Nat) : Int := (toFix (decodeF fp32 x)).getD 0

/-- A symmetric 3 by 3 matrix in fixed point. -/
structure Sym3 where
  xx : Int
  xy : Int
  xz : Int
  yy : Int
  yz : Int
  zz : Int

/-- n times the covariance of n points. -/
def scatter3 (ps : List (Int × Int × Int)) : Sym3 :=
  let n : Int := max 1 ps.length
  let sum := ps.foldl (fun a p => (a.1 + p.1, a.2.1 + p.2.1, a.2.2 + p.2.2)) ((0, 0, 0) : Int × Int × Int)
  ps.foldl (fun m p =>
    let x := p.1 - sum.1 / n
    let y := p.2.1 - sum.2.1 / n
    let z := p.2.2 - sum.2.2 / n
    { xx := m.xx + fixMul x x, xy := m.xy + fixMul x y, xz := m.xz + fixMul x z, yy := m.yy + fixMul y y, yz := m.yz + fixMul y z, zz := m.zz + fixMul z z })
    { xx := 0, xy := 0, xz := 0, yy := 0, yz := 0, zz := 0 }

def Sym3.trace (m : Sym3) : Int := m.xx + m.yy + m.zz
def Sym3.minors (m : Sym3) : Int :=
  fixMul m.xx m.yy - fixMul m.xy m.xy + fixMul m.xx m.zz - fixMul m.xz m.xz + fixMul m.yy m.zz - fixMul m.yz m.yz
def Sym3.det (m : Sym3) : Int :=
  fixMul m.xx (fixMul m.yy m.zz - fixMul m.yz m.yz) - fixMul m.xy (fixMul m.xy m.zz - fixMul m.yz m.xz) + fixMul m.xz (fixMul m.xy m.yz - fixMul m.yy m.xz)

/-- Smallest root of the characteristic polynomial, reached from 0 by Newton steps. -/
def smallestRoot (t q d : Int) : Nat → Int → Int
  | 0, r => r
  | n + 1, r =>
    let p := d - fixMul q r + fixMul t (fixMul r r) - fixMul r (fixMul r r)
    let slope := q - 2 * fixMul t r + 3 * fixMul r r
    if p ≤ 0 ∨ slope ≤ 0 then r else smallestRoot t q d n (r + p * fixOne / slope)

def cross3 (a b : Int × Int × Int) : Int × Int × Int :=
  (fixMul a.2.1 b.2.2 - fixMul a.2.2 b.2.1, fixMul a.2.2 b.1 - fixMul a.1 b.2.2, fixMul a.1 b.2.1 - fixMul a.2.1 b.1)
/-- Squared length, with twice the fraction bits. -/
def size2 (a : Int × Int × Int) : Nat := (a.1 * a.1 + a.2.1 * a.2.1 + a.2.2 * a.2.2).toNat

/-- An eigenvector of the smallest eigenvalue: the longest cross product of two rows of m − λI. -/
def eigenDir (m : Sym3) : Int × Int × Int :=
  let l := smallestRoot m.trace m.minors m.det 600 0
  let a := (m.xx - l, m.xy, m.xz)
  let b := (m.xy, m.yy - l, m.yz)
  let c := (m.xz, m.yz, m.zz - l)
  let longer := fun u v => if size2 u < size2 v then v else u
  longer (longer (cross3 a b) (cross3 a c)) (cross3 b c)

/-- The direction is defined: the smallest eigenvalue is a single one (to 100 bits of the trace). -/
def eigenSingle (m : Sym3) (v : Int × Int × Int) : Bool :=
  decide ((fixMul m.trace m.trace).toNat ^ 2 < size2 v * 2 ^ 200)

/-- The unit vector along v in FP32: each component within 1 unit in the last place. -/
def unit32 (v : Int × Int × Int) (cand : Nat → Nat) : Nat × Nat × Nat :=
  let n := isqrt (size2 v)
  let c := fun (x : Int) i => approxF fp32 1 (x * fixOne / (n : Int)) (-256) (cand i)
  (c v.1 0, c v.2.1 1, c v.2.2 2)

def neg3 (n : Nat × Nat × Nat) : Nat × Nat × Nat := (f32Neg n.1, f32Neg n.2.1, f32Neg n.2.2)
def dot3 (a b : Nat × Nat × Nat) : Nat := f32Fma a.2.2 b.2.2 (f32Fma a.2.1 b.2.1 (f32Mul a.1 b.1))
def sub3 (a b : Nat × Nat × Nat) : Nat × Nat × Nat := (f32Sub a.1 b.1, f32Sub a.2.1 b.2.1, f32Sub a.2.2 b.2.2)

/-- The normal of reference point `j`, turned towards the sensor that measured it (R218). -/
def normalAt (ps : List (Nat × Nat × Nat)) (r2 : Nat) (cand : Nat → Nat → Nat) (j : Nat) (p : Nat × Nat × Nat) (sensor : Option (Nat × Nat × Nat)) :
    Option (Nat × Nat × Nat) :=
  let near := (nearestTo (ps.map (·, true)) r2 8 (some j) (p, true)).filterMap (fun x => ps[x.1]?)
  if near.length < 5 then none
  else
    let m := scatter3 (near.map (fun q => (fixOf q.1 - fixOf p.1, fixOf q.2.1 - fixOf p.2.1, fixOf q.2.2 - fixOf p.2.2)))
    let v := eigenDir m
    let n := if eigenSingle m v then unit32 v (fun i => cand j i) else (cand j 0 % 2 ^ 32, cand j 1 % 2 ^ 32, cand j 2 % 2 ^ 32)
    match sensor with
    | some o => some (if isNeg32 (dot3 n (sub3 o p)) then neg3 n else n)
    | none => some n

/-- store_reference: the subsample with its normals (R218). `at_`: where the sensor of a stream stands at tov(n). -/
def referenceOf (cell corr : Nat) (cand : Nat → Nat → Nat) (at_ : Nat → Option (Nat × Nat × Nat)) (ps : List (ScanPoint × (Nat × Nat × Nat))) : List RefPoint :=
  let xs := subsample cell 16384 ps
  let at2 := xs.map (·.2)
  (xs.zipIdx).map (fun x => { p := x.1.2, normal := normalAt at2 (f32Mul corr corr) cand x.2 x.1.2 (at_ x.1.1.stream) })

/-! ### Least squares in FP64 (R217 steps 2 to 6) -/

/-- b − Σ x y, an FMA at a time in index order. -/
def dotSub (b : Nat) (xs ys : List Nat) : Nat := (xs.zip ys).foldl (fun a p => f64Fma (f64Neg p.1) p.2 a) b

/-- One more row of the Cholesky factor of a symmetric matrix, of which `a` is the row and `ls` the rows above. -/
def choleskyRow (ls : List (List Nat)) (a : List Nat) : List Nat :=
  let r := (ls.zipIdx).foldl (fun (r : List Nat) p => r ++ [f64Div (dotSub (a.getD p.2 0) r p.1) (p.1.getLastD 0)]) []
  r ++ [f64Sqrt (dotSub (a.getD ls.length 0) r r)]
def choleskyOf (a : List (List Nat)) : List (List Nat) := a.foldl (fun ls r => ls ++ [choleskyRow ls r]) []

/-- Solve L Lᵀ x = b. -/
def choleskySolve (l : List (List Nat)) (b : List Nat) : List Nat :=
  let z := (l.zip b).foldl (fun (z : List Nat) p => z ++ [f64Div (dotSub p.2 p.1 z) (p.1.getLastD 0)]) []
  (List.range l.length).foldr (fun i xs => f64Div (dotSub (z.getD i 0) ((l.drop (i + 1)).map (·.getD i 0)) xs) ((l.getD i []).getLastD 0) :: xs) []

/-- A correspondence: the point, its reference point and normal. -/
structure Match where
  x : ScanPoint
  m : Nat × Nat × Nat
  n : Nat × Nat × Nat

/-- Step 2: the nearest reference point with a normal within corr_max. -/
def pairsOf (ref : List RefPoint) (corr : Nat) (xs : List ScanPoint) (est : Estimate) : List Match :=
  let pts := ref.map (fun r => (r.p, r.normal.isSome))
  xs.filterMap (fun x =>
    match nearestTo pts (f32Mul corr corr) 1 none (x.site est, true) with
    | (j, _) :: _ => (ref[j]?).bind (fun r => r.normal.map (fun n => { x := x, m := r.p, n := n }))
    | [] => none)

/-- FP64 values of an FP32 vector, and its cross product with another. -/
def wide3 (a : Nat × Nat × Nat) : List Nat := [f64Of32 a.1, f64Of32 a.2.1, f64Of32 a.2.2]
def cross64 (a b : List Nat) : List Nat :=
  let g := fun (x : List Nat) i => x.getD i 0
  let c := fun i j => f64Fma (f64Neg (g a j)) (g b i) (f64Mul (g a i) (g b j))
  [c 1 2, c 2 0, c 0 1]

/-- Residual (step 3) and row of J (step 4) of a correspondence: nᵀA [−[u]×, I, −τ[y]×, τI], with a = Aᵀn. -/
def rowOf (est : Estimate) (p : Match) : Nat × List Nat :=
  let y := p.x.mount.map p.x.raw
  let u := (motion p.x.tau est.2).map y
  let back := fun (q : Pose) => { q with x := f32Neg q.x, y := f32Neg q.y, z := f32Neg q.z }
  let a := wide3 ((back est.1).rotate ((back p.x.link).rotate p.n))
  let tau := f64Of32 p.x.tau
  let site := wide3 (p.x.site est)
  (dot64 0 (wide3 p.n) (List.zipWith f64Sub site (wide3 p.m)),
   cross64 (wide3 u) a ++ a ++ (cross64 (wide3 y) a).map (f64Mul tau) ++ a.map (f64Mul tau))

/-- Step 5: H and g, sums in index order. -/
def normalEq (rows : List (Nat × List Nat)) : List (List Nat) × List Nat :=
  let col := fun i => rows.map (fun r => r.2.getD i 0)
  ((List.range 12).map (fun i => (List.range 12).map (fun j => dot64 0 (col i) (col j))), (List.range 12).map (fun i => dot64 0 (col i) (rows.map (·.1))))

/-- μ := 10^-9 × trace(H) added to the diagonal. -/
def damped (h : List (List Nat)) : List (List Nat) :=
  let tr := (List.range 12).foldl (fun a i => f64Add a ((h.getD i []).getD i 0)) 0
  let mu := f64Mul 0x3E112E0BE826D695 tr
  (h.zipIdx).map (fun r => r.1.modify r.2 (fun x => f64Add x mu))

/-- The sum of squares of FP64 values, exactly. -/
def squares (xs : List Nat) : Rat := xs.foldl (fun a x => a + ratOfV (decodeF fp64 x) * ratOfV (decodeF fp64 x)) 0

/-- The quaternion of a rotation vector, in FP64. -/
def rotVec (p : List Nat) : List Nat :=
  let n := f64Sqrt (dot64 0 p p)
  match toFix (decodeF fp64 n) with
  | some h =>
    if h = 0 then [f64One, 0, 0, 0]
    else (arithOf fp64 false (fixCos (h / 2)) (-256)).1 :: p.map (fun x => f64Mul (f64Div x n) (arithOf fp64 false (fixSin (h / 2)) (-256)).1)
  | none => [f64One, 0, 0, 0]

/-- Hamilton product of two quaternions, each component a chain in the order of R201. -/
def quat64 (a b : List Nat) : List Nat :=
  let g := fun (x : List Nat) i => x.getD i 0
  let n := f64Neg
  let ch := fun (p : List (Nat × Nat)) => p.foldl (fun s t => f64Fma t.1 t.2 s) 0
  [ch [(g a 0, g b 0), (n (g a 1), g b 1), (n (g a 2), g b 2), (n (g a 3), g b 3)],
   ch [(g a 0, g b 1), (g a 1, g b 0), (g a 2, g b 3), (n (g a 3), g b 2)],
   ch [(g a 0, g b 2), (n (g a 1), g b 3), (g a 2, g b 0), (g a 3, g b 1)],
   ch [(g a 0, g b 3), (g a 1, g b 2), (n (g a 2), g b 1), (g a 3, g b 0)]]

/-- rot(q) p in FP64. -/
def rotate64 (q p : List Nat) : List Nat :=
  let u := q.drop 1
  let c := cross64 u p
  let e := cross64 u c
  let w2 := f64Add (q.getD 0 0) (q.getD 0 0)
  (List.range 3).map (fun i => f64Add (f64Add (e.getD i 0) (e.getD i 0)) (f64Fma w2 (c.getD i 0) (p.getD i 0)))

/-- Apply δ in FP64 and round the estimate to FP32 (step 5). -/
def applyDelta (est : Estimate) (d : List Nat) : Estimate :=
  let q := [est.1.w, est.1.x, est.1.y, est.1.z].map f64Of32
  let r := quat64 q (rotVec (d.take 3))
  let n := f64Sqrt (dot64 0 r r)
  let c := fun i => f32Of64 (f64Div (r.getD i 0) n)
  let t := List.zipWith f64Add ([est.1.tx, est.1.ty, est.1.tz].map f64Of32) (rotate64 q ((d.drop 3).take 3))
  ({ w := c 0, x := c 1, y := c 2, z := c 3, tx := f32Of64 (t.getD 0 0), ty := f32Of64 (t.getD 1 0), tz := f32Of64 (t.getD 2 0) },
   List.zipWith (fun a b => f32Of64 (f64Add (f64Of32 a) b)) est.2 (d.drop 6))

/-- Smallest over largest squared diagonal of the Cholesky factor of H's d-block. -/
def pivotRatio (h : List (List Nat)) : Nat :=
  let ds := (choleskyOf ((h.take 6).map (·.take 6))).map (fun r => f64Mul (r.getLastD 0) (r.getLastD 0))
  let lo := ds.foldl (fun a x => if f64Lt x a then x else a) (ds.headD 0)
  let hi := ds.foldl (fun a x => if f64Lt a x then x else a) (ds.headD 0)
  if ds.all f64Finite then f64Div lo hi else 0

/-- A registration under way. -/
structure Fit where
  est : Estimate
  converged : Bool
  iterations : Nat
  pairs : Nat
  rms : Nat
  ratio : Nat

/-- One iteration (steps 2 to 6). -/
def fitOnce (ref : List RefPoint) (corr : Nat) (xs : List ScanPoint) (f : Fit) : Fit :=
  let rows := (pairsOf ref corr xs f.est).map (rowOf f.est)
  let e := normalEq rows
  let d := choleskySolve (choleskyOf (damped e.1)) (e.2.map f64Neg)
  let rs := rows.map (·.1)
  let fine := !rows.isEmpty && d.all f64Finite
  { est := if fine then applyDelta f.est d else f.est, iterations := f.iterations + 1, pairs := rows.length, ratio := pivotRatio e.1,
    rms := f32Of64 (f64Sqrt (f64Div (dot64 0 rs rs) (f64Int rows.length))),
    converged := fine && decide (squares ((d.drop 3).take 3) ≤ (1 / 2000 : Rat) ^ 2) && decide (squares (d.take 3) ≤ (1 / 100000 : Rat) ^ 2) }

/-- Up to iter_max iterations. -/
def fitGo (ref : List RefPoint) (corr : Nat) (xs : List ScanPoint) : Nat → Fit → Fit
  | 0, f => f
  | n + 1, f => let g := fitOnce ref corr xs f; if g.converged then g else fitGo ref corr xs n g

/-- The translations of two poses differ by at most `gate` metres. -/
def moveWithin (a b : Pose) (gate : Nat) : Bool :=
  let r := fun x => ratOfV (decodeF fp32 x)
  let sq := fun x y => (r x - r y) * (r x - r y)
  decide (sq a.tx b.tx + sq a.ty b.ty + sq a.tz b.tz ≤ r gate * r gate)

/-- Their rotations differ by an angle of at most `gate`: (q_a · q_b)² ≥ |q_a|² |q_b|² cos²(gate / 2). -/
def turnWithin (a b : Pose) (gate : Nat) : Bool :=
  let r := fun x => ratOfV (decodeF fp32 x)
  let dot := r a.w * r b.w + r a.x * r b.x + r a.y * r b.y + r a.z * r b.z
  let n := fun (p : Pose) => r p.w * r p.w + r p.x * r p.x + r p.y * r p.y + r p.z * r p.z
  let g := fixOf gate
  if fixPi ≤ g then true
  else
    let c : Rat := (fixCos (g / 2) : Rat) / (fixOne : Rat)
    decide (n a * n b * (c * c) ≤ dot * dot)

/-- A registration's answer (R217). -/
structure Reg where
  ok : Bool
  degenerate : Bool
  iterations : Nat
  inliers : Nat
  est : Estimate
  rms : Nat

/-- register (R217): the fit and its acceptance tests. -/
def registerNow (x : EgoCfg) (ref : List RefPoint) (xs : List ScanPoint) (prior : Estimate) : Reg :=
  let f := fitGo ref x.corrMax xs x.iterMax { est := prior, converged := false, iterations := 0, pairs := 0, rms := 0, ratio := 0 }
  let deg := !f64Le (f64Of32 x.degRatio) f.ratio
  { ok := f.converged && decide (x.minInliers ≤ f.pairs) && f32Le f.rms x.rmsMax && moveWithin f.est.1 prior.1 x.gateT && turnWithin f.est.1 prior.1 x.gateR && !deg,
    degenerate := deg, iterations := f.iterations, inliers := f.pairs, rms := f.rms, est := (f.est.1.canonical, f.est.2) }

end Sys2Proof.Machine
end

