-- ==== Sys2Proof/Machine/Transform.lean ====
section
/-! DEFINITION. The transform unit's commands, pose evaluation and ego-motion (spec/09_transforms_ego_motion.md R203 to R223, spec/11_grids_fusion.md R262). -/

namespace Sys2Proof.Machine

/-! ### Guarded objects (R203, R215) -/

/-- A guarded stream is mounted on a rig at or beyond a link. -/
def guardedBeyond (s : State) (r link : Nat) : Bool :=
  s.cfg.streams.any (fun p => p.2.mount.any (fun m => m.1 == r && decide (link ≤ m.2.1)) && streamGuarded s p.1)

def rigGuarded (s : State) (r : Nat) : Bool := guardedBeyond s r 0 || s.sec.image.any (fun i => (i.rigs.find r).isSome)
def jointGuarded (s : State) (k : Nat) : Bool :=
  (s.cfg.joints.find k).any (fun j => guardedBeyond s j.rig j.position) || s.sec.image.any (fun i => (i.joints.find k).isSome)
def mountGuarded (s : State) (k : Nat) : Bool := streamGuarded s k || s.sec.image.any (fun i => (i.mounts.find k).isSome)
def entryGuarded (s : State) (k : Nat) : Bool :=
  s.sec.image.any (fun i => (i.entries.find k).isSome) || s.cfg.rigs.any (fun p => p.2.root == k && rigGuarded s p.1)
    || s.cfg.joints.any (fun p => p.2.pre == k && jointGuarded s p.1) || s.cfg.streams.any (fun p => p.2.mount.any (fun m => m.2.2 == k) && streamGuarded s p.1)
def egoGuarded (s : State) (g : Nat) : Bool :=
  s.sec.image.any (fun i => (i.egos.find g).isSome) || (s.cfg.egos.find g).any (fun x => x.streams.any (streamGuarded s))

/-! ### Commands (R221 to R223) -/

def entryValid (s : State) (k : Nat) : Bool := (s.cfg.entries.find k).any (·.valid)

/-- |w² + x² + y² + z² − 1| ≤ 10^-5, exactly (R221). -/
def unitQuat (p : Pose) : Bool :=
  let sq := fun w => ratOfV (decodeF fp32 w) * ratOfV (decodeF fp32 w)
  let n := sq p.w + sq p.x + sq p.y + sq p.z - 1
  decide (-(1 / 100000) ≤ n) && decide (n ≤ 1 / 100000)

/-- What R70 checks of XftEntry. -/
def infoXftEntry (_ : State) (d : Desc) : OpInfo :=
  { fields := [(16, 0, 13), (20, 0, 224)], authority := didHost d }

/-- XFT_ENTRY (R201, R203, R221). -/
def execXftEntry (d : Desc) (s : State) : Host.Outcome State Fault Refusal :=
  .next (runDesc s d (infoXftEntry s d) fun s =>
    let k := dfld d 16 0 13
    let f := fun i => dfld d (20 + 4 * i) 0 32
    let p : Pose := { w := f 0, x := f 1, y := f 2, z := f 3, tx := f 4, ty := f 5, tz := f 6 }
    if entryGuarded s k then failWith s stNotAuth
    else if !([p.w, p.x, p.y, p.z, p.tx, p.ty, p.tz].all f32Finite) ∨ !unitQuat p then failWith s stDescInvalid
    else okWith { s with cfg.entries := s.cfg.entries.put k { pose := p.renorm.canonical, valid := true }, xft.poisoned := s.xft.poisoned.filter (· ≠ k) } 0)

/-- What R70 checks of XftRig. -/
def infoXftRig (_ : State) (d : Desc) : OpInfo :=
  { fields := [(16, 0, 4), (17, 0, 5), (18, 0, 1), (20, 0, 13)], authority := didHost d }

/-- XFT_RIG (R204, R221). -/
def execXftRig (d : Desc) (s : State) : Host.Outcome State Fault Refusal :=
  .next (runDesc s d (infoXftRig s d) fun s =>
    let r := dfld d 16 0 4
    let n := dfld d 17 0 5
    let x : Rig := { joints := n, enable := dbit d 18 0, root := dfld d 20 0 13 }
    if rigGuarded s r then failWith s stNotAuth
    else if 16 < n ∨ !entryValid s x.root ∨ (x.enable ∧ (chainOf s.cfg r n).length ≠ n) then failWith s stDescInvalid
    else okWith { s with cfg.rigs := s.cfg.rigs.put r x } 0)

/-- A stream is configured as ENCODER. -/
def isEncoder (s : State) (k : Nat) : Bool := (s.cfg.streams.find k).any (fun c => c.kind == kindEncoder)

/-- References of a joint at its configuration: FIXED from the body, Z_HOME unreferenced (R206). -/
def configRefs (now : Nat) (j : Joint) (x : JointSt) : JointSt :=
  let r := if j.zHome then (false, 0) else (true, j.ref)
  { x with nextPrimary := some r, nextCheck := some r, askedAt := some now }

/-- What R70 checks of XftJoint. -/
def infoXftJoint (_ : State) (d : Desc) : OpInfo :=
  { fields := [(16, 0, 7), (18, 0, 4), (19, 0, 5), (20, 0, 6), (21, 0, 7), (22, 0, 8), (23, 0, 8), (24, 0, 13), (26, 0, 16), (28, 0, 32), (32, 0, 256)], authority := didHost d }

/-- XFT_JOINT (R222). -/
def execXftJoint (d : Desc) (s : State) : Host.Outcome State Fault Refusal :=
  .next (runDesc s d (infoXftJoint s d) fun s =>
    let k := dfld d 16 0 7
    let j : Joint := { rig := dfld d 18 0 4, position := dfld d 19 0 5, prismatic := dbit d 20 0, axis := dfld d 20 1 3, zHome := dbit d 20 4, wrap := dbit d 20 5, primary := dfld d 21 0 7, check := if dbit d 22 7 then some (dfld d 22 0 7) else none, zTol := dfld d 23 0 8, pre := dfld d 24 0 13, zOffset := signed 16 (dfld d 26 0 16), zPeriod := dfld d 28 0 32, scale := dfld d 32 0 64, ref := signed 64 (dfld d 40 0 64), zero := dfld d 48 0 64, min := dfld d 56 0 32, max := dfld d 60 0 32 }
    let bad : Bool := j.position == 0 || decide (16 < j.position) || decide (5 < j.axis) || (j.prismatic && j.wrap) || j.zTol == 0 || j.scale % 2 ^ 63 == 0
      || !f32Lt j.min j.max || !entryValid s j.pre || !isEncoder s j.primary || !(j.check.all (isEncoder s))
      || s.cfg.joints.any (fun p => p.1 != k && p.2.rig == j.rig && p.2.position == j.position)
    if jointGuarded s k ∨ rigGuarded s j.rig then failWith s stNotAuth
    else if bad then failWith s stDescInvalid
    else okWith (setJoint { s with cfg.joints := s.cfg.joints.put k j } k (configRefs s.up j (jointSt s k))) 0)

/-- What R70 checks of XftMount. -/
def infoXftMount (_ : State) (d : Desc) : OpInfo :=
  { fields := [(16, 0, 7), (17, 0, 4), (17, 7, 1), (18, 0, 5), (19, 0, 1), (20, 0, 13)], authority := didHost d }

/-- XFT_MOUNT (R221, R29). -/
def execXftMount (d : Desc) (s : State) : Host.Outcome State Fault Refusal :=
  .next (runDesc s d (infoXftMount s d) fun s =>
    let k := dfld d 16 0 7
    let r := dfld d 17 0 4
    let link := dfld d 18 0 5
    match s.cfg.streams.find k with
    | none => failWith s stDescInvalid
    | some c =>
      if mountGuarded s k then failWith s stNotAuth
      else if c.kind ≠ kindCamera ∧ c.kind ≠ kindScan ∧ c.kind ≠ kindImu then failWith s stDescInvalid
      else if !dbit d 17 7 then
        if s.cfg.egos.any (fun p => p.2.streams.contains k) then failWith s stDescInvalid
        else okWith { s with cfg.streams := s.cfg.streams.put k { c with mount := none, atTov := false } } 0
      else if !((s.cfg.rigs.find r).any (fun x => decide (link ≤ x.joints))) ∨ !entryValid s (dfld d 20 0 13) then
        failWith s stDescInvalid
      else okWith { s with cfg.streams := s.cfg.streams.put k { c with mount := some (r, link, dfld d 20 0 13), atTov := dbit d 19 0 } } 0)

/-- A zero field selects its default. -/
def orElse (x dflt : Nat) : Nat := if x = 0 then dflt else x

/-- The configuration in an XFT_EGO body (R223). -/
def egoBody (d : Desc) : EgoCfg :=
  let coast := dfld d 29 0 8
  { rig := dfld d 17 0 4, link := dfld d 18 0 5, erg := dfld d 19 0 1, required := dbit d 19 6, enable := dbit d 19 7,
    streams := (List.range 4).filterMap (fun i => if dbit d (20 + i) 7 then some (dfld d (20 + i) 0 7) else none),
    regPoints := orElse (dfld d 24 0 16) 4096, minInliers := orElse (dfld d 26 0 16) 512, iterMax := orElse (dfld d 28 0 8) 4,
    coastMax := if coast = 0 then 2 else if coast = 0xFF then 0 else coast, refAgeMax := orElse (dfld d 30 0 8) 4,
    regCell := orElse (dfld d 32 0 32) 0x3F000000, corrMax := orElse (dfld d 36 0 32) 0x3F000000, rmsMax := orElse (dfld d 40 0 32) 0x3D4CCCCD,
    gateT := orElse (dfld d 44 0 32) 0x3E4CCCCD, gateR := orElse (dfld d 48 0 32) 0x3BA3D70A, degRatio := orElse (dfld d 52 0 32) 0x38D1B717 }

/-- The streams of a group: SCAN, on one cadence, mounted on the named link (R215, R223). -/
def egoStreamsOk (s : State) (x : EgoCfg) : Bool :=
  let cs := x.streams.filterMap s.cfg.streams.find
  cs.length == x.streams.length && cs.all (fun c => c.kind == kindScan && c.mount.any (fun m => m.1 == x.rig && m.2.1 == x.link))
    && match cs with
      | [] => !x.enable
      | c :: rest => rest.all (fun y => y.cadence == c.cadence)

/-- The group is configured, or work of a started epoch still has it (R28). -/
def egoInUse (s : State) (g : Nat) : Bool := (s.cfg.egos.find g).isSome || s.epochs.any (fun e => (e.cfg.egos.find g).isSome)

/-- What R70 checks of XftEgo. -/
def infoXftEgo (_ : State) (d : Desc) : OpInfo :=
  { fields := [(16, 0, 4), (17, 0, 4), (18, 0, 5), (19, 0, 1), (19, 6, 2), (20, 0, 32), (24, 0, 16), (26, 0, 16), (28, 0, 8), (29, 0, 8), (30, 0, 8), (32, 0, 192)], authority := didHost d }

/-- XFT_EGO (R215, R223). -/
def execXftEgo (d : Desc) (s : State) : Host.Outcome State Fault Refusal :=
  .next (runDesc s d (infoXftEgo s d) fun s =>
    let g := dfld d 16 0 4
    let x := egoBody d
    if egoGuarded s g ∨ x.streams.any (streamGuarded s) then failWith s stNotAuth
    else if x.link = 0 ∨ 16 < x.link ∨ !((s.cfg.rigs.find x.rig).any (fun r => decide (x.link ≤ r.joints))) ∨ 16384 < x.regPoints ∨ 8 < x.iterMax ∨ 8 < x.coastMax ∨ 15 < x.refAgeMax ∨ !egoStreamsOk s x then
      failWith s stDescInvalid
    else okWith { s with cfg.egos := s.cfg.egos.put g x, xft.egos := if egoInUse s g then s.xft.egos else s.xft.egos.drop g } 0)

/-- ref := position − (value − zero) / scale, rounded to nearest even (R206). -/
def newRef (j : Joint) (pos value : Nat) : Option Int :=
  match decodeF fp64 (f64Sub pos (f64Div (f64Sub value j.zero) j.scale)) with
  | .fin n m e => some (toIntRne n m e).1
  | _ => none

/-- What R70 checks of XftSetRef. -/
def infoXftSetRef (_ : State) (d : Desc) : OpInfo :=
  { fields := [(16, 0, 7), (18, 0, 2), (24, 0, 64)], authority := didHost d }

/-- XFT_SET_REF (R206, R221). -/
def execXftSetRef (d : Desc) (s : State) : Host.Outcome State Fault Refusal :=
  .next (runDesc s d (infoXftSetRef s d) fun s =>
    let k := dfld d 16 0 7
    let which := dfld d 18 0 2
    let v := dfld d 24 0 64
    let x := jointSt s k
    match s.cfg.joints.find k with
    | none => failWith s stDescInvalid
    | some j =>
      let refOf := fun (r : Refd) => r.lastPos.bind (fun p => newRef j p v)
      let p := if which.testBit 0 then refOf x.primary else some x.primary.ref
      let q := if which.testBit 1 then refOf x.check else some x.check.ref
      if jointGuarded s k then failWith s stNotAuth
      else if j.zHome ∨ which = 0 ∨ (which.testBit 1 ∧ j.check = none) then failWith s stDescInvalid
      else match p, q with
        | some p, some q =>
          let y : JointSt := { x with nextPrimary := if which.testBit 0 then some (true, p) else x.nextPrimary, nextCheck := if which.testBit 1 then some (true, q) else x.nextCheck, askedAt := some s.up }
          okWith (setJoint s k y) (unsigned 64 p)
        | _, _ => failWith s stDescInvalid)

/-- What R70 checks of XftDelete. -/
def infoXftDelete (_ : State) (d : Desc) : OpInfo :=
  { fields := [(16, 0, 2), (18, 0, 13)], authority := didHost d }

/-- XFT_DELETE (R29, R70, R221): an object in its never-configured state stays as it is. -/
def execXftDelete (d : Desc) (s : State) : Host.Outcome State Fault Refusal :=
  .next (runDesc s d (infoXftDelete s d) fun s =>
    let k := dfld d 18 0 13
    match dfld d 16 0 2 with
    | 0 =>
      if entryGuarded s k then failWith s stNotAuth
      else if s.cfg.entries.find k = none then okWith s 0
      else if s.cfg.rigs.any (fun p => p.2.root == k) ∨ s.cfg.joints.any (fun p => p.2.pre == k) ∨ s.cfg.streams.any (fun p => p.2.mount.any (fun m => m.2.2 == k)) then
        failWith s stDescInvalid
      else okWith { s with cfg.entries := s.cfg.entries.drop k, xft.poisoned := s.xft.poisoned.filter (· ≠ k) } 0
    | 1 =>
      match s.cfg.joints.find k with
      | none => okWith s 0
      | some j =>
        if jointGuarded s k then failWith s stNotAuth
        else if (s.cfg.rigs.find j.rig).any (·.enable) then failWith s stDescInvalid
        else okWith { s with cfg.joints := s.cfg.joints.drop k, xft.joints := s.xft.joints.drop k } 0
    | 2 =>
      if rigGuarded s k then failWith s stNotAuth
      else if s.cfg.rigs.find k = none then okWith s 0
      else if s.cfg.joints.any (fun p => p.2.rig == k) ∨ s.cfg.streams.any (fun p => p.2.mount.any (fun m => m.1 == k)) ∨ s.cfg.egos.any (fun p => p.2.rig == k) then
        failWith s stDescInvalid
      else okWith { s with cfg.rigs := s.cfg.rigs.drop k } 0
    | _ =>
      if egoGuarded s k then failWith s stNotAuth
      else
        let s := { s with cfg.egos := s.cfg.egos.drop k }
        okWith { s with xft.egos := if egoInUse s k then s.xft.egos else s.xft.egos.drop k } 0)

/-! ### What a lost input does to flows that have not ended (R190, R209, R213, R219, R262) -/

/-- A stream input is lost after ALIGN: required stops the flow, optional degrades it; `must`: it counts as required for every flow
that reads it (R219). -/
def loseStream (s : State) (e : Epoch) (must : Bool) (k : Nat) (r : FlowRun) : FlowRun :=
  if r.ended ∨ !r.runs ∨ !r.gated then r else
  let named := (Tbl.at [] e.cfg.inputs r.flow).find? (fun x => !x.isFlow && x.index == k)
  if named.any (·.required) ∨ (must ∧ (flowStreams e.cfg r.flow).contains k) then
    failMissing s { r with runs := false, missing := true, status := stInputSuspect, old := none, partial_ := false }
  else if named.isSome then { r with partial_ := true, degraded := true } else r

/-- Streams lost in an epoch: their flows are marked, and those that stop end. -/
def loseStreams (s : State) (c n : Nat) (must : Bool) (ks : List Nat) : State :=
  if ks = [] then s else
  endFlows (updEpoch s c n (fun e => { e with flows := e.flows.map (fun r => ks.foldl (fun r k => loseStream s e must k r) r) })) c n

/-- A flow that reads a stream is degraded: PARTIAL_INPUT, and OK_DEGRADED for an advisory flow (R219). -/
def degradeReaders (s : State) (c n : Nat) (ks : List Nat) : State :=
  updEpoch s c n (fun e => { e with flows := e.flows.map (fun r =>
    if !r.ended ∧ (flowStreams e.cfg r.flow).any ks.contains then { r with partial_ := true, degraded := true } else r) })

/-! ### The consistency of joints (R262) -/

/-- The two values of a joint disagree. -/
def jointDisagrees (j : Joint) (r : JointRec) : Bool :=
  let x := decodeF fp64 (wrapped j (f64Sub r.v r.vCheck))
  let lim := decodeF fp64 (f64Mul (f64Int (2 * j.zTol)) (j.scale % 2 ^ 63))
  r.state == 0 && r.check == 0 && (ltV lim x || ltV lim x.negate)

/-- The pose table of an epoch. -/
def poseTableOf (s : State) (c n : Nat) : Option PoseTable := (s.xft.tables.find (2 * c + n % 2)).filter (fun t => t.epoch == n)

/-- Streams mounted on a rig at or beyond a link. -/
def streamsBeyond (cfg : Cfg) (r link : Nat) : List Nat :=
  (cfg.streams.filter (fun p => p.2.mount.any (fun m => m.1 == r && decide (link ≤ m.2.1)))).map (·.1)

/-- Compare the joints of an epoch (R262, R263). -/
def compareJoints (s : State) (e : Epoch) : State :=
  match poseTableOf s e.cadence e.epoch with
  | none => s
  | some t =>
    t.joints.foldl (fun s r =>
      match e.cfg.joints.find r.joint with
      | none => s
      | some j =>
        if !jointDisagrees j r ∨ e.badJoints.contains r.joint then s
        else
          let s := { s with geo.monJoint := satAdd 16 s.geo.monJoint 1 }
          let s := (j.primary :: j.check.toList).foldl (fun s k => if (streamOf s k).contested.isSome then s else contestStream s k 0x010E) s
          let ks := streamsBeyond e.cfg j.rig j.position
          let s := updEpoch s e.cadence e.epoch (fun e => { e with badJoints := e.badJoints ++ [r.joint], badStreams := e.badStreams ++ ks })
          loseStreams s e.cadence e.epoch false ks) s

/-! ### Pose evaluation (R206, R207, R209 to R212) -/

/-- Expected Z positions (R207): the distance of a position from the nearest one exceeds z_tol. -/
def zSlips (j : Joint) (ref : Int) (pos : Nat) : Bool :=
  let x : Rat := ratOfV (decodeF fp64 pos) - ((ref + j.zOffset : Int) : Rat)
  let far : Rat :=
    if j.zPeriod = 0 then |x|
    else
      let m := x - (j.zPeriod : Rat) * ((x / (j.zPeriod : Rat)).floor : Rat)
      min m ((j.zPeriod : Rat) - m)
  decide ((j.zTol : Rat) < far)

/-- One Z report: the pending reference after it, and whether it is a slip (R206, R207). -/
def zReport (j : Joint) (now : Bool × Int) (pos : Nat) : (Bool × Int) × Bool :=
  if now.1 then (if zSlips j now.2 pos then ((false, now.2), true) else (now, false))
  else
    match decodeF fp64 pos with
    | .fin n m e => ((true, (toIntRne n m e).1 - j.zOffset), false)
    | _ => (now, false)

/-- The Z reports of a stream in an epoch table, in query order. -/
def zReports (t : EpochTable) (k : Nat) : List Nat :=
  t.queries.filterMap (fun q => (q.valueOf k).bind (fun v => if v.z ∧ (v.disp = .used ∨ v.disp = .extrapolated) then some v.pos else none))

/-- Fold the Z reports over a reference: what takes effect next (none: no change) and the slips. -/
def foldZ (j : Joint) (r : Refd) (next : Option (Bool × Int)) (zs : List Nat) : Option (Bool × Int) × Nat :=
  let start := next.getD (r.referenced, r.ref)
  let x := zs.foldl (fun (a : (Bool × Int) × Nat) p => let y := zReport j a.1 p; (y.1, a.2 + if y.2 then 1 else 0)) (start, 0)
  (if x.1 = start then next else some x.1, x.2)

/-- A record about a joint. -/
def jointReport (s : State) (k event : Nat) : Report :=
  { reportOf s (sevOf (jointGuarded s k)) 12 k event with guarded := jointGuarded s k }

def raiseTimes (s : State) (r : Report) : Nat → State
  | 0 => s
  | n + 1 => raise (raiseTimes s r n) r

/-- Position at the TOV query. -/
def tovPos (t : EpochTable) (k : Nat) : Option Nat :=
  ((t.queries.find? (fun q => q.kind == 0)).bind (fun q => q.valueOf k)).bind (fun v => if v.disp = .used ∨ v.disp = .extrapolated then some v.pos else none)

/-- Queries at which a joint is evaluated: TOV, and those of streams on its rig. -/
def jointQueries (e : Epoch) (t : EpochTable) (j : Joint) : List Query :=
  t.queries.filter (fun q => q.kind == 0 || rigOf e.cfg q.source == some j.rig)

/-- What the evaluation of an epoch does to one joint: references, slips, ranges (R206, R207, R209). -/
def stepJoint (s : State) (e : Epoch) (t : EpochTable) (k : Nat) (j : Joint) : State :=
  let x := jointSt s k
  let p := if j.zHome then foldZ j x.primary x.nextPrimary (zReports t j.primary) else (x.nextPrimary, 0)
  let q := match j.check with
    | some c => if j.zHome then foldZ j x.check x.nextCheck (zReports t c) else (x.nextCheck, 0)
    | none => (x.nextCheck, 0)
  let out := ((jointQueries e t j).filter (fun y => (evalJoint e k j y).1 == 3)).length
  let y : JointSt := { x with
    nextPrimary := p.1, nextCheck := q.1, slips := satAdd 8 x.slips (p.2 + q.2), range := satAdd 8 x.range out
    primary := { x.primary with lastPos := (tovPos t j.primary).orElse (fun _ => x.primary.lastPos) }
    check := { x.check with lastPos := (j.check.bind (tovPos t)).orElse (fun _ => x.check.lastPos) } }
  let s := setJoint s k y
  raiseTimes (raiseTimes s (jointReport s k 0x0107) (p.2 + q.2)) (jointReport s k 0x0108) out

/-- The joint record of R211. -/
def jointRec (e : Epoch) (t : EpochTable) (k : Nat) (j : Joint) : JointRec :=
  match t.queries.find? (fun q => q.kind == 0) with
  | none => { joint := k, state := 1, check := 0xFF, v := 0, vCheck := 0, rate := 0 }
  | some q =>
    let p := evalRef j (e.jointSt k).primary (q.valueOf j.primary)
    let c := match j.check with
      | some x => evalRef j (e.jointSt k).check (q.valueOf x)
      | none => (0xFF, 0)
    { joint := k, state := p.1, check := c.1, v := p.2, vCheck := c.2,
      rate := match q.valueOf j.primary with | some v => f64Mul j.scale v.rate | none => 0 }

/-- Pose records of a table: TOV first in the limit, then ascending query (R210, R212). -/
def poseRecs (s : State) (e : Epoch) (t : EpochTable) : List PoseRec :=
  (t.queries.zipIdx).flatMap (fun p =>
    if p.1.kind = 0 then
      (e.cfg.streams.filter (fun x => x.2.mount.any (fun m => (usedRigs e).contains m.1))).filterMap (fun x => x.2.mount.map (poseRec s e p.2 p.1 x.1))
    else match (e.cfg.streams.find p.1.source).bind (·.mount) with
      | some m => [poseRec s e p.2 p.1 p.1.source m]
      | none => [])

/-- Records that the limit of R212 keeps, in query order; and whether some are cut. -/
def fitPoses (t : EpochTable) (xs : List PoseRec) : List PoseRec × Bool :=
  let isTov := fun (r : PoseRec) => (t.queries[r.query]?).any (fun q => q.kind == 0)
  if xs.length ≤ 8192 then (xs, false)
  else
    let n := (xs.filter isTov).length
    let others := (xs.filter (fun r => !isTov r)).take (8192 - n)
    (xs.filter (fun r => isTov r || others.contains r), true)

/-- A mounted input stream whose pose is unavailable: at its TOV record, a CAMERA at any of its queries, a SCAN when no member is left
(R209, R213). -/
def poseLost (e : Epoch) (t : EpochTable) (rs : List PoseRec) (k : Nat) : Bool :=
  match e.cfg.streams.find k with
  | none => false
  | some c =>
    let all := rs.filter (fun r => r.stream == k)
    let atTov := fun (r : PoseRec) => (t.queries[r.query]?).any (fun q => q.kind == 0)
    let mine := all.filter (fun r => !atTov r)
    if c.mount.isNone then false
    else if all.any (fun r => atTov r && r.status != 0) then true
    else if mine = [] then false
    else if c.kind = kindScan then
      let members := (mine.filterMap (fun r => (t.queries[r.query]?).map (·.member))).eraseDups
      members.all (fun m => mine.any (fun r => r.status != 0 && (t.queries[r.query]?).any (fun q => q.member == m)))
    else mine.any (fun r => r.status != 0)

/-- Work order of R136 between epochs: guarded first, then earlier target, lower cadence, earlier epoch. -/
def epochBefore (a b : Epoch) : Bool :=
  let ga := !a.guardedFlows.isEmpty
  let gb := !b.guardedFlows.isEmpty
  if ga != gb then ga
  else decide (a.target < b.target ∨ (a.target = b.target ∧ (a.cadence < b.cadence ∨ (a.cadence = b.cadence ∧ a.epoch < b.epoch))))

/-- The first epoch of a list in that order. -/
def firstEpoch (es : List Epoch) : Option Epoch :=
  es.foldl (fun a e => match a with
    | none => some e
    | some x => if epochBefore e x then some e else some x) none

/-- Enabled ego groups of an epoch's cadence. -/
def egosOf (e : Epoch) : List Nat :=
  (e.cfg.egos.filter (fun p => p.2.enable && p.2.streams.any (fun k => (e.cfg.streams.find k).any (fun c => c.cadence == e.cadence)))).map (·.1)

/-- Volumes built on an epoch's cadence. -/
def volumesOf (e : Epoch) : List Nat := (e.cfg.volumes.filter (fun p => p.2.cadence == e.cadence)).map (·.1)

/-- GEOMETRY ends with the last build and pose correction (R472). -/
def noteGeo (s : State) (c n : Nat) : State :=
  updEpoch s c n (fun e => if e.poseEnd.isSome ∧ e.geoEnd.isNone ∧ (volumesOf e).all e.volsDone.contains then { e with geoEnd := some s.now } else e)

/-- Pose correction ends once every group has run (R220); a cadence without grids compares its joints then (R262). -/
def notePose (s : State) (c n : Nat) : State :=
  match epochOf s c n, poseTableOf s c n with
  | some e, some t =>
    if e.poseEnd.isSome ∨ !(egosOf e).all e.egosDone.contains then s
    else
      let s := { s with
        xft.tables := s.xft.tables.put (2 * c + n % 2) { t with corrected := some s.now }
        xft.poseUs := min ((s.now - e.alignEnd.getD s.now) / 1000) 0xFFFF }
      let s := updEpoch s c n (fun e => { e with poseEnd := some s.now })
      noteGeo (if (gridsOf e.cfg c).isEmpty then compareJoints s e else s) c n
  | _, _ => s

/-- Uncorrectable errors of the transform table (R203). -/
def poisonEntry (s : State) (k : Nat) : State :=
  if s.xft.poisoned.contains k then s else
  raise { s with xft.poisoned := s.xft.poisoned ++ [k] }
    { reportOf s (sevOf (entryGuarded s k)) 4 0x0A00 stInternal with status := stInternal, guarded := entryGuarded s k }

/-- POSE_EVALUATION: the next epoch in R136's order whose ALIGN has ended (R203 to R212); `bad`: entries whose read found an
uncorrectable error. -/
def execPoseEvaluation (bad : List Nat) (s : State) : Host.Outcome State Fault Refusal :=
  match firstEpoch (s.epochs.filter (fun e => e.alignEnd.isSome && !e.aborted && (poseTableOf s e.cadence e.epoch).isNone)) with
  | none => .next s
  | some e =>
    match tableOf s e.cadence e.epoch with
    | none => .next s
    | some t =>
      let s := bad.foldl poisonEntry s
      let xs := fitPoses t (poseRecs s e t)
      let js := (e.cfg.joints.filter (fun p => (usedRigs e).contains p.2.rig)).map (fun p => jointRec e t p.1 p.2)
      let table : PoseTable := { epoch := e.epoch, tov := t.tov, kinematic := s.now, corrected := none, groups := [], joints := js, poses := xs.1 }
      let s := { s with xft.tables := s.xft.tables.put (2 * e.cadence + e.epoch % 2) table, xft.capacity := s.xft.capacity || xs.2 }
      let s := if xs.2 then raiseCapacity s e.cadence e.epoch else s
      let s := e.cfg.joints.foldl (fun s p => stepJoint s e t p.1 p.2) s
      let s := loseStreams s e.cadence e.epoch false ((namedStreams e).filter (poseLost e t xs.1))
      .next (notePose s e.cadence e.epoch)

/-! ### Ego-motion (R213 to R220) -/

/-- A pose record of a stream at a query kind of one member. -/
def recAtQuery (t : EpochTable) (p : PoseTable) (k kind member : Nat) : Option PoseRec :=
  p.poses.find? (fun r => r.stream == k && r.status == 0 && (t.queries[r.query]?).any (fun q => q.kind == kind && q.member == member))

/-- Link poses of a SCAN member, where both are available; a member without points needs its start only. -/
def memberPose (s : State) (e : Epoch) (t : EpochTable) (p : PoseTable) (k member : Nat) : Option MemberPose :=
  match recAtQuery t p k 2 member, recAtQuery t p k 3 member, (e.cfg.streams.find k).bind (·.mount) with
  | some a, some b, some m => (entryPose s e.cfg m.2.2).map (fun mount => { start := a.link, stop := b.link, mount := mount })
  | _, _, _ => none

/-- Selected members of a stream in an epoch, in index order. -/
def heldMembers (s : State) (t : EpochTable) (k : Nat) : List Sample :=
  let ids := (t.queries.filter (fun q => q.source == k && q.kind == 2)).map (·.member)
  ((streamOf s k).samples.filter (fun x => ids.contains x.index)).foldl insertIndex []

/-- Points of a stream's members in index order, as the deskew takes them (R213). -/
def streamPoints (s : State) (e : Epoch) (t : EpochTable) (p : PoseTable) (k : Nat) : List ScanPoint :=
  (heldMembers s t k).flatMap (fun x => match memberPose s e t p k x.index with
    | none => []
    | some m => (List.range (scanPoints x.payload)).map (scanPoint k x t.tov m))

/-- Where the sensor of a stream stands at tov(n) under an estimate (R214, R218). -/
def sensorAtTov (s : State) (e : Epoch) (t : EpochTable) (p : PoseTable) (est : Estimate) (k : Nat) : Option (Nat × Nat × Nat) :=
  match p.poses.find? (fun r => r.stream == k && r.status == 0 && (t.queries[r.query]?).any (fun q => q.kind == 0)), (e.cfg.streams.find k).bind (·.mount) with
  | some r, some m => (entryPose s e.cfg m.2.2).map (fun mount => let c := (r.link.compose est.1).compose mount; (c.tx, c.ty, c.tz))
  | _, _ => none

/-- State codes of XFT_EGO_STATUS. -/
def EgoState.code : EgoState → Nat
  | .init => 0 | .seeded => 1 | .tracking => 2 | .coast => 3

/-- The group's next state: what R216 does with the epoch's points. `free`: candidates for the normals' components; `at_`: where the
sensors stand under an estimate. -/
def egoNext (e : Epoch) (free : Nat → Nat) (x : EgoCfg) (g : Ego) (tov : Nat) (pts : List ScanPoint)
    (at_ : Estimate → Nat → Option (Nat × Nat × Nat)) : Ego × Nat :=
  let under := fun (est : Estimate) => pts.map (fun p => (p, p.site est))
  let store := fun (y : Ego) (est : Estimate) =>
    { y with reference := referenceOf x.regCell x.corrMax (fun j i => free (3 * j + i)) (at_ est) (under est), refEpoch := e.epoch, refGen := e.gen, refAge := 0 }
  let identity := Estimate.none
  let prior : Estimate := if g.st = .tracking ∨ g.st = .coast then ((g.d.compose (motion (f32Sec (tov * 65536) (g.tovLast * 65536)) g.xi)), g.xi) else identity
  let put := fun (y : Ego) (est : Estimate) => { y with d := est.1.canonical, xi := est.2, tovLast := tov }
  if g.st = .init then (put (store { g with st := .seeded, coast := 0, iterations := 0, inliers := 0, rms := 0 } identity) identity, 0)
  else
    let r := registerNow x g.reference ((subsample x.regCell x.regPoints (under prior)).map (·.1)) prior
    let g : Ego := { g with iterations := r.iterations, inliers := r.inliers, rms := r.rms }
    let bits := placeB r.ok 0 + placeB r.degenerate 3
    if r.ok then (put (store { g with st := .tracking, coast := 0 } r.est) r.est, bits)
    else
      let g : Ego := { g with failures := satAdd 16 g.failures 1 }
      let count := if g.st = .coast then g.coast + 1 else 1
      if g.st ≠ .seeded ∧ count ≤ x.coastMax then (put { g with st := .coast, coast := count } prior, bits + 2)
      else (put (store { g with st := .seeded, coast := 0, reseeds := satAdd 16 g.reseeds 1 } identity) identity, bits + 4)

/-- The group before an epoch: the reference is as old as the epochs since it was stored; the group re-enters INIT on a configuration
change, another step generation, or too old a reference (R218). -/
def egoFresh (e : Epoch) (x : EgoCfg) (g : Ego) : Ego :=
  let changed := g.restarts.any (fun m => decide (m ≤ e.epoch))
  let g := { g with restarts := g.restarts.filter (fun m => decide (e.epoch < m)), refAge := if g.st = .init then 0 else e.epoch - g.refEpoch }
  if g.st ≠ .init ∧ (changed ∨ g.refGen ≠ e.gen ∨ x.refAgeMax < g.refAge) then { g with st := .init, coast := 0, refAge := 0, reference := [] } else g

/-- Corrected poses of the streams on a group's link (R214). -/
def correctPose (s : State) (e : Epoch) (t : EpochTable) (x : EgoCfg) (est : Estimate) (r : PoseRec) : PoseRec :=
  match (e.cfg.streams.find r.stream).bind (·.mount), t.queries[r.query]? with
  | some m, some q =>
    if r.status ≠ 0 ∨ m.1 ≠ x.rig ∨ m.2.1 ≠ x.link then r
    else match entryPose s e.cfg m.2.2 with
      | some mount =>
        let tau := f32Sec (q.time * 65536 + q.frac) (t.tov * 65536)
        { r with flags := r.flags ||| 1, sensor := ((((r.link.compose est.1).compose (motion tau est.2)).compose mount).canonical) }
      | none => r
  | _, _ => r

/-- The epoch that a group runs next: kinematic poses complete, the group not yet done. -/
def egoEpoch (s : State) (g : Nat) : Option Epoch :=
  firstEpoch (s.epochs.filter (fun e => (egosOf e).contains g && !e.egosDone.contains g && !e.aborted && (poseTableOf s e.cadence e.epoch).isSome && e.poseEnd.isNone))

end Sys2Proof.Machine
end

