-- ==== Sys2Proof/Machine/FlowCmds.lean ====
section
/-! DEFINITION. Commands of output flows, and the time reset (spec/03_host_rings.md R69, spec/01_working_model.md R29, spec/05_time_base.md R120). -/

namespace Sys2Proof.Machine

/-- A grid is carried by another flow (R69). -/
def carried (s : State) (g f : Nat) : Bool := s.cfg.flows.any (fun p => p.1 != f && p.2.grid == some g)

/-- What R70 checks of FlowConfig. -/
def infoFlowConfig (s : State) (d : Desc) : OpInfo :=
  let f := dfld d 16 0 12
  let old := s.cfg.flows.find f
  { fields := [(16, 0, 12), (18, 0, 5), (19, 0, 1), (20, 0, 3), (20, 7, 1)], cls := old.map (·.guarded), configures := true, imageOnly := true, authority := didHost d }

/-- FLOW_CONFIG (R69). -/
def execFlowConfig (d : Desc) (s : State) : Host.Outcome State Fault Refusal :=
  let f := dfld d 16 0 12
  let old := s.cfg.flows.find f
  .next (runDesc s d (infoFlowConfig s d) fun s =>
    let c := dfld d 18 0 5
    let grid := if dbit d 20 7 then some (dfld d 20 0 3) else none
    let badGrid : Bool := match grid with
      | some g => !((s.cfg.grids.find g).any (fun x => x.cadence == c)) || carried s g f
      | none => false
    if badGrid ∨ old.any (fun x => x.cadence != c) then failWith s stDescInvalid
    else okWith { s with cfg.flows := s.cfg.flows.put f { guarded := false, cadence := c, enable := dbit d 19 0, grid := grid, cring := old.bind (·.cring) } } 0)

/-- What R70 checks of FlowRing. -/
def infoFlowRing (s : State) (d : Desc) : OpInfo :=
  let f := dfld d 16 0 12
  let old := s.cfg.flows.find f
  { fields := [(16, 0, 12), (18, 0, 1), (20, 0, 10)], cls := old.map (·.guarded), authority := didHost d }

/-- FLOW_RING (R69): the device-wide ring that the issuing function's number names now. -/
def execFlowRing (d : Desc) (s : State) : Host.Outcome State Fault Refusal :=
  let f := dfld d 16 0 12
  let old := s.cfg.flows.find f
  .next (runDesc s d (infoFlowRing s d) fun s =>
    let ring := ringNo s true (fnOfDid d.did) (dfld d 20 0 10)
    match old with
    | none => failWith s stDescInvalid
    | some x =>
      if dbit d 18 0 ∧ ring = none then failWith s stDescInvalid
      else okWith { s with cfg.flows := s.cfg.flows.put f { x with cring := if dbit d 18 0 then ring else none } } 0)

/-- An object names a flow: a bound task, another flow's input list, a sequence or a publication (R29). -/
def flowNamed (s : State) (f : Nat) : Bool :=
  s.cfg.tasks.any (fun p => p.2.body.flow == f) || s.cfg.inputs.any (fun p => p.1 != f && p.2.any (fun r => r.isFlow && r.index == f))
    || s.seq.seqs.any (fun p => p.2.active && p.2.flow == f) || s.cfg.pubs.any (fun p => p.2.flow == f)

/-- What R70 checks of FlowDelete. -/
def infoFlowDelete (s : State) (d : Desc) : OpInfo :=
  let f := dfld d 16 0 12
  let old := s.cfg.flows.find f
  { fields := [(16, 0, 12)], cls := old.map (·.guarded), configures := true, imageOnly := true, authority := didHost d }

/-- FLOW_DELETE (R29, R69). -/
def execFlowDelete (d : Desc) (s : State) : Host.Outcome State Fault Refusal :=
  let f := dfld d 16 0 12
  let old := s.cfg.flows.find f
  .next (runDesc s d (infoFlowDelete s d) fun s =>
    if old = none then okWith s 0
    else if flowNamed s f then failWith s stDescInvalid
    else okWith { s with
      cfg.flows := s.cfg.flows.drop f
      cfg.inputs := s.cfg.inputs.drop f
      cfg.areas := s.cfg.areas.filter (fun p => p.1 / 8 ≠ f)
      modesNext := s.modesNext.drop f
      modes := s.modes.drop f } 0)

/-! ### Time reset (R120) -/

/-- A guarded flow's record under the No value row: ABORTED with FALLBACK; a flow with recipe STOP drives its channels (R448, R452). -/
def noValue (s : State) (e : Epoch) (f : Nat) : State :=
  let s := setFlowSafe s f { flowSafe s f with failing := true, verdict := false, fallbacks := satAdd 16 (flowSafe s f).fallbacks 1 }
  let s := writeResult s e f (emptyResult s e f stAborted flagFallback) false
  driveSafe (raise s { reportOf s sevInfo 6 f 0x0120 with guarded := true, flows := [f] })

/-- Step 2 of R120 for one epoch in processing: abandoned as R135 does, but its records carry no LATE, so no late work is counted. -/
def resetEpoch (s : State) (e : Epoch) : State :=
  let s := dropRuns s e.cadence e.epoch
  let s := if e.complete ∨ e.aborted then s else noteAbandoned s e
  e.flows.foldl (fun s r =>
    let s := if r.ended then s else settleSeqs s r.flow e.epoch false
    if r.written then s
    else if r.guarded then noValue s e r.flow
    else writeResult s e r.flow (emptyResult s e r.flow stAborted 0) false) s

/-- The field die's time state after a time reset: invalid until the next exchange. -/
def FldTime.restart (t : FldTime) : FldTime :=
  { t with st := if t.linkUp then .acquire else .down, valid := false, off := 0, gen := 0, error := 0, y := 0, i := 0, inRun := 0 }

/-- TIME_RESET (R120, R526, R543). -/
def execTimeReset (did : Nat) (s : State) : Host.Outcome State Fault Refusal :=
  if !s.bootReady ∨ 2 < did then .next s
  else if !maintOpen s did then .next { maintRefuse s with tb.lastCmd := stNotAuth }
  else
    let s := maintAccept s did
    let s := { s with trig.cads := s.trig.cads.mapV (fun _ c => { c with st := .stopped, last := none }) }
    let s := s.trig.cads.foldl (fun s c => stopStreams s c.1) s
    let s := together s fun s => s.epochs.foldl (fun s e => if e.closed then resetEpoch s e else s) s
    let s := servoFree { s with epochs := [], spl.holds := [], now := 0, tb.frac := 0, tb.gen := 0, tb.lastCmd := stOk }
    .next { s with
      fldT := s.fldT.restart
      trig.outs := s.trig.outs.mapV (fun _ o => { o with activeUntil := none, resumeAt := 0 })
      trig.mons := s.trig.mons.mapV (fun _ m => { m with instants := [] })
      power.clkActive := s.power.clkMode
      power.timeResets := satAdd 8 s.power.timeResets 1 }

end Sys2Proof.Machine
end

