-- ==== Sys2Proof/Machine/Work.lean ====
section
/-! DEFINITION. The order in which units start waiting work (spec/06_cadences_triggers.md R136). -/

namespace Sys2Proof.Machine

/-- Lexicographic order of number lists. -/
def lexLt : List Nat → List Nat → Bool
  | [], [] => false
  | [], _ => true
  | _, [] => false
  | a :: as, b :: bs => decide (a < b) || (a == b && lexLt as bs)

/-- The run of a flow ranks after all other work: mode DEFER in an epoch of catch-up (R136, R138). -/
def lastRank (e : Epoch) (r : FlowRun) : Bool := !r.guarded && r.mode == 0 && decide (0 < e.cut)

/-- Rank of the work of a flow in an epoch. -/
def flowKey (s : State) (c n f : Nat) (guarded : Bool) : List Nat :=
  match epochOf s c n with
  | some e => [if guarded then 0 else if (e.flowRun f).any (lastRank e) then 2 else 1, 0, e.target, c, n]
  | none => [if guarded then 0 else 1, 1]

/-- Rank of a descriptor's work; work of no epoch follows the epochs' work of its class (R136; log entry 64). -/
def workKey (s : State) (d : Desc) : List Nat :=
  match callFlow s d with
  | some (c, n, f) => flowKey s c n f (workGuarded d)
  | none => [if workGuarded d then 0 else 1, 1]

/-- The first element of least rank. -/
def leastBy {α : Type} (key : α → List Nat) : List α → Option α
  | [] => none
  | x :: xs =>
    match leastBy key xs with
    | none => some x
    | some y => if lexLt (key y) (key x) then some y else some x

/-- The class that an operation of a chip unit may carry: guarded from a guarded caller or from firmware, never from a ring (R70, R299). -/
def unitClass (s : State) (d : Desc) : Option Bool :=
  match d.src with
  | .ring _ _ => none
  | _ => if dGuarded d && callerGuarded s d then some true else none

end Sys2Proof.Machine
end

