-- ==== Sys2Proof/Machine/Erg.lean ====
section
/-! DEFINITION. Point frames, the voxel table and its builds (spec/10_erg_point_units.md R225 to R237, R244). -/

namespace Sys2Proof.Machine

def ergOf (s : State) (u : Nat) : ErgUnit := Tbl.at ErgUnit.reset s.geo.erg u
def setErg (s : State) (u : Nat) (x : ErgUnit) : State := { s with geo.erg := s.geo.erg.put u x }

/-! ### Configuration (R225, R226) -/

def volGuarded (s : State) (u : Nat) : Bool :=
  (s.cfg.volumes.find u).any (·.guarded) || s.sec.image.any (fun i => (i.volumes.find u).isSome)

/-- A member fits the volume (R226). -/
def memberOk (s : State) (u : Nat) (v : Volume) (k : Nat) : Bool :=
  match s.cfg.streams.find k with
  | none => false
  | some c =>
    c.kind == kindScan && c.cadence == v.cadence && (!v.vox || (c.mount.isSome && !c.atTov))
      && !(s.cfg.volumes.any (fun p => p.1 != u && p.2.members.any (fun m => m.2 == k)))
      && !(s.cfg.egos.any (fun p => p.2.streams.contains k && p.2.erg != u))

/-- An object names the volume: an ego group or a grid's point unit (R29). -/
def volNamed (s : State) (u : Nat) : Bool :=
  s.cfg.egos.any (fun p => p.2.erg == u) || s.cfg.grids.any (fun p => p.2.cp != 0 && p.2.ptUnit == u)

/-- A positive finite FP32. -/
def f32Pos (x : Nat) : Bool := f32Finite x && decide (x < 0x80000000) && !isZero32 x

/-- What R70 checks of ErgVolume. -/
def infoErgVolume (_ : State) (d : Desc) : OpInfo :=
  { fields := [(16, 0, 8), (17, 0, 5), (18, 0, 64), (26, 0, 11), (28, 0, 32), (32, 0, 32), (36, 0, 96), (48, 0, 48), (56, 0, 48)], authority := didHost d }

/-- ERG_VOLUME (R225, R226); without valid members it deletes the volume (R29). -/
def execErgVolume (d : Desc) (s : State) : Host.Outcome State Fault Refusal :=
  .next (runDesc s d (infoErgVolume s d) fun s =>
    let u := dfld d 16 0 1
    let members : Tbl Nat := (List.range 8).filterMap (fun j => if dbit d (18 + j) 7 then some (j, dfld d (18 + j) 0 7) else none)
    let v : Volume := { vox := dbit d 16 1, reefMax := dfld d 16 2 2, keep := dfld d 16 4 4, cadence := dfld d 17 0 5, members := members, blocksMax := dfld d 26 0 11, rangeMax := dfld d 28 0 32, cell := dfld d 32 0 32, ox := dfld d 36 0 32, oy := dfld d 40 0 32, oz := dfld d 44 0 32, pointBase := dfld d 48 0 48, siteBase := dfld d 56 0 48, did := d.did, guarded := false }
    if volGuarded s u then failWith s stNotAuth
    else if members = [] then
      if (s.cfg.volumes.find u).isNone then okWith s 0
      else if volNamed s u then failWith s stDescInvalid else okWith { s with cfg.volumes := s.cfg.volumes.drop u } 0
    else
      let cell := ratOfV (decodeF fp32 v.cell)
      let bad : Bool := v.keep == 0 || decide (8 < v.keep) || v.blocksMax == 0 || decide (1024 < v.blocksMax) || !f32Pos v.rangeMax || !f32Finite v.cell
        || decide (cell < ratOfV (decodeF fp32 0x3C23D70A)) || decide (10 < cell) || !([v.ox, v.oy, v.oz].all f32Finite) || v.pointBase % 65536 != 0 || v.siteBase % 65536 != 0
        || !(members.all (fun m => memberOk s u v m.2)) || (members.map (·.2)).eraseDups.length != members.length
      if bad then failWith s stDescInvalid else okWith { s with cfg.volumes := s.cfg.volumes.put u v } 0)

/-! ### The voxel table (R229 to R232) -/

/-- A cell coordinate. -/
abbrev CellKey := Int × Int × Int

/-- c_L (R229). -/
def cellEdge (v : Volume) (l : Nat) : Nat := f32Mul v.cell (f32Ratio (2 ^ l : Nat) 1)

/-- floor((x − o) / c) with each step in FP32. -/
def axisIndex (x o c : Nat) : Option Int :=
  let q := f32Div (f32Sub x o) c
  if f32Finite x ∧ f32Finite q then some (ratOfV (decodeF fp32 q)).floor else none

/-- The key of a point, none where it is out of volume (R229). -/
def cellKey (v : Volume) (l : Nat) (p : FramePt) : Option CellKey :=
  let c := cellEdge v l
  match axisIndex p.x v.ox c, axisIndex p.y v.oy c, axisIndex p.z v.oz c with
  | some x, some y, some z =>
    if [x, y, z].all (fun i => decide (-16384 ≤ i) && decide (i ≤ 16383)) then some (x, y, z) else none
  | _, _, _ => none

/-- The 45 key bits and the two buckets (R231). -/
def keyBits (k : CellKey) : Nat := unsigned 15 k.1 + unsigned 15 k.2.1 * 2 ^ 15 + unsigned 15 k.2.2 * 2 ^ 30
def bucket0 (k : CellKey) : Nat := (keyBits k * 0x9E3779B97F4A7C15) % 2 ^ 64 / 2 ^ 48
def bucket1 (k : CellKey) : Nat :=
  let h := (keyBits k * 0xC2B2AE3D27D4EB4F) % 2 ^ 64 / 2 ^ 48
  if h = bucket0 k then h ^^^ 1 else h

def Voxel.key (x : Voxel) : CellKey := (x.ix, x.iy, x.iz)

/-- Places of a bucket, and of the stash. -/
def bucketPlaces (b : Nat) : List Nat := [4 * b, 4 * b + 1, 4 * b + 2, 4 * b + 3]
def stashPlaces : List Nat := (List.range 8).map (· + 262144)

/-- The place that holds a key. -/
def findKey (t : Tbl Voxel) (k : CellKey) : Option Nat :=
  (bucketPlaces (bucket0 k) ++ bucketPlaces (bucket1 k) ++ stashPlaces).find? (fun i => (t.find i).any (fun x => x.key == k))

/-- Lowest free place of a list. -/
def freePlace (t : Tbl Voxel) (ps : List Nat) : Option Nat := ps.find? (fun i => (t.find i).isNone)

/-- Age of a tag's epoch (mod 16) in epoch n (R230). -/
def slotAge (n tag : Nat) : Nat := (n % 16 + 16 - tag % 16) % 16

/-- One sweep is older than another (R230). -/
def olderSweep (n : Nat) (a b : Nat × Nat) : Bool :=
  decide (slotAge n b.1 < slotAge n a.1) || (slotAge n a.1 == slotAge n b.1 && decide (a.2 < b.2))

/-- Index of the oldest slot of an entry. -/
def oldestSlot (n : Nat) (slots : List (Option VSlot)) : Option (Nat × VSlot) :=
  (slots.zipIdx).foldl (fun a p => match p.1, a with
    | some s, none => some (p.2, s)
    | some s, some b => if olderSweep n (s.epoch, s.member) (b.2.epoch, b.2.member) then some (p.2, s) else some b
    | none, a => a) none

/-- A point of a sweep arrives at its entry (R230): the entry and whether a slot was evicted. -/
def arrive (n : Nat) (sweep : Nat × Nat) (x : Voxel) : Voxel × Nat :=
  match x.slots.findIdx? (fun s => s.any (fun s => s.epoch == sweep.1 % 16 && s.member == sweep.2)) with
  | some i => ({ x with slots := x.slots.modify i (fun s => s.map (fun s => { s with count := satAdd 12 s.count 1 })) }, 0)
  | none =>
    let new : VSlot := { epoch := sweep.1 % 16, member := sweep.2, count := 1 }
    match x.slots.findIdx? (fun s => s.isNone) with
    | some i => ({ x with slots := x.slots.set i (some new) }, 0)
    | none =>
      match oldestSlot n x.slots with
      | some (i, o) =>
        if olderSweep n sweep (o.epoch, o.member) then (x, 0) else ({ x with slots := x.slots.set i (some new) }, 1)
      | none => (x, 0)

/-- The kicks of R232: `cur` looks for a place from bucket `b`. -/
def kick (t : Tbl Voxel) : Nat → Nat → Nat → Voxel → Option (Tbl Voxel)
  | 0, _, _, cur => (freePlace t stashPlaces).map (fun i => t.put i cur)
  | fuel + 1, kicks, b, cur =>
    let place := 4 * b + kicks % 4
    match t.find place with
    | none => some (t.put place cur)
    | some out =>
      let t := t.put place cur
      let b' := if bucket0 out.key = b then bucket1 out.key else bucket0 out.key
      match freePlace t (bucketPlaces b') with
      | some i => some (t.put i out)
      | none => kick t fuel (kicks + 1) b' out

/-- Insert a point (R232): the store and evictions, or none on overflow. -/
def insertVoxel (n : Nat) (t : Tbl Voxel) (k : CellKey) (sweep : Nat × Nat) : Option (Tbl Voxel × Nat) :=
  match findKey t k with
  | some i => match t.find i with
    | some x => let y := arrive n sweep x; some (t.put i y.1, y.2)
    | none => none
  | none =>
    let new : Voxel := { ix := k.1, iy := k.2.1, iz := k.2.2, slots := [some { epoch := sweep.1 % 16, member := sweep.2, count := 1 }, none, none, none] }
    match freePlace t (bucketPlaces (bucket0 k)) with
    | some i => some (t.put i new, 0)
    | none => match freePlace t (bucketPlaces (bucket1 k)) with
      | some i => some (t.put i new, 0)
      | none => (kick t 32 0 (bucket0 k) new).map (fun t => (t, 0))

/-- The expiry pass (R233); a stash entry stays until the store is cleared (R231). -/
def expire (n keep : Nat) (t : Tbl Voxel) : Tbl Voxel :=
  (t.mapV (fun _ (x : Voxel) => { x with slots := x.slots.map (fun s => s.filter (fun s => decide (slotAge n s.epoch < keep))) })).filter
    (fun p => decide (262144 ≤ p.1) || p.2.slots.any (·.isSome))

/-! ### Deskew into frames (R213, R214, R227, R228) -/

/-- Band of a sensor-frame position (R228). -/
def bandOf (v : Volume) (p : Nat × Nat × Nat) : Nat :=
  let len := f32Sqrt (f32Fma p.2.2 p.2.2 (f32Fma p.2.1 p.2.1 (f32Mul p.1 p.1)))
  let q := f32Div (f32Mul 0x41800000 len) v.rangeMax
  if f32Finite q then min 15 (ratOfV (decodeF fp32 q)).floor.toNat else 15

/-- Blocks of a frame in block-table order: their band and points. -/
abbrev Blocks := List (Nat × List FramePt)

/-- Append a point to its band's open block: the blocks and the point's block and slot, none where no block is unused (R228). A block
that fills is closed, and the lowest unused one opens for the band. -/
def appendPoint (max : Nat) (bs : Blocks) (p : FramePt) : Blocks × Option (Nat × Nat) :=
  match bs.findIdx? (fun b => b.1 == p.band && decide (b.2.length < 256)) with
  | some i =>
    let slot := ((bs[i]?).map (·.2.length)).getD 0
    let bs' := bs.modify i (fun b => (b.1, b.2 ++ [p]))
    (if slot = 255 ∧ bs.length < max then bs' ++ [(p.band, [])] else bs', some (i, slot))
  | none => if bs.length < max then (bs ++ [(p.band, [p])], some (bs.length, 0)) else (bs, none)

/-- The estimate of the ego group of a stream: identity where there is none (R213). -/
def estimateOf (e : Epoch) (p : PoseTable) (k : Nat) : Estimate :=
  match p.groups.find? (fun g => (e.cfg.egos.find g.group).any (fun x => x.enable && x.streams.contains k)) with
  | some g => (g.d, g.xi)
  | none => Estimate.none

/-- Corrected sensor pose of a stream at the TOV query. -/
def tovPose (t : EpochTable) (p : PoseTable) (k : Nat) : Option Pose :=
  (p.poses.find? (fun r => r.stream == k && r.status == 0 && (t.queries[r.query]?).any (fun q => q.kind == 0))).map (·.sensor)

/-- One point of a member as its frame takes it: position in the out_frame, none where a pose is unavailable. -/
def memberPoint (s : State) (e : Epoch) (t : EpochTable) (p : PoseTable) (v : Volume) (k : Nat) (x : Sample) (i : Nat) : Option FramePt :=
  let rec_ := (x.payload.drop (16 * i)).take 16
  let raw := (coordM rec_ 4, coordM rec_ 7, coordM rec_ 10)
  let mk := fun (q : Nat × Nat × Nat) =>
    ({ x := q.1, y := q.2.1, z := q.2.2, intensity := ((rec_.getD 13 0).toNat), channel := (rec_.getD 14 0).toNat, flags := (rec_.getD 15 0).toNat % 2 + 128, band := bandOf v raw } : FramePt)
  match e.cfg.streams.find k with
  | none => none
  | some c =>
    if c.mount.isNone then some (mk raw)
    else match memberPose s e t p k x.index with
      | none => none
      | some m =>
        let site := (scanPoint k x t.tov m i).site (estimateOf e p k)
        if !c.atTov then some (mk site)
        else (tovPose t p k).map (fun q => mk (q.inverse.map site))

/-- All points of a stream in deskew order: none for a point without a pose. -/
def framePoints (s : State) (e : Epoch) (t : EpochTable) (p : PoseTable) (v : Volume) (k : Nat) : List (Option FramePt) :=
  (heldMembers s t k).flatMap (fun x => (List.range (scanPoints x.payload)).map (memberPoint s e t p v k x))

/-! ### A build (R233 to R237) -/

/-- A point with its place: frame epoch, member position, block, slot. -/
structure Placed where
  epoch : Nat
  member : Nat
  block : Nat
  slot : Nat
  pt : FramePt
  deriving DecidableEq, Repr

/-- A frame of the epoch that is built: its blocks, the points it had no room for, and its points with their places in deskew order. -/
structure PointFrame where
  epoch : Nat
  member : Nat
  stream : Nat
  blocks : Blocks
  full : Nat
  places : List Placed

/-- Fill a frame with points in deskew order (R228). -/
def fillFrame (max n j k : Nat) (pts : List FramePt) : PointFrame :=
  pts.foldl (fun f p =>
    match appendPoint max f.blocks p with
    | (bs, some (b, i)) => { f with blocks := bs, places := f.places ++ [{ epoch := n, member := j, block := b, slot := i, pt := p }] }
    | (bs, none) => { f with blocks := bs, full := f.full + 1 })
    { epoch := n, member := j, stream := k, blocks := [], full := 0, places := [] }

/-- Frame geometry (R227). -/
def frameSize (v : Volume) : Nat := 4096 + v.blocksMax * 5120
def frameAddr (v : Volume) (n j : Nat) : Nat := v.pointBase + (8 * (n % 8) + j) * frameSize v

/-- A point record of R227 as the unit reads it back. -/
def FramePt.ofBytes (band : Nat) (bs : List Byte) : FramePt :=
  let b := fun i => (bs.getD i 0).toNat
  { x := ofLe (bs.take 4), y := ofLe ((bs.drop 4).take 4), z := ofLe ((bs.drop 8).take 4), intensity := b 12, channel := b 13, flags := b 14, band := band }

/-- The valid points of a block in slot order. -/
def blockPoints (n j b band : Nat) (bs : List Byte) : List Placed :=
  (List.range 256).filterMap (fun i =>
    let p := FramePt.ofBytes band ((bs.drop (16 * i)).take 16)
    if p.flags.testBit 7 then some { epoch := n, member := j, block := b, slot := i, pt := p } else none)

/-- The points of the frame of epoch n and member position j as it stands in memory, where its header shows it complete (R227, R233). -/
def readFrame (s : State) (w : Who) (v : Volume) (n j k : Nat) : List Placed × State :=
  let a := frameAddr v n j
  let h := devRead s w a 4096
  let b := fun i => (h.2.1.getD i 0).toNat
  if h.1 ≠ stOk ∨ ofLe (h.2.1.take 8) ≠ n ∨ b 34 ≠ k ∨ b 35 % 2 = 0 then ([], h.2.2)
  else
    let used := min (b 32 + 256 * b 33) v.blocksMax
    let r := devRead h.2.2 w (a + 4096) (used * 4096)
    if r.1 ≠ stOk then ([], r.2.2)
    else ((List.range used).flatMap (fun i => blockPoints n j i (b (65 + 2 * i) / 16) ((r.2.1.drop (4096 * i)).take 4096)), r.2.2)

/-- The complete frames of epochs n − keep + 1 to n, in ascending epoch and member position (R233). -/
def retainedFrames (s : State) (w : Who) (v : Volume) (n : Nat) : List (List Placed) × State :=
  ((List.range v.keep).map (fun i => n + 1 - v.keep + i)).foldl (fun a ep =>
    if n < ep then a else
    (List.range 8).foldl (fun a j => match v.members.find j with
      | none => a
      | some k => let r := readFrame a.2 w v ep j k; (a.1 ++ [r.1], r.2)) a) ([], s)

/-- Band order of frames (R233). -/
def bandOrder (fs : List (List Placed)) : List Placed :=
  (List.range 16).flatMap (fun b => fs.flatMap (fun ps => ps.filter (fun x => x.pt.band == b)))

/-- What an insertion pass gives: the store, evictions, the points out of volume, the points it did not insert. -/
structure Pass where
  store : Tbl Voxel
  evicted : Nat
  oov : List Placed
  rest : List Placed

/-- Insert points in order until one fails (R232, R235). -/
def insertPass (n : Nat) (v : Volume) (l : Nat) : List Placed → Tbl Voxel → Pass
  | [], t => { store := t, evicted := 0, oov := [], rest := [] }
  | p :: ps, t =>
    match cellKey v l p.pt with
    | none => let r := insertPass n v l ps t; { r with oov := p :: r.oov }
    | some k =>
      match insertVoxel n t k (p.epoch, p.member) with
      | none => { store := t, evicted := 0, oov := [], rest := p :: ps }
      | some (t, ev) => let r := insertPass n v l ps t; { r with evicted := r.evicted + ev }

/-- Reef from level `l`: rebuilds in band order until everything fits or reef_max is reached (R235). -/
def reefFrom (n : Nat) (v : Volume) (all : List Placed) : Nat → Nat → Pass × Nat
  | 0, l => (insertPass n v l all [], l)
  | fuel + 1, l =>
    let r := insertPass n v l all []
    if r.rest.isEmpty ∨ v.reefMax ≤ l then (r, l) else reefFrom n v all fuel (l + 1)

/-- Site order: ascending i_y, i_x, i_z (R237). -/
def siteBefore (a b : Voxel) : Bool := decide (a.iy < b.iy ∨ (a.iy = b.iy ∧ (a.ix < b.ix ∨ (a.ix = b.ix ∧ a.iz < b.iz))))

def insertSite : List Voxel → Voxel → List Voxel
  | [], x => [x]
  | y :: ys, x => if siteBefore x y then x :: y :: ys else y :: insertSite ys x

def siteList (t : Tbl Voxel) : List Voxel := (t.map (·.2)).foldl insertSite []

/-- A site record (R237); the age of an entry without a valid slot is a free value (log entry 132). -/
def siteRecord (n l : Nat) (none_ : Byte) (x : Voxel) : List Byte :=
  let vs := x.slots.filterMap id
  let now := (vs.filter (fun s => slotAge n s.epoch == 0)).foldl (fun a s => a + s.count) 0
  let all := vs.foldl (fun a s => a + s.count) 0
  let age := vs.foldl (fun a s => min a (slotAge n s.epoch)) 15
  leBytes 8 (keyBits x.key + l % 8 * 2 ^ 45) ++ leBytes 2 (min now 65535) ++ leBytes 2 (min all 65535) ++ leBytes 1 vs.length ++ (if vs.isEmpty then [none_] else leBytes 1 age) ++ leBytes 2 0

/-- A site list's header (R237). -/
def siteHeader (n sites l flags c : Nat) (o : Nat × Nat × Nat) (now : Nat) : List Byte :=
  leBytes 8 n ++ leBytes 4 sites ++ leBytes 1 l ++ leBytes 1 flags ++ leBytes 2 0 ++ leBytes 4 c ++ leBytes 4 o.1 ++ leBytes 4 o.2.1 ++ leBytes 4 o.2.2
    ++ leBytes 8 now ++ leBytes 24 0

def FramePt.bytes (p : FramePt) : List Byte :=
  leBytes 4 p.x ++ leBytes 4 p.y ++ leBytes 4 p.z ++ leBytes 1 p.intensity ++ leBytes 1 p.channel ++ leBytes 1 p.flags ++ leBytes 1 p.band

/-- A block of 256 places. -/
def blockBytes (b : List FramePt) : List Byte := b.flatMap FramePt.bytes ++ List.replicate (4096 - 16 * b.length) 0

/-- A frame's header (R227): `oov` and `truncated` points, completed at `now`. -/
def frameHeader (f : PointFrame) (now oov truncated : Nat) (mapped : Bool) : List Byte :=
  let pts := f.blocks.foldl (fun n b => n + b.2.length) 0
  let h := leBytes 8 f.epoch ++ leBytes 8 now ++ leBytes 4 pts ++ leBytes 4 f.full ++ leBytes 4 oov ++ leBytes 4 truncated ++ leBytes 2 f.blocks.length
    ++ leBytes 1 f.stream ++ leBytes 1 (1 + placeB mapped 1) ++ leBytes 28 0 ++ f.blocks.flatMap (fun b => leBytes 2 (b.2.length + b.1 * 4096))
  h ++ List.replicate (4096 - h.length) 0

/-- Map entries of a frame of the current epoch: site indices, 0xFFFFFFFF for a point without one (R227, R235, R237). -/
def mapBytes (v : Volume) (l : Nat) (sites : List CellKey) (dropped : List (Nat × Nat × Nat)) (f : PointFrame) : List Byte :=
  (f.blocks.zipIdx).flatMap (fun b => (List.range 256).flatMap (fun s =>
    leBytes 4 (match b.1.2[s]? with
      | none => 0xFFFFFFFF
      | some p =>
        if dropped.contains (f.member, b.2, s) then 0xFFFFFFFF
        else match cellKey v l p with
          | none => 0xFFFFFFFF
          | some k => (sites.idxOf? k).getD 0xFFFFFFFF)))

def volWho (s : State) (u : Nat) (v : Volume) : Who := { did := v.did, guarded := volGuarded s u, kind := 4, index := 0x0B00 + u, flows := [] }

/-- Flows of an epoch that read a volume: through a member stream, or through a grid that takes points from its unit (R236). -/
def readsVolume (e : Epoch) (u : Nat) (v : Volume) (f : Nat) : Bool :=
  (Tbl.at [] e.cfg.inputs f).any (fun r => !r.isFlow && v.members.any (fun m => m.2 == r.index))
    || (match (e.cfg.flows.find f).bind (·.grid) with
      | some g => (e.cfg.grids.find g).any (fun x => x.cp != 0 && x.ptUnit == u)
      | none => false)

/-- Rewrite the flows that read a volume. -/
def updReaders (s : State) (e : Epoch) (u : Nat) (v : Volume) (g : FlowRun → FlowRun) : State :=
  updEpoch s e.cadence e.epoch (fun x => { x with flows := x.flows.map (fun r => if !r.ended ∧ readsVolume e u v r.flow then g r else r) })

/-- A record about a unit's volume. -/
def ergReport (s : State) (severity u event : Nat) : Report :=
  { reportOf s severity 4 (0x0B00 + u) event with guarded := volGuarded s u }

/-- The frames of an epoch: deskewed points in blocks (R227, R228). -/
def newFrames (s : State) (e : Epoch) (t : EpochTable) (p : PoseTable) (v : Volume) : List PointFrame :=
  v.members.map (fun m => fillFrame v.blocksMax e.epoch m.1 m.2 ((framePoints s e t p v m.2).filterMap id))

/-- What the insertions of a build leave: the last pass, its level, and the state (frames are read back from memory). -/
structure Built where
  pass : Pass
  level : Nat
  s : State

/-- The insertions of a build: during the deskew or, in a rebuild and after a failure, from the frames in memory; an uncorrectable error
of the store repeats them at the current level (R233, R235, R244). -/
def buildStore (s : State) (w : Who) (store : Tbl Voxel) (v : Volume) (n : Nat) (fs : List PointFrame) (rebuild : Bool) (errs : Nat) : Built :=
  let first := insertPass n v 0 (fs.flatMap (·.places)) (expire n v.keep store)
  if !rebuild ∧ errs = 0 ∧ (first.rest.isEmpty ∨ v.reefMax = 0) then { pass := first, level := 0, s := s }
  else
    let r := retainedFrames s w v n
    let all := bandOrder r.1
    let l := if rebuild then (reefFrom n v all 4 0).2 else if first.rest.isEmpty ∨ v.reefMax = 0 then 0 else (reefFrom n v all 4 1).2
    let q := reefFrom n v all 4 l
    { pass := q.1, level := q.2, s := r.2 }

/-- Cell, origin or members differ from the last build's (R225). -/
def volChanged (u : ErgUnit) (v : Volume) : Bool :=
  match u.lastVol with
  | some w => w.cell != v.cell || w.ox != v.ox || w.oy != v.oy || w.oz != v.oz || w.members != v.members
  | none => false

/-- Write the blocks of a frame, then its header with complete set (R228). -/
def writeFrame (w : Who) (v : Volume) (s : State) (f : PointFrame) : State :=
  let a := frameAddr v f.epoch f.member
  let s := (devWrite s w (a + 4096) (f.blocks.flatMap (fun b => blockBytes b.2))).2
  (devWrite s w a (frameHeader f s.now 0 0 false)).2

/-- Write the map of a frame of the epoch and its header anew (R235, R237). -/
def writeMap (w : Who) (v : Volume) (map : List Byte) (oov truncated : Nat) (s : State) (f : PointFrame) : State :=
  let a := frameAddr v f.epoch f.member
  let s := (devWrite s w (a + 4096 + v.blocksMax * 4096) map).2
  (devWrite s w a (frameHeader f s.now oov truncated true)).2

/-- Points of one frame among some. -/
def countIn (ps : List Placed) (n j : Nat) : Nat := (ps.filter (fun q => q.epoch == n && q.member == j)).length

/-- The dropped points of older frames, counted in their headers (R235). -/
def countOld (w : Who) (v : Volume) (n : Nat) (dropped : List Placed) (s : State) : State :=
  (((dropped.filter (fun q => q.epoch != n)).map (fun q => (q.epoch, q.member))).eraseDups).foldl
    (fun s q => (devWrite s w (frameAddr v q.1 q.2 + 28) (leBytes 4 (countIn dropped q.1 q.2))).2) s

/-- The epoch that a unit builds next (R233, R234). -/
def buildEpoch (s : State) (u : Nat) : Option Epoch :=
  firstEpoch (s.epochs.filter (fun e => (volumesOf e).contains u && !e.volsDone.contains u && !e.aborted && e.poseEnd.isSome))

/-- Records and flow marks at the end of a build (R228, R235, R236). -/
def buildMarks (s : State) (e : Epoch) (u : Nat) (v : Volume) (level : Nat) (truncated full : Bool) : State :=
  let s := if full then updReaders s e u v (fun r => { r with partial_ := true }) else s
  let s := if 0 < level then updReaders (raise s { ergReport s sevInfo u 0x010A with detail := level }) e u v (fun r => { r with reefed := true }) else s
  if truncated then updReaders (raise s (ergReport s sevWarn u 0x010B)) e u v (fun r => { r with truncated := true }) else s

/-- Compaction: the maps and headers of the epoch's frames, the counts in older ones, and the site list (R235, R237). -/
def compact (s : State) (w : Who) (v : Volume) (n errs : Nat) (fs : List PointFrame) (p : Pass) (level : Nat) (sites : List Voxel) : State :=
  let keys := sites.map Voxel.key
  let gone := (p.rest.filter (fun q => q.epoch == n)).map (fun q => (q.member, q.block, q.slot))
  let s := fs.foldl (fun s f => writeMap w v (mapBytes v level keys gone f) (countIn p.oov n f.member) (countIn p.rest n f.member) s f) s
  let s := countOld w v n p.rest s
  let flags := placeB (decide (0 < level)) 0 + placeB (!p.rest.isEmpty) 1 + placeB (decide (2 ≤ errs)) 2
  (devWrite (tickFresh s) w (v.siteBase + n % 2 * 0x410000)
    (siteHeader n sites.length level flags (cellEdge v level) (v.ox, v.oy, v.oz) s.now ++ sites.flatMap (siteRecord n level (Config.freeByte s.fresh 0)))).2

/-- The build of one epoch; `errs`: uncorrectable errors of the voxel store during it (R233 to R237, R244). -/
def buildNow (s : State) (e : Epoch) (t : EpochTable) (p : PoseTable) (u errs : Nat) (v : Volume) : State :=
  let x := ergOf s u
  let n := e.epoch
  let w := volWho s u v
  let fs := newFrames s e t p v
  let lost := v.members.foldl (fun c m => c + ((framePoints s e t p v m.2).filter (·.isNone)).length) 0
  let s := fs.foldl (writeFrame w v) s
  let rebuild := x.level != 0 || volChanged x v || n == 0 || x.lastBuild != some (e.cadence, n - 1)
  let b : Built := if !v.vox ∨ 2 ≤ errs then { pass := { store := [], evicted := 0, oov := [], rest := [] }, level := 0, s := s }
    else buildStore s w x.store v n fs rebuild errs
  let sites := siteList b.pass.store
  let s := if v.vox then compact b.s w v n errs fs b.pass b.level sites else b.s
  let dropped := b.pass.rest.length
  let y : ErgUnit := { x with
    level := b.level, truncated := x.truncated || dropped != 0, storeErr := x.storeErr || errs != 0, store := b.pass.store, lastBuild := if v.vox then some (e.cadence, n) else none, lastVol := some v
    buildUs := min ((s.up - max x.lastEnd (s.up - (s.now - e.poseEnd.getD s.now))) / 1000) 0xFFFF
    reefs := satAdd 16 x.reefs (if 0 < b.level then 1 else 0), truncations := satAdd 16 x.truncations (if dropped = 0 then 0 else 1)
    truncPoints := min dropped (2 ^ 32 - 1), oov := min b.pass.oov.length (2 ^ 32 - 1), evicted := min b.pass.evicted (2 ^ 32 - 1)
    entries := sites.length, stash := (b.pass.store.filter (fun q => decide (262144 ≤ q.1))).length, lost := x.lost + lost, lastEnd := s.up }
  let s := buildMarks (setErg s u y) e u v b.level (dropped != 0) (fs.any (fun f => f.full != 0))
  raiseTimes s { ergReport s (sevOf (volGuarded s u)) u stInternal with status := stInternal } (min errs 2)

/-! ### The order of a unit's work (R136, R220, R234) -/

/-- Ranks of the epochs' work that waits for a unit: its build, and the ego groups it runs. -/
def epochWorkOn (s : State) (u : Nat) : List (List Nat) :=
  let key := fun (e : Epoch) (guarded : Bool) => [if guarded then 0 else 1, 0, e.target, e.cadence, e.epoch]
  ((buildEpoch s u).map (fun e => key e (volGuarded s u))).toList
    ++ (List.range 16).filterMap (fun g => ((egoEpoch s g).filter (fun e => (e.cfg.egos.find g).any (fun x => x.erg == u))).map (fun e => key e (egoGuarded s g)))

/-- An idle unit starts the first waiting operation in the order of R136, unless an epoch's work on it goes first, and never interrupts it
(R234). -/
def startErg (s : State) (u : Nat) : State :=
  if (s.geo.ergRun.find u).isSome then s else
  match leastBy (fun (j : Nat × Desc × Nat) => workKey s j.2.1) (s.geo.ergJobs.filter (fun j => j.1 == u)) with
  | none => s
  | some j =>
    if (epochWorkOn s u).any (fun k => lexLt k (workKey s j.2.1)) then s
    else { s with geo.ergJobs := s.geo.ergJobs.erase j, geo.ergRun := s.geo.ergRun.put u (j.2.1, s.up) }

/-- Flows that read a volume without naming a member run degraded where it is missing. -/
def degradeVolume (s : State) (e : Epoch) (u : Nat) (v : Volume) : State :=
  updReaders s e u v (fun r => if r.runs then { r with partial_ := true, degraded := true } else r)

/-- VOXEL_BUILD: the unit's next build in R136's order (R233 to R237, R244). -/
def execVoxelBuild (unit errs : Nat) (s : State) : Host.Outcome State Fault Refusal :=
  if (s.geo.ergRun.find unit).isSome then .next s else
  match buildEpoch s unit with
  | none => .next s
  | some e =>
    match tableOf s e.cadence e.epoch, poseTableOf s e.cadence e.epoch, e.cfg.volumes.find unit with
    | some t, some p, some v =>
      let s := buildNow s e t p unit errs v
      let s := updEpoch s e.cadence e.epoch (fun e => { e with volsDone := e.volsDone ++ [unit] })
      let s := if 2 ≤ errs then loseStreams (degradeVolume s e unit v) e.cadence e.epoch false (v.members.map (·.2)) else s
      .next (startErg (noteGeo s e.cadence e.epoch) unit)
    | _, _, _ => .next s

/-- EGO_MOTION: one group's epoch, on its Erg unit (R213 to R220, R234). -/
def execEgoMotion (g : Nat) (s : State) : Host.Outcome State Fault Refusal :=
  match egoEpoch s g with
  | none => .next s
  | some e =>
    match tableOf s e.cadence e.epoch, poseTableOf s e.cadence e.epoch, e.cfg.egos.find g with
    | some t, some p, some x =>
      if (s.geo.ergRun.find x.erg).isSome then .next s else
      let old := egoFresh e x (Tbl.at Ego.reset s.xft.egos g)
      let pts := x.streams.flatMap (streamPoints s e t p)
      let y : Ego × Nat := if pts.isEmpty then (old, 0) else egoNext e (Config.register s.fresh) x old t.tov pts (sensorAtTov s e t p)
      let est : Estimate := (y.1.d, y.1.xi)
      let rec_ : GroupRec := { group := g, state := y.1.st.code, flags := y.2, iterations := y.1.iterations, correspondences := y.1.inliers, d := y.1.d, xi := y.1.xi, rms := y.1.rms }
      let p' : PoseTable := { p with groups := p.groups ++ [rec_], poses := if pts.isEmpty then p.poses else p.poses.map (correctPose s e t x est) }
      let s := tickFresh { s with xft.egos := s.xft.egos.put g y.1, xft.tables := s.xft.tables.put (2 * e.cadence + e.epoch % 2) p' }
      let s := if y.2.testBit 2 then raise s { reportOf s sevWarn 17 g 0x0109 with guarded := egoGuarded s g } else s
      let s := updEpoch s e.cadence e.epoch (fun e => { e with egosDone := e.egosDone ++ [g] })
      let s := if y.1.st = .tracking then s
        else if x.required then loseStreams s e.cadence e.epoch true x.streams
        else degradeReaders s e.cadence e.epoch x.streams
      .next (startErg (notePose s e.cadence e.epoch) x.erg)
    | _, _, _ => .next s

end Sys2Proof.Machine
end

