-- ==== Sys2Proof/Machine/ErgOps.lean ====
section
/-! DEFINITION. Operations of the Erg units: neighbours, farthest points, convolution rules, bird's-eye scatter (spec/10_erg_point_units.md R238 to R243). -/

namespace Sys2Proof.Machine

/-! ### Points -/

/-- A point as an operation reads it: x, y, z and its valid bit (R227). -/
def pointAt (bs : List Byte) (i : Nat) : (Nat × Nat × Nat) × Bool :=
  let r := (bs.drop (16 * i)).take 16
  ((ofLe (r.take 4), ofLe ((r.drop 4).take 4), ofLe ((r.drop 8).take 4)), (r.getD 14 0).getLsbD 7)

def pointsAt (bs : List Byte) (n : Nat) : List ((Nat × Nat × Nat) × Bool) := (List.range n).map (pointAt bs)

def f32Inf : Nat := 0x7F800000

/-- The output record of a query (R238). -/
def knnRecord (k : Nat) (ns : List (Nat × Nat)) : List Byte :=
  leBytes 4 ns.length ++ leBytes 4 0
    ++ (List.range k).flatMap (fun i => leBytes 4 ((ns[i]?).elim 0xFFFFFFFF (·.1)))
    ++ (List.range k).flatMap (fun i => leBytes 4 ((ns[i]?).elim f32Inf (·.2)))

/-! ### Farthest points (R239) -/

/-- Index of the largest d, the lowest on ties. -/
def farthest (ds : List Nat) : Option (Nat × Nat) :=
  (ds.zipIdx).foldl (fun a x => match a with
    | none => some (x.2, x.1)
    | some b => if f32Lt b.2 x.1 then some (x.2, x.1) else some b) none

/-- The selection loop: selected indices, newest first. -/
def fpsGo (ps : List (Nat × Nat × Nat)) : Nat → List Nat → List Nat → List Nat
  | 0, _, sel => sel
  | fuel + 1, ds, sel =>
    let last := ps.getD (sel.headD 0) (0, 0, 0)
    let ds := List.zipWith (fun d p => if f32Le 0 d then (minMaxF fp32 false d (dist2 p last)).1 else d) ds ps
    match farthest ds with
    | some (j, d) => if f32Lt 0 d then fpsGo ps fuel ds (j :: sel) else sel
    | none => sel

/-- The selection of R239, in order. -/
def fps (ps : List ((Nat × Nat × Nat) × Bool)) (m first : Nat) : List Nat :=
  (fpsGo (ps.map (·.1)) (m - 1) (ps.map (fun p => if p.2 then f32Inf else 0xBF800000)) [first]).reverse

/-! ### Site lists (R237) -/

/-- A site as an operation reads it. -/
structure SiteRow where
  cell : CellKey
  now : Nat
  all : Nat
  age : Nat
  deriving DecidableEq, Repr

/-- A site list as an operation reads it. -/
structure SiteTable where
  epoch : Nat
  level : Nat
  flags : Nat
  c : Nat
  ox : Nat
  oy : Nat
  oz : Nat
  rows : List SiteRow
  deriving DecidableEq, Repr

def siteRowOf (bs : List Byte) : SiteRow :=
  let k := ofLe (bs.take 8)
  { cell := (signed 15 (bitsOf k 0 15), signed 15 (bitsOf k 15 15), signed 15 (bitsOf k 30 15)), now := ofLe ((bs.drop 8).take 2),
    all := ofLe ((bs.drop 10).take 2), age := ofLe ((bs.drop 13).take 1) }

/-- Read a site list. -/
def readSites (s : State) (w : Who) (va : Nat) : Nat × SiteTable × State :=
  let h := devRead s w va 64
  let bs := h.2.1
  let at4 := fun (i : Nat) => ofLe ((bs.drop i).take 4)
  let t : SiteTable :=
    { epoch := ofLe (bs.take 8), level := (bs.getD 12 0).toNat, flags := (bs.getD 13 0).toNat, c := at4 16, ox := at4 20, oy := at4 24, oz := at4 28, rows := [] }
  if h.1 ≠ stOk then (h.1, t, h.2.2) else
  let n := at4 8
  let r := devRead h.2.2 w (va + 64) (16 * n)
  (r.1, { t with rows := (List.range n).map (fun i => siteRowOf ((r.2.1.drop (16 * i)).take 16)) }, r.2.2)

/-! ### Rules (R240, R241) -/

/-- Kernel offsets in the order of their index: x fastest. -/
def kernelOffsets (k : Nat) : List CellKey :=
  let lo : Int := if k = 2 then 0 else -(((k - 1) / 2 : Nat) : Int)
  let ds := (List.range k).map (fun (i : Nat) => lo + (i : Int))
  ds.flatMap (fun z => ds.flatMap (fun y => ds.map (fun x => (x, y, z))))

/-- Order of site lists. -/
def cellLt (a b : CellKey) : Bool := decide (a.2.1 < b.2.1 ∨ (a.2.1 = b.2.1 ∧ (a.1 < b.1 ∨ (a.1 = b.1 ∧ a.2.2 < b.2.2))))

def insertCell : List CellKey → CellKey → List CellKey
  | [], x => [x]
  | y :: ys, x => if x = y then y :: ys else if cellLt x y then x :: y :: ys else y :: insertCell ys x

/-- Coordinates p with 2p + δ = i for some δ of the kernel, per axis. -/
def halves (k : Nat) (i : Int) : List Int :=
  if k = 2 ∨ i % 2 = 0 then [i / 2] else [(i - 1) / 2, (i + 1) / 2]

/-- Output cells of STRIDED. -/
def stridedCells (k : Nat) (cells : List CellKey) : List CellKey :=
  cells.foldl (fun a c => ((halves k c.1).flatMap (fun x => (halves k c.2.1).flatMap (fun y => (halves k c.2.2).map (fun z => (x, y, z))))).foldl insertCell a) []

/-- The input cell that feeds an output cell through an offset, if any (modes 0 SUBM, 1 STRIDED, 2 INVERSE). -/
def feeds (mode : Nat) (o d : CellKey) : Option CellKey :=
  if mode = 0 then some (o.1 + d.1, o.2.1 + d.2.1, o.2.2 + d.2.2)
  else if mode = 1 then some (2 * o.1 + d.1, 2 * o.2.1 + d.2.1, 2 * o.2.2 + d.2.2)
  else
    let e := (o.1 - d.1, o.2.1 - d.2.1, o.2.2 - d.2.2)
    if e.1 % 2 = 0 ∧ e.2.1 % 2 = 0 ∧ e.2.2 % 2 = 0 then some (e.1 / 2, e.2.1 / 2, e.2.2 / 2) else none

/-- Rules per offset, each (input, output) by output site. -/
def rulesOf (mode k : Nat) (ins outs : List CellKey) : List (List (Nat × Nat)) :=
  (kernelOffsets k).map (fun d => (outs.zipIdx).filterMap (fun o => ((feeds mode o.1 d).bind (ins.idxOf? ·)).map (fun i => (i, o.2))))

/-- The rulebook header. -/
def rulebookHeader (mode k rules outs : Nat) : List Byte :=
  leBytes 1 mode ++ leBytes 1 k ++ leBytes 2 (k ^ 3) ++ leBytes 4 rules ++ leBytes 4 outs ++ leBytes 52 0

/-- Bytes of the offset table, padded. -/
def offsetTableSize (k : Nat) : Nat := (8 * k ^ 3 + 63) / 64 * 64

def offsetTable (k : Nat) (rs : List (List (Nat × Nat))) : List Byte :=
  let t := (rs.foldl (fun (a : List Byte × Nat) r => (a.1 ++ leBytes 4 a.2 ++ leBytes 4 r.length, a.2 + r.length)) ([], 0)).1
  t ++ List.replicate (offsetTableSize k - t.length) 0

/-- A row of a STRIDED output list: counts summed over its inputs, the smallest age; its valid-slot byte is a free value (log entry 65). -/
def stridedRow (s : State) (t : SiteTable) (k : Nat) (o : Nat × CellKey) : List Byte :=
  let rows := t.rows.filter (fun r => (kernelOffsets k).any (fun d => feeds 1 o.2 d == some r.cell))
  leBytes 8 (keyBits o.2 + (t.level + 1) % 8 * 2 ^ 45) ++ leBytes 2 (min (rows.foldl (fun a r => a + r.now) 0) 65535)
    ++ leBytes 2 (min (rows.foldl (fun a r => a + r.all) 0) 65535) ++ [Config.freeByte s.fresh o.1]
    ++ leBytes 1 (rows.foldl (fun a r => min a r.age) 15) ++ leBytes 2 0

/-! ### Execution -/

/-- Requester of an operation. -/
def ergWho (s : State) (d : Desc) (u : Nat) : Who :=
  { did := d.did, guarded := workGuarded d, kind := 4, index := 0x0B00 + u, flows := callFlows s d, src := some d.src }

/-- Complete after a write: its status decides. -/
def afterWrite (x : Nat × State) (result detail : Nat) : Answer :=
  if x.1 = stOk then .done stOk result detail 0 x.2 else failWith x.2 x.1

/-- Execution of ERG_KNN. -/
def runKnn (s : State) (d : Desc) (w : Who) : Answer :=
  let n := dfld d 16 0 32
  let m := dfld d 20 0 32
  let k := dfld d 52 0 6
  let r := dfld d 48 0 32
  let a := devRead s w (dfld d 24 0 64) (16 * n)
  if a.1 ≠ stOk then failWith a.2.2 a.1 else
  let b := devRead a.2.2 w (dfld d 32 0 64) (16 * m)
  if b.1 ≠ stOk then failWith b.2.2 b.1 else
  let ref := pointsAt a.2.1 n
  let found := ((pointsAt b.2.1 m).zipIdx).map (fun q => nearestTo ref (f32Mul r r) k (if dbit d 53 1 then some q.2 else none) q.1)
  afterWrite (devWrite b.2.2 w (dfld d 40 0 64) (found.flatMap (knnRecord k))) (found.foldl (fun t x => t + x.length) 0) 0

/-- Execution of ERG_FPS. -/
def runFps (s : State) (d : Desc) (w : Who) : Answer :=
  let n := dfld d 16 0 32
  let m := dfld d 20 0 32
  let first := dfld d 40 0 32
  let a := devRead s w (dfld d 24 0 64) (16 * n)
  if a.1 ≠ stOk then failWith a.2.2 a.1 else
  let ps := pointsAt a.2.1 n
  if !(ps[first]?).any (·.2) then failWith a.2.2 stDescInvalid else
  let sel := fps ps m first
  afterWrite (devWrite a.2.2 w (dfld d 32 0 64) ((sel ++ List.replicate (m - sel.length) 0xFFFFFFFF).flatMap (leBytes 4))) sel.length 0

/-- Execution of ERG_RULES. -/
def runRules (s : State) (d : Desc) (w : Who) : Answer :=
  let mode := dfld d 44 0 2
  let k := dfld d 45 0 8
  let book := dfld d 32 0 64
  let a := readSites s w (dfld d 16 0 64)
  if a.1 ≠ stOk then failWith a.2.2 a.1 else
  let t := a.2.1
  let b := if mode = 2 then readSites a.2.2 w (dfld d 24 0 64) else (stOk, t, a.2.2)
  if b.1 ≠ stOk then failWith b.2.2 b.1
  else if mode = 2 ∧ (b.2.1.level + 1 ≠ t.level ∨ (b.2.1.ox, b.2.1.oy, b.2.1.oz) ≠ (t.ox, t.oy, t.oz)) then failWith b.2.2 stDescInvalid
  else
    let ins := t.rows.map (·.cell)
    let outs := if mode = 0 then ins else if mode = 1 then stridedCells k ins else b.2.1.rows.map (·.cell)
    let rs := rulesOf mode k ins outs
    let rules := rs.foldl (fun c r => c + r.length) 0
    let bytes := 64 + offsetTableSize k + 8 * rules
    let s := b.2.2
    if dfld d 40 0 32 < bytes ∨ 262152 < outs.length then
      let x := devWrite s w book (rulebookHeader mode k rules outs.length)
      if x.1 ≠ stOk then failWith x.2 x.1 else .done stDescInvalid 0 bytes 0 x.2
    else
      let c2 := f32Mul t.c f32Two
      let x := if mode = 1 then
          devWrite (tickFresh s) w (dfld d 24 0 64) (siteHeader t.epoch outs.length (t.level + 1) t.flags c2 (t.ox, t.oy, t.oz) s.now
            ++ (outs.zipIdx).flatMap (fun o => stridedRow s t k (o.2, o.1)))
        else (stOk, s)
      if x.1 ≠ stOk then failWith x.2 x.1
      else afterWrite (devWrite x.2 w book (rulebookHeader mode k rules outs.length ++ offsetTable k rs
        ++ rs.flatMap (fun r => r.flatMap (fun p => leBytes 4 p.1 ++ leBytes 4 p.2)))) rules outs.length

/-- Format and size of codes 0 FP32, 1 BF16, 2 FP16. -/
def bevFormat (code : Nat) : Fmt := if code = 0 then fp32 else if code = 1 then bf16 else fp16
def bevSize (code : Nat) : Nat := if code = 0 then 4 else 2

/-- Half-integer coordinate as FP32: i + 0.5. -/
def halfOf (i : Int) : Nat := f32Ratio (2 * i + 1) 2

/-- Cells of one axis that a site maps to (R242; log entry 66). -/
def bevAxis (i : Int) (c origin g0 g size : Nat) : List Nat :=
  let x := f32Fma (halfOf i) c origin
  if f32Le c g then
    match axisIndex x g0 g with
    | some k => if 0 ≤ k ∧ k < size then [k.toNat] else []
    | none => []
  else
    let h := f32Mul c f32Half
    (List.range size).filter (fun k =>
      let m := f32Fma (halfOf (k : Int)) g g0
      f32Le (f32Sub x h) m && f32Lt m (f32Add x h))

/-- One channel of a cell: the FP32 reduction of its values. -/
def bevReduce (code : Nat) : List Nat → Nat
  | [] => 0
  | v :: vs =>
    if code = 0 then vs.foldl (fun a b => (minMaxF fp32 true a b).1) v
    else
      let sum := vs.foldl f32Add v
      if code = 1 then sum else f32Div sum (f32Ratio ((vs.length + 1 : Nat) : Int) 1)

/-- Encode an FP32 value in an output format (R242). -/
def bevEncode (code v : Nat) : List Byte :=
  leBytes (bevSize code) (if code = 0 then v else (convF (bevFormat code) .saturate none (decodeF fp32 v)).1)

/-- The operands of a scatter (R242). -/
structure Bev where
  list : Nat
  feats : Nat
  c : Nat
  inF : Nat
  outF : Nat
  red : Nat
  count : Bool
  stride : Nat
  gx : Nat
  gy : Nat
  g : Nat
  w : Nat
  h : Nat

/-- What a scatter gives: status, cells in row order with their mapped sites, sites off the grid. -/
structure BevOut where
  st : Nat
  cells : List (List Byte × Nat)
  off : Nat
  s : State

/-- The cells of a scatter (R242). -/
def bevCells (s : State) (wh : Who) (x : Bev) : BevOut :=
  let a := readSites s wh x.list
  if a.1 ≠ stOk then { st := a.1, cells := [], off := 0, s := a.2.2 } else
  let t := a.2.1
  let rows := t.rows.zipIdx
  let feats := rows.foldl (fun (y : Nat × List (List Byte) × State) r =>
    if y.1 ≠ stOk then y else
    let z := devRead y.2.2 wh (x.feats + r.2 * x.stride) (x.c * bevSize x.inF)
    (z.1, y.2.1 ++ [z.2.1], z.2.2)) (stOk, [], a.2.2)
  if feats.1 ≠ stOk then { st := feats.1, cells := [], off := 0, s := feats.2.2 } else
  let maps := (rows.zip feats.2.1).map (fun p =>
    (bevAxis p.1.1.cell.1 t.c t.ox x.gx x.g x.w, bevAxis p.1.1.cell.2.1 t.c t.oy x.gy x.g x.h, p.2))
  let value := fun (bs : List Byte) (ch : Nat) => (convF fp32 .arith none (decodeF (bevFormat x.inF) (ofLe ((bs.drop (ch * bevSize x.inF)).take (bevSize x.inF))))).1
  let cell := fun (row col : Nat) =>
    let here := (maps.filter (fun m => m.1.contains col && m.2.1.contains row)).map (·.2.2)
    ((List.range x.c).flatMap (fun ch => bevEncode x.outF (bevReduce x.red (here.map (fun bs => value bs ch))))
      ++ (if x.count then bevEncode x.outF (f32Ratio (here.length : Nat) 1) else []), here.length)
  { st := stOk, cells := (List.range x.h).flatMap (fun r => (List.range x.w).map (fun k => cell r k)),
    off := (maps.filter (fun m => m.1.isEmpty || m.2.1.isEmpty)).length, s := feats.2.2 }

/-- Execution of ERG_BEV. -/
def runBev (s : State) (d : Desc) (w : Who) : Answer :=
  let x : Bev :=
    { list := dfld d 16 0 64, feats := dfld d 24 0 64, c := dfld d 32 0 16, inF := dfld d 34 0 2, outF := dfld d 34 2 2, red := dfld d 34 4 2,
      count := dbit d 34 6, stride := dfld d 36 0 32, gx := dfld d 48 0 32, gy := dfld d 52 0 32, g := dfld d 56 0 32, w := dfld d 60 0 16, h := dfld d 62 0 16 }
  let r := bevCells s w x
  if r.st ≠ stOk then failWith r.s r.st
  else afterWrite (devWrite r.s w (dfld d 40 0 64) (r.cells.flatMap (·.1))) (x.w * x.h) r.off

/-! ### Commands (R234, R243, R244) -/

/-- An operation that passed its checks waits for its unit. -/
def queueErg (s : State) (d : Desc) (u : Nat) : Answer := .later (startErg { s with geo.ergJobs := s.geo.ergJobs ++ [(u, d, s.up)] } u)

/-- What R70 checks of ErgKnn. -/
def infoErgKnn (s : State) (d : Desc) : OpInfo :=
  { fields := [(16, 0, 32), (20, 0, 32), (24, 0, 64), (32, 0, 64), (40, 0, 64), (48, 0, 32), (52, 0, 6), (53, 0, 2)], cls := unitClass s d }

/-- ERG_KNN (R238, R243). -/
def execErgKnn (d : Desc) (s : State) : Host.Outcome State Fault Refusal :=
  .next (runDesc s d (infoErgKnn s d) fun s =>
    let k := dfld d 52 0 6
    if 65536 < dfld d 16 0 32 ∨ 16777216 < dfld d 20 0 32 ∨ dfld d 24 0 4 ≠ 0 ∨ dfld d 40 0 3 ≠ 0 ∨ !f32Lt 0 (dfld d 48 0 32) ∨ k = 0 ∨ 32 < k then
      failWith s stDescInvalid
    else queueErg s d (dfld d 53 0 1))

/-- What R70 checks of ErgFps. -/
def infoErgFps (s : State) (d : Desc) : OpInfo :=
  { fields := [(16, 0, 32), (20, 0, 32), (24, 0, 64), (32, 0, 64), (40, 0, 32), (44, 0, 1)], cls := unitClass s d }

/-- ERG_FPS (R239, R243). -/
def execErgFps (d : Desc) (s : State) : Host.Outcome State Fault Refusal :=
  .next (runDesc s d (infoErgFps s d) fun s =>
    if 65536 < dfld d 16 0 32 ∨ 16384 < dfld d 20 0 32 ∨ dfld d 32 0 2 ≠ 0 then failWith s stDescInvalid
    else queueErg s d (dfld d 44 0 1))

/-- What R70 checks of ErgRules. -/
def infoErgRules (s : State) (d : Desc) : OpInfo :=
  { fields := [(16, 0, 64), (24, 0, 64), (32, 0, 64), (40, 0, 32), (44, 0, 3), (45, 0, 8)], cls := unitClass s d }

/-- ERG_RULES (R240, R241, R243). -/
def execErgRules (d : Desc) (s : State) : Host.Outcome State Fault Refusal :=
  .next (runDesc s d (infoErgRules s d) fun s =>
    let mode := dfld d 44 0 2
    let k := dfld d 45 0 8
    let ok := if mode = 0 then k == 1 || k == 3 || k == 5 else decide (mode ≤ 2) && (k == 2 || k == 3)
    if !ok ∨ dfld d 16 0 6 ≠ 0 ∨ dfld d 24 0 6 ≠ 0 ∨ dfld d 32 0 6 ≠ 0 then failWith s stDescInvalid
    else queueErg s d (dfld d 44 2 1))

/-- What R70 checks of ErgBev. -/
def infoErgBev (s : State) (d : Desc) : OpInfo :=
  { fields := [(16, 0, 64), (24, 0, 64), (32, 0, 16), (34, 0, 7), (35, 0, 1), (36, 0, 32), (40, 0, 64), (48, 0, 96), (60, 0, 32)], cls := unitClass s d }

/-- ERG_BEV (R242, R243). -/
def execErgBev (d : Desc) (s : State) : Host.Outcome State Fault Refusal :=
  .next (runDesc s d (infoErgBev s d) fun s =>
    let c := dfld d 32 0 16
    let size := fun (n : Nat) => n != 0 && decide (n ≤ 2048)
    if c = 0 ∨ 256 < c ∨ dfld d 34 0 2 = 3 ∨ dfld d 34 2 2 = 3 ∨ dfld d 34 4 2 = 3 ∨ !size (dfld d 60 0 16) ∨ !size (dfld d 62 0 16) then failWith s stDescInvalid
    else queueErg s d (dfld d 35 0 1))

/-- Execution of an operation by its opcode. -/
def runErg (s : State) (d : Desc) (w : Who) : Answer :=
  if dOpcode d = 0x0B01 then runKnn s d w
  else if dOpcode d = 0x0B02 then runFps s d w
  else if dOpcode d = 0x0B03 then runRules s d w
  else runBev s d w

/-- The operation of a unit executes and ends, and the unit starts the next; `ecc`: uncorrectable errors of its work store (R234, R244). -/
def execErgOperationEnd (unit ecc : Nat) (s : State) : Host.Outcome State Fault Refusal :=
  match s.geo.ergRun.find unit with
  | none => .next s
  | some (d, start) =>
    let s := { s with geo.ergRun := s.geo.ergRun.drop unit }
    let s := setErg s unit { ergOf s unit with opUs := min ((s.up - start) / 1000) 0xFFFF, lastEnd := s.up }
    if ecc ≠ 0 then
      let s := raise s { ergReport s (sevOf (volGuarded s unit)) unit stInternal with status := stInternal }
      .next (startErg (fwDone (finishDesc s d stInternal 0 0 0) d (152 + unit)) unit)
    else match runErg s d (ergWho s d unit) with
      | .done st res det fl s => .next (startErg (fwDone (finishDesc s d st res det fl) d (152 + unit)) unit)
      | .later s => .next s

end Sys2Proof.Machine
end

