-- ==== Sys2Proof/Machine/Grid.lean ====
section
/-! DEFINITION. Site grids: configuration, the steps of an epoch, the consistency monitor and the output record (spec/11_grids_fusion.md R246 to R268). -/

namespace Sys2Proof.Machine

/-! ### Geometry and buffers (R246 to R248, R252) -/

def gridW (x : GridCfg) (k : Nat) : Nat := (x.w + 2 ^ k - 1) / 2 ^ k
def gridH (x : GridCfg) (k : Nat) : Nat := (x.h + 2 ^ k - 1) / 2 ^ k
def regCols (x : GridCfg) : Nat := gridW x x.regionLog2
def regRows (x : GridCfg) : Nat := gridH x x.regionLog2
def regCount (x : GridCfg) : Nat := regCols x * regRows x

/-- Region of a cell of level k. -/
def regionAt (x : GridCfg) (k col row : Nat) : Nat := row / 2 ^ (x.regionLog2 - k) * regCols x + col / 2 ^ (x.regionLog2 - k)

/-- g_k. -/
def cellSize (x : GridCfg) (k : Nat) : Nat := f32Mul x.g0 (f32Ratio (2 ^ k : Nat) 1)

/-- Centre of a cell on one axis. -/
def cellCentre (x : GridCfg) (k i origin : Nat) : Nat := f32Fma (halfOf (i : Int)) (cellSize x k) origin

/-- Round up to 64 KiB. -/
def up64K (n : Nat) : Nat := (n + 65535) / 65536 * 65536

/-- B of R248, and the addresses of the work area's parts (R252). -/
def stateBytes (x : GridCfg) : Nat := up64K (x.w * x.h * x.c * bevSize x.format)
def bufAt (x : GridCfg) (i : Nat) : Nat := x.base + i * stateBytes x
def liftAt (x : GridCfg) : Nat := x.base + 2 * stateBytes x
def rowsAt (x : GridCfg) : Nat := liftAt x + up64K (x.w * x.h * x.cf)
def planeAt (x : GridCfg) : Nat := rowsAt x + up64K (262152 * x.ptStride)
def covAt (x : GridCfg) : Nat := planeAt x + up64K (x.w * x.h * (x.cp + 1) * bevSize x.ptFormat)
def evidenceAt (x : GridCfg) : Nat := covAt x + up64K (x.w * x.h * 8)
def tableAt (x : GridCfg) : Nat := evidenceAt x + up64K (32 * regCount x * 4)
def areaEnd (x : GridCfg) : Nat := tableAt x + up64K (regCount x * 32)

/-- Size of an output slot (R267). -/
def outCells (x : GridCfg) (o : GridOut) (k : Nat) : Nat := (64 + gridW x k * gridH x k * o.count * bevSize o.format + 63) / 64 * 64
def outSize (x : GridCfg) (o : GridOut) : Nat := up64K (outCells x o 0 + regCount x * 32)

/-! ### Configuration (R250, R251, R253, R265, R267) -/

def gridGuarded (s : State) (g : Nat) : Bool := (s.cfg.grids.find g).any (·.guarded) || s.sec.image.any (fun i => (i.grids.find g).isSome)

/-- The ranges of R251. -/
def gridOk (s : State) (x : GridCfg) : Bool :=
  let dim := fun (n : Nat) => n != 0 && decide (n ≤ 2048)
  decide (x.format ≤ 2) && decide (3 ≤ x.regionLog2) && decide (x.regionLog2 ≤ 6) && decide (x.reefMax + 1 ≤ x.regionLog2)
    && dim x.w && dim x.h && x.c != 0 && decide (x.c ≤ 256) && x.bins != 0 && decide (x.bins ≤ 16) && decide (x.cf ≤ 128) && decide (x.cp ≤ 64)
    && decide (x.ptFormat ≤ 2) && decide (x.ptReduce ≤ 2) && x.ptStride % 4 == 0 && f32Le 0x3C23D70A x.g0 && f32Le x.g0 0x42C80000
    && f32Lt 0 x.dz && x.base % 65536 == 0
    && (x.cp == 0 || (s.cfg.volumes.find x.ptUnit).any (fun v => v.cadence == x.cadence))

/-- The grid is configured, or work of a started epoch still has it (R28). -/
def gridInUse (s : State) (g : Nat) : Bool := (s.cfg.grids.find g).isSome || s.epochs.any (fun e => (e.cfg.grids.find g).isSome)

/-- What R70 checks of GridConfig. -/
def infoGridConfig (_ : State) (d : Desc) : OpInfo :=
  { fields := [(16, 0, 3), (16, 7, 1), (17, 0, 5), (18, 0, 7), (20, 0, 12), (22, 0, 12), (24, 0, 9), (26, 0, 5), (27, 0, 8), (28, 0, 7), (29, 0, 5), (30, 0, 16), (32, 0, 160), (56, 0, 48)], authority := didHost d }

/-- GRID_CONFIG (R250, R251). -/
def execGridConfig (d : Desc) (s : State) : Host.Outcome State Fault Refusal :=
  .next (runDesc s d (infoGridConfig s d) fun s =>
    let g := dfld d 16 0 3
    let old := s.cfg.grids.find g
    let x : GridCfg := { enable := dbit d 16 7, guarded := false, cadence := dfld d 17 0 5, format := dfld d 18 0 2, reefMax := dfld d 18 2 2, regionLog2 := dfld d 18 4 3, w := dfld d 20 0 12, h := dfld d 22 0 12, c := dfld d 24 0 9, bins := dfld d 26 0 5, cf := dfld d 27 0 8, cp := dfld d 28 0 7, ptFormat := dfld d 29 0 2, ptReduce := dfld d 29 2 2, ptUnit := dfld d 29 4 1, ptStride := dfld d 30 0 16, g0 := dfld d 32 0 32, x0 := dfld d 36 0 32, y0 := dfld d 40 0 32, z0 := dfld d 44 0 32, dz := dfld d 48 0 32, base := dfld d 56 0 48, did := d.did, sources := (old.map (·.sources)).getD [], out := old.bind (·.out) }
    if gridGuarded s g then failWith s stNotAuth
    else if !gridOk s x then failWith s stDescInvalid
    else okWith { s with cfg.grids := s.cfg.grids.put g x, geo.grids := if gridInUse s g then s.geo.grids else s.geo.grids.drop g } (areaEnd x - x.base))

/-- What R70 checks of GridSource. -/
def infoGridSource (_ : State) (d : Desc) : OpInfo :=
  { fields := [(16, 0, 3), (17, 0, 5), (17, 7, 1), (18, 0, 7), (19, 0, 1), (19, 3, 5), (20, 0, 256), (52, 0, 12), (54, 0, 12), (56, 0, 48)], authority := didHost d }

/-- GRID_SOURCE (R253). -/
def execGridSource (d : Desc) (s : State) : Host.Outcome State Fault Refusal :=
  .next (runDesc s d (infoGridSource s d) fun s =>
    let g := dfld d 16 0 3
    let k := dfld d 18 0 7
    let y : GridSrc := { stream := k, lift := dbit d 19 0, stride := dfld d 19 3 5, tolAbs := dfld d 20 0 32, tolRel := dfld d 24 0 32, fx := dfld d 28 0 32, fy := dfld d 32 0 32, cx := dfld d 36 0 32, cy := dfld d 40 0 32, k1 := dfld d 44 0 32, k2 := dfld d 48 0 32, wf := dfld d 52 0 12, hf := dfld d 54 0 12, base := dfld d 56 0 48 }
    let slot := dfld d 17 0 5
    if gridGuarded s g then failWith s stNotAuth
    else match s.cfg.grids.find g with
      | none => failWith s stDescInvalid
      | some x =>
        if !dbit d 17 7 then okWith { s with cfg.grids := s.cfg.grids.put g { x with sources := x.sources.drop slot } } 0
        else
          let fits : Bool := match s.cfg.streams.find k with
            | some c => c.mount.isSome && (!y.lift || (c.kind == kindCamera && y.stride != 0))
            | none => false
          if !fits ∨ !f32Le 0 y.tolAbs ∨ !f32Le 0 y.tolRel ∨ y.base % 65536 ≠ 0 then failWith s stDescInvalid
          else okWith { s with cfg.grids := s.cfg.grids.put g { x with sources := x.sources.put slot y } } 0)

/-- What R70 checks of GridOutput. -/
def infoGridOutput (_ : State) (d : Desc) : OpInfo :=
  { fields := [(16, 0, 3), (17, 0, 4), (18, 0, 2), (20, 0, 9), (22, 0, 9), (24, 0, 32), (32, 0, 48)], authority := didHost d }

/-- GRID_OUTPUT (R267). -/
def execGridOutput (d : Desc) (s : State) : Host.Outcome State Fault Refusal :=
  .next (runDesc s d (infoGridOutput s d) fun s =>
    let g := dfld d 16 0 3
    let o : GridOut := { slots := dfld d 17 0 4, format := dfld d 18 0 2, first := dfld d 20 0 9, count := dfld d 22 0 9, fill := dfld d 24 0 32, base := dfld d 32 0 48, did := d.did }
    if gridGuarded s g then failWith s stNotAuth
    else match s.cfg.grids.find g with
      | none => failWith s stDescInvalid
      | some x =>
        if o.slots < 2 ∨ 8 < o.slots ∨ 2 < o.format ∨ x.c < o.first + o.count ∨ o.base % 65536 ≠ 0 then failWith s stDescInvalid
        else okWith { s with cfg.grids := s.cfg.grids.put g { x with out := some o } } (outSize x o))

/-- What R70 checks of GridArea. -/
def infoGridArea (_ : State) (d : Desc) : OpInfo :=
  { fields := [(16, 0, 12), (18, 0, 3), (18, 7, 1), (20, 0, 8), (22, 0, 8), (24, 0, 8), (26, 0, 8), (28, 0, 32)], authority := didHost d }

/-- GRID_AREA (R265). -/
def execGridArea (d : Desc) (s : State) : Host.Outcome State Fault Refusal :=
  .next (runDesc s d (infoGridArea s d) fun s =>
    let f := dfld d 16 0 12
    let g := dfld d 18 0 3
    let a : Area := { grid := g, required := dbit d 18 7, col0 := dfld d 20 0 8, row0 := dfld d 22 0 8, col1 := dfld d 24 0 8, row1 := dfld d 26 0 8, unseenMax := dfld d 28 0 32 }
    match s.cfg.flows.find f, s.cfg.grids.find g with
    | some x, some _ => if x.guarded then failWith s stNotAuth else okWith { s with cfg.areas := s.cfg.areas.put (f * 8 + g) a } 0
    | some x, none => failWith s (if x.guarded then stNotAuth else stDescInvalid)
    | none, _ => failWith s stDescInvalid)

/-- What R70 checks of GridDelete. -/
def infoGridDelete (_ : State) (d : Desc) : OpInfo :=
  { fields := [(16, 0, 3)], authority := didHost d }

/-- GRID_DELETE (R29, R250). -/
def execGridDelete (d : Desc) (s : State) : Host.Outcome State Fault Refusal :=
  .next (runDesc s d (infoGridDelete s d) fun s =>
    let g := dfld d 16 0 3
    if gridGuarded s g then failWith s stNotAuth
    else if s.cfg.flows.any (fun p => p.2.grid == some g) then failWith s stDescInvalid
    else if (s.cfg.grids.find g).isNone then okWith s 0
    else
      let s := { s with cfg.grids := s.cfg.grids.drop g, cfg.areas := s.cfg.areas.filter (fun p => p.1 % 8 ≠ g) }
      okWith { s with geo.grids := if gridInUse s g then s.geo.grids else s.geo.grids.drop g } 0)

/-! ### The consistency monitor (R258 to R263) -/

def f32Abs (a : Nat) : Nat := a % 0x80000000
def f32Max (a b : Nat) : Nat := if f32Lt a b then b else a

/-- Evidence of one region: slot and FP32 value, ascending slot. -/
abbrev Evidence := List (Nat × Nat)

/-- Two slots agree (R259). -/
def agrees (x : GridCfg) (a b : Nat × Nat) : Bool :=
  let tol := fun (p : Nat × Nat) => match x.sources.find p.1 with
    | some y => f32Add y.tolAbs (f32Mul y.tolRel (f32Abs p.2))
    | none => 0
  f32Le (f32Abs (f32Sub a.2 b.2)) (f32Max (tol a) (tol b))

/-- Every pair of a list agrees. -/
def allAgree (x : GridCfg) : Evidence → Bool
  | [] => true
  | a :: r => r.all (agrees x a) && allAgree x r

/-- The verdict on a region: state, voted out, contested (R259). -/
def vote (x : GridCfg) (cov : Evidence) : RegState × List Nat × List Nat :=
  let ids := fun (l : Evidence) => l.map (·.1)
  match cov with
  | [] => (.unseen, [], [])
  | [_] => (.single, [], [])
  | [a, b] => if agrees x a b then (.known, [], []) else (.contested, [], ids cov)
  | _ =>
    let out := cov.filter (fun a => decide (cov.length - 1 < 2 * (cov.filter (fun b => b.1 != a.1 && !agrees x a b)).length))
    let surv := cov.filter (fun a => !out.contains a)
    if 2 ≤ surv.length ∧ allAgree x surv then (if out.isEmpty then .known else .voted, ids out, [])
    else if 2 ≤ surv.length then (.contested, [], ids surv)
    else (.contested, [], ids cov)

/-- FP32 mean, ascending slot; NaN of nothing. -/
def consensusOf : List Nat → Nat
  | [] => 0x7FC00000
  | v :: vs => f32Div (vs.foldl f32Add v) (f32Ratio ((vs.length + 1 : Nat) : Int) 1)

/-- A region table row (R260). -/
def regionRow (x : GridCfg) (tov last : Nat) (cov : Evidence) : RegionRow :=
  let v := vote x cov
  let used := cov.filter (fun p => !v.2.1.contains p.1 && !v.2.2.contains p.1)
  let seen := v.1 == .single || v.1 == .known || v.1 == .voted
  { cov := cov.map (·.1), votedOut := v.2.1, contested := v.2.2, st := v.1, m := cov.length, lastSeen := if seen then tov else last,
    consensus := if seen then consensusOf (used.map (·.2)) else 0x7FC00000 }

def RegState.code : RegState → Nat
  | .unseen => 0 | .single => 1 | .known => 2 | .voted => 3 | .contested => 4

def slotBits (l : List Nat) : Nat := l.foldl (fun a s => a ||| 2 ^ s) 0

def RegionRow.bytes (r : RegionRow) : List Byte :=
  leBytes 4 (slotBits r.cov) ++ leBytes 4 (slotBits r.votedOut) ++ leBytes 4 (slotBits r.contested) ++ leBytes 1 r.st.code ++ leBytes 1 r.m ++ leBytes 2 0
    ++ leBytes 8 r.lastSeen ++ leBytes 4 r.consensus ++ leBytes 4 0

/-- Requester of a grid's work. -/
def gridWho (e : Epoch) (g : Nat) (x : GridCfg) : Who :=
  { did := x.did, guarded := x.guarded, kind := 13, index := g, flows := ((e.carrier g).map (·.flow)).toList }

/-- Slots whose evidence counts: stream ACTIVE with a usable member and an available pose (R256, R258, R262). -/
def countingSlots (e : Epoch) (t : EpochTable) (p : PoseTable) (x : GridCfg) : List Nat :=
  (x.sources.filter (fun y => e.active.contains y.2.stream && (t.entry y.2.stream).any (fun z => !z.disp.gone)
    && !e.badStreams.contains y.2.stream && !poseLost e t p.poses y.2.stream)).map (·.1)

/-- Evidence planes of the counting slots: entries that are finite. -/
def readEvidence (s : State) (w : Who) (x : GridCfg) (slots : List Nat) : List (Nat × List Byte) × State :=
  slots.foldl (fun (a : List (Nat × List Byte) × State) k =>
    let r := devRead a.2 w (evidenceAt x + k * regCount x * 4) (regCount x * 4)
    if r.1 = stOk then (a.1 ++ [(k, r.2.1)], r.2.2) else (a.1, r.2.2)) ([], s)

def evidenceIn (planes : List (Nat × List Byte)) (q : Nat) : Evidence :=
  planes.filterMap (fun p => let v := ofLe ((p.2.drop (4 * q)).take 4); if f32Finite v then some (p.1, v) else none)

def gridOf (s : State) (g : Nat) : Grid := Tbl.at Grid.reset s.geo.grids g
def setGrid (s : State) (g : Nat) (y : Grid) : State := { s with geo.grids := s.geo.grids.put g y }

/-- Streams of slots contested anywhere enter CONTESTED when the monitor ends (R261, R263): the state and the entries. -/
def contestSlots (s : State) (x : GridCfg) (slots : List Nat) : State × Nat :=
  slots.foldl (fun (a : State × Nat) k => match x.sources.find k with
    | some y => if (streamOf a.1 y.stream).contested.isSome then a else (contestStream a.1 y.stream 0x010D, a.2 + 1)
    | none => a) (s, 0)

/-- The grid input of a flow of the grid's own epoch (R265, R266). -/
def ownGridInput (s : State) (e : Epoch) (g : Nat) (x : GridCfg) (rows : List RegionRow) (r : FlowRun) : FlowRun :=
  let reads := (e.cfg.flows.find r.flow).any (fun y => y.grid == some g)
    || ((e.cfg.areas.find (r.flow * 8 + g)).isSome && !r.taken.any (fun y => (e.cfg.flows.find y.flow).any (fun z => z.grid == some g)))
  if !reads ∨ !r.runs ∨ r.ended then r else
  let a := areaOf e.cfg r.flow g
  let v := gridInput a x rows (e.tov s)
  if !v.1 ∧ !v.2 then r
  else if a.required ∨ r.guarded then
    failMissing s { r with runs := false, missing := true, status := if v.1 then stContested else stInputSuspect, old := none, partial_ := false }
  else { r with partial_ := true, degraded := true }

/-- Step 3: joints, votes, contested streams, the region table and the grid inputs of flows (R254, R259 to R263, R266). -/
def gridMonitor (s : State) (e : Epoch) (g : Nat) (x : GridCfg) : State :=
  let s := compareJoints s e
  let e := (epochOf s e.cadence e.epoch).getD e
  match tableOf s e.cadence e.epoch, poseTableOf s e.cadence e.epoch with
  | some t, some p =>
    let w := gridWho e g x
    let r := readEvidence s w x (countingSlots e t p x)
    let y := gridOf s g
    let rows := (List.range (regCount x)).map (fun q => regionRow x (e.tov s) (Tbl.at 0 y.lastSeen q) (evidenceIn r.1 q))
    let s := (devWrite r.2 w (tableAt x) (rows.flatMap RegionRow.bytes)).2
    let out := (rows.flatMap (·.votedOut)).eraseDups
    let s := (List.range 32).foldl (fun s k => match x.sources.find k with
      | some y => if out.contains k then raise s { streamReport s sevInfo y.stream 0x010C with guarded := x.guarded } else s
      | none => s) s
    let c := contestSlots s x ((List.range 32).filter (fun k => rows.any (fun r => r.contested.contains k)))
    let s := setGrid c.1 g { gridOf c.1 g with
      regions := rows
      lastSeen := (rows.zipIdx).foldl (fun (a : Tbl Nat) r => if r.1.lastSeen = 0 then a else a.put r.2 r.1.lastSeen) y.lastSeen
      contested := (rows.filter (fun r => r.st == .contested)).length
      unseen := (rows.filter (fun r => r.st == .unseen)).length
      voted := min (rows.foldl (fun n r => n + r.votedOut.length) 0) 0xFFFF
      contests := satAdd 16 y.contests c.2
      fuseAt := s.now }
    endFlows (updEpoch s e.cadence e.epoch (fun e => { e with flows := e.flows.map (ownGridInput s e g x rows) })) e.cadence e.epoch
  | _, _ => s

/-! ### State buffers (R248, R249) -/

/-- The buffer of the latest complete state: its number, epoch and level. -/
def readBuf (y : Grid) : Option (Nat × Nat × Nat) :=
  match y.buf0, y.buf1 with
  | some a, some b => if a.1 ≤ b.1 then some (1, b) else some (0, a)
  | some a, none => some (0, a)
  | none, some b => some (1, b)
  | none, none => none

/-- The buffer that an epoch writes; buffer 0 where both are empty (log entry 68). -/
def writeIdx (y : Grid) : Nat :=
  match readBuf y with
  | some (0, _, _) => 1
  | _ => 0

/-- One channel of a cell of a stored state. -/
def stateElem (x : GridCfg) (k : Nat) (bs : List Byte) (col row ch : Nat) : Nat :=
  let i := ((row * gridW x k + col) * x.c + ch) * bevSize x.format
  ofLe ((bs.drop i).take (bevSize x.format))

/-- FP32 of an element of a format code. -/
def toF32 (code v : Nat) : Nat := if code = 0 then v else (convF fp32 .arith none (decodeF (bevFormat code) v)).1

/-- One channel of a cell at level k of a state of level j (R249; log entry 69: the sum runs in row order). -/
def resampled (x : GridCfg) (j k : Nat) (bs : List Byte) (col row ch : Nat) : Nat :=
  if k ≤ j then stateElem x j bs (col / 2 ^ (j - k)) (row / 2 ^ (j - k)) ch
  else
    let n := 2 ^ (k - j)
    let vs := (List.range n).flatMap (fun r => (List.range n).filterMap (fun c =>
      if col * n + c < gridW x j ∧ row * n + r < gridH x j then some (toF32 x.format (stateElem x j bs (col * n + c) (row * n + r) ch)) else none))
    let mean := consensusOf vs
    if x.format = 0 then mean else (convF (bevFormat x.format) .arith none (decodeF fp32 mean)).1

/-- Cells of a level in row order. -/
def gridCells (x : GridCfg) (k : Nat) : List (Nat × Nat) :=
  (List.range (gridH x k)).flatMap (fun r => (List.range (gridW x k)).map (fun c => (c, r)))

/-- The bytes of one cell of a state of level j, seen at level k. -/
def cellBytes (x : GridCfg) (j k : Nat) (bs : List Byte) (c : Nat × Nat) : List Byte :=
  (List.range x.c).flatMap (fun ch => leBytes (bevSize x.format) (resampled x j k bs c.1 c.2 ch))

/-- Read a whole state. -/
def readState (s : State) (w : Who) (x : GridCfg) (buf k : Nat) : Nat × List Byte × State :=
  devRead s w (bufAt x buf) (gridW x k * gridH x k * x.c * bevSize x.format)

/-- A status of the grid's own work enters its flow's record (R78). -/
def gridStatus (s : State) (e : Epoch) (g st : Nat) : State :=
  if st = stOk then s else
  updEpoch s e.cadence e.epoch (fun e => match e.carrier g with
    | some r => e.updFlow r.flow (fun r => if usable r.status then { r with status := st } else r)
    | none => e)

/-- Step 4: resample the read state into the write buffer where the level changed (R249). -/
def gridResample (s : State) (e : Epoch) (g : Nat) (x : GridCfg) (k : Nat) : State :=
  let y := gridOf s g
  match readBuf y with
  | none => s
  | some (b, _, j) =>
    if j = k then s else
    let w := gridWho e g x
    let r := readState s w x b j
    if r.1 ≠ stOk then gridStatus r.2.2 e g r.1 else
    let o := devWrite r.2.2 w (bufAt x (writeIdx y)) ((gridCells x k).flatMap (cellBytes x j k r.2.1))
    gridStatus o.2 e g o.1

/-! ### Lifting and points (R255 to R257) -/

/-- A slot is usable in a region. -/
def usableIn (rows : List RegionRow) (q slot : Nat) : Bool :=
  (rows[q]?).any (fun r => r.cov.contains slot && !r.votedOut.contains slot && !r.contested.contains slot)

/-- The image point (u, v) of a sample of a slot, where it is visible (R255). -/
def liftPoint (x : GridCfg) (y : GridSrc) (pose : Pose) (k : Nat) (c : Nat × Nat) (j : Nat) : Option (Nat × Nat) :=
  let z := f32Add x.z0 (f32Mul (f32Ratio (j : Nat) 1) x.dz)
  let p := pose.inverse.map (cellCentre x k c.1 x.x0, cellCentre x k c.2 x.y0, z)
  if !f32Le 0x3DCCCCCD p.2.2 then none else
  let a := f32Div p.1 p.2.2
  let b := f32Div p.2.1 p.2.2
  let r2 := f32Add (f32Mul a a) (f32Mul b b)
  let f := f32Add f32One (f32Mul r2 (f32Add y.k1 (f32Mul y.k2 r2)))
  let px := fun (m a c : Nat) => f32Sub (f32Div (f32Add (f32Add (f32Mul (f32Mul m a) f) c) f32Half) (f32Ratio (y.stride : Nat) 1)) f32Half
  let u := px y.fx a y.cx
  let v := px y.fy b y.cy
  let last := fun (n : Nat) => f32Ratio ((n : Int) - 1) 1
  if f32Le 0 u && f32Le u (last y.wf) && f32Le 0 v && f32Le v (last y.hf) then some (u, v) else none

/-- The corrected sensor pose of a stream's first CAMERA query (R255). -/
def cameraPose (t : EpochTable) (p : PoseTable) (k : Nat) : Option Pose :=
  (p.poses.find? (fun r => r.stream == k && r.status == 0 && (t.queries[r.query]?).any (fun q => q.kind == 1))).map (·.sensor)

/-- A lifting slot in an epoch: its pose, and its feature map with the columns and rows (R253, R255). -/
structure LiftMap where
  slot : Nat
  src : GridSrc
  pose : Pose
  bytes : List Byte

/-- The feature maps of the slots that lift in an epoch: status, maps, state. -/
def liftMaps (s : State) (w : Who) (e : Epoch) (t : EpochTable) (p : PoseTable) (x : GridCfg) (rows : List RegionRow) : Nat × List LiftMap × State :=
  (x.sources.filter (fun y => y.2.lift && rows.any (fun r => r.cov.contains y.1))).foldl (fun (a : Nat × List LiftMap × State) y =>
    if a.1 ≠ stOk then a else
    match cameraPose t p y.2.stream with
    | none => a
    | some pose =>
      let n := y.2.wf * y.2.hf * x.cf
      let r := devRead a.2.2 w (y.2.base + e.epoch % 2 * up64K n) n
      (r.1, a.2.1 ++ [{ slot := y.1, src := y.2, pose := pose, bytes := r.2.1 }], r.2.2)) (stOk, [], s)

/-- Visible samples of a cell over the lifting slots that are usable in its region: map and image point. -/
def liftSamples (x : GridCfg) (rows : List RegionRow) (maps : List LiftMap) (k : Nat) (c : Nat × Nat) : List (LiftMap × (Nat × Nat)) :=
  (maps.filter (fun m => usableIn rows (regionAt x k c.1 c.2) m.slot)).flatMap (fun m =>
    ((List.range x.bins).filterMap (liftPoint x m.src m.pose k c)).map (fun q => (m, q)))

/-- Exact value of an FP8-E4M3 feature, none for a NaN. -/
def featAt (x : GridCfg) (m : LiftMap) (col row ch : Nat) : Option Rat :=
  match decodeF e4m3 ((m.bytes.getD ((row * m.src.wf + col) * x.cf + ch) 0).toNat) with
  | .fin n k h => some (ratOfV (.fin n k h))
  | _ => none

/-- The four pixels around an image point with their bilinear weights. -/
def corners (y : GridSrc) (q : Nat × Nat) : List ((Nat × Nat) × Rat) :=
  let u := ratOfV (decodeF fp32 q.1)
  let v := ratOfV (decodeF fp32 q.2)
  let i := u.floor.toNat
  let j := v.floor.toNat
  let a : Rat := u - (u.floor : Rat)
  let b : Rat := v - (v.floor : Rat)
  let i' := min (i + 1) (y.wf - 1)
  let j' := min (j + 1) (y.hf - 1)
  [((i, j), (1 - a) * (1 - b)), ((i', j), a * (1 - b)), ((i, j'), (1 - a) * b), ((i', j'), a * b)]

/-- FP8-E4M3 of a rational, nearest even and saturating. -/
def ratE4m3 (r : Rat) : Nat :=
  let v := min 448 (max (-448) r)
  (divV e4m3 (intV v.num) (intV (v.den : Int))).1

/-- One channel of the lift of a cell: the mean of its samples. FP32 rounds on the way in an order that R255 leaves open, so that a free value
is taken where it lies within those roundings (log entry 70). -/
def liftByte (x : GridCfg) (samples : List (LiftMap × (Nat × Nat))) (ch cand : Nat) : Nat :=
  let fs := samples.flatMap (fun z => (corners z.1.src z.2).map (fun c => (featAt x z.1 c.1.1 c.1.2 ch, c.2)))
  if samples.isEmpty then 0
  else if fs.any (fun f => f.1.isNone) then nanBits e4m3
  else
    let n : Rat := samples.length
    let mean : Rat := fs.foldl (fun a f => a + (f.1.getD 0) * f.2) 0 / n
    let slack : Rat := fs.foldl (fun a f => max a |f.1.getD 0|) 0 * (n + 8) / 2 ^ 24
    let val := fun (b : Nat) => ratOfV (decodeF e4m3 b)
    let c := cand % 256
    match decodeF e4m3 c with
    | .fin _ _ _ => if val (ratE4m3 (mean - slack)) ≤ val c ∧ val c ≤ val (ratE4m3 (mean + slack)) then c else ratE4m3 mean
    | _ => ratE4m3 mean

def regState (rows : List RegionRow) (q : Nat) : Nat := ((rows[q]?).map (fun r => r.st.code)).getD 0

/-- A coverage entry (R252). -/
def covBytes (samples points st : Nat) (excluded : Bool) : List Byte :=
  leBytes 2 (min samples 65535) ++ leBytes 2 (min points 65535) ++ leBytes 1 st ++ leBytes 1 (placeB excluded 0) ++ leBytes 2 0

/-- Step 5: lift planes and coverage (R252, R255). -/
def gridLift (s : State) (e : Epoch) (g : Nat) (x : GridCfg) (k : Nat) : State :=
  match tableOf s e.cadence e.epoch, poseTableOf s e.cadence e.epoch with
  | some t, some p =>
    let w := gridWho e g x
    let rows := (gridOf s g).regions
    let m := if x.cf = 0 then (stOk, [], s) else liftMaps s w e t p x rows
    if m.1 ≠ stOk then gridStatus m.2.2 e g m.1 else
    let cells := (gridCells x k).map (fun c => (c, liftSamples x rows m.2.1 k c))
    let plane := (cells.zipIdx).flatMap (fun c => (List.range x.cf).map (fun ch =>
      BitVec.ofNat 8 (liftByte x c.1.2 ch (Config.freeByte m.2.2.fresh (c.2 * x.cf + ch)).toNat)))
    let a := devWrite (tickFresh m.2.2) w (liftAt x) plane
    let b := devWrite a.2 w (covAt x) (cells.flatMap (fun c => covBytes c.2.length 0 (regState rows (regionAt x k c.1.1 c.1.2)) false))
    gridStatus (gridStatus b.2 e g a.1) e g b.1
  | _, _ => s

/-- A region takes no point features: a SCAN slot of a member of the volume is not usable there (R257). -/
def pointsBarred (e : Epoch) (x : GridCfg) (rows : List RegionRow) (q : Nat) : Bool :=
  x.sources.any (fun y => (e.cfg.streams.find y.2.stream).any (fun c => c.kind == kindScan)
    && (e.cfg.volumes.find x.ptUnit).any (fun v => v.members.any (fun m => m.2 == y.2.stream)) && !usableIn rows q y.1)

/-- Step 6: the scatter of the volume's site list onto the point plane (R257; log entry 71: rows in pt_format). -/
def gridScatter (s : State) (e : Epoch) (g : Nat) (x : GridCfg) (k : Nat) : State :=
  match e.cfg.volumes.find x.ptUnit with
  | none => s
  | some v =>
    if x.cp = 0 then s else
    let w := gridWho e g x
    let rows := (gridOf s g).regions
    let r := bevCells s w { list := v.siteBase + e.epoch % 2 * 0x410000, feats := rowsAt x, c := x.cp, inF := x.ptFormat, outF := x.ptFormat, red := x.ptReduce, count := true, stride := x.ptStride, gx := x.x0, gy := x.y0, g := cellSize x k, w := gridW x k, h := gridH x k }
    if r.st ≠ stOk then gridStatus r.s e g r.st else
    let barred := fun (c : Nat × Nat) => pointsBarred e x rows (regionAt x k c.1 c.2)
    let cells := (gridCells x k).zip r.cells
    let a := devWrite r.s w (planeAt x) (cells.flatMap (fun c => if barred c.1 then List.replicate c.2.1.length 0 else c.2.1))
    let b := cells.zipIdx.foldl (fun (z : Nat × State) c =>
      if z.1 ≠ stOk then z
      else
        let u := devWrite z.2 w (covAt x + 8 * c.2 + 2) (leBytes 2 (min c.1.2.2 65535))
        if u.1 ≠ stOk then u else devWrite u.2 w (covAt x + 8 * c.2 + 5) [if barred c.1.1 then 1 else 0]) (a.1, a.2)
    gridStatus b.2 e g b.1

/-! ### Restore and output (R264, R267, R268) -/

/-- Step 8: contested regions take the read state, and the written state is complete (R248, R264). -/
def gridRestore (s : State) (e : Epoch) (g : Nat) (x : GridCfg) (k : Nat) : State :=
  let y := gridOf s g
  let w := gridWho e g x
  let b := writeIdx y
  let cells := ((gridCells x k).zipIdx).filter (fun c => regState y.regions (regionAt x k c.1.1 c.1.2) == 4)
  let s := match readBuf y with
    | none => s
    | some (i, _, j) =>
      if cells.isEmpty then s else
      let r := readState s w x i j
      if r.1 ≠ stOk then gridStatus r.2.2 e g r.1 else
      let o := cells.foldl (fun (z : Nat × State) c =>
        if z.1 ≠ stOk then z else devWrite z.2 w (bufAt x b + c.2 * x.c * bevSize x.format) (cellBytes x j k r.2.1 c.1)) (stOk, r.2.2)
      gridStatus o.2 e g o.1
  let y := gridOf s g
  setGrid s g { y with
    buf0 := if b = 0 then some (e.epoch, k) else y.buf0, buf1 := if b = 0 then y.buf1 else some (e.epoch, k)
    level := k, fuseUs := min ((s.now - y.fuseAt) / 1000) 0xFFFF }

/-- The header of an output record (R268). -/
def outHeader (s : State) (e : Epoch) (g : Nat) (y : Grid) (x : GridCfg) (o : GridOut) (k source : Nat) (held : Bool) : List Byte :=
  let truncated := x.cp != 0 && (e.carrier g).any (·.truncated)
  leBytes 8 e.epoch ++ leBytes 8 (e.tov s) ++ leBytes 8 source ++ leBytes 1 k ++ leBytes 1 o.format
    ++ leBytes 1 (placeB (decide (0 < k)) 0 + placeB held 1 + placeB (y.contested != 0) 2 + placeB truncated 3) ++ leBytes 1 0
    ++ leBytes 2 (gridW x k) ++ leBytes 2 (gridH x k) ++ leBytes 4 (cellSize x k) ++ leBytes 4 x.x0 ++ leBytes 4 x.y0
    ++ leBytes 2 o.count ++ leBytes 2 0 ++ leBytes 4 (regCount x) ++ leBytes 4 y.contested ++ leBytes 4 y.unseen ++ leBytes 4 0

/-- A slot of the output is held by a flow that consumes its record (R267). -/
def outHeld (s : State) (e : Epoch) (f : Nat) (o : GridOut) : Bool :=
  s.epochs.any (fun z => z.flows.any (fun r => !r.ended && r.taken.any (fun y => y.flow == f && y.result.any (fun q => q.epoch % o.slots == e.epoch % o.slots))))

/-- Requester of an output write. -/
def outWho (e : Epoch) (g : Nat) (x : GridCfg) (o : GridOut) : Who := { gridWho e g x with did := o.did }

/-- Step 9: write the output record of an epoch (R268). -/
def gridEmit (s : State) (e : Epoch) (g : Nat) (x : GridCfg) (o : GridOut) : State :=
  let y := gridOf s g
  match readBuf y with
  | none => s
  | some (b, _, k) =>
    let w := gridWho e g x
    let r := readState s w x b k
    if r.1 ≠ stOk then gridStatus r.2.2 e g r.1 else
    let cell := fun (c : Nat × Nat) =>
      if regState y.regions (regionAt x k c.1 c.2) = 4 then (List.range o.count).flatMap (fun _ => bevEncode o.format o.fill)
      else (List.range o.count).flatMap (fun ch => bevEncode o.format (toF32 x.format (stateElem x k r.2.1 c.1 c.2 (o.first + ch))))
    let body := outHeader s e g y x o k e.epoch false ++ (gridCells x k).flatMap cell
    let z := devWrite r.2.2 (outWho e g x o) (o.base + e.epoch % o.slots * outSize x o)
      (body ++ List.replicate (outCells x o k - body.length) 0 ++ y.regions.flatMap RegionRow.bytes)
    gridStatus (setGrid z.2 g { gridOf z.2 g with outs := (gridOf z.2 g).outs.put (e.epoch % o.slots) e.epoch }) e g z.1

/-- A HOLD fallback repeats the record of an earlier epoch (R268; log entry 72). -/
def gridHold (s : State) (e : Epoch) (g : Nat) (x : GridCfg) (o : GridOut) (source : Nat) : State :=
  let w := outWho e g x o
  let r := devRead s w (o.base + source % o.slots * outSize x o) (outSize x o)
  if r.1 ≠ stOk then r.2.2 else
  let old := r.2.1
  let flags := (old.getD 26 0).toNat
  let bytes := leBytes 8 e.epoch ++ leBytes 8 (e.tov s) ++ (old.drop 16).take 10 ++ leBytes 1 (flags ||| 2) ++ old.drop 27
  let z := devWrite r.2.2 w (o.base + e.epoch % o.slots * outSize x o) bytes
  setGrid z.2 g { gridOf z.2 g with outs := (gridOf z.2 g).outs.put (e.epoch % o.slots) source }

/-! ### The steps of an epoch (R254) -/

/-- Bound tasks of the grid's flow in a stage have ended (steps 2 and 7). -/
def gridTasksEnded (e : Epoch) (g stage : Nat) : Bool :=
  match e.carrier g with
  | some r => (e.tasksOf r.flow).all (fun h => (e.tasks.find h).isSome || !(e.cfg.tasks.find h).any (fun b => b.body.stage == stage))
  | none => true

/-- The grid's steps leave the epoch: its flow's work may now have ended. -/
def gridDone (s : State) (e : Epoch) (g : Nat) (keep : Bool) : State :=
  let y := gridOf s g
  let s := setGrid s g { y with running := if keep then y.running else none }
  let s := updEpoch s e.cadence e.epoch (fun e => { e with gridsDone := if e.gridsDone.contains g then e.gridsDone else e.gridsDone ++ [g] })
  releaseEpoch (endFlows s e.cadence e.epoch) e.cadence e.epoch

/-- A step of the grid has ended. -/
def gridStep (s : State) (g n step k : Nat) : State := setGrid s g { gridOf s g with running := some (n, step, k) }

/-- A grid as an epoch starts with it: emptied by a configuration change since (R28, R249). -/
def gridFresh (y : Grid) (n : Nat) : Grid :=
  let changed := y.restarts.any (fun m => decide (m ≤ n))
  let y := { y with restarts := y.restarts.filter (fun m => decide (n < m)) }
  if changed then { y with buf0 := none, buf1 := none, regions := [], lastSeen := [] } else y

/-- Fill the evidence planes (step 1). -/
def gridClear (s : State) (e : Epoch) (g : Nat) (x : GridCfg) : State :=
  let o := devWrite s (gridWho e g x) (evidenceAt x) ((List.range (32 * regCount x)).flatMap (fun _ => leBytes 4 0x7FC00000))
  gridStatus o.2 e g o.1

/-- The step after `last`, run when its conditions hold. -/
def gridNext (s : State) (e : Epoch) (g : Nat) (x : GridCfg) (last k : Nat) : State :=
  if last = 1 then
    if gridTasksEnded e g 3 && e.geoEnd.isSome then gridStep (gridMonitor s e g x) g e.epoch 3 k else s
  else if last = 3 then gridStep (gridResample s e g x k) g e.epoch 4 k
  else if last = 4 then
    let s := gridLift s e g x k
    gridStep (setGrid s g { gridOf s g with stepAt := s.now }) g e.epoch 5 k
  else if last = 5 then
    let y := gridOf s g
    gridStep (gridScatter (setGrid s g { y with liftUs := min ((s.now - y.stepAt) / 1000) 0xFFFF }) e g x k) g e.epoch 6 k
  else if last = 6 then
    if !gridTasksEnded e g 4 then s else
    let s := gridRestore s e g x k
    let ns := if reefable x then s.now - (gridOf s g).fuseAt else 0
    let s := updEpoch s e.cadence e.epoch (fun e =>
      let e := { e with gridNs := max e.gridNs ns }
      if k = 0 then e else match e.carrier g with
        | some r => e.updFlow r.flow (fun r => { r with reefed := true })
        | none => e)
    let s := gridStep s g e.epoch 8 k
    if x.guarded then gridDone s e g ((e.carrier g).any (fun r => !r.written)) else s
  else
    match e.carrier g, x.out with
    | some r, some o =>
      if x.guarded ∨ outHeld s e r.flow o then s
      else gridDone (if r.written then s else gridEmit s e g x o) e g false
    | _, _ => if x.guarded then s else gridDone s e g false

/-- The epoch whose steps a grid starts next: the oldest whose ALIGN has ended and whose steps are to come. -/
def gridEpoch (s : State) (g : Nat) : Option Epoch :=
  s.epochs.find? (fun e => e.closed && !e.aborted && e.alignEnd.isSome && gridPending s e g && (e.carrier g).all (·.gated))

/-- FUSE_STEP_START: the next step of a grid (R254). -/
def execFuseStepStart (g : Nat) (s : State) : Host.Outcome State Fault Refusal :=
  match (gridOf s g).running with
  | none =>
    match gridEpoch s g with
    | none => .next s
    | some e => match e.cfg.grids.find g with
      | none => .next s
      | some x => .next (gridStep (gridClear (setGrid s g (gridFresh (gridOf s g) e.epoch)) e g x) g e.epoch 1 (if reefable x then min e.reef x.reefMax else 0))
  | some (n, last, k) =>
    match s.epochs.find? (fun e => e.epoch == n && (e.cfg.grids.find g).any (fun x => x.enable && x.cadence == e.cadence)) with
    | none => .next s
    | some e => match e.cfg.grids.find g with
      | none => .next s
      | some x => .next (gridNext s e g x last k)

end Sys2Proof.Machine
end

