-- ==== Sys2Proof/Machine/EngineScalar.lean ====
section
/-! DEFINITION. The issue of an engine instruction, and the scalar and tile SRAM instructions (spec/13_engine_instructions.md R301 to R308). -/

namespace Sys2Proof.Machine

/-- A thread may issue: it is READY, its next instruction is in its fetch buffer, and no END of it is held (R272, R273,
R292). -/
def mayIssue (s : State) (t : Nat) : Bool :=
  (thread s t).st == .ready && (thread s t).fetched == some ((thread s t).pc / 8)
    && !(thread s t).held.any (fun p => p.2 == .finish)

/-- Marks an uncorrectable error found by a read of tile SRAM (R278). -/
def tileUe : Nat := 0x1FF

/-- The error record of an uncorrectable SRAM error that a unit's read met (R278). -/
def ueReport (s : State) (w : Who) : State :=
  raise s { reportOf s (sevOf w.guarded) w.kind w.index stInternal with status := stInternal, guarded := w.guarded, did := w.did, flows := w.flows }

/-- Halt a thread with a status; an uncorrectable tile SRAM error halts it with INTERNAL and is reported (R278, R327). -/
def haltFor (s : State) (t st : Nat) : State :=
  if st = tileUe then haltThread (ueReport s (threadWho s t)) t stInternal
  else haltThread s t st

/-- Issue one instruction: its unused fields are checked, the pc passes it and the body acts; a status halts the
thread at the instruction (R301, R327). A thread that may not issue stays as it is. -/
def issue (s : State) (t : Nat) (e : Enc) (u : Uses) (body : State → Except Nat State) : State :=
  if !mayIssue s t then s
  else if !encOk u e then haltThread s t stDescInvalid
  else
    match body (updThread s t (fun x => { x with pc := x.pc + 1, issueNo := x.issueNo + 1, mma := none })) with
    | .ok s' => s'
    | .error st => haltFor s t st

/-- Write x[d]. -/
def writeX (s : State) (t : Nat) (d : BitVec 5) (w : W64) : State := updThread s t (fun x => x.setX d.toNat w)

/-- Set FLAGS bits. -/
def addFlags (s : State) (t fl : Nat) : State := updThread s t (fun x => { x with flags := x.flags ||| fl })

def xa (s : State) (t : Nat) (e : Enc) : W64 := (thread s t).xr e.a.toNat
def xb (s : State) (t : Nat) (e : Enc) : W64 := (thread s t).xr e.b.toNat
def xd (s : State) (t : Nat) (e : Enc) : W64 := (thread s t).xr e.d.toNat

/-- Second scalar operand: imm when i is set, else x[b] (R305). -/
def opB (s : State) (t : Nat) (e : Enc) : W64 := if e.i then immS e else xb s t e

/-- All bits of the immediate. -/
def immAll : Nat := 2 ^ 32 - 1

/-- Fields of a two-operand scalar instruction. -/
def usesScalar (e : Enc) : Uses :=
  { d := true, a := true, b := !e.i, i := true, imm := if e.i then immAll else 0 }

/-- A two-operand scalar instruction: x[d] := f a b, with the FLAGS bits it sets (R305). -/
def scalar2 (f : W64 → W64 → W64 × Nat) (t : Nat) (e : Enc) (s : State) : Host.Outcome State Fault Refusal :=
  .next (issue s t e (usesScalar e) fun s =>
    let r := f (xa s t e) (opB s t e)
    .ok (addFlags (writeX s t e.d r.1) t r.2))

/-- 1 or 0. -/
def boolW (b : Bool) : W64 := if b then 1 else 0

/-- NOP of the engines (R305). -/
def execEngNop (t : Nat) (e : Enc) (s : State) : Host.Outcome State Fault Refusal :=
  .next (issue s t e {} .ok)

/-- ADD (R305). -/
def execAdd (t : Nat) (e : Enc) (s : State) : Host.Outcome State Fault Refusal := scalar2 (fun a b => (a + b, 0)) t e s
/-- SUB (R305). -/
def execSub (t : Nat) (e : Enc) (s : State) : Host.Outcome State Fault Refusal := scalar2 (fun a b => (a - b, 0)) t e s
/-- AND (R305). -/
def execAnd (t : Nat) (e : Enc) (s : State) : Host.Outcome State Fault Refusal := scalar2 (fun a b => (a &&& b, 0)) t e s
/-- OR (R305). -/
def execOr (t : Nat) (e : Enc) (s : State) : Host.Outcome State Fault Refusal := scalar2 (fun a b => (a ||| b, 0)) t e s
/-- XOR (R305). -/
def execXor (t : Nat) (e : Enc) (s : State) : Host.Outcome State Fault Refusal := scalar2 (fun a b => (a ^^^ b, 0)) t e s
/-- SHL by b[5:0] (R305). -/
def execShl (t : Nat) (e : Enc) (s : State) : Host.Outcome State Fault Refusal := scalar2 (fun a b => (a <<< (b.toNat % 64), 0)) t e s
/-- SHR by b[5:0], logical (R305). -/
def execShr (t : Nat) (e : Enc) (s : State) : Host.Outcome State Fault Refusal := scalar2 (fun a b => (a >>> (b.toNat % 64), 0)) t e s
/-- SAR by b[5:0], arithmetic (R305). -/
def execSar (t : Nat) (e : Enc) (s : State) : Host.Outcome State Fault Refusal := scalar2 (fun a b => (a.sshiftRight (b.toNat % 64), 0)) t e s
/-- MIN, signed (R305). -/
def execMin (t : Nat) (e : Enc) (s : State) : Host.Outcome State Fault Refusal := scalar2 (fun a b => (if a.toInt ≤ b.toInt then a else b, 0)) t e s
/-- MAX, signed (R305). -/
def execMax (t : Nat) (e : Enc) (s : State) : Host.Outcome State Fault Refusal := scalar2 (fun a b => (if a.toInt ≤ b.toInt then b else a, 0)) t e s
/-- MINU (R305). -/
def execMinu (t : Nat) (e : Enc) (s : State) : Host.Outcome State Fault Refusal := scalar2 (fun a b => (if a.toNat ≤ b.toNat then a else b, 0)) t e s
/-- MAXU (R305). -/
def execMaxu (t : Nat) (e : Enc) (s : State) : Host.Outcome State Fault Refusal := scalar2 (fun a b => (if a.toNat ≤ b.toNat then b else a, 0)) t e s
/-- SLT (R305). -/
def execSlt (t : Nat) (e : Enc) (s : State) : Host.Outcome State Fault Refusal := scalar2 (fun a b => (boolW (decide (a.toInt < b.toInt)), 0)) t e s
/-- SLTU (R305). -/
def execSltu (t : Nat) (e : Enc) (s : State) : Host.Outcome State Fault Refusal := scalar2 (fun a b => (boolW (decide (a.toNat < b.toNat)), 0)) t e s
/-- SEQ (R305). -/
def execSeq (t : Nat) (e : Enc) (s : State) : Host.Outcome State Fault Refusal := scalar2 (fun a b => (boolW (a == b), 0)) t e s
/-- MUL, low 64 bits (R305). -/
def execMul (t : Nat) (e : Enc) (s : State) : Host.Outcome State Fault Refusal := scalar2 (fun a b => (a * b, 0)) t e s
/-- MULH, high 64 bits of the signed product (R305). -/
def execMulh (t : Nat) (e : Enc) (s : State) : Host.Outcome State Fault Refusal :=
  scalar2 (fun a b => (BitVec.ofInt 64 (a.toInt * b.toInt / 2 ^ 64), 0)) t e s
/-- MULHU, high 64 bits of the unsigned product (R305). -/
def execMulhu (t : Nat) (e : Enc) (s : State) : Host.Outcome State Fault Refusal :=
  scalar2 (fun a b => (BitVec.ofNat 64 (a.toNat * b.toNat / 2 ^ 64), 0)) t e s

/-- A divide or remainder: a divisor of 0 gives `z` and sets bit 1 of FLAGS (R305). -/
def divide (z f : W64 → W64 → W64) (a b : W64) : W64 × Nat := if b = 0 then (z a b, flDivZero) else (f a b, 0)

/-- DIV, toward zero (R305). -/
def execDiv (t : Nat) (e : Enc) (s : State) : Host.Outcome State Fault Refusal :=
  scalar2 (divide (fun _ _ => BitVec.allOnes 64) (fun a b => a.sdiv b)) t e s
/-- DIVU (R305). -/
def execDivu (t : Nat) (e : Enc) (s : State) : Host.Outcome State Fault Refusal :=
  scalar2 (divide (fun _ _ => BitVec.allOnes 64) (fun a b => a.udiv b)) t e s
/-- REM, with the sign of a (R305). -/
def execRem (t : Nat) (e : Enc) (s : State) : Host.Outcome State Fault Refusal :=
  scalar2 (divide (fun a _ => a) (fun a b => a.srem b)) t e s
/-- REMU (R305). -/
def execRemu (t : Nat) (e : Enc) (s : State) : Host.Outcome State Fault Refusal :=
  scalar2 (divide (fun a _ => a) (fun a b => a.umod b)) t e s

/-- MOVI (R305). -/
def execMovi (t : Nat) (e : Enc) (s : State) : Host.Outcome State Fault Refusal :=
  .next (issue s t e { d := true, imm := immAll } fun s => .ok (writeX s t e.d (immS e)))
/-- MOVHI (R305). -/
def execMovhi (t : Nat) (e : Enc) (s : State) : Host.Outcome State Fault Refusal :=
  .next (issue s t e { d := true, imm := immAll } fun s =>
    .ok (writeX s t e.d (BitVec.ofNat 64 (e.imm.toNat * 2 ^ 32 + (xd s t e).toNat % 2 ^ 32))))

/-- ENG cycles since the start of the instance (R306). -/
def engCycles (s : State) (x : Thread) : Nat := (engClock s - x.start) / 1000

/-- The special registers that can be read (R306). -/
def specialReg (s : State) (t : Nat) (k : Nat) : Option Nat :=
  let x := thread s t
  let w := threadWho s t
  match k with
  | 0 => some x.flags
  | 1 => some (x.issued + x.done * 65536)
  | 2 => some t
  | 3 => some x.seed.toNat
  | 4 => some (engCycles s x)
  | 5 => some ((if w.guarded then 3 else 0) + w.did * 16)
  | _ => none

/-- MFS (R305, R306). -/
def execMfs (t : Nat) (e : Enc) (s : State) : Host.Outcome State Fault Refusal :=
  .next (issue s t e { d := true, imm := 0xFF } fun s =>
    match specialReg s t (immBits e 0 8) with
    | some v => .ok (writeX s t e.d (BitVec.ofNat 64 v))
    | none => .error stDescInvalid)

/-- MTS: FLAGS and SEED can be written; 0 in SEED stores 1 (R306, R337). -/
def execMts (t : Nat) (e : Enc) (s : State) : Host.Outcome State Fault Refusal :=
  .next (issue s t e { a := true, imm := 0xFF } fun s =>
    let v := (xa s t e).toNat
    match immBits e 0 8 with
    | 0 => .ok (updThread s t (fun x => { x with flags := v % 128 }))
    | 3 => .ok (updThread s t (fun x => { x with seed := if v % 2 ^ 32 = 0 then 1 else BitVec.ofNat 32 v }))
    | _ => .error stDescInvalid)

/-- RDTIME: the ENG copy of DT64 (R305, R38). -/
def execRdtime (t : Nat) (e : Enc) (s : State) : Host.Outcome State Fault Refusal :=
  .next (issue s t e { d := true } fun s => .ok (writeX s t e.d (BitVec.ofNat 64 s.now)))

/-! ### Tile SRAM (R275 to R277, R307, R308) -/

/-- The resident code of a thread's program: base offset and bytes. -/
def codeRange (s : State) (t : Nat) : Option (Nat × Nat) := do
  let i ← instOf s t
  let r ← (engineOf s i.engine).resident.find? (fun r => r.handle == i.program)
  let p ← s.eng.programs.find i.program
  pure (r.base, p.codeBytes)

/-- Bytes [a, a + n) lie in a range. -/
def inRange (a n base len : Nat) : Bool := decide (base ≤ a) && decide (a + n ≤ base + len)

/-- A tile SRAM access of a thread is inside its window, or reads its program's resident code (R277). -/
def tileOk (s : State) (t a n : Nat) (write : Bool) : Bool :=
  match instOf s t with
  | none => false
  | some i => inRange a n i.window i.windowBytes ||
    (!write && match codeRange s t with
      | some (b, len) => inRange a n b len
      | none => false)

/-- Read tile SRAM of the thread's engine. -/
def tileRead (s : State) (t a n : Nat) : List Byte := Memory.reads s.mem (Space.key (.tile (engineNo t)) a) n

/-- Some 8-byte word that `n` bytes from key `k` touch holds an uncorrectable error (R278). -/
def badIn (s : State) (k n : Nat) : Bool := s.eng.bad.any (fun w => decide (k / 8 ≤ w) && decide (w ≤ (k + n - 1) / 8))

/-- Write tile SRAM of the thread's engine. -/
def tileWrite (s : State) (t a : Nat) (bs : List Byte) : State := sramWrite s (Space.key (.tile (engineNo t)) a) bs

/-- Address x[a] + imm. -/
def addrImm (s : State) (t : Nat) (e : Enc) : Nat := (xa s t e + immS e).toNat

/-- Status of a tile access of `n` bytes with alignment `al` (R307, R313, R327). -/
def tileCheck (s : State) (t a n al : Nat) (write : Bool) : Nat :=
  if a % al ≠ 0 then stDescInvalid
  else if !tileOk s t a n write then stFirewall
  else if !write && badIn s (Space.key (.tile (engineNo t)) a) n then tileUe
  else stOk

/-- Sign-extend an `8n`-bit number to 64 bits when asked. -/
def extendTo (n : Nat) (sign : Bool) (v : Nat) : W64 :=
  if sign then BitVec.ofInt 64 (signed (8 * n) v) else BitVec.ofNat 64 v

/-- LDT (R307). -/
def execLdt (t : Nat) (e : Enc) (s : State) : Host.Outcome State Fault Refusal :=
  .next (issue s t e { d := true, a := true, f := true, m := 1, imm := immAll } fun s =>
    if 3 < e.f.toNat then .error stDescInvalid else
    let n := 2 ^ e.f.toNat
    let a := addrImm s t e
    if tileCheck s t a n n false ≠ stOk then .error (tileCheck s t a n n false)
    else .ok (writeX s t e.d (extendTo n (mBit e 0) (ofLe (tileRead s t a n)))))

/-- STT (R307, R308). -/
def execStt (t : Nat) (e : Enc) (s : State) : Host.Outcome State Fault Refusal :=
  .next (issue s t e { a := true, b := true, f := true, imm := immAll } fun s =>
    if 3 < e.f.toNat then .error stDescInvalid else
    let n := 2 ^ e.f.toNat
    let a := addrImm s t e
    if tileCheck s t a n n true ≠ stOk then .error (tileCheck s t a n n true)
    else .ok (tileWrite s t a (leBytes n (xb s t e).toNat)))

/-- What ATADD and ATCAS share: the word is read and may be rewritten within one grant (R307, R308). -/
def atomic (f : W64 → W64 → Nat → Option Nat) (t : Nat) (e : Enc) (s : State) : Host.Outcome State Fault Refusal :=
  .next (issue s t e { d := true, a := true, b := true, f := true, imm := immAll } fun s =>
    if e.f.toNat ≠ 2 ∧ e.f.toNat ≠ 3 then .error stDescInvalid else
    let n := 2 ^ e.f.toNat
    let a := addrImm s t e
    if tileCheck s t a n n true ≠ stOk then .error (tileCheck s t a n n true)
    else if badIn s (Space.key (.tile (engineNo t)) a) n then .error tileUe
    else
      let w := ofLe (tileRead s t a n)
      let s' := match f (xd s t e) (xb s t e) w with
        | some v => tileWrite s t a (leBytes n v)
        | none => s
      .ok (writeX s' t e.d (BitVec.ofNat 64 w)))

/-- ATADD: the word plus x[b] (R307). -/
def execAtadd (t : Nat) (e : Enc) (s : State) : Host.Outcome State Fault Refusal :=
  atomic (fun _ b w => some (w + b.toNat)) t e s

/-- ATCAS: x[b] where the word equalled the previous x[d], compared at the access size (R307). -/
def execAtcas (t : Nat) (e : Enc) (s : State) : Host.Outcome State Fault Refusal :=
  atomic (fun d b w => if w = d.toNat % 2 ^ (8 * 2 ^ e.f.toNat) then some b.toNat else none) t e s

end Sys2Proof.Machine
end

