-- ==== Sys2Proof/Machine/EngineVector.lean ====
section
/-! DEFINITION. The vector instructions (spec/13_engine_instructions.md R309 to R313, spec/14_number_formats.md). -/

namespace Sys2Proof.Machine

/-- The lane types (R309). -/
inductive Lane where
  | fp32 | fp64 | int32
  deriving DecidableEq, Repr

def Lane.bits : Lane → Nat
  | .fp64 => 64
  | _ => 32

def Lane.count : Lane → Nat
  | .fp64 => 32
  | _ => 64

def Lane.fmt : Lane → Fmt
  | .fp64 => Machine.fp64
  | _ => Machine.fp32

/-- The lane type of code f (R302, R309). -/
def laneOf (f : Nat) : Option Lane := if f = 0 then some .fp32 else if f = 9 then some .fp64 else if f = 10 then some .int32 else none

/-- Elements of `w` bits of a vector register, element 0 first. -/
def elems (w n : Nat) (v : BitVec 2048) : List Nat := (List.range n).map (fun j => bitsOf v.toNat (w * j) w)

/-- Number of a list of `w`-bit elements. -/
def packE (w : Nat) : List Nat → Nat
  | [] => 0
  | x :: xs => x % 2 ^ w + 2 ^ w * packE w xs

def ofElems (w : Nat) (xs : List Nat) : BitVec 2048 := BitVec.ofNat 2048 (packE w xs)

/-- The mask of R309: all ones when no mask is enabled. -/
def maskOf (s : State) (t : Nat) (e : Enc) : Nat :=
  if !e.i && e.imm.getLsbD 5 then ((thread s t).xr (immBits e 0 5)).toNat else 2 ^ 64 - 1

/-- imm broadcast: as FP32 bits, as INT32, or as an FP32 value converted exactly to FP64 (R309; log entry 9). -/
def immLane (l : Lane) (e : Enc) : Nat :=
  match l with
  | .fp64 => (convF fp64 .arith none (decodeF fp32 e.imm.toNat)).1
  | _ => e.imm.toNat

/-- Second vector operand (R309). -/
def vecB (s : State) (t : Nat) (l : Lane) (e : Enc) : List Nat :=
  if e.i then List.replicate l.count (immLane l e) else elems l.bits l.count ((thread s t).vr e.b.toNat)

/-- Per lane: a new element and its flags. -/
abbrev LaneFn := Nat → Nat → Nat → Nat × Nat

/-- Apply a lane function to a, b and the old d under a mask (R309): elements and flags. -/
def mapLanes (f : LaneFn) (mask : Nat) : Nat → List Nat → List Nat → List Nat → List Nat × Nat
  | j, a :: as, b :: bs, d :: ds =>
    let r := mapLanes f mask (j + 1) as bs ds
    if mask.testBit j then
      let x := f a b d
      (x.1 :: r.1, x.2 ||| r.2)
    else (d :: r.1, r.2)
  | _, _, _, _ => ([], 0)

/-- Fields of a vector instruction with operands a and b or imm. -/
def usesVec (e : Enc) (b : Bool) : Uses :=
  { d := true, a := true, b := b && !e.i, i := b, f := true, imm := if e.i && b then immAll else 0x3F, vd := true, va := true, vb := b }

/-- A lane-by-lane instruction: `f` gives the lane function of each supported type (R310). -/
def lanewise (f : Lane → Option LaneFn) (b : Bool) (t : Nat) (e : Enc) (s : State) : Host.Outcome State Fault Refusal :=
  .next (issue s t e (usesVec e b) fun s =>
    match (laneOf e.f.toNat).bind (fun l => (f l).map (fun g => (l, g))) with
    | none => .error stFormat
    | some (l, g) =>
      let x := thread s t
      let r := mapLanes g (maskOf s t e) 0 (elems l.bits l.count (x.vr e.a.toNat)) (vecB s t l e) (elems l.bits l.count (x.vr e.d.toNat))
      .ok (addFlags (updThread s t (fun x => x.setV e.d.toNat (ofElems l.bits r.1))) t r.2))

/-- A floating-point operation of two values. -/
def fpLane (op : Fmt → FVal → FVal → Nat × Nat) (l : Lane) : LaneFn :=
  fun a b _ => op l.fmt (decodeF l.fmt a) (decodeF l.fmt b)

/-- An INT32 operation: no flags, modulo 2^32. -/
def intLane (op : Int → Int → Int) : LaneFn := fun a b _ => (unsigned 32 (op (signed 32 a) (signed 32 b)), 0)

/-- Floating-point lanes by `op`, INT32 lanes by `i`. -/
def arithLane (op : Fmt → FVal → FVal → Nat × Nat) (i : Int → Int → Int) (l : Lane) : Option LaneFn :=
  some (if l = .int32 then intLane i else fpLane op l)

def subV (f : Fmt) (x y : FVal) : Nat × Nat := addV f x y.negate

/-- VADD (R310). -/
def execVadd (t : Nat) (e : Enc) (s : State) : Host.Outcome State Fault Refusal := lanewise (arithLane addV (· + ·)) true t e s
/-- VSUB (R310). -/
def execVsub (t : Nat) (e : Enc) (s : State) : Host.Outcome State Fault Refusal := lanewise (arithLane subV (· - ·)) true t e s
/-- VMUL; INT32 keeps the low 32 bits (R310). -/
def execVmul (t : Nat) (e : Enc) (s : State) : Host.Outcome State Fault Refusal := lanewise (arithLane mulV (· * ·)) true t e s
/-- VFMA: a * b + v[d], one rounding (R310). -/
def execVfma (t : Nat) (e : Enc) (s : State) : Host.Outcome State Fault Refusal :=
  lanewise (fun l => if l = .int32 then none else some (fun a b d => fmaV l.fmt (decodeF l.fmt a) (decodeF l.fmt b) (decodeF l.fmt d))) true t e s
/-- VMIN (R310). -/
def execVmin (t : Nat) (e : Enc) (s : State) : Host.Outcome State Fault Refusal :=
  lanewise (fun l => some (if l = .int32 then intLane min else fun a b _ => minMaxF l.fmt false a b)) true t e s
/-- VMAX (R310). -/
def execVmax (t : Nat) (e : Enc) (s : State) : Host.Outcome State Fault Refusal :=
  lanewise (fun l => some (if l = .int32 then intLane max else fun a b _ => minMaxF l.fmt true a b)) true t e s
/-- VABS: the sign bit cleared; INT32 of -2^31 stays (R310, R332). -/
def execVabs (t : Nat) (e : Enc) (s : State) : Host.Outcome State Fault Refusal :=
  lanewise (fun l => some (if l = .int32 then intLane (fun a _ => |a|) else fun a _ _ => (a % 2 ^ (l.bits - 1), 0))) false t e s
/-- VNEG: the sign bit flipped, or the INT32 negation (R310, R332). -/
def execVneg (t : Nat) (e : Enc) (s : State) : Host.Outcome State Fault Refusal :=
  lanewise (fun l => some (if l = .int32 then intLane (fun a _ => -a) else fun a _ _ => (a ^^^ 2 ^ (l.bits - 1), 0))) false t e s
/-- VDIV (R310). -/
def execVdiv (t : Nat) (e : Enc) (s : State) : Host.Outcome State Fault Refusal :=
  lanewise (fun l => if l = .int32 then none else some (fpLane divV l)) true t e s
/-- VSQRT (R310). -/
def execVsqrt (t : Nat) (e : Enc) (s : State) : Host.Outcome State Fault Refusal :=
  lanewise (fun l => if l = .int32 then none else some (fun a _ _ => sqrtV l.fmt (decodeF l.fmt a))) false t e s

/-! VRCP, VRSQRT, VEXP2 and VLOG2: the special operands follow R330 to R340; on other operands the result is a free
value within the error bound of R310 (log entries 10 and 129). -/

/-- A free candidate where it passes a test, else the fallback. -/
def within (ok : Nat → Bool) (cand fallback : Nat) : Nat := if ok cand then cand else fallback

/-- Flags of an approximated result: bits 3 and 4 free, bit 6 from the result. -/
def approxFlags (op a r : Nat) : Nat :=
  (Config.vapproxFlags op a &&& (flUnderflow ||| flInexact)) |||
    (match decodeF fp32 r with
      | .fin _ _ _ => 0
      | _ => flNonFinite)

/-- 1/x of a finite non-zero x lies within one unit in the last place of c. -/
def rcpOk (x c : Nat) : Bool :=
  match decodeF fp32 x, decodeF fp32 c with
  | .fin nx m e, .fin nc k h =>
    let u := quantum fp32 k h
    -- |c - 1/x| ≤ 2^u, that is |c * x - 1| ≤ 2^u * |x|
    nx == nc && decide (k ≠ 0) &&
      (leD (2 ^ 0) 0 ((k * 2 ^ (h - min h u).toNat + 2 ^ (u - min h u).toNat) * m : Nat) (min h u + e)) &&
      (leD (((k * 2 ^ (h - min h u).toNat : Nat) : Int) - (2 ^ (u - min h u).toNat : Nat)) (min h u) 0 0 ||
        leD ((((k * 2 ^ (h - min h u).toNat : Nat) : Int) - (2 ^ (u - min h u).toNat : Nat)) * m) (min h u + e) 1 0)
  | _, _ => false

/-- One over a value: specials of R340, else a free value within one unit in the last place (R310). -/
def rcpLane : LaneFn := fun a _ _ =>
  match decodeF fp32 a with
  | .nan sig => nanOut fp32 sig
  | .inf n => (signBit fp32 n, 0)
  | .fin n m _ =>
    if m = 0 then (signBit fp32 n + infBits fp32, flNonFinite)
    else
      let exact := (divV fp32 (.fin false 1 0) (decodeF fp32 a)).1
      let r := within (rcpOk a) (Config.vrcp a % 2 ^ 32) exact
      (r, approxFlags 0 a r)

/-- 1/sqrt(x) of a positive x lies within one unit in the last place of c: (c-u)^2 x ≤ 1 ≤ (c+u)^2 x. -/
def rsqrtOk (x c : Nat) : Bool :=
  match decodeF fp32 x, decodeF fp32 c with
  | .fin _ m e, .fin nc k h =>
    let u := quantum fp32 k h
    let b := min h u
    let hi : Nat := k * 2 ^ (h - b).toNat + 2 ^ (u - b).toNat
    let lo : Nat := k * 2 ^ (h - b).toNat - 2 ^ (u - b).toNat
    !nc && leD 1 0 (hi * hi * m : Nat) (2 * b + e) && leD (lo * lo * m : Nat) (2 * b + e) 1 0
  | _, _ => false

/-- Reciprocal square root (R310, R340). -/
def rsqrtLane : LaneFn := fun a _ _ =>
  match decodeF fp32 a with
  | .nan sig => nanOut fp32 sig
  | .inf n => if n then nanOut fp32 true else (0, 0)
  | .fin n m e =>
    if m = 0 then (signBit fp32 n + infBits fp32, flNonFinite)
    else if n then nanOut fp32 true
    else
      let root := sqrtV fp64 (.fin false m e)
      let exact := (divV fp32 (.fin false 1 0) (decodeF fp64 root.1)).1
      let r := within (rsqrtOk a) (Config.vrsqrt a % 2 ^ 32) exact
      (r, approxFlags 1 a r)

/-- Base-2 exponential: specials of R340, else a free value within 2 units in the last place (R310). -/
def exp2Lane : LaneFn := fun a _ _ =>
  match decodeF fp32 a with
  | .nan sig => nanOut fp32 sig
  | .inf n => if n then (0, 0) else (infBits fp32, flNonFinite)
  | .fin n m e =>
    let r := exp2Approx a ((toFix (.fin n m e)).getD 0)
    (r.1, approxFlags 2 a r.1 ||| r.2)

/-- Base-2 logarithm: on positive finite operands a free value within 2 units in the last place (R310). -/
def log2Lane : LaneFn := fun a _ _ =>
  match decodeF fp32 a with
  | .nan sig => nanOut fp32 sig
  | .inf n => if n then nanOut fp32 true else (infBits fp32, flNonFinite)
  | .fin n m e =>
    if m = 0 then (signBit fp32 true + infBits fp32, flNonFinite)
    else if n then nanOut fp32 true
    else
      let r := log2Approx a m e
      (r, approxFlags 3 a r)

/-- FP32 lanes only. -/
def only32 (f : LaneFn) (l : Lane) : Option LaneFn := if l = .fp32 then some f else none

/-- VRCP (R310). -/
def execVrcp (t : Nat) (e : Enc) (s : State) : Host.Outcome State Fault Refusal := lanewise (only32 rcpLane) false t e s
/-- VRSQRT (R310). -/
def execVrsqrt (t : Nat) (e : Enc) (s : State) : Host.Outcome State Fault Refusal := lanewise (only32 rsqrtLane) false t e s
/-- VEXP2 (R310). -/
def execVexp2 (t : Nat) (e : Enc) (s : State) : Host.Outcome State Fault Refusal := lanewise (only32 exp2Lane) false t e s
/-- VLOG2 (R310). -/
def execVlog2 (t : Nat) (e : Enc) (s : State) : Host.Outcome State Fault Refusal := lanewise (only32 log2Lane) false t e s

/-- A bitwise operation on 32-bit patterns (R310). -/
def bitLane (f : BitVec 32 → BitVec 32 → BitVec 32) (l : Lane) : Option LaneFn :=
  if l = .fp64 then none else some (fun a b _ => ((f (BitVec.ofNat 32 a) (BitVec.ofNat 32 b)).toNat, 0))

/-- VAND (R310). -/
def execVand (t : Nat) (e : Enc) (s : State) : Host.Outcome State Fault Refusal := lanewise (bitLane (· &&& ·)) true t e s
/-- VOR (R310). -/
def execVor (t : Nat) (e : Enc) (s : State) : Host.Outcome State Fault Refusal := lanewise (bitLane (· ||| ·)) true t e s
/-- VXOR (R310). -/
def execVxor (t : Nat) (e : Enc) (s : State) : Host.Outcome State Fault Refusal := lanewise (bitLane (· ^^^ ·)) true t e s
/-- VSHL by b[4:0] (R310). -/
def execVshl (t : Nat) (e : Enc) (s : State) : Host.Outcome State Fault Refusal := lanewise (bitLane (fun a b => a <<< (b.toNat % 32))) true t e s
/-- VSHR by b[4:0] (R310). -/
def execVshr (t : Nat) (e : Enc) (s : State) : Host.Outcome State Fault Refusal := lanewise (bitLane (fun a b => a >>> (b.toNat % 32))) true t e s
/-- VSAR by b[4:0] (R310). -/
def execVsar (t : Nat) (e : Enc) (s : State) : Host.Outcome State Fault Refusal := lanewise (bitLane (fun a b => a.sshiftRight (b.toNat % 32))) true t e s

/-- Condition on INT32 elements; UNORDERED never holds. -/
def cmpI (cond : Nat) (a b : Int) : Bool :=
  match cond with
  | 0 => decide (a = b) | 1 => decide (a ≠ b) | 2 => decide (a < b) | 3 => decide (a ≤ b) | _ => false

/-- Bits and flags of a comparison, element 0 first. -/
def cmpLanes (l : Lane) (cond mask : Nat) : Nat → List Nat → List Nat → Nat × Nat
  | j, a :: as, b :: bs =>
    let r := cmpLanes l cond mask (j + 1) as bs
    if mask.testBit j then
      let c := if l = .int32 then (cmpI cond (signed 32 a) (signed 32 b), 0) else cmpF l.fmt cond a b
      (r.1 + placeB c.1 j, r.2 ||| c.2)
    else r
  | _, _, _ => (0, 0)

/-- VCMP (R310). -/
def execVcmp (t : Nat) (e : Enc) (s : State) : Host.Outcome State Fault Refusal :=
  .next (issue s t e { usesVec e true with vd := false, m := 15 } fun s =>
    match laneOf e.f.toNat with
    | none => .error stFormat
    | some l =>
      if 4 < e.m.toNat then .error stDescInvalid else
      let r := cmpLanes l e.m.toNat (maskOf s t e) 0 (elems l.bits l.count ((thread s t).vr e.a.toNat)) (vecB s t l e)
      .ok (addFlags (writeX s t e.d (BitVec.ofNat 64 r.1)) t r.2))

/-- VSEL: a where bit j of x[imm[4:0]] is 1, else b (R310). -/
def execVsel (t : Nat) (e : Enc) (s : State) : Host.Outcome State Fault Refusal :=
  .next (issue s t e { d := true, a := true, b := true, f := true, imm := 0x1F, vd := true, va := true, vb := true } fun s =>
    match laneOf e.f.toNat with
    | none => .error stFormat
    | some l =>
      let x := thread s t
      let sel := (x.xr (immBits e 0 5)).toNat
      let b := elems l.bits l.count (x.vr e.b.toNat)
      let r := mapLanes (fun a _ _ => (a, 0)) sel 0 (elems l.bits l.count (x.vr e.a.toNat)) b b
      .ok (updThread s t (fun x => x.setV e.d.toNat (ofElems l.bits r.1))))

/-- VPERM: element j is element (b_j mod elements) of a (R310). -/
def execVperm (t : Nat) (e : Enc) (s : State) : Host.Outcome State Fault Refusal :=
  .next (issue s t e (usesVec e true) fun s =>
    match laneOf e.f.toNat with
    | none => .error stFormat
    | some l =>
      let x := thread s t
      let src := elems l.bits l.count (x.vr e.a.toNat)
      let r := mapLanes (fun _ b _ => (src.getD (b % l.count) 0, 0)) (maskOf s t e) 0 src (vecB s t l e) (elems l.bits l.count (x.vr e.d.toNat))
      .ok (updThread s t (fun x => x.setV e.d.toNat (ofElems l.bits r.1))))

/-- VBCAST: every element is the low bits of x[a], or imm (R310). -/
def execVbcast (t : Nat) (e : Enc) (s : State) : Host.Outcome State Fault Refusal :=
  .next (issue s t e { d := true, a := !e.i, i := true, f := true, imm := if e.i then immAll else 0x3F, vd := true } fun s =>
    match laneOf e.f.toNat with
    | none => .error stFormat
    | some l =>
      let x := thread s t
      let v := if e.i then immLane l e else (xa s t e).toNat % 2 ^ l.bits
      let old := elems l.bits l.count (x.vr e.d.toNat)
      let r := mapLanes (fun _ _ _ => (v, 0)) (maskOf s t e) 0 old old old
      .ok (updThread s t (fun x => x.setV e.d.toNat (ofElems l.bits r.1))))

/-- VEXT: element imm[5:0] of a (R310). -/
def execVext (t : Nat) (e : Enc) (s : State) : Host.Outcome State Fault Refusal :=
  .next (issue s t e { d := true, a := true, f := true, imm := 0x3F, va := true } fun s =>
    match laneOf e.f.toNat with
    | none => .error stFormat
    | some l =>
      if l.count ≤ immBits e 0 6 then .error stDescInvalid
      else .ok (writeX s t e.d (BitVec.ofNat 64 (bitsOf ((thread s t).vr e.a.toNat).toNat (l.bits * immBits e 0 6) l.bits))))

/-- VINS: element imm[5:0] of v[d] is the low bits of x[a] (R310). -/
def execVins (t : Nat) (e : Enc) (s : State) : Host.Outcome State Fault Refusal :=
  .next (issue s t e { d := true, a := true, f := true, imm := 0x3F, vd := true } fun s =>
    match laneOf e.f.toNat with
    | none => .error stFormat
    | some l =>
      if l.count ≤ immBits e 0 6 then .error stDescInvalid
      else
        let old := elems l.bits l.count ((thread s t).vr e.d.toNat)
        let new := old.set (immBits e 0 6) ((xa s t e).toNat % 2 ^ l.bits)
        .ok (updThread s t (fun x => x.setV e.d.toNat (ofElems l.bits new))))

/-! ### Reductions (R312) -/

/-- One level of the pairwise tree. -/
def foldPairs {α : Type} (f : α → α → α) : List α → List α
  | a :: b :: r => f a b :: foldPairs f r
  | r => r

/-- The pairwise tree over 2^k elements. -/
def foldTree {α : Type} (f : α → α → α) : Nat → List α → List α
  | 0, l => l
  | k + 1, l => foldTree f k (foldPairs f l)

/-- Elements under a mask, a disabled one replaced. -/
def maskedBy (mask : Nat) (dflt : Nat) (xs : List Nat) : List Nat :=
  (xs.zip (List.range xs.length)).map (fun p => if mask.testBit p.2 then p.1 else dflt)

/-- Sum of two elements with the flags so far. -/
def addElem (l : Lane) (a b : Nat × Nat) : Nat × Nat :=
  let r := if l = .int32 then ((a.1 + b.1) % 2 ^ 32, 0) else addV l.fmt (decodeF l.fmt a.1) (decodeF l.fmt b.1)
  (r.1, a.2 ||| b.2 ||| r.2)

/-- Maximum of two elements that may be missing. -/
def maxElem (l : Lane) (a b : Option (Nat × Nat)) : Option (Nat × Nat) :=
  match a, b with
  | some x, some y =>
    let r := if l = .int32 then (if signed 32 x.1 ≤ signed 32 y.1 then y.1 else x.1, 0) else minMaxF l.fmt true x.1 y.1
    some (r.1, x.2 ||| y.2 ||| r.2)
  | some x, none => some x
  | none, y => y

/-- VREDADD (R310, R312): a disabled element enters as +0. -/
def execVredadd (t : Nat) (e : Enc) (s : State) : Host.Outcome State Fault Refusal :=
  .next (issue s t e { d := true, a := true, f := true, imm := 0x3F, va := true } fun s =>
    match laneOf e.f.toNat with
    | none => .error stFormat
    | some l =>
      let xs := maskedBy (maskOf s t e) 0 (elems l.bits l.count ((thread s t).vr e.a.toNat))
      match foldTree (addElem l) 6 (xs.map (fun x => (x, 0))) with
      | r :: _ => .ok (addFlags (writeX s t e.d (BitVec.ofNat 64 r.1)) t r.2)
      | [] => .ok s)

/-- VREDMAX (R310, R312): disabled elements are skipped; none enabled gives the quiet NaN or -2^31. -/
def execVredmax (t : Nat) (e : Enc) (s : State) : Host.Outcome State Fault Refusal :=
  .next (issue s t e { d := true, a := true, f := true, imm := 0x3F, va := true } fun s =>
    match laneOf e.f.toNat with
    | none => .error stFormat
    | some l =>
      let mask := maskOf s t e
      let xs := elems l.bits l.count ((thread s t).vr e.a.toNat)
      let os := (xs.zip (List.range xs.length)).map (fun p => if mask.testBit p.2 then some (p.1, 0) else none)
      let none_ := if l = .int32 then 2 ^ 31 else nanBits l.fmt
      match foldTree (maxElem l) 6 os with
      | some r :: _ => .ok (addFlags (writeX s t e.d (BitVec.ofNat 64 r.1)) t r.2)
      | _ => .ok (writeX s t e.d (BitVec.ofNat 64 none_)))

/-! ### Conversions (R311, R337 to R341) -/

/-- The storage format of code f: float format or integer width. -/
inductive Narrow where
  | flt (f : Fmt)
  | int (bits : Nat)
  | cb4

/-- Narrow formats by code (R302, R311). -/
def narrowOf (f : Nat) : Option Narrow :=
  match f with
  | 1 => some (.flt bf16) | 2 => some (.flt fp16) | 3 => some (.flt e4m3) | 4 => some (.flt e5m2) | 5 => some .cb4
  | 6 => some (.int 16) | 7 => some (.int 8) | 8 => some (.int 4) | _ => none

def Narrow.bits : Narrow → Nat
  | .flt f => f.width
  | .int n => n
  | .cb4 => 4

/-- Parts of a register in a narrow format (R311). -/
def Narrow.parts : Narrow → Nat
  | .cb4 => 7
  | n => 32 / n.bits

/-- Replace `8 * n` bits at byte `b` of a register. -/
def putBytesV (v : BitVec 2048) (b n x : Nat) : BitVec 2048 := BitVec.ofNat 2048 (setBits v.toNat (8 * b) (8 * n) x)

/-- Narrow 64 elements to a float or integer format: bits, flags. -/
def narrowElems (n : Narrow) (fromInt : Bool) (sr : Option (List W32)) (xs : List Nat) : List Nat × Nat :=
  let states : List (Option W32) := match sr with
    | some l => l.map some
    | none => xs.map (fun _ => none)
  let rs := (xs.zip states).map (fun p =>
    match n with
    | .flt f => convF f .saturate p.2 (decodeF fp32 p.1)
    | .int k =>
      if fromInt then
        let r := satInt k (signed 32 p.1)
        (unsigned k r.1, if r.2 then flSaturated ||| flInexact else 0)
      else convI k (decodeF fp32 p.1)
    | .cb4 => (0, 0))
  (rs.map (·.1), rs.foldl (fun a r => a ||| r.2) 0)

/-- VCVTN (R311, R337, R338, R341). -/
def execVcvtn (t : Nat) (e : Enc) (s : State) : Host.Outcome State Fault Refusal :=
  .next (issue s t e { d := true, a := true, f := true, m := 1, imm := 0x70F, vd := true, va := true } fun s =>
    let src := immBits e 0 4
    let p := immBits e 8 3
    match narrowOf e.f.toNat with
    | none => .error stFormat
    | some n =>
      let isInt := match n with | .int _ => true | _ => false
      let stoch := mBit e 0
      let srOk := match n with | .cb4 => true | .flt f => f.width == 8 | _ => false
      if (src ≠ 0 ∧ src ≠ 10) ∨ (src = 10 ∧ !isInt) ∨ (src = 0 ∧ isInt) ∨ n.parts ≤ p ∨ (stoch ∧ !srOk) then .error stFormat
      else
        let x := thread s t
        let xs := elems 32 64 (x.vr e.a.toNat)
        let states := srStates 64 x.seed
        let sr := if stoch then some states else none
        let seed := if stoch then states.getLastD x.seed else x.seed
        let r := match n with
          | .cb4 =>
            let b0 := cb4Block (sr.map (List.take 32)) ((xs.take 32).map (decodeF fp32))
            let b1 := cb4Block (sr.map (List.drop 32)) ((xs.drop 32).map (decodeF fp32))
            let v := putBytesV (x.vr e.d.toNat) (32 * p) 32 (packE 4 (b0.2.1 ++ b1.2.1))
            (putBytesV v (224 + 2 * p) 2 (b0.1 + 256 * b1.1), b0.2.2 ||| b1.2.2)
          | n =>
            let y := narrowElems n (src == 10) sr xs
            (putBytesV (x.vr e.d.toNat) (8 * n.bits * p) (8 * n.bits) (packE n.bits y.1), y.2)
        .ok (addFlags (updThread s t (fun x => { x.setV e.d.toNat r.1 with seed := seed })) t r.2))

/-- VCVTW: widen a part, exactly (R311, R339). -/
def execVcvtw (t : Nat) (e : Enc) (s : State) : Host.Outcome State Fault Refusal :=
  .next (issue s t e { d := true, a := true, f := true, imm := 0x700, vd := true, va := true } fun s =>
    let p := immBits e 8 3
    match narrowOf e.f.toNat with
    | none => .error stFormat
    | some n =>
      if n.parts ≤ p then .error stFormat
      else
        let v := ((thread s t).vr e.a.toNat).toNat
        let xs := (List.range 64).map (fun j => bitsOf v (64 * n.bits * p + n.bits * j) n.bits)
        let rs := (xs.zip (List.range 64)).map (fun q =>
          match n with
          | .flt f => convF fp32 .saturate none (decodeF f q.1)
          | .int k => (unsigned 32 (signed k q.1), 0)
          | .cb4 => convF fp32 .saturate none (cb4V (bitsOf v (8 * (224 + 2 * p + q.2 / 32)) 8) q.1))
        .ok (addFlags (updThread s t (fun x => x.setV e.d.toNat (ofElems 32 (rs.map (·.1))))) t (rs.foldl (fun a r => a ||| r.2) 0)))

/-- VCVT between lane types: the 32 lower elements where one side is FP64 (R311, R338, R339; log entry 11). -/
def execVcvt (t : Nat) (e : Enc) (s : State) : Host.Outcome State Fault Refusal :=
  .next (issue s t e { d := true, a := true, f := true, imm := 0xF, vd := true, va := true } fun s =>
    match laneOf (immBits e 0 4), laneOf e.f.toNat with
    | some a, some b =>
      if a = b then .error stFormat
      else
        let x := thread s t
        let n := min a.count b.count
        let rs := (elems a.bits n (x.vr e.a.toNat)).map (fun w =>
          let v := if a = .int32 then intV (signed 32 w) else decodeF a.fmt w
          if b = .int32 then convI 32 v else convF b.fmt .saturate none v)
        let new := putBytesV (x.vr e.d.toNat) 0 (n * b.bits / 8) (packE b.bits (rs.map (·.1)))
        .ok (addFlags (updThread s t (fun x => x.setV e.d.toNat new)) t (rs.foldl (fun a r => a ||| r.2) 0))
    | _, _ => .error stFormat)

/-! ### Vector tile SRAM instructions (R313) -/

/-- A register of up to 256 bytes read from memory. -/
def vecOfBytes (bs : List Byte) : BitVec 2048 := BitVec.ofNat 2048 (ofLe bs)

/-- The first `n` bytes of a register. -/
def vecBytes (v : BitVec 2048) (n : Nat) : List Byte := leBytes n v.toNat

/-- VLDT (R313). -/
def execVldt (t : Nat) (e : Enc) (s : State) : Host.Outcome State Fault Refusal :=
  .next (issue s t e { d := true, a := true, imm := immAll, vd := true } fun s =>
    let a := addrImm s t e
    if tileCheck s t a 256 64 false ≠ stOk then .error (tileCheck s t a 256 64 false)
    else .ok (updThread s t (fun x => x.setV e.d.toNat (vecOfBytes (tileRead s t a 256)))))

/-- Write the 4-byte elements that a mask enables. -/
def writeMasked (s : State) (t a mask : Nat) : Nat → List Nat → State
  | _, [] => s
  | j, x :: xs => writeMasked (if mask.testBit j then tileWrite s t (a + 4 * j) (leBytes 4 x) else s) t a mask (j + 1) xs

/-- VSTT (R313). -/
def execVstt (t : Nat) (e : Enc) (s : State) : Host.Outcome State Fault Refusal :=
  .next (issue s t e { d := mBit e 0, a := true, b := true, m := 1, imm := immAll, vb := true } fun s =>
    let a := addrImm s t e
    if tileCheck s t a 256 64 true ≠ stOk then .error (tileCheck s t a 256 64 true)
    else
      let v := (thread s t).vr e.b.toNat
      if mBit e 0 then .ok (writeMasked s t a (xd s t e).toNat 0 (elems 32 64 v))
      else .ok (tileWrite s t a (vecBytes v 256)))

/-- Addresses of the enabled elements of VGATH and VSCAT. -/
def gatherAddrs (s : State) (t : Nat) (e : Enc) : List (Nat × Nat) :=
  let mask := maskOf s t e
  let xs := elems 32 64 ((thread s t).vr e.b.toNat)
  ((xs.zip (List.range 64)).filter (fun p => mask.testBit p.2)).map (fun p => (p.2, ((xa s t e).toNat + p.1) % 2 ^ 64))

/-- First failing status over the elements: the index must be a multiple of 4, the word inside the window. -/
def gatherCheck (s : State) (t : Nat) (write : Bool) : List (Nat × Nat) → Nat
  | [] => stOk
  | p :: ps => if tileCheck s t p.2 4 4 write ≠ stOk then tileCheck s t p.2 4 4 write else gatherCheck s t write ps

/-- VGATH (R313). -/
def execVgath (t : Nat) (e : Enc) (s : State) : Host.Outcome State Fault Refusal :=
  .next (issue s t e { d := true, a := true, b := true, imm := 0x3F, vd := true, vb := true } fun s =>
    let as := gatherAddrs s t e
    if gatherCheck s t false as ≠ stOk then .error (gatherCheck s t false as)
    else
      let new := as.foldl (fun l p => l.set p.1 (ofLe (tileRead s t p.2 4))) (elems 32 64 ((thread s t).vr e.d.toNat))
      .ok (updThread s t (fun x => x.setV e.d.toNat (ofElems 32 new))))

/-- VSCAT: elements in ascending j (R313). -/
def execVscat (t : Nat) (e : Enc) (s : State) : Host.Outcome State Fault Refusal :=
  .next (issue s t e { d := true, a := true, b := true, imm := 0x3F, vd := true, vb := true } fun s =>
    let as := gatherAddrs s t e
    let xs := elems 32 64 ((thread s t).vr e.d.toNat)
    if gatherCheck s t true as ≠ stOk then .error (gatherCheck s t true as)
    else .ok (as.foldl (fun s p => tileWrite s t p.2 (leBytes 4 (xs.getD p.1 0))) s))

/-! ### The matrix unit (R314 to R317, R343) -/

/-- The format pair classes of R315. -/
inductive Pair where
  | int (a b : Nat)
  | chunk (a : Fmt) (b : Option Fmt)
  | f32

/-- Supported pairs of f and fb, and whether 2:4 sparsity is (R315). -/
def pairOf (f fb : Nat) : Option (Pair × Bool) :=
  let fp8 := fun k => if k = 3 then some e4m3 else if k = 4 then some e5m2 else none
  if f = 8 ∧ fb = 8 then some (.int 4 4, false)
  else if f = 7 ∧ fb = 7 then some (.int 8 8, true)
  else if f = 7 ∧ fb = 8 then some (.int 8 4, false)
  else if f = 6 ∧ fb = 6 then some (.int 16 16, false)
  else if f = 1 ∧ fb = 1 then some (.chunk bf16 (some bf16), false)
  else if f = 1 ∧ fb = 5 then some (.chunk bf16 none, false)
  else if f = 2 ∧ fb = 2 then some (.chunk fp16 (some fp16), false)
  else if f = 0 ∧ fb = 0 then some (.f32, false)
  else match fp8 f, fp8 fb with
    | some a, some b => some (.chunk a (some b), true)
    | some a, none => if fb = 5 then some (.chunk a none, false) else none
    | _, _ => none

/-- Bits per element of A. -/
def Pair.abits : Pair → Nat
  | .int a _ => a
  | .chunk a _ => a.width
  | .f32 => 32

/-- Bits per element of B; CB4 counts as 4. -/
def Pair.bbits : Pair → Nat
  | .int _ b => b
  | .chunk _ (some b) => b.width
  | .chunk _ none => 4
  | .f32 => 32

/-- The operands of an MMA (R314). -/
structure MmaArgs where
  k : Nat
  rows : Nat
  cols : Nat
  acc : Bool
  sparse : Bool
  aBase : Nat
  aStride : Nat
  bBase : Nat
  bStride : Nat
  meta_ : Nat
  cBase : Nat
  cStride : Nat

/-- Tile bits at a byte offset plus a bit offset. -/
def tileBits (s : State) (t byte bit n : Nat) : Nat :=
  bitsOf (ofLe (tileRead s t (byte + bit / 8) ((bit % 8 + n + 7) / 8))) (bit % 8) n

/-- Element (r, k) of A. -/
def aElem (s : State) (t : Nat) (p : Pair) (m : MmaArgs) (r k : Nat) : Nat :=
  tileBits s t (m.aBase + r * m.aStride) (k * p.abits) p.abits

/-- Stored element (k, c) of B, dense layout. -/
def bElem (s : State) (t : Nat) (p : Pair) (m : MmaArgs) (k c : Nat) : Nat :=
  tileBits s t (m.bBase + k * m.bStride) (c * p.bbits) p.bbits

/-- Value of a CB4 element of column c (R335). -/
def bCb4 (s : State) (t : Nat) (m : MmaArgs) (k c : Nat) : FVal :=
  let n := m.k / 32
  let col := m.bBase + c * m.bStride
  cb4V (ofLe (tileRead s t (col + 16 * n + k / 32) 1)) (tileBits s t col (4 * k) 4)

/-- The pairs (dense k, stored row) that a column multiplies, in ascending order (R316). -/
def kPairs (s : State) (t : Nat) (m : MmaArgs) (c : Nat) : List (Nat × Nat) :=
  if m.sparse then
    (List.range (m.k / 4)).flatMap (fun g =>
      let w := tileBits s t (m.meta_ + 32 * g) (4 * c) 4
      [(4 * g + w % 4, 2 * g), (4 * g + w / 4, 2 * g + 1)])
  else (List.range m.k).map (fun k => (k, k))

/-- One element of C for an integer pair: exact, saturated once (R315). -/
def mmaInt (s : State) (t : Nat) (p : Pair) (m : MmaArgs) (cin r c : Nat) : Nat × Nat :=
  let sum := (kPairs s t m c).foldl (fun acc q =>
    acc + signed p.abits (aElem s t p m r q.1) * signed p.bbits (bElem s t p m q.2 c)) (signed 32 cin)
  let w := satInt 32 sum
  (unsigned 32 w.1, if w.2 then flSaturated else 0)

/-- One element of C for FP32 × FP32: a fused multiply-add per k (R342). -/
def mmaF32 (s : State) (t : Nat) (m : MmaArgs) (cin r c : Nat) : Nat × Nat :=
  (List.range m.k).foldl (fun acc k =>
    let x := fmaV fp32 (decodeF fp32 (aElem s t .f32 m r k)) (decodeF fp32 (bElem s t .f32 m k c)) (decodeF fp32 acc.1)
    (x.1, acc.2 ||| x.2)) (cin, 0)

/-- One element of C by the chunk rule of R343: chunks of 32 dense k. -/
def mmaChunk (s : State) (t : Nat) (p : Pair) (af : Fmt) (bf : Option Fmt) (m : MmaArgs) (cin r c : Nat) : Nat × Nat :=
  let ks := kPairs s t m c
  (List.range (m.k / 32)).foldl (fun acc j =>
    let prods := (ks.filter (fun q => q.1 / 32 == j)).map (fun q =>
      let b := match bf with
        | some f => decodeF f (bElem s t p m q.2 c)
        | none => bCb4 s t m q.1 c
      prodV (decodeF af (aElem s t p m r q.1)) b)
    let x := chunkSum (decodeF fp32 acc.1 :: prods)
    (x.1, acc.2 ||| x.2)) (cin, 0)

/-- One element of C. -/
def mmaElem (s : State) (t : Nat) (p : Pair) (m : MmaArgs) (r c : Nat) : Nat × Nat :=
  let cin := if m.acc then ofLe (tileRead s t (m.cBase + r * m.cStride + 4 * c) 4) else 0
  match p with
  | .int _ _ => mmaInt s t p m cin r c
  | .chunk a b => mmaChunk s t p a b m cin r c
  | .f32 => mmaF32 s t m cin r c

/-- Shape, strides and alignment of R314. -/
def mmaShapeOk (p : Pair) (cb4 : Bool) (m : MmaArgs) : Bool :=
  let al := fun x => decide (x % 64 = 0)
  al m.aBase && al m.aStride && al m.bBase && al m.bStride && al m.cBase && al m.cStride && (!m.sparse || al m.meta_)
    && decide (m.k * p.abits ≤ 8 * m.aStride)
    && (if cb4 then decide (17 * (m.k / 32) ≤ m.bStride) else decide (64 * p.bbits ≤ 8 * m.bStride))
    && decide (256 ≤ m.cStride)

/-- The operands lie where R317 allows: A and B in the window or resident code, C in the window. -/
def mmaPlaceOk (s : State) (t : Nat) (p : Pair) (cb4 : Bool) (m : MmaArgs) : Bool :=
  let bRows := if cb4 then 64 else if m.sparse then m.k / 2 else m.k
  let bRow := if cb4 then 17 * (m.k / 32) else 64 * p.bbits / 8
  tileOk s t m.aBase (63 * m.aStride + m.k * p.abits / 8) false
    && tileOk s t m.bBase ((bRows - 1) * m.bStride + bRow) false
    && (!m.sparse || tileOk s t m.meta_ (32 * (m.k / 4)) false)
    && tileOk s t m.cBase (63 * m.cStride + 256) true

/-- An operand that the MMA reads touches an uncorrectable word (R278). -/
def mmaBad (s : State) (t : Nat) (p : Pair) (cb4 : Bool) (m : MmaArgs) : Bool :=
  let bRows := if cb4 then 64 else if m.sparse then m.k / 2 else m.k
  let bRow := if cb4 then 17 * (m.k / 32) else 64 * p.bbits / 8
  let bad := fun a n => badIn s (Space.key (.tile (engineNo t)) a) n
  !s.eng.bad.isEmpty &&
    ((List.range 64).any (fun r => bad (m.aBase + r * m.aStride) (m.k * p.abits / 8) || (m.acc && bad (m.cBase + r * m.cStride) 256))
      || (List.range bRows).any (fun r => bad (m.bBase + r * m.bStride) bRow)
      || (m.sparse && bad m.meta_ (32 * (m.k / 4))))

/-- MMA: C := C_in + A × B over the first rows × columns elements (R314 to R317, R343). -/
def execMma (t : Nat) (e : Enc) (s : State) : Host.Outcome State Fault Refusal :=
  .next (issue s t e { d := true, a := true, b := true, f := true, m := 3, imm := 0xFFFFFF } fun s =>
    let x := thread s t
    let sparse := mBit e 1
    if 31 < e.d.toNat + 1 ∨ 31 < e.a.toNat + 1 ∨ 31 < e.b.toNat + (if sparse then 2 else 1) then .error stDescInvalid else
    match pairOf e.f.toNat (immBits e 20 4) with
    | none => .error stFormat
    | some (p, canSparse) =>
      if sparse && !canSparse then .error stFormat else
      let xn := fun r => (x.xr r).toNat
      let cb4 := match p with | .chunk _ none => true | _ => false
      let m : MmaArgs :=
        { k := 32 * (immBits e 0 8 + 1), rows := immBits e 8 6 + 1, cols := immBits e 14 6 + 1, acc := mBit e 0, sparse := sparse,
          aBase := xn e.a.toNat, aStride := xn (e.a.toNat + 1), bBase := xn e.b.toNat, bStride := xn (e.b.toNat + 1),
          meta_ := xn (e.b.toNat + 2), cBase := xn e.d.toNat, cStride := xn (e.d.toNat + 1) }
      if !mmaShapeOk p cb4 m then .error stDescInvalid
      else if !mmaPlaceOk s t p cb4 m then .error stFirewall
      else if mmaBad s t p cb4 m then .error tileUe
      else
        let rows := (List.range m.rows).map (fun r => (List.range m.cols).map (fun c => mmaElem s t p m r c))
        let s' := (rows.zip (List.range m.rows)).foldl (fun s' v => tileWrite s' t (m.cBase + v.2 * m.cStride) (v.1.flatMap (fun x => leBytes 4 x.1))) s
        let s' := updThread s' t (fun x => { x with mma := some (m.cBase, m.cStride, m.rows, 4 * m.cols) })
        .ok (addFlags s' t (rows.foldl (fun a r => r.foldl (fun a x => a ||| x.2) a) 0)))

end Sys2Proof.Machine
end

