-- ==== Sys2Proof/Machine/KnotsQueues.lean ====
section
/-! DEFINITION. The meanings of the knot and queue commands (spec/04_queues_knots.md). -/

namespace Sys2Proof.Machine

/-- A guarded class bit names the guarded object that K_INIT or Q_CREATE creates: from DID 0, DID 1 or a CALL (R70). -/
def createsGuarded (d : Desc) : Bool :=
  decide (d.did ≤ 1) || match d.src with
    | .call _ _ => true
    | _ => false

/-- Class check of an object that a descriptor configures. -/
def objClass (exists_ guarded : Bool) : Option Bool := if exists_ then some guarded else none

/-! ### Knots -/

def kIndex (d : Desc) : Nat := dfld d 16 0 13

/-- What R70 checks of KInit. -/
def infoKInit (s : State) (d : Desc) : OpInfo :=
  let k := kIndex d
  let n := knotOf s k
  let cls := if dGuarded d then (if createsGuarded d then some true else none) else if n.guarded then some true else none
  let auth := decide (32 ≤ k) && (decide (1024 ≤ k) || decide (d.did ≤ 1)) && (n.st == .free || n.owner == d.did)
  { fields := [(16, 0, 13), (20, 0, 32), (24, 0, 16)], cls := cls, configures := true, authority := auth }

/-- K_INIT (R93). DESIGN CHOICE (log 126): one that names a cadence knot is NOT_AUTHORISED for every DID. -/
def execKInit (d : Desc) (s : State) : Host.Outcome State Fault Refusal :=
  let k := kIndex d
  .next (runDesc s d (infoKInit s d) fun s =>
    let n : Knot := { st := .active, value := 0, guarded := dGuarded d, owner := d.did, mask := dfld d 24 0 16 }
    okWith (setKnot { s with knots.knots := s.knots.knots.put k n } k (BitVec.ofNat 32 (dfld d 20 0 32))) 0)

/-- What R70 checks of KSignal. -/
def infoKSignal (s : State) (d : Desc) : OpInfo :=
  let k := kIndex d
  let n := knotOf s k
  { fields := [(16, 0, 13), (18, 0, 1), (20, 0, 32)], cls := if n.guarded && (!dGuarded d || workGuarded d) then some true else none, authority := signalCheck s d.did (workGuarded d) k == stOk }

/-- K_SIGNAL (R92, R94, R97). -/
def execKSignal (d : Desc) (s : State) : Host.Outcome State Fault Refusal :=
  let k := kIndex d
  let set := dbit d 18 0
  let v := dfld d 20 0 32
  .next (runDesc s d (infoKSignal s d) fun s =>
    if !set ∧ (v = 0 ∨ 2 ^ 31 ≤ v) then failWith s stDescInvalid
    else if (knotOf s k).st = .poisoned then failWith s stInternal
    else
      let s := applyCycle s [descSignal d k set (BitVec.ofNat 32 v)]
      okWith s (knotOf s k).value.toNat)

/-- What R70 checks of KRead. -/
def infoKRead (s : State) (d : Desc) : OpInfo :=
  let k := kIndex d
  let n := knotOf s k
  let cls := if dGuarded d ∧ (n.guarded ∨ k < 32) then some true else none
  { fields := [(16, 0, 13)], cls := cls }

/-- K_READ (R93, R94, R97). -/
def execKRead (d : Desc) (s : State) : Host.Outcome State Fault Refusal :=
  let k := kIndex d
  .next (runDesc s d (infoKRead s d) fun s =>
    if (knotOf s k).st = .poisoned then failWith s stInternal else okWith s (knotOf s k).value.toNat)

/-- Descriptor waits registered on a knot, of rings, calls and firmware (R96, KNT_CFG.waits). -/
def descWaitsOn (s : State) (k : Nat) : Nat :=
  let on_ := fun (w : DescWait) (raw : BitVec 512) => w == .registered && dWaitKnot ⟨.internal, 0, raw⟩ == k
  (s.hif.flights.filter (fun f => on_ f.wait f.raw)).length + (s.knots.inner.filter (fun w => on_ w.wait w.raw)).length
    + ((s.eng.threads.map (fun p => (p.2.calls.filter (fun c => on_ c.wait c.raw)).length)).foldl (· + ·) 0)

/-- Waits registered on a knot, of descriptors and threads. -/
def waitsOn (s : State) (k : Nat) : Nat := descWaitsOn s k + (s.eng.waits.filter (fun w => w.2.knot == k)).length

/-- What R70 checks of KFree. -/
def infoKFree (s : State) (d : Desc) : OpInfo :=
  let k := kIndex d
  let n := knotOf s k
  let cls := if n.guarded then some true else none
  { fields := [(16, 0, 13)], cls := cls, configures := true, authority := decide (32 ≤ k) && (n.st == .free || n.owner == d.did || decide (d.did ≤ 1)) }

/-- K_FREE (R93). A POISONED knot stays so until K_INIT (R97): DESIGN CHOICE (log 126), the status is INTERNAL. -/
def execKFree (d : Desc) (s : State) : Host.Outcome State Fault Refusal :=
  let k := kIndex d
  let n := knotOf s k
  .next (runDesc s d (infoKFree s d) fun s =>
    if n.st = .free then okWith s 0
    else if n.st = .poisoned then failWith s stInternal
    else if waitsOn s k ≠ 0 then failWith s stDescInvalid
    else okWith { s with knots.knots := s.knots.knots.put k Knot.reset } 0)

/-- A satisfied wait of a knot is released. -/
def released (k : Nat) (wait : DescWait) (satisfied : Bool) (raw : BitVec 512) : Bool :=
  wait == .registered && satisfied && dWaitKnot ⟨.internal, 0, raw⟩ == k

/-- KNOT_WAIT_RELEASE: the satisfied waits of a knot are released (R92, R98, R297). -/
def execKnotWaitRelease (knot : Nat) (s : State) : Host.Outcome State Fault Refusal :=
  let fl := s.hif.flights.map (fun f => if released knot f.wait f.satisfied f.raw then { f with wait := .free, satisfied := false } else f)
  let iw := s.knots.inner.map (fun w => if released knot w.wait w.satisfied w.raw then { w with wait := .free, satisfied := false } else w)
  let th := s.eng.threads.mapV (fun _ x => { x with calls := x.calls.map (fun c =>
    if released knot c.wait c.satisfied c.raw then { c with wait := .free, satisfied := false } else c) })
  let ready := Tbl.keys (s.eng.waits.filter (fun w => w.2.knot == knot && w.2.satisfied))
  let s := { s with hif.flights := fl, knots.inner := iw, eng.threads := th, eng.waits := s.eng.waits.filter (fun w => !(w.2.knot == knot && w.2.satisfied)) }
  .next (ready.foldl wakeThread s)

/-- The descriptors whose registration found the wait table full (R96). -/
def retrying (s : State) : List Desc :=
  s.hif.flights.filterMap (fun f => if f.wait = .tableFull then some ⟨.ring f.ring f.index, ringDid s false f.ring, f.raw⟩ else none)
    ++ s.eng.threads.flatMap (fun p => p.2.calls.filterMap (fun c => if c.wait = .tableFull then some ⟨.call p.1 c.slot, (threadWho s p.1).did, c.raw⟩ else none))
    ++ s.knots.inner.filterMap (fun w => if w.wait = .tableFull then some ⟨.internal, w.did, w.raw⟩ else none)

/-- KNOT_WAIT_RETRY: a source's descriptor that found the wait table full retries its registration, 1 µs after its last try (R96). -/
def execKnotWaitRetry (src : Source) (turn : Nat) (s : State) : Host.Outcome State Fault Refusal :=
  match ((retrying s).filter (fun d => d.src == src))[turn]? with
  | some d => .next (registerWait { s with knots.retries := satAdd 16 s.knots.retries 1 } d)
  | none => .next s

/-- Severity of a poisoned knot's record (R97). -/
def poisonSeverity (s : State) (k : Nat) : Nat :=
  if k < 32 then sevOf (s.cfg.flows.any (fun f => f.2.guarded && f.2.cadence == k)) else sevOf (knotOf s k).guarded

/-- The registered descriptor waits on a knot (R97). -/
def waitingOn (s : State) (k : Nat) : List Desc :=
  let on_ := fun (w : DescWait) (raw : BitVec 512) => w == .registered && dWaitKnot ⟨.internal, 0, raw⟩ == k
  s.hif.flights.filterMap (fun f => if on_ f.wait f.raw then some ⟨.ring f.ring f.index, ringDid s false f.ring, f.raw⟩ else none)
    ++ s.eng.threads.flatMap (fun p => p.2.calls.filterMap (fun c => if on_ c.wait c.raw then some ⟨.call p.1 c.slot, (threadWho s p.1).did, c.raw⟩ else none))
    ++ s.knots.inner.filterMap (fun w => if on_ w.wait w.raw then some ⟨.internal, w.did, w.raw⟩ else none)

/-- KNOT_POISONED: an uncorrectable error in knot RAM; what waits on the knot ends with INTERNAL in that cycle (R97). DESIGN CHOICE (log 126): a
FREE knot keeps owner DID 0. -/
def execKnotPoisoned (knot : Nat) (s : State) : Host.Outcome State Fault Refusal :=
  if 8192 ≤ knot then .next s else
  let sev := poisonSeverity s knot
  let n := knotOf s knot
  let s := { s with knots.knots := s.knots.knots.put knot { n with st := .poisoned } }
  let threads := Tbl.keys (s.eng.waits.filter (fun w => w.2.knot == knot))
  let s := together s fun s =>
    threads.foldl (fun s t => haltThread s t stInternal) ((waitingOn s knot).foldl (fun s d => finishDesc s d stInternal 0 0 0) s)
  .next (raise s { reportOf s sev 8 knot stInternal with status := stInternal, guarded := n.guarded, did := n.owner })

/-! ### Queues -/

def queueOf (s : State) (q : Nat) : Queue := Tbl.at Queue.reset s.qmu.queues q
def setQueue (s : State) (q : Nat) (x : Queue) : State := { s with qmu.queues := s.qmu.queues.put q x }

/-- Both copies of both pointers agree and the context has no uncorrectable error (R88). -/
def Queue.pointersOk (q : Queue) : Bool := q.headInv == ~~~q.head && q.tailInv == ~~~q.tail && !q.ctxBad

/-- Occupied entries. -/
def Queue.count (q : Queue) : Nat := (q.tail - q.head).toNat

/-- Answer a thread's queue wait (R298). -/
def answerThread (s : State) (t outcome : Nat) (data : List Byte) : State :=
  updThread s t (fun x => match x.waiting with
    | .queue w => { x with waiting := .queue { w with answer := some outcome, data := data } }
    | _ => x)

/-- A queue reset (R89). -/
def queueReset (s : State) (q : Nat) : State :=
  let x := queueOf s q
  let s := x.blocked.foldl (fun s p => answerThread s p.thread stQueueReset []) s
  let s := setQueue s q { x with head := 0, tail := 0, headInv := 0xFFFFFFFF, tailInv := 0xFFFFFFFF, blocked := [], ctxBad := false, resets := satAdd 4 x.resets 1 }
  let s := { s with qmu.total := satAdd 32 s.qmu.total 1 }
  raise s { reportOf s (sevOf x.guarded) 7 (q % 65536) stQueueReset with
    status := stQueueReset, guarded := x.guarded, did := x.owner, detail := q }

/-- The queue's own accesses to its storage (R83). -/
def queueWho (x : Queue) (q : Nat) : Who := { did := x.owner, guarded := x.guarded, kind := 7, index := q % 65536, flows := [] }

/-- A queue's link adds 1 to a knot (R84, R94). -/
def linkSignal (s : State) (x : Queue) (q : Nat) (k : Option Nat) : State :=
  match k with
  | some k => signalOrDrop s x.owner x.guarded k false 1 7 (q % 65536)
  | none => s

/-- Write one entry and advance the tail; a storage fault leaves the queue as it was (R85). -/
def pushEntry (s : State) (q : Nat) (bs : List Byte) : Nat × State :=
  let x := queueOf s q
  match devWrite s (queueWho x q) (x.base + x.tail.toNat % 2 ^ x.entriesLog2 * 2 ^ x.widthLog2) bs with
  | (st, s) =>
    if st ≠ stOk then (st, s) else
    (stOk, linkSignal (setQueue s q { x with tail := x.tail + 1, tailInv := ~~~(x.tail + 1) }) x q x.dataKnot)

/-- Read one entry and advance the head (R85). -/
def popEntry (s : State) (q : Nat) : Nat × List Byte × State :=
  let x := queueOf s q
  match devRead s (queueWho x q) (x.base + x.head.toNat % 2 ^ x.entriesLog2 * 2 ^ x.widthLog2) (2 ^ x.widthLog2) with
  | (st, bs, s) =>
    if st ≠ stOk then (st, [], s) else
    (stOk, bs, linkSignal (setQueue s q { x with head := x.head + 1, headInv := ~~~(x.head + 1) }) x q x.spaceKnot)

/-- Blocked producers in the order of R86: precedence of R9, then lower engine, then order of arrival. -/
def insertProducer : List Producer → Producer → List Producer
  | [], p => [p]
  | x :: xs, p =>
    if p.did < x.did ∨ (p.did = x.did ∧ p.thread / 64 < x.thread / 64) then p :: x :: xs else x :: insertProducer xs p

/-- The queue may be used by work of a DID (R83). -/
def Queue.usable (x : Queue) (did : Nat) : Bool := x.active && (decide (did ≤ 1) || x.owner == did)

/-- An enqueue's outcome: answered with a code of R323, blocked, or a status that halts the thread. -/
inductive QueueOutcome where
  | answer (code : Nat) (data : List Byte)
  | blocked
  | halt (status : Nat)

/-- Enqueue the entry of the first blocked producer where a slot is free (R86, R87). -/
def serveBlocked (s : State) (q : Nat) : State :=
  let x := queueOf s q
  match x.blocked with
  | [] => s
  | p :: ps =>
    if !x.pointersOk then queueReset s q
    else if x.count ≥ 2 ^ x.entriesLog2 then s
    else
      match pushEntry (setQueue s q { x with blocked := ps }) q (p.bytes.take (2 ^ x.widthLog2)) with
      | (st, s) => if st = stOk then answerThread s p.thread 0 [] else haltThread s p.thread st

/-- Enqueue by a thread: it competes with the producers that are blocked (R83 to R89). -/
def enqueue (s : State) (q : Nat) (p : Producer) : QueueOutcome × State :=
  let x := queueOf s q
  if !x.usable p.did then (.halt stFirewall, s)
  else if !x.pointersOk then (.answer stQueueReset [], queueReset s q)
  else if x.count ≥ 2 ^ x.entriesLog2 then
    if x.refuse then (.answer 0x101 [], s)
    else (.blocked, setQueue s q { x with blocked := insertProducer x.blocked p })
  else match insertProducer x.blocked p with
    | [] => (.blocked, s)
    | first :: rest =>
      if first = p ∧ x.blocked = rest then match pushEntry s q (p.bytes.take (2 ^ x.widthLog2)) with
        | (st, s) => if st = stOk then (.answer 0 [], s) else (.halt st, s)
      else (.blocked, serveBlocked (setQueue s q { x with blocked := first :: rest }) q)

/-- Dequeue by a thread (R83 to R89). -/
def dequeue (s : State) (q did : Nat) : QueueOutcome × State :=
  let x := queueOf s q
  if !x.usable did then (.halt stFirewall, s)
  else if !x.pointersOk then (.answer stQueueReset [], queueReset s q)
  else if x.count = 0 then (.answer 0x100 [], s)
  else match popEntry s q with
    | (st, bs, s) => if st = stOk then (.answer 0 bs, s) else (.halt st, s)

def qIndex (d : Desc) : Nat := dfld d 16 0 17

/-- Host functions name no queue below 4,096 (R82). -/
def qAuthority (d : Desc) : Bool := decide (d.did ≤ 1) || decide (4096 ≤ qIndex d)

/-- A linked knot field: enable in bit 15, knot in [12:0] (R84). -/
def qLink (d : Desc) (byte : Nat) : Option Nat := if dbit d (byte + 1) 7 then some (dfld d byte 0 13) else none

/-- Status with which a linked knot refuses the queue's signals. -/
def linkCheck (s : State) (d : Desc) (k : Option Nat) : Nat :=
  match k with
  | some k => signalCheck s d.did (dGuarded d) k
  | none => stOk

/-- What R70 checks of QCreate. -/
def infoQCreate (s : State) (d : Desc) : OpInfo :=
  let q := qIndex d
  let x := queueOf s q
  let cls := if dGuarded d then (if createsGuarded d then some true else none) else if x.active && x.guarded then some true else none
  { fields := [(16, 0, 17), (20, 0, 4), (21, 0, 5), (22, 0, 1), (24, 0, 48), (32, 0, 13), (33, 7, 1), (34, 0, 13), (35, 7, 1)], cls := cls, configures := true, authority := qAuthority d }

/-- Q_CREATE (R84). -/
def execQCreate (d : Desc) (s : State) : Host.Outcome State Fault Refusal :=
  let q := qIndex d
  let x := queueOf s q
  .next (runDesc s d (infoQCreate s d) fun s =>
    let w := dfld d 20 0 4
    let n := dfld d 21 0 5
    let base := dfld d 24 0 48
    if w < 4 ∨ 8 < w ∨ n < 4 ∨ 16 < n ∨ base % 4096 ≠ 0 ∨ x.active then failWith s stDescInvalid
    else if linkCheck s d (qLink d 32) ≠ stOk then failWith s (linkCheck s d (qLink d 32))
    else if linkCheck s d (qLink d 34) ≠ stOk then failWith s (linkCheck s d (qLink d 34))
    else okWith (setQueue s q { Queue.reset with active := true, guarded := dGuarded d, owner := d.did, widthLog2 := w, entriesLog2 := n, refuse := dbit d 22 0, base := base, dataKnot := qLink d 32, spaceKnot := qLink d 34, resets := x.resets }) 0)

/-- What R70 checks of an operation on a queue (R82). -/
def infoQueueOp (configures : Bool) (s : State) (d : Desc) : OpInfo :=
  let x := queueOf s (qIndex d)
  { fields := [(16, 0, 17)], cls := if x.active && x.guarded then some true else none, configures := configures, authority := qAuthority d }

def infoQDestroy (s : State) (d : Desc) : OpInfo := infoQueueOp true s d
def infoQFlush (s : State) (d : Desc) : OpInfo := infoQueueOp true s d
def infoQQuery (s : State) (d : Desc) : OpInfo := infoQueueOp false s d

/-- What Q_DESTROY, Q_FLUSH and Q_QUERY share: the pointer check of every access and the owner's right (R83, R88). -/
def queueOp (s : State) (d : Desc) (o : OpInfo) (free : State → Answer) (act : State → Queue → Answer) : State :=
  let q := qIndex d
  let x := queueOf s q
  runDesc s d o fun s =>
    if x.active ∧ !x.usable d.did then failWith s stFirewall
    else if !x.pointersOk then failWith (queueReset s q) stQueueReset
    else if !x.active then free s
    else act s x

/-- Q_DESTROY (R84). DESIGN CHOICE (log 126): the queue's own counter of resets stays. -/
def execQDestroy (d : Desc) (s : State) : Host.Outcome State Fault Refusal :=
  .next (queueOp s d (infoQDestroy s d) (fun s => okWith s 0) fun s x =>
    if x.count ≠ 0 ∨ !x.blocked.isEmpty then failWith s stDescInvalid
    else okWith (setQueue s (qIndex d) { Queue.reset with resets := x.resets }) 0)

/-- Q_FLUSH (R90). -/
def execQFlush (d : Desc) (s : State) : Host.Outcome State Fault Refusal :=
  .next (queueOp s d (infoQFlush s d) (fun s => failWith s stDescInvalid) fun s x =>
    let s := x.blocked.foldl (fun s p => answerThread s p.thread stAborted []) s
    okWith (setQueue s (qIndex d) { x with head := x.tail, headInv := ~~~x.tail, tailInv := ~~~x.tail, blocked := [] }) x.count)

/-- Q_QUERY: tail in [31:0], head in [63:32] (R83). -/
def execQQuery (d : Desc) (s : State) : Host.Outcome State Fault Refusal :=
  .next (queueOp s d (infoQQuery s d) (fun s => failWith s stDescInvalid) fun s x =>
    okWith s (x.tail.toNat + x.head.toNat * 2 ^ 32))

/-- BLOCKED_ENQUEUE_RESUME: a slot is free; the first blocked producer's entry is enqueued (R87). -/
def execBlockedEnqueueResume (queue : Nat) (s : State) : Host.Outcome State Fault Refusal := .next (serveBlocked s queue)

/-- QMU_BACKGROUND_SWEEP: the sweep checks a context. `fault` is what its RAM shows: 0 nothing, 1 a corrected single-bit
error, 2 an uncorrectable error or pointer mismatch (R88, R89). -/
def execQmuBackgroundSweep (fault queue : Nat) (s : State) : Host.Outcome State Fault Refusal :=
  let q := queue % 131072
  let s := { s with qmu.sweep := (q + 1) % 131072 }
  if fault = 1 then .next { s with qmu.corrected := s.qmu.corrected + 1 }
  else if 2 ≤ fault ∨ !(queueOf s q).pointersOk then .next (queueReset s q)
  else .next s

end Sys2Proof.Machine
end

