-- ==== Sys2Proof/Machine/EngineMem.lean ====
section
/-! DEFINITION. Loads, stores, copies, synchronisation, calls and control flow of the engines, and the events that complete them (spec/12_engine_execution.md, spec/13_engine_instructions.md R318 to R327). -/

namespace Sys2Proof.Machine

/-! ### Places outside the window -/

/-- Core of a global engine number (R33). -/
def coreOfEngine (g : Nat) : Nat := g / 12

/-- Owner and class of a core memory page. -/
def corePage (s : State) (core page : Nat) : Nat × Bool := Tbl.at (0, false) s.eng.pages (core * 64 + page)

/-- The core memory check of R319 over the pages that `n` bytes at `a` touch; the top 24 pages are the solver unit's alone (R395). -/
def coreOk (s : State) (core a n did : Nat) (guarded write : Bool) : Bool :=
  decide (core < 6) && decide (a + n ≤ 40 * 131072) &&
  (List.range ((a + n - 1) / 131072 - a / 131072 + 1)).all (fun i =>
    let p := corePage s core (a / 131072 + i)
    p.1 == did && (if write then guarded || !p.2 else !guarded || p.2))

/-- The DRAM key that a device-virtual byte resolves to, where it is local and allowed. -/
def dramKey (s : State) (did : Nat) (guarded : Bool) (va : Nat) (write : Bool) : Option Nat :=
  match translate s did va write with
  | .ok (.localMem pa) => if fwAllows s did pa write guarded then some (Space.key .dram pa) else none
  | _ => none

/-- The instance that acts in a copy. -/
def CopyReq.window (s : State) (c : CopyReq) : Option Instance := s.eng.instances.find c.inst

/-- An exported window of another engine that covers `n` bytes at `a`, open to the requester (R277). -/
def exportedAt (s : State) (g a n run : Nat) (guarded : Bool) : Bool :=
  s.eng.instances.any (fun p => p.2.active && p.2.engine == g && p.2.exported && p.2.run == run && (guarded || !p.2.guarded)
    && inRange a n p.2.window p.2.windowBytes)

/-- A request to an engine that its isolation wrapper keeps from its unit: it is answered with UNIT_RESET (R488, R489, R492). -/
def atWrapper (s : State) (from_ g : Nat) : Bool := g != from_ && (Tbl.at UnitSafe.reset s.safe.units g).service != 0

/-- Engine and byte offset of a copy address in space 0 or 1 (R320). -/
def tilePlace (c : CopyReq) (space a : Nat) : Nat × Nat :=
  if space = 0 then (engineNo c.thread, a) else (bitsOf a 56 7, bitsOf a 0 21)

/-- A copy may touch `n` bytes of tile SRAM (R277). -/
def copyTileOk (s : State) (c : CopyReq) (space a n : Nat) (write : Bool) : Bool :=
  match c.window s with
  | none => false
  | some i =>
    if space = 0 then
      inRange a n i.window i.windowBytes || (!write && match codeRange s c.thread with
        | some (b, len) => inRange a n b len
        | none => false)
    else exportedAt s (bitsOf a 56 7) (bitsOf a 0 21) n i.run i.guarded

/-- Where a copy's accesses are accounted. -/
def CopyReq.who (c : CopyReq) : Who :=
  { did := c.did, guarded := c.guarded, kind := 1, index := engineNo c.thread, flows := c.flows, src := some (threadSrc c.thread) }

/-- Read one row of a copy: status, bytes, state (R277 to R279, R319, R320). -/
def copyRead (s : State) (c : CopyReq) (a n : Nat) : Nat × List Byte × State :=
  if c.srcSpace ≤ 1 then
    if c.srcSpace = 1 ∧ atWrapper s (engineNo c.thread) (bitsOf a 56 7) then (stUnitReset, [], s) else
    if !copyTileOk s c c.srcSpace a n false then (stFirewall, [], s) else
    let k := Space.key (.tile (tilePlace c c.srcSpace a).1) (tilePlace c c.srcSpace a).2
    if badIn s k n then (tileUe, [], s) else (stOk, Memory.reads s.mem k n, s)
  else if c.srcSpace = 2 then
    let core := coreOfEngine (engineNo c.thread)
    if !coreOk s core a n c.did c.guarded false then (stFirewall, [], s) else
    let k := Space.key (.core core) a
    if badIn s k n then (tileUe, [], s) else (stOk, Memory.reads s.mem k n, s)
  else devRead s c.who a n

/-- Write one row of a copy. -/
def copyWrite (s : State) (c : CopyReq) (a : Nat) (bs : List Byte) : Nat × State :=
  if c.dstSpace ≤ 1 then
    if c.dstSpace = 1 ∧ atWrapper s (engineNo c.thread) (bitsOf a 56 7) then (stUnitReset, s)
    else if !copyTileOk s c c.dstSpace a bs.length true then (stFirewall, s)
    else (stOk, sramWrite s (Space.key (.tile (tilePlace c c.dstSpace a).1) (tilePlace c c.dstSpace a).2) bs)
  else if c.dstSpace = 2 then
    let core := coreOfEngine (engineNo c.thread)
    if !coreOk s core a bs.length c.did c.guarded true then (stFirewall, s)
    else (stOk, sramWrite s (Space.key (.core core) a) bs)
  else devWrite s c.who a bs

/-- Address `j` bytes into row `r` of a side of a copy. -/
def rowAddr (base : Nat) (stride : Int) (r : Nat) : Nat := (((base : Int) + stride * r) % 2 ^ 64).toNat

/-- The memory key of a copy byte, where it lies in a memory of the device and may be reached. -/
def copyKey (s : State) (c : CopyReq) (space a : Nat) (write : Bool) : Option Nat :=
  if space ≤ 1 then
    if copyTileOk s c space a 1 write then some (Space.key (.tile (tilePlace c space a).1) (tilePlace c space a).2) else none
  else if space = 2 then
    let core := coreOfEngine (engineNo c.thread)
    if coreOk s core a 1 c.did c.guarded write then some (Space.key (.core core) a) else none
  else dramKey s c.did c.guarded a write

/-- Keys of all bytes of one side of a copy. -/
def sideKeys (s : State) (c : CopyReq) (dst : Bool) : List Nat :=
  (List.range c.rows).flatMap (fun r =>
    (List.range c.rowBytes).filterMap (fun j =>
      if dst then copyKey s c c.dstSpace (rowAddr c.dst c.dstStride r + j) true
      else copyKey s c c.srcSpace (rowAddr c.src c.srcStride r + j) false))

/-- Destination bytes outside the source hold free values from the acceptance of a copy until its done step (R281). -/
def openCopy (s : State) (c : CopyReq) : State :=
  let src := sideKeys s c false
  scribble s ((sideKeys s c true).filter (fun k => !src.contains k))

/-- Read all rows of a copy. -/
def copyRows (c : CopyReq) : List Nat → State → Nat × List (Nat × List Byte) × State
  | [], s => (stOk, [], s)
  | r :: rs, s =>
    match copyRead s c (rowAddr c.src c.srcStride r) c.rowBytes with
    | (st, bs, s) =>
      if st ≠ stOk then (st, [], s) else
      match copyRows c rs s with
      | (st, out, s) => (st, (r, bs) :: out, s)

/-- Write all rows of a copy. -/
def putRows (c : CopyReq) : List (Nat × List Byte) → State → Nat × State
  | [], s => (stOk, s)
  | (r, bs) :: rs, s =>
    match copyWrite s c (rowAddr c.dst c.dstStride r) bs with
    | (st, s) => if st ≠ stOk then (st, s) else putRows c rs s

/-- Keys that occur twice in a list. -/
def repeated : List Nat → List Nat
  | [] => []
  | k :: ks => if ks.contains k then k :: repeated ks else repeated ks

/-- Carry out a copy: every destination byte that is also a source byte, or is written twice, ends as a free value (R321). -/
def runCopy (s : State) (c : CopyReq) : Nat × State :=
  let src := sideKeys s c false
  let dst := sideKeys s c true
  let both := dst.filter (fun k => src.contains k) ++ repeated dst
  match copyRows c (List.range c.rows) s with
  | (st, rows, s) =>
    if st ≠ stOk then (st, s) else
    match putRows c rows s with
    | (st, s) => (st, if both.isEmpty then s else scribble s both)

/-! ### Effects that leave the window (R279 to R281, R292) -/

/-- Stores of a thread that are held in RESIDUE. -/
def heldStores (x : Thread) : Nat := (x.held.filter (fun p => match p.2 with | .store _ => true | _ => false)).length
def heldCopies (x : Thread) : Nat := (x.held.filter (fun p => match p.2 with | .copy _ => true | _ => false)).length
def heldCalls (x : Thread) : Nat := (x.held.filter (fun p => match p.2 with | .call _ _ _ => true | _ => false)).length

/-- The copy unit has a place for a request of a thread (R280). -/
def copyRoom (s : State) (t : Nat) : Bool :=
  let g := engineNo t
  let own := ((engineOf s g).copies.filter (fun c => c.thread == t)).length + heldCopies (thread s t)
  let all := (engineOf s g).copies.length + ((List.range 64).map (fun i => heldCopies (thread s (g * 64 + i)))).foldl (· + ·) 0
  decide (own < 16) && decide (all < 128)

/-- Signal a local or remote knot for a thread (R94, R98, R99, R322). -/
def threadSignal (s : State) (t : Nat) (w : Who) : Effect → State
  | .signal k m remote set v =>
    gateSignal s {
      src := threadSrc t, sig := { knot := k, set := set, value := BitVec.ofNat 32 v, did := w.did, unit := engineNo t, index := 0 },
      module := if remote then some m else none, guarded := w.guarded, kind := 1, index := engineNo t }
  | _ => s

/-- The units that accept calls (R299). -/
def callUnit (u : Nat) : Bool := [0x0B, 0x0E, 0x0C, 0x0D, 0x06, 0x05].contains u

/-- Complete a call's descriptor with a status. -/
def endCall (s : State) (t slot status : Nat) : State :=
  updThread s t (fun x => { x with calls := x.calls.map (fun c => if c.slot = slot ∧ c.done = none then { c with done := some (status, 0, 0, 0) } else c) })

/-- Submit the descriptor of a call: its unit takes and checks it at its arrival (R299, R324). -/
def submitCall (s : State) (t desc rcd slot : Nat) : State :=
  let raw := BitVec.ofNat 512 (ofLe (tileRead s t desc 64))
  let s := updThread s t (fun x => { x with calls := x.calls ++ [{ slot := slot, recOff := rcd, raw := raw, arrived := false, wait := .free, satisfied := false, done := none }] })
  if badIn s (Space.key (.tile (engineNo t)) desc) 64 then haltFor s t tileUe else s

/-- END: the thread is FREE (R274). -/
def endThreadNow (s : State) (t : Nat) : State :=
  updThread s t (fun x => { x with st := .free, inst := none, waiting := .none })

/-- Hand an enqueue to the queue management unit (R323). -/
def pushNow (s : State) (t q : Nat) (bytes : List Byte) : State :=
  match enqueue s q { thread := t, did := (threadWho s t).did, bytes := bytes } with
  | (.answer c d, s) => answerThread s t c d
  | (.blocked, s) => s
  | (.halt st, s) => haltThread s t st

/-- Let an effect leave. -/
def perform (s : State) (t : Nat) : Effect → State
  | .store st =>
    let e := engineOf s (engineNo t)
    setEngine (updThread s t (fun x => { x with posted := x.posted ++ [{ st with no := e.stores }] })) (engineNo t) { e with stores := e.stores + 1 }
  | .copy c =>
    let s := openCopy s c
    setEngine s (engineNo t) { engineOf s (engineNo t) with copies := (engineOf s (engineNo t)).copies ++ [c] }
  | .signal k m r set v =>
    if (thread s t).posted.isEmpty then threadSignal s t (threadWho s t) (.signal k m r set v)
    else updThread s t (fun x => { x with signals := x.signals ++ [(x.posted.length, .signal k m r set v)] })
  | .push q bytes => pushNow s t q bytes
  | .call d r slot => submitCall s t d r slot
  | .finish => endThreadNow s t

/-- Let an effect leave, or hold it until the verdicts of the earlier instructions have passed (R292). -/
def leave (s : State) (t : Nat) (e : Effect) : State :=
  let x := thread s t
  if (threadWho s t).guarded ∧ (x.passNo + 1 < x.issueNo ∨ !x.held.isEmpty) then
    updThread s t (fun x => { x with held := x.held ++ [(x.issueNo - 1, e)] })
  else perform s t e

/-- Release the held effects whose earlier verdicts have all passed, oldest first. -/
def releaseHeld (t : Nat) : Nat → State → State
  | 0, s => s
  | fuel + 1, s =>
    match (thread s t).held with
    | (n, e) :: rest =>
      if n ≤ (thread s t).passNo then releaseHeld t fuel (perform (updThread s t (fun x => { x with held := rest })) t e) else s
    | [] => s

/-- The conditions that a FENCE selects hold (R325). -/
def fencePassed (x : Thread) (mask : Nat) : Bool :=
  (!mask.testBit 0 || (x.posted.isEmpty && heldStores x == 0)) && (!mask.testBit 1 || x.done == x.issued)
    && (!mask.testBit 2 || (x.calls.isEmpty && heldCalls x == 0))

/-- The first condition of a FENCE that does not hold (R325). -/
def fenceReason (x : Thread) (mask : Nat) : WaitReason :=
  if !fencePassed x (mask % 2) then .mem else if !fencePassed x (mask % 4) then .copy else .call

/-- COPY has a slot: the request is accepted (R280, R281, R320). -/
def acceptCopy (s : State) (t : Nat) (c : CopyReq) (d : Nat) : State :=
  let x := thread s t
  let n := (x.issued + 1) % 65536
  let c : CopyReq := { c with no := n, ahead := x.posted.length + heldStores x }
  let s := updThread s t (fun x => { x with issued := n }.setX d (BitVec.ofNat 64 n))
  if c.dstSpace = 0 then perform s t (.copy c) else leave s t (.copy c)

/-- The lowest free call slot. -/
def freeSlot (x : Thread) : Option Nat :=
  (List.range 8).find? (fun i => !x.calls.any (fun c => c.slot == i) &&
    !x.held.any (fun p => match p.2 with | .call _ _ k => k == i | _ => false))

/-- End a wait whose condition holds now (R279 to R281, R299, R325). -/
def recheck (s : State) (t : Nat) : State :=
  let x := thread s t
  match x.waiting with
  | .storeSlot st => if x.posted.length + heldStores x < 16 then leave (wakeThread s t) t (.store st) else s
  | .copySlot c d => if copyRoom s t then acceptCopy (wakeThread s t) t c d else s
  | .copyDone k => if (x.done + 65536 - k) % 65536 < 32768 then wakeThread s t else s
  | .fence mask => if fencePassed x mask then wakeThread s t else updThread s t (fun x => { x with st := .wait (fenceReason x mask) })
  | .callSlot desc rcd d =>
    match freeSlot x with
    | some slot => leave (updThread (wakeThread s t) t (fun x => x.setX d 0)) t (.call desc rcd slot)
    | none => s
  | _ => s

/-- Recheck every thread of an engine, lower numbers first. -/
def recheckEngine (s : State) (g : Nat) : State := (List.range 64).foldl (fun s i => recheck s (g * 64 + i)) s

/-! ### Loads and stores (R318, R319) -/

/-- Address of a vector access: x[a], without the immediate. -/
def addrReg (s : State) (t : Nat) (e : Enc) : Nat := (xa s t e).toNat

/-- Status of an access of `n` bytes at `a` before it leaves (R318, R319). -/
def outCheck (s : State) (t : Nat) (p : Place) (a n : Nat) (write : Bool) : Nat :=
  if n = 0 ∨ 256 < n ∨ a % 4096 + n > 4096 then stDescInvalid
  else match p with
    | .device => stOk
    | .core =>
      let w := threadWho s t
      if coreOk s (coreOfEngine (engineNo t)) a n w.did w.guarded write then stOk else stFirewall

/-- Start a load: the thread waits in WAIT MEM (R279). -/
def startLoad (s : State) (t : Nat) (l : Load) : Except Nat State :=
  if outCheck s t l.place l.addr l.size false ≠ stOk then .error (outCheck s t l.place l.addr l.size false)
  else .ok (updThread s t (fun x => { x with st := .wait .mem, waiting := .load l }))

/-- Post a store, or wait for the oldest of sixteen (R279). -/
def startStore (s : State) (t : Nat) (p : Place) (a : Nat) (bs : List Byte) : Except Nat State :=
  if outCheck s t p a bs.length true ≠ stOk then .error (outCheck s t p a bs.length true)
  else
    let w := threadWho s t
    let st : Store := { place := p, addr := a, bytes := bs, no := 0, inst := (thread s t).inst.getD 0, did := w.did, guarded := w.guarded, flows := w.flows }
    if (thread s t).posted.length + heldStores (thread s t) < 16 then .ok (leave s t (.store st))
    else .ok (updThread s t (fun x => { x with st := .wait .mem, waiting := .storeSlot st }))

def usesLoad : Uses := { d := true, a := true, f := true, m := 1, imm := immAll }
def usesStore : Uses := { a := true, b := true, f := true, imm := immAll }
def usesLoadV : Uses := { d := true, a := true, imm := 0x1FF, vd := true }
def usesStoreV : Uses := { a := true, b := true, imm := 0x1FF, vb := true }

def scalarLoad (p : Place) (t : Nat) (e : Enc) (s : State) : State :=
  issue s t e usesLoad fun s =>
    if 3 < e.f.toNat then .error stDescInvalid
    else startLoad s t { place := p, addr := addrImm s t e, size := 2 ^ e.f.toNat, vector := false, signExt := mBit e 0, d := e.d.toNat }

def scalarStore (p : Place) (t : Nat) (e : Enc) (s : State) : State :=
  issue s t e usesStore fun s =>
    if 3 < e.f.toNat then .error stDescInvalid
    else startStore s t p (addrImm s t e) (leBytes (2 ^ e.f.toNat) (xb s t e).toNat)

def vectorLoad (p : Place) (t : Nat) (e : Enc) (s : State) : State :=
  issue s t e usesLoadV fun s =>
    startLoad s t { place := p, addr := addrReg s t e, size := immBits e 0 9, vector := true, signExt := false, d := e.d.toNat }

def vectorStore (p : Place) (t : Nat) (e : Enc) (s : State) : State :=
  issue s t e usesStoreV fun s =>
    if 256 < immBits e 0 9 then .error stDescInvalid
    else startStore s t p (addrReg s t e) (vecBytes ((thread s t).vr e.b.toNat) (immBits e 0 9))

/-- LDG (R318). -/
def execLdg (t : Nat) (e : Enc) (s : State) : Host.Outcome State Fault Refusal := .next (scalarLoad .device t e s)
/-- STG (R318). -/
def execStg (t : Nat) (e : Enc) (s : State) : Host.Outcome State Fault Refusal := .next (scalarStore .device t e s)
/-- LDGV (R318). -/
def execLdgv (t : Nat) (e : Enc) (s : State) : Host.Outcome State Fault Refusal := .next (vectorLoad .device t e s)
/-- STGV (R318). -/
def execStgv (t : Nat) (e : Enc) (s : State) : Host.Outcome State Fault Refusal := .next (vectorStore .device t e s)
/-- LDC (R318). -/
def execLdc (t : Nat) (e : Enc) (s : State) : Host.Outcome State Fault Refusal := .next (scalarLoad .core t e s)
/-- STC (R318). -/
def execStc (t : Nat) (e : Enc) (s : State) : Host.Outcome State Fault Refusal := .next (scalarStore .core t e s)
/-- LDCV (R318). -/
def execLdcv (t : Nat) (e : Enc) (s : State) : Host.Outcome State Fault Refusal := .next (vectorLoad .core t e s)
/-- STCV (R318). -/
def execStcv (t : Nat) (e : Enc) (s : State) : Host.Outcome State Fault Refusal := .next (vectorStore .core t e s)

/-- COPY (R280, R281, R320). -/
def execCopy (t : Nat) (e : Enc) (s : State) : Host.Outcome State Fault Refusal :=
  .next (issue s t e { d := true, a := true, imm := 0xF3FFF } fun s =>
    if 28 < e.a.toNat then .error stDescInvalid else
    let x := thread s t
    let r := fun k => (x.xr (e.a.toNat + k)).toNat
    if 65535 < bitsOf (r 3) 0 17 ∨ 65535 < bitsOf (r 3) 17 17 then .error stDescInvalid else
    let w := threadWho s t
    let c : CopyReq :=
      { thread := t, inst := x.inst.getD 0, did := w.did, guarded := w.guarded, flows := w.flows, no := 0, ahead := 0,
        src := r 0, dst := r 1, srcStride := signed 32 (r 2), dstStride := signed 32 (r 2 / 2 ^ 32),
        rowBytes := bitsOf (r 3) 0 17 + 1, rows := bitsOf (r 3) 17 17 + 1, srcSpace := immBits e 16 2, dstSpace := immBits e 18 2,
        knot := if e.imm.getLsbD 13 then some (immBits e 0 13) else none }
    if copyRoom s t then .ok (acceptCopy s t c e.d.toNat)
    else .ok (updThread s t (fun x => { x with st := .wait .copy, waiting := .copySlot c e.d.toNat })))

/-- WAITC (R281, R320). -/
def execWaitc (t : Nat) (e : Enc) (s : State) : Host.Outcome State Fault Refusal :=
  .next (issue s t e { a := !e.i, i := true, imm := if e.i then 0xFFFF else 0 } fun s =>
    let k := if e.i then immBits e 0 16 else (xa s t e).toNat % 65536
    .ok (recheck (updThread s t (fun x => { x with st := .wait .copy, waiting := .copyDone k })) t))

/-! ### Synchronisation (R322 to R325) -/

/-- The knot operand: knot, module, and whether it names another module. -/
def knotOperand (s : State) (t : Nat) (e : Enc) : Nat × Nat × Bool :=
  let x := (xa s t e).toNat
  (bitsOf x 0 13, bitsOf x 16 4, mBit e 1 && bitsOf x 16 4 != s.oct.module)

def usesKnot (e : Enc) (m : Nat) : Uses := { a := true, b := !e.i, i := true, m := m, imm := if e.i then immAll else 0 }

/-- SIGK (R296, R322). -/
def execSigk (t : Nat) (e : Enc) (s : State) : Host.Outcome State Fault Refusal :=
  .next (issue s t e (usesKnot e 3) fun s =>
    let k := knotOperand s t e
    let v := (opB s t e).toNat
    let set := mBit e 0
    if (set ∧ k.2.2) ∨ (!set ∧ (v = 0 ∨ 2 ^ 31 ≤ v)) then .error stDescInvalid
    else .ok (leave s t (.signal k.1 k.2.1 k.2.2 set (v % 2 ^ 32))))

/-- WAITK (R297, R322). -/
def execWaitk (t : Nat) (e : Enc) (s : State) : Host.Outcome State Fault Refusal :=
  .next (issue s t e (usesKnot e 2) fun s =>
    let k := knotOperand s t e
    let v : W32 := if e.i then e.imm else (xb s t e).truncate 32
    if k.2.2 then .error stDescInvalid
    else if (knotOf s k.1).st = .poisoned then .error stInternal
    else
      let s := updThread s t (fun x => { x with st := .wait .knot, waiting := .knot })
      .ok { s with eng.waits := s.eng.waits.put t { knot := k.1, value := v, satisfied := knotPassed (knotOf s k.1).value v } })

/-- RDK (R322): the value returns at once. -/
def execRdk (t : Nat) (e : Enc) (s : State) : Host.Outcome State Fault Refusal :=
  .next (issue s t e { d := true, a := true, m := 2 } fun s =>
    let k := knotOperand s t e
    if k.2.2 then .error stDescInvalid
    else if (knotOf s k.1).st = .poisoned then .error stInternal
    else .ok (writeX s t e.d ((knotOf s k.1).value.zeroExtend 64)))

/-- The queue that x[a] names. -/
def queueOperand (s : State) (t : Nat) (e : Enc) : Nat := (xa s t e).toNat % 2 ^ 17

/-- Enter WAIT QUEUE. -/
def waitQueue (s : State) (t : Nat) (e : Enc) (pop : Bool) : State :=
  updThread s t (fun x => { x with st := .wait .queue, waiting := .queue { pop := pop, queue := queueOperand s t e, d := e.d.toNat, reg := e.b.toNat, answer := none, data := [] } })

/-- QPUSH (R298, R323). -/
def execQpush (t : Nat) (e : Enc) (s : State) : Host.Outcome State Fault Refusal :=
  .next (issue s t e { d := true, a := true, b := true, vb := true } fun s =>
    .ok (leave (waitQueue s t e false) t (.push (queueOperand s t e) (vecBytes ((thread s t).vr e.b.toNat) 256))))

/-- QPOP (R298, R323). -/
def execQpop (t : Nat) (e : Enc) (s : State) : Host.Outcome State Fault Refusal :=
  .next (issue s t e { d := true, a := true, b := true, vb := true } fun s =>
    match dequeue (waitQueue s t e true) (queueOperand s t e) (threadWho s t).did with
    | (.answer c bs, s) => .ok (answerThread s t c bs)
    | (.blocked, s) => .ok s
    | (.halt st, s) => .ok (haltThread s t st))

/-- CALL (R299, R324). -/
def execCall (t : Nat) (e : Enc) (s : State) : Host.Outcome State Fault Refusal :=
  .next (issue s t e { d := true, a := true, b := true } fun s =>
    match instOf s t with
    | none => .error stFirewall
    | some i =>
      let desc := (xa s t e).toNat
      let rec_ := (xb s t e).toNat
      if desc % 256 ≠ 0 ∨ rec_ % 32 ≠ 0 then .error stDescInvalid
      else if i.windowBytes < desc + 64 ∨ i.windowBytes < rec_ + 32 then .error stFirewall
      else .ok (recheck (updThread s t (fun x => { x with st := .wait .call, waiting := .callSlot (i.window + desc) (i.window + rec_) e.d.toNat })) t))

/-- FENCE (R325). -/
def execFence (t : Nat) (e : Enc) (s : State) : Host.Outcome State Fault Refusal :=
  .next (issue s t e { imm := 7 } fun s =>
    let mask := immBits e 0 3
    let x := thread s t
    if fencePassed x mask then .ok s
    else .ok (updThread s t (fun x => { x with st := .wait (fenceReason x mask), waiting := .fence mask })))

/-! ### Control flow (R326) -/

/-- Go to an instruction index: a target outside the resident code halts the thread (R327). -/
def goTo (s : State) (t : Nat) (target : Int) : Except Nat State :=
  match codeRange s t with
  | none => .error stDescInvalid
  | some (_, len) =>
    if target < 0 ∨ (len : Int) ≤ 8 * target then .error stDescInvalid
    else .ok (updThread s t (fun x => { x with pc := target.toNat }))

/-- Target of a relative branch: the pc has passed the instruction. -/
def relTarget (s : State) (t : Nat) (e : Enc) : Int := (thread s t).pc - 1 + e.imm.toInt

def branch (c : W64 → W64 → Bool) (t : Nat) (e : Enc) (s : State) : State :=
  issue s t e { a := true, b := true, imm := immAll } fun s =>
    if c (xa s t e) (xb s t e) then goTo s t (relTarget s t e) else .ok s

/-- BEQ (R326). -/
def execBeq (t : Nat) (e : Enc) (s : State) : Host.Outcome State Fault Refusal := .next (branch (fun a b => a == b) t e s)
/-- BNE (R326). -/
def execBne (t : Nat) (e : Enc) (s : State) : Host.Outcome State Fault Refusal := .next (branch (fun a b => a != b) t e s)
/-- BLT (R326). -/
def execBlt (t : Nat) (e : Enc) (s : State) : Host.Outcome State Fault Refusal := .next (branch (fun a b => decide (a.toInt < b.toInt)) t e s)
/-- BGE (R326). -/
def execBge (t : Nat) (e : Enc) (s : State) : Host.Outcome State Fault Refusal := .next (branch (fun a b => decide (b.toInt ≤ a.toInt)) t e s)
/-- BLTU (R326). -/
def execBltu (t : Nat) (e : Enc) (s : State) : Host.Outcome State Fault Refusal := .next (branch (fun a b => decide (a.toNat < b.toNat)) t e s)
/-- BGEU (R326). -/
def execBgeu (t : Nat) (e : Enc) (s : State) : Host.Outcome State Fault Refusal := .next (branch (fun a b => decide (b.toNat ≤ a.toNat)) t e s)

/-- JMP (R326). -/
def execJmp (t : Nat) (e : Enc) (s : State) : Host.Outcome State Fault Refusal :=
  .next (issue s t e { imm := immAll } fun s => goTo s t (relTarget s t e))

/-- JAL: x[d] := pc + 8 in bytes of code (R326). -/
def execJal (t : Nat) (e : Enc) (s : State) : Host.Outcome State Fault Refusal :=
  .next (issue s t e { d := true, imm := immAll } fun s =>
    match goTo s t (relTarget s t e) with
    | .error st => .error st
    | .ok s' => .ok (writeX s' t e.d (BitVec.ofNat 64 (8 * (thread s t).pc))))

/-- JR (R326). -/
def execJr (t : Nat) (e : Enc) (s : State) : Host.Outcome State Fault Refusal :=
  .next (issue s t e { a := true } fun s =>
    let x := (xa s t e).toNat
    if x % 8 ≠ 0 then .error stDescInvalid else goTo s t ((x / 8 : Nat) : Int))

/-- TRAPF (R326, R327). -/
def execTrapf (t : Nat) (e : Enc) (s : State) : Host.Outcome State Fault Refusal :=
  .next (issue s t e { imm := 0x7F } fun s =>
    if (thread s t).flags &&& immBits e 0 7 ≠ 0 then .error stNumeric else .ok s)

/-- END (R274, R292). -/
def execEndThread (t : Nat) (e : Enc) (s : State) : Host.Outcome State Fault Refusal :=
  .next (issue s t e {} fun s => .ok (leave s t .finish))

/-! ### Events -/

/-- The report of an uncorrectable SRAM word and the halt of the reading thread (R278). -/
def sramFault (s : State) (t : Nat) : State := haltFor s t tileUe

/-- Count a corrected tile SRAM error (R278). -/
def countCorrected (s : State) (g : Nat) : State :=
  setEngine s g { engineOf s g with corrected := satAdd 16 (engineOf s g).corrected 1 }

/-- FETCH_ARRIVAL: the block that holds the next instruction arrives (R273, R278, R327). `ecc`: 0 no error, 1 corrected,
2 uncorrectable. -/
def execFetchArrival (t ecc : Nat) (s : State) : Host.Outcome State Fault Refusal :=
  let x := thread s t
  if x.st ≠ .ready ∨ x.fetched = some (x.pc / 8) then .next s else
  match codeRange s t with
  | none => .next (haltThread s t stDescInvalid)
  | some (base, len) =>
    if len ≤ 8 * x.pc then .next (haltThread s t stDescInvalid)
    else if ecc = 2 ∨ badIn s (Space.key (.tile (engineNo t)) (base + x.pc / 8 * 64)) 64 then .next (sramFault s t)
    else
      let s := if ecc = 1 then countCorrected s (engineNo t) else s
      .next (updThread s t (fun x => { x with fetched := some (x.pc / 8) }))

/-- The bytes of a load, with the ECC outcome of the read: 0 none, 1 corrected, 2 uncorrectable (R279, R418). -/
def loadBytes (s : State) (t : Nat) (l : Load) (ecc : Nat) : Nat × List Byte × State :=
  let w := threadWho s t
  match l.place with
  | .core =>
    let k := Space.key (.core (coreOfEngine (engineNo t))) l.addr
    if ecc = 2 ∨ badIn s k l.size then (tileUe, [], s) else (stOk, Memory.reads s.mem k l.size, s)
  | .device =>
    match translate s w.did l.addr false with
    | .ok (.localMem pa) =>
      let ecc := if fwAllows s w.did pa false w.guarded then ecc else 0
      let m := mcOf pa
      let c := Tbl.at MemCtl.reset s.mmu.mcs m
      let s := if ecc = 1 then { s with mmu.mcs := s.mmu.mcs.put m { c with ce := satAdd 16 c.ce 1 } }
        else if ecc = 2 then { s with mmu.mcs := s.mmu.mcs.put m { c with ue := satAdd 16 c.ue 1, ueAddr := pa }, mmu.poison := insertLine s.mmu.poison (pa / 64) }
        else s
      devRead s w l.addr l.size
    | _ => devRead s w l.addr l.size

/-- LOAD_RETURN: the data of a thread's load arrives, after its own earlier stores (R279, R318). -/
def execLoadReturn (t ecc : Nat) (s : State) : Host.Outcome State Fault Refusal :=
  let x := thread s t
  match x.waiting with
  | .load l =>
    if !x.posted.isEmpty ∨ heldStores x ≠ 0 then .next s else
    match loadBytes s t l ecc with
    | (st, bs, s) =>
      if st ≠ stOk then .next (haltFor s t st)
      else if l.vector then .next (updThread (wakeThread s t) t (fun x => x.setV l.d (vecOfBytes bs)))
      else .next (updThread (wakeThread s t) t (fun x => x.setX l.d (extendTo l.size l.signExt (ofLe bs))))
  | _ => .next s

/-- Signals whose earlier stores are done (R296). -/
def dueSignals (s : State) (t : Nat) (w : Who) : State :=
  let due := (thread s t).signals.filter (fun p => p.1 == 0)
  let s := updThread s t (fun x => { x with signals := x.signals.filter (fun p => p.1 != 0) })
  due.foldl (fun s p => threadSignal s t w p.2) s

/-- Whose access a posted store is. -/
def Store.who (st : Store) (t : Nat) : Who :=
  { did := st.did, guarded := st.guarded, kind := 1, index := engineNo t, flows := st.flows, src := some (threadSrc t) }

/-- Write one posted store: its status. -/
def storeNow (s : State) (t : Nat) (st : Store) : Nat × State :=
  match st.place with
  | .core => (stOk, sramWrite s (Space.key (.core (coreOfEngine (engineNo t))) st.addr) st.bytes)
  | .device => devWrite s (st.who t) st.addr st.bytes

/-- The memory and the first and last line of 64 bytes that a posted store writes: none where its address translates to nothing. -/
def Store.lines (s : State) (st : Store) : Option (Nat × Nat × Nat) :=
  let span := fun (m a : Nat) => some (m, a / 64, (a + st.bytes.length - 1) / 64)
  match st.place with
  | .core => span 0 st.addr
  | .device => match translate s st.did st.addr true with
    | .ok (.localMem pa) => span 1 pa
    | .ok (.host a) => span 2 a
    | .ok (.peer m a) => span (3 + m) a
    | .error _ => none

/-- An older store of another thread of the engine to a line of this one is not done: one master's writes to a line keep their order (R42). -/
def olderStore (s : State) (t : Nat) (st : Store) : Bool :=
  (List.range 64).any (fun i =>
    let u := engineNo t * 64 + i
    u != t && (thread s u).posted.any (fun o => decide (o.no < st.no) && match o.lines s, st.lines s with
      | some a, some b => a.1 == b.1 && decide (a.2.1 ≤ b.2.2) && decide (b.2.1 ≤ a.2.2)
      | _, _ => false))

/-- POSTED_STORE_DONE: the oldest posted store of a thread is visible (R279, R296, R325). The signals behind a store that fails are never applied (R98). -/
def execPostedStoreDone (t : Nat) (s : State) : Host.Outcome State Fault Refusal :=
  match (thread s t).posted with
  | [] => .next s
  | st :: rest =>
    if olderStore s t st then .next s else
    match storeNow s t st with
    | (status, s) =>
      let s := updThread s t (fun x => { x with posted := rest, signals := if status = stOk then x.signals.map (fun p => (p.1 - 1, p.2)) else [] })
      let g := engineNo t
      let s := setEngine s g { engineOf s g with copies := (engineOf s g).copies.map (fun c => if c.thread = t ∧ c.inst = st.inst then { c with ahead := c.ahead - 1 } else c) }
      let s := together s (fun s => dueSignals s t (st.who t))
      if status ≠ stOk ∧ (thread s t).inst = some st.inst then .next (recheckEngine (haltThread s t status) g)
      else .next (recheck s t)

/-- A request that the engine's copy unit accepted before this one writes to a line of 64 bytes that this one writes: the writes keep
their order (R42, R280). -/
def olderCopy (s : State) (c : CopyReq) : Bool :=
  let lines := fun (q : CopyReq) => (sideKeys s q true).map (· / 64)
  ((engineOf s (engineNo c.thread)).copies.takeWhile (fun q => q != c)).any (fun q => q.thread != c.thread && (lines q).any (lines c).contains)

/-- COPY_DONE: the done step of a thread's oldest request (R280, R281, R321). -/
def execCopyDone (t : Nat) (s : State) : Host.Outcome State Fault Refusal :=
  let g := engineNo t
  match (engineOf s g).copies.find? (fun c => c.thread == t) with
  | none => .next s
  | some c =>
    let mine := (thread s t).inst == some c.inst
    if c.ahead ≠ 0 ∨ (mine ∧ c.no ≠ ((thread s t).done + 1) % 65536) ∨ olderCopy s c then .next s else
    match runCopy s c with
    | (st, s) =>
      let s := setEngine s g { engineOf s g with copies := (engineOf s g).copies.filter (fun q => !(q.thread == t && q.no == c.no && q.inst == c.inst)) }
      let s := if mine then updThread s t (fun x => { x with done := (x.done + 1) % 65536 }) else s
      if st ≠ stOk then .next (recheckEngine (if mine then haltFor s t st else if st = tileUe then ueReport s c.who else s) g)
      else
        let s := match c.knot with
          | some k => gateSignal s { src := threadSrc t, sig := { knot := k, set := false, value := 1, did := c.did, unit := g, index := 0 }, module := none, guarded := c.guarded, kind := 1, index := g }
          | none => s
        .next (recheckEngine s g)

/-- Epoch index of the bound work of a thread. -/
def runEpoch (s : State) (t : Nat) : Option Nat :=
  ((instOf s t).bind (fun i => s.eng.runs.find i.run)).bind (fun r => if r.bound.isSome then some r.epoch else none)

/-- RESIDUE_VERDICT: the verdict of the oldest instruction without one (R291 to R293). -/
def execResidueVerdict (t : Nat) (pass : Bool) (s : State) : Host.Outcome State Fault Refusal :=
  let x := thread s t
  let w := threadWho s t
  if !w.guarded ∨ x.inst = none ∨ x.issueNo ≤ x.passNo then .next s
  else if pass then
    let s := updThread s t (fun x => { x with passNo := x.passNo + 1 })
    .next (releaseHeld t x.held.length s)
  else
    let g := engineNo t
    let e := engineOf s g
    let s := setEngine s g { e with mismatches := satAdd 16 e.mismatches 1, lastMismatch := t % 64 }
    let s := raise s { reportOf s sevDoubt 1 g stMismatch with status := stMismatch, guarded := true, did := w.did, flows := w.flows, detail := t, epoch := runEpoch s t }
    .next (recheckEngine (haltThread s t stMismatch) g)

/-- QUEUE_ANSWER: the queue management unit's answer reaches the thread (R298, R323). -/
def execQueueAnswer (t : Nat) (s : State) : Host.Outcome State Fault Refusal :=
  match (thread s t).waiting with
  | .queue w =>
    match w.answer with
    | none => .next s
    | some c =>
      let s := updThread (wakeThread s t) t (fun x => x.setX w.d (BitVec.ofNat 64 c))
      if w.pop ∧ c = 0 then .next (updThread s t (fun x => x.setV w.reg (vecOfBytes w.data))) else .next s
  | _ => .next s

/-- The completion record of a call (R72, R299, R324): its phase bit is a free value. -/
def callRecord (s : State) (t : Nat) (d : Desc) (done : Nat × Nat × Nat × Nat) : List Byte :=
  let r : Rec :=
    { w0 := done.2.1, w1 := s.now, w2 := dTag d + t * 2 ^ 32, age := done.2.2.1, num := 0x3FF, kind := 1,
      status := done.1, flags := done.2.2.2 }
  r.bytes ((Config.freeByte s.fresh t).getLsbD 0)

/-- CALL_COMPLETION: the unit writes the record of a completed call and signals its knot; the slot frees (R299). -/
def execCallCompletion (t slot : Nat) (s : State) : Host.Outcome State Fault Refusal :=
  match (thread s t).calls.find? (fun c => c.slot == slot) with
  | none => .next s
  | some c =>
    match c.done with
    | none => .next s
    | some done =>
      let d : Desc := ⟨.call t slot, (threadWho s t).did, c.raw⟩
      let s := tickFresh (tileWrite s t c.recOff (callRecord s t d done))
      let s := headerSignal s d
      let s := updThread s t (fun x => { x with calls := x.calls.filter (fun q => q.slot ≠ slot) })
      .next (recheck s t)

end Sys2Proof.Machine
end

