-- ==== Sys2Proof/Machine/Units.lean ====
section
/-! DEFINITION. The units that have a service state, their tests and their debts of golden runs (spec/20_safety_mechanisms.md R480, R483, R484, R487, R491). -/

namespace Sys2Proof.Machine

def unitSafe (s : State) (u : Nat) : UnitSafe := Tbl.at UnitSafe.reset s.safe.units u
def setUnit (s : State) (u : Nat) (x : UnitSafe) : State := { s with safe.units := s.safe.units.put u x }
def updUnit (s : State) (u : Nat) (f : UnitSafe → UnitSafe) : State := setUnit s u (f (unitSafe s u))

/-- Numbers of the pipeline and solver of a core, and of a layout engine (R487). -/
def pipeUnit (core : Nat) : Nat := 72 + core
def solverUnit (core : Nat) : Nat := 78 + core
def layoutUnit (i : Nat) : Nat := 84 + i

/-- A unit is IN_SERVICE. -/
def inService (s : State) (u : Nat) : Bool := (unitSafe s u).service == 0

/-- The cadence and epoch as which advisory work counts (R480): work of no epoch counts as epochs of cadence 32. -/
def workEpoch (s : State) (d : Desc) : Nat × Nat :=
  match callFlow s d with
  | some (c, n, _) => (c, n)
  | none =>
    match d.src with
    | .call t _ => match instOf s t with
      | some i => (32, i.run)
      | none => (32, 2 ^ 40 + s.up)
    | _ => (32, 2 ^ 40 + s.up)

/-- A unit readmitted at an epoch boundary takes no work of an epoch that closed before (R491). -/
def takesEpoch (s : State) (u : Nat) (w : Nat × Nat) : Bool :=
  match epochOf s w.1 w.2 with
  | some e => decide ((unitSafe s u).since ≤ e.closeAt s)
  | none => true

/-- A unit may start work now: in service and clocked (R545); advisory work waits for tests and owed golden runs of earlier epochs (R480, R483). -/
def unitReady (s : State) (u : Nat) (guarded : Bool) (w : Nat × Nat) : Bool :=
  let x := unitSafe s u
  decide (s.power.pstate ≤ 1) && inService s u && takesEpoch s u w && (guarded || (x.test == .none && !x.owed.any (fun o => o.1 == w.1 && o.2 != w.2)))

/-- Guarded work aborts a slice or golden run; a slice that would start in the same cycle does not start (R484). -/
def abortTest (s : State) (u : Nat) : State :=
  let x := unitSafe s u
  match x.test with
  | .none => s
  | .slice _ t => setUnit s u { x with test := .none, aborts := if t = s.up then x.aborts else satAdd 12 x.aborts 1 }
  | .golden _ => setUnit s u { x with test := .none, aborts := satAdd 12 x.aborts 1 }

/-- A unit runs work of flows for an epoch: of other epochs it remembers those still open (R445, R456, R481). -/
def noteUsed (s : State) (w : Nat × Nat) (flows : List Nat) (used : List (Nat × Nat × Nat)) : List (Nat × Nat × Nat) :=
  used.filter (fun y => !flows.contains y.1 || (y.2 != w && (epochOf s y.2.1 y.2.2).isSome)) ++ flows.map (fun f => (f, w))

/-- Work starts on a unit: guarded work aborts its test and is remembered by its flows, advisory work also owes a golden run (R445, R480, R484). -/
def startOn (s : State) (u : Nat) (guarded : Bool) (w : Nat × Nat) (flows : List Nat) : State :=
  updUnit (if guarded then abortTest s u else s) u (fun x => { x with
    used := noteUsed s w flows x.used, owed := if guarded ∨ x.owed.contains w then x.owed else x.owed ++ [w] })

end Sys2Proof.Machine
end

