-- ==== Sys2Proof/Machine/Tasks.lean ====
section
/-! DEFINITION. Programs, tasks, placement and the end of instances (spec/12_engine_execution.md R282 to R294). -/

namespace Sys2Proof.Machine

/-! ### Programs (R282, R283) -/

/-- One byte of CRC-32C. -/
def crc32cByte (c : Nat) (b : Byte) : Nat :=
  (List.range 8).foldl (fun c _ => if c % 2 = 1 then (c / 2) ^^^ 0x82F63B78 else c / 2) (c ^^^ b.toNat)

/-- CRC-32C of a byte list. -/
def crc32c (bs : List Byte) : Nat := bs.foldl crc32cByte 0xFFFFFFFF ^^^ 0xFFFFFFFF

/-- Requester of the load of an image. -/
def progWho (d : Desc) : Who := { did := d.did, guarded := dGuarded d, kind := 4, index := 0x0200, flows := [], src := some d.src }

/-- The header of an image obeys R282. -/
def progHeaderOk (h : List Byte) : Bool :=
  let w := fun (i n : Nat) => ofLe ((h.drop i).take n)
  w 0 4 == 0x31474E45 && w 4 4 % 64 == 0 && decide (64 ≤ w 4 4) && decide (w 4 4 ≤ 262144) && w 12 4 % 4096 == 0
    && decide (1 ≤ w 16 1) && decide (w 16 1 ≤ 64) && decide (w 17 1 ≤ 1) && decide (1 ≤ w 18 1) && decide (w 18 1 ≤ 16)
    && ((h.drop 19).take 45).all (· == 0) && (List.range 16).all (fun i => w (64 + 4 * i) 4 % 8 == 0)

/-- A program from its header and code. -/
def programOf (d : Desc) (h code : List Byte) : Program :=
  let w := fun (i n : Nat) => ofLe ((h.drop i).take n)
  { owner := d.did, guarded := dGuarded d, codeBytes := w 4 4, minWindow := w 12 4, threads := w 16 1, residue := w 17 1 == 1,
    entries := (List.range (w 18 1)).map (fun i => w (64 + 4 * i) 4), code := code }

/-- Internal work may be guarded; the ring's class is checked by R70. -/
def ownClass (d : Desc) : Option Bool :=
  match d.src with
  | .internal => some (dGuarded d)
  | _ => none

/-- What R70 checks of EngProgLoad. -/
def infoEngProgLoad (_ : State) (d : Desc) : OpInfo :=
  { fields := [(16, 0, 10), (24, 0, 64)], cls := ownClass d }

/-- ENG_PROG_LOAD (R283). -/
def execEngProgLoad (d : Desc) (s : State) : Host.Outcome State Fault Refusal :=
  .next (runDesc s d (infoEngProgLoad s d) fun s =>
    let va := dfld d 24 0 64
    let h := devRead s (progWho d) va 128
    if h.1 ≠ stOk then failWith h.2.2 h.1
    else if !progHeaderOk h.2.1 then failWith h.2.2 stDescInvalid
    else
      let c := devRead h.2.2 (progWho d) (va + 128) (ofLe ((h.2.1.drop 4).take 4))
      let p := programOf d h.2.1 c.2.1
      let k := dfld d 16 0 10
      if c.1 ≠ stOk then failWith c.2.2 c.1
      else if crc32c c.2.1 ≠ ofLe ((h.2.1.drop 8).take 4) then failWith c.2.2 stDescInvalid
      else if p.guarded ∧ !s.sec.image.any (fun i => i.digests.contains (Config.sha256 (h.2.1 ++ c.2.1))) then failWith c.2.2 stNotAuth
      else if (p.guarded ∧ !p.residue) ∨ (s.eng.programs.find k).isSome then failWith c.2.2 stDescInvalid
      else okWith { c.2.2 with eng.programs := c.2.2.eng.programs.put k p } 0)

/-- A bound or unfinished task names a program. -/
def programNamed (s : State) (k : Nat) : Bool :=
  s.cfg.tasks.any (fun p => p.2.body.program == k) || s.epochs.any (fun e => e.cfg.tasks.any (fun p => p.2.body.program == k && p.2.body.cadence == e.cadence && (e.tasks.find p.1).isNone)) || s.eng.runs.any (fun p => p.2.body.program == k)

/-- What R70 checks of EngProgFree. -/
def infoEngProgFree (s : State) (d : Desc) : OpInfo :=
  let k := dfld d 16 0 10
  let p := s.eng.programs.find k
  { fields := [(16, 0, 10)], cls := (p.map (·.guarded)).orElse (fun _ => ownClass d), configures := true, authority := p.all (fun p => p.owner == d.did || decide (d.did ≤ 1)) }

/-- ENG_PROG_FREE (R283). -/
def execEngProgFree (d : Desc) (s : State) : Host.Outcome State Fault Refusal :=
  let k := dfld d 16 0 10
  let p := s.eng.programs.find k
  .next (runDesc s d (infoEngProgFree s d) fun s =>
    if p.isNone then okWith s 0
    else if programNamed s k then failWith s stDescInvalid
    else okWith { s with
      eng.programs := s.eng.programs.drop k
      eng.engines := s.eng.engines.mapV (fun _ e => { e with resident := e.resident.filter (fun r => r.handle != k) }) } 0)

/-! ### Tasks (R285, R286) -/

/-- The body of R286; the unit byte pins the core. -/
def taskBody (d : Desc) : TaskBody :=
  let u := dOpcode d / 256
  { program := dfld d 16 0 10, entry := dfld d 18 0 4, instances := dfld d 19 0 7, threads := dfld d 20 0 7, stage := dfld d 21 0 3, seq := dfld d 21 4 4,
    cadence := dfld d 22 0 5, flow := dfld d 24 0 12, window := dfld d 28 0 32, args := dfld d 32 0 48, engines := dfld d 40 0 72, swizzle := dfld d 49 0 3,
    export_ := dbit d 49 3, handle := dfld d 56 0 12, core := if u = 0x40 then none else some (u - 0x41) }

def taskFields : List BodyField :=
  [(16, 0, 10), (18, 0, 4), (19, 0, 7), (20, 0, 7), (21, 0, 3), (21, 4, 4), (22, 0, 5), (24, 0, 12), (28, 0, 32), (32, 0, 48), (40, 0, 72), (49, 0, 4), (56, 0, 12)]

/-- An engine is allowed by a task's set and core (R285, R286). -/
def engineAllowed (b : TaskBody) (g : Nat) : Bool :=
  (b.engines == 0 || b.engines.testBit g) && b.core.all (fun c => g / 12 == c)

/-- The ranges of R286 against the program. -/
def taskOk (s : State) (b : TaskBody) : Bool :=
  match s.eng.programs.find b.program with
  | none => false
  | some p =>
    decide (b.entry < p.entries.length) && decide (1 ≤ b.instances) && decide (b.instances ≤ 72) && decide (p.threads ≤ b.threads) && decide (b.threads ≤ 64)
      && b.window % 4096 == 0 && decide (p.minWindow ≤ b.window) && decide (b.window ≤ 0x1FF000) && decide (b.swizzle ≤ 4)
      && (List.range 72).any (engineAllowed b)

/-- A task run, with every instance still to be placed. -/
def newTask (b : TaskBody) (did : Nat) (guarded : Bool) (desc : Option Desc) (bound : Option Nat) (epoch : Nat) : TaskRun :=
  { body := b, did := did, guarded := guarded, desc := desc, bound := bound, epoch := epoch, waiting := List.range b.instances, again := [], running := [], ended := [] }

def addRun (s : State) (r : TaskRun) : State := { s with eng.runs := s.eng.runs.put s.eng.nextRun r, eng.nextRun := s.eng.nextRun + 1 }

/-- What R70 checks of EngTask. -/
def infoEngTask (_ : State) (d : Desc) : OpInfo :=
  { fields := taskFields, cls := ownClass d }

/-- ENG_TASK (R285, R286). -/
def execEngTask (d : Desc) (s : State) : Host.Outcome State Fault Refusal :=
  .next (runDesc s d (infoEngTask s d) fun s =>
    if !taskOk s (taskBody d) then failWith s stDescInvalid
    else .later (addRun s (newTask (taskBody d) d.did (workGuarded d) (some d) none 0)))

/-- What R70 checks of EngTaskBind. -/
def infoEngTaskBind (s : State) (d : Desc) : OpInfo :=
  let b := taskBody d
  let f := s.cfg.flows.find b.flow
  { fields := taskFields, cls := f.map (·.guarded), configures := true, imageOnly := true, authority := didHost d }

/-- ENG_TASK_BIND (R285, R286). -/
def execEngTaskBind (d : Desc) (s : State) : Host.Outcome State Fault Refusal :=
  let b := taskBody d
  let f := s.cfg.flows.find b.flow
  .next (runDesc s d (infoEngTaskBind s d) fun s =>
    if f.isNone ∨ !taskOk s b ∨ b.stage = 7 ∨ (s.cfg.tasks.find b.handle).isSome then failWith s stDescInvalid
    else okWith { s with cfg.tasks := s.cfg.tasks.put b.handle { body := b, did := d.did, guarded := dGuarded d } } 0)

/-- What R70 checks of EngTaskUnbind. -/
def infoEngTaskUnbind (s : State) (d : Desc) : OpInfo :=
  let h := dfld d 56 0 12
  let t := s.cfg.tasks.find h
  { fields := [(56, 0, 12)], cls := t.map (·.guarded), configures := true, imageOnly := true, authority := didHost d }

/-- ENG_TASK_UNBIND (R285). -/
def execEngTaskUnbind (d : Desc) (s : State) : Host.Outcome State Fault Refusal :=
  let h := dfld d 56 0 12
  let t := s.cfg.tasks.find h
  .next (runDesc s d (infoEngTaskUnbind s d) fun s =>
    if t.isNone then okWith s 0 else okWith { s with cfg.tasks := s.cfg.tasks.drop h } 0)

/-! ### Bound tasks become ready (R287) -/

/-- The last step that a grid has ended in an epoch; 9 where none are to come. -/
def gridProgress (s : State) (e : Epoch) (g : Nat) : Nat :=
  match (gridOf s g).running with
  | some (n, last, _) => if n = e.epoch then last else if gridPending s e g then 0 else 9
  | none => if gridPending s e g then 0 else 9

/-- Device steps that precede a task in its stage have ended. -/
def stepsBefore (s : State) (e : Epoch) (b : TaskBody) : Bool :=
  let grid := match (e.cfg.flows.find b.flow).bind (·.grid) with
    | some g => gridProgress s e g
    | none => 9
  if b.stage = 2 then e.geoEnd.isSome
  else if b.stage = 3 then decide (1 ≤ grid)
  else if b.stage = 4 then decide (6 ≤ grid)
  else if 4 < b.stage then decide (8 ≤ grid)
  else true

/-- A flow's tasks run in an epoch: it runs, or its own grid's steps still need them after its inputs failed (R190, R264, R266). -/
def tasksRun (s : State) (e : Epoch) (b : TaskBody) : Bool :=
  match e.flowRun b.flow with
  | none => true
  | some r => r.gated && (r.runs || (decide (b.stage ≤ 4) && ((e.cfg.flows.find b.flow).bind (·.grid)).any (fun g => gridRuns s g e.epoch)))

/-- The tasks of a flow that precede one of its tasks. -/
def tasksBefore (e : Epoch) (b : TaskBody) : List Nat :=
  (e.tasksOf b.flow).filter (fun h => (e.cfg.tasks.find h).any (fun t => decide (t.body.stage < b.stage ∨ (t.body.stage = b.stage ∧ t.body.seq < b.seq))))

/-- A bound task is ready in an epoch. -/
def taskReady (s : State) (h : Nat) (e : Epoch) : Bool :=
  match e.cfg.tasks.find h with
  | none => false
  | some t =>
    t.body.cadence == e.cadence && e.alignEnd.isSome && !e.aborted && (e.tasks.find h).isNone && tasksRun s e t.body
      && !(s.eng.runs.any (fun r => r.2.bound == some h && r.2.epoch == e.epoch))
      && (tasksBefore e t.body).all (fun k => (e.tasks.find k).isSome) && stepsBefore s e t.body

/-- BOUND_TASK_READY: a bound task's oldest ready epoch (R287). -/
def execBoundTaskReady (h : Nat) (s : State) : Host.Outcome State Fault Refusal :=
  match s.epochs.find? (taskReady s h) with
  | none => .next s
  | some e => match e.cfg.tasks.find h with
    | some t => .next (addRun s (newTask t.body t.did t.guarded none (some h) e.epoch))
    | none => .next s

/-! ### Placement (R284, R288 to R290) -/

/-- Instances on an engine. -/
def instsOn (s : State) (g : Nat) : List Instance := (s.eng.instances.filter (fun p => p.2.engine == g)).map (·.2)

/-- Free thread numbers of an engine: FREE, and kept for no bound instance (R289). -/
def freeThreads (s : State) (g : Nat) : List Nat :=
  (List.range 64).filter (fun i => (thread s (64 * g + i)).st == .free && !(instsOn s g).any (fun x => x.kept.isSome && x.threads.contains (64 * g + i)))

/-- Byte ranges in use in a tile: windows and resident code. -/
def usedTile (s : State) (g : Nat) (code : List Resident) : List (Nat × Nat) :=
  (instsOn s g).map (fun i => (i.window, i.windowBytes)) ++ code.map (fun r => (r.base, 4096 * r.pages))

def clash (a n : Nat) (r : Nat × Nat) : Bool := decide (a < r.1 + r.2) && decide (r.1 < a + n)

/-- Lowest free offset for a window. -/
def freeWindow (used : List (Nat × Nat)) (n : Nat) : Option Nat :=
  ((List.range 512).map (· * 4096)).find? (fun a => decide (a + n ≤ 0x200000) && !used.any (clash a n))

/-- Highest free offset for code. -/
def freeCodePlace (used : List (Nat × Nat)) (n : Nat) : Option Nat :=
  (((List.range 512).map (· * 4096)).reverse).find? (fun a => decide (a + n ≤ 0x200000) && !used.any (clash a n))

/-- The least recently used resident program that no instance runs and that is not pinned (R284). -/
def evictable (s : State) (g : Nat) (code : List Resident) : Option Resident :=
  leastBy (fun (r : Resident) => [r.lastUsed]) (code.filter (fun r => !r.pinned && !(instsOn s g).any (fun i => i.active && i.program == r.handle)))

/-- Resident programs after a program is made resident, evicting while it does not fit (R284). -/
def makeResident (s : State) (g k pages : Nat) (pinned : Bool) : Nat → List Resident → Option (List Resident)
  | 0, _ => none
  | fuel + 1, code =>
    let total := code.foldl (fun n r => n + r.pages) 0
    match if code.length < 8 ∧ total + pages ≤ 128 then freeCodePlace (usedTile s g code) (4096 * pages) else none with
    | some a => some (code ++ [{ handle := k, base := a, pages := pages, lastUsed := s.up, pinned := pinned }])
    | none =>
      match evictable s g code with
      | none => none
      | some r => makeResident s g k pages pinned fuel (code.filter (fun x => x.handle != r.handle))

/-- Resident programs of an engine with a program present. -/
def withResident (s : State) (g k : Nat) (p : Program) (pinned : Bool) : Option (List Resident) :=
  let code := (engineOf s g).resident
  if code.any (fun r => r.handle == k) then some (code.map (fun r => if r.handle = k then { r with lastUsed := s.up, pinned := r.pinned || pinned } else r))
  else makeResident s g k ((p.codeBytes + 4095) / 4096) pinned 9 code

/-- Copy a program into a tile, where it was not resident before (R284). -/
def loadResident (s : State) (g k : Nat) (p : Program) (code : List Resident) : State :=
  let was := (engineOf s g).resident.any (fun r => r.handle == k)
  let s := setEngine s g { engineOf s g with resident := code }
  match code.find? (fun r => r.handle == k) with
  | some r => if was then s else sramWrite s (Space.key (.tile g) r.base) p.code
  | none => s

/-- A place for an instance: engine, resident code, window offset. -/
structure Spot where
  engine : Nat
  code : List Resident
  window : Nat

/-- The place that an engine offers an instance of a task run (R288). -/
def spotOn (s : State) (id : Nat) (r : TaskRun) (p : Program) (g : Nat) : Option Spot :=
  let w := if r.bound.isSome then (r.body.cadence, r.epoch) else (32, id)
  if !engineAllowed r.body g ∨ !unitReady s g r.guarded w ∨ (!r.guarded ∧ (engineOf s g).reservedGuarded) ∨ (freeThreads s g).length < r.body.threads then none
  else match withResident s g r.body.program p false with
    | none => none
    | some code => (freeWindow (usedTile s g code) r.body.window).map (fun o => { engine := g, code := code, window := o })

/-- The chosen candidate: program resident, most free threads, lower number (R288). -/
def chooseSpot (s : State) (id : Nat) (r : TaskRun) (p : Program) : Option Spot :=
  leastBy (fun (x : Spot) => [if (engineOf s x.engine).resident.any (fun y => y.handle == r.body.program) then 0 else 1, 64 - (freeThreads s x.engine).length, x.engine])
    ((List.range 72).filterMap (spotOn s id r p))

/-- The kept place of a bound instance on an engine that may start it (R289). -/
def keptPlace (s : State) (r : TaskRun) (idx : Nat) : Option (Nat × Instance) :=
  match r.bound with
  | none => none
  | some h => s.eng.instances.find? (fun p => p.2.kept == some (h, idx) && !p.2.active)

/-- x0 to x7 of a starting thread (R273). -/
def startRegs (s : State) (r : TaskRun) (idx j window : Nat) (fresh : Bool) : Tbl W64 :=
  let ep := if r.bound.isSome then r.epoch else 0
  let tov := if r.bound.isSome then ((epochOf s r.body.cadence r.epoch).map (fun e => e.tov s)).getD 0 else 0
  ([idx, r.body.instances, j, window, r.body.args, ep, tov, if fresh then 1 else 0].zipIdx).map (fun v => (v.2, BitVec.ofNat 64 v.1))

/-- Start an instance on its threads (R273); stores still posted by an earlier occupant stay. -/
def startInstance (s : State) (id : Nat) (r : TaskRun) (p : Program) (i : Instance) (fresh : Bool) : State :=
  let s := { s with eng.instances := s.eng.instances.put id i }
  let entry := p.entries.getD r.body.entry 0
  (i.threads.zipIdx).foldl (fun s t => updThread s t.1 (fun x => { Thread.reset with
    st := .ready, inst := some id, x := startRegs s r i.index t.2 i.window fresh, seed := BitVec.ofNat 32 (t.1 + 1), start := engClock s, pc := entry / 8, posted := x.posted, signals := x.signals })) s

/-- A waiting instance takes its kept place, or the chosen candidate; none where it must wait. -/
def placeAt (s : State) (rid : Nat) (r : TaskRun) (p : Program) (idx : Nat) : Option State :=
  let w := if r.bound.isSome then (r.body.cadence, r.epoch) else (32, rid)
  let mark := fun (s : State) (id : Nat) =>
    { s with eng.runs := s.eng.runs.put rid { r with waiting := r.waiting.erase idx, running := r.running ++ [id] } }
  match keptPlace s r idx with
  | some (id, i) =>
    if !unitReady s i.engine r.guarded w then none
    else match withResident s i.engine r.body.program p false with
      | none => none
      | some code =>
        let s := startOn (loadResident s i.engine r.body.program p code) i.engine r.guarded w [r.body.flow]
        some (startInstance (mark s id) id r p { i with run := rid, active := true, restarted := false, status := stOk } false)
  | none =>
    match chooseSpot s rid r p with
    | none => none
    | some x =>
      let id := s.eng.nextInst
      let i : Instance :=
        { run := rid, index := idx, engine := x.engine, threads := ((freeThreads s x.engine).take r.body.threads).map (fun t => 64 * x.engine + t),
          window := x.window, windowBytes := r.body.window, swizzle := r.body.swizzle, exported := r.body.export_, did := r.did, guarded := r.guarded,
          program := r.body.program, kept := r.bound.map (fun h => (h, idx)), active := true, restarted := r.again.contains idx, status := stOk }
      let s := startOn (loadResident s x.engine r.body.program p x.code) x.engine r.guarded w [r.body.flow]
      let s := scribble s ((List.range r.body.window).map (fun k => Space.key (.tile x.engine) (x.window + k)))
      some (startInstance (mark { s with eng.nextInst := id + 1 } id) id r p i true)

/-- Rank of a task run. -/
def runKey (s : State) (id : Nat) (r : TaskRun) : List Nat :=
  if r.bound.isSome then flowKey s r.body.cadence r.epoch r.body.flow r.guarded else [if r.guarded then 0 else 1, 1, id]

/-! ### The end of instances and tasks (R274, R290) -/

/-- All instances of a run have ended: the task's status is that of the lowest-numbered faulted one (R274). -/
def endTask (s : State) (rid : Nat) : State :=
  match s.eng.runs.find rid with
  | none => s
  | some r =>
    if r.ended.length < r.body.instances then s else
    let st := ((r.ended.find? (fun p => p.2 != stOk)).map (·.2)).getD stOk
    let s := { s with eng.runs := s.eng.runs.drop rid }
    match r.desc, r.bound with
    | some d, _ => finishDesc s d st (if st = stOk then s.now else 0) 0 0
    | none, some h =>
      let c := r.body.cadence
      let s := updEpoch s c r.epoch (fun e =>
        { e with tasks := e.tasks.put h st, flows := e.flows.map (fun x => if x.flow = r.body.flow ∧ usable x.status ∧ st ≠ stOk ∧ x.runs then { x with status := st } else x) })
      releaseEpoch (endFlows s c r.epoch) c r.epoch
    | none, none => s

/-- Record the end of an instance index with a status. -/
def endIndex (s : State) (rid idx st : Nat) : State :=
  match s.eng.runs.find rid with
  | some r => endTask { s with eng.runs := s.eng.runs.put rid { r with waiting := r.waiting.erase idx, ended := r.ended.put idx st } } rid
  | none => s

/-- Every thread of an instance has ended or is HALTED. -/
def instEnded (s : State) (id : Nat) (i : Instance) : Bool :=
  i.active && i.threads.all (fun t => (thread s t).inst != some id || (thread s t).st == .halted)

/-- INSTANCE_END (R274, R289, R290): placed again once after its engine left service. -/
def execInstanceEnd (id : Nat) (s : State) : Host.Outcome State Fault Refusal :=
  match s.eng.instances.find id with
  | none => .next s
  | some i =>
    if !instEnded s id i then .next s else
    let s := i.threads.foldl (fun s t => if (thread s t).inst = some id then endThreadNow s t else s) s
    let moved := i.status == stIsolated
    let s := { s with eng.instances := if i.kept.isSome ∧ !moved then s.eng.instances.put id { i with active := false } else s.eng.instances.drop id }
    match s.eng.runs.find i.run with
    | none => .next s
    | some r =>
      let r : TaskRun := { r with running := r.running.erase id }
      if moved ∧ !i.restarted then
        .next { s with eng.runs := s.eng.runs.put i.run { r with waiting := insertLine r.waiting i.index, again := r.again ++ [i.index] } }
      else .next (endIndex { s with eng.runs := s.eng.runs.put i.run r } i.run i.index (if i.restarted ∧ i.status ≠ stOk then stIsolated else i.status))

/-- The first instance, in the order of R136 and then of its index, that can be placed now or whose second placement fails. -/
def placeFirst (s : State) : List (Nat × TaskRun) → Option State
  | [] => none
  | (rid, r) :: rest =>
    match s.eng.programs.find r.body.program with
    | none => placeFirst s rest
    | some p =>
      match r.waiting.findSome? (fun idx =>
        match placeAt s rid r p idx with
        | some s => some s
        | none => if r.again.contains idx then some (endIndex s rid idx stIsolated) else none) with
      | some s => some s
      | none => placeFirst s rest

/-- Insert a run by rank, after those of equal rank. -/
def rankRun (s : State) : List (Nat × TaskRun) → Nat × TaskRun → List (Nat × TaskRun)
  | [], x => [x]
  | y :: ys, x => if lexLt (runKey s x.1 x.2) (runKey s y.1 y.2) then x :: y :: ys else y :: rankRun s ys x

/-- INSTANCE_PLACEMENT (R284, R288 to R290). -/
def execInstancePlacement (s : State) : Host.Outcome State Fault Refusal :=
  .next ((placeFirst s ((s.eng.runs.filter (fun p => !p.2.waiting.isEmpty)).foldl (rankRun s) [])).getD s)

end Sys2Proof.Machine
end

