-- ==== Sys2Proof/Machine/Layout.lean ====
section
/-! DEFINITION. The layout engines: tensor descriptors, copies, gathers, scatters and fills (spec/15_tensor_layout.md R346 to R366). -/

namespace Sys2Proof.Machine

/-! ### Tensor descriptors (R348, R349, R361) -/

/-- A tensor descriptor. Sharding entries are (kind, k, b). -/
structure TDesc where
  base : Nat
  format : Nat
  rank : Nat
  space : Nat
  flags : Nat
  fill : Nat
  extent : List Nat
  origin : List Int
  stride : List Int
  spec : List (Nat × Nat × Nat)
  shards : List Nat
  deriving DecidableEq, Repr

def TDesc.isGlobal (t : TDesc) : Bool := t.flags.testBit 0

/-- A descriptor from its 256 bytes (the second half is only read where GLOBAL is set). -/
def tdescOf (bs : List Byte) : TDesc :=
  let w := fun (i n : Nat) => ofLe ((bs.drop i).take n)
  let r := List.range 8
  { base := w 0 8, format := w 8 1, rank := w 9 1, space := w 10 1, flags := w 11 1, fill := w 12 4, extent := r.map (fun i => w (16 + 4 * i) 4),
    origin := r.map (fun i => signed 32 (w (48 + 4 * i) 4)), stride := r.map (fun i => signed 48 (w (80 + 6 * i) 6)),
    spec := r.map (fun i => (w (128 + 4 * i) 1, w (129 + 4 * i) 1, w (130 + 4 * i) 2)), shards := (List.range 16).map (fun i => w (160 + 6 * i) 6) }

def TDesc.ext (t : TDesc) (d : Nat) : Nat := t.extent.getD d 1
def TDesc.org (t : TDesc) (d : Nat) : Int := t.origin.getD d 0
def TDesc.str (t : TDesc) (d : Nat) : Int := t.stride.getD d 0

/-- Parts of a dimension: 1 where the tensor is not GLOBAL. -/
def TDesc.parts (t : TDesc) (d : Nat) : Nat := if t.isGlobal then (t.spec.getD d (0, 0, 0)).2.1 % 16 + 1 else 1

def TDesc.dims (t : TDesc) : List Nat := List.range t.rank

/-- Rules of R348 and R361 that a descriptor must obey. -/
def TDesc.ok (t : TDesc) : Bool :=
  decide (t.format ≤ 10) && decide (1 ≤ t.rank) && decide (t.rank ≤ 8) && decide (t.space ≤ 2) && decide (t.flags ≤ 1) && t.dims.all (fun d => t.ext d != 0)
    && (!t.isGlobal || (t.space == 0 && t.dims.all (fun d =>
          let p := t.spec.getD d (0, 0, 0)
          decide (p.1 ≤ 2) && decide (p.2.1 ≤ 15) && (p.1 != 0 || p.2.1 == 0) && (p.1 != 2 || p.2.2 != 0))
        && decide (t.dims.foldl (fun n d => n * t.parts d) 1 ≤ 16)))

/-- Elements of dimension 0 that a format packs together (R333, R335). -/
def packOf (format : Nat) : Nat := if format = 8 then 2 else if format = 5 then 32 else 1

/-- Bytes of an element of an unpacked format. -/
def elemBytes (format : Nat) : Nat := if format = 0 ∨ format = 10 then 4 else if format = 1 ∨ format = 2 ∨ format = 6 then 2 else if format = 9 then 8 else 1

/-- Part and local index of a global index (R362). -/
def shardOf (t : TDesc) (d i : Nat) : Nat × Nat :=
  let p := t.spec.getD d (0, 0, 0)
  let k := t.parts d
  if !t.isGlobal ∨ p.1 = 0 then (0, i)
  else if p.1 = 1 then
    let b := (t.ext d + k - 1) / k
    (i / b, i % b)
  else (i / p.2.2 % k, i / (p.2.2 * k) * p.2.2 + i % p.2.2)

/-- Local extent of a part (R362). -/
def localExt (t : TDesc) (d c : Nat) : Nat :=
  let p := t.spec.getD d (0, 0, 0)
  let n := t.ext d
  let k := t.parts d
  if !t.isGlobal ∨ p.1 = 0 then n
  else if p.1 = 1 then
    let b := (n + k - 1) / k
    min n ((c + 1) * b) - c * b
  else
    let cyc := p.2.2 * k
    n / cyc * p.2.2 + min p.2.2 (n % cyc - c * p.2.2)

/-- An index lies inside the extents. -/
def TDesc.inside (t : TDesc) (ix : List Int) : Bool := t.dims.all (fun d => let i := ix.getD d 0; decide (0 ≤ i) && decide (i < t.ext d))

/-- Byte ranges (shard, address, length) of the item at an index inside the extents (R348, R349, R361, R362). -/
def TDesc.ranges (t : TDesc) (ix : List Int) : List (Nat × Nat × Nat) :=
  let at_ := fun (d : Nat) => shardOf t d (ix.getD d 0).toNat
  let shard := (t.dims.foldl (fun (a : Nat × Nat) d => (a.1 + (at_ d).1 * a.2, a.2 * t.parts d)) (0, 1)).1
  let base := if t.isGlobal then t.shards.getD shard 0 else t.base
  let packed := packOf t.format != 1
  let off := t.dims.foldl (fun (a : Int) d => if packed ∧ d = 0 then a else a + ((at_ d).2 : Int) * t.str d) 0
  let row := unsigned 64 ((base : Int) + off)
  let l := (at_ 0).2
  if t.format = 8 then [(shard, (row + l / 2) % 2 ^ 64, 1)]
  else if t.format = 5 then
    let n := localExt t 0 (at_ 0).1 / 32
    [(shard, (row + 16 * (l / 32)) % 2 ^ 64, 16), (shard, (row + 16 * n + l / 32) % 2 ^ 64, 1)]
  else [(shard, row, elemBytes t.format)]

/-! ### Conversions (R355) -/

/-- A floating-point format code but FP64 and CB4. -/
def fltOf (code : Nat) : Option Fmt :=
  if code = 0 then some fp32 else if code = 1 then some bf16 else if code = 2 then some fp16 else if code = 3 then some e4m3
  else if code = 4 then some e5m2 else none

/-- Width of an integer format code. -/
def intOf (code : Nat) : Option Nat := if code = 6 then some 16 else if code = 7 then some 8 else if code = 8 then some 4 else if code = 10 then some 32 else none

/-- A pair of formats that R355 allows. -/
def convOk (a b : Nat) : Bool :=
  a == b || (b == 0 && (decide (a ≤ 5) || a == 10)) || (a == 0 && (decide (b ≤ 5) || b == 10))
    || (b == 10 && (a == 6 || a == 7 || a == 8)) || (a == 10 && (b == 6 || b == 7 || b == 8))

/-- Convert one element between different formats, neither CB4; and whether it saturated. -/
def convElem (a b v : Nat) : Nat × Bool :=
  if a = b then (v, false)
  else match fltOf a, fltOf b, intOf a, intOf b with
    | some f, some g, _, _ => let r := convF g .saturate none (decodeF f v); (r.1, r.2.testBit 5)
    | some f, none, _, some n => let r := convI n (decodeF f v); (r.1, r.2.testBit 5)
    | none, some g, some n, _ => ((convF g .arith none (intV (signed n v))).1, false)
    | none, none, some n, some m => let r := satInt m (signed n v); (unsigned m r.1, r.2)
    | _, _, _, _ => (v, false)

/-- An item's source values: bit patterns in a format; a CB4 block is 32 nibbles under one scale. -/
inductive Item where
  | elems (vs : List (Nat × Nat))
  | block (scale nibbles : Nat)
  deriving DecidableEq, Repr

/-- FP32 or INT32: the type of a fill (R348). -/
def fillFormat (format : Nat) : Nat := if (intOf format).isSome then 10 else 0

/-- Elements (format, bits) of an item. -/
def Item.list : Item → List (Nat × Nat)
  | .elems vs => vs
  | .block s n => (List.range 32).map (fun i => (0, (convF fp32 .saturate none (cb4V s (bitsOf n (4 * i) 4))).1))

/-- Saturations in a block of FP32 values under its scale. -/
def blockSats (scale : Nat) (xs : List FVal) : Nat :=
  (xs.filter (fun x => (match x with
    | .fin n m e => convF e2m1 .saturate none (.fin n m (e - ((scale : Int) - 127)))
    | v => convF e2m1 .saturate none v).2.testBit 5)).length

/-- Encode a CB4 block of 32 elements: bytes 0 to 15 nibbles, byte 16 scale; and its saturations. -/
def encodeBlock : Item → List Byte × Nat
  | .block s n => (leBytes 16 n ++ leBytes 1 s, 0)
  | .elems vs =>
    let xs := vs.map (fun v => decodeF fp32 (convElem v.1 0 v.2).1)
    let r := cb4Block none xs
    (leBytes 16 ((r.2.1.zipIdx).foldl (fun a p => a + p.1 * 16 ^ p.2) 0) ++ leBytes 1 r.1, if r.1 = 0xFF then 0 else blockSats r.1 xs)

/-! ### Access (R350) -/

/-- The calling instance of an operation, with its engine. -/
def callInst (s : State) (d : Desc) : Option (Nat × Instance) :=
  match d.src with
  | .call t _ => (instOf s t).map (fun i => (t, i))
  | _ => none

/-- An operation may touch a range of tile SRAM or core memory (R277, R319, R350). -/
def lytMay (s : State) (d : Desc) (space a n : Nat) (write : Bool) : Bool :=
  match callInst s d with
  | none => false
  | some (t, i) =>
    if space = 1 then
      let e := bitsOf a 56 7
      let o := bitsOf a 0 21
      (e == i.engine && (inRange o n i.window i.windowBytes || (!write && (codeRange s t).any (fun c => inRange o n c.1 c.2))))
        || exportedAt s e o n i.run i.guarded
    else coreOk s (bitsOf a 56 3) (bitsOf a 0 23) n d.did (workGuarded d) write

def lytKey (space a : Nat) : Nat := if space = 1 then Space.key (.tile (bitsOf a 56 7)) (bitsOf a 0 21) else Space.key (.core (bitsOf a 56 3)) (bitsOf a 0 23)

/-- The range lies in an engine that its wrapper keeps from its unit (R488, R489). -/
def lytWrapped (s : State) (d : Desc) (space a : Nat) : Bool :=
  space == 1 && (callInst s d).any (fun p => atWrapper s p.2.engine (bitsOf a 56 7))

/-- Read a range of an operand's space. -/
def lytRead (s : State) (d : Desc) (w : Who) (space a n : Nat) : Nat × List Byte × State :=
  if space = 0 then devRead s w a n
  else if lytWrapped s d space a then (stUnitReset, [], s)
  else if !lytMay s d space a n false then (stFirewall, [], s)
  else if badIn s (lytKey space a) n then (stInternal, [], ueReport s w)
  else (stOk, Memory.reads s.mem (lytKey space a) n, s)

/-- Write a range of an operand's space. -/
def lytWrite (s : State) (d : Desc) (w : Who) (space a : Nat) (bs : List Byte) : Nat × State :=
  if space = 0 then devWrite s w a bs
  else if lytWrapped s d space a then (stUnitReset, s)
  else if !lytMay s d space a bs.length true then (stFirewall, s)
  else (stOk, sramWrite s (lytKey space a) bs)

/-- A place that a descriptor body names: device-virtual, or a window offset of a caller; a caller that has ended has no window. -/
def lytPlace (s : State) (d : Desc) (a : Nat) : Nat × Nat :=
  match callInst s d, d.src with
  | some (_, i), _ => (1, i.engine * 2 ^ 56 + i.window + a)
  | none, .call _ _ => (1, a)
  | none, _ => (0, a)

/-- Read the bytes of a tensor descriptor (R348, R361). -/
def readTDesc (s : State) (d : Desc) (w : Who) (a : Nat) : (Nat × List Byte) × State :=
  let p := lytPlace s d a
  let r := lytRead s d w p.1 p.2 128
  if a % 64 ≠ 0 then ((stDescInvalid, []), s)
  else if r.1 ≠ stOk ∨ !(tdescOf r.2.1).isGlobal then ((r.1, r.2.1), r.2.2)
  else
    let q := lytRead r.2.2 d w p.1 (p.2 + 128) 128
    ((q.1, r.2.1 ++ q.2.1), q.2.2)

/-- Read the descriptors that a body names, up to the first that fails. -/
def readTDescs (s : State) (d : Desc) (w : Who) : List Nat → List (Nat × List Byte) × State
  | [] => ([], s)
  | a :: as =>
    let r := readTDesc s d w a
    if r.1.1 ≠ stOk then ([r.1], r.2) else
    let rest := readTDescs r.2 d w as
    (r.1 :: rest.1, rest.2)

/-- The descriptors of an operation: LYT_FILL names its destination alone (R347, R353, R359). -/
def tdescPlaces (d : Desc) : List Nat := if dOpcode d % 256 = 3 then [dfld d 16 0 48] else [dfld d 16 0 48, dfld d 24 0 48]

/-! ### Items of an operation (R352, R360) -/

/-- A parsed operation: operands, box, permutation, the pairs of source and destination indices of its items in canonical order,
elements per item, its index list's range, and what it does. -/
structure LytOp where
  src : TDesc
  dst : TDesc
  box : List Nat
  perm : List Nat
  items : List (List Int × List Int)
  unit : Nat
  list : Option (Nat × Nat × Nat)
  add : Bool
  gathers : Bool
  staged : Bool
  /-- LYT_FILL: the value that every item takes. -/
  constant : Option Nat

/-- Extents of a box at byte `byte` of the body. -/
def boxOf (d : Desc) (byte : Nat) : List Nat := (List.range 8).map (fun i => dfld d (byte + 2 * i) 0 16 + 1)

/-- Box indices in canonical order, dimension 0 fastest and in steps of `u`. -/
def boxIndices (rank u : Nat) (box : List Nat) : List (List Int) :=
  (List.range rank).foldl (fun (acc : List (List Int)) d =>
    let n := box.getD d 1
    let steps := if d = 0 then (List.range ((n + u - 1) / u)).map (· * u) else List.range n
    steps.flatMap (fun i => acc.map (fun l => l ++ [(i : Int)]))) [[]]

/-- Items of a copy (R352). -/
def copyItems (src dst : TDesc) (perm box : List Nat) (u : Nat) : List (List Int × List Int) :=
  (boxIndices dst.rank u box).map (fun j =>
    (src.dims.map (fun k => src.org k + j.getD ((perm.idxOf? k).getD k) 0), dst.dims.map (fun i => dst.org i + j.getD i 0)))

/-- Items of a gather or scatter (R360); entries are the 4 or 8 bytes of the list. -/
def indexedItems (src dst : TDesc) (box : List Nat) (g : Nat) (block scatter : Bool) (entries : List Nat) (u : Nat) : List (List Int × List Int) :=
  (entries.zipIdx).flatMap (fun e => (boxIndices dst.rank u box).map (fun j =>
    let n := fun (d : Nat) => ((box.getD d 1 : Nat) : Int)
    let near := fun (t : TDesc) (d : Nat) => if d = g then t.org g + (e.2 : Int) * (if block then n g else 1) + (if block then j.getD g 0 else 0) else t.org d + j.getD d 0
    let far := fun (t : TDesc) (d : Nat) =>
      if block then (if d < 4 then t.org d + signed 16 (bitsOf e.1 (16 * d) 16) * n d + j.getD d 0 else t.org d + j.getD d 0)
      else if d = g then (e.1 : Int) else t.org d + j.getD d 0
    if scatter then (src.dims.map (near src), dst.dims.map (far dst)) else (src.dims.map (far src), dst.dims.map (near dst))))

/-- Index q elements further along dimension 0. -/
def stepIx (ix : List Int) (q : Nat) : List Int := ix.modify 0 (· + (q : Int))

/-- Byte ranges of an item's in-bounds elements of a tensor. -/
def itemRanges (t : TDesc) (u : Nat) (ix : List Int) : List (Nat × Nat × Nat) :=
  if packOf t.format = 1 then (List.range u).flatMap (fun q => if t.inside (stepIx ix q) then t.ranges (stepIx ix q) else [])
  else if t.inside ix then t.ranges ix else []

/-- Footprints of an operand per shard: shard, lowest and highest byte (R357). -/
def footprint (t : TDesc) (rs : List (Nat × Nat × Nat)) : List (Nat × Nat × Nat) :=
  ((rs.map (·.1)).eraseDups).map (fun sh =>
    let mine := (rs.filter (fun r => r.1 == sh)).map (·.2)
    (t.space, mine.foldl (fun a r => min a r.1) (2 ^ 65), mine.foldl (fun a r => max a (r.1 + r.2 - 1)) 0))

/-- An address within its space, so that one place has one address. -/
def spaceAddr (space a : Nat) : Nat :=
  if space = 1 then bitsOf a 56 7 * 2 ^ 21 + bitsOf a 0 21 else if space = 2 then bitsOf a 56 3 * 2 ^ 23 + bitsOf a 0 23 else a

/-- Two footprints overlap. -/
def footClash (a b : Nat × Nat × Nat) : Bool :=
  a.1 == b.1 && decide (spaceAddr a.1 a.2.1 ≤ spaceAddr b.1 b.2.2) && decide (spaceAddr b.1 b.2.1 ≤ spaceAddr a.1 a.2.2)

def LytOp.srcFoot (o : LytOp) : List (Nat × Nat × Nat) :=
  if o.constant.isSome then [] else footprint o.src (o.items.flatMap (fun p => itemRanges o.src o.unit p.1))
def LytOp.dstFoot (o : LytOp) : List (Nat × Nat × Nat) := footprint o.dst (o.items.flatMap (fun p => itemRanges o.dst o.unit p.2))

def LytOp.overlaps (o : LytOp) : Bool := o.srcFoot.any (fun a => o.dstFoot.any (footClash a))

/-- The identity permutation on the rank. -/
def LytOp.identity (o : LytOp) : Bool := (List.range o.dst.rank).all (fun i => o.perm.getD i i == i)

/-- An overlapping copy that runs directly: not permuting, same format, equal strides (R357). -/
def LytOp.slides (o : LytOp) : Bool :=
  !o.gathers && o.identity && o.src.format == o.dst.format && o.dst.dims.all (fun d => o.src.str d == o.dst.str d)

/-- Bytes of the box in the source format. -/
def LytOp.sourceBytes (o : LytOp) : Nat :=
  let n := o.items.length * o.unit
  if o.src.format = 5 then n / 32 * 17 else if o.src.format = 8 then n / 2 else n * elemBytes o.src.format

/-- The operation stages: an overlap with STAGED set that fits the buffer. -/
def LytOp.stages (o : LytOp) : Bool := o.overlaps && !o.slides && o.staged && decide (o.sourceBytes ≤ 2 ^ 20)

/-! ### Checks (R358) -/

/-- The multiple rules of R349 for one operand. -/
def packedOk (t : TDesc) (box0 : Nat) : Bool :=
  let p := packOf t.format
  t.ext 0 % p == 0 && t.org 0 % (p : Int) == 0 && box0 % p == 0

/-- Status of the first check that fails, 0 where all pass. -/
def lytChecks (s : State) (d : Desc) (o : LytOp) : Nat :=
  let f := fun (t : TDesc) => t.format == 9
  let dimsOk := o.src.rank == o.dst.rank && o.dst.dims.all (fun k => (o.perm.take o.dst.rank).contains k)
  let pair := convOk o.src.format o.dst.format && (!o.add || ((o.dst.format == 0 && o.src.format != 10) || (o.dst.format == 10 && o.src.format != 0)))
  let packed := packOf o.src.format != 1 || packOf o.dst.format != 1
  let feet := (o.srcFoot.map (fun r => (r, false))) ++ (o.dstFoot.map (fun r => (r, true))) ++ (o.list.map (fun r => (r, false))).toList
  if !o.src.ok ∨ !o.dst.ok ∨ !dimsOk then stDescInvalid
  else if f o.src ∨ f o.dst ∨ !pair then stFormat
  else if !packedOk o.src (o.box.getD 0 1) ∨ !packedOk o.dst (o.box.getD 0 1) then stDescInvalid
  else if packed ∧ o.perm.getD 0 0 ≠ 0 then stFormat
  else if o.dst.dims.any (fun i => decide (1 < o.box.getD i 1) && o.dst.str i == 0 && !(i == 0 && packOf o.dst.format != 1)) then stDescAlias
  else if (o.overlaps ∧ !o.slides ∧ !o.stages) ∨ o.list.any (fun l => o.dstFoot.any (footClash l)) then stOverlap
  else if feet.any (fun r => r.1.1 != 0 && !lytMay s d r.1.1 r.1.2.1 (r.1.2.2 + 1 - r.1.2.1) r.2) then stFirewall
  else stOk

/-! ### Execution (R352, R354, R360, R364, R365) -/

/-- The progress of an operation. -/
structure LytRun where
  st : Nat
  written : Nat
  sats : Nat
  dropped : Nat
  fills : Nat
  s : State

/-- Read the ranges of an item one after the other. -/
def readRanges (s : State) (d : Desc) (w : Who) (space : Nat) : List (Nat × Nat × Nat) → Nat × List Byte × State
  | [] => (stOk, [], s)
  | r :: rs =>
    let x := lytRead s d w space r.2.1 r.2.2
    if x.1 ≠ stOk then (x.1, [], x.2.2)
    else let y := readRanges x.2.2 d w space rs; (y.1, x.2.1 ++ y.2.1, y.2.2)

/-- Write bytes over the ranges of an item. -/
def writeRanges (s : State) (d : Desc) (w : Who) (space : Nat) : List (Nat × Nat × Nat) → List Byte → Nat × State
  | [], _ => (stOk, s)
  | r :: rs, bs =>
    let x := lytWrite s d w space r.2.1 (bs.take r.2.2)
    if x.1 ≠ stOk then x else writeRanges x.2 d w space rs (bs.drop r.2.2)

/-- The elements of an item as its source gives them, with fills counted. -/
def readItem (s : State) (d : Desc) (w : Who) (o : LytOp) (ix : List Int) : Nat × Item × Nat × State :=
  let t := o.src
  let fill := (fillFormat t.format, t.fill)
  match o.constant with
  | some v => (stOk, .elems (List.replicate o.unit (fillFormat o.dst.format, v)), 0, s)
  | none =>
    if packOf t.format = 1 then
      (List.range o.unit).foldl (fun (a : Nat × Item × Nat × State) q =>
        if a.1 ≠ stOk then a else
        let old := a.2.1.list
        if !t.inside (stepIx ix q) then (stOk, .elems (old ++ [fill]), a.2.2.1 + 1, a.2.2.2)
        else
          let r := readRanges a.2.2.2 d w t.space (t.ranges (stepIx ix q))
          (r.1, .elems (old ++ [(t.format, ofLe r.2.1)]), a.2.2.1, r.2.2)) (stOk, .elems [], 0, s)
    else if !t.inside ix then (stOk, .elems (List.replicate o.unit fill), o.unit, s)
    else
      let r := readRanges s d w t.space (t.ranges ix)
      if t.format = 5 then (r.1, .block ((r.2.1.getD 16 0).toNat) (ofLe (r.2.1.take 16)), 0, r.2.2)
      else (r.1, .elems ((List.range 2).map (fun i => (8, bitsOf (ofLe r.2.1) (4 * i) 4))), 0, r.2.2)

/-- Add a source element to the element at the destination (R360). -/
def lytAdd (format dstBits srcBits : Nat) : Nat × Bool :=
  if format = 0 then (f32Add dstBits srcBits, false)
  else let r := satInt 32 (signed 32 dstBits + signed 32 srcBits); (unsigned 32 r.1, r.2)

/-- Write one unpacked element. -/
def putElem (d : Desc) (w : Who) (o : LytOp) (x : LytRun) (ix : List Int) (v : Nat × Nat) : LytRun :=
  if x.st ≠ stOk then x
  else if !o.dst.inside ix then { x with dropped := x.dropped + 1 }
  else
    let c := convElem v.1 o.dst.format v.2
    let rs := o.dst.ranges ix
    let old := if o.add then readRanges x.s d w o.dst.space rs else (stOk, [], x.s)
    if old.1 ≠ stOk then { x with st := old.1, s := old.2.2 } else
    let r := if o.add then lytAdd o.dst.format (ofLe old.2.1) c.1 else (c.1, false)
    let z := writeRanges old.2.2 d w o.dst.space rs (leBytes (elemBytes o.dst.format) r.1)
    if z.1 ≠ stOk then { x with st := z.1, s := z.2 }
    else { x with written := x.written + 1, sats := x.sats + (if c.2 then 1 else 0) + (if r.2 then 1 else 0), s := z.2 }

/-- Write an item. -/
def putItem (d : Desc) (w : Who) (o : LytOp) (x : LytRun) (ix : List Int) (v : Item) : LytRun :=
  if x.st ≠ stOk then x
  else if packOf o.dst.format = 1 then (v.list.zipIdx).foldl (fun x e => putElem d w o x (stepIx ix e.2) e.1) x
  else if !o.dst.inside ix then { x with dropped := x.dropped + o.unit }
  else
    let e := if o.dst.format = 5 then encodeBlock v
      else
        let c := v.list.map (fun e => convElem e.1 8 e.2)
        (leBytes 1 ((c.zipIdx).foldl (fun a p => a + p.1.1 * 16 ^ p.2) 0), (c.filter (·.2)).length)
    let z := writeRanges x.s d w o.dst.space (o.dst.ranges ix) e.1
    if z.1 ≠ stOk then { x with st := z.1, s := z.2 } else { x with written := x.written + o.unit, sats := x.sats + e.2, s := z.2 }

/-- One item: read from the memory as it stood at the start, then written (R357, R365). -/
def runItem (mem : List Host.Cell) (d : Desc) (w : Who) (o : LytOp) (x : LytRun) (p : List Int × List Int) : LytRun :=
  if x.st ≠ stOk then x else
  let r := readItem { x.s with mem := mem } d w o p.1
  let s := { r.2.2.2 with mem := x.s.mem }
  if r.1 ≠ stOk then { x with st := r.1, s := s } else putItem d w o { x with fills := x.fills + r.2.2.1, s := s } p.2 r.2.1

/-- Read everything, then write everything. -/
def runStaged (d : Desc) (w : Who) (o : LytOp) (x : LytRun) (items : List (List Int × List Int)) : LytRun :=
  let rd := items.foldl (fun (a : LytRun × List (List Int × Item)) p =>
    if a.1.st ≠ stOk then a else
    let r := readItem a.1.s d w o p.1
    ({ a.1 with st := r.1, fills := a.1.fills + r.2.2.1, s := r.2.2.2 }, a.2 ++ [(p.2, r.2.1)])) (x, [])
  rd.2.foldl (fun x p => putItem d w o x p.1 p.2) rd.1

/-- The destination lies above the source: a sliding copy runs in descending order. -/
def LytOp.above (o : LytOp) : Bool :=
  match o.srcFoot, o.dstFoot with
  | a :: _, b :: _ => decide (spaceAddr a.1 a.2.1 < spaceAddr b.1 b.2.1)
  | _, _ => false

/-- Run an operation over its first `n` items. -/
def runLyt (s : State) (d : Desc) (w : Who) (o : LytOp) (n : Nat) : LytRun :=
  let x : LytRun := { st := stOk, written := 0, sats := 0, dropped := 0, fills := 0, s := s }
  let items := (if o.overlaps ∧ o.slides ∧ o.above then o.items.reverse else o.items).take n
  if o.stages then runStaged d w o x items else items.foldl (runItem s.mem d w o) x

/-- The memory key of a byte of an operand's space, where it lies in a memory of the device and may be reached. -/
def lytByteKey (s : State) (d : Desc) (w : Who) (space a : Nat) (write : Bool) : Option Nat :=
  if space = 0 then dramKey s w.did w.guarded a write
  else if lytMay s d space a 1 write then some (lytKey space a) else none

/-- Bytes (shard, address, key) of a list of ranges. -/
def rangeBytes (s : State) (d : Desc) (w : Who) (space : Nat) (write : Bool) (rs : List (Nat × Nat × Nat)) : List (Nat × Nat × Nat) :=
  rs.flatMap (fun r => (List.range r.2.2).filterMap (fun i => (lytByteKey s d w space (r.2.1 + i) write).map (fun k => (r.1, spaceAddr space (r.2.1 + i), k))))

/-- Destination bytes that another address of the source or of the index list also reaches, or another shard number of the destination:
they end undefined (R357, R363). -/
def aliased (s : State) (d : Desc) (w : Who) (o : LytOp) : List Nat :=
  let dst := rangeBytes s d w o.dst.space true (o.items.flatMap (fun p => itemRanges o.dst o.unit p.2))
  let src := if o.constant.isSome then [] else rangeBytes s d w o.src.space false (o.items.flatMap (fun p => itemRanges o.src o.unit p.1))
  let list := match o.list with
    | some (space, lo, hi) => rangeBytes s d w space false [(0, lo, hi + 1 - lo)]
    | none => []
  ((dst.filter (fun b => (src ++ list).any (fun c => c.2.2 == b.2.2 && c.2.1 != b.2.1) || dst.any (fun c => c.2.2 == b.2.2 && c.1 != b.1))).map (·.2.2)).eraseDups

/-! ### Parsing -/

/-- The items' unit: what the packed operands ask for. -/
def unitOf (a b : TDesc) : Nat := max (packOf a.format) (packOf b.format)

/-- Parse an operation, with its descriptors as it read them: its status, the operation, the state after its index list was read. -/
def parseLyt (s : State) (d : Desc) (w : Who) (descs : List (Nat × List Byte)) : Nat × Option LytOp × State :=
  let op := dOpcode d % 256
  let a := descs.getD 0 (stInternal, [])
  let b := descs.getD 1 a
  let ta := tdescOf a.2
  let tb := tdescOf b.2
  if a.1 ≠ stOk then (a.1, none, s)
  else if b.1 ≠ stOk then (b.1, none, s)
  else if !ta.ok ∨ !tb.ok ∨ ta.rank ≠ tb.rank then (stDescInvalid, none, s)
  else if op = 3 then
    let box := boxOf d 32
    (stOk, some { src := ta, dst := ta, box := box, perm := List.range 8, items := copyItems ta ta (List.range 8) box (packOf ta.format), unit := packOf ta.format, list := none, add := false, gathers := false, staged := false, constant := some (dfld d 52 0 32) }, s)
  else
    let u := unitOf ta tb
    if op = 0 then
      let perm := (List.range 8).map (fun i => dfld d 48 (3 * i) 3)
      let box := boxOf d 32
      (stOk, some { src := ta, dst := tb, box := box, perm := perm, items := copyItems ta tb perm box u, unit := u, list := none, add := false, gathers := false, staged := dbit d 51 3, constant := none }, s)
    else
      let block := dbit d 44 3
      let size := if block then 8 else 4
      let n := dfld d 40 0 24
      let g := dfld d 44 0 3
      let box := boxOf d 48
      let p := lytPlace s d (dfld d 32 0 48)
      if tb.rank ≤ g ∨ (!block ∧ box.getD g 1 ≠ 1) ∨ dfld d 32 0 48 % size ≠ 0 then (stDescInvalid, none, s)
      else
        let l := lytRead s d w p.1 p.2 (n * size)
        if l.1 ≠ stOk then (l.1, none, l.2.2) else
        let entries := (List.range n).map (fun e => ofLe ((l.2.1.drop (e * size)).take size))
        (stOk, some { src := ta, dst := tb, box := box, perm := List.range 8, items := indexedItems ta tb box g block (op == 2) entries u, unit := u, list := some (p.1, p.2, p.2 + n * size - 1), add := op == 2 && dfld d 44 4 2 == 1, gathers := true, staged := dbit d 45 3, constant := none }, l.2.2)

/-! ### Engines and commands (R346, R347) -/

def lytOf (s : State) (i : Nat) : LytEngine := Tbl.at LytEngine.reset s.lyt.engines i
def setLyt (s : State) (i : Nat) (x : LytEngine) : State := { s with lyt.engines := s.lyt.engines.put i x }

/-- Requester of an operation on an engine. -/
def lytWho (s : State) (d : Desc) (i : Nat) : Who :=
  { did := d.did, guarded := workGuarded d, kind := 4, index := 0x0E00 + i, flows := callFlows s d, src := some d.src }

/-- Engines that may take a waiting operation now: idle, and the one it names. -/
def lytFree (s : State) (j : Job) : List Nat :=
  (List.range 4).filter (fun i => (lytOf s i).job.isNone && j.on_.all (· == i) && unitReady s (layoutUnit i) (workGuarded j.desc) (workEpoch s j.desc))

/-- Start waiting operations on idle engines, in the order of R136. -/
def startLyt : Nat → State → State
  | 0, s => s
  | fuel + 1, s =>
    match leastBy (fun (j : Job) => workKey s j.desc) (s.lyt.waiting.filter (fun j => !(lytFree s j).isEmpty)) with
    | none => s
    | some j =>
      let i := (lytFree s j).headD 0
      let g := workGuarded j.desc
      let s := startOn { s with lyt.waiting := s.lyt.waiting.erase j } (layoutUnit i) g (workEpoch s j.desc) (callFlows s j.desc)
      let r := readTDescs s j.desc (lytWho s j.desc i) (tdescPlaces j.desc)
      startLyt fuel (setLyt r.2 i { lytOf r.2 i with job := some { j with start := s.up }, descs := r.1, cls := g, opcode := dOpcode j.desc % 256 })

/-- Accept an operation: one that names an engine out of service completes with UNIT_ISOLATED (R489). -/
def queueLyt (s : State) (d : Desc) (control : Nat) : Answer :=
  if control % 8 < 4 ∧ !inService s (layoutUnit (control % 8)) then failWith s stIsolated
  else
    let j : Job := { desc := d, on_ := if control % 8 < 4 then some (control % 8) else none, start := s.up, first := 0, count := 0, pend := none }
    let s := { s with lyt.waiting := s.lyt.waiting ++ [j] }
    .later (startLyt s.lyt.waiting.length s)

/-- What R70 checks of LytCopy. -/
def infoLytCopy (s : State) (d : Desc) : OpInfo :=
  { fields := [(16, 0, 48), (24, 0, 48), (32, 0, 128), (48, 0, 24), (51, 0, 4)], cls := unitClass s d }

/-- LYT_COPY (R352, R353). -/
def execLytCopy (d : Desc) (s : State) : Host.Outcome State Fault Refusal :=
  .next (runDesc s d (infoLytCopy s d) fun s =>
    if 4 < dfld d 51 0 3 then failWith s stDescInvalid else queueLyt s d (dfld d 51 0 4))

/-- What R70 checks of LytGather. -/
def infoLytGather (s : State) (d : Desc) : OpInfo :=
  { fields := [(16, 0, 48), (24, 0, 48), (32, 0, 48), (40, 0, 24), (44, 0, 6), (45, 0, 4), (48, 0, 128)], cls := unitClass s d }

/-- LYT_GATHER (R359). -/
def execLytGather (d : Desc) (s : State) : Host.Outcome State Fault Refusal :=
  .next (runDesc s d (infoLytGather s d) fun s =>
    if 4 < dfld d 45 0 3 ∨ dfld d 40 0 24 = 0 ∨ dfld d 44 4 2 ≠ 0 then failWith s stDescInvalid else queueLyt s d (dfld d 45 0 4))

/-- What R70 checks of LytScatter. -/
def infoLytScatter (s : State) (d : Desc) : OpInfo :=
  { fields := [(16, 0, 48), (24, 0, 48), (32, 0, 48), (40, 0, 24), (44, 0, 6), (45, 0, 4), (48, 0, 128)], cls := unitClass s d }

/-- LYT_SCATTER (R359, R360). -/
def execLytScatter (d : Desc) (s : State) : Host.Outcome State Fault Refusal :=
  .next (runDesc s d (infoLytScatter s d) fun s =>
    if 4 < dfld d 45 0 3 ∨ dfld d 40 0 24 = 0 ∨ 1 < dfld d 44 4 2 then failWith s stDescInvalid else queueLyt s d (dfld d 45 0 4))

/-- What R70 checks of LytFill. -/
def infoLytFill (s : State) (d : Desc) : OpInfo :=
  { fields := [(16, 0, 48), (32, 0, 128), (51, 0, 4), (52, 0, 32)], cls := unitClass s d }

/-- LYT_FILL (R347). -/
def execLytFill (d : Desc) (s : State) : Host.Outcome State Fault Refusal :=
  .next (runDesc s d (infoLytFill s d) fun s =>
    if 4 < dfld d 51 0 3 then failWith s stDescInvalid else queueLyt s d (dfld d 51 0 4))

/-- What an operation gives: status, written elements, saturations, drops, fills, the state. -/
def lytOutcome (s : State) (d : Desc) (w : Who) (descs : List (Nat × List Byte)) (stop : Option Nat) : LytRun :=
  let p := parseLyt s d w descs
  let none_ : LytRun := { st := p.1, written := 0, sats := 0, dropped := 0, fills := 0, s := p.2.2 }
  match p.2.1 with
  | none => none_
  | some o =>
    let c := lytChecks p.2.2 d o
    if c ≠ stOk then { none_ with st := c } else
    let mixed := aliased p.2.2 d w o
    let x := runLyt p.2.2 d w o (stop.getD o.items.length)
    if mixed.isEmpty then x else { x with s := scribble x.s mixed }

/-- The engine's staging buffer or exchange network takes part: staged or transposing. -/
def usesBuffers (s : State) (d : Desc) (w : Who) (descs : List (Nat × List Byte)) : Bool :=
  ((parseLyt s d w descs).2.1).any (fun o => o.stages || o.perm.getD 0 0 != 0)

/-- A record about a layout engine. -/
def lytReport (s : State) (d : Desc) (i severity event : Nat) : Report :=
  { reportOf s severity 4 (0x0E00 + i) event with status := event, guarded := workGuarded d, did := d.did, flows := callFlows s d, epoch := callEpoch s d }

/-- LAYOUT_OPERATION_END: the running operation of an engine takes effect and ends (R365, R366). `fault`: 0 none, 1 a corrected
error, 2 an uncorrectable one, 3 a disagreement of the two copies; `after`: items already written then. -/
def execLayoutOperationEnd (engine fault after : Nat) (s : State) : Host.Outcome State Fault Refusal :=
  let x := lytOf s engine
  match x.job with
  | none => .next s
  | some j =>
    let d := j.desc
    let w := lytWho s d engine
    let ue := fault == 2 && usesBuffers s d w x.descs
    let bad := fault == 3 && workGuarded d
    let r := lytOutcome s d w x.descs (if ue ∨ bad then some after else none)
    let st := if r.st ≠ stOk then r.st else if ue then stInternal else if bad then stMismatch else stOk
    let y : LytEngine := { lytOf r.s engine with
      job := none, descs := [], checkFail := x.checkFail || st == stMismatch, lastStatus := st, ops := satAdd 32 x.ops 1, drop := satAdd 32 x.drop r.dropped,
      fill := satAdd 32 x.fill r.fills, sat := satAdd 32 x.sat r.sats, corrected := if fault = 1 then satAdd 16 x.corrected 1 else x.corrected
      uncorrectable := if ue then satAdd 16 x.uncorrectable 1 else x.uncorrectable }
    let s := setLyt r.s engine y
    let s := if st = stMismatch ∨ (ue ∧ st = stInternal) then raise s (lytReport s d engine (sevOf (workGuarded d)) st) else s
    let fl := if r.fills = 0 then 0 else 16
    let s := finishDesc (noteFlags s d fl) d st (min r.written (2 ^ 32 - 1) + min r.sats (2 ^ 32 - 1) * 2 ^ 32) r.dropped fl
    let s := fwDone s d (148 + engine)
    .next (startLyt s.lyt.waiting.length s)

end Sys2Proof.Machine
end

