-- ==== Sys2Proof/Machine/Mmu.lean ====
section
/-! DEFINITION. The MMU's operations, the BAR2 window and the memory controllers' events (spec/18_memory_translation.md; R55 of spec/03_host_rings.md). -/

namespace Sys2Proof.Machine

/-- The context that an MMU operation acts on; none where byte 38 is not allowed (R427). -/
def mmuContext (d : Desc) : Option Nat :=
  if dbit d 38 4 then (if d.did ≤ 1 then some (dfld d 38 0 4) else none)
  else if dfld d 38 0 4 = 0 then some d.did else none

def mmuVa (d : Desc) : Nat := dfld d 16 0 64
def mmuPages (d : Desc) : Nat := dfld d 32 0 32

/-- Leaf entries of one mapping: 32 MiB leaves where large pages fit, 64 KiB leaves elsewhere (R427). -/
def mapRuns (r : LeafRun) (large : Bool) : List LeafRun :=
  let pre := (512 - r.va % 512) % 512
  let mid := (r.pages - pre) / 512 * 512
  if large && r.va % 512 == r.page % 512 && decide (pre + 512 ≤ r.pages) then
    [{ r with pages := pre },
      { r with va := r.va + pre, page := r.page + pre, pages := mid, large := true },
      { r with va := r.va + pre + mid, page := r.page + pre + mid, pages := r.pages - pre - mid }].filter (fun x => x.pages ≠ 0)
  else [r]

/-- Two page ranges meet. -/
def pagesMeet (a n b m : Nat) : Bool := decide (a < b + m) && decide (b < a + n)

/-- Insert a run in ascending virtual page. -/
def insertRun : List LeafRun → LeafRun → List LeafRun
  | [], r => [r]
  | x :: xs, r => if r.va < x.va then r :: x :: xs else x :: insertRun xs r

/-- The firewall grants a DID the asked accesses over `n` pages from `page`: the answer can change only at a region's
edge, so the first page and the edges inside the range are asked (R428). -/
def fwGrants (s : State) (did page n : Nat) (r w : Bool) : Bool :=
  let edges := page :: (s.mmu.regions.flatMap (fun p => [p.2.base, p.2.limit + 1])).filter (fun e => decide (page ≤ e) && decide (e < page + n))
  edges.all (fun e => (!r || fwAllows s did (e * 65536) false true) && (!w || fwAllows s did (e * 65536) true true))

/-- A page range meets a range that a sequence owns (R374, R428). -/
def sequenceOwns (s : State) (did page n : Nat) : Bool :=
  s.seq.seqs.any (fun p => p.2.active && p.2.ownerDid == did && pagesMeet page n (p.2.base / 65536) p.2.reservedPages)

def mmuFields : List BodyField := [(16, 0, 64), (32, 0, 32), (38, 0, 5)]

/-- What R70 checks of MmuMap. -/
def infoMmuMap (_ : State) (_ : Desc) : OpInfo :=
  { fields := mmuFields ++ [(24, 0, 64), (36, 0, 5), (37, 0, 4)] }

/-- MMU_MAP (R427 to R429). -/
def execMmuMap (d : Desc) (s : State) : Host.Outcome State Fault Refusal :=
  .next (runDesc s d (infoMmuMap s d) fun s =>
    let n := mmuPages d
    let target := dfld d 36 0 2
    let ta := dfld d 24 0 64
    match mmuContext d with
    | none => failWith s stDescInvalid
    | some did =>
      let va := mmuVa d / 65536
      let c := Tbl.at Context.reset s.mmu.ctx did
      if mmuVa d % 65536 ≠ 0 ∨ ta % 65536 ≠ 0 ∨ n = 0 ∨ 2 ^ 24 < n ∨ 2 ^ 32 < va + n ∨ target = 3 then failWith s stDescInvalid
      else if c.runs.any (fun r => pagesMeet va n r.va r.pages) ∨ sequenceOwns s did va n then failWith s stDescInvalid
      else if (target = 0 ∧ 0x380000 < ta / 65536 + n) ∨ (target ≠ 0 ∧ did = 0) ∨ (target = 2 ∧ dfld d 37 0 4 = s.oct.module) then failWith s stDescInvalid
      else if target = 0 ∧ !fwGrants s did (ta / 65536) n (dbit d 36 2) (dbit d 36 3) then failWith s stFirewall
      else
        let r : LeafRun :=
          { va := va, pages := n, target := target, read := dbit d 36 2, write := dbit d 36 3, managed := false, large := false,
            module := if target = 2 then dfld d 37 0 4 else 0, page := ta / 65536 }
        let c := { c with runs := (mapRuns r (dbit d 36 4)).foldl insertRun c.runs }
        okWith { tlbDrop s did va n with mmu.ctx := s.mmu.ctx.put did c } n)

/-- All of `n` pages from `page` are mapped and none is managed. -/
def unmappable (runs : List LeafRun) (page n : Nat) : Bool :=
  let hit := runs.filter (fun r => pagesMeet page n r.va r.pages)
  hit.all (fun r => !r.managed) &&
    (hit.map (fun r => min (r.va + r.pages) (page + n) - max r.va page)).foldl (· + ·) 0 == n

/-- What remains of a run without `n` pages from `page`; a part of a 32 MiB leaf is left as 64 KiB leaves. -/
def cutRun (page n : Nat) (r : LeafRun) : List LeafRun :=
  if !pagesMeet page n r.va r.pages then [r] else
  let left := page - r.va
  let right := r.va + r.pages - (page + n)
  let part := fun (off len : Nat) =>
    let q := { r with va := r.va + off, page := r.page + off, pages := len }
    if r.large then mapRuns { q with large := false } true else [q]
  ((if left = 0 then [] else part 0 left) ++ (if right = 0 then [] else part (r.pages - right) right)).filter (fun x => x.pages ≠ 0)

/-- What R70 checks of MmuUnmap. -/
def infoMmuUnmap (_ : State) (_ : Desc) : OpInfo :=
  { fields := mmuFields }

/-- MMU_UNMAP (R427 to R429). -/
def execMmuUnmap (d : Desc) (s : State) : Host.Outcome State Fault Refusal :=
  .next (runDesc s d (infoMmuUnmap s d) fun s =>
    let n := mmuPages d
    match mmuContext d with
    | none => failWith s stDescInvalid
    | some did =>
      let va := mmuVa d / 65536
      let c := Tbl.at Context.reset s.mmu.ctx did
      if mmuVa d % 65536 ≠ 0 ∨ n = 0 ∨ 2 ^ 24 < n ∨ 2 ^ 32 < va + n ∨ !unmappable c.runs va n then failWith s stDescInvalid
      else okWith { tlbDrop s did va n with mmu.ctx := s.mmu.ctx.put did { c with runs := c.runs.flatMap (cutRun va n) } } n)

/-- The leaf entry word of R425 that maps a page. -/
def leafWord (r : LeafRun) (page : Nat) : Nat :=
  let p := r.page + (if r.large then (page - r.va) / 512 * 512 else page - r.va)
  3 + placeB r.read 2 + placeB r.write 3 + place r.target 4 2 + placeB r.managed 6 + place r.module 12 4 + place p 16 48

/-- What R70 checks of MmuQuery. -/
def infoMmuQuery (_ : State) (_ : Desc) : OpInfo :=
  { fields := [(16, 0, 64), (38, 0, 5)] }

/-- MMU_QUERY: the leaf entry, and its level in detail (R427). -/
def execMmuQuery (d : Desc) (s : State) : Host.Outcome State Fault Refusal :=
  .next (runDesc s d (infoMmuQuery s d) fun s =>
    match mmuContext d with
    | none => failWith s stDescInvalid
    | some did =>
      if 2 ^ 48 ≤ mmuVa d then failWith s stDescInvalid else
      match findRun (Tbl.at Context.reset s.mmu.ctx did).runs (mmuVa d / 65536) with
      | none => .done stOk 0 0xFFFFFFFF 0 s
      | some r => .done stOk (leafWord r (mmuVa d / 65536)) (if r.large then 1 else 0) 0 s)

/-- What R70 checks of MmuFwSet. -/
def infoMmuFwSet (_ : State) (d : Desc) : OpInfo :=
  let k := dfld d 16 0 8
  let auth := k ≠ 0 && (if k ≤ 63 then d.did == 1 else d.did == 2)
  { fields := [(16, 0, 8), (20, 0, 32), (24, 0, 32), (28, 0, 16), (30, 0, 16), (32, 0, 2)], authority := auth }

/-- MMU_FW_SET (R434, R435). -/
def execMmuFwSet (d : Desc) (s : State) : Host.Outcome State Fault Refusal :=
  let k := dfld d 16 0 8
  .next (runDesc s d (infoMmuFwSet s d) fun s =>
    let base := dfld d 20 0 32
    let limit := dfld d 24 0 32
    if limit < base then failWith s stDescInvalid else
    let r : Region :=
      { enable := dbit d 32 0, base := base, limit := limit, rmask := dfld d 28 0 16, wmask := dfld d 30 0 16, guardWrite := dbit d 32 1,
        denials := (Tbl.at Region.reset s.mmu.regions k).denials }
    okWith { s with mmu.regions := s.mmu.regions.put k r } 0)

/-- The boot ROM maps the first 64 MiB of the BAR2 window onto its staging buffer while it waits for the PF's image (R549). -/
def staged (s : State) (offset n : Nat) : Bool := s.power.bootSrc == 1 && s.power.waitFrom.isSome && decide (offset % 2 ^ 32 + n ≤ 2 ^ 26)

/-- BAR2_WINDOW_ACCESS: a TLP through the BAR2 window acts as DID 2 (R55). A faulting read returns all ones; the data of
a read that hits an uncorrectable line is a free value. -/
def execBar2WindowAccess (write : Bool) (offset : Nat) (bytes : List Byte) (s : State) : Host.Outcome State Fault Refusal :=
  let w : Who := { did := 2, guarded := false, kind := 4, index := 0x0200, flows := [] }
  let va := s.hif.winBaseHi * 2 ^ 32 + offset % 2 ^ 32
  if staged s offset bytes.length then
    .next (if write then sramWrite s (Space.key .staging offset) bytes else emit s (.windowData (Memory.reads s.mem (Space.key .staging offset) bytes.length)))
  else if write then .next (devWrite s w va bytes).2
  else
    match devRead s w va bytes.length with
    | (st, bs, s) =>
      if st = stOk then .next (emit s (.windowData bs))
      else if st = stInternal then .next (emit (tickFresh s) (.windowData (extBytes (Config.freeByte s.fresh) 0 bytes.length)))
      else .next (emit s (.windowData (List.replicate bytes.length 0xFF)))

/-! ### Memory controllers -/

/-- Lines of 64 bytes of one controller: 28 GiB (R415). -/
def mcLines : Nat := 28 * 2 ^ 24

/-- Physical address of a controller-local address (R415, inverted). -/
def paOfLocal (mc loc : Nat) : Nat :=
  let hi := loc / 256 * 2048
  hi + ((mc ^^^ bitsOf hi 17 3 ^^^ bitsOf hi 26 3) % 8) * 256 + loc % 256

/-- MEM_PATROL_SCRUB: controller `mc` reads its next line; `ecc`: 0 no error, 1 corrected, 2 uncorrectable (R418, R419). -/
def execMemPatrolScrub (mc ecc : Nat) (s : State) : Host.Outcome State Fault Refusal :=
  if 8 ≤ mc then .next s else
  let c := Tbl.at MemCtl.reset s.mmu.mcs mc
  let pa := paOfLocal mc (c.scrub * 64)
  let wrap := decide (mcLines ≤ c.scrub + 1)
  let next := if wrap then 0 else c.scrub + 1
  let start := if wrap then s.up else c.sweepAt
  let late := decide ((next + mcLines / 100) * (c.period * 3600 * 10 ^ 9) < (s.up - start) * mcLines)
  let c := { c with scrub := next, sweepAt := start, behind := late }
  if ecc = 1 then .next { s with mmu.mcs := s.mmu.mcs.put mc { c with ce := satAdd 16 c.ce 1 } }
  else if ecc = 2 ∧ !s.mmu.poison.contains (pa / 64) then
    let s := { s with mmu.mcs := s.mmu.mcs.put mc { c with ue := satAdd 16 c.ue 1, ueAddr := pa }, mmu.poison := insertLine s.mmu.poison (pa / 64) }
    .next (raiseUe s pa false 0 [])
  else .next { s with mmu.mcs := s.mmu.mcs.put mc c }

/-- DRAM_MR4_READ: the refresh-rate code, and whether it reports a temperature above the operating limit (R420). -/
def execDramMr4Read (mc rate : Nat) (above : Bool) (s : State) : Host.Outcome State Fault Refusal :=
  if 8 ≤ mc then .next s else
  let c := Tbl.at MemCtl.reset s.mmu.mcs mc
  let s := icuSet { s with mmu.mcs := s.mmu.mcs.put mc { c with mr4 := rate % 8, hot := c.hot || above } } (176 + mc) (c.hot || above)
  if above then .next (raise s (reportOf s sevWarn 9 mc 0x010F)) else .next s

end Sys2Proof.Machine
end

