-- ==== Sys2Proof/Machine/Seq.lean ====
section
/-! DEFINITION. The sequence manager and the sequence pipelines (spec/16_sequence_pipeline.md R368 to R387). -/

namespace Sys2Proof.Machine

def poolOf (s : State) (p : Nat) : Pool := Tbl.at Pool.reset s.seq.pools p
def setPool (s : State) (p : Nat) (x : Pool) : State := { s with seq.pools := s.seq.pools.put p x }
def setSeq (s : State) (k : Nat) (q : Seq) : State := { s with seq.seqs := s.seq.seqs.put k q }
def pipeOf (s : State) (c : Nat) : Pipe := Tbl.at Pipe.reset s.seq.pipes c
def setPipe (s : State) (c : Nat) (x : Pipe) : State := { s with seq.pipes := s.seq.pipes.put c x }

/-- An active sequence. -/
def seqOf (s : State) (k : Nat) : Option Seq := (s.seq.seqs.find k).filter (·.active)

/-! ### Pages (R371, R373) -/

/-- Free pages of a pool. -/
def Pool.free (p : Pool) : Nat := if p.enable then p.pages - p.taken.length - p.lost.length else 0

/-- The lowest free page from `n` on (log entry 73: the spec names none). -/
def Pool.lowest (p : Pool) : Nat → Nat → Option Nat
  | 0, _ => none
  | fuel + 1, n => if p.pages ≤ n then none else if p.taken.contains n ∨ p.lost.contains n then Pool.lowest p fuel (n + 1) else some n

def Pool.next (p : Pool) : Option Nat := if p.enable then p.lowest (p.taken.length + p.lost.length + 1) 0 else none

/-- Where a pool page is mapped in its owner's context. -/
def poolLeaf (s : State) (p : Pool) (n : Nat) : Option LeafRun :=
  let c := Tbl.at Context.reset s.mmu.ctx p.owner
  let v := p.base / 65536 + n
  if !c.enable then none
  else (findRun c.runs v).map (fun r => { r with va := v, pages := 1, page := r.page + (v - r.va), large := false })

/-- Insert a leaf in ascending virtual page. -/
def insertLeaf : List LeafRun → LeafRun → List LeafRun
  | [], r => [r]
  | x :: xs, r => if r.va < x.va then r :: x :: xs else x :: insertLeaf xs r

/-- Install a leaf entry at a sequence's virtual page (R371; log entry 74: with the pool page's permissions). -/
def mapSeqPage (s : State) (did va : Nat) (r : LeafRun) : State :=
  let c := Tbl.at Context.reset s.mmu.ctx did
  { tlbDrop s did va 1 with mmu.ctx := s.mmu.ctx.put did { c with runs := insertLeaf c.runs { r with va := va, managed := true } } }

/-- Remove the leaf entry of a sequence's virtual page. -/
def unmapSeqPage (s : State) (did va : Nat) : State :=
  let c := Tbl.at Context.reset s.mmu.ctx did
  { tlbDrop s did va 1 with mmu.ctx := s.mmu.ctx.put did { c with runs := c.runs.filter (fun r => !(r.managed && r.va == va)) } }

/-- The leaf entry that the manager installed at a virtual page. -/
def seqLeaf (s : State) (did va : Nat) : Option LeafRun :=
  (Tbl.at Context.reset s.mmu.ctx did).runs.find? (fun r => r.managed && r.va == va)

/-- Virtual page of a logical page. -/
def Seq.vpage (q : Seq) (j : Nat) : Nat := q.base / 65536 + j % q.reservedPages

/-- Return the first `n` held pages of a sequence to its pool. -/
def returnPages (s : State) (k n : Nat) (q : Seq) : State :=
  let gone := q.held.take n
  let s := (List.range n).foldl (fun s i => unmapSeqPage s q.ownerDid (q.vpage (q.firstPage + i))) s
  let p := poolOf s q.pool
  let s := setPool s q.pool { p with taken := p.taken.filter (fun x => !gone.contains x) }
  setSeq s k { q with held := q.held.drop n, firstPage := q.firstPage + n }

/-! ### Running attends (R380, R381) -/

/-- A running SEQ_ATTEND of sequence `k` reads a position from `lo` up to `hi`. -/
def attendReads (s : State) (k lo hi : Nat) : Bool :=
  s.seq.pipes.any (fun p => p.2.job.any (fun j => dfld j.desc 16 0 14 == k
    && ((decide (j.first < hi) && decide (lo < j.first + j.count)) || j.pend.any (fun x => decide (lo ≤ x) && decide (x < hi)))))

/-! ### Growth (R376 to R379) -/

/-- A record about a sequence. -/
def seqReport (s : State) (k : Nat) (q : Seq) (st : Nat) : Report :=
  { reportOf s (sevOf q.guarded) 14 k st with status := st, guarded := q.guarded, did := q.ownerDid, flows := [q.flow] }

/-- PAGE_EXHAUSTED: nothing changes (R378). -/
def exhaust (s : State) (k : Nat) (q : Seq) (d : Desc) : State :=
  finishDesc (raise (setSeq s k { q with exhausted := satAdd 8 q.exhausted 1 }) (seqReport s k q stPageExhausted)) d stPageExhausted 0 0 0

/-- The pending position opens: its time word is written and the APPEND completes (R376). -/
def openPosition (s : State) (k : Nat) (q : Seq) (a : AppendWait) : State :=
  let p := q.first + q.count
  let w := devWrite s (seqWho q k) (q.timeWord p) (leBytes 8 (if a.invalid then 2 ^ 64 - 1 else a.time))
  if w.1 ≠ stOk then finishDesc (setSeq w.2 k q) a.desc w.1 0 0 0
  else
    finishDesc (setSeq w.2 k { q with pending := some a.epoch, appended := (a.epoch :: q.appended).take 4 }) a.desc stOk (q.row p) (p % 2 ^ 32) 0

/-- Give the sequence its next logical page; the status, and the sequence with its page where it succeeds. -/
def givePage (s : State) (q : Seq) (n : Nat) : Nat × Seq × State :=
  let p := poolOf s q.pool
  let j := (q.first + q.count) / q.rpp
  match poolLeaf s p n with
  | none => (stTranslation, q, setPool s q.pool { p with lost := p.lost ++ [n] })
  | some r =>
    let s := setPool s q.pool { p with taken := p.taken ++ [n] }
    (stOk, { q with held := q.held ++ [n], firstPage := if q.held.isEmpty then j else q.firstPage }, mapSeqPage s q.ownerDid (q.vpage j) r)

/-- SLIDE: the oldest held page is recycled (R378). -/
def slide (s : State) (q : Seq) : Seq × State :=
  let j := (q.first + q.count) / q.rpp
  let first := (q.firstPage + 1) * q.rpp
  let y : Seq := { q with
    first := max q.first first, count := q.first + q.count - max q.first first, firstPage := if q.held.length = 1 then j else q.firstPage + 1
    held := q.held.drop 1 ++ q.held.take 1, slides := satAdd 16 q.slides 1 }
  if q.vpage q.firstPage = q.vpage j then (y, s)
  else
    match seqLeaf s q.ownerDid (q.vpage q.firstPage) with
    | some r => (y, mapSeqPage (unmapSeqPage s q.ownerDid (q.vpage q.firstPage)) q.ownerDid (q.vpage j) r)
    | none => (y, unmapSeqPage s q.ownerDid (q.vpage q.firstPage))

/-- Outcome of trying an APPEND: it completes, or waits (true: for a page, under the STALL timeout). -/
inductive Tried where
  | done (s : State)
  | wait (stall : Bool)

/-- Try an APPEND on a sequence without a pending position (R376 to R378). -/
def tryAppend (s : State) (k : Nat) (q : Seq) (a : AppendWait) : Tried :=
  if q.failed then .done (finishDesc (setSeq s k q) a.desc stInternal 0 0 0)
  else if q.pending.isSome then .wait false
  else if !q.held.isEmpty ∧ (q.first + q.count) / q.rpp < q.firstPage + q.held.length then .done (openPosition s k q a)
  else
    match if q.held.length < q.reservedPages then (poolOf s q.pool).next else none with
    | some n =>
      let g := givePage s q n
      .done (if g.1 = stOk then openPosition g.2.2 k g.2.1 a else finishDesc g.2.2 a.desc g.1 0 0 0)
    | none =>
      if q.policy = 0 then .wait true
      else if q.policy = 1 ∧ !q.held.isEmpty then
        if attendReads s k (q.firstPage * q.rpp) ((q.firstPage + 1) * q.rpp) then .wait false
        else let y := slide s q; .done (openPosition y.2 k y.1 a)
      else .done (exhaust s k q a.desc)

/-- The owner rule of R372 and the FAILED state of R389: status, 0 where the operation may go on. -/
def seqAccess (d : Desc) (q : Seq) : Nat :=
  if q.ownerDid ≠ d.did ∧ 1 < d.did then stFirewall else if q.failed then stInternal else stOk

/-- What R70 checks of SeqAppend. -/
def infoSeqAppend (s : State) (d : Desc) : OpInfo :=
  let k := dfld d 16 0 14
  let q0 := seqOf s k
  { fields := [(16, 0, 14), (18, 0, 1), (24, 0, 64)], cls := (q0.map (·.guarded)).orElse (fun _ => unitClass s d) }

/-- SEQ_APPEND (R372, R375 to R378). -/
def execSeqAppend (d : Desc) (s : State) : Host.Outcome State Fault Refusal :=
  let k := dfld d 16 0 14
  let q0 := seqOf s k
  .next (runDesc s d (infoSeqAppend s d) fun s =>
    match q0, callFlow s d with
    | none, _ => failWith s stDescInvalid
    | some q, work =>
      if seqAccess d q ≠ stOk then failWith s (seqAccess d q)
      else match work with
        | none => failWith s stNotAuth
        | some (c, n, f) =>
          if f ≠ q.flow then failWith s stNotAuth
          else if q.appended.contains n ∨ q.waiting.any (fun a => a.epoch == n) then failWith s stDescInvalid
          else
            let tov := ((epochOf s c n).map (fun e => e.tov s)).getD 0
            let a : AppendWait := { desc := d, time := if dfld d 24 0 64 = 0 then tov else dfld d 24 0 64, invalid := dbit d 18 0, epoch := n, since := none }
            match if q.waiting.isEmpty then tryAppend s k q a else .wait false with
            | .done s => .later s
            | .wait stall => .later (setSeq s k { q with waiting := q.waiting ++ [{ a with since := if stall then some s.up else none }] }))

/-- A waiting APPEND of a sequence can go on now: the first of its list. -/
def resumable (s : State) (k : Nat) (q : Seq) : Bool :=
  match q.waiting with
  | a :: _ => match tryAppend s k { q with waiting := q.waiting.drop 1 } a with
    | .done _ => true
    | .wait stall => stall && a.since.isNone
  | [] => false

/-- The first waiting APPEND of a sequence goes on, or starts to wait for a page. -/
def resumeAppend (s : State) (k : Nat) (q : Seq) : State :=
  match q.waiting with
  | [] => s
  | a :: rest =>
    match tryAppend s k { q with waiting := rest } a with
    | .done s => s
    | .wait stall => setSeq s k { q with waiting := (if stall then { a with since := some (a.since.getD s.up) } else a) :: rest }

/-- SEQ_STALL_APPEND_RESUME: of the waiting APPENDs of a pool that can go on, the first in R136's order (R376, R378). -/
def execSeqStallAppendResume (pool : Nat) (s : State) : Host.Outcome State Fault Refusal :=
  let ready := s.seq.seqs.filter (fun p => p.2.active && p.2.pool == pool && resumable s p.1 p.2)
  match leastBy (fun (p : Nat × Seq) => ((p.2.waiting[0]?).map (fun a => workKey s a.desc)).getD []) ready with
  | some (k, q) => .next (resumeAppend s k q)
  | none => .next s

/-- SEQ_STALL_TIMEOUT: stall_us has passed since a sequence's APPEND found no page (R378). -/
def execSeqStallTimeout (k : Nat) (s : State) : Host.Outcome State Fault Refusal :=
  match seqOf s k with
  | none => .next s
  | some q =>
    match q.waiting with
    | [] => .next s
    | a :: rest =>
      match a.since with
      | none => .next s
      | some t =>
        let s := advanceUp s (t + q.stallUs * 1000)
        if resumable s k q then .next (resumeAppend s k q) else .next (exhaust s k { q with waiting := rest } a.desc)

/-! ### Pools and sequences (R372 to R375, R380) -/

/-- What R70 checks of SeqPool. -/
def infoSeqPool (s : State) (d : Desc) : OpInfo :=
  let k := dfld d 16 0 4
  let old := s.seq.pools.find k
  { fields := [(16, 0, 4), (17, 0, 1), (24, 0, 48), (32, 0, 22)], cls := if (old.any (·.guarded)) then some true else none, configures := true, imageOnly := true, authority := didHost d }

/-- SEQ_POOL (R373, R375). -/
def execSeqPool (d : Desc) (s : State) : Host.Outcome State Fault Refusal :=
  let k := dfld d 16 0 4
  .next (runDesc s d (infoSeqPool s d) fun s =>
    let n := dfld d 32 0 22
    let p : Pool := { enable := dbit d 17 0, owner := d.did, guarded := false, base := dfld d 24 0 48, pages := n, taken := [], lost := [] }
    if s.seq.seqs.any (fun q => q.2.active && q.2.pool == k) ∨ (p.enable ∧ (n = 0 ∨ 3670016 < n ∨ p.base % 65536 ≠ 0)) then failWith s stDescInvalid
    else okWith (setPool s k p) (if p.enable then n else 0))

/-- Two page ranges meet. -/
def seqRangeUsed (s : State) (did page n : Nat) : Bool :=
  let meets := fun (a m : Nat) => decide (a < page + n) && decide (page < a + m)
  (Tbl.at Context.reset s.mmu.ctx did).runs.any (fun r => meets r.va r.pages)
    || s.seq.seqs.any (fun p => p.2.active && p.2.ownerDid == did && meets (p.2.base / 65536) p.2.reservedPages)

/-- What R70 checks of SeqCreate. -/
def infoSeqCreate (_ : State) (d : Desc) : OpInfo :=
  { fields := [(16, 0, 14), (18, 0, 6), (19, 0, 6), (20, 0, 4), (21, 0, 3), (22, 0, 2), (24, 0, 12), (28, 0, 17), (32, 0, 32), (40, 0, 48)], authority := didHost d }

/-- SEQ_CREATE (R369, R374, R375). -/
def execSeqCreate (d : Desc) (s : State) : Host.Outcome State Fault Refusal :=
  .next (runDesc s d (infoSeqCreate s d) fun s =>
    let k := dfld d 16 0 14
    let stall := dfld d 32 0 32
    let q : Seq := { active := true, failed := false, guarded := false, ownerDid := d.did, pool := dfld d 18 0 4, policy := dfld d 18 4 2, layers := dfld d 19 0 6 + 1, heads := dfld d 20 0 4 + 1, width := 32 * (dfld d 21 0 3 + 1), format := dfld d 22 0 2, flow := dfld d 24 0 12, reservedPages := dfld d 28 0 17, stallUs := if stall = 0 then 1000 else stall, base := dfld d 40 0 48, first := 0, count := 0, firstPage := 0, held := [], pending := none, appended := [], waiting := [], slides := 0, exhausted := 0, discarded := 0 }
    let p := poolOf s q.pool
    let n := q.reservedPages
    if (seqOf s k).isSome ∨ !p.enable ∨ p.owner ≠ d.did ∨ p.guarded ∨ q.policy = 3 ∨ q.rpp = 0 ∨ n = 0 ∨ 65536 < n * q.rpp ∨ 1000000 < stall ∨ q.base % 65536 ≠ 0 ∨ 2 ^ 48 < q.base + n * 65536
        ∨ !(s.cfg.flows.find q.flow).any (fun f => !f.guarded) ∨ seqRangeUsed s d.did (q.base / 65536) n then failWith s stDescInvalid
    else .done stOk q.rpp q.rowBytes 0 (setSeq s k q))

/-- Destroy a sequence: every page returns, waiting APPENDs are aborted (R380). -/
def destroySeq (s : State) (k : Nat) (q : Seq) : State :=
  let s := returnPages s k q.held.length q
  let s := { s with seq.seqs := s.seq.seqs.drop k }
  together s fun s => q.waiting.foldl (fun s a => finishDesc s a.desc stAborted 0 0 0) s

/-- Held pages whose positions all lie below a position, the page of a pending one kept (R380; log entry 75). -/
def trimCount (q : Seq) (keep : Nat) : Nat :=
  let below := (q.held.zipIdx.takeWhile (fun p => decide ((q.firstPage + p.2 + 1) * q.rpp ≤ keep)
    && !(q.pending.isSome && (q.first + q.count) / q.rpp == q.firstPage + p.2))).length
  below

/-- Trim a sequence. -/
def trimSeq (s : State) (k : Nat) (q : Seq) (n : Nat) : State :=
  let stop := q.first + q.count
  let first := if n = 0 then q.first else min stop (max q.first ((q.firstPage + n) * q.rpp))
  returnPages s k n { q with first := first, count := stop - first }

/-- Run a SEQ_DESTROY or SEQ_TRIM that no attend holds; none where it must wait. -/
def freeOp (s : State) (d : Desc) : Option State :=
  let k := dfld d 16 0 14
  match seqOf s k with
  | none => some (finishDesc s d stDescInvalid 0 0 0)
  | some q =>
    if dOpcode d = 0x0C02 then
      if attendReads s k 0 (2 ^ 64) then none
      else some (together s fun s => finishDesc (destroySeq s k q) d stOk q.held.length 0 0)
    else
      let n := trimCount q (dfld d 24 0 64)
      if attendReads s k (q.firstPage * q.rpp) ((q.firstPage + n) * q.rpp) then none
      else some (finishDesc (trimSeq s k q n) d stOk n 0 0)

/-- What SEQ_DESTROY and SEQ_TRIM share after their checks. -/
def startFreeOp (s : State) (d : Desc) (q : Option Seq) (failedOk : Bool) : Answer :=
  match q with
  | none => if dOpcode d = 0x0C02 then okWith s 0 else failWith s stDescInvalid
  | some q =>
    let a := seqAccess d q
    if a ≠ stOk ∧ !(failedOk && a == stInternal) then failWith s a
    else match freeOp s d with
      | some s => .later s
      | none => .later { s with seq.blocked := s.seq.blocked ++ [d] }

/-- What R70 checks of SeqDestroy. -/
def infoSeqDestroy (s : State) (d : Desc) : OpInfo :=
  let q := seqOf s (dfld d 16 0 14)
  { fields := [(16, 0, 14)], cls := q.map (·.guarded), configures := true, imageOnly := true, authority := didHost d }

/-- SEQ_DESTROY (R375, R380). -/
def execSeqDestroy (d : Desc) (s : State) : Host.Outcome State Fault Refusal :=
  let q := seqOf s (dfld d 16 0 14)
  .next (runDesc s d (infoSeqDestroy s d) fun s => startFreeOp s d q true)

/-- What R70 checks of SeqTrim. -/
def infoSeqTrim (s : State) (d : Desc) : OpInfo :=
  let q := seqOf s (dfld d 16 0 14)
  { fields := [(16, 0, 14), (24, 0, 64)], cls := (q.map (·.guarded)).orElse (fun _ => unitClass s d), configures := true }

/-- SEQ_TRIM (R375, R380). -/
def execSeqTrim (d : Desc) (s : State) : Host.Outcome State Fault Refusal :=
  let q := seqOf s (dfld d 16 0 14)
  .next (runDesc s d (infoSeqTrim s d) fun s => startFreeOp s d q false)

/-- What R70 checks of SeqInfo. -/
def infoSeqInfo (s : State) (d : Desc) : OpInfo :=
  { fields := [(16, 0, 14)], cls := unitClass s d }

/-- SEQ_INFO (R372). -/
def execSeqInfo (d : Desc) (s : State) : Host.Outcome State Fault Refusal :=
  let q0 := seqOf s (dfld d 16 0 14)
  .next (runDesc s d (infoSeqInfo s d) fun s =>
    match q0 with
    | none => failWith s stDescInvalid
    | some q => if seqAccess d q ≠ stOk then failWith s (seqAccess d q) else .done stOk q.first q.count 0 s)

/-- What R70 checks of SeqBias. -/
def infoSeqBias (_ : State) (d : Desc) : OpInfo :=
  { fields := [(16, 0, 6), (17, 0, 8), (20, 0, 32), (24, 0, 64)], authority := didHost d }

/-- SEQ_BIAS (R372, R375, R384). -/
def execSeqBias (d : Desc) (s : State) : Host.Outcome State Fault Refusal :=
  .next (runDesc s d (infoSeqBias s d) fun s =>
    let t := dfld d 16 0 6
    let h := dfld d 17 0 8
    let b := dfld d 20 0 32
    if (s.cfg.biases.find t).any (·.guarded) then failWith s stNotAuth
    else if h = 0 ∨ 64 < h ∨ b = 0 ∨ 10 ^ 9 < b then failWith s stDescInvalid
    else
      let r := devRead s { did := d.did, guarded := false, kind := 4, index := 0x0C00, flows := [] } (dfld d 24 0 64) (128 * h)
      if r.1 ≠ stOk then failWith r.2.2 r.1
      else
        let vs := (List.range (32 * h)).map (fun i => ofLe ((r.2.1.drop (4 * i)).take 4))
        okWith { r.2.2 with seq.badBias := r.2.2.seq.badBias.filter (· ≠ t), cfg.biases := r.2.2.cfg.biases.put t { heads := h, baseUs := b, values := vs, guarded := false } } 0)

/-! ### Attention (R382 to R387) -/

/-- Operands of a SEQ_ATTEND. -/
structure Att where
  layer : Nat
  causal : Bool
  timeCausal : Bool
  outF : Nat
  hq : Nat
  qF : Nat
  window : Nat
  maxAge : Nat
  scale : Nat
  bias : Option Bias

/-- The bias table of the work's configuration (R28, R384). -/
def biasOf (s : State) (d : Desc) (t : Nat) : Option Bias :=
  match (callFlow s d).bind (fun x => epochOf s x.1 x.2.1) with
  | some e => e.cfg.biases.find t
  | none => s.cfg.biases.find t

def attOf (s : State) (d : Desc) : Att :=
  { layer := dfld d 18 0 6, causal := dbit d 19 0, timeCausal := dbit d 19 1, outF := dfld d 19 3 1, hq := dfld d 20 0 7, qF := dfld d 21 0 2,
    window := dfld d 28 0 17, maxAge := dfld d 32 0 32, scale := dfld d 36 0 32, bias := if dbit d 22 7 then biasOf s d (dfld d 22 0 6) else none }

/-- The mask terms of a key but its range (R383). -/
def attends (a : Att) (qpos qtime p t : Nat) : Bool :=
  t != 2 ^ 64 - 1 && (!a.causal || decide (p ≤ qpos)) && (a.window == 0 || decide ((BitVec.ofNat 64 qpos - BitVec.ofNat 64 p).toInt < a.window))
    && (!a.timeCausal || decide (t ≤ qtime)) && (a.maxAge == 0 || decide ((qtime : Int) - t ≤ a.maxAge * 1000))

/-- The bias of a key for a query head (R384). -/
def keyBias (a : Att) (i qtime t : Nat) : Nat :=
  match a.bias with
  | none => 0
  | some b =>
    let d := (qtime - t) / 1000
    let bucket := if d < b.baseUs then 0 else min 31 (Nat.log2 (d / b.baseUs) + 1)
    b.values.getD (i % b.heads * 32 + bucket) 0

/-- Key-value format of R369. -/
def kvFormat (code : Nat) : Fmt := if code = 0 then bf16 else if code = 1 then fp16 else if code = 2 then e4m3 else e5m2

/-- Elements of a byte list as encodings of `e` bytes. -/
def elemsOf (e n : Nat) (bs : List Byte) : List Nat := (List.range n).map (fun i => ofLe ((bs.drop (e * i)).take e))

def widen (f : Fmt) (v : Nat) : Nat := (convF fp32 .arith none (decodeF f v)).1

/-- The dot product by the chunk rule from +0: chunks of 32. -/
def dotOf (qf kf : Fmt) (q k : List Nat) : Nat :=
  let ps := (q.zip k).map (fun x => prodV (decodeF qf x.1) (decodeF kf x.2))
  (List.range (q.length / 32)).foldl (fun acc j => (chunkSum (decodeF fp32 acc :: (ps.drop (32 * j)).take 32)).1) 0

def exp2Of (x : Nat) : Nat := (exp2Lane x 0 0).1

/-- log2(e). -/
def log2e : Nat := 0x3FB8AA3B

/-- One key in the soft maximum: m, l, acc; none after a NaN score. -/
def softStep (st : Option (Nat × Nat × List Nat)) (s : Nat) (val : List Nat) : Option (Nat × Nat × List Nat) :=
  match st with
  | none => none
  | some (m, l, acc) =>
    if (decodeF fp32 s).isNan then none else
    let m2 := f32Max m s
    let c := if m = m2 then f32One else if m = 0xFF800000 then 0 else exp2Of (f32Mul (f32Sub m m2) log2e)
    let p := exp2Of (f32Mul (f32Sub s m2) log2e)
    some (m2, f32Fma l c p, List.zipWith (fun v a => f32Fma p v (f32Mul a c)) val acc)

/-- One query head over its attended keys (score, widened value vector): its elements as FP32 (R385, R386). -/
def headOut (dk : Nat) (keys : List (Nat × List Nat)) : List Nat :=
  match keys with
  | [] => List.replicate dk 0
  | [k] => k.2
  | _ =>
    match keys.foldl (fun st k => softStep st k.1 k.2) (some (0xFF800000, 0, List.replicate dk 0)) with
    | none => List.replicate dk (nanBits fp32)
    | some (_, l, acc) => acc.map (fun a => f32Div a l)

/-- Encode a head in the output format: all NaN where any element is; and whether it is. -/
def headBytes (outF : Nat) (xs : List Nat) : List Byte × Bool :=
  let f := if outF = 0 then fp32 else bf16
  let ys := xs.map (fun v => if outF = 0 then v else (convF bf16 .saturate none (decodeF fp32 v)).1)
  let bad := ys.any (fun v => (decodeF f v).isNan)
  ((if bad then ys.map (fun _ => nanBits f) else ys).flatMap (leBytes (if outF = 0 then 4 else 2)), bad)

/-- The progress of a SEQ_ATTEND. -/
structure AttRun where
  st : Nat
  numeric : Bool
  empty : Nat
  read : List Nat
  s : State

/-- Positions that an attend may read, with their time words (R381, R383). -/
def attendTimes (s : State) (k : Nat) (q : Seq) (j : Job) : Nat × List (Nat × Nat) × State :=
  ((List.range j.count).map (· + j.first) ++ j.pend.toList).foldl (fun (a : Nat × List (Nat × Nat) × State) p =>
    if a.1 ≠ stOk then a else
    let r := devRead a.2.2 (seqWho q k) (q.timeWord p) 8
    (r.1, a.2.1 ++ [(p, ofLe r.2.1)], r.2.2)) (stOk, [], s)

/-- Keys and values of one key-value head at the attended positions. -/
def readHead (s : State) (k : Nat) (q : Seq) (layer h : Nat) (ps : List (Nat × Nat)) : Nat × List (List Nat × List Nat) × State :=
  ps.foldl (fun (a : Nat × List (List Nat × List Nat) × State) p =>
    if a.1 ≠ stOk then a else
    let n := q.width * q.elem
    let r := devRead a.2.2 (seqWho q k) (q.row p.1 + (layer * q.heads + h) * 2 * n) (2 * n)
    (r.1, a.2.1 ++ [(elemsOf q.elem q.width (r.2.1.take n), elemsOf q.elem q.width (r.2.1.drop n))], r.2.2)) (stOk, [], s)

/-- One query row (R382 to R386). -/
def attendRow (d : Desc) (w : Who) (k : Nat) (q : Seq) (a : Att) (times : List (Nat × Nat)) (x : AttRun) (i : Nat) : AttRun :=
  if x.st ≠ stOk then x else
  let qe := bevSize a.qF
  let size := a.hq * q.width
  let place := fun (v : Nat) => lytPlace x.s d v
  let qp := place (dfld d 40 0 48 + i * (size * qe))
  let mp := place (dfld d 56 0 48 + 16 * i)
  let m := lytRead x.s d w mp.1 mp.2 16
  let r := lytRead m.2.2 d w qp.1 qp.2 (size * qe)
  if m.1 ≠ stOk then { x with st := m.1, s := m.2.2 }
  else if r.1 ≠ stOk then { x with st := r.1, s := r.2.2 }
  else
    let qpos := ofLe (m.2.1.take 8)
    let qtime := ofLe (m.2.1.drop 8)
    let keys := times.filter (fun t => attends a qpos qtime t.1 t.2)
    let kvs := (List.range q.heads).foldl (fun (y : Nat × List (List (List Nat × List Nat)) × State) h =>
      if y.1 ≠ stOk then y else let z := readHead y.2.2 k q a.layer h keys; (z.1, y.2.1 ++ [z.2.1], z.2.2)) (stOk, [], r.2.2)
    if kvs.1 ≠ stOk then { x with st := kvs.1, s := kvs.2.2 } else
    let qf := bevFormat a.qF
    let kf := kvFormat q.format
    let qs := elemsOf qe size r.2.1
    let heads := (List.range a.hq).map (fun h =>
      let qv := (qs.drop (h * q.width)).take q.width
      let kv := kvs.2.1.getD (h * q.heads / a.hq) []
      headBytes a.outF (headOut q.width ((keys.zip kv).map (fun y =>
        (f32Add (f32Mul (dotOf qf kf qv y.2.1) a.scale) (keyBias a h qtime y.1.2), y.2.2.map (widen kf))))))
    let oe := if a.outF = 0 then 4 else 2
    let op := place (dfld d 48 0 48 + i * (size * oe))
    let z := lytWrite kvs.2.2 d w op.1 op.2 (heads.flatMap (·.1))
    { st := z.1, numeric := x.numeric || heads.any (·.2), empty := x.empty + (if keys.isEmpty then 1 else 0),
      read := keys.foldl (fun l p => if l.contains p.1 then l else l ++ [p.1]) x.read, s := z.2 }

/-- Requester of an attend for its queries and outputs. -/
def pipeWho (s : State) (d : Desc) (core : Nat) : Who :=
  { did := d.did, guarded := workGuarded d, kind := 2, index := core, flows := callFlows s d, src := some d.src }

/-- Run a SEQ_ATTEND over its first `n` query rows. -/
def runAttend (s : State) (j : Job) (core n : Nat) : AttRun :=
  let d := j.desc
  let k := dfld d 16 0 14
  match seqOf s k with
  | none => { st := stDescInvalid, numeric := false, empty := 0, read := [], s := s }
  | some q =>
    let t := attendTimes s k q j
    if q.failed then { st := stInternal, numeric := false, empty := 0, read := [], s := s }
    else if t.1 ≠ stOk then { st := t.1, numeric := false, empty := 0, read := [], s := t.2.2 }
    else (List.range n).foldl (attendRow d (pipeWho s d core) k q (attOf s d) t.2.1) { st := stOk, numeric := false, empty := 0, read := [], s := t.2.2 }

/-! ### Pipelines (R368, R381, R386, R387) -/

/-- Pipelines that may take a waiting operation now. -/
def pipesFree (s : State) (j : Job) : List Nat :=
  (List.range 6).filter (fun c => (pipeOf s c).job.isNone && j.on_.all (· == c) && unitReady s (pipeUnit c) (workGuarded j.desc) (workEpoch s j.desc))

/-- What an operation takes at its start: first, count and the pending position it may read (R381, R383). -/
def takeSeq (s : State) (j : Job) : Job :=
  match seqOf s (dfld j.desc 16 0 14) with
  | none => { j with start := s.up }
  | some q =>
    let own : Bool := match callFlow s j.desc with
      | some (_, n, f) => f == q.flow && q.pending == some n
      | none => false
    { j with start := s.up, first := q.first, count := q.count, pend := if dbit j.desc 19 2 ∧ own then some (q.first + q.count) else none }

/-- Start waiting SEQ_ATTENDs on idle pipelines in the order of R136. -/
def startPipes : Nat → State → State
  | 0, s => s
  | fuel + 1, s =>
    match leastBy (fun (j : Job) => workKey s j.desc) (s.seq.waiting.filter (fun j => !(pipesFree s j).isEmpty)) with
    | none => s
    | some j =>
      let c := (pipesFree s j).headD 0
      let g := workGuarded j.desc
      let s := startOn { s with seq.waiting := s.seq.waiting.erase j } (pipeUnit c) g (workEpoch s j.desc) (callFlows s j.desc)
      startPipes fuel (setPipe s c { pipeOf s c with job := some (takeSeq s j), cls := g })

/-- The core a descriptor names: the caller's, or its field; none where the device chooses. -/
def namedCore (d : Desc) (field : Nat) : Option Nat :=
  match d.src with
  | .call t _ => some (coreOfEngine (engineNo t))
  | _ => if field = 6 then none else some field

/-- What R70 checks of SeqAttend. -/
def infoSeqAttend (s : State) (d : Desc) : OpInfo :=
  { fields := [(16, 0, 14), (18, 0, 6), (19, 0, 7), (20, 0, 7), (21, 0, 2), (22, 0, 6), (22, 7, 1), (24, 0, 13), (28, 0, 17), (32, 0, 64), (40, 0, 48), (48, 0, 48), (56, 0, 48)], cls := unitClass s d }

/-- SEQ_ATTEND (R372, R375, R382, R384). -/
def execSeqAttend (d : Desc) (s : State) : Host.Outcome State Fault Refusal :=
  let q0 := seqOf s (dfld d 16 0 14)
  .next (runDesc s d (infoSeqAttend s d) fun s =>
    match q0 with
    | none => failWith s stDescInvalid
    | some q =>
      let a := attOf s d
      let nq := dfld d 24 0 13
      let core := namedCore d (dfld d 19 4 3)
      let biasBad : Bool := dbit d 22 7 && !(a.bias.any (fun b => a.hq % b.heads == 0))
      if seqAccess d q ≠ stOk then failWith s (seqAccess d q)
      else if q.layers ≤ a.layer ∨ a.hq = 0 ∨ 64 < a.hq ∨ a.hq % q.heads ≠ 0 ∨ a.qF = 3 ∨ core.any (fun c => decide (6 < c)) ∨ nq = 0 ∨ 4096 < nq ∨ !f32Finite a.scale ∨ biasBad
          ∨ dfld d 40 0 6 ≠ 0 ∨ dfld d 48 0 6 ≠ 0 ∨ dfld d 56 0 6 ≠ 0 ∨ (workGuarded d ∧ !q.guarded) then failWith s stDescInvalid
      else if core.any (fun c => !inService s (pipeUnit c)) then failWith s stIsolated
      else
        let j : Job := { desc := d, on_ := core, start := s.up, first := 0, count := 0, pend := none }
        let s := { s with seq.waiting := s.seq.waiting ++ [j] }
        .later (startPipes s.seq.waiting.length s))

/-- Retry the SEQ_TRIMs and SEQ_DESTROYs that waited for an attend. -/
def retryBlocked (s : State) : State :=
  s.seq.blocked.foldl (fun s d => match freeOp s d with
    | some s => { s with seq.blocked := s.seq.blocked.erase d }
    | none => s) s

/-- SEQ_ATTEND_END: the attend of a pipeline takes effect and ends (R386, R387). `fault`: 0 none, 2 an uncorrectable error, 3 a
disagreement of checked paths; `after`: query rows written then. -/
def execSeqAttendEnd (core fault after : Nat) (s : State) : Host.Outcome State Fault Refusal :=
  match (pipeOf s core).job with
  | none => .next s
  | some j =>
    let d := j.desc
    let ue := fault == 2 || (dbit d 22 7 && s.seq.badBias.contains (dfld d 22 0 6))
    let bad := fault == 3 && workGuarded d
    let nq := dfld d 24 0 13
    let r := runAttend s j core (if fault = 2 ∨ bad then min after nq else if ue then 0 else nq)
    let st := if r.st ≠ stOk then r.st else if ue then stInternal else if bad then stMismatch else if r.numeric then stNumeric else stOk
    let x := pipeOf r.s core
    let s := setPipe r.s core { x with job := none, checkFail := x.checkFail || st == stMismatch, lastStatus := st, emptyRows := min 255 (r.empty * dfld d 20 0 7) }
    let s := if (ue ∨ bad) ∧ (st = stInternal ∨ st = stMismatch) then
        raise s { reportOf s (sevOf (workGuarded d)) 2 core st with status := st, guarded := workGuarded d, did := d.did, flows := callFlows s d, epoch := callEpoch s d }
      else s
    let fl := if r.empty = 0 then 0 else 8
    let s := finishDesc (noteFlags s d fl) d st (r.empty + min r.read.length (2 ^ 32 - 1) * 2 ^ 32) 0 fl
    let s := retryBlocked (fwDone s d (136 + core))
    .next (startPipes s.seq.waiting.length s)

end Sys2Proof.Machine
end

