-- ==== Sys2Proof/Machine/Solver.lean ====
section
/-! DEFINITION. The solver units: interior-point solution of quadratic programs (spec/17_qp_solver.md R390 to R411). -/

namespace Sys2Proof.Machine

/-! ### FP64 vectors (R405) -/

abbrev FVec := List Nat
abbrev FMat := List (List Nat)

def zerosV (n : Nat) : FVec := List.replicate n 0
def addW (a b : FVec) : FVec := List.zipWith f64Add a b
def subW (a b : FVec) : FVec := List.zipWith f64Sub a b
def negW (a : FVec) : FVec := a.map f64Neg

/-- Largest magnitude. -/
def normV (a : FVec) : Nat := a.foldl (fun m v => f64Max m (f64Abs v)) 0
def normVs (a : List FVec) : Nat := normV a.flatten

def finiteVs (a : List FVec) : Bool := a.all (fun v => v.all f64Finite)

def transposeM (cols : Nat) (m : FMat) : FMat := (List.range cols).map (fun j => m.map (fun r => r.getD j 0))

/-- acc + M x, each element one chain. -/
def mulMV (acc : FVec) (m : FMat) (x : FVec) : FVec := List.zipWith (fun a r => dot64 a r x) acc m

/-- acc + Mᵀ x. -/
def mulTV (acc : FVec) (m : FMat) (x : FVec) : FVec := mulMV acc (transposeM acc.length m) x

/-- acc − M x. -/
def subMV (acc : FVec) (m : FMat) (x : FVec) : FVec := mulMV acc (m.map negW) x

/-- acc + A B. -/
def mulMM (acc a b : FMat) : FMat := List.zipWith (fun row ar => List.zipWith (fun v c => dot64 v ar c) row (transposeM row.length b)) acc a

/-- A symmetric matrix from its lower triangle. -/
def symM (n : Nat) (m : FMat) : FMat :=
  (List.range n).map (fun i => (List.range n).map (fun j => if j ≤ i then (m.getD i []).getD j 0 else (m.getD j []).getD i 0))

/-- Add a matrix of FP32 encodings, widened, and delta on the diagonal where it is given (R402, R405). -/
def addWide (delta : Option Nat) (m w : FMat) : FMat :=
  (List.zipWith (List.zipWith (fun a b => f64Add a (f64Of32 b))) m w).zipIdx.map (fun r =>
    r.1.zipIdx.map (fun v => match delta with
      | some d => if v.2 = r.2 then f64Add v.1 d else v.1
      | none => v.1))

def roundS (a : Nat) : Nat := (convF fp32 .arith none (decodeF fp64 a)).1

/-- Cᵀ diag(Σ) D as FP32 FMA chains in ascending row order (R405). -/
def weighted (cols1 cols2 : Nat) (c d : FMat) (sg : FVec) : FMat :=
  (List.range cols1).map (fun i => (List.range cols2).map (fun j =>
    ((c.zip d).zip sg).foldl (fun a p => f32Fma (f32Mul (roundS (p.1.1.getD i 0)) (roundS p.2)) (roundS (p.1.2.getD j 0)) a) 0))

/-! ### Problems (R391 to R394) -/

/-- A stage: the matrices of R391, widened. -/
structure Stage where
  a : FMat
  b : FMat
  c : FVec
  q : FMat
  w : FMat
  s : FMat
  qv : FVec
  rv : FVec
  cm : FMat
  dm : FMat
  d : FVec

def Stage.empty : Stage := { a := [], b := [], c := [], q := [], w := [], s := [], qv := [], rv := [], cm := [], dm := [], d := [] }

/-- A problem with its header. The dense form is one stage without inputs: Q is H, q is g, C is G, d is h. -/
structure Problem where
  dense : Bool
  n : Nat
  nx : Nat
  nu : Nat
  nc : Nat
  xhat : FVec
  stages : List Stage
  epsP : Nat
  epsD : Nat
  epsMu : Nat
  delta : Nat
  piv : Nat
  sMin : Nat
  mu0 : Nat

def Problem.st (p : Problem) (k : Nat) : Stage := p.stages.getD k Stage.empty
def Problem.m (p : Problem) : Nat := p.nc * (p.n + 1)

/-- Sizes of a solve's problem from its descriptor: form, N, nx, nu, nc (R397). -/
def solveSizes (d : Desc) : Bool × Nat × Nat × Nat × Nat :=
  if dbit d 16 0 then (true, 0, dfld d 24 0 9 + 1, 0, dfld d 26 0 11)
  else (false, dfld d 19 0 7 + 1, dfld d 20 0 5 + 1, dfld d 21 0 4 + 1, dfld d 22 0 7)

def pad64 (n : Nat) : Nat := (n + 63) / 64 * 64

/-- Bytes of one stage block before padding (R394). -/
def stageBytes (nx nu nc : Nat) : Nat := 4 * (2 * nx * nx + 2 * nx * nu + nu * nu + 2 * nx + nu + nc * (nx + nu + 1))

/-- Bytes of an image (R394). -/
def imageBytes (d : Desc) : Nat :=
  let z := solveSizes d
  let nx := z.2.2.1
  let nc := z.2.2.2.2
  if z.1 then 64 + pad64 (4 * nx * nx) + pad64 (4 * nx) + pad64 (4 * nc * nx) + pad64 (4 * nc)
  else 64 + pad64 (4 * nx) + (if dbit d 16 3 then 2 else z.2.1 + 1) * pad64 (stageBytes nx z.2.2.2.1 nc)

/-- Bytes of a work set (R395). -/
def workBytes (d : Desc) : Nat :=
  let z := solveSizes d
  let nx := z.2.2.1
  let nu := z.2.2.2.1
  let nc := z.2.2.2.2
  if z.1 then 8 * (nx * (nx + 1) / 2 + 10 * nc + 8 * nx)
  else 8 * (z.2.1 + 1) * (nx * (nx + 1) / 2 + nu * nx + nu * (nu + 1) / 2 + 10 * nc + 8 * nx + 8 * nu)

/-- A solve is streamed (R395). -/
def solveStreamed (d : Desc) : Bool := decide (3145728 < imageBytes d + workBytes d)

/-- FP32 values at byte `o`, widened. -/
def imageVec (bs : List Byte) (o n : Nat) : FVec := (List.range n).map (fun i => f64Of32 (ofLe ((bs.drop (o + 4 * i)).take 4)))
def imageMat (bs : List Byte) (o r c : Nat) : FMat := (List.range r).map (fun i => imageVec bs (o + 4 * i * c) c)

/-- A stage block (R394); the last stage has only Q, q, C and d. -/
def stageOf (bs : List Byte) (o nx nu nc : Nat) (last : Bool) : Stage :=
  let oB := o + 4 * nx * nx
  let oc := oB + 4 * nx * nu
  let oQ := oc + 4 * nx
  let oW := oQ + 4 * nx * nx
  let oS := oW + 4 * nu * nu
  let oq := oS + 4 * nu * nx
  let or_ := oq + 4 * nx
  let oC := or_ + 4 * nu
  let oD := oC + 4 * nc * nx
  let od := oD + 4 * nc * nu
  let t : Stage := { Stage.empty with q := symM nx (imageMat bs oQ nx nx), qv := imageVec bs oq nx, cm := imageMat bs oC nc nx, d := imageVec bs od nc }
  if last then t
  else { t with
    a := imageMat bs o nx nx, b := imageMat bs oB nx nu, c := imageVec bs oc nx, w := symM nu (imageMat bs oW nu nu), s := imageMat bs oS nu nx
    rv := imageVec bs or_ nu, dm := imageMat bs oD nc nu }

/-- A header value, or its default where it is zero. -/
def headerOr (v dflt : Nat) : Nat := if v % 2 ^ 63 = 0 then dflt else v

/-- The problem that a descriptor and its image describe (R393, R394). -/
def problemOf (d : Desc) (bs : List Byte) : Problem :=
  let z := solveSizes d
  let nx := z.2.2.1
  let nu := z.2.2.2.1
  let nc := z.2.2.2.2
  let h := fun (o n : Nat) => ofLe ((bs.drop o).take n)
  let stages :=
    if z.1 then
      let og := 64 + pad64 (4 * nx * nx)
      let oG := og + pad64 (4 * nx)
      [{ Stage.empty with q := symM nx (imageMat bs 64 nx nx), qv := imageVec bs og nx, cm := imageMat bs oG nc nx, d := imageVec bs (oG + pad64 (4 * nc * nx)) nc }]
    else
      let o := 64 + pad64 (4 * nx)
      let size := pad64 (stageBytes nx nu nc)
      (List.range (z.2.1 + 1)).map (fun k =>
        let block := if dbit d 16 3 then (if k = z.2.1 then 1 else 0) else k
        stageOf bs (o + block * size) nx nu nc (k == z.2.1))
  { dense := z.1, n := z.2.1, nx := nx, nu := nu, nc := nc, xhat := if z.1 then [] else imageVec bs 64 nx, stages := stages
    epsP := headerOr (h 8 8) 0x3EB0C6F7A0B5ED8D, epsD := headerOr (h 16 8) 0x3EB0C6F7A0B5ED8D, epsMu := headerOr (h 24 8) 0x3E45798EE2308C3A
    delta := h 32 8, piv := headerOr (h 40 8) 0x3D70000000000000, sMin := f64Of32 (if h 48 4 % 2 ^ 31 = 0 then 0x3C23D70A else h 48 4)
    mu0 := f64Of32 (if h 52 4 % 2 ^ 31 = 0 then 0x3F800000 else h 52 4) }

/-- The header is valid: magic, form, reserved bytes, no negative or non-finite value (R393). -/
def imageHeaderOk (d : Desc) (bs : List Byte) : Bool :=
  let h := fun (o n : Nat) => ofLe ((bs.drop o).take n)
  h 0 4 == 0x51504C53 && h 4 1 == (if dbit d 16 0 then 1 else 0) && h 5 3 == 0 && h 56 8 == 0
    && [8, 16, 24, 32, 40].all (fun o => f64Finite (h o 8) && !f64Lt (h o 8) 0)
    && [48, 52].all (fun o => f32Finite (h o 4) && !f32Lt (h o 4) 0)

/-! ### Iterates and residuals (R399, R400) -/

/-- An iterate: states, inputs, slacks, multipliers, costates, by stage. -/
structure Iter where
  x : List FVec
  u : List FVec
  s : List FVec
  l : List FVec
  y : List FVec

def Iter.finite (i : Iter) : Bool := finiteVs i.x && finiteVs i.u && finiteVs i.s && finiteVs i.l && finiteVs i.y

def ixs (n : Nat) : List Nat := List.range n

/-- G z of stage k from `acc`. -/
def conRow (p : Problem) (acc : FVec) (x u : List FVec) (k : Nat) : FVec :=
  let t := mulMV acc (p.st k).cm (x.getD k [])
  if k < p.n then mulMV t (p.st k).dm (u.getD k []) else t

/-- A cold initial point (R399). -/
def coldStart (p : Problem) : Iter :=
  let x := if p.dense then [zerosV p.nx] else
    (ixs p.n).foldl (fun xs k => xs ++ [addW (mulMV (zerosV p.nx) (p.st k).a (xs.getD k [])) (p.st k).c]) [p.xhat]
  let u := (ixs p.n).map (fun _ => zerosV p.nu)
  let s := (ixs (p.n + 1)).map (fun k => (subW (p.st k).d (conRow p (zerosV p.nc) x u k)).map (fun v => f64Max v p.sMin))
  { x := x, u := u, s := s, l := s.map (fun v => v.map (f64Div p.mu0)), y := if p.dense then [] else (ixs (p.n + 1)).map (fun _ => zerosV p.nx) }

/-- Shift by one stage, the last copy kept. -/
def shiftL {α : Type} : List α → List α
  | [] => []
  | [a] => [a]
  | _ :: b :: r => b :: r ++ (b :: r).getLast?.toList

/-- x_(k+1) := x_(k+2); x_0 is set afterwards. -/
def shiftX (xs : List FVec) : List FVec :=
  match xs with
  | [] => []
  | x0 :: r => x0 :: shiftL r

/-- A warm initial point from the output vectors (R399). -/
def warmStart (p : Problem) (shift : Bool) (i : Iter) : Iter :=
  let i := if shift ∧ !p.dense then { x := shiftX i.x, u := shiftL i.u, s := shiftL i.s, l := shiftL i.l, y := shiftL i.y } else i
  let low := List.map (List.map (fun v => f64Max v p.sMin))
  { i with x := if p.dense then i.x else p.xhat :: i.x.drop 1, s := low i.s, l := low i.l }

/-- Residuals of an iterate. -/
structure Resid where
  rx : List FVec
  ru : List FVec
  rp : List FVec
  re : List FVec
  mu : Nat

/-- R400; each sum runs in the order in which the rule writes it (log entry 76). -/
def residuals (p : Problem) (i : Iter) : Resid :=
  let x := fun k => i.x.getD k []
  let u := fun k => i.u.getD k []
  let l := fun k => i.l.getD k []
  let y := fun k => i.y.getD k []
  let rx := fun k =>
    let t := p.st k
    let v := mulMV (zerosV p.nx) t.q (x k)
    let v := if k < p.n then mulTV v t.s (u k) else v
    let v := mulTV (addW v t.qv) t.cm (l k)
    let v := if k < p.n then mulTV v t.a (y (k + 1)) else v
    if p.dense then v else subW v (y k)
  let ru := fun k =>
    let t := p.st k
    mulTV (mulTV (addW (mulMV (mulMV (zerosV p.nu) t.w (u k)) t.s (x k)) t.rv) t.dm (l k)) t.b (y (k + 1))
  let re := fun k =>
    if k = 0 then subW (x 0) p.xhat
    else let t := p.st (k - 1); subW (subMV (subMV (x k) t.a (x (k - 1))) t.b (u (k - 1))) t.c
  { rx := (ixs (p.n + 1)).map rx, ru := (ixs p.n).map ru
    rp := (ixs (p.n + 1)).map (fun k => subW (addW (conRow p (zerosV p.nc) i.x i.u k) (i.s.getD k [])) (p.st k).d)
    re := if p.dense then [] else (ixs (p.n + 1)).map re
    mu := if p.m = 0 then 0 else f64Div (dot64 0 i.s.flatten i.l.flatten) (f64Int p.m) }

def Resid.finite (r : Resid) : Bool := finiteVs r.rx && finiteVs r.ru && finiteVs r.rp && finiteVs r.re && f64Finite r.mu

def Resid.normD (r : Resid) : Nat := f64Max (normVs r.rx) (normVs r.ru)

/-- The tests of R406. -/
def testsPass (p : Problem) (r : Resid) : Bool :=
  let bound := fun (eps n : Nat) => f64Mul eps (f64Add f64One n)
  let data := fun (f : Stage → FVec) => normVs (p.stages.map f)
  let c := f64Add (f64Add f64One (normV p.xhat)) (data (·.c))
  f64Le r.normD (bound p.epsD (f64Max (data (·.qv)) (data (·.rv)))) && f64Le (normVs r.rp) (bound p.epsP (data (·.d)))
    && (p.dense || f64Le (normVs r.re) (f64Mul p.epsP c)) && (p.m == 0 || f64Le r.mu p.epsMu)

/-! ### Factorisation and substitution (R402 to R404) -/

/-- An L D Lᵀ factor: row i of L holds its first i elements. -/
structure Ldl where
  l : FMat
  d : FVec
  piv : Nat
  ok : Bool

/-- One column. -/
def ldlCol (a : FMat) (th : Nat) (f : Ldl) (j : Nat) : Ldl :=
  if !f.ok then f else
  let row := f.l.getD j []
  let w := List.zipWith f64Mul row f.d
  let dj := dot64 ((a.getD j []).getD j 0) (negW row) w
  if !f64Finite dj ∨ f64Le dj (f64Neg th) then { f with ok := false }
  else
    let used := f64Le th dj
    let dv := if used then dj else if f64Le 0 dj then th else f64Neg th
    { f with
      l := f.l.zipIdx.map (fun r => if r.2 ≤ j then r.1 else r.1 ++ [f64Div (dot64 ((a.getD r.2 []).getD j 0) (negW r.1) w) dv])
      d := f.d ++ [dv], piv := f.piv + (if used then 0 else 1) }

/-- Factor a symmetric matrix under the threshold of R404. -/
def ldlOf (p : Problem) (a : FMat) : Ldl :=
  let big := a.zipIdx.foldl (fun m r => f64Max m (f64Abs (r.1.getD r.2 0))) 0
  let th := if big = 0 then p.piv else f64Mul p.piv big
  (ixs a.length).foldl (ldlCol a th) { l := a.map (fun _ => []), d := [], piv := 0, ok := true }

/-- Solve L D Lᵀ x = b: forward, scaling, backward. -/
def ldlSolve (f : Ldl) (b : FVec) : FVec :=
  let y := (f.l.zip b).foldl (fun ys r => ys ++ [dot64 r.2 (negW r.1) ys]) []
  let z := List.zipWith f64Div y f.d
  (z.zipIdx.reverse).foldl (fun xs v => dot64 v.1 ((f.l.drop (v.2 + 1)).map (fun r => f64Neg (r.getD v.2 0))) xs :: xs) []

/-- A factored problem: P_k, K_k, m_k and the factors of psi_k; the dense form has one factor. -/
structure Factor where
  ps : List FMat
  ks : List FMat
  ms : List FMat
  fs : List Ldl

def Factor.ok (f : Factor) : Bool := f.fs.all (·.ok) && f.ps.all finiteVs && f.ks.all finiteVs && f.fs.all (fun x => finiteVs x.l && finiteVs [x.d])
def Factor.pivots (f : Factor) : Nat := (f.fs.map (·.piv)).foldl (· + ·) 0

/-- One step of the backward sweep (R402). -/
def sweep (p : Problem) (sg : List FVec) (f : Factor) (k : Nat) : Factor :=
  if !f.fs.all (·.ok) then f else
  let t := p.st k
  let g := sg.getD k []
  let pk := f.ps.headD []
  let qt := addWide (some p.delta) t.q (weighted p.nx p.nx t.cm t.cm g)
  let wt := addWide (some p.delta) t.w (weighted p.nu p.nu t.dm t.dm g)
  let st := addWide none t.s (weighted p.nu p.nx t.dm t.cm g)
  let bp := mulMM ((ixs p.nu).map (fun _ => zerosV p.nx)) (transposeM p.nu t.b) pk
  let ap := mulMM ((ixs p.nx).map (fun _ => zerosV p.nx)) (transposeM p.nx t.a) pk
  let psi := mulMM wt bp t.b
  let mk := mulMM st bp t.a
  let l := ldlOf p psi
  let kk := transposeM p.nu ((transposeM p.nx mk).map (fun c => negW (ldlSolve l c)))
  let pn := symM p.nx (mulMM (mulMM qt ap t.a) (transposeM p.nx mk) kk)
  { ps := pn :: f.ps, ks := kk :: f.ks, ms := mk :: f.ms, fs := l :: f.fs }

/-- The factorisation at the current sigma (R402, R403). -/
def factorAt (p : Problem) (sg : List FVec) : Factor :=
  let t := p.st p.n
  let top := addWide (some p.delta) t.q (weighted p.nx p.nx t.cm t.cm (sg.getD p.n []))
  if p.dense then { ps := [], ks := [], ms := [], fs := [ldlOf p top] }
  else (ixs p.n).reverse.foldl (sweep p sg) { ps := [top], ks := [], ms := [], fs := [] }

/-- The Newton step for a right-hand side v of the constraint rows: dx, du and dy (R402, R403). -/
def newtonStep (p : Problem) (f : Factor) (r : Resid) (v : List FVec) : List FVec × List FVec × List FVec :=
  let vs := v.map (fun a => a.map (fun e => f64Of32 (roundS e)))
  let qt := fun k => mulTV (r.rx.getD k []) (p.st k).cm (vs.getD k [])
  let rt := fun k => mulTV (r.ru.getD k []) (p.st k).dm (vs.getD k [])
  if p.dense then ([ldlSolve (f.fs.headD { l := [], d := [], piv := 0, ok := true }) (negW (qt 0))], [], [])
  else
    let e := fun k => r.re.getD k []
    -- p_k and f_k, from stage N down
    let back := (ixs p.n).reverse.foldl (fun (a : List FVec × List FVec) k =>
      let t := p.st k
      let w := subMV (a.1.headD []) (f.ps.getD (k + 1) []) (e (k + 1))
      let l := f.fs.getD k { l := [], d := [], piv := 0, ok := true }
      let fk := negW (ldlSolve l (mulTV (rt k) t.b w))
      (mulTV (mulTV (qt k) t.a w) (f.ms.getD k []) fk :: a.1, fk :: a.2)) ([qt p.n], [])
    let fwd := (ixs p.n).foldl (fun (a : List FVec × List FVec) k =>
      let t := p.st k
      let dx := a.1.getD k []
      let du := addW (mulMV (zerosV p.nu) (f.ks.getD k []) dx) (back.2.getD k [])
      (a.1 ++ [subW (mulMV (mulMV (zerosV p.nx) t.a dx) t.b du) (e (k + 1))], a.2 ++ [du])) ([negW (e 0)], [])
    (fwd.1, fwd.2, (ixs (p.n + 1)).map (fun k => addW (mulMV (zerosV p.nx) (f.ps.getD k []) (fwd.1.getD k [])) (back.1.getD k [])))

/-! ### The iteration (R401) -/

/-- A full step for a right-hand side rc. -/
def substituteAt (p : Problem) (f : Factor) (i : Iter) (r : Resid) (rc : List FVec) : Iter :=
  let z3 := fun (g : Nat → Nat → Nat → Nat) (a b c : FVec) => List.zipWith (fun u v => g u v.1 v.2) a (b.zip c)
  let k3 := fun (g : Nat → Nat → Nat → Nat) (a b c : List FVec) => List.zipWith (fun u v => z3 g u v.1 v.2) a (b.zip c)
  let sg := List.zipWith (List.zipWith f64Div) i.l i.s
  let ratio := List.zipWith (List.zipWith f64Div) rc i.s
  let v := k3 (fun a b c => f64Fma a b (f64Neg c)) sg r.rp ratio
  let d := newtonStep p f r v
  let ds := (ixs (p.n + 1)).map (fun k => negW (conRow p (r.rp.getD k []) d.1 d.2.1 k))
  let num := k3 (fun a b c => f64Neg (f64Fma a b c)) i.l ds rc
  { x := d.1, u := d.2.1, s := ds, l := List.zipWith (List.zipWith f64Div) num i.s, y := d.2.2 }

/-- step(tau). -/
def stepLen (tau : Nat) (i dir : Iter) : Nat :=
  let one := fun (v d : List FVec) => (v.flatten.zip d.flatten).foldl (fun m q => if f64Lt q.2 0 then f64Min m (f64Mul tau (f64Div (f64Neg q.1) q.2)) else m) f64One
  f64Min (one i.s dir.s) (one i.l dir.l)

def moveBy (alpha : Nat) (i d : Iter) : Iter :=
  let f := List.zipWith (List.zipWith (fun v e => f64Fma alpha e v))
  { x := f i.x d.x, u := f i.u d.u, s := f i.s d.s, l := f i.l d.l, y := f i.y d.y }

/-- 0.99. -/
def f64Tau : Nat := 0x3FEFAE147AE147AE

/-- One iteration: the next iterate and the pivots replaced; none where a number ends the solve with NUMERIC (R404, R408). -/
def iterate (p : Problem) (i : Iter) (r : Resid) : Option Iter × Nat :=
  let f := factorAt p (List.zipWith (List.zipWith f64Div) i.l i.s)
  if !f.ok then (none, f.pivots) else
  let zip2 := fun (g : Nat → Nat → Nat) => List.zipWith (List.zipWith g)
  let prod := zip2 f64Mul i.s i.l
  let dir : Option (Iter × Nat) :=
    if p.m = 0 then some (substituteAt p f i r (i.s.map (fun v => v.map (fun _ => 0))), f64One)
    else
      let a := substituteAt p f i r prod
      if !a.finite then none else
      let w := moveBy (stepLen f64One i a) i a
      let q := f64Div (f64Div (dot64 0 w.s.flatten w.l.flatten) (f64Int p.m)) r.mu
      let sg := f64Min f64One (f64Mul (f64Mul q q) q)
      if !f64Finite sg then none else
      let rc := zip2 (fun b c => f64Fma (f64Neg sg) r.mu (f64Add b c)) (List.zipWith (List.zipWith (fun a _ => a)) prod prod) (zip2 f64Mul a.s a.l)
      let c := substituteAt p f i r rc
      some (c, stepLen f64Tau i c)
  match dir with
  | none => (none, f.pivots)
  | some (d, alpha) =>
    let n := moveBy alpha i d
    (if d.finite && f64Finite alpha && n.finite then some n else none, f.pivots)

/-- Where the iteration stands: outcome (none while it runs), iterate, updates, pivots. -/
structure Solved where
  st : Option Nat
  it : Iter
  j : Nat
  piv : Nat

/-- Run at most `fuel` updates; a limit that is no outcome of its own leaves the outcome open. -/
def solveGo (p : Problem) (limit : Nat) : Nat → Solved → Solved
  | fuel, r =>
    let e := residuals p r.it
    if !e.finite then { r with st := some stNumeric }
    else if testsPass p e then { r with st := some stOk }
    else if r.j = limit then { r with st := some stIterLimit }
    else
      match fuel with
      | 0 => r
      | fuel + 1 =>
        match iterate p r.it e with
        | (none, n) => { r with st := some stNumeric, piv := r.piv + n }
        | (some i, n) => solveGo p limit fuel { r with it := i, j := r.j + 1, piv := r.piv + n }

/-! ### Areas (R409) -/

/-- Vectors of an area, in order. -/
def areaVecs (p : Problem) (i : Iter) : List FVec :=
  let all := List.flatten
  if p.dense then [all i.x, all i.l, all i.s] else [all i.u, all i.x, all i.l, all i.s, all i.y]

def vecBytes64 (v : FVec) : List Byte :=
  let bs := v.flatMap (fun e => leBytes 4 (convF fp32 .saturate none (decodeF fp64 e)).1)
  bs ++ List.replicate (pad64 bs.length - bs.length) 0

/-- Objective of an iterate (R391, R392). -/
def objective (p : Problem) (i : Iter) : Nat :=
  (ixs (p.n + 1)).foldl (fun a k =>
    let t := p.st k
    let x := i.x.getD k []
    let u := i.u.getD k []
    let q := f64Mul f64Half (dot64 0 x (mulMV (zerosV p.nx) t.q x))
    if p.n ≤ k then f64Add a (f64Add q (dot64 0 t.qv x))
    else
      let sx := dot64 0 u (mulMV (zerosV p.nu) t.s x)
      let w := f64Mul f64Half (dot64 0 u (mulMV (zerosV p.nu) t.w u))
      f64Add a (f64Add (f64Add (f64Add (f64Add q sx) w) (dot64 0 t.qv x)) (dot64 0 t.rv u))) 0

/-- The header of an area. -/
def areaHeader (st bits j form piv start end_ epoch mu rp rd obj : Nat) : List Byte :=
  leBytes 1 st ++ leBytes 1 bits ++ leBytes 1 j ++ leBytes 1 form ++ leBytes 4 (min piv (2 ^ 32 - 1)) ++ leBytes 8 start ++ leBytes 8 end_
    ++ leBytes 8 epoch ++ leBytes 8 mu ++ leBytes 8 rp ++ leBytes 8 rd ++ leBytes 8 obj

/-! ### Units and commands -/

def solverOf (s : State) (c : Nat) : SolveUnit := Tbl.at SolveUnit.reset s.slv.units c
def setSolver (s : State) (c : Nat) (x : SolveUnit) : State := { s with slv.units := s.slv.units.put c x }

/-- Requester of a solve. -/
def solverWho (s : State) (d : Desc) (c : Nat) : Who :=
  { did := d.did, guarded := workGuarded d, kind := 3, index := c, flows := callFlows s d, src := some d.src }

/-- Units that may take a waiting solve now. -/
def solversFree (s : State) (j : Job) : List Nat :=
  (List.range 6).filter (fun c => (solverOf s c).job.isNone && j.on_.all (· == c) && unitReady s (solverUnit c) (workGuarded j.desc) (workEpoch s j.desc))

/-- What R70 checks of SlvSolve. -/
def infoSlvSolve (s : State) (d : Desc) : OpInfo :=
  { fields := [(16, 0, 6), (17, 0, 3), (18, 0, 7), (19, 0, 7), (20, 0, 5), (21, 0, 4), (22, 0, 7), (24, 0, 9), (26, 0, 11), (28, 0, 16), (32, 0, 20), (40, 0, 48), (48, 0, 48), (56, 0, 48)], cls := unitClass s d }

/-- SLV_SOLVE: checks of R396 to R398, then the solve waits for a unit (R390). -/
def execSlvSolve (d : Desc) (s : State) : Host.Outcome State Fault Refusal :=
  .next (runDesc s d (infoSlvSolve s d) fun s =>
    let core := namedCore d (dfld d 17 0 3)
    let t := dfld d 32 0 20
    let dl := dbit d 16 4
    if core.any (fun c => decide (6 < c)) ∨ 64 < dfld d 18 0 7 ∨ 64 < dfld d 22 0 7 ∨ 1024 < dfld d 26 0 11 ∨ 1000000 < t ∨ dfld d 40 0 6 ≠ 0 ∨ dfld d 48 0 6 ≠ 0 ∨ (dbit d 16 5 ∧ dfld d 56 0 6 ≠ 0)
        ∨ (dl ∧ callFlow s d = none) ∨ (workGuarded d ∧ t = 0 ∧ !dl) then failWith s stDescInvalid
    else if core.any (fun c => !inService s (solverUnit c)) then failWith s stIsolated
    else .later { s with slv.waiting := s.slv.waiting ++ [{ desc := d, on_ := core, start := s.up, first := 0, count := 0, pend := none }] })

/-- The deadline of a solve that starts now (R398). -/
def solveDeadline (s : State) (d : Desc) : Option Nat :=
  let rel := if dfld d 32 0 20 = 0 then none else some (s.now + 1000 * dfld d 32 0 20)
  let ep := if dbit d 16 4 then
      (callFlow s d).bind (fun x => (epochOf s x.1 x.2.1).map (fun e => e.deadlineAt s - 1000 * dfld d 28 0 16))
    else none
  match rel, ep with
  | some a, some b => some (min a b)
  | some a, none => some a
  | none, b => b

/-- Split a flat vector into `k` parts of `n`. -/
def partsOf (k n : Nat) (v : FVec) : List FVec := (List.range k).map (fun i => (v.drop (i * n)).take n)

/-- The iterate in an output area (R399, R409). -/
def areaIter (p : Problem) (bs : List Byte) : Iter :=
  let part := fun (o k n : Nat) => partsOf k n (imageVec bs o (k * n))
  let z := fun (k n : Nat) => pad64 (4 * k * n)
  let n1 := p.n + 1
  if p.dense then
    let ol := 64 + z 1 p.nx
    { x := part 64 1 p.nx, u := [], l := part ol 1 p.nc, s := part (ol + z 1 p.nc) 1 p.nc, y := [] }
  else
    let ox := 64 + z p.n p.nu
    let ol := ox + z n1 p.nx
    let os := ol + z n1 p.nc
    { u := part 64 p.n p.nu, x := part ox n1 p.nx, l := part ol n1 p.nc, s := part os n1 p.nc, y := part (os + z n1 p.nc) n1 p.nx }

/-- Bytes of an area. -/
def areaBytes (p : Problem) : Nat :=
  let z := fun (k n : Nat) => pad64 (4 * k * n)
  let n1 := p.n + 1
  if p.dense then 64 + z 1 p.nx + 2 * z 1 p.nc else 64 + z p.n p.nu + 2 * z n1 p.nx + 2 * z n1 p.nc

/-- A record about a solver unit. -/
def solverReport (s : State) (d : Desc) (c st : Nat) : Report :=
  { reportOf s (sevOf (workGuarded d)) 3 c st with status := st, guarded := workGuarded d, did := d.did, flows := callFlows s d, epoch := callEpoch s d }

/-- A solve completes: counters, error record, completion record (R396, R410, R411, R413). -/
def endSolve (s : State) (c : Nat) (j : Job) (start st iters piv : Nat) : State :=
  let d := j.desc
  let x := solverOf s c
  let ns := s.now - start
  let us := min (ns / 1000) 65535
  let on := fun (k n : Nat) => if st = k then satAdd 8 n 1 else n
  let s := setSolver s c { x with
    job := none, run := none, checkFail := x.checkFail || st == stMismatch, lastStatus := st, lastIter := iters, solves := satAdd 32 x.solves 1
    misses := on stDeadlineMiss x.misses, numerics := on stNumeric x.numerics, limits := on stIterLimit x.limits, checks := on stMismatch x.checks
    pivots := satAdd 32 x.pivots piv, maxUs := max x.maxUs us, lastUs := us }
  let s := if [stDeadlineMiss, stNumeric, stIterLimit, stMismatch, stInternal].contains st then raise s (solverReport s d c st) else s
  fwDone (finishDesc s d st (iters + min piv (2 ^ 32 - 1) * 2 ^ 32) (min ns (2 ^ 32 - 1)) 0) d (142 + c)

/-- Epoch index of the issuing work; 0 for work of no epoch. -/
def solveEpoch (s : State) (d : Desc) : Nat := ((callFlow s d).map (·.2.1)).getD 0

/-- Write an output header alone, with valid clear (R409). `q`: mu, norms and objective of the iterate. -/
def writeHeaderOnly (s : State) (d : Desc) (c st bits j piv start : Nat) (q : Nat × Nat × Nat × Nat) : State :=
  (devWrite s (solverWho s d c) (dfld d 48 0 48) (areaHeader st (bits % 16 &&& 12) j (dfld d 16 0 1) piv start s.now (solveEpoch s d) q.1 q.2.1 q.2.2.1 q.2.2.2)).2

/-- Four free values for a header without an iterate. -/
def freeQuad (s : State) : (Nat × Nat × Nat × Nat) × State :=
  let f := fun i => (Config.freeWord (s.fresh + i)).toNat
  ((f 0, f 1, f 2, f 3), { s with fresh := s.fresh + 4 })

/-- A solve that ends before it has an iterate. -/
def failSolve (s : State) (c : Nat) (j : Job) (start st : Nat) : State :=
  let q := freeQuad s
  endSolve (writeHeaderOnly q.2 j.desc c st 0 0 0 start q.1) c j start st 0 0

/-- Keys of the bytes of a solve's output and diagnostic areas (R409). -/
def areaKeys (s : State) (d : Desc) (c : Nat) : List Nat :=
  let n := areaBytes (problemOf d [])
  let at_ := fun (base : Nat) => (List.range n).filterMap (fun i => dramKey s (solverWho s d c).did (workGuarded d) (base + i) true)
  at_ (dfld d 48 0 48) ++ (if dbit d 16 5 then at_ (dfld d 56 0 48) else [])

/-- The bytes that a starting solve's areas share with those of a running one end undefined (R409). -/
def noteMixed (s : State) (c : Nat) : State :=
  match (solverOf s c).job with
  | none => s
  | some j =>
    let mine := areaKeys s j.desc c
    (List.range 6).foldl (fun s u =>
      match (solverOf s u).job, (solverOf s u).run with
      | some k, some _ =>
        if u = c then s else
        let both := (areaKeys s k.desc u).filter mine.contains
        let add := fun (s : State) (v : Nat) => setSolver s v { solverOf s v with run := (solverOf s v).run.map (fun r => { r with mixed := r.mixed ++ both }) }
        add (add s u) c
      | _, _ => s) s

/-- SOLVE_START: the first waiting solve in R136's order that has a free unit starts on the lowest such unit; deadline, image
and initial point are taken (R390, R395, R398, R399). Whether the sizes of a warm area match is free: its header holds none. -/
def execSolveStart (s : State) : Host.Outcome State Fault Refusal :=
  match leastBy (fun (j : Job) => workKey s j.desc) (s.slv.waiting.filter (fun j => !(solversFree s j).isEmpty)) with
  | none => .next s
  | some j =>
    let c := (solversFree s j).headD 0
    let d := j.desc
    let g := workGuarded d
    let s := startOn { s with slv.waiting := s.slv.waiting.erase j } (solverUnit c) g (workEpoch s d) (callFlows s d)
    let s := setSolver s c { solverOf s c with job := some { j with start := s.up }, run := none, cls := g, streamed := solveStreamed d }
    let start := s.now
    let dl := solveDeadline s d
    let w := solverWho s d c
    if dl.any (fun t => decide (t ≤ start)) then .next (failSolve s c j start stDeadlineMiss)
    else
      let r := devRead s w (dfld d 40 0 48) (imageBytes d)
      if r.1 ≠ stOk then .next (failSolve r.2.2 c j start r.1)
      else if !imageHeaderOk d r.2.1 then .next (failSolve r.2.2 c j start stDescInvalid)
      else
        let p := problemOf d r.2.1
        let a := if dbit d 16 1 then devRead r.2.2 w (dfld d 48 0 48) (areaBytes p) else (stOk, [], r.2.2)
        if a.1 ≠ stOk then .next (failSolve a.2.2 c j start a.1)
        else
          let match_ : Bool := dbit d 16 1 && ((a.2.1.getD 1 0).toNat).testBit 0 && (a.2.1.getD 3 0).toNat == dfld d 16 0 1 && (Config.freeWord a.2.2.fresh).getLsbD 0
          let i := if match_ then warmStart p (dbit d 16 2) (areaIter p a.2.1) else coldStart p
          let s := if dbit d 16 1 then tickFresh a.2.2 else a.2.2
          .next (noteMixed (setSolver s c { solverOf s c with run := some { start := start, deadline := dl, warm := match_, image := r.2.1, x := i.x, u := i.u, s := i.s, l := i.l, y := i.y, mixed := [] } }) c)

/-- The image that a solve computes with: the copy of a resident solve; a streamed one's, free where it was changed (R395). -/
def solveImage (s : State) (d : Desc) (c : Nat) (r : SolveRun) : Nat × List Byte × State :=
  if solveStreamed d then
    let a := devRead s (solverWho s d c) (dfld d 40 0 48) (imageBytes d)
    if a.1 ≠ stOk then (a.1, r.image, a.2.2)
    else if a.2.1 = r.image then (stOk, r.image, a.2.2)
    else (stOk, r.image.take 64 ++ (List.range (r.image.length - 64)).map (Config.freeByte a.2.2.fresh), tickFresh a.2.2)
  else (stOk, r.image, s)

/-- Numbers of an iterate for a header: mu, norms of rp and rd, objective. -/
def headerQuad (p : Problem) (i : Iter) : Nat × Nat × Nat × Nat :=
  let e := residuals p i
  (e.mu, normVs e.rp, e.normD, objective p i)

/-- End a running solve (R401, R407 to R411). `miss`: D is reached with `after` updates applied; `fault`: 0 none, 2 an
uncorrectable error in the solver area, 3 a disagreement of checked paths, each after `after` updates. -/
def settleSolve (s : State) (c fault after : Nat) (miss : Bool) : State :=
  match (solverOf s c).job, (solverOf s c).run with
  | some j, some r =>
    let d := j.desc
    let m := solveImage s d c r
    let s := m.2.2
    let p := problemOf d m.2.1
    let bad := fault == 3 && workGuarded d
    let cut : Bool := bad || fault == 2 || miss
    let limit := if dfld d 18 0 7 = 0 then 64 else dfld d 18 0 7
    let z := solveGo p limit (if cut then min after limit else limit) { st := none, it := { x := r.x, u := r.u, s := r.s, l := r.l, y := r.y }, j := 0, piv := 0 }
    let st := if bad then stMismatch else if fault = 2 then stInternal else if miss then stDeadlineMiss else if m.1 ≠ stOk then m.1 else z.st.getD stIterLimit
    let w := solverWho s d c
    let q := headerQuad p z.it
    let flags := (if r.warm then 4 else 0) + (if z.piv = 0 then 0 else 8)
    let form := dfld d 16 0 1
    let area := fun (bits : Nat) => areaHeader st (bits + flags) z.j form z.piv r.start s.now (solveEpoch s d) q.1 q.2.1 q.2.2.1 q.2.2.2 ++ (areaVecs p z.it).flatMap vecBytes64
    let mix := fun (s : State) => if r.mixed.isEmpty then s else scribble s r.mixed
    if st = stMismatch then endSolve s c j r.start st z.j z.piv
    else if st = stOk then
      let o := devWrite s w (dfld d 48 0 48) (area 1)
      endSolve (mix o.2) c j r.start o.1 z.j z.piv
    else
      let s := writeHeaderOnly s d c st flags z.j z.piv r.start q
      let diag : Bool := dbit d 16 5 && [stDeadlineMiss, stIterLimit, stNumeric].contains st
      let s := if diag then (devWrite s w (dfld d 56 0 48) (area 2)).2 else s
      endSolve (mix s) c j r.start st z.j z.piv
  | _, _ => s

/-- SOLVE_OUTCOME: a running solve's outcome arises; at or after D it is DEADLINE_MISS, with `after` updates applied by then (R407). -/
def execSolveOutcome (core fault after : Nat) (s : State) : Host.Outcome State Fault Refusal :=
  let miss := (solverOf s core).run.any (fun r => r.deadline.any (fun t => decide (t ≤ s.now)))
  .next (settleSolve s core fault after miss)

/-- SOLVE_DEADLINE: the time reaches D of a running solve, with `after` updates applied by then (R407). -/
def execSolveDeadline (core after : Nat) (s : State) : Host.Outcome State Fault Refusal :=
  match ((solverOf s core).run).bind (·.deadline) with
  | some t => .next (settleSolve (advanceTo s t) core 0 after true)
  | none => .next s

end Sys2Proof.Machine
end

