-- ==== Sys2Proof/Machine/Isolate.lean ====
section
/-! DEFINITION. The island's records, and taking a unit out of service (spec/19_safety_concept.md R462 to R465, spec/20_safety_mechanisms.md R487 to R490). -/

namespace Sys2Proof.Machine

/-! ### Records (R463 to R465) -/

/-- A report merges into the newest record (R465). -/
def mergesInto (x : ErrRec) (r : Report) : Bool :=
  decide (r.severity ≤ sevWarn) && x.report.severity == r.severity && x.report.event == r.event && x.report.kind == r.kind
    && x.report.index == r.index && x.report.flows.head? == r.flows.head? && (decide (1 < x.report.flows.length) == decide (1 < r.flows.length))
    && decide (r.time ≤ x.report.time + 1000000) && decide (x.repeats < 255)

/-- The newest record of the ring. -/
def newestRec (s : State) : Option ErrRec := if s.safe.next = 0 then none else s.safe.ring.find ((s.safe.next - 1) % 256)

/-- Bytes 12 to 23 of a record as three words (R464). -/
def ErrRec.mid (x : ErrRec) (k : Nat) : Nat :=
  let r := x.report
  if k = 0 then r.severity % 4 + r.kind * 2 ^ 8 + r.index % 65536 * 2 ^ 16
  else if k = 1 then
    r.event % 65536 + r.status % 256 * 2 ^ 16 + (placeB r.guarded 0 + placeB x.merged 1 + placeB x.nested 2 + placeB (!r.flows.isEmpty) 3) * 2 ^ 24
  else r.flows.headD 0 % 4096 + placeB (decide (1 < r.flows.length)) 15 + x.repeats % 256 * 2 ^ 16 + r.did % 16 * 2 ^ 24

/-- Word `k` of a record's 32 bytes (R464). -/
def ErrRec.word (x : ErrRec) (k : Nat) : Nat :=
  if k = 0 then x.report.time % 2 ^ 32
  else if k = 1 then x.report.time / 2 ^ 32 % 2 ^ 32
  else if k = 2 then x.seq
  else if k ≤ 5 then x.mid (k - 3)
  else if k = 6 then x.report.detail % 2 ^ 32
  else x.cause.getD (x.report.detail2 % 2 ^ 32)

/-- Write a report into the ring, or merge it; `cause` is the sequence number of the record it is nested under (R462 to R465). -/
def record (s : State) (r : Report) (cause : Option Nat) : State :=
  match (newestRec s).filter (fun x => mergesInto x r) with
  | some x => { s with safe.ring := s.safe.ring.put ((s.safe.next - 1) % 256) { x with repeats := x.repeats + 1, merged := true } }
  | none =>
    let x : ErrRec := { report := r, seq := s.safe.next % 2 ^ 32, repeats := 1, merged := false, nested := r.nested || cause.isSome, cause := cause.or r.cause }
    trace { s with safe.ring := s.safe.ring.put (s.safe.next % 256) x, safe.next := s.safe.next + 1 } 1 r.kind r.index (x.mid 1)

/-- Sequence number of the newest record. -/
def lastSeq (s : State) : Nat := s.safe.next - 1

/-! ### Units (R487) -/

/-- The unit that a record's source names. -/
def unitOfSource (kind index : Nat) : Option Nat :=
  if kind = 1 then some index else if kind = 2 then some (pipeUnit index) else if kind = 3 then some (solverUnit index)
  else if kind = 4 ∧ index / 256 = 0x0E then some (layoutUnit (index % 256)) else none

/-- A report about a unit. -/
def unitReport (s : State) (severity u event : Nat) : Report :=
  if u < 72 then reportOf s severity 1 u event
  else if u < 78 then reportOf s severity 2 (u - 72) event
  else if u < 84 then reportOf s severity 3 (u - 78) event
  else reportOf s severity 4 (0x0E00 + (u - 84)) event

/-! ### Work of a unit that goes out of service (R488, R489) -/

/-- Stop a thread at the wrapper: nothing it held leaves, and its waits and unreleased signals end (R488). -/
def wrapThread (s : State) (t : Nat) : State := updThread (stopThread s t) t (fun x => { x with signals := [], calls := [] })

/-- An engine's instances end with UNIT_ISOLATED, but one that ended with CHECK_MISMATCH; its kept places end (R489). -/
def isolateEngine (s : State) (g : Nat) : State :=
  let on := s.eng.instances.filter (fun p => p.2.engine == g)
  let s := (on.filter (fun p => p.2.active)).foldl (fun s p =>
    let st := if p.2.status = stMismatch then stMismatch else stIsolated
    let s := { s with eng.instances := s.eng.instances.put p.1 { p.2 with status := st, kept := none } }
    (p.2.threads.filter (fun t => (thread s t).inst == some p.1)).foldl wrapThread s) s
  let s := { s with eng.instances := s.eng.instances.filter (fun p => !(p.2.engine == g && !p.2.active)) }
  setEngine s g { engineOf s g with copies := [] }

/-- Jobs that name a unit complete with UNIT_ISOLATED. -/
def endNamed (s : State) (js : List Job) : State := together s fun s => js.foldl (fun s j => finishDesc s j.desc stIsolated 0 0 0) s

/-- A pipeline's work ends or goes to another pipeline (R489). -/
def isolatePipe (s : State) (c : Nat) : State :=
  let run := (pipeOf s c).job
  let all := run.toList ++ s.seq.waiting
  let mine := all.filter (fun j => j.on_ == some c)
  let s := setPipe { s with seq.waiting := all.filter (fun j => j.on_ != some c) } c { pipeOf s c with job := none }
  let s := retryBlocked (endNamed s mine)
  startPipes s.seq.waiting.length s

/-- A solver's work ends or goes to another solver (R408, R489). -/
def isolateSolver (s : State) (c : Nat) : State :=
  let run := (solverOf s c).job
  let all := run.toList ++ s.slv.waiting
  let mine := all.filter (fun j => j.on_ == some c)
  endNamed (setSolver { s with slv.waiting := all.filter (fun j => j.on_ != some c) } c { solverOf s c with job := none, run := none }) mine

/-- A layout engine's work ends or goes to another one (R489). -/
def isolateLayout (s : State) (i : Nat) : State :=
  let run := (lytOf s i).job
  let all := run.toList ++ s.lyt.waiting
  let mine := all.filter (fun j => j.on_ == some i)
  let s := endNamed (setLyt { s with lyt.waiting := all.filter (fun j => j.on_ != some i) } i { lytOf s i with job := none }) mine
  startLyt s.lyt.waiting.length s

/-- The wrapper of a unit acts (R488, R489). -/
def isolateUnit (s : State) (u : Nat) : State :=
  together s fun s =>
  if u < 72 then isolateEngine s u
  else if u < 78 then isolatePipe s (u - 72)
  else if u < 84 then isolateSolver s (u - 78)
  else isolateLayout s (u - 84)

/-! ### Out of service (R487, R489, R490) -/

/-- readmit_max: 3 without an image (R490). -/
def readmitMax (s : State) : Nat := (s.sec.image.map (·.readmitMax)).getD 3

/-- Causes of SFI_UNIT_STATE. -/
def causePair : Nat := 1
def causeGolden : Nat := 2
def causeSelftest : Nat := 3
def causeIsolate : Nat := 4
def causeFenced : Nat := 5

/-- A second cause in the same cycle is recorded where it comes earlier in the order of R489; a command alone starts no readmission. -/
def earlierCause (s : State) (u : Nat) (x : UnitSafe) (cause : Nat) : State :=
  if x.outAt.head? ≠ some s.up ∨ x.cause ≤ cause then s
  else
    let blocked := decide (readmitMax s < x.outAt.length)
    setUnit s u { x with cause := cause, blocked := blocked, step := if x.cause = causeIsolate ∧ !blocked ∧ !x.startup then 1 else x.step }

/-- Take a unit out of service; readmission starts at once unless R490 or a failed start-up (R493) forbids it. -/
def takeOut (s : State) (u cause : Nat) : State :=
  let x := unitSafe s u
  if x.service = 2 then earlierCause s u x cause else
  let outAt := s.up :: x.outAt.filter (fun t => decide (s.up ≤ t + 3600000000000))
  let blocked := cause != causeIsolate && decide (readmitMax s < outAt.length)
  let y : UnitSafe := { x with
    service := 2, cause := cause, outs := satAdd 8 x.outs 1, outAt := outAt, blocked := blocked, test := .none
    step := if cause = causeIsolate ∨ blocked ∨ x.startup then 0 else 1 }
  isolateUnit (setUnit s u y) u

/-- The record UNIT_OUT_OF_SERVICE (R489); that of an isolate command follows no record (its nested flag stays clear). -/
def recordOut (s : State) (u : Nat) (cause : Option Nat) : State :=
  record s (unitReport s sevWarn u 0x0134) cause

end Sys2Proof.Machine
end

