-- ==== Sys2Proof/Machine/Safety.lean ====
section
/-! DEFINITION. The safety island: error intake, doubts, latches, escalation, verdicts and recipes, safe-state commands (spec/19_safety_concept.md). -/

namespace Sys2Proof.Machine

/-! ### Image values -/

/-- recovery_ms in ns (R441). -/
def recoveryNs (s : State) (f : Nat) : Nat :=
  let m := ((imageFlow s f).map (·.recoveryMs)).getD 0
  (if m = 0 then 500 else m) * 1000000

/-- mismatch_epochs (R456). -/
def mismatchEpochs (s : State) : Nat :=
  let m := (s.sec.image.map (·.mismatchEpochs)).getD 0
  if m = 0 then 1000 else m

/-! ### Intake (R461) -/

/-- ERROR_REPORT_RAISE: a report of a unit. -/
def execErrorReportRaise (severity kind index event status : Nat) (guarded : Bool) (flows : List Nat) (did detail detail2 : Nat) (epoch : Option Nat) (s : State) :
    Host.Outcome State Fault Refusal :=
  .next (raise s { reportOf s (severity % 4) kind index event with
    status := status, guarded := guarded, flows := flows, did := did, detail := detail, detail2 := detail2, epoch := epoch })

/-! ### Doubts and latches (R445, R446) -/

/-- The epoch on which a doubt on a flow falls: the report's, else the latest whose work the flow has begun. -/
def doubtEpoch (s : State) (f : Nat) (e : Option Nat) : Nat :=
  match e with
  | some n => n
  | none =>
    match (s.epochs.filter (fun x => x.closed && (x.flowRun f).isSome)).getLast? with
    | some x => x.epoch
    | none => ((histOf s f).latest.map (·.epoch)).getD 0

/-- FAIL is fixed for a flow's epoch that has no record yet, by the record of a doubt or by another condition (R442). -/
def fixFail (s : State) (f n : Nat) (doubt : Option Nat) : State :=
  match (s.cfg.flows.find f).map (·.cadence) with
  | some c => updFlow s c n f (fun r =>
      if r.guarded then
        { r with doubted := r.doubted || doubt.isSome, failAt := if r.written then r.failAt else some (r.failAt.getD s.now)
                 failSeq := if r.failAt.isSome then r.failSeq else doubt }
      else r)
  | none => s

/-- One DOUBT record, number `seq` and raised at `t`, is on a guarded flow for an epoch. -/
def applyDoubt (seq t : Nat) (s : State) (f n : Nat) : State :=
  let x := flowSafe s f
  let s := fixFail s f n (some seq)
  if x.doubts.any (fun d => d.1 == n) then s
  else
    let latch : Bool := !x.latched && x.doubts.head?.any (fun d => decide (t < d.2 + recoveryNs s f))
    let s := setFlowSafe s f { x with
      doubts := (n, t) :: x.doubts, count := satAdd 8 x.count 1, latched := x.latched || latch, clearing := x.clearing && !latch }
    if latch then record s { reportOf s sevWarn 6 f 0x0121 with guarded := true, flows := [f] } (some seq) else s

/-- A flow is guarded. -/
def isGuardedFlow (s : State) (f : Nat) : Bool := (s.cfg.flows.find f).any (·.guarded)

/-! ### Escalation (R456 to R460, R462) -/

/-- Cause code of SFI_FATAL for an event (R469). -/
def fatalCause (event : Nat) : Nat :=
  if event = 0x0140 then 1 else if event = 0x0141 then 4 else if event = 0x0142 then 3 else if event = 0x0143 then 5 else if event = 0x0145 then 6 else 7

/-- A FATAL is held: every guarded verdict still to come fails, both channels de-energise, pending guarded messages are discarded
(R460, R462, R571). -/
def holdFatal (s : State) (cause seq : Nat) : State :=
  if s.safe.fatal.isSome then s else
  let s := { s with safe.fatal := some (cause, seq), safe.fatalAt := s.up }
  let s := s.epochs.foldl (fun s e => e.flows.foldl (fun s r => if r.guarded ∧ !r.written then fixFail s r.flow e.epoch none else s) s) s
  driveSafe { s with eth.pending := s.eth.pending.filter (fun m => !m.2.guarded) }

/-- A disagreement of a unit in guarded work (R456): a pair within mismatch_epochs takes the unit out of service. -/
def mismatchOn (s : State) (u seq : Nat) (r : Report) : State :=
  let x := unitSafe s u
  let period := match (r.flows.head?).bind (fun f => s.cfg.flows.find f) with
    | some f => (cadOf s f.cadence).period
    | none => 0
  if x.t1.any (fun t1 => decide (0 < period ∧ r.time ≤ t1 + mismatchEpochs s * period)) then recordOut (takeOut s u causePair) u (some seq)
  else setUnit s u { x with t1 := some r.time }

/-- What a DOUBT about a unit does (R456, R457, R459, R462, R492). -/
def doubtUnit (s : State) (seq : Nat) (r : Report) : State :=
  match unitOfSource r.kind r.index with
  | none => s
  | some u =>
    if r.event = 0x0131 ∨ r.event = 0x0132 then
      recordOut (if (unitSafe s u).service = 0 then takeOut s u (if r.event = 0x0131 then causeGolden else causeSelftest) else s) u (some seq)
    else if (unitSafe s u).service = 1 then recordOut (takeOut s u causeFenced) u (some seq)
    else if r.event = stMismatch ∧ r.guarded ∧ (unitSafe s u).service = 0 then mismatchOn s u seq r
    else s

/-- A DOUBT: its flows, then its unit. -/
def handleDoubt (s : State) (seq : Nat) (r : Report) : State :=
  let s := (r.flows.filter (isGuardedFlow s)).foldl (fun s f => applyDoubt seq r.time s f (doubtEpoch s f r.epoch)) s
  driveSafe (doubtUnit s seq r)

/-- Guarded flows with an epoch in processing. -/
def guardedNow (s : State) : List Nat :=
  ((s.epochs.filter (·.closed)).flatMap (fun e => (e.flows.filter (fun r => r.guarded && !r.written)).map (·.flow))).eraseDups

/-- ERROR_INTAKE_OVERFLOW stands in for every report lost (R459, R461). -/
def handleOverflow (s : State) : State :=
  let fatal := s.safe.overflowFatal
  let flows := guardedNow s
  let r := { reportOf s (if fatal then sevFatal else sevDoubt) 15 0 0x0144 with guarded := true, flows := flows }
  let s := record { s with safe.overflow := false, safe.overflowFatal := false, safe.lostOverflow := satAdd 16 s.safe.lostOverflow 1 } r none
  let seq := lastSeq s
  actingOn (some seq) s (fun s => if fatal then holdFatal (handleDoubt s seq r) 8 seq else handleDoubt s seq r)

/-- A disagreement in guarded work concerns every guarded flow whose work of that epoch used the unit (R445, R456). -/
def widenReport (s : State) (r : Report) : Report :=
  match unitOfSource r.kind r.index, (r.flows.head?).bind (fun f => s.cfg.flows.find f), r.epoch with
  | some u, some c, some n =>
    if r.event = stMismatch ∧ r.guarded then
      { r with flows := r.flows ++ (((unitSafe s u).used.filter (fun y => y.2 == (c.cadence, n))).map (·.1)).filter (fun f => isGuardedFlow s f && !r.flows.contains f) }
    else r
  | _, _, _ => r

/-- Handle one report (R445, R456, R460, R461); what that raises is nested under its record (R462). -/
def handleReport (s : State) (r : Report) : State :=
  let r := widenReport s r
  let s := record s r none
  let seq := lastSeq s
  if r.severity = sevDoubt then actingOn (some seq) s (fun s => handleDoubt s seq r)
  else if r.severity = sevFatal then actingOn (some seq) s (fun s => holdFatal s (fatalCause r.event) seq)
  else s

/-- ERROR_REPORT_PROCESS: the island takes the next report. -/
def execErrorReportProcess (s : State) : Host.Outcome State Fault Refusal :=
  if !s.safe.running then .next s
  else if s.safe.overflow then .next (handleOverflow s)
  else match s.safe.intake with
    | [] => .next s
    | r :: rest => .next (handleReport (sicSet { s with safe.intake := rest } 0 (!rest.isEmpty)) r)

/-! ### Verdicts (R442, R443) -/

/-- Condition 9: lifecycle SERVICE, debug level below INTRUSIVE, P0 or P1 (R531, R532). -/
def outputPermitted (s : State) : Bool := s.sec.lifecycle == 2 && decide (s.dbg.level ≤ 1) && decide (s.power.pstate ≤ 1)

/-- A doubt on a flow has been raised and waits in the intake, or was lost to an overflow whose record is still to come: it falls on
the flow from its own cycle on (R442, R446, R447, R461). -/
def doubtWaits (s : State) (f : Nat) (n : Option Nat) : Bool :=
  s.safe.overflow || s.safe.intake.any (fun r => r.severity == sevDoubt && (widenReport s r).flows.contains f && n.all (fun n => doubtEpoch s f r.epoch == n))

/-- The verdict is PASS. -/
def verdictPass (s : State) (e : Epoch) (r : FlowRun) : Bool :=
  shadowPass s e r && r.failAt.isNone && !doubtWaits s r.flow (some e.epoch) && !(flowSafe s r.flow).latched && (flowSafe s r.flow).clearedFrom.all (fun n => decide (n ≤ e.epoch)) && s.safe.fatal.isNone && outputPermitted s && decide (s.now ≤ e.deadlineAt s)

/-! ### Recipes (R448 to R452) -/

/-- What a recipe supplies: flags beside FALLBACK, age, earliest contribution, regions and source. -/
structure Supplied where
  flags : Nat
  age : Nat
  old : Option Nat
  regions : List RegionRow
  source : Nat

def slotAt (x : FlowSafety) (n : Nat) : Nat := x.resultBase + n % x.outSlots * x.resultBytes

/-- Requester of a recipe's accesses. -/
def recipeWho (f : Nat) (x : FlowSafety) : Who := { did := x.did, guarded := true, kind := 6, index := f, flows := [f] }

/-- Write FP32 values from byte 0 of the slot and zeros after them (R448). -/
def writeValues (s : State) (e : Epoch) (f : Nat) (x : FlowSafety) (vs : List Nat) : Nat × State :=
  let bs := vs.flatMap (leBytes 4)
  devWrite s (recipeWho f x) (slotAt x e.epoch) (bs ++ List.replicate (x.resultBytes - bs.length) 0)

/-- HOLD (R449, R268). -/
def recipeHold (s : State) (e : Epoch) (f : Nat) (x : FlowSafety) : Option Supplied × State :=
  match (histOf s f).good with
  | none => (none, s)
  | some h =>
    let gap := e.tov s - h.tov
    if x.holdMs * 1000000 < gap then (none, s)
    else
      let done := fun (s : State) => (some { flags := h.flags, age := min (h.age + gap / 1000) 0xFFFFFFFF, old := h.old, regions := h.regions, source := h.source : Supplied }, s)
      match (e.cfg.flows.find f).bind (·.grid) with
      | some g =>
        match e.cfg.grids.find g with
        | some y => match y.out with
          | some o => done (gridHold s e g y o h.source)
          | none => done s
        | none => done s
      | none =>
        let w := recipeWho f x
        let r := devRead s w (slotAt x h.epoch) x.resultBytes
        if r.1 ≠ stOk then (none, r.2.2)
        else
          let z := devWrite r.2.2 w (slotAt x e.epoch) r.2.1
          if z.1 ≠ stOk then (none, z.2) else done z.2

/-- The value of a term and the source time of its tag where it is USED (R450). -/
def linTerm (t : Option EpochTable) (x : LinTerm) : Nat × Option Nat :=
  match (t.bind (fun t => t.tags.find? (fun y => y.tag == x.tag))).filter (fun y => y.disp == .used) with
  | some y => (y.value, some y.source)
  | none => (f64Of32 x.dflt, none)

/-- One output of an estimator: b + Σ w t in FP64, ascending i, clamped, as FP32 (R450; log entry 77). -/
def linOut (ts : List LinTerm) (vs : List Nat) (j : Nat) (o : LinOut) : Nat :=
  let y := (ts.zip vs).foldl (fun a p => f64Add a (f64Mul (f64Of32 (p.1.w.getD j 0)) p.2)) (f64Of32 o.b)
  let y := if f64Lt y (f64Of32 o.lo) then f64Of32 o.lo else if f64Lt (f64Of32 o.hi) y then f64Of32 o.hi else y
  (convF fp32 .arith none (decodeF fp64 y)).1

/-- LINEAR (R450). -/
def recipeLinear (s : State) (e : Epoch) (f : Nat) (x : FlowSafety) : Option Supplied × State :=
  match s.sec.image.bind (fun i => i.linear.find x.index) with
  | none => (none, s)
  | some l =>
    let vs := l.terms.map (linTerm (tableOf s e.cadence e.epoch))
    if l.missMax < (vs.filter (fun v => v.2.isNone)).length then (none, s)
    else
      let old := vs.foldl (fun a v => earlier a v.2) none
      let z := writeValues s e f x (l.outs.zipIdx.map (fun o => linOut l.terms (vs.map (·.1)) o.2 o.1))
      if z.1 ≠ stOk then (none, z.2)
      else (some { flags := 0, age := ageOf (e.tov s) old, old := old, regions := [], source := e.epoch }, z.2)

/-- SAFE_MOVE (R451). -/
def recipeMove (s : State) (e : Epoch) (f : Nat) (x : FlowSafety) : Option Supplied × State :=
  match s.sec.image.bind (fun i => i.moves.find x.index) with
  | none => (none, s)
  | some vs =>
    let z := writeValues s e f x vs
    if z.1 ≠ stOk then (none, z.2) else (some { flags := 0, age := 0, old := none, regions := [], source := e.epoch }, z.2)

/-- What the flow's recipe supplies; nothing under a held FATAL, and nothing but HOLD for a grid flow (R448; log entry 78). -/
def recipeOf (s : State) (e : Epoch) (f : Nat) : Option Supplied × State :=
  match imageFlow s f with
  | none => (none, s)
  | some x =>
    let grid := ((e.cfg.flows.find f).bind (·.grid)).isSome
    if s.safe.fatal.isSome then (none, s)
    else if x.recipe = 0 then recipeHold s e f x
    else if grid ∨ x.outSlots = 0 then (none, s)
    else if x.recipe = 1 then recipeLinear s e f x
    else if x.recipe = 2 then recipeMove s e f x
    else (none, s)

/-- The fallback record of a flow (R448), on account of the record of the doubt that fixed FAIL (R462). -/
def fallbackRecord (s : State) (e : Epoch) (f : Nat) : State := actingOn (((epochOf s e.cadence e.epoch).bind (·.flowRun f)).bind (·.failSeq)) s fun s =>
  let v := recipeOf s e f
  match v.1 with
  | none => noValue v.2 e f
  | some p =>
    let s := v.2
    let x := flowSafe s f
    let s := setFlowSafe s f { x with failing := true, verdict := false, fallbacks := satAdd 16 x.fallbacks 1 }
    let r : FlowResult := { flow := f, epoch := e.epoch, tov := e.tov s, age := p.age, old := p.old, status := stFallback
                            flags := p.flags ||| flagFallback, at_ := s.now, regions := p.regions, source := p.source }
    let s := writeResult s e f r false
    driveSafe (raise s { reportOf s sevInfo 6 f 0x0120 with guarded := true, flows := [f] })

/-- The grid that a flow carries ends its step 9. -/
def gridFree (s : State) (e : Epoch) (f : Nat) : State :=
  match (e.cfg.flows.find f).bind (·.grid) with
  | some g => if (gridOf s g).running.any (fun r => r.1 == e.epoch && r.2.1 == 8) then setGrid s g { gridOf s g with running := none } else s
  | none => s

/-- EMIT after a PASS: the grid output record, then the flow's record (R268, R443); the output's failure gives FAIL. -/
def emitPass (s : State) (e : Epoch) (r : FlowRun) : Option State :=
  let f := r.flow
  let write := fun (s : State) (r : FlowRun) =>
    let x := flowSafe s f
    driveSafe (writeResult (setFlowSafe s f { x with failing := false, verdict := true, shadow := true }) e f (ownResult s e r) true)
  match (e.cfg.flows.find f).bind (·.grid) with
  | none => some (write s r)
  | some g =>
    match (e.cfg.grids.find g).filter (·.enable) with
    | none => some (write s r)
    | some y =>
      let s := match y.out with
        | some o => gridEmit s e g y o
        | none => s
      match (epochOf s e.cadence e.epoch).bind (fun e => e.flowRun f) with
      | some r => if usable r.status then some (write s r) else none
      | none => none

/-- VERDICT_FORMED: the verdict of a guarded flow for an epoch is formed, or FAIL is fixed, and EMIT writes its record (R442, R443). -/
def execVerdictFormed (c n f : Nat) (s : State) : Host.Outcome State Fault Refusal :=
  match epochOf s c n with
  | none => .next s
  | some e =>
    match e.flowRun f with
    | none => .next s
    | some r =>
      if !r.guarded ∨ r.written ∨ (!r.ended ∧ r.failAt.isNone) ∨ (!s.safe.running ∧ s.safe.fatal.isNone) then .next s else
      let shadow := shadowPass s e r
      let s := setFlowSafe s f { flowSafe s f with shadow := shadow }
      let done := fun (s : State) => Host.Outcome.next (releaseEpoch (gridFree s e f) c n)
      match if verdictPass s e r then emitPass s e r else none with
      | some s => done s
      | none => done (fallbackRecord (fixFail s f n none) e f)

/-! ### Safe-state and latch commands (R447, R455) -/

/-- LATCH_CLEAR: DID 1 or 2 writes clear for the flow it selects; a doubt of the same cycle comes first (R447). -/
def execLatchClear (did : Nat) (s : State) : Host.Outcome State Fault Refusal :=
  let f := Tbl.at 0 s.safe.flowSel did
  let x := flowSafe s f
  if did < 1 ∨ 2 < did ∨ !s.safe.running ∨ !x.latched ∨ x.clearing then .next s
  else if x.shadow ∧ x.doubts.head?.all (fun d => decide (d.2 + recoveryNs s f < s.now)) ∧ !doubtWaits s f none then
    .next (raise (setFlowSafe s f { x with clearing := true }) { reportOf s sevInfo 6 f 0x0122 with guarded := true, flows := [f], did := did })
  else .next { s with safe.clearRefused := true }

/-- SAFE_ACK: DID 1 or 2 writes ack bits (R455). -/
def execSafeAck (did bits : Nat) (s : State) : Host.Outcome State Fault Refusal :=
  if did < 1 ∨ 2 < did ∨ !s.safe.running then .next s
  else
    let s := if bits.testBit 0 then ackChannel s 0 else s
    .next (if bits.testBit 1 then ackChannel s 1 else s)

/-! ### The island (R454, R459, R520) -/

/-- ISLAND_HEARTBEAT, every 1 ms. -/
def execIslandHeartbeat (s : State) : Host.Outcome State Fault Refusal :=
  if !s.safe.running ∨ !s.safe.beating then .next s
  else
    let s := advanceUp s (s.safe.beatAt + 1000000)
    .next (sicPulse { s with safe.beatAt := s.up } 1)

/-- The hardware path of R454: a FATAL is held, so both requests clear; the heartbeat stops, and the island no longer runs. -/
def islandStops (s : State) (cause event : Nat) : State :=
  let s := holdFatal (raise s (reportOf s sevFatal 15 0 event)) cause s.safe.next
  { s with safe.running := false, safe.beating := false }

/-- LOCKSTEP_MISMATCH in the island. -/
def execLockstepMismatch (s : State) : Host.Outcome State Fault Refusal :=
  if !s.safe.running then .next s else .next (islandStops s 1 0x0140)

/-- ISLAND_WATCHDOG_EXPIRY; its FATAL has no event code of its own (log entry 79). -/
def execIslandWatchdogExpiry (s : State) : Host.Outcome State Fault Refusal :=
  if !s.safe.running then .next s else .next (islandStops s 2 stInternal)

/-- FIRMWARE_HEARTBEAT: a firmware heartbeat arrives (R459, R497). -/
def execFirmwareHeartbeat (s : State) : Host.Outcome State Fault Refusal :=
  if !s.safe.running then .next s else .next (sicPulse { s with safe.fwBeat := some s.up } 2)

/-- FIRMWARE_SILENT: 10 ms without a firmware heartbeat (R459). -/
def execFirmwareSilent (s : State) : Host.Outcome State Fault Refusal :=
  match s.safe.fwBeat with
  | none => .next s
  | some t =>
    if !s.safe.running then .next s else
    let s := advanceUp s (t + 10000000)
    .next (raise { s with safe.fwBeat := none } (reportOf s sevFatal 15 0 0x0143))

/-- IMAGE_CHECK: whether the digests of the image copy and of the island's own records match (R520). -/
def execImageCheck (copyOk recordsOk : Bool) (s : State) : Host.Outcome State Fault Refusal :=
  if !s.safe.running ∨ s.sec.image.isNone ∨ (copyOk ∧ recordsOk) then .next s
  else .next (raise s (reportOf s sevFatal 15 0 0x0145))

end Sys2Proof.Machine
end

