-- ==== Sys2Proof/Machine/Watch.lean ====
section
/-! DEFINITION. Stage window watchdogs and SRAM scrubbing (spec/20_safety_mechanisms.md R471 to R478). -/

namespace Sys2Proof.Machine

/-! ### Stage windows -/

/-- An enabled window of a cadence and stage (R471). -/
def windowOf (s : State) (c t : Nat) : Option Window := (s.sec.image.bind (fun i => i.windows.find (8 * c + t))).filter (·.enable)

def wdIndex (c t : Nat) : Nat := 8 * c + t
def wdStatus (s : State) (c t : Nat) : WdStatus := Tbl.at WdStatus.reset s.safe.windows (wdIndex c t)

/-- Watched flows of an epoch (R472). -/
def watchedFlows (e : Epoch) : List FlowRun := if e.guardedFlows.isEmpty then e.flows else e.flows.filter (·.guarded)

/-- Bound tasks of a flow in a stage. -/
def stageTasks (e : Epoch) (f t : Nat) : List Nat := (e.tasksOf f).filter (fun h => (e.cfg.tasks.find h).any (fun b => b.body.stage == t))

/-- The flow has work in a stage: a task, or a grid's steps in FUSE. -/
def worksIn (e : Epoch) (t : Nat) (r : FlowRun) : Bool :=
  !(stageTasks e r.flow t).isEmpty || (t == 4 && ((e.cfg.flows.find r.flow).bind (·.grid)).isSome)

/-- A flow's work of a stage has ended. -/
def workDone (e : Epoch) (t : Nat) (r : FlowRun) : Bool :=
  r.gated && (!r.runs || ((stageTasks e r.flow t).all (fun h => (e.tasks.find h).isSome)
    && (t != 4 || match (e.cfg.flows.find r.flow).bind (·.grid) with
      | some g => e.gridsDone.contains g || !((e.cfg.grids.find g).any (·.enable))
      | none => true)))

/-- A waiting frame belongs to a stream of a cadence. -/
def frameOfCadence (s : State) (c : Nat) (x : RxFrame) : Bool :=
  s.cfg.streams.any (fun p => p.2.cadence == c && p.2.source == x.source && p.2.field == x.serial)

/-- The intake has committed or discarded every frame of the cadence's streams that came before close (R472). -/
def intakeEnded (s : State) (e : Epoch) : Bool :=
  let t := e.closeAt s
  e.closed && !s.ing.waiting.any (fun x => decide (x.time < t) && frameOfCadence s e.cadence x)
    && !s.ing.cams.any (fun x => decide (x.ingress < t) && (s.cfg.streams.find x.stream).any (fun y => y.cadence == e.cadence))

/-- The end event of a stage has come (R472); a stage without watched work ends with the one before it. -/
def stageEnded (s : State) (e : Epoch) : Nat → Bool
  | 0 => intakeEnded s e
  | 1 => e.alignEnd.isSome
  | 2 => e.alignEnd.isSome && e.geoEnd.isSome
  | t + 3 =>
    if t = 3 then (watchedFlows e).all (·.written)
    else
      let fs := (watchedFlows e).filter (worksIn e (t + 3))
      if fs.isEmpty then stageEnded s e (t + 2) else fs.all (workDone e (t + 3))

/-- The early test is not applied: no flow with work in the stage runs (R473). -/
def earlyExempt (e : Epoch) (t : Nat) : Bool :=
  let fs := if t = 3 ∨ t = 4 ∨ t = 5 then (watchedFlows e).filter (worksIn e t) else watchedFlows e
  !fs.isEmpty && fs.all (fun r => r.gated && !r.runs)

/-- A stage of an epoch is decided. -/
def decide_ (e : Epoch) (t : Nat) : Epoch := { e with decided := if e.decided.contains t then e.decided else e.decided ++ [t] }

/-- WATCHDOG_WINDOW of a cadence and stage for an epoch (R473, R474, R494, R497). -/
def windowMiss (s : State) (c n t : Nat) : State :=
  let x := wdStatus s c t
  let flows := match epochOf s c n with
    | some e => e.guardedFlows
    | none => (s.cfg.flows.filter (fun p => p.2.guarded && p.2.cadence == c)).map (·.1)
  let s := sicPulse { s with safe.windows := s.safe.windows.put (wdIndex c t) { x with misses := satAdd 16 x.misses 1 } } (16 + 7 * c + t)
  let s := updEpoch s c n (fun e => { decide_ e t with windowMissed := true })
  let s := flows.foldl (fun s f => fixFail s f n none) s
  raise s { reportOf s (sevOf (!flows.isEmpty)) 16 c 0x0130 with guarded := !flows.isEmpty, flows := flows, epoch := some n }

/-- STAGE_END_EVENT: the end event of a stage arrives (R472 to R474). -/
def execStageEndEvent (c n t : Nat) (s : State) : Host.Outcome State Fault Refusal :=
  match epochOf s c n with
  | none => .next s
  | some e =>
    if 7 ≤ t ∨ !e.closed ∨ e.stagesEnded.contains t ∨ !stageEnded s e t then .next s else
    let gap := s.now - e.closeAt s
    let s := updEpoch s c n (fun e => { e with stagesEnded := e.stagesEnded ++ [t] })
    match windowOf s c t with
    | none => .next (releaseEpoch s c n)
    | some w =>
      let s := { s with safe.windows := s.safe.windows.put (wdIndex c t) { wdStatus s c t with lastUs := min (gap / 1000) 65535 } }
      let s :=
        if e.decided.contains t ∨ e.aborted then s
        else if (gap < w.open_ * 1000 ∧ !earlyExempt e t) ∨ w.close * 1000 ≤ gap then windowMiss s c n t
        else sicPulse (updEpoch s c n (fun e => decide_ e t)) (16 + 7 * c + t)
      .next (releaseEpoch s c n)

/-- WATCHDOG_WINDOW_CLOSE: close_us of a stage is reached without its end event (R473, R476). -/
def execWatchdogWindowClose (c n t : Nat) (s : State) : Host.Outcome State Fault Refusal :=
  match epochOf s c n, windowOf s c t with
  | some e, some w =>
    if !e.closed ∨ e.aborted ∨ e.decided.contains t then .next s
    else .next (windowMiss (advanceTo s (e.closeAt s + w.close * 1000)) c n t)
  | _, _ => .next s

/-- INTAKE_CLOSE_TIMEOUT: no next close of a RUNNING cadence within 1.01 periods on the SAFE counter; after its last epoch none is due (R125, R473). -/
def execIntakeCloseTimeout (c : Nat) (s : State) : Host.Outcome State Fault Refusal :=
  let x := cadOf s c
  if x.st ≠ .running ∨ x.nextClose ≤ x.start ∨ x.last.any (fun l => decide (l < x.nextClose)) ∨ (windowOf s c 0).isNone
      ∨ (wdStatus s c 0).gapAt = x.nextClose then .next s
  else
    let s := windowMiss s c (x.nextClose - 1) 0
    .next { s with safe.windows := s.safe.windows.put (wdIndex c 0) { wdStatus s c 0 with gapAt := x.nextClose } }

/-! ### Scrubbing (R422, R477, R478) -/

/-- Words of 64 bytes of a scrubbed memory: tiles 0 to 71, core memories 72 to 77, cache slices 78 to 85 (set and way), the island's SRAM 86,
then queue contexts 87, knots 88, transform table 89, voxel and work stores 90, parser programs 91, sequence contexts 92 (one a word),
bias tables 93 (128 words each) and test stores 94 (log entry 80). -/
def scrubWords (m : Nat) : Nat := if m < 72 then 32768 else if m < 78 then 131072 else 65536

/-- Key of a scrubbed word of tile SRAM or core memory. -/
def scrubKey (m word : Nat) : Nat := if m < 72 then Space.key (.tile m) (64 * word) else Space.key (.core (m - 72)) (64 * word)

/-- A guarded window, a guarded core page, or resident code of a guarded program holds the word (R478). -/
def scrubGuarded (s : State) (m word : Nat) : Bool × Bool :=
  let a := 64 * word
  if m < 72 then
    let code := (engineOf s m).resident.any (fun r => decide (r.base ≤ a) && decide (a < r.base + 4096 * r.pages) && (s.eng.programs.find r.handle).any (·.guarded))
    (code || (instsOn s m).any (fun i => i.guarded && decide (i.window ≤ a) && decide (a < i.window + i.windowBytes)), code)
  else ((s.eng.pages.find ((m - 72) * 64 + a / 131072)).any (·.2), false)

/-- Rewrite a word of guarded resident code from its program's image (R478). -/
def rewriteCode (s : State) (m word : Nat) : State :=
  let a := 64 * word
  match (engineOf s m).resident.find? (fun r => decide (r.base ≤ a) && decide (a < r.base + 4096 * r.pages)) with
  | some r => match s.eng.programs.find r.handle with
    | some p => sramWrite s (Space.key (.tile m) a) (((p.code.drop (a - r.base)).take 64 ++ List.replicate 64 0).take 64)
    | none => s
  | none => s

/-- The record of an uncorrectable word; its detail names the memory (R478; log entry 80). -/
def scrubReport (s : State) (m word : Nat) (guarded nested : Bool) : Report :=
  let r := if m < 72 then reportOf s (sevOf guarded) 1 m stInternal else reportOf s (sevOf guarded) 4 (0x1500 + m % 256) stInternal
  { r with status := stInternal, guarded := guarded, detail := m, detail2 := 64 * word / 65536, nested := nested }

/-- What an uncorrectable word does: a dirty line of the system cache is written back poisoned (R418), the sequence of a context is
FAILED, and a bias table is unreadable (R386, R389). -/
def spoilStore (s : State) (m word : Nat) : State :=
  if m < 86 then
    let k := 4096 * (m - 78) + word / 16
    match (Tbl.at [] s.tlb.lines k).find? (fun x => x.way == word % 16 && x.dirty) with
    | some x => { s with tlb.lines := s.tlb.lines.put k ((Tbl.at [] s.tlb.lines k).filter (fun y => y.way != word % 16)), mmu.poison := insertLine s.mmu.poison x.line }
    | none => s
  else if m = 92 then
    match s.seq.seqs.find word with
    | some q => setSeq s word { q with failed := true }
    | none => s
  else if m = 93 then { s with seq.badBias := insertLine s.seq.badBias (word / 128) }
  else s

/-- SRAM_SCRUB: the scrubber of a memory reads its next word. `ecc`: 1 an error that it corrects, 2 an uncorrectable one that it finds;
`guarded`: the class of the owner, for stores whose words the model does not hold. -/
def execSramScrub (m ecc : Nat) (guarded : Bool) (s : State) : Host.Outcome State Fault Refusal :=
  let word := Tbl.at 0 s.safe.scrub m % scrubWords m
  let s := { s with safe.scrub := s.safe.scrub.put m ((word + 1) % scrubWords m) }
  if m < 78 then
    let k := scrubKey m word
    let s := if ecc = 2 then { s with eng.bad := insertLine s.eng.bad (k / 8) } else s
    let s := if ecc = 1 ∧ m < 72 then setEngine s m { engineOf s m with corrected := satAdd 16 (engineOf s m).corrected 1 } else s
    if badIn s k 64 then
      let g := scrubGuarded s m word
      let s := raise s (scrubReport s m word g.1 g.2)
      .next (if g.2 then rewriteCode s m word else s)
    else .next s
  else if ecc ≠ 2 then .next s
  else if m = 86 then .next (raise s (reportOf s sevFatal 15 0 0x0142))
  else .next (raise (spoilStore s m word) (scrubReport s m word guarded false))

end Sys2Proof.Machine
end

