-- ==== Sys2Proof/Machine/SelfTest.lean ====
section
/-! DEFINITION. Golden runs, self-test slices and readmission of the units (spec/20_safety_mechanisms.md R479 to R494). -/

namespace Sys2Proof.Machine

/-! ### Slices (R482, R483, R485) -/

/-- Durations of a unit's slices in µs (R482). -/
def slicesOf (u : Nat) : List Nat :=
  if u < 72 then [12, 12, 12, 12, 8, 8, 3] else if u < 78 then [10, 10, 10] else if u < 84 then [15, 15, 15, 15] else [8, 8]

/-- age(s) of a slice in ns. -/
def sliceAge (s : State) (u k : Nat) : Nat := s.up - ((unitSafe s u).passes.find k).getD (unitSafe s u).born

/-- Test age of a unit's checkers (R485). -/
def testAge (s : State) (u : Nat) : Nat := (List.range (slicesOf u).length).foldl (fun m k => max m (sliceAge s u k)) 0

/-- A unit runs no work and no test. -/
def unitIdle (s : State) (u : Nat) : Bool :=
  (unitSafe s u).test == .none && (if u < 72 then !(instsOn s u).any (·.active)
    else if u < 78 then (pipeOf s (u - 72)).job.isNone
    else if u < 84 then (solverOf s (u - 78)).job.isNone
    else (lytOf s (u - 84)).job.isNone)

/-- Work waits for a unit. -/
def workWaits (s : State) (u : Nat) : Bool :=
  let job := fun (c : Nat) (j : Job) => j.on_.all (· == c)
  if u < 72 then s.eng.runs.any (fun p => !p.2.waiting.isEmpty && engineAllowed p.2.body u)
  else if u < 78 then s.seq.waiting.any (job (u - 72))
  else if u < 84 then s.slv.waiting.any (job (u - 78))
  else s.lyt.waiting.any (job (u - 84))

/-- Guarded work of a cadence can use a unit: for an engine, a guarded instance is placed on it (R483). -/
def guardedUses (s : State) (u c : Nat) : Bool :=
  if u < 72 then (instsOn s u).any (fun i => i.guarded && (s.eng.runs.find i.run).any (fun r => r.body.cadence == c)
      || i.guarded && i.kept.any (fun k => (s.cfg.tasks.find k.1).any (fun b => b.body.cadence == c)))
  else s.cfg.flows.any (fun p => p.2.guarded && p.2.cadence == c)

/-- next_guarded(u) − now: none where it is unbounded. -/
def guardedGap (s : State) (u : Nat) : Option Nat :=
  (s.trig.cads.filter (fun p => p.2.st == .running && guardedUses s u p.1)).foldl (fun (m : Option Nat) p =>
    let g := p.2.close p.2.nextClose - s.now
    some (min g (m.getD g))) none

/-- A slice fits before the next guarded work. -/
def sliceFits (s : State) (u d : Nat) : Bool := (guardedGap s u).all (fun g => decide (d * 1000 + 2000 ≤ g))

/-- The oldest slice that fits; the lower number on a tie. -/
def chooseSlice (s : State) (u : Nat) : Option Nat :=
  let cand := ((slicesOf u).zipIdx.filter (fun p => sliceFits s u p.1)).map (·.2)
  cand.foldl (fun (m : Option Nat) k => match m with
    | none => some k
    | some j => if sliceAge s u j < sliceAge s u k then some k else m) none

/-- Start a golden run that is owed (R480). -/
def startGolden (s : State) (u : Nat) : State :=
  let x := unitSafe s u
  if x.service ≠ 0 ∨ x.owed.isEmpty ∨ !unitIdle s u then s else setUnit s u { x with test := .golden s.up }

/-- GOLDEN_RUN. -/
def execGoldenRun (u : Nat) (s : State) : Host.Outcome State Fault Refusal :=
  if 88 ≤ u ∨ !s.safe.running then .next s else .next (startGolden s u)

/-- SELFTEST_SCHEDULE: the procedure of R483. -/
def execSelftestSchedule (u : Nat) (s : State) : Host.Outcome State Fault Refusal :=
  let x := unitSafe s u
  if 88 ≤ u ∨ !s.safe.running ∨ x.service ≠ 0 ∨ !unitIdle s u then .next s
  else if !x.owed.isEmpty then .next (startGolden s u)
  else match chooseSlice s u with
    | none => .next s
    | some k =>
      if workWaits s u ∧ sliceAge s u k < 500000000 then .next s
      else .next (setUnit s u { x with test := .slice k s.up })

/-- Work that waited for a test may start. -/
def restartUnit (s : State) (u : Nat) : State :=
  if u < 72 then s else if u < 78 then startPipes s.seq.waiting.length s else if u < 84 then s else startLyt s.lyt.waiting.length s

/-- Flows that a failure of a unit is on: guarded flows whose work used it (R445). -/
def unitFlows (s : State) (u : Nat) : List Nat := (((unitSafe s u).used.map (·.1)).filter (isGuardedFlow s)).eraseDups

/-- A failed test: its DOUBT report, and the unit out of service at once (R457, R459). -/
def failTest (s : State) (u event cause detail detail2 : Nat) : State :=
  let s := raise s { unitReport s sevDoubt u event with guarded := true, flows := unitFlows s u, detail := detail, detail2 := detail2 }
  takeOut s u cause

/-- Newest epoch that a golden run covers, and its cadence. -/
def newestOwed (x : UnitSafe) : Nat × Nat := x.owed.getLast?.getD (0, 0)

/-- Advisory flows of the covered epochs whose work ran on the unit and whose records are not written complete with CHECK_MISMATCH (R481). -/
def failCovered (s : State) (u : Nat) (owed : List (Nat × Nat)) : State :=
  s.epochs.foldl (fun s e =>
    if !owed.contains (e.cadence, e.epoch) then s
    else updEpoch s e.cadence e.epoch (fun e => { e with flows := e.flows.map (fun r =>
      if !r.guarded ∧ !r.written ∧ r.runs ∧ usable r.status ∧ (unitSafe s u).used.contains (r.flow, e.cadence, e.epoch) then
        { r with status := stMismatch } else r) })) s

/-- GOLDEN_RUN_END: the run passed or failed (R480, R481). -/
def execGoldenRunEnd (u : Nat) (ok : Bool) (s : State) : Host.Outcome State Fault Refusal :=
  let x := unitSafe s u
  match x.test with
  | .golden _ =>
    if ok then .next (restartUnit (setUnit s u { x with test := .none, owed := [], goldenOk := satAdd 24 x.goldenOk 1 }) u)
    else
      let n := newestOwed x
      let s := failCovered s u x.owed
      let s := setUnit s u { x with test := .none, owed := [], goldenBad := satAdd 8 x.goldenBad 1 }
      let s := if u < 72 then setEngine s u { engineOf s u with goldenFail := satAdd 8 (engineOf s u).goldenFail 1 } else s
      .next (failTest s u 0x0131 causeGolden (n.2 % 2 ^ 32) (n.1 % 32))
  | _ => .next s

/-- SELFTEST_SLICE_END: the slice passed or failed (R482, R486). -/
def execSelftestSliceEnd (u : Nat) (ok : Bool) (s : State) : Host.Outcome State Fault Refusal :=
  let x := unitSafe s u
  match x.test with
  | .slice k _ =>
    if ok then
      let s := setUnit s u { x with test := .none, passes := x.passes.put k s.up }
      let y := unitSafe s u
      let s := if testAge s u < 1000000000 then setUnit s u { y with warned := false, doubtAt := none } else s
      .next (restartUnit s u)
    else .next (failTest (setUnit s u { x with test := .none, sliceFails := satAdd 8 x.sliceFails 1 }) u 0x0132 causeSelftest 0 0)
  | _ => .next s

/-- SELFTEST_ABORT: guarded work becomes ready for a unit under test (R484). -/
def execSelftestAbort (u : Nat) (s : State) : Host.Outcome State Fault Refusal := .next (abortTest s u)

/-- LATENT_TEST_OVERDUE: a unit's test age reaches 1 s, 2 s or a further second (R485). -/
def execLatentTestOverdue (u : Nat) (s : State) : Host.Outcome State Fault Refusal :=
  let x := unitSafe s u
  if 88 ≤ u ∨ x.service = 2 ∨ !s.safe.running then .next s else
  let oldest := s.up - testAge s u
  if !x.warned then
    let s := advanceUp s (oldest + 1000000000)
    .next (raise { setUnit s u { x with warned := true } with safe.overdueWarn := true } (unitReport s sevWarn u 0x0133))
  else
    let s := advanceUp s (match x.doubtAt with
      | none => oldest + 2000000000
      | some t => t + 1000000000)
    .next (raise { setUnit s u { x with doubtAt := some s.up } with safe.overdueDoubt := true }
      { unitReport s sevDoubt u 0x0133 with guarded := true, flows := unitFlows s u })

/-! ### Isolation and readmission (R490 to R494) -/

/-- The unit that a DID selects. -/
def unitSelected (s : State) (did : Nat) : Nat := Tbl.at 0 s.safe.unitSel did

/-- UNIT_ISOLATE: dropped where the unit is already out of service (R494). -/
def execUnitIsolate (did : Nat) (s : State) : Host.Outcome State Fault Refusal :=
  let u := unitSelected s did
  if did < 1 ∨ 2 < did ∨ 88 ≤ u ∨ !s.safe.running ∨ (unitSafe s u).service = 2 then .next s
  else .next (recordOut (takeOut s u causeIsolate) u none)

/-- UNIT_READMIT: dropped on a unit that is IN_SERVICE or FENCED (R490). -/
def execUnitReadmit (did : Nat) (s : State) : Host.Outcome State Fault Refusal :=
  let u := unitSelected s did
  let x := unitSafe s u
  if did < 1 ∨ 2 < did ∨ 88 ≤ u ∨ !s.safe.running ∨ x.service ≠ 2 ∨ x.step ≠ 0 then .next s
  else .next (setUnit s u { x with step := 1, startup := false, blocked := false })

/-- The threads of every other engine. -/
def engineThreads (s : State) (g : Nat) : Tbl Thread := s.eng.threads.filter (fun p => p.1 / 64 ≠ g)

/-- The reset of a unit in step 2: registers, threads, copy unit; tile SRAM is zero with valid check bits. Pinned programs are kept in mind
for step 3. -/
def resetUnit (s : State) (u : Nat) : State :=
  if u < 72 then
    let lo := Space.key (.tile u) 0
    let e := engineOf s u
    setEngine { icuSet s (64 + u) false with
      eng.threads := engineThreads s u
      eng.waits := s.eng.waits.filter (fun p => p.1 / 64 ≠ u)
      eng.bad := s.eng.bad.filter (fun w => !(decide (lo ≤ 8 * w) && decide (8 * w < lo + 2 ^ 21)))
      mem := s.mem.filter (fun c => !(decide (lo ≤ c.1) && decide (c.1 < lo + 2 ^ 21))) } u
      { Engine.reset with reservedGuarded := e.reservedGuarded, resident := e.resident.filter (·.pinned) }
  else if u < 78 then setPipe s (u - 72) Pipe.reset
  else if u < 84 then
    let x := solverOf s (u - 78)
    setSolver s (u - 78) { x with job := none, run := none, cls := false, checkFail := false, streamed := false, lastStatus := 0, lastIter := 0 }
  else
    let x := lytOf s (u - 84)
    setLyt s (u - 84) { x with job := none, cls := false, checkFail := false, lastStatus := 0, opcode := 0 }

/-- Step 3: the guarded resident programs of an engine are written from their images. -/
def reloadPrograms (s : State) (u : Nat) : State :=
  (engineOf s u).resident.foldl (fun s r => match s.eng.programs.find r.handle with
    | some p => sramWrite s (Space.key (.tile u) r.base) p.code
    | none => s) s

/-- A cadence is RUNNING. -/
def anyRunning (s : State) : Bool := s.trig.cads.any (fun p => p.2.st == .running)

/-- The unit enters IN_SERVICE (R491, R493). -/
def enterService (s : State) (u : Nat) : State :=
  let x := unitSafe s u
  if x.startup then setUnit s u { x with service := 0, step := 0, startup := false }
  else
    let s := setUnit s u { x with service := 0, step := 0, t1 := none, since := s.now, readmissions := satAdd 8 x.readmissions 1 }
    raise s (unitReport s sevInfo u 0x0135)

/-- READMISSION_STEP: the step in progress ends. `fault`: 0 passed, 1 a golden set failed (step 4), 2 a slice failed (step 5) or a checker
reported a mismatch on clean data (step 4) (R486, R491 to R493). -/
def execReadmissionStep (u fault : Nat) (s : State) : Host.Outcome State Fault Refusal :=
  let x := unitSafe s u
  let next := fun (s : State) (k : Nat) => setUnit s u { unitSafe s u with step := k }
  if x.step = 1 then .next (setUnit s u { x with service := 1, step := 2, owed := [], test := .none })
  else if x.step = 2 then .next (next (resetUnit s u) (if u < 72 then 3 else 4))
  else if x.step = 3 then .next (next (reloadPrograms s u) 4)
  else if x.step = 4 then
    if fault = 0 then .next (setUnit s u { x with step := 5, goldenOk := satAdd 24 x.goldenOk 1 })
    else if fault = 1 then .next (failTest (setUnit s u { x with goldenBad := satAdd 8 x.goldenBad 1 }) u 0x0131 causeGolden 0 0)
    else .next (failTest s u 0x0132 causeSelftest 0 0)
  else if x.step = 5 then
    if fault = 0 then
      let s := setUnit s u { x with step := 6, passes := (List.range (slicesOf u).length).map (fun k => (k, s.up)), warned := false, doubtAt := none }
      .next (if x.startup ∨ !anyRunning s then restartUnit (enterService s u) u else s)
    else .next (failTest (setUnit s u { x with sliceFails := satAdd 8 x.sliceFails 1 }) u 0x0132 causeSelftest 0 0)
  else .next s

/-- UNIT_READMITTED: the next close(n) of a RUNNING cadence (R491). -/
def execUnitReadmitted (u : Nat) (s : State) : Host.Outcome State Fault Refusal :=
  if (unitSafe s u).step = 6 then .next (restartUnit (enterService s u) u) else .next s

end Sys2Proof.Machine
end

