-- ==== Sys2Proof/Machine/Security.lean ====
section
/-! DEFINITION. Security, presence and debug levels (spec/22_security_presence.md). -/

namespace Sys2Proof.Machine

/-! ### The RWL registers (R644) -/

/-- The RWL fields of a plant port. -/
def quietOf (p : PlantPort) : Quiet :=
  { txEn := p.txEn, mgmtFps := p.mgmtFps, period := p.period, wins := p.wins, burst := p.burst, rate := p.rate, pubId := p.pubId }


/-- Values of an image, where it leaves a field out the reset value (R644). -/
def orReset (x r : Nat) : Nat := if x = 0 then r else x
def Image.scrub (i : Image) : Nat := orReset i.scrubHours 0x18
def Image.window (i : Image) : Nat := orReset i.windowMax 15
def Image.limit (i : Image) : Nat := orReset i.plimit 240
def Image.quiet (i : Image) (p : Nat) : Quiet := (i.plant.find p).getD (quietOf PlantPort.reset)

/-- Two tables agree with a default. -/
def sameWins (a b : Tbl (Nat × Nat)) : Bool := (List.range 4).all (fun k => Tbl.at (0, 0) a k == Tbl.at (0, 0) b k)

/-- The RWL fields of a plant port equal the image's. -/
def quietSame (a b : Quiet) : Bool :=
  a.txEn == b.txEn && a.mgmtFps == b.mgmtFps && a.period == b.period && sameWins a.wins b.wins && a.burst == b.burst && a.rate == b.rate && a.pubId == b.pubId

/-- Every RWL register has the value that the image gives it (R519, R644). -/
def rwlMatches (s : State) (i : Image) : Bool :=
  (List.range 8).all (fun k => (Tbl.at MemCtl.reset s.mmu.mcs k).period == i.scrub) && s.mmu.guardedWays == i.guardedWays
    && s.sec.windowMax == i.window && s.power.octurResetEn == i.octurResetEn && s.power.perstScope == i.perstScope && s.power.plimit == i.limit
    && (List.range 2).all (fun p => quietSame (quietOf (plantPort s p)) (i.quiet p))

/-- Write the image's values into the RWL registers. -/
def setRwl (s : State) (i : Image) : State :=
  let s := { s with
    mmu.mcs := (List.range 8).foldl (fun t k => t.put k { Tbl.at MemCtl.reset t k with period := i.scrub }) s.mmu.mcs
    mmu.guardedWays := i.guardedWays, sec.windowMax := i.window, power.octurResetEn := i.octurResetEn, power.perstScope := i.perstScope
    power.plimit := i.limit }
  (List.range 2).foldl (fun s p =>
    let q := i.quiet p
    setQuiet s p { plantPort s p with txEn := q.txEn, mgmtFps := q.mgmtFps, period := q.period, wins := q.wins, burst := q.burst, rate := q.rate, pubId := q.pubId }) s

/-- Who may write an RWL register now, and what a dropped write leaves: rwl_drop and the record (R519)
DESIGN CHOICE (log 123): block index and offset in the detail as in a BAR0 offset. -/
def rwlAllowed (s : State) (did : Nat) : Bool := !s.sec.locked && (did == 1 || did == 2)
def rwlDropped (s : State) (did unit offset : Nat) : State :=
  raise { s with sec.rwlDrop := true } { secReport s sevWarn 0x0150 with did := did, detail := unit * 65536 + offset }

/-! ### The contents of an image (R440, R441, R471, R475, R564) -/

/-- A flow safety entry lies within the ranges of R441; a grid flow ignores bytes 12 to 31. -/
def flowEntryOk (f : Nat) (x : FlowSafety) : Bool :=
  decide (f < 4096) && decide (x.recipe ≤ 3) && decide (x.index ≤ 63) && (x.recoveryMs == 0 || (decide (10 ≤ x.recoveryMs) && decide (x.recoveryMs ≤ 60000)))
    && decide (1 ≤ x.holdMs) && decide (x.holdMs ≤ 60000) && decide (x.ageMax < 2 ^ 32) && decide (x.cadence < 32)
    && (x.grid.isSome || (decide (2 ≤ x.outSlots) && decide (x.outSlots ≤ 8) && decide (x.did < 16) && decide (64 ≤ x.resultBytes)
      && decide (x.resultBytes ≤ 1048576) && x.resultBytes % 64 == 0 && x.resultBase % 65536 == 0 && decide (x.resultBase < 2 ^ 48)))

/-- Enabled watchdogs of a cadence in stage order. -/
def Image.enabledWindows (i : Image) (c : Nat) : List (Nat × Window) :=
  (List.range 7).filterMap (fun t => ((i.windows.find (8 * c + t)).filter (·.enable)).map (fun w => (t, w)))

/-- Steps between successive closes are at most 10,000 µs, the first from 0 (R475). -/
def closesOk (prev : Nat) : List (Nat × Window) → Bool
  | [] => true
  | (_, w) :: ws => decide (w.close ≤ prev + 10000) && closesOk w.close ws

/-- The watchdogs of one cadence (R471, R475). -/
def windowsOk (s : State) (i : Image) (c : Nat) : Bool :=
  let ws := i.enabledWindows c
  ws.all (fun w => decide (w.2.open_ ≤ w.2.close)) &&
    (!i.flows.any (fun f => f.2.cadence == c) || (ws.any (fun w => w.1 == 0) && closesOk 0 ws
      && ws.getLast?.all (fun w => decide (w.2.close ≤ (cadOf s c).budget))))

/-- Guarded flows read no advisory flow (R25). -/
def listsOk (i : Image) : Bool := i.inputs.all (fun l => l.2.all (fun r => !r.isFlow || (i.flows.find r.index).isSome))

/-- Publications of guarded flows use ports whose tx_en the image sets (R564). -/
def pubsOk (i : Image) : Bool := i.pubs.all (fun p => !(i.flows.find p.2.flow).isSome || (i.quiet p.2.port).txEn)

/-- Step 3 of R518 on the contents. -/
def imageOk (s : State) (i : Image) : Bool :=
  i.flows.all (fun f => flowEntryOk f.1 f.2) && (List.range 32).all (windowsOk s i) && listsOk i && pubsOk i

/-- Walk the records of an image body: types 1 to 22, reserved 0, lengths inside the body; answers the bytes of types 1 to 4 and 19, which
the island keeps (R517, R520, R564, R605). -/
def recordsGo : Nat → List Byte → Option Nat
  | 0, bs => if bs.isEmpty then some 0 else none
  | fuel + 1, bs =>
    if bs.isEmpty then some 0
    else
      let type := ofLe (bs.take 2)
      let len := (ofLe ((bs.drop 4).take 4) + 7) / 8 * 8
      if bs.length < 8 + len ∨ type = 0 ∨ 22 < type ∨ ofLe ((bs.drop 2).take 2) ≠ 0 then none
      else (recordsGo fuel (bs.drop (8 + len))).map (fun n => if type ≤ 4 ∨ type = 19 then n + 8 + len else n)

/-- The records of a body are well formed and the island's fit in 512 KiB (R517, R520). -/
def recordsOk (body : List Byte) : Bool := (recordsGo (body.length / 8 + 1) body).any (fun n => decide (n ≤ 524288))

/-- A field of the 256-byte image header (R517). -/
def hdr (bs : List Byte) (at_ n : Nat) : Nat := ofLe ((bs.drop at_).take n)

/-- Step 1 of R518: header, length, SHA-384. -/
def safetyHeaderOk (bs : List Byte) : Bool :=
  hdr bs 0 4 == 0x4D494653 && hdr bs 4 4 == bs.length && decide (256 ≤ bs.length) && decide (bs.length ≤ 16777216) && decide (hdr bs 8 1 ≤ 63)
    && hdr bs 10 6 == 0 && hdr bs 72 88 == 0 && hdr bs 24 48 == Config.sha384 (bs.drop 256)

/-- A key slot's digest. -/
def keyOf (s : State) (usage : Nat) : Nat := Tbl.at 0 s.sec.keys usage

/-- Step 2 of R518: signature, key generation, security version, serial. -/
def imageSigned (s : State) (bs : List Byte) : Bool :=
  Config.sigOk (keyOf s 2) (bs.take 160) ((bs.drop 160).take 96) && hdr bs 9 1 == s.sec.safetyGen && s.sec.safetyGen != 0
    && decide (s.sec.fuseImage ≤ hdr bs 8 1) && (hdr bs 16 8 == 0 || hdr bs 16 8 == s.sec.serial)

/-! ### Applying an image (R28, R440, R518) -/

/-- A table with an old image's entries replaced by a new image's. -/
def overlay {α β : Type} (old : Tbl β) (new t : Tbl α) : Tbl α :=
  new.foldl (fun t p => t.put p.1 p.2) (t.filter (fun p => (old.find p.1).isNone))

/-- The guarded objects leave or enter the configuration; a change acts at the next acq_start (R28). -/
def imageCfg (old new : Image) (c : Cfg) : Cfg :=
  let splice := fun (k : Nat) (x : StreamCfg) =>
    let x := match new.streams.find k with
      | some p => { x with selectAll := p.selectAll, driftOff := p.driftOff, maxGap := p.maxGap, extrapMax := p.extrapMax, maxAge := p.maxAge, statusMask := p.statusMask }
      | none =>
        let b := StreamCfg.blank
        if new.reads k then { x with selectAll := b.selectAll, driftOff := b.driftOff, maxGap := b.maxGap, extrapMax := b.extrapMax, maxAge := b.maxAge, statusMask := b.statusMask } else x
    match new.mounts.find k with
    | some (r, l, e, t) => { x with mount := some (r, l, e), atTov := t }
    | none => x
  { flows := overlay old.flows (new.flows.map (fun p => (p.1, ({ guarded := true, cadence := p.2.cadence, enable := true, grid := p.2.grid, cring := (c.flows.find p.1).bind (·.cring) } : FlowCfg)))) c.flows
    tasks := overlay old.tasks (new.tasks.map (fun p => (p.1, { p.2 with guarded := true }))) c.tasks
    streams := c.streams.mapV splice
    entries := overlay old.entries (new.entries.mapV (fun _ x => { x with pose := x.pose.canonical })) c.entries
    rigs := overlay old.rigs new.rigs c.rigs
    joints := overlay old.joints new.joints c.joints
    egos := overlay old.egos new.egos c.egos
    volumes := overlay old.volumes (new.volumes.map (fun p => (p.1, { p.2 with guarded := true }))) c.volumes
    grids := overlay old.grids (new.grids.map (fun p => (p.1, { p.2 with guarded := true }))) c.grids
    areas := overlay old.areas new.areas c.areas
    inputs := overlay old.inputs new.inputs c.inputs
    biases := overlay old.biases (new.biases.map (fun p => (p.1, { p.2 with guarded := true }))) c.biases
    pubs := new.pubs.foldl (fun t p => t.put p.1 { p.2 with image := true, guarded := (new.flows.find p.2.flow).isSome }) (c.pubs.filter (fun p => !p.2.image)) }

/-- An image without contents. -/
def Image.blank : Image :=
  { mismatchEpochs := 0, fatalReset := false, readmitMax := 3, guardedWays := 0, scrubHours := 0, windowMax := 0, octurResetEn := false
    perstScope := false, plimit := 0, flows := [], linear := [], moves := [], inputs := [], streams := [], digests := [], tasks := []
    reserved := [], entries := [], rigs := [], joints := [], mounts := [], egos := [], volumes := [], grids := [], areas := [], pools := []
    seqs := [], biases := [], regions := [], windows := [], plant := [], pubs := [], banks := [], field := FldCfg.reset, outs := [], actions := []
    mons := [] }

/-- Sequences and pools of the old image end; those of the new one are created (R373 to R375, R440). -/
def imageSeqs (s : State) (old new : Image) : State :=
  let s := together s fun s => (s.seq.seqs.filter (fun p => p.2.active && p.2.guarded)).foldl (fun s p => destroySeq s p.1 p.2) s
  let fresh := fun (q : Seq) => { q with
    active := true, failed := false, guarded := true, first := 0, count := 0, firstPage := 0, held := [], pending := none, appended := []
    waiting := [], slides := 0, exhausted := 0, discarded := 0 }
  { s with
    seq.pools := overlay old.pools (new.pools.map (fun p => (p.1, { p.2 with guarded := true, taken := [], lost := [] }))) s.seq.pools
    seq.seqs := new.seqs.foldl (fun t p => t.put p.1 (fresh p.2)) s.seq.seqs }

/-- A guarded task's program becomes resident and pinned on an engine of its set (R284). -/
def pinOn (k : Nat) (p : Program) (s : State) (g : Nat) : State :=
  match withResident s g k p true with
  | some code => loadResident s g k p code
  | none => s

/-- Programs of guarded tasks become resident (R284); the engines' reservation follows the image (R288). -/
def imageEngines (s : State) (new : Image) : State :=
  let s := { s with eng.engines := (List.range 72).foldl (fun t g =>
    t.put g (let e := Tbl.at Engine.reset t g
             { e with reservedGuarded := new.reserved.contains g, resident := e.resident.map (fun r => { r with pinned := false }) })) s.eng.engines }
  new.tasks.foldl (fun s p => match s.eng.programs.find p.2.body.program with
    | some q => ((List.range 72).filter (engineAllowed p.2.body)).foldl (pinOn p.2.body.program q) s
    | none => s) s

/-- Guarded joints take their references, so a FIXED joint is referenced again (R206, R208). -/
def imageJoints (s : State) (new : Image) : State :=
  new.joints.foldl (fun s p => setJoint s p.1 (configRefs s.up p.2 (jointSt s p.1))) s

/-- Regions of the image; its earlier ones end (R434). -/
def imageRegions (s : State) (old new : Image) : State :=
  { s with mmu.regions := overlay old.regions (new.regions.map (fun p => (p.1, { p.2 with denials := (Tbl.at Region.reset s.mmu.regions p.1).denials }))) s.mmu.regions }

/-- Trigger settings and field settings of the image (R564, R605). -/
def imagePorts (s : State) (old new : Image) : State :=
  let f := s.fld.cfg
  { s with
    fld.bankCfg := overlay old.banks new.banks s.fld.bankCfg
    fld.banks := if fieldRuns s && s.fldT.linkUp then overlay old.banks new.banks s.fld.banks else s.fld.banks
    fld.cfg := { enc := overlay old.field.enc new.field.enc f.enc, ser := overlay old.field.ser new.field.ser f.ser, din := overlay old.field.din new.field.din f.din }
    trig.outs := overlay old.outs new.outs s.trig.outs
    trig.actions := overlay old.actions new.actions s.trig.actions
    trig.mons := overlay old.mons new.mons s.trig.mons }

/-- The device-wide configuration moves from one image to another. -/
def switchImage (s : State) (old new : Image) : State :=
  let s := imageSeqs s old new
  let s := { s with cfg := imageCfg old new s.cfg, xft.poisoned := s.xft.poisoned.filter (fun k => (new.entries.find k).isNone), seq.badBias := s.seq.badBias.filter (fun k => (new.biases.find k).isNone) }
  driveSafe (imagePorts (imageRegions (imageJoints (imageEngines s new) new) old new) old new)

/-- Apply an image that passed (R514, R518, R519). -/
def applyImage (s : State) (i : Image) (digest svn : Nat) (locked : Bool) : State :=
  let old := s.sec.image.getD Image.blank
  switchImage (setRwl { s with sec.image := some i, sec.imageDigest := digest, sec.imageSvn := svn, sec.locked := locked } i) old i

/-- No image stands any more (R512). -/
def dropImage (s : State) : State :=
  let old := s.sec.image.getD Image.blank
  switchImage { s with sec.image := none, sec.imageDigest := 0, sec.imageSvn := 0, sec.locked := false } old Image.blank

/-! ### Maintenance commands (R526) -/

def secWho (d : Desc) : Who := { did := d.did, guarded := false, kind := 4, index := 0x0300, flows := [], src := some d.src }

/-- Accept a maintenance command given by a descriptor, or refuse it. -/
def maintOp (s : State) (d : Desc) (permitted : Bool) (act : State → Answer) : Answer :=
  if maintOpen s d.did && permitted then act (maintRecord s d.did (dOpcode d)) else failWith (maintRefuse s) stNotAuth

/-- Every cadence is STOPPED. -/
def allStopped (s : State) : Bool := s.trig.cads.all (fun p => p.2.st == .stopped)

/-- What R70 checks of SecFwUpdate. -/
def infoSecFwUpdate (_ : State) (_ : Desc) : OpInfo :=
  { fields := [(24, 0, 64), (32, 0, 32)] }

/-- SEC_FW_UPDATE (R514, R516): the inactive bank takes the image; it is pending once it verifies. -/
def execSecFwUpdate (d : Desc) (s : State) : Host.Outcome State Fault Refusal :=
  .next (runDesc s d (infoSecFwUpdate s d) fun s =>
    maintOp s d true fun s =>
      let n := dfld d 32 0 32
      if n = 0 ∨ 33554432 < n then failWith s stDescInvalid else
      let r := devRead s (secWho d) (dfld d 24 0 64) n
      if r.1 ≠ stOk then failWith r.2.2 r.1
      else
        let s := r.2.2
        let bank := 1 - s.sec.activeBank
        let svn := Config.fwSvn r.2.1 % 64
        if !Config.fwOk r.2.1 ∨ svn < s.sec.fuseFw then
          failWith { s with sec.pendingBank := none, sec.badBanks := bank :: s.sec.badBanks.filter (· ≠ bank) } stNotAuth
        else okWith { s with
          sec.pendingBank := some bank, sec.tries := 3, sec.bankSvn := s.sec.bankSvn.put bank svn
          sec.badBanks := s.sec.badBanks.filter (· ≠ bank) } bank)

/-- What R70 checks of SecImageLoad. -/
def infoSecImageLoad (_ : State) (_ : Desc) : OpInfo :=
  { fields := [(24, 0, 64), (32, 0, 32)] }

/-- SEC_IMAGE_LOAD (R517, R518): the image's bytes at the source, and what its records say as data. -/
def execSecImageLoad (d : Desc) (img : Image) (s : State) : Host.Outcome State Fault Refusal :=
  .next (runDesc s d (infoSecImageLoad s d) fun s =>
    maintOp s d (s.sec.lifecycle == 1 || s.sec.lifecycle == 2) fun s =>
      if !allStopped s then failWith s stDescInvalid else
      let r := devRead s (secWho d) (dfld d 24 0 64) (min (dfld d 32 0 32) 16777217)
      let s := r.2.2
      if r.1 ≠ stOk then failWith s r.1
      else if !safetyHeaderOk r.2.1 then failWith s stDescInvalid
      else if !imageSigned s r.2.1 then failWith s stNotAuth
      else if !recordsOk (r.2.1.drop 256) ∨ !imageOk s img then failWith s stDescInvalid
      else
        let slot := if s.sec.stored.isNone then 0 else 1 - s.sec.imageSlot
        let digest := hdr r.2.1 24 48
        let svn := hdr r.2.1 8 1
        okWith (applyImage { s with sec.stored := some (img, digest, svn, false), sec.storedGen := hdr r.2.1 9 1, sec.imageSlot := slot } img digest svn false) slot)

/-- What R70 checks of SecLock. -/
def infoSecLock (_ : State) (d : Desc) : OpInfo :=
  { fields := [], authority := d.did == 1 || d.did == 2 }

/-- SEC_LOCK (R519): no window is needed. -/
def execSecLock (d : Desc) (s : State) : Host.Outcome State Fault Refusal :=
  .next (runDesc s d (infoSecLock s d) fun s =>
    match s.sec.image with
    | none => failWith s stDescInvalid
    | some i =>
      if !rwlMatches s i then failWith s stDescInvalid
      else okWith { s with sec.locked := true, sec.stored := s.sec.stored.map (fun x => (x.1, x.2.1, x.2.2.1, true)) } 0)

/-! ### Keys and lifecycle (R511 to R515) -/

/-- Reserved bytes of a certificate are 0; `serial` marks a provisioning certificate. -/
def certShape (c : List Byte) (serial : Bool) : Bool :=
  hdr c 2 2 == 0 && hdr c 109 51 == 0 && (serial || hdr c 101 8 == 0)

/-- A certificate's signature verifies against a key digest. -/
def certSigned (key : Nat) (c : List Byte) : Bool := Config.sigOk key (c.take 160) ((c.drop 160).take 96)

/-- Digest of a certificate's public key. -/
def certKey (c : List Byte) : Nat := Config.sha384 ((c.drop 4).take 97)

/-- Current generation of a usage. -/
def genOf (s : State) (usage : Nat) : Nat :=
  if usage = 1 then s.sec.ownerGen else if usage = 2 then s.sec.safetyGen else s.sec.debugGen

/-- Install a key's next generation; the previous one is revoked. -/
def installKey (s : State) (usage gen digest : Nat) : State :=
  let s := { s with sec.keys := s.sec.keys.put usage digest }
  if usage = 1 then { s with sec.ownerGen := gen } else if usage = 2 then { s with sec.safetyGen := gen } else { s with sec.debugGen := gen }

/-- What R70 checks of SecKeyRotate. -/
def infoSecKeyRotate (_ : State) (_ : Desc) : OpInfo :=
  { fields := [(24, 0, 64)] }

/-- SEC_KEY_ROTATE (R515). -/
def execSecKeyRotate (d : Desc) (s : State) : Host.Outcome State Fault Refusal :=
  .next (runDesc s d (infoSecKeyRotate s d) fun s =>
    maintOp s d (s.sec.lifecycle == 1 || s.sec.lifecycle == 2) fun s =>
      let r := devRead s (secWho d) (dfld d 24 0 64) 256
      let s := r.2.2
      let c := r.2.1
      let usage := hdr c 0 1
      let gen := hdr c 1 1
      if r.1 ≠ stOk then failWith s r.1
      else if !certShape c false ∨ usage = 0 ∨ 3 < usage ∨ gen ≠ genOf s usage + 1 ∨ 15 < gen then failWith s stDescInvalid
      else if !certSigned (keyOf s 1) c then failWith s stNotAuth
      else okWith (installKey s usage gen (certKey c)) gen)

/-- All of local DRAM reads zero (R512, R540): bytes, poison, and the tables and images kept there. -/
def clearDram (s : State) : State :=
  { s with
    mem := s.mem.filter (fun c => decide (2 ^ 48 ≤ c.1)), mmu.poison := [], tlb.held := [], mmu.ctx := s.mmu.ctx.mapV (fun _ c => { c with runs := [] })
    eng.programs := [], spl.tables := [], xft.tables := [] }

/-- Entering RETIRED (R512). -/
def retire (s : State) : State :=
  let s := dropImage s
  let s := { s with
    sec.lifecycle := 3, sec.keys := s.sec.keys.filter (fun p => p.1 == 0), sec.ownerGen := 0, sec.safetyGen := 0, sec.debugGen := 0
    sec.stored := none, sec.imageSlot := 0 }
  driveSafe (clearDram (putLevel s (min s.dbg.level 1)))

/-- The lifecycle record takes a new state. -/
def setLifecycle (s : State) (l : Nat) : State := driveSafe { s with sec.lifecycle := l, sec.transitions := satAdd 8 s.sec.transitions 1 }

/-- BLANK to PROVISIONED: the OWNER certificate and its provisioning certificate (R512, R515). -/
def provision (s : State) (d : Desc) : Answer :=
  let r := devRead s (secWho d) (dfld d 24 0 64) 512
  let s := r.2.2
  let c := r.2.1.take 256
  let p := r.2.1.drop 256
  if r.1 ≠ stOk then failWith s r.1
  else if !certShape c false ∨ !certShape p true ∨ hdr c 0 1 ≠ 1 ∨ hdr c 1 1 ≠ 1 ∨ hdr p 0 1 ≠ 4 ∨ hdr p 1 1 ≠ 0 ∨ hdr p 101 8 ≠ s.sec.serial then failWith s stDescInvalid
  else if !certSigned (keyOf s 0) p ∨ !certSigned (certKey p) c then failWith s stNotAuth
  else okWith (setLifecycle (installKey s 1 1 (certKey c)) 1) 1

/-- What R70 checks of SecLifecycle. -/
def infoSecLifecycle (_ : State) (_ : Desc) : OpInfo :=
  { fields := [(16, 0, 2), (20, 0, 32), (24, 0, 64)] }

/-- SEC_LIFECYCLE (R512). -/
def execSecLifecycle (d : Desc) (s : State) : Host.Outcome State Fault Refusal :=
  .next (runDesc s d (infoSecLifecycle s d) fun s =>
    maintOp s d true fun s =>
      let target := dfld d 16 0 2
      let from_ := s.sec.lifecycle
      if target = 3 then (if dfld d 20 0 32 = 0x52455449 then okWith (retire s) 3 else failWith s stDescInvalid)
      else if from_ = 0 ∧ target = 1 then provision s d
      else if from_ = 1 ∧ target = 2 ∧ s.sec.image.isSome ∧ s.sec.locked ∧ allStopped s then okWith (setLifecycle s 2) 2
      else if from_ = 2 ∧ target = 1 ∧ allStopped s then okWith (setLifecycle s 1) 1
      else failWith s stDescInvalid)

/-! ### Presence (R523 to R525) -/

/-- SEC registers answer once the stage reads READY (R551). -/
def secOpen (s : State) (did : Nat) : Bool := s.bootReady && (did == 1 || did == 2)

/-- PRESENCE_WINDOW_TIMEOUT: window_max minutes after the opening. -/
def execPresenceWindowTimeout (s : State) : Host.Outcome State Fault Refusal :=
  if s.sec.open_ then .next (closePresence (advanceUp s (s.sec.openedAt + s.sec.windowMax * 60000000000))) else .next s

/-- PRESENCE_CLOSE: a write of close to SEC_PRESENCE. -/
def execPresenceClose (did : Nat) (s : State) : Host.Outcome State Fault Refusal :=
  if secOpen s did then .next (closePresence s) else .next s

/-- SEAL_OVERRIDE: a write of override to SEC_PRESENCE (R524). -/
def execSealOverride (did : Nat) (s : State) : Host.Outcome State Fault Refusal :=
  if secOpen s did && s.sec.key == 1 && !s.sec.open_ && s.sec.refusedAt.any (fun t => decide (s.up ≤ t + 60000000000)) && decide (s.power.pstate ≤ 2) then
    let s := raise { s with power.overrides := satAdd 8 s.power.overrides 1 } { secReport s sevWarn 0x0154 with did := did }
    .next (openPresence s true)
  else .next s

/-- SEAL_REARM: a write of rearm to SEC_PRESENCE (R525). -/
def execSealRearm (did : Nat) (s : State) : Host.Outcome State Fault Refusal :=
  if secOpen s did && s.sec.open_ && s.sec.sealOk then .next (raise { s with sec.sealLatched := false } { secReport s sevWarn 0x0155 with did := did })
  else .next s

/-! ### Debug levels (R527 to R530) -/

/-- Guarded verdicts are forced to FAIL and the channels de-energise (R529). -/
def forceFail (s : State) : State :=
  s.epochs.foldl (fun s e => e.flows.foldl (fun s r => if r.guarded ∧ !r.written then fixFail s r.flow e.epoch none else s) s) s

/-- The level takes a value. -/
def setLevel (s : State) (level source : Nat) : State :=
  let s := if level = 2 ∧ s.sec.lifecycle = 2 then forceFail s else s
  driveSafe (putLevel { s with dbg.source := source } level)

/-- A level write is dropped: refused, and maint_refused where it asks for INTRUSIVE (R526, R528). -/
def refuseLevel (s : State) (level : Nat) : State :=
  let s := { s with dbg.refused := true }
  if level = 2 then maintRefuse s else s

/-- A request for a level by a DID (R526, R528). -/
def requestLevel (s : State) (did level source : Nat) : State :=
  if 3 ≤ level then s
  else if level ≤ 1 then (if s.power.pstate ≤ 2 then setLevel s level source else refuseLevel s level)
  else if s.sec.lifecycle = 3 ∨ !maintOpen s did then refuseLevel s level
  else setLevel (maintAccept s did) level source

/-- DBG_LEVEL_WRITE: a write of DBG_LEVEL by DID 1 or DID 2 (R528). -/
def execDbgLevelWrite (did level : Nat) (s : State) : Host.Outcome State Fault Refusal :=
  if did = 1 ∨ did = 2 then .next (requestLevel s did (level % 4) 1) else .next s

/-- Words of the present nonce. -/
def nonceWord (s : State) (k : Nat) : W32 := Config.nonce s.dbg.nonce k
def nonceBytes (s : State) : List Byte := (List.range 12).flatMap (fun k => leBytes 4 (nonceWord s k).toNat)

/-- The device renews the nonce: a free value (R530). -/
def renewNonce (s : State) : State := tickFresh { s with dbg.nonce := s.fresh }

/-- DBG_NONCE_READ: a read of DBG_NONCE's first word by a DID renews the nonce and gives its first word. -/
def execDbgNonceRead (did : Nat) (s : State) : Host.Outcome State Fault Refusal :=
  let s := renewNonce s
  .next (emit s (.readData did 0x160010 (nonceWord s 0)))

/-- The key that an attempt must verify against (R530): a Holtotte service certificate in BLANK and RETIRED, else the DEBUG generation. -/
def debugKey (s : State) : Option Nat :=
  if s.sec.lifecycle = 0 ∨ s.sec.lifecycle = 3 then some (keyOf s 0) else if s.sec.debugGen = 0 then none else some (keyOf s 3)

/-- DBG_AUTH_GO (R530). -/
def execDbgAuthGo (s : State) : Host.Outcome State Fault Refusal :=
  if s.dbg.portLocked then .next s else
  let word := fun (k : Nat) => Tbl.at (0 : W32) s.dbg.auth k
  let level := (word 0).toNat % 4
  let sig := (List.range 24).flatMap (fun k => leBytes 4 (word (k + 1)).toNat)
  let ok : Bool := (debugKey s).any (fun k => Config.sigOk k (nonceBytes s ++ leBytes 4 (word 0).toNat ++ leBytes 8 s.sec.serial) sig)
  let s := renewNonce s
  if ok then .next (requestLevel s 1 level 2)
  else
    let s := { s with dbg.fails := satAdd 4 s.dbg.fails 1, dbg.portLocked := decide (8 ≤ s.dbg.fails + 1) }
    .next (raise s (reportOf s sevWarn 4 0x1600 0x0157))

end Sys2Proof.Machine
end

