-- ==== Sys2Proof/Machine/Reset.lean ====
section
/-! DEFINITION. Reset causes, scopes, domains and counters (spec/23_reset_power_boot.md R537 to R544). -/

namespace Sys2Proof.Machine

/-! ### Scopes (R537, R538) -/

/-- Scope of a cause: 3 FULL, 2 DEVICE, 1 HOST, 0 UNIT. -/
def scopeOf (s : State) (cause : Nat) : Nat :=
  if cause = 0 then 3 else if cause = 3 then (if s.power.perstScope then 2 else 1) else if cause = 4 then 1 else if cause = 6 then 0 else 2

/-- Domains that a scope holds in reset, in the order of release (R538, R539). -/
def scopeDomains (scope : Nat) : List Domain :=
  if scope = 3 then [0, 1, 2, 3, 4, 5, 6, 7, 8, 9] else if scope = 2 then [0, 2, 3, 4, 5, 6, 7, 8] else if scope = 1 then [3] else []

/-! ### What a domain loses (R538, R540) -/

/-- SAFE: the island, its intake and interrupt controller; the window closes, the debug level falls to OFF, and the applied image is lost
with the island's SRAM (R520, R523, R528, R530). -/
def resetSafe (s : State) : State :=
  { s with
    safe := Safe.reset, sic := IntCtl.reset
    sec := { s.sec with
      image := none, imageDigest := 0, imageSvn := 0, locked := false, open_ := false, override := false, mayOpen := false, refusedAt := none
      rwlDrop := false, maintRefused := false, windowMax := 15 }
    dbg.level := 0, dbg.source := 0, dbg.refused := false, dbg.portLocked := false, dbg.fails := 0, dbg.auth := [] }

/-- A held half of a register pair of the TBU block. -/
def ofTimeDomain (key : Nat) : Bool := key % 2 ^ 26 / 65536 == 7

/-- A held half of a register pair of the HIF block, whose domain is PCIE (R6, R35; log entry 124). -/
def ofPcieDomain (key : Nat) : Bool := key % 2 ^ 26 / 65536 == 4

/-- TIME: the counter, the servo, the cadences with their triggers, and the field die's time and trigger state by command (R103, R538). -/
def resetTime (s : State) : State :=
  { s with
    now := 0, tb := Tb.reset, trig := Trig.reset, power.wakeCopy := 0
    readHi := s.readHi.filter (fun p => !ofTimeDomain p.1), writeLo := s.writeLo.filter (fun p => !ofTimeDomain p.1)
    power.clkActive := s.power.clkMode
    fldT := { FldTime.restart s.fldT with relinks := 0, wasUp := false, discarded := 0, aFld := 0 } }

/-- FAB: on-chip units, configuration and work in processing; what the TIME domain keeps stays (R122). -/
def resetFab (s : State) : State :=
  { s with
    bootReady := false, knots := Knots.reset, qmu := Qmu.reset, ing := Intake.reset, spl := Splice.reset, xft := Xft.reset, geo := Geo.reset
    seq := SeqUnit.reset, slv := Solvers.reset, lyt := Layout.reset, hif := Hif.reset, cfg := Cfg.reset, live := [], epochs := []
    results := [], modesNext := [], modes := [], readHi := s.readHi.filter (fun p => ofTimeDomain p.1), writeLo := s.writeLo.filter (fun p => ofTimeDomain p.1), trig.arming := []
    dbg.links := s.dbg.links.mapV (fun _ x => { x with resyncs := 0, errors := 0, bits := 0, since := s.up })
    fld.cfg := FldCfg.reset, fld.bankCfg := [], fld.chSel := [], fld.mirror := []
    tlb := Tlbs.reset
    mmu := { Mmu.reset with mcs := s.mmu.mcs.mapV (fun _ c => { MemCtl.reset with ce := c.ce, ue := c.ue, ueAddr := c.ueAddr }) }
    power := { s.power with
      pstate := 0, target := 0, goal := 0, reason := 0, busy := false, plimit := 240, engMhz := 1250, engBase := 0, engSince := s.up, ctlMhz := 1500, wake := 0, octurResetEn := false
      perstScope := false, rcuTarget := 0, rcuLast := 0, stage := 0, error := 0, step := 1, bootGo := false, waitFrom := none, training := 0
      trained := false, failedBanks := [] } }

/-- SFP_TX_DIS is driven high while a port's MAC is in reset (R610). -/
def txDisable (s : State) : State :=
  (s.ing.ports.filter (fun p => p.2.speed ≠ 0)).foldl (fun s p => emit s (.pin (pinTxDis p.1) 1)) s

/-- MOD_PG follows the on-module logic rails (R609). -/
def setRails (s : State) (good : Bool) : State :=
  if s.power.railsGood = good then s else emit { s with power.railsGood := good } (.pin 331 good.toNat)

/-- PCIE: every ring of every function returns to IDLE (R52). -/
def resetPcie (s : State) : State :=
  let s := (List.range 14).foldl resetFn s
  { s with readHi := s.readHi.filter (fun p => !ofPcieDomain p.1), writeLo := s.writeLo.filter (fun p => !ofPcieDomain p.1) }

/-- The reset of a domain ends the tests of its links (R631). -/
def endTests (s : State) (lo n : Nat) : State := (List.range n).foldl (fun s k => endTest s (lo + k) 6) s

/-- One domain enters reset. -/
def resetDomain (s : State) (d : Domain) : State :=
  match d with
  | 0 => resetSafe s
  | 1 => resetTime s
  | 2 => resetFab (txDisable s)
  | 3 => resetPcie s
  | 4 => clearDram s
  | 5 => { s with icu := IntCtl.reset, dbg.traceTypes := 7, dbg.traceLost := 0, dbg.traceDropped := 0, dbg.memBase := 0 }
  | 6 => { s with eng := Engines.reset, mem := [] }
  | 7 => endTests { s with eth := Eth.reset } 0 10
  | 8 => endTests { s with oct := Oct.reset } 10 16
  | _ => endTests { s with fldT.linkUp := false, fldT.st := .down } 26 2

/-- Assert the domains that are not in reset already (R539). -/
def assertDomains (s : State) (ds : List Domain) : State :=
  let new := ds.filter (fun d => !s.power.inReset.contains d)
  let s := dropTests (new.foldl resetDomain s)
  { s with power.inReset := (List.range 10).filter (fun d => s.power.inReset.contains d || ds.contains d) }

/-! ### Causes and sequences (R541, R543) -/

/-- A cause is wider than another, or as wide with the lower code. -/
def causeBefore (s : State) (a b : Nat) : Bool := decide (scopeOf s b < scopeOf s a) || (scopeOf s a == scopeOf s b && decide (a < b))

/-- Count the assertion of a cause. -/
def countCause (s : State) (cause : Nat) : State :=
  { s with power.counts := s.power.counts.put cause (satAdd 16 (Tbl.at 0 s.power.counts cause) 1) }

/-- A cause joins the sequence in progress or begins one (R543): with it the last cause. -/
def joinSequence (s : State) (cause : Nat) : State :=
  match s.power.seqCause with
  | none => { s with power.seqCause := some cause, power.lastCause := cause, power.held := [cause], power.total := satAdd 32 s.power.total 1 }
  | some c =>
    let w := if causeBefore s cause c then cause else c
    { s with power.seqCause := some w, power.lastCause := w, power.held := cause :: s.power.held }

/-- Assert a cause (R537 to R541): a sequence of equal or wider scope goes on, but for a boot that has
FAILED, which the cause retries (R552); a wider cause restarts it. -/
def assertCause (s : State) (cause : Nat) : State :=
  let scope := scopeOf s cause
  let goesOn : Bool := s.power.stage != 7 && s.power.seqCause.any (fun c => decide (scope ≤ scopeOf s c))
  let s := joinSequence (countCause s cause) cause
  if goesOn then s else assertDomains s (scopeDomains scope)

/-- The 12 V domains are powered: not in P3 or P4. -/
def logicPowered (s : State) : Bool := decide (s.power.pstate ≤ 2)

/-- A logic-side cause. -/
def logicCause (s : State) (cause : Nat) : State := if logicPowered s then assertCause s cause else s

/-- POR: the standby input rises; `vbackup` says whether the Oasis domain kept its supply (R537, R539, R546). -/
def execPor (vbackup : Bool) (s : State) : Host.Outcome State Fault Refusal :=
  let p := s.power
  let s := if vbackup then s else { s with
    power := { Power.reset with inReset := p.inReset, railsGood := p.railsGood, seqCause := p.seqCause, held := p.held, bootSrc := p.bootSrc, clkMode := p.clkMode }
    sec.sealLatched := false }
  .next (assertCause { s with power.pstate := 0 } 0)

/-- LOGIC_BROWNOUT. -/
def execLogicBrownout (s : State) : Host.Outcome State Fault Refusal := .next (logicCause (setRails s false) 1)

/-- Straps are sampled where the sequence holds POR or RESET_PIN (R542). -/
def sampleStraps (s : State) (bootSrc clkMode : Nat) : State :=
  if s.power.held.contains 0 ∨ s.power.held.contains 2 then
    let rejected : Bool := s.sec.lifecycle != 0 && clkMode % 4 == 3
    let mode := if rejected then 0 else clkMode % 4
    { s with
      power.bootSrc := bootSrc % 4, power.clkMode := mode, power.strapWarn := rejected
      power.clkActive := if s.power.inReset.contains 1 then mode else s.power.clkActive }
  else s

/-- Leave P3: the 12 V domains power up in the DEVICE scope; triggers resume from 1 ms after the resend (R546, R547). -/
def leaveStandby (s : State) : State :=
  { s with
    power.pstate := 0, power.target := 0, power.goal := 0, power.busy := false
    trig.outs := s.trig.outs.mapV (fun _ o => { o with resumeAt := s.now + 1000000 }) }

/-- RESET_PIN: in P3 it also wakes the device (R537, R546). -/
def execResetPin (s : State) : Host.Outcome State Fault Refusal :=
  if s.power.pstate = 4 then .next s
  else if s.power.pstate = 3 then .next (assertCause (leaveStandby s) 2)
  else .next (assertCause s 2)

/-- PCIE_FUNDAMENTAL: PERST_L. -/
def execPcieFundamental (s : State) : Host.Outcome State Fault Refusal := .next (logicCause s 3)

/-- PCIE_HOT: a hot reset or link disable. -/
def execPcieHot (s : State) : Host.Outcome State Fault Refusal := .next (logicCause s 4)

/-- The RCU answers the host: PCIe is out of reset (R551). -/
def pcieUp (s : State) : Bool := logicPowered s && !s.power.inReset.contains 3

/-- HOST_DEVICE_CMD: device in RCU_CMD, by the PF only (R556). -/
def execHostDeviceCmd (did : Nat) (s : State) : Host.Outcome State Fault Refusal :=
  if did = 2 ∧ pcieUp s then .next (assertCause s 5) else .next s

/-- A stream read by guarded work uses an Ethernet port (R538). -/
def portGuarded (s : State) (p : Nat) : Bool :=
  s.cfg.streams.any (fun x => !x.2.field && streamGuarded s x.1 && (s.ing.partners.find x.2.source).any (fun q => q.port == p))

/-- A UNIT reset is refused in SERVICE (R538). -/
def unitResetRefused (s : State) (target : Nat) : Bool :=
  s.sec.lifecycle == 2 && ((decide (target < 72) && (engineOf s target).reservedGuarded) || (decide (96 ≤ target) && decide (target ≤ 105) && portGuarded s (target - 96)))

/-- Take a unit out and start its readmission, which does not count towards readmit_max (R538). -/
def resetOneUnit (s : State) (u : Nat) : State :=
  let x := unitSafe s u
  let s := isolateUnit (setUnit s u { x with service := 2, cause := 0, outs := satAdd 8 x.outs 1, blocked := false, test := .none, step := 1 }) u
  recordOut s u none

/-- One target of HOST_UNIT_CMD (R556): a unit, an Ethernet port, an Octur port. -/
def resetTarget (s : State) (t : Nat) : State :=
  if t < 88 then resetOneUnit s t
  else if 96 ≤ t ∧ t ≤ 105 then
    let p := t - 96
    let x := Tbl.at IngPort.reset s.ing.ports p
    let s := icuSet { s with ing.ports := s.ing.ports.put p { x with linkUp := false } } (162 + p) false
    if x.speed = 0 then s else emit (emit s (.pin (pinTxDis p) 1)) (.pin (pinTxDis p) 0)
  else if 112 ≤ t ∧ t ≤ 115 then
    let x := octPort s (t - 112)
    icuSet { s with oct.ports := s.oct.ports.put (t - 112) { x with st := .training, replayCount := 0, seq := 0, unacked := [] } } (172 + (t - 112)) false
  else s

/-- The target names a unit or a port. -/
def targetKnown (t : Nat) : Bool := decide (t < 88) || (decide (96 ≤ t) && decide (t ≤ 105)) || (decide (112 ≤ t) && decide (t ≤ 115))

/-- HOST_UNIT_CMD: unit in RCU_CMD, by the PF only. -/
def execHostUnitCmd (did : Nat) (s : State) : Host.Outcome State Fault Refusal :=
  let t := s.power.rcuTarget
  if did ≠ 2 ∨ !pcieUp s ∨ !targetKnown t then .next s
  else if unitResetRefused s t then .next { s with power.rcuLast := stNotAuth }
  else
    let s := countCause s 6
    let s := match s.power.seqCause with
      | none => { s with power.lastCause := 6, power.total := satAdd 32 s.power.total 1 }
      | some _ => s
    .next (resetTarget s t)

/-- A reset command of an Octur peer is accepted (R538, R582). -/
def octurAccepts (s : State) (did : Nat) : Bool := s.power.octurResetEn && did == 1

/-- OCTUR_CMD: accepted, or dropped with OCTUR_RESET_REFUSED. -/
def execOcturCmd (module did : Nat) (s : State) : Host.Outcome State Fault Refusal :=
  if octurAccepts s did then .next (logicCause s 7)
  else .next (raise s { reportOf s sevWarn 4 0x1200 0x0115 with did := did, detail := module })

/-- SAFE_WATCHDOG: after the expiry of the island's own watchdog (R454). -/
def execSafeWatchdog (s : State) : Host.Outcome State Fault Refusal :=
  if s.safe.fatal.any (fun f => f.1 == 2) then .next (logicCause s 9) else .next s

/-- SAFETY_ESCALATION: 100 ms after a FATAL with fatal_reset at 1, and after a lockstep mismatch (R460). -/
def execSafetyEscalation (s : State) : Host.Outcome State Fault Refusal :=
  match s.safe.fatal with
  | none => .next s
  | some (cause, _) =>
    if s.sec.image.any (·.fatalReset) ∨ cause = 1 then .next (logicCause (advanceUp s (s.safe.fatalAt + 100000000)) 8) else .next s

/-- THERMAL_TRIP. -/
def execThermalTrip (s : State) : Host.Outcome State Fault Refusal := .next (logicCause s 10)

/-- DEBUG_CMD: a reset request at INTRUSIVE, or the end of a boundary or production instruction (R537, R633, R636). -/
def execDebugCmd (s : State) : Host.Outcome State Fault Refusal :=
  if s.dbg.level = 2 ∨ s.dbg.boundary ∨ s.dbg.production then
    .next (logicCause { s with dbg.boundary := false, dbg.production := false } 11)
  else .next s

/-! ### Oasis counters (R543, R544) -/

/-- OAS_CLEAR: clear in OAS_CMD. -/
def execOasClear (did : Nat) (s : State) : Host.Outcome State Fault Refusal :=
  if did ≠ 1 ∧ did ≠ 2 then .next s
  else if !maintOpen s did ∨ s.sec.lifecycle = 3 then .next { maintRefuse s with power.oasStatus := stNotAuth }
  else
    let s := maintAccept s did
    .next { s with
      power := { s.power with counts := [], total := 0, lastCause := 0, fresh := false, timeResets := 0, overrides := 0, sealBreaks := 0, fieldBrownouts := 0, oasStatus := 0 }
      fld.brownouts := 0 }

end Sys2Proof.Machine
end

