-- ==== Sys2Proof/Machine/Octur.lean ====
section
/-! DEFINITION. The Octur link (spec/24_plant_ports_octur.md R572 to R582; remote knot signals of spec/04_queues_knots.md R99). -/

namespace Sys2Proof

/-- Fields of a packet (R574). -/
def OctPacket.f (p : OctPacket) (byte bit len : Nat) : Nat := bitsOf p.header.toNat (8 * byte + bit) len
def OctPacket.type (p : OctPacket) : Nat := p.f 0 0 4
def OctPacket.guarded (p : OctPacket) : Bool := p.header.toNat.testBit 6
def OctPacket.dst (p : OctPacket) : Nat := p.f 1 0 4
def OctPacket.src (p : OctPacket) : Nat := p.f 1 4 4
def OctPacket.did (p : OctPacket) : Nat := p.f 2 0 4
def OctPacket.len (p : OctPacket) : Nat := 4 * p.f 3 0 7
def OctPacket.tag (p : OctPacket) : Nat := p.f 4 0 16
def OctPacket.addr (p : OctPacket) : Nat := p.f 6 0 48
def OctPacket.op (p : OctPacket) : Nat := p.f 12 0 32
def OctPacket.status (p : OctPacket) : Nat := p.f 12 0 8

end Sys2Proof

namespace Sys2Proof.Machine

/-- A port takes a state, and its interrupt source follows the link (R496). -/
def setOct (s : State) (p : Nat) (x : OctPort) : State := icuSet { s with oct.ports := s.oct.ports.put p x } (172 + p) (x.st == .up)

/-- A report of the OCT unit. -/
def octReport (s : State) (event port : Nat) : Report := reportOf s sevWarn 4 (0x1200 + port) event

/-! ### Ports (R572, R573, R576) -/

/-- Next index of a dimension: none past an edge without a wrap. -/
def octStep (i n : Nat) (plus ring : Bool) : Option Nat :=
  if plus then (if i + 1 < n then some (i + 1) else if ring then some 0 else none)
  else if 0 < i then some (i - 1) else if ring then some (n - 1) else none

/-- The neighbour at a port (R572). -/
def octNeighbour (o : Oct) (p : Nat) : Option Nat :=
  let nx := octDim o.cols
  let ny := octDim o.rows
  let x := o.module % nx
  let y := o.module / nx
  if p < 2 then (octStep x nx (p == 0) (o.torus && nx == 4)).map (fun x => y * nx + x)
  else (octStep y ny (p == 2) (o.torus && ny == 4)).map (fun y => y * nx + x)

/-- The opposite port. -/
def octOpposite (p : Nat) : Nat := if p % 2 = 0 then p + 1 else p - 1

/-- A port enters FAULT with a record (R573). -/
def octFault (s : State) (p event : Nat) : State :=
  let x := octPort s p
  raise (setOct s p { x with st := .fault, faultAt := s.up, retrains := satAdd 8 x.retrains 1, replayCount := 0 }) (octReport s event p)

/-- OCTUR_HELLO: a trained port sends its HELLO and takes its peer's: module, port, cols, rows and torus of the peer (R573). -/
def execOcturHello (port module peerPort cols rows : Nat) (torus : Bool) (s : State) : Host.Outcome State Fault Refusal :=
  let x := octPort s port
  let o := s.oct
  if 4 ≤ port ∨ !o.enable ∨ (x.st ≠ .training ∧ x.st ≠ .hello) ∨ s.dbg.tests (10 + 4 * port) 4 then .next s else
  let sent := octHeader 0 2 0 module o.module 1 0 0 0 0 (Config.freeWord s.fresh).toNat
  let s := emit (tickFresh (setOct s port { x with st := .hello, peerModule := module % 16, peerPort := peerPort % 4 })) (.packet port sent [])
  if octNeighbour o port = some module ∧ peerPort = octOpposite port ∧ cols = o.cols ∧ rows = o.rows ∧ torus = o.torus then
    .next (setOct s port { octPort s port with st := .up, seq := 0, unacked := [], replayCount := 0 })
  else .next (octFault s port 0x0171)

/-- OCTUR_RETRAIN: 10 ms after FAULT. -/
def execOcturRetrain (port : Nat) (s : State) : Host.Outcome State Fault Refusal :=
  let x := octPort s port
  if x.st ≠ .fault ∨ !s.oct.enable then .next s
  else .next (setOct (advanceUp s (x.faultAt + 10000000)) port { x with st := .training })

/-- OCTUR_REPLAY: a NAK for a packet: the sender replays from it; the eighth replay of one packet is a fault (R576). -/
def execOcturReplay (port seq : Nat) (s : State) : Host.Outcome State Fault Refusal :=
  let x := octPort s port
  let rest := x.unacked.dropWhile (fun u => u.1 ≠ seq)
  if x.st ≠ .up ∨ rest = [] then .next s
  else
    let count := if x.replayCount ≠ 0 ∧ x.replaySeq = seq then x.replayCount + 1 else 1
    let s := setOct s port { x with replays := satAdd 16 x.replays 1, replayCount := count, replaySeq := seq }
    let s := rest.foldl (fun s u => emit s (.packet port u.2.1 u.2.2)) s
    if 8 ≤ count then .next (octFault s port 0x0170) else .next s

/-- OCTUR_ACK_TIMEOUT: 1 ms without a link acknowledgement (R576). -/
def execOcturAckTimeout (port : Nat) (s : State) : Host.Outcome State Fault Refusal :=
  let x := octPort s port
  if x.st ≠ .up ∨ x.unacked = [] then .next s else .next (octFault s port 0x0170)

/-! ### Packets (R574, R575) -/

/-- A packet arrives for this module: a bad CRC is counted and answered with a NAK (R576); a type that R575 does not list is dropped and counted. -/
def octTake (s : State) (p : OctPacket) (type : Nat) (act : State → State) : State :=
  let x := octPort s p.port
  if x.st ≠ .up ∨ 4 ≤ p.port then s
  else if !p.crcOk then emit (setOct s p.port { x with crc := satAdd 16 x.crc 1 }) (.nak p.port)
  else if 9 < p.type then { s with oct.otherTypes := s.oct.otherTypes + 1 }
  else if p.type ≠ type ∨ p.dst ≠ s.oct.module then s
  else act s

/-- Answer a packet to its sender; an answer that meets a port that is not UP is lost (R577). -/
def octAnswer (s : State) (p : OctPacket) (type vc len op : Nat) (payload : List Byte) : State :=
  match (octRoute s.oct p.src).filter (fun q => (octPort s q).st == .up) with
  | some q => octSend s q (octHeader type vc (if p.guarded then 1 else 0) p.src s.oct.module p.did 0 len p.tag p.addr op) payload
  | none => s

/-- Physical addresses of local DRAM (R414, R426). -/
def dramHas (a n : Nat) : Bool := decide (a + n ≤ 0x3800000000)

/-- The checks of a remote access at the peer (R426, R433): its status. -/
def octCheck (s : State) (p : OctPacket) (write : Bool) (n : Nat) : Nat :=
  if !dramHas p.addr n then stTranslation else if fwAllows s p.did p.addr write p.guarded then stOk else stFirewall

/-- The record of a denied remote access, in the firewall and in MMU_FAULT of the sender's DID (R431, R433). -/
def octDenied (s : State) (p : OctPacket) (write : Bool) (st : Nat) : State :=
  let s := if st = stFirewall then countDenial s p.addr else s
  memFault s { did := p.did, guarded := p.guarded, kind := 4, index := 0x1200 + p.port, flows := [] } p.addr write st 0

/-- RD_REQ: a remote read, answered with status and data; `held`: the ingress budget held it back (R578, R580). -/
def execRdReq (p : OctPacket) (held : Bool) (s : State) : Host.Outcome State Fault Refusal :=
  .next (octTake s p 1 fun s =>
    let s := if held then { s with oct.throttled := true } else s
    let st := octCheck s p false p.len
    if st ≠ stOk then octAnswer (octDenied s p false st) p 2 1 0 st []
    else
      let s := cacheTouch s p.did p.guarded false p.addr p.len
      match poisonedIn s p.addr p.len with
      | some l => octAnswer (raiseUe s (l * 64) p.guarded p.did []) p 2 1 0 stInternal []
      | none => octAnswer s p 2 1 (p.len / 4) stOk (Memory.reads s.mem (Space.key .dram p.addr) p.len))

/-- WR_REQ: a remote write, applied and acknowledged (R99, R578). -/
def execWrReq (p : OctPacket) (held : Bool) (s : State) : Host.Outcome State Fault Refusal :=
  .next (octTake s p 3 fun s =>
    let s := if held then { s with oct.throttled := true } else s
    let st := octCheck s p true p.payload.length
    if st ≠ stOk then octAnswer (octDenied s p true st) p 4 1 0 st [] else octAnswer (dramWrite (cacheTouch s p.did p.guarded true p.addr p.payload.length) p.addr p.payload) p 4 1 0 stOk [])

/-- The outstanding request that an answer names. -/
def octRequestOf (s : State) (p : OctPacket) : Option OctReq := s.oct.requests.find? (fun r => r.tag == p.tag && r.module == p.src)

/-- A request is over; signals that waited for it may leave. -/
def octDone (s : State) (r : OctReq) : State := dueHeld { s with oct.requests := s.oct.requests.erase r }

/-- RD_RESP: the access it completes ends; its data and status were those of the access (R578). -/
def execRdResp (p : OctPacket) (s : State) : Host.Outcome State Fault Refusal :=
  .next (octTake s p 2 fun s => match octRequestOf s p with
    | some r => if r.kind = .read then octDone s r else s
    | none => s)

/-- WR_ACK. -/
def execWrAck (p : OctPacket) (s : State) : Host.Outcome State Fault Refusal :=
  .next (octTake s p 4 fun s => match octRequestOf s p with
    | some r => if r.kind = .write then octDone s r else s
    | none => s)

/-- KNOT_ADD: a remote signal; a denial is dropped, and logged with status FIREWALL (R99). -/
def execKnotAdd (p : OctPacket) (s : State) : Host.Outcome State Fault Refusal :=
  .next (octTake s p 5 fun s =>
    let k := p.f 6 0 13
    if signalCheck s p.did p.guarded k = stOk then octAnswer (applySignal s { knot := k, set := false, value := BitVec.ofNat 32 p.op, did := 16 + p.src, unit := 0, index := 0 }) p 6 2 0 stOk []
    else
      let s := raise s { reportOf s sevWarn 8 k stFirewall with status := stFirewall, guarded := p.guarded, did := p.did }
      octAnswer s p 6 2 0 stFirewall [])

/-- KNOT_ACK: a refusal is reported (R579). -/
def execKnotAck (p : OctPacket) (s : State) : Host.Outcome State Fault Refusal :=
  .next (octTake s p 6 fun s => match octRequestOf s p with
    | some r => match r.kind with
      | .knot k g => let s := octDone s r
                     if p.status = stOk then s else raiseUndelivered s r.module k r.did g
      | _ => s
    | none => s)

/-- OCTUR_REQUEST_TIMEOUT: no answer within 100 µs (R578, R579, R582). A signal that an unacknowledged write of its work held never leaves (R99). -/
def execOcturRequestTimeout (tag : Nat) (s : State) : Host.Outcome State Fault Refusal :=
  match s.oct.requests.find? (fun r => r.tag == tag) with
  | none => .next s
  | some r =>
    let s := advanceUp s (r.issued + 100000)
    let s := octDone { s with oct.held := s.oct.held.filter (fun h => !(r.kind == .write && some h.src == r.src && h.module.all (· == r.module))) } r
    match r.kind with
    | .knot k g => .next (raiseUndelivered s r.module k r.did g)
    | .reset d => .next (finishDesc (raiseUnreachable s r.module r.did) d stTranslation 0 0 0)
    | _ => .next (raiseUnreachable s r.module r.did)

/-- OCTUR_PACKET_FORWARD: a packet in transit leaves at the next port of its route, or is unreachable and ends here (R577). -/
def execOcturPacketForward (p : OctPacket) (s : State) : Host.Outcome State Fault Refusal :=
  let x := octPort s p.port
  if x.st ≠ .up ∨ 4 ≤ p.port ∨ p.dst = s.oct.module then .next s
  else if !p.crcOk then .next (emit (setOct s p.port { x with crc := satAdd 16 x.crc 1 }) (.nak p.port))
  else if 9 < p.type then .next { s with oct.otherTypes := s.oct.otherTypes + 1 }
  else match (octRoute s.oct p.dst).filter (fun q => (octPort s q).st == .up) with
    | some q => .next (octSend s q (BitVec.ofNat 128 (setBits p.header.toNat 20 4 (p.f 2 4 4 + 1))) p.payload)
    | none => .next s

/-! ### Time (R581) -/

/-- The module takes its time from the Octur link. -/
def octurTimed (s : State) : Bool := servoSource s == 3

/-- The servo may take samples of the Octur link: from its source, or in HOLDOVER from its backup (R104, R106). -/
def octurHeard (s : State) : Bool := octurTimed s || (s.tb.servo == .holdover && s.tb.srcBackup == 3)

/-- Distance that a module sends: 15 without a valid time. -/
def octDistance (s : State) : Nat :=
  if s.tb.servo = .freerun then 15 else if octurTimed s then s.oct.distance else 0

/-- OCTUR_TIME_SEND: every UP port sends a TIME packet with the module's distance. -/
def execOcturTimeSend (s : State) : Host.Outcome State Fault Refusal :=
  let s := if octurTimed s then s else { s with oct.distance := octDistance s }
  .next ((List.range 4).foldl (fun s p =>
    let x := octPort s p
    if x.st = .up then octSend s p (octHeader 7 2 0 x.peerModule s.oct.module 1 0 0 0 0 (octDistance s)) [] else s) s)

/-- TIME: a TIME packet, with the four time-stamps of the exchange in units of 2^-16 ns and the step generations of both sides. -/
def execTime (p : OctPacket) (ta tb tc td : Int) (genA genB : Nat) (s : State) : Host.Outcome State Fault Refusal :=
  let ok := octTake s p 7 fun s =>
    let dist := p.op % 16
    if !octurHeard s ∨ p.port ≠ s.tb.octurPort then s
    else
      let s := if octurTimed s then { s with oct.distance := min 15 (dist + 1) } else s
      if 15 ≤ dist ∨ genA ≠ genB then s
      else
        let theta := ((tb - ta) - (td - tc)) / 2 - (BitVec.ofNat 32 (octPort s p.port).asym).toInt
        servoSample s 3 theta
  .next ok

/-! ### Resets (R582) -/

/-- What R70 checks of OctReset. -/
def infoOctReset (_ : State) (d : Desc) : OpInfo :=
  { fields := [(16, 0, 4)], authority := d.did == 1 }

/-- OCT_RESET: DID 1 resets a peer module. -/
def execOctReset (d : Desc) (s : State) : Host.Outcome State Fault Refusal :=
  .next (runDesc s d (infoOctReset s d) fun s =>
    let m := dfld d 16 0 4
    match (octRoute s.oct m).filter (fun p => (octPort s p).st == .up) with
    | none => failWith (raiseUnreachable s m d.did) stTranslation
    | some p =>
      let tag := s.oct.nextTag % 65536
      let r : OctReq := { tag := tag, module := m, did := d.did, kind := .reset d, issued := s.up, src := none }
      .later (octSend { s with oct.nextTag := s.oct.nextTag + 1, oct.requests := s.oct.requests ++ [r] } p (octHeader 8 2 0 m s.oct.module d.did 0 0 tag 0 0) []))

/-- RESET_CMD: the target answers, then resets (R538, R582). -/
def execResetCmd (p : OctPacket) (s : State) : Host.Outcome State Fault Refusal :=
  .next (octTake s p 8 fun s =>
    if octurAccepts s p.did then logicCause (octAnswer s p 9 2 0 stOk []) 7
    else
      let s := raise s { reportOf s sevWarn 4 0x1200 0x0115 with did := p.did, detail := p.src }
      octAnswer s p 9 2 0 stFirewall [])

/-- RESET_ACK completes the OCT_RESET. -/
def execResetAck (p : OctPacket) (s : State) : Host.Outcome State Fault Refusal :=
  .next (octTake s p 9 fun s => match octRequestOf s p with
    | some r => match r.kind with
      | .reset d => finishDesc (octDone s r) d (if p.status = stOk then stOk else stNotAuth) 0 0 0
      | _ => s
    | none => s)

end Sys2Proof.Machine
end

