-- ==== Sys2Proof/Machine/Plant.lean ====
section
/-! DEFINITION. Quiet mode and the publications of the plant ports (spec/24_plant_ports_octur.md R559 to R571). -/

namespace Sys2Proof.Machine

/-! ### Configuration (R565 to R567) -/

/-- Bytes of a source format and of a UADP type (R567). -/
def srcBytes (c : Nat) : Nat := if c = 0 ∨ c = 3 then 4 else if c = 5 ∨ c = 6 then 1 else 2
def uadpBytes (c : Nat) : Nat := if c = 1 then 8 else if c = 3 then 2 else if c = 4 then 1 else 4

/-- Bytes of the lead fields: epoch index, age, status, flags. -/
def leadBytes (lead : Nat) : Nat := (if lead.testBit 0 then 8 else 0) + (if lead.testBit 1 then 4 else 0) + (if lead.testBit 2 then 1 else 0) + (if lead.testBit 3 then 1 else 0)

/-- UDP payload of a message (R566, R569). -/
def pubPayload (lead : Nat) (fields : List (Nat × Nat × Nat × Nat)) : Nat :=
  34 + leadBytes lead + (fields.map (fun f => uadpBytes f.2.2.1)).foldl (· + ·) 0

/-- Frame bytes from destination address to FCS (R562): a VLAN tag where the port's vlan_en is set. -/
def pubFrame (s : State) (port : Nat) (ip6 : Bool) (payload : Nat) : Nat :=
  14 + (if (ingPort s (8 + port)).vlanEn then 4 else 0) + (if ip6 then 40 else 20) + 8 + payload + 4

/-- A field list's entries (R567). -/
def listEntries (bs : List Byte) (n : Nat) : List (Nat × Nat × Nat × Nat) :=
  (List.range n).map (fun i => let e := (bs.drop (16 + 8 * i)).take 8
    (ofLe (e.take 4), (e.getD 4 0).toNat, (e.getD 5 0).toNat, (e.getD 6 0).toNat))

/-- Bytes that a field may reach: the slot of an advisory flow, or of a grid's output with the region table at its level 0 place. -/
def pubSlot (s : State) (flow size : Nat) : Nat × Nat :=
  match ((s.cfg.flows.find flow).bind (·.grid)).bind s.cfg.grids.find with
  | some x => match x.out with
    | some o => (outSize x o, outCells x o 0)
    | none => (0, 0)
  | none => (size, 0)

/-- The entries lie in their ranges and inside the slot; base 1 is for grid flows (R567). -/
def entriesOk (s : State) (flow size : Nat) (bs : List Byte) (n : Nat) : Bool :=
  let grid : Bool := (s.cfg.flows.find flow).any (·.grid.isSome)
  let slot := pubSlot s flow size
  (listEntries bs n).all (fun f => decide (f.2.1 ≤ 6) && decide (f.2.2.1 ≤ 4) && (f.2.2.2 == 0 || (f.2.2.2 == 1 && grid))
    && decide ((if f.2.2.2 = 1 then slot.2 else 0) + f.1 + srcBytes f.2.1 ≤ slot.1))
    && (List.range n).all (fun i => (bs.getD (16 + 8 * i + 7) 0) == 0)

/-- A flow is guarded, or the publication comes from the image (R565). -/
def pubDenied (s : State) (k : Nat) (flow : Option Nat) : Bool :=
  (s.cfg.pubs.find k).any (·.image) || flow.any (fun f => (s.cfg.flows.find f).any (·.guarded))

def pubWho (did k : Nat) (guarded : Bool) (flow : Nat) : Who := { did := did, guarded := guarded, kind := 4, index := 0x1100 + k, flows := [flow] }

/-- What R70 checks of PubConfig. -/
def infoPubConfig (_ : State) (d : Desc) : OpInfo :=
  { fields := [(16, 0, 8), (17, 0, 5), (18, 0, 12), (20, 0, 4), (22, 0, 9), (24, 0, 48), (32, 0, 48), (38, 0, 16), (40, 0, 128), (56, 0, 48)], authority := didHost d }

/-- PUB_CONFIG (R566, R567). -/
def execPubConfig (d : Desc) (s : State) : Host.Outcome State Fault Refusal :=
  .next (runDesc s d (infoPubConfig s d) fun s =>
    let k := dfld d 16 0 7
    let flow := dfld d 18 0 12
    let n := dfld d 22 0 9
    let va := dfld d 24 0 48
    if pubDenied s k (some flow) then failWith s stNotAuth
    else if (s.cfg.flows.find flow).isNone ∨ n = 0 ∨ 256 < n ∨ va % 8 ≠ 0 ∨ dfld d 56 0 16 = 0 ∨ dfld d 58 0 16 = 0 then failWith s stDescInvalid
    else
      let r := devRead s (pubWho d.did k false flow) va (16 + 8 * n)
      let s := r.2.2
      let ip6 := dbit d 17 1
      let size := ofLe ((r.2.1.drop 8).take 4)
      let count := (r.2.1.getD 12 0).toNat
      let plain : Bool := (s.cfg.flows.find flow).any (·.grid.isNone)
      let fs := listEntries r.2.1 n
      let len := pubPayload (dfld d 20 0 4) fs
      if r.1 ≠ stOk then failWith s r.1
      else if ofLe ((r.2.1.drop 13).take 3) ≠ 0 ∨ (plain ∧ count = 0) ∨ !entriesOk s flow size r.2.1 n ∨ (if ip6 then 1452 else 1472) < len then failWith s stDescInvalid
      else
        let udp := dfld d 38 0 16
        let frame := pubFrame s (dfld d 17 0 1) ip6 len
        let p : Publication :=
          { enable := dbit d 16 7, port := dfld d 17 0 1, ip6 := ip6, pcp := dfld d 17 2 3, flow := flow, lead := dfld d 20 0 4, dstMac := dfld d 32 0 48
            udpDst := if udp = 0 then 4840 else udp, dstIp := dfld d 40 0 128, writerGroup := dfld d 56 0 16, writer := dfld d 58 0 16
            utcOffset := dfld d 60 0 16, base := ofLe (r.2.1.take 8), slotSize := size, slots := count, fields := fs, did := d.did, guarded := false
            image := false, frameBytes := frame }
        okWith { s with cfg.pubs := s.cfg.pubs.put k p } frame)

/-- What R70 checks of PubRemove. -/
def infoPubRemove (_ : State) (d : Desc) : OpInfo :=
  { fields := [(16, 0, 7)], authority := didHost d }

/-- PUB_REMOVE (R565); one that is not configured is gone already (R70). -/
def execPubRemove (d : Desc) (s : State) : Host.Outcome State Fault Refusal :=
  .next (runDesc s d (infoPubRemove s d) fun s =>
    let k := dfld d 16 0 7
    if pubDenied s k none then failWith s stNotAuth
    else okWith { s with cfg.pubs := s.cfg.pubs.drop k } 0)

/-! ### Assembly (R567 to R570) -/

/-- Value of a source field. -/
def srcValue (c v : Nat) : FVal :=
  match c with
  | 0 => decodeF fp32 v
  | 1 => decodeF bf16 v
  | 2 => decodeF fp16 v
  | 3 => intV (signed 32 v)
  | 4 => intV (signed 16 v)
  | 5 => intV (signed 8 v)
  | _ => intV v

/-- An unsigned byte, saturating; NaN gives 0 (R338). -/
def convByte (x : FVal) : Nat :=
  match x with
  | .nan _ => 0
  | .inf neg => if neg then 0 else 255
  | .fin neg m e => (max 0 (min 255 (toIntRne neg m e).1)).toNat

/-- A value in a UADP type, little-endian (R567). -/
def uadpValue (type : Nat) (x : FVal) : List Byte :=
  match type with
  | 0 => leBytes 4 (convF fp32 .saturate none x).1
  | 1 => leBytes 8 (convF fp64 .saturate none x).1
  | 2 => leBytes 4 (convI 32 x).1
  | 3 => leBytes 2 (convI 16 x).1
  | _ => leBytes 1 (convByte x)

/-- The slot that a record of epoch `n` fills, its bytes and the context it is read in (R267, R441, R567). -/
def pubArea (s : State) (c : Cfg) (p : Publication) (n : Nat) : Option (Nat × Nat) :=
  match ((c.flows.find p.flow).bind (·.grid)).bind c.grids.find with
  | some x => x.out.map (fun o => (o.base + n % o.slots * outSize x o, o.did))
  | none =>
    match imageFlow s p.flow with
    | some x => if x.outSlots = 0 then none else some (slotAt x n, x.did)
    | none => if p.slots = 0 then none else some (p.base + n % p.slots * p.slotSize, p.did)

/-- Start of the region table copy in a grid output record, from its header (R268). -/
def regionStart (h : List Byte) : Nat :=
  let e := if ofLe ((h.drop 25).take 1) = 0 then 4 else 2
  (64 + ofLe ((h.drop 28).take 2) * ofLe ((h.drop 30).take 2) * ofLe ((h.drop 44).take 2) * e + 63) / 64 * 64

/-- Read the fields of a list in order: status, their UADP bytes. -/
def readFields (w : Who) (slot region : Nat) : List (Nat × Nat × Nat × Nat) → State → Nat × List Byte × State
  | [], s => (stOk, [], s)
  | f :: fs, s =>
    let r := devRead s w (slot + (if f.2.2.2 = 1 then region else 0) + f.1) (srcBytes f.2.1)
    if r.1 ≠ stOk then (r.1, [], r.2.2) else
    let x := readFields w slot region fs r.2.2
    (x.1, uadpValue f.2.2.1 (srcValue f.2.1 (ofLe r.2.1)) ++ x.2.1, x.2.2)

/-- Status bits of a record (R570). -/
def uadpStatus (st : Nat) : Nat := if st = 0 then 0 else if st < 0x10 then 0x4000 else 0x8000

/-- Lead fields of a record. -/
def leadFields (lead : Nat) (x : FlowResult) : List Byte :=
  (if lead.testBit 0 then leBytes 8 x.epoch else []) ++ (if lead.testBit 1 then leBytes 4 x.age else [])
    ++ (if lead.testBit 2 then leBytes 1 x.status else []) ++ (if lead.testBit 3 then leBytes 1 x.flags else [])

/-- OPC UA DateTime of a time of validity (R570). -/
def pubTime (tov utcOffset : Nat) : Nat := unsigned 64 (((tov : Int) - utcOffset * 1000000000) / 100 + 116444736000000000)

/-- NetworkMessage header of 20 bytes and DataSetMessage header of 14 (R569; the coding of their flag bytes is that of IEC 62541-14). -/
def uadpHeaders (publisher seq : Nat) (p : Publication) (x : FlowResult) : List Byte :=
  leBytes 1 0xF1 ++ leBytes 1 2 ++ leBytes 4 publisher ++ leBytes 1 0x0F ++ leBytes 2 p.writerGroup ++ leBytes 4 0 ++ leBytes 2 1 ++ leBytes 2 seq
    ++ leBytes 1 1 ++ leBytes 2 p.writer ++ leBytes 1 0x9B ++ leBytes 1 0x10 ++ leBytes 2 x.epoch ++ leBytes 8 (pubTime x.tov p.utcOffset)
    ++ leBytes 2 (uadpStatus x.status)

/-- Put the message of a record behind its publication, over an unsent one (R568). -/
def putMessage (s : State) (k : Nat) (p : Publication) (x : FlowResult) (fields : List Byte) : State :=
  let q := plantPort s p.port
  let seq := Tbl.at 0 s.eth.seqs k
  let s := if (s.eth.pending.find k).isSome then setPlant s p.port { q with superseded := satAdd 16 q.superseded 1 } else s
  let m : Message :=
    { pub := k, port := p.port, tov := x.tov, guarded := p.guarded, pcp := p.pcp, dstMac := p.dstMac, ip6 := p.ip6, dstIp := p.dstIp, udpDst := p.udpDst
      bytes := uadpHeaders q.pubId seq p x ++ leadFields p.lead x ++ fields }
  { s with eth.seqs := s.eth.seqs.put k ((seq + 1) % 65536), eth.pending := s.eth.pending.put k m }

/-- The configuration in force that holds a publication of a flow (R28). -/
def pubConfig (s : State) (k : Nat) : Option (Cfg × Publication) :=
  let live := (s.live.filter (fun p => (cadOf s p.1).st == .running)).findSome? (fun p =>
    match p.2.pubs.find k with
    | some x => if (p.2.flows.find x.flow).any (fun f => f.cadence == p.1) then some (p.2, x) else none
    | none => none)
  live.orElse (fun _ => (s.cfg.pubs.find k).map (fun x => (s.cfg, x)))

/-- PUBLICATION_ASSEMBLE: the message of a publication for the latest record of its flow (R568 to R571). -/
def execPublicationAssemble (pub : Nat) (s : State) : Host.Outcome State Fault Refusal :=
  match pubConfig s pub with
  | none => .next s
  | some (c, p) =>
    match (histOf s p.flow).latest, pubArea s c p (((histOf s p.flow).latest.map (·.epoch)).getD 0) with
    | some x, some a =>
      if !p.enable ∨ !(plantPort s p.port).txEn ∨ (p.guarded ∧ s.safe.fatal.isSome) ∨ s.eth.taken.find pub = some (x.epoch, x.at_) then .next s else
      let s := { s with eth.taken := s.eth.taken.put pub (x.epoch, x.at_) }
      if 0x10 ≤ x.status then .next (putMessage s pub p x (List.replicate ((p.fields.map (fun f => uadpBytes f.2.2.1)).foldl (· + ·) 0) 0))
      else
        let w := pubWho a.2 pub p.guarded p.flow
        let h := if p.fields.any (fun f => f.2.2.2 == 1) then devRead s w a.1 64 else (stOk, [], s)
        if h.1 ≠ stOk then .next h.2.2 else
        let r := readFields w a.1 (regionStart h.2.1) p.fields h.2.2
        if r.1 ≠ stOk then .next r.2.2 else .next (putMessage r.2.2 pub p x r.2.1)
    | _, _ => .next s

/-! ### Transmission (R560 to R563) -/

/-- Close of the union of windows from one close on, in µs of the quiet cycle: windows that overlap extend it (R560; log entry 105). -/
def windowClose (wins : List (Nat × Nat)) : Nat → Nat → Nat
  | 0, c => c
  | fuel + 1, c => windowClose wins fuel ((wins.filter (fun w => decide (w.1 < c))).foldl (fun m w => max m w.2) c)

/-- Windows of a port as [open, close) in µs, cut at T (R560). -/
def windowsUs (x : PlantPort) : List (Nat × Nat) :=
  (x.wins.filter (fun w => w.2.2 ≠ 0)).map (fun w => (w.2.1 * 10, min x.period ((w.2.1 + w.2.2) * 10)))

/-- A transmission of `ns` from now fits inside the open windows: it ends before their union closes (R560, R563). -/
def windowFits (s : State) (x : PlantPort) (ns : Nat) : Bool :=
  let t := s.now / 1000 % x.period
  let opens := (windowsUs x).filter (fun w => decide (w.1 ≤ t) && decide (t < w.2))
  x.period != 0 && !opens.isEmpty
    && decide (s.now % (x.period * 1000) + ns < windowClose (windowsUs x) 3 (opens.foldl (fun m w => max m w.2) t) * 1000)

/-- A pending message may start now (R562, R563). -/
def eligible (s : State) (q : Nat) (m : Message) : Bool :=
  let x := plantPort s q
  let speed := (ingPort s (8 + q)).speed
  let l := pubFrame s q m.ip6 m.bytes.length
  m.port == q && x.txEn && x.rate != 0 && portUp s (8 + q) && decide (x.busyUntil ≤ s.up) && decide (l * 1000000 ≤ bucketNow s x)
    && windowFits s x (lineNs speed l)

/-- PUBLICATION_TRANSMIT: a plant port starts its first eligible message (R563). -/
def execPublicationTransmit (port : Nat) (s : State) : Host.Outcome State Fault Refusal :=
  let rank := fun (m : Nat × Message) => [if m.2.guarded then 0 else 1, m.2.tov, m.1]
  match leastBy rank (s.eth.pending.filter (fun m => eligible s port m.2)) with
  | none => .next s
  | some (k, m) =>
    let x := plantPort s port
    let l := pubFrame s port m.ip6 m.bytes.length
    let q := ingPort s (8 + port)
    let x := { x with
      bucket := bucketNow s x - l * 1000000, bucketAt := s.up, busyUntil := s.up + lineNs q.speed l
      sentMessages := satAdd 16 x.sentMessages 1 }
    let tag := if q.vlanEn then some (m.pcp * 8192 + q.vid) else none
    .next (emit { setPlant s port x with eth.pending := s.eth.pending.drop k } (.datagram port m.dstMac tag m.ip6 m.dstIp m.udpDst m.bytes))

end Sys2Proof.Machine
end

