-- ==== Sys2Proof/Machine/Arrive.lean ====
section
/-! DEFINITION. The arrival of a descriptor at its checks: from a ring or from a CALL (spec/03_host_rings.md R67 to R71, spec/12_engine_execution.md R299). -/

namespace Sys2Proof.Machine

/-- What R70 checks of the security, host interface, queue, knot and time base operations; none: no chapter defines the operation (R67). -/
def infoLow (s : State) (d : Desc) : Option OpInfo :=
  match dOpcode d with
  | 0x0300 => some (infoSecFwUpdate s d) | 0x0301 => some (infoSecImageLoad s d) | 0x0302 => some (infoSecKeyRotate s d)
  | 0x0303 => some (infoSecLifecycle s d) | 0x0304 => some (infoSecLock s d)
  | 0x0400 => some (infoNop s d) | 0x0401 => some (infoTimeMark s d) | 0x0402 => some (infoFlowConfig s d)
  | 0x0403 => some (infoFlowRing s d) | 0x0404 => some (infoFlowDelete s d)
  | 0x0500 => some (infoQCreate s d) | 0x0501 => some (infoQDestroy s d) | 0x0502 => some (infoQFlush s d) | 0x0503 => some (infoQQuery s d)
  | 0x0600 => some (infoKInit s d) | 0x0601 => some (infoKSignal s d) | 0x0602 => some (infoKRead s d) | 0x0603 => some (infoKFree s d)
  | 0x0700 => some (infoCadConfig s d) | 0x0701 => some (infoCadArm s d) | 0x0702 => some (infoCadStop s d)
  | 0x0703 => some (infoTrigConfig s d) | 0x0704 => some (infoActConfig s d) | 0x0705 => some (infoTrigMon s d)
  | 0x0706 => some (infoFlowCatchup s d)
  | _ => none

/-- The intake, splice, transform, Erg and sequence operations. -/
def infoMid (s : State) (d : Desc) : Option OpInfo :=
  match dOpcode d with
  | 0x0800 => some (infoPortConfig s d) | 0x0801 => some (infoPartnerSet s d) | 0x0802 => some (infoPartnerClear s d)
  | 0x0803 => some (infoStreamConfig s d) | 0x0804 => some (infoStreamEnable s d) | 0x0805 => some (infoUcodeLoad s d)
  | 0x0806 => some (infoTagMap s d) | 0x0807 => some (infoTestInject s d) | 0x0808 => some (infoTagRead s d) | 0x0809 => some (infoStreamDelete s d)
  | 0x0900 => some (infoSplStream s d) | 0x0901 => some (infoSplInputs s d) | 0x0902 => some (infoSplSnapshot s d)
  | 0x0A00 => some (infoXftEntry s d) | 0x0A01 => some (infoXftRig s d) | 0x0A02 => some (infoXftJoint s d) | 0x0A03 => some (infoXftMount s d)
  | 0x0A04 => some (infoXftEgo s d) | 0x0A05 => some (infoXftSetRef s d) | 0x0A06 => some (infoXftDelete s d)
  | 0x0B00 => some (infoErgVolume s d) | 0x0B01 => some (infoErgKnn s d) | 0x0B02 => some (infoErgFps s d) | 0x0B03 => some (infoErgRules s d)
  | 0x0B04 => some (infoErgBev s d)
  | 0x0C00 => some (infoSeqPool s d) | 0x0C01 => some (infoSeqCreate s d) | 0x0C02 => some (infoSeqDestroy s d) | 0x0C03 => some (infoSeqAppend s d)
  | 0x0C04 => some (infoSeqAttend s d) | 0x0C05 => some (infoSeqBias s d) | 0x0C06 => some (infoSeqTrim s d) | 0x0C07 => some (infoSeqInfo s d)
  | _ => none

/-- The solver, layout, grid, publication, Octur, field and memory operations. -/
def infoHigh (s : State) (d : Desc) : Option OpInfo :=
  match dOpcode d with
  | 0x0D00 => some (infoSlvSolve s d)
  | 0x0E00 => some (infoLytCopy s d) | 0x0E01 => some (infoLytGather s d) | 0x0E02 => some (infoLytScatter s d) | 0x0E03 => some (infoLytFill s d)
  | 0x0E80 => some (infoGridConfig s d) | 0x0E81 => some (infoGridSource s d) | 0x0E82 => some (infoGridOutput s d)
  | 0x0E83 => some (infoGridArea s d) | 0x0E84 => some (infoGridDelete s d)
  | 0x1100 => some (infoPubConfig s d) | 0x1101 => some (infoPubRemove s d) | 0x1200 => some (infoOctReset s d)
  | 0x1300 => some (infoFldBank s d) | 0x1301 => some (infoFldEnc s d) | 0x1302 => some (infoFldSerial s d) | 0x1303 => some (infoFldDin s d)
  | 0x1400 => some (infoMmuMap s d) | 0x1401 => some (infoMmuUnmap s d) | 0x1402 => some (infoMmuQuery s d) | 0x1403 => some (infoMmuFwSet s d)
  | _ => none

/-- Engine work, by the operation byte (R284). -/
def infoEng (s : State) (d : Desc) : Option OpInfo :=
  match dOpcode d % 256 with
  | 0 => some (infoEngProgLoad s d)
  | 1 => some (infoEngProgFree s d)
  | 2 => some (infoEngTask s d)
  | 3 => some (infoEngTaskBind s d)
  | 4 => some (infoEngTaskUnbind s d)
  | _ => none

/-- What R70 checks of an operation by its opcode. -/
def opInfo (s : State) (d : Desc) : Option OpInfo :=
  let u := dOpcode d / 256
  if 0x40 ≤ u ∧ u ≤ 0x46 then infoEng s d
  else if u < 0x08 then infoLow s d
  else if u < 0x0D then infoMid s d
  else infoHigh s d

/-- Status of the first of checks 1 to 3 of R70 that a descriptor fails on its arrival. -/
def arrivalStatus (s : State) (d : Desc) : Nat :=
  match opInfo s d with
  | none => stDescInvalid
  | some o => descChecks s d o

/-- A descriptor of a ring has arrived with its bytes (R70, R71). DESIGN CHOICE (log 124): the arrival writes the device part of the doorbell record. -/
def ringArrival (s : State) (f : Flight) (raw : BitVec 512) : State :=
  let d : Desc := ⟨.ring f.ring f.index, ringDid s false f.ring, raw⟩
  let g : Flight := { f with arrived := true, raw := raw, fenced := dFence d }
  let s := { s with hif.flights := s.hif.flights.map (fun h => if h.ring = f.ring ∧ h.index = f.index then g else h) }
  let s := writeDev (fetchDone s f.ring) false f.ring
  if (subRing s f.ring).stopping then finishDesc s d stAborted 0 0 0
  else if arrivalStatus s d ≠ stOk then finishDesc s d (arrivalStatus s d) 0 0 0
  else if dWaitEn d then registerWait s d
  else s

/-- The fetch of a descriptor failed: the ring, if RUNNING, goes to ERROR; the reservation ends (R63, R71). -/
def fetchFailed (s : State) (f : Flight) : State :=
  let s := dropFlight s f.ring f.index
  let s := match boundCom s f.ring with
    | some c => setCom s c { comRing s c with reserved := (comRing s c).reserved - 1 }
    | none => s
  if (subRing s f.ring).st = .running then ringError s false f.ring stTranslation else s

/-- The descriptor of a call reaches its unit, which accepts calls, under its thread's DID and class (R299). -/
def callArrival (s : State) (t : Nat) (c : CallSlot) : State :=
  let d : Desc := ⟨.call t c.slot, (threadWho s t).did, c.raw⟩
  let th := Tbl.at Thread.reset s.eng.threads t
  if !callUnit (dOpcode d / 256) then finishDesc s d stDescInvalid 0 0 0
  else if arrivalStatus s d ≠ stOk then finishDesc s d (arrivalStatus s d) 0 0 0
  else
    let s := { s with eng.threads := s.eng.threads.put t { th with calls := th.calls.map (fun x => if x.slot = c.slot then { x with arrived := true } else x) } }
    if dWaitEn d then registerWait s d else s

/-- DESCRIPTOR_ARRIVAL: a fetched descriptor arrives or its read failed, or the descriptor of a call reaches its unit (R63, R67, R70, R71, R299);
`index` is the
descriptor's index in its ring, or the call's slot, which holds its bytes. -/
def execDescriptorArrival (holder : DescHolder) (index : W32) (bytes : Option (BitVec 512)) (s : State) : Host.Outcome State Fault Refusal :=
  match holder with
  | .ring r =>
    match flightOf s r index with
    | none => .next s
    | some f =>
      if f.arrived then .next s else
      match bytes with
      | none => .next (fetchFailed s f)
      | some raw => .next (ringArrival s f raw)
  | .thread t =>
    match (Tbl.at Thread.reset s.eng.threads t).calls.find? (fun c => c.slot == index.toNat) with
    | none => .next s
    | some c => if c.arrived || c.done.isSome then .next s else .next (callArrival s t c)

end Sys2Proof.Machine
end

