-- ==== Sys2Proof/Machine/Boot.lean ====
section
/-! DEFINITION. Release and boot, and the power states (spec/23_reset_power_boot.md R539 to R552). -/

namespace Sys2Proof.Machine

/-! ### Release (R539, R540, R550) -/

/-- Boot step that the release of a domain is (R550). -/
def releaseStep (d : Domain) : Nat :=
  match d with
  | 0 => 2 | 1 => 3 | 2 => 4 | 3 => 5 | 4 => 6 | 5 => 7 | 6 => 10 | 7 => 11 | 8 => 11 | _ => 12

/-- The boot may release a domain now: CTL after training, the cores after step 9. -/
def mayRelease (s : State) (d : Domain) : Bool := if d = 5 then s.power.trained else if d = 6 then decide (9 ≤ s.power.step) else true

/-- Core memory pages: the top 24 of a core are its solver area, owned by DID 1; device firmware assigns the others, in a way the spec
does not give (R319, R395; log entry 135). -/
def assignedPages : Tbl (Nat × Bool) :=
  (List.range 384).map (fun k => (k, if 40 ≤ k % 64 then (1, true) else ((Config.corePage k).1 % 16, (Config.corePage k).2)))

/-- The units come up FENCED and run steps 2 to 5 (R493). -/
def fenceUnits (s : State) : State :=
  { s with safe.units := (List.range 88).foldl (fun t u => t.put u { UnitSafe.reset with startup := true, step := 2, born := s.up }) s.safe.units }

/-- What the release of a domain sets beside its reset values. -/
def releaseEffect (s : State) (d : Domain) : State :=
  match d with
  | 5 => { s with power.stage := 1, power.bank := s.sec.pendingBank.getD s.sec.activeBank, power.source := s.power.bootSrc
                  power.waitFrom := if s.power.bootSrc = 1 ∨ s.power.bootSrc = 2 then some s.up else none }
  | 6 => { fenceUnits s with eng.pages := assignedPages }
  | _ => s

/-- The end of a sequence: no domain is in reset any more (R543). -/
def endSequence (s : State) : State :=
  if s.power.inReset = [] then { s with power.seqCause := none, power.held := [] } else s

/-- The domains that may come up: without the logic rails only those on the switched rail, TIME and the field link (R616). -/
def releasable (s : State) (rails : Bool) : List Domain := if rails then s.power.inReset else s.power.inReset.filter (fun d => d == 1 || d == 9)

/-- DOMAIN_RELEASE: every held cause has cleared, the clock of the next domain is stable, and the domain before it has reported its release.
`rails` says whether the logic rails are good, without which LOGIC_BROWNOUT holds the domains
that they feed (R616). -/
def execDomainRelease (straps : Straps) (rails : Bool) (s : State) : Host.Outcome State Fault Refusal :=
  let s := setRails s rails
  match releasable s rails with
  | [] => .next s
  | d :: _ =>
    if (rails && !mayRelease s d) ∨ s.power.stage = 7 ∨ 2 < s.power.pstate then .next s else
    let s := if d = 0 ∨ d = 3 ∨ !rails then sampleStraps s straps.bootSrc straps.clkMode else s
    let rest := s.power.inReset.filter (fun x => x ≠ d)
    let s := releaseEffect { s with power.inReset := if d = 7 then rest.filter (· ≠ 8) else rest } d
    let booting : Bool := decide (s.power.step < 16) && rails
    let step := if d = 7 ∧ !rest.contains 9 then 12 else releaseStep d
    .next (endSequence (if booting then { s with power.step := step } else s))

/-! ### Boot steps (R514, R516, R549 to R552) -/

/-- Boot stops (R552). -/
def bootFail (s : State) (error : Nat) : State := { s with power.stage := 7, power.error := error, power.waitFrom := none }

/-- The image that the boot ROM looks at fails its verification (R514, R516). -/
def verifyFail (s : State) : State :=
  if s.power.bootSrc ≠ 0 then bootFail s 1
  else
    let b := s.power.bank
    let pend : Bool := s.sec.pendingBank == some b
    if pend ∧ 1 < s.sec.tries then { s with sec.tries := s.sec.tries - 1, power.step := 7, power.stage := 1 }
    else
      let s := if pend then { s with sec.tries := 0, sec.pendingBank := none, sec.badBanks := b :: s.sec.badBanks.filter (· ≠ b) } else s
      let failed := b :: s.power.failedBanks
      if failed.contains (1 - b) ∨ s.sec.badBanks.contains (1 - b) then bootFail { s with power.failedBanks := failed } 1
      else { s with power.failedBanks := failed, power.bank := 1 - b, power.step := 7, power.stage := 1 }

/-- The source's image is there: in flash, or behind boot_go, or handed over by an authenticated debug port (R549). -/
def sourceReady (s : State) : Bool :=
  if s.power.bootSrc = 0 then true else if s.power.bootSrc = 3 then s.dbg.source == 2 && decide (1 ≤ s.dbg.level) else s.power.bootGo

/-- Step 9: the processors and the island start (R453, R454, R461, R520, R542). -/
def startFirmware (s : State) : State :=
  let s := { s with
    sec.activeBank := s.power.bank, sec.fwSvn := Tbl.at 0 s.sec.bankSvn s.power.bank
    safe.running := true, safe.intakeUp := true, safe.beating := true, safe.beatAt := s.up, safe.fwBeat := some s.up }
  if s.power.strapWarn then raise { s with power.strapWarn := false } (reportOf s sevWarn 4 0x0100 0x0116) else s

/-- Step 14: contexts and firewall regions (R414, R423, R434). -/
def firmwareSetup (s : State) : State :=
  { s with
    mmu.ctx := (List.range 16).map (fun k => (k, { Context.reset with enable := true, root := (Config.contextRoot k) % 2 ^ 32 }))
    mmu.regions := (s.mmu.regions.put 0 { Region.reset with enable := true, base := 0x340000, limit := 0x37FFFF, rmask := 3, wmask := 3 }).put 64
      { Region.reset with enable := true, base := 0, limit := 0x33FFFF, rmask := 4, wmask := 4 } }

/-- Step 15: the stored image, under step 3 of R514. -/
def bootImage (s : State) (flashOk : Bool) : State :=
  match s.sec.stored with
  | none => s
  | some (i, digest, svn, lock) =>
    if flashOk ∧ (s.sec.lifecycle = 1 ∨ s.sec.lifecycle = 2) ∧ s.sec.storedGen = s.sec.safetyGen ∧ s.sec.fuseImage ≤ svn then applyImage s i digest svn lock
    else s

/-- Step 16: READY; the boot-success marks and the fuses (R514, R516). -/
def bootReadyNow (s : State) : State :=
  { s with
    bootReady := true, power.stage := 6, power.step := 16
    sec.pendingBank := if s.sec.pendingBank = some s.power.bank then none else s.sec.pendingBank
    sec.fuseFw := max s.sec.fuseFw s.sec.fwSvn, sec.fuseImage := if s.sec.image.isSome then max s.sec.fuseImage s.sec.imageSvn else s.sec.fuseImage }

/-- A controller's training attempt fails: the third ends the boot. -/
def trainFail (s : State) : State :=
  if 2 ≤ s.power.training then bootFail { s with power.training := 3 } 2 else { s with power.training := s.power.training + 1 }

/-- BOOT_STAGE_ADVANCE: the next step that is no release ends. `error`: 0 it succeeds; else, coded as GLB_BOOT.error, 1 a signature fails
(steps 8 and 9), 2 a training attempt fails (step 7), 3 the island fails its self-test, 5 the field die's firmware fails; 6 the stored image
fails its verification (step 15). -/
def execBootStageAdvance (error : Nat) (s : State) : Host.Outcome State Fault Refusal :=
  let k := s.power.step
  if s.power.stage = 7 ∨ 2 < s.power.pstate then .next s
  else if error = 3 ∧ 2 ≤ k ∧ !s.safe.running then .next (bootFail s 3)
  else if error = 5 ∧ 9 ≤ k ∧ k ≤ 15 then .next { s with power.error := 5 }
  else if k = 6 ∧ !s.power.trained then
    if error = 0 then .next { s with power.trained := true, mmu.mcs := (List.range 8).foldl (fun t m => t.put m { Tbl.at MemCtl.reset t m with trained := true, sweepAt := s.up }) s.mmu.mcs }
    else if error = 2 then .next (trainFail s) else .next s
  else if k = 7 then
    if !sourceReady s then .next s
    else if error = 0 then .next { s with power.step := 8, power.stage := 2, power.waitFrom := none }
    else if error = 1 then .next (verifyFail s) else .next s
  else if k = 8 then
    if error = 0 then .next { startFirmware s with power.step := 9, power.stage := 3, fldT.aFld := Config.fieldCal }
    else if error = 1 then .next (verifyFail s) else .next s
  else if k = 12 then .next { s with power.step := 13, power.stage := 4 }
  else if k = 13 then .next { firmwareSetup s with power.step := 14, power.stage := 5 }
  else if k = 14 then
    let s := bootImage s (decide (error ≠ 6))
    .next { s with power.step := 15 }
  else if k = 15 then .next (bootReadyNow s)
  else .next s

/-- BOOT_GO: boot_go in RCU_BOOT, by DID 1 or DID 2. -/
def execBootGo (did : Nat) (s : State) : Host.Outcome State Fault Refusal :=
  if (did = 1 ∨ did = 2) ∧ s.power.waitFrom.isSome then .next { s with power.bootGo := true } else .next s

/-- BOOT_SOURCE_TIMEOUT: 60 s without boot_go. -/
def execBootSourceTimeout (s : State) : Host.Outcome State Fault Refusal :=
  match s.power.waitFrom with
  | some t => if s.power.bootGo then .next s else .next (bootFail (advanceUp s (t + 60000000000)) 4)
  | none => .next s

/-! ### Power states (R545 to R548) -/

/-- Clocks of a state in MHz. -/
def clocksOf (p : Nat) : Nat × Nat := if p = 0 then (1250, 1500) else if p = 1 then (625, 750) else if p = 2 then (0, 750) else (0, 0)

/-- The debug level that a state allows (R528). -/
def levelAllowed (p level : Nat) : Nat := if p ≤ 1 then level else if p = 2 then min level 1 else 0

/-- Work that waited while the ENG clock stood starts again. -/
def resumeWork (s : State) : State := startLyt s.lyt.waiting.length (startPipes s.seq.waiting.length s)

/-- Enter a power state, with the record PSTATE_CHANGED (R528, R545, R554). -/
def enterState (s : State) (p reason : Nat) : State :=
  let was := s.power.pstate
  let s := if 3 ≤ p then closePresence s else s
  let s := raise s (chipReport s sevInfo 0x02 0x0162)
  let s := putLevel { s with power.pstate := p, power.reason := reason, power.engBase := engClock s, power.engSince := s.up, power.engMhz := (clocksOf p).1, power.ctlMhz := (clocksOf p).2 } (levelAllowed p s.dbg.level)
  let s := driveSafe s
  if was = 2 ∧ p ≤ 1 then resumeWork s else s

/-- All running work has ended or been abandoned (R546). -/
def workIdle (s : State) : Bool :=
  s.epochs.all (fun e => !e.unfinished) && s.eng.runs.isEmpty && s.seq.pipes.all (fun p => p.2.job.isNone)
    && s.slv.units.all (fun p => p.2.job.isNone) && s.lyt.engines.all (fun p => p.2.job.isNone) && s.geo.ergJobs.isEmpty && s.geo.ergRun.isEmpty

/-- PSTATE_REQUEST: a write of CPM_PSTATE by DID 1 or DID 2. -/
def execPstateRequest (did target : Nat) (s : State) : Host.Outcome State Fault Refusal :=
  if (did ≠ 1 ∧ did ≠ 2) ∨ !s.bootReady ∨ 3 < target ∨ (!s.power.busy ∧ target = s.power.pstate) then .next s
  else if s.power.busy then .next { s with power.target := target }
  else .next { s with power.target := target, power.goal := target, power.busy := true }

/-- A transition ends; a request made meanwhile is acted on now (R546). -/
def endTransition (s : State) : State :=
  if s.power.target = s.power.goal then { s with power.busy := false } else { s with power.goal := s.power.target, power.busy := s.power.target != s.power.pstate }

/-- Entry into P3: the wake time is copied, triggers stop, the 12 V domains enter DEVICE-scope reset; no cause counts (R546, R547). -/
def enterStandby (s : State) : State :=
  let s := setRails (enterState s 3 0) false
  let wake := s.power.wake
  let s := assertDomains { s with trig.outs := s.trig.outs.mapV (fun _ o => { o with activeUntil := none }) } (scopeDomains 2)
  { s with power.pstate := 3, power.wakeCopy := wake, power.engMhz := 0, power.ctlMhz := 0 }

/-- PSTATE_TRANSITION: the requested transition, or its pass through P2, is taken once its condition holds. -/
def execPstateTransition (s : State) : Host.Outcome State Fault Refusal :=
  let p := s.power.pstate
  let g := s.power.goal
  if !s.power.busy ∨ 2 < p then .next s
  else if g ≤ 1 then .next (endTransition (enterState s g 0))
  else if p ≤ 1 then
    if !workIdle s then .next s
    else
      let s := enterState s 2 0
      .next (if g = 2 then endTransition s else s)
  else if g = 2 then .next (endTransition s)
  else .next (enterStandby s)

/-- P3_WAKE: `cause` 0 WAKE_L, 1 the wake time, 2 a RESET_L pulse. -/
def execP3Wake (cause : Nat) (s : State) : Host.Outcome State Fault Refusal :=
  if s.power.pstate ≠ 3 then .next s
  else if cause = 0 then .next (leaveStandby s)
  else if cause = 1 then (if s.power.wakeCopy = 0 then .next s else .next (leaveStandby (advanceTo s s.power.wakeCopy)))
  else if cause = 2 then .next (assertCause (leaveStandby s) 2)
  else .next s

/-- STANDBY_LOSS: the standby input falls with VBACKUP present; POR is asserted, and only the Oasis domain runs (R537, R546). -/
def execStandbyLoss (s : State) : Host.Outcome State Fault Refusal :=
  if s.power.pstate = 4 then .next s
  else
    let s := setRails (assertCause s 0) false
    .next { s with power.pstate := 4, power.engMhz := 0, power.ctlMhz := 0 }

/-- A trim to P1 while P0 is requested. -/
def trim (s : State) (reason event : Nat) : State := enterState (raise s (chipReport s sevWarn 0x02 event)) 1 reason

/-- THERMAL_TRIM: the junction, in 1/16 °C, reaches 100 °C. -/
def execThermalTrim (junction : Nat) (s : State) : Host.Outcome State Fault Refusal :=
  let s := { s with power.junction := junction % 65536 }
  if s.power.pstate = 0 ∧ s.power.target = 0 ∧ s.bootReady ∧ 1600 ≤ junction ∧ junction < 32768 then .next (trim s 1 0x0160) else .next s

/-- POWER_TRIM: the input power over 100 ms, in 0.1 W, exceeds plimit. -/
def execPowerTrim (power : Nat) (s : State) : Host.Outcome State Fault Refusal :=
  let s := { s with power.power := power % 65536 }
  if s.power.pstate = 0 ∧ s.power.target = 0 ∧ s.bootReady ∧ s.power.plimit * 10 < power then .next (trim s 2 0x0161) else .next s

/-- TRIM_RELEASE: the junction and the power have been within their limits for 10 s. -/
def execTrimRelease (junction power : Nat) (s : State) : Host.Outcome State Fault Refusal :=
  let s := { s with power.junction := junction % 65536, power.power := power % 65536 }
  let cool : Bool := decide (junction ≤ 1520) || decide (32768 ≤ junction)
  if s.power.pstate = 1 ∧ s.power.reason ≠ 0 ∧ s.power.target = 0 ∧ cool ∧ power ≤ 9 * s.power.plimit then .next (enterState s 0 0) else .next s

end Sys2Proof.Machine
end

