-- ==== Sys2Proof/Machine/Diag.lean ====
section
/-! DEFINITION. Link tests, boundary scan and the trace port (spec/27_test_diagnostics.md R629 to R636). -/

namespace Sys2Proof.Machine

/-! ### Link tests (R629 to R631) -/

/-- The link that a DID's DBG_LINK_SEL selects; 28 to 31 select none (R637). -/
def selLink (s : State) (did : Nat) : Option Nat :=
  let l := Tbl.at 0 s.dbg.linkSel did
  if (did = 1 ∨ did = 2) ∧ l < 28 then some l else none

def linkTest (s : State) (l : Nat) : LinkTest := Tbl.at LinkTest.reset s.dbg.links l
def setLink (s : State) (l : Nat) (x : LinkTest) : State := { s with dbg.links := s.dbg.links.put l x }

/-- The patterns of a link (R629). -/
def patternListed (l pattern : Nat) : Bool :=
  if l < 10 then decide (pattern ≤ 4) else if l < 26 then pattern == 5 || pattern == 6 else pattern == 0

/-- Reason of the first condition of R630 that fails; 0 where all hold. -/
def testRefusal (s : State) (l loop pattern : Nat) : Nat :=
  if s.dbg.level = 0 then 1
  else if (l < 10 ∧ portBusy s l) ∨ (10 ≤ l ∧ l < 26 ∧ s.oct.enable) then 2
  else if s.dbg.level < testLevel l loop then 3
  else if !patternListed l pattern then 4
  else 0

/-- The link under test reports down (R629, R630). -/
def testDown (s : State) (l loop : Nat) : State :=
  if l < 10 then
    let s := icuSet { s with ing.ports := s.ing.ports.put l { Tbl.at IngPort.reset s.ing.ports l with linkUp := false } } (162 + l) false
    if loop = 1 then emit s (.pin (pinTxDis l) 1) else s
  else if l < 26 then s
  else fieldLinkDown s

/-- Start a test of a link with the loop and pattern given, or refuse it. -/
def startTest (s : State) (l loop pattern : Nat) : State :=
  let x := linkTest s l
  if x.run then s else
  let x := { x with loop := loop, pattern := pattern }
  match testRefusal s l loop pattern with
  | 0 => testDown (setLink s l { x with run := true, state := 1, sync := false, reason := 0, resyncs := 0, errors := 0, bits := 0 }) l loop
  | r => setLink s l { x with state := 2, reason := r }

/-- LINK_TEST_START: a write of run = 1 with these fields to the DBG_LINK_CTRL that the DID selects. -/
def execLinkTestStart (did loop pattern : Nat) (s : State) : Host.Outcome State Fault Refusal :=
  match selLink s did with
  | some l => .next (startTest s l (loop % 4) (pattern % 16))
  | none => .next s

/-- LINK_TEST_STOP: a write of run = 0. -/
def execLinkTestStop (did : Nat) (s : State) : Host.Outcome State Fault Refusal :=
  match selLink s did with
  | some l => .next (endTest s l 0)
  | none => .next s

/-- Flip one transmitted bit: one error of a checker in sync. -/
def injectError (s : State) (l : Nat) : State :=
  let x := linkTest s l
  if x.run && x.sync then setLink s l { x with errors := satAdd 32 x.errors 1 } else s

/-- LINK_TEST_INJECT: a write of inject. -/
def execLinkTestInject (did : Nat) (s : State) : Host.Outcome State Fault Refusal :=
  match selLink s did with
  | some l => .next (injectError s l)
  | none => .next s

/-- PATTERN_CHECKER_SYNC: out of sync, the checker has seen 64 good bits and gains sync; in sync, the stretch of line behind it held `errors`
bits in error, and where `lost` its last 64 bits held more than 8 and it drops sync. -/
def execPatternCheckerSync (link errors : Nat) (lost : Bool) (s : State) : Host.Outcome State Fault Refusal :=
  let x := linkTest s link
  if !x.run then .next s
  else if x.sync then
    let x := { x with errors := satAdd 32 x.errors errors }
    .next (setLink s link (if lost then { x with sync := false, resyncs := satAdd 16 x.resyncs 1, bits := bitsNow s link } else x))
  else .next (setLink s link { x with sync := true, since := s.up })

/-! ### The debug port (R632, R633, R636) -/

/-- The instruction register leaves a boundary or production instruction: a DEBUG_CMD reset (R633, R636). -/
def leaveIr (s : State) (code : Nat) : State :=
  if (s.dbg.boundary || s.dbg.production) && s.dbg.ir != code then logicCause { s with dbg.boundary := false, dbg.production := false } 11 else s

/-- Load the instruction register: what the instruction does where its level is reached, else as BYPASS (R632). -/
def loadIr (s : State) (code : Nat) (allowed : State → Bool) (act : State → State) : State :=
  let s := leaveIr s code
  let s := { s with dbg.ir := code }
  if allowed s then act s else emit { s with dbg.refusedIr := satAdd 16 s.dbg.refusedIr 1 } (.tdo 0)

/-- EXTEST and its AC-coupled forms: the boundary cells drive J1. -/
def boundaryIr (s : State) (code : Nat) : State :=
  loadIr s code (fun s => s.dbg.level == 2) (fun s => emit { s with dbg.boundary := true } (.boundary s.dbg.cells))

/-- EXTEST. -/
def execExtest (s : State) : Host.Outcome State Fault Refusal := .next (boundaryIr s 0)

/-- EXTEST_PULSE. -/
def execExtestPulse (s : State) : Host.Outcome State Fault Refusal := .next (boundaryIr s 3)

/-- EXTEST_TRAIN. -/
def execExtestTrain (s : State) : Host.Outcome State Fault Refusal := .next (boundaryIr s 4)

/-- SAMPLE_PRELOAD: the cells capture the pins, and the values shifted in are loaded. -/
def execSamplePreload (pins cells : Nat) (s : State) : Host.Outcome State Fault Refusal :=
  .next (loadIr s 1 (fun s => decide (1 ≤ s.dbg.level)) (fun s => emit { s with dbg.cells := cells } (.tdo pins)))

/-- IDCODE. -/
def execIdcode (s : State) : Host.Outcome State Fault Refusal :=
  .next (loadIr s 2 (fun _ => true) (fun s => emit s (.tdo 0x272403CF)))

/-- A code that R632 defines. -/
def irDefined (code : Nat) : Bool := decide (code ≤ 4) || code == 8 || (decide (0x10 ≤ code) && decide (code ≤ 0x1F))

/-- BYPASS, by its own code or by one that R632 does not define. -/
def execBypass (code : Nat) (s : State) : Host.Outcome State Fault Refusal :=
  if irDefined (code % 256) then .next s
  else .next (loadIr s (code % 256) (fun _ => code % 256 == 0xFF) (fun s => emit s (.tdo 0)))

/-- PRODUCTION_INSTRUCTION: in BLANK at INTRUSIVE, which a Holtotte service certificate has given, the instruction is in force; what its scan
register then reaches the spec does not say (R636). -/
def execProductionInstruction (code : Nat) (s : State) : Host.Outcome State Fault Refusal :=
  .next (loadIr s (0x10 + code % 16) (fun s => s.sec.lifecycle == 0 && s.dbg.level == 2 && s.dbg.source == 2) (fun s => { s with dbg.production := true }))

/-! ### Trace port (R635) -/

/-- TRACE_SYNC: every 1 ms while the port runs; the record carries the marker count. -/
def execTraceSync (s : State) : Host.Outcome State Fault Refusal :=
  if s.dbg.level = 0 then .next s
  else .next (trace { s with dbg.traceSyncs := (s.dbg.traceSyncs + 1) % 2 ^ 32 } 0 0 0 s.dbg.traceSyncs)

/-- TRACE_PC_SAMPLE: every 1 µs, the program counter of a control processor. -/
def execTracePcSample (cp : Nat) (pc : W32) (s : State) : Host.Outcome State Fault Refusal := .next (trace s 5 0 cp pc.toNat)

end Sys2Proof.Machine
end

