-- ==== Sys2Proof/Machine/Regs.lean ====
section
/-! DEFINITION. What the registers of BAR0 read (spec/28_register_map.md R640 to R643, the register tables of the chapters). -/

namespace Sys2Proof.Machine

/-- A register word: value, lowest bit and width of each field. -/
def regWord (fs : List (Nat × Nat × Nat)) : Nat := fs.foldl (fun n f => n + place f.1 f.2.1 f.2.2) 0

/-- Time in µs, cut to `n` bits with saturation. -/
def sat (n x : Nat) : Nat := min x (2 ^ n - 1)

/-! ### GLB, RCU, CPM, SEC, OAS (R48 to R50, R535, R534, R555 to R558) -/

/-- GLB. -/
def readGlb (s : State) (o : Nat) : Nat :=
  match o with
  | 0x00 => if s.fldT.wasUp then 0x72402112 else 0x72402100
  | 0x04 => 0x4200E0C6
  | 0x08 => regWord [(s.sec.transitions, 4, 8), (s.sec.lifecycle, 0, 2)]
  | 0x0C => regWord [((s.power.clkMode != s.power.clkActive).toNat, 8, 1), (s.power.clkActive, 4, 2), (s.power.clkMode, 2, 2), (s.power.bootSrc, 0, 2)]
  | 0x10 => regWord [(s.power.stage, 28, 4), (s.power.error, 8, 8), (s.power.bank, 2, 1), (s.power.source, 0, 2)]
  | _ => 0

/-- RCU. -/
def readRcu (s : State) (o : Nat) : Nat :=
  match o with
  | 0x00 => regWord [(s.power.rcuTarget, 8, 8)]
  | 0x04 => regWord [(s.power.octurResetEn.toNat, 1, 1), (s.power.perstScope.toNat, 0, 1)]
  | 0x08 => regWord [(s.power.rcuLast, 24, 8)] + (List.range 10).foldl (fun n d => n + placeB (s.power.inReset.contains d) d) 0
  | _ => 0

/-- CPM. -/
def readCpm (s : State) (o : Nat) : Nat :=
  match o with
  | 0x00 => regWord [(s.power.busy.toNat, 12, 1), (s.power.reason, 8, 2), (s.power.pstate, 4, 3), (s.power.target, 0, 3)]
  | 0x04 => regWord [(s.power.plimit, 0, 9)]
  | 0x08 => regWord [(s.power.power, 16, 16), (s.power.junction, 0, 16)]
  | 0x0C => regWord [(s.power.engMhz, 16, 16), (s.power.ctlMhz, 0, 16)]
  | _ => 0

/-- Seconds left in the presence window. -/
def windowLeft (s : State) : Nat :=
  if s.sec.open_ then (s.sec.openedAt + s.sec.windowMax * 60000000000 - s.up) / 1000000000 else 0

/-- SEC. -/
def readSec (s : State) (o : Nat) : Nat :=
  match o with
  | 0x00 => regWord [(s.sec.locked.toNat, 31, 1), (s.sec.rwlDrop.toNat, 30, 1), (s.sec.maintRefused.toNat, 29, 1), (s.sec.pendingBank.isSome.toNat, 28, 1),
      (s.sec.activeBank, 27, 1), (s.sec.imageSlot, 21, 1), (s.sec.imageSvn, 12, 6), (s.sec.fwSvn, 0, 6)]
  | 0x04 => regWord [(s.sec.open_.toNat, 31, 1), (s.sec.override.toNat, 30, 1), (s.sec.key, 28, 2), (s.sec.sealOk.toNat, 27, 1),
      (s.sec.sealLatched.toNat, 26, 1), (windowLeft s, 8, 11)]
  | 0x08 => regWord [(s.sec.windowMax, 0, 4)]
  | 0x0C => regWord [(s.sec.debugGen, 8, 4), (s.sec.safetyGen, 4, 4), (s.sec.ownerGen, 0, 4)]
  | _ => 0

/-- OAS. -/
def readOas (s : State) (o : Nat) : Nat :=
  let cnt := fun (c : Nat) => Tbl.at 0 s.power.counts c
  if o < 0x18 then regWord [(cnt (o / 2 + 1), 16, 16), (cnt (o / 2), 0, 16)]
  else match o with
  | 0x18 => regWord [(s.power.total, 0, 32)]
  | 0x1C => regWord [(s.power.fresh.toNat, 31, 1), (s.power.lastCause, 0, 4)]
  | 0x20 => regWord [(s.power.timeResets, 24, 8), (s.power.overrides, 16, 8), (s.power.sealBreaks, 0, 16)]
  | 0x24 => regWord [(s.power.fieldBrownouts, 0, 16)]
  | 0x28 => regWord [(s.power.oasStatus, 8, 8)]
  | _ => 0

/-! ### HIF, QMU, KNT (R81, R100) -/

/-- The registers of the ring that a DID selects, in the PF's and in each VF's BAR0. -/
def readRing (s : State) (did o : Nat) : Nat :=
  if o = 0x100 then
    let x := Tbl.at (false, 0) s.hif.ringSel did
    regWord [(x.1.toNat, 16, 1), (x.2, 0, 10)]
  else match selRing s did with
  | none => 0
  | some (com, r) =>
    let x := if com then comRing s r else subRing s r
    match o with
    | 0x104 => regWord [(x.vector, 21, 11), (x.cring, 11, 10), (x.intEn.toNat, 5, 1), (x.sizeLog2, 0, 5)]
    | 0x11C => regWord [(if com then 0 else (flightsOf s r).length, 16, 16), (x.lastEvent, 8, 8), (x.cfgDrop.toNat, 2, 1), (x.st.code, 0, 2)]
    | 0x120 => if com then x.dropped else 0
    | _ => 0

/-- First vector and number of vectors of a function (R508). -/
def fnVector0 (fn : Nat) : Nat := if fn = 0 then 0 else 384 + 128 * (fn - 1)

/-- The MSI-X table and PBA of a function (R51, R508). -/
def readMsix (s : State) (fn o : Nat) : Nat :=
  if 0xA000 ≤ o then
    let w := (o - 0xA000) / 4
    if 32 * w < fnVectors fn then (List.range 32).foldl (fun n b => n + placeB (Tbl.at Msix.reset s.hif.msix (fnVector0 fn + 32 * w + b)).pba b) 0 else 0
  else
    let e := (o - 0x8000) / 16
    let m := Tbl.at Msix.reset s.hif.msix (fnVector0 fn + e)
    if fnVectors fn ≤ e then 0
    else if o % 16 = 0 then m.addrLo.toNat else if o % 16 = 4 then m.addrHi.toNat else if o % 16 = 8 then m.data.toNat else m.masked.toNat

/-- HIF. -/
def readHif (s : State) (did o : Nat) : Nat :=
  let fn := Tbl.at 0 s.hif.fnSel did
  if 0x8000 ≤ o then readMsix s 0 o
  else if 0x100 ≤ o then readRing s did o
  else match o with
  | 0x00 => regWord [(s.hif.pollMax, 16, 12), (s.hif.pollMin, 0, 12)]
  | 0x08 => regWord [(fn, 0, 4)]
  | 0x0C => s.hif.allocDrop.toNat
  | 0x10 => if fn < 14 then regWord [((ringBlock s false fn).2, 16, 11), ((ringBlock s false fn).1, 0, 10)] else 0
  | 0x14 => if fn < 14 then regWord [((ringBlock s true fn).2, 16, 11), ((ringBlock s true fn).1, 0, 10)] else 0
  | _ => 0

/-- QMU. -/
def readQmu (s : State) (did o : Nat) : Nat :=
  let k := Tbl.at 0 s.qmu.sel did
  let q := Tbl.at Queue.reset s.qmu.queues k
  match o with
  | 0x00 => k
  | 0x04 => regWord [(q.active.toNat, 31, 1), (q.guarded.toNat, 30, 1), (q.owner, 24, 4), (min q.resets 15, 20, 4), ((q.tail - q.head).toNat, 0, 17)]
  | 0x08 => s.qmu.total
  | _ => 0

/-- KNT. -/
def readKnt (s : State) (did o : Nat) : Nat :=
  let k := Tbl.at 0 s.knots.sel did
  let x := knotOf s k
  let code := match x.st with
    | .free => 0
    | .active => 1
    | .poisoned => 2
    | .cadence => 3
  match o with
  | 0x00 => k
  | 0x04 => x.value.toNat
  | 0x08 => regWord [(code, 30, 2), (x.guarded.toNat, 29, 1), (x.owner, 24, 4), (sat 8 (descWaitsOn s k), 16, 8), (x.mask, 0, 16)]
  | 0x0C => regWord [(s.knots.retries, 16, 16), (waitsUsed s, 0, 15)]
  | _ => 0

/-! ### TBU (R121, R141) -/

/-- Coding of TBU_STATUS.state. -/
def Servo.code : Servo → Nat
  | .freerun => 0 | .acquire => 1 | .track => 2 | .locked => 3 | .holdover => 4

/-- Coding of TBU_FLD_STATUS.state. -/
def FldState.code : FldState → Nat
  | .down => 0 | .acquire => 1 | .locked => 2 | .holdover => 3

/-- Coding of TBU_CAD_STATUS.state. -/
def CadState.code : CadState → Nat
  | .stopped => 0 | .armed => 1 | .running => 2

/-- Registers of the port that a DID selects. -/
def readPtpPort (s : State) (p o : Nat) : Nat :=
  let x := ptpPort s p
  if 10 ≤ p then 0
  else match o with
  | 0x44 => regWord [(x.logDelay, 16, 4), (x.logSync, 12, 4), (x.role, 8, 2), (x.oneStep.toNat, 7, 1), (x.peer.toNat, 6, 1), (x.transport, 4, 2), (x.enable.toNat, 0, 1)]
  | 0x48 => x.extTx.toNat
  | 0x4C => x.extRx.toNat
  | _ => x.asym.toNat

/-- Cadence, trigger and monitor registers (R141). -/
def readCad (s : State) (did o : Nat) : Nat :=
  let k := Tbl.at 0 s.trig.cadSel did
  let c := cadOf s k
  let m := (Tbl.at 0 s.trig.monSel did)
  let x := s.trig.mons.find m
  match o with
  | 0x100 => k
  | 0x104 => regWord [(c.st.code, 30, 2), ((decide (0 < c.cut)).toNat, 29, 1), (c.stalled.toNat, 28, 1), (c.reef, 26, 2), (sat 24 (c.cut / 1000), 0, 24)]
  | 0x110 => sat 32 (c.debt / 1000)
  | 0x114 => regWord [(c.late, 16, 16), (c.abandoned, 0, 16)]
  | 0x118 => s.trig.outs.foldl (fun n p => n + placeB (p.2.enable && (cadOf s p.2.cadence).st != .stopped) p.1) 0
  | 0x120 => m
  | 0x124 => (x.map (fun y => regWord [(y.missed, 16, 16), (y.unmatched, 0, 16)])).getD 0
  | 0x128 => (x.map (fun y => regWord [(y.latLargest, 16, 16), (y.latLast, 0, 16)])).getD 0
  | 0x12C => (x.map (fun y => regWord [(y.tsErrors, 16, 16), (unsigned 16 y.tsLast, 0, 16)])).getD 0
  | _ => 0

/-- TBU. -/
def readTbu (s : State) (did o : Nat) : Nat :=
  let t := s.tb
  let active := if t.servo = .freerun ∨ t.servo = .holdover then 0 else servoSource s
  if 0x100 ≤ o then readCad s did o
  else if 0x44 ≤ o ∧ o ≤ 0x50 then readPtpPort s (Tbl.at 0 t.portSel did) o
  else match o with
  | 0x00 => regWord [(t.lastCmd, 24, 8), (t.gen, 12, 4), (t.stepRefused.toNat, 9, 1), (t.refLost.toNat, 8, 1), (active, 4, 3), (t.servo.code, 0, 3)]
  | 0x04 => regWord [(t.servoEn.toNat, 31, 1), (t.domain, 24, 7), (t.profile, 12, 2), (t.octurPort, 8, 2), (t.srcBackup, 4, 3), (t.srcPrimary, 0, 3)]
  | 0x20 => t.kp.toNat
  | 0x24 => t.ki.toNat
  | 0x28 => unsigned 32 t.yReg
  | 0x2C => unsigned 32 t.offset
  | 0x30 => regWord [(t.outlier, 24, 8), (t.stepThreshold, 12, 12), (t.lockThreshold, 0, 12)]
  | 0x34 => regWord [(t.holdoverDelay, 16, 16), (t.freqLim, 0, 16)]
  | 0x38 => regWord [(t.utcValid.toNat, 31, 1), (t.utcOffset, 0, 16)]
  | 0x40 => Tbl.at 0 t.portSel did
  | 0x60 => regWord [(t.outWidth, 20, 12), (t.outForce.toNat, 4, 1), (t.ppsSel.toNat, 3, 1), (t.fldOutEn.toNat, 2, 1), (t.outEn.toNat, 1, 1), (t.inFalling.toNat, 0, 1)]
  | 0x64 => regWord [(t.outDelay, 16, 16), (t.inDelay, 0, 16)]
  | 0x70 => regWord [(unsigned 16 s.fldT.error, 16, 16), (s.fldT.relinks, 8, 8), (s.fldT.st.code, 0, 2)]
  | 0x74 => s.fldT.aFld.toNat
  | _ => 0

/-! ### ING, SPL, XFT, ERG (R177, R199, R224, R245) -/

/-- Coding of ING_STREAM_STATE.state: of several conditions the one lower in the table of R18. -/
def Stream.code (x : Stream) : Nat :=
  if !x.enabled then 0 else if x.contested.isSome then 5 else if x.frozen then 4 else if x.suspect then 3 else if x.silent then 2 else 1

/-- ING. -/
def readIng (s : State) (did o : Nat) : Nat :=
  let p := Tbl.at 0 s.ing.portSel did
  let y := ingPort s p
  let k := Tbl.at 0 s.ing.streamSel did
  let x := streamOf s k
  let c := s.cfg.streams.find k
  match o with
  | 0x00 => p
  | 0x04 => if p < 10 then y.rx else 0
  | 0x08 => if p < 10 then regWord [(y.unknown, 16, 16), (y.overflow, 8, 8), (y.malformed, 0, 8)] else 0
  | 0x10 => k
  | 0x14 => regWord [(x.code, 29, 3), ((c.map (·.kind)).getD 0, 26, 3), ((c.map (·.cadence)).getD 0, 16, 5), (x.lastIndex, 0, 16)]
  | 0x18 => regWord [(x.ringFull, 16, 16), (x.partials, 8, 8), (x.genDrop, 0, 8)]
  | 0x1C => regWord [(x.frozenCount, 24, 8), (x.gaps, 8, 16), (x.restarts, 2, 6), (x.lastRule, 0, 2)]
  | 0x20 => regWord [(s.ing.uEcc, 28, 4), (s.ing.uSteps, 20, 8), (s.ing.uBounds, 12, 8), (s.ing.uDrop, 0, 12)]
  | _ => 0

/-- SPL. -/
def readSpl (s : State) (did o : Nat) : Nat :=
  let c := Tbl.at 0 s.spl.cadSel did
  let k := Tbl.at 0 s.spl.streamSel did
  let x := streamOf s k
  match o with
  | 0x00 => c
  | 0x04 => regWord [(Tbl.at 0 s.spl.queries c, 19, 13), ((Tbl.at false s.spl.capacity c).toNat, 16, 1), (sat 16 (Tbl.at 0 s.spl.alignUs c), 0, 16)]
  | 0x10 => k
  | 0x14 => match x.deltaShown with
    | some d => unsigned 32 (d / 1000)
    | none => 0x80000000
  | 0x18 => regWord [(x.suspects, 24, 8), (x.run, 20, 4)]
  | 0x1C => regWord [(x.late, 16, 16), (x.missing, 8, 8), (x.extrap, 0, 8)]
  | _ => 0

/-- XFT. -/
def readXft (s : State) (did o : Nat) : Nat :=
  let k := Tbl.at 0 s.xft.jointSel did
  let j := Tbl.at JointSt.reset s.xft.joints k
  let c := s.cfg.joints.find k
  let g := Tbl.at 0 s.xft.egoSel did
  let e := if (s.cfg.egos.find g).isSome then Tbl.at Ego.reset s.xft.egos g else Ego.reset
  match o with
  | 0x00 => k
  | 0x04 => regWord [(j.primary.referenced.toNat, 31, 1), (j.check.referenced.toNat, 30, 1), ((c.any (·.zHome)).toNat, 29, 1), ((c.any (·.prismatic)).toNat, 28, 1),
      (j.slips, 16, 8), (j.range, 8, 8), ((c.map (·.rig)).getD 0, 4, 4), ((c.map (fun y => y.position - 1)).getD 0, 0, 4)]
  | 0x10 => g
  | 0x14 => regWord [(e.st.code, 30, 2), (e.coast, 26, 4), (min e.refAge 15, 22, 4), (e.iterations, 18, 4), (e.inliers, 0, 16)]
  | 0x18 => regWord [(e.reseeds, 16, 16), (e.failures, 0, 16)]
  | 0x1C => regWord [(s.xft.capacity.toNat, 31, 1), (s.xft.poisoned.length, 16, 13), (sat 16 s.xft.poseUs, 0, 16)]
  | _ => 0

/-- ERG. -/
def readErg (s : State) (did o : Nat) : Nat :=
  let k := Tbl.at 0 s.geo.ergSel did
  let x := Tbl.at ErgUnit.reset s.geo.erg k
  match o with
  | 0x00 => k
  | 0x04 => regWord [(x.level, 30, 2), (x.truncated.toNat, 29, 1), (x.storeErr.toNat, 28, 1), (x.stash, 19, 4), (x.entries, 0, 19)]
  | 0x08 => regWord [(sat 16 x.buildUs, 16, 16), (sat 16 x.opUs, 0, 16)]
  | 0x0C => regWord [(x.reefs, 16, 16), (x.truncations, 0, 16)]
  | 0x10 => sat 32 x.truncPoints
  | 0x14 => sat 32 x.oov
  | 0x18 => sat 32 x.evicted
  | _ => 0

/-! ### SEQ, SLV, LYT (R269, R367, R389, R413) -/

/-- Jobs that wait for a core or engine. -/
def waitingFor (js : List Job) (k : Nat) : Nat := sat 8 (js.filter (fun j => j.on_ == none || j.on_ == some k)).length

/-- Coding of SEQ_STATE.state. -/
def Seq.code (q : Seq) : Nat := if q.failed then 3 else if q.waiting.any (fun a => a.since.isSome) then 2 else 1

/-- SEQ. -/
def readSeq (s : State) (did o : Nat) : Nat :=
  let k := Tbl.at 0 s.seq.sel did
  let q := seqOf s k
  let p := Tbl.at 0 s.seq.poolSel did
  let x := poolOf s p
  let waiters := (s.seq.seqs.filter (fun t => t.2.active && t.2.pool == p && t.2.waiting.any (fun a => a.since.isSome))).length
  match o with
  | 0x00 => k
  | 0x04 => (q.map (fun q => regWord [(q.code, 30, 2), (q.guarded.toNat, 29, 1), (q.policy, 27, 2), (q.pending.isSome.toNat, 26, 1), (q.pool, 20, 4), (q.held.length, 0, 17)])).getD 0
  | 0x10 => (q.map (fun q => regWord [(q.rpp, 22, 10), (q.count, 0, 17)])).getD 0
  | 0x14 => (q.map (fun q => regWord [(q.slides, 16, 16), (q.exhausted, 8, 8), (q.discarded, 0, 8)])).getD 0
  | 0x20 => p
  | 0x24 => regWord [(x.enable.toNat, 31, 1), (x.guarded.toNat, 30, 1), (sat 8 waiters, 22, 8), (x.free, 0, 22)]
  | _ => 0

/-- SEQ_PIPE_STATUS of a core. -/
def readPipe (s : State) (c : Nat) : Nat :=
  let x := pipeOf s c
  regWord [(x.job.isSome.toNat, 31, 1), (x.cls.toNat, 30, 1), (x.checkFail.toNat, 29, 1), (waitingFor s.seq.waiting c, 16, 8), (x.lastStatus, 8, 8), (sat 8 x.emptyRows, 0, 8)]

/-- SLV. -/
def readSlv (s : State) (did o : Nat) : Nat :=
  let k := Tbl.at 0 s.slv.sel did
  let x := Tbl.at SolveUnit.reset s.slv.units k
  if o = 0 then k
  else if 6 ≤ k then 0
  else match o with
  | 0x04 => sat 32 x.solves
  | 0x08 => regWord [(x.misses, 24, 8), (x.numerics, 16, 8), (x.limits, 8, 8), (x.checks, 0, 8)]
  | 0x0C => sat 32 x.pivots
  | 0x10 => regWord [(sat 16 x.maxUs, 16, 16), (sat 16 x.lastUs, 0, 16)]
  | _ => 0

/-- SLV_UNIT_STATUS of a core. -/
def readSolver (s : State) (c : Nat) : Nat :=
  let x := Tbl.at SolveUnit.reset s.slv.units c
  regWord [(x.job.isSome.toNat, 31, 1), (x.cls.toNat, 30, 1), (x.checkFail.toNat, 29, 1), (x.streamed.toNat, 28, 1), (waitingFor s.slv.waiting c, 16, 8),
    (x.lastStatus, 8, 8), (x.lastIter, 0, 8)]

/-- Grid registers of the LYT window. -/
def readGrid (s : State) (did o : Nat) : Nat :=
  let k := Tbl.at 0 s.geo.gridSel did
  let c := s.cfg.grids.find k
  let x := if c.isSome then Tbl.at Grid.reset s.geo.grids k else Grid.reset
  match o with
  | 0x8000 => k
  | 0x8004 => regWord [(x.level, 30, 2), ((c.any (·.guarded)).toNat, 29, 1), ((c.any (·.enable)).toNat, 28, 1), (x.contested, 0, 17)]
  | 0x8008 => regWord [(x.unseen, 0, 17)]
  | 0x800C => regWord [(sat 16 x.fuseUs, 16, 16), (sat 16 x.liftUs, 0, 16)]
  | 0x8010 => regWord [(sat 16 x.voted, 16, 16), (sat 16 x.contests, 0, 16)]
  | 0x8014 => regWord [(sat 16 s.geo.monJoint, 0, 16)]
  | _ => 0

/-- LYT. -/
def readLyt (s : State) (did o : Nat) : Nat :=
  let k := Tbl.at 0 s.lyt.sel did
  let x := Tbl.at LytEngine.reset s.lyt.engines k
  if 0x8000 ≤ o then readGrid s did o
  else match o with
  | 0x00 => k
  | 0x04 => regWord [(x.job.isSome.toNat, 31, 1), (x.cls.toNat, 30, 1), (x.checkFail.toNat, 29, 1), (waitingFor s.lyt.waiting k, 16, 8), (x.lastStatus, 8, 8), (x.opcode, 0, 8)]
  | 0x08 => sat 32 x.ops
  | 0x0C => sat 32 x.drop
  | 0x10 => sat 32 x.fill
  | 0x14 => sat 32 x.sat
  | 0x18 => regWord [(x.corrected, 16, 16), (x.uncorrectable, 0, 16)]
  | _ => 0

/-! ### SFI (R469, R494) -/

/-- Flow and unit registers of the SFI window. -/
def readSfiFlow (s : State) (f : Nat) : Nat :=
  let x := flowSafe s f
  let guarded : Bool := (s.cfg.flows.find f).any (·.guarded)
  regWord [(guarded.toNat, 31, 1), (((imageFlow s f).map (·.recipe)).getD 0, 29, 2), (x.latched.toNat, 28, 1), (x.verdict.toNat, 27, 1), (x.shadow.toNat, 26, 1),
    (sat 8 x.count, 16, 8), (x.fallbacks, 0, 16)]

/-- Watchdog registers. -/
def readWd (s : State) (sel o : Nat) : Nat :=
  let c := sel % 32
  let t := sel / 256 % 8
  let w := s.sec.image.bind (fun i => i.windows.find (8 * c + t))
  let guarded : Bool := s.cfg.flows.any (fun p => p.2.guarded && p.2.cadence == c)
  if o = 0x100 then sel
  else if t = 7 then 0
  else match o with
  | 0x104 => regWord [((w.any (·.enable)).toNat, 31, 1), (guarded.toNat, 30, 1)]
  | 0x108 => (w.map (·.open_)).getD 0
  | 0x10C => (w.map (·.close)).getD 0
  | 0x110 => regWord [((wdStatus s c t).misses, 16, 16), (sat 16 (wdStatus s c t).lastUs, 0, 16)]
  | _ => 0

/-- Unit registers. -/
def readUnit (s : State) (u o : Nat) : Nat :=
  let x := unitSafe s u
  if o = 0x120 then u
  else if 88 ≤ u then 0
  else match o with
  | 0x124 => regWord [(x.service, 30, 2), (x.cause, 27, 3), (x.outs, 16, 8), (x.readmissions, 8, 8), (x.blocked.toNat, 7, 1)]
  | 0x12C => regWord [((if x.service = 2 then 0 else sat 12 (testAge s u / 1000000)), 20, 12), (x.sliceFails, 12, 8), (x.aborts, 0, 12)]
  | 0x130 => regWord [(x.goldenOk, 8, 24), (x.goldenBad, 0, 8)]
  | _ => 0

/-- A word of the error ring: slot and word. -/
def readErrRing (s : State) (o : Nat) : Nat := ((s.safe.ring.find ((o - 0x1000) / 32)).map (fun x => x.word (o % 32 / 4))).getD 0

/-- SFI. -/
def readSfi (s : State) (did o : Nat) : Nat :=
  let units := List.range 88
  if 0x1000 ≤ o ∧ o < 0x3000 then readErrRing s o
  else if 0x100 ≤ o ∧ o ≤ 0x110 then readWd s (Tbl.at 0 s.safe.wdSel did) o
  else if 0x120 ≤ o ∧ o ≤ 0x130 then readUnit s (Tbl.at 0 s.safe.unitSel did) o
  else match o with
  | 0x00 => regWord [(s.fld.sw0.on_.toNat, 31, 1), (s.fld.sw1.on_.toNat, 30, 1), (s.safe.fatal.isSome.toNat, 29, 1), ((s.sec.image.isSome && s.sec.locked).toNat, 28, 1),
      (s.safe.ackRefused.toNat, 27, 1), (s.safe.clearRefused.toNat, 26, 1), ((s.safe.flows.filter (fun p => p.2.latched)).length, 0, 13)]
  | 0x08 => regWord [(safeCond s 1, 8, 7), (safeCond s 0, 0, 7)]
  | 0x10 => Tbl.at 0 s.safe.flowSel did
  | 0x14 => readSfiFlow s (Tbl.at 0 s.safe.flowSel did)
  | 0x20 => s.safe.next % 2 ^ 32
  | 0x24 => regWord [(s.safe.lostDropped, 16, 16), (s.safe.lostOverflow, 0, 16)]
  | 0x28 => (s.safe.fatal.map (fun f => regWord [(f.2, 8, 24), (f.1, 0, 8)])).getD 0
  | 0x134 => regWord [(s.safe.overdueWarn.toNat, 31, 1), (s.safe.overdueDoubt.toNat, 30, 1), ((units.filter (fun u => (unitSafe s u).service == 1)).length, 8, 7),
      ((units.filter (fun u => (unitSafe s u).service != 2 && decide (1000000000 ≤ testAge s u))).length, 0, 8)]
  | _ => 0

/-! ### ICU (R509) -/

/-- Configuration word of a source. -/
def readSource (s : State) (sic : Bool) (k : Nat) : Nat :=
  let x := sourceOf s sic k
  regWord [(x.inService.toNat, 31, 1), ((pendingOf s sic k).toNat, 30, 1), (x.masked.toNat, 29, 1), ((inputOf s sic k).toNat, 28, 1), (x.storm.toNat, 27, 1),
    (x.overrun.toNat, 26, 1), (x.target, 14, 2), (x.modEn.toNat, 13, 1), (x.prio, 4, 4), (x.sense, 0, 3)]

/-- Registers of a processor. -/
def readProc (s : State) (sic : Bool) (p o : Nat) : Nat :=
  let x := procOf s sic p
  if o = 0 then regWord [(x.vbase, 16, 16)]
  else if o = 4 then regWord [(x.asleep.toNat, 31, 1), (x.modUs, 16, 12), ((running s sic p).isSome.toNat, 8, 1), ((running s sic p).getD 0, 4, 4), (x.threshold, 0, 4)]
  else if o = 8 then (match claimOf s sic p with
    | some k => k
    | none => 0x400)
  else 0

/-- Word `k` of a bit of the sources. -/
def sourceWord (f : Nat → Bool) (k : Nat) : Nat := (List.range 32).foldl (fun n j => n + placeB (f (32 * k + j)) j) 0

/-- The SIC's registers (R510). -/
def readSic (s : State) (o : Nat) : Nat :=
  if o < 0x20 then sourceWord (pendingOf s true) (o / 4)
  else if 0x80 ≤ o ∧ o < 0xA0 then sourceWord (fun k => (sourceOf s true k).masked) ((o - 0x80) / 4)
  else if 0x200 ≤ o ∧ o < 0x210 then readProc s true 0 (o % 16)
  else match o with
  | 0x100 => srcSelected s 0 0
  | 0x104 => readSource s true (srcSelected s 0 0)
  | 0x304 => regWord [(s.sic.eoiErr, 28, 4), (s.sic.overrunAny.toNat, 27, 1), (s.sic.storms, 0, 16)]
  | _ => 0

/-- ICU; a lock's read has a row of its own. -/
def readIcu (s : State) (did cp o : Nat) : Nat :=
  let v := Tbl.at 0 s.icu.msixSel did
  let m := Tbl.at Msix.reset s.hif.msix v
  if o < 0x80 then sourceWord (pendingOf s false) (o / 4)
  else if o < 0x100 then sourceWord (fun k => (sourceOf s false k).masked) ((o - 0x80) / 4)
  else if 0x200 ≤ o ∧ o < 0x240 then readProc s false ((o - 0x200) / 16) (o % 16)
  else match o with
  | 0x100 => if did = 0 then 0 else srcSelected s did cp
  | 0x104 => readSource s false (if did = 0 then 0 else srcSelected s did cp)
  | 0x304 => regWord [(s.icu.eoiErr, 28, 4), (s.icu.overrunAny.toNat, 27, 1), (s.icu.storms, 0, 16)]
  | 0x400 => v
  | 0x404 => regWord [(m.held.toNat, 31, 1), (m.mod, 0, 12)]
  | _ => 0

/-! ### ETH, OCT, FLD (R584, R585, R607) -/

/-- ETH. -/
def readEth (s : State) (did o : Nat) : Nat :=
  let q := Tbl.at 0 s.eth.qsel did
  let x := plantPort s q
  if 0x10 ≤ o ∧ o < 0x20 then
    let w := Tbl.at (0, 0) x.wins ((o - 0x10) / 4)
    regWord [(w.1, 15, 17), (w.2, 0, 15)]
  else match o with
  | 0x00 => q
  | 0x04 => regWord [(x.txEn.toNat, 31, 1), (x.mgmtFps, 0, 8)]
  | 0x08 => regWord [(x.period, 0, 20)]
  | 0x20 => regWord [(x.burst, 20, 12), (x.rate, 0, 20)]
  | 0x24 => x.pubId
  | 0x28 => regWord [(x.sentMessages, 16, 16), (x.sentMgmt, 0, 16)]
  | 0x2C => regWord [(x.superseded, 16, 16), (x.mgmtDropped, 0, 16)]
  | _ => 0

/-- Coding of OCT_PSTATUS.state. -/
def OctState.code : OctState → Nat
  | .down => 0 | .training => 1 | .hello => 2 | .up => 3 | .fault => 4

/-- OCT; a port with a lane under test reports its link down (R630). -/
def readOct (s : State) (did o : Nat) : Nat :=
  let p := Tbl.at 0 s.oct.psel did
  let x := octPort s p
  match o with
  | 0x00 => regWord [(s.oct.enable.toNat, 31, 1), (s.oct.torus.toNat, 16, 1), (s.oct.rows, 12, 2), (s.oct.cols, 8, 2), (s.oct.module, 0, 4)]
  | 0x04 => p
  | 0x08 => regWord [(if s.dbg.tests (10 + 4 * p) 4 then 0 else x.st.code, 29, 3), (x.peerModule, 24, 4), (x.peerPort, 20, 2), (x.retrains, 8, 8)]
  | 0x0C => regWord [(x.crc, 16, 16), (x.replays, 0, 16)]
  | 0x10 => x.asym
  | 0x14 => regWord [(s.oct.throttled.toNat, 31, 1), (s.oct.budget, 0, 7)]
  | 0x18 => regWord [(s.oct.distance, 0, 4)]
  | 0x1C => regWord [(s.oct.unreachable, 16, 16), (s.oct.knotsLost, 0, 16)]
  | _ => 0

/-- FLD: the mirror of the field die, and the link as it stands. -/
def readFld (s : State) (did o : Nat) : Nat :=
  let c := Tbl.at 0 s.fld.chSel did
  if o = 0 then placeB s.fldT.linkUp 31 + Tbl.at 0 s.fld.mirror 0
  else if o = 0x0C then c
  else if o = 0x10 ∨ o = 0x14 ∨ o = 0x18 then Tbl.at 0 s.fld.mirror (0x100 * c + o)
  else if o = 4 ∨ o = 8 ∨ o = 0x1C then Tbl.at 0 s.fld.mirror o
  else 0

/-! ### MMU, MEM (R436, R437) -/

/-- MMU. -/
def readMmu (s : State) (did o : Nat) : Nat :=
  let k := Tbl.at 0 s.mmu.ctxSel did
  let c := Tbl.at Context.reset s.mmu.ctx k
  let f := Tbl.at MmuFault.reset s.mmu.faults did
  let n := Tbl.at 0 s.mmu.fwSel did
  let r := Tbl.at Region.reset s.mmu.regions n
  match o with
  | 0x00 => k
  | 0x04 => regWord [(c.enable.toNat, 31, 1), (c.root, 0, 23)]
  | 0x08 => regWord [(sat 16 (s.tlb.walks / 1024), 16, 16), (sat 16 s.mmu.parity, 0, 16)]
  | 0x10 => regWord [(f.status, 24, 8), (f.valid.toNat, 23, 1), (f.write.toNat, 22, 1), (f.guarded.toNat, 21, 1), (f.level, 19, 2), (f.count, 0, 16)]
  | 0x20 => n
  | 0x24 => r.base
  | 0x28 => r.limit
  | 0x2C => regWord [(r.wmask, 16, 16), (r.rmask, 0, 16)]
  | 0x30 => regWord [(r.enable.toNat, 31, 1), (r.guardWrite.toNat, 30, 1), (r.denials, 0, 16)]
  | _ => 0

def memCtl (s : State) (k : Nat) : MemCtl := Tbl.at MemCtl.reset s.mmu.mcs k

/-- MEM. -/
def readMem (s : State) (did o : Nat) : Nat :=
  let k := Tbl.at 0 s.mmu.memSel did
  let c := memCtl s k
  match o with
  | 0x00 => k
  | 0x04 => regWord [(c.trained.toNat, 31, 1), (c.hot.toNat, 30, 1), (c.mr4, 0, 3)]
  | 0x08 => regWord [(c.ce, 16, 16), (c.ue, 0, 16)]
  | 0x14 => regWord [(c.period, 24, 8), (c.behind.toNat, 23, 1), (c.scrub * 65536 / mcLines, 0, 16)]
  | 0x18 => regWord [(s.mmu.guardedWays, 0, 4)]
  | _ => 0

/-! ### DBG (R536, R637) -/

/-- DBG; the first nonce word and the memory window have rows of their own. -/
def readDbg (s : State) (did o : Nat) : Nat :=
  let x := fun (l : Nat) => linkTest s l
  let sel := selLink s did
  if 0x10 ≤ o ∧ o < 0x40 then (nonceWord s ((o - 0x10) / 4)).toNat
  else if 0x40 ≤ o ∧ o < 0xA4 then (Tbl.at (0 : W32) s.dbg.auth ((o - 0x40) / 4)).toNat
  else match o with
  | 0x000 => regWord [(s.dbg.refused.toNat, 31, 1), (s.dbg.portLocked.toNat, 30, 1), (s.dbg.fails, 6, 4), (s.dbg.source, 4, 2), (s.dbg.level, 0, 2)]
  | 0x100 => regWord [(Tbl.at 0 s.dbg.linkSel did, 0, 5)]
  | 0x104 => (sel.map (fun l => regWord [((x l).run.toNat, 31, 1), ((x l).loop, 4, 2), ((x l).pattern, 0, 4)])).getD 0
  | 0x108 => (sel.map (fun l => regWord [((x l).state, 30, 2), ((x l).sync.toNat, 29, 1), ((x l).reason, 24, 4), ((x l).resyncs, 0, 16)])).getD 0
  | 0x10C => (sel.map (fun l => (x l).errors)).getD 0
  | 0x200 => regWord [(s.dbg.traceLost, 8, 8), (s.dbg.traceTypes, 0, 7)]
  | 0x204 => regWord [(s.dbg.ir, 24, 8), (s.dbg.refusedIr, 0, 16)]
  | _ => 0

/-! ### Core windows (R300, R643) -/

/-- An engine's registers. -/
def readEngine (s : State) (did g o : Nat) : Nat :=
  let e := engineOf s g
  let ts := s.eng.threads.filter (fun p => p.1 / 64 == g)
  let count := fun (f : ThreadState → Bool) => (ts.filter (fun p => f p.2.st)).length
  let halted := count (fun x => x == .halted)
  let ready := count (fun x => x == .ready)
  let waiting := count (fun x => match x with
    | .wait _ => true
    | _ => false)
  let insts := (s.eng.instances.filter (fun p => p.2.engine == g)).map (·.2)
  let sel := Tbl.at 0 s.eng.threadSel (16 * g + did)
  let t := thread s (64 * g + sel)
  let i := instOf s (64 * g + sel)
  let st := match t.st with
    | .free => 0
    | .ready => 1
    | .wait _ => 2
    | .halted => 3
  let reason := match t.st with
    | .wait .copy => 1
    | .wait .knot => 2
    | .wait .queue => 3
    | .wait .call => 4
    | _ => 0
  match o with
  | 0x00 => regWord [((unitSafe s g).service, 30, 2), (e.reservedGuarded.toNat, 29, 1), (e.resident.length, 16, 4), (e.copies.length, 8, 8), (insts.length, 0, 8)]
  | 0x04 => regWord [(halted, 24, 7), (waiting, 16, 8), (ready, 8, 8), (64 - halted - waiting - ready, 0, 7)]
  | 0x08 => regWord [((e.resident.map (·.pages)).foldl (· + ·) 0, 24, 8), ((insts.map (fun i => i.windowBytes / 4096)).foldl (· + ·) 0, 0, 9)]
  | 0x0C => sel
  | 0x10 => regWord [(st, 30, 2), (reason, 27, 3), ((i.any (·.guarded)).toNat, 26, 1), ((i.map (·.did)).getD 0, 20, 4), (t.pc, 0, 18)]
  | 0x14 => regWord [(e.mismatches, 16, 16), (e.lastMismatch, 8, 6), (e.goldenFail, 0, 8)]
  | 0x18 => regWord [(e.corrected, 16, 16), (e.lastCode, 8, 8), (e.sticky.toNat, 6, 1), (e.lastThread, 0, 6)]
  | _ => 0

/-- A core window. -/
def readCore (s : State) (did c o : Nat) : Nat :=
  if o < 0xC0000 then (if o % 0x10000 < 0x1C then readEngine s did (12 * c + o / 0x10000) (o % 0x10000) else 0)
  else if o = 0xD0000 then readPipe s c
  else if o = 0xE0000 then readSolver s c
  else 0

/-! ### 64-bit pairs (R6) -/

/-- The 64-bit quantity whose low register stands at a BAR0 offset; none where none does. -/
def pairValue (s : State) (did a : Nat) : Option Nat :=
  let ring := (selRing s did).map (fun x => if x.1 then comRing s x.2 else subRing s x.2)
  match a with
  | 0x020010 => some s.power.wake
  | 0x040020 => some (s.hif.winBaseHi * 2 ^ 32)
  | 0x040108 => ring.map (·.base.toNat)
  | 0x040110 => ring.map (·.db.toNat)
  | 0x070010 => some (s.now % 2 ^ 64)
  | 0x070018 => some s.tb.operand.toNat
  | 0x070108 => some ((cadOf s (Tbl.at 0 s.trig.cadSel did)).epoch % 2 ^ 64)
  | 0x0A0008 => some (unsigned 64 (Tbl.at JointSt.reset s.xft.joints (Tbl.at 0 s.xft.jointSel did)).primary.ref)
  | 0x0C0008 => some (((seqOf s (Tbl.at 0 s.seq.sel did)).map (·.first)).getD 0)
  | 0x140014 => some ((Tbl.at MmuFault.reset s.mmu.faults did).va % 2 ^ 48)
  | 0x15000C => some ((memCtl s (Tbl.at 0 s.mmu.memSel did)).ueAddr % 2 ^ 48)
  | 0x160110 => (selLink s did).map (bitsNow s)
  | 0x160300 => some (s.dbg.memBase % 2 ^ 48)
  | _ => none

/-- A register's value but for the pairs: window index and offset. -/
def readReg (s : State) (did cp w o : Nat) : Nat :=
  match w with
  | 0x00 => readGlb s o
  | 0x01 => readRcu s o
  | 0x02 => readCpm s o
  | 0x03 => readSec s o
  | 0x04 => readHif s did o
  | 0x05 => readQmu s did o
  | 0x06 => readKnt s did o
  | 0x07 => readTbu s did o
  | 0x08 => readIng s did o
  | 0x09 => readSpl s did o
  | 0x0A => readXft s did o
  | 0x0B => readErg s did o
  | 0x0C => readSeq s did o
  | 0x0D => readSlv s did o
  | 0x0E => readLyt s did o
  | 0x0F => readSfi s did o
  | 0x10 => readIcu s did cp o
  | 0x11 => readEth s did o
  | 0x12 => readOct s did o
  | 0x13 => readFld s did o
  | 0x14 => readMmu s did o
  | 0x15 => readMem s did o
  | 0x16 => readDbg s did o
  | 0x17 => readOas s o
  | _ => 0

end Sys2Proof.Machine
end

