-- ==== Sys2Proof/Machine/RegWrites.lean ====
section
/-! DEFINITION. What writes to the registers of BAR0 do (spec/00_scope.md R5 to R9, spec/28_register_map.md R640 to R644, the register tables of the chapters). -/

namespace Sys2Proof.Machine

/-- The state after a register's command; every such command answers a next state. -/
def afterCmd (s : State) (o : Host.Outcome State Fault Refusal) : State :=
  match o with
  | .next t => t
  | _ => s

/-- Bits of a written word. -/
def W32.f (v : W32) (lo len : Nat) : Nat := bitsOf v.toNat lo len
def W32.b (v : W32) (i : Nat) : Bool := v.toNat.testBit i

/-- Do a thing where a bit is set. -/
def onBit (v : W32) (i : Nat) (s : State) (f : State → State) : State := if W32.b v i then f s else s

/-- A write of an RWL register of a block: taken where R519 allows it and the value is one the register takes, else dropped. -/
def writeRwl (s : State) (did w o : Nat) (valid : Bool) (f : State → State) : State :=
  if !rwlAllowed s did then rwlDropped s did w o else if valid then f s else s

/-! ### RCU, CPM, SEC, OAS -/

/-- RCU (R556). -/
def writeRcu (s : State) (did o : Nat) (v : W32) : State :=
  match o with
  | 0x00 =>
    let s := { s with power.rcuTarget := W32.f v 8 8 }
    let s := onBit v 1 s (fun s => afterCmd s (execHostUnitCmd did s))
    onBit v 0 s (fun s => afterCmd s (execHostDeviceCmd did s))
  | 0x0C => onBit v 0 s (fun s => afterCmd s (execBootGo did s))
  | _ => s

/-- CPM (R557). -/
def writeCpm (s : State) (did o : Nat) (v : W32) : State :=
  match o with
  | 0x00 => if W32.f v 0 3 ≤ 3 then afterCmd s (execPstateRequest did (W32.f v 0 3) s) else s
  | _ => s

/-- SEC (R534). -/
def writeSec (s : State) (did o : Nat) (v : W32) : State :=
  match o with
  | 0x00 => { s with sec.rwlDrop := s.sec.rwlDrop && !W32.b v 30, sec.maintRefused := s.sec.maintRefused && !W32.b v 29 }
  | 0x04 =>
    let s := onBit v 2 s (fun s => afterCmd s (execSealRearm did s))
    let s := onBit v 1 s (fun s => afterCmd s (execSealOverride did s))
    onBit v 0 s (fun s => afterCmd s (execPresenceClose did s))
  | _ => s

/-- OAS (R558). -/
def writeOas (s : State) (did o : Nat) (v : W32) : State :=
  if o = 0x28 then onBit v 0 s (fun s => afterCmd s (execOasClear did s)) else s

/-! ### The RWL registers (R644) -/

/-- Settings of the plant port that a DID selects. -/
def writeQuiet (s : State) (did o : Nat) (v : W32) : State :=
  let q := Tbl.at 0 s.eth.qsel did
  let x := plantPort s q
  if 0x10 ≤ o ∧ o < 0x20 then setQuiet s q { x with wins := x.wins.put ((o - 0x10) / 4) (W32.f v 15 17, W32.f v 0 15) }
  else match o with
  | 0x04 => setQuiet s q { x with txEn := W32.b v 31, mgmtFps := W32.f v 0 8 }
  | 0x08 => setQuiet s q { x with period := W32.f v 0 20 }
  | 0x20 => setQuiet s q { x with burst := W32.f v 20 12, rate := W32.f v 0 20 }
  | 0x24 => setQuiet s q { x with pubId := v.toNat }
  | _ => s

/-- ETH_QCYCLE.period takes 0 and the multiples of 10 from 100 to 1,000,000 (R584). -/
def cycleOk (t : Nat) : Bool := t == 0 || (decide (100 ≤ t) && decide (t ≤ 1000000) && t % 10 == 0)

/-- The RWL registers: block, offset, whether the value is one that the register takes, and the write. -/
def rwlWrite (s : State) (did w o : Nat) (v : W32) : Option (Bool × State) :=
  if w = 0x15 ∧ o = 0x14 then
    let k := Tbl.at 0 s.mmu.memSel did
    some (W32.f v 24 8 != 0, { s with mmu.mcs := s.mmu.mcs.put k { memCtl s k with period := W32.f v 24 8 } })
  else if w = 0x15 ∧ o = 0x18 then some (decide (W32.f v 0 4 ≤ 12), { s with mmu.guardedWays := W32.f v 0 4 })
  else if w = 0x03 ∧ o = 0x08 then some (W32.f v 0 4 != 0, { s with sec.windowMax := W32.f v 0 4 })
  else if w = 0x01 ∧ o = 0x04 then some (true, { s with power.octurResetEn := W32.b v 1, power.perstScope := W32.b v 0 })
  else if w = 0x02 ∧ o = 0x04 then some (decide (35 ≤ W32.f v 0 9) && decide (W32.f v 0 9 ≤ 240), { s with power.plimit := W32.f v 0 9 })
  else if w = 0x11 ∧ 0x04 ≤ o ∧ o ≤ 0x24 ∧ o ≠ 0x0C then some (o != 0x08 || cycleOk (W32.f v 0 20), writeQuiet s did o v)
  else none

/-! ### HIF, QMU, KNT -/

/-- Change the configuration of the ring a DID selects; dropped while the ring is RUNNING or ERROR (R81). -/
def writeRingCfg (s : State) (did : Nat) (f : Ring → Ring) : State :=
  match selRing s did with
  | none => s
  | some (com, r) =>
    let x := if com then comRing s r else subRing s r
    let y := if x.st = .running ∨ x.st = .error then { x with cfgDrop := true } else f x
    if com then setCom s r y else setSub s r y

/-- The ring registers, in the PF's and in each VF's BAR0 (R54, R81). -/
def writeRing (s : State) (did o : Nat) (v : W32) : State :=
  match o with
  | 0x100 => { s with hif.ringSel := s.hif.ringSel.put did (W32.b v 16, W32.f v 0 10) }
  | 0x104 => writeRingCfg s did (fun x => { x with vector := W32.f v 21 11, cring := W32.f v 11 10, intEn := W32.b v 5, sizeLog2 := W32.f v 0 5 })
  | 0x118 => ringCmd s did (W32.f v 0 2)
  | 0x11C =>
    match selRing s did with
    | none => s
    | some (com, r) =>
      let x := if com then comRing s r else subRing s r
      let y := { x with cfgDrop := x.cfgDrop && !W32.b v 2 }
      if com then setCom s r y else setSub s r y
  | _ => s

/-- The MSI-X table of a function (R80, R508). -/
def writeMsix (s : State) (fn o : Nat) (v : W32) : State :=
  let e := (o - 0x8000) / 16
  let k := fnVector0 fn + e
  let m := Tbl.at Msix.reset s.hif.msix k
  let put := fun (m : Msix) => { s with hif.msix := s.hif.msix.put k m }
  if 0xA000 ≤ o ∨ fnVectors fn ≤ e then s
  else if o % 16 = 0 then put { m with addrLo := v }
  else if o % 16 = 4 then put { m with addrHi := v }
  else if o % 16 = 8 then put { m with data := v }
  else if W32.b v 0 then put { m with masked := true }
  else unmaskVector s k

/-- HIF. -/
def writeHif (s : State) (did o : Nat) (v : W32) : State :=
  if 0x8000 ≤ o then writeMsix s 0 o v
  else if 0x100 ≤ o then writeRing s did o v
  else match o with
  | 0x00 =>
    let hi := W32.f v 16 12
    let lo := W32.f v 0 12
    if lo = 0 ∨ hi < lo then s else { s with hif.pollMax := hi, hif.pollMin := lo }
  | 0x08 => { s with hif.fnSel := s.hif.fnSel.put did (W32.f v 0 4) }
  | 0x0C => { s with hif.allocDrop := s.hif.allocDrop && !W32.b v 0 }
  | 0x10 => assignRings s did false v
  | 0x14 => assignRings s did true v
  | _ => s

/-! ### TBU -/

/-- Registers of a PTP port; under 802.1AS a transport other than L2 is not taken (R121). -/
def writePtpPort (s : State) (p o : Nat) (v : W32) : State :=
  let x := ptpPort s p
  let put := fun (x : PtpPort) => { s with tb.ports := s.tb.ports.put p x }
  if 10 ≤ p then s
  else match o with
  | 0x44 => put { x with
      logDelay := W32.f v 16 4, logSync := W32.f v 12 4, role := W32.f v 8 2, oneStep := W32.b v 7, peer := W32.b v 6
      transport := if s.tb.profile = 1 ∧ W32.f v 4 2 ≠ 0 then x.transport else W32.f v 4 2, enable := W32.b v 0 }
  | 0x48 => put { x with extTx := v }
  | 0x4C => put { x with extRx := v }
  | _ => put { x with asym := v, calSum := 0, calCount := 0 }

/-- TBU_CMD (R107, R120, R121). -/
def timeCmd (s : State) (did op : Nat) : State :=
  match op with
  | 0 => s
  | 1 => afterCmd s (execStep did s)
  | 2 => afterCmd s (execReacquire did s)
  | 3 => afterCmd s (execTimeReset did s)
  | 4 => afterCmd s (execSetTod did s)
  | _ => { s with tb.lastCmd := stDescInvalid }

/-- TBU. -/
def writeTbu (s : State) (did o : Nat) (v : W32) : State :=
  if 0x44 ≤ o ∧ o ≤ 0x50 then writePtpPort s (Tbl.at 0 s.tb.portSel did) o v
  else match o with
  | 0x00 => { s with tb.stepRefused := s.tb.stepRefused && !W32.b v 9, tb.refLost := s.tb.refLost && !W32.b v 8 }
  | 0x04 =>
    let t := { s with
      tb.servoEn := W32.b v 31, tb.domain := W32.f v 24 7, tb.profile := W32.f v 12 2, tb.octurPort := W32.f v 8 2, tb.srcBackup := W32.f v 4 3
      tb.srcPrimary := W32.f v 0 3 }
    let t := if s.tb.srcPrimary = t.tb.srcPrimary then t else { t with tb.ports := t.tb.ports.mapV (fun _ p => { p with calSum := 0, calCount := 0 }) }
    if servoSource t = 0 then servoFree t else t
  | 0x08 => timeCmd s did (W32.f v 0 4)
  | 0x20 => { s with tb.kp := v }
  | 0x24 => { s with tb.ki := v }
  | 0x30 => { s with tb.outlier := W32.f v 24 8, tb.stepThreshold := W32.f v 12 12, tb.lockThreshold := W32.f v 0 12 }
  | 0x34 => { s with tb.holdoverDelay := W32.f v 16 16, tb.freqLim := W32.f v 0 16 }
  | 0x40 => { s with tb.portSel := s.tb.portSel.put did (W32.f v 0 4) }
  | 0x60 => { s with
      tb.outWidth := W32.f v 20 12, tb.outForce := W32.b v 4, tb.ppsSel := W32.b v 3, tb.fldOutEn := W32.b v 2, tb.outEn := W32.b v 1
      tb.inFalling := W32.b v 0 }
  | 0x64 => { s with tb.outDelay := W32.f v 16 16, tb.inDelay := W32.f v 0 16 }
  | 0x100 => { s with trig.cadSel := s.trig.cadSel.put did (W32.f v 0 5) }
  | 0x104 =>
    let k := Tbl.at 0 s.trig.cadSel did
    let c := cadOf s k
    if W32.b v 28 then setCad s k { c with stalled := false } else s
  | 0x120 => { s with trig.monSel := s.trig.monSel.put did (W32.f v 0 7) }
  | _ => s

/-! ### SFI -/

/-- SFI (R469, R494), by DID 1 or 2. -/
def writeSfi (s : State) (did o : Nat) (v : W32) : State :=
  match o with
  | 0x00 => { s with safe.ackRefused := s.safe.ackRefused && !W32.b v 27, safe.clearRefused := s.safe.clearRefused && !W32.b v 26 }
  | 0x04 => afterCmd s (execSafeAck did (W32.f v 0 2) s)
  | 0x10 => { s with safe.flowSel := s.safe.flowSel.put did (W32.f v 0 12) }
  | 0x18 => onBit v 0 s (fun s => afterCmd s (execLatchClear did s))
  | 0x100 => { s with safe.wdSel := s.safe.wdSel.put did (place (W32.f v 8 3) 8 3 + W32.f v 0 5) }
  | 0x120 => { s with safe.unitSel := s.safe.unitSel.put did (W32.f v 0 7) }
  | 0x128 =>
    let s := onBit v 1 s (fun s => afterCmd s (execUnitIsolate did s))
    onBit v 0 s (fun s => afterCmd s (execUnitReadmit did s))
  | 0x134 => { s with safe.overdueWarn := s.safe.overdueWarn && !W32.b v 31, safe.overdueDoubt := s.safe.overdueDoubt && !W32.b v 30 }
  | _ => s

/-! ### ICU -/

/-- A word of pending or mask bits (R506): level sources ignore pending writes. -/
def writeSources (s : State) (sic : Bool) (k : Nat) (f : IntSource → Bool → IntSource) (v : W32) : State :=
  (List.range 32).foldl (fun s j =>
    if sourceReserved sic (32 * k + j) then s
    else setSource s sic (32 * k + j) (f (sourceOf s sic (32 * k + j)) (W32.b v j))) s

/-- ICU_SRC_CFG of the selected source: a write of sense code 6 or 7 is dropped (R498); a source that ceases to be level keeps its last
pending bit. -/
def writeSrcCfg (s : State) (sic : Bool) (k : Nat) (v : W32) : State :=
  if sourceReserved sic k ∨ 6 ≤ W32.f v 0 3 then s else
  let x := sourceOf s sic k
  setSource s sic k { x with
    storm := x.storm && !W32.b v 27, overrun := x.overrun && !W32.b v 26, target := if sic then 0 else W32.f v 14 2
    modEn := !sic && W32.b v 13, prio := W32.f v 4 4, pending := pendingOf s sic k, sense := W32.f v 0 3 }

/-- ICU_SRC_CMD: contradictory writes are dropped. -/
def writeSrcCmd (s : State) (did cp : Nat) (v : W32) : State :=
  if (W32.b v 0 && W32.b v 1) || (W32.b v 2 && W32.b v 3) then s else
  let s := onBit v 3 s (fun s => afterCmd s (execIcuSrcClrPend did cp s))
  let s := onBit v 2 s (fun s => afterCmd s (execIcuSrcSetPend did cp s))
  let s := onBit v 1 s (fun s => afterCmd s (execIcuSrcUnmask did cp s))
  onBit v 0 s (fun s => afterCmd s (execIcuSrcMask did cp s))

/-- Registers of a processor. -/
def writeProc (s : State) (sic : Bool) (p o : Nat) (v : W32) : State :=
  let x := procOf s sic p
  if o = 0 then setProc s sic p { x with vbase := W32.f v 16 16 }
  else if o = 4 then setProc s sic p { x with modUs := W32.f v 16 12, threshold := W32.f v 0 4 }
  else if o = 12 then afterCmd s (execIcuEoi sic p (W32.f v 0 10) s)
  else s

/-- The W1C bits of ICU_STATUS. -/
def IntCtl.clearBits (c : IntCtl) (v : W32) : IntCtl :=
  { c with eoiErr := (List.range 4).foldl (fun n p => n + placeB (c.eoiErr.testBit p && !W32.b v (28 + p)) p) 0, overrunAny := c.overrunAny && !W32.b v 27 }

/-- The SIC's registers: 8 words of sources and one processor; only DID 0 reaches them (R510). -/
def writeSic (s : State) (o : Nat) (v : W32) : State :=
  if o < 0x20 then writeSources s true (o / 4) (fun x b => if x.level then x else { x with pending := b }) v
  else if 0x80 ≤ o ∧ o < 0xA0 then writeSources s true ((o - 0x80) / 4) (fun x b => { x with masked := b }) v
  else if 0x200 ≤ o ∧ o < 0x210 then writeProc s true 0 (o % 16) v
  else match o with
  | 0x100 => { s with sic.srcSel := s.sic.srcSel.put 0 (W32.f v 0 8) }
  | 0x104 => writeSrcCfg s true (srcSelected s 0 0) v
  | 0x108 => writeSrcCmd s 0 0 v
  | 0x304 => { s with sic := s.sic.clearBits v }
  | _ => s

/-- ICU (R509): DID 1, and DID 2 for software sources and MSI-X moderation. -/
def writeIcu (s : State) (did cp o : Nat) (v : W32) : State :=
  if o = 0x300 then afterCmd s (execIcuSwi did (W32.f v 0 10) s)
  else if did ≠ 1 ∧ did ≠ 2 then s
  else if o = 0x400 then { s with icu.msixSel := s.icu.msixSel.put did (W32.f v 0 11) }
  else if o = 0x404 then
    let k := Tbl.at 0 s.icu.msixSel did
    { s with hif.msix := s.hif.msix.put k { Tbl.at Msix.reset s.hif.msix k with mod := W32.f v 0 12 } }
  else if did ≠ 1 then s
  else if o < 0x80 then writeSources s false (o / 4) (fun x b => if x.level then x else { x with pending := b }) v
  else if o < 0x100 then writeSources s false ((o - 0x80) / 4) (fun x b => { x with masked := b }) v
  else if 0x200 ≤ o ∧ o < 0x240 then writeProc s false ((o - 0x200) / 16) (o % 16) v
  else if 0x310 ≤ o ∧ o < 0x350 then (if W32.b v 0 then s else afterCmd s (execIcuLockRelease did ((o - 0x310) / 4) s))
  else match o with
  | 0x100 => { s with icu.srcSel := s.icu.srcSel.put (selPlace did cp) (W32.f v 0 10) }
  | 0x104 => writeSrcCfg s false (srcSelected s did cp) v
  | 0x108 => writeSrcCmd s did cp v
  | 0x304 => { s with icu := s.icu.clearBits v }
  | _ => s

/-! ### OCT -/

/-- OCT_CFG (R573, R585): written only while enable is clear; setting enable sends the ports into training. -/
def writeOctCfg (s : State) (v : W32) : State :=
  let on_ := W32.b v 31
  if s.oct.enable then s
  else { s with oct := { s.oct with
    enable := on_, torus := W32.b v 16, rows := W32.f v 12 2, cols := W32.f v 8 2, module := W32.f v 0 4
    ports := if on_ then (List.range 4).foldl (fun t p => t.put p { octPort s p with st := .training }) s.oct.ports else s.oct.ports } }

/-- OCT (R585), by DID 1 or 2. -/
def writeOct (s : State) (did o : Nat) (v : W32) : State :=
  match o with
  | 0x00 => writeOctCfg s v
  | 0x04 => { s with oct.psel := s.oct.psel.put did (W32.f v 0 2) }
  | 0x10 =>
    let p := Tbl.at 0 s.oct.psel did
    { s with oct.ports := s.oct.ports.put p { octPort s p with asym := v.toNat } }
  | 0x14 =>
    let s := { s with oct.throttled := s.oct.throttled && !W32.b v 31 }
    if 1 ≤ W32.f v 0 7 ∧ W32.f v 0 7 ≤ 100 then { s with oct.budget := W32.f v 0 7 } else s
  | _ => s

/-! ### DBG -/

/-- DBG_LINK_CTRL (R630, R631, R637): loop and pattern are taken only while no test runs. -/
def writeLinkCtrl (s : State) (l : Nat) (v : W32) : State :=
  let x := linkTest s l
  let s := if x.run then (if W32.b v 31 then s else endTest s l 0)
    else if W32.b v 31 then startTest s l (W32.f v 4 2) (W32.f v 0 4)
    else setLink s l { x with loop := W32.f v 4 2, pattern := W32.f v 0 4 }
  onBit v 12 s (fun s => injectError s l)

/-- DBG (R528, R536, R637). -/
def writeDbg (s : State) (did o : Nat) (v : W32) : State :=
  if 0x40 ≤ o ∧ o < 0xA4 then { s with dbg.auth := s.dbg.auth.put ((o - 0x40) / 4) v }
  else match o with
  | 0x000 =>
    let s := { s with dbg.refused := s.dbg.refused && !W32.b v 31 }
    if W32.f v 0 2 = 3 then s else afterCmd s (execDbgLevelWrite did (W32.f v 0 2) s)
  | 0x0A4 => onBit v 0 s (fun s => afterCmd s (execDbgAuthGo s))
  | 0x100 => if did = 1 ∨ did = 2 then { s with dbg.linkSel := s.dbg.linkSel.put did (W32.f v 0 5) } else s
  | 0x104 => match selLink s did with
    | some l => writeLinkCtrl s l v
    | none => s
  | 0x200 => { s with dbg.traceTypes := W32.f v 0 7 }
  | _ => s

/-! ### Core windows -/

/-- A core window (R300, R389, R413). -/
def writeCore (s : State) (did c o : Nat) (v : W32) : State :=
  if o < 0xC0000 then
    let g := 12 * c + o / 0x10000
    match o % 0x10000 with
    | 0x0C => { s with eng.threadSel := s.eng.threadSel.put (16 * g + did) (W32.f v 0 6) }
    | 0x18 =>
      let e := engineOf s g
      let up := e.sticky && !W32.b v 6
      icuSet (setEngine s g { e with sticky := up }) (64 + g) up
    | _ => s
  else if o = 0xD0000 then
    let x := pipeOf s c
    setPipe s c { x with checkFail := x.checkFail && !W32.b v 29 }
  else if o = 0xE0000 then
    let x := Tbl.at SolveUnit.reset s.slv.units c
    { s with slv.units := s.slv.units.put c { x with checkFail := x.checkFail && !W32.b v 29 } }
  else s

/-! ### Selectors and W1C bits of the other blocks -/

/-- ERG, SPL, XFT, LYT, MMU, MEM. -/
def writeErg (s : State) (did o : Nat) (v : W32) : State :=
  match o with
  | 0x00 => { s with geo.ergSel := s.geo.ergSel.put did (W32.f v 0 1) }
  | 0x04 =>
    let k := Tbl.at 0 s.geo.ergSel did
    let x := Tbl.at ErgUnit.reset s.geo.erg k
    { s with geo.erg := s.geo.erg.put k { x with truncated := x.truncated && !W32.b v 29, storeErr := x.storeErr && !W32.b v 28 } }
  | _ => s
def writeSpl (s : State) (did o : Nat) (v : W32) : State :=
  match o with
  | 0x00 => { s with spl.cadSel := s.spl.cadSel.put did (W32.f v 0 5) }
  | 0x04 => if W32.b v 16 then { s with spl.capacity := s.spl.capacity.put (Tbl.at 0 s.spl.cadSel did) false } else s
  | 0x10 => { s with spl.streamSel := s.spl.streamSel.put did (W32.f v 0 7) }
  | _ => s
def writeXft (s : State) (did o : Nat) (v : W32) : State :=
  match o with
  | 0x00 => { s with xft.jointSel := s.xft.jointSel.put did (W32.f v 0 7) }
  | 0x10 => { s with xft.egoSel := s.xft.egoSel.put did (W32.f v 0 4) }
  | 0x1C => { s with xft.capacity := s.xft.capacity && !W32.b v 31 }
  | _ => s
def writeLyt (s : State) (did o : Nat) (v : W32) : State :=
  match o with
  | 0x0000 => { s with lyt.sel := s.lyt.sel.put did (W32.f v 0 2) }
  | 0x0004 =>
    let k := Tbl.at 0 s.lyt.sel did
    let x := Tbl.at LytEngine.reset s.lyt.engines k
    { s with lyt.engines := s.lyt.engines.put k { x with checkFail := x.checkFail && !W32.b v 29 } }
  | 0x8000 => { s with geo.gridSel := s.geo.gridSel.put did (W32.f v 0 3) }
  | _ => s
def writeMmu (s : State) (did o : Nat) (v : W32) : State :=
  match o with
  | 0x00 => { s with mmu.ctxSel := s.mmu.ctxSel.put did (W32.f v 0 4) }
  | 0x10 =>
    let f := Tbl.at MmuFault.reset s.mmu.faults did
    { s with mmu.faults := s.mmu.faults.put did { f with valid := f.valid && !W32.b v 23 } }
  | 0x20 => { s with mmu.fwSel := s.mmu.fwSel.put did (W32.f v 0 8) }
  | _ => s
def writeMem (s : State) (did o : Nat) (v : W32) : State :=
  match o with
  | 0x00 => { s with mmu.memSel := s.mmu.memSel.put did (W32.f v 0 3) }
  | 0x04 =>
    let k := Tbl.at 0 s.mmu.memSel did
    let c := memCtl s k
    let up := c.hot && !W32.b v 30
    icuSet { s with mmu.mcs := s.mmu.mcs.put k { c with hot := up } } (176 + k) up
  | _ => s

/-- Registers that only select what their block shows: QMU, KNT, ING, SEQ, SLV, ETH, FLD. -/
def writeSel (s : State) (did w o : Nat) (v : W32) : State :=
  match w, o with
  | 0x05, 0x00 => { s with qmu.sel := s.qmu.sel.put did (W32.f v 0 17) }
  | 0x06, 0x00 => { s with knots.sel := s.knots.sel.put did (W32.f v 0 13) }
  | 0x08, 0x00 => { s with ing.portSel := s.ing.portSel.put did (W32.f v 0 4) }
  | 0x08, 0x10 => { s with ing.streamSel := s.ing.streamSel.put did (W32.f v 0 7) }
  | 0x0C, 0x00 => { s with seq.sel := s.seq.sel.put did (W32.f v 0 14) }
  | 0x0C, 0x20 => { s with seq.poolSel := s.seq.poolSel.put did (W32.f v 0 4) }
  | 0x0D, 0x00 => { s with slv.sel := s.slv.sel.put did (W32.f v 0 3) }
  | 0x11, 0x00 => { s with eth.qsel := s.eth.qsel.put did (W32.f v 0 1) }
  | 0x13, 0x0C => { s with fld.chSel := s.fld.chSel.put did (W32.f v 0 3) }
  | _, _ => s

/-! ### The whole map (R640, R641) -/

/-- Windows that take writes of DIDs 1 and 2 only. -/
def hostOnly (w : Nat) : Bool := [0x01, 0x02, 0x03, 0x0F, 0x11, 0x12, 0x13, 0x17].contains w

/-- A write to a register of a block window but for the pairs. -/
def writeBlock (s : State) (did cp w o : Nat) (v : W32) : State :=
  match rwlWrite s did w o v with
  | some (valid, t) => writeRwl s did w o valid (fun _ => t)
  | none =>
    if hostOnly w && !(did == 1 || did == 2) then s
    else match w with
    | 0x01 => writeRcu s did o v
    | 0x02 => writeCpm s did o v
    | 0x03 => writeSec s did o v
    | 0x04 => writeHif s did o v
    | 0x07 => writeTbu s did o v
    | 0x09 => writeSpl s did o v
    | 0x0A => writeXft s did o v
    | 0x0B => writeErg s did o v
    | 0x0E => writeLyt s did o v
    | 0x0F => writeSfi s did o v
    | 0x10 => writeIcu s did cp o v
    | 0x12 => writeOct s did o v
    | 0x14 => writeMmu s did o v
    | 0x15 => writeMem s did o v
    | 0x16 => writeDbg s did o v
    | 0x17 => writeOas s did o v
    | _ => writeSel s did w o v

/-- A 64-bit value takes effect in the pair whose low register stands at a BAR0 offset (R6). -/
def writePair (s : State) (did a v : Nat) : State :=
  match a with
  | 0x020010 => if did = 1 ∨ did = 2 then { s with power.wake := v % 2 ^ 64 } else s
  | 0x040020 => { s with hif.winBaseHi := bitsOf v 32 16 }
  | 0x040108 => writeRingCfg s did (fun x => { x with base := BitVec.ofNat 64 (v / 4096 * 4096) })
  | 0x040110 => writeRingCfg s did (fun x => { x with db := BitVec.ofNat 64 (v / 16 * 16) })
  | 0x070018 => { s with tb.operand := BitVec.ofNat 64 v }
  | 0x160300 => { s with dbg.memBase := bitsOf v 12 36 * 4096 }
  | _ => s

end Sys2Proof.Machine
end

