-- ==== Sys2Proof/Machine/Bar.lean ====
section
/-! DEFINITION. Accesses to BAR0: which answer, 64-bit pairs, and the debug port's accesses (spec/00_scope.md R5 to R9, spec/23_reset_power_boot.md R551, spec/27_test_diagnostics.md R634, R639, spec/28_register_map.md R640, R641). -/

namespace Sys2Proof.Machine

/-- MSI-X table or PBA in a HIF window. -/
def msixArea (o : Nat) : Bool := decide (0x8000 ≤ o) && decide (o < 0xC000)

/-- The window of the SIC's registers in the island's private address space, which this model reaches at the offsets after BAR0 (R510; log
entry 136). -/
def sicWindow : Nat := 0x400

/-- The BAR0 offset of a PF register that a DID's access reaches: a VF's ring registers and MSI-X area stand in its own BAR0 (R54). -/
def barPlace (did offset : Nat) : Option Nat :=
  if did = 0 ∧ offset / 65536 = sicWindow then some offset
  else if did ≤ 2 then (if offset < 2 ^ 26 then some offset else none)
  else if did < 16 ∧ ((0x100 ≤ offset ∧ offset ≤ 0x120) ∨ (0x8000 ≤ offset ∧ offset < 0xC000)) then some (0x40000 + offset) else none

/-- The access answers: the logic is powered, PCIe is out of reset for a host function, and before READY only GLB, RCU, OAS, DBG and the MSI-X
areas do (R551). -/
def barOpen (s : State) (did a : Nat) : Bool :=
  logicPowered s && (decide (did ≤ 1) || pcieUp s)
    && (s.bootReady || decide (a < 0x20000) || (decide (0x160000 ≤ a) && decide (a < 0x180000)) || (a / 65536 == 4 && msixArea (a % 65536)) || a / 65536 == sicWindow)

/-- Key of a held half of a pair. -/
def pairKey (did a : Nat) : Nat := did * 2 ^ 26 + a

/-- A word of the debug memory window: DID 1's device-virtual memory; a faulting read is all ones (R639). -/
def memWindow (s : State) (o : Nat) : Nat × State :=
  if s.dbg.level = 0 then (0, s) else
  let r := devRead s { did := 1, guarded := false, kind := 4, index := 0x1600, flows := [] } (s.dbg.memBase + (o - 0x1000)) 4
  if r.1 = stOk then (ofLe r.2.1, r.2.2) else (0xFFFFFFFF, r.2.2)

/-- Read one register as a DID: its value and what the read does. -/
def barRead (s : State) (did cp a : Nat) : Nat × State :=
  let w := a / 65536
  let o := a % 65536
  if !barOpen s did a then (0, s)
  else match pairValue s did a with
  | some v => (v % 2 ^ 32, { s with readHi := s.readHi.put (pairKey did a) (v / 2 ^ 32) })
  | none =>
    match (if 4 ≤ a then pairValue s did (a - 4) else none) with
    | some v => ((s.readHi.find (pairKey did (a - 4))).getD (v / 2 ^ 32), s)
    | none =>
      if w = sicWindow then (readSic s o, s)
      else if 256 ≤ w then (if a < 0x1600000 then (readCore s did (w / 16 % 16) (a % 2 ^ 20), s) else (0, s))
      else if w = 0x10 ∧ 0x310 ≤ o ∧ o < 0x350 then
        let k := (o - 0x310) / 4
        if did = 1 ∧ !Tbl.at false s.icu.locks k then (1, { s with icu.locks := s.icu.locks.put k true }) else (0, s)
      else if w = 0x16 ∧ o = 0x10 then
        let s := renewNonce s
        ((nonceWord s 0).toNat, s)
      else if w = 0x16 ∧ 0x1000 ≤ o ∧ o < 0x2000 then memWindow s o
      else if w = 4 ∧ msixArea o then (readMsix s (fnOfDid did) o, s)
      else (readReg s did cp w o, s)

/-- The pair whose low register stands at an offset takes writes of a DID. -/
def pairTakes (s : State) (did a : Nat) : Bool :=
  [0x020010, 0x040020, 0x040108, 0x040110, 0x070018, 0x160300].contains a && (pairValue s did a).isSome && !(a == 0x020010 && did != 1 && did != 2)

/-- A write to a low register is held (R6); that of a ring's HIF_RING_BASE or HIF_RING_DB is dropped and sets cfg_drop while the ring is RUNNING
or ERROR (R81). -/
def holdLow (s : State) (did a : Nat) (v : W32) : State :=
  let busy := match selRing s did with
    | some (com, r) => let x := if com then comRing s r else subRing s r
                       x.st == .running || x.st == .error
    | none => false
  if (a == 0x040108 || a == 0x040110) && busy then writeRingCfg s did id else
  { s with writeLo := s.writeLo.put (pairKey did a) v.toNat }

/-- A write to a high register joins the held low half, or the current one, and takes effect (R6). -/
def joinHigh (s : State) (did a : Nat) (v : W32) : State :=
  let lo := (s.writeLo.find (pairKey did a)).getD ((pairValue s did a).getD 0 % 2 ^ 32)
  writePair { s with writeLo := Tbl.drop s.writeLo (pairKey did a) } did a (v.toNat * 2 ^ 32 + lo)

/-- Write one register as a DID. -/
def barWrite (s : State) (did cp a : Nat) (v : W32) : State :=
  let w := a / 65536
  let o := a % 65536
  if !barOpen s did a then s
  else if (pairValue s did a).isSome then (if pairTakes s did a then holdLow s did a v else s)
  else if 4 ≤ a ∧ (pairValue s did (a - 4)).isSome then (if pairTakes s did (a - 4) then joinHigh s did (a - 4) v else s)
  else if w = sicWindow then writeSic s o v
  else if 256 ≤ w then (if a < 0x1600000 then writeCore s did (w / 16 % 16) (a % 2 ^ 20) v else s)
  else if w = 4 ∧ msixArea o then writeMsix s (fnOfDid did) o v
  else writeBlock s did cp w o v

/-- An access is one that BAR0 takes: 32 bits, aligned (R5). -/
def BarAccess.aligned (a : BarAccess) : Bool := a.size == 4 && a.offset % 4 == 0

/-- A write as a PCIe access. -/
def writeAccess (s : State) (a : BarAccess) : State :=
  if !BarAccess.aligned a then s
  else match barPlace a.did a.offset with
  | some p => barWrite s a.did a.cp p a.data
  | none => s

/-- A read as a PCIe access; an access that is not an aligned 32-bit one reads all ones (R5). -/
def readAccess (s : State) (a : BarAccess) : State :=
  let answer := fun (r : Nat × State) => emit r.2 (.readData a.did a.offset (BitVec.ofNat 32 r.1))
  if !BarAccess.aligned a then answer (0xFFFFFFFF, s)
  else match barPlace a.did a.offset with
  | some p => answer (barRead s a.did a.cp p)
  | none => answer (0, s)

/-- The selectors that are held separately for each DID (or each control processor), each with the registers it selects: BAR0 offset of the
selector, of the first and of the last selected register (R6, R81 and the register tables of the chapters). -/
def selectors : List (Nat × Nat × Nat) :=
  [(0x040008, 0x040010, 0x040014), (0x040100, 0x040104, 0x040120), (0x050000, 0x050004, 0x050004), (0x060000, 0x060004, 0x060008),
   (0x070040, 0x070044, 0x070050), (0x070100, 0x070104, 0x070118), (0x070120, 0x070124, 0x07012C), (0x080000, 0x080004, 0x080008),
   (0x080010, 0x080014, 0x08001C), (0x090000, 0x090004, 0x090004), (0x090010, 0x090014, 0x09001C), (0x0A0000, 0x0A0004, 0x0A000C),
   (0x0A0010, 0x0A0014, 0x0A0018), (0x0B0000, 0x0B0004, 0x0B0018), (0x0C0000, 0x0C0004, 0x0C0014), (0x0C0020, 0x0C0024, 0x0C0024)]
  ++ [(0x0D0000, 0x0D0004, 0x0D0010), (0x0E0000, 0x0E0004, 0x0E0018), (0x0E8000, 0x0E8004, 0x0E8FFC), (0x0F0010, 0x0F0014, 0x0F0018),
   (0x0F0100, 0x0F0104, 0x0F0110), (0x0F0120, 0x0F0124, 0x0F0130), (0x100100, 0x100104, 0x100108), (0x100400, 0x100404, 0x100404),
   (0x110000, 0x110004, 0x11002C), (0x140000, 0x140004, 0x140010), (0x140020, 0x140024, 0x140030), (0x150000, 0x150004, 0x150018),
   (0x160100, 0x160104, 0x160114), (0x120004, 0x120008, 0x120010), (0x13000C, 0x130010, 0x130018)]

/-- Two DIDs' accesses at one BAR0 offset reach one register: not a selector, which each DID holds for itself, and not registers of two
selected objects; nor the ring registers or MSI-X areas of two functions. -/
def sharedAt (s : State) (a b : BarAccess) (p : Nat) : Bool :=
  let sel := fun (x : BarAccess) (q : Nat) => readReg s x.did x.cp (q / 65536) (q % 65536)
  !((selectors.any (fun q => q.1 == p) || (decide (2 ^ 24 ≤ p) && p % 65536 == 0x0C)) && (a.did != b.did || a.cp != b.cp))
    && selectors.all (fun q => !(decide (q.2.1 ≤ p) && decide (p ≤ q.2.2)) || sel a q.1 == sel b q.1)
    && (!(p / 65536 == 4 && (msixArea (p % 65536) || (decide (0x100 < p % 65536) && decide (p % 65536 ≤ 0x120)))) || fnOfDid a.did == fnOfDid b.did)

/-- Two accesses write one register: the low half of a pair is held for each DID, and two high halves meet in the pair (R6, R9). -/
def sameRegister (s : State) (a b : BarAccess) : Bool :=
  match barPlace a.did a.offset, barPlace b.did b.offset with
  | some p, some q => BarAccess.aligned a && BarAccess.aligned b && p == q && sharedAt s a b p && (a.did == b.did || !(pairValue s a.did p).isSome)
  | _, _ => false

/-- The writes of one FAB cycle that land: of two that write the same register, the one of the lower DID, so the island's, then the firmware's, then
a host function's in the order of the DIDs (R9). DESIGN CHOICE (log 124): of two under one DID the first of the list. -/
def landing (s : State) (l : List BarAccess) : List BarAccess :=
  l.zipIdx.filterMap (fun x =>
    if l.zipIdx.any (fun y => sameRegister s x.1 y.1 && (decide (y.1.did < x.1.did) || (y.1.did == x.1.did && decide (y.2 < x.2)))) then none
    else some x.1)

/-- REGISTER_WRITE, with the writes of other masters in the same FAB cycle (R5 to R9). -/
def execRegisterWrite (w : RegWrite) (s : State) : Host.Outcome State Fault Refusal :=
  .next ((landing s (w.own :: w.rivals)).foldl writeAccess s)

/-- REGISTER_READ_LO: a read of a low register latches the pair's upper half; a read of any other register answers too (R6). -/
def execRegisterReadLo (a : BarAccess) (s : State) : Host.Outcome State Fault Refusal := .next (readAccess s a)

/-- REGISTER_WRITE_LO: a write to the low register of a pair is held (R6). -/
def execRegisterWriteLo (a : BarAccess) (s : State) : Host.Outcome State Fault Refusal :=
  match barPlace a.did a.offset with
  | some p => if BarAccess.aligned a && barOpen s a.did p && pairTakes s a.did p then .next (holdLow s a.did p a.data) else .next s
  | none => .next s

/-- REGISTER_WRITE_HI: a write to the high register of a pair (R6). -/
def execRegisterWriteHi (a : BarAccess) (s : State) : Host.Outcome State Fault Refusal :=
  match barPlace a.did a.offset with
  | some p =>
    if BarAccess.aligned a && decide (4 ≤ p) && barOpen s a.did p && pairTakes s a.did (p - 4) then .next (joinHigh s a.did (p - 4) a.data) else .next s
  | none => .next s

/-- DBG_MEM_WINDOW_ACCESS: an access of a DID at an offset of the memory window, under R5 like any other; writes are dropped (R639). -/
def execDbgMemWindowAccess (did : Nat) (span : WindowSpan) (write : Bool) (s : State) : Host.Outcome State Fault Refusal :=
  if write then .next s
  else .next (readAccess s { did := did, cp := 0, offset := 0x161000 + span.offset % 0x1000, size := span.size, data := 0 })

/-- The debug level lets the debug port make an access (R634): the DBG window up to 0x00FF always, reads from OBSERVE, writes at INTRUSIVE. -/
def portAllowed (s : State) (a : Nat) (write : Bool) : Bool :=
  a / 256 == 0x1600 || s.dbg.level == 2 || (s.dbg.level == 1 && !write)

/-- One access of the debug port as DID 1 (R634). -/
def portAccess (s : State) (word : BitVec 64) : State :=
  let n := word.toNat
  let a := bitsOf n 8 24 * 4
  let write := n.testBit 1
  if !portAllowed s a write then { s with dbg.drError := true }
  else if write then { barWrite s 1 0 a (BitVec.ofNat 32 (n / 2 ^ 32)) with dbg.drError := false }
  else
    let r := barRead s 1 0 a
    { r.2 with dbg.drData := BitVec.ofNat 32 r.1, dbg.drError := false }

/-- DBG_ACCESS: the instruction, and one Update-DR with this data register; the next Capture-DR gives the result (R632, R634). -/
def execDbgAccess (word : BitVec 64) (s : State) : Host.Outcome State Fault Refusal :=
  let s := portAccess (loadIr s 0x08 (fun _ => true) (fun s => s)) word
  .next (emit s (.tdo (s.dbg.drData.toNat * 2 ^ 32 + bitsOf word.toNat 8 24 * 256 + placeB (word.toNat.testBit 1) 1 + s.dbg.drError.toNat)))

end Sys2Proof.Machine
end

