-- ==== Sys2Proof/Machine/Dispatch.lean ====
section
/-! DEFINITION. The dispatch of the commands, one arm per constructor of `Instr`. -/

namespace Sys2Proof.Machine

/-- The effect of one command on everything but the queue. -/
def exec (i : Instr) (s : State) : Host.Outcome State Fault Refusal :=
  match i with
  | .registerWrite w => Sys2Proof.Machine.execRegisterWrite w s
  | .registerReadLo a => Sys2Proof.Machine.execRegisterReadLo a s
  | .registerWriteLo a => Sys2Proof.Machine.execRegisterWriteLo a s
  | .registerWriteHi a => Sys2Proof.Machine.execRegisterWriteHi a s
  | .bar2WindowAccess write offset bytes => Sys2Proof.Machine.execBar2WindowAccess write offset bytes s
  | .functionLevelReset fn => Sys2Proof.Machine.execFunctionLevelReset fn s
  | .hifFnAssign did completion value => Sys2Proof.Machine.execHifFnAssign did completion value s
  | .start did => Sys2Proof.Machine.execStart did s
  | .stop did => Sys2Proof.Machine.execStop did s
  | .reset did => Sys2Proof.Machine.execReset did s
  | .sringStopped ring => Sys2Proof.Machine.execSringStopped ring s
  | .doorbellPoll => Sys2Proof.Machine.execDoorbellPoll s
  | .doorbellPollReturn completion ring record => Sys2Proof.Machine.execDoorbellPollReturn completion ring record s
  | .descriptorArrival holder index bytes => Sys2Proof.Machine.execDescriptorArrival holder index bytes s
  | .nop d => Sys2Proof.Machine.execNop d s
  | .timeMark d => Sys2Proof.Machine.execTimeMark d s
  | .flowConfig d => Sys2Proof.Machine.execFlowConfig d s
  | .flowRing d => Sys2Proof.Machine.execFlowRing d s
  | .flowDelete d => Sys2Proof.Machine.execFlowDelete d s
  | .msixModerationExpiry vector => Sys2Proof.Machine.execMsixModerationExpiry vector s
  | .msixVectorUnmask vector => Sys2Proof.Machine.execMsixVectorUnmask vector s
  | .qCreate d => Sys2Proof.Machine.execQCreate d s
  | .qDestroy d => Sys2Proof.Machine.execQDestroy d s
  | .qFlush d => Sys2Proof.Machine.execQFlush d s
  | .qQuery d => Sys2Proof.Machine.execQQuery d s
  | .blockedEnqueueResume queue => Sys2Proof.Machine.execBlockedEnqueueResume queue s
  | .qmuBackgroundSweep fault queue => Sys2Proof.Machine.execQmuBackgroundSweep fault queue s
  | .kInit d => Sys2Proof.Machine.execKInit d s
  | .kSignal d => Sys2Proof.Machine.execKSignal d s
  | .kRead d => Sys2Proof.Machine.execKRead d s
  | .kFree d => Sys2Proof.Machine.execKFree d s
  | .knotWaitRelease knot => Sys2Proof.Machine.execKnotWaitRelease knot s
  | .knotWaitRetry src turn => Sys2Proof.Machine.execKnotWaitRetry src turn s
  | .knotPoisoned knot => Sys2Proof.Machine.execKnotPoisoned knot s
  | .step did => Sys2Proof.Machine.execStep did s
  | .reacquire did => Sys2Proof.Machine.execReacquire did s
  | .timeReset did => Sys2Proof.Machine.execTimeReset did s
  | .setTod did => Sys2Proof.Machine.execSetTod did s
  | .ptpMessageRx m => Sys2Proof.Machine.execPtpMessageRx m s
  | .ptpMessageTx m => Sys2Proof.Machine.execPtpMessageTx m s
  | .servoSample port seq ingress egress => Sys2Proof.Machine.execServoSample port seq ingress egress s
  | .servoHoldoverTimeout => Sys2Proof.Machine.execServoHoldoverTimeout s
  | .dpllRefLost => Sys2Proof.Machine.execDpllRefLost s
  | .ppsInEdge field falling sub => Sys2Proof.Machine.execPpsInEdge field falling sub s
  | .ppsOutEdge => Sys2Proof.Machine.execPpsOutEdge s
  | .clk10mGate freq => Sys2Proof.Machine.execClk10mGate freq s
  | .fieldTimeMarker ta tb tc td => Sys2Proof.Machine.execFieldTimeMarker ta tb tc td s
  | .fieldLinkDown => Sys2Proof.Machine.execFieldLinkDown s
  | .fieldLinkUp => Sys2Proof.Machine.execFieldLinkUp s
  | .cadConfig d => Sys2Proof.Machine.execCadConfig d s
  | .cadArm d => Sys2Proof.Machine.execCadArm d s
  | .cadStop d => Sys2Proof.Machine.execCadStop d s
  | .trigConfig d => Sys2Proof.Machine.execTrigConfig d s
  | .actConfig d => Sys2Proof.Machine.execActConfig d s
  | .trigMon d => Sys2Proof.Machine.execTrigMon d s
  | .flowCatchup d => Sys2Proof.Machine.execFlowCatchup d s
  | .cadenceAcqStart c => Sys2Proof.Machine.execCadenceAcqStart c s
  | .cadenceClose c => Sys2Proof.Machine.execCadenceClose c s
  | .cadenceDeadline c => Sys2Proof.Machine.execCadenceDeadline c s
  | .epochWorkFinish c n => Sys2Proof.Machine.execEpochWorkFinish c n s
  | .triggerEdge output => Sys2Proof.Machine.execTriggerEdge output s
  | .actionCmdSend action hold => Sys2Proof.Machine.execActionCmdSend action hold s
  | .actionAckRx action => Sys2Proof.Machine.execActionAckRx action s
  | .triggerMissed stream => Sys2Proof.Machine.execTriggerMissed stream s
  | .portConfig d => Sys2Proof.Machine.execPortConfig d s
  | .partnerSet d => Sys2Proof.Machine.execPartnerSet d s
  | .partnerClear d => Sys2Proof.Machine.execPartnerClear d s
  | .streamConfig d => Sys2Proof.Machine.execStreamConfig d s
  | .streamEnable d => Sys2Proof.Machine.execStreamEnable d s
  | .ucodeLoad d => Sys2Proof.Machine.execUcodeLoad d s
  | .tagMap d => Sys2Proof.Machine.execTagMap d s
  | .testInject d => Sys2Proof.Machine.execTestInject d s
  | .tagRead d => Sys2Proof.Machine.execTagRead d s
  | .streamDelete d => Sys2Proof.Machine.execStreamDelete d s
  | .frameReceive f => Sys2Proof.Machine.execFrameReceive f s
  | .parserRun w => Sys2Proof.Machine.execParserRun w s
  | .gvspFrameTimeout stream => Sys2Proof.Machine.execGvspFrameTimeout stream s
  | .fieldRecordRx => Sys2Proof.Machine.execFieldRecordRx s
  | .tagWriteResume copied => Sys2Proof.Machine.execTagWriteResume copied s
  | .testInjectionStart stream => Sys2Proof.Machine.execTestInjectionStart stream s
  | .testInjectTimeout stream => Sys2Proof.Machine.execTestInjectTimeout stream s
  | .streamFrozenRecovery stream => Sys2Proof.Machine.execStreamFrozenRecovery stream s
  | .streamTimeRestored stream => Sys2Proof.Machine.execStreamTimeRestored stream s
  | .contestedExpiry stream => Sys2Proof.Machine.execContestedExpiry stream s
  | .alignEnd c => Sys2Proof.Machine.execAlignEnd c s
  | .splStream d => Sys2Proof.Machine.execSplStream d s
  | .splInputs d => Sys2Proof.Machine.execSplInputs d s
  | .splSnapshot d => Sys2Proof.Machine.execSplSnapshot d s
  | .poseEvaluation bad => Sys2Proof.Machine.execPoseEvaluation bad s
  | .egoMotion g => Sys2Proof.Machine.execEgoMotion g s
  | .xftEntry d => Sys2Proof.Machine.execXftEntry d s
  | .xftRig d => Sys2Proof.Machine.execXftRig d s
  | .xftJoint d => Sys2Proof.Machine.execXftJoint d s
  | .xftMount d => Sys2Proof.Machine.execXftMount d s
  | .xftEgo d => Sys2Proof.Machine.execXftEgo d s
  | .xftSetRef d => Sys2Proof.Machine.execXftSetRef d s
  | .xftDelete d => Sys2Proof.Machine.execXftDelete d s
  | .voxelBuild unit errs => Sys2Proof.Machine.execVoxelBuild unit errs s
  | .ergVolume d => Sys2Proof.Machine.execErgVolume d s
  | .ergKnn d => Sys2Proof.Machine.execErgKnn d s
  | .ergFps d => Sys2Proof.Machine.execErgFps d s
  | .ergRules d => Sys2Proof.Machine.execErgRules d s
  | .ergBev d => Sys2Proof.Machine.execErgBev d s
  | .gridConfig d => Sys2Proof.Machine.execGridConfig d s
  | .gridSource d => Sys2Proof.Machine.execGridSource d s
  | .gridOutput d => Sys2Proof.Machine.execGridOutput d s
  | .gridArea d => Sys2Proof.Machine.execGridArea d s
  | .gridDelete d => Sys2Proof.Machine.execGridDelete d s
  | .fuseStepStart g => Sys2Proof.Machine.execFuseStepStart g s
  | .engProgLoad d => Sys2Proof.Machine.execEngProgLoad d s
  | .engProgFree d => Sys2Proof.Machine.execEngProgFree d s
  | .engTask d => Sys2Proof.Machine.execEngTask d s
  | .engTaskBind d => Sys2Proof.Machine.execEngTaskBind d s
  | .engTaskUnbind d => Sys2Proof.Machine.execEngTaskUnbind d s
  | .boundTaskReady h => Sys2Proof.Machine.execBoundTaskReady h s
  | .instancePlacement => Sys2Proof.Machine.execInstancePlacement s
  | .instanceEnd inst => Sys2Proof.Machine.execInstanceEnd inst s
  | .fetchArrival t ecc => Sys2Proof.Machine.execFetchArrival t ecc s
  | .loadReturn t ecc => Sys2Proof.Machine.execLoadReturn t ecc s
  | .copyDone t => Sys2Proof.Machine.execCopyDone t s
  | .residueVerdict t pass => Sys2Proof.Machine.execResidueVerdict t pass s
  | .queueAnswer t => Sys2Proof.Machine.execQueueAnswer t s
  | .callCompletion t slot => Sys2Proof.Machine.execCallCompletion t slot s
  | .engNop t e => Sys2Proof.Machine.execEngNop t e s
  | .add t e => Sys2Proof.Machine.execAdd t e s
  | .sub t e => Sys2Proof.Machine.execSub t e s
  | .and t e => Sys2Proof.Machine.execAnd t e s
  | .or t e => Sys2Proof.Machine.execOr t e s
  | .xor t e => Sys2Proof.Machine.execXor t e s
  | .shl t e => Sys2Proof.Machine.execShl t e s
  | .shr t e => Sys2Proof.Machine.execShr t e s
  | .sar t e => Sys2Proof.Machine.execSar t e s
  | .min t e => Sys2Proof.Machine.execMin t e s
  | .max t e => Sys2Proof.Machine.execMax t e s
  | .minu t e => Sys2Proof.Machine.execMinu t e s
  | .maxu t e => Sys2Proof.Machine.execMaxu t e s
  | .slt t e => Sys2Proof.Machine.execSlt t e s
  | .sltu t e => Sys2Proof.Machine.execSltu t e s
  | .seq t e => Sys2Proof.Machine.execSeq t e s
  | .mul t e => Sys2Proof.Machine.execMul t e s
  | .mulh t e => Sys2Proof.Machine.execMulh t e s
  | .mulhu t e => Sys2Proof.Machine.execMulhu t e s
  | .div t e => Sys2Proof.Machine.execDiv t e s
  | .divu t e => Sys2Proof.Machine.execDivu t e s
  | .rem t e => Sys2Proof.Machine.execRem t e s
  | .remu t e => Sys2Proof.Machine.execRemu t e s
  | .movi t e => Sys2Proof.Machine.execMovi t e s
  | .movhi t e => Sys2Proof.Machine.execMovhi t e s
  | .mfs t e => Sys2Proof.Machine.execMfs t e s
  | .mts t e => Sys2Proof.Machine.execMts t e s
  | .rdtime t e => Sys2Proof.Machine.execRdtime t e s
  | .ldt t e => Sys2Proof.Machine.execLdt t e s
  | .stt t e => Sys2Proof.Machine.execStt t e s
  | .atadd t e => Sys2Proof.Machine.execAtadd t e s
  | .atcas t e => Sys2Proof.Machine.execAtcas t e s
  | .vadd t e => Sys2Proof.Machine.execVadd t e s
  | .vsub t e => Sys2Proof.Machine.execVsub t e s
  | .vmul t e => Sys2Proof.Machine.execVmul t e s
  | .vfma t e => Sys2Proof.Machine.execVfma t e s
  | .vmin t e => Sys2Proof.Machine.execVmin t e s
  | .vmax t e => Sys2Proof.Machine.execVmax t e s
  | .vabs t e => Sys2Proof.Machine.execVabs t e s
  | .vneg t e => Sys2Proof.Machine.execVneg t e s
  | .vdiv t e => Sys2Proof.Machine.execVdiv t e s
  | .vsqrt t e => Sys2Proof.Machine.execVsqrt t e s
  | .vrcp t e => Sys2Proof.Machine.execVrcp t e s
  | .vrsqrt t e => Sys2Proof.Machine.execVrsqrt t e s
  | .vexp2 t e => Sys2Proof.Machine.execVexp2 t e s
  | .vlog2 t e => Sys2Proof.Machine.execVlog2 t e s
  | .vand t e => Sys2Proof.Machine.execVand t e s
  | .vor t e => Sys2Proof.Machine.execVor t e s
  | .vxor t e => Sys2Proof.Machine.execVxor t e s
  | .vshl t e => Sys2Proof.Machine.execVshl t e s
  | .vshr t e => Sys2Proof.Machine.execVshr t e s
  | .vsar t e => Sys2Proof.Machine.execVsar t e s
  | .vcmp t e => Sys2Proof.Machine.execVcmp t e s
  | .vsel t e => Sys2Proof.Machine.execVsel t e s
  | .vperm t e => Sys2Proof.Machine.execVperm t e s
  | .vbcast t e => Sys2Proof.Machine.execVbcast t e s
  | .vext t e => Sys2Proof.Machine.execVext t e s
  | .vins t e => Sys2Proof.Machine.execVins t e s
  | .vredadd t e => Sys2Proof.Machine.execVredadd t e s
  | .vredmax t e => Sys2Proof.Machine.execVredmax t e s
  | .vcvtn t e => Sys2Proof.Machine.execVcvtn t e s
  | .vcvtw t e => Sys2Proof.Machine.execVcvtw t e s
  | .vcvt t e => Sys2Proof.Machine.execVcvt t e s
  | .vldt t e => Sys2Proof.Machine.execVldt t e s
  | .vstt t e => Sys2Proof.Machine.execVstt t e s
  | .vgath t e => Sys2Proof.Machine.execVgath t e s
  | .vscat t e => Sys2Proof.Machine.execVscat t e s
  | .mma t e => Sys2Proof.Machine.execMma t e s
  | .ldg t e => Sys2Proof.Machine.execLdg t e s
  | .stg t e => Sys2Proof.Machine.execStg t e s
  | .ldgv t e => Sys2Proof.Machine.execLdgv t e s
  | .stgv t e => Sys2Proof.Machine.execStgv t e s
  | .ldc t e => Sys2Proof.Machine.execLdc t e s
  | .stc t e => Sys2Proof.Machine.execStc t e s
  | .ldcv t e => Sys2Proof.Machine.execLdcv t e s
  | .stcv t e => Sys2Proof.Machine.execStcv t e s
  | .copy t e => Sys2Proof.Machine.execCopy t e s
  | .waitc t e => Sys2Proof.Machine.execWaitc t e s
  | .sigk t e => Sys2Proof.Machine.execSigk t e s
  | .waitk t e => Sys2Proof.Machine.execWaitk t e s
  | .rdk t e => Sys2Proof.Machine.execRdk t e s
  | .qpush t e => Sys2Proof.Machine.execQpush t e s
  | .qpop t e => Sys2Proof.Machine.execQpop t e s
  | .call t e => Sys2Proof.Machine.execCall t e s
  | .fence t e => Sys2Proof.Machine.execFence t e s
  | .beq t e => Sys2Proof.Machine.execBeq t e s
  | .bne t e => Sys2Proof.Machine.execBne t e s
  | .blt t e => Sys2Proof.Machine.execBlt t e s
  | .bge t e => Sys2Proof.Machine.execBge t e s
  | .bltu t e => Sys2Proof.Machine.execBltu t e s
  | .bgeu t e => Sys2Proof.Machine.execBgeu t e s
  | .jmp t e => Sys2Proof.Machine.execJmp t e s
  | .jal t e => Sys2Proof.Machine.execJal t e s
  | .jr t e => Sys2Proof.Machine.execJr t e s
  | .trapf t e => Sys2Proof.Machine.execTrapf t e s
  | .endThread t e => Sys2Proof.Machine.execEndThread t e s
  | .lytCopy d => Sys2Proof.Machine.execLytCopy d s
  | .lytGather d => Sys2Proof.Machine.execLytGather d s
  | .lytScatter d => Sys2Proof.Machine.execLytScatter d s
  | .lytFill d => Sys2Proof.Machine.execLytFill d s
  | .layoutOperationEnd engine fault after => Sys2Proof.Machine.execLayoutOperationEnd engine fault after s
  | .seqPool d => Sys2Proof.Machine.execSeqPool d s
  | .seqCreate d => Sys2Proof.Machine.execSeqCreate d s
  | .seqDestroy d => Sys2Proof.Machine.execSeqDestroy d s
  | .seqAppend d => Sys2Proof.Machine.execSeqAppend d s
  | .seqAttend d => Sys2Proof.Machine.execSeqAttend d s
  | .seqBias d => Sys2Proof.Machine.execSeqBias d s
  | .seqTrim d => Sys2Proof.Machine.execSeqTrim d s
  | .seqInfo d => Sys2Proof.Machine.execSeqInfo d s
  | .seqAttendEnd core fault after => Sys2Proof.Machine.execSeqAttendEnd core fault after s
  | .seqStallAppendResume pool => Sys2Proof.Machine.execSeqStallAppendResume pool s
  | .seqStallTimeout k => Sys2Proof.Machine.execSeqStallTimeout k s
  | .slvSolve d => Sys2Proof.Machine.execSlvSolve d s
  | .solveStart => Sys2Proof.Machine.execSolveStart s
  | .solveOutcome core fault after => Sys2Proof.Machine.execSolveOutcome core fault after s
  | .solveDeadline core after => Sys2Proof.Machine.execSolveDeadline core after s
  | .mmuMap d => Sys2Proof.Machine.execMmuMap d s
  | .mmuUnmap d => Sys2Proof.Machine.execMmuUnmap d s
  | .mmuQuery d => Sys2Proof.Machine.execMmuQuery d s
  | .mmuFwSet d => Sys2Proof.Machine.execMmuFwSet d s
  | .memPatrolScrub mc ecc => Sys2Proof.Machine.execMemPatrolScrub mc ecc s
  | .dramMr4Read mc rate above => Sys2Proof.Machine.execDramMr4Read mc rate above s
  | .errorReportRaise severity kind index event status guarded flows did detail detail2 epoch => Sys2Proof.Machine.execErrorReportRaise severity kind index event status guarded flows did detail detail2 epoch s
  | .errorReportProcess => Sys2Proof.Machine.execErrorReportProcess s
  | .verdictFormed c n f => Sys2Proof.Machine.execVerdictFormed c n f s
  | .latchClear did => Sys2Proof.Machine.execLatchClear did s
  | .safeAck did bits => Sys2Proof.Machine.execSafeAck did bits s
  | .islandHeartbeat => Sys2Proof.Machine.execIslandHeartbeat s
  | .energiseRequestRx => Sys2Proof.Machine.execEnergiseRequestRx s
  | .fieldHeartbeatTimeout => Sys2Proof.Machine.execFieldHeartbeatTimeout s
  | .lockstepMismatch => Sys2Proof.Machine.execLockstepMismatch s
  | .islandWatchdogExpiry => Sys2Proof.Machine.execIslandWatchdogExpiry s
  | .firmwareSilent => Sys2Proof.Machine.execFirmwareSilent s
  | .imageCheck copyOk recordsOk => Sys2Proof.Machine.execImageCheck copyOk recordsOk s
  | .safetyEscalation => Sys2Proof.Machine.execSafetyEscalation s
  | .watchdogWindowClose c n t => Sys2Proof.Machine.execWatchdogWindowClose c n t s
  | .stageEndEvent c n t => Sys2Proof.Machine.execStageEndEvent c n t s
  | .intakeCloseTimeout c => Sys2Proof.Machine.execIntakeCloseTimeout c s
  | .sramScrub m ecc guarded => Sys2Proof.Machine.execSramScrub m ecc guarded s
  | .goldenRun u => Sys2Proof.Machine.execGoldenRun u s
  | .goldenRunEnd u ok => Sys2Proof.Machine.execGoldenRunEnd u ok s
  | .selftestSchedule u => Sys2Proof.Machine.execSelftestSchedule u s
  | .selftestSliceEnd u ok => Sys2Proof.Machine.execSelftestSliceEnd u ok s
  | .selftestAbort u => Sys2Proof.Machine.execSelftestAbort u s
  | .latentTestOverdue u => Sys2Proof.Machine.execLatentTestOverdue u s
  | .unitIsolate did => Sys2Proof.Machine.execUnitIsolate did s
  | .unitReadmit did => Sys2Proof.Machine.execUnitReadmit did s
  | .readmissionStep u fault => Sys2Proof.Machine.execReadmissionStep u fault s
  | .unitReadmitted u => Sys2Proof.Machine.execUnitReadmitted u s
  | .icuSourceEvent sic source level => Sys2Proof.Machine.execIcuSourceEvent sic source level s
  | .icuDelivery sic w => Sys2Proof.Machine.execIcuDelivery sic w s
  | .icuEoi sic p source => Sys2Proof.Machine.execIcuEoi sic p source s
  | .icuSrcMask did cp => Sys2Proof.Machine.execIcuSrcMask did cp s
  | .icuSrcUnmask did cp => Sys2Proof.Machine.execIcuSrcUnmask did cp s
  | .icuSrcSetPend did cp => Sys2Proof.Machine.execIcuSrcSetPend did cp s
  | .icuSrcClrPend did cp => Sys2Proof.Machine.execIcuSrcClrPend did cp s
  | .icuSwi did source => Sys2Proof.Machine.execIcuSwi did source s
  | .icuLockAcquire did lock => Sys2Proof.Machine.execIcuLockAcquire did lock s
  | .icuLockRelease did lock => Sys2Proof.Machine.execIcuLockRelease did lock s
  | .stormWindowReset => Sys2Proof.Machine.execStormWindowReset s
  | .processorWake sic w => Sys2Proof.Machine.execProcessorWake sic w s
  | .secFwUpdate d => Sys2Proof.Machine.execSecFwUpdate d s
  | .secImageLoad d img => Sys2Proof.Machine.execSecImageLoad d img s
  | .secKeyRotate d => Sys2Proof.Machine.execSecKeyRotate d s
  | .secLifecycle d => Sys2Proof.Machine.execSecLifecycle d s
  | .secLock d => Sys2Proof.Machine.execSecLock d s
  | .keyRead a b => Sys2Proof.Machine.execKeyRead a b s
  | .sealMeasurement ohm => Sys2Proof.Machine.execSealMeasurement ohm s
  | .presenceWindowTimeout => Sys2Proof.Machine.execPresenceWindowTimeout s
  | .presenceClose did => Sys2Proof.Machine.execPresenceClose did s
  | .sealOverride did => Sys2Proof.Machine.execSealOverride did s
  | .sealRearm did => Sys2Proof.Machine.execSealRearm did s
  | .dbgLevelWrite did level => Sys2Proof.Machine.execDbgLevelWrite did level s
  | .dbgNonceRead did => Sys2Proof.Machine.execDbgNonceRead did s
  | .dbgAuthGo => Sys2Proof.Machine.execDbgAuthGo s
  | .por vbackup => Sys2Proof.Machine.execPor vbackup s
  | .logicBrownout => Sys2Proof.Machine.execLogicBrownout s
  | .resetPin => Sys2Proof.Machine.execResetPin s
  | .pcieFundamental => Sys2Proof.Machine.execPcieFundamental s
  | .pcieHot => Sys2Proof.Machine.execPcieHot s
  | .hostDeviceCmd did => Sys2Proof.Machine.execHostDeviceCmd did s
  | .hostUnitCmd did => Sys2Proof.Machine.execHostUnitCmd did s
  | .octurCmd module did => Sys2Proof.Machine.execOcturCmd module did s
  | .safeWatchdog => Sys2Proof.Machine.execSafeWatchdog s
  | .thermalTrip => Sys2Proof.Machine.execThermalTrip s
  | .debugCmd => Sys2Proof.Machine.execDebugCmd s
  | .domainRelease straps rails => Sys2Proof.Machine.execDomainRelease straps rails s
  | .bootStageAdvance error => Sys2Proof.Machine.execBootStageAdvance error s
  | .bootGo did => Sys2Proof.Machine.execBootGo did s
  | .bootSourceTimeout => Sys2Proof.Machine.execBootSourceTimeout s
  | .startupInjection stream packet expected => Sys2Proof.Machine.execStartupInjection stream packet expected s
  | .oasClear did => Sys2Proof.Machine.execOasClear did s
  | .pstateRequest did target => Sys2Proof.Machine.execPstateRequest did target s
  | .pstateTransition => Sys2Proof.Machine.execPstateTransition s
  | .p3Wake cause => Sys2Proof.Machine.execP3Wake cause s
  | .standbyLoss => Sys2Proof.Machine.execStandbyLoss s
  | .thermalTrim junction => Sys2Proof.Machine.execThermalTrim junction s
  | .powerTrim power => Sys2Proof.Machine.execPowerTrim power s
  | .trimRelease junction power => Sys2Proof.Machine.execTrimRelease junction power s
  | .pubConfig d => Sys2Proof.Machine.execPubConfig d s
  | .pubRemove d => Sys2Proof.Machine.execPubRemove d s
  | .publicationAssemble pub => Sys2Proof.Machine.execPublicationAssemble pub s
  | .publicationTransmit port => Sys2Proof.Machine.execPublicationTransmit port s
  | .octurHello port module peerPort cols rows torus => Sys2Proof.Machine.execOcturHello port module peerPort cols rows torus s
  | .octurRetrain port => Sys2Proof.Machine.execOcturRetrain port s
  | .octurReplay port seq => Sys2Proof.Machine.execOcturReplay port seq s
  | .rdReq p held => Sys2Proof.Machine.execRdReq p held s
  | .rdResp p => Sys2Proof.Machine.execRdResp p s
  | .wrReq p held => Sys2Proof.Machine.execWrReq p held s
  | .wrAck p => Sys2Proof.Machine.execWrAck p s
  | .knotAdd p => Sys2Proof.Machine.execKnotAdd p s
  | .knotAck p => Sys2Proof.Machine.execKnotAck p s
  | .time p ta tb tc td genA genB => Sys2Proof.Machine.execTime p ta tb tc td genA genB s
  | .octurTimeSend => Sys2Proof.Machine.execOcturTimeSend s
  | .resetCmd p => Sys2Proof.Machine.execResetCmd p s
  | .resetAck p => Sys2Proof.Machine.execResetAck p s
  | .octurRequestTimeout tag => Sys2Proof.Machine.execOcturRequestTimeout tag s
  | .octReset d => Sys2Proof.Machine.execOctReset d s
  | .fldBank d => Sys2Proof.Machine.execFldBank d s
  | .fldEnc d => Sys2Proof.Machine.execFldEnc d s
  | .fldSerial d => Sys2Proof.Machine.execFldSerial d s
  | .fldDin d => Sys2Proof.Machine.execFldDin d s
  | .fieldBrownout => Sys2Proof.Machine.execFieldBrownout s
  | .fieldSupplyGood => Sys2Proof.Machine.execFieldSupplyGood s
  | .fieldFirmwareLoad => Sys2Proof.Machine.execFieldFirmwareLoad s
  | .fieldOvervoltage => Sys2Proof.Machine.execFieldOvervoltage s
  | .fieldOvervoltageRestore => Sys2Proof.Machine.execFieldOvervoltageRestore s
  | .encoderSample input edges zs illegal fault => Sys2Proof.Machine.execEncoderSample input edges zs illegal fault s
  | .serialRecord port bytes back ok => Sys2Proof.Machine.execSerialRecord port bytes back ok s
  | .digitalInputChange input held level => Sys2Proof.Machine.execDigitalInputChange input held level s
  | .triggerOverload output => Sys2Proof.Machine.execTriggerOverload output s
  | .triggerOverloadRetry output => Sys2Proof.Machine.execTriggerOverloadRetry output s
  | .safeReadback hs0 ls0 hs1 ls1 ma0 ma1 => Sys2Proof.Machine.execSafeReadback hs0 ls0 hs1 ls1 ma0 ma1 s
  | .safeTestPulse channel followed => Sys2Proof.Machine.execSafeTestPulse channel followed s
  | .linkTestStart did loop pattern => Sys2Proof.Machine.execLinkTestStart did loop pattern s
  | .linkTestStop did => Sys2Proof.Machine.execLinkTestStop did s
  | .linkTestInject did => Sys2Proof.Machine.execLinkTestInject did s
  | .extest => Sys2Proof.Machine.execExtest s
  | .samplePreload pins cells => Sys2Proof.Machine.execSamplePreload pins cells s
  | .idcode => Sys2Proof.Machine.execIdcode s
  | .extestPulse => Sys2Proof.Machine.execExtestPulse s
  | .extestTrain => Sys2Proof.Machine.execExtestTrain s
  | .dbgAccess word => Sys2Proof.Machine.execDbgAccess word s
  | .bypass code => Sys2Proof.Machine.execBypass code s
  | .productionInstruction code => Sys2Proof.Machine.execProductionInstruction code s
  | .traceSync => Sys2Proof.Machine.execTraceSync s
  | .tracePcSample cp pc => Sys2Proof.Machine.execTracePcSample cp pc s
  | .dbgMemWindowAccess did span write => Sys2Proof.Machine.execDbgMemWindowAccess did span write s
  | .ethernetLinkChange port pins => Sys2Proof.Machine.execEthernetLinkChange port pins s
  | .octurAckTimeout port => Sys2Proof.Machine.execOcturAckTimeout port s
  | .octurPacketForward p => Sys2Proof.Machine.execOcturPacketForward p s
  | .firmwareHeartbeat => Sys2Proof.Machine.execFirmwareHeartbeat s
  | .ergOperationEnd unit ecc => Sys2Proof.Machine.execErgOperationEnd unit ecc s
  | .postedStoreDone t => Sys2Proof.Machine.execPostedStoreDone t s
  | .patternCheckerSync link errors lost => Sys2Proof.Machine.execPatternCheckerSync link errors lost s

end Sys2Proof.Machine
end

