-- ==== Sys2Proof/Safety.lean ====
section
/-! DEFINITION. What the statements speak of: the invariant of the byte memory, the descriptors and threads that may act, and the shapes of an answer. -/

namespace Sys2Proof.Safety

open Sys2Proof.Machine

/-- The byte memory keeps its canonical form. -/
abbrev Canonical (s : State) : Prop := Memory.wf s.mem = true

/-- A descriptor may start and passes checks 1 to 3 of R70 for an operation. -/
abbrev Accepted (s : State) (d : Desc) (o : OpInfo) : Prop := mayStart s d = true ∧ descChecks s d o = stOk

/-- The command completes its descriptor with OK and these results, in the state `t` that its effect leaves. -/
def Completes (c : Instr) (s : State) (d : Desc) (result detail : Nat) (t : State) : Prop :=
  exec c s = .next (finishDesc t d stOk result detail 0)

/-- The command completes its descriptor with a status other than OK, and has no other effect. -/
def Refuses (c : Instr) (s : State) (d : Desc) (status : Nat) : Prop :=
  exec c s = .next (finishDesc (markStarted s d) d status 0 0 0)

/-- A thread issues an instruction whose unused fields are 0 (R272, R301). -/
abbrev Issues (s : State) (t : Nat) (e : Enc) (u : Uses) : Prop := mayIssue s t = true ∧ encOk u e = true

/-- The thread after the issue of an instruction, before the instruction's own effect (R273). -/
def stepped (s : State) (t : Nat) : Thread :=
  { thread s t with pc := (thread s t).pc + 1, issueNo := (thread s t).issueNo + 1, mma := none }

/-- The command writes x[d] and sets FLAGS bits of its thread, and changes nothing else. -/
def GivesX (c : Instr) (s : State) (t : Nat) (d : BitVec 5) (w : W64) (fl : Nat) : Prop :=
  exec c s = .next (setThread s t { stepped s t with x := (thread s t).x.put d.toNat w, flags := (thread s t).flags ||| fl })

/-- The command writes v[d] and sets FLAGS bits of its thread, and changes nothing else. -/
def GivesV (c : Instr) (s : State) (t : Nat) (d : BitVec 5) (w : BitVec 2048) (fl : Nat) : Prop :=
  exec c s = .next (setThread s t { stepped s t with v := (thread s t).v.put d.toNat w, flags := (thread s t).flags ||| fl })

/-- Element `j` of a vector register (R309). -/
def elemAt (l : Lane) (v : BitVec 2048) (j : Nat) : Nat := bitsOf v.toNat (l.bits * j) l.bits

/-- The command writes v[d] alone: an enabled element is related to the elements of a, of b or imm, and of the old d, and a disabled one
keeps its value (R309). -/
def Lanes (c : Instr) (s : State) (t : Nat) (e : Enc) (l : Lane) (rel : Nat → Nat → Nat → Nat → Prop) : Prop :=
  ∃ w fl, GivesV c s t e.d w fl ∧ ∀ j, j < l.count →
    if (maskOf s t e).testBit j then
      rel (elemAt l ((thread s t).vr e.a.toNat) j) ((vecB s t l e).getD j 0) (elemAt l ((thread s t).vr e.d.toNat) j) (elemAt l w j)
    else elemAt l w j = elemAt l ((thread s t).vr e.d.toNat) j

/-- The thread goes to an instruction index, and nothing else changes but what `f` does to the thread. -/
def Goes (c : Instr) (s : State) (t : Nat) (pc : Nat) (f : Thread → Thread) : Prop :=
  exec c s = .next (setThread s t (f { stepped s t with pc := pc }))

/-- The command writes `bs` from byte `a` of the thread's tile SRAM: every byte outside them reads as before (R307). -/
def TileWritten (s u : State) (t a : Nat) (bs : List Byte) : Prop :=
  u.mem = Memory.writes s.mem (Space.key (.tile (engineNo t)) a) bs ∧
  ∀ k, (k < Space.key (.tile (engineNo t)) a ∨ Space.key (.tile (engineNo t)) a + bs.length ≤ k) → Memory.read u.mem k = Memory.read s.mem k

/-- A packet of a type arrives in order at an UP port of the module that it names (R574 to R576). -/
abbrev Arrives (s : State) (p : OctPacket) (type : Nat) : Prop :=
  (octPort s p.port).st = .up ∧ p.port < 4 ∧ p.crcOk = true ∧ p.type = type ∧ p.dst = s.oct.module

/-- A packet has no effect but the count of its wrong CRC and the NAK (R576). -/
def CrcNak (c : Instr) (s : State) (p : OctPacket) : Prop :=
  exec c s = .next (emit (setOct s p.port { octPort s p.port with crc := satAdd 16 (octPort s p.port).crc 1 }) (.nak p.port))

end Sys2Proof.Safety
end

