-- ==== Sys2Proof/Certificates/Slice0/Obligations.lean ====
section
/-! DEFINITION. The statements for the provers, one definition per statement, family by family in the order of spec/opcode_table.json. -/

open Sys2Proof Sys2Proof.Machine Sys2Proof.Safety


/-! ### The queue, the reset state, the byte memory -/

/-- A step takes the command at the front of the queue and runs it with the queue's rest.
On an empty queue one TIME cycle passes: the time counter adds exactly 2 ns unless the TIME domain is in reset (R101), and nothing
but the two clocks changes. The idle step itself is the model's choice (log entry 4). -/
def Obligations.StepAndIdle : Prop :=
  (∀ (c : Instr) (s : State), step (s.withCommand c) = exec c s) ∧
  (∀ s : State, s.pending = [] → ∃ t, step s = .next t ∧
    t.now = (if s.power.inReset.contains 1 then s.now else (s.now + 2) % 2 ^ 64) ∧
    { t with now := s.now, up := s.up } = s)

/-- Reset leaves every domain in reset, the safe-state channels requested off, the lifecycle not READY, no interrupt enabled, the
rings idle, the cadences STOPPED and the knots FREE with value 0.
The byte memory of the reset state has the canonical form. -/
def Obligations.ResetState : Prop :=
  ((∀ d, d < 10 → State.reset.power.inReset.contains d = true) ∧ State.reset.bootReady = false
    ∧ State.reset.safe.req0 = false ∧ State.reset.safe.req1 = false
    ∧ (∀ r, (subRing State.reset r).st = .idle ∧ (comRing State.reset r).st = .idle)
    ∧ (∀ c, (cadOf State.reset c).st = .stopped)
    ∧ (∀ k, (knotOf State.reset k).st = .free ∧ (knotOf State.reset k).value = 0)
    ∧ State.reset.tb.servo = .freerun ∧ State.reset.pending = []) ∧
  (Canonical State.reset)

/-- Every step of every command keeps the canonical form of the byte memory: keys strictly rising, no byte listed that an unlisted
address reads as, so equal memories are equal data. -/
def Obligations.StepKeepsMemoryCanonical : Prop :=
  ∀ s t : State, Canonical s → step s = .next t → Canonical t

/-- Every command completes: in every state it answers a next state. No command reads or changes the queue of the commands that wait. -/
def Obligations.CommandsLeaveQueue : Prop :=
  ∀ (c : Instr) (s : State), ∃ t, exec c s = .next t ∧ t.pending = s.pending

/-! ### BAR0 accesses (R5, R6, R634, R639) -/

/-- An access of BAR0 that is not an aligned 32-bit one has no effect: a write is dropped, a read answers 0xFFFF_FFFF (R5).
A read of a _LO register captures the upper half of the 64-bit value for the reading DID and answers the lower half; a read of _HI
answers the captured half (R6). A write of _LO is held for the DID, and a write of _HI joins it with the held half, which is then
discarded: the operand pair of the time base takes the 64-bit value at once. A write of a ring's base or doorbell address is dropped and sets
cfg_drop while the ring is RUNNING or ERROR (R81).
Of two writes of one register in one FAB cycle only that of the lower DID lands (R9).
A write to a register with no row of its own lands whole: the servo gains, and the pending values that R7's W1C clears.
The debug port: below its level an access has no effect but its error bit; at INTRUSIVE a write lands as DID 1's (R634). The memory
window takes no write, and reads as 0 at level LOCKED (R639). -/
def Obligations.RegisterAccesses : Prop :=
  (∀ (a : BarAccess) (s : State), a.size ≠ 4 ∨ a.offset % 4 ≠ 0 →
    exec (.registerWrite ⟨a, []⟩) s = .next s ∧ exec (.registerWriteLo a) s = .next s ∧ exec (.registerWriteHi a) s = .next s ∧
    exec (.registerReadLo a) s = .next (emit s (.readData a.did a.offset 0xFFFFFFFF))) ∧
  (∀ (a : BarAccess) (s : State) (p : Nat), BarAccess.aligned a = true → barPlace a.did a.offset = some p →
    (barOpen s a.did p = true → ∀ v, pairValue s a.did p = some v →
      exec (.registerReadLo a) s = .next (emit { s with readHi := s.readHi.put (pairKey a.did p) (v / 2 ^ 32) }
        (.readData a.did a.offset (BitVec.ofNat 32 v)))) ∧
    (barOpen s a.did (p + 4) = true → pairValue s a.did (p + 4) = none → ∀ v h, pairValue s a.did p = some v →
      s.readHi.find (pairKey a.did p) = some h → a.offset + 4 < 2 ^ 26 → barPlace a.did (a.offset + 4) = some (p + 4) →
      exec (.registerReadLo { a with offset := a.offset + 4 }) s = .next (emit s (.readData a.did (a.offset + 4) (BitVec.ofNat 32 h)))) ∧
    (barOpen s a.did p = true → pairTakes s a.did p = true → p ≠ 0x040108 → p ≠ 0x040110 →
      exec (.registerWriteLo a) s = .next { s with writeLo := s.writeLo.put (pairKey a.did p) a.data.toNat }) ∧
    (barOpen s a.did p = true → pairTakes s a.did p = true → p = 0x040108 ∨ p = 0x040110 → ∀ r, selRing s a.did = some (false, r) →
      ((subRing s r).st = .running ∨ (subRing s r).st = .error →
        exec (.registerWriteLo a) s = .next (setSub s r { subRing s r with cfgDrop := true })) ∧
      ((subRing s r).st = .idle ∨ (subRing s r).st = .stopped →
        exec (.registerWriteLo a) s = .next { s with writeLo := s.writeLo.put (pairKey a.did p) a.data.toNat })) ∧
    (barOpen s a.did p = true → p = 0x07001C → ∀ l, s.writeLo.find (pairKey a.did 0x070018) = some l →
      exec (.registerWriteHi a) s = .next { s with writeLo := Tbl.drop s.writeLo (pairKey a.did 0x070018), tb.operand := BitVec.ofNat 64 (a.data.toNat * 2 ^ 32 + l) })) ∧
  (∀ (a b : BarAccess) (s : State), a.did < b.did → sameRegister s b a = true →
    exec (.registerWrite ⟨b, [a]⟩) s = exec (.registerWrite ⟨a, []⟩) s) ∧
  (∀ (a : BarAccess) (s : State), BarAccess.aligned a = true → a.did ≤ 2 → barOpen s a.did a.offset = true →
    (a.offset = 0x070020 → exec (.registerWrite ⟨a, []⟩) s = .next { s with tb.kp := a.data }) ∧
    (a.offset = 0x070024 → exec (.registerWrite ⟨a, []⟩) s = .next { s with tb.ki := a.data }) ∧
    (a.offset = 0x070000 → exec (.registerWrite ⟨a, []⟩) s = .next { s with tb.stepRefused := s.tb.stepRefused && !a.data.toNat.testBit 9, tb.refLost := s.tb.refLost && !a.data.toNat.testBit 8 })) ∧
  (∀ (w : BitVec 64) (s : State) (did off : Nat),
    (s.dbg.level = 0 → s.dbg.boundary = false → s.dbg.production = false → bitsOf w.toNat 8 24 * 4 / 256 ≠ 0x1600 →
      ∃ t, exec (.dbgAccess w) s = .next t ∧ t.dbg.drError = true ∧
        { t with out := s.out, dbg.ir := s.dbg.ir, dbg.drError := s.dbg.drError } = s) ∧
    (s.dbg.level = 2 → s.dbg.boundary = false → s.dbg.production = false → barOpen s 1 0x070020 = true → bitsOf w.toNat 8 24 = 0x01C008 →
      w.toNat.testBit 1 = true →
      ∃ t, exec (.dbgAccess w) s = .next t ∧ t.tb.kp = BitVec.ofNat 32 (w.toNat / 2 ^ 32) ∧ t.dbg.drError = false) ∧
    (∀ size, exec (.dbgMemWindowAccess did ⟨off, size⟩ true) s = .next s) ∧
    (off % 4 = 0 → did ≤ 2 → barOpen s did (0x161000 + off % 0x1000) = true → s.dbg.level = 0 →
      exec (.dbgMemWindowAccess did ⟨off, 4⟩ false) s = .next (emit s (.readData did (0x161000 + off % 0x1000) 0))) ∧
    (∀ size, size ≠ 4 ∨ off % 4 ≠ 0 →
      exec (.dbgMemWindowAccess did ⟨off, size⟩ false) s = .next (emit s (.readData did (0x161000 + off % 0x1000) 0xFFFFFFFF))))

/-! ### Rings (R52, R56 to R65) -/

/-- HIF_RING_CMD on the selected ring (R60): a START whose checks pass makes a submission ring RUNNING with its first poll due at once
and the interval at poll_min; a START whose checks fail leaves the ring's state and records DESC_INVALID; a STOP of a completion ring that
no RUNNING submission ring is bound to stops it; a RESET zeroes the indices of a ring that is not RUNNING.
A stopping submission ring with nothing in flight enters STOPPED and the ring event SRING_STOPPED (code 3) goes to its completion ring;
while a descriptor is in flight, nothing happens (R60).
The doorbell poll that is due first reads the 16-byte doorbell record of its ring, and no other poll is issued for 62.5 ns (R64, R65); where the
ring's function may issue no request, the read ends in a ring error (R63);
a ring whose poll is out is not polled again, and with no poll due nothing happens.
What a doorbell read that returns does to a RUNNING submission ring (R62 to R64): a PCIe error puts it into ERROR with
TRANSLATION_FAULT; a record whose check word or reserved bytes are wrong, or whose tail shows no new work, doubles the interval up to
poll_max; a tail more than the ring's entries ahead of head is an error with DESC_INVALID. -/
def Obligations.RingsAndDoorbells : Prop :=
  (∀ (s : State) (did r : Nat), hifOpen s = true →
    (selRing s did = some (false, r) → (subRing s r).st ≠ .running → (subRing s r).st ≠ .error → startChecks s false r = true →
      ∃ t, exec (.start did) s = .next t ∧
        subRing t r = { subRing s r with st := .running, stopping := false, interval := s.hif.pollMin, pollIssued := none, awaitFetch := false, nextDue := some s.up, lostReported := false } ∧
        (∀ q, q ≠ r → subRing t q = subRing s q) ∧ { t with hif := s.hif } = s) ∧
    (selRing s did = some (false, r) → (subRing s r).st = .error ∨ ((subRing s r).st ≠ .running ∧ startChecks s false r = false) →
      exec (.start did) s = .next (setSub s r { subRing s r with lastEvent := stDescInvalid })) ∧
    (selRing s did = some (false, r) → (subRing s r).st = .running →
      exec (.stop did) s = .next (abortFlights (setSub s r { subRing s r with stopping := true }) r)) ∧
    (selRing s did = some (true, r) → (comRing s r).st = .running → boundRunning s r = false →
      exec (.stop did) s = .next (setCom s r { comRing s r with st := .stopped, nextDue := none, pollIssued := none })) ∧
    (selRing s did = some (true, r) → (comRing s r).st = .running → boundRunning s r = true →
      exec (.stop did) s = .next (setCom s r { comRing s r with lastEvent := stDescInvalid })) ∧
    (selRing s did = some (false, r) → (subRing s r).st ≠ .running →
      ∃ t, exec (.reset did) s = .next t ∧ (subRing t r).st = .idle ∧ (subRing t r).head = 0 ∧ (subRing t r).tail = 0 ∧
        (subRing t r).base = (subRing s r).base ∧ (subRing t r).sizeLog2 = (subRing s r).sizeLog2 ∧
        (∀ q, q ≠ r → subRing t q = subRing s q) ∧ { t with hif.sub := s.hif.sub } = s) ∧
    (selRing s did = some (true, r) → (comRing s r).st = .running → exec (.reset did) s = .next s)) ∧
  (∀ (s : State) (r : Nat), (subRing s r).st = .running → (subRing s r).stopping = true →
    ((flightsOf s r).isEmpty = true → ∃ t, t = setSub s r { subRing s r with st := .stopped, stopping := false, nextDue := none, pollIssued := none } ∧
      exec (.sringStopped r) s = .next (match boundCom t r with
        | some c => ringEvent t c { code := 3, ring := localNo t false r, status := 0, detail := 0 }
        | none => t)) ∧
    ((flightsOf s r).isEmpty = false → exec (.sringStopped r) s = .next s)) ∧
  (∀ s : State,
    (firstBy Due.before (duePolls s) = none → exec .doorbellPoll s = .next s) ∧
    (∀ d, firstBy Due.before (duePolls s) = some d → d.com = false → ringMayRead s false d.ring = true → s.dbg.boundary = false →
      ∃ t, exec .doorbellPoll s = .next t ∧ t.out = .hostRead d.did (subRing s d.ring).db.toNat 16 :: s.out ∧
        t.hif.pollSlot = max (max (2 * s.up) (2 * d.at_)) s.hif.pollSlot + 125 ∧
        (subRing t d.ring).nextDue = none ∧ (subRing t d.ring).pollIssued ≠ none ∧ t.mem = s.mem ∧ t.hif.com = s.hif.com) ∧
    (∀ d, firstBy Due.before (duePolls s) = some d → d.com = false → ringMayRead s false d.ring = false →
      ∃ u, u.mem = s.mem ∧ u.hif.com = s.hif.com ∧ exec .doorbellPoll s = .next (ringError u false d.ring stTranslation))) ∧
  (∀ (s : State) (r issue : Nat), (subRing s r).st = .running → (subRing s r).pollIssued = some issue →
    exec (.doorbellPollReturn false r none) s = .next (ringError s false r stTranslation) ∧
    (∀ w, hostPartOk w = false ∨ (hostPartOk w = true ∧ w.truncate 32 = (subRing s r).head ∧ (subRing s r).tail = (subRing s r).head) →
      ∃ t, exec (.doorbellPollReturn false r (some w)) s = .next t ∧
        subRing t r = { subRing s r with pollIssued := none, interval := min (2 * (subRing s r).interval) s.hif.pollMax, nextDue := some (issue + min (2 * (subRing s r).interval) s.hif.pollMax * 1000) } ∧
        { t with hif.sub := s.hif.sub } = s) ∧
    (∀ w, hostPartOk w = true → (subRing s r).entries < (w.truncate 32 - (subRing s r).head : W32).toNat →
      exec (.doorbellPollReturn false r (some w)) s = .next (ringError s false r stDescInvalid)))

/-- A fetched descriptor that passes checks 1 to 3 and waits for nothing becomes able to start, and one with wait_en registers its wait; reserved header
bits or an undefined opcode complete it with DESC_INVALID, another failed check with that check's status, a stopping ring with ABORTED. A
fetch that fails puts a RUNNING ring into ERROR with TRANSLATION_FAULT and leaves another ring's state (R60, R63, R66, R67, R70). The descriptor of a
call whose unit accepts none completes with DESC_INVALID (R299).
The host interface's descriptors (R68): NOP gives 0, TIME_MARK the time counter.
The record of a descriptor completion (R72 to R75): an accepted NOP of a submission ring leaves flight, and 32 bytes go to the slot at
the tail of its completion ring: result, time, tag and index, detail, ring number, kind 1, the phase of the tail's lap, status and
flags; the ring's tail goes on by one. -/
def Obligations.DescriptorRuns : Prop :=
  (∀ (s : State) (r : Nat) (i : W32) (f : Flight), flightOf s r i = some f → f.arrived = false →
    (∀ (raw : BitVec 512) (d : Desc), d = ⟨.ring r i, ringDid s false r, raw⟩ →
      ∃ u, flightOf u r i = some { f with arrived := true, raw := raw, fenced := dFence d } ∧ u.mem = s.mem ∧ u.hif.com = s.hif.com ∧ u.knots = s.knots ∧
        ((subRing s r).stopping = true → exec (.descriptorArrival (.ring r) i (some raw)) s = .next (finishDesc u d stAborted 0 0 0)) ∧
        ((subRing s r).stopping = false →
          (headerOk d = false ∨ opInfo u d = none → exec (.descriptorArrival (.ring r) i (some raw)) s = .next (finishDesc u d stDescInvalid 0 0 0)) ∧
          (∀ o, opInfo u d = some o →
            (descChecks u d o ≠ stOk → exec (.descriptorArrival (.ring r) i (some raw)) s = .next (finishDesc u d (descChecks u d o) 0 0 0)) ∧
            (descChecks u d o = stOk → dWaitEn d = false → exec (.descriptorArrival (.ring r) i (some raw)) s = .next u) ∧
            (descChecks u d o = stOk → dWaitEn d = true → exec (.descriptorArrival (.ring r) i (some raw)) s = .next (registerWait u d))))) ∧
    (∃ u, flightOf u r i = none ∧ u.mem = s.mem ∧ u.out = s.out ∧ u.knots = s.knots ∧
      ((subRing s r).st = .running → exec (.descriptorArrival (.ring r) i none) s = .next (ringError u false r stTranslation)) ∧
      ((subRing s r).st ≠ .running → exec (.descriptorArrival (.ring r) i none) s = .next u))) ∧
  (∀ (s : State) (t : Nat) (slot : W32) (c : CallSlot) (b : Option (BitVec 512)) (d : Desc),
    (Tbl.at Thread.reset s.eng.threads t).calls.find? (fun c => c.slot == slot.toNat) = some c → c.arrived = false → c.done = none →
    d = ⟨.call t c.slot, (threadWho s t).did, c.raw⟩ →
    (callUnit (dOpcode d / 256) = false → exec (.descriptorArrival (.thread t) slot b) s = .next (finishDesc s d stDescInvalid 0 0 0)) ∧
    (callUnit (dOpcode d / 256) = true → arrivalStatus s d ≠ stOk →
      exec (.descriptorArrival (.thread t) slot b) s = .next (finishDesc s d (arrivalStatus s d) 0 0 0)) ∧
    (callUnit (dOpcode d / 256) = true → arrivalStatus s d = stOk → dWaitEn d = false →
      ∃ u, exec (.descriptorArrival (.thread t) slot b) s = .next u ∧ u.mem = s.mem ∧ u.hif = s.hif ∧ u.knots = s.knots)) ∧
  (∀ (s : State) (d : Desc),
    (Accepted s d (infoNop s d) → Completes (.nop d) s d 0 0 (markStarted s d)) ∧
    (Accepted s d (infoTimeMark s d) → Completes (.timeMark d) s d (s.now % 2 ^ 64) 0 (markStarted s d))) ∧
  (∀ (s : State) (c : Nat) (r : Rec),
    exec (.nop ⟨.ended, 0, 0⟩) s = .next s ∧
    (s.dbg.boundary = false → (putRec s c r).out = .hostWrite (ringDid s true c)
      ((comRing s c).base.toNat + 32 * ((comRing s c).tail.toNat % (comRing s c).entries))
      (r.bytes ((comRing s c).tail.toNat / (comRing s c).entries % 2 == 0)) :: s.out) ∧
    (comRing (putRec s c r) c).tail = (comRing s c).tail + 1 ∧
    (∀ p, r.kind < 8 → (r.bytes p).length = 32 ∧ ofLe ((r.bytes p).take 8) = r.w0 % 2 ^ 64 ∧ ofLe (((r.bytes p).drop 8).take 8) = r.w1 % 2 ^ 64 ∧
      ofLe (((r.bytes p).drop 16).take 8) = r.w2 % 2 ^ 64 ∧ ofLe (((r.bytes p).drop 24).take 4) = r.age % 2 ^ 32 ∧
      ofLe (((r.bytes p).drop 28).take 2) = r.num % 4096 + r.kind * 4096 + (if p then 32768 else 0) ∧
      ((r.bytes p).drop 30).map (·.toNat) = [r.status % 256, r.flags % 256]))

/-- A function-level reset of a VF returns its rings to IDLE with head and tail 0 and their CFG, BASE and DB to reset, masks its vectors, clears its MSI-X
enable, ends its descriptors in flight without records, and leaves the other functions' rings; that of the PF (function 0) does so for every function (R52).
A write of HIF_FN_SRINGS or HIF_FN_CRINGS assigns a block of rings, or is dropped and sets alloc_drop where the function has a RUNNING ring,
the block passes ring 1,023 or meets another function's block (R56).
MSI-X (R80, R508): at the end of a moderation interval the held requests go in one message, or set the PBA bit of a masked vector;
unmasking a vector whose PBA bit is set sends one message. -/
def Obligations.FunctionsAndVectors : Prop :=
  (∀ (s : State) (fn : Nat), fn ≤ 13 → ∃ t, exec (.functionLevelReset fn) s = .next t ∧
    (∀ r, (fn = 0 ∧ (ringFn s false r).isSome = true) ∨ ringFn s false r = some fn → flightsOf t r = [] ∧
      (subRing t r).st = .idle ∧ (subRing t r).head = 0 ∧ (subRing t r).tail = 0 ∧ (subRing t r).sizeLog2 = 6 ∧ (subRing t r).cring = 0 ∧
      (subRing t r).base = 0 ∧ (subRing t r).db = 0 ∧ (subRing t r).lastEvent = (subRing s r).lastEvent) ∧
    (∀ r, (fn = 0 ∧ (ringFn s true r).isSome = true) ∨ ringFn s true r = some fn →
      (comRing t r).st = .idle ∧ (comRing t r).head = 0 ∧ (comRing t r).tail = 0 ∧ (comRing t r).sizeLog2 = 6 ∧ (comRing t r).vector = 0 ∧
      (comRing t r).intEn = false ∧ (comRing t r).base = 0 ∧ (comRing t r).db = 0 ∧ (comRing t r).held = []) ∧
    (∀ r, fn ≠ 0 → ringFn s false r ≠ some fn → subRing t r = subRing s r) ∧
    Tbl.at false t.hif.msixEn fn = false ∧ t.mem = s.mem ∧ t.now = s.now) ∧
  (∀ (s : State) (did : Nat) (v : W32) (fn : Nat) (com : Bool), hifOpen s = true → did ≤ 2 → Tbl.at 0 s.hif.fnSel did = fn → fn < 14 →
    (fnRunning s fn = true ∨ 1024 < bitsOf v.toNat 0 10 + bitsOf v.toNat 16 11 ∨
      (List.range 14).any (fun g => g != fn && blocksMeet (bitsOf v.toNat 0 10, bitsOf v.toNat 16 11) (ringBlock s com g)) = true →
      exec (.hifFnAssign did com v) s = .next { s with hif.allocDrop := true }) ∧
    (fnRunning s fn = false → bitsOf v.toNat 0 10 + bitsOf v.toNat 16 11 ≤ 1024 →
      (List.range 14).any (fun g => g != fn && blocksMeet (bitsOf v.toNat 0 10, bitsOf v.toNat 16 11) (ringBlock s false g)) = false →
      exec (.hifFnAssign did false v) s = .next { s with hif.sRings := s.hif.sRings.put fn (bitsOf v.toNat 0 10, bitsOf v.toNat 16 11) }) ∧
    (fnRunning s fn = false → bitsOf v.toNat 0 10 + bitsOf v.toNat 16 11 ≤ 1024 →
      (List.range 14).any (fun g => g != fn && blocksMeet (bitsOf v.toNat 0 10, bitsOf v.toNat 16 11) (ringBlock s true g)) = false →
      ∃ t, exec (.hifFnAssign did true v) s = .next t ∧ ringBlock t true fn = (bitsOf v.toNat 0 10, bitsOf v.toNat 16 11) ∧
        (∀ g, g ≠ fn → ringBlock t true g = ringBlock s true g) ∧ t.hif.sRings = s.hif.sRings ∧ t.mem = s.mem)) ∧
  (∀ (s : State) (v : Nat) (m : Msix), Tbl.at Msix.reset s.hif.msix v = m → s.dbg.boundary = false →
    (m.held = false → exec (.msixModerationExpiry v) s = .next s) ∧
    (m.held = true → m.masked = true → ∃ t, exec (.msixModerationExpiry v) s = .next t ∧ t.out = s.out ∧
      Tbl.at Msix.reset t.hif.msix v = { m with pba := true, held := false } ∧ t.mem = s.mem) ∧
    (m.held = true → m.masked = false → Tbl.at false s.hif.msixEn (vectorFn v) = true → ∃ t, exec (.msixModerationExpiry v) s = .next t ∧
      t.out = .msix v :: s.out ∧ (Tbl.at Msix.reset t.hif.msix v).held = false ∧ (Tbl.at Msix.reset t.hif.msix v).pba = false) ∧
    (v < 2048 → m.pba = true → ∃ t, exec (.msixVectorUnmask v) s = .next t ∧ t.out = .msix v :: s.out ∧
      (Tbl.at Msix.reset t.hif.msix v).masked = false ∧ (Tbl.at Msix.reset t.hif.msix v).pba = false ∧ { t with hif := s.hif, out := s.out } = s) ∧
    (v < 2048 → m.pba = false → ∃ t, exec (.msixVectorUnmask v) s = .next t ∧ (Tbl.at Msix.reset t.hif.msix v).masked = false ∧ { t with hif := s.hif } = s))

/-! ### Output flows and the time reset (R29, R69, R120) -/

/-- FLOW_CONFIG creates an advisory flow, or gives one of the same cadence its new fields; a change of the cadence, or a grid of another cadence or one that
another flow carries, is DESC_INVALID. FLOW_RING names its completion ring; FLOW_DELETE removes a flow that no object names, completes with
DESC_INVALID where an object names it, and with OK where it was never configured (R29, R69, R70). -/
def Obligations.FlowDescriptors : Prop :=
  ∀ (s : State) (d : Desc),
    (Accepted s d (infoFlowConfig s d) →
      (∀ old, s.cfg.flows.find (dfld d 16 0 12) = old → (∀ x, old = some x → x.cadence = dfld d 18 0 5) →
        (dbit d 20 7 = false →
          Completes (.flowConfig d) s d 0 0 { markStarted s d with cfg.flows := s.cfg.flows.put (dfld d 16 0 12) { guarded := false, cadence := dfld d 18 0 5, enable := dbit d 19 0, grid := none, cring := old.bind (·.cring) } }) ∧
        (∀ g, dbit d 20 7 = true → s.cfg.grids.find (dfld d 20 0 3) = some g → g.cadence = dfld d 18 0 5 → carried s (dfld d 20 0 3) (dfld d 16 0 12) = false →
          Completes (.flowConfig d) s d 0 0 { markStarted s d with cfg.flows := s.cfg.flows.put (dfld d 16 0 12) { guarded := false, cadence := dfld d 18 0 5, enable := dbit d 19 0, grid := some (dfld d 20 0 3), cring := old.bind (·.cring) } }) ∧
        (dbit d 20 7 = true → (s.cfg.grids.find (dfld d 20 0 3)).any (fun g => g.cadence == dfld d 18 0 5) = false ∨ carried s (dfld d 20 0 3) (dfld d 16 0 12) = true →
          Refuses (.flowConfig d) s d stDescInvalid)) ∧
      (∀ x, s.cfg.flows.find (dfld d 16 0 12) = some x → x.cadence ≠ dfld d 18 0 5 → Refuses (.flowConfig d) s d stDescInvalid)) ∧
    (∀ x, s.cfg.flows.find (dfld d 16 0 12) = some x → Accepted s d (infoFlowRing s d) →
      (dbit d 18 0 = false → Completes (.flowRing d) s d 0 0 { markStarted s d with cfg.flows := s.cfg.flows.put (dfld d 16 0 12) { x with cring := none } }) ∧
      (∀ c, dbit d 18 0 = true → ringNo s true (fnOfDid d.did) (dfld d 20 0 10) = some c →
        Completes (.flowRing d) s d 0 0 { markStarted s d with cfg.flows := s.cfg.flows.put (dfld d 16 0 12) { x with cring := some c } }) ∧
      (dbit d 18 0 = true → ringNo s true (fnOfDid d.did) (dfld d 20 0 10) = none → Refuses (.flowRing d) s d stDescInvalid)) ∧
    (s.cfg.flows.find (dfld d 16 0 12) = none → Accepted s d (infoFlowRing s d) → Refuses (.flowRing d) s d stDescInvalid) ∧
    (Accepted s d (infoFlowDelete s d) →
      (s.cfg.flows.find (dfld d 16 0 12) = none → Completes (.flowDelete d) s d 0 0 (markStarted s d)) ∧
      (∀ x, s.cfg.flows.find (dfld d 16 0 12) = some x → flowNamed s (dfld d 16 0 12) = true → Refuses (.flowDelete d) s d stDescInvalid) ∧
      (∀ x, s.cfg.flows.find (dfld d 16 0 12) = some x → flowNamed s (dfld d 16 0 12) = false → ∃ t, Completes (.flowDelete d) s d 0 0 t ∧
        t.cfg.flows.find (dfld d 16 0 12) = none ∧ (∀ g, g ≠ dfld d 16 0 12 → t.cfg.flows.find g = s.cfg.flows.find g) ∧ t.mem = s.mem))

/-- TIME_RESET within the presence window of its DID stops every cadence, leaves no epoch, sets device time to 0 and counts the reset;
outside the window it is refused with NOT_AUTHORISED and changes no cadence and no time (R120).
TBU_CMD (R106, R108): while every cadence is STOPPED, STEP moves the counter by its operand in ns and advances the step generation, and
SET_TOD arms a step to its operand; while one is not, both are refused. REACQUIRE lets the next accepted sample enter ACQUIRE. -/
def Obligations.TimeCommands : Prop :=
  (∀ (s : State) (did : Nat), s.bootReady = true → did ≤ 2 →
    (maintOpen s did = true → ∃ t, exec (.timeReset did) s = .next t ∧ t.now = 0 ∧ t.tb.frac = 0 ∧ t.tb.gen = 0 ∧ t.tb.servo = .freerun ∧ t.epochs = [] ∧
      (∀ c, (cadOf t c).st = .stopped) ∧ t.tb.lastCmd = stOk) ∧
    (maintOpen s did = false → ∃ t, exec (.timeReset did) s = .next t ∧ t.tb.lastCmd = stNotAuth ∧ t.now = s.now ∧ t.trig = s.trig ∧ t.epochs = s.epochs)) ∧
  (∀ (s : State) (did : Nat), s.bootReady = true → did ≤ 2 →
    (cadActive s = false → ∃ t, exec (.step did) s = .next t ∧
      ((t.now * 65536 + t.tb.frac : Nat) : Int) = (((s.now * 65536 + s.tb.frac : Nat) : Int) + s.tb.operand.toInt * 65536) % 2 ^ 80 ∧
      t.tb.gen = (s.tb.gen + 1) % 16 ∧ { t with now := s.now, tb := s.tb, fldT := s.fldT } = s) ∧
    (cadActive s = true → exec (.step did) s = .next { s with tb.stepRefused := true, tb.lastCmd := stDescInvalid }) ∧
    (cadActive s = false → exec (.setTod did) s = .next { s with tb.setTod := some s.tb.operand.toNat }) ∧
    (cadActive s = true → exec (.setTod did) s = .next { s with tb.stepRefused := true, tb.lastCmd := stDescInvalid }) ∧
    exec (.reacquire did) s = .next { s with tb.reacquire := true })

/-! ### Knots (R91 to R98) -/

/-- K_INIT gives a knot its value, class, owner and mask; K_SIGNAL adds or sets, and answers the new value; K_READ answers the value; K_FREE
returns a knot on which nothing waits to FREE (R92, R93, R97). A signal whose increment is 0 or at least 2^31 completes with DESC_INVALID, and a
POISONED knot answers INTERNAL, K_FREE too (the last: log entry 126).
Waits on knots (R92, R96, R97): a satisfied wait of a thread is released and the thread is READY, and no satisfied wait of the knot stays; a
descriptor that found the table full is registered once it has room, and retries else; a knot on which nothing waits keeps its value when its RAM
fails, and reads POISONED. -/
def Obligations.Knots : Prop :=
  (∀ (s : State) (d : Desc) (k : Nat) (n : Knot), k = dfld d 16 0 13 → n = knotOf s k →
    (Accepted s d (infoKInit s d) →
      Completes (.kInit d) s d 0 0 (evalWaits { markStarted s d with knots.knots := s.knots.knots.put k { st := .active, value := BitVec.ofNat 32 (dfld d 20 0 32), guarded := dGuarded d, owner := d.did, mask := dfld d 24 0 16 } } k)) ∧
    (Accepted s d (infoKSignal s d) →
      (n.st ≠ .poisoned → dbit d 18 0 = true →
        Completes (.kSignal d) s d (dfld d 20 0 32) 0
          (evalWaits { markStarted s d with knots.knots := s.knots.knots.put k { n with value := BitVec.ofNat 32 (dfld d 20 0 32) } } k)) ∧
      (n.st ≠ .poisoned → dbit d 18 0 = false → dfld d 20 0 32 ≠ 0 → dfld d 20 0 32 < 2 ^ 31 →
        Completes (.kSignal d) s d ((n.value.toNat + dfld d 20 0 32) % 2 ^ 32) 0
          (evalWaits { markStarted s d with knots.knots := s.knots.knots.put k { n with value := n.value + BitVec.ofNat 32 (dfld d 20 0 32) } } k)) ∧
      (dbit d 18 0 = false → dfld d 20 0 32 = 0 ∨ 2 ^ 31 ≤ dfld d 20 0 32 → Refuses (.kSignal d) s d stDescInvalid) ∧
      (n.st = .poisoned → dbit d 18 0 = true ∨ (dfld d 20 0 32 ≠ 0 ∧ dfld d 20 0 32 < 2 ^ 31) → Refuses (.kSignal d) s d stInternal)) ∧
    (Accepted s d (infoKRead s d) →
      (n.st = .poisoned → Refuses (.kRead d) s d stInternal) ∧
      (n.st ≠ .poisoned → Completes (.kRead d) s d n.value.toNat 0 (markStarted s d))) ∧
    (Accepted s d (infoKFree s d) →
      (n.st = .free → Completes (.kFree d) s d 0 0 (markStarted s d)) ∧
      (n.st = .poisoned → Refuses (.kFree d) s d stInternal) ∧
      (n.st ≠ .free → n.st ≠ .poisoned → waitsOn (markStarted s d) k = 0 → Completes (.kFree d) s d 0 0 { markStarted s d with knots.knots := s.knots.knots.put k Knot.reset }) ∧
      (n.st ≠ .free → n.st ≠ .poisoned → waitsOn (markStarted s d) k ≠ 0 → Refuses (.kFree d) s d stDescInvalid))) ∧
  (∀ (s : State) (k : Nat),
    (∃ t, exec (.knotWaitRelease k) s = .next t ∧
      (∀ w ∈ t.eng.waits, ¬(w.2.knot = k ∧ w.2.satisfied = true)) ∧
      (∀ w ∈ s.eng.waits, w.2.knot = k → w.2.satisfied = true → (thread t w.1).st = .ready) ∧ t.knots.knots = s.knots.knots ∧ t.mem = s.mem) ∧
    (∀ d src turn, ((retrying s).filter (fun d => d.src == src))[turn]? = some d → (knotOf s (dWaitKnot d)).st ≠ .poisoned →
      exec (.knotWaitRetry src turn) s = .next (setWait { s with knots.retries := satAdd 16 s.knots.retries 1 } d
        (if waitsUsed s < 16384 then (.registered, knotPassed (knotOf s (dWaitKnot d)).value (dWaitValue d)) else (.tableFull, false)))) ∧
    (∀ src turn, ((retrying s).filter (fun d => d.src == src))[turn]? = none → exec (.knotWaitRetry src turn) s = .next s) ∧
    (k < 8192 → waitingOn s k = [] → (∀ w ∈ s.eng.waits, w.2.knot ≠ k) →
      ∃ t, exec (.knotPoisoned k) s = .next t ∧ (knotOf t k).st = .poisoned ∧ (knotOf t k).value = (knotOf s k).value ∧ t.mem = s.mem))

/-! ### Queues (R82 to R90) -/

/-- Q_CREATE claims a FREE queue; Q_DESTROY frees an empty one; Q_FLUSH empties it and answers how many entries it held; Q_QUERY answers
tail and head (R83, R84, R90). A queue that is not empty is not destroyed.
When a slot is free, the entry of the first blocked producer goes into the queue and its thread has its answer (R87). The background sweep
resets a queue whose pointer copies do not agree, and leaves a sound one (R88, R89). -/
def Obligations.Queues : Prop :=
  (∀ (s : State) (d : Desc) (q : Nat) (x : Queue), q = dfld d 16 0 17 → x = queueOf s q →
    (Accepted s d (infoQCreate s d) →
      x.active = false → 4 ≤ dfld d 20 0 4 → dfld d 20 0 4 ≤ 8 → 4 ≤ dfld d 21 0 5 → dfld d 21 0 5 ≤ 16 → dfld d 24 0 48 % 4096 = 0 →
      dbit d 33 7 = false → dbit d 35 7 = false →
      Completes (.qCreate d) s d 0 0 { markStarted s d with qmu.queues := s.qmu.queues.put q { active := true, guarded := dGuarded d, owner := d.did, widthLog2 := dfld d 20 0 4, entriesLog2 := dfld d 21 0 5, refuse := dbit d 22 0, base := dfld d 24 0 48, dataKnot := none, spaceKnot := none, head := 0, tail := 0, headInv := 0xFFFFFFFF, tailInv := 0xFFFFFFFF, resets := x.resets, blocked := [], ctxBad := false } }) ∧
    (x.active = true → x.usable d.did = true → x.pointersOk = true →
      (Accepted s d (infoQDestroy s d) →
        (x.head = x.tail → x.blocked = [] →
          Completes (.qDestroy d) s d 0 0 { markStarted s d with qmu.queues := s.qmu.queues.put q { Queue.reset with resets := x.resets } }) ∧
        (x.head ≠ x.tail ∨ x.blocked ≠ [] → Refuses (.qDestroy d) s d stDescInvalid) ∧
        (x.blocked = [] → Completes (.qFlush d) s d (x.tail - x.head).toNat 0 { markStarted s d with qmu.queues := s.qmu.queues.put q { x with head := x.tail, headInv := ~~~x.tail, tailInv := ~~~x.tail } })) ∧
      (Accepted s d (infoQQuery s d) →
        Completes (.qQuery d) s d (x.tail.toNat + x.head.toNat * 2 ^ 32) 0 (markStarted s d)))) ∧
  (∀ (s : State) (q : Nat) (x : Queue), x = queueOf s q →
    (x.blocked = [] → exec (.blockedEnqueueResume q) s = .next s) ∧
    (∀ p ps u, x.blocked = p :: ps → x.pointersOk = true → x.count < 2 ^ x.entriesLog2 →
      pushEntry (setQueue s q { x with blocked := ps }) q (p.bytes.take (2 ^ x.widthLog2)) = (stOk, u) →
      exec (.blockedEnqueueResume q) s = .next (answerThread u p.thread 0 [])) ∧
    (q < 131072 → x.pointersOk = true → exec (.qmuBackgroundSweep 0 q) s = .next { s with qmu.sweep := (q + 1) % 131072 }) ∧
    (q < 131072 → exec (.qmuBackgroundSweep 1 q) s = .next { s with qmu.sweep := (q + 1) % 131072, qmu.corrected := s.qmu.corrected + 1 }) ∧
    (q < 131072 → x.pointersOk = false → x.blocked = [] → s.safe.intakeUp = false →
      ∃ t, exec (.qmuBackgroundSweep 0 q) s = .next t ∧ (queueOf t q).head = 0 ∧ (queueOf t q).tail = 0 ∧ (queueOf t q).pointersOk = true ∧
        (queueOf t q).resets = satAdd 4 x.resets 1 ∧ t.qmu.total = satAdd 32 s.qmu.total 1 ∧ t.mem = s.mem))

/-! ### The time base (R101 to R119) -/

/-- The servo in TRACK, on an accepted sample of its source (R105): i is i + Ki·θ·τ and y is −(Kp·θ + i), each clamped to ±freq_lim; a sample
whose θ differs by more than outlier × 100 ns from the last is rejected, at most three times running. The PPS source stands for any source: θ is
the edge's time-stamp modulo one second, in (−0.5 s, +0.5 s] (R104).
A PTP sample is computed from the time-stamps of the latest Sync and feeds the servo (R104, R114); with no Sync waiting nothing happens.
In TRACK or LOCKED, holdover_delay without an accepted sample puts the servo into HOLDOVER; in FREERUN nothing happens (R106). A lost external or
SyncE reference sets ref_lost (R101). -/
def Obligations.ServoBehaviour : Prop :=
  (∀ (s : State) (sub : Nat) (stamp theta : Int), stamp = time16 s + (sub : Int) - (s.tb.inDelay * 16384 : Nat) →
    theta = (if 32768000000000 < stamp % 65536000000000 then stamp % 65536000000000 - 65536000000000 else stamp % 65536000000000) →
    s.tb.ppsSel = false → s.tb.setTod = none → s.tb.servoEn = true → s.tb.servo = .track → s.tb.onBackup = false → s.tb.srcPrimary = 2 → s.tb.reacquire = false →
    ((∀ p, s.tb.lastTheta = some p → thetaOver (theta - p) (s.tb.outlier * 100) = false) →
      ∃ t, exec (.ppsInEdge false s.tb.inFalling sub) s = .next t ∧
        t.tb.i = clampR s.tb.freqLim (s.tb.i + ((s.tb.ki.toNat : Rat) / 65536) * ((theta : Rat) / 65536) * (((s.up - s.tb.lastAt : Nat) : Rat) / 1000000000)) ∧
        t.tb.y = clampR s.tb.freqLim (-(((s.tb.kp.toNat : Rat) / 65536) * ((theta : Rat) / 65536) + t.tb.i)) ∧
        t.tb.lastTheta = some theta ∧ t.tb.rejects = 0 ∧ t.now = s.now ∧ t.mem = s.mem) ∧
    (∀ p, s.tb.lastTheta = some p → thetaOver (theta - p) (s.tb.outlier * 100) = true → s.tb.rejects < 3 →
      exec (.ppsInEdge false s.tb.inFalling sub) s = .next { s with tb.pps := some (stamp, s.tb.gen, false), tb.rejects := s.tb.rejects + 1 })) ∧
  (∀ (s : State) (port : Nat) (p : PtpPort), p = ptpPort s port →
    (∀ seq m n, (∀ t1, p.sync ≠ some (seq, t1)) → exec (.servoSample port seq m n) s = .next s) ∧
    (∀ m n seq t1 e theta, p.sync = some (seq, t1) → p.enable = true → asCapable s p = true → servoSource s ≠ 2 →
      s.tb.ingress.find? (fun e => e.port == port && e.type == 0 && e.seq == seq) = some e → portTheta s p t1 e.time e.gen = some theta →
      exec (.servoSample port seq m n) s = .next (servoSample (readStamps (setPtp s port { p with sync := none }) port m n) 1 theta))) ∧
  (∀ s : State,
    (s.tb.servo = .track ∨ s.tb.servo = .locked → ∃ t, exec .servoHoldoverTimeout s = .next t ∧ t.tb.servo = .holdover ∧ t.tb.onBackup = false ∧ t.mem = s.mem) ∧
    (s.tb.servo = .freerun → exec .servoHoldoverTimeout s = .next s) ∧
    (s.power.clkActive = 1 ∨ s.power.clkActive = 2 → exec .dpllRefLost s = .next { s with tb.refLost := true }) ∧
    (s.power.clkActive = 0 → exec .dpllRefLost s = .next s))

/-- PTP at an enabled port on its transport (R110 to R114): an event message received is time-stamped at the counter less the receive delays of the port
and of the mode it runs, and one sent at the counter plus its transmit delays; a SLAVE keeps the Sync of its parent with t1; a valid UTC offset of the selected
parent's Announce is stored; a message of another domain or with an unsupported feature is counted; at a port that is not enabled, or on another transport,
nothing happens.
PPS and 10 MHz (R104, R108, R116): an edge of the selected input and sense carries out a pending SET_TOD while every cadence is STOPPED, which sets the counter to
the operand at the edge; PPS_OUT rises at the next whole second less out_delay, with 10 MHz, when out_force is set or the servo is LOCKED or in HOLDOVER; a
10 MHz measurement is valid within ±50 ppm. -/
def Obligations.PtpAndTimingPins : Prop :=
  (∀ (s : State) (m : PtpMsg), m.port < 10 →
    ((ptpPort s m.port).enable = false → exec (.ptpMessageRx m) s = .next s ∧ exec (.ptpMessageTx m) s = .next s) ∧
    (m.transport ≠ (ptpPort s m.port).transport → exec (.ptpMessageRx m) s = .next s) ∧
    ((ptpPort s m.port).enable = true → m.transport = (ptpPort s m.port).transport → m.unsupported = true ∨ m.domain ≠ ptpDomain s →
      exec (.ptpMessageRx m) s = .next { s with tb.unsupported := s.tb.unsupported + 1 }) ∧
    ((ptpPort s m.port).enable = true → m.transport = (ptpPort s m.port).transport → m.unsupported = false → m.domain = ptpDomain s → m.type = 0 → (s.tb.ingress.filter (fun e => e.port == m.port)).length < 64 →
      ∀ u, u = { s with tb.ingress := s.tb.ingress ++ [{ port := m.port, seq := m.seq, type := 0, gen := s.tb.gen, time := ((s.now * 65536 + s.tb.frac : Nat) : Int) + m.sub - (internalDelay (speedMode (ingPort s m.port).speed)).2 - (ptpPort s m.port).extRx.toInt }] } →
        ((ptpPort s m.port).role = 0 ∨ m.fromParent = false → exec (.ptpMessageRx m) s = .next u) ∧
        ((ptpPort s m.port).role ≠ 0 → m.fromParent = true →
          exec (.ptpMessageRx m) s = .next (setPtp u m.port { ptpPort s m.port with sync := if m.twoStep then none else some (m.seq, m.time + m.corr) }))) ∧
    ((ptpPort s m.port).enable = true → m.transport = (ptpPort s m.port).transport → m.unsupported = false → m.domain = ptpDomain s → m.type = 0xB → (ptpPort s m.port).role ≠ 0 → m.fromParent = true → m.utcValid = true →
      exec (.ptpMessageRx m) s = .next { s with tb.utcValid := true, tb.utcOffset := m.utcOffset % 65536 }) ∧
    ((ptpPort s m.port).enable = true → s.tb.profile ≠ 1 → (ptpPort s m.port).oneStep = true → m.type = 0 → (ptpPort s m.port).role ≠ 1 → (s.tb.egress.filter (fun e => e.port == m.port)).length < 64 →
      ∃ t, exec (.ptpMessageTx m) s = .next t ∧ t.tb.egress = s.tb.egress ++ [{ port := m.port, seq := m.seq, type := 0, gen := s.tb.gen, time := ((s.now * 65536 + s.tb.frac : Nat) : Int) + m.sub + (internalDelay (speedMode (ingPort s m.port).speed)).1 + (ptpPort s m.port).extTx.toInt }] ∧ t.mem = s.mem)) ∧
  (∀ s : State,
    (∀ tod, s.tb.setTod = some tod → s.tb.ppsSel = false → cadActive s = false → s.tb.inDelay = 0 → tod < 2 ^ 64 →
      ∃ t, exec (.ppsInEdge false s.tb.inFalling 0) s = .next t ∧ t.now = tod ∧ t.tb.setTod = none ∧ t.tb.gen = (s.tb.gen + 1) % 16) ∧
    (∀ f n, f ≠ s.tb.ppsSel → exec (.ppsInEdge f s.tb.inFalling n) s = .next s) ∧
    (s.tb.outForce = true ∨ s.tb.servo = .locked ∨ s.tb.servo = .holdover → s.tb.outEn = true → s.tb.fldOutEn = false → s.dbg.boundary = false →
      ∃ t u, exec .ppsOutEdge s = .next t ∧ t.out = .pin 3 1 :: .pps false u s.tb.outWidth :: s.out ∧ (u + (s.tb.outDelay * 16384 : Nat)) % 65536000000000 = 0 ∧
        time16 s ≤ u ∧ u < time16 s + 65536000000000 ∧ t.mem = s.mem) ∧
    (s.tb.outForce = false → s.tb.servo = .freerun → ∃ t, exec .ppsOutEdge s = .next t ∧ t.out = s.out) ∧
    (∀ f : Int, f.natAbs ≤ 3200000 → exec (.clk10mGate (some f)) s = .next { s with tb.clk10m := some f }) ∧
    (∀ f : Int, 3200000 < f.natAbs → exec (.clk10mGate (some f)) s = .next { s with tb.clk10m := none }) ∧
    exec (.clk10mGate none) s = .next { s with tb.clk10m := none })

/-! ### The field die (R117 to R119, R127, R165, R454, R521, R522, R586 to R605) -/

/-- The field link's exchange and its loss (R117, R119): with field time valid, of the present step generation and within 1 µs of device time, an exchange
updates the field servo's i and y; with a larger error field time steps to device time; the eighth missed marker takes the link down into HOLDOVER with a
record; once it is up again the field die re-acquires. A frame with a bad CRC is counted and has no other effect (R587).
The field supply (R588, R589, R119): a brown-out takes the power, the firmware, the settings in force, the heartbeat and field time's validity, and is counted and
flagged; supply returns the power; overvoltage holds the outputs off until it ends; the firmware arrives once the field die has supply, the link is up and the
control processors run. -/
def Obligations.FieldTimeAndSupply : Prop :=
  (∀ (s : State) (ta tb tc td theta : Int), theta = ((tb - ta) - (td - tc)) / 2 - s.fldT.aFld.toInt → s.fldT.linkUp = true → s.fld.fwRunning = true →
    (s.fldT.valid = true → s.fldT.gen = s.tb.gen → thetaOver theta 1000 = false →
      ∃ u, exec (.fieldTimeMarker ta tb tc (some td)) s = .next (fieldReport u) ∧ u.fldT.off = theta ∧
        u.fldT.i = (servoStep (1 / 5) (1 / 100) (if s.fldT.st = .acquire then 10000 else (s.tb.freqLim : Rat)) s.fldT.i theta (s.up - s.fldT.lastAt)).1 ∧
        u.fldT.y = (servoStep (1 / 5) (1 / 100) (if s.fldT.st = .acquire then 10000 else (s.tb.freqLim : Rat)) s.fldT.i theta (s.up - s.fldT.lastAt)).2 ∧
        u.now = s.now ∧ u.mem = s.mem) ∧
    (s.fldT.valid = false → 0 ≤ theta → ∃ u, exec (.fieldTimeMarker ta tb tc (some td)) s = .next (fieldReport u) ∧ u.fldT.off = 0 ∧ u.fldT.valid = true ∧ u.fldT.gen = s.tb.gen ∧
      u.fldT.st = .acquire ∧ u.now = s.now) ∧
    exec (.fieldTimeMarker ta tb tc none) s = .next { s with fld.crc := satAdd 16 s.fld.crc 1 } ∧
    (s.safe.intakeUp = false → exec .fieldLinkDown s = .next { s with fldT.linkUp := false, fldT.st := .holdover, fldT.hold := true, fldT.inRun := 0 }) ∧
    (s.fld.powered = true → s.power.inReset.contains 9 = false → s.power.error ≠ 5 → s.dbg.tests 26 2 = false → ∃ u, exec .fieldLinkUp { s with fldT.linkUp := false } = .next u ∧ u.fldT.linkUp = true ∧ u.fldT.st = .acquire ∧
      u.fld.buffer.length = s.fld.buffer.length ∧ u.mem = s.mem)) ∧
  (∀ s : State,
    (s.fld.powered = true → ∃ u, exec .fieldBrownout s = .next u ∧ u.fld.powered = false ∧ u.fld.fwRunning = false ∧ u.fld.brownoutFlag = true ∧
      u.fld.brownouts = satAdd 16 s.fld.brownouts 1 ∧ u.fld.heartbeat = none ∧ u.fld.live = FldCfg.reset ∧ u.fldT.valid = false ∧ u.safe.req0 = false ∧ u.safe.req1 = false ∧ u.mem = s.mem) ∧
    exec .fieldSupplyGood s = .next { s with fld.powered := true } ∧
    (s.fld.powered = true → s.fld.overvoltage = false → ∃ u, exec .fieldOvervoltage s = .next u ∧ u.fld.overvoltage = true ∧ u.mem = s.mem) ∧
    exec .fieldOvervoltageRestore s = .next { s with fld.overvoltage := false } ∧
    (s.fld.powered = true → s.fldT.linkUp = true → s.fld.fwRunning = false → cpsRun s = true →
      ∃ u, exec .fieldFirmwareLoad s = .next u ∧ u.fld.fwRunning = true ∧ u.fld.live.enc = [] ∧ u.mem = s.mem) ∧
    (s.fld.powered = false → exec .fieldFirmwareLoad s = .next s))

/-- The field die's settings (R591, R594 to R597, R605): accepted from a host descriptor for a bank or channel that guarded work does not use, they are held
until they take effect; values out of range complete with DESC_INVALID.
Field channels (R594, R596, R597): an encoder sample adds the edges counted since the last one to the position and sends a 16-byte record; a serial record
that parses is counted and sent, one that does not is counted and discarded; an input change that holds for the filter time is taken and, for a
selected edge, sent, and a shorter one is a glitch. -/
def Obligations.FieldChannels : Prop :=
  (∀ (s : State) (d : Desc) (k : Nat),
    (k = dfld d 16 0 2 → Accepted s d (infoFldBank s d) →
      (dfld d 17 0 2 ≠ 3 → (∀ p ∈ s.trig.outs, p.1 / 8 = k → (cadOf s p.2.cadence).st = .stopped) →
        Completes (.fldBank d) s d 0 0 { markStarted s d with fld.bankCfg := s.fld.bankCfg.put k (dfld d 17 0 2), fld.banks := if fieldRuns s && s.fldT.linkUp then s.fld.banks.put k (dfld d 17 0 2) else s.fld.banks }) ∧
      (∀ p ∈ s.trig.outs, p.1 / 8 = k → (cadOf s p.2.cadence).st ≠ .stopped → Refuses (.fldBank d) s d stDescInvalid) ∧
      (dfld d 17 0 2 = 3 → Refuses (.fldBank d) s d stDescInvalid)) ∧
    (∀ e : EncCfg, k = dfld d 16 0 3 → e = { htl := dbit d 17 0, enable := dbit d 17 7, cadence := dfld d 18 0 5, k := dfld d 20 0 32, filter := dfld d 24 0 8 } →
      Accepted s d (infoFldEnc s d) →
      (e.k ≤ 1000000 → e.filter ≤ 100 → encFits (cadOf s e.cadence) e = true →
        Completes (.fldEnc d) s d ((cadOf s e.cadence).period / e.k / 1000) 0 { markStarted s d with fld.cfg.enc := s.fld.cfg.enc.put k e }) ∧
      (1000000 < e.k ∨ 100 < e.filter → Refuses (.fldEnc d) s d stDescInvalid)) ∧
    (∀ x : SerCfg, k = dfld d 16 0 3 → x = { mode := dfld d 17 0 2, parity := dfld d 17 2 2, framing := dfld d 17 4 2, gap := dfld d 18 0 8, syncCount := dfld d 19 0 8, sync := dfld d 20 0 16, length := dfld d 22 0 16, rate := dfld d 24 0 32 } →
      Accepted s d (infoFldSerial s d) →
      (x.mode ≠ 3 → x.parity ≠ 3 → x.framing = 1 → x.syncCount ≤ 2 → 1 ≤ x.length → x.length ≤ 1024 → 9600 ≤ x.rate → x.rate ≤ 12000000 → fieldRuns s = false →
        100 * (max (serialRate x.rate) x.rate - min (serialRate x.rate) x.rate) ≤ x.rate →
        Completes (.fldSerial d) s d (serialRate x.rate) 0 { markStarted s d with fld.cfg.ser := s.fld.cfg.ser.put k x }) ∧
      (x.mode = 3 ∨ x.parity = 3 ∨ x.framing = 3 ∨ x.length = 0 ∨ 1024 < x.length ∨ x.rate < 9600 ∨ 12000000 < x.rate → Refuses (.fldSerial d) s d stDescInvalid)) ∧
    (∀ x : DinCfg, k = dfld d 16 0 3 → x = { edges := dfld d 17 0 2, enable := dbit d 17 7, filter := dfld d 20 0 32 } →
      Accepted s d (infoFldDin s d) →
      (x.edges ≠ 0 → x.filter ≤ 10000 → fieldRuns s = false → Completes (.fldDin d) s d 0 0 { markStarted s d with fld.cfg.din := s.fld.cfg.din.put k x }) ∧
      (x.edges = 0 ∨ 10000 < x.filter → Refuses (.fldDin d) s d stDescInvalid))) ∧
  (∀ (s : State) (k : Nat), fieldRuns s = true → s.fldT.valid = true → s.fldT.linkUp = true →
    (∀ e n j t edges zs, s.fld.live.enc.find k = some e → e.enable = true → nextSample s e (Tbl.at EncSt.reset s.fld.enc k) = some (n, j, t) →
      ∃ u r, exec (.encoderSample k edges zs false false) s = .next u ∧ u.fld.buffer = s.fld.buffer ++ [r] ∧ r.kind = 0 ∧ r.channel = k ∧
        r.payload.length = 16 ∧ ofLe (r.payload.take 8) = unsigned 64 ((Tbl.at EncSt.reset s.fld.enc k).position + edges) ∧
        (Tbl.at EncSt.reset u.fld.enc k).position = (Tbl.at EncSt.reset s.fld.enc k).position + edges ∧
        (Tbl.at EncSt.reset u.fld.enc k).last = some (n, j) ∧ u.mem = s.mem) ∧
    (∀ c bytes back, s.fld.live.ser.find k = some c → c.mode ≠ 0 → bytes ≠ [] → framed c bytes = true → bytes.length ≤ 1024 →
      ∃ u r, exec (.serialRecord k bytes back true) s = .next u ∧ u.fld.buffer = s.fld.buffer ++ [r] ∧ r.kind = 1 ∧ r.payload = bytes ∧ r.time = fieldTime s - back ∧
        (Tbl.at SerSt.reset u.fld.ser k).records = satAdd 20 (Tbl.at SerSt.reset s.fld.ser k).records 1 ∧ u.mem = s.mem) ∧
    (∀ c bytes back, s.fld.live.ser.find k = some c → c.mode ≠ 0 → bytes ≠ [] →
      ∃ u, exec (.serialRecord k bytes back false) s = .next u ∧ u.fld.buffer = s.fld.buffer ∧
        (Tbl.at SerSt.reset u.fld.ser k).discards = satAdd 12 (Tbl.at SerSt.reset s.fld.ser k).discards 1 ∧ u.mem = s.mem) ∧
    (∀ c held lv, s.fld.live.din.find k = some c → c.enable = true → lv ≠ (Tbl.at DinSt.reset s.fld.din k).level →
      (held < c.filter * 1000 → ∃ u, exec (.digitalInputChange k held lv) s = .next u ∧ (Tbl.at DinSt.reset u.fld.din k).level = (Tbl.at DinSt.reset s.fld.din k).level ∧
        (Tbl.at DinSt.reset u.fld.din k).glitches = satAdd 16 (Tbl.at DinSt.reset s.fld.din k).glitches 1 ∧ { u with fld := s.fld } = s) ∧
      (c.filter * 1000 ≤ held → ∃ u, exec (.digitalInputChange k held lv) s = .next u ∧ (Tbl.at DinSt.reset u.fld.din k).level = lv ∧
        (c.edges.testBit (if lv then 0 else 1) = true → u.fld.buffer.length = s.fld.buffer.length + 1) ∧ u.mem = s.mem)))

/-- Trigger outputs (R126, R127, R592): a pulse in progress ends with an inactive edge at its end; with none in progress the next selected epoch's active edge is
placed at its instant, each at the level of the output's polarity; an overload on a PUSH_PULL_24V line turns it off for 10 ms, after which it is on again.
Scheduled actions and trigger monitors (R129, R130, R132, R133): the ACTION_CMD of the next selected epoch leaves at t_act − lead to its destination, one that the port
holds back past t_act − 100 µs is not sent, and a link that is down holds it; an acknowledgement marks the instant that waits for it; an instant that is not
met within lat_max counts as MISSED, and one that was met before it ends the run of misses. -/
def Obligations.TriggersAndActions : Prop :=
  (∀ (s : State) (k : Nat) (o : TrigOut), s.trig.outs.find k = some o → fieldRuns s = true →
    (s.fldT.valid = true → s.fld.overvoltage = false → s.power.pstate ≤ 2 → Tbl.at 0 s.fld.banks (k / 8) ≠ 0 → s.dbg.boundary = false →
      (∀ t, o.activeUntil = some t → ∃ u, exec (.triggerEdge k) s = .next u ∧ u.trig.outs.find k = some { o with activeUntil := none } ∧
        u.out = .edge k (o.fired.getD 0) ((t * 65536 : Nat) : Int) false o.activeLow s.fldT.hold :: s.out ∧ u.mem = s.mem) ∧
      (∀ n t, o.activeUntil = none → s.fld.overload.find k = none → nextTrigger s o (max o.resumeAt ((fieldTime s + 65535) / 65536).toNat) = some (n, t) →
        ∃ u, exec (.triggerEdge k) s = .next u ∧ u.trig.outs.find k = some { o with fired := some n, activeUntil := some (t + o.width) } ∧
          u.out = .edge k n ((t * 65536 : Nat) : Int) true (!o.activeLow) s.fldT.hold :: s.out ∧ u.mem = s.mem)) ∧
    (Tbl.at 0 s.fld.banks (k / 8) = 1 → k < 32 → s.fld.overload.find k = none → s.safe.intakeUp = false →
      ∃ u, exec (.triggerOverload k) s = .next u ∧ u.fld.overload.find k = some (s.up + 10000000) ∧ u.trig.outs.find k = some { o with activeUntil := none }) ∧
    (∀ t, s.fld.overload.find k = some t → ∃ u, exec (.triggerOverloadRetry k) s = .next u ∧ u.fld.overload.find k = none ∧ t ≤ u.up ∧ u.trig = s.trig)) ∧
  (∀ (s : State),
    (∀ k a hold, s.trig.actions.find k = some a → s.power.pstate ≤ 2 → s.dbg.boundary = false →
      (∀ n t, a.held = none → nextAction s a = some (n, t) → s.now ≤ t - a.lead * 100000 →
        (portUp s a.port = true → t - a.lead * 100000 + hold + 100000 ≤ t →
          ∃ u, exec (.actionCmdSend k hold) s = .next u ∧
            u.out = .frame a.port 3956 (beBytes 1 7 ++ beBytes 6 (actionDest s a) ++ actionBytes a ((Config.freeWord s.fresh).toNat % 65536) t) :: s.out ∧
            u.now = t - a.lead * 100000 ∧ u.trig.actions.find k = some { a with sent := some n } ∧ u.mem = s.mem) ∧
        (portUp s a.port = true → t < t - a.lead * 100000 + hold + 100000 →
          ∃ u, exec (.actionCmdSend k hold) s = .next u ∧ u.out = s.out ∧ u.trig.actions.find k = some { a with sent := some n } ∧ u.mem = s.mem) ∧
        (portUp s a.port = false →
          exec (.actionCmdSend k hold) s = .next { advanceTo s (t - a.lead * 100000) with trig.actions := s.trig.actions.put k { a with sent := some n, held := some t } })) ∧
      (∀ t, a.held = some t →
        (portUp s a.port = true → s.now + hold + 100000 ≤ t →
          ∃ u, exec (.actionCmdSend k hold) s = .next u ∧
            u.out = .frame a.port 3956 (beBytes 1 7 ++ beBytes 6 (actionDest s a) ++ actionBytes a ((Config.freeWord s.fresh).toNat % 65536) t) :: s.out ∧
            u.trig.actions.find k = some { a with held := none } ∧ u.mem = s.mem) ∧
        (portUp s a.port = false →
          ∃ u, exec (.actionCmdSend k hold) s = .next u ∧ u.out = s.out ∧ t - 100000 ≤ u.now ∧ u.trig.actions.find k = some { a with held := none } ∧ u.mem = s.mem))) ∧
    (∀ k, ∃ u, exec (.actionAckRx k) s = .next u ∧ { u with trig.mons := s.trig.mons } = s ∧
      (∀ j m i, s.trig.mons.find j = some m → m.enable = true → m.action = true → m.source = k → m.instants = [i] → i.acked = false → s.now ≤ i.time + m.latMax * 1000 →
        u.trig.mons.find j = some { m with instants := [{ i with acked := true }] })) ∧
    (∀ k m, s.trig.mons.find k = some m →
      ((∀ i ∈ m.instants, instantMet (wantsAck s m) i = true) → exec (.triggerMissed k) s = .next s) ∧
      (∀ i rest, m.instants = i :: rest → instantMet (wantsAck s m) i = false →
        ∃ u, exec (.triggerMissed k) s = .next u ∧ u.trig.mons.find k = some { m with instants := rest, missed := satAdd 16 m.missed 1, missRun := m.missRun + 1 } ∧
          u.mem = s.mem ∧ i.time + m.latMax * 1000 < u.now) ∧
      (∀ i j rest, m.instants = i :: j :: rest → instantMet (wantsAck s m) i = true → instantMet (wantsAck s m) j = false → i.time ≤ j.time →
        ∃ u, exec (.triggerMissed k) s = .next u ∧ u.trig.mons.find k = some { m with instants := rest, missed := satAdd 16 m.missed 1, missRun := 1 } ∧ u.mem = s.mem)))

/-- Key and seal (R521, R522, R598, R599): a pair that reads OPERATE or MAINTENANCE alone for 50 ms is that position, and any other pair for more than 20 ms is a
fault; a loop resistance outside 50 Ω to 5,000 Ω for more than 10 ms is a broken seal, which latches.
The safe-state switches on the field die (R454, R600 to R603): a request message closes a channel's switches that it asks for unless overvoltage, a local latch or
a read-back fault forbids it; 4 ms without a valid message open both; a read-back that disagrees once is counted and twice is a FATAL fault that opens both,
and so is a test pulse that the output does not follow. -/
def Obligations.KeySealAndSwitches : Prop :=
  (∀ (s : State), fieldRuns s = true →
    (∀ a b, ∃ u, exec (.keyRead a b) s = .next (fieldReport u) ∧ u.fld.pair = (if b then 1 else 0) + (if a then 2 else 0) ∧ u.mem = s.mem ∧
      (a = true → b = false → s.fld.pair = 2 → s.fld.pairSince + 50000000 ≤ s.up → u.fld.key = 1) ∧
      (a = false → b = true → s.fld.pair = 1 → s.fld.pairSince + 50000000 ≤ s.up → u.fld.key = 0) ∧
      (a = b → (s.fld.pair = 0 ∨ s.fld.pair = 3) → s.fld.pairSince + 20000000 < s.up → u.fld.key = 2)) ∧
    (∀ ohm, ∃ u, exec (.sealMeasurement ohm) s = .next u ∧ u.fld.sealSt = (if 5000 < ohm then 1 else if ohm < 50 then 2 else 0) ∧ u.mem = s.mem ∧
      (50 ≤ ohm → ohm ≤ 5000 → u.fld.sealBroken = false ∧ u.fld.sealLatched = s.fld.sealLatched) ∧
      (∀ t, (5000 < ohm ∨ ohm < 50) → s.fld.sealBad = some t → t + 10000000 < s.up → u.fld.sealBroken = true ∧ (s.fld.sealBroken = false → u.fld.sealLatched = true)))) ∧
  (∀ s : State, fieldRuns s = true →
    (s.fldT.linkUp = true → s.safe.beating = true → s.fld.overvoltage = false → s.fld.readback = false → s.fld.sw0.localOff = false → s.fld.sw1.localOff = false →
      ∃ u, exec .energiseRequestRx s = .next u ∧ u.mem = s.mem ∧
        (Config.frameIntact s.fresh = true → u.fld.heartbeat = some s.up ∧ u.fld.sw0.request = s.safe.req0 ∧ u.fld.sw1.request = s.safe.req1 ∧
          u.fld.sw0.on_ = s.safe.req0 ∧ u.fld.sw1.on_ = s.safe.req1) ∧
        (Config.frameIntact s.fresh = false → u = { tickFresh s with fld.crc := satAdd 16 s.fld.crc 1 })) ∧
    (∀ t, s.fld.heartbeat = some t → ∃ u, exec .fieldHeartbeatTimeout s = .next u ∧ u.fld.heartbeat = none ∧ u.fld.sw0.on_ = false ∧ u.fld.sw1.on_ = false ∧ u.mem = s.mem) ∧
    (∀ ma0 ma1, ma0 ≤ 600 → ma1 ≤ 600 → 5 ≤ ma0 → 5 ≤ ma1 →
      ∃ u, exec (.safeReadback s.fld.sw0.on_ s.fld.sw0.on_ s.fld.sw1.on_ s.fld.sw1.on_ ma0 ma1) s = .next u ∧ u.fld.readback = false ∧
        u.fld.sw0.on_ = s.fld.sw0.on_ ∧ u.fld.sw1.on_ = s.fld.sw1.on_ ∧ u.fld.sw0.ma = ma0 ∧ u.fld.sw1.ma = ma1 ∧ u.mem = s.mem) ∧
    (∀ ma0 ma1, s.fld.sw0.on_ = true → 1 ≤ s.fld.sw0.bad → s.fld.readback = false →
      ∃ u, exec (.safeReadback false true s.fld.sw1.on_ s.fld.sw1.on_ ma0 ma1) s = .next u ∧ u.fld.readback = true ∧ u.fld.sw0.on_ = false ∧ u.fld.sw1.on_ = false) ∧
    (s.fld.sw0.on_ = true → (∃ u, exec (.safeTestPulse 0 true) s = .next u ∧ u.fld.sw0.on_ = true ∧ u.fld.sw0.lastTest = u.up ∧ u.fld.sw1 = s.fld.sw1 ∧ u.mem = s.mem) ∧
      (∃ u, exec (.safeTestPulse 0 false) s = .next u ∧ u.fld.readback = true ∧ u.fld.sw0.on_ = false ∧ u.fld.sw1.on_ = false)))

/-! ### Cadences, triggers and actions (R19, R20, R95, R124 to R140) -/

/-- The cadence descriptors (R124, R125, R138): CAD_CONFIG sets the parameters of a STOPPED cadence whose values are in range, a 0 in trim_frac standing for 0x40
and in catchup_limit for 64; CAD_ARM of a STOPPED cadence whose bindings fit arms it with its start index, sets its knot to that index and answers acq_start of it;
CAD_STOP answers the last epoch that will run, and all ones where none will; FLOW_CATCHUP holds an advisory flow's mode for the next close. -/
def Obligations.CadenceDescriptors : Prop :=
  ∀ (s : State) (d : Desc) (k : Nat) (c : Cadence), k = dfld d 16 0 5 → c = cadOf s k →
    (∀ x : Cadence, Accepted s d (infoCadConfig s d) →
      x = { c with trimFrac := if dfld d 17 0 8 = 0 then 0x40 else dfld d 17 0 8, catchupLimit := if dfld d 18 0 16 = 0 then 64 else dfld d 18 0 16, period := dfld d 24 0 64, phase := dfld d 32 0 64, acqWindow := dfld d 40 0 64, tovOffset := dfld d 48 0 64, closeMargin := dfld d 56 0 32, budget := dfld d 60 0 32 } →
      (cadParamsOk x = true → dfld d 17 0 8 ≤ 0x80 → c.st = .stopped → Completes (.cadConfig d) s d 0 0 (setCad (markStarted s d) k x)) ∧
      (cadParamsOk x = false ∨ 0x80 < dfld d 17 0 8 ∨ c.st ≠ .stopped → Refuses (.cadConfig d) s d stDescInvalid)) ∧
    (Accepted s d (infoCadArm s d) →
      c.st = .stopped → cadParamsOk c = true → armFits s k c = true → s.now + 10000000 ≤ c.acqStart (dfld d 24 0 64) → armUnlocked s k = false → linkBusy s k = false → starting s k = false →
      ∃ t, Completes (.cadArm d) s d (c.acqStart (dfld d 24 0 64) % 2 ^ 64) 0 t ∧ (cadOf t k).st = .armed ∧ (cadOf t k).start = dfld d 24 0 64 ∧ (cadOf t k).nextStart = dfld d 24 0 64 ∧
        (cadOf t k).debt = 0 ∧ (knotOf t k).value = BitVec.ofNat 32 (dfld d 24 0 64) ∧ t.mem = s.mem ∧ t.now = s.now) ∧
    (Accepted s d (infoCadStop s d) →
      (c.st = .stopped → Completes (.cadStop d) s d (2 ^ 64 - 1) 0 (markStarted s d)) ∧
      (c.st = .armed → Completes (.cadStop d) s d (2 ^ 64 - 1) 0 (stopStreams (setCad (markStarted s d) k { c with st := .stopped }) k)) ∧
      (c.st = .running → Completes (.cadStop d) s d (lastStarted s c) 0 (setCad (markStarted s d) k { c with last := some (lastStarted s c) }))) ∧
    (∀ x, Accepted s d (infoFlowCatchup s d) → s.cfg.flows.find (dfld d 16 0 12) = some x →
      (x.guarded = false → dfld d 18 0 2 ≤ 2 → Completes (.flowCatchup d) s d 0 0 { markStarted s d with modesNext := s.modesNext.put (dfld d 16 0 12) (dfld d 18 0 2) }) ∧
      (x.guarded = true → Refuses (.flowCatchup d) s d stDescInvalid))

/-- Bindings of trigger outputs, scheduled actions and trigger monitors (R126, R129, R131): on a cadence that is STOPPED a binding with offset, width and divider in range
is set, a driven line going to its new inactive level, and one out of range completes with DESC_INVALID. -/
def Obligations.TriggerDescriptors : Prop :=
  ∀ (s : State) (d : Desc),
    (∀ o : TrigOut, Accepted s d (infoTrigConfig s d) →
      o = { cadence := dfld d 17 0 5, activeLow := dbit d 18 0, enable := dbit d 18 7, enableNext := dbit d 18 7, divider := dfld d 19 0 8, divPhase := dfld d 20 0 8, offset := dfld d 24 0 64, width := dfld d 32 0 32, fired := none, activeUntil := none, resumeAt := 0 } →
      (outFits (cadOf s o.cadence) o = true → s.trig.outs.find (dfld d 16 0 5) = none → (cadOf s o.cadence).st = .stopped →
        (outputLive s (dfld d 16 0 5) = false ∨ o.activeLow = false → Completes (.trigConfig d) s d 0 0 { markStarted s d with trig.outs := s.trig.outs.put (dfld d 16 0 5) o }) ∧
        (outputLive s (dfld d 16 0 5) = true → o.activeLow = true →
          Completes (.trigConfig d) s d 0 0 { emit (markStarted s d) (.pin (64 + dfld d 16 0 5) 1) with trig.outs := s.trig.outs.put (dfld d 16 0 5) o })) ∧
      (outFits (cadOf s o.cadence) o = false → Refuses (.trigConfig d) s d stDescInvalid)) ∧
    (∀ a : Action, Accepted s d (infoActConfig s d) →
      a = { cadence := dfld d 17 0 5, port := dfld d 18 0 3, broadcast := dbit d 18 3, ackReq := dbit d 18 4, enable := dbit d 18 7, enableNext := dbit d 18 7, divider := dfld d 19 0 8, divPhase := dfld d 22 0 8, partner := dfld d 20 0 11, lead := if dfld d 23 0 8 = 0 then 20 else dfld d 23 0 8, offset := dfld d 24 0 64, deviceKey := dfld d 32 0 32, groupKey := dfld d 36 0 32, groupMask := dfld d 40 0 32, sent := none, held := none } →
      (actFits (cadOf s a.cadence) a = true → dfld d 23 0 8 ≤ 100 → a.broadcast = true ∨ (s.ing.partners.find a.partner).isSome = true → s.trig.actions.find (dfld d 16 0 6) = none → (cadOf s a.cadence).st = .stopped →
        Completes (.actConfig d) s d 0 0 { markStarted s d with trig.actions := s.trig.actions.put (dfld d 16 0 6) a }) ∧
      (actFits (cadOf s a.cadence) a = false ∨ 100 < dfld d 23 0 8 → Refuses (.actConfig d) s d stDescInvalid)) ∧
    (∀ c, Accepted s d (infoTrigMon s d) →
      s.cfg.streams.find (dfld d 16 0 7) = some c →
      (c.kind = kindCamera → dbit d 17 7 = true ∨ dfld d 17 0 6 < 32 → 1 ≤ dfld d 28 0 32 → dfld d 28 0 32 ≤ 65535 →
        ∃ m, Completes (.trigMon d) s d 0 0 { markStarted s d with trig.mons := s.trig.mons.put (dfld d 16 0 7) m } ∧ m.source = dfld d 17 0 6 ∧ m.action = dbit d 17 7 ∧ m.enable = dbit d 18 0 ∧
          m.latMax = dfld d 28 0 32 ∧ m.expDelay = dfld d 20 0 32 ∧ m.exposure = dfld d 24 0 32 ∧ m.tsTol = dfld d 32 0 32 ∧ m.instants = [] ∧ m.missed = 0) ∧
      (c.kind ≠ kindCamera ∨ dfld d 28 0 32 = 0 ∨ 65535 < dfld d 28 0 32 → Refuses (.trigMon d) s d stDescInvalid))

/-- The instants of a cadence (R19, R20, R28, R95, R122, R125, R134, R135, R137): at acq_start(n) the cadence is RUNNING and a new epoch n stands last, with the
configuration that no change of that FAB cycle is in yet; at close(n) the cadence's knot holds n + 1 and the epoch register n; at deadline(n), where the epoch
before has no work left, the guarded flows without a record have failed, and where it has, that epoch is abandoned; when the last work of an epoch that is not
deferred has ended, the debt grows by the overrun of the deadline, or falls by what was left, to no less than 0. No instant is passed over: device time reaches it. -/
def Obligations.CadenceInstants : Prop :=
  ∀ (s : State) (c : Nat) (x : Cadence), x = cadOf s c →
    (x.runs x.nextStart = true → ∃ t e, exec (.cadenceAcqStart c) s = .next t ∧ (cadOf t c).st = .running ∧ (cadOf t c).nextStart = x.nextStart + 1 ∧ t.epochs = s.epochs ++ [e] ∧
      e.cadence = c ∧ e.epoch = x.nextStart ∧ e.cfg = startCfg (advanceTo s (x.acqStart x.nextStart)) ∧ e.closed = false ∧ x.acqStart x.nextStart ≤ t.now ∧ t.mem = s.mem) ∧
    (x.runs x.nextStart = false → exec (.cadenceAcqStart c) s = .next s) ∧
    (x.st = .running → x.nextClose < x.nextStart → s.power.inReset.contains 2 = true → exec (.cadenceClose c) s =
      .next (dropEpoch (setCad (advanceTo s (x.close x.nextClose)) c { x with nextClose := x.nextClose + 1, epoch := x.nextClose }) c x.nextClose)) ∧
    (x.st = .running → x.nextClose < x.nextStart → s.power.inReset.contains 2 = false →
      ∃ t, exec (.cadenceClose c) s = .next t ∧ (knotOf t c).value = BitVec.ofNat 32 (x.nextClose + 1) ∧ (cadOf t c).epoch = x.nextClose ∧ (cadOf t c).nextClose = x.nextClose + 1 ∧
        x.close x.nextClose ≤ t.now ∧ t.mem = s.mem) ∧
    (x.st ≠ .running ∨ x.nextStart ≤ x.nextClose → exec (.cadenceClose c) s = .next s) ∧
    (x.st = .running → x.nextDeadline < x.nextClose ∨ x.last = some (x.nextDeadline - 1) ∧ 1 ≤ x.nextDeadline →
      ((∀ e, epochOf s c (x.nextDeadline - 1) = some e → e.epoch + 1 = x.nextDeadline → e.complete = true ∨ e.aborted = true) →
        ∃ t, exec (.cadenceDeadline c) s = .next t ∧ (cadOf t c).nextDeadline = x.nextDeadline + 1 ∧ x.deadline x.nextDeadline ≤ t.now ∧
          (∀ e ∈ t.epochs, e.cadence = c → e.epoch = x.nextDeadline → e.past = true ∧ ∀ r ∈ e.flows, r.guarded = true → r.written = false → r.failAt.isSome = true) ∧ t.mem = s.mem) ∧
      (∀ e u v, epochOf s c (x.nextDeadline - 1) = some e → e.epoch + 1 = x.nextDeadline → e.complete = false → e.aborted = false →
        u = setCad (advanceTo s (x.deadline x.nextDeadline)) c { x with nextDeadline := x.nextDeadline + 1 } →
        v = abandon (if x.nextDeadline < x.nextClose then icuPulse u (32 + c) else u) e →
        exec (.cadenceDeadline c) s = .next (releaseEpoch (updEpoch v c x.nextDeadline
          (fun e => { e with past := true, flows := e.flows.map (fun r => if r.guarded ∧ !r.written then { r with failAt := some (r.failAt.getD v.now) } else r) })) c (x.nextDeadline - 1)))) ∧
    (∀ n e, epochOf s c n = some e → e.closed = true → e.finished = false → e.alignEnd.isSome = true → e.geoEnd.isSome = true → (∀ r ∈ e.flows, deferred e r = true ∨ r.ended = true) →
      (∀ p ∈ e.cfg.grids, gridPending s e p.1 = true → (e.carrier p.1).any (deferred e) = true) →
      ∃ t, exec (.epochWorkFinish c n) s = .next t ∧ ((cadOf t c).debt : Int) = max 0 ((x.debt : Int) + ((s.now : Int) - (x.deadline n : Int))) ∧ (cadOf t c).dCore = s.now - x.close n ∧
        (cadOf t c).dGrid = e.gridNs * 4 ^ e.reef ∧ t.now = s.now ∧ t.mem = s.mem ∧
        (e.flows = [] → e.cfg.grids = [] → stagesOver s { e with finished := true } = true → epochOf t c n = none))

/-! ### The intake (R142 to R177, R193, R261, R553) -/

/-- The intake's descriptors of ports, partners, programs and tags (R146, R148, R149, R159, R167, R168): settings in range are stored whole, and PORT_CONFIG sets SFP_TX_DISABLE where the port goes on or off; out of range, with a partner key
that another partner has, or with a tag that another stream's mapping has, they complete with DESC_INVALID; a partner that a stream names is not cleared; TAG_READ answers the value and the StatusCode of a tag; UCODE_LOAD takes 128 words from the
caller's memory, and the status of a read that fails. -/
def Obligations.IntakeDescriptors : Prop :=
  ∀ (s : State) (d : Desc),
    (∀ p speed, p = dfld d 16 0 4 → speed = dfld d 17 0 3 → Accepted s d (infoPortConfig s d) →
      (∀ y : IngPort, y = { ingPort s p with speed := speed, vlanEn := dbit d 18 0, ipv4En := dbit d 18 1, ipv6En := dbit d 18 2, vid := dfld d 20 0 12, mac := dfld d 24 0 48, ipv4 := dfld d 32 0 32, ipv6 := dfld d 40 0 128 } →
        p ≤ 9 → speed ≤ 4 → (8 ≤ p → speed ≤ 2) → portBusy s p = false →
        (((ingPort s p).speed = 0 ↔ speed = 0) → Completes (.portConfig d) s d 0 0 (clockLost (syncE s) { markStarted s d with ing.ports := s.ing.ports.put p y })) ∧
        (¬((ingPort s p).speed = 0 ↔ speed = 0) →
          Completes (.portConfig d) s d 0 0 (emit (clockLost (syncE s) { markStarted s d with ing.ports := s.ing.ports.put p y }) (.pin (pinTxDis p) (if speed = 0 then 1 else 0))))) ∧
      (9 < p ∨ 4 < speed ∨ (8 ≤ p ∧ 3 ≤ speed) ∨ portBusy s p = true → Refuses (.portConfig d) s d stDescInvalid)) ∧
    (∀ k, ∀ x : Partner, k = dfld d 16 0 11 →
      x = { port := dfld d 18 0 4, proto := dfld d 19 0 2, match_ := dfld d 20 0 2, program := dfld d 21 0 6, udpDst := dfld d 22 0 16, peerMac := dfld d 24 0 48, peerIp := if dfld d 20 0 2 = 2 then dfld d 32 0 128 else dfld d 32 0 32, publisher := dfld d 48 0 64, writerGroup := dfld d 56 0 16 } →
      Accepted s d (infoPartnerSet s d) →
      (x.port ≤ 9 → x.match_ ≤ 2 → protoFits x.port x.proto = true → s.ing.partners.any (fun p => p.1 != k && p.2.sameKey x) = false →
        Completes (.partnerSet d) s d 0 0 { markStarted s d with ing.partners := s.ing.partners.put k x }) ∧
      (9 < x.port ∨ 2 < x.match_ ∨ protoFits x.port x.proto = false ∨ s.ing.partners.any (fun p => p.1 != k && p.2.sameKey x) = true → Refuses (.partnerSet d) s d stDescInvalid)) ∧
    (Accepted s d (infoPartnerClear s d) →
      (streamsOf s (dfld d 16 0 11) ≠ [] → Refuses (.partnerClear d) s d stDescInvalid) ∧
      (streamsOf s (dfld d 16 0 11) = [] → ∃ t, Completes (.partnerClear d) s d 0 0 t ∧ t.ing.partners.find (dfld d 16 0 11) = none ∧ { t with ing.partners := s.ing.partners } = markStarted s d)) ∧
    (Accepted s d (infoUcodeLoad s d) →
      (dfld d 24 0 64 % 8 ≠ 0 ∨ programUsed s (dfld d 16 0 6) = true → Refuses (.ucodeLoad d) s d stDescInvalid) ∧
      (dfld d 24 0 64 % 8 = 0 → programUsed s (dfld d 16 0 6) = false → ∀ st bs u, devRead (markStarted s d) (intakeWho d) (dfld d 24 0 64) 1024 = (st, bs, u) →
        (st = stOk → Completes (.ucodeLoad d) s d 0 0 { u with ing.programs := u.ing.programs.put (dfld d 16 0 6) (words64 128 bs) }) ∧
        (st ≠ stOk → exec (.ucodeLoad d) s = .next (finishDesc u d st 0 0 0)))) ∧
    (∀ k r, k = dfld d 16 0 7 → Accepted s d (infoTagMap s d) →
      r = { firstField := dfld d 18 0 11, firstTag := dfld d 20 0 14, count := dfld d 22 0 12, type := dfld d 24 0 4, utcOffset := dfld d 26 0 16 } →
      (s.cfg.streams.find k = none → Refuses (.tagMap d) s d stDescInvalid) ∧
      (∀ c, s.cfg.streams.find k = some c →
        (c.kind = kindTag → r.count ≠ 0 → r.firstField + r.count ≤ 2048 → r.firstTag + r.count ≤ 16384 → r.type ≤ 11 → r.firstField ≤ mappedCount c.tags →
          (r.type = 0 ∨ ∀ p ∈ s.cfg.streams, p.1 ≠ k → ∀ t ∈ runTags p.2.tags, t < r.firstTag ∨ r.firstTag + r.count ≤ t) →
          Completes (.tagMap d) s d 0 0 { markStarted s d with cfg.streams := s.cfg.streams.put k { c with tags := c.tags ++ [r] } }) ∧
        (c.kind ≠ kindTag ∨ r.count = 0 ∨ 2048 < r.firstField + r.count ∨ 16384 < r.firstTag + r.count ∨ 11 < r.type ∨ mappedCount c.tags < r.firstField ∨
          (r.type ≠ 0 ∧ ∃ p ∈ s.cfg.streams, p.1 ≠ k ∧ ∃ t ∈ runTags p.2.tags, r.firstTag ≤ t ∧ t < r.firstTag + r.count) → Refuses (.tagMap d) s d stDescInvalid))) ∧
    (Accepted s d (infoTagRead s d) →
      Completes (.tagRead d) s d (Tbl.at Tag.reset s.ing.tags (dfld d 16 0 14)).value (Tbl.at Tag.reset s.ing.tags (dfld d 16 0 14)).status (markStarted s d))

/-- The stream descriptors (R29, R70, R146, R147, R150, R174, R553): STREAM_CONFIG stores a configuration in range with the DID that gave it, and NOT_AUTHORISED answers one that takes a Mirage rule from a stream that guarded work reads; STREAM_ENABLE of a stream that is neither CAMERA nor SCAN, or that has passed
its start-up injection, enables it, at the next acq_start where its cadence is not STOPPED (R28) and at once where it is (the model's reading, log entry 120); the first enable of a CAMERA or SCAN stream waits; a disable acts likewise, and ends an enable that still waits; a stream that an object names, or that is
enabled, is not deleted, and one that was never configured answers OK; an accepted TEST_INJECT waits for a blanking interval of its stream, with the packet that it read. -/
def Obligations.StreamDescriptors : Prop :=
  ∀ (s : State) (d : Desc) (k : Nat), k = dfld d 16 0 7 →
    (∀ old, ∀ c : StreamCfg, old = s.cfg.streams.find k →
      c = { old.getD (newStream s k) with kind := dfld d 17 0 3, cadence := dfld d 18 0 5, sig := dbit d 19 0, cnt := dbit d 19 1, acceptPartial := dbit d 19 2, source := dfld d 20 0 11, field := dbit d 21 7, slotLog2 := dfld d 22 0 5, slotsLog2 := dfld d 23 0 4, base := dfld d 24 0 48, selector := dfld d 32 0 32, latency := dfld d 36 0 32, width := dfld d 40 0 16, height := dfld d 42 0 16, format := dfld d 44 0 4, did := d.did } →
      Accepted s d (infoStreamConfig s d) →
      (c.kind ≤ 5 → sourceOk s k c = true → 8 ≤ c.slotLog2 → c.slotLog2 ≤ 26 → 2 ≤ c.slotsLog2 → c.slotsLog2 ≤ 10 → c.base % 65536 = 0 → c.format ≤ 2 →
        (streamGuarded s k = false ∨ mirageLost old c = false → Completes (.streamConfig d) s d 0 0 { markStarted s d with cfg.streams := s.cfg.streams.put k c }) ∧
        (streamGuarded s k = true → mirageLost old c = true → Refuses (.streamConfig d) s d stNotAuth)) ∧
      (5 < c.kind ∨ sourceOk s k c = false ∨ c.slotLog2 < 8 ∨ 26 < c.slotLog2 ∨ c.slotsLog2 < 2 ∨ 10 < c.slotsLog2 ∨ c.base % 65536 ≠ 0 ∨ 2 < c.format → Refuses (.streamConfig d) s d stDescInvalid)) ∧
    (Accepted s d (infoStreamEnable s d) → s.cfg.streams.find k = none → Refuses (.streamEnable d) s d stDescInvalid) ∧
    (∀ c, Accepted s d (infoStreamEnable s d) → s.cfg.streams.find k = some c →
      (dbit d 17 0 = true → (streamOf s k).isOn = true → Completes (.streamEnable d) s d 0 0 (setStream (markStarted s d) k { streamOf s k with leaving := false })) ∧
      (dbit d 17 0 = true → (streamOf s k).isOn = false → (c.kind ≠ kindCamera ∧ c.kind ≠ kindScan) ∨ (streamOf s k).started = true →
        (cadArmed s c.cadence = true → Completes (.streamEnable d) s d 0 0 (setStream (markStarted s d) k { streamOf s k with joining := true, askedAt := some s.up })) ∧
        (cadArmed s c.cadence = false → Completes (.streamEnable d) s d 0 0 (setStream (markStarted s d) k { streamOf s k with enabled := true, silent := false }))) ∧
      (dbit d 17 0 = true → (streamOf s k).isOn = false → c.kind = kindCamera ∨ c.kind = kindScan → (streamOf s k).started = false →
        exec (.streamEnable d) s = .next (setStream (markStarted s d) k { streamOf s k with starting := some d })) ∧
      (dbit d 17 0 = false → (streamOf s k).enabled = true → cadArmed s c.cadence = true →
        Completes (.streamEnable d) s d 0 0 (setStream (markStarted s d) k { streamOf s k with leaving := true, askedAt := some s.up })) ∧
      (dbit d 17 0 = false → (streamOf s k).enabled = false ∨ cadArmed s c.cadence = false →
        ((streamOf s k).starting = none → s.trig.arming = [] →
          Completes (.streamEnable d) s d 0 0 (setStream (dropReception (markStarted s d) k) k { streamOf s k with enabled := false, joining := false })) ∧
        Completes (.streamEnable d) s d 0 0 (releaseArming (updStream (endStarting (dropReception (markStarted s d) k) k stAborted) k (fun x => { x with enabled := false, joining := false }))))) ∧
    (Accepted s d (infoStreamDelete s d) →
      (s.cfg.streams.find k = none → Completes (.streamDelete d) s d 0 0 (markStarted s d)) ∧
      (∀ c, s.cfg.streams.find k = some c → streamGuarded s k = true → Refuses (.streamDelete d) s d stNotAuth) ∧
      (∀ c, s.cfg.streams.find k = some c → streamGuarded s k = false →
        ((streamOf s k).isOn = true ∨ streamNamed s k = true → Refuses (.streamDelete d) s d stDescInvalid) ∧
        ((streamOf s k).isOn = false → streamNamed s k = false → ∃ t, Completes (.streamDelete d) s d 0 0 t ∧ t.cfg.streams.find k = none ∧ streamOf t k = Stream.reset ∧ t.trig.mons.find k = none ∧
          (∀ c x, t.live.find c = some x → x.streams.find k = none) ∧
          (∀ j, j ≠ k → t.cfg.streams.find j = s.cfg.streams.find j ∧ streamOf t j = streamOf s j) ∧ t.mem = s.mem))) ∧
    (∀ c pattern len, pattern = dfld d 17 0 2 → len = dfld d 32 0 14 → Accepted s d (infoTestInject s d) → streamCfg s k = some c →
      (pattern ≠ 3 → c.kind = kindCamera → (pattern = 2 → dfld d 20 0 32 ≠ 0) → ((streamOf s k).isActive = false ∨ (cadOf s c.cadence).st ≠ .running) →
        exec (.testInject d) s = .next { markStarted s d with ing.injections := s.ing.injections ++ [(k, { desc := d, pattern := pattern, seed := dfld d 20 0 32, packet := [], expected := dfld d 40 0 64, deadline := s.up + 100000000 })] }) ∧
      (pattern = 3 → c.kind = kindCamera ∨ c.kind = kindScan ∨ c.kind = kindImu → len ≠ 0 → len ≤ 9000 → ((streamOf s k).isActive = false ∨ (cadOf s c.cadence).st ≠ .running) →
        ∀ st bs u, devRead (markStarted s d) (intakeWho d) (dfld d 24 0 48) len = (st, bs, u) →
          (st ≠ stOk → exec (.testInject d) s = .next (finishDesc u d st 0 0 0)) ∧
          (st = stOk → exec (.testInject d) s = .next { u with ing.injections := u.ing.injections ++ [(k, { desc := d, pattern := pattern, seed := dfld d 20 0 32, packet := bs, expected := dfld d 40 0 64, deadline := s.up + 100000000 })] })) ∧
      ((c.kind ≠ kindCamera ∧ (pattern ≠ 3 ∨ (c.kind ≠ kindScan ∧ c.kind ≠ kindImu))) ∨ (pattern = 2 ∧ dfld d 20 0 32 = 0) ∨ (pattern = 3 ∧ (len = 0 ∨ 9000 < len)) ∨ ((streamOf s k).isActive = true ∧ (cadOf s c.cadence).st = .running) →
        Refuses (.testInject d) s d stDescInvalid)) ∧
    (Accepted s d (infoTestInject s d) → streamCfg s k = none → Refuses (.testInject d) s d stDescInvalid)

/-- Frames at the Ethernet ports (R142 to R145, R610): a port that is off or whose link is down takes none; a malformed frame, one for another address, and one of no partner are counted and dropped; ARP and neighbour requests for the port's own address are answered; a frame of a partner waits for a parser with its ingress time, its
port's counter going on by one, unless the port's 512 KiB are full; a link change shows at the port and at its interrupt source.
Parsers and what waits for them (R145, R156, R164, R165, R187): a parser takes its waiting frame with the oldest ingress time and parses it; a discovery message is ignored; what a program ends in decides whether its packet is counted or committed; a GVSP frame without a packet for 10 ms ends, a partial one counted; deferred tag
writes follow once the Splice unit has its copy; a serial record of the field link waits for a parser, a damaged one is counted, and with nothing in the field die's buffer nothing happens.
A commit (R151, R153, R154): a sample of an older step generation is dropped and counted; one whose slot is held is dropped, counted, and takes the index; otherwise the payload goes behind the 64-byte header of the slot index mod slots, and the
header into the slot, as writes of the stream's DID. -/
def Obligations.ReceptionToSamples : Prop :=
  (∀ (s : State) (f : Frame) (x : IngPort), x = ingPort s f.port →
    (9 < f.port ∨ x.speed = 0 ∨ x.linkUp = false → exec (.frameReceive f) s = .next s) ∧
    (f.port ≤ 9 → x.speed ≠ 0 → x.linkUp = true →
      (frameMalformed f x = true → exec (.frameReceive f) s = .next { s with ing.ports := s.ing.ports.put f.port { x with malformed := satAdd 8 x.malformed 1 } }) ∧
      (∀ other rx, other = ({ s with ing.ports := s.ing.ports.put f.port { x with unknown := satAdd 16 x.unknown 1 } } : State) → rx = ({ s with ing.ports := s.ing.ports.put f.port { x with rx := satAdd 32 x.rx 1 } } : State) →
        (frameMalformed f x = false → f.dstMac ≠ x.mac → f.group = false → exec (.frameReceive f) s = .next other) ∧
        (frameMalformed f x = false → f.dstMac = x.mac ∨ f.group = true →
          (∀ t, f.content = .arp t →
            (x.ipv4En = true ∧ t = x.ipv4 → exec (.frameReceive f) s = .next (sendMgmt rx f.port kindArp (leBytes 6 x.mac ++ leBytes 4 x.ipv4))) ∧
            (x.ipv4En = false ∨ t ≠ x.ipv4 → exec (.frameReceive f) s = .next other)) ∧
          (∀ t, f.content = .solicit t →
            (x.ipv6En = true ∧ t = x.ipv6 → exec (.frameReceive f) s = .next (sendMgmt rx f.port kindNd (leBytes 6 x.mac ++ leBytes 16 x.ipv6))) ∧
            (x.ipv6En = false ∨ t ≠ x.ipv6 → exec (.frameReceive f) s = .next other)) ∧
          (f.content = .ptp ∨ (f.content = .actionAck ∧ f.port < 8) → exec (.frameReceive f) s = .next rx) ∧
          (f.content = .actionAck → 8 ≤ f.port → exec (.frameReceive f) s = .next other) ∧
          ((∀ t, f.content ≠ .arp t) → (∀ t, f.content ≠ .solicit t) → f.content ≠ .ptp → f.content ≠ .actionAck →
            (classify s f = none → exec (.frameReceive f) s = .next other) ∧
            (∀ k p, classify s f = some (k, p) →
              (acceptable f p = false → exec (.frameReceive f) s = .next other) ∧
              (acceptable f p = true → 524288 < portBytes s f.port + f.length →
                exec (.frameReceive f) s = .next { s with ing.ports := s.ing.ports.put f.port { x with overflow := satAdd 8 x.overflow 1 } }) ∧
              (acceptable f p = true → portBytes s f.port + f.length ≤ 524288 → ∃ r, exec (.frameReceive f) s = .next { rx with ing.waiting := s.ing.waiting ++ [r] } ∧
                r.source = k ∧ r.port = f.port ∧ r.serial = false ∧ r.bytes = f.length ∧ r.content = f.content ∧ r.udpDst = f.udpDst ∧ r.partner = some p ∧ r.maps = tagMaps s k ∧
                r.time * 65536 + r.frac = ingressTime s f ∧ r.gen = s.tb.gen))))))) ∧
  (∀ (s : State) (port : Nat) (line modAbs los : Bool),
    (port ≤ 9 → (line && !modAbs && !los) = false → ∃ t, exec (.ethernetLinkChange port ⟨line, modAbs, los⟩) s = .next t ∧ (ingPort t port).linkUp = false ∧ (icuSource t (162 + port)).input = false ∧ t.mem = s.mem) ∧
    (port ≤ 9 → (ingPort s port).speed ≠ 0 → s.power.inReset.contains 7 = false → s.dbg.tests port 1 = false →
      ∃ t, exec (.ethernetLinkChange port ⟨true, false, false⟩) s = .next t ∧ (ingPort t port).linkUp = true ∧ (icuSource t (162 + port)).input = true ∧ t.mem = s.mem) ∧
    ((ingPort s port).speed = 0 → exec (.ethernetLinkChange port ⟨true, false, false⟩) s = .next s)) ∧
  (∀ (s : State) (n : Nat) (ecc : Bool),
    (s.ing.waiting.filter (fun r => r.parser == n) = [] → exec (.parserRun ⟨n, ecc⟩) s = .next s) ∧
    (∀ r u, nextFrame (s.ing.waiting.filter (fun r => r.parser == n)) = some r → u = ({ s with ing.waiting := s.ing.waiting.erase r } : State) →
      exec (.parserRun ⟨n, ecc⟩) s = .next (parseFrame u r ecc) ∧
      (∀ p, r.partner = some p → p.proto = 3 → r.content = .discovery → exec (.parserRun ⟨n, ecc⟩) s = .next u) ∧
      (∀ p bs v e, r.partner = some p → p.proto = 2 → r.serial = false → r.content = .raw bs → v = tickFresh u →
        parsePacket (fun sel => (endTarget v r sel).map (fun x => x.2.room)) (Tbl.at [] v.ing.programs p.program) bs = e →
        (ecc = true → exec (.parserRun ⟨n, ecc⟩) s = .next (programError v r)) ∧
        (ecc = false → e = .steps → exec (.parserRun ⟨n, ecc⟩) s = .next { v with ing.uSteps := satAdd 8 s.ing.uSteps 1 }) ∧
        (ecc = false → e = .bounds → exec (.parserRun ⟨n, ecc⟩) s = .next { v with ing.uBounds := satAdd 8 s.ing.uBounds 1 }) ∧
        (∀ q, ecc = false → e = .drop (some q) → exec (.parserRun ⟨n, ecc⟩) s = .next { v with ing.uDrop := satAdd 12 s.ing.uDrop 1, ing.uReasons := s.ing.uReasons.put q (Tbl.at 0 s.ing.uReasons q + 1) }) ∧
        (∀ q, ecc = false → e = .commit q → endTarget v r q.sel = none → exec (.parserRun ⟨n, ecc⟩) s = .next { v with ing.uDrop := satAdd 12 s.ing.uDrop 1 }) ∧
        (∀ q k c, ecc = false → e = .commit q → endTarget v r q.sel = some (k, c) →
          ((streamOf s k).enabled = false → exec (.parserRun ⟨n, ecc⟩) s = .next v) ∧
          ((streamOf s k).enabled = true → c.room < q.out.length → exec (.parserRun ⟨n, ecc⟩) s = .next { v with ing.uBounds := satAdd 8 s.ing.uBounds 1 }) ∧
          ((streamOf s k).enabled = true → q.out.length ≤ c.room → q.time ≠ .free → exec (.parserRun ⟨n, ecc⟩) s = .next (commit v k c (parseDraft v c r q false)).2))))) ∧
  (∀ (s : State) (k : Nat),
    (∀ f, s.ing.cams.find? (fun f => f.stream == k && f.gvsp) = some f →
      exec (.gvspFrameTimeout k) s = .next (endFrame (advanceUp s (f.lastAt + 10000000)) f) ∧
      (streamCfg s k = none → ∃ t, exec (.gvspFrameTimeout k) s = .next t ∧ t.ing.cams = s.ing.cams.filter (fun g => g.stream ≠ k) ∧ f.lastAt + 10000000 ≤ t.up ∧ t.mem = s.mem) ∧
      (∀ c, streamCfg s k = some c → f.dropped = false → f.payload.2 = true → c.acceptPartial = false → ∃ t, exec (.gvspFrameTimeout k) s = .next t ∧
        streamOf t k = { streamOf s k with partials := satAdd 8 (streamOf s k).partials 1 } ∧ t.ing.cams = s.ing.cams.filter (fun g => g.stream ≠ k) ∧ f.lastAt + 10000000 ≤ t.up ∧ t.mem = s.mem)) ∧
    (s.ing.cams.find? (fun f => f.stream == k && f.gvsp) = none → exec (.gvspFrameTimeout k) s = .next s) ∧
    (∀ c, s.ing.deferring.contains (c, k) = true →
      exec (.tagWriteResume (c, k)) s = .next (s.ing.deferred.foldl parseUadp { s with ing.deferring := s.ing.deferring.filter (fun p => p ≠ (c, k)), ing.deferred := [] })) ∧
    (∀ c, s.ing.deferring.contains (c, k) = false → exec (.tagWriteResume (c, k)) s = .next s)) ∧
  (∀ (s : State),
    (s.fldT.linkUp = false ∨ s.fld.buffer = [] → exec .fieldRecordRx s = .next s) ∧
    (∀ r rest u, s.fldT.linkUp = true → s.fld.buffer = r :: rest → u = tickFresh { s with fld.buffer := rest } →
      ∃ t, exec .fieldRecordRx s = .next t ∧
        (Config.frameIntact s.fresh = false → t = { u with fld.crc := satAdd 16 s.fld.crc 1 }) ∧
        (Config.frameIntact s.fresh = true → r.kind = 1 → ∃ f, t = { u with ing.waiting := s.ing.waiting ++ [f] } ∧ f.serial = true ∧ f.source = r.channel ∧ f.content = .raw r.payload ∧ f.gen = r.gen ∧ f.holdover = r.holdover ∧
          f.time * 65536 + f.frac = r.time.toNat) ∧
        (Config.frameIntact s.fresh = true → r.kind ≠ 1 →
          t = (channelStreams u (if r.kind = 0 then kindEncoder else kindDigital) r.channel).foldl (fun s x => (commit s x.1 x.2 (fieldDraft r)).2) u))) ∧
  (∀ (s : State) (k : Nat) (c : StreamCfg) (x : Draft), (streamOf s k).enabled = true →
    (x.gen ≠ s.tb.gen → commit s k c x = (false, setStream s k { streamOf s k with genDrop := satAdd 8 (streamOf s k).genDrop 1 })) ∧
    (x.gen = s.tb.gen → slotHeld s k c (streamOf s k).next = true → (commit s k c x).1 = false ∧ (streamOf (commit s k c x).2 k).next = (streamOf s k).next + 1 ∧
      (streamOf (commit s k c x).2 k).ringFull = satAdd 16 (streamOf s k).ringFull 1 ∧ (commit s k c x).2.mem = s.mem) ∧
    (∀ u, x.gen = s.tb.gen → slotHeld s k c (streamOf s k).next = false → x.test = true → devWrite s (streamWho s k c) (c.slotAddr (streamOf s k).next + 64) x.payload = (stOk, u) →
      ∃ y v, devWrite u (streamWho s k c) (c.slotAddr (streamOf s k).next) (slotHeader c y x.payload.length) = v ∧ (v.1 = stOk → (commit s k c x).1 = true ∧ (commit s k c x).2.mem = v.2.mem ∧
        (streamOf (commit s k c x).2 k).lastCommit = some s.now) ∧ y.index = (streamOf s k).next ∧ y.time = x.time ∧ y.frac = x.frac ∧ y.test = true))

/-- Test injections (R174, R175, R553): one with no blanking interval within 100 ms is ABORTED; one commits a test sample once the stream is blank, its slot is read back and checked, and it completes with the signature, OK where it passes and MISMATCH with a record where it does not; a start-up injection that passes
completes the waiting STREAM_ENABLE, and one that fails ends it with MISMATCH.
A stream's return (R173, R193, R261): after eight consistent epochs a TIME_SUSPECT stream is not SUSPECT from the next acq_start; at the eighth close after its entry a stream leaves CONTESTED and contributes from the next acq_start; a FROZEN stream with eight passing samples, and for CAMERA and SCAN a
passing injection, is not FROZEN from the next acq_start. -/
def Obligations.InjectionsAndReturns : Prop :=
  (∀ (s : State) (k : Nat),
    (∀ x, injectionOf s k = some x → ∃ t, exec (.testInjectTimeout k) s = .next (finishDesc t x.desc stAborted 0 0 0) ∧ t.ing.injections = popInjection k s.ing.injections ∧ x.deadline ≤ t.up ∧ t.mem = s.mem) ∧
    (injectionOf s k = none → exec (.testInjectTimeout k) s = .next s ∧ exec (.testInjectionStart k) s = .next s) ∧
    (∀ x c at_ v, injectionOf s k = some x → streamCfg s k = some c → blankFrom s k = some at_ → v = advanceTo s at_ →
      (x.deadline < v.up → exec (.testInjectionStart k) s = .next v) ∧
      (v.up ≤ x.deadline → ∀ pass g u, inject { v with ing.injections := popInjection k s.ing.injections } k c x = (pass, g, u) →
        (pass = true → (streamOf u k).frozen = false ∨ (streamOf u k).passRun < 8 → exec (.testInjectionStart k) s = .next (finishDesc u x.desc stOk g 0 0)) ∧
        (pass = true → (streamOf u k).frozen = true → 8 ≤ (streamOf u k).passRun →
          exec (.testInjectionStart k) s = .next (finishDesc (setStream u k { streamOf u k with injected := true }) x.desc stOk g 0 0)) ∧
        (pass = false → exec (.testInjectionStart k) s = .next (finishDesc (raiseInject u k) x.desc stMismatch g 0 0)))) ∧
    (∀ c x y u st bs v, testDraft s c x = some y → commit (tickFresh s) k c y = (true, u) → readSlot u k c y = (st, bs, v) →
      inject s k c x = (st == stOk && (ofLe ((bs.drop 24).take 8) == crc64 (bs.drop 64)) && (c.kind == kindCamera || crc64 (bs.drop 64) == x.expected), crc64 (bs.drop 64), v)) ∧
    ((streamOf s k).starting = none ∨ streamCfg s k = none → ∀ bs g, exec (.startupInjection k bs g) s = .next s) ∧
    (∀ d c u bs g h pass, (streamOf s k).starting = some d → streamCfg s k = some c →
      inject s k c { desc := d, pattern := if c.kind = kindCamera then 0 else 3, seed := 0, packet := bs, expected := g, deadline := 0 } = (pass, h, u) →
      (pass = true → exec (.startupInjection k bs g) s = .next (releaseArming (endStarting (setStream u k { streamOf u k with started := true, joining := true }) k stOk))) ∧
      (pass = false → exec (.startupInjection k bs g) s = .next (releaseArming (endStarting (raiseInject u k) k stMismatch))))) ∧
  (∀ (s : State) (k : Nat) (x : Stream) (c : StreamCfg), x = streamOf s k → streamCfg s k = some c →
    (∀ n, x.back = some n → x.suspect = true → ∃ t, exec (.streamTimeRestored k) s = .next t ∧ streamOf t k = { x with suspect := false, back := none, backFrom := some (c.cadence, n) } ∧ (cadOf s c.cadence).acqStart n ≤ t.now ∧ t.mem = s.mem) ∧
    (x.back = none ∨ x.suspect = false → exec (.streamTimeRestored k) s = .next s) ∧
    (x.contested = some 0 → ∃ t, exec (.contestedExpiry k) s = .next t ∧ streamOf t k = { x with contested := none, backFrom := some (c.cadence, (cadOf s c.cadence).nextStart) } ∧ t.now = s.now ∧ t.mem = s.mem) ∧
    (x.contested ≠ some 0 → exec (.contestedExpiry k) s = .next s) ∧
    (x.frozen = true → 8 ≤ x.passRun → (c.kind = kindCamera ∨ c.kind = kindScan → x.injected = true) → (cadOf s c.cadence).st ≠ .stopped →
      ∃ t, exec (.streamFrozenRecovery k) s = .next t ∧ streamOf t k = { x with frozen := false, passRun := 0, injected := false, backFrom := some (c.cadence, (cadOf s c.cadence).nextStart) } ∧ (cadOf s c.cadence).acqStart (cadOf s c.cadence).nextStart ≤ t.now ∧ t.mem = s.mem) ∧
    (x.frozen = false ∨ x.passRun < 8 → exec (.streamFrozenRecovery k) s = .next s))

/-! ### Alignment (R189 to R198) -/

/-- The Splice unit (R190, R195 to R198): SPL_STREAM and SPL_INPUTS set the alignment of a stream and the inputs of an advisory flow, a 0 in max_gap or max_age standing for 1,000, and are refused with NOT_AUTHORISED for guarded work; a list of more than 20 inputs, or one that names an object that is not configured, is DESC_INVALID;
SPL_SNAPSHOT writes the latest table whose ALIGN has ended, as R195 lays it out, and answers its epoch; the end of ALIGN stamps the epoch and its table with the present time and gates every flow of the epoch. -/
def Obligations.SpliceCommands : Prop :=
  ∀ (s : State) (d : Desc),
    (Accepted s d (infoSplStream s d) → s.cfg.streams.find (dfld d 16 0 7) = none → Refuses (.splStream d) s d stDescInvalid) ∧
    (∀ c, Accepted s d (infoSplStream s d) → s.cfg.streams.find (dfld d 16 0 7) = some c →
      (streamGuarded s (dfld d 16 0 7) = true → Refuses (.splStream d) s d stNotAuth) ∧
      (streamGuarded s (dfld d 16 0 7) = false → Completes (.splStream d) s d 0 0 { markStarted s d with cfg.streams := s.cfg.streams.put (dfld d 16 0 7) { c with selectAll := dbit d 17 0, driftOff := dbit d 17 1, maxGap := if dfld d 18 0 16 = 0 then 1000 else dfld d 18 0 16, extrapMax := dfld d 20 0 16, maxAge := if dfld d 22 0 16 = 0 then 1000 else dfld d 22 0 16, statusMask := dfld d 24 0 32 } })) ∧
    (Accepted s d (infoSplInputs s d) → s.cfg.flows.find (dfld d 16 0 12) = none → Refuses (.splInputs d) s d stDescInvalid) ∧
    (∀ x refs, Accepted s d (infoSplInputs s d) → s.cfg.flows.find (dfld d 16 0 12) = some x →
      refs = (List.range (dfld d 18 0 8)).map (fun i => ({ isFlow := dbit d (25 + 2 * i) 7, required := dbit d (25 + 2 * i) 6, index := dfld d (24 + 2 * i) 0 12 } : InputRef)) →
      (x.guarded = true → Refuses (.splInputs d) s d stNotAuth) ∧
      (x.guarded = false → 20 < dfld d 18 0 8 ∨ (∃ r ∈ refs, if r.isFlow then s.cfg.flows.find r.index = none else s.cfg.streams.find r.index = none) → Refuses (.splInputs d) s d stDescInvalid) ∧
      (x.guarded = false → dfld d 18 0 8 ≤ 20 → (∀ r ∈ refs, if r.isFlow then s.cfg.flows.find r.index ≠ none else s.cfg.streams.find r.index ≠ none) →
        Completes (.splInputs d) s d 0 0 { markStarted s d with cfg.inputs := s.cfg.inputs.put (dfld d 16 0 12) refs })) ∧
    (Accepted s d (infoSplSnapshot s d) →
      ((s.spl.latest.find (dfld d 16 0 5)).bind (tableOf s (dfld d 16 0 5)) = none ∨ dfld d 24 0 64 % 64 ≠ 0 → Refuses (.splSnapshot d) s d stDescInvalid) ∧
      (∀ t st u, (s.spl.latest.find (dfld d 16 0 5)).bind (tableOf s (dfld d 16 0 5)) = some t → dfld d 24 0 64 % 64 = 0 →
        devWrite (markStarted s d) { did := d.did, guarded := false, kind := 4, index := 0x0900, flows := [] } (dfld d 24 0 64) (t.bytes.take (dfld d 32 0 32)) = (st, u) →
        (st = stOk → Completes (.splSnapshot d) s d t.epoch 0 u) ∧ (st ≠ stOk → exec (.splSnapshot d) s = .next (finishDesc u d st 0 0 0)))) ∧
    (∀ c e t, aligning s c = some e → tableOf s c e.epoch = some t →
      (∃ u, exec (.alignEnd c) s = .next u ∧ tableOf u c e.epoch = some { t with ended := some s.now } ∧ u.spl.latest.find c = some e.epoch ∧ u.spl.queries.find c = some t.queries.length ∧
        u.spl.alignUs.find c = some (min ((s.now - t.close) / 1000) 0xFFFF) ∧ (∀ x ∈ u.epochs, x.cadence = c → x.epoch = e.epoch → x.alignEnd = some s.now ∧ ∀ r ∈ x.flows, r.gated = true) ∧ u.now = s.now ∧ u.mem = s.mem) ∧
      (s.epochs = [e] → e.flows = [] → t.cut = false → t.streams = [] → e.finished = false → ∃ u, exec (.alignEnd c) s = .next u ∧ u.epochs = [{ e with alignEnd := some s.now }])) ∧
    (∀ c, aligning s c = none → exec (.alignEnd c) s = .next s)

/-! ### Transforms and ego-motion (R201 to R223) -/

/-- The transform unit's descriptors (R29, R70, R203, R206, R221 to R223): an entry that is finite and a unit quaternion is stored renormalised and canonical; a rig whose root is valid, a joint that fits its rig with its references, a mount on a rig, link and entry that exist, an ego group whose streams fit, and a FIXED joint's new
reference are set; an object that nothing names is deleted, and one never configured answers OK. Values out of range answer DESC_INVALID, parts of guarded work NOT_AUTHORISED, and change nothing.
Poses and ego-motion (R210 to R218): the epoch that is first in the work order gets its pose table with the pose records that fit, stamped with the present time; an ego group in INIT with points of its epoch enters SEEDED with a reference formed from them and the identity estimate. With no epoch to work on nothing happens, and an
ego group waits while its Erg unit runs an operation. -/
def Obligations.TransformsAndPoses : Prop :=
  (∀ (s : State) (d : Desc),
    (∀ k p, k = dfld d 16 0 13 → p = ({ w := dfld d 20 0 32, x := dfld d 24 0 32, y := dfld d 28 0 32, z := dfld d 32 0 32, tx := dfld d 36 0 32, ty := dfld d 40 0 32, tz := dfld d 44 0 32 } : Pose) →
      Accepted s d (infoXftEntry s d) →
      (entryGuarded s k = true → Refuses (.xftEntry d) s d stNotAuth) ∧
      (entryGuarded s k = false → [p.w, p.x, p.y, p.z, p.tx, p.ty, p.tz].all f32Finite = true → unitQuat p = true →
        Completes (.xftEntry d) s d 0 0 { markStarted s d with cfg.entries := s.cfg.entries.put k { pose := p.renorm.canonical, valid := true }, xft.poisoned := s.xft.poisoned.filter (· ≠ k) }) ∧
      (entryGuarded s k = false → [p.w, p.x, p.y, p.z, p.tx, p.ty, p.tz].all f32Finite = false ∨ unitQuat p = false → Refuses (.xftEntry d) s d stDescInvalid)) ∧
    (∀ k n, k = dfld d 16 0 4 → n = dfld d 17 0 5 → Accepted s d (infoXftRig s d) →
      (rigGuarded s k = true → Refuses (.xftRig d) s d stNotAuth) ∧
      (rigGuarded s k = false → n ≤ 16 → entryValid s (dfld d 20 0 13) = true → dbit d 18 0 = false ∨ (chainOf s.cfg k n).length = n →
        Completes (.xftRig d) s d 0 0 { markStarted s d with cfg.rigs := s.cfg.rigs.put k { joints := n, enable := dbit d 18 0, root := dfld d 20 0 13 } }) ∧
      (rigGuarded s k = false → 16 < n ∨ entryValid s (dfld d 20 0 13) = false ∨ (dbit d 18 0 = true ∧ (chainOf s.cfg k n).length ≠ n) → Refuses (.xftRig d) s d stDescInvalid)) ∧
    (∀ k, ∀ j : Joint, k = dfld d 16 0 7 →
      j = { rig := dfld d 18 0 4, position := dfld d 19 0 5, prismatic := dbit d 20 0, axis := dfld d 20 1 3, zHome := dbit d 20 4, wrap := dbit d 20 5, primary := dfld d 21 0 7, check := if dbit d 22 7 then some (dfld d 22 0 7) else none, zTol := dfld d 23 0 8, pre := dfld d 24 0 13, zOffset := signed 16 (dfld d 26 0 16), zPeriod := dfld d 28 0 32, scale := dfld d 32 0 64, ref := signed 64 (dfld d 40 0 64), zero := dfld d 48 0 64, min := dfld d 56 0 32, max := dfld d 60 0 32 } →
      Accepted s d (infoXftJoint s d) →
      (jointGuarded s k = true ∨ rigGuarded s j.rig = true → Refuses (.xftJoint d) s d stNotAuth) ∧
      (jointGuarded s k = false → rigGuarded s j.rig = false →
        (j.position = 0 ∨ 16 < j.position ∨ 5 < j.axis ∨ (j.prismatic = true ∧ j.wrap = true) ∨ j.zTol = 0 ∨ j.scale % 2 ^ 63 = 0 ∨ f32Lt j.min j.max = false ∨ entryValid s j.pre = false ∨ isEncoder s j.primary = false ∨ j.check.all (isEncoder s) = false ∨
          s.cfg.joints.any (fun p => p.1 != k && p.2.rig == j.rig && p.2.position == j.position) = true → Refuses (.xftJoint d) s d stDescInvalid) ∧
        (1 ≤ j.position → j.position ≤ 16 → j.axis ≤ 5 → j.prismatic = false ∨ j.wrap = false → j.zTol ≠ 0 → j.scale % 2 ^ 63 ≠ 0 → f32Lt j.min j.max = true → entryValid s j.pre = true → isEncoder s j.primary = true → j.check.all (isEncoder s) = true →
          s.cfg.joints.any (fun p => p.1 != k && p.2.rig == j.rig && p.2.position == j.position) = false → ∀ ref, ref = (if j.zHome then (false, 0) else (true, j.ref)) →
          Completes (.xftJoint d) s d 0 0 (setJoint { markStarted s d with cfg.joints := s.cfg.joints.put k j } k { jointSt s k with nextPrimary := some ref, nextCheck := some ref, askedAt := some s.up })))) ∧
    (Accepted s d (infoXftMount s d) → s.cfg.streams.find (dfld d 16 0 7) = none → Refuses (.xftMount d) s d stDescInvalid) ∧
    (∀ k c, k = dfld d 16 0 7 → s.cfg.streams.find k = some c → Accepted s d (infoXftMount s d) →
      (mountGuarded s k = true → Refuses (.xftMount d) s d stNotAuth) ∧
      (mountGuarded s k = false → c.kind ≠ kindCamera → c.kind ≠ kindScan → c.kind ≠ kindImu → Refuses (.xftMount d) s d stDescInvalid) ∧
      (mountGuarded s k = false → c.kind = kindCamera ∨ c.kind = kindScan ∨ c.kind = kindImu →
        (dbit d 17 7 = true → (s.cfg.rigs.find (dfld d 17 0 4)).any (fun x => decide (dfld d 18 0 5 ≤ x.joints)) = true → entryValid s (dfld d 20 0 13) = true →
          Completes (.xftMount d) s d 0 0 { markStarted s d with cfg.streams := s.cfg.streams.put k { c with mount := some (dfld d 17 0 4, dfld d 18 0 5, dfld d 20 0 13), atTov := dbit d 19 0 } }) ∧
        (dbit d 17 7 = true → (s.cfg.rigs.find (dfld d 17 0 4)).any (fun x => decide (dfld d 18 0 5 ≤ x.joints)) = false ∨ entryValid s (dfld d 20 0 13) = false → Refuses (.xftMount d) s d stDescInvalid) ∧
        (dbit d 17 7 = false → s.cfg.egos.any (fun p => p.2.streams.contains k) = false → Completes (.xftMount d) s d 0 0 { markStarted s d with cfg.streams := s.cfg.streams.put k { c with mount := none, atTov := false } }) ∧
        (dbit d 17 7 = false → s.cfg.egos.any (fun p => p.2.streams.contains k) = true → Refuses (.xftMount d) s d stDescInvalid))) ∧
    (∀ g x, g = dfld d 16 0 4 → x = egoBody d → Accepted s d (infoXftEgo s d) →
      (egoGuarded s g = true ∨ x.streams.any (streamGuarded s) = true → Refuses (.xftEgo d) s d stNotAuth) ∧
      (egoGuarded s g = false → x.streams.any (streamGuarded s) = false →
        (1 ≤ x.link → x.link ≤ 16 → (s.cfg.rigs.find x.rig).any (fun r => decide (x.link ≤ r.joints)) = true → x.regPoints ≤ 16384 → x.iterMax ≤ 8 → x.coastMax ≤ 8 → x.refAgeMax ≤ 15 → egoStreamsOk s x = true →
          Completes (.xftEgo d) s d 0 0 { markStarted s d with cfg.egos := s.cfg.egos.put g x, xft.egos := if egoInUse s g then s.xft.egos else s.xft.egos.drop g }) ∧
        (x.link = 0 ∨ 16 < x.link ∨ (s.cfg.rigs.find x.rig).any (fun r => decide (x.link ≤ r.joints)) = false ∨ 16384 < x.regPoints ∨ 8 < x.iterMax ∨ 8 < x.coastMax ∨ 15 < x.refAgeMax ∨ egoStreamsOk s x = false → Refuses (.xftEgo d) s d stDescInvalid))) ∧
    (Accepted s d (infoXftSetRef s d) → s.cfg.joints.find (dfld d 16 0 7) = none → Refuses (.xftSetRef d) s d stDescInvalid) ∧
    (∀ k j y which p q, k = dfld d 16 0 7 → s.cfg.joints.find k = some j → y = jointSt s k → which = dfld d 18 0 2 → Accepted s d (infoXftSetRef s d) →
      p = (if which.testBit 0 then y.primary.lastPos.bind (fun x => newRef j x (dfld d 24 0 64)) else some y.primary.ref) →
      q = (if which.testBit 1 then y.check.lastPos.bind (fun x => newRef j x (dfld d 24 0 64)) else some y.check.ref) →
      (jointGuarded s k = true → Refuses (.xftSetRef d) s d stNotAuth) ∧
      (jointGuarded s k = false → j.zHome = true ∨ which = 0 ∨ (which.testBit 1 = true ∧ j.check = none) ∨ p = none ∨ q = none → Refuses (.xftSetRef d) s d stDescInvalid) ∧
      (∀ a b, jointGuarded s k = false → j.zHome = false → which ≠ 0 → (which.testBit 1 = true → j.check ≠ none) → p = some a → q = some b →
        Completes (.xftSetRef d) s d (unsigned 64 a) 0 (setJoint (markStarted s d) k
          { y with nextPrimary := if which.testBit 0 then some (true, a) else y.nextPrimary, nextCheck := if which.testBit 1 then some (true, b) else y.nextCheck, askedAt := some s.up }))) ∧
    (∀ k, k = dfld d 18 0 13 → Accepted s d (infoXftDelete s d) →
      (dfld d 16 0 2 = 0 →
        (entryGuarded s k = true → Refuses (.xftDelete d) s d stNotAuth) ∧
        (entryGuarded s k = false → s.cfg.entries.find k = none → Completes (.xftDelete d) s d 0 0 (markStarted s d)) ∧
        (∀ named, named = (s.cfg.rigs.any (fun p => p.2.root == k) || s.cfg.joints.any (fun p => p.2.pre == k) || s.cfg.streams.any (fun p => p.2.mount.any (fun m => m.2.2 == k))) → entryGuarded s k = false → s.cfg.entries.find k ≠ none →
          (named = true → Refuses (.xftDelete d) s d stDescInvalid) ∧
          (named = false → Completes (.xftDelete d) s d 0 0 { markStarted s d with cfg.entries := s.cfg.entries.drop k, xft.poisoned := s.xft.poisoned.filter (· ≠ k) }))) ∧
      (dfld d 16 0 2 = 1 →
        (s.cfg.joints.find k = none → Completes (.xftDelete d) s d 0 0 (markStarted s d)) ∧
        (∀ j, s.cfg.joints.find k = some j →
          (jointGuarded s k = true → Refuses (.xftDelete d) s d stNotAuth) ∧
          (jointGuarded s k = false → (s.cfg.rigs.find j.rig).any (·.enable) = true → Refuses (.xftDelete d) s d stDescInvalid) ∧
          (jointGuarded s k = false → (s.cfg.rigs.find j.rig).any (·.enable) = false → Completes (.xftDelete d) s d 0 0 { markStarted s d with cfg.joints := s.cfg.joints.drop k, xft.joints := s.xft.joints.drop k }))) ∧
      (dfld d 16 0 2 = 2 →
        (rigGuarded s k = true → Refuses (.xftDelete d) s d stNotAuth) ∧
        (rigGuarded s k = false → s.cfg.rigs.find k = none → Completes (.xftDelete d) s d 0 0 (markStarted s d)) ∧
        (∀ named, named = (s.cfg.joints.any (fun p => p.2.rig == k) || s.cfg.streams.any (fun p => p.2.mount.any (fun m => m.1 == k)) || s.cfg.egos.any (fun p => p.2.rig == k)) → rigGuarded s k = false → s.cfg.rigs.find k ≠ none →
          (named = true → Refuses (.xftDelete d) s d stDescInvalid) ∧
          (named = false → Completes (.xftDelete d) s d 0 0 { markStarted s d with cfg.rigs := s.cfg.rigs.drop k }))) ∧
      (dfld d 16 0 2 = 3 →
        (egoGuarded s k = true → Refuses (.xftDelete d) s d stNotAuth) ∧
        (egoGuarded s k = false → ∃ t, Completes (.xftDelete d) s d 0 0 t ∧ t.cfg.egos.find k = none ∧ { t with cfg.egos := s.cfg.egos, xft.egos := s.xft.egos } = markStarted s d ∧
          t.xft.egos = (if s.epochs.any (fun e => (e.cfg.egos.find k).isSome) then s.xft.egos else s.xft.egos.drop k))))) ∧
  (∀ (s : State),
    (∀ e t, firstEpoch (s.epochs.filter (fun e => e.alignEnd.isSome && !e.aborted && (poseTableOf s e.cadence e.epoch).isNone)) = some e → tableOf s e.cadence e.epoch = some t →
      (∀ bad, ∃ u p, exec (.poseEvaluation bad) s = .next u ∧ poseTableOf u e.cadence e.epoch = some p ∧ p.tov = t.tov ∧ p.kinematic = s.now ∧ p.poses = (fitPoses t (poseRecs (bad.foldl poisonEntry s) e t)).1 ∧ p.groups = [] ∧ u.mem = s.mem) ∧
      (e.cfg.joints = [] → (fitPoses t (poseRecs s e t)).2 = false → (namedStreams e).filter (poseLost e t (fitPoses t (poseRecs s e t)).1) = [] → (∀ x ∈ s.epochs, (egosOf x).all x.egosDone.contains = false) →
        ∃ u, exec (.poseEvaluation []) s = .next u ∧ u.epochs = s.epochs)) ∧
    (s.epochs = [] → ∀ bad g, exec (.poseEvaluation bad) s = .next s ∧ exec (.egoMotion g) s = .next s) ∧
    (∀ g e t p x, egoEpoch s g = some e → tableOf s e.cadence e.epoch = some t → poseTableOf s e.cadence e.epoch = some p → e.cfg.egos.find g = some x →
      ((s.geo.ergRun.find x.erg).isSome = true → exec (.egoMotion g) s = .next s) ∧
      (∀ pts, pts = x.streams.flatMap (streamPoints s e t p) → pts ≠ [] → (s.geo.ergRun.find x.erg).isSome = false → (Tbl.at Ego.reset s.xft.egos g).st = .init →
        ∃ u y, exec (.egoMotion g) s = .next u ∧ Tbl.at Ego.reset u.xft.egos g = y ∧ y.st = .seeded ∧ y.d = Pose.id ∧ y.refGen = e.gen ∧ y.refAge = 0 ∧ y.refEpoch = e.epoch ∧
          y.reference = referenceOf x.regCell x.corrMax (fun j i => Config.register s.fresh (3 * j + i)) (sensorAtTov s e t p Estimate.none) (pts.map (fun q => (q, q.site Estimate.none))) ∧ u.mem = s.mem ∧
          (∀ f ∈ u.epochs, f.cadence = e.cadence → f.epoch = e.epoch → g ∈ f.egosDone))))

/-! ### Memory and translation (R414 to R437, R55) -/

/-- The MMU's descriptors (R427 to R429, R433, R434): an operation acts on the issuer's own context, or on the one that byte 38 names for DID 0 and 1. MAP adds leaf entries where no page is mapped or belongs to a sequence and, for local memory, the firewall grants the accesses; a page already mapped refuses it, and a grant that the firewall
does not give answers FIREWALL. UNMAP removes the pages and only them; both drop what the TLBs hold of the range. QUERY answers the leaf entry that maps a page and its level, or an invalid entry of value 0 and all ones; FW_SET writes a region that the issuer's DID may set, and NOT_AUTHORISED answers any other. -/
def Obligations.MmuDescriptors : Prop :=
  ∀ (s : State) (d : Desc),
    (dfld d 38 0 5 = 0 → mmuContext d = some d.did) ∧ (dbit d 38 4 = true → d.did ≤ 1 → mmuContext d = some (dfld d 38 0 4)) ∧ (dbit d 38 4 = true → 2 ≤ d.did → mmuContext d = none) ∧
    (mmuContext d = none →
      (Accepted s d (infoMmuMap s d) → Refuses (.mmuMap d) s d stDescInvalid) ∧ (Accepted s d (infoMmuUnmap s d) → Refuses (.mmuUnmap d) s d stDescInvalid) ∧ (Accepted s d (infoMmuQuery s d) → Refuses (.mmuQuery d) s d stDescInvalid)) ∧
    (∀ m c n va, mmuContext d = some m → c = Tbl.at Context.reset s.mmu.ctx m → n = dfld d 32 0 32 → va = dfld d 16 0 64 →
      (Accepted s d (infoMmuMap s d) →
        (∀ target ta, ∀ leaf : LeafRun, target = dfld d 36 0 2 → ta = dfld d 24 0 64 →
          leaf = { va := va / 65536, pages := n, target := target, read := dbit d 36 2, write := dbit d 36 3, managed := false, large := false, module := if target = 2 then dfld d 37 0 4 else 0, page := ta / 65536 } →
          va % 65536 = 0 → n ≠ 0 → n ≤ 2 ^ 24 → va / 65536 + n ≤ 2 ^ 32 → ta % 65536 = 0 → target ≠ 3 → c.runs.any (fun r => pagesMeet (va / 65536) n r.va r.pages) = false → sequenceOwns s m (va / 65536) n = false →
          (target = 0 → ta / 65536 + n ≤ 0x380000) → (target ≠ 0 → m ≠ 0) → (target = 2 → dfld d 37 0 4 ≠ s.oct.module) →
          (target = 0 → fwGrants s m (ta / 65536) n (dbit d 36 2) (dbit d 36 3) = false → Refuses (.mmuMap d) s d stFirewall) ∧
          ((target = 0 → fwGrants s m (ta / 65536) n (dbit d 36 2) (dbit d 36 3) = true) →
            Completes (.mmuMap d) s d n 0 { tlbDrop (markStarted s d) m (va / 65536) n with mmu.ctx := s.mmu.ctx.put m { c with runs := (mapRuns leaf (dbit d 36 4)).foldl insertRun c.runs } })) ∧
        (n = 0 ∨ 2 ^ 24 < n ∨ va % 65536 ≠ 0 ∨ 2 ^ 32 < va / 65536 + n ∨ dfld d 36 0 2 = 3 ∨ c.runs.any (fun r => pagesMeet (va / 65536) n r.va r.pages) = true ∨ sequenceOwns s m (va / 65536) n = true → Refuses (.mmuMap d) s d stDescInvalid)) ∧
      (Accepted s d (infoMmuUnmap s d) → va % 65536 = 0 → n ≠ 0 → n ≤ 2 ^ 24 → va / 65536 + n ≤ 2 ^ 32 →
        (unmappable c.runs (va / 65536) n = true → ∃ t u, Completes (.mmuUnmap d) s d n 0 t ∧ t = { tlbDrop (markStarted s d) m (va / 65536) n with mmu.ctx := s.mmu.ctx.put m u } ∧ u = { c with runs := u.runs } ∧
          (∀ p, va / 65536 ≤ p → p < va / 65536 + n → findRun u.runs p = none) ∧ (∀ p, p < va / 65536 ∨ va / 65536 + n ≤ p → ((findRun u.runs p).isSome ↔ (findRun c.runs p).isSome))) ∧
        (unmappable c.runs (va / 65536) n = false → Refuses (.mmuUnmap d) s d stDescInvalid)) ∧
      (Accepted s d (infoMmuQuery s d) →
        (va < 2 ^ 48 → findRun c.runs (va / 65536) = none → Completes (.mmuQuery d) s d 0 0xFFFFFFFF (markStarted s d)) ∧
        (∀ r, va < 2 ^ 48 → findRun c.runs (va / 65536) = some r → Completes (.mmuQuery d) s d (leafWord r (va / 65536)) (if r.large then 1 else 0) (markStarted s d)) ∧
        (2 ^ 48 ≤ va → Refuses (.mmuQuery d) s d stDescInvalid))) ∧
    (∀ k, k = dfld d 16 0 8 →
      (Accepted s d (infoMmuFwSet s d) →
        (dfld d 20 0 32 ≤ dfld d 24 0 32 → ∃ r, r = ({ enable := dbit d 32 0, base := dfld d 20 0 32, limit := dfld d 24 0 32, rmask := dfld d 28 0 16, wmask := dfld d 30 0 16, guardWrite := dbit d 32 1, denials := (Tbl.at Region.reset s.mmu.regions k).denials } : Region) ∧
          Completes (.mmuFwSet d) s d 0 0 { markStarted s d with mmu.regions := s.mmu.regions.put k r }) ∧
        (dfld d 24 0 32 < dfld d 20 0 32 → Refuses (.mmuFwSet d) s d stDescInvalid)) ∧
      (k = 0 ∨ (k ≤ 63 ∧ d.did ≠ 1) ∨ (64 ≤ k ∧ d.did ≠ 2) → ¬Accepted s d (infoMmuFwSet s d)) ∧
      (mayStart s d = true → descChecks s d (infoMmuFwSet s d) = stNotAuth → exec (.mmuFwSet d) s = .next (finishDesc s d stNotAuth 0 0 0)))

/-- The BAR2 window and the memory controllers (R55, R418 to R420, R430, R431, R433, R549): while the boot ROM waits for the PF's image, the window's first 64 MiB are the staging buffer; else a write through the window that its context maps to local memory and that the firewall lets pass stores exactly its bytes, and a read answers
them; a read of an unmapped page returns all ones and changes no byte. Besides, an access touches only the translation caches and the system cache. A scrubbed line with no error only moves the scrubber on by one line, a corrected one adds one to ce, an uncorrectable one poisons the line and raises ue; a refresh-rate code that
reports a temperature above the limit sets hot, which stays. -/
def Obligations.MemoryAccesses : Prop :=
  ∀ (s : State) (off : Nat) (bs : List Byte) (va : Nat), va = s.hif.winBaseHi * 2 ^ 32 + off % 2 ^ 32 →
    (staged s off bs.length = true → exec (.bar2WindowAccess true off bs) s = .next (sramWrite s (Space.key .staging off) bs) ∧
      exec (.bar2WindowAccess false off bs) s = .next (emit s (.windowData (Memory.reads s.mem (Space.key .staging off) bs.length)))) ∧
    (∀ pa, staged s off bs.length = false → va % 65536 + bs.length ≤ 65536 → bs ≠ [] → translate s 2 va true = .ok (.localMem pa) → fwAllows s 2 pa true false = true →
      ∃ t, exec (.bar2WindowAccess true off bs) s = .next t ∧ t.mem = Memory.writes s.mem (Space.key .dram pa) bs ∧
        (∀ k, (∀ j, j < bs.length → k ≠ Space.key .dram pa + j) → Memory.read t.mem k = Memory.read s.mem k) ∧ { t with mem := s.mem, mmu.poison := s.mmu.poison, tlb := s.tlb } = s) ∧
    (∀ pa, staged s off bs.length = false → va % 65536 + bs.length ≤ 65536 → bs ≠ [] → translate s 2 va false = .ok (.localMem pa) → fwAllows s 2 pa false false = true → poisonedIn s pa bs.length = none → s.dbg.boundary = false →
      ∃ t, exec (.bar2WindowAccess false off bs) s = .next t ∧ t.out = .windowData (Memory.reads s.mem (Space.key .dram pa) bs.length) :: s.out ∧ { t with out := s.out, tlb := s.tlb } = s) ∧
    (∀ st lv, staged s off bs.length = false → va % 65536 + bs.length ≤ 65536 → bs ≠ [] → translate s 2 va false = .error (st, lv) → s.dbg.boundary = false →
      ∃ t, exec (.bar2WindowAccess false off bs) s = .next t ∧ t.out.head? = some (.windowData (List.replicate bs.length 0xFF)) ∧ t.mem = s.mem ∧ (Tbl.at MmuFault.reset t.mmu.faults 2).status = st ∧ (Tbl.at MmuFault.reset t.mmu.faults 2).va = va ∧ t.mmu.ctx = s.mmu.ctx) ∧
    (∀ mc c, mc < 8 → c = Tbl.at MemCtl.reset s.mmu.mcs mc → c.scrub + 1 < mcLines →
      (∃ t x, exec (.memPatrolScrub mc 0) s = .next t ∧ Tbl.at MemCtl.reset t.mmu.mcs mc = { c with scrub := c.scrub + 1, behind := x } ∧ { t with mmu.mcs := s.mmu.mcs } = s) ∧
      (∃ t, exec (.memPatrolScrub mc 1) s = .next t ∧ (Tbl.at MemCtl.reset t.mmu.mcs mc).ce = min (c.ce + 1) 65535 ∧ (Tbl.at MemCtl.reset t.mmu.mcs mc).ue = c.ue ∧ { t with mmu.mcs := s.mmu.mcs } = s) ∧
      (s.mmu.poison.contains (paOfLocal mc (c.scrub * 64) / 64) = false →
        ∃ t, exec (.memPatrolScrub mc 2) s = .next t ∧ (Tbl.at MemCtl.reset t.mmu.mcs mc).ue = min (c.ue + 1) 65535 ∧ (Tbl.at MemCtl.reset t.mmu.mcs mc).ueAddr = paOfLocal mc (c.scrub * 64) ∧ paOfLocal mc (c.scrub * 64) / 64 ∈ t.mmu.poison ∧ t.mem = s.mem) ∧
      (∀ k, exec (.dramMr4Read mc k false) s = .next (icuSet { s with mmu.mcs := s.mmu.mcs.put mc { c with mr4 := k % 8, hot := c.hot } } (176 + mc) c.hot)) ∧
      (∀ k, ∃ t, exec (.dramMr4Read mc k true) s = .next t ∧ Tbl.at MemCtl.reset t.mmu.mcs mc = { c with mr4 := k % 8, hot := true } ∧ t.mem = s.mem))

/-! ### Erg point units (R224 to R244) -/

/-- The Erg units (R225, R226, R233 to R244). A volume whose fields and members are in range is stored whole; any field or member out of range answers DESC_INVALID and a guarded volume NOT_AUTHORISED; a descriptor without members deletes a volume that nothing names, and answers OK for one never configured.
An operation whose sizes and addresses are in range joins those that wait for the unit it names, and a unit that is idle starts it where no epoch's work waits; a size or an address out of range answers DESC_INVALID.
The end of the operation a unit runs frees the unit and completes the descriptor with what the operation gives; with an uncorrectable error of the work store it completes with INTERNAL. A unit that runs an operation is never interrupted, and with nothing to build or to end nothing happens. A build ends with the unit's last volume and build noted; without VOX and members no byte of memory changes and the store is empty. -/
def Obligations.ErgUnits : Prop :=
  ∀ (s : State) (d : Desc),
    (∀ u members, ∀ v : Volume, u = dfld d 16 0 1 → members = (List.range 8).filterMap (fun j => if dbit d (18 + j) 7 then some (j, dfld d (18 + j) 0 7) else none) →
      v = { vox := dbit d 16 1, reefMax := dfld d 16 2 2, keep := dfld d 16 4 4, cadence := dfld d 17 0 5, members := members, blocksMax := dfld d 26 0 11, rangeMax := dfld d 28 0 32, cell := dfld d 32 0 32, ox := dfld d 36 0 32, oy := dfld d 40 0 32, oz := dfld d 44 0 32, pointBase := dfld d 48 0 48, siteBase := dfld d 56 0 48, did := d.did, guarded := false } →
      Accepted s d (infoErgVolume s d) →
      (volGuarded s u = true → Refuses (.ergVolume d) s d stNotAuth) ∧
      (volGuarded s u = false → members = [] →
        (s.cfg.volumes.find u = none → Completes (.ergVolume d) s d 0 0 (markStarted s d)) ∧
        (s.cfg.volumes.find u ≠ none → volNamed s u = true → Refuses (.ergVolume d) s d stDescInvalid) ∧
        (s.cfg.volumes.find u ≠ none → volNamed s u = false → Completes (.ergVolume d) s d 0 0 { markStarted s d with cfg.volumes := Tbl.drop s.cfg.volumes u })) ∧
      (volGuarded s u = false → members ≠ [] →
        (1 ≤ v.keep → v.keep ≤ 8 → 1 ≤ v.blocksMax → v.blocksMax ≤ 1024 → f32Pos v.rangeMax = true → f32Finite v.cell = true → ratOfV (decodeF fp32 0x3C23D70A) ≤ ratOfV (decodeF fp32 v.cell) → ratOfV (decodeF fp32 v.cell) ≤ 10 →
          [v.ox, v.oy, v.oz].all f32Finite = true → v.pointBase % 65536 = 0 → v.siteBase % 65536 = 0 → (∀ m ∈ members, memberOk s u v m.2 = true) → (members.map (·.2)).eraseDups.length = members.length →
          Completes (.ergVolume d) s d 0 0 { markStarted s d with cfg.volumes := s.cfg.volumes.put u v }) ∧
        (v.keep = 0 ∨ 8 < v.keep ∨ v.blocksMax = 0 ∨ 1024 < v.blocksMax ∨ f32Pos v.rangeMax = false ∨ f32Finite v.cell = false ∨ ratOfV (decodeF fp32 v.cell) < ratOfV (decodeF fp32 0x3C23D70A) ∨ 10 < ratOfV (decodeF fp32 v.cell) ∨
          [v.ox, v.oy, v.oz].all f32Finite = false ∨ v.pointBase % 65536 ≠ 0 ∨ v.siteBase % 65536 ≠ 0 ∨ (∃ m ∈ members, memberOk s u v m.2 = false) ∨ (members.map (·.2)).eraseDups.length ≠ members.length → Refuses (.ergVolume d) s d stDescInvalid))) ∧
    (∀ u k, u = dfld d 53 0 1 → k = dfld d 52 0 6 → Accepted s d (infoErgKnn s d) →
      (dfld d 16 0 32 ≤ 65536 → dfld d 20 0 32 ≤ 16777216 → dfld d 24 0 4 = 0 → dfld d 40 0 3 = 0 → f32Lt 0 (dfld d 48 0 32) = true → 1 ≤ k → k ≤ 32 →
        exec (.ergKnn d) s = .next (startErg { markStarted s d with geo.ergJobs := s.geo.ergJobs ++ [(u, d, s.up)] } u)) ∧
      (65536 < dfld d 16 0 32 ∨ 16777216 < dfld d 20 0 32 ∨ dfld d 24 0 4 ≠ 0 ∨ dfld d 40 0 3 ≠ 0 ∨ f32Lt 0 (dfld d 48 0 32) = false ∨ k = 0 ∨ 32 < k → Refuses (.ergKnn d) s d stDescInvalid)) ∧
    (∀ u, u = dfld d 44 0 1 → Accepted s d (infoErgFps s d) →
      (dfld d 16 0 32 ≤ 65536 → dfld d 20 0 32 ≤ 16384 → dfld d 32 0 2 = 0 → exec (.ergFps d) s = .next (startErg { markStarted s d with geo.ergJobs := s.geo.ergJobs ++ [(u, d, s.up)] } u)) ∧
      (65536 < dfld d 16 0 32 ∨ 16384 < dfld d 20 0 32 ∨ dfld d 32 0 2 ≠ 0 → Refuses (.ergFps d) s d stDescInvalid)) ∧
    (∀ u mode k, u = dfld d 44 2 1 → mode = dfld d 44 0 2 → k = dfld d 45 0 8 → Accepted s d (infoErgRules s d) →
      ((mode = 0 ∧ (k = 1 ∨ k = 3 ∨ k = 5)) ∨ ((mode = 1 ∨ mode = 2) ∧ (k = 2 ∨ k = 3)) → dfld d 16 0 6 = 0 → dfld d 24 0 6 = 0 → dfld d 32 0 6 = 0 →
        exec (.ergRules d) s = .next (startErg { markStarted s d with geo.ergJobs := s.geo.ergJobs ++ [(u, d, s.up)] } u)) ∧
      (mode = 3 ∨ (mode = 0 ∧ k ≠ 1 ∧ k ≠ 3 ∧ k ≠ 5) ∨ (mode ≠ 0 ∧ k ≠ 2 ∧ k ≠ 3) ∨ dfld d 16 0 6 ≠ 0 ∨ dfld d 24 0 6 ≠ 0 ∨ dfld d 32 0 6 ≠ 0 → Refuses (.ergRules d) s d stDescInvalid)) ∧
    (∀ u, u = dfld d 35 0 1 → Accepted s d (infoErgBev s d) →
      (1 ≤ dfld d 32 0 16 → dfld d 32 0 16 ≤ 256 → dfld d 34 0 2 ≠ 3 → dfld d 34 2 2 ≠ 3 → dfld d 34 4 2 ≠ 3 → 1 ≤ dfld d 60 0 16 → dfld d 60 0 16 ≤ 2048 → 1 ≤ dfld d 62 0 16 → dfld d 62 0 16 ≤ 2048 →
        exec (.ergBev d) s = .next (startErg { markStarted s d with geo.ergJobs := s.geo.ergJobs ++ [(u, d, s.up)] } u)) ∧
      (dfld d 32 0 16 = 0 ∨ 256 < dfld d 32 0 16 ∨ dfld d 34 0 2 = 3 ∨ dfld d 34 2 2 = 3 ∨ dfld d 34 4 2 = 3 ∨ dfld d 60 0 16 = 0 ∨ 2048 < dfld d 60 0 16 ∨ dfld d 62 0 16 = 0 ∨ 2048 < dfld d 62 0 16 → Refuses (.ergBev d) s d stDescInvalid)) ∧
    (∀ u r, s.geo.ergRun.find u = some r → startErg s u = s) ∧
    (∀ u j, s.geo.ergRun.find u = none → s.geo.ergJobs.filter (fun j => j.1 == u) = [j] → epochWorkOn s u = [] →
      startErg s u = { s with geo.ergJobs := s.geo.ergJobs.erase j, geo.ergRun := s.geo.ergRun.put u (j.2.1, s.up) }) ∧
    (∀ u ecc, s.geo.ergRun.find u = none → exec (.ergOperationEnd u ecc) s = .next s) ∧
    (∀ u ecc start v, s.geo.ergRun.find u = some (d, start) →
      v = setErg { s with geo.ergRun := Tbl.drop s.geo.ergRun u } u { ergOf s u with opUs := min ((s.up - start) / 1000) 0xFFFF, lastEnd := s.up } →
      (ecc ≠ 0 → ∃ t, exec (.ergOperationEnd u ecc) s = .next (startErg (fwDone (finishDesc t d stInternal 0 0 0) d (152 + u)) u) ∧ t.geo = v.geo ∧ t.mem = s.mem ∧ t.hif = s.hif) ∧
      (ecc = 0 → ∃ st res det fl t, runErg v d (ergWho v d u) = .done st res det fl t ∧ exec (.ergOperationEnd u ecc) s = .next (startErg (fwDone (finishDesc t d st res det fl) d (152 + u)) u))) ∧
    (∀ u errs r, s.geo.ergRun.find u = some r → exec (.voxelBuild u errs) s = .next s) ∧
    (∀ u errs, s.epochs = [] → exec (.voxelBuild u errs) s = .next s) ∧
    (∀ u e t p v, s.geo.ergRun.find u = none → buildEpoch s u = some e → tableOf s e.cadence e.epoch = some t → poseTableOf s e.cadence e.epoch = some p → e.cfg.volumes.find u = some v →
      ∃ x, exec (.voxelBuild u 0) s = .next x ∧ (ergOf x u).lastVol = some v ∧ (ergOf x u).lastBuild = (if v.vox then some (e.cadence, e.epoch) else none) ∧
        (v.members = [] → v.vox = false → (ergOf x u).level = 0 ∧ (ergOf x u).store = [] ∧ x.mem = s.mem))

/-! ### Grids (R250 to R267) -/

/-- The grid's descriptors (R250, R251, R253, R265, R267): a configuration in range is stored whole, keeps the sources and the output area of the grid and answers the bytes of its area; sources, outputs and areas of an existing grid are set, and a source slot is cleared; a grid that no flow names is deleted with its areas, and one never configured answers OK. Values out of range and objects that do not exist answer DESC_INVALID, guarded grids and flows NOT_AUTHORISED.
The first step of an idle grid is FUSE's clearing of its epoch; steps 3 to 6 follow one after the other (R254); with no epoch to work on nothing happens. -/
def Obligations.GridCommands : Prop :=
  ∀ (s : State) (d : Desc) (g : Nat), g = dfld d 16 0 3 →
    (∀ x : GridCfg, x = { enable := dbit d 16 7, guarded := false, cadence := dfld d 17 0 5, format := dfld d 18 0 2, reefMax := dfld d 18 2 2, regionLog2 := dfld d 18 4 3, w := dfld d 20 0 12, h := dfld d 22 0 12, c := dfld d 24 0 9, bins := dfld d 26 0 5, cf := dfld d 27 0 8, cp := dfld d 28 0 7, ptFormat := dfld d 29 0 2, ptReduce := dfld d 29 2 2, ptUnit := dfld d 29 4 1, ptStride := dfld d 30 0 16, g0 := dfld d 32 0 32, x0 := dfld d 36 0 32, y0 := dfld d 40 0 32, z0 := dfld d 44 0 32, dz := dfld d 48 0 32, base := dfld d 56 0 48, did := d.did, sources := ((s.cfg.grids.find g).map (·.sources)).getD [], out := (s.cfg.grids.find g).bind (·.out) } →
      (gridOk s x = true ↔ x.format ≤ 2 ∧ 3 ≤ x.regionLog2 ∧ x.regionLog2 ≤ 6 ∧ x.reefMax + 1 ≤ x.regionLog2 ∧ (1 ≤ x.w ∧ x.w ≤ 2048) ∧ (1 ≤ x.h ∧ x.h ≤ 2048) ∧ (1 ≤ x.c ∧ x.c ≤ 256) ∧ (1 ≤ x.bins ∧ x.bins ≤ 16) ∧ x.cf ≤ 128 ∧ x.cp ≤ 64 ∧ x.ptFormat ≤ 2 ∧ x.ptReduce ≤ 2 ∧
        x.ptStride % 4 = 0 ∧ f32Le 0x3C23D70A x.g0 = true ∧ f32Le x.g0 0x42C80000 = true ∧ f32Lt 0 x.dz = true ∧ x.base % 65536 = 0 ∧ (x.cp ≠ 0 → ∃ v, s.cfg.volumes.find x.ptUnit = some v ∧ v.cadence = x.cadence)) ∧
      (Accepted s d (infoGridConfig s d) →
        (gridGuarded s g = true → Refuses (.gridConfig d) s d stNotAuth) ∧
        (gridGuarded s g = false → gridOk s x = false → Refuses (.gridConfig d) s d stDescInvalid) ∧
        (gridGuarded s g = false → gridOk s x = true →
          Completes (.gridConfig d) s d (areaEnd x - x.base) 0 { markStarted s d with cfg.grids := s.cfg.grids.put g x, geo.grids := if gridInUse s g then s.geo.grids else Tbl.drop s.geo.grids g }))) ∧
    (∀ k slot, ∀ y : GridSrc, k = dfld d 18 0 7 → slot = dfld d 17 0 5 →
      y = { stream := k, lift := dbit d 19 0, stride := dfld d 19 3 5, tolAbs := dfld d 20 0 32, tolRel := dfld d 24 0 32, fx := dfld d 28 0 32, fy := dfld d 32 0 32, cx := dfld d 36 0 32, cy := dfld d 40 0 32, k1 := dfld d 44 0 32, k2 := dfld d 48 0 32, wf := dfld d 52 0 12, hf := dfld d 54 0 12, base := dfld d 56 0 48 } →
      Accepted s d (infoGridSource s d) →
      (gridGuarded s g = true → Refuses (.gridSource d) s d stNotAuth) ∧
      (gridGuarded s g = false → s.cfg.grids.find g = none → Refuses (.gridSource d) s d stDescInvalid) ∧
      (∀ x, gridGuarded s g = false → s.cfg.grids.find g = some x →
        (dbit d 17 7 = false → Completes (.gridSource d) s d 0 0 { markStarted s d with cfg.grids := s.cfg.grids.put g { x with sources := Tbl.drop x.sources slot } }) ∧
        (∀ c, dbit d 17 7 = true → s.cfg.streams.find k = some c → c.mount ≠ none → y.lift = false ∨ (c.kind = kindCamera ∧ y.stride ≠ 0) → f32Le 0 y.tolAbs = true → f32Le 0 y.tolRel = true → y.base % 65536 = 0 →
          Completes (.gridSource d) s d 0 0 { markStarted s d with cfg.grids := s.cfg.grids.put g { x with sources := x.sources.put slot y } }) ∧
        (dbit d 17 7 = true → s.cfg.streams.find k = none ∨ (∃ c, s.cfg.streams.find k = some c ∧ (c.mount = none ∨ (y.lift = true ∧ (c.kind ≠ kindCamera ∨ y.stride = 0)))) ∨ f32Le 0 y.tolAbs = false ∨ f32Le 0 y.tolRel = false ∨ y.base % 65536 ≠ 0 →
          Refuses (.gridSource d) s d stDescInvalid))) ∧
    (∀ o : GridOut, o = { slots := dfld d 17 0 4, format := dfld d 18 0 2, first := dfld d 20 0 9, count := dfld d 22 0 9, fill := dfld d 24 0 32, base := dfld d 32 0 48, did := d.did } → Accepted s d (infoGridOutput s d) →
      (gridGuarded s g = true → Refuses (.gridOutput d) s d stNotAuth) ∧
      (gridGuarded s g = false → s.cfg.grids.find g = none → Refuses (.gridOutput d) s d stDescInvalid) ∧
      (∀ x, gridGuarded s g = false → s.cfg.grids.find g = some x →
        (2 ≤ o.slots → o.slots ≤ 8 → o.format ≤ 2 → o.first + o.count ≤ x.c → o.base % 65536 = 0 → Completes (.gridOutput d) s d (outSize x o) 0 { markStarted s d with cfg.grids := s.cfg.grids.put g { x with out := some o } }) ∧
        (o.slots < 2 ∨ 8 < o.slots ∨ 2 < o.format ∨ x.c < o.first + o.count ∨ o.base % 65536 ≠ 0 → Refuses (.gridOutput d) s d stDescInvalid))) ∧
    (∀ f k, ∀ a : Area, f = dfld d 16 0 12 → k = dfld d 18 0 3 → a = { grid := k, required := dbit d 18 7, col0 := dfld d 20 0 8, row0 := dfld d 22 0 8, col1 := dfld d 24 0 8, row1 := dfld d 26 0 8, unseenMax := dfld d 28 0 32 } → Accepted s d (infoGridArea s d) →
      (∀ x, s.cfg.flows.find f = some x → x.guarded = true → Refuses (.gridArea d) s d stNotAuth) ∧
      (∀ x, s.cfg.flows.find f = some x → x.guarded = false → s.cfg.grids.find k ≠ none → Completes (.gridArea d) s d 0 0 { markStarted s d with cfg.areas := s.cfg.areas.put (f * 8 + k) a }) ∧
      (∀ x, s.cfg.flows.find f = some x → x.guarded = false → s.cfg.grids.find k = none → Refuses (.gridArea d) s d stDescInvalid) ∧
      (s.cfg.flows.find f = none → Refuses (.gridArea d) s d stDescInvalid)) ∧
    (Accepted s d (infoGridDelete s d) →
      (gridGuarded s g = true → Refuses (.gridDelete d) s d stNotAuth) ∧
      (gridGuarded s g = false → s.cfg.flows.any (fun p => p.2.grid == some g) = true → Refuses (.gridDelete d) s d stDescInvalid) ∧
      (gridGuarded s g = false → s.cfg.flows.any (fun p => p.2.grid == some g) = false → s.cfg.grids.find g = none → Completes (.gridDelete d) s d 0 0 (markStarted s d)) ∧
      (gridGuarded s g = false → s.cfg.flows.any (fun p => p.2.grid == some g) = false → s.cfg.grids.find g ≠ none →
        ∃ t, Completes (.gridDelete d) s d 0 0 t ∧ t.cfg.grids = Tbl.drop s.cfg.grids g ∧ t.cfg.areas = s.cfg.areas.filter (fun p => p.1 % 8 ≠ g) ∧
          t.geo.grids = (if s.epochs.any (fun e => (e.cfg.grids.find g).isSome) then s.geo.grids else Tbl.drop s.geo.grids g) ∧
          { t with cfg.grids := s.cfg.grids, cfg.areas := s.cfg.areas, geo.grids := s.geo.grids } = markStarted s d)) ∧
    (∀ h, s.epochs = [] → exec (.fuseStepStart h) s = .next s) ∧
    (∀ h e x, (gridOf s h).running = none → gridEpoch s h = some e → e.cfg.grids.find h = some x →
      ∃ t, exec (.fuseStepStart h) s = .next t ∧ (gridOf t h).running = some (e.epoch, 1, if reefable x then min e.reef x.reefMax else 0)) ∧
    (∀ h n last k e x, (gridOf s h).running = some (n, last, k) → s.epochs.find? (fun e => e.epoch == n && (e.cfg.grids.find h).any (fun x => x.enable && x.cadence == e.cadence)) = some e → e.cfg.grids.find h = some x →
      3 ≤ last → last ≤ 5 → ∃ t, exec (.fuseStepStart h) s = .next t ∧ (gridOf t h).running = some (n, last + 1, k))

/-! ### Programs, tasks, instances (R282 to R294) -/

/-- Programs and tasks (R282, R283, R285, R286): an image that can be read and whose header, length and CRC are right is registered under a free handle, and refused under one in use; a read that fails gives its status. A program that no task names is freed with its resident copies; a task whose body is in range is queued with all its instances to place; a bound task of an existing flow is
registered for it, and unbound; a body that does not fit its program answers DESC_INVALID. Freeing a program or unbinding a task that does not exist answers OK (R70).
Bound tasks and instances (R273, R274, R287 to R290): a bound task that is ready in its oldest epoch gets a run with all its instances waiting; an instance whose threads have all ended leaves its engine, and its run records its status; with nothing ready, ended or waiting nothing happens. The placement of the only
waiting instance starts its threads at the program's entry on the chosen engine, with the registers of R273; no byte outside its new window changes. -/
def Obligations.ProgramsTasksInstances : Prop :=
  (∀ (s : State) (d : Desc),
    (∀ k va st h u, k = dfld d 16 0 10 → va = dfld d 24 0 64 → Accepted s d (infoEngProgLoad s d) → devRead (markStarted s d) (progWho d) va 128 = (st, h, u) →
      (st ≠ stOk → exec (.engProgLoad d) s = .next (finishDesc u d st 0 0 0)) ∧
      (st = stOk → progHeaderOk h = false → exec (.engProgLoad d) s = .next (finishDesc u d stDescInvalid 0 0 0)) ∧
      (∀ st2 c v, st = stOk → progHeaderOk h = true → devRead u (progWho d) (va + 128) (ofLe ((h.drop 4).take 4)) = (st2, c, v) →
        (st2 ≠ stOk → exec (.engProgLoad d) s = .next (finishDesc v d st2 0 0 0)) ∧
        (st2 = stOk → crc32c c ≠ ofLe ((h.drop 8).take 4) → exec (.engProgLoad d) s = .next (finishDesc v d stDescInvalid 0 0 0)) ∧
        (st2 = stOk → crc32c c = ofLe ((h.drop 8).take 4) → dGuarded d = false → s.eng.programs.find k = none → Completes (.engProgLoad d) s d 0 0 { v with eng.programs := v.eng.programs.put k (programOf d h c) }) ∧
        (st2 = stOk → crc32c c = ofLe ((h.drop 8).take 4) → dGuarded d = false → s.eng.programs.find k ≠ none → exec (.engProgLoad d) s = .next (finishDesc v d stDescInvalid 0 0 0)))) ∧
    (∀ k, k = dfld d 16 0 10 → Accepted s d (infoEngProgFree s d) →
      (s.eng.programs.find k = none → Completes (.engProgFree d) s d 0 0 (markStarted s d)) ∧
      (s.eng.programs.find k ≠ none → programNamed s k = true → Refuses (.engProgFree d) s d stDescInvalid) ∧
      (s.eng.programs.find k ≠ none → programNamed s k = false → ∃ t, Completes (.engProgFree d) s d 0 0 t ∧ t.eng.programs.find k = none ∧ (∀ g, (engineOf t g).resident = (engineOf s g).resident.filter (fun r => r.handle != k)) ∧
        { t with eng.programs := s.eng.programs, eng.engines := s.eng.engines } = markStarted s d)) ∧
    (Accepted s d (infoEngTask s d) →
      (taskOk s (taskBody d) = false → Refuses (.engTask d) s d stDescInvalid) ∧
      (taskOk s (taskBody d) = true → ∃ t r, exec (.engTask d) s = .next t ∧ t.eng.runs.find s.eng.nextRun = some r ∧ r.body = taskBody d ∧ r.did = d.did ∧ r.waiting = List.range (taskBody d).instances ∧ r.desc = some d ∧
        { t with eng.runs := s.eng.runs, eng.nextRun := s.eng.nextRun } = markStarted s d)) ∧
    (∀ b, b = taskBody d → Accepted s d (infoEngTaskBind s d) →
      (s.cfg.flows.find b.flow ≠ none → taskOk s b = true → b.stage ≠ 7 → s.cfg.tasks.find b.handle = none → Completes (.engTaskBind d) s d 0 0 { markStarted s d with cfg.tasks := s.cfg.tasks.put b.handle { body := b, did := d.did, guarded := dGuarded d } }) ∧
      (s.cfg.flows.find b.flow = none ∨ b.stage = 7 ∨ s.cfg.tasks.find b.handle ≠ none ∨ taskOk s b = false → Refuses (.engTaskBind d) s d stDescInvalid)) ∧
    (∀ h, h = dfld d 56 0 12 → Accepted s d (infoEngTaskUnbind s d) →
      (s.cfg.tasks.find h = none → Completes (.engTaskUnbind d) s d 0 0 (markStarted s d)) ∧
      (s.cfg.tasks.find h ≠ none → Completes (.engTaskUnbind d) s d 0 0 { markStarted s d with cfg.tasks := Tbl.drop s.cfg.tasks h }))) ∧
  (∀ (s : State),
    (∀ h, s.epochs = [] → exec (.boundTaskReady h) s = .next s) ∧
    (∀ h e b, s.epochs.find? (taskReady s h) = some e → e.cfg.tasks.find h = some b → ∃ t r, exec (.boundTaskReady h) s = .next t ∧ t.eng.runs.find s.eng.nextRun = some r ∧ r.body = b.body ∧ r.epoch = e.epoch ∧ r.bound = some h ∧
      r.waiting = List.range b.body.instances ∧ { t with eng.runs := s.eng.runs, eng.nextRun := s.eng.nextRun } = s) ∧
    (∀ id, s.eng.instances.find id = none → exec (.instanceEnd id) s = .next s) ∧
    (∀ id i r, s.eng.instances.find id = some i → i.active = true → i.threads = [] → i.kept = none → i.status = stOk → s.eng.runs.find i.run = some r → (∀ x st, (r.ended.put x st).length < r.body.instances) →
      ∃ t q, exec (.instanceEnd id) s = .next t ∧ t.eng.instances.find id = none ∧ t.eng.runs.find i.run = some q ∧ q.ended = r.ended.put i.index stOk ∧ q.running = r.running.erase id ∧ { t with eng := s.eng } = s) ∧
    (s.eng.runs = [] → exec .instancePlacement s = .next s) ∧
    (∀ rid r p x idx, s.eng.runs = [(rid, r)] → r.waiting = [idx] → s.eng.programs.find r.body.program = some p → r.bound = none → r.again = [] → chooseSpot s rid r p = some x → (engineOf s x.engine).resident.any (fun y => y.handle == r.body.program) = true →
      ∃ t i, exec .instancePlacement s = .next t ∧ t.eng.instances.find s.eng.nextInst = some i ∧ i.engine = x.engine ∧ i.window = x.window ∧ i.index = idx ∧ i.active = true ∧
        i.threads = ((freeThreads s x.engine).take r.body.threads).map (fun n => 64 * x.engine + n) ∧
        (∀ j n, i.threads[j]? = some n → (thread t n).st = .ready ∧ (thread t n).inst = some s.eng.nextInst ∧ (thread t n).pc = p.entries.getD r.body.entry 0 / 8 ∧ (thread t n).x = startRegs s r idx j x.window true) ∧
        (∀ k, (k < Space.key (.tile x.engine) x.window ∨ Space.key (.tile x.engine) x.window + r.body.window ≤ k) → Memory.read t.mem k = Memory.read s.mem k)))

/-! ### Engine instructions (R270 to R327) -/

/-- The scalar arithmetic (R301, R305, R327): x[d] takes the value the rule gives of x[a] and x[b] or the sign-extended imm, a divide by 0 gives all ones (a remainder: the dividend) and sets bit 1 of FLAGS, and only x[d], FLAGS and the pc of the thread change; an instruction with a field it does not use set halts its thread
with DESC_INVALID; a thread that may not issue stays as it is.
The moves and the special registers (R305, R306, R337): MOVI and MOVHI, MFS of each register of R306 and a halt on any other number, MTS of FLAGS (7 bits) and SEED (0 stores 1), RDTIME the time counter; NOP changes only the pc. -/
def Obligations.ScalarInstructions : Prop :=
  (∀ (s : State) (t : Nat) (e : Enc) (a b : W64), a = xa s t e → b = opB s t e →
    (Issues s t e (usesScalar e) →
      GivesX (.add t e) s t e.d (a + b) 0 ∧ GivesX (.sub t e) s t e.d (a - b) 0 ∧ GivesX (.and t e) s t e.d (a &&& b) 0 ∧ GivesX (.or t e) s t e.d (a ||| b) 0 ∧ GivesX (.xor t e) s t e.d (a ^^^ b) 0 ∧
      GivesX (.shl t e) s t e.d (a <<< (b.toNat % 64)) 0 ∧ GivesX (.shr t e) s t e.d (a >>> (b.toNat % 64)) 0 ∧ GivesX (.sar t e) s t e.d (a.sshiftRight (b.toNat % 64)) 0 ∧
      GivesX (.min t e) s t e.d (if a.slt b then a else b) 0 ∧ GivesX (.max t e) s t e.d (if a.slt b then b else a) 0 ∧ GivesX (.minu t e) s t e.d (if a.ult b then a else b) 0 ∧ GivesX (.maxu t e) s t e.d (if a.ult b then b else a) 0 ∧
      GivesX (.slt t e) s t e.d (if a.slt b then 1 else 0) 0 ∧ GivesX (.sltu t e) s t e.d (if a.ult b then 1 else 0) 0 ∧ GivesX (.seq t e) s t e.d (if a = b then 1 else 0) 0 ∧
      GivesX (.mul t e) s t e.d (a * b) 0 ∧ GivesX (.mulh t e) s t e.d ((a.signExtend 128 * b.signExtend 128).extractLsb' 64 64) 0 ∧ GivesX (.mulhu t e) s t e.d ((a.zeroExtend 128 * b.zeroExtend 128).extractLsb' 64 64) 0 ∧
      (b ≠ 0 → GivesX (.div t e) s t e.d (a.sdiv b) 0 ∧ GivesX (.divu t e) s t e.d (a / b) 0 ∧ GivesX (.rem t e) s t e.d (a.srem b) 0 ∧ GivesX (.remu t e) s t e.d (a % b) 0) ∧
      (b = 0 → GivesX (.div t e) s t e.d (-1) 2 ∧ GivesX (.divu t e) s t e.d (-1) 2 ∧ GivesX (.rem t e) s t e.d a 2 ∧ GivesX (.remu t e) s t e.d a 2)) ∧
    (mayIssue s t = true → encOk (usesScalar e) e = false → exec (.add t e) s = .next (haltThread s t stDescInvalid)) ∧
    (mayIssue s t = false → exec (.add t e) s = .next s ∧ exec (.mma t e) s = .next s ∧ exec (.endThread t e) s = .next s)) ∧
  (∀ (s : State) (t : Nat) (e : Enc) (k : Nat), k = bitsOf e.imm.toNat 0 8 →
    (Issues s t e {} → exec (.engNop t e) s = .next (setThread s t (stepped s t))) ∧
    (Issues s t e { d := true, imm := immAll } → GivesX (.movi t e) s t e.d (e.imm.signExtend 64) 0 ∧ GivesX (.movhi t e) s t e.d (e.imm ++ ((thread s t).xr e.d.toNat).truncate 32) 0) ∧
    (Issues s t e { d := true } → GivesX (.rdtime t e) s t e.d (BitVec.ofNat 64 s.now) 0) ∧
    (Issues s t e { d := true, imm := 0xFF } →
      (k = 0 → GivesX (.mfs t e) s t e.d (BitVec.ofNat 64 (thread s t).flags) 0) ∧ (k = 1 → GivesX (.mfs t e) s t e.d (BitVec.ofNat 64 ((thread s t).issued + (thread s t).done * 65536)) 0) ∧
      (k = 2 → GivesX (.mfs t e) s t e.d (BitVec.ofNat 64 t) 0) ∧ (k = 4 → GivesX (.mfs t e) s t e.d (BitVec.ofNat 64 ((engClock s - (thread s t).start) / 1000)) 0) ∧ (k = 3 → GivesX (.mfs t e) s t e.d ((thread s t).seed.zeroExtend 64) 0) ∧
      (k = 5 → GivesX (.mfs t e) s t e.d (BitVec.ofNat 64 ((if (threadWho s t).guarded then 3 else 0) + (threadWho s t).did * 16)) 0) ∧ (6 ≤ k → exec (.mfs t e) s = .next (haltThread s t stDescInvalid))) ∧
    (Issues s t e { a := true, imm := 0xFF } →
      (k = 0 → exec (.mts t e) s = .next (setThread s t { stepped s t with flags := (xa s t e).toNat % 128 })) ∧
      (k = 3 → exec (.mts t e) s = .next (setThread s t { stepped s t with seed := if (xa s t e).truncate 32 = (0 : W32) then 1 else (xa s t e).truncate 32 })) ∧
      (k ≠ 0 → k ≠ 3 → exec (.mts t e) s = .next (haltThread s t stDescInvalid))))

/-- Tile SRAM accesses (R307, R308, R313): a load in the window gives the little-endian element, sign-extended where m bit 0 asks; a store, an atomic add and a compare-and-swap write exactly the element's bytes, and the atomics give the old word; the vector forms move 256 bytes; a misaligned address halts with
DESC_INVALID, one outside the window with FIREWALL_DENIED, and one that meets an uncorrectable error with INTERNAL after its report (R278). -/
def Obligations.TileAccesses : Prop :=
  ∀ (s : State) (t : Nat) (e : Enc) (a n w : Nat), a = (xa s t e + e.imm.signExtend 64).toNat → n = 2 ^ e.f.toNat → w = ofLe (tileRead s t a n) →
    (Issues s t e { d := true, a := true, f := true, m := 1, imm := immAll } → e.f.toNat ≤ 3 →
      (tileCheck s t a n n false = stOk → GivesX (.ldt t e) s t e.d (if e.m.getLsbD 0 then BitVec.ofInt 64 (signed (8 * n) w) else BitVec.ofNat 64 w) 0) ∧
      (a % n ≠ 0 → exec (.ldt t e) s = .next (haltThread s t stDescInvalid)) ∧ (a % n = 0 → tileOk s t a n false = false → exec (.ldt t e) s = .next (haltThread s t stFirewall)) ∧
      (a % n = 0 → tileOk s t a n false = true → badIn s (Space.key (.tile (engineNo t)) a) n = true → exec (.ldt t e) s = .next (haltThread (ueReport s (threadWho s t)) t stInternal))) ∧
    (Issues s t e { a := true, b := true, f := true, imm := immAll } → e.f.toNat ≤ 3 →
      (tileCheck s t a n n true = stOk → ∃ u, exec (.stt t e) s = .next u ∧ TileWritten s u t a (leBytes n (xb s t e).toNat) ∧ thread u t = stepped s t ∧ (∀ q, q ≠ t → thread u q = thread s q) ∧ { u with mem := s.mem, eng := s.eng } = s)) ∧
    (Issues s t e { d := true, a := true, b := true, f := true, imm := immAll } → e.f.toNat = 2 ∨ e.f.toNat = 3 → tileCheck s t a n n true = stOk → badIn s (Space.key (.tile (engineNo t)) a) n = false →
      (∃ u, exec (.atadd t e) s = .next u ∧ TileWritten s u t a (leBytes n (w + (xb s t e).toNat)) ∧ thread u t = (stepped s t).setX e.d.toNat (BitVec.ofNat 64 w) ∧ { u with mem := s.mem, eng := s.eng } = s) ∧
      (w = (xd s t e).toNat % 2 ^ (8 * n) → ∃ u, exec (.atcas t e) s = .next u ∧ TileWritten s u t a (leBytes n (xb s t e).toNat) ∧ thread u t = (stepped s t).setX e.d.toNat (BitVec.ofNat 64 w)) ∧
      (w ≠ (xd s t e).toNat % 2 ^ (8 * n) → GivesX (.atcas t e) s t e.d (BitVec.ofNat 64 w) 0)) ∧
    (Issues s t e { d := true, a := true, imm := immAll, vd := true } → tileCheck s t a 256 64 false = stOk → GivesV (.vldt t e) s t e.d (BitVec.ofNat 2048 (ofLe (tileRead s t a 256))) 0) ∧
    (Issues s t e { d := false, a := true, b := true, m := 1, imm := immAll, vb := true } → e.m.getLsbD 0 = false → tileCheck s t a 256 64 true = stOk →
      ∃ u, exec (.vstt t e) s = .next u ∧ TileWritten s u t a (leBytes 256 ((thread s t).vr e.b.toNat).toNat) ∧ thread u t = stepped s t) ∧
    (∀ j x, Issues s t e { d := true, a := true, b := true, imm := 0x3F, vd := true, vb := true } → maskOf s t e = 2 ^ j → j < 64 → x = ((xa s t e).toNat + elemAt .fp32 ((thread s t).vr e.b.toNat) j) % 2 ^ 64 →
      (tileCheck s t x 4 4 false = stOk → ∃ v, GivesV (.vgath t e) s t e.d v 0 ∧ ∀ q, q < 64 → elemAt .fp32 v q = if q = j then ofLe (tileRead s t x 4) else elemAt .fp32 ((thread s t).vr e.d.toNat) q) ∧
      (tileCheck s t x 4 4 true = stOk → ∃ u, exec (.vscat t e) s = .next u ∧ TileWritten s u t x (leBytes 4 (elemAt .fp32 ((thread s t).vr e.d.toNat) j)) ∧ thread u t = stepped s t))

/-- The lane-by-lane vector instructions (R309, R310): each enabled element takes the value the rule gives for its lane type, a disabled one keeps its value, and only v[d], FLAGS and the pc change; an unsupported lane type halts with FORMAT_UNSUPPORTED. INT32 elements work modulo 2^32. VRCP, VRSQRT, VEXP2 and VLOG2
are stated at the infinities and at 0: on other operands the model's value is free (log entry 10). -/
def Obligations.VectorLanes : Prop :=
  ∀ (s : State) (t : Nat) (e : Enc),
    (Issues s t e (usesVec e true) →
      (e.f = 10 → Lanes (.vadd t e) s t e .int32 (fun a b _ r => r = (a + b) % 2 ^ 32) ∧ Lanes (.vsub t e) s t e .int32 (fun a b _ r => (r + b) % 2 ^ 32 = a) ∧ Lanes (.vmul t e) s t e .int32 (fun a b _ r => r = a * b % 2 ^ 32) ∧
        Lanes (.vmin t e) s t e .int32 (fun a b _ r => signed 32 r = min (signed 32 a) (signed 32 b)) ∧ Lanes (.vmax t e) s t e .int32 (fun a b _ r => signed 32 r = max (signed 32 a) (signed 32 b)) ∧
        Lanes (.vand t e) s t e .int32 (fun a b _ r => r = a &&& b) ∧ Lanes (.vor t e) s t e .int32 (fun a b _ r => r = a ||| b) ∧ Lanes (.vxor t e) s t e .int32 (fun a b _ r => r = a ^^^ b) ∧
        Lanes (.vshl t e) s t e .int32 (fun a b _ r => r = a * 2 ^ (b % 32) % 2 ^ 32) ∧ Lanes (.vshr t e) s t e .int32 (fun a b _ r => r = a / 2 ^ (b % 32)) ∧ Lanes (.vsar t e) s t e .int32 (fun a b _ r => signed 32 r = signed 32 a / 2 ^ (b % 32)) ∧
        exec (.vfma t e) s = .next (haltThread s t stFormat) ∧ exec (.vdiv t e) s = .next (haltThread s t stFormat)) ∧
      (∀ l, (e.f = 0 ∧ l = .fp32) ∨ (e.f = 9 ∧ l = .fp64) →
        Lanes (.vadd t e) s t e l (fun a b _ r => r = (addV l.fmt (decodeF l.fmt a) (decodeF l.fmt b)).1 % 2 ^ l.bits) ∧ Lanes (.vmul t e) s t e l (fun a b _ r => r = (mulV l.fmt (decodeF l.fmt a) (decodeF l.fmt b)).1 % 2 ^ l.bits) ∧
        Lanes (.vfma t e) s t e l (fun a b d r => r = (fmaV l.fmt (decodeF l.fmt a) (decodeF l.fmt b) (decodeF l.fmt d)).1 % 2 ^ l.bits) ∧ Lanes (.vdiv t e) s t e l (fun a b _ r => r = (divV l.fmt (decodeF l.fmt a) (decodeF l.fmt b)).1 % 2 ^ l.bits)) ∧
      (laneOf e.f.toNat = none → exec (.vadd t e) s = .next (haltThread s t stFormat))) ∧
    (Issues s t e (usesVec e false) →
      (e.f = 10 → Lanes (.vabs t e) s t e .int32 (fun a _ _ r => r = if a < 2 ^ 31 then a else 2 ^ 32 - a) ∧ Lanes (.vneg t e) s t e .int32 (fun a _ _ r => (r + a) % 2 ^ 32 = 0)) ∧
      (e.f = 0 → Lanes (.vabs t e) s t e .fp32 (fun a _ _ r => r = a % 2 ^ 31) ∧ Lanes (.vneg t e) s t e .fp32 (fun a _ _ r => r = if a < 2 ^ 31 then a + 2 ^ 31 else a - 2 ^ 31) ∧
        Lanes (.vsqrt t e) s t e .fp32 (fun a _ _ r => r = (sqrtV fp32 (decodeF fp32 a)).1 % 2 ^ 32) ∧
        Lanes (.vrcp t e) s t e .fp32 (fun a _ _ r => (a = 0x7F800000 → r = 0) ∧ (a = 0xFF800000 → r = 0x80000000) ∧ (a = 0 → r = 0x7F800000) ∧ (a = 0x80000000 → r = 0xFF800000)) ∧
        Lanes (.vrsqrt t e) s t e .fp32 (fun a _ _ r => (a = 0x7F800000 → r = 0) ∧ (a = 0 → r = 0x7F800000) ∧ (a = 0xFF800000 → r = 0x7FC00000)) ∧
        Lanes (.vexp2 t e) s t e .fp32 (fun a _ _ r => (a = 0x7F800000 → r = 0x7F800000) ∧ (a = 0xFF800000 → r = 0)) ∧
        Lanes (.vlog2 t e) s t e .fp32 (fun a _ _ r => (a = 0x7F800000 → r = 0x7F800000) ∧ (a = 0 → r = 0xFF800000) ∧ (a = 0xFF800000 → r = 0x7FC00000))))

/-- The vector moves, comparisons and reductions on INT32 lanes (R310, R312), the conversions (R311) and the matrix unit (R314 to R317): VCMP gives the bits of the elements whose condition holds, VSEL and VPERM choose elements, VBCAST, VEXT and VINS move one, VREDADD sums modulo 2^32 with disabled elements as 0; VCVT of FP32 to INT32 rounds
and saturates, VCVTN packs INT32 into bytes with saturation and VCVTW widens them; an INT8 MMA of one row and column stores the saturated exact sum. -/
def Obligations.VectorMoves : Prop :=
  ∀ (s : State) (t : Nat) (e : Enc),
    (Issues s t e { usesVec e true with vd := false, m := 15 } → e.f = 10 → e.m = 2 → ∃ r, GivesX (.vcmp t e) s t e.d r 0 ∧
      ∀ j, j < 64 → (r.toNat.testBit j = true ↔ (maskOf s t e).testBit j = true ∧ signed 32 (elemAt .int32 ((thread s t).vr e.a.toNat) j) < signed 32 ((vecB s t .int32 e).getD j 0))) ∧
    (Issues s t e { d := true, a := true, b := true, f := true, imm := 0x1F, vd := true, va := true, vb := true } → e.f = 10 → ∃ w, GivesV (.vsel t e) s t e.d w 0 ∧
      ∀ j, j < 64 → elemAt .int32 w j = if ((thread s t).xr (bitsOf e.imm.toNat 0 5)).toNat.testBit j then elemAt .int32 ((thread s t).vr e.a.toNat) j else elemAt .int32 ((thread s t).vr e.b.toNat) j) ∧
    (Issues s t e (usesVec e true) → e.f = 10 → Lanes (.vperm t e) s t e .int32 (fun _ b _ r => r = elemAt .int32 ((thread s t).vr e.a.toNat) (b % 64))) ∧
    (Issues s t e { d := true, a := !e.i, i := true, f := true, imm := if e.i then immAll else 0x3F, vd := true } → e.f = 10 → ∃ w, GivesV (.vbcast t e) s t e.d w 0 ∧
      ∀ j, j < 64 → elemAt .int32 w j = if (maskOf s t e).testBit j then (if e.i then e.imm.toNat else (xa s t e).toNat % 2 ^ 32) else elemAt .int32 ((thread s t).vr e.d.toNat) j) ∧
    (Issues s t e { d := true, a := true, f := true, imm := 0x3F, va := true } → e.f = 10 → GivesX (.vext t e) s t e.d (BitVec.ofNat 64 (elemAt .int32 ((thread s t).vr e.a.toNat) (bitsOf e.imm.toNat 0 6))) 0) ∧
    (Issues s t e { d := true, a := true, f := true, imm := 0x3F, vd := true } → e.f = 10 → ∃ w, GivesV (.vins t e) s t e.d w 0 ∧
      ∀ j, j < 64 → elemAt .int32 w j = if j = bitsOf e.imm.toNat 0 6 then (xa s t e).toNat % 2 ^ 32 else elemAt .int32 ((thread s t).vr e.d.toNat) j) ∧
    (Issues s t e { d := true, a := true, f := true, imm := 0x3F, va := true } → e.f = 10 →
      GivesX (.vredadd t e) s t e.d (BitVec.ofNat 64 (((List.range 64).map (fun j => if (maskOf s t e).testBit j then elemAt .int32 ((thread s t).vr e.a.toNat) j else 0)).sum % 2 ^ 32)) 0 ∧
      (maskOf s t e % 2 ^ 64 = 0 → GivesX (.vredmax t e) s t e.d 0x80000000 0)) ∧
    (Issues s t e { d := true, a := true, f := true, m := 1, imm := 0x70F, vd := true, va := true } → e.f = 7 → e.m = 0 → bitsOf e.imm.toNat 0 4 = 10 → bitsOf e.imm.toNat 8 3 < 4 → ∃ w fl, GivesV (.vcvtn t e) s t e.d w fl ∧
      ∀ j, j < 64 → signed 8 (bitsOf w.toNat (512 * bitsOf e.imm.toNat 8 3 + 8 * j) 8) = max (-128) (min 127 (signed 32 (elemAt .int32 ((thread s t).vr e.a.toNat) j)))) ∧
    (Issues s t e { d := true, a := true, f := true, imm := 0x700, vd := true, va := true } → e.f = 7 → bitsOf e.imm.toNat 8 3 < 4 → ∃ w, GivesV (.vcvtw t e) s t e.d w 0 ∧
      ∀ j, j < 64 → signed 32 (elemAt .int32 w j) = signed 8 (bitsOf ((thread s t).vr e.a.toNat).toNat (512 * bitsOf e.imm.toNat 8 3 + 8 * j) 8)) ∧
    (Issues s t e { d := true, a := true, f := true, imm := 0xF, vd := true, va := true } → e.f = 10 → bitsOf e.imm.toNat 0 4 = 0 → ∃ w fl, GivesV (.vcvt t e) s t e.d w fl ∧
      ∀ j, j < 64 → elemAt .int32 w j = (convI 32 (decodeF fp32 (elemAt .fp32 ((thread s t).vr e.a.toNat) j))).1 % 2 ^ 32) ∧
    (∀ p m, Issues s t e { d := true, a := true, b := true, f := true, m := 3, imm := 0xFFFFFF } → e.d.toNat ≤ 30 → e.a.toNat ≤ 30 → e.b.toNat ≤ 30 → e.m = 0 → e.f = 7 → e.imm = 0x700000 → p = Pair.int 8 8 →
      m = ({ k := 32, rows := 1, cols := 1, acc := false, sparse := false, aBase := (xa s t e).toNat, aStride := ((thread s t).xr (e.a.toNat + 1)).toNat, bBase := (xb s t e).toNat, bStride := ((thread s t).xr (e.b.toNat + 1)).toNat, meta_ := ((thread s t).xr (e.b.toNat + 2)).toNat, cBase := (xd s t e).toNat, cStride := ((thread s t).xr (e.d.toNat + 1)).toNat } : MmaArgs) →
      (mmaShapeOk p false m = true → mmaPlaceOk s t p false m = true → mmaBad s t p false m = false → ∃ u r, exec (.mma t e) s = .next u ∧ TileWritten s u t m.cBase (leBytes 4 r) ∧
        signed 32 r = ((List.range 32).map (fun k => signed 8 (aElem s t p m 0 k) * signed 8 (bElem s t p m k 0))).sum) ∧
      (mmaShapeOk p false m = false → exec (.mma t e) s = .next (haltThread s t stDescInvalid)) ∧
      (mmaShapeOk p false m = true → mmaPlaceOk s t p false m = false → exec (.mma t e) s = .next (haltThread s t stFirewall)))

/-- Loads and stores that leave the window (R279, R318, R319): a load in range puts its thread into WAIT MEM with the access it waits for, a store is posted with its bytes and its engine's next number where fewer than sixteen are, and waits for the oldest of sixteen; a core memory page of another owner halts the thread; an access across 4 KiB halts it with DESC_INVALID. -/
def Obligations.LoadsAndStores : Prop :=
  ∀ (s : State) (t : Nat) (e : Enc) (a n : Nat),
    (Issues s t e usesLoad → e.f.toNat ≤ 3 → n = 2 ^ e.f.toNat → a = (xa s t e + e.imm.signExtend 64).toNat →
      (a % 4096 + n ≤ 4096 → exec (.ldg t e) s = .next (setThread s t { stepped s t with st := .wait .mem, waiting := .load { place := .device, addr := a, size := n, vector := false, signExt := e.m.getLsbD 0, d := e.d.toNat } })) ∧
      (a % 4096 + n ≤ 4096 → coreOk s (coreOfEngine (engineNo t)) a n (threadWho s t).did (threadWho s t).guarded false = true →
        exec (.ldc t e) s = .next (setThread s t { stepped s t with st := .wait .mem, waiting := .load { place := .core, addr := a, size := n, vector := false, signExt := e.m.getLsbD 0, d := e.d.toNat } })) ∧
      (a % 4096 + n ≤ 4096 → coreOk s (coreOfEngine (engineNo t)) a n (threadWho s t).did (threadWho s t).guarded false = false → exec (.ldc t e) s = .next (haltThread s t stFirewall)) ∧
      (4096 < a % 4096 + n → exec (.ldg t e) s = .next (haltThread s t stDescInvalid) ∧ exec (.ldc t e) s = .next (haltThread s t stDescInvalid))) ∧
    (Issues s t e usesLoadV → n = bitsOf e.imm.toNat 0 9 → a = (xa s t e).toNat → n ≠ 0 → n ≤ 256 → a % 4096 + n ≤ 4096 →
      exec (.ldgv t e) s = .next (setThread s t { stepped s t with st := .wait .mem, waiting := .load { place := .device, addr := a, size := n, vector := true, signExt := false, d := e.d.toNat } }) ∧
      (coreOk s (coreOfEngine (engineNo t)) a n (threadWho s t).did (threadWho s t).guarded false = true →
        exec (.ldcv t e) s = .next (setThread s t { stepped s t with st := .wait .mem, waiting := .load { place := .core, addr := a, size := n, vector := true, signExt := false, d := e.d.toNat } }))) ∧
    (∀ w i, w = threadWho s t → (thread s t).inst = some i → heldStores (thread s t) = 0 → (thread s t).posted.length = 16 → Issues s t e usesStore → e.f.toNat ≤ 3 → n = 2 ^ e.f.toNat → a = (xa s t e + e.imm.signExtend 64).toNat → a % 4096 + n ≤ 4096 →
      exec (.stg t e) s = .next (setThread s t { stepped s t with st := .wait .mem, waiting := .storeSlot { place := .device, addr := a, bytes := leBytes n (xb s t e).toNat, inst := i, did := w.did, guarded := w.guarded, flows := w.flows, no := 0 } })) ∧
    (∀ w i, w = threadWho s t → (thread s t).inst = some i → w.guarded = false → (thread s t).held = [] → (thread s t).posted.length < 16 →
      (Issues s t e usesStore → e.f.toNat ≤ 3 → n = 2 ^ e.f.toNat → a = (xa s t e + e.imm.signExtend 64).toNat → a % 4096 + n ≤ 4096 →
        exec (.stg t e) s = .next (setEngine (setThread s t { stepped s t with posted := (thread s t).posted ++ [{ place := .device, addr := a, bytes := leBytes n (xb s t e).toNat, inst := i, did := w.did, guarded := false, flows := w.flows, no := (engineOf s (engineNo t)).stores }] }) (engineNo t) { engineOf s (engineNo t) with stores := (engineOf s (engineNo t)).stores + 1 }) ∧
        (coreOk s (coreOfEngine (engineNo t)) a n w.did false true = true →
          exec (.stc t e) s = .next (setEngine (setThread s t { stepped s t with posted := (thread s t).posted ++ [{ place := .core, addr := a, bytes := leBytes n (xb s t e).toNat, inst := i, did := w.did, guarded := false, flows := w.flows, no := (engineOf s (engineNo t)).stores }] }) (engineNo t) { engineOf s (engineNo t) with stores := (engineOf s (engineNo t)).stores + 1 }))) ∧
      (Issues s t e usesStoreV → n = bitsOf e.imm.toNat 0 9 → a = (xa s t e).toNat → n ≠ 0 → n ≤ 256 → a % 4096 + n ≤ 4096 →
        exec (.stgv t e) s = .next (setEngine (setThread s t { stepped s t with posted := (thread s t).posted ++ [{ place := .device, addr := a, bytes := leBytes n ((thread s t).vr e.b.toNat).toNat, inst := i, did := w.did, guarded := false, flows := w.flows, no := (engineOf s (engineNo t)).stores }] }) (engineNo t) { engineOf s (engineNo t) with stores := (engineOf s (engineNo t)).stores + 1 }) ∧
        (coreOk s (coreOfEngine (engineNo t)) a n w.did false true = true →
          exec (.stcv t e) s = .next (setEngine (setThread s t { stepped s t with posted := (thread s t).posted ++ [{ place := .core, addr := a, bytes := leBytes n ((thread s t).vr e.b.toNat).toNat, inst := i, did := w.did, guarded := false, flows := w.flows, no := (engineOf s (engineNo t)).stores }] }) (engineNo t) { engineOf s (engineNo t) with stores := (engineOf s (engineNo t)).stores + 1 }))))

/-- Copies and fences (R280, R281, R320, R325): a COPY that the copy unit has room for takes the next number, joins the queue and gives its number in x[d], and bytes outside its destination keep their value; without room the thread waits; WAITC passes a copy that is done and waits for one that is not; a FENCE whose conditions hold passes.
The events of the engines (R273, R279 to R281, R291, R292, R296, R298, R299): the block of the next instruction arrives; a load from core memory writes its register and wakes the thread; the oldest posted store to core memory writes exactly its bytes; the oldest copy of a thread ends; a store waits for an older one of its engine to the same line (R42); a verdict of RESIDUE that
passes counts, and one that fails halts the instance with CHECK_MISMATCH; the queue's answer goes to x[d]; the record of a completed call is written to the window and its slot frees. -/
def Obligations.CopiesAndEngineEvents : Prop :=
  (∀ (s : State) (t : Nat) (e : Enc),
    (∀ r : Nat → Nat, (∀ k, r k = ((thread s t).xr (e.a.toNat + k)).toNat) → Issues s t e { d := true, a := true, imm := 0xF3FFF } → e.a.toNat ≤ 28 → bitsOf (r 3) 0 17 ≤ 65535 → bitsOf (r 3) 17 17 ≤ 65535 → bitsOf e.imm.toNat 18 2 = 0 ∨ (threadWho s t).guarded = false →
      (copyRoom s t = true → ∃ u c, exec (.copy t e) s = .next u ∧ (engineOf u (engineNo t)).copies = (engineOf s (engineNo t)).copies ++ [c] ∧ c.src = r 0 ∧ c.dst = r 1 ∧ c.rowBytes = bitsOf (r 3) 0 17 + 1 ∧ c.rows = bitsOf (r 3) 17 17 + 1 ∧ c.srcSpace = bitsOf e.imm.toNat 16 2 ∧ c.dstSpace = bitsOf e.imm.toNat 18 2 ∧ c.srcStride = signed 32 (r 2) ∧ c.dstStride = signed 32 (r 2 / 2 ^ 32) ∧ c.knot = (if e.imm.getLsbD 13 then some (bitsOf e.imm.toNat 0 13) else none) ∧
        c.no = ((thread s t).issued + 1) % 65536 ∧ thread u t = { stepped s t with issued := c.no }.setX e.d.toNat (BitVec.ofNat 64 c.no) ∧ (∀ k, k ∉ sideKeys s c true → Memory.read u.mem k = Memory.read s.mem k)) ∧
      (copyRoom s t = false → ∃ u c, exec (.copy t e) s = .next u ∧ thread u t = { stepped s t with st := .wait .copy, waiting := .copySlot c e.d.toNat } ∧ c.src = r 0 ∧ u.mem = s.mem)) ∧
    (Issues s t e { a := true, imm := 0xF3FFF, d := true } → 28 < e.a.toNat → exec (.copy t e) s = .next (haltThread s t stDescInvalid)) ∧
    (∀ k, Issues s t e { a := !e.i, i := true, imm := if e.i then 0xFFFF else 0 } → k = (if e.i then bitsOf e.imm.toNat 0 16 else (xa s t e).toNat % 65536) →
      (((thread s t).done + 65536 - k) % 65536 < 32768 → exec (.waitc t e) s = .next (setThread s t { stepped s t with st := .ready, waiting := .none })) ∧
      (32768 ≤ ((thread s t).done + 65536 - k) % 65536 → exec (.waitc t e) s = .next (setThread s t { stepped s t with st := .wait .copy, waiting := .copyDone k }))) ∧
    (∀ m, Issues s t e { imm := 7 } → m = bitsOf e.imm.toNat 0 3 →
      (fencePassed (thread s t) m = true → exec (.fence t e) s = .next (setThread s t (stepped s t))) ∧
      (m = 1 → (thread s t).posted ≠ [] → exec (.fence t e) s = .next (setThread s t { stepped s t with st := .wait .mem, waiting := .fence 1 })))) ∧
  (∀ (s : State) (t g : Nat), g = engineNo t →
    (∀ ecc, (thread s t).st ≠ .ready ∨ (thread s t).fetched = some ((thread s t).pc / 8) → exec (.fetchArrival t ecc) s = .next s) ∧
    (∀ ecc, (thread s t).st = .ready → (thread s t).fetched ≠ some ((thread s t).pc / 8) → codeRange s t = none → exec (.fetchArrival t ecc) s = .next (haltThread s t stDescInvalid)) ∧
    (∀ base len, (thread s t).st = .ready → (thread s t).fetched ≠ some ((thread s t).pc / 8) → codeRange s t = some (base, len) →
      (8 * (thread s t).pc < len → exec (.fetchArrival t 2) s = .next (haltThread (ueReport s (threadWho s t)) t stInternal)) ∧
      (8 * (thread s t).pc < len → badIn s (Space.key (.tile g) (base + (thread s t).pc / 8 * 64)) 64 = false →
        exec (.fetchArrival t 0) s = .next (setThread s t { thread s t with fetched := some ((thread s t).pc / 8) }) ∧
        (∃ u, exec (.fetchArrival t 1) s = .next u ∧ (engineOf u g).corrected = min ((engineOf s g).corrected + 1) 65535 ∧ (thread u t).fetched = some ((thread s t).pc / 8))) ∧
      (len ≤ 8 * (thread s t).pc → exec (.fetchArrival t 0) s = .next (haltThread s t stDescInvalid))) ∧
    (∀ l k, (thread s t).waiting = .load l → (thread s t).posted = [] → (thread s t).held = [] → l.place = .core → k = Space.key (.core (coreOfEngine g)) l.addr → badIn s k l.size = false →
      (l.vector = false → exec (.loadReturn t 0) s = .next (setThread s t ({ thread s t with st := .ready, waiting := .none }.setX l.d (if l.signExt then BitVec.ofInt 64 (signed (8 * l.size) (ofLe (Memory.reads s.mem k l.size))) else BitVec.ofNat 64 (ofLe (Memory.reads s.mem k l.size)))))) ∧
      (l.vector = true → exec (.loadReturn t 0) s = .next (setThread s t ({ thread s t with st := .ready, waiting := .none }.setV l.d (vecOfBytes (Memory.reads s.mem k l.size)))))) ∧
    (∀ l ecc, (thread s t).waiting = .load l → (thread s t).posted = [] → (thread s t).held = [] → l.place = .core → ecc = 2 ∨ badIn s (Space.key (.core (coreOfEngine g)) l.addr) l.size = true → exec (.loadReturn t ecc) s = .next (haltThread (ueReport s (threadWho s t)) t stInternal)) ∧
    (∀ l st bs u, (thread s t).waiting = .load l → (thread s t).posted = [] → (thread s t).held = [] → l.place = .device → devRead s (threadWho s t) l.addr l.size = (st, bs, u) → st ≠ tileUe →
      (st = stOk → l.vector = false → exec (.loadReturn t 0) s = .next (setThread u t ({ thread u t with st := .ready, waiting := .none }.setX l.d (if l.signExt then BitVec.ofInt 64 (signed (8 * l.size) (ofLe bs)) else BitVec.ofNat 64 (ofLe bs))))) ∧
      (st = stOk → l.vector = true → exec (.loadReturn t 0) s = .next (setThread u t ({ thread u t with st := .ready, waiting := .none }.setV l.d (vecOfBytes bs)))) ∧
      (st ≠ stOk → exec (.loadReturn t 0) s = .next (haltThread u t st))) ∧
    (∀ st rest, (thread s t).posted = st :: rest → st.place = .core → olderStore s t st = false → (thread s t).signals = [] → (thread s t).waiting = .none →
      ∃ u, exec (.postedStoreDone t) s = .next u ∧ u.mem = Memory.writes s.mem (Space.key (.core (coreOfEngine g)) st.addr) st.bytes ∧ thread u t = { thread s t with posted := rest }) ∧
    ((thread s t).posted = [] → exec (.postedStoreDone t) s = .next s) ∧
    (∀ st rest, (thread s t).posted = st :: rest → olderStore s t st = true → exec (.postedStoreDone t) s = .next s) ∧
    (∀ c u, (engineOf s g).copies = [c] → c.thread = t → c.ahead = 0 → (thread s t).inst = some c.inst → c.no = ((thread s t).done + 1) % 65536 → c.knot = none → runCopy s c = (stOk, u) → (∀ q, thread u q = thread s q) → (engineOf u g).copies = [c] → (∀ i, i < 64 → (thread s (g * 64 + i)).waiting = .none) →
      ∃ z, exec (.copyDone t) s = .next z ∧ (thread z t).done = c.no ∧ (engineOf z g).copies = [] ∧ z.mem = u.mem) ∧
    ((threadWho s t).guarded = true → (thread s t).inst ≠ none → (thread s t).passNo < (thread s t).issueNo →
      ((thread s t).held = [] → exec (.residueVerdict t true) s = .next (setThread s t { thread s t with passNo := (thread s t).passNo + 1 })) ∧
      (∃ u, exec (.residueVerdict t false) s = .next u ∧ (engineOf u g).mismatches = min ((engineOf s g).mismatches + 1) 65535)) ∧
    (∀ q c, (thread s t).waiting = .queue q → q.answer = some c → q.pop = false → exec (.queueAnswer t) s = .next (setThread s t ({ thread s t with st := .ready, waiting := .none }.setX q.d (BitVec.ofNat 64 c)))) ∧
    (∀ q, (thread s t).waiting = .queue q → q.answer = some 0 → q.pop = true → exec (.queueAnswer t) s = .next (setThread s t (({ thread s t with st := .ready, waiting := .none }.setX q.d 0).setV q.reg (vecOfBytes q.data)))) ∧
    (∀ slot c done, (thread s t).calls = [c] → c.slot = slot → c.done = some done → (thread s t).waiting = .none → dSignalEn ⟨.call t slot, (threadWho s t).did, c.raw⟩ = false →
      ∃ u, exec (.callCompletion t slot) s = .next u ∧ (thread u t).calls = [] ∧ TileWritten s u t c.recOff (callRecord s t ⟨.call t slot, (threadWho s t).did, c.raw⟩ done)))

/-- Knots, queues and calls of threads (R98, R296 to R299, R322 to R324): SIGK of a knot that accepts it adds or sets its value and no other knot's, and is held while a remote write of the thread is unacknowledged; WAITK waits with the comparison of R92 on the present value; RDK gives the value; a poisoned knot halts; QPUSH and QPOP wait with the queue's answer, an entry that fits or is there goes in or out at once, and a full queue that
refuses or an empty one answers so; CALL of a descriptor in the window takes the lowest free slot. -/
def Obligations.ThreadSignalsAndCalls : Prop :=
  ∀ (s : State) (t : Nat) (e : Enc) (k : Nat), k = bitsOf (xa s t e).toNat 0 13 →
    (∀ v, v = (opB s t e).toNat → Issues s t e (usesKnot e 3) → e.m.getLsbD 1 = false → (threadWho s t).guarded = false → (thread s t).held = [] → (thread s t).posted = [] → signalCheck s (threadWho s t).did false k = stOk → (knotOf s k).st ≠ .poisoned → s.knots.cycle = none → writesOpen s (threadSrc t) none = false → s.oct.held.any (fun x => x.src == threadSrc t) = false →
      (e.m.getLsbD 0 = false → v ≠ 0 → v < 2 ^ 31 → ∃ u, exec (.sigk t e) s = .next u ∧ knotOf u k = { knotOf s k with value := (knotOf s k).value + BitVec.ofNat 32 v } ∧ (∀ q, q ≠ k → knotOf u q = knotOf s q) ∧ (thread u t).pc = (thread s t).pc + 1 ∧ u.mem = s.mem) ∧
      (e.m.getLsbD 0 = true → ∃ u, exec (.sigk t e) s = .next u ∧ knotOf u k = { knotOf s k with value := BitVec.ofNat 32 v } ∧ (∀ q, q ≠ k → knotOf u q = knotOf s q) ∧ u.mem = s.mem) ∧
      (e.m.getLsbD 0 = false → v = 0 → exec (.sigk t e) s = .next (haltThread s t stDescInvalid))) ∧
    (∀ v, v = (opB s t e).toNat → Issues s t e (usesKnot e 3) → e.m = 0 → (threadWho s t).guarded = false → (thread s t).held = [] → (thread s t).posted = [] → writesOpen s (threadSrc t) none = true → v ≠ 0 → v < 2 ^ 31 →
      ∃ u x, exec (.sigk t e) s = .next u ∧ u.oct.held = s.oct.held ++ [x] ∧ x.src = threadSrc t ∧ x.sig.knot = k ∧ x.sig.value = BitVec.ofNat 32 v ∧ u.knots = s.knots) ∧
    (∀ v, v = (if e.i then e.imm else (xb s t e).truncate 32) → Issues s t e (usesKnot e 2) → e.m.getLsbD 1 = false →
      ((knotOf s k).st ≠ .poisoned → ∃ u, exec (.waitk t e) s = .next u ∧ thread u t = { stepped s t with st := .wait .knot, waiting := .knot } ∧ u.eng.waits.find t = some { knot := k, value := v, satisfied := decide (((knotOf s k).value - v).toNat < 2 ^ 31) } ∧ { u with eng := s.eng } = s) ∧
      ((knotOf s k).st = .poisoned → exec (.waitk t e) s = .next (haltThread s t stInternal))) ∧
    (Issues s t e { d := true, a := true, m := 2 } → e.m.getLsbD 1 = false → (knotOf s k).st ≠ .poisoned → GivesX (.rdk t e) s t e.d ((knotOf s k).value.zeroExtend 64) 0) ∧
    (∀ q x w, q = (xa s t e).toNat % 2 ^ 17 → x = queueOf s q → w = threadWho s t → x.usable w.did = true → x.pointersOk = true → x.blocked = [] → w.guarded = false → (thread s t).held = [] → Issues s t e { d := true, a := true, b := true, vb := true } →
      (2 ^ x.entriesLog2 ≤ x.count → x.refuse = true → ∃ u, exec (.qpush t e) s = .next u ∧ thread u t = { stepped s t with st := .wait .queue, waiting := .queue { pop := false, queue := q, d := e.d.toNat, reg := e.b.toNat, answer := some 0x101, data := [] } } ∧ queueOf u q = x) ∧
      (∀ u, x.count < 2 ^ x.entriesLog2 → x.dataKnot = none → devWrite (setThread s t { stepped s t with st := .wait .queue, waiting := .queue { pop := false, queue := q, d := e.d.toNat, reg := e.b.toNat, answer := none, data := [] } }) (queueWho x q) (x.base + x.tail.toNat % 2 ^ x.entriesLog2 * 2 ^ x.widthLog2) ((leBytes 256 ((thread s t).vr e.b.toNat).toNat).take (2 ^ x.widthLog2)) = (stOk, u) →
        ∃ z, exec (.qpush t e) s = .next z ∧ queueOf z q = { x with tail := x.tail + 1, tailInv := ~~~(x.tail + 1) } ∧ z.mem = u.mem ∧ ((thread u t).waiting = .queue { pop := false, queue := q, d := e.d.toNat, reg := e.b.toNat, answer := none, data := [] } →
          (thread z t).waiting = .queue { pop := false, queue := q, d := e.d.toNat, reg := e.b.toNat, answer := some 0, data := [] })) ∧
      (2 ^ x.entriesLog2 ≤ x.count → x.refuse = false → ∃ u, exec (.qpush t e) s = .next u ∧ (thread u t).st = .wait .queue ∧ (queueOf u q).blocked = [{ thread := t, did := w.did, bytes := leBytes 256 ((thread s t).vr e.b.toNat).toNat }] ∧ u.mem = s.mem) ∧
      (x.count = 0 → ∃ u, exec (.qpop t e) s = .next u ∧ (thread u t).waiting = .queue { pop := true, queue := q, d := e.d.toNat, reg := e.b.toNat, answer := some 0x100, data := [] } ∧ queueOf u q = x ∧ u.mem = s.mem) ∧
      (∀ u bs, x.count ≠ 0 → x.spaceKnot = none → devRead (setThread s t { stepped s t with st := .wait .queue, waiting := .queue { pop := true, queue := q, d := e.d.toNat, reg := e.b.toNat, answer := none, data := [] } }) (queueWho x q) (x.base + x.head.toNat % 2 ^ x.entriesLog2 * 2 ^ x.widthLog2) (2 ^ x.widthLog2) = (stOk, bs, u) →
        ∃ z, exec (.qpop t e) s = .next z ∧ queueOf z q = { x with head := x.head + 1, headInv := ~~~(x.head + 1) } ∧ z.mem = u.mem)) ∧
    (∀ i desc rcd, Issues s t e { d := true, a := true, b := true } → instOf s t = some i → desc = (xa s t e).toNat → rcd = (xb s t e).toNat → (threadWho s t).guarded = false → (thread s t).held = [] →
      (desc % 256 = 0 → rcd % 32 = 0 → desc + 64 ≤ i.windowBytes → rcd + 32 ≤ i.windowBytes → (thread s t).calls = [] → badIn s (Space.key (.tile (engineNo t)) (i.window + desc)) 64 = false →
        ∃ u c, exec (.call t e) s = .next u ∧ (thread u t).st = .ready ∧ (thread u t).xr e.d.toNat = 0 ∧ (thread u t).calls = [c] ∧ c.slot = 0 ∧ c.recOff = i.window + rcd ∧ c.raw = BitVec.ofNat 512 (ofLe (tileRead s t (i.window + desc) 64)) ∧ u.mem = s.mem) ∧
      (desc % 256 ≠ 0 → exec (.call t e) s = .next (haltThread s t stDescInvalid)))

/-- Control flow (R326, R327): a branch whose condition holds goes to its own index plus imm, else to the next instruction; JAL gives 8 times the index of the next instruction; JR goes to a multiple of 8; a target outside the resident code halts; TRAPF halts with NUMERIC where a selected FLAGS bit is set; END frees the thread. -/
def Obligations.ControlFlow : Prop :=
  (∀ (s : State) (t : Nat) (e : Enc) (base len p : Nat) (a b : W64), codeRange s t = some (base, len) → (p : Int) = (thread s t).pc + e.imm.toInt → a = xa s t e → b = xb s t e →
    (Issues s t e { a := true, b := true, imm := immAll } → 8 * p < len →
      Goes (.beq t e) s t (if a = b then p else (thread s t).pc + 1) id ∧ Goes (.bne t e) s t (if a = b then (thread s t).pc + 1 else p) id ∧ Goes (.blt t e) s t (if a.slt b then p else (thread s t).pc + 1) id ∧
      Goes (.bge t e) s t (if a.slt b then (thread s t).pc + 1 else p) id ∧ Goes (.bltu t e) s t (if a.ult b then p else (thread s t).pc + 1) id ∧ Goes (.bgeu t e) s t (if a.ult b then (thread s t).pc + 1 else p) id) ∧
    (Issues s t e { a := true, b := true, imm := immAll } → len ≤ 8 * p → (a = b → exec (.beq t e) s = .next (haltThread s t stDescInvalid)) ∧ (a ≠ b → Goes (.beq t e) s t ((thread s t).pc + 1) id)) ∧
    (Issues s t e { imm := immAll } → (8 * p < len → Goes (.jmp t e) s t p id) ∧ (len ≤ 8 * p → exec (.jmp t e) s = .next (haltThread s t stDescInvalid))) ∧
    (Issues s t e { d := true, imm := immAll } → len ≤ 8 * p → exec (.jal t e) s = .next (haltThread s t stDescInvalid)) ∧
    (Issues s t e { d := true, imm := immAll } → 8 * p < len → Goes (.jal t e) s t p (fun x => x.setX e.d.toNat (BitVec.ofNat 64 (8 * ((thread s t).pc + 1))))) ∧
    (Issues s t e { a := true } → (a.toNat % 8 = 0 → a.toNat < len → Goes (.jr t e) s t (a.toNat / 8) id) ∧ (a.toNat % 8 ≠ 0 ∨ len ≤ a.toNat → exec (.jr t e) s = .next (haltThread s t stDescInvalid))) ∧
    (Issues s t e { imm := 0x7F } → ((thread s t).flags &&& bitsOf e.imm.toNat 0 7 = 0 → exec (.trapf t e) s = .next (setThread s t (stepped s t))) ∧ ((thread s t).flags &&& bitsOf e.imm.toNat 0 7 ≠ 0 → exec (.trapf t e) s = .next (haltThread s t stNumeric))) ∧
    (Issues s t e {} → (threadWho s t).guarded = false → (thread s t).held = [] → exec (.endThread t e) s = .next (setThread s t { stepped s t with st := .free, inst := none, waiting := .none }))) ∧
  (∀ (s : State) (t : Nat) (e : Enc), codeRange s t = none ∨ ((thread s t).pc : Int) + e.imm.toInt < 0 → Issues s t e { imm := immAll } → exec (.jmp t e) s = .next (haltThread s t stDescInvalid))

/-! ### Layout engines (R346 to R366) -/

/-- The layout engines (R346, R347, R353, R359, R366, R489): an operation whose control byte is in range starts on the idle engine it names, or on the lowest one that is free, and otherwise waits; one that names an engine out of service completes with UNIT_ISOLATED; a rounding or gather count out of range answers DESC_INVALID; the end
of an operation makes its effect visible, frees its engine and counts it; an idle engine ends nothing. -/
def Obligations.LayoutOperations : Prop :=
  ∀ (s : State) (d : Desc) (j : Job) (n i : Nat) (rest : List Nat), j = { desc := d, on_ := if n < 4 then some n else none, start := s.up, first := 0, count := 0, pend := none } → s.lyt.waiting = [] →
    (∀ c o, (c = .lytCopy d ∧ o = infoLytCopy s d ∧ n = dfld d 51 0 3) ∨ (c = .lytFill d ∧ o = infoLytFill s d ∧ n = dfld d 51 0 3) ∨ (c = .lytGather d ∧ o = infoLytGather s d ∧ n = dfld d 45 0 3 ∧ dfld d 40 0 24 ≠ 0 ∧ dfld d 44 4 2 = 0) ∨
        (c = .lytScatter d ∧ o = infoLytScatter s d ∧ n = dfld d 45 0 3 ∧ dfld d 40 0 24 ≠ 0 ∧ dfld d 44 4 2 ≤ 1) → Accepted s d o →
      (4 < n → Refuses c s d stDescInvalid) ∧ (n < 4 → inService (markStarted s d) (layoutUnit n) = false → Refuses c s d stIsolated) ∧
      (n ≤ 4 → (n < 4 → inService (markStarted s d) (layoutUnit n) = true) →
        (lytFree (markStarted s d) j = i :: rest → ∃ t, exec c s = .next t ∧ (lytOf t i).job = some j ∧ t.lyt.waiting = [] ∧ (∀ k, k ≠ i → lytOf t k = lytOf s k) ∧ t.mem = s.mem ∧ t.hif.com = s.hif.com) ∧
        (lytFree (markStarted s d) j = [] → exec c s = .next { markStarted s d with lyt.waiting := [j] }))) ∧
    (Accepted s d (infoLytGather s d) → dfld d 40 0 24 = 0 ∨ dfld d 44 4 2 ≠ 0 → Refuses (.lytGather d) s d stDescInvalid) ∧
    (Accepted s d (infoLytScatter s d) → dfld d 40 0 24 = 0 ∨ 2 ≤ dfld d 44 4 2 → Refuses (.lytScatter d) s d stDescInvalid) ∧
    (∀ f k, (lytOf s i).job = none → exec (.layoutOperationEnd i f k) s = .next s) ∧
    (∀ q r, (lytOf s i).job = some q → r = lytOutcome s q.desc (lytWho s q.desc i) (lytOf s i).descs none → r.s.lyt.waiting = [] →
      ∃ t, exec (.layoutOperationEnd i 0 0) s = .next t ∧ (lytOf t i).job = none ∧ (lytOf t i).lastStatus = r.st ∧ (lytOf t i).ops = satAdd 32 (lytOf s i).ops 1 ∧ t.mem = r.s.mem)

/-! ### Sequences and attention (R368 to R389) -/

/-- Pools, sequences and bias tables (R369, R372 to R375, R380, R384): a pool that no sequence uses is set; a sequence over a free range and an own pool is created empty, and its number in use refuses it; INFO gives first and count; DESTROY and TRIM that no attend holds take effect and answer the pages returned, and wait behind one; a bias table is
loaded whole; another DID's sequence answers FIREWALL_DENIED; DESTROY of a sequence that does not exist answers OK, the others DESC_INVALID. -/
def Obligations.SequenceManagement : Prop :=
  ∀ (s : State) (d : Desc) (k : Nat),
    (∀ p n, p = dfld d 16 0 4 → n = dfld d 32 0 22 → Accepted s d (infoSeqPool s d) →
      (s.seq.seqs.any (fun q => q.2.active && q.2.pool == p) = true ∨ (dbit d 17 0 = true ∧ (n = 0 ∨ 3670016 < n ∨ dfld d 24 0 48 % 65536 ≠ 0)) → Refuses (.seqPool d) s d stDescInvalid) ∧
      (s.seq.seqs.any (fun q => q.2.active && q.2.pool == p) = false → dbit d 17 0 = false ∨ (1 ≤ n ∧ n ≤ 3670016 ∧ dfld d 24 0 48 % 65536 = 0) →
        Completes (.seqPool d) s d (if dbit d 17 0 then n else 0) 0 (setPool (markStarted s d) p { enable := dbit d 17 0, owner := d.did, guarded := false, base := dfld d 24 0 48, pages := n, taken := [], lost := [] }))) ∧
    (∀ q, k = dfld d 16 0 14 → Accepted s d (infoSeqCreate s d) →
      q = ({ active := true, failed := false, guarded := false, ownerDid := d.did, pool := dfld d 18 0 4, policy := dfld d 18 4 2, layers := dfld d 19 0 6 + 1, heads := dfld d 20 0 4 + 1, width := 32 * (dfld d 21 0 3 + 1), format := dfld d 22 0 2, flow := dfld d 24 0 12, reservedPages := dfld d 28 0 17, stallUs := if dfld d 32 0 32 = 0 then 1000 else dfld d 32 0 32, base := dfld d 40 0 48, first := 0, count := 0, firstPage := 0, held := [], pending := none, appended := [], waiting := [], slides := 0, exhausted := 0, discarded := 0 } : Seq) →
      ((seqOf s k).isSome = true ∨ (poolOf s q.pool).enable = false ∨ (poolOf s q.pool).owner ≠ d.did ∨ (poolOf s q.pool).guarded = true ∨ q.policy = 3 ∨ q.rpp = 0 ∨ q.reservedPages = 0 ∨ 65536 < q.reservedPages * q.rpp ∨ 1000000 < q.stallUs ∨ q.base % 65536 ≠ 0 ∨ 2 ^ 48 < q.base + q.reservedPages * 65536 ∨
        (s.cfg.flows.find q.flow).any (fun f => !f.guarded) = false ∨ seqRangeUsed (markStarted s d) d.did (q.base / 65536) q.reservedPages = true → Refuses (.seqCreate d) s d stDescInvalid) ∧
      ((seqOf s k).isSome = false → (poolOf s q.pool).enable = true → (poolOf s q.pool).owner = d.did → (poolOf s q.pool).guarded = false → q.policy ≠ 3 → q.rpp ≠ 0 → q.reservedPages ≠ 0 → q.reservedPages * q.rpp ≤ 65536 → q.stallUs ≤ 1000000 → q.base % 65536 = 0 → q.base + q.reservedPages * 65536 ≤ 2 ^ 48 →
        (s.cfg.flows.find q.flow).any (fun f => !f.guarded) = true → seqRangeUsed (markStarted s d) d.did (q.base / 65536) q.reservedPages = false → Completes (.seqCreate d) s d q.rpp q.rowBytes (setSeq (markStarted s d) k q))) ∧
    (∀ q, k = dfld d 16 0 14 → seqOf s k = some q →
      (Accepted s d (infoSeqInfo s d) → (seqAccess d q = stOk → Completes (.seqInfo d) s d q.first q.count (markStarted s d)) ∧ (q.ownerDid ≠ d.did → 1 < d.did → Refuses (.seqInfo d) s d stFirewall)) ∧
      (Accepted s d (infoSeqDestroy s d) → dOpcode d = 0x0C02 → q.ownerDid = d.did ∨ d.did ≤ 1 →
        (attendReads s k 0 (2 ^ 64) = false → exec (.seqDestroy d) s = .next (together (markStarted s d) fun u => finishDesc (destroySeq u k q) d stOk q.held.length 0 0)) ∧
        (attendReads s k 0 (2 ^ 64) = true → exec (.seqDestroy d) s = .next { markStarted s d with seq.blocked := s.seq.blocked ++ [d] })) ∧
      (q.waiting = [] → ∀ t, t = destroySeq s k q → t.seq.seqs = Tbl.drop s.seq.seqs k ∧ t.mem = s.mem ∧ (∀ i ∈ (poolOf t q.pool).taken, i ∉ q.held)) ∧
      (∀ n, Accepted s d (infoSeqTrim s d) → dOpcode d ≠ 0x0C02 → seqAccess d q = stOk → n = trimCount q (dfld d 24 0 64) →
        (attendReads s k (q.firstPage * q.rpp) ((q.firstPage + n) * q.rpp) = true → exec (.seqTrim d) s = .next { markStarted s d with seq.blocked := s.seq.blocked ++ [d] }) ∧
        (attendReads s k (q.firstPage * q.rpp) ((q.firstPage + n) * q.rpp) = false →
          ∃ t r, Completes (.seqTrim d) s d n 0 t ∧ t.seq.seqs.find k = some r ∧ r.held = q.held.drop n ∧ r.firstPage = q.firstPage + n ∧ (n ≠ 0 → (q.firstPage + n) * q.rpp ≤ q.first + q.count → q.first ≤ (q.firstPage + n) * q.rpp → r.first = (q.firstPage + n) * q.rpp ∧ r.first + r.count = q.first + q.count)))) ∧
    (seqOf s (dfld d 16 0 14) = none →
      (Accepted s d (infoSeqInfo s d) → Refuses (.seqInfo d) s d stDescInvalid) ∧
      (Accepted s d (infoSeqTrim s d) → dOpcode d ≠ 0x0C02 → Refuses (.seqTrim d) s d stDescInvalid) ∧
      (Accepted s d (infoSeqDestroy s d) → dOpcode d = 0x0C02 → Completes (.seqDestroy d) s d 0 0 (markStarted s d))) ∧
    (∀ h, h = dfld d 17 0 8 → Accepted s d (infoSeqBias s d) →
      ((s.cfg.biases.find (dfld d 16 0 6)).any (·.guarded) = true → Refuses (.seqBias d) s d stNotAuth) ∧
      ((s.cfg.biases.find (dfld d 16 0 6)).any (·.guarded) = false → h = 0 ∨ 64 < h ∨ dfld d 20 0 32 = 0 ∨ 10 ^ 9 < dfld d 20 0 32 → Refuses (.seqBias d) s d stDescInvalid) ∧
      (∀ st bs u, (s.cfg.biases.find (dfld d 16 0 6)).any (·.guarded) = false → 1 ≤ h → h ≤ 64 → 1 ≤ dfld d 20 0 32 → dfld d 20 0 32 ≤ 10 ^ 9 → devRead (markStarted s d) { did := d.did, guarded := false, kind := 4, index := 0x0C00, flows := [] } (dfld d 24 0 64) (128 * h) = (st, bs, u) →
        (st ≠ stOk → exec (.seqBias d) s = .next (finishDesc u d st 0 0 0)) ∧
        (st = stOk → Completes (.seqBias d) s d 0 0 { u with seq.badBias := u.seq.badBias.filter (· ≠ dfld d 16 0 6), cfg.biases := u.cfg.biases.put (dfld d 16 0 6) { heads := h, baseUs := dfld d 20 0 32, values := (List.range (32 * h)).map (fun i => ofLe ((bs.drop (4 * i)).take 4)), guarded := false } })))

/-- Growth and attention (R376 to R378, R381 to R387): an APPEND in a held page opens the next position, writes its time word and completes with the row's address; one repeated in its epoch answers DESC_INVALID; an APPEND that waits goes on when it can, and after stall_us ends with PAGE_EXHAUSTED; an ATTEND in range starts on a free pipeline;
its end completes it and frees the pipeline. With nothing waiting or running nothing happens. -/
def Obligations.SequenceWork : Prop :=
  ∀ (s : State) (d : Desc) (k : Nat) (q : Seq), k = dfld d 16 0 14 →
    (∀ c n p u, seqOf s k = some q → callFlow s d = some (c, n, q.flow) → seqAccess d q = stOk → Accepted s d (infoSeqAppend s d) → q.waiting = [] → p = q.first + q.count →
      (q.appended.contains n = true → Refuses (.seqAppend d) s d stDescInvalid) ∧
      (q.appended.contains n = false → q.pending = none → q.held ≠ [] → p / q.rpp < q.firstPage + q.held.length → dbit d 18 0 = false → dfld d 24 0 64 ≠ 0 → devWrite (markStarted s d) (seqWho q k) (q.timeWord p) (leBytes 8 (dfld d 24 0 64)) = (stOk, u) →
        Completes (.seqAppend d) s d (q.row p) (p % 2 ^ 32) (setSeq u k { q with pending := some n, appended := (n :: q.appended).take 4 }))) ∧
    (∀ c n f, seqOf s k = some q → callFlow s d = some (c, n, f) → f ≠ q.flow → seqAccess d q = stOk → Accepted s d (infoSeqAppend s d) → Refuses (.seqAppend d) s d stNotAuth) ∧
    (∀ p, s.seq.seqs = [] → exec (.seqStallAppendResume p) s = .next s ∧ exec (.seqStallTimeout p) s = .next s) ∧
    (∀ a t, s.seq.seqs = [(k, q)] → q.active = true → q.waiting = [a] → tryAppend s k { q with waiting := [] } a = .done t → exec (.seqStallAppendResume q.pool) s = .next t) ∧
    (∀ a v, s.seq.seqs = [(k, q)] → q.active = true → q.waiting = [a] → a.since = some v → s.up = v + q.stallUs * 1000 → resumable s k q = false → exec (.seqStallTimeout k) s = .next (exhaust s k { q with waiting := [] } a.desc)) ∧
    (∀ j i rest a, seqOf s k = some q → seqAccess d q = stOk → s.seq.waiting = [] → j = ({ desc := d, on_ := none, start := s.up, first := 0, count := 0, pend := none } : Job) → a = attOf (markStarted s d) d → Accepted s d (infoSeqAttend s d) →
      (q.layers ≤ a.layer ∨ a.hq = 0 ∨ 64 < a.hq ∨ a.hq % q.heads ≠ 0 ∨ a.qF = 3 ∨ dfld d 24 0 13 = 0 ∨ 4096 < dfld d 24 0 13 ∨ f32Finite a.scale = false ∨ dfld d 40 0 6 ≠ 0 ∨ dfld d 48 0 6 ≠ 0 ∨ dfld d 56 0 6 ≠ 0 ∨ (workGuarded d = true ∧ q.guarded = false) → Refuses (.seqAttend d) s d stDescInvalid) ∧
      (a.layer < q.layers → 1 ≤ a.hq → a.hq ≤ 64 → a.hq % q.heads = 0 → a.qF ≠ 3 → namedCore d (dfld d 19 4 3) = none → 1 ≤ dfld d 24 0 13 → dfld d 24 0 13 ≤ 4096 → f32Finite a.scale = true → dbit d 22 7 = false → dfld d 40 0 6 = 0 → dfld d 48 0 6 = 0 → dfld d 56 0 6 = 0 → workGuarded d = false → pipesFree (markStarted s d) j = [] → exec (.seqAttend d) s = .next { markStarted s d with seq.waiting := [j] }) ∧
      (a.layer < q.layers → 1 ≤ a.hq → a.hq ≤ 64 → a.hq % q.heads = 0 → a.qF ≠ 3 → namedCore d (dfld d 19 4 3) = none → 1 ≤ dfld d 24 0 13 → dfld d 24 0 13 ≤ 4096 → f32Finite a.scale = true → dbit d 22 7 = false → dfld d 40 0 6 = 0 → dfld d 48 0 6 = 0 → dfld d 56 0 6 = 0 → workGuarded d = false → pipesFree (markStarted s d) j = i :: rest →
        ∃ t x, exec (.seqAttend d) s = .next t ∧ (pipeOf t i).job = some x ∧ x.desc = d ∧ x.first = q.first ∧ x.count = q.count ∧ t.seq.waiting = [] ∧ t.mem = s.mem)) ∧
    (∀ c f n, (pipeOf s c).job = none → exec (.seqAttendEnd c f n) s = .next s) ∧
    (∀ c j r, (pipeOf s c).job = some j → r = runAttend s j c (dfld j.desc 24 0 13) → r.s.seq.waiting = [] → r.s.seq.blocked = [] →
      ∃ t, exec (.seqAttendEnd c 0 0) s = .next t ∧ (pipeOf t c).job = none ∧ (pipeOf t c).lastStatus = (if r.st ≠ stOk then r.st else if r.numeric then stNumeric else stOk) ∧ t.mem = r.s.mem)

/-! ### Solver units (R390 to R413) -/

/-- The solver units (R391, R396, R398, R407, R410, R413): a SOLVE in range waits for a unit; guarded work without a deadline and a length out of range answer DESC_INVALID; the start takes the first waiting solve to the lowest free unit; the outcome of a running solve frees its unit and counts it; the time reaching its deadline ends it with
DEADLINE_MISS. With nothing waiting or running nothing happens. -/
def Obligations.Solves : Prop :=
  ∀ (s : State) (d : Desc) (c : Nat),
    (Accepted s d (infoSlvSolve s d) →
      (namedCore d (dfld d 17 0 3) = none → dfld d 18 0 7 ≤ 64 → dfld d 22 0 7 ≤ 64 → dfld d 26 0 11 ≤ 1024 → dfld d 32 0 20 ≤ 1000000 → dfld d 40 0 6 = 0 → dfld d 48 0 6 = 0 → dbit d 16 5 = false ∨ dfld d 56 0 6 = 0 → dbit d 16 4 = false ∨ callFlow (markStarted s d) d ≠ none → workGuarded d = false ∨ dfld d 32 0 20 ≠ 0 ∨ dbit d 16 4 = true →
        exec (.slvSolve d) s = .next { markStarted s d with slv.waiting := s.slv.waiting ++ [{ desc := d, on_ := none, start := s.up, first := 0, count := 0, pend := none }] }) ∧
      (64 < dfld d 18 0 7 ∨ 64 < dfld d 22 0 7 ∨ 1024 < dfld d 26 0 11 ∨ 1000000 < dfld d 32 0 20 ∨ dfld d 40 0 6 ≠ 0 ∨ dfld d 48 0 6 ≠ 0 ∨ (dbit d 16 5 = true ∧ dfld d 56 0 6 ≠ 0) ∨ (dbit d 16 4 = true ∧ callFlow (markStarted s d) d = none) ∨ (workGuarded d = true ∧ dfld d 32 0 20 = 0 ∧ dbit d 16 4 = false) → Refuses (.slvSolve d) s d stDescInvalid)) ∧
    (s.slv.waiting = [] → exec .solveStart s = .next s) ∧
    (∀ j rest, s.slv.waiting = [j] → solversFree s j = c :: rest → ∃ t, exec .solveStart s = .next t ∧ t.slv.waiting = [] ∧ ((solverOf t c).job = none ∨ ∃ r, (solverOf t c).run = some r ∧ r.start = s.now) ∧ (∀ i, i ≠ c → (solverOf t i).job = (solverOf s i).job ∧ ((solverOf s i).run = none → solverOf t i = solverOf s i))) ∧
    ((solverOf s c).run = none → exec (.solveOutcome c 0 0) s = .next s ∧ exec (.solveDeadline c 0) s = .next s) ∧
    (∀ j r, (solverOf s c).job = some j → (solverOf s c).run = some r →
      (∃ t, exec (.solveOutcome c 0 0) s = .next t ∧ (solverOf t c).job = none ∧ (solverOf t c).run = none ∧ (solverOf t c).solves = satAdd 32 (solverOf s c).solves 1 ∧ (∀ i, i ≠ c → solverOf t i = solverOf s i)) ∧
      (∀ v, r.deadline = some v → ∃ t, exec (.solveDeadline c 0) s = .next t ∧ v ≤ t.now ∧ (solverOf t c).job = none ∧ (solverOf t c).run = none ∧ (solverOf t c).lastStatus = stDeadlineMiss ∧ (solverOf t c).misses = satAdd 8 (solverOf s c).misses 1))

/-! ### The safety island (R440 to R469) -/

/-- The intake, the doubts and the FATALs (R445, R446, R459 to R461): a report enters the intake queue, ahead of those of its own FAB cycle that rank below it, while a place is left for its severity; the island takes the oldest report, writes its record under the next sequence number, puts a DOUBT on its guarded flow's epoch and latches the flow where the last doubt is younger than
recovery_ms, and a FATAL is held with its cause and drops both energise requests. -/
def Obligations.ErrorHandling : Prop :=
  ∀ (s : State) (r : Report) (rest : List Report),
    (∀ sev kind index ev st, s.safe.intakeUp = true →
      (s.safe.intake.length < 56 → sev < 4 → ∃ t x, exec (.errorReportRaise sev kind index ev st false [] 0 0 0 none) s = .next t ∧ t.safe.intake = queueReport x s.safe.intake ∧ x.severity = sev ∧ x.kind = kind ∧ x.index = index ∧ x.event = ev ∧ x.time = s.now ∧ { t with safe := s.safe, icu := s.icu, sic := s.sic } = s) ∧
      (sev ≤ 1 → 56 ≤ s.safe.intake.length → exec (.errorReportRaise sev kind index ev st false [] 0 0 0 none) s = .next { s with safe.lostDropped := satAdd 16 s.safe.lostDropped 1 }) ∧
      (sev = 2 → 64 ≤ s.safe.intake.length → exec (.errorReportRaise sev kind index ev st false [] 0 0 0 none) s = .next { s with safe.overflow := true }) ∧
      (sev = 3 → 64 ≤ s.safe.intake.length → exec (.errorReportRaise sev kind index ev st false [] 0 0 0 none) s = .next { s with safe.overflow := true, safe.overflowFatal := true })) ∧
    ((∀ y ∈ rest, y.time = r.time → y.rank ≤ r.rank) → queueReport r rest = rest ++ [r]) ∧
    (∀ y, y.time = r.time → r.rank < y.rank → queueReport r (y :: rest) = r :: y :: rest) ∧
    (s.safe.intakeUp = false → raise s r = s) ∧
    (s.safe.running = true → s.safe.overflow = false → s.safe.intake = [] → exec .errorReportProcess s = .next s) ∧
    (s.safe.running = false → exec .errorReportProcess s = .next s) ∧
    (s.safe.running = true → s.safe.overflow = false → s.safe.intake = r :: rest → newestRec s = none →
      (r.severity ≤ 1 → ∃ t x, exec .errorReportProcess s = .next t ∧ t.safe.intake = rest ∧ t.safe.next = s.safe.next + 1 ∧ t.safe.ring.find (s.safe.next % 256) = some x ∧ x.report = widenReport s r ∧ x.seq = s.safe.next % 2 ^ 32 ∧ x.repeats = 1 ∧ t.mem = s.mem ∧ t.safe.fatal = s.safe.fatal) ∧
      (∀ f n, r.severity = 2 → r.kind = 6 → r.flows = [f] → r.epoch = some n → isGuardedFlow s f = true → (flowSafe s f).doubts.any (fun d => d.1 == n) = false →
        ∃ t, exec .errorReportProcess s = .next t ∧ (flowSafe t f).doubts = (n, r.time) :: (flowSafe s f).doubts ∧ (flowSafe t f).count = min ((flowSafe s f).count + 1) 255 ∧
          (flowSafe t f).latched = ((flowSafe s f).latched || (flowSafe s f).doubts.head?.any (fun d => decide (r.time < d.2 + recoveryNs s f)))) ∧
      (r.severity = 3 → s.safe.fatal = none → s.epochs = [] → ∃ t, exec .errorReportProcess s = .next t ∧ t.safe.fatal = some (fatalCause r.event, s.safe.next) ∧ t.safe.req0 = false ∧ t.safe.req1 = false ∧ t.safe.ack0 = false ∧ t.safe.ack1 = false ∧ (∀ m ∈ t.eth.pending, m.2.guarded = false)) ∧
      (r.severity = 3 → s.safe.fatal ≠ none → ∃ t, exec .errorReportProcess s = .next t ∧ t.safe.fatal = s.safe.fatal))

/-- Verdicts, latches and the safe-state channels (R442, R443, R447, R453, R455): a guarded flow whose conditions hold at the verdict PASSES and its record is written; one that fails is FAILING; a clear of a latched flow whose recovery time has passed with its conditions good is accepted, and refused otherwise; an acknowledgement of a channel
without a condition energises it, one with a condition is refused.
The island itself (R454, R456, R459, R497, R520): its heartbeat comes every 1 ms; a lockstep mismatch or a watchdog expiry holds a FATAL, drops both requests and stops the heartbeat; a firmware heartbeat is noted, and 10 ms without one raise a FATAL report; an image whose check fails raises a FATAL report; a FATAL held for 100 ms asserts a
logic reset where the image or a lockstep mismatch asks for it, and not otherwise. -/
def Obligations.VerdictsChannelsIsland : Prop :=
  (∀ (s : State) (did f : Nat),
    (∀ c n e r, epochOf s c n = some e → e.flowRun f = some r → r.flow = f → r.guarded = true → r.written = false → r.ended = true → s.safe.running = true → (e.cfg.flows.find f).bind (·.grid) = none →
      (verdictPass (setFlowSafe s f { flowSafe s f with shadow := shadowPass s e r }) e r = true → ∃ t, exec (.verdictFormed c n f) s = .next t ∧ (flowSafe t f).verdict = true ∧ (flowSafe t f).failing = false ∧ (flowSafe t f).shadow = true ∧ (histOf t f).good = (histOf t f).latest ∧ t.mem = s.mem) ∧
      (s.safe.fatal ≠ none → ∃ t, exec (.verdictFormed c n f) s = .next t ∧ (flowSafe t f).verdict = false ∧ (flowSafe t f).failing = true ∧ t.mem = s.mem)) ∧
    (∀ c n e r, epochOf s c n = some e → e.flowRun f = some r → r.written = true → exec (.verdictFormed c n f) s = .next s) ∧
    ((did = 1 ∨ did = 2) → f = Tbl.at 0 s.safe.flowSel did → s.safe.running = true → (flowSafe s f).latched = true → (flowSafe s f).clearing = false →
      ((flowSafe s f).shadow = true → (∀ d, (flowSafe s f).doubts.head? = some d → d.2 + recoveryNs s f < s.now) → doubtWaits s f none = false → ∃ t, exec (.latchClear did) s = .next t ∧ flowSafe t f = { flowSafe s f with clearing := true } ∧ (∀ g, g ≠ f → flowSafe t g = flowSafe s g)) ∧
      ((flowSafe s f).shadow = false ∨ (∃ d, (flowSafe s f).doubts.head? = some d ∧ s.now ≤ d.2 + recoveryNs s f) ∨ doubtWaits s f none = true → exec (.latchClear did) s = .next { s with safe.clearRefused := true })) ∧
    (did ≠ 1 → did ≠ 2 → ∀ b, exec (.latchClear did) s = .next s ∧ exec (.safeAck did b) s = .next s) ∧
    ((did = 1 ∨ did = 2) → s.safe.running = true →
      (mayEnergise s 0 = true → s.safe.ack0 = false → ∃ t, exec (.safeAck did 1) s = .next t ∧ t.safe.ack0 = true ∧ t.safe.req0 = true ∧ t.safe.req1 = s.safe.req1 ∧ t.fld = s.fld) ∧
      (mayEnergise s 0 = false → exec (.safeAck did 1) s = .next { s with safe.ackRefused := true }) ∧
      (mayEnergise s 1 = true → s.safe.ack1 = false → ∃ t, exec (.safeAck did 2) s = .next t ∧ t.safe.ack1 = true ∧ t.safe.req1 = true ∧ t.safe.req0 = s.safe.req0))) ∧
  (∀ (s : State),
    (s.safe.running = false → exec .islandHeartbeat s = .next s ∧ exec .lockstepMismatch s = .next s ∧ exec .islandWatchdogExpiry s = .next s ∧ exec .firmwareHeartbeat s = .next s) ∧
    (s.safe.running = true →
      (s.safe.beating = true → s.up ≤ s.safe.beatAt + 1000000 → ∃ t, exec .islandHeartbeat s = .next t ∧ t.safe.beatAt = s.safe.beatAt + 1000000 ∧ t.up = t.safe.beatAt ∧ t.mem = s.mem) ∧
      (s.safe.fatal = none → s.epochs = [] → (∃ t, exec .lockstepMismatch s = .next t ∧ t.safe.fatal.map (·.1) = some 1 ∧ t.safe.running = false ∧ t.safe.beating = false ∧ t.safe.req0 = false ∧ t.safe.req1 = false) ∧
        (∃ t, exec .islandWatchdogExpiry s = .next t ∧ t.safe.fatal.map (·.1) = some 2 ∧ t.safe.running = false ∧ t.safe.beating = false ∧ t.safe.req0 = false ∧ t.safe.req1 = false)) ∧
      (∃ t, exec .firmwareHeartbeat s = .next t ∧ t.safe.fwBeat = some s.up ∧ { t with sic := s.sic, safe := s.safe } = s) ∧
      (∀ v, s.safe.fwBeat = some v → s.up ≤ v + 10000000 → s.safe.intakeUp = true → s.safe.intake.length < 64 → ∃ t x, exec .firmwareSilent s = .next t ∧ t.up = v + 10000000 ∧ t.safe.fwBeat = none ∧ t.safe.intake = queueReport x s.safe.intake ∧ x.severity = 3 ∧ x.event = 0x0143) ∧
      (s.sec.image.isSome = true → exec (.imageCheck true true) s = .next s) ∧
      (s.sec.image.isSome = true → s.safe.intakeUp = true → s.safe.intake.length < 64 → ∃ t x, exec (.imageCheck false true) s = .next t ∧ t.safe.intake = queueReport x s.safe.intake ∧ x.severity = 3 ∧ x.event = 0x0145)) ∧
    (s.safe.fatal = none → exec .safetyEscalation s = .next s) ∧
    (∀ c n, s.safe.fatal = some (c, n) → c ≠ 1 → s.sec.image.any (·.fatalReset) = false → exec .safetyEscalation s = .next s) ∧
    (∀ n, s.safe.fatal = some (1, n) → logicPowered s = true → ∃ t, exec .safetyEscalation s = .next t ∧ t.up = max s.up (s.safe.fatalAt + 100000000) ∧ Tbl.at 0 t.power.counts 8 = satAdd 16 (Tbl.at 0 s.power.counts 8) 1 ∧
      (s.power.seqCause = none → s.power.inReset = [] → t.power.lastCause = 8 ∧ t.power.seqCause = some 8 ∧ t.safe = Safe.reset)))

/-! ### Watchdogs, scrubbing, tests, readmission (R470 to R494) -/

/-- Stage window watchdogs and scrubbing (R472 to R474, R477, R478): a stage without an enabled window is only noted; one whose end event comes inside its window is decided without a miss; a window that closes without it, and a cadence without its next close, count a miss, which FAILS the guarded flows' epoch; the scrubber of a memory goes on by one word and
reports an uncorrectable one; the island's own uncorrectable word is a FATAL. -/
def Obligations.WatchdogsAndScrub : Prop :=
  ∀ (s : State) (c n t : Nat),
    (epochOf s c n = none → exec (.stageEndEvent c n t) s = .next s ∧ exec (.watchdogWindowClose c n t) s = .next s) ∧
    (∀ e, epochOf s c n = some e → (7 ≤ t ∨ e.closed = false ∨ stageEnded s e t = false → exec (.stageEndEvent c n t) s = .next s) ∧
      (∀ w, t < 7 → e.closed = true → e.stagesEnded.contains t = false → stageEnded s e t = true → windowOf s c t = some w → e.decided.contains t = false → w.open_ * 1000 ≤ s.now - e.closeAt s → s.now - e.closeAt s < w.close * 1000 →
        ∃ u, exec (.stageEndEvent c n t) s = .next u ∧ (wdStatus u c t).lastUs = min ((s.now - e.closeAt s) / 1000) 65535 ∧ (wdStatus u c t).misses = (wdStatus s c t).misses ∧ u.mem = s.mem) ∧
      (∀ w, e.closed = true → e.aborted = false → e.decided.contains t = false → windowOf s c t = some w →
        ∃ u, exec (.watchdogWindowClose c n t) s = .next u ∧ (wdStatus u c t).misses = min ((wdStatus s c t).misses + 1) 65535 ∧ (∀ x, epochOf u c n = some x → x.windowMissed = true) ∧ e.closeAt s + w.close * 1000 ≤ u.now) ∧
      (e.decided.contains t = true → exec (.watchdogWindowClose c n t) s = .next s)) ∧
    ((cadOf s c).st ≠ .running → exec (.intakeCloseTimeout c) s = .next s) ∧
    ((cadOf s c).st = .running → (cadOf s c).last = none → (cadOf s c).start < (cadOf s c).nextClose → (windowOf s c 0).isSome = true → (wdStatus s c 0).gapAt ≠ (cadOf s c).nextClose → ∃ u, exec (.intakeCloseTimeout c) s = .next u ∧ (wdStatus u c 0).misses = min ((wdStatus s c 0).misses + 1) 65535 ∧ (wdStatus u c 0).gapAt = (cadOf s c).nextClose) ∧
    ((wdStatus s c 0).gapAt = (cadOf s c).nextClose → exec (.intakeCloseTimeout c) s = .next s) ∧
    (∀ m k g, k = Tbl.at 0 s.safe.scrub m % scrubWords m →
      (badIn s (scrubKey m k) 64 = false ∨ 78 ≤ m → exec (.sramScrub m 0 g) s = .next { s with safe.scrub := s.safe.scrub.put m ((k + 1) % scrubWords m) }) ∧
      (m < 78 → ∃ u, exec (.sramScrub m 2 g) s = .next u ∧ Tbl.at 0 u.safe.scrub m = (k + 1) % scrubWords m ∧ ((scrubGuarded s m k).2 = false → scrubKey m k / 8 ∈ u.eng.bad ∧ u.mem = s.mem)) ∧
      (m = 86 → s.safe.intakeUp = true → s.safe.intake.length < 64 → ∃ u x, exec (.sramScrub m 2 g) s = .next u ∧ u.safe.intake = queueReport x s.safe.intake ∧ x.severity = 3 ∧ x.event = 0x0142))

/-- Golden runs and self-test slices (R480 to R485): an owed golden run starts on an idle unit in service; one that passes clears what is owed and is counted, one that fails takes the unit out of service; the schedule starts the oldest slice that fits; a slice that passes is noted at the present time, one that fails takes the unit out; guarded work
aborts a test, uncounted where the slice would start in the same cycle; a unit whose slices are 1 s old is reported once.
Isolation and readmission (R487 to R494): ISOLATE takes the selected unit out of service; READMIT starts the six steps of a unit that is out; an MMA that isolation cuts off leaves its C undefined (R317), else no byte of memory changes; an engine's reset empties its threads and zeroes its tile SRAM and no other byte; passed steps lead to IN_SERVICE at the next close, a failed one takes the unit out again. -/
def Obligations.TestsAndReadmission : Prop :=
  (∀ (s : State) (u : Nat) (x : UnitSafe), x = unitSafe s u → u < 88 →
    (s.safe.running = true → x.service = 0 → unitIdle s u = true → (x.owed ≠ [] → exec (.goldenRun u) s = .next (setUnit s u { x with test := .golden s.up }) ∧ exec (.selftestSchedule u) s = .next (setUnit s u { x with test := .golden s.up })) ∧
      (x.owed = [] → exec (.goldenRun u) s = .next s) ∧
      (∀ k, x.owed = [] → chooseSlice s u = some k → workWaits s u = false → exec (.selftestSchedule u) s = .next (setUnit s u { x with test := .slice k s.up })) ∧
      (x.owed = [] → chooseSlice s u = none → exec (.selftestSchedule u) s = .next s)) ∧
    (∀ b, x.test = .none → exec (.goldenRunEnd u b) s = .next s ∧ exec (.selftestSliceEnd u b) s = .next s ∧ exec (.selftestAbort u) s = .next s) ∧
    (∀ v, x.test = .golden v → u < 72 →
      exec (.goldenRunEnd u true) s = .next (setUnit s u { x with test := .none, owed := [], goldenOk := satAdd 24 x.goldenOk 1 }) ∧
      (x.service = 0 → ∃ t, exec (.goldenRunEnd u false) s = .next t ∧ (unitSafe t u).service = 2 ∧ (unitSafe t u).cause = 2 ∧ (unitSafe t u).goldenBad = min (x.goldenBad + 1) 255 ∧ (unitSafe t u).owed = [] ∧ ((∀ i, (thread s i).mma = none) → t.mem = s.mem))) ∧
    (∀ k v, x.test = .slice k v → u < 72 →
      (∃ t, exec (.selftestSliceEnd u true) s = .next t ∧ (unitSafe t u).test = .none ∧ (unitSafe t u).passes.find k = some s.up ∧ (unitSafe t u).service = x.service ∧ { t with safe := s.safe } = s) ∧
      (x.service = 0 → ∃ t, exec (.selftestSliceEnd u false) s = .next t ∧ (unitSafe t u).service = 2 ∧ (unitSafe t u).cause = 3 ∧ (unitSafe t u).sliceFails = min (x.sliceFails + 1) 255 ∧ ((∀ i, (thread s i).mma = none) → t.mem = s.mem))) ∧
    (∀ v, x.test = .golden v → exec (.selftestAbort u) s = .next (setUnit s u { x with test := .none, aborts := satAdd 12 x.aborts 1 })) ∧
    (∀ k v, x.test = .slice k v → exec (.selftestAbort u) s = .next (setUnit s u { x with test := .none, aborts := if v = s.up then x.aborts else satAdd 12 x.aborts 1 })) ∧
    (s.safe.running = true → x.service ≠ 2 → x.warned = false → s.safe.intakeUp = true → s.safe.intake.length < 56 → ∃ t r, exec (.latentTestOverdue u) s = .next t ∧ (unitSafe t u).warned = true ∧ t.safe.overdueWarn = true ∧ t.safe.intake = queueReport r s.safe.intake ∧ r.severity = 1 ∧ r.event = 0x0133) ∧
    (x.service = 2 → exec (.latentTestOverdue u) s = .next s)) ∧
  (∀ (s : State) (did u : Nat) (x : UnitSafe), u < 88 → x = unitSafe s u →
    ((did = 1 ∨ did = 2) → unitSelected s did = u → s.safe.running = true →
      (x.service = 2 → exec (.unitIsolate did) s = .next s) ∧
      (u < 72 → x.service ≠ 2 → ∃ t, exec (.unitIsolate did) s = .next t ∧ (unitSafe t u).service = 2 ∧ (unitSafe t u).cause = 4 ∧ (unitSafe t u).step = 0 ∧ (engineOf t u).copies = [] ∧ ((∀ i, (thread s i).mma = none) → t.mem = s.mem) ∧ (∀ v, v ≠ u → unitSafe t v = unitSafe s v)) ∧
      (x.service = 2 → x.step = 0 → exec (.unitReadmit did) s = .next (setUnit s u { x with step := 1, startup := false, blocked := false })) ∧
      (x.service ≠ 2 → exec (.unitReadmit did) s = .next s)) ∧
    (x.step = 0 → exec (.readmissionStep u 0) s = .next s) ∧
    (x.step = 1 → exec (.readmissionStep u 0) s = .next (setUnit s u { x with service := 1, step := 2, owed := [], test := .none })) ∧
    (x.step = 2 → u < 72 → ∃ t, exec (.readmissionStep u 0) s = .next t ∧ (unitSafe t u).step = 3 ∧ (∀ i, i < 64 → thread t (64 * u + i) = Thread.reset) ∧ (∀ a, Memory.read t.mem (Space.key (.tile u) a) = 0) ∧
      (∀ k, (k < Space.key (.tile u) 0 ∨ Space.key (.tile u) 0 + 2 ^ 21 ≤ k) → Memory.read t.mem k = Memory.read s.mem k)) ∧
    (x.step = 3 → (engineOf s u).resident = [] → exec (.readmissionStep u 0) s = .next (setUnit s u { x with step := 4 })) ∧
    (x.step = 4 → exec (.readmissionStep u 0) s = .next (setUnit s u { x with step := 5, goldenOk := satAdd 24 x.goldenOk 1 })) ∧
    (x.step = 4 → u < 72 → x.service ≠ 2 → ∃ t, exec (.readmissionStep u 1) s = .next t ∧ (unitSafe t u).service = 2 ∧ (unitSafe t u).cause = 2) ∧
    (x.step = 5 → x.startup = false → anyRunning s = true → ∃ t, exec (.readmissionStep u 0) s = .next t ∧ (unitSafe t u).step = 6 ∧ (unitSafe t u).service = x.service ∧ { t with safe := s.safe } = s) ∧
    (x.step = 6 → u < 72 → x.startup = false → ∃ t, exec (.unitReadmitted u) s = .next t ∧ (unitSafe t u).service = 0 ∧ (unitSafe t u).step = 0 ∧ (unitSafe t u).since = s.now ∧ t.mem = s.mem) ∧
    (x.step ≠ 6 → exec (.unitReadmitted u) s = .next s))

/-! ### Interrupt controllers (R495 to R509) -/

/-- The interrupt controllers (R498 to R505, R507, R509): an edge sets pending, or overrun while pending or in service; the delivery to a processor takes the deliverable source of highest priority into service and masks the processor; EOI ends the service, or sets eoi_err; the source commands act on the ICU source that DID 1 selects, on the SIC source that the island selects, and are dropped from other DIDs;
a software interrupt sets pending; a lock is acquired once until it is released; a wait for interrupt with nothing pending sleeps; the storm counters restart at the millisecond. -/
def Obligations.InterruptControl : Prop :=
  ∀ (s : State) (sic : Bool) (k p : Nat) (x : IntSource), x = sourceOf s sic k →
    (k < sourceCount sic → sourceReserved sic k = false → x.sense = 3 → x.input = false →
      (x.pending = false → x.inService = false → ∃ t, exec (.icuSourceEvent sic k true) s = .next t ∧ sourceOf t sic k = { x with input := true, pending := true } ∧ (∀ j, j ≠ k → sourceOf t sic j = sourceOf s sic j)) ∧
      (x.pending = true ∨ x.inService = true → ∃ t, exec (.icuSourceEvent sic k true) s = .next t ∧ sourceOf t sic k = { x with input := true, overrun := true } ∧ (ctlOf t sic).overrunAny = true)) ∧
    (sourceCount sic ≤ k ∨ sourceReserved sic k = true → exec (.icuSourceEvent sic k true) s = .next s) ∧
    ((sic = true ∧ p = 0) ∨ (sic = false ∧ p < 4) →
      (∀ cl m, m = openMask s sic p cl →
        (bestSource m sic p = none → exec (.icuDelivery sic ⟨p, cl⟩) s = .next m) ∧
        (bestSource m sic p = some k → deliveries m x < 4096 → ∃ t, exec (.icuDelivery sic ⟨p, cl⟩) s = .next t ∧ (sourceOf t sic k).inService = true ∧ (procOf t sic p).stack = k :: (procOf s sic p).stack ∧ (procOf t sic p).gmask = true ∧
          (x.sense = 3 → (sourceOf t sic k).pending = false) ∧ t.out = (emit s (.vector sic p ((procOf s sic p).vbase * 65536 + 64 * k))).out ∧ { t with icu := s.icu, sic := s.sic, out := s.out } = s) ∧
        (bestSource m sic p = some k → 4096 ≤ deliveries m x → ∃ t, exec (.icuDelivery sic ⟨p, cl⟩) s = .next t ∧ (procOf t sic p).stack = (procOf s sic p).stack ∧ (k ≠ 186 → (sourceOf t sic k).storm = true)) ∧
        (∀ u, u = setProc m sic p { procOf m sic p with asleep := true } →
          ((List.range (sourceCount sic)).any (wakes u sic p) = false → exec (.processorWake sic ⟨p, cl⟩) s = .next u) ∧
          ((List.range (sourceCount sic)).any (wakes u sic p) = true → bestSource u sic p = none → exec (.processorWake sic ⟨p, cl⟩) s = .next (setProc u sic p { procOf u sic p with asleep := false })))) ∧
      (k ∈ (procOf s sic p).stack → ∃ t, exec (.icuEoi sic p k) s = .next t ∧ sourceOf t sic k = { x with inService := false } ∧ (procOf t sic p).stack = (procOf s sic p).stack.filter (· ≠ k) ∧ (ctlOf t sic).eoiErr = (ctlOf s sic).eoiErr) ∧
      (k ∉ (procOf s sic p).stack → ∃ t, exec (.icuEoi sic p k) s = .next t ∧ (ctlOf t sic).eoiErr = (ctlOf s sic).eoiErr ||| 2 ^ p ∧ procOf t sic p = procOf s sic p)) ∧
    (sic = false → srcSelected s 1 p = k → s.bootReady = true → sourceReserved false k = false →
      (∃ t, exec (.icuSrcMask 1 p) s = .next t ∧ sourceOf t false k = { x with masked := true } ∧ { t with icu := s.icu } = s) ∧ (∃ t, exec (.icuSrcUnmask 1 p) s = .next t ∧ sourceOf t false k = { x with masked := false } ∧ { t with icu := s.icu } = s) ∧
      (x.level = false → (∃ t, exec (.icuSrcSetPend 1 p) s = .next t ∧ sourceOf t false k = { x with pending := true }) ∧ (∃ t, exec (.icuSrcClrPend 1 p) s = .next t ∧ sourceOf t false k = { x with pending := false }))) ∧
    (sic = true → srcSelected s 0 p = k → sourceReserved true k = false →
      exec (.icuSrcMask 0 p) s = .next (setSource s true k { x with masked := true }) ∧ exec (.icuSrcUnmask 0 p) s = .next (setSource s true k { x with masked := false }) ∧
      (x.level = false → exec (.icuSrcSetPend 0 p) s = .next (setSource s true k { x with pending := true }) ∧ exec (.icuSrcClrPend 0 p) s = .next (setSource s true k { x with pending := false }))) ∧
    (∀ did, 2 ≤ did → exec (.icuSrcMask did p) s = .next s ∧ exec (.icuSrcUnmask did p) s = .next s ∧ exec (.icuSrcSetPend did p) s = .next s ∧ exec (.icuSrcClrPend did p) s = .next s) ∧
    (∀ did, did ≠ 1 → exec (.icuLockRelease did p) s = .next s) ∧
    (sic = false → s.bootReady = true → 768 ≤ k → k < 1024 → x.sense = 3 → x.pending = false → x.inService = false →
      (∃ t, exec (.icuSwi 1 k) s = .next t ∧ sourceOf t false k = { x with pending := true } ∧ { t with icu := s.icu } = s) ∧ (k < 960 → exec (.icuSwi 2 k) s = .next s)) ∧
    (∀ l, s.bootReady = true → l < 16 → s.dbg.boundary = false →
      (Tbl.at false s.icu.locks l = false → exec (.icuLockAcquire 1 l) s = .next (emit { s with icu.locks := s.icu.locks.put l true } (.readData 1 (0x100310 + 4 * l) 1))) ∧
      (Tbl.at false s.icu.locks l = true → exec (.icuLockAcquire 1 l) s = .next (emit s (.readData 1 (0x100310 + 4 * l) 0))) ∧ exec (.icuLockRelease 1 l) s = .next { s with icu.locks := s.icu.locks.put l false }) ∧
    (∃ t, exec .stormWindowReset s = .next t ∧ t.now = (s.now / 1000000 + 1) * 1000000 ∧ (sourceOf t sic k).count = 0 ∧ { sourceOf t sic k with count := x.count, ms := x.ms } = x ∧ { t with icu := s.icu, sic := s.sic, now := s.now, up := s.up } = s)

/-- Lost events (R501): an event of an edge-sensed source, or a software interrupt, that arrives while the source is in service or already pending makes no delivery of its own: pending and in-service stay, the source's overrun bit is set, and overrun_any with it. -/
def Obligations.EventsLost : Prop :=
  ∀ (s : State) (sic : Bool) (k : Nat) (x : IntSource) (level : Bool), x = sourceOf s sic k → (x.pending = true ∨ x.inService = true) →
    (k < sourceCount sic → sourceReserved sic k = false → x.input ≠ level → ((x.sense = 3 ∧ level = true) ∨ (x.sense = 4 ∧ level = false) ∨ x.sense = 5) →
      ∃ t, exec (.icuSourceEvent sic k level) s = .next t ∧ sourceOf t sic k = { x with input := level, overrun := true } ∧ (ctlOf t sic).overrunAny = true ∧ (∀ j, j ≠ k → sourceOf t sic j = sourceOf s sic j) ∧ { t with icu := s.icu, sic := s.sic } = s) ∧
    (sic = false → s.bootReady = true → 768 ≤ k → k < 1024 → 3 ≤ x.sense →
      ∃ t, exec (.icuSwi 1 k) s = .next t ∧ sourceOf t false k = { x with overrun := true } ∧ t.icu.overrunAny = true ∧ (∀ j, j ≠ k → sourceOf t false j = sourceOf s false j) ∧ { t with icu := s.icu } = s)

/-! ### Reset, boot, power (R537 to R556) -/

/-- Causes, scopes and domains (R537 to R541, R543, R556, R582): a logic-side cause is counted, is the last cause and puts the domains of its scope into reset; during a sequence of equal or wider scope it only joins the sequence, unless the boot has FAILED; a brown-out also takes MOD_PG low; a DEVICE-scope reset empties the
island, the configuration, the engines and the Octur link and keeps device time; a HOST-scope reset touches neither; a POR puts every domain into reset, and without VBACKUP the counters restart; RESET_PIN also wakes the device from P3; a unit reset takes its unit out and starts readmission, and is refused where it would hit guarded work in SERVICE;
OAS_CLEAR clears the counters under presence alone. -/
def Obligations.ResetCauses : Prop :=
  ∀ (s : State) (c : Instr) (k : Nat),
    (logicPowered s = true →
      ((c = .logicBrownout ∧ k = 1) ∨ (c = .resetPin ∧ k = 2) ∨ (c = .pcieFundamental ∧ k = 3) ∨ (c = .pcieHot ∧ k = 4) ∨ (c = .hostDeviceCmd 2 ∧ k = 5 ∧ pcieUp s = true) ∨ (c = .octurCmd 0 1 ∧ k = 7 ∧ s.power.octurResetEn = true) ∨
        (c = .safeWatchdog ∧ k = 9 ∧ s.safe.fatal.any (fun f => f.1 == 2) = true) ∨ (c = .thermalTrip ∧ k = 10) ∨ (c = .debugCmd ∧ k = 11 ∧ s.dbg.level = 2 ∧ s.dbg.boundary = false ∧ s.dbg.production = false)) →
      (∀ w, s.power.seqCause = some w → scopeOf s k ≤ scopeOf s w → s.power.stage ≠ 7 → exec c s = .next (joinSequence (countCause (if k = 1 then setRails s false else s) k) k)) ∧
      (s.power.seqCause = none → ∃ t, exec c s = .next t ∧ Tbl.at 0 t.power.counts k = satAdd 16 (Tbl.at 0 s.power.counts k) 1 ∧ t.power.total = satAdd 32 s.power.total 1 ∧ t.power.lastCause = k ∧ t.power.seqCause = some k ∧
        (∀ d, d < 10 → (d ∈ t.power.inReset ↔ d ∈ s.power.inReset ∨ d ∈ scopeDomains (scopeOf s k))) ∧ t.now = s.now ∧ t.tb = s.tb ∧
        (scopeOf s k = 2 → s.power.inReset = [] → t.safe = Safe.reset ∧ t.cfg = Cfg.reset ∧ t.eng = Engines.reset ∧ t.mem = [] ∧ t.oct = Oct.reset ∧ t.bootReady = false) ∧
        (scopeOf s k = 1 → t.safe = s.safe ∧ t.cfg = s.cfg ∧ t.mem = s.mem ∧ t.oct.ports = s.oct.ports ∧ t.bootReady = s.bootReady))) ∧
    (∀ did, did ≠ 2 → exec (.hostDeviceCmd did) s = .next s ∧ exec (.hostUnitCmd did) s = .next s) ∧
    (s.dbg.level ≠ 2 → s.dbg.boundary = false → s.dbg.production = false → exec .debugCmd s = .next s) ∧
    (s.safe.fatal = none → exec .safeWatchdog s = .next s) ∧
    (s.power.octurResetEn = false → s.safe.intakeUp = true → s.safe.intake.length < 56 → ∀ m, ∃ t r, exec (.octurCmd m 1) s = .next t ∧ t.safe.intake = queueReport r s.safe.intake ∧ r.event = 0x0115 ∧ r.severity = 1 ∧ r.detail = m ∧ r.time = s.now ∧ { t with safe := s.safe, sic := s.sic } = s) ∧
    (s.power.seqCause = none → (∃ t, exec (.por true) s = .next t ∧ t.power.inReset = List.range 10 ∧ t.power.lastCause = 0 ∧ Tbl.at 0 t.power.counts 0 = satAdd 16 (Tbl.at 0 s.power.counts 0) 1 ∧ t.power.pstate = 0 ∧ (s.power.inReset = [] → t.now = 0 ∧ t.tb = Tb.reset ∧ t.mem = [])) ∧
      (∃ t, exec (.por false) s = .next t ∧ t.power.inReset = List.range 10 ∧ t.power.counts = [(0, 1)] ∧ t.power.total = 1 ∧ t.power.fresh = true ∧ t.sec.sealLatched = false)) ∧
    (s.power.pstate = 4 → exec .resetPin s = .next s) ∧
    (s.power.pstate = 3 → ∃ t, exec .resetPin s = .next t ∧ t.power.pstate = 0 ∧ Tbl.at 0 t.power.counts 2 = satAdd 16 (Tbl.at 0 s.power.counts 2) 1) ∧
    (pcieUp s = true →
      (s.power.rcuTarget < 72 → unitResetRefused s s.power.rcuTarget = false → ∃ t, exec (.hostUnitCmd 2) s = .next t ∧ Tbl.at 0 t.power.counts 6 = satAdd 16 (Tbl.at 0 s.power.counts 6) 1 ∧ (unitSafe t s.power.rcuTarget).service = 2 ∧ (unitSafe t s.power.rcuTarget).step = 1 ∧ (engineOf t s.power.rcuTarget).copies = [] ∧ ((∀ i, (thread s i).mma = none) → t.mem = s.mem)) ∧
      (targetKnown s.power.rcuTarget = true → unitResetRefused s s.power.rcuTarget = true → exec (.hostUnitCmd 2) s = .next { s with power.rcuLast := stNotAuth }) ∧
      (targetKnown s.power.rcuTarget = false → exec (.hostUnitCmd 2) s = .next s)) ∧
    (∀ did, did = 1 ∨ did = 2 →
      (maintOpen s did = true → s.sec.lifecycle ≠ 3 → ∃ t, exec (.oasClear did) s = .next t ∧ t.power.counts = [] ∧ t.power.total = 0 ∧ t.power.lastCause = 0 ∧ t.power.fresh = false ∧ t.power.timeResets = 0 ∧ t.power.overrides = 0 ∧ t.power.sealBreaks = 0 ∧ t.power.oasStatus = 0 ∧ t.mem = s.mem) ∧
      (maintOpen s did = false ∨ s.sec.lifecycle = 3 → exec (.oasClear did) s = .next { s with sec.maintRefused := true, power.oasStatus := stNotAuth })) ∧
    (∀ did, did ≠ 1 → did ≠ 2 → exec (.oasClear did) s = .next s)

/-- Release and boot (R516, R539 to R542, R549 to R552, R616): domains leave reset in order, without the logic rails only those on the switched rail, CTL after training and the cores after step 9; the straps are taken where the sequence holds POR or RESET_PIN, CLK_MODE 11 only in BLANK; a third failed training ends the boot with error 2; a bank that fails its verification gives way to the other one; step 9 starts the island; step 15 applies
the stored image where its verification passes; step 16 reads READY; 60 s without boot_go end the boot with error 4. -/
def Obligations.ReleaseAndBoot : Prop :=
  ∀ (s : State) (b m : Nat),
    (∀ g, s.power.inReset = [] → exec (.domainRelease ⟨b, m⟩ g) s = .next (setRails s g)) ∧
    (s.power.railsGood = false → (1 ∉ s.power.inReset → 9 ∉ s.power.inReset → exec (.domainRelease ⟨b, m⟩ false) s = .next s) ∧
      (s.power.inReset.find? (fun d => d == 1 || d == 9) = some 1 → s.power.stage ≠ 7 → s.power.pstate ≤ 2 → ∃ t, exec (.domainRelease ⟨b, m⟩ false) s = .next t ∧ t.power.inReset = s.power.inReset.filter (· ≠ 1) ∧ t.power.step = s.power.step ∧ { t with power := s.power } = s)) ∧
    (∀ d rest, s.power.railsGood = true → s.power.inReset = d :: rest → d ∉ rest → s.power.stage ≠ 7 → s.power.pstate ≤ 2 → s.power.step < 16 →
      ((d = 1 ∨ d = 2 ∨ d = 4) → rest ≠ [] → exec (.domainRelease ⟨b, m⟩ true) s = .next { s with power.inReset := rest, power.step := releaseStep d }) ∧
      ((d = 0 ∨ d = 3) → (0 ∈ s.power.held ∨ 2 ∈ s.power.held) → ∃ t, exec (.domainRelease ⟨b, m⟩ true) s = .next t ∧ t.power.inReset = rest ∧ t.power.step = releaseStep d ∧ t.power.bootSrc = b % 4 ∧ t.power.clkMode = (if s.sec.lifecycle ≠ 0 ∧ m % 4 = 3 then 0 else m % 4) ∧ { t with power := s.power } = s) ∧
      (d = 5 → s.power.trained = false → exec (.domainRelease ⟨b, m⟩ true) s = .next s) ∧
      (d = 5 → s.power.trained = true → ∃ t, exec (.domainRelease ⟨b, m⟩ true) s = .next t ∧ t.power.inReset = rest ∧ t.power.step = 7 ∧ t.power.stage = 1 ∧ t.power.bank = s.sec.pendingBank.getD s.sec.activeBank ∧ t.power.source = s.power.bootSrc ∧ { t with power := s.power } = s) ∧
      (d = 6 → s.power.step < 9 → exec (.domainRelease ⟨b, m⟩ true) s = .next s) ∧
      (d = 6 → 9 ≤ s.power.step → ∃ t, exec (.domainRelease ⟨b, m⟩ true) s = .next t ∧ t.power.inReset = rest ∧ t.power.step = 10 ∧ ∀ u, u < 88 → (unitSafe t u).service = 1 ∧ (unitSafe t u).step = 2) ∧
      (d = 7 → ∃ t, exec (.domainRelease ⟨b, m⟩ true) s = .next t ∧ t.power.inReset = rest.filter (· ≠ 8) ∧ t.power.step = (if 9 ∈ rest then 11 else 12) ∧ { t with power := s.power } = s) ∧
      (d = 9 → rest = [] → ∃ t, exec (.domainRelease ⟨b, m⟩ true) s = .next t ∧ t.power.inReset = [] ∧ t.power.seqCause = none ∧ t.power.held = [] ∧ t.power.step = 12)) ∧
    (s.power.stage = 7 → exec (.bootStageAdvance b) s = .next s) ∧
    (s.power.stage ≠ 7 → s.power.pstate ≤ 2 →
      (s.power.step = 6 → s.power.trained = false → (∃ t, exec (.bootStageAdvance 0) s = .next t ∧ t.power.trained = true ∧ (∀ k, k < 8 → (Tbl.at MemCtl.reset t.mmu.mcs k).trained = true) ∧ t.mem = s.mem) ∧
        (s.power.training < 2 → exec (.bootStageAdvance 2) s = .next { s with power.training := s.power.training + 1 }) ∧ (2 ≤ s.power.training → ∃ t, exec (.bootStageAdvance 2) s = .next t ∧ t.power.stage = 7 ∧ t.power.error = 2 ∧ { t with power := s.power } = s)) ∧
      (s.power.step = 7 → sourceReady s = false → (exec (.bootStageAdvance 0) s = .next s ∧ exec (.bootStageAdvance 1) s = .next s)) ∧
      (s.power.step = 7 → sourceReady s = true → exec (.bootStageAdvance 0) s = .next { s with power.step := 8, power.stage := 2, power.waitFrom := none } ∧
        (s.power.bootSrc ≠ 0 → exec (.bootStageAdvance 1) s = .next { s with power.stage := 7, power.error := 1, power.waitFrom := none }) ∧
        (s.power.bootSrc = 0 → s.power.bank ≤ 1 → s.sec.pendingBank = none → s.sec.badBanks = [] → s.power.failedBanks = [] → exec (.bootStageAdvance 1) s = .next { s with power.failedBanks := [s.power.bank], power.bank := 1 - s.power.bank, power.stage := 1 }) ∧
        (s.power.bootSrc = 0 → s.sec.pendingBank = none → 1 - s.power.bank ∈ s.power.failedBanks → ∃ t, exec (.bootStageAdvance 1) s = .next t ∧ t.power.stage = 7 ∧ t.power.error = 1)) ∧
      (s.power.step = 8 → s.power.strapWarn = false → ∃ t, exec (.bootStageAdvance 0) s = .next t ∧ t.safe.running = true ∧ t.safe.intakeUp = true ∧ t.safe.beating = true ∧ t.power.step = 9 ∧ t.power.stage = 3 ∧ t.sec.activeBank = s.power.bank ∧ t.mem = s.mem) ∧
      (s.power.step = 12 → exec (.bootStageAdvance 0) s = .next { s with power.step := 13, power.stage := 4 }) ∧
      (s.power.step = 13 → ∃ t, exec (.bootStageAdvance 0) s = .next t ∧ t.power.step = 14 ∧ t.power.stage = 5 ∧ (∀ k, k < 16 → (Tbl.at Context.reset t.mmu.ctx k).enable = true) ∧ { t with power := s.power, mmu := s.mmu } = s) ∧
      (s.power.step = 14 → (s.sec.stored = none → exec (.bootStageAdvance 0) s = .next { s with power.step := 15 }) ∧ exec (.bootStageAdvance 6) s = .next { s with power.step := 15 } ∧
        (∀ i dg v l, s.sec.stored = some (i, dg, v, l) → (s.sec.lifecycle = 1 ∨ s.sec.lifecycle = 2) → s.sec.storedGen = s.sec.safetyGen → s.sec.fuseImage ≤ v → ∃ t, exec (.bootStageAdvance 0) s = .next t ∧ t.sec.image = some i ∧ t.sec.locked = l ∧ t.sec.imageSvn = v ∧ t.power.step = 15)) ∧
      (s.power.step = 15 → ∃ t, exec (.bootStageAdvance 0) s = .next t ∧ t.bootReady = true ∧ t.power.stage = 6 ∧ t.power.step = 16 ∧ t.sec.fuseFw = max s.sec.fuseFw s.sec.fwSvn ∧ { t with bootReady := s.bootReady, power := s.power, sec := s.sec } = s)) ∧
    (∀ did, ((did = 1 ∨ did = 2) → s.power.waitFrom ≠ none → exec (.bootGo did) s = .next { s with power.bootGo := true }) ∧ (did ≠ 1 → did ≠ 2 → exec (.bootGo did) s = .next s) ∧ (s.power.waitFrom = none → exec (.bootGo did) s = .next s)) ∧
    (s.power.waitFrom = none → exec .bootSourceTimeout s = .next s) ∧
    (∀ v, s.power.waitFrom = some v → (s.power.bootGo = true → exec .bootSourceTimeout s = .next s) ∧
      (s.power.bootGo = false → ∃ t, exec .bootSourceTimeout s = .next t ∧ t.power.stage = 7 ∧ t.power.error = 4 ∧ t.up = max s.up (v + 60000000000) ∧ { t with power := s.power, up := s.up, now := s.now } = s))

/-- Power states (R545 to R548, R554): a request by DID 1 or 2 starts a transition, and one made during a transition is kept; P0 and P1 are entered at once with their clocks; P2 waits until the work has ended, stops the ENG clock and drops the energise requests; P3 passes through P2, puts the 12 V domains into reset, counts no cause and keeps the wake time; a wake leads to P0;
the fall of the standby input leads to P4 with a POR; a junction at 100 °C or an input power above plimit trims to P1 while P0 is requested, and the trim ends when both are within their limits. -/
def Obligations.PowerStates : Prop :=
  ∀ (s : State) (did g : Nat),
    ((did = 1 ∨ did = 2) → s.bootReady = true → g ≤ 3 → (s.power.busy = false → g ≠ s.power.pstate → exec (.pstateRequest did g) s = .next { s with power.target := g, power.goal := g, power.busy := true }) ∧
      (s.power.busy = true → exec (.pstateRequest did g) s = .next { s with power.target := g }) ∧ (s.power.busy = false → g = s.power.pstate → exec (.pstateRequest did g) s = .next s)) ∧
    ((did ≠ 1 ∧ did ≠ 2) ∨ 3 < g → exec (.pstateRequest did g) s = .next s) ∧
    (s.power.busy = false → exec .pstateTransition s = .next s) ∧
    (s.power.busy = true → s.power.goal = g → s.power.target = g →
      (g ≤ 1 → s.power.pstate ≤ 1 → ∃ t, exec .pstateTransition s = .next t ∧ t.power.pstate = g ∧ t.power.busy = false ∧ (t.power.engMhz, t.power.ctlMhz) = clocksOf g ∧ t.mem = s.mem ∧ t.cfg = s.cfg ∧ t.epochs = s.epochs) ∧
      (2 ≤ g → s.power.pstate ≤ 1 → workIdle s = false → exec .pstateTransition s = .next s) ∧
      (2 ≤ g → s.power.pstate ≤ 1 → workIdle s = true → ∃ t, exec .pstateTransition s = .next t ∧ t.power.pstate = 2 ∧ t.power.busy = decide (g ≠ 2) ∧ t.power.engMhz = 0 ∧ t.power.ctlMhz = 750 ∧ t.safe.req0 = false ∧ t.safe.req1 = false ∧ t.mem = s.mem) ∧
      (3 ≤ g → s.power.pstate = 2 → ∃ t, exec .pstateTransition s = .next t ∧ t.power.pstate = 3 ∧ (∀ d ∈ scopeDomains 2, d ∈ t.power.inReset) ∧ t.power.wakeCopy = s.power.wake ∧ t.power.counts = s.power.counts ∧ t.power.engMhz = 0 ∧ t.power.ctlMhz = 0 ∧ t.now = s.now ∧ t.tb = s.tb)) ∧
    (s.power.pstate ≠ 3 → exec (.p3Wake g) s = .next s) ∧
    (s.power.pstate = 3 → exec (.p3Wake 0) s = .next { s with power.pstate := 0, power.target := 0, power.goal := 0, power.busy := false, trig.outs := s.trig.outs.mapV (fun _ o => { o with resumeAt := s.now + 1000000 }) } ∧
      (s.power.wakeCopy = 0 → exec (.p3Wake 1) s = .next s) ∧ (s.power.wakeCopy ≠ 0 → ∃ t, exec (.p3Wake 1) s = .next t ∧ t.power.pstate = 0 ∧ t.now = max s.now s.power.wakeCopy) ∧
      (∃ t, exec (.p3Wake 2) s = .next t ∧ t.power.pstate = 0 ∧ Tbl.at 0 t.power.counts 2 = satAdd 16 (Tbl.at 0 s.power.counts 2) 1)) ∧
    (s.power.pstate = 4 → exec .standbyLoss s = .next s) ∧
    (s.power.pstate ≠ 4 → s.power.seqCause = none → ∃ t, exec .standbyLoss s = .next t ∧ t.power.pstate = 4 ∧ t.power.engMhz = 0 ∧ t.power.ctlMhz = 0 ∧ t.power.inReset = List.range 10 ∧ Tbl.at 0 t.power.counts 0 = satAdd 16 (Tbl.at 0 s.power.counts 0) 1) ∧
    (∀ j w, s.power.pstate = 0 → s.power.target = 0 → s.bootReady = true →
      (1600 ≤ j → j < 32768 → ∃ t, exec (.thermalTrim j) s = .next t ∧ t.power.pstate = 1 ∧ t.power.reason = 1 ∧ t.power.engMhz = 625 ∧ t.power.ctlMhz = 750 ∧ t.power.junction = j ∧ t.mem = s.mem) ∧
      (j < 1600 → exec (.thermalTrim j) s = .next { s with power.junction := j }) ∧
      (s.power.plimit * 10 < w → ∃ t, exec (.powerTrim w) s = .next t ∧ t.power.pstate = 1 ∧ t.power.reason = 2 ∧ t.power.engMhz = 625 ∧ t.power.power = w % 65536 ∧ t.mem = s.mem) ∧
      (w ≤ s.power.plimit * 10 → exec (.powerTrim w) s = .next { s with power.power := w % 65536 })) ∧
    (∀ j w, s.power.pstate = 1 → s.power.reason ≠ 0 → s.power.target = 0 →
      (j ≤ 1520 → w ≤ 9 * s.power.plimit → ∃ t, exec (.trimRelease j w) s = .next t ∧ t.power.pstate = 0 ∧ t.power.reason = 0 ∧ t.power.engMhz = 1250 ∧ t.power.ctlMhz = 1500 ∧ t.mem = s.mem) ∧
      ((1520 < j ∧ j < 32768) ∨ 9 * s.power.plimit < w → exec (.trimRelease j w) s = .next { s with power.junction := j % 65536, power.power := w % 65536 }))

/-! ### Security and presence (R510 to R530) -/

/-- Maintenance descriptors (R512, R514 to R519, R526): outside an open window a maintenance command is refused, which SEC status shows; a firmware update ends pending in the inactive bank where its image verifies and marks the bank bad where not; an image that passes the steps of R518 is stored and applied, unlocked; a rotated key takes the next generation; the lifecycle goes
BLANK, PROVISIONED, SERVICE and back, and RETIRED loses the image, the keys and all of local DRAM; SEC_LOCK locks an image whose RWL registers all match it. -/
def Obligations.MaintenanceCommands : Prop :=
  ∀ (s : State) (d : Desc) (img : Image) (bs : List Byte) (u : State),
    (Accepted s d (infoSecFwUpdate s d) → maintOpen s d.did = false → exec (.secFwUpdate d) s = .next (finishDesc (maintRefuse (markStarted s d)) d stNotAuth 0 0 0)) ∧
    (Accepted s d (infoSecImageLoad s d) → maintOpen s d.did = false → exec (.secImageLoad d img) s = .next (finishDesc (maintRefuse (markStarted s d)) d stNotAuth 0 0 0)) ∧
    (Accepted s d (infoSecKeyRotate s d) → maintOpen s d.did = false → exec (.secKeyRotate d) s = .next (finishDesc (maintRefuse (markStarted s d)) d stNotAuth 0 0 0)) ∧
    (Accepted s d (infoSecLifecycle s d) → maintOpen s d.did = false → exec (.secLifecycle d) s = .next (finishDesc (maintRefuse (markStarted s d)) d stNotAuth 0 0 0)) ∧
    (Accepted s d (infoSecFwUpdate s d) → maintOpen s d.did = true → dfld d 32 0 32 ≠ 0 → dfld d 32 0 32 ≤ 33554432 → devRead (maintRecord (markStarted s d) d.did (dOpcode d)) (secWho d) (dfld d 24 0 64) (dfld d 32 0 32) = (stOk, bs, u) →
      (if Config.fwOk bs = true ∧ u.sec.fuseFw ≤ Config.fwSvn bs % 64 then ∃ t, Completes (.secFwUpdate d) s d (1 - u.sec.activeBank) 0 t ∧ t.sec.pendingBank = some (1 - u.sec.activeBank) ∧ t.sec.tries = 3 ∧ 1 - u.sec.activeBank ∉ t.sec.badBanks ∧ { t with sec := u.sec } = u
      else ∃ t, exec (.secFwUpdate d) s = .next (finishDesc t d stNotAuth 0 0 0) ∧ t.sec.pendingBank = none ∧ 1 - u.sec.activeBank ∈ t.sec.badBanks ∧ { t with sec := u.sec } = u)) ∧
    (Accepted s d (infoSecImageLoad s d) → maintOpen s d.did = true → (s.sec.lifecycle = 1 ∨ s.sec.lifecycle = 2) →
      (allStopped s = false → exec (.secImageLoad d img) s = .next (finishDesc (maintRecord (markStarted s d) d.did (dOpcode d)) d stDescInvalid 0 0 0)) ∧
      (allStopped s = true → devRead (maintRecord (markStarted s d) d.did (dOpcode d)) (secWho d) (dfld d 24 0 64) (min (dfld d 32 0 32) 16777217) = (stOk, bs, u) →
        (if safetyHeaderOk bs = false then exec (.secImageLoad d img) s = .next (finishDesc u d stDescInvalid 0 0 0)
        else if imageSigned u bs = false then exec (.secImageLoad d img) s = .next (finishDesc u d stNotAuth 0 0 0)
        else if recordsOk (bs.drop 256) = false ∨ imageOk u img = false then exec (.secImageLoad d img) s = .next (finishDesc u d stDescInvalid 0 0 0)
        else ∃ t slot, Completes (.secImageLoad d img) s d slot 0 t ∧ t.sec.image = some img ∧ t.sec.locked = false ∧ t.sec.imageSvn = hdr bs 8 1 ∧ t.sec.imageSlot = slot ∧
          t.sec.stored = some (img, hdr bs 24 48, hdr bs 8 1, false)))) ∧
    (Accepted s d (infoSecKeyRotate s d) → maintOpen s d.did = true → (s.sec.lifecycle = 1 ∨ s.sec.lifecycle = 2) → devRead (maintRecord (markStarted s d) d.did (dOpcode d)) (secWho d) (dfld d 24 0 64) 256 = (stOk, bs, u) →
      (certShape bs false = true → 1 ≤ hdr bs 0 1 → hdr bs 0 1 ≤ 3 → hdr bs 1 1 = genOf u (hdr bs 0 1) + 1 → hdr bs 1 1 ≤ 15 →
        if certSigned (keyOf u 1) bs = true then Completes (.secKeyRotate d) s d (hdr bs 1 1) 0 (installKey u (hdr bs 0 1) (hdr bs 1 1) (certKey bs)) else exec (.secKeyRotate d) s = .next (finishDesc u d stNotAuth 0 0 0)) ∧
      (hdr bs 1 1 ≠ genOf u (hdr bs 0 1) + 1 → exec (.secKeyRotate d) s = .next (finishDesc u d stDescInvalid 0 0 0))) ∧
    (Accepted s d (infoSecLifecycle s d) → maintOpen s d.did = true →
      (dfld d 16 0 2 = 3 → dfld d 20 0 32 = 0x52455449 → ∃ t, Completes (.secLifecycle d) s d 3 0 t ∧ t.sec.lifecycle = 3 ∧ t.sec.image = none ∧ t.sec.stored = none ∧ t.sec.ownerGen = 0 ∧ t.sec.safetyGen = 0 ∧ t.sec.debugGen = 0 ∧ (∀ k ∈ t.sec.keys, k.1 = 0) ∧ (∀ a, a < 2 ^ 48 → Memory.read t.mem a = 0)) ∧
      (dfld d 16 0 2 = 2 → s.sec.lifecycle = 1 → s.sec.image ≠ none → s.sec.locked = true → allStopped s = true → ∃ t, Completes (.secLifecycle d) s d 2 0 t ∧ t.sec.lifecycle = 2 ∧ t.sec.transitions = satAdd 8 s.sec.transitions 1) ∧
      (dfld d 16 0 2 = 1 → s.sec.lifecycle = 2 → allStopped s = true → ∃ t, Completes (.secLifecycle d) s d 1 0 t ∧ t.sec.lifecycle = 1 ∧ t.safe.req0 = false ∧ t.safe.req1 = false) ∧
      (dfld d 16 0 2 ≠ 3 → s.sec.lifecycle = 3 → exec (.secLifecycle d) s = .next (finishDesc (maintRecord (markStarted s d) d.did (dOpcode d)) d stDescInvalid 0 0 0))) ∧
    (Accepted s d (infoSecLock s d) →
      (s.sec.image = none → Refuses (.secLock d) s d stDescInvalid) ∧
      (∀ i, s.sec.image = some i → (rwlMatches s i = false → Refuses (.secLock d) s d stDescInvalid) ∧ (rwlMatches s i = true → Completes (.secLock d) s d 0 0 { markStarted s d with sec.locked := true, sec.stored := s.sec.stored.map (fun x => (x.1, x.2.1, x.2.2.1, true)) })))

/-- Presence and debug levels (R523 to R530): a close, or window_max minutes after the opening, ends the window and takes INTRUSIVE down to OBSERVE; an override opens the window within 60 s of the MAINT position that a broken seal refused, and is counted; OFF and OBSERVE are given on request, INTRUSIVE only under
presence, where in SERVICE both energise requests drop; a read of the nonce renews it; a failed debug authorisation is counted, and the eighth locks the port. -/
def Obligations.PresenceAndDebugLevels : Prop :=
  ∀ (s : State) (did level : Nat),
    (s.sec.open_ = false → exec .presenceWindowTimeout s = .next s) ∧
    (s.sec.open_ = true → ∃ t, exec .presenceWindowTimeout s = .next t ∧ t.sec.open_ = false ∧ t.sec.override = false ∧ t.up = max s.up (s.sec.openedAt + s.sec.windowMax * 60000000000) ∧ t.dbg.level = (if s.dbg.level = 2 then 1 else s.dbg.level) ∧ t.mem = s.mem) ∧
    (did ≠ 1 → did ≠ 2 → exec (.presenceClose did) s = .next s ∧ exec (.sealOverride did) s = .next s ∧ exec (.sealRearm did) s = .next s ∧ exec (.dbgLevelWrite did level) s = .next s) ∧
    ((did = 1 ∨ did = 2) → s.bootReady = true →
      (s.sec.open_ = true → ∃ t, exec (.presenceClose did) s = .next t ∧ t.sec.open_ = false ∧ t.sec.override = false ∧ t.dbg.level = (if s.dbg.level = 2 then 1 else s.dbg.level) ∧ t.mem = s.mem) ∧
      (∀ v, s.sec.key = 1 → s.sec.open_ = false → s.sec.refusedAt = some v → s.power.pstate ≤ 2 →
        (s.up ≤ v + 60000000000 → ∃ t, exec (.sealOverride did) s = .next t ∧ t.sec.open_ = true ∧ t.sec.override = true ∧ t.sec.openedAt = s.up ∧ t.power.overrides = satAdd 8 s.power.overrides 1 ∧ { t with sec := s.sec, power := s.power, safe := s.safe, sic := s.sic } = s) ∧
        (v + 60000000000 < s.up → exec (.sealOverride did) s = .next s)) ∧
      (s.sec.refusedAt = none → exec (.sealOverride did) s = .next s)) ∧
    ((did = 1 ∨ did = 2) →
      (level ≤ 1 → s.power.pstate ≤ 2 → ∃ t, exec (.dbgLevelWrite did level) s = .next t ∧ t.dbg.level = level ∧ t.dbg.source = 1 ∧ t.mem = s.mem) ∧
      (s.sec.lifecycle = 3 ∨ maintOpen s did = false → exec (.dbgLevelWrite did 2) s = .next { s with dbg.refused := true, sec.maintRefused := true }) ∧
      (s.sec.lifecycle ≠ 3 → maintOpen s did = true → ∃ t, exec (.dbgLevelWrite did 2) s = .next t ∧ t.dbg.level = 2 ∧ t.dbg.source = 1 ∧ (s.sec.lifecycle = 2 → s.epochs = [] → t.safe.req0 = false ∧ t.safe.req1 = false)) ∧ exec (.dbgLevelWrite did 3) s = .next s) ∧
    exec (.dbgNonceRead did) s = .next (emit { s with dbg.nonce := s.fresh, fresh := s.fresh + 1 } (.readData did 0x160010 (Config.nonce s.fresh 0))) ∧
    (s.dbg.portLocked = true → exec .dbgAuthGo s = .next s) ∧
    (s.dbg.portLocked = false → debugKey s = none → ∃ t, exec .dbgAuthGo s = .next t ∧ t.dbg.fails = satAdd 4 s.dbg.fails 1 ∧ t.dbg.portLocked = decide (8 ≤ s.dbg.fails + 1) ∧ t.dbg.level = s.dbg.level ∧ t.dbg.nonce = s.fresh ∧ t.mem = s.mem) ∧
    (∀ k w sig, s.dbg.portLocked = false → debugKey s = some k → w = Tbl.at (0 : W32) s.dbg.auth 0 → sig = (List.range 24).flatMap (fun k => leBytes 4 (Tbl.at (0 : W32) s.dbg.auth (k + 1)).toNat) → w.toNat % 4 ≤ 1 → s.power.pstate ≤ 2 →
      ∃ t, exec .dbgAuthGo s = .next t ∧ t.dbg.nonce = s.fresh ∧ (if Config.sigOk k (nonceBytes s ++ leBytes 4 w.toNat ++ leBytes 8 s.sec.serial) sig = true then t.dbg.level = w.toNat % 4 ∧ t.dbg.source = 2 else t.dbg.level = s.dbg.level ∧ t.dbg.fails = satAdd 4 s.dbg.fails 1))

/-- A seal rearm (R525): written by DID 1 or DID 2 while a window is open and the loop is intact, it clears the latch and writes the WARN record SEAL_REARMED; written while the loop is broken, or while no window is open, it is dropped. -/
def Obligations.SealRearm : Prop :=
  ∀ (s : State) (did : Nat), (did = 1 ∨ did = 2) → s.bootReady = true →
    (s.sec.open_ = true → s.sec.sealOk = true → ∃ t, exec (.sealRearm did) s = .next t ∧ t.sec = { s.sec with sealLatched := false } ∧ { t with sec := s.sec, safe := s.safe, sic := s.sic } = s ∧
      (s.safe.intakeUp = true → s.safe.intake.length < 56 → ∃ r, t.safe = { s.safe with intake := queueReport r s.safe.intake } ∧ r.severity = 1 ∧ r.event = 0x0155 ∧ r.time = s.now ∧ r.did = did)) ∧
    (s.sec.open_ = false ∨ s.sec.sealOk = false → exec (.sealRearm did) s = .next s)

/-! ### The plant ports (R559 to R571) -/

/-- Publications (R564 to R571): PUB_CONFIG stores a publication whose field list lies in range and completes with its frame bytes; guarded flows and publications of the image are not authorised; a record that is new to its publication becomes its pending message under the next SequenceNumber, over an unsent one; a plant port sends its eligible message and counts it. -/
def Obligations.Publications : Prop :=
  ∀ (s : State) (d : Desc) (k f : Nat), k = dfld d 16 0 7 → f = dfld d 18 0 12 →
    (Accepted s d (infoPubConfig s d) →
      (pubDenied s k (some f) = true → Refuses (.pubConfig d) s d stNotAuth) ∧
      (pubDenied s k (some f) = false → s.cfg.flows.find f = none → Refuses (.pubConfig d) s d stDescInvalid) ∧
      (∀ x bs u, pubDenied s k (some f) = false → s.cfg.flows.find f = some x → 1 ≤ dfld d 22 0 9 → dfld d 22 0 9 ≤ 256 → dfld d 24 0 48 % 8 = 0 → dfld d 56 0 16 ≠ 0 → dfld d 58 0 16 ≠ 0 →
        devRead (markStarted s d) (pubWho d.did k false f) (dfld d 24 0 48) (16 + 8 * dfld d 22 0 9) = (stOk, bs, u) → ofLe ((bs.drop 13).take 3) = 0 → (x.grid = none → (bs.getD 12 0).toNat ≠ 0) → u.cfg = s.cfg → entriesOk u f (ofLe ((bs.drop 8).take 4)) bs (dfld d 22 0 9) = true →
        pubPayload (dfld d 20 0 4) (listEntries bs (dfld d 22 0 9)) ≤ (if dbit d 17 1 = true then 1452 else 1472) →
        ∃ p, Completes (.pubConfig d) s d p.frameBytes 0 { u with cfg.pubs := u.cfg.pubs.put k p } ∧ p.frameBytes = pubFrame u (dfld d 17 0 1) (dbit d 17 1) (pubPayload (dfld d 20 0 4) (listEntries bs (dfld d 22 0 9))) ∧
          p.enable = dbit d 16 7 ∧ p.port = dfld d 17 0 1 ∧ p.flow = f ∧ p.lead = dfld d 20 0 4 ∧ p.writer = dfld d 58 0 16 ∧ p.base = ofLe (bs.take 8) ∧ p.fields = listEntries bs (dfld d 22 0 9) ∧ p.image = false)) ∧
    (Accepted s d (infoPubRemove s d) →
      (pubDenied s k none = true → Refuses (.pubRemove d) s d stNotAuth) ∧
      (pubDenied s k none = false → Completes (.pubRemove d) s d 0 0 { markStarted s d with cfg.pubs := s.cfg.pubs.drop k })) ∧
    (pubConfig s k = none → exec (.publicationAssemble k) s = .next s) ∧
    (∀ c p x a, pubConfig s k = some (c, p) → (histOf s p.flow).latest = some x → pubArea s c p x.epoch = some a →
      (p.enable = false → exec (.publicationAssemble k) s = .next s) ∧
      (s.eth.taken.find k = some (x.epoch, x.at_) → exec (.publicationAssemble k) s = .next s) ∧
      (p.enable = true → (plantPort s p.port).txEn = true → p.guarded = false → s.eth.taken.find k ≠ some (x.epoch, x.at_) →
        (0x10 ≤ x.status → ∃ t m, exec (.publicationAssemble k) s = .next t ∧ t.eth.pending.find k = some m ∧ m.pub = k ∧ m.port = p.port ∧ m.tov = x.tov ∧ Tbl.at 0 t.eth.seqs k = (Tbl.at 0 s.eth.seqs k + 1) % 65536 ∧ t.eth.taken.find k = some (x.epoch, x.at_) ∧
          (s.eth.pending.find k ≠ none → (plantPort t p.port).superseded = satAdd 16 (plantPort s p.port).superseded 1) ∧ { t with eth := s.eth } = s) ∧
        (∀ fs u, x.status < 0x10 → p.fields.any (fun f => f.2.2.2 == 1) = false → readFields (pubWho a.2 k p.guarded p.flow) a.1 (regionStart []) p.fields { s with eth.taken := s.eth.taken.put k (x.epoch, x.at_) } = (stOk, fs, u) →
          exec (.publicationAssemble k) s = .next (putMessage u k p x fs)))) ∧
    (s.eth.pending = [] → exec (.publicationTransmit k) s = .next s) ∧
    (∀ j m, s.eth.pending = [(j, m)] → (eligible s k m = false → exec (.publicationTransmit k) s = .next s) ∧
      (eligible s k m = true → s.dbg.boundary = false → ∃ t, exec (.publicationTransmit k) s = .next t ∧ t.eth.pending = [] ∧ (plantPort t k).sentMessages = satAdd 16 (plantPort s k).sentMessages 1 ∧
        (plantPort t k).busyUntil = s.up + lineNs (ingPort s (8 + k)).speed (pubFrame s k m.ip6 m.bytes.length) ∧
        t.out = .datagram k m.dstMac (if (ingPort s (8 + k)).vlanEn = true then some (m.pcp * 8192 + (ingPort s (8 + k)).vid) else none) m.ip6 m.dstIp m.udpDst m.bytes :: s.out ∧ { t with eth := s.eth, out := s.out } = s))

/-! ### The Octur link (R572 to R582) -/

/-- Ports and packets in transit (R572 to R577, R581): a HELLO that names the expected neighbour brings a port up, another one is a FAULT; a port retrains 10 ms after FAULT; a NAK replays from the packet it names, and the eighth replay of one packet, or 1 ms without an acknowledgement, is a FAULT; a packet in transit goes on along its route with one hop
more; every UP port sends the time; a TIME packet of the selected port gives the servo an offset sample where the distance is below 15 and the step generations agree. -/
def Obligations.OcturLink : Prop :=
  ∀ (s : State) (q : Nat) (x : OctPort), x = octPort s q → q < 4 →
    (s.oct.enable = true → (x.st = .training ∨ x.st = .hello) → s.dbg.tests (10 + 4 * q) 4 = false → ∀ m pq cols rows torus,
      (octNeighbour s.oct q = some m → pq = octOpposite q → cols = s.oct.cols → rows = s.oct.rows → torus = s.oct.torus → ∃ t, exec (.octurHello q m pq cols rows torus) s = .next t ∧ (octPort t q).st = .up ∧ (octPort t q).seq = 0 ∧ (octPort t q).unacked = [] ∧ (octPort t q).peerModule = m % 16 ∧ (∀ r, r ≠ q → octPort t r = octPort s r)) ∧
      (octNeighbour s.oct q ≠ some m → ∃ t, exec (.octurHello q m pq cols rows torus) s = .next t ∧ (octPort t q).st = .fault ∧ (octPort t q).faultAt = s.up ∧ (octPort t q).retrains = satAdd 8 x.retrains 1)) ∧
    (s.oct.enable = false → ∀ m pq cols rows torus, exec (.octurHello q m pq cols rows torus) s = .next s ∧ exec (.octurRetrain q) s = .next s) ∧
    (s.oct.enable = true → x.st = .fault → ∃ t, exec (.octurRetrain q) s = .next t ∧ octPort t q = { x with st := .training } ∧ t.up = max s.up (x.faultAt + 10000000) ∧ { t with oct := s.oct, icu := s.icu, up := s.up, now := s.now } = s) ∧
    (x.st ≠ .fault → exec (.octurRetrain q) s = .next s) ∧
    (x.st = .up → s.dbg.boundary = false → ∀ sq rest, rest = x.unacked.dropWhile (fun u => u.1 ≠ sq) →
      (rest = [] → exec (.octurReplay q sq) s = .next s) ∧
      (rest ≠ [] → (x.replayCount = 0 ∨ x.replaySeq ≠ sq) → ∃ t, exec (.octurReplay q sq) s = .next t ∧ octPort t q = { x with replays := satAdd 16 x.replays 1, replayCount := 1, replaySeq := sq } ∧ t.out.length = s.out.length + rest.length) ∧
      (rest ≠ [] → x.replayCount = 7 → x.replaySeq = sq → ∃ t, exec (.octurReplay q sq) s = .next t ∧ (octPort t q).st = .fault)) ∧
    (x.st ≠ .up → exec (.octurAckTimeout q) s = .next s) ∧ (x.unacked = [] → exec (.octurAckTimeout q) s = .next s) ∧
    (x.st = .up → x.unacked ≠ [] → ∃ t, exec (.octurAckTimeout q) s = .next t ∧ (octPort t q).st = .fault ∧ (octPort t q).retrains = satAdd 8 x.retrains 1 ∧ { t with oct := s.oct, safe := s.safe, icu := s.icu, sic := s.sic } = s) ∧
    (∀ p, p.port = q → x.st = .up → (p.dst = s.oct.module → exec (.octurPacketForward p) s = .next s) ∧
      (p.dst ≠ s.oct.module → p.crcOk = false → CrcNak (.octurPacketForward p) s p) ∧
      (∀ r, p.dst ≠ s.oct.module → p.crcOk = true → p.type ≤ 9 → octRoute s.oct p.dst = some r → (octPort s r).st ≠ .up → exec (.octurPacketForward p) s = .next s) ∧
      (∀ r, p.dst ≠ s.oct.module → p.crcOk = true → p.type ≤ 9 → octRoute s.oct p.dst = some r → (octPort s r).st = .up → exec (.octurPacketForward p) s = .next (octSend s r (BitVec.ofNat 128 (setBits p.header.toNat 20 4 (p.f 2 4 4 + 1))) p.payload))) ∧
    (∃ t, exec .octurTimeSend s = .next t ∧ (x.st = .up → (octPort t q).seq = (x.seq + 1) % 256) ∧ (x.st ≠ .up → octPort t q = x) ∧ t.mem = s.mem ∧ t.tb = s.tb) ∧
    (∀ p ta tb tc td ga gb, Arrives s p 7 →
      (octurHeard s = false ∨ p.port ≠ s.tb.octurPort → exec (.time p ta tb tc td ga gb) s = .next s) ∧
      (∀ u, u = (if octurTimed s = true then { s with oct.distance := min 15 (p.op % 16 + 1) } else s) → octurHeard s = true → p.port = s.tb.octurPort → (15 ≤ p.op % 16 ∨ ga ≠ gb → exec (.time p ta tb tc td ga gb) s = .next u) ∧
        (p.op % 16 < 15 → ga = gb → exec (.time p ta tb tc td ga gb) s = .next (servoSample u 3 (((tb - ta) - (td - tc)) / 2 - (BitVec.ofNat 32 (octPort s p.port).asym).toInt)))))

/-- Requests and answers (R99, R576, R578, R579, R582): a remote read or write that passes the checks is made and answered, one that fails is answered with its status and recorded, and its bytes of memory stay; a remote signal adds to its knot; an answer ends the request it names, and a signal that waited for it leaves; a refused knot signal and a request without an answer in 100 µs are reported; OCT_RESET
goes to its module or completes with TRANSLATION; a reset command is accepted from DID 1 under octur_reset_en alone; a packet with a wrong CRC is counted and answered with a NAK. -/
def Obligations.OcturRequests : Prop :=
  ∀ (s : State) (p : OctPacket) (b : Bool) (d : Desc) (r : OctReq),
    ((octPort s p.port).st = .up → p.port < 4 → p.crcOk = false → CrcNak (.rdReq p b) s p ∧ CrcNak (.wrReq p b) s p ∧ CrcNak (.rdResp p) s p ∧ CrcNak (.wrAck p) s p ∧ CrcNak (.knotAdd p) s p ∧ CrcNak (.knotAck p) s p ∧ CrcNak (.resetCmd p) s p ∧ CrcNak (.resetAck p) s p) ∧
    ((octPort s p.port).st ≠ .up → exec (.rdReq p b) s = .next s ∧ exec (.wrReq p b) s = .next s ∧ exec (.rdResp p) s = .next s ∧ exec (.wrAck p) s = .next s ∧ exec (.knotAdd p) s = .next s ∧ exec (.knotAck p) s = .next s ∧ exec (.resetCmd p) s = .next s ∧ exec (.resetAck p) s = .next s) ∧
    (Arrives s p 1 → (octCheck s p false p.len = stOk → poisonedIn s p.addr p.len = none → exec (.rdReq p false) s = .next (octAnswer (cacheTouch s p.did p.guarded false p.addr p.len) p 2 1 (p.len / 4) stOk (Memory.reads s.mem (Space.key .dram p.addr) p.len))) ∧
      (∀ st, octCheck s p false p.len = st → st ≠ stOk → exec (.rdReq p false) s = .next (octAnswer (octDenied s p false st) p 2 1 0 st []))) ∧
    (Arrives s p 3 → (octCheck s p true p.payload.length = stOk → ∃ t, exec (.wrReq p false) s = .next t ∧ t.mem = Memory.writes s.mem (Space.key .dram p.addr) p.payload ∧
        ∀ a, (a < Space.key .dram p.addr ∨ Space.key .dram p.addr + p.payload.length ≤ a) → Memory.read t.mem a = Memory.read s.mem a) ∧
      (octCheck s p true p.payload.length ≠ stOk → ∃ t, exec (.wrReq p false) s = .next t ∧ t.mem = s.mem ∧ (Tbl.at MmuFault.reset t.mmu.faults p.did).valid = true)) ∧
    (Arrives s p 5 → s.knots.cycle = none → (signalCheck s p.did p.guarded (p.f 6 0 13) = stOk → (knotOf s (p.f 6 0 13)).st ≠ .poisoned → ∃ t, exec (.knotAdd p) s = .next t ∧ (knotOf t (p.f 6 0 13)).value = (knotOf s (p.f 6 0 13)).value + BitVec.ofNat 32 p.op ∧ (∀ j, j ≠ p.f 6 0 13 → knotOf t j = knotOf s j)) ∧
      (signalCheck s p.did p.guarded (p.f 6 0 13) ≠ stOk → ∃ t, exec (.knotAdd p) s = .next t ∧ t.knots = s.knots)) ∧
    (octRequestOf s p = none → (Arrives s p 2 → exec (.rdResp p) s = .next s) ∧ (Arrives s p 4 → exec (.wrAck p) s = .next s) ∧ (Arrives s p 6 → exec (.knotAck p) s = .next s) ∧ (Arrives s p 9 → exec (.resetAck p) s = .next s)) ∧
    (octRequestOf s p = some r → s.oct.held = [] →
      (Arrives s p 2 → r.kind = .read → exec (.rdResp p) s = .next { s with oct.requests := s.oct.requests.erase r }) ∧ (Arrives s p 4 → r.kind = .write → exec (.wrAck p) s = .next { s with oct.requests := s.oct.requests.erase r }) ∧
      (∀ k g, Arrives s p 6 → r.kind = .knot k g → (p.status = stOk → exec (.knotAck p) s = .next { s with oct.requests := s.oct.requests.erase r }) ∧ (p.status ≠ stOk → ∃ t, exec (.knotAck p) s = .next t ∧ t.oct.requests = s.oct.requests.erase r ∧ t.oct.knotsLost = satAdd 16 s.oct.knotsLost 1)) ∧
      (Arrives s p 9 → r.kind = .reset d → exec (.resetAck p) s = .next (finishDesc { s with oct.requests := s.oct.requests.erase r } d (if p.status = stOk then stOk else stNotAuth) 0 0 0))) ∧
    (∀ h, octRequestOf s p = some r → s.oct.held = [h] → Arrives s p 4 → r.kind = .write → writesOpen { s with oct.requests := s.oct.requests.erase r } h.src h.module = false →
      exec (.wrAck p) s = .next (sendSignal { s with oct.requests := s.oct.requests.erase r, oct.held := [] } h)) ∧
    (∀ tag, (s.oct.requests.find? (fun r => r.tag == tag) = none → exec (.octurRequestTimeout tag) s = .next s) ∧
      (s.oct.requests.find? (fun r => r.tag == tag) = some r → s.oct.held = [] → (r.kind = .read ∨ r.kind = .write) → ∃ t, exec (.octurRequestTimeout tag) s = .next t ∧ t.oct.requests = s.oct.requests.erase r ∧ t.oct.unreachable = satAdd 16 s.oct.unreachable 1 ∧ t.up = max s.up (r.issued + 100000))) ∧
    (Accepted s d (infoOctReset s d) →
      (octRoute s.oct (dfld d 16 0 4) = none → exec (.octReset d) s = .next (finishDesc (raiseUnreachable (markStarted s d) (dfld d 16 0 4) d.did) d stTranslation 0 0 0)) ∧
      (∀ q, octRoute s.oct (dfld d 16 0 4) = some q → (octPort s q).st = .up → ∃ t x, exec (.octReset d) s = .next t ∧ t.oct.requests = s.oct.requests ++ [x] ∧ x.kind = .reset d ∧ x.module = dfld d 16 0 4 ∧ x.issued = s.up)) ∧
    (Arrives s p 8 → (octurAccepts s p.did = false → ∃ t, exec (.resetCmd p) s = .next t ∧ t.power = s.power ∧ t.mem = s.mem) ∧
      (octurAccepts s p.did = true → logicPowered s = true → s.power.seqCause = none → ∃ t, exec (.resetCmd p) s = .next t ∧ t.power.lastCause = 7 ∧ Tbl.at 0 t.power.counts 7 = satAdd 16 (Tbl.at 0 s.power.counts 7) 1))

/-! ### Test and diagnostics (R629 to R636) -/

/-- Link tests (R629 to R631, R637): a start on the link that the DID selects runs the test with cleared counters, or leaves the reason of its refusal; a stop keeps the counters; an injected error counts where the checker is in sync; the checker gains sync and, in sync, counts the errors of the line and loses sync where the line is bad.
The debug port and the trace port (R632, R633, R635, R636): IDCODE answers at every level; a boundary instruction drives the cells at INTRUSIVE, and is refused and counted below; leaving one is a DEBUG_CMD reset; SAMPLE_PRELOAD needs OBSERVE; an undefined code is counted and acts as BYPASS; a production instruction is in force in BLANK at INTRUSIVE under a service certificate; the trace
port sends its records while it runs. -/
def Obligations.LinkTestsAndDebugPort : Prop :=
  (∀ (s : State) (did l : Nat) (x : LinkTest), x = linkTest s l →
    (selLink s did = none → exec (.linkTestStart did 0 0) s = .next s ∧ exec (.linkTestStop did) s = .next s ∧ exec (.linkTestInject did) s = .next s) ∧
    (selLink s did = some l → ∀ loop pat, loop < 4 → pat < 16 →
      (x.run = true → exec (.linkTestStart did loop pat) s = .next s) ∧
      (x.run = false → testRefusal s l loop pat = 0 → ∃ t, exec (.linkTestStart did loop pat) s = .next t ∧ linkTest t l = { x with run := true, loop := loop, pattern := pat, state := 1, sync := false, reason := 0, resyncs := 0, errors := 0, bits := 0 } ∧ (∀ j, j ≠ l → linkTest t j = linkTest s j) ∧ t.mem = s.mem) ∧
      (x.run = false → testRefusal s l loop pat ≠ 0 → exec (.linkTestStart did loop pat) s = .next (setLink s l { x with loop := loop, pattern := pat, state := 2, reason := testRefusal s l loop pat }))) ∧
    (selLink s did = some l → (x.run = false → exec (.linkTestStop did) s = .next s) ∧ (x.run = true → ∃ t, exec (.linkTestStop did) s = .next t ∧ linkTest t l = { x with run := false, state := 3, sync := false, reason := 0, bits := bitsNow s l } ∧ (∀ j, j ≠ l → linkTest t j = linkTest s j)) ∧
      (x.run = true → x.sync = true → exec (.linkTestInject did) s = .next (setLink s l { x with errors := satAdd 32 x.errors 1 })) ∧ (x.run = false ∨ x.sync = false → exec (.linkTestInject did) s = .next s)) ∧
    (∀ e b, (x.run = false → exec (.patternCheckerSync l e b) s = .next s) ∧
      (x.run = true → x.sync = false → exec (.patternCheckerSync l e b) s = .next (setLink s l { x with sync := true, since := s.up })) ∧
      (x.run = true → x.sync = true → exec (.patternCheckerSync l e false) s = .next (setLink s l { x with errors := satAdd 32 x.errors e })) ∧
      (x.run = true → x.sync = true → ∃ t, exec (.patternCheckerSync l e true) s = .next t ∧ (linkTest t l).sync = false ∧ (linkTest t l).resyncs = satAdd 16 x.resyncs 1 ∧ (linkTest t l).errors = satAdd 32 x.errors e ∧ { t with dbg := s.dbg } = s))) ∧
  (∀ (s : State) (pins cells code cp : Nat) (pc : W32),
    (s.dbg.boundary = false → s.dbg.production = false →
      exec .idcode s = .next (emit { s with dbg.ir := 2 } (.tdo 0x272403CF)) ∧
      (∀ c v, ((c = .extest ∧ v = 0) ∨ (c = .extestPulse ∧ v = 3) ∨ (c = .extestTrain ∧ v = 4)) →
        (s.dbg.level = 2 → ∃ t, exec c s = .next t ∧ t.dbg = { s.dbg with ir := v, boundary := true } ∧ t.out = .boundary s.dbg.cells :: s.out ∧ { t with dbg := s.dbg, out := s.out } = s) ∧
        (s.dbg.level ≠ 2 → ∃ t, exec c s = .next t ∧ t.dbg = { s.dbg with ir := v, refusedIr := satAdd 16 s.dbg.refusedIr 1 } ∧ { t with dbg := s.dbg, out := s.out } = s)) ∧
      (1 ≤ s.dbg.level → ∃ t, exec (.samplePreload pins cells) s = .next t ∧ t.dbg = { s.dbg with ir := 1, cells := cells } ∧ t.out = .tdo pins :: s.out ∧ { t with dbg := s.dbg, out := s.out } = s) ∧
      (s.dbg.level = 0 → ∃ t, exec (.samplePreload pins cells) s = .next t ∧ t.dbg = { s.dbg with ir := 1, refusedIr := satAdd 16 s.dbg.refusedIr 1 }) ∧
      (∃ t, exec (.bypass 0xFF) s = .next t ∧ t.dbg = { s.dbg with ir := 0xFF } ∧ t.out = .tdo 0 :: s.out) ∧
      (irDefined (code % 256) = true → exec (.bypass code) s = .next s) ∧
      (irDefined (code % 256) = false → code % 256 ≠ 0xFF → ∃ t, exec (.bypass code) s = .next t ∧ t.dbg = { s.dbg with ir := code % 256, refusedIr := satAdd 16 s.dbg.refusedIr 1 }) ∧
      (s.sec.lifecycle = 0 → s.dbg.level = 2 → s.dbg.source = 2 → exec (.productionInstruction code) s = .next { s with dbg.ir := 0x10 + code % 16, dbg.production := true }) ∧
      (s.sec.lifecycle ≠ 0 → ∃ t, exec (.productionInstruction code) s = .next t ∧ t.dbg.production = false ∧ t.dbg.refusedIr = satAdd 16 s.dbg.refusedIr 1)) ∧
    (s.dbg.boundary = true → s.dbg.ir ≠ 2 → logicPowered s = true → ∃ t, exec .idcode s = .next t ∧ t.dbg.boundary = false ∧ t.dbg.ir = 2 ∧ Tbl.at 0 t.power.counts 11 = satAdd 16 (Tbl.at 0 s.power.counts 11) 1) ∧
    (s.dbg.level = 0 → exec .traceSync s = .next s ∧ exec (.tracePcSample cp pc) s = .next s) ∧
    (s.dbg.level ≠ 0 → s.dbg.boundary = false → s.dbg.traceFree ≤ 3 * s.up → s.dbg.traceDropped = 0 →
      (∃ t, exec .traceSync s = .next t ∧ t.dbg.traceSyncs = (s.dbg.traceSyncs + 1) % 2 ^ 32 ∧ t.out = .trace (traceBits s 0 0 0 s.dbg.traceSyncs) :: s.out ∧ { t with dbg := s.dbg, out := s.out } = s) ∧
      (s.dbg.traceTypes.testBit 5 = false → exec (.tracePcSample cp pc) s = .next s) ∧
      (s.dbg.traceTypes.testBit 5 = true → ∃ t, exec (.tracePcSample cp pc) s = .next t ∧ t.out = .trace (traceBits s 5 0 cp pc.toNat) :: s.out ∧ { t with dbg := s.dbg, out := s.out } = s)))
end

