-- ==== Sys2Proof/Laws/Memory.lean ====
section
/-! SUPPORT. Laws of the byte memory: read after write, and that every operation keeps the canonical form. -/

namespace Sys2Proof.Machine

theorem Memory.read_write_same (m : List Host.Cell) (a : Nat) (b : Byte) : Memory.wf m = true → Memory.read (Memory.write m a b) a = b := by
  suffices h : ∀ lo, Memory.above lo m = true → Memory.read (Memory.write m a b) a = b from h 0
  induction m with
  | nil => intro lo _; simp only [Memory.write]; split <;> simp_all [Memory.read]
  | cons p m ih =>
    rcases p with ⟨k, c⟩
    intro lo h
    have absent : ∀ (m : List Host.Cell) (lo : Nat), Memory.above lo m = true → a < lo → Memory.read m a = Memory.blank := by
      intro m
      induction m with
      | nil => intros; rfl
      | cons q m ih2 =>
        rcases q with ⟨k2, c2⟩
        intro lo h1 h2
        simp [Memory.above] at h1
        simp only [Memory.read]
        rw [if_neg (by omega)]
        exact ih2 _ h1.2 (by omega)
    simp [Memory.above] at h
    simp only [Memory.write]
    split
    · split
      · subst_vars; exact absent m _ h.2 (by omega)
      · simp [Memory.read]
    · split
      · split
        · subst_vars; rw [absent _ a.succ (by simp [Memory.above, h]; omega) (by omega)]
        · simp [Memory.read]
      · simp only [Memory.read]; rw [if_neg (by assumption)]; exact ih _ h.2

theorem Memory.read_write_other (m : List Host.Cell) {a a' : Nat} (b : Byte) (h : a' ≠ a) :
    Memory.read (Memory.write m a b) a' = Memory.read m a' := by
  induction m with
  | nil => simp only [Memory.write]; split <;> simp [Memory.read, h]
  | cons p m ih =>
    rcases p with ⟨k, c⟩
    simp only [Memory.write]
    split
    · split <;> (subst_vars; simp [Memory.read, h])
    · split
      · split <;> simp [Memory.read, h]
      · simp [Memory.read, ih]

theorem Memory.above_mono {m : List Host.Cell} {lo lo' : Nat} (h : Memory.above lo' m = true) (le : lo ≤ lo') : Memory.above lo m = true := by
  cases m with
  | nil => rfl
  | cons p m => rcases p with ⟨k, c⟩; simp [Memory.above] at h ⊢; exact ⟨⟨by omega, h.1.2⟩, h.2⟩

theorem Memory.above_write {m : List Host.Cell} {lo a : Nat} {b : Byte} (h : Memory.above lo m = true) (le : lo ≤ a) :
    Memory.above lo (Memory.write m a b) = true := by
  induction m generalizing lo with
  | nil => simp only [Memory.write]; split <;> simp_all [Memory.above]
  | cons p m ih =>
    rcases p with ⟨k, c⟩
    simp [Memory.above] at h
    simp only [Memory.write]
    split
    · split
      · exact Memory.above_mono h.2 (by omega)
      · subst_vars; simp_all [Memory.above]
    · split
      · split
        · simp [Memory.above, h]
        · simp_all [Memory.above]
      · simp only [Memory.above, Bool.and_eq_true, decide_eq_true_eq, ne_eq]
        exact ⟨⟨by omega, h.1.2⟩, ih h.2 (by omega)⟩

/-- Writing a byte keeps the canonical form. -/
theorem Memory.wf_write {m : List Host.Cell} (a : Nat) (b : Byte) (h : Memory.wf m = true) : Memory.wf (Memory.write m a b) = true :=
  Memory.above_write h (Nat.zero_le a)

/-- Writing bytes keeps the canonical form. -/
theorem Memory.wf_writes {m : List Host.Cell} (a : Nat) (bs : List Byte) (h : Memory.wf m = true) : Memory.wf (Memory.writes m a bs) = true := by
  induction bs generalizing m a with
  | nil => exact h
  | cons b bs ih => exact ih _ (Memory.wf_write a b h)

/-- Clearing the bytes of a range of addresses keeps the canonical form. -/
theorem Memory.wf_filter {m : List Host.Cell} (f : Host.Cell → Bool) (h : Memory.wf m = true) : Memory.wf (m.filter f) = true := by
  suffices g : ∀ lo, Memory.above lo m = true → Memory.above lo (m.filter f) = true from g 0 h
  clear h
  induction m with
  | nil => intros; rfl
  | cons p m ih =>
    rcases p with ⟨k, c⟩
    intro lo h
    simp [Memory.above] at h
    simp only [List.filter]
    split
    · simp only [Memory.above, Bool.and_eq_true, decide_eq_true_eq, ne_eq]
      exact ⟨⟨by omega, h.1.2⟩, ih _ h.2⟩
    · exact Memory.above_mono (ih _ h.2) (by omega)

/-- Bytes outside those written read as before. -/
theorem Memory.read_writes_outside (m : List Host.Cell) {a a' : Nat} (bs : List Byte) (h : a' < a ∨ a + bs.length ≤ a') :
    Memory.read (Memory.writes m a bs) a' = Memory.read m a' := by
  induction bs generalizing m a with
  | nil => rfl
  | cons b bs ih =>
    simp only [List.length_cons] at h
    simp only [Memory.writes]
    rw [ih _ (by omega), Memory.read_write_other _ _ (by omega)]

/-- The bytes written read back. -/
theorem Memory.reads_writes (m : List Host.Cell) (a : Nat) (bs : List Byte) (h : Memory.wf m = true) :
    Memory.reads (Memory.writes m a bs) a bs.length = bs := by
  induction bs generalizing m a with
  | nil => rfl
  | cons b bs ih =>
    simp only [Memory.writes, List.length_cons, Memory.reads]
    rw [Memory.read_writes_outside _ _ (by omega), Memory.read_write_same _ _ _ h, ih _ _ (Memory.wf_write a b h)]

/-- Clearing bytes leaves those it keeps. -/
theorem Memory.read_filter_other (m : List Host.Cell) (f : Nat → Bool) {a : Nat} (h : f a = true) :
    Memory.read (m.filter (fun c => f c.1)) a = Memory.read m a := by
  induction m with
  | nil => rfl
  | cons p m ih =>
    rcases p with ⟨k, c⟩
    simp only [List.filter]
    split
    · simp [Memory.read, ih]
    · simp only [Memory.read]
      rw [if_neg (by intro e; subst e; simp_all)]
      exact ih

end Sys2Proof.Machine
end

