-- ==== Sys2Proof/Laws/Tables.lean ====
section
/-! SUPPORT. Laws of the sparse tables: what an entry reads as after a write, and that a second write of an entry replaces the first. -/

namespace Sys2Proof

variable {α : Type}

@[simp] theorem Tbl.find_nil (i : Nat) : Tbl.find ([] : Tbl α) i = none := rfl

@[simp] theorem Tbl.at_nil (d : α) (i : Nat) : Tbl.at d ([] : Tbl α) i = d := rfl

@[simp] theorem Tbl.find_put_same (t : Tbl α) (i : Nat) (x : α) : Tbl.find (Tbl.put t i x) i = some x := by
  induction t with
  | nil => simp [Tbl.put, Tbl.find]
  | cons p t ih => rcases p with ⟨k, v⟩; simp only [Tbl.put]; split <;> (try split) <;> simp_all [Tbl.find]

theorem Tbl.find_put_other (t : Tbl α) {i j : Nat} (x : α) (h : j ≠ i) : Tbl.find (Tbl.put t i x) j = Tbl.find t j := by
  induction t with
  | nil => simp [Tbl.put, Tbl.find, h]
  | cons p t ih =>
    rcases p with ⟨k, v⟩
    simp only [Tbl.put]
    split
    · subst_vars; simp [Tbl.find, h]
    · split <;> simp [Tbl.find, h, ih]

@[simp] theorem Tbl.at_put_same (d : α) (t : Tbl α) (i : Nat) (x : α) : Tbl.at d (Tbl.put t i x) i = x := by
  simp [Tbl.at]

theorem Tbl.at_put_other (d : α) (t : Tbl α) {i j : Nat} (x : α) (h : j ≠ i) : Tbl.at d (Tbl.put t i x) j = Tbl.at d t j := by
  simp [Tbl.at, Tbl.find_put_other t x h]

@[simp] theorem Tbl.put_put (t : Tbl α) (i : Nat) (x y : α) : Tbl.put (Tbl.put t i x) i y = Tbl.put t i y := by
  induction t with
  | nil => simp [Tbl.put]
  | cons p t ih =>
    rcases p with ⟨k, v⟩
    simp only [Tbl.put]
    split
    · simp [Tbl.put]
    · split <;> simp_all [Tbl.put]

theorem Tbl.find_drop_same (t : Tbl α) (i : Nat) : Tbl.find (Tbl.drop t i) i = none := by
  induction t with
  | nil => rfl
  | cons p t ih =>
    rcases p with ⟨k, v⟩
    by_cases h : k = i <;> simp_all [Tbl.drop, Tbl.find, List.filter]
    intro e; exact absurd e.symm h

theorem Tbl.find_drop_other (t : Tbl α) {i j : Nat} (h : j ≠ i) : Tbl.find (Tbl.drop t i) j = Tbl.find t j := by
  induction t with
  | nil => rfl
  | cons p t ih =>
    rcases p with ⟨k, v⟩
    by_cases e : k = i
    · subst e; simp_all [Tbl.drop, Tbl.find, List.filter]
    · simp_all [Tbl.drop, Tbl.find, List.filter]

theorem Tbl.find_mapV (t : Tbl α) (f : Nat → α → α) (i : Nat) : Tbl.find (Tbl.mapV t f) i = (Tbl.find t i).map (f i) := by
  induction t with
  | nil => rfl
  | cons p t ih =>
    rcases p with ⟨k, v⟩
    by_cases h : i = k
    · subst h; simp [Tbl.mapV, Tbl.find]
    · simpa [Tbl.mapV, Tbl.find, h] using ih

end Sys2Proof
end

