-- ==== Sys2Proof/Laws/State.lean ====
section
/-! SUPPORT. Named updates of the state: what each one writes, and that every other part and every other entry reads as before. -/

namespace Sys2Proof.Machine

/-! ### setThread: an engine thread -/

@[simp] theorem thread_setThread_same (s : State) (t : Nat) (x) : thread (setThread s t x) t = x := by simp [thread, setThread]

theorem thread_setThread_other (s : State) {t j : Nat} (x) (h : j ≠ t) : thread (setThread s t x) j = thread s j := by simp [thread, setThread, Tbl.at_put_other _ _ _ h]

@[simp] theorem setThread_fields (s : State) (t : Nat) (x) :
    (setThread s t x).pending = s.pending ∧ (setThread s t x).bootReady = s.bootReady ∧ (setThread s t x).out = s.out ∧ (setThread s t x).fresh = s.fresh ∧
    (setThread s t x).now = s.now ∧ (setThread s t x).up = s.up ∧ (setThread s t x).mem = s.mem ∧ (setThread s t x).mmu = s.mmu ∧ (setThread s t x).tlb = s.tlb ∧
    (setThread s t x).hif = s.hif ∧ (setThread s t x).knots = s.knots ∧ (setThread s t x).qmu = s.qmu ∧ (setThread s t x).safe = s.safe ∧ (setThread s t x).power = s.power ∧
    (setThread s t x).tb = s.tb ∧ (setThread s t x).fldT = s.fldT ∧ (setThread s t x).trig = s.trig ∧ (setThread s t x).ing = s.ing ∧ (setThread s t x).spl = s.spl ∧
    (setThread s t x).xft = s.xft ∧ (setThread s t x).geo = s.geo ∧ (setThread s t x).eth = s.eth ∧ (setThread s t x).oct = s.oct ∧ (setThread s t x).seq = s.seq ∧
    (setThread s t x).slv = s.slv ∧ (setThread s t x).lyt = s.lyt ∧ (setThread s t x).icu = s.icu ∧ (setThread s t x).sic = s.sic ∧ (setThread s t x).sec = s.sec ∧
    (setThread s t x).fld = s.fld ∧ (setThread s t x).dbg = s.dbg ∧ (setThread s t x).cfg = s.cfg ∧ (setThread s t x).live = s.live ∧ (setThread s t x).cfgPrev = s.cfgPrev ∧
    (setThread s t x).changedAt = s.changedAt ∧ (setThread s t x).epochs = s.epochs ∧ (setThread s t x).results = s.results ∧ (setThread s t x).modesNext = s.modesNext ∧
    (setThread s t x).modes = s.modes ∧ (setThread s t x).readHi = s.readHi ∧ (setThread s t x).writeLo = s.writeLo := by
  and_intros <;> rfl

@[simp] theorem setThread_others (s : State) (t : Nat) (x) :
    (∀ j, engineOf (setThread s t x) j = engineOf s j) ∧ (∀ j, subRing (setThread s t x) j = subRing s j) ∧ (∀ j, comRing (setThread s t x) j = comRing s j) ∧
    (∀ j, queueOf (setThread s t x) j = queueOf s j) ∧ (∀ j, flowSafe (setThread s t x) j = flowSafe s j) ∧ (∀ j, unitSafe (setThread s t x) j = unitSafe s j) ∧
    (∀ j, cadOf (setThread s t x) j = cadOf s j) ∧ (∀ j, streamOf (setThread s t x) j = streamOf s j) ∧ (∀ j, jointSt (setThread s t x) j = jointSt s j) ∧
    (∀ j, ergOf (setThread s t x) j = ergOf s j) ∧ (∀ j, gridOf (setThread s t x) j = gridOf s j) ∧ (∀ j, plantPort (setThread s t x) j = plantPort s j) ∧
    (∀ j, octPort (setThread s t x) j = octPort s j) ∧ (∀ j, poolOf (setThread s t x) j = poolOf s j) ∧ (∀ j, pipeOf (setThread s t x) j = pipeOf s j) ∧
    (∀ j, solverOf (setThread s t x) j = solverOf s j) ∧ (∀ j, lytOf (setThread s t x) j = lytOf s j) ∧ (∀ j, linkTest (setThread s t x) j = linkTest s j) := by
  and_intros <;> exact fun _ => rfl

/-! ### setEngine: an engine -/

@[simp] theorem engineOf_setEngine_same (s : State) (g : Nat) (x) : engineOf (setEngine s g x) g = x := by simp [engineOf, setEngine]

theorem engineOf_setEngine_other (s : State) {g j : Nat} (x) (h : j ≠ g) : engineOf (setEngine s g x) j = engineOf s j := by simp [engineOf, setEngine, Tbl.at_put_other _ _ _ h]

@[simp] theorem setEngine_fields (s : State) (g : Nat) (x) :
    (setEngine s g x).pending = s.pending ∧ (setEngine s g x).bootReady = s.bootReady ∧ (setEngine s g x).out = s.out ∧ (setEngine s g x).fresh = s.fresh ∧
    (setEngine s g x).now = s.now ∧ (setEngine s g x).up = s.up ∧ (setEngine s g x).mem = s.mem ∧ (setEngine s g x).mmu = s.mmu ∧ (setEngine s g x).tlb = s.tlb ∧
    (setEngine s g x).hif = s.hif ∧ (setEngine s g x).knots = s.knots ∧ (setEngine s g x).qmu = s.qmu ∧ (setEngine s g x).safe = s.safe ∧ (setEngine s g x).power = s.power ∧
    (setEngine s g x).tb = s.tb ∧ (setEngine s g x).fldT = s.fldT ∧ (setEngine s g x).trig = s.trig ∧ (setEngine s g x).ing = s.ing ∧ (setEngine s g x).spl = s.spl ∧
    (setEngine s g x).xft = s.xft ∧ (setEngine s g x).geo = s.geo ∧ (setEngine s g x).eth = s.eth ∧ (setEngine s g x).oct = s.oct ∧ (setEngine s g x).seq = s.seq ∧
    (setEngine s g x).slv = s.slv ∧ (setEngine s g x).lyt = s.lyt ∧ (setEngine s g x).icu = s.icu ∧ (setEngine s g x).sic = s.sic ∧ (setEngine s g x).sec = s.sec ∧
    (setEngine s g x).fld = s.fld ∧ (setEngine s g x).dbg = s.dbg ∧ (setEngine s g x).cfg = s.cfg ∧ (setEngine s g x).live = s.live ∧ (setEngine s g x).cfgPrev = s.cfgPrev ∧
    (setEngine s g x).changedAt = s.changedAt ∧ (setEngine s g x).epochs = s.epochs ∧ (setEngine s g x).results = s.results ∧ (setEngine s g x).modesNext = s.modesNext ∧
    (setEngine s g x).modes = s.modes ∧ (setEngine s g x).readHi = s.readHi ∧ (setEngine s g x).writeLo = s.writeLo := by
  and_intros <;> rfl

@[simp] theorem setEngine_others (s : State) (g : Nat) (x) :
    (∀ j, thread (setEngine s g x) j = thread s j) ∧ (∀ j, subRing (setEngine s g x) j = subRing s j) ∧ (∀ j, comRing (setEngine s g x) j = comRing s j) ∧
    (∀ j, queueOf (setEngine s g x) j = queueOf s j) ∧ (∀ j, flowSafe (setEngine s g x) j = flowSafe s j) ∧ (∀ j, unitSafe (setEngine s g x) j = unitSafe s j) ∧
    (∀ j, cadOf (setEngine s g x) j = cadOf s j) ∧ (∀ j, streamOf (setEngine s g x) j = streamOf s j) ∧ (∀ j, jointSt (setEngine s g x) j = jointSt s j) ∧
    (∀ j, ergOf (setEngine s g x) j = ergOf s j) ∧ (∀ j, gridOf (setEngine s g x) j = gridOf s j) ∧ (∀ j, plantPort (setEngine s g x) j = plantPort s j) ∧
    (∀ j, octPort (setEngine s g x) j = octPort s j) ∧ (∀ j, poolOf (setEngine s g x) j = poolOf s j) ∧ (∀ j, pipeOf (setEngine s g x) j = pipeOf s j) ∧
    (∀ j, solverOf (setEngine s g x) j = solverOf s j) ∧ (∀ j, lytOf (setEngine s g x) j = lytOf s j) ∧ (∀ j, linkTest (setEngine s g x) j = linkTest s j) := by
  and_intros <;> exact fun _ => rfl

/-! ### setSub: a submission ring -/

@[simp] theorem subRing_setSub_same (s : State) (r : Nat) (x) : subRing (setSub s r x) r = x := by simp [subRing, setSub]

theorem subRing_setSub_other (s : State) {r j : Nat} (x) (h : j ≠ r) : subRing (setSub s r x) j = subRing s j := by simp [subRing, setSub, Tbl.at_put_other _ _ _ h]

@[simp] theorem setSub_fields (s : State) (r : Nat) (x) :
    (setSub s r x).pending = s.pending ∧ (setSub s r x).bootReady = s.bootReady ∧ (setSub s r x).out = s.out ∧ (setSub s r x).fresh = s.fresh ∧ (setSub s r x).now = s.now ∧
    (setSub s r x).up = s.up ∧ (setSub s r x).mem = s.mem ∧ (setSub s r x).mmu = s.mmu ∧ (setSub s r x).tlb = s.tlb ∧ (setSub s r x).knots = s.knots ∧ (setSub s r x).qmu = s.qmu ∧
    (setSub s r x).eng = s.eng ∧ (setSub s r x).safe = s.safe ∧ (setSub s r x).power = s.power ∧ (setSub s r x).tb = s.tb ∧ (setSub s r x).fldT = s.fldT ∧
    (setSub s r x).trig = s.trig ∧ (setSub s r x).ing = s.ing ∧ (setSub s r x).spl = s.spl ∧ (setSub s r x).xft = s.xft ∧ (setSub s r x).geo = s.geo ∧ (setSub s r x).eth = s.eth ∧
    (setSub s r x).oct = s.oct ∧ (setSub s r x).seq = s.seq ∧ (setSub s r x).slv = s.slv ∧ (setSub s r x).lyt = s.lyt ∧ (setSub s r x).icu = s.icu ∧ (setSub s r x).sic = s.sic ∧
    (setSub s r x).sec = s.sec ∧ (setSub s r x).fld = s.fld ∧ (setSub s r x).dbg = s.dbg ∧ (setSub s r x).cfg = s.cfg ∧ (setSub s r x).live = s.live ∧
    (setSub s r x).cfgPrev = s.cfgPrev ∧ (setSub s r x).changedAt = s.changedAt ∧ (setSub s r x).epochs = s.epochs ∧ (setSub s r x).results = s.results ∧
    (setSub s r x).modesNext = s.modesNext ∧ (setSub s r x).modes = s.modes ∧ (setSub s r x).readHi = s.readHi ∧ (setSub s r x).writeLo = s.writeLo := by
  and_intros <;> rfl

@[simp] theorem setSub_others (s : State) (r : Nat) (x) :
    (∀ j, thread (setSub s r x) j = thread s j) ∧ (∀ j, engineOf (setSub s r x) j = engineOf s j) ∧ (∀ j, comRing (setSub s r x) j = comRing s j) ∧
    (∀ j, queueOf (setSub s r x) j = queueOf s j) ∧ (∀ j, flowSafe (setSub s r x) j = flowSafe s j) ∧ (∀ j, unitSafe (setSub s r x) j = unitSafe s j) ∧
    (∀ j, cadOf (setSub s r x) j = cadOf s j) ∧ (∀ j, streamOf (setSub s r x) j = streamOf s j) ∧ (∀ j, jointSt (setSub s r x) j = jointSt s j) ∧
    (∀ j, ergOf (setSub s r x) j = ergOf s j) ∧ (∀ j, gridOf (setSub s r x) j = gridOf s j) ∧ (∀ j, plantPort (setSub s r x) j = plantPort s j) ∧
    (∀ j, octPort (setSub s r x) j = octPort s j) ∧ (∀ j, poolOf (setSub s r x) j = poolOf s j) ∧ (∀ j, pipeOf (setSub s r x) j = pipeOf s j) ∧
    (∀ j, solverOf (setSub s r x) j = solverOf s j) ∧ (∀ j, lytOf (setSub s r x) j = lytOf s j) ∧ (∀ j, linkTest (setSub s r x) j = linkTest s j) := by
  and_intros <;> exact fun _ => rfl

/-! ### setCom: a completion ring -/

@[simp] theorem comRing_setCom_same (s : State) (r : Nat) (x) : comRing (setCom s r x) r = x := by simp [comRing, setCom]

theorem comRing_setCom_other (s : State) {r j : Nat} (x) (h : j ≠ r) : comRing (setCom s r x) j = comRing s j := by simp [comRing, setCom, Tbl.at_put_other _ _ _ h]

@[simp] theorem setCom_fields (s : State) (r : Nat) (x) :
    (setCom s r x).pending = s.pending ∧ (setCom s r x).bootReady = s.bootReady ∧ (setCom s r x).out = s.out ∧ (setCom s r x).fresh = s.fresh ∧ (setCom s r x).now = s.now ∧
    (setCom s r x).up = s.up ∧ (setCom s r x).mem = s.mem ∧ (setCom s r x).mmu = s.mmu ∧ (setCom s r x).tlb = s.tlb ∧ (setCom s r x).knots = s.knots ∧ (setCom s r x).qmu = s.qmu ∧
    (setCom s r x).eng = s.eng ∧ (setCom s r x).safe = s.safe ∧ (setCom s r x).power = s.power ∧ (setCom s r x).tb = s.tb ∧ (setCom s r x).fldT = s.fldT ∧
    (setCom s r x).trig = s.trig ∧ (setCom s r x).ing = s.ing ∧ (setCom s r x).spl = s.spl ∧ (setCom s r x).xft = s.xft ∧ (setCom s r x).geo = s.geo ∧ (setCom s r x).eth = s.eth ∧
    (setCom s r x).oct = s.oct ∧ (setCom s r x).seq = s.seq ∧ (setCom s r x).slv = s.slv ∧ (setCom s r x).lyt = s.lyt ∧ (setCom s r x).icu = s.icu ∧ (setCom s r x).sic = s.sic ∧
    (setCom s r x).sec = s.sec ∧ (setCom s r x).fld = s.fld ∧ (setCom s r x).dbg = s.dbg ∧ (setCom s r x).cfg = s.cfg ∧ (setCom s r x).live = s.live ∧
    (setCom s r x).cfgPrev = s.cfgPrev ∧ (setCom s r x).changedAt = s.changedAt ∧ (setCom s r x).epochs = s.epochs ∧ (setCom s r x).results = s.results ∧
    (setCom s r x).modesNext = s.modesNext ∧ (setCom s r x).modes = s.modes ∧ (setCom s r x).readHi = s.readHi ∧ (setCom s r x).writeLo = s.writeLo := by
  and_intros <;> rfl

@[simp] theorem setCom_others (s : State) (r : Nat) (x) :
    (∀ j, thread (setCom s r x) j = thread s j) ∧ (∀ j, engineOf (setCom s r x) j = engineOf s j) ∧ (∀ j, subRing (setCom s r x) j = subRing s j) ∧
    (∀ j, queueOf (setCom s r x) j = queueOf s j) ∧ (∀ j, flowSafe (setCom s r x) j = flowSafe s j) ∧ (∀ j, unitSafe (setCom s r x) j = unitSafe s j) ∧
    (∀ j, cadOf (setCom s r x) j = cadOf s j) ∧ (∀ j, streamOf (setCom s r x) j = streamOf s j) ∧ (∀ j, jointSt (setCom s r x) j = jointSt s j) ∧
    (∀ j, ergOf (setCom s r x) j = ergOf s j) ∧ (∀ j, gridOf (setCom s r x) j = gridOf s j) ∧ (∀ j, plantPort (setCom s r x) j = plantPort s j) ∧
    (∀ j, octPort (setCom s r x) j = octPort s j) ∧ (∀ j, poolOf (setCom s r x) j = poolOf s j) ∧ (∀ j, pipeOf (setCom s r x) j = pipeOf s j) ∧
    (∀ j, solverOf (setCom s r x) j = solverOf s j) ∧ (∀ j, lytOf (setCom s r x) j = lytOf s j) ∧ (∀ j, linkTest (setCom s r x) j = linkTest s j) := by
  and_intros <;> exact fun _ => rfl

/-! ### setQueue: a queue -/

@[simp] theorem queueOf_setQueue_same (s : State) (q : Nat) (x) : queueOf (setQueue s q x) q = x := by simp [queueOf, setQueue]

theorem queueOf_setQueue_other (s : State) {q j : Nat} (x) (h : j ≠ q) : queueOf (setQueue s q x) j = queueOf s j := by simp [queueOf, setQueue, Tbl.at_put_other _ _ _ h]

@[simp] theorem setQueue_fields (s : State) (q : Nat) (x) :
    (setQueue s q x).pending = s.pending ∧ (setQueue s q x).bootReady = s.bootReady ∧ (setQueue s q x).out = s.out ∧ (setQueue s q x).fresh = s.fresh ∧
    (setQueue s q x).now = s.now ∧ (setQueue s q x).up = s.up ∧ (setQueue s q x).mem = s.mem ∧ (setQueue s q x).mmu = s.mmu ∧ (setQueue s q x).tlb = s.tlb ∧
    (setQueue s q x).hif = s.hif ∧ (setQueue s q x).knots = s.knots ∧ (setQueue s q x).eng = s.eng ∧ (setQueue s q x).safe = s.safe ∧ (setQueue s q x).power = s.power ∧
    (setQueue s q x).tb = s.tb ∧ (setQueue s q x).fldT = s.fldT ∧ (setQueue s q x).trig = s.trig ∧ (setQueue s q x).ing = s.ing ∧ (setQueue s q x).spl = s.spl ∧
    (setQueue s q x).xft = s.xft ∧ (setQueue s q x).geo = s.geo ∧ (setQueue s q x).eth = s.eth ∧ (setQueue s q x).oct = s.oct ∧ (setQueue s q x).seq = s.seq ∧
    (setQueue s q x).slv = s.slv ∧ (setQueue s q x).lyt = s.lyt ∧ (setQueue s q x).icu = s.icu ∧ (setQueue s q x).sic = s.sic ∧ (setQueue s q x).sec = s.sec ∧
    (setQueue s q x).fld = s.fld ∧ (setQueue s q x).dbg = s.dbg ∧ (setQueue s q x).cfg = s.cfg ∧ (setQueue s q x).live = s.live ∧ (setQueue s q x).cfgPrev = s.cfgPrev ∧
    (setQueue s q x).changedAt = s.changedAt ∧ (setQueue s q x).epochs = s.epochs ∧ (setQueue s q x).results = s.results ∧ (setQueue s q x).modesNext = s.modesNext ∧
    (setQueue s q x).modes = s.modes ∧ (setQueue s q x).readHi = s.readHi ∧ (setQueue s q x).writeLo = s.writeLo := by
  and_intros <;> rfl

@[simp] theorem setQueue_others (s : State) (q : Nat) (x) :
    (∀ j, thread (setQueue s q x) j = thread s j) ∧ (∀ j, engineOf (setQueue s q x) j = engineOf s j) ∧ (∀ j, subRing (setQueue s q x) j = subRing s j) ∧
    (∀ j, comRing (setQueue s q x) j = comRing s j) ∧ (∀ j, flowSafe (setQueue s q x) j = flowSafe s j) ∧ (∀ j, unitSafe (setQueue s q x) j = unitSafe s j) ∧
    (∀ j, cadOf (setQueue s q x) j = cadOf s j) ∧ (∀ j, streamOf (setQueue s q x) j = streamOf s j) ∧ (∀ j, jointSt (setQueue s q x) j = jointSt s j) ∧
    (∀ j, ergOf (setQueue s q x) j = ergOf s j) ∧ (∀ j, gridOf (setQueue s q x) j = gridOf s j) ∧ (∀ j, plantPort (setQueue s q x) j = plantPort s j) ∧
    (∀ j, octPort (setQueue s q x) j = octPort s j) ∧ (∀ j, poolOf (setQueue s q x) j = poolOf s j) ∧ (∀ j, pipeOf (setQueue s q x) j = pipeOf s j) ∧
    (∀ j, solverOf (setQueue s q x) j = solverOf s j) ∧ (∀ j, lytOf (setQueue s q x) j = lytOf s j) ∧ (∀ j, linkTest (setQueue s q x) j = linkTest s j) := by
  and_intros <;> exact fun _ => rfl

/-! ### setFlowSafe: a guarded flow of the island -/

@[simp] theorem flowSafe_setFlowSafe_same (s : State) (f : Nat) (x) : flowSafe (setFlowSafe s f x) f = x := by simp [flowSafe, setFlowSafe]

theorem flowSafe_setFlowSafe_other (s : State) {f j : Nat} (x) (h : j ≠ f) : flowSafe (setFlowSafe s f x) j = flowSafe s j := by simp [flowSafe, setFlowSafe, Tbl.at_put_other _ _ _ h]

@[simp] theorem setFlowSafe_fields (s : State) (f : Nat) (x) :
    (setFlowSafe s f x).pending = s.pending ∧ (setFlowSafe s f x).bootReady = s.bootReady ∧ (setFlowSafe s f x).out = s.out ∧ (setFlowSafe s f x).fresh = s.fresh ∧
    (setFlowSafe s f x).now = s.now ∧ (setFlowSafe s f x).up = s.up ∧ (setFlowSafe s f x).mem = s.mem ∧ (setFlowSafe s f x).mmu = s.mmu ∧ (setFlowSafe s f x).tlb = s.tlb ∧
    (setFlowSafe s f x).hif = s.hif ∧ (setFlowSafe s f x).knots = s.knots ∧ (setFlowSafe s f x).qmu = s.qmu ∧ (setFlowSafe s f x).eng = s.eng ∧
    (setFlowSafe s f x).power = s.power ∧ (setFlowSafe s f x).tb = s.tb ∧ (setFlowSafe s f x).fldT = s.fldT ∧ (setFlowSafe s f x).trig = s.trig ∧ (setFlowSafe s f x).ing = s.ing ∧
    (setFlowSafe s f x).spl = s.spl ∧ (setFlowSafe s f x).xft = s.xft ∧ (setFlowSafe s f x).geo = s.geo ∧ (setFlowSafe s f x).eth = s.eth ∧ (setFlowSafe s f x).oct = s.oct ∧
    (setFlowSafe s f x).seq = s.seq ∧ (setFlowSafe s f x).slv = s.slv ∧ (setFlowSafe s f x).lyt = s.lyt ∧ (setFlowSafe s f x).icu = s.icu ∧ (setFlowSafe s f x).sic = s.sic ∧
    (setFlowSafe s f x).sec = s.sec ∧ (setFlowSafe s f x).fld = s.fld ∧ (setFlowSafe s f x).dbg = s.dbg ∧ (setFlowSafe s f x).cfg = s.cfg ∧ (setFlowSafe s f x).live = s.live ∧
    (setFlowSafe s f x).cfgPrev = s.cfgPrev ∧ (setFlowSafe s f x).changedAt = s.changedAt ∧ (setFlowSafe s f x).epochs = s.epochs ∧ (setFlowSafe s f x).results = s.results ∧
    (setFlowSafe s f x).modesNext = s.modesNext ∧ (setFlowSafe s f x).modes = s.modes ∧ (setFlowSafe s f x).readHi = s.readHi ∧ (setFlowSafe s f x).writeLo = s.writeLo := by
  and_intros <;> rfl

@[simp] theorem setFlowSafe_others (s : State) (f : Nat) (x) :
    (∀ j, thread (setFlowSafe s f x) j = thread s j) ∧ (∀ j, engineOf (setFlowSafe s f x) j = engineOf s j) ∧ (∀ j, subRing (setFlowSafe s f x) j = subRing s j) ∧
    (∀ j, comRing (setFlowSafe s f x) j = comRing s j) ∧ (∀ j, queueOf (setFlowSafe s f x) j = queueOf s j) ∧ (∀ j, unitSafe (setFlowSafe s f x) j = unitSafe s j) ∧
    (∀ j, cadOf (setFlowSafe s f x) j = cadOf s j) ∧ (∀ j, streamOf (setFlowSafe s f x) j = streamOf s j) ∧ (∀ j, jointSt (setFlowSafe s f x) j = jointSt s j) ∧
    (∀ j, ergOf (setFlowSafe s f x) j = ergOf s j) ∧ (∀ j, gridOf (setFlowSafe s f x) j = gridOf s j) ∧ (∀ j, plantPort (setFlowSafe s f x) j = plantPort s j) ∧
    (∀ j, octPort (setFlowSafe s f x) j = octPort s j) ∧ (∀ j, poolOf (setFlowSafe s f x) j = poolOf s j) ∧ (∀ j, pipeOf (setFlowSafe s f x) j = pipeOf s j) ∧
    (∀ j, solverOf (setFlowSafe s f x) j = solverOf s j) ∧ (∀ j, lytOf (setFlowSafe s f x) j = lytOf s j) ∧ (∀ j, linkTest (setFlowSafe s f x) j = linkTest s j) := by
  and_intros <;> exact fun _ => rfl

/-! ### setUnit: a unit of R487 -/

@[simp] theorem unitSafe_setUnit_same (s : State) (u : Nat) (x) : unitSafe (setUnit s u x) u = x := by simp [unitSafe, setUnit]

theorem unitSafe_setUnit_other (s : State) {u j : Nat} (x) (h : j ≠ u) : unitSafe (setUnit s u x) j = unitSafe s j := by simp [unitSafe, setUnit, Tbl.at_put_other _ _ _ h]

@[simp] theorem setUnit_fields (s : State) (u : Nat) (x) :
    (setUnit s u x).pending = s.pending ∧ (setUnit s u x).bootReady = s.bootReady ∧ (setUnit s u x).out = s.out ∧ (setUnit s u x).fresh = s.fresh ∧ (setUnit s u x).now = s.now ∧
    (setUnit s u x).up = s.up ∧ (setUnit s u x).mem = s.mem ∧ (setUnit s u x).mmu = s.mmu ∧ (setUnit s u x).tlb = s.tlb ∧ (setUnit s u x).hif = s.hif ∧
    (setUnit s u x).knots = s.knots ∧ (setUnit s u x).qmu = s.qmu ∧ (setUnit s u x).eng = s.eng ∧ (setUnit s u x).power = s.power ∧ (setUnit s u x).tb = s.tb ∧
    (setUnit s u x).fldT = s.fldT ∧ (setUnit s u x).trig = s.trig ∧ (setUnit s u x).ing = s.ing ∧ (setUnit s u x).spl = s.spl ∧ (setUnit s u x).xft = s.xft ∧
    (setUnit s u x).geo = s.geo ∧ (setUnit s u x).eth = s.eth ∧ (setUnit s u x).oct = s.oct ∧ (setUnit s u x).seq = s.seq ∧ (setUnit s u x).slv = s.slv ∧
    (setUnit s u x).lyt = s.lyt ∧ (setUnit s u x).icu = s.icu ∧ (setUnit s u x).sic = s.sic ∧ (setUnit s u x).sec = s.sec ∧ (setUnit s u x).fld = s.fld ∧
    (setUnit s u x).dbg = s.dbg ∧ (setUnit s u x).cfg = s.cfg ∧ (setUnit s u x).live = s.live ∧ (setUnit s u x).cfgPrev = s.cfgPrev ∧ (setUnit s u x).changedAt = s.changedAt ∧
    (setUnit s u x).epochs = s.epochs ∧ (setUnit s u x).results = s.results ∧ (setUnit s u x).modesNext = s.modesNext ∧ (setUnit s u x).modes = s.modes ∧
    (setUnit s u x).readHi = s.readHi ∧ (setUnit s u x).writeLo = s.writeLo := by
  and_intros <;> rfl

@[simp] theorem setUnit_others (s : State) (u : Nat) (x) :
    (∀ j, thread (setUnit s u x) j = thread s j) ∧ (∀ j, engineOf (setUnit s u x) j = engineOf s j) ∧ (∀ j, subRing (setUnit s u x) j = subRing s j) ∧
    (∀ j, comRing (setUnit s u x) j = comRing s j) ∧ (∀ j, queueOf (setUnit s u x) j = queueOf s j) ∧ (∀ j, flowSafe (setUnit s u x) j = flowSafe s j) ∧
    (∀ j, cadOf (setUnit s u x) j = cadOf s j) ∧ (∀ j, streamOf (setUnit s u x) j = streamOf s j) ∧ (∀ j, jointSt (setUnit s u x) j = jointSt s j) ∧
    (∀ j, ergOf (setUnit s u x) j = ergOf s j) ∧ (∀ j, gridOf (setUnit s u x) j = gridOf s j) ∧ (∀ j, plantPort (setUnit s u x) j = plantPort s j) ∧
    (∀ j, octPort (setUnit s u x) j = octPort s j) ∧ (∀ j, poolOf (setUnit s u x) j = poolOf s j) ∧ (∀ j, pipeOf (setUnit s u x) j = pipeOf s j) ∧
    (∀ j, solverOf (setUnit s u x) j = solverOf s j) ∧ (∀ j, lytOf (setUnit s u x) j = lytOf s j) ∧ (∀ j, linkTest (setUnit s u x) j = linkTest s j) := by
  and_intros <;> exact fun _ => rfl

/-! ### setCad: a cadence -/

@[simp] theorem cadOf_setCad_same (s : State) (c : Nat) (x) : cadOf (setCad s c x) c = x := by simp [cadOf, setCad]

theorem cadOf_setCad_other (s : State) {c j : Nat} (x) (h : j ≠ c) : cadOf (setCad s c x) j = cadOf s j := by simp [cadOf, setCad, Tbl.at_put_other _ _ _ h]

@[simp] theorem setCad_fields (s : State) (c : Nat) (x) :
    (setCad s c x).pending = s.pending ∧ (setCad s c x).bootReady = s.bootReady ∧ (setCad s c x).out = s.out ∧ (setCad s c x).fresh = s.fresh ∧ (setCad s c x).now = s.now ∧
    (setCad s c x).up = s.up ∧ (setCad s c x).mem = s.mem ∧ (setCad s c x).mmu = s.mmu ∧ (setCad s c x).tlb = s.tlb ∧ (setCad s c x).hif = s.hif ∧ (setCad s c x).knots = s.knots ∧
    (setCad s c x).qmu = s.qmu ∧ (setCad s c x).eng = s.eng ∧ (setCad s c x).safe = s.safe ∧ (setCad s c x).power = s.power ∧ (setCad s c x).tb = s.tb ∧
    (setCad s c x).fldT = s.fldT ∧ (setCad s c x).ing = s.ing ∧ (setCad s c x).spl = s.spl ∧ (setCad s c x).xft = s.xft ∧ (setCad s c x).geo = s.geo ∧ (setCad s c x).eth = s.eth ∧
    (setCad s c x).oct = s.oct ∧ (setCad s c x).seq = s.seq ∧ (setCad s c x).slv = s.slv ∧ (setCad s c x).lyt = s.lyt ∧ (setCad s c x).icu = s.icu ∧ (setCad s c x).sic = s.sic ∧
    (setCad s c x).sec = s.sec ∧ (setCad s c x).fld = s.fld ∧ (setCad s c x).dbg = s.dbg ∧ (setCad s c x).cfg = s.cfg ∧ (setCad s c x).live = s.live ∧
    (setCad s c x).cfgPrev = s.cfgPrev ∧ (setCad s c x).changedAt = s.changedAt ∧ (setCad s c x).epochs = s.epochs ∧ (setCad s c x).results = s.results ∧
    (setCad s c x).modesNext = s.modesNext ∧ (setCad s c x).modes = s.modes ∧ (setCad s c x).readHi = s.readHi ∧ (setCad s c x).writeLo = s.writeLo := by
  and_intros <;> rfl

@[simp] theorem setCad_others (s : State) (c : Nat) (x) :
    (∀ j, thread (setCad s c x) j = thread s j) ∧ (∀ j, engineOf (setCad s c x) j = engineOf s j) ∧ (∀ j, subRing (setCad s c x) j = subRing s j) ∧
    (∀ j, comRing (setCad s c x) j = comRing s j) ∧ (∀ j, queueOf (setCad s c x) j = queueOf s j) ∧ (∀ j, flowSafe (setCad s c x) j = flowSafe s j) ∧
    (∀ j, unitSafe (setCad s c x) j = unitSafe s j) ∧ (∀ j, streamOf (setCad s c x) j = streamOf s j) ∧ (∀ j, jointSt (setCad s c x) j = jointSt s j) ∧
    (∀ j, ergOf (setCad s c x) j = ergOf s j) ∧ (∀ j, gridOf (setCad s c x) j = gridOf s j) ∧ (∀ j, plantPort (setCad s c x) j = plantPort s j) ∧
    (∀ j, octPort (setCad s c x) j = octPort s j) ∧ (∀ j, poolOf (setCad s c x) j = poolOf s j) ∧ (∀ j, pipeOf (setCad s c x) j = pipeOf s j) ∧
    (∀ j, solverOf (setCad s c x) j = solverOf s j) ∧ (∀ j, lytOf (setCad s c x) j = lytOf s j) ∧ (∀ j, linkTest (setCad s c x) j = linkTest s j) := by
  and_intros <;> exact fun _ => rfl

/-! ### setStream: a stream -/

@[simp] theorem streamOf_setStream_same (s : State) (k : Nat) (x) : streamOf (setStream s k x) k = x := by simp [streamOf, setStream]

theorem streamOf_setStream_other (s : State) {k j : Nat} (x) (h : j ≠ k) : streamOf (setStream s k x) j = streamOf s j := by simp [streamOf, setStream, Tbl.at_put_other _ _ _ h]

@[simp] theorem setStream_fields (s : State) (k : Nat) (x) :
    (setStream s k x).pending = s.pending ∧ (setStream s k x).bootReady = s.bootReady ∧ (setStream s k x).out = s.out ∧ (setStream s k x).fresh = s.fresh ∧
    (setStream s k x).now = s.now ∧ (setStream s k x).up = s.up ∧ (setStream s k x).mem = s.mem ∧ (setStream s k x).mmu = s.mmu ∧ (setStream s k x).tlb = s.tlb ∧
    (setStream s k x).hif = s.hif ∧ (setStream s k x).knots = s.knots ∧ (setStream s k x).qmu = s.qmu ∧ (setStream s k x).eng = s.eng ∧ (setStream s k x).safe = s.safe ∧
    (setStream s k x).power = s.power ∧ (setStream s k x).tb = s.tb ∧ (setStream s k x).fldT = s.fldT ∧ (setStream s k x).trig = s.trig ∧ (setStream s k x).spl = s.spl ∧
    (setStream s k x).xft = s.xft ∧ (setStream s k x).geo = s.geo ∧ (setStream s k x).eth = s.eth ∧ (setStream s k x).oct = s.oct ∧ (setStream s k x).seq = s.seq ∧
    (setStream s k x).slv = s.slv ∧ (setStream s k x).lyt = s.lyt ∧ (setStream s k x).icu = s.icu ∧ (setStream s k x).sic = s.sic ∧ (setStream s k x).sec = s.sec ∧
    (setStream s k x).fld = s.fld ∧ (setStream s k x).dbg = s.dbg ∧ (setStream s k x).cfg = s.cfg ∧ (setStream s k x).live = s.live ∧ (setStream s k x).cfgPrev = s.cfgPrev ∧
    (setStream s k x).changedAt = s.changedAt ∧ (setStream s k x).epochs = s.epochs ∧ (setStream s k x).results = s.results ∧ (setStream s k x).modesNext = s.modesNext ∧
    (setStream s k x).modes = s.modes ∧ (setStream s k x).readHi = s.readHi ∧ (setStream s k x).writeLo = s.writeLo := by
  and_intros <;> rfl

@[simp] theorem setStream_others (s : State) (k : Nat) (x) :
    (∀ j, thread (setStream s k x) j = thread s j) ∧ (∀ j, engineOf (setStream s k x) j = engineOf s j) ∧ (∀ j, subRing (setStream s k x) j = subRing s j) ∧
    (∀ j, comRing (setStream s k x) j = comRing s j) ∧ (∀ j, queueOf (setStream s k x) j = queueOf s j) ∧ (∀ j, flowSafe (setStream s k x) j = flowSafe s j) ∧
    (∀ j, unitSafe (setStream s k x) j = unitSafe s j) ∧ (∀ j, cadOf (setStream s k x) j = cadOf s j) ∧ (∀ j, jointSt (setStream s k x) j = jointSt s j) ∧
    (∀ j, ergOf (setStream s k x) j = ergOf s j) ∧ (∀ j, gridOf (setStream s k x) j = gridOf s j) ∧ (∀ j, plantPort (setStream s k x) j = plantPort s j) ∧
    (∀ j, octPort (setStream s k x) j = octPort s j) ∧ (∀ j, poolOf (setStream s k x) j = poolOf s j) ∧ (∀ j, pipeOf (setStream s k x) j = pipeOf s j) ∧
    (∀ j, solverOf (setStream s k x) j = solverOf s j) ∧ (∀ j, lytOf (setStream s k x) j = lytOf s j) ∧ (∀ j, linkTest (setStream s k x) j = linkTest s j) := by
  and_intros <;> exact fun _ => rfl

/-! ### setJoint: a joint -/

@[simp] theorem jointSt_setJoint_same (s : State) (k : Nat) (x) : jointSt (setJoint s k x) k = x := by simp [jointSt, setJoint]

theorem jointSt_setJoint_other (s : State) {k j : Nat} (x) (h : j ≠ k) : jointSt (setJoint s k x) j = jointSt s j := by simp [jointSt, setJoint, Tbl.at_put_other _ _ _ h]

@[simp] theorem setJoint_fields (s : State) (k : Nat) (x) :
    (setJoint s k x).pending = s.pending ∧ (setJoint s k x).bootReady = s.bootReady ∧ (setJoint s k x).out = s.out ∧ (setJoint s k x).fresh = s.fresh ∧
    (setJoint s k x).now = s.now ∧ (setJoint s k x).up = s.up ∧ (setJoint s k x).mem = s.mem ∧ (setJoint s k x).mmu = s.mmu ∧ (setJoint s k x).tlb = s.tlb ∧
    (setJoint s k x).hif = s.hif ∧ (setJoint s k x).knots = s.knots ∧ (setJoint s k x).qmu = s.qmu ∧ (setJoint s k x).eng = s.eng ∧ (setJoint s k x).safe = s.safe ∧
    (setJoint s k x).power = s.power ∧ (setJoint s k x).tb = s.tb ∧ (setJoint s k x).fldT = s.fldT ∧ (setJoint s k x).trig = s.trig ∧ (setJoint s k x).ing = s.ing ∧
    (setJoint s k x).spl = s.spl ∧ (setJoint s k x).geo = s.geo ∧ (setJoint s k x).eth = s.eth ∧ (setJoint s k x).oct = s.oct ∧ (setJoint s k x).seq = s.seq ∧
    (setJoint s k x).slv = s.slv ∧ (setJoint s k x).lyt = s.lyt ∧ (setJoint s k x).icu = s.icu ∧ (setJoint s k x).sic = s.sic ∧ (setJoint s k x).sec = s.sec ∧
    (setJoint s k x).fld = s.fld ∧ (setJoint s k x).dbg = s.dbg ∧ (setJoint s k x).cfg = s.cfg ∧ (setJoint s k x).live = s.live ∧ (setJoint s k x).cfgPrev = s.cfgPrev ∧
    (setJoint s k x).changedAt = s.changedAt ∧ (setJoint s k x).epochs = s.epochs ∧ (setJoint s k x).results = s.results ∧ (setJoint s k x).modesNext = s.modesNext ∧
    (setJoint s k x).modes = s.modes ∧ (setJoint s k x).readHi = s.readHi ∧ (setJoint s k x).writeLo = s.writeLo := by
  and_intros <;> rfl

@[simp] theorem setJoint_others (s : State) (k : Nat) (x) :
    (∀ j, thread (setJoint s k x) j = thread s j) ∧ (∀ j, engineOf (setJoint s k x) j = engineOf s j) ∧ (∀ j, subRing (setJoint s k x) j = subRing s j) ∧
    (∀ j, comRing (setJoint s k x) j = comRing s j) ∧ (∀ j, queueOf (setJoint s k x) j = queueOf s j) ∧ (∀ j, flowSafe (setJoint s k x) j = flowSafe s j) ∧
    (∀ j, unitSafe (setJoint s k x) j = unitSafe s j) ∧ (∀ j, cadOf (setJoint s k x) j = cadOf s j) ∧ (∀ j, streamOf (setJoint s k x) j = streamOf s j) ∧
    (∀ j, ergOf (setJoint s k x) j = ergOf s j) ∧ (∀ j, gridOf (setJoint s k x) j = gridOf s j) ∧ (∀ j, plantPort (setJoint s k x) j = plantPort s j) ∧
    (∀ j, octPort (setJoint s k x) j = octPort s j) ∧ (∀ j, poolOf (setJoint s k x) j = poolOf s j) ∧ (∀ j, pipeOf (setJoint s k x) j = pipeOf s j) ∧
    (∀ j, solverOf (setJoint s k x) j = solverOf s j) ∧ (∀ j, lytOf (setJoint s k x) j = lytOf s j) ∧ (∀ j, linkTest (setJoint s k x) j = linkTest s j) := by
  and_intros <;> exact fun _ => rfl

/-! ### setErg: an Erg unit -/

@[simp] theorem ergOf_setErg_same (s : State) (u : Nat) (x) : ergOf (setErg s u x) u = x := by simp [ergOf, setErg]

theorem ergOf_setErg_other (s : State) {u j : Nat} (x) (h : j ≠ u) : ergOf (setErg s u x) j = ergOf s j := by simp [ergOf, setErg, Tbl.at_put_other _ _ _ h]

@[simp] theorem setErg_fields (s : State) (u : Nat) (x) :
    (setErg s u x).pending = s.pending ∧ (setErg s u x).bootReady = s.bootReady ∧ (setErg s u x).out = s.out ∧ (setErg s u x).fresh = s.fresh ∧ (setErg s u x).now = s.now ∧
    (setErg s u x).up = s.up ∧ (setErg s u x).mem = s.mem ∧ (setErg s u x).mmu = s.mmu ∧ (setErg s u x).tlb = s.tlb ∧ (setErg s u x).hif = s.hif ∧ (setErg s u x).knots = s.knots ∧
    (setErg s u x).qmu = s.qmu ∧ (setErg s u x).eng = s.eng ∧ (setErg s u x).safe = s.safe ∧ (setErg s u x).power = s.power ∧ (setErg s u x).tb = s.tb ∧
    (setErg s u x).fldT = s.fldT ∧ (setErg s u x).trig = s.trig ∧ (setErg s u x).ing = s.ing ∧ (setErg s u x).spl = s.spl ∧ (setErg s u x).xft = s.xft ∧
    (setErg s u x).eth = s.eth ∧ (setErg s u x).oct = s.oct ∧ (setErg s u x).seq = s.seq ∧ (setErg s u x).slv = s.slv ∧ (setErg s u x).lyt = s.lyt ∧ (setErg s u x).icu = s.icu ∧
    (setErg s u x).sic = s.sic ∧ (setErg s u x).sec = s.sec ∧ (setErg s u x).fld = s.fld ∧ (setErg s u x).dbg = s.dbg ∧ (setErg s u x).cfg = s.cfg ∧ (setErg s u x).live = s.live ∧
    (setErg s u x).cfgPrev = s.cfgPrev ∧ (setErg s u x).changedAt = s.changedAt ∧ (setErg s u x).epochs = s.epochs ∧ (setErg s u x).results = s.results ∧
    (setErg s u x).modesNext = s.modesNext ∧ (setErg s u x).modes = s.modes ∧ (setErg s u x).readHi = s.readHi ∧ (setErg s u x).writeLo = s.writeLo := by
  and_intros <;> rfl

@[simp] theorem setErg_others (s : State) (u : Nat) (x) :
    (∀ j, thread (setErg s u x) j = thread s j) ∧ (∀ j, engineOf (setErg s u x) j = engineOf s j) ∧ (∀ j, subRing (setErg s u x) j = subRing s j) ∧
    (∀ j, comRing (setErg s u x) j = comRing s j) ∧ (∀ j, queueOf (setErg s u x) j = queueOf s j) ∧ (∀ j, flowSafe (setErg s u x) j = flowSafe s j) ∧
    (∀ j, unitSafe (setErg s u x) j = unitSafe s j) ∧ (∀ j, cadOf (setErg s u x) j = cadOf s j) ∧ (∀ j, streamOf (setErg s u x) j = streamOf s j) ∧
    (∀ j, jointSt (setErg s u x) j = jointSt s j) ∧ (∀ j, gridOf (setErg s u x) j = gridOf s j) ∧ (∀ j, plantPort (setErg s u x) j = plantPort s j) ∧
    (∀ j, octPort (setErg s u x) j = octPort s j) ∧ (∀ j, poolOf (setErg s u x) j = poolOf s j) ∧ (∀ j, pipeOf (setErg s u x) j = pipeOf s j) ∧
    (∀ j, solverOf (setErg s u x) j = solverOf s j) ∧ (∀ j, lytOf (setErg s u x) j = lytOf s j) ∧ (∀ j, linkTest (setErg s u x) j = linkTest s j) := by
  and_intros <;> exact fun _ => rfl

/-! ### setGrid: a grid -/

@[simp] theorem gridOf_setGrid_same (s : State) (g : Nat) (x) : gridOf (setGrid s g x) g = x := by simp [gridOf, setGrid]

theorem gridOf_setGrid_other (s : State) {g j : Nat} (x) (h : j ≠ g) : gridOf (setGrid s g x) j = gridOf s j := by simp [gridOf, setGrid, Tbl.at_put_other _ _ _ h]

@[simp] theorem setGrid_fields (s : State) (g : Nat) (x) :
    (setGrid s g x).pending = s.pending ∧ (setGrid s g x).bootReady = s.bootReady ∧ (setGrid s g x).out = s.out ∧ (setGrid s g x).fresh = s.fresh ∧ (setGrid s g x).now = s.now ∧
    (setGrid s g x).up = s.up ∧ (setGrid s g x).mem = s.mem ∧ (setGrid s g x).mmu = s.mmu ∧ (setGrid s g x).tlb = s.tlb ∧ (setGrid s g x).hif = s.hif ∧
    (setGrid s g x).knots = s.knots ∧ (setGrid s g x).qmu = s.qmu ∧ (setGrid s g x).eng = s.eng ∧ (setGrid s g x).safe = s.safe ∧ (setGrid s g x).power = s.power ∧
    (setGrid s g x).tb = s.tb ∧ (setGrid s g x).fldT = s.fldT ∧ (setGrid s g x).trig = s.trig ∧ (setGrid s g x).ing = s.ing ∧ (setGrid s g x).spl = s.spl ∧
    (setGrid s g x).xft = s.xft ∧ (setGrid s g x).eth = s.eth ∧ (setGrid s g x).oct = s.oct ∧ (setGrid s g x).seq = s.seq ∧ (setGrid s g x).slv = s.slv ∧
    (setGrid s g x).lyt = s.lyt ∧ (setGrid s g x).icu = s.icu ∧ (setGrid s g x).sic = s.sic ∧ (setGrid s g x).sec = s.sec ∧ (setGrid s g x).fld = s.fld ∧
    (setGrid s g x).dbg = s.dbg ∧ (setGrid s g x).cfg = s.cfg ∧ (setGrid s g x).live = s.live ∧ (setGrid s g x).cfgPrev = s.cfgPrev ∧ (setGrid s g x).changedAt = s.changedAt ∧
    (setGrid s g x).epochs = s.epochs ∧ (setGrid s g x).results = s.results ∧ (setGrid s g x).modesNext = s.modesNext ∧ (setGrid s g x).modes = s.modes ∧
    (setGrid s g x).readHi = s.readHi ∧ (setGrid s g x).writeLo = s.writeLo := by
  and_intros <;> rfl

@[simp] theorem setGrid_others (s : State) (g : Nat) (x) :
    (∀ j, thread (setGrid s g x) j = thread s j) ∧ (∀ j, engineOf (setGrid s g x) j = engineOf s j) ∧ (∀ j, subRing (setGrid s g x) j = subRing s j) ∧
    (∀ j, comRing (setGrid s g x) j = comRing s j) ∧ (∀ j, queueOf (setGrid s g x) j = queueOf s j) ∧ (∀ j, flowSafe (setGrid s g x) j = flowSafe s j) ∧
    (∀ j, unitSafe (setGrid s g x) j = unitSafe s j) ∧ (∀ j, cadOf (setGrid s g x) j = cadOf s j) ∧ (∀ j, streamOf (setGrid s g x) j = streamOf s j) ∧
    (∀ j, jointSt (setGrid s g x) j = jointSt s j) ∧ (∀ j, ergOf (setGrid s g x) j = ergOf s j) ∧ (∀ j, plantPort (setGrid s g x) j = plantPort s j) ∧
    (∀ j, octPort (setGrid s g x) j = octPort s j) ∧ (∀ j, poolOf (setGrid s g x) j = poolOf s j) ∧ (∀ j, pipeOf (setGrid s g x) j = pipeOf s j) ∧
    (∀ j, solverOf (setGrid s g x) j = solverOf s j) ∧ (∀ j, lytOf (setGrid s g x) j = lytOf s j) ∧ (∀ j, linkTest (setGrid s g x) j = linkTest s j) := by
  and_intros <;> exact fun _ => rfl

/-! ### setPlant: a plant port -/

@[simp] theorem plantPort_setPlant_same (s : State) (q : Nat) (x) : plantPort (setPlant s q x) q = x := by simp [plantPort, setPlant]

theorem plantPort_setPlant_other (s : State) {q j : Nat} (x) (h : j ≠ q) : plantPort (setPlant s q x) j = plantPort s j := by simp [plantPort, setPlant, Tbl.at_put_other _ _ _ h]

@[simp] theorem setPlant_fields (s : State) (q : Nat) (x) :
    (setPlant s q x).pending = s.pending ∧ (setPlant s q x).bootReady = s.bootReady ∧ (setPlant s q x).out = s.out ∧ (setPlant s q x).fresh = s.fresh ∧
    (setPlant s q x).now = s.now ∧ (setPlant s q x).up = s.up ∧ (setPlant s q x).mem = s.mem ∧ (setPlant s q x).mmu = s.mmu ∧ (setPlant s q x).tlb = s.tlb ∧
    (setPlant s q x).hif = s.hif ∧ (setPlant s q x).knots = s.knots ∧ (setPlant s q x).qmu = s.qmu ∧ (setPlant s q x).eng = s.eng ∧ (setPlant s q x).safe = s.safe ∧
    (setPlant s q x).power = s.power ∧ (setPlant s q x).tb = s.tb ∧ (setPlant s q x).fldT = s.fldT ∧ (setPlant s q x).trig = s.trig ∧ (setPlant s q x).ing = s.ing ∧
    (setPlant s q x).spl = s.spl ∧ (setPlant s q x).xft = s.xft ∧ (setPlant s q x).geo = s.geo ∧ (setPlant s q x).oct = s.oct ∧ (setPlant s q x).seq = s.seq ∧
    (setPlant s q x).slv = s.slv ∧ (setPlant s q x).lyt = s.lyt ∧ (setPlant s q x).icu = s.icu ∧ (setPlant s q x).sic = s.sic ∧ (setPlant s q x).sec = s.sec ∧
    (setPlant s q x).fld = s.fld ∧ (setPlant s q x).dbg = s.dbg ∧ (setPlant s q x).cfg = s.cfg ∧ (setPlant s q x).live = s.live ∧ (setPlant s q x).cfgPrev = s.cfgPrev ∧
    (setPlant s q x).changedAt = s.changedAt ∧ (setPlant s q x).epochs = s.epochs ∧ (setPlant s q x).results = s.results ∧ (setPlant s q x).modesNext = s.modesNext ∧
    (setPlant s q x).modes = s.modes ∧ (setPlant s q x).readHi = s.readHi ∧ (setPlant s q x).writeLo = s.writeLo := by
  and_intros <;> rfl

@[simp] theorem setPlant_others (s : State) (q : Nat) (x) :
    (∀ j, thread (setPlant s q x) j = thread s j) ∧ (∀ j, engineOf (setPlant s q x) j = engineOf s j) ∧ (∀ j, subRing (setPlant s q x) j = subRing s j) ∧
    (∀ j, comRing (setPlant s q x) j = comRing s j) ∧ (∀ j, queueOf (setPlant s q x) j = queueOf s j) ∧ (∀ j, flowSafe (setPlant s q x) j = flowSafe s j) ∧
    (∀ j, unitSafe (setPlant s q x) j = unitSafe s j) ∧ (∀ j, cadOf (setPlant s q x) j = cadOf s j) ∧ (∀ j, streamOf (setPlant s q x) j = streamOf s j) ∧
    (∀ j, jointSt (setPlant s q x) j = jointSt s j) ∧ (∀ j, ergOf (setPlant s q x) j = ergOf s j) ∧ (∀ j, gridOf (setPlant s q x) j = gridOf s j) ∧
    (∀ j, octPort (setPlant s q x) j = octPort s j) ∧ (∀ j, poolOf (setPlant s q x) j = poolOf s j) ∧ (∀ j, pipeOf (setPlant s q x) j = pipeOf s j) ∧
    (∀ j, solverOf (setPlant s q x) j = solverOf s j) ∧ (∀ j, lytOf (setPlant s q x) j = lytOf s j) ∧ (∀ j, linkTest (setPlant s q x) j = linkTest s j) := by
  and_intros <;> exact fun _ => rfl

/-! ### setOct: an Octur port -/

@[simp] theorem octPort_setOct_same (s : State) (p : Nat) (x) : octPort (setOct s p x) p = x := by simp [octPort, setOct, icuSet]

theorem octPort_setOct_other (s : State) {p j : Nat} (x) (h : j ≠ p) : octPort (setOct s p x) j = octPort s j := by simp [octPort, setOct, icuSet, Tbl.at_put_other _ _ _ h]

@[simp] theorem setOct_fields (s : State) (p : Nat) (x) :
    (setOct s p x).pending = s.pending ∧ (setOct s p x).bootReady = s.bootReady ∧ (setOct s p x).out = s.out ∧ (setOct s p x).fresh = s.fresh ∧ (setOct s p x).now = s.now ∧
    (setOct s p x).up = s.up ∧ (setOct s p x).mem = s.mem ∧ (setOct s p x).mmu = s.mmu ∧ (setOct s p x).tlb = s.tlb ∧ (setOct s p x).hif = s.hif ∧ (setOct s p x).knots = s.knots ∧
    (setOct s p x).qmu = s.qmu ∧ (setOct s p x).eng = s.eng ∧ (setOct s p x).safe = s.safe ∧ (setOct s p x).power = s.power ∧ (setOct s p x).tb = s.tb ∧
    (setOct s p x).fldT = s.fldT ∧ (setOct s p x).trig = s.trig ∧ (setOct s p x).ing = s.ing ∧ (setOct s p x).spl = s.spl ∧ (setOct s p x).xft = s.xft ∧
    (setOct s p x).geo = s.geo ∧ (setOct s p x).eth = s.eth ∧ (setOct s p x).seq = s.seq ∧ (setOct s p x).slv = s.slv ∧ (setOct s p x).lyt = s.lyt ∧ (setOct s p x).sic = s.sic ∧
    (setOct s p x).sec = s.sec ∧ (setOct s p x).fld = s.fld ∧ (setOct s p x).dbg = s.dbg ∧ (setOct s p x).cfg = s.cfg ∧ (setOct s p x).live = s.live ∧
    (setOct s p x).cfgPrev = s.cfgPrev ∧ (setOct s p x).changedAt = s.changedAt ∧ (setOct s p x).epochs = s.epochs ∧ (setOct s p x).results = s.results ∧
    (setOct s p x).modesNext = s.modesNext ∧ (setOct s p x).modes = s.modes ∧ (setOct s p x).readHi = s.readHi ∧ (setOct s p x).writeLo = s.writeLo := by
  and_intros <;> rfl

@[simp] theorem setOct_others (s : State) (p : Nat) (x) :
    (∀ j, thread (setOct s p x) j = thread s j) ∧ (∀ j, engineOf (setOct s p x) j = engineOf s j) ∧ (∀ j, subRing (setOct s p x) j = subRing s j) ∧
    (∀ j, comRing (setOct s p x) j = comRing s j) ∧ (∀ j, queueOf (setOct s p x) j = queueOf s j) ∧ (∀ j, flowSafe (setOct s p x) j = flowSafe s j) ∧
    (∀ j, unitSafe (setOct s p x) j = unitSafe s j) ∧ (∀ j, cadOf (setOct s p x) j = cadOf s j) ∧ (∀ j, streamOf (setOct s p x) j = streamOf s j) ∧
    (∀ j, jointSt (setOct s p x) j = jointSt s j) ∧ (∀ j, ergOf (setOct s p x) j = ergOf s j) ∧ (∀ j, gridOf (setOct s p x) j = gridOf s j) ∧
    (∀ j, plantPort (setOct s p x) j = plantPort s j) ∧ (∀ j, poolOf (setOct s p x) j = poolOf s j) ∧ (∀ j, pipeOf (setOct s p x) j = pipeOf s j) ∧
    (∀ j, solverOf (setOct s p x) j = solverOf s j) ∧ (∀ j, lytOf (setOct s p x) j = lytOf s j) ∧ (∀ j, linkTest (setOct s p x) j = linkTest s j) := by
  and_intros <;> exact fun _ => rfl

/-! ### setPool: a page pool -/

@[simp] theorem poolOf_setPool_same (s : State) (p : Nat) (x) : poolOf (setPool s p x) p = x := by simp [poolOf, setPool]

theorem poolOf_setPool_other (s : State) {p j : Nat} (x) (h : j ≠ p) : poolOf (setPool s p x) j = poolOf s j := by simp [poolOf, setPool, Tbl.at_put_other _ _ _ h]

@[simp] theorem setPool_fields (s : State) (p : Nat) (x) :
    (setPool s p x).pending = s.pending ∧ (setPool s p x).bootReady = s.bootReady ∧ (setPool s p x).out = s.out ∧ (setPool s p x).fresh = s.fresh ∧ (setPool s p x).now = s.now ∧
    (setPool s p x).up = s.up ∧ (setPool s p x).mem = s.mem ∧ (setPool s p x).mmu = s.mmu ∧ (setPool s p x).tlb = s.tlb ∧ (setPool s p x).hif = s.hif ∧
    (setPool s p x).knots = s.knots ∧ (setPool s p x).qmu = s.qmu ∧ (setPool s p x).eng = s.eng ∧ (setPool s p x).safe = s.safe ∧ (setPool s p x).power = s.power ∧
    (setPool s p x).tb = s.tb ∧ (setPool s p x).fldT = s.fldT ∧ (setPool s p x).trig = s.trig ∧ (setPool s p x).ing = s.ing ∧ (setPool s p x).spl = s.spl ∧
    (setPool s p x).xft = s.xft ∧ (setPool s p x).geo = s.geo ∧ (setPool s p x).eth = s.eth ∧ (setPool s p x).oct = s.oct ∧ (setPool s p x).slv = s.slv ∧
    (setPool s p x).lyt = s.lyt ∧ (setPool s p x).icu = s.icu ∧ (setPool s p x).sic = s.sic ∧ (setPool s p x).sec = s.sec ∧ (setPool s p x).fld = s.fld ∧
    (setPool s p x).dbg = s.dbg ∧ (setPool s p x).cfg = s.cfg ∧ (setPool s p x).live = s.live ∧ (setPool s p x).cfgPrev = s.cfgPrev ∧ (setPool s p x).changedAt = s.changedAt ∧
    (setPool s p x).epochs = s.epochs ∧ (setPool s p x).results = s.results ∧ (setPool s p x).modesNext = s.modesNext ∧ (setPool s p x).modes = s.modes ∧
    (setPool s p x).readHi = s.readHi ∧ (setPool s p x).writeLo = s.writeLo := by
  and_intros <;> rfl

@[simp] theorem setPool_others (s : State) (p : Nat) (x) :
    (∀ j, thread (setPool s p x) j = thread s j) ∧ (∀ j, engineOf (setPool s p x) j = engineOf s j) ∧ (∀ j, subRing (setPool s p x) j = subRing s j) ∧
    (∀ j, comRing (setPool s p x) j = comRing s j) ∧ (∀ j, queueOf (setPool s p x) j = queueOf s j) ∧ (∀ j, flowSafe (setPool s p x) j = flowSafe s j) ∧
    (∀ j, unitSafe (setPool s p x) j = unitSafe s j) ∧ (∀ j, cadOf (setPool s p x) j = cadOf s j) ∧ (∀ j, streamOf (setPool s p x) j = streamOf s j) ∧
    (∀ j, jointSt (setPool s p x) j = jointSt s j) ∧ (∀ j, ergOf (setPool s p x) j = ergOf s j) ∧ (∀ j, gridOf (setPool s p x) j = gridOf s j) ∧
    (∀ j, plantPort (setPool s p x) j = plantPort s j) ∧ (∀ j, octPort (setPool s p x) j = octPort s j) ∧ (∀ j, pipeOf (setPool s p x) j = pipeOf s j) ∧
    (∀ j, solverOf (setPool s p x) j = solverOf s j) ∧ (∀ j, lytOf (setPool s p x) j = lytOf s j) ∧ (∀ j, linkTest (setPool s p x) j = linkTest s j) := by
  and_intros <;> exact fun _ => rfl

/-! ### setPipe: a sequence pipeline -/

@[simp] theorem pipeOf_setPipe_same (s : State) (c : Nat) (x) : pipeOf (setPipe s c x) c = x := by simp [pipeOf, setPipe]

theorem pipeOf_setPipe_other (s : State) {c j : Nat} (x) (h : j ≠ c) : pipeOf (setPipe s c x) j = pipeOf s j := by simp [pipeOf, setPipe, Tbl.at_put_other _ _ _ h]

@[simp] theorem setPipe_fields (s : State) (c : Nat) (x) :
    (setPipe s c x).pending = s.pending ∧ (setPipe s c x).bootReady = s.bootReady ∧ (setPipe s c x).out = s.out ∧ (setPipe s c x).fresh = s.fresh ∧ (setPipe s c x).now = s.now ∧
    (setPipe s c x).up = s.up ∧ (setPipe s c x).mem = s.mem ∧ (setPipe s c x).mmu = s.mmu ∧ (setPipe s c x).tlb = s.tlb ∧ (setPipe s c x).hif = s.hif ∧
    (setPipe s c x).knots = s.knots ∧ (setPipe s c x).qmu = s.qmu ∧ (setPipe s c x).eng = s.eng ∧ (setPipe s c x).safe = s.safe ∧ (setPipe s c x).power = s.power ∧
    (setPipe s c x).tb = s.tb ∧ (setPipe s c x).fldT = s.fldT ∧ (setPipe s c x).trig = s.trig ∧ (setPipe s c x).ing = s.ing ∧ (setPipe s c x).spl = s.spl ∧
    (setPipe s c x).xft = s.xft ∧ (setPipe s c x).geo = s.geo ∧ (setPipe s c x).eth = s.eth ∧ (setPipe s c x).oct = s.oct ∧ (setPipe s c x).slv = s.slv ∧
    (setPipe s c x).lyt = s.lyt ∧ (setPipe s c x).icu = s.icu ∧ (setPipe s c x).sic = s.sic ∧ (setPipe s c x).sec = s.sec ∧ (setPipe s c x).fld = s.fld ∧
    (setPipe s c x).dbg = s.dbg ∧ (setPipe s c x).cfg = s.cfg ∧ (setPipe s c x).live = s.live ∧ (setPipe s c x).cfgPrev = s.cfgPrev ∧ (setPipe s c x).changedAt = s.changedAt ∧
    (setPipe s c x).epochs = s.epochs ∧ (setPipe s c x).results = s.results ∧ (setPipe s c x).modesNext = s.modesNext ∧ (setPipe s c x).modes = s.modes ∧
    (setPipe s c x).readHi = s.readHi ∧ (setPipe s c x).writeLo = s.writeLo := by
  and_intros <;> rfl

@[simp] theorem setPipe_others (s : State) (c : Nat) (x) :
    (∀ j, thread (setPipe s c x) j = thread s j) ∧ (∀ j, engineOf (setPipe s c x) j = engineOf s j) ∧ (∀ j, subRing (setPipe s c x) j = subRing s j) ∧
    (∀ j, comRing (setPipe s c x) j = comRing s j) ∧ (∀ j, queueOf (setPipe s c x) j = queueOf s j) ∧ (∀ j, flowSafe (setPipe s c x) j = flowSafe s j) ∧
    (∀ j, unitSafe (setPipe s c x) j = unitSafe s j) ∧ (∀ j, cadOf (setPipe s c x) j = cadOf s j) ∧ (∀ j, streamOf (setPipe s c x) j = streamOf s j) ∧
    (∀ j, jointSt (setPipe s c x) j = jointSt s j) ∧ (∀ j, ergOf (setPipe s c x) j = ergOf s j) ∧ (∀ j, gridOf (setPipe s c x) j = gridOf s j) ∧
    (∀ j, plantPort (setPipe s c x) j = plantPort s j) ∧ (∀ j, octPort (setPipe s c x) j = octPort s j) ∧ (∀ j, poolOf (setPipe s c x) j = poolOf s j) ∧
    (∀ j, solverOf (setPipe s c x) j = solverOf s j) ∧ (∀ j, lytOf (setPipe s c x) j = lytOf s j) ∧ (∀ j, linkTest (setPipe s c x) j = linkTest s j) := by
  and_intros <;> exact fun _ => rfl

/-! ### setSolver: a solver unit -/

@[simp] theorem solverOf_setSolver_same (s : State) (c : Nat) (x) : solverOf (setSolver s c x) c = x := by simp [solverOf, setSolver]

theorem solverOf_setSolver_other (s : State) {c j : Nat} (x) (h : j ≠ c) : solverOf (setSolver s c x) j = solverOf s j := by simp [solverOf, setSolver, Tbl.at_put_other _ _ _ h]

@[simp] theorem setSolver_fields (s : State) (c : Nat) (x) :
    (setSolver s c x).pending = s.pending ∧ (setSolver s c x).bootReady = s.bootReady ∧ (setSolver s c x).out = s.out ∧ (setSolver s c x).fresh = s.fresh ∧
    (setSolver s c x).now = s.now ∧ (setSolver s c x).up = s.up ∧ (setSolver s c x).mem = s.mem ∧ (setSolver s c x).mmu = s.mmu ∧ (setSolver s c x).tlb = s.tlb ∧
    (setSolver s c x).hif = s.hif ∧ (setSolver s c x).knots = s.knots ∧ (setSolver s c x).qmu = s.qmu ∧ (setSolver s c x).eng = s.eng ∧ (setSolver s c x).safe = s.safe ∧
    (setSolver s c x).power = s.power ∧ (setSolver s c x).tb = s.tb ∧ (setSolver s c x).fldT = s.fldT ∧ (setSolver s c x).trig = s.trig ∧ (setSolver s c x).ing = s.ing ∧
    (setSolver s c x).spl = s.spl ∧ (setSolver s c x).xft = s.xft ∧ (setSolver s c x).geo = s.geo ∧ (setSolver s c x).eth = s.eth ∧ (setSolver s c x).oct = s.oct ∧
    (setSolver s c x).seq = s.seq ∧ (setSolver s c x).lyt = s.lyt ∧ (setSolver s c x).icu = s.icu ∧ (setSolver s c x).sic = s.sic ∧ (setSolver s c x).sec = s.sec ∧
    (setSolver s c x).fld = s.fld ∧ (setSolver s c x).dbg = s.dbg ∧ (setSolver s c x).cfg = s.cfg ∧ (setSolver s c x).live = s.live ∧ (setSolver s c x).cfgPrev = s.cfgPrev ∧
    (setSolver s c x).changedAt = s.changedAt ∧ (setSolver s c x).epochs = s.epochs ∧ (setSolver s c x).results = s.results ∧ (setSolver s c x).modesNext = s.modesNext ∧
    (setSolver s c x).modes = s.modes ∧ (setSolver s c x).readHi = s.readHi ∧ (setSolver s c x).writeLo = s.writeLo := by
  and_intros <;> rfl

@[simp] theorem setSolver_others (s : State) (c : Nat) (x) :
    (∀ j, thread (setSolver s c x) j = thread s j) ∧ (∀ j, engineOf (setSolver s c x) j = engineOf s j) ∧ (∀ j, subRing (setSolver s c x) j = subRing s j) ∧
    (∀ j, comRing (setSolver s c x) j = comRing s j) ∧ (∀ j, queueOf (setSolver s c x) j = queueOf s j) ∧ (∀ j, flowSafe (setSolver s c x) j = flowSafe s j) ∧
    (∀ j, unitSafe (setSolver s c x) j = unitSafe s j) ∧ (∀ j, cadOf (setSolver s c x) j = cadOf s j) ∧ (∀ j, streamOf (setSolver s c x) j = streamOf s j) ∧
    (∀ j, jointSt (setSolver s c x) j = jointSt s j) ∧ (∀ j, ergOf (setSolver s c x) j = ergOf s j) ∧ (∀ j, gridOf (setSolver s c x) j = gridOf s j) ∧
    (∀ j, plantPort (setSolver s c x) j = plantPort s j) ∧ (∀ j, octPort (setSolver s c x) j = octPort s j) ∧ (∀ j, poolOf (setSolver s c x) j = poolOf s j) ∧
    (∀ j, pipeOf (setSolver s c x) j = pipeOf s j) ∧ (∀ j, lytOf (setSolver s c x) j = lytOf s j) ∧ (∀ j, linkTest (setSolver s c x) j = linkTest s j) := by
  and_intros <;> exact fun _ => rfl

/-! ### setLyt: a layout engine -/

@[simp] theorem lytOf_setLyt_same (s : State) (i : Nat) (x) : lytOf (setLyt s i x) i = x := by simp [lytOf, setLyt]

theorem lytOf_setLyt_other (s : State) {i j : Nat} (x) (h : j ≠ i) : lytOf (setLyt s i x) j = lytOf s j := by simp [lytOf, setLyt, Tbl.at_put_other _ _ _ h]

@[simp] theorem setLyt_fields (s : State) (i : Nat) (x) :
    (setLyt s i x).pending = s.pending ∧ (setLyt s i x).bootReady = s.bootReady ∧ (setLyt s i x).out = s.out ∧ (setLyt s i x).fresh = s.fresh ∧ (setLyt s i x).now = s.now ∧
    (setLyt s i x).up = s.up ∧ (setLyt s i x).mem = s.mem ∧ (setLyt s i x).mmu = s.mmu ∧ (setLyt s i x).tlb = s.tlb ∧ (setLyt s i x).hif = s.hif ∧ (setLyt s i x).knots = s.knots ∧
    (setLyt s i x).qmu = s.qmu ∧ (setLyt s i x).eng = s.eng ∧ (setLyt s i x).safe = s.safe ∧ (setLyt s i x).power = s.power ∧ (setLyt s i x).tb = s.tb ∧
    (setLyt s i x).fldT = s.fldT ∧ (setLyt s i x).trig = s.trig ∧ (setLyt s i x).ing = s.ing ∧ (setLyt s i x).spl = s.spl ∧ (setLyt s i x).xft = s.xft ∧
    (setLyt s i x).geo = s.geo ∧ (setLyt s i x).eth = s.eth ∧ (setLyt s i x).oct = s.oct ∧ (setLyt s i x).seq = s.seq ∧ (setLyt s i x).slv = s.slv ∧ (setLyt s i x).icu = s.icu ∧
    (setLyt s i x).sic = s.sic ∧ (setLyt s i x).sec = s.sec ∧ (setLyt s i x).fld = s.fld ∧ (setLyt s i x).dbg = s.dbg ∧ (setLyt s i x).cfg = s.cfg ∧ (setLyt s i x).live = s.live ∧
    (setLyt s i x).cfgPrev = s.cfgPrev ∧ (setLyt s i x).changedAt = s.changedAt ∧ (setLyt s i x).epochs = s.epochs ∧ (setLyt s i x).results = s.results ∧
    (setLyt s i x).modesNext = s.modesNext ∧ (setLyt s i x).modes = s.modes ∧ (setLyt s i x).readHi = s.readHi ∧ (setLyt s i x).writeLo = s.writeLo := by
  and_intros <;> rfl

@[simp] theorem setLyt_others (s : State) (i : Nat) (x) :
    (∀ j, thread (setLyt s i x) j = thread s j) ∧ (∀ j, engineOf (setLyt s i x) j = engineOf s j) ∧ (∀ j, subRing (setLyt s i x) j = subRing s j) ∧
    (∀ j, comRing (setLyt s i x) j = comRing s j) ∧ (∀ j, queueOf (setLyt s i x) j = queueOf s j) ∧ (∀ j, flowSafe (setLyt s i x) j = flowSafe s j) ∧
    (∀ j, unitSafe (setLyt s i x) j = unitSafe s j) ∧ (∀ j, cadOf (setLyt s i x) j = cadOf s j) ∧ (∀ j, streamOf (setLyt s i x) j = streamOf s j) ∧
    (∀ j, jointSt (setLyt s i x) j = jointSt s j) ∧ (∀ j, ergOf (setLyt s i x) j = ergOf s j) ∧ (∀ j, gridOf (setLyt s i x) j = gridOf s j) ∧
    (∀ j, plantPort (setLyt s i x) j = plantPort s j) ∧ (∀ j, octPort (setLyt s i x) j = octPort s j) ∧ (∀ j, poolOf (setLyt s i x) j = poolOf s j) ∧
    (∀ j, pipeOf (setLyt s i x) j = pipeOf s j) ∧ (∀ j, solverOf (setLyt s i x) j = solverOf s j) ∧ (∀ j, linkTest (setLyt s i x) j = linkTest s j) := by
  and_intros <;> exact fun _ => rfl

/-! ### setLink: a link test -/

@[simp] theorem linkTest_setLink_same (s : State) (l : Nat) (x) : linkTest (setLink s l x) l = x := by simp [linkTest, setLink]

theorem linkTest_setLink_other (s : State) {l j : Nat} (x) (h : j ≠ l) : linkTest (setLink s l x) j = linkTest s j := by simp [linkTest, setLink, Tbl.at_put_other _ _ _ h]

@[simp] theorem setLink_fields (s : State) (l : Nat) (x) :
    (setLink s l x).pending = s.pending ∧ (setLink s l x).bootReady = s.bootReady ∧ (setLink s l x).out = s.out ∧ (setLink s l x).fresh = s.fresh ∧ (setLink s l x).now = s.now ∧
    (setLink s l x).up = s.up ∧ (setLink s l x).mem = s.mem ∧ (setLink s l x).mmu = s.mmu ∧ (setLink s l x).tlb = s.tlb ∧ (setLink s l x).hif = s.hif ∧
    (setLink s l x).knots = s.knots ∧ (setLink s l x).qmu = s.qmu ∧ (setLink s l x).eng = s.eng ∧ (setLink s l x).safe = s.safe ∧ (setLink s l x).power = s.power ∧
    (setLink s l x).tb = s.tb ∧ (setLink s l x).fldT = s.fldT ∧ (setLink s l x).trig = s.trig ∧ (setLink s l x).ing = s.ing ∧ (setLink s l x).spl = s.spl ∧
    (setLink s l x).xft = s.xft ∧ (setLink s l x).geo = s.geo ∧ (setLink s l x).eth = s.eth ∧ (setLink s l x).oct = s.oct ∧ (setLink s l x).seq = s.seq ∧
    (setLink s l x).slv = s.slv ∧ (setLink s l x).lyt = s.lyt ∧ (setLink s l x).icu = s.icu ∧ (setLink s l x).sic = s.sic ∧ (setLink s l x).sec = s.sec ∧
    (setLink s l x).fld = s.fld ∧ (setLink s l x).cfg = s.cfg ∧ (setLink s l x).live = s.live ∧ (setLink s l x).cfgPrev = s.cfgPrev ∧ (setLink s l x).changedAt = s.changedAt ∧
    (setLink s l x).epochs = s.epochs ∧ (setLink s l x).results = s.results ∧ (setLink s l x).modesNext = s.modesNext ∧ (setLink s l x).modes = s.modes ∧
    (setLink s l x).readHi = s.readHi ∧ (setLink s l x).writeLo = s.writeLo := by
  and_intros <;> rfl

@[simp] theorem setLink_others (s : State) (l : Nat) (x) :
    (∀ j, thread (setLink s l x) j = thread s j) ∧ (∀ j, engineOf (setLink s l x) j = engineOf s j) ∧ (∀ j, subRing (setLink s l x) j = subRing s j) ∧
    (∀ j, comRing (setLink s l x) j = comRing s j) ∧ (∀ j, queueOf (setLink s l x) j = queueOf s j) ∧ (∀ j, flowSafe (setLink s l x) j = flowSafe s j) ∧
    (∀ j, unitSafe (setLink s l x) j = unitSafe s j) ∧ (∀ j, cadOf (setLink s l x) j = cadOf s j) ∧ (∀ j, streamOf (setLink s l x) j = streamOf s j) ∧
    (∀ j, jointSt (setLink s l x) j = jointSt s j) ∧ (∀ j, ergOf (setLink s l x) j = ergOf s j) ∧ (∀ j, gridOf (setLink s l x) j = gridOf s j) ∧
    (∀ j, plantPort (setLink s l x) j = plantPort s j) ∧ (∀ j, octPort (setLink s l x) j = octPort s j) ∧ (∀ j, poolOf (setLink s l x) j = poolOf s j) ∧
    (∀ j, pipeOf (setLink s l x) j = pipeOf s j) ∧ (∀ j, solverOf (setLink s l x) j = solverOf s j) ∧ (∀ j, lytOf (setLink s l x) j = lytOf s j) := by
  and_intros <;> exact fun _ => rfl

/-! ### The interrupt controllers -/

@[simp] theorem ctlOf_setCtl_same (s : State) (sic : Bool) (c : IntCtl) : ctlOf (setCtl s sic c) sic = c := by cases sic <;> rfl

@[simp] theorem sourceOf_setSource_same (s : State) (sic : Bool) (k : Nat) (x : IntSource) : sourceOf (setSource s sic k x) sic k = x := by
  cases sic <;> simp [sourceOf, setSource, setCtl, ctlOf]

theorem sourceOf_setSource_other (s : State) (sic : Bool) {k j : Nat} (x : IntSource) (h : j ≠ k) : sourceOf (setSource s sic k x) sic j = sourceOf s sic j := by
  cases sic <;> simp [sourceOf, setSource, setCtl, ctlOf, Tbl.at_put_other _ _ _ h]

@[simp] theorem procOf_setProc_same (s : State) (sic : Bool) (p : Nat) (x : IntProc) : procOf (setProc s sic p x) sic p = x := by
  cases sic <;> simp [procOf, setProc, setCtl, ctlOf]

theorem procOf_setProc_other (s : State) (sic : Bool) {p j : Nat} (x : IntProc) (h : j ≠ p) : procOf (setProc s sic p x) sic j = procOf s sic j := by
  cases sic <;> simp [procOf, setProc, setCtl, ctlOf, Tbl.at_put_other _ _ _ h]

@[simp] theorem procOf_setSource (s : State) (sic : Bool) (k p : Nat) (x : IntSource) : procOf (setSource s sic k x) sic p = procOf s sic p := by
  cases sic <;> rfl

@[simp] theorem sourceOf_setProc (s : State) (sic : Bool) (p k : Nat) (x : IntProc) : sourceOf (setProc s sic p x) sic k = sourceOf s sic k := by
  cases sic <;> rfl

theorem setCtl_frame (s : State) (sic : Bool) (c : IntCtl) : { setCtl s sic c with icu := s.icu, sic := s.sic } = s := by cases sic <;> rfl

theorem setSource_frame (s : State) (sic : Bool) (k : Nat) (x : IntSource) : { setSource s sic k x with icu := s.icu, sic := s.sic } = s := by cases sic <;> rfl

theorem setProc_frame (s : State) (sic : Bool) (p : Nat) (x : IntProc) : { setProc s sic p x with icu := s.icu, sic := s.sic } = s := by cases sic <;> rfl

end Sys2Proof.Machine
end

