-- ==== Sys2Proof/Laws/Ops.lean ====
section
/-! SUPPORT. The shared operations of Machine/Ops.lean: for each one, every part of the state that it leaves as it was. A prover cites these lemmas in place of unfolding the operation. -/

namespace Sys2Proof.Machine

/-! ### Folds -/

theorem foldl_keeps {α β : Type} (g : State → β) (f : State → α → State) (h : ∀ s x, g (f s x) = g s) (l : List α) (s : State) : g (l.foldl f s) = g s := by
  induction l generalizing s with
  | nil => rfl
  | cons x l ih => simp [ih, h]

@[simp] theorem foldl_pending {α : Type} (f : State → α → State) (h : ∀ s x, (f s x).pending = s.pending) (l : List α) (s : State) : (l.foldl f s).pending = s.pending := foldl_keeps State.pending f h l s

@[simp] theorem foldl_bootReady {α : Type} (f : State → α → State) (h : ∀ s x, (f s x).bootReady = s.bootReady) (l : List α) (s : State) : (l.foldl f s).bootReady = s.bootReady := foldl_keeps State.bootReady f h l s

@[simp] theorem foldl_out {α : Type} (f : State → α → State) (h : ∀ s x, (f s x).out = s.out) (l : List α) (s : State) : (l.foldl f s).out = s.out := foldl_keeps State.out f h l s

@[simp] theorem foldl_fresh {α : Type} (f : State → α → State) (h : ∀ s x, (f s x).fresh = s.fresh) (l : List α) (s : State) : (l.foldl f s).fresh = s.fresh := foldl_keeps State.fresh f h l s

@[simp] theorem foldl_now {α : Type} (f : State → α → State) (h : ∀ s x, (f s x).now = s.now) (l : List α) (s : State) : (l.foldl f s).now = s.now := foldl_keeps State.now f h l s

@[simp] theorem foldl_up {α : Type} (f : State → α → State) (h : ∀ s x, (f s x).up = s.up) (l : List α) (s : State) : (l.foldl f s).up = s.up := foldl_keeps State.up f h l s

@[simp] theorem foldl_mem {α : Type} (f : State → α → State) (h : ∀ s x, (f s x).mem = s.mem) (l : List α) (s : State) : (l.foldl f s).mem = s.mem := foldl_keeps State.mem f h l s

@[simp] theorem foldl_mmu {α : Type} (f : State → α → State) (h : ∀ s x, (f s x).mmu = s.mmu) (l : List α) (s : State) : (l.foldl f s).mmu = s.mmu := foldl_keeps State.mmu f h l s

@[simp] theorem foldl_tlb {α : Type} (f : State → α → State) (h : ∀ s x, (f s x).tlb = s.tlb) (l : List α) (s : State) : (l.foldl f s).tlb = s.tlb := foldl_keeps State.tlb f h l s

@[simp] theorem foldl_hif {α : Type} (f : State → α → State) (h : ∀ s x, (f s x).hif = s.hif) (l : List α) (s : State) : (l.foldl f s).hif = s.hif := foldl_keeps State.hif f h l s

@[simp] theorem foldl_knots {α : Type} (f : State → α → State) (h : ∀ s x, (f s x).knots = s.knots) (l : List α) (s : State) : (l.foldl f s).knots = s.knots := foldl_keeps State.knots f h l s

@[simp] theorem foldl_qmu {α : Type} (f : State → α → State) (h : ∀ s x, (f s x).qmu = s.qmu) (l : List α) (s : State) : (l.foldl f s).qmu = s.qmu := foldl_keeps State.qmu f h l s

@[simp] theorem foldl_eng {α : Type} (f : State → α → State) (h : ∀ s x, (f s x).eng = s.eng) (l : List α) (s : State) : (l.foldl f s).eng = s.eng := foldl_keeps State.eng f h l s

@[simp] theorem foldl_safe {α : Type} (f : State → α → State) (h : ∀ s x, (f s x).safe = s.safe) (l : List α) (s : State) : (l.foldl f s).safe = s.safe := foldl_keeps State.safe f h l s

@[simp] theorem foldl_power {α : Type} (f : State → α → State) (h : ∀ s x, (f s x).power = s.power) (l : List α) (s : State) : (l.foldl f s).power = s.power := foldl_keeps State.power f h l s

@[simp] theorem foldl_tb {α : Type} (f : State → α → State) (h : ∀ s x, (f s x).tb = s.tb) (l : List α) (s : State) : (l.foldl f s).tb = s.tb := foldl_keeps State.tb f h l s

@[simp] theorem foldl_fldT {α : Type} (f : State → α → State) (h : ∀ s x, (f s x).fldT = s.fldT) (l : List α) (s : State) : (l.foldl f s).fldT = s.fldT := foldl_keeps State.fldT f h l s

@[simp] theorem foldl_trig {α : Type} (f : State → α → State) (h : ∀ s x, (f s x).trig = s.trig) (l : List α) (s : State) : (l.foldl f s).trig = s.trig := foldl_keeps State.trig f h l s

@[simp] theorem foldl_ing {α : Type} (f : State → α → State) (h : ∀ s x, (f s x).ing = s.ing) (l : List α) (s : State) : (l.foldl f s).ing = s.ing := foldl_keeps State.ing f h l s

@[simp] theorem foldl_spl {α : Type} (f : State → α → State) (h : ∀ s x, (f s x).spl = s.spl) (l : List α) (s : State) : (l.foldl f s).spl = s.spl := foldl_keeps State.spl f h l s

@[simp] theorem foldl_xft {α : Type} (f : State → α → State) (h : ∀ s x, (f s x).xft = s.xft) (l : List α) (s : State) : (l.foldl f s).xft = s.xft := foldl_keeps State.xft f h l s

@[simp] theorem foldl_geo {α : Type} (f : State → α → State) (h : ∀ s x, (f s x).geo = s.geo) (l : List α) (s : State) : (l.foldl f s).geo = s.geo := foldl_keeps State.geo f h l s

@[simp] theorem foldl_eth {α : Type} (f : State → α → State) (h : ∀ s x, (f s x).eth = s.eth) (l : List α) (s : State) : (l.foldl f s).eth = s.eth := foldl_keeps State.eth f h l s

@[simp] theorem foldl_oct {α : Type} (f : State → α → State) (h : ∀ s x, (f s x).oct = s.oct) (l : List α) (s : State) : (l.foldl f s).oct = s.oct := foldl_keeps State.oct f h l s

@[simp] theorem foldl_seq {α : Type} (f : State → α → State) (h : ∀ s x, (f s x).seq = s.seq) (l : List α) (s : State) : (l.foldl f s).seq = s.seq := foldl_keeps State.seq f h l s

@[simp] theorem foldl_slv {α : Type} (f : State → α → State) (h : ∀ s x, (f s x).slv = s.slv) (l : List α) (s : State) : (l.foldl f s).slv = s.slv := foldl_keeps State.slv f h l s

@[simp] theorem foldl_lyt {α : Type} (f : State → α → State) (h : ∀ s x, (f s x).lyt = s.lyt) (l : List α) (s : State) : (l.foldl f s).lyt = s.lyt := foldl_keeps State.lyt f h l s

@[simp] theorem foldl_icu {α : Type} (f : State → α → State) (h : ∀ s x, (f s x).icu = s.icu) (l : List α) (s : State) : (l.foldl f s).icu = s.icu := foldl_keeps State.icu f h l s

@[simp] theorem foldl_sic {α : Type} (f : State → α → State) (h : ∀ s x, (f s x).sic = s.sic) (l : List α) (s : State) : (l.foldl f s).sic = s.sic := foldl_keeps State.sic f h l s

@[simp] theorem foldl_sec {α : Type} (f : State → α → State) (h : ∀ s x, (f s x).sec = s.sec) (l : List α) (s : State) : (l.foldl f s).sec = s.sec := foldl_keeps State.sec f h l s

@[simp] theorem foldl_fld {α : Type} (f : State → α → State) (h : ∀ s x, (f s x).fld = s.fld) (l : List α) (s : State) : (l.foldl f s).fld = s.fld := foldl_keeps State.fld f h l s

@[simp] theorem foldl_dbg {α : Type} (f : State → α → State) (h : ∀ s x, (f s x).dbg = s.dbg) (l : List α) (s : State) : (l.foldl f s).dbg = s.dbg := foldl_keeps State.dbg f h l s

@[simp] theorem foldl_cfg {α : Type} (f : State → α → State) (h : ∀ s x, (f s x).cfg = s.cfg) (l : List α) (s : State) : (l.foldl f s).cfg = s.cfg := foldl_keeps State.cfg f h l s

@[simp] theorem foldl_live {α : Type} (f : State → α → State) (h : ∀ s x, (f s x).live = s.live) (l : List α) (s : State) : (l.foldl f s).live = s.live := foldl_keeps State.live f h l s

@[simp] theorem foldl_cfgPrev {α : Type} (f : State → α → State) (h : ∀ s x, (f s x).cfgPrev = s.cfgPrev) (l : List α) (s : State) : (l.foldl f s).cfgPrev = s.cfgPrev := foldl_keeps State.cfgPrev f h l s

@[simp] theorem foldl_changedAt {α : Type} (f : State → α → State) (h : ∀ s x, (f s x).changedAt = s.changedAt) (l : List α) (s : State) : (l.foldl f s).changedAt = s.changedAt := foldl_keeps State.changedAt f h l s

@[simp] theorem foldl_epochs {α : Type} (f : State → α → State) (h : ∀ s x, (f s x).epochs = s.epochs) (l : List α) (s : State) : (l.foldl f s).epochs = s.epochs := foldl_keeps State.epochs f h l s

@[simp] theorem foldl_results {α : Type} (f : State → α → State) (h : ∀ s x, (f s x).results = s.results) (l : List α) (s : State) : (l.foldl f s).results = s.results := foldl_keeps State.results f h l s

@[simp] theorem foldl_modesNext {α : Type} (f : State → α → State) (h : ∀ s x, (f s x).modesNext = s.modesNext) (l : List α) (s : State) : (l.foldl f s).modesNext = s.modesNext := foldl_keeps State.modesNext f h l s

@[simp] theorem foldl_modes {α : Type} (f : State → α → State) (h : ∀ s x, (f s x).modes = s.modes) (l : List α) (s : State) : (l.foldl f s).modes = s.modes := foldl_keeps State.modes f h l s

@[simp] theorem foldl_readHi {α : Type} (f : State → α → State) (h : ∀ s x, (f s x).readHi = s.readHi) (l : List α) (s : State) : (l.foldl f s).readHi = s.readHi := foldl_keeps State.readHi f h l s

@[simp] theorem foldl_writeLo {α : Type} (f : State → α → State) (h : ∀ s x, (f s x).writeLo = s.writeLo) (l : List α) (s : State) : (l.foldl f s).writeLo = s.writeLo := foldl_keeps State.writeLo f h l s

@[simp] theorem emit_keeps (s : State) (o : Output) :
    (emit s o).pending = s.pending ∧ (emit s o).bootReady = s.bootReady ∧ (emit s o).fresh = s.fresh ∧ (emit s o).now = s.now ∧ (emit s o).up = s.up ∧ (emit s o).mem = s.mem ∧ (emit s o).mmu = s.mmu ∧ (emit s o).tlb = s.tlb ∧ (emit s o).hif = s.hif ∧ (emit s o).knots = s.knots ∧ (emit s o).qmu = s.qmu ∧ (emit s o).eng = s.eng ∧ (emit s o).safe = s.safe ∧ (emit s o).power = s.power ∧ (emit s o).tb = s.tb ∧ (emit s o).fldT = s.fldT ∧ (emit s o).trig = s.trig ∧ (emit s o).ing = s.ing ∧ (emit s o).spl = s.spl ∧ (emit s o).xft = s.xft ∧ (emit s o).geo = s.geo ∧ (emit s o).eth = s.eth ∧ (emit s o).oct = s.oct ∧ (emit s o).seq = s.seq ∧ (emit s o).slv = s.slv ∧ (emit s o).lyt = s.lyt ∧ (emit s o).icu = s.icu ∧ (emit s o).sic = s.sic ∧ (emit s o).sec = s.sec ∧ (emit s o).fld = s.fld ∧ (emit s o).dbg = s.dbg ∧ (emit s o).cfg = s.cfg ∧ (emit s o).live = s.live ∧ (emit s o).cfgPrev = s.cfgPrev ∧ (emit s o).changedAt = s.changedAt ∧ (emit s o).epochs = s.epochs ∧ (emit s o).results = s.results ∧ (emit s o).modesNext = s.modesNext ∧ (emit s o).modes = s.modes ∧ (emit s o).readHi = s.readHi ∧ (emit s o).writeLo = s.writeLo := by
  generalize h : emit s o = t
  simp only [emit] at h
  repeat' split at h
  all_goals (subst h; simp)

@[simp] theorem tickFresh_keeps (s : State) :
    (tickFresh s).pending = s.pending ∧ (tickFresh s).bootReady = s.bootReady ∧ (tickFresh s).out = s.out ∧ (tickFresh s).now = s.now ∧ (tickFresh s).up = s.up ∧ (tickFresh s).mem = s.mem ∧ (tickFresh s).mmu = s.mmu ∧ (tickFresh s).tlb = s.tlb ∧ (tickFresh s).hif = s.hif ∧ (tickFresh s).knots = s.knots ∧ (tickFresh s).qmu = s.qmu ∧ (tickFresh s).eng = s.eng ∧ (tickFresh s).safe = s.safe ∧ (tickFresh s).power = s.power ∧ (tickFresh s).tb = s.tb ∧ (tickFresh s).fldT = s.fldT ∧ (tickFresh s).trig = s.trig ∧ (tickFresh s).ing = s.ing ∧ (tickFresh s).spl = s.spl ∧ (tickFresh s).xft = s.xft ∧ (tickFresh s).geo = s.geo ∧ (tickFresh s).eth = s.eth ∧ (tickFresh s).oct = s.oct ∧ (tickFresh s).seq = s.seq ∧ (tickFresh s).slv = s.slv ∧ (tickFresh s).lyt = s.lyt ∧ (tickFresh s).icu = s.icu ∧ (tickFresh s).sic = s.sic ∧ (tickFresh s).sec = s.sec ∧ (tickFresh s).fld = s.fld ∧ (tickFresh s).dbg = s.dbg ∧ (tickFresh s).cfg = s.cfg ∧ (tickFresh s).live = s.live ∧ (tickFresh s).cfgPrev = s.cfgPrev ∧ (tickFresh s).changedAt = s.changedAt ∧ (tickFresh s).epochs = s.epochs ∧ (tickFresh s).results = s.results ∧ (tickFresh s).modesNext = s.modesNext ∧ (tickFresh s).modes = s.modes ∧ (tickFresh s).readHi = s.readHi ∧ (tickFresh s).writeLo = s.writeLo := by
  generalize h : tickFresh s = t
  simp only [tickFresh] at h
  all_goals (subst h; simp)

@[simp] theorem advanceTo_keeps (s : State) (t : Nat) :
    (advanceTo s t).pending = s.pending ∧ (advanceTo s t).bootReady = s.bootReady ∧ (advanceTo s t).out = s.out ∧ (advanceTo s t).fresh = s.fresh ∧ (advanceTo s t).mem = s.mem ∧ (advanceTo s t).mmu = s.mmu ∧ (advanceTo s t).tlb = s.tlb ∧ (advanceTo s t).hif = s.hif ∧ (advanceTo s t).knots = s.knots ∧ (advanceTo s t).qmu = s.qmu ∧ (advanceTo s t).eng = s.eng ∧ (advanceTo s t).safe = s.safe ∧ (advanceTo s t).power = s.power ∧ (advanceTo s t).tb = s.tb ∧ (advanceTo s t).fldT = s.fldT ∧ (advanceTo s t).trig = s.trig ∧ (advanceTo s t).ing = s.ing ∧ (advanceTo s t).spl = s.spl ∧ (advanceTo s t).xft = s.xft ∧ (advanceTo s t).geo = s.geo ∧ (advanceTo s t).eth = s.eth ∧ (advanceTo s t).oct = s.oct ∧ (advanceTo s t).seq = s.seq ∧ (advanceTo s t).slv = s.slv ∧ (advanceTo s t).lyt = s.lyt ∧ (advanceTo s t).icu = s.icu ∧ (advanceTo s t).sic = s.sic ∧ (advanceTo s t).sec = s.sec ∧ (advanceTo s t).fld = s.fld ∧ (advanceTo s t).dbg = s.dbg ∧ (advanceTo s t).cfg = s.cfg ∧ (advanceTo s t).live = s.live ∧ (advanceTo s t).cfgPrev = s.cfgPrev ∧ (advanceTo s t).changedAt = s.changedAt ∧ (advanceTo s t).epochs = s.epochs ∧ (advanceTo s t).results = s.results ∧ (advanceTo s t).modesNext = s.modesNext ∧ (advanceTo s t).modes = s.modes ∧ (advanceTo s t).readHi = s.readHi ∧ (advanceTo s t).writeLo = s.writeLo := by
  generalize h : advanceTo s t = t
  simp only [advanceTo] at h
  all_goals (subst h; simp)

@[simp] theorem advanceUp_keeps (s : State) (t : Nat) :
    (advanceUp s t).pending = s.pending ∧ (advanceUp s t).bootReady = s.bootReady ∧ (advanceUp s t).out = s.out ∧ (advanceUp s t).fresh = s.fresh ∧ (advanceUp s t).mem = s.mem ∧ (advanceUp s t).mmu = s.mmu ∧ (advanceUp s t).tlb = s.tlb ∧ (advanceUp s t).hif = s.hif ∧ (advanceUp s t).knots = s.knots ∧ (advanceUp s t).qmu = s.qmu ∧ (advanceUp s t).eng = s.eng ∧ (advanceUp s t).safe = s.safe ∧ (advanceUp s t).power = s.power ∧ (advanceUp s t).tb = s.tb ∧ (advanceUp s t).fldT = s.fldT ∧ (advanceUp s t).trig = s.trig ∧ (advanceUp s t).ing = s.ing ∧ (advanceUp s t).spl = s.spl ∧ (advanceUp s t).xft = s.xft ∧ (advanceUp s t).geo = s.geo ∧ (advanceUp s t).eth = s.eth ∧ (advanceUp s t).oct = s.oct ∧ (advanceUp s t).seq = s.seq ∧ (advanceUp s t).slv = s.slv ∧ (advanceUp s t).lyt = s.lyt ∧ (advanceUp s t).icu = s.icu ∧ (advanceUp s t).sic = s.sic ∧ (advanceUp s t).sec = s.sec ∧ (advanceUp s t).fld = s.fld ∧ (advanceUp s t).dbg = s.dbg ∧ (advanceUp s t).cfg = s.cfg ∧ (advanceUp s t).live = s.live ∧ (advanceUp s t).cfgPrev = s.cfgPrev ∧ (advanceUp s t).changedAt = s.changedAt ∧ (advanceUp s t).epochs = s.epochs ∧ (advanceUp s t).results = s.results ∧ (advanceUp s t).modesNext = s.modesNext ∧ (advanceUp s t).modes = s.modes ∧ (advanceUp s t).readHi = s.readHi ∧ (advanceUp s t).writeLo = s.writeLo := by
  generalize h : advanceUp s t = t
  simp only [advanceUp] at h
  all_goals (subst h; simp)

@[simp] theorem idle_keeps (s : State) :
    (idle s).pending = s.pending ∧ (idle s).bootReady = s.bootReady ∧ (idle s).out = s.out ∧ (idle s).fresh = s.fresh ∧ (idle s).mem = s.mem ∧ (idle s).mmu = s.mmu ∧ (idle s).tlb = s.tlb ∧ (idle s).hif = s.hif ∧ (idle s).knots = s.knots ∧ (idle s).qmu = s.qmu ∧ (idle s).eng = s.eng ∧ (idle s).safe = s.safe ∧ (idle s).power = s.power ∧ (idle s).tb = s.tb ∧ (idle s).fldT = s.fldT ∧ (idle s).trig = s.trig ∧ (idle s).ing = s.ing ∧ (idle s).spl = s.spl ∧ (idle s).xft = s.xft ∧ (idle s).geo = s.geo ∧ (idle s).eth = s.eth ∧ (idle s).oct = s.oct ∧ (idle s).seq = s.seq ∧ (idle s).slv = s.slv ∧ (idle s).lyt = s.lyt ∧ (idle s).icu = s.icu ∧ (idle s).sic = s.sic ∧ (idle s).sec = s.sec ∧ (idle s).fld = s.fld ∧ (idle s).dbg = s.dbg ∧ (idle s).cfg = s.cfg ∧ (idle s).live = s.live ∧ (idle s).cfgPrev = s.cfgPrev ∧ (idle s).changedAt = s.changedAt ∧ (idle s).epochs = s.epochs ∧ (idle s).results = s.results ∧ (idle s).modesNext = s.modesNext ∧ (idle s).modes = s.modes ∧ (idle s).readHi = s.readHi ∧ (idle s).writeLo = s.writeLo := by
  generalize h : idle s = t
  simp only [idle] at h
  repeat' split at h
  all_goals (subst h; simp)

@[simp] theorem icuSet_keeps (s : State) (k : Nat) (level : Bool) :
    (icuSet s k level).pending = s.pending ∧ (icuSet s k level).bootReady = s.bootReady ∧ (icuSet s k level).out = s.out ∧ (icuSet s k level).fresh = s.fresh ∧ (icuSet s k level).now = s.now ∧ (icuSet s k level).up = s.up ∧ (icuSet s k level).mem = s.mem ∧ (icuSet s k level).mmu = s.mmu ∧ (icuSet s k level).tlb = s.tlb ∧ (icuSet s k level).hif = s.hif ∧ (icuSet s k level).knots = s.knots ∧ (icuSet s k level).qmu = s.qmu ∧ (icuSet s k level).eng = s.eng ∧ (icuSet s k level).safe = s.safe ∧ (icuSet s k level).power = s.power ∧ (icuSet s k level).tb = s.tb ∧ (icuSet s k level).fldT = s.fldT ∧ (icuSet s k level).trig = s.trig ∧ (icuSet s k level).ing = s.ing ∧ (icuSet s k level).spl = s.spl ∧ (icuSet s k level).xft = s.xft ∧ (icuSet s k level).geo = s.geo ∧ (icuSet s k level).eth = s.eth ∧ (icuSet s k level).oct = s.oct ∧ (icuSet s k level).seq = s.seq ∧ (icuSet s k level).slv = s.slv ∧ (icuSet s k level).lyt = s.lyt ∧ (icuSet s k level).sic = s.sic ∧ (icuSet s k level).sec = s.sec ∧ (icuSet s k level).fld = s.fld ∧ (icuSet s k level).dbg = s.dbg ∧ (icuSet s k level).cfg = s.cfg ∧ (icuSet s k level).live = s.live ∧ (icuSet s k level).cfgPrev = s.cfgPrev ∧ (icuSet s k level).changedAt = s.changedAt ∧ (icuSet s k level).epochs = s.epochs ∧ (icuSet s k level).results = s.results ∧ (icuSet s k level).modesNext = s.modesNext ∧ (icuSet s k level).modes = s.modes ∧ (icuSet s k level).readHi = s.readHi ∧ (icuSet s k level).writeLo = s.writeLo := by
  generalize h : icuSet s k level = t
  simp only [icuSet] at h
  all_goals (subst h; simp)

@[simp] theorem icuPulse_keeps (s : State) (k : Nat) :
    (icuPulse s k).pending = s.pending ∧ (icuPulse s k).bootReady = s.bootReady ∧ (icuPulse s k).out = s.out ∧ (icuPulse s k).fresh = s.fresh ∧ (icuPulse s k).now = s.now ∧ (icuPulse s k).up = s.up ∧ (icuPulse s k).mem = s.mem ∧ (icuPulse s k).mmu = s.mmu ∧ (icuPulse s k).tlb = s.tlb ∧ (icuPulse s k).hif = s.hif ∧ (icuPulse s k).knots = s.knots ∧ (icuPulse s k).qmu = s.qmu ∧ (icuPulse s k).eng = s.eng ∧ (icuPulse s k).safe = s.safe ∧ (icuPulse s k).power = s.power ∧ (icuPulse s k).tb = s.tb ∧ (icuPulse s k).fldT = s.fldT ∧ (icuPulse s k).trig = s.trig ∧ (icuPulse s k).ing = s.ing ∧ (icuPulse s k).spl = s.spl ∧ (icuPulse s k).xft = s.xft ∧ (icuPulse s k).geo = s.geo ∧ (icuPulse s k).eth = s.eth ∧ (icuPulse s k).oct = s.oct ∧ (icuPulse s k).seq = s.seq ∧ (icuPulse s k).slv = s.slv ∧ (icuPulse s k).lyt = s.lyt ∧ (icuPulse s k).sic = s.sic ∧ (icuPulse s k).sec = s.sec ∧ (icuPulse s k).fld = s.fld ∧ (icuPulse s k).dbg = s.dbg ∧ (icuPulse s k).cfg = s.cfg ∧ (icuPulse s k).live = s.live ∧ (icuPulse s k).cfgPrev = s.cfgPrev ∧ (icuPulse s k).changedAt = s.changedAt ∧ (icuPulse s k).epochs = s.epochs ∧ (icuPulse s k).results = s.results ∧ (icuPulse s k).modesNext = s.modesNext ∧ (icuPulse s k).modes = s.modes ∧ (icuPulse s k).readHi = s.readHi ∧ (icuPulse s k).writeLo = s.writeLo := by
  generalize h : icuPulse s k = t
  simp only [icuPulse] at h
  all_goals (subst h; simp)

@[simp] theorem sicSet_keeps (s : State) (k : Nat) (level : Bool) :
    (sicSet s k level).pending = s.pending ∧ (sicSet s k level).bootReady = s.bootReady ∧ (sicSet s k level).out = s.out ∧ (sicSet s k level).fresh = s.fresh ∧ (sicSet s k level).now = s.now ∧ (sicSet s k level).up = s.up ∧ (sicSet s k level).mem = s.mem ∧ (sicSet s k level).mmu = s.mmu ∧ (sicSet s k level).tlb = s.tlb ∧ (sicSet s k level).hif = s.hif ∧ (sicSet s k level).knots = s.knots ∧ (sicSet s k level).qmu = s.qmu ∧ (sicSet s k level).eng = s.eng ∧ (sicSet s k level).safe = s.safe ∧ (sicSet s k level).power = s.power ∧ (sicSet s k level).tb = s.tb ∧ (sicSet s k level).fldT = s.fldT ∧ (sicSet s k level).trig = s.trig ∧ (sicSet s k level).ing = s.ing ∧ (sicSet s k level).spl = s.spl ∧ (sicSet s k level).xft = s.xft ∧ (sicSet s k level).geo = s.geo ∧ (sicSet s k level).eth = s.eth ∧ (sicSet s k level).oct = s.oct ∧ (sicSet s k level).seq = s.seq ∧ (sicSet s k level).slv = s.slv ∧ (sicSet s k level).lyt = s.lyt ∧ (sicSet s k level).icu = s.icu ∧ (sicSet s k level).sec = s.sec ∧ (sicSet s k level).fld = s.fld ∧ (sicSet s k level).dbg = s.dbg ∧ (sicSet s k level).cfg = s.cfg ∧ (sicSet s k level).live = s.live ∧ (sicSet s k level).cfgPrev = s.cfgPrev ∧ (sicSet s k level).changedAt = s.changedAt ∧ (sicSet s k level).epochs = s.epochs ∧ (sicSet s k level).results = s.results ∧ (sicSet s k level).modesNext = s.modesNext ∧ (sicSet s k level).modes = s.modes ∧ (sicSet s k level).readHi = s.readHi ∧ (sicSet s k level).writeLo = s.writeLo := by
  generalize h : sicSet s k level = t
  simp only [sicSet] at h
  all_goals (subst h; simp)

@[simp] theorem sicPulse_keeps (s : State) (k : Nat) :
    (sicPulse s k).pending = s.pending ∧ (sicPulse s k).bootReady = s.bootReady ∧ (sicPulse s k).out = s.out ∧ (sicPulse s k).fresh = s.fresh ∧ (sicPulse s k).now = s.now ∧ (sicPulse s k).up = s.up ∧ (sicPulse s k).mem = s.mem ∧ (sicPulse s k).mmu = s.mmu ∧ (sicPulse s k).tlb = s.tlb ∧ (sicPulse s k).hif = s.hif ∧ (sicPulse s k).knots = s.knots ∧ (sicPulse s k).qmu = s.qmu ∧ (sicPulse s k).eng = s.eng ∧ (sicPulse s k).safe = s.safe ∧ (sicPulse s k).power = s.power ∧ (sicPulse s k).tb = s.tb ∧ (sicPulse s k).fldT = s.fldT ∧ (sicPulse s k).trig = s.trig ∧ (sicPulse s k).ing = s.ing ∧ (sicPulse s k).spl = s.spl ∧ (sicPulse s k).xft = s.xft ∧ (sicPulse s k).geo = s.geo ∧ (sicPulse s k).eth = s.eth ∧ (sicPulse s k).oct = s.oct ∧ (sicPulse s k).seq = s.seq ∧ (sicPulse s k).slv = s.slv ∧ (sicPulse s k).lyt = s.lyt ∧ (sicPulse s k).icu = s.icu ∧ (sicPulse s k).sec = s.sec ∧ (sicPulse s k).fld = s.fld ∧ (sicPulse s k).dbg = s.dbg ∧ (sicPulse s k).cfg = s.cfg ∧ (sicPulse s k).live = s.live ∧ (sicPulse s k).cfgPrev = s.cfgPrev ∧ (sicPulse s k).changedAt = s.changedAt ∧ (sicPulse s k).epochs = s.epochs ∧ (sicPulse s k).results = s.results ∧ (sicPulse s k).modesNext = s.modesNext ∧ (sicPulse s k).modes = s.modes ∧ (sicPulse s k).readHi = s.readHi ∧ (sicPulse s k).writeLo = s.writeLo := by
  generalize h : sicPulse s k = t
  simp only [sicPulse] at h
  all_goals (subst h; simp)

@[simp] theorem enterIntake_keeps (s : State) (r : Report) :
    (enterIntake s r).pending = s.pending ∧ (enterIntake s r).bootReady = s.bootReady ∧ (enterIntake s r).out = s.out ∧ (enterIntake s r).fresh = s.fresh ∧ (enterIntake s r).now = s.now ∧ (enterIntake s r).up = s.up ∧ (enterIntake s r).mem = s.mem ∧ (enterIntake s r).mmu = s.mmu ∧ (enterIntake s r).tlb = s.tlb ∧ (enterIntake s r).hif = s.hif ∧ (enterIntake s r).knots = s.knots ∧ (enterIntake s r).qmu = s.qmu ∧ (enterIntake s r).eng = s.eng ∧ (enterIntake s r).power = s.power ∧ (enterIntake s r).tb = s.tb ∧ (enterIntake s r).fldT = s.fldT ∧ (enterIntake s r).trig = s.trig ∧ (enterIntake s r).ing = s.ing ∧ (enterIntake s r).spl = s.spl ∧ (enterIntake s r).xft = s.xft ∧ (enterIntake s r).geo = s.geo ∧ (enterIntake s r).eth = s.eth ∧ (enterIntake s r).oct = s.oct ∧ (enterIntake s r).seq = s.seq ∧ (enterIntake s r).slv = s.slv ∧ (enterIntake s r).lyt = s.lyt ∧ (enterIntake s r).sec = s.sec ∧ (enterIntake s r).fld = s.fld ∧ (enterIntake s r).dbg = s.dbg ∧ (enterIntake s r).cfg = s.cfg ∧ (enterIntake s r).live = s.live ∧ (enterIntake s r).cfgPrev = s.cfgPrev ∧ (enterIntake s r).changedAt = s.changedAt ∧ (enterIntake s r).epochs = s.epochs ∧ (enterIntake s r).results = s.results ∧ (enterIntake s r).modesNext = s.modesNext ∧ (enterIntake s r).modes = s.modes ∧ (enterIntake s r).readHi = s.readHi ∧ (enterIntake s r).writeLo = s.writeLo := by
  generalize h : enterIntake s r = t
  simp only [enterIntake] at h
  repeat' split at h
  all_goals (subst h; simp)

@[simp] theorem actingOn_pending (k : Option Nat) (s : State) (g : State → State) (h : ∀ s, (g s).pending = s.pending) :
    (actingOn k s g).pending = s.pending := by simp [actingOn, h]

@[simp] theorem actingOn_mem (k : Option Nat) (s : State) (g : State → State) (h : ∀ s, (g s).mem = s.mem) : (actingOn k s g).mem = s.mem := by
  simp [actingOn, h]

@[simp] theorem raiseNow_keeps (s : State) (r : Report) :
    (raiseNow s r).pending = s.pending ∧ (raiseNow s r).bootReady = s.bootReady ∧ (raiseNow s r).out = s.out ∧ (raiseNow s r).fresh = s.fresh ∧ (raiseNow s r).now = s.now ∧ (raiseNow s r).up = s.up ∧ (raiseNow s r).mem = s.mem ∧ (raiseNow s r).mmu = s.mmu ∧ (raiseNow s r).tlb = s.tlb ∧ (raiseNow s r).hif = s.hif ∧ (raiseNow s r).knots = s.knots ∧ (raiseNow s r).qmu = s.qmu ∧ (raiseNow s r).eng = s.eng ∧ (raiseNow s r).power = s.power ∧ (raiseNow s r).tb = s.tb ∧ (raiseNow s r).fldT = s.fldT ∧ (raiseNow s r).trig = s.trig ∧ (raiseNow s r).ing = s.ing ∧ (raiseNow s r).spl = s.spl ∧ (raiseNow s r).xft = s.xft ∧ (raiseNow s r).geo = s.geo ∧ (raiseNow s r).eth = s.eth ∧ (raiseNow s r).oct = s.oct ∧ (raiseNow s r).seq = s.seq ∧ (raiseNow s r).slv = s.slv ∧ (raiseNow s r).lyt = s.lyt ∧ (raiseNow s r).sec = s.sec ∧ (raiseNow s r).fld = s.fld ∧ (raiseNow s r).dbg = s.dbg ∧ (raiseNow s r).cfg = s.cfg ∧ (raiseNow s r).live = s.live ∧ (raiseNow s r).cfgPrev = s.cfgPrev ∧ (raiseNow s r).changedAt = s.changedAt ∧ (raiseNow s r).epochs = s.epochs ∧ (raiseNow s r).results = s.results ∧ (raiseNow s r).modesNext = s.modesNext ∧ (raiseNow s r).modes = s.modes ∧ (raiseNow s r).readHi = s.readHi ∧ (raiseNow s r).writeLo = s.writeLo := by
  generalize h : raiseNow s r = t
  simp only [raiseNow] at h
  repeat' split at h
  all_goals (subst h; simp)

@[simp] theorem raise_keeps (s : State) (r : Report) :
    (raise s r).pending = s.pending ∧ (raise s r).bootReady = s.bootReady ∧ (raise s r).out = s.out ∧ (raise s r).fresh = s.fresh ∧ (raise s r).now = s.now ∧ (raise s r).up = s.up ∧ (raise s r).mem = s.mem ∧ (raise s r).mmu = s.mmu ∧ (raise s r).tlb = s.tlb ∧ (raise s r).hif = s.hif ∧ (raise s r).knots = s.knots ∧ (raise s r).qmu = s.qmu ∧ (raise s r).eng = s.eng ∧ (raise s r).power = s.power ∧ (raise s r).tb = s.tb ∧ (raise s r).fldT = s.fldT ∧ (raise s r).trig = s.trig ∧ (raise s r).ing = s.ing ∧ (raise s r).spl = s.spl ∧ (raise s r).xft = s.xft ∧ (raise s r).geo = s.geo ∧ (raise s r).eth = s.eth ∧ (raise s r).oct = s.oct ∧ (raise s r).seq = s.seq ∧ (raise s r).slv = s.slv ∧ (raise s r).lyt = s.lyt ∧ (raise s r).sec = s.sec ∧ (raise s r).fld = s.fld ∧ (raise s r).dbg = s.dbg ∧ (raise s r).cfg = s.cfg ∧ (raise s r).live = s.live ∧ (raise s r).cfgPrev = s.cfgPrev ∧ (raise s r).changedAt = s.changedAt ∧ (raise s r).epochs = s.epochs ∧ (raise s r).results = s.results ∧ (raise s r).modesNext = s.modesNext ∧ (raise s r).modes = s.modes ∧ (raise s r).readHi = s.readHi ∧ (raise s r).writeLo = s.writeLo := by
  generalize h : raise s r = t
  simp only [raise] at h
  all_goals (subst h; simp)

@[simp] theorem sramWrite_keeps (s : State) (k : Nat) (bs : List Byte) :
    (sramWrite s k bs).pending = s.pending ∧ (sramWrite s k bs).bootReady = s.bootReady ∧ (sramWrite s k bs).out = s.out ∧ (sramWrite s k bs).fresh = s.fresh ∧ (sramWrite s k bs).now = s.now ∧ (sramWrite s k bs).up = s.up ∧ (sramWrite s k bs).mmu = s.mmu ∧ (sramWrite s k bs).tlb = s.tlb ∧ (sramWrite s k bs).hif = s.hif ∧ (sramWrite s k bs).knots = s.knots ∧ (sramWrite s k bs).qmu = s.qmu ∧ (sramWrite s k bs).safe = s.safe ∧ (sramWrite s k bs).power = s.power ∧ (sramWrite s k bs).tb = s.tb ∧ (sramWrite s k bs).fldT = s.fldT ∧ (sramWrite s k bs).trig = s.trig ∧ (sramWrite s k bs).ing = s.ing ∧ (sramWrite s k bs).spl = s.spl ∧ (sramWrite s k bs).xft = s.xft ∧ (sramWrite s k bs).geo = s.geo ∧ (sramWrite s k bs).eth = s.eth ∧ (sramWrite s k bs).oct = s.oct ∧ (sramWrite s k bs).seq = s.seq ∧ (sramWrite s k bs).slv = s.slv ∧ (sramWrite s k bs).lyt = s.lyt ∧ (sramWrite s k bs).icu = s.icu ∧ (sramWrite s k bs).sic = s.sic ∧ (sramWrite s k bs).sec = s.sec ∧ (sramWrite s k bs).fld = s.fld ∧ (sramWrite s k bs).dbg = s.dbg ∧ (sramWrite s k bs).cfg = s.cfg ∧ (sramWrite s k bs).live = s.live ∧ (sramWrite s k bs).cfgPrev = s.cfgPrev ∧ (sramWrite s k bs).changedAt = s.changedAt ∧ (sramWrite s k bs).epochs = s.epochs ∧ (sramWrite s k bs).results = s.results ∧ (sramWrite s k bs).modesNext = s.modesNext ∧ (sramWrite s k bs).modes = s.modes ∧ (sramWrite s k bs).readHi = s.readHi ∧ (sramWrite s k bs).writeLo = s.writeLo := by
  generalize h : sramWrite s k bs = t
  simp only [sramWrite] at h
  all_goals (subst h; simp)

@[simp] theorem tracePut_keeps (s : State) (r : BitVec 128) :
    (tracePut s r).pending = s.pending ∧ (tracePut s r).bootReady = s.bootReady ∧ (tracePut s r).fresh = s.fresh ∧ (tracePut s r).now = s.now ∧ (tracePut s r).up = s.up ∧ (tracePut s r).mem = s.mem ∧ (tracePut s r).mmu = s.mmu ∧ (tracePut s r).tlb = s.tlb ∧ (tracePut s r).hif = s.hif ∧ (tracePut s r).knots = s.knots ∧ (tracePut s r).qmu = s.qmu ∧ (tracePut s r).eng = s.eng ∧ (tracePut s r).safe = s.safe ∧ (tracePut s r).power = s.power ∧ (tracePut s r).tb = s.tb ∧ (tracePut s r).fldT = s.fldT ∧ (tracePut s r).trig = s.trig ∧ (tracePut s r).ing = s.ing ∧ (tracePut s r).spl = s.spl ∧ (tracePut s r).xft = s.xft ∧ (tracePut s r).geo = s.geo ∧ (tracePut s r).eth = s.eth ∧ (tracePut s r).oct = s.oct ∧ (tracePut s r).seq = s.seq ∧ (tracePut s r).slv = s.slv ∧ (tracePut s r).lyt = s.lyt ∧ (tracePut s r).icu = s.icu ∧ (tracePut s r).sic = s.sic ∧ (tracePut s r).sec = s.sec ∧ (tracePut s r).fld = s.fld ∧ (tracePut s r).cfg = s.cfg ∧ (tracePut s r).live = s.live ∧ (tracePut s r).cfgPrev = s.cfgPrev ∧ (tracePut s r).changedAt = s.changedAt ∧ (tracePut s r).epochs = s.epochs ∧ (tracePut s r).results = s.results ∧ (tracePut s r).modesNext = s.modesNext ∧ (tracePut s r).modes = s.modes ∧ (tracePut s r).readHi = s.readHi ∧ (tracePut s r).writeLo = s.writeLo := by
  generalize h : tracePut s r = t
  simp only [tracePut] at h
  all_goals (subst h; simp)

@[simp] theorem tracePush_keeps (s : State) (r : BitVec 128) :
    (tracePush s r).pending = s.pending ∧ (tracePush s r).bootReady = s.bootReady ∧ (tracePush s r).fresh = s.fresh ∧ (tracePush s r).now = s.now ∧ (tracePush s r).up = s.up ∧ (tracePush s r).mem = s.mem ∧ (tracePush s r).mmu = s.mmu ∧ (tracePush s r).tlb = s.tlb ∧ (tracePush s r).hif = s.hif ∧ (tracePush s r).knots = s.knots ∧ (tracePush s r).qmu = s.qmu ∧ (tracePush s r).eng = s.eng ∧ (tracePush s r).safe = s.safe ∧ (tracePush s r).power = s.power ∧ (tracePush s r).tb = s.tb ∧ (tracePush s r).fldT = s.fldT ∧ (tracePush s r).trig = s.trig ∧ (tracePush s r).ing = s.ing ∧ (tracePush s r).spl = s.spl ∧ (tracePush s r).xft = s.xft ∧ (tracePush s r).geo = s.geo ∧ (tracePush s r).eth = s.eth ∧ (tracePush s r).oct = s.oct ∧ (tracePush s r).seq = s.seq ∧ (tracePush s r).slv = s.slv ∧ (tracePush s r).lyt = s.lyt ∧ (tracePush s r).icu = s.icu ∧ (tracePush s r).sic = s.sic ∧ (tracePush s r).sec = s.sec ∧ (tracePush s r).fld = s.fld ∧ (tracePush s r).cfg = s.cfg ∧ (tracePush s r).live = s.live ∧ (tracePush s r).cfgPrev = s.cfgPrev ∧ (tracePush s r).changedAt = s.changedAt ∧ (tracePush s r).epochs = s.epochs ∧ (tracePush s r).results = s.results ∧ (tracePush s r).modesNext = s.modesNext ∧ (tracePush s r).modes = s.modes ∧ (tracePush s r).readHi = s.readHi ∧ (tracePush s r).writeLo = s.writeLo := by
  generalize h : tracePush s r = t
  simp only [tracePush] at h
  repeat' split at h
  all_goals (subst h; simp)

@[simp] theorem trace_keeps (s : State) (type : Nat) (kind : Nat) (index : Nat) (data : Nat) :
    (trace s type kind index data).pending = s.pending ∧ (trace s type kind index data).bootReady = s.bootReady ∧ (trace s type kind index data).fresh = s.fresh ∧ (trace s type kind index data).now = s.now ∧ (trace s type kind index data).up = s.up ∧ (trace s type kind index data).mem = s.mem ∧ (trace s type kind index data).mmu = s.mmu ∧ (trace s type kind index data).tlb = s.tlb ∧ (trace s type kind index data).hif = s.hif ∧ (trace s type kind index data).knots = s.knots ∧ (trace s type kind index data).qmu = s.qmu ∧ (trace s type kind index data).eng = s.eng ∧ (trace s type kind index data).safe = s.safe ∧ (trace s type kind index data).power = s.power ∧ (trace s type kind index data).tb = s.tb ∧ (trace s type kind index data).fldT = s.fldT ∧ (trace s type kind index data).trig = s.trig ∧ (trace s type kind index data).ing = s.ing ∧ (trace s type kind index data).spl = s.spl ∧ (trace s type kind index data).xft = s.xft ∧ (trace s type kind index data).geo = s.geo ∧ (trace s type kind index data).eth = s.eth ∧ (trace s type kind index data).oct = s.oct ∧ (trace s type kind index data).seq = s.seq ∧ (trace s type kind index data).slv = s.slv ∧ (trace s type kind index data).lyt = s.lyt ∧ (trace s type kind index data).icu = s.icu ∧ (trace s type kind index data).sic = s.sic ∧ (trace s type kind index data).sec = s.sec ∧ (trace s type kind index data).fld = s.fld ∧ (trace s type kind index data).cfg = s.cfg ∧ (trace s type kind index data).live = s.live ∧ (trace s type kind index data).cfgPrev = s.cfgPrev ∧ (trace s type kind index data).changedAt = s.changedAt ∧ (trace s type kind index data).epochs = s.epochs ∧ (trace s type kind index data).results = s.results ∧ (trace s type kind index data).modesNext = s.modesNext ∧ (trace s type kind index data).modes = s.modes ∧ (trace s type kind index data).readHi = s.readHi ∧ (trace s type kind index data).writeLo = s.writeLo := by
  generalize h : trace s type kind index data = t
  simp only [trace] at h
  repeat' split at h
  all_goals (subst h; simp)

@[simp] theorem stopTrace_keeps (s : State) :
    (stopTrace s).pending = s.pending ∧ (stopTrace s).bootReady = s.bootReady ∧ (stopTrace s).fresh = s.fresh ∧ (stopTrace s).now = s.now ∧ (stopTrace s).up = s.up ∧ (stopTrace s).mem = s.mem ∧ (stopTrace s).mmu = s.mmu ∧ (stopTrace s).tlb = s.tlb ∧ (stopTrace s).hif = s.hif ∧ (stopTrace s).knots = s.knots ∧ (stopTrace s).qmu = s.qmu ∧ (stopTrace s).eng = s.eng ∧ (stopTrace s).safe = s.safe ∧ (stopTrace s).power = s.power ∧ (stopTrace s).tb = s.tb ∧ (stopTrace s).fldT = s.fldT ∧ (stopTrace s).trig = s.trig ∧ (stopTrace s).ing = s.ing ∧ (stopTrace s).spl = s.spl ∧ (stopTrace s).xft = s.xft ∧ (stopTrace s).geo = s.geo ∧ (stopTrace s).eth = s.eth ∧ (stopTrace s).oct = s.oct ∧ (stopTrace s).seq = s.seq ∧ (stopTrace s).slv = s.slv ∧ (stopTrace s).lyt = s.lyt ∧ (stopTrace s).icu = s.icu ∧ (stopTrace s).sic = s.sic ∧ (stopTrace s).sec = s.sec ∧ (stopTrace s).fld = s.fld ∧ (stopTrace s).cfg = s.cfg ∧ (stopTrace s).live = s.live ∧ (stopTrace s).cfgPrev = s.cfgPrev ∧ (stopTrace s).changedAt = s.changedAt ∧ (stopTrace s).epochs = s.epochs ∧ (stopTrace s).results = s.results ∧ (stopTrace s).modesNext = s.modesNext ∧ (stopTrace s).modes = s.modes ∧ (stopTrace s).readHi = s.readHi ∧ (stopTrace s).writeLo = s.writeLo := by
  generalize h : stopTrace s = t
  simp only [stopTrace] at h
  repeat' split at h
  all_goals (subst h; simp)

@[simp] theorem octSend_keeps (s : State) (p : Nat) (h : BitVec 128) (payload : List Byte) :
    (octSend s p h payload).pending = s.pending ∧ (octSend s p h payload).bootReady = s.bootReady ∧ (octSend s p h payload).fresh = s.fresh ∧ (octSend s p h payload).now = s.now ∧ (octSend s p h payload).up = s.up ∧ (octSend s p h payload).mem = s.mem ∧ (octSend s p h payload).mmu = s.mmu ∧ (octSend s p h payload).tlb = s.tlb ∧ (octSend s p h payload).hif = s.hif ∧ (octSend s p h payload).knots = s.knots ∧ (octSend s p h payload).qmu = s.qmu ∧ (octSend s p h payload).eng = s.eng ∧ (octSend s p h payload).safe = s.safe ∧ (octSend s p h payload).power = s.power ∧ (octSend s p h payload).tb = s.tb ∧ (octSend s p h payload).fldT = s.fldT ∧ (octSend s p h payload).trig = s.trig ∧ (octSend s p h payload).ing = s.ing ∧ (octSend s p h payload).spl = s.spl ∧ (octSend s p h payload).xft = s.xft ∧ (octSend s p h payload).geo = s.geo ∧ (octSend s p h payload).eth = s.eth ∧ (octSend s p h payload).slv = s.slv ∧ (octSend s p h payload).lyt = s.lyt ∧ (octSend s p h payload).icu = s.icu ∧ (octSend s p h payload).sic = s.sic ∧ (octSend s p h payload).sec = s.sec ∧ (octSend s p h payload).fld = s.fld ∧ (octSend s p h payload).dbg = s.dbg ∧ (octSend s p h payload).cfg = s.cfg ∧ (octSend s p h payload).live = s.live ∧ (octSend s p h payload).cfgPrev = s.cfgPrev ∧ (octSend s p h payload).changedAt = s.changedAt ∧ (octSend s p h payload).epochs = s.epochs ∧ (octSend s p h payload).results = s.results ∧ (octSend s p h payload).modesNext = s.modesNext ∧ (octSend s p h payload).modes = s.modes ∧ (octSend s p h payload).readHi = s.readHi ∧ (octSend s p h payload).writeLo = s.writeLo := by
  generalize h : octSend s p h payload = t
  simp only [octSend] at h
  all_goals (subst h; simp)

@[simp] theorem raiseUnreachable_keeps (s : State) (m : Nat) (did : Nat) :
    (raiseUnreachable s m did).pending = s.pending ∧ (raiseUnreachable s m did).bootReady = s.bootReady ∧ (raiseUnreachable s m did).out = s.out ∧ (raiseUnreachable s m did).fresh = s.fresh ∧ (raiseUnreachable s m did).now = s.now ∧ (raiseUnreachable s m did).up = s.up ∧ (raiseUnreachable s m did).mem = s.mem ∧ (raiseUnreachable s m did).mmu = s.mmu ∧ (raiseUnreachable s m did).tlb = s.tlb ∧ (raiseUnreachable s m did).hif = s.hif ∧ (raiseUnreachable s m did).knots = s.knots ∧ (raiseUnreachable s m did).qmu = s.qmu ∧ (raiseUnreachable s m did).eng = s.eng ∧ (raiseUnreachable s m did).power = s.power ∧ (raiseUnreachable s m did).tb = s.tb ∧ (raiseUnreachable s m did).fldT = s.fldT ∧ (raiseUnreachable s m did).trig = s.trig ∧ (raiseUnreachable s m did).ing = s.ing ∧ (raiseUnreachable s m did).spl = s.spl ∧ (raiseUnreachable s m did).xft = s.xft ∧ (raiseUnreachable s m did).geo = s.geo ∧ (raiseUnreachable s m did).eth = s.eth ∧ (raiseUnreachable s m did).seq = s.seq ∧ (raiseUnreachable s m did).slv = s.slv ∧ (raiseUnreachable s m did).lyt = s.lyt ∧ (raiseUnreachable s m did).sec = s.sec ∧ (raiseUnreachable s m did).fld = s.fld ∧ (raiseUnreachable s m did).dbg = s.dbg ∧ (raiseUnreachable s m did).cfg = s.cfg ∧ (raiseUnreachable s m did).live = s.live ∧ (raiseUnreachable s m did).cfgPrev = s.cfgPrev ∧ (raiseUnreachable s m did).changedAt = s.changedAt ∧ (raiseUnreachable s m did).epochs = s.epochs ∧ (raiseUnreachable s m did).results = s.results ∧ (raiseUnreachable s m did).modesNext = s.modesNext ∧ (raiseUnreachable s m did).modes = s.modes ∧ (raiseUnreachable s m did).readHi = s.readHi ∧ (raiseUnreachable s m did).writeLo = s.writeLo := by
  generalize h : raiseUnreachable s m did = t
  simp only [raiseUnreachable] at h
  all_goals (subst h; simp)

@[simp] theorem raiseUndelivered_keeps (s : State) (m : Nat) (k : Nat) (did : Nat) (guarded : Bool) :
    (raiseUndelivered s m k did guarded).pending = s.pending ∧ (raiseUndelivered s m k did guarded).bootReady = s.bootReady ∧ (raiseUndelivered s m k did guarded).out = s.out ∧ (raiseUndelivered s m k did guarded).fresh = s.fresh ∧ (raiseUndelivered s m k did guarded).now = s.now ∧ (raiseUndelivered s m k did guarded).up = s.up ∧ (raiseUndelivered s m k did guarded).mem = s.mem ∧ (raiseUndelivered s m k did guarded).mmu = s.mmu ∧ (raiseUndelivered s m k did guarded).tlb = s.tlb ∧ (raiseUndelivered s m k did guarded).hif = s.hif ∧ (raiseUndelivered s m k did guarded).knots = s.knots ∧ (raiseUndelivered s m k did guarded).qmu = s.qmu ∧ (raiseUndelivered s m k did guarded).eng = s.eng ∧ (raiseUndelivered s m k did guarded).power = s.power ∧ (raiseUndelivered s m k did guarded).tb = s.tb ∧ (raiseUndelivered s m k did guarded).fldT = s.fldT ∧ (raiseUndelivered s m k did guarded).trig = s.trig ∧ (raiseUndelivered s m k did guarded).ing = s.ing ∧ (raiseUndelivered s m k did guarded).spl = s.spl ∧ (raiseUndelivered s m k did guarded).xft = s.xft ∧ (raiseUndelivered s m k did guarded).geo = s.geo ∧ (raiseUndelivered s m k did guarded).eth = s.eth ∧ (raiseUndelivered s m k did guarded).seq = s.seq ∧ (raiseUndelivered s m k did guarded).slv = s.slv ∧ (raiseUndelivered s m k did guarded).lyt = s.lyt ∧ (raiseUndelivered s m k did guarded).sec = s.sec ∧ (raiseUndelivered s m k did guarded).fld = s.fld ∧ (raiseUndelivered s m k did guarded).dbg = s.dbg ∧ (raiseUndelivered s m k did guarded).cfg = s.cfg ∧ (raiseUndelivered s m k did guarded).live = s.live ∧ (raiseUndelivered s m k did guarded).cfgPrev = s.cfgPrev ∧ (raiseUndelivered s m k did guarded).changedAt = s.changedAt ∧ (raiseUndelivered s m k did guarded).epochs = s.epochs ∧ (raiseUndelivered s m k did guarded).results = s.results ∧ (raiseUndelivered s m k did guarded).modesNext = s.modesNext ∧ (raiseUndelivered s m k did guarded).modes = s.modes ∧ (raiseUndelivered s m k did guarded).readHi = s.readHi ∧ (raiseUndelivered s m k did guarded).writeLo = s.writeLo := by
  generalize h : raiseUndelivered s m k did guarded = t
  simp only [raiseUndelivered] at h
  all_goals (subst h; simp)

@[simp] theorem octRequest_keeps (s : State) (p : Nat) (m : Nat) (did : Nat) (src : Option Source) (guarded : Bool) (write : Bool) (a : Nat) (bs : List Byte) (n : Nat) :
    (octRequest s p m did src guarded write a bs n).pending = s.pending ∧ (octRequest s p m did src guarded write a bs n).bootReady = s.bootReady ∧ (octRequest s p m did src guarded write a bs n).fresh = s.fresh ∧ (octRequest s p m did src guarded write a bs n).now = s.now ∧ (octRequest s p m did src guarded write a bs n).up = s.up ∧ (octRequest s p m did src guarded write a bs n).mem = s.mem ∧ (octRequest s p m did src guarded write a bs n).mmu = s.mmu ∧ (octRequest s p m did src guarded write a bs n).tlb = s.tlb ∧ (octRequest s p m did src guarded write a bs n).hif = s.hif ∧ (octRequest s p m did src guarded write a bs n).knots = s.knots ∧ (octRequest s p m did src guarded write a bs n).qmu = s.qmu ∧ (octRequest s p m did src guarded write a bs n).eng = s.eng ∧ (octRequest s p m did src guarded write a bs n).safe = s.safe ∧ (octRequest s p m did src guarded write a bs n).power = s.power ∧ (octRequest s p m did src guarded write a bs n).tb = s.tb ∧ (octRequest s p m did src guarded write a bs n).fldT = s.fldT ∧ (octRequest s p m did src guarded write a bs n).trig = s.trig ∧ (octRequest s p m did src guarded write a bs n).ing = s.ing ∧ (octRequest s p m did src guarded write a bs n).spl = s.spl ∧ (octRequest s p m did src guarded write a bs n).xft = s.xft ∧ (octRequest s p m did src guarded write a bs n).geo = s.geo ∧ (octRequest s p m did src guarded write a bs n).eth = s.eth ∧ (octRequest s p m did src guarded write a bs n).slv = s.slv ∧ (octRequest s p m did src guarded write a bs n).lyt = s.lyt ∧ (octRequest s p m did src guarded write a bs n).icu = s.icu ∧ (octRequest s p m did src guarded write a bs n).sic = s.sic ∧ (octRequest s p m did src guarded write a bs n).sec = s.sec ∧ (octRequest s p m did src guarded write a bs n).fld = s.fld ∧ (octRequest s p m did src guarded write a bs n).dbg = s.dbg ∧ (octRequest s p m did src guarded write a bs n).cfg = s.cfg ∧ (octRequest s p m did src guarded write a bs n).live = s.live ∧ (octRequest s p m did src guarded write a bs n).cfgPrev = s.cfgPrev ∧ (octRequest s p m did src guarded write a bs n).changedAt = s.changedAt ∧ (octRequest s p m did src guarded write a bs n).epochs = s.epochs ∧ (octRequest s p m did src guarded write a bs n).results = s.results ∧ (octRequest s p m did src guarded write a bs n).modesNext = s.modesNext ∧ (octRequest s p m did src guarded write a bs n).modes = s.modes ∧ (octRequest s p m did src guarded write a bs n).readHi = s.readHi ∧ (octRequest s p m did src guarded write a bs n).writeLo = s.writeLo := by
  simp [octRequest]

@[simp] theorem octAccess_keeps (s : State) (m : Nat) (did : Nat) (src : Option Source) (guarded : Bool) (write : Bool) (a : Nat) (bs : List Byte) (n : Nat) :
    (octAccess s m did src guarded write a bs n).2.pending = s.pending ∧ (octAccess s m did src guarded write a bs n).2.bootReady = s.bootReady ∧ (octAccess s m did src guarded write a bs n).2.now = s.now ∧ (octAccess s m did src guarded write a bs n).2.up = s.up ∧ (octAccess s m did src guarded write a bs n).2.mem = s.mem ∧ (octAccess s m did src guarded write a bs n).2.mmu = s.mmu ∧ (octAccess s m did src guarded write a bs n).2.tlb = s.tlb ∧ (octAccess s m did src guarded write a bs n).2.hif = s.hif ∧ (octAccess s m did src guarded write a bs n).2.knots = s.knots ∧ (octAccess s m did src guarded write a bs n).2.qmu = s.qmu ∧ (octAccess s m did src guarded write a bs n).2.eng = s.eng ∧ (octAccess s m did src guarded write a bs n).2.power = s.power ∧ (octAccess s m did src guarded write a bs n).2.tb = s.tb ∧ (octAccess s m did src guarded write a bs n).2.fldT = s.fldT ∧ (octAccess s m did src guarded write a bs n).2.trig = s.trig ∧ (octAccess s m did src guarded write a bs n).2.ing = s.ing ∧ (octAccess s m did src guarded write a bs n).2.spl = s.spl ∧ (octAccess s m did src guarded write a bs n).2.xft = s.xft ∧ (octAccess s m did src guarded write a bs n).2.geo = s.geo ∧ (octAccess s m did src guarded write a bs n).2.eth = s.eth ∧ (octAccess s m did src guarded write a bs n).2.slv = s.slv ∧ (octAccess s m did src guarded write a bs n).2.lyt = s.lyt ∧ (octAccess s m did src guarded write a bs n).2.sec = s.sec ∧ (octAccess s m did src guarded write a bs n).2.fld = s.fld ∧ (octAccess s m did src guarded write a bs n).2.dbg = s.dbg ∧ (octAccess s m did src guarded write a bs n).2.cfg = s.cfg ∧ (octAccess s m did src guarded write a bs n).2.live = s.live ∧ (octAccess s m did src guarded write a bs n).2.cfgPrev = s.cfgPrev ∧ (octAccess s m did src guarded write a bs n).2.changedAt = s.changedAt ∧ (octAccess s m did src guarded write a bs n).2.epochs = s.epochs ∧ (octAccess s m did src guarded write a bs n).2.results = s.results ∧ (octAccess s m did src guarded write a bs n).2.modesNext = s.modesNext ∧ (octAccess s m did src guarded write a bs n).2.modes = s.modes ∧ (octAccess s m did src guarded write a bs n).2.readHi = s.readHi ∧ (octAccess s m did src guarded write a bs n).2.writeLo = s.writeLo := by
  generalize h : octAccess s m did src guarded write a bs n = t
  simp only [octAccess] at h
  repeat' split at h
  all_goals (subst h; simp)

@[simp] theorem remoteSignal_keeps (s : State) (m : Nat) (k : Nat) (did : Nat) (guarded : Bool) (value : Nat) :
    (remoteSignal s m k did guarded value).pending = s.pending ∧ (remoteSignal s m k did guarded value).bootReady = s.bootReady ∧ (remoteSignal s m k did guarded value).fresh = s.fresh ∧ (remoteSignal s m k did guarded value).now = s.now ∧ (remoteSignal s m k did guarded value).up = s.up ∧ (remoteSignal s m k did guarded value).mem = s.mem ∧ (remoteSignal s m k did guarded value).mmu = s.mmu ∧ (remoteSignal s m k did guarded value).tlb = s.tlb ∧ (remoteSignal s m k did guarded value).hif = s.hif ∧ (remoteSignal s m k did guarded value).knots = s.knots ∧ (remoteSignal s m k did guarded value).qmu = s.qmu ∧ (remoteSignal s m k did guarded value).eng = s.eng ∧ (remoteSignal s m k did guarded value).power = s.power ∧ (remoteSignal s m k did guarded value).tb = s.tb ∧ (remoteSignal s m k did guarded value).fldT = s.fldT ∧ (remoteSignal s m k did guarded value).trig = s.trig ∧ (remoteSignal s m k did guarded value).ing = s.ing ∧ (remoteSignal s m k did guarded value).spl = s.spl ∧ (remoteSignal s m k did guarded value).xft = s.xft ∧ (remoteSignal s m k did guarded value).geo = s.geo ∧ (remoteSignal s m k did guarded value).eth = s.eth ∧ (remoteSignal s m k did guarded value).slv = s.slv ∧ (remoteSignal s m k did guarded value).lyt = s.lyt ∧ (remoteSignal s m k did guarded value).sec = s.sec ∧ (remoteSignal s m k did guarded value).fld = s.fld ∧ (remoteSignal s m k did guarded value).dbg = s.dbg ∧ (remoteSignal s m k did guarded value).cfg = s.cfg ∧ (remoteSignal s m k did guarded value).live = s.live ∧ (remoteSignal s m k did guarded value).cfgPrev = s.cfgPrev ∧ (remoteSignal s m k did guarded value).changedAt = s.changedAt ∧ (remoteSignal s m k did guarded value).epochs = s.epochs ∧ (remoteSignal s m k did guarded value).results = s.results ∧ (remoteSignal s m k did guarded value).modesNext = s.modesNext ∧ (remoteSignal s m k did guarded value).modes = s.modes ∧ (remoteSignal s m k did guarded value).readHi = s.readHi ∧ (remoteSignal s m k did guarded value).writeLo = s.writeLo := by
  generalize h : remoteSignal s m k did guarded value = t
  simp only [remoteSignal] at h
  repeat' split at h
  all_goals (subst h; simp)

@[simp] theorem tlbTouch_keeps (s : State) (w : Who) (va : Nat) :
    (tlbTouch s w va).pending = s.pending ∧ (tlbTouch s w va).bootReady = s.bootReady ∧ (tlbTouch s w va).out = s.out ∧ (tlbTouch s w va).fresh = s.fresh ∧ (tlbTouch s w va).now = s.now ∧ (tlbTouch s w va).up = s.up ∧ (tlbTouch s w va).mem = s.mem ∧ (tlbTouch s w va).mmu = s.mmu ∧ (tlbTouch s w va).hif = s.hif ∧ (tlbTouch s w va).knots = s.knots ∧ (tlbTouch s w va).qmu = s.qmu ∧ (tlbTouch s w va).eng = s.eng ∧ (tlbTouch s w va).safe = s.safe ∧ (tlbTouch s w va).power = s.power ∧ (tlbTouch s w va).tb = s.tb ∧ (tlbTouch s w va).fldT = s.fldT ∧ (tlbTouch s w va).trig = s.trig ∧ (tlbTouch s w va).ing = s.ing ∧ (tlbTouch s w va).spl = s.spl ∧ (tlbTouch s w va).xft = s.xft ∧ (tlbTouch s w va).geo = s.geo ∧ (tlbTouch s w va).eth = s.eth ∧ (tlbTouch s w va).oct = s.oct ∧ (tlbTouch s w va).seq = s.seq ∧ (tlbTouch s w va).slv = s.slv ∧ (tlbTouch s w va).lyt = s.lyt ∧ (tlbTouch s w va).icu = s.icu ∧ (tlbTouch s w va).sic = s.sic ∧ (tlbTouch s w va).sec = s.sec ∧ (tlbTouch s w va).fld = s.fld ∧ (tlbTouch s w va).dbg = s.dbg ∧ (tlbTouch s w va).cfg = s.cfg ∧ (tlbTouch s w va).live = s.live ∧ (tlbTouch s w va).cfgPrev = s.cfgPrev ∧ (tlbTouch s w va).changedAt = s.changedAt ∧ (tlbTouch s w va).epochs = s.epochs ∧ (tlbTouch s w va).results = s.results ∧ (tlbTouch s w va).modesNext = s.modesNext ∧ (tlbTouch s w va).modes = s.modes ∧ (tlbTouch s w va).readHi = s.readHi ∧ (tlbTouch s w va).writeLo = s.writeLo := by
  generalize h : tlbTouch s w va = t
  simp only [tlbTouch] at h
  all_goals (subst h; simp)

@[simp] theorem tlbDrop_keeps (s : State) (did : Nat) (page : Nat) (n : Nat) :
    (tlbDrop s did page n).pending = s.pending ∧ (tlbDrop s did page n).bootReady = s.bootReady ∧ (tlbDrop s did page n).out = s.out ∧ (tlbDrop s did page n).fresh = s.fresh ∧ (tlbDrop s did page n).now = s.now ∧ (tlbDrop s did page n).up = s.up ∧ (tlbDrop s did page n).mem = s.mem ∧ (tlbDrop s did page n).mmu = s.mmu ∧ (tlbDrop s did page n).hif = s.hif ∧ (tlbDrop s did page n).knots = s.knots ∧ (tlbDrop s did page n).qmu = s.qmu ∧ (tlbDrop s did page n).eng = s.eng ∧ (tlbDrop s did page n).safe = s.safe ∧ (tlbDrop s did page n).power = s.power ∧ (tlbDrop s did page n).tb = s.tb ∧ (tlbDrop s did page n).fldT = s.fldT ∧ (tlbDrop s did page n).trig = s.trig ∧ (tlbDrop s did page n).ing = s.ing ∧ (tlbDrop s did page n).spl = s.spl ∧ (tlbDrop s did page n).xft = s.xft ∧ (tlbDrop s did page n).geo = s.geo ∧ (tlbDrop s did page n).eth = s.eth ∧ (tlbDrop s did page n).oct = s.oct ∧ (tlbDrop s did page n).seq = s.seq ∧ (tlbDrop s did page n).slv = s.slv ∧ (tlbDrop s did page n).lyt = s.lyt ∧ (tlbDrop s did page n).icu = s.icu ∧ (tlbDrop s did page n).sic = s.sic ∧ (tlbDrop s did page n).sec = s.sec ∧ (tlbDrop s did page n).fld = s.fld ∧ (tlbDrop s did page n).dbg = s.dbg ∧ (tlbDrop s did page n).cfg = s.cfg ∧ (tlbDrop s did page n).live = s.live ∧ (tlbDrop s did page n).cfgPrev = s.cfgPrev ∧ (tlbDrop s did page n).changedAt = s.changedAt ∧ (tlbDrop s did page n).epochs = s.epochs ∧ (tlbDrop s did page n).results = s.results ∧ (tlbDrop s did page n).modesNext = s.modesNext ∧ (tlbDrop s did page n).modes = s.modes ∧ (tlbDrop s did page n).readHi = s.readHi ∧ (tlbDrop s did page n).writeLo = s.writeLo := by
  generalize h : tlbDrop s did page n = t
  simp only [tlbDrop] at h
  all_goals (subst h; simp)

@[simp] theorem countDenial_keeps (s : State) (pa : Nat) :
    (countDenial s pa).pending = s.pending ∧ (countDenial s pa).bootReady = s.bootReady ∧ (countDenial s pa).out = s.out ∧ (countDenial s pa).fresh = s.fresh ∧ (countDenial s pa).now = s.now ∧ (countDenial s pa).up = s.up ∧ (countDenial s pa).mem = s.mem ∧ (countDenial s pa).tlb = s.tlb ∧ (countDenial s pa).hif = s.hif ∧ (countDenial s pa).knots = s.knots ∧ (countDenial s pa).qmu = s.qmu ∧ (countDenial s pa).eng = s.eng ∧ (countDenial s pa).safe = s.safe ∧ (countDenial s pa).power = s.power ∧ (countDenial s pa).tb = s.tb ∧ (countDenial s pa).fldT = s.fldT ∧ (countDenial s pa).trig = s.trig ∧ (countDenial s pa).ing = s.ing ∧ (countDenial s pa).spl = s.spl ∧ (countDenial s pa).xft = s.xft ∧ (countDenial s pa).geo = s.geo ∧ (countDenial s pa).eth = s.eth ∧ (countDenial s pa).oct = s.oct ∧ (countDenial s pa).seq = s.seq ∧ (countDenial s pa).slv = s.slv ∧ (countDenial s pa).lyt = s.lyt ∧ (countDenial s pa).icu = s.icu ∧ (countDenial s pa).sic = s.sic ∧ (countDenial s pa).sec = s.sec ∧ (countDenial s pa).fld = s.fld ∧ (countDenial s pa).dbg = s.dbg ∧ (countDenial s pa).cfg = s.cfg ∧ (countDenial s pa).live = s.live ∧ (countDenial s pa).cfgPrev = s.cfgPrev ∧ (countDenial s pa).changedAt = s.changedAt ∧ (countDenial s pa).epochs = s.epochs ∧ (countDenial s pa).results = s.results ∧ (countDenial s pa).modesNext = s.modesNext ∧ (countDenial s pa).modes = s.modes ∧ (countDenial s pa).readHi = s.readHi ∧ (countDenial s pa).writeLo = s.writeLo := by
  generalize h : countDenial s pa = t
  simp only [countDenial] at h
  repeat' split at h
  all_goals (subst h; simp)

@[simp] theorem memFault_keeps (s : State) (w : Who) (va : Nat) (write : Bool) (status : Nat) (level : Nat) :
    (memFault s w va write status level).pending = s.pending ∧ (memFault s w va write status level).bootReady = s.bootReady ∧ (memFault s w va write status level).out = s.out ∧ (memFault s w va write status level).fresh = s.fresh ∧ (memFault s w va write status level).now = s.now ∧ (memFault s w va write status level).up = s.up ∧ (memFault s w va write status level).mem = s.mem ∧ (memFault s w va write status level).tlb = s.tlb ∧ (memFault s w va write status level).hif = s.hif ∧ (memFault s w va write status level).knots = s.knots ∧ (memFault s w va write status level).qmu = s.qmu ∧ (memFault s w va write status level).eng = s.eng ∧ (memFault s w va write status level).power = s.power ∧ (memFault s w va write status level).tb = s.tb ∧ (memFault s w va write status level).fldT = s.fldT ∧ (memFault s w va write status level).trig = s.trig ∧ (memFault s w va write status level).ing = s.ing ∧ (memFault s w va write status level).spl = s.spl ∧ (memFault s w va write status level).xft = s.xft ∧ (memFault s w va write status level).geo = s.geo ∧ (memFault s w va write status level).eth = s.eth ∧ (memFault s w va write status level).oct = s.oct ∧ (memFault s w va write status level).seq = s.seq ∧ (memFault s w va write status level).slv = s.slv ∧ (memFault s w va write status level).lyt = s.lyt ∧ (memFault s w va write status level).sec = s.sec ∧ (memFault s w va write status level).fld = s.fld ∧ (memFault s w va write status level).dbg = s.dbg ∧ (memFault s w va write status level).cfg = s.cfg ∧ (memFault s w va write status level).live = s.live ∧ (memFault s w va write status level).cfgPrev = s.cfgPrev ∧ (memFault s w va write status level).changedAt = s.changedAt ∧ (memFault s w va write status level).epochs = s.epochs ∧ (memFault s w va write status level).results = s.results ∧ (memFault s w va write status level).modesNext = s.modesNext ∧ (memFault s w va write status level).modes = s.modes ∧ (memFault s w va write status level).readHi = s.readHi ∧ (memFault s w va write status level).writeLo = s.writeLo := by
  generalize h : memFault s w va write status level = t
  simp only [memFault] at h
  all_goals (subst h; simp)

@[simp] theorem cacheTouch_keeps (s : State) (did : Nat) (guarded : Bool) (write : Bool) (pa : Nat) (n : Nat) :
    (cacheTouch s did guarded write pa n).pending = s.pending ∧ (cacheTouch s did guarded write pa n).bootReady = s.bootReady ∧ (cacheTouch s did guarded write pa n).out = s.out ∧ (cacheTouch s did guarded write pa n).fresh = s.fresh ∧ (cacheTouch s did guarded write pa n).now = s.now ∧ (cacheTouch s did guarded write pa n).up = s.up ∧ (cacheTouch s did guarded write pa n).mem = s.mem ∧ (cacheTouch s did guarded write pa n).mmu = s.mmu ∧ (cacheTouch s did guarded write pa n).hif = s.hif ∧ (cacheTouch s did guarded write pa n).knots = s.knots ∧ (cacheTouch s did guarded write pa n).qmu = s.qmu ∧ (cacheTouch s did guarded write pa n).eng = s.eng ∧ (cacheTouch s did guarded write pa n).safe = s.safe ∧ (cacheTouch s did guarded write pa n).power = s.power ∧ (cacheTouch s did guarded write pa n).tb = s.tb ∧ (cacheTouch s did guarded write pa n).fldT = s.fldT ∧ (cacheTouch s did guarded write pa n).trig = s.trig ∧ (cacheTouch s did guarded write pa n).ing = s.ing ∧ (cacheTouch s did guarded write pa n).spl = s.spl ∧ (cacheTouch s did guarded write pa n).xft = s.xft ∧ (cacheTouch s did guarded write pa n).geo = s.geo ∧ (cacheTouch s did guarded write pa n).eth = s.eth ∧ (cacheTouch s did guarded write pa n).oct = s.oct ∧ (cacheTouch s did guarded write pa n).seq = s.seq ∧ (cacheTouch s did guarded write pa n).slv = s.slv ∧ (cacheTouch s did guarded write pa n).lyt = s.lyt ∧ (cacheTouch s did guarded write pa n).icu = s.icu ∧ (cacheTouch s did guarded write pa n).sic = s.sic ∧ (cacheTouch s did guarded write pa n).sec = s.sec ∧ (cacheTouch s did guarded write pa n).fld = s.fld ∧ (cacheTouch s did guarded write pa n).dbg = s.dbg ∧ (cacheTouch s did guarded write pa n).cfg = s.cfg ∧ (cacheTouch s did guarded write pa n).live = s.live ∧ (cacheTouch s did guarded write pa n).cfgPrev = s.cfgPrev ∧ (cacheTouch s did guarded write pa n).changedAt = s.changedAt ∧ (cacheTouch s did guarded write pa n).epochs = s.epochs ∧ (cacheTouch s did guarded write pa n).results = s.results ∧ (cacheTouch s did guarded write pa n).modesNext = s.modesNext ∧ (cacheTouch s did guarded write pa n).modes = s.modes ∧ (cacheTouch s did guarded write pa n).readHi = s.readHi ∧ (cacheTouch s did guarded write pa n).writeLo = s.writeLo := by
  generalize h : cacheTouch s did guarded write pa n = t
  simp only [cacheTouch] at h
  all_goals (subst h; simp)

@[simp] theorem raiseUe_keeps (s : State) (pa : Nat) (guarded : Bool) (did : Nat) (flows : List Nat) :
    (raiseUe s pa guarded did flows).pending = s.pending ∧ (raiseUe s pa guarded did flows).bootReady = s.bootReady ∧ (raiseUe s pa guarded did flows).out = s.out ∧ (raiseUe s pa guarded did flows).fresh = s.fresh ∧ (raiseUe s pa guarded did flows).now = s.now ∧ (raiseUe s pa guarded did flows).up = s.up ∧ (raiseUe s pa guarded did flows).mem = s.mem ∧ (raiseUe s pa guarded did flows).mmu = s.mmu ∧ (raiseUe s pa guarded did flows).tlb = s.tlb ∧ (raiseUe s pa guarded did flows).hif = s.hif ∧ (raiseUe s pa guarded did flows).knots = s.knots ∧ (raiseUe s pa guarded did flows).qmu = s.qmu ∧ (raiseUe s pa guarded did flows).eng = s.eng ∧ (raiseUe s pa guarded did flows).power = s.power ∧ (raiseUe s pa guarded did flows).tb = s.tb ∧ (raiseUe s pa guarded did flows).fldT = s.fldT ∧ (raiseUe s pa guarded did flows).trig = s.trig ∧ (raiseUe s pa guarded did flows).ing = s.ing ∧ (raiseUe s pa guarded did flows).spl = s.spl ∧ (raiseUe s pa guarded did flows).xft = s.xft ∧ (raiseUe s pa guarded did flows).geo = s.geo ∧ (raiseUe s pa guarded did flows).eth = s.eth ∧ (raiseUe s pa guarded did flows).oct = s.oct ∧ (raiseUe s pa guarded did flows).seq = s.seq ∧ (raiseUe s pa guarded did flows).slv = s.slv ∧ (raiseUe s pa guarded did flows).lyt = s.lyt ∧ (raiseUe s pa guarded did flows).sec = s.sec ∧ (raiseUe s pa guarded did flows).fld = s.fld ∧ (raiseUe s pa guarded did flows).dbg = s.dbg ∧ (raiseUe s pa guarded did flows).cfg = s.cfg ∧ (raiseUe s pa guarded did flows).live = s.live ∧ (raiseUe s pa guarded did flows).cfgPrev = s.cfgPrev ∧ (raiseUe s pa guarded did flows).changedAt = s.changedAt ∧ (raiseUe s pa guarded did flows).epochs = s.epochs ∧ (raiseUe s pa guarded did flows).results = s.results ∧ (raiseUe s pa guarded did flows).modesNext = s.modesNext ∧ (raiseUe s pa guarded did flows).modes = s.modes ∧ (raiseUe s pa guarded did flows).readHi = s.readHi ∧ (raiseUe s pa guarded did flows).writeLo = s.writeLo := by
  generalize h : raiseUe s pa guarded did flows = t
  simp only [raiseUe] at h
  all_goals (subst h; simp)

@[simp] theorem readSeg_keeps (s : State) (w : Who) (va : Nat) (n : Nat) :
    (readSeg s w va n).2.2.pending = s.pending ∧ (readSeg s w va n).2.2.bootReady = s.bootReady ∧ (readSeg s w va n).2.2.now = s.now ∧ (readSeg s w va n).2.2.up = s.up ∧ (readSeg s w va n).2.2.mem = s.mem ∧ (readSeg s w va n).2.2.hif = s.hif ∧ (readSeg s w va n).2.2.knots = s.knots ∧ (readSeg s w va n).2.2.qmu = s.qmu ∧ (readSeg s w va n).2.2.eng = s.eng ∧ (readSeg s w va n).2.2.power = s.power ∧ (readSeg s w va n).2.2.tb = s.tb ∧ (readSeg s w va n).2.2.fldT = s.fldT ∧ (readSeg s w va n).2.2.trig = s.trig ∧ (readSeg s w va n).2.2.ing = s.ing ∧ (readSeg s w va n).2.2.spl = s.spl ∧ (readSeg s w va n).2.2.xft = s.xft ∧ (readSeg s w va n).2.2.geo = s.geo ∧ (readSeg s w va n).2.2.eth = s.eth ∧ (readSeg s w va n).2.2.slv = s.slv ∧ (readSeg s w va n).2.2.lyt = s.lyt ∧ (readSeg s w va n).2.2.sec = s.sec ∧ (readSeg s w va n).2.2.fld = s.fld ∧ (readSeg s w va n).2.2.dbg = s.dbg ∧ (readSeg s w va n).2.2.cfg = s.cfg ∧ (readSeg s w va n).2.2.live = s.live ∧ (readSeg s w va n).2.2.cfgPrev = s.cfgPrev ∧ (readSeg s w va n).2.2.changedAt = s.changedAt ∧ (readSeg s w va n).2.2.epochs = s.epochs ∧ (readSeg s w va n).2.2.results = s.results ∧ (readSeg s w va n).2.2.modesNext = s.modesNext ∧ (readSeg s w va n).2.2.modes = s.modes ∧ (readSeg s w va n).2.2.readHi = s.readHi ∧ (readSeg s w va n).2.2.writeLo = s.writeLo := by
  generalize h : readSeg s w va n = t
  simp only [readSeg] at h
  repeat' split at h
  all_goals (subst h; simp)

@[simp] theorem clearPoison_keeps (s : State) (pa : Nat) (n : Nat) :
    (clearPoison s pa n).pending = s.pending ∧ (clearPoison s pa n).bootReady = s.bootReady ∧ (clearPoison s pa n).out = s.out ∧ (clearPoison s pa n).fresh = s.fresh ∧ (clearPoison s pa n).now = s.now ∧ (clearPoison s pa n).up = s.up ∧ (clearPoison s pa n).mem = s.mem ∧ (clearPoison s pa n).tlb = s.tlb ∧ (clearPoison s pa n).hif = s.hif ∧ (clearPoison s pa n).knots = s.knots ∧ (clearPoison s pa n).qmu = s.qmu ∧ (clearPoison s pa n).eng = s.eng ∧ (clearPoison s pa n).safe = s.safe ∧ (clearPoison s pa n).power = s.power ∧ (clearPoison s pa n).tb = s.tb ∧ (clearPoison s pa n).fldT = s.fldT ∧ (clearPoison s pa n).trig = s.trig ∧ (clearPoison s pa n).ing = s.ing ∧ (clearPoison s pa n).spl = s.spl ∧ (clearPoison s pa n).xft = s.xft ∧ (clearPoison s pa n).geo = s.geo ∧ (clearPoison s pa n).eth = s.eth ∧ (clearPoison s pa n).oct = s.oct ∧ (clearPoison s pa n).seq = s.seq ∧ (clearPoison s pa n).slv = s.slv ∧ (clearPoison s pa n).lyt = s.lyt ∧ (clearPoison s pa n).icu = s.icu ∧ (clearPoison s pa n).sic = s.sic ∧ (clearPoison s pa n).sec = s.sec ∧ (clearPoison s pa n).fld = s.fld ∧ (clearPoison s pa n).dbg = s.dbg ∧ (clearPoison s pa n).cfg = s.cfg ∧ (clearPoison s pa n).live = s.live ∧ (clearPoison s pa n).cfgPrev = s.cfgPrev ∧ (clearPoison s pa n).changedAt = s.changedAt ∧ (clearPoison s pa n).epochs = s.epochs ∧ (clearPoison s pa n).results = s.results ∧ (clearPoison s pa n).modesNext = s.modesNext ∧ (clearPoison s pa n).modes = s.modes ∧ (clearPoison s pa n).readHi = s.readHi ∧ (clearPoison s pa n).writeLo = s.writeLo := by
  generalize h : clearPoison s pa n = t
  simp only [clearPoison] at h
  all_goals (subst h; simp)

@[simp] theorem dramWrite_keeps (s : State) (pa : Nat) (bs : List Byte) :
    (dramWrite s pa bs).pending = s.pending ∧ (dramWrite s pa bs).bootReady = s.bootReady ∧ (dramWrite s pa bs).out = s.out ∧ (dramWrite s pa bs).fresh = s.fresh ∧ (dramWrite s pa bs).now = s.now ∧ (dramWrite s pa bs).up = s.up ∧ (dramWrite s pa bs).tlb = s.tlb ∧ (dramWrite s pa bs).hif = s.hif ∧ (dramWrite s pa bs).knots = s.knots ∧ (dramWrite s pa bs).qmu = s.qmu ∧ (dramWrite s pa bs).eng = s.eng ∧ (dramWrite s pa bs).safe = s.safe ∧ (dramWrite s pa bs).power = s.power ∧ (dramWrite s pa bs).tb = s.tb ∧ (dramWrite s pa bs).fldT = s.fldT ∧ (dramWrite s pa bs).trig = s.trig ∧ (dramWrite s pa bs).ing = s.ing ∧ (dramWrite s pa bs).spl = s.spl ∧ (dramWrite s pa bs).xft = s.xft ∧ (dramWrite s pa bs).geo = s.geo ∧ (dramWrite s pa bs).eth = s.eth ∧ (dramWrite s pa bs).oct = s.oct ∧ (dramWrite s pa bs).seq = s.seq ∧ (dramWrite s pa bs).slv = s.slv ∧ (dramWrite s pa bs).lyt = s.lyt ∧ (dramWrite s pa bs).icu = s.icu ∧ (dramWrite s pa bs).sic = s.sic ∧ (dramWrite s pa bs).sec = s.sec ∧ (dramWrite s pa bs).fld = s.fld ∧ (dramWrite s pa bs).dbg = s.dbg ∧ (dramWrite s pa bs).cfg = s.cfg ∧ (dramWrite s pa bs).live = s.live ∧ (dramWrite s pa bs).cfgPrev = s.cfgPrev ∧ (dramWrite s pa bs).changedAt = s.changedAt ∧ (dramWrite s pa bs).epochs = s.epochs ∧ (dramWrite s pa bs).results = s.results ∧ (dramWrite s pa bs).modesNext = s.modesNext ∧ (dramWrite s pa bs).modes = s.modes ∧ (dramWrite s pa bs).readHi = s.readHi ∧ (dramWrite s pa bs).writeLo = s.writeLo := by
  generalize h : dramWrite s pa bs = t
  simp only [dramWrite] at h
  all_goals (subst h; simp)

@[simp] theorem writeSeg_keeps (s : State) (w : Who) (va : Nat) (bs : List Byte) :
    (writeSeg s w va bs).2.pending = s.pending ∧ (writeSeg s w va bs).2.bootReady = s.bootReady ∧ (writeSeg s w va bs).2.now = s.now ∧ (writeSeg s w va bs).2.up = s.up ∧ (writeSeg s w va bs).2.hif = s.hif ∧ (writeSeg s w va bs).2.knots = s.knots ∧ (writeSeg s w va bs).2.qmu = s.qmu ∧ (writeSeg s w va bs).2.eng = s.eng ∧ (writeSeg s w va bs).2.power = s.power ∧ (writeSeg s w va bs).2.tb = s.tb ∧ (writeSeg s w va bs).2.fldT = s.fldT ∧ (writeSeg s w va bs).2.trig = s.trig ∧ (writeSeg s w va bs).2.ing = s.ing ∧ (writeSeg s w va bs).2.spl = s.spl ∧ (writeSeg s w va bs).2.xft = s.xft ∧ (writeSeg s w va bs).2.geo = s.geo ∧ (writeSeg s w va bs).2.eth = s.eth ∧ (writeSeg s w va bs).2.slv = s.slv ∧ (writeSeg s w va bs).2.lyt = s.lyt ∧ (writeSeg s w va bs).2.sec = s.sec ∧ (writeSeg s w va bs).2.fld = s.fld ∧ (writeSeg s w va bs).2.dbg = s.dbg ∧ (writeSeg s w va bs).2.cfg = s.cfg ∧ (writeSeg s w va bs).2.live = s.live ∧ (writeSeg s w va bs).2.cfgPrev = s.cfgPrev ∧ (writeSeg s w va bs).2.changedAt = s.changedAt ∧ (writeSeg s w va bs).2.epochs = s.epochs ∧ (writeSeg s w va bs).2.results = s.results ∧ (writeSeg s w va bs).2.modesNext = s.modesNext ∧ (writeSeg s w va bs).2.modes = s.modes ∧ (writeSeg s w va bs).2.readHi = s.readHi ∧ (writeSeg s w va bs).2.writeLo = s.writeLo := by
  generalize h : writeSeg s w va bs = t
  simp only [writeSeg] at h
  repeat' split at h
  all_goals (subst h; simp)

@[simp] theorem devReadGo_keeps (w : Who) (u1 : Nat) (s : State) (u3 : Nat) (u4 : Nat) :
    (devReadGo w u1 s u3 u4).2.2.pending = s.pending ∧ (devReadGo w u1 s u3 u4).2.2.bootReady = s.bootReady ∧ (devReadGo w u1 s u3 u4).2.2.now = s.now ∧ (devReadGo w u1 s u3 u4).2.2.up = s.up ∧ (devReadGo w u1 s u3 u4).2.2.mem = s.mem ∧ (devReadGo w u1 s u3 u4).2.2.hif = s.hif ∧ (devReadGo w u1 s u3 u4).2.2.knots = s.knots ∧ (devReadGo w u1 s u3 u4).2.2.qmu = s.qmu ∧ (devReadGo w u1 s u3 u4).2.2.eng = s.eng ∧ (devReadGo w u1 s u3 u4).2.2.power = s.power ∧ (devReadGo w u1 s u3 u4).2.2.tb = s.tb ∧ (devReadGo w u1 s u3 u4).2.2.fldT = s.fldT ∧ (devReadGo w u1 s u3 u4).2.2.trig = s.trig ∧ (devReadGo w u1 s u3 u4).2.2.ing = s.ing ∧ (devReadGo w u1 s u3 u4).2.2.spl = s.spl ∧ (devReadGo w u1 s u3 u4).2.2.xft = s.xft ∧ (devReadGo w u1 s u3 u4).2.2.geo = s.geo ∧ (devReadGo w u1 s u3 u4).2.2.eth = s.eth ∧ (devReadGo w u1 s u3 u4).2.2.slv = s.slv ∧ (devReadGo w u1 s u3 u4).2.2.lyt = s.lyt ∧ (devReadGo w u1 s u3 u4).2.2.sec = s.sec ∧ (devReadGo w u1 s u3 u4).2.2.fld = s.fld ∧ (devReadGo w u1 s u3 u4).2.2.dbg = s.dbg ∧ (devReadGo w u1 s u3 u4).2.2.cfg = s.cfg ∧ (devReadGo w u1 s u3 u4).2.2.live = s.live ∧ (devReadGo w u1 s u3 u4).2.2.cfgPrev = s.cfgPrev ∧ (devReadGo w u1 s u3 u4).2.2.changedAt = s.changedAt ∧ (devReadGo w u1 s u3 u4).2.2.epochs = s.epochs ∧ (devReadGo w u1 s u3 u4).2.2.results = s.results ∧ (devReadGo w u1 s u3 u4).2.2.modesNext = s.modesNext ∧ (devReadGo w u1 s u3 u4).2.2.modes = s.modes ∧ (devReadGo w u1 s u3 u4).2.2.readHi = s.readHi ∧ (devReadGo w u1 s u3 u4).2.2.writeLo = s.writeLo := by
  induction u1 generalizing s u3 u4 with
  | zero => simp [devReadGo]
  | succ k ih =>
    simp only [devReadGo]
    split
    · simp
    · rcases hr : readSeg s w u3 (min u4 (65536 - u3 % 65536)) with ⟨st, bs, z⟩
      have hk := readSeg_keeps s w u3 (min u4 (65536 - u3 % 65536))
      simp only [hr] at hk ⊢
      split
      · simp [hk]
      · simp [ih, hk]

@[simp] theorem devRead_keeps (s : State) (w : Who) (va : Nat) (n : Nat) :
    (devRead s w va n).2.2.pending = s.pending ∧ (devRead s w va n).2.2.bootReady = s.bootReady ∧ (devRead s w va n).2.2.now = s.now ∧ (devRead s w va n).2.2.up = s.up ∧ (devRead s w va n).2.2.mem = s.mem ∧ (devRead s w va n).2.2.hif = s.hif ∧ (devRead s w va n).2.2.knots = s.knots ∧ (devRead s w va n).2.2.qmu = s.qmu ∧ (devRead s w va n).2.2.eng = s.eng ∧ (devRead s w va n).2.2.power = s.power ∧ (devRead s w va n).2.2.tb = s.tb ∧ (devRead s w va n).2.2.fldT = s.fldT ∧ (devRead s w va n).2.2.trig = s.trig ∧ (devRead s w va n).2.2.ing = s.ing ∧ (devRead s w va n).2.2.spl = s.spl ∧ (devRead s w va n).2.2.xft = s.xft ∧ (devRead s w va n).2.2.geo = s.geo ∧ (devRead s w va n).2.2.eth = s.eth ∧ (devRead s w va n).2.2.slv = s.slv ∧ (devRead s w va n).2.2.lyt = s.lyt ∧ (devRead s w va n).2.2.sec = s.sec ∧ (devRead s w va n).2.2.fld = s.fld ∧ (devRead s w va n).2.2.dbg = s.dbg ∧ (devRead s w va n).2.2.cfg = s.cfg ∧ (devRead s w va n).2.2.live = s.live ∧ (devRead s w va n).2.2.cfgPrev = s.cfgPrev ∧ (devRead s w va n).2.2.changedAt = s.changedAt ∧ (devRead s w va n).2.2.epochs = s.epochs ∧ (devRead s w va n).2.2.results = s.results ∧ (devRead s w va n).2.2.modesNext = s.modesNext ∧ (devRead s w va n).2.2.modes = s.modes ∧ (devRead s w va n).2.2.readHi = s.readHi ∧ (devRead s w va n).2.2.writeLo = s.writeLo := by
  generalize h : devRead s w va n = t
  simp only [devRead] at h
  all_goals (subst h; simp)

@[simp] theorem devWriteGo_keeps (w : Who) (u1 : Nat) (s : State) (u3 : Nat) (u4 : List Byte) :
    (devWriteGo w u1 s u3 u4).2.pending = s.pending ∧ (devWriteGo w u1 s u3 u4).2.bootReady = s.bootReady ∧ (devWriteGo w u1 s u3 u4).2.now = s.now ∧ (devWriteGo w u1 s u3 u4).2.up = s.up ∧ (devWriteGo w u1 s u3 u4).2.hif = s.hif ∧ (devWriteGo w u1 s u3 u4).2.knots = s.knots ∧ (devWriteGo w u1 s u3 u4).2.qmu = s.qmu ∧ (devWriteGo w u1 s u3 u4).2.eng = s.eng ∧ (devWriteGo w u1 s u3 u4).2.power = s.power ∧ (devWriteGo w u1 s u3 u4).2.tb = s.tb ∧ (devWriteGo w u1 s u3 u4).2.fldT = s.fldT ∧ (devWriteGo w u1 s u3 u4).2.trig = s.trig ∧ (devWriteGo w u1 s u3 u4).2.ing = s.ing ∧ (devWriteGo w u1 s u3 u4).2.spl = s.spl ∧ (devWriteGo w u1 s u3 u4).2.xft = s.xft ∧ (devWriteGo w u1 s u3 u4).2.geo = s.geo ∧ (devWriteGo w u1 s u3 u4).2.eth = s.eth ∧ (devWriteGo w u1 s u3 u4).2.slv = s.slv ∧ (devWriteGo w u1 s u3 u4).2.lyt = s.lyt ∧ (devWriteGo w u1 s u3 u4).2.sec = s.sec ∧ (devWriteGo w u1 s u3 u4).2.fld = s.fld ∧ (devWriteGo w u1 s u3 u4).2.dbg = s.dbg ∧ (devWriteGo w u1 s u3 u4).2.cfg = s.cfg ∧ (devWriteGo w u1 s u3 u4).2.live = s.live ∧ (devWriteGo w u1 s u3 u4).2.cfgPrev = s.cfgPrev ∧ (devWriteGo w u1 s u3 u4).2.changedAt = s.changedAt ∧ (devWriteGo w u1 s u3 u4).2.epochs = s.epochs ∧ (devWriteGo w u1 s u3 u4).2.results = s.results ∧ (devWriteGo w u1 s u3 u4).2.modesNext = s.modesNext ∧ (devWriteGo w u1 s u3 u4).2.modes = s.modes ∧ (devWriteGo w u1 s u3 u4).2.readHi = s.readHi ∧ (devWriteGo w u1 s u3 u4).2.writeLo = s.writeLo := by
  induction u1 generalizing s u3 u4 with
  | zero => simp [devWriteGo]
  | succ k ih =>
    simp only [devWriteGo]
    split
    · simp
    · rcases hr : writeSeg s w u3 (u4.take (min u4.length (65536 - u3 % 65536))) with ⟨st, z⟩
      have hk := writeSeg_keeps s w u3 (u4.take (min u4.length (65536 - u3 % 65536)))
      simp only [hr] at hk ⊢
      split
      · simp [hk]
      · simp [ih, hk]

@[simp] theorem devWrite_keeps (s : State) (w : Who) (va : Nat) (bs : List Byte) :
    (devWrite s w va bs).2.pending = s.pending ∧ (devWrite s w va bs).2.bootReady = s.bootReady ∧ (devWrite s w va bs).2.now = s.now ∧ (devWrite s w va bs).2.up = s.up ∧ (devWrite s w va bs).2.hif = s.hif ∧ (devWrite s w va bs).2.knots = s.knots ∧ (devWrite s w va bs).2.qmu = s.qmu ∧ (devWrite s w va bs).2.eng = s.eng ∧ (devWrite s w va bs).2.power = s.power ∧ (devWrite s w va bs).2.tb = s.tb ∧ (devWrite s w va bs).2.fldT = s.fldT ∧ (devWrite s w va bs).2.trig = s.trig ∧ (devWrite s w va bs).2.ing = s.ing ∧ (devWrite s w va bs).2.spl = s.spl ∧ (devWrite s w va bs).2.xft = s.xft ∧ (devWrite s w va bs).2.geo = s.geo ∧ (devWrite s w va bs).2.eth = s.eth ∧ (devWrite s w va bs).2.slv = s.slv ∧ (devWrite s w va bs).2.lyt = s.lyt ∧ (devWrite s w va bs).2.sec = s.sec ∧ (devWrite s w va bs).2.fld = s.fld ∧ (devWrite s w va bs).2.dbg = s.dbg ∧ (devWrite s w va bs).2.cfg = s.cfg ∧ (devWrite s w va bs).2.live = s.live ∧ (devWrite s w va bs).2.cfgPrev = s.cfgPrev ∧ (devWrite s w va bs).2.changedAt = s.changedAt ∧ (devWrite s w va bs).2.epochs = s.epochs ∧ (devWrite s w va bs).2.results = s.results ∧ (devWrite s w va bs).2.modesNext = s.modesNext ∧ (devWrite s w va bs).2.modes = s.modes ∧ (devWrite s w va bs).2.readHi = s.readHi ∧ (devWrite s w va bs).2.writeLo = s.writeLo := by
  generalize h : devWrite s w va bs = t
  simp only [devWrite] at h
  all_goals (subst h; simp)

@[simp] theorem msixSend_keeps (s : State) (v : Nat) :
    (msixSend s v).pending = s.pending ∧ (msixSend s v).bootReady = s.bootReady ∧ (msixSend s v).fresh = s.fresh ∧ (msixSend s v).now = s.now ∧ (msixSend s v).up = s.up ∧ (msixSend s v).mem = s.mem ∧ (msixSend s v).mmu = s.mmu ∧ (msixSend s v).tlb = s.tlb ∧ (msixSend s v).knots = s.knots ∧ (msixSend s v).qmu = s.qmu ∧ (msixSend s v).eng = s.eng ∧ (msixSend s v).safe = s.safe ∧ (msixSend s v).power = s.power ∧ (msixSend s v).tb = s.tb ∧ (msixSend s v).fldT = s.fldT ∧ (msixSend s v).trig = s.trig ∧ (msixSend s v).ing = s.ing ∧ (msixSend s v).spl = s.spl ∧ (msixSend s v).xft = s.xft ∧ (msixSend s v).geo = s.geo ∧ (msixSend s v).eth = s.eth ∧ (msixSend s v).oct = s.oct ∧ (msixSend s v).seq = s.seq ∧ (msixSend s v).slv = s.slv ∧ (msixSend s v).lyt = s.lyt ∧ (msixSend s v).icu = s.icu ∧ (msixSend s v).sic = s.sic ∧ (msixSend s v).sec = s.sec ∧ (msixSend s v).fld = s.fld ∧ (msixSend s v).dbg = s.dbg ∧ (msixSend s v).cfg = s.cfg ∧ (msixSend s v).live = s.live ∧ (msixSend s v).cfgPrev = s.cfgPrev ∧ (msixSend s v).changedAt = s.changedAt ∧ (msixSend s v).epochs = s.epochs ∧ (msixSend s v).results = s.results ∧ (msixSend s v).modesNext = s.modesNext ∧ (msixSend s v).modes = s.modes ∧ (msixSend s v).readHi = s.readHi ∧ (msixSend s v).writeLo = s.writeLo := by
  generalize h : msixSend s v = t
  simp only [msixSend] at h
  repeat' split at h
  all_goals (subst h; simp)

@[simp] theorem msixRequest_keeps (s : State) (v : Nat) :
    (msixRequest s v).pending = s.pending ∧ (msixRequest s v).bootReady = s.bootReady ∧ (msixRequest s v).fresh = s.fresh ∧ (msixRequest s v).now = s.now ∧ (msixRequest s v).up = s.up ∧ (msixRequest s v).mem = s.mem ∧ (msixRequest s v).mmu = s.mmu ∧ (msixRequest s v).tlb = s.tlb ∧ (msixRequest s v).knots = s.knots ∧ (msixRequest s v).qmu = s.qmu ∧ (msixRequest s v).eng = s.eng ∧ (msixRequest s v).safe = s.safe ∧ (msixRequest s v).power = s.power ∧ (msixRequest s v).tb = s.tb ∧ (msixRequest s v).fldT = s.fldT ∧ (msixRequest s v).trig = s.trig ∧ (msixRequest s v).ing = s.ing ∧ (msixRequest s v).spl = s.spl ∧ (msixRequest s v).xft = s.xft ∧ (msixRequest s v).geo = s.geo ∧ (msixRequest s v).eth = s.eth ∧ (msixRequest s v).oct = s.oct ∧ (msixRequest s v).seq = s.seq ∧ (msixRequest s v).slv = s.slv ∧ (msixRequest s v).lyt = s.lyt ∧ (msixRequest s v).icu = s.icu ∧ (msixRequest s v).sic = s.sic ∧ (msixRequest s v).sec = s.sec ∧ (msixRequest s v).fld = s.fld ∧ (msixRequest s v).dbg = s.dbg ∧ (msixRequest s v).cfg = s.cfg ∧ (msixRequest s v).live = s.live ∧ (msixRequest s v).cfgPrev = s.cfgPrev ∧ (msixRequest s v).changedAt = s.changedAt ∧ (msixRequest s v).epochs = s.epochs ∧ (msixRequest s v).results = s.results ∧ (msixRequest s v).modesNext = s.modesNext ∧ (msixRequest s v).modes = s.modes ∧ (msixRequest s v).readHi = s.readHi ∧ (msixRequest s v).writeLo = s.writeLo := by
  generalize h : msixRequest s v = t
  simp only [msixRequest] at h
  repeat' split at h
  all_goals (subst h; simp)

@[simp] theorem setSub_keeps (s : State) (r : Nat) (x : Ring) :
    (setSub s r x).pending = s.pending ∧ (setSub s r x).bootReady = s.bootReady ∧ (setSub s r x).out = s.out ∧ (setSub s r x).fresh = s.fresh ∧ (setSub s r x).now = s.now ∧ (setSub s r x).up = s.up ∧ (setSub s r x).mem = s.mem ∧ (setSub s r x).mmu = s.mmu ∧ (setSub s r x).tlb = s.tlb ∧ (setSub s r x).knots = s.knots ∧ (setSub s r x).qmu = s.qmu ∧ (setSub s r x).eng = s.eng ∧ (setSub s r x).safe = s.safe ∧ (setSub s r x).power = s.power ∧ (setSub s r x).tb = s.tb ∧ (setSub s r x).fldT = s.fldT ∧ (setSub s r x).trig = s.trig ∧ (setSub s r x).ing = s.ing ∧ (setSub s r x).spl = s.spl ∧ (setSub s r x).xft = s.xft ∧ (setSub s r x).geo = s.geo ∧ (setSub s r x).eth = s.eth ∧ (setSub s r x).oct = s.oct ∧ (setSub s r x).seq = s.seq ∧ (setSub s r x).slv = s.slv ∧ (setSub s r x).lyt = s.lyt ∧ (setSub s r x).icu = s.icu ∧ (setSub s r x).sic = s.sic ∧ (setSub s r x).sec = s.sec ∧ (setSub s r x).fld = s.fld ∧ (setSub s r x).dbg = s.dbg ∧ (setSub s r x).cfg = s.cfg ∧ (setSub s r x).live = s.live ∧ (setSub s r x).cfgPrev = s.cfgPrev ∧ (setSub s r x).changedAt = s.changedAt ∧ (setSub s r x).epochs = s.epochs ∧ (setSub s r x).results = s.results ∧ (setSub s r x).modesNext = s.modesNext ∧ (setSub s r x).modes = s.modes ∧ (setSub s r x).readHi = s.readHi ∧ (setSub s r x).writeLo = s.writeLo := by
  generalize h : setSub s r x = t
  simp only [setSub] at h
  all_goals (subst h; simp)

@[simp] theorem setCom_keeps (s : State) (r : Nat) (x : Ring) :
    (setCom s r x).pending = s.pending ∧ (setCom s r x).bootReady = s.bootReady ∧ (setCom s r x).out = s.out ∧ (setCom s r x).fresh = s.fresh ∧ (setCom s r x).now = s.now ∧ (setCom s r x).up = s.up ∧ (setCom s r x).mem = s.mem ∧ (setCom s r x).mmu = s.mmu ∧ (setCom s r x).tlb = s.tlb ∧ (setCom s r x).knots = s.knots ∧ (setCom s r x).qmu = s.qmu ∧ (setCom s r x).eng = s.eng ∧ (setCom s r x).safe = s.safe ∧ (setCom s r x).power = s.power ∧ (setCom s r x).tb = s.tb ∧ (setCom s r x).fldT = s.fldT ∧ (setCom s r x).trig = s.trig ∧ (setCom s r x).ing = s.ing ∧ (setCom s r x).spl = s.spl ∧ (setCom s r x).xft = s.xft ∧ (setCom s r x).geo = s.geo ∧ (setCom s r x).eth = s.eth ∧ (setCom s r x).oct = s.oct ∧ (setCom s r x).seq = s.seq ∧ (setCom s r x).slv = s.slv ∧ (setCom s r x).lyt = s.lyt ∧ (setCom s r x).icu = s.icu ∧ (setCom s r x).sic = s.sic ∧ (setCom s r x).sec = s.sec ∧ (setCom s r x).fld = s.fld ∧ (setCom s r x).dbg = s.dbg ∧ (setCom s r x).cfg = s.cfg ∧ (setCom s r x).live = s.live ∧ (setCom s r x).cfgPrev = s.cfgPrev ∧ (setCom s r x).changedAt = s.changedAt ∧ (setCom s r x).epochs = s.epochs ∧ (setCom s r x).results = s.results ∧ (setCom s r x).modesNext = s.modesNext ∧ (setCom s r x).modes = s.modes ∧ (setCom s r x).readHi = s.readHi ∧ (setCom s r x).writeLo = s.writeLo := by
  generalize h : setCom s r x = t
  simp only [setCom] at h
  all_goals (subst h; simp)

@[simp] theorem writeDev_keeps (s : State) (com : Bool) (r : Nat) :
    (writeDev s com r).pending = s.pending ∧ (writeDev s com r).bootReady = s.bootReady ∧ (writeDev s com r).fresh = s.fresh ∧ (writeDev s com r).now = s.now ∧ (writeDev s com r).up = s.up ∧ (writeDev s com r).mem = s.mem ∧ (writeDev s com r).mmu = s.mmu ∧ (writeDev s com r).tlb = s.tlb ∧ (writeDev s com r).hif = s.hif ∧ (writeDev s com r).knots = s.knots ∧ (writeDev s com r).qmu = s.qmu ∧ (writeDev s com r).eng = s.eng ∧ (writeDev s com r).safe = s.safe ∧ (writeDev s com r).power = s.power ∧ (writeDev s com r).tb = s.tb ∧ (writeDev s com r).fldT = s.fldT ∧ (writeDev s com r).trig = s.trig ∧ (writeDev s com r).ing = s.ing ∧ (writeDev s com r).spl = s.spl ∧ (writeDev s com r).xft = s.xft ∧ (writeDev s com r).geo = s.geo ∧ (writeDev s com r).eth = s.eth ∧ (writeDev s com r).oct = s.oct ∧ (writeDev s com r).seq = s.seq ∧ (writeDev s com r).slv = s.slv ∧ (writeDev s com r).lyt = s.lyt ∧ (writeDev s com r).icu = s.icu ∧ (writeDev s com r).sic = s.sic ∧ (writeDev s com r).sec = s.sec ∧ (writeDev s com r).fld = s.fld ∧ (writeDev s com r).dbg = s.dbg ∧ (writeDev s com r).cfg = s.cfg ∧ (writeDev s com r).live = s.live ∧ (writeDev s com r).cfgPrev = s.cfgPrev ∧ (writeDev s com r).changedAt = s.changedAt ∧ (writeDev s com r).epochs = s.epochs ∧ (writeDev s com r).results = s.results ∧ (writeDev s com r).modesNext = s.modesNext ∧ (writeDev s com r).modes = s.modes ∧ (writeDev s com r).readHi = s.readHi ∧ (writeDev s com r).writeLo = s.writeLo := by
  generalize h : writeDev s com r = t
  simp only [writeDev] at h
  repeat' split at h
  all_goals (subst h; simp)

@[simp] theorem putRec_keeps (s : State) (c : Nat) (r : Rec) :
    (putRec s c r).pending = s.pending ∧ (putRec s c r).bootReady = s.bootReady ∧ (putRec s c r).fresh = s.fresh ∧ (putRec s c r).now = s.now ∧ (putRec s c r).up = s.up ∧ (putRec s c r).mem = s.mem ∧ (putRec s c r).mmu = s.mmu ∧ (putRec s c r).tlb = s.tlb ∧ (putRec s c r).knots = s.knots ∧ (putRec s c r).qmu = s.qmu ∧ (putRec s c r).eng = s.eng ∧ (putRec s c r).safe = s.safe ∧ (putRec s c r).power = s.power ∧ (putRec s c r).tb = s.tb ∧ (putRec s c r).fldT = s.fldT ∧ (putRec s c r).trig = s.trig ∧ (putRec s c r).ing = s.ing ∧ (putRec s c r).spl = s.spl ∧ (putRec s c r).xft = s.xft ∧ (putRec s c r).geo = s.geo ∧ (putRec s c r).eth = s.eth ∧ (putRec s c r).oct = s.oct ∧ (putRec s c r).seq = s.seq ∧ (putRec s c r).slv = s.slv ∧ (putRec s c r).lyt = s.lyt ∧ (putRec s c r).icu = s.icu ∧ (putRec s c r).sic = s.sic ∧ (putRec s c r).sec = s.sec ∧ (putRec s c r).fld = s.fld ∧ (putRec s c r).dbg = s.dbg ∧ (putRec s c r).cfg = s.cfg ∧ (putRec s c r).live = s.live ∧ (putRec s c r).cfgPrev = s.cfgPrev ∧ (putRec s c r).changedAt = s.changedAt ∧ (putRec s c r).epochs = s.epochs ∧ (putRec s c r).results = s.results ∧ (putRec s c r).modesNext = s.modesNext ∧ (putRec s c r).modes = s.modes ∧ (putRec s c r).readHi = s.readHi ∧ (putRec s c r).writeLo = s.writeLo := by
  generalize h : putRec s c r = t
  simp only [putRec] at h
  all_goals (subst h; simp)

@[simp] theorem announce_keeps (s : State) (c : Nat) :
    (announce s c).pending = s.pending ∧ (announce s c).bootReady = s.bootReady ∧ (announce s c).fresh = s.fresh ∧ (announce s c).now = s.now ∧ (announce s c).up = s.up ∧ (announce s c).mem = s.mem ∧ (announce s c).mmu = s.mmu ∧ (announce s c).tlb = s.tlb ∧ (announce s c).knots = s.knots ∧ (announce s c).qmu = s.qmu ∧ (announce s c).eng = s.eng ∧ (announce s c).safe = s.safe ∧ (announce s c).power = s.power ∧ (announce s c).tb = s.tb ∧ (announce s c).fldT = s.fldT ∧ (announce s c).trig = s.trig ∧ (announce s c).ing = s.ing ∧ (announce s c).spl = s.spl ∧ (announce s c).xft = s.xft ∧ (announce s c).geo = s.geo ∧ (announce s c).eth = s.eth ∧ (announce s c).oct = s.oct ∧ (announce s c).seq = s.seq ∧ (announce s c).slv = s.slv ∧ (announce s c).lyt = s.lyt ∧ (announce s c).icu = s.icu ∧ (announce s c).sic = s.sic ∧ (announce s c).sec = s.sec ∧ (announce s c).fld = s.fld ∧ (announce s c).dbg = s.dbg ∧ (announce s c).cfg = s.cfg ∧ (announce s c).live = s.live ∧ (announce s c).cfgPrev = s.cfgPrev ∧ (announce s c).changedAt = s.changedAt ∧ (announce s c).epochs = s.epochs ∧ (announce s c).results = s.results ∧ (announce s c).modesNext = s.modesNext ∧ (announce s c).modes = s.modes ∧ (announce s c).readHi = s.readHi ∧ (announce s c).writeLo = s.writeLo := by
  generalize h : announce s c = t
  simp only [announce] at h
  repeat' split at h
  all_goals (subst h; simp)

@[simp] theorem raiseLost_keeps (s : State) (flow : Nat) (c : Nat) :
    (raiseLost s flow c).pending = s.pending ∧ (raiseLost s flow c).bootReady = s.bootReady ∧ (raiseLost s flow c).out = s.out ∧ (raiseLost s flow c).fresh = s.fresh ∧ (raiseLost s flow c).now = s.now ∧ (raiseLost s flow c).up = s.up ∧ (raiseLost s flow c).mem = s.mem ∧ (raiseLost s flow c).mmu = s.mmu ∧ (raiseLost s flow c).tlb = s.tlb ∧ (raiseLost s flow c).hif = s.hif ∧ (raiseLost s flow c).knots = s.knots ∧ (raiseLost s flow c).qmu = s.qmu ∧ (raiseLost s flow c).eng = s.eng ∧ (raiseLost s flow c).power = s.power ∧ (raiseLost s flow c).tb = s.tb ∧ (raiseLost s flow c).fldT = s.fldT ∧ (raiseLost s flow c).trig = s.trig ∧ (raiseLost s flow c).ing = s.ing ∧ (raiseLost s flow c).spl = s.spl ∧ (raiseLost s flow c).xft = s.xft ∧ (raiseLost s flow c).geo = s.geo ∧ (raiseLost s flow c).eth = s.eth ∧ (raiseLost s flow c).oct = s.oct ∧ (raiseLost s flow c).seq = s.seq ∧ (raiseLost s flow c).slv = s.slv ∧ (raiseLost s flow c).lyt = s.lyt ∧ (raiseLost s flow c).sec = s.sec ∧ (raiseLost s flow c).fld = s.fld ∧ (raiseLost s flow c).dbg = s.dbg ∧ (raiseLost s flow c).cfg = s.cfg ∧ (raiseLost s flow c).live = s.live ∧ (raiseLost s flow c).cfgPrev = s.cfgPrev ∧ (raiseLost s flow c).changedAt = s.changedAt ∧ (raiseLost s flow c).epochs = s.epochs ∧ (raiseLost s flow c).results = s.results ∧ (raiseLost s flow c).modesNext = s.modesNext ∧ (raiseLost s flow c).modes = s.modes ∧ (raiseLost s flow c).readHi = s.readHi ∧ (raiseLost s flow c).writeLo = s.writeLo := by
  generalize h : raiseLost s flow c = t
  simp only [raiseLost] at h
  all_goals (subst h; simp)

@[simp] theorem putFlow_keeps (s : State) (c : Nat) (f : FlowRec) :
    (putFlow s c f).pending = s.pending ∧ (putFlow s c f).bootReady = s.bootReady ∧ (putFlow s c f).fresh = s.fresh ∧ (putFlow s c f).now = s.now ∧ (putFlow s c f).up = s.up ∧ (putFlow s c f).mem = s.mem ∧ (putFlow s c f).mmu = s.mmu ∧ (putFlow s c f).tlb = s.tlb ∧ (putFlow s c f).knots = s.knots ∧ (putFlow s c f).qmu = s.qmu ∧ (putFlow s c f).eng = s.eng ∧ (putFlow s c f).power = s.power ∧ (putFlow s c f).tb = s.tb ∧ (putFlow s c f).fldT = s.fldT ∧ (putFlow s c f).trig = s.trig ∧ (putFlow s c f).ing = s.ing ∧ (putFlow s c f).spl = s.spl ∧ (putFlow s c f).xft = s.xft ∧ (putFlow s c f).geo = s.geo ∧ (putFlow s c f).eth = s.eth ∧ (putFlow s c f).oct = s.oct ∧ (putFlow s c f).seq = s.seq ∧ (putFlow s c f).slv = s.slv ∧ (putFlow s c f).lyt = s.lyt ∧ (putFlow s c f).sec = s.sec ∧ (putFlow s c f).fld = s.fld ∧ (putFlow s c f).dbg = s.dbg ∧ (putFlow s c f).cfg = s.cfg ∧ (putFlow s c f).live = s.live ∧ (putFlow s c f).cfgPrev = s.cfgPrev ∧ (putFlow s c f).changedAt = s.changedAt ∧ (putFlow s c f).epochs = s.epochs ∧ (putFlow s c f).results = s.results ∧ (putFlow s c f).modesNext = s.modesNext ∧ (putFlow s c f).modes = s.modes ∧ (putFlow s c f).readHi = s.readHi ∧ (putFlow s c f).writeLo = s.writeLo := by
  generalize h : putFlow s c f = t
  simp only [putFlow] at h
  repeat' split at h
  all_goals (subst h; simp)

@[simp] theorem putEvent_keeps (s : State) (c : Nat) (e : RingEvent) :
    (putEvent s c e).pending = s.pending ∧ (putEvent s c e).bootReady = s.bootReady ∧ (putEvent s c e).fresh = s.fresh ∧ (putEvent s c e).now = s.now ∧ (putEvent s c e).up = s.up ∧ (putEvent s c e).mem = s.mem ∧ (putEvent s c e).mmu = s.mmu ∧ (putEvent s c e).tlb = s.tlb ∧ (putEvent s c e).knots = s.knots ∧ (putEvent s c e).qmu = s.qmu ∧ (putEvent s c e).eng = s.eng ∧ (putEvent s c e).safe = s.safe ∧ (putEvent s c e).power = s.power ∧ (putEvent s c e).tb = s.tb ∧ (putEvent s c e).fldT = s.fldT ∧ (putEvent s c e).trig = s.trig ∧ (putEvent s c e).ing = s.ing ∧ (putEvent s c e).spl = s.spl ∧ (putEvent s c e).xft = s.xft ∧ (putEvent s c e).geo = s.geo ∧ (putEvent s c e).eth = s.eth ∧ (putEvent s c e).oct = s.oct ∧ (putEvent s c e).seq = s.seq ∧ (putEvent s c e).slv = s.slv ∧ (putEvent s c e).lyt = s.lyt ∧ (putEvent s c e).icu = s.icu ∧ (putEvent s c e).sic = s.sic ∧ (putEvent s c e).sec = s.sec ∧ (putEvent s c e).fld = s.fld ∧ (putEvent s c e).dbg = s.dbg ∧ (putEvent s c e).cfg = s.cfg ∧ (putEvent s c e).live = s.live ∧ (putEvent s c e).cfgPrev = s.cfgPrev ∧ (putEvent s c e).changedAt = s.changedAt ∧ (putEvent s c e).epochs = s.epochs ∧ (putEvent s c e).results = s.results ∧ (putEvent s c e).modesNext = s.modesNext ∧ (putEvent s c e).modes = s.modes ∧ (putEvent s c e).readHi = s.readHi ∧ (putEvent s c e).writeLo = s.writeLo := by
  generalize h : putEvent s c e = t
  simp only [putEvent] at h
  repeat' split at h
  all_goals (subst h; simp)

@[simp] theorem putDesc_keeps (s : State) (c : Nat) (r : Option Rec) :
    (putDesc s c r).pending = s.pending ∧ (putDesc s c r).bootReady = s.bootReady ∧ (putDesc s c r).fresh = s.fresh ∧ (putDesc s c r).now = s.now ∧ (putDesc s c r).up = s.up ∧ (putDesc s c r).mem = s.mem ∧ (putDesc s c r).mmu = s.mmu ∧ (putDesc s c r).tlb = s.tlb ∧ (putDesc s c r).knots = s.knots ∧ (putDesc s c r).qmu = s.qmu ∧ (putDesc s c r).eng = s.eng ∧ (putDesc s c r).safe = s.safe ∧ (putDesc s c r).power = s.power ∧ (putDesc s c r).tb = s.tb ∧ (putDesc s c r).fldT = s.fldT ∧ (putDesc s c r).trig = s.trig ∧ (putDesc s c r).ing = s.ing ∧ (putDesc s c r).spl = s.spl ∧ (putDesc s c r).xft = s.xft ∧ (putDesc s c r).geo = s.geo ∧ (putDesc s c r).eth = s.eth ∧ (putDesc s c r).oct = s.oct ∧ (putDesc s c r).seq = s.seq ∧ (putDesc s c r).slv = s.slv ∧ (putDesc s c r).lyt = s.lyt ∧ (putDesc s c r).icu = s.icu ∧ (putDesc s c r).sic = s.sic ∧ (putDesc s c r).sec = s.sec ∧ (putDesc s c r).fld = s.fld ∧ (putDesc s c r).dbg = s.dbg ∧ (putDesc s c r).cfg = s.cfg ∧ (putDesc s c r).live = s.live ∧ (putDesc s c r).cfgPrev = s.cfgPrev ∧ (putDesc s c r).changedAt = s.changedAt ∧ (putDesc s c r).epochs = s.epochs ∧ (putDesc s c r).results = s.results ∧ (putDesc s c r).modesNext = s.modesNext ∧ (putDesc s c r).modes = s.modes ∧ (putDesc s c r).readHi = s.readHi ∧ (putDesc s c r).writeLo = s.writeLo := by
  generalize h : putDesc s c r = t
  simp only [putDesc] at h
  repeat' split at h
  all_goals (subst h; simp)

@[simp] theorem flushGo_keeps (c : Nat) (u1 : Nat) (s : State) :
    (flushGo c u1 s).pending = s.pending ∧ (flushGo c u1 s).bootReady = s.bootReady ∧ (flushGo c u1 s).fresh = s.fresh ∧ (flushGo c u1 s).now = s.now ∧ (flushGo c u1 s).up = s.up ∧ (flushGo c u1 s).mem = s.mem ∧ (flushGo c u1 s).mmu = s.mmu ∧ (flushGo c u1 s).tlb = s.tlb ∧ (flushGo c u1 s).knots = s.knots ∧ (flushGo c u1 s).qmu = s.qmu ∧ (flushGo c u1 s).eng = s.eng ∧ (flushGo c u1 s).safe = s.safe ∧ (flushGo c u1 s).power = s.power ∧ (flushGo c u1 s).tb = s.tb ∧ (flushGo c u1 s).fldT = s.fldT ∧ (flushGo c u1 s).trig = s.trig ∧ (flushGo c u1 s).ing = s.ing ∧ (flushGo c u1 s).spl = s.spl ∧ (flushGo c u1 s).xft = s.xft ∧ (flushGo c u1 s).geo = s.geo ∧ (flushGo c u1 s).eth = s.eth ∧ (flushGo c u1 s).oct = s.oct ∧ (flushGo c u1 s).seq = s.seq ∧ (flushGo c u1 s).slv = s.slv ∧ (flushGo c u1 s).lyt = s.lyt ∧ (flushGo c u1 s).icu = s.icu ∧ (flushGo c u1 s).sic = s.sic ∧ (flushGo c u1 s).sec = s.sec ∧ (flushGo c u1 s).fld = s.fld ∧ (flushGo c u1 s).dbg = s.dbg ∧ (flushGo c u1 s).cfg = s.cfg ∧ (flushGo c u1 s).live = s.live ∧ (flushGo c u1 s).cfgPrev = s.cfgPrev ∧ (flushGo c u1 s).changedAt = s.changedAt ∧ (flushGo c u1 s).epochs = s.epochs ∧ (flushGo c u1 s).results = s.results ∧ (flushGo c u1 s).modesNext = s.modesNext ∧ (flushGo c u1 s).modes = s.modes ∧ (flushGo c u1 s).readHi = s.readHi ∧ (flushGo c u1 s).writeLo = s.writeLo := by
  induction u1 generalizing s with
  | zero => simp [flushGo]
  | succ k ih =>
    generalize h : flushGo c (k + 1) s = t
    simp only [flushGo] at h
    repeat' split at h
    all_goals (subst h; simp [ih])

@[simp] theorem flushHeld_keeps (s : State) (c : Nat) :
    (flushHeld s c).pending = s.pending ∧ (flushHeld s c).bootReady = s.bootReady ∧ (flushHeld s c).fresh = s.fresh ∧ (flushHeld s c).now = s.now ∧ (flushHeld s c).up = s.up ∧ (flushHeld s c).mem = s.mem ∧ (flushHeld s c).mmu = s.mmu ∧ (flushHeld s c).tlb = s.tlb ∧ (flushHeld s c).knots = s.knots ∧ (flushHeld s c).qmu = s.qmu ∧ (flushHeld s c).eng = s.eng ∧ (flushHeld s c).safe = s.safe ∧ (flushHeld s c).power = s.power ∧ (flushHeld s c).tb = s.tb ∧ (flushHeld s c).fldT = s.fldT ∧ (flushHeld s c).trig = s.trig ∧ (flushHeld s c).ing = s.ing ∧ (flushHeld s c).spl = s.spl ∧ (flushHeld s c).xft = s.xft ∧ (flushHeld s c).geo = s.geo ∧ (flushHeld s c).eth = s.eth ∧ (flushHeld s c).oct = s.oct ∧ (flushHeld s c).seq = s.seq ∧ (flushHeld s c).slv = s.slv ∧ (flushHeld s c).lyt = s.lyt ∧ (flushHeld s c).icu = s.icu ∧ (flushHeld s c).sic = s.sic ∧ (flushHeld s c).sec = s.sec ∧ (flushHeld s c).fld = s.fld ∧ (flushHeld s c).dbg = s.dbg ∧ (flushHeld s c).cfg = s.cfg ∧ (flushHeld s c).live = s.live ∧ (flushHeld s c).cfgPrev = s.cfgPrev ∧ (flushHeld s c).changedAt = s.changedAt ∧ (flushHeld s c).epochs = s.epochs ∧ (flushHeld s c).results = s.results ∧ (flushHeld s c).modesNext = s.modesNext ∧ (flushHeld s c).modes = s.modes ∧ (flushHeld s c).readHi = s.readHi ∧ (flushHeld s c).writeLo = s.writeLo := by
  generalize h : flushHeld s c = t
  simp only [flushHeld] at h
  repeat' split at h
  all_goals (subst h; simp)

@[simp] theorem putReady_keeps (s : State) (u1 : Ready) :
    (putReady s u1).pending = s.pending ∧ (putReady s u1).bootReady = s.bootReady ∧ (putReady s u1).fresh = s.fresh ∧ (putReady s u1).now = s.now ∧ (putReady s u1).up = s.up ∧ (putReady s u1).mem = s.mem ∧ (putReady s u1).mmu = s.mmu ∧ (putReady s u1).tlb = s.tlb ∧ (putReady s u1).knots = s.knots ∧ (putReady s u1).qmu = s.qmu ∧ (putReady s u1).eng = s.eng ∧ (putReady s u1).power = s.power ∧ (putReady s u1).tb = s.tb ∧ (putReady s u1).fldT = s.fldT ∧ (putReady s u1).trig = s.trig ∧ (putReady s u1).ing = s.ing ∧ (putReady s u1).spl = s.spl ∧ (putReady s u1).xft = s.xft ∧ (putReady s u1).geo = s.geo ∧ (putReady s u1).eth = s.eth ∧ (putReady s u1).oct = s.oct ∧ (putReady s u1).seq = s.seq ∧ (putReady s u1).slv = s.slv ∧ (putReady s u1).lyt = s.lyt ∧ (putReady s u1).sec = s.sec ∧ (putReady s u1).fld = s.fld ∧ (putReady s u1).dbg = s.dbg ∧ (putReady s u1).cfg = s.cfg ∧ (putReady s u1).live = s.live ∧ (putReady s u1).cfgPrev = s.cfgPrev ∧ (putReady s u1).changedAt = s.changedAt ∧ (putReady s u1).epochs = s.epochs ∧ (putReady s u1).results = s.results ∧ (putReady s u1).modesNext = s.modesNext ∧ (putReady s u1).modes = s.modes ∧ (putReady s u1).readHi = s.readHi ∧ (putReady s u1).writeLo = s.writeLo := by
  generalize h : putReady s u1 = t
  simp only [putReady] at h
  repeat' split at h
  all_goals (subst h; simp)

@[simp] theorem closeRing_keeps (before : State) (s : State) (c : Nat) :
    (closeRing before s c).pending = s.pending ∧ (closeRing before s c).bootReady = s.bootReady ∧ (closeRing before s c).fresh = s.fresh ∧ (closeRing before s c).now = s.now ∧ (closeRing before s c).up = s.up ∧ (closeRing before s c).mem = s.mem ∧ (closeRing before s c).mmu = s.mmu ∧ (closeRing before s c).tlb = s.tlb ∧ (closeRing before s c).knots = s.knots ∧ (closeRing before s c).qmu = s.qmu ∧ (closeRing before s c).eng = s.eng ∧ (closeRing before s c).safe = s.safe ∧ (closeRing before s c).power = s.power ∧ (closeRing before s c).tb = s.tb ∧ (closeRing before s c).fldT = s.fldT ∧ (closeRing before s c).trig = s.trig ∧ (closeRing before s c).ing = s.ing ∧ (closeRing before s c).spl = s.spl ∧ (closeRing before s c).xft = s.xft ∧ (closeRing before s c).geo = s.geo ∧ (closeRing before s c).eth = s.eth ∧ (closeRing before s c).oct = s.oct ∧ (closeRing before s c).seq = s.seq ∧ (closeRing before s c).slv = s.slv ∧ (closeRing before s c).lyt = s.lyt ∧ (closeRing before s c).icu = s.icu ∧ (closeRing before s c).sic = s.sic ∧ (closeRing before s c).sec = s.sec ∧ (closeRing before s c).fld = s.fld ∧ (closeRing before s c).dbg = s.dbg ∧ (closeRing before s c).cfg = s.cfg ∧ (closeRing before s c).live = s.live ∧ (closeRing before s c).cfgPrev = s.cfgPrev ∧ (closeRing before s c).changedAt = s.changedAt ∧ (closeRing before s c).epochs = s.epochs ∧ (closeRing before s c).results = s.results ∧ (closeRing before s c).modesNext = s.modesNext ∧ (closeRing before s c).modes = s.modes ∧ (closeRing before s c).readHi = s.readHi ∧ (closeRing before s c).writeLo = s.writeLo := by
  generalize h : closeRing before s c = t
  simp only [closeRing] at h
  repeat' split at h
  all_goals (subst h; simp)

@[simp] theorem deliverReady_keeps (s : State) (l : List Ready) :
    (deliverReady s l).pending = s.pending ∧ (deliverReady s l).bootReady = s.bootReady ∧ (deliverReady s l).fresh = s.fresh ∧ (deliverReady s l).now = s.now ∧ (deliverReady s l).up = s.up ∧ (deliverReady s l).mem = s.mem ∧ (deliverReady s l).mmu = s.mmu ∧ (deliverReady s l).tlb = s.tlb ∧ (deliverReady s l).knots = s.knots ∧ (deliverReady s l).qmu = s.qmu ∧ (deliverReady s l).eng = s.eng ∧ (deliverReady s l).power = s.power ∧ (deliverReady s l).tb = s.tb ∧ (deliverReady s l).fldT = s.fldT ∧ (deliverReady s l).trig = s.trig ∧ (deliverReady s l).ing = s.ing ∧ (deliverReady s l).spl = s.spl ∧ (deliverReady s l).xft = s.xft ∧ (deliverReady s l).geo = s.geo ∧ (deliverReady s l).eth = s.eth ∧ (deliverReady s l).oct = s.oct ∧ (deliverReady s l).seq = s.seq ∧ (deliverReady s l).slv = s.slv ∧ (deliverReady s l).lyt = s.lyt ∧ (deliverReady s l).sec = s.sec ∧ (deliverReady s l).fld = s.fld ∧ (deliverReady s l).dbg = s.dbg ∧ (deliverReady s l).cfg = s.cfg ∧ (deliverReady s l).live = s.live ∧ (deliverReady s l).cfgPrev = s.cfgPrev ∧ (deliverReady s l).changedAt = s.changedAt ∧ (deliverReady s l).epochs = s.epochs ∧ (deliverReady s l).results = s.results ∧ (deliverReady s l).modesNext = s.modesNext ∧ (deliverReady s l).modes = s.modes ∧ (deliverReady s l).readHi = s.readHi ∧ (deliverReady s l).writeLo = s.writeLo := by
  simp [deliverReady]

@[simp] theorem ready_keeps (s : State) (x : Ready) :
    (ready s x).pending = s.pending ∧ (ready s x).bootReady = s.bootReady ∧ (ready s x).fresh = s.fresh ∧ (ready s x).now = s.now ∧ (ready s x).up = s.up ∧ (ready s x).mem = s.mem ∧ (ready s x).mmu = s.mmu ∧ (ready s x).tlb = s.tlb ∧ (ready s x).knots = s.knots ∧ (ready s x).qmu = s.qmu ∧ (ready s x).eng = s.eng ∧ (ready s x).power = s.power ∧ (ready s x).tb = s.tb ∧ (ready s x).fldT = s.fldT ∧ (ready s x).trig = s.trig ∧ (ready s x).ing = s.ing ∧ (ready s x).spl = s.spl ∧ (ready s x).xft = s.xft ∧ (ready s x).geo = s.geo ∧ (ready s x).eth = s.eth ∧ (ready s x).oct = s.oct ∧ (ready s x).seq = s.seq ∧ (ready s x).slv = s.slv ∧ (ready s x).lyt = s.lyt ∧ (ready s x).sec = s.sec ∧ (ready s x).fld = s.fld ∧ (ready s x).dbg = s.dbg ∧ (ready s x).cfg = s.cfg ∧ (ready s x).live = s.live ∧ (ready s x).cfgPrev = s.cfgPrev ∧ (ready s x).changedAt = s.changedAt ∧ (ready s x).epochs = s.epochs ∧ (ready s x).results = s.results ∧ (ready s x).modesNext = s.modesNext ∧ (ready s x).modes = s.modes ∧ (ready s x).readHi = s.readHi ∧ (ready s x).writeLo = s.writeLo := by
  generalize h : ready s x = t
  simp only [ready] at h
  repeat' split at h
  all_goals (subst h; simp)

@[simp] theorem ringEvent_keeps (s : State) (c : Nat) (e : RingEvent) :
    (ringEvent s c e).pending = s.pending ∧ (ringEvent s c e).bootReady = s.bootReady ∧ (ringEvent s c e).fresh = s.fresh ∧ (ringEvent s c e).now = s.now ∧ (ringEvent s c e).up = s.up ∧ (ringEvent s c e).mem = s.mem ∧ (ringEvent s c e).mmu = s.mmu ∧ (ringEvent s c e).tlb = s.tlb ∧ (ringEvent s c e).knots = s.knots ∧ (ringEvent s c e).qmu = s.qmu ∧ (ringEvent s c e).eng = s.eng ∧ (ringEvent s c e).power = s.power ∧ (ringEvent s c e).tb = s.tb ∧ (ringEvent s c e).fldT = s.fldT ∧ (ringEvent s c e).trig = s.trig ∧ (ringEvent s c e).ing = s.ing ∧ (ringEvent s c e).spl = s.spl ∧ (ringEvent s c e).xft = s.xft ∧ (ringEvent s c e).geo = s.geo ∧ (ringEvent s c e).eth = s.eth ∧ (ringEvent s c e).oct = s.oct ∧ (ringEvent s c e).seq = s.seq ∧ (ringEvent s c e).slv = s.slv ∧ (ringEvent s c e).lyt = s.lyt ∧ (ringEvent s c e).sec = s.sec ∧ (ringEvent s c e).fld = s.fld ∧ (ringEvent s c e).dbg = s.dbg ∧ (ringEvent s c e).cfg = s.cfg ∧ (ringEvent s c e).live = s.live ∧ (ringEvent s c e).cfgPrev = s.cfgPrev ∧ (ringEvent s c e).changedAt = s.changedAt ∧ (ringEvent s c e).epochs = s.epochs ∧ (ringEvent s c e).results = s.results ∧ (ringEvent s c e).modesNext = s.modesNext ∧ (ringEvent s c e).modes = s.modes ∧ (ringEvent s c e).readHi = s.readHi ∧ (ringEvent s c e).writeLo = s.writeLo := by
  generalize h : ringEvent s c e = t
  simp only [ringEvent] at h
  all_goals (subst h; simp)

@[simp] theorem flowToRing_keeps (s : State) (c : Nat) (f : FlowRec) :
    (flowToRing s c f).pending = s.pending ∧ (flowToRing s c f).bootReady = s.bootReady ∧ (flowToRing s c f).fresh = s.fresh ∧ (flowToRing s c f).now = s.now ∧ (flowToRing s c f).up = s.up ∧ (flowToRing s c f).mem = s.mem ∧ (flowToRing s c f).mmu = s.mmu ∧ (flowToRing s c f).tlb = s.tlb ∧ (flowToRing s c f).knots = s.knots ∧ (flowToRing s c f).qmu = s.qmu ∧ (flowToRing s c f).eng = s.eng ∧ (flowToRing s c f).power = s.power ∧ (flowToRing s c f).tb = s.tb ∧ (flowToRing s c f).fldT = s.fldT ∧ (flowToRing s c f).trig = s.trig ∧ (flowToRing s c f).ing = s.ing ∧ (flowToRing s c f).spl = s.spl ∧ (flowToRing s c f).xft = s.xft ∧ (flowToRing s c f).geo = s.geo ∧ (flowToRing s c f).eth = s.eth ∧ (flowToRing s c f).oct = s.oct ∧ (flowToRing s c f).seq = s.seq ∧ (flowToRing s c f).slv = s.slv ∧ (flowToRing s c f).lyt = s.lyt ∧ (flowToRing s c f).sec = s.sec ∧ (flowToRing s c f).fld = s.fld ∧ (flowToRing s c f).dbg = s.dbg ∧ (flowToRing s c f).cfg = s.cfg ∧ (flowToRing s c f).live = s.live ∧ (flowToRing s c f).cfgPrev = s.cfgPrev ∧ (flowToRing s c f).changedAt = s.changedAt ∧ (flowToRing s c f).epochs = s.epochs ∧ (flowToRing s c f).results = s.results ∧ (flowToRing s c f).modesNext = s.modesNext ∧ (flowToRing s c f).modes = s.modes ∧ (flowToRing s c f).readHi = s.readHi ∧ (flowToRing s c f).writeLo = s.writeLo := by
  generalize h : flowToRing s c f = t
  simp only [flowToRing] at h
  all_goals (subst h; simp)

@[simp] theorem ringError_keeps (s : State) (com : Bool) (r : Nat) (status : Nat) :
    (ringError s com r status).pending = s.pending ∧ (ringError s com r status).bootReady = s.bootReady ∧ (ringError s com r status).fresh = s.fresh ∧ (ringError s com r status).now = s.now ∧ (ringError s com r status).up = s.up ∧ (ringError s com r status).mem = s.mem ∧ (ringError s com r status).mmu = s.mmu ∧ (ringError s com r status).tlb = s.tlb ∧ (ringError s com r status).knots = s.knots ∧ (ringError s com r status).qmu = s.qmu ∧ (ringError s com r status).eng = s.eng ∧ (ringError s com r status).power = s.power ∧ (ringError s com r status).tb = s.tb ∧ (ringError s com r status).fldT = s.fldT ∧ (ringError s com r status).trig = s.trig ∧ (ringError s com r status).ing = s.ing ∧ (ringError s com r status).spl = s.spl ∧ (ringError s com r status).xft = s.xft ∧ (ringError s com r status).geo = s.geo ∧ (ringError s com r status).eth = s.eth ∧ (ringError s com r status).oct = s.oct ∧ (ringError s com r status).seq = s.seq ∧ (ringError s com r status).slv = s.slv ∧ (ringError s com r status).lyt = s.lyt ∧ (ringError s com r status).sec = s.sec ∧ (ringError s com r status).fld = s.fld ∧ (ringError s com r status).dbg = s.dbg ∧ (ringError s com r status).cfg = s.cfg ∧ (ringError s com r status).live = s.live ∧ (ringError s com r status).cfgPrev = s.cfgPrev ∧ (ringError s com r status).changedAt = s.changedAt ∧ (ringError s com r status).epochs = s.epochs ∧ (ringError s com r status).results = s.results ∧ (ringError s com r status).modesNext = s.modesNext ∧ (ringError s com r status).modes = s.modes ∧ (ringError s com r status).readHi = s.readHi ∧ (ringError s com r status).writeLo = s.writeLo := by
  generalize h : ringError s com r status = t
  simp only [ringError] at h
  repeat' split at h
  all_goals (subst h; simp)

@[simp] theorem fetchOne_keeps (s : State) (r : Nat) (c : Nat) :
    (fetchOne s r c).pending = s.pending ∧ (fetchOne s r c).bootReady = s.bootReady ∧ (fetchOne s r c).fresh = s.fresh ∧ (fetchOne s r c).now = s.now ∧ (fetchOne s r c).up = s.up ∧ (fetchOne s r c).mem = s.mem ∧ (fetchOne s r c).mmu = s.mmu ∧ (fetchOne s r c).tlb = s.tlb ∧ (fetchOne s r c).knots = s.knots ∧ (fetchOne s r c).qmu = s.qmu ∧ (fetchOne s r c).eng = s.eng ∧ (fetchOne s r c).safe = s.safe ∧ (fetchOne s r c).power = s.power ∧ (fetchOne s r c).tb = s.tb ∧ (fetchOne s r c).fldT = s.fldT ∧ (fetchOne s r c).trig = s.trig ∧ (fetchOne s r c).ing = s.ing ∧ (fetchOne s r c).spl = s.spl ∧ (fetchOne s r c).xft = s.xft ∧ (fetchOne s r c).geo = s.geo ∧ (fetchOne s r c).eth = s.eth ∧ (fetchOne s r c).oct = s.oct ∧ (fetchOne s r c).seq = s.seq ∧ (fetchOne s r c).slv = s.slv ∧ (fetchOne s r c).lyt = s.lyt ∧ (fetchOne s r c).icu = s.icu ∧ (fetchOne s r c).sic = s.sic ∧ (fetchOne s r c).sec = s.sec ∧ (fetchOne s r c).fld = s.fld ∧ (fetchOne s r c).dbg = s.dbg ∧ (fetchOne s r c).cfg = s.cfg ∧ (fetchOne s r c).live = s.live ∧ (fetchOne s r c).cfgPrev = s.cfgPrev ∧ (fetchOne s r c).changedAt = s.changedAt ∧ (fetchOne s r c).epochs = s.epochs ∧ (fetchOne s r c).results = s.results ∧ (fetchOne s r c).modesNext = s.modesNext ∧ (fetchOne s r c).modes = s.modes ∧ (fetchOne s r c).readHi = s.readHi ∧ (fetchOne s r c).writeLo = s.writeLo := by
  generalize h : fetchOne s r c = t
  simp only [fetchOne] at h
  all_goals (subst h; simp)

@[simp] theorem fetchGo_keeps (r : Nat) (c : Nat) (u1 : Nat) (s : State) :
    (fetchGo r c u1 s).pending = s.pending ∧ (fetchGo r c u1 s).bootReady = s.bootReady ∧ (fetchGo r c u1 s).fresh = s.fresh ∧ (fetchGo r c u1 s).now = s.now ∧ (fetchGo r c u1 s).up = s.up ∧ (fetchGo r c u1 s).mem = s.mem ∧ (fetchGo r c u1 s).mmu = s.mmu ∧ (fetchGo r c u1 s).tlb = s.tlb ∧ (fetchGo r c u1 s).knots = s.knots ∧ (fetchGo r c u1 s).qmu = s.qmu ∧ (fetchGo r c u1 s).eng = s.eng ∧ (fetchGo r c u1 s).power = s.power ∧ (fetchGo r c u1 s).tb = s.tb ∧ (fetchGo r c u1 s).fldT = s.fldT ∧ (fetchGo r c u1 s).trig = s.trig ∧ (fetchGo r c u1 s).ing = s.ing ∧ (fetchGo r c u1 s).spl = s.spl ∧ (fetchGo r c u1 s).xft = s.xft ∧ (fetchGo r c u1 s).geo = s.geo ∧ (fetchGo r c u1 s).eth = s.eth ∧ (fetchGo r c u1 s).oct = s.oct ∧ (fetchGo r c u1 s).seq = s.seq ∧ (fetchGo r c u1 s).slv = s.slv ∧ (fetchGo r c u1 s).lyt = s.lyt ∧ (fetchGo r c u1 s).sec = s.sec ∧ (fetchGo r c u1 s).fld = s.fld ∧ (fetchGo r c u1 s).dbg = s.dbg ∧ (fetchGo r c u1 s).cfg = s.cfg ∧ (fetchGo r c u1 s).live = s.live ∧ (fetchGo r c u1 s).cfgPrev = s.cfgPrev ∧ (fetchGo r c u1 s).changedAt = s.changedAt ∧ (fetchGo r c u1 s).epochs = s.epochs ∧ (fetchGo r c u1 s).results = s.results ∧ (fetchGo r c u1 s).modesNext = s.modesNext ∧ (fetchGo r c u1 s).modes = s.modes ∧ (fetchGo r c u1 s).readHi = s.readHi ∧ (fetchGo r c u1 s).writeLo = s.writeLo := by
  induction u1 generalizing s with
  | zero => simp [fetchGo]
  | succ k ih =>
    generalize h : fetchGo r c (k + 1) s = t
    simp only [fetchGo] at h
    repeat' split at h
    all_goals (subst h; simp [ih])

@[simp] theorem fetchRing_keeps (s : State) (r : Nat) :
    (fetchRing s r).pending = s.pending ∧ (fetchRing s r).bootReady = s.bootReady ∧ (fetchRing s r).fresh = s.fresh ∧ (fetchRing s r).now = s.now ∧ (fetchRing s r).up = s.up ∧ (fetchRing s r).mem = s.mem ∧ (fetchRing s r).mmu = s.mmu ∧ (fetchRing s r).tlb = s.tlb ∧ (fetchRing s r).knots = s.knots ∧ (fetchRing s r).qmu = s.qmu ∧ (fetchRing s r).eng = s.eng ∧ (fetchRing s r).power = s.power ∧ (fetchRing s r).tb = s.tb ∧ (fetchRing s r).fldT = s.fldT ∧ (fetchRing s r).trig = s.trig ∧ (fetchRing s r).ing = s.ing ∧ (fetchRing s r).spl = s.spl ∧ (fetchRing s r).xft = s.xft ∧ (fetchRing s r).geo = s.geo ∧ (fetchRing s r).eth = s.eth ∧ (fetchRing s r).oct = s.oct ∧ (fetchRing s r).seq = s.seq ∧ (fetchRing s r).slv = s.slv ∧ (fetchRing s r).lyt = s.lyt ∧ (fetchRing s r).sec = s.sec ∧ (fetchRing s r).fld = s.fld ∧ (fetchRing s r).dbg = s.dbg ∧ (fetchRing s r).cfg = s.cfg ∧ (fetchRing s r).live = s.live ∧ (fetchRing s r).cfgPrev = s.cfgPrev ∧ (fetchRing s r).changedAt = s.changedAt ∧ (fetchRing s r).epochs = s.epochs ∧ (fetchRing s r).results = s.results ∧ (fetchRing s r).modesNext = s.modesNext ∧ (fetchRing s r).modes = s.modes ∧ (fetchRing s r).readHi = s.readHi ∧ (fetchRing s r).writeLo = s.writeLo := by
  generalize h : fetchRing s r = t
  simp only [fetchRing] at h
  repeat' split at h
  all_goals (subst h; simp)

@[simp] theorem pumpFetch_keeps (s : State) :
    (pumpFetch s).pending = s.pending ∧ (pumpFetch s).bootReady = s.bootReady ∧ (pumpFetch s).fresh = s.fresh ∧ (pumpFetch s).now = s.now ∧ (pumpFetch s).up = s.up ∧ (pumpFetch s).mem = s.mem ∧ (pumpFetch s).mmu = s.mmu ∧ (pumpFetch s).tlb = s.tlb ∧ (pumpFetch s).knots = s.knots ∧ (pumpFetch s).qmu = s.qmu ∧ (pumpFetch s).eng = s.eng ∧ (pumpFetch s).power = s.power ∧ (pumpFetch s).tb = s.tb ∧ (pumpFetch s).fldT = s.fldT ∧ (pumpFetch s).trig = s.trig ∧ (pumpFetch s).ing = s.ing ∧ (pumpFetch s).spl = s.spl ∧ (pumpFetch s).xft = s.xft ∧ (pumpFetch s).geo = s.geo ∧ (pumpFetch s).eth = s.eth ∧ (pumpFetch s).oct = s.oct ∧ (pumpFetch s).seq = s.seq ∧ (pumpFetch s).slv = s.slv ∧ (pumpFetch s).lyt = s.lyt ∧ (pumpFetch s).sec = s.sec ∧ (pumpFetch s).fld = s.fld ∧ (pumpFetch s).dbg = s.dbg ∧ (pumpFetch s).cfg = s.cfg ∧ (pumpFetch s).live = s.live ∧ (pumpFetch s).cfgPrev = s.cfgPrev ∧ (pumpFetch s).changedAt = s.changedAt ∧ (pumpFetch s).epochs = s.epochs ∧ (pumpFetch s).results = s.results ∧ (pumpFetch s).modesNext = s.modesNext ∧ (pumpFetch s).modes = s.modes ∧ (pumpFetch s).readHi = s.readHi ∧ (pumpFetch s).writeLo = s.writeLo := by
  generalize h : pumpFetch s = t
  simp only [pumpFetch] at h
  repeat' split at h
  all_goals (subst h; simp)

@[simp] theorem evalWaits_keeps (s : State) (k : Nat) :
    (evalWaits s k).pending = s.pending ∧ (evalWaits s k).bootReady = s.bootReady ∧ (evalWaits s k).out = s.out ∧ (evalWaits s k).fresh = s.fresh ∧ (evalWaits s k).now = s.now ∧ (evalWaits s k).up = s.up ∧ (evalWaits s k).mem = s.mem ∧ (evalWaits s k).mmu = s.mmu ∧ (evalWaits s k).tlb = s.tlb ∧ (evalWaits s k).qmu = s.qmu ∧ (evalWaits s k).safe = s.safe ∧ (evalWaits s k).power = s.power ∧ (evalWaits s k).tb = s.tb ∧ (evalWaits s k).fldT = s.fldT ∧ (evalWaits s k).trig = s.trig ∧ (evalWaits s k).ing = s.ing ∧ (evalWaits s k).spl = s.spl ∧ (evalWaits s k).xft = s.xft ∧ (evalWaits s k).geo = s.geo ∧ (evalWaits s k).eth = s.eth ∧ (evalWaits s k).oct = s.oct ∧ (evalWaits s k).seq = s.seq ∧ (evalWaits s k).slv = s.slv ∧ (evalWaits s k).lyt = s.lyt ∧ (evalWaits s k).icu = s.icu ∧ (evalWaits s k).sic = s.sic ∧ (evalWaits s k).sec = s.sec ∧ (evalWaits s k).fld = s.fld ∧ (evalWaits s k).dbg = s.dbg ∧ (evalWaits s k).cfg = s.cfg ∧ (evalWaits s k).live = s.live ∧ (evalWaits s k).cfgPrev = s.cfgPrev ∧ (evalWaits s k).changedAt = s.changedAt ∧ (evalWaits s k).epochs = s.epochs ∧ (evalWaits s k).results = s.results ∧ (evalWaits s k).modesNext = s.modesNext ∧ (evalWaits s k).modes = s.modes ∧ (evalWaits s k).readHi = s.readHi ∧ (evalWaits s k).writeLo = s.writeLo := by
  generalize h : evalWaits s k = t
  simp only [evalWaits] at h
  all_goals (subst h; simp)

@[simp] theorem setKnot_keeps (s : State) (k : Nat) (v : W32) :
    (setKnot s k v).pending = s.pending ∧ (setKnot s k v).bootReady = s.bootReady ∧ (setKnot s k v).out = s.out ∧ (setKnot s k v).fresh = s.fresh ∧ (setKnot s k v).now = s.now ∧ (setKnot s k v).up = s.up ∧ (setKnot s k v).mem = s.mem ∧ (setKnot s k v).mmu = s.mmu ∧ (setKnot s k v).tlb = s.tlb ∧ (setKnot s k v).qmu = s.qmu ∧ (setKnot s k v).safe = s.safe ∧ (setKnot s k v).power = s.power ∧ (setKnot s k v).tb = s.tb ∧ (setKnot s k v).fldT = s.fldT ∧ (setKnot s k v).trig = s.trig ∧ (setKnot s k v).ing = s.ing ∧ (setKnot s k v).spl = s.spl ∧ (setKnot s k v).xft = s.xft ∧ (setKnot s k v).geo = s.geo ∧ (setKnot s k v).eth = s.eth ∧ (setKnot s k v).oct = s.oct ∧ (setKnot s k v).seq = s.seq ∧ (setKnot s k v).slv = s.slv ∧ (setKnot s k v).lyt = s.lyt ∧ (setKnot s k v).icu = s.icu ∧ (setKnot s k v).sic = s.sic ∧ (setKnot s k v).sec = s.sec ∧ (setKnot s k v).fld = s.fld ∧ (setKnot s k v).dbg = s.dbg ∧ (setKnot s k v).cfg = s.cfg ∧ (setKnot s k v).live = s.live ∧ (setKnot s k v).cfgPrev = s.cfgPrev ∧ (setKnot s k v).changedAt = s.changedAt ∧ (setKnot s k v).epochs = s.epochs ∧ (setKnot s k v).results = s.results ∧ (setKnot s k v).modesNext = s.modesNext ∧ (setKnot s k v).modes = s.modes ∧ (setKnot s k v).readHi = s.readHi ∧ (setKnot s k v).writeLo = s.writeLo := by
  generalize h : setKnot s k v = t
  simp only [setKnot] at h
  all_goals (subst h; simp)

@[simp] theorem setCadenceKnot_keeps (s : State) (heal : Bool) (c : Nat) (v : W32) :
    (setCadenceKnot s heal c v).pending = s.pending ∧ (setCadenceKnot s heal c v).bootReady = s.bootReady ∧ (setCadenceKnot s heal c v).out = s.out ∧ (setCadenceKnot s heal c v).fresh = s.fresh ∧ (setCadenceKnot s heal c v).now = s.now ∧ (setCadenceKnot s heal c v).up = s.up ∧ (setCadenceKnot s heal c v).mem = s.mem ∧ (setCadenceKnot s heal c v).mmu = s.mmu ∧ (setCadenceKnot s heal c v).tlb = s.tlb ∧ (setCadenceKnot s heal c v).qmu = s.qmu ∧ (setCadenceKnot s heal c v).safe = s.safe ∧ (setCadenceKnot s heal c v).power = s.power ∧ (setCadenceKnot s heal c v).tb = s.tb ∧ (setCadenceKnot s heal c v).fldT = s.fldT ∧ (setCadenceKnot s heal c v).trig = s.trig ∧ (setCadenceKnot s heal c v).ing = s.ing ∧ (setCadenceKnot s heal c v).spl = s.spl ∧ (setCadenceKnot s heal c v).xft = s.xft ∧ (setCadenceKnot s heal c v).geo = s.geo ∧ (setCadenceKnot s heal c v).eth = s.eth ∧ (setCadenceKnot s heal c v).oct = s.oct ∧ (setCadenceKnot s heal c v).seq = s.seq ∧ (setCadenceKnot s heal c v).slv = s.slv ∧ (setCadenceKnot s heal c v).lyt = s.lyt ∧ (setCadenceKnot s heal c v).icu = s.icu ∧ (setCadenceKnot s heal c v).sic = s.sic ∧ (setCadenceKnot s heal c v).sec = s.sec ∧ (setCadenceKnot s heal c v).fld = s.fld ∧ (setCadenceKnot s heal c v).dbg = s.dbg ∧ (setCadenceKnot s heal c v).cfg = s.cfg ∧ (setCadenceKnot s heal c v).live = s.live ∧ (setCadenceKnot s heal c v).cfgPrev = s.cfgPrev ∧ (setCadenceKnot s heal c v).changedAt = s.changedAt ∧ (setCadenceKnot s heal c v).epochs = s.epochs ∧ (setCadenceKnot s heal c v).results = s.results ∧ (setCadenceKnot s heal c v).modesNext = s.modesNext ∧ (setCadenceKnot s heal c v).modes = s.modes ∧ (setCadenceKnot s heal c v).readHi = s.readHi ∧ (setCadenceKnot s heal c v).writeLo = s.writeLo := by
  generalize h : setCadenceKnot s heal c v = t
  simp only [setCadenceKnot] at h
  repeat' split at h
  all_goals (subst h; simp)

@[simp] theorem cycleKnot_keeps (l : List Signal) (s : State) (k : Nat) :
    (cycleKnot l s k).pending = s.pending ∧ (cycleKnot l s k).bootReady = s.bootReady ∧ (cycleKnot l s k).out = s.out ∧ (cycleKnot l s k).fresh = s.fresh ∧ (cycleKnot l s k).now = s.now ∧ (cycleKnot l s k).up = s.up ∧ (cycleKnot l s k).mem = s.mem ∧ (cycleKnot l s k).mmu = s.mmu ∧ (cycleKnot l s k).tlb = s.tlb ∧ (cycleKnot l s k).qmu = s.qmu ∧ (cycleKnot l s k).safe = s.safe ∧ (cycleKnot l s k).power = s.power ∧ (cycleKnot l s k).tb = s.tb ∧ (cycleKnot l s k).fldT = s.fldT ∧ (cycleKnot l s k).trig = s.trig ∧ (cycleKnot l s k).ing = s.ing ∧ (cycleKnot l s k).spl = s.spl ∧ (cycleKnot l s k).xft = s.xft ∧ (cycleKnot l s k).geo = s.geo ∧ (cycleKnot l s k).eth = s.eth ∧ (cycleKnot l s k).oct = s.oct ∧ (cycleKnot l s k).seq = s.seq ∧ (cycleKnot l s k).slv = s.slv ∧ (cycleKnot l s k).lyt = s.lyt ∧ (cycleKnot l s k).icu = s.icu ∧ (cycleKnot l s k).sic = s.sic ∧ (cycleKnot l s k).sec = s.sec ∧ (cycleKnot l s k).fld = s.fld ∧ (cycleKnot l s k).dbg = s.dbg ∧ (cycleKnot l s k).cfg = s.cfg ∧ (cycleKnot l s k).live = s.live ∧ (cycleKnot l s k).cfgPrev = s.cfgPrev ∧ (cycleKnot l s k).changedAt = s.changedAt ∧ (cycleKnot l s k).epochs = s.epochs ∧ (cycleKnot l s k).results = s.results ∧ (cycleKnot l s k).modesNext = s.modesNext ∧ (cycleKnot l s k).modes = s.modes ∧ (cycleKnot l s k).readHi = s.readHi ∧ (cycleKnot l s k).writeLo = s.writeLo := by
  generalize h : cycleKnot l s k = t
  simp only [cycleKnot] at h
  repeat' split at h
  all_goals (subst h; simp)

@[simp] theorem applyCycle_keeps (s : State) (l : List Signal) :
    (applyCycle s l).pending = s.pending ∧ (applyCycle s l).bootReady = s.bootReady ∧ (applyCycle s l).out = s.out ∧ (applyCycle s l).fresh = s.fresh ∧ (applyCycle s l).now = s.now ∧ (applyCycle s l).up = s.up ∧ (applyCycle s l).mem = s.mem ∧ (applyCycle s l).mmu = s.mmu ∧ (applyCycle s l).tlb = s.tlb ∧ (applyCycle s l).qmu = s.qmu ∧ (applyCycle s l).safe = s.safe ∧ (applyCycle s l).power = s.power ∧ (applyCycle s l).tb = s.tb ∧ (applyCycle s l).fldT = s.fldT ∧ (applyCycle s l).trig = s.trig ∧ (applyCycle s l).ing = s.ing ∧ (applyCycle s l).spl = s.spl ∧ (applyCycle s l).xft = s.xft ∧ (applyCycle s l).geo = s.geo ∧ (applyCycle s l).eth = s.eth ∧ (applyCycle s l).oct = s.oct ∧ (applyCycle s l).seq = s.seq ∧ (applyCycle s l).slv = s.slv ∧ (applyCycle s l).lyt = s.lyt ∧ (applyCycle s l).icu = s.icu ∧ (applyCycle s l).sic = s.sic ∧ (applyCycle s l).sec = s.sec ∧ (applyCycle s l).fld = s.fld ∧ (applyCycle s l).dbg = s.dbg ∧ (applyCycle s l).cfg = s.cfg ∧ (applyCycle s l).live = s.live ∧ (applyCycle s l).cfgPrev = s.cfgPrev ∧ (applyCycle s l).changedAt = s.changedAt ∧ (applyCycle s l).epochs = s.epochs ∧ (applyCycle s l).results = s.results ∧ (applyCycle s l).modesNext = s.modesNext ∧ (applyCycle s l).modes = s.modes ∧ (applyCycle s l).readHi = s.readHi ∧ (applyCycle s l).writeLo = s.writeLo := by
  generalize h : applyCycle s l = t
  simp only [applyCycle] at h
  all_goals (subst h; simp)

@[simp] theorem applySignal_keeps (s : State) (x : Signal) :
    (applySignal s x).pending = s.pending ∧ (applySignal s x).bootReady = s.bootReady ∧ (applySignal s x).out = s.out ∧ (applySignal s x).fresh = s.fresh ∧ (applySignal s x).now = s.now ∧ (applySignal s x).up = s.up ∧ (applySignal s x).mem = s.mem ∧ (applySignal s x).mmu = s.mmu ∧ (applySignal s x).tlb = s.tlb ∧ (applySignal s x).qmu = s.qmu ∧ (applySignal s x).safe = s.safe ∧ (applySignal s x).power = s.power ∧ (applySignal s x).tb = s.tb ∧ (applySignal s x).fldT = s.fldT ∧ (applySignal s x).trig = s.trig ∧ (applySignal s x).ing = s.ing ∧ (applySignal s x).spl = s.spl ∧ (applySignal s x).xft = s.xft ∧ (applySignal s x).geo = s.geo ∧ (applySignal s x).eth = s.eth ∧ (applySignal s x).oct = s.oct ∧ (applySignal s x).seq = s.seq ∧ (applySignal s x).slv = s.slv ∧ (applySignal s x).lyt = s.lyt ∧ (applySignal s x).icu = s.icu ∧ (applySignal s x).sic = s.sic ∧ (applySignal s x).sec = s.sec ∧ (applySignal s x).fld = s.fld ∧ (applySignal s x).dbg = s.dbg ∧ (applySignal s x).cfg = s.cfg ∧ (applySignal s x).live = s.live ∧ (applySignal s x).cfgPrev = s.cfgPrev ∧ (applySignal s x).changedAt = s.changedAt ∧ (applySignal s x).epochs = s.epochs ∧ (applySignal s x).results = s.results ∧ (applySignal s x).modesNext = s.modesNext ∧ (applySignal s x).modes = s.modes ∧ (applySignal s x).readHi = s.readHi ∧ (applySignal s x).writeLo = s.writeLo := by
  generalize h : applySignal s x = t
  simp only [applySignal] at h
  repeat' split at h
  all_goals (subst h; simp)

@[simp] theorem together_pending (s : State) (f : State → State) (h : ∀ s, (f s).pending = s.pending) : (together s f).pending = s.pending := by
  simp only [together]; split <;> simp [h]

@[simp] theorem together_mem (s : State) (f : State → State) (h : ∀ s, (f s).mem = s.mem) : (together s f).mem = s.mem := by
  simp only [together]; split <;> simp [h]

@[simp] theorem signalOrDrop_keeps (s : State) (did : Nat) (guarded : Bool) (k : Nat) (set : Bool) (v : W32) (kind : Nat) (index : Nat) :
    (signalOrDrop s did guarded k set v kind index).pending = s.pending ∧ (signalOrDrop s did guarded k set v kind index).bootReady = s.bootReady ∧ (signalOrDrop s did guarded k set v kind index).out = s.out ∧ (signalOrDrop s did guarded k set v kind index).fresh = s.fresh ∧ (signalOrDrop s did guarded k set v kind index).now = s.now ∧ (signalOrDrop s did guarded k set v kind index).up = s.up ∧ (signalOrDrop s did guarded k set v kind index).mem = s.mem ∧ (signalOrDrop s did guarded k set v kind index).mmu = s.mmu ∧ (signalOrDrop s did guarded k set v kind index).tlb = s.tlb ∧ (signalOrDrop s did guarded k set v kind index).qmu = s.qmu ∧ (signalOrDrop s did guarded k set v kind index).power = s.power ∧ (signalOrDrop s did guarded k set v kind index).tb = s.tb ∧ (signalOrDrop s did guarded k set v kind index).fldT = s.fldT ∧ (signalOrDrop s did guarded k set v kind index).trig = s.trig ∧ (signalOrDrop s did guarded k set v kind index).ing = s.ing ∧ (signalOrDrop s did guarded k set v kind index).spl = s.spl ∧ (signalOrDrop s did guarded k set v kind index).xft = s.xft ∧ (signalOrDrop s did guarded k set v kind index).geo = s.geo ∧ (signalOrDrop s did guarded k set v kind index).eth = s.eth ∧ (signalOrDrop s did guarded k set v kind index).oct = s.oct ∧ (signalOrDrop s did guarded k set v kind index).seq = s.seq ∧ (signalOrDrop s did guarded k set v kind index).slv = s.slv ∧ (signalOrDrop s did guarded k set v kind index).lyt = s.lyt ∧ (signalOrDrop s did guarded k set v kind index).sec = s.sec ∧ (signalOrDrop s did guarded k set v kind index).fld = s.fld ∧ (signalOrDrop s did guarded k set v kind index).dbg = s.dbg ∧ (signalOrDrop s did guarded k set v kind index).cfg = s.cfg ∧ (signalOrDrop s did guarded k set v kind index).live = s.live ∧ (signalOrDrop s did guarded k set v kind index).cfgPrev = s.cfgPrev ∧ (signalOrDrop s did guarded k set v kind index).changedAt = s.changedAt ∧ (signalOrDrop s did guarded k set v kind index).epochs = s.epochs ∧ (signalOrDrop s did guarded k set v kind index).results = s.results ∧ (signalOrDrop s did guarded k set v kind index).modesNext = s.modesNext ∧ (signalOrDrop s did guarded k set v kind index).modes = s.modes ∧ (signalOrDrop s did guarded k set v kind index).readHi = s.readHi ∧ (signalOrDrop s did guarded k set v kind index).writeLo = s.writeLo := by
  generalize h : signalOrDrop s did guarded k set v kind index = t
  simp only [signalOrDrop] at h
  repeat' split at h
  all_goals (subst h; simp)

@[simp] theorem sendSignal_keeps (s : State) (h : HeldSignal) :
    (sendSignal s h).pending = s.pending ∧ (sendSignal s h).bootReady = s.bootReady ∧ (sendSignal s h).fresh = s.fresh ∧ (sendSignal s h).now = s.now ∧ (sendSignal s h).up = s.up ∧ (sendSignal s h).mem = s.mem ∧ (sendSignal s h).mmu = s.mmu ∧ (sendSignal s h).tlb = s.tlb ∧ (sendSignal s h).qmu = s.qmu ∧ (sendSignal s h).power = s.power ∧ (sendSignal s h).tb = s.tb ∧ (sendSignal s h).fldT = s.fldT ∧ (sendSignal s h).trig = s.trig ∧ (sendSignal s h).ing = s.ing ∧ (sendSignal s h).spl = s.spl ∧ (sendSignal s h).xft = s.xft ∧ (sendSignal s h).geo = s.geo ∧ (sendSignal s h).eth = s.eth ∧ (sendSignal s h).slv = s.slv ∧ (sendSignal s h).lyt = s.lyt ∧ (sendSignal s h).sec = s.sec ∧ (sendSignal s h).fld = s.fld ∧ (sendSignal s h).dbg = s.dbg ∧ (sendSignal s h).cfg = s.cfg ∧ (sendSignal s h).live = s.live ∧ (sendSignal s h).cfgPrev = s.cfgPrev ∧ (sendSignal s h).changedAt = s.changedAt ∧ (sendSignal s h).epochs = s.epochs ∧ (sendSignal s h).results = s.results ∧ (sendSignal s h).modesNext = s.modesNext ∧ (sendSignal s h).modes = s.modes ∧ (sendSignal s h).readHi = s.readHi ∧ (sendSignal s h).writeLo = s.writeLo := by
  generalize h : sendSignal s h = t
  simp only [sendSignal] at h
  repeat' split at h
  all_goals (subst h; simp)

@[simp] theorem gateSignal_keeps (s : State) (h : HeldSignal) :
    (gateSignal s h).pending = s.pending ∧ (gateSignal s h).bootReady = s.bootReady ∧ (gateSignal s h).fresh = s.fresh ∧ (gateSignal s h).now = s.now ∧ (gateSignal s h).up = s.up ∧ (gateSignal s h).mem = s.mem ∧ (gateSignal s h).mmu = s.mmu ∧ (gateSignal s h).tlb = s.tlb ∧ (gateSignal s h).qmu = s.qmu ∧ (gateSignal s h).power = s.power ∧ (gateSignal s h).tb = s.tb ∧ (gateSignal s h).fldT = s.fldT ∧ (gateSignal s h).trig = s.trig ∧ (gateSignal s h).ing = s.ing ∧ (gateSignal s h).spl = s.spl ∧ (gateSignal s h).xft = s.xft ∧ (gateSignal s h).geo = s.geo ∧ (gateSignal s h).eth = s.eth ∧ (gateSignal s h).slv = s.slv ∧ (gateSignal s h).lyt = s.lyt ∧ (gateSignal s h).sec = s.sec ∧ (gateSignal s h).fld = s.fld ∧ (gateSignal s h).dbg = s.dbg ∧ (gateSignal s h).cfg = s.cfg ∧ (gateSignal s h).live = s.live ∧ (gateSignal s h).cfgPrev = s.cfgPrev ∧ (gateSignal s h).changedAt = s.changedAt ∧ (gateSignal s h).epochs = s.epochs ∧ (gateSignal s h).results = s.results ∧ (gateSignal s h).modesNext = s.modesNext ∧ (gateSignal s h).modes = s.modes ∧ (gateSignal s h).readHi = s.readHi ∧ (gateSignal s h).writeLo = s.writeLo := by
  generalize h : gateSignal s h = t
  simp only [gateSignal] at h
  repeat' split at h
  all_goals (subst h; simp)

@[simp] theorem dueHeld_keeps (s : State) :
    (dueHeld s).pending = s.pending ∧ (dueHeld s).bootReady = s.bootReady ∧ (dueHeld s).fresh = s.fresh ∧ (dueHeld s).now = s.now ∧ (dueHeld s).up = s.up ∧ (dueHeld s).mem = s.mem ∧ (dueHeld s).mmu = s.mmu ∧ (dueHeld s).tlb = s.tlb ∧ (dueHeld s).qmu = s.qmu ∧ (dueHeld s).power = s.power ∧ (dueHeld s).tb = s.tb ∧ (dueHeld s).fldT = s.fldT ∧ (dueHeld s).trig = s.trig ∧ (dueHeld s).ing = s.ing ∧ (dueHeld s).spl = s.spl ∧ (dueHeld s).xft = s.xft ∧ (dueHeld s).geo = s.geo ∧ (dueHeld s).eth = s.eth ∧ (dueHeld s).slv = s.slv ∧ (dueHeld s).lyt = s.lyt ∧ (dueHeld s).sec = s.sec ∧ (dueHeld s).fld = s.fld ∧ (dueHeld s).dbg = s.dbg ∧ (dueHeld s).cfg = s.cfg ∧ (dueHeld s).live = s.live ∧ (dueHeld s).cfgPrev = s.cfgPrev ∧ (dueHeld s).changedAt = s.changedAt ∧ (dueHeld s).epochs = s.epochs ∧ (dueHeld s).results = s.results ∧ (dueHeld s).modesNext = s.modesNext ∧ (dueHeld s).modes = s.modes ∧ (dueHeld s).readHi = s.readHi ∧ (dueHeld s).writeLo = s.writeLo := by
  generalize h : dueHeld s = t
  simp only [dueHeld] at h
  all_goals (subst h; simp)

@[simp] theorem headerSignal_keeps (s : State) (d : Desc) :
    (headerSignal s d).pending = s.pending ∧ (headerSignal s d).bootReady = s.bootReady ∧ (headerSignal s d).fresh = s.fresh ∧ (headerSignal s d).now = s.now ∧ (headerSignal s d).up = s.up ∧ (headerSignal s d).mem = s.mem ∧ (headerSignal s d).mmu = s.mmu ∧ (headerSignal s d).tlb = s.tlb ∧ (headerSignal s d).qmu = s.qmu ∧ (headerSignal s d).power = s.power ∧ (headerSignal s d).tb = s.tb ∧ (headerSignal s d).fldT = s.fldT ∧ (headerSignal s d).trig = s.trig ∧ (headerSignal s d).ing = s.ing ∧ (headerSignal s d).spl = s.spl ∧ (headerSignal s d).xft = s.xft ∧ (headerSignal s d).geo = s.geo ∧ (headerSignal s d).eth = s.eth ∧ (headerSignal s d).slv = s.slv ∧ (headerSignal s d).lyt = s.lyt ∧ (headerSignal s d).sec = s.sec ∧ (headerSignal s d).fld = s.fld ∧ (headerSignal s d).dbg = s.dbg ∧ (headerSignal s d).cfg = s.cfg ∧ (headerSignal s d).live = s.live ∧ (headerSignal s d).cfgPrev = s.cfgPrev ∧ (headerSignal s d).changedAt = s.changedAt ∧ (headerSignal s d).epochs = s.epochs ∧ (headerSignal s d).results = s.results ∧ (headerSignal s d).modesNext = s.modesNext ∧ (headerSignal s d).modes = s.modes ∧ (headerSignal s d).readHi = s.readHi ∧ (headerSignal s d).writeLo = s.writeLo := by
  generalize h : headerSignal s d = t
  simp only [headerSignal] at h
  repeat' split at h
  all_goals (subst h; simp)

@[simp] theorem dropFlight_keeps (s : State) (r : Nat) (i : W32) :
    (dropFlight s r i).pending = s.pending ∧ (dropFlight s r i).bootReady = s.bootReady ∧ (dropFlight s r i).out = s.out ∧ (dropFlight s r i).fresh = s.fresh ∧ (dropFlight s r i).now = s.now ∧ (dropFlight s r i).up = s.up ∧ (dropFlight s r i).mem = s.mem ∧ (dropFlight s r i).mmu = s.mmu ∧ (dropFlight s r i).tlb = s.tlb ∧ (dropFlight s r i).knots = s.knots ∧ (dropFlight s r i).qmu = s.qmu ∧ (dropFlight s r i).eng = s.eng ∧ (dropFlight s r i).safe = s.safe ∧ (dropFlight s r i).power = s.power ∧ (dropFlight s r i).tb = s.tb ∧ (dropFlight s r i).fldT = s.fldT ∧ (dropFlight s r i).trig = s.trig ∧ (dropFlight s r i).ing = s.ing ∧ (dropFlight s r i).spl = s.spl ∧ (dropFlight s r i).xft = s.xft ∧ (dropFlight s r i).geo = s.geo ∧ (dropFlight s r i).eth = s.eth ∧ (dropFlight s r i).oct = s.oct ∧ (dropFlight s r i).seq = s.seq ∧ (dropFlight s r i).slv = s.slv ∧ (dropFlight s r i).lyt = s.lyt ∧ (dropFlight s r i).icu = s.icu ∧ (dropFlight s r i).sic = s.sic ∧ (dropFlight s r i).sec = s.sec ∧ (dropFlight s r i).fld = s.fld ∧ (dropFlight s r i).dbg = s.dbg ∧ (dropFlight s r i).cfg = s.cfg ∧ (dropFlight s r i).live = s.live ∧ (dropFlight s r i).cfgPrev = s.cfgPrev ∧ (dropFlight s r i).changedAt = s.changedAt ∧ (dropFlight s r i).epochs = s.epochs ∧ (dropFlight s r i).results = s.results ∧ (dropFlight s r i).modesNext = s.modesNext ∧ (dropFlight s r i).modes = s.modes ∧ (dropFlight s r i).readHi = s.readHi ∧ (dropFlight s r i).writeLo = s.writeLo := by
  generalize h : dropFlight s r i = t
  simp only [dropFlight] at h
  all_goals (subst h; simp)

@[simp] theorem leaveInner_keeps (s : State) (d : Desc) :
    (leaveInner s d).pending = s.pending ∧ (leaveInner s d).bootReady = s.bootReady ∧ (leaveInner s d).out = s.out ∧ (leaveInner s d).fresh = s.fresh ∧ (leaveInner s d).now = s.now ∧ (leaveInner s d).up = s.up ∧ (leaveInner s d).mem = s.mem ∧ (leaveInner s d).mmu = s.mmu ∧ (leaveInner s d).tlb = s.tlb ∧ (leaveInner s d).hif = s.hif ∧ (leaveInner s d).qmu = s.qmu ∧ (leaveInner s d).eng = s.eng ∧ (leaveInner s d).safe = s.safe ∧ (leaveInner s d).power = s.power ∧ (leaveInner s d).tb = s.tb ∧ (leaveInner s d).fldT = s.fldT ∧ (leaveInner s d).trig = s.trig ∧ (leaveInner s d).ing = s.ing ∧ (leaveInner s d).spl = s.spl ∧ (leaveInner s d).xft = s.xft ∧ (leaveInner s d).geo = s.geo ∧ (leaveInner s d).eth = s.eth ∧ (leaveInner s d).oct = s.oct ∧ (leaveInner s d).seq = s.seq ∧ (leaveInner s d).slv = s.slv ∧ (leaveInner s d).lyt = s.lyt ∧ (leaveInner s d).icu = s.icu ∧ (leaveInner s d).sic = s.sic ∧ (leaveInner s d).sec = s.sec ∧ (leaveInner s d).fld = s.fld ∧ (leaveInner s d).dbg = s.dbg ∧ (leaveInner s d).cfg = s.cfg ∧ (leaveInner s d).live = s.live ∧ (leaveInner s d).cfgPrev = s.cfgPrev ∧ (leaveInner s d).changedAt = s.changedAt ∧ (leaveInner s d).epochs = s.epochs ∧ (leaveInner s d).results = s.results ∧ (leaveInner s d).modesNext = s.modesNext ∧ (leaveInner s d).modes = s.modes ∧ (leaveInner s d).readHi = s.readHi ∧ (leaveInner s d).writeLo = s.writeLo := by
  generalize h : leaveInner s d = t
  simp only [leaveInner] at h
  repeat' split at h
  all_goals (subst h; simp)

@[simp] theorem finishDesc_keeps (s : State) (d : Desc) (status : Nat) (result : Nat) (detail : Nat) (flags : Nat) :
    (finishDesc s d status result detail flags).pending = s.pending ∧ (finishDesc s d status result detail flags).bootReady = s.bootReady ∧ (finishDesc s d status result detail flags).fresh = s.fresh ∧ (finishDesc s d status result detail flags).now = s.now ∧ (finishDesc s d status result detail flags).up = s.up ∧ (finishDesc s d status result detail flags).mem = s.mem ∧ (finishDesc s d status result detail flags).mmu = s.mmu ∧ (finishDesc s d status result detail flags).tlb = s.tlb ∧ (finishDesc s d status result detail flags).qmu = s.qmu ∧ (finishDesc s d status result detail flags).power = s.power ∧ (finishDesc s d status result detail flags).tb = s.tb ∧ (finishDesc s d status result detail flags).fldT = s.fldT ∧ (finishDesc s d status result detail flags).trig = s.trig ∧ (finishDesc s d status result detail flags).ing = s.ing ∧ (finishDesc s d status result detail flags).spl = s.spl ∧ (finishDesc s d status result detail flags).xft = s.xft ∧ (finishDesc s d status result detail flags).geo = s.geo ∧ (finishDesc s d status result detail flags).eth = s.eth ∧ (finishDesc s d status result detail flags).slv = s.slv ∧ (finishDesc s d status result detail flags).lyt = s.lyt ∧ (finishDesc s d status result detail flags).sec = s.sec ∧ (finishDesc s d status result detail flags).fld = s.fld ∧ (finishDesc s d status result detail flags).dbg = s.dbg ∧ (finishDesc s d status result detail flags).cfg = s.cfg ∧ (finishDesc s d status result detail flags).live = s.live ∧ (finishDesc s d status result detail flags).cfgPrev = s.cfgPrev ∧ (finishDesc s d status result detail flags).changedAt = s.changedAt ∧ (finishDesc s d status result detail flags).epochs = s.epochs ∧ (finishDesc s d status result detail flags).results = s.results ∧ (finishDesc s d status result detail flags).modesNext = s.modesNext ∧ (finishDesc s d status result detail flags).modes = s.modes ∧ (finishDesc s d status result detail flags).readHi = s.readHi ∧ (finishDesc s d status result detail flags).writeLo = s.writeLo := by
  generalize h : finishDesc s d status result detail flags = t
  simp only [finishDesc] at h
  repeat' split at h
  all_goals (subst h; simp)

@[simp] theorem noteChange_keeps (s : State) :
    (noteChange s).pending = s.pending ∧ (noteChange s).bootReady = s.bootReady ∧ (noteChange s).out = s.out ∧ (noteChange s).fresh = s.fresh ∧ (noteChange s).now = s.now ∧ (noteChange s).up = s.up ∧ (noteChange s).mem = s.mem ∧ (noteChange s).mmu = s.mmu ∧ (noteChange s).tlb = s.tlb ∧ (noteChange s).hif = s.hif ∧ (noteChange s).knots = s.knots ∧ (noteChange s).qmu = s.qmu ∧ (noteChange s).eng = s.eng ∧ (noteChange s).safe = s.safe ∧ (noteChange s).power = s.power ∧ (noteChange s).tb = s.tb ∧ (noteChange s).fldT = s.fldT ∧ (noteChange s).trig = s.trig ∧ (noteChange s).ing = s.ing ∧ (noteChange s).spl = s.spl ∧ (noteChange s).xft = s.xft ∧ (noteChange s).geo = s.geo ∧ (noteChange s).eth = s.eth ∧ (noteChange s).oct = s.oct ∧ (noteChange s).seq = s.seq ∧ (noteChange s).slv = s.slv ∧ (noteChange s).lyt = s.lyt ∧ (noteChange s).icu = s.icu ∧ (noteChange s).sic = s.sic ∧ (noteChange s).sec = s.sec ∧ (noteChange s).fld = s.fld ∧ (noteChange s).dbg = s.dbg ∧ (noteChange s).cfg = s.cfg ∧ (noteChange s).live = s.live ∧ (noteChange s).epochs = s.epochs ∧ (noteChange s).results = s.results ∧ (noteChange s).modesNext = s.modesNext ∧ (noteChange s).modes = s.modes ∧ (noteChange s).readHi = s.readHi ∧ (noteChange s).writeLo = s.writeLo := by
  generalize h : noteChange s = t
  simp only [noteChange] at h
  repeat' split at h
  all_goals (subst h; simp)

@[simp] theorem markStarted_keeps (s : State) (d : Desc) :
    (markStarted s d).pending = s.pending ∧ (markStarted s d).bootReady = s.bootReady ∧ (markStarted s d).out = s.out ∧ (markStarted s d).fresh = s.fresh ∧ (markStarted s d).now = s.now ∧ (markStarted s d).up = s.up ∧ (markStarted s d).mem = s.mem ∧ (markStarted s d).mmu = s.mmu ∧ (markStarted s d).tlb = s.tlb ∧ (markStarted s d).qmu = s.qmu ∧ (markStarted s d).eng = s.eng ∧ (markStarted s d).safe = s.safe ∧ (markStarted s d).power = s.power ∧ (markStarted s d).tb = s.tb ∧ (markStarted s d).fldT = s.fldT ∧ (markStarted s d).trig = s.trig ∧ (markStarted s d).ing = s.ing ∧ (markStarted s d).spl = s.spl ∧ (markStarted s d).xft = s.xft ∧ (markStarted s d).geo = s.geo ∧ (markStarted s d).eth = s.eth ∧ (markStarted s d).oct = s.oct ∧ (markStarted s d).seq = s.seq ∧ (markStarted s d).slv = s.slv ∧ (markStarted s d).lyt = s.lyt ∧ (markStarted s d).icu = s.icu ∧ (markStarted s d).sic = s.sic ∧ (markStarted s d).sec = s.sec ∧ (markStarted s d).fld = s.fld ∧ (markStarted s d).dbg = s.dbg ∧ (markStarted s d).cfg = s.cfg ∧ (markStarted s d).live = s.live ∧ (markStarted s d).epochs = s.epochs ∧ (markStarted s d).results = s.results ∧ (markStarted s d).modesNext = s.modesNext ∧ (markStarted s d).modes = s.modes ∧ (markStarted s d).readHi = s.readHi ∧ (markStarted s d).writeLo = s.writeLo := by
  generalize h : markStarted s d = t
  simp only [markStarted] at h
  repeat' split at h
  all_goals (subst h; simp)

@[simp] theorem setWait_keeps (s : State) (d : Desc) (w : DescWait × Bool) :
    (setWait s d w).pending = s.pending ∧ (setWait s d w).bootReady = s.bootReady ∧ (setWait s d w).out = s.out ∧ (setWait s d w).fresh = s.fresh ∧ (setWait s d w).now = s.now ∧ (setWait s d w).up = s.up ∧ (setWait s d w).mem = s.mem ∧ (setWait s d w).mmu = s.mmu ∧ (setWait s d w).tlb = s.tlb ∧ (setWait s d w).qmu = s.qmu ∧ (setWait s d w).safe = s.safe ∧ (setWait s d w).power = s.power ∧ (setWait s d w).tb = s.tb ∧ (setWait s d w).fldT = s.fldT ∧ (setWait s d w).trig = s.trig ∧ (setWait s d w).ing = s.ing ∧ (setWait s d w).spl = s.spl ∧ (setWait s d w).xft = s.xft ∧ (setWait s d w).geo = s.geo ∧ (setWait s d w).eth = s.eth ∧ (setWait s d w).oct = s.oct ∧ (setWait s d w).seq = s.seq ∧ (setWait s d w).slv = s.slv ∧ (setWait s d w).lyt = s.lyt ∧ (setWait s d w).icu = s.icu ∧ (setWait s d w).sic = s.sic ∧ (setWait s d w).sec = s.sec ∧ (setWait s d w).fld = s.fld ∧ (setWait s d w).dbg = s.dbg ∧ (setWait s d w).cfg = s.cfg ∧ (setWait s d w).live = s.live ∧ (setWait s d w).cfgPrev = s.cfgPrev ∧ (setWait s d w).changedAt = s.changedAt ∧ (setWait s d w).epochs = s.epochs ∧ (setWait s d w).results = s.results ∧ (setWait s d w).modesNext = s.modesNext ∧ (setWait s d w).modes = s.modes ∧ (setWait s d w).readHi = s.readHi ∧ (setWait s d w).writeLo = s.writeLo := by
  generalize h : setWait s d w = t
  simp only [setWait] at h
  repeat' split at h
  all_goals (subst h; simp)

@[simp] theorem registerWait_keeps (s : State) (d : Desc) :
    (registerWait s d).pending = s.pending ∧ (registerWait s d).bootReady = s.bootReady ∧ (registerWait s d).fresh = s.fresh ∧ (registerWait s d).now = s.now ∧ (registerWait s d).up = s.up ∧ (registerWait s d).mem = s.mem ∧ (registerWait s d).mmu = s.mmu ∧ (registerWait s d).tlb = s.tlb ∧ (registerWait s d).qmu = s.qmu ∧ (registerWait s d).power = s.power ∧ (registerWait s d).tb = s.tb ∧ (registerWait s d).fldT = s.fldT ∧ (registerWait s d).trig = s.trig ∧ (registerWait s d).ing = s.ing ∧ (registerWait s d).spl = s.spl ∧ (registerWait s d).xft = s.xft ∧ (registerWait s d).geo = s.geo ∧ (registerWait s d).eth = s.eth ∧ (registerWait s d).slv = s.slv ∧ (registerWait s d).lyt = s.lyt ∧ (registerWait s d).sec = s.sec ∧ (registerWait s d).fld = s.fld ∧ (registerWait s d).dbg = s.dbg ∧ (registerWait s d).cfg = s.cfg ∧ (registerWait s d).live = s.live ∧ (registerWait s d).cfgPrev = s.cfgPrev ∧ (registerWait s d).changedAt = s.changedAt ∧ (registerWait s d).epochs = s.epochs ∧ (registerWait s d).results = s.results ∧ (registerWait s d).modesNext = s.modesNext ∧ (registerWait s d).modes = s.modes ∧ (registerWait s d).readHi = s.readHi ∧ (registerWait s d).writeLo = s.writeLo := by
  generalize h : registerWait s d = t
  simp only [registerWait] at h
  repeat' split at h
  all_goals (subst h; simp)

@[simp] theorem issueInner_keeps (s : State) (d : Desc) :
    (issueInner s d).pending = s.pending ∧ (issueInner s d).bootReady = s.bootReady ∧ (issueInner s d).fresh = s.fresh ∧ (issueInner s d).now = s.now ∧ (issueInner s d).up = s.up ∧ (issueInner s d).mem = s.mem ∧ (issueInner s d).mmu = s.mmu ∧ (issueInner s d).tlb = s.tlb ∧ (issueInner s d).qmu = s.qmu ∧ (issueInner s d).power = s.power ∧ (issueInner s d).tb = s.tb ∧ (issueInner s d).fldT = s.fldT ∧ (issueInner s d).trig = s.trig ∧ (issueInner s d).ing = s.ing ∧ (issueInner s d).spl = s.spl ∧ (issueInner s d).xft = s.xft ∧ (issueInner s d).geo = s.geo ∧ (issueInner s d).eth = s.eth ∧ (issueInner s d).slv = s.slv ∧ (issueInner s d).lyt = s.lyt ∧ (issueInner s d).sec = s.sec ∧ (issueInner s d).fld = s.fld ∧ (issueInner s d).dbg = s.dbg ∧ (issueInner s d).cfg = s.cfg ∧ (issueInner s d).live = s.live ∧ (issueInner s d).cfgPrev = s.cfgPrev ∧ (issueInner s d).changedAt = s.changedAt ∧ (issueInner s d).epochs = s.epochs ∧ (issueInner s d).results = s.results ∧ (issueInner s d).modesNext = s.modesNext ∧ (issueInner s d).modes = s.modes ∧ (issueInner s d).readHi = s.readHi ∧ (issueInner s d).writeLo = s.writeLo := by
  generalize h : issueInner s d = t
  simp only [issueInner] at h
  repeat' split at h
  all_goals (subst h; simp)

end Sys2Proof.Machine
end

