-- ==== Sys2Proof/WellFormed.lean ====
section
/-! DEFINITION. Well-formed commands: every operand lies in the range that the spec gives the object it names. The step does not ask for it: on operands
outside these ranges a command acts as its meaning says, which is mostly to do nothing. -/

namespace Sys2Proof

/-- An operand lies below a bound. -/
def below (x n : Nat) : Bool := decide (x < n)

/-- A source names one of the 1,024 submission rings (R56), or one of the 4,608 threads and its 8 call slots (R33, R299). -/
def Source.wf : Source → Bool
  | .ring r _ => below r 1024
  | .call t k => below t 4608 && below k 8
  | .internal => true
  | .ended => true

/-- A descriptor carries one of the 16 DIDs (R51). -/
def Desc.wf (d : Desc) : Bool := d.src.wf && below d.did 16

/-- An access of BAR0 has a DID, a control processor, an offset inside the 64 MiB of BAR0 and a size of 1 to 8 bytes (R5, R53). -/
def BarAccess.wf (a : BarAccess) : Bool := below a.did 16 && below a.cp 4 && below a.offset (2 ^ 26 + 65536) && decide (1 ≤ a.size) && below a.size 9

/-- Each write of the cycle is a well-formed access. -/
def RegWrite.wf (w : RegWrite) : Bool := w.own.wf && w.rivals.all (·.wf)

/-- A holder is one of the 1,024 submission rings, or one of the 4,608 threads. -/
def DescHolder.wf : DescHolder → Bool
  | .ring r => below r 1024
  | .thread t => below t 4608

def ParserTurn.wf (w : ParserTurn) : Bool := below w.parser 8
def ProcTurn.wf (w : ProcTurn) : Bool := below w.proc 4
def Straps.wf (x : Straps) : Bool := below x.bootSrc 4 && below x.clkMode 4
def WindowSpan.wf (x : WindowSpan) : Bool := below x.offset 67108864 && decide (1 ≤ x.size) && below x.size 9

/-- A PTP message arrives at one of the ten ports, within one TIME cycle of 2 ns (R110 to R113). -/
def PtpMsg.wf (m : PtpMsg) : Bool := below m.port 10 && below m.type 16 && below m.seq 65536 && below m.domain 256 && below m.sub 131072 && below m.transport 3

/-- A frame arrives at one of the ten ports, within one TIME cycle (R142, R143). -/
def Frame.wf (f : Frame) : Bool := below f.port 10 && below f.dstMac (2 ^ 48) && below f.srcMac (2 ^ 48) && below f.udpDst 65536 && below f.sub 131072

/-- A packet arrives at one of the four Octur ports and carries at most 256 bytes (R572, R574). -/
def OctPacket.wf (p : OctPacket) : Bool := below p.port 4 && below p.payload.length 257

/-- Every operand of a command lies in its range. -/
def Instr.wf (i : Instr) : Bool :=
  match i with
  | .registerWrite w => w.wf
  | .registerReadLo a => a.wf
  | .registerWriteLo a => a.wf
  | .registerWriteHi a => a.wf
  | .bar2WindowAccess _ offset _ => below offset 4294967296
  | .functionLevelReset fn => below fn 14
  | .hifFnAssign did _ _ => below did 16
  | .start did => below did 16
  | .stop did => below did 16
  | .reset did => below did 16
  | .sringStopped ring => below ring 1024
  | .doorbellPoll => true
  | .doorbellPollReturn _ ring _ => below ring 1024
  | .descriptorArrival h _ _ => h.wf
  | .nop d => d.wf
  | .timeMark d => d.wf
  | .flowConfig d => d.wf
  | .flowRing d => d.wf
  | .flowDelete d => d.wf
  | .msixModerationExpiry vector => below vector 2048
  | .msixVectorUnmask vector => below vector 2048
  | .qCreate d => d.wf
  | .qDestroy d => d.wf
  | .qFlush d => d.wf
  | .qQuery d => d.wf
  | .blockedEnqueueResume queue => below queue 131072
  | .qmuBackgroundSweep _ queue => below queue 131072
  | .kInit d => d.wf
  | .kSignal d => d.wf
  | .kRead d => d.wf
  | .kFree d => d.wf
  | .knotWaitRelease knot => below knot 8192
  | .knotWaitRetry src _ => src.wf
  | .knotPoisoned knot => below knot 8192
  | .step did => below did 16
  | .reacquire did => below did 16
  | .timeReset did => below did 16
  | .setTod did => below did 16
  | .ptpMessageRx m => m.wf
  | .ptpMessageTx m => m.wf
  | .servoSample port id ingress egress => below port 10 && below id 65536 && below ingress 65 && below egress 65
  | .servoHoldoverTimeout => true
  | .dpllRefLost => true
  | .ppsInEdge _ _ _ => true
  | .ppsOutEdge => true
  | .clk10mGate _ => true
  | .fieldTimeMarker _ _ _ _ => true
  | .fieldLinkDown => true
  | .fieldLinkUp => true
  | .cadConfig d => d.wf
  | .cadArm d => d.wf
  | .cadStop d => d.wf
  | .trigConfig d => d.wf
  | .actConfig d => d.wf
  | .trigMon d => d.wf
  | .flowCatchup d => d.wf
  | .cadenceAcqStart c => below c 32
  | .cadenceClose c => below c 32
  | .cadenceDeadline c => below c 32
  | .epochWorkFinish c _ => below c 32
  | .triggerEdge output => below output 32
  | .actionCmdSend action _ => below action 64
  | .actionAckRx action => below action 64
  | .triggerMissed stream => below stream 128
  | .portConfig d => d.wf
  | .partnerSet d => d.wf
  | .partnerClear d => d.wf
  | .streamConfig d => d.wf
  | .streamEnable d => d.wf
  | .ucodeLoad d => d.wf
  | .tagMap d => d.wf
  | .testInject d => d.wf
  | .tagRead d => d.wf
  | .streamDelete d => d.wf
  | .frameReceive f => f.wf
  | .parserRun w => w.wf
  | .gvspFrameTimeout stream => below stream 128
  | .fieldRecordRx => true
  | .tagWriteResume x => below x.1 32 && below x.2 128
  | .testInjectionStart stream => below stream 128
  | .testInjectTimeout stream => below stream 128
  | .streamFrozenRecovery stream => below stream 128
  | .streamTimeRestored stream => below stream 128
  | .contestedExpiry stream => below stream 128
  | .alignEnd c => below c 32
  | .splStream d => d.wf
  | .splInputs d => d.wf
  | .splSnapshot d => d.wf
  | .poseEvaluation _ => true
  | .egoMotion g => below g 16
  | .xftEntry d => d.wf
  | .xftRig d => d.wf
  | .xftJoint d => d.wf
  | .xftMount d => d.wf
  | .xftEgo d => d.wf
  | .xftSetRef d => d.wf
  | .xftDelete d => d.wf
  | .voxelBuild unit _ => below unit 2
  | .ergVolume d => d.wf
  | .ergKnn d => d.wf
  | .ergFps d => d.wf
  | .ergRules d => d.wf
  | .ergBev d => d.wf
  | .gridConfig d => d.wf
  | .gridSource d => d.wf
  | .gridOutput d => d.wf
  | .gridArea d => d.wf
  | .gridDelete d => d.wf
  | .fuseStepStart g => below g 8
  | .engProgLoad d => d.wf
  | .engProgFree d => d.wf
  | .engTask d => d.wf
  | .engTaskBind d => d.wf
  | .engTaskUnbind d => d.wf
  | .boundTaskReady _ => true
  | .instancePlacement => true
  | .instanceEnd _ => true
  | .fetchArrival t _ => below t 4608
  | .loadReturn t _ => below t 4608
  | .copyDone t => below t 4608
  | .residueVerdict t _ => below t 4608
  | .queueAnswer t => below t 4608
  | .callCompletion t slot => below t 4608 && below slot 8
  | .engNop t _ => below t 4608
  | .add t _ => below t 4608
  | .sub t _ => below t 4608
  | .and t _ => below t 4608
  | .or t _ => below t 4608
  | .xor t _ => below t 4608
  | .shl t _ => below t 4608
  | .shr t _ => below t 4608
  | .sar t _ => below t 4608
  | .min t _ => below t 4608
  | .max t _ => below t 4608
  | .minu t _ => below t 4608
  | .maxu t _ => below t 4608
  | .slt t _ => below t 4608
  | .sltu t _ => below t 4608
  | .seq t _ => below t 4608
  | .mul t _ => below t 4608
  | .mulh t _ => below t 4608
  | .mulhu t _ => below t 4608
  | .div t _ => below t 4608
  | .divu t _ => below t 4608
  | .rem t _ => below t 4608
  | .remu t _ => below t 4608
  | .movi t _ => below t 4608
  | .movhi t _ => below t 4608
  | .mfs t _ => below t 4608
  | .mts t _ => below t 4608
  | .rdtime t _ => below t 4608
  | .ldt t _ => below t 4608
  | .stt t _ => below t 4608
  | .atadd t _ => below t 4608
  | .atcas t _ => below t 4608
  | .vadd t _ => below t 4608
  | .vsub t _ => below t 4608
  | .vmul t _ => below t 4608
  | .vfma t _ => below t 4608
  | .vmin t _ => below t 4608
  | .vmax t _ => below t 4608
  | .vabs t _ => below t 4608
  | .vneg t _ => below t 4608
  | .vdiv t _ => below t 4608
  | .vsqrt t _ => below t 4608
  | .vrcp t _ => below t 4608
  | .vrsqrt t _ => below t 4608
  | .vexp2 t _ => below t 4608
  | .vlog2 t _ => below t 4608
  | .vand t _ => below t 4608
  | .vor t _ => below t 4608
  | .vxor t _ => below t 4608
  | .vshl t _ => below t 4608
  | .vshr t _ => below t 4608
  | .vsar t _ => below t 4608
  | .vcmp t _ => below t 4608
  | .vsel t _ => below t 4608
  | .vperm t _ => below t 4608
  | .vbcast t _ => below t 4608
  | .vext t _ => below t 4608
  | .vins t _ => below t 4608
  | .vredadd t _ => below t 4608
  | .vredmax t _ => below t 4608
  | .vcvtn t _ => below t 4608
  | .vcvtw t _ => below t 4608
  | .vcvt t _ => below t 4608
  | .vldt t _ => below t 4608
  | .vstt t _ => below t 4608
  | .vgath t _ => below t 4608
  | .vscat t _ => below t 4608
  | .mma t _ => below t 4608
  | .ldg t _ => below t 4608
  | .stg t _ => below t 4608
  | .ldgv t _ => below t 4608
  | .stgv t _ => below t 4608
  | .ldc t _ => below t 4608
  | .stc t _ => below t 4608
  | .ldcv t _ => below t 4608
  | .stcv t _ => below t 4608
  | .copy t _ => below t 4608
  | .waitc t _ => below t 4608
  | .sigk t _ => below t 4608
  | .waitk t _ => below t 4608
  | .rdk t _ => below t 4608
  | .qpush t _ => below t 4608
  | .qpop t _ => below t 4608
  | .call t _ => below t 4608
  | .fence t _ => below t 4608
  | .beq t _ => below t 4608
  | .bne t _ => below t 4608
  | .blt t _ => below t 4608
  | .bge t _ => below t 4608
  | .bltu t _ => below t 4608
  | .bgeu t _ => below t 4608
  | .jmp t _ => below t 4608
  | .jal t _ => below t 4608
  | .jr t _ => below t 4608
  | .trapf t _ => below t 4608
  | .endThread t _ => below t 4608
  | .lytCopy d => d.wf
  | .lytGather d => d.wf
  | .lytScatter d => d.wf
  | .lytFill d => d.wf
  | .layoutOperationEnd engine _ _ => below engine 4
  | .seqPool d => d.wf
  | .seqCreate d => d.wf
  | .seqDestroy d => d.wf
  | .seqAppend d => d.wf
  | .seqAttend d => d.wf
  | .seqBias d => d.wf
  | .seqTrim d => d.wf
  | .seqInfo d => d.wf
  | .seqAttendEnd core _ _ => below core 6
  | .seqStallAppendResume pool => below pool 16
  | .seqStallTimeout k => below k 16384
  | .slvSolve d => d.wf
  | .solveStart => true
  | .solveOutcome core _ _ => below core 6
  | .solveDeadline core _ => below core 6
  | .mmuMap d => d.wf
  | .mmuUnmap d => d.wf
  | .mmuQuery d => d.wf
  | .mmuFwSet d => d.wf
  | .memPatrolScrub mc _ => below mc 8
  | .dramMr4Read mc _ _ => below mc 8
  | .errorReportRaise severity kind index event status _ _ did _ _ _ => below severity 4 && below kind 18 && below index 65536 && below event 65536 && below status 256 && below did 16
  | .errorReportProcess => true
  | .verdictFormed c _ f => below c 32 && below f 4096
  | .latchClear did => below did 16
  | .safeAck did bits => below did 16 && below bits 4
  | .islandHeartbeat => true
  | .energiseRequestRx => true
  | .fieldHeartbeatTimeout => true
  | .lockstepMismatch => true
  | .islandWatchdogExpiry => true
  | .firmwareSilent => true
  | .imageCheck _ _ => true
  | .safetyEscalation => true
  | .watchdogWindowClose c _ t => below c 32 && below t 7
  | .stageEndEvent c _ t => below c 32 && below t 7
  | .intakeCloseTimeout c => below c 32
  | .sramScrub m _ _ => below m 95
  | .goldenRun u => below u 88
  | .goldenRunEnd u _ => below u 88
  | .selftestSchedule u => below u 88
  | .selftestSliceEnd u _ => below u 88
  | .selftestAbort u => below u 88
  | .latentTestOverdue u => below u 88
  | .unitIsolate did => below did 16
  | .unitReadmit did => below did 16
  | .readmissionStep u _ => below u 88
  | .unitReadmitted u => below u 88
  | .icuSourceEvent _ source _ => below source 1024
  | .icuDelivery _ w => w.wf
  | .icuEoi _ p source => below p 4 && below source 1024
  | .icuSrcMask did cp => below did 16 && below cp 4
  | .icuSrcUnmask did cp => below did 16 && below cp 4
  | .icuSrcSetPend did cp => below did 16 && below cp 4
  | .icuSrcClrPend did cp => below did 16 && below cp 4
  | .icuSwi did source => below did 16 && below source 1024
  | .icuLockAcquire did lock => below did 16 && below lock 16
  | .icuLockRelease did lock => below did 16 && below lock 16
  | .stormWindowReset => true
  | .processorWake _ w => w.wf
  | .secFwUpdate d => d.wf
  | .secImageLoad d _ => d.wf
  | .secKeyRotate d => d.wf
  | .secLifecycle d => d.wf
  | .secLock d => d.wf
  | .keyRead _ _ => true
  | .sealMeasurement _ => true
  | .presenceWindowTimeout => true
  | .presenceClose did => below did 16
  | .sealOverride did => below did 16
  | .sealRearm did => below did 16
  | .dbgLevelWrite did level => below did 16 && below level 4
  | .dbgNonceRead did => below did 16
  | .dbgAuthGo => true
  | .por _ => true
  | .logicBrownout => true
  | .resetPin => true
  | .pcieFundamental => true
  | .pcieHot => true
  | .hostDeviceCmd did => below did 16
  | .hostUnitCmd did => below did 16
  | .octurCmd module did => below module 16 && below did 16
  | .safeWatchdog => true
  | .thermalTrip => true
  | .debugCmd => true
  | .domainRelease straps _ => straps.wf
  | .bootStageAdvance error => below error 7
  | .bootGo did => below did 16
  | .bootSourceTimeout => true
  | .startupInjection stream _ _ => below stream 128
  | .oasClear did => below did 16
  | .pstateRequest did target => below did 16 && below target 4
  | .pstateTransition => true
  | .p3Wake cause => below cause 3
  | .standbyLoss => true
  | .thermalTrim junction => below junction 65536
  | .powerTrim _ => true
  | .trimRelease junction _ => below junction 65536
  | .pubConfig d => d.wf
  | .pubRemove d => d.wf
  | .publicationAssemble pub => below pub 128
  | .publicationTransmit port => below port 2
  | .octurHello port module peerPort cols rows _ => below port 4 && below module 16 && below peerPort 4 && below cols 4 && below rows 4
  | .octurRetrain port => below port 4
  | .octurReplay port sq => below port 4 && below sq 256
  | .rdReq p _ => p.wf
  | .rdResp p => p.wf
  | .wrReq p _ => p.wf
  | .wrAck p => p.wf
  | .knotAdd p => p.wf
  | .knotAck p => p.wf
  | .time p _ _ _ _ _ _ => p.wf
  | .octurTimeSend => true
  | .resetCmd p => p.wf
  | .resetAck p => p.wf
  | .octurRequestTimeout tag => below tag 65536
  | .octReset d => d.wf
  | .fldBank d => d.wf
  | .fldEnc d => d.wf
  | .fldSerial d => d.wf
  | .fldDin d => d.wf
  | .fieldBrownout => true
  | .fieldSupplyGood => true
  | .fieldFirmwareLoad => true
  | .fieldOvervoltage => true
  | .fieldOvervoltageRestore => true
  | .encoderSample input _ _ _ _ => below input 8
  | .serialRecord port bytes _ _ => below port 8 && below bytes.length 1025
  | .digitalInputChange input _ _ => below input 8
  | .triggerOverload output => below output 32
  | .triggerOverloadRetry output => below output 32
  | .safeReadback _ _ _ _ _ _ => true
  | .safeTestPulse channel _ => below channel 2
  | .linkTestStart did loop pattern => below did 16 && below loop 4 && below pattern 16
  | .linkTestStop did => below did 16
  | .linkTestInject did => below did 16
  | .extest => true
  | .samplePreload _ _ => true
  | .idcode => true
  | .extestPulse => true
  | .extestTrain => true
  | .dbgAccess _ => true
  | .bypass code => below code 256
  | .productionInstruction code => below code 256
  | .traceSync => true
  | .tracePcSample cp _ => below cp 4
  | .dbgMemWindowAccess did span _ => below did 16 && span.wf
  | .ethernetLinkChange port _ => below port 10
  | .octurAckTimeout port => below port 4
  | .octurPacketForward p => p.wf
  | .firmwareHeartbeat => true
  | .ergOperationEnd unit _ => below unit 2
  | .postedStoreDone t => below t 4608
  | .patternCheckerSync link _ _ => below link 28

end Sys2Proof
end

