-- ==== Sys2Proof/Tests/Slice0.lean ====
section
/-! SUPPORT. Tests: worked examples of the spec, single rules, well-formedness, and for every statement states and operands that meet its hypotheses
(test_witness_<Name>; one clause of the conjunction for each group of hypotheses of the statement). -/

set_option maxRecDepth 100000
set_option Elab.async false

namespace Sys2Proof.Tests

open Sys2Proof Sys2Proof.Machine Sys2Proof.Safety

/-- A device that has booted: no domain in reset, the island runs. -/
def up : State := { State.reset with bootReady := true, power.inReset := [], power.step := 16, power.stage := 6, power.trained := true, safe.running := true, safe.intakeUp := true, safe.beating := true, safe.units := (List.range 88).map (fun u => (u, { UnitSafe.reset with service := 0 })), fld.fwRunning := true, fldT.linkUp := true }

/-- A descriptor of firmware's own path with an opcode and values at bytes. -/
def mk (did op : Nat) (body : List (Nat × Nat)) : Desc := ⟨.internal, did, BitVec.ofNat 512 (op + body.foldl (fun n p => n + p.2 * 2 ^ (8 * p.1)) 0)⟩

/-- A BAR0 access of DID 1 at an offset, 4 bytes. -/
def acc (offset : Nat) (data : W32) : BarAccess := ⟨1, 0, offset, 4, data⟩

/-- An epoch that has closed with its alignment done and no flow, under the present configuration. -/
def ep (c n : Nat) : Epoch := { cadence := c, epoch := n, cfg := up.cfg, enabledAt := [], joints := [], changedTasks := [], closed := true, gen := 0, active := [], cut := 0, target := 0, reef := 0, flows := [], alignEnd := some 0, poseEnd := none, egosDone := [], volsDone := [], geoEnd := none, badJoints := [], badStreams := [], tasks := [], gridsDone := [], gridNs := 0, finished := false, lateSeen := false, aborted := false, past := false, windowMissed := false, decided := [], stagesEnded := [] }

/-- A stream's settings: kind and cadence. -/
def sc (kind cad : Nat) : StreamCfg := { kind := kind, cadence := cad, sig := false, cnt := false, acceptPartial := false, source := 0, field := false, slotLog2 := 12, slotsLog2 := 2, base := 0x100000, selector := 0, latency := 0, width := 0, height := 0, format := 0, did := 0, selectAll := false, driftOff := false, maxGap := 0, extrapMax := 0, maxAge := 0, statusMask := 0, mount := none, atTov := false, tags := [] }

def monX : TrigMon := { source := 0, action := false, enable := true, checkTs := true, expDelay := 0, exposure := 0, latMax := 5, tsTol := 0, instants := [], missed := 0, unmatched := 0, missRun := 0, latLargest := 0, latLast := 0, tsErrors := 0, tsLast := 0 }

/-- A context that maps 2^20 pages one to one to the device's memory. -/
def ctx0 : Context := { Context.reset with enable := true, runs := [⟨0, 1048576, 0, true, true, false, false, 0, 0⟩] }

/-- The device of `up` with the contexts of DID 0 to 3 mapped. -/
def upm : State := { up with mmu.ctx := [(0, ctx0), (1, ctx0), (2, ctx0), (3, ctx0)] }

/-- A frame for port 7. -/
def fr (c : Content) : Frame := { port := 7, length := 64, fcsOk := true, fragment := false, vid := none, dstMac := 0, group := false, srcMac := 9, srcIp4 := none, srcIp6 := none, udpDst := 5, sub := 0, content := c }

/-- A received frame that waits. -/
def rx (c : Content) : RxFrame := { port := 7, source := 3, serial := false, bytes := 64, time := 0, frac := 0, gen := 0, holdover := false, udpDst := 5, content := c, partner := none, maps := [] }

/-- A partner at port 7 with a protocol. -/
def par (proto : Nat) : Partner := { port := 7, proto := proto, match_ := 0, program := 0, udpDst := 5, peerMac := 9, peerIp := 0, publisher := 0, writerGroup := 0 }

/-- An epoch table with no stream. -/
def et (n : Nat) : EpochTable := { epoch := n, tov := 0, close := 0, streams := [], queries := [], tags := [], cut := false, ended := none }

/-- A grid of cadence 31 with 8 by 8 cells of 4 channels. -/
def grid0 : GridCfg := { enable := true, cadence := 31, format := 0, reefMax := 0, regionLog2 := 3, w := 8, h := 8, guarded := false, c := 4, bins := 1, cf := 0, cp := 0, ptFormat := 0, ptReduce := 0, sources := [], ptUnit := 0, ptStride := 0, g0 := 0x3F800000, x0 := 0, y0 := 0, z0 := 0, out := none, dz := 0x3F800000, base := 0x10000, did := 1 }

/-- A volume of cadence 31 without members. -/
def vol0 : Volume := { vox := false, reefMax := 0, keep := 1, cadence := 31, members := [], blocksMax := 1024, rangeMax := 0x3F800000, cell := 0x3F800000, ox := 0, oy := 0, oz := 0, pointBase := 0, siteBase := 0, did := 1, guarded := false }

/-- A joint of rig 15. -/
def joint0 : Joint := { rig := 15, position := 1, prismatic := false, axis := 2, zHome := false, wrap := false, primary := 127, check := none, zTol := 1, pre := 8191, zOffset := 0, zPeriod := 0, scale := 0x3FF0000000000000, ref := 0, zero := 0, min := 0, max := 0x3F800000 }

/-- An ego group over stream 127. -/
def ego0 : EgoCfg := { rig := 15, link := 1, erg := 0, required := false, enable := true, streams := [127], regPoints := 4096, minInliers := 512, iterMax := 4, coastMax := 2, refAgeMax := 4, regCell := 0x3F000000, corrMax := 0x3F000000, rmsMax := 0x3D4CCCCD, gateT := 0x3E4CCCCD, gateR := 0x3BA3D70A, degRatio := 0x38D1B717 }

/-- A sample of a SCAN stream: two points. -/
def scan0 : Sample := { index := 9, time := 0, frac := 0, gen := 0, holdover := false, test := false, partial_ := false, frozen := false, sensor := false, kind := kindScan, sequence := 0, signature := none, ingress := 0, commit := 0, elements := 2, payload := List.replicate 32 0 }

/-- The body of a task of program 5 at stage 2 with one instance of one thread. -/
def body0 : TaskBody := { program := 5, entry := 0, instances := 1, threads := 1, stage := 2, seq := 0, cadence := 31, flow := 4095, window := 4096, args := 0, engines := 0, swizzle := 0, export_ := false, handle := 4095, core := none }

/-- A program of DID 1. -/
def prog0 : Program := { owner := 1, guarded := false, codeBytes := 64, minWindow := 4096, threads := 1, residue := false, entries := [0], code := List.replicate 64 0 }

/-- A run of a task. -/
def run0 : TaskRun := { body := body0, did := 1, guarded := false, desc := none, bound := none, epoch := 0, waiting := [], again := [], running := [], ended := [] }

/-- An instance at engine 71. -/
def inst0 : Instance := { run := 0, index := 0, engine := 71, threads := [], window := 0, windowBytes := 4096, swizzle := 0, exported := false, did := 1, guarded := false, program := 5, kept := none, active := true, restarted := false, status := stOk }

/-- The descriptor as DID 2's ring 0 holds it, and the device with it in flight. -/
def ringD (d : Desc) : Desc := ⟨.ring 0 0, 2, d.raw⟩

def upr (d : Desc) : State := { upm with hif.sub := [(0, { Ring.reset with st := .running })], hif.com := [(0, { Ring.reset with st := .running })], hif.flights := [⟨0, 0, true, d.raw, false, .free, false, false⟩] }

/-- Thread 4607 of engine 71 is ready, with these registers, in a window of 131072 bytes at 0. -/
def upt (xs : Tbl W64) (vs : Tbl (BitVec 2048)) : State := { upm with eng.threads := [(4607, { Thread.reset with st := .ready, fetched := some 0, inst := some 0, x := xs, v := vs })], eng.instances := [(0, { inst0 with threads := [63], windowBytes := 131072 })], eng.runs := [(0, run0)], eng.programs := [(5, prog0)] }

/-- An encoding: d, a, b, i, f, m, imm. -/
def en (d a b : BitVec 5) (i : Bool) (f m : BitVec 4) (imm : BitVec 32) : Enc := { d := d, a := a, b := b, i := i, f := f, m := m, imm := imm }

/-- A program header over 64 bytes of code at DRAM address 0, its CRC-32C as given. -/
def progHdr (crc : Nat) : List Byte := leBytes 4 0x31474E45 ++ leBytes 4 64 ++ leBytes 4 crc ++ leBytes 4 4096 ++ [1, 0, 1] ++ List.replicate 109 0

/-- CRC-32C of the code. -/
def crc0 : Nat := crc32c (List.replicate 64 0)

theorem tried {s : State} {k : Nat} {q : Seq} {a : AppendWait} (h0 : q.failed = false) (h1 : q.pending = none) (h2 : q.held.isEmpty = false) (h3 : (q.first + q.count) / q.rpp < q.firstPage + q.held.length) : tryAppend s k q a = .done (openPosition s k q a) := by
  simp [tryAppend, h0, h1, h2, h3]

/-- At the instant of an exchange the field die's oscillator has had no effect yet. -/
theorem fieldTime_now {s : State} (h : s.up = s.fldT.lastAt) : fieldTime s = time16 s + s.fldT.off := by
  simp [fieldTime, h]; rfl

/-- The parser of the one waiting frame takes it. -/
theorem nextOne {s : State} {r : RxFrame} (h : s.ing.waiting = [r]) (h2 : nextFrame [r] = some r) : nextFrame (s.ing.waiting.filter (fun x => x.parser == r.parser)) = some r := by
  rw [h]; simp [h2]

/-- The parse that a program committed. -/
def ofCommit (e : ParseEnd) : Parse := match e with | .commit q => q | _ => Parse.start

/-! ### The queue and the step -/

/-- The state that an outcome answers. -/
def stOf (o : Host.Outcome State Fault Refusal) : State := match o with | .next t => t | _ => State.reset

theorem test_reset_queue_empty : State.reset.pending = [] := by decide +kernel

theorem test_step_idle_advances_time : (stOf (step up)).now = 2 := by decide +kernel

/-- The command in front runs, and the rest waits (ICU_EOI of a source that is not in service sets eoi_err, R500). -/
theorem test_step_takes_front :
    (stOf (step { up with pending := [.icuEoi false 2 5, .doorbellPoll] })).pending = [.doorbellPoll] ∧
    (stOf (step { up with pending := [.icuEoi false 2 5, .doorbellPoll] })).icu.eoiErr = 4 := by decide +kernel

theorem test_table_words_spell_nothing : decodeTableWord 64 5 = none ∧ up.withFetchWord 64 5 = up := by decide +kernel

/-- The bytes of a word, lowest first (R4). -/
theorem test_bytes_little_endian : leBytes 4 0x11223344 = [0x44, 0x33, 0x22, 0x11] ∧ ofLe [0x44, 0x33, 0x22, 0x11] = 0x11223344 := by decide +kernel

/-! ### Worked examples of the spec -/

/-- spec/04_queues_knots.md, Example: the wait of epoch 35,640,000,000, before and at the close, and the mistaken value. -/
theorem test_knot_wait : knotPassed 0x4C4F3E00 0x4C4F3E01 = false ∧ knotPassed 0x4C4F3E01 0x4C4F3E01 = true ∧
    knotPassed 0x4C4F3E00 0xCC4F3E01 = true := by decide +kernel

/-- An ENCODER sample of `count` at `t` ns. -/
def encAt (t count : Nat) : Sample := { scan0 with kind := kindEncoder, time := t, payload := leBytes 8 count ++ List.replicate 8 0 }

/-- spec/08_splice_alignment.md, Example: the slew encoder at q = S + 10,000 ns gives 1,204,531.6 counts and 160,000 counts/s. -/
theorem test_splice_encoder :
    (blendOf { sc kindEncoder 0 with maxGap := 1000 } [encAt 0 1204530, encAt 100000 1204546] (10000 * 65536)).value (10000 * 65536) Sample.position = 0x413261339999999A ∧
    (blendOf { sc kindEncoder 0 with maxGap := 1000 } [encAt 0 1204530, encAt 100000 1204546] (10000 * 65536)).rate = 0x4103880000000000 := by decide +kernel

/-- A grid source with these tolerances. -/
def srcTol (tolAbs tolRel : Nat) : GridSrc := { stream := 0, lift := false, stride := 0, tolAbs := tolAbs, tolRel := tolRel, fx := 0, fy := 0, cx := 0, cy := 0, k1 := 0, k2 := 0, wf := 0, hf := 0, base := 0 }

/-- Grid 0 of RC-4: lidars in slots 0 and 1, cameras in slots 2 to 5. -/
def rc4 : GridCfg := { grid0 with sources := [(0, srcTol 0x3E99999A 0x3C23D70A), (1, srcTol 0x3E99999A 0x3C23D70A), (2, srcTol 0x3F000000 0x3CA3D70A), (3, srcTol 0x3F000000 0x3CA3D70A), (4, srcTol 0x3F000000 0x3CA3D70A)] }

/-- spec/11_grids_fusion.md, Example: region (40, 9) is VOTED without camera 8; region (41, 9) is CONTESTED. -/
theorem test_grid_vote :
    vote rc4 [(0, 0x416D1EB8), (1, 0x416CA3D7), (3, 0x41833333), (4, 0x416F3333)] = (.voted, [3], []) ∧
    vote rc4 [(0, 0x4161999A), (1, 0x417051EC)] = (.contested, [], [0, 1]) := by decide +kernel

/-- The row of weights of the example of R341. -/
def cb4Row : BitVec 2048 := BitVec.ofNat 2048 (0x40733333 + 0x3E99999A * 2 ^ 32 + 0xBF8CCCCD * 2 ^ 64 + 0x3F451EB8 * 2 ^ 96 + 0x3E000000 * 2 ^ 128)

/-- spec/14_number_formats.md, Example: VCVTN to CB4 gives bytes 0x17, 0x3C, the scale 0x7E at byte 224, and FLAGS 0x30. -/
theorem test_vcvtn_cb4 :
    (thread (stOf (exec (.vcvtn 4607 (en 6 4 0 false 5 0 0)) (upt [] [(4, cb4Row)]))) 4607).vr 6 = BitVec.ofNat 2048 (0x3C17 + 0x7E * 2 ^ 1792) ∧
    (thread (stOf (exec (.vcvtn 4607 (en 6 4 0 false 5 0 0)) (upt [] [(4, cb4Row)]))) 4607).flags = 0x30 := by decide +kernel

/-- Sequence 0 of spec/16_sequence_pipeline.md, Example: six layers, one head, width 128, FP16, 781 pages. -/
def ore : Seq := { active := true, failed := false, guarded := true, ownerDid := 1, pool := 0, policy := 1, layers := 6, heads := 1, width := 128, format := 1, flow := 2, reservedPages := 781, stallUs := 1000, base := 0x200000, first := 0, count := 16401, firstPage := 0, held := [], pending := none, appended := [], waiting := [], slides := 0, exhausted := 0, discarded := 0 }

theorem test_sequence_rows : ore.rowBytes = 3072 ∧ ore.rpp = 21 ∧ ore.row 16401 = 0x200000 ∧ ore.timeWord 16401 = 0x200000 + 64512 := by decide +kernel

/-- The bias buckets of the same example: 0, 1 and 14. -/
theorem test_attention_buckets :
    let a : Att := { layer := 0, causal := true, timeCausal := true, outF := 0, hq := 1, qF := 0, window := 0, maxAge := 0, scale := 0, bias := some { heads := 1, baseUs := 100000, values := List.range 32, guarded := true } }
    keyBias a 0 2000000000000 2000000000000 = 0 ∧ keyBias a 0 2000000000000 (2000000000000 - 100000000) = 1 ∧
    keyBias a 0 2000000000000 (2000000000000 - 1638000000000) = 14 := by decide +kernel

/-- spec/17_qp_solver.md, Example: N = 32, nx = 12, nu = 4, nc = 24 takes an image of 112,064 bytes and a work set of 133,056. -/
theorem test_solver_sizes :
    imageBytes (mk 1 0x0D00 [(19, 31), (20, 11), (21, 3), (22, 24)]) = 112064 ∧ workBytes (mk 1 0x0D00 [(19, 31), (20, 11), (21, 3), (22, 24)]) = 133056 := by decide +kernel

/-- spec/18_memory_translation.md, Example: the line at PA 0x12_3456_3F40 lies at MC1. -/
theorem test_memory_controller : mcOf 0x1234563F40 = 1 := by decide +kernel

/-- spec/24_plant_ports_octur.md, Example: 256 Float fields and four lead fields make 1,072 bytes of payload, a frame of 1,118 and 911 ns at 10 Gb/s. -/
theorem test_publication_frame :
    pubPayload 15 (List.replicate 256 (24, 0, 0, 1)) = 1072 ∧ pubFrame up 0 false 1072 = 1118 ∧ lineNs 2 1118 = 911 := by decide +kernel

/-! ### Corners of single rules -/

/-- ADD wraps modulo 2^64 (R305). -/
theorem test_add_wraps : (thread (stOf (exec (.add 4607 (en 3 1 2 false 0 0 0)) (upt [(1, 0xFFFFFFFFFFFFFFFF), (2, 2)] []))) 4607).xr 3 = 1 := by decide +kernel

/-- A divide by zero gives all ones and sets bit 1 of FLAGS; −2^63 by −1 gives −2^63 (R305). -/
theorem test_div_corners :
    (thread (stOf (exec (.div 4607 (en 3 1 2 false 0 0 0)) (upt [(1, 7), (2, 0)] []))) 4607).xr 3 = 0xFFFFFFFFFFFFFFFF ∧
    (thread (stOf (exec (.div 4607 (en 3 1 2 false 0 0 0)) (upt [(1, 7), (2, 0)] []))) 4607).flags = 2 ∧
    (thread (stOf (exec (.div 4607 (en 3 1 2 false 0 0 0)) (upt [(1, 0x8000000000000000), (2, 0xFFFFFFFFFFFFFFFF)] []))) 4607).xr 3 = 0x8000000000000000 := by decide +kernel

/-- Canonical NaNs (R332), saturation to 448 without infinities (R338), ties to even on narrowing to BF16 (R336). -/
theorem test_conversions :
    (convF e4m3 .saturate none (.nan false)).1 = 0x7F ∧ (convF e4m3 .saturate none (.inf false)).1 = 0x7E ∧
    (convF bf16 .saturate none (decodeF fp32 0x3F808000)).1 = 0x3F80 ∧ (convF bf16 .saturate none (decodeF fp32 0x3F818000)).1 = 0x3F82 := by decide +kernel

/-- Routes go x first, then y; in a ring of four, two steps go + (R572, R577). -/
theorem test_octur_routes :
    octRoute { Oct.reset with cols := 2, rows := 2, module := 0 } 5 = some 0 ∧ octRoute { Oct.reset with cols := 2, rows := 2, module := 1 } 5 = some 2 ∧
    octRoute { Oct.reset with cols := 2, rows := 2, torus := true, module := 0 } 3 = some 1 ∧ octRoute { Oct.reset with cols := 2, rows := 2, torus := true, module := 0 } 2 = some 0 := by decide +kernel

/-- CRC-32C of the nine digits, its usual check value (R283). -/
theorem test_crc32c : crc32c [0x31, 0x32, 0x33, 0x34, 0x35, 0x36, 0x37, 0x38, 0x39] = 0xE3069283 := by decide +kernel

/-! ### Well-formedness -/

def dOk : Desc := ⟨.internal, 15, 0⟩
def dBad : Desc := ⟨.internal, 16, 0⟩
def eOk : Enc := en 0 0 0 false 0 0 0
def aOk : BarAccess := ⟨15, 3, 2 ^ 26 + 65535, 8, 0⟩
def aBad : BarAccess := ⟨16, 3, 0, 4, 0⟩
def mOk : PtpMsg := { port := 9, type := 15, seq := 65535, domain := 255, unsupported := false, fromParent := false, utcValid := false, utcOffset := 0, sub := 131071, transport := 2, twoStep := true, time := 0, corr := 0 }
def mBad : PtpMsg := { mOk with port := 10 }
def fOk : Frame := { fr .other with port := 9, dstMac := 2 ^ 48 - 1, srcMac := 2 ^ 48 - 1, udpDst := 65535, sub := 131071 }
def fBad : Frame := { fOk with port := 10 }
def pOk : OctPacket := ⟨3, 0, List.replicate 256 0, true⟩
def pBad : OctPacket := ⟨4, 0, [], true⟩

/-- A term of every command with every operand at the top of its range is well formed. -/
theorem test_well_formed_1 : ([.registerWrite ⟨aOk, []⟩, .registerReadLo aOk, .registerWriteLo aOk, .registerWriteHi aOk, .bar2WindowAccess false 4294967295 [], .functionLevelReset 13, .hifFnAssign 15 false 0, .start 15, .stop 15, .reset 15, .sringStopped 1023, .doorbellPoll, .doorbellPollReturn false 1023 none, .descriptorArrival (.ring 1023) 0 none, .descriptorArrival (.thread 4607) 0 none, .nop dOk, .timeMark dOk, .flowConfig dOk, .flowRing dOk, .flowDelete dOk, .msixModerationExpiry 2047, .msixVectorUnmask 2047, .qCreate dOk, .qDestroy dOk, .qFlush dOk, .qQuery dOk, .blockedEnqueueResume 131071, .qmuBackgroundSweep 0 131071, .kInit dOk, .kSignal dOk, .kRead dOk, .kFree dOk, .knotWaitRelease 8191, .knotWaitRetry .internal 0, .knotPoisoned 8191, .step 15, .reacquire 15, .timeReset 15, .setTod 15, .ptpMessageRx mOk, .ptpMessageTx mOk, .servoSample 9 65535 64 64, .servoHoldoverTimeout, .dpllRefLost, .ppsInEdge false false 0, .ppsOutEdge, .clk10mGate none, .fieldTimeMarker 0 0 0 none, .fieldLinkDown, .fieldLinkUp, .cadConfig dOk, .cadArm dOk, .cadStop dOk, .trigConfig dOk, .actConfig dOk, .trigMon dOk, .flowCatchup dOk, .cadenceAcqStart 31, .cadenceClose 31, .cadenceDeadline 31, .epochWorkFinish 31 0, .triggerEdge 31, .actionCmdSend 63 0, .actionAckRx 63, .triggerMissed 127, .portConfig dOk, .partnerSet dOk, .partnerClear dOk, .streamConfig dOk, .streamEnable dOk, .ucodeLoad dOk, .tagMap dOk, .testInject dOk, .tagRead dOk, .streamDelete dOk, .frameReceive fOk, .parserRun ⟨7, false⟩, .gvspFrameTimeout 127, .fieldRecordRx, .tagWriteResume (31, 127), .testInjectionStart 127, .testInjectTimeout 127, .streamFrozenRecovery 127, .streamTimeRestored 127, .contestedExpiry 127, .alignEnd 31, .splStream dOk, .splInputs dOk, .splSnapshot dOk, .poseEvaluation [], .egoMotion 15, .xftEntry dOk, .xftRig dOk, .xftJoint dOk, .xftMount dOk, .xftEgo dOk, .xftSetRef dOk, .xftDelete dOk, .voxelBuild 1 0, .ergVolume dOk] : List Instr).all (·.wf) = true := by decide +kernel

theorem test_well_formed_2 : ([.ergKnn dOk, .ergFps dOk, .ergRules dOk, .ergBev dOk, .gridConfig dOk, .gridSource dOk, .gridOutput dOk, .gridArea dOk, .gridDelete dOk, .fuseStepStart 7, .engProgLoad dOk, .engProgFree dOk, .engTask dOk, .engTaskBind dOk, .engTaskUnbind dOk, .boundTaskReady 0, .instancePlacement, .instanceEnd 0, .fetchArrival 4607 0, .loadReturn 4607 0, .copyDone 4607, .residueVerdict 4607 false, .queueAnswer 4607, .callCompletion 4607 7, .engNop 4607 eOk, .add 4607 eOk, .sub 4607 eOk, .and 4607 eOk, .or 4607 eOk, .xor 4607 eOk, .shl 4607 eOk, .shr 4607 eOk, .sar 4607 eOk, .min 4607 eOk, .max 4607 eOk, .minu 4607 eOk, .maxu 4607 eOk, .slt 4607 eOk, .sltu 4607 eOk, .seq 4607 eOk, .mul 4607 eOk, .mulh 4607 eOk, .mulhu 4607 eOk, .div 4607 eOk, .divu 4607 eOk, .rem 4607 eOk, .remu 4607 eOk, .movi 4607 eOk, .movhi 4607 eOk, .mfs 4607 eOk, .mts 4607 eOk, .rdtime 4607 eOk, .ldt 4607 eOk, .stt 4607 eOk, .atadd 4607 eOk, .atcas 4607 eOk, .vadd 4607 eOk, .vsub 4607 eOk, .vmul 4607 eOk, .vfma 4607 eOk, .vmin 4607 eOk, .vmax 4607 eOk, .vabs 4607 eOk, .vneg 4607 eOk, .vdiv 4607 eOk, .vsqrt 4607 eOk, .vrcp 4607 eOk, .vrsqrt 4607 eOk, .vexp2 4607 eOk, .vlog2 4607 eOk, .vand 4607 eOk, .vor 4607 eOk, .vxor 4607 eOk, .vshl 4607 eOk, .vshr 4607 eOk, .vsar 4607 eOk, .vcmp 4607 eOk, .vsel 4607 eOk, .vperm 4607 eOk, .vbcast 4607 eOk, .vext 4607 eOk, .vins 4607 eOk, .vredadd 4607 eOk, .vredmax 4607 eOk, .vcvtn 4607 eOk, .vcvtw 4607 eOk, .vcvt 4607 eOk, .vldt 4607 eOk, .vstt 4607 eOk, .vgath 4607 eOk, .vscat 4607 eOk, .mma 4607 eOk, .ldg 4607 eOk, .stg 4607 eOk, .ldgv 4607 eOk, .stgv 4607 eOk, .ldc 4607 eOk, .stc 4607 eOk, .ldcv 4607 eOk, .stcv 4607 eOk] : List Instr).all (·.wf) = true := by decide +kernel

theorem test_well_formed_3 : ([.copy 4607 eOk, .waitc 4607 eOk, .sigk 4607 eOk, .waitk 4607 eOk, .rdk 4607 eOk, .qpush 4607 eOk, .qpop 4607 eOk, .call 4607 eOk, .fence 4607 eOk, .beq 4607 eOk, .bne 4607 eOk, .blt 4607 eOk, .bge 4607 eOk, .bltu 4607 eOk, .bgeu 4607 eOk, .jmp 4607 eOk, .jal 4607 eOk, .jr 4607 eOk, .trapf 4607 eOk, .endThread 4607 eOk, .lytCopy dOk, .lytGather dOk, .lytScatter dOk, .lytFill dOk, .layoutOperationEnd 3 0 0, .seqPool dOk, .seqCreate dOk, .seqDestroy dOk, .seqAppend dOk, .seqAttend dOk, .seqBias dOk, .seqTrim dOk, .seqInfo dOk, .seqAttendEnd 5 0 0, .seqStallAppendResume 15, .seqStallTimeout 16383, .slvSolve dOk, .solveStart, .solveOutcome 5 0 0, .solveDeadline 5 0, .mmuMap dOk, .mmuUnmap dOk, .mmuQuery dOk, .mmuFwSet dOk, .memPatrolScrub 7 0, .dramMr4Read 7 0 false, .errorReportRaise 3 17 65535 65535 255 false [] 15 0 0 none, .errorReportProcess, .verdictFormed 31 0 4095, .latchClear 15, .safeAck 15 3, .islandHeartbeat, .energiseRequestRx, .fieldHeartbeatTimeout, .lockstepMismatch, .islandWatchdogExpiry, .firmwareSilent, .imageCheck false false, .safetyEscalation, .watchdogWindowClose 31 0 6, .stageEndEvent 31 0 6, .intakeCloseTimeout 31, .sramScrub 94 0 false, .goldenRun 87, .goldenRunEnd 87 false, .selftestSchedule 87, .selftestSliceEnd 87 false, .selftestAbort 87, .latentTestOverdue 87, .unitIsolate 15, .unitReadmit 15, .readmissionStep 87 0, .unitReadmitted 87, .icuSourceEvent false 1023 false, .icuDelivery false ⟨3, false⟩, .icuEoi false 3 1023, .icuSrcMask 15 3, .icuSrcUnmask 15 3, .icuSrcSetPend 15 3, .icuSrcClrPend 15 3, .icuSwi 15 1023, .icuLockAcquire 15 15, .icuLockRelease 15 15, .stormWindowReset, .processorWake false ⟨3, false⟩, .secFwUpdate dOk, .secImageLoad dOk Image.blank, .secKeyRotate dOk, .secLifecycle dOk, .secLock dOk, .keyRead false false, .sealMeasurement 0, .presenceWindowTimeout, .presenceClose 15, .sealOverride 15, .sealRearm 15, .dbgLevelWrite 15 3, .dbgNonceRead 15, .dbgAuthGo, .por false] : List Instr).all (·.wf) = true := by decide +kernel

theorem test_well_formed_4 : ([.logicBrownout, .resetPin, .pcieFundamental, .pcieHot, .hostDeviceCmd 15, .hostUnitCmd 15, .octurCmd 15 15, .safeWatchdog, .thermalTrip, .debugCmd, .domainRelease ⟨3, 3⟩ false, .bootStageAdvance 6, .bootGo 15, .bootSourceTimeout, .startupInjection 127 [] 0, .oasClear 15, .pstateRequest 15 3, .pstateTransition, .p3Wake 2, .standbyLoss, .thermalTrim 65535, .powerTrim 0, .trimRelease 65535 0, .pubConfig dOk, .pubRemove dOk, .publicationAssemble 127, .publicationTransmit 1, .octurHello 3 15 3 3 3 false, .octurRetrain 3, .octurReplay 3 255, .rdReq pOk false, .rdResp pOk, .wrReq pOk false, .wrAck pOk, .knotAdd pOk, .knotAck pOk, .time pOk 0 0 0 0 0 0, .octurTimeSend, .resetCmd pOk, .resetAck pOk, .octurRequestTimeout 65535, .octReset dOk, .fldBank dOk, .fldEnc dOk, .fldSerial dOk, .fldDin dOk, .fieldBrownout, .fieldSupplyGood, .fieldFirmwareLoad, .fieldOvervoltage, .fieldOvervoltageRestore, .encoderSample 7 0 0 false false, .serialRecord 7 [] 0 false, .digitalInputChange 7 0 false, .triggerOverload 31, .triggerOverloadRetry 31, .safeReadback false false false false 0 0, .safeTestPulse 1 false, .linkTestStart 15 3 15, .linkTestStop 15, .linkTestInject 15, .extest, .samplePreload 0 0, .idcode, .extestPulse, .extestTrain, .dbgAccess 0, .bypass 255, .productionInstruction 255, .traceSync, .tracePcSample 3 0, .dbgMemWindowAccess 15 ⟨67108863, 8⟩ false, .ethernetLinkChange 9 ⟨false, false, false⟩, .octurAckTimeout 3, .octurPacketForward pOk, .firmwareHeartbeat, .ergOperationEnd 1 0, .postedStoreDone 4607, .patternCheckerSync 27 0 false] : List Instr).all (·.wf) = true := by decide +kernel

/-- A term that breaks one operand's range is refused, for every operand of every command that has one. -/
theorem test_ill_formed_1 : ([.registerWrite ⟨aBad, []⟩, .registerWrite ⟨aOk, [aBad]⟩, .registerReadLo aBad, .registerWriteLo aBad, .registerWriteHi aBad, .bar2WindowAccess false 4294967296 [], .functionLevelReset 14, .hifFnAssign 16 false 0, .start 16, .stop 16, .reset 16, .sringStopped 1024, .doorbellPollReturn false 1024 none, .descriptorArrival (.ring 1024) 0 none, .descriptorArrival (.thread 4608) 0 none, .nop dBad, .timeMark dBad, .flowConfig dBad, .flowRing dBad, .flowDelete dBad, .msixModerationExpiry 2048, .msixVectorUnmask 2048, .qCreate dBad, .qDestroy dBad, .qFlush dBad, .qQuery dBad, .blockedEnqueueResume 131072, .qmuBackgroundSweep 0 131072, .kInit dBad, .kSignal dBad, .kRead dBad, .kFree dBad, .knotWaitRelease 8192, .knotWaitRetry (.ring 1024 0) 0, .knotPoisoned 8192, .step 16, .reacquire 16, .timeReset 16, .setTod 16, .ptpMessageRx mBad, .ptpMessageTx mBad, .servoSample 10 0 0 0, .servoSample 0 65536 0 0, .servoSample 0 0 65 0, .servoSample 0 0 0 65, .cadConfig dBad, .cadArm dBad, .cadStop dBad, .trigConfig dBad, .actConfig dBad, .trigMon dBad, .flowCatchup dBad, .cadenceAcqStart 32, .cadenceClose 32, .cadenceDeadline 32, .epochWorkFinish 32 0, .triggerEdge 32, .actionCmdSend 64 0, .actionAckRx 64, .triggerMissed 128, .portConfig dBad, .partnerSet dBad, .partnerClear dBad, .streamConfig dBad, .streamEnable dBad, .ucodeLoad dBad, .tagMap dBad, .testInject dBad, .tagRead dBad, .streamDelete dBad, .frameReceive fBad, .parserRun ⟨8, false⟩, .gvspFrameTimeout 128, .tagWriteResume (32, 127), .tagWriteResume (31, 128), .testInjectionStart 128, .testInjectTimeout 128, .streamFrozenRecovery 128, .streamTimeRestored 128, .contestedExpiry 128, .alignEnd 32, .splStream dBad, .splInputs dBad, .splSnapshot dBad, .egoMotion 16, .xftEntry dBad, .xftRig dBad, .xftJoint dBad, .xftMount dBad, .xftEgo dBad] : List Instr).all (fun i => !i.wf) = true := by decide +kernel

theorem test_ill_formed_2 : ([.xftSetRef dBad, .xftDelete dBad, .voxelBuild 2 0, .ergVolume dBad, .ergKnn dBad, .ergFps dBad, .ergRules dBad, .ergBev dBad, .gridConfig dBad, .gridSource dBad, .gridOutput dBad, .gridArea dBad, .gridDelete dBad, .fuseStepStart 8, .engProgLoad dBad, .engProgFree dBad, .engTask dBad, .engTaskBind dBad, .engTaskUnbind dBad, .fetchArrival 4608 0, .loadReturn 4608 0, .copyDone 4608, .residueVerdict 4608 false, .queueAnswer 4608, .callCompletion 4608 0, .callCompletion 0 8, .engNop 4608 eOk, .add 4608 eOk, .sub 4608 eOk, .and 4608 eOk, .or 4608 eOk, .xor 4608 eOk, .shl 4608 eOk, .shr 4608 eOk, .sar 4608 eOk, .min 4608 eOk, .max 4608 eOk, .minu 4608 eOk, .maxu 4608 eOk, .slt 4608 eOk, .sltu 4608 eOk, .seq 4608 eOk, .mul 4608 eOk, .mulh 4608 eOk, .mulhu 4608 eOk, .div 4608 eOk, .divu 4608 eOk, .rem 4608 eOk, .remu 4608 eOk, .movi 4608 eOk, .movhi 4608 eOk, .mfs 4608 eOk, .mts 4608 eOk, .rdtime 4608 eOk, .ldt 4608 eOk, .stt 4608 eOk, .atadd 4608 eOk, .atcas 4608 eOk, .vadd 4608 eOk, .vsub 4608 eOk, .vmul 4608 eOk, .vfma 4608 eOk, .vmin 4608 eOk, .vmax 4608 eOk, .vabs 4608 eOk, .vneg 4608 eOk, .vdiv 4608 eOk, .vsqrt 4608 eOk, .vrcp 4608 eOk, .vrsqrt 4608 eOk, .vexp2 4608 eOk, .vlog2 4608 eOk, .vand 4608 eOk, .vor 4608 eOk, .vxor 4608 eOk, .vshl 4608 eOk, .vshr 4608 eOk, .vsar 4608 eOk, .vcmp 4608 eOk, .vsel 4608 eOk, .vperm 4608 eOk, .vbcast 4608 eOk, .vext 4608 eOk, .vins 4608 eOk, .vredadd 4608 eOk, .vredmax 4608 eOk, .vcvtn 4608 eOk, .vcvtw 4608 eOk, .vcvt 4608 eOk, .vldt 4608 eOk] : List Instr).all (fun i => !i.wf) = true := by decide +kernel

theorem test_ill_formed_3 : ([.vstt 4608 eOk, .vgath 4608 eOk, .vscat 4608 eOk, .mma 4608 eOk, .ldg 4608 eOk, .stg 4608 eOk, .ldgv 4608 eOk, .stgv 4608 eOk, .ldc 4608 eOk, .stc 4608 eOk, .ldcv 4608 eOk, .stcv 4608 eOk, .copy 4608 eOk, .waitc 4608 eOk, .sigk 4608 eOk, .waitk 4608 eOk, .rdk 4608 eOk, .qpush 4608 eOk, .qpop 4608 eOk, .call 4608 eOk, .fence 4608 eOk, .beq 4608 eOk, .bne 4608 eOk, .blt 4608 eOk, .bge 4608 eOk, .bltu 4608 eOk, .bgeu 4608 eOk, .jmp 4608 eOk, .jal 4608 eOk, .jr 4608 eOk, .trapf 4608 eOk, .endThread 4608 eOk, .lytCopy dBad, .lytGather dBad, .lytScatter dBad, .lytFill dBad, .layoutOperationEnd 4 0 0, .seqPool dBad, .seqCreate dBad, .seqDestroy dBad, .seqAppend dBad, .seqAttend dBad, .seqBias dBad, .seqTrim dBad, .seqInfo dBad, .seqAttendEnd 6 0 0, .seqStallAppendResume 16, .seqStallTimeout 16384, .slvSolve dBad, .solveOutcome 6 0 0, .solveDeadline 6 0, .mmuMap dBad, .mmuUnmap dBad, .mmuQuery dBad, .mmuFwSet dBad, .memPatrolScrub 8 0, .dramMr4Read 8 0 false, .errorReportRaise 4 0 0 0 0 false [] 0 0 0 none, .errorReportRaise 0 18 0 0 0 false [] 0 0 0 none, .errorReportRaise 0 0 65536 0 0 false [] 0 0 0 none, .errorReportRaise 0 0 0 65536 0 false [] 0 0 0 none, .errorReportRaise 0 0 0 0 256 false [] 0 0 0 none, .errorReportRaise 0 0 0 0 0 false [] 16 0 0 none, .verdictFormed 32 0 0, .verdictFormed 0 0 4096, .latchClear 16, .safeAck 16 0, .safeAck 0 4, .watchdogWindowClose 32 0 0, .watchdogWindowClose 0 0 7, .stageEndEvent 32 0 0, .stageEndEvent 0 0 7, .intakeCloseTimeout 32, .sramScrub 95 0 false, .goldenRun 88, .goldenRunEnd 88 false, .selftestSchedule 88, .selftestSliceEnd 88 false, .selftestAbort 88, .latentTestOverdue 88, .unitIsolate 16, .unitReadmit 16, .readmissionStep 88 0, .unitReadmitted 88, .icuSourceEvent false 1024 false, .icuDelivery false ⟨4, false⟩, .icuEoi false 4 0, .icuEoi false 0 1024, .icuSrcMask 16 0, .icuSrcMask 0 4] : List Instr).all (fun i => !i.wf) = true := by decide +kernel

theorem test_ill_formed_4 : ([.icuSrcUnmask 16 0, .icuSrcUnmask 0 4, .icuSrcSetPend 16 0, .icuSrcSetPend 0 4, .icuSrcClrPend 16 0, .icuSrcClrPend 0 4, .icuSwi 16 0, .icuSwi 0 1024, .icuLockAcquire 16 0, .icuLockAcquire 0 16, .icuLockRelease 16 0, .icuLockRelease 0 16, .processorWake false ⟨4, false⟩, .secFwUpdate dBad, .secImageLoad dBad Image.blank, .secKeyRotate dBad, .secLifecycle dBad, .secLock dBad, .presenceClose 16, .sealOverride 16, .sealRearm 16, .dbgLevelWrite 16 0, .dbgLevelWrite 0 4, .dbgNonceRead 16, .hostDeviceCmd 16, .hostUnitCmd 16, .octurCmd 16 0, .octurCmd 0 16, .domainRelease ⟨4, 3⟩ false, .domainRelease ⟨3, 4⟩ false, .bootStageAdvance 7, .bootGo 16, .startupInjection 128 [] 0, .oasClear 16, .pstateRequest 16 0, .pstateRequest 0 4, .p3Wake 3, .thermalTrim 65536, .trimRelease 65536 0, .pubConfig dBad, .pubRemove dBad, .publicationAssemble 128, .publicationTransmit 2, .octurHello 4 0 0 0 0 false, .octurHello 0 16 0 0 0 false, .octurHello 0 0 4 0 0 false, .octurHello 0 0 0 4 0 false, .octurHello 0 0 0 0 4 false, .octurRetrain 4, .octurReplay 4 0, .octurReplay 0 256, .rdReq pBad false, .rdResp pBad, .wrReq pBad false, .wrAck pBad, .knotAdd pBad, .knotAck pBad, .time pBad 0 0 0 0 0 0, .resetCmd pBad, .resetAck pBad, .octurRequestTimeout 65536, .octReset dBad, .fldBank dBad, .fldEnc dBad, .fldSerial dBad, .fldDin dBad, .encoderSample 8 0 0 false false, .serialRecord 8 [] 0 false, .digitalInputChange 8 0 false, .triggerOverload 32, .triggerOverloadRetry 32, .safeTestPulse 2 false, .linkTestStart 16 0 0, .linkTestStart 0 4 0, .linkTestStart 0 0 16, .linkTestStop 16, .linkTestInject 16, .bypass 256, .productionInstruction 256, .tracePcSample 4 0, .dbgMemWindowAccess 16 ⟨67108863, 8⟩ false, .dbgMemWindowAccess 0 ⟨67108864, 8⟩ false, .dbgMemWindowAccess 0 ⟨0, 0⟩ false, .dbgMemWindowAccess 0 ⟨0, 9⟩ false, .ethernetLinkChange 10 ⟨false, false, false⟩, .octurAckTimeout 4, .octurPacketForward pBad, .ergOperationEnd 2 0, .postedStoreDone 4608, .patternCheckerSync 28 0 false] : List Instr).all (fun i => !i.wf) = true := by decide +kernel

/-- The records that commands carry: each field out of its range is refused. -/
theorem test_ill_formed_records :
    ([⟨.ring 1024 0, 1, 0⟩, ⟨.call 4608 0, 1, 0⟩, ⟨.call 0 8, 1, 0⟩, ⟨.internal, 16, 0⟩] : List Desc).all (fun d => !d.wf) = true ∧
    ([⟨16, 0, 0, 4, 0⟩, ⟨0, 4, 0, 4, 0⟩, ⟨0, 0, 2 ^ 26 + 65536, 4, 0⟩, ⟨0, 0, 0, 0, 0⟩, ⟨0, 0, 0, 9, 0⟩] : List BarAccess).all (fun a => !a.wf) = true ∧
    ([{ mOk with port := 10 }, { mOk with type := 16 }, { mOk with seq := 65536 }, { mOk with domain := 256 }, { mOk with sub := 131072 }, { mOk with transport := 3 }] : List PtpMsg).all (fun m => !m.wf) = true ∧
    ([{ fOk with port := 10 }, { fOk with dstMac := 2 ^ 48 }, { fOk with srcMac := 2 ^ 48 }, { fOk with udpDst := 65536 }, { fOk with sub := 131072 }] : List Frame).all (fun f => !f.wf) = true ∧
    ([⟨4, 0, [], true⟩, ⟨3, 0, List.replicate 257 0, true⟩] : List OctPacket).all (fun p => !p.wf) = true := by decide +kernel

/-! ### The hypotheses of every statement can be met -/

/-- A record that the states below start from. -/
def seqRec0 : Seq := { active := true, ownerDid := 1, pool := 3, policy := 0, failed := false, layers := 1, heads := 1, width := 32, guarded := false, format := 2, flow := 4095, reservedPages := 4, held := [0, 2], stallUs := 1000, base := 0x200000, first := 0, pending := none, count := 5, firstPage := 0, slides := 0, appended := [], exhausted := 0, discarded := 0, waiting := [] }

/-- A record that the states below start from. -/
def publicationRec0 : Publication := { enable := true, port := 1, pcp := 0, flow := 4095, ip6 := false, lead := 15, dstMac := 9, udpDst := 5, fields := [(0, 0, 0, 0)], dstIp := 0, writerGroup := 7, writer := 8, guarded := false, utcOffset := 0, base := 4096, slotSize := 64, image := false, slots := 2, did := 1, frameBytes := 100 }

/-- A record that the states below start from. -/
def flowResultRec0 : FlowResult := { old := none, flow := 4095, epoch := 5, tov := 77, age := 3, regions := [], status := 0, flags := 0, at_ := 9, source := 5 }

def w0 : State := { upm with cfg.streams := [(127, { sc kindCamera 31 with source := 3, width := 2, height := 2, format := 1 })], ing.partners := [(3, par 1)], ing.streams := [(127, { Stream.reset with enabled := true })], ing.injections := [(127, { desc := mk 1 0x0806 [], pattern := 0, seed := 0, packet := [], expected := 0, deadline := 100 })] }
def w1 : State := { upm with cfg.streams := [(127, { sc kindCamera 31 with source := 3, width := 2, height := 2, format := 1 })], ing.partners := [(3, par 1)], ing.streams := [(127, { Stream.reset with enabled := true, frozen := true, passRun := 8 })], ing.injections := [(127, { desc := mk 1 0x0806 [], pattern := 0, seed := 0, packet := [], expected := 0, deadline := 100 })] }
def w2 : State := { up with cfg.streams := [(127, { sc kindCamera 31 with source := 3, width := 2, height := 2, format := 1 })], ing.partners := [(3, par 1)], ing.streams := [(127, { Stream.reset with enabled := true })], ing.injections := [(127, { desc := mk 1 0x0806 [], pattern := 0, seed := 0, packet := [], expected := 0, deadline := 100 })] }
def w3 : State := { upm with cfg.streams := [(127, { sc kindCamera 31 with source := 3, width := 2, height := 2, format := 1 })], ing.partners := [(3, par 1)], ing.streams := [(127, { Stream.reset with enabled := true, starting := some (mk 1 0x0804 [(16, 127), (17, 1)]) })] }
def w4 : State := { up with cfg.streams := [(127, { sc kindCamera 31 with source := 3, width := 2, height := 2, format := 1 })], ing.partners := [(3, par 1)], ing.streams := [(127, { Stream.reset with enabled := true, starting := some (mk 1 0x0804 [(16, 127), (17, 1)]) })] }
def w5 : State := { up with mmu.ctx := [(1, { ctx0 with runs := [⟨0, 1, 0, true, true, false, false, 0, 0⟩] })], mem := Memory.writes [] (Space.key .dram 65408) (progHdr crc0) }
def w6 : State := { upm with mem := Memory.writes [] (Space.key .dram 0) (progHdr (crc0 + 1)) }
def w7 : State := { upm with mem := Memory.writes [] (Space.key .dram 0) (progHdr (crc0)) }
def w8 : State := { upm with mem := Memory.writes [] (Space.key .dram 0) (progHdr (crc0)), eng.programs := [(1023, prog0)] }
def w9 : State := { upm with eng.threads := [(4607, { Thread.reset with st := .wait .mem, inst := some 0, waiting := .load ({ place := .device, addr := 64, size := 8, vector := false, signExt := false, d := 3 }) })], eng.instances := [(0, { inst0 with threads := [63], windowBytes := 131072 })], eng.runs := [(0, run0)], eng.programs := [(5, prog0)] }
def w10 : State := { upm with eng.threads := [(4607, { Thread.reset with st := .wait .mem, inst := some 0, waiting := .load ({ place := .device, addr := 64, size := 8, vector := true, signExt := false, d := 3 }) })], eng.instances := [(0, { inst0 with threads := [63], windowBytes := 131072 })], eng.runs := [(0, run0)], eng.programs := [(5, prog0)] }
def w11 : State := { up with eng.threads := [(4607, { Thread.reset with st := .wait .mem, inst := some 0, waiting := .load ({ place := .device, addr := 64, size := 8, vector := true, signExt := false, d := 3 }) })], eng.instances := [(0, { inst0 with threads := [63], windowBytes := 131072 })], eng.runs := [(0, run0)], eng.programs := [(5, prog0)] }
def w12 : State := { upt [(1, 131071), (4, 256), (6, 64)] [(2, 0x0102030405)] with qmu.queues := [(131071, { Queue.reset with active := true, owner := 1, entriesLog2 := 3, widthLog2 := 5, base := 0x20000 })] }
def w13 : State := { upt [(1, 131071), (4, 256), (6, 64)] [(2, 0x0102030405)] with qmu.queues := [(131071, { Queue.reset with active := true, owner := 1, entriesLog2 := 3, widthLog2 := 5, base := 0x20000, tail := 1, tailInv := 0xFFFFFFFE })] }
def w14 : State := { up with safe.units := [] }
def w15 : State := { upm with lyt.engines := [(0, { LytEngine.reset with job := some (({ desc := mk 1 0x0E03 [(16, 4096), (51, 4), (52, 7)], on_ := none, start := 0, first := 0, count := 0, pend := none } : Job)) }), (1, { LytEngine.reset with job := some (({ desc := mk 1 0x0E03 [(16, 4096), (51, 4), (52, 7)], on_ := none, start := 0, first := 0, count := 0, pend := none } : Job)) }), (2, { LytEngine.reset with job := some (({ desc := mk 1 0x0E03 [(16, 4096), (51, 4), (52, 7)], on_ := none, start := 0, first := 0, count := 0, pend := none } : Job)) }), (3, { LytEngine.reset with job := some (({ desc := mk 1 0x0E03 [(16, 4096), (51, 4), (52, 7)], on_ := none, start := 0, first := 0, count := 0, pend := none } : Job)) })] }
def w16 : State := { upm with eng.threads := [(4607, { Thread.reset with st := .ready, inst := some 0, calls := [{ slot := 7, recOff := 64, raw := (mk 1 0x0C03 [(16, 16383), (24, 77)]).raw, arrived := true, wait := .free, satisfied := true, done := none }] })], eng.instances := [(0, { inst0 with threads := [63], windowBytes := 131072 })], eng.runs := [(0, { run0 with bound := some 4095, epoch := 5 })], eng.programs := [(5, prog0)], seq.seqs := [(16383, seqRec0)] }
def w17 : State := { upm with eng.threads := [(4607, { Thread.reset with st := .ready, inst := some 0, calls := [{ slot := 7, recOff := 64, raw := (mk 1 0x0C03 [(16, 16383), (24, 77)]).raw, arrived := true, wait := .free, satisfied := true, done := none }] })], eng.instances := [(0, { inst0 with threads := [63], windowBytes := 131072 })], eng.runs := [(0, { run0 with bound := some 4095, epoch := 5 })], eng.programs := [(5, prog0)], seq.seqs := [(16383, ({ active := true, failed := false, guarded := false, ownerDid := 1, pool := 3, policy := 0, layers := 1, heads := 1, width := 32, format := 2, flow := 4095, reservedPages := 4, stallUs := 1000, base := 0x200000, first := 0, count := 5, firstPage := 0, held := [0, 2], pending := none, appended := [], waiting := [({ desc := ⟨.call 4607 7, 1, (mk 1 0x0C03 [(16, 16383), (24, 77)]).raw⟩, time := 77, invalid := false, epoch := 5, since := none } : AppendWait)], slides := 0, exhausted := 0, discarded := 0 } : Seq))] }
def w18 : State := { upm with sec.open_ := true }
def w19 : State := { upm with sec.open_ := true, sec.lifecycle := 1 }
def w20 : State := { upm with sec.open_ := true, sec.lifecycle := 1, mem := [(4096, 1), (4097, 1)] }
def w21 : State := { upm with cfg.flows := [(4095, { guarded := false, cadence := 0, enable := true, grid := none, cring := none })], mem := [(4104, 64), (4108, 2)] }
def w22 : State := { upm with cfg := { up.cfg with flows := [(4095, { guarded := false, cadence := 0, enable := true, grid := none, cring := none })], pubs := [(127, publicationRec0)] }, results := [(4095, { FlowHist.reset with latest := some flowResultRec0 })], eth.plant := [(1, { PlantPort.reset with txEn := true })] }
def w23 : State := { State.reset with tb.clk10m := none }
def w24 : State := { up with readHi := up.readHi.put (pairKey 1 0x070018) 7 }
def w25 : State := { up with hif.sub := [(0, { Ring.reset with st := .running })], hif.ringSel := [(1, (false, 0))] }
def w26 : State := { up with hif.ringSel := [(1, (false, 0))] }
def w27 : State := { up with writeLo := up.writeLo.put (pairKey 1 0x070018) 7 }
def w28 : State := { up with dbg.level := 2 }
def w29 : State := { up with hif.com := [(0, { Ring.reset with st := .running })] }
def w30 : State := { up with hif.sub := [(0, { Ring.reset with st := .running })] }
def w31 : State := { up with hif.com := [(0, { Ring.reset with st := .running })], hif.ringSel := [(2, (true, 0))] }
def w32 : State := { up with hif.com := [(0, { Ring.reset with st := .running })], hif.sub := [(0, { Ring.reset with st := .running })], hif.ringSel := [(2, (true, 0))] }
def w33 : State := { up with hif.sub := [(0, { Ring.reset with st := .running, stopping := true })] }
def w34 : State := { up with hif.sub := [(0, { Ring.reset with st := .running, stopping := true })], hif.flights := [⟨0, 0, true, 0, false, .free, false, true⟩] }
def w35 : State := { up with hif.sub := [(0, { Ring.reset with st := .running, nextDue := some 0 })], hif.busMaster := [(0, true)] }
def w36 : State := { up with hif.sub := [(0, { Ring.reset with st := .running, nextDue := some 0 })], hif.busMaster := [(0, false)] }
def w37 : State := { up with hif.sub := [(0, { Ring.reset with st := .running, pollIssued := some 0 })] }
def w38 : State := { up with hif.sub := [(0, { Ring.reset with st := .running })], hif.com := [(0, { Ring.reset with st := .running })], hif.flights := [⟨0, 0, false, 0, false, .free, false, false⟩] }
def w39 : State := { upm with eng.threads := [(4607, { Thread.reset with st := .ready, inst := some 0, calls := [{ slot := 7, recOff := 64, raw := BitVec.ofNat 512 0x0400, arrived := false, wait := .free, satisfied := false, done := none }] })], eng.instances := [(0, { inst0 with threads := [63], windowBytes := 131072 })], eng.runs := [(0, run0)], eng.programs := [(5, prog0)] }
def w40 : State := { upm with eng.threads := [(4607, { Thread.reset with st := .ready, inst := some 0, calls := [{ slot := 7, recOff := 64, raw := BitVec.ofNat 512 (0x0600 + 1 * 2 ^ 184), arrived := false, wait := .free, satisfied := false, done := none }] })], eng.instances := [(0, { inst0 with threads := [63], windowBytes := 131072 })], eng.runs := [(0, run0)], eng.programs := [(5, prog0)] }
def w41 : State := { upm with eng.threads := [(4607, { Thread.reset with st := .ready, inst := some 0, calls := [{ slot := 7, recOff := 64, raw := BitVec.ofNat 512 (0x0602 + 1024 * 2 ^ 128), arrived := false, wait := .free, satisfied := false, done := none }] })], eng.instances := [(0, { inst0 with threads := [63], windowBytes := 131072 })], eng.runs := [(0, run0)], eng.programs := [(5, prog0)] }
def w42 : State := { up with hif.fnSel := [(1, 13)] }
def w43 : State := { up with hif.fnSel := [(1, 13)], hif.sRings := [(0, (0, 512))] }
def w44 : State := { up with hif.fnSel := [(1, 13)], hif.cRings := [(0, (0, 512))] }
def w45 : State := { up with hif.msix := [(0, { Msix.reset with held := true })] }
def w46 : State := { up with hif.msix := [(2047, { Msix.reset with held := true, masked := false })], hif.msixEn := [(13, true)] }
def w47 : State := { up with hif.msix := [(2047, { Msix.reset with pba := true })] }
def w48 : State := { up with cfg.grids := [(7, { grid0 with cadence := 0 })] }
def w49 : State := { up with cfg.flows := [(4095, { guarded := false, cadence := 0, enable := true, grid := none, cring := none })] }
def w50 : State := { up with cfg.flows := [(4095, { guarded := false, cadence := 0, enable := true, grid := none, cring := none })], hif.sub := [(0, { Ring.reset with st := .running })], hif.com := [(0, { Ring.reset with st := .running })], hif.flights := [⟨0, 0, true, (mk 2 0x0403 [(16, 4095), (18, 1), (20, 1023)]).raw, false, .free, false, false⟩] }
def w51 : State := { up with cfg.flows := [(4095, { guarded := false, cadence := 0, enable := true, grid := none, cring := none })], hif.cRings := [(0, (0, 2))] }
def w52 : State := { up with cfg.flows := [(4095, { guarded := false, cadence := 0, enable := true, grid := none, cring := none })], cfg.inputs := [(1, [⟨true, false, 4095⟩])] }
def w53 : State := { up with sec.open_ := true }
def w54 : State := { up with trig.cads := [(0, { Cadence.reset with st := .armed })] }
def w55 : State := { up with knots.knots := [(1024, { Knot.reset with st := .active, owner := 1, value := 5 })] }
def w56 : State := { up with knots.knots := [(1024, { Knot.reset with st := .poisoned })] }
def w57 : State := { up with knots.knots := [(1024, { Knot.reset with st := .active, owner := 1, value := 5 })], eng.waits := [(0, ⟨1024, 9, false⟩)] }
def w58 : State := { up with hif.flights := [⟨0, 0, true, 0, false, .tableFull, false, false⟩] }
def w59 : State := { up with qmu.queues := [(131071, { Queue.reset with active := true, owner := 1 })] }
def w60 : State := { up with qmu.queues := [(131071, { Queue.reset with active := true, owner := 1, tail := 1, tailInv := 0xFFFFFFFE })] }
def w61 : State := { up with qmu.queues := [(0, { Queue.reset with active := true, owner := 1, blocked := [⟨0, 1, []⟩] })], mmu.ctx := [(1, { Context.reset with enable := true, runs := [⟨0, 1, 0, true, true, false, false, 0, 0⟩] })] }
def w62 : State := { up with safe.intakeUp := false, qmu.queues := [(131071, { Queue.reset with active := true, tail := 1 })] }
def w63 : State := { up with tb.servoEn := true, tb.servo := .track, tb.onBackup := false, tb.srcPrimary := 2, tb.reacquire := false, tb.ppsSel := false, tb.setTod := none, tb.lastTheta := none }
def w64 : State := { up with tb.servoEn := true, tb.servo := .track, tb.onBackup := false, tb.srcPrimary := 2, tb.reacquire := false, tb.ppsSel := false, tb.setTod := none, tb.outlier := 10, tb.lastTheta := some 0 }
def w65 : State := { up with tb.ports := [(9, { PtpPort.reset 9 with enable := true, sync := some (3, 100), delay := some (200, 0) })], tb.ingress := [{ port := 9, seq := 3, type := 0, gen := 0, time := 400 }], tb.srcPrimary := 1 }
def w66 : State := { up with tb.servo := .locked }
def w67 : State := { up with power.clkActive := 2 }
def w68 : State := { up with power.clkActive := 0 }
def w69 : State := { up with tb.ports := [(9, { PtpPort.reset 9 with enable := true })] }
def w70 : State := { up with tb.ports := [(0, { PtpPort.reset 0 with enable := true, role := 2 })] }
def w71 : State := { up with tb.ports := [(0, { PtpPort.reset 0 with enable := true })] }
def w72 : State := { up with tb.setTod := some 77, tb.ppsSel := false, tb.inDelay := 0 }
def w73 : State := { up with tb.ppsSel := false }
def w74 : State := { up with tb.outForce := true, tb.outEn := true, tb.fldOutEn := false, tb.outDelay := 8 }
def w75 : State := { up with tb.servo := .freerun }
def w76 : State := { up with fldT.valid := true, fldT.aFld := 0 }
def w77 : State := { up with fldT.valid := false, fldT.aFld := 0 }
def w78 : State := { up with fldT.aFld := 0 }
def w79 : State := { up with safe.intakeUp := false, fldT.aFld := 0 }
def w80 : State := { up with fldT.aFld := 0, fld.powered := true }
def w81 : State := { up with fld.powered := true }
def w82 : State := { up with fld.powered := true, fld.overvoltage := false }
def w83 : State := { up with fld.powered := true, fld.fwRunning := false, fld.brownoutFlag := false }
def w84 : State := { up with fld.powered := false }
def w85 : State := { up with trig.outs := [(31, { TrigOut.reset with enable := true, cadence := 31, width := 100 })], trig.cads := [(31, { Cadence.reset with st := .running, period := 10000000, phase := 1000 })] }
def w86 : State := { up with trig.cads := [(31, { Cadence.reset with st := .running, period := 10000000, phase := 1000 })] }
def w87 : State := { up with fld.fwRunning := false }
def w88 : State := { up with fldT.valid := true, fldT.linkUp := true, fld.powered := true, trig.cads := [(31, { Cadence.reset with st := .running, period := 10000000, phase := 1000 })], fld.enc := [(7, { EncSt.reset with last := some (0, 998) })], fld.live.enc := [(7, { htl := true, enable := true, cadence := 31, k := 1000, filter := 100 })] }
def w89 : State := { up with fldT.valid := true, fldT.linkUp := true, fld.powered := true, fld.live.ser := [(7, { mode := 1, parity := 0, framing := 1, gap := 2, syncCount := 2, sync := 0x1234, length := 2, rate := 9600 })] }
def w90 : State := { up with fldT.valid := true, fldT.linkUp := true, fld.powered := true, fld.live.ser := [(7, { mode := 1, parity := 0, framing := 1, gap := 2, syncCount := 2, sync := 0x1234, length := 1024, rate := 9600 })] }
def w91 : State := { up with fldT.valid := true, fldT.linkUp := true, fld.powered := true, fld.live.din := [(7, { edges := 3, enable := true, filter := 9 })] }
def w92 : State := { up with fldT.valid := true, fld.powered := true, fld.overvoltage := false, fld.banks := [(3, 1)], trig.cads := [(31, { Cadence.reset with st := .running, period := 10000000, phase := 1000 })], trig.outs := [(31, { { TrigOut.reset with enable := true, cadence := 31, width := 100 } with activeUntil := some 77 })] }
def w93 : State := { up with fldT.valid := true, fld.powered := true, fld.overvoltage := false, fld.banks := [(3, 1)], trig.cads := [(31, { Cadence.reset with st := .running, period := 10000000, phase := 1000 })], trig.outs := [(31, { TrigOut.reset with enable := true, cadence := 31, width := 100 })] }
def w94 : State := { up with safe.intakeUp := false, fldT.valid := true, fld.powered := true, fld.overvoltage := false, fld.banks := [(3, 1)], trig.cads := [(31, { Cadence.reset with st := .running, period := 10000000, phase := 1000 })], trig.outs := [(31, { TrigOut.reset with enable := true, cadence := 31, width := 100 })] }
def w95 : State := { up with fldT.valid := true, fld.powered := true, fld.overvoltage := false, fld.banks := [(3, 1)], trig.cads := [(31, { Cadence.reset with st := .running, period := 10000000, phase := 1000 })], trig.outs := [(31, { TrigOut.reset with enable := true, cadence := 31, width := 100 })], fld.overload := [(31, 9)] }
def w96 : State := { up with trig.cads := [(31, { Cadence.reset with st := .running, period := 10000000, phase := 1000 })], trig.actions := [(63, { Action.reset with enable := true, cadence := 31, offset := 4000000 })], ing.ports := [(0, { IngPort.reset with linkUp := true })] }
def w97 : State := { up with trig.cads := [(31, { Cadence.reset with st := .running, period := 10000000, phase := 1000 })], trig.actions := [(63, { Action.reset with enable := true, cadence := 31, offset := 4000000 })] }
def w98 : State := { up with trig.cads := [(31, { Cadence.reset with st := .running, period := 10000000, phase := 1000 })], trig.actions := [(63, { { Action.reset with enable := true, cadence := 31, offset := 4000000 } with held := some 4001000 })], ing.ports := [(0, { IngPort.reset with linkUp := true })] }
def w99 : State := { up with trig.cads := [(31, { Cadence.reset with st := .running, period := 10000000, phase := 1000 })], trig.actions := [(63, { { Action.reset with enable := true, cadence := 31, offset := 4000000 } with held := some 4001000 })] }
def w100 : State := { up with trig.mons := [(127, { monX with instants := [⟨5, true, true⟩] })] }
def w101 : State := { up with trig.mons := [(127, { monX with instants := [⟨5, false, true⟩] })] }
def w102 : State := { up with trig.mons := [(127, { monX with instants := [⟨5, true, true⟩, ⟨6, false, true⟩] })] }
def w103 : State := { up with fld.powered := true, fld.overvoltage := false, safe.req0 := true }
def w104 : State := { up with fld.powered := true, fld.heartbeat := some 5 }
def w105 : State := { up with fld.powered := true, fld.sw0 := { Switch.reset with on_ := true, bad := 1 } }
def w106 : State := { up with fld.powered := true, fld.sw0 := { Switch.reset with on_ := true } }
def w107 : State := { up with trig.cads := [(31, { Cadence.reset with period := 10000000, phase := 1000, acqWindow := 2000, tovOffset := 2000, closeMargin := 2000, budget := 100 })] }
def w108 : State := { up with trig.cads := [(31, { { Cadence.reset with period := 10000000, phase := 1000, acqWindow := 2000, tovOffset := 2000, closeMargin := 2000, budget := 100 } with st := .armed })] }
def w109 : State := { up with trig.cads := [(31, { { Cadence.reset with period := 10000000, phase := 1000, acqWindow := 2000, tovOffset := 2000, closeMargin := 2000, budget := 100 } with st := .running })] }
def w110 : State := { up with cfg.flows := [(4095, { guarded := false, cadence := 31, enable := true, grid := none, cring := none })] }
def w111 : State := { up with cfg.flows := [(4095, { guarded := true, cadence := 31, enable := true, grid := none, cring := none })] }
def w112 : State := { up with trig.cads := [(31, { Cadence.reset with period := 10000000, phase := 1000, acqWindow := 2000, tovOffset := 2000, closeMargin := 2000, budget := 100 })], fldT.valid := true, fld.powered := true, fld.overvoltage := false, fld.banks := [(3, 1)] }
def w113 : State := { up with cfg.streams := [(127, sc kindCamera 31)] }
def w114 : State := { up with cfg.streams := [(127, sc kindImu 31)] }
def w115 : State := { up with trig.cads := [(31, { { Cadence.reset with period := 10000000, phase := 1000, acqWindow := 2000, tovOffset := 2000, closeMargin := 2000, budget := 100 } with st := .running, nextStart := 6, nextClose := 5, nextDeadline := 4 })] }
def w116 : State := { up with trig.cads := [(31, { { Cadence.reset with period := 10000000, phase := 1000, acqWindow := 2000, tovOffset := 2000, closeMargin := 2000, budget := 100 } with st := .running, nextStart := 6, nextClose := 5, nextDeadline := 4 })], power.inReset := [2] }
def w117 : State := { up with trig.cads := [(31, { { Cadence.reset with period := 10000000, phase := 1000, acqWindow := 2000, tovOffset := 2000, closeMargin := 2000, budget := 100 } with st := .running, nextStart := 6, nextClose := 5, nextDeadline := 4 })], epochs := [{ ep 31 3 with alignEnd := none }] }
def w118 : State := { up with trig.cads := [(31, { { Cadence.reset with period := 10000000, phase := 1000, acqWindow := 2000, tovOffset := 2000, closeMargin := 2000, budget := 100 } with st := .running, nextStart := 6, nextClose := 5, nextDeadline := 4 })], epochs := [{ ep 31 5 with geoEnd := some 0 }] }
def w119 : State := { up with ing.ports := [(9, { IngPort.reset with speed := 1 })] }
def w120 : State := { up with cfg.streams := [(1, { sc 0 0 with source := 7 })] }
def w121 : State := { up with ing.partners := [(7, par 0)] }
def w122 : State := { up with cfg.streams := [(127, { sc kindTag 3 with tags := [{ firstField := 0, firstTag := 0, count := 2, type := 1, utcOffset := 0 }] })] }
def w123 : State := { up with cfg.streams := [(127, sc kindImu 31)], ing.partners := [(7, par 2)], sec.image := some { Image.blank with inputs := [(1, [⟨false, true, 127⟩])] } }
def w124 : State := { up with cfg.streams := [(127, sc kindCamera 31)], ing.streams := [(127, { Stream.reset with enabled := true })] }
def w125 : State := { up with cfg.streams := [(127, sc kindImu 31)], ing.streams := [(127, Stream.reset)], trig.cads := [(31, { Cadence.reset with st := .running, period := 10000000, phase := 1000 })] }
def w126 : State := { up with cfg.streams := [(127, sc kindImu 31)], ing.streams := [(127, Stream.reset)] }
def w127 : State := { up with cfg.streams := [(127, sc kindCamera 31)], ing.streams := [(127, Stream.reset)] }
def w128 : State := { up with cfg.streams := [(127, sc kindImu 31)], ing.streams := [(127, { Stream.reset with enabled := true })], trig.cads := [(31, { Cadence.reset with st := .running, period := 10000000, phase := 1000 })] }
def w129 : State := { up with cfg.streams := [(127, sc kindImu 31)], ing.streams := [(127, { Stream.reset with enabled := true })] }
def w130 : State := { up with cfg.streams := [(127, sc kindImu 31)], sec.image := some { Image.blank with inputs := [(1, [⟨false, true, 127⟩])] } }
def w131 : State := { upm with cfg.streams := [(127, sc kindCamera 31)], ing.streams := [(127, Stream.reset)] }
def w132 : State := { up with ing.ports := [(7, { IngPort.reset with speed := 1, linkUp := true })] }
def w133 : State := { up with ing.ports := [(7, { IngPort.reset with speed := 1, linkUp := true, ipv4En := true, ipv6En := true })] }
def w134 : State := { up with ing.ports := [(8, { IngPort.reset with speed := 1, linkUp := true })] }
def w135 : State := { up with ing.ports := [(8, { IngPort.reset with speed := 1, linkUp := true })], ing.partners := [(3, { par 3 with port := 8 })] }
def w136 : State := { up with ing.ports := [(7, { IngPort.reset with speed := 1, linkUp := true })], ing.partners := [(3, par 2)], ing.waiting := [{ rx (.raw []) with bytes := 524225 }] }
def w137 : State := { up with ing.ports := [(7, { IngPort.reset with speed := 1, linkUp := true })], ing.partners := [(3, par 2)] }
def w138 : State := { up with ing.ports := [(9, { IngPort.reset with speed := 1, linkUp := true })] }
def w139 : State := { up with ing.waiting := [rx .discovery] }
def w140 : State := { up with ing.waiting := [{ rx .discovery with partner := some (par 3) }] }
def w141 : State := { up with ing.waiting := [{ rx (.raw [1, 2]) with partner := some ({ par 2 with program := 5 }) }], ing.programs := [(5, [0xE000000000000000])] }
def w142 : State := { up with ing.waiting := [{ rx (.raw [1, 2]) with partner := some ({ par 2 with program := 5 }) }], ing.programs := [(5, [0x5000000000000000])] }
def w143 : State := { up with ing.waiting := [{ rx (.raw [1, 2]) with partner := some ({ par 2 with program := 5 }) }], ing.programs := [(5, [0x0400006400000000])] }
def w144 : State := { up with ing.waiting := [{ rx (.raw [1, 2]) with partner := some ({ par 2 with program := 5 }) }], ing.programs := [(5, [0xE400000000000107])] }
def w145 : State := { up with ing.waiting := [{ rx (.raw [1, 2]) with partner := some ({ par 2 with program := 5 }) }], ing.programs := [(5, [0xE000000000000000])], cfg.streams := [(127, { sc kindScan 31 with slotLog2 := 8, source := 3 })], ing.streams := [(127, Stream.reset)] }
def w146 : State := { up with ing.waiting := [{ rx (.raw [1, 2]) with partner := some ({ par 2 with program := 5 }) }], ing.programs := [(5, [0x0C00000000000005, 0xA800000000000000, 0xC400000000000008, 0xC400000000000008, 0xC400000000000008, 0xC400000000000008, 0xC400000000000008, 0xC400000000000008, 0xC400000000000008, 0x0C00000000000000, 0xA800000000000000, 0xE000000000000000])], cfg.streams := [(127, { sc kindScan 31 with slotLog2 := 8, source := 3 })], ing.streams := [(127, { Stream.reset with enabled := true })] }
def w147 : State := { up with ing.waiting := [{ rx (.raw [1, 2]) with partner := some ({ par 2 with program := 5 }) }], ing.programs := [(5, [0xE000000000000000])], cfg.streams := [(127, { sc kindScan 31 with slotLog2 := 8, source := 3 })], ing.streams := [(127, { Stream.reset with enabled := true })] }
def w148 : State := { up with ing.cams := [{ stream := 127, block := 1, total := 64, firstSize := 0, pieces := [], time := 0, frac := 0, sensor := false, ingress := 0, gen := 0, lastAt := 0, gvsp := true, dropped := false }] }
def w149 : State := { up with ing.cams := [{ stream := 127, block := 1, total := 64, firstSize := 0, pieces := [], time := 0, frac := 0, sensor := false, ingress := 0, gen := 0, lastAt := 0, gvsp := true, dropped := false }], cfg.streams := [(127, sc kindCamera 31)], ing.streams := [(127, { Stream.reset with enabled := true })] }
def w150 : State := { up with ing.deferring := [(31, 4)] }
def w151 : State := { up with fld.buffer := [{ kind := 1, channel := 7, time := 5, gen := 0, holdover := false, payload := [1], count := 0 }] }
def w152 : State := { up with fld.buffer := [{ kind := 2, channel := 7, time := 5, gen := 0, holdover := false, payload := [1], count := 0 }] }
def w153 : State := { up with cfg.streams := [(127, sc kindImu 31)], ing.streams := [(127, { Stream.reset with enabled := true, next := 5 })], spl.holds := [(0, 0, 127, 1)] }
def w154 : State := { upm with cfg.streams := [(127, sc kindImu 31)], ing.streams := [(127, { Stream.reset with enabled := true })] }
def w155 : State := { up with ing.injections := [(127, { desc := mk 1 0x0806 [], pattern := 0, seed := 0, packet := [], expected := 0, deadline := 100 })] }
def w156 : State := { upm with cfg.streams := [(127, { sc kindCamera 31 with source := 3, width := 2, height := 2, format := 1 })], ing.partners := [(3, par 1)], ing.streams := [(127, { Stream.reset with enabled := true, lastCommit := some 1000 })], ing.injections := [(127, { desc := mk 1 0x0806 [], pattern := 0, seed := 0, packet := [], expected := 0, deadline := 100 })] }
def w157 : State := { up with cfg.streams := [(127, sc kindImu 31)], trig.cads := [(31, { Cadence.reset with st := .running, period := 10000000, phase := 1000 })], ing.streams := [(127, { Stream.reset with enabled := true, suspect := true, back := some 3 })] }
def w158 : State := { up with cfg.streams := [(127, sc kindImu 31)], trig.cads := [(31, { Cadence.reset with st := .running, period := 10000000, phase := 1000 })], ing.streams := [(127, { Stream.reset with enabled := true })] }
def w159 : State := { up with cfg.streams := [(127, sc kindImu 31)], trig.cads := [(31, { Cadence.reset with st := .running, period := 10000000, phase := 1000 })], ing.streams := [(127, { Stream.reset with enabled := true, contested := some 0 })] }
def w160 : State := { up with cfg.streams := [(127, sc kindImu 31)], trig.cads := [(31, { Cadence.reset with st := .running, period := 10000000, phase := 1000 })], ing.streams := [(127, { Stream.reset with enabled := true, contested := some 1 })] }
def w161 : State := { up with cfg.streams := [(127, sc kindImu 31)], trig.cads := [(31, { Cadence.reset with st := .running, period := 10000000, phase := 1000 })], ing.streams := [(127, { Stream.reset with enabled := true, frozen := true, passRun := 8 })] }
def w162 : State := { up with cfg.streams := [(127, sc kindImu 31)], trig.cads := [(31, { Cadence.reset with st := .running, period := 10000000, phase := 1000 })], ing.streams := [(127, { Stream.reset with enabled := true, frozen := true, passRun := 7 })] }
def w163 : State := { up with cfg.streams := [(127, sc kindImu 31)], cfg.flows := [(4095, { guarded := false, cadence := 31, enable := true, grid := none, cring := none })] }
def w164 : State := { upm with spl.latest := [(31, 5)], spl.tables := [(63, et 5)] }
def w165 : State := { up with spl.latest := [(31, 5)], spl.tables := [(63, et 5)] }
def w166 : State := { up with epochs := [{ ep 31 5 with alignEnd := none }], spl.tables := [(63, et 5)] }
def w167 : State := { up with sec.image := some { Image.blank with entries := [(8191, { pose := Pose.id, valid := true })] } }
def w168 : State := { up with cfg.entries := [(8191, { pose := Pose.id, valid := true })], sec.image := some { Image.blank with rigs := [(15, { joints := 16, enable := true, root := 8191 })] } }
def w169 : State := { up with cfg.entries := [(8191, { pose := Pose.id, valid := true })] }
def w170 : State := { up with sec.image := some { Image.blank with joints := [(127, joint0)] } }
def w171 : State := { up with cfg.entries := [(8191, { pose := Pose.id, valid := true })], cfg.streams := [(127, sc kindEncoder 31)] }
def w172 : State := { up with cfg.entries := [(8191, { pose := Pose.id, valid := true })], cfg.streams := [(127, sc kindCamera 31)], cfg.rigs := [(15, { joints := 16, enable := true, root := 8191 })], sec.image := some { Image.blank with mounts := [(127, 15, 1, 8191, false)] } }
def w173 : State := { up with cfg.streams := [(127, sc kindDigital 31)] }
def w174 : State := { up with cfg.entries := [(8191, { pose := Pose.id, valid := true })], cfg.streams := [(127, sc kindCamera 31)], cfg.rigs := [(15, { joints := 16, enable := true, root := 8191 })] }
def w175 : State := { up with cfg.entries := [(8191, { pose := Pose.id, valid := true })], cfg.streams := [(127, sc kindCamera 31)] }
def w176 : State := { up with cfg.streams := [(127, sc kindScan 31)], cfg.egos := [(15, ego0)] }
def w177 : State := { up with cfg.streams := [(127, { sc kindScan 31 with mount := some (15, 1, 8191) })], cfg.rigs := [(15, { joints := 16, enable := true, root := 8191 })], sec.image := some { Image.blank with egos := [(15, ego0)] } }
def w178 : State := { up with cfg.streams := [(127, { sc kindScan 31 with mount := some (15, 1, 8191) })], cfg.rigs := [(15, { joints := 16, enable := true, root := 8191 })] }
def w179 : State := { up with cfg.joints := [(127, joint0)], sec.image := some { Image.blank with joints := [(127, joint0)] }, xft.joints := [(127, { JointSt.reset with primary := { Refd.reset with lastPos := some 0x4014000000000000 } })] }
def w180 : State := { up with cfg.joints := [(127, joint0)], xft.joints := [(127, { JointSt.reset with primary := { Refd.reset with lastPos := some 0x4014000000000000 } })] }
def w181 : State := { up with cfg.entries := [(8191, { pose := Pose.id, valid := true })], cfg.rigs := [(15, { joints := 16, enable := true, root := 8191 })] }
def w182 : State := { up with cfg.joints := [(127, joint0)], sec.image := some { Image.blank with joints := [(127, joint0)] } }
def w183 : State := { up with cfg.joints := [(127, joint0)], cfg.rigs := [(15, { joints := 16, enable := true, root := 8191 })] }
def w184 : State := { up with cfg.joints := [(127, joint0)] }
def w185 : State := { up with sec.image := some { Image.blank with rigs := [(15, { joints := 16, enable := true, root := 8191 })] } }
def w186 : State := { up with cfg.rigs := [(15, { joints := 16, enable := true, root := 8191 })] }
def w187 : State := { up with sec.image := some { Image.blank with egos := [(15, ego0)] } }
def w188 : State := { up with cfg.egos := [(15, ego0)] }
def w189 : State := { up with epochs := [{ ep 31 5 with alignEnd := some 0, cfg := { up.cfg with egos := [(15, ego0)], streams := [(127, sc kindScan 31)] } }], spl.tables := [(63, et 5)] }
def w190 : State := { up with epochs := [{ ep 31 5 with cfg := { up.cfg with streams := [(127, { sc kindScan 31 with mount := some (15, 1, 8191) })], egos := [(15, ego0)], grids := [(7, grid0)] } }], spl.tables := [(63, { et 5 with queries := [{ time := 0, frac := 0, source := 127, kind := 2, member := 9, values := [] }, { time := 0, frac := 0, source := 127, kind := 3, member := 9, values := [] }] })], xft.tables := [(63, { epoch := 5, tov := 0, kinematic := 0, corrected := none, groups := [], joints := [], poses := [{ query := 0, stream := 127, status := 0, flags := 0, rig := 15, link := Pose.id, sensor := Pose.id }, { query := 1, stream := 127, status := 0, flags := 0, rig := 15, link := Pose.id, sensor := Pose.id }] })], ing.streams := [(127, { Stream.reset with samples := [scan0] })], geo.ergRun := [(0, mk 1 0x0B00 [], 5)] }
def w191 : State := { up with epochs := [{ ep 31 5 with cfg := { up.cfg with streams := [(127, { sc kindScan 31 with mount := some (15, 1, 8191) })], egos := [(15, ego0)], grids := [(7, grid0)] } }], spl.tables := [(63, { et 5 with queries := [{ time := 0, frac := 0, source := 127, kind := 2, member := 9, values := [] }, { time := 0, frac := 0, source := 127, kind := 3, member := 9, values := [] }] })], xft.tables := [(63, { epoch := 5, tov := 0, kinematic := 0, corrected := none, groups := [], joints := [], poses := [{ query := 0, stream := 127, status := 0, flags := 0, rig := 15, link := Pose.id, sensor := Pose.id }, { query := 1, stream := 127, status := 0, flags := 0, rig := 15, link := Pose.id, sensor := Pose.id }] })], ing.streams := [(127, { Stream.reset with samples := [scan0] })] }
def w192 : State := upr (mk 1 0x1400 [(16, 458752), (24, 589824), (32, 2), (36, 12), (38, 16)])
def w193 : State := upr (mk 1 0x1401 [(16, 458752), (32, 2), (38, 16)])
def w194 : State := upr (mk 1 0x1402 [(16, 7), (38, 16)])
def w195 : State := { upr (mk 1 0x1400 [(16, 458752), (24, 589824), (32, 3670007), (36, 12)]) with mmu.ctx := [] }
def w196 : State := { upr (mk 1 0x1400 [(16, 458752), (24, 589824), (32, 3670007), (36, 12)]) with mmu.ctx := [], mmu.regions := [(3, { Region.reset with enable := true, base := 0, limit := 0xFFFFFFFF, rmask := 0xFFFF, wmask := 0xFFFF })] }
def w197 : State := { upr (mk 1 0x1400 [(16, 458752), (24, 589824), (32, 2), (36, 12)]) with mmu.ctx := [(2, { Context.reset with enable := true, runs := [⟨6, 3, 0, true, true, false, false, 0, 9⟩] })] }
def w198 : State := { upr (mk 1 0x1401 [(16, 458752), (32, 2)]) with mmu.ctx := [(2, { Context.reset with enable := true, runs := [⟨6, 3, 0, true, true, false, false, 0, 9⟩] })] }
def w199 : State := { upr (mk 1 0x1401 [(16, 458752), (32, 3)]) with mmu.ctx := [(2, { Context.reset with enable := true, runs := [⟨6, 3, 0, true, true, false, false, 0, 9⟩] })] }
def w200 : State := { upr (mk 1 0x1402 [(16, 327680)]) with mmu.ctx := [(2, { Context.reset with enable := true, runs := [⟨6, 3, 0, true, true, false, false, 0, 9⟩] })] }
def w201 : State := { upr (mk 1 0x1402 [(16, 458752)]) with mmu.ctx := [(2, { Context.reset with enable := true, runs := [⟨6, 3, 0, true, true, false, false, 0, 9⟩] })] }
def w202 : State := { upr (mk 1 0x1402 [(16, 281474976710656)]) with mmu.ctx := [(2, { Context.reset with enable := true, runs := [⟨6, 3, 0, true, true, false, false, 0, 9⟩] })] }
def w203 : State := upr (mk 1 0x1403 [(16, 64), (20, 16), (24, 17), (28, 4), (30, 4), (32, 3)])
def w204 : State := upr (mk 1 0x1403 [(16, 64), (20, 16), (24, 15), (28, 4), (30, 4), (32, 3)])
def w205 : State := upr (mk 1 0x1403 [(16, 63), (20, 16), (24, 17), (28, 4), (30, 4), (32, 3)])
def w206 : State := { up with power.bootSrc := 1, power.waitFrom := some 0 }
def w207 : State := { upm with mmu.regions := [(3, { Region.reset with enable := true, base := 0, limit := 0xFFFFFFFF, rmask := 0xFFFF, wmask := 0xFFFF })] }
def w208 : State := { up with sec.image := some { Image.blank with volumes := [(1, vol0)] } }
def w209 : State := { up with cfg.volumes := [(1, vol0)], cfg.egos := [(15, { ego0 with erg := 1 })] }
def w210 : State := { up with cfg.volumes := [(1, vol0)] }
def w211 : State := { up with cfg.streams := [(127, sc kindScan 31)] }
def w212 : State := { up with geo.ergRun := [(1, mk 1 0x0B01 [(16, 65536), (20, 16777216), (24, 16), (32, 64), (40, 8), (48, 0x3F800000), (52, 32), (53, 1)], 5)] }
def w213 : State := { up with geo.ergJobs := [(1, mk 1 0x0B01 [(16, 65536), (20, 16777216), (24, 16), (32, 64), (40, 8), (48, 0x3F800000), (52, 32), (53, 1)], 5)] }
def w214 : State := { up with epochs := [{ ep 31 5 with poseEnd := some 0, cfg := { up.cfg with volumes := [(1, vol0)] } }], spl.tables := [(63, et 5)], xft.tables := [(63, { epoch := 5, tov := 0, kinematic := 0, corrected := none, groups := [], joints := [], poses := [{ query := 0, stream := 127, status := 0, flags := 0, rig := 15, link := Pose.id, sensor := Pose.id }, { query := 1, stream := 127, status := 0, flags := 0, rig := 15, link := Pose.id, sensor := Pose.id }] })] }
def w215 : State := { up with cfg.grids := [(7, grid0)] }
def w216 : State := { up with cfg.volumes := [(0, vol0)] }
def w217 : State := { up with sec.image := some { Image.blank with grids := [(7, grid0)] } }
def w218 : State := { up with cfg.grids := [(7, grid0)], cfg.streams := [(127, { sc kindCamera 31 with mount := some (15, 1, 8191) })] }
def w219 : State := { up with cfg.grids := [(7, grid0)], cfg.flows := [(4095, { guarded := true, cadence := 31, enable := true, grid := none, cring := none })] }
def w220 : State := { up with cfg.grids := [(7, grid0)], cfg.flows := [(4095, { guarded := false, cadence := 31, enable := true, grid := none, cring := none })] }
def w221 : State := { up with cfg.grids := [(7, grid0)], cfg.flows := [(4095, { guarded := false, cadence := 31, enable := true, grid := some 7, cring := none })] }
def w222 : State := { up with cfg.grids := [(7, grid0)], epochs := [{ ep 31 5 with cfg := { up.cfg with grids := [(7, grid0)] } }] }
def w223 : State := { up with cfg.grids := [(7, grid0)], epochs := [{ ep 31 5 with cfg := { up.cfg with grids := [(7, grid0)] } }], geo.grids := [(7, { Grid.reset with running := some (5, 5, 0) })] }
def w224 : State := { up with eng.programs := [(5, prog0)], eng.runs := [(0, run0)] }
def w225 : State := { up with eng.programs := [(5, prog0)] }
def w226 : State := { up with eng.programs := [(5, prog0)], cfg.flows := [(4095, { guarded := false, cadence := 31, enable := true, grid := none, cring := none })] }
def w227 : State := { up with cfg.tasks := [(4095, { body := body0, did := 1, guarded := false })] }
def w228 : State := { up with epochs := [{ ep 31 5 with geoEnd := some 0, cfg := { up.cfg with tasks := [(4095, { body := body0, did := 1, guarded := false })] } }] }
def w229 : State := { up with eng.instances := [(7, inst0)], eng.runs := [(0, { run0 with body := { body0 with instances := 2 } })] }
def w230 : State := { up with eng.runs := [(9, { run0 with waiting := [0] })], eng.programs := [(5, prog0)], eng.engines := [(71, { Engine.reset with resident := [⟨5, 0, 1, 0, false⟩] })] }
def w231 : State := upt [(1, 0x8000000000000005), (2, 7), (3, 9), (5, 0xFFFFFFFFFFFFFFFF)] [(1, 0x00000003FFFFFFFF80000000), (2, 0x000000050000000200000001), (3, 6)]
def w232 : State := { upt [(1, 0x8000000000000005), (2, 7), (3, 9), (5, 0xFFFFFFFFFFFFFFFF)] [(1, 0x00000003FFFFFFFF80000000), (2, 0x000000050000000200000001), (3, 6)] with eng.threads := [] }
def w233 : State := upt [(1, 131060), (2, 7), (3, 9), (6, 2)] [(1, 0x00000003FFFFFFFF80000000), (2, 0x000000050000000400000004), (3, 0x600000005)]
def w234 : State := upt [(1, 131064), (2, 7), (3, 9), (6, 2)] [(1, 0x00000003FFFFFFFF80000000), (2, 0x000000050000000400000004), (3, 0x600000005)]
def w235 : State := { upt [(1, 131056), (2, 7), (3, 9), (6, 2)] [(1, 0x00000003FFFFFFFF80000000), (2, 0x000000050000000400000004), (3, 0x600000005)] with eng.bad := [Space.key (.tile 71) 131064 / 8] }
def w236 : State := upt [(1, 131056), (2, 7), (3, 9), (6, 2)] [(1, 0x00000003FFFFFFFF80000000), (2, 0x000000050000000400000004), (3, 0x600000005)]
def w237 : State := upt [(1, 131056), (2, 7), (3, 0), (6, 2)] [(1, 0x00000003FFFFFFFF80000000), (2, 0x000000050000000400000004), (3, 0x600000005)]
def w238 : State := upt [(1, 130816), (2, 7), (3, 9), (6, 2)] [(1, 0x00000003FFFFFFFF80000000), (2, 0x000000050000000400000004), (3, 0x600000005)]
def w239 : State := upt [(1, 0), (2, 64), (4, 4096), (5, 64), (6, 0), (7, 16384), (8, 256)] []
def w240 : State := upt [(1, 1), (2, 64), (4, 4096), (5, 64), (6, 0), (7, 16384), (8, 256)] []
def w241 : State := upt [(1, 0), (2, 64), (4, 4096), (5, 64), (6, 0), (7, 131072), (8, 256)] []
def w242 : State := upt [(1, 4088), (2, 7), (3, 9), (4, 2048)] [(2, 0x0102030405)]
def w243 : State := { upt [(1, 4088), (2, 7), (3, 9), (4, 2048)] [(2, 0x0102030405)] with eng.pages := [(320, (1, false))] }
def w244 : State := upt [(1, 3840)] [(2, 0x0102030405)]
def w245 : State := { upt [(1, 3840)] [(2, 0x0102030405)] with eng.pages := [(320, (1, false))] }
def w246 : State := { upm with eng.threads := [(4607, { Thread.reset with st := .ready, fetched := some 0, inst := some 0, x := [(1, 4088), (2, 7)], v := [], posted := List.replicate 16 ({ place := .core, addr := 64, bytes := [1, 2, 3, 4], no := 0, inst := 0, did := 1, guarded := false, flows := [] }) })], eng.instances := [(0, { inst0 with threads := [63], windowBytes := 131072 })], eng.runs := [(0, run0)], eng.programs := [(5, prog0)] }
def w247 : State := upt [(1, 64), (2, 128), (3, 0), (4, 15)] []
def w248 : State := { upt [(1, 64), (2, 128), (3, 0), (4, 15)] [] with eng.engines := [(71, { Engine.reset with copies := List.replicate 16 ({ thread := 4607, inst := 0, did := 1, guarded := false, flows := [], no := 1, ahead := 0, src := 64, dst := 128, srcStride := 0, dstStride := 0, rowBytes := 16, rows := 1, srcSpace := 0, dstSpace := 0, knot := none }) })] }
def w249 : State := { upm with eng.threads := [(4607, { Thread.reset with st := .ready, inst := some 0, fetched := some 0, issued := 3, done := 2 })], eng.instances := [(0, { inst0 with threads := [63], windowBytes := 131072 })], eng.runs := [(0, run0)], eng.programs := [(5, prog0)] }
def w250 : State := { upm with eng.threads := [(4607, { Thread.reset with st := .ready, inst := some 0, fetched := some 0, issued := 3, done := 0 })], eng.instances := [(0, { inst0 with threads := [63], windowBytes := 131072 })], eng.runs := [(0, run0)], eng.programs := [(5, prog0)] }
def w251 : State := { upm with eng.threads := [(4607, { Thread.reset with st := .ready, inst := some 0, fetched := some 0, posted := [{ place := .core, addr := 64, bytes := [1, 2, 3, 4], no := 0, inst := 0, did := 1, guarded := false, flows := [] }] })], eng.instances := [(0, { inst0 with threads := [63], windowBytes := 131072 })], eng.runs := [(0, run0)], eng.programs := [(5, prog0)] }
def w252 : State := { upm with eng.threads := [(4607, { Thread.reset with st := .ready, inst := some 0, fetched := some 0 })], eng.instances := [(0, { inst0 with threads := [63], windowBytes := 131072 })], eng.runs := [(0, run0)], eng.programs := [(5, prog0)], eng.engines := [(71, { Engine.reset with resident := [⟨5, 4096, 1, 0, false⟩] })] }
def w253 : State := { upm with eng.threads := [(4607, { Thread.reset with st := .ready, inst := some 0, pc := 7 })], eng.instances := [(0, { inst0 with threads := [63], windowBytes := 131072 })], eng.runs := [(0, run0)], eng.programs := [(5, prog0)] }
def w254 : State := { upm with eng.threads := [(4607, { Thread.reset with st := .ready, inst := some 0, pc := 7 })], eng.instances := [(0, { inst0 with threads := [63], windowBytes := 131072 })], eng.runs := [(0, run0)], eng.programs := [(5, prog0)], eng.engines := [(71, { Engine.reset with resident := [⟨5, 4096, 1, 0, false⟩] })] }
def w255 : State := { upm with eng.threads := [(4607, { Thread.reset with st := .ready, inst := some 0, pc := 8 })], eng.instances := [(0, { inst0 with threads := [63], windowBytes := 131072 })], eng.runs := [(0, run0)], eng.programs := [(5, prog0)], eng.engines := [(71, { Engine.reset with resident := [⟨5, 4096, 1, 0, false⟩] })] }
def w256 : State := { upm with eng.threads := [(4607, { Thread.reset with st := .wait .mem, inst := some 0, waiting := .load ({ place := .core, addr := 64, size := 8, vector := false, signExt := false, d := 3 }) })], eng.instances := [(0, { inst0 with threads := [63], windowBytes := 131072 })], eng.runs := [(0, run0)], eng.programs := [(5, prog0)] }
def w257 : State := { upm with eng.threads := [(4607, { Thread.reset with st := .wait .mem, inst := some 0, waiting := .load ({ place := .core, addr := 64, size := 8, vector := true, signExt := false, d := 3 }) })], eng.instances := [(0, { inst0 with threads := [63], windowBytes := 131072 })], eng.runs := [(0, run0)], eng.programs := [(5, prog0)] }
def w258 : State := { upm with eng.threads := [(4607, { Thread.reset with st := .ready, inst := some 0, posted := [{ place := .core, addr := 64, bytes := [1, 2, 3, 4], no := 0, inst := 0, did := 1, guarded := false, flows := [] }] })], eng.instances := [(0, { inst0 with threads := [63], windowBytes := 131072 })], eng.runs := [(0, run0)], eng.programs := [(5, prog0)] }
def w259 : State := { upm with eng.threads := [(4606, { Thread.reset with posted := [{ place := .core, addr := 64, bytes := [1, 2, 3, 4], no := 0, inst := 0, did := 1, guarded := false, flows := [] }] }), (4607, { Thread.reset with st := .ready, inst := some 0, posted := [({ place := .core, addr := 64, bytes := [1, 2, 3, 4], no := 5, inst := 0, did := 1, guarded := false, flows := [] } : Store)] })], eng.instances := [(0, { inst0 with threads := [63], windowBytes := 131072 })], eng.runs := [(0, run0)], eng.programs := [(5, prog0)] }
def w260 : State := { upm with eng.threads := [(4607, { Thread.reset with st := .ready, inst := some 0, issued := 1 })], eng.instances := [(0, { inst0 with threads := [63], windowBytes := 131072 })], eng.runs := [(0, run0)], eng.programs := [(5, prog0)], eng.engines := [(71, { Engine.reset with copies := [{ thread := 4607, inst := 0, did := 1, guarded := false, flows := [], no := 1, ahead := 0, src := 64, dst := 128, srcStride := 0, dstStride := 0, rowBytes := 16, rows := 1, srcSpace := 0, dstSpace := 0, knot := none }] })] }
def w261 : State := { upm with eng.threads := [(4607, { Thread.reset with st := .ready, inst := some 0, issueNo := 5, passNo := 4 })], eng.instances := [(0, { inst0 with guarded := true, threads := [63], windowBytes := 131072 })], eng.runs := [(0, run0)], eng.programs := [(5, prog0)] }
def w262 : State := { upm with eng.threads := [(4607, { Thread.reset with st := .wait .queue, inst := some 0, waiting := .queue ({ pop := false, queue := 9, d := 3, reg := 2, answer := some 0x101, data := [] }) })], eng.instances := [(0, { inst0 with threads := [63], windowBytes := 131072 })], eng.runs := [(0, run0)], eng.programs := [(5, prog0)] }
def w263 : State := { upm with eng.threads := [(4607, { Thread.reset with st := .wait .queue, inst := some 0, waiting := .queue ({ pop := true, queue := 9, d := 3, reg := 2, answer := some 0, data := [] }) })], eng.instances := [(0, { inst0 with threads := [63], windowBytes := 131072 })], eng.runs := [(0, run0)], eng.programs := [(5, prog0)] }
def w264 : State := { upm with eng.threads := [(4607, { Thread.reset with st := .ready, inst := some 0, calls := [{ slot := 7, recOff := 64, raw := 0x0400, arrived := true, wait := .free, satisfied := true, done := some (0, 5, 6, 0) }] })], eng.instances := [(0, { inst0 with threads := [63], windowBytes := 131072 })], eng.runs := [(0, run0)], eng.programs := [(5, prog0)] }
def w265 : State := { upt [(1, 1024), (2, 7), (4, 256), (6, 64)] [(2, 0x0102030405)] with knots.knots := [(1024, { Knot.reset with st := .active, owner := 1, value := 5 })] }
def w266 : State := { upt [(1, 1024), (2, 0x80000000), (4, 256), (6, 64)] [(2, 0x0102030405)] with knots.knots := [(1024, { Knot.reset with st := .active, owner := 1, value := 5 })] }
def w267 : State := { upt [(1, 1024), (2, 0), (4, 256), (6, 64)] [(2, 0x0102030405)] with knots.knots := [(1024, { Knot.reset with st := .active, owner := 1, value := 5 })] }
def w268 : State := { upt [(1, 1024), (2, 7), (4, 256), (6, 64)] [(2, 0x0102030405)] with knots.knots := [(1024, { Knot.reset with st := .active, owner := 1, value := 5 })], oct.requests := [{ tag := 0, module := 0, did := 1, kind := .write, issued := 0, src := some (threadSrc 4607) }] }
def w269 : State := { upt [(1, 1024), (2, 5), (4, 256), (6, 64)] [(2, 0x0102030405)] with knots.knots := [(1024, { Knot.reset with st := .active, owner := 1, value := 5 })] }
def w270 : State := { upt [(1, 1024), (2, 5), (4, 256), (6, 64)] [(2, 0x0102030405)] with knots.knots := [(1024, { Knot.reset with st := .poisoned })] }
def w271 : State := { upt [(1, 131071), (4, 256), (6, 64)] [(2, 0x0102030405)] with qmu.queues := [(131071, { Queue.reset with active := true, owner := 1, entriesLog2 := 3, widthLog2 := 5, base := 0x20000, tail := 8, tailInv := 0xFFFFFFF7, refuse := true })] }
def w272 : State := { upt [(1, 131071), (4, 256), (6, 64)] [(2, 0x0102030405)] with qmu.queues := [(131071, { Queue.reset with active := true, owner := 1, entriesLog2 := 3, widthLog2 := 5, base := 0x20000, tail := 8, tailInv := 0xFFFFFFF7 })] }
def w273 : State := { upm with eng.threads := [(4607, { Thread.reset with st := .ready, inst := some 0, fetched := some 0, x := [(1, 56), (2, 56), (4, 64)], flags := 4 })], eng.instances := [(0, { inst0 with threads := [63], windowBytes := 131072 })], eng.runs := [(0, run0)], eng.programs := [(5, prog0)], eng.engines := [(71, { Engine.reset with resident := [⟨5, 4096, 1, 0, false⟩] })] }
def w274 : State := { upm with eng.threads := [(4607, { Thread.reset with st := .ready, inst := some 0, fetched := some 0 })], eng.instances := [(0, { inst0 with threads := [63], windowBytes := 131072 })], eng.runs := [(0, run0)], eng.programs := [(5, prog0)] }
def w275 : State := { upm with lyt.engines := [(3, { LytEngine.reset with job := some (({ desc := mk 1 0x0E03 [(16, 4096), (51, 4), (52, 7)], on_ := none, start := 0, first := 0, count := 0, pend := none } : Job)), descs := [(0, []), (0, [])] })] }
def w276 : State := { up with seq.seqs := [(16383, ({ seqRec0 with count := 0, held := [] } : Seq))] }
def w277 : State := { upm with seq.pools := [(3, { enable := true, owner := 1, guarded := false, base := 0x400000, pages := 8, taken := [], lost := [] })], cfg.flows := [(4095, { guarded := false, cadence := 31, enable := true, grid := none, cring := none })] }
def w278 : State := { upm with seq.seqs := [(16383, ({ seqRec0 with count := 0, held := [] } : Seq))] }
def w279 : State := { upr (mk 2 0x0C07 [(16, 16383)]) with seq.seqs := [(16383, ({ seqRec0 with count := 0, held := [] } : Seq))] }
def w280 : State := { upm with seq.seqs := [(16383, ({ seqRec0 with count := 2000 } : Seq))], seq.pools := [(3, { enable := true, owner := 1, guarded := false, base := 0x400000, pages := 8, taken := [0, 2], lost := [] })] }
def w281 : State := { upm with seq.seqs := [(16383, ({ seqRec0 with count := 2000 } : Seq))], seq.pools := [(3, { enable := true, owner := 1, guarded := false, base := 0x400000, pages := 8, taken := [0, 2], lost := [] })], seq.pipes := [(3, { Pipe.reset with job := some (({ desc := mk 1 0x0C04 [(16, 16383), (19, 0x60), (20, 1), (24, 1), (36, 0x3F800000), (40, 4096), (48, 8192), (56, 12288)], on_ := none, start := 0, first := 0, count := 5, pend := none } : Job)) })] }
def w282 : State := { upm with seq.seqs := [(16383, ({ seqRec0 with count := 2000 } : Seq))], seq.pools := [(3, { enable := true, owner := 1, guarded := false, base := 0x400000, pages := 8, taken := [0, 2, 5], lost := [] })] }
def w283 : State := { up with cfg.biases := [(63, { heads := 1, baseUs := 1, values := [], guarded := true })] }
def w284 : State := { upm with eng.threads := [(4607, { Thread.reset with st := .ready, inst := some 0, calls := [{ slot := 7, recOff := 64, raw := (mk 1 0x0C03 [(16, 16383), (24, 77)]).raw, arrived := true, wait := .free, satisfied := true, done := none }] })], eng.instances := [(0, { inst0 with threads := [63], windowBytes := 131072 })], eng.runs := [(0, { run0 with bound := some 4095, epoch := 5 })], eng.programs := [(5, prog0)], seq.seqs := [(16383, ({ seqRec0 with appended := [5] } : Seq))] }
def w285 : State := { upm with eng.threads := [(4607, { Thread.reset with st := .ready, inst := some 0, calls := [{ slot := 7, recOff := 64, raw := (mk 1 0x0C03 [(16, 16383), (24, 77)]).raw, arrived := true, wait := .free, satisfied := true, done := none }] })], eng.instances := [(0, { inst0 with threads := [63], windowBytes := 131072 })], eng.runs := [(0, { run0 with bound := some 4095, epoch := 5 })], eng.programs := [(5, prog0)], seq.seqs := [(16383, ({ seqRec0 with flow := 9 } : Seq))] }
def w286 : State := { upm with eng.threads := [(4607, { Thread.reset with st := .ready, inst := some 0, calls := [{ slot := 7, recOff := 64, raw := (mk 1 0x0C03 [(16, 16383), (24, 77)]).raw, arrived := true, wait := .free, satisfied := true, done := none }] })], eng.instances := [(0, { inst0 with threads := [63], windowBytes := 131072 })], eng.runs := [(0, { run0 with bound := some 4095, epoch := 5 })], eng.programs := [(5, prog0)], seq.seqs := [(16383, ({ active := true, failed := false, guarded := false, ownerDid := 1, pool := 3, policy := 0, layers := 1, heads := 1, width := 32, format := 2, flow := 4095, reservedPages := 4, stallUs := 1000, base := 0x200000, first := 0, count := 4000, firstPage := 0, held := [0, 2, 3, 4], pending := none, appended := [], waiting := [({ desc := ⟨.call 4607 7, 1, (mk 1 0x0C03 [(16, 16383), (24, 77)]).raw⟩, time := 77, invalid := false, epoch := 5, since := some 0 } : AppendWait)], slides := 0, exhausted := 0, discarded := 0 } : Seq))], up := 1000000 }
def w287 : State := { upm with seq.seqs := [(16383, seqRec0)] }
def w288 : State := { upm with seq.seqs := [(16383, seqRec0)], seq.pipes := [(0, { Pipe.reset with job := some (({ desc := mk 1 0x0C04 [(16, 16383), (19, 0x60), (20, 1), (24, 1), (36, 0x3F800000), (40, 4096), (48, 8192), (56, 12288)], on_ := none, start := 0, first := 0, count := 1, pend := none } : Job)) }), (1, { Pipe.reset with job := some (({ desc := mk 1 0x0C04 [(16, 16383), (19, 0x60), (20, 1), (24, 1), (36, 0x3F800000), (40, 4096), (48, 8192), (56, 12288)], on_ := none, start := 0, first := 0, count := 1, pend := none } : Job)) }), (2, { Pipe.reset with job := some (({ desc := mk 1 0x0C04 [(16, 16383), (19, 0x60), (20, 1), (24, 1), (36, 0x3F800000), (40, 4096), (48, 8192), (56, 12288)], on_ := none, start := 0, first := 0, count := 1, pend := none } : Job)) }), (3, { Pipe.reset with job := some (({ desc := mk 1 0x0C04 [(16, 16383), (19, 0x60), (20, 1), (24, 1), (36, 0x3F800000), (40, 4096), (48, 8192), (56, 12288)], on_ := none, start := 0, first := 0, count := 1, pend := none } : Job)) }), (4, { Pipe.reset with job := some (({ desc := mk 1 0x0C04 [(16, 16383), (19, 0x60), (20, 1), (24, 1), (36, 0x3F800000), (40, 4096), (48, 8192), (56, 12288)], on_ := none, start := 0, first := 0, count := 1, pend := none } : Job)) }), (5, { Pipe.reset with job := some (({ desc := mk 1 0x0C04 [(16, 16383), (19, 0x60), (20, 1), (24, 1), (36, 0x3F800000), (40, 4096), (48, 8192), (56, 12288)], on_ := none, start := 0, first := 0, count := 1, pend := none } : Job)) })] }
def w289 : State := { upm with seq.seqs := [(16383, seqRec0)], seq.pipes := [(3, { Pipe.reset with job := some (({ desc := mk 1 0x0C04 [(16, 16383), (19, 0x60), (20, 1), (24, 1), (36, 0x3F800000), (40, 4096), (48, 8192), (56, 12288)], on_ := none, start := 0, first := 0, count := 1, pend := none } : Job)) })] }
def w290 : State := { upm with slv.waiting := [({ desc := mk 1 0x0D00 [(16, 1), (17, 6), (18, 0), (24, 0), (26, 0), (28, 1), (32, 1000), (40, 4096), (48, 8192), (56, 12288)], on_ := none, start := 0, first := 0, count := 0, pend := none } : Job)] }
def w291 : State := { upm with slv.units := [(5, { SolveUnit.reset with job := some ({ desc := mk 1 0x0D00 [(16, 1), (17, 6), (18, 0), (24, 0), (26, 0), (28, 1), (32, 1000), (40, 4096), (48, 8192), (56, 12288)], on_ := none, start := 0, first := 0, count := 0, pend := none } : Job), run := some ({ start := 0, deadline := some 1000, warm := false, image := List.replicate 192 0, x := [[0]], u := [], s := [[]], l := [[]], mixed := [], y := [] }) })] }
def w292 : State := { up with safe.intake := List.replicate 56 (reportOf up 0 6 7 9) }
def w293 : State := { up with safe.intake := List.replicate 64 (reportOf up 0 6 7 9) }
def w294 : State := { up with safe.intake := List.replicate 64 (reportOf up 1 6 7 9) }
def w295 : State := { up with safe.running := false }
def w296 : State := { up with safe.intake := [reportOf up 1 6 7 8, reportOf up 1 6 7 9] }
def w297 : State := { up with safe.intake := [{ reportOf up 2 6 4095 9 with flows := [4095], epoch := some 5 }, reportOf up 1 6 7 9], cfg.flows := [(4095, { guarded := true, cadence := 31, enable := true, grid := none, cring := none })] }
def w298 : State := { up with safe.intake := [reportOf up 3 15 0 0x0140, reportOf up 1 6 7 9], eth.pending := [] }
def w299 : State := { up with safe.intake := [reportOf up 3 15 0 0x0142, reportOf up 1 6 7 9], safe.fatal := some (1, 0) }
def w300 : State := { up with epochs := [{ ep 31 5 with cfg := { up.cfg with flows := [(4095, { guarded := true, cadence := 31, enable := true, grid := none, cring := none })] }, flows := [{ flow := 4095, guarded := true, mode := 0, taken := [], gated := true, runs := true, missing := false, partial_ := false, degraded := false, fallback := false, reefed := false, truncated := false, old := none, status := 0, flags := 0, late := false, ended := true, failAt := none, failSeq := none, doubted := false, written := false }] }], cfg.flows := [(4095, { guarded := true, cadence := 31, enable := true, grid := none, cring := none })], sec.lifecycle := 2 }
def w301 : State := { up with epochs := [{ ep 31 5 with cfg := { up.cfg with flows := [(4095, { guarded := true, cadence := 31, enable := true, grid := none, cring := none })] }, flows := [{ flow := 4095, guarded := true, mode := 0, taken := [], gated := true, runs := true, missing := false, partial_ := false, degraded := false, fallback := false, reefed := false, truncated := false, old := none, status := 0, flags := 0, late := false, ended := true, failAt := none, failSeq := none, doubted := false, written := false }] }], cfg.flows := [(4095, { guarded := true, cadence := 31, enable := true, grid := none, cring := none })], safe.fatal := some (3, 0) }
def w302 : State := { up with epochs := [{ ep 31 5 with cfg := { up.cfg with flows := [(4095, { guarded := true, cadence := 31, enable := true, grid := none, cring := none })] }, flows := [{ flow := 4095, guarded := true, mode := 0, taken := [], gated := true, runs := true, missing := false, partial_ := false, degraded := false, fallback := false, reefed := false, truncated := false, old := none, status := 0, flags := 0, late := false, ended := true, failAt := none, failSeq := none, doubted := false, written := true }] }], cfg.flows := [(4095, { guarded := true, cadence := 31, enable := true, grid := none, cring := none })] }
def w303 : State := { up with safe.flowSel := [(2, 4095)], safe.flows := [(4095, { FlowSafe.reset with latched := true, shadow := true, doubts := [(5, 0)] })], now := 500000001 }
def w304 : State := { up with safe.flowSel := [(2, 4095)], safe.flows := [(4095, { FlowSafe.reset with latched := true, shadow := false, doubts := [(5, 0)] })] }
def w305 : State := { up with sec.lifecycle := 2, fld.heartbeat := some 0 }
def w306 : State := { up with up := 1000000 }
def w307 : State := { up with safe.fwBeat := some 0, up := 5 }
def w308 : State := { up with sec.image := some Image.blank }
def w309 : State := { up with safe.fatal := some (3, 0) }
def w310 : State := { up with safe.fatal := some (1, 0) }
def w311 : State := { up with epochs := [{ ep 31 5 with cfg := { up.cfg with flows := [(4095, { guarded := true, cadence := 31, enable := true, grid := none, cring := none })] }, flows := [{ flow := 4095, guarded := true, mode := 0, taken := [], gated := true, runs := true, missing := false, partial_ := false, degraded := false, fallback := false, reefed := false, truncated := false, old := none, status := 0, flags := 0, late := false, ended := true, failAt := none, failSeq := none, doubted := false, written := false }] }], cfg.flows := [(4095, { guarded := true, cadence := 31, enable := true, grid := none, cring := none })] }
def w312 : State := { up with epochs := [{ ep 31 5 with cfg := { up.cfg with flows := [(4095, { guarded := true, cadence := 31, enable := true, grid := none, cring := none })] }, flows := [{ flow := 4095, guarded := true, mode := 0, taken := [], gated := true, runs := true, missing := false, partial_ := false, degraded := false, fallback := false, reefed := false, truncated := false, old := none, status := 0, flags := 0, late := false, ended := true, failAt := none, failSeq := none, doubted := false, written := true }] }], cfg.flows := [(4095, { guarded := true, cadence := 31, enable := true, grid := none, cring := none })], sec.image := some { Image.blank with windows := [(254, { enable := true, open_ := 0, close := 1000 })] } }
def w313 : State := { up with epochs := [{ ep 31 5 with cfg := { up.cfg with flows := [(4095, { guarded := true, cadence := 31, enable := true, grid := none, cring := none })] }, flows := [{ flow := 4095, guarded := true, mode := 0, taken := [], gated := true, runs := true, missing := false, partial_ := false, degraded := false, fallback := false, reefed := false, truncated := false, old := none, status := 0, flags := 0, late := false, ended := true, failAt := none, failSeq := none, doubted := false, written := false }], decided := [6] }], cfg.flows := [(4095, { guarded := true, cadence := 31, enable := true, grid := none, cring := none })] }
def w314 : State := { up with trig.cads := [(31, { Cadence.reset with st := .running, start := 0, nextClose := 1 })], sec.image := some { Image.blank with windows := [(248, { enable := true, open_ := 0, close := 1000 })] } }
def w315 : State := { up with safe.units := [(87, { UnitSafe.reset with service := 0, owed := [(31, 5)] })] }
def w316 : State := { up with safe.units := [(87, { UnitSafe.reset with service := 0 })] }
def w317 : State := { up with safe.units := [(71, { UnitSafe.reset with service := 0 })], safe.flowSel := [], up := 0, trig.cads := [(31, { Cadence.reset with st := .running, start := 0, nextClose := 1 })], eng.instances := [(0, { inst0 with guarded := true, active := false })], eng.runs := [(0, run0)] }
def w318 : State := { up with safe.units := [(71, { UnitSafe.reset with service := 0, test := .golden 5, owed := [(31, 5)] })] }
def w319 : State := { up with safe.units := [(71, { UnitSafe.reset with service := 0, test := .slice 6 5 })] }
def w320 : State := { up with safe.units := [(71, { UnitSafe.reset with service := 0, test := .golden 5 })] }
def w321 : State := { up with safe.units := [(87, { UnitSafe.reset with service := 0, test := .slice 1 5 })] }
def w322 : State := { up with safe.units := [(87, { UnitSafe.reset with service := 2 })] }
def w323 : State := { up with safe.units := [(87, { UnitSafe.reset with service := 2 })], safe.unitSel := [(2, 87)] }
def w324 : State := { up with safe.units := [(71, { UnitSafe.reset with service := 1 })], safe.unitSel := [(2, 71)] }
def w325 : State := { up with safe.units := [(87, { UnitSafe.reset with service := 1 })], safe.unitSel := [(2, 87)] }
def w326 : State := { up with safe.units := [(87, { UnitSafe.reset with service := 2, step := 1 })] }
def w327 : State := { up with safe.units := [(71, { UnitSafe.reset with service := 1, step := 2 })] }
def w328 : State := { up with safe.units := [(71, { UnitSafe.reset with service := 1, step := 3 })] }
def w329 : State := { up with safe.units := [(87, { UnitSafe.reset with service := 1, step := 4 })] }
def w330 : State := { up with safe.units := [(71, { UnitSafe.reset with service := 1, step := 4 })] }
def w331 : State := { up with safe.units := [(87, { UnitSafe.reset with service := 1, step := 5 })], trig.cads := [(31, { Cadence.reset with st := .running, start := 0, nextClose := 1 })] }
def w332 : State := { up with safe.units := [(71, { UnitSafe.reset with service := 1, step := 6 })] }
def w333 : State := { up with safe.units := [(87, { UnitSafe.reset with service := 1, step := 5 })] }
def w334 : State := { up with icu.sources := [(1023, { IntSource.reset 3 with pending := true })] }
def w335 : State := { up with icu.sources := [(1023, { IntSource.reset 3 with pending := true, masked := false, prio := 5, target := 3 })] }
def w336 : State := { up with icu.sources := [(1023, { IntSource.reset 3 with pending := true, masked := false, prio := 5, target := 3, count := 4096 })] }
def w337 : State := { up with icu.sources := [(1023, { IntSource.reset 3 with pending := true, masked := false, prio := 5, target := 3 })], icu.procs := [(3, { IntProc.reset with threshold := 15 })] }
def w338 : State := { up with icu.sources := [(1023, { IntSource.reset 3 with inService := true })], icu.procs := [(3, { IntProc.reset with stack := [1023, 5] })] }
def w339 : State := { up with icu.srcSel := [(19, 1023)] }
def w340 : State := { up with sic.srcSel := [(0, 16)] }
def w341 : State := { up with icu.locks := [(15, true)] }
def w342 : State := { up with icu.sources := [(1023, { IntSource.reset 3 with count := 77 })] }
def w343 : State := { up with icu.sources := [(1023, { IntSource.reset 3 with inService := true })] }
def w344 : State := { up with power.inReset := [8], power.seqCause := some 2 }
def w345 : State := { up with power.pstate := 4 }
def w346 : State := { up with power.pstate := 3 }
def w347 : State := { up with power.rcuTarget := 71 }
def w348 : State := { up with power.rcuTarget := 71, sec.lifecycle := 2, eng.engines := [(71, { Engine.reset with reservedGuarded := true })] }
def w349 : State := { up with power.rcuTarget := 88 }
def w350 : State := { up with power.railsGood := false }
def w351 : State := { up with power.railsGood := false, power.inReset := [0, 1, 9] }
def w352 : State := { up with power := { Power.reset with railsGood := true, inReset := 4 :: [5, 6] } }
def w353 : State := { up with power := { Power.reset with railsGood := true, inReset := 3 :: [4], held := [2] } }
def w354 : State := { up with power := { Power.reset with railsGood := true, inReset := 5 :: [6] } }
def w355 : State := { up with power := { Power.reset with railsGood := true, inReset := 5 :: [6], trained := true } }
def w356 : State := { up with power := { Power.reset with railsGood := true, inReset := 6 :: [7], step := 8 } }
def w357 : State := { up with power := { Power.reset with railsGood := true, inReset := 6 :: [7], step := 9 } }
def w358 : State := { up with power := { Power.reset with inReset := 7 :: [8, 9], step := 10, railsGood := true } }
def w359 : State := { up with power := { Power.reset with railsGood := true, inReset := 9 :: [], step := 11 } }
def w360 : State := { up with power := { Power.reset with step := 6, stage := 7 } }
def w361 : State := { up with power := { Power.reset with step := 6 } }
def w362 : State := { up with power := { Power.reset with step := 6, training := 1 } }
def w363 : State := { up with power := { Power.reset with step := 6, training := 2 } }
def w364 : State := { up with power := { Power.reset with step := 7, bootSrc := 3 } }
def w365 : State := { up with power := { Power.reset with step := 7 } }
def w366 : State := { up with power := { Power.reset with step := 7, bootSrc := 2, bootGo := true } }
def w367 : State := { up with power := { Power.reset with step := 7, bank := 1 } }
def w368 : State := { up with power := { Power.reset with step := 7, failedBanks := [0], bank := 1 } }
def w369 : State := { up with power := { Power.reset with step := 8 } }
def w370 : State := { up with power := { Power.reset with step := 12 } }
def w371 : State := { up with power := { Power.reset with step := 13 } }
def w372 : State := { up with power := { Power.reset with step := 14 } }
def w373 : State := { up with power := { Power.reset with step := 14 }, sec.stored := some (Image.blank, 5, 7, true), sec.lifecycle := 2 }
def w374 : State := { up with power := { Power.reset with step := 15 } }
def w375 : State := { up with power := { Power.reset with step := 7, waitFrom := some 5, bootSrc := 2 } }
def w376 : State := { up with power := { Power.reset with step := 7, waitFrom := some 5, bootGo := true } }
def w377 : State := { up with power := { Power.reset with step := 7, waitFrom := some 5 } }
def w378 : State := { up with power.busy := true }
def w379 : State := { up with power.busy := true, power.goal := 1, power.target := 1 }
def w380 : State := { up with power.busy := true, power.goal := 3, power.target := 3, eng.runs := [(0, run0)] }
def w381 : State := { up with power.busy := true, power.goal := 3, power.target := 3 }
def w382 : State := { up with power.busy := true, power.goal := 3, power.target := 3, power.pstate := 2 }
def w383 : State := { up with power.pstate := 3, power.wakeCopy := 9 }
def w384 : State := { up with power.pstate := 1, power.reason := 1 }
def w385 : State := { upm with sec.open_ := true, sec.lifecycle := 2, trig.cads := [(31, { Cadence.reset with st := .running })] }
def w386 : State := { upm with sec.open_ := true, mem := [(5, 1)] }
def w387 : State := { upm with sec.open_ := true, sec.lifecycle := 1, sec.image := some Image.blank, sec.locked := true }
def w388 : State := { upm with sec.open_ := true, sec.lifecycle := 2 }
def w389 : State := { upm with sec.open_ := true, sec.lifecycle := 3 }
def w390 : State := { up with sec.image := some { Image.blank with plimit := 7 } }
def w391 : State := { up with sec.image := some Image.blank, mmu.mcs := (List.range 8).map (fun k => (k, { MemCtl.reset with period := 0x18 })) }
def w392 : State := { up with sec.open_ := true, dbg.level := 2 }
def w393 : State := { up with sec.key := 1, sec.refusedAt := some 0, up := 60000000000 }
def w394 : State := { up with sec.key := 1, sec.refusedAt := some 0, up := 60000000001 }
def w395 : State := { up with sec.open_ := true, sec.lifecycle := 2 }
def w396 : State := { up with dbg.portLocked := true }
def w397 : State := { up with sec.lifecycle := 1, dbg.fails := 7 }
def w398 : State := { up with sec.open_ := true, sec.sealOk := true }
def w399 : State := { up with cfg.pubs := [(127, ({ publicationRec0 with image := true } : Publication))] }
def w400 : State := { up with cfg.pubs := [(127, publicationRec0)] }
def w401 : State := { upm with cfg := { up.cfg with flows := [(4095, { guarded := false, cadence := 0, enable := true, grid := none, cring := none })], pubs := [(127, ({ publicationRec0 with enable := false } : Publication))] }, results := [(4095, { FlowHist.reset with latest := some flowResultRec0 })], eth.plant := [(1, { PlantPort.reset with txEn := true })] }
def w402 : State := { upm with cfg := { up.cfg with flows := [(4095, { guarded := false, cadence := 0, enable := true, grid := none, cring := none })], pubs := [(127, publicationRec0)] }, results := [(4095, { FlowHist.reset with latest := some flowResultRec0 })], eth.plant := [(1, { PlantPort.reset with txEn := true })], eth.taken := [(127, (5, 9))] }
def w403 : State := { upm with cfg := { up.cfg with flows := [(4095, { guarded := false, cadence := 0, enable := true, grid := none, cring := none })], pubs := [(127, publicationRec0)] }, results := [(4095, { FlowHist.reset with latest := some ({ flowResultRec0 with status := 16 } : FlowResult) })], eth.plant := [(1, { PlantPort.reset with txEn := true })], eth.pending := [(127, { pub := 127, port := 1, tov := 77, guarded := false, pcp := 0, dstMac := 9, ip6 := false, dstIp := 0, udpDst := 5, bytes := List.replicate 40 0 })] }
def w404 : State := { up with eth.pending := [(127, { pub := 127, port := 1, tov := 77, guarded := false, pcp := 0, dstMac := 9, ip6 := false, dstIp := 0, udpDst := 5, bytes := List.replicate 40 0 })] }
def w405 : State := { up with eth.pending := [(1, { pub := 127, port := 1, tov := 77, guarded := false, pcp := 0, dstMac := 9, ip6 := false, dstIp := 0, udpDst := 5, bytes := List.replicate 40 0 })], eth.plant := [(1, { PlantPort.reset with txEn := true, rate := 1000, burst := 4, bucket := 4096000000, period := 1000, wins := [(0, (0, 100))] })], ing.ports := [(9, { IngPort.reset with speed := 2, linkUp := true })] }
def w406 : State := { upm with oct := { Oct.reset with enable := true, cols := 2, rows := 2, module := 0, ports := [(0, { OctPort.reset with st := .hello })] } }
def w407 : State := { upm with oct := { Oct.reset with enable := true, cols := 2, rows := 2, module := 0, ports := [(0, { OctPort.reset with st := .training })] } }
def w408 : State := { upm with oct := { Oct.reset with enable := true, cols := 2, rows := 2, module := 0, ports := [(3, { OctPort.reset with st := .fault, faultAt := 7 })] } }
def w409 : State := { upm with oct := { Oct.reset with enable := true, cols := 2, rows := 2, module := 0, ports := [(3, { OctPort.reset with st := .up })] } }
def w410 : State := { upm with oct := { Oct.reset with enable := true, cols := 2, rows := 2, module := 0, ports := [(0, { OctPort.reset with st := .up, unacked := [(7, 0, []), (8, 0, [])] })] } }
def w411 : State := { upm with oct := { Oct.reset with enable := true, cols := 2, rows := 2, module := 0, ports := [(0, { OctPort.reset with st := .up, unacked := [(7, 0, []), (8, 0, [])], replayCount := 7, replaySeq := 8 })] } }
def w412 : State := { upm with oct := { Oct.reset with enable := true, cols := 2, rows := 2, module := 0, ports := [(3, { OctPort.reset with st := .fault })] } }
def w413 : State := { upm with oct := { Oct.reset with enable := true, cols := 2, rows := 2, module := 0, ports := [(3, { OctPort.reset with st := .up, unacked := [(7, 0, []), (8, 0, [])] })] } }
def w414 : State := { upm with oct := { Oct.reset with enable := true, cols := 2, rows := 2, module := 0, ports := [(0, { OctPort.reset with st := .up })] } }
def w415 : State := { upm with oct := { Oct.reset with enable := true, cols := 2, rows := 2, ports := [(3, { OctPort.reset with st := .up })] } }
def w416 : State := { upm with oct := { Oct.reset with enable := true, cols := 2, rows := 2, ports := [(3, { OctPort.reset with st := .up })] }, tb := { up.tb with srcPrimary := 3, octurPort := 3 } }
def w417 : State := { upm with oct := { Oct.reset with enable := true, cols := 2, rows := 2, ports := [(0, { OctPort.reset with st := .up })] } }
def w418 : State := { upm with oct := { Oct.reset with enable := true, cols := 2, rows := 2, ports := [(0, { OctPort.reset with st := .up })] }, knots.knots := [(1024, { Knot.reset with st := .active, owner := 1, value := 5 })] }
def w419 : State := { upm with oct := { Oct.reset with enable := true, cols := 2, rows := 2, ports := [(0, { OctPort.reset with st := .up })], requests := [({ tag := 7, module := 1, did := 1, kind := .read, issued := 0, src := none } : OctReq)] } }
def w420 : State := { upm with oct := { Oct.reset with enable := true, cols := 2, rows := 2, ports := [(0, { OctPort.reset with st := .up })], requests := [({ tag := 7, module := 1, did := 1, kind := .write, issued := 0, src := none } : OctReq)] } }
def w421 : State := { upm with oct := { Oct.reset with enable := true, cols := 2, rows := 2, ports := [(0, { OctPort.reset with st := .up })], requests := [({ tag := 7, module := 1, did := 1, kind := .knot 8191 false, issued := 0, src := none } : OctReq)] } }
def w422 : State := { upm with oct := { Oct.reset with enable := true, cols := 2, rows := 2, ports := [(0, { OctPort.reset with st := .up })], requests := [({ tag := 7, module := 1, did := 1, kind := .reset (mk 1 0x1200 [(16, 5)]), issued := 0, src := none } : OctReq)] } }
def w423 : State := { upm with oct := { Oct.reset with enable := true, cols := 2, rows := 2, ports := [(0, { OctPort.reset with st := .up })], requests := [({ tag := 7, module := 1, did := 1, kind := .write, issued := 0, src := none } : OctReq)], held := [{ src := .call 0 8, sig := { knot := 5, set := false, value := 1, did := 1, unit := 0, index := 0 }, module := none, guarded := false, kind := 4, index := 0 }] } }
def w424 : State := { upm with oct := { Oct.reset with enable := true, cols := 2, rows := 2, ports := [(0, { OctPort.reset with st := .up })] }, power.octurResetEn := true }
def w425 : State := { up with dbg.linkSel := [(2, 28)] }
def w426 : State := { up with dbg.links := [(27, { LinkTest.reset with run := true })], dbg.linkSel := [(2, 27)], dbg.level := 2 }
def w427 : State := { up with dbg.links := [(27, { LinkTest.reset with sync := true })], dbg.linkSel := [(2, 27)], dbg.level := 2 }
def w428 : State := { up with dbg.links := [(27, { LinkTest.reset with sync := true })], dbg.linkSel := [(2, 27)], dbg.level := 1 }
def w429 : State := { up with dbg.links := [(27, { LinkTest.reset with run := true, sync := true })], dbg.linkSel := [(2, 27)], dbg.level := 2 }
def w430 : State := { up with dbg.level := 1 }
def w431 : State := { up with dbg.level := 2, dbg.source := 2 }
def w432 : State := { up with sec.lifecycle := 2 }
def w433 : State := { up with dbg.boundary := true, dbg.ir := 0 }
def w434 : State := { up with dbg.level := 1, dbg.traceTypes := 39 }
theorem test_witness_StepAndIdle :
    ∃ (s : State), (s.pending = []) :=
  ⟨up, rfl⟩

theorem test_witness_ResetState :
    ∃ (d : _), (d < 10) :=
  ⟨9, by decide +kernel⟩

theorem test_witness_StepKeepsMemoryCanonical :
    ∃ (s : State) (t : State), (Canonical s) ∧ (step s = .next t) :=
  ⟨State.reset.withCommand (.clk10mGate none), w23, by decide +kernel, rfl⟩

theorem test_witness_RegisterAccesses :
    (∃ (a : BarAccess), (a.size ≠ 4 ∨ a.offset % 4 ≠ 0)) ∧
    (∃ (a : BarAccess) (s : State) (p : Nat) (v : _), (BarAccess.aligned a = true) ∧ (barPlace a.did a.offset = some p) ∧ (barOpen s a.did p = true) ∧ (pairValue s a.did p = some v)) ∧
    (∃ (a : BarAccess) (s : State) (p : Nat) (v : _) (h : _), (BarAccess.aligned a = true) ∧ (barPlace a.did a.offset = some p) ∧ (barOpen s a.did (p + 4) = true) ∧ (pairValue s a.did (p + 4) = none) ∧ (pairValue s a.did p = some v) ∧ (s.readHi.find (pairKey a.did p) = some h) ∧ (a.offset + 4 < 2 ^ 26) ∧ (barPlace a.did (a.offset + 4) = some (p + 4))) ∧
    (∃ (a : BarAccess) (s : State) (p : Nat), (BarAccess.aligned a = true) ∧ (barPlace a.did a.offset = some p) ∧ (barOpen s a.did p = true) ∧ (pairTakes s a.did p = true) ∧ (p ≠ 0x040108) ∧ (p ≠ 0x040110)) ∧
    (∃ (a : BarAccess) (s : State) (p : Nat) (r : _), (BarAccess.aligned a = true) ∧ (barPlace a.did a.offset = some p) ∧ (barOpen s a.did p = true) ∧ (pairTakes s a.did p = true) ∧ (p = 0x040108 ∨ p = 0x040110) ∧ (selRing s a.did = some (false, r)) ∧ ((subRing s r).st = .running ∨ (subRing s r).st = .error)) ∧
    (∃ (a : BarAccess) (s : State) (p : Nat) (r : _), (BarAccess.aligned a = true) ∧ (barPlace a.did a.offset = some p) ∧ (barOpen s a.did p = true) ∧ (pairTakes s a.did p = true) ∧ (p = 0x040108 ∨ p = 0x040110) ∧ (selRing s a.did = some (false, r)) ∧ ((subRing s r).st = .idle ∨ (subRing s r).st = .stopped)) ∧
    (∃ (a : BarAccess) (s : State) (p : Nat) (l : _), (BarAccess.aligned a = true) ∧ (barPlace a.did a.offset = some p) ∧ (barOpen s a.did p = true) ∧ (p = 0x07001C) ∧ (s.writeLo.find (pairKey a.did 0x070018) = some l)) ∧
    (∃ (a : BarAccess) (b : BarAccess) (s : State), (a.did < b.did) ∧ (sameRegister s b a = true)) ∧
    (∃ (a : BarAccess) (s : State), (BarAccess.aligned a = true) ∧ (a.did ≤ 2) ∧ (barOpen s a.did a.offset = true) ∧ (a.offset = 0x070020)) ∧
    (∃ (a : BarAccess) (s : State), (BarAccess.aligned a = true) ∧ (a.did ≤ 2) ∧ (barOpen s a.did a.offset = true) ∧ (a.offset = 0x070024)) ∧
    (∃ (a : BarAccess) (s : State), (BarAccess.aligned a = true) ∧ (a.did ≤ 2) ∧ (barOpen s a.did a.offset = true) ∧ (a.offset = 0x070000)) ∧
    (∃ (w : BitVec 64) (s : State), (s.dbg.level = 0) ∧ (s.dbg.boundary = false) ∧ (s.dbg.production = false) ∧ (bitsOf w.toNat 8 24 * 4 / 256 ≠ 0x1600)) ∧
    (∃ (w : BitVec 64) (s : State), (s.dbg.level = 2) ∧ (s.dbg.boundary = false) ∧ (s.dbg.production = false) ∧ (barOpen s 1 0x070020 = true) ∧ (bitsOf w.toNat 8 24 = 0x01C008) ∧ (w.toNat.testBit 1 = true)) ∧
    (∃ (s : State) (did : Nat) (off : Nat), (off % 4 = 0) ∧ (did ≤ 2) ∧ (barOpen s did (0x161000 + off % 0x1000) = true) ∧ (s.dbg.level = 0)) ∧
    (∃ (off : Nat) (size : _), (size ≠ 4 ∨ off % 4 ≠ 0)) :=
  ⟨⟨⟨1, 0, 2, 4, 0⟩, by decide +kernel⟩,
   ⟨acc 0x070018 0, up, 0x070018, 0, by decide +kernel⟩,
   ⟨acc 0x070018 0, w24, 0x070018, 0, 7, by decide +kernel⟩,
   ⟨acc 0x070018 5, up, 0x070018, by decide +kernel⟩,
   ⟨acc 0x040108 5, w25, 0x040108, 0, by decide +kernel⟩,
   ⟨acc 0x040110 5, w26, 0x040110, 0, by decide +kernel⟩,
   ⟨acc 0x07001C 6, w27, 0x07001C, 7, by decide +kernel⟩,
   ⟨acc 0x160010 1, ⟨2, 0, 0x160010, 4, 2⟩, up, by decide +kernel⟩,
   ⟨acc 0x070020 5, up, by decide +kernel⟩,
   ⟨acc 0x070024 5, up, by decide +kernel⟩,
   ⟨acc 0x070000 0xFFFFFFFF, up, by decide +kernel⟩,
   ⟨0, up, by decide +kernel⟩,
   ⟨BitVec.ofNat 64 (0x01C008 * 256 + 2 + 9 * 2 ^ 32), w28, by decide +kernel⟩,
   ⟨up, 2, 0, by decide +kernel⟩,
   ⟨2, 4, by decide +kernel⟩⟩

theorem test_witness_RingsAndDoorbells :
    (∃ (s : State) (did : Nat) (r : Nat), (hifOpen s = true) ∧ (selRing s did = some (false, r)) ∧ ((subRing s r).st ≠ .running) ∧ ((subRing s r).st ≠ .error) ∧ (startChecks s false r = true)) ∧
    (∃ (s : State) (did : Nat) (r : Nat), (hifOpen s = true) ∧ (selRing s did = some (false, r)) ∧ ((subRing s r).st = .error ∨ ((subRing s r).st ≠ .running ∧ startChecks s false r = false))) ∧
    (∃ (s : State) (did : Nat) (r : Nat), (hifOpen s = true) ∧ (selRing s did = some (false, r)) ∧ ((subRing s r).st = .running)) ∧
    (∃ (s : State) (did : Nat) (r : Nat), (hifOpen s = true) ∧ (selRing s did = some (true, r)) ∧ ((comRing s r).st = .running) ∧ (boundRunning s r = false)) ∧
    (∃ (s : State) (did : Nat) (r : Nat), (hifOpen s = true) ∧ (selRing s did = some (true, r)) ∧ ((comRing s r).st = .running) ∧ (boundRunning s r = true)) ∧
    (∃ (s : State) (did : Nat) (r : Nat), (hifOpen s = true) ∧ (selRing s did = some (false, r)) ∧ ((subRing s r).st ≠ .running)) ∧
    (∃ (s : State) (did : Nat) (r : Nat), (hifOpen s = true) ∧ (selRing s did = some (true, r)) ∧ ((comRing s r).st = .running)) ∧
    (∃ (s : State) (r : Nat), ((subRing s r).st = .running) ∧ ((subRing s r).stopping = true) ∧ ((flightsOf s r).isEmpty = true)) ∧
    (∃ (s : State) (r : Nat), ((subRing s r).st = .running) ∧ ((subRing s r).stopping = true) ∧ ((flightsOf s r).isEmpty = false)) ∧
    (∃ (s : State), (firstBy Due.before (duePolls s) = none)) ∧
    (∃ (s : State) (d : _), (firstBy Due.before (duePolls s) = some d) ∧ (d.com = false) ∧ (ringMayRead s false d.ring = true) ∧ (s.dbg.boundary = false)) ∧
    (∃ (s : State) (d : _), (firstBy Due.before (duePolls s) = some d) ∧ (d.com = false) ∧ (ringMayRead s false d.ring = false)) ∧
    (∃ (s : State) (r : Nat) (issue : Nat), ((subRing s r).st = .running) ∧ ((subRing s r).pollIssued = some issue)) ∧
    (∃ (s : State) (r : Nat) (issue : Nat) (w : _), ((subRing s r).st = .running) ∧ ((subRing s r).pollIssued = some issue) ∧ (hostPartOk w = false ∨ (hostPartOk w = true ∧ w.truncate 32 = (subRing s r).head ∧ (subRing s r).tail = (subRing s r).head))) ∧
    (∃ (s : State) (r : Nat) (issue : Nat) (w : _), ((subRing s r).st = .running) ∧ ((subRing s r).pollIssued = some issue) ∧ (hostPartOk w = true) ∧ ((subRing s r).entries < (w.truncate 32 - (subRing s r).head : W32).toNat)) :=
  ⟨⟨w29, 2, 0, by decide +kernel⟩,
   ⟨up, 2, 0, by decide +kernel⟩,
   ⟨w30, 2, 0, by decide +kernel⟩,
   ⟨w31, 2, 0, by decide +kernel⟩,
   ⟨w32, 2, 0, by decide +kernel⟩,
   ⟨up, 2, 0, by decide +kernel⟩,
   ⟨w31, 2, 0, by decide +kernel⟩,
   ⟨w33, 0, by decide +kernel⟩,
   ⟨w34, 0, by decide +kernel⟩,
   ⟨up, rfl⟩,
   ⟨w35, { at_ := 0, did := 2, ring := 0, com := false }, rfl, rfl, by decide +kernel, by decide +kernel⟩,
   ⟨w36, { at_ := 0, did := 2, ring := 0, com := false }, rfl, rfl, by decide +kernel⟩,
   ⟨w37, 0, 0, by decide +kernel⟩,
   ⟨w37, 0, 0, 0, by decide +kernel⟩,
   ⟨w37, 0, 0, BitVec.ofNat 128 (65 + (0xFFFF - 65) * 2 ^ 48), by decide +kernel⟩⟩

theorem test_witness_DescriptorRuns :
    (∃ (s : State) (r : Nat) (i : W32) (f : Flight) (raw : BitVec 512) (d : Desc), (flightOf s r i = some f) ∧ (f.arrived = false) ∧ (d = ⟨.ring r i, ringDid s false r, raw⟩)) ∧
    (∃ (s : State) (r : Nat) (i : W32) (f : Flight), (flightOf s r i = some f) ∧ (f.arrived = false)) ∧
    (∃ (s : State) (t : Nat) (slot : W32) (c : CallSlot) (d : Desc), ((Tbl.at Thread.reset s.eng.threads t).calls.find? (fun c => c.slot == slot.toNat) = some c) ∧ (c.arrived = false) ∧ (c.done = none) ∧ (d = ⟨.call t c.slot, (threadWho s t).did, c.raw⟩) ∧ (callUnit (dOpcode d / 256) = false)) ∧
    (∃ (s : State) (t : Nat) (slot : W32) (c : CallSlot) (d : Desc), ((Tbl.at Thread.reset s.eng.threads t).calls.find? (fun c => c.slot == slot.toNat) = some c) ∧ (c.arrived = false) ∧ (c.done = none) ∧ (d = ⟨.call t c.slot, (threadWho s t).did, c.raw⟩) ∧ (callUnit (dOpcode d / 256) = true) ∧ (arrivalStatus s d ≠ stOk)) ∧
    (∃ (s : State) (t : Nat) (slot : W32) (c : CallSlot) (d : Desc), ((Tbl.at Thread.reset s.eng.threads t).calls.find? (fun c => c.slot == slot.toNat) = some c) ∧ (c.arrived = false) ∧ (c.done = none) ∧ (d = ⟨.call t c.slot, (threadWho s t).did, c.raw⟩) ∧ (callUnit (dOpcode d / 256) = true) ∧ (arrivalStatus s d = stOk) ∧ (dWaitEn d = false)) ∧
    (∃ (s : State) (d : Desc), (Accepted s d (infoNop s d))) ∧
    (∃ (s : State) (d : Desc), (Accepted s d (infoTimeMark s d))) ∧
    (∃ (s : State), (s.dbg.boundary = false)) ∧
    (∃ (r : Rec), (r.kind < 8)) :=
  ⟨⟨w38, 0, 0, ⟨0, 0, false, 0, false, .free, false, false⟩, BitVec.ofNat 512 0x0400, ⟨.ring 0 0, 2, BitVec.ofNat 512 0x0400⟩, by decide +kernel⟩,
   ⟨w38, 0, 0, ⟨0, 0, false, 0, false, .free, false, false⟩, by decide +kernel⟩,
   ⟨w39, 4607, 7, { slot := 7, recOff := 64, raw := BitVec.ofNat 512 0x0400, arrived := false, wait := .free, satisfied := false, done := none }, ⟨.call 4607 7, 1, 0x0400⟩, by decide +kernel⟩,
   ⟨w40, 4607, 7, { slot := 7, recOff := 64, raw := BitVec.ofNat 512 (0x0600 + 1 * 2 ^ 184), arrived := false, wait := .free, satisfied := false, done := none }, ⟨.call 4607 7, 1, BitVec.ofNat 512 (0x0600 + 1 * 2 ^ 184)⟩, by decide +kernel⟩,
   ⟨w41, 4607, 7, { slot := 7, recOff := 64, raw := BitVec.ofNat 512 (0x0602 + 1024 * 2 ^ 128), arrived := false, wait := .free, satisfied := false, done := none }, ⟨.call 4607 7, 1, BitVec.ofNat 512 (0x0602 + 1024 * 2 ^ 128)⟩, by decide +kernel⟩,
   ⟨up, mk 1 0x0400 [], by decide +kernel⟩,
   ⟨up, mk 1 0x0401 [], by decide +kernel⟩,
   ⟨up, by decide +kernel⟩,
   ⟨⟨1, 2, 3, 4, 5, 7, 0, 0⟩, by decide +kernel⟩⟩

theorem test_witness_FunctionsAndVectors :
    (∃ (fn : Nat), (fn ≤ 13)) ∧
    (∃ (s : State) (did : Nat) (v : W32) (fn : Nat) (com : Bool), (hifOpen s = true) ∧ (did ≤ 2) ∧ (Tbl.at 0 s.hif.fnSel did = fn) ∧ (fn < 14) ∧ (fnRunning s fn = true ∨ 1024 < bitsOf v.toNat 0 10 + bitsOf v.toNat 16 11 ∨ (List.range 14).any (fun g => g != fn && blocksMeet (bitsOf v.toNat 0 10, bitsOf v.toNat 16 11) (ringBlock s com g)) = true)) ∧
    (∃ (s : State) (did : Nat) (v : W32) (fn : Nat), (hifOpen s = true) ∧ (did ≤ 2) ∧ (Tbl.at 0 s.hif.fnSel did = fn) ∧ (fn < 14) ∧ (fnRunning s fn = false) ∧ (bitsOf v.toNat 0 10 + bitsOf v.toNat 16 11 ≤ 1024) ∧ ((List.range 14).any (fun g => g != fn && blocksMeet (bitsOf v.toNat 0 10, bitsOf v.toNat 16 11) (ringBlock s false g)) = false)) ∧
    (∃ (s : State) (did : Nat) (v : W32) (fn : Nat), (hifOpen s = true) ∧ (did ≤ 2) ∧ (Tbl.at 0 s.hif.fnSel did = fn) ∧ (fn < 14) ∧ (fnRunning s fn = false) ∧ (bitsOf v.toNat 0 10 + bitsOf v.toNat 16 11 ≤ 1024) ∧ ((List.range 14).any (fun g => g != fn && blocksMeet (bitsOf v.toNat 0 10, bitsOf v.toNat 16 11) (ringBlock s true g)) = false)) ∧
    (∃ (s : State) (v : Nat) (m : Msix), (Tbl.at Msix.reset s.hif.msix v = m) ∧ (s.dbg.boundary = false) ∧ (m.held = false)) ∧
    (∃ (s : State) (v : Nat) (m : Msix), (Tbl.at Msix.reset s.hif.msix v = m) ∧ (s.dbg.boundary = false) ∧ (m.held = true) ∧ (m.masked = true)) ∧
    (∃ (s : State) (v : Nat) (m : Msix), (Tbl.at Msix.reset s.hif.msix v = m) ∧ (s.dbg.boundary = false) ∧ (m.held = true) ∧ (m.masked = false) ∧ (Tbl.at false s.hif.msixEn (vectorFn v) = true)) ∧
    (∃ (s : State) (v : Nat) (m : Msix), (Tbl.at Msix.reset s.hif.msix v = m) ∧ (s.dbg.boundary = false) ∧ (v < 2048) ∧ (m.pba = true)) ∧
    (∃ (s : State) (v : Nat) (m : Msix), (Tbl.at Msix.reset s.hif.msix v = m) ∧ (s.dbg.boundary = false) ∧ (v < 2048) ∧ (m.pba = false)) :=
  ⟨⟨13, by decide +kernel⟩,
   ⟨w42, 1, 0x04000001, 13, false, by decide +kernel⟩,
   ⟨w43, 1, 0x02000200, 13, by decide +kernel⟩,
   ⟨w44, 1, 0x02000200, 13, by decide +kernel⟩,
   ⟨up, 0, Msix.reset, by decide +kernel⟩,
   ⟨w45, 0, { Msix.reset with held := true }, by decide +kernel⟩,
   ⟨w46, 2047, { Msix.reset with held := true, masked := false }, by decide +kernel⟩,
   ⟨w47, 2047, { Msix.reset with pba := true }, by decide +kernel⟩,
   ⟨up, 0, Msix.reset, by decide +kernel⟩⟩

theorem test_witness_FlowDescriptors :
    (∃ (s : State) (d : Desc) (old : _), (Accepted s d (infoFlowConfig s d)) ∧ (s.cfg.flows.find (dfld d 16 0 12) = old) ∧ ((∀ x, old = some x → x.cadence = dfld d 18 0 5)) ∧ (dbit d 20 7 = false)) ∧
    (∃ (s : State) (d : Desc) (old : _) (g : _), (Accepted s d (infoFlowConfig s d)) ∧ (s.cfg.flows.find (dfld d 16 0 12) = old) ∧ ((∀ x, old = some x → x.cadence = dfld d 18 0 5)) ∧ (dbit d 20 7 = true) ∧ (s.cfg.grids.find (dfld d 20 0 3) = some g) ∧ (g.cadence = dfld d 18 0 5) ∧ (carried s (dfld d 20 0 3) (dfld d 16 0 12) = false)) ∧
    (∃ (s : State) (d : Desc) (old : _), (Accepted s d (infoFlowConfig s d)) ∧ (s.cfg.flows.find (dfld d 16 0 12) = old) ∧ ((∀ x, old = some x → x.cadence = dfld d 18 0 5)) ∧ (dbit d 20 7 = true) ∧ ((s.cfg.grids.find (dfld d 20 0 3)).any (fun g => g.cadence == dfld d 18 0 5) = false ∨ carried s (dfld d 20 0 3) (dfld d 16 0 12) = true)) ∧
    (∃ (s : State) (d : Desc) (x : _), (Accepted s d (infoFlowConfig s d)) ∧ (s.cfg.flows.find (dfld d 16 0 12) = some x) ∧ (x.cadence ≠ dfld d 18 0 5)) ∧
    (∃ (s : State) (d : Desc) (x : _), (s.cfg.flows.find (dfld d 16 0 12) = some x) ∧ (Accepted s d (infoFlowRing s d)) ∧ (dbit d 18 0 = false)) ∧
    (∃ (s : State) (d : Desc) (x : _) (c : _), (s.cfg.flows.find (dfld d 16 0 12) = some x) ∧ (Accepted s d (infoFlowRing s d)) ∧ (dbit d 18 0 = true) ∧ (ringNo s true (fnOfDid d.did) (dfld d 20 0 10) = some c)) ∧
    (∃ (s : State) (d : Desc) (x : _), (s.cfg.flows.find (dfld d 16 0 12) = some x) ∧ (Accepted s d (infoFlowRing s d)) ∧ (dbit d 18 0 = true) ∧ (ringNo s true (fnOfDid d.did) (dfld d 20 0 10) = none)) ∧
    (∃ (s : State) (d : Desc), (s.cfg.flows.find (dfld d 16 0 12) = none) ∧ (Accepted s d (infoFlowRing s d))) ∧
    (∃ (s : State) (d : Desc), (Accepted s d (infoFlowDelete s d)) ∧ (s.cfg.flows.find (dfld d 16 0 12) = none)) ∧
    (∃ (s : State) (d : Desc) (x : _), (Accepted s d (infoFlowDelete s d)) ∧ (s.cfg.flows.find (dfld d 16 0 12) = some x) ∧ (flowNamed s (dfld d 16 0 12) = true)) ∧
    (∃ (s : State) (d : Desc) (x : _), (Accepted s d (infoFlowDelete s d)) ∧ (s.cfg.flows.find (dfld d 16 0 12) = some x) ∧ (flowNamed s (dfld d 16 0 12) = false)) :=
  ⟨⟨up, mk 1 0x0402 [(16, 4095), (18, 0), (19, 1), (20, 0)], none, by decide +kernel, rfl, (fun x h => by cases h), by decide +kernel⟩,
   ⟨w48, mk 1 0x0402 [(16, 4095), (18, 0), (19, 1), (20, 135)], none, { grid0 with cadence := 0 }, by decide +kernel, rfl, (fun x h => by cases h), by decide +kernel, by decide +kernel, by decide +kernel, by decide +kernel⟩,
   ⟨up, mk 1 0x0402 [(16, 4095), (18, 0), (19, 1), (20, 135)], none, by decide +kernel, rfl, (fun x h => by cases h), by decide +kernel, by decide +kernel⟩,
   ⟨w49, mk 1 0x0402 [(16, 4095), (18, 1), (19, 1), (20, 0)], { guarded := false, cadence := 0, enable := true, grid := none, cring := none }, by decide +kernel⟩,
   ⟨w49, mk 1 0x0403 [(16, 4095)], { guarded := false, cadence := 0, enable := true, grid := none, cring := none }, by decide +kernel⟩,
   ⟨w50, ⟨.ring 0 0, 2, (mk 2 0x0403 [(16, 4095), (18, 1), (20, 1023)]).raw⟩, { guarded := false, cadence := 0, enable := true, grid := none, cring := none }, 1023, by decide +kernel⟩,
   ⟨w51, mk 1 0x0403 [(16, 4095), (18, 1), (20, 1023)], { guarded := false, cadence := 0, enable := true, grid := none, cring := none }, by decide +kernel⟩,
   ⟨up, mk 1 0x0403 [(16, 4095)], by decide +kernel⟩,
   ⟨up, mk 1 0x0404 [(16, 4095)], by decide +kernel⟩,
   ⟨w52, mk 1 0x0404 [(16, 4095)], { guarded := false, cadence := 0, enable := true, grid := none, cring := none }, by decide +kernel⟩,
   ⟨w49, mk 1 0x0404 [(16, 4095)], { guarded := false, cadence := 0, enable := true, grid := none, cring := none }, by decide +kernel⟩⟩

theorem test_witness_TimeCommands :
    (∃ (s : State) (did : Nat), (s.bootReady = true) ∧ (did ≤ 2) ∧ (maintOpen s did = true)) ∧
    (∃ (s : State) (did : Nat), (s.bootReady = true) ∧ (did ≤ 2) ∧ (maintOpen s did = false)) ∧
    (∃ (s : State) (did : Nat), (s.bootReady = true) ∧ (did ≤ 2) ∧ (cadActive s = false)) ∧
    (∃ (s : State) (did : Nat), (s.bootReady = true) ∧ (did ≤ 2) ∧ (cadActive s = true)) ∧
    (∃ (s : State) (did : Nat), (s.bootReady = true) ∧ (did ≤ 2) ∧ (cadActive s = false)) ∧
    (∃ (s : State) (did : Nat), (s.bootReady = true) ∧ (did ≤ 2) ∧ (cadActive s = true)) ∧
    (∃ (s : State) (did : Nat), (s.bootReady = true) ∧ (did ≤ 2)) :=
  ⟨⟨w53, 1, by decide +kernel⟩,
   ⟨up, 1, by decide +kernel⟩,
   ⟨up, 1, by decide +kernel⟩,
   ⟨w54, 1, by decide +kernel⟩,
   ⟨up, 1, by decide +kernel⟩,
   ⟨w54, 1, by decide +kernel⟩,
   ⟨up, 1, by decide +kernel⟩⟩

theorem test_witness_Knots :
    (∃ (s : State) (d : Desc) (k : Nat) (n : Knot), (k = dfld d 16 0 13) ∧ (n = knotOf s k) ∧ (Accepted s d (infoKInit s d))) ∧
    (∃ (s : State) (d : Desc) (k : Nat) (n : Knot), (k = dfld d 16 0 13) ∧ (n = knotOf s k) ∧ (Accepted s d (infoKSignal s d)) ∧ (n.st ≠ .poisoned) ∧ (dbit d 18 0 = true)) ∧
    (∃ (s : State) (d : Desc) (k : Nat) (n : Knot), (k = dfld d 16 0 13) ∧ (n = knotOf s k) ∧ (Accepted s d (infoKSignal s d)) ∧ (n.st ≠ .poisoned) ∧ (dbit d 18 0 = false) ∧ (dfld d 20 0 32 ≠ 0) ∧ (dfld d 20 0 32 < 2 ^ 31)) ∧
    (∃ (s : State) (d : Desc) (k : Nat) (n : Knot), (k = dfld d 16 0 13) ∧ (n = knotOf s k) ∧ (Accepted s d (infoKSignal s d)) ∧ (dbit d 18 0 = false) ∧ (dfld d 20 0 32 = 0 ∨ 2 ^ 31 ≤ dfld d 20 0 32)) ∧
    (∃ (s : State) (d : Desc) (k : Nat) (n : Knot), (k = dfld d 16 0 13) ∧ (n = knotOf s k) ∧ (Accepted s d (infoKSignal s d)) ∧ (n.st = .poisoned) ∧ (dbit d 18 0 = true ∨ (dfld d 20 0 32 ≠ 0 ∧ dfld d 20 0 32 < 2 ^ 31))) ∧
    (∃ (s : State) (d : Desc) (k : Nat) (n : Knot), (k = dfld d 16 0 13) ∧ (n = knotOf s k) ∧ (Accepted s d (infoKRead s d)) ∧ (n.st = .poisoned)) ∧
    (∃ (s : State) (d : Desc) (k : Nat) (n : Knot), (k = dfld d 16 0 13) ∧ (n = knotOf s k) ∧ (Accepted s d (infoKRead s d)) ∧ (n.st ≠ .poisoned)) ∧
    (∃ (s : State) (d : Desc) (k : Nat) (n : Knot), (k = dfld d 16 0 13) ∧ (n = knotOf s k) ∧ (Accepted s d (infoKFree s d)) ∧ (n.st = .free)) ∧
    (∃ (s : State) (d : Desc) (k : Nat) (n : Knot), (k = dfld d 16 0 13) ∧ (n = knotOf s k) ∧ (Accepted s d (infoKFree s d)) ∧ (n.st = .poisoned)) ∧
    (∃ (s : State) (d : Desc) (k : Nat) (n : Knot), (k = dfld d 16 0 13) ∧ (n = knotOf s k) ∧ (Accepted s d (infoKFree s d)) ∧ (n.st ≠ .free) ∧ (n.st ≠ .poisoned) ∧ (waitsOn (markStarted s d) k = 0)) ∧
    (∃ (s : State) (d : Desc) (k : Nat) (n : Knot), (k = dfld d 16 0 13) ∧ (n = knotOf s k) ∧ (Accepted s d (infoKFree s d)) ∧ (n.st ≠ .free) ∧ (n.st ≠ .poisoned) ∧ (waitsOn (markStarted s d) k ≠ 0)) ∧
    (∃ (s : State) (d : Desc) (src : Source) (turn : Nat), (((retrying s).filter (fun d => d.src == src))[turn]? = some d) ∧ ((knotOf s (dWaitKnot d)).st ≠ .poisoned)) ∧
    (∃ (s : State) (src : Source) (turn : Nat), (((retrying s).filter (fun d => d.src == src))[turn]? = none)) ∧
    (∃ (s : State) (k : Nat), (k < 8192) ∧ (waitingOn s k = []) ∧ ((∀ w ∈ s.eng.waits, w.2.knot ≠ k))) :=
  ⟨⟨w55, mk 1 0x0600 [(16, 1024), (20, 7)], 1024, { Knot.reset with st := .active, owner := 1, value := 5 }, by decide +kernel⟩,
   ⟨w55, mk 1 0x0601 [(16, 1024), (18, 1), (20, 7)], 1024, { Knot.reset with st := .active, owner := 1, value := 5 }, by decide +kernel⟩,
   ⟨w55, mk 1 0x0601 [(16, 1024), (20, 2147483647)], 1024, { Knot.reset with st := .active, owner := 1, value := 5 }, by decide +kernel⟩,
   ⟨w55, mk 1 0x0601 [(16, 1024), (20, 2147483648)], 1024, { Knot.reset with st := .active, owner := 1, value := 5 }, by decide +kernel⟩,
   ⟨w56, mk 1 0x0601 [(16, 1024), (18, 1), (20, 7)], 1024, { Knot.reset with st := .poisoned }, by decide +kernel⟩,
   ⟨w56, mk 1 0x0602 [(16, 1024)], 1024, { Knot.reset with st := .poisoned }, by decide +kernel⟩,
   ⟨w55, mk 1 0x0602 [(16, 1024)], 1024, { Knot.reset with st := .active, owner := 1, value := 5 }, by decide +kernel⟩,
   ⟨up, mk 1 0x0603 [(16, 1024)], 1024, Knot.reset, by decide +kernel⟩,
   ⟨w56, mk 1 0x0603 [(16, 1024)], 1024, { Knot.reset with st := .poisoned }, by decide +kernel⟩,
   ⟨w55, mk 1 0x0603 [(16, 1024)], 1024, { Knot.reset with st := .active, owner := 1, value := 5 }, by decide +kernel⟩,
   ⟨w57, mk 1 0x0603 [(16, 1024)], 1024, { Knot.reset with st := .active, owner := 1, value := 5 }, by decide +kernel⟩,
   ⟨w58, ⟨.ring 0 0, 2, 0⟩, .ring 0 0, 0, by decide +kernel⟩,
   ⟨w58, .ring 0 0, 1, by decide +kernel⟩,
   ⟨up, 8191, by decide +kernel⟩⟩

theorem test_witness_Queues :
    (∃ (s : State) (d : Desc) (q : Nat) (x : Queue), (q = dfld d 16 0 17) ∧ (x = queueOf s q) ∧ (Accepted s d (infoQCreate s d)) ∧ (x.active = false) ∧ (4 ≤ dfld d 20 0 4) ∧ (dfld d 20 0 4 ≤ 8) ∧ (4 ≤ dfld d 21 0 5) ∧ (dfld d 21 0 5 ≤ 16) ∧ (dfld d 24 0 48 % 4096 = 0) ∧ (dbit d 33 7 = false) ∧ (dbit d 35 7 = false)) ∧
    (∃ (s : State) (d : Desc) (q : Nat) (x : Queue), (q = dfld d 16 0 17) ∧ (x = queueOf s q) ∧ (x.active = true) ∧ (x.usable d.did = true) ∧ (x.pointersOk = true) ∧ (Accepted s d (infoQDestroy s d)) ∧ (x.head = x.tail) ∧ (x.blocked = [])) ∧
    (∃ (s : State) (d : Desc) (q : Nat) (x : Queue), (q = dfld d 16 0 17) ∧ (x = queueOf s q) ∧ (x.active = true) ∧ (x.usable d.did = true) ∧ (x.pointersOk = true) ∧ (Accepted s d (infoQDestroy s d)) ∧ (x.head ≠ x.tail ∨ x.blocked ≠ [])) ∧
    (∃ (s : State) (d : Desc) (q : Nat) (x : Queue), (q = dfld d 16 0 17) ∧ (x = queueOf s q) ∧ (x.active = true) ∧ (x.usable d.did = true) ∧ (x.pointersOk = true) ∧ (Accepted s d (infoQDestroy s d)) ∧ (x.blocked = [])) ∧
    (∃ (s : State) (d : Desc) (q : Nat) (x : Queue), (q = dfld d 16 0 17) ∧ (x = queueOf s q) ∧ (x.active = true) ∧ (x.usable d.did = true) ∧ (x.pointersOk = true) ∧ (Accepted s d (infoQQuery s d))) ∧
    (∃ (s : State) (q : Nat) (x : Queue), (x = queueOf s q) ∧ (x.blocked = [])) ∧
    (∃ (s : State) (q : Nat) (x : Queue) (p : _) (ps : _) (u : _), (x = queueOf s q) ∧ (x.blocked = p :: ps) ∧ (x.pointersOk = true) ∧ (x.count < 2 ^ x.entriesLog2) ∧ (pushEntry (setQueue s q { x with blocked := ps }) q (p.bytes.take (2 ^ x.widthLog2)) = (stOk, u))) ∧
    (∃ (s : State) (q : Nat) (x : Queue), (x = queueOf s q) ∧ (q < 131072) ∧ (x.pointersOk = true)) ∧
    (∃ (s : State) (q : Nat) (x : Queue), (x = queueOf s q) ∧ (q < 131072)) ∧
    (∃ (s : State) (q : Nat) (x : Queue), (x = queueOf s q) ∧ (q < 131072) ∧ (x.pointersOk = false) ∧ (x.blocked = []) ∧ (s.safe.intakeUp = false)) :=
  ⟨⟨up, mk 1 0x0500 [(16, 131071), (20, 8), (21, 16)], 131071, Queue.reset, by decide +kernel⟩,
   ⟨w59, mk 1 0x0501 [(16, 131071)], 131071, { Queue.reset with active := true, owner := 1 }, by decide +kernel⟩,
   ⟨w60, mk 1 0x0501 [(16, 131071)], 131071, { Queue.reset with active := true, owner := 1, tail := 1, tailInv := 0xFFFFFFFE }, by decide +kernel⟩,
   ⟨w59, mk 1 0x0502 [(16, 131071)], 131071, { Queue.reset with active := true, owner := 1 }, by decide +kernel⟩,
   ⟨w59, mk 1 0x0503 [(16, 131071)], 131071, { Queue.reset with active := true, owner := 1 }, by decide +kernel⟩,
   ⟨w59, 131071, { Queue.reset with active := true, owner := 1 }, by decide +kernel⟩,
   ⟨w61, 0, { Queue.reset with active := true, owner := 1, blocked := [⟨0, 1, []⟩] }, ⟨0, 1, []⟩, [], _, rfl, rfl, by decide +kernel, by decide +kernel, rfl⟩,
   ⟨w59, 131071, { Queue.reset with active := true, owner := 1 }, by decide +kernel⟩,
   ⟨w59, 131071, { Queue.reset with active := true, owner := 1 }, by decide +kernel⟩,
   ⟨w62, 131071, { Queue.reset with active := true, tail := 1 }, by decide +kernel⟩⟩

theorem test_witness_ServoBehaviour :
    (∃ (s : State) (sub : Nat) (stamp : Int) (theta : Int), (stamp = time16 s + (sub : Int) - (s.tb.inDelay * 16384 : Nat)) ∧ (theta = (if 32768000000000 < stamp % 65536000000000 then stamp % 65536000000000 - 65536000000000 else stamp % 65536000000000)) ∧ (s.tb.ppsSel = false) ∧ (s.tb.setTod = none) ∧ (s.tb.servoEn = true) ∧ (s.tb.servo = .track) ∧ (s.tb.onBackup = false) ∧ (s.tb.srcPrimary = 2) ∧ (s.tb.reacquire = false) ∧ ((∀ p, s.tb.lastTheta = some p → thetaOver (theta - p) (s.tb.outlier * 100) = false))) ∧
    (∃ (s : State) (sub : Nat) (stamp : Int) (theta : Int) (p : _), (stamp = time16 s + (sub : Int) - (s.tb.inDelay * 16384 : Nat)) ∧ (theta = (if 32768000000000 < stamp % 65536000000000 then stamp % 65536000000000 - 65536000000000 else stamp % 65536000000000)) ∧ (s.tb.ppsSel = false) ∧ (s.tb.setTod = none) ∧ (s.tb.servoEn = true) ∧ (s.tb.servo = .track) ∧ (s.tb.onBackup = false) ∧ (s.tb.srcPrimary = 2) ∧ (s.tb.reacquire = false) ∧ (s.tb.lastTheta = some p) ∧ (thetaOver (theta - p) (s.tb.outlier * 100) = true) ∧ (s.tb.rejects < 3)) ∧
    (∃ (s : State) (port : Nat) (p : PtpPort) (seq : Nat), (p = ptpPort s port) ∧ (∀ t1, p.sync ≠ some (seq, t1))) ∧
    (∃ (s : State) (port : Nat) (p : PtpPort) (seq : _) (t1 : _) (e : _) (theta : _), (p = ptpPort s port) ∧ (p.sync = some (seq, t1)) ∧ (p.enable = true) ∧ (asCapable s p = true) ∧ (servoSource s ≠ 2) ∧ (s.tb.ingress.find? (fun e => e.port == port && e.type == 0 && e.seq == seq) = some e) ∧ (portTheta s p t1 e.time e.gen = some theta)) ∧
    (∃ (s : State), (s.tb.servo = .track ∨ s.tb.servo = .locked)) ∧
    (∃ (s : State), (s.tb.servo = .freerun)) ∧
    (∃ (s : State), (s.power.clkActive = 1 ∨ s.power.clkActive = 2)) ∧
    (∃ (s : State), (s.power.clkActive = 0)) :=
  ⟨⟨w63, 5, 5, 5, by decide +kernel, by decide +kernel, by decide +kernel, by decide +kernel, by decide +kernel, by decide +kernel, by decide +kernel, by decide +kernel, by decide +kernel, (fun p h => by cases h)⟩,
   ⟨w64, 100000000000, 100000000000, 100000000000, 0, by decide +kernel⟩,
   ⟨up, 9, PtpPort.reset 9, 65535, by decide +kernel, fun t1 h => by cases h⟩,
   ⟨w65, 9, { PtpPort.reset 9 with enable := true, sync := some (3, 100), delay := some (200, 0) }, 3, 100, { port := 9, seq := 3, type := 0, gen := 0, time := 400 }, 50, by decide +kernel⟩,
   ⟨w66, by decide +kernel⟩,
   ⟨up, by decide +kernel⟩,
   ⟨w67, by decide +kernel⟩,
   ⟨w68, by decide +kernel⟩⟩

theorem test_witness_PtpAndTimingPins :
    (∃ (s : State) (m : PtpMsg), (m.port < 10) ∧ ((ptpPort s m.port).enable = false)) ∧
    (∃ (s : State) (m : PtpMsg), (m.port < 10) ∧ (m.transport ≠ (ptpPort s m.port).transport)) ∧
    (∃ (s : State) (m : PtpMsg), (m.port < 10) ∧ ((ptpPort s m.port).enable = true) ∧ (m.transport = (ptpPort s m.port).transport) ∧ (m.unsupported = true ∨ m.domain ≠ ptpDomain s)) ∧
    (∃ (s : State) (m : PtpMsg) (u : State), (m.port < 10) ∧ ((ptpPort s m.port).enable = true) ∧ (m.transport = (ptpPort s m.port).transport) ∧ (m.unsupported = false) ∧ (m.domain = ptpDomain s) ∧ (m.type = 0) ∧ ((s.tb.ingress.filter (fun e => e.port == m.port)).length < 64) ∧ (u = { s with tb.ingress := s.tb.ingress ++ [{ port := m.port, seq := m.seq, type := 0, gen := s.tb.gen, time := ((s.now * 65536 + s.tb.frac : Nat) : Int) + m.sub - (internalDelay (speedMode (ingPort s m.port).speed)).2 - (ptpPort s m.port).extRx.toInt }] }) ∧ ((ptpPort s m.port).role = 0 ∨ m.fromParent = false)) ∧
    (∃ (s : State) (m : PtpMsg) (u : State), (m.port < 10) ∧ ((ptpPort s m.port).enable = true) ∧ (m.transport = (ptpPort s m.port).transport) ∧ (m.unsupported = false) ∧ (m.domain = ptpDomain s) ∧ (m.type = 0) ∧ ((s.tb.ingress.filter (fun e => e.port == m.port)).length < 64) ∧ (u = { s with tb.ingress := s.tb.ingress ++ [{ port := m.port, seq := m.seq, type := 0, gen := s.tb.gen, time := ((s.now * 65536 + s.tb.frac : Nat) : Int) + m.sub - (internalDelay (speedMode (ingPort s m.port).speed)).2 - (ptpPort s m.port).extRx.toInt }] }) ∧ ((ptpPort s m.port).role ≠ 0) ∧ (m.fromParent = true)) ∧
    (∃ (s : State) (m : PtpMsg), (m.port < 10) ∧ ((ptpPort s m.port).enable = true) ∧ (m.transport = (ptpPort s m.port).transport) ∧ (m.unsupported = false) ∧ (m.domain = ptpDomain s) ∧ (m.type = 0xB) ∧ ((ptpPort s m.port).role ≠ 0) ∧ (m.fromParent = true) ∧ (m.utcValid = true)) ∧
    (∃ (s : State) (m : PtpMsg), (m.port < 10) ∧ ((ptpPort s m.port).enable = true) ∧ (s.tb.profile ≠ 1) ∧ ((ptpPort s m.port).oneStep = true) ∧ (m.type = 0) ∧ ((ptpPort s m.port).role ≠ 1) ∧ ((s.tb.egress.filter (fun e => e.port == m.port)).length < 64)) ∧
    (∃ (s : State) (tod : _), (s.tb.setTod = some tod) ∧ (s.tb.ppsSel = false) ∧ (cadActive s = false) ∧ (s.tb.inDelay = 0) ∧ (tod < 2 ^ 64)) ∧
    (∃ (s : State) (f : _), (f ≠ s.tb.ppsSel)) ∧
    (∃ (s : State), (s.tb.outForce = true ∨ s.tb.servo = .locked ∨ s.tb.servo = .holdover) ∧ (s.tb.outEn = true) ∧ (s.tb.fldOutEn = false) ∧ (s.dbg.boundary = false)) ∧
    (∃ (s : State), (s.tb.outForce = false) ∧ (s.tb.servo = .freerun)) ∧
    (∃ (f : Int), (f.natAbs ≤ 3200000)) ∧
    (∃ (f : Int), (3200000 < f.natAbs)) :=
  ⟨⟨up, ({ port := 9, type := 0, seq := 3, domain := 0, transport := 0, twoStep := false, time := 100, corr := 5, unsupported := false, fromParent := false, utcValid := false, utcOffset := 0, sub := 1 } : PtpMsg), by decide +kernel⟩,
   ⟨w69, ({ port := 9, type := 0, seq := 3, domain := 0, transport := 1, twoStep := false, time := 100, corr := 5, unsupported := false, fromParent := false, utcValid := false, utcOffset := 0, sub := 1 } : PtpMsg), by decide +kernel⟩,
   ⟨w69, ({ port := 9, type := 0, seq := 3, domain := 1, transport := 0, twoStep := false, time := 100, corr := 5, unsupported := false, fromParent := false, utcValid := false, utcOffset := 0, sub := 1 } : PtpMsg), by decide +kernel⟩,
   ⟨w69, ({ port := 9, type := 0, seq := 3, domain := 0, transport := 0, twoStep := false, time := 100, corr := 5, unsupported := false, fromParent := false, utcValid := false, utcOffset := 0, sub := 1 } : PtpMsg), ({ ({ up with tb.ports := [(9, { PtpPort.reset 9 with enable := true })] } : State) with tb.ingress := ({ up with tb.ports := [(9, { PtpPort.reset 9 with enable := true })] } : State).tb.ingress ++ [{ port := 9, seq := 3, type := 0, gen := 0, time := ((0 : Nat) : Int) + 1 - (internalDelay (speedMode (ingPort ({ up with tb.ports := [(9, { PtpPort.reset 9 with enable := true })] } : State) 9).speed)).2 - (ptpPort ({ up with tb.ports := [(9, { PtpPort.reset 9 with enable := true })] } : State) 9).extRx.toInt }] } : State), by decide +kernel, by decide +kernel, by decide +kernel, by decide +kernel, by decide +kernel, by decide +kernel, by decide +kernel, rfl, by decide +kernel⟩,
   ⟨w69, ({ port := 9, type := 0, seq := 3, domain := 0, transport := 0, twoStep := false, time := 100, corr := 5, unsupported := false, fromParent := true, utcValid := false, utcOffset := 0, sub := 1 } : PtpMsg), ({ ({ up with tb.ports := [(9, { PtpPort.reset 9 with enable := true })] } : State) with tb.ingress := ({ up with tb.ports := [(9, { PtpPort.reset 9 with enable := true })] } : State).tb.ingress ++ [{ port := 9, seq := 3, type := 0, gen := 0, time := ((0 : Nat) : Int) + 1 - (internalDelay (speedMode (ingPort ({ up with tb.ports := [(9, { PtpPort.reset 9 with enable := true })] } : State) 9).speed)).2 - (ptpPort ({ up with tb.ports := [(9, { PtpPort.reset 9 with enable := true })] } : State) 9).extRx.toInt }] } : State), by decide +kernel, by decide +kernel, by decide +kernel, by decide +kernel, by decide +kernel, by decide +kernel, by decide +kernel, rfl, by decide +kernel, by decide +kernel⟩,
   ⟨w70, ({ port := 0, type := 0xB, seq := 3, domain := 0, transport := 0, twoStep := false, time := 100, corr := 5, unsupported := false, fromParent := true, utcValid := true, utcOffset := 37, sub := 1 } : PtpMsg), by decide +kernel⟩,
   ⟨w71, ({ port := 0, type := 0, seq := 3, domain := 0, transport := 0, twoStep := false, time := 100, corr := 5, unsupported := false, fromParent := false, utcValid := false, utcOffset := 0, sub := 1 } : PtpMsg), by decide +kernel⟩,
   ⟨w72, 77, by decide +kernel⟩,
   ⟨w73, true, by decide +kernel⟩,
   ⟨w74, by decide +kernel⟩,
   ⟨w75, by decide +kernel⟩,
   ⟨3200000, by decide +kernel⟩,
   ⟨-3200001, by decide +kernel⟩⟩

theorem test_witness_FieldTimeAndSupply :
    (∃ (s : State) (ta : Int) (tb : Int) (tc : Int) (td : Int) (theta : Int), (theta = ((tb - ta) - (td - tc)) / 2 - s.fldT.aFld.toInt) ∧ (s.fldT.linkUp = true) ∧ (s.fld.fwRunning = true) ∧ (s.fldT.valid = true) ∧ (s.fldT.gen = s.tb.gen) ∧ (thetaOver theta 1000 = false)) ∧
    (∃ (s : State) (ta : Int) (tb : Int) (tc : Int) (td : Int) (theta : Int), (theta = ((tb - ta) - (td - tc)) / 2 - s.fldT.aFld.toInt) ∧ (s.fldT.linkUp = true) ∧ (s.fld.fwRunning = true) ∧ (s.fldT.valid = false) ∧ (0 ≤ theta)) ∧
    (∃ (s : State) (ta : Int) (tb : Int) (tc : Int) (td : Int) (theta : Int), (theta = ((tb - ta) - (td - tc)) / 2 - s.fldT.aFld.toInt) ∧ (s.fldT.linkUp = true) ∧ (s.fld.fwRunning = true)) ∧
    (∃ (s : State) (ta : Int) (tb : Int) (tc : Int) (td : Int) (theta : Int), (theta = ((tb - ta) - (td - tc)) / 2 - s.fldT.aFld.toInt) ∧ (s.fldT.linkUp = true) ∧ (s.fld.fwRunning = true) ∧ (s.safe.intakeUp = false)) ∧
    (∃ (s : State) (ta : Int) (tb : Int) (tc : Int) (td : Int) (theta : Int), (theta = ((tb - ta) - (td - tc)) / 2 - s.fldT.aFld.toInt) ∧ (s.fldT.linkUp = true) ∧ (s.fld.fwRunning = true) ∧ (s.fld.powered = true) ∧ (s.power.inReset.contains 9 = false) ∧ (s.power.error ≠ 5) ∧ (s.dbg.tests 26 2 = false)) ∧
    (∃ (s : State), (s.fld.powered = true)) ∧
    (∃ (s : State), (s.fld.powered = true) ∧ (s.fld.overvoltage = false)) ∧
    (∃ (s : State), (s.fld.powered = true) ∧ (s.fldT.linkUp = true) ∧ (s.fld.fwRunning = false) ∧ (cpsRun s = true)) ∧
    (∃ (s : State), (s.fld.powered = false)) :=
  ⟨⟨w76, 0, 700, 800, 100, 700, by decide +kernel⟩,
   ⟨w77, 0, 700, 800, 100, 700, by decide +kernel⟩,
   ⟨w78, 0, 700, 800, 100, 700, by decide +kernel⟩,
   ⟨w79, 0, 700, 800, 100, 700, by decide +kernel⟩,
   ⟨w80, 0, 700, 800, 100, 700, by decide +kernel⟩,
   ⟨w81, by decide +kernel⟩,
   ⟨w82, by decide +kernel⟩,
   ⟨w83, by decide +kernel⟩,
   ⟨w84, by decide +kernel⟩⟩

theorem test_witness_FieldChannels :
    (∃ (s : State) (d : Desc) (k : Nat), (k = dfld d 16 0 2) ∧ (Accepted s d (infoFldBank s d)) ∧ (dfld d 17 0 2 ≠ 3) ∧ ((∀ p ∈ s.trig.outs, p.1 / 8 = k → (cadOf s p.2.cadence).st = .stopped))) ∧
    (∃ (s : State) (d : Desc) (k : Nat) (p : _), (k = dfld d 16 0 2) ∧ (Accepted s d (infoFldBank s d)) ∧ (p ∈ s.trig.outs) ∧ (p.1 / 8 = k) ∧ ((cadOf s p.2.cadence).st ≠ .stopped)) ∧
    (∃ (s : State) (d : Desc) (k : Nat), (k = dfld d 16 0 2) ∧ (Accepted s d (infoFldBank s d)) ∧ (dfld d 17 0 2 = 3)) ∧
    (∃ (s : State) (d : Desc) (k : Nat) (e : EncCfg), (k = dfld d 16 0 3) ∧ (e = { htl := dbit d 17 0, enable := dbit d 17 7, cadence := dfld d 18 0 5, k := dfld d 20 0 32, filter := dfld d 24 0 8 }) ∧ (Accepted s d (infoFldEnc s d)) ∧ (e.k ≤ 1000000) ∧ (e.filter ≤ 100) ∧ (encFits (cadOf s e.cadence) e = true)) ∧
    (∃ (s : State) (d : Desc) (k : Nat) (e : EncCfg), (k = dfld d 16 0 3) ∧ (e = { htl := dbit d 17 0, enable := dbit d 17 7, cadence := dfld d 18 0 5, k := dfld d 20 0 32, filter := dfld d 24 0 8 }) ∧ (Accepted s d (infoFldEnc s d)) ∧ (1000000 < e.k ∨ 100 < e.filter)) ∧
    (∃ (s : State) (d : Desc) (k : Nat) (x : SerCfg), (k = dfld d 16 0 3) ∧ (x = { mode := dfld d 17 0 2, parity := dfld d 17 2 2, framing := dfld d 17 4 2, gap := dfld d 18 0 8, syncCount := dfld d 19 0 8, sync := dfld d 20 0 16, length := dfld d 22 0 16, rate := dfld d 24 0 32 }) ∧ (Accepted s d (infoFldSerial s d)) ∧ (x.mode ≠ 3) ∧ (x.parity ≠ 3) ∧ (x.framing = 1) ∧ (x.syncCount ≤ 2) ∧ (1 ≤ x.length) ∧ (x.length ≤ 1024) ∧ (9600 ≤ x.rate) ∧ (x.rate ≤ 12000000) ∧ (fieldRuns s = false) ∧ (100 * (max (serialRate x.rate) x.rate - min (serialRate x.rate) x.rate) ≤ x.rate)) ∧
    (∃ (s : State) (d : Desc) (k : Nat) (x : SerCfg), (k = dfld d 16 0 3) ∧ (x = { mode := dfld d 17 0 2, parity := dfld d 17 2 2, framing := dfld d 17 4 2, gap := dfld d 18 0 8, syncCount := dfld d 19 0 8, sync := dfld d 20 0 16, length := dfld d 22 0 16, rate := dfld d 24 0 32 }) ∧ (Accepted s d (infoFldSerial s d)) ∧ (x.mode = 3 ∨ x.parity = 3 ∨ x.framing = 3 ∨ x.length = 0 ∨ 1024 < x.length ∨ x.rate < 9600 ∨ 12000000 < x.rate)) ∧
    (∃ (s : State) (d : Desc) (k : Nat) (x : DinCfg), (k = dfld d 16 0 3) ∧ (x = { edges := dfld d 17 0 2, enable := dbit d 17 7, filter := dfld d 20 0 32 }) ∧ (Accepted s d (infoFldDin s d)) ∧ (x.edges ≠ 0) ∧ (x.filter ≤ 10000) ∧ (fieldRuns s = false)) ∧
    (∃ (s : State) (d : Desc) (k : Nat) (x : DinCfg), (k = dfld d 16 0 3) ∧ (x = { edges := dfld d 17 0 2, enable := dbit d 17 7, filter := dfld d 20 0 32 }) ∧ (Accepted s d (infoFldDin s d)) ∧ (x.edges = 0 ∨ 10000 < x.filter)) ∧
    (∃ (s : State) (k : Nat) (e : _) (n : _) (j : _) (t : _), (fieldRuns s = true) ∧ (s.fldT.valid = true) ∧ (s.fldT.linkUp = true) ∧ (s.fld.live.enc.find k = some e) ∧ (e.enable = true) ∧ (nextSample s e (Tbl.at EncSt.reset s.fld.enc k) = some (n, j, t))) ∧
    (∃ (s : State) (k : Nat) (c : _) (bytes : List Byte), (fieldRuns s = true) ∧ (s.fldT.valid = true) ∧ (s.fldT.linkUp = true) ∧ (s.fld.live.ser.find k = some c) ∧ (c.mode ≠ 0) ∧ (bytes ≠ []) ∧ (framed c bytes = true) ∧ (bytes.length ≤ 1024)) ∧
    (∃ (s : State) (k : Nat) (c : _) (bytes : List Byte), (fieldRuns s = true) ∧ (s.fldT.valid = true) ∧ (s.fldT.linkUp = true) ∧ (s.fld.live.ser.find k = some c) ∧ (c.mode ≠ 0) ∧ (bytes ≠ [])) ∧
    (∃ (s : State) (k : Nat) (c : _) (held : _) (lv : _), (fieldRuns s = true) ∧ (s.fldT.valid = true) ∧ (s.fldT.linkUp = true) ∧ (s.fld.live.din.find k = some c) ∧ (c.enable = true) ∧ (lv ≠ (Tbl.at DinSt.reset s.fld.din k).level) ∧ (held < c.filter * 1000)) ∧
    (∃ (s : State) (k : Nat) (c : _) (held : _) (lv : _), (fieldRuns s = true) ∧ (s.fldT.valid = true) ∧ (s.fldT.linkUp = true) ∧ (s.fld.live.din.find k = some c) ∧ (c.enable = true) ∧ (lv ≠ (Tbl.at DinSt.reset s.fld.din k).level) ∧ (c.filter * 1000 ≤ held)) :=
  ⟨⟨up, mk 1 0x1300 [(16, 3), (17, 2)], 3, by decide +kernel, by decide +kernel, by decide +kernel, (fun p h => by cases h)⟩,
   ⟨w85, mk 1 0x1300 [(16, 3), (17, 2)], 3, (31, { TrigOut.reset with enable := true, cadence := 31, width := 100 }), by decide +kernel⟩,
   ⟨up, mk 1 0x1300 [(16, 3), (17, 3)], 3, by decide +kernel⟩,
   ⟨w86, mk 1 0x1301 [(16, 7), (17, 129), (18, 31), (20, 1000), (24, 100)], 7, { htl := true, enable := true, cadence := 31, k := 1000, filter := 100 }, by decide +kernel⟩,
   ⟨up, mk 1 0x1301 [(16, 7), (17, 129), (18, 31), (20, 1000001), (24, 100)], 7, { htl := true, enable := true, cadence := 31, k := 1000001, filter := 100 }, by decide +kernel⟩,
   ⟨w87, mk 1 0x1302 [(16, 7), (17, 17), (18, 2), (19, 2), (20, 0x1234), (22, 1024), (24, 9600)], 7, { mode := 1, parity := 0, framing := 1, gap := 2, syncCount := 2, sync := 0x1234, length := 1024, rate := 9600 }, by decide +kernel⟩,
   ⟨up, mk 1 0x1302 [(16, 7), (17, 17), (18, 2), (19, 2), (20, 0x1234), (22, 1025), (24, 9600)], 7, { mode := 1, parity := 0, framing := 1, gap := 2, syncCount := 2, sync := 0x1234, length := 1025, rate := 9600 }, by decide +kernel⟩,
   ⟨w87, mk 1 0x1303 [(16, 7), (17, 130), (20, 10000)], 7, { edges := 2, enable := true, filter := 10000 }, by decide +kernel⟩,
   ⟨up, mk 1 0x1303 [(16, 7), (17, 130), (20, 10001)], 7, { edges := 2, enable := true, filter := 10001 }, by decide +kernel⟩,
   ⟨w88, 7, { htl := true, enable := true, cadence := 31, k := 1000, filter := 100 }, 0, 999, 9991000, by decide +kernel⟩,
   ⟨w89, 7, { mode := 1, parity := 0, framing := 1, gap := 2, syncCount := 2, sync := 0x1234, length := 2, rate := 9600 }, [1, 2], by decide +kernel⟩,
   ⟨w90, 7, { mode := 1, parity := 0, framing := 1, gap := 2, syncCount := 2, sync := 0x1234, length := 1024, rate := 9600 }, [1, 2], by decide +kernel⟩,
   ⟨w91, 7, { edges := 3, enable := true, filter := 9 }, 8999, true, by decide +kernel⟩,
   ⟨w91, 7, { edges := 3, enable := true, filter := 9 }, 9000, true, by decide +kernel⟩⟩

theorem test_witness_TriggersAndActions :
    (∃ (s : State) (k : Nat) (o : TrigOut) (t : _), (s.trig.outs.find k = some o) ∧ (fieldRuns s = true) ∧ (s.fldT.valid = true) ∧ (s.fld.overvoltage = false) ∧ (s.power.pstate ≤ 2) ∧ (Tbl.at 0 s.fld.banks (k / 8) ≠ 0) ∧ (s.dbg.boundary = false) ∧ (o.activeUntil = some t)) ∧
    (∃ (s : State) (k : Nat) (o : TrigOut) (n : _) (t : _), (s.trig.outs.find k = some o) ∧ (fieldRuns s = true) ∧ (s.fldT.valid = true) ∧ (s.fld.overvoltage = false) ∧ (s.power.pstate ≤ 2) ∧ (Tbl.at 0 s.fld.banks (k / 8) ≠ 0) ∧ (s.dbg.boundary = false) ∧ (o.activeUntil = none) ∧ (s.fld.overload.find k = none) ∧ (nextTrigger s o (max o.resumeAt ((fieldTime s + 65535) / 65536).toNat) = some (n, t))) ∧
    (∃ (s : State) (k : Nat) (o : TrigOut), (s.trig.outs.find k = some o) ∧ (fieldRuns s = true) ∧ (Tbl.at 0 s.fld.banks (k / 8) = 1) ∧ (k < 32) ∧ (s.fld.overload.find k = none) ∧ (s.safe.intakeUp = false)) ∧
    (∃ (s : State) (k : Nat) (o : TrigOut) (t : _), (s.trig.outs.find k = some o) ∧ (fieldRuns s = true) ∧ (s.fld.overload.find k = some t)) ∧
    (∃ (s : State) (k : _) (a : _) (hold : _) (n : _) (t : _), (s.trig.actions.find k = some a) ∧ (s.power.pstate ≤ 2) ∧ (s.dbg.boundary = false) ∧ (a.held = none) ∧ (nextAction s a = some (n, t)) ∧ (s.now ≤ t - a.lead * 100000) ∧ (portUp s a.port = true) ∧ (t - a.lead * 100000 + hold + 100000 ≤ t)) ∧
    (∃ (s : State) (k : _) (a : _) (hold : _) (n : _) (t : _), (s.trig.actions.find k = some a) ∧ (s.power.pstate ≤ 2) ∧ (s.dbg.boundary = false) ∧ (a.held = none) ∧ (nextAction s a = some (n, t)) ∧ (s.now ≤ t - a.lead * 100000) ∧ (portUp s a.port = true) ∧ (t < t - a.lead * 100000 + hold + 100000)) ∧
    (∃ (s : State) (k : _) (a : _) (n : _) (t : _), (s.trig.actions.find k = some a) ∧ (s.power.pstate ≤ 2) ∧ (s.dbg.boundary = false) ∧ (a.held = none) ∧ (nextAction s a = some (n, t)) ∧ (s.now ≤ t - a.lead * 100000) ∧ (portUp s a.port = false)) ∧
    (∃ (s : State) (k : _) (a : _) (hold : _) (t : _), (s.trig.actions.find k = some a) ∧ (s.power.pstate ≤ 2) ∧ (s.dbg.boundary = false) ∧ (a.held = some t) ∧ (portUp s a.port = true) ∧ (s.now + hold + 100000 ≤ t)) ∧
    (∃ (s : State) (k : _) (a : _) (t : _), (s.trig.actions.find k = some a) ∧ (s.power.pstate ≤ 2) ∧ (s.dbg.boundary = false) ∧ (a.held = some t) ∧ (portUp s a.port = false)) ∧
    (∃ (s : State) (k : _) (m : _), (s.trig.mons.find k = some m) ∧ ((∀ i ∈ m.instants, instantMet (wantsAck s m) i = true))) ∧
    (∃ (s : State) (k : _) (m : _) (i : _) (rest : _), (s.trig.mons.find k = some m) ∧ (m.instants = i :: rest) ∧ (instantMet (wantsAck s m) i = false)) ∧
    (∃ (s : State) (k : _) (m : _) (i : _) (j : _) (rest : _), (s.trig.mons.find k = some m) ∧ (m.instants = i :: j :: rest) ∧ (instantMet (wantsAck s m) i = true) ∧ (instantMet (wantsAck s m) j = false) ∧ (i.time ≤ j.time)) :=
  ⟨⟨w92, 31, { { TrigOut.reset with enable := true, cadence := 31, width := 100 } with activeUntil := some 77 }, 77, by decide +kernel⟩,
   ⟨w93, 31, { TrigOut.reset with enable := true, cadence := 31, width := 100 }, 0, 1000, by decide +kernel, by decide +kernel, by decide +kernel, by decide +kernel, by decide +kernel, by decide +kernel, by decide +kernel, by decide +kernel, by decide +kernel, by rw [fieldTime_now (by decide +kernel)]; decide +kernel⟩,
   ⟨w94, 31, { TrigOut.reset with enable := true, cadence := 31, width := 100 }, by decide +kernel⟩,
   ⟨w95, 31, { TrigOut.reset with enable := true, cadence := 31, width := 100 }, 9, by decide +kernel⟩,
   ⟨w96, 63, { Action.reset with enable := true, cadence := 31, offset := 4000000 }, 1900000, 0, 4001000, by decide +kernel⟩,
   ⟨w96, 63, { Action.reset with enable := true, cadence := 31, offset := 4000000 }, 1900001, 0, 4001000, by decide +kernel⟩,
   ⟨w97, 63, { Action.reset with enable := true, cadence := 31, offset := 4000000 }, 0, 4001000, by decide +kernel⟩,
   ⟨w98, 63, { { Action.reset with enable := true, cadence := 31, offset := 4000000 } with held := some 4001000 }, 3901000, 4001000, by decide +kernel⟩,
   ⟨w99, 63, { { Action.reset with enable := true, cadence := 31, offset := 4000000 } with held := some 4001000 }, 4001000, by decide +kernel⟩,
   ⟨w100, 127, { monX with instants := [⟨5, true, true⟩] }, by decide +kernel⟩,
   ⟨w101, 127, { monX with instants := [⟨5, false, true⟩] }, ⟨5, false, true⟩, [], by decide +kernel⟩,
   ⟨w102, 127, { monX with instants := [⟨5, true, true⟩, ⟨6, false, true⟩] }, ⟨5, true, true⟩, ⟨6, false, true⟩, [], by decide +kernel⟩⟩

theorem test_witness_KeySealAndSwitches :
    (∃ (s : State), (fieldRuns s = true)) ∧
    (∃ (s : State), (fieldRuns s = true)) ∧
    (∃ (s : State), (fieldRuns s = true) ∧ (s.fldT.linkUp = true) ∧ (s.safe.beating = true) ∧ (s.fld.overvoltage = false) ∧ (s.fld.readback = false) ∧ (s.fld.sw0.localOff = false) ∧ (s.fld.sw1.localOff = false)) ∧
    (∃ (s : State), (fieldRuns s = true) ∧ (s.fldT.linkUp = true) ∧ (s.safe.beating = true)) ∧
    (∃ (s : State) (t : _), (fieldRuns s = true) ∧ (s.fld.heartbeat = some t)) ∧
    (∃ (s : State) (ma0 : _) (ma1 : _), (fieldRuns s = true) ∧ (ma0 ≤ 600) ∧ (ma1 ≤ 600) ∧ (5 ≤ ma0) ∧ (5 ≤ ma1)) ∧
    (∃ (s : State), (fieldRuns s = true) ∧ (s.fld.sw0.on_ = true) ∧ (1 ≤ s.fld.sw0.bad) ∧ (s.fld.readback = false)) ∧
    (∃ (s : State), (fieldRuns s = true) ∧ (s.fld.sw0.on_ = true)) :=
  ⟨⟨w81, by decide +kernel⟩,
   ⟨w81, by decide +kernel⟩,
   ⟨w103, by decide +kernel⟩,
   ⟨w81, by decide +kernel⟩,
   ⟨w104, 5, by decide +kernel⟩,
   ⟨w81, 600, 5, by decide +kernel⟩,
   ⟨w105, by decide +kernel⟩,
   ⟨w106, by decide +kernel⟩⟩

theorem test_witness_CadenceDescriptors :
    (∃ (s : State) (d : Desc) (k : Nat) (c : Cadence) (x : Cadence), (k = dfld d 16 0 5) ∧ (c = cadOf s k) ∧ (Accepted s d (infoCadConfig s d)) ∧ (x = { c with trimFrac := if dfld d 17 0 8 = 0 then 0x40 else dfld d 17 0 8, catchupLimit := if dfld d 18 0 16 = 0 then 64 else dfld d 18 0 16, period := dfld d 24 0 64, phase := dfld d 32 0 64, acqWindow := dfld d 40 0 64, tovOffset := dfld d 48 0 64, closeMargin := dfld d 56 0 32, budget := dfld d 60 0 32 }) ∧ (cadParamsOk x = true) ∧ (dfld d 17 0 8 ≤ 0x80) ∧ (c.st = .stopped)) ∧
    (∃ (s : State) (d : Desc) (k : Nat) (c : Cadence) (x : Cadence), (k = dfld d 16 0 5) ∧ (c = cadOf s k) ∧ (Accepted s d (infoCadConfig s d)) ∧ (x = { c with trimFrac := if dfld d 17 0 8 = 0 then 0x40 else dfld d 17 0 8, catchupLimit := if dfld d 18 0 16 = 0 then 64 else dfld d 18 0 16, period := dfld d 24 0 64, phase := dfld d 32 0 64, acqWindow := dfld d 40 0 64, tovOffset := dfld d 48 0 64, closeMargin := dfld d 56 0 32, budget := dfld d 60 0 32 }) ∧ (cadParamsOk x = false ∨ 0x80 < dfld d 17 0 8 ∨ c.st ≠ .stopped)) ∧
    (∃ (s : State) (d : Desc) (k : Nat) (c : Cadence), (k = dfld d 16 0 5) ∧ (c = cadOf s k) ∧ (Accepted s d (infoCadArm s d)) ∧ (c.st = .stopped) ∧ (cadParamsOk c = true) ∧ (armFits s k c = true) ∧ (s.now + 10000000 ≤ c.acqStart (dfld d 24 0 64)) ∧ (armUnlocked s k = false) ∧ (linkBusy s k = false) ∧ (starting s k = false)) ∧
    (∃ (s : State) (d : Desc) (k : Nat) (c : Cadence), (k = dfld d 16 0 5) ∧ (c = cadOf s k) ∧ (Accepted s d (infoCadStop s d)) ∧ (c.st = .stopped)) ∧
    (∃ (s : State) (d : Desc) (k : Nat) (c : Cadence), (k = dfld d 16 0 5) ∧ (c = cadOf s k) ∧ (Accepted s d (infoCadStop s d)) ∧ (c.st = .armed)) ∧
    (∃ (s : State) (d : Desc) (k : Nat) (c : Cadence), (k = dfld d 16 0 5) ∧ (c = cadOf s k) ∧ (Accepted s d (infoCadStop s d)) ∧ (c.st = .running)) ∧
    (∃ (s : State) (d : Desc) (k : Nat) (c : Cadence) (x : _), (k = dfld d 16 0 5) ∧ (c = cadOf s k) ∧ (Accepted s d (infoFlowCatchup s d)) ∧ (s.cfg.flows.find (dfld d 16 0 12) = some x) ∧ (x.guarded = false) ∧ (dfld d 18 0 2 ≤ 2)) ∧
    (∃ (s : State) (d : Desc) (k : Nat) (c : Cadence) (x : _), (k = dfld d 16 0 5) ∧ (c = cadOf s k) ∧ (Accepted s d (infoFlowCatchup s d)) ∧ (s.cfg.flows.find (dfld d 16 0 12) = some x) ∧ (x.guarded = true)) :=
  ⟨⟨up, mk 1 0x0700 [(16, 31), (24, 10000000), (32, 1000), (40, 2000), (48, 2000), (56, 2000), (60, 100)], 31, Cadence.reset, { Cadence.reset with period := 10000000, phase := 1000, acqWindow := 2000, tovOffset := 2000, closeMargin := 2000, budget := 100 }, by decide +kernel⟩,
   ⟨up, mk 1 0x0700 [(16, 31), (24, 10000000), (32, 1000), (40, 2000), (48, 2000), (56, 2000), (60, 99)], 31, Cadence.reset, { Cadence.reset with period := 10000000, phase := 1000, acqWindow := 2000, tovOffset := 2000, closeMargin := 2000, budget := 99 }, by decide +kernel⟩,
   ⟨w107, mk 1 0x0701 [(16, 31), (24, 100)], 31, { Cadence.reset with period := 10000000, phase := 1000, acqWindow := 2000, tovOffset := 2000, closeMargin := 2000, budget := 100 }, by decide +kernel⟩,
   ⟨up, mk 1 0x0702 [(16, 31)], 31, Cadence.reset, by decide +kernel⟩,
   ⟨w108, mk 1 0x0702 [(16, 31)], 31, { { Cadence.reset with period := 10000000, phase := 1000, acqWindow := 2000, tovOffset := 2000, closeMargin := 2000, budget := 100 } with st := .armed }, by decide +kernel⟩,
   ⟨w109, mk 1 0x0702 [(16, 31)], 31, { { Cadence.reset with period := 10000000, phase := 1000, acqWindow := 2000, tovOffset := 2000, closeMargin := 2000, budget := 100 } with st := .running }, by decide +kernel⟩,
   ⟨w110, mk 1 0x0706 [(16, 4095), (18, 2)], 31, Cadence.reset, { guarded := false, cadence := 31, enable := true, grid := none, cring := none }, by decide +kernel⟩,
   ⟨w111, mk 1 0x0706 [(16, 4095), (18, 2)], 31, Cadence.reset, { guarded := true, cadence := 31, enable := true, grid := none, cring := none }, by decide +kernel⟩⟩

theorem test_witness_TriggerDescriptors :
    (∃ (s : State) (d : Desc) (o : TrigOut), (Accepted s d (infoTrigConfig s d)) ∧ (o = { cadence := dfld d 17 0 5, activeLow := dbit d 18 0, enable := dbit d 18 7, enableNext := dbit d 18 7, divider := dfld d 19 0 8, divPhase := dfld d 20 0 8, offset := dfld d 24 0 64, width := dfld d 32 0 32, fired := none, activeUntil := none, resumeAt := 0 }) ∧ (outFits (cadOf s o.cadence) o = true) ∧ (s.trig.outs.find (dfld d 16 0 5) = none) ∧ ((cadOf s o.cadence).st = .stopped) ∧ (outputLive s (dfld d 16 0 5) = false ∨ o.activeLow = false)) ∧
    (∃ (s : State) (d : Desc) (o : TrigOut), (Accepted s d (infoTrigConfig s d)) ∧ (o = { cadence := dfld d 17 0 5, activeLow := dbit d 18 0, enable := dbit d 18 7, enableNext := dbit d 18 7, divider := dfld d 19 0 8, divPhase := dfld d 20 0 8, offset := dfld d 24 0 64, width := dfld d 32 0 32, fired := none, activeUntil := none, resumeAt := 0 }) ∧ (outFits (cadOf s o.cadence) o = true) ∧ (s.trig.outs.find (dfld d 16 0 5) = none) ∧ ((cadOf s o.cadence).st = .stopped) ∧ (outputLive s (dfld d 16 0 5) = true) ∧ (o.activeLow = true)) ∧
    (∃ (s : State) (d : Desc) (o : TrigOut), (Accepted s d (infoTrigConfig s d)) ∧ (o = { cadence := dfld d 17 0 5, activeLow := dbit d 18 0, enable := dbit d 18 7, enableNext := dbit d 18 7, divider := dfld d 19 0 8, divPhase := dfld d 20 0 8, offset := dfld d 24 0 64, width := dfld d 32 0 32, fired := none, activeUntil := none, resumeAt := 0 }) ∧ (outFits (cadOf s o.cadence) o = false)) ∧
    (∃ (s : State) (d : Desc) (a : Action), (Accepted s d (infoActConfig s d)) ∧ (a = { cadence := dfld d 17 0 5, port := dfld d 18 0 3, broadcast := dbit d 18 3, ackReq := dbit d 18 4, enable := dbit d 18 7, enableNext := dbit d 18 7, divider := dfld d 19 0 8, divPhase := dfld d 22 0 8, partner := dfld d 20 0 11, lead := if dfld d 23 0 8 = 0 then 20 else dfld d 23 0 8, offset := dfld d 24 0 64, deviceKey := dfld d 32 0 32, groupKey := dfld d 36 0 32, groupMask := dfld d 40 0 32, sent := none, held := none }) ∧ (actFits (cadOf s a.cadence) a = true) ∧ (dfld d 23 0 8 ≤ 100) ∧ (a.broadcast = true ∨ (s.ing.partners.find a.partner).isSome = true) ∧ (s.trig.actions.find (dfld d 16 0 6) = none) ∧ ((cadOf s a.cadence).st = .stopped)) ∧
    (∃ (s : State) (d : Desc) (a : Action), (Accepted s d (infoActConfig s d)) ∧ (a = { cadence := dfld d 17 0 5, port := dfld d 18 0 3, broadcast := dbit d 18 3, ackReq := dbit d 18 4, enable := dbit d 18 7, enableNext := dbit d 18 7, divider := dfld d 19 0 8, divPhase := dfld d 22 0 8, partner := dfld d 20 0 11, lead := if dfld d 23 0 8 = 0 then 20 else dfld d 23 0 8, offset := dfld d 24 0 64, deviceKey := dfld d 32 0 32, groupKey := dfld d 36 0 32, groupMask := dfld d 40 0 32, sent := none, held := none }) ∧ (actFits (cadOf s a.cadence) a = false ∨ 100 < dfld d 23 0 8)) ∧
    (∃ (s : State) (d : Desc) (c : _), (Accepted s d (infoTrigMon s d)) ∧ (s.cfg.streams.find (dfld d 16 0 7) = some c) ∧ (c.kind = kindCamera) ∧ (dbit d 17 7 = true ∨ dfld d 17 0 6 < 32) ∧ (1 ≤ dfld d 28 0 32) ∧ (dfld d 28 0 32 ≤ 65535)) ∧
    (∃ (s : State) (d : Desc) (c : _), (Accepted s d (infoTrigMon s d)) ∧ (s.cfg.streams.find (dfld d 16 0 7) = some c) ∧ (c.kind ≠ kindCamera ∨ dfld d 28 0 32 = 0 ∨ 65535 < dfld d 28 0 32)) :=
  ⟨⟨w107, mk 1 0x0703 [(16, 31), (17, 31), (18, 129), (19, 255), (20, 255), (24, 9999998), (32, 1000000000)], { cadence := 31, activeLow := true, enable := true, enableNext := true, divider := 255, divPhase := 255, offset := 9999998, width := 1000000000, fired := none, activeUntil := none, resumeAt := 0 }, by decide +kernel⟩,
   ⟨w112, mk 1 0x0703 [(16, 31), (17, 31), (18, 129), (19, 255), (20, 255), (24, 9999998), (32, 1000000000)], { cadence := 31, activeLow := true, enable := true, enableNext := true, divider := 255, divPhase := 255, offset := 9999998, width := 1000000000, fired := none, activeUntil := none, resumeAt := 0 }, by decide +kernel⟩,
   ⟨w107, mk 1 0x0703 [(16, 31), (17, 31), (18, 129), (19, 255), (20, 255), (24, 9999998), (32, 1000000010)], { cadence := 31, activeLow := true, enable := true, enableNext := true, divider := 255, divPhase := 255, offset := 9999998, width := 1000000010, fired := none, activeUntil := none, resumeAt := 0 }, by decide +kernel⟩,
   ⟨w107, mk 1 0x0704 [(16, 63), (17, 31), (18, 159), (19, 255), (20, 2047), (22, 255), (23, 100), (24, 9999998), (32, 1), (36, 2), (40, 3)], { cadence := 31, port := 7, broadcast := true, ackReq := true, enable := true, enableNext := true, divider := 255, divPhase := 255, partner := 2047, lead := 100, offset := 9999998, deviceKey := 1, groupKey := 2, groupMask := 3, sent := none, held := none }, by decide +kernel⟩,
   ⟨w107, mk 1 0x0704 [(16, 63), (17, 31), (18, 159), (19, 255), (20, 2047), (22, 255), (23, 101), (24, 9999998), (32, 1), (36, 2), (40, 3)], { cadence := 31, port := 7, broadcast := true, ackReq := true, enable := true, enableNext := true, divider := 255, divPhase := 255, partner := 2047, lead := 101, offset := 9999998, deviceKey := 1, groupKey := 2, groupMask := 3, sent := none, held := none }, by decide +kernel⟩,
   ⟨w113, mk 1 0x0705 [(16, 127), (17, 31), (18, 3), (20, 1), (24, 2), (28, 65535), (32, 4)], sc kindCamera 31, by decide +kernel⟩,
   ⟨w114, mk 1 0x0705 [(16, 127), (17, 31), (18, 3), (20, 1), (24, 2), (28, 65535), (32, 4)], sc kindImu 31, by decide +kernel⟩⟩

theorem test_witness_CadenceInstants :
    (∃ (s : State) (c : Nat) (x : Cadence), (x = cadOf s c) ∧ (x.runs x.nextStart = true)) ∧
    (∃ (s : State) (c : Nat) (x : Cadence), (x = cadOf s c) ∧ (x.runs x.nextStart = false)) ∧
    (∃ (s : State) (c : Nat) (x : Cadence), (x = cadOf s c) ∧ (x.st = .running) ∧ (x.nextClose < x.nextStart) ∧ (s.power.inReset.contains 2 = true)) ∧
    (∃ (s : State) (c : Nat) (x : Cadence), (x = cadOf s c) ∧ (x.st = .running) ∧ (x.nextClose < x.nextStart) ∧ (s.power.inReset.contains 2 = false)) ∧
    (∃ (s : State) (c : Nat) (x : Cadence), (x = cadOf s c) ∧ (x.st ≠ .running ∨ x.nextStart ≤ x.nextClose)) ∧
    (∃ (s : State) (c : Nat) (x : Cadence), (x = cadOf s c) ∧ (x.st = .running) ∧ (x.nextDeadline < x.nextClose ∨ x.last = some (x.nextDeadline - 1) ∧ 1 ≤ x.nextDeadline) ∧ ((∀ e, epochOf s c (x.nextDeadline - 1) = some e → e.epoch + 1 = x.nextDeadline → e.complete = true ∨ e.aborted = true))) ∧
    (∃ (s : State) (c : Nat) (x : Cadence) (e : _) (u : State) (v : State), (x = cadOf s c) ∧ (x.st = .running) ∧ (x.nextDeadline < x.nextClose ∨ x.last = some (x.nextDeadline - 1) ∧ 1 ≤ x.nextDeadline) ∧ (epochOf s c (x.nextDeadline - 1) = some e) ∧ (e.epoch + 1 = x.nextDeadline) ∧ (e.complete = false) ∧ (e.aborted = false) ∧ (u = setCad (advanceTo s (x.deadline x.nextDeadline)) c { x with nextDeadline := x.nextDeadline + 1 }) ∧ (v = abandon (if x.nextDeadline < x.nextClose then icuPulse u (32 + c) else u) e)) ∧
    (∃ (s : State) (c : Nat) (x : Cadence) (n : _) (e : _), (x = cadOf s c) ∧ (epochOf s c n = some e) ∧ (e.closed = true) ∧ (e.finished = false) ∧ (e.alignEnd.isSome = true) ∧ (e.geoEnd.isSome = true) ∧ ((∀ r ∈ e.flows, deferred e r = true ∨ r.ended = true)) ∧ ((∀ p ∈ e.cfg.grids, gridPending s e p.1 = true → (e.carrier p.1).any (deferred e) = true))) :=
  ⟨⟨w115, 31, { { Cadence.reset with period := 10000000, phase := 1000, acqWindow := 2000, tovOffset := 2000, closeMargin := 2000, budget := 100 } with st := .running, nextStart := 6, nextClose := 5, nextDeadline := 4 }, by decide +kernel⟩,
   ⟨up, 31, Cadence.reset, by decide +kernel⟩,
   ⟨w116, 31, { { Cadence.reset with period := 10000000, phase := 1000, acqWindow := 2000, tovOffset := 2000, closeMargin := 2000, budget := 100 } with st := .running, nextStart := 6, nextClose := 5, nextDeadline := 4 }, by decide +kernel⟩,
   ⟨w115, 31, { { Cadence.reset with period := 10000000, phase := 1000, acqWindow := 2000, tovOffset := 2000, closeMargin := 2000, budget := 100 } with st := .running, nextStart := 6, nextClose := 5, nextDeadline := 4 }, by decide +kernel⟩,
   ⟨up, 31, Cadence.reset, by decide +kernel⟩,
   ⟨w115, 31, { { Cadence.reset with period := 10000000, phase := 1000, acqWindow := 2000, tovOffset := 2000, closeMargin := 2000, budget := 100 } with st := .running, nextStart := 6, nextClose := 5, nextDeadline := 4 }, by decide +kernel, by decide +kernel, by decide +kernel, (fun e h => by cases h)⟩,
   ⟨w117, 31, { { Cadence.reset with period := 10000000, phase := 1000, acqWindow := 2000, tovOffset := 2000, closeMargin := 2000, budget := 100 } with st := .running, nextStart := 6, nextClose := 5, nextDeadline := 4 }, { ep 31 3 with alignEnd := none }, _, _, by decide +kernel, by decide +kernel, by decide +kernel, by decide +kernel, by decide +kernel, by decide +kernel, by decide +kernel, rfl, rfl⟩,
   ⟨w118, 31, { { Cadence.reset with period := 10000000, phase := 1000, acqWindow := 2000, tovOffset := 2000, closeMargin := 2000, budget := 100 } with st := .running, nextStart := 6, nextClose := 5, nextDeadline := 4 }, 5, { ep 31 5 with geoEnd := some 0 }, by decide +kernel⟩⟩

theorem test_witness_IntakeDescriptors :
    (∃ (s : State) (d : Desc) (p : _) (speed : _) (y : IngPort), (p = dfld d 16 0 4) ∧ (speed = dfld d 17 0 3) ∧ (Accepted s d (infoPortConfig s d)) ∧ (y = { ingPort s p with speed := speed, vlanEn := dbit d 18 0, ipv4En := dbit d 18 1, ipv6En := dbit d 18 2, vid := dfld d 20 0 12, mac := dfld d 24 0 48, ipv4 := dfld d 32 0 32, ipv6 := dfld d 40 0 128 }) ∧ (p ≤ 9) ∧ (speed ≤ 4) ∧ ((8 ≤ p → speed ≤ 2)) ∧ (portBusy s p = false) ∧ (((ingPort s p).speed = 0 ↔ speed = 0))) ∧
    (∃ (s : State) (d : Desc) (p : _) (speed : _) (y : IngPort), (p = dfld d 16 0 4) ∧ (speed = dfld d 17 0 3) ∧ (Accepted s d (infoPortConfig s d)) ∧ (y = { ingPort s p with speed := speed, vlanEn := dbit d 18 0, ipv4En := dbit d 18 1, ipv6En := dbit d 18 2, vid := dfld d 20 0 12, mac := dfld d 24 0 48, ipv4 := dfld d 32 0 32, ipv6 := dfld d 40 0 128 }) ∧ (p ≤ 9) ∧ (speed ≤ 4) ∧ ((8 ≤ p → speed ≤ 2)) ∧ (portBusy s p = false) ∧ (¬((ingPort s p).speed = 0 ↔ speed = 0))) ∧
    (∃ (s : State) (d : Desc) (p : _) (speed : _), (p = dfld d 16 0 4) ∧ (speed = dfld d 17 0 3) ∧ (Accepted s d (infoPortConfig s d)) ∧ (9 < p ∨ 4 < speed ∨ (8 ≤ p ∧ 3 ≤ speed) ∨ portBusy s p = true)) ∧
    (∃ (s : State) (d : Desc) (k : _) (x : Partner), (k = dfld d 16 0 11) ∧ (x = { port := dfld d 18 0 4, proto := dfld d 19 0 2, match_ := dfld d 20 0 2, program := dfld d 21 0 6, udpDst := dfld d 22 0 16, peerMac := dfld d 24 0 48, peerIp := if dfld d 20 0 2 = 2 then dfld d 32 0 128 else dfld d 32 0 32, publisher := dfld d 48 0 64, writerGroup := dfld d 56 0 16 }) ∧ (Accepted s d (infoPartnerSet s d)) ∧ (x.port ≤ 9) ∧ (x.match_ ≤ 2) ∧ (protoFits x.port x.proto = true) ∧ (s.ing.partners.any (fun p => p.1 != k && p.2.sameKey x) = false)) ∧
    (∃ (s : State) (d : Desc) (k : _) (x : Partner), (k = dfld d 16 0 11) ∧ (x = { port := dfld d 18 0 4, proto := dfld d 19 0 2, match_ := dfld d 20 0 2, program := dfld d 21 0 6, udpDst := dfld d 22 0 16, peerMac := dfld d 24 0 48, peerIp := if dfld d 20 0 2 = 2 then dfld d 32 0 128 else dfld d 32 0 32, publisher := dfld d 48 0 64, writerGroup := dfld d 56 0 16 }) ∧ (Accepted s d (infoPartnerSet s d)) ∧ (9 < x.port ∨ 2 < x.match_ ∨ protoFits x.port x.proto = false ∨ s.ing.partners.any (fun p => p.1 != k && p.2.sameKey x) = true)) ∧
    (∃ (s : State) (d : Desc), (Accepted s d (infoPartnerClear s d)) ∧ (streamsOf s (dfld d 16 0 11) ≠ [])) ∧
    (∃ (s : State) (d : Desc), (Accepted s d (infoPartnerClear s d)) ∧ (streamsOf s (dfld d 16 0 11) = [])) ∧
    (∃ (s : State) (d : Desc), (Accepted s d (infoUcodeLoad s d)) ∧ (dfld d 24 0 64 % 8 ≠ 0 ∨ programUsed s (dfld d 16 0 6) = true)) ∧
    (∃ (s : State) (d : Desc) (st : _) (bs : _) (u : _), (Accepted s d (infoUcodeLoad s d)) ∧ (dfld d 24 0 64 % 8 = 0) ∧ (programUsed s (dfld d 16 0 6) = false) ∧ (devRead (markStarted s d) (intakeWho d) (dfld d 24 0 64) 1024 = (st, bs, u)) ∧ (st = stOk)) ∧
    (∃ (s : State) (d : Desc) (st : _) (bs : _) (u : _), (Accepted s d (infoUcodeLoad s d)) ∧ (dfld d 24 0 64 % 8 = 0) ∧ (programUsed s (dfld d 16 0 6) = false) ∧ (devRead (markStarted s d) (intakeWho d) (dfld d 24 0 64) 1024 = (st, bs, u)) ∧ (st ≠ stOk)) ∧
    (∃ (s : State) (d : Desc) (k : _) (r : TagRun), (k = dfld d 16 0 7) ∧ (Accepted s d (infoTagMap s d)) ∧ (r = { firstField := dfld d 18 0 11, firstTag := dfld d 20 0 14, count := dfld d 22 0 12, type := dfld d 24 0 4, utcOffset := dfld d 26 0 16 }) ∧ (s.cfg.streams.find k = none)) ∧
    (∃ (s : State) (d : Desc) (k : _) (r : TagRun) (c : _), (k = dfld d 16 0 7) ∧ (Accepted s d (infoTagMap s d)) ∧ (r = { firstField := dfld d 18 0 11, firstTag := dfld d 20 0 14, count := dfld d 22 0 12, type := dfld d 24 0 4, utcOffset := dfld d 26 0 16 }) ∧ (s.cfg.streams.find k = some c) ∧ (c.kind = kindTag) ∧ (r.count ≠ 0) ∧ (r.firstField + r.count ≤ 2048) ∧ (r.firstTag + r.count ≤ 16384) ∧ (r.type ≤ 11) ∧ (r.firstField ≤ mappedCount c.tags) ∧ ((r.type = 0 ∨ ∀ p ∈ s.cfg.streams, p.1 ≠ k → ∀ t ∈ runTags p.2.tags, t < r.firstTag ∨ r.firstTag + r.count ≤ t))) ∧
    (∃ (s : State) (d : Desc) (k : _) (r : TagRun) (c : _), (k = dfld d 16 0 7) ∧ (Accepted s d (infoTagMap s d)) ∧ (r = { firstField := dfld d 18 0 11, firstTag := dfld d 20 0 14, count := dfld d 22 0 12, type := dfld d 24 0 4, utcOffset := dfld d 26 0 16 }) ∧ (s.cfg.streams.find k = some c) ∧ (c.kind ≠ kindTag ∨ r.count = 0 ∨ 2048 < r.firstField + r.count ∨ 16384 < r.firstTag + r.count ∨ 11 < r.type ∨ mappedCount c.tags < r.firstField ∨ (r.type ≠ 0 ∧ ∃ p ∈ s.cfg.streams, p.1 ≠ k ∧ ∃ t ∈ runTags p.2.tags, r.firstTag ≤ t ∧ t < r.firstTag + r.count))) ∧
    (∃ (s : State) (d : Desc), (Accepted s d (infoTagRead s d))) :=
  ⟨⟨w119, mk 1 0x0800 [(16, 9), (17, 2), (18, 7), (20, 4095), (24, 0x123456789ABC), (32, 5), (40, 6)], 9, 2, { ingPort (w119) (9) with speed := (2), vlanEn := dbit (mk 1 0x0800 [(16, 9), (17, 2), (18, 7), (20, 4095), (24, 0x123456789ABC), (32, 5), (40, 6)]) 18 0, ipv4En := dbit (mk 1 0x0800 [(16, 9), (17, 2), (18, 7), (20, 4095), (24, 0x123456789ABC), (32, 5), (40, 6)]) 18 1, ipv6En := dbit (mk 1 0x0800 [(16, 9), (17, 2), (18, 7), (20, 4095), (24, 0x123456789ABC), (32, 5), (40, 6)]) 18 2, vid := dfld (mk 1 0x0800 [(16, 9), (17, 2), (18, 7), (20, 4095), (24, 0x123456789ABC), (32, 5), (40, 6)]) 20 0 12, mac := dfld (mk 1 0x0800 [(16, 9), (17, 2), (18, 7), (20, 4095), (24, 0x123456789ABC), (32, 5), (40, 6)]) 24 0 48, ipv4 := dfld (mk 1 0x0800 [(16, 9), (17, 2), (18, 7), (20, 4095), (24, 0x123456789ABC), (32, 5), (40, 6)]) 32 0 32, ipv6 := dfld (mk 1 0x0800 [(16, 9), (17, 2), (18, 7), (20, 4095), (24, 0x123456789ABC), (32, 5), (40, 6)]) 40 0 128 }, by decide +kernel⟩,
   ⟨up, mk 1 0x0800 [(16, 9), (17, 2), (18, 7), (20, 4095), (24, 0x123456789ABC), (32, 5), (40, 6)], 9, 2, { ingPort (up) (9) with speed := (2), vlanEn := dbit (mk 1 0x0800 [(16, 9), (17, 2), (18, 7), (20, 4095), (24, 0x123456789ABC), (32, 5), (40, 6)]) 18 0, ipv4En := dbit (mk 1 0x0800 [(16, 9), (17, 2), (18, 7), (20, 4095), (24, 0x123456789ABC), (32, 5), (40, 6)]) 18 1, ipv6En := dbit (mk 1 0x0800 [(16, 9), (17, 2), (18, 7), (20, 4095), (24, 0x123456789ABC), (32, 5), (40, 6)]) 18 2, vid := dfld (mk 1 0x0800 [(16, 9), (17, 2), (18, 7), (20, 4095), (24, 0x123456789ABC), (32, 5), (40, 6)]) 20 0 12, mac := dfld (mk 1 0x0800 [(16, 9), (17, 2), (18, 7), (20, 4095), (24, 0x123456789ABC), (32, 5), (40, 6)]) 24 0 48, ipv4 := dfld (mk 1 0x0800 [(16, 9), (17, 2), (18, 7), (20, 4095), (24, 0x123456789ABC), (32, 5), (40, 6)]) 32 0 32, ipv6 := dfld (mk 1 0x0800 [(16, 9), (17, 2), (18, 7), (20, 4095), (24, 0x123456789ABC), (32, 5), (40, 6)]) 40 0 128 }, by decide +kernel⟩,
   ⟨up, mk 1 0x0800 [(16, 9), (17, 3), (18, 7), (20, 4095), (24, 0x123456789ABC), (32, 5), (40, 6)], 9, 3, by decide +kernel⟩,
   ⟨up, mk 1 0x0801 [(16, 2047), (18, 9), (19, 2), (20, 2), (21, 63), (22, 65535), (24, 9), (32, 1), (48, 2), (56, 3)], 2047, { port := dfld (mk 1 0x0801 [(16, 2047), (18, 9), (19, 2), (20, 2), (21, 63), (22, 65535), (24, 9), (32, 1), (48, 2), (56, 3)]) 18 0 4, proto := dfld (mk 1 0x0801 [(16, 2047), (18, 9), (19, 2), (20, 2), (21, 63), (22, 65535), (24, 9), (32, 1), (48, 2), (56, 3)]) 19 0 2, match_ := dfld (mk 1 0x0801 [(16, 2047), (18, 9), (19, 2), (20, 2), (21, 63), (22, 65535), (24, 9), (32, 1), (48, 2), (56, 3)]) 20 0 2, program := dfld (mk 1 0x0801 [(16, 2047), (18, 9), (19, 2), (20, 2), (21, 63), (22, 65535), (24, 9), (32, 1), (48, 2), (56, 3)]) 21 0 6, udpDst := dfld (mk 1 0x0801 [(16, 2047), (18, 9), (19, 2), (20, 2), (21, 63), (22, 65535), (24, 9), (32, 1), (48, 2), (56, 3)]) 22 0 16, peerMac := dfld (mk 1 0x0801 [(16, 2047), (18, 9), (19, 2), (20, 2), (21, 63), (22, 65535), (24, 9), (32, 1), (48, 2), (56, 3)]) 24 0 48, peerIp := if dfld (mk 1 0x0801 [(16, 2047), (18, 9), (19, 2), (20, 2), (21, 63), (22, 65535), (24, 9), (32, 1), (48, 2), (56, 3)]) 20 0 2 = 2 then dfld (mk 1 0x0801 [(16, 2047), (18, 9), (19, 2), (20, 2), (21, 63), (22, 65535), (24, 9), (32, 1), (48, 2), (56, 3)]) 32 0 128 else dfld (mk 1 0x0801 [(16, 2047), (18, 9), (19, 2), (20, 2), (21, 63), (22, 65535), (24, 9), (32, 1), (48, 2), (56, 3)]) 32 0 32, publisher := dfld (mk 1 0x0801 [(16, 2047), (18, 9), (19, 2), (20, 2), (21, 63), (22, 65535), (24, 9), (32, 1), (48, 2), (56, 3)]) 48 0 64, writerGroup := dfld (mk 1 0x0801 [(16, 2047), (18, 9), (19, 2), (20, 2), (21, 63), (22, 65535), (24, 9), (32, 1), (48, 2), (56, 3)]) 56 0 16 }, by decide +kernel⟩,
   ⟨up, mk 1 0x0801 [(16, 2047), (18, 10), (19, 2), (20, 2), (21, 63), (22, 65535), (24, 9), (32, 1), (48, 2), (56, 3)], 2047, { port := dfld (mk 1 0x0801 [(16, 2047), (18, 10), (19, 2), (20, 2), (21, 63), (22, 65535), (24, 9), (32, 1), (48, 2), (56, 3)]) 18 0 4, proto := dfld (mk 1 0x0801 [(16, 2047), (18, 10), (19, 2), (20, 2), (21, 63), (22, 65535), (24, 9), (32, 1), (48, 2), (56, 3)]) 19 0 2, match_ := dfld (mk 1 0x0801 [(16, 2047), (18, 10), (19, 2), (20, 2), (21, 63), (22, 65535), (24, 9), (32, 1), (48, 2), (56, 3)]) 20 0 2, program := dfld (mk 1 0x0801 [(16, 2047), (18, 10), (19, 2), (20, 2), (21, 63), (22, 65535), (24, 9), (32, 1), (48, 2), (56, 3)]) 21 0 6, udpDst := dfld (mk 1 0x0801 [(16, 2047), (18, 10), (19, 2), (20, 2), (21, 63), (22, 65535), (24, 9), (32, 1), (48, 2), (56, 3)]) 22 0 16, peerMac := dfld (mk 1 0x0801 [(16, 2047), (18, 10), (19, 2), (20, 2), (21, 63), (22, 65535), (24, 9), (32, 1), (48, 2), (56, 3)]) 24 0 48, peerIp := if dfld (mk 1 0x0801 [(16, 2047), (18, 10), (19, 2), (20, 2), (21, 63), (22, 65535), (24, 9), (32, 1), (48, 2), (56, 3)]) 20 0 2 = 2 then dfld (mk 1 0x0801 [(16, 2047), (18, 10), (19, 2), (20, 2), (21, 63), (22, 65535), (24, 9), (32, 1), (48, 2), (56, 3)]) 32 0 128 else dfld (mk 1 0x0801 [(16, 2047), (18, 10), (19, 2), (20, 2), (21, 63), (22, 65535), (24, 9), (32, 1), (48, 2), (56, 3)]) 32 0 32, publisher := dfld (mk 1 0x0801 [(16, 2047), (18, 10), (19, 2), (20, 2), (21, 63), (22, 65535), (24, 9), (32, 1), (48, 2), (56, 3)]) 48 0 64, writerGroup := dfld (mk 1 0x0801 [(16, 2047), (18, 10), (19, 2), (20, 2), (21, 63), (22, 65535), (24, 9), (32, 1), (48, 2), (56, 3)]) 56 0 16 }, by decide +kernel⟩,
   ⟨w120, mk 1 0x0802 [(16, 7)], by decide +kernel⟩,
   ⟨w121, mk 1 0x0802 [(16, 7)], by decide +kernel⟩,
   ⟨up, mk 1 0x0805 [(16, 63), (24, 12)], by decide +kernel⟩,
   ⟨upm, mk 1 0x0805 [(16, 63), (24, 8)], (devRead (markStarted upm (mk 1 0x0805 [(16, 63), (24, 8)])) (intakeWho (mk 1 0x0805 [(16, 63), (24, 8)])) 8 1024).1, (devRead (markStarted upm (mk 1 0x0805 [(16, 63), (24, 8)])) (intakeWho (mk 1 0x0805 [(16, 63), (24, 8)])) 8 1024).2.1, (devRead (markStarted upm (mk 1 0x0805 [(16, 63), (24, 8)])) (intakeWho (mk 1 0x0805 [(16, 63), (24, 8)])) 8 1024).2.2, by decide +kernel, by decide +kernel, by decide +kernel, rfl, by decide +kernel⟩,
   ⟨up, mk 1 0x0805 [(16, 63), (24, 8)], (devRead (markStarted up (mk 1 0x0805 [(16, 63), (24, 8)])) (intakeWho (mk 1 0x0805 [(16, 63), (24, 8)])) 8 1024).1, (devRead (markStarted up (mk 1 0x0805 [(16, 63), (24, 8)])) (intakeWho (mk 1 0x0805 [(16, 63), (24, 8)])) 8 1024).2.1, (devRead (markStarted up (mk 1 0x0805 [(16, 63), (24, 8)])) (intakeWho (mk 1 0x0805 [(16, 63), (24, 8)])) 8 1024).2.2, by decide +kernel, by decide +kernel, by decide +kernel, rfl, by decide +kernel⟩,
   ⟨up, mk 1 0x0806 [(16, 127), (18, 2), (20, 16383), (22, 1), (24, 11), (26, 37)], 127, { firstField := 2, firstTag := 16383, count := 1, type := 11, utcOffset := 37 }, by decide +kernel⟩,
   ⟨w122, mk 1 0x0806 [(16, 127), (18, 2), (20, 16383), (22, 1), (24, 11), (26, 37)], 127, { firstField := 2, firstTag := 16383, count := 1, type := 11, utcOffset := 37 }, { sc kindTag 3 with tags := [{ firstField := 0, firstTag := 0, count := 2, type := 1, utcOffset := 0 }] }, by decide +kernel⟩,
   ⟨w122, mk 1 0x0806 [(16, 127), (18, 3), (20, 16383), (22, 1), (24, 11), (26, 37)], 127, { firstField := 3, firstTag := 16383, count := 1, type := 11, utcOffset := 37 }, { sc kindTag 3 with tags := [{ firstField := 0, firstTag := 0, count := 2, type := 1, utcOffset := 0 }] }, by decide +kernel⟩,
   ⟨up, mk 1 0x0808 [(16, 16383)], by decide +kernel⟩⟩

theorem test_witness_StreamDescriptors :
    (∃ (s : State) (d : Desc) (k : Nat) (old : Option StreamCfg) (c : StreamCfg), (k = dfld d 16 0 7) ∧ (old = s.cfg.streams.find k) ∧ (c = { old.getD (newStream s k) with kind := dfld d 17 0 3, cadence := dfld d 18 0 5, sig := dbit d 19 0, cnt := dbit d 19 1, acceptPartial := dbit d 19 2, source := dfld d 20 0 11, field := dbit d 21 7, slotLog2 := dfld d 22 0 5, slotsLog2 := dfld d 23 0 4, base := dfld d 24 0 48, selector := dfld d 32 0 32, latency := dfld d 36 0 32, width := dfld d 40 0 16, height := dfld d 42 0 16, format := dfld d 44 0 4, did := d.did }) ∧ (Accepted s d (infoStreamConfig s d)) ∧ (c.kind ≤ 5) ∧ (sourceOk s k c = true) ∧ (8 ≤ c.slotLog2) ∧ (c.slotLog2 ≤ 26) ∧ (2 ≤ c.slotsLog2) ∧ (c.slotsLog2 ≤ 10) ∧ (c.base % 65536 = 0) ∧ (c.format ≤ 2) ∧ (streamGuarded s k = false ∨ mirageLost old c = false)) ∧
    (∃ (s : State) (d : Desc) (k : Nat) (old : Option StreamCfg) (c : StreamCfg), (k = dfld d 16 0 7) ∧ (old = s.cfg.streams.find k) ∧ (c = { old.getD (newStream s k) with kind := dfld d 17 0 3, cadence := dfld d 18 0 5, sig := dbit d 19 0, cnt := dbit d 19 1, acceptPartial := dbit d 19 2, source := dfld d 20 0 11, field := dbit d 21 7, slotLog2 := dfld d 22 0 5, slotsLog2 := dfld d 23 0 4, base := dfld d 24 0 48, selector := dfld d 32 0 32, latency := dfld d 36 0 32, width := dfld d 40 0 16, height := dfld d 42 0 16, format := dfld d 44 0 4, did := d.did }) ∧ (Accepted s d (infoStreamConfig s d)) ∧ (c.kind ≤ 5) ∧ (sourceOk s k c = true) ∧ (8 ≤ c.slotLog2) ∧ (c.slotLog2 ≤ 26) ∧ (2 ≤ c.slotsLog2) ∧ (c.slotsLog2 ≤ 10) ∧ (c.base % 65536 = 0) ∧ (c.format ≤ 2) ∧ (streamGuarded s k = true) ∧ (mirageLost old c = true)) ∧
    (∃ (s : State) (d : Desc) (k : Nat) (old : Option StreamCfg) (c : StreamCfg), (k = dfld d 16 0 7) ∧ (old = s.cfg.streams.find k) ∧ (c = { old.getD (newStream s k) with kind := dfld d 17 0 3, cadence := dfld d 18 0 5, sig := dbit d 19 0, cnt := dbit d 19 1, acceptPartial := dbit d 19 2, source := dfld d 20 0 11, field := dbit d 21 7, slotLog2 := dfld d 22 0 5, slotsLog2 := dfld d 23 0 4, base := dfld d 24 0 48, selector := dfld d 32 0 32, latency := dfld d 36 0 32, width := dfld d 40 0 16, height := dfld d 42 0 16, format := dfld d 44 0 4, did := d.did }) ∧ (Accepted s d (infoStreamConfig s d)) ∧ (5 < c.kind ∨ sourceOk s k c = false ∨ c.slotLog2 < 8 ∨ 26 < c.slotLog2 ∨ c.slotsLog2 < 2 ∨ 10 < c.slotsLog2 ∨ c.base % 65536 ≠ 0 ∨ 2 < c.format)) ∧
    (∃ (s : State) (d : Desc) (k : Nat), (k = dfld d 16 0 7) ∧ (Accepted s d (infoStreamEnable s d)) ∧ (s.cfg.streams.find k = none)) ∧
    (∃ (s : State) (d : Desc) (k : Nat) (c : _), (k = dfld d 16 0 7) ∧ (Accepted s d (infoStreamEnable s d)) ∧ (s.cfg.streams.find k = some c) ∧ (dbit d 17 0 = true) ∧ ((streamOf s k).isOn = true)) ∧
    (∃ (s : State) (d : Desc) (k : Nat) (c : _), (k = dfld d 16 0 7) ∧ (Accepted s d (infoStreamEnable s d)) ∧ (s.cfg.streams.find k = some c) ∧ (dbit d 17 0 = true) ∧ ((streamOf s k).isOn = false) ∧ ((c.kind ≠ kindCamera ∧ c.kind ≠ kindScan) ∨ (streamOf s k).started = true) ∧ (cadArmed s c.cadence = true)) ∧
    (∃ (s : State) (d : Desc) (k : Nat) (c : _), (k = dfld d 16 0 7) ∧ (Accepted s d (infoStreamEnable s d)) ∧ (s.cfg.streams.find k = some c) ∧ (dbit d 17 0 = true) ∧ ((streamOf s k).isOn = false) ∧ ((c.kind ≠ kindCamera ∧ c.kind ≠ kindScan) ∨ (streamOf s k).started = true) ∧ (cadArmed s c.cadence = false)) ∧
    (∃ (s : State) (d : Desc) (k : Nat) (c : _), (k = dfld d 16 0 7) ∧ (Accepted s d (infoStreamEnable s d)) ∧ (s.cfg.streams.find k = some c) ∧ (dbit d 17 0 = true) ∧ ((streamOf s k).isOn = false) ∧ (c.kind = kindCamera ∨ c.kind = kindScan) ∧ ((streamOf s k).started = false)) ∧
    (∃ (s : State) (d : Desc) (k : Nat) (c : _), (k = dfld d 16 0 7) ∧ (Accepted s d (infoStreamEnable s d)) ∧ (s.cfg.streams.find k = some c) ∧ (dbit d 17 0 = false) ∧ ((streamOf s k).enabled = true) ∧ (cadArmed s c.cadence = true)) ∧
    (∃ (s : State) (d : Desc) (k : Nat) (c : _), (k = dfld d 16 0 7) ∧ (Accepted s d (infoStreamEnable s d)) ∧ (s.cfg.streams.find k = some c) ∧ (dbit d 17 0 = false) ∧ ((streamOf s k).enabled = false ∨ cadArmed s c.cadence = false) ∧ ((streamOf s k).starting = none) ∧ (s.trig.arming = [])) ∧
    (∃ (s : State) (d : Desc) (k : Nat) (c : _), (k = dfld d 16 0 7) ∧ (Accepted s d (infoStreamEnable s d)) ∧ (s.cfg.streams.find k = some c) ∧ (dbit d 17 0 = false) ∧ ((streamOf s k).enabled = false ∨ cadArmed s c.cadence = false)) ∧
    (∃ (s : State) (d : Desc) (k : Nat), (k = dfld d 16 0 7) ∧ (Accepted s d (infoStreamDelete s d)) ∧ (s.cfg.streams.find k = none)) ∧
    (∃ (s : State) (d : Desc) (k : Nat) (c : _), (k = dfld d 16 0 7) ∧ (Accepted s d (infoStreamDelete s d)) ∧ (s.cfg.streams.find k = some c) ∧ (streamGuarded s k = true)) ∧
    (∃ (s : State) (d : Desc) (k : Nat) (c : _), (k = dfld d 16 0 7) ∧ (Accepted s d (infoStreamDelete s d)) ∧ (s.cfg.streams.find k = some c) ∧ (streamGuarded s k = false) ∧ ((streamOf s k).isOn = true ∨ streamNamed s k = true)) ∧
    (∃ (s : State) (d : Desc) (k : Nat) (c : _), (k = dfld d 16 0 7) ∧ (Accepted s d (infoStreamDelete s d)) ∧ (s.cfg.streams.find k = some c) ∧ (streamGuarded s k = false) ∧ ((streamOf s k).isOn = false) ∧ (streamNamed s k = false)) ∧
    (∃ (s : State) (d : Desc) (k : Nat) (c : _) (pattern : _) (len : _), (k = dfld d 16 0 7) ∧ (pattern = dfld d 17 0 2) ∧ (len = dfld d 32 0 14) ∧ (Accepted s d (infoTestInject s d)) ∧ (streamCfg s k = some c) ∧ (pattern ≠ 3) ∧ (c.kind = kindCamera) ∧ ((pattern = 2 → dfld d 20 0 32 ≠ 0)) ∧ (((streamOf s k).isActive = false ∨ (cadOf s c.cadence).st ≠ .running))) ∧
    (∃ (s : State) (d : Desc) (k : Nat) (c : _) (pattern : _) (len : _) (st : _) (bs : _) (u : _), (k = dfld d 16 0 7) ∧ (pattern = dfld d 17 0 2) ∧ (len = dfld d 32 0 14) ∧ (Accepted s d (infoTestInject s d)) ∧ (streamCfg s k = some c) ∧ (pattern = 3) ∧ (c.kind = kindCamera ∨ c.kind = kindScan ∨ c.kind = kindImu) ∧ (len ≠ 0) ∧ (len ≤ 9000) ∧ (((streamOf s k).isActive = false ∨ (cadOf s c.cadence).st ≠ .running)) ∧ (devRead (markStarted s d) (intakeWho d) (dfld d 24 0 48) len = (st, bs, u)) ∧ (st ≠ stOk)) ∧
    (∃ (s : State) (d : Desc) (k : Nat) (c : _) (pattern : _) (len : _) (st : _) (bs : _) (u : _), (k = dfld d 16 0 7) ∧ (pattern = dfld d 17 0 2) ∧ (len = dfld d 32 0 14) ∧ (Accepted s d (infoTestInject s d)) ∧ (streamCfg s k = some c) ∧ (pattern = 3) ∧ (c.kind = kindCamera ∨ c.kind = kindScan ∨ c.kind = kindImu) ∧ (len ≠ 0) ∧ (len ≤ 9000) ∧ (((streamOf s k).isActive = false ∨ (cadOf s c.cadence).st ≠ .running)) ∧ (devRead (markStarted s d) (intakeWho d) (dfld d 24 0 48) len = (st, bs, u)) ∧ (st = stOk)) ∧
    (∃ (s : State) (d : Desc) (k : Nat) (c : _) (pattern : _) (len : _), (k = dfld d 16 0 7) ∧ (pattern = dfld d 17 0 2) ∧ (len = dfld d 32 0 14) ∧ (Accepted s d (infoTestInject s d)) ∧ (streamCfg s k = some c) ∧ ((c.kind ≠ kindCamera ∧ (pattern ≠ 3 ∨ (c.kind ≠ kindScan ∧ c.kind ≠ kindImu))) ∨ (pattern = 2 ∧ dfld d 20 0 32 = 0) ∨ (pattern = 3 ∧ (len = 0 ∨ 9000 < len)) ∨ ((streamOf s k).isActive = true ∧ (cadOf s c.cadence).st = .running))) ∧
    (∃ (s : State) (d : Desc) (k : Nat), (k = dfld d 16 0 7) ∧ (Accepted s d (infoTestInject s d)) ∧ (streamCfg s k = none)) :=
  ⟨⟨up, mk 1 0x0803 [(16, 127), (17, 2), (18, 31), (19, 3), (20, 32775), (22, 26), (23, 10), (24, 65536), (44, 2)], 127, none, { (none).getD (newStream (up) (127)) with kind := dfld (mk 1 0x0803 [(16, 127), (17, 2), (18, 31), (19, 3), (20, 32775), (22, 26), (23, 10), (24, 65536), (44, 2)]) 17 0 3, cadence := dfld (mk 1 0x0803 [(16, 127), (17, 2), (18, 31), (19, 3), (20, 32775), (22, 26), (23, 10), (24, 65536), (44, 2)]) 18 0 5, sig := dbit (mk 1 0x0803 [(16, 127), (17, 2), (18, 31), (19, 3), (20, 32775), (22, 26), (23, 10), (24, 65536), (44, 2)]) 19 0, cnt := dbit (mk 1 0x0803 [(16, 127), (17, 2), (18, 31), (19, 3), (20, 32775), (22, 26), (23, 10), (24, 65536), (44, 2)]) 19 1, acceptPartial := dbit (mk 1 0x0803 [(16, 127), (17, 2), (18, 31), (19, 3), (20, 32775), (22, 26), (23, 10), (24, 65536), (44, 2)]) 19 2, source := dfld (mk 1 0x0803 [(16, 127), (17, 2), (18, 31), (19, 3), (20, 32775), (22, 26), (23, 10), (24, 65536), (44, 2)]) 20 0 11, field := dbit (mk 1 0x0803 [(16, 127), (17, 2), (18, 31), (19, 3), (20, 32775), (22, 26), (23, 10), (24, 65536), (44, 2)]) 21 7, slotLog2 := dfld (mk 1 0x0803 [(16, 127), (17, 2), (18, 31), (19, 3), (20, 32775), (22, 26), (23, 10), (24, 65536), (44, 2)]) 22 0 5, slotsLog2 := dfld (mk 1 0x0803 [(16, 127), (17, 2), (18, 31), (19, 3), (20, 32775), (22, 26), (23, 10), (24, 65536), (44, 2)]) 23 0 4, base := dfld (mk 1 0x0803 [(16, 127), (17, 2), (18, 31), (19, 3), (20, 32775), (22, 26), (23, 10), (24, 65536), (44, 2)]) 24 0 48, selector := dfld (mk 1 0x0803 [(16, 127), (17, 2), (18, 31), (19, 3), (20, 32775), (22, 26), (23, 10), (24, 65536), (44, 2)]) 32 0 32, latency := dfld (mk 1 0x0803 [(16, 127), (17, 2), (18, 31), (19, 3), (20, 32775), (22, 26), (23, 10), (24, 65536), (44, 2)]) 36 0 32, width := dfld (mk 1 0x0803 [(16, 127), (17, 2), (18, 31), (19, 3), (20, 32775), (22, 26), (23, 10), (24, 65536), (44, 2)]) 40 0 16, height := dfld (mk 1 0x0803 [(16, 127), (17, 2), (18, 31), (19, 3), (20, 32775), (22, 26), (23, 10), (24, 65536), (44, 2)]) 42 0 16, format := dfld (mk 1 0x0803 [(16, 127), (17, 2), (18, 31), (19, 3), (20, 32775), (22, 26), (23, 10), (24, 65536), (44, 2)]) 44 0 4, did := (mk 1 0x0803 [(16, 127), (17, 2), (18, 31), (19, 3), (20, 32775), (22, 26), (23, 10), (24, 65536), (44, 2)]).did }, by decide +kernel⟩,
   ⟨w123, mk 1 0x0803 [(16, 127), (17, 2), (18, 31), (19, 0), (20, 32775), (22, 26), (23, 10), (24, 65536), (44, 2)], 127, (some (sc kindImu 31)), { ((some (sc kindImu 31))).getD (newStream (w123) (127)) with kind := dfld (mk 1 0x0803 [(16, 127), (17, 2), (18, 31), (19, 0), (20, 32775), (22, 26), (23, 10), (24, 65536), (44, 2)]) 17 0 3, cadence := dfld (mk 1 0x0803 [(16, 127), (17, 2), (18, 31), (19, 0), (20, 32775), (22, 26), (23, 10), (24, 65536), (44, 2)]) 18 0 5, sig := dbit (mk 1 0x0803 [(16, 127), (17, 2), (18, 31), (19, 0), (20, 32775), (22, 26), (23, 10), (24, 65536), (44, 2)]) 19 0, cnt := dbit (mk 1 0x0803 [(16, 127), (17, 2), (18, 31), (19, 0), (20, 32775), (22, 26), (23, 10), (24, 65536), (44, 2)]) 19 1, acceptPartial := dbit (mk 1 0x0803 [(16, 127), (17, 2), (18, 31), (19, 0), (20, 32775), (22, 26), (23, 10), (24, 65536), (44, 2)]) 19 2, source := dfld (mk 1 0x0803 [(16, 127), (17, 2), (18, 31), (19, 0), (20, 32775), (22, 26), (23, 10), (24, 65536), (44, 2)]) 20 0 11, field := dbit (mk 1 0x0803 [(16, 127), (17, 2), (18, 31), (19, 0), (20, 32775), (22, 26), (23, 10), (24, 65536), (44, 2)]) 21 7, slotLog2 := dfld (mk 1 0x0803 [(16, 127), (17, 2), (18, 31), (19, 0), (20, 32775), (22, 26), (23, 10), (24, 65536), (44, 2)]) 22 0 5, slotsLog2 := dfld (mk 1 0x0803 [(16, 127), (17, 2), (18, 31), (19, 0), (20, 32775), (22, 26), (23, 10), (24, 65536), (44, 2)]) 23 0 4, base := dfld (mk 1 0x0803 [(16, 127), (17, 2), (18, 31), (19, 0), (20, 32775), (22, 26), (23, 10), (24, 65536), (44, 2)]) 24 0 48, selector := dfld (mk 1 0x0803 [(16, 127), (17, 2), (18, 31), (19, 0), (20, 32775), (22, 26), (23, 10), (24, 65536), (44, 2)]) 32 0 32, latency := dfld (mk 1 0x0803 [(16, 127), (17, 2), (18, 31), (19, 0), (20, 32775), (22, 26), (23, 10), (24, 65536), (44, 2)]) 36 0 32, width := dfld (mk 1 0x0803 [(16, 127), (17, 2), (18, 31), (19, 0), (20, 32775), (22, 26), (23, 10), (24, 65536), (44, 2)]) 40 0 16, height := dfld (mk 1 0x0803 [(16, 127), (17, 2), (18, 31), (19, 0), (20, 32775), (22, 26), (23, 10), (24, 65536), (44, 2)]) 42 0 16, format := dfld (mk 1 0x0803 [(16, 127), (17, 2), (18, 31), (19, 0), (20, 32775), (22, 26), (23, 10), (24, 65536), (44, 2)]) 44 0 4, did := (mk 1 0x0803 [(16, 127), (17, 2), (18, 31), (19, 0), (20, 32775), (22, 26), (23, 10), (24, 65536), (44, 2)]).did }, by decide +kernel⟩,
   ⟨up, mk 1 0x0803 [(16, 127), (17, 6), (18, 31), (19, 3), (20, 32775), (22, 26), (23, 10), (24, 65536), (44, 2)], 127, none, { (none).getD (newStream (up) (127)) with kind := dfld (mk 1 0x0803 [(16, 127), (17, 6), (18, 31), (19, 3), (20, 32775), (22, 26), (23, 10), (24, 65536), (44, 2)]) 17 0 3, cadence := dfld (mk 1 0x0803 [(16, 127), (17, 6), (18, 31), (19, 3), (20, 32775), (22, 26), (23, 10), (24, 65536), (44, 2)]) 18 0 5, sig := dbit (mk 1 0x0803 [(16, 127), (17, 6), (18, 31), (19, 3), (20, 32775), (22, 26), (23, 10), (24, 65536), (44, 2)]) 19 0, cnt := dbit (mk 1 0x0803 [(16, 127), (17, 6), (18, 31), (19, 3), (20, 32775), (22, 26), (23, 10), (24, 65536), (44, 2)]) 19 1, acceptPartial := dbit (mk 1 0x0803 [(16, 127), (17, 6), (18, 31), (19, 3), (20, 32775), (22, 26), (23, 10), (24, 65536), (44, 2)]) 19 2, source := dfld (mk 1 0x0803 [(16, 127), (17, 6), (18, 31), (19, 3), (20, 32775), (22, 26), (23, 10), (24, 65536), (44, 2)]) 20 0 11, field := dbit (mk 1 0x0803 [(16, 127), (17, 6), (18, 31), (19, 3), (20, 32775), (22, 26), (23, 10), (24, 65536), (44, 2)]) 21 7, slotLog2 := dfld (mk 1 0x0803 [(16, 127), (17, 6), (18, 31), (19, 3), (20, 32775), (22, 26), (23, 10), (24, 65536), (44, 2)]) 22 0 5, slotsLog2 := dfld (mk 1 0x0803 [(16, 127), (17, 6), (18, 31), (19, 3), (20, 32775), (22, 26), (23, 10), (24, 65536), (44, 2)]) 23 0 4, base := dfld (mk 1 0x0803 [(16, 127), (17, 6), (18, 31), (19, 3), (20, 32775), (22, 26), (23, 10), (24, 65536), (44, 2)]) 24 0 48, selector := dfld (mk 1 0x0803 [(16, 127), (17, 6), (18, 31), (19, 3), (20, 32775), (22, 26), (23, 10), (24, 65536), (44, 2)]) 32 0 32, latency := dfld (mk 1 0x0803 [(16, 127), (17, 6), (18, 31), (19, 3), (20, 32775), (22, 26), (23, 10), (24, 65536), (44, 2)]) 36 0 32, width := dfld (mk 1 0x0803 [(16, 127), (17, 6), (18, 31), (19, 3), (20, 32775), (22, 26), (23, 10), (24, 65536), (44, 2)]) 40 0 16, height := dfld (mk 1 0x0803 [(16, 127), (17, 6), (18, 31), (19, 3), (20, 32775), (22, 26), (23, 10), (24, 65536), (44, 2)]) 42 0 16, format := dfld (mk 1 0x0803 [(16, 127), (17, 6), (18, 31), (19, 3), (20, 32775), (22, 26), (23, 10), (24, 65536), (44, 2)]) 44 0 4, did := (mk 1 0x0803 [(16, 127), (17, 6), (18, 31), (19, 3), (20, 32775), (22, 26), (23, 10), (24, 65536), (44, 2)]).did }, by decide +kernel⟩,
   ⟨up, mk 1 0x0804 [(16, 127), (17, 1)], 127, by decide +kernel⟩,
   ⟨w124, mk 1 0x0804 [(16, 127), (17, 1)], 127, sc kindCamera 31, by decide +kernel⟩,
   ⟨w125, mk 1 0x0804 [(16, 127), (17, 1)], 127, sc kindImu 31, by decide +kernel⟩,
   ⟨w126, mk 1 0x0804 [(16, 127), (17, 1)], 127, sc kindImu 31, by decide +kernel⟩,
   ⟨w127, mk 1 0x0804 [(16, 127), (17, 1)], 127, sc kindCamera 31, by decide +kernel⟩,
   ⟨w128, mk 1 0x0804 [(16, 127), (17, 0)], 127, sc kindImu 31, by decide +kernel⟩,
   ⟨w129, mk 1 0x0804 [(16, 127), (17, 0)], 127, sc kindImu 31, by decide +kernel⟩,
   ⟨w129, mk 1 0x0804 [(16, 127), (17, 0)], 127, sc kindImu 31, by decide +kernel⟩,
   ⟨up, mk 1 0x0809 [(16, 127)], 127, by decide +kernel⟩,
   ⟨w130, mk 1 0x0809 [(16, 127)], 127, sc kindImu 31, by decide +kernel⟩,
   ⟨w129, mk 1 0x0809 [(16, 127)], 127, sc kindImu 31, by decide +kernel⟩,
   ⟨w126, mk 1 0x0809 [(16, 127)], 127, sc kindImu 31, by decide +kernel⟩,
   ⟨w127, mk 1 0x0807 [(16, 127), (17, 1), (20, 7)], 127, sc kindCamera 31, 1, 0, by decide +kernel⟩,
   ⟨w127, mk 1 0x0807 [(16, 127), (17, 3), (20, 7), (24, 8), (32, 9000)], 127, sc kindCamera 31, 3, 9000, (devRead (markStarted ({ up with cfg.streams := [(127, sc kindCamera 31)], ing.streams := [(127, Stream.reset)] }) (mk 1 0x0807 [(16, 127), (17, 3), (20, 7), (24, 8), (32, 9000)])) (intakeWho (mk 1 0x0807 [(16, 127), (17, 3), (20, 7), (24, 8), (32, 9000)])) 8 9000).1, (devRead (markStarted ({ up with cfg.streams := [(127, sc kindCamera 31)], ing.streams := [(127, Stream.reset)] }) (mk 1 0x0807 [(16, 127), (17, 3), (20, 7), (24, 8), (32, 9000)])) (intakeWho (mk 1 0x0807 [(16, 127), (17, 3), (20, 7), (24, 8), (32, 9000)])) 8 9000).2.1, (devRead (markStarted ({ up with cfg.streams := [(127, sc kindCamera 31)], ing.streams := [(127, Stream.reset)] }) (mk 1 0x0807 [(16, 127), (17, 3), (20, 7), (24, 8), (32, 9000)])) (intakeWho (mk 1 0x0807 [(16, 127), (17, 3), (20, 7), (24, 8), (32, 9000)])) 8 9000).2.2, by decide +kernel, by decide +kernel, by decide +kernel, by decide +kernel, by decide +kernel, by decide +kernel, by decide +kernel, by decide +kernel, by decide +kernel, by decide +kernel, rfl, by decide +kernel⟩,
   ⟨w131, mk 1 0x0807 [(16, 127), (17, 3), (20, 7), (24, 8), (32, 9000)], 127, sc kindCamera 31, 3, 9000, (devRead (markStarted ({ upm with cfg.streams := [(127, sc kindCamera 31)], ing.streams := [(127, Stream.reset)] }) (mk 1 0x0807 [(16, 127), (17, 3), (20, 7), (24, 8), (32, 9000)])) (intakeWho (mk 1 0x0807 [(16, 127), (17, 3), (20, 7), (24, 8), (32, 9000)])) 8 9000).1, (devRead (markStarted ({ upm with cfg.streams := [(127, sc kindCamera 31)], ing.streams := [(127, Stream.reset)] }) (mk 1 0x0807 [(16, 127), (17, 3), (20, 7), (24, 8), (32, 9000)])) (intakeWho (mk 1 0x0807 [(16, 127), (17, 3), (20, 7), (24, 8), (32, 9000)])) 8 9000).2.1, (devRead (markStarted ({ upm with cfg.streams := [(127, sc kindCamera 31)], ing.streams := [(127, Stream.reset)] }) (mk 1 0x0807 [(16, 127), (17, 3), (20, 7), (24, 8), (32, 9000)])) (intakeWho (mk 1 0x0807 [(16, 127), (17, 3), (20, 7), (24, 8), (32, 9000)])) 8 9000).2.2, by decide +kernel, by decide +kernel, by decide +kernel, by decide +kernel, by decide +kernel, by decide +kernel, by decide +kernel, by decide +kernel, by decide +kernel, by decide +kernel, rfl, by decide +kernel⟩,
   ⟨w127, mk 1 0x0807 [(16, 127), (17, 3), (20, 7), (24, 8), (32, 9001)], 127, sc kindCamera 31, 3, 9001, by decide +kernel⟩,
   ⟨up, mk 1 0x0807 [(16, 127), (17, 3), (20, 7), (24, 8), (32, 9000)], 127, by decide +kernel⟩⟩

theorem test_witness_ReceptionToSamples :
    (∃ (s : State) (f : Frame) (x : IngPort), (x = ingPort s f.port) ∧ (9 < f.port ∨ x.speed = 0 ∨ x.linkUp = false)) ∧
    (∃ (s : State) (f : Frame) (x : IngPort), (x = ingPort s f.port) ∧ (f.port ≤ 9) ∧ (x.speed ≠ 0) ∧ (x.linkUp = true) ∧ (frameMalformed f x = true)) ∧
    (∃ (s : State) (f : Frame) (x : IngPort) (other : _) (rx : _), (x = ingPort s f.port) ∧ (f.port ≤ 9) ∧ (x.speed ≠ 0) ∧ (x.linkUp = true) ∧ (other = ({ s with ing.ports := s.ing.ports.put f.port { x with unknown := satAdd 16 x.unknown 1 } } : State)) ∧ (rx = ({ s with ing.ports := s.ing.ports.put f.port { x with rx := satAdd 32 x.rx 1 } } : State)) ∧ (frameMalformed f x = false) ∧ (f.dstMac ≠ x.mac) ∧ (f.group = false)) ∧
    (∃ (s : State) (f : Frame) (x : IngPort) (other : _) (rx : _) (t : _), (x = ingPort s f.port) ∧ (f.port ≤ 9) ∧ (x.speed ≠ 0) ∧ (x.linkUp = true) ∧ (other = ({ s with ing.ports := s.ing.ports.put f.port { x with unknown := satAdd 16 x.unknown 1 } } : State)) ∧ (rx = ({ s with ing.ports := s.ing.ports.put f.port { x with rx := satAdd 32 x.rx 1 } } : State)) ∧ (frameMalformed f x = false) ∧ (f.dstMac = x.mac ∨ f.group = true) ∧ (f.content = .arp t) ∧ (x.ipv4En = true ∧ t = x.ipv4)) ∧
    (∃ (s : State) (f : Frame) (x : IngPort) (other : _) (rx : _) (t : _), (x = ingPort s f.port) ∧ (f.port ≤ 9) ∧ (x.speed ≠ 0) ∧ (x.linkUp = true) ∧ (other = ({ s with ing.ports := s.ing.ports.put f.port { x with unknown := satAdd 16 x.unknown 1 } } : State)) ∧ (rx = ({ s with ing.ports := s.ing.ports.put f.port { x with rx := satAdd 32 x.rx 1 } } : State)) ∧ (frameMalformed f x = false) ∧ (f.dstMac = x.mac ∨ f.group = true) ∧ (f.content = .arp t) ∧ (x.ipv4En = false ∨ t ≠ x.ipv4)) ∧
    (∃ (s : State) (f : Frame) (x : IngPort) (other : _) (rx : _) (t : _), (x = ingPort s f.port) ∧ (f.port ≤ 9) ∧ (x.speed ≠ 0) ∧ (x.linkUp = true) ∧ (other = ({ s with ing.ports := s.ing.ports.put f.port { x with unknown := satAdd 16 x.unknown 1 } } : State)) ∧ (rx = ({ s with ing.ports := s.ing.ports.put f.port { x with rx := satAdd 32 x.rx 1 } } : State)) ∧ (frameMalformed f x = false) ∧ (f.dstMac = x.mac ∨ f.group = true) ∧ (f.content = .solicit t) ∧ (x.ipv6En = true ∧ t = x.ipv6)) ∧
    (∃ (s : State) (f : Frame) (x : IngPort) (other : _) (rx : _) (t : _), (x = ingPort s f.port) ∧ (f.port ≤ 9) ∧ (x.speed ≠ 0) ∧ (x.linkUp = true) ∧ (other = ({ s with ing.ports := s.ing.ports.put f.port { x with unknown := satAdd 16 x.unknown 1 } } : State)) ∧ (rx = ({ s with ing.ports := s.ing.ports.put f.port { x with rx := satAdd 32 x.rx 1 } } : State)) ∧ (frameMalformed f x = false) ∧ (f.dstMac = x.mac ∨ f.group = true) ∧ (f.content = .solicit t) ∧ (x.ipv6En = false ∨ t ≠ x.ipv6)) ∧
    (∃ (s : State) (f : Frame) (x : IngPort) (other : _) (rx : _), (x = ingPort s f.port) ∧ (f.port ≤ 9) ∧ (x.speed ≠ 0) ∧ (x.linkUp = true) ∧ (other = ({ s with ing.ports := s.ing.ports.put f.port { x with unknown := satAdd 16 x.unknown 1 } } : State)) ∧ (rx = ({ s with ing.ports := s.ing.ports.put f.port { x with rx := satAdd 32 x.rx 1 } } : State)) ∧ (frameMalformed f x = false) ∧ (f.dstMac = x.mac ∨ f.group = true) ∧ (f.content = .ptp ∨ (f.content = .actionAck ∧ f.port < 8))) ∧
    (∃ (s : State) (f : Frame) (x : IngPort) (other : _) (rx : _), (x = ingPort s f.port) ∧ (f.port ≤ 9) ∧ (x.speed ≠ 0) ∧ (x.linkUp = true) ∧ (other = ({ s with ing.ports := s.ing.ports.put f.port { x with unknown := satAdd 16 x.unknown 1 } } : State)) ∧ (rx = ({ s with ing.ports := s.ing.ports.put f.port { x with rx := satAdd 32 x.rx 1 } } : State)) ∧ (frameMalformed f x = false) ∧ (f.dstMac = x.mac ∨ f.group = true) ∧ (f.content = .actionAck) ∧ (8 ≤ f.port)) ∧
    (∃ (s : State) (f : Frame) (x : IngPort) (other : _) (rx : _), (x = ingPort s f.port) ∧ (f.port ≤ 9) ∧ (x.speed ≠ 0) ∧ (x.linkUp = true) ∧ (other = ({ s with ing.ports := s.ing.ports.put f.port { x with unknown := satAdd 16 x.unknown 1 } } : State)) ∧ (rx = ({ s with ing.ports := s.ing.ports.put f.port { x with rx := satAdd 32 x.rx 1 } } : State)) ∧ (frameMalformed f x = false) ∧ (f.dstMac = x.mac ∨ f.group = true) ∧ ((∀ t, f.content ≠ .arp t)) ∧ ((∀ t, f.content ≠ .solicit t)) ∧ (f.content ≠ .ptp) ∧ (f.content ≠ .actionAck) ∧ (classify s f = none)) ∧
    (∃ (s : State) (f : Frame) (x : IngPort) (other : _) (rx : _) (k : _) (p : _), (x = ingPort s f.port) ∧ (f.port ≤ 9) ∧ (x.speed ≠ 0) ∧ (x.linkUp = true) ∧ (other = ({ s with ing.ports := s.ing.ports.put f.port { x with unknown := satAdd 16 x.unknown 1 } } : State)) ∧ (rx = ({ s with ing.ports := s.ing.ports.put f.port { x with rx := satAdd 32 x.rx 1 } } : State)) ∧ (frameMalformed f x = false) ∧ (f.dstMac = x.mac ∨ f.group = true) ∧ ((∀ t, f.content ≠ .arp t)) ∧ ((∀ t, f.content ≠ .solicit t)) ∧ (f.content ≠ .ptp) ∧ (f.content ≠ .actionAck) ∧ (classify s f = some (k, p)) ∧ (acceptable f p = false)) ∧
    (∃ (s : State) (f : Frame) (x : IngPort) (other : _) (rx : _) (k : _) (p : _), (x = ingPort s f.port) ∧ (f.port ≤ 9) ∧ (x.speed ≠ 0) ∧ (x.linkUp = true) ∧ (other = ({ s with ing.ports := s.ing.ports.put f.port { x with unknown := satAdd 16 x.unknown 1 } } : State)) ∧ (rx = ({ s with ing.ports := s.ing.ports.put f.port { x with rx := satAdd 32 x.rx 1 } } : State)) ∧ (frameMalformed f x = false) ∧ (f.dstMac = x.mac ∨ f.group = true) ∧ ((∀ t, f.content ≠ .arp t)) ∧ ((∀ t, f.content ≠ .solicit t)) ∧ (f.content ≠ .ptp) ∧ (f.content ≠ .actionAck) ∧ (classify s f = some (k, p)) ∧ (acceptable f p = true) ∧ (524288 < portBytes s f.port + f.length)) ∧
    (∃ (s : State) (f : Frame) (x : IngPort) (other : _) (rx : _) (k : _) (p : _), (x = ingPort s f.port) ∧ (f.port ≤ 9) ∧ (x.speed ≠ 0) ∧ (x.linkUp = true) ∧ (other = ({ s with ing.ports := s.ing.ports.put f.port { x with unknown := satAdd 16 x.unknown 1 } } : State)) ∧ (rx = ({ s with ing.ports := s.ing.ports.put f.port { x with rx := satAdd 32 x.rx 1 } } : State)) ∧ (frameMalformed f x = false) ∧ (f.dstMac = x.mac ∨ f.group = true) ∧ ((∀ t, f.content ≠ .arp t)) ∧ ((∀ t, f.content ≠ .solicit t)) ∧ (f.content ≠ .ptp) ∧ (f.content ≠ .actionAck) ∧ (classify s f = some (k, p)) ∧ (acceptable f p = true) ∧ (portBytes s f.port + f.length ≤ 524288)) ∧
    (∃ (port : Nat) (line : Bool) (modAbs : Bool) (los : Bool), (port ≤ 9) ∧ ((line && !modAbs && !los) = false)) ∧
    (∃ (s : State) (port : Nat), (port ≤ 9) ∧ ((ingPort s port).speed ≠ 0) ∧ (s.power.inReset.contains 7 = false) ∧ (s.dbg.tests port 1 = false)) ∧
    (∃ (s : State) (port : Nat), ((ingPort s port).speed = 0)) ∧
    (∃ (s : State) (n : Nat), (s.ing.waiting.filter (fun r => r.parser == n) = [])) ∧
    (∃ (s : State) (n : Nat) (r : _) (u : _), (nextFrame (s.ing.waiting.filter (fun r => r.parser == n)) = some r) ∧ (u = ({ s with ing.waiting := s.ing.waiting.erase r } : State))) ∧
    (∃ (s : State) (n : Nat) (r : RxFrame) (u : _) (p : _), (nextFrame (s.ing.waiting.filter (fun r => r.parser == n)) = some r) ∧ (u = ({ s with ing.waiting := s.ing.waiting.erase r } : State)) ∧ (r.partner = some p) ∧ (p.proto = 3) ∧ (r.content = .discovery)) ∧
    (∃ (s : State) (n : Nat) (ecc : Bool) (r : RxFrame) (u : State) (p : Partner) (bs : _) (v : State) (e : _), (nextFrame (s.ing.waiting.filter (fun r => r.parser == n)) = some r) ∧ (u = ({ s with ing.waiting := s.ing.waiting.erase r } : State)) ∧ (r.partner = some p) ∧ (p.proto = 2) ∧ (r.serial = false) ∧ (r.content = .raw bs) ∧ (v = tickFresh u) ∧ (parsePacket (fun sel => (endTarget v r sel).map (fun x => x.2.room)) (Tbl.at [] v.ing.programs p.program) bs = e) ∧ (ecc = true)) ∧
    (∃ (s : State) (n : Nat) (ecc : Bool) (r : RxFrame) (u : State) (p : Partner) (bs : _) (v : State) (e : _), (nextFrame (s.ing.waiting.filter (fun r => r.parser == n)) = some r) ∧ (u = ({ s with ing.waiting := s.ing.waiting.erase r } : State)) ∧ (r.partner = some p) ∧ (p.proto = 2) ∧ (r.serial = false) ∧ (r.content = .raw bs) ∧ (v = tickFresh u) ∧ (parsePacket (fun sel => (endTarget v r sel).map (fun x => x.2.room)) (Tbl.at [] v.ing.programs p.program) bs = e) ∧ (ecc = false) ∧ (e = .steps)) ∧
    (∃ (s : State) (n : Nat) (ecc : Bool) (r : RxFrame) (u : State) (p : Partner) (bs : _) (v : State) (e : _), (nextFrame (s.ing.waiting.filter (fun r => r.parser == n)) = some r) ∧ (u = ({ s with ing.waiting := s.ing.waiting.erase r } : State)) ∧ (r.partner = some p) ∧ (p.proto = 2) ∧ (r.serial = false) ∧ (r.content = .raw bs) ∧ (v = tickFresh u) ∧ (parsePacket (fun sel => (endTarget v r sel).map (fun x => x.2.room)) (Tbl.at [] v.ing.programs p.program) bs = e) ∧ (ecc = false) ∧ (e = .bounds)) ∧
    (∃ (s : State) (n : Nat) (ecc : Bool) (r : RxFrame) (u : State) (p : Partner) (bs : _) (v : State) (e : _) (q : _), (nextFrame (s.ing.waiting.filter (fun r => r.parser == n)) = some r) ∧ (u = ({ s with ing.waiting := s.ing.waiting.erase r } : State)) ∧ (r.partner = some p) ∧ (p.proto = 2) ∧ (r.serial = false) ∧ (r.content = .raw bs) ∧ (v = tickFresh u) ∧ (parsePacket (fun sel => (endTarget v r sel).map (fun x => x.2.room)) (Tbl.at [] v.ing.programs p.program) bs = e) ∧ (ecc = false) ∧ (e = .drop (some q))) ∧
    (∃ (s : State) (n : Nat) (ecc : Bool) (r : RxFrame) (u : State) (p : Partner) (bs : _) (v : State) (e : _) (q : _), (nextFrame (s.ing.waiting.filter (fun r => r.parser == n)) = some r) ∧ (u = ({ s with ing.waiting := s.ing.waiting.erase r } : State)) ∧ (r.partner = some p) ∧ (p.proto = 2) ∧ (r.serial = false) ∧ (r.content = .raw bs) ∧ (v = tickFresh u) ∧ (parsePacket (fun sel => (endTarget v r sel).map (fun x => x.2.room)) (Tbl.at [] v.ing.programs p.program) bs = e) ∧ (ecc = false) ∧ (e = .commit q) ∧ (endTarget v r q.sel = none)) ∧
    (∃ (s : State) (n : Nat) (ecc : Bool) (r : RxFrame) (u : State) (p : Partner) (bs : _) (v : State) (e : _) (q : _) (k : _) (c : _), (nextFrame (s.ing.waiting.filter (fun r => r.parser == n)) = some r) ∧ (u = ({ s with ing.waiting := s.ing.waiting.erase r } : State)) ∧ (r.partner = some p) ∧ (p.proto = 2) ∧ (r.serial = false) ∧ (r.content = .raw bs) ∧ (v = tickFresh u) ∧ (parsePacket (fun sel => (endTarget v r sel).map (fun x => x.2.room)) (Tbl.at [] v.ing.programs p.program) bs = e) ∧ (ecc = false) ∧ (e = .commit q) ∧ (endTarget v r q.sel = some (k, c)) ∧ ((streamOf s k).enabled = false)) ∧
    (∃ (s : State) (n : Nat) (ecc : Bool) (r : RxFrame) (u : State) (p : Partner) (bs : _) (v : State) (e : _) (q : _) (k : _) (c : _), (nextFrame (s.ing.waiting.filter (fun r => r.parser == n)) = some r) ∧ (u = ({ s with ing.waiting := s.ing.waiting.erase r } : State)) ∧ (r.partner = some p) ∧ (p.proto = 2) ∧ (r.serial = false) ∧ (r.content = .raw bs) ∧ (v = tickFresh u) ∧ (parsePacket (fun sel => (endTarget v r sel).map (fun x => x.2.room)) (Tbl.at [] v.ing.programs p.program) bs = e) ∧ (ecc = false) ∧ (e = .commit q) ∧ (endTarget v r q.sel = some (k, c)) ∧ ((streamOf s k).enabled = true) ∧ (c.room < q.out.length)) ∧
    (∃ (s : State) (n : Nat) (ecc : Bool) (r : RxFrame) (u : State) (p : Partner) (bs : _) (v : State) (e : _) (q : _) (k : _) (c : _), (nextFrame (s.ing.waiting.filter (fun r => r.parser == n)) = some r) ∧ (u = ({ s with ing.waiting := s.ing.waiting.erase r } : State)) ∧ (r.partner = some p) ∧ (p.proto = 2) ∧ (r.serial = false) ∧ (r.content = .raw bs) ∧ (v = tickFresh u) ∧ (parsePacket (fun sel => (endTarget v r sel).map (fun x => x.2.room)) (Tbl.at [] v.ing.programs p.program) bs = e) ∧ (ecc = false) ∧ (e = .commit q) ∧ (endTarget v r q.sel = some (k, c)) ∧ ((streamOf s k).enabled = true) ∧ (q.out.length ≤ c.room) ∧ (q.time ≠ .free)) ∧
    (∃ (s : State) (k : Nat) (f : _), (s.ing.cams.find? (fun f => f.stream == k && f.gvsp) = some f)) ∧
    (∃ (s : State) (k : Nat) (f : _), (s.ing.cams.find? (fun f => f.stream == k && f.gvsp) = some f) ∧ (streamCfg s k = none)) ∧
    (∃ (s : State) (k : Nat) (f : _) (c : _), (s.ing.cams.find? (fun f => f.stream == k && f.gvsp) = some f) ∧ (streamCfg s k = some c) ∧ (f.dropped = false) ∧ (f.payload.2 = true) ∧ (c.acceptPartial = false)) ∧
    (∃ (s : State) (k : Nat), (s.ing.cams.find? (fun f => f.stream == k && f.gvsp) = none)) ∧
    (∃ (s : State) (k : Nat) (c : _), (s.ing.deferring.contains (c, k) = true)) ∧
    (∃ (s : State) (k : Nat) (c : _), (s.ing.deferring.contains (c, k) = false)) ∧
    (∃ (s : State), (s.fldT.linkUp = false ∨ s.fld.buffer = [])) ∧
    (∃ (s : State) (r : _) (rest : _), (s.fldT.linkUp = true) ∧ (s.fld.buffer = r :: rest)) ∧
    (∃ (s : State) (r : _) (rest : _), (s.fldT.linkUp = true) ∧ (s.fld.buffer = r :: rest) ∧ (r.kind = 1)) ∧
    (∃ (s : State) (r : _) (rest : _), (s.fldT.linkUp = true) ∧ (s.fld.buffer = r :: rest) ∧ (r.kind ≠ 1)) ∧
    (∃ (s : State) (k : Nat) (x : Draft), ((streamOf s k).enabled = true) ∧ (x.gen ≠ s.tb.gen)) ∧
    (∃ (s : State) (k : Nat) (c : StreamCfg) (x : Draft), ((streamOf s k).enabled = true) ∧ (x.gen = s.tb.gen) ∧ (slotHeld s k c (streamOf s k).next = true)) ∧
    (∃ (s : State) (k : Nat) (c : StreamCfg) (x : Draft) (u : _), ((streamOf s k).enabled = true) ∧ (x.gen = s.tb.gen) ∧ (slotHeld s k c (streamOf s k).next = false) ∧ (x.test = true) ∧ (devWrite s (streamWho s k c) (c.slotAddr (streamOf s k).next + 64) x.payload = (stOk, u))) :=
  ⟨⟨up, fr (.raw [1, 2]), ingPort (up) (fr (.raw [1, 2])).port, by decide +kernel⟩,
   ⟨w132, { fr (.raw [1, 2]) with length := 9217 }, ingPort (w132) ({ fr (.raw [1, 2]) with length := 9217 }).port, by decide +kernel⟩,
   ⟨w132, { fr (.raw [1, 2]) with dstMac := 1 }, ingPort (w132) ({ fr (.raw [1, 2]) with dstMac := 1 }).port, ({ (w132) with ing.ports := (w132).ing.ports.put ({ fr (.raw [1, 2]) with dstMac := 1 }).port { (ingPort (w132) ({ fr (.raw [1, 2]) with dstMac := 1 }).port) with unknown := satAdd 16 (ingPort (w132) ({ fr (.raw [1, 2]) with dstMac := 1 }).port).unknown 1 } } : State), ({ (w132) with ing.ports := (w132).ing.ports.put ({ fr (.raw [1, 2]) with dstMac := 1 }).port { (ingPort (w132) ({ fr (.raw [1, 2]) with dstMac := 1 }).port) with rx := satAdd 32 (ingPort (w132) ({ fr (.raw [1, 2]) with dstMac := 1 }).port).rx 1 } } : State), by decide +kernel⟩,
   ⟨w133, fr (.arp 0), ingPort (w133) (fr (.arp 0)).port, ({ (w133) with ing.ports := (w133).ing.ports.put (fr (.arp 0)).port { (ingPort (w133) (fr (.arp 0)).port) with unknown := satAdd 16 (ingPort (w133) (fr (.arp 0)).port).unknown 1 } } : State), ({ (w133) with ing.ports := (w133).ing.ports.put (fr (.arp 0)).port { (ingPort (w133) (fr (.arp 0)).port) with rx := satAdd 32 (ingPort (w133) (fr (.arp 0)).port).rx 1 } } : State), 0, by decide +kernel⟩,
   ⟨w133, fr (.arp 1), ingPort (w133) (fr (.arp 1)).port, ({ (w133) with ing.ports := (w133).ing.ports.put (fr (.arp 1)).port { (ingPort (w133) (fr (.arp 1)).port) with unknown := satAdd 16 (ingPort (w133) (fr (.arp 1)).port).unknown 1 } } : State), ({ (w133) with ing.ports := (w133).ing.ports.put (fr (.arp 1)).port { (ingPort (w133) (fr (.arp 1)).port) with rx := satAdd 32 (ingPort (w133) (fr (.arp 1)).port).rx 1 } } : State), 1, by decide +kernel⟩,
   ⟨w133, fr (.solicit 0), ingPort (w133) (fr (.solicit 0)).port, ({ (w133) with ing.ports := (w133).ing.ports.put (fr (.solicit 0)).port { (ingPort (w133) (fr (.solicit 0)).port) with unknown := satAdd 16 (ingPort (w133) (fr (.solicit 0)).port).unknown 1 } } : State), ({ (w133) with ing.ports := (w133).ing.ports.put (fr (.solicit 0)).port { (ingPort (w133) (fr (.solicit 0)).port) with rx := satAdd 32 (ingPort (w133) (fr (.solicit 0)).port).rx 1 } } : State), 0, by decide +kernel⟩,
   ⟨w132, fr (.solicit 0), ingPort (w132) (fr (.solicit 0)).port, ({ (w132) with ing.ports := (w132).ing.ports.put (fr (.solicit 0)).port { (ingPort (w132) (fr (.solicit 0)).port) with unknown := satAdd 16 (ingPort (w132) (fr (.solicit 0)).port).unknown 1 } } : State), ({ (w132) with ing.ports := (w132).ing.ports.put (fr (.solicit 0)).port { (ingPort (w132) (fr (.solicit 0)).port) with rx := satAdd 32 (ingPort (w132) (fr (.solicit 0)).port).rx 1 } } : State), 0, by decide +kernel⟩,
   ⟨w132, fr .actionAck, ingPort (w132) (fr .actionAck).port, ({ (w132) with ing.ports := (w132).ing.ports.put (fr .actionAck).port { (ingPort (w132) (fr .actionAck).port) with unknown := satAdd 16 (ingPort (w132) (fr .actionAck).port).unknown 1 } } : State), ({ (w132) with ing.ports := (w132).ing.ports.put (fr .actionAck).port { (ingPort (w132) (fr .actionAck).port) with rx := satAdd 32 (ingPort (w132) (fr .actionAck).port).rx 1 } } : State), by decide +kernel⟩,
   ⟨w134, { fr .actionAck with port := 8 }, ingPort (w134) ({ fr .actionAck with port := 8 }).port, ({ (w134) with ing.ports := (w134).ing.ports.put ({ fr .actionAck with port := 8 }).port { (ingPort (w134) ({ fr .actionAck with port := 8 }).port) with unknown := satAdd 16 (ingPort (w134) ({ fr .actionAck with port := 8 }).port).unknown 1 } } : State), ({ (w134) with ing.ports := (w134).ing.ports.put ({ fr .actionAck with port := 8 }).port { (ingPort (w134) ({ fr .actionAck with port := 8 }).port) with rx := satAdd 32 (ingPort (w134) ({ fr .actionAck with port := 8 }).port).rx 1 } } : State), by decide +kernel⟩,
   ⟨w132, fr (.raw [1, 2]), ingPort (w132) (fr (.raw [1, 2])).port, ({ (w132) with ing.ports := (w132).ing.ports.put (fr (.raw [1, 2])).port { (ingPort (w132) (fr (.raw [1, 2])).port) with unknown := satAdd 16 (ingPort (w132) (fr (.raw [1, 2])).port).unknown 1 } } : State), ({ (w132) with ing.ports := (w132).ing.ports.put (fr (.raw [1, 2])).port { (ingPort (w132) (fr (.raw [1, 2])).port) with rx := satAdd 32 (ingPort (w132) (fr (.raw [1, 2])).port).rx 1 } } : State), by decide +kernel, by decide +kernel, by decide +kernel, by decide +kernel, by decide +kernel, by decide +kernel, by decide +kernel, by decide +kernel, (fun t h => by cases h), (fun t h => by cases h), by decide +kernel, by decide +kernel, by decide +kernel⟩,
   ⟨w135, { fr (.raw [1, 2]) with port := 8 }, ingPort (w135) ({ fr (.raw [1, 2]) with port := 8 }).port, ({ (w135) with ing.ports := (w135).ing.ports.put ({ fr (.raw [1, 2]) with port := 8 }).port { (ingPort (w135) ({ fr (.raw [1, 2]) with port := 8 }).port) with unknown := satAdd 16 (ingPort (w135) ({ fr (.raw [1, 2]) with port := 8 }).port).unknown 1 } } : State), ({ (w135) with ing.ports := (w135).ing.ports.put ({ fr (.raw [1, 2]) with port := 8 }).port { (ingPort (w135) ({ fr (.raw [1, 2]) with port := 8 }).port) with rx := satAdd 32 (ingPort (w135) ({ fr (.raw [1, 2]) with port := 8 }).port).rx 1 } } : State), 3, { par 3 with port := 8 }, by decide +kernel, by decide +kernel, by decide +kernel, by decide +kernel, by decide +kernel, by decide +kernel, by decide +kernel, by decide +kernel, (fun t h => by cases h), (fun t h => by cases h), by decide +kernel, by decide +kernel, by decide +kernel, by decide +kernel⟩,
   ⟨w136, fr (.raw [1, 2]), ingPort (w136) (fr (.raw [1, 2])).port, ({ (w136) with ing.ports := (w136).ing.ports.put (fr (.raw [1, 2])).port { (ingPort (w136) (fr (.raw [1, 2])).port) with unknown := satAdd 16 (ingPort (w136) (fr (.raw [1, 2])).port).unknown 1 } } : State), ({ (w136) with ing.ports := (w136).ing.ports.put (fr (.raw [1, 2])).port { (ingPort (w136) (fr (.raw [1, 2])).port) with rx := satAdd 32 (ingPort (w136) (fr (.raw [1, 2])).port).rx 1 } } : State), 3, par 2, by decide +kernel, by decide +kernel, by decide +kernel, by decide +kernel, by decide +kernel, by decide +kernel, by decide +kernel, by decide +kernel, (fun t h => by cases h), (fun t h => by cases h), by decide +kernel, by decide +kernel, by decide +kernel, by decide +kernel, by decide +kernel⟩,
   ⟨w137, fr (.raw [1, 2]), ingPort (w137) (fr (.raw [1, 2])).port, ({ (w137) with ing.ports := (w137).ing.ports.put (fr (.raw [1, 2])).port { (ingPort (w137) (fr (.raw [1, 2])).port) with unknown := satAdd 16 (ingPort (w137) (fr (.raw [1, 2])).port).unknown 1 } } : State), ({ (w137) with ing.ports := (w137).ing.ports.put (fr (.raw [1, 2])).port { (ingPort (w137) (fr (.raw [1, 2])).port) with rx := satAdd 32 (ingPort (w137) (fr (.raw [1, 2])).port).rx 1 } } : State), 3, par 2, by decide +kernel, by decide +kernel, by decide +kernel, by decide +kernel, by decide +kernel, by decide +kernel, by decide +kernel, by decide +kernel, (fun t h => by cases h), (fun t h => by cases h), by decide +kernel, by decide +kernel, by decide +kernel, by decide +kernel, by decide +kernel⟩,
   ⟨9, true, true, false, by decide +kernel⟩,
   ⟨w138, 9, by decide +kernel⟩,
   ⟨up, 9, by decide +kernel⟩,
   ⟨up, 0, by decide +kernel⟩,
   ⟨w139, (rx .discovery).parser, rx .discovery, ({ (w139) with ing.waiting := (w139).ing.waiting.erase (rx .discovery) } : State), nextOne rfl (by decide +kernel), by decide +kernel⟩,
   ⟨w140, ({ rx .discovery with partner := some (par 3) } : RxFrame).parser, { rx .discovery with partner := some (par 3) }, ({ (w140) with ing.waiting := (w140).ing.waiting.erase ({ rx .discovery with partner := some (par 3) }) } : State), par 3, nextOne rfl (by decide +kernel), by decide +kernel, by decide +kernel, by decide +kernel, by decide +kernel⟩,
   ⟨w141, ({ rx (.raw [1, 2]) with partner := some ({ par 2 with program := 5 }) } : RxFrame).parser, true, { rx (.raw [1, 2]) with partner := some ({ par 2 with program := 5 }) }, ({ (w141) with ing.waiting := (w141).ing.waiting.erase ({ rx (.raw [1, 2]) with partner := some ({ par 2 with program := 5 }) }) } : State), { par 2 with program := 5 }, [1, 2], tickFresh (({ (w141) with ing.waiting := (w141).ing.waiting.erase ({ rx (.raw [1, 2]) with partner := some ({ par 2 with program := 5 }) }) } : State)), (.commit Parse.start), nextOne rfl (by decide +kernel), by decide +kernel, by decide +kernel, by decide +kernel, by decide +kernel, by decide +kernel, by decide +kernel, by decide +kernel, by decide +kernel⟩,
   ⟨w142, ({ rx (.raw [1, 2]) with partner := some ({ par 2 with program := 5 }) } : RxFrame).parser, false, { rx (.raw [1, 2]) with partner := some ({ par 2 with program := 5 }) }, ({ (w142) with ing.waiting := (w142).ing.waiting.erase ({ rx (.raw [1, 2]) with partner := some ({ par 2 with program := 5 }) }) } : State), { par 2 with program := 5 }, [1, 2], tickFresh (({ (w142) with ing.waiting := (w142).ing.waiting.erase ({ rx (.raw [1, 2]) with partner := some ({ par 2 with program := 5 }) }) } : State)), .steps, nextOne rfl (by decide +kernel), by decide +kernel, by decide +kernel, by decide +kernel, by decide +kernel, by decide +kernel, by decide +kernel, by decide +kernel, by decide +kernel, by decide +kernel⟩,
   ⟨w143, ({ rx (.raw [1, 2]) with partner := some ({ par 2 with program := 5 }) } : RxFrame).parser, false, { rx (.raw [1, 2]) with partner := some ({ par 2 with program := 5 }) }, ({ (w143) with ing.waiting := (w143).ing.waiting.erase ({ rx (.raw [1, 2]) with partner := some ({ par 2 with program := 5 }) }) } : State), { par 2 with program := 5 }, [1, 2], tickFresh (({ (w143) with ing.waiting := (w143).ing.waiting.erase ({ rx (.raw [1, 2]) with partner := some ({ par 2 with program := 5 }) }) } : State)), .bounds, nextOne rfl (by decide +kernel), by decide +kernel, by decide +kernel, by decide +kernel, by decide +kernel, by decide +kernel, by decide +kernel, by decide +kernel, by decide +kernel, by decide +kernel⟩,
   ⟨w144, ({ rx (.raw [1, 2]) with partner := some ({ par 2 with program := 5 }) } : RxFrame).parser, false, { rx (.raw [1, 2]) with partner := some ({ par 2 with program := 5 }) }, ({ (w144) with ing.waiting := (w144).ing.waiting.erase ({ rx (.raw [1, 2]) with partner := some ({ par 2 with program := 5 }) }) } : State), { par 2 with program := 5 }, [1, 2], tickFresh (({ (w144) with ing.waiting := (w144).ing.waiting.erase ({ rx (.raw [1, 2]) with partner := some ({ par 2 with program := 5 }) }) } : State)), (.drop (some 7)), 7, nextOne rfl (by decide +kernel), by decide +kernel, by decide +kernel, by decide +kernel, by decide +kernel, by decide +kernel, by decide +kernel, by decide +kernel, by decide +kernel, by decide +kernel⟩,
   ⟨w141, ({ rx (.raw [1, 2]) with partner := some ({ par 2 with program := 5 }) } : RxFrame).parser, false, { rx (.raw [1, 2]) with partner := some ({ par 2 with program := 5 }) }, ({ (w141) with ing.waiting := (w141).ing.waiting.erase ({ rx (.raw [1, 2]) with partner := some ({ par 2 with program := 5 }) }) } : State), { par 2 with program := 5 }, [1, 2], tickFresh (({ (w141) with ing.waiting := (w141).ing.waiting.erase ({ rx (.raw [1, 2]) with partner := some ({ par 2 with program := 5 }) }) } : State)), (.commit Parse.start), Parse.start, nextOne rfl (by decide +kernel), by decide +kernel, by decide +kernel, by decide +kernel, by decide +kernel, by decide +kernel, by decide +kernel, by decide +kernel, by decide +kernel, by decide +kernel, by decide +kernel⟩,
   ⟨w145, ({ rx (.raw [1, 2]) with partner := some ({ par 2 with program := 5 }) } : RxFrame).parser, false, { rx (.raw [1, 2]) with partner := some ({ par 2 with program := 5 }) }, ({ (w145) with ing.waiting := (w145).ing.waiting.erase ({ rx (.raw [1, 2]) with partner := some ({ par 2 with program := 5 }) }) } : State), { par 2 with program := 5 }, [1, 2], tickFresh (({ (w145) with ing.waiting := (w145).ing.waiting.erase ({ rx (.raw [1, 2]) with partner := some ({ par 2 with program := 5 }) }) } : State)), (.commit Parse.start), Parse.start, 127, { sc kindScan 31 with slotLog2 := 8, source := 3 }, nextOne rfl (by decide +kernel), by decide +kernel, by decide +kernel, by decide +kernel, by decide +kernel, by decide +kernel, by decide +kernel, by decide +kernel, by decide +kernel, by decide +kernel, by decide +kernel, by decide +kernel⟩,
   ⟨w146, ({ rx (.raw [1, 2]) with partner := some ({ par 2 with program := 5 }) } : RxFrame).parser, false, { rx (.raw [1, 2]) with partner := some ({ par 2 with program := 5 }) }, ({ (w146) with ing.waiting := (w146).ing.waiting.erase ({ rx (.raw [1, 2]) with partner := some ({ par 2 with program := 5 }) }) } : State), { par 2 with program := 5 }, [1, 2], tickFresh (({ (w146) with ing.waiting := (w146).ing.waiting.erase ({ rx (.raw [1, 2]) with partner := some ({ par 2 with program := 5 }) }) } : State)), (.commit (ofCommit (parsePacket (fun sel => (endTarget ({ up with ing.waiting := [{ rx (.raw [1, 2]) with partner := some ({ par 2 with program := 5 }) }], ing.programs := [(5, [0x0C00000000000005, 0xA800000000000000, 0xC400000000000008, 0xC400000000000008, 0xC400000000000008, 0xC400000000000008, 0xC400000000000008, 0xC400000000000008, 0xC400000000000008, 0x0C00000000000000, 0xA800000000000000, 0xE000000000000000])], cfg.streams := [(127, { sc kindScan 31 with slotLog2 := 8, source := 3 })], ing.streams := [(127, { Stream.reset with enabled := true })] } : State) ({ rx (.raw [1, 2]) with partner := some ({ par 2 with program := 5 }) } : RxFrame) sel).map (fun x => x.2.room)) [0x0C00000000000005, 0xA800000000000000, 0xC400000000000008, 0xC400000000000008, 0xC400000000000008, 0xC400000000000008, 0xC400000000000008, 0xC400000000000008, 0xC400000000000008, 0x0C00000000000000, 0xA800000000000000, 0xE000000000000000] [1, 2]))), (ofCommit (parsePacket (fun sel => (endTarget ({ up with ing.waiting := [{ rx (.raw [1, 2]) with partner := some ({ par 2 with program := 5 }) }], ing.programs := [(5, [0x0C00000000000005, 0xA800000000000000, 0xC400000000000008, 0xC400000000000008, 0xC400000000000008, 0xC400000000000008, 0xC400000000000008, 0xC400000000000008, 0xC400000000000008, 0x0C00000000000000, 0xA800000000000000, 0xE000000000000000])], cfg.streams := [(127, { sc kindScan 31 with slotLog2 := 8, source := 3 })], ing.streams := [(127, { Stream.reset with enabled := true })] } : State) ({ rx (.raw [1, 2]) with partner := some ({ par 2 with program := 5 }) } : RxFrame) sel).map (fun x => x.2.room)) [0x0C00000000000005, 0xA800000000000000, 0xC400000000000008, 0xC400000000000008, 0xC400000000000008, 0xC400000000000008, 0xC400000000000008, 0xC400000000000008, 0xC400000000000008, 0x0C00000000000000, 0xA800000000000000, 0xE000000000000000] [1, 2])), 127, { sc kindScan 31 with slotLog2 := 8, source := 3 }, nextOne rfl (by decide +kernel), by decide +kernel, by decide +kernel, by decide +kernel, by decide +kernel, by decide +kernel, by decide +kernel, by decide +kernel, by decide +kernel, by decide +kernel, by decide +kernel, by decide +kernel, by decide +kernel⟩,
   ⟨w147, ({ rx (.raw [1, 2]) with partner := some ({ par 2 with program := 5 }) } : RxFrame).parser, false, { rx (.raw [1, 2]) with partner := some ({ par 2 with program := 5 }) }, ({ (w147) with ing.waiting := (w147).ing.waiting.erase ({ rx (.raw [1, 2]) with partner := some ({ par 2 with program := 5 }) }) } : State), { par 2 with program := 5 }, [1, 2], tickFresh (({ (w147) with ing.waiting := (w147).ing.waiting.erase ({ rx (.raw [1, 2]) with partner := some ({ par 2 with program := 5 }) }) } : State)), (.commit Parse.start), Parse.start, 127, { sc kindScan 31 with slotLog2 := 8, source := 3 }, nextOne rfl (by decide +kernel), by decide +kernel, by decide +kernel, by decide +kernel, by decide +kernel, by decide +kernel, by decide +kernel, by decide +kernel, by decide +kernel, by decide +kernel, by decide +kernel, by decide +kernel, by decide +kernel, by decide +kernel⟩,
   ⟨w148, 127, { stream := 127, block := 1, total := 64, firstSize := 0, pieces := [], time := 0, frac := 0, sensor := false, ingress := 0, gen := 0, lastAt := 0, gvsp := true, dropped := false }, by decide +kernel⟩,
   ⟨w148, 127, { stream := 127, block := 1, total := 64, firstSize := 0, pieces := [], time := 0, frac := 0, sensor := false, ingress := 0, gen := 0, lastAt := 0, gvsp := true, dropped := false }, by decide +kernel⟩,
   ⟨w149, 127, { stream := 127, block := 1, total := 64, firstSize := 0, pieces := [], time := 0, frac := 0, sensor := false, ingress := 0, gen := 0, lastAt := 0, gvsp := true, dropped := false }, sc kindCamera 31, by decide +kernel⟩,
   ⟨up, 127, by decide +kernel⟩,
   ⟨w150, 4, 31, by decide +kernel⟩,
   ⟨up, 4, 31, by decide +kernel⟩,
   ⟨up, by decide +kernel⟩,
   ⟨w151, { kind := 1, channel := 7, time := 5, gen := 0, holdover := false, payload := [1], count := 0 }, [], by decide +kernel⟩,
   ⟨w151, { kind := 1, channel := 7, time := 5, gen := 0, holdover := false, payload := [1], count := 0 }, [], by decide +kernel⟩,
   ⟨w152, { kind := 2, channel := 7, time := 5, gen := 0, holdover := false, payload := [1], count := 0 }, [], by decide +kernel⟩,
   ⟨w129, 127, { time := 5, frac := 6, gen := 1, holdover := false, test := true, partial_ := false, sensor := false, sequence := none, signature := none, ingress := 0, elements := 3, payload := [1, 2, 3] }, by decide +kernel⟩,
   ⟨w153, 127, sc kindImu 31, { time := 5, frac := 6, gen := 0, holdover := false, test := true, partial_ := false, sensor := false, sequence := none, signature := none, ingress := 0, elements := 3, payload := [1, 2, 3] }, by decide +kernel⟩,
   ⟨w154, 127, sc kindImu 1, { time := 5, frac := 6, gen := 0, holdover := false, test := true, partial_ := false, sensor := false, sequence := none, signature := none, ingress := 0, elements := 3, payload := [1, 2, 3] }, (devWrite ({ upm with cfg.streams := [(127, sc kindImu 31)], ing.streams := [(127, { Stream.reset with enabled := true })] }) (streamWho ({ upm with cfg.streams := [(127, sc kindImu 31)], ing.streams := [(127, { Stream.reset with enabled := true })] }) 127 (sc kindImu 1)) ((sc kindImu 1).slotAddr (streamOf ({ upm with cfg.streams := [(127, sc kindImu 31)], ing.streams := [(127, { Stream.reset with enabled := true })] }) 127).next + 64) [1, 2, 3]).2, by decide +kernel, by decide +kernel, by decide +kernel, by decide +kernel, Prod.ext (by decide +kernel) rfl⟩⟩

theorem test_witness_InjectionsAndReturns :
    (∃ (s : State) (k : Nat) (x : _), (injectionOf s k = some x)) ∧
    (∃ (s : State) (k : Nat), (injectionOf s k = none)) ∧
    (∃ (s : State) (k : Nat) (x : _) (c : _) (at_ : _) (v : State), (injectionOf s k = some x) ∧ (streamCfg s k = some c) ∧ (blankFrom s k = some at_) ∧ (v = advanceTo s at_) ∧ (x.deadline < v.up)) ∧
    (∃ (s : State) (k : Nat) (x : Injection) (c : StreamCfg) (at_ : _) (v : State) (pass : _) (g : _) (u : _), (injectionOf s k = some x) ∧ (streamCfg s k = some c) ∧ (blankFrom s k = some at_) ∧ (v = advanceTo s at_) ∧ (v.up ≤ x.deadline) ∧ (inject { v with ing.injections := popInjection k s.ing.injections } k c x = (pass, g, u)) ∧ (pass = true) ∧ ((streamOf u k).frozen = false ∨ (streamOf u k).passRun < 8)) ∧
    (∃ (s : State) (k : Nat) (x : Injection) (c : StreamCfg) (at_ : _) (v : State) (pass : _) (g : _) (u : _), (injectionOf s k = some x) ∧ (streamCfg s k = some c) ∧ (blankFrom s k = some at_) ∧ (v = advanceTo s at_) ∧ (v.up ≤ x.deadline) ∧ (inject { v with ing.injections := popInjection k s.ing.injections } k c x = (pass, g, u)) ∧ (pass = true) ∧ ((streamOf u k).frozen = true) ∧ (8 ≤ (streamOf u k).passRun)) ∧
    (∃ (s : State) (k : Nat) (x : Injection) (c : StreamCfg) (at_ : _) (v : State) (pass : _) (g : _) (u : _), (injectionOf s k = some x) ∧ (streamCfg s k = some c) ∧ (blankFrom s k = some at_) ∧ (v = advanceTo s at_) ∧ (v.up ≤ x.deadline) ∧ (inject { v with ing.injections := popInjection k s.ing.injections } k c x = (pass, g, u)) ∧ (pass = false)) ∧
    (∃ (s : State) (k : Nat) (c : StreamCfg) (x : Injection) (y : Draft) (u : _) (st : _) (bs : _) (v : _), (testDraft s c x = some y) ∧ (commit (tickFresh s) k c y = (true, u)) ∧ (readSlot u k c y = (st, bs, v))) ∧
    (∃ (s : State) (k : Nat), ((streamOf s k).starting = none ∨ streamCfg s k = none)) ∧
    (∃ (s : State) (k : Nat) (d : _) (c : _) (u : _) (bs : List Byte) (g : _) (h : _) (pass : _), ((streamOf s k).starting = some d) ∧ (streamCfg s k = some c) ∧ (inject s k c { desc := d, pattern := if c.kind = kindCamera then 0 else 3, seed := 0, packet := bs, expected := g, deadline := 0 } = (pass, h, u)) ∧ (pass = true)) ∧
    (∃ (s : State) (k : Nat) (d : _) (c : _) (u : _) (bs : List Byte) (g : _) (h : _) (pass : _), ((streamOf s k).starting = some d) ∧ (streamCfg s k = some c) ∧ (inject s k c { desc := d, pattern := if c.kind = kindCamera then 0 else 3, seed := 0, packet := bs, expected := g, deadline := 0 } = (pass, h, u)) ∧ (pass = false)) ∧
    (∃ (s : State) (k : Nat) (x : Stream) (c : StreamCfg) (n : _), (x = streamOf s k) ∧ (streamCfg s k = some c) ∧ (x.back = some n) ∧ (x.suspect = true)) ∧
    (∃ (s : State) (k : Nat) (x : Stream) (c : StreamCfg), (x = streamOf s k) ∧ (streamCfg s k = some c) ∧ (x.back = none ∨ x.suspect = false)) ∧
    (∃ (s : State) (k : Nat) (x : Stream) (c : StreamCfg), (x = streamOf s k) ∧ (streamCfg s k = some c) ∧ (x.contested = some 0)) ∧
    (∃ (s : State) (k : Nat) (x : Stream) (c : StreamCfg), (x = streamOf s k) ∧ (streamCfg s k = some c) ∧ (x.contested ≠ some 0)) ∧
    (∃ (s : State) (k : Nat) (x : Stream) (c : StreamCfg), (x = streamOf s k) ∧ (streamCfg s k = some c) ∧ (x.frozen = true) ∧ (8 ≤ x.passRun) ∧ ((c.kind = kindCamera ∨ c.kind = kindScan → x.injected = true)) ∧ ((cadOf s c.cadence).st ≠ .stopped)) ∧
    (∃ (s : State) (k : Nat) (x : Stream) (c : StreamCfg), (x = streamOf s k) ∧ (streamCfg s k = some c) ∧ (x.frozen = false ∨ x.passRun < 8)) :=
  ⟨⟨w155, 127, { desc := mk 1 0x0806 [], pattern := 0, seed := 0, packet := [], expected := 0, deadline := 100 }, by decide +kernel⟩,
   ⟨up, 127, by decide +kernel⟩,
   ⟨w156, 127, { desc := mk 1 0x0806 [], pattern := 0, seed := 0, packet := [], expected := 0, deadline := 100 }, { sc kindCamera 31 with source := 3, width := 2, height := 2, format := 1 }, 11000, advanceTo (w156) (11000), by decide +kernel⟩,
   ⟨w0, 127, { desc := mk 1 0x0806 [], pattern := 0, seed := 0, packet := [], expected := 0, deadline := 100 }, { sc kindCamera 31 with source := 3, width := 2, height := 2, format := 1 }, 0, advanceTo (w0) (0), (inject { (advanceTo (w0) 0) with ing.injections := popInjection 127 (w0).ing.injections } 127 ({ sc kindCamera 31 with source := 3, width := 2, height := 2, format := 1 }) ({ desc := mk 1 0x0806 [], pattern := 0, seed := 0, packet := [], expected := 0, deadline := 100 })).1, (inject { (advanceTo (w0) 0) with ing.injections := popInjection 127 (w0).ing.injections } 127 ({ sc kindCamera 31 with source := 3, width := 2, height := 2, format := 1 }) ({ desc := mk 1 0x0806 [], pattern := 0, seed := 0, packet := [], expected := 0, deadline := 100 })).2.1, (inject { (advanceTo (w0) 0) with ing.injections := popInjection 127 (w0).ing.injections } 127 ({ sc kindCamera 31 with source := 3, width := 2, height := 2, format := 1 }) ({ desc := mk 1 0x0806 [], pattern := 0, seed := 0, packet := [], expected := 0, deadline := 100 })).2.2, by decide +kernel, by decide +kernel, by decide +kernel, by decide +kernel, by decide +kernel, rfl, by decide +kernel, by decide +kernel⟩,
   ⟨w1, 127, { desc := mk 1 0x0806 [], pattern := 0, seed := 0, packet := [], expected := 0, deadline := 100 }, { sc kindCamera 31 with source := 3, width := 2, height := 2, format := 1 }, 0, advanceTo (w1) (0), (inject { (advanceTo (w1) 0) with ing.injections := popInjection 127 (w1).ing.injections } 127 ({ sc kindCamera 31 with source := 3, width := 2, height := 2, format := 1 }) ({ desc := mk 1 0x0806 [], pattern := 0, seed := 0, packet := [], expected := 0, deadline := 100 })).1, (inject { (advanceTo (w1) 0) with ing.injections := popInjection 127 (w1).ing.injections } 127 ({ sc kindCamera 31 with source := 3, width := 2, height := 2, format := 1 }) ({ desc := mk 1 0x0806 [], pattern := 0, seed := 0, packet := [], expected := 0, deadline := 100 })).2.1, (inject { (advanceTo (w1) 0) with ing.injections := popInjection 127 (w1).ing.injections } 127 ({ sc kindCamera 31 with source := 3, width := 2, height := 2, format := 1 }) ({ desc := mk 1 0x0806 [], pattern := 0, seed := 0, packet := [], expected := 0, deadline := 100 })).2.2, by decide +kernel, by decide +kernel, by decide +kernel, by decide +kernel, by decide +kernel, rfl, by decide +kernel, by decide +kernel, by decide +kernel⟩,
   ⟨w2, 127, { desc := mk 1 0x0806 [], pattern := 0, seed := 0, packet := [], expected := 0, deadline := 100 }, { sc kindCamera 31 with source := 3, width := 2, height := 2, format := 1 }, 0, advanceTo (w2) (0), (inject { (advanceTo (w2) 0) with ing.injections := popInjection 127 (w2).ing.injections } 127 ({ sc kindCamera 31 with source := 3, width := 2, height := 2, format := 1 }) ({ desc := mk 1 0x0806 [], pattern := 0, seed := 0, packet := [], expected := 0, deadline := 100 })).1, (inject { (advanceTo (w2) 0) with ing.injections := popInjection 127 (w2).ing.injections } 127 ({ sc kindCamera 31 with source := 3, width := 2, height := 2, format := 1 }) ({ desc := mk 1 0x0806 [], pattern := 0, seed := 0, packet := [], expected := 0, deadline := 100 })).2.1, (inject { (advanceTo (w2) 0) with ing.injections := popInjection 127 (w2).ing.injections } 127 ({ sc kindCamera 31 with source := 3, width := 2, height := 2, format := 1 }) ({ desc := mk 1 0x0806 [], pattern := 0, seed := 0, packet := [], expected := 0, deadline := 100 })).2.2, by decide +kernel, by decide +kernel, by decide +kernel, by decide +kernel, by decide +kernel, rfl, by decide +kernel⟩,
   ⟨w0, 127, { sc kindCamera 31 with source := 3, width := 2, height := 2, format := 1 }, { desc := mk 1 0x0806 [], pattern := 0, seed := 0, packet := [], expected := 0, deadline := 100 }, ((testDraft w0 ({ sc kindCamera 31 with source := 3, width := 2, height := 2, format := 1 }) ({ desc := mk 1 0x0806 [], pattern := 0, seed := 0, packet := [], expected := 0, deadline := 100 })).getD { time := 0, frac := 0, gen := 0, holdover := false, test := true, partial_ := false, sensor := false, sequence := none, signature := none, ingress := 0, elements := 0, payload := [] }), (commit (tickFresh w0) 127 ({ sc kindCamera 31 with source := 3, width := 2, height := 2, format := 1 }) ((testDraft w0 ({ sc kindCamera 31 with source := 3, width := 2, height := 2, format := 1 }) ({ desc := mk 1 0x0806 [], pattern := 0, seed := 0, packet := [], expected := 0, deadline := 100 })).getD { time := 0, frac := 0, gen := 0, holdover := false, test := true, partial_ := false, sensor := false, sequence := none, signature := none, ingress := 0, elements := 0, payload := [] })).2, (readSlot (commit (tickFresh w0) 127 ({ sc kindCamera 31 with source := 3, width := 2, height := 2, format := 1 }) ((testDraft w0 ({ sc kindCamera 31 with source := 3, width := 2, height := 2, format := 1 }) ({ desc := mk 1 0x0806 [], pattern := 0, seed := 0, packet := [], expected := 0, deadline := 100 })).getD { time := 0, frac := 0, gen := 0, holdover := false, test := true, partial_ := false, sensor := false, sequence := none, signature := none, ingress := 0, elements := 0, payload := [] })).2 127 ({ sc kindCamera 31 with source := 3, width := 2, height := 2, format := 1 }) ((testDraft w0 ({ sc kindCamera 31 with source := 3, width := 2, height := 2, format := 1 }) ({ desc := mk 1 0x0806 [], pattern := 0, seed := 0, packet := [], expected := 0, deadline := 100 })).getD { time := 0, frac := 0, gen := 0, holdover := false, test := true, partial_ := false, sensor := false, sequence := none, signature := none, ingress := 0, elements := 0, payload := [] })).1, (readSlot (commit (tickFresh w0) 127 ({ sc kindCamera 31 with source := 3, width := 2, height := 2, format := 1 }) ((testDraft w0 ({ sc kindCamera 31 with source := 3, width := 2, height := 2, format := 1 }) ({ desc := mk 1 0x0806 [], pattern := 0, seed := 0, packet := [], expected := 0, deadline := 100 })).getD { time := 0, frac := 0, gen := 0, holdover := false, test := true, partial_ := false, sensor := false, sequence := none, signature := none, ingress := 0, elements := 0, payload := [] })).2 127 ({ sc kindCamera 31 with source := 3, width := 2, height := 2, format := 1 }) ((testDraft w0 ({ sc kindCamera 31 with source := 3, width := 2, height := 2, format := 1 }) ({ desc := mk 1 0x0806 [], pattern := 0, seed := 0, packet := [], expected := 0, deadline := 100 })).getD { time := 0, frac := 0, gen := 0, holdover := false, test := true, partial_ := false, sensor := false, sequence := none, signature := none, ingress := 0, elements := 0, payload := [] })).2.1, (readSlot (commit (tickFresh w0) 127 ({ sc kindCamera 31 with source := 3, width := 2, height := 2, format := 1 }) ((testDraft w0 ({ sc kindCamera 31 with source := 3, width := 2, height := 2, format := 1 }) ({ desc := mk 1 0x0806 [], pattern := 0, seed := 0, packet := [], expected := 0, deadline := 100 })).getD { time := 0, frac := 0, gen := 0, holdover := false, test := true, partial_ := false, sensor := false, sequence := none, signature := none, ingress := 0, elements := 0, payload := [] })).2 127 ({ sc kindCamera 31 with source := 3, width := 2, height := 2, format := 1 }) ((testDraft w0 ({ sc kindCamera 31 with source := 3, width := 2, height := 2, format := 1 }) ({ desc := mk 1 0x0806 [], pattern := 0, seed := 0, packet := [], expected := 0, deadline := 100 })).getD { time := 0, frac := 0, gen := 0, holdover := false, test := true, partial_ := false, sensor := false, sequence := none, signature := none, ingress := 0, elements := 0, payload := [] })).2.2, rfl, Prod.ext (by decide +kernel) rfl, rfl⟩,
   ⟨up, 127, by decide +kernel⟩,
   ⟨w3, 127, (mk 1 0x0804 [(16, 127), (17, 1)]), { sc kindCamera 31 with source := 3, width := 2, height := 2, format := 1 }, (inject (w3) 127 ({ sc kindCamera 31 with source := 3, width := 2, height := 2, format := 1 }) { desc := (mk 1 0x0804 [(16, 127), (17, 1)]), pattern := 0, seed := 0, packet := [], expected := 7, deadline := 0 }).2.2, [], 7, (inject (w3) 127 ({ sc kindCamera 31 with source := 3, width := 2, height := 2, format := 1 }) { desc := (mk 1 0x0804 [(16, 127), (17, 1)]), pattern := 0, seed := 0, packet := [], expected := 7, deadline := 0 }).2.1, (inject (w3) 127 ({ sc kindCamera 31 with source := 3, width := 2, height := 2, format := 1 }) { desc := (mk 1 0x0804 [(16, 127), (17, 1)]), pattern := 0, seed := 0, packet := [], expected := 7, deadline := 0 }).1, by decide +kernel, by decide +kernel, rfl, by decide +kernel⟩,
   ⟨w4, 127, (mk 1 0x0804 [(16, 127), (17, 1)]), { sc kindCamera 31 with source := 3, width := 2, height := 2, format := 1 }, (inject (w4) 127 ({ sc kindCamera 31 with source := 3, width := 2, height := 2, format := 1 }) { desc := (mk 1 0x0804 [(16, 127), (17, 1)]), pattern := 0, seed := 0, packet := [], expected := 7, deadline := 0 }).2.2, [], 7, (inject (w4) 127 ({ sc kindCamera 31 with source := 3, width := 2, height := 2, format := 1 }) { desc := (mk 1 0x0804 [(16, 127), (17, 1)]), pattern := 0, seed := 0, packet := [], expected := 7, deadline := 0 }).2.1, (inject (w4) 127 ({ sc kindCamera 31 with source := 3, width := 2, height := 2, format := 1 }) { desc := (mk 1 0x0804 [(16, 127), (17, 1)]), pattern := 0, seed := 0, packet := [], expected := 7, deadline := 0 }).1, by decide +kernel, by decide +kernel, rfl, by decide +kernel⟩,
   ⟨w157, 127, { Stream.reset with enabled := true, suspect := true, back := some 3 }, sc kindImu 31, 3, by decide +kernel⟩,
   ⟨w158, 127, { Stream.reset with enabled := true }, sc kindImu 31, by decide +kernel⟩,
   ⟨w159, 127, { Stream.reset with enabled := true, contested := some 0 }, sc kindImu 31, by decide +kernel⟩,
   ⟨w160, 127, { Stream.reset with enabled := true, contested := some 1 }, sc kindImu 31, by decide +kernel⟩,
   ⟨w161, 127, { Stream.reset with enabled := true, frozen := true, passRun := 8 }, sc kindImu 31, by decide +kernel⟩,
   ⟨w162, 127, { Stream.reset with enabled := true, frozen := true, passRun := 7 }, sc kindImu 31, by decide +kernel⟩⟩

theorem test_witness_SpliceCommands :
    (∃ (s : State) (d : Desc), (Accepted s d (infoSplStream s d)) ∧ (s.cfg.streams.find (dfld d 16 0 7) = none)) ∧
    (∃ (s : State) (d : Desc) (c : _), (Accepted s d (infoSplStream s d)) ∧ (s.cfg.streams.find (dfld d 16 0 7) = some c) ∧ (streamGuarded s (dfld d 16 0 7) = true)) ∧
    (∃ (s : State) (d : Desc) (c : _), (Accepted s d (infoSplStream s d)) ∧ (s.cfg.streams.find (dfld d 16 0 7) = some c) ∧ (streamGuarded s (dfld d 16 0 7) = false)) ∧
    (∃ (s : State) (d : Desc), (Accepted s d (infoSplInputs s d)) ∧ (s.cfg.flows.find (dfld d 16 0 12) = none)) ∧
    (∃ (s : State) (d : Desc) (x : _) (refs : _), (Accepted s d (infoSplInputs s d)) ∧ (s.cfg.flows.find (dfld d 16 0 12) = some x) ∧ (refs = (List.range (dfld d 18 0 8)).map (fun i => ({ isFlow := dbit d (25 + 2 * i) 7, required := dbit d (25 + 2 * i) 6, index := dfld d (24 + 2 * i) 0 12 } : InputRef))) ∧ (x.guarded = true)) ∧
    (∃ (s : State) (d : Desc) (x : _) (refs : _), (Accepted s d (infoSplInputs s d)) ∧ (s.cfg.flows.find (dfld d 16 0 12) = some x) ∧ (refs = (List.range (dfld d 18 0 8)).map (fun i => ({ isFlow := dbit d (25 + 2 * i) 7, required := dbit d (25 + 2 * i) 6, index := dfld d (24 + 2 * i) 0 12 } : InputRef))) ∧ (x.guarded = false) ∧ (20 < dfld d 18 0 8 ∨ (∃ r ∈ refs, if r.isFlow then s.cfg.flows.find r.index = none else s.cfg.streams.find r.index = none))) ∧
    (∃ (s : State) (d : Desc) (x : _) (refs : _), (Accepted s d (infoSplInputs s d)) ∧ (s.cfg.flows.find (dfld d 16 0 12) = some x) ∧ (refs = (List.range (dfld d 18 0 8)).map (fun i => ({ isFlow := dbit d (25 + 2 * i) 7, required := dbit d (25 + 2 * i) 6, index := dfld d (24 + 2 * i) 0 12 } : InputRef))) ∧ (x.guarded = false) ∧ (dfld d 18 0 8 ≤ 20) ∧ ((∀ r ∈ refs, if r.isFlow then s.cfg.flows.find r.index ≠ none else s.cfg.streams.find r.index ≠ none))) ∧
    (∃ (s : State) (d : Desc), (Accepted s d (infoSplSnapshot s d)) ∧ ((s.spl.latest.find (dfld d 16 0 5)).bind (tableOf s (dfld d 16 0 5)) = none ∨ dfld d 24 0 64 % 64 ≠ 0)) ∧
    (∃ (s : State) (d : Desc) (t : _) (st : _) (u : _), (Accepted s d (infoSplSnapshot s d)) ∧ ((s.spl.latest.find (dfld d 16 0 5)).bind (tableOf s (dfld d 16 0 5)) = some t) ∧ (dfld d 24 0 64 % 64 = 0) ∧ (devWrite (markStarted s d) { did := d.did, guarded := false, kind := 4, index := 0x0900, flows := [] } (dfld d 24 0 64) (t.bytes.take (dfld d 32 0 32)) = (st, u)) ∧ (st = stOk)) ∧
    (∃ (s : State) (d : Desc) (t : _) (st : _) (u : _), (Accepted s d (infoSplSnapshot s d)) ∧ ((s.spl.latest.find (dfld d 16 0 5)).bind (tableOf s (dfld d 16 0 5)) = some t) ∧ (dfld d 24 0 64 % 64 = 0) ∧ (devWrite (markStarted s d) { did := d.did, guarded := false, kind := 4, index := 0x0900, flows := [] } (dfld d 24 0 64) (t.bytes.take (dfld d 32 0 32)) = (st, u)) ∧ (st ≠ stOk)) ∧
    (∃ (s : State) (c : _) (e : _) (t : _), (aligning s c = some e) ∧ (tableOf s c e.epoch = some t)) ∧
    (∃ (s : State) (c : _) (e : _) (t : _), (aligning s c = some e) ∧ (tableOf s c e.epoch = some t) ∧ (s.epochs = [e]) ∧ (e.flows = []) ∧ (t.cut = false) ∧ (t.streams = []) ∧ (e.finished = false)) ∧
    (∃ (s : State) (c : _), (aligning s c = none)) :=
  ⟨⟨up, mk 1 0x0900 [(16, 127), (17, 3), (18, 0), (20, 9), (22, 7), (24, 5)], by decide +kernel⟩,
   ⟨w130, mk 1 0x0900 [(16, 127), (17, 3), (18, 0), (20, 9), (22, 7), (24, 5)], sc kindImu 31, by decide +kernel⟩,
   ⟨w114, mk 1 0x0900 [(16, 127), (17, 3), (18, 0), (20, 9), (22, 7), (24, 5)], sc kindImu 31, by decide +kernel⟩,
   ⟨up, mk 1 0x0901 [(16, 4095), (18, 1), (24, 0x407F)], by decide +kernel⟩,
   ⟨w111, mk 1 0x0901 [(16, 4095), (18, 1), (24, 0x407F)], { guarded := true, cadence := 31, enable := true, grid := none, cring := none }, (List.range (dfld (mk 1 0x0901 [(16, 4095), (18, 1), (24, 0x407F)]) 18 0 8)).map (fun i => ({ isFlow := dbit (mk 1 0x0901 [(16, 4095), (18, 1), (24, 0x407F)]) (25 + 2 * i) 7, required := dbit (mk 1 0x0901 [(16, 4095), (18, 1), (24, 0x407F)]) (25 + 2 * i) 6, index := dfld (mk 1 0x0901 [(16, 4095), (18, 1), (24, 0x407F)]) (24 + 2 * i) 0 12 } : InputRef)), by decide +kernel⟩,
   ⟨w110, mk 1 0x0901 [(16, 4095), (18, 21), (24, 0x407F)], { guarded := false, cadence := 31, enable := true, grid := none, cring := none }, (List.range (dfld (mk 1 0x0901 [(16, 4095), (18, 21), (24, 0x407F)]) 18 0 8)).map (fun i => ({ isFlow := dbit (mk 1 0x0901 [(16, 4095), (18, 21), (24, 0x407F)]) (25 + 2 * i) 7, required := dbit (mk 1 0x0901 [(16, 4095), (18, 21), (24, 0x407F)]) (25 + 2 * i) 6, index := dfld (mk 1 0x0901 [(16, 4095), (18, 21), (24, 0x407F)]) (24 + 2 * i) 0 12 } : InputRef)), by decide +kernel⟩,
   ⟨w163, mk 1 0x0901 [(16, 4095), (18, 1), (24, 0x407F)], { guarded := false, cadence := 31, enable := true, grid := none, cring := none }, (List.range (dfld (mk 1 0x0901 [(16, 4095), (18, 1), (24, 0x407F)]) 18 0 8)).map (fun i => ({ isFlow := dbit (mk 1 0x0901 [(16, 4095), (18, 1), (24, 0x407F)]) (25 + 2 * i) 7, required := dbit (mk 1 0x0901 [(16, 4095), (18, 1), (24, 0x407F)]) (25 + 2 * i) 6, index := dfld (mk 1 0x0901 [(16, 4095), (18, 1), (24, 0x407F)]) (24 + 2 * i) 0 12 } : InputRef)), by decide +kernel⟩,
   ⟨up, mk 1 0x0902 [(16, 31), (24, 64), (32, 4096)], by decide +kernel⟩,
   ⟨w164, mk 1 0x0902 [(16, 31), (24, 64), (32, 4096)], et 5, (devWrite (markStarted ({ upm with spl.latest := [(31, 5)], spl.tables := [(63, et 5)] }) (mk 1 0x0902 [(16, 31), (24, 64), (32, 4096)])) { did := 1, guarded := false, kind := 4, index := 0x0900, flows := [] } 64 ((et 5).bytes.take 4096)).1, (devWrite (markStarted ({ upm with spl.latest := [(31, 5)], spl.tables := [(63, et 5)] }) (mk 1 0x0902 [(16, 31), (24, 64), (32, 4096)])) { did := 1, guarded := false, kind := 4, index := 0x0900, flows := [] } 64 ((et 5).bytes.take 4096)).2, by decide +kernel, by decide +kernel, by decide +kernel, rfl, by decide +kernel⟩,
   ⟨w165, mk 1 0x0902 [(16, 31), (24, 64), (32, 4096)], et 5, (devWrite (markStarted ({ up with spl.latest := [(31, 5)], spl.tables := [(63, et 5)] }) (mk 1 0x0902 [(16, 31), (24, 64), (32, 4096)])) { did := 1, guarded := false, kind := 4, index := 0x0900, flows := [] } 64 ((et 5).bytes.take 4096)).1, (devWrite (markStarted ({ up with spl.latest := [(31, 5)], spl.tables := [(63, et 5)] }) (mk 1 0x0902 [(16, 31), (24, 64), (32, 4096)])) { did := 1, guarded := false, kind := 4, index := 0x0900, flows := [] } 64 ((et 5).bytes.take 4096)).2, by decide +kernel, by decide +kernel, by decide +kernel, rfl, by decide +kernel⟩,
   ⟨w166, 31, { ep 31 5 with alignEnd := none }, et 5, by decide +kernel⟩,
   ⟨w166, 31, { ep 31 5 with alignEnd := none }, et 5, by decide +kernel⟩,
   ⟨up, 31, by decide +kernel⟩⟩

theorem test_witness_TransformsAndPoses :
    (∃ (s : State) (d : Desc) (k : _) (p : Pose), (k = dfld d 16 0 13) ∧ (p = ({ w := dfld d 20 0 32, x := dfld d 24 0 32, y := dfld d 28 0 32, z := dfld d 32 0 32, tx := dfld d 36 0 32, ty := dfld d 40 0 32, tz := dfld d 44 0 32 } : Pose)) ∧ (Accepted s d (infoXftEntry s d)) ∧ (entryGuarded s k = true)) ∧
    (∃ (s : State) (d : Desc) (k : _) (p : Pose), (k = dfld d 16 0 13) ∧ (p = ({ w := dfld d 20 0 32, x := dfld d 24 0 32, y := dfld d 28 0 32, z := dfld d 32 0 32, tx := dfld d 36 0 32, ty := dfld d 40 0 32, tz := dfld d 44 0 32 } : Pose)) ∧ (Accepted s d (infoXftEntry s d)) ∧ (entryGuarded s k = false) ∧ ([p.w, p.x, p.y, p.z, p.tx, p.ty, p.tz].all f32Finite = true) ∧ (unitQuat p = true)) ∧
    (∃ (s : State) (d : Desc) (k : _) (p : Pose), (k = dfld d 16 0 13) ∧ (p = ({ w := dfld d 20 0 32, x := dfld d 24 0 32, y := dfld d 28 0 32, z := dfld d 32 0 32, tx := dfld d 36 0 32, ty := dfld d 40 0 32, tz := dfld d 44 0 32 } : Pose)) ∧ (Accepted s d (infoXftEntry s d)) ∧ (entryGuarded s k = false) ∧ ([p.w, p.x, p.y, p.z, p.tx, p.ty, p.tz].all f32Finite = false ∨ unitQuat p = false)) ∧
    (∃ (s : State) (d : Desc) (k : _) (n : _), (k = dfld d 16 0 4) ∧ (n = dfld d 17 0 5) ∧ (Accepted s d (infoXftRig s d)) ∧ (rigGuarded s k = true)) ∧
    (∃ (s : State) (d : Desc) (k : _) (n : _), (k = dfld d 16 0 4) ∧ (n = dfld d 17 0 5) ∧ (Accepted s d (infoXftRig s d)) ∧ (rigGuarded s k = false) ∧ (n ≤ 16) ∧ (entryValid s (dfld d 20 0 13) = true) ∧ (dbit d 18 0 = false ∨ (chainOf s.cfg k n).length = n)) ∧
    (∃ (s : State) (d : Desc) (k : _) (n : _), (k = dfld d 16 0 4) ∧ (n = dfld d 17 0 5) ∧ (Accepted s d (infoXftRig s d)) ∧ (rigGuarded s k = false) ∧ (16 < n ∨ entryValid s (dfld d 20 0 13) = false ∨ (dbit d 18 0 = true ∧ (chainOf s.cfg k n).length ≠ n))) ∧
    (∃ (s : State) (d : Desc) (k : _) (j : Joint), (k = dfld d 16 0 7) ∧ (j = { rig := dfld d 18 0 4, position := dfld d 19 0 5, prismatic := dbit d 20 0, axis := dfld d 20 1 3, zHome := dbit d 20 4, wrap := dbit d 20 5, primary := dfld d 21 0 7, check := if dbit d 22 7 then some (dfld d 22 0 7) else none, zTol := dfld d 23 0 8, pre := dfld d 24 0 13, zOffset := signed 16 (dfld d 26 0 16), zPeriod := dfld d 28 0 32, scale := dfld d 32 0 64, ref := signed 64 (dfld d 40 0 64), zero := dfld d 48 0 64, min := dfld d 56 0 32, max := dfld d 60 0 32 }) ∧ (Accepted s d (infoXftJoint s d)) ∧ (jointGuarded s k = true ∨ rigGuarded s j.rig = true)) ∧
    (∃ (s : State) (d : Desc) (k : _) (j : Joint), (k = dfld d 16 0 7) ∧ (j = { rig := dfld d 18 0 4, position := dfld d 19 0 5, prismatic := dbit d 20 0, axis := dfld d 20 1 3, zHome := dbit d 20 4, wrap := dbit d 20 5, primary := dfld d 21 0 7, check := if dbit d 22 7 then some (dfld d 22 0 7) else none, zTol := dfld d 23 0 8, pre := dfld d 24 0 13, zOffset := signed 16 (dfld d 26 0 16), zPeriod := dfld d 28 0 32, scale := dfld d 32 0 64, ref := signed 64 (dfld d 40 0 64), zero := dfld d 48 0 64, min := dfld d 56 0 32, max := dfld d 60 0 32 }) ∧ (Accepted s d (infoXftJoint s d)) ∧ (jointGuarded s k = false) ∧ (rigGuarded s j.rig = false) ∧ (j.position = 0 ∨ 16 < j.position ∨ 5 < j.axis ∨ (j.prismatic = true ∧ j.wrap = true) ∨ j.zTol = 0 ∨ j.scale % 2 ^ 63 = 0 ∨ f32Lt j.min j.max = false ∨ entryValid s j.pre = false ∨ isEncoder s j.primary = false ∨ j.check.all (isEncoder s) = false ∨ s.cfg.joints.any (fun p => p.1 != k && p.2.rig == j.rig && p.2.position == j.position) = true)) ∧
    (∃ (s : State) (d : Desc) (k : _) (j : Joint) (ref : Bool × Int), (k = dfld d 16 0 7) ∧ (j = { rig := dfld d 18 0 4, position := dfld d 19 0 5, prismatic := dbit d 20 0, axis := dfld d 20 1 3, zHome := dbit d 20 4, wrap := dbit d 20 5, primary := dfld d 21 0 7, check := if dbit d 22 7 then some (dfld d 22 0 7) else none, zTol := dfld d 23 0 8, pre := dfld d 24 0 13, zOffset := signed 16 (dfld d 26 0 16), zPeriod := dfld d 28 0 32, scale := dfld d 32 0 64, ref := signed 64 (dfld d 40 0 64), zero := dfld d 48 0 64, min := dfld d 56 0 32, max := dfld d 60 0 32 }) ∧ (Accepted s d (infoXftJoint s d)) ∧ (jointGuarded s k = false) ∧ (rigGuarded s j.rig = false) ∧ (1 ≤ j.position) ∧ (j.position ≤ 16) ∧ (j.axis ≤ 5) ∧ (j.prismatic = false ∨ j.wrap = false) ∧ (j.zTol ≠ 0) ∧ (j.scale % 2 ^ 63 ≠ 0) ∧ (f32Lt j.min j.max = true) ∧ (entryValid s j.pre = true) ∧ (isEncoder s j.primary = true) ∧ (j.check.all (isEncoder s) = true) ∧ (s.cfg.joints.any (fun p => p.1 != k && p.2.rig == j.rig && p.2.position == j.position) = false) ∧ (ref = (if j.zHome then (false, 0) else (true, j.ref)))) ∧
    (∃ (s : State) (d : Desc), (Accepted s d (infoXftMount s d)) ∧ (s.cfg.streams.find (dfld d 16 0 7) = none)) ∧
    (∃ (s : State) (d : Desc) (k : _) (c : _), (k = dfld d 16 0 7) ∧ (s.cfg.streams.find k = some c) ∧ (Accepted s d (infoXftMount s d)) ∧ (mountGuarded s k = true)) ∧
    (∃ (s : State) (d : Desc) (k : _) (c : _), (k = dfld d 16 0 7) ∧ (s.cfg.streams.find k = some c) ∧ (Accepted s d (infoXftMount s d)) ∧ (mountGuarded s k = false) ∧ (c.kind ≠ kindCamera) ∧ (c.kind ≠ kindScan) ∧ (c.kind ≠ kindImu)) ∧
    (∃ (s : State) (d : Desc) (k : _) (c : _), (k = dfld d 16 0 7) ∧ (s.cfg.streams.find k = some c) ∧ (Accepted s d (infoXftMount s d)) ∧ (mountGuarded s k = false) ∧ (c.kind = kindCamera ∨ c.kind = kindScan ∨ c.kind = kindImu) ∧ (dbit d 17 7 = true) ∧ ((s.cfg.rigs.find (dfld d 17 0 4)).any (fun x => decide (dfld d 18 0 5 ≤ x.joints)) = true) ∧ (entryValid s (dfld d 20 0 13) = true)) ∧
    (∃ (s : State) (d : Desc) (k : _) (c : _), (k = dfld d 16 0 7) ∧ (s.cfg.streams.find k = some c) ∧ (Accepted s d (infoXftMount s d)) ∧ (mountGuarded s k = false) ∧ (c.kind = kindCamera ∨ c.kind = kindScan ∨ c.kind = kindImu) ∧ (dbit d 17 7 = true) ∧ ((s.cfg.rigs.find (dfld d 17 0 4)).any (fun x => decide (dfld d 18 0 5 ≤ x.joints)) = false ∨ entryValid s (dfld d 20 0 13) = false)) ∧
    (∃ (s : State) (d : Desc) (k : _) (c : _), (k = dfld d 16 0 7) ∧ (s.cfg.streams.find k = some c) ∧ (Accepted s d (infoXftMount s d)) ∧ (mountGuarded s k = false) ∧ (c.kind = kindCamera ∨ c.kind = kindScan ∨ c.kind = kindImu) ∧ (dbit d 17 7 = false) ∧ (s.cfg.egos.any (fun p => p.2.streams.contains k) = false)) ∧
    (∃ (s : State) (d : Desc) (k : _) (c : _), (k = dfld d 16 0 7) ∧ (s.cfg.streams.find k = some c) ∧ (Accepted s d (infoXftMount s d)) ∧ (mountGuarded s k = false) ∧ (c.kind = kindCamera ∨ c.kind = kindScan ∨ c.kind = kindImu) ∧ (dbit d 17 7 = false) ∧ (s.cfg.egos.any (fun p => p.2.streams.contains k) = true)) ∧
    (∃ (s : State) (d : Desc) (g : _) (x : _), (g = dfld d 16 0 4) ∧ (x = egoBody d) ∧ (Accepted s d (infoXftEgo s d)) ∧ (egoGuarded s g = true ∨ x.streams.any (streamGuarded s) = true)) ∧
    (∃ (s : State) (d : Desc) (g : _) (x : _), (g = dfld d 16 0 4) ∧ (x = egoBody d) ∧ (Accepted s d (infoXftEgo s d)) ∧ (egoGuarded s g = false) ∧ (x.streams.any (streamGuarded s) = false) ∧ (1 ≤ x.link) ∧ (x.link ≤ 16) ∧ ((s.cfg.rigs.find x.rig).any (fun r => decide (x.link ≤ r.joints)) = true) ∧ (x.regPoints ≤ 16384) ∧ (x.iterMax ≤ 8) ∧ (x.coastMax ≤ 8) ∧ (x.refAgeMax ≤ 15) ∧ (egoStreamsOk s x = true)) ∧
    (∃ (s : State) (d : Desc) (g : _) (x : _), (g = dfld d 16 0 4) ∧ (x = egoBody d) ∧ (Accepted s d (infoXftEgo s d)) ∧ (egoGuarded s g = false) ∧ (x.streams.any (streamGuarded s) = false) ∧ (x.link = 0 ∨ 16 < x.link ∨ (s.cfg.rigs.find x.rig).any (fun r => decide (x.link ≤ r.joints)) = false ∨ 16384 < x.regPoints ∨ 8 < x.iterMax ∨ 8 < x.coastMax ∨ 15 < x.refAgeMax ∨ egoStreamsOk s x = false)) ∧
    (∃ (s : State) (d : Desc), (Accepted s d (infoXftSetRef s d)) ∧ (s.cfg.joints.find (dfld d 16 0 7) = none)) ∧
    (∃ (s : State) (d : Desc) (k : _) (j : Joint) (y : JointSt) (which : _) (p : Option Int) (q : Option Int), (k = dfld d 16 0 7) ∧ (s.cfg.joints.find k = some j) ∧ (y = jointSt s k) ∧ (which = dfld d 18 0 2) ∧ (Accepted s d (infoXftSetRef s d)) ∧ (p = (if which.testBit 0 then y.primary.lastPos.bind (fun x => newRef j x (dfld d 24 0 64)) else some y.primary.ref)) ∧ (q = (if which.testBit 1 then y.check.lastPos.bind (fun x => newRef j x (dfld d 24 0 64)) else some y.check.ref)) ∧ (jointGuarded s k = true)) ∧
    (∃ (s : State) (d : Desc) (k : _) (j : Joint) (y : JointSt) (which : _) (p : Option Int) (q : Option Int), (k = dfld d 16 0 7) ∧ (s.cfg.joints.find k = some j) ∧ (y = jointSt s k) ∧ (which = dfld d 18 0 2) ∧ (Accepted s d (infoXftSetRef s d)) ∧ (p = (if which.testBit 0 then y.primary.lastPos.bind (fun x => newRef j x (dfld d 24 0 64)) else some y.primary.ref)) ∧ (q = (if which.testBit 1 then y.check.lastPos.bind (fun x => newRef j x (dfld d 24 0 64)) else some y.check.ref)) ∧ (jointGuarded s k = false) ∧ (j.zHome = true ∨ which = 0 ∨ (which.testBit 1 = true ∧ j.check = none) ∨ p = none ∨ q = none)) ∧
    (∃ (s : State) (d : Desc) (k : _) (j : Joint) (y : JointSt) (which : _) (p : Option Int) (q : Option Int) (a : _) (b : _), (k = dfld d 16 0 7) ∧ (s.cfg.joints.find k = some j) ∧ (y = jointSt s k) ∧ (which = dfld d 18 0 2) ∧ (Accepted s d (infoXftSetRef s d)) ∧ (p = (if which.testBit 0 then y.primary.lastPos.bind (fun x => newRef j x (dfld d 24 0 64)) else some y.primary.ref)) ∧ (q = (if which.testBit 1 then y.check.lastPos.bind (fun x => newRef j x (dfld d 24 0 64)) else some y.check.ref)) ∧ (jointGuarded s k = false) ∧ (j.zHome = false) ∧ (which ≠ 0) ∧ ((which.testBit 1 = true → j.check ≠ none)) ∧ (p = some a) ∧ (q = some b)) ∧
    (∃ (s : State) (d : Desc) (k : _), (k = dfld d 18 0 13) ∧ (Accepted s d (infoXftDelete s d)) ∧ (dfld d 16 0 2 = 0) ∧ (entryGuarded s k = true)) ∧
    (∃ (s : State) (d : Desc) (k : _), (k = dfld d 18 0 13) ∧ (Accepted s d (infoXftDelete s d)) ∧ (dfld d 16 0 2 = 0) ∧ (entryGuarded s k = false) ∧ (s.cfg.entries.find k = none)) ∧
    (∃ (s : State) (d : Desc) (k : _) (named : _), (k = dfld d 18 0 13) ∧ (Accepted s d (infoXftDelete s d)) ∧ (dfld d 16 0 2 = 0) ∧ (named = (s.cfg.rigs.any (fun p => p.2.root == k) || s.cfg.joints.any (fun p => p.2.pre == k) || s.cfg.streams.any (fun p => p.2.mount.any (fun m => m.2.2 == k)))) ∧ (entryGuarded s k = false) ∧ (s.cfg.entries.find k ≠ none) ∧ (named = true)) ∧
    (∃ (s : State) (d : Desc) (k : _) (named : _), (k = dfld d 18 0 13) ∧ (Accepted s d (infoXftDelete s d)) ∧ (dfld d 16 0 2 = 0) ∧ (named = (s.cfg.rigs.any (fun p => p.2.root == k) || s.cfg.joints.any (fun p => p.2.pre == k) || s.cfg.streams.any (fun p => p.2.mount.any (fun m => m.2.2 == k)))) ∧ (entryGuarded s k = false) ∧ (s.cfg.entries.find k ≠ none) ∧ (named = false)) ∧
    (∃ (s : State) (d : Desc) (k : _), (k = dfld d 18 0 13) ∧ (Accepted s d (infoXftDelete s d)) ∧ (dfld d 16 0 2 = 1) ∧ (s.cfg.joints.find k = none)) ∧
    (∃ (s : State) (d : Desc) (k : _) (j : _), (k = dfld d 18 0 13) ∧ (Accepted s d (infoXftDelete s d)) ∧ (dfld d 16 0 2 = 1) ∧ (s.cfg.joints.find k = some j) ∧ (jointGuarded s k = true)) ∧
    (∃ (s : State) (d : Desc) (k : _) (j : _), (k = dfld d 18 0 13) ∧ (Accepted s d (infoXftDelete s d)) ∧ (dfld d 16 0 2 = 1) ∧ (s.cfg.joints.find k = some j) ∧ (jointGuarded s k = false) ∧ ((s.cfg.rigs.find j.rig).any (·.enable) = true)) ∧
    (∃ (s : State) (d : Desc) (k : _) (j : _), (k = dfld d 18 0 13) ∧ (Accepted s d (infoXftDelete s d)) ∧ (dfld d 16 0 2 = 1) ∧ (s.cfg.joints.find k = some j) ∧ (jointGuarded s k = false) ∧ ((s.cfg.rigs.find j.rig).any (·.enable) = false)) ∧
    (∃ (s : State) (d : Desc) (k : _), (k = dfld d 18 0 13) ∧ (Accepted s d (infoXftDelete s d)) ∧ (dfld d 16 0 2 = 2) ∧ (rigGuarded s k = true)) ∧
    (∃ (s : State) (d : Desc) (k : _), (k = dfld d 18 0 13) ∧ (Accepted s d (infoXftDelete s d)) ∧ (dfld d 16 0 2 = 2) ∧ (rigGuarded s k = false) ∧ (s.cfg.rigs.find k = none)) ∧
    (∃ (s : State) (d : Desc) (k : _) (named : _), (k = dfld d 18 0 13) ∧ (Accepted s d (infoXftDelete s d)) ∧ (dfld d 16 0 2 = 2) ∧ (named = (s.cfg.joints.any (fun p => p.2.rig == k) || s.cfg.streams.any (fun p => p.2.mount.any (fun m => m.1 == k)) || s.cfg.egos.any (fun p => p.2.rig == k))) ∧ (rigGuarded s k = false) ∧ (s.cfg.rigs.find k ≠ none) ∧ (named = true)) ∧
    (∃ (s : State) (d : Desc) (k : _) (named : _), (k = dfld d 18 0 13) ∧ (Accepted s d (infoXftDelete s d)) ∧ (dfld d 16 0 2 = 2) ∧ (named = (s.cfg.joints.any (fun p => p.2.rig == k) || s.cfg.streams.any (fun p => p.2.mount.any (fun m => m.1 == k)) || s.cfg.egos.any (fun p => p.2.rig == k))) ∧ (rigGuarded s k = false) ∧ (s.cfg.rigs.find k ≠ none) ∧ (named = false)) ∧
    (∃ (s : State) (d : Desc) (k : _), (k = dfld d 18 0 13) ∧ (Accepted s d (infoXftDelete s d)) ∧ (dfld d 16 0 2 = 3) ∧ (egoGuarded s k = true)) ∧
    (∃ (s : State) (d : Desc) (k : _), (k = dfld d 18 0 13) ∧ (Accepted s d (infoXftDelete s d)) ∧ (dfld d 16 0 2 = 3) ∧ (egoGuarded s k = false)) ∧
    (∃ (s : State) (e : _) (t : _), (firstEpoch (s.epochs.filter (fun e => e.alignEnd.isSome && !e.aborted && (poseTableOf s e.cadence e.epoch).isNone)) = some e) ∧ (tableOf s e.cadence e.epoch = some t)) ∧
    (∃ (s : State) (e : _) (t : _), (firstEpoch (s.epochs.filter (fun e => e.alignEnd.isSome && !e.aborted && (poseTableOf s e.cadence e.epoch).isNone)) = some e) ∧ (tableOf s e.cadence e.epoch = some t) ∧ (e.cfg.joints = []) ∧ ((fitPoses t (poseRecs s e t)).2 = false) ∧ ((namedStreams e).filter (poseLost e t (fitPoses t (poseRecs s e t)).1) = []) ∧ ((∀ x ∈ s.epochs, (egosOf x).all x.egosDone.contains = false))) ∧
    (∃ (s : State), (s.epochs = [])) ∧
    (∃ (s : State) (g : _) (e : _) (t : _) (p : _) (x : _), (egoEpoch s g = some e) ∧ (tableOf s e.cadence e.epoch = some t) ∧ (poseTableOf s e.cadence e.epoch = some p) ∧ (e.cfg.egos.find g = some x) ∧ ((s.geo.ergRun.find x.erg).isSome = true)) ∧
    (∃ (s : State) (g : _) (e : _) (t : _) (p : _) (x : _) (pts : _), (egoEpoch s g = some e) ∧ (tableOf s e.cadence e.epoch = some t) ∧ (poseTableOf s e.cadence e.epoch = some p) ∧ (e.cfg.egos.find g = some x) ∧ (pts = x.streams.flatMap (streamPoints s e t p)) ∧ (pts ≠ []) ∧ ((s.geo.ergRun.find x.erg).isSome = false) ∧ ((Tbl.at Ego.reset s.xft.egos g).st = .init)) :=
  ⟨⟨w167, mk 1 0x0A00 [(16, 8191), (20, 0x3F800000), (24, 0), (44, 0x41200000)], 8191, ({ w := dfld (mk 1 0x0A00 [(16, 8191), (20, 0x3F800000), (24, 0), (44, 0x41200000)]) 20 0 32, x := dfld (mk 1 0x0A00 [(16, 8191), (20, 0x3F800000), (24, 0), (44, 0x41200000)]) 24 0 32, y := dfld (mk 1 0x0A00 [(16, 8191), (20, 0x3F800000), (24, 0), (44, 0x41200000)]) 28 0 32, z := dfld (mk 1 0x0A00 [(16, 8191), (20, 0x3F800000), (24, 0), (44, 0x41200000)]) 32 0 32, tx := dfld (mk 1 0x0A00 [(16, 8191), (20, 0x3F800000), (24, 0), (44, 0x41200000)]) 36 0 32, ty := dfld (mk 1 0x0A00 [(16, 8191), (20, 0x3F800000), (24, 0), (44, 0x41200000)]) 40 0 32, tz := dfld (mk 1 0x0A00 [(16, 8191), (20, 0x3F800000), (24, 0), (44, 0x41200000)]) 44 0 32 } : Pose), by decide +kernel⟩,
   ⟨up, mk 1 0x0A00 [(16, 8191), (20, 0x3F800000), (24, 0), (44, 0x41200000)], 8191, ({ w := dfld (mk 1 0x0A00 [(16, 8191), (20, 0x3F800000), (24, 0), (44, 0x41200000)]) 20 0 32, x := dfld (mk 1 0x0A00 [(16, 8191), (20, 0x3F800000), (24, 0), (44, 0x41200000)]) 24 0 32, y := dfld (mk 1 0x0A00 [(16, 8191), (20, 0x3F800000), (24, 0), (44, 0x41200000)]) 28 0 32, z := dfld (mk 1 0x0A00 [(16, 8191), (20, 0x3F800000), (24, 0), (44, 0x41200000)]) 32 0 32, tx := dfld (mk 1 0x0A00 [(16, 8191), (20, 0x3F800000), (24, 0), (44, 0x41200000)]) 36 0 32, ty := dfld (mk 1 0x0A00 [(16, 8191), (20, 0x3F800000), (24, 0), (44, 0x41200000)]) 40 0 32, tz := dfld (mk 1 0x0A00 [(16, 8191), (20, 0x3F800000), (24, 0), (44, 0x41200000)]) 44 0 32 } : Pose), by decide +kernel⟩,
   ⟨up, mk 1 0x0A00 [(16, 8191), (20, 0x3F800000), (24, 0x3F800000), (44, 0x41200000)], 8191, ({ w := dfld (mk 1 0x0A00 [(16, 8191), (20, 0x3F800000), (24, 0x3F800000), (44, 0x41200000)]) 20 0 32, x := dfld (mk 1 0x0A00 [(16, 8191), (20, 0x3F800000), (24, 0x3F800000), (44, 0x41200000)]) 24 0 32, y := dfld (mk 1 0x0A00 [(16, 8191), (20, 0x3F800000), (24, 0x3F800000), (44, 0x41200000)]) 28 0 32, z := dfld (mk 1 0x0A00 [(16, 8191), (20, 0x3F800000), (24, 0x3F800000), (44, 0x41200000)]) 32 0 32, tx := dfld (mk 1 0x0A00 [(16, 8191), (20, 0x3F800000), (24, 0x3F800000), (44, 0x41200000)]) 36 0 32, ty := dfld (mk 1 0x0A00 [(16, 8191), (20, 0x3F800000), (24, 0x3F800000), (44, 0x41200000)]) 40 0 32, tz := dfld (mk 1 0x0A00 [(16, 8191), (20, 0x3F800000), (24, 0x3F800000), (44, 0x41200000)]) 44 0 32 } : Pose), by decide +kernel⟩,
   ⟨w168, mk 1 0x0A01 [(16, 15), (17, 16), (20, 8191)], 15, 16, by decide +kernel⟩,
   ⟨w169, mk 1 0x0A01 [(16, 15), (17, 16), (20, 8191)], 15, 16, by decide +kernel⟩,
   ⟨w169, mk 1 0x0A01 [(16, 15), (17, 17), (20, 8191)], 15, 17, by decide +kernel⟩,
   ⟨w170, mk 1 0x0A02 [(16, 127), (18, 15), (19, 1), (20, 4), (21, 127), (23, 1), (24, 8191), (32, 0x3FF0000000000000), (40, 9), (60, 0x3F800000)], 127, { rig := dfld (mk 1 0x0A02 [(16, 127), (18, 15), (19, 1), (20, 4), (21, 127), (23, 1), (24, 8191), (32, 0x3FF0000000000000), (40, 9), (60, 0x3F800000)]) 18 0 4, position := dfld (mk 1 0x0A02 [(16, 127), (18, 15), (19, 1), (20, 4), (21, 127), (23, 1), (24, 8191), (32, 0x3FF0000000000000), (40, 9), (60, 0x3F800000)]) 19 0 5, prismatic := dbit (mk 1 0x0A02 [(16, 127), (18, 15), (19, 1), (20, 4), (21, 127), (23, 1), (24, 8191), (32, 0x3FF0000000000000), (40, 9), (60, 0x3F800000)]) 20 0, axis := dfld (mk 1 0x0A02 [(16, 127), (18, 15), (19, 1), (20, 4), (21, 127), (23, 1), (24, 8191), (32, 0x3FF0000000000000), (40, 9), (60, 0x3F800000)]) 20 1 3, zHome := dbit (mk 1 0x0A02 [(16, 127), (18, 15), (19, 1), (20, 4), (21, 127), (23, 1), (24, 8191), (32, 0x3FF0000000000000), (40, 9), (60, 0x3F800000)]) 20 4, wrap := dbit (mk 1 0x0A02 [(16, 127), (18, 15), (19, 1), (20, 4), (21, 127), (23, 1), (24, 8191), (32, 0x3FF0000000000000), (40, 9), (60, 0x3F800000)]) 20 5, primary := dfld (mk 1 0x0A02 [(16, 127), (18, 15), (19, 1), (20, 4), (21, 127), (23, 1), (24, 8191), (32, 0x3FF0000000000000), (40, 9), (60, 0x3F800000)]) 21 0 7, check := if dbit (mk 1 0x0A02 [(16, 127), (18, 15), (19, 1), (20, 4), (21, 127), (23, 1), (24, 8191), (32, 0x3FF0000000000000), (40, 9), (60, 0x3F800000)]) 22 7 then some (dfld (mk 1 0x0A02 [(16, 127), (18, 15), (19, 1), (20, 4), (21, 127), (23, 1), (24, 8191), (32, 0x3FF0000000000000), (40, 9), (60, 0x3F800000)]) 22 0 7) else none, zTol := dfld (mk 1 0x0A02 [(16, 127), (18, 15), (19, 1), (20, 4), (21, 127), (23, 1), (24, 8191), (32, 0x3FF0000000000000), (40, 9), (60, 0x3F800000)]) 23 0 8, pre := dfld (mk 1 0x0A02 [(16, 127), (18, 15), (19, 1), (20, 4), (21, 127), (23, 1), (24, 8191), (32, 0x3FF0000000000000), (40, 9), (60, 0x3F800000)]) 24 0 13, zOffset := signed 16 (dfld (mk 1 0x0A02 [(16, 127), (18, 15), (19, 1), (20, 4), (21, 127), (23, 1), (24, 8191), (32, 0x3FF0000000000000), (40, 9), (60, 0x3F800000)]) 26 0 16), zPeriod := dfld (mk 1 0x0A02 [(16, 127), (18, 15), (19, 1), (20, 4), (21, 127), (23, 1), (24, 8191), (32, 0x3FF0000000000000), (40, 9), (60, 0x3F800000)]) 28 0 32, scale := dfld (mk 1 0x0A02 [(16, 127), (18, 15), (19, 1), (20, 4), (21, 127), (23, 1), (24, 8191), (32, 0x3FF0000000000000), (40, 9), (60, 0x3F800000)]) 32 0 64, ref := signed 64 (dfld (mk 1 0x0A02 [(16, 127), (18, 15), (19, 1), (20, 4), (21, 127), (23, 1), (24, 8191), (32, 0x3FF0000000000000), (40, 9), (60, 0x3F800000)]) 40 0 64), zero := dfld (mk 1 0x0A02 [(16, 127), (18, 15), (19, 1), (20, 4), (21, 127), (23, 1), (24, 8191), (32, 0x3FF0000000000000), (40, 9), (60, 0x3F800000)]) 48 0 64, min := dfld (mk 1 0x0A02 [(16, 127), (18, 15), (19, 1), (20, 4), (21, 127), (23, 1), (24, 8191), (32, 0x3FF0000000000000), (40, 9), (60, 0x3F800000)]) 56 0 32, max := dfld (mk 1 0x0A02 [(16, 127), (18, 15), (19, 1), (20, 4), (21, 127), (23, 1), (24, 8191), (32, 0x3FF0000000000000), (40, 9), (60, 0x3F800000)]) 60 0 32 }, by decide +kernel⟩,
   ⟨up, mk 1 0x0A02 [(16, 127), (18, 15), (19, 0), (20, 4), (21, 127), (23, 1), (24, 8191), (32, 0x3FF0000000000000), (40, 9), (60, 0x3F800000)], 127, { rig := dfld (mk 1 0x0A02 [(16, 127), (18, 15), (19, 0), (20, 4), (21, 127), (23, 1), (24, 8191), (32, 0x3FF0000000000000), (40, 9), (60, 0x3F800000)]) 18 0 4, position := dfld (mk 1 0x0A02 [(16, 127), (18, 15), (19, 0), (20, 4), (21, 127), (23, 1), (24, 8191), (32, 0x3FF0000000000000), (40, 9), (60, 0x3F800000)]) 19 0 5, prismatic := dbit (mk 1 0x0A02 [(16, 127), (18, 15), (19, 0), (20, 4), (21, 127), (23, 1), (24, 8191), (32, 0x3FF0000000000000), (40, 9), (60, 0x3F800000)]) 20 0, axis := dfld (mk 1 0x0A02 [(16, 127), (18, 15), (19, 0), (20, 4), (21, 127), (23, 1), (24, 8191), (32, 0x3FF0000000000000), (40, 9), (60, 0x3F800000)]) 20 1 3, zHome := dbit (mk 1 0x0A02 [(16, 127), (18, 15), (19, 0), (20, 4), (21, 127), (23, 1), (24, 8191), (32, 0x3FF0000000000000), (40, 9), (60, 0x3F800000)]) 20 4, wrap := dbit (mk 1 0x0A02 [(16, 127), (18, 15), (19, 0), (20, 4), (21, 127), (23, 1), (24, 8191), (32, 0x3FF0000000000000), (40, 9), (60, 0x3F800000)]) 20 5, primary := dfld (mk 1 0x0A02 [(16, 127), (18, 15), (19, 0), (20, 4), (21, 127), (23, 1), (24, 8191), (32, 0x3FF0000000000000), (40, 9), (60, 0x3F800000)]) 21 0 7, check := if dbit (mk 1 0x0A02 [(16, 127), (18, 15), (19, 0), (20, 4), (21, 127), (23, 1), (24, 8191), (32, 0x3FF0000000000000), (40, 9), (60, 0x3F800000)]) 22 7 then some (dfld (mk 1 0x0A02 [(16, 127), (18, 15), (19, 0), (20, 4), (21, 127), (23, 1), (24, 8191), (32, 0x3FF0000000000000), (40, 9), (60, 0x3F800000)]) 22 0 7) else none, zTol := dfld (mk 1 0x0A02 [(16, 127), (18, 15), (19, 0), (20, 4), (21, 127), (23, 1), (24, 8191), (32, 0x3FF0000000000000), (40, 9), (60, 0x3F800000)]) 23 0 8, pre := dfld (mk 1 0x0A02 [(16, 127), (18, 15), (19, 0), (20, 4), (21, 127), (23, 1), (24, 8191), (32, 0x3FF0000000000000), (40, 9), (60, 0x3F800000)]) 24 0 13, zOffset := signed 16 (dfld (mk 1 0x0A02 [(16, 127), (18, 15), (19, 0), (20, 4), (21, 127), (23, 1), (24, 8191), (32, 0x3FF0000000000000), (40, 9), (60, 0x3F800000)]) 26 0 16), zPeriod := dfld (mk 1 0x0A02 [(16, 127), (18, 15), (19, 0), (20, 4), (21, 127), (23, 1), (24, 8191), (32, 0x3FF0000000000000), (40, 9), (60, 0x3F800000)]) 28 0 32, scale := dfld (mk 1 0x0A02 [(16, 127), (18, 15), (19, 0), (20, 4), (21, 127), (23, 1), (24, 8191), (32, 0x3FF0000000000000), (40, 9), (60, 0x3F800000)]) 32 0 64, ref := signed 64 (dfld (mk 1 0x0A02 [(16, 127), (18, 15), (19, 0), (20, 4), (21, 127), (23, 1), (24, 8191), (32, 0x3FF0000000000000), (40, 9), (60, 0x3F800000)]) 40 0 64), zero := dfld (mk 1 0x0A02 [(16, 127), (18, 15), (19, 0), (20, 4), (21, 127), (23, 1), (24, 8191), (32, 0x3FF0000000000000), (40, 9), (60, 0x3F800000)]) 48 0 64, min := dfld (mk 1 0x0A02 [(16, 127), (18, 15), (19, 0), (20, 4), (21, 127), (23, 1), (24, 8191), (32, 0x3FF0000000000000), (40, 9), (60, 0x3F800000)]) 56 0 32, max := dfld (mk 1 0x0A02 [(16, 127), (18, 15), (19, 0), (20, 4), (21, 127), (23, 1), (24, 8191), (32, 0x3FF0000000000000), (40, 9), (60, 0x3F800000)]) 60 0 32 }, by decide +kernel⟩,
   ⟨w171, mk 1 0x0A02 [(16, 127), (18, 15), (19, 16), (20, 4), (21, 127), (23, 1), (24, 8191), (32, 0x3FF0000000000000), (40, 9), (60, 0x3F800000)], 127, { rig := dfld (mk 1 0x0A02 [(16, 127), (18, 15), (19, 16), (20, 4), (21, 127), (23, 1), (24, 8191), (32, 0x3FF0000000000000), (40, 9), (60, 0x3F800000)]) 18 0 4, position := dfld (mk 1 0x0A02 [(16, 127), (18, 15), (19, 16), (20, 4), (21, 127), (23, 1), (24, 8191), (32, 0x3FF0000000000000), (40, 9), (60, 0x3F800000)]) 19 0 5, prismatic := dbit (mk 1 0x0A02 [(16, 127), (18, 15), (19, 16), (20, 4), (21, 127), (23, 1), (24, 8191), (32, 0x3FF0000000000000), (40, 9), (60, 0x3F800000)]) 20 0, axis := dfld (mk 1 0x0A02 [(16, 127), (18, 15), (19, 16), (20, 4), (21, 127), (23, 1), (24, 8191), (32, 0x3FF0000000000000), (40, 9), (60, 0x3F800000)]) 20 1 3, zHome := dbit (mk 1 0x0A02 [(16, 127), (18, 15), (19, 16), (20, 4), (21, 127), (23, 1), (24, 8191), (32, 0x3FF0000000000000), (40, 9), (60, 0x3F800000)]) 20 4, wrap := dbit (mk 1 0x0A02 [(16, 127), (18, 15), (19, 16), (20, 4), (21, 127), (23, 1), (24, 8191), (32, 0x3FF0000000000000), (40, 9), (60, 0x3F800000)]) 20 5, primary := dfld (mk 1 0x0A02 [(16, 127), (18, 15), (19, 16), (20, 4), (21, 127), (23, 1), (24, 8191), (32, 0x3FF0000000000000), (40, 9), (60, 0x3F800000)]) 21 0 7, check := if dbit (mk 1 0x0A02 [(16, 127), (18, 15), (19, 16), (20, 4), (21, 127), (23, 1), (24, 8191), (32, 0x3FF0000000000000), (40, 9), (60, 0x3F800000)]) 22 7 then some (dfld (mk 1 0x0A02 [(16, 127), (18, 15), (19, 16), (20, 4), (21, 127), (23, 1), (24, 8191), (32, 0x3FF0000000000000), (40, 9), (60, 0x3F800000)]) 22 0 7) else none, zTol := dfld (mk 1 0x0A02 [(16, 127), (18, 15), (19, 16), (20, 4), (21, 127), (23, 1), (24, 8191), (32, 0x3FF0000000000000), (40, 9), (60, 0x3F800000)]) 23 0 8, pre := dfld (mk 1 0x0A02 [(16, 127), (18, 15), (19, 16), (20, 4), (21, 127), (23, 1), (24, 8191), (32, 0x3FF0000000000000), (40, 9), (60, 0x3F800000)]) 24 0 13, zOffset := signed 16 (dfld (mk 1 0x0A02 [(16, 127), (18, 15), (19, 16), (20, 4), (21, 127), (23, 1), (24, 8191), (32, 0x3FF0000000000000), (40, 9), (60, 0x3F800000)]) 26 0 16), zPeriod := dfld (mk 1 0x0A02 [(16, 127), (18, 15), (19, 16), (20, 4), (21, 127), (23, 1), (24, 8191), (32, 0x3FF0000000000000), (40, 9), (60, 0x3F800000)]) 28 0 32, scale := dfld (mk 1 0x0A02 [(16, 127), (18, 15), (19, 16), (20, 4), (21, 127), (23, 1), (24, 8191), (32, 0x3FF0000000000000), (40, 9), (60, 0x3F800000)]) 32 0 64, ref := signed 64 (dfld (mk 1 0x0A02 [(16, 127), (18, 15), (19, 16), (20, 4), (21, 127), (23, 1), (24, 8191), (32, 0x3FF0000000000000), (40, 9), (60, 0x3F800000)]) 40 0 64), zero := dfld (mk 1 0x0A02 [(16, 127), (18, 15), (19, 16), (20, 4), (21, 127), (23, 1), (24, 8191), (32, 0x3FF0000000000000), (40, 9), (60, 0x3F800000)]) 48 0 64, min := dfld (mk 1 0x0A02 [(16, 127), (18, 15), (19, 16), (20, 4), (21, 127), (23, 1), (24, 8191), (32, 0x3FF0000000000000), (40, 9), (60, 0x3F800000)]) 56 0 32, max := dfld (mk 1 0x0A02 [(16, 127), (18, 15), (19, 16), (20, 4), (21, 127), (23, 1), (24, 8191), (32, 0x3FF0000000000000), (40, 9), (60, 0x3F800000)]) 60 0 32 }, (true, 9), by decide +kernel⟩,
   ⟨up, mk 1 0x0A03 [(16, 127), (17, 143), (18, 16), (19, 1), (20, 8191)], by decide +kernel⟩,
   ⟨w172, mk 1 0x0A03 [(16, 127), (17, 143), (18, 16), (19, 1), (20, 8191)], 127, sc kindCamera 31, by decide +kernel⟩,
   ⟨w173, mk 1 0x0A03 [(16, 127), (17, 143), (18, 16), (19, 1), (20, 8191)], 127, sc kindDigital 31, by decide +kernel⟩,
   ⟨w174, mk 1 0x0A03 [(16, 127), (17, 143), (18, 16), (19, 1), (20, 8191)], 127, sc kindCamera 31, by decide +kernel⟩,
   ⟨w175, mk 1 0x0A03 [(16, 127), (17, 143), (18, 16), (19, 1), (20, 8191)], 127, sc kindCamera 31, by decide +kernel⟩,
   ⟨w174, mk 1 0x0A03 [(16, 127), (17, 15), (18, 16), (19, 1), (20, 8191)], 127, sc kindCamera 31, by decide +kernel⟩,
   ⟨w176, mk 1 0x0A03 [(16, 127), (17, 15), (18, 16), (19, 1), (20, 8191)], 127, sc kindScan 31, by decide +kernel⟩,
   ⟨w177, mk 1 0x0A04 [(16, 15), (17, 15), (18, 1), (19, 192), (20, 255)], 15, egoBody (mk 1 0x0A04 [(16, 15), (17, 15), (18, 1), (19, 192), (20, 255)]), by decide +kernel⟩,
   ⟨w178, mk 1 0x0A04 [(16, 15), (17, 15), (18, 1), (19, 192), (20, 255)], 15, egoBody (mk 1 0x0A04 [(16, 15), (17, 15), (18, 1), (19, 192), (20, 255)]), by decide +kernel⟩,
   ⟨w178, mk 1 0x0A04 [(16, 15), (17, 15), (18, 17), (19, 192), (20, 255)], 15, egoBody (mk 1 0x0A04 [(16, 15), (17, 15), (18, 17), (19, 192), (20, 255)]), by decide +kernel⟩,
   ⟨up, mk 1 0x0A05 [(16, 127), (18, 1), (24, 0x3FF0000000000000)], by decide +kernel⟩,
   ⟨w179, mk 1 0x0A05 [(16, 127), (18, 1), (24, 0x3FF0000000000000)], 127, joint0, jointSt (w179) (127), dfld (mk 1 0x0A05 [(16, 127), (18, 1), (24, 0x3FF0000000000000)]) 18 0 2, (if (dfld (mk 1 0x0A05 [(16, 127), (18, 1), (24, 0x3FF0000000000000)]) 18 0 2).testBit 0 then (jointSt (w179) (127)).primary.lastPos.bind (fun x => newRef (joint0) x (dfld (mk 1 0x0A05 [(16, 127), (18, 1), (24, 0x3FF0000000000000)]) 24 0 64)) else some (jointSt (w179) (127)).primary.ref), (if (dfld (mk 1 0x0A05 [(16, 127), (18, 1), (24, 0x3FF0000000000000)]) 18 0 2).testBit 1 then (jointSt (w179) (127)).check.lastPos.bind (fun x => newRef (joint0) x (dfld (mk 1 0x0A05 [(16, 127), (18, 1), (24, 0x3FF0000000000000)]) 24 0 64)) else some (jointSt (w179) (127)).check.ref), by decide +kernel⟩,
   ⟨w180, mk 1 0x0A05 [(16, 127), (18, 0), (24, 0x3FF0000000000000)], 127, joint0, jointSt (w180) (127), dfld (mk 1 0x0A05 [(16, 127), (18, 0), (24, 0x3FF0000000000000)]) 18 0 2, (if (dfld (mk 1 0x0A05 [(16, 127), (18, 0), (24, 0x3FF0000000000000)]) 18 0 2).testBit 0 then (jointSt (w180) (127)).primary.lastPos.bind (fun x => newRef (joint0) x (dfld (mk 1 0x0A05 [(16, 127), (18, 0), (24, 0x3FF0000000000000)]) 24 0 64)) else some (jointSt (w180) (127)).primary.ref), (if (dfld (mk 1 0x0A05 [(16, 127), (18, 0), (24, 0x3FF0000000000000)]) 18 0 2).testBit 1 then (jointSt (w180) (127)).check.lastPos.bind (fun x => newRef (joint0) x (dfld (mk 1 0x0A05 [(16, 127), (18, 0), (24, 0x3FF0000000000000)]) 24 0 64)) else some (jointSt (w180) (127)).check.ref), by decide +kernel⟩,
   ⟨w180, mk 1 0x0A05 [(16, 127), (18, 1), (24, 0x3FF0000000000000)], 127, joint0, jointSt (w180) (127), dfld (mk 1 0x0A05 [(16, 127), (18, 1), (24, 0x3FF0000000000000)]) 18 0 2, (if (dfld (mk 1 0x0A05 [(16, 127), (18, 1), (24, 0x3FF0000000000000)]) 18 0 2).testBit 0 then (jointSt (w180) (127)).primary.lastPos.bind (fun x => newRef (joint0) x (dfld (mk 1 0x0A05 [(16, 127), (18, 1), (24, 0x3FF0000000000000)]) 24 0 64)) else some (jointSt (w180) (127)).primary.ref), (if (dfld (mk 1 0x0A05 [(16, 127), (18, 1), (24, 0x3FF0000000000000)]) 18 0 2).testBit 1 then (jointSt (w180) (127)).check.lastPos.bind (fun x => newRef (joint0) x (dfld (mk 1 0x0A05 [(16, 127), (18, 1), (24, 0x3FF0000000000000)]) 24 0 64)) else some (jointSt (w180) (127)).check.ref), (((if (dfld (mk 1 0x0A05 [(16, 127), (18, 1), (24, 0x3FF0000000000000)]) 18 0 2).testBit 0 then (jointSt (w180) (127)).primary.lastPos.bind (fun x => newRef (joint0) x (dfld (mk 1 0x0A05 [(16, 127), (18, 1), (24, 0x3FF0000000000000)]) 24 0 64)) else some (jointSt (w180) (127)).primary.ref)) : Option Int).getD 0, 0, by decide +kernel⟩,
   ⟨w167, mk 1 0x0A06 [(16, 0), (18, 8191)], 8191, by decide +kernel⟩,
   ⟨up, mk 1 0x0A06 [(16, 0), (18, 8191)], 8191, by decide +kernel⟩,
   ⟨w181, mk 1 0x0A06 [(16, 0), (18, 8191)], 8191, ((w181).cfg.rigs.any (fun p => p.2.root == (8191)) || (w181).cfg.joints.any (fun p => p.2.pre == (8191)) || (w181).cfg.streams.any (fun p => p.2.mount.any (fun m => m.2.2 == (8191)))), by decide +kernel⟩,
   ⟨w169, mk 1 0x0A06 [(16, 0), (18, 8191)], 8191, ((w169).cfg.rigs.any (fun p => p.2.root == (8191)) || (w169).cfg.joints.any (fun p => p.2.pre == (8191)) || (w169).cfg.streams.any (fun p => p.2.mount.any (fun m => m.2.2 == (8191)))), by decide +kernel⟩,
   ⟨up, mk 1 0x0A06 [(16, 1), (18, 127)], 127, by decide +kernel⟩,
   ⟨w182, mk 1 0x0A06 [(16, 1), (18, 127)], 127, joint0, by decide +kernel⟩,
   ⟨w183, mk 1 0x0A06 [(16, 1), (18, 127)], 127, joint0, by decide +kernel⟩,
   ⟨w184, mk 1 0x0A06 [(16, 1), (18, 127)], 127, joint0, by decide +kernel⟩,
   ⟨w185, mk 1 0x0A06 [(16, 2), (18, 15)], 15, by decide +kernel⟩,
   ⟨up, mk 1 0x0A06 [(16, 2), (18, 15)], 15, by decide +kernel⟩,
   ⟨w183, mk 1 0x0A06 [(16, 2), (18, 15)], 15, ((w183).cfg.joints.any (fun p => p.2.rig == (15)) || (w183).cfg.streams.any (fun p => p.2.mount.any (fun m => m.1 == (15))) || (w183).cfg.egos.any (fun p => p.2.rig == (15))), by decide +kernel⟩,
   ⟨w186, mk 1 0x0A06 [(16, 2), (18, 15)], 15, ((w186).cfg.joints.any (fun p => p.2.rig == (15)) || (w186).cfg.streams.any (fun p => p.2.mount.any (fun m => m.1 == (15))) || (w186).cfg.egos.any (fun p => p.2.rig == (15))), by decide +kernel⟩,
   ⟨w187, mk 1 0x0A06 [(16, 3), (18, 15)], 15, by decide +kernel⟩,
   ⟨w188, mk 1 0x0A06 [(16, 3), (18, 15)], 15, by decide +kernel⟩,
   ⟨w189, { ep 31 5 with alignEnd := some 0, cfg := { up.cfg with egos := [(15, ego0)], streams := [(127, sc kindScan 31)] } }, et 5, by decide +kernel⟩,
   ⟨w189, { ep 31 5 with alignEnd := some 0, cfg := { up.cfg with egos := [(15, ego0)], streams := [(127, sc kindScan 31)] } }, et 5, by decide +kernel⟩,
   ⟨up, by decide +kernel⟩,
   ⟨w190, 15, { ep 31 5 with cfg := { up.cfg with streams := [(127, { sc kindScan 31 with mount := some (15, 1, 8191) })], egos := [(15, ego0)], grids := [(7, grid0)] } }, { et 5 with queries := [{ time := 0, frac := 0, source := 127, kind := 2, member := 9, values := [] }, { time := 0, frac := 0, source := 127, kind := 3, member := 9, values := [] }] }, { epoch := 5, tov := 0, kinematic := 0, corrected := none, groups := [], joints := [], poses := [{ query := 0, stream := 127, status := 0, flags := 0, rig := 15, link := Pose.id, sensor := Pose.id }, { query := 1, stream := 127, status := 0, flags := 0, rig := 15, link := Pose.id, sensor := Pose.id }] }, ego0, by decide +kernel⟩,
   ⟨w191, 15, { ep 31 5 with cfg := { up.cfg with streams := [(127, { sc kindScan 31 with mount := some (15, 1, 8191) })], egos := [(15, ego0)], grids := [(7, grid0)] } }, { et 5 with queries := [{ time := 0, frac := 0, source := 127, kind := 2, member := 9, values := [] }, { time := 0, frac := 0, source := 127, kind := 3, member := 9, values := [] }] }, { epoch := 5, tov := 0, kinematic := 0, corrected := none, groups := [], joints := [], poses := [{ query := 0, stream := 127, status := 0, flags := 0, rig := 15, link := Pose.id, sensor := Pose.id }, { query := 1, stream := 127, status := 0, flags := 0, rig := 15, link := Pose.id, sensor := Pose.id }] }, ego0, (ego0).streams.flatMap (streamPoints (w191) ({ ep 31 5 with cfg := { up.cfg with streams := [(127, { sc kindScan 31 with mount := some (15, 1, 8191) })], egos := [(15, ego0)], grids := [(7, grid0)] } }) ({ et 5 with queries := [{ time := 0, frac := 0, source := 127, kind := 2, member := 9, values := [] }, { time := 0, frac := 0, source := 127, kind := 3, member := 9, values := [] }] }) ({ epoch := 5, tov := 0, kinematic := 0, corrected := none, groups := [], joints := [], poses := [{ query := 0, stream := 127, status := 0, flags := 0, rig := 15, link := Pose.id, sensor := Pose.id }, { query := 1, stream := 127, status := 0, flags := 0, rig := 15, link := Pose.id, sensor := Pose.id }] })), by decide +kernel, by decide +kernel, by decide +kernel, by decide +kernel, rfl, (fun h => by have := congrArg List.length h; revert this; decide +kernel), by decide +kernel, by decide +kernel⟩⟩

theorem test_witness_MmuDescriptors :
    (∃ (d : Desc), (dfld d 38 0 5 = 0)) ∧
    (∃ (d : Desc), (dbit d 38 4 = true) ∧ (d.did ≤ 1)) ∧
    (∃ (d : Desc), (dbit d 38 4 = true) ∧ (2 ≤ d.did)) ∧
    (∃ (s : State) (d : Desc), (mmuContext d = none) ∧ (Accepted s d (infoMmuMap s d))) ∧
    (∃ (s : State) (d : Desc), (mmuContext d = none) ∧ (Accepted s d (infoMmuUnmap s d))) ∧
    (∃ (s : State) (d : Desc), (mmuContext d = none) ∧ (Accepted s d (infoMmuQuery s d))) ∧
    (∃ (s : State) (d : Desc) (m : _) (c : _) (n : _) (va : _) (target : _) (ta : _) (leaf : LeafRun), (mmuContext d = some m) ∧ (c = Tbl.at Context.reset s.mmu.ctx m) ∧ (n = dfld d 32 0 32) ∧ (va = dfld d 16 0 64) ∧ (Accepted s d (infoMmuMap s d)) ∧ (target = dfld d 36 0 2) ∧ (ta = dfld d 24 0 64) ∧ (leaf = { va := va / 65536, pages := n, target := target, read := dbit d 36 2, write := dbit d 36 3, managed := false, large := false, module := if target = 2 then dfld d 37 0 4 else 0, page := ta / 65536 }) ∧ (va % 65536 = 0) ∧ (n ≠ 0) ∧ (n ≤ 2 ^ 24) ∧ (va / 65536 + n ≤ 2 ^ 32) ∧ (ta % 65536 = 0) ∧ (target ≠ 3) ∧ (c.runs.any (fun r => pagesMeet (va / 65536) n r.va r.pages) = false) ∧ (sequenceOwns s m (va / 65536) n = false) ∧ ((target = 0 → ta / 65536 + n ≤ 0x380000)) ∧ ((target ≠ 0 → m ≠ 0)) ∧ ((target = 2 → dfld d 37 0 4 ≠ s.oct.module)) ∧ (target = 0) ∧ (fwGrants s m (ta / 65536) n (dbit d 36 2) (dbit d 36 3) = false)) ∧
    (∃ (s : State) (d : Desc) (m : _) (c : _) (n : _) (va : _) (target : _) (ta : _) (leaf : LeafRun), (mmuContext d = some m) ∧ (c = Tbl.at Context.reset s.mmu.ctx m) ∧ (n = dfld d 32 0 32) ∧ (va = dfld d 16 0 64) ∧ (Accepted s d (infoMmuMap s d)) ∧ (target = dfld d 36 0 2) ∧ (ta = dfld d 24 0 64) ∧ (leaf = { va := va / 65536, pages := n, target := target, read := dbit d 36 2, write := dbit d 36 3, managed := false, large := false, module := if target = 2 then dfld d 37 0 4 else 0, page := ta / 65536 }) ∧ (va % 65536 = 0) ∧ (n ≠ 0) ∧ (n ≤ 2 ^ 24) ∧ (va / 65536 + n ≤ 2 ^ 32) ∧ (ta % 65536 = 0) ∧ (target ≠ 3) ∧ (c.runs.any (fun r => pagesMeet (va / 65536) n r.va r.pages) = false) ∧ (sequenceOwns s m (va / 65536) n = false) ∧ ((target = 0 → ta / 65536 + n ≤ 0x380000)) ∧ ((target ≠ 0 → m ≠ 0)) ∧ ((target = 2 → dfld d 37 0 4 ≠ s.oct.module)) ∧ ((target = 0 → fwGrants s m (ta / 65536) n (dbit d 36 2) (dbit d 36 3) = true))) ∧
    (∃ (s : State) (d : Desc) (m : _) (c : _) (n : _) (va : _), (mmuContext d = some m) ∧ (c = Tbl.at Context.reset s.mmu.ctx m) ∧ (n = dfld d 32 0 32) ∧ (va = dfld d 16 0 64) ∧ (Accepted s d (infoMmuMap s d)) ∧ (n = 0 ∨ 2 ^ 24 < n ∨ va % 65536 ≠ 0 ∨ 2 ^ 32 < va / 65536 + n ∨ dfld d 36 0 2 = 3 ∨ c.runs.any (fun r => pagesMeet (va / 65536) n r.va r.pages) = true ∨ sequenceOwns s m (va / 65536) n = true)) ∧
    (∃ (s : State) (d : Desc) (m : _) (c : Context) (n : _) (va : _), (mmuContext d = some m) ∧ (c = Tbl.at Context.reset s.mmu.ctx m) ∧ (n = dfld d 32 0 32) ∧ (va = dfld d 16 0 64) ∧ (Accepted s d (infoMmuUnmap s d)) ∧ (va % 65536 = 0) ∧ (n ≠ 0) ∧ (n ≤ 2 ^ 24) ∧ (va / 65536 + n ≤ 2 ^ 32) ∧ (unmappable c.runs (va / 65536) n = true)) ∧
    (∃ (s : State) (d : Desc) (m : _) (c : _) (n : _) (va : _), (mmuContext d = some m) ∧ (c = Tbl.at Context.reset s.mmu.ctx m) ∧ (n = dfld d 32 0 32) ∧ (va = dfld d 16 0 64) ∧ (Accepted s d (infoMmuUnmap s d)) ∧ (va % 65536 = 0) ∧ (n ≠ 0) ∧ (n ≤ 2 ^ 24) ∧ (va / 65536 + n ≤ 2 ^ 32) ∧ (unmappable c.runs (va / 65536) n = false)) ∧
    (∃ (s : State) (d : Desc) (m : _) (c : _) (n : _) (va : _), (mmuContext d = some m) ∧ (c = Tbl.at Context.reset s.mmu.ctx m) ∧ (n = dfld d 32 0 32) ∧ (va = dfld d 16 0 64) ∧ (Accepted s d (infoMmuQuery s d)) ∧ (va < 2 ^ 48) ∧ (findRun c.runs (va / 65536) = none)) ∧
    (∃ (s : State) (d : Desc) (m : _) (c : _) (n : _) (va : _) (r : _), (mmuContext d = some m) ∧ (c = Tbl.at Context.reset s.mmu.ctx m) ∧ (n = dfld d 32 0 32) ∧ (va = dfld d 16 0 64) ∧ (Accepted s d (infoMmuQuery s d)) ∧ (va < 2 ^ 48) ∧ (findRun c.runs (va / 65536) = some r)) ∧
    (∃ (s : State) (d : Desc) (m : _) (c : _) (n : _) (va : _), (mmuContext d = some m) ∧ (c = Tbl.at Context.reset s.mmu.ctx m) ∧ (n = dfld d 32 0 32) ∧ (va = dfld d 16 0 64) ∧ (Accepted s d (infoMmuQuery s d)) ∧ (2 ^ 48 ≤ va)) ∧
    (∃ (s : State) (d : Desc) (k : _), (k = dfld d 16 0 8) ∧ (Accepted s d (infoMmuFwSet s d)) ∧ (dfld d 20 0 32 ≤ dfld d 24 0 32)) ∧
    (∃ (s : State) (d : Desc) (k : _), (k = dfld d 16 0 8) ∧ (Accepted s d (infoMmuFwSet s d)) ∧ (dfld d 24 0 32 < dfld d 20 0 32)) ∧
    (∃ (d : Desc) (k : _), (k = dfld d 16 0 8) ∧ (k = 0 ∨ (k ≤ 63 ∧ d.did ≠ 1) ∨ (64 ≤ k ∧ d.did ≠ 2))) ∧
    (∃ (s : State) (d : Desc) (k : _), (k = dfld d 16 0 8) ∧ (mayStart s d = true) ∧ (descChecks s d (infoMmuFwSet s d) = stNotAuth)) :=
  ⟨⟨mk 1 0x1402 [(16, 7)], by decide +kernel⟩,
   ⟨mk 1 0x1402 [(16, 7), (38, 31)], by decide +kernel⟩,
   ⟨ringD (mk 1 0x1402 [(16, 7), (38, 16)]), by decide +kernel⟩,
   ⟨w192, ringD (mk 1 0x1400 [(16, 458752), (24, 589824), (32, 2), (36, 12), (38, 16)]), by decide +kernel⟩,
   ⟨w193, ringD (mk 1 0x1401 [(16, 458752), (32, 2), (38, 16)]), by decide +kernel⟩,
   ⟨w194, ringD (mk 1 0x1402 [(16, 7), (38, 16)]), by decide +kernel⟩,
   ⟨w195, ringD (mk 1 0x1400 [(16, 458752), (24, 589824), (32, 3670007), (36, 12)]), 2, Context.reset, dfld (ringD (mk 1 0x1400 [(16, 458752), (24, 589824), (32, 3670007), (36, 12)])) 32 0 32, dfld (ringD (mk 1 0x1400 [(16, 458752), (24, 589824), (32, 3670007), (36, 12)])) 16 0 64, dfld (ringD (mk 1 0x1400 [(16, 458752), (24, 589824), (32, 3670007), (36, 12)])) 36 0 2, dfld (ringD (mk 1 0x1400 [(16, 458752), (24, 589824), (32, 3670007), (36, 12)])) 24 0 64, { va := (dfld (ringD (mk 1 0x1400 [(16, 458752), (24, 589824), (32, 3670007), (36, 12)])) 16 0 64) / 65536, pages := (dfld (ringD (mk 1 0x1400 [(16, 458752), (24, 589824), (32, 3670007), (36, 12)])) 32 0 32), target := (dfld (ringD (mk 1 0x1400 [(16, 458752), (24, 589824), (32, 3670007), (36, 12)])) 36 0 2), read := dbit (ringD (mk 1 0x1400 [(16, 458752), (24, 589824), (32, 3670007), (36, 12)])) 36 2, write := dbit (ringD (mk 1 0x1400 [(16, 458752), (24, 589824), (32, 3670007), (36, 12)])) 36 3, managed := false, large := false, module := if (dfld (ringD (mk 1 0x1400 [(16, 458752), (24, 589824), (32, 3670007), (36, 12)])) 36 0 2) = 2 then dfld (ringD (mk 1 0x1400 [(16, 458752), (24, 589824), (32, 3670007), (36, 12)])) 37 0 4 else 0, page := (dfld (ringD (mk 1 0x1400 [(16, 458752), (24, 589824), (32, 3670007), (36, 12)])) 24 0 64) / 65536 }, by decide +kernel⟩,
   ⟨w196, ringD (mk 1 0x1400 [(16, 458752), (24, 589824), (32, 3670007), (36, 12)]), 2, Context.reset, dfld (ringD (mk 1 0x1400 [(16, 458752), (24, 589824), (32, 3670007), (36, 12)])) 32 0 32, dfld (ringD (mk 1 0x1400 [(16, 458752), (24, 589824), (32, 3670007), (36, 12)])) 16 0 64, dfld (ringD (mk 1 0x1400 [(16, 458752), (24, 589824), (32, 3670007), (36, 12)])) 36 0 2, dfld (ringD (mk 1 0x1400 [(16, 458752), (24, 589824), (32, 3670007), (36, 12)])) 24 0 64, { va := (dfld (ringD (mk 1 0x1400 [(16, 458752), (24, 589824), (32, 3670007), (36, 12)])) 16 0 64) / 65536, pages := (dfld (ringD (mk 1 0x1400 [(16, 458752), (24, 589824), (32, 3670007), (36, 12)])) 32 0 32), target := (dfld (ringD (mk 1 0x1400 [(16, 458752), (24, 589824), (32, 3670007), (36, 12)])) 36 0 2), read := dbit (ringD (mk 1 0x1400 [(16, 458752), (24, 589824), (32, 3670007), (36, 12)])) 36 2, write := dbit (ringD (mk 1 0x1400 [(16, 458752), (24, 589824), (32, 3670007), (36, 12)])) 36 3, managed := false, large := false, module := if (dfld (ringD (mk 1 0x1400 [(16, 458752), (24, 589824), (32, 3670007), (36, 12)])) 36 0 2) = 2 then dfld (ringD (mk 1 0x1400 [(16, 458752), (24, 589824), (32, 3670007), (36, 12)])) 37 0 4 else 0, page := (dfld (ringD (mk 1 0x1400 [(16, 458752), (24, 589824), (32, 3670007), (36, 12)])) 24 0 64) / 65536 }, by decide +kernel⟩,
   ⟨w197, ringD (mk 1 0x1400 [(16, 458752), (24, 589824), (32, 2), (36, 12)]), 2, { Context.reset with enable := true, runs := [⟨6, 3, 0, true, true, false, false, 0, 9⟩] }, dfld (ringD (mk 1 0x1400 [(16, 458752), (24, 589824), (32, 2), (36, 12)])) 32 0 32, dfld (ringD (mk 1 0x1400 [(16, 458752), (24, 589824), (32, 2), (36, 12)])) 16 0 64, by decide +kernel⟩,
   ⟨w198, ringD (mk 1 0x1401 [(16, 458752), (32, 2)]), 2, { Context.reset with enable := true, runs := [⟨6, 3, 0, true, true, false, false, 0, 9⟩] }, dfld (ringD (mk 1 0x1401 [(16, 458752), (32, 2)])) 32 0 32, dfld (ringD (mk 1 0x1401 [(16, 458752), (32, 2)])) 16 0 64, by decide +kernel⟩,
   ⟨w199, ringD (mk 1 0x1401 [(16, 458752), (32, 3)]), 2, { Context.reset with enable := true, runs := [⟨6, 3, 0, true, true, false, false, 0, 9⟩] }, dfld (ringD (mk 1 0x1401 [(16, 458752), (32, 3)])) 32 0 32, dfld (ringD (mk 1 0x1401 [(16, 458752), (32, 3)])) 16 0 64, by decide +kernel⟩,
   ⟨w200, ringD (mk 1 0x1402 [(16, 327680)]), 2, { Context.reset with enable := true, runs := [⟨6, 3, 0, true, true, false, false, 0, 9⟩] }, dfld (ringD (mk 1 0x1402 [(16, 327680)])) 32 0 32, dfld (ringD (mk 1 0x1402 [(16, 327680)])) 16 0 64, by decide +kernel⟩,
   ⟨w201, ringD (mk 1 0x1402 [(16, 458752)]), 2, { Context.reset with enable := true, runs := [⟨6, 3, 0, true, true, false, false, 0, 9⟩] }, dfld (ringD (mk 1 0x1402 [(16, 458752)])) 32 0 32, dfld (ringD (mk 1 0x1402 [(16, 458752)])) 16 0 64, ⟨6, 3, 0, true, true, false, false, 0, 9⟩, by decide +kernel⟩,
   ⟨w202, ringD (mk 1 0x1402 [(16, 281474976710656)]), 2, { Context.reset with enable := true, runs := [⟨6, 3, 0, true, true, false, false, 0, 9⟩] }, dfld (ringD (mk 1 0x1402 [(16, 281474976710656)])) 32 0 32, dfld (ringD (mk 1 0x1402 [(16, 281474976710656)])) 16 0 64, by decide +kernel⟩,
   ⟨w203, ringD (mk 1 0x1403 [(16, 64), (20, 16), (24, 17), (28, 4), (30, 4), (32, 3)]), 64, by decide +kernel⟩,
   ⟨w204, ringD (mk 1 0x1403 [(16, 64), (20, 16), (24, 15), (28, 4), (30, 4), (32, 3)]), 64, by decide +kernel⟩,
   ⟨ringD (mk 1 0x1403 [(16, 63), (20, 16), (24, 17), (28, 4), (30, 4), (32, 3)]), 63, by decide +kernel⟩,
   ⟨w205, ringD (mk 1 0x1403 [(16, 63), (20, 16), (24, 17), (28, 4), (30, 4), (32, 3)]), 63, by decide +kernel⟩⟩

theorem test_witness_MemoryAccesses :
    (∃ (s : State) (off : Nat) (bs : List Byte) (va : Nat), (va = s.hif.winBaseHi * 2 ^ 32 + off % 2 ^ 32) ∧ (staged s off bs.length = true)) ∧
    (∃ (s : State) (off : Nat) (bs : List Byte) (va : Nat) (pa : _), (va = s.hif.winBaseHi * 2 ^ 32 + off % 2 ^ 32) ∧ (staged s off bs.length = false) ∧ (va % 65536 + bs.length ≤ 65536) ∧ (bs ≠ []) ∧ (translate s 2 va true = .ok (.localMem pa)) ∧ (fwAllows s 2 pa true false = true)) ∧
    (∃ (s : State) (off : Nat) (bs : List Byte) (va : Nat) (pa : _), (va = s.hif.winBaseHi * 2 ^ 32 + off % 2 ^ 32) ∧ (staged s off bs.length = false) ∧ (va % 65536 + bs.length ≤ 65536) ∧ (bs ≠ []) ∧ (translate s 2 va false = .ok (.localMem pa)) ∧ (fwAllows s 2 pa false false = true) ∧ (poisonedIn s pa bs.length = none) ∧ (s.dbg.boundary = false)) ∧
    (∃ (s : State) (off : Nat) (bs : List Byte) (va : Nat) (st : _) (lv : _), (va = s.hif.winBaseHi * 2 ^ 32 + off % 2 ^ 32) ∧ (staged s off bs.length = false) ∧ (va % 65536 + bs.length ≤ 65536) ∧ (bs ≠ []) ∧ (translate s 2 va false = .error (st, lv)) ∧ (s.dbg.boundary = false)) ∧
    (∃ (s : State) (off : Nat) (va : Nat) (mc : _) (c : _), (va = s.hif.winBaseHi * 2 ^ 32 + off % 2 ^ 32) ∧ (mc < 8) ∧ (c = Tbl.at MemCtl.reset s.mmu.mcs mc) ∧ (c.scrub + 1 < mcLines)) ∧
    (∃ (s : State) (off : Nat) (va : Nat) (mc : _) (c : _), (va = s.hif.winBaseHi * 2 ^ 32 + off % 2 ^ 32) ∧ (mc < 8) ∧ (c = Tbl.at MemCtl.reset s.mmu.mcs mc) ∧ (c.scrub + 1 < mcLines) ∧ (s.mmu.poison.contains (paOfLocal mc (c.scrub * 64) / 64) = false)) ∧
    (∃ (s : State) (off : Nat) (va : Nat) (mc : _) (c : _), (va = s.hif.winBaseHi * 2 ^ 32 + off % 2 ^ 32) ∧ (mc < 8) ∧ (c = Tbl.at MemCtl.reset s.mmu.mcs mc) ∧ (c.scrub + 1 < mcLines)) :=
  ⟨⟨w206, 0x1FFFC, [1, 2, 3, 4], 0x1FFFC, by decide +kernel⟩,
   ⟨w207, 0x1FFFC, [1, 2, 3, 4], 0x1FFFC, 0x1FFFC, by decide +kernel, by decide +kernel, by decide +kernel, by decide +kernel, rfl, by decide +kernel⟩,
   ⟨w207, 0x1FFFC, [1, 2, 3, 4], 0x1FFFC, 0x1FFFC, by decide +kernel, by decide +kernel, by decide +kernel, by decide +kernel, rfl, by decide +kernel, by decide +kernel, by decide +kernel⟩,
   ⟨up, 0x1FFFC, [1, 2, 3, 4], 0x1FFFC, stTranslation, 2, by decide +kernel, by decide +kernel, by decide +kernel, by decide +kernel, rfl, by decide +kernel⟩,
   ⟨up, 0x1FFFC, 0x1FFFC, 7, MemCtl.reset, by decide +kernel⟩,
   ⟨up, 0x1FFFC, 0x1FFFC, 7, MemCtl.reset, by decide +kernel⟩,
   ⟨up, 0x1FFFC, 0x1FFFC, 7, MemCtl.reset, by decide +kernel⟩⟩

theorem test_witness_ErgUnits :
    (∃ (s : State) (d : Desc) (u : _) (members : _) (v : Volume), (u = dfld d 16 0 1) ∧ (members = (List.range 8).filterMap (fun j => if dbit d (18 + j) 7 then some (j, dfld d (18 + j) 0 7) else none)) ∧ (v = { vox := dbit d 16 1, reefMax := dfld d 16 2 2, keep := dfld d 16 4 4, cadence := dfld d 17 0 5, members := members, blocksMax := dfld d 26 0 11, rangeMax := dfld d 28 0 32, cell := dfld d 32 0 32, ox := dfld d 36 0 32, oy := dfld d 40 0 32, oz := dfld d 44 0 32, pointBase := dfld d 48 0 48, siteBase := dfld d 56 0 48, did := d.did, guarded := false }) ∧ (Accepted s d (infoErgVolume s d)) ∧ (volGuarded s u = true)) ∧
    (∃ (s : State) (d : Desc) (u : _) (members : _) (v : Volume), (u = dfld d 16 0 1) ∧ (members = (List.range 8).filterMap (fun j => if dbit d (18 + j) 7 then some (j, dfld d (18 + j) 0 7) else none)) ∧ (v = { vox := dbit d 16 1, reefMax := dfld d 16 2 2, keep := dfld d 16 4 4, cadence := dfld d 17 0 5, members := members, blocksMax := dfld d 26 0 11, rangeMax := dfld d 28 0 32, cell := dfld d 32 0 32, ox := dfld d 36 0 32, oy := dfld d 40 0 32, oz := dfld d 44 0 32, pointBase := dfld d 48 0 48, siteBase := dfld d 56 0 48, did := d.did, guarded := false }) ∧ (Accepted s d (infoErgVolume s d)) ∧ (volGuarded s u = false) ∧ (members = []) ∧ (s.cfg.volumes.find u = none)) ∧
    (∃ (s : State) (d : Desc) (u : _) (members : _) (v : Volume), (u = dfld d 16 0 1) ∧ (members = (List.range 8).filterMap (fun j => if dbit d (18 + j) 7 then some (j, dfld d (18 + j) 0 7) else none)) ∧ (v = { vox := dbit d 16 1, reefMax := dfld d 16 2 2, keep := dfld d 16 4 4, cadence := dfld d 17 0 5, members := members, blocksMax := dfld d 26 0 11, rangeMax := dfld d 28 0 32, cell := dfld d 32 0 32, ox := dfld d 36 0 32, oy := dfld d 40 0 32, oz := dfld d 44 0 32, pointBase := dfld d 48 0 48, siteBase := dfld d 56 0 48, did := d.did, guarded := false }) ∧ (Accepted s d (infoErgVolume s d)) ∧ (volGuarded s u = false) ∧ (members = []) ∧ (s.cfg.volumes.find u ≠ none) ∧ (volNamed s u = true)) ∧
    (∃ (s : State) (d : Desc) (u : _) (members : _) (v : Volume), (u = dfld d 16 0 1) ∧ (members = (List.range 8).filterMap (fun j => if dbit d (18 + j) 7 then some (j, dfld d (18 + j) 0 7) else none)) ∧ (v = { vox := dbit d 16 1, reefMax := dfld d 16 2 2, keep := dfld d 16 4 4, cadence := dfld d 17 0 5, members := members, blocksMax := dfld d 26 0 11, rangeMax := dfld d 28 0 32, cell := dfld d 32 0 32, ox := dfld d 36 0 32, oy := dfld d 40 0 32, oz := dfld d 44 0 32, pointBase := dfld d 48 0 48, siteBase := dfld d 56 0 48, did := d.did, guarded := false }) ∧ (Accepted s d (infoErgVolume s d)) ∧ (volGuarded s u = false) ∧ (members = []) ∧ (s.cfg.volumes.find u ≠ none) ∧ (volNamed s u = false)) ∧
    (∃ (s : State) (d : Desc) (u : _) (members : _) (v : Volume), (u = dfld d 16 0 1) ∧ (members = (List.range 8).filterMap (fun j => if dbit d (18 + j) 7 then some (j, dfld d (18 + j) 0 7) else none)) ∧ (v = { vox := dbit d 16 1, reefMax := dfld d 16 2 2, keep := dfld d 16 4 4, cadence := dfld d 17 0 5, members := members, blocksMax := dfld d 26 0 11, rangeMax := dfld d 28 0 32, cell := dfld d 32 0 32, ox := dfld d 36 0 32, oy := dfld d 40 0 32, oz := dfld d 44 0 32, pointBase := dfld d 48 0 48, siteBase := dfld d 56 0 48, did := d.did, guarded := false }) ∧ (Accepted s d (infoErgVolume s d)) ∧ (volGuarded s u = false) ∧ (members ≠ []) ∧ (1 ≤ v.keep) ∧ (v.keep ≤ 8) ∧ (1 ≤ v.blocksMax) ∧ (v.blocksMax ≤ 1024) ∧ (f32Pos v.rangeMax = true) ∧ (f32Finite v.cell = true) ∧ (ratOfV (decodeF fp32 0x3C23D70A) ≤ ratOfV (decodeF fp32 v.cell)) ∧ (ratOfV (decodeF fp32 v.cell) ≤ 10) ∧ ([v.ox, v.oy, v.oz].all f32Finite = true) ∧ (v.pointBase % 65536 = 0) ∧ (v.siteBase % 65536 = 0) ∧ ((∀ m ∈ members, memberOk s u v m.2 = true)) ∧ ((members.map (·.2)).eraseDups.length = members.length)) ∧
    (∃ (s : State) (d : Desc) (u : _) (members : _) (v : Volume), (u = dfld d 16 0 1) ∧ (members = (List.range 8).filterMap (fun j => if dbit d (18 + j) 7 then some (j, dfld d (18 + j) 0 7) else none)) ∧ (v = { vox := dbit d 16 1, reefMax := dfld d 16 2 2, keep := dfld d 16 4 4, cadence := dfld d 17 0 5, members := members, blocksMax := dfld d 26 0 11, rangeMax := dfld d 28 0 32, cell := dfld d 32 0 32, ox := dfld d 36 0 32, oy := dfld d 40 0 32, oz := dfld d 44 0 32, pointBase := dfld d 48 0 48, siteBase := dfld d 56 0 48, did := d.did, guarded := false }) ∧ (Accepted s d (infoErgVolume s d)) ∧ (volGuarded s u = false) ∧ (members ≠ []) ∧ (v.keep = 0 ∨ 8 < v.keep ∨ v.blocksMax = 0 ∨ 1024 < v.blocksMax ∨ f32Pos v.rangeMax = false ∨ f32Finite v.cell = false ∨ ratOfV (decodeF fp32 v.cell) < ratOfV (decodeF fp32 0x3C23D70A) ∨ 10 < ratOfV (decodeF fp32 v.cell) ∨ [v.ox, v.oy, v.oz].all f32Finite = false ∨ v.pointBase % 65536 ≠ 0 ∨ v.siteBase % 65536 ≠ 0 ∨ (∃ m ∈ members, memberOk s u v m.2 = false) ∨ (members.map (·.2)).eraseDups.length ≠ members.length)) ∧
    (∃ (s : State) (d : Desc) (u : _) (k : _), (u = dfld d 53 0 1) ∧ (k = dfld d 52 0 6) ∧ (Accepted s d (infoErgKnn s d)) ∧ (dfld d 16 0 32 ≤ 65536) ∧ (dfld d 20 0 32 ≤ 16777216) ∧ (dfld d 24 0 4 = 0) ∧ (dfld d 40 0 3 = 0) ∧ (f32Lt 0 (dfld d 48 0 32) = true) ∧ (1 ≤ k) ∧ (k ≤ 32)) ∧
    (∃ (s : State) (d : Desc) (u : _) (k : _), (u = dfld d 53 0 1) ∧ (k = dfld d 52 0 6) ∧ (Accepted s d (infoErgKnn s d)) ∧ (65536 < dfld d 16 0 32 ∨ 16777216 < dfld d 20 0 32 ∨ dfld d 24 0 4 ≠ 0 ∨ dfld d 40 0 3 ≠ 0 ∨ f32Lt 0 (dfld d 48 0 32) = false ∨ k = 0 ∨ 32 < k)) ∧
    (∃ (s : State) (d : Desc) (u : _), (u = dfld d 44 0 1) ∧ (Accepted s d (infoErgFps s d)) ∧ (dfld d 16 0 32 ≤ 65536) ∧ (dfld d 20 0 32 ≤ 16384) ∧ (dfld d 32 0 2 = 0)) ∧
    (∃ (s : State) (d : Desc) (u : _), (u = dfld d 44 0 1) ∧ (Accepted s d (infoErgFps s d)) ∧ (65536 < dfld d 16 0 32 ∨ 16384 < dfld d 20 0 32 ∨ dfld d 32 0 2 ≠ 0)) ∧
    (∃ (s : State) (d : Desc) (u : _) (mode : _) (k : _), (u = dfld d 44 2 1) ∧ (mode = dfld d 44 0 2) ∧ (k = dfld d 45 0 8) ∧ (Accepted s d (infoErgRules s d)) ∧ ((mode = 0 ∧ (k = 1 ∨ k = 3 ∨ k = 5)) ∨ ((mode = 1 ∨ mode = 2) ∧ (k = 2 ∨ k = 3))) ∧ (dfld d 16 0 6 = 0) ∧ (dfld d 24 0 6 = 0) ∧ (dfld d 32 0 6 = 0)) ∧
    (∃ (s : State) (d : Desc) (u : _) (mode : _) (k : _), (u = dfld d 44 2 1) ∧ (mode = dfld d 44 0 2) ∧ (k = dfld d 45 0 8) ∧ (Accepted s d (infoErgRules s d)) ∧ (mode = 3 ∨ (mode = 0 ∧ k ≠ 1 ∧ k ≠ 3 ∧ k ≠ 5) ∨ (mode ≠ 0 ∧ k ≠ 2 ∧ k ≠ 3) ∨ dfld d 16 0 6 ≠ 0 ∨ dfld d 24 0 6 ≠ 0 ∨ dfld d 32 0 6 ≠ 0)) ∧
    (∃ (s : State) (d : Desc) (u : _), (u = dfld d 35 0 1) ∧ (Accepted s d (infoErgBev s d)) ∧ (1 ≤ dfld d 32 0 16) ∧ (dfld d 32 0 16 ≤ 256) ∧ (dfld d 34 0 2 ≠ 3) ∧ (dfld d 34 2 2 ≠ 3) ∧ (dfld d 34 4 2 ≠ 3) ∧ (1 ≤ dfld d 60 0 16) ∧ (dfld d 60 0 16 ≤ 2048) ∧ (1 ≤ dfld d 62 0 16) ∧ (dfld d 62 0 16 ≤ 2048)) ∧
    (∃ (s : State) (d : Desc) (u : _), (u = dfld d 35 0 1) ∧ (Accepted s d (infoErgBev s d)) ∧ (dfld d 32 0 16 = 0 ∨ 256 < dfld d 32 0 16 ∨ dfld d 34 0 2 = 3 ∨ dfld d 34 2 2 = 3 ∨ dfld d 34 4 2 = 3 ∨ dfld d 60 0 16 = 0 ∨ 2048 < dfld d 60 0 16 ∨ dfld d 62 0 16 = 0 ∨ 2048 < dfld d 62 0 16)) ∧
    (∃ (s : State) (u : _) (r : _), (s.geo.ergRun.find u = some r)) ∧
    (∃ (s : State) (u : _) (j : _), (s.geo.ergRun.find u = none) ∧ (s.geo.ergJobs.filter (fun j => j.1 == u) = [j]) ∧ (epochWorkOn s u = [])) ∧
    (∃ (s : State) (u : _), (s.geo.ergRun.find u = none)) ∧
    (∃ (s : State) (d : Desc) (u : _) (ecc : _) (start : _) (v : State), (s.geo.ergRun.find u = some (d, start)) ∧ (v = setErg { s with geo.ergRun := Tbl.drop s.geo.ergRun u } u { ergOf s u with opUs := min ((s.up - start) / 1000) 0xFFFF, lastEnd := s.up }) ∧ (ecc ≠ 0)) ∧
    (∃ (s : State) (d : Desc) (u : _) (ecc : _) (start : _) (v : State), (s.geo.ergRun.find u = some (d, start)) ∧ (v = setErg { s with geo.ergRun := Tbl.drop s.geo.ergRun u } u { ergOf s u with opUs := min ((s.up - start) / 1000) 0xFFFF, lastEnd := s.up }) ∧ (ecc = 0)) ∧
    (∃ (s : State) (u : _) (r : _), (s.geo.ergRun.find u = some r)) ∧
    (∃ (s : State), (s.epochs = [])) ∧
    (∃ (s : State) (u : _) (e : _) (t : _) (p : _) (v : _), (s.geo.ergRun.find u = none) ∧ (buildEpoch s u = some e) ∧ (tableOf s e.cadence e.epoch = some t) ∧ (poseTableOf s e.cadence e.epoch = some p) ∧ (e.cfg.volumes.find u = some v)) :=
  ⟨⟨w208, mk 1 0x0B00 [(16, 17), (17, 31), (18, 255), (26, 1024), (28, 0x3F800000), (32, 0x3F800000), (48, 65536), (56, 65536)], dfld (mk 1 0x0B00 [(16, 17), (17, 31), (18, 255), (26, 1024), (28, 0x3F800000), (32, 0x3F800000), (48, 65536), (56, 65536)]) 16 0 1, (List.range 8).filterMap (fun j => if dbit (mk 1 0x0B00 [(16, 17), (17, 31), (18, 255), (26, 1024), (28, 0x3F800000), (32, 0x3F800000), (48, 65536), (56, 65536)]) (18 + j) 7 then some (j, dfld (mk 1 0x0B00 [(16, 17), (17, 31), (18, 255), (26, 1024), (28, 0x3F800000), (32, 0x3F800000), (48, 65536), (56, 65536)]) (18 + j) 0 7) else none), { vox := dbit (mk 1 0x0B00 [(16, 17), (17, 31), (18, 255), (26, 1024), (28, 0x3F800000), (32, 0x3F800000), (48, 65536), (56, 65536)]) 16 1, reefMax := dfld (mk 1 0x0B00 [(16, 17), (17, 31), (18, 255), (26, 1024), (28, 0x3F800000), (32, 0x3F800000), (48, 65536), (56, 65536)]) 16 2 2, keep := dfld (mk 1 0x0B00 [(16, 17), (17, 31), (18, 255), (26, 1024), (28, 0x3F800000), (32, 0x3F800000), (48, 65536), (56, 65536)]) 16 4 4, cadence := dfld (mk 1 0x0B00 [(16, 17), (17, 31), (18, 255), (26, 1024), (28, 0x3F800000), (32, 0x3F800000), (48, 65536), (56, 65536)]) 17 0 5, members := ((List.range 8).filterMap (fun j => if dbit (mk 1 0x0B00 [(16, 17), (17, 31), (18, 255), (26, 1024), (28, 0x3F800000), (32, 0x3F800000), (48, 65536), (56, 65536)]) (18 + j) 7 then some (j, dfld (mk 1 0x0B00 [(16, 17), (17, 31), (18, 255), (26, 1024), (28, 0x3F800000), (32, 0x3F800000), (48, 65536), (56, 65536)]) (18 + j) 0 7) else none)), blocksMax := dfld (mk 1 0x0B00 [(16, 17), (17, 31), (18, 255), (26, 1024), (28, 0x3F800000), (32, 0x3F800000), (48, 65536), (56, 65536)]) 26 0 11, rangeMax := dfld (mk 1 0x0B00 [(16, 17), (17, 31), (18, 255), (26, 1024), (28, 0x3F800000), (32, 0x3F800000), (48, 65536), (56, 65536)]) 28 0 32, cell := dfld (mk 1 0x0B00 [(16, 17), (17, 31), (18, 255), (26, 1024), (28, 0x3F800000), (32, 0x3F800000), (48, 65536), (56, 65536)]) 32 0 32, ox := dfld (mk 1 0x0B00 [(16, 17), (17, 31), (18, 255), (26, 1024), (28, 0x3F800000), (32, 0x3F800000), (48, 65536), (56, 65536)]) 36 0 32, oy := dfld (mk 1 0x0B00 [(16, 17), (17, 31), (18, 255), (26, 1024), (28, 0x3F800000), (32, 0x3F800000), (48, 65536), (56, 65536)]) 40 0 32, oz := dfld (mk 1 0x0B00 [(16, 17), (17, 31), (18, 255), (26, 1024), (28, 0x3F800000), (32, 0x3F800000), (48, 65536), (56, 65536)]) 44 0 32, pointBase := dfld (mk 1 0x0B00 [(16, 17), (17, 31), (18, 255), (26, 1024), (28, 0x3F800000), (32, 0x3F800000), (48, 65536), (56, 65536)]) 48 0 48, siteBase := dfld (mk 1 0x0B00 [(16, 17), (17, 31), (18, 255), (26, 1024), (28, 0x3F800000), (32, 0x3F800000), (48, 65536), (56, 65536)]) 56 0 48, did := (mk 1 0x0B00 [(16, 17), (17, 31), (18, 255), (26, 1024), (28, 0x3F800000), (32, 0x3F800000), (48, 65536), (56, 65536)]).did, guarded := false }, by decide +kernel⟩,
   ⟨up, mk 1 0x0B00 [(16, 17), (17, 31), (26, 1024), (28, 0x3F800000), (32, 0x3F800000), (48, 65536), (56, 65536)], dfld (mk 1 0x0B00 [(16, 17), (17, 31), (26, 1024), (28, 0x3F800000), (32, 0x3F800000), (48, 65536), (56, 65536)]) 16 0 1, (List.range 8).filterMap (fun j => if dbit (mk 1 0x0B00 [(16, 17), (17, 31), (26, 1024), (28, 0x3F800000), (32, 0x3F800000), (48, 65536), (56, 65536)]) (18 + j) 7 then some (j, dfld (mk 1 0x0B00 [(16, 17), (17, 31), (26, 1024), (28, 0x3F800000), (32, 0x3F800000), (48, 65536), (56, 65536)]) (18 + j) 0 7) else none), { vox := dbit (mk 1 0x0B00 [(16, 17), (17, 31), (26, 1024), (28, 0x3F800000), (32, 0x3F800000), (48, 65536), (56, 65536)]) 16 1, reefMax := dfld (mk 1 0x0B00 [(16, 17), (17, 31), (26, 1024), (28, 0x3F800000), (32, 0x3F800000), (48, 65536), (56, 65536)]) 16 2 2, keep := dfld (mk 1 0x0B00 [(16, 17), (17, 31), (26, 1024), (28, 0x3F800000), (32, 0x3F800000), (48, 65536), (56, 65536)]) 16 4 4, cadence := dfld (mk 1 0x0B00 [(16, 17), (17, 31), (26, 1024), (28, 0x3F800000), (32, 0x3F800000), (48, 65536), (56, 65536)]) 17 0 5, members := ((List.range 8).filterMap (fun j => if dbit (mk 1 0x0B00 [(16, 17), (17, 31), (26, 1024), (28, 0x3F800000), (32, 0x3F800000), (48, 65536), (56, 65536)]) (18 + j) 7 then some (j, dfld (mk 1 0x0B00 [(16, 17), (17, 31), (26, 1024), (28, 0x3F800000), (32, 0x3F800000), (48, 65536), (56, 65536)]) (18 + j) 0 7) else none)), blocksMax := dfld (mk 1 0x0B00 [(16, 17), (17, 31), (26, 1024), (28, 0x3F800000), (32, 0x3F800000), (48, 65536), (56, 65536)]) 26 0 11, rangeMax := dfld (mk 1 0x0B00 [(16, 17), (17, 31), (26, 1024), (28, 0x3F800000), (32, 0x3F800000), (48, 65536), (56, 65536)]) 28 0 32, cell := dfld (mk 1 0x0B00 [(16, 17), (17, 31), (26, 1024), (28, 0x3F800000), (32, 0x3F800000), (48, 65536), (56, 65536)]) 32 0 32, ox := dfld (mk 1 0x0B00 [(16, 17), (17, 31), (26, 1024), (28, 0x3F800000), (32, 0x3F800000), (48, 65536), (56, 65536)]) 36 0 32, oy := dfld (mk 1 0x0B00 [(16, 17), (17, 31), (26, 1024), (28, 0x3F800000), (32, 0x3F800000), (48, 65536), (56, 65536)]) 40 0 32, oz := dfld (mk 1 0x0B00 [(16, 17), (17, 31), (26, 1024), (28, 0x3F800000), (32, 0x3F800000), (48, 65536), (56, 65536)]) 44 0 32, pointBase := dfld (mk 1 0x0B00 [(16, 17), (17, 31), (26, 1024), (28, 0x3F800000), (32, 0x3F800000), (48, 65536), (56, 65536)]) 48 0 48, siteBase := dfld (mk 1 0x0B00 [(16, 17), (17, 31), (26, 1024), (28, 0x3F800000), (32, 0x3F800000), (48, 65536), (56, 65536)]) 56 0 48, did := (mk 1 0x0B00 [(16, 17), (17, 31), (26, 1024), (28, 0x3F800000), (32, 0x3F800000), (48, 65536), (56, 65536)]).did, guarded := false }, by decide +kernel⟩,
   ⟨w209, mk 1 0x0B00 [(16, 17), (17, 31), (26, 1024), (28, 0x3F800000), (32, 0x3F800000), (48, 65536), (56, 65536)], dfld (mk 1 0x0B00 [(16, 17), (17, 31), (26, 1024), (28, 0x3F800000), (32, 0x3F800000), (48, 65536), (56, 65536)]) 16 0 1, (List.range 8).filterMap (fun j => if dbit (mk 1 0x0B00 [(16, 17), (17, 31), (26, 1024), (28, 0x3F800000), (32, 0x3F800000), (48, 65536), (56, 65536)]) (18 + j) 7 then some (j, dfld (mk 1 0x0B00 [(16, 17), (17, 31), (26, 1024), (28, 0x3F800000), (32, 0x3F800000), (48, 65536), (56, 65536)]) (18 + j) 0 7) else none), { vox := dbit (mk 1 0x0B00 [(16, 17), (17, 31), (26, 1024), (28, 0x3F800000), (32, 0x3F800000), (48, 65536), (56, 65536)]) 16 1, reefMax := dfld (mk 1 0x0B00 [(16, 17), (17, 31), (26, 1024), (28, 0x3F800000), (32, 0x3F800000), (48, 65536), (56, 65536)]) 16 2 2, keep := dfld (mk 1 0x0B00 [(16, 17), (17, 31), (26, 1024), (28, 0x3F800000), (32, 0x3F800000), (48, 65536), (56, 65536)]) 16 4 4, cadence := dfld (mk 1 0x0B00 [(16, 17), (17, 31), (26, 1024), (28, 0x3F800000), (32, 0x3F800000), (48, 65536), (56, 65536)]) 17 0 5, members := ((List.range 8).filterMap (fun j => if dbit (mk 1 0x0B00 [(16, 17), (17, 31), (26, 1024), (28, 0x3F800000), (32, 0x3F800000), (48, 65536), (56, 65536)]) (18 + j) 7 then some (j, dfld (mk 1 0x0B00 [(16, 17), (17, 31), (26, 1024), (28, 0x3F800000), (32, 0x3F800000), (48, 65536), (56, 65536)]) (18 + j) 0 7) else none)), blocksMax := dfld (mk 1 0x0B00 [(16, 17), (17, 31), (26, 1024), (28, 0x3F800000), (32, 0x3F800000), (48, 65536), (56, 65536)]) 26 0 11, rangeMax := dfld (mk 1 0x0B00 [(16, 17), (17, 31), (26, 1024), (28, 0x3F800000), (32, 0x3F800000), (48, 65536), (56, 65536)]) 28 0 32, cell := dfld (mk 1 0x0B00 [(16, 17), (17, 31), (26, 1024), (28, 0x3F800000), (32, 0x3F800000), (48, 65536), (56, 65536)]) 32 0 32, ox := dfld (mk 1 0x0B00 [(16, 17), (17, 31), (26, 1024), (28, 0x3F800000), (32, 0x3F800000), (48, 65536), (56, 65536)]) 36 0 32, oy := dfld (mk 1 0x0B00 [(16, 17), (17, 31), (26, 1024), (28, 0x3F800000), (32, 0x3F800000), (48, 65536), (56, 65536)]) 40 0 32, oz := dfld (mk 1 0x0B00 [(16, 17), (17, 31), (26, 1024), (28, 0x3F800000), (32, 0x3F800000), (48, 65536), (56, 65536)]) 44 0 32, pointBase := dfld (mk 1 0x0B00 [(16, 17), (17, 31), (26, 1024), (28, 0x3F800000), (32, 0x3F800000), (48, 65536), (56, 65536)]) 48 0 48, siteBase := dfld (mk 1 0x0B00 [(16, 17), (17, 31), (26, 1024), (28, 0x3F800000), (32, 0x3F800000), (48, 65536), (56, 65536)]) 56 0 48, did := (mk 1 0x0B00 [(16, 17), (17, 31), (26, 1024), (28, 0x3F800000), (32, 0x3F800000), (48, 65536), (56, 65536)]).did, guarded := false }, by decide +kernel⟩,
   ⟨w210, mk 1 0x0B00 [(16, 17), (17, 31), (26, 1024), (28, 0x3F800000), (32, 0x3F800000), (48, 65536), (56, 65536)], dfld (mk 1 0x0B00 [(16, 17), (17, 31), (26, 1024), (28, 0x3F800000), (32, 0x3F800000), (48, 65536), (56, 65536)]) 16 0 1, (List.range 8).filterMap (fun j => if dbit (mk 1 0x0B00 [(16, 17), (17, 31), (26, 1024), (28, 0x3F800000), (32, 0x3F800000), (48, 65536), (56, 65536)]) (18 + j) 7 then some (j, dfld (mk 1 0x0B00 [(16, 17), (17, 31), (26, 1024), (28, 0x3F800000), (32, 0x3F800000), (48, 65536), (56, 65536)]) (18 + j) 0 7) else none), { vox := dbit (mk 1 0x0B00 [(16, 17), (17, 31), (26, 1024), (28, 0x3F800000), (32, 0x3F800000), (48, 65536), (56, 65536)]) 16 1, reefMax := dfld (mk 1 0x0B00 [(16, 17), (17, 31), (26, 1024), (28, 0x3F800000), (32, 0x3F800000), (48, 65536), (56, 65536)]) 16 2 2, keep := dfld (mk 1 0x0B00 [(16, 17), (17, 31), (26, 1024), (28, 0x3F800000), (32, 0x3F800000), (48, 65536), (56, 65536)]) 16 4 4, cadence := dfld (mk 1 0x0B00 [(16, 17), (17, 31), (26, 1024), (28, 0x3F800000), (32, 0x3F800000), (48, 65536), (56, 65536)]) 17 0 5, members := ((List.range 8).filterMap (fun j => if dbit (mk 1 0x0B00 [(16, 17), (17, 31), (26, 1024), (28, 0x3F800000), (32, 0x3F800000), (48, 65536), (56, 65536)]) (18 + j) 7 then some (j, dfld (mk 1 0x0B00 [(16, 17), (17, 31), (26, 1024), (28, 0x3F800000), (32, 0x3F800000), (48, 65536), (56, 65536)]) (18 + j) 0 7) else none)), blocksMax := dfld (mk 1 0x0B00 [(16, 17), (17, 31), (26, 1024), (28, 0x3F800000), (32, 0x3F800000), (48, 65536), (56, 65536)]) 26 0 11, rangeMax := dfld (mk 1 0x0B00 [(16, 17), (17, 31), (26, 1024), (28, 0x3F800000), (32, 0x3F800000), (48, 65536), (56, 65536)]) 28 0 32, cell := dfld (mk 1 0x0B00 [(16, 17), (17, 31), (26, 1024), (28, 0x3F800000), (32, 0x3F800000), (48, 65536), (56, 65536)]) 32 0 32, ox := dfld (mk 1 0x0B00 [(16, 17), (17, 31), (26, 1024), (28, 0x3F800000), (32, 0x3F800000), (48, 65536), (56, 65536)]) 36 0 32, oy := dfld (mk 1 0x0B00 [(16, 17), (17, 31), (26, 1024), (28, 0x3F800000), (32, 0x3F800000), (48, 65536), (56, 65536)]) 40 0 32, oz := dfld (mk 1 0x0B00 [(16, 17), (17, 31), (26, 1024), (28, 0x3F800000), (32, 0x3F800000), (48, 65536), (56, 65536)]) 44 0 32, pointBase := dfld (mk 1 0x0B00 [(16, 17), (17, 31), (26, 1024), (28, 0x3F800000), (32, 0x3F800000), (48, 65536), (56, 65536)]) 48 0 48, siteBase := dfld (mk 1 0x0B00 [(16, 17), (17, 31), (26, 1024), (28, 0x3F800000), (32, 0x3F800000), (48, 65536), (56, 65536)]) 56 0 48, did := (mk 1 0x0B00 [(16, 17), (17, 31), (26, 1024), (28, 0x3F800000), (32, 0x3F800000), (48, 65536), (56, 65536)]).did, guarded := false }, by decide +kernel⟩,
   ⟨w211, mk 1 0x0B00 [(16, 17), (17, 31), (18, 255), (26, 1024), (28, 0x3F800000), (32, 0x3F800000), (48, 65536), (56, 65536)], dfld (mk 1 0x0B00 [(16, 17), (17, 31), (18, 255), (26, 1024), (28, 0x3F800000), (32, 0x3F800000), (48, 65536), (56, 65536)]) 16 0 1, (List.range 8).filterMap (fun j => if dbit (mk 1 0x0B00 [(16, 17), (17, 31), (18, 255), (26, 1024), (28, 0x3F800000), (32, 0x3F800000), (48, 65536), (56, 65536)]) (18 + j) 7 then some (j, dfld (mk 1 0x0B00 [(16, 17), (17, 31), (18, 255), (26, 1024), (28, 0x3F800000), (32, 0x3F800000), (48, 65536), (56, 65536)]) (18 + j) 0 7) else none), { vox := dbit (mk 1 0x0B00 [(16, 17), (17, 31), (18, 255), (26, 1024), (28, 0x3F800000), (32, 0x3F800000), (48, 65536), (56, 65536)]) 16 1, reefMax := dfld (mk 1 0x0B00 [(16, 17), (17, 31), (18, 255), (26, 1024), (28, 0x3F800000), (32, 0x3F800000), (48, 65536), (56, 65536)]) 16 2 2, keep := dfld (mk 1 0x0B00 [(16, 17), (17, 31), (18, 255), (26, 1024), (28, 0x3F800000), (32, 0x3F800000), (48, 65536), (56, 65536)]) 16 4 4, cadence := dfld (mk 1 0x0B00 [(16, 17), (17, 31), (18, 255), (26, 1024), (28, 0x3F800000), (32, 0x3F800000), (48, 65536), (56, 65536)]) 17 0 5, members := ((List.range 8).filterMap (fun j => if dbit (mk 1 0x0B00 [(16, 17), (17, 31), (18, 255), (26, 1024), (28, 0x3F800000), (32, 0x3F800000), (48, 65536), (56, 65536)]) (18 + j) 7 then some (j, dfld (mk 1 0x0B00 [(16, 17), (17, 31), (18, 255), (26, 1024), (28, 0x3F800000), (32, 0x3F800000), (48, 65536), (56, 65536)]) (18 + j) 0 7) else none)), blocksMax := dfld (mk 1 0x0B00 [(16, 17), (17, 31), (18, 255), (26, 1024), (28, 0x3F800000), (32, 0x3F800000), (48, 65536), (56, 65536)]) 26 0 11, rangeMax := dfld (mk 1 0x0B00 [(16, 17), (17, 31), (18, 255), (26, 1024), (28, 0x3F800000), (32, 0x3F800000), (48, 65536), (56, 65536)]) 28 0 32, cell := dfld (mk 1 0x0B00 [(16, 17), (17, 31), (18, 255), (26, 1024), (28, 0x3F800000), (32, 0x3F800000), (48, 65536), (56, 65536)]) 32 0 32, ox := dfld (mk 1 0x0B00 [(16, 17), (17, 31), (18, 255), (26, 1024), (28, 0x3F800000), (32, 0x3F800000), (48, 65536), (56, 65536)]) 36 0 32, oy := dfld (mk 1 0x0B00 [(16, 17), (17, 31), (18, 255), (26, 1024), (28, 0x3F800000), (32, 0x3F800000), (48, 65536), (56, 65536)]) 40 0 32, oz := dfld (mk 1 0x0B00 [(16, 17), (17, 31), (18, 255), (26, 1024), (28, 0x3F800000), (32, 0x3F800000), (48, 65536), (56, 65536)]) 44 0 32, pointBase := dfld (mk 1 0x0B00 [(16, 17), (17, 31), (18, 255), (26, 1024), (28, 0x3F800000), (32, 0x3F800000), (48, 65536), (56, 65536)]) 48 0 48, siteBase := dfld (mk 1 0x0B00 [(16, 17), (17, 31), (18, 255), (26, 1024), (28, 0x3F800000), (32, 0x3F800000), (48, 65536), (56, 65536)]) 56 0 48, did := (mk 1 0x0B00 [(16, 17), (17, 31), (18, 255), (26, 1024), (28, 0x3F800000), (32, 0x3F800000), (48, 65536), (56, 65536)]).did, guarded := false }, by decide +kernel⟩,
   ⟨up, mk 1 0x0B00 [(16, 17), (17, 31), (18, 255), (26, 1024), (28, 0x3F800000), (32, 0x3F800000), (48, 65536), (56, 65536)], dfld (mk 1 0x0B00 [(16, 17), (17, 31), (18, 255), (26, 1024), (28, 0x3F800000), (32, 0x3F800000), (48, 65536), (56, 65536)]) 16 0 1, (List.range 8).filterMap (fun j => if dbit (mk 1 0x0B00 [(16, 17), (17, 31), (18, 255), (26, 1024), (28, 0x3F800000), (32, 0x3F800000), (48, 65536), (56, 65536)]) (18 + j) 7 then some (j, dfld (mk 1 0x0B00 [(16, 17), (17, 31), (18, 255), (26, 1024), (28, 0x3F800000), (32, 0x3F800000), (48, 65536), (56, 65536)]) (18 + j) 0 7) else none), { vox := dbit (mk 1 0x0B00 [(16, 17), (17, 31), (18, 255), (26, 1024), (28, 0x3F800000), (32, 0x3F800000), (48, 65536), (56, 65536)]) 16 1, reefMax := dfld (mk 1 0x0B00 [(16, 17), (17, 31), (18, 255), (26, 1024), (28, 0x3F800000), (32, 0x3F800000), (48, 65536), (56, 65536)]) 16 2 2, keep := dfld (mk 1 0x0B00 [(16, 17), (17, 31), (18, 255), (26, 1024), (28, 0x3F800000), (32, 0x3F800000), (48, 65536), (56, 65536)]) 16 4 4, cadence := dfld (mk 1 0x0B00 [(16, 17), (17, 31), (18, 255), (26, 1024), (28, 0x3F800000), (32, 0x3F800000), (48, 65536), (56, 65536)]) 17 0 5, members := ((List.range 8).filterMap (fun j => if dbit (mk 1 0x0B00 [(16, 17), (17, 31), (18, 255), (26, 1024), (28, 0x3F800000), (32, 0x3F800000), (48, 65536), (56, 65536)]) (18 + j) 7 then some (j, dfld (mk 1 0x0B00 [(16, 17), (17, 31), (18, 255), (26, 1024), (28, 0x3F800000), (32, 0x3F800000), (48, 65536), (56, 65536)]) (18 + j) 0 7) else none)), blocksMax := dfld (mk 1 0x0B00 [(16, 17), (17, 31), (18, 255), (26, 1024), (28, 0x3F800000), (32, 0x3F800000), (48, 65536), (56, 65536)]) 26 0 11, rangeMax := dfld (mk 1 0x0B00 [(16, 17), (17, 31), (18, 255), (26, 1024), (28, 0x3F800000), (32, 0x3F800000), (48, 65536), (56, 65536)]) 28 0 32, cell := dfld (mk 1 0x0B00 [(16, 17), (17, 31), (18, 255), (26, 1024), (28, 0x3F800000), (32, 0x3F800000), (48, 65536), (56, 65536)]) 32 0 32, ox := dfld (mk 1 0x0B00 [(16, 17), (17, 31), (18, 255), (26, 1024), (28, 0x3F800000), (32, 0x3F800000), (48, 65536), (56, 65536)]) 36 0 32, oy := dfld (mk 1 0x0B00 [(16, 17), (17, 31), (18, 255), (26, 1024), (28, 0x3F800000), (32, 0x3F800000), (48, 65536), (56, 65536)]) 40 0 32, oz := dfld (mk 1 0x0B00 [(16, 17), (17, 31), (18, 255), (26, 1024), (28, 0x3F800000), (32, 0x3F800000), (48, 65536), (56, 65536)]) 44 0 32, pointBase := dfld (mk 1 0x0B00 [(16, 17), (17, 31), (18, 255), (26, 1024), (28, 0x3F800000), (32, 0x3F800000), (48, 65536), (56, 65536)]) 48 0 48, siteBase := dfld (mk 1 0x0B00 [(16, 17), (17, 31), (18, 255), (26, 1024), (28, 0x3F800000), (32, 0x3F800000), (48, 65536), (56, 65536)]) 56 0 48, did := (mk 1 0x0B00 [(16, 17), (17, 31), (18, 255), (26, 1024), (28, 0x3F800000), (32, 0x3F800000), (48, 65536), (56, 65536)]).did, guarded := false }, by decide +kernel⟩,
   ⟨up, mk 1 0x0B01 [(16, 65536), (20, 16777216), (24, 16), (32, 64), (40, 8), (48, 0x3F800000), (52, 32), (53, 1)], dfld (mk 1 0x0B01 [(16, 65536), (20, 16777216), (24, 16), (32, 64), (40, 8), (48, 0x3F800000), (52, 32), (53, 1)]) 53 0 1, dfld (mk 1 0x0B01 [(16, 65536), (20, 16777216), (24, 16), (32, 64), (40, 8), (48, 0x3F800000), (52, 32), (53, 1)]) 52 0 6, by decide +kernel⟩,
   ⟨up, mk 1 0x0B01 [(16, 65536), (20, 16777216), (24, 16), (32, 64), (40, 8), (48, 0x3F800000), (52, 33), (53, 1)], dfld (mk 1 0x0B01 [(16, 65536), (20, 16777216), (24, 16), (32, 64), (40, 8), (48, 0x3F800000), (52, 33), (53, 1)]) 53 0 1, dfld (mk 1 0x0B01 [(16, 65536), (20, 16777216), (24, 16), (32, 64), (40, 8), (48, 0x3F800000), (52, 33), (53, 1)]) 52 0 6, by decide +kernel⟩,
   ⟨up, mk 1 0x0B02 [(16, 65536), (20, 16384), (24, 16), (32, 64), (40, 5), (44, 1)], dfld (mk 1 0x0B02 [(16, 65536), (20, 16384), (24, 16), (32, 64), (40, 5), (44, 1)]) 44 0 1, by decide +kernel⟩,
   ⟨up, mk 1 0x0B02 [(16, 65536), (20, 16385), (24, 16), (32, 64), (40, 5), (44, 1)], dfld (mk 1 0x0B02 [(16, 65536), (20, 16385), (24, 16), (32, 64), (40, 5), (44, 1)]) 44 0 1, by decide +kernel⟩,
   ⟨up, mk 1 0x0B03 [(16, 64), (24, 64), (32, 64), (40, 5), (44, 4), (45, 5)], dfld (mk 1 0x0B03 [(16, 64), (24, 64), (32, 64), (40, 5), (44, 4), (45, 5)]) 44 2 1, dfld (mk 1 0x0B03 [(16, 64), (24, 64), (32, 64), (40, 5), (44, 4), (45, 5)]) 44 0 2, dfld (mk 1 0x0B03 [(16, 64), (24, 64), (32, 64), (40, 5), (44, 4), (45, 5)]) 45 0 8, by decide +kernel⟩,
   ⟨up, mk 1 0x0B03 [(16, 64), (24, 64), (32, 64), (40, 5), (44, 4), (45, 4)], dfld (mk 1 0x0B03 [(16, 64), (24, 64), (32, 64), (40, 5), (44, 4), (45, 4)]) 44 2 1, dfld (mk 1 0x0B03 [(16, 64), (24, 64), (32, 64), (40, 5), (44, 4), (45, 4)]) 44 0 2, dfld (mk 1 0x0B03 [(16, 64), (24, 64), (32, 64), (40, 5), (44, 4), (45, 4)]) 45 0 8, by decide +kernel⟩,
   ⟨up, mk 1 0x0B04 [(16, 64), (24, 64), (32, 256), (34, 42), (35, 1), (36, 0), (40, 64), (48, 0), (60, 2048), (62, 2048)], dfld (mk 1 0x0B04 [(16, 64), (24, 64), (32, 256), (34, 42), (35, 1), (36, 0), (40, 64), (48, 0), (60, 2048), (62, 2048)]) 35 0 1, by decide +kernel⟩,
   ⟨up, mk 1 0x0B04 [(16, 64), (24, 64), (32, 257), (34, 42), (35, 1), (36, 0), (40, 64), (48, 0), (60, 2048), (62, 2048)], dfld (mk 1 0x0B04 [(16, 64), (24, 64), (32, 257), (34, 42), (35, 1), (36, 0), (40, 64), (48, 0), (60, 2048), (62, 2048)]) 35 0 1, by decide +kernel⟩,
   ⟨w212, 1, (mk 1 0x0B01 [(16, 65536), (20, 16777216), (24, 16), (32, 64), (40, 8), (48, 0x3F800000), (52, 32), (53, 1)], 5), by decide +kernel⟩,
   ⟨w213, 1, (1, mk 1 0x0B01 [(16, 65536), (20, 16777216), (24, 16), (32, 64), (40, 8), (48, 0x3F800000), (52, 32), (53, 1)], 5), by decide +kernel⟩,
   ⟨up, 1, by decide +kernel⟩,
   ⟨w212, mk 1 0x0B01 [(16, 65536), (20, 16777216), (24, 16), (32, 64), (40, 8), (48, 0x3F800000), (52, 32), (53, 1)], 1, 1, 5, setErg { (w212) with geo.ergRun := Tbl.drop (w212).geo.ergRun (1) } (1) { ergOf (w212) (1) with opUs := min (((w212).up - (5)) / 1000) 0xFFFF, lastEnd := (w212).up }, by decide +kernel, rfl, by decide +kernel⟩,
   ⟨w212, mk 1 0x0B01 [(16, 65536), (20, 16777216), (24, 16), (32, 64), (40, 8), (48, 0x3F800000), (52, 32), (53, 1)], 1, 0, 5, setErg { (w212) with geo.ergRun := Tbl.drop (w212).geo.ergRun (1) } (1) { ergOf (w212) (1) with opUs := min (((w212).up - (5)) / 1000) 0xFFFF, lastEnd := (w212).up }, by decide +kernel, rfl, by decide +kernel⟩,
   ⟨w212, 1, (mk 1 0x0B01 [(16, 65536), (20, 16777216), (24, 16), (32, 64), (40, 8), (48, 0x3F800000), (52, 32), (53, 1)], 5), by decide +kernel⟩,
   ⟨up, by decide +kernel⟩,
   ⟨w214, 1, { ep 31 5 with poseEnd := some 0, cfg := { up.cfg with volumes := [(1, vol0)] } }, et 5, { epoch := 5, tov := 0, kinematic := 0, corrected := none, groups := [], joints := [], poses := [{ query := 0, stream := 127, status := 0, flags := 0, rig := 15, link := Pose.id, sensor := Pose.id }, { query := 1, stream := 127, status := 0, flags := 0, rig := 15, link := Pose.id, sensor := Pose.id }] }, vol0, by decide +kernel⟩⟩

theorem test_witness_GridCommands :
    (∃ (s : State) (d : Desc) (g : Nat) (x : GridCfg), (g = dfld d 16 0 3) ∧ (x = { enable := dbit d 16 7, guarded := false, cadence := dfld d 17 0 5, format := dfld d 18 0 2, reefMax := dfld d 18 2 2, regionLog2 := dfld d 18 4 3, w := dfld d 20 0 12, h := dfld d 22 0 12, c := dfld d 24 0 9, bins := dfld d 26 0 5, cf := dfld d 27 0 8, cp := dfld d 28 0 7, ptFormat := dfld d 29 0 2, ptReduce := dfld d 29 2 2, ptUnit := dfld d 29 4 1, ptStride := dfld d 30 0 16, g0 := dfld d 32 0 32, x0 := dfld d 36 0 32, y0 := dfld d 40 0 32, z0 := dfld d 44 0 32, dz := dfld d 48 0 32, base := dfld d 56 0 48, did := d.did, sources := ((s.cfg.grids.find g).map (·.sources)).getD [], out := (s.cfg.grids.find g).bind (·.out) })) ∧
    (∃ (s : State) (d : Desc) (g : Nat) (x : GridCfg), (g = dfld d 16 0 3) ∧ (x = { enable := dbit d 16 7, guarded := false, cadence := dfld d 17 0 5, format := dfld d 18 0 2, reefMax := dfld d 18 2 2, regionLog2 := dfld d 18 4 3, w := dfld d 20 0 12, h := dfld d 22 0 12, c := dfld d 24 0 9, bins := dfld d 26 0 5, cf := dfld d 27 0 8, cp := dfld d 28 0 7, ptFormat := dfld d 29 0 2, ptReduce := dfld d 29 2 2, ptUnit := dfld d 29 4 1, ptStride := dfld d 30 0 16, g0 := dfld d 32 0 32, x0 := dfld d 36 0 32, y0 := dfld d 40 0 32, z0 := dfld d 44 0 32, dz := dfld d 48 0 32, base := dfld d 56 0 48, did := d.did, sources := ((s.cfg.grids.find g).map (·.sources)).getD [], out := (s.cfg.grids.find g).bind (·.out) }) ∧ (x.cp ≠ 0)) ∧
    (∃ (s : State) (d : Desc) (g : Nat) (x : GridCfg), (g = dfld d 16 0 3) ∧ (x = { enable := dbit d 16 7, guarded := false, cadence := dfld d 17 0 5, format := dfld d 18 0 2, reefMax := dfld d 18 2 2, regionLog2 := dfld d 18 4 3, w := dfld d 20 0 12, h := dfld d 22 0 12, c := dfld d 24 0 9, bins := dfld d 26 0 5, cf := dfld d 27 0 8, cp := dfld d 28 0 7, ptFormat := dfld d 29 0 2, ptReduce := dfld d 29 2 2, ptUnit := dfld d 29 4 1, ptStride := dfld d 30 0 16, g0 := dfld d 32 0 32, x0 := dfld d 36 0 32, y0 := dfld d 40 0 32, z0 := dfld d 44 0 32, dz := dfld d 48 0 32, base := dfld d 56 0 48, did := d.did, sources := ((s.cfg.grids.find g).map (·.sources)).getD [], out := (s.cfg.grids.find g).bind (·.out) }) ∧ (Accepted s d (infoGridConfig s d)) ∧ (gridGuarded s g = true)) ∧
    (∃ (s : State) (d : Desc) (g : Nat) (x : GridCfg), (g = dfld d 16 0 3) ∧ (x = { enable := dbit d 16 7, guarded := false, cadence := dfld d 17 0 5, format := dfld d 18 0 2, reefMax := dfld d 18 2 2, regionLog2 := dfld d 18 4 3, w := dfld d 20 0 12, h := dfld d 22 0 12, c := dfld d 24 0 9, bins := dfld d 26 0 5, cf := dfld d 27 0 8, cp := dfld d 28 0 7, ptFormat := dfld d 29 0 2, ptReduce := dfld d 29 2 2, ptUnit := dfld d 29 4 1, ptStride := dfld d 30 0 16, g0 := dfld d 32 0 32, x0 := dfld d 36 0 32, y0 := dfld d 40 0 32, z0 := dfld d 44 0 32, dz := dfld d 48 0 32, base := dfld d 56 0 48, did := d.did, sources := ((s.cfg.grids.find g).map (·.sources)).getD [], out := (s.cfg.grids.find g).bind (·.out) }) ∧ (Accepted s d (infoGridConfig s d)) ∧ (gridGuarded s g = false) ∧ (gridOk s x = false)) ∧
    (∃ (s : State) (d : Desc) (g : Nat) (x : GridCfg), (g = dfld d 16 0 3) ∧ (x = { enable := dbit d 16 7, guarded := false, cadence := dfld d 17 0 5, format := dfld d 18 0 2, reefMax := dfld d 18 2 2, regionLog2 := dfld d 18 4 3, w := dfld d 20 0 12, h := dfld d 22 0 12, c := dfld d 24 0 9, bins := dfld d 26 0 5, cf := dfld d 27 0 8, cp := dfld d 28 0 7, ptFormat := dfld d 29 0 2, ptReduce := dfld d 29 2 2, ptUnit := dfld d 29 4 1, ptStride := dfld d 30 0 16, g0 := dfld d 32 0 32, x0 := dfld d 36 0 32, y0 := dfld d 40 0 32, z0 := dfld d 44 0 32, dz := dfld d 48 0 32, base := dfld d 56 0 48, did := d.did, sources := ((s.cfg.grids.find g).map (·.sources)).getD [], out := (s.cfg.grids.find g).bind (·.out) }) ∧ (Accepted s d (infoGridConfig s d)) ∧ (gridGuarded s g = false) ∧ (gridOk s x = true)) ∧
    (∃ (s : State) (d : Desc) (g : Nat) (k : _) (slot : _) (y : GridSrc), (g = dfld d 16 0 3) ∧ (k = dfld d 18 0 7) ∧ (slot = dfld d 17 0 5) ∧ (y = { stream := k, lift := dbit d 19 0, stride := dfld d 19 3 5, tolAbs := dfld d 20 0 32, tolRel := dfld d 24 0 32, fx := dfld d 28 0 32, fy := dfld d 32 0 32, cx := dfld d 36 0 32, cy := dfld d 40 0 32, k1 := dfld d 44 0 32, k2 := dfld d 48 0 32, wf := dfld d 52 0 12, hf := dfld d 54 0 12, base := dfld d 56 0 48 }) ∧ (Accepted s d (infoGridSource s d)) ∧ (gridGuarded s g = true)) ∧
    (∃ (s : State) (d : Desc) (g : Nat) (k : _) (slot : _) (y : GridSrc), (g = dfld d 16 0 3) ∧ (k = dfld d 18 0 7) ∧ (slot = dfld d 17 0 5) ∧ (y = { stream := k, lift := dbit d 19 0, stride := dfld d 19 3 5, tolAbs := dfld d 20 0 32, tolRel := dfld d 24 0 32, fx := dfld d 28 0 32, fy := dfld d 32 0 32, cx := dfld d 36 0 32, cy := dfld d 40 0 32, k1 := dfld d 44 0 32, k2 := dfld d 48 0 32, wf := dfld d 52 0 12, hf := dfld d 54 0 12, base := dfld d 56 0 48 }) ∧ (Accepted s d (infoGridSource s d)) ∧ (gridGuarded s g = false) ∧ (s.cfg.grids.find g = none)) ∧
    (∃ (s : State) (d : Desc) (g : Nat) (k : _) (slot : _) (y : GridSrc) (x : _), (g = dfld d 16 0 3) ∧ (k = dfld d 18 0 7) ∧ (slot = dfld d 17 0 5) ∧ (y = { stream := k, lift := dbit d 19 0, stride := dfld d 19 3 5, tolAbs := dfld d 20 0 32, tolRel := dfld d 24 0 32, fx := dfld d 28 0 32, fy := dfld d 32 0 32, cx := dfld d 36 0 32, cy := dfld d 40 0 32, k1 := dfld d 44 0 32, k2 := dfld d 48 0 32, wf := dfld d 52 0 12, hf := dfld d 54 0 12, base := dfld d 56 0 48 }) ∧ (Accepted s d (infoGridSource s d)) ∧ (gridGuarded s g = false) ∧ (s.cfg.grids.find g = some x) ∧ (dbit d 17 7 = false)) ∧
    (∃ (s : State) (d : Desc) (g : Nat) (k : _) (slot : _) (y : GridSrc) (x : _) (c : _), (g = dfld d 16 0 3) ∧ (k = dfld d 18 0 7) ∧ (slot = dfld d 17 0 5) ∧ (y = { stream := k, lift := dbit d 19 0, stride := dfld d 19 3 5, tolAbs := dfld d 20 0 32, tolRel := dfld d 24 0 32, fx := dfld d 28 0 32, fy := dfld d 32 0 32, cx := dfld d 36 0 32, cy := dfld d 40 0 32, k1 := dfld d 44 0 32, k2 := dfld d 48 0 32, wf := dfld d 52 0 12, hf := dfld d 54 0 12, base := dfld d 56 0 48 }) ∧ (Accepted s d (infoGridSource s d)) ∧ (gridGuarded s g = false) ∧ (s.cfg.grids.find g = some x) ∧ (dbit d 17 7 = true) ∧ (s.cfg.streams.find k = some c) ∧ (c.mount ≠ none) ∧ (y.lift = false ∨ (c.kind = kindCamera ∧ y.stride ≠ 0)) ∧ (f32Le 0 y.tolAbs = true) ∧ (f32Le 0 y.tolRel = true) ∧ (y.base % 65536 = 0)) ∧
    (∃ (s : State) (d : Desc) (g : Nat) (k : _) (slot : _) (y : GridSrc) (x : _), (g = dfld d 16 0 3) ∧ (k = dfld d 18 0 7) ∧ (slot = dfld d 17 0 5) ∧ (y = { stream := k, lift := dbit d 19 0, stride := dfld d 19 3 5, tolAbs := dfld d 20 0 32, tolRel := dfld d 24 0 32, fx := dfld d 28 0 32, fy := dfld d 32 0 32, cx := dfld d 36 0 32, cy := dfld d 40 0 32, k1 := dfld d 44 0 32, k2 := dfld d 48 0 32, wf := dfld d 52 0 12, hf := dfld d 54 0 12, base := dfld d 56 0 48 }) ∧ (Accepted s d (infoGridSource s d)) ∧ (gridGuarded s g = false) ∧ (s.cfg.grids.find g = some x) ∧ (dbit d 17 7 = true) ∧ (s.cfg.streams.find k = none ∨ (∃ c, s.cfg.streams.find k = some c ∧ (c.mount = none ∨ (y.lift = true ∧ (c.kind ≠ kindCamera ∨ y.stride = 0)))) ∨ f32Le 0 y.tolAbs = false ∨ f32Le 0 y.tolRel = false ∨ y.base % 65536 ≠ 0)) ∧
    (∃ (s : State) (d : Desc) (g : Nat) (o : GridOut), (g = dfld d 16 0 3) ∧ (o = { slots := dfld d 17 0 4, format := dfld d 18 0 2, first := dfld d 20 0 9, count := dfld d 22 0 9, fill := dfld d 24 0 32, base := dfld d 32 0 48, did := d.did }) ∧ (Accepted s d (infoGridOutput s d)) ∧ (gridGuarded s g = true)) ∧
    (∃ (s : State) (d : Desc) (g : Nat) (o : GridOut), (g = dfld d 16 0 3) ∧ (o = { slots := dfld d 17 0 4, format := dfld d 18 0 2, first := dfld d 20 0 9, count := dfld d 22 0 9, fill := dfld d 24 0 32, base := dfld d 32 0 48, did := d.did }) ∧ (Accepted s d (infoGridOutput s d)) ∧ (gridGuarded s g = false) ∧ (s.cfg.grids.find g = none)) ∧
    (∃ (s : State) (d : Desc) (g : Nat) (o : GridOut) (x : _), (g = dfld d 16 0 3) ∧ (o = { slots := dfld d 17 0 4, format := dfld d 18 0 2, first := dfld d 20 0 9, count := dfld d 22 0 9, fill := dfld d 24 0 32, base := dfld d 32 0 48, did := d.did }) ∧ (Accepted s d (infoGridOutput s d)) ∧ (gridGuarded s g = false) ∧ (s.cfg.grids.find g = some x) ∧ (2 ≤ o.slots) ∧ (o.slots ≤ 8) ∧ (o.format ≤ 2) ∧ (o.first + o.count ≤ x.c) ∧ (o.base % 65536 = 0)) ∧
    (∃ (s : State) (d : Desc) (g : Nat) (o : GridOut) (x : _), (g = dfld d 16 0 3) ∧ (o = { slots := dfld d 17 0 4, format := dfld d 18 0 2, first := dfld d 20 0 9, count := dfld d 22 0 9, fill := dfld d 24 0 32, base := dfld d 32 0 48, did := d.did }) ∧ (Accepted s d (infoGridOutput s d)) ∧ (gridGuarded s g = false) ∧ (s.cfg.grids.find g = some x) ∧ (o.slots < 2 ∨ 8 < o.slots ∨ 2 < o.format ∨ x.c < o.first + o.count ∨ o.base % 65536 ≠ 0)) ∧
    (∃ (s : State) (d : Desc) (g : Nat) (f : _) (k : _) (a : Area) (x : _), (g = dfld d 16 0 3) ∧ (f = dfld d 16 0 12) ∧ (k = dfld d 18 0 3) ∧ (a = { grid := k, required := dbit d 18 7, col0 := dfld d 20 0 8, row0 := dfld d 22 0 8, col1 := dfld d 24 0 8, row1 := dfld d 26 0 8, unseenMax := dfld d 28 0 32 }) ∧ (Accepted s d (infoGridArea s d)) ∧ (s.cfg.flows.find f = some x) ∧ (x.guarded = true)) ∧
    (∃ (s : State) (d : Desc) (g : Nat) (f : _) (k : _) (a : Area) (x : _), (g = dfld d 16 0 3) ∧ (f = dfld d 16 0 12) ∧ (k = dfld d 18 0 3) ∧ (a = { grid := k, required := dbit d 18 7, col0 := dfld d 20 0 8, row0 := dfld d 22 0 8, col1 := dfld d 24 0 8, row1 := dfld d 26 0 8, unseenMax := dfld d 28 0 32 }) ∧ (Accepted s d (infoGridArea s d)) ∧ (s.cfg.flows.find f = some x) ∧ (x.guarded = false) ∧ (s.cfg.grids.find k ≠ none)) ∧
    (∃ (s : State) (d : Desc) (g : Nat) (f : _) (k : _) (a : Area) (x : _), (g = dfld d 16 0 3) ∧ (f = dfld d 16 0 12) ∧ (k = dfld d 18 0 3) ∧ (a = { grid := k, required := dbit d 18 7, col0 := dfld d 20 0 8, row0 := dfld d 22 0 8, col1 := dfld d 24 0 8, row1 := dfld d 26 0 8, unseenMax := dfld d 28 0 32 }) ∧ (Accepted s d (infoGridArea s d)) ∧ (s.cfg.flows.find f = some x) ∧ (x.guarded = false) ∧ (s.cfg.grids.find k = none)) ∧
    (∃ (s : State) (d : Desc) (g : Nat) (f : _) (k : _) (a : Area), (g = dfld d 16 0 3) ∧ (f = dfld d 16 0 12) ∧ (k = dfld d 18 0 3) ∧ (a = { grid := k, required := dbit d 18 7, col0 := dfld d 20 0 8, row0 := dfld d 22 0 8, col1 := dfld d 24 0 8, row1 := dfld d 26 0 8, unseenMax := dfld d 28 0 32 }) ∧ (Accepted s d (infoGridArea s d)) ∧ (s.cfg.flows.find f = none)) ∧
    (∃ (s : State) (d : Desc) (g : Nat), (g = dfld d 16 0 3) ∧ (Accepted s d (infoGridDelete s d)) ∧ (gridGuarded s g = true)) ∧
    (∃ (s : State) (d : Desc) (g : Nat), (g = dfld d 16 0 3) ∧ (Accepted s d (infoGridDelete s d)) ∧ (gridGuarded s g = false) ∧ (s.cfg.flows.any (fun p => p.2.grid == some g) = true)) ∧
    (∃ (s : State) (d : Desc) (g : Nat), (g = dfld d 16 0 3) ∧ (Accepted s d (infoGridDelete s d)) ∧ (gridGuarded s g = false) ∧ (s.cfg.flows.any (fun p => p.2.grid == some g) = false) ∧ (s.cfg.grids.find g = none)) ∧
    (∃ (s : State) (d : Desc) (g : Nat), (g = dfld d 16 0 3) ∧ (Accepted s d (infoGridDelete s d)) ∧ (gridGuarded s g = false) ∧ (s.cfg.flows.any (fun p => p.2.grid == some g) = false) ∧ (s.cfg.grids.find g ≠ none)) ∧
    (∃ (s : State) (d : Desc) (g : Nat), (g = dfld d 16 0 3) ∧ (s.epochs = [])) ∧
    (∃ (s : State) (d : Desc) (g : Nat) (h : _) (e : _) (x : _), (g = dfld d 16 0 3) ∧ ((gridOf s h).running = none) ∧ (gridEpoch s h = some e) ∧ (e.cfg.grids.find h = some x)) ∧
    (∃ (s : State) (d : Desc) (g : Nat) (h : _) (n : _) (last : _) (k : _) (e : _) (x : _), (g = dfld d 16 0 3) ∧ ((gridOf s h).running = some (n, last, k)) ∧ (s.epochs.find? (fun e => e.epoch == n && (e.cfg.grids.find h).any (fun x => x.enable && x.cadence == e.cadence)) = some e) ∧ (e.cfg.grids.find h = some x) ∧ (3 ≤ last) ∧ (last ≤ 5)) :=
  ⟨⟨w215, mk 1 0x0E80 [(16, 135), (17, 31), (18, 58), (20, 2048), (22, 2048), (24, 256), (26, 16), (27, 128), (29, 10), (30, 4), (32, 0x3F800000), (48, 0x3F800000), (56, 65536)], 7, { enable := dbit (mk 1 0x0E80 [(16, 135), (17, 31), (18, 58), (20, 2048), (22, 2048), (24, 256), (26, 16), (27, 128), (29, 10), (30, 4), (32, 0x3F800000), (48, 0x3F800000), (56, 65536)]) 16 7, guarded := false, cadence := dfld (mk 1 0x0E80 [(16, 135), (17, 31), (18, 58), (20, 2048), (22, 2048), (24, 256), (26, 16), (27, 128), (29, 10), (30, 4), (32, 0x3F800000), (48, 0x3F800000), (56, 65536)]) 17 0 5, format := dfld (mk 1 0x0E80 [(16, 135), (17, 31), (18, 58), (20, 2048), (22, 2048), (24, 256), (26, 16), (27, 128), (29, 10), (30, 4), (32, 0x3F800000), (48, 0x3F800000), (56, 65536)]) 18 0 2, reefMax := dfld (mk 1 0x0E80 [(16, 135), (17, 31), (18, 58), (20, 2048), (22, 2048), (24, 256), (26, 16), (27, 128), (29, 10), (30, 4), (32, 0x3F800000), (48, 0x3F800000), (56, 65536)]) 18 2 2, regionLog2 := dfld (mk 1 0x0E80 [(16, 135), (17, 31), (18, 58), (20, 2048), (22, 2048), (24, 256), (26, 16), (27, 128), (29, 10), (30, 4), (32, 0x3F800000), (48, 0x3F800000), (56, 65536)]) 18 4 3, w := dfld (mk 1 0x0E80 [(16, 135), (17, 31), (18, 58), (20, 2048), (22, 2048), (24, 256), (26, 16), (27, 128), (29, 10), (30, 4), (32, 0x3F800000), (48, 0x3F800000), (56, 65536)]) 20 0 12, h := dfld (mk 1 0x0E80 [(16, 135), (17, 31), (18, 58), (20, 2048), (22, 2048), (24, 256), (26, 16), (27, 128), (29, 10), (30, 4), (32, 0x3F800000), (48, 0x3F800000), (56, 65536)]) 22 0 12, c := dfld (mk 1 0x0E80 [(16, 135), (17, 31), (18, 58), (20, 2048), (22, 2048), (24, 256), (26, 16), (27, 128), (29, 10), (30, 4), (32, 0x3F800000), (48, 0x3F800000), (56, 65536)]) 24 0 9, bins := dfld (mk 1 0x0E80 [(16, 135), (17, 31), (18, 58), (20, 2048), (22, 2048), (24, 256), (26, 16), (27, 128), (29, 10), (30, 4), (32, 0x3F800000), (48, 0x3F800000), (56, 65536)]) 26 0 5, cf := dfld (mk 1 0x0E80 [(16, 135), (17, 31), (18, 58), (20, 2048), (22, 2048), (24, 256), (26, 16), (27, 128), (29, 10), (30, 4), (32, 0x3F800000), (48, 0x3F800000), (56, 65536)]) 27 0 8, cp := dfld (mk 1 0x0E80 [(16, 135), (17, 31), (18, 58), (20, 2048), (22, 2048), (24, 256), (26, 16), (27, 128), (29, 10), (30, 4), (32, 0x3F800000), (48, 0x3F800000), (56, 65536)]) 28 0 7, ptFormat := dfld (mk 1 0x0E80 [(16, 135), (17, 31), (18, 58), (20, 2048), (22, 2048), (24, 256), (26, 16), (27, 128), (29, 10), (30, 4), (32, 0x3F800000), (48, 0x3F800000), (56, 65536)]) 29 0 2, ptReduce := dfld (mk 1 0x0E80 [(16, 135), (17, 31), (18, 58), (20, 2048), (22, 2048), (24, 256), (26, 16), (27, 128), (29, 10), (30, 4), (32, 0x3F800000), (48, 0x3F800000), (56, 65536)]) 29 2 2, ptUnit := dfld (mk 1 0x0E80 [(16, 135), (17, 31), (18, 58), (20, 2048), (22, 2048), (24, 256), (26, 16), (27, 128), (29, 10), (30, 4), (32, 0x3F800000), (48, 0x3F800000), (56, 65536)]) 29 4 1, ptStride := dfld (mk 1 0x0E80 [(16, 135), (17, 31), (18, 58), (20, 2048), (22, 2048), (24, 256), (26, 16), (27, 128), (29, 10), (30, 4), (32, 0x3F800000), (48, 0x3F800000), (56, 65536)]) 30 0 16, g0 := dfld (mk 1 0x0E80 [(16, 135), (17, 31), (18, 58), (20, 2048), (22, 2048), (24, 256), (26, 16), (27, 128), (29, 10), (30, 4), (32, 0x3F800000), (48, 0x3F800000), (56, 65536)]) 32 0 32, x0 := dfld (mk 1 0x0E80 [(16, 135), (17, 31), (18, 58), (20, 2048), (22, 2048), (24, 256), (26, 16), (27, 128), (29, 10), (30, 4), (32, 0x3F800000), (48, 0x3F800000), (56, 65536)]) 36 0 32, y0 := dfld (mk 1 0x0E80 [(16, 135), (17, 31), (18, 58), (20, 2048), (22, 2048), (24, 256), (26, 16), (27, 128), (29, 10), (30, 4), (32, 0x3F800000), (48, 0x3F800000), (56, 65536)]) 40 0 32, z0 := dfld (mk 1 0x0E80 [(16, 135), (17, 31), (18, 58), (20, 2048), (22, 2048), (24, 256), (26, 16), (27, 128), (29, 10), (30, 4), (32, 0x3F800000), (48, 0x3F800000), (56, 65536)]) 44 0 32, dz := dfld (mk 1 0x0E80 [(16, 135), (17, 31), (18, 58), (20, 2048), (22, 2048), (24, 256), (26, 16), (27, 128), (29, 10), (30, 4), (32, 0x3F800000), (48, 0x3F800000), (56, 65536)]) 48 0 32, base := dfld (mk 1 0x0E80 [(16, 135), (17, 31), (18, 58), (20, 2048), (22, 2048), (24, 256), (26, 16), (27, 128), (29, 10), (30, 4), (32, 0x3F800000), (48, 0x3F800000), (56, 65536)]) 56 0 48, did := (mk 1 0x0E80 [(16, 135), (17, 31), (18, 58), (20, 2048), (22, 2048), (24, 256), (26, 16), (27, 128), (29, 10), (30, 4), (32, 0x3F800000), (48, 0x3F800000), (56, 65536)]).did, sources := (((w215).cfg.grids.find (7)).map (·.sources)).getD [], out := ((w215).cfg.grids.find (7)).bind (·.out) }, by decide +kernel⟩,
   ⟨w216, mk 1 0x0E80 [(16, 135), (17, 31), (18, 58), (20, 2048), (22, 2048), (24, 256), (26, 16), (27, 128), (29, 10), (30, 4), (32, 0x3F800000), (48, 0x3F800000), (56, 65536), (28, 1)], 7, { enable := dbit (mk 1 0x0E80 [(16, 135), (17, 31), (18, 58), (20, 2048), (22, 2048), (24, 256), (26, 16), (27, 128), (29, 10), (30, 4), (32, 0x3F800000), (48, 0x3F800000), (56, 65536), (28, 1)]) 16 7, guarded := false, cadence := dfld (mk 1 0x0E80 [(16, 135), (17, 31), (18, 58), (20, 2048), (22, 2048), (24, 256), (26, 16), (27, 128), (29, 10), (30, 4), (32, 0x3F800000), (48, 0x3F800000), (56, 65536), (28, 1)]) 17 0 5, format := dfld (mk 1 0x0E80 [(16, 135), (17, 31), (18, 58), (20, 2048), (22, 2048), (24, 256), (26, 16), (27, 128), (29, 10), (30, 4), (32, 0x3F800000), (48, 0x3F800000), (56, 65536), (28, 1)]) 18 0 2, reefMax := dfld (mk 1 0x0E80 [(16, 135), (17, 31), (18, 58), (20, 2048), (22, 2048), (24, 256), (26, 16), (27, 128), (29, 10), (30, 4), (32, 0x3F800000), (48, 0x3F800000), (56, 65536), (28, 1)]) 18 2 2, regionLog2 := dfld (mk 1 0x0E80 [(16, 135), (17, 31), (18, 58), (20, 2048), (22, 2048), (24, 256), (26, 16), (27, 128), (29, 10), (30, 4), (32, 0x3F800000), (48, 0x3F800000), (56, 65536), (28, 1)]) 18 4 3, w := dfld (mk 1 0x0E80 [(16, 135), (17, 31), (18, 58), (20, 2048), (22, 2048), (24, 256), (26, 16), (27, 128), (29, 10), (30, 4), (32, 0x3F800000), (48, 0x3F800000), (56, 65536), (28, 1)]) 20 0 12, h := dfld (mk 1 0x0E80 [(16, 135), (17, 31), (18, 58), (20, 2048), (22, 2048), (24, 256), (26, 16), (27, 128), (29, 10), (30, 4), (32, 0x3F800000), (48, 0x3F800000), (56, 65536), (28, 1)]) 22 0 12, c := dfld (mk 1 0x0E80 [(16, 135), (17, 31), (18, 58), (20, 2048), (22, 2048), (24, 256), (26, 16), (27, 128), (29, 10), (30, 4), (32, 0x3F800000), (48, 0x3F800000), (56, 65536), (28, 1)]) 24 0 9, bins := dfld (mk 1 0x0E80 [(16, 135), (17, 31), (18, 58), (20, 2048), (22, 2048), (24, 256), (26, 16), (27, 128), (29, 10), (30, 4), (32, 0x3F800000), (48, 0x3F800000), (56, 65536), (28, 1)]) 26 0 5, cf := dfld (mk 1 0x0E80 [(16, 135), (17, 31), (18, 58), (20, 2048), (22, 2048), (24, 256), (26, 16), (27, 128), (29, 10), (30, 4), (32, 0x3F800000), (48, 0x3F800000), (56, 65536), (28, 1)]) 27 0 8, cp := dfld (mk 1 0x0E80 [(16, 135), (17, 31), (18, 58), (20, 2048), (22, 2048), (24, 256), (26, 16), (27, 128), (29, 10), (30, 4), (32, 0x3F800000), (48, 0x3F800000), (56, 65536), (28, 1)]) 28 0 7, ptFormat := dfld (mk 1 0x0E80 [(16, 135), (17, 31), (18, 58), (20, 2048), (22, 2048), (24, 256), (26, 16), (27, 128), (29, 10), (30, 4), (32, 0x3F800000), (48, 0x3F800000), (56, 65536), (28, 1)]) 29 0 2, ptReduce := dfld (mk 1 0x0E80 [(16, 135), (17, 31), (18, 58), (20, 2048), (22, 2048), (24, 256), (26, 16), (27, 128), (29, 10), (30, 4), (32, 0x3F800000), (48, 0x3F800000), (56, 65536), (28, 1)]) 29 2 2, ptUnit := dfld (mk 1 0x0E80 [(16, 135), (17, 31), (18, 58), (20, 2048), (22, 2048), (24, 256), (26, 16), (27, 128), (29, 10), (30, 4), (32, 0x3F800000), (48, 0x3F800000), (56, 65536), (28, 1)]) 29 4 1, ptStride := dfld (mk 1 0x0E80 [(16, 135), (17, 31), (18, 58), (20, 2048), (22, 2048), (24, 256), (26, 16), (27, 128), (29, 10), (30, 4), (32, 0x3F800000), (48, 0x3F800000), (56, 65536), (28, 1)]) 30 0 16, g0 := dfld (mk 1 0x0E80 [(16, 135), (17, 31), (18, 58), (20, 2048), (22, 2048), (24, 256), (26, 16), (27, 128), (29, 10), (30, 4), (32, 0x3F800000), (48, 0x3F800000), (56, 65536), (28, 1)]) 32 0 32, x0 := dfld (mk 1 0x0E80 [(16, 135), (17, 31), (18, 58), (20, 2048), (22, 2048), (24, 256), (26, 16), (27, 128), (29, 10), (30, 4), (32, 0x3F800000), (48, 0x3F800000), (56, 65536), (28, 1)]) 36 0 32, y0 := dfld (mk 1 0x0E80 [(16, 135), (17, 31), (18, 58), (20, 2048), (22, 2048), (24, 256), (26, 16), (27, 128), (29, 10), (30, 4), (32, 0x3F800000), (48, 0x3F800000), (56, 65536), (28, 1)]) 40 0 32, z0 := dfld (mk 1 0x0E80 [(16, 135), (17, 31), (18, 58), (20, 2048), (22, 2048), (24, 256), (26, 16), (27, 128), (29, 10), (30, 4), (32, 0x3F800000), (48, 0x3F800000), (56, 65536), (28, 1)]) 44 0 32, dz := dfld (mk 1 0x0E80 [(16, 135), (17, 31), (18, 58), (20, 2048), (22, 2048), (24, 256), (26, 16), (27, 128), (29, 10), (30, 4), (32, 0x3F800000), (48, 0x3F800000), (56, 65536), (28, 1)]) 48 0 32, base := dfld (mk 1 0x0E80 [(16, 135), (17, 31), (18, 58), (20, 2048), (22, 2048), (24, 256), (26, 16), (27, 128), (29, 10), (30, 4), (32, 0x3F800000), (48, 0x3F800000), (56, 65536), (28, 1)]) 56 0 48, did := (mk 1 0x0E80 [(16, 135), (17, 31), (18, 58), (20, 2048), (22, 2048), (24, 256), (26, 16), (27, 128), (29, 10), (30, 4), (32, 0x3F800000), (48, 0x3F800000), (56, 65536), (28, 1)]).did, sources := (((w216).cfg.grids.find (7)).map (·.sources)).getD [], out := ((w216).cfg.grids.find (7)).bind (·.out) }, by decide +kernel⟩,
   ⟨w217, mk 1 0x0E80 [(16, 135), (17, 31), (18, 58), (20, 2048), (22, 2048), (24, 256), (26, 16), (27, 128), (29, 10), (30, 4), (32, 0x3F800000), (48, 0x3F800000), (56, 65536)], 7, { enable := dbit (mk 1 0x0E80 [(16, 135), (17, 31), (18, 58), (20, 2048), (22, 2048), (24, 256), (26, 16), (27, 128), (29, 10), (30, 4), (32, 0x3F800000), (48, 0x3F800000), (56, 65536)]) 16 7, guarded := false, cadence := dfld (mk 1 0x0E80 [(16, 135), (17, 31), (18, 58), (20, 2048), (22, 2048), (24, 256), (26, 16), (27, 128), (29, 10), (30, 4), (32, 0x3F800000), (48, 0x3F800000), (56, 65536)]) 17 0 5, format := dfld (mk 1 0x0E80 [(16, 135), (17, 31), (18, 58), (20, 2048), (22, 2048), (24, 256), (26, 16), (27, 128), (29, 10), (30, 4), (32, 0x3F800000), (48, 0x3F800000), (56, 65536)]) 18 0 2, reefMax := dfld (mk 1 0x0E80 [(16, 135), (17, 31), (18, 58), (20, 2048), (22, 2048), (24, 256), (26, 16), (27, 128), (29, 10), (30, 4), (32, 0x3F800000), (48, 0x3F800000), (56, 65536)]) 18 2 2, regionLog2 := dfld (mk 1 0x0E80 [(16, 135), (17, 31), (18, 58), (20, 2048), (22, 2048), (24, 256), (26, 16), (27, 128), (29, 10), (30, 4), (32, 0x3F800000), (48, 0x3F800000), (56, 65536)]) 18 4 3, w := dfld (mk 1 0x0E80 [(16, 135), (17, 31), (18, 58), (20, 2048), (22, 2048), (24, 256), (26, 16), (27, 128), (29, 10), (30, 4), (32, 0x3F800000), (48, 0x3F800000), (56, 65536)]) 20 0 12, h := dfld (mk 1 0x0E80 [(16, 135), (17, 31), (18, 58), (20, 2048), (22, 2048), (24, 256), (26, 16), (27, 128), (29, 10), (30, 4), (32, 0x3F800000), (48, 0x3F800000), (56, 65536)]) 22 0 12, c := dfld (mk 1 0x0E80 [(16, 135), (17, 31), (18, 58), (20, 2048), (22, 2048), (24, 256), (26, 16), (27, 128), (29, 10), (30, 4), (32, 0x3F800000), (48, 0x3F800000), (56, 65536)]) 24 0 9, bins := dfld (mk 1 0x0E80 [(16, 135), (17, 31), (18, 58), (20, 2048), (22, 2048), (24, 256), (26, 16), (27, 128), (29, 10), (30, 4), (32, 0x3F800000), (48, 0x3F800000), (56, 65536)]) 26 0 5, cf := dfld (mk 1 0x0E80 [(16, 135), (17, 31), (18, 58), (20, 2048), (22, 2048), (24, 256), (26, 16), (27, 128), (29, 10), (30, 4), (32, 0x3F800000), (48, 0x3F800000), (56, 65536)]) 27 0 8, cp := dfld (mk 1 0x0E80 [(16, 135), (17, 31), (18, 58), (20, 2048), (22, 2048), (24, 256), (26, 16), (27, 128), (29, 10), (30, 4), (32, 0x3F800000), (48, 0x3F800000), (56, 65536)]) 28 0 7, ptFormat := dfld (mk 1 0x0E80 [(16, 135), (17, 31), (18, 58), (20, 2048), (22, 2048), (24, 256), (26, 16), (27, 128), (29, 10), (30, 4), (32, 0x3F800000), (48, 0x3F800000), (56, 65536)]) 29 0 2, ptReduce := dfld (mk 1 0x0E80 [(16, 135), (17, 31), (18, 58), (20, 2048), (22, 2048), (24, 256), (26, 16), (27, 128), (29, 10), (30, 4), (32, 0x3F800000), (48, 0x3F800000), (56, 65536)]) 29 2 2, ptUnit := dfld (mk 1 0x0E80 [(16, 135), (17, 31), (18, 58), (20, 2048), (22, 2048), (24, 256), (26, 16), (27, 128), (29, 10), (30, 4), (32, 0x3F800000), (48, 0x3F800000), (56, 65536)]) 29 4 1, ptStride := dfld (mk 1 0x0E80 [(16, 135), (17, 31), (18, 58), (20, 2048), (22, 2048), (24, 256), (26, 16), (27, 128), (29, 10), (30, 4), (32, 0x3F800000), (48, 0x3F800000), (56, 65536)]) 30 0 16, g0 := dfld (mk 1 0x0E80 [(16, 135), (17, 31), (18, 58), (20, 2048), (22, 2048), (24, 256), (26, 16), (27, 128), (29, 10), (30, 4), (32, 0x3F800000), (48, 0x3F800000), (56, 65536)]) 32 0 32, x0 := dfld (mk 1 0x0E80 [(16, 135), (17, 31), (18, 58), (20, 2048), (22, 2048), (24, 256), (26, 16), (27, 128), (29, 10), (30, 4), (32, 0x3F800000), (48, 0x3F800000), (56, 65536)]) 36 0 32, y0 := dfld (mk 1 0x0E80 [(16, 135), (17, 31), (18, 58), (20, 2048), (22, 2048), (24, 256), (26, 16), (27, 128), (29, 10), (30, 4), (32, 0x3F800000), (48, 0x3F800000), (56, 65536)]) 40 0 32, z0 := dfld (mk 1 0x0E80 [(16, 135), (17, 31), (18, 58), (20, 2048), (22, 2048), (24, 256), (26, 16), (27, 128), (29, 10), (30, 4), (32, 0x3F800000), (48, 0x3F800000), (56, 65536)]) 44 0 32, dz := dfld (mk 1 0x0E80 [(16, 135), (17, 31), (18, 58), (20, 2048), (22, 2048), (24, 256), (26, 16), (27, 128), (29, 10), (30, 4), (32, 0x3F800000), (48, 0x3F800000), (56, 65536)]) 48 0 32, base := dfld (mk 1 0x0E80 [(16, 135), (17, 31), (18, 58), (20, 2048), (22, 2048), (24, 256), (26, 16), (27, 128), (29, 10), (30, 4), (32, 0x3F800000), (48, 0x3F800000), (56, 65536)]) 56 0 48, did := (mk 1 0x0E80 [(16, 135), (17, 31), (18, 58), (20, 2048), (22, 2048), (24, 256), (26, 16), (27, 128), (29, 10), (30, 4), (32, 0x3F800000), (48, 0x3F800000), (56, 65536)]).did, sources := (((w217).cfg.grids.find (7)).map (·.sources)).getD [], out := ((w217).cfg.grids.find (7)).bind (·.out) }, by decide +kernel⟩,
   ⟨w215, mk 1 0x0E80 [(16, 135), (17, 31), (18, 58), (20, 2049), (22, 2048), (24, 256), (26, 16), (27, 128), (29, 10), (30, 4), (32, 0x3F800000), (48, 0x3F800000), (56, 65536)], 7, { enable := dbit (mk 1 0x0E80 [(16, 135), (17, 31), (18, 58), (20, 2049), (22, 2048), (24, 256), (26, 16), (27, 128), (29, 10), (30, 4), (32, 0x3F800000), (48, 0x3F800000), (56, 65536)]) 16 7, guarded := false, cadence := dfld (mk 1 0x0E80 [(16, 135), (17, 31), (18, 58), (20, 2049), (22, 2048), (24, 256), (26, 16), (27, 128), (29, 10), (30, 4), (32, 0x3F800000), (48, 0x3F800000), (56, 65536)]) 17 0 5, format := dfld (mk 1 0x0E80 [(16, 135), (17, 31), (18, 58), (20, 2049), (22, 2048), (24, 256), (26, 16), (27, 128), (29, 10), (30, 4), (32, 0x3F800000), (48, 0x3F800000), (56, 65536)]) 18 0 2, reefMax := dfld (mk 1 0x0E80 [(16, 135), (17, 31), (18, 58), (20, 2049), (22, 2048), (24, 256), (26, 16), (27, 128), (29, 10), (30, 4), (32, 0x3F800000), (48, 0x3F800000), (56, 65536)]) 18 2 2, regionLog2 := dfld (mk 1 0x0E80 [(16, 135), (17, 31), (18, 58), (20, 2049), (22, 2048), (24, 256), (26, 16), (27, 128), (29, 10), (30, 4), (32, 0x3F800000), (48, 0x3F800000), (56, 65536)]) 18 4 3, w := dfld (mk 1 0x0E80 [(16, 135), (17, 31), (18, 58), (20, 2049), (22, 2048), (24, 256), (26, 16), (27, 128), (29, 10), (30, 4), (32, 0x3F800000), (48, 0x3F800000), (56, 65536)]) 20 0 12, h := dfld (mk 1 0x0E80 [(16, 135), (17, 31), (18, 58), (20, 2049), (22, 2048), (24, 256), (26, 16), (27, 128), (29, 10), (30, 4), (32, 0x3F800000), (48, 0x3F800000), (56, 65536)]) 22 0 12, c := dfld (mk 1 0x0E80 [(16, 135), (17, 31), (18, 58), (20, 2049), (22, 2048), (24, 256), (26, 16), (27, 128), (29, 10), (30, 4), (32, 0x3F800000), (48, 0x3F800000), (56, 65536)]) 24 0 9, bins := dfld (mk 1 0x0E80 [(16, 135), (17, 31), (18, 58), (20, 2049), (22, 2048), (24, 256), (26, 16), (27, 128), (29, 10), (30, 4), (32, 0x3F800000), (48, 0x3F800000), (56, 65536)]) 26 0 5, cf := dfld (mk 1 0x0E80 [(16, 135), (17, 31), (18, 58), (20, 2049), (22, 2048), (24, 256), (26, 16), (27, 128), (29, 10), (30, 4), (32, 0x3F800000), (48, 0x3F800000), (56, 65536)]) 27 0 8, cp := dfld (mk 1 0x0E80 [(16, 135), (17, 31), (18, 58), (20, 2049), (22, 2048), (24, 256), (26, 16), (27, 128), (29, 10), (30, 4), (32, 0x3F800000), (48, 0x3F800000), (56, 65536)]) 28 0 7, ptFormat := dfld (mk 1 0x0E80 [(16, 135), (17, 31), (18, 58), (20, 2049), (22, 2048), (24, 256), (26, 16), (27, 128), (29, 10), (30, 4), (32, 0x3F800000), (48, 0x3F800000), (56, 65536)]) 29 0 2, ptReduce := dfld (mk 1 0x0E80 [(16, 135), (17, 31), (18, 58), (20, 2049), (22, 2048), (24, 256), (26, 16), (27, 128), (29, 10), (30, 4), (32, 0x3F800000), (48, 0x3F800000), (56, 65536)]) 29 2 2, ptUnit := dfld (mk 1 0x0E80 [(16, 135), (17, 31), (18, 58), (20, 2049), (22, 2048), (24, 256), (26, 16), (27, 128), (29, 10), (30, 4), (32, 0x3F800000), (48, 0x3F800000), (56, 65536)]) 29 4 1, ptStride := dfld (mk 1 0x0E80 [(16, 135), (17, 31), (18, 58), (20, 2049), (22, 2048), (24, 256), (26, 16), (27, 128), (29, 10), (30, 4), (32, 0x3F800000), (48, 0x3F800000), (56, 65536)]) 30 0 16, g0 := dfld (mk 1 0x0E80 [(16, 135), (17, 31), (18, 58), (20, 2049), (22, 2048), (24, 256), (26, 16), (27, 128), (29, 10), (30, 4), (32, 0x3F800000), (48, 0x3F800000), (56, 65536)]) 32 0 32, x0 := dfld (mk 1 0x0E80 [(16, 135), (17, 31), (18, 58), (20, 2049), (22, 2048), (24, 256), (26, 16), (27, 128), (29, 10), (30, 4), (32, 0x3F800000), (48, 0x3F800000), (56, 65536)]) 36 0 32, y0 := dfld (mk 1 0x0E80 [(16, 135), (17, 31), (18, 58), (20, 2049), (22, 2048), (24, 256), (26, 16), (27, 128), (29, 10), (30, 4), (32, 0x3F800000), (48, 0x3F800000), (56, 65536)]) 40 0 32, z0 := dfld (mk 1 0x0E80 [(16, 135), (17, 31), (18, 58), (20, 2049), (22, 2048), (24, 256), (26, 16), (27, 128), (29, 10), (30, 4), (32, 0x3F800000), (48, 0x3F800000), (56, 65536)]) 44 0 32, dz := dfld (mk 1 0x0E80 [(16, 135), (17, 31), (18, 58), (20, 2049), (22, 2048), (24, 256), (26, 16), (27, 128), (29, 10), (30, 4), (32, 0x3F800000), (48, 0x3F800000), (56, 65536)]) 48 0 32, base := dfld (mk 1 0x0E80 [(16, 135), (17, 31), (18, 58), (20, 2049), (22, 2048), (24, 256), (26, 16), (27, 128), (29, 10), (30, 4), (32, 0x3F800000), (48, 0x3F800000), (56, 65536)]) 56 0 48, did := (mk 1 0x0E80 [(16, 135), (17, 31), (18, 58), (20, 2049), (22, 2048), (24, 256), (26, 16), (27, 128), (29, 10), (30, 4), (32, 0x3F800000), (48, 0x3F800000), (56, 65536)]).did, sources := (((w215).cfg.grids.find (7)).map (·.sources)).getD [], out := ((w215).cfg.grids.find (7)).bind (·.out) }, by decide +kernel⟩,
   ⟨w215, mk 1 0x0E80 [(16, 135), (17, 31), (18, 58), (20, 2048), (22, 2048), (24, 256), (26, 16), (27, 128), (29, 10), (30, 4), (32, 0x3F800000), (48, 0x3F800000), (56, 65536)], 7, { enable := dbit (mk 1 0x0E80 [(16, 135), (17, 31), (18, 58), (20, 2048), (22, 2048), (24, 256), (26, 16), (27, 128), (29, 10), (30, 4), (32, 0x3F800000), (48, 0x3F800000), (56, 65536)]) 16 7, guarded := false, cadence := dfld (mk 1 0x0E80 [(16, 135), (17, 31), (18, 58), (20, 2048), (22, 2048), (24, 256), (26, 16), (27, 128), (29, 10), (30, 4), (32, 0x3F800000), (48, 0x3F800000), (56, 65536)]) 17 0 5, format := dfld (mk 1 0x0E80 [(16, 135), (17, 31), (18, 58), (20, 2048), (22, 2048), (24, 256), (26, 16), (27, 128), (29, 10), (30, 4), (32, 0x3F800000), (48, 0x3F800000), (56, 65536)]) 18 0 2, reefMax := dfld (mk 1 0x0E80 [(16, 135), (17, 31), (18, 58), (20, 2048), (22, 2048), (24, 256), (26, 16), (27, 128), (29, 10), (30, 4), (32, 0x3F800000), (48, 0x3F800000), (56, 65536)]) 18 2 2, regionLog2 := dfld (mk 1 0x0E80 [(16, 135), (17, 31), (18, 58), (20, 2048), (22, 2048), (24, 256), (26, 16), (27, 128), (29, 10), (30, 4), (32, 0x3F800000), (48, 0x3F800000), (56, 65536)]) 18 4 3, w := dfld (mk 1 0x0E80 [(16, 135), (17, 31), (18, 58), (20, 2048), (22, 2048), (24, 256), (26, 16), (27, 128), (29, 10), (30, 4), (32, 0x3F800000), (48, 0x3F800000), (56, 65536)]) 20 0 12, h := dfld (mk 1 0x0E80 [(16, 135), (17, 31), (18, 58), (20, 2048), (22, 2048), (24, 256), (26, 16), (27, 128), (29, 10), (30, 4), (32, 0x3F800000), (48, 0x3F800000), (56, 65536)]) 22 0 12, c := dfld (mk 1 0x0E80 [(16, 135), (17, 31), (18, 58), (20, 2048), (22, 2048), (24, 256), (26, 16), (27, 128), (29, 10), (30, 4), (32, 0x3F800000), (48, 0x3F800000), (56, 65536)]) 24 0 9, bins := dfld (mk 1 0x0E80 [(16, 135), (17, 31), (18, 58), (20, 2048), (22, 2048), (24, 256), (26, 16), (27, 128), (29, 10), (30, 4), (32, 0x3F800000), (48, 0x3F800000), (56, 65536)]) 26 0 5, cf := dfld (mk 1 0x0E80 [(16, 135), (17, 31), (18, 58), (20, 2048), (22, 2048), (24, 256), (26, 16), (27, 128), (29, 10), (30, 4), (32, 0x3F800000), (48, 0x3F800000), (56, 65536)]) 27 0 8, cp := dfld (mk 1 0x0E80 [(16, 135), (17, 31), (18, 58), (20, 2048), (22, 2048), (24, 256), (26, 16), (27, 128), (29, 10), (30, 4), (32, 0x3F800000), (48, 0x3F800000), (56, 65536)]) 28 0 7, ptFormat := dfld (mk 1 0x0E80 [(16, 135), (17, 31), (18, 58), (20, 2048), (22, 2048), (24, 256), (26, 16), (27, 128), (29, 10), (30, 4), (32, 0x3F800000), (48, 0x3F800000), (56, 65536)]) 29 0 2, ptReduce := dfld (mk 1 0x0E80 [(16, 135), (17, 31), (18, 58), (20, 2048), (22, 2048), (24, 256), (26, 16), (27, 128), (29, 10), (30, 4), (32, 0x3F800000), (48, 0x3F800000), (56, 65536)]) 29 2 2, ptUnit := dfld (mk 1 0x0E80 [(16, 135), (17, 31), (18, 58), (20, 2048), (22, 2048), (24, 256), (26, 16), (27, 128), (29, 10), (30, 4), (32, 0x3F800000), (48, 0x3F800000), (56, 65536)]) 29 4 1, ptStride := dfld (mk 1 0x0E80 [(16, 135), (17, 31), (18, 58), (20, 2048), (22, 2048), (24, 256), (26, 16), (27, 128), (29, 10), (30, 4), (32, 0x3F800000), (48, 0x3F800000), (56, 65536)]) 30 0 16, g0 := dfld (mk 1 0x0E80 [(16, 135), (17, 31), (18, 58), (20, 2048), (22, 2048), (24, 256), (26, 16), (27, 128), (29, 10), (30, 4), (32, 0x3F800000), (48, 0x3F800000), (56, 65536)]) 32 0 32, x0 := dfld (mk 1 0x0E80 [(16, 135), (17, 31), (18, 58), (20, 2048), (22, 2048), (24, 256), (26, 16), (27, 128), (29, 10), (30, 4), (32, 0x3F800000), (48, 0x3F800000), (56, 65536)]) 36 0 32, y0 := dfld (mk 1 0x0E80 [(16, 135), (17, 31), (18, 58), (20, 2048), (22, 2048), (24, 256), (26, 16), (27, 128), (29, 10), (30, 4), (32, 0x3F800000), (48, 0x3F800000), (56, 65536)]) 40 0 32, z0 := dfld (mk 1 0x0E80 [(16, 135), (17, 31), (18, 58), (20, 2048), (22, 2048), (24, 256), (26, 16), (27, 128), (29, 10), (30, 4), (32, 0x3F800000), (48, 0x3F800000), (56, 65536)]) 44 0 32, dz := dfld (mk 1 0x0E80 [(16, 135), (17, 31), (18, 58), (20, 2048), (22, 2048), (24, 256), (26, 16), (27, 128), (29, 10), (30, 4), (32, 0x3F800000), (48, 0x3F800000), (56, 65536)]) 48 0 32, base := dfld (mk 1 0x0E80 [(16, 135), (17, 31), (18, 58), (20, 2048), (22, 2048), (24, 256), (26, 16), (27, 128), (29, 10), (30, 4), (32, 0x3F800000), (48, 0x3F800000), (56, 65536)]) 56 0 48, did := (mk 1 0x0E80 [(16, 135), (17, 31), (18, 58), (20, 2048), (22, 2048), (24, 256), (26, 16), (27, 128), (29, 10), (30, 4), (32, 0x3F800000), (48, 0x3F800000), (56, 65536)]).did, sources := (((w215).cfg.grids.find (7)).map (·.sources)).getD [], out := ((w215).cfg.grids.find (7)).bind (·.out) }, by decide +kernel⟩,
   ⟨w217, mk 1 0x0E81 [(16, 7), (17, 159), (18, 127), (56, 65536)], 7, dfld (mk 1 0x0E81 [(16, 7), (17, 159), (18, 127), (56, 65536)]) 18 0 7, dfld (mk 1 0x0E81 [(16, 7), (17, 159), (18, 127), (56, 65536)]) 17 0 5, { stream := (dfld (mk 1 0x0E81 [(16, 7), (17, 159), (18, 127), (56, 65536)]) 18 0 7), lift := dbit (mk 1 0x0E81 [(16, 7), (17, 159), (18, 127), (56, 65536)]) 19 0, stride := dfld (mk 1 0x0E81 [(16, 7), (17, 159), (18, 127), (56, 65536)]) 19 3 5, tolAbs := dfld (mk 1 0x0E81 [(16, 7), (17, 159), (18, 127), (56, 65536)]) 20 0 32, tolRel := dfld (mk 1 0x0E81 [(16, 7), (17, 159), (18, 127), (56, 65536)]) 24 0 32, fx := dfld (mk 1 0x0E81 [(16, 7), (17, 159), (18, 127), (56, 65536)]) 28 0 32, fy := dfld (mk 1 0x0E81 [(16, 7), (17, 159), (18, 127), (56, 65536)]) 32 0 32, cx := dfld (mk 1 0x0E81 [(16, 7), (17, 159), (18, 127), (56, 65536)]) 36 0 32, cy := dfld (mk 1 0x0E81 [(16, 7), (17, 159), (18, 127), (56, 65536)]) 40 0 32, k1 := dfld (mk 1 0x0E81 [(16, 7), (17, 159), (18, 127), (56, 65536)]) 44 0 32, k2 := dfld (mk 1 0x0E81 [(16, 7), (17, 159), (18, 127), (56, 65536)]) 48 0 32, wf := dfld (mk 1 0x0E81 [(16, 7), (17, 159), (18, 127), (56, 65536)]) 52 0 12, hf := dfld (mk 1 0x0E81 [(16, 7), (17, 159), (18, 127), (56, 65536)]) 54 0 12, base := dfld (mk 1 0x0E81 [(16, 7), (17, 159), (18, 127), (56, 65536)]) 56 0 48 }, by decide +kernel⟩,
   ⟨up, mk 1 0x0E81 [(16, 7), (17, 159), (18, 127), (56, 65536)], 7, dfld (mk 1 0x0E81 [(16, 7), (17, 159), (18, 127), (56, 65536)]) 18 0 7, dfld (mk 1 0x0E81 [(16, 7), (17, 159), (18, 127), (56, 65536)]) 17 0 5, { stream := (dfld (mk 1 0x0E81 [(16, 7), (17, 159), (18, 127), (56, 65536)]) 18 0 7), lift := dbit (mk 1 0x0E81 [(16, 7), (17, 159), (18, 127), (56, 65536)]) 19 0, stride := dfld (mk 1 0x0E81 [(16, 7), (17, 159), (18, 127), (56, 65536)]) 19 3 5, tolAbs := dfld (mk 1 0x0E81 [(16, 7), (17, 159), (18, 127), (56, 65536)]) 20 0 32, tolRel := dfld (mk 1 0x0E81 [(16, 7), (17, 159), (18, 127), (56, 65536)]) 24 0 32, fx := dfld (mk 1 0x0E81 [(16, 7), (17, 159), (18, 127), (56, 65536)]) 28 0 32, fy := dfld (mk 1 0x0E81 [(16, 7), (17, 159), (18, 127), (56, 65536)]) 32 0 32, cx := dfld (mk 1 0x0E81 [(16, 7), (17, 159), (18, 127), (56, 65536)]) 36 0 32, cy := dfld (mk 1 0x0E81 [(16, 7), (17, 159), (18, 127), (56, 65536)]) 40 0 32, k1 := dfld (mk 1 0x0E81 [(16, 7), (17, 159), (18, 127), (56, 65536)]) 44 0 32, k2 := dfld (mk 1 0x0E81 [(16, 7), (17, 159), (18, 127), (56, 65536)]) 48 0 32, wf := dfld (mk 1 0x0E81 [(16, 7), (17, 159), (18, 127), (56, 65536)]) 52 0 12, hf := dfld (mk 1 0x0E81 [(16, 7), (17, 159), (18, 127), (56, 65536)]) 54 0 12, base := dfld (mk 1 0x0E81 [(16, 7), (17, 159), (18, 127), (56, 65536)]) 56 0 48 }, by decide +kernel⟩,
   ⟨w215, mk 1 0x0E81 [(16, 7), (17, 31), (18, 127), (56, 65536)], 7, dfld (mk 1 0x0E81 [(16, 7), (17, 31), (18, 127), (56, 65536)]) 18 0 7, dfld (mk 1 0x0E81 [(16, 7), (17, 31), (18, 127), (56, 65536)]) 17 0 5, { stream := (dfld (mk 1 0x0E81 [(16, 7), (17, 31), (18, 127), (56, 65536)]) 18 0 7), lift := dbit (mk 1 0x0E81 [(16, 7), (17, 31), (18, 127), (56, 65536)]) 19 0, stride := dfld (mk 1 0x0E81 [(16, 7), (17, 31), (18, 127), (56, 65536)]) 19 3 5, tolAbs := dfld (mk 1 0x0E81 [(16, 7), (17, 31), (18, 127), (56, 65536)]) 20 0 32, tolRel := dfld (mk 1 0x0E81 [(16, 7), (17, 31), (18, 127), (56, 65536)]) 24 0 32, fx := dfld (mk 1 0x0E81 [(16, 7), (17, 31), (18, 127), (56, 65536)]) 28 0 32, fy := dfld (mk 1 0x0E81 [(16, 7), (17, 31), (18, 127), (56, 65536)]) 32 0 32, cx := dfld (mk 1 0x0E81 [(16, 7), (17, 31), (18, 127), (56, 65536)]) 36 0 32, cy := dfld (mk 1 0x0E81 [(16, 7), (17, 31), (18, 127), (56, 65536)]) 40 0 32, k1 := dfld (mk 1 0x0E81 [(16, 7), (17, 31), (18, 127), (56, 65536)]) 44 0 32, k2 := dfld (mk 1 0x0E81 [(16, 7), (17, 31), (18, 127), (56, 65536)]) 48 0 32, wf := dfld (mk 1 0x0E81 [(16, 7), (17, 31), (18, 127), (56, 65536)]) 52 0 12, hf := dfld (mk 1 0x0E81 [(16, 7), (17, 31), (18, 127), (56, 65536)]) 54 0 12, base := dfld (mk 1 0x0E81 [(16, 7), (17, 31), (18, 127), (56, 65536)]) 56 0 48 }, grid0, by decide +kernel⟩,
   ⟨w218, mk 1 0x0E81 [(16, 7), (17, 159), (18, 127), (56, 65536)], 7, dfld (mk 1 0x0E81 [(16, 7), (17, 159), (18, 127), (56, 65536)]) 18 0 7, dfld (mk 1 0x0E81 [(16, 7), (17, 159), (18, 127), (56, 65536)]) 17 0 5, { stream := (dfld (mk 1 0x0E81 [(16, 7), (17, 159), (18, 127), (56, 65536)]) 18 0 7), lift := dbit (mk 1 0x0E81 [(16, 7), (17, 159), (18, 127), (56, 65536)]) 19 0, stride := dfld (mk 1 0x0E81 [(16, 7), (17, 159), (18, 127), (56, 65536)]) 19 3 5, tolAbs := dfld (mk 1 0x0E81 [(16, 7), (17, 159), (18, 127), (56, 65536)]) 20 0 32, tolRel := dfld (mk 1 0x0E81 [(16, 7), (17, 159), (18, 127), (56, 65536)]) 24 0 32, fx := dfld (mk 1 0x0E81 [(16, 7), (17, 159), (18, 127), (56, 65536)]) 28 0 32, fy := dfld (mk 1 0x0E81 [(16, 7), (17, 159), (18, 127), (56, 65536)]) 32 0 32, cx := dfld (mk 1 0x0E81 [(16, 7), (17, 159), (18, 127), (56, 65536)]) 36 0 32, cy := dfld (mk 1 0x0E81 [(16, 7), (17, 159), (18, 127), (56, 65536)]) 40 0 32, k1 := dfld (mk 1 0x0E81 [(16, 7), (17, 159), (18, 127), (56, 65536)]) 44 0 32, k2 := dfld (mk 1 0x0E81 [(16, 7), (17, 159), (18, 127), (56, 65536)]) 48 0 32, wf := dfld (mk 1 0x0E81 [(16, 7), (17, 159), (18, 127), (56, 65536)]) 52 0 12, hf := dfld (mk 1 0x0E81 [(16, 7), (17, 159), (18, 127), (56, 65536)]) 54 0 12, base := dfld (mk 1 0x0E81 [(16, 7), (17, 159), (18, 127), (56, 65536)]) 56 0 48 }, grid0, { sc kindCamera 31 with mount := some (15, 1, 8191) }, by decide +kernel⟩,
   ⟨w215, mk 1 0x0E81 [(16, 7), (17, 159), (18, 127), (56, 65536)], 7, dfld (mk 1 0x0E81 [(16, 7), (17, 159), (18, 127), (56, 65536)]) 18 0 7, dfld (mk 1 0x0E81 [(16, 7), (17, 159), (18, 127), (56, 65536)]) 17 0 5, { stream := (dfld (mk 1 0x0E81 [(16, 7), (17, 159), (18, 127), (56, 65536)]) 18 0 7), lift := dbit (mk 1 0x0E81 [(16, 7), (17, 159), (18, 127), (56, 65536)]) 19 0, stride := dfld (mk 1 0x0E81 [(16, 7), (17, 159), (18, 127), (56, 65536)]) 19 3 5, tolAbs := dfld (mk 1 0x0E81 [(16, 7), (17, 159), (18, 127), (56, 65536)]) 20 0 32, tolRel := dfld (mk 1 0x0E81 [(16, 7), (17, 159), (18, 127), (56, 65536)]) 24 0 32, fx := dfld (mk 1 0x0E81 [(16, 7), (17, 159), (18, 127), (56, 65536)]) 28 0 32, fy := dfld (mk 1 0x0E81 [(16, 7), (17, 159), (18, 127), (56, 65536)]) 32 0 32, cx := dfld (mk 1 0x0E81 [(16, 7), (17, 159), (18, 127), (56, 65536)]) 36 0 32, cy := dfld (mk 1 0x0E81 [(16, 7), (17, 159), (18, 127), (56, 65536)]) 40 0 32, k1 := dfld (mk 1 0x0E81 [(16, 7), (17, 159), (18, 127), (56, 65536)]) 44 0 32, k2 := dfld (mk 1 0x0E81 [(16, 7), (17, 159), (18, 127), (56, 65536)]) 48 0 32, wf := dfld (mk 1 0x0E81 [(16, 7), (17, 159), (18, 127), (56, 65536)]) 52 0 12, hf := dfld (mk 1 0x0E81 [(16, 7), (17, 159), (18, 127), (56, 65536)]) 54 0 12, base := dfld (mk 1 0x0E81 [(16, 7), (17, 159), (18, 127), (56, 65536)]) 56 0 48 }, grid0, by decide +kernel, by decide +kernel, by decide +kernel, by decide +kernel, by decide +kernel, by decide +kernel, by decide +kernel, by decide +kernel, (.inl (by decide +kernel))⟩,
   ⟨w217, mk 1 0x0E82 [(16, 7), (17, 8), (18, 2), (20, 3), (22, 1), (24, 5), (32, 65536)], 7, { slots := dfld (mk 1 0x0E82 [(16, 7), (17, 8), (18, 2), (20, 3), (22, 1), (24, 5), (32, 65536)]) 17 0 4, format := dfld (mk 1 0x0E82 [(16, 7), (17, 8), (18, 2), (20, 3), (22, 1), (24, 5), (32, 65536)]) 18 0 2, first := dfld (mk 1 0x0E82 [(16, 7), (17, 8), (18, 2), (20, 3), (22, 1), (24, 5), (32, 65536)]) 20 0 9, count := dfld (mk 1 0x0E82 [(16, 7), (17, 8), (18, 2), (20, 3), (22, 1), (24, 5), (32, 65536)]) 22 0 9, fill := dfld (mk 1 0x0E82 [(16, 7), (17, 8), (18, 2), (20, 3), (22, 1), (24, 5), (32, 65536)]) 24 0 32, base := dfld (mk 1 0x0E82 [(16, 7), (17, 8), (18, 2), (20, 3), (22, 1), (24, 5), (32, 65536)]) 32 0 48, did := (mk 1 0x0E82 [(16, 7), (17, 8), (18, 2), (20, 3), (22, 1), (24, 5), (32, 65536)]).did }, by decide +kernel⟩,
   ⟨up, mk 1 0x0E82 [(16, 7), (17, 8), (18, 2), (20, 3), (22, 1), (24, 5), (32, 65536)], 7, { slots := dfld (mk 1 0x0E82 [(16, 7), (17, 8), (18, 2), (20, 3), (22, 1), (24, 5), (32, 65536)]) 17 0 4, format := dfld (mk 1 0x0E82 [(16, 7), (17, 8), (18, 2), (20, 3), (22, 1), (24, 5), (32, 65536)]) 18 0 2, first := dfld (mk 1 0x0E82 [(16, 7), (17, 8), (18, 2), (20, 3), (22, 1), (24, 5), (32, 65536)]) 20 0 9, count := dfld (mk 1 0x0E82 [(16, 7), (17, 8), (18, 2), (20, 3), (22, 1), (24, 5), (32, 65536)]) 22 0 9, fill := dfld (mk 1 0x0E82 [(16, 7), (17, 8), (18, 2), (20, 3), (22, 1), (24, 5), (32, 65536)]) 24 0 32, base := dfld (mk 1 0x0E82 [(16, 7), (17, 8), (18, 2), (20, 3), (22, 1), (24, 5), (32, 65536)]) 32 0 48, did := (mk 1 0x0E82 [(16, 7), (17, 8), (18, 2), (20, 3), (22, 1), (24, 5), (32, 65536)]).did }, by decide +kernel⟩,
   ⟨w215, mk 1 0x0E82 [(16, 7), (17, 8), (18, 2), (20, 3), (22, 1), (24, 5), (32, 65536)], 7, { slots := dfld (mk 1 0x0E82 [(16, 7), (17, 8), (18, 2), (20, 3), (22, 1), (24, 5), (32, 65536)]) 17 0 4, format := dfld (mk 1 0x0E82 [(16, 7), (17, 8), (18, 2), (20, 3), (22, 1), (24, 5), (32, 65536)]) 18 0 2, first := dfld (mk 1 0x0E82 [(16, 7), (17, 8), (18, 2), (20, 3), (22, 1), (24, 5), (32, 65536)]) 20 0 9, count := dfld (mk 1 0x0E82 [(16, 7), (17, 8), (18, 2), (20, 3), (22, 1), (24, 5), (32, 65536)]) 22 0 9, fill := dfld (mk 1 0x0E82 [(16, 7), (17, 8), (18, 2), (20, 3), (22, 1), (24, 5), (32, 65536)]) 24 0 32, base := dfld (mk 1 0x0E82 [(16, 7), (17, 8), (18, 2), (20, 3), (22, 1), (24, 5), (32, 65536)]) 32 0 48, did := (mk 1 0x0E82 [(16, 7), (17, 8), (18, 2), (20, 3), (22, 1), (24, 5), (32, 65536)]).did }, grid0, by decide +kernel⟩,
   ⟨w215, mk 1 0x0E82 [(16, 7), (17, 9), (18, 2), (20, 3), (22, 1), (24, 5), (32, 65536)], 7, { slots := dfld (mk 1 0x0E82 [(16, 7), (17, 9), (18, 2), (20, 3), (22, 1), (24, 5), (32, 65536)]) 17 0 4, format := dfld (mk 1 0x0E82 [(16, 7), (17, 9), (18, 2), (20, 3), (22, 1), (24, 5), (32, 65536)]) 18 0 2, first := dfld (mk 1 0x0E82 [(16, 7), (17, 9), (18, 2), (20, 3), (22, 1), (24, 5), (32, 65536)]) 20 0 9, count := dfld (mk 1 0x0E82 [(16, 7), (17, 9), (18, 2), (20, 3), (22, 1), (24, 5), (32, 65536)]) 22 0 9, fill := dfld (mk 1 0x0E82 [(16, 7), (17, 9), (18, 2), (20, 3), (22, 1), (24, 5), (32, 65536)]) 24 0 32, base := dfld (mk 1 0x0E82 [(16, 7), (17, 9), (18, 2), (20, 3), (22, 1), (24, 5), (32, 65536)]) 32 0 48, did := (mk 1 0x0E82 [(16, 7), (17, 9), (18, 2), (20, 3), (22, 1), (24, 5), (32, 65536)]).did }, grid0, by decide +kernel⟩,
   ⟨w219, mk 1 0x0E83 [(16, 4095), (18, 135), (20, 1), (22, 2), (24, 3), (26, 4), (28, 5)], dfld (mk 1 0x0E83 [(16, 4095), (18, 135), (20, 1), (22, 2), (24, 3), (26, 4), (28, 5)]) 16 0 3, 4095, dfld (mk 1 0x0E83 [(16, 4095), (18, 135), (20, 1), (22, 2), (24, 3), (26, 4), (28, 5)]) 18 0 3, { grid := (dfld (mk 1 0x0E83 [(16, 4095), (18, 135), (20, 1), (22, 2), (24, 3), (26, 4), (28, 5)]) 18 0 3), required := dbit (mk 1 0x0E83 [(16, 4095), (18, 135), (20, 1), (22, 2), (24, 3), (26, 4), (28, 5)]) 18 7, col0 := dfld (mk 1 0x0E83 [(16, 4095), (18, 135), (20, 1), (22, 2), (24, 3), (26, 4), (28, 5)]) 20 0 8, row0 := dfld (mk 1 0x0E83 [(16, 4095), (18, 135), (20, 1), (22, 2), (24, 3), (26, 4), (28, 5)]) 22 0 8, col1 := dfld (mk 1 0x0E83 [(16, 4095), (18, 135), (20, 1), (22, 2), (24, 3), (26, 4), (28, 5)]) 24 0 8, row1 := dfld (mk 1 0x0E83 [(16, 4095), (18, 135), (20, 1), (22, 2), (24, 3), (26, 4), (28, 5)]) 26 0 8, unseenMax := dfld (mk 1 0x0E83 [(16, 4095), (18, 135), (20, 1), (22, 2), (24, 3), (26, 4), (28, 5)]) 28 0 32 }, { guarded := true, cadence := 31, enable := true, grid := none, cring := none }, by decide +kernel⟩,
   ⟨w220, mk 1 0x0E83 [(16, 4095), (18, 135), (20, 1), (22, 2), (24, 3), (26, 4), (28, 5)], dfld (mk 1 0x0E83 [(16, 4095), (18, 135), (20, 1), (22, 2), (24, 3), (26, 4), (28, 5)]) 16 0 3, 4095, dfld (mk 1 0x0E83 [(16, 4095), (18, 135), (20, 1), (22, 2), (24, 3), (26, 4), (28, 5)]) 18 0 3, { grid := (dfld (mk 1 0x0E83 [(16, 4095), (18, 135), (20, 1), (22, 2), (24, 3), (26, 4), (28, 5)]) 18 0 3), required := dbit (mk 1 0x0E83 [(16, 4095), (18, 135), (20, 1), (22, 2), (24, 3), (26, 4), (28, 5)]) 18 7, col0 := dfld (mk 1 0x0E83 [(16, 4095), (18, 135), (20, 1), (22, 2), (24, 3), (26, 4), (28, 5)]) 20 0 8, row0 := dfld (mk 1 0x0E83 [(16, 4095), (18, 135), (20, 1), (22, 2), (24, 3), (26, 4), (28, 5)]) 22 0 8, col1 := dfld (mk 1 0x0E83 [(16, 4095), (18, 135), (20, 1), (22, 2), (24, 3), (26, 4), (28, 5)]) 24 0 8, row1 := dfld (mk 1 0x0E83 [(16, 4095), (18, 135), (20, 1), (22, 2), (24, 3), (26, 4), (28, 5)]) 26 0 8, unseenMax := dfld (mk 1 0x0E83 [(16, 4095), (18, 135), (20, 1), (22, 2), (24, 3), (26, 4), (28, 5)]) 28 0 32 }, { guarded := false, cadence := 31, enable := true, grid := none, cring := none }, by decide +kernel⟩,
   ⟨w110, mk 1 0x0E83 [(16, 4095), (18, 135), (20, 1), (22, 2), (24, 3), (26, 4), (28, 5)], dfld (mk 1 0x0E83 [(16, 4095), (18, 135), (20, 1), (22, 2), (24, 3), (26, 4), (28, 5)]) 16 0 3, 4095, dfld (mk 1 0x0E83 [(16, 4095), (18, 135), (20, 1), (22, 2), (24, 3), (26, 4), (28, 5)]) 18 0 3, { grid := (dfld (mk 1 0x0E83 [(16, 4095), (18, 135), (20, 1), (22, 2), (24, 3), (26, 4), (28, 5)]) 18 0 3), required := dbit (mk 1 0x0E83 [(16, 4095), (18, 135), (20, 1), (22, 2), (24, 3), (26, 4), (28, 5)]) 18 7, col0 := dfld (mk 1 0x0E83 [(16, 4095), (18, 135), (20, 1), (22, 2), (24, 3), (26, 4), (28, 5)]) 20 0 8, row0 := dfld (mk 1 0x0E83 [(16, 4095), (18, 135), (20, 1), (22, 2), (24, 3), (26, 4), (28, 5)]) 22 0 8, col1 := dfld (mk 1 0x0E83 [(16, 4095), (18, 135), (20, 1), (22, 2), (24, 3), (26, 4), (28, 5)]) 24 0 8, row1 := dfld (mk 1 0x0E83 [(16, 4095), (18, 135), (20, 1), (22, 2), (24, 3), (26, 4), (28, 5)]) 26 0 8, unseenMax := dfld (mk 1 0x0E83 [(16, 4095), (18, 135), (20, 1), (22, 2), (24, 3), (26, 4), (28, 5)]) 28 0 32 }, { guarded := false, cadence := 31, enable := true, grid := none, cring := none }, by decide +kernel⟩,
   ⟨w215, mk 1 0x0E83 [(16, 4095), (18, 135), (20, 1), (22, 2), (24, 3), (26, 4), (28, 5)], dfld (mk 1 0x0E83 [(16, 4095), (18, 135), (20, 1), (22, 2), (24, 3), (26, 4), (28, 5)]) 16 0 3, 4095, dfld (mk 1 0x0E83 [(16, 4095), (18, 135), (20, 1), (22, 2), (24, 3), (26, 4), (28, 5)]) 18 0 3, { grid := (dfld (mk 1 0x0E83 [(16, 4095), (18, 135), (20, 1), (22, 2), (24, 3), (26, 4), (28, 5)]) 18 0 3), required := dbit (mk 1 0x0E83 [(16, 4095), (18, 135), (20, 1), (22, 2), (24, 3), (26, 4), (28, 5)]) 18 7, col0 := dfld (mk 1 0x0E83 [(16, 4095), (18, 135), (20, 1), (22, 2), (24, 3), (26, 4), (28, 5)]) 20 0 8, row0 := dfld (mk 1 0x0E83 [(16, 4095), (18, 135), (20, 1), (22, 2), (24, 3), (26, 4), (28, 5)]) 22 0 8, col1 := dfld (mk 1 0x0E83 [(16, 4095), (18, 135), (20, 1), (22, 2), (24, 3), (26, 4), (28, 5)]) 24 0 8, row1 := dfld (mk 1 0x0E83 [(16, 4095), (18, 135), (20, 1), (22, 2), (24, 3), (26, 4), (28, 5)]) 26 0 8, unseenMax := dfld (mk 1 0x0E83 [(16, 4095), (18, 135), (20, 1), (22, 2), (24, 3), (26, 4), (28, 5)]) 28 0 32 }, by decide +kernel⟩,
   ⟨w217, mk 1 0x0E84 [(16, 7)], 7, by decide +kernel⟩,
   ⟨w221, mk 1 0x0E84 [(16, 7)], 7, by decide +kernel⟩,
   ⟨up, mk 1 0x0E84 [(16, 7)], 7, by decide +kernel⟩,
   ⟨w215, mk 1 0x0E84 [(16, 7)], 7, by decide +kernel⟩,
   ⟨w215, mk 1 0x0E84 [(16, 7)], 7, by decide +kernel⟩,
   ⟨w222, mk 1 0x0E84 [(16, 7)], 7, 7, { ep 31 5 with cfg := { up.cfg with grids := [(7, grid0)] } }, grid0, by decide +kernel⟩,
   ⟨w223, mk 1 0x0E84 [(16, 7)], 7, 7, 5, 5, 0, { ep 31 5 with cfg := { up.cfg with grids := [(7, grid0)] } }, grid0, by decide +kernel⟩⟩

theorem test_witness_ProgramsTasksInstances :
    (∃ (s : State) (d : Desc) (k : _) (va : _) (st : _) (h : _) (u : _), (k = dfld d 16 0 10) ∧ (va = dfld d 24 0 64) ∧ (Accepted s d (infoEngProgLoad s d)) ∧ (devRead (markStarted s d) (progWho d) va 128 = (st, h, u)) ∧ (st ≠ stOk)) ∧
    (∃ (s : State) (d : Desc) (k : _) (va : _) (st : _) (h : _) (u : _), (k = dfld d 16 0 10) ∧ (va = dfld d 24 0 64) ∧ (Accepted s d (infoEngProgLoad s d)) ∧ (devRead (markStarted s d) (progWho d) va 128 = (st, h, u)) ∧ (st = stOk) ∧ (progHeaderOk h = false)) ∧
    (∃ (s : State) (d : Desc) (k : _) (va : _) (st : _) (h : _) (u : _) (st2 : _) (c : List Byte) (v : _), (k = dfld d 16 0 10) ∧ (va = dfld d 24 0 64) ∧ (Accepted s d (infoEngProgLoad s d)) ∧ (devRead (markStarted s d) (progWho d) va 128 = (st, h, u)) ∧ (st = stOk) ∧ (progHeaderOk h = true) ∧ (devRead u (progWho d) (va + 128) (ofLe ((h.drop 4).take 4)) = (st2, c, v)) ∧ (st2 ≠ stOk)) ∧
    (∃ (s : State) (d : Desc) (k : _) (va : _) (st : _) (h : _) (u : _) (st2 : _) (c : List Byte) (v : _), (k = dfld d 16 0 10) ∧ (va = dfld d 24 0 64) ∧ (Accepted s d (infoEngProgLoad s d)) ∧ (devRead (markStarted s d) (progWho d) va 128 = (st, h, u)) ∧ (st = stOk) ∧ (progHeaderOk h = true) ∧ (devRead u (progWho d) (va + 128) (ofLe ((h.drop 4).take 4)) = (st2, c, v)) ∧ (st2 = stOk) ∧ (crc32c c ≠ ofLe ((h.drop 8).take 4))) ∧
    (∃ (s : State) (d : Desc) (k : _) (va : _) (st : _) (h : _) (u : _) (st2 : _) (c : List Byte) (v : _), (k = dfld d 16 0 10) ∧ (va = dfld d 24 0 64) ∧ (Accepted s d (infoEngProgLoad s d)) ∧ (devRead (markStarted s d) (progWho d) va 128 = (st, h, u)) ∧ (st = stOk) ∧ (progHeaderOk h = true) ∧ (devRead u (progWho d) (va + 128) (ofLe ((h.drop 4).take 4)) = (st2, c, v)) ∧ (st2 = stOk) ∧ (crc32c c = ofLe ((h.drop 8).take 4)) ∧ (dGuarded d = false) ∧ (s.eng.programs.find k = none)) ∧
    (∃ (s : State) (d : Desc) (k : _) (va : _) (st : _) (h : _) (u : _) (st2 : _) (c : List Byte) (v : _), (k = dfld d 16 0 10) ∧ (va = dfld d 24 0 64) ∧ (Accepted s d (infoEngProgLoad s d)) ∧ (devRead (markStarted s d) (progWho d) va 128 = (st, h, u)) ∧ (st = stOk) ∧ (progHeaderOk h = true) ∧ (devRead u (progWho d) (va + 128) (ofLe ((h.drop 4).take 4)) = (st2, c, v)) ∧ (st2 = stOk) ∧ (crc32c c = ofLe ((h.drop 8).take 4)) ∧ (dGuarded d = false) ∧ (s.eng.programs.find k ≠ none)) ∧
    (∃ (s : State) (d : Desc) (k : _), (k = dfld d 16 0 10) ∧ (Accepted s d (infoEngProgFree s d)) ∧ (s.eng.programs.find k = none)) ∧
    (∃ (s : State) (d : Desc) (k : _), (k = dfld d 16 0 10) ∧ (Accepted s d (infoEngProgFree s d)) ∧ (s.eng.programs.find k ≠ none) ∧ (programNamed s k = true)) ∧
    (∃ (s : State) (d : Desc) (k : _), (k = dfld d 16 0 10) ∧ (Accepted s d (infoEngProgFree s d)) ∧ (s.eng.programs.find k ≠ none) ∧ (programNamed s k = false)) ∧
    (∃ (s : State) (d : Desc), (Accepted s d (infoEngTask s d)) ∧ (taskOk s (taskBody d) = false)) ∧
    (∃ (s : State) (d : Desc), (Accepted s d (infoEngTask s d)) ∧ (taskOk s (taskBody d) = true)) ∧
    (∃ (s : State) (d : Desc) (b : _), (b = taskBody d) ∧ (Accepted s d (infoEngTaskBind s d)) ∧ (s.cfg.flows.find b.flow ≠ none) ∧ (taskOk s b = true) ∧ (b.stage ≠ 7) ∧ (s.cfg.tasks.find b.handle = none)) ∧
    (∃ (s : State) (d : Desc) (b : _), (b = taskBody d) ∧ (Accepted s d (infoEngTaskBind s d)) ∧ (s.cfg.flows.find b.flow = none ∨ b.stage = 7 ∨ s.cfg.tasks.find b.handle ≠ none ∨ taskOk s b = false)) ∧
    (∃ (s : State) (d : Desc) (h : _), (h = dfld d 56 0 12) ∧ (Accepted s d (infoEngTaskUnbind s d)) ∧ (s.cfg.tasks.find h = none)) ∧
    (∃ (s : State) (d : Desc) (h : _), (h = dfld d 56 0 12) ∧ (Accepted s d (infoEngTaskUnbind s d)) ∧ (s.cfg.tasks.find h ≠ none)) ∧
    (∃ (s : State), (s.epochs = [])) ∧
    (∃ (s : State) (h : _) (e : _) (b : _), (s.epochs.find? (taskReady s h) = some e) ∧ (e.cfg.tasks.find h = some b)) ∧
    (∃ (s : State) (id : _), (s.eng.instances.find id = none)) ∧
    (∃ (s : State) (id : _) (i : _) (r : _), (s.eng.instances.find id = some i) ∧ (i.active = true) ∧ (i.threads = []) ∧ (i.kept = none) ∧ (i.status = stOk) ∧ (s.eng.runs.find i.run = some r) ∧ ((∀ x st, (r.ended.put x st).length < r.body.instances))) ∧
    (∃ (s : State), (s.eng.runs = [])) ∧
    (∃ (s : State) (rid : _) (r : _) (p : _) (x : _) (idx : _), (s.eng.runs = [(rid, r)]) ∧ (r.waiting = [idx]) ∧ (s.eng.programs.find r.body.program = some p) ∧ (r.bound = none) ∧ (r.again = []) ∧ (chooseSpot s rid r p = some x) ∧ ((engineOf s x.engine).resident.any (fun y => y.handle == r.body.program) = true)) :=
  ⟨⟨up, mk 1 0x4000 [(16, 1023), (24, 0)], 1023, 0, (devRead (markStarted (up) (mk 1 0x4000 [(16, 1023), (24, 0)])) (progWho (mk 1 0x4000 [(16, 1023), (24, 0)])) 0 128).1, (devRead (markStarted (up) (mk 1 0x4000 [(16, 1023), (24, 0)])) (progWho (mk 1 0x4000 [(16, 1023), (24, 0)])) 0 128).2.1, (devRead (markStarted (up) (mk 1 0x4000 [(16, 1023), (24, 0)])) (progWho (mk 1 0x4000 [(16, 1023), (24, 0)])) 0 128).2.2, by decide +kernel, by decide +kernel, by decide +kernel, rfl, by decide +kernel⟩,
   ⟨upm, mk 1 0x4000 [(16, 1023), (24, 0)], 1023, 0, (devRead (markStarted (upm) (mk 1 0x4000 [(16, 1023), (24, 0)])) (progWho (mk 1 0x4000 [(16, 1023), (24, 0)])) 0 128).1, (devRead (markStarted (upm) (mk 1 0x4000 [(16, 1023), (24, 0)])) (progWho (mk 1 0x4000 [(16, 1023), (24, 0)])) 0 128).2.1, (devRead (markStarted (upm) (mk 1 0x4000 [(16, 1023), (24, 0)])) (progWho (mk 1 0x4000 [(16, 1023), (24, 0)])) 0 128).2.2, by decide +kernel, by decide +kernel, by decide +kernel, rfl, by decide +kernel, by decide +kernel⟩,
   ⟨w5, mk 1 0x4000 [(16, 1023), (24, 65408)], 1023, 65408, (devRead (markStarted (w5) (mk 1 0x4000 [(16, 1023), (24, 65408)])) (progWho (mk 1 0x4000 [(16, 1023), (24, 65408)])) 65408 128).1, (devRead (markStarted (w5) (mk 1 0x4000 [(16, 1023), (24, 65408)])) (progWho (mk 1 0x4000 [(16, 1023), (24, 65408)])) 65408 128).2.1, (devRead (markStarted (w5) (mk 1 0x4000 [(16, 1023), (24, 65408)])) (progWho (mk 1 0x4000 [(16, 1023), (24, 65408)])) 65408 128).2.2, (devRead ((devRead (markStarted (w5) (mk 1 0x4000 [(16, 1023), (24, 65408)])) (progWho (mk 1 0x4000 [(16, 1023), (24, 65408)])) 65408 128).2.2) (progWho (mk 1 0x4000 [(16, 1023), (24, 65408)])) 65536 64).1, (devRead ((devRead (markStarted (w5) (mk 1 0x4000 [(16, 1023), (24, 65408)])) (progWho (mk 1 0x4000 [(16, 1023), (24, 65408)])) 65408 128).2.2) (progWho (mk 1 0x4000 [(16, 1023), (24, 65408)])) 65536 64).2.1, (devRead ((devRead (markStarted (w5) (mk 1 0x4000 [(16, 1023), (24, 65408)])) (progWho (mk 1 0x4000 [(16, 1023), (24, 65408)])) 65408 128).2.2) (progWho (mk 1 0x4000 [(16, 1023), (24, 65408)])) 65536 64).2.2, by decide +kernel, by decide +kernel, by decide +kernel, rfl, by decide +kernel, by decide +kernel, rfl, by decide +kernel⟩,
   ⟨w6, mk 1 0x4000 [(16, 1023), (24, 0)], 1023, 0, (devRead (markStarted (w6) (mk 1 0x4000 [(16, 1023), (24, 0)])) (progWho (mk 1 0x4000 [(16, 1023), (24, 0)])) 0 128).1, (devRead (markStarted (w6) (mk 1 0x4000 [(16, 1023), (24, 0)])) (progWho (mk 1 0x4000 [(16, 1023), (24, 0)])) 0 128).2.1, (devRead (markStarted (w6) (mk 1 0x4000 [(16, 1023), (24, 0)])) (progWho (mk 1 0x4000 [(16, 1023), (24, 0)])) 0 128).2.2, (devRead ((devRead (markStarted (w6) (mk 1 0x4000 [(16, 1023), (24, 0)])) (progWho (mk 1 0x4000 [(16, 1023), (24, 0)])) 0 128).2.2) (progWho (mk 1 0x4000 [(16, 1023), (24, 0)])) 128 64).1, (devRead ((devRead (markStarted (w6) (mk 1 0x4000 [(16, 1023), (24, 0)])) (progWho (mk 1 0x4000 [(16, 1023), (24, 0)])) 0 128).2.2) (progWho (mk 1 0x4000 [(16, 1023), (24, 0)])) 128 64).2.1, (devRead ((devRead (markStarted (w6) (mk 1 0x4000 [(16, 1023), (24, 0)])) (progWho (mk 1 0x4000 [(16, 1023), (24, 0)])) 0 128).2.2) (progWho (mk 1 0x4000 [(16, 1023), (24, 0)])) 128 64).2.2, by decide +kernel, by decide +kernel, by decide +kernel, rfl, by decide +kernel, by decide +kernel, rfl, by decide +kernel, by decide +kernel⟩,
   ⟨w7, mk 1 0x4000 [(16, 1023), (24, 0)], 1023, 0, (devRead (markStarted (w7) (mk 1 0x4000 [(16, 1023), (24, 0)])) (progWho (mk 1 0x4000 [(16, 1023), (24, 0)])) 0 128).1, (devRead (markStarted (w7) (mk 1 0x4000 [(16, 1023), (24, 0)])) (progWho (mk 1 0x4000 [(16, 1023), (24, 0)])) 0 128).2.1, (devRead (markStarted (w7) (mk 1 0x4000 [(16, 1023), (24, 0)])) (progWho (mk 1 0x4000 [(16, 1023), (24, 0)])) 0 128).2.2, (devRead ((devRead (markStarted (w7) (mk 1 0x4000 [(16, 1023), (24, 0)])) (progWho (mk 1 0x4000 [(16, 1023), (24, 0)])) 0 128).2.2) (progWho (mk 1 0x4000 [(16, 1023), (24, 0)])) 128 64).1, (devRead ((devRead (markStarted (w7) (mk 1 0x4000 [(16, 1023), (24, 0)])) (progWho (mk 1 0x4000 [(16, 1023), (24, 0)])) 0 128).2.2) (progWho (mk 1 0x4000 [(16, 1023), (24, 0)])) 128 64).2.1, (devRead ((devRead (markStarted (w7) (mk 1 0x4000 [(16, 1023), (24, 0)])) (progWho (mk 1 0x4000 [(16, 1023), (24, 0)])) 0 128).2.2) (progWho (mk 1 0x4000 [(16, 1023), (24, 0)])) 128 64).2.2, by decide +kernel, by decide +kernel, by decide +kernel, rfl, by decide +kernel, by decide +kernel, rfl, by decide +kernel, by decide +kernel, by decide +kernel, by decide +kernel⟩,
   ⟨w8, mk 1 0x4000 [(16, 1023), (24, 0)], 1023, 0, (devRead (markStarted (w8) (mk 1 0x4000 [(16, 1023), (24, 0)])) (progWho (mk 1 0x4000 [(16, 1023), (24, 0)])) 0 128).1, (devRead (markStarted (w8) (mk 1 0x4000 [(16, 1023), (24, 0)])) (progWho (mk 1 0x4000 [(16, 1023), (24, 0)])) 0 128).2.1, (devRead (markStarted (w8) (mk 1 0x4000 [(16, 1023), (24, 0)])) (progWho (mk 1 0x4000 [(16, 1023), (24, 0)])) 0 128).2.2, (devRead ((devRead (markStarted (w8) (mk 1 0x4000 [(16, 1023), (24, 0)])) (progWho (mk 1 0x4000 [(16, 1023), (24, 0)])) 0 128).2.2) (progWho (mk 1 0x4000 [(16, 1023), (24, 0)])) 128 64).1, (devRead ((devRead (markStarted (w8) (mk 1 0x4000 [(16, 1023), (24, 0)])) (progWho (mk 1 0x4000 [(16, 1023), (24, 0)])) 0 128).2.2) (progWho (mk 1 0x4000 [(16, 1023), (24, 0)])) 128 64).2.1, (devRead ((devRead (markStarted (w8) (mk 1 0x4000 [(16, 1023), (24, 0)])) (progWho (mk 1 0x4000 [(16, 1023), (24, 0)])) 0 128).2.2) (progWho (mk 1 0x4000 [(16, 1023), (24, 0)])) 128 64).2.2, by decide +kernel, by decide +kernel, by decide +kernel, rfl, by decide +kernel, by decide +kernel, rfl, by decide +kernel, by decide +kernel, by decide +kernel, by decide +kernel⟩,
   ⟨up, mk 1 0x4001 [(16, 5)], 5, by decide +kernel⟩,
   ⟨w224, mk 1 0x4001 [(16, 5)], 5, by decide +kernel⟩,
   ⟨w225, mk 1 0x4001 [(16, 5)], 5, by decide +kernel⟩,
   ⟨w225, mk 1 0x4002 [(16, 5), (19, 73), (20, 1), (21, 2), (22, 31), (24, 4095), (28, 4096), (56, 4095)], by decide +kernel⟩,
   ⟨w225, mk 1 0x4002 [(16, 5), (19, 72), (20, 1), (21, 2), (22, 31), (24, 4095), (28, 4096), (56, 4095)], by decide +kernel⟩,
   ⟨w226, mk 1 0x4003 [(16, 5), (19, 1), (20, 1), (21, 2), (22, 31), (24, 4095), (28, 4096), (56, 4095)], taskBody (mk 1 0x4003 [(16, 5), (19, 1), (20, 1), (21, 2), (22, 31), (24, 4095), (28, 4096), (56, 4095)]), by decide +kernel⟩,
   ⟨w226, mk 1 0x4003 [(16, 5), (19, 1), (20, 1), (21, 7), (22, 31), (24, 4095), (28, 4096), (56, 4095)], taskBody (mk 1 0x4003 [(16, 5), (19, 1), (20, 1), (21, 7), (22, 31), (24, 4095), (28, 4096), (56, 4095)]), by decide +kernel⟩,
   ⟨up, mk 1 0x4004 [(56, 4095)], 4095, by decide +kernel⟩,
   ⟨w227, mk 1 0x4004 [(56, 4095)], 4095, by decide +kernel⟩,
   ⟨up, by decide +kernel⟩,
   ⟨w228, 4095, { ep 31 5 with geoEnd := some 0, cfg := { up.cfg with tasks := [(4095, { body := body0, did := 1, guarded := false })] } }, { body := body0, did := 1, guarded := false }, by decide +kernel⟩,
   ⟨up, 7, by decide +kernel⟩,
   ⟨w229, 7, inst0, { run0 with body := { body0 with instances := 2 } }, by decide +kernel, by decide +kernel, by decide +kernel, by decide +kernel, by decide +kernel, by decide +kernel, fun _ _ => by simp [Tbl.put, run0, body0]⟩,
   ⟨up, by decide +kernel⟩,
   ⟨w230, 9, { run0 with waiting := [0] }, prog0, ((chooseSpot ({ up with eng.runs := [(9, { run0 with waiting := [0] })], eng.programs := [(5, prog0)], eng.engines := [(71, { Engine.reset with resident := [⟨5, 0, 1, 0, false⟩] })] }) 9 ({ run0 with waiting := [0] }) prog0).getD ⟨0, [], 0⟩), 0, by decide +kernel, by decide +kernel, by decide +kernel, by decide +kernel, by decide +kernel, by rfl, by decide +kernel⟩⟩

theorem test_witness_ScalarInstructions :
    (∃ (s : State) (t : Nat) (e : Enc) (a : W64) (b : W64), (a = xa s t e) ∧ (b = opB s t e) ∧ (Issues s t e (usesScalar e))) ∧
    (∃ (s : State) (t : Nat) (e : Enc) (a : W64) (b : W64), (a = xa s t e) ∧ (b = opB s t e) ∧ (Issues s t e (usesScalar e)) ∧ (b ≠ 0)) ∧
    (∃ (s : State) (t : Nat) (e : Enc) (a : W64) (b : W64), (a = xa s t e) ∧ (b = opB s t e) ∧ (Issues s t e (usesScalar e)) ∧ (b = 0)) ∧
    (∃ (s : State) (t : Nat) (e : Enc) (a : W64) (b : W64), (a = xa s t e) ∧ (b = opB s t e) ∧ (mayIssue s t = true) ∧ (encOk (usesScalar e) e = false)) ∧
    (∃ (s : State) (t : Nat) (e : Enc) (a : W64) (b : W64), (a = xa s t e) ∧ (b = opB s t e) ∧ (mayIssue s t = false)) ∧
    (∃ (s : State) (t : Nat) (e : Enc) (k : Nat), (k = bitsOf e.imm.toNat 0 8) ∧ (Issues s t e {})) ∧
    (∃ (s : State) (t : Nat) (e : Enc) (k : Nat), (k = bitsOf e.imm.toNat 0 8) ∧ (Issues s t e { d := true, imm := immAll })) ∧
    (∃ (s : State) (t : Nat) (e : Enc) (k : Nat), (k = bitsOf e.imm.toNat 0 8) ∧ (Issues s t e { d := true })) ∧
    (∃ (s : State) (t : Nat) (e : Enc) (k : Nat), (k = bitsOf e.imm.toNat 0 8) ∧ (Issues s t e { d := true, imm := 0xFF }) ∧ (k = 0)) ∧
    (∃ (s : State) (t : Nat) (e : Enc) (k : Nat), (k = bitsOf e.imm.toNat 0 8) ∧ (Issues s t e { d := true, imm := 0xFF }) ∧ (k = 1)) ∧
    (∃ (s : State) (t : Nat) (e : Enc) (k : Nat), (k = bitsOf e.imm.toNat 0 8) ∧ (Issues s t e { d := true, imm := 0xFF }) ∧ (k = 2)) ∧
    (∃ (s : State) (t : Nat) (e : Enc) (k : Nat), (k = bitsOf e.imm.toNat 0 8) ∧ (Issues s t e { d := true, imm := 0xFF }) ∧ (k = 4)) ∧
    (∃ (s : State) (t : Nat) (e : Enc) (k : Nat), (k = bitsOf e.imm.toNat 0 8) ∧ (Issues s t e { d := true, imm := 0xFF }) ∧ (k = 3)) ∧
    (∃ (s : State) (t : Nat) (e : Enc) (k : Nat), (k = bitsOf e.imm.toNat 0 8) ∧ (Issues s t e { d := true, imm := 0xFF }) ∧ (k = 5)) ∧
    (∃ (s : State) (t : Nat) (e : Enc) (k : Nat), (k = bitsOf e.imm.toNat 0 8) ∧ (Issues s t e { d := true, imm := 0xFF }) ∧ (6 ≤ k)) ∧
    (∃ (s : State) (t : Nat) (e : Enc) (k : Nat), (k = bitsOf e.imm.toNat 0 8) ∧ (Issues s t e { a := true, imm := 0xFF }) ∧ (k = 0)) ∧
    (∃ (s : State) (t : Nat) (e : Enc) (k : Nat), (k = bitsOf e.imm.toNat 0 8) ∧ (Issues s t e { a := true, imm := 0xFF }) ∧ (k = 3)) ∧
    (∃ (s : State) (t : Nat) (e : Enc) (k : Nat), (k = bitsOf e.imm.toNat 0 8) ∧ (Issues s t e { a := true, imm := 0xFF }) ∧ (k ≠ 0) ∧ (k ≠ 3)) :=
  ⟨⟨w231, 4607, en 3 1 2 false 0 0 0, 0x8000000000000005, 7, by decide +kernel⟩,
   ⟨w231, 4607, en 3 1 2 false 0 0 0, 0x8000000000000005, 7, by decide +kernel⟩,
   ⟨w231, 4607, en 3 1 4 false 0 0 0, 0x8000000000000005, 0, by decide +kernel⟩,
   ⟨w231, 4607, en 3 1 2 false 0 1 0, 0x8000000000000005, 7, by decide +kernel⟩,
   ⟨w232, 4607, en 3 1 2 false 0 0 0, 0, 0, by decide +kernel⟩,
   ⟨w231, 4607, en 0 0 0 false 0 0 0, 0, by decide +kernel⟩,
   ⟨w231, 4607, en 3 0 0 false 0 0 0x80000001, 1, by decide +kernel⟩,
   ⟨w231, 4607, en 3 0 0 false 0 0 0, 0, by decide +kernel⟩,
   ⟨w231, 4607, en 3 0 0 false 0 0 0, 0, by decide +kernel⟩,
   ⟨w231, 4607, en 3 0 0 false 0 0 1, 1, by decide +kernel⟩,
   ⟨w231, 4607, en 3 0 0 false 0 0 2, 2, by decide +kernel⟩,
   ⟨w231, 4607, en 3 0 0 false 0 0 4, 4, by decide +kernel⟩,
   ⟨w231, 4607, en 3 0 0 false 0 0 3, 3, by decide +kernel⟩,
   ⟨w231, 4607, en 3 0 0 false 0 0 5, 5, by decide +kernel⟩,
   ⟨w231, 4607, en 3 0 0 false 0 0 6, 6, by decide +kernel⟩,
   ⟨w231, 4607, en 0 1 0 false 0 0 0, 0, by decide +kernel⟩,
   ⟨w231, 4607, en 0 1 0 false 0 0 3, 3, by decide +kernel⟩,
   ⟨w231, 4607, en 0 1 0 false 0 0 1, 1, by decide +kernel⟩⟩

theorem test_witness_TileAccesses :
    (∃ (s : State) (t : Nat) (e : Enc) (a : Nat) (n : Nat) (w : Nat), (a = (xa s t e + e.imm.signExtend 64).toNat) ∧ (n = 2 ^ e.f.toNat) ∧ (w = ofLe (tileRead s t a n)) ∧ (Issues s t e { d := true, a := true, f := true, m := 1, imm := immAll }) ∧ (e.f.toNat ≤ 3) ∧ (tileCheck s t a n n false = stOk)) ∧
    (∃ (s : State) (t : Nat) (e : Enc) (a : Nat) (n : Nat) (w : Nat), (a = (xa s t e + e.imm.signExtend 64).toNat) ∧ (n = 2 ^ e.f.toNat) ∧ (w = ofLe (tileRead s t a n)) ∧ (Issues s t e { d := true, a := true, f := true, m := 1, imm := immAll }) ∧ (e.f.toNat ≤ 3) ∧ (a % n ≠ 0)) ∧
    (∃ (s : State) (t : Nat) (e : Enc) (a : Nat) (n : Nat) (w : Nat), (a = (xa s t e + e.imm.signExtend 64).toNat) ∧ (n = 2 ^ e.f.toNat) ∧ (w = ofLe (tileRead s t a n)) ∧ (Issues s t e { d := true, a := true, f := true, m := 1, imm := immAll }) ∧ (e.f.toNat ≤ 3) ∧ (a % n = 0) ∧ (tileOk s t a n false = false)) ∧
    (∃ (s : State) (t : Nat) (e : Enc) (a : Nat) (n : Nat) (w : Nat), (a = (xa s t e + e.imm.signExtend 64).toNat) ∧ (n = 2 ^ e.f.toNat) ∧ (w = ofLe (tileRead s t a n)) ∧ (Issues s t e { d := true, a := true, f := true, m := 1, imm := immAll }) ∧ (e.f.toNat ≤ 3) ∧ (a % n = 0) ∧ (tileOk s t a n false = true) ∧ (badIn s (Space.key (.tile (engineNo t)) a) n = true)) ∧
    (∃ (s : State) (t : Nat) (e : Enc) (a : Nat) (n : Nat) (w : Nat), (a = (xa s t e + e.imm.signExtend 64).toNat) ∧ (n = 2 ^ e.f.toNat) ∧ (w = ofLe (tileRead s t a n)) ∧ (Issues s t e { a := true, b := true, f := true, imm := immAll }) ∧ (e.f.toNat ≤ 3) ∧ (tileCheck s t a n n true = stOk)) ∧
    (∃ (s : State) (t : Nat) (e : Enc) (a : Nat) (n : Nat) (w : Nat), (a = (xa s t e + e.imm.signExtend 64).toNat) ∧ (n = 2 ^ e.f.toNat) ∧ (w = ofLe (tileRead s t a n)) ∧ (Issues s t e { d := true, a := true, b := true, f := true, imm := immAll }) ∧ (e.f.toNat = 2 ∨ e.f.toNat = 3) ∧ (tileCheck s t a n n true = stOk) ∧ (badIn s (Space.key (.tile (engineNo t)) a) n = false)) ∧
    (∃ (s : State) (t : Nat) (e : Enc) (a : Nat) (n : Nat) (w : Nat), (a = (xa s t e + e.imm.signExtend 64).toNat) ∧ (n = 2 ^ e.f.toNat) ∧ (w = ofLe (tileRead s t a n)) ∧ (Issues s t e { d := true, a := true, b := true, f := true, imm := immAll }) ∧ (e.f.toNat = 2 ∨ e.f.toNat = 3) ∧ (tileCheck s t a n n true = stOk) ∧ (badIn s (Space.key (.tile (engineNo t)) a) n = false) ∧ (w = (xd s t e).toNat % 2 ^ (8 * n))) ∧
    (∃ (s : State) (t : Nat) (e : Enc) (a : Nat) (n : Nat) (w : Nat), (a = (xa s t e + e.imm.signExtend 64).toNat) ∧ (n = 2 ^ e.f.toNat) ∧ (w = ofLe (tileRead s t a n)) ∧ (Issues s t e { d := true, a := true, b := true, f := true, imm := immAll }) ∧ (e.f.toNat = 2 ∨ e.f.toNat = 3) ∧ (tileCheck s t a n n true = stOk) ∧ (badIn s (Space.key (.tile (engineNo t)) a) n = false) ∧ (w ≠ (xd s t e).toNat % 2 ^ (8 * n))) ∧
    (∃ (s : State) (t : Nat) (e : Enc) (a : Nat) (n : Nat) (w : Nat), (a = (xa s t e + e.imm.signExtend 64).toNat) ∧ (n = 2 ^ e.f.toNat) ∧ (w = ofLe (tileRead s t a n)) ∧ (Issues s t e { d := true, a := true, imm := immAll, vd := true }) ∧ (tileCheck s t a 256 64 false = stOk)) ∧
    (∃ (s : State) (t : Nat) (e : Enc) (a : Nat) (n : Nat) (w : Nat), (a = (xa s t e + e.imm.signExtend 64).toNat) ∧ (n = 2 ^ e.f.toNat) ∧ (w = ofLe (tileRead s t a n)) ∧ (Issues s t e { d := false, a := true, b := true, m := 1, imm := immAll, vb := true }) ∧ (e.m.getLsbD 0 = false) ∧ (tileCheck s t a 256 64 true = stOk)) ∧
    (∃ (s : State) (t : Nat) (e : Enc) (a : Nat) (n : Nat) (w : Nat) (j : _) (x : _), (a = (xa s t e + e.imm.signExtend 64).toNat) ∧ (n = 2 ^ e.f.toNat) ∧ (w = ofLe (tileRead s t a n)) ∧ (Issues s t e { d := true, a := true, b := true, imm := 0x3F, vd := true, vb := true }) ∧ (maskOf s t e = 2 ^ j) ∧ (j < 64) ∧ (x = ((xa s t e).toNat + elemAt .fp32 ((thread s t).vr e.b.toNat) j) % 2 ^ 64) ∧ (tileCheck s t x 4 4 false = stOk)) ∧
    (∃ (s : State) (t : Nat) (e : Enc) (a : Nat) (n : Nat) (w : Nat) (j : _) (x : _), (a = (xa s t e + e.imm.signExtend 64).toNat) ∧ (n = 2 ^ e.f.toNat) ∧ (w = ofLe (tileRead s t a n)) ∧ (Issues s t e { d := true, a := true, b := true, imm := 0x3F, vd := true, vb := true }) ∧ (maskOf s t e = 2 ^ j) ∧ (j < 64) ∧ (x = ((xa s t e).toNat + elemAt .fp32 ((thread s t).vr e.b.toNat) j) % 2 ^ 64) ∧ (tileCheck s t x 4 4 true = stOk)) :=
  ⟨⟨w233, 4607, en 3 1 0 false 2 1 8, 131068, 4, ofLe (tileRead (upt [(1, 131060), (2, 7), (3, 9), (6, 2)] [(1, 0x00000003FFFFFFFF80000000), (2, 0x000000050000000400000004), (3, 0x600000005)]) 4607 131068 4), by decide +kernel⟩,
   ⟨w233, 4607, en 3 1 0 false 2 0 7, 131067, 4, ofLe (tileRead (upt [(1, 131060), (2, 7), (3, 9), (6, 2)] [(1, 0x00000003FFFFFFFF80000000), (2, 0x000000050000000400000004), (3, 0x600000005)]) 4607 131067 4), by decide +kernel⟩,
   ⟨w234, 4607, en 3 1 0 false 2 0 8, 131072, 4, ofLe (tileRead (upt [(1, 131064), (2, 7), (3, 9), (6, 2)] [(1, 0x00000003FFFFFFFF80000000), (2, 0x000000050000000400000004), (3, 0x600000005)]) 4607 131072 4), by decide +kernel⟩,
   ⟨w235, 4607, en 3 1 0 false 3 1 8, 131064, 8, ofLe (tileRead (upt [(1, 131056), (2, 7), (3, 9), (6, 2)] [(1, 0x00000003FFFFFFFF80000000), (2, 0x000000050000000400000004), (3, 0x600000005)]) 4607 131064 8), by decide +kernel⟩,
   ⟨w236, 4607, en 0 1 2 false 3 0 8, 131064, 8, ofLe (tileRead (upt [(1, 131056), (2, 7), (3, 9), (6, 2)] [(1, 0x00000003FFFFFFFF80000000), (2, 0x000000050000000400000004), (3, 0x600000005)]) 4607 131064 8), by decide +kernel⟩,
   ⟨w236, 4607, en 3 1 2 false 3 0 8, 131064, 8, ofLe (tileRead (upt [(1, 131056), (2, 7), (3, 9), (6, 2)] [(1, 0x00000003FFFFFFFF80000000), (2, 0x000000050000000400000004), (3, 0x600000005)]) 4607 131064 8), by decide +kernel⟩,
   ⟨w237, 4607, en 3 1 2 false 3 0 8, 131064, 8, ofLe (tileRead (upt [(1, 131056), (2, 7), (3, 0), (6, 2)] [(1, 0x00000003FFFFFFFF80000000), (2, 0x000000050000000400000004), (3, 0x600000005)]) 4607 131064 8), by decide +kernel⟩,
   ⟨w236, 4607, en 3 1 2 false 3 0 8, 131064, 8, ofLe (tileRead (upt [(1, 131056), (2, 7), (3, 9), (6, 2)] [(1, 0x00000003FFFFFFFF80000000), (2, 0x000000050000000400000004), (3, 0x600000005)]) 4607 131064 8), by decide +kernel⟩,
   ⟨w238, 4607, en 3 1 0 false 0 0 0, 130816, 1, ofLe (tileRead (upt [(1, 130816), (2, 7), (3, 9), (6, 2)] [(1, 0x00000003FFFFFFFF80000000), (2, 0x000000050000000400000004), (3, 0x600000005)]) 4607 130816 1), by decide +kernel⟩,
   ⟨w238, 4607, en 0 1 2 false 0 0 0, 130816, 1, ofLe (tileRead (upt [(1, 130816), (2, 7), (3, 9), (6, 2)] [(1, 0x00000003FFFFFFFF80000000), (2, 0x000000050000000400000004), (3, 0x600000005)]) 4607 130816 1), by decide +kernel⟩,
   ⟨w238, 4607, en 3 1 2 false 0 0 38, 130854, 1, ofLe (tileRead (upt [(1, 130816), (2, 7), (3, 9), (6, 2)] [(1, 0x00000003FFFFFFFF80000000), (2, 0x000000050000000400000004), (3, 0x600000005)]) 4607 130854 1), 1, 130820, by decide +kernel⟩,
   ⟨w238, 4607, en 3 1 2 false 0 0 38, 130854, 1, ofLe (tileRead (upt [(1, 130816), (2, 7), (3, 9), (6, 2)] [(1, 0x00000003FFFFFFFF80000000), (2, 0x000000050000000400000004), (3, 0x600000005)]) 4607 130854 1), 1, 130820, by decide +kernel⟩⟩

theorem test_witness_VectorLanes :
    (∃ (s : State) (t : Nat) (e : Enc), (Issues s t e (usesVec e true)) ∧ (e.f = 10)) ∧
    (∃ (s : State) (t : Nat) (e : Enc) (l : Lane), (Issues s t e (usesVec e true)) ∧ ((e.f = 0 ∧ l = .fp32) ∨ (e.f = 9 ∧ l = .fp64))) ∧
    (∃ (s : State) (t : Nat) (e : Enc), (Issues s t e (usesVec e true)) ∧ (laneOf e.f.toNat = none)) ∧
    (∃ (s : State) (t : Nat) (e : Enc), (Issues s t e (usesVec e false)) ∧ (e.f = 10)) ∧
    (∃ (s : State) (t : Nat) (e : Enc), (Issues s t e (usesVec e false)) ∧ (e.f = 0)) :=
  ⟨⟨w231, 4607, en 3 1 2 false 10 0 0, by decide +kernel⟩,
   ⟨w231, 4607, en 3 1 2 false 0 0 0, Lane.fp32, by decide +kernel⟩,
   ⟨w231, 4607, en 3 1 2 false 15 0 0, by decide +kernel⟩,
   ⟨w231, 4607, en 3 1 0 false 10 0 0, by decide +kernel⟩,
   ⟨w231, 4607, en 3 1 0 false 0 0 0, by decide +kernel⟩⟩

theorem test_witness_VectorMoves :
    (∃ (s : State) (t : Nat) (e : Enc), (Issues s t e { usesVec e true with vd := false, m := 15 }) ∧ (e.f = 10) ∧ (e.m = 2)) ∧
    (∃ (s : State) (t : Nat) (e : Enc), (Issues s t e { d := true, a := true, b := true, f := true, imm := 0x1F, vd := true, va := true, vb := true }) ∧ (e.f = 10)) ∧
    (∃ (s : State) (t : Nat) (e : Enc), (Issues s t e (usesVec e true)) ∧ (e.f = 10)) ∧
    (∃ (s : State) (t : Nat) (e : Enc), (Issues s t e { d := true, a := !e.i, i := true, f := true, imm := if e.i then immAll else 0x3F, vd := true }) ∧ (e.f = 10)) ∧
    (∃ (s : State) (t : Nat) (e : Enc), (Issues s t e { d := true, a := true, f := true, imm := 0x3F, va := true }) ∧ (e.f = 10)) ∧
    (∃ (s : State) (t : Nat) (e : Enc), (Issues s t e { d := true, a := true, f := true, imm := 0x3F, vd := true }) ∧ (e.f = 10)) ∧
    (∃ (s : State) (t : Nat) (e : Enc), (Issues s t e { d := true, a := true, f := true, imm := 0x3F, va := true }) ∧ (e.f = 10)) ∧
    (∃ (s : State) (t : Nat) (e : Enc), (Issues s t e { d := true, a := true, f := true, imm := 0x3F, va := true }) ∧ (e.f = 10) ∧ (maskOf s t e % 2 ^ 64 = 0)) ∧
    (∃ (s : State) (t : Nat) (e : Enc), (Issues s t e { d := true, a := true, f := true, m := 1, imm := 0x70F, vd := true, va := true }) ∧ (e.f = 7) ∧ (e.m = 0) ∧ (bitsOf e.imm.toNat 0 4 = 10) ∧ (bitsOf e.imm.toNat 8 3 < 4)) ∧
    (∃ (s : State) (t : Nat) (e : Enc), (Issues s t e { d := true, a := true, f := true, imm := 0x700, vd := true, va := true }) ∧ (e.f = 7) ∧ (bitsOf e.imm.toNat 8 3 < 4)) ∧
    (∃ (s : State) (t : Nat) (e : Enc), (Issues s t e { d := true, a := true, f := true, imm := 0xF, vd := true, va := true }) ∧ (e.f = 10) ∧ (bitsOf e.imm.toNat 0 4 = 0)) ∧
    (∃ (s : State) (t : Nat) (e : Enc) (p : _) (m : MmaArgs), (Issues s t e { d := true, a := true, b := true, f := true, m := 3, imm := 0xFFFFFF }) ∧ (e.d.toNat ≤ 30) ∧ (e.a.toNat ≤ 30) ∧ (e.b.toNat ≤ 30) ∧ (e.m = 0) ∧ (e.f = 7) ∧ (e.imm = 0x700000) ∧ (p = Pair.int 8 8) ∧ (m = ({ k := 32, rows := 1, cols := 1, acc := false, sparse := false, aBase := (xa s t e).toNat, aStride := ((thread s t).xr (e.a.toNat + 1)).toNat, bBase := (xb s t e).toNat, bStride := ((thread s t).xr (e.b.toNat + 1)).toNat, meta_ := ((thread s t).xr (e.b.toNat + 2)).toNat, cBase := (xd s t e).toNat, cStride := ((thread s t).xr (e.d.toNat + 1)).toNat } : MmaArgs)) ∧ (mmaShapeOk p false m = true) ∧ (mmaPlaceOk s t p false m = true) ∧ (mmaBad s t p false m = false)) ∧
    (∃ (s : State) (t : Nat) (e : Enc) (p : _) (m : MmaArgs), (Issues s t e { d := true, a := true, b := true, f := true, m := 3, imm := 0xFFFFFF }) ∧ (e.d.toNat ≤ 30) ∧ (e.a.toNat ≤ 30) ∧ (e.b.toNat ≤ 30) ∧ (e.m = 0) ∧ (e.f = 7) ∧ (e.imm = 0x700000) ∧ (p = Pair.int 8 8) ∧ (m = ({ k := 32, rows := 1, cols := 1, acc := false, sparse := false, aBase := (xa s t e).toNat, aStride := ((thread s t).xr (e.a.toNat + 1)).toNat, bBase := (xb s t e).toNat, bStride := ((thread s t).xr (e.b.toNat + 1)).toNat, meta_ := ((thread s t).xr (e.b.toNat + 2)).toNat, cBase := (xd s t e).toNat, cStride := ((thread s t).xr (e.d.toNat + 1)).toNat } : MmaArgs)) ∧ (mmaShapeOk p false m = false)) ∧
    (∃ (s : State) (t : Nat) (e : Enc) (p : _) (m : MmaArgs), (Issues s t e { d := true, a := true, b := true, f := true, m := 3, imm := 0xFFFFFF }) ∧ (e.d.toNat ≤ 30) ∧ (e.a.toNat ≤ 30) ∧ (e.b.toNat ≤ 30) ∧ (e.m = 0) ∧ (e.f = 7) ∧ (e.imm = 0x700000) ∧ (p = Pair.int 8 8) ∧ (m = ({ k := 32, rows := 1, cols := 1, acc := false, sparse := false, aBase := (xa s t e).toNat, aStride := ((thread s t).xr (e.a.toNat + 1)).toNat, bBase := (xb s t e).toNat, bStride := ((thread s t).xr (e.b.toNat + 1)).toNat, meta_ := ((thread s t).xr (e.b.toNat + 2)).toNat, cBase := (xd s t e).toNat, cStride := ((thread s t).xr (e.d.toNat + 1)).toNat } : MmaArgs)) ∧ (mmaShapeOk p false m = true) ∧ (mmaPlaceOk s t p false m = false)) :=
  ⟨⟨w231, 4607, en 3 1 2 false 10 2 0, by decide +kernel⟩,
   ⟨w231, 4607, en 3 1 2 false 10 0 5, by decide +kernel⟩,
   ⟨w231, 4607, en 3 1 2 false 10 0 0, by decide +kernel⟩,
   ⟨w231, 4607, en 3 0 0 true 10 0 0x12345678, by decide +kernel⟩,
   ⟨w231, 4607, en 3 1 0 false 10 0 0x2, by decide +kernel⟩,
   ⟨w231, 4607, en 3 1 0 false 10 0 0x3F, by decide +kernel⟩,
   ⟨w231, 4607, en 3 1 0 false 10 0 0, by decide +kernel⟩,
   ⟨w231, 4607, en 3 1 0 false 10 0 0x26, by decide +kernel⟩,
   ⟨w231, 4607, en 3 1 0 false 7 0 0x30A, by decide +kernel⟩,
   ⟨w231, 4607, en 3 1 0 false 7 0 0x300, by decide +kernel⟩,
   ⟨w231, 4607, en 3 1 0 false 10 0 0, by decide +kernel⟩,
   ⟨w239, 4607, en 7 1 4 false 7 0 0x700000, Pair.int 8 8, { k := 32, rows := 1, cols := 1, acc := false, sparse := false, aBase := 0, aStride := 64, bBase := 4096, bStride := 64, meta_ := 0, cBase := 16384, cStride := 256 }, by decide +kernel, by decide +kernel, by decide +kernel, by decide +kernel, by decide +kernel, by decide +kernel, by decide +kernel, rfl, rfl, by decide +kernel, by decide +kernel, by decide +kernel⟩,
   ⟨w240, 4607, en 7 1 4 false 7 0 0x700000, Pair.int 8 8, { k := 32, rows := 1, cols := 1, acc := false, sparse := false, aBase := 1, aStride := 64, bBase := 4096, bStride := 64, meta_ := 0, cBase := 16384, cStride := 256 }, by decide +kernel, by decide +kernel, by decide +kernel, by decide +kernel, by decide +kernel, by decide +kernel, by decide +kernel, rfl, rfl, by decide +kernel⟩,
   ⟨w241, 4607, en 7 1 4 false 7 0 0x700000, Pair.int 8 8, { k := 32, rows := 1, cols := 1, acc := false, sparse := false, aBase := 0, aStride := 64, bBase := 4096, bStride := 64, meta_ := 0, cBase := 131072, cStride := 256 }, by decide +kernel, by decide +kernel, by decide +kernel, by decide +kernel, by decide +kernel, by decide +kernel, by decide +kernel, rfl, rfl, by decide +kernel, by decide +kernel⟩⟩

theorem test_witness_LoadsAndStores :
    (∃ (s : State) (t : Nat) (e : Enc) (a : Nat) (n : Nat), (Issues s t e usesLoad) ∧ (e.f.toNat ≤ 3) ∧ (n = 2 ^ e.f.toNat) ∧ (a = (xa s t e + e.imm.signExtend 64).toNat) ∧ (a % 4096 + n ≤ 4096)) ∧
    (∃ (s : State) (t : Nat) (e : Enc) (a : Nat) (n : Nat), (Issues s t e usesLoad) ∧ (e.f.toNat ≤ 3) ∧ (n = 2 ^ e.f.toNat) ∧ (a = (xa s t e + e.imm.signExtend 64).toNat) ∧ (a % 4096 + n ≤ 4096) ∧ (coreOk s (coreOfEngine (engineNo t)) a n (threadWho s t).did (threadWho s t).guarded false = true)) ∧
    (∃ (s : State) (t : Nat) (e : Enc) (a : Nat) (n : Nat), (Issues s t e usesLoad) ∧ (e.f.toNat ≤ 3) ∧ (n = 2 ^ e.f.toNat) ∧ (a = (xa s t e + e.imm.signExtend 64).toNat) ∧ (a % 4096 + n ≤ 4096) ∧ (coreOk s (coreOfEngine (engineNo t)) a n (threadWho s t).did (threadWho s t).guarded false = false)) ∧
    (∃ (s : State) (t : Nat) (e : Enc) (a : Nat) (n : Nat), (Issues s t e usesLoad) ∧ (e.f.toNat ≤ 3) ∧ (n = 2 ^ e.f.toNat) ∧ (a = (xa s t e + e.imm.signExtend 64).toNat) ∧ (4096 < a % 4096 + n)) ∧
    (∃ (s : State) (t : Nat) (e : Enc) (a : Nat) (n : Nat), (Issues s t e usesLoadV) ∧ (n = bitsOf e.imm.toNat 0 9) ∧ (a = (xa s t e).toNat) ∧ (n ≠ 0) ∧ (n ≤ 256) ∧ (a % 4096 + n ≤ 4096)) ∧
    (∃ (s : State) (t : Nat) (e : Enc) (a : Nat) (n : Nat), (Issues s t e usesLoadV) ∧ (n = bitsOf e.imm.toNat 0 9) ∧ (a = (xa s t e).toNat) ∧ (n ≠ 0) ∧ (n ≤ 256) ∧ (a % 4096 + n ≤ 4096) ∧ (coreOk s (coreOfEngine (engineNo t)) a n (threadWho s t).did (threadWho s t).guarded false = true)) ∧
    (∃ (s : State) (t : Nat) (e : Enc) (a : Nat) (n : Nat) (w : _) (i : _), (w = threadWho s t) ∧ ((thread s t).inst = some i) ∧ (heldStores (thread s t) = 0) ∧ ((thread s t).posted.length = 16) ∧ (Issues s t e usesStore) ∧ (e.f.toNat ≤ 3) ∧ (n = 2 ^ e.f.toNat) ∧ (a = (xa s t e + e.imm.signExtend 64).toNat) ∧ (a % 4096 + n ≤ 4096)) ∧
    (∃ (s : State) (t : Nat) (e : Enc) (a : Nat) (n : Nat) (w : _) (i : _), (w = threadWho s t) ∧ ((thread s t).inst = some i) ∧ (w.guarded = false) ∧ ((thread s t).held = []) ∧ ((thread s t).posted.length < 16) ∧ (Issues s t e usesStore) ∧ (e.f.toNat ≤ 3) ∧ (n = 2 ^ e.f.toNat) ∧ (a = (xa s t e + e.imm.signExtend 64).toNat) ∧ (a % 4096 + n ≤ 4096)) ∧
    (∃ (s : State) (t : Nat) (e : Enc) (a : Nat) (n : Nat) (w : _) (i : _), (w = threadWho s t) ∧ ((thread s t).inst = some i) ∧ (w.guarded = false) ∧ ((thread s t).held = []) ∧ ((thread s t).posted.length < 16) ∧ (Issues s t e usesStore) ∧ (e.f.toNat ≤ 3) ∧ (n = 2 ^ e.f.toNat) ∧ (a = (xa s t e + e.imm.signExtend 64).toNat) ∧ (a % 4096 + n ≤ 4096) ∧ (coreOk s (coreOfEngine (engineNo t)) a n w.did false true = true)) ∧
    (∃ (s : State) (t : Nat) (e : Enc) (a : Nat) (n : Nat) (w : _) (i : _), (w = threadWho s t) ∧ ((thread s t).inst = some i) ∧ (w.guarded = false) ∧ ((thread s t).held = []) ∧ ((thread s t).posted.length < 16) ∧ (Issues s t e usesStoreV) ∧ (n = bitsOf e.imm.toNat 0 9) ∧ (a = (xa s t e).toNat) ∧ (n ≠ 0) ∧ (n ≤ 256) ∧ (a % 4096 + n ≤ 4096)) ∧
    (∃ (s : State) (t : Nat) (e : Enc) (a : Nat) (n : Nat) (w : _) (i : _), (w = threadWho s t) ∧ ((thread s t).inst = some i) ∧ (w.guarded = false) ∧ ((thread s t).held = []) ∧ ((thread s t).posted.length < 16) ∧ (Issues s t e usesStoreV) ∧ (n = bitsOf e.imm.toNat 0 9) ∧ (a = (xa s t e).toNat) ∧ (n ≠ 0) ∧ (n ≤ 256) ∧ (a % 4096 + n ≤ 4096) ∧ (coreOk s (coreOfEngine (engineNo t)) a n w.did false true = true)) :=
  ⟨⟨w242, 4607, en 3 1 0 false 3 1 0, 4088, 8, by decide +kernel⟩,
   ⟨w243, 4607, en 3 1 0 false 3 1 0, 4088, 8, by decide +kernel⟩,
   ⟨w242, 4607, en 3 1 0 false 3 1 0, 4088, 8, by decide +kernel⟩,
   ⟨w242, 4607, en 3 1 0 false 3 1 1, 4089, 8, by decide +kernel⟩,
   ⟨w244, 4607, en 3 1 0 false 0 0 256, 3840, 256, by decide +kernel⟩,
   ⟨w245, 4607, en 3 1 0 false 0 0 256, 3840, 256, by decide +kernel⟩,
   ⟨w246, 4607, en 0 1 2 false 3 0 0, 4088, 8, threadWho (w246) (4607), 0, rfl, by decide +kernel, by decide +kernel, by decide +kernel, by decide +kernel, by decide +kernel, by decide +kernel, by decide +kernel, by decide +kernel⟩,
   ⟨w242, 4607, en 0 1 2 false 3 0 0, 4088, 8, threadWho (upt [(1, 4088), (2, 7), (3, 9), (4, 2048)] [(2, 0x0102030405)]) 4607, 0, rfl, by decide +kernel, by decide +kernel, by decide +kernel, by decide +kernel, by decide +kernel, by decide +kernel, by decide +kernel, by decide +kernel⟩,
   ⟨w243, 4607, en 0 1 2 false 3 0 0, 4088, 8, threadWho ({ upt [(1, 4088), (2, 7), (3, 9), (4, 2048)] [(2, 0x0102030405)] with eng.pages := [(320, (1, false))] }) 4607, 0, rfl, by decide +kernel, by decide +kernel, by decide +kernel, by decide +kernel, by decide +kernel, by decide +kernel, by decide +kernel, by decide +kernel, by decide +kernel⟩,
   ⟨w244, 4607, en 0 1 2 false 0 0 256, 3840, 256, threadWho (upt [(1, 3840)] [(2, 0x0102030405)]) 4607, 0, rfl, by decide +kernel, by decide +kernel, by decide +kernel, by decide +kernel, by decide +kernel, by decide +kernel, by decide +kernel, by decide +kernel, by decide +kernel, by decide +kernel⟩,
   ⟨w245, 4607, en 0 1 2 false 0 0 256, 3840, 256, threadWho ({ upt [(1, 3840)] [(2, 0x0102030405)] with eng.pages := [(320, (1, false))] }) 4607, 0, rfl, by decide +kernel, by decide +kernel, by decide +kernel, by decide +kernel, by decide +kernel, by decide +kernel, by decide +kernel, by decide +kernel, by decide +kernel, by decide +kernel⟩⟩

theorem test_witness_CopiesAndEngineEvents :
    (∃ (s : State) (t : Nat) (e : Enc) (r : Nat → Nat), ((∀ k, r k = ((thread s t).xr (e.a.toNat + k)).toNat)) ∧ (Issues s t e { d := true, a := true, imm := 0xF3FFF }) ∧ (e.a.toNat ≤ 28) ∧ (bitsOf (r 3) 0 17 ≤ 65535) ∧ (bitsOf (r 3) 17 17 ≤ 65535) ∧ (bitsOf e.imm.toNat 18 2 = 0 ∨ (threadWho s t).guarded = false) ∧ (copyRoom s t = true)) ∧
    (∃ (s : State) (t : Nat) (e : Enc) (r : Nat → Nat), ((∀ k, r k = ((thread s t).xr (e.a.toNat + k)).toNat)) ∧ (Issues s t e { d := true, a := true, imm := 0xF3FFF }) ∧ (e.a.toNat ≤ 28) ∧ (bitsOf (r 3) 0 17 ≤ 65535) ∧ (bitsOf (r 3) 17 17 ≤ 65535) ∧ (bitsOf e.imm.toNat 18 2 = 0 ∨ (threadWho s t).guarded = false) ∧ (copyRoom s t = false)) ∧
    (∃ (s : State) (t : Nat) (e : Enc), (Issues s t e { a := true, imm := 0xF3FFF, d := true }) ∧ (28 < e.a.toNat)) ∧
    (∃ (s : State) (t : Nat) (e : Enc) (k : _), (Issues s t e { a := !e.i, i := true, imm := if e.i then 0xFFFF else 0 }) ∧ (k = (if e.i then bitsOf e.imm.toNat 0 16 else (xa s t e).toNat % 65536)) ∧ (((thread s t).done + 65536 - k) % 65536 < 32768)) ∧
    (∃ (s : State) (t : Nat) (e : Enc) (k : _), (Issues s t e { a := !e.i, i := true, imm := if e.i then 0xFFFF else 0 }) ∧ (k = (if e.i then bitsOf e.imm.toNat 0 16 else (xa s t e).toNat % 65536)) ∧ (32768 ≤ ((thread s t).done + 65536 - k) % 65536)) ∧
    (∃ (s : State) (t : Nat) (e : Enc) (m : _), (Issues s t e { imm := 7 }) ∧ (m = bitsOf e.imm.toNat 0 3) ∧ (fencePassed (thread s t) m = true)) ∧
    (∃ (s : State) (t : Nat) (e : Enc) (m : _), (Issues s t e { imm := 7 }) ∧ (m = bitsOf e.imm.toNat 0 3) ∧ (m = 1) ∧ ((thread s t).posted ≠ [])) ∧
    (∃ (s : State) (t : Nat) (g : Nat), (g = engineNo t) ∧ ((thread s t).st ≠ .ready ∨ (thread s t).fetched = some ((thread s t).pc / 8))) ∧
    (∃ (s : State) (t : Nat) (g : Nat), (g = engineNo t) ∧ ((thread s t).st = .ready) ∧ ((thread s t).fetched ≠ some ((thread s t).pc / 8)) ∧ (codeRange s t = none)) ∧
    (∃ (s : State) (t : Nat) (g : Nat) (base : _) (len : _), (g = engineNo t) ∧ ((thread s t).st = .ready) ∧ ((thread s t).fetched ≠ some ((thread s t).pc / 8)) ∧ (codeRange s t = some (base, len)) ∧ (8 * (thread s t).pc < len)) ∧
    (∃ (s : State) (t : Nat) (g : Nat) (base : _) (len : _), (g = engineNo t) ∧ ((thread s t).st = .ready) ∧ ((thread s t).fetched ≠ some ((thread s t).pc / 8)) ∧ (codeRange s t = some (base, len)) ∧ (8 * (thread s t).pc < len) ∧ (badIn s (Space.key (.tile g) (base + (thread s t).pc / 8 * 64)) 64 = false)) ∧
    (∃ (s : State) (t : Nat) (g : Nat) (base : _) (len : _), (g = engineNo t) ∧ ((thread s t).st = .ready) ∧ ((thread s t).fetched ≠ some ((thread s t).pc / 8)) ∧ (codeRange s t = some (base, len)) ∧ (len ≤ 8 * (thread s t).pc)) ∧
    (∃ (s : State) (t : Nat) (g : Nat) (l : Load) (k : Nat), (g = engineNo t) ∧ ((thread s t).waiting = .load l) ∧ ((thread s t).posted = []) ∧ ((thread s t).held = []) ∧ (l.place = .core) ∧ (k = Space.key (.core (coreOfEngine g)) l.addr) ∧ (badIn s k l.size = false) ∧ (l.vector = false)) ∧
    (∃ (s : State) (t : Nat) (g : Nat) (l : Load) (k : Nat), (g = engineNo t) ∧ ((thread s t).waiting = .load l) ∧ ((thread s t).posted = []) ∧ ((thread s t).held = []) ∧ (l.place = .core) ∧ (k = Space.key (.core (coreOfEngine g)) l.addr) ∧ (badIn s k l.size = false) ∧ (l.vector = true)) ∧
    (∃ (s : State) (t : Nat) (g : Nat) (l : _) (ecc : _), (g = engineNo t) ∧ ((thread s t).waiting = .load l) ∧ ((thread s t).posted = []) ∧ ((thread s t).held = []) ∧ (l.place = .core) ∧ (ecc = 2 ∨ badIn s (Space.key (.core (coreOfEngine g)) l.addr) l.size = true)) ∧
    (∃ (s : State) (t : Nat) (g : Nat) (l : _) (st : _) (bs : _) (u : _), (g = engineNo t) ∧ ((thread s t).waiting = .load l) ∧ ((thread s t).posted = []) ∧ ((thread s t).held = []) ∧ (l.place = .device) ∧ (devRead s (threadWho s t) l.addr l.size = (st, bs, u)) ∧ (st ≠ tileUe) ∧ (st = stOk) ∧ (l.vector = false)) ∧
    (∃ (s : State) (t : Nat) (g : Nat) (l : _) (st : _) (bs : _) (u : _), (g = engineNo t) ∧ ((thread s t).waiting = .load l) ∧ ((thread s t).posted = []) ∧ ((thread s t).held = []) ∧ (l.place = .device) ∧ (devRead s (threadWho s t) l.addr l.size = (st, bs, u)) ∧ (st ≠ tileUe) ∧ (st = stOk) ∧ (l.vector = true)) ∧
    (∃ (s : State) (t : Nat) (g : Nat) (l : _) (st : _) (bs : _) (u : _), (g = engineNo t) ∧ ((thread s t).waiting = .load l) ∧ ((thread s t).posted = []) ∧ ((thread s t).held = []) ∧ (l.place = .device) ∧ (devRead s (threadWho s t) l.addr l.size = (st, bs, u)) ∧ (st ≠ tileUe) ∧ (st ≠ stOk)) ∧
    (∃ (s : State) (t : Nat) (g : Nat) (st : _) (rest : _), (g = engineNo t) ∧ ((thread s t).posted = st :: rest) ∧ (st.place = .core) ∧ (olderStore s t st = false) ∧ ((thread s t).signals = []) ∧ ((thread s t).waiting = .none)) ∧
    (∃ (s : State) (t : Nat) (g : Nat), (g = engineNo t) ∧ ((thread s t).posted = [])) ∧
    (∃ (s : State) (t : Nat) (g : Nat) (st : _) (rest : _), (g = engineNo t) ∧ ((thread s t).posted = st :: rest) ∧ (olderStore s t st = true)) ∧
    (∃ (s : State) (t : Nat) (g : Nat) (c : CopyReq) (u : State), (g = engineNo t) ∧ ((engineOf s g).copies = [c]) ∧ (c.thread = t) ∧ (c.ahead = 0) ∧ ((thread s t).inst = some c.inst) ∧ (c.no = ((thread s t).done + 1) % 65536) ∧ (c.knot = none) ∧ (runCopy s c = (stOk, u)) ∧ ((∀ q, thread u q = thread s q)) ∧ ((engineOf u g).copies = [c]) ∧ ((∀ i, i < 64 → (thread s (g * 64 + i)).waiting = .none))) ∧
    (∃ (s : State) (t : Nat) (g : Nat), (g = engineNo t) ∧ ((threadWho s t).guarded = true) ∧ ((thread s t).inst ≠ none) ∧ ((thread s t).passNo < (thread s t).issueNo) ∧ ((thread s t).held = [])) ∧
    (∃ (s : State) (t : Nat) (g : Nat), (g = engineNo t) ∧ ((threadWho s t).guarded = true) ∧ ((thread s t).inst ≠ none) ∧ ((thread s t).passNo < (thread s t).issueNo)) ∧
    (∃ (s : State) (t : Nat) (g : Nat) (q : _) (c : Nat), (g = engineNo t) ∧ ((thread s t).waiting = .queue q) ∧ (q.answer = some c) ∧ (q.pop = false)) ∧
    (∃ (s : State) (t : Nat) (g : Nat) (q : _), (g = engineNo t) ∧ ((thread s t).waiting = .queue q) ∧ (q.answer = some 0) ∧ (q.pop = true)) ∧
    (∃ (s : State) (t : Nat) (g : Nat) (slot : _) (c : _) (done : _), (g = engineNo t) ∧ ((thread s t).calls = [c]) ∧ (c.slot = slot) ∧ (c.done = some done) ∧ ((thread s t).waiting = .none) ∧ (dSignalEn ⟨.call t slot, (threadWho s t).did, c.raw⟩ = false)) :=
  ⟨⟨w247, 4607, en 7 1 0 false 0 0 0, fun k => ((thread (upt [(1, 64), (2, 128), (3, 0), (4, 15)] []) 4607).xr ((en 7 1 0 false 0 0 0).a.toNat + k)).toNat, fun _ => rfl, by decide +kernel, by decide +kernel, by decide +kernel, by decide +kernel, by decide +kernel, by decide +kernel⟩,
   ⟨w248, 4607, en 7 1 0 false 0 0 0, fun k => ((thread ({ upt [(1, 64), (2, 128), (3, 0), (4, 15)] [] with eng.engines := [(71, { Engine.reset with copies := List.replicate 16 ({ thread := 4607, inst := 0, did := 1, guarded := false, flows := [], no := 1, ahead := 0, src := 64, dst := 128, srcStride := 0, dstStride := 0, rowBytes := 16, rows := 1, srcSpace := 0, dstSpace := 0, knot := none }) })] }) 4607).xr ((en 7 1 0 false 0 0 0).a.toNat + k)).toNat, fun _ => rfl, by decide +kernel, by decide +kernel, by decide +kernel, by decide +kernel, by decide +kernel, by decide +kernel⟩,
   ⟨w242, 4607, en 7 29 0 false 0 0 0, by decide +kernel⟩,
   ⟨w249, 4607, en 0 0 0 true 0 0 1, 1, by decide +kernel⟩,
   ⟨w250, 4607, en 0 0 0 true 0 0 1, 1, by decide +kernel⟩,
   ⟨w242, 4607, en 0 0 0 false 0 0 7, 7, by decide +kernel⟩,
   ⟨w251, 4607, en 0 0 0 false 0 0 1, 1, by decide +kernel⟩,
   ⟨w252, 4607, 71, by decide +kernel⟩,
   ⟨w253, 4607, 71, by decide +kernel⟩,
   ⟨w254, 4607, 71, 4096, 64, by decide +kernel⟩,
   ⟨w254, 4607, 71, 4096, 64, by decide +kernel⟩,
   ⟨w255, 4607, 71, 4096, 64, by decide +kernel⟩,
   ⟨w256, 4607, 71, { place := .core, addr := 64, size := 8, vector := false, signExt := false, d := 3 }, Space.key (.core (coreOfEngine 71)) 64, by decide +kernel⟩,
   ⟨w257, 4607, 71, { place := .core, addr := 64, size := 8, vector := true, signExt := false, d := 3 }, Space.key (.core (coreOfEngine 71)) 64, by decide +kernel⟩,
   ⟨w257, 4607, 71, { place := .core, addr := 64, size := 8, vector := true, signExt := false, d := 3 }, 2, by decide +kernel⟩,
   ⟨w9, 4607, 71, { place := .device, addr := 64, size := 8, vector := false, signExt := false, d := 3 }, (devRead (w9) (threadWho (w9) 4607) 64 8).1, (devRead (w9) (threadWho (w9) 4607) 64 8).2.1, (devRead (w9) (threadWho (w9) 4607) 64 8).2.2, by decide +kernel, by decide +kernel, by decide +kernel, by decide +kernel, by decide +kernel, rfl, by decide +kernel, by decide +kernel, by decide +kernel⟩,
   ⟨w10, 4607, 71, { place := .device, addr := 64, size := 8, vector := true, signExt := false, d := 3 }, (devRead (w10) (threadWho (w10) 4607) 64 8).1, (devRead (w10) (threadWho (w10) 4607) 64 8).2.1, (devRead (w10) (threadWho (w10) 4607) 64 8).2.2, by decide +kernel, by decide +kernel, by decide +kernel, by decide +kernel, by decide +kernel, rfl, by decide +kernel, by decide +kernel, by decide +kernel⟩,
   ⟨w11, 4607, 71, { place := .device, addr := 64, size := 8, vector := true, signExt := false, d := 3 }, (devRead (w11) (threadWho (w11) 4607) 64 8).1, (devRead (w11) (threadWho (w11) 4607) 64 8).2.1, (devRead (w11) (threadWho (w11) 4607) 64 8).2.2, by decide +kernel, by decide +kernel, by decide +kernel, by decide +kernel, by decide +kernel, rfl, by decide +kernel, by decide +kernel⟩,
   ⟨w258, 4607, 71, { place := .core, addr := 64, bytes := [1, 2, 3, 4], no := 0, inst := 0, did := 1, guarded := false, flows := [] }, [], by decide +kernel⟩,
   ⟨w242, 4607, 71, by decide +kernel⟩,
   ⟨w259, 4607, 71, ({ place := .core, addr := 64, bytes := [1, 2, 3, 4], no := 5, inst := 0, did := 1, guarded := false, flows := [] } : Store), [], by decide +kernel⟩,
   ⟨w260, 4607, 71, { thread := 4607, inst := 0, did := 1, guarded := false, flows := [], no := 1, ahead := 0, src := 64, dst := 128, srcStride := 0, dstStride := 0, rowBytes := 16, rows := 1, srcSpace := 0, dstSpace := 0, knot := none }, (runCopy ({ upm with eng.threads := [(4607, { Thread.reset with st := .ready, inst := some 0, issued := 1 })], eng.instances := [(0, { inst0 with threads := [63], windowBytes := 131072 })], eng.runs := [(0, run0)], eng.programs := [(5, prog0)], eng.engines := [(71, { Engine.reset with copies := [{ thread := 4607, inst := 0, did := 1, guarded := false, flows := [], no := 1, ahead := 0, src := 64, dst := 128, srcStride := 0, dstStride := 0, rowBytes := 16, rows := 1, srcSpace := 0, dstSpace := 0, knot := none }] })] }) ({ thread := 4607, inst := 0, did := 1, guarded := false, flows := [], no := 1, ahead := 0, src := 64, dst := 128, srcStride := 0, dstStride := 0, rowBytes := 16, rows := 1, srcSpace := 0, dstSpace := 0, knot := none })).2, by decide +kernel, by decide +kernel, by decide +kernel, by decide +kernel, by decide +kernel, by decide +kernel, by decide +kernel, by decide +kernel, fun _ => rfl, by decide +kernel, by decide +kernel⟩,
   ⟨w261, 4607, 71, by decide +kernel⟩,
   ⟨w261, 4607, 71, by decide +kernel⟩,
   ⟨w262, 4607, 71, { pop := false, queue := 9, d := 3, reg := 2, answer := some 0x101, data := [] }, 0x101, by decide +kernel⟩,
   ⟨w263, 4607, 71, { pop := true, queue := 9, d := 3, reg := 2, answer := some 0, data := [] }, by decide +kernel⟩,
   ⟨w264, 4607, 71, 7, { slot := 7, recOff := 64, raw := 0x0400, arrived := true, wait := .free, satisfied := true, done := some (0, 5, 6, 0) }, (0, 5, 6, 0), by decide +kernel⟩⟩

theorem test_witness_ThreadSignalsAndCalls :
    (∃ (s : State) (t : Nat) (e : Enc) (k : Nat) (v : _), (k = bitsOf (xa s t e).toNat 0 13) ∧ (v = (opB s t e).toNat) ∧ (Issues s t e (usesKnot e 3)) ∧ (e.m.getLsbD 1 = false) ∧ ((threadWho s t).guarded = false) ∧ ((thread s t).held = []) ∧ ((thread s t).posted = []) ∧ (signalCheck s (threadWho s t).did false k = stOk) ∧ ((knotOf s k).st ≠ .poisoned) ∧ (s.knots.cycle = none) ∧ (writesOpen s (threadSrc t) none = false) ∧ (s.oct.held.any (fun x => x.src == threadSrc t) = false) ∧ (e.m.getLsbD 0 = false) ∧ (v ≠ 0) ∧ (v < 2 ^ 31)) ∧
    (∃ (s : State) (t : Nat) (e : Enc) (k : Nat) (v : _), (k = bitsOf (xa s t e).toNat 0 13) ∧ (v = (opB s t e).toNat) ∧ (Issues s t e (usesKnot e 3)) ∧ (e.m.getLsbD 1 = false) ∧ ((threadWho s t).guarded = false) ∧ ((thread s t).held = []) ∧ ((thread s t).posted = []) ∧ (signalCheck s (threadWho s t).did false k = stOk) ∧ ((knotOf s k).st ≠ .poisoned) ∧ (s.knots.cycle = none) ∧ (writesOpen s (threadSrc t) none = false) ∧ (s.oct.held.any (fun x => x.src == threadSrc t) = false) ∧ (e.m.getLsbD 0 = true)) ∧
    (∃ (s : State) (t : Nat) (e : Enc) (k : Nat) (v : _), (k = bitsOf (xa s t e).toNat 0 13) ∧ (v = (opB s t e).toNat) ∧ (Issues s t e (usesKnot e 3)) ∧ (e.m.getLsbD 1 = false) ∧ ((threadWho s t).guarded = false) ∧ ((thread s t).held = []) ∧ ((thread s t).posted = []) ∧ (signalCheck s (threadWho s t).did false k = stOk) ∧ ((knotOf s k).st ≠ .poisoned) ∧ (s.knots.cycle = none) ∧ (writesOpen s (threadSrc t) none = false) ∧ (s.oct.held.any (fun x => x.src == threadSrc t) = false) ∧ (e.m.getLsbD 0 = false) ∧ (v = 0)) ∧
    (∃ (s : State) (t : Nat) (e : Enc) (k : Nat) (v : _), (k = bitsOf (xa s t e).toNat 0 13) ∧ (v = (opB s t e).toNat) ∧ (Issues s t e (usesKnot e 3)) ∧ (e.m = 0) ∧ ((threadWho s t).guarded = false) ∧ ((thread s t).held = []) ∧ ((thread s t).posted = []) ∧ (writesOpen s (threadSrc t) none = true) ∧ (v ≠ 0) ∧ (v < 2 ^ 31)) ∧
    (∃ (s : State) (t : Nat) (e : Enc) (k : Nat) (v : _), (k = bitsOf (xa s t e).toNat 0 13) ∧ (v = (if e.i then e.imm else (xb s t e).truncate 32)) ∧ (Issues s t e (usesKnot e 2)) ∧ (e.m.getLsbD 1 = false) ∧ ((knotOf s k).st ≠ .poisoned)) ∧
    (∃ (s : State) (t : Nat) (e : Enc) (k : Nat) (v : _), (k = bitsOf (xa s t e).toNat 0 13) ∧ (v = (if e.i then e.imm else (xb s t e).truncate 32)) ∧ (Issues s t e (usesKnot e 2)) ∧ (e.m.getLsbD 1 = false) ∧ ((knotOf s k).st = .poisoned)) ∧
    (∃ (s : State) (t : Nat) (e : Enc) (k : Nat), (k = bitsOf (xa s t e).toNat 0 13) ∧ (Issues s t e { d := true, a := true, m := 2 }) ∧ (e.m.getLsbD 1 = false) ∧ ((knotOf s k).st ≠ .poisoned)) ∧
    (∃ (s : State) (t : Nat) (e : Enc) (k : Nat) (q : _) (x : _) (w : _), (k = bitsOf (xa s t e).toNat 0 13) ∧ (q = (xa s t e).toNat % 2 ^ 17) ∧ (x = queueOf s q) ∧ (w = threadWho s t) ∧ (x.usable w.did = true) ∧ (x.pointersOk = true) ∧ (x.blocked = []) ∧ (w.guarded = false) ∧ ((thread s t).held = []) ∧ (Issues s t e { d := true, a := true, b := true, vb := true }) ∧ (2 ^ x.entriesLog2 ≤ x.count) ∧ (x.refuse = true)) ∧
    (∃ (s : State) (t : Nat) (e : Enc) (k : Nat) (q : _) (x : _) (w : _) (u : State), (k = bitsOf (xa s t e).toNat 0 13) ∧ (q = (xa s t e).toNat % 2 ^ 17) ∧ (x = queueOf s q) ∧ (w = threadWho s t) ∧ (x.usable w.did = true) ∧ (x.pointersOk = true) ∧ (x.blocked = []) ∧ (w.guarded = false) ∧ ((thread s t).held = []) ∧ (Issues s t e { d := true, a := true, b := true, vb := true }) ∧ (x.count < 2 ^ x.entriesLog2) ∧ (x.dataKnot = none) ∧ (devWrite (setThread s t { stepped s t with st := .wait .queue, waiting := .queue { pop := false, queue := q, d := e.d.toNat, reg := e.b.toNat, answer := none, data := [] } }) (queueWho x q) (x.base + x.tail.toNat % 2 ^ x.entriesLog2 * 2 ^ x.widthLog2) ((leBytes 256 ((thread s t).vr e.b.toNat).toNat).take (2 ^ x.widthLog2)) = (stOk, u))) ∧
    (∃ (s : State) (t : Nat) (e : Enc) (k : Nat) (q : _) (x : _) (w : _), (k = bitsOf (xa s t e).toNat 0 13) ∧ (q = (xa s t e).toNat % 2 ^ 17) ∧ (x = queueOf s q) ∧ (w = threadWho s t) ∧ (x.usable w.did = true) ∧ (x.pointersOk = true) ∧ (x.blocked = []) ∧ (w.guarded = false) ∧ ((thread s t).held = []) ∧ (Issues s t e { d := true, a := true, b := true, vb := true }) ∧ (2 ^ x.entriesLog2 ≤ x.count) ∧ (x.refuse = false)) ∧
    (∃ (s : State) (t : Nat) (e : Enc) (k : Nat) (q : _) (x : _) (w : _), (k = bitsOf (xa s t e).toNat 0 13) ∧ (q = (xa s t e).toNat % 2 ^ 17) ∧ (x = queueOf s q) ∧ (w = threadWho s t) ∧ (x.usable w.did = true) ∧ (x.pointersOk = true) ∧ (x.blocked = []) ∧ (w.guarded = false) ∧ ((thread s t).held = []) ∧ (Issues s t e { d := true, a := true, b := true, vb := true }) ∧ (x.count = 0)) ∧
    (∃ (s : State) (t : Nat) (e : Enc) (k : Nat) (q : _) (x : _) (w : _) (u : State) (bs : List Byte), (k = bitsOf (xa s t e).toNat 0 13) ∧ (q = (xa s t e).toNat % 2 ^ 17) ∧ (x = queueOf s q) ∧ (w = threadWho s t) ∧ (x.usable w.did = true) ∧ (x.pointersOk = true) ∧ (x.blocked = []) ∧ (w.guarded = false) ∧ ((thread s t).held = []) ∧ (Issues s t e { d := true, a := true, b := true, vb := true }) ∧ (x.count ≠ 0) ∧ (x.spaceKnot = none) ∧ (devRead (setThread s t { stepped s t with st := .wait .queue, waiting := .queue { pop := true, queue := q, d := e.d.toNat, reg := e.b.toNat, answer := none, data := [] } }) (queueWho x q) (x.base + x.head.toNat % 2 ^ x.entriesLog2 * 2 ^ x.widthLog2) (2 ^ x.widthLog2) = (stOk, bs, u))) ∧
    (∃ (s : State) (t : Nat) (e : Enc) (k : Nat) (i : _) (desc : _) (rcd : _), (k = bitsOf (xa s t e).toNat 0 13) ∧ (Issues s t e { d := true, a := true, b := true }) ∧ (instOf s t = some i) ∧ (desc = (xa s t e).toNat) ∧ (rcd = (xb s t e).toNat) ∧ ((threadWho s t).guarded = false) ∧ ((thread s t).held = []) ∧ (desc % 256 = 0) ∧ (rcd % 32 = 0) ∧ (desc + 64 ≤ i.windowBytes) ∧ (rcd + 32 ≤ i.windowBytes) ∧ ((thread s t).calls = []) ∧ (badIn s (Space.key (.tile (engineNo t)) (i.window + desc)) 64 = false)) ∧
    (∃ (s : State) (t : Nat) (e : Enc) (k : Nat) (i : _) (desc : _) (rcd : _), (k = bitsOf (xa s t e).toNat 0 13) ∧ (Issues s t e { d := true, a := true, b := true }) ∧ (instOf s t = some i) ∧ (desc = (xa s t e).toNat) ∧ (rcd = (xb s t e).toNat) ∧ ((threadWho s t).guarded = false) ∧ ((thread s t).held = []) ∧ (desc % 256 ≠ 0)) :=
  ⟨⟨w265, 4607, en 0 1 2 false 0 0 0, 1024, (opB (w265) (4607) (en 0 1 2 false 0 0 0)).toNat, by decide +kernel⟩,
   ⟨w266, 4607, en 0 1 2 false 0 1 0, 1024, (opB (w266) (4607) (en 0 1 2 false 0 1 0)).toNat, by decide +kernel⟩,
   ⟨w267, 4607, en 0 1 2 false 0 0 0, 1024, (opB (w267) (4607) (en 0 1 2 false 0 0 0)).toNat, by decide +kernel⟩,
   ⟨w268, 4607, en 0 1 2 false 0 0 0, 1024, (opB (w268) (4607) (en 0 1 2 false 0 0 0)).toNat, by decide +kernel⟩,
   ⟨w269, 4607, en 0 1 2 false 0 0 0, 1024, 5, by decide +kernel⟩,
   ⟨w270, 4607, en 0 1 2 false 0 0 0, 1024, 5, by decide +kernel⟩,
   ⟨w269, 4607, en 3 1 0 false 0 0 0, 1024, by decide +kernel⟩,
   ⟨w271, 4607, en 3 1 2 false 0 0 0, 8191, 131071, { Queue.reset with active := true, owner := 1, entriesLog2 := 3, widthLog2 := 5, base := 0x20000, tail := 8, tailInv := 0xFFFFFFF7, refuse := true }, threadWho (w271) (4607), by decide +kernel, by decide +kernel, by decide +kernel, rfl, by decide +kernel, by decide +kernel, by decide +kernel, by decide +kernel, by decide +kernel, by decide +kernel, by decide +kernel, by decide +kernel⟩,
   ⟨w12, 4607, en 3 1 2 false 0 0 0, 8191, 131071, { Queue.reset with active := true, owner := 1, entriesLog2 := 3, widthLog2 := 5, base := 0x20000 }, threadWho (w12) (4607), (devWrite (setThread (w12) 4607 { stepped (w12) 4607 with st := .wait .queue, waiting := .queue { pop := false, queue := 131071, d := 3, reg := 2, answer := none, data := [] } }) (queueWho ({ Queue.reset with active := true, owner := 1, entriesLog2 := 3, widthLog2 := 5, base := 0x20000 }) 131071) 0x20000 ((leBytes 256 0x0102030405).take 32)).2, by decide +kernel, by decide +kernel, by decide +kernel, rfl, by decide +kernel, by decide +kernel, by decide +kernel, by decide +kernel, by decide +kernel, by decide +kernel, by decide +kernel, by decide +kernel, Prod.ext (by decide +kernel) rfl⟩,
   ⟨w272, 4607, en 3 1 2 false 0 0 0, 8191, 131071, { Queue.reset with active := true, owner := 1, entriesLog2 := 3, widthLog2 := 5, base := 0x20000, tail := 8, tailInv := 0xFFFFFFF7 }, threadWho (w272) (4607), by decide +kernel, by decide +kernel, by decide +kernel, rfl, by decide +kernel, by decide +kernel, by decide +kernel, by decide +kernel, by decide +kernel, by decide +kernel, by decide +kernel, by decide +kernel⟩,
   ⟨w12, 4607, en 3 1 2 false 0 0 0, 8191, 131071, { Queue.reset with active := true, owner := 1, entriesLog2 := 3, widthLog2 := 5, base := 0x20000 }, threadWho (w12) (4607), by decide +kernel, by decide +kernel, by decide +kernel, rfl, by decide +kernel, by decide +kernel, by decide +kernel, by decide +kernel, by decide +kernel, by decide +kernel, by decide +kernel⟩,
   ⟨w13, 4607, en 3 1 2 false 0 0 0, 8191, 131071, { Queue.reset with active := true, owner := 1, entriesLog2 := 3, widthLog2 := 5, base := 0x20000, tail := 1, tailInv := 0xFFFFFFFE }, threadWho (w13) (4607), (devRead (setThread (w13) 4607 { stepped (w13) 4607 with st := .wait .queue, waiting := .queue { pop := true, queue := 131071, d := 3, reg := 2, answer := none, data := [] } }) (queueWho ({ Queue.reset with active := true, owner := 1, entriesLog2 := 3, widthLog2 := 5, base := 0x20000, tail := 1, tailInv := 0xFFFFFFFE }) 131071) 0x20000 32).2.2, (devRead (setThread (w13) 4607 { stepped (w13) 4607 with st := .wait .queue, waiting := .queue { pop := true, queue := 131071, d := 3, reg := 2, answer := none, data := [] } }) (queueWho ({ Queue.reset with active := true, owner := 1, entriesLog2 := 3, widthLog2 := 5, base := 0x20000, tail := 1, tailInv := 0xFFFFFFFE }) 131071) 0x20000 32).2.1, by decide +kernel, by decide +kernel, by decide +kernel, rfl, by decide +kernel, by decide +kernel, by decide +kernel, by decide +kernel, by decide +kernel, by decide +kernel, by decide +kernel, by decide +kernel, Prod.ext (by decide +kernel) rfl⟩,
   ⟨w269, 4607, en 3 4 6 false 0 0 0, 256, { inst0 with threads := [63], windowBytes := 131072 }, 256, 64, by decide +kernel⟩,
   ⟨w269, 4607, en 3 6 6 false 0 0 0, 64, { inst0 with threads := [63], windowBytes := 131072 }, 64, 64, by decide +kernel⟩⟩

theorem test_witness_ControlFlow :
    (∃ (s : State) (t : Nat) (e : Enc) (base : Nat) (len : Nat) (p : Nat) (a : W64) (b : W64), (codeRange s t = some (base, len)) ∧ ((p : Int) = (thread s t).pc + e.imm.toInt) ∧ (a = xa s t e) ∧ (b = xb s t e) ∧ (Issues s t e { a := true, b := true, imm := immAll }) ∧ (8 * p < len)) ∧
    (∃ (s : State) (t : Nat) (e : Enc) (base : Nat) (len : Nat) (p : Nat) (a : W64) (b : W64), (codeRange s t = some (base, len)) ∧ ((p : Int) = (thread s t).pc + e.imm.toInt) ∧ (a = xa s t e) ∧ (b = xb s t e) ∧ (Issues s t e { a := true, b := true, imm := immAll }) ∧ (len ≤ 8 * p) ∧ (a = b)) ∧
    (∃ (s : State) (t : Nat) (e : Enc) (base : Nat) (len : Nat) (p : Nat) (a : W64) (b : W64), (codeRange s t = some (base, len)) ∧ ((p : Int) = (thread s t).pc + e.imm.toInt) ∧ (a = xa s t e) ∧ (b = xb s t e) ∧ (Issues s t e { a := true, b := true, imm := immAll }) ∧ (len ≤ 8 * p) ∧ (a ≠ b)) ∧
    (∃ (s : State) (t : Nat) (e : Enc) (base : Nat) (len : Nat) (p : Nat) (a : W64) (b : W64), (codeRange s t = some (base, len)) ∧ ((p : Int) = (thread s t).pc + e.imm.toInt) ∧ (a = xa s t e) ∧ (b = xb s t e) ∧ (Issues s t e { imm := immAll }) ∧ (8 * p < len)) ∧
    (∃ (s : State) (t : Nat) (e : Enc) (base : Nat) (len : Nat) (p : Nat) (a : W64) (b : W64), (codeRange s t = some (base, len)) ∧ ((p : Int) = (thread s t).pc + e.imm.toInt) ∧ (a = xa s t e) ∧ (b = xb s t e) ∧ (Issues s t e { imm := immAll }) ∧ (len ≤ 8 * p)) ∧
    (∃ (s : State) (t : Nat) (e : Enc) (base : Nat) (len : Nat) (p : Nat) (a : W64) (b : W64), (codeRange s t = some (base, len)) ∧ ((p : Int) = (thread s t).pc + e.imm.toInt) ∧ (a = xa s t e) ∧ (b = xb s t e) ∧ (Issues s t e { d := true, imm := immAll }) ∧ (len ≤ 8 * p)) ∧
    (∃ (s : State) (t : Nat) (e : Enc) (base : Nat) (len : Nat) (p : Nat) (a : W64) (b : W64), (codeRange s t = some (base, len)) ∧ ((p : Int) = (thread s t).pc + e.imm.toInt) ∧ (a = xa s t e) ∧ (b = xb s t e) ∧ (Issues s t e { d := true, imm := immAll }) ∧ (8 * p < len)) ∧
    (∃ (s : State) (t : Nat) (e : Enc) (base : Nat) (len : Nat) (p : Nat) (a : W64) (b : W64), (codeRange s t = some (base, len)) ∧ ((p : Int) = (thread s t).pc + e.imm.toInt) ∧ (a = xa s t e) ∧ (b = xb s t e) ∧ (Issues s t e { a := true }) ∧ (a.toNat % 8 = 0) ∧ (a.toNat < len)) ∧
    (∃ (s : State) (t : Nat) (e : Enc) (base : Nat) (len : Nat) (p : Nat) (a : W64) (b : W64), (codeRange s t = some (base, len)) ∧ ((p : Int) = (thread s t).pc + e.imm.toInt) ∧ (a = xa s t e) ∧ (b = xb s t e) ∧ (Issues s t e { a := true }) ∧ (a.toNat % 8 ≠ 0 ∨ len ≤ a.toNat)) ∧
    (∃ (s : State) (t : Nat) (e : Enc) (base : Nat) (len : Nat) (p : Nat) (a : W64) (b : W64), (codeRange s t = some (base, len)) ∧ ((p : Int) = (thread s t).pc + e.imm.toInt) ∧ (a = xa s t e) ∧ (b = xb s t e) ∧ (Issues s t e { imm := 0x7F }) ∧ ((thread s t).flags &&& bitsOf e.imm.toNat 0 7 = 0)) ∧
    (∃ (s : State) (t : Nat) (e : Enc) (base : Nat) (len : Nat) (p : Nat) (a : W64) (b : W64), (codeRange s t = some (base, len)) ∧ ((p : Int) = (thread s t).pc + e.imm.toInt) ∧ (a = xa s t e) ∧ (b = xb s t e) ∧ (Issues s t e { imm := 0x7F }) ∧ ((thread s t).flags &&& bitsOf e.imm.toNat 0 7 ≠ 0)) ∧
    (∃ (s : State) (t : Nat) (e : Enc) (base : Nat) (len : Nat) (p : Nat) (a : W64) (b : W64), (codeRange s t = some (base, len)) ∧ ((p : Int) = (thread s t).pc + e.imm.toInt) ∧ (a = xa s t e) ∧ (b = xb s t e) ∧ (Issues s t e {}) ∧ ((threadWho s t).guarded = false) ∧ ((thread s t).held = [])) ∧
    (∃ (s : State) (t : Nat) (e : Enc), (codeRange s t = none ∨ ((thread s t).pc : Int) + e.imm.toInt < 0) ∧ (Issues s t e { imm := immAll })) :=
  ⟨⟨w273, 4607, en 0 1 2 false 0 0 7, 4096, 64, 7, 56, 56, by decide +kernel⟩,
   ⟨w273, 4607, en 0 1 2 false 0 0 8, 4096, 64, 8, 56, 56, by decide +kernel⟩,
   ⟨w273, 4607, en 0 1 4 false 0 0 8, 4096, 64, 8, 56, 64, by decide +kernel⟩,
   ⟨w273, 4607, en 0 0 0 false 0 0 7, 4096, 64, 7, 0, 0, by decide +kernel⟩,
   ⟨w273, 4607, en 0 0 0 false 0 0 8, 4096, 64, 8, 0, 0, by decide +kernel⟩,
   ⟨w273, 4607, en 3 0 0 false 0 0 8, 4096, 64, 8, 0, 0, by decide +kernel⟩,
   ⟨w273, 4607, en 3 0 0 false 0 0 7, 4096, 64, 7, 0, 0, by decide +kernel⟩,
   ⟨w273, 4607, en 0 1 0 false 0 0 0, 4096, 64, 0, 56, 0, by decide +kernel⟩,
   ⟨w273, 4607, en 0 4 0 false 0 0 0, 4096, 64, 0, 64, 0, by decide +kernel⟩,
   ⟨w273, 4607, en 0 0 0 false 0 0 3, 4096, 64, 3, 0, 0, by decide +kernel⟩,
   ⟨w273, 4607, en 0 0 0 false 0 0 4, 4096, 64, 4, 0, 0, by decide +kernel⟩,
   ⟨w273, 4607, en 0 0 0 false 0 0 0, 4096, 64, 0, 0, 0, by decide +kernel⟩,
   ⟨w274, 4607, en 0 0 0 false 0 0 8, by decide +kernel⟩⟩

theorem test_witness_LayoutOperations :
    (∃ (s : State) (d : Desc) (j : Job) (n : Nat) (c : Instr) (o : OpInfo), (j = { desc := d, on_ := if n < 4 then some n else none, start := s.up, first := 0, count := 0, pend := none }) ∧ (s.lyt.waiting = []) ∧ ((c = .lytCopy d ∧ o = infoLytCopy s d ∧ n = dfld d 51 0 3) ∨ (c = .lytFill d ∧ o = infoLytFill s d ∧ n = dfld d 51 0 3) ∨ (c = .lytGather d ∧ o = infoLytGather s d ∧ n = dfld d 45 0 3 ∧ dfld d 40 0 24 ≠ 0 ∧ dfld d 44 4 2 = 0) ∨ (c = .lytScatter d ∧ o = infoLytScatter s d ∧ n = dfld d 45 0 3 ∧ dfld d 40 0 24 ≠ 0 ∧ dfld d 44 4 2 ≤ 1)) ∧ (Accepted s d o) ∧ (4 < n)) ∧
    (∃ (s : State) (d : Desc) (j : Job) (n : Nat) (c : Instr) (o : OpInfo), (j = { desc := d, on_ := if n < 4 then some n else none, start := s.up, first := 0, count := 0, pend := none }) ∧ (s.lyt.waiting = []) ∧ ((c = .lytCopy d ∧ o = infoLytCopy s d ∧ n = dfld d 51 0 3) ∨ (c = .lytFill d ∧ o = infoLytFill s d ∧ n = dfld d 51 0 3) ∨ (c = .lytGather d ∧ o = infoLytGather s d ∧ n = dfld d 45 0 3 ∧ dfld d 40 0 24 ≠ 0 ∧ dfld d 44 4 2 = 0) ∨ (c = .lytScatter d ∧ o = infoLytScatter s d ∧ n = dfld d 45 0 3 ∧ dfld d 40 0 24 ≠ 0 ∧ dfld d 44 4 2 ≤ 1)) ∧ (Accepted s d o) ∧ (n < 4) ∧ (inService (markStarted s d) (layoutUnit n) = false)) ∧
    (∃ (s : State) (d : Desc) (j : Job) (n : Nat) (i : Nat) (rest : List Nat) (c : Instr) (o : OpInfo), (j = { desc := d, on_ := if n < 4 then some n else none, start := s.up, first := 0, count := 0, pend := none }) ∧ (s.lyt.waiting = []) ∧ ((c = .lytCopy d ∧ o = infoLytCopy s d ∧ n = dfld d 51 0 3) ∨ (c = .lytFill d ∧ o = infoLytFill s d ∧ n = dfld d 51 0 3) ∨ (c = .lytGather d ∧ o = infoLytGather s d ∧ n = dfld d 45 0 3 ∧ dfld d 40 0 24 ≠ 0 ∧ dfld d 44 4 2 = 0) ∨ (c = .lytScatter d ∧ o = infoLytScatter s d ∧ n = dfld d 45 0 3 ∧ dfld d 40 0 24 ≠ 0 ∧ dfld d 44 4 2 ≤ 1)) ∧ (Accepted s d o) ∧ (n ≤ 4) ∧ ((n < 4 → inService (markStarted s d) (layoutUnit n) = true)) ∧ (lytFree (markStarted s d) j = i :: rest)) ∧
    (∃ (s : State) (d : Desc) (j : Job) (n : Nat) (c : Instr) (o : OpInfo), (j = { desc := d, on_ := if n < 4 then some n else none, start := s.up, first := 0, count := 0, pend := none }) ∧ (s.lyt.waiting = []) ∧ ((c = .lytCopy d ∧ o = infoLytCopy s d ∧ n = dfld d 51 0 3) ∨ (c = .lytFill d ∧ o = infoLytFill s d ∧ n = dfld d 51 0 3) ∨ (c = .lytGather d ∧ o = infoLytGather s d ∧ n = dfld d 45 0 3 ∧ dfld d 40 0 24 ≠ 0 ∧ dfld d 44 4 2 = 0) ∨ (c = .lytScatter d ∧ o = infoLytScatter s d ∧ n = dfld d 45 0 3 ∧ dfld d 40 0 24 ≠ 0 ∧ dfld d 44 4 2 ≤ 1)) ∧ (Accepted s d o) ∧ (n ≤ 4) ∧ ((n < 4 → inService (markStarted s d) (layoutUnit n) = true)) ∧ (lytFree (markStarted s d) j = [])) ∧
    (∃ (s : State) (d : Desc) (j : Job) (n : Nat), (j = { desc := d, on_ := if n < 4 then some n else none, start := s.up, first := 0, count := 0, pend := none }) ∧ (s.lyt.waiting = []) ∧ (Accepted s d (infoLytGather s d)) ∧ (dfld d 40 0 24 = 0 ∨ dfld d 44 4 2 ≠ 0)) ∧
    (∃ (s : State) (d : Desc) (j : Job) (n : Nat), (j = { desc := d, on_ := if n < 4 then some n else none, start := s.up, first := 0, count := 0, pend := none }) ∧ (s.lyt.waiting = []) ∧ (Accepted s d (infoLytScatter s d)) ∧ (dfld d 40 0 24 = 0 ∨ 2 ≤ dfld d 44 4 2)) ∧
    (∃ (s : State) (d : Desc) (j : Job) (n : Nat) (i : Nat), (j = { desc := d, on_ := if n < 4 then some n else none, start := s.up, first := 0, count := 0, pend := none }) ∧ (s.lyt.waiting = []) ∧ ((lytOf s i).job = none)) ∧
    (∃ (s : State) (d : Desc) (j : Job) (n : Nat) (i : Nat) (q : _) (r : _), (j = { desc := d, on_ := if n < 4 then some n else none, start := s.up, first := 0, count := 0, pend := none }) ∧ (s.lyt.waiting = []) ∧ ((lytOf s i).job = some q) ∧ (r = lytOutcome s q.desc (lytWho s q.desc i) (lytOf s i).descs none) ∧ (r.s.lyt.waiting = [])) :=
  ⟨⟨up, mk 1 0x0E00 [(16, 4096), (24, 8192), (48, 0), (51, 5)], ({ desc := mk 1 0x0E00 [(16, 4096), (24, 8192), (48, 0), (51, 5)], on_ := none, start := 0, first := 0, count := 0, pend := none } : Job), 5, .lytCopy (mk 1 0x0E00 [(16, 4096), (24, 8192), (48, 0), (51, 5)]), infoLytCopy (up) (mk 1 0x0E00 [(16, 4096), (24, 8192), (48, 0), (51, 5)]), by decide +kernel, by decide +kernel, .inl ⟨rfl, rfl, by decide +kernel⟩, by decide +kernel, by decide +kernel⟩,
   ⟨w14, mk 1 0x0E03 [(16, 4096), (51, 3), (52, 7)], ({ desc := mk 1 0x0E03 [(16, 4096), (51, 3), (52, 7)], on_ := some 3, start := 0, first := 0, count := 0, pend := none } : Job), 3, .lytFill (mk 1 0x0E03 [(16, 4096), (51, 3), (52, 7)]), infoLytFill (w14) (mk 1 0x0E03 [(16, 4096), (51, 3), (52, 7)]), by decide +kernel, by decide +kernel, .inr (.inl ⟨rfl, rfl, by decide +kernel⟩), by decide +kernel, by decide +kernel, by decide +kernel⟩,
   ⟨up, mk 1 0x0E00 [(16, 4096), (24, 8192), (48, 0), (51, 4)], ({ desc := mk 1 0x0E00 [(16, 4096), (24, 8192), (48, 0), (51, 4)], on_ := none, start := 0, first := 0, count := 0, pend := none } : Job), 4, 0, [1, 2, 3], .lytCopy (mk 1 0x0E00 [(16, 4096), (24, 8192), (48, 0), (51, 4)]), infoLytCopy (up) (mk 1 0x0E00 [(16, 4096), (24, 8192), (48, 0), (51, 4)]), by decide +kernel, by decide +kernel, .inl ⟨rfl, rfl, by decide +kernel⟩, by decide +kernel, by decide +kernel, by decide +kernel, by decide +kernel⟩,
   ⟨w15, mk 1 0x0E00 [(16, 4096), (24, 8192), (48, 0), (51, 4)], ({ desc := mk 1 0x0E00 [(16, 4096), (24, 8192), (48, 0), (51, 4)], on_ := none, start := 0, first := 0, count := 0, pend := none } : Job), 4, .lytCopy (mk 1 0x0E00 [(16, 4096), (24, 8192), (48, 0), (51, 4)]), infoLytCopy (w15) (mk 1 0x0E00 [(16, 4096), (24, 8192), (48, 0), (51, 4)]), by decide +kernel, by decide +kernel, .inl ⟨rfl, rfl, by decide +kernel⟩, by decide +kernel, by decide +kernel, by decide +kernel, by decide +kernel⟩,
   ⟨up, mk 1 0x0E01 [(16, 4096), (24, 8192), (32, 12288), (40, 0), (45, 4)], ({ desc := mk 1 0x0E01 [(16, 4096), (24, 8192), (32, 12288), (40, 0), (45, 4)], on_ := none, start := 0, first := 0, count := 0, pend := none } : Job), 4, by decide +kernel⟩,
   ⟨up, mk 1 0x0E02 [(16, 4096), (24, 8192), (32, 12288), (40, 0), (45, 4)], ({ desc := mk 1 0x0E02 [(16, 4096), (24, 8192), (32, 12288), (40, 0), (45, 4)], on_ := none, start := 0, first := 0, count := 0, pend := none } : Job), 4, by decide +kernel⟩,
   ⟨up, mk 1 0x0E00 [(16, 4096), (24, 8192), (48, 0), (51, 4)], ({ desc := mk 1 0x0E00 [(16, 4096), (24, 8192), (48, 0), (51, 4)], on_ := none, start := 0, first := 0, count := 0, pend := none } : Job), 4, 3, by decide +kernel⟩,
   ⟨w275, mk 1 0x0E00 [(16, 4096), (24, 8192), (48, 0), (51, 4)], ({ desc := mk 1 0x0E00 [(16, 4096), (24, 8192), (48, 0), (51, 4)], on_ := none, start := 0, first := 0, count := 0, pend := none } : Job), 4, 3, ({ desc := mk 1 0x0E03 [(16, 4096), (51, 4), (52, 7)], on_ := none, start := 0, first := 0, count := 0, pend := none } : Job), lytOutcome (w275) (({ desc := mk 1 0x0E03 [(16, 4096), (51, 4), (52, 7)], on_ := none, start := 0, first := 0, count := 0, pend := none } : Job)).desc (lytWho (w275) (({ desc := mk 1 0x0E03 [(16, 4096), (51, 4), (52, 7)], on_ := none, start := 0, first := 0, count := 0, pend := none } : Job)).desc (3)) (lytOf (w275) (3)).descs none, by decide +kernel, by decide +kernel, by decide +kernel, rfl, by decide +kernel⟩⟩

theorem test_witness_SequenceManagement :
    (∃ (s : State) (d : Desc) (p : _) (n : _), (p = dfld d 16 0 4) ∧ (n = dfld d 32 0 22) ∧ (Accepted s d (infoSeqPool s d)) ∧ (s.seq.seqs.any (fun q => q.2.active && q.2.pool == p) = true ∨ (dbit d 17 0 = true ∧ (n = 0 ∨ 3670016 < n ∨ dfld d 24 0 48 % 65536 ≠ 0)))) ∧
    (∃ (s : State) (d : Desc) (p : _) (n : _), (p = dfld d 16 0 4) ∧ (n = dfld d 32 0 22) ∧ (Accepted s d (infoSeqPool s d)) ∧ (s.seq.seqs.any (fun q => q.2.active && q.2.pool == p) = false) ∧ (dbit d 17 0 = false ∨ (1 ≤ n ∧ n ≤ 3670016 ∧ dfld d 24 0 48 % 65536 = 0))) ∧
    (∃ (s : State) (d : Desc) (k : Nat) (q : Seq), (k = dfld d 16 0 14) ∧ (Accepted s d (infoSeqCreate s d)) ∧ (q = ({ seqRec0 with ownerDid := d.did, pool := dfld d 18 0 4, policy := dfld d 18 4 2, layers := dfld d 19 0 6 + 1, heads := dfld d 20 0 4 + 1, width := 32 * (dfld d 21 0 3 + 1), format := dfld d 22 0 2, flow := dfld d 24 0 12, reservedPages := dfld d 28 0 17, stallUs := if dfld d 32 0 32 = 0 then 1000 else dfld d 32 0 32, base := dfld d 40 0 48, count := 0, held := [] } : Seq)) ∧ ((seqOf s k).isSome = true ∨ (poolOf s q.pool).enable = false ∨ (poolOf s q.pool).owner ≠ d.did ∨ (poolOf s q.pool).guarded = true ∨ q.policy = 3 ∨ q.rpp = 0 ∨ q.reservedPages = 0 ∨ 65536 < q.reservedPages * q.rpp ∨ 1000000 < q.stallUs ∨ q.base % 65536 ≠ 0 ∨ 2 ^ 48 < q.base + q.reservedPages * 65536 ∨ (s.cfg.flows.find q.flow).any (fun f => !f.guarded) = false ∨ seqRangeUsed (markStarted s d) d.did (q.base / 65536) q.reservedPages = true)) ∧
    (∃ (s : State) (d : Desc) (k : Nat) (q : Seq), (k = dfld d 16 0 14) ∧ (Accepted s d (infoSeqCreate s d)) ∧ (q = ({ seqRec0 with ownerDid := d.did, pool := dfld d 18 0 4, policy := dfld d 18 4 2, layers := dfld d 19 0 6 + 1, heads := dfld d 20 0 4 + 1, width := 32 * (dfld d 21 0 3 + 1), format := dfld d 22 0 2, flow := dfld d 24 0 12, reservedPages := dfld d 28 0 17, stallUs := if dfld d 32 0 32 = 0 then 1000 else dfld d 32 0 32, base := dfld d 40 0 48, count := 0, held := [] } : Seq)) ∧ ((seqOf s k).isSome = false) ∧ ((poolOf s q.pool).enable = true) ∧ ((poolOf s q.pool).owner = d.did) ∧ ((poolOf s q.pool).guarded = false) ∧ (q.policy ≠ 3) ∧ (q.rpp ≠ 0) ∧ (q.reservedPages ≠ 0) ∧ (q.reservedPages * q.rpp ≤ 65536) ∧ (q.stallUs ≤ 1000000) ∧ (q.base % 65536 = 0) ∧ (q.base + q.reservedPages * 65536 ≤ 2 ^ 48) ∧ ((s.cfg.flows.find q.flow).any (fun f => !f.guarded) = true) ∧ (seqRangeUsed (markStarted s d) d.did (q.base / 65536) q.reservedPages = false)) ∧
    (∃ (s : State) (d : Desc) (k : Nat) (q : _), (k = dfld d 16 0 14) ∧ (seqOf s k = some q) ∧ (Accepted s d (infoSeqInfo s d)) ∧ (seqAccess d q = stOk)) ∧
    (∃ (s : State) (d : Desc) (k : Nat) (q : _), (k = dfld d 16 0 14) ∧ (seqOf s k = some q) ∧ (Accepted s d (infoSeqInfo s d)) ∧ (q.ownerDid ≠ d.did) ∧ (1 < d.did)) ∧
    (∃ (s : State) (d : Desc) (k : Nat) (q : _), (k = dfld d 16 0 14) ∧ (seqOf s k = some q) ∧ (Accepted s d (infoSeqDestroy s d)) ∧ (dOpcode d = 0x0C02) ∧ (q.ownerDid = d.did ∨ d.did ≤ 1) ∧ (attendReads s k 0 (2 ^ 64) = false)) ∧
    (∃ (s : State) (d : Desc) (k : Nat) (q : _), (k = dfld d 16 0 14) ∧ (seqOf s k = some q) ∧ (Accepted s d (infoSeqDestroy s d)) ∧ (dOpcode d = 0x0C02) ∧ (q.ownerDid = d.did ∨ d.did ≤ 1) ∧ (attendReads s k 0 (2 ^ 64) = true)) ∧
    (∃ (s : State) (d : Desc) (k : Nat) (q : _) (t : State), (k = dfld d 16 0 14) ∧ (seqOf s k = some q) ∧ (q.waiting = []) ∧ (t = destroySeq s k q)) ∧
    (∃ (s : State) (d : Desc) (k : Nat) (q : _) (t : State) (i : _), (k = dfld d 16 0 14) ∧ (seqOf s k = some q) ∧ (q.waiting = []) ∧ (t = destroySeq s k q) ∧ (i ∈ (poolOf t q.pool).taken)) ∧
    (∃ (s : State) (d : Desc) (k : Nat) (q : _) (n : _), (k = dfld d 16 0 14) ∧ (seqOf s k = some q) ∧ (Accepted s d (infoSeqTrim s d)) ∧ (dOpcode d ≠ 0x0C02) ∧ (seqAccess d q = stOk) ∧ (n = trimCount q (dfld d 24 0 64)) ∧ (attendReads s k (q.firstPage * q.rpp) ((q.firstPage + n) * q.rpp) = true)) ∧
    (∃ (s : State) (d : Desc) (k : Nat) (q : _) (n : _), (k = dfld d 16 0 14) ∧ (seqOf s k = some q) ∧ (Accepted s d (infoSeqTrim s d)) ∧ (dOpcode d ≠ 0x0C02) ∧ (seqAccess d q = stOk) ∧ (n = trimCount q (dfld d 24 0 64)) ∧ (attendReads s k (q.firstPage * q.rpp) ((q.firstPage + n) * q.rpp) = false)) ∧
    (∃ (s : State) (d : Desc), (seqOf s (dfld d 16 0 14) = none) ∧ (Accepted s d (infoSeqInfo s d))) ∧
    (∃ (s : State) (d : Desc), (seqOf s (dfld d 16 0 14) = none) ∧ (Accepted s d (infoSeqTrim s d)) ∧ (dOpcode d ≠ 0x0C02)) ∧
    (∃ (s : State) (d : Desc), (seqOf s (dfld d 16 0 14) = none) ∧ (Accepted s d (infoSeqDestroy s d)) ∧ (dOpcode d = 0x0C02)) ∧
    (∃ (s : State) (d : Desc) (h : _), (h = dfld d 17 0 8) ∧ (Accepted s d (infoSeqBias s d)) ∧ ((s.cfg.biases.find (dfld d 16 0 6)).any (·.guarded) = true)) ∧
    (∃ (s : State) (d : Desc) (h : _), (h = dfld d 17 0 8) ∧ (Accepted s d (infoSeqBias s d)) ∧ ((s.cfg.biases.find (dfld d 16 0 6)).any (·.guarded) = false) ∧ (h = 0 ∨ 64 < h ∨ dfld d 20 0 32 = 0 ∨ 10 ^ 9 < dfld d 20 0 32)) ∧
    (∃ (s : State) (d : Desc) (h : _) (st : _) (bs : _) (u : _), (h = dfld d 17 0 8) ∧ (Accepted s d (infoSeqBias s d)) ∧ ((s.cfg.biases.find (dfld d 16 0 6)).any (·.guarded) = false) ∧ (1 ≤ h) ∧ (h ≤ 64) ∧ (1 ≤ dfld d 20 0 32) ∧ (dfld d 20 0 32 ≤ 10 ^ 9) ∧ (devRead (markStarted s d) { did := d.did, guarded := false, kind := 4, index := 0x0C00, flows := [] } (dfld d 24 0 64) (128 * h) = (st, bs, u)) ∧ (st ≠ stOk)) ∧
    (∃ (s : State) (d : Desc) (h : _) (st : _) (bs : _) (u : _), (h = dfld d 17 0 8) ∧ (Accepted s d (infoSeqBias s d)) ∧ ((s.cfg.biases.find (dfld d 16 0 6)).any (·.guarded) = false) ∧ (1 ≤ h) ∧ (h ≤ 64) ∧ (1 ≤ dfld d 20 0 32) ∧ (dfld d 20 0 32 ≤ 10 ^ 9) ∧ (devRead (markStarted s d) { did := d.did, guarded := false, kind := 4, index := 0x0C00, flows := [] } (dfld d 24 0 64) (128 * h) = (st, bs, u)) ∧ (st = stOk)) :=
  ⟨⟨w276, mk 1 0x0C00 [(16, 3), (17, 1), (24, 0x400000), (32, 8)], 3, 8, by decide +kernel⟩,
   ⟨up, mk 1 0x0C00 [(16, 3), (17, 1), (24, 0x400000), (32, 8)], 3, 8, by decide +kernel⟩,
   ⟨up, mk 1 0x0C01 [(16, 16383), (18, 3), (20, 0), (21, 0), (22, 2), (24, 4095), (28, 4), (32, 1000), (40, 0x300000000000)], 16383, ({ seqRec0 with base := 0x300000000000, count := 0, held := [] } : Seq), by decide +kernel⟩,
   ⟨w277, mk 1 0x0C01 [(16, 16383), (18, 3), (20, 0), (21, 0), (22, 2), (24, 4095), (28, 4), (32, 1000), (40, 0x300000000000)], 16383, ({ seqRec0 with base := 0x300000000000, count := 0, held := [] } : Seq), by decide +kernel⟩,
   ⟨w278, mk 1 0x0C07 [(16, 16383)], 16383, ({ seqRec0 with count := 0, held := [] } : Seq), by decide +kernel⟩,
   ⟨w279, ringD (mk 2 0x0C07 [(16, 16383)]), 16383, ({ seqRec0 with count := 0, held := [] } : Seq), by decide +kernel⟩,
   ⟨w280, mk 1 0x0C02 [(16, 16383)], 16383, ({ seqRec0 with count := 2000 } : Seq), by decide +kernel⟩,
   ⟨w281, mk 1 0x0C02 [(16, 16383)], 16383, ({ seqRec0 with count := 2000 } : Seq), by decide +kernel⟩,
   ⟨w280, mk 1 0x0C02 [(16, 16383)], 16383, ({ seqRec0 with count := 2000 } : Seq), destroySeq (w280) (16383) (({ seqRec0 with count := 2000 } : Seq)), by decide +kernel⟩,
   ⟨w282, mk 1 0x0C02 [(16, 16383)], 16383, ({ seqRec0 with count := 2000 } : Seq), destroySeq (w282) (16383) (({ seqRec0 with count := 2000 } : Seq)), 5, by decide +kernel⟩,
   ⟨w281, mk 1 0x0C06 [(16, 16383), (24, 1000)], 16383, ({ seqRec0 with count := 2000 } : Seq), trimCount (({ seqRec0 with count := 2000 } : Seq)) (dfld (mk 1 0x0C06 [(16, 16383), (24, 1000)]) 24 0 64), by decide +kernel⟩,
   ⟨w280, mk 1 0x0C06 [(16, 16383), (24, 1000)], 16383, ({ seqRec0 with count := 2000 } : Seq), trimCount (({ seqRec0 with count := 2000 } : Seq)) (dfld (mk 1 0x0C06 [(16, 16383), (24, 1000)]) 24 0 64), by decide +kernel⟩,
   ⟨up, mk 1 0x0C07 [(16, 16383)], by decide +kernel⟩,
   ⟨up, mk 1 0x0C06 [(16, 16383), (24, 1000)], by decide +kernel⟩,
   ⟨up, mk 1 0x0C02 [(16, 16383)], by decide +kernel⟩,
   ⟨w283, mk 1 0x0C05 [(16, 63), (17, 2), (20, 1), (24, 4096)], dfld (mk 1 0x0C05 [(16, 63), (17, 2), (20, 1), (24, 4096)]) 17 0 8, by decide +kernel⟩,
   ⟨up, mk 1 0x0C05 [(16, 63), (17, 0), (20, 1), (24, 4096)], dfld (mk 1 0x0C05 [(16, 63), (17, 0), (20, 1), (24, 4096)]) 17 0 8, by decide +kernel⟩,
   ⟨up, mk 1 0x0C05 [(16, 63), (17, 2), (20, 1), (24, 4096)], 2, (devRead (markStarted (up) (mk 1 0x0C05 [(16, 63), (17, 2), (20, 1), (24, 4096)])) { did := 1, guarded := false, kind := 4, index := 0x0C00, flows := [] } 4096 256).1, (devRead (markStarted (up) (mk 1 0x0C05 [(16, 63), (17, 2), (20, 1), (24, 4096)])) { did := 1, guarded := false, kind := 4, index := 0x0C00, flows := [] } 4096 256).2.1, (devRead (markStarted (up) (mk 1 0x0C05 [(16, 63), (17, 2), (20, 1), (24, 4096)])) { did := 1, guarded := false, kind := 4, index := 0x0C00, flows := [] } 4096 256).2.2, by decide +kernel, by decide +kernel, by decide +kernel, by decide +kernel, by decide +kernel, by decide +kernel, by decide +kernel, rfl, by decide +kernel⟩,
   ⟨upm, mk 1 0x0C05 [(16, 63), (17, 2), (20, 1), (24, 4096)], 2, (devRead (markStarted (upm) (mk 1 0x0C05 [(16, 63), (17, 2), (20, 1), (24, 4096)])) { did := 1, guarded := false, kind := 4, index := 0x0C00, flows := [] } 4096 256).1, (devRead (markStarted (upm) (mk 1 0x0C05 [(16, 63), (17, 2), (20, 1), (24, 4096)])) { did := 1, guarded := false, kind := 4, index := 0x0C00, flows := [] } 4096 256).2.1, (devRead (markStarted (upm) (mk 1 0x0C05 [(16, 63), (17, 2), (20, 1), (24, 4096)])) { did := 1, guarded := false, kind := 4, index := 0x0C00, flows := [] } 4096 256).2.2, by decide +kernel, by decide +kernel, by decide +kernel, by decide +kernel, by decide +kernel, by decide +kernel, by decide +kernel, rfl, by decide +kernel⟩⟩

theorem test_witness_SequenceWork :
    (∃ (s : State) (d : Desc) (k : Nat) (q : Seq) (c : _) (n : _) (p : _), (k = dfld d 16 0 14) ∧ (seqOf s k = some q) ∧ (callFlow s d = some (c, n, q.flow)) ∧ (seqAccess d q = stOk) ∧ (Accepted s d (infoSeqAppend s d)) ∧ (q.waiting = []) ∧ (p = q.first + q.count) ∧ (q.appended.contains n = true)) ∧
    (∃ (s : State) (d : Desc) (k : Nat) (q : Seq) (c : _) (n : _) (p : _) (u : _), (k = dfld d 16 0 14) ∧ (seqOf s k = some q) ∧ (callFlow s d = some (c, n, q.flow)) ∧ (seqAccess d q = stOk) ∧ (Accepted s d (infoSeqAppend s d)) ∧ (q.waiting = []) ∧ (p = q.first + q.count) ∧ (q.appended.contains n = false) ∧ (q.pending = none) ∧ (q.held ≠ []) ∧ (p / q.rpp < q.firstPage + q.held.length) ∧ (dbit d 18 0 = false) ∧ (dfld d 24 0 64 ≠ 0) ∧ (devWrite (markStarted s d) (seqWho q k) (q.timeWord p) (leBytes 8 (dfld d 24 0 64)) = (stOk, u))) ∧
    (∃ (s : State) (d : Desc) (k : Nat) (q : Seq) (c : _) (n : _) (f : _), (k = dfld d 16 0 14) ∧ (seqOf s k = some q) ∧ (callFlow s d = some (c, n, f)) ∧ (f ≠ q.flow) ∧ (seqAccess d q = stOk) ∧ (Accepted s d (infoSeqAppend s d))) ∧
    (∃ (s : State) (d : Desc) (k : Nat), (k = dfld d 16 0 14) ∧ (s.seq.seqs = [])) ∧
    (∃ (s : State) (d : Desc) (k : Nat) (q : Seq) (a : _) (t : _), (k = dfld d 16 0 14) ∧ (s.seq.seqs = [(k, q)]) ∧ (q.active = true) ∧ (q.waiting = [a]) ∧ (tryAppend s k { q with waiting := [] } a = .done t)) ∧
    (∃ (s : State) (d : Desc) (k : Nat) (q : Seq) (a : _) (v : _), (k = dfld d 16 0 14) ∧ (s.seq.seqs = [(k, q)]) ∧ (q.active = true) ∧ (q.waiting = [a]) ∧ (a.since = some v) ∧ (s.up = v + q.stallUs * 1000) ∧ (resumable s k q = false)) ∧
    (∃ (s : State) (d : Desc) (k : Nat) (q : Seq) (j : Job) (a : Att), (k = dfld d 16 0 14) ∧ (seqOf s k = some q) ∧ (seqAccess d q = stOk) ∧ (s.seq.waiting = []) ∧ (j = ({ desc := d, on_ := none, start := s.up, first := 0, count := 0, pend := none } : Job)) ∧ (a = attOf (markStarted s d) d) ∧ (Accepted s d (infoSeqAttend s d)) ∧ (q.layers ≤ a.layer ∨ a.hq = 0 ∨ 64 < a.hq ∨ a.hq % q.heads ≠ 0 ∨ a.qF = 3 ∨ dfld d 24 0 13 = 0 ∨ 4096 < dfld d 24 0 13 ∨ f32Finite a.scale = false ∨ dfld d 40 0 6 ≠ 0 ∨ dfld d 48 0 6 ≠ 0 ∨ dfld d 56 0 6 ≠ 0 ∨ (workGuarded d = true ∧ q.guarded = false))) ∧
    (∃ (s : State) (d : Desc) (k : Nat) (q : Seq) (j : Job) (a : Att), (k = dfld d 16 0 14) ∧ (seqOf s k = some q) ∧ (seqAccess d q = stOk) ∧ (s.seq.waiting = []) ∧ (j = ({ desc := d, on_ := none, start := s.up, first := 0, count := 0, pend := none } : Job)) ∧ (a = attOf (markStarted s d) d) ∧ (Accepted s d (infoSeqAttend s d)) ∧ (a.layer < q.layers) ∧ (1 ≤ a.hq) ∧ (a.hq ≤ 64) ∧ (a.hq % q.heads = 0) ∧ (a.qF ≠ 3) ∧ (namedCore d (dfld d 19 4 3) = none) ∧ (1 ≤ dfld d 24 0 13) ∧ (dfld d 24 0 13 ≤ 4096) ∧ (f32Finite a.scale = true) ∧ (dbit d 22 7 = false) ∧ (dfld d 40 0 6 = 0) ∧ (dfld d 48 0 6 = 0) ∧ (dfld d 56 0 6 = 0) ∧ (workGuarded d = false) ∧ (pipesFree (markStarted s d) j = [])) ∧
    (∃ (s : State) (d : Desc) (k : Nat) (q : Seq) (j : Job) (i : _) (rest : _) (a : Att), (k = dfld d 16 0 14) ∧ (seqOf s k = some q) ∧ (seqAccess d q = stOk) ∧ (s.seq.waiting = []) ∧ (j = ({ desc := d, on_ := none, start := s.up, first := 0, count := 0, pend := none } : Job)) ∧ (a = attOf (markStarted s d) d) ∧ (Accepted s d (infoSeqAttend s d)) ∧ (a.layer < q.layers) ∧ (1 ≤ a.hq) ∧ (a.hq ≤ 64) ∧ (a.hq % q.heads = 0) ∧ (a.qF ≠ 3) ∧ (namedCore d (dfld d 19 4 3) = none) ∧ (1 ≤ dfld d 24 0 13) ∧ (dfld d 24 0 13 ≤ 4096) ∧ (f32Finite a.scale = true) ∧ (dbit d 22 7 = false) ∧ (dfld d 40 0 6 = 0) ∧ (dfld d 48 0 6 = 0) ∧ (dfld d 56 0 6 = 0) ∧ (workGuarded d = false) ∧ (pipesFree (markStarted s d) j = i :: rest)) ∧
    (∃ (s : State) (d : Desc) (k : Nat) (c : _), (k = dfld d 16 0 14) ∧ ((pipeOf s c).job = none)) ∧
    (∃ (s : State) (d : Desc) (k : Nat) (c : _) (j : _) (r : AttRun), (k = dfld d 16 0 14) ∧ ((pipeOf s c).job = some j) ∧ (r = runAttend s j c (dfld j.desc 24 0 13)) ∧ (r.s.seq.waiting = []) ∧ (r.s.seq.blocked = [])) :=
  ⟨⟨w284, ⟨.call 4607 7, 1, (mk 1 0x0C03 [(16, 16383), (24, 77)]).raw⟩, 16383, ({ seqRec0 with appended := [5] } : Seq), 31, 5, (({ seqRec0 with appended := [5] } : Seq)).first + (({ seqRec0 with appended := [5] } : Seq)).count, by decide +kernel⟩,
   ⟨w16, ⟨.call 4607 7, 1, (mk 1 0x0C03 [(16, 16383), (24, 77)]).raw⟩, 16383, seqRec0, 31, 5, (seqRec0).first + (seqRec0).count, (devWrite (markStarted (w16) ⟨.call 4607 7, 1, (mk 1 0x0C03 [(16, 16383), (24, 77)]).raw⟩) (seqWho (seqRec0) 16383) ((seqRec0).timeWord 5) (leBytes 8 77)).2, by decide +kernel, by decide +kernel, by decide +kernel, by decide +kernel, by decide +kernel, by decide +kernel, by decide +kernel, by decide +kernel, by decide +kernel, by decide +kernel, by decide +kernel, by decide +kernel, by decide +kernel, Prod.ext (by decide +kernel) rfl⟩,
   ⟨w285, ⟨.call 4607 7, 1, (mk 1 0x0C03 [(16, 16383), (24, 77)]).raw⟩, 16383, ({ seqRec0 with flow := 9 } : Seq), 31, 5, 4095, by decide +kernel⟩,
   ⟨up, ⟨.call 4607 7, 1, (mk 1 0x0C03 [(16, 16383), (24, 77)]).raw⟩, 16383, by decide +kernel⟩,
   ⟨w17, ⟨.call 4607 7, 1, (mk 1 0x0C03 [(16, 16383), (24, 77)]).raw⟩, 16383, ({ active := true, failed := false, guarded := false, ownerDid := 1, pool := 3, policy := 0, layers := 1, heads := 1, width := 32, format := 2, flow := 4095, reservedPages := 4, stallUs := 1000, base := 0x200000, first := 0, count := 5, firstPage := 0, held := [0, 2], pending := none, appended := [], waiting := [({ desc := ⟨.call 4607 7, 1, (mk 1 0x0C03 [(16, 16383), (24, 77)]).raw⟩, time := 77, invalid := false, epoch := 5, since := none } : AppendWait)], slides := 0, exhausted := 0, discarded := 0 } : Seq), ({ desc := ⟨.call 4607 7, 1, (mk 1 0x0C03 [(16, 16383), (24, 77)]).raw⟩, time := 77, invalid := false, epoch := 5, since := none } : AppendWait), openPosition (w17) 16383 { ({ active := true, failed := false, guarded := false, ownerDid := 1, pool := 3, policy := 0, layers := 1, heads := 1, width := 32, format := 2, flow := 4095, reservedPages := 4, stallUs := 1000, base := 0x200000, first := 0, count := 5, firstPage := 0, held := [0, 2], pending := none, appended := [], waiting := [({ desc := ⟨.call 4607 7, 1, (mk 1 0x0C03 [(16, 16383), (24, 77)]).raw⟩, time := 77, invalid := false, epoch := 5, since := none } : AppendWait)], slides := 0, exhausted := 0, discarded := 0 } : Seq) with waiting := [] } ({ desc := ⟨.call 4607 7, 1, (mk 1 0x0C03 [(16, 16383), (24, 77)]).raw⟩, time := 77, invalid := false, epoch := 5, since := none } : AppendWait), by decide +kernel, by decide +kernel, by decide +kernel, by decide +kernel, tried (by decide +kernel) (by decide +kernel) (by decide +kernel) (by decide +kernel)⟩,
   ⟨w286, ⟨.call 4607 7, 1, (mk 1 0x0C03 [(16, 16383), (24, 77)]).raw⟩, 16383, ({ active := true, failed := false, guarded := false, ownerDid := 1, pool := 3, policy := 0, layers := 1, heads := 1, width := 32, format := 2, flow := 4095, reservedPages := 4, stallUs := 1000, base := 0x200000, first := 0, count := 4000, firstPage := 0, held := [0, 2, 3, 4], pending := none, appended := [], waiting := [({ desc := ⟨.call 4607 7, 1, (mk 1 0x0C03 [(16, 16383), (24, 77)]).raw⟩, time := 77, invalid := false, epoch := 5, since := some 0 } : AppendWait)], slides := 0, exhausted := 0, discarded := 0 } : Seq), ({ desc := ⟨.call 4607 7, 1, (mk 1 0x0C03 [(16, 16383), (24, 77)]).raw⟩, time := 77, invalid := false, epoch := 5, since := some 0 } : AppendWait), 0, by decide +kernel⟩,
   ⟨w287, mk 1 0x0C04 [(16, 16383), (19, 0x60), (20, 0), (24, 1), (36, 0x3F800000), (40, 4096), (48, 8192), (56, 12288)], 16383, seqRec0, ({ desc := mk 1 0x0C04 [(16, 16383), (19, 0x60), (20, 0), (24, 1), (36, 0x3F800000), (40, 4096), (48, 8192), (56, 12288)], on_ := none, start := 0, first := 0, count := 0, pend := none } : Job), attOf (markStarted (w287) (mk 1 0x0C04 [(16, 16383), (19, 0x60), (20, 0), (24, 1), (36, 0x3F800000), (40, 4096), (48, 8192), (56, 12288)])) (mk 1 0x0C04 [(16, 16383), (19, 0x60), (20, 0), (24, 1), (36, 0x3F800000), (40, 4096), (48, 8192), (56, 12288)]), by decide +kernel, by decide +kernel, by decide +kernel, by decide +kernel, by decide +kernel, rfl, by decide +kernel, by decide +kernel⟩,
   ⟨w288, mk 1 0x0C04 [(16, 16383), (19, 0x60), (20, 1), (24, 1), (36, 0x3F800000), (40, 4096), (48, 8192), (56, 12288)], 16383, seqRec0, ({ desc := mk 1 0x0C04 [(16, 16383), (19, 0x60), (20, 1), (24, 1), (36, 0x3F800000), (40, 4096), (48, 8192), (56, 12288)], on_ := none, start := 0, first := 0, count := 0, pend := none } : Job), attOf (markStarted (w288) (mk 1 0x0C04 [(16, 16383), (19, 0x60), (20, 1), (24, 1), (36, 0x3F800000), (40, 4096), (48, 8192), (56, 12288)])) (mk 1 0x0C04 [(16, 16383), (19, 0x60), (20, 1), (24, 1), (36, 0x3F800000), (40, 4096), (48, 8192), (56, 12288)]), by decide +kernel, by decide +kernel, by decide +kernel, by decide +kernel, by decide +kernel, rfl, by decide +kernel, by decide +kernel, by decide +kernel, by decide +kernel, by decide +kernel, by decide +kernel, by decide +kernel, by decide +kernel, by decide +kernel, by decide +kernel, by decide +kernel, by decide +kernel, by decide +kernel, by decide +kernel, by decide +kernel, by decide +kernel⟩,
   ⟨w287, mk 1 0x0C04 [(16, 16383), (19, 0x60), (20, 1), (24, 1), (36, 0x3F800000), (40, 4096), (48, 8192), (56, 12288)], 16383, seqRec0, ({ desc := mk 1 0x0C04 [(16, 16383), (19, 0x60), (20, 1), (24, 1), (36, 0x3F800000), (40, 4096), (48, 8192), (56, 12288)], on_ := none, start := 0, first := 0, count := 0, pend := none } : Job), 0, [1, 2, 3, 4, 5], attOf (markStarted (w287) (mk 1 0x0C04 [(16, 16383), (19, 0x60), (20, 1), (24, 1), (36, 0x3F800000), (40, 4096), (48, 8192), (56, 12288)])) (mk 1 0x0C04 [(16, 16383), (19, 0x60), (20, 1), (24, 1), (36, 0x3F800000), (40, 4096), (48, 8192), (56, 12288)]), by decide +kernel, by decide +kernel, by decide +kernel, by decide +kernel, by decide +kernel, rfl, by decide +kernel, by decide +kernel, by decide +kernel, by decide +kernel, by decide +kernel, by decide +kernel, by decide +kernel, by decide +kernel, by decide +kernel, by decide +kernel, by decide +kernel, by decide +kernel, by decide +kernel, by decide +kernel, by decide +kernel, by decide +kernel⟩,
   ⟨up, ⟨.call 4607 7, 1, (mk 1 0x0C03 [(16, 16383), (24, 77)]).raw⟩, 16383, 3, by decide +kernel⟩,
   ⟨w289, ⟨.call 4607 7, 1, (mk 1 0x0C03 [(16, 16383), (24, 77)]).raw⟩, 16383, 3, ({ desc := mk 1 0x0C04 [(16, 16383), (19, 0x60), (20, 1), (24, 1), (36, 0x3F800000), (40, 4096), (48, 8192), (56, 12288)], on_ := none, start := 0, first := 0, count := 1, pend := none } : Job), runAttend ({ upm with seq.seqs := [(16383, seqRec0)], seq.pipes := [(3, { Pipe.reset with job := some (({ desc := mk 1 0x0C04 [(16, 16383), (19, 0x60), (20, 1), (24, 1), (36, 0x3F800000), (40, 4096), (48, 8192), (56, 12288)], on_ := none, start := 0, first := 0, count := 1, pend := none } : Job)) })] }) (({ desc := mk 1 0x0C04 [(16, 16383), (19, 0x60), (20, 1), (24, 1), (36, 0x3F800000), (40, 4096), (48, 8192), (56, 12288)], on_ := none, start := 0, first := 0, count := 1, pend := none } : Job)) 3 1, by decide +kernel, by decide +kernel, rfl, by decide +kernel, by decide +kernel⟩⟩

theorem test_witness_Solves :
    (∃ (s : State) (d : Desc), (Accepted s d (infoSlvSolve s d)) ∧ (namedCore d (dfld d 17 0 3) = none) ∧ (dfld d 18 0 7 ≤ 64) ∧ (dfld d 22 0 7 ≤ 64) ∧ (dfld d 26 0 11 ≤ 1024) ∧ (dfld d 32 0 20 ≤ 1000000) ∧ (dfld d 40 0 6 = 0) ∧ (dfld d 48 0 6 = 0) ∧ (dbit d 16 5 = false ∨ dfld d 56 0 6 = 0) ∧ (dbit d 16 4 = false ∨ callFlow (markStarted s d) d ≠ none) ∧ (workGuarded d = false ∨ dfld d 32 0 20 ≠ 0 ∨ dbit d 16 4 = true)) ∧
    (∃ (s : State) (d : Desc), (Accepted s d (infoSlvSolve s d)) ∧ (64 < dfld d 18 0 7 ∨ 64 < dfld d 22 0 7 ∨ 1024 < dfld d 26 0 11 ∨ 1000000 < dfld d 32 0 20 ∨ dfld d 40 0 6 ≠ 0 ∨ dfld d 48 0 6 ≠ 0 ∨ (dbit d 16 5 = true ∧ dfld d 56 0 6 ≠ 0) ∨ (dbit d 16 4 = true ∧ callFlow (markStarted s d) d = none) ∨ (workGuarded d = true ∧ dfld d 32 0 20 = 0 ∧ dbit d 16 4 = false))) ∧
    (∃ (s : State), (s.slv.waiting = [])) ∧
    (∃ (s : State) (c : Nat) (j : _) (rest : _), (s.slv.waiting = [j]) ∧ (solversFree s j = c :: rest)) ∧
    (∃ (s : State) (c : Nat), ((solverOf s c).run = none)) ∧
    (∃ (s : State) (c : Nat) (j : _) (r : _), ((solverOf s c).job = some j) ∧ ((solverOf s c).run = some r)) ∧
    (∃ (s : State) (c : Nat) (j : _) (r : _) (v : _), ((solverOf s c).job = some j) ∧ ((solverOf s c).run = some r) ∧ (r.deadline = some v)) :=
  ⟨⟨up, mk 1 0x0D00 [(16, 1), (17, 6), (18, 0), (24, 0), (26, 0), (28, 1), (32, 1000), (40, 4096), (48, 8192), (56, 12288)], by decide +kernel⟩,
   ⟨up, mk 1 0x0D00 [(16, 1), (17, 6), (18, 0), (24, 0), (26, 1025), (28, 1), (32, 1000), (40, 4096), (48, 8192), (56, 12288)], by decide +kernel⟩,
   ⟨up, by decide +kernel⟩,
   ⟨w290, 0, ({ desc := mk 1 0x0D00 [(16, 1), (17, 6), (18, 0), (24, 0), (26, 0), (28, 1), (32, 1000), (40, 4096), (48, 8192), (56, 12288)], on_ := none, start := 0, first := 0, count := 0, pend := none } : Job), [1, 2, 3, 4, 5], by decide +kernel⟩,
   ⟨up, 5, by decide +kernel⟩,
   ⟨w291, 5, ({ desc := mk 1 0x0D00 [(16, 1), (17, 6), (18, 0), (24, 0), (26, 0), (28, 1), (32, 1000), (40, 4096), (48, 8192), (56, 12288)], on_ := none, start := 0, first := 0, count := 0, pend := none } : Job), { start := 0, deadline := some 1000, warm := false, image := List.replicate 192 0, x := [[0]], u := [], s := [[]], l := [[]], mixed := [], y := [] }, by decide +kernel⟩,
   ⟨w291, 5, ({ desc := mk 1 0x0D00 [(16, 1), (17, 6), (18, 0), (24, 0), (26, 0), (28, 1), (32, 1000), (40, 4096), (48, 8192), (56, 12288)], on_ := none, start := 0, first := 0, count := 0, pend := none } : Job), { start := 0, deadline := some 1000, warm := false, image := List.replicate 192 0, x := [[0]], u := [], s := [[]], l := [[]], mixed := [], y := [] }, 1000, by decide +kernel⟩⟩

theorem test_witness_ErrorHandling :
    (∃ (s : State) (sev : _), (s.safe.intakeUp = true) ∧ (s.safe.intake.length < 56) ∧ (sev < 4)) ∧
    (∃ (s : State) (sev : _), (s.safe.intakeUp = true) ∧ (sev ≤ 1) ∧ (56 ≤ s.safe.intake.length)) ∧
    (∃ (s : State) (sev : _), (s.safe.intakeUp = true) ∧ (sev = 2) ∧ (64 ≤ s.safe.intake.length)) ∧
    (∃ (s : State) (sev : _), (s.safe.intakeUp = true) ∧ (sev = 3) ∧ (64 ≤ s.safe.intake.length)) ∧
    (∃ (r : Report) (rest : List Report), ((∀ y ∈ rest, y.time = r.time → y.rank ≤ r.rank))) ∧
    (∃ (r : Report) (y : Report), (y.time = r.time) ∧ (r.rank < y.rank)) ∧
    (∃ (s : State), (s.safe.intakeUp = false)) ∧
    (∃ (s : State), (s.safe.running = true) ∧ (s.safe.overflow = false) ∧ (s.safe.intake = [])) ∧
    (∃ (s : State), (s.safe.running = false)) ∧
    (∃ (s : State) (r : Report) (rest : List Report), (s.safe.running = true) ∧ (s.safe.overflow = false) ∧ (s.safe.intake = r :: rest) ∧ (newestRec s = none) ∧ (r.severity ≤ 1)) ∧
    (∃ (s : State) (r : Report) (rest : List Report) (f : _) (n : _), (s.safe.running = true) ∧ (s.safe.overflow = false) ∧ (s.safe.intake = r :: rest) ∧ (newestRec s = none) ∧ (r.severity = 2) ∧ (r.kind = 6) ∧ (r.flows = [f]) ∧ (r.epoch = some n) ∧ (isGuardedFlow s f = true) ∧ ((flowSafe s f).doubts.any (fun d => d.1 == n) = false)) ∧
    (∃ (s : State) (r : Report) (rest : List Report), (s.safe.running = true) ∧ (s.safe.overflow = false) ∧ (s.safe.intake = r :: rest) ∧ (newestRec s = none) ∧ (r.severity = 3) ∧ (s.safe.fatal = none) ∧ (s.epochs = [])) ∧
    (∃ (s : State) (r : Report) (rest : List Report), (s.safe.running = true) ∧ (s.safe.overflow = false) ∧ (s.safe.intake = r :: rest) ∧ (newestRec s = none) ∧ (r.severity = 3) ∧ (s.safe.fatal ≠ none)) :=
  ⟨⟨up, 3, by decide +kernel⟩,
   ⟨w292, 1, by decide +kernel⟩,
   ⟨w293, 2, by decide +kernel⟩,
   ⟨w294, 3, by decide +kernel⟩,
   ⟨reportOf up 1 6 7 9, [reportOf up 1 6 7 9], by decide +kernel⟩,
   ⟨reportOf up 1 6 7 9, reportOf up 1 6 8 9, by decide +kernel⟩,
   ⟨State.reset, by decide +kernel⟩,
   ⟨up, by decide +kernel⟩,
   ⟨w295, by decide +kernel⟩,
   ⟨w296, reportOf up 1 6 7 8, [reportOf up 1 6 7 9], by decide +kernel⟩,
   ⟨w297, { reportOf up 2 6 4095 9 with flows := [4095], epoch := some 5 }, [reportOf up 1 6 7 9], 4095, 5, by decide +kernel⟩,
   ⟨w298, reportOf up 3 15 0 0x0140, [reportOf up 1 6 7 9], by decide +kernel⟩,
   ⟨w299, reportOf up 3 15 0 0x0142, [reportOf up 1 6 7 9], by decide +kernel⟩⟩

theorem test_witness_VerdictsChannelsIsland :
    (∃ (s : State) (f : Nat) (c : _) (n : _) (e : _) (r : _), (epochOf s c n = some e) ∧ (e.flowRun f = some r) ∧ (r.flow = f) ∧ (r.guarded = true) ∧ (r.written = false) ∧ (r.ended = true) ∧ (s.safe.running = true) ∧ ((e.cfg.flows.find f).bind (·.grid) = none) ∧ (verdictPass (setFlowSafe s f { flowSafe s f with shadow := shadowPass s e r }) e r = true)) ∧
    (∃ (s : State) (f : Nat) (c : _) (n : _) (e : _) (r : _), (epochOf s c n = some e) ∧ (e.flowRun f = some r) ∧ (r.flow = f) ∧ (r.guarded = true) ∧ (r.written = false) ∧ (r.ended = true) ∧ (s.safe.running = true) ∧ ((e.cfg.flows.find f).bind (·.grid) = none) ∧ (s.safe.fatal ≠ none)) ∧
    (∃ (s : State) (f : Nat) (c : _) (n : _) (e : _) (r : _), (epochOf s c n = some e) ∧ (e.flowRun f = some r) ∧ (r.written = true)) ∧
    (∃ (s : State) (did : Nat) (f : Nat), ((did = 1 ∨ did = 2)) ∧ (f = Tbl.at 0 s.safe.flowSel did) ∧ (s.safe.running = true) ∧ ((flowSafe s f).latched = true) ∧ ((flowSafe s f).clearing = false) ∧ ((flowSafe s f).shadow = true) ∧ ((∀ d, (flowSafe s f).doubts.head? = some d → d.2 + recoveryNs s f < s.now)) ∧ (doubtWaits s f none = false)) ∧
    (∃ (s : State) (did : Nat) (f : Nat), ((did = 1 ∨ did = 2)) ∧ (f = Tbl.at 0 s.safe.flowSel did) ∧ (s.safe.running = true) ∧ ((flowSafe s f).latched = true) ∧ ((flowSafe s f).clearing = false) ∧ ((flowSafe s f).shadow = false ∨ (∃ d, (flowSafe s f).doubts.head? = some d ∧ s.now ≤ d.2 + recoveryNs s f) ∨ doubtWaits s f none = true)) ∧
    (∃ (did : Nat), (did ≠ 1) ∧ (did ≠ 2)) ∧
    (∃ (s : State) (did : Nat), ((did = 1 ∨ did = 2)) ∧ (s.safe.running = true) ∧ (mayEnergise s 0 = true) ∧ (s.safe.ack0 = false)) ∧
    (∃ (s : State) (did : Nat), ((did = 1 ∨ did = 2)) ∧ (s.safe.running = true) ∧ (mayEnergise s 0 = false)) ∧
    (∃ (s : State) (did : Nat), ((did = 1 ∨ did = 2)) ∧ (s.safe.running = true) ∧ (mayEnergise s 1 = true) ∧ (s.safe.ack1 = false)) ∧
    (∃ (s : State), (s.safe.running = false)) ∧
    (∃ (s : State), (s.safe.running = true) ∧ (s.safe.beating = true) ∧ (s.up ≤ s.safe.beatAt + 1000000)) ∧
    (∃ (s : State), (s.safe.running = true) ∧ (s.safe.fatal = none) ∧ (s.epochs = [])) ∧
    (∃ (s : State), (s.safe.running = true)) ∧
    (∃ (s : State) (v : _), (s.safe.running = true) ∧ (s.safe.fwBeat = some v) ∧ (s.up ≤ v + 10000000) ∧ (s.safe.intakeUp = true) ∧ (s.safe.intake.length < 64)) ∧
    (∃ (s : State), (s.safe.running = true) ∧ (s.sec.image.isSome = true)) ∧
    (∃ (s : State), (s.safe.running = true) ∧ (s.sec.image.isSome = true) ∧ (s.safe.intakeUp = true) ∧ (s.safe.intake.length < 64)) ∧
    (∃ (s : State), (s.safe.fatal = none)) ∧
    (∃ (s : State) (c : _) (n : _), (s.safe.fatal = some (c, n)) ∧ (c ≠ 1) ∧ (s.sec.image.any (·.fatalReset) = false)) ∧
    (∃ (s : State) (n : _), (s.safe.fatal = some (1, n)) ∧ (logicPowered s = true)) :=
  ⟨⟨w300, 4095, 31, 5, { ep 31 5 with cfg := { up.cfg with flows := [(4095, { guarded := true, cadence := 31, enable := true, grid := none, cring := none })] }, flows := [{ flow := 4095, guarded := true, mode := 0, taken := [], gated := true, runs := true, missing := false, partial_ := false, degraded := false, fallback := false, reefed := false, truncated := false, old := none, status := 0, flags := 0, late := false, ended := true, failAt := none, failSeq := none, doubted := false, written := false }] }, { flow := 4095, guarded := true, mode := 0, taken := [], gated := true, runs := true, missing := false, partial_ := false, degraded := false, fallback := false, reefed := false, truncated := false, old := none, status := 0, flags := 0, late := false, ended := true, failAt := none, failSeq := none, doubted := false, written := false }, by decide +kernel⟩,
   ⟨w301, 4095, 31, 5, { ep 31 5 with cfg := { up.cfg with flows := [(4095, { guarded := true, cadence := 31, enable := true, grid := none, cring := none })] }, flows := [{ flow := 4095, guarded := true, mode := 0, taken := [], gated := true, runs := true, missing := false, partial_ := false, degraded := false, fallback := false, reefed := false, truncated := false, old := none, status := 0, flags := 0, late := false, ended := true, failAt := none, failSeq := none, doubted := false, written := false }] }, { flow := 4095, guarded := true, mode := 0, taken := [], gated := true, runs := true, missing := false, partial_ := false, degraded := false, fallback := false, reefed := false, truncated := false, old := none, status := 0, flags := 0, late := false, ended := true, failAt := none, failSeq := none, doubted := false, written := false }, by decide +kernel⟩,
   ⟨w302, 4095, 31, 5, { ep 31 5 with cfg := { up.cfg with flows := [(4095, { guarded := true, cadence := 31, enable := true, grid := none, cring := none })] }, flows := [{ flow := 4095, guarded := true, mode := 0, taken := [], gated := true, runs := true, missing := false, partial_ := false, degraded := false, fallback := false, reefed := false, truncated := false, old := none, status := 0, flags := 0, late := false, ended := true, failAt := none, failSeq := none, doubted := false, written := true }] }, { flow := 4095, guarded := true, mode := 0, taken := [], gated := true, runs := true, missing := false, partial_ := false, degraded := false, fallback := false, reefed := false, truncated := false, old := none, status := 0, flags := 0, late := false, ended := true, failAt := none, failSeq := none, doubted := false, written := true }, by decide +kernel⟩,
   ⟨w303, 2, 4095, by decide +kernel⟩,
   ⟨w304, 2, 4095, by decide +kernel⟩,
   ⟨3, by decide +kernel⟩,
   ⟨w305, 2, by decide +kernel⟩,
   ⟨up, 2, by decide +kernel⟩,
   ⟨w305, 2, by decide +kernel⟩,
   ⟨State.reset, by decide +kernel⟩,
   ⟨w306, by decide +kernel⟩,
   ⟨up, by decide +kernel⟩,
   ⟨up, by decide +kernel⟩,
   ⟨w307, 0, by decide +kernel⟩,
   ⟨w308, by decide +kernel⟩,
   ⟨w308, by decide +kernel⟩,
   ⟨up, by decide +kernel⟩,
   ⟨w309, 3, 0, by decide +kernel⟩,
   ⟨w310, 0, by decide +kernel⟩⟩

theorem test_witness_WatchdogsAndScrub :
    (∃ (s : State) (c : Nat) (n : Nat), (epochOf s c n = none)) ∧
    (∃ (s : State) (c : Nat) (n : Nat) (t : Nat) (e : _), (epochOf s c n = some e) ∧ (7 ≤ t ∨ e.closed = false ∨ stageEnded s e t = false)) ∧
    (∃ (s : State) (c : Nat) (n : Nat) (t : Nat) (e : _) (w : _), (epochOf s c n = some e) ∧ (t < 7) ∧ (e.closed = true) ∧ (e.stagesEnded.contains t = false) ∧ (stageEnded s e t = true) ∧ (windowOf s c t = some w) ∧ (e.decided.contains t = false) ∧ (w.open_ * 1000 ≤ s.now - e.closeAt s) ∧ (s.now - e.closeAt s < w.close * 1000)) ∧
    (∃ (s : State) (c : Nat) (n : Nat) (t : Nat) (e : _) (w : _), (epochOf s c n = some e) ∧ (e.closed = true) ∧ (e.aborted = false) ∧ (e.decided.contains t = false) ∧ (windowOf s c t = some w)) ∧
    (∃ (s : State) (c : Nat) (n : Nat) (t : Nat) (e : _), (epochOf s c n = some e) ∧ (e.decided.contains t = true)) ∧
    (∃ (s : State) (c : Nat), ((cadOf s c).st ≠ .running)) ∧
    (∃ (s : State) (c : Nat), ((cadOf s c).st = .running) ∧ ((cadOf s c).last = none) ∧ ((cadOf s c).start < (cadOf s c).nextClose) ∧ ((windowOf s c 0).isSome = true) ∧ ((wdStatus s c 0).gapAt ≠ (cadOf s c).nextClose)) ∧
    (∃ (s : State) (c : Nat), ((wdStatus s c 0).gapAt = (cadOf s c).nextClose)) ∧
    (∃ (s : State) (m : _) (k : _), (k = Tbl.at 0 s.safe.scrub m % scrubWords m) ∧ (badIn s (scrubKey m k) 64 = false ∨ 78 ≤ m)) ∧
    (∃ (s : State) (m : _) (k : _), (k = Tbl.at 0 s.safe.scrub m % scrubWords m) ∧ (m < 78)) ∧
    (∃ (s : State) (m : _) (k : _), (k = Tbl.at 0 s.safe.scrub m % scrubWords m) ∧ (m = 86) ∧ (s.safe.intakeUp = true) ∧ (s.safe.intake.length < 64)) :=
  ⟨⟨up, 31, 5, by decide +kernel⟩,
   ⟨w311, 31, 5, 7, { ep 31 5 with cfg := { up.cfg with flows := [(4095, { guarded := true, cadence := 31, enable := true, grid := none, cring := none })] }, flows := [{ flow := 4095, guarded := true, mode := 0, taken := [], gated := true, runs := true, missing := false, partial_ := false, degraded := false, fallback := false, reefed := false, truncated := false, old := none, status := 0, flags := 0, late := false, ended := true, failAt := none, failSeq := none, doubted := false, written := false }] }, by decide +kernel⟩,
   ⟨w312, 31, 5, 6, { ep 31 5 with cfg := { up.cfg with flows := [(4095, { guarded := true, cadence := 31, enable := true, grid := none, cring := none })] }, flows := [{ flow := 4095, guarded := true, mode := 0, taken := [], gated := true, runs := true, missing := false, partial_ := false, degraded := false, fallback := false, reefed := false, truncated := false, old := none, status := 0, flags := 0, late := false, ended := true, failAt := none, failSeq := none, doubted := false, written := true }] }, { enable := true, open_ := 0, close := 1000 }, by decide +kernel⟩,
   ⟨w312, 31, 5, 6, { ep 31 5 with cfg := { up.cfg with flows := [(4095, { guarded := true, cadence := 31, enable := true, grid := none, cring := none })] }, flows := [{ flow := 4095, guarded := true, mode := 0, taken := [], gated := true, runs := true, missing := false, partial_ := false, degraded := false, fallback := false, reefed := false, truncated := false, old := none, status := 0, flags := 0, late := false, ended := true, failAt := none, failSeq := none, doubted := false, written := true }] }, { enable := true, open_ := 0, close := 1000 }, by decide +kernel⟩,
   ⟨w313, 31, 5, 6, { ep 31 5 with cfg := { up.cfg with flows := [(4095, { guarded := true, cadence := 31, enable := true, grid := none, cring := none })] }, flows := [{ flow := 4095, guarded := true, mode := 0, taken := [], gated := true, runs := true, missing := false, partial_ := false, degraded := false, fallback := false, reefed := false, truncated := false, old := none, status := 0, flags := 0, late := false, ended := true, failAt := none, failSeq := none, doubted := false, written := false }], decided := [6] }, by decide +kernel⟩,
   ⟨up, 31, by decide +kernel⟩,
   ⟨w314, 31, by decide +kernel⟩,
   ⟨up, 31, by decide +kernel⟩,
   ⟨up, 86, 0, by decide +kernel⟩,
   ⟨up, 77, 0, by decide +kernel⟩,
   ⟨up, 86, 0, by decide +kernel⟩⟩

theorem test_witness_TestsAndReadmission :
    (∃ (s : State) (u : Nat) (x : UnitSafe), (x = unitSafe s u) ∧ (u < 88) ∧ (s.safe.running = true) ∧ (x.service = 0) ∧ (unitIdle s u = true) ∧ (x.owed ≠ [])) ∧
    (∃ (s : State) (u : Nat) (x : UnitSafe), (x = unitSafe s u) ∧ (u < 88) ∧ (s.safe.running = true) ∧ (x.service = 0) ∧ (unitIdle s u = true) ∧ (x.owed = [])) ∧
    (∃ (s : State) (u : Nat) (x : UnitSafe) (k : _), (x = unitSafe s u) ∧ (u < 88) ∧ (s.safe.running = true) ∧ (x.service = 0) ∧ (unitIdle s u = true) ∧ (x.owed = []) ∧ (chooseSlice s u = some k) ∧ (workWaits s u = false)) ∧
    (∃ (s : State) (u : Nat) (x : UnitSafe), (x = unitSafe s u) ∧ (u < 88) ∧ (s.safe.running = true) ∧ (x.service = 0) ∧ (unitIdle s u = true) ∧ (x.owed = []) ∧ (chooseSlice s u = none)) ∧
    (∃ (s : State) (u : Nat) (x : UnitSafe), (x = unitSafe s u) ∧ (u < 88) ∧ (x.test = .none)) ∧
    (∃ (s : State) (u : Nat) (x : UnitSafe) (v : _), (x = unitSafe s u) ∧ (u < 88) ∧ (x.test = .golden v) ∧ (u < 72)) ∧
    (∃ (s : State) (u : Nat) (x : UnitSafe) (v : _), (x = unitSafe s u) ∧ (u < 88) ∧ (x.test = .golden v) ∧ (u < 72) ∧ (x.service = 0)) ∧
    (∃ (s : State) (u : Nat) (x : UnitSafe) (k : _) (v : _), (x = unitSafe s u) ∧ (u < 88) ∧ (x.test = .slice k v) ∧ (u < 72)) ∧
    (∃ (s : State) (u : Nat) (x : UnitSafe) (k : _) (v : _), (x = unitSafe s u) ∧ (u < 88) ∧ (x.test = .slice k v) ∧ (u < 72) ∧ (x.service = 0)) ∧
    (∃ (s : State) (u : Nat) (x : UnitSafe) (v : _), (x = unitSafe s u) ∧ (u < 88) ∧ (x.test = .golden v)) ∧
    (∃ (s : State) (u : Nat) (x : UnitSafe) (k : _) (v : _), (x = unitSafe s u) ∧ (u < 88) ∧ (x.test = .slice k v)) ∧
    (∃ (s : State) (u : Nat) (x : UnitSafe), (x = unitSafe s u) ∧ (u < 88) ∧ (s.safe.running = true) ∧ (x.service ≠ 2) ∧ (x.warned = false) ∧ (s.safe.intakeUp = true) ∧ (s.safe.intake.length < 56)) ∧
    (∃ (s : State) (u : Nat) (x : UnitSafe), (x = unitSafe s u) ∧ (u < 88) ∧ (x.service = 2)) ∧
    (∃ (s : State) (did : Nat) (u : Nat) (x : UnitSafe), (u < 88) ∧ (x = unitSafe s u) ∧ ((did = 1 ∨ did = 2)) ∧ (unitSelected s did = u) ∧ (s.safe.running = true) ∧ (x.service = 2)) ∧
    (∃ (s : State) (did : Nat) (u : Nat) (x : UnitSafe), (u < 88) ∧ (x = unitSafe s u) ∧ ((did = 1 ∨ did = 2)) ∧ (unitSelected s did = u) ∧ (s.safe.running = true) ∧ (u < 72) ∧ (x.service ≠ 2)) ∧
    (∃ (s : State) (did : Nat) (u : Nat) (x : UnitSafe), (u < 88) ∧ (x = unitSafe s u) ∧ ((did = 1 ∨ did = 2)) ∧ (unitSelected s did = u) ∧ (s.safe.running = true) ∧ (x.service = 2) ∧ (x.step = 0)) ∧
    (∃ (s : State) (did : Nat) (u : Nat) (x : UnitSafe), (u < 88) ∧ (x = unitSafe s u) ∧ ((did = 1 ∨ did = 2)) ∧ (unitSelected s did = u) ∧ (s.safe.running = true) ∧ (x.service ≠ 2)) ∧
    (∃ (s : State) (u : Nat) (x : UnitSafe), (u < 88) ∧ (x = unitSafe s u) ∧ (x.step = 0)) ∧
    (∃ (s : State) (u : Nat) (x : UnitSafe), (u < 88) ∧ (x = unitSafe s u) ∧ (x.step = 1)) ∧
    (∃ (s : State) (u : Nat) (x : UnitSafe), (u < 88) ∧ (x = unitSafe s u) ∧ (x.step = 2) ∧ (u < 72)) ∧
    (∃ (s : State) (u : Nat) (x : UnitSafe), (u < 88) ∧ (x = unitSafe s u) ∧ (x.step = 3) ∧ ((engineOf s u).resident = [])) ∧
    (∃ (s : State) (u : Nat) (x : UnitSafe), (u < 88) ∧ (x = unitSafe s u) ∧ (x.step = 4)) ∧
    (∃ (s : State) (u : Nat) (x : UnitSafe), (u < 88) ∧ (x = unitSafe s u) ∧ (x.step = 4) ∧ (u < 72) ∧ (x.service ≠ 2)) ∧
    (∃ (s : State) (u : Nat) (x : UnitSafe), (u < 88) ∧ (x = unitSafe s u) ∧ (x.step = 5) ∧ (x.startup = false) ∧ (anyRunning s = true)) ∧
    (∃ (s : State) (u : Nat) (x : UnitSafe), (u < 88) ∧ (x = unitSafe s u) ∧ (x.step = 6) ∧ (u < 72) ∧ (x.startup = false)) ∧
    (∃ (s : State) (u : Nat) (x : UnitSafe), (u < 88) ∧ (x = unitSafe s u) ∧ (x.step ≠ 6)) :=
  ⟨⟨w315, 87, { UnitSafe.reset with service := 0, owed := [(31, 5)] }, by decide +kernel⟩,
   ⟨w316, 87, { UnitSafe.reset with service := 0 }, by decide +kernel⟩,
   ⟨w316, 87, { UnitSafe.reset with service := 0 }, 0, by decide +kernel⟩,
   ⟨w317, 71, { UnitSafe.reset with service := 0 }, by decide +kernel⟩,
   ⟨w316, 87, { UnitSafe.reset with service := 0 }, by decide +kernel⟩,
   ⟨w318, 71, { UnitSafe.reset with service := 0, test := .golden 5, owed := [(31, 5)] }, 5, by decide +kernel⟩,
   ⟨w318, 71, { UnitSafe.reset with service := 0, test := .golden 5, owed := [(31, 5)] }, 5, by decide +kernel⟩,
   ⟨w319, 71, { UnitSafe.reset with service := 0, test := .slice 6 5 }, 6, 5, by decide +kernel⟩,
   ⟨w319, 71, { UnitSafe.reset with service := 0, test := .slice 6 5 }, 6, 5, by decide +kernel⟩,
   ⟨w320, 71, { UnitSafe.reset with service := 0, test := .golden 5 }, 5, by decide +kernel⟩,
   ⟨w321, 87, { UnitSafe.reset with service := 0, test := .slice 1 5 }, 1, 5, by decide +kernel⟩,
   ⟨w316, 87, { UnitSafe.reset with service := 0 }, by decide +kernel⟩,
   ⟨w322, 87, { UnitSafe.reset with service := 2 }, by decide +kernel⟩,
   ⟨w323, 2, 87, { UnitSafe.reset with service := 2 }, by decide +kernel⟩,
   ⟨w324, 2, 71, { UnitSafe.reset with service := 1 }, by decide +kernel⟩,
   ⟨w323, 2, 87, { UnitSafe.reset with service := 2 }, by decide +kernel⟩,
   ⟨w325, 2, 87, { UnitSafe.reset with service := 1 }, by decide +kernel⟩,
   ⟨w316, 87, { UnitSafe.reset with service := 0 }, by decide +kernel⟩,
   ⟨w326, 87, { UnitSafe.reset with service := 2, step := 1 }, by decide +kernel⟩,
   ⟨w327, 71, { UnitSafe.reset with service := 1, step := 2 }, by decide +kernel⟩,
   ⟨w328, 71, { UnitSafe.reset with service := 1, step := 3 }, by decide +kernel⟩,
   ⟨w329, 87, { UnitSafe.reset with service := 1, step := 4 }, by decide +kernel⟩,
   ⟨w330, 71, { UnitSafe.reset with service := 1, step := 4 }, by decide +kernel⟩,
   ⟨w331, 87, { UnitSafe.reset with service := 1, step := 5 }, by decide +kernel⟩,
   ⟨w332, 71, { UnitSafe.reset with service := 1, step := 6 }, by decide +kernel⟩,
   ⟨w333, 87, { UnitSafe.reset with service := 1, step := 5 }, by decide +kernel⟩⟩

theorem test_witness_InterruptControl :
    (∃ (s : State) (sic : Bool) (k : Nat) (x : IntSource), (x = sourceOf s sic k) ∧ (k < sourceCount sic) ∧ (sourceReserved sic k = false) ∧ (x.sense = 3) ∧ (x.input = false) ∧ (x.pending = false) ∧ (x.inService = false)) ∧
    (∃ (s : State) (sic : Bool) (k : Nat) (x : IntSource), (x = sourceOf s sic k) ∧ (k < sourceCount sic) ∧ (sourceReserved sic k = false) ∧ (x.sense = 3) ∧ (x.input = false) ∧ (x.pending = true ∨ x.inService = true)) ∧
    (∃ (s : State) (sic : Bool) (k : Nat) (x : IntSource), (x = sourceOf s sic k) ∧ (sourceCount sic ≤ k ∨ sourceReserved sic k = true)) ∧
    (∃ (s : State) (sic : Bool) (k : Nat) (p : Nat) (x : IntSource) (cl : _) (m : State), (x = sourceOf s sic k) ∧ ((sic = true ∧ p = 0) ∨ (sic = false ∧ p < 4)) ∧ (m = openMask s sic p cl) ∧ (bestSource m sic p = none)) ∧
    (∃ (s : State) (sic : Bool) (k : Nat) (p : Nat) (x : IntSource) (cl : _) (m : State), (x = sourceOf s sic k) ∧ ((sic = true ∧ p = 0) ∨ (sic = false ∧ p < 4)) ∧ (m = openMask s sic p cl) ∧ (bestSource m sic p = some k) ∧ (deliveries m x < 4096)) ∧
    (∃ (s : State) (sic : Bool) (k : Nat) (p : Nat) (x : IntSource) (cl : _) (m : State), (x = sourceOf s sic k) ∧ ((sic = true ∧ p = 0) ∨ (sic = false ∧ p < 4)) ∧ (m = openMask s sic p cl) ∧ (bestSource m sic p = some k) ∧ (4096 ≤ deliveries m x)) ∧
    (∃ (s : State) (sic : Bool) (k : Nat) (p : Nat) (x : IntSource) (cl : _) (m : State) (u : State), (x = sourceOf s sic k) ∧ ((sic = true ∧ p = 0) ∨ (sic = false ∧ p < 4)) ∧ (m = openMask s sic p cl) ∧ (u = setProc m sic p { procOf m sic p with asleep := true }) ∧ ((List.range (sourceCount sic)).any (wakes u sic p) = false)) ∧
    (∃ (s : State) (sic : Bool) (k : Nat) (p : Nat) (x : IntSource) (cl : _) (m : State) (u : State), (x = sourceOf s sic k) ∧ ((sic = true ∧ p = 0) ∨ (sic = false ∧ p < 4)) ∧ (m = openMask s sic p cl) ∧ (u = setProc m sic p { procOf m sic p with asleep := true }) ∧ ((List.range (sourceCount sic)).any (wakes u sic p) = true) ∧ (bestSource u sic p = none)) ∧
    (∃ (s : State) (sic : Bool) (k : Nat) (p : Nat) (x : IntSource), (x = sourceOf s sic k) ∧ ((sic = true ∧ p = 0) ∨ (sic = false ∧ p < 4)) ∧ (k ∈ (procOf s sic p).stack)) ∧
    (∃ (s : State) (sic : Bool) (k : Nat) (p : Nat) (x : IntSource), (x = sourceOf s sic k) ∧ ((sic = true ∧ p = 0) ∨ (sic = false ∧ p < 4)) ∧ (k ∉ (procOf s sic p).stack)) ∧
    (∃ (s : State) (sic : Bool) (k : Nat) (p : Nat) (x : IntSource), (x = sourceOf s sic k) ∧ (sic = false) ∧ (srcSelected s 1 p = k) ∧ (s.bootReady = true) ∧ (sourceReserved false k = false)) ∧
    (∃ (s : State) (sic : Bool) (k : Nat) (p : Nat) (x : IntSource), (x = sourceOf s sic k) ∧ (sic = false) ∧ (srcSelected s 1 p = k) ∧ (s.bootReady = true) ∧ (sourceReserved false k = false) ∧ (x.level = false)) ∧
    (∃ (s : State) (sic : Bool) (k : Nat) (p : Nat) (x : IntSource), (x = sourceOf s sic k) ∧ (sic = true) ∧ (srcSelected s 0 p = k) ∧ (sourceReserved true k = false)) ∧
    (∃ (s : State) (sic : Bool) (k : Nat) (p : Nat) (x : IntSource), (x = sourceOf s sic k) ∧ (sic = true) ∧ (srcSelected s 0 p = k) ∧ (sourceReserved true k = false) ∧ (x.level = false)) ∧
    (∃ (s : State) (sic : Bool) (k : Nat) (x : IntSource) (did : _), (x = sourceOf s sic k) ∧ (2 ≤ did)) ∧
    (∃ (s : State) (sic : Bool) (k : Nat) (x : IntSource) (did : _), (x = sourceOf s sic k) ∧ (did ≠ 1)) ∧
    (∃ (s : State) (sic : Bool) (k : Nat) (x : IntSource), (x = sourceOf s sic k) ∧ (sic = false) ∧ (s.bootReady = true) ∧ (768 ≤ k) ∧ (k < 1024) ∧ (x.sense = 3) ∧ (x.pending = false) ∧ (x.inService = false)) ∧
    (∃ (s : State) (sic : Bool) (k : Nat) (x : IntSource), (x = sourceOf s sic k) ∧ (sic = false) ∧ (s.bootReady = true) ∧ (768 ≤ k) ∧ (k < 1024) ∧ (x.sense = 3) ∧ (x.pending = false) ∧ (x.inService = false) ∧ (k < 960)) ∧
    (∃ (s : State) (sic : Bool) (k : Nat) (x : IntSource) (l : _), (x = sourceOf s sic k) ∧ (s.bootReady = true) ∧ (l < 16) ∧ (s.dbg.boundary = false) ∧ (Tbl.at false s.icu.locks l = false)) ∧
    (∃ (s : State) (sic : Bool) (k : Nat) (x : IntSource) (l : _), (x = sourceOf s sic k) ∧ (s.bootReady = true) ∧ (l < 16) ∧ (s.dbg.boundary = false) ∧ (Tbl.at false s.icu.locks l = true)) ∧
    (∃ (s : State) (sic : Bool) (k : Nat) (x : IntSource) (l : _), (x = sourceOf s sic k) ∧ (s.bootReady = true) ∧ (l < 16) ∧ (s.dbg.boundary = false)) ∧
    (∃ (s : State) (sic : Bool) (k : Nat) (x : IntSource), (x = sourceOf s sic k)) :=
  ⟨⟨up, false, 1023, IntSource.reset 3, by decide +kernel⟩,
   ⟨w334, false, 1023, { IntSource.reset 3 with pending := true }, by decide +kernel⟩,
   ⟨up, true, 255, IntSource.reset 0, by decide +kernel⟩,
   ⟨up, false, 1023, 3, IntSource.reset 3, true, openMask (up) (false) (3) (true), by decide +kernel⟩,
   ⟨w335, false, 1023, 3, { IntSource.reset 3 with pending := true, masked := false, prio := 5, target := 3 }, true, openMask (w335) (false) (3) (true), by decide +kernel⟩,
   ⟨w336, false, 1023, 3, { IntSource.reset 3 with pending := true, masked := false, prio := 5, target := 3, count := 4096 }, true, openMask (w336) (false) (3) (true), by decide +kernel⟩,
   ⟨up, false, 1023, 3, IntSource.reset 3, true, openMask (up) (false) (3) (true), setProc (openMask (up) (false) (3) (true)) (false) (3) { procOf (openMask (up) (false) (3) (true)) (false) (3) with asleep := true }, by decide +kernel⟩,
   ⟨w337, false, 1023, 3, { IntSource.reset 3 with pending := true, masked := false, prio := 5, target := 3 }, true, openMask (w337) (false) (3) (true), setProc (openMask (w337) (false) (3) (true)) (false) (3) { procOf (openMask (w337) (false) (3) (true)) (false) (3) with asleep := true }, by decide +kernel⟩,
   ⟨w338, false, 1023, 3, { IntSource.reset 3 with inService := true }, by decide +kernel⟩,
   ⟨up, false, 1023, 3, IntSource.reset 3, by decide +kernel⟩,
   ⟨w339, false, 1023, 3, IntSource.reset 3, by decide +kernel⟩,
   ⟨w339, false, 1023, 3, IntSource.reset 3, by decide +kernel⟩,
   ⟨w340, true, 16, 19, sourceOf (w340) (true) (16), by decide +kernel⟩,
   ⟨w340, true, 16, 19, sourceOf (w340) (true) (16), by decide +kernel⟩,
   ⟨up, false, 1023, sourceOf (up) (false) (1023), 2, by decide +kernel⟩,
   ⟨up, false, 1023, IntSource.reset 3, 2, by decide +kernel⟩,
   ⟨up, false, 1023, IntSource.reset 3, by decide +kernel⟩,
   ⟨up, false, 959, IntSource.reset 3, by decide +kernel⟩,
   ⟨up, false, 1023, IntSource.reset 3, 15, by decide +kernel⟩,
   ⟨w341, false, 1023, IntSource.reset 3, 15, by decide +kernel⟩,
   ⟨up, false, 1023, IntSource.reset 3, 15, by decide +kernel⟩,
   ⟨w342, false, 1023, { IntSource.reset 3 with count := 77 }, by decide +kernel⟩⟩

theorem test_witness_EventsLost :
    (∃ (s : State) (sic : Bool) (k : Nat) (x : IntSource) (level : Bool), (x = sourceOf s sic k) ∧ ((x.pending = true ∨ x.inService = true)) ∧ (k < sourceCount sic) ∧ (sourceReserved sic k = false) ∧ (x.input ≠ level) ∧ (((x.sense = 3 ∧ level = true) ∨ (x.sense = 4 ∧ level = false) ∨ x.sense = 5))) ∧
    (∃ (s : State) (sic : Bool) (k : Nat) (x : IntSource), (x = sourceOf s sic k) ∧ ((x.pending = true ∨ x.inService = true)) ∧ (sic = false) ∧ (s.bootReady = true) ∧ (768 ≤ k) ∧ (k < 1024) ∧ (3 ≤ x.sense)) :=
  ⟨⟨w334, false, 1023, { IntSource.reset 3 with pending := true }, true, by decide +kernel⟩,
   ⟨w343, false, 1023, { IntSource.reset 3 with inService := true }, by decide +kernel⟩⟩

theorem test_witness_ResetCauses :
    (∃ (s : State) (c : Instr) (k : Nat) (w : _), (logicPowered s = true) ∧ (((c = .logicBrownout ∧ k = 1) ∨ (c = .resetPin ∧ k = 2) ∨ (c = .pcieFundamental ∧ k = 3) ∨ (c = .pcieHot ∧ k = 4) ∨ (c = .hostDeviceCmd 2 ∧ k = 5 ∧ pcieUp s = true) ∨ (c = .octurCmd 0 1 ∧ k = 7 ∧ s.power.octurResetEn = true) ∨ (c = .safeWatchdog ∧ k = 9 ∧ s.safe.fatal.any (fun f => f.1 == 2) = true) ∨ (c = .thermalTrip ∧ k = 10) ∨ (c = .debugCmd ∧ k = 11 ∧ s.dbg.level = 2 ∧ s.dbg.boundary = false ∧ s.dbg.production = false))) ∧ (s.power.seqCause = some w) ∧ (scopeOf s k ≤ scopeOf s w) ∧ (s.power.stage ≠ 7)) ∧
    (∃ (s : State) (c : Instr) (k : Nat), (logicPowered s = true) ∧ (((c = .logicBrownout ∧ k = 1) ∨ (c = .resetPin ∧ k = 2) ∨ (c = .pcieFundamental ∧ k = 3) ∨ (c = .pcieHot ∧ k = 4) ∨ (c = .hostDeviceCmd 2 ∧ k = 5 ∧ pcieUp s = true) ∨ (c = .octurCmd 0 1 ∧ k = 7 ∧ s.power.octurResetEn = true) ∨ (c = .safeWatchdog ∧ k = 9 ∧ s.safe.fatal.any (fun f => f.1 == 2) = true) ∨ (c = .thermalTrip ∧ k = 10) ∨ (c = .debugCmd ∧ k = 11 ∧ s.dbg.level = 2 ∧ s.dbg.boundary = false ∧ s.dbg.production = false))) ∧ (s.power.seqCause = none)) ∧
    (∃ (did : _), (did ≠ 2)) ∧
    (∃ (s : State), (s.dbg.level ≠ 2) ∧ (s.dbg.boundary = false) ∧ (s.dbg.production = false)) ∧
    (∃ (s : State), (s.safe.fatal = none)) ∧
    (∃ (s : State), (s.power.octurResetEn = false) ∧ (s.safe.intakeUp = true) ∧ (s.safe.intake.length < 56)) ∧
    (∃ (s : State), (s.power.seqCause = none)) ∧
    (∃ (s : State), (s.power.pstate = 4)) ∧
    (∃ (s : State), (s.power.pstate = 3)) ∧
    (∃ (s : State), (pcieUp s = true) ∧ (s.power.rcuTarget < 72) ∧ (unitResetRefused s s.power.rcuTarget = false)) ∧
    (∃ (s : State), (pcieUp s = true) ∧ (targetKnown s.power.rcuTarget = true) ∧ (unitResetRefused s s.power.rcuTarget = true)) ∧
    (∃ (s : State), (pcieUp s = true) ∧ (targetKnown s.power.rcuTarget = false)) ∧
    (∃ (s : State) (did : _), (did = 1 ∨ did = 2) ∧ (maintOpen s did = true) ∧ (s.sec.lifecycle ≠ 3)) ∧
    (∃ (s : State) (did : _), (did = 1 ∨ did = 2) ∧ (maintOpen s did = false ∨ s.sec.lifecycle = 3)) ∧
    (∃ (did : _), (did ≠ 1) ∧ (did ≠ 2)) :=
  ⟨⟨w344, .thermalTrip, 10, 2, by decide +kernel, by decide +kernel, by decide +kernel, by decide +kernel⟩,
   ⟨up, .thermalTrip, 10, by decide +kernel, by decide +kernel, by decide +kernel⟩,
   ⟨1, by decide +kernel⟩,
   ⟨up, by decide +kernel⟩,
   ⟨up, by decide +kernel⟩,
   ⟨up, by decide +kernel⟩,
   ⟨up, by decide +kernel⟩,
   ⟨w345, by decide +kernel⟩,
   ⟨w346, by decide +kernel⟩,
   ⟨w347, by decide +kernel⟩,
   ⟨w348, by decide +kernel⟩,
   ⟨w349, by decide +kernel⟩,
   ⟨w53, 1, by decide +kernel⟩,
   ⟨up, 1, by decide +kernel⟩,
   ⟨3, by decide +kernel⟩⟩

theorem test_witness_ReleaseAndBoot :
    (∃ (s : State), (s.power.inReset = [])) ∧
    (∃ (s : State), (s.power.railsGood = false) ∧ (1 ∉ s.power.inReset) ∧ (9 ∉ s.power.inReset)) ∧
    (∃ (s : State), (s.power.railsGood = false) ∧ (s.power.inReset.find? (fun d => d == 1 || d == 9) = some 1) ∧ (s.power.stage ≠ 7) ∧ (s.power.pstate ≤ 2)) ∧
    (∃ (s : State) (d : _) (rest : _), (s.power.railsGood = true) ∧ (s.power.inReset = d :: rest) ∧ (d ∉ rest) ∧ (s.power.stage ≠ 7) ∧ (s.power.pstate ≤ 2) ∧ (s.power.step < 16) ∧ ((d = 1 ∨ d = 2 ∨ d = 4)) ∧ (rest ≠ [])) ∧
    (∃ (s : State) (d : _) (rest : _), (s.power.railsGood = true) ∧ (s.power.inReset = d :: rest) ∧ (d ∉ rest) ∧ (s.power.stage ≠ 7) ∧ (s.power.pstate ≤ 2) ∧ (s.power.step < 16) ∧ ((d = 0 ∨ d = 3)) ∧ ((0 ∈ s.power.held ∨ 2 ∈ s.power.held))) ∧
    (∃ (s : State) (d : _) (rest : _), (s.power.railsGood = true) ∧ (s.power.inReset = d :: rest) ∧ (d ∉ rest) ∧ (s.power.stage ≠ 7) ∧ (s.power.pstate ≤ 2) ∧ (s.power.step < 16) ∧ (d = 5) ∧ (s.power.trained = false)) ∧
    (∃ (s : State) (d : _) (rest : _), (s.power.railsGood = true) ∧ (s.power.inReset = d :: rest) ∧ (d ∉ rest) ∧ (s.power.stage ≠ 7) ∧ (s.power.pstate ≤ 2) ∧ (s.power.step < 16) ∧ (d = 5) ∧ (s.power.trained = true)) ∧
    (∃ (s : State) (d : _) (rest : _), (s.power.railsGood = true) ∧ (s.power.inReset = d :: rest) ∧ (d ∉ rest) ∧ (s.power.stage ≠ 7) ∧ (s.power.pstate ≤ 2) ∧ (s.power.step < 16) ∧ (d = 6) ∧ (s.power.step < 9)) ∧
    (∃ (s : State) (d : _) (rest : _), (s.power.railsGood = true) ∧ (s.power.inReset = d :: rest) ∧ (d ∉ rest) ∧ (s.power.stage ≠ 7) ∧ (s.power.pstate ≤ 2) ∧ (s.power.step < 16) ∧ (d = 6) ∧ (9 ≤ s.power.step)) ∧
    (∃ (s : State) (d : _) (rest : _), (s.power.railsGood = true) ∧ (s.power.inReset = d :: rest) ∧ (d ∉ rest) ∧ (s.power.stage ≠ 7) ∧ (s.power.pstate ≤ 2) ∧ (s.power.step < 16) ∧ (d = 7)) ∧
    (∃ (s : State) (d : _) (rest : _), (s.power.railsGood = true) ∧ (s.power.inReset = d :: rest) ∧ (d ∉ rest) ∧ (s.power.stage ≠ 7) ∧ (s.power.pstate ≤ 2) ∧ (s.power.step < 16) ∧ (d = 9) ∧ (rest = [])) ∧
    (∃ (s : State), (s.power.stage = 7)) ∧
    (∃ (s : State), (s.power.stage ≠ 7) ∧ (s.power.pstate ≤ 2) ∧ (s.power.step = 6) ∧ (s.power.trained = false)) ∧
    (∃ (s : State), (s.power.stage ≠ 7) ∧ (s.power.pstate ≤ 2) ∧ (s.power.step = 6) ∧ (s.power.trained = false) ∧ (s.power.training < 2)) ∧
    (∃ (s : State), (s.power.stage ≠ 7) ∧ (s.power.pstate ≤ 2) ∧ (s.power.step = 6) ∧ (s.power.trained = false) ∧ (2 ≤ s.power.training)) ∧
    (∃ (s : State), (s.power.stage ≠ 7) ∧ (s.power.pstate ≤ 2) ∧ (s.power.step = 7) ∧ (sourceReady s = false)) ∧
    (∃ (s : State), (s.power.stage ≠ 7) ∧ (s.power.pstate ≤ 2) ∧ (s.power.step = 7) ∧ (sourceReady s = true)) ∧
    (∃ (s : State), (s.power.stage ≠ 7) ∧ (s.power.pstate ≤ 2) ∧ (s.power.step = 7) ∧ (sourceReady s = true) ∧ (s.power.bootSrc ≠ 0)) ∧
    (∃ (s : State), (s.power.stage ≠ 7) ∧ (s.power.pstate ≤ 2) ∧ (s.power.step = 7) ∧ (sourceReady s = true) ∧ (s.power.bootSrc = 0) ∧ (s.power.bank ≤ 1) ∧ (s.sec.pendingBank = none) ∧ (s.sec.badBanks = []) ∧ (s.power.failedBanks = [])) ∧
    (∃ (s : State), (s.power.stage ≠ 7) ∧ (s.power.pstate ≤ 2) ∧ (s.power.step = 7) ∧ (sourceReady s = true) ∧ (s.power.bootSrc = 0) ∧ (s.sec.pendingBank = none) ∧ (1 - s.power.bank ∈ s.power.failedBanks)) ∧
    (∃ (s : State), (s.power.stage ≠ 7) ∧ (s.power.pstate ≤ 2) ∧ (s.power.step = 8) ∧ (s.power.strapWarn = false)) ∧
    (∃ (s : State), (s.power.stage ≠ 7) ∧ (s.power.pstate ≤ 2) ∧ (s.power.step = 12)) ∧
    (∃ (s : State), (s.power.stage ≠ 7) ∧ (s.power.pstate ≤ 2) ∧ (s.power.step = 13)) ∧
    (∃ (s : State), (s.power.stage ≠ 7) ∧ (s.power.pstate ≤ 2) ∧ (s.power.step = 14) ∧ (s.sec.stored = none)) ∧
    (∃ (s : State), (s.power.stage ≠ 7) ∧ (s.power.pstate ≤ 2) ∧ (s.power.step = 14)) ∧
    (∃ (s : State) (i : _) (dg : _) (v : _) (l : _), (s.power.stage ≠ 7) ∧ (s.power.pstate ≤ 2) ∧ (s.power.step = 14) ∧ (s.sec.stored = some (i, dg, v, l)) ∧ ((s.sec.lifecycle = 1 ∨ s.sec.lifecycle = 2)) ∧ (s.sec.storedGen = s.sec.safetyGen) ∧ (s.sec.fuseImage ≤ v)) ∧
    (∃ (s : State), (s.power.stage ≠ 7) ∧ (s.power.pstate ≤ 2) ∧ (s.power.step = 15)) ∧
    (∃ (s : State) (did : _), ((did = 1 ∨ did = 2)) ∧ (s.power.waitFrom ≠ none)) ∧
    (∃ (did : _), (did ≠ 1) ∧ (did ≠ 2)) ∧
    (∃ (s : State), (s.power.waitFrom = none)) ∧
    (∃ (s : State), (s.power.waitFrom = none)) ∧
    (∃ (s : State) (v : _), (s.power.waitFrom = some v) ∧ (s.power.bootGo = true)) ∧
    (∃ (s : State) (v : _), (s.power.waitFrom = some v) ∧ (s.power.bootGo = false)) :=
  ⟨⟨up, by decide +kernel⟩,
   ⟨w350, by decide +kernel⟩,
   ⟨w351, by decide +kernel⟩,
   ⟨w352, 4, [5, 6], by decide +kernel⟩,
   ⟨w353, 3, [4], by decide +kernel⟩,
   ⟨w354, 5, [6], by decide +kernel⟩,
   ⟨w355, 5, [6], by decide +kernel⟩,
   ⟨w356, 6, [7], by decide +kernel⟩,
   ⟨w357, 6, [7], by decide +kernel⟩,
   ⟨w358, 7, [8, 9], by decide +kernel⟩,
   ⟨w359, 9, [], by decide +kernel⟩,
   ⟨w360, by decide +kernel⟩,
   ⟨w361, by decide +kernel⟩,
   ⟨w362, by decide +kernel⟩,
   ⟨w363, by decide +kernel⟩,
   ⟨w364, by decide +kernel⟩,
   ⟨w365, by decide +kernel⟩,
   ⟨w366, by decide +kernel⟩,
   ⟨w367, by decide +kernel⟩,
   ⟨w368, by decide +kernel⟩,
   ⟨w369, by decide +kernel⟩,
   ⟨w370, by decide +kernel⟩,
   ⟨w371, by decide +kernel⟩,
   ⟨w372, by decide +kernel⟩,
   ⟨w372, by decide +kernel⟩,
   ⟨w373, Image.blank, 5, 7, true, by decide +kernel⟩,
   ⟨w374, by decide +kernel⟩,
   ⟨w375, 2, by decide +kernel⟩,
   ⟨3, by decide +kernel⟩,
   ⟨up, by decide +kernel⟩,
   ⟨up, by decide +kernel⟩,
   ⟨w376, 5, by decide +kernel⟩,
   ⟨w377, 5, by decide +kernel⟩⟩

theorem test_witness_PowerStates :
    (∃ (s : State) (did : Nat) (g : Nat), ((did = 1 ∨ did = 2)) ∧ (s.bootReady = true) ∧ (g ≤ 3) ∧ (s.power.busy = false) ∧ (g ≠ s.power.pstate)) ∧
    (∃ (s : State) (did : Nat) (g : Nat), ((did = 1 ∨ did = 2)) ∧ (s.bootReady = true) ∧ (g ≤ 3) ∧ (s.power.busy = true)) ∧
    (∃ (s : State) (did : Nat) (g : Nat), ((did = 1 ∨ did = 2)) ∧ (s.bootReady = true) ∧ (g ≤ 3) ∧ (s.power.busy = false) ∧ (g = s.power.pstate)) ∧
    (∃ (did : Nat) (g : Nat), ((did ≠ 1 ∧ did ≠ 2) ∨ 3 < g)) ∧
    (∃ (s : State), (s.power.busy = false)) ∧
    (∃ (s : State) (g : Nat), (s.power.busy = true) ∧ (s.power.goal = g) ∧ (s.power.target = g) ∧ (g ≤ 1) ∧ (s.power.pstate ≤ 1)) ∧
    (∃ (s : State) (g : Nat), (s.power.busy = true) ∧ (s.power.goal = g) ∧ (s.power.target = g) ∧ (2 ≤ g) ∧ (s.power.pstate ≤ 1) ∧ (workIdle s = false)) ∧
    (∃ (s : State) (g : Nat), (s.power.busy = true) ∧ (s.power.goal = g) ∧ (s.power.target = g) ∧ (2 ≤ g) ∧ (s.power.pstate ≤ 1) ∧ (workIdle s = true)) ∧
    (∃ (s : State) (g : Nat), (s.power.busy = true) ∧ (s.power.goal = g) ∧ (s.power.target = g) ∧ (3 ≤ g) ∧ (s.power.pstate = 2)) ∧
    (∃ (s : State), (s.power.pstate ≠ 3)) ∧
    (∃ (s : State), (s.power.pstate = 3)) ∧
    (∃ (s : State), (s.power.pstate = 3) ∧ (s.power.wakeCopy = 0)) ∧
    (∃ (s : State), (s.power.pstate = 3) ∧ (s.power.wakeCopy ≠ 0)) ∧
    (∃ (s : State), (s.power.pstate = 3)) ∧
    (∃ (s : State), (s.power.pstate = 4)) ∧
    (∃ (s : State), (s.power.pstate ≠ 4) ∧ (s.power.seqCause = none)) ∧
    (∃ (s : State) (j : _), (s.power.pstate = 0) ∧ (s.power.target = 0) ∧ (s.bootReady = true) ∧ (1600 ≤ j) ∧ (j < 32768)) ∧
    (∃ (s : State) (j : _), (s.power.pstate = 0) ∧ (s.power.target = 0) ∧ (s.bootReady = true) ∧ (j < 1600)) ∧
    (∃ (s : State) (w : _), (s.power.pstate = 0) ∧ (s.power.target = 0) ∧ (s.bootReady = true) ∧ (s.power.plimit * 10 < w)) ∧
    (∃ (s : State) (w : _), (s.power.pstate = 0) ∧ (s.power.target = 0) ∧ (s.bootReady = true) ∧ (w ≤ s.power.plimit * 10)) ∧
    (∃ (s : State) (j : _) (w : _), (s.power.pstate = 1) ∧ (s.power.reason ≠ 0) ∧ (s.power.target = 0) ∧ (j ≤ 1520) ∧ (w ≤ 9 * s.power.plimit)) ∧
    (∃ (s : State) (j : _) (w : _), (s.power.pstate = 1) ∧ (s.power.reason ≠ 0) ∧ (s.power.target = 0) ∧ ((1520 < j ∧ j < 32768) ∨ 9 * s.power.plimit < w)) :=
  ⟨⟨up, 2, 3, by decide +kernel⟩,
   ⟨w378, 2, 3, by decide +kernel⟩,
   ⟨up, 2, 0, by decide +kernel⟩,
   ⟨3, 3, by decide +kernel⟩,
   ⟨up, by decide +kernel⟩,
   ⟨w379, 1, by decide +kernel⟩,
   ⟨w380, 3, by decide +kernel⟩,
   ⟨w381, 3, by decide +kernel⟩,
   ⟨w382, 3, by decide +kernel⟩,
   ⟨up, by decide +kernel⟩,
   ⟨w346, by decide +kernel⟩,
   ⟨w346, by decide +kernel⟩,
   ⟨w383, by decide +kernel⟩,
   ⟨w346, by decide +kernel⟩,
   ⟨w345, by decide +kernel⟩,
   ⟨up, by decide +kernel⟩,
   ⟨up, 1600, by decide +kernel⟩,
   ⟨up, 1599, by decide +kernel⟩,
   ⟨up, 2401, by decide +kernel⟩,
   ⟨up, 2400, by decide +kernel⟩,
   ⟨w384, 1520, 2160, by decide +kernel⟩,
   ⟨w384, 1521, 2160, by decide +kernel⟩⟩

theorem test_witness_MaintenanceCommands :
    (∃ (s : State) (d : Desc), (Accepted s d (infoSecFwUpdate s d)) ∧ (maintOpen s d.did = false)) ∧
    (∃ (s : State) (d : Desc), (Accepted s d (infoSecImageLoad s d)) ∧ (maintOpen s d.did = false)) ∧
    (∃ (s : State) (d : Desc), (Accepted s d (infoSecKeyRotate s d)) ∧ (maintOpen s d.did = false)) ∧
    (∃ (s : State) (d : Desc), (Accepted s d (infoSecLifecycle s d)) ∧ (maintOpen s d.did = false)) ∧
    (∃ (s : State) (d : Desc) (bs : List Byte) (u : State), (Accepted s d (infoSecFwUpdate s d)) ∧ (maintOpen s d.did = true) ∧ (dfld d 32 0 32 ≠ 0) ∧ (dfld d 32 0 32 ≤ 33554432) ∧ (devRead (maintRecord (markStarted s d) d.did (dOpcode d)) (secWho d) (dfld d 24 0 64) (dfld d 32 0 32) = (stOk, bs, u))) ∧
    (∃ (s : State) (d : Desc), (Accepted s d (infoSecImageLoad s d)) ∧ (maintOpen s d.did = true) ∧ ((s.sec.lifecycle = 1 ∨ s.sec.lifecycle = 2)) ∧ (allStopped s = false)) ∧
    (∃ (s : State) (d : Desc) (bs : List Byte) (u : State), (Accepted s d (infoSecImageLoad s d)) ∧ (maintOpen s d.did = true) ∧ ((s.sec.lifecycle = 1 ∨ s.sec.lifecycle = 2)) ∧ (allStopped s = true) ∧ (devRead (maintRecord (markStarted s d) d.did (dOpcode d)) (secWho d) (dfld d 24 0 64) (min (dfld d 32 0 32) 16777217) = (stOk, bs, u))) ∧
    (∃ (s : State) (d : Desc) (bs : List Byte) (u : State), (Accepted s d (infoSecKeyRotate s d)) ∧ (maintOpen s d.did = true) ∧ ((s.sec.lifecycle = 1 ∨ s.sec.lifecycle = 2)) ∧ (devRead (maintRecord (markStarted s d) d.did (dOpcode d)) (secWho d) (dfld d 24 0 64) 256 = (stOk, bs, u)) ∧ (certShape bs false = true) ∧ (1 ≤ hdr bs 0 1) ∧ (hdr bs 0 1 ≤ 3) ∧ (hdr bs 1 1 = genOf u (hdr bs 0 1) + 1) ∧ (hdr bs 1 1 ≤ 15)) ∧
    (∃ (s : State) (d : Desc) (bs : List Byte) (u : State), (Accepted s d (infoSecKeyRotate s d)) ∧ (maintOpen s d.did = true) ∧ ((s.sec.lifecycle = 1 ∨ s.sec.lifecycle = 2)) ∧ (devRead (maintRecord (markStarted s d) d.did (dOpcode d)) (secWho d) (dfld d 24 0 64) 256 = (stOk, bs, u)) ∧ (hdr bs 1 1 ≠ genOf u (hdr bs 0 1) + 1)) ∧
    (∃ (s : State) (d : Desc), (Accepted s d (infoSecLifecycle s d)) ∧ (maintOpen s d.did = true) ∧ (dfld d 16 0 2 = 3) ∧ (dfld d 20 0 32 = 0x52455449)) ∧
    (∃ (s : State) (d : Desc), (Accepted s d (infoSecLifecycle s d)) ∧ (maintOpen s d.did = true) ∧ (dfld d 16 0 2 = 2) ∧ (s.sec.lifecycle = 1) ∧ (s.sec.image ≠ none) ∧ (s.sec.locked = true) ∧ (allStopped s = true)) ∧
    (∃ (s : State) (d : Desc), (Accepted s d (infoSecLifecycle s d)) ∧ (maintOpen s d.did = true) ∧ (dfld d 16 0 2 = 1) ∧ (s.sec.lifecycle = 2) ∧ (allStopped s = true)) ∧
    (∃ (s : State) (d : Desc), (Accepted s d (infoSecLifecycle s d)) ∧ (maintOpen s d.did = true) ∧ (dfld d 16 0 2 ≠ 3) ∧ (s.sec.lifecycle = 3)) ∧
    (∃ (s : State) (d : Desc), (Accepted s d (infoSecLock s d)) ∧ (s.sec.image = none)) ∧
    (∃ (s : State) (d : Desc) (i : _), (Accepted s d (infoSecLock s d)) ∧ (s.sec.image = some i) ∧ (rwlMatches s i = false)) ∧
    (∃ (s : State) (d : Desc) (i : _), (Accepted s d (infoSecLock s d)) ∧ (s.sec.image = some i) ∧ (rwlMatches s i = true)) :=
  ⟨⟨up, mk 1 0x0302 [(24, 4096)], by decide +kernel⟩,
   ⟨up, mk 1 0x0301 [(24, 4096), (32, 256)], by decide +kernel⟩,
   ⟨up, mk 1 0x0302 [(24, 4096)], by decide +kernel⟩,
   ⟨up, mk 1 0x0303 [(16, 3), (20, 0), (24, 4096)], by decide +kernel⟩,
   ⟨w18, mk 1 0x0300 [(24, 4096), (32, 64)], (devRead (maintRecord (markStarted (w18) (mk 1 0x0300 [(24, 4096), (32, 64)])) (mk 1 0x0300 [(24, 4096), (32, 64)]).did (dOpcode (mk 1 0x0300 [(24, 4096), (32, 64)]))) (secWho (mk 1 0x0300 [(24, 4096), (32, 64)])) 4096 64).2.1, (devRead (maintRecord (markStarted (w18) (mk 1 0x0300 [(24, 4096), (32, 64)])) (mk 1 0x0300 [(24, 4096), (32, 64)]).did (dOpcode (mk 1 0x0300 [(24, 4096), (32, 64)]))) (secWho (mk 1 0x0300 [(24, 4096), (32, 64)])) 4096 64).2.2, by decide +kernel, by decide +kernel, by decide +kernel, by decide +kernel, Prod.ext (by decide +kernel) rfl⟩,
   ⟨w385, mk 1 0x0301 [(24, 4096), (32, 256)], by decide +kernel⟩,
   ⟨w19, mk 1 0x0301 [(24, 4096), (32, 256)], (devRead (maintRecord (markStarted (w19) (mk 1 0x0301 [(24, 4096), (32, 256)])) (mk 1 0x0301 [(24, 4096), (32, 256)]).did (dOpcode (mk 1 0x0301 [(24, 4096), (32, 256)]))) (secWho (mk 1 0x0301 [(24, 4096), (32, 256)])) 4096 256).2.1, (devRead (maintRecord (markStarted (w19) (mk 1 0x0301 [(24, 4096), (32, 256)])) (mk 1 0x0301 [(24, 4096), (32, 256)]).did (dOpcode (mk 1 0x0301 [(24, 4096), (32, 256)]))) (secWho (mk 1 0x0301 [(24, 4096), (32, 256)])) 4096 256).2.2, by decide +kernel, by decide +kernel, by decide +kernel, by decide +kernel, Prod.ext (by decide +kernel) rfl⟩,
   ⟨w20, mk 1 0x0302 [(24, 4096)], (devRead (maintRecord (markStarted (w20) (mk 1 0x0302 [(24, 4096)])) (mk 1 0x0302 [(24, 4096)]).did (dOpcode (mk 1 0x0302 [(24, 4096)]))) (secWho (mk 1 0x0302 [(24, 4096)])) 4096 256).2.1, (devRead (maintRecord (markStarted (w20) (mk 1 0x0302 [(24, 4096)])) (mk 1 0x0302 [(24, 4096)]).did (dOpcode (mk 1 0x0302 [(24, 4096)]))) (secWho (mk 1 0x0302 [(24, 4096)])) 4096 256).2.2, by decide +kernel, by decide +kernel, by decide +kernel, Prod.ext (by decide +kernel) rfl, by decide +kernel, by decide +kernel, by decide +kernel, by decide +kernel, by decide +kernel⟩,
   ⟨w19, mk 1 0x0302 [(24, 4096)], (devRead (maintRecord (markStarted (w19) (mk 1 0x0302 [(24, 4096)])) (mk 1 0x0302 [(24, 4096)]).did (dOpcode (mk 1 0x0302 [(24, 4096)]))) (secWho (mk 1 0x0302 [(24, 4096)])) 4096 256).2.1, (devRead (maintRecord (markStarted (w19) (mk 1 0x0302 [(24, 4096)])) (mk 1 0x0302 [(24, 4096)]).did (dOpcode (mk 1 0x0302 [(24, 4096)]))) (secWho (mk 1 0x0302 [(24, 4096)])) 4096 256).2.2, by decide +kernel, by decide +kernel, by decide +kernel, Prod.ext (by decide +kernel) rfl, by decide +kernel⟩,
   ⟨w386, mk 1 0x0303 [(16, 3), (20, 0x52455449), (24, 4096)], by decide +kernel⟩,
   ⟨w387, mk 1 0x0303 [(16, 2), (20, 0), (24, 4096)], by decide +kernel⟩,
   ⟨w388, mk 1 0x0303 [(16, 1), (20, 0), (24, 4096)], by decide +kernel⟩,
   ⟨w389, mk 1 0x0303 [(16, 0), (20, 0), (24, 4096)], by decide +kernel⟩,
   ⟨up, mk 1 0x0304 [], by decide +kernel⟩,
   ⟨w390, mk 1 0x0304 [], { Image.blank with plimit := 7 }, by decide +kernel⟩,
   ⟨w391, mk 1 0x0304 [], Image.blank, by decide +kernel⟩⟩

theorem test_witness_PresenceAndDebugLevels :
    (∃ (s : State), (s.sec.open_ = false)) ∧
    (∃ (s : State), (s.sec.open_ = true)) ∧
    (∃ (did : Nat), (did ≠ 1) ∧ (did ≠ 2)) ∧
    (∃ (s : State) (did : Nat), ((did = 1 ∨ did = 2)) ∧ (s.bootReady = true) ∧ (s.sec.open_ = true)) ∧
    (∃ (s : State) (did : Nat) (v : _), ((did = 1 ∨ did = 2)) ∧ (s.bootReady = true) ∧ (s.sec.key = 1) ∧ (s.sec.open_ = false) ∧ (s.sec.refusedAt = some v) ∧ (s.power.pstate ≤ 2) ∧ (s.up ≤ v + 60000000000)) ∧
    (∃ (s : State) (did : Nat) (v : _), ((did = 1 ∨ did = 2)) ∧ (s.bootReady = true) ∧ (s.sec.key = 1) ∧ (s.sec.open_ = false) ∧ (s.sec.refusedAt = some v) ∧ (s.power.pstate ≤ 2) ∧ (v + 60000000000 < s.up)) ∧
    (∃ (s : State) (did : Nat), ((did = 1 ∨ did = 2)) ∧ (s.bootReady = true) ∧ (s.sec.refusedAt = none)) ∧
    (∃ (s : State) (did : Nat) (level : Nat), ((did = 1 ∨ did = 2)) ∧ (level ≤ 1) ∧ (s.power.pstate ≤ 2)) ∧
    (∃ (s : State) (did : Nat), ((did = 1 ∨ did = 2)) ∧ (s.sec.lifecycle = 3 ∨ maintOpen s did = false)) ∧
    (∃ (s : State) (did : Nat), ((did = 1 ∨ did = 2)) ∧ (s.sec.lifecycle ≠ 3) ∧ (maintOpen s did = true)) ∧
    (∃ (did : Nat), ((did = 1 ∨ did = 2))) ∧
    (∃ (s : State), (s.dbg.portLocked = true)) ∧
    (∃ (s : State), (s.dbg.portLocked = false) ∧ (debugKey s = none)) ∧
    (∃ (s : State) (k : _) (w : _) (sig : _), (s.dbg.portLocked = false) ∧ (debugKey s = some k) ∧ (w = Tbl.at (0 : W32) s.dbg.auth 0) ∧ (sig = (List.range 24).flatMap (fun k => leBytes 4 (Tbl.at (0 : W32) s.dbg.auth (k + 1)).toNat)) ∧ (w.toNat % 4 ≤ 1) ∧ (s.power.pstate ≤ 2)) :=
  ⟨⟨up, by decide +kernel⟩,
   ⟨w392, by decide +kernel⟩,
   ⟨3, by decide +kernel⟩,
   ⟨w392, 2, by decide +kernel⟩,
   ⟨w393, 2, 0, by decide +kernel⟩,
   ⟨w394, 2, 0, by decide +kernel⟩,
   ⟨up, 2, by decide +kernel⟩,
   ⟨up, 2, 1, by decide +kernel⟩,
   ⟨up, 2, by decide +kernel⟩,
   ⟨w395, 2, by decide +kernel⟩,
   ⟨2, by decide +kernel⟩,
   ⟨w396, by decide +kernel⟩,
   ⟨w397, by decide +kernel⟩,
   ⟨up, 0, 0, List.replicate 96 0, by decide +kernel⟩⟩

theorem test_witness_SealRearm :
    (∃ (s : State) (did : Nat), ((did = 1 ∨ did = 2)) ∧ (s.bootReady = true) ∧ (s.sec.open_ = true) ∧ (s.sec.sealOk = true)) ∧
    (∃ (s : State) (did : Nat), ((did = 1 ∨ did = 2)) ∧ (s.bootReady = true) ∧ (s.sec.open_ = false ∨ s.sec.sealOk = false)) :=
  ⟨⟨w398, 2, by decide +kernel⟩,
   ⟨w53, 2, by decide +kernel⟩⟩

theorem test_witness_Publications :
    (∃ (s : State) (d : Desc) (k : Nat) (f : Nat), (k = dfld d 16 0 7) ∧ (f = dfld d 18 0 12) ∧ (Accepted s d (infoPubConfig s d)) ∧ (pubDenied s k (some f) = true)) ∧
    (∃ (s : State) (d : Desc) (k : Nat) (f : Nat), (k = dfld d 16 0 7) ∧ (f = dfld d 18 0 12) ∧ (Accepted s d (infoPubConfig s d)) ∧ (pubDenied s k (some f) = false) ∧ (s.cfg.flows.find f = none)) ∧
    (∃ (s : State) (d : Desc) (k : Nat) (f : Nat) (x : _) (bs : _) (u : _), (k = dfld d 16 0 7) ∧ (f = dfld d 18 0 12) ∧ (Accepted s d (infoPubConfig s d)) ∧ (pubDenied s k (some f) = false) ∧ (s.cfg.flows.find f = some x) ∧ (1 ≤ dfld d 22 0 9) ∧ (dfld d 22 0 9 ≤ 256) ∧ (dfld d 24 0 48 % 8 = 0) ∧ (dfld d 56 0 16 ≠ 0) ∧ (dfld d 58 0 16 ≠ 0) ∧ (devRead (markStarted s d) (pubWho d.did k false f) (dfld d 24 0 48) (16 + 8 * dfld d 22 0 9) = (stOk, bs, u)) ∧ (ofLe ((bs.drop 13).take 3) = 0) ∧ ((x.grid = none → (bs.getD 12 0).toNat ≠ 0)) ∧ (u.cfg = s.cfg) ∧ (entriesOk u f (ofLe ((bs.drop 8).take 4)) bs (dfld d 22 0 9) = true) ∧ (pubPayload (dfld d 20 0 4) (listEntries bs (dfld d 22 0 9)) ≤ (if dbit d 17 1 = true then 1452 else 1472))) ∧
    (∃ (s : State) (d : Desc) (k : Nat) (f : Nat), (k = dfld d 16 0 7) ∧ (f = dfld d 18 0 12) ∧ (Accepted s d (infoPubRemove s d)) ∧ (pubDenied s k none = true)) ∧
    (∃ (s : State) (d : Desc) (k : Nat) (f : Nat), (k = dfld d 16 0 7) ∧ (f = dfld d 18 0 12) ∧ (Accepted s d (infoPubRemove s d)) ∧ (pubDenied s k none = false)) ∧
    (∃ (s : State) (d : Desc) (k : Nat) (f : Nat), (k = dfld d 16 0 7) ∧ (f = dfld d 18 0 12) ∧ (pubConfig s k = none)) ∧
    (∃ (s : State) (d : Desc) (k : Nat) (f : Nat) (c : _) (p : _) (x : _) (a : _), (k = dfld d 16 0 7) ∧ (f = dfld d 18 0 12) ∧ (pubConfig s k = some (c, p)) ∧ ((histOf s p.flow).latest = some x) ∧ (pubArea s c p x.epoch = some a) ∧ (p.enable = false)) ∧
    (∃ (s : State) (d : Desc) (k : Nat) (f : Nat) (c : _) (p : _) (x : _) (a : _), (k = dfld d 16 0 7) ∧ (f = dfld d 18 0 12) ∧ (pubConfig s k = some (c, p)) ∧ ((histOf s p.flow).latest = some x) ∧ (pubArea s c p x.epoch = some a) ∧ (s.eth.taken.find k = some (x.epoch, x.at_))) ∧
    (∃ (s : State) (d : Desc) (k : Nat) (f : Nat) (c : _) (p : _) (x : _) (a : _), (k = dfld d 16 0 7) ∧ (f = dfld d 18 0 12) ∧ (pubConfig s k = some (c, p)) ∧ ((histOf s p.flow).latest = some x) ∧ (pubArea s c p x.epoch = some a) ∧ (p.enable = true) ∧ ((plantPort s p.port).txEn = true) ∧ (p.guarded = false) ∧ (s.eth.taken.find k ≠ some (x.epoch, x.at_)) ∧ (0x10 ≤ x.status)) ∧
    (∃ (s : State) (d : Desc) (k : Nat) (f : Nat) (c : _) (p : _) (x : _) (a : _) (fs : _) (u : _), (k = dfld d 16 0 7) ∧ (f = dfld d 18 0 12) ∧ (pubConfig s k = some (c, p)) ∧ ((histOf s p.flow).latest = some x) ∧ (pubArea s c p x.epoch = some a) ∧ (p.enable = true) ∧ ((plantPort s p.port).txEn = true) ∧ (p.guarded = false) ∧ (s.eth.taken.find k ≠ some (x.epoch, x.at_)) ∧ (x.status < 0x10) ∧ (p.fields.any (fun f => f.2.2.2 == 1) = false) ∧ (readFields (pubWho a.2 k p.guarded p.flow) a.1 (regionStart []) p.fields { s with eth.taken := s.eth.taken.put k (x.epoch, x.at_) } = (stOk, fs, u))) ∧
    (∃ (s : State) (d : Desc) (k : Nat) (f : Nat), (k = dfld d 16 0 7) ∧ (f = dfld d 18 0 12) ∧ (s.eth.pending = [])) ∧
    (∃ (s : State) (d : Desc) (k : Nat) (f : Nat) (j : _) (m : Message), (k = dfld d 16 0 7) ∧ (f = dfld d 18 0 12) ∧ (s.eth.pending = [(j, m)]) ∧ (eligible s k m = false)) ∧
    (∃ (s : State) (d : Desc) (k : Nat) (f : Nat) (j : _) (m : Message), (k = dfld d 16 0 7) ∧ (f = dfld d 18 0 12) ∧ (s.eth.pending = [(j, m)]) ∧ (eligible s k m = true) ∧ (s.dbg.boundary = false)) :=
  ⟨⟨w399, mk 1 0x1101 [(16, 127)], 127, 0, by decide +kernel⟩,
   ⟨up, mk 1 0x1100 [(16, 255), (17, 3), (18, 4095), (20, 15), (22, 1), (24, 4096), (32, 9), (38, 5), (56, 7), (58, 8)], 127, 4095, by decide +kernel⟩,
   ⟨w21, mk 1 0x1100 [(16, 255), (17, 3), (18, 4095), (20, 15), (22, 1), (24, 4096), (32, 9), (38, 5), (56, 7), (58, 8)], 127, 4095, { guarded := false, cadence := 0, enable := true, grid := none, cring := none }, (devRead (markStarted (w21) (mk 1 0x1100 [(16, 255), (17, 3), (18, 4095), (20, 15), (22, 1), (24, 4096), (32, 9), (38, 5), (56, 7), (58, 8)])) (pubWho 1 127 false 4095) 4096 24).2.1, (devRead (markStarted (w21) (mk 1 0x1100 [(16, 255), (17, 3), (18, 4095), (20, 15), (22, 1), (24, 4096), (32, 9), (38, 5), (56, 7), (58, 8)])) (pubWho 1 127 false 4095) 4096 24).2.2, by decide +kernel, by decide +kernel, by decide +kernel, by decide +kernel, by decide +kernel, by decide +kernel, by decide +kernel, by decide +kernel, by decide +kernel, by decide +kernel, Prod.ext (by decide +kernel) rfl, by decide +kernel, by decide +kernel, by decide +kernel, by decide +kernel, by decide +kernel⟩,
   ⟨w399, mk 1 0x1101 [(16, 127)], 127, 0, by decide +kernel⟩,
   ⟨w400, mk 1 0x1101 [(16, 127)], 127, 0, by decide +kernel⟩,
   ⟨up, mk 1 0x1100 [(16, 255), (17, 3), (18, 4095), (20, 15), (22, 1), (24, 4096), (32, 9), (38, 5), (56, 7), (58, 8)], 127, 4095, by decide +kernel⟩,
   ⟨w401, mk 1 0x1101 [(16, 127)], 127, 0, { up.cfg with flows := [(4095, { guarded := false, cadence := 0, enable := true, grid := none, cring := none })], pubs := [(127, ({ publicationRec0 with enable := false } : Publication))] }, ({ publicationRec0 with enable := false } : Publication), flowResultRec0, (4096 + 5 % 2 * 64, 1), by decide +kernel⟩,
   ⟨w402, mk 1 0x1101 [(16, 127)], 127, 0, { up.cfg with flows := [(4095, { guarded := false, cadence := 0, enable := true, grid := none, cring := none })], pubs := [(127, publicationRec0)] }, publicationRec0, flowResultRec0, (4096 + 5 % 2 * 64, 1), by decide +kernel⟩,
   ⟨w403, mk 1 0x1101 [(16, 127)], 127, 0, { up.cfg with flows := [(4095, { guarded := false, cadence := 0, enable := true, grid := none, cring := none })], pubs := [(127, publicationRec0)] }, publicationRec0, ({ flowResultRec0 with status := 16 } : FlowResult), (4096 + 5 % 2 * 64, 1), by decide +kernel⟩,
   ⟨w22, mk 1 0x1101 [(16, 127)], 127, 0, { up.cfg with flows := [(4095, { guarded := false, cadence := 0, enable := true, grid := none, cring := none })], pubs := [(127, publicationRec0)] }, publicationRec0, flowResultRec0, (4096 + 5 % 2 * 64, 1), (readFields (pubWho 1 127 false 4095) (4096 + 64) (regionStart []) [(0, 0, 0, 0)] { (w22) with eth.taken := (w22).eth.taken.put 127 (5, 9) }).2.1, (readFields (pubWho 1 127 false 4095) (4096 + 64) (regionStart []) [(0, 0, 0, 0)] { (w22) with eth.taken := (w22).eth.taken.put 127 (5, 9) }).2.2, by decide +kernel, by decide +kernel, by decide +kernel, by decide +kernel, by decide +kernel, by decide +kernel, by decide +kernel, by decide +kernel, by decide +kernel, by decide +kernel, by decide +kernel, Prod.ext (by decide +kernel) rfl⟩,
   ⟨up, mk 1 0x1100 [(16, 255), (17, 3), (18, 4095), (20, 15), (22, 1), (24, 4096), (32, 9), (38, 5), (56, 7), (58, 8)], 127, 4095, by decide +kernel⟩,
   ⟨w404, mk 1 0x1100 [(16, 255), (17, 3), (18, 4095), (20, 15), (22, 1), (24, 4096), (32, 9), (38, 5), (56, 7), (58, 8)], 127, 4095, 127, { pub := 127, port := 1, tov := 77, guarded := false, pcp := 0, dstMac := 9, ip6 := false, dstIp := 0, udpDst := 5, bytes := List.replicate 40 0 }, by decide +kernel⟩,
   ⟨w405, mk 1 0x1101 [(16, 1)], 1, 0, 1, { pub := 127, port := 1, tov := 77, guarded := false, pcp := 0, dstMac := 9, ip6 := false, dstIp := 0, udpDst := 5, bytes := List.replicate 40 0 }, by decide +kernel⟩⟩

theorem test_witness_OcturLink :
    (∃ (s : State) (q : Nat) (x : OctPort) (m : Nat) (pq : Nat) (cols : Nat) (rows : Nat) (torus : Bool), (x = octPort s q) ∧ (q < 4) ∧ (s.oct.enable = true) ∧ ((x.st = .training ∨ x.st = .hello)) ∧ (s.dbg.tests (10 + 4 * q) 4 = false) ∧ (octNeighbour s.oct q = some m) ∧ (pq = octOpposite q) ∧ (cols = s.oct.cols) ∧ (rows = s.oct.rows) ∧ (torus = s.oct.torus)) ∧
    (∃ (s : State) (q : Nat) (x : OctPort) (m : Nat), (x = octPort s q) ∧ (q < 4) ∧ (s.oct.enable = true) ∧ ((x.st = .training ∨ x.st = .hello)) ∧ (s.dbg.tests (10 + 4 * q) 4 = false) ∧ (octNeighbour s.oct q ≠ some m)) ∧
    (∃ (s : State) (q : Nat) (x : OctPort), (x = octPort s q) ∧ (q < 4) ∧ (s.oct.enable = false)) ∧
    (∃ (s : State) (q : Nat) (x : OctPort), (x = octPort s q) ∧ (q < 4) ∧ (s.oct.enable = true) ∧ (x.st = .fault)) ∧
    (∃ (s : State) (q : Nat) (x : OctPort), (x = octPort s q) ∧ (q < 4) ∧ (x.st ≠ .fault)) ∧
    (∃ (s : State) (q : Nat) (x : OctPort) (sq : Nat) (rest : _), (x = octPort s q) ∧ (q < 4) ∧ (x.st = .up) ∧ (s.dbg.boundary = false) ∧ (rest = x.unacked.dropWhile (fun u => u.1 ≠ sq)) ∧ (rest = [])) ∧
    (∃ (s : State) (q : Nat) (x : OctPort) (sq : Nat) (rest : _), (x = octPort s q) ∧ (q < 4) ∧ (x.st = .up) ∧ (s.dbg.boundary = false) ∧ (rest = x.unacked.dropWhile (fun u => u.1 ≠ sq)) ∧ (rest ≠ []) ∧ ((x.replayCount = 0 ∨ x.replaySeq ≠ sq))) ∧
    (∃ (s : State) (q : Nat) (x : OctPort) (sq : Nat) (rest : _), (x = octPort s q) ∧ (q < 4) ∧ (x.st = .up) ∧ (s.dbg.boundary = false) ∧ (rest = x.unacked.dropWhile (fun u => u.1 ≠ sq)) ∧ (rest ≠ []) ∧ (x.replayCount = 7) ∧ (x.replaySeq = sq)) ∧
    (∃ (s : State) (q : Nat) (x : OctPort), (x = octPort s q) ∧ (q < 4) ∧ (x.st ≠ .up)) ∧
    (∃ (s : State) (q : Nat) (x : OctPort), (x = octPort s q) ∧ (q < 4) ∧ (x.unacked = [])) ∧
    (∃ (s : State) (q : Nat) (x : OctPort), (x = octPort s q) ∧ (q < 4) ∧ (x.st = .up) ∧ (x.unacked ≠ [])) ∧
    (∃ (s : State) (q : Nat) (x : OctPort) (p : OctPacket), (x = octPort s q) ∧ (q < 4) ∧ (p.port = q) ∧ (x.st = .up) ∧ (p.dst = s.oct.module)) ∧
    (∃ (s : State) (q : Nat) (x : OctPort) (p : OctPacket), (x = octPort s q) ∧ (q < 4) ∧ (p.port = q) ∧ (x.st = .up) ∧ (p.dst ≠ s.oct.module) ∧ (p.crcOk = false)) ∧
    (∃ (s : State) (q : Nat) (x : OctPort) (p : OctPacket) (r : Nat), (x = octPort s q) ∧ (q < 4) ∧ (p.port = q) ∧ (x.st = .up) ∧ (p.dst ≠ s.oct.module) ∧ (p.crcOk = true) ∧ (p.type ≤ 9) ∧ (octRoute s.oct p.dst = some r) ∧ ((octPort s r).st ≠ .up)) ∧
    (∃ (s : State) (q : Nat) (x : OctPort) (p : OctPacket) (r : Nat), (x = octPort s q) ∧ (q < 4) ∧ (p.port = q) ∧ (x.st = .up) ∧ (p.dst ≠ s.oct.module) ∧ (p.crcOk = true) ∧ (p.type ≤ 9) ∧ (octRoute s.oct p.dst = some r) ∧ ((octPort s r).st = .up)) ∧
    (∃ (s : State) (q : Nat) (x : OctPort), (x = octPort s q) ∧ (q < 4)) ∧
    (∃ (s : State) (q : Nat) (x : OctPort) (p : OctPacket) (tb : Int), (x = octPort s q) ∧ (q < 4) ∧ (Arrives s p 7) ∧ (octurHeard s = false ∨ p.port ≠ s.tb.octurPort)) ∧
    (∃ (s : State) (q : Nat) (x : OctPort) (p : _) (tb : Int) (ga : Nat) (gb : Nat) (u : State), (x = octPort s q) ∧ (q < 4) ∧ (Arrives s p 7) ∧ (u = (if octurTimed s = true then { s with oct.distance := min 15 (p.op % 16 + 1) } else s)) ∧ (octurHeard s = true) ∧ (p.port = s.tb.octurPort) ∧ (15 ≤ p.op % 16 ∨ ga ≠ gb)) ∧
    (∃ (s : State) (q : Nat) (x : OctPort) (p : OctPacket) (tb : Int) (ga : Nat) (gb : Nat) (u : State), (x = octPort s q) ∧ (q < 4) ∧ (Arrives s p 7) ∧ (u = (if octurTimed s = true then { s with oct.distance := min 15 (p.op % 16 + 1) } else s)) ∧ (octurHeard s = true) ∧ (p.port = s.tb.octurPort) ∧ (p.op % 16 < 15) ∧ (ga = gb)) :=
  ⟨⟨w406, 0, { OctPort.reset with st := .hello }, 1, 1, 2, 2, false, by decide +kernel⟩,
   ⟨w407, 0, { OctPort.reset with st := .training }, 2, by decide +kernel⟩,
   ⟨up, 3, OctPort.reset, by decide +kernel⟩,
   ⟨w408, 3, { OctPort.reset with st := .fault, faultAt := 7 }, by decide +kernel⟩,
   ⟨w409, 3, { OctPort.reset with st := .up }, by decide +kernel⟩,
   ⟨w410, 0, { OctPort.reset with st := .up, unacked := [(7, 0, []), (8, 0, [])] }, 9, [], by decide +kernel⟩,
   ⟨w410, 0, { OctPort.reset with st := .up, unacked := [(7, 0, []), (8, 0, [])] }, 8, [(8, 0, [])], by decide +kernel⟩,
   ⟨w411, 0, { OctPort.reset with st := .up, unacked := [(7, 0, []), (8, 0, [])], replayCount := 7, replaySeq := 8 }, 8, [(8, 0, [])], by decide +kernel⟩,
   ⟨w412, 3, { OctPort.reset with st := .fault }, by decide +kernel⟩,
   ⟨w409, 3, { OctPort.reset with st := .up }, by decide +kernel⟩,
   ⟨w413, 3, { OctPort.reset with st := .up, unacked := [(7, 0, []), (8, 0, [])] }, by decide +kernel⟩,
   ⟨w409, 3, { OctPort.reset with st := .up }, ({ port := 3, header := octHeader 1 0 0 0 1 1 0 0 0 0 0, payload := [], crcOk := true } : OctPacket), by decide +kernel⟩,
   ⟨w409, 3, { OctPort.reset with st := .up }, ({ port := 3, header := octHeader 1 0 0 5 1 1 0 0 0 0 0, payload := [], crcOk := false } : OctPacket), by decide +kernel⟩,
   ⟨w409, 3, { OctPort.reset with st := .up }, ({ port := 3, header := octHeader 9 0 0 5 1 1 0 0 0 0 0, payload := [], crcOk := true } : OctPacket), 0, by decide +kernel⟩,
   ⟨w414, 0, { OctPort.reset with st := .up }, ({ port := 0, header := octHeader 9 0 0 5 4 1 0 0 0 0 0, payload := [], crcOk := true } : OctPacket), 0, by decide +kernel⟩,
   ⟨w414, 0, { OctPort.reset with st := .up }, by decide +kernel⟩,
   ⟨w415, 3, { OctPort.reset with st := .up }, ({ port := 3, header := octHeader 7 0 0 0 1 1 0 0 0 0 0, payload := [], crcOk := true } : OctPacket), 5, by decide +kernel⟩,
   ⟨w416, 3, { OctPort.reset with st := .up }, ({ port := 3, header := octHeader 7 0 0 0 1 1 0 0 0 0 15, payload := [], crcOk := true } : OctPacket), 5, 0, 0, (if octurTimed (w416) = true then { (w416) with oct.distance := min 15 ((({ port := 3, header := octHeader 7 0 0 0 1 1 0 0 0 0 15, payload := [], crcOk := true } : OctPacket)).op % 16 + 1) } else (w416)), by decide +kernel⟩,
   ⟨w416, 3, { OctPort.reset with st := .up }, ({ port := 3, header := octHeader 7 0 0 0 1 1 0 0 0 0 14, payload := [], crcOk := true } : OctPacket), 5, 0, 0, (if octurTimed (w416) = true then { (w416) with oct.distance := min 15 ((({ port := 3, header := octHeader 7 0 0 0 1 1 0 0 0 0 14, payload := [], crcOk := true } : OctPacket)).op % 16 + 1) } else (w416)), by decide +kernel⟩⟩

theorem test_witness_OcturRequests :
    (∃ (s : State) (p : OctPacket), ((octPort s p.port).st = .up) ∧ (p.port < 4) ∧ (p.crcOk = false)) ∧
    (∃ (s : State) (p : OctPacket), ((octPort s p.port).st ≠ .up)) ∧
    (∃ (s : State) (p : OctPacket), (Arrives s p 1) ∧ (octCheck s p false p.len = stOk) ∧ (poisonedIn s p.addr p.len = none)) ∧
    (∃ (s : State) (p : OctPacket) (st : _), (Arrives s p 1) ∧ (octCheck s p false p.len = st) ∧ (st ≠ stOk)) ∧
    (∃ (s : State) (p : OctPacket), (Arrives s p 3) ∧ (octCheck s p true p.payload.length = stOk)) ∧
    (∃ (s : State) (p : OctPacket), (Arrives s p 3) ∧ (octCheck s p true p.payload.length ≠ stOk)) ∧
    (∃ (s : State) (p : OctPacket), (Arrives s p 5) ∧ (s.knots.cycle = none) ∧ (signalCheck s p.did p.guarded (p.f 6 0 13) = stOk) ∧ ((knotOf s (p.f 6 0 13)).st ≠ .poisoned)) ∧
    (∃ (s : State) (p : OctPacket), (Arrives s p 5) ∧ (s.knots.cycle = none) ∧ (signalCheck s p.did p.guarded (p.f 6 0 13) ≠ stOk)) ∧
    (∃ (s : State) (p : OctPacket), (octRequestOf s p = none) ∧ (Arrives s p 2)) ∧
    (∃ (s : State) (p : OctPacket), (octRequestOf s p = none) ∧ (Arrives s p 4)) ∧
    (∃ (s : State) (p : OctPacket), (octRequestOf s p = none) ∧ (Arrives s p 6)) ∧
    (∃ (s : State) (p : OctPacket), (octRequestOf s p = none) ∧ (Arrives s p 9)) ∧
    (∃ (s : State) (p : OctPacket) (r : OctReq), (octRequestOf s p = some r) ∧ (s.oct.held = []) ∧ (Arrives s p 2) ∧ (r.kind = .read)) ∧
    (∃ (s : State) (p : OctPacket) (r : OctReq), (octRequestOf s p = some r) ∧ (s.oct.held = []) ∧ (Arrives s p 4) ∧ (r.kind = .write)) ∧
    (∃ (s : State) (p : OctPacket) (r : OctReq) (k : _) (g : _), (octRequestOf s p = some r) ∧ (s.oct.held = []) ∧ (Arrives s p 6) ∧ (r.kind = .knot k g) ∧ (p.status = stOk)) ∧
    (∃ (s : State) (p : OctPacket) (r : OctReq) (k : _) (g : _), (octRequestOf s p = some r) ∧ (s.oct.held = []) ∧ (Arrives s p 6) ∧ (r.kind = .knot k g) ∧ (p.status ≠ stOk)) ∧
    (∃ (s : State) (p : OctPacket) (d : Desc) (r : OctReq), (octRequestOf s p = some r) ∧ (s.oct.held = []) ∧ (Arrives s p 9) ∧ (r.kind = .reset d)) ∧
    (∃ (s : State) (p : OctPacket) (r : OctReq) (h : HeldSignal), (octRequestOf s p = some r) ∧ (s.oct.held = [h]) ∧ (Arrives s p 4) ∧ (r.kind = .write) ∧ (writesOpen { s with oct.requests := s.oct.requests.erase r } h.src h.module = false)) ∧
    (∃ (s : State) (r : OctReq) (tag : _), (s.oct.requests.find? (fun r => r.tag == tag) = none)) ∧
    (∃ (s : State) (r : OctReq) (tag : _), (s.oct.requests.find? (fun r => r.tag == tag) = some r) ∧ (s.oct.held = []) ∧ ((r.kind = .read ∨ r.kind = .write))) ∧
    (∃ (s : State) (d : Desc), (Accepted s d (infoOctReset s d)) ∧ (octRoute s.oct (dfld d 16 0 4) = none)) ∧
    (∃ (s : State) (d : Desc) (q : _), (Accepted s d (infoOctReset s d)) ∧ (octRoute s.oct (dfld d 16 0 4) = some q) ∧ ((octPort s q).st = .up)) ∧
    (∃ (s : State) (p : OctPacket), (Arrives s p 8) ∧ (octurAccepts s p.did = false)) ∧
    (∃ (s : State) (p : OctPacket), (Arrives s p 8) ∧ (octurAccepts s p.did = true) ∧ (logicPowered s = true) ∧ (s.power.seqCause = none)) :=
  ⟨⟨w417, ({ port := 0, header := octHeader 1 0 0 0 1 1 0 0 0 0 0, payload := [], crcOk := false } : OctPacket), by decide +kernel⟩,
   ⟨up, ({ port := 0, header := octHeader 1 0 0 0 1 1 0 0 0 0 0, payload := [], crcOk := true } : OctPacket), by decide +kernel⟩,
   ⟨w417, ({ port := 0, header := octHeader 1 0 0 0 1 1 0 64 0 4096 0, payload := [], crcOk := true } : OctPacket), by decide +kernel⟩,
   ⟨w417, ({ port := 0, header := octHeader 1 0 0 0 1 1 0 64 0 0x3800000000 0, payload := [], crcOk := true } : OctPacket), stTranslation, by decide +kernel⟩,
   ⟨w417, ({ port := 0, header := octHeader 3 0 0 0 1 1 0 0 0 4096 0, payload := [1, 2, 3, 4], crcOk := true } : OctPacket), by decide +kernel⟩,
   ⟨w417, ({ port := 0, header := octHeader 3 0 0 0 1 5 0 0 0 4096 0, payload := [1, 2, 3, 4], crcOk := true } : OctPacket), by decide +kernel⟩,
   ⟨w418, ({ port := 0, header := octHeader 5 0 0 0 1 1 0 0 0 1024 7, payload := [], crcOk := true } : OctPacket), by decide +kernel⟩,
   ⟨w418, ({ port := 0, header := octHeader 5 0 0 0 1 5 0 0 0 1024 7, payload := [], crcOk := true } : OctPacket), by decide +kernel⟩,
   ⟨w417, ({ port := 0, header := octHeader 2 0 0 0 1 1 0 0 8 0 0, payload := [], crcOk := true } : OctPacket), by decide +kernel⟩,
   ⟨w417, ({ port := 0, header := octHeader 4 0 0 0 1 1 0 0 8 0 0, payload := [], crcOk := true } : OctPacket), by decide +kernel⟩,
   ⟨w417, ({ port := 0, header := octHeader 6 0 0 0 1 1 0 0 8 0 0, payload := [], crcOk := true } : OctPacket), by decide +kernel⟩,
   ⟨w417, ({ port := 0, header := octHeader 9 0 0 0 1 1 0 0 8 0 0, payload := [], crcOk := true } : OctPacket), by decide +kernel⟩,
   ⟨w419, ({ port := 0, header := octHeader 2 0 0 0 1 1 0 0 7 0 0, payload := [], crcOk := true } : OctPacket), ({ tag := 7, module := 1, did := 1, kind := .read, issued := 0, src := none } : OctReq), by decide +kernel⟩,
   ⟨w420, ({ port := 0, header := octHeader 4 0 0 0 1 1 0 0 7 0 0, payload := [], crcOk := true } : OctPacket), ({ tag := 7, module := 1, did := 1, kind := .write, issued := 0, src := none } : OctReq), by decide +kernel⟩,
   ⟨w421, ({ port := 0, header := octHeader 6 0 0 0 1 1 0 0 7 0 0, payload := [], crcOk := true } : OctPacket), ({ tag := 7, module := 1, did := 1, kind := .knot 8191 false, issued := 0, src := none } : OctReq), 8191, false, by decide +kernel⟩,
   ⟨w421, ({ port := 0, header := octHeader 6 0 0 0 1 1 0 0 7 0 41, payload := [], crcOk := true } : OctPacket), ({ tag := 7, module := 1, did := 1, kind := .knot 8191 false, issued := 0, src := none } : OctReq), 8191, false, by decide +kernel⟩,
   ⟨w422, ({ port := 0, header := octHeader 9 0 0 0 1 1 0 0 7 0 0, payload := [], crcOk := true } : OctPacket), (mk 1 0x1200 [(16, 5)]), ({ tag := 7, module := 1, did := 1, kind := .reset (mk 1 0x1200 [(16, 5)]), issued := 0, src := none } : OctReq), by decide +kernel⟩,
   ⟨w423, ({ port := 0, header := octHeader 4 0 0 0 1 1 0 0 7 0 0, payload := [], crcOk := true } : OctPacket), ({ tag := 7, module := 1, did := 1, kind := .write, issued := 0, src := none } : OctReq), { src := .call 0 8, sig := { knot := 5, set := false, value := 1, did := 1, unit := 0, index := 0 }, module := none, guarded := false, kind := 4, index := 0 }, by decide +kernel⟩,
   ⟨up, ({ tag := 7, module := 1, did := 1, kind := .read, issued := 0, src := none } : OctReq), 7, by decide +kernel⟩,
   ⟨w420, ({ tag := 7, module := 1, did := 1, kind := .write, issued := 0, src := none } : OctReq), 7, by decide +kernel⟩,
   ⟨up, (mk 1 0x1200 [(16, 0)]), by decide +kernel⟩,
   ⟨w417, (mk 1 0x1200 [(16, 5)]), 0, by decide +kernel⟩,
   ⟨w417, ({ port := 0, header := octHeader 8 0 0 0 1 1 0 0 0 0 0, payload := [], crcOk := true } : OctPacket), by decide +kernel⟩,
   ⟨w424, ({ port := 0, header := octHeader 8 0 0 0 1 1 0 0 0 0 0, payload := [], crcOk := true } : OctPacket), by decide +kernel⟩⟩

theorem test_witness_LinkTestsAndDebugPort :
    (∃ (s : State) (did : Nat) (l : Nat) (x : LinkTest), (x = linkTest s l) ∧ (selLink s did = none)) ∧
    (∃ (s : State) (did : Nat) (l : Nat) (x : LinkTest) (loop : _) (pat : _), (x = linkTest s l) ∧ (selLink s did = some l) ∧ (loop < 4) ∧ (pat < 16) ∧ (x.run = true)) ∧
    (∃ (s : State) (did : Nat) (l : Nat) (x : LinkTest) (loop : _) (pat : _), (x = linkTest s l) ∧ (selLink s did = some l) ∧ (loop < 4) ∧ (pat < 16) ∧ (x.run = false) ∧ (testRefusal s l loop pat = 0)) ∧
    (∃ (s : State) (did : Nat) (l : Nat) (x : LinkTest) (loop : _) (pat : _), (x = linkTest s l) ∧ (selLink s did = some l) ∧ (loop < 4) ∧ (pat < 16) ∧ (x.run = false) ∧ (testRefusal s l loop pat ≠ 0)) ∧
    (∃ (s : State) (did : Nat) (l : Nat) (x : LinkTest), (x = linkTest s l) ∧ (selLink s did = some l) ∧ (x.run = false)) ∧
    (∃ (s : State) (did : Nat) (l : Nat) (x : LinkTest), (x = linkTest s l) ∧ (selLink s did = some l) ∧ (x.run = true)) ∧
    (∃ (s : State) (did : Nat) (l : Nat) (x : LinkTest), (x = linkTest s l) ∧ (selLink s did = some l) ∧ (x.run = true) ∧ (x.sync = true)) ∧
    (∃ (s : State) (did : Nat) (l : Nat) (x : LinkTest), (x = linkTest s l) ∧ (selLink s did = some l) ∧ (x.run = false ∨ x.sync = false)) ∧
    (∃ (s : State) (l : Nat) (x : LinkTest), (x = linkTest s l) ∧ (x.run = false)) ∧
    (∃ (s : State) (l : Nat) (x : LinkTest), (x = linkTest s l) ∧ (x.run = true) ∧ (x.sync = false)) ∧
    (∃ (s : State) (l : Nat) (x : LinkTest), (x = linkTest s l) ∧ (x.run = true) ∧ (x.sync = true)) ∧
    (∃ (s : State), (s.dbg.boundary = false) ∧ (s.dbg.production = false)) ∧
    (∃ (s : State) (c : Instr) (v : _), (s.dbg.boundary = false) ∧ (s.dbg.production = false) ∧ (((c = .extest ∧ v = 0) ∨ (c = .extestPulse ∧ v = 3) ∨ (c = .extestTrain ∧ v = 4))) ∧ (s.dbg.level = 2)) ∧
    (∃ (s : State) (c : Instr) (v : _), (s.dbg.boundary = false) ∧ (s.dbg.production = false) ∧ (((c = .extest ∧ v = 0) ∨ (c = .extestPulse ∧ v = 3) ∨ (c = .extestTrain ∧ v = 4))) ∧ (s.dbg.level ≠ 2)) ∧
    (∃ (s : State), (s.dbg.boundary = false) ∧ (s.dbg.production = false) ∧ (1 ≤ s.dbg.level)) ∧
    (∃ (s : State), (s.dbg.boundary = false) ∧ (s.dbg.production = false) ∧ (s.dbg.level = 0)) ∧
    (∃ (s : State), (s.dbg.boundary = false) ∧ (s.dbg.production = false)) ∧
    (∃ (s : State) (code : Nat), (s.dbg.boundary = false) ∧ (s.dbg.production = false) ∧ (irDefined (code % 256) = true)) ∧
    (∃ (s : State) (code : Nat), (s.dbg.boundary = false) ∧ (s.dbg.production = false) ∧ (irDefined (code % 256) = false) ∧ (code % 256 ≠ 0xFF)) ∧
    (∃ (s : State), (s.dbg.boundary = false) ∧ (s.dbg.production = false) ∧ (s.sec.lifecycle = 0) ∧ (s.dbg.level = 2) ∧ (s.dbg.source = 2)) ∧
    (∃ (s : State), (s.dbg.boundary = false) ∧ (s.dbg.production = false) ∧ (s.sec.lifecycle ≠ 0)) ∧
    (∃ (s : State), (s.dbg.boundary = true) ∧ (s.dbg.ir ≠ 2) ∧ (logicPowered s = true)) ∧
    (∃ (s : State), (s.dbg.level = 0)) ∧
    (∃ (s : State), (s.dbg.level ≠ 0) ∧ (s.dbg.boundary = false) ∧ (s.dbg.traceFree ≤ 3 * s.up) ∧ (s.dbg.traceDropped = 0)) ∧
    (∃ (s : State), (s.dbg.level ≠ 0) ∧ (s.dbg.boundary = false) ∧ (s.dbg.traceFree ≤ 3 * s.up) ∧ (s.dbg.traceDropped = 0) ∧ (s.dbg.traceTypes.testBit 5 = false)) ∧
    (∃ (s : State), (s.dbg.level ≠ 0) ∧ (s.dbg.boundary = false) ∧ (s.dbg.traceFree ≤ 3 * s.up) ∧ (s.dbg.traceDropped = 0) ∧ (s.dbg.traceTypes.testBit 5 = true)) :=
  ⟨⟨w425, 2, 27, LinkTest.reset, by decide +kernel⟩,
   ⟨w426, 2, 27, { LinkTest.reset with run := true }, 3, 0, by decide +kernel⟩,
   ⟨w427, 2, 27, { LinkTest.reset with sync := true }, 3, 0, by decide +kernel⟩,
   ⟨w428, 2, 27, { LinkTest.reset with sync := true }, 3, 0, by decide +kernel⟩,
   ⟨w427, 2, 27, { LinkTest.reset with sync := true }, by decide +kernel⟩,
   ⟨w429, 2, 27, { LinkTest.reset with run := true, sync := true }, by decide +kernel⟩,
   ⟨w429, 2, 27, { LinkTest.reset with run := true, sync := true }, by decide +kernel⟩,
   ⟨w427, 2, 27, { LinkTest.reset with sync := true }, by decide +kernel⟩,
   ⟨w427, 27, { LinkTest.reset with sync := true }, by decide +kernel⟩,
   ⟨w426, 27, { LinkTest.reset with run := true }, by decide +kernel⟩,
   ⟨w429, 27, { LinkTest.reset with run := true, sync := true }, by decide +kernel⟩,
   ⟨up, by decide +kernel⟩,
   ⟨w28, .extest, 0, by decide +kernel⟩,
   ⟨w430, .extest, 0, by decide +kernel⟩,
   ⟨w430, by decide +kernel⟩,
   ⟨up, by decide +kernel⟩,
   ⟨up, by decide +kernel⟩,
   ⟨up, 31, by decide +kernel⟩,
   ⟨up, 5, by decide +kernel⟩,
   ⟨w431, by decide +kernel⟩,
   ⟨w432, by decide +kernel⟩,
   ⟨w433, by decide +kernel⟩,
   ⟨up, by decide +kernel⟩,
   ⟨w430, by decide +kernel⟩,
   ⟨w430, by decide +kernel⟩,
   ⟨w434, by decide +kernel⟩⟩

end Sys2Proof.Tests
end

/-! Lost interrupt events (spec/21_interrupts.md, R501): what an event does to a source that is pending or in service, and the two commands
that bring one, a change of the source's input and a software interrupt. -/

namespace Sys2Proof.Machine

/-! ### A source that is pending or in service -/

theorem IntSource.event_eq_of_lost {x : IntSource} (h : x.pending = true ∨ x.inService = true) : x.event = { x with overrun := true } :=
  if_pos h

/-- The changes of an input that a source's sense takes as an event (R498): a rise (sense 3), a fall (4) or either (5). -/
theorem IntSource.edge_iff (x : IntSource) (level : Bool) :
    x.edge level = true ↔ x.input ≠ level ∧ ((x.sense = 3 ∧ level = true) ∨ (x.sense = 4 ∧ level = false) ∨ x.sense = 5) := by
  simp only [IntSource.edge, Bool.and_eq_true, Bool.or_eq_true, bne_iff_ne, beq_iff_eq, Bool.not_eq_true']
  tauto

theorem IntSource.drive_eq_of_lost {x : IntSource} {level : Bool} (he : x.edge level = true) (h : x.pending = true ∨ x.inService = true) :
    x.drive level = { x with input := level, overrun := true } := by
  rw [IntSource.drive, if_pos he, IntSource.event_eq_of_lost h]

theorem IntSource.loses_eq_true {x : IntSource} {level : Bool} (he : x.edge level = true) (h : x.pending = true ∨ x.inService = true) :
    x.loses level = true := by
  simp [IntSource.loses, he, h]

/-- The senses from 3 on are no level senses. -/
theorem IntSource.level_eq_false {x : IntSource} (h : 3 ≤ x.sense) : x.level = false := by
  simp only [IntSource.level, Bool.or_eq_false_iff, beq_eq_false_iff_ne]
  omega

/-! ### The controller's overrun_any -/

/-- A controller notes in its sticky overrun_any whether an event was lost. -/
def noteOverrun (s : State) (sic lost : Bool) : State :=
  setCtl s sic { ctlOf s sic with overrunAny := (ctlOf s sic).overrunAny || lost }

@[simp] theorem sourceOf_noteOverrun (s : State) (sic lost : Bool) (k : Nat) : sourceOf (noteOverrun s sic lost) sic k = sourceOf s sic k := by
  cases sic <;> rfl

@[simp] theorem overrunAny_noteOverrun (s : State) (sic lost : Bool) :
    (ctlOf (noteOverrun s sic lost) sic).overrunAny = ((ctlOf s sic).overrunAny || lost) := by
  simp [noteOverrun]

@[simp] theorem icu_overrunAny_noteOverrun (s : State) (lost : Bool) : (noteOverrun s false lost).icu.overrunAny = (s.icu.overrunAny || lost) := rfl

/-- A source's write and the note of its loss touch the two controllers alone. -/
theorem noteOverrun_setSource_frame (s : State) (sic lost : Bool) (k : Nat) (y : IntSource) :
    { noteOverrun (setSource s sic k y) sic lost with icu := s.icu, sic := s.sic } = s := by
  cases sic <;> rfl

/-- A source's write and the note of its loss at the ICU leave the SIC too. -/
theorem noteOverrun_setSource_icu_frame (s : State) (lost : Bool) (k : Nat) (y : IntSource) :
    { noteOverrun (setSource s false k y) false lost with icu := s.icu } = s := rfl

/-! ### The commands that bring an event -/

theorem exec_icuSourceEvent_of_present {s : State} {sic : Bool} {k : Nat} (level : Bool) (hk : k < sourceCount sic) (hr : sourceReserved sic k = false) :
    exec (.icuSourceEvent sic k level) s =
      .next (noteOverrun (setSource s sic k ((sourceOf s sic k).drive level)) sic ((sourceOf s sic k).loses level)) :=
  if_neg (by simp [hk, hr])

theorem exec_icuSwi_of_software {s : State} {k : Nat} (hb : s.bootReady = true) (hlo : 768 ≤ k) (hhi : k < 1024) (hs : 3 ≤ (sourceOf s false k).sense) :
    exec (.icuSwi 1 k) s =
      .next (noteOverrun (setSource s false k (sourceOf s false k).event) false ((sourceOf s false k).pending || (sourceOf s false k).inService)) := by
  have hallowed : ¬ (!s.bootReady ∨ 1024 ≤ k ∨ k < 768 ∨ (1 ≠ 1 ∧ !(1 == 2 && decide (960 ≤ k)))) := by simp [hb]; omega
  have hsensed : ¬ ((sourceOf s false k).sense = 0 ∨ (sourceOf s false k).level) := by simp [IntSource.level_eq_false hs]; omega
  exact (if_neg hallowed).trans (if_neg hsensed)

/-! ### Lost events -/

/-- Settles O50: a source that is pending or in service answers an event with `overrun` alone, and both commands write that answer and note the loss. -/
theorem eventsLost : Obligations.EventsLost := by
  rintro s sic k x level rfl hlost
  constructor
  · intro hk hr hinput hsense
    have hedge := (IntSource.edge_iff _ _).2 ⟨hinput, hsense⟩
    refine ⟨_, exec_icuSourceEvent_of_present level hk hr, ?_, ?_, fun j hj => ?_, noteOverrun_setSource_frame ..⟩
    · simp [IntSource.drive_eq_of_lost hedge hlost]
    · simp [IntSource.loses_eq_true hedge hlost]
    · simp [sourceOf_setSource_other _ _ _ hj]
  · rintro rfl hb hlo hhi hsense
    refine ⟨_, exec_icuSwi_of_software hb hlo hhi hsense, ?_, ?_, fun j hj => ?_, noteOverrun_setSource_icu_frame ..⟩
    · simp [IntSource.event_eq_of_lost hlost]
    · simp [hlost]
    · simp [sourceOf_setSource_other _ _ _ hj]

end Sys2Proof.Machine

/-! The seal rearm (spec/22_security_presence.md, R525): what the raise of a record whose unit has no interrupt source of its own does to the
state, and the write of rearm to SEC_PRESENCE in and out of an open window. -/

namespace Sys2Proof.Machine

/-! ### Raising a record -/

/-- Nesting under the record on account of which the island acts (R462) writes the two nesting fields alone. -/
@[simp] theorem nest_keeps (s : State) (r : Report) :
    (nest s r).time = r.time ∧ (nest s r).severity = r.severity ∧ (nest s r).kind = r.kind ∧ (nest s r).index = r.index ∧ (nest s r).event = r.event ∧
      (nest s r).status = r.status ∧ (nest s r).guarded = r.guarded ∧ (nest s r).flows = r.flows ∧ (nest s r).did = r.did ∧ (nest s r).detail = r.detail ∧
      (nest s r).detail2 = r.detail2 ∧ (nest s r).epoch = r.epoch := by
  simp only [nest]
  cases s.safe.acting with
  | none => simp
  | some k => cases r.cause <;> simp

/-- A report whose unit has no ICU source enters the intake with the level of SIC source 0 alone. -/
theorem enterIntake_of_noSource (s : State) {r : Report} (h : reportSource r.kind r.index = none) :
    enterIntake s r = sicSet { s with safe.intake := queueReport r s.safe.intake } 0 true := by
  simp [enterIntake, h]

theorem raiseNow_frame_of_noSource (s : State) {r : Report} (h : reportSource r.kind r.index = none) :
    { raiseNow s r with safe := s.safe, sic := s.sic } = s := by
  simp only [raiseNow, enterIntake_of_noSource s h]
  split_ifs <;> rfl

theorem raise_frame_of_noSource (s : State) {r : Report} (h : reportSource r.kind r.index = none) :
    { raise s r with safe := s.safe, sic := s.sic } = s :=
  raiseNow_frame_of_noSource s (by simpa using h)

/-- With 9 free entries the intake takes a report of every severity (R461). -/
theorem raise_eq_of_room {s : State} (r : Report) (hup : s.safe.intakeUp = true) (hroom : s.safe.intake.length + 9 ≤ 64) :
    raise s r = enterIntake s (nest s r) := by
  have hfree : s.safe.intake.length < 64 := by omega
  simp [raise, raiseNow, hup, hroom, hfree]

theorem safe_raise_of_room {s : State} {r : Report} (h : reportSource r.kind r.index = none) (hup : s.safe.intakeUp = true) (hroom : s.safe.intake.length + 9 ≤ 64) :
    (raise s r).safe = { s.safe with intake := queueReport (nest s r) s.safe.intake } := by
  rw [raise_eq_of_room r hup hroom, enterIntake_of_noSource s (by simpa using h)]
  simp

/-! ### The write of rearm -/

/-- The record SEAL_REARMED of the DID that wrote rearm (R525, R533). -/
def rearmReport (s : State) (did : Nat) : Report := { secReport s sevWarn 0x0155 with did := did }

/-- The SEC unit, chip unit 0x03, has no ICU source (R496). -/
theorem reportSource_rearmReport (s : State) (did : Nat) : reportSource (rearmReport s did).kind (rearmReport s did).index = none := by
  simp [rearmReport, secReport, reportOf, reportSource]

theorem secOpen_of_ready {s : State} {did : Nat} (hdid : did = 1 ∨ did = 2) (hb : s.bootReady = true) : secOpen s did = true := by
  simpa [secOpen, hb] using hdid

theorem exec_sealRearm_of_intact {s : State} {did : Nat} (hsec : secOpen s did = true) (hopen : s.sec.open_ = true) (hok : s.sec.sealOk = true) :
    exec (.sealRearm did) s = .next (raise { s with sec.sealLatched := false } (rearmReport s did)) :=
  if_pos (by simp [hsec, hopen, hok])

theorem exec_sealRearm_of_closed_or_broken {s : State} (did : Nat) (h : s.sec.open_ = false ∨ s.sec.sealOk = false) :
    exec (.sealRearm did) s = .next s :=
  if_neg (by rcases h with h | h <;> simp [h])

/-- Settles O56: an accepted rearm raises SEAL_REARMED over the cleared latch, and SEC has no ICU source that the record could pulse. -/
theorem sealRearm : Obligations.SealRearm := by
  intro s did hdid hb
  have hsource := reportSource_rearmReport s did
  refine ⟨fun hopen hok => ⟨_, exec_sealRearm_of_intact (secOpen_of_ready hdid hb) hopen hok, by simp, ?_, fun hup hlen => ?_⟩,
    exec_sealRearm_of_closed_or_broken did⟩
  · exact congrArg (fun t : State => { t with sec := s.sec }) (raise_frame_of_noSource { s with sec.sealLatched := false } hsource)
  · have hroom : s.safe.intake.length + 9 ≤ 64 := by omega
    refine ⟨_, safe_raise_of_room hsource hup hroom, ?_⟩
    simp [rearmReport, secReport, reportOf, sevWarn]

end Sys2Proof.Machine

namespace Sys2Proof.Machine

open Sys2Proof Sys2Proof.Safety

-- One declaration after the other: each parallel task of the elaborator would hold a stack of its own, and the check limits the memory of the text.
set_option Elab.async false

/-! ## The queue and the canonical form of the byte memory: what each operation keeps -/

/-- The queue of waiting commands and every byte of memory are as before. -/
abbrev KeepsBytes (s t : State) : Prop := t.pending = s.pending ∧ t.mem = s.mem

/-- The queue of waiting commands is as before, and the byte memory has its canonical form where it had it before. -/
abbrev KeepsForm (s t : State) : Prop := t.pending = s.pending ∧ (Memory.wf s.mem = true → Memory.wf t.mem = true)

@[simp] theorem keepsBytes_iff (s t : State) : KeepsBytes s t ↔ t.pending = s.pending ∧ t.mem = s.mem := Iff.rfl

@[simp] theorem keepsForm_iff (s t : State) :
    KeepsForm s t ↔ t.pending = s.pending ∧ (Memory.wf s.mem = true → Memory.wf t.mem = true) := Iff.rfl

/-- The command answers a next state, which keeps the queue and the canonical form. -/
def NextKeeps (s : State) (o : Host.Outcome State Fault Refusal) : Prop := ∃ t, o = .next t ∧ KeepsForm s t

@[simp] theorem nextKeeps_next (s t : State) : NextKeeps s (.next t) ↔ KeepsForm s t := by
  simp [NextKeeps]

theorem KeepsForm.trans {s t u : State} (h : KeepsForm s t) (h' : KeepsForm t u) : KeepsForm s u := by
  grind

theorem KeepsForm.of_bytes {s t u : State} (h : KeepsForm s t) (h' : KeepsBytes t u) : KeepsForm s u := by
  grind

/-- The state that an operation's answer leaves. -/
def Answer.state : Answer → State
  | .done _ _ _ _ s => s
  | .later s => s

@[simp] theorem Answer.state_done (st res det fl : Nat) (s : State) : (Answer.done st res det fl s).state = s := rfl

@[simp] theorem Answer.state_later (s : State) : (Answer.later s).state = s := rfl

@[simp] theorem okWith_kept (s : State) (res : Nat) : (okWith s res).state = s := rfl

@[simp] theorem failWith_kept (s : State) (st : Nat) : (failWith s st).state = s := rfl

@[simp] theorem Memory.wf_of_writes {m : List Host.Cell} (a : Nat) (bs : List Byte) (h : Memory.wf m = true) :
    Memory.wf (Memory.writes m a bs) = true := Memory.wf_writes a bs h

@[simp] theorem Memory.wf_of_filter {m : List Host.Cell} (f : Host.Cell → Bool) (h : Memory.wf m = true) :
    Memory.wf (m.filter f) = true := Memory.wf_filter f h

/-! ### Folds over states and over pairs that carry one -/

theorem foldl_keepsForm {α : Type} (f : State → α → State) (h : ∀ s x, KeepsForm s (f s x)) (l : List α) (s : State) :
    KeepsForm s (l.foldl f s) := by
  induction l generalizing s with
  | nil => simp
  | cons x l ih => exact (h s x).trans (ih _)

theorem foldl_carries_bytes {α β : Type} (p : β → State) (f : β → α → β) (h : ∀ a x, KeepsBytes (p a) (p (f a x))) (l : List α) (a : β) :
    KeepsBytes (p a) (p (l.foldl f a)) := by
  induction l generalizing a with
  | nil => simp
  | cons x l ih => simpa [h] using ih (f a x)

theorem foldl_carries_form {α β : Type} (p : β → State) (f : β → α → β) (h : ∀ a x, KeepsForm (p a) (p (f a x))) (l : List α) (a : β) :
    KeepsForm (p a) (p (l.foldl f a)) := by
  induction l generalizing a with
  | nil => simp
  | cons x l ih => exact (h a x).trans (ih _)

@[simp] theorem foldl_wf {α : Type} (f : State → α → State) (h : ∀ s x, Memory.wf s.mem = true → Memory.wf (f s x).mem = true) (l : List α)
    (s : State) (hs : Memory.wf s.mem = true) : Memory.wf (l.foldl f s).mem = true := by
  induction l generalizing s with
  | nil => exact hs
  | cons x l ih => exact ih _ (h s x hs)

/-! ### The shared operations that write bytes, and those that run another -/

@[simp] theorem sramWrite_kept (s : State) (k : Nat) (bs : List Byte) : KeepsForm s (sramWrite s k bs) :=
  ⟨rfl, Memory.wf_writes k bs⟩

@[simp] theorem dramWrite_kept (s : State) (pa : Nat) (bs : List Byte) : KeepsForm s (dramWrite s pa bs) := by
  simp +contextual [dramWrite]

@[simp] theorem writeSeg_kept (s : State) (w : Who) (va : Nat) (bs : List Byte) : KeepsForm s (writeSeg s w va bs).2 := by
  generalize h : writeSeg s w va bs = t
  simp only [writeSeg] at h
  repeat' split at h
  all_goals (subst h; simp +contextual)

@[simp] theorem devWriteGo_kept (w : Who) (n : Nat) (s : State) (va : Nat) (bs : List Byte) : KeepsForm s (devWriteGo w n s va bs).2 := by
  induction n generalizing s va bs with
  | zero => simp [devWriteGo]
  | succ n ih => grind [devWriteGo, writeSeg_kept]

@[simp] theorem devWrite_kept (s : State) (w : Who) (va : Nat) (bs : List Byte) : KeepsForm s (devWrite s w va bs).2 :=
  devWriteGo_kept w _ s va bs

theorem actingOn_kept (k : Option Nat) (s : State) (g : State → State) (h : ∀ s, KeepsBytes s (g s)) : KeepsBytes s (actingOn k s g) :=
  h { s with safe.acting := k }

theorem actingOn_keepsForm (k : Option Nat) (s : State) (g : State → State) (h : ∀ s, KeepsForm s (g s)) : KeepsForm s (actingOn k s g) :=
  h { s with safe.acting := k }

theorem together_kept (s : State) (f : State → State) (h : ∀ s, KeepsBytes s (f s)) : KeepsBytes s (together s f) :=
  ⟨together_pending s f fun s => (h s).1, together_mem s f fun s => (h s).2⟩

theorem together_keepsForm (s : State) (f : State → State) (h : ∀ s, KeepsForm s (f s)) : KeepsForm s (together s f) := by
  simp only [together]
  split
  · exact h s
  · simpa using h { s with hif.batch := some [], knots.cycle := some [] }

@[simp] theorem actingOn_wf (k : Option Nat) (s : State) (g : State → State) (h : ∀ s, Memory.wf s.mem = true → Memory.wf (g s).mem = true)
    (hs : Memory.wf s.mem = true) : Memory.wf (actingOn k s g).mem = true :=
  h { s with safe.acting := k } hs

@[simp] theorem together_wf (s : State) (f : State → State) (h : ∀ s, Memory.wf s.mem = true → Memory.wf (f s).mem = true)
    (hs : Memory.wf s.mem = true) : Memory.wf (together s f).mem = true := by
  simp only [together]
  split
  · exact h s hs
  · simpa using h { s with hif.batch := some [], knots.cycle := some [] } hs

/-- A descriptor's run keeps what its operation keeps. -/
theorem runDesc_kept (s : State) (d : Desc) (o : OpInfo) (act : State → Answer) (h : ∀ s, KeepsForm s (act s).state) :
    KeepsForm s (runDesc s d o act) := by
  have ha := h (markStarted s d)
  simp only [runDesc]
  split
  · simp
  · split
    · simp
    · cases he : act (markStarted s d) <;> simpa [he] using ha

/-! ## Kept by the threads and their tables -/

@[simp] theorem setThread_kept (s : State) (t : Nat) (x : Thread) : KeepsBytes s (setThread s t x) := ⟨rfl, rfl⟩

@[simp] theorem updThread_kept (s : State) (t : Nat) (f : Thread → Thread) : KeepsBytes s (updThread s t f) := ⟨rfl, rfl⟩

@[simp] theorem setEngine_kept (s : State) (g : Nat) (x : Engine) : KeepsBytes s (setEngine s g x) := ⟨rfl, rfl⟩

theorem Memory.wf_foldl_write {m : List Host.Cell} (f : Nat → Byte) (keys : List Nat) (h : Memory.wf m = true) :
    Memory.wf (keys.foldl (fun m k => Memory.write m k (f k)) m) = true := by
  induction keys generalizing m with
  | nil => exact h
  | cons k keys ih => exact ih (Memory.wf_write _ _ h)

@[simp] theorem scribble_kept (s : State) (keys : List Nat) : KeepsForm s (scribble s keys) :=
  ⟨rfl, Memory.wf_foldl_write _ keys⟩

@[simp] theorem dropMma_kept (s : State) (t : Nat) : KeepsForm s (dropMma s t) := by
  simp only [dropMma]
  split <;> simp +contextual

@[simp] theorem stopThread_kept (s : State) (t : Nat) : KeepsForm s (stopThread s t) := by simp +contextual [stopThread]

@[simp] theorem dropCopies_kept (s : State) (g : Nat) (inst : Nat) : KeepsBytes s (dropCopies s g inst) := ⟨rfl, rfl⟩

@[simp] theorem haltThread_kept (s : State) (t : Nat) (status : Nat) : KeepsForm s (haltThread s t status) := by
  simp only [haltThread]
  split <;> simp +contextual

@[simp] theorem wakeThread_kept (s : State) (t : Nat) : KeepsBytes s (wakeThread s t) := ⟨rfl, rfl⟩

/-! ## Kept by flows and epochs -/

@[simp] theorem updEpoch_kept (s : State) (c : Nat) (n : Nat) (f : Epoch → Epoch) : KeepsBytes s (updEpoch s c n f) := ⟨rfl, rfl⟩

@[simp] theorem dropEpoch_kept (s : State) (c : Nat) (n : Nat) : KeepsBytes s (dropEpoch s c n) := ⟨rfl, rfl⟩

@[simp] theorem updFlow_kept (s : State) (c : Nat) (n : Nat) (f : Nat) (g : FlowRun → FlowRun) : KeepsBytes s (updFlow s c n f g) := ⟨rfl, rfl⟩

@[simp] theorem writeResult_kept (s : State) (e : Epoch) (f : Nat) (x : FlowResult) (good : Bool) : KeepsBytes s (writeResult s e f x good) := by
  simp only [writeResult]
  repeat' split
  all_goals simp

@[simp] theorem settleSeq_kept (s : State) (k : Nat) (q : Seq) (ok : Bool) : KeepsForm s (settleSeq s k q ok) := by
  simp only [settleSeq]
  split <;> simp +contextual

@[simp] theorem settleSeqs_kept (s : State) (f n : Nat) (ok : Bool) : KeepsForm s (settleSeqs s f n ok) :=
  foldl_keepsForm _ (fun s p => by split <;> simp +contextual) _ _

@[simp] theorem countLate_kept (s : State) (c : Nat) (n : Nat) : KeepsBytes s (countLate s c n) := by
  simp only [countLate]
  split <;> simp

@[simp] theorem shadowLate_kept (s : State) (e : Epoch) (r : FlowRun) : KeepsBytes s (shadowLate s e r) := by
  simp only [shadowLate]
  split <;> simp

@[simp] theorem endFlow_kept (s : State) (c : Nat) (n : Nat) (f : Nat) : KeepsForm s (endFlow s c n f) := by
  simp only [endFlow]
  repeat' split
  all_goals simp +contextual

@[simp] theorem endFlows_kept (s : State) (c n : Nat) : KeepsForm s (endFlows s c n) := by
  simp only [endFlows]
  split
  · simp
  · exact together_keepsForm _ _ fun s => foldl_keepsForm _ (fun s _ => endFlow_kept s c n _) _ _

@[simp] theorem fwDone_kept (s : State) (d : Desc) (source : Nat) : KeepsBytes s (fwDone s d source) := by
  simp only [fwDone]
  split <;> simp

@[simp] theorem noteFlags_kept (s : State) (d : Desc) (flags : Nat) : KeepsBytes s (noteFlags s d flags) := by
  simp only [noteFlags]
  split <;> simp

/-! ## Kept by the frames of the ports -/

@[simp] theorem setPlant_kept (s : State) (q : Nat) (x : PlantPort) : KeepsBytes s (setPlant s q x) := ⟨rfl, rfl⟩

@[simp] theorem sendMgmt_kept (s : State) (port : Nat) (kind : Nat) (bytes : List Byte) : KeepsBytes s (sendMgmt s port kind bytes) := by
  simp only [sendMgmt]
  repeat' split
  all_goals simp

@[simp] theorem setQuiet_kept (s : State) (q : Nat) (y : PlantPort) : KeepsBytes s (setQuiet s q y) := by
  simp only [setQuiet]
  split <;> simp

/-! ## Kept by the safety operations -/

@[simp] theorem setFlowSafe_kept (s : State) (f : Nat) (x : FlowSafe) : KeepsBytes s (setFlowSafe s f x) := ⟨rfl, rfl⟩

@[simp] theorem setSwitch_kept (s : State) (ch : Nat) (x : Switch) : KeepsBytes s (setSwitch s ch x) := by
  simp only [setSwitch]
  split <;> simp

@[simp] theorem raiseDriven_kept (s : State) (off : Nat) : KeepsBytes s (raiseDriven s off) := by
  simp only [raiseDriven]
  split <;> simp

@[simp] theorem driveSafe_kept (s : State) : KeepsBytes s (driveSafe s) := by simp [driveSafe]

@[simp] theorem ackChannel_kept (s : State) (ch : Nat) : KeepsBytes s (ackChannel s ch) := by
  simp only [ackChannel]
  repeat' split
  all_goals simp

@[simp] theorem switchTo_kept (s : State) (ch : Nat) (on : Bool) : KeepsBytes s (switchTo s ch on) := by
  simp only [switchTo]
  split <;> simp

@[simp] theorem localOff_kept (s : State) (ch : Nat) : KeepsBytes s (localOff s ch) := by simp [localOff]

@[simp] theorem localOffBoth_kept (s : State) : KeepsBytes s (localOffBoth s) := by simp [localOffBoth]

@[simp] theorem endTest_kept (s : State) (link : Nat) (reason : Nat) : KeepsBytes s (endTest s link reason) := by
  simp only [endTest]
  repeat' split
  all_goals simp

@[simp] theorem dropTests_kept (s : State) : KeepsBytes s (dropTests s) := by simp [dropTests]

@[simp] theorem putLevel_kept (s : State) (level : Nat) : KeepsBytes s (putLevel s level) := by simp [putLevel]

@[simp] theorem closePresence_kept (s : State) : KeepsBytes s (closePresence s) := by
  simp only [closePresence]
  repeat' split
  all_goals simp

@[simp] theorem openPresence_kept (s : State) (ov : Bool) : KeepsBytes s (openPresence s ov) := by simp [openPresence]

@[simp] theorem passSeal_kept (s : State) : KeepsBytes s (passSeal s) := by
  simp only [passSeal]
  repeat' split
  all_goals simp

@[simp] theorem passKey_kept (s : State) : KeepsBytes s (passKey s) := by
  simp only [passKey]
  repeat' split
  all_goals simp

@[simp] theorem mirrorField_kept (s : State) : KeepsBytes s (mirrorField s) := by
  simp only [mirrorField]
  split <;> simp

@[simp] theorem fieldReport_kept (s : State) : KeepsBytes s (fieldReport s) := by
  simp only [fieldReport]
  split <;> simp

@[simp] theorem maintRecord_kept (s : State) (did : Nat) (command : Nat) : KeepsBytes s (maintRecord s did command) := by simp [maintRecord]

@[simp] theorem maintRefuse_kept (s : State) : KeepsBytes s (maintRefuse s) := ⟨rfl, rfl⟩

@[simp] theorem maintAccept_kept (s : State) (did : Nat) : KeepsBytes s (maintAccept s did) := by simp [maintAccept]

/-! ## Kept by the time base -/

@[simp] theorem stepBy_kept (s : State) (d : Int) : KeepsBytes s (stepBy s d) := ⟨rfl, rfl⟩

@[simp] theorem servoTo_kept (s : State) (v : Servo) : KeepsBytes s (servoTo s v) := by
  simp only [servoTo]
  split <;> simp

@[simp] theorem servoFree_kept (s : State) : KeepsBytes s (servoFree s) := by
  simp only [servoFree]
  split <;> simp

@[simp] theorem stepDue_kept (s : State) (d : Int) : KeepsBytes s (stepDue s d) := by
  simp only [stepDue]
  split <;> simp

theorem execStep_keeps (did : Nat) (s : State) : NextKeeps s (execStep did s) := by
  simp only [execStep]
  repeat' split
  all_goals simp

theorem execReacquire_keeps (did : Nat) (s : State) : NextKeeps s (execReacquire did s) := by
  simp only [execReacquire]
  split <;> simp

theorem execSetTod_keeps (did : Nat) (s : State) : NextKeeps s (execSetTod did s) := by
  simp only [execSetTod]
  repeat' split
  all_goals simp

@[simp] theorem setY_kept (s : State) (y : Rat) : KeepsBytes s (setY s y) := by
  simp only [setY]
  split <;> simp

@[simp] theorem acceptSample_kept (s : State) (theta : Int) : KeepsBytes s (acceptSample s theta) := ⟨rfl, rfl⟩

@[simp] theorem acquireSample_kept (s : State) (theta : Int) : KeepsBytes s (acquireSample s theta) := by
  simp only [acquireSample]
  repeat' split
  all_goals simp

@[simp] theorem trackSample_kept (s : State) (theta : Int) (tau : Nat) : KeepsBytes s (trackSample s theta tau) := by
  simp only [trackSample]
  repeat' split
  all_goals simp

@[simp] theorem servoTake_kept (s : State) (theta : Int) : KeepsBytes s (servoTake s theta) := by
  simp only [servoTake]
  repeat' split
  all_goals simp

@[simp] theorem toBackup_kept (s : State) : KeepsBytes s (toBackup s) := by simp [toBackup]

@[simp] theorem judgeSample_kept (s : State) (theta : Int) : KeepsBytes s (judgeSample s theta) := by
  simp only [judgeSample]
  repeat' split
  all_goals simp

@[simp] theorem servoSample_kept (s : State) (source : Nat) (theta : Int) : KeepsBytes s (servoSample s source theta) := by
  simp only [servoSample]
  repeat' split
  all_goals simp

@[simp] theorem setPtp_kept (s : State) (p : Nat) (x : PtpPort) : KeepsBytes s (setPtp s p x) := ⟨rfl, rfl⟩

@[simp] theorem readStamps_kept (s : State) (port : Nat) (ingress : Nat) (egress : Nat) : KeepsBytes s (readStamps s port ingress egress) := ⟨rfl, rfl⟩

@[simp] theorem calSample_kept (s : State) (port : Nat) (theta : Int) : KeepsBytes s (calSample s port theta) := by
  simp only [calSample]
  split <;> simp

theorem execServoSample_keeps (port : Nat) (seq : Nat) (ingress : Nat) (egress : Nat) (s : State) : NextKeeps s (execServoSample port seq ingress egress s) := by
  simp only [execServoSample]
  repeat' split
  all_goals simp

theorem execServoHoldoverTimeout_keeps (s : State) : NextKeeps s (execServoHoldoverTimeout s) := by
  simp only [execServoHoldoverTimeout]
  repeat' split
  all_goals simp

theorem execDpllRefLost_keeps (s : State) : NextKeeps s (execDpllRefLost s) := by
  simp only [execDpllRefLost]
  split <;> simp

@[simp] theorem clockLost_kept (was : Bool) (s : State) : KeepsBytes s (clockLost was s) := by
  simp only [clockLost]
  split <;> simp

@[simp] theorem stampOut_kept (s : State) (port : Nat) (type : Nat) (seq : Nat) (sub : Nat) : KeepsBytes s (stampOut s port type seq sub).2 := by
  simp only [stampOut]
  split <;> simp

@[simp] theorem stampIn_kept (s : State) (port : Nat) (type : Nat) (seq : Nat) (sub : Nat) : KeepsBytes s (stampIn s port type seq sub).2 := by
  simp only [stampIn]
  split <;> simp

@[simp] theorem sendPtp_kept (s : State) (port : Nat) (type : Nat) (seq : Nat) (twoStep : Bool) (corr : Int) (logInterval : Nat) (body : List Byte) : KeepsBytes s (sendPtp s port type seq twoStep corr logInterval body) := by simp [sendPtp]

@[simp] theorem sendEvent_kept (s : State) (port : Nat) (type : Nat) (seq : Nat) (sub : Nat) (twoStep : Bool) (logInterval : Nat) (body : List Byte) : KeepsBytes s (sendEvent s port type seq sub twoStep logInterval body).2 := by simp [sendEvent]

@[simp] theorem answerReq_kept (s : State) (m : PtpMsg) (t4 : Option Int) : KeepsBytes s (answerReq s m t4) := by
  simp only [answerReq]
  repeat' split
  all_goals simp

@[simp] theorem answerPeer_kept (s : State) (m : PtpMsg) (t2 : Option Int) : KeepsBytes s (answerPeer s m t2) := by
  simp only [answerPeer]
  repeat' split
  all_goals simp

@[simp] theorem takeRequest_kept (s : State) (port : Nat) (type : Nat) (seq : Nat) : KeepsBytes s (takeRequest s port type seq).2 := by
  simp only [takeRequest]
  split <;> simp

@[simp] theorem takeSync_kept (s : State) (m : PtpMsg) : KeepsBytes s (takeSync s m) := ⟨rfl, rfl⟩

@[simp] theorem takeDelay_kept (s : State) (m : PtpMsg) : KeepsBytes s (takeDelay s m) := by
  grind [takeDelay, takeRequest_kept, setPtp_kept]

@[simp] theorem takePeer_kept (s : State) (m : PtpMsg) (t4 : Option Int) : KeepsBytes s (takePeer s m t4) := by
  grind [takePeer, setPtp_kept, takeRequest_kept]

theorem execPtpMessageRx_keeps (m : PtpMsg) (s : State) : NextKeeps s (execPtpMessageRx m s) := by
  simp only [execPtpMessageRx]
  repeat' split
  all_goals simp

theorem execPtpMessageTx_keeps (m : PtpMsg) (s : State) : NextKeeps s (execPtpMessageTx m s) := by
  simp only [execPtpMessageTx]
  repeat' split
  all_goals simp

@[simp] theorem advanceField_kept (s : State) (t : Int) : KeepsBytes s (advanceField s t) := ⟨rfl, rfl⟩

theorem execPpsInEdge_keeps (field : Bool) (falling : Bool) (sub : Nat) (s : State) : NextKeeps s (execPpsInEdge field falling sub s) := by
  simp only [execPpsInEdge]
  repeat' split
  all_goals simp

theorem execPpsOutEdge_keeps (s : State) : NextKeeps s (execPpsOutEdge s) := by
  simp only [execPpsOutEdge]
  repeat' split
  all_goals simp

theorem execClk10mGate_keeps (freq : Option Int) (s : State) : NextKeeps s (execClk10mGate freq s) := by simp [execClk10mGate]

@[simp] theorem setCad_kept (s : State) (c : Nat) (x : Cadence) : KeepsBytes s (setCad s c x) := ⟨rfl, rfl⟩

@[simp] theorem noteInstant_kept (s : State) (action : Bool) (source : Nat) (t : Nat) : KeepsBytes s (noteInstant s action source t) := ⟨rfl, rfl⟩

@[simp] theorem fireOutput_kept (s : State) (k : Nat) (n : Nat) (t : Nat) (o : TrigOut) : KeepsBytes s (fireOutput s k n t o) := by
  simp only [fireOutput]
  split <;> simp

@[simp] theorem shiftOut_kept (before after : Int) (k fuel : Nat) (s : State) : KeepsBytes s (shiftOut before after k fuel s) := by
  induction fuel generalizing s with
  | zero => simp [shiftOut]
  | succ fuel ih =>
    simp only [shiftOut]
    repeat' split
    all_goals simp [ih]

@[simp] theorem shiftTriggers_kept (s : State) (before after : Int) : KeepsBytes s (shiftTriggers s before after) := by
  simp only [shiftTriggers, keepsBytes_iff]
  constructor
  · exact foldl_pending _ (fun s p => by split <;> simp) _ _
  · exact foldl_mem _ (fun s p => by split <;> simp) _ _

@[simp] theorem fieldStep_kept (s : State) (theta : Int) : KeepsBytes s (fieldStep s theta) := by
  simp only [fieldStep]
  repeat' split
  all_goals simp

@[simp] theorem badFrame_kept (s : State) : KeepsBytes s (badFrame s) := ⟨rfl, rfl⟩

theorem execFieldTimeMarker_keeps (ta tb tc : Int) (td : Option Int) (s : State) : NextKeeps s (execFieldTimeMarker ta tb tc td s) := by
  simp only [execFieldTimeMarker]
  split
  · simp
  · split
    · simp
    · split <;> simp

@[simp] theorem fieldLinkDown_kept (s : State) : KeepsBytes s (fieldLinkDown s) := by
  simp only [fieldLinkDown]
  split <;> simp

theorem execFieldLinkDown_keeps (s : State) : NextKeeps s (execFieldLinkDown s) := by simp [execFieldLinkDown]

/-! ## Kept by the streams -/

@[simp] theorem setStream_kept (s : State) (k : Nat) (x : Stream) : KeepsBytes s (setStream s k x) := ⟨rfl, rfl⟩

@[simp] theorem updStream_kept (s : State) (k : Nat) (f : Stream → Stream) : KeepsBytes s (updStream s k f) := ⟨rfl, rfl⟩

@[simp] theorem dropReception_kept (s : State) (k : Nat) : KeepsBytes s (dropReception s k) := ⟨rfl, rfl⟩

@[simp] theorem disableLeaving_kept (s : State) (sel : Nat → Stream → Bool) : KeepsBytes s (disableLeaving s sel) := ⟨rfl, rfl⟩

@[simp] theorem stopStreams_kept (s : State) (c : Nat) : KeepsBytes s (stopStreams s c) := ⟨rfl, rfl⟩

@[simp] theorem joinStreams_kept (s : State) (c : Nat) : KeepsBytes s (joinStreams s c) := ⟨rfl, rfl⟩

@[simp] theorem endCadence_kept (s : State) (c : Nat) : KeepsBytes s (endCadence s c) := by
  simp only [endCadence]
  repeat' split
  all_goals simp

@[simp] theorem dropComplete_kept (s : State) (c : Nat) (n : Nat) : KeepsBytes s (dropComplete s c n) := by
  simp only [dropComplete]
  repeat' split
  all_goals simp

@[simp] theorem releaseEpoch_kept (s : State) (c : Nat) (n : Nat) : KeepsBytes s (releaseEpoch s c n) := by simp [releaseEpoch]

@[simp] theorem driftCheck_kept (s : State) (k : Nat) (period : Nat) (next : Nat) (off : Bool) : KeepsBytes s (driftCheck s k period next off) := by
  simp only [driftCheck]
  repeat' split
  all_goals simp

@[simp] theorem closeStream_kept (s : State) (c : Nat) (n : Nat) (k : Nat) (sc : StreamCfg) : KeepsBytes s (closeStream s c n k sc) := by
  simp only [closeStream]
  split <;> simp

theorem execStreamTimeRestored_keeps (stream : Nat) (s : State) : NextKeeps s (execStreamTimeRestored stream s) := by
  simp only [execStreamTimeRestored]
  repeat' split
  all_goals simp

theorem execContestedExpiry_keeps (stream : Nat) (s : State) : NextKeeps s (execContestedExpiry stream s) := by
  simp only [execContestedExpiry]
  split <;> simp

@[simp] theorem contestStream_kept (s : State) (k : Nat) (event : Nat) : KeepsBytes s (contestStream s k event) := by simp [contestStream]

/-! ## Kept by the rings -/

@[simp] theorem flushFlows_kept (c fuel : Nat) (s : State) : KeepsBytes s (flushFlows c fuel s) := by
  induction fuel generalizing s with
  | zero => simp [flushFlows]
  | succ fuel ih =>
    simp only [flushFlows]
    repeat' split
    all_goals simp [ih]

@[simp] theorem startFlush_kept (s : State) (c : Nat) : KeepsBytes s (startFlush s c) := by simp [startFlush]

@[simp] theorem startRing_kept (s : State) (com : Bool) (r : Nat) : KeepsBytes s (startRing s com r) := by
  simp only [startRing]
  repeat' split
  all_goals simp

@[simp] theorem leaveUnitsOf_kept (s : State) (gone : Source → Bool) : KeepsBytes s (leaveUnitsOf s gone) := ⟨rfl, rfl⟩

@[simp] theorem leaveUnits_kept (s : State) (src : Source) : KeepsBytes s (leaveUnits s src) := ⟨rfl, rfl⟩

@[simp] theorem abortFlights_kept (s : State) (r : Nat) : KeepsBytes s (abortFlights s r) := by simp [abortFlights]

@[simp] theorem endStop_kept (s : State) (r : Nat) : KeepsBytes s (endStop s r) := by
  simp only [endStop]
  repeat' split
  all_goals simp

@[simp] theorem stopRing_kept (s : State) (com : Bool) (r : Nat) : KeepsBytes s (stopRing s com r) := by
  simp only [stopRing]
  repeat' split
  all_goals simp

@[simp] theorem resetRing_kept (s : State) (com : Bool) (r : Nat) : KeepsBytes s (resetRing s com r) := by
  simp only [resetRing]
  repeat' split
  all_goals simp

@[simp] theorem ringCmd_kept (s : State) (did : Nat) (op : Nat) : KeepsBytes s (ringCmd s did op) := by
  simp only [ringCmd]
  repeat' split
  all_goals simp

theorem execStart_keeps (did : Nat) (s : State) : NextKeeps s (execStart did s) := by simp [execStart]

theorem execStop_keeps (did : Nat) (s : State) : NextKeeps s (execStop did s) := by simp [execStop]

theorem execReset_keeps (did : Nat) (s : State) : NextKeeps s (execReset did s) := by simp [execReset]

theorem execSringStopped_keeps (ring : Nat) (s : State) : NextKeeps s (execSringStopped ring s) := by simp [execSringStopped]

theorem execDoorbellPoll_keeps (s : State) : NextKeeps s (execDoorbellPoll s) := by
  simp only [execDoorbellPoll]
  repeat' split
  all_goals simp

@[simp] theorem emptyPoll_kept (s : State) (com : Bool) (r : Nat) (issue : Nat) : KeepsBytes s (emptyPoll s com r issue) := by
  simp only [emptyPoll]
  split <;> simp

@[simp] theorem fetchDone_kept (s : State) (r : Nat) : KeepsBytes s (fetchDone s r) := by
  simp only [fetchDone]
  split <;> simp

@[simp] theorem subPolled_kept (s : State) (r : Nat) (issue : Nat) (tail : W32) : KeepsBytes s (subPolled s r issue tail) := by
  simp only [subPolled]
  repeat' split
  all_goals simp

@[simp] theorem comPolled_kept (s : State) (c : Nat) (issue : Nat) (head : W32) : KeepsBytes s (comPolled s c issue head) := by
  simp only [comPolled]
  split <;> simp

theorem execDoorbellPollReturn_keeps (completion : Bool) (ring : Nat) (record : Option (BitVec 128)) (s : State) : NextKeeps s (execDoorbellPollReturn completion ring record s) := by
  simp only [execDoorbellPollReturn]
  repeat' split
  all_goals simp

theorem execNop_keeps (d : Desc) (s : State) : NextKeeps s (execNop d s) :=
  (nextKeeps_next _ _).2 (runDesc_kept _ _ _ _ fun s => by simp)

theorem execTimeMark_keeps (d : Desc) (s : State) : NextKeeps s (execTimeMark d s) :=
  (nextKeeps_next _ _).2 (runDesc_kept _ _ _ _ fun s => by simp)

@[simp] theorem endDescs_kept (s : State) (gone : Desc → Bool) : KeepsBytes s (endDescs s gone) := ⟨rfl, rfl⟩

@[simp] theorem resetFn_kept (s : State) (fn : Nat) : KeepsBytes s (resetFn s fn) := ⟨rfl, rfl⟩

theorem execFunctionLevelReset_keeps (fn : Nat) (s : State) : NextKeeps s (execFunctionLevelReset fn s) := by
  simp only [execFunctionLevelReset]
  repeat' split
  all_goals simp

@[simp] theorem assignRings_kept (s : State) (did : Nat) (com : Bool) (value : W32) : KeepsBytes s (assignRings s did com value) := by
  simp only [assignRings]
  repeat' split
  all_goals simp

theorem execHifFnAssign_keeps (did : Nat) (completion : Bool) (value : W32) (s : State) : NextKeeps s (execHifFnAssign did completion value s) := by simp [execHifFnAssign]

theorem execMsixModerationExpiry_keeps (vector : Nat) (s : State) : NextKeeps s (execMsixModerationExpiry vector s) := by
  simp only [execMsixModerationExpiry]
  split <;> simp

@[simp] theorem unmaskVector_kept (s : State) (v : Nat) : KeepsBytes s (unmaskVector s v) := by
  simp only [unmaskVector]
  split <;> simp

theorem execMsixVectorUnmask_keeps (vector : Nat) (s : State) : NextKeeps s (execMsixVectorUnmask vector s) := by
  simp only [execMsixVectorUnmask]
  split <;> simp

/-! ## Kept by the interrupt controllers -/

@[simp] theorem setCtl_kept (s : State) (sic : Bool) (c : IntCtl) : KeepsBytes s (setCtl s sic c) := by
  simp only [setCtl]
  split <;> simp

@[simp] theorem setSource_kept (s : State) (sic : Bool) (k : Nat) (x : IntSource) : KeepsBytes s (setSource s sic k x) := by simp [setSource]

@[simp] theorem setProc_kept (s : State) (sic : Bool) (p : Nat) (x : IntProc) : KeepsBytes s (setProc s sic p x) := by simp [setProc]

@[simp] theorem stormTrip_kept (s : State) (sic : Bool) (k : Nat) : KeepsBytes s (stormTrip s sic k) := by
  simp only [stormTrip]
  split <;> simp

@[simp] theorem deliverSource_kept (s : State) (sic : Bool) (p : Nat) (k : Nat) : KeepsBytes s (deliverSource s sic p k) := by
  simp only [deliverSource]
  split <;> simp

theorem execIcuSourceEvent_keeps (sic : Bool) (source : Nat) (level : Bool) (s : State) : NextKeeps s (execIcuSourceEvent sic source level s) := by
  simp only [execIcuSourceEvent]
  split <;> simp

@[simp] theorem openMask_kept (s : State) (sic : Bool) (p : Nat) (cleared : Bool) : KeepsBytes s (openMask s sic p cleared) := by
  simp only [openMask]
  split <;> simp

theorem execIcuDelivery_keeps (sic : Bool) (w : ProcTurn) (s : State) : NextKeeps s (execIcuDelivery sic w s) := by
  simp only [execIcuDelivery]
  repeat' split
  all_goals simp

theorem execIcuEoi_keeps (sic : Bool) (p : Nat) (source : Nat) (s : State) : NextKeeps s (execIcuEoi sic p source s) := by
  simp only [execIcuEoi]
  repeat' split
  all_goals simp

@[simp] theorem srcCmd_kept (s : State) (did : Nat) (cp : Nat) (f : IntSource → IntSource) : KeepsBytes s (srcCmd s did cp f) := by
  simp only [srcCmd]
  split <;> simp

theorem execIcuSrcMask_keeps (did : Nat) (cp : Nat) (s : State) : NextKeeps s (execIcuSrcMask did cp s) := by simp [execIcuSrcMask]

theorem execIcuSrcUnmask_keeps (did : Nat) (cp : Nat) (s : State) : NextKeeps s (execIcuSrcUnmask did cp s) := by simp [execIcuSrcUnmask]

theorem execIcuSrcSetPend_keeps (did : Nat) (cp : Nat) (s : State) : NextKeeps s (execIcuSrcSetPend did cp s) := by simp [execIcuSrcSetPend]

theorem execIcuSrcClrPend_keeps (did : Nat) (cp : Nat) (s : State) : NextKeeps s (execIcuSrcClrPend did cp s) := by simp [execIcuSrcClrPend]

theorem execIcuSwi_keeps (did : Nat) (source : Nat) (s : State) : NextKeeps s (execIcuSwi did source s) := by
  simp only [execIcuSwi]
  repeat' split
  all_goals simp

theorem execIcuLockAcquire_keeps (did : Nat) (lock : Nat) (s : State) : NextKeeps s (execIcuLockAcquire did lock s) := by
  simp only [execIcuLockAcquire]
  repeat' split
  all_goals simp

theorem execIcuLockRelease_keeps (did : Nat) (lock : Nat) (s : State) : NextKeeps s (execIcuLockRelease did lock s) := by
  simp only [execIcuLockRelease]
  split <;> simp

theorem execStormWindowReset_keeps (s : State) : NextKeeps s (execStormWindowReset s) := by simp [execStormWindowReset]

theorem execProcessorWake_keeps (sic : Bool) (w : ProcTurn) (s : State) : NextKeeps s (execProcessorWake sic w s) := by
  simp only [execProcessorWake]
  repeat' split
  all_goals simp

/-! ## Kept by the cadences -/

theorem execCadConfig_keeps (d : Desc) (s : State) : NextKeeps s (execCadConfig d s) := by
  simp only [execCadConfig, nextKeeps_next]
  refine runDesc_kept _ _ _ _ fun s => ?_
  (repeat' split) <;> simp +contextual

@[simp] theorem armClear_kept (s : State) (c : Nat) : KeepsBytes s (armClear s c) := ⟨rfl, rfl⟩

@[simp] theorem armEgos_kept (s : State) (c : Nat) : KeepsBytes s (armEgos s c) := ⟨rfl, rfl⟩

theorem execCadArm_keeps (d : Desc) (s : State) : NextKeeps s (execCadArm d s) := by
  simp only [execCadArm, nextKeeps_next]
  refine runDesc_kept _ _ _ _ fun s => ?_
  (repeat' split) <;> simp +contextual

theorem execCadStop_keeps (d : Desc) (s : State) : NextKeeps s (execCadStop d s) := by
  simp only [execCadStop, nextKeeps_next]
  refine runDesc_kept _ _ _ _ fun s => ?_
  (repeat' split) <;> simp +contextual

@[simp] theorem holdLevel_kept (s : State) (k : Nat) (old : Option TrigOut) (o : TrigOut) : KeepsBytes s (holdLevel s k old o) := by
  simp only [holdLevel]
  split <;> simp

theorem execTrigConfig_keeps (d : Desc) (s : State) : NextKeeps s (execTrigConfig d s) := by
  simp only [execTrigConfig, nextKeeps_next]
  refine runDesc_kept _ _ _ _ fun s => ?_
  (repeat' split) <;> simp +contextual

theorem execActConfig_keeps (d : Desc) (s : State) : NextKeeps s (execActConfig d s) := by
  simp only [execActConfig, nextKeeps_next]
  refine runDesc_kept _ _ _ _ fun s => ?_
  (repeat' split) <;> simp +contextual

theorem execTrigMon_keeps (d : Desc) (s : State) : NextKeeps s (execTrigMon d s) := by
  simp only [execTrigMon, nextKeeps_next]
  refine runDesc_kept _ _ _ _ fun s => ?_
  (repeat' split) <;> simp +contextual

theorem execFlowCatchup_keeps (d : Desc) (s : State) : NextKeeps s (execFlowCatchup d s) := by
  simp only [execFlowCatchup, nextKeeps_next]
  refine runDesc_kept _ _ _ _ fun s => ?_
  (repeat' split) <;> simp +contextual

@[simp] theorem acqEffects_kept (s : State) (c : Nat) : KeepsBytes s (acqEffects s c) := ⟨rfl, rfl⟩

@[simp] theorem restartChanged_kept (s : State) (c : Nat) (n : Nat) : KeepsBytes s (restartChanged s c n) := ⟨rfl, rfl⟩

@[simp] theorem releaseKept_kept (s : State) (changed : List Nat) : KeepsBytes s (releaseKept s changed) := ⟨rfl, rfl⟩

@[simp] theorem dropMessages_kept (s : State) (c : Nat) : KeepsBytes s (dropMessages s c) := ⟨rfl, rfl⟩

theorem execCadenceAcqStart_keeps (c : Nat) (s : State) : NextKeeps s (execCadenceAcqStart c s) := by
  simp only [execCadenceAcqStart]
  split <;> simp

@[simp] theorem openEpoch_kept (s : State) (e : Epoch) (deltas : Tbl Int) (cut : Nat) (target : Nat) (reef : Nat) : KeepsBytes s (openEpoch s e deltas cut target reef) := ⟨rfl, rfl⟩

@[simp] theorem catchUp_kept (s : State) (c : Nat) (n : Nat) (e : Epoch) (deltas : Tbl Int) : KeepsBytes s (catchUp s c n e deltas) := by
  simp only [catchUp]
  repeat' split
  all_goals simp

theorem closeStreams_kept (c n : Nat) (l : Tbl StreamCfg) (s : State) :
    KeepsBytes s (l.foldl (fun s p => if p.2.cadence = c then closeStream s c n p.1 p.2 else s) s) :=
  foldl_carries_bytes id _ (fun s p => by simp only [id]; split <;> simp) l s

theorem execCadenceClose_keeps (c : Nat) (s : State) : NextKeeps s (execCadenceClose c s) := by
  unfold execCadenceClose
  extract_lets x n s1 s2 s3 s4 mine s5 cfg deltas before s6 s7
  have h2 : KeepsBytes s s2 := by simp [s2, s1]
  have h5 : KeepsBytes s s5 := by simp [s5, s4, s3, h2]
  have h6 : KeepsBytes s s6 := by simpa [h5] using closeStreams_kept c n cfg.streams s5
  have h7 : KeepsBytes s s7 := by
    simp only [s7]
    split <;> simp [h6]
  clear_value s7 s6 s5 s4 s2
  split
  · simp
  · split
    · simp [h2]
    · split
      · simp [h7]
      · extract_lets active s8
        have h8 : KeepsBytes s s8 := by simp [s8, h7]
        split <;> simp [h8]

@[simp] theorem dropCalls_kept (s : State) (gone : Nat → Bool) : KeepsBytes s (dropCalls s gone) := ⟨rfl, rfl⟩

@[simp] theorem dropRuns_kept (s : State) (c : Nat) (n : Nat) : KeepsBytes s (dropRuns s c n) := by simp [dropRuns]

@[simp] theorem noteAbandoned_kept (s : State) (e : Epoch) : KeepsBytes s (noteAbandoned s e) := by simp [noteAbandoned]

@[simp] theorem abandon_kept (s : State) (e : Epoch) : KeepsForm s (abandon s e) := by
  simp only [abandon, keepsForm_iff, noteAbandoned_kept, updEpoch_kept]
  constructor
  · refine (together_pending _ _ fun s => foldl_pending _ (fun s r => ?_) _ _).trans (by simp)
    repeat' split
    all_goals simp
  · intro hs
    refine together_wf _ _ (fun s hs => foldl_wf _ (fun s r hs => ?_) _ _ hs) (by simp [hs])
    repeat' split
    all_goals simp [hs]

theorem execCadenceDeadline_keeps (c : Nat) (s : State) : NextKeeps s (execCadenceDeadline c s) := by
  simp only [execCadenceDeadline]
  repeat' split
  all_goals simp +contextual

theorem execEpochWorkFinish_keeps (c : Nat) (n : Nat) (s : State) : NextKeeps s (execEpochWorkFinish c n s) := by
  simp only [execEpochWorkFinish]
  repeat' split
  all_goals simp

@[simp] theorem countMissed_kept (s : State) (k : Nat) (m : TrigMon) : KeepsBytes s (countMissed s k m) := by simp [countMissed]

@[simp] theorem sendAction_kept (s : State) (k : Nat) (t : Nat) (a : Action) : KeepsBytes s (sendAction s k t a) := by simp [sendAction]

@[simp] theorem lateAction_kept (s : State) (k : Nat) : KeepsBytes s (lateAction s k) := by simp [lateAction]

@[simp] theorem finishAction_kept (s : State) (k : Nat) (t : Nat) (at_ : Nat) (a : Action) : KeepsBytes s (finishAction s k t at_ a) := by
  simp only [finishAction]
  split <;> simp

theorem execActionCmdSend_keeps (action : Nat) (hold : Nat) (s : State) : NextKeeps s (execActionCmdSend action hold s) := by
  simp only [execActionCmdSend]
  repeat' split
  all_goals simp

theorem execActionAckRx_keeps (action : Nat) (s : State) : NextKeeps s (execActionAckRx action s) := by simp [execActionAckRx]

@[simp] theorem loseSample_kept (s : State) (k : Nat) (t : Nat) : KeepsBytes s (loseSample s k t) := ⟨rfl, rfl⟩

theorem execTriggerMissed_keeps (stream : Nat) (s : State) : NextKeeps s (execTriggerMissed stream s) := by
  simp only [execTriggerMissed]
  repeat' split
  all_goals simp

/-! ## Kept by the field side -/

theorem execFldBank_keeps (d : Desc) (s : State) : NextKeeps s (execFldBank d s) := by
  simp only [execFldBank, nextKeeps_next]
  refine runDesc_kept _ _ _ _ fun s => ?_
  (repeat' split) <;> simp +contextual

theorem execFldEnc_keeps (d : Desc) (s : State) : NextKeeps s (execFldEnc d s) := by
  simp only [execFldEnc, nextKeeps_next]
  refine runDesc_kept _ _ _ _ fun s => ?_
  (repeat' split) <;> simp +contextual

theorem execFldSerial_keeps (d : Desc) (s : State) : NextKeeps s (execFldSerial d s) := by
  simp only [execFldSerial, nextKeeps_next]
  refine runDesc_kept _ _ _ _ fun s => ?_
  (repeat' split) <;> simp +contextual

theorem execFldDin_keeps (d : Desc) (s : State) : NextKeeps s (execFldDin d s) := by
  simp only [execFldDin, nextKeeps_next]
  refine runDesc_kept _ _ _ _ fun s => ?_
  (repeat' split) <;> simp +contextual

theorem execFieldBrownout_keeps (s : State) : NextKeeps s (execFieldBrownout s) := by
  simp only [execFieldBrownout]
  split <;> simp

theorem execFieldSupplyGood_keeps (s : State) : NextKeeps s (execFieldSupplyGood s) := by
  simp only [execFieldSupplyGood]
  split <;> simp

@[simp] theorem loseRefs_kept (s : State) : KeepsBytes s (loseRefs s) := ⟨rfl, rfl⟩

@[simp] theorem firstReport_kept (s : State) : KeepsBytes s (firstReport s) := by
  simp only [firstReport]
  split <;> simp

theorem execFieldLinkUp_keeps (s : State) : NextKeeps s (execFieldLinkUp s) := by
  simp only [execFieldLinkUp]
  split <;> simp

theorem execFieldFirmwareLoad_keeps (s : State) : NextKeeps s (execFieldFirmwareLoad s) := by
  simp only [execFieldFirmwareLoad]
  split <;> simp

theorem execFieldOvervoltage_keeps (s : State) : NextKeeps s (execFieldOvervoltage s) := by
  simp only [execFieldOvervoltage]
  split <;> simp

theorem execFieldOvervoltageRestore_keeps (s : State) : NextKeeps s (execFieldOvervoltageRestore s) := by simp [execFieldOvervoltageRestore]

theorem execTriggerEdge_keeps (output : Nat) (s : State) : NextKeeps s (execTriggerEdge output s) := by
  simp only [execTriggerEdge]
  repeat' split
  all_goals simp

theorem execTriggerOverload_keeps (output : Nat) (s : State) : NextKeeps s (execTriggerOverload output s) := by
  simp only [execTriggerOverload]
  repeat' split
  all_goals simp

theorem execTriggerOverloadRetry_keeps (output : Nat) (s : State) : NextKeeps s (execTriggerOverloadRetry output s) := by
  simp only [execTriggerOverloadRetry]
  split <;> simp

@[simp] theorem sendRec_kept (s : State) (r : FieldRec) : KeepsBytes s (sendRec s r) := by
  simp only [sendRec]
  repeat' split
  all_goals simp

theorem execEncoderSample_keeps (input : Nat) (edges : Int) (zs : Nat) (illegal : Bool) (fault : Bool) (s : State) : NextKeeps s (execEncoderSample input edges zs illegal fault s) := by
  simp only [execEncoderSample]
  repeat' split
  all_goals simp

theorem execSerialRecord_keeps (port : Nat) (bytes : List Byte) (back : Nat) (ok : Bool) (s : State) : NextKeeps s (execSerialRecord port bytes back ok s) := by
  simp only [execSerialRecord]
  repeat' split
  all_goals simp

theorem execDigitalInputChange_keeps (input : Nat) (held : Nat) (level : Bool) (s : State) : NextKeeps s (execDigitalInputChange input held level s) := by
  simp only [execDigitalInputChange]
  repeat' split
  all_goals simp

theorem execKeyRead_keeps (a : Bool) (b : Bool) (s : State) : NextKeeps s (execKeyRead a b s) := by
  simp only [execKeyRead]
  repeat' split
  all_goals simp

theorem execSealMeasurement_keeps (ohm : Nat) (s : State) : NextKeeps s (execSealMeasurement ohm s) := by
  simp only [execSealMeasurement]
  split <;> simp

@[simp] theorem requestRx_kept (s : State) (ch : Nat) (req : Bool) : KeepsBytes s (requestRx s ch req) := by simp [requestRx]

theorem execEnergiseRequestRx_keeps (s : State) : NextKeeps s (execEnergiseRequestRx s) := by
  simp only [execEnergiseRequestRx]
  repeat' split
  all_goals simp

theorem execFieldHeartbeatTimeout_keeps (s : State) : NextKeeps s (execFieldHeartbeatTimeout s) := by
  simp only [execFieldHeartbeatTimeout]
  split <;> simp

@[simp] theorem readbackFail_kept (s : State) (ch : Nat) : KeepsBytes s (readbackFail s ch) := by simp [readbackFail]

@[simp] theorem readChannel_kept (s : State) (ch : Nat) (hs : Bool) (ls : Bool) (ma : Nat) : KeepsBytes s (readChannel s ch hs ls ma).2 := by
  simp only [readChannel]
  repeat' split
  all_goals simp

theorem execSafeReadback_keeps (hs0 : Bool) (ls0 : Bool) (hs1 : Bool) (ls1 : Bool) (ma0 : Nat) (ma1 : Nat) (s : State) : NextKeeps s (execSafeReadback hs0 ls0 hs1 ls1 ma0 ma1 s) := by
  simp only [execSafeReadback]
  repeat' split
  all_goals simp

theorem execSafeTestPulse_keeps (channel : Nat) (followed : Bool) (s : State) : NextKeeps s (execSafeTestPulse channel followed s) := by
  simp only [execSafeTestPulse]
  repeat' split
  all_goals simp

/-! ## Kept by the commit of samples -/

@[simp] theorem commit_kept (s : State) (k : Nat) (c : StreamCfg) (x : Draft) : KeepsForm s (commit s k c x).2 := by
  simp only [commit]
  repeat' split
  all_goals simp +contextual

theorem execStreamFrozenRecovery_keeps (stream : Nat) (s : State) : NextKeeps s (execStreamFrozenRecovery stream s) := by
  simp only [execStreamFrozenRecovery]
  repeat' split
  all_goals simp

/-! ## Kept by the intake descriptors -/

theorem execPortConfig_keeps (d : Desc) (s : State) : NextKeeps s (execPortConfig d s) := by
  simp only [execPortConfig, nextKeeps_next]
  refine runDesc_kept _ _ _ _ fun s => ?_
  (repeat' split) <;> simp +contextual

theorem execPartnerSet_keeps (d : Desc) (s : State) : NextKeeps s (execPartnerSet d s) := by
  simp only [execPartnerSet, nextKeeps_next]
  refine runDesc_kept _ _ _ _ fun s => ?_
  (repeat' split) <;> simp +contextual

theorem execPartnerClear_keeps (d : Desc) (s : State) : NextKeeps s (execPartnerClear d s) := by
  simp only [execPartnerClear, nextKeeps_next]
  refine runDesc_kept _ _ _ _ fun s => ?_
  (repeat' split) <;> simp +contextual

theorem execStreamConfig_keeps (d : Desc) (s : State) : NextKeeps s (execStreamConfig d s) := by
  simp only [execStreamConfig, nextKeeps_next]
  refine runDesc_kept _ _ _ _ fun s => ?_
  (repeat' split) <;> simp +contextual

@[simp] theorem endStarting_kept (s : State) (k : Nat) (status : Nat) : KeepsBytes s (endStarting s k status) := by
  simp only [endStarting]
  split <;> simp

@[simp] theorem releaseArming_kept (s : State) : KeepsBytes s (releaseArming s) := by
  simp only [releaseArming]
  split <;> simp

theorem execStreamEnable_keeps (d : Desc) (s : State) : NextKeeps s (execStreamEnable d s) := by
  simp only [execStreamEnable, nextKeeps_next]
  refine runDesc_kept _ _ _ _ fun s => ?_
  (repeat' split) <;> simp +contextual

theorem execUcodeLoad_keeps (d : Desc) (s : State) : NextKeeps s (execUcodeLoad d s) := by
  simp only [execUcodeLoad, nextKeeps_next]
  refine runDesc_kept _ _ _ _ fun s => ?_
  (repeat' split) <;> simp +contextual

theorem execTagMap_keeps (d : Desc) (s : State) : NextKeeps s (execTagMap d s) := by
  simp only [execTagMap, nextKeeps_next]
  refine runDesc_kept _ _ _ _ fun s => ?_
  (repeat' split) <;> simp +contextual

theorem execTagRead_keeps (d : Desc) (s : State) : NextKeeps s (execTagRead d s) :=
  (nextKeeps_next _ _).2 (runDesc_kept _ _ _ _ fun s => by simp)

theorem execStreamDelete_keeps (d : Desc) (s : State) : NextKeeps s (execStreamDelete d s) := by
  simp only [execStreamDelete, nextKeeps_next]
  refine runDesc_kept _ _ _ _ fun s => ?_
  (repeat' split) <;> simp +contextual

theorem execTestInject_keeps (d : Desc) (s : State) : NextKeeps s (execTestInject d s) := by
  simp only [execTestInject, nextKeeps_next]
  refine runDesc_kept _ _ _ _ fun s => ?_
  (repeat' split) <;> simp +contextual

/-! ## Kept by the intake -/

@[simp] theorem updPort_kept (s : State) (p : Nat) (f : IngPort → IngPort) : KeepsBytes s (updPort s p f) := ⟨rfl, rfl⟩

@[simp] theorem countMalformed_kept (s : State) (p : Nat) : KeepsBytes s (countMalformed s p) := ⟨rfl, rfl⟩

@[simp] theorem countUnknown_kept (s : State) (p : Nat) : KeepsBytes s (countUnknown s p) := ⟨rfl, rfl⟩

@[simp] theorem countOverflow_kept (s : State) (p : Nat) : KeepsBytes s (countOverflow s p) := ⟨rfl, rfl⟩

@[simp] theorem countRx_kept (s : State) (p : Nat) : KeepsBytes s (countRx s p) := ⟨rfl, rfl⟩

theorem execFrameReceive_keeps (f : Frame) (s : State) : NextKeeps s (execFrameReceive f s) := by
  simp only [execFrameReceive]
  repeat' split
  all_goals simp

@[simp] theorem unmatched_kept (s : State) (k : Nat) (m : TrigMon) : KeepsBytes s (unmatched s k m) := by simp [unmatched]

@[simp] theorem matchFrame_kept (s : State) (k : Nat) (m : TrigMon) (tin : Nat) (leader : Option Nat) : KeepsBytes s (matchFrame s k m tin leader).2 := by
  simp only [matchFrame]
  repeat' split
  all_goals simp

@[simp] theorem endFrame_kept (s : State) (f : CamFrame) : KeepsForm s (endFrame s f) := by
  simp only [endFrame]
  repeat' split
  all_goals simp +contextual

@[simp] theorem endStreamFrame_kept (s : State) (k : Nat) : KeepsForm s (endStreamFrame s k) := by
  simp only [endStreamFrame]
  split <;> simp +contextual

@[simp] theorem openFrame_kept (s : State) (k : Nat) (c : StreamCfg) (r : RxFrame) (gvsp : Bool) (block total : Nat) (leader : Option Nat) :
    KeepsBytes s (openFrame s k c r gvsp block total leader) := by
  simp only [openFrame]
  split
  · next m _ =>
    have hm := matchFrame_kept s k m r.time leader
    rcases h : matchFrame s k m r.time leader with ⟨_ | t, u⟩ <;> rw [h] at hm <;> exact hm
  · split <;> simp

@[simp] theorem updFrame_kept (s : State) (k : Nat) (g : CamFrame → CamFrame) : KeepsBytes s (updFrame s k g) := ⟨rfl, rfl⟩

@[simp] theorem parseGvsp_kept (s : State) (r : RxFrame) : KeepsForm s (parseGvsp s r) := by
  simp only [parseGvsp]
  repeat' split
  all_goals simp +contextual

@[simp] theorem parseRtp_kept (s : State) (r : RxFrame) (ssrc : Nat) (time : Nat) (marker : Bool) (segs : List (Nat × Nat × List Byte)) : KeepsForm s (parseRtp s r ssrc time marker segs) := by
  simp only [parseRtp]
  repeat' split
  all_goals simp +contextual

theorem execGvspFrameTimeout_keeps (stream : Nat) (s : State) : NextKeeps s (execGvspFrameTimeout stream s) := by
  simp only [execGvspFrameTimeout]
  split <;> simp +contextual

@[simp] theorem countBounds_kept (s : State) : KeepsBytes s (countBounds s) := ⟨rfl, rfl⟩

@[simp] theorem countDrop_kept (s : State) (reason : Option Nat) : KeepsBytes s (countDrop s reason) := by
  simp only [countDrop]
  split <;> simp

@[simp] theorem countSteps_kept (s : State) : KeepsBytes s (countSteps s) := ⟨rfl, rfl⟩

@[simp] theorem programError_kept (s : State) (r : RxFrame) : KeepsBytes s (programError s r) := by simp [programError]

@[simp] theorem parseRaw_kept (s : State) (r : RxFrame) (payload : List Byte) (ecc : Bool) : KeepsForm s (parseRaw s r payload ecc) := by
  simp only [parseRaw]
  repeat' split
  all_goals simp +contextual

@[simp] theorem writeTags_kept (s : State) (k tin : Nat) (tags : List TagRun) (m : DataSetMsg) : KeepsBytes s (writeTags s k tin tags m) := by
  simp only [writeTags, keepsBytes_iff]
  constructor
  · exact foldl_pending _ (fun s p => by split <;> rfl) _ _
  · exact foldl_mem _ (fun s p => by split <;> rfl) _ _

@[simp] theorem applyMsg_kept (s : State) (r : RxFrame) (m : DataSetMsg) : KeepsForm s (applyMsg s r m) := by
  simp only [applyMsg]
  repeat' split
  all_goals simp +contextual

@[simp] theorem parseUadp_kept (s : State) (r : RxFrame) : KeepsForm s (parseUadp s r) := by
  simp only [parseUadp]
  repeat' split
  · simp
  · simp
  · simp
  · exact foldl_keepsForm _ (fun s m => applyMsg_kept s r m) _ _
  · simp

theorem execTagWriteResume_keeps (copied : Nat × Nat) (s : State) : NextKeeps s (execTagWriteResume copied s) := by
  simp only [execTagWriteResume]
  split
  · simp
  · exact (nextKeeps_next _ _).2 (foldl_keepsForm _ parseUadp_kept _
      { s with ing.deferring := s.ing.deferring.filter (fun p => p ≠ copied), ing.deferred := [] })

@[simp] theorem parseFrame_kept (s : State) (r : RxFrame) (ecc : Bool) : KeepsForm s (parseFrame s r ecc) := by
  simp only [parseFrame]
  split <;> simp +contextual

theorem execParserRun_keeps (w : ParserTurn) (s : State) : NextKeeps s (execParserRun w s) := by
  simp only [execParserRun]
  split <;> simp +contextual

theorem execFieldRecordRx_keeps (s : State) : NextKeeps s (execFieldRecordRx s) := by
  simp only [execFieldRecordRx]
  split
  · simp
  · split
    · simp
    · split
      · simp
      · split
        · simp
        · exact (nextKeeps_next _ _).2 (foldl_keepsForm _ (fun s x => commit_kept s _ _ _) _ (tickFresh { s with fld.buffer := _ }))

@[simp] theorem readSlot_kept (s : State) (k : Nat) (c : StreamCfg) (y : Draft) : KeepsBytes s (readSlot s k c y).2.2 := by simp [readSlot]

@[simp] theorem inject_kept (s : State) (k : Nat) (c : StreamCfg) (x : Injection) : KeepsForm s (inject s k c x).2.2 := by
  grind [inject, tickFresh_keeps, commit_kept, readSlot_kept]

@[simp] theorem raiseInject_kept (s : State) (k : Nat) : KeepsBytes s (raiseInject s k) := by simp [raiseInject]

theorem execTestInjectionStart_keeps (stream : Nat) (s : State) : NextKeeps s (execTestInjectionStart stream s) := by
  grind [execTestInjectionStart, NextKeeps, advanceTo_keeps, inject_kept, setStream_kept, finishDesc_keeps, raiseInject_kept]

theorem execTestInjectTimeout_keeps (stream : Nat) (s : State) : NextKeeps s (execTestInjectTimeout stream s) := by
  simp only [execTestInjectTimeout]
  split <;> simp

theorem execStartupInjection_keeps (stream : Nat) (packet : List Byte) (expected : Nat) (s : State) : NextKeeps s (execStartupInjection stream packet expected s) := by
  grind [execStartupInjection, NextKeeps, inject_kept, updStream_kept, releaseArming_kept, endStarting_kept, raiseInject_kept]

theorem execEthernetLinkChange_keeps (port : Nat) (pins : PortPins) (s : State) : NextKeeps s (execEthernetLinkChange port pins s) := by
  simp only [execEthernetLinkChange]
  split <;> simp

/-! ## Kept by the splice -/

@[simp] theorem countEntry_kept (s : State) (x : StreamEntry) : KeepsBytes s (countEntry s x) := by
  simp only [countEntry]
  repeat' split
  all_goals simp

@[simp] theorem raiseMissing_kept (s : State) (n : Nat) (r : FlowRun) : KeepsBytes s (raiseMissing s n r) := by
  simp only [raiseMissing]
  split <;> simp

@[simp] theorem raiseCapacity_kept (s : State) (c : Nat) (n : Nat) : KeepsBytes s (raiseCapacity s c n) := by simp [raiseCapacity]

theorem execAlignEnd_keeps (c : Nat) (s : State) : NextKeeps s (execAlignEnd c s) := by
  simp only [execAlignEnd]
  repeat' split
  all_goals simp +contextual

theorem execSplStream_keeps (d : Desc) (s : State) : NextKeeps s (execSplStream d s) := by
  simp only [execSplStream, nextKeeps_next]
  refine runDesc_kept _ _ _ _ fun s => ?_
  (repeat' split) <;> simp +contextual

theorem execSplInputs_keeps (d : Desc) (s : State) : NextKeeps s (execSplInputs d s) := by
  simp only [execSplInputs, nextKeeps_next]
  refine runDesc_kept _ _ _ _ fun s => ?_
  (repeat' split) <;> simp +contextual

theorem execSplSnapshot_keeps (d : Desc) (s : State) : NextKeeps s (execSplSnapshot d s) := by
  simp only [execSplSnapshot, nextKeeps_next]
  refine runDesc_kept _ _ _ _ fun s => ?_
  (repeat' split) <;> simp +contextual

/-! ## Kept by the poses -/

@[simp] theorem setJoint_kept (s : State) (k : Nat) (x : JointSt) : KeepsBytes s (setJoint s k x) := ⟨rfl, rfl⟩

/-! ## Kept by the transforms -/

theorem execXftEntry_keeps (d : Desc) (s : State) : NextKeeps s (execXftEntry d s) := by
  simp only [execXftEntry, nextKeeps_next]
  refine runDesc_kept _ _ _ _ fun s => ?_
  (repeat' split) <;> simp +contextual

theorem execXftRig_keeps (d : Desc) (s : State) : NextKeeps s (execXftRig d s) := by
  simp only [execXftRig, nextKeeps_next]
  refine runDesc_kept _ _ _ _ fun s => ?_
  (repeat' split) <;> simp +contextual

theorem execXftJoint_keeps (d : Desc) (s : State) : NextKeeps s (execXftJoint d s) := by
  simp only [execXftJoint, nextKeeps_next]
  refine runDesc_kept _ _ _ _ fun s => ?_
  (repeat' split) <;> simp +contextual

theorem execXftMount_keeps (d : Desc) (s : State) : NextKeeps s (execXftMount d s) := by
  simp only [execXftMount, nextKeeps_next]
  refine runDesc_kept _ _ _ _ fun s => ?_
  (repeat' split) <;> simp +contextual

theorem execXftEgo_keeps (d : Desc) (s : State) : NextKeeps s (execXftEgo d s) := by
  simp only [execXftEgo, nextKeeps_next]
  refine runDesc_kept _ _ _ _ fun s => ?_
  (repeat' split) <;> simp +contextual

theorem execXftSetRef_keeps (d : Desc) (s : State) : NextKeeps s (execXftSetRef d s) := by
  simp only [execXftSetRef, nextKeeps_next]
  refine runDesc_kept _ _ _ _ fun s => ?_
  (repeat' split) <;> simp +contextual

theorem execXftDelete_keeps (d : Desc) (s : State) : NextKeeps s (execXftDelete d s) := by
  simp only [execXftDelete, nextKeeps_next]
  refine runDesc_kept _ _ _ _ fun s => ?_
  (repeat' split) <;> simp +contextual

@[simp] theorem loseStreams_kept (s : State) (c : Nat) (n : Nat) (must : Bool) (ks : List Nat) : KeepsForm s (loseStreams s c n must ks) := by
  simp only [loseStreams]
  split <;> simp +contextual

@[simp] theorem degradeReaders_kept (s : State) (c : Nat) (n : Nat) (ks : List Nat) : KeepsBytes s (degradeReaders s c n ks) := ⟨rfl, rfl⟩

theorem contestBoth_kept (s : State) (ks : List Nat) :
    KeepsForm s (ks.foldl (fun s k => if (streamOf s k).contested.isSome then s else contestStream s k 0x010E) s) :=
  foldl_keepsForm _ (fun s k => by split <;> simp +contextual) ks s

@[simp] theorem compareJoints_kept (s : State) (e : Epoch) : KeepsForm s (compareJoints s e) := by
  simp only [compareJoints]
  split
  · simp
  · refine foldl_keepsForm _ (fun s r => ?_) _ _
    split
    · simp
    · next j _ =>
      split
      · simp
      · refine KeepsForm.trans (.trans (contestBoth_kept { s with geo.monJoint := satAdd 16 s.geo.monJoint 1 } (j.primary :: j.check.toList)) ?_)
          (loseStreams_kept ..)
        simp +contextual

@[simp] theorem raiseTimes_kept (s : State) (r : Report) (n : Nat) : KeepsBytes s (raiseTimes s r n) := by
  induction n with
  | zero => simp [raiseTimes]
  | succ n ih => simpa [raiseTimes] using ih

@[simp] theorem stepJoint_kept (s : State) (e : Epoch) (t : EpochTable) (k : Nat) (j : Joint) : KeepsBytes s (stepJoint s e t k j) := by simp [stepJoint]

@[simp] theorem noteGeo_kept (s : State) (c : Nat) (n : Nat) : KeepsBytes s (noteGeo s c n) := ⟨rfl, rfl⟩

@[simp] theorem notePose_kept (s : State) (c : Nat) (n : Nat) : KeepsForm s (notePose s c n) := by
  simp only [notePose]
  repeat' split
  all_goals simp +contextual

@[simp] theorem poisonEntry_kept (s : State) (k : Nat) : KeepsBytes s (poisonEntry s k) := by
  simp only [poisonEntry]
  split <;> simp

theorem execPoseEvaluation_keeps (bad : List Nat) (s : State) : NextKeeps s (execPoseEvaluation bad s) := by
  simp only [execPoseEvaluation]
  split
  · simp
  · split
    · simp
    · refine (nextKeeps_next _ _).2 (KeepsForm.trans ?_ (notePose_kept _ _ _))
      refine KeepsForm.trans ?_ (loseStreams_kept _ _ _ _ _)
      refine KeepsForm.trans ?_ (foldl_keepsForm _ (fun s p => KeepsForm.of_bytes ⟨rfl, id⟩ (stepJoint_kept s _ _ _ _)) _ _)
      split <;> simp

/-! ## Kept by the flow descriptors -/

theorem execFlowConfig_keeps (d : Desc) (s : State) : NextKeeps s (execFlowConfig d s) := by
  simp only [execFlowConfig, nextKeeps_next]
  refine runDesc_kept _ _ _ _ fun s => ?_
  (repeat' split) <;> simp +contextual

theorem execFlowRing_keeps (d : Desc) (s : State) : NextKeeps s (execFlowRing d s) := by
  simp only [execFlowRing, nextKeeps_next]
  refine runDesc_kept _ _ _ _ fun s => ?_
  (repeat' split) <;> simp +contextual

theorem execFlowDelete_keeps (d : Desc) (s : State) : NextKeeps s (execFlowDelete d s) := by
  refine (nextKeeps_next _ _).2 (runDesc_kept _ _ _ _ fun s => ?_)
  repeat' split
  all_goals simp

@[simp] theorem noValue_kept (s : State) (e : Epoch) (f : Nat) : KeepsBytes s (noValue s e f) := by simp [noValue]

@[simp] theorem resetEpoch_kept (s : State) (e : Epoch) : KeepsForm s (resetEpoch s e) := by
  simp only [resetEpoch]
  refine KeepsForm.trans (t := if e.complete = true ∨ e.aborted = true then _ else _) ?_ (foldl_keepsForm _ (fun s r => ?_) _ _)
  · split <;> simp +contextual
  · repeat' split
    all_goals simp +contextual

theorem execTimeReset_keeps (did : Nat) (s : State) : NextKeeps s (execTimeReset did s) := by
  simp only [execTimeReset]
  split
  · simp
  · split
    · simp
    · simp only [nextKeeps_next, keepsForm_iff, servoFree_kept]
      constructor
      · refine (together_pending _ _ fun s => foldl_pending _ (fun s e => ?_) _ _).trans ((foldl_pending _ (fun s e => ?_) _ _).trans (by simp))
        · split <;> simp
        · simp
      · intro hs
        refine together_wf _ _ (fun s hs => foldl_wf _ (fun s e hs => ?_) _ _ hs) (foldl_wf _ (fun s e hs => ?_) _ _ ?_)
        · split <;> simp [hs]
        · simp [hs]
        · simp [hs]

/-! ## Kept by the Erg units -/

@[simp] theorem setErg_kept (s : State) (u : Nat) (x : ErgUnit) : KeepsBytes s (setErg s u x) := ⟨rfl, rfl⟩

theorem execErgVolume_keeps (d : Desc) (s : State) : NextKeeps s (execErgVolume d s) := by
  simp only [execErgVolume, nextKeeps_next]
  refine runDesc_kept _ _ _ _ fun s => ?_
  (repeat' split) <;> simp +contextual

@[simp] theorem readFrame_kept (s : State) (w : Who) (v : Volume) (n : Nat) (j : Nat) (k : Nat) : KeepsBytes s (readFrame s w v n j k).2 := by
  simp only [readFrame]
  repeat' split
  all_goals simp

@[simp] theorem retainedFrames_kept (s : State) (w : Who) (v : Volume) (n : Nat) : KeepsBytes s (retainedFrames s w v n).2 := by
  refine foldl_carries_bytes Prod.snd _ (fun a ep => ?_) _ ([], s)
  split
  · simp
  · refine foldl_carries_bytes Prod.snd _ (fun a j => ?_) _ a
    split <;> simp

@[simp] theorem updReaders_kept (s : State) (e : Epoch) (u : Nat) (v : Volume) (g : FlowRun → FlowRun) : KeepsBytes s (updReaders s e u v g) := ⟨rfl, rfl⟩

@[simp] theorem writeFrame_kept (w : Who) (v : Volume) (s : State) (f : PointFrame) : KeepsForm s (writeFrame w v s f) := by simp +contextual [writeFrame]

@[simp] theorem writeMap_kept (w : Who) (v : Volume) (map : List Byte) (oov : Nat) (truncated : Nat) (s : State) (f : PointFrame) : KeepsForm s (writeMap w v map oov truncated s f) := by simp +contextual [writeMap]

@[simp] theorem countOld_kept (w : Who) (v : Volume) (n : Nat) (dropped : List Placed) (s : State) : KeepsForm s (countOld w v n dropped s) :=
  foldl_keepsForm _ (fun s _ => devWrite_kept s w _ _) _ _

@[simp] theorem buildMarks_kept (s : State) (e : Epoch) (u : Nat) (v : Volume) (level : Nat) (truncated : Bool) (full : Bool) : KeepsBytes s (buildMarks s e u v level truncated full) := by
  simp only [buildMarks]
  repeat' split
  all_goals simp

/-- `compact` as a function: applied to its arguments, the kernel would run its last write instead of comparing it. -/
theorem compact_eq : @compact = fun s w v n errs fs p level sites =>
    let keys := sites.map Voxel.key
    let gone := (p.rest.filter (fun q => q.epoch == n)).map (fun q => (q.member, q.block, q.slot))
    let s := fs.foldl (fun s f => writeMap w v (mapBytes v level keys gone f) (countIn p.oov n f.member) (countIn p.rest n f.member) s f) s
    let s := countOld w v n p.rest s
    let flags := placeB (decide (0 < level)) 0 + placeB (!p.rest.isEmpty) 1 + placeB (decide (2 ≤ errs)) 2
    (devWrite (tickFresh s) w (v.siteBase + n % 2 * 0x410000)
      (siteHeader n sites.length level flags (cellEdge v level) (v.ox, v.oy, v.oz) s.now ++ sites.flatMap (siteRecord n level (Config.freeByte s.fresh 0)))).2 := rfl

theorem tickFresh_kept (s : State) : KeepsBytes s (tickFresh s) := by simp

theorem compact_ends_in_devWrite (s : State) (w : Who) (v : Volume) (n errs : Nat) (fs : List PointFrame) (p : Pass) (level : Nat) (sites : List Voxel) :
    ∃ x a b, KeepsForm s x ∧ compact s w v n errs fs p level sites = (devWrite x w a b).2 := by
  rw [compact_eq]
  exact ⟨_, _, _, ((foldl_keepsForm _ (fun s f => writeMap_kept w v _ _ _ s f) fs s).trans (countOld_kept w v n p.rest _)).of_bytes (tickFresh_kept _), rfl⟩

@[simp] theorem compact_kept (s : State) (w : Who) (v : Volume) (n errs : Nat) (fs : List PointFrame) (p : Pass) (level : Nat) (sites : List Voxel) :
    KeepsForm s (compact s w v n errs fs p level sites) := by
  obtain ⟨x, a, b, hx, he⟩ := compact_ends_in_devWrite s w v n errs fs p level sites
  rw [he]
  exact hx.trans (devWrite_kept ..)

@[simp] theorem buildStore_kept (s : State) (w : Who) (store : Tbl Voxel) (v : Volume) (n : Nat) (fs : List PointFrame) (rebuild : Bool) (errs : Nat) :
    KeepsBytes s (buildStore s w store v n fs rebuild errs).s := by
  simp only [buildStore]
  split <;> simp

theorem writeFrames_kept (w : Who) (v : Volume) (fs : List PointFrame) (s : State) : KeepsForm s (fs.foldl (writeFrame w v) s) :=
  foldl_keepsForm _ (fun s f => writeFrame_kept w v s f) fs s

@[simp] theorem buildNow_kept (s : State) (e : Epoch) (t : EpochTable) (p : PoseTable) (u errs : Nat) (v : Volume) :
    KeepsForm s (buildNow s e t p u errs v) := by
  have hp w fs s := (writeFrames_kept w v fs s).1
  have hf w fs s := (writeFrames_kept w v fs s).2
  simp only [buildNow, keepsForm_iff, raiseTimes_kept, buildMarks_kept, setErg_kept]
  split <;> split <;> simp +contextual [hp, hf]

@[simp] theorem startErg_kept (s : State) (u : Nat) : KeepsBytes s (startErg s u) := by
  simp only [startErg]
  repeat' split
  all_goals simp

@[simp] theorem degradeVolume_kept (s : State) (e : Epoch) (u : Nat) (v : Volume) : KeepsBytes s (degradeVolume s e u v) := ⟨rfl, rfl⟩

theorem execVoxelBuild_keeps (unit : Nat) (errs : Nat) (s : State) : NextKeeps s (execVoxelBuild unit errs s) := by
  simp only [execVoxelBuild]
  repeat' split
  all_goals simp +contextual

theorem execEgoMotion_keeps (g : Nat) (s : State) : NextKeeps s (execEgoMotion g s) := by
  simp only [execEgoMotion]
  repeat' split
  all_goals simp +contextual

/-! ## Kept by the Erg operations -/

@[simp] theorem readSites_kept (s : State) (w : Who) (va : Nat) : KeepsBytes s (readSites s w va).2.2 := by
  simp only [readSites]
  split <;> simp

@[simp] theorem afterWrite_state (x : Nat × State) (result detail : Nat) : (afterWrite x result detail).state = x.2 := by
  simp only [afterWrite]
  split <;> rfl

@[simp] theorem runKnn_kept (s : State) (d : Desc) (w : Who) : KeepsForm s (runKnn s d w).state := by
  simp only [runKnn]
  repeat' split
  all_goals simp +contextual

@[simp] theorem runFps_kept (s : State) (d : Desc) (w : Who) : KeepsForm s (runFps s d w).state := by
  simp only [runFps]
  repeat' split
  all_goals simp +contextual

@[simp] theorem runRules_kept (s : State) (d : Desc) (w : Who) : KeepsForm s (runRules s d w).state := by
  unfold runRules
  extract_lets mode k book a
  split
  · simp [a]
  · rename_i t b ins outs rs rules bytes s1 x1 c2 x2 h
    have hb : KeepsBytes s b.2.2 := by
      simp only [b]
      split <;> simp [a]
    have hx : KeepsForm s x2.2 := by
      simp only [x2]
      split <;> simp +contextual [s1, hb]
    clear_value x2 b
    split
    · simp [hb]
    · split
      · simp [hb]
      · split
        · split <;> simp +contextual [x1, s1, hb]
        · split <;> simp +contextual [hx]

@[simp] theorem bevCells_kept (s : State) (wh : Who) (x : Bev) : KeepsBytes s (bevCells s wh x).s := by
  unfold bevCells
  extract_lets a t rows feats
  have hf : KeepsBytes a.2.2 feats.2.2 :=
    foldl_carries_bytes (fun y : Nat × List (List Byte) × State => y.2.2) _ (fun y r => by split <;> simp) rows (stOk, [], a.2.2)
  clear_value feats
  split
  · simp [a]
  · split <;> simp [hf, a]

@[simp] theorem runBev_kept (s : State) (d : Desc) (w : Who) : KeepsForm s (runBev s d w).state := by
  simp only [runBev]
  split <;> simp +contextual

@[simp] theorem queueErg_kept (s : State) (d : Desc) (u : Nat) : KeepsBytes s (queueErg s d u).state := by simp [queueErg]

theorem execErgKnn_keeps (d : Desc) (s : State) : NextKeeps s (execErgKnn d s) := by
  simp only [execErgKnn, nextKeeps_next]
  refine runDesc_kept _ _ _ _ fun s => ?_
  (repeat' split) <;> simp +contextual

theorem execErgFps_keeps (d : Desc) (s : State) : NextKeeps s (execErgFps d s) :=
  (nextKeeps_next _ _).2 (runDesc_kept _ _ _ _ fun s => by split <;> simp)

theorem execErgRules_keeps (d : Desc) (s : State) : NextKeeps s (execErgRules d s) := by
  simp only [execErgRules, nextKeeps_next]
  refine runDesc_kept _ _ _ _ fun s => ?_
  (repeat' split) <;> simp +contextual

theorem execErgBev_keeps (d : Desc) (s : State) : NextKeeps s (execErgBev d s) := by
  simp only [execErgBev, nextKeeps_next]
  refine runDesc_kept _ _ _ _ fun s => ?_
  (repeat' split) <;> simp +contextual

@[simp] theorem runErg_kept (s : State) (d : Desc) (w : Who) : KeepsForm s (runErg s d w).state := by
  simp only [runErg]
  repeat' split
  all_goals simp +contextual

theorem execErgOperationEnd_keeps (unit ecc : Nat) (s : State) : NextKeeps s (execErgOperationEnd unit ecc s) := by
  simp only [execErgOperationEnd]
  split
  · simp
  · next d start _ =>
    split
    · simp
    · split
      all_goals
        next h =>
          have hr := congrArg (fun a => KeepsForm s a.state) h
          simpa using hr.mp ((KeepsForm.of_bytes ⟨rfl, id⟩ (by simp)).trans (runErg_kept ..))

/-! ## Kept by the grids -/

theorem execGridConfig_keeps (d : Desc) (s : State) : NextKeeps s (execGridConfig d s) := by
  simp only [execGridConfig, nextKeeps_next]
  refine runDesc_kept _ _ _ _ fun s => ?_
  (repeat' split) <;> simp +contextual

theorem execGridSource_keeps (d : Desc) (s : State) : NextKeeps s (execGridSource d s) := by
  simp only [execGridSource, nextKeeps_next]
  refine runDesc_kept _ _ _ _ fun s => ?_
  (repeat' split) <;> simp +contextual

theorem execGridOutput_keeps (d : Desc) (s : State) : NextKeeps s (execGridOutput d s) := by
  simp only [execGridOutput, nextKeeps_next]
  refine runDesc_kept _ _ _ _ fun s => ?_
  (repeat' split) <;> simp +contextual

theorem execGridArea_keeps (d : Desc) (s : State) : NextKeeps s (execGridArea d s) := by
  simp only [execGridArea, nextKeeps_next]
  refine runDesc_kept _ _ _ _ fun s => ?_
  (repeat' split) <;> simp +contextual

theorem execGridDelete_keeps (d : Desc) (s : State) : NextKeeps s (execGridDelete d s) := by
  simp only [execGridDelete, nextKeeps_next]
  refine runDesc_kept _ _ _ _ fun s => ?_
  (repeat' split) <;> simp +contextual

@[simp] theorem readEvidence_kept (s : State) (w : Who) (x : GridCfg) (slots : List Nat) : KeepsBytes s (readEvidence s w x slots).2 := by
  refine foldl_carries_bytes Prod.snd _ (fun a k => ?_) _ ([], s)
  dsimp only
  split <;> simp

@[simp] theorem setGrid_kept (s : State) (g : Nat) (y : Grid) : KeepsBytes s (setGrid s g y) := ⟨rfl, rfl⟩

@[simp] theorem contestSlots_kept (s : State) (x : GridCfg) (slots : List Nat) : KeepsBytes s (contestSlots s x slots).1 := by
  refine foldl_carries_bytes Prod.fst _ (fun a k => ?_) _ (s, 0)
  repeat' split
  all_goals simp

theorem reportVotes_kept (x : GridCfg) (out ks : List Nat) (s : State) :
    KeepsBytes s (ks.foldl (fun s k => match x.sources.find k with
      | some y => if out.contains k then raise s { streamReport s sevInfo y.stream 0x010C with guarded := x.guarded } else s
      | none => s) s) := by
  refine foldl_carries_bytes id _ (fun s k => ?_) ks s
  simp only [id]
  repeat' split
  all_goals simp

@[simp] theorem gridMonitor_kept (s : State) (e : Epoch) (g : Nat) (x : GridCfg) : KeepsForm s (gridMonitor s e g x) := by
  unfold gridMonitor
  extract_lets s1 e1 w y
  have h1 : KeepsForm s s1 := compareJoints_kept s e
  clear_value s1
  split
  · extract_lets r rows s2 out s3 c _ s4
    have h2 : KeepsForm s1 s2 := by simp +contextual [s2, r]
    have h3 : KeepsBytes s2 s3 := reportVotes_kept x out (List.range 32) s2
    have h4 : KeepsForm s s4 := by
      clear_value s3 s2
      simp +contextual [s4, c, h3, h2, h1]
    clear_value s4
    simp +contextual [h4]
  · exact h1

@[simp] theorem readState_kept (s : State) (w : Who) (x : GridCfg) (buf : Nat) (k : Nat) : KeepsBytes s (readState s w x buf k).2.2 := by simp [readState]

@[simp] theorem gridStatus_kept (s : State) (e : Epoch) (g : Nat) (st : Nat) : KeepsBytes s (gridStatus s e g st) := by
  simp only [gridStatus]
  split <;> simp

@[simp] theorem gridResample_kept (s : State) (e : Epoch) (g : Nat) (x : GridCfg) (k : Nat) : KeepsForm s (gridResample s e g x k) := by
  simp only [gridResample]
  repeat' split
  all_goals simp +contextual

@[simp] theorem liftMaps_kept (s : State) (w : Who) (e : Epoch) (t : EpochTable) (p : PoseTable) (x : GridCfg) (rows : List RegionRow) :
    KeepsBytes s (liftMaps s w e t p x rows).2.2 := by
  refine foldl_carries_bytes (fun a : Nat × List LiftMap × State => a.2.2) _ (fun a y => ?_) _ (stOk, [], s)
  repeat' split
  all_goals simp

@[simp] theorem gridLift_kept (s : State) (e : Epoch) (g : Nat) (x : GridCfg) (k : Nat) : KeepsForm s (gridLift s e g x k) := by
  simp only [gridLift]
  repeat' split
  all_goals simp +contextual

@[simp] theorem gridScatter_kept (s : State) (e : Epoch) (g : Nat) (x : GridCfg) (k : Nat) : KeepsForm s (gridScatter s e g x k) := by
  simp only [gridScatter]
  split
  · simp
  · split
    · simp
    · split
      · simp
      · refine KeepsForm.of_bytes ?_ (gridStatus_kept ..)
        refine KeepsForm.trans ?_ (foldl_carries_form Prod.snd _ (fun z c => ?_) _ (Prod.mk (devWrite _ _ _ _).1 _))
        · simp +contextual
        · repeat' split
          all_goals simp +contextual

@[simp] theorem gridRestore_kept (s : State) (e : Epoch) (g : Nat) (x : GridCfg) (k : Nat) : KeepsForm s (gridRestore s e g x k) := by
  unfold gridRestore
  extract_lets y w b cells s1
  have h1 : KeepsForm s s1 := by
    simp only [s1]
    split
    · simp
    · split
      · simp
      · split
        · simp
        · refine KeepsForm.of_bytes ?_ (gridStatus_kept ..)
          refine KeepsForm.trans (t := (readState s w x _ _).2.2) (by simp) (foldl_carries_form Prod.snd _ (fun z c => ?_) _ (_, _))
          split
          · simp
          · exact devWrite_kept ..
  clear_value s1
  simp +contextual [h1]

@[simp] theorem gridEmit_kept (s : State) (e : Epoch) (g : Nat) (x : GridCfg) (o : GridOut) : KeepsForm s (gridEmit s e g x o) := by
  simp only [gridEmit]
  repeat' split
  all_goals simp +contextual

@[simp] theorem gridHold_kept (s : State) (e : Epoch) (g : Nat) (x : GridCfg) (o : GridOut) (source : Nat) : KeepsForm s (gridHold s e g x o source) := by
  simp only [gridHold]
  split <;> simp +contextual

@[simp] theorem gridDone_kept (s : State) (e : Epoch) (g : Nat) (keep : Bool) : KeepsForm s (gridDone s e g keep) := by simp +contextual [gridDone]

@[simp] theorem gridStep_kept (s : State) (g : Nat) (n : Nat) (step : Nat) (k : Nat) : KeepsBytes s (gridStep s g n step k) := ⟨rfl, rfl⟩

@[simp] theorem gridClear_kept (s : State) (e : Epoch) (g : Nat) (x : GridCfg) : KeepsForm s (gridClear s e g x) := by simp +contextual [gridClear]

@[simp] theorem gridNext_kept (s : State) (e : Epoch) (g : Nat) (x : GridCfg) (last : Nat) (k : Nat) : KeepsForm s (gridNext s e g x last k) := by
  grind [gridNext, gridStep_kept, gridMonitor_kept, gridResample_kept, gridLift_kept, setGrid_kept, gridScatter_kept, gridRestore_kept, updEpoch_kept, gridDone_kept, gridEmit_kept]

theorem execFuseStepStart_keeps (g : Nat) (s : State) : NextKeeps s (execFuseStepStart g s) := by
  simp only [execFuseStepStart]
  repeat' split
  all_goals simp +contextual

/-! ## Kept by the scalar instructions -/

@[simp] theorem ueReport_kept (s : State) (w : Who) : KeepsBytes s (ueReport s w) := by simp [ueReport]

@[simp] theorem haltFor_kept (s : State) (t : Nat) (st : Nat) : KeepsForm s (haltFor s t st) := by
  simp only [haltFor]
  split <;> simp +contextual

/-- An issued instruction keeps what its body keeps. -/
theorem issue_keepsForm (s : State) (t : Nat) (e : Enc) (u : Uses) (body : State → Except Nat State) (h : ∀ s s', body s = .ok s' → KeepsForm s s') :
    KeepsForm s (issue s t e u body) := by
  simp only [issue]
  split
  · simp
  · split
    · simp +contextual
    · split
      · next h' => simpa using h _ _ h'
      · simp +contextual

theorem issue_kept (s : State) (t : Nat) (e : Enc) (u : Uses) (body : State → Except Nat State) (h : ∀ s s', body s = .ok s' → KeepsForm s s') :
    NextKeeps s (.next (issue s t e u body)) :=
  (nextKeeps_next _ _).2 (issue_keepsForm s t e u body h)

@[simp] theorem writeX_kept (s : State) (t : Nat) (d : BitVec 5) (w : W64) : KeepsBytes s (writeX s t d w) := ⟨rfl, rfl⟩

@[simp] theorem addFlags_kept (s : State) (t : Nat) (fl : Nat) : KeepsBytes s (addFlags s t fl) := ⟨rfl, rfl⟩

@[simp] theorem scalar2_keeps (f : W64 → W64 → W64 × Nat) (t : Nat) (e : Enc) (s : State) : NextKeeps s (scalar2 f t e s) :=
  issue_kept _ _ _ _ _ fun s s' h => by cases h; simp

theorem execEngNop_keeps (t : Nat) (e : Enc) (s : State) : NextKeeps s (execEngNop t e s) :=
  issue_kept _ _ _ _ _ fun s s' h => by cases h; simp

theorem execAdd_keeps (t : Nat) (e : Enc) (s : State) : NextKeeps s (execAdd t e s) := by simp [execAdd]

theorem execSub_keeps (t : Nat) (e : Enc) (s : State) : NextKeeps s (execSub t e s) := by simp [execSub]

theorem execAnd_keeps (t : Nat) (e : Enc) (s : State) : NextKeeps s (execAnd t e s) := by simp [execAnd]

theorem execOr_keeps (t : Nat) (e : Enc) (s : State) : NextKeeps s (execOr t e s) := by simp [execOr]

theorem execXor_keeps (t : Nat) (e : Enc) (s : State) : NextKeeps s (execXor t e s) := by simp [execXor]

theorem execShl_keeps (t : Nat) (e : Enc) (s : State) : NextKeeps s (execShl t e s) := by simp [execShl]

theorem execShr_keeps (t : Nat) (e : Enc) (s : State) : NextKeeps s (execShr t e s) := by simp [execShr]

theorem execSar_keeps (t : Nat) (e : Enc) (s : State) : NextKeeps s (execSar t e s) := by simp [execSar]

theorem execMin_keeps (t : Nat) (e : Enc) (s : State) : NextKeeps s (execMin t e s) := by simp [execMin]

theorem execMax_keeps (t : Nat) (e : Enc) (s : State) : NextKeeps s (execMax t e s) := by simp [execMax]

theorem execMinu_keeps (t : Nat) (e : Enc) (s : State) : NextKeeps s (execMinu t e s) := by simp [execMinu]

theorem execMaxu_keeps (t : Nat) (e : Enc) (s : State) : NextKeeps s (execMaxu t e s) := by simp [execMaxu]

theorem execSlt_keeps (t : Nat) (e : Enc) (s : State) : NextKeeps s (execSlt t e s) := by simp [execSlt]

theorem execSltu_keeps (t : Nat) (e : Enc) (s : State) : NextKeeps s (execSltu t e s) := by simp [execSltu]

theorem execSeq_keeps (t : Nat) (e : Enc) (s : State) : NextKeeps s (execSeq t e s) := by simp [execSeq]

theorem execMul_keeps (t : Nat) (e : Enc) (s : State) : NextKeeps s (execMul t e s) := by simp [execMul]

theorem execMulh_keeps (t : Nat) (e : Enc) (s : State) : NextKeeps s (execMulh t e s) := by simp [execMulh]

theorem execMulhu_keeps (t : Nat) (e : Enc) (s : State) : NextKeeps s (execMulhu t e s) := by simp [execMulhu]

theorem execDiv_keeps (t : Nat) (e : Enc) (s : State) : NextKeeps s (execDiv t e s) := by simp [execDiv]

theorem execDivu_keeps (t : Nat) (e : Enc) (s : State) : NextKeeps s (execDivu t e s) := by simp [execDivu]

theorem execRem_keeps (t : Nat) (e : Enc) (s : State) : NextKeeps s (execRem t e s) := by simp [execRem]

theorem execRemu_keeps (t : Nat) (e : Enc) (s : State) : NextKeeps s (execRemu t e s) := by simp [execRemu]

theorem execMovi_keeps (t : Nat) (e : Enc) (s : State) : NextKeeps s (execMovi t e s) :=
  issue_kept _ _ _ _ _ fun s s' h => by cases h; simp

theorem execMovhi_keeps (t : Nat) (e : Enc) (s : State) : NextKeeps s (execMovhi t e s) :=
  issue_kept _ _ _ _ _ fun s s' h => by cases h; simp

theorem execMfs_keeps (t : Nat) (e : Enc) (s : State) : NextKeeps s (execMfs t e s) := by
  refine issue_kept _ _ _ _ _ fun s s' h => ?_
  repeat' split at h
  all_goals cases h
  all_goals simp +contextual

theorem execMts_keeps (t : Nat) (e : Enc) (s : State) : NextKeeps s (execMts t e s) := by
  refine issue_kept _ _ _ _ _ fun s s' h => ?_
  dsimp only at h
  repeat' split at h
  all_goals cases h
  all_goals simp +contextual

theorem execRdtime_keeps (t : Nat) (e : Enc) (s : State) : NextKeeps s (execRdtime t e s) :=
  issue_kept _ _ _ _ _ fun s s' h => by cases h; simp

@[simp] theorem tileWrite_kept (s : State) (t : Nat) (a : Nat) (bs : List Byte) : KeepsForm s (tileWrite s t a bs) := by simp +contextual [tileWrite]

theorem execLdt_keeps (t : Nat) (e : Enc) (s : State) : NextKeeps s (execLdt t e s) := by
  refine issue_kept _ _ _ _ _ fun s s' h => ?_
  dsimp only at h
  repeat' split at h
  all_goals cases h
  all_goals simp +contextual

theorem execStt_keeps (t : Nat) (e : Enc) (s : State) : NextKeeps s (execStt t e s) := by
  refine issue_kept _ _ _ _ _ fun s s' h => ?_
  dsimp only at h
  repeat' split at h
  all_goals cases h
  all_goals simp +contextual

@[simp] theorem atomic_keeps (f : W64 → W64 → Nat → Option Nat) (t : Nat) (e : Enc) (s : State) : NextKeeps s (atomic f t e s) := by
  refine issue_kept _ _ _ _ _ fun s s' h => ?_
  dsimp only at h
  repeat' split at h
  all_goals cases h
  all_goals simp +contextual

theorem execAtadd_keeps (t : Nat) (e : Enc) (s : State) : NextKeeps s (execAtadd t e s) := by simp [execAtadd]

theorem execAtcas_keeps (t : Nat) (e : Enc) (s : State) : NextKeeps s (execAtcas t e s) := by simp [execAtcas]

/-! ## Kept by the vector instructions -/

@[simp] theorem lanewise_keeps (f : Lane → Option LaneFn) (b : Bool) (t : Nat) (e : Enc) (s : State) : NextKeeps s (lanewise f b t e s) := by
  refine issue_kept _ _ _ _ _ fun s s' h => ?_
  split at h
  · cases h
  · cases h
    simp

theorem execVadd_keeps (t : Nat) (e : Enc) (s : State) : NextKeeps s (execVadd t e s) := by simp [execVadd]

theorem execVsub_keeps (t : Nat) (e : Enc) (s : State) : NextKeeps s (execVsub t e s) := by simp [execVsub]

theorem execVmul_keeps (t : Nat) (e : Enc) (s : State) : NextKeeps s (execVmul t e s) := by simp [execVmul]

theorem execVfma_keeps (t : Nat) (e : Enc) (s : State) : NextKeeps s (execVfma t e s) := by simp [execVfma]

theorem execVmin_keeps (t : Nat) (e : Enc) (s : State) : NextKeeps s (execVmin t e s) := by simp [execVmin]

theorem execVmax_keeps (t : Nat) (e : Enc) (s : State) : NextKeeps s (execVmax t e s) := by simp [execVmax]

theorem execVabs_keeps (t : Nat) (e : Enc) (s : State) : NextKeeps s (execVabs t e s) := by simp [execVabs]

theorem execVneg_keeps (t : Nat) (e : Enc) (s : State) : NextKeeps s (execVneg t e s) := by simp [execVneg]

theorem execVdiv_keeps (t : Nat) (e : Enc) (s : State) : NextKeeps s (execVdiv t e s) := by simp [execVdiv]

theorem execVsqrt_keeps (t : Nat) (e : Enc) (s : State) : NextKeeps s (execVsqrt t e s) := by simp [execVsqrt]

theorem execVrcp_keeps (t : Nat) (e : Enc) (s : State) : NextKeeps s (execVrcp t e s) := by simp [execVrcp]

theorem execVrsqrt_keeps (t : Nat) (e : Enc) (s : State) : NextKeeps s (execVrsqrt t e s) := by simp [execVrsqrt]

theorem execVexp2_keeps (t : Nat) (e : Enc) (s : State) : NextKeeps s (execVexp2 t e s) := by simp [execVexp2]

theorem execVlog2_keeps (t : Nat) (e : Enc) (s : State) : NextKeeps s (execVlog2 t e s) := by simp [execVlog2]

theorem execVand_keeps (t : Nat) (e : Enc) (s : State) : NextKeeps s (execVand t e s) := by simp [execVand]

theorem execVor_keeps (t : Nat) (e : Enc) (s : State) : NextKeeps s (execVor t e s) := by simp [execVor]

theorem execVxor_keeps (t : Nat) (e : Enc) (s : State) : NextKeeps s (execVxor t e s) := by simp [execVxor]

theorem execVshl_keeps (t : Nat) (e : Enc) (s : State) : NextKeeps s (execVshl t e s) := by simp [execVshl]

theorem execVshr_keeps (t : Nat) (e : Enc) (s : State) : NextKeeps s (execVshr t e s) := by simp [execVshr]

theorem execVsar_keeps (t : Nat) (e : Enc) (s : State) : NextKeeps s (execVsar t e s) := by simp [execVsar]

theorem execVcmp_keeps (t : Nat) (e : Enc) (s : State) : NextKeeps s (execVcmp t e s) := by
  refine issue_kept _ _ _ _ _ fun s s' h => ?_
  dsimp only at h
  repeat' split at h
  all_goals cases h
  all_goals simp +contextual

theorem execVsel_keeps (t : Nat) (e : Enc) (s : State) : NextKeeps s (execVsel t e s) := by
  refine issue_kept _ _ _ _ _ fun s s' h => ?_
  dsimp only at h
  repeat' split at h
  all_goals cases h
  all_goals simp +contextual

theorem execVperm_keeps (t : Nat) (e : Enc) (s : State) : NextKeeps s (execVperm t e s) := by
  refine issue_kept _ _ _ _ _ fun s s' h => ?_
  dsimp only at h
  repeat' split at h
  all_goals cases h
  all_goals simp +contextual

theorem execVbcast_keeps (t : Nat) (e : Enc) (s : State) : NextKeeps s (execVbcast t e s) := by
  refine issue_kept _ _ _ _ _ fun s s' h => ?_
  dsimp only at h
  repeat' split at h
  all_goals cases h
  all_goals simp +contextual

theorem execVext_keeps (t : Nat) (e : Enc) (s : State) : NextKeeps s (execVext t e s) := by
  refine issue_kept _ _ _ _ _ fun s s' h => ?_
  repeat' split at h
  all_goals cases h
  all_goals simp +contextual

theorem execVins_keeps (t : Nat) (e : Enc) (s : State) : NextKeeps s (execVins t e s) := by
  refine issue_kept _ _ _ _ _ fun s s' h => ?_
  dsimp only at h
  repeat' split at h
  all_goals cases h
  all_goals simp +contextual

theorem execVredadd_keeps (t : Nat) (e : Enc) (s : State) : NextKeeps s (execVredadd t e s) := by
  refine issue_kept _ _ _ _ _ fun s s' h => ?_
  dsimp only at h
  repeat' split at h
  all_goals cases h
  all_goals simp +contextual

theorem execVredmax_keeps (t : Nat) (e : Enc) (s : State) : NextKeeps s (execVredmax t e s) := by
  refine issue_kept _ _ _ _ _ fun s s' h => ?_
  dsimp only at h
  repeat' split at h
  all_goals cases h
  all_goals simp +contextual

theorem execVcvtn_keeps (t : Nat) (e : Enc) (s : State) : NextKeeps s (execVcvtn t e s) := by
  refine issue_kept _ _ _ _ _ fun s s' h => ?_
  dsimp only at h
  repeat' split at h
  all_goals cases h
  all_goals simp +contextual

theorem execVcvtw_keeps (t : Nat) (e : Enc) (s : State) : NextKeeps s (execVcvtw t e s) := by
  refine issue_kept _ _ _ _ _ fun s s' h => ?_
  dsimp only at h
  repeat' split at h
  all_goals cases h
  all_goals simp +contextual

theorem execVcvt_keeps (t : Nat) (e : Enc) (s : State) : NextKeeps s (execVcvt t e s) := by
  refine issue_kept _ _ _ _ _ fun s s' h => ?_
  dsimp only at h
  repeat' split at h
  all_goals cases h
  all_goals simp +contextual

theorem execVldt_keeps (t : Nat) (e : Enc) (s : State) : NextKeeps s (execVldt t e s) := by
  refine issue_kept _ _ _ _ _ fun s s' h => ?_
  dsimp only at h
  repeat' split at h
  all_goals cases h
  all_goals simp +contextual

@[simp] theorem writeMasked_kept (s : State) (t a mask j : Nat) (l : List Nat) : KeepsForm s (writeMasked s t a mask j l) := by
  induction l generalizing s j with
  | nil => simp [writeMasked]
  | cons x l ih =>
    simp only [writeMasked]
    refine KeepsForm.trans ?_ (ih _ _)
    split <;> simp +contextual

theorem execVstt_keeps (t : Nat) (e : Enc) (s : State) : NextKeeps s (execVstt t e s) := by
  refine issue_kept _ _ _ _ _ fun s s' h => ?_
  dsimp only at h
  repeat' split at h
  all_goals cases h
  all_goals simp +contextual

theorem execVgath_keeps (t : Nat) (e : Enc) (s : State) : NextKeeps s (execVgath t e s) := by
  refine issue_kept _ _ _ _ _ fun s s' h => ?_
  dsimp only at h
  repeat' split at h
  all_goals cases h
  all_goals simp +contextual

theorem execVscat_keeps (t : Nat) (e : Enc) (s : State) : NextKeeps s (execVscat t e s) := by
  refine issue_kept _ _ _ _ _ fun s s' h => ?_
  dsimp only at h
  repeat' split at h
  all_goals cases h
  all_goals simp +contextual

theorem execMma_keeps (t : Nat) (e : Enc) (s : State) : NextKeeps s (execMma t e s) := by
  refine issue_kept _ _ _ _ _ fun s s' h => ?_
  dsimp only at h
  repeat' split at h
  all_goals cases h
  all_goals simp +contextual

/-! ## Kept by knots and queues -/

theorem execKInit_keeps (d : Desc) (s : State) : NextKeeps s (execKInit d s) :=
  (nextKeeps_next _ _).2 (runDesc_kept _ _ _ _ fun s => by simp)

theorem execKSignal_keeps (d : Desc) (s : State) : NextKeeps s (execKSignal d s) := by
  refine (nextKeeps_next _ _).2 (runDesc_kept _ _ _ _ fun s => ?_)
  repeat' split
  all_goals simp

theorem execKRead_keeps (d : Desc) (s : State) : NextKeeps s (execKRead d s) :=
  (nextKeeps_next _ _).2 (runDesc_kept _ _ _ _ fun s => by split <;> simp)

theorem execKFree_keeps (d : Desc) (s : State) : NextKeeps s (execKFree d s) := by
  refine (nextKeeps_next _ _).2 (runDesc_kept _ _ _ _ fun s => ?_)
  repeat' split
  all_goals simp

theorem execKnotWaitRelease_keeps (knot : Nat) (s : State) : NextKeeps s (execKnotWaitRelease knot s) := by simp [execKnotWaitRelease]

theorem execKnotWaitRetry_keeps (src : Source) (turn : Nat) (s : State) : NextKeeps s (execKnotWaitRetry src turn s) := by
  simp only [execKnotWaitRetry]
  split <;> simp

theorem endWaits_kept (ds : List Desc) (ts : List Nat) (s : State) :
    KeepsForm s (ts.foldl (fun s t => haltThread s t stInternal) (ds.foldl (fun s d => finishDesc s d stInternal 0 0 0) s)) :=
  (foldl_keepsForm _ (fun s d => by simp) ds s).trans (foldl_keepsForm _ (fun s t => by simp +contextual) ts _)

theorem execKnotPoisoned_keeps (knot : Nat) (s : State) : NextKeeps s (execKnotPoisoned knot s) := by
  simp only [execKnotPoisoned]
  split
  · simp
  · simp only [nextKeeps_next, keepsForm_iff, raise_keeps]
    exact together_keepsForm _ _ fun s => endWaits_kept _ _ s

@[simp] theorem setQueue_kept (s : State) (q : Nat) (x : Queue) : KeepsBytes s (setQueue s q x) := ⟨rfl, rfl⟩

@[simp] theorem answerThread_kept (s : State) (t : Nat) (outcome : Nat) (data : List Byte) : KeepsBytes s (answerThread s t outcome data) := ⟨rfl, rfl⟩

@[simp] theorem queueReset_kept (s : State) (q : Nat) : KeepsBytes s (queueReset s q) := by simp [queueReset]

@[simp] theorem linkSignal_kept (s : State) (x : Queue) (q : Nat) (k : Option Nat) : KeepsBytes s (linkSignal s x q k) := by
  simp only [linkSignal]
  split <;> simp

@[simp] theorem pushEntry_kept (s : State) (q : Nat) (bs : List Byte) : KeepsForm s (pushEntry s q bs).2 := by
  simp only [pushEntry]
  split <;> simp +contextual

@[simp] theorem popEntry_kept (s : State) (q : Nat) : KeepsBytes s (popEntry s q).2.2 := by
  simp only [popEntry]
  split <;> simp

@[simp] theorem serveBlocked_kept (s : State) (q : Nat) : KeepsForm s (serveBlocked s q) := by
  simp only [serveBlocked]
  repeat' split
  all_goals simp +contextual

@[simp] theorem enqueue_kept (s : State) (q : Nat) (p : Producer) : KeepsForm s (enqueue s q p).2 := by
  simp only [enqueue]
  repeat' split
  all_goals simp +contextual

@[simp] theorem dequeue_kept (s : State) (q : Nat) (did : Nat) : KeepsBytes s (dequeue s q did).2 := by
  simp only [dequeue]
  repeat' split
  all_goals simp

theorem execQCreate_keeps (d : Desc) (s : State) : NextKeeps s (execQCreate d s) := by
  simp only [execQCreate, nextKeeps_next]
  refine runDesc_kept _ _ _ _ fun s => ?_
  (repeat' split) <;> simp +contextual

theorem queueOp_kept (s : State) (d : Desc) (o : OpInfo) (free : State → Answer) (act : State → Queue → Answer)
    (hf : ∀ s, KeepsForm s (free s).state) (ha : ∀ s x, KeepsForm s (act s x).state) : KeepsForm s (queueOp s d o free act) := by
  refine runDesc_kept _ _ _ _ fun s => ?_
  split
  · simp
  · split
    · simp
    · split
      · exact hf s
      · exact ha s _

theorem execQDestroy_keeps (d : Desc) (s : State) : NextKeeps s (execQDestroy d s) :=
  (nextKeeps_next _ _).2 (queueOp_kept _ _ _ _ _ (fun s => by simp) fun s x => by split <;> simp)

theorem execQFlush_keeps (d : Desc) (s : State) : NextKeeps s (execQFlush d s) :=
  (nextKeeps_next _ _).2 (queueOp_kept _ _ _ _ _ (fun s => by simp) fun s x => by simp)

theorem execQQuery_keeps (d : Desc) (s : State) : NextKeeps s (execQQuery d s) :=
  (nextKeeps_next _ _).2 (queueOp_kept _ _ _ _ _ (fun s => by simp) fun s x => by simp)

theorem execBlockedEnqueueResume_keeps (queue : Nat) (s : State) : NextKeeps s (execBlockedEnqueueResume queue s) := by simp +contextual [execBlockedEnqueueResume]

theorem execQmuBackgroundSweep_keeps (fault : Nat) (queue : Nat) (s : State) : NextKeeps s (execQmuBackgroundSweep fault queue s) := by
  simp only [execQmuBackgroundSweep]
  repeat' split
  all_goals simp

/-! ## Kept by the memory instructions -/

@[simp] theorem copyRead_kept (s : State) (c : CopyReq) (a : Nat) (n : Nat) : KeepsBytes s (copyRead s c a n).2.2 := by
  simp only [copyRead]
  repeat' split
  all_goals simp

@[simp] theorem copyWrite_kept (s : State) (c : CopyReq) (a : Nat) (bs : List Byte) : KeepsForm s (copyWrite s c a bs).2 := by
  simp only [copyWrite]
  repeat' split
  all_goals simp +contextual

@[simp] theorem openCopy_kept (s : State) (c : CopyReq) : KeepsForm s (openCopy s c) := by simp +contextual [openCopy]

@[simp] theorem copyRows_kept (c : CopyReq) (rows : List Nat) (s : State) : KeepsBytes s (copyRows c rows s).2.2 := by
  induction rows generalizing s with
  | nil => simp [copyRows]
  | cons r rows ih => grind [copyRows, copyRead_kept]

@[simp] theorem putRows_kept (c : CopyReq) (rows : List (Nat × List Byte)) (s : State) : KeepsForm s (putRows c rows s).2 := by
  induction rows generalizing s with
  | nil => simp [putRows]
  | cons r rows ih => grind [putRows, copyWrite_kept]

@[simp] theorem runCopy_kept (s : State) (c : CopyReq) : KeepsForm s (runCopy s c).2 := by
  simp only [runCopy]
  repeat' split
  all_goals simp +contextual

@[simp] theorem threadSignal_kept (s : State) (t : Nat) (w : Who) (u3 : Effect) : KeepsBytes s (threadSignal s t w u3) := by
  simp only [threadSignal]
  split <;> simp

@[simp] theorem endCall_kept (s : State) (t : Nat) (slot : Nat) (status : Nat) : KeepsBytes s (endCall s t slot status) := ⟨rfl, rfl⟩

@[simp] theorem submitCall_kept (s : State) (t : Nat) (desc : Nat) (rcd : Nat) (slot : Nat) : KeepsForm s (submitCall s t desc rcd slot) := by
  simp only [submitCall]
  split <;> simp +contextual

@[simp] theorem endThreadNow_kept (s : State) (t : Nat) : KeepsBytes s (endThreadNow s t) := ⟨rfl, rfl⟩

@[simp] theorem pushNow_kept (s : State) (t : Nat) (q : Nat) (bytes : List Byte) : KeepsForm s (pushNow s t q bytes) := by
  grind [pushNow, enqueue_kept, answerThread_kept, haltThread_kept]

@[simp] theorem perform_kept (s : State) (t : Nat) (u2 : Effect) : KeepsForm s (perform s t u2) := by
  simp only [perform]
  repeat' split
  all_goals simp +contextual

@[simp] theorem leave_kept (s : State) (t : Nat) (e : Effect) : KeepsForm s (leave s t e) := by
  simp only [leave]
  split <;> simp +contextual

@[simp] theorem releaseHeld_kept (t fuel : Nat) (s : State) : KeepsForm s (releaseHeld t fuel s) := by
  induction fuel generalizing s with
  | zero => simp [releaseHeld]
  | succ fuel ih =>
    simp only [releaseHeld]
    repeat' split
    · next h n e rest _ _ => exact KeepsForm.trans (by simp +contextual) (ih _)
    all_goals simp

@[simp] theorem acceptCopy_kept (s : State) (t : Nat) (c : CopyReq) (d : Nat) : KeepsForm s (acceptCopy s t c d) := by
  simp only [acceptCopy]
  split <;> simp +contextual

@[simp] theorem recheck_kept (s : State) (t : Nat) : KeepsForm s (recheck s t) := by
  simp only [recheck]
  repeat' split
  all_goals simp +contextual

@[simp] theorem recheckEngine_kept (s : State) (g : Nat) : KeepsForm s (recheckEngine s g) := by simp +contextual [recheckEngine]

theorem startLoad_kept {s s' : State} {t : Nat} {l : Load} (h : startLoad s t l = .ok s') : KeepsForm s s' := by
  simp only [startLoad] at h
  split at h
  · cases h
  · cases h
    simp

theorem startStore_kept {s s' : State} {t : Nat} {p : Place} {a : Nat} {bs : List Byte} (h : startStore s t p a bs = .ok s') : KeepsForm s s' := by
  simp only [startStore] at h
  repeat' split at h
  all_goals cases h
  all_goals simp +contextual

@[simp] theorem scalarLoad_kept (p : Place) (t : Nat) (e : Enc) (s : State) : KeepsForm s (scalarLoad p t e s) :=
  issue_keepsForm _ _ _ _ _ fun s s' h => by
    split at h
    · cases h
    · exact startLoad_kept h

@[simp] theorem scalarStore_kept (p : Place) (t : Nat) (e : Enc) (s : State) : KeepsForm s (scalarStore p t e s) :=
  issue_keepsForm _ _ _ _ _ fun s s' h => by
    split at h
    · cases h
    · exact startStore_kept h

@[simp] theorem vectorLoad_kept (p : Place) (t : Nat) (e : Enc) (s : State) : KeepsForm s (vectorLoad p t e s) :=
  issue_keepsForm _ _ _ _ _ fun _ _ h => startLoad_kept h

@[simp] theorem vectorStore_kept (p : Place) (t : Nat) (e : Enc) (s : State) : KeepsForm s (vectorStore p t e s) :=
  issue_keepsForm _ _ _ _ _ fun s s' h => by
    split at h
    · cases h
    · exact startStore_kept h

theorem execLdg_keeps (t : Nat) (e : Enc) (s : State) : NextKeeps s (execLdg t e s) := by simp +contextual [execLdg]

theorem execStg_keeps (t : Nat) (e : Enc) (s : State) : NextKeeps s (execStg t e s) := by simp +contextual [execStg]

theorem execLdgv_keeps (t : Nat) (e : Enc) (s : State) : NextKeeps s (execLdgv t e s) := by simp +contextual [execLdgv]

theorem execStgv_keeps (t : Nat) (e : Enc) (s : State) : NextKeeps s (execStgv t e s) := by simp +contextual [execStgv]

theorem execLdc_keeps (t : Nat) (e : Enc) (s : State) : NextKeeps s (execLdc t e s) := by simp +contextual [execLdc]

theorem execStc_keeps (t : Nat) (e : Enc) (s : State) : NextKeeps s (execStc t e s) := by simp +contextual [execStc]

theorem execLdcv_keeps (t : Nat) (e : Enc) (s : State) : NextKeeps s (execLdcv t e s) := by simp +contextual [execLdcv]

theorem execStcv_keeps (t : Nat) (e : Enc) (s : State) : NextKeeps s (execStcv t e s) := by simp +contextual [execStcv]

theorem execCopy_keeps (t : Nat) (e : Enc) (s : State) : NextKeeps s (execCopy t e s) := by
  refine issue_kept _ _ _ _ _ fun s s' h => ?_
  dsimp only at h
  repeat' split at h
  all_goals cases h
  all_goals simp +contextual

theorem execWaitc_keeps (t : Nat) (e : Enc) (s : State) : NextKeeps s (execWaitc t e s) := by
  refine issue_kept _ _ _ _ _ fun s s' h => ?_
  dsimp only at h
  repeat' split at h
  all_goals cases h
  all_goals simp +contextual

theorem execSigk_keeps (t : Nat) (e : Enc) (s : State) : NextKeeps s (execSigk t e s) := by
  refine issue_kept _ _ _ _ _ fun s s' h => ?_
  dsimp only at h
  repeat' split at h
  all_goals cases h
  all_goals simp +contextual

theorem execWaitk_keeps (t : Nat) (e : Enc) (s : State) : NextKeeps s (execWaitk t e s) := by
  refine issue_kept _ _ _ _ _ fun s s' h => ?_
  dsimp only at h
  repeat' split at h
  all_goals cases h
  all_goals simp +contextual

theorem execRdk_keeps (t : Nat) (e : Enc) (s : State) : NextKeeps s (execRdk t e s) := by
  refine issue_kept _ _ _ _ _ fun s s' h => ?_
  dsimp only at h
  repeat' split at h
  all_goals cases h
  all_goals simp +contextual

@[simp] theorem waitQueue_kept (s : State) (t : Nat) (e : Enc) (pop : Bool) : KeepsBytes s (waitQueue s t e pop) := ⟨rfl, rfl⟩

theorem execQpush_keeps (t : Nat) (e : Enc) (s : State) : NextKeeps s (execQpush t e s) := by
  refine issue_kept _ _ _ _ _ fun s s' h => ?_
  cases h
  simp +contextual

theorem execQpop_keeps (t : Nat) (e : Enc) (s : State) : NextKeeps s (execQpop t e s) := by
  refine issue_kept _ _ _ _ _ fun s s' h => ?_
  grind [dequeue_kept, waitQueue_kept, answerThread_kept, haltThread_kept]

theorem execCall_keeps (t : Nat) (e : Enc) (s : State) : NextKeeps s (execCall t e s) := by
  refine issue_kept _ _ _ _ _ fun s s' h => ?_
  dsimp only at h
  repeat' split at h
  all_goals cases h
  all_goals simp +contextual

theorem execFence_keeps (t : Nat) (e : Enc) (s : State) : NextKeeps s (execFence t e s) := by
  refine issue_kept _ _ _ _ _ fun s s' h => ?_
  dsimp only at h
  repeat' split at h
  all_goals cases h
  all_goals simp +contextual

theorem goTo_kept {s s' : State} {t : Nat} {target : Int} (h : goTo s t target = .ok s') : KeepsForm s s' := by
  simp only [goTo] at h
  repeat' split at h
  all_goals cases h
  all_goals simp

@[simp] theorem branch_kept (c : W64 → W64 → Bool) (t : Nat) (e : Enc) (s : State) : KeepsForm s (branch c t e s) :=
  issue_keepsForm _ _ _ _ _ fun s s' h => by
    split at h
    · exact goTo_kept h
    · cases h
      simp

theorem execBeq_keeps (t : Nat) (e : Enc) (s : State) : NextKeeps s (execBeq t e s) := by simp +contextual [execBeq]

theorem execBne_keeps (t : Nat) (e : Enc) (s : State) : NextKeeps s (execBne t e s) := by simp +contextual [execBne]

theorem execBlt_keeps (t : Nat) (e : Enc) (s : State) : NextKeeps s (execBlt t e s) := by simp +contextual [execBlt]

theorem execBge_keeps (t : Nat) (e : Enc) (s : State) : NextKeeps s (execBge t e s) := by simp +contextual [execBge]

theorem execBltu_keeps (t : Nat) (e : Enc) (s : State) : NextKeeps s (execBltu t e s) := by simp +contextual [execBltu]

theorem execBgeu_keeps (t : Nat) (e : Enc) (s : State) : NextKeeps s (execBgeu t e s) := by simp +contextual [execBgeu]

theorem execJmp_keeps (t : Nat) (e : Enc) (s : State) : NextKeeps s (execJmp t e s) := by
  refine issue_kept _ _ _ _ _ fun s s' h => ?_
  grind [goTo_kept]

theorem execJal_keeps (t : Nat) (e : Enc) (s : State) : NextKeeps s (execJal t e s) := by
  refine issue_kept _ _ _ _ _ fun s s' h => ?_
  grind [goTo_kept, writeX_kept]

theorem execJr_keeps (t : Nat) (e : Enc) (s : State) : NextKeeps s (execJr t e s) := by
  refine issue_kept _ _ _ _ _ fun s s' h => ?_
  grind [goTo_kept]

theorem execTrapf_keeps (t : Nat) (e : Enc) (s : State) : NextKeeps s (execTrapf t e s) := by
  refine issue_kept _ _ _ _ _ fun s s' h => ?_
  repeat' split at h
  all_goals cases h
  all_goals simp +contextual

theorem execEndThread_keeps (t : Nat) (e : Enc) (s : State) : NextKeeps s (execEndThread t e s) := by
  refine issue_kept _ _ _ _ _ fun s s' h => ?_
  cases h
  simp +contextual

@[simp] theorem sramFault_kept (s : State) (t : Nat) : KeepsForm s (sramFault s t) := by simp +contextual [sramFault]

@[simp] theorem countCorrected_kept (s : State) (g : Nat) : KeepsBytes s (countCorrected s g) := ⟨rfl, rfl⟩

theorem execFetchArrival_keeps (t : Nat) (ecc : Nat) (s : State) : NextKeeps s (execFetchArrival t ecc s) := by
  simp only [execFetchArrival]
  repeat' split
  all_goals simp +contextual

@[simp] theorem loadBytes_kept (s : State) (t : Nat) (l : Load) (ecc : Nat) : KeepsBytes s (loadBytes s t l ecc).2.2 := by
  simp only [loadBytes]
  repeat' split
  all_goals simp

theorem execLoadReturn_keeps (t : Nat) (ecc : Nat) (s : State) : NextKeeps s (execLoadReturn t ecc s) := by
  simp only [execLoadReturn]
  repeat' split
  all_goals simp +contextual

@[simp] theorem dueSignals_kept (s : State) (t : Nat) (w : Who) : KeepsBytes s (dueSignals s t w) := by simp [dueSignals]

@[simp] theorem storeNow_kept (s : State) (t : Nat) (st : Store) : KeepsForm s (storeNow s t st).2 := by
  simp only [storeNow]
  split <;> simp +contextual

theorem execPostedStoreDone_keeps (t : Nat) (s : State) : NextKeeps s (execPostedStoreDone t s) := by
  have hd u w : KeepsBytes u (together u fun s => dueSignals s t w) := together_kept u _ fun s => dueSignals_kept s t w
  simp only [execPostedStoreDone]
  split
  · simp
  · next st _ _ =>
    split
    · simp
    · have hs := storeNow_kept s t st
      rcases h : storeNow s t st with ⟨status, u⟩
      rw [h] at hs
      obtain ⟨hp, hw⟩ : KeepsForm s u := hs
      simp only
      repeat' split
      all_goals exact (nextKeeps_next _ _).2 ⟨by simp [hp], fun hs => by simp [hd, hw hs]⟩

theorem execCopyDone_keeps (t : Nat) (s : State) : NextKeeps s (execCopyDone t s) := by
  grind [execCopyDone, NextKeeps, runCopy_kept, setEngine_kept, updThread_kept, recheckEngine_kept, haltFor_kept, ueReport_kept, gateSignal_keeps]

theorem execResidueVerdict_keeps (t : Nat) (pass : Bool) (s : State) : NextKeeps s (execResidueVerdict t pass s) := by
  simp only [execResidueVerdict]
  repeat' split
  all_goals simp +contextual

theorem execQueueAnswer_keeps (t : Nat) (s : State) : NextKeeps s (execQueueAnswer t s) := by
  simp only [execQueueAnswer]
  repeat' split
  all_goals simp

theorem execCallCompletion_keeps (t : Nat) (slot : Nat) (s : State) : NextKeeps s (execCallCompletion t slot s) := by
  simp only [execCallCompletion]
  repeat' split
  all_goals simp +contextual

/-! ## Kept by the chip units -/

@[simp] theorem setUnit_kept (s : State) (u : Nat) (x : UnitSafe) : KeepsBytes s (setUnit s u x) := ⟨rfl, rfl⟩

@[simp] theorem updUnit_kept (s : State) (u : Nat) (f : UnitSafe → UnitSafe) : KeepsBytes s (updUnit s u f) := ⟨rfl, rfl⟩

@[simp] theorem abortTest_kept (s : State) (u : Nat) : KeepsBytes s (abortTest s u) := by
  simp only [abortTest]
  split <;> simp

@[simp] theorem startOn_kept (s : State) (u : Nat) (guarded : Bool) (w : Nat × Nat) (flows : List Nat) : KeepsBytes s (startOn s u guarded w flows) := by
  simp only [startOn]
  split <;> simp

/-! ## Kept by tasks and instances -/

theorem execEngProgLoad_keeps (d : Desc) (s : State) : NextKeeps s (execEngProgLoad d s) := by
  simp only [execEngProgLoad, nextKeeps_next]
  refine runDesc_kept _ _ _ _ fun s => ?_
  (repeat' split) <;> simp +contextual

theorem execEngProgFree_keeps (d : Desc) (s : State) : NextKeeps s (execEngProgFree d s) := by
  refine (nextKeeps_next _ _).2 (runDesc_kept _ _ _ _ fun s => ?_)
  repeat' split
  all_goals simp

@[simp] theorem addRun_kept (s : State) (r : TaskRun) : KeepsBytes s (addRun s r) := ⟨rfl, rfl⟩

theorem execEngTask_keeps (d : Desc) (s : State) : NextKeeps s (execEngTask d s) :=
  (nextKeeps_next _ _).2 (runDesc_kept _ _ _ _ fun s => by split <;> simp)

theorem execEngTaskBind_keeps (d : Desc) (s : State) : NextKeeps s (execEngTaskBind d s) :=
  (nextKeeps_next _ _).2 (runDesc_kept _ _ _ _ fun s => by split <;> simp)

theorem execEngTaskUnbind_keeps (d : Desc) (s : State) : NextKeeps s (execEngTaskUnbind d s) :=
  (nextKeeps_next _ _).2 (runDesc_kept _ _ _ _ fun s => by split <;> simp)

theorem execBoundTaskReady_keeps (h : Nat) (s : State) : NextKeeps s (execBoundTaskReady h s) := by
  simp only [execBoundTaskReady]
  repeat' split
  all_goals simp

@[simp] theorem loadResident_kept (s : State) (g : Nat) (k : Nat) (p : Program) (code : List Resident) : KeepsForm s (loadResident s g k p code) := by
  simp only [loadResident]
  repeat' split
  all_goals simp +contextual

@[simp] theorem startInstance_kept (s : State) (id : Nat) (r : TaskRun) (p : Program) (i : Instance) (fresh : Bool) : KeepsBytes s (startInstance s id r p i fresh) := by simp [startInstance]

theorem placeAt_kept {s s' : State} {rid : Nat} {r : TaskRun} {p : Program} {idx : Nat} (h : placeAt s rid r p idx = some s') : KeepsForm s s' := by
  simp only [placeAt] at h
  repeat' split at h
  all_goals cases h
  all_goals simp +contextual

@[simp] theorem endTask_kept (s : State) (rid : Nat) : KeepsForm s (endTask s rid) := by
  simp only [endTask]
  repeat' split
  all_goals simp +contextual

@[simp] theorem endIndex_kept (s : State) (rid : Nat) (idx : Nat) (st : Nat) : KeepsForm s (endIndex s rid idx st) := by
  simp only [endIndex]
  split <;> simp +contextual

theorem endThreads_kept (id : Nat) (ts : List Nat) (s : State) :
    KeepsForm s (ts.foldl (fun s t => if (thread s t).inst = some id then endThreadNow s t else s) s) :=
  foldl_keepsForm _ (fun s t => by split <;> simp +contextual) ts s

theorem execInstanceEnd_keeps (id : Nat) (s : State) : NextKeeps s (execInstanceEnd id s) := by
  have hp id ts s := (endThreads_kept id ts s).1
  have hw id ts s := (endThreads_kept id ts s).2
  simp only [execInstanceEnd]
  repeat' split
  all_goals simp +contextual [hp, hw]

theorem placeFirst_kept {s s' : State} {l : List (Nat × TaskRun)} (h : placeFirst s l = some s') : KeepsForm s s' := by
  induction l with
  | nil => simp [placeFirst] at h
  | cons x l ih =>
    simp only [placeFirst] at h
    split at h
    · exact ih h
    · split at h
      · next hf =>
        cases h
        obtain ⟨idx, _, hi⟩ := List.exists_of_findSome?_eq_some hf
        split at hi
        · next hp =>
          cases hi
          exact placeAt_kept hp
        · split at hi
          · cases hi
            simp +contextual
          · cases hi
      · exact ih h

theorem execInstancePlacement_keeps (s : State) : NextKeeps s (execInstancePlacement s) := by
  simp only [execInstancePlacement, nextKeeps_next]
  cases h : placeFirst s _ with
  | none => simp
  | some s' => exact placeFirst_kept h

/-! ## Kept by the layout engines -/

@[simp] theorem lytRead_kept (s : State) (d : Desc) (w : Who) (space : Nat) (a : Nat) (n : Nat) : KeepsBytes s (lytRead s d w space a n).2.2 := by
  simp only [lytRead]
  repeat' split
  all_goals simp

@[simp] theorem lytWrite_kept (s : State) (d : Desc) (w : Who) (space : Nat) (a : Nat) (bs : List Byte) : KeepsForm s (lytWrite s d w space a bs).2 := by
  simp only [lytWrite]
  repeat' split
  all_goals simp +contextual

@[simp] theorem readTDesc_kept (s : State) (d : Desc) (w : Who) (a : Nat) : KeepsBytes s (readTDesc s d w a).2 := by
  simp only [readTDesc]
  repeat' split
  all_goals simp

@[simp] theorem readTDescs_kept (s : State) (d : Desc) (w : Who) (l : List Nat) : KeepsBytes s (readTDescs s d w l).2 := by
  induction l generalizing s with
  | nil => simp [readTDescs]
  | cons a l ih => grind [readTDescs, readTDesc_kept]

@[simp] theorem readRanges_kept (s : State) (d : Desc) (w : Who) (space : Nat) (l : List (Nat × Nat × Nat)) :
    KeepsBytes s (readRanges s d w space l).2.2 := by
  induction l generalizing s with
  | nil => simp [readRanges]
  | cons r l ih => grind [readRanges, lytRead_kept]

@[simp] theorem writeRanges_kept (s : State) (d : Desc) (w : Who) (space : Nat) (l : List (Nat × Nat × Nat)) (bs : List Byte) :
    KeepsForm s (writeRanges s d w space l bs).2 := by
  induction l generalizing s bs with
  | nil => simp [writeRanges]
  | cons r l ih => grind [writeRanges, lytWrite_kept]

@[simp] theorem readItem_kept (s : State) (d : Desc) (w : Who) (o : LytOp) (ix : List Int) : KeepsBytes s (readItem s d w o ix).2.2.2 := by
  simp only [readItem]
  repeat' split
  · simp
  · refine foldl_carries_bytes (fun a : Nat × Item × Nat × State => a.2.2.2) _ (fun a q => ?_) _ (stOk, Item.elems [], 0, s)
    repeat' split
    all_goals simp
  all_goals simp

@[simp] theorem putElem_kept (d : Desc) (w : Who) (o : LytOp) (x : LytRun) (ix : List Int) (v : Nat × Nat) : KeepsForm x.s (putElem d w o x ix v).s := by
  simp only [putElem]
  repeat' split
  all_goals simp +contextual

@[simp] theorem putItem_kept (d : Desc) (w : Who) (o : LytOp) (x : LytRun) (ix : List Int) (v : Item) : KeepsForm x.s (putItem d w o x ix v).s := by
  simp only [putItem]
  split
  · simp
  · split
    · exact foldl_carries_form LytRun.s _ (fun x e => putElem_kept d w o x _ _) _ x
    · repeat' split
      all_goals simp +contextual

@[simp] theorem runItem_kept (mem : List Host.Cell) (d : Desc) (w : Who) (o : LytOp) (x : LytRun) (p : List Int × List Int) :
    KeepsForm x.s (runItem mem d w o x p).s := by
  simp only [runItem]
  repeat' split
  all_goals simp +contextual

@[simp] theorem runStaged_kept (d : Desc) (w : Who) (o : LytOp) (x : LytRun) (items : List (List Int × List Int)) :
    KeepsForm x.s (runStaged d w o x items).s := by
  simp only [runStaged]
  refine KeepsForm.trans ?_ (foldl_carries_form LytRun.s _ (fun x p => putItem_kept d w o x _ _) _ _)
  refine foldl_carries_form (fun a : LytRun × List (List Int × Item) => a.1.s) _ (fun a p => ?_) items (x, [])
  split <;> simp

@[simp] theorem runLyt_kept (s : State) (d : Desc) (w : Who) (o : LytOp) (n : Nat) : KeepsForm s (runLyt s d w o n).s := by
  simp only [runLyt]
  split
  · exact runStaged_kept d w o { st := stOk, written := 0, sats := 0, dropped := 0, fills := 0, s := s } _
  · exact foldl_carries_form LytRun.s _ (fun x p => runItem_kept _ d w o x p) _ { st := stOk, written := 0, sats := 0, dropped := 0, fills := 0, s := s }

@[simp] theorem parseLyt_kept (s : State) (d : Desc) (w : Who) (descs : List (Nat × List Byte)) : KeepsBytes s (parseLyt s d w descs).2.2 := by
  simp only [parseLyt]
  repeat' split
  all_goals simp

@[simp] theorem setLyt_kept (s : State) (i : Nat) (x : LytEngine) : KeepsBytes s (setLyt s i x) := ⟨rfl, rfl⟩

@[simp] theorem startLyt_kept (fuel : Nat) (s : State) : KeepsBytes s (startLyt fuel s) := by
  induction fuel generalizing s with
  | zero => simp [startLyt]
  | succ fuel ih =>
    simp only [startLyt]
    split <;> simp [ih]

@[simp] theorem queueLyt_kept (s : State) (d : Desc) (control : Nat) : KeepsForm s (queueLyt s d control).state := by
  simp only [queueLyt]
  split <;> simp

theorem execLytCopy_keeps (d : Desc) (s : State) : NextKeeps s (execLytCopy d s) :=
  (nextKeeps_next _ _).2 (runDesc_kept _ _ _ _ fun s => by split <;> simp +contextual)

theorem execLytGather_keeps (d : Desc) (s : State) : NextKeeps s (execLytGather d s) :=
  (nextKeeps_next _ _).2 (runDesc_kept _ _ _ _ fun s => by split <;> simp +contextual)

theorem execLytScatter_keeps (d : Desc) (s : State) : NextKeeps s (execLytScatter d s) :=
  (nextKeeps_next _ _).2 (runDesc_kept _ _ _ _ fun s => by split <;> simp +contextual)

theorem execLytFill_keeps (d : Desc) (s : State) : NextKeeps s (execLytFill d s) :=
  (nextKeeps_next _ _).2 (runDesc_kept _ _ _ _ fun s => by split <;> simp +contextual)

@[simp] theorem lytOutcome_kept (s : State) (d : Desc) (w : Who) (descs : List (Nat × List Byte)) (stop : Option Nat) :
    KeepsForm s (lytOutcome s d w descs stop).s := by
  simp only [lytOutcome]
  repeat' split
  all_goals simp +contextual

theorem execLayoutOperationEnd_keeps (engine fault after : Nat) (s : State) : NextKeeps s (execLayoutOperationEnd engine fault after s) := by
  unfold execLayoutOperationEnd
  extract_lets x
  split
  · simp
  · extract_lets d w ue bad r st _ y s1 s2 fl s3 s4
    have hr : KeepsForm s r.s := by
      simp only [r]
      exact lytOutcome_kept ..
    clear_value r
    have h2 : KeepsBytes r.s s2 := by
      simp only [s2]
      split <;> simp [s1]
    clear_value s2
    simpa [s4, s3, h2] using hr

/-! ## Kept by the memory descriptors -/

theorem execMmuMap_keeps (d : Desc) (s : State) : NextKeeps s (execMmuMap d s) := by
  simp only [execMmuMap, nextKeeps_next]
  refine runDesc_kept _ _ _ _ fun s => ?_
  (repeat' split) <;> simp +contextual

theorem execMmuUnmap_keeps (d : Desc) (s : State) : NextKeeps s (execMmuUnmap d s) := by
  simp only [execMmuUnmap, nextKeeps_next]
  refine runDesc_kept _ _ _ _ fun s => ?_
  (repeat' split) <;> simp +contextual

theorem execMmuQuery_keeps (d : Desc) (s : State) : NextKeeps s (execMmuQuery d s) := by
  refine (nextKeeps_next _ _).2 (runDesc_kept _ _ _ _ fun s => ?_)
  repeat' split
  all_goals simp

theorem execMmuFwSet_keeps (d : Desc) (s : State) : NextKeeps s (execMmuFwSet d s) := by
  simp only [execMmuFwSet, nextKeeps_next]
  refine runDesc_kept _ _ _ _ fun s => ?_
  (repeat' split) <;> simp +contextual

theorem execBar2WindowAccess_keeps (write : Bool) (offset : Nat) (bytes : List Byte) (s : State) : NextKeeps s (execBar2WindowAccess write offset bytes s) := by
  simp only [execBar2WindowAccess]
  repeat' split
  all_goals simp +contextual

theorem execMemPatrolScrub_keeps (mc ecc : Nat) (s : State) : NextKeeps s (execMemPatrolScrub mc ecc s) := by
  unfold execMemPatrolScrub
  extract_lets c pa wrap next start late c' mmu s'
  repeat' split
  all_goals simp [s']

theorem execDramMr4Read_keeps (mc : Nat) (rate : Nat) (above : Bool) (s : State) : NextKeeps s (execDramMr4Read mc rate above s) := by
  simp only [execDramMr4Read]
  repeat' split
  all_goals simp

/-! ## Kept by sequences and attention -/

@[simp] theorem setPool_kept (s : State) (p : Nat) (x : Pool) : KeepsBytes s (setPool s p x) := ⟨rfl, rfl⟩

@[simp] theorem setSeq_kept (s : State) (k : Nat) (q : Seq) : KeepsBytes s (setSeq s k q) := ⟨rfl, rfl⟩

@[simp] theorem setPipe_kept (s : State) (c : Nat) (x : Pipe) : KeepsBytes s (setPipe s c x) := ⟨rfl, rfl⟩

@[simp] theorem mapSeqPage_kept (s : State) (did : Nat) (va : Nat) (r : LeafRun) : KeepsBytes s (mapSeqPage s did va r) := ⟨rfl, rfl⟩

@[simp] theorem unmapSeqPage_kept (s : State) (did : Nat) (va : Nat) : KeepsBytes s (unmapSeqPage s did va) := ⟨rfl, rfl⟩

@[simp] theorem returnPages_kept (s : State) (k : Nat) (n : Nat) (q : Seq) : KeepsBytes s (returnPages s k n q) := by simp [returnPages]

@[simp] theorem exhaust_kept (s : State) (k : Nat) (q : Seq) (d : Desc) : KeepsBytes s (exhaust s k q d) := by simp [exhaust]

@[simp] theorem openPosition_kept (s : State) (k : Nat) (q : Seq) (a : AppendWait) : KeepsForm s (openPosition s k q a) := by
  simp only [openPosition]
  repeat' split
  all_goals simp +contextual

@[simp] theorem givePage_kept (s : State) (q : Seq) (n : Nat) : KeepsBytes s (givePage s q n).2.2 := by
  simp only [givePage]
  split <;> simp

@[simp] theorem slide_kept (s : State) (q : Seq) : KeepsBytes s (slide s q).2 := by
  simp only [slide]
  repeat' split
  all_goals simp

@[simp] theorem tryAppend_kept {s s' : State} {k : Nat} {q : Seq} {a : AppendWait} (h : tryAppend s k q a = .done s') : KeepsForm s s' := by
  simp only [tryAppend] at h
  repeat' split at h
  all_goals cases h
  all_goals simp +contextual

theorem execSeqAppend_keeps (d : Desc) (s : State) : NextKeeps s (execSeqAppend d s) := by
  simp only [execSeqAppend, nextKeeps_next]
  refine runDesc_kept _ _ _ _ fun s => ?_
  split
  · simp
  · split
    · simp
    · split
      · simp
      · split
        · simp
        · split
          · simp
          · split
            · next h =>
              split at h
              · exact tryAppend_kept h
              · cases h
            · simp

@[simp] theorem resumeAppend_kept (s : State) (k : Nat) (q : Seq) : KeepsForm s (resumeAppend s k q) := by
  simp only [resumeAppend]
  split
  · simp
  · split
    · next h => exact tryAppend_kept h
    · simp

theorem execSeqStallAppendResume_keeps (pool : Nat) (s : State) : NextKeeps s (execSeqStallAppendResume pool s) := by
  simp only [execSeqStallAppendResume]
  split <;> simp +contextual

theorem execSeqStallTimeout_keeps (k : Nat) (s : State) : NextKeeps s (execSeqStallTimeout k s) := by
  simp only [execSeqStallTimeout]
  repeat' split
  all_goals simp +contextual

theorem execSeqPool_keeps (d : Desc) (s : State) : NextKeeps s (execSeqPool d s) := by
  simp only [execSeqPool, nextKeeps_next]
  refine runDesc_kept _ _ _ _ fun s => ?_
  (repeat' split) <;> simp +contextual

theorem execSeqCreate_keeps (d : Desc) (s : State) : NextKeeps s (execSeqCreate d s) := by
  simp only [execSeqCreate, nextKeeps_next]
  refine runDesc_kept _ _ _ _ fun s => ?_
  (repeat' split) <;> simp +contextual

@[simp] theorem destroySeq_kept (s : State) (k : Nat) (q : Seq) : KeepsBytes s (destroySeq s k q) := by simp [destroySeq]

@[simp] theorem trimSeq_kept (s : State) (k : Nat) (q : Seq) (n : Nat) : KeepsBytes s (trimSeq s k q n) := by simp [trimSeq]

theorem freeOp_kept {s s' : State} {d : Desc} (h : freeOp s d = some s') : KeepsBytes s s' := by
  simp only [freeOp] at h
  repeat' split at h
  all_goals cases h
  · simp
  · exact together_kept s _ fun s => by simp
  · simp

@[simp] theorem startFreeOp_kept (s : State) (d : Desc) (q : Option Seq) (failedOk : Bool) : KeepsBytes s (startFreeOp s d q failedOk).state := by
  simp only [startFreeOp]
  split
  · split <;> simp
  · split
    · simp
    · split
      · next h => exact freeOp_kept h
      · simp

theorem execSeqDestroy_keeps (d : Desc) (s : State) : NextKeeps s (execSeqDestroy d s) :=
  (nextKeeps_next _ _).2 (runDesc_kept _ _ _ _ fun s => by simp)

theorem execSeqTrim_keeps (d : Desc) (s : State) : NextKeeps s (execSeqTrim d s) :=
  (nextKeeps_next _ _).2 (runDesc_kept _ _ _ _ fun s => by simp)

theorem execSeqInfo_keeps (d : Desc) (s : State) : NextKeeps s (execSeqInfo d s) := by
  refine (nextKeeps_next _ _).2 (runDesc_kept _ _ _ _ fun s => ?_)
  repeat' split
  all_goals simp

theorem execSeqBias_keeps (d : Desc) (s : State) : NextKeeps s (execSeqBias d s) := by
  simp only [execSeqBias, nextKeeps_next]
  refine runDesc_kept _ _ _ _ fun s => ?_
  (repeat' split) <;> simp +contextual

@[simp] theorem attendTimes_kept (s : State) (k : Nat) (q : Seq) (j : Job) : KeepsBytes s (attendTimes s k q j).2.2 := by
  refine foldl_carries_bytes (fun a : Nat × List (Nat × Nat) × State => a.2.2) _ (fun a p => ?_) _ (stOk, [], s)
  dsimp only
  split <;> simp

@[simp] theorem readHead_kept (s : State) (k : Nat) (q : Seq) (layer h : Nat) (ps : List (Nat × Nat)) : KeepsBytes s (readHead s k q layer h ps).2.2 := by
  refine foldl_carries_bytes (fun a : Nat × List (List Nat × List Nat) × State => a.2.2) _ (fun a p => ?_) ps (stOk, [], s)
  dsimp only
  split <;> simp

@[simp] theorem startPipes_kept (fuel : Nat) (s : State) : KeepsBytes s (startPipes fuel s) := by
  induction fuel generalizing s with
  | zero => simp [startPipes]
  | succ fuel ih =>
    simp only [startPipes]
    split <;> simp [ih]

theorem execSeqAttend_keeps (d : Desc) (s : State) : NextKeeps s (execSeqAttend d s) := by
  simp only [execSeqAttend, nextKeeps_next]
  refine runDesc_kept _ _ _ _ fun s => ?_
  (repeat' split) <;> simp +contextual

@[simp] theorem retryBlocked_kept (s : State) : KeepsBytes s (retryBlocked s) := by
  refine foldl_carries_bytes id _ (fun s d => ?_) _ s
  simp only [id]
  split
  · next h => simpa using freeOp_kept h
  · simp

theorem attendKeys_kept (k : Nat) (q : Seq) (layer : Nat) (keys : List (Nat × Nat)) (hs : List Nat)
    (y : Nat × List (List (List Nat × List Nat)) × State) :
    KeepsBytes y.2.2 (hs.foldl (fun (y : Nat × List (List (List Nat × List Nat)) × State) h =>
      if y.1 ≠ stOk then y else let z := readHead y.2.2 k q layer h keys; (z.1, y.2.1 ++ [z.2.1], z.2.2)) y).2.2 :=
  foldl_carries_bytes (fun a : Nat × List (List (List Nat × List Nat)) × State => a.2.2) _ (fun y h => by split <;> simp) hs y

@[simp] theorem attendRow_kept (d : Desc) (w : Who) (k : Nat) (q : Seq) (a : Att) (times : List (Nat × Nat)) (x : AttRun) (i : Nat) :
    KeepsForm x.s (attendRow d w k q a times x i).s := by
  unfold attendRow
  split
  · simp
  · extract_lets qe size place qp mp m r qpos qtime keys kvs qf kf qs heads oe op z
    have hm : KeepsBytes x.s m.2.2 := by simp [m]
    clear_value m
    have hr : KeepsBytes m.2.2 r.2.2 := by simp [r]
    clear_value r
    have hk : KeepsBytes r.2.2 kvs.2.2 := by
      simp only [kvs]
      exact attendKeys_kept ..
    clear_value kvs
    have hz : KeepsForm kvs.2.2 z.2 := by
      simp only [z]
      exact lytWrite_kept ..
    clear_value z
    split
    · simp [hm]
    · split
      · simp [hr, hm]
      · split
        · simp [hk, hr, hm]
        · simpa [hk, hr, hm] using hz

@[simp] theorem runAttend_kept (s : State) (j : Job) (core n : Nat) : KeepsForm s (runAttend s j core n).s := by
  simp only [runAttend]
  repeat' split
  · simp
  · simp
  · simp
  · refine KeepsForm.trans ?_ (foldl_carries_form AttRun.s _ (fun x i => attendRow_kept _ _ _ _ _ _ x i) _ _)
    simp

theorem execSeqAttendEnd_keeps (core fault after : Nat) (s : State) : NextKeeps s (execSeqAttendEnd core fault after s) := by
  unfold execSeqAttendEnd
  split
  · simp
  · extract_lets d ue bad nq r st x s1 _ s2 fl s3 s4
    have hr : KeepsForm s r.s := by
      simp only [r]
      exact runAttend_kept ..
    clear_value r
    have h2 : KeepsBytes r.s s2 := by
      simp only [s2]
      split <;> simp [s1]
    clear_value s2
    simpa [s4, s3, h2] using hr

/-! ## Kept by the solvers -/

@[simp] theorem setSolver_kept (s : State) (c : Nat) (x : SolveUnit) : KeepsBytes s (setSolver s c x) := ⟨rfl, rfl⟩

theorem execSlvSolve_keeps (d : Desc) (s : State) : NextKeeps s (execSlvSolve d s) := by
  simp only [execSlvSolve, nextKeeps_next]
  refine runDesc_kept _ _ _ _ fun s => ?_
  (repeat' split) <;> simp +contextual

@[simp] theorem endSolve_kept (s : State) (c : Nat) (j : Job) (start : Nat) (st : Nat) (iters : Nat) (piv : Nat) : KeepsBytes s (endSolve s c j start st iters piv) := by
  simp only [endSolve]
  split <;> simp

@[simp] theorem writeHeaderOnly_kept (s : State) (d : Desc) (c : Nat) (st : Nat) (bits : Nat) (j : Nat) (piv : Nat) (start : Nat) (q : Nat × Nat × Nat × Nat) : KeepsForm s (writeHeaderOnly s d c st bits j piv start q) := by simp +contextual [writeHeaderOnly]

@[simp] theorem freeQuad_kept (s : State) : KeepsBytes s (freeQuad s).2 := ⟨rfl, rfl⟩

@[simp] theorem failSolve_kept (s : State) (c : Nat) (j : Job) (start : Nat) (st : Nat) : KeepsForm s (failSolve s c j start st) := by simp +contextual [failSolve]

@[simp] theorem noteMixed_kept (s : State) (c : Nat) : KeepsBytes s (noteMixed s c) := by
  simp only [noteMixed]
  split
  · simp
  · refine foldl_carries_bytes id _ (fun s u => ?_) _ s
    simp only [id]
    repeat' split
    all_goals simp

theorem execSolveStart_keeps (s : State) : NextKeeps s (execSolveStart s) := by
  simp only [execSolveStart]
  repeat' split
  all_goals simp +contextual

@[simp] theorem solveImage_kept (s : State) (d : Desc) (c : Nat) (r : SolveRun) : KeepsBytes s (solveImage s d c r).2.2 := by
  simp only [solveImage]
  repeat' split
  all_goals simp

@[simp] theorem settleSolve_kept (s : State) (c : Nat) (fault : Nat) (after : Nat) (miss : Bool) : KeepsForm s (settleSolve s c fault after miss) := by
  grind [settleSolve, solveImage_kept, scribble_kept, endSolve_kept, devWrite_kept, writeHeaderOnly_kept]

theorem execSolveOutcome_keeps (core : Nat) (fault : Nat) (after : Nat) (s : State) : NextKeeps s (execSolveOutcome core fault after s) := by simp +contextual [execSolveOutcome]

theorem execSolveDeadline_keeps (core : Nat) (after : Nat) (s : State) : NextKeeps s (execSolveDeadline core after s) := by
  simp only [execSolveDeadline]
  split <;> simp +contextual

/-! ## Kept by isolation -/

@[simp] theorem record_kept (s : State) (r : Report) (cause : Option Nat) : KeepsBytes s (record s r cause) := by
  simp only [record]
  split <;> simp

@[simp] theorem wrapThread_kept (s : State) (t : Nat) : KeepsForm s (wrapThread s t) := by simp +contextual [wrapThread]

theorem wrapThreads_kept (ts : List Nat) (s : State) : KeepsForm s (ts.foldl wrapThread s) :=
  foldl_keepsForm _ (fun s t => by simp +contextual) ts s

@[simp] theorem isolateEngine_kept (s : State) (g : Nat) : KeepsForm s (isolateEngine s g) := by
  simp only [isolateEngine, setEngine_kept, keepsForm_iff]
  refine foldl_keepsForm _ (fun s p => ?_) _ s
  exact ⟨(wrapThreads_kept _ _).1, fun hs => (wrapThreads_kept _ _).2 hs⟩

@[simp] theorem endNamed_kept (s : State) (js : List Job) : KeepsBytes s (endNamed s js) := by simp [endNamed]

@[simp] theorem isolatePipe_kept (s : State) (c : Nat) : KeepsBytes s (isolatePipe s c) := by simp [isolatePipe]

@[simp] theorem isolateSolver_kept (s : State) (c : Nat) : KeepsBytes s (isolateSolver s c) := by simp [isolateSolver]

@[simp] theorem isolateLayout_kept (s : State) (i : Nat) : KeepsBytes s (isolateLayout s i) := by simp [isolateLayout]

@[simp] theorem isolateUnit_kept (s : State) (u : Nat) : KeepsForm s (isolateUnit s u) := by
  simp only [isolateUnit]
  repeat' split
  all_goals simp +contextual

@[simp] theorem earlierCause_kept (s : State) (u : Nat) (x : UnitSafe) (cause : Nat) : KeepsBytes s (earlierCause s u x cause) := by
  simp only [earlierCause]
  split <;> simp

@[simp] theorem takeOut_kept (s : State) (u : Nat) (cause : Nat) : KeepsForm s (takeOut s u cause) := by
  simp only [takeOut]
  split <;> simp +contextual

@[simp] theorem recordOut_kept (s : State) (u : Nat) (cause : Option Nat) : KeepsBytes s (recordOut s u cause) := by simp [recordOut]

/-! ## Kept by the safety island -/

theorem execErrorReportRaise_keeps (severity : Nat) (kind : Nat) (index : Nat) (event : Nat) (status : Nat) (guarded : Bool) (flows : List Nat) (did : Nat) (detail : Nat) (detail2 : Nat) (epoch : Option Nat) (s : State) : NextKeeps s (execErrorReportRaise severity kind index event status guarded flows did detail detail2 epoch s) := by simp [execErrorReportRaise]

@[simp] theorem fixFail_kept (s : State) (f : Nat) (n : Nat) (doubt : Option Nat) : KeepsBytes s (fixFail s f n doubt) := by
  simp only [fixFail]
  split <;> simp

@[simp] theorem applyDoubt_kept (seq : Nat) (t : Nat) (s : State) (f : Nat) (n : Nat) : KeepsBytes s (applyDoubt seq t s f n) := by
  simp only [applyDoubt]
  repeat' split
  all_goals simp

theorem failOpenFlows_kept (es : List Epoch) (s : State) :
    KeepsBytes s (es.foldl (fun s e => e.flows.foldl (fun s r => if r.guarded ∧ !r.written then fixFail s r.flow e.epoch none else s) s) s) := by
  refine foldl_carries_bytes id _ (fun s e => ?_) es s
  refine foldl_carries_bytes id _ (fun s r => ?_) e.flows s
  simp only [id]
  split <;> simp

@[simp] theorem holdFatal_kept (s : State) (cause seq : Nat) : KeepsBytes s (holdFatal s cause seq) := by
  simp only [holdFatal]
  split
  · simp
  · simp only [keepsBytes_iff, driveSafe_kept]
    exact failOpenFlows_kept s.epochs { s with safe.fatal := some (cause, seq), safe.fatalAt := s.up }

@[simp] theorem mismatchOn_kept (s : State) (u : Nat) (seq : Nat) (r : Report) : KeepsForm s (mismatchOn s u seq r) := by
  simp only [mismatchOn]
  repeat' split
  all_goals simp +contextual

@[simp] theorem doubtUnit_kept (s : State) (seq : Nat) (r : Report) : KeepsForm s (doubtUnit s seq r) := by
  simp only [doubtUnit]
  repeat' split
  all_goals simp +contextual

@[simp] theorem handleDoubt_kept (s : State) (seq : Nat) (r : Report) : KeepsForm s (handleDoubt s seq r) := by simp +contextual [handleDoubt]

@[simp] theorem handleOverflow_kept (s : State) : KeepsForm s (handleOverflow s) := by
  simp only [handleOverflow]
  refine KeepsForm.trans ?_ (actingOn_keepsForm _ _ _ fun s => ?_)
  · simp
  · split <;> simp +contextual

@[simp] theorem handleReport_kept (s : State) (r : Report) : KeepsForm s (handleReport s r) := by
  simp only [handleReport]
  repeat' split
  all_goals simp +contextual

theorem execErrorReportProcess_keeps (s : State) : NextKeeps s (execErrorReportProcess s) := by
  simp only [execErrorReportProcess]
  repeat' split
  all_goals simp +contextual

@[simp] theorem writeValues_kept (s : State) (e : Epoch) (f : Nat) (x : FlowSafety) (vs : List Nat) : KeepsForm s (writeValues s e f x vs).2 := by simp +contextual [writeValues]

@[simp] theorem recipeHold_kept (s : State) (e : Epoch) (f : Nat) (x : FlowSafety) : KeepsForm s (recipeHold s e f x).2 := by
  simp only [recipeHold]
  repeat' split
  all_goals simp +contextual

@[simp] theorem recipeLinear_kept (s : State) (e : Epoch) (f : Nat) (x : FlowSafety) : KeepsForm s (recipeLinear s e f x).2 := by
  simp only [recipeLinear]
  repeat' split
  all_goals simp +contextual

@[simp] theorem recipeMove_kept (s : State) (e : Epoch) (f : Nat) (x : FlowSafety) : KeepsForm s (recipeMove s e f x).2 := by
  simp only [recipeMove]
  repeat' split
  all_goals simp +contextual

@[simp] theorem recipeOf_kept (s : State) (e : Epoch) (f : Nat) : KeepsForm s (recipeOf s e f).2 := by
  simp only [recipeOf]
  repeat' split
  all_goals simp +contextual

@[simp] theorem fallbackRecord_kept (s : State) (e : Epoch) (f : Nat) : KeepsForm s (fallbackRecord s e f) := by
  simp only [fallbackRecord]
  refine actingOn_keepsForm _ _ _ fun s => ?_
  split <;> simp +contextual

@[simp] theorem gridFree_kept (s : State) (e : Epoch) (f : Nat) : KeepsBytes s (gridFree s e f) := by
  simp only [gridFree]
  repeat' split
  all_goals simp

theorem emitPass_kept {s s' : State} {e : Epoch} {r : FlowRun} (h : emitPass s e r = some s') : KeepsForm s s' := by
  simp only [emitPass] at h
  split at h
  · cases h
    simp
  · next g _ =>
    split at h
    · cases h
      simp
    · next y _ =>
      generalize y.out = out at h
      cases out
      all_goals
        dsimp only at h
        split at h
        · split at h
          · cases h
            simp +contextual
          · cases h
        · cases h

theorem execVerdictFormed_keeps (c n f : Nat) (s : State) : NextKeeps s (execVerdictFormed c n f s) := by
  simp only [execVerdictFormed]
  repeat' split
  · simp
  · simp
  · simp
  · next h =>
    split at h
    · have hk := emitPass_kept h
      simpa using hk
    · cases h
  · simp +contextual

theorem execLatchClear_keeps (did : Nat) (s : State) : NextKeeps s (execLatchClear did s) := by
  simp only [execLatchClear]
  repeat' split
  all_goals simp

theorem execSafeAck_keeps (did : Nat) (bits : Nat) (s : State) : NextKeeps s (execSafeAck did bits s) := by
  simp only [execSafeAck]
  repeat' split
  all_goals simp

theorem execIslandHeartbeat_keeps (s : State) : NextKeeps s (execIslandHeartbeat s) := by
  simp only [execIslandHeartbeat]
  split <;> simp

@[simp] theorem islandStops_kept (s : State) (cause : Nat) (event : Nat) : KeepsForm s (islandStops s cause event) := by simp [islandStops]

theorem execLockstepMismatch_keeps (s : State) : NextKeeps s (execLockstepMismatch s) := by
  simp only [execLockstepMismatch]
  split <;> simp +contextual

theorem execIslandWatchdogExpiry_keeps (s : State) : NextKeeps s (execIslandWatchdogExpiry s) := by
  simp only [execIslandWatchdogExpiry]
  split <;> simp +contextual

theorem execFirmwareHeartbeat_keeps (s : State) : NextKeeps s (execFirmwareHeartbeat s) := by
  simp only [execFirmwareHeartbeat]
  split <;> simp

theorem execFirmwareSilent_keeps (s : State) : NextKeeps s (execFirmwareSilent s) := by
  simp only [execFirmwareSilent]
  repeat' split
  all_goals simp

theorem execImageCheck_keeps (copyOk : Bool) (recordsOk : Bool) (s : State) : NextKeeps s (execImageCheck copyOk recordsOk s) := by
  simp only [execImageCheck]
  split <;> simp

/-! ## Kept by the watchdogs -/

@[simp] theorem windowMiss_kept (s : State) (c : Nat) (n : Nat) (t : Nat) : KeepsBytes s (windowMiss s c n t) := by simp [windowMiss]

theorem execStageEndEvent_keeps (c : Nat) (n : Nat) (t : Nat) (s : State) : NextKeeps s (execStageEndEvent c n t s) := by
  simp only [execStageEndEvent]
  repeat' split
  all_goals simp

theorem execWatchdogWindowClose_keeps (c : Nat) (n : Nat) (t : Nat) (s : State) : NextKeeps s (execWatchdogWindowClose c n t s) := by
  simp only [execWatchdogWindowClose]
  repeat' split
  all_goals simp

theorem execIntakeCloseTimeout_keeps (c : Nat) (s : State) : NextKeeps s (execIntakeCloseTimeout c s) := by
  simp only [execIntakeCloseTimeout]
  split <;> simp

@[simp] theorem rewriteCode_kept (s : State) (m : Nat) (word : Nat) : KeepsForm s (rewriteCode s m word) := by
  simp only [rewriteCode]
  repeat' split
  all_goals simp +contextual

@[simp] theorem spoilStore_kept (s : State) (m : Nat) (word : Nat) : KeepsBytes s (spoilStore s m word) := by
  simp only [spoilStore]
  repeat' split
  all_goals simp

theorem execSramScrub_keeps (m : Nat) (ecc : Nat) (guarded : Bool) (s : State) : NextKeeps s (execSramScrub m ecc guarded s) := by
  simp only [execSramScrub]
  repeat' split
  all_goals simp +contextual

/-! ## Kept by the self-tests -/

@[simp] theorem startGolden_kept (s : State) (u : Nat) : KeepsBytes s (startGolden s u) := by
  simp only [startGolden]
  split <;> simp

theorem execGoldenRun_keeps (u : Nat) (s : State) : NextKeeps s (execGoldenRun u s) := by
  simp only [execGoldenRun]
  split <;> simp

theorem execSelftestSchedule_keeps (u : Nat) (s : State) : NextKeeps s (execSelftestSchedule u s) := by
  simp only [execSelftestSchedule]
  repeat' split
  all_goals simp

@[simp] theorem restartUnit_kept (s : State) (u : Nat) : KeepsBytes s (restartUnit s u) := by
  simp only [restartUnit]
  repeat' split
  all_goals simp

@[simp] theorem failTest_kept (s : State) (u : Nat) (event : Nat) (cause : Nat) (detail : Nat) (detail2 : Nat) : KeepsForm s (failTest s u event cause detail detail2) := by simp +contextual [failTest]

@[simp] theorem failCovered_kept (s : State) (u : Nat) (owed : List (Nat × Nat)) : KeepsBytes s (failCovered s u owed) := by
  refine foldl_carries_bytes id _ (fun s e => ?_) _ s
  simp only [id]
  split <;> simp

theorem execGoldenRunEnd_keeps (u : Nat) (ok : Bool) (s : State) : NextKeeps s (execGoldenRunEnd u ok s) := by
  simp only [execGoldenRunEnd]
  repeat' split
  all_goals simp +contextual

theorem execSelftestSliceEnd_keeps (u : Nat) (ok : Bool) (s : State) : NextKeeps s (execSelftestSliceEnd u ok s) := by
  simp only [execSelftestSliceEnd]
  repeat' split
  all_goals simp +contextual

theorem execSelftestAbort_keeps (u : Nat) (s : State) : NextKeeps s (execSelftestAbort u s) := by simp [execSelftestAbort]

theorem execLatentTestOverdue_keeps (u : Nat) (s : State) : NextKeeps s (execLatentTestOverdue u s) := by
  simp only [execLatentTestOverdue]
  repeat' split
  all_goals simp

theorem execUnitIsolate_keeps (did : Nat) (s : State) : NextKeeps s (execUnitIsolate did s) := by
  simp only [execUnitIsolate]
  split <;> simp +contextual

theorem execUnitReadmit_keeps (did : Nat) (s : State) : NextKeeps s (execUnitReadmit did s) := by
  simp only [execUnitReadmit]
  split <;> simp

@[simp] theorem resetUnit_kept (s : State) (u : Nat) : KeepsForm s (resetUnit s u) := by
  simp only [resetUnit]
  repeat' split
  all_goals simp +contextual

@[simp] theorem reloadPrograms_kept (s : State) (u : Nat) : KeepsForm s (reloadPrograms s u) :=
  foldl_keepsForm _ (fun s r => by split <;> simp +contextual) _ s

@[simp] theorem enterService_kept (s : State) (u : Nat) : KeepsBytes s (enterService s u) := by
  simp only [enterService]
  split <;> simp

theorem execReadmissionStep_keeps (u : Nat) (fault : Nat) (s : State) : NextKeeps s (execReadmissionStep u fault s) := by
  simp only [execReadmissionStep]
  repeat' split
  all_goals simp +contextual

theorem execUnitReadmitted_keeps (u : Nat) (s : State) : NextKeeps s (execUnitReadmitted u s) := by
  simp only [execUnitReadmitted]
  split <;> simp

/-! ## Kept by security and presence -/

@[simp] theorem setRwl_kept (s : State) (i : Image) : KeepsBytes s (setRwl s i) := by simp [setRwl]

@[simp] theorem rwlDropped_kept (s : State) (did : Nat) (unit : Nat) (offset : Nat) : KeepsBytes s (rwlDropped s did unit offset) := by simp [rwlDropped]

@[simp] theorem imageSeqs_kept (s : State) (old : Image) (new : Image) : KeepsBytes s (imageSeqs s old new) := by simp [imageSeqs]

@[simp] theorem pinOn_kept (k : Nat) (p : Program) (s : State) (g : Nat) : KeepsForm s (pinOn k p s g) := by
  simp only [pinOn]
  split <;> simp +contextual

theorem pinAll_kept (k : Nat) (p : Program) (gs : List Nat) (s : State) : KeepsForm s (gs.foldl (pinOn k p) s) :=
  foldl_keepsForm _ (fun s g => by simp +contextual) gs s

@[simp] theorem imageEngines_kept (s : State) (new : Image) : KeepsForm s (imageEngines s new) := by
  simp only [imageEngines]
  refine KeepsForm.trans (t := { s with eng.engines := _ }) (by simp) (foldl_keepsForm _ (fun s p => ?_) _ _)
  split
  · exact pinAll_kept _ _ _ s
  · simp

@[simp] theorem imageJoints_kept (s : State) (new : Image) : KeepsBytes s (imageJoints s new) := by simp [imageJoints]

@[simp] theorem imageRegions_kept (s : State) (old : Image) (new : Image) : KeepsBytes s (imageRegions s old new) := ⟨rfl, rfl⟩

@[simp] theorem imagePorts_kept (s : State) (old : Image) (new : Image) : KeepsBytes s (imagePorts s old new) := ⟨rfl, rfl⟩

@[simp] theorem switchImage_kept (s : State) (old : Image) (new : Image) : KeepsForm s (switchImage s old new) := by simp +contextual [switchImage]

@[simp] theorem applyImage_kept (s : State) (i : Image) (digest : Nat) (svn : Nat) (locked : Bool) : KeepsForm s (applyImage s i digest svn locked) := by simp +contextual [applyImage]

@[simp] theorem dropImage_kept (s : State) : KeepsForm s (dropImage s) := by simp +contextual [dropImage]

theorem maintOp_kept (s : State) (d : Desc) (permitted : Bool) (act : State → Answer) (h : ∀ s, KeepsForm s (act s).state) :
    KeepsForm s (maintOp s d permitted act).state := by
  simp only [maintOp]
  split
  · simpa using h (maintRecord s d.did (dOpcode d))
  · simp

theorem execSecFwUpdate_keeps (d : Desc) (s : State) : NextKeeps s (execSecFwUpdate d s) := by
  refine (nextKeeps_next _ _).2 (runDesc_kept _ _ _ _ fun s => maintOp_kept _ _ _ _ fun s => ?_)
  dsimp only
  repeat' split
  all_goals simp

theorem execSecImageLoad_keeps (d : Desc) (img : Image) (s : State) : NextKeeps s (execSecImageLoad d img s) := by
  refine (nextKeeps_next _ _).2 (runDesc_kept _ _ _ _ fun s => maintOp_kept _ _ _ _ fun s => ?_)
  dsimp only
  split
  · simp
  · split
    · simp
    · split
      · simp
      · split
        · simp
        · split
          · simp
          · simp +contextual

theorem execSecLock_keeps (d : Desc) (s : State) : NextKeeps s (execSecLock d s) := by
  refine (nextKeeps_next _ _).2 (runDesc_kept _ _ _ _ fun s => ?_)
  repeat' split
  all_goals simp

@[simp] theorem installKey_kept (s : State) (usage : Nat) (gen : Nat) (digest : Nat) : KeepsBytes s (installKey s usage gen digest) := by
  simp only [installKey]
  repeat' split
  all_goals simp

theorem execSecKeyRotate_keeps (d : Desc) (s : State) : NextKeeps s (execSecKeyRotate d s) := by
  refine (nextKeeps_next _ _).2 (runDesc_kept _ _ _ _ fun s => maintOp_kept _ _ _ _ fun s => ?_)
  dsimp only
  repeat' split
  all_goals simp

@[simp] theorem clearDram_kept (s : State) : KeepsForm s (clearDram s) := by simp +contextual [clearDram]

@[simp] theorem retire_kept (s : State) : KeepsForm s (retire s) := by simp +contextual [retire]

@[simp] theorem setLifecycle_kept (s : State) (l : Nat) : KeepsBytes s (setLifecycle s l) := by simp [setLifecycle]

@[simp] theorem provision_kept (s : State) (d : Desc) : KeepsBytes s (provision s d).state := by
  simp only [provision]
  repeat' split
  all_goals simp

theorem execSecLifecycle_keeps (d : Desc) (s : State) : NextKeeps s (execSecLifecycle d s) := by
  refine (nextKeeps_next _ _).2 (runDesc_kept _ _ _ _ fun s => maintOp_kept _ _ _ _ fun s => ?_)
  dsimp only
  repeat' split
  all_goals simp +contextual

theorem execPresenceWindowTimeout_keeps (s : State) : NextKeeps s (execPresenceWindowTimeout s) := by
  simp only [execPresenceWindowTimeout]
  split <;> simp

theorem execPresenceClose_keeps (did : Nat) (s : State) : NextKeeps s (execPresenceClose did s) := by
  simp only [execPresenceClose]
  split <;> simp

theorem execSealOverride_keeps (did : Nat) (s : State) : NextKeeps s (execSealOverride did s) := by
  simp only [execSealOverride]
  split <;> simp

theorem execSealRearm_keeps (did : Nat) (s : State) : NextKeeps s (execSealRearm did s) := by
  simp only [execSealRearm]
  split <;> simp

@[simp] theorem forceFail_kept (s : State) : KeepsBytes s (forceFail s) :=
  failOpenFlows_kept s.epochs s

@[simp] theorem setLevel_kept (s : State) (level : Nat) (source : Nat) : KeepsForm s (setLevel s level source) := by
  simp only [setLevel]
  split <;> simp

@[simp] theorem refuseLevel_kept (s : State) (level : Nat) : KeepsBytes s (refuseLevel s level) := by
  simp only [refuseLevel]
  split <;> simp

@[simp] theorem requestLevel_kept (s : State) (did : Nat) (level : Nat) (source : Nat) : KeepsForm s (requestLevel s did level source) := by
  simp only [requestLevel]
  repeat' split
  all_goals simp +contextual

theorem execDbgLevelWrite_keeps (did : Nat) (level : Nat) (s : State) : NextKeeps s (execDbgLevelWrite did level s) := by
  simp only [execDbgLevelWrite]
  split <;> simp +contextual

@[simp] theorem renewNonce_kept (s : State) : KeepsBytes s (renewNonce s) := ⟨rfl, rfl⟩

theorem execDbgNonceRead_keeps (did : Nat) (s : State) : NextKeeps s (execDbgNonceRead did s) := by simp [execDbgNonceRead]

theorem execDbgAuthGo_keeps (s : State) : NextKeeps s (execDbgAuthGo s) := by
  simp only [execDbgAuthGo]
  repeat' split
  all_goals simp +contextual

/-! ## Kept by the resets -/

@[simp] theorem resetSafe_kept (s : State) : KeepsBytes s (resetSafe s) := ⟨rfl, rfl⟩

@[simp] theorem resetTime_kept (s : State) : KeepsBytes s (resetTime s) := ⟨rfl, rfl⟩

@[simp] theorem resetFab_kept (s : State) : KeepsBytes s (resetFab s) := ⟨rfl, rfl⟩

@[simp] theorem txDisable_kept (s : State) : KeepsBytes s (txDisable s) := by simp [txDisable]

@[simp] theorem setRails_kept (s : State) (good : Bool) : KeepsBytes s (setRails s good) := by
  simp only [setRails]
  split <;> simp

@[simp] theorem resetPcie_kept (s : State) : KeepsBytes s (resetPcie s) := by simp [resetPcie]

@[simp] theorem endTests_kept (s : State) (lo : Nat) (n : Nat) : KeepsBytes s (endTests s lo n) := by simp [endTests]

@[simp] theorem resetDomain_kept (s : State) (d : Domain) : KeepsForm s (resetDomain s d) := by
  simp only [resetDomain]
  split
  case h_7 => exact ⟨rfl, fun _ => rfl⟩
  all_goals simp +contextual

@[simp] theorem assertDomains_kept (s : State) (ds : List Domain) : KeepsForm s (assertDomains s ds) := by simp +contextual [assertDomains]

@[simp] theorem countCause_kept (s : State) (cause : Nat) : KeepsBytes s (countCause s cause) := ⟨rfl, rfl⟩

@[simp] theorem joinSequence_kept (s : State) (cause : Nat) : KeepsBytes s (joinSequence s cause) := by
  simp only [joinSequence]
  split <;> simp

@[simp] theorem assertCause_kept (s : State) (cause : Nat) : KeepsForm s (assertCause s cause) := by
  simp only [assertCause]
  split <;> simp +contextual

@[simp] theorem logicCause_kept (s : State) (cause : Nat) : KeepsForm s (logicCause s cause) := by
  simp only [logicCause]
  split <;> simp +contextual

theorem execPor_keeps (vbackup : Bool) (s : State) : NextKeeps s (execPor vbackup s) := by
  simp only [execPor]
  split <;> simp +contextual

theorem execLogicBrownout_keeps (s : State) : NextKeeps s (execLogicBrownout s) := by simp +contextual [execLogicBrownout]

@[simp] theorem sampleStraps_kept (s : State) (bootSrc : Nat) (clkMode : Nat) : KeepsBytes s (sampleStraps s bootSrc clkMode) := by
  simp only [sampleStraps]
  split <;> simp

@[simp] theorem leaveStandby_kept (s : State) : KeepsBytes s (leaveStandby s) := ⟨rfl, rfl⟩

theorem execResetPin_keeps (s : State) : NextKeeps s (execResetPin s) := by
  simp only [execResetPin]
  repeat' split
  all_goals simp +contextual

theorem execPcieFundamental_keeps (s : State) : NextKeeps s (execPcieFundamental s) := by simp +contextual [execPcieFundamental]

theorem execPcieHot_keeps (s : State) : NextKeeps s (execPcieHot s) := by simp +contextual [execPcieHot]

theorem execHostDeviceCmd_keeps (did : Nat) (s : State) : NextKeeps s (execHostDeviceCmd did s) := by
  simp only [execHostDeviceCmd]
  split <;> simp +contextual

@[simp] theorem resetOneUnit_kept (s : State) (u : Nat) : KeepsForm s (resetOneUnit s u) := by simp +contextual [resetOneUnit]

@[simp] theorem resetTarget_kept (s : State) (t : Nat) : KeepsForm s (resetTarget s t) := by
  simp only [resetTarget]
  repeat' split
  all_goals simp +contextual

theorem execHostUnitCmd_keeps (did : Nat) (s : State) : NextKeeps s (execHostUnitCmd did s) := by
  simp only [execHostUnitCmd]
  repeat' split
  all_goals simp +contextual

theorem execOcturCmd_keeps (module : Nat) (did : Nat) (s : State) : NextKeeps s (execOcturCmd module did s) := by
  simp only [execOcturCmd]
  split <;> simp +contextual

theorem execSafeWatchdog_keeps (s : State) : NextKeeps s (execSafeWatchdog s) := by
  simp only [execSafeWatchdog]
  split <;> simp +contextual

theorem execSafetyEscalation_keeps (s : State) : NextKeeps s (execSafetyEscalation s) := by
  simp only [execSafetyEscalation]
  repeat' split
  all_goals simp +contextual

theorem execThermalTrip_keeps (s : State) : NextKeeps s (execThermalTrip s) := by simp +contextual [execThermalTrip]

theorem execDebugCmd_keeps (s : State) : NextKeeps s (execDebugCmd s) := by
  simp only [execDebugCmd]
  split <;> simp +contextual

theorem execOasClear_keeps (did : Nat) (s : State) : NextKeeps s (execOasClear did s) := by
  simp only [execOasClear]
  repeat' split
  all_goals simp

/-! ## Kept by the Octur link -/

@[simp] theorem setOct_kept (s : State) (p : Nat) (x : OctPort) : KeepsBytes s (setOct s p x) := ⟨rfl, rfl⟩

@[simp] theorem octFault_kept (s : State) (p : Nat) (event : Nat) : KeepsBytes s (octFault s p event) := by simp [octFault]

theorem execOcturHello_keeps (port : Nat) (module : Nat) (peerPort : Nat) (cols : Nat) (rows : Nat) (torus : Bool) (s : State) : NextKeeps s (execOcturHello port module peerPort cols rows torus s) := by
  simp only [execOcturHello]
  repeat' split
  all_goals simp

theorem execOcturRetrain_keeps (port : Nat) (s : State) : NextKeeps s (execOcturRetrain port s) := by
  simp only [execOcturRetrain]
  split <;> simp

theorem emitPackets_kept {α : Type} (f : α → Output) (l : List α) (s : State) : KeepsBytes s (l.foldl (fun s u => emit s (f u)) s) :=
  foldl_carries_bytes id _ (fun s u => by simp) l s

theorem execOcturReplay_keeps (port seq : Nat) (s : State) : NextKeeps s (execOcturReplay port seq s) := by
  have h l s := emitPackets_kept (fun u : Nat × BitVec 128 × List Byte => Output.packet port u.2.1 u.2.2) l s
  simp only [execOcturReplay]
  repeat' split
  all_goals simp [h]

theorem execOcturAckTimeout_keeps (port : Nat) (s : State) : NextKeeps s (execOcturAckTimeout port s) := by
  simp only [execOcturAckTimeout]
  split <;> simp

theorem octTake_kept (s : State) (p : OctPacket) (type : Nat) (act : State → State) (h : ∀ s, KeepsForm s (act s)) : KeepsForm s (octTake s p type act) := by
  simp only [octTake]
  repeat' split
  case isFalse.isFalse.isFalse.isFalse => exact h s
  all_goals simp

@[simp] theorem octAnswer_kept (s : State) (p : OctPacket) (type : Nat) (vc : Nat) (len : Nat) (op : Nat) (payload : List Byte) : KeepsBytes s (octAnswer s p type vc len op payload) := by
  simp only [octAnswer]
  split <;> simp

@[simp] theorem octDenied_kept (s : State) (p : OctPacket) (write : Bool) (st : Nat) : KeepsBytes s (octDenied s p write st) := by
  simp only [octDenied]
  split <;> simp

theorem execRdReq_keeps (p : OctPacket) (held : Bool) (s : State) : NextKeeps s (execRdReq p held s) := by
  refine (nextKeeps_next _ _).2 (octTake_kept _ _ _ _ fun s => ?_)
  dsimp only
  repeat' split
  all_goals simp

theorem execWrReq_keeps (p : OctPacket) (held : Bool) (s : State) : NextKeeps s (execWrReq p held s) := by
  refine (nextKeeps_next _ _).2 (octTake_kept _ _ _ _ fun s => ?_)
  dsimp only
  repeat' split
  all_goals simp +contextual

@[simp] theorem octDone_kept (s : State) (r : OctReq) : KeepsBytes s (octDone s r) := by simp [octDone]

theorem execRdResp_keeps (p : OctPacket) (s : State) : NextKeeps s (execRdResp p s) := by
  refine (nextKeeps_next _ _).2 (octTake_kept _ _ _ _ fun s => ?_)
  repeat' split
  all_goals simp

theorem execWrAck_keeps (p : OctPacket) (s : State) : NextKeeps s (execWrAck p s) := by
  refine (nextKeeps_next _ _).2 (octTake_kept _ _ _ _ fun s => ?_)
  repeat' split
  all_goals simp

theorem execKnotAdd_keeps (p : OctPacket) (s : State) : NextKeeps s (execKnotAdd p s) := by
  refine (nextKeeps_next _ _).2 (octTake_kept _ _ _ _ fun s => ?_)
  dsimp only
  split <;> simp

theorem execKnotAck_keeps (p : OctPacket) (s : State) : NextKeeps s (execKnotAck p s) := by
  refine (nextKeeps_next _ _).2 (octTake_kept _ _ _ _ fun s => ?_)
  dsimp only
  repeat' split
  all_goals simp

theorem execOcturRequestTimeout_keeps (tag : Nat) (s : State) : NextKeeps s (execOcturRequestTimeout tag s) := by
  simp only [execOcturRequestTimeout]
  repeat' split
  all_goals simp

theorem execOcturPacketForward_keeps (p : OctPacket) (s : State) : NextKeeps s (execOcturPacketForward p s) := by
  simp only [execOcturPacketForward]
  repeat' split
  all_goals simp

theorem sendTimes_kept (ps : List Nat) (s : State) :
    KeepsBytes s (ps.foldl (fun s p =>
      let x := octPort s p
      if x.st = .up then octSend s p (octHeader 7 2 0 x.peerModule s.oct.module 1 0 0 0 0 (octDistance s)) [] else s) s) := by
  refine foldl_carries_bytes id _ (fun s p => ?_) ps s
  simp only [id]
  split <;> simp

theorem execOcturTimeSend_keeps (s : State) : NextKeeps s (execOcturTimeSend s) := by
  refine (nextKeeps_next _ _).2 (KeepsForm.of_bytes (t := if octurTimed s then s else { s with oct.distance := octDistance s }) ?_ (sendTimes_kept _ _))
  split <;> simp

theorem execTime_keeps (p : OctPacket) (ta tb tc td : Int) (genA genB : Nat) (s : State) : NextKeeps s (execTime p ta tb tc td genA genB s) := by
  refine (nextKeeps_next _ _).2 (octTake_kept _ _ _ _ fun s => ?_)
  dsimp only
  repeat' split
  all_goals simp

theorem execOctReset_keeps (d : Desc) (s : State) : NextKeeps s (execOctReset d s) := by
  simp only [execOctReset, nextKeeps_next]
  refine runDesc_kept _ _ _ _ fun s => ?_
  (repeat' split) <;> simp +contextual

theorem execResetCmd_keeps (p : OctPacket) (s : State) : NextKeeps s (execResetCmd p s) := by
  refine (nextKeeps_next _ _).2 (octTake_kept _ _ _ _ fun s => ?_)
  dsimp only
  split <;> simp +contextual

theorem execResetAck_keeps (p : OctPacket) (s : State) : NextKeeps s (execResetAck p s) := by
  refine (nextKeeps_next _ _).2 (octTake_kept _ _ _ _ fun s => ?_)
  repeat' split
  all_goals simp

/-! ## Kept by the publications -/

theorem execPubConfig_keeps (d : Desc) (s : State) : NextKeeps s (execPubConfig d s) := by
  simp only [execPubConfig, nextKeeps_next]
  refine runDesc_kept _ _ _ _ fun s => ?_
  (repeat' split) <;> simp +contextual

theorem execPubRemove_keeps (d : Desc) (s : State) : NextKeeps s (execPubRemove d s) := by
  simp only [execPubRemove, nextKeeps_next]
  refine runDesc_kept _ _ _ _ fun s => ?_
  (repeat' split) <;> simp +contextual

@[simp] theorem readFields_kept (w : Who) (slot region : Nat) (l : List (Nat × Nat × Nat × Nat)) (s : State) :
    KeepsBytes s (readFields w slot region l s).2.2 := by
  induction l generalizing s with
  | nil => simp [readFields]
  | cons f l ih => grind [readFields, devRead_keeps]

@[simp] theorem putMessage_kept (s : State) (k : Nat) (p : Publication) (x : FlowResult) (fields : List Byte) : KeepsBytes s (putMessage s k p x fields) := by
  simp only [putMessage]
  split <;> simp

theorem execPublicationAssemble_keeps (pub : Nat) (s : State) : NextKeeps s (execPublicationAssemble pub s) := by
  simp only [execPublicationAssemble]
  repeat' split
  all_goals simp

theorem execPublicationTransmit_keeps (port : Nat) (s : State) : NextKeeps s (execPublicationTransmit port s) := by
  simp only [execPublicationTransmit]
  split <;> simp

/-! ## Kept by the arrivals -/

@[simp] theorem ringArrival_kept (s : State) (f : Flight) (raw : BitVec 512) : KeepsBytes s (ringArrival s f raw) := by
  simp only [ringArrival]
  repeat' split
  all_goals simp

@[simp] theorem fetchFailed_kept (s : State) (f : Flight) : KeepsBytes s (fetchFailed s f) := by
  simp only [fetchFailed]
  repeat' split
  all_goals simp

@[simp] theorem callArrival_kept (s : State) (t : Nat) (c : CallSlot) : KeepsBytes s (callArrival s t c) := by
  simp only [callArrival]
  repeat' split
  all_goals simp

theorem execDescriptorArrival_keeps (holder : DescHolder) (index : W32) (bytes : Option (BitVec 512)) (s : State) : NextKeeps s (execDescriptorArrival holder index bytes s) := by
  simp only [execDescriptorArrival]
  repeat' split
  all_goals simp

/-! ## Kept by release and boot -/

@[simp] theorem fenceUnits_kept (s : State) : KeepsBytes s (fenceUnits s) := by simp [fenceUnits]

@[simp] theorem releaseEffect_kept (s : State) (d : Domain) : KeepsBytes s (releaseEffect s d) := by
  simp only [releaseEffect]
  split <;> simp

@[simp] theorem endSequence_kept (s : State) : KeepsBytes s (endSequence s) := by
  simp only [endSequence]
  split <;> simp

theorem execDomainRelease_keeps (straps : Straps) (rails : Bool) (s : State) : NextKeeps s (execDomainRelease straps rails s) := by
  simp only [execDomainRelease]
  repeat' split
  all_goals simp

@[simp] theorem bootFail_kept (s : State) (error : Nat) : KeepsBytes s (bootFail s error) := ⟨rfl, rfl⟩

@[simp] theorem verifyFail_kept (s : State) : KeepsBytes s (verifyFail s) := by
  simp only [verifyFail]
  repeat' split
  all_goals simp

@[simp] theorem startFirmware_kept (s : State) : KeepsBytes s (startFirmware s) := by
  simp only [startFirmware]
  split <;> simp

@[simp] theorem firmwareSetup_kept (s : State) : KeepsBytes s (firmwareSetup s) := ⟨rfl, rfl⟩

@[simp] theorem bootImage_kept (s : State) (flashOk : Bool) : KeepsForm s (bootImage s flashOk) := by
  simp only [bootImage]
  repeat' split
  all_goals simp +contextual

@[simp] theorem bootReadyNow_kept (s : State) : KeepsBytes s (bootReadyNow s) := ⟨rfl, rfl⟩

@[simp] theorem trainFail_kept (s : State) : KeepsBytes s (trainFail s) := by
  simp only [trainFail]
  split <;> simp

theorem execBootStageAdvance_keeps (error : Nat) (s : State) : NextKeeps s (execBootStageAdvance error s) := by
  unfold execBootStageAdvance
  repeat' refine iteInduction (fun _ => ?_) fun _ => ?_
  all_goals exact (nextKeeps_next _ _).2 (by simp +contextual only [keepsForm_iff, bootFail_kept, trainFail_kept, verifyFail_kept, startFirmware_kept,
    firmwareSetup_kept, bootReadyNow_kept, bootImage_kept, implies_true, and_self])

theorem execBootGo_keeps (did : Nat) (s : State) : NextKeeps s (execBootGo did s) := by
  simp only [execBootGo]
  split <;> simp

theorem execBootSourceTimeout_keeps (s : State) : NextKeeps s (execBootSourceTimeout s) := by
  simp only [execBootSourceTimeout]
  repeat' split
  all_goals simp

@[simp] theorem resumeWork_kept (s : State) : KeepsBytes s (resumeWork s) := by simp [resumeWork]

@[simp] theorem enterState_kept (s : State) (p : Nat) (reason : Nat) : KeepsBytes s (enterState s p reason) := by
  simp only [enterState]
  repeat' split
  all_goals simp

theorem execPstateRequest_keeps (did : Nat) (target : Nat) (s : State) : NextKeeps s (execPstateRequest did target s) := by
  simp only [execPstateRequest]
  repeat' split
  all_goals simp

@[simp] theorem endTransition_kept (s : State) : KeepsBytes s (endTransition s) := by
  simp only [endTransition]
  split <;> simp

@[simp] theorem enterStandby_kept (s : State) : KeepsForm s (enterStandby s) := by simp +contextual [enterStandby]

theorem execPstateTransition_keeps (s : State) : NextKeeps s (execPstateTransition s) := by
  simp only [execPstateTransition]
  repeat' split
  all_goals simp +contextual

theorem execP3Wake_keeps (cause : Nat) (s : State) : NextKeeps s (execP3Wake cause s) := by
  simp only [execP3Wake]
  repeat' split
  all_goals simp +contextual

theorem execStandbyLoss_keeps (s : State) : NextKeeps s (execStandbyLoss s) := by
  simp only [execStandbyLoss]
  split <;> simp +contextual

@[simp] theorem trim_kept (s : State) (reason : Nat) (event : Nat) : KeepsBytes s (trim s reason event) := by simp [trim]

theorem execThermalTrim_keeps (junction : Nat) (s : State) : NextKeeps s (execThermalTrim junction s) := by
  simp only [execThermalTrim]
  split <;> simp

theorem execPowerTrim_keeps (power : Nat) (s : State) : NextKeeps s (execPowerTrim power s) := by
  simp only [execPowerTrim]
  split <;> simp

theorem execTrimRelease_keeps (junction : Nat) (power : Nat) (s : State) : NextKeeps s (execTrimRelease junction power s) := by
  simp only [execTrimRelease]
  split <;> simp

/-! ## Kept by the diagnostics -/

@[simp] theorem setLink_kept (s : State) (l : Nat) (x : LinkTest) : KeepsBytes s (setLink s l x) := ⟨rfl, rfl⟩

@[simp] theorem testDown_kept (s : State) (l : Nat) (loop : Nat) : KeepsBytes s (testDown s l loop) := by
  simp only [testDown]
  repeat' split
  all_goals simp

@[simp] theorem startTest_kept (s : State) (l : Nat) (loop : Nat) (pattern : Nat) : KeepsBytes s (startTest s l loop pattern) := by
  simp only [startTest]
  repeat' split
  all_goals simp

theorem execLinkTestStart_keeps (did : Nat) (loop : Nat) (pattern : Nat) (s : State) : NextKeeps s (execLinkTestStart did loop pattern s) := by
  simp only [execLinkTestStart]
  split <;> simp

theorem execLinkTestStop_keeps (did : Nat) (s : State) : NextKeeps s (execLinkTestStop did s) := by
  simp only [execLinkTestStop]
  split <;> simp

@[simp] theorem injectError_kept (s : State) (l : Nat) : KeepsBytes s (injectError s l) := by
  simp only [injectError]
  split <;> simp

theorem execLinkTestInject_keeps (did : Nat) (s : State) : NextKeeps s (execLinkTestInject did s) := by
  simp only [execLinkTestInject]
  split <;> simp

theorem execPatternCheckerSync_keeps (link : Nat) (errors : Nat) (lost : Bool) (s : State) : NextKeeps s (execPatternCheckerSync link errors lost s) := by
  simp only [execPatternCheckerSync]
  repeat' split
  all_goals simp

@[simp] theorem leaveIr_kept (s : State) (code : Nat) : KeepsForm s (leaveIr s code) := by
  simp only [leaveIr]
  split <;> simp +contextual

theorem loadIr_kept (s : State) (code : Nat) (allowed : State → Bool) (act : State → State) (h : ∀ s, KeepsForm s (act s)) :
    KeepsForm s (loadIr s code allowed act) := by
  simp only [loadIr]
  split
  · exact (leaveIr_kept s code).trans (h { leaveIr s code with dbg.ir := code })
  · simpa using leaveIr_kept s code

@[simp] theorem boundaryIr_kept (s : State) (code : Nat) : KeepsForm s (boundaryIr s code) :=
  loadIr_kept _ _ _ _ fun s => by simp

theorem execExtest_keeps (s : State) : NextKeeps s (execExtest s) := by simp +contextual [execExtest]

theorem execExtestPulse_keeps (s : State) : NextKeeps s (execExtestPulse s) := by simp +contextual [execExtestPulse]

theorem execExtestTrain_keeps (s : State) : NextKeeps s (execExtestTrain s) := by simp +contextual [execExtestTrain]

theorem execSamplePreload_keeps (pins cells : Nat) (s : State) : NextKeeps s (execSamplePreload pins cells s) :=
  (nextKeeps_next _ _).2 (loadIr_kept _ _ _ _ fun s => by simp)

theorem execIdcode_keeps (s : State) : NextKeeps s (execIdcode s) :=
  (nextKeeps_next _ _).2 (loadIr_kept _ _ _ _ fun s => by simp)

theorem execBypass_keeps (code : Nat) (s : State) : NextKeeps s (execBypass code s) := by
  simp only [execBypass]
  split
  · simp
  · exact (nextKeeps_next _ _).2 (loadIr_kept _ _ _ _ fun s => by simp)

theorem execProductionInstruction_keeps (code : Nat) (s : State) : NextKeeps s (execProductionInstruction code s) :=
  (nextKeeps_next _ _).2 (loadIr_kept _ _ _ _ fun s => by simp)

theorem execTraceSync_keeps (s : State) : NextKeeps s (execTraceSync s) := by
  simp only [execTraceSync]
  split <;> simp

theorem execTracePcSample_keeps (cp : Nat) (pc : W32) (s : State) : NextKeeps s (execTracePcSample cp pc s) := by simp [execTracePcSample]

/-! ## Kept by the register writes -/

theorem afterCmd_kept {s : State} {o : Host.Outcome State Fault Refusal} (h : NextKeeps s o) : KeepsForm s (afterCmd s o) := by
  obtain ⟨t, rfl, ht⟩ := h
  exact ht

theorem onBit_kept (v : W32) (i : Nat) (s : State) (f : State → State) (h : ∀ s, KeepsForm s (f s)) : KeepsForm s (onBit v i s f) := by
  simp only [onBit]
  split
  · exact h s
  · simp

theorem writeRwl_kept (s : State) (did w o : Nat) (valid : Bool) (f : State → State) (h : ∀ s, KeepsForm s (f s)) : KeepsForm s (writeRwl s did w o valid f) := by
  simp only [writeRwl]
  repeat' split
  · simp
  · exact h s
  · simp

@[simp] theorem writeRcu_kept (s : State) (did o : Nat) (v : W32) : KeepsForm s (writeRcu s did o v) := by
  simp only [writeRcu]
  split
  · refine KeepsForm.trans (KeepsForm.trans ?_ (onBit_kept _ _ _ _ fun s => afterCmd_kept (execHostUnitCmd_keeps did s)))
      (onBit_kept _ _ _ _ fun s => afterCmd_kept (execHostDeviceCmd_keeps did s))
    simp
  · exact onBit_kept _ _ _ _ fun s => afterCmd_kept (execBootGo_keeps did s)
  · simp

@[simp] theorem writeCpm_kept (s : State) (did o : Nat) (v : W32) : KeepsForm s (writeCpm s did o v) := by
  simp only [writeCpm]
  repeat' split
  · exact afterCmd_kept (execPstateRequest_keeps ..)
  all_goals simp

@[simp] theorem writeSec_kept (s : State) (did o : Nat) (v : W32) : KeepsForm s (writeSec s did o v) := by
  simp only [writeSec]
  split
  · simp
  · exact ((onBit_kept _ _ _ _ fun s => afterCmd_kept (execSealRearm_keeps did s)).trans
      (onBit_kept _ _ _ _ fun s => afterCmd_kept (execSealOverride_keeps did s))).trans
      (onBit_kept _ _ _ _ fun s => afterCmd_kept (execPresenceClose_keeps did s))
  · simp

@[simp] theorem writeOas_kept (s : State) (did o : Nat) (v : W32) : KeepsForm s (writeOas s did o v) := by
  simp only [writeOas]
  split
  · exact onBit_kept _ _ _ _ fun s => afterCmd_kept (execOasClear_keeps did s)
  · simp

@[simp] theorem writeQuiet_kept (s : State) (did : Nat) (o : Nat) (v : W32) : KeepsBytes s (writeQuiet s did o v) := by
  simp only [writeQuiet]
  repeat' split
  all_goals simp

theorem rwlWrite_kept {s t : State} {did w o : Nat} {v : W32} {valid : Bool} (h : rwlWrite s did w o v = some (valid, t)) : KeepsBytes s t := by
  simp only [rwlWrite] at h
  repeat' split at h
  all_goals cases h
  all_goals simp

@[simp] theorem writeRingCfg_kept (s : State) (did : Nat) (f : Ring → Ring) : KeepsBytes s (writeRingCfg s did f) := by
  simp only [writeRingCfg]
  repeat' split
  all_goals simp

@[simp] theorem writeRing_kept (s : State) (did : Nat) (o : Nat) (v : W32) : KeepsBytes s (writeRing s did o v) := by
  simp only [writeRing]
  repeat' split
  all_goals simp

@[simp] theorem writeMsix_kept (s : State) (fn : Nat) (o : Nat) (v : W32) : KeepsBytes s (writeMsix s fn o v) := by
  simp only [writeMsix]
  repeat' split
  all_goals simp

@[simp] theorem writeHif_kept (s : State) (did : Nat) (o : Nat) (v : W32) : KeepsBytes s (writeHif s did o v) := by
  simp only [writeHif]
  repeat' split
  all_goals simp

@[simp] theorem writePtpPort_kept (s : State) (p : Nat) (o : Nat) (v : W32) : KeepsBytes s (writePtpPort s p o v) := by
  simp only [writePtpPort]
  repeat' split
  all_goals simp

@[simp] theorem timeCmd_kept (s : State) (did op : Nat) : KeepsForm s (timeCmd s did op) := by
  simp only [timeCmd]
  split
  · simp
  · exact afterCmd_kept (execStep_keeps did s)
  · exact afterCmd_kept (execReacquire_keeps did s)
  · exact afterCmd_kept (execTimeReset_keeps did s)
  · exact afterCmd_kept (execSetTod_keeps did s)
  · simp

@[simp] theorem writeTbu_kept (s : State) (did : Nat) (o : Nat) (v : W32) : KeepsForm s (writeTbu s did o v) := by
  simp only [writeTbu]
  repeat' split
  all_goals simp +contextual

@[simp] theorem writeSfi_kept (s : State) (did o : Nat) (v : W32) : KeepsForm s (writeSfi s did o v) := by
  simp only [writeSfi]
  split
  case h_2 => exact afterCmd_kept (execSafeAck_keeps ..)
  case h_4 => exact onBit_kept _ _ _ _ fun s => afterCmd_kept (execLatchClear_keeps did s)
  case h_7 =>
    exact (onBit_kept _ _ _ _ fun s => afterCmd_kept (execUnitIsolate_keeps did s)).trans
      (onBit_kept _ _ _ _ fun s => afterCmd_kept (execUnitReadmit_keeps did s))
  all_goals simp

@[simp] theorem writeSources_kept (s : State) (sic : Bool) (k : Nat) (f : IntSource → Bool → IntSource) (v : W32) : KeepsBytes s (writeSources s sic k f v) := by
  refine foldl_carries_bytes id _ (fun s j => ?_) _ s
  simp only [id]
  split <;> simp

@[simp] theorem writeSrcCfg_kept (s : State) (sic : Bool) (k : Nat) (v : W32) : KeepsBytes s (writeSrcCfg s sic k v) := by
  simp only [writeSrcCfg]
  split <;> simp

@[simp] theorem writeSrcCmd_kept (s : State) (did cp : Nat) (v : W32) : KeepsForm s (writeSrcCmd s did cp v) := by
  simp only [writeSrcCmd]
  split
  · simp
  · exact (((onBit_kept _ _ _ _ fun s => afterCmd_kept (execIcuSrcClrPend_keeps did cp s)).trans
      (onBit_kept _ _ _ _ fun s => afterCmd_kept (execIcuSrcSetPend_keeps did cp s))).trans
      (onBit_kept _ _ _ _ fun s => afterCmd_kept (execIcuSrcUnmask_keeps did cp s))).trans
      (onBit_kept _ _ _ _ fun s => afterCmd_kept (execIcuSrcMask_keeps did cp s))

@[simp] theorem writeProc_kept (s : State) (sic : Bool) (p o : Nat) (v : W32) : KeepsForm s (writeProc s sic p o v) := by
  simp only [writeProc]
  split
  · simp
  · split
    · simp
    · split
      · exact afterCmd_kept (execIcuEoi_keeps ..)
      · simp

@[simp] theorem writeSic_kept (s : State) (o : Nat) (v : W32) : KeepsForm s (writeSic s o v) := by
  simp only [writeSic]
  repeat' split
  all_goals simp +contextual

@[simp] theorem writeIcu_kept (s : State) (did cp o : Nat) (v : W32) : KeepsForm s (writeIcu s did cp o v) := by
  unfold writeIcu
  refine iteInduction (fun _ => afterCmd_kept (execIcuSwi_keeps ..)) fun _ => ?_
  refine iteInduction (fun _ => by simp) fun _ => ?_
  refine iteInduction (fun _ => by simp) fun _ => ?_
  refine iteInduction (fun _ => ⟨rfl, id⟩) fun _ => ?_
  refine iteInduction (fun _ => by simp) fun _ => ?_
  refine iteInduction (fun _ => by simp) fun _ => ?_
  refine iteInduction (fun _ => by simp) fun _ => ?_
  refine iteInduction (fun _ => writeProc_kept ..) fun _ => ?_
  refine iteInduction (fun _ => ?_) fun _ => ?_
  · split
    · simp
    · exact afterCmd_kept (execIcuLockRelease_keeps ..)
  · split
    · simp
    · simp
    · exact writeSrcCmd_kept ..
    · simp
    · simp

@[simp] theorem writeOctCfg_kept (s : State) (v : W32) : KeepsBytes s (writeOctCfg s v) := by
  simp only [writeOctCfg]
  split <;> simp

@[simp] theorem writeOct_kept (s : State) (did : Nat) (o : Nat) (v : W32) : KeepsBytes s (writeOct s did o v) := by
  simp only [writeOct]
  repeat' split
  all_goals simp

@[simp] theorem writeLinkCtrl_kept (s : State) (l : Nat) (v : W32) : KeepsForm s (writeLinkCtrl s l v) := by
  simp only [writeLinkCtrl]
  refine KeepsForm.trans ?_ (onBit_kept _ _ _ _ fun s => by simp)
  repeat' split
  all_goals simp

@[simp] theorem writeDbg_kept (s : State) (did o : Nat) (v : W32) : KeepsForm s (writeDbg s did o v) := by
  simp only [writeDbg]
  split
  · simp
  · split
    · split
      · simp
      · exact KeepsForm.trans (by simp) (afterCmd_kept (execDbgLevelWrite_keeps ..))
    · exact onBit_kept _ _ _ _ fun s => afterCmd_kept (execDbgAuthGo_keeps s)
    all_goals (repeat' split) <;> simp +contextual

@[simp] theorem writeCore_kept (s : State) (did : Nat) (c : Nat) (o : Nat) (v : W32) : KeepsBytes s (writeCore s did c o v) := by
  simp only [writeCore]
  repeat' split
  all_goals simp

@[simp] theorem writeErg_kept (s : State) (did : Nat) (o : Nat) (v : W32) : KeepsBytes s (writeErg s did o v) := by
  simp only [writeErg]
  split <;> simp

@[simp] theorem writeSpl_kept (s : State) (did : Nat) (o : Nat) (v : W32) : KeepsBytes s (writeSpl s did o v) := by
  simp only [writeSpl]
  repeat' split
  all_goals simp

@[simp] theorem writeXft_kept (s : State) (did : Nat) (o : Nat) (v : W32) : KeepsBytes s (writeXft s did o v) := by
  simp only [writeXft]
  split <;> simp

@[simp] theorem writeLyt_kept (s : State) (did : Nat) (o : Nat) (v : W32) : KeepsBytes s (writeLyt s did o v) := by
  simp only [writeLyt]
  split <;> simp

@[simp] theorem writeMmu_kept (s : State) (did : Nat) (o : Nat) (v : W32) : KeepsBytes s (writeMmu s did o v) := by
  simp only [writeMmu]
  split <;> simp

@[simp] theorem writeMem_kept (s : State) (did : Nat) (o : Nat) (v : W32) : KeepsBytes s (writeMem s did o v) := by
  simp only [writeMem]
  split <;> simp

@[simp] theorem writeSel_kept (s : State) (did : Nat) (w : Nat) (o : Nat) (v : W32) : KeepsBytes s (writeSel s did w o v) := by
  simp only [writeSel]
  split <;> simp

@[simp] theorem writeBlock_kept (s : State) (did cp w o : Nat) (v : W32) : KeepsForm s (writeBlock s did cp w o v) := by
  simp only [writeBlock]
  split
  · next h =>
    simp only [writeRwl]
    repeat' split
    · simp
    · exact KeepsForm.of_bytes ⟨rfl, id⟩ (rwlWrite_kept h)
    · simp
  · split
    · simp
    · split <;> simp +contextual

@[simp] theorem writePair_kept (s : State) (did : Nat) (a : Nat) (v : Nat) : KeepsBytes s (writePair s did a v) := by
  simp only [writePair]
  repeat' split
  all_goals simp

/-! ## Kept by the BAR accesses -/

/-- The word that a read of DID 1 gives the memory window. -/
def windowWord (r : Nat × List Byte × State) : Nat × State :=
  if r.1 = stOk then (ofLe r.2.1, r.2.2) else (0xFFFFFFFF, r.2.2)

theorem windowWord_kept {s : State} {r : Nat × List Byte × State} (h : KeepsBytes s r.2.2) : KeepsBytes s (windowWord r).2 := by
  simp only [windowWord]
  split <;> exact h

theorem memWindow_eq (s : State) (o : Nat) : memWindow s o = if s.dbg.level = 0 then (0, s) else
    windowWord (devRead s { did := 1, guarded := false, kind := 4, index := 0x1600, flows := [] } (s.dbg.memBase + (o - 0x1000)) 4) := rfl

@[simp] theorem memWindow_kept (s : State) (o : Nat) : KeepsBytes s (memWindow s o).2 := by
  rw [memWindow_eq]
  split
  · simp
  · exact windowWord_kept (by simp only [keepsBytes_iff, devRead_keeps, and_self])

@[simp] theorem barRead_kept (s : State) (did : Nat) (cp : Nat) (a : Nat) : KeepsBytes s (barRead s did cp a).2 := by
  simp only [barRead]
  repeat' split
  all_goals simp

@[simp] theorem holdLow_kept (s : State) (did : Nat) (a : Nat) (v : W32) : KeepsBytes s (holdLow s did a v) := by
  simp only [holdLow]
  repeat' split
  all_goals simp

@[simp] theorem joinHigh_kept (s : State) (did : Nat) (a : Nat) (v : W32) : KeepsBytes s (joinHigh s did a v) := by simp [joinHigh]

@[simp] theorem barWrite_kept (s : State) (did : Nat) (cp : Nat) (a : Nat) (v : W32) : KeepsForm s (barWrite s did cp a v) := by
  simp only [barWrite]
  repeat' split
  all_goals simp +contextual

@[simp] theorem writeAccess_kept (s : State) (a : BarAccess) : KeepsForm s (writeAccess s a) := by
  simp only [writeAccess]
  repeat' split
  all_goals simp +contextual

@[simp] theorem readAccess_kept (s : State) (a : BarAccess) : KeepsBytes s (readAccess s a) := by
  simp only [readAccess]
  repeat' split
  all_goals simp

theorem execRegisterWrite_keeps (w : RegWrite) (s : State) : NextKeeps s (execRegisterWrite w s) := by simp +contextual [execRegisterWrite]

theorem execRegisterReadLo_keeps (a : BarAccess) (s : State) : NextKeeps s (execRegisterReadLo a s) := by simp [execRegisterReadLo]

theorem execRegisterWriteLo_keeps (a : BarAccess) (s : State) : NextKeeps s (execRegisterWriteLo a s) := by
  simp only [execRegisterWriteLo]
  repeat' split
  all_goals simp

theorem execRegisterWriteHi_keeps (a : BarAccess) (s : State) : NextKeeps s (execRegisterWriteHi a s) := by
  simp only [execRegisterWriteHi]
  repeat' split
  all_goals simp

theorem execDbgMemWindowAccess_keeps (did : Nat) (span : WindowSpan) (write : Bool) (s : State) : NextKeeps s (execDbgMemWindowAccess did span write s) := by
  simp only [execDbgMemWindowAccess]
  split <;> simp

@[simp] theorem portAccess_kept (s : State) (word : BitVec 64) : KeepsForm s (portAccess s word) := by
  simp only [portAccess]
  repeat' split
  all_goals simp +contextual

theorem execDbgAccess_keeps (word : BitVec 64) (s : State) : NextKeeps s (execDbgAccess word s) := by
  simp only [execDbgAccess, nextKeeps_next]
  have h := loadIr_kept s 0x08 (fun _ => true) (fun s => s) fun s => by simp
  exact (h.trans (portAccess_kept _ word)).of_bytes (by simp)

/-! ## Every command keeps the queue and the canonical form (O3, O4) -/

/-- Every command answers a next state, which keeps the queue and the canonical form of the byte memory. -/
theorem exec_keeps (c : Instr) (s : State) : NextKeeps s (exec c s) :=
  match c with
  | .registerWrite w => execRegisterWrite_keeps w s
  | .registerReadLo a => execRegisterReadLo_keeps a s
  | .registerWriteLo a => execRegisterWriteLo_keeps a s
  | .registerWriteHi a => execRegisterWriteHi_keeps a s
  | .bar2WindowAccess write offset bytes => execBar2WindowAccess_keeps write offset bytes s
  | .functionLevelReset fn => execFunctionLevelReset_keeps fn s
  | .hifFnAssign did completion value => execHifFnAssign_keeps did completion value s
  | .start did => execStart_keeps did s
  | .stop did => execStop_keeps did s
  | .reset did => execReset_keeps did s
  | .sringStopped ring => execSringStopped_keeps ring s
  | .doorbellPoll => execDoorbellPoll_keeps s
  | .doorbellPollReturn completion ring record => execDoorbellPollReturn_keeps completion ring record s
  | .descriptorArrival holder index bytes => execDescriptorArrival_keeps holder index bytes s
  | .nop d => execNop_keeps d s
  | .timeMark d => execTimeMark_keeps d s
  | .flowConfig d => execFlowConfig_keeps d s
  | .flowRing d => execFlowRing_keeps d s
  | .flowDelete d => execFlowDelete_keeps d s
  | .msixModerationExpiry vector => execMsixModerationExpiry_keeps vector s
  | .msixVectorUnmask vector => execMsixVectorUnmask_keeps vector s
  | .qCreate d => execQCreate_keeps d s
  | .qDestroy d => execQDestroy_keeps d s
  | .qFlush d => execQFlush_keeps d s
  | .qQuery d => execQQuery_keeps d s
  | .blockedEnqueueResume queue => execBlockedEnqueueResume_keeps queue s
  | .qmuBackgroundSweep fault queue => execQmuBackgroundSweep_keeps fault queue s
  | .kInit d => execKInit_keeps d s
  | .kSignal d => execKSignal_keeps d s
  | .kRead d => execKRead_keeps d s
  | .kFree d => execKFree_keeps d s
  | .knotWaitRelease knot => execKnotWaitRelease_keeps knot s
  | .knotWaitRetry src turn => execKnotWaitRetry_keeps src turn s
  | .knotPoisoned knot => execKnotPoisoned_keeps knot s
  | .step did => execStep_keeps did s
  | .reacquire did => execReacquire_keeps did s
  | .timeReset did => execTimeReset_keeps did s
  | .setTod did => execSetTod_keeps did s
  | .ptpMessageRx m => execPtpMessageRx_keeps m s
  | .ptpMessageTx m => execPtpMessageTx_keeps m s
  | .servoSample port seq ingress egress => execServoSample_keeps port seq ingress egress s
  | .servoHoldoverTimeout => execServoHoldoverTimeout_keeps s
  | .dpllRefLost => execDpllRefLost_keeps s
  | .ppsInEdge field falling sub => execPpsInEdge_keeps field falling sub s
  | .ppsOutEdge => execPpsOutEdge_keeps s
  | .clk10mGate freq => execClk10mGate_keeps freq s
  | .fieldTimeMarker ta tb tc td => execFieldTimeMarker_keeps ta tb tc td s
  | .fieldLinkDown => execFieldLinkDown_keeps s
  | .fieldLinkUp => execFieldLinkUp_keeps s
  | .cadConfig d => execCadConfig_keeps d s
  | .cadArm d => execCadArm_keeps d s
  | .cadStop d => execCadStop_keeps d s
  | .trigConfig d => execTrigConfig_keeps d s
  | .actConfig d => execActConfig_keeps d s
  | .trigMon d => execTrigMon_keeps d s
  | .flowCatchup d => execFlowCatchup_keeps d s
  | .cadenceAcqStart c => execCadenceAcqStart_keeps c s
  | .cadenceClose c => execCadenceClose_keeps c s
  | .cadenceDeadline c => execCadenceDeadline_keeps c s
  | .epochWorkFinish c n => execEpochWorkFinish_keeps c n s
  | .triggerEdge output => execTriggerEdge_keeps output s
  | .actionCmdSend action hold => execActionCmdSend_keeps action hold s
  | .actionAckRx action => execActionAckRx_keeps action s
  | .triggerMissed stream => execTriggerMissed_keeps stream s
  | .portConfig d => execPortConfig_keeps d s
  | .partnerSet d => execPartnerSet_keeps d s
  | .partnerClear d => execPartnerClear_keeps d s
  | .streamConfig d => execStreamConfig_keeps d s
  | .streamEnable d => execStreamEnable_keeps d s
  | .ucodeLoad d => execUcodeLoad_keeps d s
  | .tagMap d => execTagMap_keeps d s
  | .testInject d => execTestInject_keeps d s
  | .tagRead d => execTagRead_keeps d s
  | .streamDelete d => execStreamDelete_keeps d s
  | .frameReceive f => execFrameReceive_keeps f s
  | .parserRun w => execParserRun_keeps w s
  | .gvspFrameTimeout stream => execGvspFrameTimeout_keeps stream s
  | .fieldRecordRx => execFieldRecordRx_keeps s
  | .tagWriteResume copied => execTagWriteResume_keeps copied s
  | .testInjectionStart stream => execTestInjectionStart_keeps stream s
  | .testInjectTimeout stream => execTestInjectTimeout_keeps stream s
  | .streamFrozenRecovery stream => execStreamFrozenRecovery_keeps stream s
  | .streamTimeRestored stream => execStreamTimeRestored_keeps stream s
  | .contestedExpiry stream => execContestedExpiry_keeps stream s
  | .alignEnd c => execAlignEnd_keeps c s
  | .splStream d => execSplStream_keeps d s
  | .splInputs d => execSplInputs_keeps d s
  | .splSnapshot d => execSplSnapshot_keeps d s
  | .poseEvaluation bad => execPoseEvaluation_keeps bad s
  | .egoMotion g => execEgoMotion_keeps g s
  | .xftEntry d => execXftEntry_keeps d s
  | .xftRig d => execXftRig_keeps d s
  | .xftJoint d => execXftJoint_keeps d s
  | .xftMount d => execXftMount_keeps d s
  | .xftEgo d => execXftEgo_keeps d s
  | .xftSetRef d => execXftSetRef_keeps d s
  | .xftDelete d => execXftDelete_keeps d s
  | .voxelBuild unit errs => execVoxelBuild_keeps unit errs s
  | .ergVolume d => execErgVolume_keeps d s
  | .ergKnn d => execErgKnn_keeps d s
  | .ergFps d => execErgFps_keeps d s
  | .ergRules d => execErgRules_keeps d s
  | .ergBev d => execErgBev_keeps d s
  | .gridConfig d => execGridConfig_keeps d s
  | .gridSource d => execGridSource_keeps d s
  | .gridOutput d => execGridOutput_keeps d s
  | .gridArea d => execGridArea_keeps d s
  | .gridDelete d => execGridDelete_keeps d s
  | .fuseStepStart g => execFuseStepStart_keeps g s
  | .engProgLoad d => execEngProgLoad_keeps d s
  | .engProgFree d => execEngProgFree_keeps d s
  | .engTask d => execEngTask_keeps d s
  | .engTaskBind d => execEngTaskBind_keeps d s
  | .engTaskUnbind d => execEngTaskUnbind_keeps d s
  | .boundTaskReady h => execBoundTaskReady_keeps h s
  | .instancePlacement => execInstancePlacement_keeps s
  | .instanceEnd inst => execInstanceEnd_keeps inst s
  | .fetchArrival t ecc => execFetchArrival_keeps t ecc s
  | .loadReturn t ecc => execLoadReturn_keeps t ecc s
  | .copyDone t => execCopyDone_keeps t s
  | .residueVerdict t pass => execResidueVerdict_keeps t pass s
  | .queueAnswer t => execQueueAnswer_keeps t s
  | .callCompletion t slot => execCallCompletion_keeps t slot s
  | .engNop t e => execEngNop_keeps t e s
  | .add t e => execAdd_keeps t e s
  | .sub t e => execSub_keeps t e s
  | .and t e => execAnd_keeps t e s
  | .or t e => execOr_keeps t e s
  | .xor t e => execXor_keeps t e s
  | .shl t e => execShl_keeps t e s
  | .shr t e => execShr_keeps t e s
  | .sar t e => execSar_keeps t e s
  | .min t e => execMin_keeps t e s
  | .max t e => execMax_keeps t e s
  | .minu t e => execMinu_keeps t e s
  | .maxu t e => execMaxu_keeps t e s
  | .slt t e => execSlt_keeps t e s
  | .sltu t e => execSltu_keeps t e s
  | .seq t e => execSeq_keeps t e s
  | .mul t e => execMul_keeps t e s
  | .mulh t e => execMulh_keeps t e s
  | .mulhu t e => execMulhu_keeps t e s
  | .div t e => execDiv_keeps t e s
  | .divu t e => execDivu_keeps t e s
  | .rem t e => execRem_keeps t e s
  | .remu t e => execRemu_keeps t e s
  | .movi t e => execMovi_keeps t e s
  | .movhi t e => execMovhi_keeps t e s
  | .mfs t e => execMfs_keeps t e s
  | .mts t e => execMts_keeps t e s
  | .rdtime t e => execRdtime_keeps t e s
  | .ldt t e => execLdt_keeps t e s
  | .stt t e => execStt_keeps t e s
  | .atadd t e => execAtadd_keeps t e s
  | .atcas t e => execAtcas_keeps t e s
  | .vadd t e => execVadd_keeps t e s
  | .vsub t e => execVsub_keeps t e s
  | .vmul t e => execVmul_keeps t e s
  | .vfma t e => execVfma_keeps t e s
  | .vmin t e => execVmin_keeps t e s
  | .vmax t e => execVmax_keeps t e s
  | .vabs t e => execVabs_keeps t e s
  | .vneg t e => execVneg_keeps t e s
  | .vdiv t e => execVdiv_keeps t e s
  | .vsqrt t e => execVsqrt_keeps t e s
  | .vrcp t e => execVrcp_keeps t e s
  | .vrsqrt t e => execVrsqrt_keeps t e s
  | .vexp2 t e => execVexp2_keeps t e s
  | .vlog2 t e => execVlog2_keeps t e s
  | .vand t e => execVand_keeps t e s
  | .vor t e => execVor_keeps t e s
  | .vxor t e => execVxor_keeps t e s
  | .vshl t e => execVshl_keeps t e s
  | .vshr t e => execVshr_keeps t e s
  | .vsar t e => execVsar_keeps t e s
  | .vcmp t e => execVcmp_keeps t e s
  | .vsel t e => execVsel_keeps t e s
  | .vperm t e => execVperm_keeps t e s
  | .vbcast t e => execVbcast_keeps t e s
  | .vext t e => execVext_keeps t e s
  | .vins t e => execVins_keeps t e s
  | .vredadd t e => execVredadd_keeps t e s
  | .vredmax t e => execVredmax_keeps t e s
  | .vcvtn t e => execVcvtn_keeps t e s
  | .vcvtw t e => execVcvtw_keeps t e s
  | .vcvt t e => execVcvt_keeps t e s
  | .vldt t e => execVldt_keeps t e s
  | .vstt t e => execVstt_keeps t e s
  | .vgath t e => execVgath_keeps t e s
  | .vscat t e => execVscat_keeps t e s
  | .mma t e => execMma_keeps t e s
  | .ldg t e => execLdg_keeps t e s
  | .stg t e => execStg_keeps t e s
  | .ldgv t e => execLdgv_keeps t e s
  | .stgv t e => execStgv_keeps t e s
  | .ldc t e => execLdc_keeps t e s
  | .stc t e => execStc_keeps t e s
  | .ldcv t e => execLdcv_keeps t e s
  | .stcv t e => execStcv_keeps t e s
  | .copy t e => execCopy_keeps t e s
  | .waitc t e => execWaitc_keeps t e s
  | .sigk t e => execSigk_keeps t e s
  | .waitk t e => execWaitk_keeps t e s
  | .rdk t e => execRdk_keeps t e s
  | .qpush t e => execQpush_keeps t e s
  | .qpop t e => execQpop_keeps t e s
  | .call t e => execCall_keeps t e s
  | .fence t e => execFence_keeps t e s
  | .beq t e => execBeq_keeps t e s
  | .bne t e => execBne_keeps t e s
  | .blt t e => execBlt_keeps t e s
  | .bge t e => execBge_keeps t e s
  | .bltu t e => execBltu_keeps t e s
  | .bgeu t e => execBgeu_keeps t e s
  | .jmp t e => execJmp_keeps t e s
  | .jal t e => execJal_keeps t e s
  | .jr t e => execJr_keeps t e s
  | .trapf t e => execTrapf_keeps t e s
  | .endThread t e => execEndThread_keeps t e s
  | .lytCopy d => execLytCopy_keeps d s
  | .lytGather d => execLytGather_keeps d s
  | .lytScatter d => execLytScatter_keeps d s
  | .lytFill d => execLytFill_keeps d s
  | .layoutOperationEnd engine fault after => execLayoutOperationEnd_keeps engine fault after s
  | .seqPool d => execSeqPool_keeps d s
  | .seqCreate d => execSeqCreate_keeps d s
  | .seqDestroy d => execSeqDestroy_keeps d s
  | .seqAppend d => execSeqAppend_keeps d s
  | .seqAttend d => execSeqAttend_keeps d s
  | .seqBias d => execSeqBias_keeps d s
  | .seqTrim d => execSeqTrim_keeps d s
  | .seqInfo d => execSeqInfo_keeps d s
  | .seqAttendEnd core fault after => execSeqAttendEnd_keeps core fault after s
  | .seqStallAppendResume pool => execSeqStallAppendResume_keeps pool s
  | .seqStallTimeout k => execSeqStallTimeout_keeps k s
  | .slvSolve d => execSlvSolve_keeps d s
  | .solveStart => execSolveStart_keeps s
  | .solveOutcome core fault after => execSolveOutcome_keeps core fault after s
  | .solveDeadline core after => execSolveDeadline_keeps core after s
  | .mmuMap d => execMmuMap_keeps d s
  | .mmuUnmap d => execMmuUnmap_keeps d s
  | .mmuQuery d => execMmuQuery_keeps d s
  | .mmuFwSet d => execMmuFwSet_keeps d s
  | .memPatrolScrub mc ecc => execMemPatrolScrub_keeps mc ecc s
  | .dramMr4Read mc rate above => execDramMr4Read_keeps mc rate above s
  | .errorReportRaise severity kind index event status guarded flows did detail detail2 epoch => execErrorReportRaise_keeps severity kind index event status guarded flows did detail detail2 epoch s
  | .errorReportProcess => execErrorReportProcess_keeps s
  | .verdictFormed c n f => execVerdictFormed_keeps c n f s
  | .latchClear did => execLatchClear_keeps did s
  | .safeAck did bits => execSafeAck_keeps did bits s
  | .islandHeartbeat => execIslandHeartbeat_keeps s
  | .energiseRequestRx => execEnergiseRequestRx_keeps s
  | .fieldHeartbeatTimeout => execFieldHeartbeatTimeout_keeps s
  | .lockstepMismatch => execLockstepMismatch_keeps s
  | .islandWatchdogExpiry => execIslandWatchdogExpiry_keeps s
  | .firmwareSilent => execFirmwareSilent_keeps s
  | .imageCheck copyOk recordsOk => execImageCheck_keeps copyOk recordsOk s
  | .safetyEscalation => execSafetyEscalation_keeps s
  | .watchdogWindowClose c n t => execWatchdogWindowClose_keeps c n t s
  | .stageEndEvent c n t => execStageEndEvent_keeps c n t s
  | .intakeCloseTimeout c => execIntakeCloseTimeout_keeps c s
  | .sramScrub m ecc guarded => execSramScrub_keeps m ecc guarded s
  | .goldenRun u => execGoldenRun_keeps u s
  | .goldenRunEnd u ok => execGoldenRunEnd_keeps u ok s
  | .selftestSchedule u => execSelftestSchedule_keeps u s
  | .selftestSliceEnd u ok => execSelftestSliceEnd_keeps u ok s
  | .selftestAbort u => execSelftestAbort_keeps u s
  | .latentTestOverdue u => execLatentTestOverdue_keeps u s
  | .unitIsolate did => execUnitIsolate_keeps did s
  | .unitReadmit did => execUnitReadmit_keeps did s
  | .readmissionStep u fault => execReadmissionStep_keeps u fault s
  | .unitReadmitted u => execUnitReadmitted_keeps u s
  | .icuSourceEvent sic source level => execIcuSourceEvent_keeps sic source level s
  | .icuDelivery sic w => execIcuDelivery_keeps sic w s
  | .icuEoi sic p source => execIcuEoi_keeps sic p source s
  | .icuSrcMask did cp => execIcuSrcMask_keeps did cp s
  | .icuSrcUnmask did cp => execIcuSrcUnmask_keeps did cp s
  | .icuSrcSetPend did cp => execIcuSrcSetPend_keeps did cp s
  | .icuSrcClrPend did cp => execIcuSrcClrPend_keeps did cp s
  | .icuSwi did source => execIcuSwi_keeps did source s
  | .icuLockAcquire did lock => execIcuLockAcquire_keeps did lock s
  | .icuLockRelease did lock => execIcuLockRelease_keeps did lock s
  | .stormWindowReset => execStormWindowReset_keeps s
  | .processorWake sic w => execProcessorWake_keeps sic w s
  | .secFwUpdate d => execSecFwUpdate_keeps d s
  | .secImageLoad d img => execSecImageLoad_keeps d img s
  | .secKeyRotate d => execSecKeyRotate_keeps d s
  | .secLifecycle d => execSecLifecycle_keeps d s
  | .secLock d => execSecLock_keeps d s
  | .keyRead a b => execKeyRead_keeps a b s
  | .sealMeasurement ohm => execSealMeasurement_keeps ohm s
  | .presenceWindowTimeout => execPresenceWindowTimeout_keeps s
  | .presenceClose did => execPresenceClose_keeps did s
  | .sealOverride did => execSealOverride_keeps did s
  | .sealRearm did => execSealRearm_keeps did s
  | .dbgLevelWrite did level => execDbgLevelWrite_keeps did level s
  | .dbgNonceRead did => execDbgNonceRead_keeps did s
  | .dbgAuthGo => execDbgAuthGo_keeps s
  | .por vbackup => execPor_keeps vbackup s
  | .logicBrownout => execLogicBrownout_keeps s
  | .resetPin => execResetPin_keeps s
  | .pcieFundamental => execPcieFundamental_keeps s
  | .pcieHot => execPcieHot_keeps s
  | .hostDeviceCmd did => execHostDeviceCmd_keeps did s
  | .hostUnitCmd did => execHostUnitCmd_keeps did s
  | .octurCmd module did => execOcturCmd_keeps module did s
  | .safeWatchdog => execSafeWatchdog_keeps s
  | .thermalTrip => execThermalTrip_keeps s
  | .debugCmd => execDebugCmd_keeps s
  | .domainRelease straps rails => execDomainRelease_keeps straps rails s
  | .bootStageAdvance error => execBootStageAdvance_keeps error s
  | .bootGo did => execBootGo_keeps did s
  | .bootSourceTimeout => execBootSourceTimeout_keeps s
  | .startupInjection stream packet expected => execStartupInjection_keeps stream packet expected s
  | .oasClear did => execOasClear_keeps did s
  | .pstateRequest did target => execPstateRequest_keeps did target s
  | .pstateTransition => execPstateTransition_keeps s
  | .p3Wake cause => execP3Wake_keeps cause s
  | .standbyLoss => execStandbyLoss_keeps s
  | .thermalTrim junction => execThermalTrim_keeps junction s
  | .powerTrim power => execPowerTrim_keeps power s
  | .trimRelease junction power => execTrimRelease_keeps junction power s
  | .pubConfig d => execPubConfig_keeps d s
  | .pubRemove d => execPubRemove_keeps d s
  | .publicationAssemble pub => execPublicationAssemble_keeps pub s
  | .publicationTransmit port => execPublicationTransmit_keeps port s
  | .octurHello port module peerPort cols rows torus => execOcturHello_keeps port module peerPort cols rows torus s
  | .octurRetrain port => execOcturRetrain_keeps port s
  | .octurReplay port seq => execOcturReplay_keeps port seq s
  | .rdReq p held => execRdReq_keeps p held s
  | .rdResp p => execRdResp_keeps p s
  | .wrReq p held => execWrReq_keeps p held s
  | .wrAck p => execWrAck_keeps p s
  | .knotAdd p => execKnotAdd_keeps p s
  | .knotAck p => execKnotAck_keeps p s
  | .time p ta tb tc td genA genB => execTime_keeps p ta tb tc td genA genB s
  | .octurTimeSend => execOcturTimeSend_keeps s
  | .resetCmd p => execResetCmd_keeps p s
  | .resetAck p => execResetAck_keeps p s
  | .octurRequestTimeout tag => execOcturRequestTimeout_keeps tag s
  | .octReset d => execOctReset_keeps d s
  | .fldBank d => execFldBank_keeps d s
  | .fldEnc d => execFldEnc_keeps d s
  | .fldSerial d => execFldSerial_keeps d s
  | .fldDin d => execFldDin_keeps d s
  | .fieldBrownout => execFieldBrownout_keeps s
  | .fieldSupplyGood => execFieldSupplyGood_keeps s
  | .fieldFirmwareLoad => execFieldFirmwareLoad_keeps s
  | .fieldOvervoltage => execFieldOvervoltage_keeps s
  | .fieldOvervoltageRestore => execFieldOvervoltageRestore_keeps s
  | .encoderSample input edges zs illegal fault => execEncoderSample_keeps input edges zs illegal fault s
  | .serialRecord port bytes back ok => execSerialRecord_keeps port bytes back ok s
  | .digitalInputChange input held level => execDigitalInputChange_keeps input held level s
  | .triggerOverload output => execTriggerOverload_keeps output s
  | .triggerOverloadRetry output => execTriggerOverloadRetry_keeps output s
  | .safeReadback hs0 ls0 hs1 ls1 ma0 ma1 => execSafeReadback_keeps hs0 ls0 hs1 ls1 ma0 ma1 s
  | .safeTestPulse channel followed => execSafeTestPulse_keeps channel followed s
  | .linkTestStart did loop pattern => execLinkTestStart_keeps did loop pattern s
  | .linkTestStop did => execLinkTestStop_keeps did s
  | .linkTestInject did => execLinkTestInject_keeps did s
  | .extest => execExtest_keeps s
  | .samplePreload pins cells => execSamplePreload_keeps pins cells s
  | .idcode => execIdcode_keeps s
  | .extestPulse => execExtestPulse_keeps s
  | .extestTrain => execExtestTrain_keeps s
  | .dbgAccess word => execDbgAccess_keeps word s
  | .bypass code => execBypass_keeps code s
  | .productionInstruction code => execProductionInstruction_keeps code s
  | .traceSync => execTraceSync_keeps s
  | .tracePcSample cp pc => execTracePcSample_keeps cp pc s
  | .dbgMemWindowAccess did span write => execDbgMemWindowAccess_keeps did span write s
  | .ethernetLinkChange port pins => execEthernetLinkChange_keeps port pins s
  | .octurAckTimeout port => execOcturAckTimeout_keeps port s
  | .octurPacketForward p => execOcturPacketForward_keeps p s
  | .firmwareHeartbeat => execFirmwareHeartbeat_keeps s
  | .ergOperationEnd unit ecc => execErgOperationEnd_keeps unit ecc s
  | .postedStoreDone t => execPostedStoreDone_keeps t s
  | .patternCheckerSync link errors lost => execPatternCheckerSync_keeps link errors lost s

/-- Settles O4: what every command keeps, of which the queue is a part. -/
theorem commandsLeaveQueue : Obligations.CommandsLeaveQueue := fun c s => by
  obtain ⟨t, ht, hp, _⟩ := exec_keeps c s
  exact ⟨t, ht, hp⟩

/-- Settles O3: a step runs the front command on the memory it finds, and an idle cycle writes no byte. -/
theorem stepKeepsMemoryCanonical : Obligations.StepKeepsMemoryCanonical := by
  intro s t hs h
  simp only [step] at h
  split at h
  · cases h
    exact hs
  · next c rest _ =>
    obtain ⟨u, hu, _, hw⟩ := exec_keeps c { s with pending := rest }
    obtain rfl : u = t := by simpa [hu] using h
    exact hw hs

/-! ## What a step and an accepted descriptor answer -/

/-- Settles O1: `step` reads the queue alone, and the idle cycle is a change of the two clocks. -/
theorem stepAndIdle : Obligations.StepAndIdle :=
  ⟨fun _ _ => rfl, fun s h => ⟨idle s, by simp [step, h], rfl, rfl⟩⟩

/-! ### What a descriptor's run answers (R66, R70) -/

theorem runDesc_of_done {s t : State} {d : Desc} {o : OpInfo} {act : State → Answer} {st res det fl : Nat} (h : Accepted s d o)
    (ha : act (markStarted s d) = .done st res det fl t) : runDesc s d o act = finishDesc t d st res det fl := by
  obtain ⟨hmay, hok⟩ := h
  simp [runDesc, hmay, hok, ha]

theorem runDesc_of_later {s t : State} {d : Desc} {o : OpInfo} {act : State → Answer} (h : Accepted s d o)
    (ha : act (markStarted s d) = .later t) : runDesc s d o act = t := by
  obtain ⟨hmay, hok⟩ := h
  simp [runDesc, hmay, hok, ha]

section Answers
variable {c : Instr} {s t : State} {d : Desc} {o : OpInfo} {act : State → Answer} {st res det : Nat}

/-- The rule of an accepted descriptor whose operation ends well. -/
theorem completes_of_done (h : Accepted s d o) (hc : exec c s = .next (runDesc s d o act))
    (ha : act (markStarted s d) = .done stOk res det 0 t) : Completes c s d res det t := by
  rw [Completes, hc, runDesc_of_done h ha]

/-- The rule of an accepted descriptor whose check 4 fails before any effect. -/
theorem refuses_of_done (h : Accepted s d o) (hc : exec c s = .next (runDesc s d o act))
    (ha : act (markStarted s d) = failWith (markStarted s d) st) : Refuses c s d st := by
  rw [Refuses, hc, runDesc_of_done h ha]

/-- The rule of an accepted descriptor that an event completes. -/
theorem exec_of_later (h : Accepted s d o) (hc : exec c s = .next (runDesc s d o act))
    (ha : act (markStarted s d) = .later t) : exec c s = .next t := by
  rw [hc, runDesc_of_later h ha]

end Answers

/-! ## Flow descriptors -/

@[simp] theorem carried_markStarted (s : State) (d : Desc) (g f : Nat) : carried (markStarted s d) g f = carried s g f := by
  simp [carried]

@[simp] theorem flowNamed_markStarted (s : State) (d : Desc) (f : Nat) : flowNamed (markStarted s d) f = flowNamed s f := by
  simp [flowNamed]

/-- The start of a descriptor changes its flight alone in the host interface. -/
@[simp] theorem markStarted_rings (s : State) (d : Desc) :
    (markStarted s d).hif.cRings = s.hif.cRings ∧ (markStarted s d).hif.sRings = s.hif.sRings := by
  simp only [markStarted]
  split <;> simp

@[simp] theorem ringNo_markStarted (s : State) (d : Desc) (com : Bool) (fn n : Nat) : ringNo (markStarted s d) com fn n = ringNo s com fn n := by
  cases com <;> simp [ringNo, ringBlock]

theorem completes_flowConfig {s : State} {d : Desc} {g : Option Nat} (ha : Accepted s d (infoFlowConfig s d))
    (hg : (if dbit d 20 7 then some (dfld d 20 0 3) else none) = g)
    (hsame : ∀ x, s.cfg.flows.find (dfld d 16 0 12) = some x → x.cadence = dfld d 18 0 5)
    (hgrid : ∀ k, g = some k → (s.cfg.grids.find k).any (fun x => x.cadence == dfld d 18 0 5) = true ∧ carried s k (dfld d 16 0 12) = false) :
    Completes (.flowConfig d) s d 0 0 { markStarted s d with
      cfg.flows := s.cfg.flows.put (dfld d 16 0 12) { guarded := false, cadence := dfld d 18 0 5, enable := dbit d 19 0, grid := g, cring := (s.cfg.flows.find (dfld d 16 0 12)).bind (·.cring) } } := by
  refine completes_of_done ha rfl ?_
  have hold : (s.cfg.flows.find (dfld d 16 0 12)).any (fun x => x.cadence != dfld d 18 0 5) = false := by
    cases h : s.cfg.flows.find (dfld d 16 0 12) with
    | none => rfl
    | some x => simp [hsame x h]
  subst hg
  refine (if_neg ?_).trans ?_
  · split <;> simp_all
  · simp [okWith]

theorem refuses_flowConfig {s : State} {d : Desc} (ha : Accepted s d (infoFlowConfig s d))
    (hbad : (∃ x, s.cfg.flows.find (dfld d 16 0 12) = some x ∧ x.cadence ≠ dfld d 18 0 5) ∨ dbit d 20 7 = true ∧
      ((s.cfg.grids.find (dfld d 20 0 3)).any (fun g => g.cadence == dfld d 18 0 5) = false ∨ carried s (dfld d 20 0 3) (dfld d 16 0 12) = true)) :
    Refuses (.flowConfig d) s d stDescInvalid := by
  refine refuses_of_done ha rfl (if_pos ?_)
  rcases hbad with ⟨x, hx, hne⟩ | ⟨hg, hb⟩
  · simp [hx, hne]
  · left
    rcases hb with hb | hb <;> simp [hg, hb]

/-- Settles O9: FLOW_CONFIG by what makes its new entry fit, FLOW_RING and FLOW_DELETE by their own cases. -/
theorem flowDescriptors : Obligations.FlowDescriptors := by
  intro s d
  refine ⟨fun ha => ⟨?_, fun x hx hne => refuses_flowConfig ha (.inl ⟨x, hx, hne⟩)⟩, fun x hx ha => ⟨fun hr => ?_, fun c hr hno => ?_, fun hr hno => ?_⟩,
    fun hx ha => ?_, fun ha => ⟨fun hx => ?_, fun x hx hn => ?_, fun x hx hn => ?_⟩⟩
  · rintro _ rfl hsame
    exact ⟨fun hg => completes_flowConfig ha (by simp [hg]) hsame (by simp),
      fun g hg hfind hc hfree => completes_flowConfig ha (by simp [hg]) hsame (by simp [hfind, hc, hfree]),
      fun hg hbad => refuses_flowConfig ha (.inr ⟨hg, hbad⟩)⟩
  · exact completes_of_done ha rfl (by simp [hx, hr, okWith])
  · exact completes_of_done ha rfl (by simp [hx, hr, hno, okWith])
  · exact refuses_of_done ha rfl (by simp [hx, hr, hno])
  · exact refuses_of_done ha rfl (by simp [hx])
  · exact completes_of_done ha rfl (by simp [hx, okWith])
  · exact refuses_of_done ha rfl (by simp [hx, hn])
  · refine ⟨_, completes_of_done ha rfl (by simp [hx, hn, okWith]; rfl), by simp [Tbl.find_drop_same], fun g hg => by simp [Tbl.find_drop_other _ hg], by simp⟩

/-! ## Bindings of trigger outputs, actions and monitors -/

@[simp] theorem cadOf_markStarted (s : State) (d : Desc) (k : Nat) : cadOf (markStarted s d) k = cadOf s k := by
  simp [cadOf]

@[simp] theorem cadBusy_markStarted (s : State) (d : Desc) (k : Nat) : cadBusy (markStarted s d) k = cadBusy s k := by
  simp [cadBusy]

@[simp] theorem outputLive_markStarted (s : State) (d : Desc) (k : Nat) : outputLive (markStarted s d) k = outputLive s k := by
  simp [outputLive, fieldRuns]

theorem cadBusy_of_stopped {s : State} {k : Nat} (h : (cadOf s k).st = .stopped) : cadBusy s k = false := by
  simp [cadBusy, h]

/-- A new binding on a STOPPED cadence is stored, over the level that its output then holds. -/
theorem completes_trigConfig_new {s : State} {d : Desc} {o : TrigOut} (ha : Accepted s d (infoTrigConfig s d))
    (ho : o = { cadence := dfld d 17 0 5, activeLow := dbit d 18 0, enable := dbit d 18 7, enableNext := dbit d 18 7, divider := dfld d 19 0 8, divPhase := dfld d 20 0 8, offset := dfld d 24 0 64, width := dfld d 32 0 32, fired := none, activeUntil := none, resumeAt := 0 })
    (hfit : outFits (cadOf s o.cadence) o = true) (hnew : s.trig.outs.find (dfld d 16 0 5) = none) (hst : (cadOf s o.cadence).st = .stopped) :
    Completes (.trigConfig d) s d 0 0 { holdLevel (markStarted s d) (dfld d 16 0 5) none o with trig.outs := s.trig.outs.put (dfld d 16 0 5) o } := by
  subst ho
  refine completes_of_done ha rfl ?_
  simp [hfit, hnew, cadBusy_of_stopped hst, okWith]

/-- Settles O20: each binding by whether its values fit and its cadence is STOPPED. -/
theorem triggerDescriptors : Obligations.TriggerDescriptors := by
  intro s d
  refine ⟨fun o ha ho => ⟨fun hfit hnew hst => ⟨fun hl => ?_, fun hl hlow => ?_⟩, fun hfit => ?_⟩,
    fun a ha he => ⟨fun hfit hlead hp hnew hst => ?_, fun hbad => ?_⟩,
    fun c ha hc => ⟨fun hk hsrc hlo hhi => ?_, fun hbad => ?_⟩⟩
  · have h := completes_trigConfig_new ha ho hfit hnew hst
    rwa [holdLevel, if_neg (by rcases hl with hl | hl <;> simp [hl])] at h
  · have h := completes_trigConfig_new ha ho hfit hnew hst
    rwa [holdLevel, if_pos (by simp [hl, hlow]), if_pos hlow] at h
  · subst ho
    exact refuses_of_done ha rfl (if_pos (by simpa using hfit))
  · subst he
    dsimp only at hfit hst hp
    refine completes_of_done ha rfl ((if_neg ?_).trans ?_)
    · rcases hp with hp | hp
      · simpa [hlead, hp] using hfit
      · obtain ⟨q, hq⟩ := Option.isSome_iff_exists.1 hp
        simp [hfit, hlead, hq]
    · simp [hnew, cadBusy_of_stopped hst, okWith]
  · subst he
    refine refuses_of_done ha rfl (if_pos ?_)
    rcases hbad with hbad | hbad <;> simp [hbad]
  · refine ⟨_, completes_of_done ha rfl ((if_neg ?_).trans (by simp only [okWith, markStarted_keeps]; rfl)), ?_⟩
    · rcases hsrc with hsrc | hsrc <;> simp [hc, hk, hsrc] <;> omega
    · exact ⟨rfl, rfl, rfl, rfl, rfl, rfl, rfl, rfl, rfl⟩
  · refine refuses_of_done ha rfl (if_pos ?_)
    rcases hbad with hbad | hbad | hbad <;> simp [hc, hbad]

/-! ## Cadence descriptors -/

@[simp] theorem knotOf_evalWaits (s : State) (k j : Nat) : knotOf (evalWaits s k) j = knotOf s j := rfl

@[simp] theorem knotOf_setKnot_same (s : State) (k : Nat) (v : W32) : knotOf (setKnot s k v) k = { knotOf s k with value := v } := by
  rw [setKnot, knotOf_evalWaits]
  simp [knotOf]

@[simp] theorem value_setCadenceKnot_same (s : State) (heal : Bool) (c : Nat) (v : W32) : (knotOf (setCadenceKnot s heal c v) c).value = v := by
  simp [setCadenceKnot]

/-- A cadence's arming clears what it clears; no waiting enable of a stream is among it. -/
@[simp] theorem starting_armClear (s : State) (c k : Nat) : (streamOf (armClear s c) k).starting = (streamOf s k).starting := by
  simp only [streamOf, armClear, Tbl.at, Tbl.find_mapV]
  cases s.ing.streams.find k with
  | none => rfl
  | some x =>
    simp only [Option.map_some, Option.getD_some]
    split <;> rfl

@[simp] theorem armClear_keeps (s : State) (c : Nat) :
    (armClear s c).cfg = s.cfg ∧ (armClear s c).trig = s.trig ∧ (armClear s c).mem = s.mem ∧ (armClear s c).now = s.now := ⟨rfl, rfl, rfl, rfl⟩

@[simp] theorem armEgos_keeps (s : State) (c : Nat) :
    (armEgos s c).cfg = s.cfg ∧ (armEgos s c).trig = s.trig ∧ (armEgos s c).mem = s.mem ∧ (armEgos s c).now = s.now ∧ (armEgos s c).ing = s.ing :=
  ⟨rfl, rfl, rfl, rfl, rfl⟩

@[simp] theorem armFits_markStarted (s : State) (d : Desc) (k : Nat) (c : Cadence) : armFits (markStarted s d) k c = armFits s k c := by
  simp [armFits]

@[simp] theorem armUnlocked_markStarted (s : State) (d : Desc) (k : Nat) : armUnlocked (markStarted s d) k = armUnlocked s k := by
  simp [armUnlocked]

@[simp] theorem linkBusy_markStarted (s : State) (d : Desc) (k : Nat) : linkBusy (markStarted s d) k = linkBusy s k := by
  simp [linkBusy, streamOf]

@[simp] theorem lastStarted_markStarted (s : State) (d : Desc) (c : Cadence) : lastStarted (markStarted s d) c = lastStarted s c := by
  simp [lastStarted]

/-- What arming leaves of a state: nothing is left of an earlier run of the cadence (R20, R125). -/
def armed (s : State) (k n0 : Nat) : State :=
  let x : Cadence := { cadOf s k with st := .armed, start := n0, nextStart := n0, nextClose := n0, nextDeadline := n0, last := none, debt := 0, cut := 0, catchupRun := 0, reef := 0, late := 0, abandoned := 0, dCore := 0, dGrid := 0 }
  let outs := s.trig.outs.mapV (fun _ o => if o.cadence = k then { o with fired := none } else o)
  let acts := s.trig.actions.mapV (fun _ a => if a.cadence = k then { a with sent := none, held := none } else a)
  let s := setCad { s with trig.outs := outs, trig.actions := acts, live := s.live.put k { Tbl.at s.cfg s.live k with streams := s.cfg.streams } } k x
  setCadenceKnot (armEgos (armClear s k) k) false k (BitVec.ofNat 32 n0)

theorem cadOf_armed (s : State) (k n0 : Nat) :
    cadOf (armed s k n0) k = { cadOf s k with st := .armed, start := n0, nextStart := n0, nextClose := n0, nextDeadline := n0, last := none, debt := 0, cut := 0, catchupRun := 0, reef := 0, late := 0, abandoned := 0, dCore := 0, dGrid := 0 } := by
  simp [armed, cadOf, setCad]

theorem starting_armed (s : State) (k n0 : Nat) : starting (armed s k n0) k = starting s k := by
  have h j : (streamOf (armed s k n0) j).starting = (streamOf s j).starting := by
    simp only [armed, streamOf, setCadenceKnot_keeps, armEgos_keeps]
    exact starting_armClear _ k j
  have hc : (armed s k n0).cfg = s.cfg := by simp [armed]
  simp only [starting, h, hc]

theorem completes_cadArm {s : State} {d : Desc} (ha : Accepted s d (infoCadArm s d)) (hst : (cadOf s (dfld d 16 0 5)).st = .stopped)
    (hok : cadParamsOk (cadOf s (dfld d 16 0 5)) = true) (hfits : armFits s (dfld d 16 0 5) (cadOf s (dfld d 16 0 5)) = true)
    (hlate : s.now + 10000000 ≤ (cadOf s (dfld d 16 0 5)).acqStart (dfld d 24 0 64)) (hlock : armUnlocked s (dfld d 16 0 5) = false)
    (hlink : linkBusy s (dfld d 16 0 5) = false) (hstart : starting s (dfld d 16 0 5) = false) :
    Completes (.cadArm d) s d ((cadOf s (dfld d 16 0 5)).acqStart (dfld d 24 0 64) % 2 ^ 64) 0 (armed (markStarted s d) (dfld d 16 0 5) (dfld d 24 0 64)) := by
  have hs : starting (armed (markStarted s d) (dfld d 16 0 5) (dfld d 24 0 64)) (dfld d 16 0 5) = false := by
    rw [starting_armed]
    simpa [starting, streamOf] using hstart
  refine completes_of_done ha rfl ((if_neg ?_).trans ((if_neg (ne_true_of_eq_false hs)).trans ?_))
  · simp [hst, hok, hfits, hlock, hlink, hlate]
  · simp [okWith, armed]

/-- Settles O19: the state that arming leaves is `armed`, of which the statement's fields are read off. -/
theorem cadenceDescriptors : Obligations.CadenceDescriptors := by
  rintro s d _ _ rfl rfl
  refine ⟨fun x ha hx => ⟨fun hok htrim hst => ?_, fun hbad => ?_⟩, fun ha hst hok hfits hlate hlock hlink hstart => ?_,
    fun ha => ⟨fun hst => ?_, fun hst => ?_, fun hst => ?_⟩, fun x ha hx => ⟨fun hg hm => ?_, fun hg => ?_⟩⟩
  · subst hx
    refine completes_of_done ha rfl ((if_neg ?_).trans ?_)
    · simpa [htrim, hst] using hok
    · simp [okWith]
  · subst hx
    refine refuses_of_done ha rfl (if_pos ?_)
    rcases hbad with hbad | hbad | hbad <;> simp [hbad]
  · exact ⟨_, completes_cadArm ha hst hok hfits hlate hlock hlink hstart, by simp [cadOf_armed], by simp [cadOf_armed], by simp [cadOf_armed],
      by simp [cadOf_armed], by simp [armed], by simp [armed], by simp [armed]⟩
  · exact completes_of_done ha rfl (by simp [hst, okWith, noEpoch])
  · exact completes_of_done ha rfl (by simp [hst, okWith, noEpoch])
  · exact completes_of_done ha rfl (by simp [hst, okWith])
  · refine completes_of_done ha rfl ?_
    simp [hx, hg, hm, okWith]
  · exact refuses_of_done ha rfl (by simp [hx, hg])

/-! ## Ports, partners, programs and tags -/

@[simp] theorem ingPort_markStarted (s : State) (d : Desc) (p : Nat) : ingPort (markStarted s d) p = ingPort s p := by
  simp [ingPort]

@[simp] theorem portUp_markStarted (s : State) (d : Desc) (p : Nat) : portUp (markStarted s d) p = portUp s p := by
  simp [portUp]

@[simp] theorem cadArmed_markStarted (s : State) (d : Desc) (c : Nat) : cadArmed (markStarted s d) c = cadArmed s c := by
  simp [cadArmed]

@[simp] theorem streamOf_markStarted (s : State) (d : Desc) (k : Nat) : streamOf (markStarted s d) k = streamOf s k := by
  simp [streamOf]

@[simp] theorem streamsOf_markStarted (s : State) (d : Desc) (k : Nat) : streamsOf (markStarted s d) k = streamsOf s k := by
  simp [streamsOf]

@[simp] theorem syncE_markStarted (s : State) (d : Desc) : syncE (markStarted s d) = syncE s := by
  simp [syncE]

@[simp] theorem portBusy_markStarted (s : State) (d : Desc) (p : Nat) : portBusy (markStarted s d) p = portBusy s p := by
  simp [portBusy]

@[simp] theorem programUsed_markStarted (s : State) (d : Desc) (p : Nat) : programUsed (markStarted s d) p = programUsed s p := by
  simp [programUsed]

/-- Settles O22: each descriptor by whether its values fit, over what the start of a descriptor leaves alone. -/
theorem intakeDescriptors : Obligations.IntakeDescriptors := by
  intro s d
  refine ⟨?_, ?_, fun ha => ⟨fun hk => ?_, fun hk => ?_⟩, fun ha => ⟨fun hbad => ?_, fun hal hfree st bs u hr => ⟨fun hst => ?_, fun hst => ?_⟩⟩, ?_, fun ha => ?_⟩
  · rintro p speed rfl rfl ha
    refine ⟨?_, fun hbad => ?_⟩
    · rintro y rfl hp hsp h8 hbusy
      have hok : ¬(9 < dfld d 16 0 4 ∨ 4 < dfld d 17 0 3 ∨ (8 ≤ dfld d 16 0 4 ∧ 3 ≤ dfld d 17 0 3) ∨ portBusy (markStarted s d) (dfld d 16 0 4) = true) := by
        simp [hbusy]
        omega
      refine ⟨fun hsame => ?_, fun hdiff => ?_⟩
      · refine completes_of_done ha rfl ((if_neg hok).trans ?_)
        simp [hsame, okWith]
      · refine completes_of_done ha rfl ((if_neg hok).trans ?_)
        simp [hdiff, okWith]
    · refine refuses_of_done ha rfl (if_pos ?_)
      simpa using hbad
  · rintro k x rfl rfl ha
    refine ⟨fun hp hm hf hkey => ?_, fun hbad => ?_⟩
    · refine completes_of_done ha rfl ((if_neg ?_).trans ?_)
      · simpa [hp, hm, hf] using hkey
      · simp [okWith]
    · refine refuses_of_done ha rfl (if_pos ?_)
      simpa using hbad
  · exact refuses_of_done ha rfl (if_pos (by simpa using hk))
  · refine ⟨_, completes_of_done ha rfl ((if_neg (by simpa using hk)).trans rfl), ?_, ?_⟩
    · simp [Tbl.find_drop_same]
    · rw [show s.ing.partners = (markStarted s d).ing.partners by simp]
  · exact refuses_of_done ha rfl (if_pos (by simpa using hbad))
  · refine completes_of_done ha rfl ((if_neg (by simp [hal, hfree])).trans ?_)
    simp [hr, hst, okWith]
  · refine congrArg Host.Outcome.next (runDesc_of_done ha ((if_neg (by simp [hal, hfree])).trans ?_))
    simp [hr, hst, failWith]
  · rintro k r rfl ha rfl
    refine ⟨fun hk => refuses_of_done ha rfl (by simp [hk]), fun c hc => ⟨fun hkind hcount h1 h2 h3 h4 hdis => ?_, fun hbad => ?_⟩⟩
    all_goals dsimp only at *
    · refine completes_of_done ha rfl ?_
      simp only [markStarted_keeps, hc]
      refine (if_neg ?_).trans (by simp [okWith])
      rintro (h | h | h | h | h | h | ⟨hne, htaken⟩)
      case inr.inr.inr.inr.inr.inr =>
        obtain ⟨p, hp, hb⟩ := List.any_eq_true.1 htaken
        simp only [Bool.and_eq_true, bne_iff_ne, List.any_eq_true, decide_eq_true_eq] at hb
        obtain ⟨hk, t, ht, hlo, hhi⟩ := hb
        have := hdis.resolve_left hne p hp hk t ht
        omega
      all_goals omega
    · refine refuses_of_done ha rfl ?_
      simp only [markStarted_keeps, hc]
      refine if_pos ?_
      rcases hbad with h | h | h | h | h | h | ⟨hne, p, hp, hk, t, ht, hlo, hhi⟩
      case inr.inr.inr.inr.inr.inr =>
        refine .inr (.inr (.inr (.inr (.inr (.inr ⟨hne, List.any_eq_true.2 ⟨p, hp, ?_⟩⟩)))))
        simpa [hk] using ⟨t, ht, hlo, hhi⟩
      all_goals simp [h]
  · exact completes_of_done ha rfl (by simp)

/-! ## Stream descriptors -/

@[simp] theorem streamGuarded_markStarted (s : State) (d : Desc) (k : Nat) : streamGuarded (markStarted s d) k = streamGuarded s k := by
  simp [streamGuarded]

@[simp] theorem sourceOk_markStarted (s : State) (d : Desc) (k : Nat) (c : StreamCfg) : sourceOk (markStarted s d) k c = sourceOk s k c := by
  simp [sourceOk]

@[simp] theorem newStream_markStarted (s : State) (d : Desc) (k : Nat) : newStream (markStarted s d) k = newStream s k := by
  simp [newStream]

@[simp] theorem streamNamed_markStarted (s : State) (d : Desc) (k : Nat) : streamNamed (markStarted s d) k = streamNamed s k := by
  simp [streamNamed]

@[simp] theorem streamCfg_markStarted (s : State) (d : Desc) (k : Nat) : streamCfg (markStarted s d) k = streamCfg s k := by
  simp [streamCfg, cfgFor]

@[simp] theorem streamOf_dropReception (s : State) (k j : Nat) : streamOf (dropReception s k) j = streamOf s j := rfl

theorem endStarting_of_none {s : State} {k : Nat} (h : (streamOf s k).starting = none) (st : Nat) : endStarting s k st = s := by
  simp [endStarting, h]

theorem releaseArming_of_nil {s : State} (h : s.trig.arming = []) : releaseArming s = s := by
  have : s = { s with trig.arming := [] } := by rw [← h]
  simp only [releaseArming, h]
  exact this.symm

/-- Settles O23: each descriptor by its cases; where no enable and no arming waits, a disable ends nothing. -/
theorem streamDescriptors : Obligations.StreamDescriptors := by
  rintro s d k rfl
  refine ⟨?_, fun ha hk => ?_, fun c ha hk => ⟨fun hen hon => ?_, fun hen hon hkind => ⟨fun harm => ?_, fun harm => ?_⟩, fun hen hon hkind hst => ?_,
    fun hen hon harm => ?_, fun hen hoff => ⟨fun hst harm => ?_, ?_⟩⟩, fun ha => ⟨fun hk => ?_, fun c hk hg => ?_, fun c hk hg => ⟨fun hbad => ?_, fun hon hn => ?_⟩⟩, ?_, fun ha hk => ?_⟩
  · rintro _ c rfl hc ha
    have hfields : c.kind = dfld d 17 0 3 ∧ c.slotLog2 = dfld d 22 0 5 ∧ c.slotsLog2 = dfld d 23 0 4 ∧ c.base = dfld d 24 0 48 ∧ c.format = dfld d 44 0 4 := by
      subst hc
      exact ⟨rfl, rfl, rfl, rfl, rfl⟩
    refine ⟨fun h1 h2 h3 h4 h5 h6 h7 h8 => ?_, fun hbad => ?_⟩
    · simp only [hfields] at h1 h3 h4 h5 h6 h7 h8
      refine ⟨fun hg => ?_, fun hg hm => ?_⟩
      · refine completes_of_done ha rfl ?_
        simp only [markStarted_keeps, newStream_markStarted, sourceOk_markStarted, streamGuarded_markStarted, ← hc]
        rw [if_neg (by simp [h2]; omega), if_neg (by rcases hg with hg | hg <;> simp [hg])]
        rfl
      · refine refuses_of_done ha rfl ?_
        simp only [markStarted_keeps, newStream_markStarted, sourceOk_markStarted, streamGuarded_markStarted, ← hc]
        rw [if_neg (by simp [h2]; omega), if_pos ⟨hg, hm⟩]
    · refine refuses_of_done ha rfl ?_
      simp only [markStarted_keeps, newStream_markStarted, sourceOk_markStarted, streamGuarded_markStarted, ← hc]
      simp only [hfields] at hbad
      rw [if_pos (by simpa using hbad)]
  · exact refuses_of_done ha rfl (by simp [hk])
  · exact completes_of_done ha rfl (by simp [hk, hen, hon, okWith])
  · exact completes_of_done ha rfl (by rcases hkind with hkind | hkind <;> simp [hk, hen, hon, hkind, harm, okWith])
  · exact completes_of_done ha rfl (by rcases hkind with hkind | hkind <;> simp [hk, hen, hon, hkind, harm, okWith])
  · exact exec_of_later ha rfl (by simp [hk, hen, hon, hkind, hst])
  · exact completes_of_done ha rfl (by simp [hk, hen, hon, harm, okWith])
  · have hs : (streamOf (dropReception (markStarted s d) (dfld d 16 0 7)) (dfld d 16 0 7)).starting = none := by simpa using hst
    have hact : releaseArming (updStream (endStarting (dropReception (markStarted s d) (dfld d 16 0 7)) (dfld d 16 0 7) stAborted) (dfld d 16 0 7) (fun x => { x with enabled := false, joining := false })) =
        setStream (dropReception (markStarted s d) (dfld d 16 0 7)) (dfld d 16 0 7) { streamOf s (dfld d 16 0 7) with enabled := false, joining := false } := by
      rw [endStarting_of_none hs, releaseArming_of_nil (by simpa [updStream, setStream, dropReception] using harm), updStream, streamOf_dropReception, streamOf_markStarted]
    refine completes_of_done ha rfl ?_
    rcases hoff with hoff | hoff <;> simp [hk, hen, hoff, okWith, hact]
  · refine completes_of_done ha rfl ?_
    rcases hoff with hoff | hoff <;> simp [hk, hen, hoff, okWith]
  · exact completes_of_done ha rfl (by simp [hk, okWith])
  · exact refuses_of_done ha rfl (by simp [hk, hg])
  · exact refuses_of_done ha rfl (by rcases hbad with hbad | hbad <;> simp [hk, hg, hbad])
  · refine ⟨_, completes_of_done ha rfl (by simp [hk, hg, hon, hn, okWith]; rfl), Tbl.find_drop_same _ _, ?_, Tbl.find_drop_same _ _, ?_, fun j hj => ⟨Tbl.find_drop_other _ hj, ?_⟩, by simp⟩
    · simp [streamOf, Tbl.at, Tbl.find_drop_same]
    · intro c x hx
      simp only [Tbl.find_mapV] at hx
      obtain ⟨y, _, rfl⟩ := Option.map_eq_some_iff.1 hx
      exact Tbl.find_drop_same _ _
    · simp [streamOf, Tbl.at, Tbl.find_drop_other _ hj]
  · rintro c pattern len rfl rfl ha hk
    refine ⟨fun h1 h2 h3 h4 => ?_, fun h1 h2 h3 h4 h5 st bs u hr => ⟨fun hst => ?_, fun hst => ?_⟩, fun hbad => ?_⟩
    · exact exec_of_later ha rfl (by rcases h4 with h4 | h4 <;> simp_all)
    · refine congrArg Host.Outcome.next (runDesc_of_done ha ?_)
      rcases h5 with h5 | h5 <;> rcases h2 with h2 | h2 | h2 <;> simp [hk, h1, h2, h3, h4, h5, hr, hst, failWith]
    · refine exec_of_later ha rfl ?_
      rcases h5 with h5 | h5 <;> rcases h2 with h2 | h2 | h2 <;> simp [hk, h1, h2, h3, h4, h5, hr, hst]
    · refine refuses_of_done ha rfl ?_
      simp only [streamCfg_markStarted, hk, streamOf_markStarted, cadOf_markStarted]
      refine if_pos ?_
      rcases hbad with ⟨hk, h | ⟨h1, h2⟩⟩ | ⟨h1, h2⟩ | ⟨h1, h2⟩ | ⟨h1, h2⟩ <;> simp [*]
  · exact refuses_of_done ha rfl (by simp [hk])

/-! ## The end of ALIGN and the sequences of a skipped flow -/

/-- The run of an advisory flow in mode SKIP. -/
def skippedRun : FlowRun :=
  { newRun State.reset (newEpoch State.reset 0 0) 0 { guarded := false, cadence := 0, enable := true, grid := none, cring := none } with mode := 2 }

/-- An epoch in catch-up, aligning, in which the flow is skipped. -/
def skippedEpoch : Epoch := { newEpoch State.reset 0 0 with closed := true, cut := 1, flows := [skippedRun] }

/-- A sequence of the flow with a position pending for the epoch. -/
def pendingSeq : Seq :=
  { active := true, failed := false, guarded := false, ownerDid := 1, pool := 0, policy := 0, layers := 1, heads := 1, width := 32, format := 2, flow := 0, reservedPages := 4, stallUs := 1000, base := 0x200000, first := 0, count := 0, firstPage := 0, held := [0], pending := some 0, appended := [0], waiting := [], slides := 0, exhausted := 0, discarded := 0 }

/-- The state before the end of ALIGN: DID 1's addresses are mapped one to one. -/
def skippedState : State :=
  { State.reset with
    epochs := [skippedEpoch]
    spl.tables := [(0, { epoch := 0, tov := 0, close := 0, streams := [], queries := [], tags := [], cut := false, ended := none })]
    seq.seqs := [(0, pendingSeq)]
    mmu.ctx := [(1, { Context.reset with enable := true, runs := [⟨0, 1048576, 0, true, true, false, false, 0, 0⟩] })] }

theorem alignEnd_discards_pending : (match exec (.alignEnd 0) skippedState with | .next u => u.mem == skippedState.mem | _ => true) = false := by
  decide +kernel

/-- Refutes O26: where a flow is skipped (R138), its work ends at the end of ALIGN, and the position that its sequence still holds open is discarded:
its time word is written as invalid (R379), so the end of ALIGN does not leave every byte of memory. -/
theorem not_spliceCommands : ¬ Obligations.SpliceCommands := by
  intro h
  obtain ⟨-, -, -, -, -, halign, -⟩ := h skippedState ⟨.ended, 0, 0⟩
  have hepoch : aligning skippedState 0 = some skippedEpoch := by decide +kernel
  obtain ⟨u, hu, -, -, -, -, -, -, hmem⟩ := (halign 0 skippedEpoch _ hepoch rfl).1
  simpa [hu, hmem] using alignEnd_discards_pending

/-! ## The memory descriptors -/

/-! ### Pages that a list of runs maps (R427) -/

theorem findRun_isSome (runs : List LeafRun) (p : Nat) : (findRun runs p).isSome = runs.any (·.covers p) := by
  rw [Bool.eq_iff_iff, findRun, List.find?_isSome, List.any_eq_true]

theorem covers_iff {r : LeafRun} {p : Nat} : r.covers p = true ↔ r.va ≤ p ∧ p < r.va + r.pages := by
  simp [LeafRun.covers]

/-- A run without pages covers none, so leaving it out changes no page. -/
theorem any_covers_filter (l : List LeafRun) (p : Nat) : (l.filter (fun x => x.pages ≠ 0)).any (·.covers p) = l.any (·.covers p) := by
  rw [List.any_filter]
  refine congrArg (List.any l) (funext fun r => ?_)
  by_cases h : r.pages = 0
  · have : r.covers p = false := by
      simp only [LeafRun.covers, h]
      simp
    simp [h, this]
  · simp [h]

/-- Cutting a mapping into large and small leaves keeps its pages. -/
theorem any_covers_mapRuns (r : LeafRun) (large : Bool) (p : Nat) : (mapRuns r large).any (·.covers p) = r.covers p := by
  simp only [mapRuns]
  split
  · next h =>
    simp only [Bool.and_eq_true, decide_eq_true_eq] at h
    obtain ⟨_, hpre⟩ := h
    rw [any_covers_filter]
    have hmid : (r.pages - (512 - r.va % 512) % 512) / 512 * 512 ≤ r.pages - (512 - r.va % 512) % 512 := Nat.div_mul_le_self _ _
    generalize (r.pages - (512 - r.va % 512) % 512) / 512 * 512 = mid at hmid
    generalize (512 - r.va % 512) % 512 = pre at hpre hmid
    rw [Bool.eq_iff_iff]
    simp only [List.any_cons, List.any_nil, Bool.or_false, Bool.or_eq_true, covers_iff]
    omega
  · simp

/-- A part of a run as `cutRun` leaves it covers its own pages. -/
theorem any_covers_part (r : LeafRun) (off len p : Nat) :
    (if len = 0 then [] else if r.large = true then mapRuns { r with va := r.va + off, pages := len, large := false, page := r.page + off } true
      else [{ r with va := r.va + off, pages := len, page := r.page + off }]).any (·.covers p) = (decide (r.va + off ≤ p) && decide (p < r.va + off + len)) := by
  split
  · simp
    omega
  · split
    · rw [any_covers_mapRuns]
      rfl
    · simp [LeafRun.covers]

/-- What is left of a run are its pages outside the range. -/
theorem any_covers_cutRun (page n : Nat) (r : LeafRun) (p : Nat) :
    (cutRun page n r).any (·.covers p) = (r.covers p && !(decide (page ≤ p) && decide (p < page + n))) := by
  simp only [cutRun]
  split
  · next h =>
    simp only [pagesMeet, Bool.not_eq_true', Bool.and_eq_false_iff, decide_eq_false_iff_not] at h
    rw [Bool.eq_iff_iff]
    simp [covers_iff]
    omega
  · next h =>
    simp only [pagesMeet, Bool.not_eq_true, Bool.not_eq_false', Bool.and_eq_true, decide_eq_true_eq] at h
    rw [any_covers_filter, List.any_append, any_covers_part, any_covers_part, Bool.eq_iff_iff]
    simp [covers_iff]
    omega

theorem findRun_unmapped_isSome (runs : List LeafRun) (page n p : Nat) :
    (findRun (runs.flatMap (cutRun page n)) p).isSome = ((findRun runs p).isSome && !(decide (page ≤ p) && decide (p < page + n))) := by
  rw [findRun_isSome, findRun_isSome, List.any_flatMap]
  simp only [any_covers_cutRun]
  induction runs with
  | nil => rfl
  | cons r runs ih => simp only [List.any_cons, ih, Bool.and_or_distrib_right]
/-! ### The MMU's descriptors (R427 to R434) -/

@[simp] theorem sequenceOwns_markStarted (s : State) (d : Desc) (m p n : Nat) : sequenceOwns (markStarted s d) m p n = sequenceOwns s m p n := by
  simp [sequenceOwns]

@[simp] theorem fwAllows_markStarted (s : State) (d : Desc) (m pa : Nat) (write guarded : Bool) :
    fwAllows (markStarted s d) m pa write guarded = fwAllows s m pa write guarded := by
  simp [fwAllows, regionOf]

@[simp] theorem fwGrants_markStarted (s : State) (d : Desc) (m p n : Nat) (r w : Bool) : fwGrants (markStarted s d) m p n r w = fwGrants s m p n r w := by
  simp [fwGrants]

/-- The context byte holds its flag in the top bit of five. -/
theorem dfld_five (d : Desc) (b : Nat) : dfld d b 0 5 = dfld d b 0 4 + if dbit d b 4 then 16 else 0 := by
  simp only [dfld, dbit, bitsOf, show 8 * b + 4 = (8 * b + 0) + 4 from rfl]
  rw [← Nat.testBit_shiftRight, Nat.testBit_eq_decide_div_mod_eq]
  simp only [decide_eq_true_eq]
  split <;> omega

theorem mmuContext_own {d : Desc} (h : dfld d 38 0 5 = 0) : mmuContext d = some d.did := by
  rw [dfld_five] at h
  have hb : dbit d 38 4 = false := by
    by_contra hb
    simp [hb] at h
  have h4 : dfld d 38 0 4 = 0 := by omega
  simp [mmuContext, hb, h4]

theorem authority_of_descChecks {s : State} {d : Desc} {o : OpInfo} (h : descChecks s d o = stOk) : o.authority = true := by
  by_contra ha
  simp only [descChecks, Bool.not_eq_true] at h ha
  repeat' split at h
  all_goals simp_all [stDescInvalid, stNotAuth, stOk]

/-- Settles O28: the page-range checks are arithmetic, and what UNMAP leaves is read off page by page. -/
theorem mmuDescriptors : Obligations.MmuDescriptors := by
  intro s d
  refine ⟨mmuContext_own, fun hb hd => by simp [mmuContext, hb, hd], fun hb hd => ?_, fun hm => ⟨fun ha => ?_, fun ha => ?_, fun ha => ?_⟩, ?_, ?_⟩
  · have : ¬d.did ≤ 1 := by omega
    simp [mmuContext, hb, this]
  · exact refuses_of_done ha rfl (by simp [hm])
  · exact refuses_of_done ha rfl (by simp [hm])
  · exact refuses_of_done ha rfl (by simp [hm])
  · rintro m c n va hm rfl rfl rfl
    refine ⟨fun ha => ⟨?_, fun hbad => ?_⟩, fun ha hva hn hn' hend => ⟨fun hu => ?_, fun hu => ?_⟩, fun ha => ⟨fun hva hr => ?_, fun r hva hr => ?_, fun hva => ?_⟩⟩
    · rintro target ta leaf rfl rfl rfl h1 h2 h3 h4 h5 h6 h7 h8 h9 h10 h11
      refine ⟨fun ht hf => refuses_of_done ha rfl ?_, fun hf => completes_of_done ha rfl ?_⟩
      all_goals
        simp only [hm, mmuVa, mmuPages, markStarted_keeps, sequenceOwns_markStarted, fwGrants_markStarted]
        rw [if_neg (by simp [h1, h2, h5, h6]; omega), if_neg (by simp [h7, h8]), if_neg (by rintro (⟨ht, _⟩ | ⟨ht, _⟩ | ⟨ht, _⟩) <;> grind)]
      · rw [if_pos ⟨ht, by simp [hf]⟩]
      · rw [if_neg (by rintro ⟨ht, h⟩; simp [hf ht] at h)]
        rfl
    · refine refuses_of_done ha rfl ?_
      simp only [hm, mmuVa, mmuPages, markStarted_keeps, sequenceOwns_markStarted, fwGrants_markStarted]
      split
      · rfl
      · rw [if_pos (by grind)]
    · refine ⟨_, { Tbl.at Context.reset s.mmu.ctx m with runs := (Tbl.at Context.reset s.mmu.ctx m).runs.flatMap (cutRun (dfld d 16 0 64 / 65536) (dfld d 32 0 32)) },
        completes_of_done ha rfl ?_, rfl, rfl, fun p hlo hhi => ?_, fun p hout => ?_⟩
      · simp only [hm, mmuVa, mmuPages, markStarted_keeps]
        rw [if_neg (by simp [hva, hn, hu]; omega)]
        rfl
      · rw [← Option.not_isSome_iff_eq_none, findRun_unmapped_isSome]
        simp [hlo, hhi]
      · rw [findRun_unmapped_isSome]
        have : (decide (dfld d 16 0 64 / 65536 ≤ p) && decide (p < dfld d 16 0 64 / 65536 + dfld d 32 0 32)) = false := by
          simp
          omega
        simp [this]
    · refine refuses_of_done ha rfl ?_
      simp only [hm, mmuVa, mmuPages, markStarted_keeps]
      rw [if_pos (by simp [hu])]
    · exact completes_of_done ha rfl (by simp [hm, mmuVa, hr]; omega)
    · exact completes_of_done ha rfl (by simp [hm, mmuVa, hr]; omega)
    · refine refuses_of_done ha rfl ?_
      simp only [hm, mmuVa]
      exact if_pos hva
  · rintro k rfl
    refine ⟨fun ha => ⟨fun hle => ⟨_, rfl, completes_of_done ha rfl ?_⟩, fun hlt => refuses_of_done ha rfl ?_⟩, fun hk ha => ?_, fun hmay hc => ?_⟩
    · simp [Nat.not_lt.2 hle, okWith]
    · simp [hlt]
    · have hauth := authority_of_descChecks ha.2
      simp only [infoMmuFwSet, Bool.and_eq_true, decide_eq_true_eq] at hauth
      split at hauth <;> simp at hauth <;> omega
    · simp [exec, execMmuFwSet, runDesc, hmay, hc, stNotAuth, stOk]

/-! ## The BAR2 window and the memory controllers -/

/-! ### Accesses inside one page (R423 to R433) -/

/-- A write that stays inside a page is one segment. -/
theorem devWrite_eq_writeSeg {s : State} {w : Who} {va : Nat} {bs : List Byte} (hne : bs ≠ []) (hfit : va % 65536 + bs.length ≤ 65536) :
    devWrite s w va bs = writeSeg s w va bs := by
  have hlen : min bs.length (65536 - va % 65536) = bs.length := by omega
  have hempty : bs.isEmpty = false := by simpa using hne
  rw [devWrite, devWriteGo]
  simp only [hempty, hlen, List.take_length, List.drop_length]
  rcases writeSeg s w va bs with ⟨st, t⟩
  by_cases h : st = stOk
  · simp [h, devWriteGo]
  · simp [h]

/-- A read that stays inside a page is one segment, of which a failing read gives no byte. -/
theorem devRead_eq_readSeg {s : State} {w : Who} {va n : Nat} (hn : n ≠ 0) (hfit : va % 65536 + n ≤ 65536) :
    devRead s w va n = ((readSeg s w va n).1, if (readSeg s w va n).1 = stOk then (readSeg s w va n).2.1 else [], (readSeg s w va n).2.2) := by
  have hlen : min n (65536 - va % 65536) = n := by omega
  rw [devRead, devReadGo]
  simp only [hn, hlen, if_false]
  rcases readSeg s w va n with ⟨st, bs, t⟩
  by_cases h : st = stOk
  · simp [h, devReadGo]
  · simp [h]

@[simp] theorem translate_tlbTouch (s : State) (w : Who) (va did a : Nat) (write : Bool) : translate (tlbTouch s w va) did a write = translate s did a write := by
  simp [translate]

@[simp] theorem fwAllows_tlbTouch (s : State) (w : Who) (va did pa : Nat) (write guarded : Bool) :
    fwAllows (tlbTouch s w va) did pa write guarded = fwAllows s did pa write guarded := by
  simp [fwAllows, regionOf]

/-- Every fault of the address check is a translation fault. -/
theorem translate_error {s : State} {did va st lv : Nat} {write : Bool} (h : translate s did va write = .error (st, lv)) : st = stTranslation := by
  simp only [translate] at h
  repeat' split at h
  all_goals simp_all

theorem writeSeg_local {s : State} {w : Who} {va pa : Nat} {bs : List Byte} (ht : translate s w.did va true = .ok (.localMem pa))
    (hf : fwAllows s w.did pa true w.guarded = true) :
    writeSeg s w va bs = (stOk, dramWrite (cacheTouch (tlbTouch s w va) w.did w.guarded true pa bs.length) pa bs) := by
  simp [writeSeg, ht, hf]

theorem readSeg_local {s : State} {w : Who} {va pa n : Nat} (ht : translate s w.did va false = .ok (.localMem pa))
    (hf : fwAllows s w.did pa false w.guarded = true) (hp : poisonedIn s pa n = none) :
    readSeg s w va n = (stOk, Memory.reads s.mem (Space.key .dram pa) n, cacheTouch (tlbTouch s w va) w.did w.guarded false pa n) := by
  have hp' : poisonedIn (cacheTouch (tlbTouch s w va) w.did w.guarded false pa n) pa n = none := hp
  simp [readSeg, ht, hf, hp']

theorem readSeg_error {s : State} {w : Who} {va n st lv : Nat} (ht : translate s w.did va false = .error (st, lv)) :
    readSeg s w va n = (st, [], memFault (tlbTouch s w va) w va false st lv) := by
  simp [readSeg, ht]

/-- DID 2 as requester through the BAR2 window (R55). -/
def windowWho : Who := { did := 2, guarded := false, kind := 4, index := 0x0200, flows := [] }

theorem exec_bar2_write {s : State} {off : Nat} {bs : List Byte} (hs : staged s off bs.length = false) :
    exec (.bar2WindowAccess true off bs) s = .next (devWrite s windowWho (s.hif.winBaseHi * 2 ^ 32 + off % 2 ^ 32) bs).2 := by
  rw [windowWho]
  simp [exec, execBar2WindowAccess, hs]

/-- What a read through the window answers the host. -/
def windowAnswer (n : Nat) (r : Nat × List Byte × State) : State :=
  if r.1 = stOk then emit r.2.2 (.windowData r.2.1)
  else if r.1 = stInternal then emit (tickFresh r.2.2) (.windowData (extBytes (Config.freeByte r.2.2.fresh) 0 n))
  else emit r.2.2 (.windowData (List.replicate n 0xFF))

theorem exec_bar2_read {s : State} {off : Nat} {bs : List Byte} (hs : staged s off bs.length = false) :
    exec (.bar2WindowAccess false off bs) s = .next (windowAnswer bs.length (devRead s windowWho (s.hif.winBaseHi * 2 ^ 32 + off % 2 ^ 32) bs.length)) := by
  rw [windowWho]
  simp only [exec, execBar2WindowAccess, hs, windowAnswer, Bool.false_eq_true, if_false]
  rcases devRead s _ _ bs.length with ⟨st, b, t⟩
  simp only
  split
  · rfl
  · split <;> rfl

/-- A write through the window that its context maps to local memory stores exactly its bytes (R55, R433). -/
theorem bar2_write_of_mapped {s : State} {off va pa : Nat} {bs : List Byte} (hva : va = s.hif.winBaseHi * 2 ^ 32 + off % 2 ^ 32)
    (hs : staged s off bs.length = false) (hfit : va % 65536 + bs.length ≤ 65536) (hne : bs ≠ []) (ht : translate s 2 va true = .ok (.localMem pa))
    (hf : fwAllows s 2 pa true false = true) :
    exec (.bar2WindowAccess true off bs) s = .next (dramWrite (cacheTouch (tlbTouch s windowWho va) 2 false true pa bs.length) pa bs) := by
  rw [exec_bar2_write hs, ← hva, devWrite_eq_writeSeg hne hfit, writeSeg_local (w := windowWho) ht hf, windowWho]

/-- A read through the window that its context maps to local memory answers its bytes (R55, R433). -/
theorem bar2_read_of_mapped {s : State} {off va pa : Nat} {bs : List Byte} (hva : va = s.hif.winBaseHi * 2 ^ 32 + off % 2 ^ 32)
    (hs : staged s off bs.length = false) (hfit : va % 65536 + bs.length ≤ 65536) (hne : bs ≠ []) (ht : translate s 2 va false = .ok (.localMem pa))
    (hf : fwAllows s 2 pa false false = true) (hp : poisonedIn s pa bs.length = none) :
    exec (.bar2WindowAccess false off bs) s =
      .next (emit (cacheTouch (tlbTouch s windowWho va) 2 false false pa bs.length) (.windowData (Memory.reads s.mem (Space.key .dram pa) bs.length))) := by
  rw [exec_bar2_read hs, ← hva, devRead_eq_readSeg (by simpa using hne) hfit, readSeg_local (w := windowWho) ht hf hp, windowWho]
  simp only [windowAnswer, if_true]

/-- A read of a page that its context does not map answers all ones (R55, R430). -/
theorem bar2_read_of_fault {s : State} {off va st lv : Nat} {bs : List Byte} (hva : va = s.hif.winBaseHi * 2 ^ 32 + off % 2 ^ 32)
    (hs : staged s off bs.length = false) (hfit : va % 65536 + bs.length ≤ 65536) (hne : bs ≠ []) (ht : translate s 2 va false = .error (st, lv)) :
    exec (.bar2WindowAccess false off bs) s =
      .next (emit (memFault (tlbTouch s windowWho va) windowWho va false st lv) (.windowData (List.replicate bs.length 0xFF))) := by
  obtain rfl := translate_error ht
  rw [exec_bar2_read hs, ← hva, devRead_eq_readSeg (by simpa using hne) hfit, readSeg_error (w := windowWho) ht]
  simp [windowAnswer, stTranslation, stOk, stInternal]

/-- What a write to local memory changes beside the bytes: the caches and the poison it clears. -/
theorem dramWrite_frame (s : State) (w : Who) (va pa n did : Nat) (g wr : Bool) (bs : List Byte) :
    { dramWrite (cacheTouch (tlbTouch s w va) did g wr pa n) pa bs with mem := s.mem, mmu.poison := s.mmu.poison, tlb := s.tlb } = s := by
  simp [dramWrite, clearPoison, cacheTouch, tlbTouch]

theorem dramWrite_mem (s : State) (w : Who) (va pa n did : Nat) (g wr : Bool) (bs : List Byte) :
    (dramWrite (cacheTouch (tlbTouch s w va) did g wr pa n) pa bs).mem = Memory.writes s.mem (Space.key .dram pa) bs := by
  simp [dramWrite, clearPoison, cacheTouch, tlbTouch]

/-! ### The scrubber and the read of MR4 (R418 to R420) -/

theorem mem_insertLine (l : Nat) (ks : List Nat) : l ∈ insertLine ks l := by
  induction ks with
  | nil => simp [insertLine]
  | cons k ks ih =>
    simp only [insertLine]
    split
    · simp_all
    · split <;> simp_all

theorem satAdd_sixteen_one (n : Nat) : satAdd 16 n 1 = min (n + 1) 65535 := by
  simp [satAdd]

/-- Whether the scrubber of a controller falls behind its sweep's schedule by moving on one line (R419). -/
def scrubLate (s : State) (c : MemCtl) : Bool :=
  decide ((c.scrub + 1 + mcLines / 100) * (c.period * 3600 * 10 ^ 9) < (s.up - c.sweepAt) * mcLines)

/-- A controller whose scrubber has moved on by one line within its sweep. -/
def scrubbed (c : MemCtl) (late : Bool) : MemCtl := { c with scrub := c.scrub + 1, behind := late }

@[simp] theorem scrubbed_counts (c : MemCtl) (late : Bool) : (scrubbed c late).ce = c.ce ∧ (scrubbed c late).ue = c.ue := ⟨rfl, rfl⟩

section Controllers
variable {s : State} {mc : Nat} {c : MemCtl} (hmc : mc < 8) (hc : c = Tbl.at MemCtl.reset s.mmu.mcs mc)
include hmc hc

theorem exec_scrub (ecc : Nat) (hnext : c.scrub + 1 < mcLines) : exec (.memPatrolScrub mc ecc) s =
    if ecc = 1 then .next { s with mmu.mcs := s.mmu.mcs.put mc { scrubbed c (scrubLate s c) with ce := satAdd 16 (scrubbed c (scrubLate s c)).ce 1 } }
    else if ecc = 2 ∧ !s.mmu.poison.contains (paOfLocal mc (c.scrub * 64) / 64) then
      .next (raiseUe { s with mmu.mcs := s.mmu.mcs.put mc { scrubbed c (scrubLate s c) with ue := satAdd 16 (scrubbed c (scrubLate s c)).ue 1, ueAddr := paOfLocal mc (c.scrub * 64) }, mmu.poison := insertLine s.mmu.poison (paOfLocal mc (c.scrub * 64) / 64) } (paOfLocal mc (c.scrub * 64)) false 0 [])
    else .next { s with mmu.mcs := s.mmu.mcs.put mc (scrubbed c (scrubLate s c)) } := by
  have h8 : ¬ 8 ≤ mc := by omega
  have hw : decide (mcLines ≤ c.scrub + 1) = false := by simpa using hnext
  rw [exec, execMemPatrolScrub, if_neg h8, ← hc]
  extract_lets _ pa wrap next start late c'
  have hwrap : wrap = false := hw
  have hlate : c' = scrubbed c (scrubLate s c) := by
    simp only [c', late, start, next, hwrap, Bool.false_eq_true, if_false, scrubbed, scrubLate]; rfl
  clear_value c'
  subst hlate
  rfl
theorem exec_scrub_clean (hnext : c.scrub + 1 < mcLines) :
    exec (.memPatrolScrub mc 0) s = .next { s with mmu.mcs := s.mmu.mcs.put mc (scrubbed c (scrubLate s c)) } := by
  rw [exec_scrub hmc hc 0 hnext, if_neg (by simp), if_neg (by simp)]

theorem exec_scrub_corrected (hnext : c.scrub + 1 < mcLines) :
    exec (.memPatrolScrub mc 1) s = .next { s with mmu.mcs := s.mmu.mcs.put mc { scrubbed c (scrubLate s c) with ce := satAdd 16 (scrubbed c (scrubLate s c)).ce 1 } } := by
  rw [exec_scrub hmc hc 1 hnext, if_pos rfl]

theorem exec_scrub_uncorrectable (hnext : c.scrub + 1 < mcLines) (hp : s.mmu.poison.contains (paOfLocal mc (c.scrub * 64) / 64) = false) :
    exec (.memPatrolScrub mc 2) s = .next (raiseUe { s with mmu.mcs := s.mmu.mcs.put mc { scrubbed c (scrubLate s c) with ue := satAdd 16 (scrubbed c (scrubLate s c)).ue 1, ueAddr := paOfLocal mc (c.scrub * 64) }, mmu.poison := insertLine s.mmu.poison (paOfLocal mc (c.scrub * 64) / 64) } (paOfLocal mc (c.scrub * 64)) false 0 []) := by
  rw [exec_scrub hmc hc 2 hnext, if_neg (by simp), if_pos ⟨rfl, by rw [hp]; rfl⟩]

omit hmc hc in
theorem raiseUe_frame (t : State) (pa : Nat) (g : Bool) (did : Nat) (fl : List Nat) : (raiseUe t pa g did fl).mmu = t.mmu ∧ (raiseUe t pa g did fl).mem = t.mem := by
  simp [raiseUe]

theorem scrub_of_uncorrectable (hnext : c.scrub + 1 < mcLines) (hp : s.mmu.poison.contains (paOfLocal mc (c.scrub * 64) / 64) = false) :
    ∃ t, exec (.memPatrolScrub mc 2) s = .next t ∧ (Tbl.at MemCtl.reset t.mmu.mcs mc).ue = min (c.ue + 1) 65535 ∧
      (Tbl.at MemCtl.reset t.mmu.mcs mc).ueAddr = paOfLocal mc (c.scrub * 64) ∧ paOfLocal mc (c.scrub * 64) / 64 ∈ t.mmu.poison ∧ t.mem = s.mem := by
  refine ⟨_, exec_scrub_uncorrectable hmc hc hnext hp, ?_⟩
  rw [(raiseUe_frame _ _ _ _ _).1, (raiseUe_frame _ _ _ _ _).2]
  exact ⟨by simp only [Tbl.at_put_same, satAdd_sixteen_one, scrubbed_counts], by rw [Tbl.at_put_same], mem_insertLine _ _, rfl⟩

/-- A code above the temperature limit sets `hot`, and the record is raised over it. -/
theorem mr4_above (k : Nat) :
    ∃ t, exec (.dramMr4Read mc k true) s = .next t ∧ Tbl.at MemCtl.reset t.mmu.mcs mc = { c with mr4 := k % 8, hot := true } ∧ t.mem = s.mem := by
  have h8 : ¬ 8 ≤ mc := by omega
  refine ⟨_, by simp only [exec, execDramMr4Read, h8, ← hc, if_false, if_true]; rfl, ?_, ?_⟩
  · simp [icuSet]
  · simp [icuSet]

theorem mr4_within (k : Nat) :
    exec (.dramMr4Read mc k false) s = .next (icuSet { s with mmu.mcs := s.mmu.mcs.put mc { c with mr4 := k % 8, hot := c.hot } } (176 + mc) c.hot) := by
  have h8 : ¬ 8 ≤ mc := by omega
  simp [exec, execDramMr4Read, h8, ← hc]

end Controllers

/-- Settles O29: an access inside one page is one segment, translated and filtered once, and the controllers' events change one controller. -/
theorem memoryAccesses : Obligations.MemoryAccesses := by
  intro s off bs va hva
  refine ⟨fun hs => ⟨?_, ?_⟩, fun pa hs hfit hne ht hf => ?_, fun pa hs hfit hne ht hf hp hb => ?_, fun st lv hs hfit hne ht hb => ?_,
    fun mc c hmc hc hnext => ⟨?_, ?_, scrub_of_uncorrectable hmc hc hnext, mr4_within hmc hc, mr4_above hmc hc⟩⟩
  · exact if_pos hs
  · exact if_pos hs
  · refine ⟨_, bar2_write_of_mapped hva hs hfit hne ht hf, dramWrite_mem .., fun k hk => ?_, dramWrite_frame ..⟩
    have hout : k < Space.key .dram pa ∨ Space.key .dram pa + bs.length ≤ k := by
      by_contra hin
      exact hk (k - Space.key .dram pa) (by omega) (by omega)
    rw [dramWrite_mem]
    exact Memory.read_writes_outside s.mem bs hout
  · refine ⟨_, bar2_read_of_mapped hva hs hfit hne ht hf hp, ?_, ?_⟩
    · simp [emit, hb, cacheTouch, tlbTouch]
    · simp [emit, hb, cacheTouch, tlbTouch]
  · refine ⟨_, bar2_read_of_fault hva hs hfit hne ht, ?_, ?_, ?_, ?_, ?_⟩
    · simp [emit, memFault, hb]
    · simp
    · simp [memFault, windowWho]
    · simp [memFault, windowWho]
    · simp [memFault]
  · exact ⟨_, _, exec_scrub_clean hmc hc hnext, by rw [Tbl.at_put_same, scrubbed], rfl⟩
  · refine ⟨_, exec_scrub_corrected hmc hc hnext, ?_, ?_, rfl⟩
    · simp only [Tbl.at_put_same, satAdd_sixteen_one, scrubbed_counts]
    · simp only [Tbl.at_put_same, scrubbed_counts]

/-! ## Knots -/

/-! ### Signals and waits of one knot (R92) -/

theorem dfld_lt (d : Desc) (byte bit len : Nat) : dfld d byte bit len < 2 ^ len := Nat.mod_lt _ (by positivity)

/-- A knot after a signal to it alone. -/
theorem applyCycle_single (s : State) (x : Signal) (h : (knotOf s x.knot).st ≠ .poisoned) :
    applyCycle s [x] = setKnot s x.knot (if x.set then x.value else (knotOf s x.knot).value + x.value) := by
  have hone : [x.knot].eraseDups = [x.knot] := rfl
  cases hx : x.set <;> simp [applyCycle, cycleKnot, bestSet, h, hx, hone]

@[simp] theorem markStarted_knots (s : State) (d : Desc) : (markStarted s d).knots.knots = s.knots.knots := by
  simp only [markStarted]
  split
  · simp
  · simp only [leaveInner]
    split <;> simp
  · simp

@[simp] theorem knotOf_markStarted (s : State) (d : Desc) (k : Nat) : knotOf (markStarted s d) k = knotOf s k := by
  simp [knotOf]

/-- A signal of a descriptor sets or adds, and answers the knot's new value. -/
theorem exec_kSignal_of_accepted {s : State} {d : Desc} {k : Nat} (hk : k = dfld d 16 0 13) (ha : Accepted s d (infoKSignal s d))
    (hst : (knotOf s k).st ≠ .poisoned) (hv : dbit d 18 0 = true ∨ dfld d 20 0 32 ≠ 0 ∧ dfld d 20 0 32 < 2 ^ 31) :
    let v := BitVec.ofNat 32 (dfld d 20 0 32)
    let w := if dbit d 18 0 then v else (knotOf s k).value + v
    Completes (.kSignal d) s d w.toNat 0 (setKnot (markStarted s d) k w) := by
  intro v w
  subst hk
  refine completes_of_done ha rfl ((if_neg ?_).trans ((if_neg ?_).trans ?_))
  · rcases hv with hset | hadd
    · simp [hset]
    · have hlt := hadd.2
      simp only [hadd.1, false_or, not_and, not_le]
      exact fun _ => hlt
  · simpa [kIndex] using hst
  · rw [applyCycle_single _ _ (by simpa [descSignal, kIndex] using hst)]
    simp [descSignal, kIndex, okWith, w, v]

/-! ### Threads that are woken -/

theorem thread_wakeThread_same (s : State) (t : Nat) : (thread (wakeThread s t) t).st = .ready := by
  simp [wakeThread, updThread]

theorem thread_wakeThread_other (s : State) {t u : Nat} (h : u ≠ t) : thread (wakeThread s t) u = thread s u :=
  thread_setThread_other s _ h

theorem thread_wakeThreads (ts : List Nat) (s : State) (t : Nat) (h : t ∈ ts ∨ (thread s t).st = .ready) :
    (thread (ts.foldl wakeThread s) t).st = .ready := by
  induction ts generalizing s with
  | nil => simpa using h
  | cons u ts ih =>
    refine ih _ ?_
    by_cases hu : t = u
    · exact .inr (hu ▸ thread_wakeThread_same s t)
    · rw [thread_wakeThread_other s hu]
      simpa [hu] using h

theorem wakeThreads_frame (ts : List Nat) (s : State) :
    (ts.foldl wakeThread s).eng.waits = s.eng.waits ∧ (ts.foldl wakeThread s).knots = s.knots ∧ (ts.foldl wakeThread s).mem = s.mem := by
  induction ts generalizing s with
  | nil => simp
  | cons u ts ih => exact ih (wakeThread s u)

/-- Effects that turn out to be none keep every knot and every byte. -/
theorem together_frame_of_id (s : State) (f : State → State) (hf : f s = s) (hc : f { s with hif.batch := some [], knots.cycle := some [] } = { s with hif.batch := some [], knots.cycle := some [] }) :
    (together s f).knots.knots = s.knots.knots ∧ (together s f).mem = s.mem := by
  simp only [together]
  split
  · simp [hf]
  · simp [hc, applyCycle]

theorem raise_frame (s : State) (r : Report) : (raise s r).knots = s.knots ∧ (raise s r).mem = s.mem := by simp

/-! ### The events of the knots -/

/-- A knot on which nothing waits only becomes POISONED. -/
theorem exec_knotPoisoned {s : State} {k : Nat} (hk : k < 8192) (hnone : waitingOn s k = []) (hwaits : ∀ w ∈ s.eng.waits, w.2.knot ≠ k) :
    ∃ t, exec (.knotPoisoned k) s = .next t ∧ (knotOf t k).st = .poisoned ∧ (knotOf t k).value = (knotOf s k).value ∧ t.mem = s.mem := by
  have hthreads : s.eng.waits.filter (fun w => w.2.knot == k) = [] := by simpa [List.filter_eq_nil_iff] using hwaits
  let u : State := { s with knots.knots := s.knots.knots.put k { knotOf s k with st := .poisoned } }
  let f : State → State := fun v => (waitingOn v k).foldl (fun v d => finishDesc v d stInternal 0 0 0) v
  have hf : f u = u := congrArg (List.foldl _ u) hnone
  have hc : f { u with hif.batch := some [], knots.cycle := some [] } = { u with hif.batch := some [], knots.cycle := some [] } :=
    congrArg (List.foldl _ _) hnone
  obtain ⟨hknots, hmem⟩ := together_frame_of_id u f hf hc
  refine ⟨_, by simp only [exec, execKnotPoisoned, not_le.2 hk, if_false, hthreads, Tbl.keys, List.map_nil, List.foldl_nil]; rfl, ?_, ?_, ?_⟩
  · change (Tbl.at Knot.reset (raise (together u f) _).knots.knots k).st = _
    rw [(raise_frame _ _).1, hknots, Tbl.at_put_same]
  · change (Tbl.at Knot.reset (raise (together u f) _).knots.knots k).value = _
    rw [(raise_frame _ _).1, hknots, Tbl.at_put_same]
  · change (raise (together u f) _).mem = _
    rw [(raise_frame _ _).2, hmem]
theorem exec_knotWaitRelease (s : State) (k : Nat) :
    ∃ t, exec (.knotWaitRelease k) s = .next t ∧ (∀ w ∈ t.eng.waits, ¬(w.2.knot = k ∧ w.2.satisfied = true)) ∧
      (∀ w ∈ s.eng.waits, w.2.knot = k → w.2.satisfied = true → (thread t w.1).st = .ready) ∧ t.knots.knots = s.knots.knots ∧ t.mem = s.mem := by
  refine ⟨_, rfl, ?_, fun w hw hk hs => ?_, ?_, ?_⟩
  · rw [(wakeThreads_frame _ _).1]
    intro w hw
    simpa [imp_iff_not_or] using (List.mem_filter.1 hw).2
  · exact thread_wakeThreads _ _ _ (.inl (List.mem_map.2 ⟨w, List.mem_filter.2 ⟨hw, by simp [hk, hs]⟩, rfl⟩))
  · rw [(wakeThreads_frame _ _).2.1]
  · rw [(wakeThreads_frame _ _).2.2]

/-- Settles O11: a descriptor's signal is a cycle of one signal, and a release wakes exactly the threads whose waits go. -/
theorem knots : Obligations.Knots := by
  refine ⟨fun s d k n hk hn => ⟨fun ha => ?_, fun ha => ⟨?_, ?_, ?_, ?_⟩, fun ha => ⟨?_, ?_⟩, fun ha => ⟨?_, ?_, ?_, ?_⟩⟩,
    fun s k => ⟨exec_knotWaitRelease s k, ?_, ?_, ?_⟩⟩
  · subst hk
    exact completes_of_done ha rfl (by simp [okWith, setKnot, knotOf, kIndex])
  · intro hst hset
    have h := exec_kSignal_of_accepted hk ha (hn ▸ hst) (.inl hset)
    have hmod : dfld d 20 0 32 % 4294967296 = dfld d 20 0 32 := Nat.mod_eq_of_lt (dfld_lt d 20 0 32)
    simpa [hset, setKnot, ← hn, hmod] using h
  · intro hst hset h0 hv
    have h := exec_kSignal_of_accepted hk ha (hn ▸ hst) (.inr ⟨h0, hv⟩)
    simpa [hset, setKnot, ← hn] using h
  · intro hset hv
    exact refuses_of_done ha rfl (if_pos (by simpa [hset] using hv))
  · intro hst hv
    subst hk
    refine refuses_of_done ha rfl ((if_neg ?_).trans (if_pos ?_))
    · rcases hv with hset | ⟨h0, hlt⟩
      · simp [hset]
      · simp only [h0, false_or, not_and, not_le]
        exact fun _ => hlt
    · simpa [kIndex, ← hn] using hst
  · intro hst
    subst hk
    exact refuses_of_done ha rfl (if_pos (by simpa [kIndex, ← hn] using hst))
  · intro hst
    subst hk
    refine completes_of_done ha rfl ((if_neg (by simpa [kIndex, ← hn] using hst)).trans ?_)
    simp [kIndex, okWith, ← hn]
  · intro hst
    subst hk
    exact completes_of_done ha rfl (if_pos (by simpa [kIndex, ← hn] using hst))
  · intro hst
    subst hk
    exact refuses_of_done ha rfl ((if_neg (by simp [kIndex, ← hn, hst])).trans (if_pos (by simpa [kIndex, ← hn] using hst)))
  · intro hf hp hw
    subst hk
    refine completes_of_done ha rfl ((if_neg (by simpa [kIndex, ← hn] using hf)).trans ((if_neg (by simpa [kIndex, ← hn] using hp)).trans ((if_neg (by simpa [kIndex] using hw)).trans ?_)))
    simp [kIndex, okWith]
  · intro hf hp hw
    subst hk
    exact refuses_of_done ha rfl ((if_neg (by simpa [kIndex, ← hn] using hf)).trans ((if_neg (by simpa [kIndex, ← hn] using hp)).trans (if_pos hw)))
  · intro d src turn hd hst
    simp only [exec, execKnotWaitRetry, hd]
    exact congrArg _ (if_neg hst)
  · intro src turn hd
    simp only [exec, execKnotWaitRetry, hd]
  · exact fun hk hnone hwaits => exec_knotPoisoned hk hnone hwaits

/-! ## Queues -/

/-! ### Queues and their contexts (R83 to R90) -/

@[simp] theorem queueOf_markStarted (s : State) (d : Desc) (q : Nat) : queueOf (markStarted s d) q = queueOf s q := by
  simp [queueOf]

theorem queue_count_eq_zero_iff (x : Queue) : x.count = 0 ↔ x.head = x.tail := by
  rw [Queue.count]
  bv_omega

/-- The command of an accepted descriptor on a sound queue that its DID may use acts on the queue. -/
theorem completes_of_queueOp {c : Instr} {s t : State} {d : Desc} {o : OpInfo} {free : State → Answer} {act : State → Queue → Answer} {res det : Nat}
    (ha : Accepted s d o) (hc : exec c s = .next (queueOp s d o free act)) {x : Queue} (hx : x = queueOf s (qIndex d)) (hact : x.active = true)
    (huse : x.usable d.did = true) (hok : x.pointersOk = true) (h : act (markStarted s d) x = .done stOk res det 0 t) : Completes c s d res det t := by
  subst hx
  simp only [queueOp] at hc
  refine completes_of_done ha hc ((if_neg ?_).trans ((if_neg ?_).trans ((if_neg ?_).trans h)))
  · simp [huse]
  · simp [hok]
  · simp [hact]

theorem refuses_of_queueOp {c : Instr} {s : State} {d : Desc} {o : OpInfo} {free : State → Answer} {act : State → Queue → Answer} {st : Nat}
    (ha : Accepted s d o) (hc : exec c s = .next (queueOp s d o free act)) {x : Queue} (hx : x = queueOf s (qIndex d)) (hact : x.active = true)
    (huse : x.usable d.did = true) (hok : x.pointersOk = true) (h : act (markStarted s d) x = failWith (markStarted s d) st) : Refuses c s d st := by
  subst hx
  simp only [queueOp] at hc
  refine refuses_of_done ha hc ((if_neg ?_).trans ((if_neg ?_).trans ((if_neg ?_).trans h)))
  · simp [huse]
  · simp [hok]
  · simp [hact]

/-- A reset of a queue without blocked producers (R89). -/
theorem queueReset_frame {s : State} {q : Nat} (hb : (queueOf s q).blocked = []) :
    (queueOf (queueReset s q) q).head = 0 ∧ (queueOf (queueReset s q) q).tail = 0 ∧ (queueOf (queueReset s q) q).pointersOk = true ∧
      (queueOf (queueReset s q) q).resets = satAdd 4 (queueOf s q).resets 1 ∧ (queueReset s q).qmu.total = satAdd 32 s.qmu.total 1 ∧ (queueReset s q).mem = s.mem := by
  have hb' : (Tbl.at Queue.reset s.qmu.queues q).blocked = [] := hb
  simp [queueReset, hb', queueOf, setQueue, Queue.pointersOk]

/-- Settles O12: an operation on a sound queue acts on the context it finds, and the sweep acts on its copies alone. -/
theorem queues : Obligations.Queues := by
  refine ⟨fun s d q x hq hx => ⟨fun ha => ?_, fun hact huse hok => ⟨fun ha => ⟨fun heq hb => ?_, fun hne => ?_, fun hb => ?_⟩, fun ha => ?_⟩⟩, fun s q x hx => ⟨?_, ?_, ?_, ?_, ?_⟩⟩
  · intro hfree hw4 hw8 hn4 hn16 hbase hdata hspace
    subst hq
    refine completes_of_done ha rfl ((if_neg ?_).trans ((if_neg ?_).trans ((if_neg ?_).trans ?_)))
    · rw [qIndex, ← hx, hfree]
      simp only [hbase, Bool.false_eq_true, ne_eq, not_true_eq_false, or_false]
      omega
    · simp [linkCheck, qLink, hdata]
    · simp [linkCheck, qLink, hspace]
    · simp [okWith, setQueue, qLink, hdata, hspace, qIndex, ← hx, Queue.reset]
  · subst hq
    refine completes_of_queueOp ha rfl hx hact huse hok ((if_neg ?_).trans ?_)
    · simp [(queue_count_eq_zero_iff x).2 heq, hb]
    · simp [okWith, setQueue, qIndex]
  · subst hq
    refine refuses_of_queueOp ha rfl hx hact huse hok (if_pos ?_)
    rcases hne with hne | hb
    · exact .inl (mt (queue_count_eq_zero_iff x).1 hne)
    · simp [hb]
  · subst hq
    refine completes_of_queueOp (o := infoQFlush s d) ha rfl hx hact huse hok ?_
    simp [hb, okWith, setQueue, qIndex, Queue.count]
  · subst hq
    exact completes_of_queueOp ha rfl hx hact huse hok rfl
  · intro hb
    simp [exec, execBlockedEnqueueResume, serveBlocked, ← hx, hb]
  · intro p ps u hb hok hroom hpush
    have hroom' : ¬ x.count ≥ 2 ^ x.entriesLog2 := not_le.2 hroom
    simp [exec, execBlockedEnqueueResume, serveBlocked, ← hx, hb, hok, hroom', hpush]
  · intro hq hok
    subst hx
    have hok' : (queueOf { s with qmu.sweep := (q + 1) % 131072 } q).pointersOk = true := hok
    simp [exec, execQmuBackgroundSweep, Nat.mod_eq_of_lt hq, hok']
  · intro hq
    simp [exec, execQmuBackgroundSweep, Nat.mod_eq_of_lt hq]
  · intro hq hok hb _
    subst hx
    have hok' : (queueOf { s with qmu.sweep := (q + 1) % 131072 } q).pointersOk = false := hok
    refine ⟨_, ?_, queueReset_frame (s := { s with qmu.sweep := (q + 1) % 131072 }) hb⟩
    simp [exec, execQmuBackgroundSweep, Nat.mod_eq_of_lt hq, hok']

/-! ## Sequences and their pages -/

/-! ### Sequences, their pools and their pages (R369 to R380) -/

@[simp] theorem seqOf_markStarted (s : State) (d : Desc) (k : Nat) : seqOf (markStarted s d) k = seqOf s k := by
  simp [seqOf]

@[simp] theorem poolOf_markStarted (s : State) (d : Desc) (p : Nat) : poolOf (markStarted s d) p = poolOf s p := by
  simp [poolOf]

@[simp] theorem attendReads_markStarted (s : State) (d : Desc) (k lo hi : Nat) : attendReads (markStarted s d) k lo hi = attendReads s k lo hi := by
  simp [attendReads]

@[simp] theorem unmapSeqPages_seq (l : List Nat) (did : Nat) (page : Nat → Nat) (s : State) :
    (l.foldl (fun s i => unmapSeqPage s did (page i)) s).seq = s.seq := by
  induction l generalizing s with
  | nil => rfl
  | cons i l ih => exact ih _

/-- What a return of pages does to the sequences and to the pool. -/
theorem returnPages_seq (s : State) (k n : Nat) (q : Seq) :
    (returnPages s k n q).seq.seqs = s.seq.seqs.put k { q with held := q.held.drop n, firstPage := q.firstPage + n } ∧
      (poolOf (returnPages s k n q) q.pool).taken = (poolOf s q.pool).taken.filter (fun i => !(q.held.take n).contains i) := by
  simp [returnPages, setSeq, setPool, poolOf]

theorem drop_put_same {α : Type} (t : Tbl α) (k : Nat) (x : α) : Tbl.drop (t.put k x) k = Tbl.drop t k := by
  induction t with
  | nil => simp [Tbl.put, Tbl.drop]
  | cons p t ih =>
    simp only [Tbl.put]
    split
    · next h => simp [Tbl.drop, h]
    · split <;> simp_all [Tbl.drop, List.filter_cons]

/-- Effects of one cycle that turn out to be none keep the sequences. -/
theorem together_id_seq (s : State) : (together s fun s => s).seq = s.seq := by
  simp only [together]
  split <;> simp [applyCycle]

/-- A sequence whose destruction aborts no APPEND leaves the tables, and its pages the pool. -/
theorem destroySeq_of_idle {s : State} {k : Nat} {q : Seq} (hw : q.waiting = []) :
    (destroySeq s k q).seq.seqs = Tbl.drop s.seq.seqs k ∧ (destroySeq s k q).mem = s.mem ∧ ∀ i ∈ (poolOf (destroySeq s k q) q.pool).taken, i ∉ q.held := by
  obtain ⟨hseqs, htaken⟩ := returnPages_seq s k q.held.length q
  have hseq : (destroySeq s k q).seq = { (returnPages s k q.held.length q).seq with seqs := (returnPages s k q.held.length q).seq.seqs.drop k } := by
    simp only [destroySeq, hw, List.foldl_nil, together_id_seq]
  refine ⟨?_, (destroySeq_kept s k q).2, fun i hi => ?_⟩
  · rw [hseq, hseqs, drop_put_same]
  · have hpool : poolOf (destroySeq s k q) q.pool = poolOf (returnPages s k q.held.length q) q.pool := by simp [poolOf, hseq]
    rw [hpool, htaken, List.take_length] at hi
    simpa using (List.mem_filter.1 hi).2

theorem seqAccess_of_owner {d : Desc} {q : Seq} (h : q.ownerDid = d.did ∨ d.did ≤ 1) : seqAccess d q = stOk ∨ seqAccess d q = stInternal := by
  have hown : ¬ (q.ownerDid ≠ d.did ∧ 1 < d.did) := by omega
  rw [seqAccess, if_neg hown]
  cases q.failed <;> simp

/-- A SEQ_DESTROY or SEQ_TRIM of a sequence that may be used waits where `freeOp` does, and else takes effect. -/
theorem startFreeOp_of_access {s : State} {d : Desc} {q : Seq} {failedOk : Bool} (h : seqAccess d q = stOk ∨ seqAccess d q = stInternal ∧ failedOk = true) :
    startFreeOp s d (some q) failedOk = .later ((freeOp s d).getD { s with seq.blocked := s.seq.blocked ++ [d] }) := by
  have hpass : ¬ (seqAccess d q ≠ stOk ∧ (!(failedOk && seqAccess d q == stInternal)) = true) := by
    rcases h with h | ⟨h, hf⟩
    · simp [h]
    · simp [h, hf]
  rw [startFreeOp, if_neg hpass]
  cases freeOp s d <;> rfl

theorem freeOp_of_destroy {s : State} {d : Desc} {k : Nat} {q : Seq} (hk : k = dfld d 16 0 14) (hq : seqOf s k = some q) (hop : dOpcode d = 0x0C02) :
    freeOp s d = if attendReads s k 0 (2 ^ 64) then none else some (together s fun s => finishDesc (destroySeq s k q) d stOk q.held.length 0 0) := by
  subst hk
  simp only [freeOp, hq, hop, if_true]

theorem freeOp_of_trim {s : State} {d : Desc} {k n : Nat} {q : Seq} (hk : k = dfld d 16 0 14) (hq : seqOf s k = some q) (hop : dOpcode d ≠ 0x0C02)
    (hn : n = trimCount q (dfld d 24 0 64)) :
    freeOp s d = if attendReads s k (q.firstPage * q.rpp) ((q.firstPage + n) * q.rpp) then none else some (finishDesc (trimSeq s k q n) d stOk n 0 0) := by
  subst hk hn
  simp only [freeOp, hq, hop, if_false]

/-- What a trim leaves of the sequence: its later pages, and the positions on them. -/
theorem trimSeq_find (s : State) (k n : Nat) (q : Seq) :
    ∃ r, (trimSeq s k q n).seq.seqs.find k = some r ∧ r.held = q.held.drop n ∧ r.firstPage = q.firstPage + n ∧
      (n ≠ 0 → (q.firstPage + n) * q.rpp ≤ q.first + q.count → q.first ≤ (q.firstPage + n) * q.rpp →
        r.first = (q.firstPage + n) * q.rpp ∧ r.first + r.count = q.first + q.count) := by
  simp only [trimSeq, (returnPages_seq _ _ _ _).1, Tbl.find_put_same]
  refine ⟨_, rfl, rfl, rfl, fun hn hhi hlo => ?_⟩
  simp only [hn, if_false]
  generalize (q.firstPage + n) * q.rpp = m at hhi hlo
  omega

/-! ### The clauses of the descriptors -/

section Clauses
variable {s : State} {d : Desc} {k : Nat} {q : Seq}

theorem exec_seqDestroy (hk : k = dfld d 16 0 14) (hq : seqOf s k = some q) (ha : Accepted s d (infoSeqDestroy s d)) (hop : dOpcode d = 0x0C02)
    (hown : q.ownerDid = d.did ∨ d.did ≤ 1) : exec (.seqDestroy d) s = .next (if attendReads s k 0 (2 ^ 64) then { markStarted s d with seq.blocked := s.seq.blocked ++ [d] }
      else together (markStarted s d) fun u => finishDesc (destroySeq u k q) d stOk q.held.length 0 0) := by
  have hq' : seqOf (markStarted s d) k = some q := by simpa using hq
  have haccess : seqAccess d q = stOk ∨ seqAccess d q = stInternal ∧ true = true := by simpa using seqAccess_of_owner hown
  refine exec_of_later ha rfl ?_
  rw [← hk, hq, startFreeOp_of_access haccess, freeOp_of_destroy hk hq' hop, attendReads_markStarted]
  split <;> simp

theorem exec_seqTrim {n : Nat} (hk : k = dfld d 16 0 14) (hq : seqOf s k = some q) (ha : Accepted s d (infoSeqTrim s d)) (hop : dOpcode d ≠ 0x0C02)
    (haccess : seqAccess d q = stOk) (hn : n = trimCount q (dfld d 24 0 64)) :
    exec (.seqTrim d) s = .next (if attendReads s k (q.firstPage * q.rpp) ((q.firstPage + n) * q.rpp) then { markStarted s d with seq.blocked := s.seq.blocked ++ [d] }
      else finishDesc (trimSeq (markStarted s d) k q n) d stOk n 0 0) := by
  have hq' : seqOf (markStarted s d) k = some q := by simpa using hq
  refine exec_of_later ha rfl ?_
  rw [← hk, hq, startFreeOp_of_access (.inl haccess), freeOp_of_trim hk hq' hop hn, attendReads_markStarted]
  split <;> simp

theorem seqInfo_clauses (hk : k = dfld d 16 0 14) (hq : seqOf s k = some q) (ha : Accepted s d (infoSeqInfo s d)) :
    (seqAccess d q = stOk → Completes (.seqInfo d) s d q.first q.count (markStarted s d)) ∧
      (q.ownerDid ≠ d.did → 1 < d.did → Refuses (.seqInfo d) s d stFirewall) := by
  refine ⟨fun h => completes_of_done ha rfl ?_, fun hne hlt => refuses_of_done ha rfl ?_⟩
  · simp [← hk, hq, h]
  · simp [← hk, hq, seqAccess, hne, hlt, stFirewall, stOk]

end Clauses

theorem markStarted_frame (s : State) (d : Desc) : (markStarted s d).cfg = s.cfg ∧ (markStarted s d).seq = s.seq := by simp

/-- A stall time of 0 stands for 1,000 µs (R375), which is in range. -/
theorem stallUs_gt_iff (n : Nat) : 1000000 < (if n = 0 then 1000 else n) ↔ 1000000 < n := by
  split <;> omega

/-- Settles O42: a free operation waits exactly where an attend reads the pages that it returns. -/
theorem sequenceManagement : Obligations.SequenceManagement := by
  intro s d k
  refine ⟨fun p n hp hn ha => ⟨fun h => ?_, fun h hok => ?_⟩, fun q hk ha hq => ⟨fun h => ?_, ?_⟩, fun q hk hq => ⟨fun ha => seqInfo_clauses hk hq ha, fun ha hop hown => ⟨fun h => ?_, fun h => ?_⟩,
    fun hw t ht => ht ▸ destroySeq_of_idle hw, fun n ha hop hacc hn => ⟨fun h => ?_, fun h => ?_⟩⟩, fun hnone => ⟨fun ha => ?_, fun ha hop => ?_, fun ha hop => ?_⟩, fun h hh ha => ⟨?_, ?_, ?_⟩⟩
  · subst hp hn
    exact refuses_of_done ha rfl (if_pos (by simpa using h))
  · subst hp hn
    refine completes_of_done ha rfl ((if_neg ?_).trans (by simp [okWith]))
    simp only [markStarted_keeps, h]
    rcases hok with hoff | ⟨h1, hmax, hbase⟩
    · simp [hoff]
    · simp only [hbase, Bool.false_eq_true, false_or, ne_eq, not_true_eq_false, or_false, not_and]
      omega
  · subst hk hq
    refine refuses_of_done ha rfl (if_pos ?_)
    simp only [stallUs_gt_iff] at h
    simpa using h
  · intro hnew hen hown hunguarded hpol hrpp hres hlen hstall hbase htop hflow hrange
    subst hk
    refine completes_of_done ha rfl ((if_neg ?_).trans (by rw [hq]))
    subst hq
    have hstall' := mt (stallUs_gt_iff _).2 (not_lt.2 hstall)
    rw [seqOf_markStarted, poolOf_markStarted, (markStarted_frame s d).1, hnew, hen, hflow, hrange]
    simp only [hown, hunguarded, hpol, hrpp, hres, hbase, not_lt.2 hlen, hstall', not_lt.2 htop]
    simp
  · rw [exec_seqDestroy hk hq ha hop hown, if_neg (by rw [h]; exact Bool.false_ne_true)]
  · rw [exec_seqDestroy hk hq ha hop hown, if_pos h]
  · rw [exec_seqTrim hk hq ha hop hacc hn, if_pos h]
  · obtain ⟨r, hr⟩ := trimSeq_find (markStarted s d) k n q
    exact ⟨_, r, by rw [Completes, exec_seqTrim hk hq ha hop hacc hn, if_neg (by simp [h])], hr⟩
  · exact refuses_of_done ha rfl (by simp [hnone])
  · exact refuses_of_done ha rfl (by simp [hnone, startFreeOp, hop])
  · exact completes_of_done ha rfl (by simp [hnone, startFreeOp, hop, okWith])
  · intro hg
    exact refuses_of_done ha rfl (if_pos (by simpa using hg))
  · intro hg hbad
    exact refuses_of_done ha rfl ((if_neg (by simpa using hg)).trans (if_pos (by simpa [← hh] using hbad)))
  · intro st bs u hg h1 h64 hb1 hb9 hr
    subst hh
    have hlen : ¬ (dfld d 17 0 8 = 0 ∨ 64 < dfld d 17 0 8 ∨ dfld d 20 0 32 = 0 ∨ 10 ^ 9 < dfld d 20 0 32) := by omega
    have hguard : ¬ ((markStarted s d).cfg.biases.find (dfld d 16 0 6)).any (·.guarded) = true := by simpa using hg
    refine ⟨fun hst => ?_, fun hst => ?_⟩
    · exact congrArg Host.Outcome.next (runDesc_of_done ha ((if_neg hguard).trans ((if_neg hlen).trans (by simp [hr, hst, failWith]))))
    · exact completes_of_done ha rfl ((if_neg hguard).trans ((if_neg hlen).trans (by simp [hr, hst, okWith])))

/-! ## The layout engines -/

/-! ### What a start of work leaves alone -/

/-- Starting work on a unit writes that unit's safety state alone. -/
theorem startOn_frame (s : State) (u : Nat) (g : Bool) (w : Nat × Nat) (fl : List Nat) : { startOn s u g w fl with safe.units := s.safe.units } = s := by
  simp only [startOn, updUnit, setUnit]
  split
  · simp only [abortTest]
    split <;> rfl
  · rfl

theorem startOn_fields (s : State) (u : Nat) (g : Bool) (w : Nat × Nat) (fl : List Nat) :
    (startOn s u g w fl).lyt = s.lyt ∧ (startOn s u g w fl).hif = s.hif ∧ (startOn s u g w fl).up = s.up ∧ (startOn s u g w fl).slv = s.slv ∧
      (startOn s u g w fl).seq = s.seq ∧ (startOn s u g w fl).geo = s.geo ∧ (startOn s u g w fl).now = s.now := by
  have h := startOn_frame s u g w fl
  exact ⟨(congrArg State.lyt h :), (congrArg State.hif h :), (congrArg State.up h :), (congrArg State.slv h :), (congrArg State.seq h :),
    (congrArg State.geo h :), (congrArg State.now h :)⟩

/-- The interrupt of a firmware descriptor's end writes the ICU alone. -/
@[simp] theorem fwDone_fields (s : State) (d : Desc) (source : Nat) :
    (fwDone s d source).lyt = s.lyt ∧ (fwDone s d source).slv = s.slv ∧ (fwDone s d source).seq = s.seq ∧ (fwDone s d source).geo = s.geo ∧
      (fwDone s d source).now = s.now ∧ (fwDone s d source).up = s.up ∧ (fwDone s d source).hif = s.hif ∧ (fwDone s d source).safe = s.safe := by
  rw [fwDone]
  split <;> simp

theorem lytRead_frame (s : State) (d : Desc) (w : Who) (space a n : Nat) :
    (lytRead s d w space a n).2.2.lyt = s.lyt ∧ (lytRead s d w space a n).2.2.hif = s.hif ∧ (lytRead s d w space a n).2.2.up = s.up := by
  simp only [lytRead]
  repeat' split
  all_goals simp [ueReport]

theorem readTDesc_frame (s : State) (d : Desc) (w : Who) (a : Nat) :
    (readTDesc s d w a).2.lyt = s.lyt ∧ (readTDesc s d w a).2.hif = s.hif ∧ (readTDesc s d w a).2.up = s.up := by
  simp only [readTDesc]
  repeat' split
  all_goals simp [lytRead_frame]

theorem readTDescs_frame (s : State) (d : Desc) (w : Who) (l : List Nat) :
    (readTDescs s d w l).2.lyt = s.lyt ∧ (readTDescs s d w l).2.hif = s.hif ∧ (readTDescs s d w l).2.up = s.up := by
  induction l generalizing s with
  | nil => simp [readTDescs]
  | cons a l ih =>
    simp only [readTDescs]
    split <;> simp [readTDesc_frame, ih]

theorem markStarted_com (s : State) (d : Desc) : (markStarted s d).hif.com = s.hif.com := by
  simp only [markStarted]
  split <;> simp

/-! ### Layout operations that start, wait and end (R346, R353, R366) -/

/-- The engines that an operation could take do not depend on the operations that wait. -/
theorem lytFree_waiting (s : State) (l : List Job) (j : Job) : lytFree { s with lyt.waiting := l } j = lytFree s j := rfl

/-- The only waiting operation starts on the first engine that it may take. -/
theorem startLyt_single {s : State} {j : Job} {i : Nat} {rest : List Nat} (hw : s.lyt.waiting = [j]) (hfree : lytFree s j = i :: rest) (hj : j.start = s.up) :
    (lytOf (startLyt 1 s) i).job = some j ∧ (startLyt 1 s).lyt.waiting = [] ∧ (∀ k, k ≠ i → lytOf (startLyt 1 s) k = lytOf s k) ∧
      (startLyt 1 s).mem = s.mem ∧ (startLyt 1 s).hif.com = s.hif.com := by
  have hj' : { j with start := s.up } = j := by rw [← hj]
  simp only [startLyt, hw, List.filter_cons, hfree, List.isEmpty_cons, Bool.not_false, if_true, List.filter_nil, leastBy, List.headD_cons, List.erase_cons_head]
  refine ⟨?_, ?_, fun k hk => ?_, ?_, ?_⟩
  · simp [lytOf, setLyt, readTDescs_frame, startOn_fields, hj']
  · simp [setLyt, readTDescs_frame, startOn_fields]
  · simp [lytOf, setLyt, Tbl.at_put_other _ _ _ hk, readTDescs_frame, startOn_fields]
  · simp [setLyt]
  · simp [setLyt, readTDescs_frame, startOn_fields]

theorem startLyt_busy {s : State} {j : Job} (hw : s.lyt.waiting = [j]) (hfree : lytFree s j = []) : startLyt 1 s = s := by
  simp [startLyt, hw, hfree, leastBy]

/-- Bit 3 of a control byte is no part of its engine field. -/
theorem dfld_four_mod_eight (d : Desc) (byte : Nat) : dfld d byte 0 4 % 8 = dfld d byte 0 3 := by
  simp only [dfld, bitsOf]
  omega

section Clauses
variable {s : State} {d : Desc} {j : Job} {n i : Nat} {rest : List Nat}

theorem queueLyt_isolated {c : Nat} (hc : c % 8 = n) (hn : n < 4) (hout : inService s (layoutUnit n) = false) : queueLyt s d c = failWith s stIsolated := by
  rw [queueLyt, if_pos (by simp [hc, hn, hout])]

theorem queueLyt_of_inService {c : Nat} (hc : c % 8 = n) (hin : n < 4 → inService s (layoutUnit n) = true)
    (hj : j = { desc := d, on_ := if n < 4 then some n else none, start := s.up, first := 0, count := 0, pend := none }) (hw : s.lyt.waiting = []) :
    queueLyt s d c = .later (startLyt 1 { s with lyt.waiting := [j] }) := by
  rw [queueLyt, if_neg (by simpa [hc] using hin)]
  simp [hc, hj, hw]

/-- What the four operations share: an engine field above 4 is refused, and else the operation is accepted. -/
theorem lyt_command {c : Instr} {o : OpInfo}
    (h : (c = .lytCopy d ∧ o = infoLytCopy s d ∧ n = dfld d 51 0 3) ∨ (c = .lytFill d ∧ o = infoLytFill s d ∧ n = dfld d 51 0 3) ∨
      (c = .lytGather d ∧ o = infoLytGather s d ∧ n = dfld d 45 0 3 ∧ dfld d 40 0 24 ≠ 0 ∧ dfld d 44 4 2 = 0) ∨
      (c = .lytScatter d ∧ o = infoLytScatter s d ∧ n = dfld d 45 0 3 ∧ dfld d 40 0 24 ≠ 0 ∧ dfld d 44 4 2 ≤ 1)) :
    ∃ ctl, ctl % 8 = n ∧ exec c s = .next (runDesc s d o fun s => if 4 < n then failWith s stDescInvalid else queueLyt s d ctl) := by
  rcases h with ⟨rfl, rfl, rfl⟩ | ⟨rfl, rfl, rfl⟩ | ⟨rfl, rfl, rfl, hcount, hround⟩ | ⟨rfl, rfl, rfl, hcount, hround⟩
  · exact ⟨_, dfld_four_mod_eight d 51, rfl⟩
  · exact ⟨_, dfld_four_mod_eight d 51, rfl⟩
  · exact ⟨_, dfld_four_mod_eight d 45, by simp [exec, execLytGather, hcount, hround]⟩
  · exact ⟨_, dfld_four_mod_eight d 45, by simp [exec, execLytScatter, hcount, not_lt.2 hround]⟩

end Clauses

theorem noteFlags_lyt (s : State) (d : Desc) (flags : Nat) : (noteFlags s d flags).lyt = s.lyt := by
  rw [noteFlags]
  split <;> rfl

/-- The record, the flags, the completion and the interrupt of an operation that ended leave the engines as they are. -/
theorem lyt_finish (u : State) (c : Prop) [Decidable c] (r : Report) (d : Desc) (flags st res det fl source : Nat) :
    (fwDone (finishDesc (noteFlags (if c then raise u r else u) d flags) d st res det fl) d source).lyt = u.lyt ∧
      (fwDone (finishDesc (noteFlags (if c then raise u r else u) d flags) d st res det fl) d source).mem = u.mem := by
  split <;> simp [noteFlags_lyt]

/-- An operation without a fault ends with what it gives: the engine is free and holds its status and count. -/
theorem exec_layoutOperationEnd {s : State} {i : Nat} {q : Job} {r : LytRun} (hq : (lytOf s i).job = some q)
    (hr : r = lytOutcome s q.desc (lytWho s q.desc i) (lytOf s i).descs none) (hw : r.s.lyt.waiting = []) :
    ∃ t, exec (.layoutOperationEnd i 0 0) s = .next t ∧ (lytOf t i).job = none ∧ (lytOf t i).lastStatus = r.st ∧
      (lytOf t i).ops = satAdd 32 (lytOf s i).ops 1 ∧ t.mem = r.s.mem := by
  have hst : (if r.st ≠ stOk then r.st else stOk) = r.st := by
    split <;> simp_all
  simp only [exec, execLayoutOperationEnd, hq]
  simp only [show ((0 : Nat) == 2) = false from rfl, show ((0 : Nat) == 3) = false from rfl, Bool.false_and, Bool.false_eq_true, or_self, if_false, false_and, or_false, ← hr, hst]
  refine ⟨_, rfl, ?_⟩
  generalize hv : fwDone _ _ _ = v
  obtain ⟨hlyt, hmem⟩ := hv ▸ lyt_finish (setLyt r.s i _) ..
  have hidle : startLyt v.lyt.waiting.length v = v := by rw [hlyt, show (setLyt r.s i _).lyt.waiting = [] from hw]; rfl
  rw [hidle]
  simp [lytOf, hlyt, hmem, setLyt]

/-- Settles O41: an engine field in range either names a free engine, which starts, or leaves the operation waiting. -/
theorem layoutOperations : Obligations.LayoutOperations := by
  intro s d j n i rest hj hw
  refine ⟨fun c o hc ha => ?_, fun ha hbad => ?_, fun ha hbad => ?_, fun f k hnone => ?_, fun q r hq hr hwait => exec_layoutOperationEnd hq hr hwait⟩
  · obtain ⟨ctl, hctl, he⟩ := lyt_command hc
    have hwaits : (markStarted s d).lyt.waiting = [] := by simpa using hw
    have hjob : j = { desc := d, on_ := if n < 4 then some n else none, start := (markStarted s d).up, first := 0, count := 0, pend := none } := by simpa using hj
    refine ⟨fun hn => refuses_of_done ha he (if_pos hn), fun hn hout => refuses_of_done ha he ((if_neg (by omega)).trans (queueLyt_isolated hctl hn hout)), fun hn hin => ⟨fun hfree => ?_, fun hfree => ?_⟩⟩
    · refine ⟨_, exec_of_later ha he ((if_neg (by omega)).trans (queueLyt_of_inService hctl hin hjob hwaits)), ?_⟩
      obtain ⟨h1, h2, h3, h4, h5⟩ := startLyt_single (s := { markStarted s d with lyt.waiting := [j] }) rfl hfree (by simpa using congrArg Job.start hj)
      exact ⟨h1, h2, fun k hk => (h3 k hk).trans (by simp [lytOf]), h4.trans (by simp), h5.trans (markStarted_com s d)⟩
    · rw [exec_of_later ha he ((if_neg (by omega)).trans (queueLyt_of_inService hctl hin hjob hwaits)), startLyt_busy (s := { markStarted s d with lyt.waiting := [j] }) rfl hfree]
  · exact refuses_of_done ha rfl (if_pos (by omega))
  · exact refuses_of_done ha rfl (if_pos (by omega))
  · simp only [exec, execLayoutOperationEnd, hnone]

/-! ## The solvers -/

/-! ### Solves that start and end (R391 to R413) -/

@[simp] theorem scribble_slv (s : State) (keys : List Nat) : (scribble s keys).slv = s.slv ∧ (scribble s keys).now = s.now := by
  simp [scribble]

@[simp] theorem writeHeaderOnly_slv (s : State) (d : Desc) (c st bits j piv start : Nat) (q : Nat × Nat × Nat × Nat) :
    (writeHeaderOnly s d c st bits j piv start q).slv = s.slv ∧ (writeHeaderOnly s d c st bits j piv start q).now = s.now := by
  simp [writeHeaderOnly]

@[simp] theorem solveImage_slv (s : State) (d : Desc) (c : Nat) (r : SolveRun) : (solveImage s d c r).2.2.slv = s.slv ∧ (solveImage s d c r).2.2.now = s.now := by
  simp only [solveImage]
  repeat' split
  all_goals simp

theorem solverOf_eq_of_slv {s t : State} (h : t.slv = s.slv) (c : Nat) : solverOf t c = solverOf s c := by
  rw [solverOf, solverOf, h]

/-- A completed solve has left its unit, with its counters, and every other unit stays as it is. -/
structure SolveEnded (s t : State) (c st : Nat) : Prop where
  job : (solverOf t c).job = none
  run : (solverOf t c).run = none
  status : (solverOf t c).lastStatus = st
  solves : (solverOf t c).solves = satAdd 32 (solverOf s c).solves 1
  misses : (solverOf t c).misses = if st = stDeadlineMiss then satAdd 8 (solverOf s c).misses 1 else (solverOf s c).misses
  other : ∀ i, i ≠ c → solverOf t i = solverOf s i
  waiting : t.slv.waiting = s.slv.waiting
  now : t.now = s.now

/-- The record, the completion and the interrupt of a solve leave the units as they are. -/
theorem solve_finish (u : State) (p : Prop) [Decidable p] (r : Report) (d : Desc) (st res det fl source : Nat) :
    (fwDone (finishDesc (if p then raise u r else u) d st res det fl) d source).slv = u.slv ∧
      (fwDone (finishDesc (if p then raise u r else u) d st res det fl) d source).now = u.now := by
  split <;> simp

theorem endSolve_ended (s : State) (c : Nat) (j : Job) (start st iters piv : Nat) : SolveEnded s (endSolve s c j start st iters piv) c st := by
  simp only [endSolve]
  generalize hv : fwDone _ _ _ = v
  obtain ⟨hslv, hnow⟩ := hv ▸ solve_finish (setSolver s c _) ..
  constructor
  case other => exact fun i hi => by simp [solverOf, hslv, setSolver, Tbl.at_put_other _ _ _ hi]
  case misses => simp [solverOf, hslv, setSolver]
  all_goals simp [solverOf, hslv, hnow, setSolver]

/-- A solve that ends over a state with the same units ends over the first. -/
theorem SolveEnded.of_slv {s u t : State} {c st : Nat} (h : SolveEnded u t c st) (hslv : u.slv = s.slv) (hnow : u.now = s.now) : SolveEnded s t c st := by
  obtain ⟨h1, h2, h3, h4, h5, h6, h7, h8⟩ := h
  refine ⟨h1, h2, h3, ?_, ?_, fun i hi => ?_, ?_, h8.trans hnow⟩
  · rw [h4, solverOf_eq_of_slv hslv]
  · rw [h5, solverOf_eq_of_slv hslv]
  · rw [h6 i hi, solverOf_eq_of_slv hslv]
  · rw [h7, hslv]

/-- A running solve ends with some status; past its deadline, with DEADLINE_MISS. -/
theorem settleSolve_ended {s : State} {c : Nat} {j : Job} {r : SolveRun} (hj : (solverOf s c).job = some j) (hr : (solverOf s c).run = some r) (miss : Bool) :
    ∃ st, SolveEnded s (settleSolve s c 0 0 miss) c st ∧ (miss = true → st = stDeadlineMiss) := by
  rw [settleSolve]
  simp -zeta only [hj, hr]
  extract_lets d m u p bad cut limit z st w q flags form area mix o u' diag u''
  have hu : u.slv = s.slv ∧ u.now = s.now := solveImage_slv ..
  have hmix (v : State) : (mix v).slv = v.slv ∧ (mix v).now = v.now := by
    simp only [mix]
    split <;> simp
  have hst : miss = true → st = stDeadlineMiss := fun h => by simp [st, bad, h]
  clear_value st
  split
  · next h => exact ⟨_, (endSolve_ended ..).of_slv hu.1 hu.2, hst⟩
  · split
    · next h =>
      have ho : (mix o.2).slv = s.slv ∧ (mix o.2).now = s.now := by simpa [hmix, o] using hu
      refine ⟨_, (endSolve_ended ..).of_slv ho.1 ho.2, fun hm => ?_⟩
      exact absurd (hst hm ▸ h) (by decide)
    · have hd : (mix u'').slv = s.slv ∧ (mix u'').now = s.now := by
        simp only [hmix, u'']
        split <;> simpa [u'] using hu
      exact ⟨_, (endSolve_ended ..).of_slv hd.1 hd.2, hst⟩

/-- A unit whose solve has not begun, or none, ends nothing. -/
theorem settleSolve_idle {s : State} {c : Nat} (hr : (solverOf s c).run = none) (fault after : Nat) (miss : Bool) : settleSolve s c fault after miss = s := by
  rw [settleSolve, hr]
  split
  · next h => simp at h
  · rfl

/-- A solve that fails before it has an iterate has ended. -/
theorem failSolve_ended (s : State) (c : Nat) (j : Job) (start st : Nat) : SolveEnded s (failSolve s c j start st) c st :=
  (endSolve_ended ..).of_slv (writeHeaderOnly_slv ..).1 (writeHeaderOnly_slv ..).2

/-! ### The start of a solve -/

/-- At most the lists of shared bytes of running solves differ (R409). -/
structure MixedOnly (s t : State) : Prop where
  job : ∀ i, (solverOf t i).job = (solverOf s i).job
  idle : ∀ i, (solverOf s i).run = none → solverOf t i = solverOf s i
  start : ∀ i, (solverOf t i).run.map (·.start) = (solverOf s i).run.map (·.start)
  waiting : t.slv.waiting = s.slv.waiting

theorem MixedOnly.refl (s : State) : MixedOnly s s := ⟨fun _ => rfl, fun _ _ => rfl, fun _ => rfl, rfl⟩

theorem MixedOnly.trans {s t u : State} (h : MixedOnly s t) (h' : MixedOnly t u) : MixedOnly s u :=
  ⟨fun i => (h'.job i).trans (h.job i), fun i hi => (h'.idle i ((congrArg SolveUnit.run (h.idle i hi)).trans hi)).trans (h.idle i hi),
    fun i => (h'.start i).trans (h.start i), h'.waiting.trans h.waiting⟩

theorem foldl_mixedOnly {α : Type} (f : State → α → State) (h : ∀ s x, MixedOnly s (f s x)) (l : List α) (s : State) : MixedOnly s (l.foldl f s) := by
  induction l generalizing s with
  | nil => exact .refl s
  | cons x l ih => exact (h s x).trans (ih _)

/-- The solve of one unit takes bytes into its list. -/
theorem mixedOnly_add (s : State) (v : Nat) (both : List Nat) :
    MixedOnly s (setSolver s v { solverOf s v with run := (solverOf s v).run.map (fun r => { r with mixed := r.mixed ++ both }) }) := by
  refine ⟨fun i => ?_, fun i hi => ?_, fun i => ?_, rfl⟩
  all_goals
    obtain rfl | hne := eq_or_ne i v
    case inr => simp [solverOf_setSolver_other _ _ hne]
  · simp
  · simp only [solverOf_setSolver_same, hi, Option.map_none]
    rw [← hi]
  · simp [Option.map_map, Function.comp_def]

theorem mixedOnly_noteMixed (s : State) (c : Nat) : MixedOnly s (noteMixed s c) := by
  simp only [noteMixed]
  split
  · exact .refl s
  · refine foldl_mixedOnly _ (fun s u => ?_) _ _
    split
    · split
      · exact .refl s
      · exact (mixedOnly_add ..).trans (mixedOnly_add ..)
    · exact .refl s

/-- The only waiting solve was started on a unit: it runs there from now on, or has failed already. -/
structure SolveStarted (s t : State) (c : Nat) : Prop where
  waiting : t.slv.waiting = []
  unit : (solverOf t c).job = none ∨ ∃ r, (solverOf t c).run = some r ∧ r.start = s.now
  other : ∀ i, i ≠ c → (solverOf t i).job = (solverOf s i).job ∧ ((solverOf s i).run = none → solverOf t i = solverOf s i)

/-- The unit has been taken from a state, and nothing else of the solvers has changed but the queue, which is empty. -/
structure SolveTaken (s u : State) (c : Nat) : Prop where
  waiting : u.slv.waiting = []
  now : u.now = s.now
  other : ∀ i, i ≠ c → solverOf u i = solverOf s i

theorem SolveTaken.of_slv {s u v : State} {c : Nat} (h : SolveTaken s u c) (hv : v.slv = u.slv ∧ v.now = u.now) : SolveTaken s v c :=
  ⟨by rw [hv.1, h.waiting], hv.2.trans h.now, fun i hi => (solverOf_eq_of_slv hv.1 i).trans (h.other i hi)⟩

theorem SolveTaken.failed {s u : State} {c : Nat} (h : SolveTaken s u c) (j : Job) (start st : Nat) : SolveStarted s (failSolve u c j start st) c := by
  have he := failSolve_ended u c j start st
  refine ⟨he.waiting.trans h.waiting, .inl he.job, fun i hi => ?_⟩
  rw [he.other i hi, h.other i hi]
  exact ⟨rfl, fun _ => rfl⟩

theorem SolveTaken.runs {s u : State} {c : Nat} (h : SolveTaken s u c) (r : SolveRun) (hr : r.start = s.now) :
    SolveStarted s (noteMixed (setSolver u c { solverOf u c with run := some r }) c) c := by
  have hm := mixedOnly_noteMixed (setSolver u c { solverOf u c with run := some r }) c
  refine ⟨hm.waiting.trans h.waiting, .inr ?_, fun i hi => ?_⟩
  · have hstart := hm.start c
    rw [solverOf_setSolver_same] at hstart
    simpa [hr] using hstart
  · have hjob := hm.job i
    have hidle := hm.idle i
    rw [solverOf_setSolver_other _ _ hi, h.other i hi] at hjob hidle
    exact ⟨hjob, hidle⟩

theorem exec_solveStart {s : State} {j : Job} {c : Nat} {rest : List Nat} (hw : s.slv.waiting = [j]) (hfree : solversFree s j = c :: rest) :
    ∃ t, exec .solveStart s = .next t ∧ SolveStarted s t c := by
  have hleast : leastBy (fun (j : Job) => workKey s j.desc) (s.slv.waiting.filter (fun j => !(solversFree s j).isEmpty)) = some j := by
    simp [hw, hfree, leastBy]
  rw [exec, execSolveStart, hleast]
  simp -zeta only [hfree, List.headD_cons]
  extract_lets _ d g _ u _ v start dl w r p a match_ i b
  have hv : SolveTaken s v c := by
    refine ⟨?_, ?_, fun i hi => ?_⟩
    · simp [v, u, setSolver, startOn_fields, hw]
    · simp [v, u, setSolver, startOn_fields]
    · rw [solverOf_setSolver_other _ _ hi]
      simp only [solverOf, u, startOn_fields]
      rfl
  have hr : SolveTaken s r.2.2 c := hv.of_slv (by simp [r])
  have ha : SolveTaken s a.2.2 c := hr.of_slv (by simp only [a]; split <;> simp)
  have hb : SolveTaken s b c := ha.of_slv (by simp only [b]; split <;> simp)
  split
  · exact ⟨_, rfl, hv.failed ..⟩
  · split
    · exact ⟨_, rfl, hr.failed ..⟩
    · split
      · exact ⟨_, rfl, hr.failed ..⟩
      · split
        · exact ⟨_, rfl, ha.failed ..⟩
        · exact ⟨_, rfl, hb.runs _ hv.now⟩

/-- Settles O44: an end empties its unit and counts there alone, and a start takes one unit, where the solve runs or has failed. -/
theorem solves : Obligations.Solves := by
  intro s d c
  refine ⟨fun ha => ⟨?_, ?_⟩, fun hw => ?_, fun j rest hw hfree => ?_, fun hr => ⟨?_, ?_⟩, fun j r hj hr => ⟨?_, fun v hv => ?_⟩⟩
  · intro hcore h1 h2 h3 h4 h5 h6 h7 h8 h9
    refine exec_of_later ha rfl ((if_neg ?_).trans ((if_neg ?_).trans ?_))
    · simp only [hcore, h5, h6, Option.any_none, Bool.false_eq_true, ne_eq, not_true_eq_false, false_or, Bool.not_eq_true', not_or, not_and, Bool.not_eq_false]
      refine ⟨by omega, by omega, by omega, by omega, fun h => ?_, fun h hf => ?_, fun hg ht => ?_⟩
      · simpa [h] using h7
      · simp [h, hf] at h8
      · simpa [hg, ht] using h9
    · simp [hcore]
    · simp [hcore]
  · intro hbad
    refine refuses_of_done ha rfl (if_pos (.inr ?_))
    simpa using hbad
  · simp [exec, execSolveStart, hw, leastBy]
  · obtain ⟨t, ht, hs⟩ := exec_solveStart hw hfree
    exact ⟨t, ht, hs.waiting, hs.unit, hs.other⟩
  · simp [exec, execSolveOutcome, settleSolve_idle hr]
  · simp [exec, execSolveDeadline, hr]
  · obtain ⟨st, he, -⟩ := settleSolve_ended hj hr _
    exact ⟨_, rfl, he.job, he.run, he.solves, he.other⟩
  · obtain ⟨st, he, hst⟩ := settleSolve_ended (s := advanceTo s v) hj hr true
    obtain rfl := hst rfl
    refine ⟨_, by simp only [exec, execSolveDeadline, hr, Option.bind_some, hv], ?_, he.job, he.run, he.status, he.misses⟩
    rw [he.now]
    exact Nat.le_max_right ..

/-! ## The scalar instructions -/

/-! ### The issue of an instruction (R272, R301, R327) -/

section Issue
variable {s t' : State} {t : Nat} {e : Enc} {u : Uses} {body : State → Except Nat State}

/-- The state in which the body of an issued instruction acts. -/
def issued (s : State) (t : Nat) : State := setThread s t (stepped s t)

@[simp] theorem thread_issued (s : State) (t : Nat) : thread (issued s t) t = stepped s t := by simp [issued]

theorem issue_of_ok (h : Issues s t e u) (hb : body (issued s t) = .ok t') : issue s t e u body = t' := by
  obtain ⟨hmay, henc⟩ := h
  have hb' : body (updThread s t (fun x => { x with pc := x.pc + 1, issueNo := x.issueNo + 1, mma := none })) = .ok t' := hb
  simp [issue, hmay, henc, hb']

theorem issue_of_error {st : Nat} (h : Issues s t e u) (hb : body (issued s t) = .error st) (hst : st ≠ tileUe) : issue s t e u body = haltThread s t st := by
  obtain ⟨hmay, henc⟩ := h
  have hb' : body (updThread s t (fun x => { x with pc := x.pc + 1, issueNo := x.issueNo + 1, mma := none })) = .error st := hb
  simp [issue, hmay, henc, hb', haltFor, hst]

theorem issue_of_not_ready (h : mayIssue s t = false) : issue s t e u body = s := by
  simp [issue, h]

theorem issue_of_bad_fields (h : mayIssue s t = true) (he : encOk u e = false) : issue s t e u body = haltThread s t stDescInvalid := by
  simp [issue, h, he]

@[simp] theorem setThread_issued (s : State) (t : Nat) (x : Thread) : setThread (issued s t) t x = setThread s t x := by
  simp [issued, setThread]

@[simp] theorem xa_issued (s : State) (t : Nat) (e : Enc) : xa (issued s t) t e = xa s t e := by simp [xa, stepped, Thread.xr]
@[simp] theorem xb_issued (s : State) (t : Nat) (e : Enc) : xb (issued s t) t e = xb s t e := by simp [xb, stepped, Thread.xr]
@[simp] theorem xd_issued (s : State) (t : Nat) (e : Enc) : xd (issued s t) t e = xd s t e := by simp [xd, stepped, Thread.xr]
@[simp] theorem opB_issued (s : State) (t : Nat) (e : Enc) : opB (issued s t) t e = opB s t e := by simp [opB]

/-- The issue writes its thread alone. -/
@[simp] theorem issued_fields (s : State) (t : Nat) :
    (issued s t).eng.instances = s.eng.instances ∧ (issued s t).eng.runs = s.eng.runs ∧ (issued s t).eng.engines = s.eng.engines ∧
      (issued s t).eng.programs = s.eng.programs ∧ (issued s t).now = s.now ∧ (issued s t).up = s.up ∧ (issued s t).power = s.power ∧
      (issued s t).mem = s.mem ∧ (issued s t).knots = s.knots ∧ (issued s t).qmu = s.qmu := by
  simp [issued, setThread]

@[simp] theorem instOf_issued (s : State) (t : Nat) : instOf (issued s t) t = instOf s t := by
  rw [instOf, thread_issued]
  rfl

@[simp] theorem threadWho_issued (s : State) (t : Nat) : threadWho (issued s t) t = threadWho s t := by
  rw [threadWho, instOf_issued]
  rfl

@[simp] theorem codeRange_issued (s : State) (t : Nat) : codeRange (issued s t) t = codeRange s t := by
  rw [codeRange, instOf_issued]
  rfl

theorem writeX_issued (s : State) (t : Nat) (d : BitVec 5) (w : W64) :
    writeX (issued s t) t d w = setThread s t { stepped s t with x := (thread s t).x.put d.toNat w } := by
  simp [writeX, updThread, Thread.setX, stepped]

end Issue

/-! ### Scalar instructions (R305) -/

section Scalar
variable {s : State} {t : Nat} {e : Enc} {a b w : W64} {fl : Nat} {c : Instr}

/-- An instruction whose body writes x[d] alone. -/
theorem givesX_of_writeX {u : Uses} {body : State → Except Nat State} (hi : Issues s t e u) (hc : exec c s = .next (issue s t e u body))
    (hb : body (issued s t) = .ok (writeX (issued s t) t e.d w)) : GivesX c s t e.d w 0 := by
  rw [GivesX, hc, issue_of_ok hi hb, writeX_issued, Nat.or_zero]
  rfl

theorem givesX_of_scalar2 {f : W64 → W64 → W64 × Nat} (hi : Issues s t e (usesScalar e)) (hc : exec c s = scalar2 f t e s) (ha : a = xa s t e)
    (hb : b = opB s t e) (hf : f a b = (w, fl)) : GivesX c s t e.d w fl := by
  refine hc.trans (congrArg Host.Outcome.next (issue_of_ok hi (congrArg Except.ok ?_)))
  simp only [xa_issued, opB_issued, ← ha, ← hb, hf, writeX_issued, addFlags, updThread, thread_setThread_same]
  simp [setThread, stepped]

end Scalar

/-! ### The values of single instructions -/

theorem minSigned_eq (a b : W64) : (if a.toInt ≤ b.toInt then a else b) = if a.slt b then a else b := by
  simp only [BitVec.slt_iff_toInt_lt]
  split <;> split
  · rfl
  · exact BitVec.eq_of_toInt_eq (by omega)
  · omega
  · rfl

theorem maxSigned_eq (a b : W64) : (if a.toInt ≤ b.toInt then b else a) = if a.slt b then b else a := by
  simp only [BitVec.slt_iff_toInt_lt]
  split <;> split
  · rfl
  · exact BitVec.eq_of_toInt_eq (by omega)
  · omega
  · rfl

theorem minUnsigned_eq (a b : W64) : (if a.toNat ≤ b.toNat then a else b) = if a.ult b then a else b := by
  simp only [BitVec.ult_iff_toNat_lt]
  split <;> split
  · rfl
  · exact BitVec.eq_of_toNat_eq (by omega)
  · omega
  · rfl

theorem maxUnsigned_eq (a b : W64) : (if a.toNat ≤ b.toNat then b else a) = if a.ult b then b else a := by
  simp only [BitVec.ult_iff_toNat_lt]
  split <;> split
  · rfl
  · exact BitVec.eq_of_toNat_eq (by omega)
  · omega
  · rfl

/-- The high half of a signed product. -/
theorem mulHigh_eq (a b : W64) : BitVec.ofInt 64 (a.toInt * b.toInt / 2 ^ 64) = (a.signExtend 128 * b.signExtend 128).extractLsb' 64 64 := by
  have h : a.signExtend 128 * b.signExtend 128 = BitVec.ofInt 128 (a.toInt * b.toInt) := by
    rw [BitVec.ofInt_mul, ← BitVec.signExtend, ← BitVec.signExtend]
  rw [h]
  apply BitVec.eq_of_toNat_eq
  generalize a.toInt * b.toInt = n
  simp only [BitVec.extractLsb'_toNat, BitVec.toNat_ofInt, Nat.shiftRight_eq_div_pow]
  omega

/-- The high half of an unsigned product. -/
theorem mulHighUnsigned_eq (a b : W64) :
    BitVec.ofNat 64 (a.toNat * b.toNat / 2 ^ 64) = (a.zeroExtend 128 * b.zeroExtend 128).extractLsb' 64 64 := by
  apply BitVec.eq_of_toNat_eq
  have ha := Nat.mod_eq_of_lt (a.isLt.trans (by decide : 2 ^ 64 < 2 ^ 128))
  have hb := Nat.mod_eq_of_lt (b.isLt.trans (by decide : 2 ^ 64 < 2 ^ 128))
  simp only [BitVec.extractLsb'_toNat, BitVec.toNat_ofNat, BitVec.toNat_mul, BitVec.toNat_setWidth, BitVec.zeroExtend, Nat.shiftRight_eq_div_pow, ha, hb]
  generalize a.toNat * b.toNat = n
  omega

/-- MOVHI joins imm with the low half of x[d]. -/
theorem moveHigh_eq (i : W32) (x : W64) : BitVec.ofNat 64 (i.toNat * 2 ^ 32 + x.toNat % 2 ^ 32) = i ++ x.truncate 32 := by
  apply BitVec.eq_of_toNat_eq
  rw [BitVec.toNat_append, ← Nat.shiftLeft_add_eq_or_of_lt (BitVec.isLt _), Nat.shiftLeft_eq]
  simp
  omega

/-- MTS of SEED stores the low word, and 1 for a 0. -/
theorem seedWord_eq (x : W64) : (if x.toNat % 2 ^ 32 = 0 then (1 : W32) else BitVec.ofNat 32 x.toNat) = if x.truncate 32 = (0 : W32) then 1 else x.truncate 32 := by
  have htrunc : x.truncate 32 = BitVec.ofNat 32 x.toNat := rfl
  have hzero : x.toNat % 2 ^ 32 = 0 ↔ x.truncate 32 = (0 : W32) := by
    rw [htrunc, ← BitVec.toNat_inj]
    rfl
  simp only [hzero, htrunc]

theorem issued_now (s : State) (t : Nat) : (issued s t).now = s.now := rfl

/-! ### The special registers (R306) -/

section Special
variable {s : State} {t k : Nat} {e : Enc}

theorem givesX_mfs {n : Nat} (hi : Issues s t e { d := true, imm := 0xFF }) (hk : k = bitsOf e.imm.toNat 0 8) (h : specialReg (issued s t) t k = some n) :
    GivesX (.mfs t e) s t e.d (BitVec.ofNat 64 n) 0 :=
  givesX_of_writeX hi rfl (by simp only [immBits, ← hk, h])

theorem mfs_clauses (hi : Issues s t e { d := true, imm := 0xFF }) (hk : k = bitsOf e.imm.toNat 0 8) :
    (k = 0 → GivesX (.mfs t e) s t e.d (BitVec.ofNat 64 (thread s t).flags) 0) ∧ (k = 1 → GivesX (.mfs t e) s t e.d (BitVec.ofNat 64 ((thread s t).issued + (thread s t).done * 65536)) 0) ∧
      (k = 2 → GivesX (.mfs t e) s t e.d (BitVec.ofNat 64 t) 0) ∧ (k = 4 → GivesX (.mfs t e) s t e.d (BitVec.ofNat 64 ((engClock s - (thread s t).start) / 1000)) 0) ∧ (k = 3 → GivesX (.mfs t e) s t e.d ((thread s t).seed.zeroExtend 64) 0) ∧
      (k = 5 → GivesX (.mfs t e) s t e.d (BitVec.ofNat 64 ((if (threadWho s t).guarded then 3 else 0) + (threadWho s t).did * 16)) 0) ∧ (6 ≤ k → exec (.mfs t e) s = .next (haltThread s t stDescInvalid)) := by
  refine ⟨fun h => ?_, fun h => ?_, fun h => ?_, fun h => ?_, fun h => ?_, fun h => ?_, fun h => ?_⟩
  · exact givesX_mfs hi hk (by rw [h, specialReg, thread_issued]; rfl)
  · exact givesX_mfs hi hk (by rw [h, specialReg, thread_issued]; rfl)
  · exact givesX_mfs hi hk (by rw [h, specialReg])
  · exact givesX_mfs hi hk (by rw [h, specialReg, thread_issued]; rfl)
  · have hx : (thread s t).seed.zeroExtend 64 = BitVec.ofNat 64 (thread s t).seed.toNat := by simp [BitVec.zeroExtend, BitVec.ofNat_toNat]
    rw [hx]
    exact givesX_mfs hi hk (by rw [h, specialReg, thread_issued]; rfl)
  · exact givesX_mfs hi hk (by rw [h, specialReg, threadWho_issued])
  · refine congrArg Host.Outcome.next (issue_of_error hi ?_ (by decide))
    have hnone : specialReg (issued s t) t k = none := by
      match k, h with
      | n + 6, _ => rfl
    simp only [immBits, ← hk, hnone]

theorem mts_clauses (hi : Issues s t e { a := true, imm := 0xFF }) (hk : k = bitsOf e.imm.toNat 0 8) :
    (k = 0 → exec (.mts t e) s = .next (setThread s t { stepped s t with flags := (xa s t e).toNat % 128 })) ∧
      (k = 3 → exec (.mts t e) s = .next (setThread s t { stepped s t with seed := if (xa s t e).truncate 32 = (0 : W32) then 1 else (xa s t e).truncate 32 })) ∧
      (k ≠ 0 → k ≠ 3 → exec (.mts t e) s = .next (haltThread s t stDescInvalid)) := by
  refine ⟨fun h => ?_, fun h => ?_, fun h0 h3 => ?_⟩
  · refine congrArg Host.Outcome.next (issue_of_ok hi ?_)
    simp [immBits, ← hk, h, updThread]
  · refine congrArg Host.Outcome.next (issue_of_ok hi ?_)
    rw [← seedWord_eq]
    simp [immBits, ← hk, h, updThread]
  · refine congrArg Host.Outcome.next (issue_of_error hi ?_ (by decide))
    rw [immBits, ← hk]
    split
    · exact absurd rfl h0
    · exact absurd rfl h3
    · rfl

end Special

/-- Settles O33: one rule for the two-operand instructions, and for each the value of its function. -/
theorem scalarInstructions : Obligations.ScalarInstructions := by
  refine ⟨fun s t e a b ha hb => ⟨fun hi => ?_, fun hmay henc => congrArg _ (issue_of_bad_fields hmay henc),
    fun hmay => ⟨congrArg _ (issue_of_not_ready hmay), congrArg _ (issue_of_not_ready hmay), congrArg _ (issue_of_not_ready hmay)⟩⟩,
    fun s t e k hk => ⟨fun hi => congrArg _ (issue_of_ok hi rfl), fun hi => ⟨?_, ?_⟩, fun hi => ?_, fun hi => mfs_clauses hi hk, fun hi => mts_clauses hi hk⟩⟩
  · refine ⟨givesX_of_scalar2 (f := fun a b => (a + b, 0)) hi rfl ha hb rfl,
      givesX_of_scalar2 (f := fun a b => (a - b, 0)) hi rfl ha hb rfl,
      givesX_of_scalar2 (f := fun a b => (a &&& b, 0)) hi rfl ha hb rfl,
      givesX_of_scalar2 (f := fun a b => (a ||| b, 0)) hi rfl ha hb rfl,
      givesX_of_scalar2 (f := fun a b => (a ^^^ b, 0)) hi rfl ha hb rfl,
      givesX_of_scalar2 (f := fun a b => (a <<< (b.toNat % 64), 0)) hi rfl ha hb rfl,
      givesX_of_scalar2 (f := fun a b => (a >>> (b.toNat % 64), 0)) hi rfl ha hb rfl,
      givesX_of_scalar2 (f := fun a b => (a.sshiftRight (b.toNat % 64), 0)) hi rfl ha hb rfl,
      givesX_of_scalar2 (f := fun a b => (if a.toInt ≤ b.toInt then a else b, 0)) hi rfl ha hb (by rw [minSigned_eq]),
      givesX_of_scalar2 (f := fun a b => (if a.toInt ≤ b.toInt then b else a, 0)) hi rfl ha hb (by rw [maxSigned_eq]),
      givesX_of_scalar2 (f := fun a b => (if a.toNat ≤ b.toNat then a else b, 0)) hi rfl ha hb (by rw [minUnsigned_eq]),
      givesX_of_scalar2 (f := fun a b => (if a.toNat ≤ b.toNat then b else a, 0)) hi rfl ha hb (by rw [maxUnsigned_eq]),
      givesX_of_scalar2 (f := fun a b => (boolW (decide (a.toInt < b.toInt)), 0)) hi rfl ha hb (by simp [boolW, BitVec.slt]),
      givesX_of_scalar2 (f := fun a b => (boolW (decide (a.toNat < b.toNat)), 0)) hi rfl ha hb (by simp [boolW, BitVec.ult]),
      givesX_of_scalar2 (f := fun a b => (boolW (a == b), 0)) hi rfl ha hb (by simp [boolW]),
      givesX_of_scalar2 (f := fun a b => (a * b, 0)) hi rfl ha hb rfl,
      givesX_of_scalar2 (f := fun a b => (BitVec.ofInt 64 (a.toInt * b.toInt / 2 ^ 64), 0)) hi rfl ha hb (by rw [mulHigh_eq]),
      givesX_of_scalar2 (f := fun a b => (BitVec.ofNat 64 (a.toNat * b.toNat / 2 ^ 64), 0)) hi rfl ha hb (by rw [mulHighUnsigned_eq]),
      fun hne => ?_, fun h0 => ?_⟩
    · have hf (z f : W64 → W64 → W64) : divide z f a b = (f a b, 0) := if_neg hne
      exact ⟨givesX_of_scalar2 hi rfl ha hb (hf (fun _ _ => BitVec.allOnes 64) BitVec.sdiv), givesX_of_scalar2 hi rfl ha hb (hf (fun _ _ => BitVec.allOnes 64) BitVec.udiv),
        givesX_of_scalar2 hi rfl ha hb (hf (fun a _ => a) BitVec.srem), givesX_of_scalar2 hi rfl ha hb (hf (fun a _ => a) BitVec.umod)⟩
    · have hz (z f : W64 → W64 → W64) : divide z f a b = (z a b, flDivZero) := if_pos h0
      exact ⟨givesX_of_scalar2 hi rfl ha hb (hz (fun _ _ => BitVec.allOnes 64) BitVec.sdiv), givesX_of_scalar2 hi rfl ha hb (hz (fun _ _ => BitVec.allOnes 64) BitVec.udiv),
        givesX_of_scalar2 hi rfl ha hb (hz (fun a _ => a) BitVec.srem), givesX_of_scalar2 hi rfl ha hb (hz (fun a _ => a) BitVec.umod)⟩
  · exact givesX_of_writeX hi rfl rfl
  · exact givesX_of_writeX hi rfl (by rw [moveHigh_eq, xd_issued, xd])
  · exact givesX_of_writeX hi rfl (by rw [issued_now])

/-! ## Control flow -/

/-! ### Where an instruction goes (R326) -/

section Targets
variable {s : State} {t base len p : Nat} {e : Enc} {a b : W64}

theorem relTarget_issued (s : State) (t : Nat) (e : Enc) : relTarget (issued s t) t e = (thread s t).pc + e.imm.toInt := by
  rw [relTarget, thread_issued, stepped]
  push_cast
  ring

theorem setThread_setThread (s : State) (t : Nat) (x y : Thread) : setThread (setThread s t x) t y = setThread s t y := by
  simp [setThread]

theorem goTo_of_inside (hr : codeRange s t = some (base, len)) (hp : 8 * p < len) : goTo (issued s t) t (p : Int) = .ok (setThread s t { stepped s t with pc := p }) := by
  have hin : ¬ ((p : Int) < 0 ∨ (len : Int) ≤ 8 * p) := by omega
  simp only [goTo, codeRange_issued, hr, if_neg hin, updThread, thread_issued, setThread_issued, Int.toNat_natCast]

theorem goTo_of_outside (hr : codeRange s t = some (base, len)) (hp : len ≤ 8 * p) : goTo (issued s t) t (p : Int) = .error stDescInvalid := by
  have hout : (p : Int) < 0 ∨ (len : Int) ≤ 8 * p := by omega
  simp only [goTo, codeRange_issued, hr, if_pos hout]

theorem goTo_of_no_target {q : Int} (h : codeRange s t = none ∨ q < 0) : goTo (issued s t) t q = .error stDescInvalid := by
  rw [goTo, codeRange_issued]
  rcases h with h | h
  · rw [h]
  · split
    · rfl
    · rw [if_pos (.inl h)]

/-- A branch within the resident code goes where its condition says. -/
theorem goes_of_branch {c : Instr} {f : W64 → W64 → Bool} (hi : Issues s t e { a := true, b := true, imm := immAll }) (hc : exec c s = .next (branch f t e s))
    (hr : codeRange s t = some (base, len)) (hp : (p : Int) = (thread s t).pc + e.imm.toInt) (ha : a = xa s t e) (hb : b = xb s t e) (hin : f a b = true → 8 * p < len) :
    Goes c s t (if f a b then p else (thread s t).pc + 1) id := by
  refine hc.trans (congrArg Host.Outcome.next (issue_of_ok hi ?_))
  rw [xa_issued, xb_issued, ← ha, ← hb, relTarget_issued, ← hp]
  cases h : f a b
  · rfl
  · exact goTo_of_inside hr (hin h)

end Targets

/-- Settles O40: a target is one number, inside the resident code or not, for every instruction that goes to one. -/
theorem controlFlow : Obligations.ControlFlow := by
  refine ⟨fun s t e base len p a b hr hp ha hb => ⟨fun hi hin => ?_, fun hi hout => ⟨fun heq => ?_, fun hne => ?_⟩, fun hi => ⟨fun hin => ?_, fun hout => ?_⟩, fun hi hout => ?_, fun hi hin => ?_,
    fun hi => ⟨fun halign hlt => ?_, fun hbad => ?_⟩, fun hi => ⟨fun h0 => ?_, fun hne => ?_⟩, fun hi hg hh => ?_⟩, fun s t e hbad hi => ?_⟩
  · have hgoes {c : Instr} (f : W64 → W64 → Bool) (hc : exec c s = .next (branch f t e s)) := goes_of_branch hi hc hr hp ha hb fun _ => hin
    refine ⟨?_, ?_, ?_, ?_, ?_, ?_⟩
    · simpa using hgoes (fun a b => a == b) rfl
    · have h := hgoes (c := .bne t e) (fun a b => a != b) rfl
      by_cases heq : a = b <;> simpa [heq] using h
    · exact hgoes (fun a b => decide (a.toInt < b.toInt)) rfl
    · have h := hgoes (c := .bge t e) (fun a b => decide (b.toInt ≤ a.toInt)) rfl
      by_cases hlt : a.toInt < b.toInt
      · simpa [BitVec.slt, hlt, not_le.2 hlt] using h
      · simpa [BitVec.slt, hlt, not_lt.1 hlt] using h
    · exact hgoes (fun a b => decide (a.toNat < b.toNat)) rfl
    · have h := hgoes (c := .bgeu t e) (fun a b => decide (b.toNat ≤ a.toNat)) rfl
      by_cases hlt : a.toNat < b.toNat
      · simpa [BitVec.ult, hlt, not_le.2 hlt] using h
      · simpa [BitVec.ult, hlt, not_lt.1 hlt] using h
  · refine congrArg Host.Outcome.next (issue_of_error hi ?_ (by decide))
    simp [← ha, ← hb, heq, relTarget_issued, ← hp, goTo_of_outside hr hout]
  · have hf : (a == b) = false := by simpa using hne
    have h := goes_of_branch (f := fun a b => a == b) (c := .beq t e) hi rfl hr hp ha hb fun h => absurd (hf.symm.trans h) (by decide)
    simpa [hne] using h
  · refine congrArg Host.Outcome.next (issue_of_ok hi ?_)
    rw [relTarget_issued, ← hp, goTo_of_inside hr hin]
    rfl
  · refine congrArg Host.Outcome.next (issue_of_error hi ?_ (by decide))
    rw [relTarget_issued, ← hp, goTo_of_outside hr hout]
  · refine congrArg Host.Outcome.next (issue_of_error hi ?_ (by decide))
    rw [relTarget_issued, ← hp, goTo_of_outside hr hout]
  · refine congrArg Host.Outcome.next (issue_of_ok hi ?_)
    rw [relTarget_issued, ← hp, goTo_of_inside hr hin, thread_issued]
    simp only [writeX, updThread, thread_setThread_same, setThread_setThread, Thread.setX]
    rfl
  · refine congrArg Host.Outcome.next (issue_of_ok hi ?_)
    have hin : 8 * (a.toNat / 8) < len := by omega
    simp only [xa_issued, ← ha, halign, ne_eq, not_true_eq_false, if_false]
    exact goTo_of_inside hr hin
  · refine congrArg Host.Outcome.next (issue_of_error hi ?_ (by decide))
    simp only [xa_issued, ← ha]
    split
    · rfl
    · exact goTo_of_outside hr (by omega)
  · refine congrArg Host.Outcome.next (issue_of_ok hi (if_neg ?_))
    simpa [immBits, stepped] using h0
  · refine congrArg Host.Outcome.next (issue_of_error hi (if_pos ?_) (by decide))
    simpa [immBits, stepped] using hne
  · refine congrArg Host.Outcome.next (issue_of_ok hi (congrArg Except.ok ?_))
    simp [leave, hg, perform, endThreadNow, updThread]
  · refine congrArg Host.Outcome.next (issue_of_error hi ?_ (by decide))
    rw [relTarget_issued, goTo_of_no_target hbad]

/-! ## Elements of vector registers -/

/-! ### Elements of vector registers (R309) -/

theorem bitsOf_lt (v lo len : Nat) : bitsOf v lo len < 2 ^ len := Nat.mod_lt _ (by positivity)

/-- The elements of a packed list are its elements. -/
theorem bitsOf_packE (w : Nat) (xs : List Nat) (j : Nat) : bitsOf (packE w xs) (w * j) w = xs.getD j 0 % 2 ^ w := by
  have hw : 0 < 2 ^ w := by positivity
  induction xs generalizing j with
  | nil => simp [packE, bitsOf]
  | cons x xs ih =>
    cases j with
    | zero => simp [packE, bitsOf]
    | succ j =>
      have hdiv : (x % 2 ^ w + 2 ^ w * packE w xs) / 2 ^ w = packE w xs := by
        rw [Nat.add_mul_div_left _ _ hw, Nat.div_eq_of_lt (Nat.mod_lt _ hw), zero_add]
      rw [packE, bitsOf, Nat.shiftRight_eq_div_pow, mul_add, mul_one, pow_add, mul_comm (2 ^ (w * j)), ← Nat.div_div_eq_div_mul, hdiv, ← Nat.shiftRight_eq_div_pow]
      exact ih j

theorem packE_lt (w : Nat) (xs : List Nat) : packE w xs < 2 ^ (w * xs.length) := by
  have hw : 0 < 2 ^ w := by positivity
  induction xs with
  | nil => simp [packE]
  | cons x xs ih =>
    have hx := Nat.mod_lt x hw
    calc packE w (x :: xs) = x % 2 ^ w + 2 ^ w * packE w xs := rfl
      _ < 2 ^ w * (packE w xs + 1) := by rw [mul_add]; omega
      _ ≤ 2 ^ w * 2 ^ (w * xs.length) := Nat.mul_le_mul_left _ ih
      _ = 2 ^ (w * (x :: xs).length) := by rw [← pow_add, List.length_cons, mul_add, mul_one, add_comm]

theorem toNat_ofElems {w : Nat} {xs : List Nat} (h : w * xs.length ≤ 2048) : (ofElems w xs).toNat = packE w xs := by
  rw [ofElems, BitVec.toNat_ofNat]
  exact Nat.mod_eq_of_lt ((packE_lt w xs).trans_le (Nat.pow_le_pow_right (by decide) h))

theorem Lane.bits_mul_count (l : Lane) : l.bits * l.count = 2048 := by
  cases l <;> rfl

/-- The elements of a register that is written element by element. -/
theorem elemAt_ofElems {l : Lane} {xs : List Nat} (h : xs.length = l.count) (j : Nat) : elemAt l (ofElems l.bits xs) j = xs.getD j 0 % 2 ^ l.bits := by
  rw [elemAt, toNat_ofElems (by rw [h, l.bits_mul_count]), bitsOf_packE]

theorem elemAt_lt (l : Lane) (v : BitVec 2048) (j : Nat) : elemAt l v j < 2 ^ l.bits := bitsOf_lt ..

@[simp] theorem length_elems (w n : Nat) (v : BitVec 2048) : (elems w n v).length = n := by simp [elems]

theorem getD_elems {w n j : Nat} (v : BitVec 2048) (hj : j < n) : (elems w n v).getD j 0 = bitsOf v.toNat (w * j) w := by
  simp [elems, hj]

/-! ## Tile SRAM accesses -/

/-! ### Tile SRAM accesses of an issued instruction (R277, R307) -/

section Tile
variable (s : State) (t : Nat)

@[simp] theorem addrImm_issued (e : Enc) : addrImm (issued s t) t e = addrImm s t e := by simp [addrImm]
@[simp] theorem tileRead_issued (a n : Nat) : tileRead (issued s t) t a n = tileRead s t a n := rfl
@[simp] theorem badIn_issued (k n : Nat) : badIn (issued s t) k n = badIn s k n := rfl
@[simp] theorem vr_issued (r : Nat) : (thread (issued s t) t).vr r = (thread s t).vr r := by rw [thread_issued]; rfl
@[simp] theorem maskOf_issued (e : Enc) : maskOf (issued s t) t e = maskOf s t e := by rw [maskOf, thread_issued]; rfl

@[simp] theorem tileOk_issued (a n : Nat) (write : Bool) : tileOk (issued s t) t a n write = tileOk s t a n write := by
  simp [tileOk]

@[simp] theorem tileCheck_issued (a n al : Nat) (write : Bool) : tileCheck (issued s t) t a n al write = tileCheck s t a n al write := by
  simp [tileCheck]

theorem tileCheck_of_misaligned {a n al : Nat} {write : Bool} (h : a % al ≠ 0) : tileCheck s t a n al write = stDescInvalid := if_pos h

theorem tileCheck_of_outside {a n al : Nat} {write : Bool} (h : a % al = 0) (hok : tileOk s t a n write = false) : tileCheck s t a n al write = stFirewall := by
  simp [tileCheck, h, hok]

theorem tileCheck_of_bad {a n al : Nat} (h : a % al = 0) (hok : tileOk s t a n false = true) (hb : badIn s (Space.key (.tile (engineNo t)) a) n = true) :
    tileCheck s t a n al false = tileUe := by
  simp [tileCheck, h, hok, hb]

/-- A write to tile SRAM changes its bytes and no thread. -/
theorem tileWritten_tileWrite (a : Nat) (bs : List Byte) : TileWritten s (tileWrite (issued s t) t a bs) t a bs :=
  ⟨rfl, fun _ hk => Memory.read_writes_outside s.mem bs hk⟩

theorem thread_tileWrite (u a : Nat) (bs : List Byte) : thread (tileWrite s t a bs) u = thread s u := rfl

theorem thread_issued_other {u : Nat} (h : u ≠ t) : thread (issued s t) u = thread s u := thread_setThread_other s _ h

theorem tileWrite_frame (a : Nat) (bs : List Byte) : { tileWrite (issued s t) t a bs with mem := s.mem, eng := s.eng } = s := rfl

/-- An uncorrectable error of tile SRAM halts the thread after its report (R278). -/
theorem issue_of_tileUe {s : State} {t : Nat} {e : Enc} {u : Uses} {body : State → Except Nat State} (h : Issues s t e u) (hb : body (issued s t) = .error tileUe) :
    issue s t e u body = haltThread (ueReport s (threadWho s t)) t stInternal := by
  obtain ⟨hmay, henc⟩ := h
  have hb' : body (updThread s t (fun x => { x with pc := x.pc + 1, issueNo := x.issueNo + 1, mma := none })) = .error tileUe := hb
  simp [issue, hmay, henc, hb', haltFor]

end Tile

theorem ofLe_lt (bs : List Byte) : ofLe bs < 256 ^ bs.length := by
  induction bs with
  | nil => simp [ofLe]
  | cons b bs ih =>
    have hb : b.toNat < 256 := b.isLt
    rw [ofLe, List.length_cons, pow_succ]
    omega

theorem givesV_of_setV {c : Instr} {s : State} {t : Nat} {e : Enc} {u : Uses} {body : State → Except Nat State} {w : BitVec 2048} {fl : Nat} (hi : Issues s t e u)
    (hc : exec c s = .next (issue s t e u body)) (hb : body (issued s t) = .ok (addFlags (updThread (issued s t) t (fun x => x.setV e.d.toNat w)) t fl)) :
    GivesV c s t e.d w fl := by
  rw [GivesV, hc, issue_of_ok hi hb]
  simp only [addFlags, updThread, thread_setThread_same, thread_issued, setThread_issued, setThread_setThread]
  rfl

theorem addFlags_zero (s : State) (t : Nat) (x : Thread) : addFlags (setThread s t x) t 0 = setThread s t x := by
  simp only [addFlags, updThread, thread_setThread_same, setThread_setThread, Nat.or_zero]

/-! ### The one enabled element of a gather (R313) -/

theorem filter_testBit_two_pow {n j : Nat} (hj : j < n) : (List.range n).filter (fun i => (2 ^ j).testBit i) = [j] := by
  have hbit : (fun i => (2 ^ j).testBit i) = (· == j) := by
    funext i
    rw [Nat.testBit_two_pow, Bool.eq_iff_iff, decide_eq_true_eq, beq_iff_eq]
    exact eq_comm
  rw [hbit, List.filter_beq, List.count_eq_one_of_mem List.nodup_range (List.mem_range.2 hj), List.replicate_one]

/-- Where one element is enabled, it is the only address. -/
theorem gatherAddrs_single {s : State} {t j : Nat} {e : Enc} (hm : maskOf s t e = 2 ^ j) (hj : j < 64) :
    gatherAddrs s t e = [(j, ((xa s t e).toNat + elemAt .fp32 ((thread s t).vr e.b.toNat) j) % 2 ^ 64)] := by
  have hzip (f : Nat → Nat) : ((List.range 64).map f).zip (List.range 64) = (List.range 64).map (fun i => (f i, i)) := by
    simpa using List.zip_map' (f := f) (g := id) (l := List.range 64)
  simp only [gatherAddrs, hm, elems, hzip, List.filter_map, Function.comp_def, filter_testBit_two_pow hj]
  rfl

@[simp] theorem gatherAddrs_issued (s : State) (t : Nat) (e : Enc) : gatherAddrs (issued s t) t e = gatherAddrs s t e := by
  rw [gatherAddrs, maskOf_issued, vr_issued, xa_issued, gatherAddrs]

/-! ### The clauses of the accesses -/

section Clauses
variable {s : State} {t a n w : Nat} {e : Enc}

theorem ldt_clauses (ha : a = addrImm s t e) (hn : n = 2 ^ e.f.toNat) (hw : w = ofLe (tileRead s t a n)) (hi : Issues s t e { d := true, a := true, f := true, m := 1, imm := immAll })
    (hf : e.f.toNat ≤ 3) :
    (tileCheck s t a n n false = stOk → GivesX (.ldt t e) s t e.d (if e.m.getLsbD 0 then BitVec.ofInt 64 (signed (8 * n) w) else BitVec.ofNat 64 w) 0) ∧
      (a % n ≠ 0 → exec (.ldt t e) s = .next (haltThread s t stDescInvalid)) ∧ (a % n = 0 → tileOk s t a n false = false → exec (.ldt t e) s = .next (haltThread s t stFirewall)) ∧
      (a % n = 0 → tileOk s t a n false = true → badIn s (Space.key (.tile (engineNo t)) a) n = true → exec (.ldt t e) s = .next (haltThread (ueReport s (threadWho s t)) t stInternal)) := by
  have hsize : ¬ 3 < e.f.toNat := by omega
  refine ⟨fun hok => givesX_of_writeX hi rfl ?_, fun hal => ?_, fun hal hout => ?_, fun hal hok hbad => ?_⟩
  · rw [if_neg hsize]
    simp only [addrImm_issued, tileCheck_issued, tileRead_issued, ← ha, ← hn, hok, ← hw, ne_eq, not_true_eq_false, if_false, extendTo, mBit]
  · refine congrArg Host.Outcome.next (issue_of_error hi ?_ (by decide))
    rw [if_neg hsize]
    simp only [addrImm_issued, tileCheck_issued, ← ha, ← hn, tileCheck_of_misaligned s t hal]
    rfl
  · refine congrArg Host.Outcome.next (issue_of_error hi ?_ (by decide))
    rw [if_neg hsize]
    simp only [addrImm_issued, tileCheck_issued, ← ha, ← hn, tileCheck_of_outside s t hal hout]
    rfl
  · refine congrArg Host.Outcome.next (issue_of_tileUe hi ?_)
    rw [if_neg hsize]
    simp only [addrImm_issued, tileCheck_issued, ← ha, ← hn, tileCheck_of_bad s t hal hok hbad]
    rfl

/-- A store to tile SRAM, and nothing else. -/
theorem exec_stt (ha : a = addrImm s t e) (hn : n = 2 ^ e.f.toNat) (hi : Issues s t e { a := true, b := true, f := true, imm := immAll }) (hf : e.f.toNat ≤ 3)
    (hok : tileCheck s t a n n true = stOk) : exec (.stt t e) s = .next (tileWrite (issued s t) t a (leBytes n (xb s t e).toNat)) := by
  have hsize : ¬ 3 < e.f.toNat := by omega
  refine congrArg Host.Outcome.next (issue_of_ok hi ?_)
  rw [if_neg hsize]
  simp only [addrImm_issued, tileCheck_issued, xb_issued, ← ha, ← hn, hok, ne_eq, not_true_eq_false, if_false]

/-- An atomic: the word that it reads, and what the function stores of it. -/
theorem exec_atomic {c : Instr} {f : W64 → W64 → Nat → Option Nat} (hc : exec c s = atomic f t e s) (ha : a = addrImm s t e) (hn : n = 2 ^ e.f.toNat) (hw : w = ofLe (tileRead s t a n))
    (hi : Issues s t e { d := true, a := true, b := true, f := true, imm := immAll }) (hf : e.f.toNat = 2 ∨ e.f.toNat = 3) (hok : tileCheck s t a n n true = stOk)
    (hbad : badIn s (Space.key (.tile (engineNo t)) a) n = false) :
    exec c s = .next (writeX ((f (xd s t e) (xb s t e) w).elim (issued s t) fun v => tileWrite (issued s t) t a (leBytes n v)) t e.d (BitVec.ofNat 64 w)) := by
  have hsize : ¬ (e.f.toNat ≠ 2 ∧ e.f.toNat ≠ 3) := by omega
  refine hc.trans (congrArg Host.Outcome.next (issue_of_ok hi ?_))
  rw [if_neg hsize]
  simp only [addrImm_issued, tileCheck_issued, xb_issued, xd_issued, badIn_issued, tileRead_issued, ← ha, ← hn, hok, hbad, ← hw, ne_eq, not_true_eq_false, if_false, Bool.false_eq_true]
  cases f (xd s t e) (xb s t e) w <;> rfl

theorem length_reads (m : List Host.Cell) (k n : Nat) : (Memory.reads m k n).length = n := by
  induction n generalizing k with
  | zero => rfl
  | succ n ih => rw [Memory.reads, List.length_cons, ih]

theorem length_tileRead (s : State) (t a n : Nat) : (tileRead s t a n).length = n := length_reads ..

theorem thread_writeX (s : State) (t : Nat) (d : BitVec 5) (x : W64) : thread (writeX s t d x) t = (thread s t).setX d.toNat x := by
  simp [writeX, updThread]

theorem gatherCheck_single (p : Nat × Nat) (write : Bool) : gatherCheck s t write [p] = tileCheck s t p.2 4 4 write := by
  simp only [gatherCheck]
  split
  · rfl
  · next h => exact (not_not.1 h).symm

theorem vgath_clause {j x : Nat} (hi : Issues s t e { d := true, a := true, b := true, imm := 0x3F, vd := true, vb := true }) (hm : maskOf s t e = 2 ^ j) (hj : j < 64)
    (hx : x = ((xa s t e).toNat + elemAt .fp32 ((thread s t).vr e.b.toNat) j) % 2 ^ 64) (hok : tileCheck s t x 4 4 false = stOk) :
    ∃ v, GivesV (.vgath t e) s t e.d v 0 ∧ ∀ q, q < 64 → elemAt .fp32 v q = if q = j then ofLe (tileRead s t x 4) else elemAt .fp32 ((thread s t).vr e.d.toNat) q := by
  let xs := (elems 32 64 ((thread s t).vr e.d.toNat)).set j (ofLe (tileRead s t x 4))
  refine ⟨ofElems 32 xs, givesV_of_setV (fl := 0) hi rfl ?_, fun q hq => ?_⟩
  · simp only [gatherAddrs_issued, gatherAddrs_single hm hj, ← hx, gatherCheck_single, tileCheck_issued, hok, vr_issued, tileRead_issued, List.foldl_cons, List.foldl_nil, ne_eq, not_true_eq_false, if_false]
    rw [updThread, addFlags_zero]
  · have hword : ofLe (tileRead s t x 4) < 2 ^ 32 := by
      have h := ofLe_lt (tileRead s t x 4)
      rwa [length_tileRead, show 256 ^ 4 = 2 ^ 32 by norm_num] at h
    have hlen : xs.length = Lane.fp32.count := by
      rw [List.length_set, length_elems]
      rfl
    refine (elemAt_ofElems (l := .fp32) hlen q).trans ?_
    by_cases hqj : q = j
    · subst hqj
      simpa [xs, List.getD_eq_getElem?_getD, hq, Lane.bits] using hword
    · rw [if_neg hqj]
      simp only [xs, List.getD_eq_getElem?_getD, List.getElem?_set_ne (Ne.symm hqj)]
      rw [← List.getD_eq_getElem?_getD, getD_elems _ hq]
      exact Nat.mod_eq_of_lt (bitsOf_lt ..)

theorem vstt_clause (ha : a = addrImm s t e) (hi : Issues s t e { d := false, a := true, b := true, m := 1, imm := immAll, vb := true }) (hm : e.m.getLsbD 0 = false)
    (hok : tileCheck s t a 256 64 true = stOk) :
    ∃ u, exec (.vstt t e) s = .next u ∧ TileWritten s u t a (leBytes 256 ((thread s t).vr e.b.toNat).toNat) ∧ thread u t = stepped s t := by
  have hi' : Issues s t e { d := mBit e 0, a := true, b := true, m := 1, imm := immAll, vb := true } := by rwa [mBit, hm]
  refine ⟨tileWrite (issued s t) t a (leBytes 256 ((thread s t).vr e.b.toNat).toNat), congrArg Host.Outcome.next (issue_of_ok hi' ?_), tileWritten_tileWrite .., (thread_tileWrite ..).trans (thread_issued s t)⟩
  simp only [addrImm_issued, tileCheck_issued, ← ha, hok, vr_issued, mBit, hm, ne_eq, not_true_eq_false, if_false, Bool.false_eq_true]
  rfl

end Clauses

/-- Settles O34: every access is one check on the issuing thread's window and then one read or write of its bytes. -/
theorem tileAccesses : Obligations.TileAccesses := by
  intro s t e a n w ha hn hw
  refine ⟨fun hi hf => ldt_clauses ha hn hw hi hf, fun hi hf hok => ?_, fun hi hf hok hbad => ⟨?_, fun heq => ?_, fun hne => ?_⟩, fun hi hok => ?_, fun hi hm hok => ?_,
    fun j x hi hm hj hx => ⟨fun hok => vgath_clause hi hm hj hx hok, fun hok => ?_⟩⟩
  · exact ⟨_, exec_stt ha hn hi hf hok, tileWritten_tileWrite .., thread_issued s t, fun q hq => thread_issued_other s t hq, tileWrite_frame ..⟩
  · refine ⟨_, exec_atomic (f := fun _ b w => some (w + b.toNat)) rfl ha hn hw hi hf hok hbad, tileWritten_tileWrite .., ?_, rfl⟩
    rw [thread_writeX]
    exact congrArg (Thread.setX · _ _) (thread_issued s t)
  · have hex := exec_atomic (f := fun d b w => if w = d.toNat % 2 ^ (8 * 2 ^ e.f.toNat) then some b.toNat else none) (c := .atcas t e) rfl ha hn hw hi hf hok hbad
    rw [hn] at heq
    simp only [← heq, if_true, Option.elim_some] at hex
    refine ⟨_, hex, tileWritten_tileWrite .., ?_⟩
    rw [thread_writeX]
    exact congrArg (Thread.setX · _ _) (thread_issued s t)
  · have hex := exec_atomic (f := fun d b w => if w = d.toNat % 2 ^ (8 * 2 ^ e.f.toNat) then some b.toNat else none) (c := .atcas t e) rfl ha hn hw hi hf hok hbad
    rw [hn] at hne
    simp only [if_neg hne, Option.elim_none] at hex
    rw [GivesX, hex, writeX_issued, Nat.or_zero]
    rfl
  · refine givesV_of_setV (fl := 0) hi rfl ?_
    have ha' : addrImm s t e = a := ha.symm
    simp only [addrImm_issued, tileCheck_issued, tileRead_issued, ha', hok, ne_eq, not_true_eq_false, if_false]
    rw [updThread, updThread, addFlags_zero]
    rfl
  · exact vstt_clause ha hi hm hok
  · refine ⟨_, congrArg Host.Outcome.next (issue_of_ok hi ?_), tileWritten_tileWrite .., (thread_tileWrite ..).trans (thread_issued s t)⟩
    simp only [gatherAddrs_issued, gatherAddrs_single hm hj, ← hx, gatherCheck_single, tileCheck_issued, hok, vr_issued, List.foldl_cons, List.foldl_nil, ne_eq, not_true_eq_false, if_false]
    rw [getD_elems _ hj]
    rfl

/-! ## Lane-by-lane instructions -/

/-! ### Lane-by-lane instructions (R309, R310) -/

theorem length_mapLanes (g : LaneFn) (mask : Nat) {as bs ds : List Nat} (hb : bs.length = as.length) (hd : ds.length = as.length) (i : Nat) :
    (mapLanes g mask i as bs ds).1.length = as.length := by
  induction as generalizing bs ds i with
  | nil => simp [mapLanes]
  | cons a as ih =>
    match bs, ds, hb, hd with
    | b :: bs, d :: ds, hb, hd =>
      have ih' := ih (Nat.succ_injective hb) (Nat.succ_injective hd) (i + 1)
      simp only [mapLanes]
      split <;> simpa using ih'

/-- An enabled element is what the function gives of the three operands, and a disabled one stays. -/
theorem getD_mapLanes (g : LaneFn) (mask : Nat) {as bs ds : List Nat} (hb : bs.length = as.length) (hd : ds.length = as.length) (i j : Nat) (hj : j < as.length) :
    (mapLanes g mask i as bs ds).1.getD j 0 = if mask.testBit (i + j) then (g (as.getD j 0) (bs.getD j 0) (ds.getD j 0)).1 else ds.getD j 0 := by
  induction as generalizing bs ds i j with
  | nil => simp at hj
  | cons a as ih =>
    match bs, ds, hb, hd with
    | b :: bs, d :: ds, hb, hd =>
      simp only [mapLanes]
      cases j with
      | zero => split <;> simp_all
      | succ j =>
        have ih' := ih (Nat.succ_injective hb) (Nat.succ_injective hd) (i + 1) j (by simpa using hj)
        rw [Nat.add_right_comm, Nat.add_assoc] at ih'
        split <;> simpa using ih'

@[simp] theorem vecB_issued (s : State) (t : Nat) (l : Lane) (e : Enc) : vecB (issued s t) t l e = vecB s t l e := by
  rw [vecB, vr_issued]
  rfl

@[simp] theorem length_vecB (s : State) (t : Nat) (l : Lane) (e : Enc) : (vecB s t l e).length = l.count := by
  rw [vecB]
  split <;> simp

theorem vecB_lt {s : State} {t : Nat} {l : Lane} {e : Enc} (h : l.bits = 32) {j : Nat} (hj : j < l.count) : (vecB s t l e).getD j 0 < 2 ^ 32 := by
  rw [vecB]
  split
  · have himm : immLane l e < 2 ^ 32 := by
      cases l
      case fp64 => simp [Lane.bits] at h
      all_goals exact e.imm.isLt
    simpa [List.getElem?_replicate, hj] using himm
  · rw [getD_elems _ hj]
    exact h ▸ bitsOf_lt ..

section Lanewise
variable {c : Instr} {s : State} {t : Nat} {e : Enc} {l : Lane} {f : Lane → Option LaneFn} {g : LaneFn} {b : Bool} {rel : Nat → Nat → Nat → Nat → Prop}

/-- A lane-by-lane instruction on a supported type: the function relates each enabled element to its operands. -/
theorem lanes_of_lanewise (hi : Issues s t e (usesVec e b)) (hc : exec c s = lanewise f b t e s) (hl : laneOf e.f.toNat = some l) (hf : f l = some g)
    (hrel : ∀ j, j < l.count → rel (elemAt l ((thread s t).vr e.a.toNat) j) ((vecB s t l e).getD j 0) (elemAt l ((thread s t).vr e.d.toNat) j)
      ((g (elemAt l ((thread s t).vr e.a.toNat) j) ((vecB s t l e).getD j 0) (elemAt l ((thread s t).vr e.d.toNat) j)).1 % 2 ^ l.bits)) :
    Lanes c s t e l rel := by
  let r := mapLanes g (maskOf s t e) 0 (elems l.bits l.count ((thread s t).vr e.a.toNat)) (vecB s t l e) (elems l.bits l.count ((thread s t).vr e.d.toNat))
  have hlen : r.1.length = l.count := by
    simpa using length_mapLanes g (maskOf s t e) (as := elems l.bits l.count ((thread s t).vr e.a.toNat)) (bs := vecB s t l e) (ds := elems l.bits l.count ((thread s t).vr e.d.toNat)) (by simp) (by simp) 0
  refine ⟨ofElems l.bits r.1, r.2, givesV_of_setV hi hc ?_, fun j hj => ?_⟩
  · simp only [hl, Option.bind_some, hf, Option.map_some, maskOf_issued, vr_issued, vecB_issued]
    rfl
  · have hget := getD_mapLanes g (maskOf s t e) (as := elems l.bits l.count ((thread s t).vr e.a.toNat)) (bs := vecB s t l e) (ds := elems l.bits l.count ((thread s t).vr e.d.toNat)) (by simp) (by simp) 0 j (by simpa using hj)
    rw [zero_add, getD_elems _ hj, getD_elems _ hj] at hget
    rw [elemAt_ofElems hlen, hget]
    split
    · exact hrel j hj
    · exact Nat.mod_eq_of_lt (elemAt_lt ..)

theorem halts_of_unsupported (hi : Issues s t e (usesVec e b)) (hc : exec c s = lanewise f b t e s) (hf : (laneOf e.f.toNat).bind (fun l => (f l).map (fun g => (l, g))) = none) :
    exec c s = .next (haltThread s t stFormat) := by
  refine hc.trans (congrArg Host.Outcome.next (issue_of_error hi ?_ (by decide)))
  rw [hf]

/-- On INT32 lanes all operands are 32-bit words. -/
theorem lanes_of_int32 (hi : Issues s t e (usesVec e b)) (hc : exec c s = lanewise f b t e s) (hl : e.f = 10) (hf : f .int32 = some g)
    (hrel : ∀ x y d, x < 2 ^ 32 → y < 2 ^ 32 → rel x y d ((g x y d).1 % 2 ^ 32)) : Lanes c s t e .int32 rel :=
  lanes_of_lanewise hi hc (by rw [hl]; rfl) hf fun _ hj => hrel _ _ _ (elemAt_lt ..) (vecB_lt rfl hj)

/-- On FP32 lanes the first operand is a 32-bit word. -/
theorem lanes_of_fp32 (hi : Issues s t e (usesVec e b)) (hc : exec c s = lanewise f b t e s) (hl : e.f = 0) (hf : f .fp32 = some g)
    (hrel : ∀ x y d, x < 2 ^ 32 → rel x y d ((g x y d).1 % 2 ^ 32)) : Lanes c s t e .fp32 rel :=
  lanes_of_lanewise hi hc (by rw [hl]; rfl) hf fun _ _ => hrel _ _ _ (elemAt_lt ..)

end Lanewise

/-! ### The values of single lanes -/

theorem signed_of_lt {x : Nat} (hx : x < 2 ^ 32) : signed 32 x = if x < 2 ^ 31 then (x : Int) else x - 2 ^ 32 := by
  simp only [signed, Nat.mod_eq_of_lt hx]
  norm_num

theorem signed_emod (x : Nat) : signed 32 x % 2 ^ 32 = x % 2 ^ 32 := by
  simp only [signed]
  norm_num
  split <;> omega

theorem unsigned_mod (i : Int) : unsigned 32 i % 2 ^ 32 = unsigned 32 i := by
  simp only [unsigned]
  norm_num
  omega

/-- The word of an integer in range reads back as that integer. -/
theorem signed_unsigned {i : Int} (hlo : -2 ^ 31 ≤ i) (hhi : i < 2 ^ 31) : signed 32 (unsigned 32 i) = i := by
  have hu : unsigned 32 i < 2 ^ 32 := by
    rw [← unsigned_mod]
    exact Nat.mod_lt _ (by decide)
  rw [signed_of_lt hu]
  simp only [unsigned] at *
  norm_num at *
  split <;> omega

theorem signed_range {x : Nat} (hx : x < 2 ^ 32) : -2 ^ 31 ≤ signed 32 x ∧ signed 32 x < 2 ^ 31 := by
  rw [signed_of_lt hx]
  split <;> omega

section Int32
variable {x y : Nat}

theorem intLane_add (x y d : Nat) : (intLane (· + ·) x y d).1 % 2 ^ 32 = (x + y) % 2 ^ 32 := by
  have hx := signed_emod x
  have hy := signed_emod y
  rw [intLane, unsigned_mod, unsigned]
  norm_num at *
  omega

theorem intLane_sub (d : Nat) (hx : x < 2 ^ 32) : ((intLane (· - ·) x y d).1 % 2 ^ 32 + y) % 2 ^ 32 = x := by
  have hx' := signed_emod x
  have hy := signed_emod y
  rw [intLane, unsigned_mod, unsigned]
  norm_num at *
  omega

theorem intLane_mul (x y d : Nat) : (intLane (· * ·) x y d).1 % 2 ^ 32 = x * y % 2 ^ 32 := by
  have h : signed 32 x * signed 32 y % 2 ^ 32 = (x * y : Nat) % 2 ^ 32 := by
    rw [Int.mul_emod, signed_emod, signed_emod, ← Int.mul_emod, Nat.cast_mul]
  rw [intLane, unsigned_mod, unsigned]
  norm_num at *
  omega

theorem signed_intLane (d : Nat) {op : Int → Int → Int} (hx : x < 2 ^ 32) (hy : y < 2 ^ 32)
    (hop : ∀ a b : Int, -2 ^ 31 ≤ a → a < 2 ^ 31 → -2 ^ 31 ≤ b → b < 2 ^ 31 → -2 ^ 31 ≤ op a b ∧ op a b < 2 ^ 31) :
    signed 32 ((intLane op x y d).1 % 2 ^ 32) = op (signed 32 x) (signed 32 y) := by
  obtain ⟨hx1, hx2⟩ := signed_range hx
  obtain ⟨hy1, hy2⟩ := signed_range hy
  obtain ⟨hlo, hhi⟩ := hop _ _ hx1 hx2 hy1 hy2
  rw [intLane, unsigned_mod, signed_unsigned hlo hhi]

theorem intLane_abs (y d : Nat) (hx : x < 2 ^ 32) : (intLane (fun a _ => |a|) x y d).1 % 2 ^ 32 = if x < 2 ^ 31 then x else 2 ^ 32 - x := by
  rw [intLane, unsigned_mod, unsigned, signed_of_lt hx]
  split
  · rw [abs_of_nonneg (by omega)]
    norm_num
    omega
  · rw [abs_of_neg (by omega)]
    norm_num
    omega

theorem intLane_neg (x y d : Nat) : ((intLane (fun a _ => -a) x y d).1 % 2 ^ 32 + x) % 2 ^ 32 = 0 := by
  have hx := signed_emod x
  rw [intLane, unsigned_mod, unsigned]
  norm_num at *
  omega

/-- A word and its number. -/
theorem toNat_ofNat_word (hx : x < 2 ^ 32) : (BitVec.ofNat 32 x).toNat = x := by
  rw [BitVec.toNat_ofNat, Nat.mod_eq_of_lt hx]

theorem toNat_word_mod (w : BitVec 32) : w.toNat % 2 ^ 32 = w.toNat := Nat.mod_eq_of_lt w.isLt

theorem signed_toNat (w : BitVec 32) : signed 32 w.toNat = w.toInt := by
  rw [signed_of_lt w.isLt, BitVec.toInt_eq_toNat_cond]
  split <;> split <;> omega

end Int32

theorem xor_two_pow_of_lt {x n : Nat} (hx : x < 2 ^ n) : x ^^^ 2 ^ n = x + 2 ^ n := by
  refine Nat.eq_of_testBit_eq fun i => ?_
  rw [Nat.testBit_xor, Nat.testBit_two_pow, add_comm]
  rcases lt_trichotomy i n with h | h | h
  · rw [Nat.testBit_two_pow_add_gt h, decide_eq_false h.ne', Bool.xor_false]
  · subst h
    rw [Nat.testBit_two_pow_add_eq, decide_eq_true rfl, Bool.xor_true]
  · have hbig : 2 ^ n + x < 2 ^ i := calc
      2 ^ n + x < 2 ^ (n + 1) := by rw [pow_succ]; omega
      _ ≤ 2 ^ i := Nat.pow_le_pow_right (by decide) h
    rw [Nat.testBit_lt_two_pow hbig, Nat.testBit_lt_two_pow (by omega), decide_eq_false h.ne]
    rfl

/-- The sign bit of a 32-bit pattern flipped. -/
theorem xor_sign {x : Nat} (hx : x < 2 ^ 32) : x ^^^ 2 ^ 31 = if x < 2 ^ 31 then x + 2 ^ 31 else x - 2 ^ 31 := by
  split
  · next h => exact xor_two_pow_of_lt h
  · next h =>
    have hy := xor_two_pow_of_lt (x := x - 2 ^ 31) (n := 31) (by omega)
    rw [Nat.sub_add_cancel (by omega)] at hy
    rw [← hy, Nat.xor_assoc, Nat.xor_self, Nat.xor_zero, hy]

section Clauses
variable {s : State} {t : Nat} {e : Enc}

theorem int32_lanes (hi : Issues s t e (usesVec e true)) (h10 : e.f = 10) :
    Lanes (.vadd t e) s t e .int32 (fun a b _ r => r = (a + b) % 2 ^ 32) ∧ Lanes (.vsub t e) s t e .int32 (fun a b _ r => (r + b) % 2 ^ 32 = a) ∧ Lanes (.vmul t e) s t e .int32 (fun a b _ r => r = a * b % 2 ^ 32) ∧
      Lanes (.vmin t e) s t e .int32 (fun a b _ r => signed 32 r = min (signed 32 a) (signed 32 b)) ∧ Lanes (.vmax t e) s t e .int32 (fun a b _ r => signed 32 r = max (signed 32 a) (signed 32 b)) ∧
      Lanes (.vand t e) s t e .int32 (fun a b _ r => r = a &&& b) ∧ Lanes (.vor t e) s t e .int32 (fun a b _ r => r = a ||| b) ∧ Lanes (.vxor t e) s t e .int32 (fun a b _ r => r = a ^^^ b) ∧
      Lanes (.vshl t e) s t e .int32 (fun a b _ r => r = a * 2 ^ (b % 32) % 2 ^ 32) ∧ Lanes (.vshr t e) s t e .int32 (fun a b _ r => r = a / 2 ^ (b % 32)) ∧ Lanes (.vsar t e) s t e .int32 (fun a b _ r => signed 32 r = signed 32 a / 2 ^ (b % 32)) := by
  refine ⟨lanes_of_int32 (f := arithLane addV (· + ·)) hi rfl h10 rfl ?_, lanes_of_int32 (f := arithLane subV (· - ·)) hi rfl h10 rfl ?_, lanes_of_int32 (f := arithLane mulV (· * ·)) hi rfl h10 rfl ?_,
    lanes_of_int32 (f := fun l => some (if l = .int32 then intLane min else fun a b _ => minMaxF l.fmt false a b)) hi rfl h10 rfl ?_,
    lanes_of_int32 (f := fun l => some (if l = .int32 then intLane max else fun a b _ => minMaxF l.fmt true a b)) hi rfl h10 rfl ?_,
    lanes_of_int32 (f := bitLane (· &&& ·)) hi rfl h10 rfl ?_, lanes_of_int32 (f := bitLane (· ||| ·)) hi rfl h10 rfl ?_, lanes_of_int32 (f := bitLane (· ^^^ ·)) hi rfl h10 rfl ?_,
    lanes_of_int32 (f := bitLane (fun a b => a <<< (b.toNat % 32))) hi rfl h10 rfl ?_, lanes_of_int32 (f := bitLane (fun a b => a >>> (b.toNat % 32))) hi rfl h10 rfl ?_,
    lanes_of_int32 (f := bitLane (fun a b => a.sshiftRight (b.toNat % 32))) hi rfl h10 rfl ?_⟩
  all_goals intro x y d hx hy
  · exact intLane_add x y d
  · exact intLane_sub d hx
  · exact intLane_mul x y d
  · exact signed_intLane d hx hy fun a b => by omega
  · exact signed_intLane d hx hy fun a b => by omega
  all_goals simp only [toNat_word_mod]
  · rw [BitVec.toNat_and, toNat_ofNat_word hx, toNat_ofNat_word hy]
  · rw [BitVec.toNat_or, toNat_ofNat_word hx, toNat_ofNat_word hy]
  · rw [BitVec.toNat_xor, toNat_ofNat_word hx, toNat_ofNat_word hy]
  · rw [BitVec.toNat_shiftLeft, toNat_ofNat_word hx, toNat_ofNat_word hy, Nat.shiftLeft_eq]
  · rw [BitVec.toNat_ushiftRight, toNat_ofNat_word hx, toNat_ofNat_word hy, Nat.shiftRight_eq_div_pow]
  · rw [signed_toNat, BitVec.toInt_sshiftRight, ← signed_toNat, toNat_ofNat_word hx, toNat_ofNat_word hy, Int.shiftRight_eq_div_pow]
    norm_cast

theorem float_lanes {l : Lane} (hi : Issues s t e (usesVec e true)) (hl : laneOf e.f.toNat = some l) (hne : l ≠ .int32) :
    Lanes (.vadd t e) s t e l (fun a b _ r => r = (addV l.fmt (decodeF l.fmt a) (decodeF l.fmt b)).1 % 2 ^ l.bits) ∧
      Lanes (.vmul t e) s t e l (fun a b _ r => r = (mulV l.fmt (decodeF l.fmt a) (decodeF l.fmt b)).1 % 2 ^ l.bits) ∧
      Lanes (.vfma t e) s t e l (fun a b d r => r = (fmaV l.fmt (decodeF l.fmt a) (decodeF l.fmt b) (decodeF l.fmt d)).1 % 2 ^ l.bits) ∧
      Lanes (.vdiv t e) s t e l (fun a b _ r => r = (divV l.fmt (decodeF l.fmt a) (decodeF l.fmt b)).1 % 2 ^ l.bits) :=
  ⟨lanes_of_lanewise (f := arithLane addV (· + ·)) (g := fpLane addV l) hi rfl hl (congrArg some (if_neg hne)) fun _ _ => rfl,
    lanes_of_lanewise (f := arithLane mulV (· * ·)) (g := fpLane mulV l) hi rfl hl (congrArg some (if_neg hne)) fun _ _ => rfl,
    lanes_of_lanewise hi rfl hl (if_neg hne) fun _ _ => rfl,
    lanes_of_lanewise hi rfl hl (if_neg hne) fun _ _ => rfl⟩

theorem unary_fp32_lanes (hi : Issues s t e (usesVec e false)) (h0 : e.f = 0) :
    Lanes (.vabs t e) s t e .fp32 (fun a _ _ r => r = a % 2 ^ 31) ∧ Lanes (.vneg t e) s t e .fp32 (fun a _ _ r => r = if a < 2 ^ 31 then a + 2 ^ 31 else a - 2 ^ 31) ∧
      Lanes (.vsqrt t e) s t e .fp32 (fun a _ _ r => r = (sqrtV fp32 (decodeF fp32 a)).1 % 2 ^ 32) ∧
      Lanes (.vrcp t e) s t e .fp32 (fun a _ _ r => (a = 0x7F800000 → r = 0) ∧ (a = 0xFF800000 → r = 0x80000000) ∧ (a = 0 → r = 0x7F800000) ∧ (a = 0x80000000 → r = 0xFF800000)) ∧
      Lanes (.vrsqrt t e) s t e .fp32 (fun a _ _ r => (a = 0x7F800000 → r = 0) ∧ (a = 0 → r = 0x7F800000) ∧ (a = 0xFF800000 → r = 0x7FC00000)) ∧
      Lanes (.vexp2 t e) s t e .fp32 (fun a _ _ r => (a = 0x7F800000 → r = 0x7F800000) ∧ (a = 0xFF800000 → r = 0)) ∧
      Lanes (.vlog2 t e) s t e .fp32 (fun a _ _ r => (a = 0x7F800000 → r = 0x7F800000) ∧ (a = 0 → r = 0xFF800000) ∧ (a = 0xFF800000 → r = 0x7FC00000)) := by
  refine ⟨lanes_of_fp32 hi rfl h0 rfl ?_, lanes_of_fp32 hi rfl h0 rfl ?_, lanes_of_fp32 hi rfl h0 rfl ?_, lanes_of_fp32 (f := only32 rcpLane) hi rfl h0 rfl ?_,
    lanes_of_fp32 (f := only32 rsqrtLane) hi rfl h0 rfl ?_, lanes_of_fp32 (f := only32 exp2Lane) hi rfl h0 rfl ?_, lanes_of_fp32 (f := only32 log2Lane) hi rfl h0 rfl ?_⟩
  all_goals intro x y d hx
  · show x % 2 ^ 31 % 2 ^ 32 = x % 2 ^ 31
    omega
  · show (x ^^^ 2 ^ 31) % 2 ^ 32 = _
    rw [xor_sign hx]
    split <;> omega
  · rfl
  · refine ⟨?_, ?_, ?_, ?_⟩ <;> rintro rfl <;> rfl
  · refine ⟨?_, ?_, ?_⟩ <;> rintro rfl <;> rfl
  · refine ⟨?_, ?_⟩ <;> rintro rfl <;> rfl
  · refine ⟨?_, ?_, ?_⟩ <;> rintro rfl <;> rfl

end Clauses

/-- Settles O35: the lanes of an instruction are those of its lane function, and each function has its value. -/
theorem vectorLanes : Obligations.VectorLanes := by
  intro s t e
  refine ⟨fun hi => ⟨fun h10 => ?_, fun l hl => ?_, fun hnone => ?_⟩, fun hi => ⟨fun h10 => ⟨?_, ?_⟩, unary_fp32_lanes hi⟩⟩
  · obtain ⟨h1, h2, h3, h4, h5, h6, h7, h8, h9, h11, h12⟩ := int32_lanes hi h10
    exact ⟨h1, h2, h3, h4, h5, h6, h7, h8, h9, h11, h12, halts_of_unsupported hi rfl (by rw [h10]; rfl), halts_of_unsupported hi rfl (by rw [h10]; rfl)⟩
  · rcases hl with ⟨hf, rfl⟩ | ⟨hf, rfl⟩
    · exact float_lanes hi (by rw [hf]; rfl) (by decide)
    · exact float_lanes hi (by rw [hf]; rfl) (by decide)
  · exact halts_of_unsupported hi rfl (by rw [hnone]; rfl)
  · exact lanes_of_int32 hi rfl h10 rfl fun x y d hx _ => intLane_abs y d hx
  · exact lanes_of_int32 hi rfl h10 rfl fun x y d _ _ => intLane_neg x y d

/-! ## Vector moves, conversions and the matrix unit -/

/-! ### Bit fields of a register -/

theorem testBit_bitsOf (w lo len i : Nat) : (bitsOf w lo len).testBit i = (decide (i < len) && w.testBit (lo + i)) := by
  rw [bitsOf, Nat.testBit_mod_two_pow, Nat.testBit_shiftRight]

/-- A field below bit `n` does not see the bits from `n` on. -/
theorem bitsOf_mod_two_pow {w n lo len : Nat} (h : lo + len ≤ n) : bitsOf (w % 2 ^ n) lo len = bitsOf w lo len := by
  refine Nat.eq_of_testBit_eq fun i => ?_
  rw [testBit_bitsOf, testBit_bitsOf, Nat.testBit_mod_two_pow]
  by_cases hi : i < len
  · rw [decide_eq_true (show lo + i < n by omega), Bool.true_and]
  · rw [decide_eq_false hi, Bool.false_and, Bool.false_and]

theorem bitsOf_add (w lo k len : Nat) : bitsOf w (lo + k) len = bitsOf (w >>> lo) k len := by
  rw [bitsOf, bitsOf, Nat.shiftRight_add]

/-- The replaced field reads as the new value. -/
theorem setBits_shiftRight_mod (w lo len v : Nat) : (setBits w lo len v >>> lo) % 2 ^ len = v % 2 ^ len := by
  have hA : 0 < 2 ^ lo := by positivity
  have hb : bitsOf w lo len = w / 2 ^ lo % 2 ^ len := by rw [bitsOf, Nat.shiftRight_eq_div_pow]
  have hdecomp : w = 2 ^ lo * (2 ^ len * (w / 2 ^ lo / 2 ^ len) + w / 2 ^ lo % 2 ^ len) + w % 2 ^ lo := by
    rw [Nat.div_add_mod, Nat.div_add_mod]
  have hset : setBits w lo len v = 2 ^ lo * (2 ^ len * (w / 2 ^ lo / 2 ^ len) + v % 2 ^ len) + w % 2 ^ lo := by
    rw [setBits, place, hb, Nat.shiftLeft_eq, Nat.shiftLeft_eq]
    generalize w / 2 ^ lo / 2 ^ len = h at *
    generalize w / 2 ^ lo % 2 ^ len = b at *
    generalize w % 2 ^ lo = r at *
    subst hdecomp
    rw [mul_add, mul_add]
    have hcomm : b * 2 ^ lo = 2 ^ lo * b := mul_comm ..
    have hcomm' : v % 2 ^ len * 2 ^ lo = 2 ^ lo * (v % 2 ^ len) := mul_comm ..
    omega
  rw [hset, Nat.shiftRight_eq_div_pow, Nat.mul_add_div hA, Nat.div_eq_of_lt (Nat.mod_lt _ hA), add_zero, Nat.mul_add_mod, Nat.mod_mod]

/-- A field inside the replaced one is the new value's. -/
theorem bitsOf_setBits {w lo len v k m : Nat} (h : k + m ≤ len) : bitsOf (setBits w lo len v) (lo + k) m = bitsOf v k m := by
  rw [bitsOf_add, ← bitsOf_mod_two_pow h, setBits_shiftRight_mod, bitsOf_mod_two_pow h]

/-- A field of the bytes put into a register. -/
theorem bitsOf_putBytesV {v : BitVec 2048} {b n x k m : Nat} (h : k + m ≤ 8 * n) (hreg : 8 * b + 8 * n ≤ 2048) :
    bitsOf (putBytesV v b n x).toNat (8 * b + k) m = bitsOf x k m := by
  rw [putBytesV, BitVec.toNat_ofNat, bitsOf_mod_two_pow (by omega), bitsOf_setBits h]

/-! ### Comparison bits (R310) -/

theorem cmpLanes_int32 (cond mask : Nat) {as bs : List Nat} (hlen : bs.length = as.length) (i : Nat) :
    2 ^ i ∣ (cmpLanes .int32 cond mask i as bs).1 ∧ (cmpLanes .int32 cond mask i as bs).2 = 0 ∧
      ∀ j, j < as.length → (cmpLanes .int32 cond mask i as bs).1.testBit (i + j) = (mask.testBit (i + j) && cmpI cond (signed 32 (as.getD j 0)) (signed 32 (bs.getD j 0))) := by
  induction as generalizing bs i with
  | nil => simp [cmpLanes]
  | cons a as ih =>
    match bs, hlen with
    | b :: bs, hlen =>
      obtain ⟨⟨m, hm⟩, hfl, hbits⟩ := ih (Nat.succ_injective hlen) (i + 1)
      have hval (c : Bool) : 2 ^ (i + 1) * m + placeB c i = 2 ^ i * (2 * m + c.toNat) := by
        cases c <;> simp [placeB, pow_succ] <;> ring
      have hodd (c : Bool) : (2 * m + c.toNat).testBit 0 = c := by cases c <;> simp [Nat.testBit_zero]
      have hhigh (c : Bool) (j : Nat) : (2 * m + c.toNat).testBit (j + 1) = m.testBit j := by
        rw [Nat.testBit_succ]
        congr 1
        rw [Nat.mul_add_div two_pos, Nat.div_eq_of_lt (Bool.toNat_lt c), add_zero]
      have hr : cmpLanes .int32 cond mask i (a :: as) (b :: bs) = (2 ^ i * (2 * m + (mask.testBit i && cmpI cond (signed 32 a) (signed 32 b)).toNat), 0) := by
        simp only [cmpLanes, if_true]
        rw [← hval, ← hm]
        cases mask.testBit i
        · exact Prod.ext (by simp [placeB]) hfl
        · exact Prod.ext (by simp) (by simp [hfl])
      rw [hr]
      refine ⟨dvd_mul_right .., rfl, fun j hj => ?_⟩
      rw [Nat.testBit_two_pow_mul, decide_eq_true (Nat.le_add_right i j), Bool.true_and, Nat.add_sub_cancel_left]
      cases j with
      | zero => exact hodd _
      | succ j =>
        have hb := hbits j (by simpa using hj)
        rw [hm, Nat.testBit_two_pow_mul, decide_eq_true (by omega), Bool.true_and, Nat.add_sub_cancel_left, Nat.add_right_comm, Nat.add_assoc] at hb
        rw [hhigh, hb]
        rfl

/-! ### The pairwise tree (R312) -/

theorem length_foldPairs {α : Type} (f : α → α → α) {l : List α} {k : Nat} (h : l.length = 2 * k) : (foldPairs f l).length = k := by
  induction k generalizing l with
  | zero => rw [List.length_eq_zero_iff.1 h]; rfl
  | succ k ih =>
    match l, h with
    | a :: b :: l, h => simpa [foldPairs] using ih (by simpa [Nat.mul_succ] using h)

/-- A property of lists that every level keeps holds of the one element that is left. -/
theorem foldTree_single {α : Type} {f : α → α → α} {P : List α → Prop} (hP : ∀ l, P l → P (foldPairs f l)) {k : Nat} {l : List α} (hl : l.length = 2 ^ k) (h : P l) :
    ∃ r, foldTree f k l = [r] ∧ P [r] := by
  induction k generalizing l with
  | zero =>
    obtain ⟨r, rfl⟩ := List.length_eq_one_iff.1 hl
    exact ⟨r, rfl, h⟩
  | succ k ih => exact ih (length_foldPairs f (by rw [hl, pow_succ, mul_comm])) (hP l h)

/-- Words without flags whose sum modulo 2^32 is `n`. -/
def SumsTo (n : Nat) (l : List (Nat × Nat)) : Prop := (∀ x ∈ l, x.2 = 0 ∧ x.1 < 2 ^ 32) ∧ (l.map (·.1)).sum % 2 ^ 32 = n

theorem sumsTo_foldPairs {n : Nat} {l : List (Nat × Nat)} (h : SumsTo n l) : SumsTo n (foldPairs (addElem .int32) l) := by
  induction l using foldPairs.induct generalizing n with
  | case1 a b l ih =>
    obtain ⟨hall, hsum⟩ := h
    obtain ⟨ha, -⟩ := hall a (by simp)
    obtain ⟨hb, -⟩ := hall b (by simp)
    obtain ⟨hall', hsum'⟩ := ih ⟨fun x hx => hall x (by simp [hx]), rfl⟩
    refine ⟨fun x hx => ?_, ?_⟩
    · rcases List.mem_cons.1 hx with rfl | hx
      · exact ⟨by simp [addElem, ha, hb], Nat.mod_lt _ (by decide)⟩
      · exact hall' x hx
    · simp only [foldPairs, addElem, if_true, List.map_cons, List.sum_cons] at hsum ⊢
      omega
  | case2 l hl =>
    match l, hl with
    | [], _ => exact h
    | [a], _ => exact h
    | a :: b :: l, hl => exact absurd rfl (hl a b l)

/-! ### Words of eight bits -/

theorem signed_eight {x : Nat} : signed 8 x = if x % 256 < 128 then ((x % 256 : Nat) : Int) else (x % 256 : Nat) - 256 := by
  simp only [signed]
  norm_num

theorem signed_unsigned_eight {i : Int} (hlo : -128 ≤ i) (hhi : i ≤ 127) : signed 8 (unsigned 8 i % 2 ^ 8) = i := by
  rw [signed_eight, unsigned]
  norm_num
  split <;> omega

theorem signed_eight_range (x : Nat) : -128 ≤ signed 8 x ∧ signed 8 x ≤ 127 := by
  rw [signed_eight]
  split <;> omega

theorem satInt_eight (i : Int) : (satInt 8 i).1 = max (-128) (min 127 i) := by
  simp only [satInt]
  norm_num
  split
  · omega
  · split <;> omega

section Clauses
variable {s : State} {t : Nat} {e : Enc}

theorem laneOf_ten (h10 : e.f = 10) : laneOf e.f.toNat = some .int32 := by rw [h10]; rfl

theorem toNat_ofNat_testBit (x : Nat) {j : Nat} (hj : j < 64) : (BitVec.ofNat 64 x).toNat.testBit j = x.testBit j := by
  rw [BitVec.toNat_ofNat, Nat.testBit_mod_two_pow, decide_eq_true hj, Bool.true_and]

theorem addFlags_writeX_zero (s : State) (t : Nat) (d : BitVec 5) (w : W64) : addFlags (writeX s t d w) t 0 = writeX s t d w := by
  rw [writeX, updThread, addFlags_zero]

theorem addFlags_setV_zero (s : State) (t d : Nat) (w : BitVec 2048) : addFlags (updThread s t (fun x => x.setV d w)) t 0 = updThread s t (fun x => x.setV d w) := by
  rw [updThread, addFlags_zero]

/-- Elements chosen lane by lane under a mask. -/
theorem elemAt_mapLanes (g : LaneFn) (mask : Nat) {as bs ds : List Nat} (ha : as.length = 64) (hb : bs.length = 64) (hd : ds.length = 64) {j : Nat} (hj : j < 64) :
    elemAt .int32 (ofElems 32 (mapLanes g mask 0 as bs ds).1) j = (if mask.testBit j then (g (as.getD j 0) (bs.getD j 0) (ds.getD j 0)).1 else ds.getD j 0) % 2 ^ 32 := by
  refine (elemAt_ofElems (l := .int32) ((length_mapLanes g mask (hb.trans ha.symm) (hd.trans ha.symm) 0).trans ha) j).trans ?_
  rw [getD_mapLanes g mask (hb.trans ha.symm) (hd.trans ha.symm) 0 j (by omega), zero_add]
  rfl

theorem getD_elems_int32 (v : BitVec 2048) {j : Nat} (hj : j < 64) : (elems 32 64 v).getD j 0 = elemAt .int32 v j := getD_elems v hj

theorem elemAt_mod (v : BitVec 2048) (j : Nat) : elemAt .int32 v j % 2 ^ 32 = elemAt .int32 v j := Nat.mod_eq_of_lt (elemAt_lt .int32 v j)

theorem vcmp_clause (hi : Issues s t e { usesVec e true with vd := false, m := 15 }) (h10 : e.f = 10) (hm : e.m = 2) :
    ∃ r, GivesX (.vcmp t e) s t e.d r 0 ∧ ∀ j, j < 64 → (r.toNat.testBit j = true ↔
      (maskOf s t e).testBit j = true ∧ signed 32 (elemAt .int32 ((thread s t).vr e.a.toNat) j) < signed 32 ((vecB s t .int32 e).getD j 0)) := by
  obtain ⟨-, hfl, hbits⟩ := cmpLanes_int32 2 (maskOf s t e) (as := elems 32 64 ((thread s t).vr e.a.toNat)) (bs := vecB s t .int32 e) (by rw [length_vecB, length_elems]; rfl) 0
  refine ⟨BitVec.ofNat 64 (cmpLanes .int32 2 (maskOf s t e) 0 (elems 32 64 ((thread s t).vr e.a.toNat)) (vecB s t .int32 e)).1, givesX_of_writeX hi rfl ?_, fun j hj => ?_⟩
  · simp only [laneOf_ten h10, hm, maskOf_issued, vr_issued, vecB_issued]
    exact congrArg Except.ok ((congrArg (addFlags _ t) hfl).trans (addFlags_writeX_zero ..))
  · rw [toNat_ofNat_testBit _ hj]
    have hb := hbits j (by simpa using hj)
    rw [zero_add, getD_elems _ hj] at hb
    rw [hb, Bool.and_eq_true, cmpI, decide_eq_true_iff]
    rfl

theorem vsel_clause (hi : Issues s t e { d := true, a := true, b := true, f := true, imm := 0x1F, vd := true, va := true, vb := true }) (h10 : e.f = 10) :
    ∃ w, GivesV (.vsel t e) s t e.d w 0 ∧ ∀ j, j < 64 → elemAt .int32 w j =
      if ((thread s t).xr (bitsOf e.imm.toNat 0 5)).toNat.testBit j then elemAt .int32 ((thread s t).vr e.a.toNat) j else elemAt .int32 ((thread s t).vr e.b.toNat) j := by
  let b := elems 32 64 ((thread s t).vr e.b.toNat)
  let r := mapLanes (fun a _ _ => (a, 0)) ((thread s t).xr (bitsOf e.imm.toNat 0 5)).toNat 0 (elems 32 64 ((thread s t).vr e.a.toNat)) b b
  refine ⟨ofElems 32 r.1, givesV_of_setV (fl := 0) hi rfl ?_, fun j hj => ?_⟩
  · simp only [laneOf_ten h10, vr_issued, addFlags_setV_zero]
    rw [thread_issued]
    rfl
  · rw [elemAt_mapLanes _ _ (length_elems ..) (length_elems ..) (length_elems ..) hj, getD_elems_int32 _ hj, getD_elems_int32 _ hj]
    split <;> exact elemAt_mod ..

theorem vperm_clause (hi : Issues s t e (usesVec e true)) (h10 : e.f = 10) :
    Lanes (.vperm t e) s t e .int32 (fun _ b _ r => r = elemAt .int32 ((thread s t).vr e.a.toNat) (b % 64)) := by
  let src := elems 32 64 ((thread s t).vr e.a.toNat)
  let r := mapLanes (fun _ b _ => (src.getD (b % 64) 0, 0)) (maskOf s t e) 0 src (vecB s t .int32 e) (elems 32 64 ((thread s t).vr e.d.toNat))
  refine ⟨ofElems 32 r.1, 0, givesV_of_setV hi rfl ?_, fun j hj => ?_⟩
  · simp only [laneOf_ten h10, vr_issued, maskOf_issued, vecB_issued, addFlags_setV_zero]
    rfl
  · rw [elemAt_mapLanes _ _ (length_elems ..) (length_vecB ..) (length_elems ..) hj, getD_elems_int32 _ (Nat.mod_lt _ (by decide)), getD_elems_int32 _ hj]
    split <;> exact elemAt_mod ..

theorem vbcast_clause (hi : Issues s t e { d := true, a := !e.i, i := true, f := true, imm := if e.i then immAll else 0x3F, vd := true }) (h10 : e.f = 10) :
    ∃ w, GivesV (.vbcast t e) s t e.d w 0 ∧ ∀ j, j < 64 → elemAt .int32 w j =
      if (maskOf s t e).testBit j then (if e.i then e.imm.toNat else (xa s t e).toNat % 2 ^ 32) else elemAt .int32 ((thread s t).vr e.d.toNat) j := by
  let old := elems 32 64 ((thread s t).vr e.d.toNat)
  let r := mapLanes (fun _ _ _ => (if e.i then e.imm.toNat else (xa s t e).toNat % 2 ^ 32, 0)) (maskOf s t e) 0 old old old
  refine ⟨ofElems 32 r.1, givesV_of_setV (fl := 0) hi rfl ?_, fun j hj => ?_⟩
  · simp only [laneOf_ten h10, vr_issued, maskOf_issued, xa_issued, addFlags_setV_zero]
    rfl
  · rw [elemAt_mapLanes _ _ (length_elems ..) (length_elems ..) (length_elems ..) hj, getD_elems_int32 _ hj]
    have hv : (if e.i = true then e.imm.toNat else (xa s t e).toNat % 2 ^ 32) < 2 ^ 32 := by
      split
      · exact e.imm.isLt
      · exact Nat.mod_lt _ (by decide)
    split
    · exact Nat.mod_eq_of_lt hv
    · exact elemAt_mod ..

theorem immBits_six (e : Enc) : ¬ Lane.count .int32 ≤ immBits e 0 6 := by
  have h := bitsOf_lt e.imm.toNat 0 6
  simp only [immBits, Lane.count]
  omega

theorem vext_clause (hi : Issues s t e { d := true, a := true, f := true, imm := 0x3F, va := true }) (h10 : e.f = 10) :
    GivesX (.vext t e) s t e.d (BitVec.ofNat 64 (elemAt .int32 ((thread s t).vr e.a.toNat) (bitsOf e.imm.toNat 0 6))) 0 := by
  refine givesX_of_writeX hi rfl ?_
  simp only [laneOf_ten h10, if_neg (immBits_six e), vr_issued]
  rfl

theorem vins_clause (hi : Issues s t e { d := true, a := true, f := true, imm := 0x3F, vd := true }) (h10 : e.f = 10) :
    ∃ w, GivesV (.vins t e) s t e.d w 0 ∧ ∀ j, j < 64 → elemAt .int32 w j =
      if j = bitsOf e.imm.toNat 0 6 then (xa s t e).toNat % 2 ^ 32 else elemAt .int32 ((thread s t).vr e.d.toNat) j := by
  let new := (elems 32 64 ((thread s t).vr e.d.toNat)).set (bitsOf e.imm.toNat 0 6) ((xa s t e).toNat % 2 ^ 32)
  refine ⟨ofElems 32 new, givesV_of_setV (fl := 0) hi rfl ?_, fun j hj => ?_⟩
  · simp only [laneOf_ten h10, if_neg (immBits_six e), vr_issued, xa_issued, addFlags_setV_zero]
    rfl
  · have hlen : new.length = Lane.int32.count := by
      rw [List.length_set, length_elems]
      rfl
    refine (elemAt_ofElems (l := .int32) hlen j).trans ?_
    simp only [new, List.getD_eq_getElem?_getD]
    split
    · next h =>
      subst h
      rw [List.getElem?_set_self (by simpa using hj)]
      exact Nat.mod_mod ..
    · next h =>
      rw [List.getElem?_set_ne (Ne.symm h), ← List.getD_eq_getElem?_getD, getD_elems_int32 _ hj]
      exact elemAt_mod ..

theorem maskedBy_elems (mask : Nat) (v : BitVec 2048) :
    maskedBy mask 0 (elems 32 64 v) = (List.range 64).map (fun j => if mask.testBit j then elemAt .int32 v j else 0) := by
  refine List.ext_getElem (by simp [maskedBy]) fun j h _ => ?_
  simp [maskedBy, elems, elemAt, Lane.bits]

theorem vredadd_clause (hi : Issues s t e { d := true, a := true, f := true, imm := 0x3F, va := true }) (h10 : e.f = 10) :
    GivesX (.vredadd t e) s t e.d (BitVec.ofNat 64 (((List.range 64).map (fun j => if (maskOf s t e).testBit j then elemAt .int32 ((thread s t).vr e.a.toNat) j else 0)).sum % 2 ^ 32)) 0 := by
  let xs := (List.range 64).map (fun j => if (maskOf s t e).testBit j then elemAt .int32 ((thread s t).vr e.a.toNat) j else 0)
  have hsum : SumsTo (xs.sum % 2 ^ 32) (xs.map (fun x => (x, 0))) := by
    refine ⟨fun x hx => ?_, by simp [Function.comp_def]⟩
    obtain ⟨y, hy, rfl⟩ := List.mem_map.1 hx
    obtain ⟨j, -, rfl⟩ := List.mem_map.1 hy
    refine ⟨rfl, ?_⟩
    show (if _ then _ else _) < 2 ^ 32
    split
    · exact elemAt_lt .int32 ..
    · decide
  obtain ⟨⟨r, fl⟩, hr, hall, hval⟩ := foldTree_single (P := SumsTo (xs.sum % 2 ^ 32)) (fun _ => sumsTo_foldPairs) (k := 6) (l := xs.map (fun x => (x, 0))) (by simp [xs]) hsum
  obtain ⟨rfl, hlt⟩ := hall (r, fl) (by simp)
  have hrsum : r = xs.sum % 2 ^ 32 := by rw [← hval]; exact (Nat.mod_eq_of_lt (by simpa using hlt)).symm
  refine givesX_of_writeX hi rfl ?_
  simp only [laneOf_ten h10, vr_issued, maskOf_issued]
  rw [show elems Lane.int32.bits Lane.int32.count ((thread s t).vr e.a.toNat) = elems 32 64 ((thread s t).vr e.a.toNat) from rfl, maskedBy_elems, hr]
  exact congrArg Except.ok ((addFlags_writeX_zero ..).trans (by rw [hrsum]))

theorem vredmax_clause (hi : Issues s t e { d := true, a := true, f := true, imm := 0x3F, va := true }) (h10 : e.f = 10) (hm : maskOf s t e % 2 ^ 64 = 0) :
    GivesX (.vredmax t e) s t e.d 0x80000000 0 := by
  have hbit (j : Nat) (hj : j < 64) : (maskOf s t e).testBit j = false := by
    have h := Nat.testBit_mod_two_pow (maskOf s t e) 64 j
    rw [hm, Nat.zero_testBit, decide_eq_true hj, Bool.true_and] at h
    exact h.symm
  have hnone (v : BitVec 2048) : ((elems 32 64 v).zip (List.range (elems 32 64 v).length)).map (fun p => if (maskOf s t e).testBit p.2 then some (p.1, 0) else none) = List.replicate 64 (none : Option (Nat × Nat)) := by
    refine List.ext_getElem (by simp) fun j h _ => ?_
    have hj : j < 64 := by simpa using h
    rw [List.getElem_replicate]
    simp [hbit j hj]
  refine givesX_of_writeX hi rfl ?_
  simp only [laneOf_ten h10, vr_issued, maskOf_issued]
  rw [show elems Lane.int32.bits Lane.int32.count ((thread s t).vr e.a.toNat) = elems 32 64 ((thread s t).vr e.a.toNat) from rfl, hnone]
  rfl

/-! ### Conversions (R311) -/

theorem vcvtn_clause (hi : Issues s t e { d := true, a := true, f := true, m := 1, imm := 0x70F, vd := true, va := true }) (h7 : e.f = 7) (hm : e.m = 0) (hsrc : bitsOf e.imm.toNat 0 4 = 10)
    (hp : bitsOf e.imm.toNat 8 3 < 4) :
    ∃ w fl, GivesV (.vcvtn t e) s t e.d w fl ∧ ∀ j, j < 64 → signed 8 (bitsOf w.toNat (512 * bitsOf e.imm.toNat 8 3 + 8 * j) 8) = max (-128) (min 127 (signed 32 (elemAt .int32 ((thread s t).vr e.a.toNat) j))) := by
  let y := narrowElems (.int 8) true none (elems 32 64 ((thread s t).vr e.a.toNat))
  refine ⟨putBytesV ((thread s t).vr e.d.toNat) (64 * bitsOf e.imm.toNat 8 3) 64 (packE 8 y.1), y.2, givesV_of_setV hi rfl ?_, fun j hj => ?_⟩
  · have hn : narrowOf e.f.toNat = some (.int 8) := by rw [h7]; rfl
    have hstoch : mBit e 0 = false := by rw [mBit, hm]; rfl
    have hpart : ¬ Narrow.parts (.int 8) ≤ bitsOf e.imm.toNat 8 3 := by
      rw [show Narrow.parts (.int 8) = 4 from rfl]
      omega
    simp only [hn, hstoch, immBits, hsrc, hpart, vr_issued]
    simp only [updThread, thread_issued]
    simp only [ne_eq, OfNat.ofNat_ne_zero, not_false_eq_true, not_true_eq_false, and_false, Bool.not_true, Bool.false_eq_true, and_true, Bool.not_false, or_self, ↓reduceIte, BEq.rfl, setThread_issued,
      Except.ok.injEq]
    rfl
  · rw [show 512 * bitsOf e.imm.toNat 8 3 + 8 * j = 8 * (64 * bitsOf e.imm.toNat 8 3) + 8 * j by ring, bitsOf_putBytesV (by omega) (by omega), bitsOf_packE]
    have hy : y.1.getD j 0 = unsigned 8 (satInt 8 (signed 32 (elemAt .int32 ((thread s t).vr e.a.toNat) j))).1 := by
      simp [y, narrowElems, elems, hj, elemAt, Lane.bits]
    rw [hy, satInt_eight]
    exact signed_unsigned_eight (by omega) (by omega)

theorem foldl_or_zero {α : Type} (f : α → Nat) {l : List α} (h : ∀ x ∈ l, f x = 0) : l.foldl (fun a r => a ||| f r) 0 = 0 := by
  induction l with
  | nil => rfl
  | cons x l ih =>
    rw [List.foldl_cons, h x (by simp)]
    exact ih fun y hy => h y (by simp [hy])

theorem vcvtw_clause (hi : Issues s t e { d := true, a := true, f := true, imm := 0x700, vd := true, va := true }) (h7 : e.f = 7) (hp : bitsOf e.imm.toNat 8 3 < 4) :
    ∃ w, GivesV (.vcvtw t e) s t e.d w 0 ∧ ∀ j, j < 64 → signed 32 (elemAt .int32 w j) = signed 8 (bitsOf ((thread s t).vr e.a.toNat).toNat (512 * bitsOf e.imm.toNat 8 3 + 8 * j) 8) := by
  let q (j : Nat) := bitsOf ((thread s t).vr e.a.toNat).toNat (512 * bitsOf e.imm.toNat 8 3 + 8 * j) 8
  let rs := (((List.range 64).map q).zip (List.range 64)).map (fun q => (unsigned 32 (signed 8 q.1), 0))
  refine ⟨ofElems 32 (rs.map (·.1)), givesV_of_setV hi rfl ?_, fun j hj => ?_⟩
  · have hn : narrowOf e.f.toNat = some (.int 8) := by rw [h7]; rfl
    have hpart : ¬ Narrow.parts (.int 8) ≤ bitsOf e.imm.toNat 8 3 := by
      rw [show Narrow.parts (.int 8) = 4 from rfl]
      omega
    have hfl : rs.foldl (fun a r => a ||| r.2) 0 = 0 := foldl_or_zero _ fun x hx => by
      obtain ⟨y, -, rfl⟩ := List.mem_map.1 hx
      rfl
    simp only [hn, immBits, hpart, vr_issued, if_false]
    exact congrArg Except.ok (congrArg (addFlags _ t) hfl)
  · have hlen : (rs.map (·.1)).length = Lane.int32.count := by
      simp [rs, Lane.count]
    refine (congrArg (signed 32) (elemAt_ofElems (l := .int32) hlen j)).trans ?_
    obtain ⟨hlo, hhi⟩ := signed_eight_range (q j)
    have hr : (rs.map (·.1)).getD j 0 = unsigned 32 (signed 8 (q j)) := by simp [rs, hj]
    rw [hr, Lane.bits, unsigned_mod]
    · exact signed_unsigned (by omega) (by omega)
    · simp

theorem vcvt_clause (hi : Issues s t e { d := true, a := true, f := true, imm := 0xF, vd := true, va := true }) (h10 : e.f = 10) (hsrc : bitsOf e.imm.toNat 0 4 = 0) :
    ∃ w fl, GivesV (.vcvt t e) s t e.d w fl ∧ ∀ j, j < 64 → elemAt .int32 w j = (convI 32 (decodeF fp32 (elemAt .fp32 ((thread s t).vr e.a.toNat) j))).1 % 2 ^ 32 := by
  let rs := (elems 32 64 ((thread s t).vr e.a.toNat)).map (fun w => convI 32 (decodeF fp32 w))
  refine ⟨putBytesV ((thread s t).vr e.d.toNat) 0 256 (packE 32 (rs.map (·.1))), rs.foldl (fun a r => a ||| r.2) 0, givesV_of_setV hi rfl ?_, fun j hj => ?_⟩
  · simp only [laneOf_ten h10, immBits, hsrc, vr_issued]
    rfl
  · have hb := bitsOf_putBytesV (v := (thread s t).vr e.d.toNat) (b := 0) (n := 256) (x := packE 32 (rs.map (·.1))) (k := 32 * j) (m := 32) (by omega) (by omega)
    rw [mul_zero, zero_add, bitsOf_packE] at hb
    refine hb.trans ?_
    simp [rs, elems, hj, elemAt, Lane.bits]

/-! ### The matrix unit (R314 to R317) -/

@[simp] theorem mmaPlaceOk_issued (p : Pair) (cb4 : Bool) (m : MmaArgs) : mmaPlaceOk (issued s t) t p cb4 m = mmaPlaceOk s t p cb4 m := by
  simp [mmaPlaceOk]

@[simp] theorem mmaBad_issued (p : Pair) (cb4 : Bool) (m : MmaArgs) : mmaBad (issued s t) t p cb4 m = mmaBad s t p cb4 m := rfl

@[simp] theorem mmaElem_issued (p : Pair) (m : MmaArgs) (r c : Nat) : mmaElem (issued s t) t p m r c = mmaElem s t p m r c := rfl

theorem xr_issued (r : Nat) : (thread (issued s t) t).xr r = (thread s t).xr r := by rw [thread_issued]; rfl

theorem sum_bound {l : List Int} {b : Int} (h : ∀ x ∈ l, -b ≤ x ∧ x ≤ b) : -(b * l.length) ≤ l.sum ∧ l.sum ≤ b * l.length := by
  induction l with
  | nil => simp
  | cons x l ih =>
    obtain ⟨hlo, hhi⟩ := h x (by simp)
    obtain ⟨hlo', hhi'⟩ := ih fun y hy => h y (by simp [hy])
    rw [List.sum_cons, List.length_cons, Nat.cast_succ, mul_add, mul_one]
    omega

theorem satInt_of_range {i : Int} (hlo : -2 ^ 31 ≤ i) (hhi : i < 2 ^ 31) : satInt 32 i = (i, false) := by
  have h1 : ¬ (2 : Int) ^ (32 - 1) - 1 < i := by norm_num at *; omega
  have h2 : ¬ i < -(2 : Int) ^ (32 - 1) := by norm_num at *; omega
  simp only [satInt, if_neg h1, if_neg h2]

theorem mul_eight_range (x y : Nat) : -16384 ≤ signed 8 x * signed 8 y ∧ signed 8 x * signed 8 y ≤ 16384 := by
  obtain ⟨hx, hx'⟩ := signed_eight_range x
  obtain ⟨hy, hy'⟩ := signed_eight_range y
  constructor <;> nlinarith

/-- An element of 32 INT8 products is their exact sum: it cannot leave 32 bits. -/
theorem signed_mmaElem {m : MmaArgs} (hk : m.k = 32) (hacc : m.acc = false) (hsp : m.sparse = false) :
    signed 32 (mmaElem s t (.int 8 8) m 0 0).1 = ((List.range 32).map (fun k => signed 8 (aElem s t (.int 8 8) m 0 k) * signed 8 (bElem s t (.int 8 8) m k 0))).sum := by
  have hsum : (kPairs s t m 0).foldl (fun acc q => acc + signed 8 (aElem s t (.int 8 8) m 0 q.1) * signed 8 (bElem s t (.int 8 8) m q.2 0)) (signed 32 0) =
      ((List.range 32).map (fun k => signed 8 (aElem s t (.int 8 8) m 0 k) * signed 8 (bElem s t (.int 8 8) m k 0))).sum := by
    rw [kPairs, hsp, hk, List.sum_eq_foldl, List.foldl_map, if_neg Bool.false_ne_true, List.foldl_map]
    rfl
  obtain ⟨hlo, hhi⟩ := sum_bound (l := (List.range 32).map (fun k => signed 8 (aElem s t (.int 8 8) m 0 k) * signed 8 (bElem s t (.int 8 8) m k 0))) (b := 16384) fun x hx => by
    obtain ⟨k, -, rfl⟩ := List.mem_map.1 hx
    exact mul_eight_range ..
  rw [List.length_map, List.length_range] at hlo hhi
  simp only [mmaElem, hacc, mmaInt, Bool.false_eq_true, if_false, Pair.abits, Pair.bbits, hsum]
  rw [satInt_of_range (by omega) (by omega), signed_unsigned (by omega) (by omega)]

theorem mma_clauses {m : MmaArgs} (hi : Issues s t e { d := true, a := true, b := true, f := true, m := 3, imm := 0xFFFFFF }) (hd : e.d.toNat ≤ 30) (ha : e.a.toNat ≤ 30) (hb : e.b.toNat ≤ 30)
    (hm0 : e.m = 0) (h7 : e.f = 7) (himm : e.imm = 0x700000)
    (hm : m = ({ k := 32, rows := 1, cols := 1, acc := false, sparse := false, aBase := (xa s t e).toNat, aStride := ((thread s t).xr (e.a.toNat + 1)).toNat, bBase := (xb s t e).toNat, bStride := ((thread s t).xr (e.b.toNat + 1)).toNat, meta_ := ((thread s t).xr (e.b.toNat + 2)).toNat, cBase := (xd s t e).toNat, cStride := ((thread s t).xr (e.d.toNat + 1)).toNat } : MmaArgs)) :
    (mmaShapeOk (.int 8 8) false m = true → mmaPlaceOk s t (.int 8 8) false m = true → mmaBad s t (.int 8 8) false m = false → ∃ u r, exec (.mma t e) s = .next u ∧ TileWritten s u t m.cBase (leBytes 4 r) ∧
      signed 32 r = ((List.range 32).map (fun k => signed 8 (aElem s t (.int 8 8) m 0 k) * signed 8 (bElem s t (.int 8 8) m k 0))).sum) ∧
    (mmaShapeOk (.int 8 8) false m = false → exec (.mma t e) s = .next (haltThread s t stDescInvalid)) ∧
    (mmaShapeOk (.int 8 8) false m = true → mmaPlaceOk s t (.int 8 8) false m = false → exec (.mma t e) s = .next (haltThread s t stFirewall)) := by
  have hregs : ¬ (31 < e.d.toNat + 1 ∨ 31 < e.a.toNat + 1 ∨ 31 < e.b.toNat + 1) := by omega
  have hacc : mBit e 0 = false := by rw [mBit, hm0]; rfl
  have hsp : mBit e 1 = false := by rw [mBit, hm0]; rfl
  have hpair : pairOf e.f.toNat (immBits e 20 4) = some (.int 8 8, true) := by rw [h7, immBits, himm]; rfl
  have hk : immBits e 0 8 = 0 := by rw [immBits, himm]; rfl
  have hrows : immBits e 8 6 = 0 := by rw [immBits, himm]; rfl
  have hcols : immBits e 14 6 = 0 := by rw [immBits, himm]; rfl
  have harg : ({ k := 32 * (0 + 1), rows := 0 + 1, cols := 0 + 1, acc := false, sparse := false, aBase := ((thread s t).xr e.a.toNat).toNat, aStride := ((thread s t).xr (e.a.toNat + 1)).toNat, bBase := ((thread s t).xr e.b.toNat).toNat, bStride := ((thread s t).xr (e.b.toNat + 1)).toNat, meta_ := ((thread s t).xr (e.b.toNat + 2)).toNat, cBase := ((thread s t).xr e.d.toNat).toNat, cStride := ((thread s t).xr (e.d.toNat + 1)).toNat } : MmaArgs) = m := hm.symm
  refine ⟨fun hshape hplace hbad => ?_, fun hshape => ?_, fun hshape hplace => ?_⟩
  · refine ⟨addFlags (updThread (tileWrite (issued s t) t m.cBase (leBytes 4 (mmaElem s t (.int 8 8) m 0 0).1)) t (fun x => { x with mma := some (m.cBase, m.cStride, 1, 4 * 1) })) t (mmaElem s t (.int 8 8) m 0 0).2,
      (mmaElem s t (.int 8 8) m 0 0).1, congrArg Host.Outcome.next (issue_of_ok hi ?_), tileWritten_tileWrite s t m.cBase _, signed_mmaElem (by rw [hm]) (by rw [hm]) (by rw [hm])⟩
    simp only [hsp, hacc, hpair, hk, hrows, hcols, xr_issued, if_neg hregs, Bool.false_eq_true, if_false, Bool.false_and, harg, hshape, mmaPlaceOk_issued, hplace, mmaBad_issued, hbad, Bool.not_true, mmaElem_issued]
    simp only [zero_add, List.range_one, List.map_cons, List.map_nil, List.zip_cons_cons, List.zip_nil_left, List.foldl_cons, List.foldl_nil, List.flatMap_cons, List.flatMap_nil, List.append_nil, zero_mul, add_zero, Nat.zero_or]
    subst hm
    rfl
  · refine congrArg Host.Outcome.next (issue_of_error hi ?_ (by decide))
    simp only [hsp, hacc, hpair, hk, hrows, hcols, xr_issued, if_neg hregs, Bool.false_eq_true, if_false, Bool.false_and, harg, hshape, Bool.not_false, if_true]
  · refine congrArg Host.Outcome.next (issue_of_error hi ?_ (by decide))
    simp only [hsp, hacc, hpair, hk, hrows, hcols, xr_issued, if_neg hregs, Bool.false_eq_true, if_false, Bool.false_and, harg, hshape, mmaPlaceOk_issued, hplace, Bool.not_false, Bool.not_true, if_true]

end Clauses

/-- Settles O36: each move chooses elements, each conversion is its lane function's word, and the matrix unit's exact sum needs no saturation. -/
theorem vectorMoves : Obligations.VectorMoves := by
  intro s t e
  refine ⟨vcmp_clause, vsel_clause, vperm_clause, vbcast_clause, vext_clause, vins_clause, fun hi h10 => ⟨vredadd_clause hi h10, vredmax_clause hi h10⟩, vcvtn_clause, vcvtw_clause, vcvt_clause, ?_⟩
  rintro p m hi hd ha hb hm h7 himm rfl hargs
  exact mma_clauses hi hd ha hb hm h7 himm hargs

/-! ## Loads and stores -/

@[simp] theorem length_leBytes (n v : Nat) : (leBytes n v).length = n := by
  induction n generalizing v with
  | zero => rfl
  | succ n ih => rw [leBytes, List.length_cons, ih]

/-! ### Accesses that leave the window (R279, R318, R319) -/

@[simp] theorem coreOk_issued (s : State) (t core a n did : Nat) (guarded write : Bool) : coreOk (issued s t) core a n did guarded write = coreOk s core a n did guarded write := rfl

@[simp] theorem outCheck_issued (s : State) (t : Nat) (p : Place) (a n : Nat) (write : Bool) : outCheck (issued s t) t p a n write = outCheck s t p a n write := by
  cases p <;> simp [outCheck]

section OutCheck
variable {s : State} {t a n : Nat} {p : Place} {write : Bool}

theorem outCheck_of_crossing (h : 4096 < a % 4096 + n) : outCheck s t p a n write = stDescInvalid := if_pos (.inr (.inr h))

theorem outCheck_device (h0 : n ≠ 0) (h256 : n ≤ 256) (hin : a % 4096 + n ≤ 4096) : outCheck s t .device a n write = stOk :=
  if_neg fun h => by omega

theorem outCheck_core (h0 : n ≠ 0) (h256 : n ≤ 256) (hin : a % 4096 + n ≤ 4096) :
    outCheck s t .core a n write = if coreOk s (coreOfEngine (engineNo t)) a n (threadWho s t).did (threadWho s t).guarded write then stOk else stFirewall :=
  if_neg fun h => by omega

theorem updThread_issued (f : Thread → Thread) : updThread (issued s t) t f = setThread s t (f (stepped s t)) := by
  rw [updThread, thread_issued, setThread_issued]

theorem startLoad_issued {l : Load} (h : outCheck s t l.place l.addr l.size false = stOk) :
    startLoad (issued s t) t l = .ok (setThread s t { stepped s t with st := .wait .mem, waiting := .load l }) := by
  simp only [startLoad, outCheck_issued, h, ne_eq, not_true_eq_false, if_false, updThread_issued]

theorem startLoad_error {l : Load} (h : outCheck s t l.place l.addr l.size false ≠ stOk) : startLoad (issued s t) t l = .error (outCheck s t l.place l.addr l.size false) := by
  simp only [startLoad, outCheck_issued, h, ne_eq, not_false_eq_true, if_true]

/-- The store that an access hands over, before its number. -/
def storeOf (s : State) (t : Nat) (p : Place) (a : Nat) (bs : List Byte) (no : Nat) : Store :=
  { place := p, addr := a, bytes := bs, no := no, inst := (thread s t).inst.getD 0, did := (threadWho s t).did, guarded := (threadWho s t).guarded, flows := (threadWho s t).flows }

/-- A store of an unguarded thread with room is posted under its engine's next number. -/
theorem startStore_posted {bs : List Byte} (hok : outCheck s t p a bs.length true = stOk) (hg : (threadWho s t).guarded = false) (hheld : (thread s t).held = []) (hroom : (thread s t).posted.length < 16) :
    startStore (issued s t) t p a bs =
      .ok (setEngine (setThread s t { stepped s t with posted := (thread s t).posted ++ [storeOf s t p a bs (engineOf s (engineNo t)).stores] }) (engineNo t)
        { engineOf s (engineNo t) with stores := (engineOf s (engineNo t)).stores + 1 }) := by
  have hlt : (stepped s t).posted.length + heldStores (stepped s t) < 16 := by
    rw [stepped, heldStores, hheld]
    exact hroom
  simp only [startStore, outCheck_issued, hok, ne_eq, not_true_eq_false, if_false, thread_issued, hlt, if_true, leave, threadWho_issued, hg, Bool.false_eq_true, false_and, perform, updThread_issued]
  rw [storeOf, hg]
  rfl

/-- With sixteen stores posted, the thread waits for the oldest. -/
theorem startStore_waits {bs : List Byte} (hok : outCheck s t p a bs.length true = stOk) (hheld : heldStores (thread s t) = 0) (hfull : (thread s t).posted.length = 16) :
    startStore (issued s t) t p a bs = .ok (setThread s t { stepped s t with st := .wait .mem, waiting := .storeSlot (storeOf s t p a bs 0) }) := by
  have hlt : ¬ (stepped s t).posted.length + heldStores (stepped s t) < 16 := by
    show ¬ (thread s t).posted.length + heldStores (thread s t) < 16
    omega
  simp only [startStore, outCheck_issued, hok, ne_eq, not_true_eq_false, if_false, thread_issued, hlt, threadWho_issued, updThread_issued]
  rfl

end OutCheck

section Clauses
variable {s : State} {t a n : Nat} {e : Enc} {c : Instr} {p : Place}

theorem scalar_size {f : BitVec 4} (hf : f.toNat ≤ 3) : 2 ^ f.toNat ≠ 0 ∧ 2 ^ f.toNat ≤ 256 :=
  ⟨by positivity, (Nat.pow_le_pow_right (by decide) hf).trans (by decide)⟩

/-- A scalar load that its check lets pass waits for its bytes. -/
theorem exec_scalarLoad (hc : exec c s = .next (scalarLoad p t e s)) (hi : Issues s t e usesLoad) (hf : e.f.toNat ≤ 3) (hn : n = 2 ^ e.f.toNat) (ha : a = addrImm s t e) (hok : outCheck s t p a n false = stOk) :
    exec c s = .next (setThread s t { stepped s t with st := .wait .mem, waiting := .load { place := p, addr := a, size := n, vector := false, signExt := e.m.getLsbD 0, d := e.d.toNat } }) := by
  subst hn ha
  refine hc.trans (congrArg Host.Outcome.next (issue_of_ok hi ?_))
  rw [if_neg (by omega), addrImm_issued]
  exact startLoad_issued hok

theorem exec_scalarLoad_refused (hc : exec c s = .next (scalarLoad p t e s)) (hi : Issues s t e usesLoad) (hf : e.f.toNat ≤ 3) (hn : n = 2 ^ e.f.toNat) (ha : a = addrImm s t e) {st : Nat}
    (hst : outCheck s t p a n false = st) (hne : st ≠ stOk) (hue : st ≠ tileUe) : exec c s = .next (haltThread s t st) := by
  subst hn ha hst
  refine hc.trans (congrArg Host.Outcome.next (issue_of_error hi ?_ hue))
  rw [if_neg (by omega), addrImm_issued]
  exact startLoad_error hne

theorem exec_vectorLoad (hc : exec c s = .next (vectorLoad p t e s)) (hi : Issues s t e usesLoadV) (hn : n = bitsOf e.imm.toNat 0 9) (ha : a = (xa s t e).toNat) (hok : outCheck s t p a n false = stOk) :
    exec c s = .next (setThread s t { stepped s t with st := .wait .mem, waiting := .load { place := p, addr := a, size := n, vector := true, signExt := false, d := e.d.toNat } }) := by
  subst hn ha
  refine hc.trans (congrArg Host.Outcome.next (issue_of_ok hi ?_))
  rw [addrReg, xa_issued]
  exact startLoad_issued hok

theorem exec_scalarStore (hc : exec c s = .next (scalarStore p t e s)) (hi : Issues s t e usesStore) (hf : e.f.toNat ≤ 3) (hn : n = 2 ^ e.f.toNat) (ha : a = addrImm s t e) {u : State}
    (hu : startStore (issued s t) t p a (leBytes n (xb s t e).toNat) = .ok u) : exec c s = .next u := by
  subst hn ha
  refine hc.trans (congrArg Host.Outcome.next (issue_of_ok hi ?_))
  rw [if_neg (by omega), addrImm_issued, xb_issued]
  exact hu

theorem exec_vectorStore (hc : exec c s = .next (vectorStore p t e s)) (hi : Issues s t e usesStoreV) (hn : n = bitsOf e.imm.toNat 0 9) (ha : a = (xa s t e).toNat) (h256 : n ≤ 256) {u : State}
    (hu : startStore (issued s t) t p a (leBytes n ((thread s t).vr e.b.toNat).toNat) = .ok u) : exec c s = .next u := by
  subst hn ha
  refine hc.trans (congrArg Host.Outcome.next (issue_of_ok hi ?_))
  rw [if_neg (by rw [immBits]; omega), addrReg, xa_issued, vr_issued]
  exact hu

end Clauses

/-- Settles O37: each access is one check of its range and owner, then a wait or one posted store. -/
theorem loadsAndStores : Obligations.LoadsAndStores := by
  intro s t e a n
  refine ⟨fun hi hf hn ha => ?_, fun hi hn ha h0 h256 hin => ⟨exec_vectorLoad rfl hi hn ha (outCheck_device h0 h256 hin), fun hcore => ?_⟩, ?_, ?_⟩
  · obtain ⟨h0, h256⟩ := scalar_size hf
    rw [← hn] at h0 h256
    refine ⟨fun hin => exec_scalarLoad rfl hi hf hn ha (outCheck_device h0 h256 hin), fun hin hcore => exec_scalarLoad rfl hi hf hn ha ?_,
      fun hin hcore => exec_scalarLoad_refused (p := .core) rfl hi hf hn ha ?_ (by decide) (by decide),
      fun hout => ⟨exec_scalarLoad_refused (p := .device) rfl hi hf hn ha (outCheck_of_crossing hout) (by decide) (by decide), exec_scalarLoad_refused (p := .core) rfl hi hf hn ha (outCheck_of_crossing hout) (by decide) (by decide)⟩⟩
    · rw [outCheck_core h0 h256 hin, hcore, if_pos rfl]
    · rw [outCheck_core h0 h256 hin, hcore, if_neg Bool.false_ne_true]
  · exact exec_vectorLoad rfl hi hn ha (by rw [outCheck_core h0 h256 hin, hcore, if_pos rfl])
  · rintro w i rfl hinst hheld hfull hi hf hn ha hin
    obtain ⟨h0, h256⟩ := scalar_size hf
    rw [← hn] at h0 h256
    have hu := startStore_waits (s := s) (t := t) (p := .device) (a := a) (bs := leBytes n (xb s t e).toNat) (by rw [length_leBytes]; exact outCheck_device h0 h256 hin) hheld hfull
    rw [storeOf, hinst, Option.getD_some] at hu
    exact exec_scalarStore rfl hi hf hn ha hu
  · rintro w i rfl hinst hg hheld hroom
    have hpost {p : Place} {bs : List Byte} (hok : outCheck s t p a bs.length true = stOk) := startStore_posted hok hg hheld hroom
    simp only [storeOf, hinst, Option.getD_some, hg] at hpost
    refine ⟨fun hi hf hn ha hin => ?_, fun hi hn ha h0 h256 hin => ⟨?_, fun hcore => ?_⟩⟩
    · obtain ⟨h0, h256⟩ := scalar_size hf
      rw [← hn] at h0 h256
      refine ⟨exec_scalarStore rfl hi hf hn ha (hpost ?_), fun hcore => exec_scalarStore rfl hi hf hn ha (hpost ?_)⟩
      · rw [length_leBytes]; exact outCheck_device h0 h256 hin
      · rw [length_leBytes, outCheck_core h0 h256 hin, hg, hcore, if_pos rfl]
    · refine exec_vectorStore rfl hi hn ha h256 (hpost ?_)
      rw [length_leBytes]; exact outCheck_device h0 h256 hin
    · refine exec_vectorStore rfl hi hn ha h256 (hpost ?_)
      rw [length_leBytes, outCheck_core h0 h256 hin, hg, hcore, if_pos rfl]

/-! ## Knots, queues and calls of threads -/

/-! ### Effects of an unguarded thread (R292) -/

section
variable {s : State} {t k v : Nat} {e : Enc} {u : Uses}

/-- The thread hands over its own effects at once: it is not guarded and holds none. -/
theorem leave_unguarded {x : Effect} (hg : (threadWho s t).guarded = false) : leave s t x = perform s t x := by
  simp [leave, hg]

theorem knotOf_issued (k : Nat) : knotOf (issued s t) k = knotOf s k := rfl

theorem knotOperand_issued (s : State) (t : Nat) (e : Enc) : knotOperand (issued s t) t e = knotOperand s t e := by
  rw [knotOperand, xa_issued]
  rfl

/-- Without the module bit the operand is a knot of this module. -/
theorem knotOperand_local (hk : k = bitsOf (xa s t e).toNat 0 13) (hm : e.m.getLsbD 1 = false) : knotOperand (issued s t) t e = (k, bitsOf (xa s t e).toNat 16 4, false) := by
  rw [knotOperand_issued, knotOperand, ← hk, mBit, hm, Bool.false_and]

theorem ofNat_word_mod (v : Nat) : BitVec.ofNat 32 (v % 2 ^ 32) = BitVec.ofNat 32 v := BitVec.eq_of_toNat_eq (by simp)

/-! ### Signals of threads (R296, R322) -/

/-- The signal that SIGK gives. -/
def sigkSignal (s : State) (t : Nat) (e : Enc) (k : Nat) (set : Bool) : HeldSignal :=
  { src := threadSrc t, sig := { knot := k, set := set, value := BitVec.ofNat 32 (opB s t e).toNat, did := (threadWho s t).did, unit := engineNo t, index := 0 }, module := none,
    guarded := (threadWho s t).guarded, kind := 1, index := engineNo t }

theorem exec_sigk (hk : k = bitsOf (xa s t e).toNat 0 13) (hi : Issues s t e (usesKnot e 3)) (hm : e.m.getLsbD 1 = false) (hg : (threadWho s t).guarded = false) (hposted : (thread s t).posted = [])
    (hv : e.m.getLsbD 0 = true ∨ (opB s t e).toNat ≠ 0 ∧ (opB s t e).toNat < 2 ^ 31) : exec (.sigk t e) s = .next (gateSignal (issued s t) (sigkSignal s t e k (e.m.getLsbD 0))) := by
  refine congrArg Host.Outcome.next (issue_of_ok hi ?_)
  simp only [knotOperand_local hk hm, opB_issued, mBit]
  rw [if_neg, leave_unguarded (by rwa [threadWho_issued])]
  · simp only [perform, thread_issued, stepped, hposted, List.isEmpty_nil, if_true, threadSignal, threadWho_issued, ofNat_word_mod]
    rfl
  · rcases hv with hset | ⟨h0, hlt⟩
    · simp [hset]
    · simp only [Bool.false_eq_true, and_false, false_or, h0, not_and, not_le]
      exact fun _ => hlt

/-- With no write open and none held, an accepted signal is applied at once. -/
theorem gateSignal_applied {x : HeldSignal} (hw : writesOpen s x.src none = false) (hh : s.oct.held.any (fun y => y.src == x.src) = false) (hmod : x.module = none)
    (hok : signalCheck s x.sig.did x.guarded x.sig.knot = stOk) (hst : (knotOf s x.sig.knot).st ≠ .poisoned) (hc : s.knots.cycle = none) :
    gateSignal s x = setKnot s x.sig.knot (if x.sig.set then x.sig.value else (knotOf s x.sig.knot).value + x.sig.value) := by
  simp only [gateSignal, hmod, hw, hh, Bool.or_false, Bool.false_eq_true, if_false, sendSignal, hok, if_true, applySignal, hc]
  exact applyCycle_single s x.sig hst

theorem gateSignal_held {x : HeldSignal} (hw : writesOpen s x.src none = true) (hmod : x.module = none) : gateSignal s x = { s with oct.held := s.oct.held ++ [x] } := by
  simp only [gateSignal, hmod, hw, Bool.true_or, if_true]

theorem knotOf_setKnot_other {q : Nat} (w : W32) (h : q ≠ k) : knotOf (setKnot s k w) q = knotOf s q := by
  rw [setKnot, knotOf_evalWaits]
  exact Tbl.at_put_other Knot.reset s.knots.knots _ h

/-- The waits of a knot keep the registers and the place of every thread. -/
theorem pc_setKnot (w : W32) : (thread (setKnot s k w) t).pc = (thread s t).pc := by
  simp only [setKnot, evalWaits, thread, Tbl.at, Tbl.find_mapV]
  cases s.eng.threads.find t with
  | none => rfl
  | some x =>
    simp only [Option.map_some, Option.getD_some]
    split <;> rfl

end

section Sigk
variable {s : State} {t k v : Nat} {e : Enc}

theorem sigk_clauses (hk : k = bitsOf (xa s t e).toNat 0 13) (hv : v = (opB s t e).toNat) (hi : Issues s t e (usesKnot e 3)) (hm : e.m.getLsbD 1 = false) (hg : (threadWho s t).guarded = false)
    (hposted : (thread s t).posted = []) (hok : signalCheck s (threadWho s t).did false k = stOk) (hst : (knotOf s k).st ≠ .poisoned) (hc : s.knots.cycle = none)
    (hw : writesOpen s (threadSrc t) none = false) (hh : s.oct.held.any (fun x => x.src == threadSrc t) = false) (hval : e.m.getLsbD 0 = true ∨ v ≠ 0 ∧ v < 2 ^ 31) :
    ∃ u, exec (.sigk t e) s = .next u ∧ knotOf u k = { knotOf s k with value := if e.m.getLsbD 0 then BitVec.ofNat 32 v else (knotOf s k).value + BitVec.ofNat 32 v } ∧
      (∀ q, q ≠ k → knotOf u q = knotOf s q) ∧ (thread u t).pc = (thread s t).pc + 1 ∧ u.mem = s.mem := by
  subst hv
  have hgate := gateSignal_applied (s := issued s t) (x := sigkSignal s t e k (e.m.getLsbD 0)) hw hh rfl ((congrArg (signalCheck s _ · k) hg).trans hok) hst hc
  refine ⟨_, (exec_sigk hk hi hm hg hposted hval).trans (congrArg Host.Outcome.next hgate), ?_, fun q hq => ?_, ?_, rfl⟩
  · exact knotOf_setKnot_same ..
  · exact (knotOf_setKnot_other _ hq).trans (knotOf_issued q)
  · exact (pc_setKnot _).trans (congrArg Thread.pc (thread_issued s t))

theorem sigk_refused (hi : Issues s t e (usesKnot e 3)) (hset : e.m.getLsbD 0 = false) (hv : (opB s t e).toNat = 0) : exec (.sigk t e) s = .next (haltThread s t stDescInvalid) := by
  refine congrArg Host.Outcome.next (issue_of_error hi ?_ (by decide))
  simp only [opB_issued, mBit, hset, hv]
  rfl

theorem sigk_held (hk : k = bitsOf (xa s t e).toNat 0 13) (hv : v = (opB s t e).toNat) (hi : Issues s t e (usesKnot e 3)) (hm : e.m = 0) (hg : (threadWho s t).guarded = false)
    (hposted : (thread s t).posted = []) (hw : writesOpen s (threadSrc t) none = true) (h0 : v ≠ 0) (hlt : v < 2 ^ 31) :
    ∃ u x, exec (.sigk t e) s = .next u ∧ u.oct.held = s.oct.held ++ [x] ∧ x.src = threadSrc t ∧ x.sig.knot = k ∧ x.sig.value = BitVec.ofNat 32 v ∧ u.knots = s.knots := by
  subst hv
  have hgate := gateSignal_held (s := issued s t) (x := sigkSignal s t e k (e.m.getLsbD 0)) hw rfl
  exact ⟨_, _, (exec_sigk hk hi (by rw [hm]; rfl) hg hposted (.inr ⟨h0, hlt⟩)).trans (congrArg Host.Outcome.next hgate), rfl, rfl, rfl, rfl, rfl⟩

/-! ### Waits and reads of knots (R297, R322) -/

theorem waitk_clauses {v : W32} (hk : k = bitsOf (xa s t e).toNat 0 13) (hv : v = (if e.i then e.imm else (xb s t e).truncate 32)) (hi : Issues s t e (usesKnot e 2)) (hm : e.m.getLsbD 1 = false) :
    ((knotOf s k).st ≠ .poisoned → ∃ u, exec (.waitk t e) s = .next u ∧ thread u t = { stepped s t with st := .wait .knot, waiting := .knot } ∧
      u.eng.waits.find t = some { knot := k, value := v, satisfied := decide (((knotOf s k).value - v).toNat < 2 ^ 31) } ∧ { u with eng := s.eng } = s) ∧
    ((knotOf s k).st = .poisoned → exec (.waitk t e) s = .next (haltThread s t stInternal)) := by
  refine ⟨fun hst => ?_, fun hst => ?_⟩
  · let u := setThread s t { stepped s t with st := .wait .knot, waiting := .knot }
    refine ⟨{ u with eng.waits := u.eng.waits.put t { knot := k, value := v, satisfied := knotPassed (knotOf s k).value v } }, congrArg Host.Outcome.next (issue_of_ok hi ?_), ?_, Tbl.find_put_same .., rfl⟩
    · simp only [knotOperand_local hk hm, Bool.false_eq_true, if_false, knotOf_issued, if_neg hst, xb_issued, ← hv, updThread_issued]
      rfl
    · exact thread_setThread_same s t _
  · refine congrArg Host.Outcome.next (issue_of_error hi ?_ (by decide))
    simp only [knotOperand_local hk hm, Bool.false_eq_true, if_false, knotOf_issued, if_pos hst]

theorem rdk_clause (hk : k = bitsOf (xa s t e).toNat 0 13) (hi : Issues s t e { d := true, a := true, m := 2 }) (hm : e.m.getLsbD 1 = false) (hst : (knotOf s k).st ≠ .poisoned) :
    GivesX (.rdk t e) s t e.d ((knotOf s k).value.zeroExtend 64) 0 := by
  refine givesX_of_writeX hi rfl ?_
  simp only [knotOperand_local hk hm, Bool.false_eq_true, if_false, knotOf_issued, if_neg hst]

end Sigk

/-! ### Queues of threads (R298, R323) -/

/-- Who a thread acts for follows from its instance. -/
theorem threadWho_setThread {s : State} {t : Nat} {x : Thread} (h : x.inst = (thread s t).inst) : threadWho (setThread s t x) t = threadWho s t := by
  have hi : instOf (setThread s t x) t = instOf s t := by
    rw [instOf, thread_setThread_same, h]
    rfl
  rw [threadWho, hi]
  rfl

/-- A thread that waits for its queue's answer. -/
def queueWaiting (s : State) (t : Nat) (e : Enc) (pop : Bool) (q : Nat) (answer : Option Nat) (data : List Byte) : Thread :=
  { stepped s t with st := .wait .queue, waiting := .queue { pop := pop, queue := q, d := e.d.toNat, reg := e.b.toNat, answer := answer, data := data } }

section
variable {s : State} {t q : Nat} {e : Enc} {x : Queue}

theorem waitQueue_issued (hq : q = (xa s t e).toNat % 2 ^ 17) (pop : Bool) : waitQueue (issued s t) t e pop = setThread s t (queueWaiting s t e pop q none []) := by
  rw [waitQueue, updThread_issued, queueOperand, xa_issued, ← hq]
  rfl

/-- What a thread does with the outcome of its queue operation (R298). -/
def afterOutcome (u : State) (t : Nat) : QueueOutcome → State
  | .answer c bs => answerThread u t c bs
  | .blocked => u
  | .halt st => haltThread u t st

/-- The entry that a thread pushes. -/
def pushed (s : State) (t : Nat) (e : Enc) : Producer := { thread := t, did := (threadWho s t).did, bytes := leBytes 256 ((thread s t).vr e.b.toNat).toNat }

theorem exec_qpush (hq : q = (xa s t e).toNat % 2 ^ 17) (hi : Issues s t e { d := true, a := true, b := true, vb := true }) (hg : (threadWho s t).guarded = false) {o : QueueOutcome} {u : State}
    (he : enqueue (setThread s t (queueWaiting s t e false q none [])) q (pushed s t e) = (o, u)) :
    exec (.qpush t e) s = .next (afterOutcome u t o) := by
  have hwho : threadWho (setThread s t (queueWaiting s t e false q none [])) t = threadWho s t := threadWho_setThread rfl
  refine congrArg Host.Outcome.next (issue_of_ok hi (congrArg Except.ok ?_))
  rw [waitQueue_issued hq, leave_unguarded (hwho ▸ hg), queueOperand, xa_issued, ← hq, vr_issued]
  simp only [perform, pushNow, hwho]
  rw [show enqueue (setThread s t (queueWaiting s t e false q none [])) q { thread := t, did := (threadWho s t).did, bytes := vecBytes ((thread s t).vr e.b.toNat) 256 } = (o, u) from he]
  cases o <;> rfl

theorem exec_qpop (hq : q = (xa s t e).toNat % 2 ^ 17) (hi : Issues s t e { d := true, a := true, b := true, vb := true }) {o : QueueOutcome} {u : State}
    (he : dequeue (setThread s t (queueWaiting s t e true q none [])) q (threadWho s t).did = (o, u)) :
    exec (.qpop t e) s = .next (afterOutcome u t o) := by
  refine congrArg Host.Outcome.next (issue_of_ok hi ?_)
  rw [waitQueue_issued hq, queueOperand, xa_issued, ← hq, threadWho_issued, he]
  cases o <;> rfl

theorem answerThread_waiting (pop : Bool) (answer : Option Nat) (data bs : List Byte) (c : Nat) :
    answerThread (setThread s t (queueWaiting s t e pop q answer data)) t c bs = setThread s t (queueWaiting s t e pop q (some c) bs) := by
  simp only [answerThread, updThread, thread_setThread_same, setThread_setThread]
  rfl

theorem waiting_answerThread {u : State} {w : QueueWait} (h : (thread u t).waiting = .queue w) (c : Nat) (bs : List Byte) :
    (thread (answerThread u t c bs) t).waiting = .queue { w with answer := some c, data := bs } := by
  simp only [answerThread, updThread, thread_setThread_same, h]

/-- The present queue decides an enqueue without waiters: refused, blocked, or written. -/
theorem enqueue_full {p : Producer} (hx : x = queueOf s q) (hu : x.usable p.did = true) (hp : x.pointersOk = true) (hfull : 2 ^ x.entriesLog2 ≤ x.count) :
    enqueue s q p = if x.refuse then (.answer 0x101 [], s) else (.blocked, setQueue s q { x with blocked := insertProducer x.blocked p }) := by
  subst hx
  simp [enqueue, hu, hp, hfull]

theorem enqueue_room {p : Producer} {u : State} (hx : x = queueOf s q) (hu : x.usable p.did = true) (hp : x.pointersOk = true) (hb : x.blocked = []) (hroom : x.count < 2 ^ x.entriesLog2)
    (hk : x.dataKnot = none) (hw : devWrite s (queueWho x q) (x.base + x.tail.toNat % 2 ^ x.entriesLog2 * 2 ^ x.widthLog2) (p.bytes.take (2 ^ x.widthLog2)) = (stOk, u)) :
    enqueue s q p = (.answer 0 [], setQueue u q { x with tail := x.tail + 1, tailInv := ~~~(x.tail + 1) }) := by
  subst hx
  simp only [enqueue, hu, hp, Bool.not_true, Bool.false_eq_true, if_false, not_le.2 hroom, hb, insertProducer, and_self, if_true, pushEntry, hw, ne_eq, not_true_eq_false, linkSignal, hk]

theorem dequeue_empty {did : Nat} (hx : x = queueOf s q) (hu : x.usable did = true) (hp : x.pointersOk = true) (h0 : x.count = 0) : dequeue s q did = (.answer 0x100 [], s) := by
  subst hx
  simp [dequeue, hu, hp, h0]

theorem dequeue_entry {did : Nat} {bs : List Byte} {u : State} (hx : x = queueOf s q) (hu : x.usable did = true) (hp : x.pointersOk = true) (h0 : x.count ≠ 0) (hk : x.spaceKnot = none)
    (hr : devRead s (queueWho x q) (x.base + x.head.toNat % 2 ^ x.entriesLog2 * 2 ^ x.widthLog2) (2 ^ x.widthLog2) = (stOk, bs, u)) :
    dequeue s q did = (.answer 0 bs, setQueue u q { x with head := x.head + 1, headInv := ~~~(x.head + 1) }) := by
  subst hx
  simp only [dequeue, hu, hp, Bool.not_true, Bool.false_eq_true, if_false, h0, popEntry, hr, ne_eq, not_true_eq_false, if_true, linkSignal, hk]

theorem queue_clauses (hq : q = (xa s t e).toNat % 2 ^ 17) (hx : x = queueOf s q) (hu : x.usable (threadWho s t).did = true) (hp : x.pointersOk = true) (hb : x.blocked = [])
    (hg : (threadWho s t).guarded = false) (hi : Issues s t e { d := true, a := true, b := true, vb := true }) :
    (2 ^ x.entriesLog2 ≤ x.count → x.refuse = true → ∃ u, exec (.qpush t e) s = .next u ∧ thread u t = queueWaiting s t e false q (some 0x101) [] ∧ queueOf u q = x) ∧
    (∀ u, x.count < 2 ^ x.entriesLog2 → x.dataKnot = none →
      devWrite (setThread s t (queueWaiting s t e false q none [])) (queueWho x q) (x.base + x.tail.toNat % 2 ^ x.entriesLog2 * 2 ^ x.widthLog2) ((leBytes 256 ((thread s t).vr e.b.toNat).toNat).take (2 ^ x.widthLog2)) = (stOk, u) →
        ∃ z, exec (.qpush t e) s = .next z ∧ queueOf z q = { x with tail := x.tail + 1, tailInv := ~~~(x.tail + 1) } ∧ z.mem = u.mem ∧
          ((thread u t).waiting = .queue { pop := false, queue := q, d := e.d.toNat, reg := e.b.toNat, answer := none, data := [] } →
            (thread z t).waiting = .queue { pop := false, queue := q, d := e.d.toNat, reg := e.b.toNat, answer := some 0, data := [] })) ∧
    (2 ^ x.entriesLog2 ≤ x.count → x.refuse = false → ∃ u, exec (.qpush t e) s = .next u ∧ (thread u t).st = .wait .queue ∧
      (queueOf u q).blocked = [{ thread := t, did := (threadWho s t).did, bytes := leBytes 256 ((thread s t).vr e.b.toNat).toNat }] ∧ u.mem = s.mem) ∧
    (x.count = 0 → ∃ u, exec (.qpop t e) s = .next u ∧ (thread u t).waiting = .queue { pop := true, queue := q, d := e.d.toNat, reg := e.b.toNat, answer := some 0x100, data := [] } ∧ queueOf u q = x ∧ u.mem = s.mem) ∧
    (∀ u bs, x.count ≠ 0 → x.spaceKnot = none →
      devRead (setThread s t (queueWaiting s t e true q none [])) (queueWho x q) (x.base + x.head.toNat % 2 ^ x.entriesLog2 * 2 ^ x.widthLog2) (2 ^ x.widthLog2) = (stOk, bs, u) →
        ∃ z, exec (.qpop t e) s = .next z ∧ queueOf z q = { x with head := x.head + 1, headInv := ~~~(x.head + 1) } ∧ z.mem = u.mem) := by
  refine ⟨fun hfull href => ?_, fun u hroom hk hw => ?_, fun hfull href => ?_, fun h0 => ?_, fun u bs h0 hk hr => ?_⟩
  · have he := enqueue_full (s := setThread s t (queueWaiting s t e false q none [])) (p := pushed s t e) hx hu hp hfull
    rw [href, if_pos rfl] at he
    refine ⟨_, exec_qpush hq hi hg he, ?_, hx.symm⟩
    exact (congrArg (thread · t) (answerThread_waiting ..)).trans (thread_setThread_same ..)
  · have he := enqueue_room (s := setThread s t (queueWaiting s t e false q none [])) (p := pushed s t e) hx hu hp hb hroom hk hw
    refine ⟨_, exec_qpush hq hi hg he, queueOf_setQueue_same .., rfl, fun hwait => ?_⟩
    exact waiting_answerThread (u := setQueue u q _) hwait 0 []
  · have he := enqueue_full (s := setThread s t (queueWaiting s t e false q none [])) (p := pushed s t e) hx hu hp hfull
    rw [href, if_neg Bool.false_ne_true, hb] at he
    refine ⟨_, exec_qpush hq hi hg he, ?_, congrArg Queue.blocked (queueOf_setQueue_same ..), rfl⟩
    exact congrArg Thread.st (thread_setThread_same s t (queueWaiting s t e false q none []))
  · have he := dequeue_empty (s := setThread s t (queueWaiting s t e true q none [])) hx hu hp h0
    refine ⟨_, exec_qpop hq hi he, ?_, hx.symm, rfl⟩
    exact congrArg Thread.waiting ((congrArg (thread · t) (answerThread_waiting ..)).trans (thread_setThread_same ..))
  · have he := dequeue_entry (s := setThread s t (queueWaiting s t e true q none [])) hx hu hp h0 hk hr
    exact ⟨_, exec_qpop hq hi he, queueOf_setQueue_same .., rfl⟩

end

/-! ### Calls (R299, R324) -/

section Call
variable {s : State} {t rcd desc : Nat} {e : Enc} {i : Instance}

theorem recheck_callSlot {x : Thread} {a r d : Nat} (hx : x.waiting = .callSlot a r d) (hcalls : x.calls = []) (hheld : x.held = []) (hinst : x.inst = (thread s t).inst) (hg : (threadWho s t).guarded = false) :
    recheck (setThread s t x) t = submitCall (setThread s t ({ x with st := .ready, waiting := .none }.setX d 0)) t a r 0 := by
  have hslot : freeSlot x = some 0 := by
    rw [freeSlot, hcalls, hheld]
    rfl
  simp only [recheck, thread_setThread_same, hx, hslot, wakeThread, updThread, setThread_setThread]
  rw [leave_unguarded]
  · rfl
  · rw [threadWho_setThread (by exact hinst), hg]

theorem exec_call (hi : Issues s t e { d := true, a := true, b := true }) (hinst : instOf s t = some i) (hdesc : desc = (xa s t e).toNat) (hrcd : rcd = (xb s t e).toNat) (hg : (threadWho s t).guarded = false)
    (hheld : (thread s t).held = []) (hal : desc % 256 = 0) (hal' : rcd % 32 = 0) (hin : desc + 64 ≤ i.windowBytes) (hin' : rcd + 32 ≤ i.windowBytes) (hcalls : (thread s t).calls = [])
    (hbad : badIn s (Space.key (.tile (engineNo t)) (i.window + desc)) 64 = false) :
    ∃ u c, exec (.call t e) s = .next u ∧ (thread u t).st = .ready ∧ (thread u t).xr e.d.toNat = 0 ∧ (thread u t).calls = [c] ∧ c.slot = 0 ∧ c.recOff = i.window + rcd ∧
      c.raw = BitVec.ofNat 512 (ofLe (tileRead s t (i.window + desc) 64)) ∧ u.mem = s.mem := by
  let x : Thread := { stepped s t with st := .wait .call, waiting := .callSlot (i.window + desc) (i.window + rcd) e.d.toNat }
  let c : CallSlot := { slot := 0, recOff := i.window + rcd, raw := BitVec.ofNat 512 (ofLe (tileRead s t (i.window + desc) 64)), arrived := false, wait := .free, satisfied := false, done := none }
  let y : Thread := { { x with st := .ready, waiting := .none }.setX e.d.toNat 0 with calls := [c] }
  have hsub : recheck (setThread s t x) t = setThread s t y := by
    rw [recheck_callSlot (x := x) rfl hcalls hheld rfl hg, submitCall]
    have hbad' (z : Thread) : badIn (setThread s t z) (Space.key (.tile (engineNo t)) (i.window + desc)) 64 = false := hbad
    simp only [updThread, thread_setThread_same, setThread_setThread, hbad', Bool.false_eq_true, if_false]
    rw [show (Thread.setX { x with st := .ready, waiting := .none } e.d.toNat 0).calls = [] from hcalls]
    rfl
  refine ⟨setThread s t y, c, congrArg Host.Outcome.next (issue_of_ok hi ?_), ?_, ?_, ?_, rfl, rfl, rfl, rfl⟩
  · simp only [instOf_issued, hinst, xa_issued, xb_issued, ← hdesc, ← hrcd, hal, hal', not_lt.2 hin, not_lt.2 hin', ne_eq, not_true_eq_false, or_self, if_false, updThread_issued]
    exact congrArg Except.ok hsub
  · rw [thread_setThread_same]
    rfl
  · rw [thread_setThread_same]
    exact Tbl.at_put_same ..
  · rw [thread_setThread_same]

theorem call_refused (hi : Issues s t e { d := true, a := true, b := true }) (hinst : instOf s t = some i) (hdesc : desc = (xa s t e).toNat) (hal : desc % 256 ≠ 0) :
    exec (.call t e) s = .next (haltThread s t stDescInvalid) := by
  refine congrArg Host.Outcome.next (issue_of_error hi ?_ (by decide))
  simp only [instOf_issued, hinst, xa_issued, ← hdesc]
  exact if_pos (.inl hal)

end Call

/-- Settles O39: an unguarded thread's effect leaves at once, so each instruction is one operation on its knot, queue or call slot. -/
theorem threadSignalsAndCalls : Obligations.ThreadSignalsAndCalls := by
  intro s t e k hk
  refine ⟨?_, ?_, fun v hv hi hm => waitk_clauses hk hv hi hm, fun hi hm hst => rdk_clause hk hi hm hst, ?_, ?_⟩
  · intro v hv hi hm hg hheld hposted hok hst hc hw hh
    refine ⟨fun hadd h0 hlt => ?_, fun hset => ?_, fun hadd h0 => sigk_refused hi hadd (hv ▸ h0)⟩
    · have h := sigk_clauses hk hv hi hm hg hposted hok hst hc hw hh (.inr ⟨h0, hlt⟩)
      simpa only [hadd, Bool.false_eq_true, if_false] using h
    · obtain ⟨u, hu, hk', hq, -, hmem⟩ := sigk_clauses hk hv hi hm hg hposted hok hst hc hw hh (.inl hset)
      exact ⟨u, hu, by simpa only [hset, if_true] using hk', hq, hmem⟩
  · intro v hv hi hm hg hheld hposted hw h0 hlt
    exact sigk_held hk hv hi hm hg hposted hw h0 hlt
  · rintro q x w hq hx rfl hu hp hb hg hheld hi
    exact queue_clauses hq hx hu hp hb hg hi
  · intro i desc rcd hi hinst hdesc hrcd hg hheld
    exact ⟨fun hal hal' hin hin' hcalls hbad => exec_call hi hinst hdesc hrcd hg hheld hal hal' hin hin' hcalls hbad, call_refused hi hinst hdesc⟩

/-! ## Maintenance commands -/

/-! ### What an image change leaves of the security unit (R512, R518) -/

section Sec
variable (s : State)

/-- A report changes the intake of the island alone (R461). -/
theorem raise_safe (r : Report) : ∃ i o f l, (raise s r).safe = { s.safe with intake := i, overflow := o, overflowFatal := f, lostDropped := l } := by
  have henter (r : Report) : (enterIntake s r).safe = { s.safe with intake := queueReport r s.safe.intake } := by
    simp only [enterIntake]
    split <;> simp [icuPulse]
  simp only [raise, raiseNow]
  repeat' split
  · exact ⟨_, _, _, _, rfl⟩
  · exact ⟨_, _, _, _, henter _⟩
  · exact ⟨_, _, _, _, rfl⟩
  · exact ⟨_, _, _, _, henter _⟩
  · exact ⟨_, _, _, _, rfl⟩

@[simp] theorem raise_safe_keeps (r : Report) : (raise s r).safe.acting = s.safe.acting ∧ (raise s r).safe.ring = s.safe.ring ∧ (raise s r).safe.next = s.safe.next ∧ (raise s r).safe.fatal = s.safe.fatal ∧ (raise s r).safe.fatalAt = s.safe.fatalAt ∧ (raise s r).safe.flows = s.safe.flows ∧ (raise s r).safe.units = s.safe.units ∧ (raise s r).safe.windows = s.safe.windows ∧ (raise s r).safe.ack0 = s.safe.ack0 ∧ (raise s r).safe.ack1 = s.safe.ack1 ∧ (raise s r).safe.req0 = s.safe.req0 ∧ (raise s r).safe.req1 = s.safe.req1 ∧ (raise s r).safe.ackRefused = s.safe.ackRefused ∧ (raise s r).safe.clearRefused = s.safe.clearRefused ∧ (raise s r).safe.running = s.safe.running ∧ (raise s r).safe.beating = s.safe.beating ∧ (raise s r).safe.beatAt = s.safe.beatAt ∧ (raise s r).safe.fwBeat = s.safe.fwBeat ∧ (raise s r).safe.flowSel = s.safe.flowSel ∧ (raise s r).safe.wdSel = s.safe.wdSel ∧ (raise s r).safe.unitSel = s.safe.unitSel ∧ (raise s r).safe.overdueWarn = s.safe.overdueWarn ∧ (raise s r).safe.overdueDoubt = s.safe.overdueDoubt ∧ (raise s r).safe.scrub = s.safe.scrub ∧ (raise s r).safe.intakeUp = s.safe.intakeUp ∧ (raise s r).safe.lostOverflow = s.safe.lostOverflow := by
  obtain ⟨i, o, f, l, h⟩ := raise_safe s r
  rw [h]
  simp

theorem together_sec (f : State → State) (h : ∀ u, (f u).sec = u.sec) : (together s f).sec = s.sec := by
  simp only [together]
  split <;> simp [h]

@[simp] theorem driveSafe_sec : (driveSafe s).sec = s.sec := by
  simp only [driveSafe, raiseDriven]
  split <;> simp

@[simp] theorem driveSafe_mem : (driveSafe s).mem = s.mem := by
  simp only [driveSafe, raiseDriven]
  split <;> simp

@[simp] theorem returnPages_sec (k n : Nat) (q : Seq) : (returnPages s k n q).sec = s.sec := by
  simp [returnPages, setSeq, setPool, unmapSeqPage]

@[simp] theorem destroySeq_sec (k : Nat) (q : Seq) : (destroySeq s k q).sec = s.sec := by
  simp only [destroySeq]
  rw [together_sec _ _ fun u => by simp]
  simp

@[simp] theorem imageSeqs_sec (old new : Image) : (imageSeqs s old new).sec = s.sec := by
  simp only [imageSeqs]
  exact together_sec _ _ fun u => by simp

@[simp] theorem loadResident_sec (g k : Nat) (p : Program) (code : List Resident) : (loadResident s g k p code).sec = s.sec := by
  simp only [loadResident]
  repeat' split
  all_goals simp [setEngine]

@[simp] theorem pinOn_sec (k : Nat) (p : Program) (g : Nat) : (pinOn k p s g).sec = s.sec := by
  simp only [pinOn]
  split <;> simp

@[simp] theorem imageEngines_sec (new : Image) : (imageEngines s new).sec = s.sec := by
  simp only [imageEngines]
  rw [foldl_sec]
  intro u p
  split <;> simp

@[simp] theorem switchImage_sec (old new : Image) : (switchImage s old new).sec = s.sec := by
  simp [switchImage, imagePorts, imageRegions, imageJoints, setJoint]

theorem setQuiet_sec (q : Nat) (y : PlantPort) : (setQuiet s q y).sec = s.sec := by
  simp only [setQuiet]
  split <;> rfl

theorem setRwl_sec (i : Image) : (setRwl s i).sec = { s.sec with windowMax := i.window } := by
  rw [setRwl, foldl_sec _ fun u p => setQuiet_sec u p _]

@[simp] theorem applyImage_sec (i : Image) (digest svn : Nat) (locked : Bool) :
    (applyImage s i digest svn locked).sec = { s.sec with image := some i, imageDigest := digest, imageSvn := svn, locked := locked, windowMax := i.window } := by
  rw [applyImage, switchImage_sec, setRwl_sec]

@[simp] theorem dropImage_sec : (dropImage s).sec = { s.sec with image := none, imageDigest := 0, imageSvn := 0, locked := false } := by
  rw [dropImage, switchImage_sec]

@[simp] theorem endTest_sec (link reason : Nat) : (endTest s link reason).sec = s.sec := by
  simp only [endTest]
  repeat' split
  all_goals simp

@[simp] theorem putLevel_sec (level : Nat) : (putLevel s level).sec = s.sec := by
  simp [putLevel, dropTests]

/-- Entering RETIRED keeps the root key alone, and no image. -/
theorem retire_sec : (retire s).sec = { s.sec with
    image := none, imageDigest := 0, imageSvn := 0, locked := false, lifecycle := 3, keys := s.sec.keys.filter (fun p => p.1 == 0), ownerGen := 0, safetyGen := 0, debugGen := 0, stored := none, imageSlot := 0 } := by
  simp [retire, clearDram]

theorem read_filter_not {m : List Host.Cell} {p : Host.Cell → Bool} {a : Nat} (h : ∀ c, c.1 = a → p c = false) : Memory.read (m.filter p) a = 0 := by
  induction m with
  | nil => rfl
  | cons c m ih =>
    by_cases hp : p c = true
    · have hne : a ≠ c.1 := fun heq => by simp [h c heq.symm] at hp
      rw [List.filter_cons_of_pos hp, Memory.read, if_neg hne, ih]
    · rw [List.filter_cons_of_neg hp, ih]

/-- Local DRAM reads as zero once RETIRED is entered. -/
theorem read_retire {a : Nat} (h : a < 2 ^ 48) : Memory.read (retire s).mem a = 0 := by
  simp only [retire, driveSafe_mem, clearDram]
  exact read_filter_not fun c hc => by simpa [hc] using h

end Sec

/-! ### Maintenance commands (R526) -/

section Maint
variable {c : Instr} {s t : State} {d : Desc} {o : OpInfo} {permitted : State → Bool} {act : State → Answer} {st res : Nat}

theorem maintOpen_markStarted (s : State) (d : Desc) (did : Nat) : maintOpen (markStarted s d) did = maintOpen s did := by simp [maintOpen]

/-- Outside a window a maintenance command is refused, which SEC status shows. -/
theorem maint_refused (ha : Accepted s d o) (hc : exec c s = .next (runDesc s d o fun s => maintOp s d (permitted s) act)) (hclosed : maintOpen s d.did = false) :
    exec c s = .next (finishDesc (maintRefuse (markStarted s d)) d stNotAuth 0 0 0) := by
  rw [hc, runDesc_of_done ha]
  rw [maintOp, maintOpen_markStarted, hclosed]
  rfl

/-- In a window a permitted command acts after its record. -/
theorem maint_acts (ha : Accepted s d o) (hc : exec c s = .next (runDesc s d o fun s => maintOp s d (permitted s) act)) (hopen : maintOpen s d.did = true) (hperm : permitted (markStarted s d) = true)
    (hact : act (maintRecord (markStarted s d) d.did (dOpcode d)) = .done st res 0 0 t) : exec c s = .next (finishDesc t d st res 0 0) := by
  rw [hc, runDesc_of_done ha]
  rw [maintOp, maintOpen_markStarted, hopen, hperm]
  exact hact

theorem maintRecord_sec (did cmd : Nat) : (maintRecord s did cmd).sec = s.sec := by simp [maintRecord]

theorem allStopped_maintRecord (did cmd : Nat) : allStopped (maintRecord (markStarted s d) did cmd) = allStopped s := by simp [allStopped, maintRecord]

end Maint

section Clauses
variable {s u : State} {d : Desc} {img : Image} {bs : List Byte}

theorem provisioned (hl : s.sec.lifecycle = 1 ∨ s.sec.lifecycle = 2) : ((markStarted s d).sec.lifecycle == 1 || (markStarted s d).sec.lifecycle == 2) = true := by
  simpa using hl

theorem fwUpdate_clause (ha : Accepted s d (infoSecFwUpdate s d)) (hopen : maintOpen s d.did = true) (h0 : dfld d 32 0 32 ≠ 0) (hmax : dfld d 32 0 32 ≤ 33554432)
    (hr : devRead (maintRecord (markStarted s d) d.did (dOpcode d)) (secWho d) (dfld d 24 0 64) (dfld d 32 0 32) = (stOk, bs, u)) :
    if Config.fwOk bs = true ∧ u.sec.fuseFw ≤ Config.fwSvn bs % 64 then
      ∃ t, Completes (.secFwUpdate d) s d (1 - u.sec.activeBank) 0 t ∧ t.sec.pendingBank = some (1 - u.sec.activeBank) ∧ t.sec.tries = 3 ∧ 1 - u.sec.activeBank ∉ t.sec.badBanks ∧ { t with sec := u.sec } = u
    else ∃ t, exec (.secFwUpdate d) s = .next (finishDesc t d stNotAuth 0 0 0) ∧ t.sec.pendingBank = none ∧ 1 - u.sec.activeBank ∈ t.sec.badBanks ∧ { t with sec := u.sec } = u := by
  have hsize : ¬ (dfld d 32 0 32 = 0 ∨ 33554432 < dfld d 32 0 32) := by omega
  let bank := 1 - u.sec.activeBank
  split
  · next h =>
    have hbad : ¬ ((!Config.fwOk bs) = true ∨ Config.fwSvn bs % 64 < u.sec.fuseFw) := by
      rw [h.1]
      simpa using h.2
    let t : State := { u with sec.pendingBank := some bank, sec.tries := 3, sec.bankSvn := u.sec.bankSvn.put bank (Config.fwSvn bs % 64), sec.badBanks := u.sec.badBanks.filter (· ≠ bank) }
    refine ⟨t, maint_acts (permitted := fun _ => true) ha rfl hopen rfl ?_, rfl, rfl, by simp [t, bank], rfl⟩
    rw [if_neg hsize]
    simp only [hr, ne_eq, not_true_eq_false, if_false, if_neg hbad]
    rfl
  · next h =>
    have hbad : (!Config.fwOk bs) = true ∨ Config.fwSvn bs % 64 < u.sec.fuseFw := by
      rw [not_and_or, not_le] at h
      simpa using h
    let t : State := { u with sec.pendingBank := none, sec.badBanks := bank :: u.sec.badBanks.filter (· ≠ bank) }
    refine ⟨t, maint_acts (permitted := fun _ => true) ha rfl hopen rfl ?_, rfl, by simp [t, bank], rfl⟩
    rw [if_neg hsize]
    simp only [hr, ne_eq, not_true_eq_false, if_false, if_pos hbad]
    rfl

theorem imageLoad_clause (ha : Accepted s d (infoSecImageLoad s d)) (hopen : maintOpen s d.did = true) (hl : s.sec.lifecycle = 1 ∨ s.sec.lifecycle = 2) :
    (allStopped s = false → exec (.secImageLoad d img) s = .next (finishDesc (maintRecord (markStarted s d) d.did (dOpcode d)) d stDescInvalid 0 0 0)) ∧
    (allStopped s = true → devRead (maintRecord (markStarted s d) d.did (dOpcode d)) (secWho d) (dfld d 24 0 64) (min (dfld d 32 0 32) 16777217) = (stOk, bs, u) →
      (if safetyHeaderOk bs = false then exec (.secImageLoad d img) s = .next (finishDesc u d stDescInvalid 0 0 0)
      else if imageSigned u bs = false then exec (.secImageLoad d img) s = .next (finishDesc u d stNotAuth 0 0 0)
      else if recordsOk (bs.drop 256) = false ∨ imageOk u img = false then exec (.secImageLoad d img) s = .next (finishDesc u d stDescInvalid 0 0 0)
      else ∃ t slot, Completes (.secImageLoad d img) s d slot 0 t ∧ t.sec.image = some img ∧ t.sec.locked = false ∧ t.sec.imageSvn = hdr bs 8 1 ∧ t.sec.imageSlot = slot ∧
        t.sec.stored = some (img, hdr bs 24 48, hdr bs 8 1, false))) := by
  have hacts {act : State → Answer} {t : State} {st res : Nat} (hc : exec (.secImageLoad d img) s = .next (runDesc s d (infoSecImageLoad s d) fun s => maintOp s d (s.sec.lifecycle == 1 || s.sec.lifecycle == 2) act))
      (hact : act (maintRecord (markStarted s d) d.did (dOpcode d)) = .done st res 0 0 t) : exec (.secImageLoad d img) s = .next (finishDesc t d st res 0 0) :=
    maint_acts (permitted := fun s => s.sec.lifecycle == 1 || s.sec.lifecycle == 2) ha hc hopen (provisioned hl) hact
  refine ⟨fun hrun => hacts rfl ?_, fun hstop hr => ?_⟩
  · simp only [allStopped_maintRecord, hrun, Bool.not_false, if_true, failWith]
  · have hrun : allStopped (maintRecord (markStarted s d) d.did (dOpcode d)) = true := (allStopped_maintRecord ..).trans hstop
    split_ifs with hhead hsig hrec
    · refine hacts rfl ?_
      simp only [hrun, Bool.not_true, Bool.false_eq_true, if_false, hr, ne_eq, not_true_eq_false, hhead, Bool.not_false, if_true]
      rfl
    · refine hacts rfl ?_
      simp only [hrun, Bool.not_true, Bool.false_eq_true, if_false, hr, ne_eq, not_true_eq_false, hhead, hsig, Bool.not_false, if_true]
      rfl
    · have hrec' : (!recordsOk (bs.drop 256)) = true ∨ (!imageOk u img) = true := by simpa using hrec
      refine hacts rfl ?_
      simp only [hrun, Bool.not_true, Bool.false_eq_true, if_false, hr, ne_eq, not_true_eq_false, hhead, hsig, if_pos hrec']
      rfl
    · have hrec' : ¬ ((!recordsOk (bs.drop 256)) = true ∨ (!imageOk u img) = true) := by simpa using hrec
      let slot := if u.sec.stored.isNone then 0 else 1 - u.sec.imageSlot
      let v : State := { u with sec.stored := some (img, hdr bs 24 48, hdr bs 8 1, false), sec.storedGen := hdr bs 9 1, sec.imageSlot := slot }
      refine ⟨applyImage v img (hdr bs 24 48) (hdr bs 8 1) false, slot, hacts rfl ?_, ?_⟩
      · simp only [hrun, Bool.not_true, Bool.false_eq_true, if_false, hr, ne_eq, not_true_eq_false, hhead, hsig, if_neg hrec']
        rfl
      · rw [applyImage_sec]
        exact ⟨rfl, rfl, rfl, rfl, rfl⟩

theorem keyRotate_clause (ha : Accepted s d (infoSecKeyRotate s d)) (hopen : maintOpen s d.did = true) (hl : s.sec.lifecycle = 1 ∨ s.sec.lifecycle = 2)
    (hr : devRead (maintRecord (markStarted s d) d.did (dOpcode d)) (secWho d) (dfld d 24 0 64) 256 = (stOk, bs, u)) :
    (certShape bs false = true → 1 ≤ hdr bs 0 1 → hdr bs 0 1 ≤ 3 → hdr bs 1 1 = genOf u (hdr bs 0 1) + 1 → hdr bs 1 1 ≤ 15 →
      if certSigned (keyOf u 1) bs = true then Completes (.secKeyRotate d) s d (hdr bs 1 1) 0 (installKey u (hdr bs 0 1) (hdr bs 1 1) (certKey bs))
      else exec (.secKeyRotate d) s = .next (finishDesc u d stNotAuth 0 0 0)) ∧
    (hdr bs 1 1 ≠ genOf u (hdr bs 0 1) + 1 → exec (.secKeyRotate d) s = .next (finishDesc u d stDescInvalid 0 0 0)) := by
  have hacts {act : State → Answer} {t : State} {st res : Nat} (hc : exec (.secKeyRotate d) s = .next (runDesc s d (infoSecKeyRotate s d) fun s => maintOp s d (s.sec.lifecycle == 1 || s.sec.lifecycle == 2) act))
      (hact : act (maintRecord (markStarted s d) d.did (dOpcode d)) = .done st res 0 0 t) : exec (.secKeyRotate d) s = .next (finishDesc t d st res 0 0) :=
    maint_acts (permitted := fun s => s.sec.lifecycle == 1 || s.sec.lifecycle == 2) ha hc hopen (provisioned hl) hact
  refine ⟨fun hshape hlo hhi hgen hmax => ?_, fun hgen => hacts rfl ?_⟩
  · have hvalid : ¬ ((!certShape bs false) = true ∨ hdr bs 0 1 = 0 ∨ 3 < hdr bs 0 1 ∨ hdr bs 1 1 ≠ genOf u (hdr bs 0 1) + 1 ∨ 15 < hdr bs 1 1) := by
      rw [hshape]
      simp only [Bool.not_true, Bool.false_eq_true, false_or]
      omega
    split
    · next hsig =>
      refine hacts rfl ?_
      simp only [hr, ne_eq, not_true_eq_false, if_false]
      rw [if_neg hvalid, hsig]
      rfl
    · next hsig =>
      refine hacts rfl ?_
      simp only [hr, ne_eq, not_true_eq_false, if_false]
      rw [if_neg hvalid, Bool.eq_false_iff.2 hsig]
      rfl
  · simp only [hr, ne_eq, not_true_eq_false, if_false]
    rw [if_pos (.inr (.inr (.inr (.inl hgen))))]
    rfl

theorem setLifecycle_sec (l : Nat) : (setLifecycle s l).sec = { s.sec with lifecycle := l, transitions := satAdd 8 s.sec.transitions 1 } := by
  rw [setLifecycle, driveSafe_sec]

/-- Outside SERVICE no channel is energised (R453). -/
theorem driveSafe_requests {s : State} (h : s.sec.lifecycle ≠ 2) : (driveSafe s).safe.req0 = false ∧ (driveSafe s).safe.req1 = false := by
  have hoff (ch : Nat) : mayEnergise s ch = false := by
    have hcond : hardCond s ch ≠ 0 := by simp [hardCond, placeB, h]
    simp [mayEnergise, hcond]
  simp only [driveSafe, raiseDriven, hoff, Bool.and_false]
  split <;> simp

theorem setLifecycle_requests (s : State) {l : Nat} (h : l ≠ 2) : (setLifecycle s l).safe.req0 = false ∧ (setLifecycle s l).safe.req1 = false := driveSafe_requests h

theorem lifecycle_clause (ha : Accepted s d (infoSecLifecycle s d)) (hopen : maintOpen s d.did = true) :
    (dfld d 16 0 2 = 3 → dfld d 20 0 32 = 0x52455449 → ∃ t, Completes (.secLifecycle d) s d 3 0 t ∧ t.sec.lifecycle = 3 ∧ t.sec.image = none ∧ t.sec.stored = none ∧ t.sec.ownerGen = 0 ∧ t.sec.safetyGen = 0 ∧
      t.sec.debugGen = 0 ∧ (∀ k ∈ t.sec.keys, k.1 = 0) ∧ (∀ a, a < 2 ^ 48 → Memory.read t.mem a = 0)) ∧
    (dfld d 16 0 2 = 2 → s.sec.lifecycle = 1 → s.sec.image ≠ none → s.sec.locked = true → allStopped s = true → ∃ t, Completes (.secLifecycle d) s d 2 0 t ∧ t.sec.lifecycle = 2 ∧ t.sec.transitions = satAdd 8 s.sec.transitions 1) ∧
    (dfld d 16 0 2 = 1 → s.sec.lifecycle = 2 → allStopped s = true → ∃ t, Completes (.secLifecycle d) s d 1 0 t ∧ t.sec.lifecycle = 1 ∧ t.safe.req0 = false ∧ t.safe.req1 = false) ∧
    (dfld d 16 0 2 ≠ 3 → s.sec.lifecycle = 3 → exec (.secLifecycle d) s = .next (finishDesc (maintRecord (markStarted s d) d.did (dOpcode d)) d stDescInvalid 0 0 0)) := by
  let v := maintRecord (markStarted s d) d.did (dOpcode d)
  have hsec : v.sec = s.sec := (maintRecord_sec _ _).trans (by simp)
  have hacts {act : State → Answer} {t : State} {st res : Nat} (hc : exec (.secLifecycle d) s = .next (runDesc s d (infoSecLifecycle s d) fun s => maintOp s d true act))
      (hact : act v = .done st res 0 0 t) : exec (.secLifecycle d) s = .next (finishDesc t d st res 0 0) :=
    maint_acts (permitted := fun _ => true) ha hc hopen rfl hact
  refine ⟨fun h3 hmagic => ?_, fun h2 hl himg hlock hstop => ?_, fun h1 hl hstop => ?_, fun h3 hl => hacts rfl ?_⟩
  · refine ⟨retire v, hacts rfl ?_, ?_⟩
    · simp only [h3, hmagic, if_true]
      rfl
    · rw [retire_sec]
      exact ⟨rfl, rfl, rfl, rfl, rfl, rfl, fun k hk => by simpa using (List.mem_filter.1 hk).2, fun a h => read_retire v h⟩
  · have hstop' : allStopped v = true := (allStopped_maintRecord ..).trans hstop
    refine ⟨setLifecycle v 2, hacts rfl ?_, ?_⟩
    · simp only [h2, hsec, hl, Option.isSome_iff_ne_none.2 himg, hlock, hstop']
      rfl
    · rw [setLifecycle_sec, hsec]
      exact ⟨rfl, rfl⟩
  · have hstop' : allStopped v = true := (allStopped_maintRecord ..).trans hstop
    refine ⟨setLifecycle v 1, hacts rfl ?_, ?_⟩
    · simp only [h1, hsec, hl, hstop']
      rfl
    · rw [setLifecycle_sec]
      exact ⟨rfl, setLifecycle_requests v (by decide)⟩
  · simp only [h3, hsec, hl, if_false]
    rfl

theorem lock_clause (ha : Accepted s d (infoSecLock s d)) :
    (s.sec.image = none → Refuses (.secLock d) s d stDescInvalid) ∧
    (∀ i, s.sec.image = some i → (rwlMatches s i = false → Refuses (.secLock d) s d stDescInvalid) ∧
      (rwlMatches s i = true → Completes (.secLock d) s d 0 0 { markStarted s d with sec.locked := true, sec.stored := s.sec.stored.map (fun x => (x.1, x.2.1, x.2.2.1, true)) })) := by
  have hsec : (markStarted s d).sec = s.sec := by simp
  have hrwl (i : Image) : rwlMatches (markStarted s d) i = rwlMatches s i := by simp [rwlMatches, plantPort]
  refine ⟨fun himg => refuses_of_done ha rfl ?_, fun i himg => ⟨fun hm => refuses_of_done ha rfl ?_, fun hm => completes_of_done ha rfl ?_⟩⟩
  · simp only [hsec, himg]
  · simp only [hsec, himg, hrwl, hm, Bool.not_false, if_true]
  · simp only [hsec, himg, hrwl, hm, Bool.not_true, Bool.false_eq_true, if_false]
    rfl

end Clauses

/-- Settles O54: every maintenance command is one gate on the window and then its own checks in their order. -/
theorem maintenanceCommands : Obligations.MaintenanceCommands := by
  intro s d img bs u
  exact ⟨fun ha => maint_refused (permitted := fun _ => true) ha rfl, fun ha => maint_refused (permitted := fun s => s.sec.lifecycle == 1 || s.sec.lifecycle == 2) ha rfl,
    fun ha => maint_refused (permitted := fun s => s.sec.lifecycle == 1 || s.sec.lifecycle == 2) ha rfl, fun ha => maint_refused (permitted := fun _ => true) ha rfl,
    fwUpdate_clause, imageLoad_clause, keyRotate_clause, lifecycle_clause, lock_clause⟩

/-! ## Publications -/

/-! ### Configuration of publications (R565 to R567) -/

section Config
variable {s u : State} {d : Desc} {k f : Nat} {bs : List Byte} {x : FlowCfg}

@[simp] theorem pubDenied_markStarted (s : State) (d : Desc) (k : Nat) (f : Option Nat) : pubDenied (markStarted s d) k f = pubDenied s k f := by simp [pubDenied]

/-- The publication that a PUB_CONFIG gives, from its list and the state that reading it left. -/
def pubOf (u : State) (d : Desc) (bs : List Byte) : Publication :=
  { enable := dbit d 16 7, port := dfld d 17 0 1, ip6 := dbit d 17 1, pcp := dfld d 17 2 3, flow := dfld d 18 0 12, lead := dfld d 20 0 4, dstMac := dfld d 32 0 48
    udpDst := if dfld d 38 0 16 = 0 then 4840 else dfld d 38 0 16, dstIp := dfld d 40 0 128, writerGroup := dfld d 56 0 16, writer := dfld d 58 0 16
    utcOffset := dfld d 60 0 16, base := ofLe (bs.take 8), slotSize := ofLe ((bs.drop 8).take 4), slots := (bs.getD 12 0).toNat, fields := listEntries bs (dfld d 22 0 9), did := d.did
    guarded := false, image := false, frameBytes := pubFrame u (dfld d 17 0 1) (dbit d 17 1) (pubPayload (dfld d 20 0 4) (listEntries bs (dfld d 22 0 9))) }

theorem pubConfig_completes (ha : Accepted s d (infoPubConfig s d)) (hden : pubDenied s (dfld d 16 0 7) (some (dfld d 18 0 12)) = false) (hx : s.cfg.flows.find (dfld d 18 0 12) = some x)
    (hn1 : 1 ≤ dfld d 22 0 9) (hn2 : dfld d 22 0 9 ≤ 256) (hal : dfld d 24 0 48 % 8 = 0) (hgroup : dfld d 56 0 16 ≠ 0) (hwriter : dfld d 58 0 16 ≠ 0)
    (hr : devRead (markStarted s d) (pubWho d.did (dfld d 16 0 7) false (dfld d 18 0 12)) (dfld d 24 0 48) (16 + 8 * dfld d 22 0 9) = (stOk, bs, u)) (hzero : ofLe ((bs.drop 13).take 3) = 0)
    (hcount : x.grid = none → (bs.getD 12 0).toNat ≠ 0) (hcfg : u.cfg = s.cfg) (hfields : entriesOk u (dfld d 18 0 12) (ofLe ((bs.drop 8).take 4)) bs (dfld d 22 0 9) = true)
    (hlen : pubPayload (dfld d 20 0 4) (listEntries bs (dfld d 22 0 9)) ≤ (if dbit d 17 1 = true then 1452 else 1472)) :
    Completes (.pubConfig d) s d (pubOf u d bs).frameBytes 0 { u with cfg.pubs := u.cfg.pubs.put (dfld d 16 0 7) (pubOf u d bs) } := by
  have hrange : ¬ (((markStarted s d).cfg.flows.find (dfld d 18 0 12)).isNone = true ∨ dfld d 22 0 9 = 0 ∨ 256 < dfld d 22 0 9 ∨ dfld d 24 0 48 % 8 ≠ 0 ∨ dfld d 56 0 16 = 0 ∨ dfld d 58 0 16 = 0) := by
    simp only [markStarted_keeps, hx, Option.isNone_some, Bool.false_eq_true, hal, ne_eq, not_true_eq_false, hgroup, hwriter, or_false, false_or]
    omega
  have hlist : ¬ (ofLe ((bs.drop 13).take 3) ≠ 0 ∨ ((u.cfg.flows.find (dfld d 18 0 12)).any (·.grid.isNone) = true ∧ (bs.getD 12 0).toNat = 0) ∨
      (!entriesOk u (dfld d 18 0 12) (ofLe ((bs.drop 8).take 4)) bs (dfld d 22 0 9)) = true ∨ (if dbit d 17 1 = true then 1452 else 1472) < pubPayload (dfld d 20 0 4) (listEntries bs (dfld d 22 0 9))) := by
    rw [hcfg, hx, hfields, not_or, not_or, not_or]
    exact ⟨not_not.2 hzero, fun h => hcount (by simpa using h.1) h.2, Bool.false_ne_true, not_lt.2 hlen⟩
  refine completes_of_done ha rfl ((if_neg (by rw [pubDenied_markStarted, hden]; exact Bool.false_ne_true)).trans ((if_neg hrange).trans ?_))
  simp only [hr, ne_eq, not_true_eq_false, if_false]
  exact if_neg hlist

end Config

/-! ### Messages (R568 to R571) -/

section Assemble
variable {s : State} {k : Nat} {c : Cfg} {p : Publication} {x : FlowResult} {a : Nat × Nat}

theorem putMessage_frame (s : State) (k : Nat) (p : Publication) (x : FlowResult) (fs : List Byte) :
    ∃ m, (putMessage s k p x fs).eth.pending.find k = some m ∧ m.pub = k ∧ m.port = p.port ∧ m.tov = x.tov ∧ Tbl.at 0 (putMessage s k p x fs).eth.seqs k = (Tbl.at 0 s.eth.seqs k + 1) % 65536 ∧
      (putMessage s k p x fs).eth.taken = s.eth.taken ∧ (s.eth.pending.find k ≠ none → (plantPort (putMessage s k p x fs) p.port).superseded = satAdd 16 (plantPort s p.port).superseded 1) ∧
      { putMessage s k p x fs with eth := s.eth } = s := by
  simp only [putMessage]
  split
  · next h => exact ⟨_, Tbl.find_put_same .., rfl, rfl, rfl, Tbl.at_put_same .., rfl, fun _ => by simp [plantPort, setPlant], rfl⟩
  · next h => exact ⟨_, Tbl.find_put_same .., rfl, rfl, rfl, Tbl.at_put_same .., rfl, fun hne => absurd (Option.isSome_iff_ne_none.2 hne) h, rfl⟩

theorem assemble_none (h : pubConfig s k = none) : exec (.publicationAssemble k) s = .next s := by
  simp only [exec, execPublicationAssemble, h]

theorem assemble_idle (hc : pubConfig s k = some (c, p)) (hx : (histOf s p.flow).latest = some x) (ha : pubArea s c p x.epoch = some a)
    (hidle : p.enable = false ∨ s.eth.taken.find k = some (x.epoch, x.at_)) : exec (.publicationAssemble k) s = .next s := by
  simp only [exec, execPublicationAssemble, hc, hx, Option.map_some, Option.getD_some, ha]
  refine if_pos ?_
  rcases hidle with h | h <;> simp [h]

/-- A record that is new to its publication. -/
theorem assemble_new (hen : p.enable = true)
    (htx : (plantPort s p.port).txEn = true) (hg : p.guarded = false) (hnew : s.eth.taken.find k ≠ some (x.epoch, x.at_)) :
    ¬ ((!p.enable) = true ∨ (!(plantPort s p.port).txEn) = true ∨ (p.guarded = true ∧ s.safe.fatal.isSome = true) ∨ s.eth.taken.find k = some (x.epoch, x.at_)) := by
  simp [hen, htx, hg, hnew]

theorem assemble_clauses (hc : pubConfig s k = some (c, p)) (hx : (histOf s p.flow).latest = some x) (ha : pubArea s c p x.epoch = some a) (hen : p.enable = true)
    (htx : (plantPort s p.port).txEn = true) (hg : p.guarded = false) (hnew : s.eth.taken.find k ≠ some (x.epoch, x.at_)) :
    (0x10 ≤ x.status → ∃ t m, exec (.publicationAssemble k) s = .next t ∧ t.eth.pending.find k = some m ∧ m.pub = k ∧ m.port = p.port ∧ m.tov = x.tov ∧
      Tbl.at 0 t.eth.seqs k = (Tbl.at 0 s.eth.seqs k + 1) % 65536 ∧ t.eth.taken.find k = some (x.epoch, x.at_) ∧
      (s.eth.pending.find k ≠ none → (plantPort t p.port).superseded = satAdd 16 (plantPort s p.port).superseded 1) ∧ { t with eth := s.eth } = s) ∧
    (∀ fs u, x.status < 0x10 → p.fields.any (fun f => f.2.2.2 == 1) = false →
      readFields (pubWho a.2 k p.guarded p.flow) a.1 (regionStart []) p.fields { s with eth.taken := s.eth.taken.put k (x.epoch, x.at_) } = (stOk, fs, u) →
      exec (.publicationAssemble k) s = .next (putMessage u k p x fs)) := by
  have hgo := assemble_new hen htx hg hnew
  refine ⟨fun hst => ?_, fun fs u hst hbase hr => ?_⟩
  · let v : State := { s with eth.taken := s.eth.taken.put k (x.epoch, x.at_) }
    let fs : List Byte := List.replicate ((p.fields.map (fun f => uadpBytes f.2.2.1)).foldl (· + ·) 0) 0
    obtain ⟨m, hm, hpub, hport, htov, hseq, htaken, hsup, hframe⟩ := putMessage_frame v k p x fs
    refine ⟨putMessage v k p x fs, m, ?_, hm, hpub, hport, htov, hseq, ?_, hsup, ?_⟩
    · simp only [exec, execPublicationAssemble, hc, hx, Option.map_some, Option.getD_some, ha]
      rw [if_neg hgo]
      exact if_pos hst
    · rw [htaken]
      exact Tbl.find_put_same ..
    · exact congrArg (fun w : State => { w with eth := s.eth }) hframe
  · simp only [exec, execPublicationAssemble, hc, hx, Option.map_some, Option.getD_some, ha]
    rw [if_neg hgo, if_neg (not_le.2 hst), hbase]
    simp only [Bool.false_eq_true, if_false, ne_eq, not_true_eq_false]
    rw [hr]
    rfl

end Assemble

section Transmit
variable {s : State} {k j : Nat} {m : Message}

theorem transmit_idle (h : s.eth.pending.filter (fun m => eligible s k m.2) = []) : exec (.publicationTransmit k) s = .next s := by
  simp only [exec, execPublicationTransmit, h]
  rfl

theorem transmit_sends (hp : s.eth.pending = [(j, m)]) (he : eligible s k m = true) (hb : s.dbg.boundary = false) :
    ∃ t, exec (.publicationTransmit k) s = .next t ∧ t.eth.pending = [] ∧ (plantPort t k).sentMessages = satAdd 16 (plantPort s k).sentMessages 1 ∧
      (plantPort t k).busyUntil = s.up + lineNs (ingPort s (8 + k)).speed (pubFrame s k m.ip6 m.bytes.length) ∧
      t.out = .datagram k m.dstMac (if (ingPort s (8 + k)).vlanEn = true then some (m.pcp * 8192 + (ingPort s (8 + k)).vid) else none) m.ip6 m.dstIp m.udpDst m.bytes :: s.out ∧
      { t with eth := s.eth, out := s.out } = s := by
  have hone : s.eth.pending.filter (fun m => eligible s k m.2) = [(j, m)] := by simp [hp, he]
  have hdrop : s.eth.pending.drop j = [] := by simp [hp, Tbl.drop]
  simp only [exec, execPublicationTransmit, hone, leastBy]
  refine ⟨_, rfl, ?_, ?_, ?_, ?_, ?_⟩ <;> simp only [emit, setPlant, hb, Bool.false_and, Bool.false_eq_true, if_false]
  · exact hdrop
  · simp [plantPort]
  · simp [plantPort]

end Transmit

/-- Settles O57: a list that passes its checks is the publication, and a message is one change of the plant port's own state. -/
theorem publications : Obligations.Publications := by
  rintro s d k f rfl rfl
  refine ⟨fun ha => ⟨fun hden => refuses_of_done ha rfl (if_pos (by simpa using hden)), fun hden hf => refuses_of_done ha rfl ((if_neg (by simp [hden])).trans (if_pos (by simp [hf]))), ?_⟩,
    fun ha => ⟨fun hden => refuses_of_done ha rfl (if_pos (by simpa using hden)), fun hden => completes_of_done ha rfl ((if_neg (by simp [hden])).trans (by simp [okWith]))⟩, assemble_none, ?_, ?_, ?_⟩
  · intro x bs u hden hx hn1 hn2 hal hgroup hwriter hr hzero hcount hcfg hfields hlen
    exact ⟨pubOf u d bs, pubConfig_completes ha hden hx hn1 hn2 hal hgroup hwriter hr hzero hcount hcfg hfields hlen, rfl, rfl, rfl, rfl, rfl, rfl, rfl, rfl, rfl⟩
  · intro c p x a hc hx ha
    exact ⟨fun h => assemble_idle hc hx ha (.inl h), fun h => assemble_idle hc hx ha (.inr h), assemble_clauses hc hx ha⟩
  · intro h
    exact transmit_idle (by rw [h]; rfl)
  · intro j m hp
    exact ⟨fun he => transmit_idle (by simp [hp, he]), transmit_sends hp⟩

/-! ## Attention with a failed bias table -/

/-- A SEQ_ATTEND of DID 1 with one query row on sequence 0, with bias table 0. -/
def biasedAttend : Job :=
  { desc := ⟨.ended, 1, BitVec.ofNat 512 (0x0C04 + 2 ^ (8 * 20) + 2 ^ (8 * 22 + 7) + 2 ^ (8 * 24) + 0x40000 * 2 ^ (8 * 40) + 0x80000 * 2 ^ (8 * 48))⟩
    on_ := none, start := 0, first := 0, count := 0, pend := none }

/-- The attend runs on pipeline 0, and its bias table has an uncorrectable error; DID 1's addresses are mapped one to one. -/
def biasedState : State :=
  { State.reset with
    seq.seqs := [(0, { pendingSeq with pending := none, appended := [] })]
    seq.pipes := [(0, { Pipe.reset with job := some biasedAttend })]
    seq.badBias := [0]
    mmu.ctx := [(1, { Context.reset with enable := true, runs := [⟨0, 1048576, 0, true, true, false, false, 0, 0⟩] })] }

/-- Its one row reads and writes without a fault. -/
theorem runAttend_biased : (runAttend biasedState biasedAttend 0 1).st = stOk ∧ (runAttend biasedState biasedAttend 0 1).numeric = false ∧
    (runAttend biasedState biasedAttend 0 1).s.seq.waiting = [] ∧ (runAttend biasedState biasedAttend 0 1).s.seq.blocked = [] := by
  decide +kernel

theorem attendEnd_biased_internal : (match exec (.seqAttendEnd 0 0 0) biasedState with | .next t => (pipeOf t 0).lastStatus == stOk | _ => true) = false := by
  decide +kernel

/-- Refutes O43: an attend whose bias table has an uncorrectable error ends with INTERNAL (R386), though the event names no fault and every row
would have passed, so the pipeline's last status is not the rows' own. -/
theorem not_sequenceWork : ¬ Obligations.SequenceWork := by
  intro h
  obtain ⟨-, -, -, -, -, -, -, hend⟩ := h biasedState biasedAttend.desc 0 pendingSeq (by decide)
  obtain ⟨hst, hnum, hwait, hblock⟩ := runAttend_biased
  obtain ⟨t, ht, -, hlast, -⟩ := hend 0 biasedAttend (runAttend biasedState biasedAttend 0 1) rfl rfl hwait hblock
  rw [hst, hnum, if_neg (not_not.2 rfl), if_neg Bool.false_ne_true] at hlast
  simpa [ht, hlast] using attendEnd_biased_internal

/-! ## A stream whose pose is lost -/

/-- A flow that requires a mounted camera, whose mount is entry 0. -/
def mountedCfg : Cfg :=
  { Cfg.reset with
    flows := [(0, { guarded := false, cadence := 0, enable := true, grid := none, cring := none })]
    streams := [(0, { StreamCfg.blank with kind := kindCamera, mount := some (0, 0, 0) })]
    rigs := [(0, { joints := 0, enable := true, root := 1 })]
    inputs := [(0, [{ index := 0, isFlow := false, required := true }])] }

/-- An epoch whose ALIGN has ended; the flow may run. -/
def mountedEpoch : Epoch :=
  { newEpoch State.reset 0 0 with
    cfg := mountedCfg, closed := true, cut := 1, alignEnd := some 0
    flows := [{ newRun State.reset (newEpoch State.reset 0 0) 0 { guarded := false, cadence := 0, enable := true, grid := none, cring := none } with gated := true }] }

/-- Its epoch table: the query at tov alone. -/
def mountedTable : EpochTable :=
  { epoch := 0, tov := 0, close := 0, streams := [], queries := [{ time := 0, frac := 0, source := 0, kind := 0, member := 0, values := [] }], tags := [], cut := false, ended := some 0 }

/-- A sequence of the flow holds a position open for the epoch; DID 1's addresses are mapped one to one. -/
def mountedState : State :=
  { State.reset with
    cfg := mountedCfg
    epochs := [mountedEpoch]
    spl.tables := [(0, mountedTable)]
    seq.seqs := [(0, pendingSeq)]
    mmu.ctx := [(1, { Context.reset with enable := true, runs := [⟨0, 1048576, 0, true, true, false, false, 0, 0⟩] })] }

theorem poseEvaluation_discards_pending : (match exec (.poseEvaluation [0]) mountedState with | .next u => u.mem == mountedState.mem | _ => true) = false := by
  decide +kernel

/-- Refutes O27: where the mount's entry has an uncorrectable error, the pose is unavailable, the flow that requires the stream stops and its work
ends (R209, R219), and the position that its sequence holds open is discarded: its time word is written as invalid (R379), so POSE_EVALUATION does
not leave every byte of memory. -/
theorem not_transformsAndPoses : ¬ Obligations.TransformsAndPoses := by
  rintro ⟨-, h⟩
  obtain ⟨hpose, -⟩ := h mountedState
  have hfirst : firstEpoch (mountedState.epochs.filter (fun e => e.alignEnd.isSome && !e.aborted && (poseTableOf mountedState e.cadence e.epoch).isNone)) = some mountedEpoch := by decide +kernel
  obtain ⟨u, -, hu, -, -, -, -, -, hmem⟩ := (hpose mountedEpoch mountedTable hfirst (by decide +kernel)).1 [0]
  simpa [hu, hmem] using poseEvaluation_discards_pending

/-! ## The Erg units -/

/-! ### Volumes (R225, R226) -/

section Volume
variable {s : State} {d : Desc} {u : Nat} {v : Volume}

@[simp] theorem volGuarded_markStarted (s : State) (d : Desc) (u : Nat) : volGuarded (markStarted s d) u = volGuarded s u := by simp [volGuarded]
@[simp] theorem volNamed_markStarted (s : State) (d : Desc) (u : Nat) : volNamed (markStarted s d) u = volNamed s u := by simp [volNamed]
@[simp] theorem memberOk_markStarted (s : State) (d : Desc) (u : Nat) (v : Volume) (k : Nat) : memberOk (markStarted s d) u v k = memberOk s u v k := by simp [memberOk]

/-- A field or a member of a volume is out of range (R226). -/
def volumeBad (s : State) (u : Nat) (v : Volume) : Prop :=
  v.keep = 0 ∨ 8 < v.keep ∨ v.blocksMax = 0 ∨ 1024 < v.blocksMax ∨ f32Pos v.rangeMax = false ∨ f32Finite v.cell = false ∨ ratOfV (decodeF fp32 v.cell) < ratOfV (decodeF fp32 0x3C23D70A) ∨ 10 < ratOfV (decodeF fp32 v.cell) ∨
    [v.ox, v.oy, v.oz].all f32Finite = false ∨ v.pointBase % 65536 ≠ 0 ∨ v.siteBase % 65536 ≠ 0 ∨ (∃ m ∈ v.members, memberOk s u v m.2 = false) ∨ (v.members.map (·.2)).eraseDups.length ≠ v.members.length

theorem volumeBad_iff : (v.keep == 0 || decide (8 < v.keep) || v.blocksMax == 0 || decide (1024 < v.blocksMax) || !f32Pos v.rangeMax || !f32Finite v.cell
    || decide (ratOfV (decodeF fp32 v.cell) < ratOfV (decodeF fp32 0x3C23D70A)) || decide (10 < ratOfV (decodeF fp32 v.cell)) || !([v.ox, v.oy, v.oz].all f32Finite) || v.pointBase % 65536 != 0 || v.siteBase % 65536 != 0
    || !(v.members.all (fun m => memberOk (markStarted s d) u v m.2)) || (v.members.map (·.2)).eraseDups.length != v.members.length) = true ↔ volumeBad s u v := by
  have hmem : (!(v.members.all (fun m => memberOk (markStarted s d) u v m.2))) = true ↔ ∃ m ∈ v.members, memberOk s u v m.2 = false := by
    simp only [memberOk_markStarted, Bool.not_eq_true', List.all_eq_false, Bool.not_eq_true]
  simp only [Bool.or_eq_true, hmem, beq_iff_eq, decide_eq_true_eq, Bool.not_eq_true', bne_iff_ne, volumeBad, or_assoc]

end Volume

/-! ### Operations of the Erg units (R234, R243) -/

section Unit
variable {s : State} {d : Desc} {u : Nat}

theorem startErg_busy {r : Desc × Nat} (h : s.geo.ergRun.find u = some r) : startErg s u = s := by simp [startErg, h]

theorem startErg_single {j : Nat × Desc × Nat} (h : s.geo.ergRun.find u = none) (hj : s.geo.ergJobs.filter (fun j => j.1 == u) = [j]) (he : epochWorkOn s u = []) :
    startErg s u = { s with geo.ergJobs := s.geo.ergJobs.erase j, geo.ergRun := s.geo.ergRun.put u (j.2.1, s.up) } := by
  simp [startErg, h, hj, leastBy, he]

theorem queueErg_markStarted (u : Nat) : queueErg (markStarted s d) d u = .later (startErg { markStarted s d with geo.ergJobs := s.geo.ergJobs ++ [(u, d, s.up)] } u) := by
  simp [queueErg]

/-- The answer completes its descriptor. -/
def Ends (a : Answer) : Prop := ∃ st res det fl t, a = .done st res det fl t

theorem ends_done (st res det fl : Nat) (t : State) : Ends (.done st res det fl t) := ⟨_, _, _, _, _, rfl⟩

theorem ends_failWith (t : State) (st : Nat) : Ends (failWith t st) := ends_done ..

theorem ends_ite {p : Prop} [Decidable p] {a b : Answer} (ha : Ends a) (hb : Ends b) : Ends (if p then a else b) := by
  split
  · exact ha
  · exact hb

theorem ends_afterWrite (x : Nat × State) (result detail : Nat) : Ends (afterWrite x result detail) := ends_ite (ends_done ..) (ends_failWith ..)

theorem ends_runKnn (s : State) (d : Desc) (w : Who) : Ends (runKnn s d w) := ends_ite (ends_failWith ..) (ends_ite (ends_failWith ..) (ends_afterWrite ..))

theorem ends_runFps (s : State) (d : Desc) (w : Who) : Ends (runFps s d w) := ends_ite (ends_failWith ..) (ends_ite (ends_failWith ..) (ends_afterWrite ..))

theorem ends_runRules (s : State) (d : Desc) (w : Who) : Ends (runRules s d w) :=
  ends_ite (ends_failWith ..) (ends_ite (ends_failWith ..) (ends_ite (ends_failWith ..) (ends_ite (ends_ite (ends_failWith ..) (ends_done ..)) (ends_ite (ends_failWith ..) (ends_afterWrite ..)))))

theorem ends_runBev (s : State) (d : Desc) (w : Who) : Ends (runBev s d w) := ends_ite (ends_failWith ..) (ends_afterWrite ..)

theorem ends_runErg (s : State) (d : Desc) (w : Who) : Ends (runErg s d w) :=
  ends_ite (ends_runKnn ..) (ends_ite (ends_runFps ..) (ends_ite (ends_runRules ..) (ends_runBev ..)))

end Unit

/-! ### Builds (R233 to R237) -/

section Build
variable {s : State} {e : Epoch} {t : EpochTable} {p : PoseTable} {u : Nat} {v : Volume}

theorem raise_geo (s : State) (r : Report) : (raise s r).geo = s.geo := by simp

theorem buildMarks_frame (s : State) (e : Epoch) (u : Nat) (v : Volume) (level : Nat) (truncated full : Bool) :
    (buildMarks s e u v level truncated full).geo = s.geo ∧ (buildMarks s e u v level truncated full).mem = s.mem := by
  simp only [buildMarks]
  repeat' split
  all_goals simp [updReaders, updEpoch]

theorem startErg_frame (s : State) (u : Nat) : (startErg s u).geo.erg = s.geo.erg ∧ (startErg s u).mem = s.mem := by
  simp only [startErg]
  repeat' split
  all_goals exact ⟨rfl, rfl⟩

theorem noteGeo_frame (s : State) (c n : Nat) : (noteGeo s c n).geo = s.geo ∧ (noteGeo s c n).mem = s.mem := ⟨rfl, rfl⟩

/-- The unit after a build without errors holds its volume and build. -/
theorem ergOf_buildNow (s : State) (e : Epoch) (t : EpochTable) (p : PoseTable) (u : Nat) (v : Volume) :
    (ergOf (buildNow s e t p u 0 v) u).lastVol = some v ∧ (ergOf (buildNow s e t p u 0 v) u).lastBuild = if v.vox then some (e.cadence, e.epoch) else none := by
  simp [buildNow, raiseTimes, ergOf, buildMarks_frame, setErg]

/-- A build without VOX and members writes nothing. -/
theorem buildNow_empty (hm : v.members = []) (hv : v.vox = false) :
    (ergOf (buildNow s e t p u 0 v) u).level = 0 ∧ (ergOf (buildNow s e t p u 0 v) u).store = [] ∧ (buildNow s e t p u 0 v).mem = s.mem := by
  simp [buildNow, newFrames, hm, hv, raiseTimes, ergOf, buildMarks_frame, setErg]

theorem exec_voxelBuild (hrun : s.geo.ergRun.find u = none) (he : buildEpoch s u = some e) (ht : tableOf s e.cadence e.epoch = some t) (hp : poseTableOf s e.cadence e.epoch = some p)
    (hv : e.cfg.volumes.find u = some v) :
    ∃ x, exec (.voxelBuild u 0) s = .next x ∧ (ergOf x u).lastVol = some v ∧ (ergOf x u).lastBuild = (if v.vox then some (e.cadence, e.epoch) else none) ∧
      (v.members = [] → v.vox = false → (ergOf x u).level = 0 ∧ (ergOf x u).store = [] ∧ x.mem = s.mem) := by
  let b := updEpoch (buildNow s e t p u 0 v) e.cadence e.epoch (fun e => { e with volsDone := e.volsDone ++ [u] })
  have herg : ergOf (startErg (noteGeo b e.cadence e.epoch) u) u = ergOf (buildNow s e t p u 0 v) u := by
    rw [ergOf, (startErg_frame _ u).1, (noteGeo_frame b _ _).1]
    rfl
  have hmem : (startErg (noteGeo b e.cadence e.epoch) u).mem = (buildNow s e t p u 0 v).mem := by
    rw [(startErg_frame _ u).2, (noteGeo_frame b _ _).2]
    rfl
  refine ⟨startErg (noteGeo b e.cadence e.epoch) u, ?_, ?_⟩
  · simp only [exec, execVoxelBuild, hrun, Option.isSome_none, Bool.false_eq_true, if_false, he, ht, hp, hv]
    rfl
  · rw [herg, hmem]
    obtain ⟨hvol, hbuild⟩ := ergOf_buildNow s e t p u v
    exact ⟨hvol, hbuild, buildNow_empty⟩

end Build

/-! ### The clauses of the operations -/

section Clauses
variable {s : State} {d : Desc} {u : Nat}

theorem volume_clauses {members : Tbl Nat} {v : Volume} (hu : u = dfld d 16 0 1)
    (hmem : members = (List.range 8).filterMap (fun j => if dbit d (18 + j) 7 then some (j, dfld d (18 + j) 0 7) else none))
    (hv : v = { vox := dbit d 16 1, reefMax := dfld d 16 2 2, keep := dfld d 16 4 4, cadence := dfld d 17 0 5, members := members, blocksMax := dfld d 26 0 11, rangeMax := dfld d 28 0 32, cell := dfld d 32 0 32, ox := dfld d 36 0 32, oy := dfld d 40 0 32, oz := dfld d 44 0 32, pointBase := dfld d 48 0 48, siteBase := dfld d 56 0 48, did := d.did, guarded := false })
    (ha : Accepted s d (infoErgVolume s d)) :
    (volGuarded s u = true → Refuses (.ergVolume d) s d stNotAuth) ∧
    (volGuarded s u = false → members = [] →
      (s.cfg.volumes.find u = none → Completes (.ergVolume d) s d 0 0 (markStarted s d)) ∧
      (s.cfg.volumes.find u ≠ none → volNamed s u = true → Refuses (.ergVolume d) s d stDescInvalid) ∧
      (s.cfg.volumes.find u ≠ none → volNamed s u = false → Completes (.ergVolume d) s d 0 0 { markStarted s d with cfg.volumes := Tbl.drop s.cfg.volumes u })) ∧
    (volGuarded s u = false → members ≠ [] → (¬ volumeBad s u v → Completes (.ergVolume d) s d 0 0 { markStarted s d with cfg.volumes := s.cfg.volumes.put u v }) ∧
      (volumeBad s u v → Refuses (.ergVolume d) s d stDescInvalid)) := by
  subst hu
  have hfields : v = { v with members := (List.range 8).filterMap (fun j => if dbit d (18 + j) 7 then some (j, dfld d (18 + j) 0 7) else none) } := by rw [hv, hmem]
  refine ⟨fun hg => ?_, fun hg hnone => ⟨fun hfind => ?_, fun hfind hnamed => ?_, fun hfind hnamed => ?_⟩, fun hg hsome => ⟨fun hok => ?_, fun hbad => ?_⟩⟩
  · exact refuses_of_done ha rfl (if_pos (by rwa [volGuarded_markStarted]))
  · refine completes_of_done ha rfl ((if_neg (by rw [volGuarded_markStarted, hg]; exact Bool.false_ne_true)).trans ((if_pos (hmem ▸ hnone)).trans (if_pos ?_)))
    simp [hfind]
  · refine refuses_of_done ha rfl ((if_neg (by rw [volGuarded_markStarted, hg]; exact Bool.false_ne_true)).trans ((if_pos (hmem ▸ hnone)).trans ((if_neg ?_).trans (if_pos ?_))))
    · simpa using hfind
    · rwa [volNamed_markStarted]
  · refine completes_of_done ha rfl ((if_neg (by rw [volGuarded_markStarted, hg]; exact Bool.false_ne_true)).trans ((if_pos (hmem ▸ hnone)).trans ((if_neg ?_).trans ((if_neg ?_).trans ?_))))
    · simpa using hfind
    · rw [volNamed_markStarted, hnamed]; exact Bool.false_ne_true
    · simp [okWith]
  · subst hmem hv
    refine completes_of_done ha rfl ((if_neg (by rw [volGuarded_markStarted, hg]; exact Bool.false_ne_true)).trans ((if_neg hsome).trans ((if_neg (mt volumeBad_iff.1 hok)).trans ?_)))
    simp [okWith]
  · subst hmem hv
    exact refuses_of_done ha rfl ((if_neg (by rw [volGuarded_markStarted, hg]; exact Bool.false_ne_true)).trans ((if_neg hsome).trans (if_pos (volumeBad_iff.2 hbad))))

/-- A descriptor whose check fails is refused; any other joins its unit's operations. -/
theorem queues_or_refuses {c : Instr} {o : OpInfo} {bad : Prop} [Decidable bad] (ha : Accepted s d o) (hc : exec c s = .next (runDesc s d o fun s => if bad then failWith s stDescInvalid else queueErg s d u)) :
    (¬ bad → exec c s = .next (startErg { markStarted s d with geo.ergJobs := s.geo.ergJobs ++ [(u, d, s.up)] } u)) ∧ (bad → Refuses c s d stDescInvalid) :=
  ⟨fun h => exec_of_later ha hc ((if_neg h).trans (queueErg_markStarted u)), fun h => refuses_of_done ha hc (if_pos h)⟩

/-- How the end of an operation goes on from its answer. -/
def endErg (d : Desc) (u : Nat) : Answer → Host.Outcome State Fault Refusal
  | .done st res det fl t => .next (startErg (fwDone (finishDesc t d st res det fl) d (152 + u)) u)
  | .later t => .next t

/-- The unit at the end of its operation. -/
def ergIdle (s : State) (u start : Nat) : State :=
  setErg { s with geo.ergRun := Tbl.drop s.geo.ergRun u } u { ergOf s u with opUs := min ((s.up - start) / 1000) 0xFFFF, lastEnd := s.up }

theorem exec_ergOperationEnd {ecc start : Nat} (hrun : s.geo.ergRun.find u = some (d, start)) :
    exec (.ergOperationEnd u ecc) s = if ecc ≠ 0 then
        .next (startErg (fwDone (finishDesc (raise (ergIdle s u start) { ergReport (ergIdle s u start) (sevOf (volGuarded (ergIdle s u start) u)) u stInternal with status := stInternal }) d stInternal 0 0 0) d (152 + u)) u)
      else endErg d u (runErg (ergIdle s u start) d (ergWho (ergIdle s u start) d u)) := by
  simp -zeta only [exec, execErgOperationEnd, hrun]
  rfl

theorem operationEnd_clauses {ecc start : Nat} {v : State} (hrun : s.geo.ergRun.find u = some (d, start)) (hv : v = ergIdle s u start) :
    (ecc ≠ 0 → ∃ t, exec (.ergOperationEnd u ecc) s = .next (startErg (fwDone (finishDesc t d stInternal 0 0 0) d (152 + u)) u) ∧ t.geo = v.geo ∧ t.mem = s.mem ∧ t.hif = s.hif) ∧
    (ecc = 0 → ∃ st res det fl t, runErg v d (ergWho v d u) = .done st res det fl t ∧ exec (.ergOperationEnd u ecc) s = .next (startErg (fwDone (finishDesc t d st res det fl) d (152 + u)) u)) := by
  rw [exec_ergOperationEnd hrun, ← hv]
  refine ⟨fun hecc => ⟨raise v _, if_pos hecc, ?_⟩, fun hecc => ?_⟩
  · subst hv
    simp [ergIdle, setErg]
  · obtain ⟨st, res, det, fl, t, ht⟩ := ends_runErg v d (ergWho v d u)
    exact ⟨st, res, det, fl, t, ht, (if_neg (not_not.2 hecc)).trans (congrArg (endErg d u) ht)⟩

/-- The kernels that a mode of ERG_RULES excludes (R240). -/
theorem rulesMode_not_iff {mode k : Nat} (h : mode < 2 ^ 2) :
    (!(if mode = 0 then k == 1 || k == 3 || k == 5 else decide (mode ≤ 2) && (k == 2 || k == 3))) = true ↔
      mode = 3 ∨ (mode = 0 ∧ k ≠ 1 ∧ k ≠ 3 ∧ k ≠ 5) ∨ (mode ≠ 0 ∧ k ≠ 2 ∧ k ≠ 3) := by
  split
  · next h0 => simp [h0, and_assoc]
  · next h0 =>
    simp only [Bool.not_eq_true', Bool.and_eq_false_iff, decide_eq_false_iff_not, Bool.or_eq_false_iff, beq_eq_false_iff_ne]
    omega

theorem bevSize_not_iff (n : Nat) : (!(n != 0 && decide (n ≤ 2048))) = true ↔ n = 0 ∨ 2048 < n := by
  simp only [Bool.not_eq_true', Bool.and_eq_false_iff, bne_eq_false_iff_eq, decide_eq_false_iff_not, not_le]

theorem not_volumeBad {v : Volume} (h1 : 1 ≤ v.keep) (h2 : v.keep ≤ 8) (h3 : 1 ≤ v.blocksMax) (h4 : v.blocksMax ≤ 1024) (h5 : f32Pos v.rangeMax = true) (h6 : f32Finite v.cell = true)
    (h7 : ratOfV (decodeF fp32 0x3C23D70A) ≤ ratOfV (decodeF fp32 v.cell)) (h8 : ratOfV (decodeF fp32 v.cell) ≤ 10) (h9 : [v.ox, v.oy, v.oz].all f32Finite = true) (h10 : v.pointBase % 65536 = 0)
    (h11 : v.siteBase % 65536 = 0) (h12 : ∀ m ∈ v.members, memberOk s u v m.2 = true) (h13 : (v.members.map (·.2)).eraseDups.length = v.members.length) : ¬ volumeBad s u v := by
  simp only [volumeBad, h5, h6, h9, h10, h11, h13, not_lt.2 h7, not_lt.2 h8, ne_eq, not_true_eq_false, Bool.true_eq_false, or_false, false_or]
  rintro (h | h | h | h | ⟨m, hm, h⟩)
  · omega
  · omega
  · omega
  · omega
  · exact absurd (h12 m hm) (by simp [h])

end Clauses

/-- Settles O30: a descriptor is one check and then its unit's queue, and a unit's events act on the unit that runs. -/
theorem ergUnits : Obligations.ErgUnits := by
  intro s d
  refine ⟨fun u members v hu hm hv ha => ?_, fun u k hu hk ha => ?_, fun u hu ha => ?_, fun u mode k hu hmode hk ha => ?_, fun u hu ha => ?_, fun u r h => startErg_busy h, fun u j => startErg_single,
    fun u ecc h => by simp [exec, execErgOperationEnd, h], fun u ecc start v hrun hv => operationEnd_clauses hrun hv,
    fun u errs r h => by simp [exec, execVoxelBuild, h], fun u errs h => ?_, fun u e t p v => exec_voxelBuild⟩
  · obtain ⟨hguarded, hempty, hsome⟩ := volume_clauses hu hm hv ha
    have hmem : v.members = members := by rw [hv]
    refine ⟨hguarded, hempty, fun hg hne => ⟨fun h1 h2 h3 h4 h5 h6 h7 h8 h9 h10 h11 h12 h13 => (hsome hg hne).1 ?_, fun hbad => (hsome hg hne).2 ?_⟩⟩
    · exact not_volumeBad h1 h2 h3 h4 h5 h6 h7 h8 h9 h10 h11 (hmem ▸ h12) (hmem ▸ h13)
    · rw [volumeBad, hmem]
      exact hbad
  · subst hu hk
    obtain ⟨hok, hbad⟩ := queues_or_refuses (u := dfld d 53 0 1) ha (c := .ergKnn d) rfl
    refine ⟨fun h1 h2 h3 h4 h5 h6 h7 => hok ?_, fun h => hbad ?_⟩
    · simp only [h3, h4, h5, Bool.not_true, Bool.false_eq_true, ne_eq, not_true_eq_false, false_or]
      omega
    · simpa using h
  · subst hu
    obtain ⟨hok, hbad⟩ := queues_or_refuses (u := dfld d 44 0 1) ha (c := .ergFps d) rfl
    exact ⟨fun h1 h2 h3 => hok (by omega), fun h => hbad (by omega)⟩
  · subst hu hmode hk
    obtain ⟨hok, hbad⟩ := queues_or_refuses (u := dfld d 44 2 1) ha (c := .ergRules d) rfl
    have hmode := dfld_lt d 44 0 2
    refine ⟨fun h h1 h2 h3 => hok ?_, fun h => hbad ?_⟩
    · rw [rulesMode_not_iff hmode]
      omega
    · rw [rulesMode_not_iff hmode]
      omega
  · subst hu
    obtain ⟨hok, hbad⟩ := queues_or_refuses (u := dfld d 35 0 1) ha (c := .ergBev d) rfl
    refine ⟨fun h1 h2 h3 h4 h5 h6 h7 h8 h9 => hok ?_, fun h => hbad ?_⟩
    · rw [bevSize_not_iff, bevSize_not_iff]
      omega
    · rw [bevSize_not_iff, bevSize_not_iff]
      omega
  · have he : buildEpoch s u = none := by simp [buildEpoch, h, firstEpoch]
    simp only [exec, execVoxelBuild, he]
    split <;> rfl

/-! ## Grids -/

/-! ### Grids and their sources, outputs and areas (R250 to R267) -/

@[simp] theorem gridGuarded_markStarted (s : State) (d : Desc) (g : Nat) : gridGuarded (markStarted s d) g = gridGuarded s g := by simp [gridGuarded]
@[simp] theorem gridInUse_markStarted (s : State) (d : Desc) (g : Nat) : gridInUse (markStarted s d) g = gridInUse s g := by simp [gridInUse]
@[simp] theorem gridOk_markStarted (s : State) (d : Desc) (x : GridCfg) : gridOk (markStarted s d) x = gridOk s x := by simp [gridOk]

/-- The ranges of R251. -/
theorem gridOk_iff (s : State) (x : GridCfg) : gridOk s x = true ↔ x.format ≤ 2 ∧ 3 ≤ x.regionLog2 ∧ x.regionLog2 ≤ 6 ∧ x.reefMax + 1 ≤ x.regionLog2 ∧ (1 ≤ x.w ∧ x.w ≤ 2048) ∧ (1 ≤ x.h ∧ x.h ≤ 2048) ∧ (1 ≤ x.c ∧ x.c ≤ 256) ∧
    (1 ≤ x.bins ∧ x.bins ≤ 16) ∧ x.cf ≤ 128 ∧ x.cp ≤ 64 ∧ x.ptFormat ≤ 2 ∧ x.ptReduce ≤ 2 ∧ x.ptStride % 4 = 0 ∧ f32Le 0x3C23D70A x.g0 = true ∧ f32Le x.g0 0x42C80000 = true ∧ f32Lt 0 x.dz = true ∧ x.base % 65536 = 0 ∧
    (x.cp ≠ 0 → ∃ v, s.cfg.volumes.find x.ptUnit = some v ∧ v.cadence = x.cadence) := by
  have hunit : (x.cp == 0 || (s.cfg.volumes.find x.ptUnit).any (fun v => v.cadence == x.cadence)) = true ↔ (x.cp ≠ 0 → ∃ v, s.cfg.volumes.find x.ptUnit = some v ∧ v.cadence = x.cadence) := by
    rw [Bool.or_eq_true, Option.any_eq_true]
    simp only [beq_iff_eq, ne_eq]
    tauto
  simp only [gridOk, Bool.and_eq_true, hunit, decide_eq_true_eq, beq_iff_eq, bne_iff_ne, ne_eq, and_assoc, ← Nat.pos_iff_ne_zero, Nat.succ_le_iff]

section Clauses
variable {s : State} {d : Desc} {g : Nat}

theorem not_of_false {b : Bool} (h : b = false) : ¬ b = true := Bool.eq_false_iff.1 h

theorem gridSource_clauses {k slot : Nat} {y : GridSrc} (hg : g = dfld d 16 0 3) (hk : k = dfld d 18 0 7) (hslot : slot = dfld d 17 0 5)
    (hy : y = { stream := k, lift := dbit d 19 0, stride := dfld d 19 3 5, tolAbs := dfld d 20 0 32, tolRel := dfld d 24 0 32, fx := dfld d 28 0 32, fy := dfld d 32 0 32, cx := dfld d 36 0 32, cy := dfld d 40 0 32, k1 := dfld d 44 0 32, k2 := dfld d 48 0 32, wf := dfld d 52 0 12, hf := dfld d 54 0 12, base := dfld d 56 0 48 })
    (ha : Accepted s d (infoGridSource s d)) :
    (gridGuarded s g = true → Refuses (.gridSource d) s d stNotAuth) ∧
    (gridGuarded s g = false → s.cfg.grids.find g = none → Refuses (.gridSource d) s d stDescInvalid) ∧
    (∀ x, gridGuarded s g = false → s.cfg.grids.find g = some x →
      (dbit d 17 7 = false → Completes (.gridSource d) s d 0 0 { markStarted s d with cfg.grids := s.cfg.grids.put g { x with sources := Tbl.drop x.sources slot } }) ∧
      (∀ c, dbit d 17 7 = true → s.cfg.streams.find k = some c → c.mount ≠ none → y.lift = false ∨ (c.kind = kindCamera ∧ y.stride ≠ 0) → f32Le 0 y.tolAbs = true → f32Le 0 y.tolRel = true → y.base % 65536 = 0 →
        Completes (.gridSource d) s d 0 0 { markStarted s d with cfg.grids := s.cfg.grids.put g { x with sources := x.sources.put slot y } }) ∧
      (dbit d 17 7 = true → s.cfg.streams.find k = none ∨ (∃ c, s.cfg.streams.find k = some c ∧ (c.mount = none ∨ (y.lift = true ∧ (c.kind ≠ kindCamera ∨ y.stride = 0)))) ∨ f32Le 0 y.tolAbs = false ∨ f32Le 0 y.tolRel = false ∨ y.base % 65536 ≠ 0 →
        Refuses (.gridSource d) s d stDescInvalid)) := by
  subst hg hk hslot hy
  have hmarked : (markStarted s d).cfg = s.cfg := by simp
  refine ⟨fun h => refuses_of_done ha rfl (if_pos (by simpa using h)), fun h hnone => refuses_of_done ha rfl ((if_neg (by simpa using h)).trans ?_), fun x h hx => ⟨fun hoff => ?_, fun c hon hc hmount hlift h1 h2 h3 => ?_, fun hon hbad => ?_⟩⟩
  · simp [hnone]
  · refine completes_of_done ha rfl ((if_neg (by simpa using h)).trans ?_)
    simp [hx, hoff, okWith]
  · have hfits : (c.mount.isSome && (!dbit d 19 0 || (c.kind == kindCamera && dfld d 19 3 5 != 0))) = true := by
      rw [Option.isSome_iff_ne_none.2 hmount]
      rcases hlift with hl | ⟨hk, hs⟩
      · simp [show dbit d 19 0 = false from hl]
      · simp [hk, show dfld d 19 3 5 ≠ 0 from hs]
    refine completes_of_done ha rfl ((if_neg (by simpa using h)).trans ?_)
    simp only [hmarked, hx, hon, hc, hfits, show f32Le 0 (dfld d 20 0 32) = true from h1, show f32Le 0 (dfld d 24 0 32) = true from h2, show dfld d 56 0 48 % 65536 = 0 from h3, Bool.not_true, Bool.false_eq_true, ne_eq,
      not_true_eq_false, or_self, if_false]
    rfl
  · refine refuses_of_done ha rfl ((if_neg (by simpa using h)).trans ?_)
    simp only [hmarked, hx, hon, Bool.not_true, Bool.false_eq_true, if_false]
    refine if_pos ?_
    rcases hbad with hnone | ⟨c, hc, hbad⟩ | hbad
    · simp [hnone]
    · left
      rcases hbad with hmount | ⟨hl, hbad⟩
      · simp [hc, hmount]
      · rw [hc, show dbit d 19 0 = true from hl]
        rcases hbad with hkind | hs
        · simp [hkind]
        · simp [show dfld d 19 3 5 = 0 from hs]
    · right
      simpa using hbad

theorem gridArea_clauses {f k : Nat} {a : Area} (hf : f = dfld d 16 0 12) (hk : k = dfld d 18 0 3)
    (hdef : a = { grid := k, required := dbit d 18 7, col0 := dfld d 20 0 8, row0 := dfld d 22 0 8, col1 := dfld d 24 0 8, row1 := dfld d 26 0 8, unseenMax := dfld d 28 0 32 }) (ha : Accepted s d (infoGridArea s d)) :
    (∀ x, s.cfg.flows.find f = some x → x.guarded = true → Refuses (.gridArea d) s d stNotAuth) ∧
    (∀ x, s.cfg.flows.find f = some x → x.guarded = false → s.cfg.grids.find k ≠ none → Completes (.gridArea d) s d 0 0 { markStarted s d with cfg.areas := s.cfg.areas.put (f * 8 + k) a }) ∧
    (∀ x, s.cfg.flows.find f = some x → x.guarded = false → s.cfg.grids.find k = none → Refuses (.gridArea d) s d stDescInvalid) ∧
    (s.cfg.flows.find f = none → Refuses (.gridArea d) s d stDescInvalid) := by
  subst hf hk hdef
  have hmarked : (markStarted s d).cfg = s.cfg := by simp
  refine ⟨fun x hx hgd => refuses_of_done ha rfl ?_, fun x hx hgd hgrid => ?_, fun x hx hgd hgrid => refuses_of_done ha rfl ?_, fun hx => refuses_of_done ha rfl ?_⟩
  · simp only [hmarked, hx]
    cases s.cfg.grids.find (dfld d 18 0 3) <;> simp only [hgd, if_true]
  · obtain ⟨y, hy⟩ := Option.ne_none_iff_exists'.1 hgrid
    refine completes_of_done ha rfl ?_
    simp only [hmarked, hx, hgd, hy]
    rfl
  · simp only [hmarked, hx, hgd, hgrid]
    rfl
  · simp only [hmarked, hx]

theorem gridDelete_clauses (hg : g = dfld d 16 0 3) (ha : Accepted s d (infoGridDelete s d)) :
    (gridGuarded s g = true → Refuses (.gridDelete d) s d stNotAuth) ∧
    (gridGuarded s g = false → s.cfg.flows.any (fun p => p.2.grid == some g) = true → Refuses (.gridDelete d) s d stDescInvalid) ∧
    (gridGuarded s g = false → s.cfg.flows.any (fun p => p.2.grid == some g) = false → s.cfg.grids.find g = none → Completes (.gridDelete d) s d 0 0 (markStarted s d)) ∧
    (gridGuarded s g = false → s.cfg.flows.any (fun p => p.2.grid == some g) = false → s.cfg.grids.find g ≠ none →
      ∃ t, Completes (.gridDelete d) s d 0 0 t ∧ t.cfg.grids = Tbl.drop s.cfg.grids g ∧ t.cfg.areas = s.cfg.areas.filter (fun p => p.1 % 8 ≠ g) ∧
        t.geo.grids = (if s.epochs.any (fun e => (e.cfg.grids.find g).isSome) then s.geo.grids else Tbl.drop s.geo.grids g) ∧
        { t with cfg.grids := s.cfg.grids, cfg.areas := s.cfg.areas, geo.grids := s.geo.grids } = markStarted s d) := by
  subst hg
  refine ⟨fun h => refuses_of_done ha rfl (if_pos (by simpa using h)), fun h hflow => refuses_of_done ha rfl ((if_neg (by simpa using h)).trans (if_pos (by simpa using hflow))),
    fun h hflow hnone => completes_of_done ha rfl ((if_neg (by simpa using h)).trans ((if_neg (by simpa using hflow)).trans (if_pos (by simp [hnone])))), fun h hflow hsome => ?_⟩
  let v : State := { markStarted s d with cfg.grids := (markStarted s d).cfg.grids.drop (dfld d 16 0 3), cfg.areas := (markStarted s d).cfg.areas.filter (fun p => p.1 % 8 ≠ dfld d 16 0 3) }
  refine ⟨{ v with geo.grids := if gridInUse v (dfld d 16 0 3) then v.geo.grids else v.geo.grids.drop (dfld d 16 0 3) },
    completes_of_done ha rfl ((if_neg (by simpa using h)).trans ((if_neg (by simpa using hflow)).trans ((if_neg (by simpa using hsome)).trans rfl))), ?_, ?_, ?_, ?_⟩
  · simp [v]
  · simp [v]
  · simp [v, gridInUse, Tbl.find_drop_same]
  · have hcfg : (markStarted s d).cfg = s.cfg := by simp
    have hgeo : (markStarted s d).geo = s.geo := by simp
    rw [← hcfg, ← hgeo]

end Clauses

/-! ### The steps of a grid (R254) -/

section Steps
variable {s : State} {g n last k : Nat} {e : Epoch} {x : GridCfg}

theorem gridOf_gridStep (s : State) (g n step k : Nat) : (gridOf (gridStep s g n step k) g).running = some (n, step, k) := by
  simp [gridOf, gridStep, setGrid]

theorem fuseStep_first (hrun : (gridOf s g).running = none) (he : gridEpoch s g = some e) (hx : e.cfg.grids.find g = some x) :
    ∃ t, exec (.fuseStepStart g) s = .next t ∧ (gridOf t g).running = some (e.epoch, 1, if reefable x then min e.reef x.reefMax else 0) := by
  simp only [exec, execFuseStepStart, hrun, he, hx]
  exact ⟨_, rfl, gridOf_gridStep ..⟩

theorem fuseStep_next (hrun : (gridOf s g).running = some (n, last, k))
    (he : s.epochs.find? (fun e => e.epoch == n && (e.cfg.grids.find g).any (fun x => x.enable && x.cadence == e.cadence)) = some e) (hx : e.cfg.grids.find g = some x) (hlo : 3 ≤ last) (hhi : last ≤ 5) :
    ∃ t, exec (.fuseStepStart g) s = .next t ∧ (gridOf t g).running = some (n, last + 1, k) := by
  have hn : e.epoch = n := by
    have h := List.find?_some he
    simp only [Bool.and_eq_true, beq_iff_eq] at h
    exact h.1
  simp only [exec, execFuseStepStart, hrun, he, hx]
  refine ⟨_, rfl, ?_⟩
  subst hn
  obtain rfl | rfl | rfl : last = 3 ∨ last = 4 ∨ last = 5 := by omega
  all_goals exact gridOf_gridStep ..

theorem fuseStep_idle (h : s.epochs = []) : exec (.fuseStepStart g) s = .next s := by
  have he : gridEpoch s g = none := by simp [gridEpoch, h]
  simp only [exec, execFuseStepStart, he, h, List.find?_nil]
  split <;> rfl

end Steps

/-- Settles O31: a grid's descriptor is one check of its class and ranges and one change of its configuration. -/
theorem gridCommands : Obligations.GridCommands := by
  intro s d g hg
  refine ⟨fun x hx => ⟨gridOk_iff s x, fun ha => ?_⟩, fun k slot y hk hslot hy ha => gridSource_clauses hg hk hslot hy ha, fun o ho ha => ?_, fun f k a hf hk hdef ha => gridArea_clauses hf hk hdef ha,
    gridDelete_clauses hg, fun h => fuseStep_idle, fun h e x => fuseStep_first, fun h n last k e x => fuseStep_next⟩
  · subst hg
    refine ⟨fun h => refuses_of_done ha rfl (if_pos (by simpa using h)), fun h hbad => refuses_of_done ha rfl ((if_neg (by simpa using h)).trans (if_pos ?_)),
      fun h hok => completes_of_done ha rfl ((if_neg (by simpa using h)).trans ((if_neg ?_).trans ?_))⟩
    · rw [gridOk_markStarted, (markStarted_frame s d).1, ← hx, hbad]
      rfl
    · rw [gridOk_markStarted, (markStarted_frame s d).1, ← hx, hok]
      exact Bool.false_ne_true
    · rw [(markStarted_frame s d).1, ← hx]
      simp [okWith]
  · subst hg ho
    have hmarked : (markStarted s d).cfg = s.cfg := by simp
    refine ⟨fun h => refuses_of_done ha rfl (if_pos (by simpa using h)), fun h hnone => refuses_of_done ha rfl ((if_neg (by simpa using h)).trans ?_), fun x h hx => ⟨fun h1 h2 h3 h4 h5 => ?_, fun hbad => ?_⟩⟩
    · simp [hnone]
    · refine completes_of_done ha rfl ((if_neg (by simpa using h)).trans ?_)
      simp only [hmarked, hx]
      refine (if_neg ?_).trans rfl
      dsimp only at h1 h2 h3 h4 h5
      omega
    · refine refuses_of_done ha rfl ((if_neg (by simpa using h)).trans ?_)
      simp only [hmarked, hx]
      exact if_pos hbad

/-! ## Programs, tasks and instances -/

/-! ### Programs, tasks, and the placement and end of instances (R273 to R290) -/

@[simp] theorem taskOk_markStarted (s : State) (d : Desc) (b : TaskBody) : taskOk (markStarted s d) b = taskOk s b := by simp [taskOk]
@[simp] theorem programNamed_markStarted (s : State) (d : Desc) (k : Nat) : programNamed (markStarted s d) k = programNamed s k := by
  simp [programNamed]

theorem exec_engProgLoad_of_done {s u : State} {d : Desc} {st : Nat} (ha : Accepted s d (infoEngProgLoad s d)) {act : State → Answer}
    (hc : exec (.engProgLoad d) s = .next (runDesc s d (infoEngProgLoad s d) act)) (hf : act (markStarted s d) = failWith u st) :
    exec (.engProgLoad d) s = .next (finishDesc u d st 0 0 0) := by
  rw [hc, runDesc_of_done ha hf]

section Clauses
variable {s : State} {d : Desc}

/-- The load of a program: the status of the first read, header or code that fails, else the program under its handle (R283). -/
theorem progLoad_clauses {k va st : Nat} {h : List Byte} {u : State} (hk : k = dfld d 16 0 10) (hva : va = dfld d 24 0 64) (ha : Accepted s d (infoEngProgLoad s d))
    (hread : devRead (markStarted s d) (progWho d) va 128 = (st, h, u)) :
    (st ≠ stOk → exec (.engProgLoad d) s = .next (finishDesc u d st 0 0 0)) ∧
    (st = stOk → progHeaderOk h = false → exec (.engProgLoad d) s = .next (finishDesc u d stDescInvalid 0 0 0)) ∧
    (∀ st2 c v, st = stOk → progHeaderOk h = true → devRead u (progWho d) (va + 128) (ofLe ((h.drop 4).take 4)) = (st2, c, v) →
      (st2 ≠ stOk → exec (.engProgLoad d) s = .next (finishDesc v d st2 0 0 0)) ∧
      (st2 = stOk → crc32c c ≠ ofLe ((h.drop 8).take 4) → exec (.engProgLoad d) s = .next (finishDesc v d stDescInvalid 0 0 0)) ∧
      (st2 = stOk → crc32c c = ofLe ((h.drop 8).take 4) → dGuarded d = false → s.eng.programs.find k = none → Completes (.engProgLoad d) s d 0 0 { v with eng.programs := v.eng.programs.put k (programOf d h c) }) ∧
      (st2 = stOk → crc32c c = ofLe ((h.drop 8).take 4) → dGuarded d = false → s.eng.programs.find k ≠ none → exec (.engProgLoad d) s = .next (finishDesc v d stDescInvalid 0 0 0))) := by
  subst hk hva
  have heng : (markStarted s d).eng = s.eng := by simp
  refine ⟨fun hst => ?_, fun hst hh => ?_, fun st2 c v hst hh hcode => ⟨fun hst2 => ?_, fun hst2 hcrc => ?_, fun hst2 hcrc hg hfree => ?_, fun hst2 hcrc hg hused => ?_⟩⟩
  · exact exec_engProgLoad_of_done ha rfl (by simp only [hread]; exact if_pos hst)
  · exact exec_engProgLoad_of_done ha rfl (by simp [hread, hst, hh])
  · exact exec_engProgLoad_of_done ha rfl (by simp only [hread, hcode, hst, hh]; simp [hst2])
  · exact exec_engProgLoad_of_done ha rfl (by simp only [hread, hcode, hst, hh]; simp [hst2, hcrc])
  · refine completes_of_done ha rfl ?_
    have hplain : (programOf d h c).guarded = false := hg
    simp only [hread, hcode, hst, hh]
    simp [hst2, hcrc, hplain, hfree, okWith]
  · refine exec_engProgLoad_of_done ha rfl ?_
    have hplain : (programOf d h c).guarded = false := hg
    simp only [hread, hcode, hst, hh]
    simp [hst2, hcrc, hplain, Option.isSome_iff_ne_none.2 hused]

theorem progFree_clauses {k : Nat} (hk : k = dfld d 16 0 10) (ha : Accepted s d (infoEngProgFree s d)) :
    (s.eng.programs.find k = none → Completes (.engProgFree d) s d 0 0 (markStarted s d)) ∧
    (s.eng.programs.find k ≠ none → programNamed s k = true → Refuses (.engProgFree d) s d stDescInvalid) ∧
    (s.eng.programs.find k ≠ none → programNamed s k = false → ∃ t, Completes (.engProgFree d) s d 0 0 t ∧ t.eng.programs.find k = none ∧ (∀ g, (engineOf t g).resident = (engineOf s g).resident.filter (fun r => r.handle != k)) ∧
      { t with eng.programs := s.eng.programs, eng.engines := s.eng.engines } = markStarted s d) := by
  subst hk
  have heng : (markStarted s d).eng = s.eng := by simp
  refine ⟨fun h => completes_of_done ha rfl (by simp [h, okWith]), fun h hn => refuses_of_done ha rfl (by simp [h, hn]), fun h hn => ?_⟩
  let t : State := { markStarted s d with
    eng.programs := (markStarted s d).eng.programs.drop (dfld d 16 0 10)
    eng.engines := (markStarted s d).eng.engines.mapV (fun _ e => { e with resident := e.resident.filter (fun r => r.handle != dfld d 16 0 10) }) }
  refine ⟨t, completes_of_done ha rfl ?_, ?_, fun g => ?_, ?_⟩
  · simp [h, hn, okWith, t]
  · exact Tbl.find_drop_same _ _
  · simp only [engineOf, Tbl.at, t, Tbl.find_mapV, heng]
    cases s.eng.engines.find g <;> simp [Engine.reset]
  · simp only [t, ← heng]

theorem task_clauses (ha : Accepted s d (infoEngTask s d)) :
    (taskOk s (taskBody d) = false → Refuses (.engTask d) s d stDescInvalid) ∧
    (taskOk s (taskBody d) = true → ∃ t r, exec (.engTask d) s = .next t ∧ t.eng.runs.find s.eng.nextRun = some r ∧ r.body = taskBody d ∧ r.did = d.did ∧ r.waiting = List.range (taskBody d).instances ∧ r.desc = some d ∧
      { t with eng.runs := s.eng.runs, eng.nextRun := s.eng.nextRun } = markStarted s d) := by
  have heng : (markStarted s d).eng = s.eng := by simp
  refine ⟨fun h => refuses_of_done ha rfl (by simp [h]), fun h => ?_⟩
  refine ⟨addRun (markStarted s d) (newTask (taskBody d) d.did (workGuarded d) (some d) none 0), newTask (taskBody d) d.did (workGuarded d) (some d) none 0,
    exec_of_later ha rfl (by simp [h]), ?_, rfl, rfl, rfl, rfl, ?_⟩
  · simp [addRun]
  · simp only [addRun, ← heng]

theorem taskBind_clauses {b : TaskBody} (hb : b = taskBody d) (ha : Accepted s d (infoEngTaskBind s d)) :
    (s.cfg.flows.find b.flow ≠ none → taskOk s b = true → b.stage ≠ 7 → s.cfg.tasks.find b.handle = none → Completes (.engTaskBind d) s d 0 0 { markStarted s d with cfg.tasks := s.cfg.tasks.put b.handle { body := b, did := d.did, guarded := dGuarded d } }) ∧
    (s.cfg.flows.find b.flow = none ∨ b.stage = 7 ∨ s.cfg.tasks.find b.handle ≠ none ∨ taskOk s b = false → Refuses (.engTaskBind d) s d stDescInvalid) := by
  subst hb
  have hcfg : (markStarted s d).cfg = s.cfg := by simp
  refine ⟨fun hf ht hst hn => completes_of_done ha rfl ?_, fun hbad => refuses_of_done ha rfl (if_pos ?_)⟩
  · simp [hf, ht, hst, hn, okWith]
  · rcases hbad with h | h | h | h <;> simp [h, Option.isSome_iff_ne_none]

theorem taskUnbind_clauses {h : Nat} (hh : h = dfld d 56 0 12) (ha : Accepted s d (infoEngTaskUnbind s d)) :
    (s.cfg.tasks.find h = none → Completes (.engTaskUnbind d) s d 0 0 (markStarted s d)) ∧
    (s.cfg.tasks.find h ≠ none → Completes (.engTaskUnbind d) s d 0 0 { markStarted s d with cfg.tasks := Tbl.drop s.cfg.tasks h }) := by
  subst hh
  have hcfg : (markStarted s d).cfg = s.cfg := by simp
  exact ⟨fun h => completes_of_done ha rfl (by simp [h, okWith]), fun h => completes_of_done ha rfl (by simp [h, okWith])⟩

end Clauses

theorem boundTaskReady_starts {s : State} {h : Nat} {e : Epoch} {b : BoundTask} (he : s.epochs.find? (taskReady s h) = some e) (hb : e.cfg.tasks.find h = some b) :
    exec (.boundTaskReady h) s = .next (addRun s (newTask b.body b.did b.guarded none (some h) e.epoch)) := by
  simp only [exec, execBoundTaskReady, he, hb]

/-- An instance ends while others of its run are still to end. -/
theorem instanceEnd_ends {s : State} {id : Nat} {i : Instance} {r : TaskRun} (hi : s.eng.instances.find id = some i) (hact : i.active = true) (hth : i.threads = []) (hkept : i.kept = none)
    (hst : i.status = stOk) (hr : s.eng.runs.find i.run = some r) (hmore : ∀ x st, (r.ended.put x st).length < r.body.instances) :
    ∃ t q, exec (.instanceEnd id) s = .next t ∧ t.eng.instances.find id = none ∧ t.eng.runs.find i.run = some q ∧ q.ended = r.ended.put i.index stOk ∧ q.running = r.running.erase id ∧ { t with eng := s.eng } = s := by
  let q : TaskRun := { r with running := r.running.erase id, waiting := r.waiting.erase i.index, ended := r.ended.put i.index stOk }
  let t : State := { s with eng.instances := s.eng.instances.drop id, eng.runs := (s.eng.runs.put i.run { r with running := r.running.erase id }).put i.run q }
  have hmore' : (r.ended.put i.index stOk).length < r.body.instances := hmore i.index stOk
  have hended : instEnded s id i = true := by simp [instEnded, hact, hth]
  have hstay : (stOk == stIsolated) = false := rfl
  refine ⟨t, q, ?_, Tbl.find_drop_same _ _, by simp [t], rfl, rfl, rfl⟩
  simp [exec, execInstanceEnd, hi, hended, hth, hkept, hst, hstay, hr, endIndex, endTask, hmore', t, q]

theorem mem_of_leastBy {α : Type} {key : α → List Nat} {l : List α} {x : α} (h : leastBy key l = some x) : x ∈ l := by
  induction l with
  | nil => simp [leastBy] at h
  | cons y ys ih =>
    rw [leastBy] at h
    split at h
    case h_1 => simp_all
    case h_2 z hz =>
      split at h
      · exact List.mem_cons_of_mem _ (ih (hz.trans h))
      · simp_all

/-- A free window lies inside its tile. -/
theorem freeWindow_fits {used : List (Nat × Nat)} {n a : Nat} (h : freeWindow used n = some a) : a + n ≤ 2 ^ 21 ∧ a < 2 ^ 21 := by
  have hfit := List.find?_some h
  have hmem := List.mem_of_find?_eq_some h
  simp only [List.mem_map, List.mem_range] at hmem
  simp only [Bool.and_eq_true, decide_eq_true_eq] at hfit
  omega

/-- The chosen place holds the whole window of the instance. -/
theorem chooseSpot_fits {s : State} {id : Nat} {r : TaskRun} {p : Program} {x : Spot} (h : chooseSpot s id r p = some x) :
    x.window + r.body.window ≤ 2 ^ 21 ∧ x.window < 2 ^ 21 := by
  obtain ⟨g, -, hg⟩ := List.mem_filterMap.1 (mem_of_leastBy h)
  simp only [spotOn, Option.ite_none_left_eq_some] at hg
  obtain ⟨-, hg⟩ := hg
  split at hg
  · cases hg
  · obtain ⟨o, ho, rfl⟩ := Option.map_eq_some_iff.1 hg
    exact freeWindow_fits ho

/-- A program that is resident is not copied again (R284). -/
theorem loadResident_present {s : State} {g k : Nat} {p : Program} {code : List Resident} (h : (engineOf s g).resident.any (fun r => r.handle == k) = true) :
    loadResident s g k p code = setEngine s g { engineOf s g with resident := code } := by
  simp only [loadResident, h, if_true]
  split <;> rfl

theorem read_scribble_other {s : State} {keys : List Nat} {a : Nat} (h : a ∉ keys) : Memory.read (scribble s keys).mem a = Memory.read s.mem a := by
  have hread (m : List Host.Cell) : Memory.read (keys.foldl (fun m k => Memory.write m k (Config.freeByte s.fresh k)) m) a = Memory.read m a := by
    induction keys generalizing m with
    | nil => rfl
    | cons k ks ih =>
      obtain ⟨hne, hks⟩ := not_or.1 (List.mem_cons.not.1 h)
      exact (ih hks _).trans (Memory.read_write_other _ _ hne)
  exact hread s.mem

/-- A place without a bound task's epoch starts from the same registers in every state. -/
theorem startRegs_unbound {r : TaskRun} (hr : r.bound = none) (s s' : State) (idx j w : Nat) (fresh : Bool) : startRegs s r idx j w fresh = startRegs s' r idx j w fresh := by
  simp [startRegs, hr]

section StartedThreads
variable {f : State → Nat × Nat → Thread → Thread}

theorem thread_foldl_updThread_other {l : List (Nat × Nat)} {n : Nat} (hn : ∀ t ∈ l, t.1 ≠ n) (s : State) : thread (l.foldl (fun s t => updThread s t.1 (f s t)) s) n = thread s n := by
  induction l generalizing s with
  | nil => rfl
  | cons t l ih =>
    rw [List.foldl_cons, ih (fun u hu => hn u (List.mem_cons_of_mem _ hu))]
    exact thread_setThread_other _ _ (hn t List.mem_cons_self).symm

/-- Threads started one after the other, each once: each has what its start gives. -/
theorem thread_foldl_updThread {P : Nat × Nat → Thread → Prop} (hP : ∀ s t y, P t (f s t y)) {l : List (Nat × Nat)} (hl : (l.map Prod.fst).Nodup) {t : Nat × Nat} (ht : t ∈ l) (s : State) :
    P t (thread (l.foldl (fun s t => updThread s t.1 (f s t)) s) t.1) := by
  induction l generalizing s with
  | nil => cases ht
  | cons u l ih =>
    obtain ⟨hu, hl⟩ := List.nodup_cons.1 hl
    rcases List.mem_cons.1 ht with rfl | ht
    · rw [List.foldl_cons, thread_foldl_updThread_other (fun v hv h => hu (by rw [← h]; exact List.mem_map_of_mem hv))]
      simp only [updThread, thread_setThread_same]
      exact hP _ _ _
    · exact ih hl ht _

end StartedThreads

theorem startInstance_mem (s : State) (id : Nat) (r : TaskRun) (p : Program) (i : Instance) (fresh : Bool) : (startInstance s id r p i fresh).mem = s.mem :=
  foldl_keeps State.mem _ (by intros; rfl) _ _

theorem startInstance_instances (s : State) (id : Nat) (r : TaskRun) (p : Program) (i : Instance) (fresh : Bool) : (startInstance s id r p i fresh).eng.instances = s.eng.instances.put id i :=
  foldl_keeps (fun s => s.eng.instances) _ (by intros; rfl) _ _

/-- The threads of a starting instance (R273). -/
theorem startInstance_thread {s s' : State} {id : Nat} {r : TaskRun} {p : Program} {i : Instance} {fresh : Bool} (hr : r.bound = none) (hi : i.threads.Nodup) {j n : Nat} (hj : i.threads[j]? = some n) :
    (thread (startInstance s id r p i fresh) n).st = .ready ∧ (thread (startInstance s id r p i fresh) n).inst = some id ∧ (thread (startInstance s id r p i fresh) n).pc = p.entries.getD r.body.entry 0 / 8 ∧
      (thread (startInstance s id r p i fresh) n).x = startRegs s' r i.index j i.window fresh := by
  have hmem : (n, j) ∈ i.threads.zipIdx := List.mem_zipIdx_iff_getElem?.2 hj
  exact thread_foldl_updThread (P := fun t y => y.st = .ready ∧ y.inst = some id ∧ y.pc = p.entries.getD r.body.entry 0 / 8 ∧ y.x = startRegs s' r i.index t.2 i.window fresh)
    (fun _ _ _ => ⟨rfl, rfl, rfl, startRegs_unbound hr _ _ _ _ _ _⟩) (by simpa using hi) hmem _

theorem freeThreads_nodup (s : State) (g : Nat) : (freeThreads s g).Nodup := List.nodup_range.filter _

/-- The instance that takes a chosen place (R288). -/
def placedInstance (s : State) (rid : Nat) (r : TaskRun) (x : Spot) (idx : Nat) : Instance :=
  { run := rid, index := idx, engine := x.engine, threads := ((freeThreads s x.engine).take r.body.threads).map (fun t => 64 * x.engine + t), window := x.window, windowBytes := r.body.window,
    swizzle := r.body.swizzle, exported := r.body.export_, did := r.did, guarded := r.guarded, program := r.body.program, kept := r.bound.map (fun h => (h, idx)), active := true, restarted := r.again.contains idx, status := stOk }

/-- The state in which a chosen place's threads are started: the program resident, the window's old bytes gone, the run's index placed. -/
def placedState (s : State) (rid : Nat) (r : TaskRun) (p : Program) (x : Spot) (idx : Nat) : State :=
  let u := scribble (startOn (loadResident s x.engine r.body.program p x.code) x.engine r.guarded (if r.bound.isSome then (r.body.cadence, r.epoch) else (32, rid)) [r.body.flow])
    ((List.range r.body.window).map (fun k => Space.key (.tile x.engine) (x.window + k)))
  { u with eng.nextInst := s.eng.nextInst + 1, eng.runs := u.eng.runs.put rid { r with waiting := r.waiting.erase idx, running := r.running ++ [s.eng.nextInst] } }

theorem placeAt_chosen {s : State} {rid idx : Nat} {r : TaskRun} {p : Program} {x : Spot} (hb : r.bound = none) (hx : chooseSpot s rid r p = some x) :
    placeAt s rid r p idx = some (startInstance (placedState s rid r p x idx) s.eng.nextInst r p (placedInstance s rid r x idx) true) := by
  simp only [placeAt, keptPlace, hb, hx]
  simp only [placedState, placedInstance, hb]

theorem read_placedState {s : State} {rid idx k : Nat} {r : TaskRun} {p : Program} {x : Spot} (hx : chooseSpot s rid r p = some x) (hres : (engineOf s x.engine).resident.any (fun y => y.handle == r.body.program) = true)
    (hk : k < Space.key (.tile x.engine) x.window ∨ Space.key (.tile x.engine) x.window + r.body.window ≤ k) : Memory.read (placedState s rid r p x idx).mem k = Memory.read s.mem k := by
  obtain ⟨hend, hstart⟩ := chooseSpot_fits hx
  have hout : k ∉ (List.range r.body.window).map (fun k => Space.key (.tile x.engine) (x.window + k)) := by
    simp only [List.mem_map, List.mem_range, not_exists, not_and]
    intro j hj heq
    simp only [Space.key, Nat.mod_eq_of_lt hstart] at hk heq
    rw [Nat.mod_eq_of_lt (by omega)] at heq
    omega
  have hmem (u : State) (w : Nat × Nat) : (startOn u x.engine r.guarded w [r.body.flow]).mem = u.mem := (congrArg State.mem (startOn_frame u x.engine r.guarded w [r.body.flow]) :)
  refine (read_scribble_other hout).trans ?_
  rw [hmem, loadResident_present hres]
  rfl

theorem instancePlacement_places {s : State} {rid idx : Nat} {r : TaskRun} {p : Program} {x : Spot} (hruns : s.eng.runs = [(rid, r)]) (hw : r.waiting = [idx]) (hp : s.eng.programs.find r.body.program = some p)
    (hb : r.bound = none) (hx : chooseSpot s rid r p = some x) :
    exec .instancePlacement s = .next (startInstance (placedState s rid r p x idx) s.eng.nextInst r p (placedInstance s rid r x idx) true) := by
  simp [exec, execInstancePlacement, hruns, hw, rankRun, placeFirst, hp, placeAt_chosen hb hx]

/-- Settles O32: the program and task descriptors by their checks, and the placement of the only waiting instance by the start of its threads one after the other. -/
theorem programsTasksInstances : Obligations.ProgramsTasksInstances := by
  refine ⟨fun s d => ⟨fun k va st h u hk hva ha hread => progLoad_clauses hk hva ha hread, fun k hk ha => progFree_clauses hk ha, task_clauses, fun b hb ha => taskBind_clauses hb ha, fun h hh ha => taskUnbind_clauses hh ha⟩,
    fun s => ⟨fun h he => ?_, fun h e b he hb => ?_, fun id hid => ?_, fun id i r => instanceEnd_ends, fun hruns => ?_, fun rid r p x idx hruns hw hp hb hagain hx hres => ?_⟩⟩
  · simp [exec, execBoundTaskReady, he]
  · exact ⟨_, newTask b.body b.did b.guarded none (some h) e.epoch, boundTaskReady_starts he hb, by simp [addRun], rfl, rfl, rfl, rfl, rfl⟩
  · simp [exec, execInstanceEnd, hid]
  · simp [exec, execInstancePlacement, hruns, placeFirst]
  · have hnodup : (placedInstance s rid r x idx).threads.Nodup :=
      ((freeThreads_nodup s x.engine).sublist (List.take_sublist _ _)).map (fun a b hab => by simpa using hab)
    refine ⟨_, placedInstance s rid r x idx, instancePlacement_places hruns hw hp hb hx, ?_, rfl, rfl, rfl, rfl, rfl, fun j n hj => startInstance_thread hb hnodup hj, fun k hk => ?_⟩
    · simp [startInstance_instances]
    · rw [startInstance_mem]
      exact read_placedState hx hres hk

/-! ## Presence and debug levels -/

/-! ### The presence window and the debug levels (R523 to R530) -/

/-- The fields of the debug unit that ending tests and stopping the trace leave alone. -/
def debugGate (s : State) : Nat × Nat × Nat × Nat × Bool := (s.dbg.level, s.dbg.source, s.dbg.nonce, s.dbg.fails, s.dbg.portLocked)

theorem endTest_debugGate (s : State) (link reason : Nat) : debugGate (endTest s link reason) = debugGate s := by
  simp only [endTest]
  repeat' split
  · rfl
  · simp [debugGate, emit]
    split <;> simp
  · rfl

theorem putLevel_debugGate (s : State) (level : Nat) : debugGate (putLevel s level) = debugGate { s with dbg.level := level } := by
  have hstop (u : State) : debugGate (stopTrace u) = debugGate u := by
    simp only [stopTrace]
    split <;> rfl
  exact (hstop _).trans (foldl_keeps debugGate _ (fun u _ => endTest_debugGate u _ _) _ _)

theorem endTest_up_mem (s : State) (link reason : Nat) : (endTest s link reason).up = s.up ∧ (endTest s link reason).mem = s.mem := by
  simp only [endTest]
  repeat' split
  · exact ⟨rfl, rfl⟩
  · simp [emit]
    split <;> exact ⟨rfl, rfl⟩
  · exact ⟨rfl, rfl⟩

@[simp] theorem putLevel_mem (s : State) (level : Nat) : (putLevel s level).mem = s.mem := by
  simp only [putLevel, dropTests, stopTrace_keeps]
  exact foldl_keeps State.mem _ (fun u _ => (endTest_up_mem u _ _).2) _ _

@[simp] theorem putLevel_up (s : State) (level : Nat) : (putLevel s level).up = s.up := by
  simp only [putLevel, dropTests, stopTrace_keeps]
  exact foldl_keeps State.up _ (fun u _ => (endTest_up_mem u _ _).1) _ _

@[simp] theorem driveSafe_up (s : State) : (driveSafe s).up = s.up := by
  simp only [driveSafe, raiseDriven]
  split <;> simp

@[simp] theorem driveSafe_dbg (s : State) : (driveSafe s).dbg = s.dbg := by
  simp only [driveSafe, raiseDriven]
  split <;> simp

/-- A level takes effect with the source that asked for it; the nonce and the count of failures stay. -/
theorem driveSafe_putLevel (s : State) (level : Nat) : (driveSafe (putLevel s level)).dbg.level = level ∧ (driveSafe (putLevel s level)).dbg.source = s.dbg.source ∧ (driveSafe (putLevel s level)).dbg.nonce = s.dbg.nonce := by
  have h := putLevel_debugGate s level
  simp only [debugGate, Prod.mk.injEq] at h
  obtain ⟨hlevel, hsource, hnonce, -, -⟩ := h
  simp [hlevel, hsource, hnonce]

theorem setLevel_level (s : State) (level source : Nat) : (setLevel s level source).dbg.level = level ∧ (setLevel s level source).dbg.source = source := by
  simp only [setLevel]
  split <;> exact ⟨(driveSafe_putLevel _ _).1, (driveSafe_putLevel _ _).2.1⟩

/-- OFF and OBSERVE are given on request (R528). -/
theorem requestLevel_low {s : State} {did level source : Nat} (hl : level ≤ 1) (hp : s.power.pstate ≤ 2) : requestLevel s did level source = driveSafe (putLevel { s with dbg.source := source } level) := by
  rw [requestLevel, if_neg (by omega), if_pos hl, if_pos hp, setLevel, if_neg (by omega)]

theorem requestLevel_refused {s : State} {did source : Nat} (h : s.sec.lifecycle = 3 ∨ maintOpen s did = false) : requestLevel s did 2 source = { s with dbg.refused := true, sec.maintRefused := true } := by
  rw [requestLevel, if_neg (by omega), if_neg (by omega), if_pos (by simpa using h)]
  rfl

/-- At INTRUSIVE in SERVICE no channel is energised (R453, R529). -/
theorem driveSafe_intrusive {s : State} (hlevel : s.dbg.level = 2) (hl : s.sec.lifecycle = 2) : (driveSafe s).safe.req0 = false ∧ (driveSafe s).safe.req1 = false := by
  have hoff (ch : Nat) : mayEnergise s ch = false := by
    have hcond : hardCond s ch ≠ 0 := by simp [hardCond, placeB, hlevel, hl]
    simp [mayEnergise, hcond]
  simp only [driveSafe, raiseDriven, hoff, Bool.and_false]
  split <;> simp

theorem setLevel_intrusive_requests {s : State} {source : Nat} (hl : s.sec.lifecycle = 2) (he : s.epochs = []) : (setLevel s 2 source).safe.req0 = false ∧ (setLevel s 2 source).safe.req1 = false := by
  have hlevel := (driveSafe_putLevel { s with dbg.source := source } 2).1
  rw [driveSafe_dbg] at hlevel
  have hforce : forceFail s = s := by rw [forceFail, he, List.foldl_nil]
  simp only [setLevel, hl, and_self, if_true, hforce]
  exact driveSafe_intrusive hlevel (by rw [putLevel_sec]; exact hl)

theorem requestLevel_intrusive {s : State} {did source : Nat} (hl : s.sec.lifecycle ≠ 3) (ho : maintOpen s did = true) : requestLevel s did 2 source = setLevel (maintAccept s did) 2 source := by
  rw [requestLevel, if_neg (by omega), if_neg (by omega), if_neg (by simp [hl, ho])]

/-- The window closes, and INTRUSIVE falls to OBSERVE (R523, R528). -/
theorem closePresence_open {s : State} (h : s.sec.open_ = true) :
    (closePresence s).sec.open_ = false ∧ (closePresence s).sec.override = false ∧ (closePresence s).up = s.up ∧ (closePresence s).dbg.level = (if s.dbg.level = 2 then 1 else s.dbg.level) ∧ (closePresence s).mem = s.mem := by
  simp only [closePresence, h, Bool.not_true, Bool.false_eq_true, if_false, raise_keeps]
  split
  · refine ⟨by simp, by simp, by rw [driveSafe_up, putLevel_up]; simp, (driveSafe_putLevel _ _).1, by simp⟩
  · simp

/-- A report of a unit without an interrupt source of its own changes the intake and the island's interrupts alone (R461, R496). -/
theorem raise_sourceless {s : State} {r : Report} (h : reportSource r.kind r.index = none) : { raise s r with safe := s.safe, sic := s.sic } = s := by
  have hnest : reportSource (nest s r).kind (nest s r).index = none := by
    simp only [nest]
    repeat' split
    all_goals exact h
  have henter : { enterIntake s (nest s r) with safe := s.safe, sic := s.sic } = s := by
    simp only [enterIntake, hnest]
    rfl
  simp only [raise, raiseNow]
  repeat' split
  · rfl
  · exact henter
  · rfl
  · exact henter
  · rfl

theorem reportSource_sec : reportSource 4 0x0300 = none := by decide

section Clauses
variable {s : State} {did : Nat}

theorem secOpen_of_did (hb : s.bootReady = true) (hd : did = 1 ∨ did = 2) : secOpen s did = true := by simpa [secOpen, hb] using hd

theorem sealOverride_refused (h : s.sec.refusedAt.any (fun t => decide (s.up ≤ t + 60000000000)) = false) : exec (.sealOverride did) s = .next s := by
  simp [exec, execSealOverride, h]

theorem sealOverride_opens {v : Nat} (hb : s.bootReady = true) (hd : did = 1 ∨ did = 2) (hkey : s.sec.key = 1) (hclosed : s.sec.open_ = false) (hv : s.sec.refusedAt = some v) (hp : s.power.pstate ≤ 2)
    (hup : s.up ≤ v + 60000000000) :
    ∃ t, exec (.sealOverride did) s = .next t ∧ t.sec.open_ = true ∧ t.sec.override = true ∧ t.sec.openedAt = s.up ∧ t.power.overrides = satAdd 8 s.power.overrides 1 ∧
      { t with sec := s.sec, power := s.power, safe := s.safe, sic := s.sic } = s := by
  let u : State := raise { s with power.overrides := satAdd 8 s.power.overrides 1 } { secReport s sevWarn 0x0154 with did := did }
  have hu : { u with power := s.power, safe := s.safe, sic := s.sic } = s :=
    congrArg (fun w : State => { w with power := s.power }) (raise_sourceless (s := { s with power.overrides := satAdd 8 s.power.overrides 1 }) (r := { secReport s sevWarn 0x0154 with did := did }) reportSource_sec)
  have ht : { openPresence u true with sec := u.sec, safe := u.safe, sic := u.sic } = u :=
    congrArg (fun w : State => { w with sec := u.sec, safe := u.safe, sic := u.sic })
      (raise_sourceless (s := { u with sec.open_ := true, sec.override := true, sec.openedAt := u.up, sec.mayOpen := false, sec.refusedAt := none }) (r := secReport _ sevInfo 0x0151) reportSource_sec)
  have hsec : u.sec = s.sec := by simp [u]
  refine ⟨openPresence u true, ?_, by simp [openPresence], by simp [openPresence], by simp [openPresence, u], by simp [openPresence, u], ?_⟩
  · rw [exec, execSealOverride, if_pos (by simp [secOpen_of_did hb hd, hkey, hclosed, hv, hup, hp])]
  · rw [← hsec]
    exact (congrArg (fun w : State => { w with power := s.power, safe := s.safe, sic := s.sic }) ht).trans hu

theorem dbgLevelWrite_low {level : Nat} (hd : did = 1 ∨ did = 2) (hl : level ≤ 1) (hp : s.power.pstate ≤ 2) :
    ∃ t, exec (.dbgLevelWrite did level) s = .next t ∧ t.dbg.level = level ∧ t.dbg.source = 1 ∧ t.mem = s.mem := by
  refine ⟨driveSafe (putLevel { s with dbg.source := 1 } level), ?_, (driveSafe_putLevel _ _).1, (driveSafe_putLevel _ _).2.1, by simp⟩
  rw [exec, execDbgLevelWrite, if_pos hd, Nat.mod_eq_of_lt (by omega), requestLevel_low hl hp]

theorem dbgLevelWrite_intrusive (hd : did = 1 ∨ did = 2) (hl : s.sec.lifecycle ≠ 3) (ho : maintOpen s did = true) :
    ∃ t, exec (.dbgLevelWrite did 2) s = .next t ∧ t.dbg.level = 2 ∧ t.dbg.source = 1 ∧ (s.sec.lifecycle = 2 → s.epochs = [] → t.safe.req0 = false ∧ t.safe.req1 = false) := by
  refine ⟨setLevel (maintAccept s did) 2 1, ?_, (setLevel_level _ _ _).1, (setLevel_level _ _ _).2, fun hservice hnone => setLevel_intrusive_requests ?_ ?_⟩
  · rw [exec, execDbgLevelWrite, if_pos hd, ← requestLevel_intrusive hl ho]
  · simpa [maintAccept, maintRecord, tickFresh] using hservice
  · simpa [maintAccept, maintRecord, tickFresh] using hnone

/-- A failed authorisation renews the nonce and is counted; the eighth locks the port (R530). -/
theorem dbgAuthGo_fails (hopen : s.dbg.portLocked = false)
    (hbad : (debugKey s).any (fun k => Config.sigOk k (nonceBytes s ++ leBytes 4 (Tbl.at (0 : W32) s.dbg.auth 0).toNat ++ leBytes 8 s.sec.serial)
      ((List.range 24).flatMap (fun k => leBytes 4 (Tbl.at (0 : W32) s.dbg.auth (k + 1)).toNat))) = false) :
    ∃ t, exec .dbgAuthGo s = .next t ∧ t.dbg.fails = satAdd 4 s.dbg.fails 1 ∧ t.dbg.portLocked = decide (8 ≤ s.dbg.fails + 1) ∧ t.dbg.level = s.dbg.level ∧ t.dbg.nonce = s.fresh ∧ t.mem = s.mem := by
  let u : State := { renewNonce s with dbg.fails := satAdd 4 s.dbg.fails 1, dbg.portLocked := decide (8 ≤ s.dbg.fails + 1) }
  refine ⟨raise u (reportOf u sevWarn 4 0x1600 0x0157), ?_, by simp [u], by simp [u], by simp [u, renewNonce, tickFresh], by simp [u, renewNonce, tickFresh], by simp [u, renewNonce, tickFresh]⟩
  simp only [exec, execDbgAuthGo, hopen, Bool.false_eq_true, if_false, hbad]
  rfl

theorem dbgAuthGo_keyed {k : Nat} {w : W32} {sig : List Byte} (hopen : s.dbg.portLocked = false) (hkey : debugKey s = some k) (hw : w = Tbl.at (0 : W32) s.dbg.auth 0)
    (hsig : sig = (List.range 24).flatMap (fun k => leBytes 4 (Tbl.at (0 : W32) s.dbg.auth (k + 1)).toNat)) (hl : w.toNat % 4 ≤ 1) (hp : s.power.pstate ≤ 2) :
    ∃ t, exec .dbgAuthGo s = .next t ∧ t.dbg.nonce = s.fresh ∧ (if Config.sigOk k (nonceBytes s ++ leBytes 4 w.toNat ++ leBytes 8 s.sec.serial) sig = true then t.dbg.level = w.toNat % 4 ∧ t.dbg.source = 2 else t.dbg.level = s.dbg.level ∧ t.dbg.fails = satAdd 4 s.dbg.fails 1) := by
  subst hw hsig
  split
  case isTrue hok =>
    refine ⟨driveSafe (putLevel { renewNonce s with dbg.source := 2 } ((Tbl.at (0 : W32) s.dbg.auth 0).toNat % 4)), ?_, (driveSafe_putLevel _ _).2.2, (driveSafe_putLevel _ _).1, (driveSafe_putLevel _ _).2.1⟩
    simp only [exec, execDbgAuthGo, hopen, hkey, Option.any_some, hok, Bool.false_eq_true, if_false, if_true]
    rw [requestLevel_low (s := renewNonce s) hl hp]
  case isFalse hbad =>
    obtain ⟨t, hexec, hfails, -, hlevel, hnonce, -⟩ := dbgAuthGo_fails hopen (by rw [hkey]; exact Bool.eq_false_iff.2 hbad)
    exact ⟨t, hexec, hnonce, hlevel, hfails⟩

end Clauses

/-- Settles O55: what a change of level and the end of the window keep, then the branches of each register write. -/
theorem presenceAndDebugLevels : Obligations.PresenceAndDebugLevels := by
  intro s did level
  refine ⟨fun h => ?_, fun h => ?_, fun h1 h2 => ?_, fun hd hb => ⟨fun h => ?_, fun v hkey hclosed hv hp => ⟨fun hup => sealOverride_opens hb hd hkey hclosed hv hp hup, fun hup => sealOverride_refused (by simp [hv, hup])⟩,
      fun h => sealOverride_refused (by simp [h])⟩,
    fun hd => ⟨fun hl hp => dbgLevelWrite_low hd hl hp, fun h => ?_, fun hl ho => dbgLevelWrite_intrusive hd hl ho, ?_⟩, rfl, fun h => ?_, fun hopen hkey => dbgAuthGo_fails hopen (by rw [hkey]; rfl),
    fun k w sig hopen hkey hw hsig hl hp => dbgAuthGo_keyed hopen hkey hw hsig hl hp⟩
  · simp [exec, execPresenceWindowTimeout, h]
  · obtain ⟨hopen, hov, hup, hlevel, -⟩ := closePresence_open (s := advanceUp s (s.sec.openedAt + s.sec.windowMax * 60000000000)) (by simpa using h)
    refine ⟨_, if_pos h, hopen, hov, hup.trans ?_, by simpa using hlevel, by simp⟩
    simp only [advanceUp, advanceTo]
    omega
  · have hsec : secOpen s did = false := by simp [secOpen, h1, h2]
    simp [exec, execPresenceClose, execSealOverride, execSealRearm, execDbgLevelWrite, hsec, h1, h2]
  · obtain ⟨hopen, hov, -, hlevel, hmem⟩ := closePresence_open h
    exact ⟨_, if_pos (secOpen_of_did hb hd), hopen, hov, hlevel, hmem⟩
  · rw [exec, execDbgLevelWrite, if_pos hd, requestLevel_refused h]
  · rw [exec, execDbgLevelWrite, if_pos hd]
    rfl
  · simp [exec, execDbgAuthGo, h]

/-! ## Resets of domains -/

/-! ### What the reset of a domain leaves alone (R538, R540) -/

/-- A state without its outputs and its debug unit. -/
def sansPorts (s : State) : State := { s with out := [], dbg := Dbg.reset }

theorem emit_sansPorts (s : State) (o : Output) : sansPorts (emit s o) = sansPorts s := by
  simp only [emit]
  split <;> rfl

theorem endTest_sansPorts (s : State) (link reason : Nat) : sansPorts (endTest s link reason) = sansPorts s := by
  simp only [endTest]
  repeat' split
  · rfl
  · exact emit_sansPorts _ _
  · rfl

theorem dropTests_sansPorts (s : State) : sansPorts (dropTests s) = sansPorts s := foldl_keeps sansPorts _ (fun u _ => endTest_sansPorts u _ _) _ _
theorem endTests_sansPorts (s : State) (lo n : Nat) : sansPorts (endTests s lo n) = sansPorts s := foldl_keeps sansPorts _ (fun u _ => endTest_sansPorts u _ _) _ _
theorem txDisable_sansPorts (s : State) : sansPorts (txDisable s) = sansPorts s := foldl_keeps sansPorts _ (fun u _ => emit_sansPorts u _) _ _
theorem putLevel_sansPorts (s : State) (level : Nat) : sansPorts (putLevel s level) = sansPorts s := by
  have hstop (u : State) : sansPorts (stopTrace u) = sansPorts u := by
    simp only [stopTrace]
    split <;> rfl
  exact (hstop _).trans (dropTests_sansPorts _)

/-- The causes counted and the sequence in progress, with the domains held in reset. -/
def causeLog (s : State) : Tbl Nat × Nat × Nat × Option Nat × List Nat × List Domain × Bool :=
  (s.power.counts, s.power.total, s.power.lastCause, s.power.seqCause, s.power.held, s.power.inReset, s.power.fresh)

/-- What the reset of the TIME domain alone loses of device time. -/
def timeKept (s : State) : Nat × Tb × Nat := (s.now, s.tb, s.power.wakeCopy)

theorem causeLog_of_sansPorts {s t : State} (h : sansPorts s = sansPorts t) : causeLog s = causeLog t := by
  change causeLog (sansPorts s) = causeLog (sansPorts t)
  rw [h]
theorem timeKept_of_sansPorts {s t : State} (h : sansPorts s = sansPorts t) : timeKept s = timeKept t := by
  change timeKept (sansPorts s) = timeKept (sansPorts t)
  rw [h]

theorem resetPcie_causeLog (s : State) : causeLog (resetPcie s) = causeLog s :=
  foldl_keeps causeLog resetFn (fun _ _ => rfl) (List.range 14) s
theorem resetPcie_timeKept (s : State) : timeKept (resetPcie s) = timeKept s :=
  foldl_keeps timeKept resetFn (fun _ _ => rfl) (List.range 14) s

/-- No domain's reset loses the causes. -/
theorem resetDomain_causeLog (s : State) (d : Domain) : causeLog (resetDomain s d) = causeLog s := by
  unfold resetDomain
  split
  · rfl
  · rfl
  · exact (show causeLog (resetFab (txDisable s)) = causeLog (txDisable s) from rfl).trans (causeLog_of_sansPorts (txDisable_sansPorts s))
  · exact resetPcie_causeLog s
  · rfl
  · rfl
  · rfl
  · exact (causeLog_of_sansPorts (endTests_sansPorts _ _ _)).trans rfl
  · exact (causeLog_of_sansPorts (endTests_sansPorts _ _ _)).trans rfl
  · exact (causeLog_of_sansPorts (endTests_sansPorts _ _ _)).trans rfl

/-- The TIME domain alone holds device time. -/
theorem resetDomain_timeKept (s : State) {d : Domain} (h : d ≠ 1) : timeKept (resetDomain s d) = timeKept s := by
  unfold resetDomain
  split
  · rfl
  · exact absurd rfl h
  · exact (show timeKept (resetFab (txDisable s)) = timeKept (txDisable s) from rfl).trans (timeKept_of_sansPorts (txDisable_sansPorts s))
  · exact resetPcie_timeKept s
  · rfl
  · rfl
  · rfl
  · exact (timeKept_of_sansPorts (endTests_sansPorts _ _ _)).trans rfl
  · exact (timeKept_of_sansPorts (endTests_sansPorts _ _ _)).trans rfl
  · exact (timeKept_of_sansPorts (endTests_sansPorts _ _ _)).trans rfl

theorem assertDomains_causeLog (s : State) (ds : List Domain) :
    causeLog (assertDomains s ds) = (s.power.counts, s.power.total, s.power.lastCause, s.power.seqCause, s.power.held, (List.range 10).filter (fun d => s.power.inReset.contains d || ds.contains d), s.power.fresh) := by
  have h : causeLog (dropTests ((ds.filter (fun d => !s.power.inReset.contains d)).foldl resetDomain s)) = causeLog s :=
    (causeLog_of_sansPorts (dropTests_sansPorts _)).trans (foldl_keeps causeLog resetDomain resetDomain_causeLog _ s)
  simp only [causeLog, Prod.mk.injEq] at h
  obtain ⟨hcounts, htotal, hlast, hseq, hheld, hin, hfresh⟩ := h
  simp only [assertDomains, causeLog, hcounts, htotal, hlast, hseq, hheld, hin, hfresh]

theorem foldl_resetDomain_timeKept {l : List Domain} (hl : 1 ∉ l) (u : State) : timeKept (l.foldl resetDomain u) = timeKept u := by
  induction l generalizing u with
  | nil => rfl
  | cons d l ih =>
    obtain ⟨hd, hl⟩ := not_or.1 (List.mem_cons.not.1 hl)
    exact (ih hl _).trans (resetDomain_timeKept u (Ne.symm hd))

theorem assertDomains_timeKept (s : State) {ds : List Domain} (h : 1 ∉ ds) : timeKept (assertDomains s ds) = timeKept s := by
  have hnew : 1 ∉ ds.filter (fun d => !s.power.inReset.contains d) := fun hm => h (List.mem_of_mem_filter hm)
  exact (timeKept_of_sansPorts (dropTests_sansPorts _)).trans (foldl_resetDomain_timeKept hnew s)

/-- The scopes narrower than FULL leave the TIME domain alone (R538). -/
theorem time_not_in_scope {scope : Nat} (h : scope ≠ 3) : 1 ∉ scopeDomains scope := by
  simp only [scopeDomains, h, if_false]
  repeat' split
  all_goals decide

theorem scopeOf_le (s : State) (c : Nat) : scopeOf s c ≤ 3 := by
  simp only [scopeOf]
  repeat' split
  all_goals omega

/-- What the beginning of a sequence leaves to read of its cause (R537, R543). -/
theorem assertCause_causeLog {s : State} {k : Nat} (h : s.power.seqCause = none) :
    causeLog (assertCause s k) = (s.power.counts.put k (satAdd 16 (Tbl.at 0 s.power.counts k) 1), satAdd 32 s.power.total 1, k, some k, [k],
      (List.range 10).filter (fun d => s.power.inReset.contains d || (scopeDomains (scopeOf s k)).contains d), s.power.fresh) := by
  simp only [assertCause, joinSequence, countCause, h, Option.any_none, Bool.and_false, Bool.false_eq_true, if_false]
  rw [assertDomains_causeLog]

theorem assertCause_counts (s : State) (k : Nat) : (assertCause s k).power.counts = s.power.counts.put k (satAdd 16 (Tbl.at 0 s.power.counts k) 1) := by
  have hjoin : (joinSequence (countCause s k) k).power.counts = s.power.counts.put k (satAdd 16 (Tbl.at 0 s.power.counts k) 1) := by
    simp only [joinSequence]
    split <;> rfl
  simp only [assertCause]
  split
  · exact hjoin
  · exact (congrArg Prod.fst (assertDomains_causeLog _ _)).trans hjoin

/-! ## Power states -/

/-! ### Power states (R545 to R554) -/

@[simp] theorem putLevel_keeps (s : State) (level : Nat) : (putLevel s level).power = s.power ∧ (putLevel s level).cfg = s.cfg ∧ (putLevel s level).epochs = s.epochs ∧ (putLevel s level).now = s.now ∧ (putLevel s level).tb = s.tb ∧ (putLevel s level).safe = s.safe := by
  have h := putLevel_sansPorts s level
  exact ⟨(congrArg State.power h :), (congrArg State.cfg h :), (congrArg State.epochs h :), (congrArg State.now h :), (congrArg State.tb h :), (congrArg State.safe h :)⟩

@[simp] theorem driveSafe_keeps (s : State) : (driveSafe s).power = s.power ∧ (driveSafe s).cfg = s.cfg ∧ (driveSafe s).epochs = s.epochs ∧ (driveSafe s).now = s.now ∧ (driveSafe s).tb = s.tb := by
  simp only [driveSafe, raiseDriven]
  split <;> simp

@[simp] theorem closePresence_keeps (s : State) : (closePresence s).power = s.power ∧ (closePresence s).now = s.now ∧ (closePresence s).tb = s.tb := by
  simp only [closePresence]
  repeat' split
  all_goals simp

/-- The power unit in a state just entered (R545). -/
def enteredPower (s : State) (p reason : Nat) : Power :=
  { s.power with pstate := p, reason := reason, engBase := engClock s, engSince := s.up, engMhz := (clocksOf p).1, ctlMhz := (clocksOf p).2 }

/-- A state entered without work to resume. -/
theorem enterState_power {s : State} {p reason : Nat} (hp : p ≤ 2) (hwas : ¬(s.power.pstate = 2 ∧ p ≤ 1)) :
    (enterState s p reason).power = enteredPower s p reason ∧ (enterState s p reason).mem = s.mem ∧ (enterState s p reason).cfg = s.cfg ∧ (enterState s p reason).epochs = s.epochs := by
  have hclock (r : Report) : engClock (raise s r) = engClock s := by simp [engClock]
  simp only [enterState, if_neg hwas, if_neg (show ¬ 3 ≤ p by omega)]
  simp [enteredPower, hclock]

/-- In P2 and below no channel is energised (R453, R546). -/
theorem driveSafe_asleep {s : State} (h : 2 ≤ s.power.pstate) : (driveSafe s).safe.req0 = false ∧ (driveSafe s).safe.req1 = false := by
  have hoff (ch : Nat) : mayEnergise s ch = false := by
    have hcond : hardCond s ch ≠ 0 := by simp [hardCond, placeB, h]
    simp [mayEnergise, hcond]
  simp only [driveSafe, raiseDriven, hoff, Bool.and_false]
  split <;> simp

theorem enterState_requests {s : State} {p reason : Nat} (hp : 2 ≤ p) : (enterState s p reason).safe.req0 = false ∧ (enterState s p reason).safe.req1 = false := by
  simp only [enterState, if_neg (show ¬ (s.power.pstate = 2 ∧ p ≤ 1) by omega)]
  exact driveSafe_asleep (by simpa using hp)

/-- What entry into P3 keeps. -/
theorem enterState_standby (s : State) : (enterState s 3 0).power.wake = s.power.wake ∧ causeLog (enterState s 3 0) = causeLog s ∧ (enterState s 3 0).now = s.now ∧ (enterState s 3 0).tb = s.tb := by
  simp [enterState, causeLog]

theorem setRails_keeps (s : State) (good : Bool) : { setRails s good with power.railsGood := s.power.railsGood, out := s.out } = s := by
  simp only [setRails, emit]
  repeat' split
  all_goals rfl

theorem setRails_causeLog (s : State) (good : Bool) : causeLog (setRails s good) = causeLog s := (congrArg causeLog (setRails_keeps s good) :)

/-- Entry into P3 counts no cause, keeps device time and copies the wake time (R546). -/
theorem enterStandby_reads (s : State) :
    (enterStandby s).power.pstate = 3 ∧ (∀ d ∈ scopeDomains 2, d ∈ (enterStandby s).power.inReset) ∧ (enterStandby s).power.wakeCopy = s.power.wake ∧ (enterStandby s).power.counts = s.power.counts ∧
      (enterStandby s).power.engMhz = 0 ∧ (enterStandby s).power.ctlMhz = 0 ∧ (enterStandby s).now = s.now ∧ (enterStandby s).tb = s.tb := by
  let u := setRails (enterState s 3 0) false
  let v : State := { u with trig.outs := u.trig.outs.mapV (fun _ o => { o with activeUntil := none }) }
  obtain ⟨hwake, hcauses, hnow, htb⟩ := enterState_standby s
  have hrails := setRails_keeps (enterState s 3 0) false
  have hlog : causeLog u = causeLog s := (setRails_causeLog _ _).trans hcauses
  have hdomains := assertDomains_causeLog v (scopeDomains 2)
  have htime : timeKept (assertDomains v (scopeDomains 2)) = timeKept v := assertDomains_timeKept v (time_not_in_scope (by decide))
  refine ⟨rfl, fun d hd => ?_, ?_, ?_, rfl, rfl, ?_, ?_⟩
  · have hin : (enterStandby s).power.inReset = (List.range 10).filter (fun d => v.power.inReset.contains d || (scopeDomains 2).contains d) := (congrArg (fun l => l.2.2.2.2.2.1) hdomains :)
    rw [hin, List.mem_filter]
    refine ⟨?_, by simp [hd]⟩
    revert d
    decide
  · exact ((congrArg (fun t : State => t.power.wake) hrails :) : u.power.wake = _).trans hwake
  · exact ((congrArg Prod.fst hdomains :) : _ = v.power.counts).trans ((congrArg Prod.fst hlog :))
  · exact ((congrArg Prod.fst htime :) : _ = v.now).trans (((congrArg State.now hrails :) : u.now = _).trans hnow)
  · exact ((congrArg (fun l => l.2.1) htime :) : _ = v.tb).trans (((congrArg State.tb hrails :) : u.tb = _).trans htb)

/-- A wake leaves the power unit in P0 whatever is reset next (R546). -/
theorem resetDomain_pstate {s : State} (h : s.power.pstate = 0) (d : Domain) : (resetDomain s d).power.pstate = 0 := by
  have hports {u v : State} (hu : sansPorts u = sansPorts v) (hv : v.power.pstate = 0) : u.power.pstate = 0 := ((congrArg (fun t : State => t.power.pstate) hu :) : u.power.pstate = v.power.pstate).trans hv
  unfold resetDomain
  split
  · exact h
  · exact h
  · rfl
  · exact (foldl_keeps (fun u : State => u.power.pstate) resetFn (fun _ _ => rfl) (List.range 14) s).trans h
  · exact h
  · exact h
  · exact h
  · exact hports (endTests_sansPorts _ _ _) h
  · exact hports (endTests_sansPorts _ _ _) h
  · exact hports (endTests_sansPorts _ _ _) h

theorem assertDomains_pstate {s : State} (h : s.power.pstate = 0) (ds : List Domain) : (assertDomains s ds).power.pstate = 0 := by
  have hfold (l : List Domain) (u : State) (hu : u.power.pstate = 0) : (l.foldl resetDomain u).power.pstate = 0 := by
    induction l generalizing u with
    | nil => exact hu
    | cons d l ih => exact ih _ (resetDomain_pstate hu d)
  exact ((congrArg (fun t : State => t.power.pstate) (dropTests_sansPorts _) :) : (assertDomains s ds).power.pstate = _).trans (hfold _ s h)

theorem assertCause_pstate {s : State} (h : s.power.pstate = 0) (k : Nat) : (assertCause s k).power.pstate = 0 := by
  have hjoin : (joinSequence (countCause s k) k).power.pstate = 0 := by
    simp only [joinSequence]
    split <;> exact h
  simp only [assertCause]
  split
  · exact hjoin
  · exact assertDomains_pstate hjoin _

section Clauses
variable {s : State} {did g : Nat}

theorem endTransition_done {u : State} (h : u.power.target = u.power.goal) : endTransition u = { u with power.busy := false } := if_pos h

/-- P0 and P1 are entered at once (R546). -/
theorem pstateTransition_awake (hb : s.power.busy = true) (hgoal : s.power.goal = g) (htarget : s.power.target = g) (hg : g ≤ 1) (hp : s.power.pstate ≤ 1) :
    ∃ t, exec .pstateTransition s = .next t ∧ t.power.pstate = g ∧ t.power.busy = false ∧ (t.power.engMhz, t.power.ctlMhz) = clocksOf g ∧ t.mem = s.mem ∧ t.cfg = s.cfg ∧ t.epochs = s.epochs := by
  obtain ⟨hpower, hmem, hcfg, hepochs⟩ := enterState_power (s := s) (p := g) (reason := 0) (by omega) (by omega)
  have hdone : endTransition (enterState s g 0) = { enterState s g 0 with power.busy := false } := endTransition_done (by simp [hpower, enteredPower, hgoal, htarget])
  refine ⟨{ enterState s g 0 with power.busy := false }, ?_, ?_, rfl, ?_, hmem, hcfg, hepochs⟩
  · rw [← hdone, exec, execPstateTransition]
    simp only [hb, hgoal, Bool.not_true, Bool.false_eq_true, false_or, if_neg (show ¬ 2 < s.power.pstate by omega), if_pos hg]
  · simp [hpower, enteredPower]
  · simp [hpower, enteredPower]

/-- P2 waits for the work to end (R546). -/
theorem pstateTransition_waits (hgoal : s.power.goal = g) (hg : 2 ≤ g) (hp : s.power.pstate ≤ 1) (hw : workIdle s = false) : exec .pstateTransition s = .next s := by
  rw [exec, execPstateTransition]
  simp only [hgoal, hw, Bool.not_false, if_true, if_pos hp, if_neg (show ¬ g ≤ 1 by omega), ite_self]

theorem pstateTransition_sleeps (hb : s.power.busy = true) (hgoal : s.power.goal = g) (htarget : s.power.target = g) (hg : 2 ≤ g) (hp : s.power.pstate ≤ 1) (hw : workIdle s = true) :
    ∃ t, exec .pstateTransition s = .next t ∧ t.power.pstate = 2 ∧ t.power.busy = decide (g ≠ 2) ∧ t.power.engMhz = 0 ∧ t.power.ctlMhz = 750 ∧ t.safe.req0 = false ∧ t.safe.req1 = false ∧ t.mem = s.mem := by
  obtain ⟨hpower, hmem, -, -⟩ := enterState_power (s := s) (p := 2) (reason := 0) (by omega) (by omega)
  obtain ⟨hreq0, hreq1⟩ := enterState_requests (s := s) (p := 2) (reason := 0) (by omega)
  have hexec : exec .pstateTransition s = .next (if g = 2 then endTransition (enterState s 2 0) else enterState s 2 0) := by
    rw [exec, execPstateTransition]
    simp only [hb, hgoal, hw, Bool.not_true, Bool.false_eq_true, false_or, if_neg (show ¬ 2 < s.power.pstate by omega), if_neg (show ¬ g ≤ 1 by omega), if_pos hp, if_false]
  by_cases h2 : g = 2
  · have hdone : endTransition (enterState s 2 0) = { enterState s 2 0 with power.busy := false } := endTransition_done (by simp [hpower, enteredPower, hgoal, htarget])
    refine ⟨{ enterState s 2 0 with power.busy := false }, by rw [hexec, if_pos h2, hdone], ?_, by simp [h2], ?_, ?_, hreq0, hreq1, hmem⟩
    all_goals simp [hpower, enteredPower, clocksOf]
  · refine ⟨enterState s 2 0, by rw [hexec, if_neg h2], ?_, ?_, ?_, ?_, hreq0, hreq1, hmem⟩
    all_goals simp [hpower, enteredPower, clocksOf, hb, h2]

theorem pstateTransition_standby (hb : s.power.busy = true) (hgoal : s.power.goal = g) (hg : 3 ≤ g) (hp : s.power.pstate = 2) : exec .pstateTransition s = .next (enterStandby s) := by
  rw [exec, execPstateTransition]
  simp [hb, hgoal, hp, if_neg (show ¬ g ≤ 1 by omega), show g ≠ 2 by omega]

theorem standbyLoss_enters (hp : s.power.pstate ≠ 4) (hc : s.power.seqCause = none) :
    ∃ t, exec .standbyLoss s = .next t ∧ t.power.pstate = 4 ∧ t.power.engMhz = 0 ∧ t.power.ctlMhz = 0 ∧ t.power.inReset = List.range 10 ∧ Tbl.at 0 t.power.counts 0 = satAdd 16 (Tbl.at 0 s.power.counts 0) 1 := by
  have hlog := (setRails_causeLog (assertCause s 0) false).trans (assertCause_causeLog hc)
  have hcounts : (setRails (assertCause s 0) false).power.counts = s.power.counts.put 0 (satAdd 16 (Tbl.at 0 s.power.counts 0) 1) := (congrArg Prod.fst hlog :)
  have hin : (setRails (assertCause s 0) false).power.inReset = (List.range 10).filter (fun d => s.power.inReset.contains d || (scopeDomains (scopeOf s 0)).contains d) := (congrArg (fun l => l.2.2.2.2.2.1) hlog :)
  refine ⟨{ setRails (assertCause s 0) false with power.pstate := 4, power.engMhz := 0, power.ctlMhz := 0 }, ?_, rfl, rfl, rfl, hin.trans ?_, ?_⟩
  · rw [exec, execStandbyLoss, if_neg hp]
  · refine List.filter_eq_self.2 fun d hd => ?_
    have hfull : d ∈ scopeDomains (scopeOf s 0) := hd
    simp [hfull]
  · show Tbl.at 0 (setRails (assertCause s 0) false).power.counts 0 = _
    rw [hcounts, Tbl.at_put_same]

/-- A trim enters P1 with its reason (R554). -/
theorem trim_reads {reason event : Nat} (hp : s.power.pstate = 0) :
    (trim s reason event).power.pstate = 1 ∧ (trim s reason event).power.reason = reason ∧ (trim s reason event).power.engMhz = 625 ∧ (trim s reason event).power.ctlMhz = 750 ∧
      (trim s reason event).power.junction = s.power.junction ∧ (trim s reason event).power.power = s.power.power ∧ (trim s reason event).mem = s.mem := by
  obtain ⟨hpower, hmem, -, -⟩ := enterState_power (s := raise s (chipReport s sevWarn 0x02 event)) (p := 1) (reason := reason) (by omega) (by simp [hp])
  simp [trim, hpower, enteredPower, clocksOf]

theorem thermalTrim_trims {j : Nat} (hp : s.power.pstate = 0) (ht : s.power.target = 0) (hb : s.bootReady = true) (hj : 1600 ≤ j) (hmax : j < 32768) :
    ∃ t, exec (.thermalTrim j) s = .next t ∧ t.power.pstate = 1 ∧ t.power.reason = 1 ∧ t.power.engMhz = 625 ∧ t.power.ctlMhz = 750 ∧ t.power.junction = j ∧ t.mem = s.mem := by
  obtain ⟨hstate, hreason, heng, hctl, hjunction, -, hmem⟩ := trim_reads (s := { s with power.junction := j }) (reason := 1) (event := 0x0160) hp
  refine ⟨trim { s with power.junction := j } 1 0x0160, ?_, hstate, hreason, heng, hctl, hjunction, hmem⟩
  rw [exec, execThermalTrim, Nat.mod_eq_of_lt (by omega)]
  exact if_pos ⟨hp, ht, hb, hj, hmax⟩

theorem powerTrim_trims {w : Nat} (hp : s.power.pstate = 0) (ht : s.power.target = 0) (hb : s.bootReady = true) (hw : s.power.plimit * 10 < w) :
    ∃ t, exec (.powerTrim w) s = .next t ∧ t.power.pstate = 1 ∧ t.power.reason = 2 ∧ t.power.engMhz = 625 ∧ t.power.power = w % 65536 ∧ t.mem = s.mem := by
  obtain ⟨hstate, hreason, heng, -, -, hpower, hmem⟩ := trim_reads (s := { s with power.power := w % 65536 }) (reason := 2) (event := 0x0161) hp
  exact ⟨trim { s with power.power := w % 65536 } 2 0x0161, if_pos ⟨hp, ht, hb, hw⟩, hstate, hreason, heng, hpower, hmem⟩

theorem trimRelease_ends {j w : Nat} (hp : s.power.pstate = 1) (hr : s.power.reason ≠ 0) (ht : s.power.target = 0) (hj : j ≤ 1520) (hw : w ≤ 9 * s.power.plimit) :
    ∃ t, exec (.trimRelease j w) s = .next t ∧ t.power.pstate = 0 ∧ t.power.reason = 0 ∧ t.power.engMhz = 1250 ∧ t.power.ctlMhz = 1500 ∧ t.mem = s.mem := by
  let u : State := { s with power.junction := j % 65536, power.power := w % 65536 }
  obtain ⟨hpower, hmem, -, -⟩ := enterState_power (s := u) (p := 0) (reason := 0) (by omega) (by simp [u, hp])
  refine ⟨enterState u 0 0, if_pos ⟨hp, hr, ht, by simp [hj], hw⟩, ?_, ?_, ?_, ?_, hmem⟩
  all_goals simp [hpower, enteredPower, clocksOf]

theorem trimRelease_waits {j w : Nat} (h : (1520 < j ∧ j < 32768) ∨ 9 * s.power.plimit < w) : exec (.trimRelease j w) s = .next { s with power.junction := j % 65536, power.power := w % 65536 } := by
  refine if_neg ?_
  rintro ⟨-, -, -, hcool, hw⟩
  simp only [Bool.or_eq_true, decide_eq_true_eq] at hcool
  change w ≤ 9 * s.power.plimit at hw
  omega

end Clauses

/-- Settles O53: the entry into a state and into P3, the resets of a wake and of a standby loss, then the branches of each event. -/
theorem powerStates : Obligations.PowerStates := by
  intro s did g
  refine ⟨fun hd hb hg => ⟨fun hbusy hne => ?_, fun hbusy => ?_, fun hbusy heq => ?_⟩, fun h => ?_, fun hbusy => ?_, fun hbusy hgoal htarget => ⟨fun hg hp => pstateTransition_awake hbusy hgoal htarget hg hp,
      fun hg hp hw => pstateTransition_waits hgoal hg hp hw, fun hg hp hw => pstateTransition_sleeps hbusy hgoal htarget hg hp hw, fun hg hp => ⟨enterStandby s, pstateTransition_standby hbusy hgoal hg hp, enterStandby_reads s⟩⟩,
    fun hp => ?_, fun hp => ⟨?_, fun hw => ?_, fun hw => ?_, ?_⟩, fun hp => ?_, standbyLoss_enters, fun j w hp ht hb => ⟨thermalTrim_trims hp ht hb, fun hj => ?_, powerTrim_trims hp ht hb, fun hw => ?_⟩,
    fun j w hp hr ht => ⟨trimRelease_ends hp hr ht, trimRelease_waits⟩⟩
  · have hwriter : ¬ (did ≠ 1 ∧ did ≠ 2) := by omega
    simp [exec, execPstateRequest, hwriter, hb, hbusy, hne, show ¬ 3 < g by omega]
  · have hwriter : ¬ (did ≠ 1 ∧ did ≠ 2) := by omega
    simp [exec, execPstateRequest, hwriter, hb, hbusy, show ¬ 3 < g by omega]
  · simp [exec, execPstateRequest, hbusy, heq]
  · refine if_pos ?_
    rcases h with h | h
    · exact .inl h
    · exact .inr (.inr (.inl h))
  · simp [exec, execPstateTransition, hbusy]
  · simp [exec, execP3Wake, hp]
  · simp [exec, execP3Wake, hp, leaveStandby]
  · simp [exec, execP3Wake, hp, hw]
  · exact ⟨leaveStandby (advanceTo s s.power.wakeCopy), by simp [exec, execP3Wake, hp, hw], rfl, rfl⟩
  · refine ⟨assertCause (leaveStandby s) 2, by simp [exec, execP3Wake, hp], assertCause_pstate rfl 2, ?_⟩
    rw [assertCause_counts, Tbl.at_put_same]
    rfl
  · simp [exec, execStandbyLoss, hp]
  · rw [exec, execThermalTrim, Nat.mod_eq_of_lt (by omega)]
    exact if_neg (by omega)
  · exact if_neg (by rintro ⟨-, -, -, h⟩; exact absurd hw (Nat.not_le.2 h))

/-! ## The island and isolation -/

/-! ### The host's rings leave the island alone but for its intake -/

/-- The island without its intake queue (R461). -/
def island (s : State) : Safe := { s.safe with intake := [], overflow := false, overflowFatal := false, lostDropped := 0 }

theorem island_of_safe {s t : State} (h : t.safe = s.safe) : island t = island s := by simp only [island, h]

@[simp] theorem raise_island (s : State) (r : Report) : island (raise s r) = island s := by
  obtain ⟨i, o, f, l, h⟩ := raise_safe s r
  simp only [island, h]

@[simp] theorem raiseLost_island (s : State) (flow c : Nat) : island (raiseLost s flow c) = island s := raise_island _ _

@[simp] theorem putFlow_island (s : State) (c : Nat) (f : FlowRec) : island (putFlow s c f) = island s := by
  unfold putFlow
  dsimp only
  repeat' split
  all_goals simp [island_of_safe (s := s)]

@[simp] theorem putReady_island (s : State) (x : Ready) : island (putReady s x) = island s := by
  cases x with
  | flow c f => exact putFlow_island s c f
  | desc c _ _ r => exact island_of_safe (by simp [putReady])
  | event c e => exact island_of_safe (by simp [putReady])

@[simp] theorem closeRing_island (before s : State) (c : Nat) : island (closeRing before s c) = island s := by
  simp only [closeRing]
  split
  all_goals exact island_of_safe (by simp)

@[simp] theorem deliverReady_island (s : State) (l : List Ready) : island (deliverReady s l) = island s := by
  simp only [deliverReady]
  exact (foldl_keeps island (closeRing s) (fun u c => closeRing_island s u c) _ _).trans (foldl_keeps island putReady putReady_island _ _)

@[simp] theorem ready_island (s : State) (x : Ready) : island (ready s x) = island s := by
  simp only [ready]
  split
  · rfl
  · exact deliverReady_island s _

@[simp] theorem ringError_island (s : State) (com : Bool) (r st : Nat) : island (ringError s com r st) = island s := by
  simp only [ringError, raise_island]
  split
  · rfl
  · split
    · exact ready_island _ _
    · rfl

theorem fetchGo_island (r c fuel : Nat) (s : State) : island (fetchGo r c fuel s) = island s := by
  induction fuel generalizing s with
  | zero => rfl
  | succ fuel ih =>
    simp only [fetchGo]
    repeat' split
    · exact (ih _).trans (island_of_safe (by simp))
    · exact ringError_island _ _ _ _
    · rfl

@[simp] theorem pumpFetch_island (s : State) : island (pumpFetch s) = island s := by
  have hring (u : State) (r : Nat) : island (fetchRing u r) = island u := by
    simp only [fetchRing]
    split
    · exact fetchGo_island _ _ _ _
    · rfl
  simp only [pumpFetch]
  split
  · rfl
  · exact foldl_keeps island fetchRing hring _ _

theorem applyCycle_safe (s : State) (l : List Signal) : (applyCycle s l).safe = s.safe := by simp

theorem together_island {f : State → State} (h : ∀ u, island (f u) = island u) (s : State) : island (together s f) = island s := by
  simp only [together]
  split
  · exact h s
  · rw [pumpFetch_island, deliverReady_island]
    exact (island_of_safe (applyCycle_safe _ _)).trans (h _)

/-! ### Isolation of an engine (R488, R489) -/

/-- Effects that touch neither the host's rings nor the knots: what they do to the engines and the bytes is all that happens. -/
theorem together_quiet {f : State → State} (hq : ∀ u, (f u).hif = u.hif ∧ (f u).knots = u.knots) (s : State) :
    ∃ b c, (together s f).eng = (f { s with hif.batch := b, knots.cycle := c }).eng ∧ (together s f).mem = (f { s with hif.batch := b, knots.cycle := c }).mem := by
  simp only [together]
  split
  · exact ⟨s.hif.batch, s.knots.cycle, rfl, rfl⟩
  · refine ⟨some [], some [], ?_⟩
    obtain ⟨hhif, hknots⟩ := hq { s with hif.batch := some [], knots.cycle := some [] }
    simp [hhif, hknots, applyCycle]

/-- Stopping a thread writes the engines, and the bytes that an abandoned MMA leaves undefined (R317, R488). -/
theorem wrapThread_frame (s : State) (t : Nat) : { wrapThread s t with eng := s.eng, mem := s.mem, fresh := s.fresh } = s := by
  simp only [wrapThread, stopThread, dropMma]
  split <;> rfl

theorem wrapThread_idle {s : State} (h : ∀ i, (thread s i).mma = none) (t : Nat) : (wrapThread s t).mem = s.mem ∧ ∀ i, (thread (wrapThread s t) i).mma = none := by
  have hdrop : dropMma s t = s := by simp only [dropMma, h t]
  refine ⟨by simp only [wrapThread, stopThread, hdrop]; rfl, fun i => ?_⟩
  have hstop : (thread (stopThread s t) t).mma = none := by
    simp only [stopThread, hdrop, thread, updThread, setThread, Tbl.at_put_same]
    exact h t
  by_cases hi : i = t
  · subst hi
    simp only [wrapThread, updThread, thread_setThread_same]
    exact hstop
  · have hother : thread (stopThread s t) i = thread s i := by
      simp only [stopThread, hdrop]
      exact thread_setThread_other _ _ hi
    simp only [wrapThread, updThread, thread_setThread_other _ _ hi, hother, h i]

theorem wrapThreads_frame (ts : List Nat) (s : State) : { ts.foldl wrapThread s with eng := s.eng, mem := s.mem, fresh := s.fresh } = s := by
  induction ts generalizing s with
  | nil => rfl
  | cons t ts ih =>
    exact (congrArg (fun u : State => { u with eng := s.eng, mem := s.mem, fresh := s.fresh }) (ih (wrapThread s t))).trans (wrapThread_frame s t)

theorem wrapThreads_idle {s : State} (h : ∀ i, (thread s i).mma = none) (ts : List Nat) : (ts.foldl wrapThread s).mem = s.mem ∧ ∀ i, (thread (ts.foldl wrapThread s) i).mma = none := by
  induction ts generalizing s with
  | nil => exact ⟨rfl, h⟩
  | cons t ts ih =>
    obtain ⟨hmem, hidle⟩ := wrapThread_idle h t
    exact ⟨(ih hidle).1.trans hmem, (ih hidle).2⟩

/-- The end of one instance of an isolated engine. -/
def cutInstance (s : State) (p : Nat × Instance) : State :=
  (p.2.threads.filter (fun t => (thread s t).inst == some p.1)).foldl wrapThread
    { s with eng.instances := s.eng.instances.put p.1 { p.2 with status := if p.2.status = stMismatch then stMismatch else stIsolated, kept := none } }

theorem isolateEngine_eq (s : State) (g : Nat) :
    ∃ (on : List (Nat × Instance)) (f : Tbl Instance), isolateEngine s g = (let u := { on.foldl cutInstance s with eng.instances := f }; setEngine u g { engineOf u g with copies := [] }) := ⟨_, _, rfl⟩

theorem cutInstance_frame (s : State) (p : Nat × Instance) : { cutInstance s p with eng := s.eng, mem := s.mem, fresh := s.fresh } = s :=
  (congrArg (fun u : State => { u with eng := s.eng }) (wrapThreads_frame _ _) :)

theorem isolateEngine_frame (s : State) (g : Nat) : { isolateEngine s g with eng := s.eng, mem := s.mem, fresh := s.fresh } = s := by
  obtain ⟨on, f, h⟩ := isolateEngine_eq s g
  rw [h]
  have hfold (l : List (Nat × Instance)) (u : State) : { l.foldl cutInstance u with eng := u.eng, mem := u.mem, fresh := u.fresh } = u := by
    induction l generalizing u with
    | nil => rfl
    | cons p l ih => exact (congrArg (fun v : State => { v with eng := u.eng, mem := u.mem, fresh := u.fresh }) (ih (cutInstance u p))).trans (cutInstance_frame u p)
  exact hfold on s

theorem isolateEngine_copies (s : State) (g : Nat) : (engineOf (isolateEngine s g) g).copies = [] := by
  obtain ⟨on, f, h⟩ := isolateEngine_eq s g
  rw [h]
  simp [engineOf, setEngine]

/-- Without a running MMA no byte changes. -/
theorem isolateEngine_mem {s : State} (h : ∀ i, (thread s i).mma = none) (g : Nat) : (isolateEngine s g).mem = s.mem := by
  obtain ⟨on, f, heq⟩ := isolateEngine_eq s g
  rw [heq]
  have hfold (l : List (Nat × Instance)) (u : State) (hu : ∀ i, (thread u i).mma = none) : (l.foldl cutInstance u).mem = u.mem := by
    induction l generalizing u with
    | nil => rfl
    | cons p l ih =>
      obtain ⟨hmem, hidle⟩ := wrapThreads_idle (s := { u with eng.instances := u.eng.instances.put p.1 { p.2 with status := if p.2.status = stMismatch then stMismatch else stIsolated, kept := none } }) hu (p.2.threads.filter (fun t => (thread u t).inst == some p.1))
      exact (ih _ hidle).trans hmem
  exact hfold on s h

/-- The isolation of an engine: the island keeps all but its intake, the copies end, and without a running MMA no byte changes. -/
theorem isolateUnit_engine {s : State} {u : Nat} (hu : u < 72) :
    island (isolateUnit s u) = island s ∧ (engineOf (isolateUnit s u) u).copies = [] ∧ ((∀ i, (thread s i).mma = none) → (isolateUnit s u).mem = s.mem) := by
  have hunit : isolateUnit s u = together s (fun v => isolateEngine v u) := by simp only [isolateUnit, hu, if_true]
  have hquiet (v : State) : (isolateEngine v u).hif = v.hif ∧ (isolateEngine v u).knots = v.knots :=
    ⟨(congrArg State.hif (isolateEngine_frame v u) :), (congrArg State.knots (isolateEngine_frame v u) :)⟩
  obtain ⟨b, c, heng, hmem⟩ := together_quiet hquiet s
  rw [hunit]
  refine ⟨together_island (f := fun v => isolateEngine v u) (fun v => (congrArg island (isolateEngine_frame v u) :)) s, ?_, fun h => ?_⟩
  · simp only [engineOf, heng]
    exact isolateEngine_copies _ u
  · rw [hmem]
    exact isolateEngine_mem (s := { s with hif.batch := b, knots.cycle := c }) h u

/-! ## Reset causes -/

/-! ### Reset causes, their scopes and the Oasis counters (R537 to R556) -/

theorem eq_of_sansPorts {u v : State} (h : sansPorts u = sansPorts v) : u = { v with out := u.out, dbg := u.dbg } := (congrArg (fun w : State => { w with out := u.out, dbg := u.dbg }) h :)

/-- A part of the state that is neither an output nor of the debug unit is, after the domains are asserted, what their resets make of it. -/
theorem assertDomains_part {β : Type} (g : State → β) (hg : ∀ (u : State) o d i, g { u with out := o, dbg := d, power.inReset := i } = g u) {s : State} {ds new : List Domain} (hnew : ds.filter (fun d => !s.power.inReset.contains d) = new) :
    g (assertDomains s ds) = g (new.foldl resetDomain s) := by
  have h := eq_of_sansPorts (dropTests_sansPorts (new.foldl resetDomain s))
  simp only [assertDomains, hnew]
  rw [h]
  exact hg (new.foldl resetDomain s) _ _ _

/-- A part of the state that neither the outputs nor the debug unit make up. -/
theorem part_of_sansPorts {β : Type} (g : State → β) (hg : ∀ (u : State) o d i, g { u with out := o, dbg := d, power.inReset := i } = g u) {u v : State} (h : sansPorts u = sansPorts v) : g u = g v := by
  rw [eq_of_sansPorts h]
  exact hg v u.out u.dbg v.power.inReset

theorem resetPcie_keeps (s : State) : (resetPcie s).safe = s.safe ∧ (resetPcie s).cfg = s.cfg ∧ (resetPcie s).mem = s.mem ∧ (resetPcie s).bootReady = s.bootReady ∧ (resetPcie s).oct.ports = s.oct.ports :=
  ⟨foldl_keeps State.safe resetFn (fun _ _ => rfl) _ s, foldl_keeps State.cfg resetFn (fun _ _ => rfl) _ s, foldl_keeps State.mem resetFn (fun _ _ => rfl) _ s,
    foldl_keeps State.bootReady resetFn (fun _ _ => rfl) _ s, foldl_keeps (fun u : State => u.oct.ports) resetFn (fun _ _ => rfl) _ s⟩

/-- What the reset of the HOST scope keeps (R538). -/
theorem assertDomains_host (s : State) :
    (assertDomains s (scopeDomains 1)).safe = s.safe ∧ (assertDomains s (scopeDomains 1)).cfg = s.cfg ∧ (assertDomains s (scopeDomains 1)).mem = s.mem ∧ (assertDomains s (scopeDomains 1)).oct.ports = s.oct.ports ∧
      (assertDomains s (scopeDomains 1)).bootReady = s.bootReady := by
  obtain ⟨new, hnew, hkeeps⟩ : ∃ new, (scopeDomains 1).filter (fun d => !s.power.inReset.contains d) = new ∧
      ((new.foldl resetDomain s).safe = s.safe ∧ (new.foldl resetDomain s).cfg = s.cfg ∧ (new.foldl resetDomain s).mem = s.mem ∧ (new.foldl resetDomain s).bootReady = s.bootReady ∧ (new.foldl resetDomain s).oct.ports = s.oct.ports) := by
    by_cases h : 3 ∈ s.power.inReset
    · exact ⟨[], by simp [scopeDomains, h], by simp⟩
    · exact ⟨[3], by simp [scopeDomains, h], resetPcie_keeps s⟩
  obtain ⟨hsafe, hcfg, hmem, hboot, hports⟩ := hkeeps
  exact ⟨(assertDomains_part State.safe (fun _ _ _ _ => rfl) hnew).trans hsafe, (assertDomains_part State.cfg (fun _ _ _ _ => rfl) hnew).trans hcfg, (assertDomains_part State.mem (fun _ _ _ _ => rfl) hnew).trans hmem,
    (assertDomains_part (fun u => u.oct.ports) (fun _ _ _ _ => rfl) hnew).trans hports, (assertDomains_part State.bootReady (fun _ _ _ _ => rfl) hnew).trans hboot⟩

/-- The state once the domains of the DEVICE scope up to the engines are in reset, from that after PCIE. -/
def enginesReset (pcie : State) : State := { resetDomain (clearDram pcie) 5 with eng := Engines.reset, mem := [] }

theorem resetDomain_first (s : State) : resetDomain (resetDomain (resetDomain s 0) 2) 3 = resetPcie (resetFab (txDisable (resetSafe s))) := rfl
theorem resetDomain_next (u : State) : resetDomain (resetDomain (resetDomain u 4) 5) 6 = enginesReset u := rfl

theorem assertDomains_device_part {β : Type} (g : State → β) (hg : ∀ (u : State) o d i, g { u with out := o, dbg := d, power.inReset := i } = g u) {s : State} (h : s.power.inReset = []) :
    g (assertDomains s (scopeDomains 2)) = g (resetDomain (resetDomain (enginesReset (resetPcie (resetFab (txDisable (resetSafe s))))) 7) 8) := by
  have hnew : (scopeDomains 2).filter (fun d => !s.power.inReset.contains d) = [0, 2, 3, 4, 5, 6, 7, 8] := by simp [scopeDomains, h]
  rw [assertDomains_part g hg hnew]
  simp only [List.foldl_cons, List.foldl_nil, resetDomain_first, resetDomain_next]

/-- The links of the last two domains change their own units alone. -/
theorem resetDomain_links_part {β : Type} (g : State → β) (hg : ∀ (u : State) o d i, g { u with out := o, dbg := d, power.inReset := i } = g u) (hoct : ∀ u : State, g { u with oct := Oct.reset } = g u)
    (heth : ∀ u : State, g { u with eth := Eth.reset } = g u) (u : State) : g (resetDomain (resetDomain u 7) 8) = g u := by
  have heths (u : State) : g (resetDomain u 7) = g u := (part_of_sansPorts g hg (endTests_sansPorts _ _ _)).trans (heth u)
  have hocts (u : State) : g (resetDomain u 8) = g u := (part_of_sansPorts g hg (endTests_sansPorts _ _ _)).trans (hoct u)
  rw [hocts, heths]

/-- What the reset of the DEVICE scope empties, where no domain was in reset (R538). -/
theorem assertDomains_device {s : State} (h : s.power.inReset = []) :
    (assertDomains s (scopeDomains 2)).safe = Safe.reset ∧ (assertDomains s (scopeDomains 2)).cfg = Cfg.reset ∧ (assertDomains s (scopeDomains 2)).eng = Engines.reset ∧ (assertDomains s (scopeDomains 2)).mem = [] ∧
      (assertDomains s (scopeDomains 2)).oct = Oct.reset ∧ (assertDomains s (scopeDomains 2)).bootReady = false := by
  obtain ⟨hsafe, hcfg, -, hboot, -⟩ := resetPcie_keeps (resetFab (txDisable (resetSafe s)))
  have hisland : (resetFab (txDisable (resetSafe s))).safe = Safe.reset := part_of_sansPorts State.safe (fun _ _ _ _ => rfl) (txDisable_sansPorts (resetSafe s))
  have hpart {β : Type} (g : State → β) (hg : ∀ (u : State) o d i, g { u with out := o, dbg := d, power.inReset := i } = g u) := assertDomains_device_part g hg h
  generalize resetPcie (resetFab (txDisable (resetSafe s))) = pcie at hpart hsafe hcfg hboot
  have hlinks {β : Type} (g : State → β) (hg : ∀ (u : State) o d i, g { u with out := o, dbg := d, power.inReset := i } = g u) (hoct : ∀ u : State, g { u with oct := Oct.reset } = g u) (heth : ∀ u : State, g { u with eth := Eth.reset } = g u) :
      g (assertDomains s (scopeDomains 2)) = g (enginesReset pcie) := (hpart g hg).trans (resetDomain_links_part g hg hoct heth _)
  exact ⟨(hlinks State.safe (fun _ _ _ _ => rfl) (fun _ => rfl) (fun _ => rfl)).trans (hsafe.trans hisland), (hlinks State.cfg (fun _ _ _ _ => rfl) (fun _ => rfl) (fun _ => rfl)).trans hcfg,
    hlinks State.eng (fun _ _ _ _ => rfl) (fun _ => rfl) (fun _ => rfl), hlinks State.mem (fun _ _ _ _ => rfl) (fun _ => rfl) (fun _ => rfl),
    (hpart State.oct (fun _ _ _ _ => rfl)).trans (part_of_sansPorts State.oct (fun _ _ _ _ => rfl) (endTests_sansPorts _ _ _)), (hlinks State.bootReady (fun _ _ _ _ => rfl) (fun _ => rfl) (fun _ => rfl)).trans hboot⟩

/-- A POR resets device time and the bytes, where no domain was in reset (R103, R540). -/
theorem assertDomains_full {s : State} (h : s.power.inReset = []) : (assertDomains s (scopeDomains 3)).now = 0 ∧ (assertDomains s (scopeDomains 3)).tb = Tb.reset ∧ (assertDomains s (scopeDomains 3)).mem = [] := by
  have hnew : (scopeDomains 3).filter (fun d => !s.power.inReset.contains d) = [0, 1, 2, 3, 4, 5, 6, 7, 8, 9] := by simp [scopeDomains, h]
  have htime : timeKept ([0, 1, 2, 3, 4, 5, 6, 7, 8, 9].foldl resetDomain s) = (0, Tb.reset, 0) := by
    rw [List.foldl_cons, List.foldl_cons, foldl_resetDomain_timeKept (by decide)]
    rfl
  have hengines (u : State) : (enginesReset u).mem = [] := rfl
  have hlink (u : State) : (resetDomain u 9).mem = u.mem := (part_of_sansPorts State.mem (fun _ _ _ _ => rfl) (endTests_sansPorts _ _ _)).trans rfl
  have hmem : ([0, 1, 2, 3, 4, 5, 6, 7, 8, 9].foldl resetDomain s).mem = [] := by
    simp only [List.foldl_cons, List.foldl_nil, hlink, resetDomain_links_part State.mem (fun _ _ _ _ => rfl) (fun _ => rfl) (fun _ => rfl), resetDomain_next]
    exact hengines _
  simp only [timeKept, Prod.mk.injEq] at htime
  obtain ⟨hnow, htb, -⟩ := htime
  exact ⟨(assertDomains_part State.now (fun _ _ _ _ => rfl) hnew).trans hnow, (assertDomains_part State.tb (fun _ _ _ _ => rfl) hnew).trans htb,
    (assertDomains_part State.mem (fun _ _ _ _ => rfl) hnew).trans hmem⟩

/-- The state in which a sequence begins: the cause is counted and last. -/
def begun (s : State) (k : Nat) : State := joinSequence (countCause s k) k

theorem assertCause_begins {s : State} {k : Nat} (h : s.power.seqCause = none) : assertCause s k = assertDomains (begun s k) (scopeDomains (scopeOf s k)) := by
  simp only [assertCause, h, Option.any_none, Bool.and_false, Bool.false_eq_true, if_false]
  rfl

/-- A sequence of equal or wider scope goes on (R543). -/
theorem assertCause_joins {s : State} {k w : Nat} (h : s.power.seqCause = some w) (hw : scopeOf s k ≤ scopeOf s w) (hstage : s.power.stage ≠ 7) : assertCause s k = joinSequence (countCause s k) k := by
  simp [assertCause, h, hw, hstage]

theorem begun_frame {s : State} {k : Nat} (h : s.power.seqCause = none) : { begun s k with power := s.power } = s := by
  simp only [begun, joinSequence, countCause, h]

theorem begun_inReset {s : State} {k : Nat} (h : s.power.seqCause = none) : (begun s k).power.inReset = s.power.inReset := by
  simp only [begun, joinSequence, countCause, h]

/-- What a cause that begins a sequence does (R537 to R541). -/
theorem assertCause_new {s : State} {k : Nat} (h : s.power.seqCause = none) :
    Tbl.at 0 (assertCause s k).power.counts k = satAdd 16 (Tbl.at 0 s.power.counts k) 1 ∧ (assertCause s k).power.total = satAdd 32 s.power.total 1 ∧ (assertCause s k).power.lastCause = k ∧ (assertCause s k).power.seqCause = some k ∧
      (∀ d, d < 10 → (d ∈ (assertCause s k).power.inReset ↔ d ∈ s.power.inReset ∨ d ∈ scopeDomains (scopeOf s k))) := by
  have hlog := assertCause_causeLog (k := k) h
  simp only [causeLog, Prod.mk.injEq] at hlog
  obtain ⟨hcounts, htotal, hlast, hseq, -, hin, -⟩ := hlog
  refine ⟨by rw [hcounts, Tbl.at_put_same], htotal, hlast, hseq, fun d hd => ?_⟩
  rw [hin, List.mem_filter]
  simp [hd]

theorem assertCause_device {s : State} {k : Nat} (h : s.power.seqCause = none) (hscope : scopeOf s k = 2) (hin : s.power.inReset = []) :
    (assertCause s k).safe = Safe.reset ∧ (assertCause s k).cfg = Cfg.reset ∧ (assertCause s k).eng = Engines.reset ∧ (assertCause s k).mem = [] ∧ (assertCause s k).oct = Oct.reset ∧ (assertCause s k).bootReady = false := by
  rw [assertCause_begins h, hscope]
  exact assertDomains_device ((begun_inReset h).trans hin)

theorem assertCause_host {s : State} {k : Nat} (h : s.power.seqCause = none) (hscope : scopeOf s k = 1) :
    (assertCause s k).safe = s.safe ∧ (assertCause s k).cfg = s.cfg ∧ (assertCause s k).mem = s.mem ∧ (assertCause s k).oct.ports = s.oct.ports ∧ (assertCause s k).bootReady = s.bootReady := by
  obtain ⟨hsafe, hcfg, hmem, hports, hboot⟩ := assertDomains_host (begun s k)
  have hframe := begun_frame (k := k) h
  rw [assertCause_begins h, hscope]
  exact ⟨hsafe.trans (congrArg State.safe hframe :), hcfg.trans (congrArg State.cfg hframe :), hmem.trans (congrArg State.mem hframe :), hports.trans (congrArg (fun u : State => u.oct.ports) hframe :), hboot.trans (congrArg State.bootReady hframe :)⟩

theorem assertCause_time {s : State} {k : Nat} (h : s.power.seqCause = none) (hscope : scopeOf s k ≠ 3) : (assertCause s k).now = s.now ∧ (assertCause s k).tb = s.tb := by
  have hkept := assertDomains_timeKept (begun s k) (time_not_in_scope hscope)
  have hframe := begun_frame (k := k) h
  rw [assertCause_begins h]
  exact ⟨(congrArg Prod.fst hkept :).trans (congrArg State.now hframe :), (congrArg (fun x => x.2.1) hkept :).trans (congrArg State.tb hframe :)⟩

/-- The logic-side causes, each with the event that raises it and its code (R537). -/
def RaisesCause (s : State) (c : Instr) (k : Nat) : Prop :=
  (c = .logicBrownout ∧ k = 1) ∨ (c = .resetPin ∧ k = 2) ∨ (c = .pcieFundamental ∧ k = 3) ∨ (c = .pcieHot ∧ k = 4) ∨ (c = .hostDeviceCmd 2 ∧ k = 5 ∧ pcieUp s = true) ∨ (c = .octurCmd 0 1 ∧ k = 7 ∧ s.power.octurResetEn = true) ∨
      (c = .safeWatchdog ∧ k = 9 ∧ s.safe.fatal.any (fun f => f.1 == 2) = true) ∨ (c = .thermalTrip ∧ k = 10) ∨ (c = .debugCmd ∧ k = 11 ∧ s.dbg.level = 2 ∧ s.dbg.boundary = false ∧ s.dbg.production = false)

section Clauses
variable {s : State} {c : Instr} {k : Nat}

/-- The state in which a cause is asserted: a brown-out has taken MOD_PG low. -/
def atCause (s : State) (k : Nat) : State := if k = 1 then setRails s false else s

theorem atCause_frame (s : State) (k : Nat) : { atCause s k with power.railsGood := s.power.railsGood, out := s.out } = s := by
  simp only [atCause]
  split
  · exact setRails_keeps s false
  · rfl

theorem atCause_part {β : Type} (g : State → β) (hg : ∀ (u : State) r o, g { u with power.railsGood := r, out := o } = g u) (s : State) (k : Nat) : g (atCause s k) = g s :=
  (hg (atCause s k) s.power.railsGood s.out).symm.trans (congrArg g (atCause_frame s k))

/-- The logic-side causes as their events assert them (R537). -/
theorem exec_cause (hpow : logicPowered s = true) (hc : RaisesCause s c k) :
    exec c s = .next (assertCause (atCause s k) k) ∧ k ≠ 0 := by
  have hlogic (j : Nat) : logicCause s j = assertCause s j := if_pos hpow
  have hrails : logicPowered (setRails s false) = true := ((congrArg logicPowered (setRails_keeps s false) :) : logicPowered (setRails s false) = _).trans hpow
  have hstate : s.power.pstate ≤ 2 := by simpa [logicPowered] using hpow
  rcases hc with ⟨rfl, rfl⟩ | ⟨rfl, rfl⟩ | ⟨rfl, rfl⟩ | ⟨rfl, rfl⟩ | ⟨rfl, rfl, hup⟩ | ⟨rfl, rfl, hen⟩ | ⟨rfl, rfl, hfatal⟩ | ⟨rfl, rfl⟩ | ⟨rfl, rfl, hlevel, hbound, hprod⟩
  · exact ⟨congrArg Host.Outcome.next (if_pos hrails), by decide⟩
  · refine ⟨?_, by decide⟩
    rw [exec, execResetPin, if_neg (by omega), if_neg (by omega)]
    rfl
  · exact ⟨congrArg Host.Outcome.next (hlogic 3), by decide⟩
  · exact ⟨congrArg Host.Outcome.next (hlogic 4), by decide⟩
  · exact ⟨if_pos ⟨rfl, hup⟩, by decide⟩
  · refine ⟨(if_pos (by simp [octurAccepts, hen])).trans (congrArg Host.Outcome.next (hlogic 7)), by decide⟩
  · exact ⟨(if_pos hfatal).trans (congrArg Host.Outcome.next (hlogic 9)), by decide⟩
  · exact ⟨congrArg Host.Outcome.next (hlogic 10), by decide⟩
  · have hdbg : { s.dbg with boundary := false, production := false } = s.dbg := by
      conv_rhs => rw [show s.dbg = { s.dbg with boundary := s.dbg.boundary, production := s.dbg.production } from rfl, hbound, hprod]
    have hsame : { s with dbg := { s.dbg with boundary := false, production := false } } = s := by rw [hdbg]
    refine ⟨(if_pos (.inl hlevel)).trans ?_, by decide⟩
    rw [hsame, hlogic]
    rfl

theorem scopeOf_ne_full {s : State} (h : k ≠ 0) : scopeOf s k ≠ 3 := by
  simp only [scopeOf, h, if_false]
  repeat' split
  all_goals decide

theorem cause_clauses (hpow : logicPowered s = true) (hc : RaisesCause s c k) :
    (∀ w, s.power.seqCause = some w → scopeOf s k ≤ scopeOf s w → s.power.stage ≠ 7 → exec c s = .next (joinSequence (countCause (if k = 1 then setRails s false else s) k) k)) ∧
    (s.power.seqCause = none → ∃ t, exec c s = .next t ∧ Tbl.at 0 t.power.counts k = satAdd 16 (Tbl.at 0 s.power.counts k) 1 ∧ t.power.total = satAdd 32 s.power.total 1 ∧ t.power.lastCause = k ∧ t.power.seqCause = some k ∧
      (∀ d, d < 10 → (d ∈ t.power.inReset ↔ d ∈ s.power.inReset ∨ d ∈ scopeDomains (scopeOf s k))) ∧ t.now = s.now ∧ t.tb = s.tb ∧
      (scopeOf s k = 2 → s.power.inReset = [] → t.safe = Safe.reset ∧ t.cfg = Cfg.reset ∧ t.eng = Engines.reset ∧ t.mem = [] ∧ t.oct = Oct.reset ∧ t.bootReady = false) ∧
      (scopeOf s k = 1 → t.safe = s.safe ∧ t.cfg = s.cfg ∧ t.mem = s.mem ∧ t.oct.ports = s.oct.ports ∧ t.bootReady = s.bootReady)) := by
  obtain ⟨hexec, hk⟩ := exec_cause hpow hc
  have hpart {β : Type} (g : State → β) (hg : ∀ (u : State) r o, g { u with power.railsGood := r, out := o } = g u) : g (atCause s k) = g s := atCause_part g hg s k
  have hseq := hpart (fun u => u.power.seqCause) (fun _ _ _ => rfl)
  have hscope (j : Nat) := hpart (fun u => scopeOf u j) (fun _ _ _ => rfl)
  have hreset := hpart (fun u => u.power.inReset) (fun _ _ _ => rfl)
  refine ⟨fun w hw hle hstage => ?_, fun hnone => ⟨_, hexec, ?_⟩⟩
  · rw [hexec, assertCause_joins (hseq.trans hw) ((hscope k).trans_le (hle.trans_eq (hscope w).symm)) ((hpart (fun u => u.power.stage) (fun _ _ _ => rfl)).trans_ne hstage)]
    rfl
  · have hnone' := hseq.trans hnone
    obtain ⟨hcounts, htotal, hlast, hbegun, hin⟩ := assertCause_new (k := k) hnone'
    obtain ⟨hnow, htb⟩ := assertCause_time (k := k) hnone' (scopeOf_ne_full hk)
    refine ⟨hcounts.trans (hpart (fun u => satAdd 16 (Tbl.at 0 u.power.counts k) 1) (fun _ _ _ => rfl)), htotal.trans (hpart (fun u => satAdd 32 u.power.total 1) (fun _ _ _ => rfl)), hlast, hbegun,
      fun d hd => (hin d hd).trans (hpart (fun u => d ∈ u.power.inReset ∨ d ∈ scopeDomains (scopeOf u k)) (fun _ _ _ => rfl)).to_iff, hnow.trans (hpart State.now (fun _ _ _ => rfl)), htb.trans (hpart State.tb (fun _ _ _ => rfl)),
      fun h2 hempty => assertCause_device hnone' ((hscope k).trans h2) (hreset.trans hempty), fun h1 => ?_⟩
    obtain ⟨hsafe, hcfg, hmem, hports, hboot⟩ := assertCause_host (k := k) hnone' ((hscope k).trans h1)
    exact ⟨hsafe.trans (hpart State.safe (fun _ _ _ => rfl)), hcfg.trans (hpart State.cfg (fun _ _ _ => rfl)), hmem.trans (hpart State.mem (fun _ _ _ => rfl)), hports.trans (hpart (fun u => u.oct.ports) (fun _ _ _ => rfl)),
      hboot.trans (hpart State.bootReady (fun _ _ _ => rfl))⟩

theorem reportSource_octur : reportSource 4 0x1200 = none := by decide

theorem octurCmd_refused {m : Nat} (hen : s.power.octurResetEn = false) (hup : s.safe.intakeUp = true) (hroom : s.safe.intake.length < 56) :
    ∃ t r, exec (.octurCmd m 1) s = .next t ∧ t.safe.intake = queueReport r s.safe.intake ∧ r.event = 0x0115 ∧ r.severity = 1 ∧ r.detail = m ∧ r.time = s.now ∧ { t with safe := s.safe, sic := s.sic } = s := by
  let r : Report := { reportOf s sevWarn 4 0x1200 0x0115 with did := 1, detail := m }
  have hnest : ∃ b c, nest s r = { r with nested := b, cause := c } := by
    simp only [nest]
    repeat' split
    · exact ⟨r.nested, r.cause, rfl⟩
    · exact ⟨_, _, rfl⟩
    · exact ⟨r.nested, r.cause, rfl⟩
  obtain ⟨b, c, hnest⟩ := hnest
  refine ⟨raise s r, nest s r, if_neg (by simp [octurAccepts, hen]), ?_, by rw [hnest]; rfl, by rw [hnest]; rfl, by rw [hnest], by rw [hnest]; rfl, raise_sourceless (r := r) reportSource_octur⟩
  have hsev : (nest s r).severity ≤ sevWarn := by rw [hnest]; exact Nat.le_refl _
  have hplace : s.safe.intake.length + 9 ≤ 64 := by omega
  have hkind : reportSource (nest s r).kind (nest s r).index = none := by rw [hnest]; exact reportSource_octur
  simp only [raise, raiseNow, hup, Bool.not_true, Bool.false_eq_true, if_false, if_pos hsev, if_pos hplace, enterIntake, hkind]
  rfl

theorem fullScope_all (ds : List Domain) : (List.range 10).filter (fun d => ds.contains d || (scopeDomains 3).contains d) = List.range 10 := by
  refine List.filter_eq_self.2 fun d hd => ?_
  have hfull : d ∈ scopeDomains 3 := hd
  simp [hfull]

/-- A POR that the Oasis domain outlives (R537, R539). -/
theorem por_kept (h : s.power.seqCause = none) :
    ∃ t, exec (.por true) s = .next t ∧ t.power.inReset = List.range 10 ∧ t.power.lastCause = 0 ∧ Tbl.at 0 t.power.counts 0 = satAdd 16 (Tbl.at 0 s.power.counts 0) 1 ∧ t.power.pstate = 0 ∧
      (s.power.inReset = [] → t.now = 0 ∧ t.tb = Tb.reset ∧ t.mem = []) := by
  let u : State := { s with power.pstate := 0 }
  have hnone : u.power.seqCause = none := h
  have hlog := assertCause_causeLog (k := 0) hnone
  simp only [causeLog, Prod.mk.injEq] at hlog
  obtain ⟨hcounts, -, hlast, -, -, hin, -⟩ := hlog
  refine ⟨assertCause u 0, rfl, hin.trans (fullScope_all _), hlast, by rw [hcounts, Tbl.at_put_same], assertCause_pstate rfl 0, fun hempty => ?_⟩
  rw [assertCause_begins hnone]
  exact assertDomains_full ((begun_inReset hnone).trans hempty)

/-- The security unit keeps its seal latch through the resets. -/
theorem resetDomain_sealLatched (s : State) (d : Domain) : (resetDomain s d).sec.sealLatched = s.sec.sealLatched := by
  have hports {u v : State} (h : sansPorts u = sansPorts v) : u.sec.sealLatched = v.sec.sealLatched := part_of_sansPorts (fun u => u.sec.sealLatched) (fun _ _ _ _ => rfl) h
  unfold resetDomain
  split
  · rfl
  · rfl
  · exact (show (resetFab (txDisable s)).sec.sealLatched = (txDisable s).sec.sealLatched from rfl).trans (hports (txDisable_sansPorts s))
  · exact foldl_keeps (fun u : State => u.sec.sealLatched) resetFn (fun _ _ => rfl) (List.range 14) s
  · rfl
  · rfl
  · rfl
  · exact (hports (endTests_sansPorts _ _ _)).trans rfl
  · exact (hports (endTests_sansPorts _ _ _)).trans rfl
  · exact (hports (endTests_sansPorts _ _ _)).trans rfl

/-- Without VBACKUP the Oasis counters restart. -/
theorem por_lost (h : s.power.seqCause = none) :
    ∃ t, exec (.por false) s = .next t ∧ t.power.inReset = List.range 10 ∧ t.power.counts = [(0, 1)] ∧ t.power.total = 1 ∧ t.power.fresh = true ∧ t.sec.sealLatched = false := by
  let u : State := { s with
    power := { Power.reset with inReset := s.power.inReset, railsGood := s.power.railsGood, seqCause := s.power.seqCause, held := s.power.held, bootSrc := s.power.bootSrc, clkMode := s.power.clkMode, pstate := 0 }
    sec.sealLatched := false }
  have hnone : u.power.seqCause = none := h
  have hlog := assertCause_causeLog (k := 0) hnone
  simp only [causeLog, Prod.mk.injEq] at hlog
  obtain ⟨hcounts, htotal, -, -, -, hin, hfresh⟩ := hlog
  refine ⟨assertCause u 0, rfl, hin.trans (fullScope_all _), hcounts.trans (show Power.reset.counts.put 0 (satAdd 16 (Tbl.at 0 Power.reset.counts 0) 1) = [(0, 1)] by decide),
    htotal.trans (show satAdd 32 Power.reset.total 1 = 1 by decide), hfresh.trans (show Power.reset.fresh = true by decide), ?_⟩
  have hjoin : (begun u 0).sec.sealLatched = false := (congrArg (fun v : State => v.sec.sealLatched) (begun_frame hnone) :)
  rw [assertCause_begins hnone, assertDomains_part (fun v => v.sec.sealLatched) (fun _ _ _ _ => rfl) rfl, foldl_keeps (fun v : State => v.sec.sealLatched) resetDomain resetDomain_sealLatched]
  exact hjoin

theorem resetPin_wakes (h : s.power.pstate = 3) : ∃ t, exec .resetPin s = .next t ∧ t.power.pstate = 0 ∧ Tbl.at 0 t.power.counts 2 = satAdd 16 (Tbl.at 0 s.power.counts 2) 1 := by
  refine ⟨assertCause (leaveStandby s) 2, by simp [exec, execResetPin, h], assertCause_pstate rfl 2, ?_⟩
  rw [assertCause_counts, Tbl.at_put_same]
  rfl

@[simp] theorem recordOut_units (s : State) (u : Nat) (c : Option Nat) : (recordOut s u c).safe.units = s.safe.units ∧ (recordOut s u c).eng = s.eng ∧ (recordOut s u c).mem = s.mem ∧ (recordOut s u c).power = s.power := by
  simp only [recordOut, record]
  split <;> simp

theorem isolateUnit_power (s : State) (u : Nat) (hu : u < 72) : (isolateUnit s u).power = s.power := by
  have hframe (v : State) : (isolateEngine v u).power = v.power := (congrArg State.power (isolateEngine_frame v u) :)
  simp only [isolateUnit, hu, if_true, together]
  split <;> simp [hframe]

/-- The reset of an engine by command: out of service, in step 1, with no copy left (R538, R556). -/
theorem resetOneUnit_engine {u : Nat} (hu : u < 72) :
    (unitSafe (resetOneUnit s u) u).service = 2 ∧ (unitSafe (resetOneUnit s u) u).step = 1 ∧ (engineOf (resetOneUnit s u) u).copies = [] ∧ ((∀ i, (thread s i).mma = none) → (resetOneUnit s u).mem = s.mem) ∧
      (resetOneUnit s u).power = s.power := by
  let v : State := setUnit s u { unitSafe s u with service := 2, cause := 0, outs := satAdd 8 (unitSafe s u).outs 1, blocked := false, test := .none, step := 1 }
  obtain ⟨hisland, hcopies, hmem⟩ := isolateUnit_engine (s := v) hu
  obtain ⟨hkept, heng, hmemory, hpower⟩ := recordOut_units (isolateUnit v u) u none
  have hunits : (isolateUnit v u).safe.units = v.safe.units := (congrArg Safe.units hisland :)
  have hunit : unitSafe (resetOneUnit s u) u = { unitSafe s u with service := 2, cause := 0, outs := satAdd 8 (unitSafe s u).outs 1, blocked := false, test := .none, step := 1 } := by
    change Tbl.at UnitSafe.reset (recordOut (isolateUnit v u) u none).safe.units u = _
    rw [hkept, hunits]
    exact Tbl.at_put_same _ _ _ _
  exact ⟨by rw [hunit], by rw [hunit], (congrArg (fun e : Engines => (Tbl.at Engine.reset e.engines u).copies) heng :).trans hcopies, fun h => hmemory.trans (hmem h), hpower.trans (isolateUnit_power v u hu)⟩

theorem hostUnitCmd_resets (hup : pcieUp s = true) (ht : s.power.rcuTarget < 72) (hr : unitResetRefused s s.power.rcuTarget = false) :
    ∃ t, exec (.hostUnitCmd 2) s = .next t ∧ Tbl.at 0 t.power.counts 6 = satAdd 16 (Tbl.at 0 s.power.counts 6) 1 ∧ (unitSafe t s.power.rcuTarget).service = 2 ∧ (unitSafe t s.power.rcuTarget).step = 1 ∧ (engineOf t s.power.rcuTarget).copies = [] ∧
      ((∀ i, (thread s i).mma = none) → t.mem = s.mem) := by
  obtain ⟨u, hexec, hcounts, hframe⟩ : ∃ u, exec (.hostUnitCmd 2) s = .next (resetOneUnit u s.power.rcuTarget) ∧ u.power.counts = s.power.counts.put 6 (satAdd 16 (Tbl.at 0 s.power.counts 6) 1) ∧ { u with power := s.power } = s := by
    have hknown : targetKnown s.power.rcuTarget = true := by simp [targetKnown, show s.power.rcuTarget < 88 by omega]
    have hchip : s.power.rcuTarget < 88 := by omega
    cases hseq : s.power.seqCause with
    | none =>
      refine ⟨{ countCause s 6 with power.lastCause := 6, power.total := satAdd 32 s.power.total 1 }, ?_, rfl, rfl⟩
      simp [exec, execHostUnitCmd, hup, hknown, hr, countCause, hseq, resetTarget, hchip]
    | some w =>
      refine ⟨countCause s 6, ?_, rfl, rfl⟩
      simp [exec, execHostUnitCmd, hup, hknown, hr, countCause, hseq, resetTarget, hchip]
  obtain ⟨hservice, hstep, hcopies, hmem, hpower⟩ := resetOneUnit_engine (s := u) ht
  refine ⟨_, hexec, by rw [hpower, hcounts, Tbl.at_put_same], hservice, hstep, hcopies, fun h => ?_⟩
  have hthreads (i : Nat) : thread u i = thread s i := (congrArg (fun v : State => thread v i) hframe :)
  exact (hmem fun i => by rw [hthreads]; exact h i).trans (congrArg State.mem hframe :)

theorem oasClear_clears {did : Nat} (hd : did = 1 ∨ did = 2) (ho : maintOpen s did = true) (hl : s.sec.lifecycle ≠ 3) :
    ∃ t, exec (.oasClear did) s = .next t ∧ t.power.counts = [] ∧ t.power.total = 0 ∧ t.power.lastCause = 0 ∧ t.power.fresh = false ∧ t.power.timeResets = 0 ∧ t.power.overrides = 0 ∧ t.power.sealBreaks = 0 ∧ t.power.oasStatus = 0 ∧ t.mem = s.mem := by
  have hdid : ¬ (did ≠ 1 ∧ did ≠ 2) := by omega
  refine ⟨_, (if_neg hdid).trans (if_neg (by simp [ho, hl])), rfl, rfl, rfl, rfl, rfl, rfl, rfl, rfl, ?_⟩
  simp [maintAccept, maintRecord, tickFresh]

end Clauses

/-- Settles O51: what each scope's resets empty and keep, then the branches of the events that raise the causes. -/
theorem resetCauses : Obligations.ResetCauses := by
  intro s c k
  refine ⟨fun hpow hc => cause_clauses hpow hc, fun did hd => ?_, fun hlevel hb hp => ?_, fun hf => ?_, fun hen hup hroom m => octurCmd_refused hen hup hroom, fun h => ⟨por_kept h, por_lost h⟩, fun h => ?_, resetPin_wakes,
    fun hup => ⟨hostUnitCmd_resets hup, fun hk hr => ?_, fun hk => ?_⟩, fun did hd => ⟨oasClear_clears hd, fun h => ?_⟩, fun did h1 h2 => ?_⟩
  · simp [exec, execHostDeviceCmd, execHostUnitCmd, hd]
  · simp [exec, execDebugCmd, hlevel, hb, hp]
  · simp [exec, execSafeWatchdog, hf]
  · simp [exec, execResetPin, h]
  · simp [exec, execHostUnitCmd, hup, hk, hr]
  · simp [exec, execHostUnitCmd, hk]
  · have hdid : ¬ (did ≠ 1 ∧ did ≠ 2) := by omega
    exact (if_neg hdid).trans (if_pos (by simpa using h))
  · simp [exec, execOasClear, h1, h2]

/-! ## Release and boot -/

/-! ### Release of the domains and the boot steps (R539 to R552) -/

theorem setRails_same {s : State} {good : Bool} (h : s.power.railsGood = good) : setRails s good = s := if_pos h

/-- The state after a domain's release, before the sequence is looked at. -/
def releasedDomain (s : State) (st : Straps) (rails : Bool) (d : Domain) : State :=
  let s := if d = 0 ∨ d = 3 ∨ !rails then sampleStraps s st.bootSrc st.clkMode else s
  let rest := s.power.inReset.filter (fun x => x ≠ d)
  let s := releaseEffect { s with power.inReset := if d = 7 then rest.filter (· ≠ 8) else rest } d
  if decide (s.power.step < 16) && rails then { s with power.step := if d = 7 ∧ !rest.contains 9 then 12 else releaseStep d } else s

theorem domainRelease_releases {s : State} {st : Straps} {rails : Bool} {d : Domain} {ds : List Domain} (hrails : s.power.railsGood = rails) (hd : releasable s rails = d :: ds) (hmay : rails = true → mayRelease s d = true)
    (hstage : s.power.stage ≠ 7) (hp : s.power.pstate ≤ 2) : exec (.domainRelease st rails) s = .next (endSequence (releasedDomain s st rails d)) := by
  have hgo : ¬ ((rails && !mayRelease s d) = true ∨ s.power.stage = 7 ∨ 2 < s.power.pstate) := by
    rintro (h | h | h)
    · simp only [Bool.and_eq_true] at h
      simp [hmay h.1] at h
    · exact hstage h
    · omega
  simp only [exec, execDomainRelease, setRails_same hrails, hd, if_neg hgo]
  rfl

theorem domainRelease_waits {s : State} {st : Straps} {d : Domain} {ds : List Domain} (hrails : s.power.railsGood = true) (hd : s.power.inReset = d :: ds) (hmay : mayRelease s d = false) :
    exec (.domainRelease st true) s = .next s := by
  simp [exec, execDomainRelease, setRails_same hrails, releasable, hd, hmay]

theorem endSequence_frame (s : State) : { endSequence s with power := s.power } = s := by
  simp only [endSequence]
  split <;> rfl

theorem endSequence_power (s : State) : (endSequence s).power.inReset = s.power.inReset ∧ (endSequence s).power.step = s.power.step ∧ (endSequence s).power.bootSrc = s.power.bootSrc ∧ (endSequence s).power.clkMode = s.power.clkMode ∧
    (endSequence s).power.stage = s.power.stage ∧ (endSequence s).power.bank = s.power.bank ∧ (endSequence s).power.source = s.power.source := by
  simp only [endSequence]
  split <;> exact ⟨rfl, rfl, rfl, rfl, rfl, rfl, rfl⟩

/-- A table written entry by entry holds what was written at each. -/
theorem at_foldl_put {α : Type} {P : α → Prop} (d : α) {g : Tbl α → Nat → α} (hg : ∀ t m, P (g t m)) (t : Tbl α) {n k : Nat} (hk : k < n) : P (Tbl.at d ((List.range n).foldl (fun t m => t.put m (g t m)) t) k) := by
  induction n with
  | zero => omega
  | succ n ih =>
    rw [List.range_succ, List.foldl_append, List.foldl_cons, List.foldl_nil]
    by_cases h : k = n
    · rw [h, Tbl.at_put_same]
      exact hg _ _
    · rw [Tbl.at_put_other d _ _ h]
      exact ih (by omega)

section Release
variable {s : State} {st : Straps} {d : Nat} {rest : List Nat}

theorem filter_head (h : d ∉ rest) : (d :: rest).filter (fun x => x ≠ d) = rest := by
  rw [List.filter_cons_of_neg (by simp)]
  exact List.filter_eq_self.2 fun x hx => by simpa using fun heq : x = d => h (heq ▸ hx)

/-- The release of the first domain in reset, with the logic rails good. -/
theorem domainRelease_first (hrails : s.power.railsGood = true) (hin : s.power.inReset = d :: rest) (hstage : s.power.stage ≠ 7) (hp : s.power.pstate ≤ 2) (hmay : mayRelease s d = true) :
    exec (.domainRelease st true) s = .next (endSequence (releasedDomain s st true d)) :=
  domainRelease_releases (ds := rest) hrails (by simpa [releasable] using hin) (fun _ => hmay) hstage hp

theorem releaseEffect_none (h5 : d ≠ 5) (h6 : d ≠ 6) : releaseEffect s d = s := by
  unfold releaseEffect
  split
  · exact absurd rfl h5
  · exact absurd rfl h6
  · rfl

theorem rest_of_head (hin : s.power.inReset = d :: rest) (hd : d ∉ rest) : s.power.inReset.filter (fun x => x ≠ d) = rest := by rw [hin, filter_head hd]

/-- A release at which no strap is sampled. -/
theorem releasedDomain_unstrapped (hin : s.power.inReset = d :: rest) (hd : d ∉ rest) (h0 : d ≠ 0) (h3 : d ≠ 3) (h7 : d ≠ 7) (hstep : (releaseEffect { s with power.inReset := rest } d).power.step < 16) :
    releasedDomain s st true d = { releaseEffect { s with power.inReset := rest } d with power.step := releaseStep d } := by
  have hstraps : ¬ (d = 0 ∨ d = 3 ∨ (!true) = true) := by simp [h0, h3]
  have hstep7 : ¬ (d = 7 ∧ (!rest.contains 9) = true) := fun h => h7 h.1
  simp only [releasedDomain, if_neg hstraps, rest_of_head hin hd, if_neg h7, if_neg hstep7, hstep, decide_true, Bool.and_self, if_true]

/-- The domains whose release is a boot step alone. -/
theorem releasedDomain_plain (hin : s.power.inReset = d :: rest) (hd : d ∉ rest) (hstep : s.power.step < 16) (h : d = 1 ∨ d = 2 ∨ d = 4 ∨ d = 9) : releasedDomain s st true d = { s with power.inReset := rest, power.step := releaseStep d } := by
  have hnone : releaseEffect { s with power.inReset := rest } d = { s with power.inReset := rest } := releaseEffect_none (by omega) (by omega)
  rw [releasedDomain_unstrapped hin hd (by omega) (by omega) (by omega) (by rw [hnone]; exact hstep), hnone]

/-- Straps are sampled in the step of SAFE and PCIE (R542). -/
theorem releasedDomain_straps (hin : s.power.inReset = d :: rest) (hd : d ∉ rest) (hstep : s.power.step < 16) (h : d = 0 ∨ d = 3) :
    releasedDomain s st true d = { sampleStraps s st.bootSrc st.clkMode with power.inReset := rest, power.step := releaseStep d } := by
  have hsample : (sampleStraps s st.bootSrc st.clkMode).power.inReset = s.power.inReset ∧ (sampleStraps s st.bootSrc st.clkMode).power.step = s.power.step := by
    simp only [sampleStraps]
    split <;> exact ⟨rfl, rfl⟩
  obtain ⟨hreset, hstep'⟩ := hsample
  have hstraps : d = 0 ∨ d = 3 ∨ (!true) = true := by omega
  have h7 : d ≠ 7 := by omega
  have hstep7 : ¬ (d = 7 ∧ (!rest.contains 9) = true) := fun h => h7 h.1
  have hnone (u : State) : releaseEffect u d = u := releaseEffect_none (by omega) (by omega)
  simp only [releasedDomain, if_pos hstraps, hreset, rest_of_head hin hd, if_neg h7, if_neg hstep7, hnone, hstep', hstep, decide_true, Bool.and_self, if_true]

theorem straps_clause {b m : Nat} (hrails : s.power.railsGood = true) (hin : s.power.inReset = d :: rest) (hd : d ∉ rest) (hstage : s.power.stage ≠ 7) (hp : s.power.pstate ≤ 2) (hstep : s.power.step < 16) (h : d = 0 ∨ d = 3)
    (hheld : 0 ∈ s.power.held ∨ 2 ∈ s.power.held) :
    ∃ t, exec (.domainRelease ⟨b, m⟩ true) s = .next t ∧ t.power.inReset = rest ∧ t.power.step = releaseStep d ∧ t.power.bootSrc = b % 4 ∧ t.power.clkMode = (if s.sec.lifecycle ≠ 0 ∧ m % 4 = 3 then 0 else m % 4) ∧ { t with power := s.power } = s := by
  have hsampled : s.power.held.contains 0 = true ∨ s.power.held.contains 2 = true := by simpa using hheld
  have hmay : mayRelease s d = true := by rcases h with rfl | rfl <;> rfl
  let t : State := { sampleStraps s b m with power.inReset := rest, power.step := releaseStep d }
  obtain ⟨hreset, htstep, hsrc, hclk, -, -, -⟩ := endSequence_power t
  refine ⟨endSequence t, ?_, hreset, htstep, hsrc.trans ?_, hclk.trans ?_, (congrArg (fun u : State => { u with power := s.power }) (endSequence_frame t) :).trans ?_⟩
  · rw [domainRelease_first hrails hin hstage hp hmay, releasedDomain_straps hin hd hstep h]
  · simp only [t, sampleStraps, if_pos hsampled]
  · simp only [t, sampleStraps, if_pos hsampled]
    simp
  · simp only [t, sampleStraps, if_pos hsampled]

/-- Without the logic rails TIME alone may come up before the field link (R616). -/
theorem unpowered_clause (hrails : s.power.railsGood = false) (hfirst : s.power.inReset.find? (fun d => d == 1 || d == 9) = some 1) (hstage : s.power.stage ≠ 7) (hp : s.power.pstate ≤ 2) :
    ∃ t, exec (.domainRelease st false) s = .next t ∧ t.power.inReset = s.power.inReset.filter (· ≠ 1) ∧ t.power.step = s.power.step ∧ { t with power := s.power } = s := by
  obtain ⟨ds, hds⟩ : ∃ ds, releasable s false = 1 :: ds := by
    have hhead : (releasable s false).head? = some 1 := by simpa [releasable] using hfirst
    obtain ⟨ds, hds⟩ := List.head?_eq_some_iff.1 hhead
    exact ⟨ds, hds⟩
  have hsample : (sampleStraps s st.bootSrc st.clkMode).power.inReset = s.power.inReset ∧ (sampleStraps s st.bootSrc st.clkMode).power.step = s.power.step ∧ { sampleStraps s st.bootSrc st.clkMode with power := s.power } = s := by
    simp only [sampleStraps]
    split <;> exact ⟨rfl, rfl, rfl⟩
  obtain ⟨hreset, hstep, hframe⟩ := hsample
  let t : State := { sampleStraps s st.bootSrc st.clkMode with power.inReset := s.power.inReset.filter (· ≠ 1) }
  have ht : releasedDomain s st false 1 = t := by
    have hstraps : (1 : Nat) = 0 ∨ (1 : Nat) = 3 ∨ (!false) = true := by decide
    have hnone (u : State) : releaseEffect u 1 = u := rfl
    simp only [releasedDomain, if_pos hstraps, hreset, hnone, Bool.and_false, Bool.false_eq_true, if_false, if_neg (show ¬ (1 : Nat) = 7 by decide)]
    rfl
  obtain ⟨htreset, htstep, -⟩ := endSequence_power t
  refine ⟨endSequence t, ?_, htreset, htstep.trans hstep, (congrArg (fun u : State => { u with power := s.power }) (endSequence_frame t) :).trans hframe⟩
  rw [domainRelease_releases hrails hds (fun h => absurd h (by decide)) hstage hp, ht]

/-- CTL comes up with the boot's bank and source. -/
theorem control_clause (hrails : s.power.railsGood = true) (hin : s.power.inReset = 5 :: rest) (hd : 5 ∉ rest) (hstage : s.power.stage ≠ 7) (hp : s.power.pstate ≤ 2) (hstep : s.power.step < 16) (htrained : s.power.trained = true) :
    ∃ t, exec (.domainRelease st true) s = .next t ∧ t.power.inReset = rest ∧ t.power.step = 7 ∧ t.power.stage = 1 ∧ t.power.bank = s.sec.pendingBank.getD s.sec.activeBank ∧ t.power.source = s.power.bootSrc ∧ { t with power := s.power } = s := by
  let t : State := { releaseEffect { s with power.inReset := rest } 5 with power.step := 7 }
  obtain ⟨htreset, htstep, -, -, htstage, htbank, htsource⟩ := endSequence_power t
  refine ⟨endSequence t, ?_, htreset, htstep, htstage, htbank, htsource, (congrArg (fun u : State => { u with power := s.power }) (endSequence_frame t) :)⟩
  rw [domainRelease_first hrails hin hstage hp htrained, releasedDomain_unstrapped hin hd (by decide) (by decide) (by decide) hstep]
  rfl

/-- The units come up FENCED and in step 2 (R493). -/
theorem engines_clause (hrails : s.power.railsGood = true) (hin : s.power.inReset = 6 :: rest) (hd : 6 ∉ rest) (hstage : s.power.stage ≠ 7) (hp : s.power.pstate ≤ 2) (hstep : s.power.step < 16) (hnine : 9 ≤ s.power.step) :
    ∃ t, exec (.domainRelease st true) s = .next t ∧ t.power.inReset = rest ∧ t.power.step = 10 ∧ ∀ u, u < 88 → (unitSafe t u).service = 1 ∧ (unitSafe t u).step = 2 := by
  let t : State := { releaseEffect { s with power.inReset := rest } 6 with power.step := 10 }
  obtain ⟨htreset, htstep, -⟩ := endSequence_power t
  refine ⟨endSequence t, ?_, htreset, htstep, fun u hu => ?_⟩
  · rw [domainRelease_first hrails hin hstage hp (by simpa [mayRelease] using hnine), releasedDomain_unstrapped hin hd (by decide) (by decide) (by decide) hstep]
    rfl
  · have hkept : (endSequence t).safe.units = t.safe.units := (congrArg (fun u : State => u.safe.units) (endSequence_frame t) :)
    have hfenced : t.safe.units = (fenceUnits { s with power.inReset := rest }).safe.units := rfl
    simp only [unitSafe, hkept, hfenced, fenceUnits]
    exact at_foldl_put (P := fun x : UnitSafe => x.service = 1 ∧ x.step = 2) UnitSafe.reset (g := fun _ _ => { UnitSafe.reset with startup := true, step := 2, born := s.up }) (fun _ _ => ⟨rfl, rfl⟩) _ hu

/-- ETH and OCT come up together; the field link's release is a step of its own. -/
theorem links_clause (hrails : s.power.railsGood = true) (hin : s.power.inReset = 7 :: rest) (hd : 7 ∉ rest) (hstage : s.power.stage ≠ 7) (hp : s.power.pstate ≤ 2) (hstep : s.power.step < 16) :
    ∃ t, exec (.domainRelease st true) s = .next t ∧ t.power.inReset = rest.filter (· ≠ 8) ∧ t.power.step = (if 9 ∈ rest then 11 else 12) ∧ { t with power := s.power } = s := by
  let t : State := { s with power.inReset := rest.filter (· ≠ 8), power.step := if 9 ∈ rest then 11 else 12 }
  have ht : releasedDomain s st true 7 = t := by
    have hnone (u : State) : releaseEffect u 7 = u := rfl
    have hlast : (if (!rest.contains 9) = true then 12 else releaseStep 7) = if 9 ∈ rest then 11 else 12 := by
      by_cases h : 9 ∈ rest <;> simp [h, releaseStep]
    simp only [releasedDomain, Bool.not_true, Bool.false_eq_true, or_false, if_neg (show ¬ ((7 : Nat) = 0 ∨ (7 : Nat) = 3) by decide), rest_of_head hin hd, hnone, hstep, decide_true, Bool.and_self, if_true, true_and, hlast]
    rfl
  obtain ⟨htreset, htstep, -⟩ := endSequence_power t
  refine ⟨endSequence t, ?_, htreset, htstep, (congrArg (fun u : State => { u with power := s.power }) (endSequence_frame t) :)⟩
  rw [domainRelease_first hrails hin hstage hp rfl, ht]

/-- With the last domain the sequence ends (R543). -/
theorem last_clause (hrails : s.power.railsGood = true) (hin : s.power.inReset = [9]) (hstage : s.power.stage ≠ 7) (hp : s.power.pstate ≤ 2) (hstep : s.power.step < 16) :
    ∃ t, exec (.domainRelease st true) s = .next t ∧ t.power.inReset = [] ∧ t.power.seqCause = none ∧ t.power.held = [] ∧ t.power.step = 12 :=
  ⟨endSequence { s with power.inReset := [], power.step := 12 }, by rw [domainRelease_first hrails hin hstage hp rfl, releasedDomain_plain hin (by simp) hstep (by decide)]; rfl, rfl, rfl, rfl, rfl⟩

end Release

section Boot
variable {s : State}

/-- What the boot does at a step: neither FAILED nor an error of the island or the field die. -/
theorem bootStageAdvance_at {e : Nat} (hstage : s.power.stage ≠ 7) (hp : s.power.pstate ≤ 2) (h3 : e ≠ 3) (h5 : e ≠ 5) :
    exec (.bootStageAdvance e) s =
      if s.power.step = 6 ∧ !s.power.trained then
        if e = 0 then .next { s with power.trained := true, mmu.mcs := (List.range 8).foldl (fun t m => t.put m { Tbl.at MemCtl.reset t m with trained := true, sweepAt := s.up }) s.mmu.mcs }
        else if e = 2 then .next (trainFail s) else .next s
      else if s.power.step = 7 then
        if !sourceReady s then .next s
        else if e = 0 then .next { s with power.step := 8, power.stage := 2, power.waitFrom := none }
        else if e = 1 then .next (verifyFail s) else .next s
      else if s.power.step = 8 then
        if e = 0 then .next { startFirmware s with power.step := 9, power.stage := 3, fldT.aFld := Config.fieldCal }
        else if e = 1 then .next (verifyFail s) else .next s
      else if s.power.step = 12 then .next { s with power.step := 13, power.stage := 4 }
      else if s.power.step = 13 then .next { firmwareSetup s with power.step := 14, power.stage := 5 }
      else if s.power.step = 14 then .next { bootImage s (decide (e ≠ 6)) with power.step := 15 }
      else if s.power.step = 15 then .next (bootReadyNow s)
      else .next s := by
  have hgo : ¬ (s.power.stage = 7 ∨ 2 < s.power.pstate) := by omega
  simp only [exec, execBootStageAdvance, if_neg hgo, h3, h5, false_and, if_false]

theorem training_clause (hstage : s.power.stage ≠ 7) (hp : s.power.pstate ≤ 2) (hstep : s.power.step = 6) (ht : s.power.trained = false) :
    (∃ t, exec (.bootStageAdvance 0) s = .next t ∧ t.power.trained = true ∧ (∀ k, k < 8 → (Tbl.at MemCtl.reset t.mmu.mcs k).trained = true) ∧ t.mem = s.mem) ∧
    (s.power.training < 2 → exec (.bootStageAdvance 2) s = .next { s with power.training := s.power.training + 1 }) ∧
    (2 ≤ s.power.training → ∃ t, exec (.bootStageAdvance 2) s = .next t ∧ t.power.stage = 7 ∧ t.power.error = 2 ∧ { t with power := s.power } = s) := by
  refine ⟨⟨{ s with power.trained := true, mmu.mcs := (List.range 8).foldl (fun t m => t.put m { Tbl.at MemCtl.reset t m with trained := true, sweepAt := s.up }) s.mmu.mcs }, ?_, rfl, fun k hk => ?_, rfl⟩, fun h => ?_, fun h => ?_⟩
  · rw [bootStageAdvance_at hstage hp (by decide) (by decide)]
    simp [hstep, ht]
  · exact at_foldl_put (P := fun x : MemCtl => x.trained = true) MemCtl.reset (g := fun t m => { Tbl.at MemCtl.reset t m with trained := true, sweepAt := s.up }) (fun _ _ => rfl) _ hk
  · rw [bootStageAdvance_at hstage hp (by decide) (by decide)]
    simp [hstep, ht, trainFail, show ¬ 2 ≤ s.power.training by omega]
  · refine ⟨bootFail { s with power.training := 3 } 2, ?_, rfl, rfl, rfl⟩
    rw [bootStageAdvance_at hstage hp (by decide) (by decide)]
    simp [hstep, ht, trainFail, h]

/-- A failed image at step 7 (R514, R516, R552). -/
theorem exec_verifyFail (hstage : s.power.stage ≠ 7) (hp : s.power.pstate ≤ 2) (hstep : s.power.step = 7) (hready : sourceReady s = true) : exec (.bootStageAdvance 1) s = .next (verifyFail s) := by
  rw [bootStageAdvance_at hstage hp (by decide) (by decide)]
  simp [hstep, hready]

theorem verify_clause (hstage : s.power.stage ≠ 7) (hp : s.power.pstate ≤ 2) (hstep : s.power.step = 7) (hready : sourceReady s = true) :
    exec (.bootStageAdvance 0) s = .next { s with power.step := 8, power.stage := 2, power.waitFrom := none } ∧
    (s.power.bootSrc ≠ 0 → exec (.bootStageAdvance 1) s = .next { s with power.stage := 7, power.error := 1, power.waitFrom := none }) ∧
    (s.power.bootSrc = 0 → s.power.bank ≤ 1 → s.sec.pendingBank = none → s.sec.badBanks = [] → s.power.failedBanks = [] → exec (.bootStageAdvance 1) s = .next { s with power.failedBanks := [s.power.bank], power.bank := 1 - s.power.bank, power.stage := 1 }) ∧
    (s.power.bootSrc = 0 → s.sec.pendingBank = none → 1 - s.power.bank ∈ s.power.failedBanks → ∃ t, exec (.bootStageAdvance 1) s = .next t ∧ t.power.stage = 7 ∧ t.power.error = 1) := by
  refine ⟨?_, fun h => ?_, fun h0 hbank hpend hbad hfailed => ?_, fun h0 hpend hfailed => ?_⟩
  · rw [bootStageAdvance_at hstage hp (by decide) (by decide)]
    simp [hstep, hready]
  · rw [exec_verifyFail hstage hp hstep hready, verifyFail, if_pos h]
    rfl
  · have hother : ¬ 1 - s.power.bank = s.power.bank := by omega
    have hnext : verifyFail s = { s with power.failedBanks := [s.power.bank], power.bank := 1 - s.power.bank, power.step := 7, power.stage := 1 } := by
      simp [verifyFail, h0, hpend, hbad, hfailed, hother]
    rw [exec_verifyFail hstage hp hstep hready, hnext, ← hstep]
  · refine ⟨bootFail { s with power.failedBanks := s.power.bank :: s.power.failedBanks } 1, ?_, rfl, rfl⟩
    rw [exec_verifyFail hstage hp hstep hready]
    simp [verifyFail, h0, hpend, hfailed]

/-- Every context answers after step 14 (R423). -/
theorem contexts_enabled (k : Nat) (hk : k < 16) :
    (Tbl.at Context.reset ((List.range 16).map (fun k => (k, { Context.reset with enable := true, root := (Config.contextRoot k) % 2 ^ 32 }))) k).enable = true := by
  have hfind (n : Nat) (l : List Nat) (hn : n ∈ l) (f : Nat → Context) (hf : ∀ m, (f m).enable = true) : (Tbl.at Context.reset (l.map (fun m => (m, f m))) n).enable = true := by
    induction l with
    | nil => cases hn
    | cons m l ih =>
      simp only [Tbl.at, List.map_cons, Tbl.find] at ih ⊢
      by_cases h : n = m
      · simp [h, hf]
      · simpa [h] using ih (by simpa [h] using hn)
  exact hfind k _ (List.mem_range.2 hk) _ fun _ => rfl

theorem image_clause (hstage : s.power.stage ≠ 7) (hp : s.power.pstate ≤ 2) (hstep : s.power.step = 14) :
    (s.sec.stored = none → exec (.bootStageAdvance 0) s = .next { s with power.step := 15 }) ∧ exec (.bootStageAdvance 6) s = .next { s with power.step := 15 } ∧
    (∀ i dg v l, s.sec.stored = some (i, dg, v, l) → (s.sec.lifecycle = 1 ∨ s.sec.lifecycle = 2) → s.sec.storedGen = s.sec.safetyGen → s.sec.fuseImage ≤ v →
      ∃ t, exec (.bootStageAdvance 0) s = .next t ∧ t.sec.image = some i ∧ t.sec.locked = l ∧ t.sec.imageSvn = v ∧ t.power.step = 15) := by
  have hat (e : Nat) (h3 : e ≠ 3) (h5 : e ≠ 5) : exec (.bootStageAdvance e) s = .next { bootImage s (decide (e ≠ 6)) with power.step := 15 } := by
    rw [bootStageAdvance_at hstage hp h3 h5]
    simp [hstep]
  refine ⟨fun h => ?_, ?_, fun i dg v l h hl hgen hv => ⟨_, hat 0 (by decide) (by decide), ?_⟩⟩
  · rw [hat 0 (by decide) (by decide)]
    simp [bootImage, h]
  · rw [hat 6 (by decide) (by decide)]
    simp only [bootImage, ne_eq, not_true_eq_false, decide_false, Bool.false_eq_true, false_and, if_false]
    split <;> rfl
  · have happlied : bootImage s true = applyImage s i dg v l := by simp [bootImage, h, hl, hgen, hv]
    simp [happlied]

end Boot

/-- Settles O52: the release of the first domain in reset by what it samples and sets, and the boot's steps one by one. -/
theorem releaseAndBoot : Obligations.ReleaseAndBoot := by
  intro s b m
  refine ⟨fun g hin => ?_, fun hrails => ⟨fun h1 h9 => ?_, unpowered_clause hrails⟩, fun d rest hrails hin hd hstage hp hstep => ⟨fun h hrest => ?_, straps_clause hrails hin hd hstage hp hstep, fun h5 ht => ?_, fun h5 ht => ?_, fun h6 hlow => ?_, fun h6 hnine => ?_,
      fun h7 => ?_, fun h9 hrest => ?_⟩, fun hstage => ?_,
    fun hstage hp => ⟨training_clause hstage hp, fun hstep hready => ?_, verify_clause hstage hp, fun hstep hwarn => ?_, fun hstep => ?_, fun hstep => ?_, image_clause hstage hp, fun hstep => ?_⟩,
    fun did => ⟨fun hd hw => ?_, fun h1 h2 => ?_, fun hw => ?_⟩, fun hw => ?_, fun v hw => ⟨fun hgo => ?_, fun hgo => ?_⟩⟩
  · have hnone : releasable (setRails s g) g = [] := by
      have hreset : (setRails s g).power.inReset = [] := (congrArg (fun u : State => u.power.inReset) (setRails_keeps s g) :).trans hin
      simp [releasable, hreset]
    simp only [exec, execDomainRelease, hnone]
  · have hnone : releasable s false = [] := by
      refine (List.filter_eq_nil_iff.2 fun x hx => ?_)
      have hx1 : x ≠ 1 := fun h => h1 (h ▸ hx)
      have hx9 : x ≠ 9 := fun h => h9 (h ▸ hx)
      simp [hx1, hx9]
    simp only [exec, execDomainRelease, setRails_same hrails, hnone]
  · have hmay : mayRelease s d = true := by rcases h with rfl | rfl | rfl <;> rfl
    rw [domainRelease_first hrails hin hstage hp hmay, releasedDomain_plain hin hd hstep (by tauto), endSequence, if_neg hrest]
  · subst h5
    exact domainRelease_waits hrails hin ht
  · subst h5
    exact control_clause hrails hin hd hstage hp hstep ht
  · subst h6
    exact domainRelease_waits hrails hin (by simpa [mayRelease] using hlow)
  · subst h6
    exact engines_clause hrails hin hd hstage hp hstep hnine
  · subst h7
    exact links_clause hrails hin hd hstage hp hstep
  · subst h9 hrest
    exact last_clause hrails hin hstage hp hstep
  · simp [exec, execBootStageAdvance, hstage]
  · rw [bootStageAdvance_at hstage hp (by decide) (by decide), bootStageAdvance_at hstage hp (by decide) (by decide)]
    simp [hstep, hready]
  · refine ⟨{ startFirmware s with power.step := 9, power.stage := 3, fldT.aFld := Config.fieldCal }, ?_, ?_⟩
    · rw [bootStageAdvance_at hstage hp (by decide) (by decide)]
      simp [hstep]
    · simp [startFirmware, hwarn]
  · rw [bootStageAdvance_at hstage hp (by decide) (by decide)]
    simp [hstep]
  · refine ⟨{ firmwareSetup s with power.step := 14, power.stage := 5 }, ?_, rfl, rfl, fun k hk => ?_, rfl⟩
    · rw [bootStageAdvance_at hstage hp (by decide) (by decide)]
      simp [hstep]
    · exact contexts_enabled k hk
  · refine ⟨bootReadyNow s, ?_, rfl, rfl, rfl, rfl, rfl⟩
    rw [bootStageAdvance_at hstage hp (by decide) (by decide)]
    simp [hstep]
  · exact if_pos ⟨hd, Option.isSome_iff_ne_none.2 hw⟩
  · exact if_neg fun h => by omega
  · exact if_neg fun h => by simp [hw] at h
  · simp only [exec, execBootSourceTimeout, hw]
  · simp only [exec, execBootSourceTimeout, hw, hgo, if_true]
  · refine ⟨bootFail (advanceUp s (v + 60000000000)) 4, by simp only [exec, execBootSourceTimeout, hw, hgo, Bool.false_eq_true, if_false], rfl, rfl, ?_, rfl⟩
    simp only [bootFail, advanceUp, advanceTo]
    omega

/-! ## Interrupt controllers -/

/-! ### The interrupt controllers (R498 to R509) -/

section Ctl
variable (s : State) (sic : Bool)

/-- Opening a processor's global mask changes that mask alone. -/
theorem openMask_sourceOf (p k : Nat) (cl : Bool) : sourceOf (openMask s sic p cl) sic k = sourceOf s sic k := by
  cases cl <;> simp [openMask]

theorem openMask_procOf (p : Nat) (cl : Bool) : (procOf (openMask s sic p cl) sic p).stack = (procOf s sic p).stack ∧ (procOf (openMask s sic p cl) sic p).vbase = (procOf s sic p).vbase := by
  cases cl <;> simp [openMask]

theorem openMask_frame (p : Nat) (cl : Bool) : { openMask s sic p cl with icu := s.icu, sic := s.sic } = s := by
  cases cl
  · rfl
  · exact setProc_frame _ _ _ _

theorem sourceOf_icuPulse_other {j k : Nat} (h : k ≠ j) : sourceOf (icuPulse s j) false k = sourceOf s false k := by
  simp [sourceOf, ctlOf, icuPulse, icuSet, Tbl.at_put_other _ _ _ h]

theorem procOf_icuPulse (j p : Nat) : procOf (icuPulse s j) false p = procOf s false p := rfl

end Ctl

section Delivery
variable {s : State} {sic : Bool} {k p : Nat} {x : IntSource}

/-- The turn of a processor of the controller. -/
theorem turn_of_proc (h : (sic = true ∧ p = 0) ∨ (sic = false ∧ p < 4)) : ¬ (if sic then p ≠ 0 else 4 ≤ p) := by
  rcases h with ⟨rfl, rfl⟩ | ⟨rfl, hp⟩
  · simp
  · simpa using hp

/-- A delivery takes its source into service and masks the processor (R499). -/
theorem deliverSource_serves {m : State} (hx : sourceOf m sic k = x) (hn : deliveries m x < 4096) :
    (sourceOf (deliverSource m sic p k) sic k).inService = true ∧ (procOf (deliverSource m sic p k) sic p).stack = k :: (procOf m sic p).stack ∧ (procOf (deliverSource m sic p k) sic p).gmask = true ∧
      (x.sense = 3 → (sourceOf (deliverSource m sic p k) sic k).pending = false) ∧ (deliverSource m sic p k).out = (emit m (.vector sic p ((procOf m sic p).vbase * 65536 + 64 * k))).out ∧
      { deliverSource m sic p k with icu := m.icu, sic := m.sic, out := m.out } = m := by
  subst hx
  let e := emit m (.vector sic p ((procOf m sic p).vbase * 65536 + 64 * k))
  let y : IntSource := { sourceOf m sic k with inService := true, pending := if (sourceOf m sic k).level then (sourceOf m sic k).pending else false, count := deliveries m (sourceOf m sic k) + 1, ms := e.now / 1000000 }
  have hctl : ctlOf e sic = ctlOf m sic := by
    simp only [e, emit]
    split <;> rfl
  have hproc : procOf e sic p = procOf m sic p := by simp only [procOf, hctl]
  have hframe : { e with out := m.out } = m := by
    simp only [e, emit]
    split <;> rfl
  obtain ⟨q, hq, hstack, hmask⟩ : ∃ q, deliverSource m sic p k = setProc (setSource e sic k y) sic p q ∧ q.stack = k :: (procOf m sic p).stack ∧ q.gmask = true := by
    refine ⟨_, by simp only [deliverSource, if_neg (show ¬ 4096 ≤ deliveries m (sourceOf m sic k) by omega)]; rfl, ?_, rfl⟩
    show k :: (procOf (setSource e sic k y) sic p).stack = _
    rw [procOf_setSource, hproc]
  have hkept : { deliverSource m sic p k with icu := e.icu, sic := e.sic } = e := by
    rw [hq]
    exact (congrArg (fun u : State => { u with icu := e.icu, sic := e.sic }) (setProc_frame (setSource e sic k y) sic p q) :).trans (setSource_frame e sic k y)
  refine ⟨by simp [hq, y], by simp [hq, hstack], by simp [hq, hmask], fun h3 => ?_, (congrArg State.out hkept :), ?_⟩
  · simp [hq, y, IntSource.level_eq_false (Nat.le_of_eq h3.symm)]
  · exact (congrArg (fun u : State => { u with icu := m.icu, sic := m.sic, out := m.out }) hkept :).trans ((congrArg (fun u : State => { u with icu := m.icu, sic := m.sic }) hframe :))

/-- A trip of the storm guard delivers nothing (R504). -/
theorem deliverSource_trips {m : State} (hx : sourceOf m sic k = x) (hn : 4096 ≤ deliveries m x) :
    (procOf (deliverSource m sic p k) sic p).stack = (procOf m sic p).stack ∧ (k ≠ 186 → (sourceOf (deliverSource m sic p k) sic k).storm = true) := by
  subst hx
  simp only [deliverSource, if_pos hn, stormTrip]
  let u : State := setSource m sic k { sourceOf m sic k with storm := true }
  let v : State := setCtl u sic { ctlOf u sic with storms := satAdd 16 (ctlOf u sic).storms 1 }
  have hsource : sourceOf v sic k = { sourceOf m sic k with storm := true } := by
    have hv : sourceOf v sic k = sourceOf u sic k := by simp [sourceOf, v]
    rw [hv]
    exact sourceOf_setSource_same _ _ _ _
  have hproc : procOf v sic p = procOf m sic p := by
    have hv : procOf v sic p = procOf u sic p := by simp [procOf, v]
    rw [hv]
    exact procOf_setSource _ _ _ _ _
  cases sic with
  | true => exact ⟨congrArg IntProc.stack hproc, fun _ => congrArg IntSource.storm hsource⟩
  | false => exact ⟨congrArg IntProc.stack hproc, fun h => congrArg IntSource.storm ((sourceOf_icuPulse_other v h).trans hsource)⟩

theorem delivery_clauses (hp : (sic = true ∧ p = 0) ∨ (sic = false ∧ p < 4)) (hx : x = sourceOf s sic k) {cl : Bool} {m : State} (hm : m = openMask s sic p cl) :
    (bestSource m sic p = none → exec (.icuDelivery sic ⟨p, cl⟩) s = .next m) ∧
    (bestSource m sic p = some k → deliveries m x < 4096 → ∃ t, exec (.icuDelivery sic ⟨p, cl⟩) s = .next t ∧ (sourceOf t sic k).inService = true ∧ (procOf t sic p).stack = k :: (procOf s sic p).stack ∧ (procOf t sic p).gmask = true ∧
      (x.sense = 3 → (sourceOf t sic k).pending = false) ∧ t.out = (emit s (.vector sic p ((procOf s sic p).vbase * 65536 + 64 * k))).out ∧ { t with icu := s.icu, sic := s.sic, out := s.out } = s) ∧
    (bestSource m sic p = some k → 4096 ≤ deliveries m x → ∃ t, exec (.icuDelivery sic ⟨p, cl⟩) s = .next t ∧ (procOf t sic p).stack = (procOf s sic p).stack ∧ (k ≠ 186 → (sourceOf t sic k).storm = true)) ∧
    (∀ u, u = setProc m sic p { procOf m sic p with asleep := true } →
      ((List.range (sourceCount sic)).any (wakes u sic p) = false → exec (.processorWake sic ⟨p, cl⟩) s = .next u) ∧
      ((List.range (sourceCount sic)).any (wakes u sic p) = true → bestSource u sic p = none → exec (.processorWake sic ⟨p, cl⟩) s = .next (setProc u sic p { procOf u sic p with asleep := false }))) := by
  have hturn := turn_of_proc hp
  have hsource : sourceOf m sic k = x := by rw [hm, openMask_sourceOf, hx]
  obtain ⟨hstack, hvbase⟩ := openMask_procOf s sic p cl
  have hframe := openMask_frame s sic p cl
  rw [← hm] at hstack hvbase hframe
  have hsome {k : Nat} (hb : bestSource m sic p = some k) : exec (.icuDelivery sic ⟨p, cl⟩) s = .next (deliverSource m sic p k) := by
    subst hm
    simp only [exec, execIcuDelivery, if_neg hturn, hb]
  have hnone (hb : bestSource m sic p = none) : exec (.icuDelivery sic ⟨p, cl⟩) s = .next m := by
    subst hm
    simp only [exec, execIcuDelivery, if_neg hturn, hb]
  refine ⟨hnone, fun hb hn => ⟨deliverSource m sic p k, hsome hb, ?_⟩, fun hb hn => ⟨deliverSource m sic p k, hsome hb, ?_⟩, fun u hu => ⟨fun hw => ?_, fun hw hb => ?_⟩⟩
  · obtain ⟨hserved, hpushed, hmask, hpend, hout, hkept⟩ := deliverSource_serves (p := p) hsource hn
    have hemit (o : Output) : (emit m o).out = (emit s o).out := by
      have hdbg : m.dbg = s.dbg := (congrArg State.dbg hframe :)
      have hsent : m.out = s.out := (congrArg State.out hframe :)
      simp only [emit, hdbg]
      split <;> simp only [hsent]
    refine ⟨hserved, by rw [hpushed, hstack], hmask, hpend, by rw [hout, hvbase, hemit], ?_⟩
    exact (congrArg (fun w : State => { w with icu := s.icu, sic := s.sic, out := s.out }) hkept :).trans (congrArg (fun w : State => { w with out := s.out }) hframe :)
  · obtain ⟨hkept, hstorm⟩ := deliverSource_trips (p := p) hsource hn
    exact ⟨hkept.trans hstack, hstorm⟩
  · subst hu hm
    simp only [exec, execProcessorWake, if_neg hturn, hw, Bool.false_eq_true, if_false]
  · subst hu hm
    simp only [exec, execProcessorWake, if_neg hturn, hw, if_true, hb]

theorem eoi_clauses (hp : (sic = true ∧ p = 0) ∨ (sic = false ∧ p < 4)) (hx : x = sourceOf s sic k) :
    (k ∈ (procOf s sic p).stack → ∃ t, exec (.icuEoi sic p k) s = .next t ∧ sourceOf t sic k = { x with inService := false } ∧ (procOf t sic p).stack = (procOf s sic p).stack.filter (· ≠ k) ∧ (ctlOf t sic).eoiErr = (ctlOf s sic).eoiErr) ∧
    (k ∉ (procOf s sic p).stack → ∃ t, exec (.icuEoi sic p k) s = .next t ∧ (ctlOf t sic).eoiErr = (ctlOf s sic).eoiErr ||| 2 ^ p ∧ procOf t sic p = procOf s sic p) := by
  have hturn := turn_of_proc hp
  subst hx
  refine ⟨fun h => ⟨setProc (setSource s sic k { sourceOf s sic k with inService := false }) sic p { procOf s sic p with stack := (procOf s sic p).stack.filter (· ≠ k) }, ?_, by simp, by simp, by simp [setProc, setSource]⟩,
    fun h => ⟨setCtl s sic { ctlOf s sic with eoiErr := (ctlOf s sic).eoiErr ||| 2 ^ p }, ?_, by simp, by simp [procOf]⟩⟩
  · simp only [exec, execIcuEoi, if_neg hturn, if_pos (List.contains_iff_mem.2 h)]
  · simp only [exec, execIcuEoi, if_neg hturn, List.contains_eq_mem, h, decide_false, Bool.false_eq_true, if_false]

end Delivery

section Commands
variable {s : State} {k p : Nat}

/-- A write of ICU_SRC_CMD that its master may give (R507, R510). -/
theorem srcCmd_acts {did : Nat} (f : IntSource → IntSource) (hd : did < 2) (hb : did = 1 → s.bootReady = true) (hsel : srcSelected s did p = k) (hr : sourceReserved (did == 0) k = false) :
    srcCmd s did p f = setSource s (did == 0) k (f (sourceOf s (did == 0) k)) := by
  have hgo : ¬ (2 ≤ did ∨ (did = 1 ∧ !s.bootReady) ∨ sourceReserved (did == 0) k = true) := by
    rintro (h | ⟨h1, h⟩ | h)
    · omega
    · simp [hb h1] at h
    · simp [hr] at h
  simp only [srcCmd, hsel, if_neg hgo]

theorem srcCmd_others {did : Nat} (f : IntSource → IntSource) (hd : 2 ≤ did) : srcCmd s did p f = s := if_pos (.inl hd)

theorem setSource_icu_frame (x : IntSource) : { setSource s false k x with icu := s.icu } = s := rfl

/-- At the millisecond the counts of all sources restart (R504). -/
theorem stormWindow_source (sic : Bool) :
    ∃ t, exec .stormWindowReset s = .next t ∧ t.now = (s.now / 1000000 + 1) * 1000000 ∧ (sourceOf t sic k).count = 0 ∧ { sourceOf t sic k with count := (sourceOf s sic k).count, ms := (sourceOf s sic k).ms } = sourceOf s sic k ∧
      { t with icu := s.icu, sic := s.sic, now := s.now, up := s.up } = s := by
  let r := advanceTo s ((s.now / 1000000 + 1) * 1000000)
  let zero (c : IntCtl) : IntCtl := { c with sources := c.sources.mapV (fun _ x => { x with count := 0, ms := r.now / 1000000 }) }
  have hnow : r.now = (s.now / 1000000 + 1) * 1000000 := by
    show max s.now _ = _
    omega
  have hctl : ctlOf { r with icu := zero r.icu, sic := zero r.sic } sic = zero (ctlOf s sic) := by cases sic <;> rfl
  refine ⟨{ r with icu := zero r.icu, sic := zero r.sic }, rfl, hnow, ?_, ?_, rfl⟩
  · simp only [sourceOf, hctl, Tbl.at, zero, Tbl.find_mapV]
    cases (ctlOf s sic).sources.find k <;> rfl
  · simp only [sourceOf, hctl, Tbl.at, zero, Tbl.find_mapV]
    cases (ctlOf s sic).sources.find k <;> rfl

theorem icuSwi_pends (hb : s.bootReady = true) (hlo : 768 ≤ k) (hhi : k < 1024) (hs : (sourceOf s false k).sense = 3) (hpend : (sourceOf s false k).pending = false) (hserv : (sourceOf s false k).inService = false) :
    (∃ t, exec (.icuSwi 1 k) s = .next t ∧ sourceOf t false k = { sourceOf s false k with pending := true } ∧ { t with icu := s.icu } = s) ∧ (k < 960 → exec (.icuSwi 2 k) s = .next s) := by
  refine ⟨⟨_, exec_icuSwi_of_software hb hlo hhi (by omega), ?_, noteOverrun_setSource_icu_frame ..⟩, fun h => if_pos ?_⟩
  · simp [IntSource.event, hpend, hserv]
  · simp [show ¬ 960 ≤ k by omega]

end Commands

/-- Settles O49: what a delivery, a trip and an end of service leave of the controller, then each command on its source. -/
theorem interruptControl : Obligations.InterruptControl := by
  rintro s sic k p x rfl
  refine ⟨fun hk hr hs hin => ⟨fun hpend hserv => ?_, fun hlost => ?_⟩, fun h => if_pos h, fun hp => ⟨fun cl m hm => delivery_clauses hp rfl hm, eoi_clauses hp rfl⟩, fun hsic hsel hb hr => ?_, fun hsic hsel hr => ?_, fun did hd => ?_, fun did hd => ?_,
    fun hsic hb hlo hhi hs hpend hserv => ?_, fun l hb hl hbound => ⟨fun hfree => ?_, fun hheld => ?_, ?_⟩, ?_⟩
  · have hedge : (sourceOf s sic k).edge true = true := by simp [IntSource.edge, hin, hs]
    refine ⟨_, exec_icuSourceEvent_of_present true hk hr, ?_, fun j hj => ?_⟩
    · simp [IntSource.drive, hedge, IntSource.event, hpend, hserv]
    · simp [sourceOf_setSource_other _ _ _ hj]
  · have hedge : (sourceOf s sic k).edge true = true := by simp [IntSource.edge, hin, hs]
    refine ⟨_, exec_icuSourceEvent_of_present true hk hr, ?_, ?_⟩
    · simp [IntSource.drive_eq_of_lost hedge hlost]
    · simp [IntSource.loses_eq_true hedge hlost]
  · subst hsic
    have hcmd (f : IntSource → IntSource) : srcCmd s 1 p f = setSource s false k (f (sourceOf s false k)) := srcCmd_acts f (by decide) (fun _ => hb) hsel hr
    refine ⟨⟨_, congrArg Host.Outcome.next (hcmd _), by simp, rfl⟩, ⟨_, congrArg Host.Outcome.next (hcmd _), by simp, rfl⟩, fun hl => ⟨⟨_, congrArg Host.Outcome.next (hcmd _), by simp [hl]⟩, ⟨_, congrArg Host.Outcome.next (hcmd _), by simp [hl]⟩⟩⟩
  · subst hsic
    have hcmd (f : IntSource → IntSource) : srcCmd s 0 p f = setSource s true k (f (sourceOf s true k)) := srcCmd_acts f (by decide) (fun h => absurd h (by decide)) hsel hr
    refine ⟨congrArg Host.Outcome.next (hcmd _), congrArg Host.Outcome.next (hcmd _), fun hl => ⟨congrArg Host.Outcome.next ((hcmd _).trans (by simp [hl])), congrArg Host.Outcome.next ((hcmd _).trans (by simp [hl]))⟩⟩
  · exact ⟨congrArg Host.Outcome.next (srcCmd_others _ hd), congrArg Host.Outcome.next (srcCmd_others _ hd), congrArg Host.Outcome.next (srcCmd_others _ hd), congrArg Host.Outcome.next (srcCmd_others _ hd)⟩
  · exact if_pos (.inr (.inl hd))
  · subst hsic
    exact icuSwi_pends hb hlo hhi hs hpend hserv
  · simp [exec, execIcuLockAcquire, hb, show ¬ 16 ≤ l by omega, hfree]
  · simp [exec, execIcuLockAcquire, hb, show ¬ 16 ≤ l by omega, hheld]
  · simp [exec, execIcuLockRelease, hb, show ¬ 16 ≤ l by omega]
  · exact stormWindow_source sic

/-! ## Link tests and the debug port -/

/-! ### Link tests, the debug port and the trace port (R629 to R637) -/

section Links
variable {s : State} {l : Nat}

theorem emit_keeps_dbg (s : State) (o : Output) : (emit s o).dbg = s.dbg ∧ (emit s o).mem = s.mem := by
  simp only [emit]
  split <;> exact ⟨rfl, rfl⟩

/-- A link that goes down for its test keeps the tests. -/
theorem testDown_dbg (s : State) (l loop : Nat) : (testDown s l loop).dbg = s.dbg ∧ (testDown s l loop).mem = s.mem := by
  simp only [testDown, fieldLinkDown]
  repeat' split
  · exact emit_keeps_dbg _ _
  · exact ⟨rfl, rfl⟩
  · exact ⟨rfl, rfl⟩
  · simp
  · exact ⟨rfl, rfl⟩

/-- A start whose conditions hold runs the test with cleared counters (R629, R630). -/
theorem startTest_runs {loop pat : Nat} (hrun : (linkTest s l).run = false) (hok : testRefusal s l loop pat = 0) :
    linkTest (startTest s l loop pat) l = { linkTest s l with run := true, loop := loop, pattern := pat, state := 1, sync := false, reason := 0, resyncs := 0, errors := 0, bits := 0 } ∧
      (∀ j, j ≠ l → linkTest (startTest s l loop pat) j = linkTest s j) ∧ (startTest s l loop pat).mem = s.mem := by
  let u := setLink s l { linkTest s l with run := true, loop := loop, pattern := pat, state := 1, sync := false, reason := 0, resyncs := 0, errors := 0, bits := 0 }
  have hstart : startTest s l loop pat = testDown u l loop := by
    simp only [startTest, hrun, Bool.false_eq_true, if_false, hok]
    rfl
  obtain ⟨hdbg, hmem⟩ := testDown_dbg u l loop
  have hlink (j : Nat) : linkTest (testDown u l loop) j = linkTest u j := by simp only [linkTest, hdbg]
  rw [hstart]
  exact ⟨(hlink l).trans (linkTest_setLink_same _ _ _), fun j hj => (hlink j).trans (linkTest_setLink_other _ _ hj), hmem⟩

theorem startTest_refused {loop pat : Nat} (hrun : (linkTest s l).run = false) (hbad : testRefusal s l loop pat ≠ 0) :
    startTest s l loop pat = setLink s l { linkTest s l with loop := loop, pattern := pat, state := 2, reason := testRefusal s l loop pat } := by
  simp only [startTest, hrun, Bool.false_eq_true, if_false]

/-- A stop keeps the counters (R631). -/
theorem endTest_stops {r : Nat} (hrun : (linkTest s l).run = true) :
    linkTest (endTest s l r) l = { linkTest s l with run := false, state := 3, sync := false, reason := r, bits := bitsNow s l } ∧ (∀ j, j ≠ l → linkTest (endTest s l r) j = linkTest s j) := by
  let u := setLink s l { linkTest s l with run := false, state := 3, sync := false, reason := r, bits := bitsNow s l }
  have hend : (endTest s l r).dbg = u.dbg := by
    simp only [endTest, show (Tbl.at LinkTest.reset s.dbg.links l).run = true from hrun, Bool.not_true, Bool.false_eq_true, if_false]
    split
    · exact (emit_keeps_dbg _ _).1
    · rfl
  have hlink (j : Nat) : linkTest (endTest s l r) j = linkTest u j := by simp only [linkTest, hend]
  exact ⟨(hlink l).trans (linkTest_setLink_same _ _ _), fun j hj => (hlink j).trans (linkTest_setLink_other _ _ hj)⟩

theorem patternChecker_clauses (e : Nat) (b : Bool) :
    ((linkTest s l).run = false → exec (.patternCheckerSync l e b) s = .next s) ∧
    ((linkTest s l).run = true → (linkTest s l).sync = false → exec (.patternCheckerSync l e b) s = .next (setLink s l { linkTest s l with sync := true, since := s.up })) ∧
    ((linkTest s l).run = true → (linkTest s l).sync = true → exec (.patternCheckerSync l e false) s = .next (setLink s l { linkTest s l with errors := satAdd 32 (linkTest s l).errors e })) ∧
    ((linkTest s l).run = true → (linkTest s l).sync = true → ∃ t, exec (.patternCheckerSync l e true) s = .next t ∧ (linkTest t l).sync = false ∧ (linkTest t l).resyncs = satAdd 16 (linkTest s l).resyncs 1 ∧
      (linkTest t l).errors = satAdd 32 (linkTest s l).errors e ∧ { t with dbg := s.dbg } = s) := by
  refine ⟨fun h => ?_, fun h hs => ?_, fun h hs => ?_, fun h hs => ⟨setLink s l { linkTest s l with errors := satAdd 32 (linkTest s l).errors e, sync := false, resyncs := satAdd 16 (linkTest s l).resyncs 1, bits := bitsNow s l }, ?_, ?_⟩⟩
  · simp [exec, execPatternCheckerSync, h]
  · simp [exec, execPatternCheckerSync, h, hs]
  · simp [exec, execPatternCheckerSync, h, hs]
  · simp [exec, execPatternCheckerSync, h, hs]
  · rw [linkTest_setLink_same]
    exact ⟨rfl, rfl, rfl, rfl⟩

theorem linkTest_clauses {did : Nat} {x : LinkTest} (hx : x = linkTest s l) :
    (selLink s did = none → exec (.linkTestStart did 0 0) s = .next s ∧ exec (.linkTestStop did) s = .next s ∧ exec (.linkTestInject did) s = .next s) ∧
    (selLink s did = some l → ∀ loop pat, loop < 4 → pat < 16 →
      (x.run = true → exec (.linkTestStart did loop pat) s = .next s) ∧
      (x.run = false → testRefusal s l loop pat = 0 → ∃ t, exec (.linkTestStart did loop pat) s = .next t ∧ linkTest t l = { x with run := true, loop := loop, pattern := pat, state := 1, sync := false, reason := 0, resyncs := 0, errors := 0, bits := 0 } ∧
        (∀ j, j ≠ l → linkTest t j = linkTest s j) ∧ t.mem = s.mem) ∧
      (x.run = false → testRefusal s l loop pat ≠ 0 → exec (.linkTestStart did loop pat) s = .next (setLink s l { x with loop := loop, pattern := pat, state := 2, reason := testRefusal s l loop pat }))) ∧
    (selLink s did = some l → (x.run = false → exec (.linkTestStop did) s = .next s) ∧
      (x.run = true → ∃ t, exec (.linkTestStop did) s = .next t ∧ linkTest t l = { x with run := false, state := 3, sync := false, reason := 0, bits := bitsNow s l } ∧ (∀ j, j ≠ l → linkTest t j = linkTest s j)) ∧
      (x.run = true → x.sync = true → exec (.linkTestInject did) s = .next (setLink s l { x with errors := satAdd 32 x.errors 1 })) ∧ (x.run = false ∨ x.sync = false → exec (.linkTestInject did) s = .next s)) := by
  subst hx
  refine ⟨fun h => ?_, fun h loop pat hloop hpat => ?_, fun h => ⟨fun hrun => ?_, fun hrun => ⟨endTest s l 0, ?_, endTest_stops hrun⟩, fun hrun hsync => ?_, fun hidle => ?_⟩⟩
  · simp [exec, execLinkTestStart, execLinkTestStop, execLinkTestInject, h]
  · have hexec : exec (.linkTestStart did loop pat) s = .next (startTest s l loop pat) := by
      simp only [exec, execLinkTestStart, h, Nat.mod_eq_of_lt hloop, Nat.mod_eq_of_lt hpat]
    exact ⟨fun hrun => hexec.trans (by simp [startTest, hrun]), fun hrun hok => ⟨_, hexec, startTest_runs hrun hok⟩, fun hrun hbad => hexec.trans (by rw [startTest_refused hrun hbad])⟩
  · simp [exec, execLinkTestStop, h, endTest, show (Tbl.at LinkTest.reset s.dbg.links l).run = false from hrun]
  · simp only [exec, execLinkTestStop, h]
  · simp [exec, execLinkTestInject, h, injectError, hrun, hsync]
  · rcases hidle with hrun | hsync
    · simp [exec, execLinkTestInject, h, injectError, hrun]
    · simp [exec, execLinkTestInject, h, injectError, hsync]

end Links

section Port
variable {s : State}

/-- An instruction loaded where none is left: it acts where its level is reached, else it is counted as BYPASS (R632). -/
theorem loadIr_free {code : Nat} {allowed : State → Bool} {act : State → State} (hb : s.dbg.boundary = false) (hp : s.dbg.production = false) :
    loadIr s code allowed act = if allowed { s with dbg.ir := code } then act { s with dbg.ir := code } else { s with dbg.ir := code, dbg.refusedIr := satAdd 16 s.dbg.refusedIr 1, out := .tdo 0 :: s.out } := by
  have hleave : leaveIr s code = s := by simp [leaveIr, hb, hp]
  simp only [loadIr, hleave]
  split
  · rfl
  · simp [emit, Output.atJ1]

/-- The AC- and DC-coupled boundary instructions (R632, R633). -/
theorem boundaryIr_clause {c : Instr} {v : Nat} (hb : s.dbg.boundary = false) (hp : s.dbg.production = false) (hc : (c = .extest ∧ v = 0) ∨ (c = .extestPulse ∧ v = 3) ∨ (c = .extestTrain ∧ v = 4)) :
    (s.dbg.level = 2 → ∃ t, exec c s = .next t ∧ t.dbg = { s.dbg with ir := v, boundary := true } ∧ t.out = .boundary s.dbg.cells :: s.out ∧ { t with dbg := s.dbg, out := s.out } = s) ∧
    (s.dbg.level ≠ 2 → ∃ t, exec c s = .next t ∧ t.dbg = { s.dbg with ir := v, refusedIr := satAdd 16 s.dbg.refusedIr 1 } ∧ { t with dbg := s.dbg, out := s.out } = s) := by
  have hexec : exec c s = .next (boundaryIr s v) := by rcases hc with ⟨rfl, rfl⟩ | ⟨rfl, rfl⟩ | ⟨rfl, rfl⟩ <;> rfl
  refine ⟨fun h => ⟨{ s with dbg.ir := v, dbg.boundary := true, out := .boundary s.dbg.cells :: s.out }, ?_, rfl, rfl, rfl⟩, fun h => ⟨{ s with dbg.ir := v, dbg.refusedIr := satAdd 16 s.dbg.refusedIr 1, out := .tdo 0 :: s.out }, ?_, rfl, rfl⟩⟩
  · rw [hexec, boundaryIr, loadIr_free hb hp, if_pos (by simp [h])]
    simp [emit, Output.atJ1]
  · rw [hexec, boundaryIr, loadIr_free hb hp, if_neg (by simpa using h)]

theorem endTest_boundary (u : State) (link reason : Nat) : (endTest u link reason).dbg.boundary = u.dbg.boundary := by
  simp only [endTest]
  repeat' split
  · rfl
  · exact (congrArg Dbg.boundary (emit_keeps_dbg _ _).1).trans rfl
  · rfl

/-- The resets of the domains keep the boundary instruction. -/
theorem resetDomain_boundary (s : State) (d : Domain) : (resetDomain s d).dbg.boundary = s.dbg.boundary := by
  have hends (u : State) (lo n : Nat) : (endTests u lo n).dbg.boundary = u.dbg.boundary := foldl_keeps (fun u : State => u.dbg.boundary) _ (fun u _ => endTest_boundary u _ _) _ _
  unfold resetDomain
  split
  · rfl
  · rfl
  · exact (show (resetFab (txDisable s)).dbg.boundary = (txDisable s).dbg.boundary from rfl).trans (foldl_keeps (fun u : State => u.dbg.boundary) _ (fun u _ => congrArg Dbg.boundary (emit_keeps_dbg u _).1) _ _)
  · exact foldl_keeps (fun u : State => u.dbg.boundary) resetFn (fun _ _ => rfl) (List.range 14) s
  · rfl
  · rfl
  · rfl
  · exact (hends _ _ _).trans rfl
  · exact (hends _ _ _).trans rfl
  · exact (hends _ _ _).trans rfl

/-- Leaving a boundary instruction is a DEBUG_CMD reset (R633). -/
theorem idcode_leaves (hb : s.dbg.boundary = true) (hir : s.dbg.ir ≠ 2) (hpow : logicPowered s = true) :
    ∃ t, exec .idcode s = .next t ∧ t.dbg.boundary = false ∧ t.dbg.ir = 2 ∧ Tbl.at 0 t.power.counts 11 = satAdd 16 (Tbl.at 0 s.power.counts 11) 1 := by
  let u : State := { s with dbg.boundary := false, dbg.production := false }
  have hleave : leaveIr s 2 = assertCause u 11 := by
    have hpow' : logicPowered u = true := hpow
    rw [leaveIr, if_pos (by simp [hb, hir]), logicCause, if_pos hpow']
  have hbound : (assertCause u 11).dbg.boundary = false := by
    have hjoin : (joinSequence (countCause u 11) 11).dbg.boundary = false := by
      simp only [joinSequence]
      split <;> rfl
    have hdrop (v : State) : (dropTests v).dbg.boundary = v.dbg.boundary := foldl_keeps (fun v : State => v.dbg.boundary) _ (fun v _ => endTest_boundary v _ _) _ _
    simp only [assertCause]
    split
    · exact hjoin
    · exact ((hdrop _).trans (foldl_keeps (fun v : State => v.dbg.boundary) resetDomain resetDomain_boundary _ _)).trans hjoin
  refine ⟨emit { assertCause u 11 with dbg.ir := 2 } (.tdo 0x272403CF), by rw [exec, execIdcode, loadIr, hleave, if_pos rfl], ?_, ?_, ?_⟩
  · rw [(emit_keeps_dbg _ _).1]
    exact hbound
  · rw [(emit_keeps_dbg _ _).1]
  · have hpower : (emit { assertCause u 11 with dbg.ir := 2 } (.tdo 0x272403CF)).power = (assertCause u 11).power := by
      simp only [emit]
      split <;> rfl
    rw [hpower, assertCause_counts, Tbl.at_put_same]

/-- A record of the running trace port leaves at once where none waits (R635). -/
theorem trace_sends {type kind index data : Nat} (hlevel : s.dbg.level ≠ 0) (hb : s.dbg.boundary = false) (hfree : s.dbg.traceFree ≤ 3 * s.up) (hdrop : s.dbg.traceDropped = 0) (htype : type = 0 ∨ s.dbg.traceTypes.testBit type = true) :
    trace s type kind index data = { s with dbg.traceFree := max (3 * s.up) s.dbg.traceFree + 80, out := .trace (traceBits s type kind index data) :: s.out } := by
  have hon : ¬ (s.dbg.level = 0 ∨ (type ≠ 0 ∧ !s.dbg.traceTypes.testBit type)) := by
    rintro (h | ⟨h0, h⟩)
    · exact hlevel h
    · rcases htype with h' | h'
      · exact h0 h'
      · simp [h'] at h
  have hroom : traceFull s = false := by
    simp only [traceFull, decide_eq_false_iff_not]
    omega
  simp only [trace, if_neg hon, hdrop, decide_true, Bool.true_or, if_true, tracePush, hroom, Bool.false_eq_true, if_false, tracePut, emit, hb, Bool.false_and]

theorem trace_clauses {cp : Nat} {pc : W32} (hlevel : s.dbg.level ≠ 0) (hb : s.dbg.boundary = false) (hfree : s.dbg.traceFree ≤ 3 * s.up) (hdrop : s.dbg.traceDropped = 0) :
    (∃ t, exec .traceSync s = .next t ∧ t.dbg.traceSyncs = (s.dbg.traceSyncs + 1) % 2 ^ 32 ∧ t.out = .trace (traceBits s 0 0 0 s.dbg.traceSyncs) :: s.out ∧ { t with dbg := s.dbg, out := s.out } = s) ∧
    (s.dbg.traceTypes.testBit 5 = false → exec (.tracePcSample cp pc) s = .next s) ∧
    (s.dbg.traceTypes.testBit 5 = true → ∃ t, exec (.tracePcSample cp pc) s = .next t ∧ t.out = .trace (traceBits s 5 0 cp pc.toNat) :: s.out ∧ { t with dbg := s.dbg, out := s.out } = s) := by
  let u : State := { s with dbg.traceSyncs := (s.dbg.traceSyncs + 1) % 2 ^ 32 }
  have hsync : trace u 0 0 0 s.dbg.traceSyncs = { u with dbg.traceFree := max (3 * s.up) s.dbg.traceFree + 80, out := .trace (traceBits s 0 0 0 s.dbg.traceSyncs) :: s.out } :=
    trace_sends (s := u) hlevel hb hfree hdrop (.inl rfl)
  refine ⟨⟨_, (if_neg hlevel).trans (congrArg Host.Outcome.next hsync), rfl, rfl, rfl⟩, fun h => congrArg Host.Outcome.next (if_pos (.inr ⟨by decide, by simp [h]⟩)),
    fun h => ⟨_, congrArg Host.Outcome.next (trace_sends hlevel hb hfree hdrop (.inr h)), rfl, rfl⟩⟩

theorem port_clauses {pins cells code : Nat} (hb : s.dbg.boundary = false) (hp : s.dbg.production = false) :
    exec .idcode s = .next (emit { s with dbg.ir := 2 } (.tdo 0x272403CF)) ∧
    (∀ c v, ((c = .extest ∧ v = 0) ∨ (c = .extestPulse ∧ v = 3) ∨ (c = .extestTrain ∧ v = 4)) →
      (s.dbg.level = 2 → ∃ t, exec c s = .next t ∧ t.dbg = { s.dbg with ir := v, boundary := true } ∧ t.out = .boundary s.dbg.cells :: s.out ∧ { t with dbg := s.dbg, out := s.out } = s) ∧
      (s.dbg.level ≠ 2 → ∃ t, exec c s = .next t ∧ t.dbg = { s.dbg with ir := v, refusedIr := satAdd 16 s.dbg.refusedIr 1 } ∧ { t with dbg := s.dbg, out := s.out } = s)) ∧
    (1 ≤ s.dbg.level → ∃ t, exec (.samplePreload pins cells) s = .next t ∧ t.dbg = { s.dbg with ir := 1, cells := cells } ∧ t.out = .tdo pins :: s.out ∧ { t with dbg := s.dbg, out := s.out } = s) ∧
    (s.dbg.level = 0 → ∃ t, exec (.samplePreload pins cells) s = .next t ∧ t.dbg = { s.dbg with ir := 1, refusedIr := satAdd 16 s.dbg.refusedIr 1 }) ∧
    (∃ t, exec (.bypass 0xFF) s = .next t ∧ t.dbg = { s.dbg with ir := 0xFF } ∧ t.out = .tdo 0 :: s.out) ∧
    (irDefined (code % 256) = true → exec (.bypass code) s = .next s) ∧
    (irDefined (code % 256) = false → code % 256 ≠ 0xFF → ∃ t, exec (.bypass code) s = .next t ∧ t.dbg = { s.dbg with ir := code % 256, refusedIr := satAdd 16 s.dbg.refusedIr 1 }) ∧
    (s.sec.lifecycle = 0 → s.dbg.level = 2 → s.dbg.source = 2 → exec (.productionInstruction code) s = .next { s with dbg.ir := 0x10 + code % 16, dbg.production := true }) ∧
    (s.sec.lifecycle ≠ 0 → ∃ t, exec (.productionInstruction code) s = .next t ∧ t.dbg.production = false ∧ t.dbg.refusedIr = satAdd 16 s.dbg.refusedIr 1) := by
  have hemit (u : State) (n : Nat) : emit u (.tdo n) = { u with out := .tdo n :: u.out } := by simp [emit, Output.atJ1]
  refine ⟨?_, fun c v hc => boundaryIr_clause hb hp hc, fun h => ⟨{ s with dbg.ir := 1, dbg.cells := cells, out := .tdo pins :: s.out }, ?_, rfl, rfl, rfl⟩, fun h => ⟨{ s with dbg.ir := 1, dbg.refusedIr := satAdd 16 s.dbg.refusedIr 1, out := .tdo 0 :: s.out }, ?_, rfl⟩,
    ⟨{ s with dbg.ir := 0xFF, out := .tdo 0 :: s.out }, ?_, rfl, rfl⟩, fun h => if_pos h, fun h hcode => ⟨{ s with dbg.ir := code % 256, dbg.refusedIr := satAdd 16 s.dbg.refusedIr 1, out := .tdo 0 :: s.out }, ?_, rfl⟩, fun hl hlevel hsrc => ?_,
    fun hl => ⟨{ s with dbg.ir := 0x10 + code % 16, dbg.refusedIr := satAdd 16 s.dbg.refusedIr 1, out := .tdo 0 :: s.out }, ?_, hp, rfl⟩⟩
  · rw [exec, execIdcode, loadIr_free hb hp, if_pos rfl]
  · rw [exec, execSamplePreload, loadIr_free hb hp, if_pos (by simpa using h), hemit]
  · rw [exec, execSamplePreload, loadIr_free hb hp, if_neg (by simp [h])]
  · rw [exec, execBypass, if_neg (by decide), loadIr_free hb hp, if_pos (by decide), hemit]
  · rw [exec, execBypass, if_neg (by simp [h]), loadIr_free hb hp, if_neg (by simpa using hcode)]
  · rw [exec, execProductionInstruction, loadIr_free hb hp, if_pos (by simp [hl, hlevel, hsrc])]
  · rw [exec, execProductionInstruction, loadIr_free hb hp, if_neg (by simp [hl])]

end Port

/-- Settles O60: the tests by what each write does to its link's counters, and the debug port by the instruction it loads. -/
theorem linkTestsAndDebugPort : Obligations.LinkTestsAndDebugPort := by
  refine ⟨fun s did l x hx => ?_, fun s pins cells code cp pc => ⟨fun hb hp => port_clauses hb hp, fun hb hir hpow => idcode_leaves hb hir hpow, fun hlevel => ?_, trace_clauses⟩⟩
  · obtain ⟨hnone, hstart, hstop⟩ := linkTest_clauses (did := did) hx
    subst hx
    exact ⟨hnone, hstart, hstop, patternChecker_clauses⟩
  · exact ⟨if_pos hlevel, congrArg Host.Outcome.next (if_pos (.inl hlevel))⟩

/-! ## The servo -/

/-! ### The servo (R101 to R107) -/

/-- A clamped value is within its limits. -/
theorem clampR_idem {lim : Rat} (h : 0 ≤ lim) (x : Rat) : clampR lim (clampR lim x) = clampR lim x := by
  have hlow : -lim ≤ lim := by linarith
  simp only [clampR]
  rw [min_eq_right (max_le hlow (min_le_left _ _)), max_eq_right (le_max_left _ _)]

/-- What the servo's records and roundings leave alone. -/
def servoCore (s : State) : Rat × Rat × Option Int × Nat × Nat × List Host.Cell := (s.tb.i, s.tb.y, s.tb.lastTheta, s.tb.rejects, s.now, s.mem)

theorem servoTo_core (s : State) (v : Servo) : servoCore (servoTo s v) = servoCore s := by
  simp only [servoTo]
  split
  · rfl
  · simp [servoCore]

@[simp] theorem servoTo_servo (s : State) (v : Servo) : (servoTo s v).tb.servo = v ∧ (servoTo s v).mem = s.mem := by
  simp only [servoTo]
  split <;> simp_all

theorem setY_core {s : State} (h : s.tb.servoEn = true) (y : Rat) : servoCore (setY s y) = (s.tb.i, clampR s.tb.freqLim y, s.tb.lastTheta, s.tb.rejects, s.now, s.mem) := by
  simp [setY, h, servoCore, tickFresh]

theorem setY_keeps (s : State) (y : Rat) : (setY s y).tb.servo = s.tb.servo ∧ (setY s y).mem = s.mem := by
  simp only [setY]
  split <;> exact ⟨rfl, rfl⟩

/-- A sample in TRACK or LOCKED (R105). -/
theorem trackSample_core {s : State} (h : s.tb.servoEn = true) (theta : Int) (tau : Nat) {r : Rat × Rat} (hr : r = servoStep ((s.tb.kp.toNat : Rat) / 65536) ((s.tb.ki.toNat : Rat) / 65536) s.tb.freqLim s.tb.i theta tau) :
    servoCore (trackSample s theta tau) = (r.1, clampR s.tb.freqLim r.2, s.tb.lastTheta, s.tb.rejects, s.now, s.mem) := by
  have hset : servoCore (setY { s with tb.i := r.1 } r.2) = (r.1, clampR s.tb.freqLim r.2, s.tb.lastTheta, s.tb.rejects, s.now, s.mem) :=
    setY_core (s := { s with tb.i := r.1 }) h r.2
  subst hr
  have hite {c : Prop} [Decidable c] {u v : State} {x} (hu : servoCore u = x) (hv : servoCore v = x) : servoCore (if c then u else v) = x := by
    split
    · exact hu
    · exact hv
  simp only [trackSample]
  generalize setY _ _ = u at hset
  exact hite (hite ((servoTo_core _ _).trans hset) hset) (hite ((servoTo_core _ _).trans hset) hset)

section Servo
variable {s : State}

/-- A PPS edge of the selected input and sense is a sample of the servo (R104). -/
theorem ppsInEdge_sample {sub : Nat} {stamp theta : Int} (hstamp : stamp = time16 s + (sub : Int) - (s.tb.inDelay * 16384 : Nat))
    (htheta : theta = (if 32768000000000 < stamp % 65536000000000 then stamp % 65536000000000 - 65536000000000 else stamp % 65536000000000)) (hsel : s.tb.ppsSel = false) (htod : s.tb.setTod = none) :
    exec (.ppsInEdge false s.tb.inFalling sub) s = .next (servoSample { s with tb.pps := some (stamp, s.tb.gen, false) } 2 theta) := by
  have hpass : ¬ (false ≠ s.tb.ppsSel ∨ s.tb.inFalling ≠ s.tb.inFalling ∨ (false = true ∧ (!fieldRuns s) = true)) := by simp [hsel]
  subst hstamp htheta
  rw [exec, execPpsInEdge, if_neg hpass]
  simp only [Bool.false_eq_true, false_and, if_false, Bool.false_and, htod]
  rfl

/-- The servo in TRACK takes the samples of its source. -/
theorem servoSample_track {theta : Int} (ht : s.tb.servo = .track) (hb : s.tb.onBackup = false) (hp : s.tb.srcPrimary = 2) : servoSample s 2 theta = judgeSample s theta := by
  simp [servoSample, ht, servoSource, hb, hp]

/-- An accepted sample in TRACK (R105). -/
theorem judgeSample_accepts {theta : Int} (hen : s.tb.servoEn = true) (ht : s.tb.servo = .track) (hre : s.tb.reacquire = false) (hok : ∀ p, s.tb.lastTheta = some p → thetaOver (theta - p) (s.tb.outlier * 100) = false) :
    (judgeSample s theta).tb.i = clampR s.tb.freqLim (s.tb.i + ((s.tb.ki.toNat : Rat) / 65536) * ((theta : Rat) / 65536) * (((s.up - s.tb.lastAt : Nat) : Rat) / 1000000000)) ∧
      (judgeSample s theta).tb.y = clampR s.tb.freqLim (-(((s.tb.kp.toNat : Rat) / 65536) * ((theta : Rat) / 65536) + (judgeSample s theta).tb.i)) ∧ (judgeSample s theta).tb.lastTheta = some theta ∧ (judgeSample s theta).tb.rejects = 0 ∧
      (judgeSample s theta).now = s.now ∧ (judgeSample s theta).mem = s.mem := by
  have htake : judgeSample s theta = trackSample (acceptSample s theta) theta (s.up - s.tb.lastAt) := by
    have hstay : (acceptSample s theta).tb.reacquire = false ∧ (acceptSample s theta).tb.servo = .track := ⟨hre, ht⟩
    cases h : s.tb.lastTheta with
    | none => simp [judgeSample, h, servoTake, hstay]
    | some p => simp [judgeSample, h, hok p h, servoTake, hstay]
  have hlim : (0 : Rat) ≤ s.tb.freqLim := Nat.cast_nonneg _
  have hcore := trackSample_core (s := acceptSample s theta) hen theta (s.up - s.tb.lastAt) rfl
  rw [← htake] at hcore
  simp only [servoCore, Prod.mk.injEq] at hcore
  obtain ⟨hi, hy, hlast, hrej, hnow, hmem⟩ := hcore
  exact ⟨hi, by rw [hy, hi]; exact clampR_idem hlim _, hlast, hrej, hnow, hmem⟩

/-- An outlier is rejected, at most three times running (R105). -/
theorem judgeSample_rejects {theta p : Int} (hp : s.tb.lastTheta = some p) (hbad : thetaOver (theta - p) (s.tb.outlier * 100) = true) (hr : s.tb.rejects < 3) : judgeSample s theta = { s with tb.rejects := s.tb.rejects + 1 } := by
  simp [judgeSample, hp, hbad, hr]

theorem pps_clauses {sub : Nat} {stamp theta : Int} (hstamp : stamp = time16 s + (sub : Int) - (s.tb.inDelay * 16384 : Nat))
    (htheta : theta = (if 32768000000000 < stamp % 65536000000000 then stamp % 65536000000000 - 65536000000000 else stamp % 65536000000000)) (hsel : s.tb.ppsSel = false) (htod : s.tb.setTod = none) (hen : s.tb.servoEn = true)
    (ht : s.tb.servo = .track) (hb : s.tb.onBackup = false) (hsrc : s.tb.srcPrimary = 2) (hre : s.tb.reacquire = false) :
    ((∀ p, s.tb.lastTheta = some p → thetaOver (theta - p) (s.tb.outlier * 100) = false) →
      ∃ t, exec (.ppsInEdge false s.tb.inFalling sub) s = .next t ∧
        t.tb.i = clampR s.tb.freqLim (s.tb.i + ((s.tb.ki.toNat : Rat) / 65536) * ((theta : Rat) / 65536) * (((s.up - s.tb.lastAt : Nat) : Rat) / 1000000000)) ∧
        t.tb.y = clampR s.tb.freqLim (-(((s.tb.kp.toNat : Rat) / 65536) * ((theta : Rat) / 65536) + t.tb.i)) ∧ t.tb.lastTheta = some theta ∧ t.tb.rejects = 0 ∧ t.now = s.now ∧ t.mem = s.mem) ∧
    (∀ p, s.tb.lastTheta = some p → thetaOver (theta - p) (s.tb.outlier * 100) = true → s.tb.rejects < 3 →
      exec (.ppsInEdge false s.tb.inFalling sub) s = .next { s with tb.pps := some (stamp, s.tb.gen, false), tb.rejects := s.tb.rejects + 1 }) := by
  let u : State := { s with tb.pps := some (stamp, s.tb.gen, false) }
  have hexec : exec (.ppsInEdge false s.tb.inFalling sub) s = .next (judgeSample u theta) := by
    rw [ppsInEdge_sample hstamp htheta hsel htod, servoSample_track (s := u) ht hb hsrc]
  exact ⟨fun hok => ⟨judgeSample u theta, hexec, judgeSample_accepts (s := u) hen ht hre hok⟩, fun p hp hbad hr => hexec.trans (congrArg Host.Outcome.next (judgeSample_rejects (s := u) hp hbad hr))⟩

theorem servoSample_clauses {port : Nat} {p : PtpPort} (hp : p = ptpPort s port) :
    (∀ seq m n, (∀ t1, p.sync ≠ some (seq, t1)) → exec (.servoSample port seq m n) s = .next s) ∧
    (∀ m n seq t1 e theta, p.sync = some (seq, t1) → p.enable = true → asCapable s p = true → servoSource s ≠ 2 →
      s.tb.ingress.find? (fun e => e.port == port && e.type == 0 && e.seq == seq) = some e → portTheta s p t1 e.time e.gen = some theta →
      exec (.servoSample port seq m n) s = .next (servoSample (readStamps (setPtp s port { p with sync := none }) port m n) 1 theta)) := by
  subst hp
  refine ⟨fun seq m n hnone => ?_, fun m n seq t1 e theta hsync hen hcap hsrc hfind htheta => ?_⟩
  · cases h : (ptpPort s port).sync with
    | none => simp only [exec, execServoSample, h]
    | some x =>
      have hother : x.1 ≠ seq := fun heq => hnone x.2 (by rw [h, ← heq])
      simp only [exec, execServoSample, h, if_pos hother]
  · have hsame (u : State) (hprof : u.tb.profile = s.tb.profile) (hbackup : u.tb.onBackup = s.tb.onBackup) (hb : u.tb.srcBackup = s.tb.srcBackup) (hprim : u.tb.srcPrimary = s.tb.srcPrimary) :
        portTheta u (ptpPort s port) t1 e.time e.gen = some theta ∧ asCapable u (ptpPort s port) = true ∧ servoSource u ≠ 2 := by
      refine ⟨?_, ?_, ?_⟩
      · simpa [portTheta, peerDelay, hprof] using htheta
      · simpa [asCapable, hprof] using hcap
      · simpa [servoSource, hbackup, hb, hprim] using hsrc
    obtain ⟨htheta', hcap', hsrc'⟩ := hsame (readStamps (setPtp s port { ptpPort s port with sync := none }) port m n) rfl rfl rfl rfl
    have hready : ¬ ((!(ptpPort s port).enable) = true ∨ (!asCapable (readStamps (setPtp s port { ptpPort s port with sync := none }) port m n) (ptpPort s port)) = true) := by
      rw [hen, hcap']
      decide
    simp only [exec, execServoSample, hsync, ne_eq, not_true_eq_false, if_false, hfind, Option.bind_some, htheta', if_neg hready, hsrc', false_and]

/-- Holdover begins when the last accepted sample is holdover_delay old (R106). -/
theorem holdover_clause (h : s.tb.servo = .track ∨ s.tb.servo = .locked) : ∃ t, exec .servoHoldoverTimeout s = .next t ∧ t.tb.servo = .holdover ∧ t.tb.onBackup = false ∧ t.mem = s.mem := by
  let u := servoTo (advanceUp s (s.tb.lastAt + s.tb.holdoverDelay * 1000000)) .holdover
  obtain ⟨hservo, hmem⟩ := servoTo_servo (advanceUp s (s.tb.lastAt + s.tb.holdoverDelay * 1000000)) .holdover
  let v := setY u (if u.tb.everLocked then meanR u.tb.lockedY else u.tb.i)
  obtain ⟨hset, hsetmem⟩ := setY_keeps u (if u.tb.everLocked then meanR u.tb.lockedY else u.tb.i)
  refine ⟨{ v with tb.holdAt := v.up, tb.onBackup := false, tb.backupSeen := false }, ?_, hset.trans hservo, rfl, hsetmem.trans (hmem.trans (by simp))⟩
  rcases h with h | h
  · simp only [exec, execServoHoldoverTimeout, h]
    rfl
  · simp only [exec, execServoHoldoverTimeout, h]
    rfl

end Servo

/-- Settles O13: an accepted sample by its step of R105, a PTP sample by its time-stamps, and the entry into holdover. -/
theorem servoBehaviour : Obligations.ServoBehaviour := by
  refine ⟨fun s sub stamp theta hstamp htheta hsel htod hen ht hb hsrc hre => pps_clauses hstamp htheta hsel htod hen ht hb hsrc hre, fun s port p hp => servoSample_clauses hp, fun s => ⟨holdover_clause, fun h => ?_, fun h => if_pos h, fun h => if_neg (by omega)⟩⟩
  simp only [exec, execServoHoldoverTimeout, h]

/-! ## PTP messages, PPS edges and the 10 MHz gate -/

/-! ### PTP messages, PPS edges and the 10 MHz gate (R104 to R116) -/

section Ptp
variable {s : State} {m : PtpMsg}

theorem ptpMessageRx_ignored (h : (ptpPort s m.port).enable = false ∨ m.transport ≠ (ptpPort s m.port).transport) : exec (.ptpMessageRx m) s = .next s := by
  rw [exec, execPtpMessageRx, if_pos]
  obtain hen | ht := h
  · exact .inr (.inl (by simp [hen]))
  · exact .inr (.inr ht)

theorem ptpMessageTx_disabled (h : (ptpPort s m.port).enable = false) : exec (.ptpMessageTx m) s = .next s := by
  rw [exec, execPtpMessageTx, if_pos (.inr (.inl (by simp [h])))]

/-- What an enabled port on its own transport and in its own domain passes on (R110). -/
structure PtpHeard (s : State) (m : PtpMsg) : Prop where
  port : m.port < 10
  enable : (ptpPort s m.port).enable = true
  transport : m.transport = (ptpPort s m.port).transport

theorem PtpHeard.passes (h : PtpHeard s m) : ¬ (10 ≤ m.port ∨ (!(ptpPort s m.port).enable) = true ∨ m.transport ≠ (ptpPort s m.port).transport) := by
  obtain ⟨hport, hen, ht⟩ := h
  simpa [hen, ht] using hport

theorem ptpMessageRx_counted (h : PtpHeard s m) (hn : m.unsupported = true ∨ m.domain ≠ ptpDomain s) :
    exec (.ptpMessageRx m) s = .next { s with tb.unsupported := s.tb.unsupported + 1 } := by
  rw [exec, execPtpMessageRx, if_neg h.passes, if_pos hn]

theorem not_counted (hu : m.unsupported = false) (hd : m.domain = ptpDomain s) : ¬ (m.unsupported = true ∨ m.domain ≠ ptpDomain s) := by
  simp [hu, hd]

/-- A Sync received is time-stamped, and one of the parent of a SLAVE is kept (R112, R114). -/
theorem ptpMessageRx_sync (h : PtpHeard s m) (hu : m.unsupported = false) (hd : m.domain = ptpDomain s) (hty : m.type = 0) :
    exec (.ptpMessageRx m) s = .next (if (ptpPort s m.port).role ≠ 0 ∧ m.fromParent = true then takeSync (stampIn s m.port 0 m.seq m.sub).2 m else (stampIn s m.port 0 m.seq m.sub).2) := by
  rw [exec, execPtpMessageRx, if_neg h.passes, if_neg (not_counted hu hd)]
  simp [hty, ptpEvent]

/-- An Announce of the parent with a valid UTC offset has it stored (R114). -/
theorem ptpMessageRx_announce (h : PtpHeard s m) (hu : m.unsupported = false) (hd : m.domain = ptpDomain s) (hty : m.type = 0xB)
    (hrole : (ptpPort s m.port).role ≠ 0) (hpar : m.fromParent = true) (hutc : m.utcValid = true) :
    exec (.ptpMessageRx m) s = .next { s with tb.utcValid := true, tb.utcOffset := m.utcOffset % 65536 } := by
  rw [exec, execPtpMessageRx, if_neg h.passes, if_neg (not_counted hu hd)]
  simp [hty, ptpEvent, hrole, hpar, hutc]

/-- A receive stamp is the counter less the delays of the port and of the mode that it runs (R112). -/
theorem stampIn_room {port type seq sub : Nat} (h : (s.tb.ingress.filter (fun e => e.port == port)).length < 64) :
    (stampIn s port type seq sub).2 = { s with tb.ingress := s.tb.ingress ++ [{ port := port, seq := seq, type := type, gen := s.tb.gen, time := ((s.now * 65536 + s.tb.frac : Nat) : Int) + sub - (internalDelay (speedMode (ingPort s port).speed)).2 - (ptpPort s port).extRx.toInt }] } := by
  rw [stampIn]
  exact congrArg Prod.snd (if_neg (by simpa [stampsOf] using h))

theorem takeSync_of_sync (hty : m.type = 0) : takeSync s m = setPtp s m.port { ptpPort s m.port with sync := if m.twoStep then none else some (m.seq, m.time + m.corr) } := by
  simp [takeSync, hty]

theorem stampOut_room {port type seq sub : Nat} (h : (s.tb.egress.filter (fun e => e.port == port)).length < 64) :
    (stampOut s port type seq sub).2 = { s with tb.egress := s.tb.egress ++ [{ port := port, seq := seq, type := type, gen := s.tb.gen, time := ((s.now * 65536 + s.tb.frac : Nat) : Int) + sub + (internalDelay (speedMode (ingPort s port).speed)).1 + (ptpPort s port).extTx.toInt }] } := by
  rw [stampOut]
  exact congrArg Prod.snd (if_neg (by simpa [stampsOf] using h))

/-- A management frame touches neither the time base nor memory. -/
theorem sendMgmt_tb_mem (s : State) (port kind : Nat) (bytes : List Byte) : (sendMgmt s port kind bytes).tb = s.tb ∧ (sendMgmt s port kind bytes).mem = s.mem := by
  rw [sendMgmt]
  split
  · simp
  dsimp only
  split
  · simp
  generalize (ite ((plantPort s (port - 8)).mgmtSecond = s.now / 1000000000) _ _) = n
  split <;> simp [tickFresh]

/-- A one-step Sync of a port that is not a SLAVE leaves with its egress stamp queued (R111, R112). -/
theorem ptpMessageTx_oneStep (hport : m.port < 10) (hen : (ptpPort s m.port).enable = true) (hp : s.tb.profile ≠ 1) (hone : (ptpPort s m.port).oneStep = true)
    (hty : m.type = 0) (hrole : (ptpPort s m.port).role ≠ 1) :
    ∃ t, exec (.ptpMessageTx m) s = .next t ∧ t.tb = (stampOut s m.port 0 m.seq m.sub).2.tb ∧ t.mem = (stampOut s m.port 0 m.seq m.sub).2.mem := by
  have hsends : ptpSends s (ptpPort s m.port) m.type = true := by simp [hty, ptpSends, hrole, asCapable, hp]
  refine ⟨(sendEvent s m.port 0 m.seq m.sub false (ptpPort s m.port).logSync (List.replicate 10 0)).2, ?_, sendMgmt_tb_mem ..⟩
  rw [exec, execPtpMessageTx, if_neg (by simp [hen, hsends]; omega), if_neg (by omega)]
  generalize List.replicate 10 (0 : Byte) = body
  simp [hty, hone]
  split <;> rfl

end Ptp

section Pps
variable {s : State}

/-- A pending SET_TOD takes effect at the edge of the selected input: the counter reads its operand (R108). -/
theorem ppsInEdge_setTod {tod : Nat} (hset : s.tb.setTod = some tod) (hsel : s.tb.ppsSel = false) (hcad : cadActive s = false) (hdel : s.tb.inDelay = 0) (hlt : tod < 2 ^ 64) :
    ∃ t, exec (.ppsInEdge false s.tb.inFalling 0) s = .next t ∧ t.now = tod ∧ t.tb.setTod = none ∧ t.tb.gen = (s.tb.gen + 1) % 16 := by
  have hq : cadActive { s with tb.pps := some (time16 s, s.tb.gen, false), tb.setTod := none } = false := hcad
  refine ⟨stepBy { s with tb.pps := some (time16 s, s.tb.gen, false), tb.setTod := none } (((tod * 65536 : Nat) : Int) - time16 s), ?_, ?_, ?_, ?_⟩
  · have hstamp : time16 s + ((0 : Nat) : Int) - ((s.tb.inDelay * 16384 : Nat) : Int) = time16 s := by simp [hdel]
    rw [exec, execPpsInEdge, if_neg (by simp [hsel])]
    simp only [Bool.false_eq_true, false_and, if_false, hstamp, Bool.false_and, hset]
    rw [stepDue, if_neg (by simp [hq])]
  · have htime : time16 { s with tb.pps := some (time16 s, s.tb.gen, false), tb.setTod := none } = time16 s := rfl
    simp only [stepBy, htime]
    omega
  · rfl
  · rfl

/-- The second of PPS_OUT: a whole second less out_delay, the next at or after the instant (R116). -/
theorem ppsInstant_bounds (s : State) (now : Int) : (ppsInstant s now + (s.tb.outDelay * 16384 : Nat)) % 65536000000000 = 0 ∧ now ≤ ppsInstant s now ∧ ppsInstant s now < now + 65536000000000 := by
  simp only [ppsInstant]
  omega

theorem ppsOutEdge_driven (hd : ppsDriven s = true) (hen : s.tb.outEn = true) (hfld : s.tb.fldOutEn = false) (hb : s.dbg.boundary = false) :
    exec .ppsOutEdge s = .next { advanceTo s (ppsInstant s (time16 s) / 65536).toNat with out := .pin 3 1 :: .pps false (ppsInstant s (time16 s)) s.tb.outWidth :: s.out } := by
  have hdriven : ppsDriven (advanceTo s (ppsInstant s (time16 s) / 65536).toNat) = true := hd
  rw [exec, execPpsOutEdge]
  simp [hdriven, hen, hfld, emit, hb, pinClk10m]

theorem ppsOutEdge_idle (hd : ppsDriven s = false) : exec .ppsOutEdge s = .next (advanceTo s (ppsInstant s (time16 s) / 65536).toNat) := by
  have hdriven : ppsDriven (advanceTo s (ppsInstant s (time16 s) / 65536).toNat) = false := hd
  rw [exec, execPpsOutEdge]
  simp [hdriven]

end Pps

/-- Settles O14: the stamps of received and sent messages, the operand of SET_TOD at its edge, and the arithmetic of the next whole second. -/
theorem ptpAndTimingPins : Obligations.PtpAndTimingPins := by
  unfold Obligations.PtpAndTimingPins
  refine ⟨fun s m hport => ⟨?disabled, ?transport, ?counted, ?sync, ?announce, ?tx⟩, fun s => ⟨?setTod, ?unselected, ?driven, ?idle, ?valid, ?invalid, rfl⟩⟩
  case disabled => exact fun h => ⟨ptpMessageRx_ignored (.inl h), ptpMessageTx_disabled h⟩
  case transport => exact fun h => ptpMessageRx_ignored (.inr h)
  case counted => exact fun hen ht => ptpMessageRx_counted ⟨hport, hen, ht⟩
  case sync =>
    rintro hen ht hu hd hty hroom u rfl
    rw [ptpMessageRx_sync ⟨hport, hen, ht⟩ hu hd hty, stampIn_room hroom, takeSync_of_sync hty]
    refine ⟨fun h => ?_, fun hrole hpar => ?_⟩
    · rw [if_neg (by obtain h | h := h <;> simp [h])]
    · rw [if_pos ⟨hrole, hpar⟩]
      rfl
  case announce => exact fun hen ht hu hd hty => ptpMessageRx_announce ⟨hport, hen, ht⟩ hu hd hty
  case tx =>
    intro hen hp hone hty hrole hroom
    obtain ⟨t, ht, htb, hmem⟩ := ptpMessageTx_oneStep hport hen hp hone hty hrole
    rw [stampOut_room hroom] at htb hmem
    exact ⟨t, ht, by rw [htb], hmem⟩
  case setTod => exact fun _ => ppsInEdge_setTod
  case unselected =>
    intro f n hf
    rw [exec, execPpsInEdge, if_pos (.inl hf)]
  case driven =>
    intro hd hen hfld hb
    obtain ⟨hmod, hle, hlt⟩ := ppsInstant_bounds s (time16 s)
    exact ⟨_, _, ppsOutEdge_driven (by simpa [ppsDriven, or_assoc] using hd) hen hfld hb, rfl, hmod, hle, hlt, rfl⟩
  case idle => exact fun hforce hfree => ⟨_, ppsOutEdge_idle (by simp [ppsDriven, hforce, hfree]), rfl⟩
  case valid => exact fun f hf => by rw [exec, execClk10mGate]; simp [hf]
  case invalid => exact fun f hf => by rw [exec, execClk10mGate]; simp [Nat.not_le.2 hf]

/-! ## Settings and channels of the field die -/

/-! ### The field die's settings and channels (R591 to R597, R605) -/

theorem ofLe_leBytes (n v : Nat) : ofLe (leBytes n v) = v % 256 ^ n := by
  induction n generalizing v with
  | zero => simp [leBytes, ofLe, Nat.mod_one]
  | succ n ih => 
    rw [leBytes, ofLe, ih, BitVec.toNat_ofNat, show (256 : Nat) ^ (n + 1) = 256 * 256 ^ n from Nat.pow_succ', Nat.mod_mul (a := 256)]

theorem unsigned_lt (n : Nat) (i : Int) : unsigned n i < 2 ^ n := by
  have hpos : (0 : Int) < ((2 ^ n : Nat) : Int) := by positivity
  have h := Int.emod_lt_of_pos i hpos
  rw [unsigned]
  omega

section FieldSettings
variable {s : State} {d : Desc} {k : Nat}

theorem cadBusy_eq_false {c : Nat} : cadBusy s c = false ↔ (cadOf s c).st = .stopped := by simp [cadBusy]

/-- FLD_BANK: the mode of a bank that no active cadence drives, in force at once where the die is linked (R591). -/
theorem fldBank_clauses (hk : k = dfld d 16 0 2) (ha : Accepted s d (infoFldBank s d)) :
    (dfld d 17 0 2 ≠ 3 → (∀ p ∈ s.trig.outs, p.1 / 8 = k → (cadOf s p.2.cadence).st = .stopped) →
      Completes (.fldBank d) s d 0 0 { markStarted s d with fld.bankCfg := s.fld.bankCfg.put k (dfld d 17 0 2), fld.banks := if fieldRuns s && s.fldT.linkUp then s.fld.banks.put k (dfld d 17 0 2) else s.fld.banks }) ∧
    (∀ p ∈ s.trig.outs, p.1 / 8 = k → (cadOf s p.2.cadence).st ≠ .stopped → Refuses (.fldBank d) s d stDescInvalid) ∧
    (dfld d 17 0 2 = 3 → Refuses (.fldBank d) s d stDescInvalid) := by
  subst hk
  have hany : (markStarted s d).trig.outs.any (fun p => p.1 / 8 == dfld d 16 0 2 && cadBusy (markStarted s d) p.2.cadence) = true ↔ ∃ p ∈ s.trig.outs, p.1 / 8 = dfld d 16 0 2 ∧ (cadOf s p.2.cadence).st ≠ .stopped := by
    simp [cadBusy, cadOf]
  refine ⟨fun hm hst => ?_, fun p hp hb hst => ?_, fun hm => refuses_of_done ha rfl (if_pos (.inl hm))⟩
  · have hfree : ¬ ∃ p ∈ s.trig.outs, p.1 / 8 = dfld d 16 0 2 ∧ (cadOf s p.2.cadence).st ≠ .stopped := fun ⟨p, hp, hb, hn⟩ => hn (hst p hp hb)
    refine completes_of_done ha rfl ?_
    dsimp only
    rw [if_neg (not_or.2 ⟨hm, mt hany.1 hfree⟩)]
    generalize hu : markStarted s d = u
    obtain ⟨hft, hfld, hruns⟩ : u.fldT = s.fldT ∧ u.fld = s.fld ∧ fieldRuns u = fieldRuns s := by simp [← hu, fieldRuns]
    rw [← hft, ← hfld, ← hruns]
    by_cases hon : (fieldRuns u && u.fldT.linkUp) = true
    · rw [if_pos hon]
      exact congrArg (okWith · 0) (if_pos hon)
    · rw [if_neg hon]
      exact congrArg (okWith · 0) (if_neg hon)
  · exact refuses_of_done ha rfl (if_pos (.inr (hany.2 ⟨p, hp, hb, hst⟩)))

/-- FLD_ENC: an input whose sample period divides its cadence's in steps of 10 µs (R594). -/
theorem fldEnc_clauses {e : EncCfg} (hk : k = dfld d 16 0 3) (he : e = { htl := dbit d 17 0, enable := dbit d 17 7, cadence := dfld d 18 0 5, k := dfld d 20 0 32, filter := dfld d 24 0 8 })
    (ha : Accepted s d (infoFldEnc s d)) :
    (e.k ≤ 1000000 → e.filter ≤ 100 → encFits (cadOf s e.cadence) e = true →
      Completes (.fldEnc d) s d ((cadOf s e.cadence).period / e.k / 1000) 0 { markStarted s d with fld.cfg.enc := s.fld.cfg.enc.put k e }) ∧
    (1000000 < e.k ∨ 100 < e.filter → Refuses (.fldEnc d) s d stDescInvalid) := by
  have hcad : ∀ c, cadOf (markStarted s d) c = cadOf s c := fun c => by simp [cadOf]
  subst hk he
  refine ⟨fun hk' hf hfit => completes_of_done ha rfl ?_, fun h => refuses_of_done ha rfl ?_⟩
  · dsimp only at *
    rw [hcad, if_neg (by simp [hfit]; omega)]
    generalize hu : markStarted s d = u
    have hfld : u.fld = s.fld := by simp [← hu]
    rw [← hfld]
    rfl
  · dsimp only at *
    rw [if_pos (by omega)]

/-- FLD_SERIAL of a port of a die that does not run: the settings are held until it does (R595). -/
theorem fldSerial_clauses {x : SerCfg} (hk : k = dfld d 16 0 3)
    (hx : x = { mode := dfld d 17 0 2, parity := dfld d 17 2 2, framing := dfld d 17 4 2, gap := dfld d 18 0 8, syncCount := dfld d 19 0 8, sync := dfld d 20 0 16, length := dfld d 22 0 16, rate := dfld d 24 0 32 })
    (ha : Accepted s d (infoFldSerial s d)) :
    (x.mode ≠ 3 → x.parity ≠ 3 → x.framing = 1 → x.syncCount ≤ 2 → 1 ≤ x.length → x.length ≤ 1024 → 9600 ≤ x.rate → x.rate ≤ 12000000 → fieldRuns s = false →
      100 * (max (serialRate x.rate) x.rate - min (serialRate x.rate) x.rate) ≤ x.rate →
      Completes (.fldSerial d) s d (serialRate x.rate) 0 { markStarted s d with fld.cfg.ser := s.fld.cfg.ser.put k x }) ∧
    (x.mode = 3 ∨ x.parity = 3 ∨ x.framing = 3 ∨ x.length = 0 ∨ 1024 < x.length ∨ x.rate < 9600 ∨ 12000000 < x.rate → Refuses (.fldSerial d) s d stDescInvalid) := by
  subst hk hx
  refine ⟨fun hm hp hf hsync hl hl' hr hr' hruns hrate => completes_of_done ha rfl ?_, fun h => refuses_of_done ha rfl ?_⟩
  · dsimp only at *
    rw [if_neg (by omega), if_neg (by omega)]
    generalize hu : markStarted s d = u
    have hfld : u.fld = s.fld := by simp [← hu]
    have hoff (c : FldCfg) : fieldRuns { u with fld.cfg := c } = false := by rw [← hruns]; simp only [fieldRuns, hfld]
    rw [← hfld]
    rw [if_neg (by simp [hoff])]
    rfl
  · dsimp only at *
    rw [if_pos (by omega)]

/-- FLD_DIN of an input of a die that does not run (R597). -/
theorem fldDin_clauses {x : DinCfg} (hk : k = dfld d 16 0 3) (hx : x = { edges := dfld d 17 0 2, enable := dbit d 17 7, filter := dfld d 20 0 32 })
    (ha : Accepted s d (infoFldDin s d)) :
    (x.edges ≠ 0 → x.filter ≤ 10000 → fieldRuns s = false → Completes (.fldDin d) s d 0 0 { markStarted s d with fld.cfg.din := s.fld.cfg.din.put k x }) ∧
    (x.edges = 0 ∨ 10000 < x.filter → Refuses (.fldDin d) s d stDescInvalid) := by
  subst hk hx
  refine ⟨fun he hf hruns => completes_of_done ha rfl ?_, fun h => refuses_of_done ha rfl ?_⟩
  · dsimp only at *
    rw [if_neg (by omega)]
    generalize hu : markStarted s d = u
    have hfld : u.fld = s.fld := by simp [← hu]
    have hoff (c : FldCfg) : fieldRuns { u with fld.cfg := c } = false := by rw [← hruns]; simp only [fieldRuns, hfld]
    rw [← hfld]
    rw [if_neg (by simp [hoff])]
    rfl
  · dsimp only at *
    rw [if_pos h]

end FieldSettings

section FieldChannels
variable {s : State} {k : Nat}

/-- In valid field time and over a linked pair a record goes behind those on their way (R590). -/
theorem sendRec_linked {r : FieldRec} (hv : s.fldT.valid = true) (hl : s.fldT.linkUp = true) : sendRec s r = { s with fld.buffer := s.fld.buffer ++ [r] } := by
  rw [sendRec, if_neg (by simp [hv]), if_pos hl]

theorem encoderSample_sends {e : EncCfg} {n j t zs : Nat} {edges : Int} (hruns : fieldRuns s = true) (hv : s.fldT.valid = true) (hl : s.fldT.linkUp = true)
    (he : s.fld.live.enc.find k = some e) (hen : e.enable = true) (hn : nextSample s e (Tbl.at EncSt.reset s.fld.enc k) = some (n, j, t)) :
    ∃ u r, exec (.encoderSample k edges zs false false) s = .next u ∧ u.fld.buffer = s.fld.buffer ++ [r] ∧ r.kind = 0 ∧ r.channel = k ∧
      r.payload.length = 16 ∧ ofLe (r.payload.take 8) = unsigned 64 ((Tbl.at EncSt.reset s.fld.enc k).position + edges) ∧
      (Tbl.at EncSt.reset u.fld.enc k).position = (Tbl.at EncSt.reset s.fld.enc k).position + edges ∧
      (Tbl.at EncSt.reset u.fld.enc k).last = some (n, j) ∧ u.mem = s.mem := by
  rw [exec, execEncoderSample]
  simp only [he]
  rw [if_neg (by simp [hruns, hen])]
  simp only [hn]
  rw [sendRec_linked (by exact hv) (by exact hl)]
  refine ⟨_, _, rfl, rfl, rfl, rfl, ?_, ?_, ?_, ?_, rfl⟩
  · simp [recAt]
  · have h := unsigned_lt 64 ((Tbl.at EncSt.reset s.fld.enc k).position + edges)
    simp only [recAt, List.append_assoc]
    rw [List.take_left' (length_leBytes ..), ofLe_leBytes]
    exact Nat.mod_eq_of_lt h
  · exact congrArg EncSt.position (Tbl.at_put_same ..)
  · exact congrArg EncSt.last (Tbl.at_put_same ..)

theorem serialRecord_sends {c : SerCfg} {bytes : List Byte} {back : Nat} (hruns : fieldRuns s = true) (hv : s.fldT.valid = true) (hl : s.fldT.linkUp = true)
    (hc : s.fld.live.ser.find k = some c) (hm : c.mode ≠ 0) (hne : bytes ≠ []) (hf : framed c bytes = true) (hlen : bytes.length ≤ 1024) :
    ∃ u r, exec (.serialRecord k bytes back true) s = .next u ∧ u.fld.buffer = s.fld.buffer ++ [r] ∧ r.kind = 1 ∧ r.payload = bytes ∧ r.time = fieldTime s - back ∧
      (Tbl.at SerSt.reset u.fld.ser k).records = satAdd 20 (Tbl.at SerSt.reset s.fld.ser k).records 1 ∧ u.mem = s.mem := by
  rw [exec, execSerialRecord]
  simp only [hc]
  rw [if_neg (by simp [hruns, hm, hne, hf]), if_pos ⟨trivial, hlen⟩, sendRec_linked (by exact hv) (by exact hl)]
  exact ⟨_, _, rfl, rfl, rfl, rfl, rfl, congrArg SerSt.records (Tbl.at_put_same ..), rfl⟩

theorem serialRecord_discarded {c : SerCfg} {bytes : List Byte} {back : Nat} (hruns : fieldRuns s = true) (hc : s.fld.live.ser.find k = some c) (hm : c.mode ≠ 0) (hne : bytes ≠ []) :
    ∃ u, exec (.serialRecord k bytes back false) s = .next u ∧ u.fld.buffer = s.fld.buffer ∧
      (Tbl.at SerSt.reset u.fld.ser k).discards = satAdd 12 (Tbl.at SerSt.reset s.fld.ser k).discards 1 ∧ u.mem = s.mem := by
  rw [exec, execSerialRecord]
  simp only [hc]
  rw [if_neg (by simp [hruns, hm, hne]), if_neg (by simp)]
  refine ⟨_, rfl, ?_⟩
  split
  · exact ⟨rfl, congrArg SerSt.discards (Tbl.at_put_same ..), rfl⟩
  · simp

theorem digitalInputChange_glitch {c : DinCfg} {held : Nat} {lv : Bool} (hruns : fieldRuns s = true) (hc : s.fld.live.din.find k = some c) (hen : c.enable = true)
    (hlv : lv ≠ (Tbl.at DinSt.reset s.fld.din k).level) (hheld : held < c.filter * 1000) :
    exec (.digitalInputChange k held lv) s = .next { s with fld.din := s.fld.din.put k { Tbl.at DinSt.reset s.fld.din k with glitches := satAdd 16 (Tbl.at DinSt.reset s.fld.din k).glitches 1 } } := by
  rw [exec, execDigitalInputChange]
  simp only [hc]
  rw [if_neg (by simp [hruns, hen, hlv]), if_pos hheld]

theorem digitalInputChange_taken {c : DinCfg} {held : Nat} {lv : Bool} (hruns : fieldRuns s = true) (hv : s.fldT.valid = true) (hl : s.fldT.linkUp = true)
    (hc : s.fld.live.din.find k = some c) (hen : c.enable = true) (hlv : lv ≠ (Tbl.at DinSt.reset s.fld.din k).level) (hheld : c.filter * 1000 ≤ held) :
    ∃ u, exec (.digitalInputChange k held lv) s = .next u ∧ (Tbl.at DinSt.reset u.fld.din k).level = lv ∧
      (c.edges.testBit (if lv then 0 else 1) = true → u.fld.buffer.length = s.fld.buffer.length + 1) ∧ u.mem = s.mem := by
  rw [exec, execDigitalInputChange]
  simp only [hc]
  rw [if_neg (by simp [hruns, hen, hlv]), if_neg (by omega)]
  by_cases hedge : c.edges.testBit (if lv then 0 else 1) = true
  · rw [if_pos hedge, sendRec_linked (by exact hv) (by exact hl)]
    exact ⟨_, rfl, congrArg DinSt.level (Tbl.at_put_same ..), fun _ => by simp, rfl⟩
  · rw [if_neg hedge]
    exact ⟨_, rfl, congrArg DinSt.level (Tbl.at_put_same ..), fun h => absurd h hedge, rfl⟩

end FieldChannels

/-- Settles O16: each setting is one table entry behind its range check, and each channel event one record behind those on their way. -/
theorem fieldChannels : Obligations.FieldChannels := by
  unfold Obligations.FieldChannels
  refine ⟨fun s d k => ⟨fldBank_clauses, fun _ => fldEnc_clauses, fun _ => fldSerial_clauses, fun _ => fldDin_clauses⟩, fun s k hruns hv hl => ⟨?encoder, ?serial, ?discard, ?input⟩⟩
  case encoder => exact fun e n j t edges zs => encoderSample_sends hruns hv hl
  case serial => exact fun c bytes back => serialRecord_sends hruns hv hl
  case discard => exact fun c bytes back => serialRecord_discarded hruns
  case input =>
    intro c held lv hc hen hlv
    refine ⟨fun hheld => ⟨_, digitalInputChange_glitch hruns hc hen hlv hheld, ?_, ?_, rfl⟩, digitalInputChange_taken hruns hv hl hc hen hlv⟩
    · simp
    · simp

/-! ## Trigger outputs, actions and monitors at their instants -/

/-! ### Trigger outputs, scheduled actions and trigger monitors at their instants (R126 to R133) -/

section TriggerOutputs
variable {s : State} {k : Nat} {o : TrigOut}

theorem outputLive_iff : outputLive s k = true ↔ fieldRuns s = true ∧ s.fldT.valid = true ∧ s.fld.overvoltage = false ∧ s.power.pstate ≤ 2 ∧ Tbl.at 0 s.fld.banks (k / 8) ≠ 0 := by
  simp [outputLive, and_assoc]

/-- Noting an instant touches the monitors alone. -/
theorem noteInstant_frame (s : State) (action : Bool) (source t : Nat) : { noteInstant s action source t with trig.mons := s.trig.mons } = s := rfl

/-- The end of the pulse in progress: an inactive edge (R126). -/
theorem triggerEdge_ends {t : Nat} (ho : s.trig.outs.find k = some o) (hl : outputLive s k = true) (hb : s.dbg.boundary = false) (ht : o.activeUntil = some t) :
    ∃ u, exec (.triggerEdge k) s = .next u ∧ u.trig.outs.find k = some { o with activeUntil := none } ∧
      u.out = .edge k (o.fired.getD 0) ((t * 65536 : Nat) : Int) false o.activeLow s.fldT.hold :: s.out ∧ u.mem = s.mem := by
  rw [exec, execTriggerEdge]
  simp only [ho, hl, Bool.not_true, Bool.false_eq_true, if_false, ht]
  refine ⟨_, rfl, ?_, ?_, ?_⟩ <;> simp [emit, hb, advanceField]

/-- The next selected epoch's active edge, with none in progress (R126). -/
theorem triggerEdge_fires {n t : Nat} (ho : s.trig.outs.find k = some o) (hl : outputLive s k = true) (hb : s.dbg.boundary = false) (hidle : o.activeUntil = none)
    (hload : s.fld.overload.find k = none) (hn : nextTrigger s o (max o.resumeAt ((fieldTime s + 65535) / 65536).toNat) = some (n, t)) :
    ∃ u, exec (.triggerEdge k) s = .next u ∧ u.trig.outs.find k = some { o with fired := some n, activeUntil := some (t + o.width) } ∧
      u.out = .edge k n ((t * 65536 : Nat) : Int) true (!o.activeLow) s.fldT.hold :: s.out ∧ u.mem = s.mem := by
  rw [exec, execTriggerEdge]
  simp only [ho, hl, Bool.not_true, Bool.false_eq_true, if_false, hidle, hn]
  refine ⟨_, rfl, ?_, ?_, ?_⟩ <;> simp [fireOutput, noteInstant, emit, hb, advanceField, hload]

/-- An overload turns a PUSH_PULL_24V line off (R592). -/
theorem triggerOverload_off (ho : s.trig.outs.find k = some o) (hruns : fieldRuns s = true) (hbank : Tbl.at 0 s.fld.banks (k / 8) = 1) (hk : k < 32) (hload : s.fld.overload.find k = none) :
    ∃ u, exec (.triggerOverload k) s = .next u ∧ u.fld.overload.find k = some (s.up + 10000000) ∧ u.trig.outs.find k = some { o with activeUntil := none } := by
  rw [exec, execTriggerOverload, if_neg (by simp [hruns, hbank, hload]; omega)]
  simp only [ho]
  exact ⟨_, rfl, by simp, by simp⟩

theorem triggerOverloadRetry_on {t : Nat} (h : s.fld.overload.find k = some t) :
    ∃ u, exec (.triggerOverloadRetry k) s = .next u ∧ u.fld.overload.find k = none ∧ t ≤ u.up ∧ u.trig = s.trig := by
  rw [exec, execTriggerOverloadRetry]
  simp only [h]
  refine ⟨_, rfl, Tbl.find_drop_same .., ?_, rfl⟩
  simp only [advanceUp, advanceTo]
  omega

end TriggerOutputs

section Missed
variable {s : State}

/-- A MISSED of a stream changes its monitor alone, beside what its record does (R133). -/
theorem countMissed_keeps (s : State) (k : Nat) (m : TrigMon) :
    (countMissed s k m).out = s.out ∧ (countMissed s k m).now = s.now ∧ (countMissed s k m).mem = s.mem ∧ (countMissed s k m).trig.actions = s.trig.actions ∧
      (countMissed s k m).trig.mons = s.trig.mons.put k { m with missed := satAdd 16 m.missed 1, missRun := m.missRun + 1 } := by
  simp [countMissed]

/-- What a late action leaves as it is (R130). -/
theorem lateAction_keeps (s : State) (k : Nat) :
    (lateAction s k).out = s.out ∧ (lateAction s k).now = s.now ∧ (lateAction s k).mem = s.mem ∧ (lateAction s k).trig.actions = s.trig.actions := by
  have h := foldl_keeps (fun u : State => (u.out, u.now, u.mem, u.trig.actions)) (fun s p => countMissed s p.1 p.2)
    (fun u p => by obtain ⟨ho, hn, -, ha, -⟩ := countMissed_keeps u p.1 p.2; simp [ho, hn, ha])
    ((raise s (chipReport s sevWarn 0x07 0x0102)).trig.mons.filter (fun p => p.2.watches true k)) (raise s (chipReport s sevWarn 0x07 0x0102))
  simp only [Prod.mk.injEq] at h
  obtain ⟨ho, hn, hm, ha⟩ := h
  exact ⟨ho.trans (by simp), hn.trans (by simp), hm.trans (by simp), ha.trans (by simp)⟩

end Missed

section Actions
variable {s : State} {k t hold : Nat} {a : Action}

/-- A command that its port lets go no later than 100 µs before its action time leaves (R130). -/
theorem finishAction_sent {b : Nat} (h : b + 100000 ≤ t) (hb : s.dbg.boundary = false) :
    (finishAction s k t b a).out = .frame a.port 3956 (beBytes 1 7 ++ beBytes 6 (actionDest s a) ++ actionBytes a ((Config.freeWord s.fresh).toNat % 65536) t) :: s.out ∧
      (finishAction s k t b a).now = s.now ∧ (finishAction s k t b a).mem = s.mem ∧ (finishAction s k t b a).trig.actions = s.trig.actions := by
  rw [finishAction, if_neg (by omega)]
  refine ⟨?_, ?_, ?_, ?_⟩ <;> simp [sendAction, noteInstant, emit, tickFresh, hb, topClass]

theorem finishAction_late {b : Nat} (h : t < b + 100000) : finishAction s k t b a = lateAction s k := by
  rw [finishAction, if_pos h]

theorem actionCmdSend_next {n : Nat} (ha : s.trig.actions.find k = some a) (hp : s.power.pstate ≤ 2) (hheld : a.held = none) (hn : nextAction s a = some (n, t)) :
    exec (.actionCmdSend k hold) s = .next (if portUp s a.port
      then finishAction { advanceTo s (t - a.lead * 100000) with trig.actions := s.trig.actions.put k { a with sent := some n } } k t (max s.now (t - a.lead * 100000) + hold) { a with sent := some n }
      else { advanceTo s (t - a.lead * 100000) with trig.actions := s.trig.actions.put k { a with sent := some n, held := some t } }) := by
  rw [exec, execActionCmdSend]
  simp only [ha]
  rw [if_neg (by omega)]
  simp only [hheld, hn]
  have hport : portUp (advanceTo s (t - a.lead * 100000)) a.port = portUp s a.port := rfl
  rw [hport]
  split <;> rfl

theorem actionCmdSend_held (ha : s.trig.actions.find k = some a) (hp : s.power.pstate ≤ 2) (hheld : a.held = some t) :
    exec (.actionCmdSend k hold) s = .next (if portUp s a.port
      then finishAction { s with trig.actions := s.trig.actions.put k { a with held := none } } k t (s.now + hold) { a with held := none }
      else lateAction { advanceTo s (t - 100000) with trig.actions := s.trig.actions.put k { a with held := none } } k) := by
  rw [exec, execActionCmdSend]
  simp only [ha]
  rw [if_neg (by omega)]
  simp only [hheld]
  split <;> rfl

end Actions

section Monitors
variable {s : State} {k : Nat} {m : TrigMon}

theorem actionAckRx_marks {j : Nat} {i : Instant} (hm : s.trig.mons.find j = some m) (hen : m.enable = true) (hact : m.action = true) (hsrc : m.source = k)
    (hi : m.instants = [i]) (hacked : i.acked = false) (hwin : s.now ≤ i.time + m.latMax * 1000) :
    (s.trig.mons.mapV (fun _ m => if m.watches true k then m.ack s.now else m)).find j = some { m with instants := [{ i with acked := true }] } := by
  have hw : m.watches true k = true := by simp [TrigMon.watches, hen, hact, hsrc]
  rw [Tbl.find_mapV, hm, Option.map_some, if_pos hw]
  simp [TrigMon.ack, hi, hacked, hwin]

theorem loseSample_keeps (s : State) (k t : Nat) : (loseSample s k t).trig = s.trig ∧ (loseSample s k t).mem = s.mem ∧ (loseSample s k t).now = s.now := ⟨rfl, rfl, rfl⟩

/-- The oldest instant that was not met counts as MISSED once its window is over (R133). -/
theorem triggerMissed_counts {i : Instant} (hm : s.trig.mons.find k = some m) (hfind : m.instants.find? (fun i => !instantMet (wantsAck s m) i) = some i) :
    ∃ u n, exec (.triggerMissed k) s = .next u ∧ u.mem = s.mem ∧ u.now = n ∧ i.time + m.latMax * 1000 < n ∧
      u.trig.mons.find k = some { m.settle (wantsAck s m) n with
        instants := (m.settle (wantsAck s m) n).instants.drop 1, missed := satAdd 16 (m.settle (wantsAck s m) n).missed 1, missRun := (m.settle (wantsAck s m) n).missRun + 1 } := by
  rw [exec, execTriggerMissed]
  simp only [hm, hfind]
  have hnow : i.time + m.latMax * 1000 < (advanceTo s (i.time + m.latMax * 1000 + 1)).now := by simp only [advanceTo]; omega
  have hkept : (advanceTo s (i.time + m.latMax * 1000 + 1)).trig = s.trig ∧ (advanceTo s (i.time + m.latMax * 1000 + 1)).mem = s.mem := ⟨rfl, rfl⟩
  generalize advanceTo s (i.time + m.latMax * 1000 + 1) = v at hnow hkept ⊢
  generalize hw : ite (i.matched = true) _ v = w
  obtain ⟨htrig, hmem, hwnow⟩ : w.trig = s.trig ∧ w.mem = s.mem ∧ w.now = v.now := by
    rw [← hw]
    split <;> exact ⟨hkept.1, hkept.2, rfl⟩
  obtain ⟨-, hn, hcm, -, hmons⟩ := countMissed_keeps w k { m.settle (wantsAck s m) v.now with instants := (m.settle (wantsAck s m) v.now).instants.drop 1 }
  refine ⟨_, v.now, rfl, hcm.trans hmem, hn.trans hwnow, hnow, ?_⟩
  rw [hmons, htrig, Tbl.find_put_same]

/-- A first instant that was not met stays: nothing is settled (R132). -/
theorem settle_unmet {i : Instant} {rest : List Instant} {ack : Bool} {now : Nat} (h : m.instants = i :: rest) (hi : instantMet ack i = false) : m.settle ack now = m := by
  simp [TrigMon.settle, h, hi]
  simp [← h]

/-- A first instant that was met and is over leaves the list and ends the run of MISSED (R133). -/
theorem settle_met {i j : Instant} {rest : List Instant} {ack : Bool} {now : Nat} (h : m.instants = i :: j :: rest) (hi : instantMet ack i = true) (hj : instantMet ack j = false)
    (hover : i.time + m.latMax * 1000 < now) : m.settle ack now = { m with instants := j :: rest, missRun := 0 } := by
  simp [TrigMon.settle, h, hi, hj, hover]

end Monitors

/-- Settles O17: edges, commands and instants one event at a time; a run of MISSED ends with an instant that was met. -/
theorem triggersAndActions : Obligations.TriggersAndActions := by
  unfold Obligations.TriggersAndActions
  refine ⟨fun s k o ho hruns => ⟨fun hv hov hp hbank hb => ?edges, fun hbank hk hload _ => triggerOverload_off ho hruns hbank hk hload, fun t => triggerOverloadRetry_on⟩, fun s => ⟨fun k a hold ha hp hb => ⟨?next, ?held⟩, ?ack, fun k m hm => ⟨?met, ?first, ?second⟩⟩⟩
  case edges =>
    have hl := outputLive_iff.2 ⟨hruns, hv, hov, hp, hbank⟩
    exact ⟨fun t => triggerEdge_ends ho hl hb, fun n t => triggerEdge_fires ho hl hb⟩
  case next =>
    intro n t hheld hn hdue
    rw [actionCmdSend_next ha hp hheld hn, max_eq_right hdue]
    refine ⟨fun hup hlt => ?_, fun hup hlt => ?_, fun hup => by rw [hup]; rfl⟩
    · rw [if_pos hup]
      obtain ⟨hout, hnow, hmem, hact⟩ := finishAction_sent (a := { a with sent := some n }) (k := k) (s := { advanceTo s (t - a.lead * 100000) with trig.actions := s.trig.actions.put k { a with sent := some n } }) hlt hb
      exact ⟨_, rfl, hout, hnow.trans (max_eq_right hdue), by rw [hact, Tbl.find_put_same], hmem⟩
    · rw [if_pos hup, finishAction_late hlt]
      obtain ⟨hout, -, hmem, hact⟩ := lateAction_keeps { advanceTo s (t - a.lead * 100000) with trig.actions := s.trig.actions.put k { a with sent := some n } } k
      exact ⟨_, rfl, hout, by rw [hact, Tbl.find_put_same], hmem⟩
  case held =>
    intro t hheld
    rw [actionCmdSend_held ha hp hheld]
    refine ⟨fun hup hlt => ?_, fun hup => ?_⟩
    · rw [if_pos hup]
      obtain ⟨hout, -, hmem, hact⟩ := finishAction_sent (a := { a with held := none }) (k := k) (s := { s with trig.actions := s.trig.actions.put k { a with held := none } }) hlt hb
      exact ⟨_, rfl, hout, by rw [hact, Tbl.find_put_same], hmem⟩
    · rw [if_neg (by simp [hup])]
      obtain ⟨hout, hnow, hmem, hact⟩ := lateAction_keeps { advanceTo s (t - 100000) with trig.actions := s.trig.actions.put k { a with held := none } } k
      exact ⟨_, rfl, hout, by rw [hnow]; exact le_max_right .., by rw [hact, Tbl.find_put_same], hmem⟩
  case ack => exact fun k => ⟨_, rfl, rfl, fun j m i => actionAckRx_marks⟩
  case met =>
    intro h
    have hnone : m.instants.find? (fun i => !instantMet (wantsAck s m) i) = none := by simpa using h
    rw [exec, execTriggerMissed]
    simp only [hm, hnone]
  case first =>
    intro i rest hi hmet
    obtain ⟨u, n, hu, hmem, hnow, hlt, hmon⟩ := triggerMissed_counts (s := s) (k := k) (i := i) hm (by simp [hi, hmet])
    rw [settle_unmet hi hmet, hi] at hmon
    exact ⟨u, hu, hmon, hmem, hnow ▸ hlt⟩
  case second =>
    intro i j rest hi hmet hunmet hle
    obtain ⟨u, n, hu, hmem, hnow, hlt, hmon⟩ := triggerMissed_counts (s := s) (k := k) (i := j) hm (by simp [hi, hmet, hunmet])
    rw [settle_met hi hmet hunmet (by omega)] at hmon
    exact ⟨u, hu, hmon, hmem⟩

/-! ## Ring commands and doorbell polls -/

/-! ### Ring commands, ring stops and doorbell polls (R60 to R65) -/

section RingCommands
variable {s : State} {did r : Nat}

theorem start_selected {com : Bool} (ho : hifOpen s = true) (h : selRing s did = some (com, r)) : exec (.start did) s = .next (startRing s com r) := by
  rw [exec, execStart, ringCmd, if_neg (by simp [ho])]
  simp [h]

theorem stop_selected {com : Bool} (ho : hifOpen s = true) (h : selRing s did = some (com, r)) : exec (.stop did) s = .next (stopRing s com r) := by
  rw [exec, execStop, ringCmd, if_neg (by simp [ho])]
  simp [h]

theorem reset_selected {com : Bool} (ho : hifOpen s = true) (h : selRing s did = some (com, r)) : exec (.reset did) s = .next (resetRing s com r) := by
  rw [exec, execReset, ringCmd, if_neg (by simp [ho])]
  simp [h]

/-- A START whose checks pass: the ring is RUNNING with its first poll due at once (R60, R64). -/
theorem startRing_runs (hst : (subRing s r).st ≠ .running) (herr : (subRing s r).st ≠ .error) (hc : startChecks s false r = true) :
    startRing s false r = { setSub s r { subRing s r with st := .running, stopping := false, interval := s.hif.pollMin, pollIssued := none, awaitFetch := false, nextDue := some s.up, lostReported := false } with
      hif.quiet := s.hif.quiet.put ((ringFn s false r).getD 0) false, hif.busMaster := s.hif.busMaster.put ((ringFn s false r).getD 0) true } := by
  simp only [startRing, Bool.false_eq_true, if_false]
  rw [if_neg hst, if_neg (by simp [herr, hc])]
  rfl

theorem startRing_refused (h : (subRing s r).st = .error ∨ ((subRing s r).st ≠ .running ∧ startChecks s false r = false)) :
    startRing s false r = setSub s r { subRing s r with lastEvent := stDescInvalid } := by
  have hst : (subRing s r).st ≠ .running := by
    rcases h with h | ⟨h, -⟩
    · simp [h]
    · exact h
  simp only [startRing, Bool.false_eq_true, if_false]
  rw [if_neg hst, if_pos (by rcases h with h | ⟨-, h⟩ <;> simp [h])]

theorem stopRing_sub (hst : (subRing s r).st = .running) : stopRing s false r = abortFlights (setSub s r { subRing s r with stopping := true }) r := by
  simp [stopRing, hst]

theorem stopRing_com (hst : (comRing s r).st = .running) :
    stopRing s true r = if boundRunning s r then setCom s r { comRing s r with lastEvent := stDescInvalid } else setCom s r { comRing s r with st := .stopped, nextDue := none, pollIssued := none } := by
  simp [stopRing, hst]

theorem resetRing_sub (hst : (subRing s r).st ≠ .running) : resetRing s false r = setSub s r (subRing s r).cleared := by
  simp [resetRing, hst]

theorem resetRing_running (hst : (comRing s r).st = .running) : resetRing s true r = s := by
  simp [resetRing, hst]

end RingCommands

section Polls
variable {s : State}

/-- The record that a poll leaves on its ring (R64). -/
def polledRing (s : State) (d : Due) : Ring :=
  { subRing s d.ring with pollIssued := some ((max (max (2 * s.up) (2 * d.at_)) s.hif.pollSlot + 1) / 2), nextDue := none }

/-- The state in which a submission ring's doorbell read is out, before the read itself (R64, R65). -/
def polled (s : State) (d : Due) : State :=
  setSub { advanceUp s ((max (max (2 * s.up) (2 * d.at_)) s.hif.pollSlot + 1) / 2) with hif.pollSlot := max (max (2 * s.up) (2 * d.at_)) s.hif.pollSlot + 125 } d.ring (polledRing s d)

theorem doorbellPoll_first {d : Due} (hd : firstBy Due.before (duePolls s) = some d) (hc : d.com = false) :
    exec .doorbellPoll s = if ringMayRead s false d.ring = true then .next (emit (polled s d) (.hostRead d.did (subRing s d.ring).db.toNat 16)) else .next (ringError (polled s d) false d.ring stTranslation) := by
  rw [exec, execDoorbellPoll]
  simp only [hd, hc]
  rfl

variable {r issue : Nat} {w : BitVec 128}

theorem doorbellPollReturn_running (hst : (subRing s r).st = .running) (hp : (subRing s r).pollIssued = some issue) :
    exec (.doorbellPollReturn false r none) s = .next (ringError s false r stTranslation) ∧
      exec (.doorbellPollReturn false r (some w)) s = .next (if !hostPartOk w then emptyPoll s false r issue else subPolled s r issue (w.truncate 32)) := by
  simp only [exec, execDoorbellPollReturn, Bool.false_eq_true, if_false, hst, hp, true_and]
  split <;> rfl

theorem emptyPoll_sub : emptyPoll s false r issue = setSub s r { subRing s r with pollIssued := none, interval := min (2 * (subRing s r).interval) s.hif.pollMax, nextDue := some (issue + min (2 * (subRing s r).interval) s.hif.pollMax * 1000) } := by
  simp [emptyPoll]

/-- A tail that shows no new work only doubles the interval (R64). -/
theorem subPolled_idle (ht : (subRing s r).tail = (subRing s r).head) : subPolled s r issue (subRing s r).head = emptyPoll (setSub s r (subRing s r)) false r issue := by
  rw [subPolled, if_neg (by simp [ht]), if_pos rfl]
  exact congrArg (fun x : W32 => emptyPoll (setSub s r { subRing s r with tail := x }) false r issue) ht.symm

theorem subPolled_ahead {tail : W32} (h : (subRing s r).entries < (tail - (subRing s r).head).toNat) : subPolled s r issue tail = ringError s false r stDescInvalid := by
  rw [subPolled, if_pos (.inl h)]

end Polls

/-- Settles O6: each command is one change of the selected ring's record, and each poll one of its ring's. -/
theorem ringsAndDoorbells : Obligations.RingsAndDoorbells := by
  unfold Obligations.RingsAndDoorbells
  refine ⟨fun s did r ho => ⟨?started, ?notStarted, ?stopSub, ?stopCom, ?bound, ?reset, ?resetRunning⟩, fun s r hst hstop => ⟨?stopped, ?flying⟩, fun s => ⟨?noPoll, ?poll, ?noMaster⟩, fun s r issue hst hp => ⟨?error, ?empty, ?ahead⟩⟩
  case started =>
    intro hsel hst herr hc
    rw [start_selected ho hsel, startRing_runs hst herr hc]
    exact ⟨_, rfl, Tbl.at_put_same .., fun q hq => Tbl.at_put_other _ _ _ hq, rfl⟩
  case notStarted => exact fun hsel h => by rw [start_selected ho hsel, startRing_refused h]
  case stopSub => exact fun hsel hst => by rw [stop_selected ho hsel, stopRing_sub hst]
  case stopCom => exact fun hsel hst hb => by rw [stop_selected ho hsel, stopRing_com hst, if_neg (by simp [hb])]
  case bound => exact fun hsel hst hb => by rw [stop_selected ho hsel, stopRing_com hst, if_pos hb]
  case reset =>
    intro hsel hst
    rw [reset_selected ho hsel, resetRing_sub hst]
    refine ⟨_, rfl, ?_, ?_, ?_, ?_, ?_, fun q hq => subRing_setSub_other _ _ hq, rfl⟩ <;> rw [subRing_setSub_same] <;> rfl
  case resetRunning => exact fun hsel hst => by rw [reset_selected ho hsel, resetRing_running hst]
  case stopped =>
    refine fun hempty => ⟨_, rfl, ?_⟩
    exact congrArg Host.Outcome.next (if_pos ⟨hst, hstop, hempty⟩)
  case flying =>
    intro hfly
    rw [exec, execSringStopped, endStop, if_neg (by simp [hfly])]
  case noPoll =>
    intro h
    rw [exec, execDoorbellPoll]
    simp only [h]
  case poll =>
    intro d hd hc hread hb
    rw [doorbellPoll_first hd hc, if_pos hread, emit, if_neg (by simp [polled, setSub, advanceUp, hb])]
    refine ⟨_, rfl, rfl, rfl, ?_, ?_, rfl, rfl⟩
    · exact congrArg Ring.nextDue (Tbl.at_put_same ..)
    · exact (congrArg Ring.pollIssued (Tbl.at_put_same Ring.reset s.hif.sub d.ring (polledRing s d))).trans_ne (by simp [polledRing])
  case noMaster =>
    intro d hd hc hread
    rw [doorbellPoll_first hd hc, if_neg (by simp [hread])]
    exact ⟨polled s d, rfl, rfl, rfl⟩
  case error => exact (doorbellPollReturn_running (w := 0) hst hp).1
  case empty =>
    intro w h
    rw [(doorbellPollReturn_running hst hp).2]
    rcases h with hbad | ⟨hok, hhead, htail⟩
    · rw [if_pos (by simp [hbad]), emptyPoll_sub]
      exact ⟨_, rfl, subRing_setSub_same .., rfl⟩
    · rw [if_neg (by simp [hok]), hhead, subPolled_idle htail, emptyPoll_sub, subRing_setSub_same]
      exact ⟨_, rfl, subRing_setSub_same .., rfl⟩
  case ahead =>
    intro w hok hlt
    rw [(doorbellPollReturn_running hst hp).2, if_neg (by simp [hok]), subPolled_ahead hlt]

/-! ## Register accesses -/

/-! ### Register accesses of BAR0 and of the debug port (R5 to R9, R81, R634, R639) -/

section Landing
variable {s : State} {a b : BarAccess}

/-- A write without a rival lands (R9). -/
theorem landing_single (s : State) (a : BarAccess) : landing s [a] = [a] := by
  simp [landing]

/-- Of two writes of one register that of the lower DID lands (R9). -/
theorem landing_pair (h : a.did < b.did) (hs : sameRegister s b a = true) : landing s [b, a] = [a] := by
  have hne : ¬ b.did < a.did := by omega
  simp [landing, h, hs, hne, Nat.ne_of_gt h, Nat.ne_of_lt h]

theorem registerWrite_single (s : State) (a : BarAccess) : exec (.registerWrite ⟨a, []⟩) s = .next (writeAccess s a) := by
  rw [exec, execRegisterWrite, landing_single]
  rfl

theorem registerWrite_pair (h : a.did < b.did) (hs : sameRegister s b a = true) : exec (.registerWrite ⟨b, [a]⟩) s = .next (writeAccess s a) := by
  rw [exec, execRegisterWrite, landing_pair h hs]
  rfl

end Landing

section Unaligned
variable {s : State} {a : BarAccess}

theorem aligned_eq_false (h : a.size ≠ 4 ∨ a.offset % 4 ≠ 0) : BarAccess.aligned a = false := by
  rcases h with h | h <;> simp [BarAccess.aligned, h]

theorem writeAccess_unaligned (h : BarAccess.aligned a = false) : writeAccess s a = s := by
  rw [writeAccess, if_pos (by simp [h])]

theorem readAccess_unaligned (h : BarAccess.aligned a = false) : readAccess s a = emit s (.readData a.did a.offset 0xFFFFFFFF) := by
  rw [readAccess]
  exact if_pos (by simp [h])

theorem registerWriteLo_unaligned (h : BarAccess.aligned a = false) : exec (.registerWriteLo a) s = .next s := by
  rw [exec, execRegisterWriteLo]
  simp only [h, Bool.false_and, Bool.false_eq_true, if_false]
  split <;> rfl

theorem registerWriteHi_unaligned (h : BarAccess.aligned a = false) : exec (.registerWriteHi a) s = .next s := by
  rw [exec, execRegisterWriteHi]
  simp only [h, Bool.false_and, Bool.false_eq_true, if_false]
  split <;> rfl

end Unaligned

section Pairs
variable {s : State} {a : BarAccess} {p : Nat}

theorem writeAccess_placed (ha : BarAccess.aligned a = true) (hp : barPlace a.did a.offset = some p) : writeAccess s a = barWrite s a.did a.cp p a.data := by
  rw [writeAccess, if_neg (by simp [ha]), hp]

theorem readAccess_placed (ha : BarAccess.aligned a = true) (hp : barPlace a.did a.offset = some p) :
    readAccess s a = emit (barRead s a.did a.cp p).2 (.readData a.did a.offset (BitVec.ofNat 32 (barRead s a.did a.cp p).1)) := by
  simp only [readAccess, ha, Bool.not_true, Bool.false_eq_true, if_false, hp]

/-- A read of a low register captures the upper half (R6). -/
theorem barRead_low {did cp v : Nat} (ho : barOpen s did p = true) (hv : pairValue s did p = some v) :
    barRead s did cp p = (v % 2 ^ 32, { s with readHi := s.readHi.put (pairKey did p) (v / 2 ^ 32) }) := by
  simp only [barRead, ho, Bool.not_true, Bool.false_eq_true, if_false, hv]

/-- A read of a high register answers the captured half (R6). -/
theorem barRead_high {did cp v h : Nat} (ho : barOpen s did (p + 4) = true) (hn : pairValue s did (p + 4) = none) (hv : pairValue s did p = some v)
    (hh : s.readHi.find (pairKey did p) = some h) : barRead s did cp (p + 4) = (h, s) := by
  simp only [barRead, ho, Bool.not_true, Bool.false_eq_true, if_false, hn, Nat.le_add_left, if_true, Nat.add_sub_cancel, hv, hh, Option.getD_some]

theorem registerWriteLo_held (ha : BarAccess.aligned a = true) (hp : barPlace a.did a.offset = some p) (ho : barOpen s a.did p = true) (ht : pairTakes s a.did p = true) :
    exec (.registerWriteLo a) s = .next (holdLow s a.did p a.data) := by
  rw [exec, execRegisterWriteLo]
  simp only [hp]
  rw [if_pos (by simp [ha, ho, ht])]

theorem holdLow_other {did : Nat} {v : W32} (h : p ≠ 0x040108) (h' : p ≠ 0x040110) : holdLow s did p v = { s with writeLo := s.writeLo.put (pairKey did p) v.toNat } := by
  simp [holdLow, h, h']

theorem holdLow_busy {did r : Nat} {v : W32} (h : p = 0x040108 ∨ p = 0x040110) (hr : selRing s did = some (false, r)) (hst : (subRing s r).st = .running ∨ (subRing s r).st = .error) :
    holdLow s did p v = setSub s r { subRing s r with cfgDrop := true } := by
  simp only [holdLow, hr, Bool.false_eq_true, if_false]
  rw [if_pos (by rcases h with h | h <;> rcases hst with hst | hst <;> simp [h, hst])]
  simp only [writeRingCfg, hr, Bool.false_eq_true, if_false]
  rw [if_pos hst]

theorem holdLow_free {did r : Nat} {v : W32} (hr : selRing s did = some (false, r)) (hst : (subRing s r).st = .idle ∨ (subRing s r).st = .stopped) :
    holdLow s did p v = { s with writeLo := s.writeLo.put (pairKey did p) v.toNat } := by
  simp only [holdLow, hr, Bool.false_eq_true, if_false]
  rw [if_neg (by rcases hst with hst | hst <;> simp [hst])]

/-- The operand of the time base takes its 64 bits at once (R6). -/
theorem registerWriteHi_operand {l : Nat} (ha : BarAccess.aligned a = true) (hp : barPlace a.did a.offset = some 0x07001C) (ho : barOpen s a.did 0x07001C = true)
    (hl : s.writeLo.find (pairKey a.did 0x070018) = some l) :
    exec (.registerWriteHi a) s = .next { s with writeLo := Tbl.drop s.writeLo (pairKey a.did 0x070018), tb.operand := BitVec.ofNat 64 (a.data.toNat * 2 ^ 32 + l) } := by
  rw [exec, execRegisterWriteHi]
  simp only [hp]
  rw [if_pos (by simp [ha, ho, pairTakes, pairValue])]
  simp [joinHigh, hl, writePair]

end Pairs

section Rows
variable {s : State} {did cp : Nat} {v : W32}

theorem barPlace_pf {offset : Nat} (hd : did ≤ 2) (h : offset < 2 ^ 26) (hw : offset / 65536 ≠ sicWindow) : barPlace did offset = some offset := by
  rw [barPlace, if_neg (by simp [hw]), if_pos hd, if_pos h]

/-- A register of the time base that is no half of a pair is written whole. -/
theorem barWrite_tbu {o : Nat} (ho : barOpen s did (0x070000 + o) = true) (hlt : o < 65536) (hn : pairValue s did (0x070000 + o) = none) (hm : pairValue s did (0x070000 + o - 4) = none) :
    barWrite s did cp (0x070000 + o) v = writeTbu s did o v := by
  have hw : (0x070000 + o) / 65536 = 7 := by omega
  have hr : (0x070000 + o) % 65536 = o := by omega
  simp [barWrite, ho, hn, hm, hw, hr, sicWindow, writeBlock, rwlWrite, hostOnly]

theorem barWrite_kp (ho : barOpen s did 0x070020 = true) : barWrite s did cp 0x070020 v = { s with tb.kp := v } :=
  (barWrite_tbu (o := 0x20) ho (by omega) (by simp [pairValue]) (by simp [pairValue])).trans (by simp [writeTbu])

theorem barWrite_ki (ho : barOpen s did 0x070024 = true) : barWrite s did cp 0x070024 v = { s with tb.ki := v } :=
  (barWrite_tbu (o := 0x24) ho (by omega) (by simp [pairValue]) (by simp [pairValue])).trans (by simp [writeTbu])

theorem barWrite_tbuStatus (ho : barOpen s did 0x070000 = true) :
    barWrite s did cp 0x070000 v = { s with tb.stepRefused := s.tb.stepRefused && !v.toNat.testBit 9, tb.refLost := s.tb.refLost && !v.toNat.testBit 8 } :=
  (barWrite_tbu (o := 0) ho (by omega) (by simp [pairValue]) (by simp [pairValue])).trans (by simp [writeTbu, W32.b])

end Rows

section DebugPort
variable {s : State} {w : BitVec 64} {did off : Nat}

/-- An instruction that leaves no boundary or production instruction only loads the register (R632). -/
theorem dbgAccess_quiet (hb : s.dbg.boundary = false) (hp : s.dbg.production = false) :
    ∃ o, exec (.dbgAccess w) s = .next (emit (portAccess { s with dbg.ir := 8 } w) o) :=
  ⟨_, by rw [exec, execDbgAccess, loadIr_free hb hp, if_pos rfl]⟩

theorem portAccess_refused (hl : s.dbg.level = 0) (ha : bitsOf w.toNat 8 24 * 4 / 256 ≠ 0x1600) : portAccess s w = { s with dbg.drError := true } := by
  rw [portAccess]
  exact if_pos (by simp [portAllowed, hl, ha])

theorem portAccess_write (hl : s.dbg.level = 2) (hw : w.toNat.testBit 1 = true) :
    portAccess s w = { barWrite s 1 0 (bitsOf w.toNat 8 24 * 4) (BitVec.ofNat 32 (w.toNat / 2 ^ 32)) with dbg.drError := false } := by
  simp only [portAccess, hw]
  rw [if_neg (by simp [portAllowed, hl])]
  rfl

theorem pairValue_memWindow {p : Nat} (h : 0x160FFC ≤ p) (h' : p < 0x162000) : pairValue s did p = none := by
  unfold pairValue
  split <;> [omega; omega; omega; omega; omega; omega; omega; omega; omega; omega; omega; omega; omega; rfl]

/-- The memory window reads as 0 below OBSERVE (R639). -/
theorem barRead_memWindow {o : Nat} (ho : barOpen s did (0x161000 + o) = true) (hlt : o < 0x1000) (hl : s.dbg.level = 0) : barRead s did 0 (0x161000 + o) = (0, s) := by
  have hw : (0x161000 + o) / 65536 = 0x16 := by omega
  have hr : (0x161000 + o) % 65536 = 0x1000 + o := by omega
  have hn : pairValue s did (0x161000 + o) = none := pairValue_memWindow (by omega) (by omega)
  have hm : pairValue s did (0x161000 + o - 4) = none := pairValue_memWindow (by omega) (by omega)
  have hle : (4 : Nat) ≤ 0x161000 + o := by omega
  simp only [barRead, ho, Bool.not_true, Bool.false_eq_true, if_false, hn, hm, hle, if_true, hw, hr, sicWindow]
  rw [if_neg (by omega), if_neg (by omega), if_neg (by omega), if_neg (by omega), if_pos ⟨trivial, by omega⟩, memWindow, if_pos hl]

end DebugPort

/-- Settles O5: an access is unaligned, a half of a pair, a row of its own, or the debug port's at its level. -/
theorem registerAccesses : Obligations.RegisterAccesses := by
  unfold Obligations.RegisterAccesses
  refine ⟨fun a s h => ?unaligned, fun a s p ha hp => ⟨?low, ?high, ?held, ?ring, ?operand⟩, fun a b s h hs => ?rivals, fun a s ha hd ho => ⟨?kp, ?ki, ?status⟩, fun w s did off => ⟨?refused, ?port, ?windowWrite, ?windowRead, ?windowUnaligned⟩⟩
  case unaligned =>
    have hu := aligned_eq_false h
    refine ⟨?_, registerWriteLo_unaligned hu, registerWriteHi_unaligned hu, congrArg _ (readAccess_unaligned hu)⟩
    rw [registerWrite_single, writeAccess_unaligned hu]
  case low =>
    intro ho v hv
    rw [exec, execRegisterReadLo, readAccess_placed ha hp, barRead_low ho hv]
    exact congrArg (fun x => Host.Outcome.next (emit _ (.readData a.did a.offset x))) (BitVec.eq_of_toNat_eq (by simp))
  case high =>
    intro ho hn v h hv hh _ hp'
    have ha' : BarAccess.aligned { a with offset := a.offset + 4 } = true := by simpa [BarAccess.aligned] using ha
    rw [exec, execRegisterReadLo, readAccess_placed ha' hp', barRead_high ho hn hv hh]
  case held => exact fun ho ht h h' => by rw [registerWriteLo_held ha hp ho ht, holdLow_other h h']
  case ring =>
    intro ho ht hring r hr
    rw [registerWriteLo_held ha hp ho ht]
    exact ⟨fun hst => by rw [holdLow_busy hring hr hst], fun hst => by rw [holdLow_free hr hst]⟩
  case operand =>
    rintro ho rfl l hl
    exact registerWriteHi_operand ha hp ho hl
  case rivals => rw [registerWrite_pair h hs, registerWrite_single]
  case kp =>
    intro h
    rw [h] at ho
    rw [registerWrite_single, writeAccess_placed ha (barPlace_pf hd (by omega) (by rw [h]; decide)), h, barWrite_kp ho]
  case ki =>
    intro h
    rw [h] at ho
    rw [registerWrite_single, writeAccess_placed ha (barPlace_pf hd (by omega) (by rw [h]; decide)), h, barWrite_ki ho]
  case status =>
    intro h
    rw [h] at ho
    rw [registerWrite_single, writeAccess_placed ha (barPlace_pf hd (by omega) (by rw [h]; decide)), h, barWrite_tbuStatus ho]
  case refused =>
    intro hl hb hp ha
    obtain ⟨o, ho⟩ := dbgAccess_quiet (w := w) hb hp
    rw [ho, portAccess_refused (by exact hl) ha, emit, if_neg (by simp [hb])]
    exact ⟨_, rfl, rfl, rfl⟩
  case port =>
    intro hl hb hp hopen ha hw
    obtain ⟨o, ho⟩ := dbgAccess_quiet (w := w) hb hp
    rw [ho, portAccess_write (by exact hl) hw, ha, barWrite_kp (by exact hopen), emit, if_neg (by simp [hb])]
    exact ⟨_, rfl, rfl, rfl⟩
  case windowWrite => exact fun size => rfl
  case windowRead =>
    intro hoff hd hopen hl
    have hlt : off % 0x1000 < 0x1000 := Nat.mod_lt _ (by omega)
    rw [exec, execDbgMemWindowAccess, if_neg (by simp), readAccess_placed (by simp only [BarAccess.aligned, beq_self_eq_true, Bool.true_and, beq_iff_eq]; omega) (barPlace_pf hd (by dsimp only; omega) (by simp only [sicWindow]; omega)),
      barRead_memWindow hopen hlt hl]
    rfl
  case windowUnaligned =>
    intro size h
    rw [exec, execDbgMemWindowAccess, if_neg (by simp), readAccess_unaligned (aligned_eq_false (by rcases h with h | h <;> [exact .inl h; exact .inr (by dsimp only; omega)]))]

/-! ## Test injections and the return of streams -/

/-! ### Test injections and the return of streams (R173 to R176, R193, R261) -/

section Injections
variable {s : State} {k : Nat}

theorem testInjectTimeout_aborts {x : Injection} (hx : injectionOf s k = some x) :
    ∃ t, exec (.testInjectTimeout k) s = .next (finishDesc t x.desc stAborted 0 0 0) ∧ t.ing.injections = popInjection k s.ing.injections ∧ x.deadline ≤ t.up ∧ t.mem = s.mem := by
  rw [exec, execTestInjectTimeout]
  simp only [hx]
  refine ⟨_, rfl, rfl, ?_, rfl⟩
  simp only [advanceUp, advanceTo]
  omega

theorem testInjectTimeout_none (hx : injectionOf s k = none) : exec (.testInjectTimeout k) s = .next s := by
  rw [exec, execTestInjectTimeout]
  simp only [hx]

theorem testInjectionStart_none (hx : injectionOf s k = none) : exec (.testInjectionStart k) s = .next s := by
  rw [exec, execTestInjectionStart]
  simp only [hx]

section Start
variable {x : Injection} {c : StreamCfg} {b g : Nat} {u : State}

theorem testInjectionStart_late (hx : injectionOf s k = some x) (hc : streamCfg s k = some c) (hb : blankFrom s k = some b) (hlate : x.deadline < (advanceTo s b).up) :
    exec (.testInjectionStart k) s = .next (advanceTo s b) := by
  rw [exec, execTestInjectionStart]
  simp only [hx, hc, hb]
  rw [if_pos hlate]

variable (hx : injectionOf s k = some x) (hc : streamCfg s k = some c) (hb : blankFrom s k = some b) (hin : (advanceTo s b).up ≤ x.deadline)
include hx hc hb hin

theorem testInjectionStart_passes (hi : inject { advanceTo s b with ing.injections := popInjection k s.ing.injections } k c x = (true, g, u)) :
    exec (.testInjectionStart k) s = .next (finishDesc (if (streamOf u k).frozen ∧ 8 ≤ (streamOf u k).passRun then setStream u k { streamOf u k with injected := true } else u) x.desc stOk g 0 0) := by
  have hi' : inject { advanceTo s b with ing.injections := popInjection k (advanceTo s b).ing.injections } k c x = (true, g, u) := hi
  rw [exec, execTestInjectionStart]
  simp only [hx, hc, hb]
  rw [if_neg (by omega)]
  simp only [hi']

theorem testInjectionStart_fails (hi : inject { advanceTo s b with ing.injections := popInjection k s.ing.injections } k c x = (false, g, u)) :
    exec (.testInjectionStart k) s = .next (finishDesc (raiseInject u k) x.desc stMismatch g 0 0) := by
  have hi' : inject { advanceTo s b with ing.injections := popInjection k (advanceTo s b).ing.injections } k c x = (false, g, u) := hi
  rw [exec, execTestInjectionStart]
  simp only [hx, hc, hb]
  rw [if_neg (by omega)]
  simp only [hi']

end Start

/-- An injected sample passes where its slot reads back with its CRC, and with the signature that was given (R175). -/
theorem inject_committed {c : StreamCfg} {x : Injection} {y : Draft} {u v : State} {st : Nat} {bs : List Byte} (hd : testDraft s c x = some y)
    (hcommit : commit (tickFresh s) k c y = (true, u)) (hread : readSlot u k c y = (st, bs, v)) :
    inject s k c x = (st == stOk && (ofLe ((bs.drop 24).take 8) == crc64 (bs.drop 64)) && (c.kind == kindCamera || crc64 (bs.drop 64) == x.expected), crc64 (bs.drop 64), v) := by
  simp only [inject, hd, hcommit, hread, injectCheck, Bool.and_assoc]

theorem startupInjection_idle {bs : List Byte} {g : Nat} (h : (streamOf s k).starting = none ∨ streamCfg s k = none) : exec (.startupInjection k bs g) s = .next s := by
  rw [exec, execStartupInjection]
  rcases h with h | h
  · simp only [h]
  · cases hst : (streamOf s k).starting <;> simp only [h]

section Startup
variable {d : Desc} {c : StreamCfg} {bs : List Byte} {g h : Nat} {u : State} (hd : (streamOf s k).starting = some d) (hc : streamCfg s k = some c)
include hd hc

theorem startupInjection_passes (hi : inject s k c { desc := d, pattern := if c.kind = kindCamera then 0 else 3, seed := 0, packet := bs, expected := g, deadline := 0 } = (true, h, u)) :
    exec (.startupInjection k bs g) s = .next (releaseArming (endStarting (setStream u k { streamOf u k with started := true, joining := true }) k stOk)) := by
  rw [exec, execStartupInjection]
  simp only [hd, hc, hi]
  rfl

theorem startupInjection_fails (hi : inject s k c { desc := d, pattern := if c.kind = kindCamera then 0 else 3, seed := 0, packet := bs, expected := g, deadline := 0 } = (false, h, u)) :
    exec (.startupInjection k bs g) s = .next (releaseArming (endStarting (raiseInject u k) k stMismatch)) := by
  rw [exec, execStartupInjection]
  simp only [hd, hc, hi]

end Startup

end Injections

section Returns
variable {s : State} {k : Nat} {c : StreamCfg}

/-- A stream whose state is changed with a record reads as changed, and the record leaves time and memory. -/
theorem raise_setStream (s : State) (k : Nat) (x : Stream) (r : Report) :
    streamOf (raise (setStream s k x) r) k = x ∧ (raise (setStream s k x) r).now = s.now ∧ (raise (setStream s k x) r).mem = s.mem := by
  refine ⟨?_, by simp, by simp⟩
  rw [streamOf, show (raise (setStream s k x) r).ing = (setStream s k x).ing by simp]
  exact streamOf_setStream_same ..

theorem streamTimeRestored_returns {n : Nat} (hc : streamCfg s k = some c) (hn : (streamOf s k).back = some n) (hs : (streamOf s k).suspect = true) :
    ∃ t, exec (.streamTimeRestored k) s = .next t ∧ streamOf t k = { streamOf s k with suspect := false, back := none, backFrom := some (c.cadence, n) } ∧ (cadOf s c.cadence).acqStart n ≤ t.now ∧ t.mem = s.mem := by
  rw [exec, execStreamTimeRestored]
  simp only [hc, hn]
  rw [if_neg (by simp [hs])]
  obtain ⟨hx, hnow, hmem⟩ := raise_setStream (advanceTo s ((cadOf s c.cadence).acqStart n)) k { streamOf s k with suspect := false, back := none, backFrom := some (c.cadence, n) } (streamReport (advanceTo s ((cadOf s c.cadence).acqStart n)) sevInfo k 0x0106)
  exact ⟨_, rfl, hx, by rw [hnow]; exact le_max_right .., hmem⟩

theorem streamTimeRestored_idle (hc : streamCfg s k = some c) (h : (streamOf s k).back = none ∨ (streamOf s k).suspect = false) : exec (.streamTimeRestored k) s = .next s := by
  rw [exec, execStreamTimeRestored]
  cases hb : (streamOf s k).back with
  | none => simp only
  | some n =>
    simp only [hc]
    rw [if_pos (by simpa [hb] using h)]

theorem contestedExpiry_returns (hc : streamCfg s k = some c) (h : (streamOf s k).contested = some 0) :
    ∃ t, exec (.contestedExpiry k) s = .next t ∧ streamOf t k = { streamOf s k with contested := none, backFrom := some (c.cadence, (cadOf s c.cadence).nextStart) } ∧ t.now = s.now ∧ t.mem = s.mem := by
  rw [exec, execContestedExpiry]
  simp only [h, if_true, hc, Option.map_some]
  exact ⟨_, rfl, raise_setStream ..⟩

theorem contestedExpiry_idle (h : (streamOf s k).contested ≠ some 0) : exec (.contestedExpiry k) s = .next s := by
  rw [exec, execContestedExpiry]
  simp only [h, if_false]

theorem streamFrozenRecovery_returns (hc : streamCfg s k = some c) (hf : (streamOf s k).frozen = true) (hrun : 8 ≤ (streamOf s k).passRun)
    (hinj : c.kind = kindCamera ∨ c.kind = kindScan → (streamOf s k).injected = true) (hst : (cadOf s c.cadence).st ≠ .stopped) :
    ∃ t, exec (.streamFrozenRecovery k) s = .next t ∧ streamOf t k = { streamOf s k with frozen := false, passRun := 0, injected := false, backFrom := some (c.cadence, (cadOf s c.cadence).nextStart) } ∧
      (cadOf s c.cadence).acqStart (cadOf s c.cadence).nextStart ≤ t.now ∧ t.mem = s.mem := by
  have hpass : ¬ ((c.kind = kindCamera ∨ c.kind = kindScan) ∧ (!(streamOf s k).injected) = true) := fun ⟨hkind, hnot⟩ => by simp [hinj hkind] at hnot
  rw [exec, execStreamFrozenRecovery]
  simp only [hc]
  rw [if_neg (by simp only [hf, hst, hpass, Bool.not_true, Bool.false_eq_true, false_or, or_false]; omega)]
  obtain ⟨hx, hnow, hmem⟩ := raise_setStream (advanceTo s ((cadOf s c.cadence).acqStart (cadOf s c.cadence).nextStart)) k { streamOf s k with frozen := false, passRun := 0, injected := false, backFrom := some (c.cadence, (cadOf s c.cadence).nextStart) }
    (streamReport (advanceTo s ((cadOf s c.cadence).acqStart (cadOf s c.cadence).nextStart)) sevInfo k 0x0106)
  exact ⟨_, rfl, hx, by rw [hnow]; exact le_max_right .., hmem⟩

theorem streamFrozenRecovery_idle (hc : streamCfg s k = some c) (h : (streamOf s k).frozen = false ∨ (streamOf s k).passRun < 8) : exec (.streamFrozenRecovery k) s = .next s := by
  rw [exec, execStreamFrozenRecovery]
  simp only [hc]
  rw [if_pos (by rcases h with h | h <;> simp [h])]

end Returns

/-- Settles O25: an injection ends one way per outcome of its check, and each return is one change of its stream with a record. -/
theorem injectionsAndReturns : Obligations.InjectionsAndReturns := by
  unfold Obligations.InjectionsAndReturns
  refine ⟨fun s k => ⟨fun x => testInjectTimeout_aborts, fun h => ⟨testInjectTimeout_none h, testInjectionStart_none h⟩, ?start, fun c x y u st bs v => inject_committed, fun h bs g => startupInjection_idle h, ?startup⟩,
    fun s k x c hx hc => ?returns⟩
  case start =>
    rintro x c b v hx hc hb rfl
    refine ⟨testInjectionStart_late hx hc hb, fun hin pass g u hi => ⟨?_, ?_, ?_⟩⟩
    · rintro rfl hnot
      rw [testInjectionStart_passes hx hc hb hin hi, if_neg (by rcases hnot with h | h <;> simp [h])]
    · rintro rfl hf hrun
      rw [testInjectionStart_passes hx hc hb hin hi, if_pos ⟨hf, hrun⟩]
    · rintro rfl
      exact testInjectionStart_fails hx hc hb hin hi
  case startup =>
    intro d c u bs g h pass hd hc hi
    exact ⟨fun hp => startupInjection_passes hd hc (hp ▸ hi), fun hp => startupInjection_fails hd hc (hp ▸ hi)⟩
  case returns =>
    subst hx
    exact ⟨fun n => streamTimeRestored_returns hc, streamTimeRestored_idle hc, contestedExpiry_returns hc, contestedExpiry_idle, streamFrozenRecovery_returns hc, streamFrozenRecovery_idle hc⟩

/-! ## The instants of a cadence -/

/-! ### The instants of a cadence (R19 to R30, R95, R122 to R137) -/

section Release
variable {s : State} {c n : Nat}

/-- The end of a cadence changes its own record and the streams that wait for it (R125). -/
theorem endCadence_keeps (s : State) (c : Nat) :
    (endCadence s c).epochs = s.epochs ∧ (endCadence s c).now = s.now ∧ (endCadence s c).mem = s.mem ∧ (cadOf (endCadence s c) c).nextDeadline = (cadOf s c).nextDeadline ∧
      (cadOf (endCadence s c) c).debt = (cadOf s c).debt ∧ (cadOf (endCadence s c) c).dCore = (cadOf s c).dCore ∧ (cadOf (endCadence s c) c).dGrid = (cadOf s c).dGrid := by
  rw [endCadence]
  split
  · split
    · refine ⟨rfl, rfl, rfl, ?_⟩
      rw [show cadOf (stopStreams (setCad s c _) c) c = _ from cadOf_setCad_same ..]
      exact ⟨rfl, rfl, rfl, rfl⟩
    · exact ⟨rfl, rfl, rfl, rfl, rfl, rfl, rfl⟩
  · exact ⟨rfl, rfl, rfl, rfl, rfl, rfl, rfl⟩

/-- The release of a complete epoch may take it from the list, and no more (R183). -/
theorem dropComplete_keeps (s : State) (c n : Nat) :
    (dropComplete s c n).now = s.now ∧ (dropComplete s c n).mem = s.mem ∧ (dropComplete s c n).trig = s.trig ∧ ∀ e ∈ (dropComplete s c n).epochs, e ∈ s.epochs := by
  rw [dropComplete]
  split
  · split
    · dsimp only
      split
      · exact ⟨rfl, rfl, rfl, fun e he => List.mem_of_mem_filter he⟩
      · exact ⟨rfl, rfl, rfl, fun e he => he⟩
    · exact ⟨rfl, rfl, rfl, fun e he => he⟩
  · exact ⟨rfl, rfl, rfl, fun e he => he⟩

theorem releaseEpoch_keeps (s : State) (c n : Nat) :
    (releaseEpoch s c n).now = s.now ∧ (releaseEpoch s c n).mem = s.mem ∧ (∀ e ∈ (releaseEpoch s c n).epochs, e ∈ s.epochs) ∧ (cadOf (releaseEpoch s c n) c).nextDeadline = (cadOf s c).nextDeadline ∧
      (cadOf (releaseEpoch s c n) c).debt = (cadOf s c).debt ∧ (cadOf (releaseEpoch s c n) c).dCore = (cadOf s c).dCore ∧ (cadOf (releaseEpoch s c n) c).dGrid = (cadOf s c).dGrid := by
  obtain ⟨hnow, hmem, htrig, hep⟩ := dropComplete_keeps s c n
  obtain ⟨hep', hnow', hmem', hdl, hdebt, hcore, hgrid⟩ := endCadence_keeps (dropComplete s c n) c
  have hcad : cadOf (dropComplete s c n) c = cadOf s c := by rw [cadOf, htrig, cadOf]
  rw [hcad] at hdl hdebt hcore hgrid
  exact ⟨hnow'.trans hnow, hmem'.trans hmem, fun e he => hep e (by rw [releaseEpoch, hep'] at he; exact he), hdl, hdebt, hcore, hgrid⟩

/-- A complete epoch whose stage windows are over is gone (R183). -/
theorem releaseEpoch_gone {e : Epoch} (he : epochOf s c n = some e) (hover : e.over s = true) (hcomplete : e.complete = true) (hst : stagesOver s e = true) :
    epochOf (releaseEpoch s c n) c n = none := by
  have hst' : stagesOver { s with spl.holds := s.spl.holds.filter (fun h => !(h.1 == c && h.2.1 == n)) } e = true := hst
  have hdrop : dropComplete s c n = dropEpoch { s with spl.holds := s.spl.holds.filter (fun h => !(h.1 == c && h.2.1 == n)) } c n := by
    simp only [dropComplete, he]
    rw [if_pos ⟨hover, hcomplete⟩, if_pos hst']
  obtain ⟨hep, -⟩ := endCadence_keeps (dropComplete s c n) c
  rw [epochOf, releaseEpoch, hep, hdrop]
  simp only [dropEpoch, List.find?_eq_none, List.mem_filter]
  rintro x ⟨-, hx⟩ hcn
  simp [hcn] at hx

/-- A change of one epoch that keeps its place changes what stands there. -/
theorem epochOf_updEpoch {e : Epoch} {f : Epoch → Epoch} (he : epochOf s c n = some e) (hf : ∀ x : Epoch, (f x).cadence = x.cadence ∧ (f x).epoch = x.epoch) : epochOf (updEpoch s c n f) c n = some (f e) := by
  have hp : ∀ x : Epoch, ((f x).cadence == c && (f x).epoch == n) = (x.cadence == c && x.epoch == n) := fun x => by simp [hf x]
  have hcn : e.cadence = c ∧ e.epoch = n := by
    have h := List.find?_some he
    simpa using h
  rw [epochOf] at he ⊢
  have hfun : ((fun x : Epoch => x.cadence == c && x.epoch == n) ∘ fun x => if x.cadence = c ∧ x.epoch = n then f x else x) = fun x => x.cadence == c && x.epoch == n := by
    funext x
    simp only [Function.comp]
    split
    · exact hp x
    · rfl
  rw [updEpoch, List.find?_map, hfun, he, Option.map_some, if_pos hcn]

/-- What late work changes: the count of its cadence and the mark on its epoch (R141). -/
theorem countLate_keeps (s : State) (c n : Nat) :
    (countLate s c n).now = s.now ∧ (countLate s c n).mem = s.mem ∧ (countLate s c n).sec = s.sec ∧ (countLate s c n).geo = s.geo ∧ (cadOf (countLate s c n) c).debt = (cadOf s c).debt ∧ (cadOf (countLate s c n) c).dCore = (cadOf s c).dCore ∧
      (cadOf (countLate s c n) c).dGrid = (cadOf s c).dGrid := by
  rw [countLate]
  split
  · have hcad : cadOf (updEpoch { s with trig.cads := s.trig.cads.put c { Tbl.at Cadence.reset s.trig.cads c with late := satAdd 16 (Tbl.at Cadence.reset s.trig.cads c).late 1 } } c n (fun e => { e with lateSeen := true })) c
        = { Tbl.at Cadence.reset s.trig.cads c with late := satAdd 16 (Tbl.at Cadence.reset s.trig.cads c).late 1 } := Tbl.at_put_same ..
    rw [hcad]
    exact ⟨rfl, rfl, rfl, rfl, rfl, rfl, rfl⟩
  · exact ⟨rfl, rfl, rfl, rfl, rfl, rfl, rfl⟩

theorem epochOf_countLate {e : Epoch} (he : epochOf s c n = some e) : ∃ b, epochOf (countLate s c n) c n = some { e with lateSeen := b } := by
  rw [countLate]
  split
  · exact ⟨true, epochOf_updEpoch (s := { s with trig.cads := _ }) he fun _ => ⟨rfl, rfl⟩⟩
  · exact ⟨e.lateSeen, he⟩

end Release

section Start
variable {s : State} {c : Nat}

/-- What an acq_start's changes leave (R28). -/
theorem acqEffects_keeps (s : State) (c : Nat) :
    (acqEffects s c).epochs = s.epochs ∧ (acqEffects s c).now = s.now ∧ (acqEffects s c).mem = s.mem ∧ (acqEffects s c).cfg = s.cfg ∧ (acqEffects s c).trig.cads = s.trig.cads :=
  ⟨rfl, rfl, rfl, rfl, rfl⟩

theorem cadenceAcqStart_starts (hr : (cadOf s c).runs (cadOf s c).nextStart = true) :
    ∃ t e, exec (.cadenceAcqStart c) s = .next t ∧ (cadOf t c).st = .running ∧ (cadOf t c).nextStart = (cadOf s c).nextStart + 1 ∧ t.epochs = s.epochs ++ [e] ∧
      e.cadence = c ∧ e.epoch = (cadOf s c).nextStart ∧ e.cfg = startCfg (advanceTo s ((cadOf s c).acqStart (cadOf s c).nextStart)) ∧ e.closed = false ∧
      (cadOf s c).acqStart (cadOf s c).nextStart ≤ t.now ∧ t.mem = s.mem := by
  rw [exec, execCadenceAcqStart]
  rw [if_neg (by simp [hr])]
  generalize hv : advanceTo s ((cadOf s c).acqStart (cadOf s c).nextStart) = v
  have hkept : v.epochs = s.epochs ∧ v.mem = s.mem ∧ (cadOf s c).acqStart (cadOf s c).nextStart ≤ v.now := by
    subst hv
    exact ⟨rfl, rfl, le_max_right ..⟩
  obtain ⟨hep, hmem, hnow⟩ := hkept
  obtain ⟨hep', hnow', hmem', hcfg', -⟩ := acqEffects_keeps { v with cfg := startCfg v } c
  dsimp only
  generalize acqEffects { v with cfg := startCfg v } c = w at hep' hnow' hmem' hcfg' ⊢
  refine ⟨_, newEpoch (setCad w c { cadOf w c with st := .running, nextStart := (cadOf s c).nextStart + 1 }) c (cadOf s c).nextStart, rfl, ?_, ?_, ?_, rfl, rfl, hcfg', rfl, ?_, hmem'.trans hmem⟩
  · exact congrArg Cadence.st (cadOf_setCad_same ..)
  · exact congrArg Cadence.nextStart (cadOf_setCad_same ..)
  · exact congrArg (· ++ [_]) (hep'.trans hep)
  · exact hnow.trans_eq hnow'.symm

theorem cadenceAcqStart_idle (hr : (cadOf s c).runs (cadOf s c).nextStart = false) : exec (.cadenceAcqStart c) s = .next s := by
  rw [exec, execCadenceAcqStart]
  exact if_pos (by simp [hr])

end Start

section Close
variable {s : State} {c : Nat}

/-- What the steps of a close after the cadence's knot leave: memory, time, the knots and the cadences. -/
def closePart (u : State) : List Host.Cell × Nat × Knots × Tbl Cadence := (u.mem, u.now, u.knots, u.trig.cads)

theorem driftCheck_closePart (s : State) (k period next : Nat) (off : Bool) : closePart (driftCheck s k period next off) = closePart s := by
  rw [driftCheck]
  split
  · rfl
  · dsimp only
    split
    · rfl
    split
    · rfl
    · simp [closePart, setStream]

theorem closeStream_closePart (s : State) (c n k : Nat) (sc : StreamCfg) : closePart (closeStream s c n k sc) = closePart s := by
  rw [closeStream]
  dsimp only
  split
  · rfl
  · exact driftCheck_closePart ..

/-- The opening of an epoch's processing touches the epochs and the Splice unit's tables (R179). -/
theorem openEpoch_keeps (s : State) (e : Epoch) (deltas : Tbl Int) (cut target reef : Nat) :
    (openEpoch s e deltas cut target reef).mem = s.mem ∧ (openEpoch s e deltas cut target reef).now = s.now ∧ (openEpoch s e deltas cut target reef).knots = s.knots ∧ (openEpoch s e deltas cut target reef).trig = s.trig := by
  simp only [openEpoch, updEpoch, and_self]

/-- Catch-up touches neither memory nor knots, and of its cadence not the epochs already counted (R137). -/
theorem catchUp_keeps (s : State) (c n : Nat) (e : Epoch) (deltas : Tbl Int) :
    (catchUp s c n e deltas).mem = s.mem ∧ (catchUp s c n e deltas).now = s.now ∧ (catchUp s c n e deltas).knots = s.knots ∧
      (cadOf (catchUp s c n e deltas) c).epoch = (cadOf s c).epoch ∧ (cadOf (catchUp s c n e deltas) c).nextClose = (cadOf s c).nextClose := by
  obtain ⟨v, hv⟩ : ∃ v, catchUp s c n e deltas = v := ⟨_, rfl⟩
  rw [hv]
  unfold catchUp at hv
  extract_lets x pend cut target reef run hit s1 s2 at hv
  subst hv
  obtain ⟨hmem, hnow, hknots, htrig⟩ : s2.mem = s.mem ∧ s2.now = s.now ∧ s2.knots = s.knots ∧ s2.trig = s1.trig := by
    simp only [s2]
    split
    · simp [s1]
    · exact ⟨rfl, rfl, rfl, rfl⟩
  obtain ⟨hmem', hnow', hknots', htrig'⟩ := openEpoch_keeps s2 e deltas cut target reef
  rw [cadOf, htrig', htrig, show Tbl.at Cadence.reset s1.trig.cads c = _ from cadOf_setCad_same ..]
  exact ⟨hmem'.trans hmem, hnow'.trans hnow, hknots'.trans hknots, rfl, rfl⟩

theorem cadenceClose_dropped (hst : (cadOf s c).st = .running) (hlt : (cadOf s c).nextClose < (cadOf s c).nextStart) (hreset : s.power.inReset.contains 2 = true) :
    exec (.cadenceClose c) s = .next (dropEpoch (setCad (advanceTo s ((cadOf s c).close (cadOf s c).nextClose)) c { cadOf s c with nextClose := (cadOf s c).nextClose + 1, epoch := (cadOf s c).nextClose }) c (cadOf s c).nextClose) := by
  rw [exec, execCadenceClose, if_neg (by simp only [hst, ne_eq, not_true_eq_false, false_or]; omega)]
  exact if_pos hreset

/-- What stands from close(n) on: the knot's value, the epoch register and the next close (R95, R122). -/
structure AtClose (s : State) (c : Nat) (u : State) : Prop where
  knot : (knotOf u c).value = BitVec.ofNat 32 ((cadOf s c).nextClose + 1)
  epoch : (cadOf u c).epoch = (cadOf s c).nextClose
  nextClose : (cadOf u c).nextClose = (cadOf s c).nextClose + 1
  now : (cadOf s c).close (cadOf s c).nextClose ≤ u.now
  mem : u.mem = s.mem

theorem AtClose.of_closePart {u v : State} (h : AtClose s c u) (hp : closePart v = closePart u) : AtClose s c v := by
  simp only [closePart, Prod.mk.injEq] at hp
  obtain ⟨hmem, hnow, hknots, hcads⟩ := hp
  obtain ⟨hknot, hepoch, hnext, hle, hm⟩ := h
  exact ⟨by rw [knotOf, hknots]; exact hknot, by rw [cadOf, hcads]; exact hepoch, by rw [cadOf, hcads]; exact hnext, hnow ▸ hle, hmem.trans hm⟩

theorem AtClose.catchUp {u : State} {n : Nat} {e : Epoch} {deltas : Tbl Int} (h : AtClose s c u) : AtClose s c (catchUp u c n e deltas) := by
  obtain ⟨hmem, hnow, hknots, he, hn⟩ := catchUp_keeps u c n e deltas
  obtain ⟨hknot, hepoch, hnext, hle, hm⟩ := h
  exact ⟨by rw [knotOf, hknots]; exact hknot, he.trans hepoch, hn.trans hnext, hnow ▸ hle, hmem.trans hm⟩

/-- The cadence's knot and record at the close itself. -/
theorem atClose_start (s : State) (c : Nat) :
    AtClose s c (icuPulse (setCadenceKnot (setCad (advanceTo s ((cadOf s c).close (cadOf s c).nextClose)) c { cadOf s c with nextClose := (cadOf s c).nextClose + 1, epoch := (cadOf s c).nextClose }) true c (BitVec.ofNat 32 ((cadOf s c).nextClose + 1))) c) := by
  have hcad (u : State) (w : W32) : cadOf (icuPulse (setCadenceKnot u true c w) c) c = cadOf u c := by simp [cadOf]
  have hknot (u : State) : knotOf (icuPulse u c) c = knotOf u c := by simp [knotOf]
  refine ⟨?_, ?_, ?_, ?_, ?_⟩
  · rw [hknot, setCadenceKnot]
    exact congrArg Knot.value (knotOf_setKnot_same ..)
  · rw [hcad, cadOf_setCad_same]
  · rw [hcad, cadOf_setCad_same]
  · simp [setCad, advanceTo]
  · simp [setCad]

theorem cadenceClose_processed (hst : (cadOf s c).st = .running) (hlt : (cadOf s c).nextClose < (cadOf s c).nextStart) (hreset : s.power.inReset.contains 2 = false) :
    ∃ t, exec (.cadenceClose c) s = .next t ∧ AtClose s c t := by
  obtain ⟨o, ho⟩ : ∃ o, exec (.cadenceClose c) s = o := ⟨_, rfl⟩
  rw [ho]
  rw [exec, execCadenceClose, if_neg (by simp only [hst, ne_eq, not_true_eq_false, false_or]; omega)] at ho
  rw [if_neg (by simpa [setCad] using hreset)] at ho
  extract_lets s1 s2 mine s3 cfg deltas before s5 s6 at ho
  have h3 : AtClose s c s3 := (atClose_start s c).of_closePart (by simp [closePart, s3, s2, s1])
  have h5 : AtClose s c s5 := h3.of_closePart (foldl_keeps closePart _ (fun u p => by split <;> [exact closeStream_closePart ..; rfl]) _ _)
  have h6 : AtClose s c s6 := h5.of_closePart (by simp only [s6]; split <;> rfl)
  clear_value s6
  split at ho
  · exact ⟨s6, ho.symm, h6⟩
  · next e _ =>
    extract_lets active s7 at ho
    have h7 : AtClose s c s7 := h6.of_closePart rfl
    split at ho
    · exact ⟨_, ho.symm, h7.catchUp⟩
    · exact ⟨_, ho.symm, h7.of_closePart rfl⟩

end Close

section Deadline
variable {s : State} {c : Nat}

/-- The marks that a deadline leaves on its epoch: guarded flows without a record have failed (R134). -/
def passDeadline (now : Nat) (e : Epoch) : Epoch :=
  { e with past := true, flows := e.flows.map (fun r => if r.guarded ∧ !r.written then { r with failAt := some (r.failAt.getD now) } else r) }

theorem passDeadline_failed {now : Nat} {e : Epoch} {r : FlowRun} (hr : r ∈ (passDeadline now e).flows) (hg : r.guarded = true) (hw : r.written = false) : r.failAt.isSome = true := by
  simp only [passDeadline, List.mem_map] at hr
  obtain ⟨q, -, rfl⟩ := hr
  by_cases hq : q.guarded = true ∧ (!q.written) = true
  · rw [if_pos hq]
    rfl
  · rw [if_neg hq] at hg hw
    exact absurd ⟨hg, by simp [hw]⟩ hq

theorem mem_updEpoch {n : Nat} {f : Epoch → Epoch} {e : Epoch} (he : e ∈ (updEpoch s c n f).epochs) (hc : e.cadence = c) (hn : e.epoch = n) :
    ∃ x, e = f x := by
  simp only [updEpoch, List.mem_map] at he
  obtain ⟨x, -, rfl⟩ := he
  by_cases h : x.cadence = c ∧ x.epoch = n
  · exact ⟨x, if_pos h⟩
  · rw [if_neg h] at hc hn
    exact absurd ⟨hc, hn⟩ h

/-- The state at a deadline, before what it abandons (R134). -/
def atDeadline (s : State) (c : Nat) : State :=
  let u := setCad (advanceTo s ((cadOf s c).deadline (cadOf s c).nextDeadline)) c { cadOf s c with nextDeadline := (cadOf s c).nextDeadline + 1 }
  if (cadOf s c).nextDeadline < (cadOf s c).nextClose then icuPulse u (32 + c) else u

theorem atDeadline_keeps (s : State) (c : Nat) :
    (atDeadline s c).mem = s.mem ∧ (cadOf s c).deadline (cadOf s c).nextDeadline ≤ (atDeadline s c).now ∧ (atDeadline s c).epochs = s.epochs ∧ (cadOf (atDeadline s c) c).nextDeadline = (cadOf s c).nextDeadline + 1 := by
  have hcad (u : State) : cadOf (icuPulse u (32 + c)) c = cadOf u c := by simp [cadOf]
  simp only [atDeadline]
  split
  · rw [hcad, cadOf_setCad_same]
    simp [setCad, advanceTo]
  · rw [cadOf_setCad_same]
    simp [setCad, advanceTo]

theorem epochOf_atDeadline (s : State) (c n : Nat) : epochOf (atDeadline s c) c n = epochOf s c n := by
  obtain ⟨-, -, hep, -⟩ := atDeadline_keeps s c
  rw [epochOf, hep, epochOf]

variable (hst : (cadOf s c).st = .running) (hdue : (cadOf s c).nextDeadline < (cadOf s c).nextClose ∨ (cadOf s c).last = some ((cadOf s c).nextDeadline - 1) ∧ 1 ≤ (cadOf s c).nextDeadline)
include hst hdue

theorem deadline_due : ¬ ((cadOf s c).st ≠ .running ∨ ((cadOf s c).nextClose ≤ (cadOf s c).nextDeadline ∧ (cadOf s c).last.all (fun l => l + 1 ≠ (cadOf s c).nextDeadline) = true)) := by
  rintro (h | ⟨hle, hall⟩)
  · exact h hst
  · rcases hdue with hlt | ⟨hlast, hone⟩
    · omega
    · simp only [hlast, Option.all_some, decide_eq_true_eq] at hall
      omega

/-- A deadline with the work of the epoch before ended marks its own epoch and releases the one before (R134). -/
theorem cadenceDeadline_quiet (h : ∀ e, epochOf s c ((cadOf s c).nextDeadline - 1) = some e → e.epoch + 1 = (cadOf s c).nextDeadline → e.complete = true ∨ e.aborted = true) :
    exec (.cadenceDeadline c) s = .next (releaseEpoch (updEpoch (atDeadline s c) c (cadOf s c).nextDeadline (passDeadline (atDeadline s c).now)) c ((cadOf s c).nextDeadline - 1)) := by
  have heo := epochOf_atDeadline s c ((cadOf s c).nextDeadline - 1)
  obtain ⟨o, ho⟩ : ∃ o, exec (.cadenceDeadline c) s = o := ⟨_, rfl⟩
  rw [ho]
  rw [exec, execCadenceDeadline, if_neg (deadline_due hst hdue)] at ho
  extract_lets s1 s2 s3 s4 at ho
  have h3 : s3 = atDeadline s c := by
    simp only [s3]
    split
    · next e he =>
      refine if_neg fun ⟨hn, hc, ha⟩ => ?_
      have hdone := h e (heo.symm.trans he) hn
      simp only [Bool.not_eq_true'] at hc ha
      simp [hc, ha] at hdone
    · rfl
  rw [← ho]
  change Host.Outcome.next (releaseEpoch (updEpoch s3 c (cadOf s c).nextDeadline (passDeadline s3.now)) c ((cadOf s c).nextDeadline - 1)) = _
  rw [h3]

/-- A deadline that finds work of the epoch before abandons that epoch first (R135). -/
theorem cadenceDeadline_abandons {e : Epoch} (he : epochOf s c ((cadOf s c).nextDeadline - 1) = some e) (hn : e.epoch + 1 = (cadOf s c).nextDeadline) (hc : e.complete = false) (ha : e.aborted = false) :
    exec (.cadenceDeadline c) s = .next (releaseEpoch (updEpoch (abandon (atDeadline s c) e) c (cadOf s c).nextDeadline (passDeadline (abandon (atDeadline s c) e).now)) c ((cadOf s c).nextDeadline - 1)) := by
  have heo := epochOf_atDeadline s c ((cadOf s c).nextDeadline - 1)
  obtain ⟨o, ho⟩ : ∃ o, exec (.cadenceDeadline c) s = o := ⟨_, rfl⟩
  rw [ho]
  rw [exec, execCadenceDeadline, if_neg (deadline_due hst hdue)] at ho
  extract_lets s1 s2 s3 s4 at ho
  have h3 : s3 = abandon (atDeadline s c) e := by
    have heo2 : epochOf s2 c ((cadOf s c).nextDeadline - 1) = some e := heo.trans he
    simp only [s3, heo2]
    exact if_pos ⟨hn, by simp [hc], by simp [ha]⟩
  rw [← ho]
  change Host.Outcome.next (releaseEpoch (updEpoch s3 c (cadOf s c).nextDeadline (passDeadline s3.now)) c ((cadOf s c).nextDeadline - 1)) = _
  rw [h3]

end Deadline

section Finish
variable {s : State} {c n : Nat} {e : Epoch}

/-- The end of an epoch's last work: its debt and durations, and its release (R125, R137). -/
theorem epochWorkFinish_ends (he : epochOf s c n = some e) (hclosed : e.closed = true) (hfin : e.finished = false) (halign : e.alignEnd.isSome = true) (hgeo : e.geoEnd.isSome = true)
    (hflows : ∀ r ∈ e.flows, deferred e r = true ∨ r.ended = true) (hgrids : ∀ p ∈ e.cfg.grids, gridPending s e p.1 = true → (e.carrier p.1).any (deferred e) = true) :
    ∃ t, exec (.epochWorkFinish c n) s = .next t ∧ ((cadOf t c).debt : Int) = max 0 (((cadOf s c).debt : Int) + ((s.now : Int) - ((cadOf s c).deadline n : Int))) ∧ (cadOf t c).dCore = s.now - (cadOf s c).close n ∧
      (cadOf t c).dGrid = e.gridNs * 4 ^ e.reef ∧ t.now = s.now ∧ t.mem = s.mem ∧
      (e.flows = [] → e.cfg.grids = [] → stagesOver s { e with finished := true } = true → epochOf t c n = none) := by
  have hwork : ¬ ((!e.closed) = true ∨ e.finished = true ∨ e.alignEnd.isNone = true ∨ e.geoEnd.isNone = true ∨ e.flows.any (fun r => !deferred e r && !r.ended) = true
      ∨ e.cfg.grids.any (fun p => gridPending s e p.1 && !(e.carrier p.1).any (deferred e)) = true) := by
    rintro (h | h | h | h | h | h)
    · simp [hclosed] at h
    · simp [hfin] at h
    · simp [Option.isNone_iff_eq_none.1 h] at halign
    · simp [Option.isNone_iff_eq_none.1 h] at hgeo
    · obtain ⟨r, hr, hnot⟩ := List.any_eq_true.1 h
      rcases hflows r hr with hd | hd <;> simp [hd] at hnot
    · obtain ⟨p, hp, hnot⟩ := List.any_eq_true.1 h
      simp only [Bool.and_eq_true, Bool.not_eq_true'] at hnot
      simp [hgrids p hp hnot.1] at hnot
  obtain ⟨o, ho⟩ : ∃ o, exec (.epochWorkFinish c n) s = o := ⟨_, rfl⟩
  rw [ho]
  rw [exec, execEpochWorkFinish] at ho
  simp -zeta only [he] at ho
  rw [if_neg hwork] at ho
  extract_lets x debt late s1 s2 s3 at ho
  subst ho
  have hcad : cadOf s1 c = { x with debt := debt.toNat, dCore := s.now - x.close n, dGrid := e.gridNs * 4 ^ e.reef } := cadOf_setCad_same ..
  obtain ⟨b, hb⟩ : ∃ b, epochOf s2 c n = some { e with lateSeen := b } := by
    simp only [s2]
    split
    · exact epochOf_countLate (s := s1) he
    · exact ⟨e.lateSeen, he⟩
  obtain ⟨hnow, hmem, hsec, hgeo2, hdebt, hcore, hgrid⟩ : s2.now = s.now ∧ s2.mem = s.mem ∧ s2.sec = s.sec ∧ s2.geo = s.geo ∧ (cadOf s2 c).debt = debt.toNat ∧ (cadOf s2 c).dCore = s.now - x.close n ∧ (cadOf s2 c).dGrid = e.gridNs * 4 ^ e.reef := by
    simp only [s2]
    split
    · obtain ⟨hnow, hmem, hsec, hgeo2, hdebt, hcore, hgrid⟩ := countLate_keeps s1 c n
      rw [hcad] at hdebt hcore hgrid
      exact ⟨hnow, hmem, hsec, hgeo2, hdebt, hcore, hgrid⟩
    · rw [hcad]
      exact ⟨rfl, rfl, rfl, rfl, rfl, rfl, rfl⟩
  obtain ⟨hnow', hmem', -, -, hdebt', hcore', hgrid'⟩ := releaseEpoch_keeps s3 c n
  refine ⟨_, rfl, ?_, hcore'.trans hcore, hgrid'.trans hgrid, hnow'.trans hnow, hmem'.trans hmem, fun hf hg hst => ?_⟩
  · rw [hdebt', show (cadOf s3 c).debt = debt.toNat from hdebt, max_comm]
    exact Int.toNat_eq_max debt
  · have h3 : epochOf s3 c n = some { e with lateSeen := b, finished := true } := epochOf_updEpoch hb fun _ => ⟨rfl, rfl⟩
    have hcomplete : Epoch.complete { e with lateSeen := b, finished := true } = true := by simp [Epoch.complete, hclosed, hf]
    refine releaseEpoch_gone h3 ?_ hcomplete ?_
    · simp [Epoch.over, hcomplete, hg]
    · have hsec3 : s3.sec = s.sec := hsec
      simpa only [stagesOver, hsec3] using hst

end Finish

/-- Settles O21: each instant moves device time to itself, changes its cadence's record and its own epoch, and writes no byte of memory. -/
theorem cadenceInstants : Obligations.CadenceInstants := by
  unfold Obligations.CadenceInstants
  rintro s c x rfl
  refine ⟨cadenceAcqStart_starts, cadenceAcqStart_idle, cadenceClose_dropped, fun hst hlt hreset => ?closed, fun h => ?idle, fun hst hdue => ⟨fun h => ?quiet, ?abandoned⟩, fun n e => epochWorkFinish_ends⟩
  case closed =>
    obtain ⟨t, ht, hknot, hepoch, hnext, hnow, hmem⟩ := cadenceClose_processed hst hlt hreset
    exact ⟨t, ht, hknot, hepoch, hnext, hnow, hmem⟩
  case idle =>
    rw [exec, execCadenceClose]
    exact if_pos h
  case quiet =>
    obtain ⟨hmem, hnow, -, hdl⟩ := atDeadline_keeps s c
    obtain ⟨hnow', hmem', hep, hdl', -⟩ := releaseEpoch_keeps (updEpoch (atDeadline s c) c (cadOf s c).nextDeadline (passDeadline (atDeadline s c).now)) c ((cadOf s c).nextDeadline - 1)
    refine ⟨_, cadenceDeadline_quiet hst hdue h, hdl'.trans hdl, hnow.trans_eq hnow'.symm, fun e he hc hn => ?_, hmem'.trans hmem⟩
    obtain ⟨y, rfl⟩ := mem_updEpoch (hep e he) hc hn
    exact ⟨rfl, fun r => passDeadline_failed⟩
  case abandoned =>
    rintro e u v he hn hc ha rfl rfl
    exact cadenceDeadline_abandons hst hdue he hn hc ha

/-! ## Reports, doubts and FATALs -/

/-! ### The error intake, doubts, latches and FATALs (R445, R446, R459 to R461) -/

section Intake
variable {s : State} {r : Report}

theorem queueReport_behind {rest : List Report} (h : ∀ y ∈ rest, y.time = r.time → y.rank ≤ r.rank) : queueReport r rest = rest ++ [r] := by
  induction rest with
  | nil => rfl
  | cons y l ih =>
    have hy : ¬ (y.time = r.time ∧ r.rank < y.rank) := fun ⟨ht, hlt⟩ => absurd (h y (by simp) ht) (by omega)
    rw [queueReport, if_neg hy, ih fun z hz => h z (by simp [hz])]
    rfl

/-- Nesting changes neither source nor severity nor time of a report (R462). -/
theorem nest_source (s : State) (r : Report) : (nest s r).severity = r.severity ∧ (nest s r).kind = r.kind ∧ (nest s r).index = r.index ∧ (nest s r).event = r.event ∧ (nest s r).time = r.time := by
  rw [nest]
  split
  · split <;> exact ⟨rfl, rfl, rfl, rfl, rfl⟩
  · exact ⟨rfl, rfl, rfl, rfl, rfl⟩

theorem enterIntake_intake (s : State) (r : Report) : (enterIntake s r).safe.intake = queueReport r s.safe.intake ∧ { enterIntake s r with safe := s.safe, icu := s.icu, sic := s.sic } = s := by
  rw [enterIntake]
  dsimp only
  split
  · exact ⟨by simp [icuPulse], rfl⟩
  · exact ⟨by simp, rfl⟩

/-- A report enters the intake while a place is left for its severity (R461). -/
theorem raise_enters (hup : s.safe.intakeUp = true) (hroom : s.safe.intake.length < 56 ∨ (sevWarn < r.severity ∧ s.safe.intake.length < 64)) : raise s r = enterIntake s (nest s r) := by
  obtain ⟨hsev, -⟩ := nest_source s r
  rw [raise, raiseNow, if_neg (by simp [hup])]
  by_cases hw : (nest s r).severity ≤ sevWarn
  · rw [if_pos hw, if_pos (by rw [hsev] at hw; omega)]
  · rw [if_neg hw, if_pos (by omega)]

theorem raise_dropped (hup : s.safe.intakeUp = true) (hw : r.severity ≤ sevWarn) (hfull : 56 ≤ s.safe.intake.length) : raise s r = { s with safe.lostDropped := satAdd 16 s.safe.lostDropped 1 } := by
  obtain ⟨hsev, -⟩ := nest_source s r
  rw [raise, raiseNow, if_neg (by simp [hup]), if_pos (by rw [hsev]; exact hw), if_neg (by omega)]

theorem raise_overflows (hup : s.safe.intakeUp = true) (hw : sevWarn < r.severity) (hfull : 64 ≤ s.safe.intake.length) :
    raise s r = { s with safe.overflow := true, safe.overflowFatal := s.safe.overflowFatal || r.severity == sevFatal } := by
  obtain ⟨hsev, -⟩ := nest_source s r
  rw [raise, raiseNow, if_neg (by simp [hup]), if_neg (by rw [hsev]; omega), if_neg (by omega), hsev]

theorem raise_lost (hup : s.safe.intakeUp = false) : raise s r = s := by
  rw [raise, raiseNow, if_pos (by simp [hup])]

end Intake

section Handling
variable {s : State} {r : Report}

/-- What a record leaves of the state that doubts and FATALs speak of (R462). -/
theorem record_keeps (s : State) (r : Report) (c : Option Nat) :
    (record s r c).safe.flows = s.safe.flows ∧ (record s r c).safe.intake = s.safe.intake ∧ (record s r c).safe.fatal = s.safe.fatal ∧ (record s r c).mem = s.mem ∧ (record s r c).cfg = s.cfg ∧
      (record s r c).epochs = s.epochs ∧ (record s r c).sec = s.sec ∧ (record s r c).eth = s.eth := by
  rw [record]
  split <;> simp

/-- With no record to merge into, a report is a record of its own (R462). -/
theorem record_new (hn : newestRec s = none) (c : Option Nat) :
    (record s r c).safe = { s.safe with ring := s.safe.ring.put (s.safe.next % 256) { report := r, seq := s.safe.next % 2 ^ 32, repeats := 1, merged := false, nested := r.nested || c.isSome, cause := c.or r.cause }, next := s.safe.next + 1 } := by
  simp [record, hn]

@[simp] theorem driveSafe_flows (s : State) : (driveSafe s).safe.flows = s.safe.flows ∧ (driveSafe s).safe.fatal = s.safe.fatal ∧ (driveSafe s).eth = s.eth := by
  simp only [driveSafe, raiseDriven]
  split <;> simp

/-- While a FATAL is held no channel is energised or acknowledged (R453, R460). -/
theorem driveSafe_fatal (h : s.safe.fatal.isSome = true) : (driveSafe s).safe.req0 = false ∧ (driveSafe s).safe.req1 = false ∧ (driveSafe s).safe.ack0 = false ∧ (driveSafe s).safe.ack1 = false := by
  have hoff (ch : Nat) : mayEnergise s ch = false := by
    have hcond : hardCond s ch ≠ 0 := by simp [hardCond, placeB, h]
    simp [mayEnergise, hcond]
  simp only [driveSafe, raiseDriven, hoff, Bool.and_false]
  split <;> simp

theorem fixFail_safe (s : State) (f n : Nat) (d : Option Nat) : (fixFail s f n d).safe = s.safe ∧ (fixFail s f n d).sec = s.sec := by
  rw [fixFail]
  split <;> exact ⟨rfl, rfl⟩

theorem recoveryNs_of_sec {u : State} (f : Nat) (h : u.sec = s.sec) : recoveryNs u f = recoveryNs s f := by
  rw [recoveryNs, recoveryNs, imageFlow, imageFlow, h]

/-- A doubt that is new to its epoch: noted, counted, and with a younger one before it the latch (R446). -/
theorem applyDoubt_flow {seq t f n : Nat} (hnew : (flowSafe s f).doubts.any (fun d => d.1 == n) = false) :
    (flowSafe (applyDoubt seq t s f n) f).doubts = (n, t) :: (flowSafe s f).doubts ∧ (flowSafe (applyDoubt seq t s f n) f).count = min ((flowSafe s f).count + 1) 255 ∧
      (flowSafe (applyDoubt seq t s f n) f).latched = ((flowSafe s f).latched || (flowSafe s f).doubts.head?.any (fun d => decide (t < d.2 + recoveryNs s f))) := by
  obtain ⟨hsafe, hsec⟩ := fixFail_safe s f n (some seq)
  have hrec := recoveryNs_of_sec f hsec
  obtain ⟨v, hv⟩ : ∃ v, applyDoubt seq t s f n = v := ⟨_, rfl⟩
  rw [hv]
  unfold applyDoubt at hv
  extract_lets x w latch w' at hv
  rw [if_neg (by simp [x, hnew])] at hv
  have hflow : flowSafe v f = flowSafe w' f := by
    subst hv
    split
    · rw [flowSafe, (record_keeps w' _ _).1, flowSafe]
    · rfl
  rw [hflow, show flowSafe w' f = _ from Tbl.at_put_same ..]
  refine ⟨rfl, rfl, ?_⟩
  simp only [latch, x, w, hrec]
  cases (flowSafe s f).latched <;> rfl

theorem holdFatal_held (h : s.safe.fatal ≠ none) (cause seq : Nat) : holdFatal s cause seq = s := by
  rw [holdFatal, if_pos (Option.isSome_iff_ne_none.2 h)]

/-- A FATAL with no epoch open is held, the requests drop and the guarded messages go (R460, R571). -/
theorem holdFatal_new (h : s.safe.fatal = none) (he : s.epochs = []) (cause seq : Nat) :
    holdFatal s cause seq = driveSafe { s with safe.fatal := some (cause, seq), safe.fatalAt := s.up, eth.pending := s.eth.pending.filter (fun m => !m.2.guarded) } := by
  simp [holdFatal, h, he]

theorem errorReportProcess_takes {rest : List Report} (hrun : s.safe.running = true) (hov : s.safe.overflow = false) (hin : s.safe.intake = r :: rest) :
    exec .errorReportProcess s = .next (handleReport (sicSet { s with safe.intake := rest } 0 (!rest.isEmpty)) r) := by
  rw [exec, execErrorReportProcess, if_neg (by simp [hrun]), if_neg (by simp [hov])]
  simp only [hin]

theorem widenReport_sicSet (rest : List Report) (b : Bool) : widenReport (sicSet { s with safe.intake := rest } 0 b) r = widenReport s r := by
  simp [widenReport, unitSafe, isGuardedFlow]

theorem widenReport_severity : (widenReport s r).severity = r.severity ∧ (widenReport s r).event = r.event := by
  rw [widenReport]
  split
  · split <;> exact ⟨rfl, rfl⟩
  · exact ⟨rfl, rfl⟩

/-- A report of a flow stands for no unit, and is not widened (R445). -/
theorem widenReport_of_flow (hk : r.kind = 6) : widenReport s r = r := by
  simp [widenReport, unitOfSource, hk]

end Handling

section Process
variable {s : State} {r : Report} {rest : List Report} (hrun : s.safe.running = true) (hov : s.safe.overflow = false) (hin : s.safe.intake = r :: rest) (hnew : newestRec s = none)
include hrun hov hin hnew

theorem errorReportProcess_recorded (hw : r.severity ≤ 1) :
    ∃ t x, exec .errorReportProcess s = .next t ∧ t.safe.intake = rest ∧ t.safe.next = s.safe.next + 1 ∧ t.safe.ring.find (s.safe.next % 256) = some x ∧ x.report = widenReport s r ∧ x.seq = s.safe.next % 2 ^ 32 ∧ x.repeats = 1 ∧ t.mem = s.mem ∧ t.safe.fatal = s.safe.fatal := by
  have hsafe := record_new (s := sicSet { s with safe.intake := rest } 0 (!rest.isEmpty)) (r := widenReport s r) (by simpa [newestRec] using hnew) none
  obtain ⟨hsev, -⟩ := widenReport_severity (s := s) (r := r)
  refine ⟨record (sicSet { s with safe.intake := rest } 0 (!rest.isEmpty)) (widenReport s r) none, _, ?_, by simp [hsafe], by simp [hsafe], by rw [hsafe]; exact Tbl.find_put_same .., rfl, rfl, rfl, by simp, by simp [hsafe]⟩
  rw [errorReportProcess_takes hrun hov hin, handleReport, widenReport_sicSet]
  simp only [hsev]
  rw [if_neg (by simp only [sevDoubt]; omega), if_neg (by simp only [sevFatal]; omega)]

omit hnew in
/-- The handling of a DOUBT on one guarded flow (R445, R446). -/
theorem errorReportProcess_doubt {f n : Nat} (hd : r.severity = 2) (hk : r.kind = 6) (hf : r.flows = [f]) (he : r.epoch = some n) (hg : isGuardedFlow s f = true)
    (hone : (flowSafe s f).doubts.any (fun d => d.1 == n) = false) :
    ∃ t, exec .errorReportProcess s = .next t ∧ (flowSafe t f).doubts = (n, r.time) :: (flowSafe s f).doubts ∧ (flowSafe t f).count = min ((flowSafe s f).count + 1) 255 ∧
      (flowSafe t f).latched = ((flowSafe s f).latched || (flowSafe s f).doubts.head?.any (fun d => decide (r.time < d.2 + recoveryNs s f))) := by
  obtain ⟨u, hu⟩ : ∃ u, record (sicSet { s with safe.intake := rest } 0 (!rest.isEmpty)) r none = u := ⟨_, rfl⟩
  obtain ⟨hflows, -, -, -, hcfg, -, hsec, -⟩ := record_keeps (sicSet { s with safe.intake := rest } 0 (!rest.isEmpty)) r none
  rw [hu] at hflows hcfg hsec
  have hx : ∀ k, flowSafe { u with safe.acting := k } f = flowSafe s f := fun k => by rw [flowSafe, flowSafe]; exact congrArg (Tbl.at FlowSafe.reset · f) (hflows.trans (by simp))
  have hgu : ∀ k, isGuardedFlow { u with safe.acting := k } f = true := fun k => by rw [isGuardedFlow] at hg ⊢; rw [show ({ u with safe.acting := k } : State).cfg = s.cfg from hcfg.trans (by simp)]; exact hg
  have hr : ∀ k, recoveryNs { u with safe.acting := k } f = recoveryNs s f := fun k => recoveryNs_of_sec f (hsec.trans (by simp))
  have hunit : ∀ w q, doubtUnit w q r = w := fun w q => by simp [doubtUnit, unitOfSource, hk]
  have hstep : ∀ k, handleDoubt { u with safe.acting := k } (lastSeq u) r = driveSafe (applyDoubt (lastSeq u) r.time { u with safe.acting := k } f n) := fun k => by
    simp only [handleDoubt, hf, List.filter_cons, hgu k, if_true, List.filter_nil, List.foldl_cons, List.foldl_nil, he, doubtEpoch, hunit]
  obtain ⟨hd1, hc1, hl1⟩ := applyDoubt_flow (s := { u with safe.acting := some (lastSeq u) }) (seq := lastSeq u) (t := r.time) (f := f) (n := n) (by rw [hx]; exact hone)
  rw [hx, hr] at hl1
  rw [hx] at hd1 hc1
  have hflow : ∀ w : State, flowSafe { driveSafe w with safe.acting := none } f = flowSafe w f := fun w => by
    rw [flowSafe, flowSafe]
    exact congrArg (Tbl.at FlowSafe.reset · f) (driveSafe_flows w).1
  refine ⟨{ driveSafe (applyDoubt (lastSeq u) r.time { u with safe.acting := some (lastSeq u) } f n) with safe.acting := none }, ?_, by rw [hflow, hd1], by rw [hflow, hc1], by rw [hflow, hl1]⟩
  rw [errorReportProcess_takes hrun hov hin, handleReport, widenReport_sicSet, widenReport_of_flow hk]
  simp only [hd, sevDoubt, if_true, hu, actingOn, hstep]

/-- A FATAL report, as the island handles it once its record is written (R460). -/
theorem errorReportProcess_fatal (hs : r.severity = 3) :
    ∃ u : State, exec .errorReportProcess s = .next { holdFatal u (fatalCause r.event) s.safe.next with safe.acting := none } ∧ u.safe.fatal = s.safe.fatal ∧ u.epochs = s.epochs := by
  have hsafe := record_new (s := sicSet { s with safe.intake := rest } 0 (!rest.isEmpty)) (r := widenReport s r) (by simpa [newestRec] using hnew) none
  obtain ⟨-, -, hfatal, -, -, hep, -⟩ := record_keeps (sicSet { s with safe.intake := rest } 0 (!rest.isEmpty)) (widenReport s r) none
  obtain ⟨hsev, hev⟩ := widenReport_severity (s := s) (r := r)
  refine ⟨{ record (sicSet { s with safe.intake := rest } 0 (!rest.isEmpty)) (widenReport s r) none with safe.acting := some s.safe.next }, ?_, hfatal.trans (by simp), hep.trans (by simp)⟩
  have hlast : lastSeq (record (sicSet { s with safe.intake := rest } 0 (!rest.isEmpty)) (widenReport s r) none) = s.safe.next := by simp [lastSeq, hsafe]
  rw [errorReportProcess_takes hrun hov hin, handleReport, widenReport_sicSet]
  simp only [hsev, hev, hs, hlast, actingOn]
  rfl

end Process

/-- Settles O45: a report enters, waits or is lost by the places left; a DOUBT is a change of its flow, a FATAL one of the island. -/
theorem errorHandling : Obligations.ErrorHandling := by
  unfold Obligations.ErrorHandling
  refine fun s r rest => ⟨fun sev kind index ev st hup => ⟨?enters, ?dropped, ?doubt, ?fatal⟩, queueReport_behind, fun y ht hlt => if_pos ⟨ht, hlt⟩, raise_lost, ?empty, ?stopped, fun hrun hov hin hnew => ⟨errorReportProcess_recorded hrun hov hin hnew, fun f n => errorReportProcess_doubt hrun hov hin, ?newFatal, ?oldFatal⟩⟩
  case enters =>
    intro hroom hsev
    rw [exec, execErrorReportRaise, raise_enters hup (.inl hroom)]
    obtain ⟨hin, hframe⟩ := enterIntake_intake s (nest s { reportOf s (sev % 4) kind index ev with status := st, guarded := false, flows := [], did := 0, detail := 0, detail2 := 0, epoch := none })
    obtain ⟨h1, h2, h3, h4, h5⟩ := nest_source s { reportOf s (sev % 4) kind index ev with status := st, guarded := false, flows := [], did := 0, detail := 0, detail2 := 0, epoch := none }
    exact ⟨_, _, rfl, hin, h1.trans (Nat.mod_eq_of_lt hsev), h2, h3, h4, h5, hframe⟩
  case dropped =>
    intro hw hfull
    rw [exec, execErrorReportRaise, raise_dropped hup (by simp only [reportOf, sevWarn]; omega) hfull]
  case doubt =>
    rintro rfl hfull
    rw [exec, execErrorReportRaise, raise_overflows hup (by simp [reportOf, sevWarn]) hfull]
    simp [reportOf, sevFatal]
  case fatal =>
    rintro rfl hfull
    rw [exec, execErrorReportRaise, raise_overflows hup (by simp [reportOf, sevWarn]) hfull]
    simp [reportOf, sevFatal]
  case empty =>
    intro hrun hov hin
    rw [exec, execErrorReportProcess, if_neg (by simp [hrun]), if_neg (by simp [hov])]
    simp only [hin]
  case stopped =>
    intro hrun
    rw [exec, execErrorReportProcess, if_pos (by simp [hrun])]
  case newFatal =>
    intro hs hf he
    obtain ⟨u, hu, hfu, hep⟩ := errorReportProcess_fatal hrun hov hin hnew hs
    rw [holdFatal_new (hfu.trans hf) (hep.trans he)] at hu
    obtain ⟨hr0, hr1, ha0, ha1⟩ := driveSafe_fatal (s := { u with safe.fatal := some (fatalCause r.event, s.safe.next), safe.fatalAt := u.up, eth.pending := u.eth.pending.filter (fun m => !m.2.guarded) }) rfl
    obtain ⟨-, hfatal, heth⟩ := driveSafe_flows { u with safe.fatal := some (fatalCause r.event, s.safe.next), safe.fatalAt := u.up, eth.pending := u.eth.pending.filter (fun m => !m.2.guarded) }
    refine ⟨_, hu, hfatal, hr0, hr1, ha0, ha1, fun m hm => ?_⟩
    replace hm : m ∈ u.eth.pending.filter (fun m => !m.2.guarded) := (congrArg (fun x : Eth => m ∈ x.pending) heth).mp hm
    simpa using (List.mem_filter.1 hm).2
  case oldFatal =>
    intro hs hf
    obtain ⟨u, hu, hfu, -⟩ := errorReportProcess_fatal hrun hov hin hnew hs
    rw [holdFatal_held (hfu ▸ hf)] at hu
    exact ⟨_, hu, hfu⟩

/-! ## Verdicts, channels and the island -/

/-! ### Verdicts, latch clears, channel acknowledgements and the island itself (R442 to R460) -/

section Verdict
variable {s : State} {c n f : Nat} {e : Epoch} {r : FlowRun}

theorem endCadence_safe (s : State) (c : Nat) : (endCadence s c).safe = s.safe ∧ (endCadence s c).results = s.results := by
  rw [endCadence]
  split
  · split <;> exact ⟨rfl, rfl⟩
  · exact ⟨rfl, rfl⟩

theorem dropComplete_safe (s : State) (c n : Nat) : (dropComplete s c n).safe = s.safe ∧ (dropComplete s c n).results = s.results := by
  rw [dropComplete]
  split
  · split
    · dsimp only
      split <;> exact ⟨rfl, rfl⟩
    · exact ⟨rfl, rfl⟩
  · exact ⟨rfl, rfl⟩

theorem releaseEpoch_safe (s : State) (c n : Nat) : (releaseEpoch s c n).safe = s.safe ∧ (releaseEpoch s c n).results = s.results :=
  ⟨(endCadence_safe _ _).1.trans (dropComplete_safe s c n).1, (endCadence_safe _ _).2.trans (dropComplete_safe s c n).2⟩

/-- A record that is written enters its flow's history, and leaves the flow's safety state and memory (R24, R30). -/
theorem writeResult_keeps (s : State) (e : Epoch) (f : Nat) (x : FlowResult) (good : Bool) :
    (writeResult s e f x good).mem = s.mem ∧ (writeResult s e f x good).safe.flows = s.safe.flows ∧ (writeResult s e f x good).results = s.results.put f ((histOf s f).add x s.now good) := by
  have hring (u : State) (ring : Nat) (y : FlowRec) : (flowToRing u ring y).safe.flows = u.safe.flows := (congrArg Safe.flows (ready_island u (.flow ring y)) :)
  rw [writeResult]
  split
  · split
    · exact ⟨by simp [updFlow, updEpoch], by rw [hring]; simp [updFlow, updEpoch], by simp [updFlow, updEpoch]⟩
    · simp [updFlow, updEpoch]
  · simp [updFlow, updEpoch]

@[simp] theorem driveSafe_results (s : State) : (driveSafe s).results = s.results := by
  simp only [driveSafe, raiseDriven]
  split <;> simp

theorem flowSafe_of_flows {t u : State} (h : t.safe.flows = u.safe.flows) (f : Nat) : flowSafe t f = flowSafe u f := by
  rw [flowSafe, flowSafe, h]

theorem histOf_of_results {t u : State} (h : t.results = u.results) (f : Nat) : histOf t f = histOf u f := by
  rw [histOf, histOf, h]

theorem gridFree_of_none (hg : (e.cfg.flows.find f).bind (·.grid) = none) (u : State) : gridFree u e f = u := by
  simp only [gridFree, hg]

/-- A record without a value marks its flow FAILING (R448). -/
theorem noValue_keeps (s : State) (e : Epoch) (f : Nat) : (noValue s e f).mem = s.mem ∧ (flowSafe (noValue s e f) f).verdict = false ∧ (flowSafe (noValue s e f) f).failing = true := by
  obtain ⟨v, hv⟩ : ∃ v, setFlowSafe s f { flowSafe s f with failing := true, verdict := false, fallbacks := satAdd 16 (flowSafe s f).fallbacks 1 } = v := ⟨_, rfl⟩
  obtain ⟨hmem, hflows, -⟩ := writeResult_keeps v e f (emptyResult v e f stAborted flagFallback) false
  have hflow : flowSafe (noValue s e f) f = flowSafe v f := by
    refine flowSafe_of_flows ?_ f
    simp [noValue, hv, hflows]
  have hm : (noValue s e f).mem = v.mem := by simp [noValue, hv]
  rw [hflow, hm, ← hv, show flowSafe (setFlowSafe s f _) f = _ from Tbl.at_put_same ..]
  exact ⟨rfl, rfl, rfl⟩

/-- Under a held FATAL the fallback supplies nothing (R448). -/
theorem fallbackRecord_fatal (h : s.safe.fatal.isSome = true) : ∃ k, fallbackRecord s e f = { noValue { s with safe.acting := k } e f with safe.acting := none } := by
  refine ⟨((epochOf s e.cadence e.epoch).bind (·.flowRun f)).bind (·.failSeq), ?_⟩
  have hrec : ∀ k, recipeOf { s with safe.acting := k } e f = (none, { s with safe.acting := k }) := fun k => by
    rw [recipeOf]
    split
    · rfl
    · exact if_pos h
  simp only [fallbackRecord, actingOn, hrec]

variable (he : epochOf s c n = some e) (hr : e.flowRun f = some r)
include he hr

theorem verdictFormed_written (hw : r.written = true) : exec (.verdictFormed c n f) s = .next s := by
  rw [exec, execVerdictFormed]
  simp only [he, hr]
  exact if_pos (.inr (.inl hw))

variable (hf : r.flow = f) (hg : r.guarded = true) (hw : r.written = false) (hend : r.ended = true) (hrun : s.safe.running = true) (hgrid : (e.cfg.flows.find f).bind (·.grid) = none)
include hf hg hw hend hrun hgrid

theorem verdictFormed_passes (hpass : verdictPass (setFlowSafe s f { flowSafe s f with shadow := shadowPass s e r }) e r = true) :
    ∃ t, exec (.verdictFormed c n f) s = .next t ∧ (flowSafe t f).verdict = true ∧ (flowSafe t f).failing = false ∧ (flowSafe t f).shadow = true ∧ (histOf t f).good = (histOf t f).latest ∧ t.mem = s.mem := by
  subst hf
  obtain ⟨v, hv⟩ : ∃ v, setFlowSafe s r.flow { flowSafe s r.flow with shadow := shadowPass s e r } = v := ⟨_, rfl⟩
  obtain ⟨w, hwv⟩ : ∃ w, setFlowSafe v r.flow { flowSafe v r.flow with failing := false, verdict := true, shadow := true } = w := ⟨_, rfl⟩
  rw [hv] at hpass
  obtain ⟨x, hx⟩ : ∃ x, writeResult w e r.flow (ownResult v e r) true = x := ⟨_, rfl⟩
  have hexec : exec (.verdictFormed c n r.flow) s = .next (releaseEpoch (driveSafe x) c n) := by
    have hemit : emitPass v e r = some (driveSafe x) := by simp only [emitPass, hgrid, hwv, hx]
    rw [exec, execVerdictFormed]
    simp -zeta only [he, hr]
    rw [if_neg (by simp [hg, hw, hend, hrun])]
    dsimp only
    rw [hv, if_pos hpass]
    simp only [hemit, gridFree_of_none hgrid]
  obtain ⟨hmem, hflows, hres⟩ := writeResult_keeps w e r.flow (ownResult v e r) true
  rw [hx] at hmem hflows hres
  obtain ⟨-, hmem', -⟩ := releaseEpoch_keeps (driveSafe x) c n
  obtain ⟨hsafe, hres'⟩ := releaseEpoch_safe (driveSafe x) c n
  have hflow : flowSafe (releaseEpoch (driveSafe x) c n) r.flow = { flowSafe v r.flow with failing := false, verdict := true, shadow := true } := by
    rw [flowSafe_of_flows (u := w) (by rw [hsafe, (driveSafe_flows x).1, hflows]) r.flow, ← hwv]
    exact Tbl.at_put_same ..
  have hhist : histOf (releaseEpoch (driveSafe x) c n) r.flow = (histOf w r.flow).add (ownResult v e r) w.now true := by
    rw [histOf_of_results (hres'.trans (driveSafe_results x)), histOf, hres, Tbl.at_put_same]
  refine ⟨_, hexec, by rw [hflow], by rw [hflow], by rw [hflow], by rw [hhist]; rfl, ?_⟩
  rw [hmem', driveSafe_mem, hmem, ← hwv, ← hv]
  rfl

omit hf in
theorem verdictFormed_fatal (hfatal : s.safe.fatal ≠ none) : ∃ t, exec (.verdictFormed c n f) s = .next t ∧ (flowSafe t f).verdict = false ∧ (flowSafe t f).failing = true ∧ t.mem = s.mem := by
  obtain ⟨v, hv⟩ : ∃ v, setFlowSafe s f { flowSafe s f with shadow := shadowPass s e r } = v := ⟨_, rfl⟩
  have hfv : v.safe.fatal.isSome = true := by
    rw [← hv]
    exact Option.isSome_iff_ne_none.2 hfatal
  have hfail : ¬ verdictPass v e r = true := by simp [verdictPass, Option.isSome_iff_ne_none.1 hfv]
  obtain ⟨k, hk⟩ := fallbackRecord_fatal (e := e) (f := f) (s := fixFail v f n none) (by rw [(fixFail_safe v f n none).1]; exact hfv)
  have hexec : exec (.verdictFormed c n f) s = .next (releaseEpoch (fallbackRecord (fixFail v f n none) e f) c n) := by
    rw [exec, execVerdictFormed]
    simp -zeta only [he, hr]
    rw [if_neg (by simp [hg, hw, hend, hrun])]
    dsimp only
    rw [hv, if_neg hfail]
    simp only [gridFree_of_none hgrid]
  obtain ⟨hmem, hverdict, hfailing⟩ := noValue_keeps { fixFail v f n none with safe.acting := k } e f
  obtain ⟨-, hmem', -⟩ := releaseEpoch_keeps (fallbackRecord (fixFail v f n none) e f) c n
  obtain ⟨hsafe, -⟩ := releaseEpoch_safe (fallbackRecord (fixFail v f n none) e f) c n
  have hflow : flowSafe (releaseEpoch (fallbackRecord (fixFail v f n none) e f) c n) f = flowSafe (noValue { fixFail v f n none with safe.acting := k } e f) f := by
    rw [flowSafe, hsafe, hk, flowSafe]
  have hfix : (fixFail v f n none).mem = v.mem := by
    rw [fixFail]
    split <;> rfl
  refine ⟨_, hexec, by rw [hflow, hverdict], by rw [hflow, hfailing], ?_⟩
  rw [hmem', hk]
  refine hmem.trans (hfix.trans ?_)
  rw [← hv]
  rfl

end Verdict

section Latch
variable {s : State} {did : Nat}

/-- The conditions of a latch clear: the shadow verdict, no doubt within the recovery time, and none on its way (R447). -/
def clearable (x : FlowSafe) (recovery now : Nat) (waits : Bool) : Prop :=
  x.shadow = true ∧ x.doubts.head?.all (fun d => decide (d.2 + recovery < now)) = true ∧ (!waits) = true

theorem clearable_of {x : FlowSafe} {recovery now : Nat} {waits : Bool} (hshadow : x.shadow = true) (hold : ∀ d, x.doubts.head? = some d → d.2 + recovery < now) (hw : waits = false) : clearable x recovery now waits := by
  refine ⟨hshadow, ?_, by simp [hw]⟩
  cases hh : x.doubts.head? with
  | none => rfl
  | some d => simpa using hold d hh

theorem not_clearable {x : FlowSafe} {recovery now : Nat} {waits : Bool} (h : x.shadow = false ∨ (∃ d, x.doubts.head? = some d ∧ now ≤ d.2 + recovery) ∨ waits = true) : ¬ clearable x recovery now waits := by
  rintro ⟨hshadow, hall, hw⟩
  rcases h with h | ⟨d, hdh, hd⟩ | h
  · simp [hshadow] at h
  · simp only [hdh, Option.all_some, decide_eq_true_eq] at hall
    omega
  · simp [h] at hw

theorem latchClear_accepted {f : Nat} (hd : did = 1 ∨ did = 2) (hf : f = Tbl.at 0 s.safe.flowSel did) (hrun : s.safe.running = true) (hl : (flowSafe s f).latched = true) (hc : (flowSafe s f).clearing = false)
    (hshadow : (flowSafe s f).shadow = true) (hold : ∀ d, (flowSafe s f).doubts.head? = some d → d.2 + recoveryNs s f < s.now) (hw : doubtWaits s f none = false) :
    ∃ t, exec (.latchClear did) s = .next t ∧ flowSafe t f = { flowSafe s f with clearing := true } ∧ (∀ g, g ≠ f → flowSafe t g = flowSafe s g) := by
  have hflow (g : Nat) (r : Report) : flowSafe (raise (setFlowSafe s f { flowSafe s f with clearing := true }) r) g = flowSafe (setFlowSafe s f { flowSafe s f with clearing := true }) g := flowSafe_of_flows (by simp) g
  have hclear := clearable_of hshadow hold hw
  rw [clearable] at hclear
  rw [exec, execLatchClear]
  dsimp only
  rw [← hf, if_neg (by rcases hd with rfl | rfl <;> simp [hrun, hl, hc]), if_pos hclear]
  exact ⟨_, rfl, by rw [hflow]; exact Tbl.at_put_same .., fun g hg => by rw [hflow]; exact Tbl.at_put_other _ _ _ hg⟩

theorem latchClear_refused {f : Nat} (hd : did = 1 ∨ did = 2) (hf : f = Tbl.at 0 s.safe.flowSel did) (hrun : s.safe.running = true) (hl : (flowSafe s f).latched = true) (hc : (flowSafe s f).clearing = false)
    (h : (flowSafe s f).shadow = false ∨ (∃ d, (flowSafe s f).doubts.head? = some d ∧ s.now ≤ d.2 + recoveryNs s f) ∨ doubtWaits s f none = true) : exec (.latchClear did) s = .next { s with safe.clearRefused := true } := by
  have hclear := not_clearable h
  rw [clearable] at hclear
  rw [exec, execLatchClear]
  dsimp only
  rw [← hf, if_neg (by rcases hd with rfl | rfl <;> simp [hrun, hl, hc]), if_neg hclear]

theorem otherDid_ignored (h1 : did ≠ 1) (h2 : did ≠ 2) (b : Nat) : exec (.latchClear did) s = .next s ∧ exec (.safeAck did b) s = .next s := by
  refine ⟨?_, ?_⟩
  · rw [exec, execLatchClear]
    exact if_pos (by omega)
  · rw [exec, execSafeAck]
    exact if_pos (by omega)

theorem safeAck_one (hd : did = 1 ∨ did = 2) (hrun : s.safe.running = true) : exec (.safeAck did 1) s = .next (ackChannel s 0) ∧ exec (.safeAck did 2) s = .next (ackChannel s 1) := by
  refine ⟨?_, ?_⟩ <;>
  · rw [exec, execSafeAck, if_neg (by rcases hd with rfl | rfl <;> simp [hrun])]
    rfl

/-- An acknowledgement of a channel without a condition energises it (R455). -/
theorem ackChannel_zero (hm : mayEnergise s 0 = true) (ha : s.safe.ack0 = false) :
    (ackChannel s 0).safe.ack0 = true ∧ (ackChannel s 0).safe.req0 = true ∧ (ackChannel s 0).safe.req1 = s.safe.req1 ∧ (ackChannel s 0).fld = s.fld := by
  rw [ackChannel, if_neg (by simp [hm]), if_neg (by simp [acked, ha])]
  simp

theorem ackChannel_one (hm : mayEnergise s 1 = true) (ha : s.safe.ack1 = false) :
    (ackChannel s 1).safe.ack1 = true ∧ (ackChannel s 1).safe.req1 = true ∧ (ackChannel s 1).safe.req0 = s.safe.req0 := by
  rw [ackChannel, if_neg (by simp [hm]), if_neg (by simp [acked, ha])]
  simp

theorem ackChannel_refused {ch : Nat} (hm : mayEnergise s ch = false) : ackChannel s ch = { s with safe.ackRefused := true } := by
  rw [ackChannel, if_pos (by simp [hm])]

end Latch

section Island
variable {s : State}

theorem island_stopped (hrun : s.safe.running = false) : exec .islandHeartbeat s = .next s ∧ exec .lockstepMismatch s = .next s ∧ exec .islandWatchdogExpiry s = .next s ∧ exec .firmwareHeartbeat s = .next s := by
  simp [exec, execIslandHeartbeat, execLockstepMismatch, execIslandWatchdogExpiry, execFirmwareHeartbeat, hrun]

theorem advanceUp_up (s : State) (t : Nat) : (advanceUp s t).up = max s.up t := by
  simp only [advanceUp, advanceTo]
  omega

theorem islandHeartbeat_beats (hrun : s.safe.running = true) (hb : s.safe.beating = true) (hup : s.up ≤ s.safe.beatAt + 1000000) :
    ∃ t, exec .islandHeartbeat s = .next t ∧ t.safe.beatAt = s.safe.beatAt + 1000000 ∧ t.up = t.safe.beatAt ∧ t.mem = s.mem := by
  have hu : (advanceUp s (s.safe.beatAt + 1000000)).up = s.safe.beatAt + 1000000 := by rw [advanceUp_up]; omega
  rw [exec, execIslandHeartbeat, if_neg (by simp [hrun, hb])]
  refine ⟨_, rfl, ?_, ?_, ?_⟩
  · simp [sicPulse, hu]
  · simp [sicPulse]
  · simp [sicPulse, advanceUp]

/-- The island's end drops both requests and the heartbeat (R454). -/
theorem islandStops_parts (hf : s.safe.fatal = none) (he : s.epochs = []) (cause event : Nat) :
    (islandStops s cause event).safe.fatal.map (·.1) = some cause ∧ (islandStops s cause event).safe.running = false ∧ (islandStops s cause event).safe.beating = false ∧ (islandStops s cause event).safe.req0 = false ∧ (islandStops s cause event).safe.req1 = false := by
  have hh := holdFatal_new (s := raise s (reportOf s sevFatal 15 0 event)) (by simp [hf]) (by simp [he]) cause s.safe.next
  have hfatal := (driveSafe_flows { raise s (reportOf s sevFatal 15 0 event) with safe.fatal := some (cause, s.safe.next), safe.fatalAt := (raise s (reportOf s sevFatal 15 0 event)).up, eth.pending := (raise s (reportOf s sevFatal 15 0 event)).eth.pending.filter (fun m => !m.2.guarded) }).2.1
  obtain ⟨hr0, hr1, -, -⟩ := driveSafe_fatal (s := { raise s (reportOf s sevFatal 15 0 event) with safe.fatal := some (cause, s.safe.next), safe.fatalAt := (raise s (reportOf s sevFatal 15 0 event)).up, eth.pending := (raise s (reportOf s sevFatal 15 0 event)).eth.pending.filter (fun m => !m.2.guarded) }) rfl
  simp only [islandStops, hh, hfatal, hr0, hr1, Option.map_some, and_self]

theorem lockstepMismatch_running (hrun : s.safe.running = true) : exec .lockstepMismatch s = .next (islandStops s 1 0x0140) := by
  rw [exec, execLockstepMismatch, if_neg (by simp [hrun])]

theorem islandWatchdogExpiry_running (hrun : s.safe.running = true) : exec .islandWatchdogExpiry s = .next (islandStops s 2 stInternal) := by
  rw [exec, execIslandWatchdogExpiry, if_neg (by simp [hrun])]

theorem firmwareHeartbeat_noted (hrun : s.safe.running = true) : ∃ t, exec .firmwareHeartbeat s = .next t ∧ t.safe.fwBeat = some s.up ∧ { t with sic := s.sic, safe := s.safe } = s := by
  rw [exec, execFirmwareHeartbeat, if_neg (by simp [hrun])]
  exact ⟨_, rfl, by simp [sicPulse], rfl⟩

/-- A FATAL report enters the intake while a place is left (R461). -/
theorem raise_fatal {r : Report} (hup : s.safe.intakeUp = true) (hr : r.severity = 3) (hroom : s.safe.intake.length < 64) :
    ∃ x, (raise s r).safe.intake = queueReport x s.safe.intake ∧ x.severity = 3 ∧ x.event = r.event := by
  obtain ⟨hsev, -, -, hev, -⟩ := nest_source s r
  rw [raise_enters hup (.inr ⟨by rw [hr]; decide, hroom⟩)]
  exact ⟨nest s r, (enterIntake_intake s _).1, hsev.trans hr, hev⟩

theorem firmwareSilent_reports {v : Nat} (hrun : s.safe.running = true) (hv : s.safe.fwBeat = some v) (hup : s.up ≤ v + 10000000) (hin : s.safe.intakeUp = true) (hroom : s.safe.intake.length < 64) :
    ∃ t x, exec .firmwareSilent s = .next t ∧ t.up = v + 10000000 ∧ t.safe.fwBeat = none ∧ t.safe.intake = queueReport x s.safe.intake ∧ x.severity = 3 ∧ x.event = 0x0143 := by
  have hu : (advanceUp s (v + 10000000)).up = v + 10000000 := by rw [advanceUp_up]; omega
  obtain ⟨x, hx, hsev, hev⟩ := raise_fatal (s := { advanceUp s (v + 10000000) with safe.fwBeat := none }) (r := reportOf (advanceUp s (v + 10000000)) sevFatal 15 0 0x0143) hin rfl hroom
  rw [exec, execFirmwareSilent]
  simp only [hv]
  rw [if_neg (by simp [hrun])]
  exact ⟨_, x, rfl, by simp [hu], by simp, hx, hsev, hev⟩

theorem imageCheck_good : exec (.imageCheck true true) s = .next s := by
  rw [exec, execImageCheck]
  exact if_pos (by simp)

theorem imageCheck_bad (hrun : s.safe.running = true) (hi : s.sec.image.isSome = true) (hin : s.safe.intakeUp = true) (hroom : s.safe.intake.length < 64) :
    ∃ t x, exec (.imageCheck false true) s = .next t ∧ t.safe.intake = queueReport x s.safe.intake ∧ x.severity = 3 ∧ x.event = 0x0145 := by
  obtain ⟨x, hx, hsev, hev⟩ := raise_fatal (r := reportOf s sevFatal 15 0 0x0145) hin rfl hroom
  rw [exec, execImageCheck, if_neg (by simp [hrun, Option.isSome_iff_ne_none.1 hi])]
  exact ⟨_, x, rfl, hx, hsev, hev⟩

end Island

section Escalation
variable {s : State}

/-- No reset of a domain touches the counter of the device's age. -/
theorem resetDomain_up (s : State) (d : Domain) : (resetDomain s d).up = s.up := by
  have hports {u v : State} (h : sansPorts u = sansPorts v) : u.up = v.up := (congrArg State.up h :)
  unfold resetDomain
  split
  · rfl
  · rfl
  · exact (show (resetFab (txDisable s)).up = (txDisable s).up from rfl).trans (hports (txDisable_sansPorts s))
  · exact foldl_keeps State.up resetFn (fun _ _ => rfl) (List.range 14) s
  · rfl
  · rfl
  · rfl
  · exact (hports (endTests_sansPorts _ _ _)).trans rfl
  · exact (hports (endTests_sansPorts _ _ _)).trans rfl
  · exact (hports (endTests_sansPorts _ _ _)).trans rfl

theorem assertCause_up (s : State) (k : Nat) : (assertCause s k).up = s.up := by
  have hjoin : (joinSequence (countCause s k) k).up = s.up := by
    simp only [joinSequence]
    split <;> rfl
  simp only [assertCause]
  split
  · exact hjoin
  · exact (congrArg State.up (dropTests_sansPorts _) :).trans ((foldl_keeps State.up resetDomain resetDomain_up _ _).trans hjoin)

theorem safetyEscalation_none (hf : s.safe.fatal = none) : exec .safetyEscalation s = .next s := by
  rw [exec, execSafetyEscalation]
  simp only [hf]

theorem safetyEscalation_unasked {c n : Nat} (hf : s.safe.fatal = some (c, n)) (hc : c ≠ 1) (hi : s.sec.image.any (·.fatalReset) = false) : exec .safetyEscalation s = .next s := by
  rw [exec, execSafetyEscalation]
  simp only [hf]
  exact if_neg (by simp [hi, hc])

theorem safetyEscalation_asserts {n : Nat} (hf : s.safe.fatal = some (1, n)) (hpow : logicPowered s = true) : exec .safetyEscalation s = .next (assertCause (advanceUp s (s.safe.fatalAt + 100000000)) 8) := by
  rw [exec, execSafetyEscalation]
  simp only [hf]
  rw [if_pos (.inr trivial), logicCause, if_pos (by exact hpow)]

end Escalation

/-- Settles O46: the verdict by what EMIT writes for it, the latch and the channels by their conditions, the island by its own events. -/
theorem verdictsChannelsIsland : Obligations.VerdictsChannelsIsland := by
  unfold Obligations.VerdictsChannelsIsland
  refine ⟨fun s did f => ⟨fun c n e r he hr hf hg hw hend hrun hgrid => ⟨verdictFormed_passes he hr hf hg hw hend hrun hgrid, verdictFormed_fatal he hr hg hw hend hrun hgrid⟩, fun c n e r => verdictFormed_written,
      fun hd hf hrun hl hc => ⟨latchClear_accepted hd hf hrun hl hc, latchClear_refused hd hf hrun hl hc⟩, otherDid_ignored, fun hd hrun => ⟨?ackZero, ?refused, ?ackOne⟩⟩,
    fun s => ⟨island_stopped, fun hrun => ⟨islandHeartbeat_beats hrun, fun hf he => ⟨?lockstep, ?watchdog⟩, firmwareHeartbeat_noted hrun, fun v => firmwareSilent_reports hrun, fun _ => imageCheck_good, imageCheck_bad hrun⟩,
      safetyEscalation_none, fun c n => safetyEscalation_unasked, ?escalates⟩⟩
  case ackZero =>
    intro hm ha
    exact ⟨_, (safeAck_one hd hrun).1, ackChannel_zero hm ha⟩
  case refused => exact fun hm => by rw [(safeAck_one hd hrun).1, ackChannel_refused hm]
  case ackOne =>
    intro hm ha
    exact ⟨_, (safeAck_one hd hrun).2, ackChannel_one hm ha⟩
  case lockstep => exact ⟨_, lockstepMismatch_running hrun, islandStops_parts hf he _ _⟩
  case watchdog => exact ⟨_, islandWatchdogExpiry_running hrun, islandStops_parts hf he _ _⟩
  case escalates =>
    intro n hf hpow
    refine ⟨_, safetyEscalation_asserts hf hpow, ?_, ?_, fun hseq hin => ?_⟩
    · rw [assertCause_up, advanceUp_up]
    · rw [assertCause_counts, Tbl.at_put_same]
      rfl
    · obtain ⟨-, -, hlast, hsc, -⟩ := assertCause_new (s := advanceUp s (s.safe.fatalAt + 100000000)) (k := 8) hseq
      exact ⟨hlast, hsc, (assertCause_device (s := advanceUp s (s.safe.fatalAt + 100000000)) (k := 8) hseq (by simp [scopeOf]) hin).1⟩

/-! ## Tests, isolation and readmission of units -/

/-! ### Golden runs, self-test slices, isolation and readmission (R480 to R494) -/

section Units
variable {s : State} {u : Nat}

theorem unitSafe_of_units {t v : State} (h : t.safe.units = v.safe.units) (u : Nat) : unitSafe t u = unitSafe v u := by
  rw [unitSafe, unitSafe, h]

theorem unitReport_parts (s : State) (sev u ev : Nat) : (unitReport s sev u ev).severity = sev ∧ (unitReport s sev u ev).event = ev := by
  simp only [unitReport]
  repeat' split
  all_goals exact ⟨rfl, rfl⟩

/-- A unit in service that is taken out: the cause, the step of its readmission, its copies, and no byte unless an MMA ran (R488, R489). -/
theorem takeOut_engine {cause : Nat} (hu : u < 72) (hsv : (unitSafe s u).service ≠ 2) :
    ∃ y, unitSafe (takeOut s u cause) u = y ∧ y.service = 2 ∧ y.cause = cause ∧ y.test = .none ∧ y.goldenBad = (unitSafe s u).goldenBad ∧ y.sliceFails = (unitSafe s u).sliceFails ∧ y.owed = (unitSafe s u).owed ∧ (cause = causeIsolate → y.step = 0) ∧
      (engineOf (takeOut s u cause) u).copies = [] ∧ ((∀ i, (thread s i).mma = none) → (takeOut s u cause).mem = s.mem) ∧ (∀ v, v ≠ u → unitSafe (takeOut s u cause) v = unitSafe s v) := by
  obtain ⟨y, hy⟩ : ∃ y, y = { unitSafe s u with
      service := 2, cause := cause, outs := satAdd 8 (unitSafe s u).outs 1, outAt := s.up :: (unitSafe s u).outAt.filter (fun t => decide (s.up ≤ t + 3600000000000))
      blocked := cause != causeIsolate && decide (readmitMax s < (s.up :: (unitSafe s u).outAt.filter (fun t => decide (s.up ≤ t + 3600000000000))).length), test := .none
      step := if cause = causeIsolate ∨ (cause != causeIsolate && decide (readmitMax s < (s.up :: (unitSafe s u).outAt.filter (fun t => decide (s.up ≤ t + 3600000000000))).length)) = true ∨ (unitSafe s u).startup = true then 0 else 1 } := ⟨_, rfl⟩
  have htake : takeOut s u cause = isolateUnit (setUnit s u y) u := by
    rw [takeOut]
    dsimp only
    rw [if_neg hsv, hy]
  obtain ⟨hisland, hcopies, hmem⟩ := isolateUnit_engine (s := setUnit s u y) hu
  have hunits : (takeOut s u cause).safe.units = (setUnit s u y).safe.units := by
    rw [htake]
    exact (congrArg Safe.units hisland :)
  refine ⟨y, (unitSafe_of_units hunits u).trans (Tbl.at_put_same ..), by rw [hy], by rw [hy], by rw [hy], by rw [hy], by rw [hy], by rw [hy], fun hc => by rw [hy]; exact if_pos (.inl hc), htake ▸ hcopies, fun h => htake ▸ hmem h,
    fun v hv => (unitSafe_of_units hunits v).trans (Tbl.at_put_other _ _ _ hv)⟩

/-- A failed test takes its unit out of service (R457). -/
theorem failTest_engine {ev cause d1 d2 : Nat} (hu : u < 72) (hsv : (unitSafe s u).service ≠ 2) :
    ∃ y, unitSafe (failTest s u ev cause d1 d2) u = y ∧ y.service = 2 ∧ y.cause = cause ∧ y.goldenBad = (unitSafe s u).goldenBad ∧ y.sliceFails = (unitSafe s u).sliceFails ∧ y.owed = (unitSafe s u).owed ∧
      ((∀ i, (thread s i).mma = none) → (failTest s u ev cause d1 d2).mem = s.mem) := by
  obtain ⟨v, hv⟩ : ∃ v, raise s { unitReport s sevDoubt u ev with guarded := true, flows := unitFlows s u, detail := d1, detail2 := d2 } = v := ⟨_, rfl⟩
  have hunit : unitSafe v u = unitSafe s u := unitSafe_of_units (by rw [← hv]; simp) u
  have heng : v.eng = s.eng ∧ v.mem = s.mem := by rw [← hv]; simp
  have hfail : failTest s u ev cause d1 d2 = takeOut v u cause := by rw [failTest, hv]
  obtain ⟨y, hy, hservice, hcause, -, hbad, hslices, howed, -, -, hmem, -⟩ := takeOut_engine (s := v) (cause := cause) hu (by rw [hunit]; exact hsv)
  rw [hunit] at hbad hslices howed
  rw [hfail]
  refine ⟨y, hy, hservice, hcause, hbad, hslices, howed, fun h => ?_⟩
  have hidle : ∀ i, (thread v i).mma = none := fun i => by
    rw [thread, heng.1]
    exact h i
  exact (hmem hidle).trans heng.2

end Units

section Tests
variable {s : State} {u : Nat}

theorem startGolden_starts (hsv : (unitSafe s u).service = 0) (hidle : unitIdle s u = true) (hne : (unitSafe s u).owed ≠ []) : startGolden s u = setUnit s u { unitSafe s u with test := .golden s.up } := by
  rw [startGolden]
  exact if_neg (by simp [hsv, hidle, hne])

theorem startGolden_nothing (h : (unitSafe s u).owed = []) : startGolden s u = s := by
  rw [startGolden]
  exact if_pos (by simp [h])

theorem goldenRun_running (hu : u < 88) (hrun : s.safe.running = true) : exec (.goldenRun u) s = .next (startGolden s u) := by
  rw [exec, execGoldenRun, if_neg (by simp [hrun]; omega)]

section Schedule
variable (hu : u < 88) (hrun : s.safe.running = true) (hsv : (unitSafe s u).service = 0) (hidle : unitIdle s u = true)
include hu hrun hsv hidle

theorem scheduleGuard : ¬ (88 ≤ u ∨ (!s.safe.running) = true ∨ (unitSafe s u).service ≠ 0 ∨ (!unitIdle s u) = true) := by
  simp [hrun, hsv, hidle]
  omega

theorem selftestSchedule_golden (hne : (unitSafe s u).owed ≠ []) : exec (.selftestSchedule u) s = .next (startGolden s u) := by
  rw [exec, execSelftestSchedule]
  rw [if_neg (scheduleGuard hu hrun hsv hidle), if_pos (by simp [hne])]

theorem selftestSchedule_slice {k : Nat} (he : (unitSafe s u).owed = []) (hk : chooseSlice s u = some k) (hw : workWaits s u = false) :
    exec (.selftestSchedule u) s = .next (setUnit s u { unitSafe s u with test := .slice k s.up }) := by
  rw [exec, execSelftestSchedule]
  rw [if_neg (scheduleGuard hu hrun hsv hidle), if_neg (by simp [he])]
  simp only [hk]
  rw [if_neg (by simp [hw])]

theorem selftestSchedule_none (he : (unitSafe s u).owed = []) (hk : chooseSlice s u = none) : exec (.selftestSchedule u) s = .next s := by
  rw [exec, execSelftestSchedule]
  rw [if_neg (scheduleGuard hu hrun hsv hidle), if_neg (by simp [he])]
  simp only [hk]

end Schedule

theorem untested_quiet (h : (unitSafe s u).test = .none) (b : Bool) : exec (.goldenRunEnd u b) s = .next s ∧ exec (.selftestSliceEnd u b) s = .next s ∧ exec (.selftestAbort u) s = .next s := by
  simp only [exec, execGoldenRunEnd, execSelftestSliceEnd, execSelftestAbort, abortTest, h, and_self]

theorem restartUnit_engine (hu : u < 72) (s : State) : restartUnit s u = s := by
  rw [restartUnit, if_pos hu]

theorem goldenRunEnd_passes {v : Nat} (h : (unitSafe s u).test = .golden v) (hu : u < 72) :
    exec (.goldenRunEnd u true) s = .next (setUnit s u { unitSafe s u with test := .none, owed := [], goldenOk := satAdd 24 (unitSafe s u).goldenOk 1 }) := by
  simp only [exec, execGoldenRunEnd, h, if_true, restartUnit_engine hu]

/-- The flows that a failed golden run fails are records of epochs (R481). -/
theorem failCovered_frame (s : State) (u : Nat) (owed : List (Nat × Nat)) : { failCovered s u owed with epochs := s.epochs } = s := by
  have hfold (l : List Epoch) (v : State) : { l.foldl (fun s e =>
      if !owed.contains (e.cadence, e.epoch) then s
      else updEpoch s e.cadence e.epoch (fun e => { e with flows := e.flows.map (fun r =>
        if !r.guarded ∧ !r.written ∧ r.runs ∧ usable r.status ∧ (unitSafe s u).used.contains (r.flow, e.cadence, e.epoch) then { r with status := stMismatch } else r) })) v with epochs := s.epochs } = { v with epochs := s.epochs } := by
    induction l generalizing v with
    | nil => rfl
    | cons e l ih =>
      rw [List.foldl_cons, ih]
      split <;> rfl
  exact hfold s.epochs s

theorem goldenRunEnd_fails {v : Nat} (h : (unitSafe s u).test = .golden v) (hu : u < 72) (hsv : (unitSafe s u).service = 0) :
    ∃ t, exec (.goldenRunEnd u false) s = .next t ∧ (unitSafe t u).service = 2 ∧ (unitSafe t u).cause = 2 ∧ (unitSafe t u).goldenBad = min ((unitSafe s u).goldenBad + 1) 255 ∧ (unitSafe t u).owed = [] ∧ ((∀ i, (thread s i).mma = none) → t.mem = s.mem) := by
  obtain ⟨w, hw⟩ : ∃ w, failCovered s u (unitSafe s u).owed = w := ⟨_, rfl⟩
  have hframe : { w with epochs := s.epochs } = s := hw ▸ failCovered_frame s u _
  obtain ⟨q, hq⟩ : ∃ q : State, q = setEngine (setUnit w u { unitSafe s u with test := .none, owed := [], goldenBad := satAdd 8 (unitSafe s u).goldenBad 1 }) u { engineOf (setUnit w u { unitSafe s u with test := .none, owed := [], goldenBad := satAdd 8 (unitSafe s u).goldenBad 1 }) u with goldenFail := satAdd 8 (engineOf (setUnit w u { unitSafe s u with test := .none, owed := [], goldenBad := satAdd 8 (unitSafe s u).goldenBad 1 }) u).goldenFail 1 } := ⟨_, rfl⟩
  have hunit : unitSafe q u = { unitSafe s u with test := .none, owed := [], goldenBad := satAdd 8 (unitSafe s u).goldenBad 1 } := by
    rw [hq]
    exact Tbl.at_put_same ..
  obtain ⟨y, hy, hservice, hcause, hbad, -, howed, hmem⟩ := failTest_engine (s := q) (u := u) (ev := 0x0131) (cause := causeGolden) (d1 := (newestOwed (unitSafe s u)).2 % 2 ^ 32) (d2 := (newestOwed (unitSafe s u)).1 % 32) hu (by rw [hunit]; simp [hsv])
  rw [hunit] at hbad howed
  refine ⟨_, ?_, by rw [hy, hservice], by rw [hy, hcause]; rfl, by rw [hy, hbad]; rfl, by rw [hy, howed], fun hidle => ?_⟩
  · simp only [exec, execGoldenRunEnd, h, Bool.false_eq_true, if_false, hw, if_pos hu, ← hq]
  · have hthread : ∀ i, thread q i = thread s i := fun i => by
      rw [hq]
      exact (congrArg (fun a : State => thread a i) hframe :)
    exact (hmem fun i => by rw [hthread]; exact hidle i).trans (by rw [hq]; exact (congrArg State.mem hframe :))

theorem selftestSliceEnd_passes {k v : Nat} (h : (unitSafe s u).test = .slice k v) (hu : u < 72) :
    ∃ t, exec (.selftestSliceEnd u true) s = .next t ∧ (unitSafe t u).test = .none ∧ (unitSafe t u).passes.find k = some s.up ∧ (unitSafe t u).service = (unitSafe s u).service ∧ { t with safe := s.safe } = s := by
  simp only [exec, execSelftestSliceEnd, h, if_true, restartUnit_engine hu]
  split
  · rw [show unitSafe (setUnit s u _) u = _ from Tbl.at_put_same ..]
    refine ⟨_, rfl, ?_, ?_, ?_, rfl⟩ <;> rw [show unitSafe (setUnit _ u _) u = _ from Tbl.at_put_same ..]
    exact Tbl.find_put_same ..
  · refine ⟨_, rfl, ?_, ?_, ?_, rfl⟩ <;> rw [show unitSafe (setUnit s u _) u = _ from Tbl.at_put_same ..]
    exact Tbl.find_put_same ..

theorem selftestSliceEnd_fails {k v : Nat} (h : (unitSafe s u).test = .slice k v) (hu : u < 72) (hsv : (unitSafe s u).service = 0) :
    ∃ t, exec (.selftestSliceEnd u false) s = .next t ∧ (unitSafe t u).service = 2 ∧ (unitSafe t u).cause = 3 ∧ (unitSafe t u).sliceFails = min ((unitSafe s u).sliceFails + 1) 255 ∧ ((∀ i, (thread s i).mma = none) → t.mem = s.mem) := by
  have hunit : unitSafe (setUnit s u { unitSafe s u with test := .none, sliceFails := satAdd 8 (unitSafe s u).sliceFails 1 }) u = { unitSafe s u with test := .none, sliceFails := satAdd 8 (unitSafe s u).sliceFails 1 } := Tbl.at_put_same ..
  obtain ⟨y, hy, hservice, hcause, -, hfails, -, hmem⟩ := failTest_engine (s := setUnit s u { unitSafe s u with test := .none, sliceFails := satAdd 8 (unitSafe s u).sliceFails 1 }) (u := u) (ev := 0x0132) (cause := causeSelftest) (d1 := 0) (d2 := 0) hu (by rw [hunit]; simp [hsv])
  rw [hunit] at hfails
  refine ⟨_, ?_, by rw [hy, hservice], by rw [hy, hcause]; rfl, by rw [hy, hfails]; rfl, fun hidle => hmem hidle⟩
  simp only [exec, execSelftestSliceEnd, h, Bool.false_eq_true, if_false]

theorem selftestAbort_golden {v : Nat} (h : (unitSafe s u).test = .golden v) : exec (.selftestAbort u) s = .next (setUnit s u { unitSafe s u with test := .none, aborts := satAdd 12 (unitSafe s u).aborts 1 }) := by
  simp only [exec, execSelftestAbort, abortTest, h]

theorem selftestAbort_slice {k v : Nat} (h : (unitSafe s u).test = .slice k v) :
    exec (.selftestAbort u) s = .next (setUnit s u { unitSafe s u with test := .none, aborts := if v = s.up then (unitSafe s u).aborts else satAdd 12 (unitSafe s u).aborts 1 }) := by
  simp only [exec, execSelftestAbort, abortTest, h]

/-- A unit whose slices are 1 s old is reported once (R485). -/
theorem latentTestOverdue_warns (hu : u < 88) (hrun : s.safe.running = true) (hsv : (unitSafe s u).service ≠ 2) (hw : (unitSafe s u).warned = false) (hup : s.safe.intakeUp = true) (hroom : s.safe.intake.length < 56) :
    ∃ t r, exec (.latentTestOverdue u) s = .next t ∧ (unitSafe t u).warned = true ∧ t.safe.overdueWarn = true ∧ t.safe.intake = queueReport r s.safe.intake ∧ r.severity = 1 ∧ r.event = 0x0133 := by
  obtain ⟨a, ha⟩ : ∃ a, advanceUp s (s.up - testAge s u + 1000000000) = a := ⟨_, rfl⟩
  have hsafe : a.safe = s.safe := by rw [← ha]; rfl
  obtain ⟨b, hb⟩ : ∃ b : State, b = { setUnit a u { unitSafe s u with warned := true } with safe.overdueWarn := true } := ⟨_, rfl⟩
  obtain ⟨hsev, hev⟩ := unitReport_parts a sevWarn u 0x0133
  obtain ⟨hsev', -, -, hev', -⟩ := nest_source b (unitReport a sevWarn u 0x0133)
  have hent := raise_enters (s := b) (r := unitReport a sevWarn u 0x0133) (by rw [hb]; exact (congrArg Safe.intakeUp hsafe).trans hup) (.inl (by rw [hb]; exact (congrArg (fun x : Safe => x.intake.length) hsafe).trans_lt hroom))
  obtain ⟨hin, -⟩ := enterIntake_intake b (nest b (unitReport a sevWarn u 0x0133))
  obtain ⟨i, o, f, l, hkept⟩ := raise_safe b (unitReport a sevWarn u 0x0133)
  refine ⟨raise b (unitReport a sevWarn u 0x0133), nest b (unitReport a sevWarn u 0x0133), ?_, ?_, ?_, ?_, hsev'.trans hsev, hev'.trans hev⟩
  · rw [exec, execLatentTestOverdue]
    dsimp only
    rw [if_neg (by simp [hrun, hsv]; omega), if_pos (by simp [hw]), ha, hb]
  · rw [unitSafe, hkept, hb]
    exact congrArg UnitSafe.warned (Tbl.at_put_same ..)
  · rw [hkept, hb]
  · rw [hent, hin]
    exact congrArg (queueReport _) (by rw [hb]; exact (congrArg Safe.intake hsafe :))

theorem latentTestOverdue_out (h : (unitSafe s u).service = 2) : exec (.latentTestOverdue u) s = .next s := by
  rw [exec, execLatentTestOverdue]
  exact if_pos (.inr (.inl h))

end Tests

section Readmission
variable {s : State} {did u : Nat}

theorem unitIsolate_out (hsel : unitSelected s did = u) (h : (unitSafe s u).service = 2) : exec (.unitIsolate did) s = .next s := by
  rw [exec, execUnitIsolate, hsel]
  exact if_pos (by simp [h])

theorem unitReadmit_in (hsel : unitSelected s did = u) (h : (unitSafe s u).service ≠ 2) : exec (.unitReadmit did) s = .next s := by
  rw [exec, execUnitReadmit, hsel]
  exact if_pos (by simp [h])

section Isolate
variable (hd : did = 1 ∨ did = 2) (hsel : unitSelected s did = u)
variable (hu : u < 88) (hrun : s.safe.running = true)
include hd hsel hu hrun

theorem unitIsolate_takes (hu' : u < 72) (h : (unitSafe s u).service ≠ 2) :
    ∃ t, exec (.unitIsolate did) s = .next t ∧ (unitSafe t u).service = 2 ∧ (unitSafe t u).cause = 4 ∧ (unitSafe t u).step = 0 ∧ (engineOf t u).copies = [] ∧ ((∀ i, (thread s i).mma = none) → t.mem = s.mem) ∧ (∀ v, v ≠ u → unitSafe t v = unitSafe s v) := by
  obtain ⟨y, hy, hservice, hcause, -, -, -, -, hstep, hcopies, hmem, hothers⟩ := takeOut_engine (s := s) (cause := causeIsolate) hu' h
  obtain ⟨hunits, heng, hm, -⟩ := recordOut_units (takeOut s u causeIsolate) u none
  have hunit (v : Nat) : unitSafe (recordOut (takeOut s u causeIsolate) u none) v = unitSafe (takeOut s u causeIsolate) v := unitSafe_of_units hunits v
  refine ⟨recordOut (takeOut s u causeIsolate) u none, ?_, by rw [hunit, hy, hservice], by rw [hunit, hy, hcause]; rfl, by rw [hunit, hy, hstep rfl], ?_, fun hidle => hm.trans (hmem hidle), fun v hv => (hunit v).trans (hothers v hv)⟩
  · rw [exec, execUnitIsolate, hsel, if_neg (by rcases hd with rfl | rfl <;> simp [hrun, h] <;> omega)]
  · rw [engineOf, heng]
    exact hcopies

theorem unitReadmit_starts (h : (unitSafe s u).service = 2) (hstep : (unitSafe s u).step = 0) :
    exec (.unitReadmit did) s = .next (setUnit s u { unitSafe s u with step := 1, startup := false, blocked := false }) := by
  rw [exec, execUnitReadmit, hsel, if_neg (by rcases hd with rfl | rfl <;> simp [hrun, h, hstep] <;> omega)]

end Isolate

theorem readmissionStep_none (h : (unitSafe s u).step = 0) : exec (.readmissionStep u 0) s = .next s := by
  simp [exec, execReadmissionStep, h]

theorem readmissionStep_fenced (h : (unitSafe s u).step = 1) : exec (.readmissionStep u 0) s = .next (setUnit s u { unitSafe s u with service := 1, step := 2, owed := [], test := .none }) := by
  simp [exec, execReadmissionStep, h]

theorem find_filter_none {α : Type} {t : Tbl α} {p : Nat × α → Bool} {i : Nat} (h : ∀ x, p (i, x) = false) : Tbl.find (t.filter p) i = none := by
  induction t with
  | nil => rfl
  | cons q t ih =>
    obtain ⟨k, x⟩ := q
    rw [List.filter_cons]
    split
    · next hp =>
      have hne : i ≠ k := fun heq => by simp [← heq, h x] at hp
      rw [Tbl.find, if_neg hne, ih]
    · exact ih

/-- The bytes of an engine's tile SRAM (R278). -/
def inTile (u k : Nat) : Bool := decide (Space.key (.tile u) 0 ≤ k) && decide (k < Space.key (.tile u) 0 + 2 ^ 21)

theorem inTile_key (u a : Nat) : inTile u (Space.key (.tile u) a) = true := by
  rw [inTile, Bool.and_eq_true, decide_eq_true_eq, decide_eq_true_eq, Space.key, Space.key]
  omega

/-- The reset of an engine empties its threads and zeroes its tile SRAM (R491). -/
theorem readmissionStep_reset (h : (unitSafe s u).step = 2) (hu : u < 72) :
    ∃ t, exec (.readmissionStep u 0) s = .next t ∧ (unitSafe t u).step = 3 ∧ (∀ i, i < 64 → thread t (64 * u + i) = Thread.reset) ∧ (∀ a, Memory.read t.mem (Space.key (.tile u) a) = 0) ∧
      (∀ k, (k < Space.key (.tile u) 0 ∨ Space.key (.tile u) 0 + 2 ^ 21 ≤ k) → Memory.read t.mem k = Memory.read s.mem k) := by
  have hmem : (resetUnit s u).mem = s.mem.filter (fun c => !inTile u c.1) := by rw [resetUnit, if_pos hu]; rfl
  have hthreads : (resetUnit s u).eng.threads = s.eng.threads.filter (fun p => p.1 / 64 ≠ u) := by rw [resetUnit, if_pos hu]; rfl
  have hexec : exec (.readmissionStep u 0) s = .next (setUnit (resetUnit s u) u { unitSafe (resetUnit s u) u with step := 3 }) := by
    simp [exec, execReadmissionStep, h, hu]
  refine ⟨_, hexec, congrArg UnitSafe.step (Tbl.at_put_same ..), fun i hi => ?_, fun a => ?_, fun k hk => ?_⟩
  · change Tbl.at Thread.reset (resetUnit s u).eng.threads (64 * u + i) = Thread.reset
    rw [hthreads, Tbl.at, find_filter_none fun x => ?_]
    · rfl
    · have hdiv : (64 * u + i) / 64 = u := by omega
      simp [hdiv]
  · change Memory.read (resetUnit s u).mem _ = 0
    rw [hmem]
    exact read_filter_not fun c hc => by rw [hc, inTile_key]; rfl
  · change Memory.read (resetUnit s u).mem k = _
    rw [hmem]
    exact Memory.read_filter_other s.mem (fun c => !inTile u c) (by
      simp only [inTile, Bool.not_eq_true', Bool.and_eq_false_iff, decide_eq_false_iff_not]
      omega)

theorem readmissionStep_reload (h : (unitSafe s u).step = 3) (he : (engineOf s u).resident = []) : exec (.readmissionStep u 0) s = .next (setUnit s u { unitSafe s u with step := 4 }) := by
  simp [exec, execReadmissionStep, h, reloadPrograms, he]

theorem readmissionStep_golden (h : (unitSafe s u).step = 4) : exec (.readmissionStep u 0) s = .next (setUnit s u { unitSafe s u with step := 5, goldenOk := satAdd 24 (unitSafe s u).goldenOk 1 }) := by
  simp [exec, execReadmissionStep, h]

theorem readmissionStep_goldenFails (h : (unitSafe s u).step = 4) (hu : u < 72) (hsv : (unitSafe s u).service ≠ 2) :
    ∃ t, exec (.readmissionStep u 1) s = .next t ∧ (unitSafe t u).service = 2 ∧ (unitSafe t u).cause = 2 := by
  have hunit : unitSafe (setUnit s u { unitSafe s u with goldenBad := satAdd 8 (unitSafe s u).goldenBad 1 }) u = { unitSafe s u with goldenBad := satAdd 8 (unitSafe s u).goldenBad 1 } := Tbl.at_put_same ..
  obtain ⟨y, hy, hservice, hcause, -⟩ := failTest_engine (s := setUnit s u { unitSafe s u with goldenBad := satAdd 8 (unitSafe s u).goldenBad 1 }) (u := u) (ev := 0x0131) (cause := causeGolden) (d1 := 0) (d2 := 0) hu (by rw [hunit]; exact hsv)
  refine ⟨_, ?_, by rw [hy, hservice], by rw [hy, hcause]; rfl⟩
  rw [exec, execReadmissionStep, if_neg (by omega), if_neg (by omega), if_neg (by omega), if_pos h, if_neg (by omega), if_pos rfl]

theorem readmissionStep_waits (h : (unitSafe s u).step = 5) (hs : (unitSafe s u).startup = false) (hr : anyRunning s = true) :
    ∃ t, exec (.readmissionStep u 0) s = .next t ∧ (unitSafe t u).step = 6 ∧ (unitSafe t u).service = (unitSafe s u).service ∧ { t with safe := s.safe } = s := by
  have hr' (x : UnitSafe) : anyRunning (setUnit s u x) = true := hr
  simp only [exec, execReadmissionStep, h, hs, hr', Bool.not_true, Bool.false_eq_true, or_self, if_false, if_true]
  refine ⟨_, rfl, ?_, ?_, rfl⟩ <;> rw [show unitSafe (setUnit s u _) u = _ from Tbl.at_put_same ..]

theorem unitReadmitted_enters (h : (unitSafe s u).step = 6) (hu : u < 72) (hs : (unitSafe s u).startup = false) :
    ∃ t, exec (.unitReadmitted u) s = .next t ∧ (unitSafe t u).service = 0 ∧ (unitSafe t u).step = 0 ∧ (unitSafe t u).since = s.now ∧ t.mem = s.mem := by
  have hunit (v : State) (r : Report) : unitSafe (raise v r) u = unitSafe v u := unitSafe_of_units (by simp) u
  rw [exec, execUnitReadmitted, if_pos h, restartUnit_engine hu, enterService]
  dsimp only
  rw [if_neg (by simp [hs])]
  exact ⟨_, rfl, (congrArg UnitSafe.service (hunit _ _)).trans (congrArg UnitSafe.service (Tbl.at_put_same ..)), (congrArg UnitSafe.step (hunit _ _)).trans (congrArg UnitSafe.step (Tbl.at_put_same ..)),
    (congrArg UnitSafe.since (hunit _ _)).trans (congrArg UnitSafe.since (Tbl.at_put_same ..)), by simp [setUnit]⟩

theorem unitReadmitted_early (h : (unitSafe s u).step ≠ 6) : exec (.unitReadmitted u) s = .next s := by
  rw [exec, execUnitReadmitted, if_neg h]

end Readmission

/-- Settles O48: a test is a change of its unit's entry, a failed one takes the unit out, and readmission is six such changes. -/
theorem testsAndReadmission : Obligations.TestsAndReadmission := by
  unfold Obligations.TestsAndReadmission
  refine ⟨?tests, ?readmission⟩
  case tests =>
    rintro s u x rfl hu
    refine ⟨fun hrun hsv hidle => ⟨fun hne => ?_, fun he => by rw [goldenRun_running hu hrun, startGolden_nothing he], fun k => selftestSchedule_slice hu hrun hsv hidle, selftestSchedule_none hu hrun hsv hidle⟩,
      fun b h => untested_quiet h b, fun v h hu' => ⟨goldenRunEnd_passes h hu', goldenRunEnd_fails h hu'⟩, fun k v h hu' => ⟨selftestSliceEnd_passes h hu', selftestSliceEnd_fails h hu'⟩,
      fun v => selftestAbort_golden, fun k v => selftestAbort_slice, latentTestOverdue_warns hu, latentTestOverdue_out⟩
    rw [goldenRun_running hu hrun, selftestSchedule_golden hu hrun hsv hidle hne, startGolden_starts hsv hidle hne]
    exact ⟨rfl, rfl⟩
  case readmission =>
    rintro s did u x hu rfl
    exact ⟨fun hd hsel hrun => ⟨unitIsolate_out hsel, unitIsolate_takes hd hsel hu hrun, unitReadmit_starts hd hsel hu hrun, unitReadmit_in hsel⟩, readmissionStep_none, readmissionStep_fenced, readmissionStep_reset,
      readmissionStep_reload, readmissionStep_golden, readmissionStep_goldenFails, readmissionStep_waits, unitReadmitted_enters, unitReadmitted_early⟩

/-! ## Octur ports, packets in transit and link time -/

/-! ### Octur ports, packets in transit and link time (R572 to R577, R581) -/

/-- A report changes the safety island and the interrupt sources alone. -/
theorem raise_rest (s : State) (r : Report) : { raise s r with safe := s.safe, icu := s.icu, sic := s.sic } = s := by
  simp only [raise, raiseNow]
  repeat' split
  · rfl
  · exact (enterIntake_intake s _).2
  · rfl
  · exact (enterIntake_intake s _).2
  · rfl

theorem octPort_of_oct {s t : State} (h : t.oct = s.oct) (q : Nat) : octPort t q = octPort s q := by
  rw [octPort, octPort, h]

@[simp] theorem octPort_emit (s : State) (o : Output) (q : Nat) : octPort (emit s o) q = octPort s q :=
  octPort_of_oct (by simp) q

@[simp] theorem octPort_raise (s : State) (r : Report) (q : Nat) : octPort (raise s r) q = octPort s q :=
  octPort_of_oct (by simp) q

/-! ### A port that faults and a port that sends -/

@[simp] theorem octPort_octFault_same (s : State) (q e : Nat) :
    octPort (octFault s q e) q = { octPort s q with st := .fault, faultAt := s.up, retrains := satAdd 8 (octPort s q).retrains 1, replayCount := 0 } := by
  simp [octFault]

theorem octFault_frame (s : State) (q e : Nat) : { octFault s q e with oct := s.oct, safe := s.safe, icu := s.icu, sic := s.sic } = s := by
  have h := raise_rest (setOct s q { octPort s q with st := .fault, faultAt := s.up, retrains := satAdd 8 (octPort s q).retrains 1, replayCount := 0 })
    (octReport s e q)
  exact (congrArg (fun u : State => { u with oct := s.oct, safe := s.safe, icu := s.icu, sic := s.sic }) h :)

theorem octSend_oct (s : State) (p : Nat) (h : BitVec 128) (pl : List Byte) :
    (octSend s p h pl).oct = { s.oct with ports := s.oct.ports.put p { octPort s p with
      seq := ((octPort s p).seq + 1) % 256, unacked := lastOf 256 ((octPort s p).unacked ++ [((octPort s p).seq, h, pl)]) } } := by
  simp [octSend]

@[simp] theorem octPort_octSend_same (s : State) (p : Nat) (h : BitVec 128) (pl : List Byte) :
    octPort (octSend s p h pl) p = { octPort s p with
      seq := ((octPort s p).seq + 1) % 256, unacked := lastOf 256 ((octPort s p).unacked ++ [((octPort s p).seq, h, pl)]) } := by
  rw [octPort, octSend_oct]
  simp

theorem octPort_octSend_other (s : State) {p q : Nat} (h : BitVec 128) (pl : List Byte) (hq : q ≠ p) : octPort (octSend s p h pl) q = octPort s q := by
  rw [octPort, octSend_oct]
  exact Tbl.at_put_other _ _ _ hq

/-! ### Packets that a port takes -/

theorem octTake_arrives {s : State} {p : OctPacket} {type : Nat} {act : State → State} (h : Arrives s p type) (ht : type ≤ 9) : octTake s p type act = act s := by
  obtain ⟨hup, hport, hcrc, htype, hdst⟩ := h
  rw [octTake, if_neg (by simp [hup]; omega), if_neg (by simp [hcrc]), if_neg (by omega), if_neg (by simp [htype, hdst])]

theorem octTake_of_down {s : State} {p : OctPacket} {type : Nat} {act : State → State} (h : (octPort s p.port).st ≠ .up) : octTake s p type act = s :=
  if_pos (.inl h)

theorem octTake_of_crc {s : State} {p : OctPacket} {type : Nat} {act : State → State} (hup : (octPort s p.port).st = .up) (hport : p.port < 4) (hcrc : p.crcOk = false) :
    octTake s p type act = emit (setOct s p.port { octPort s p.port with crc := satAdd 16 (octPort s p.port).crc 1 }) (.nak p.port) := by
  rw [octTake, if_neg (by simp [hup]; omega), if_pos (by simp [hcrc])]

/-! ### The events of a port -/

section Port
variable {s : State} {q : Nat}

theorem octurHello_up {m pq cols rows : Nat} {torus : Bool} (hq : q < 4) (hen : s.oct.enable = true) (hst : (octPort s q).st = .training ∨ (octPort s q).st = .hello)
    (htest : s.dbg.tests (10 + 4 * q) 4 = false) (hn : octNeighbour s.oct q = some m) (hpq : pq = octOpposite q) (hc : cols = s.oct.cols) (hr : rows = s.oct.rows)
    (ht : torus = s.oct.torus) :
    ∃ t, exec (.octurHello q m pq cols rows torus) s = .next t ∧ (octPort t q).st = .up ∧ (octPort t q).seq = 0 ∧ (octPort t q).unacked = [] ∧
      (octPort t q).peerModule = m % 16 ∧ (∀ r, r ≠ q → octPort t r = octPort s r) := by
  have hidle : ¬ (4 ≤ q ∨ (!s.oct.enable) = true ∨ ((octPort s q).st ≠ .training ∧ (octPort s q).st ≠ .hello) ∨ s.dbg.tests (10 + 4 * q) 4 = true) := by
    simp [hen, htest, hq, imp_iff_not_or, hst]
  rw [exec, execOcturHello, if_neg hidle, if_pos ⟨hn, hpq, hc, hr, ht⟩]
  refine ⟨_, rfl, by simp, by simp, by simp, ?_, fun r hne => ?_⟩
  · rw [octPort_setOct_same, octPort_emit]
    exact congrArg OctPort.peerModule (octPort_setOct_same s q _)
  · rw [octPort_setOct_other _ _ hne, octPort_emit]
    exact octPort_setOct_other s _ hne

theorem octurHello_fault {m pq cols rows : Nat} {torus : Bool} (hq : q < 4) (hen : s.oct.enable = true) (hst : (octPort s q).st = .training ∨ (octPort s q).st = .hello)
    (htest : s.dbg.tests (10 + 4 * q) 4 = false) (hn : octNeighbour s.oct q ≠ some m) :
    ∃ t, exec (.octurHello q m pq cols rows torus) s = .next t ∧ (octPort t q).st = .fault ∧ (octPort t q).faultAt = s.up ∧
      (octPort t q).retrains = satAdd 8 (octPort s q).retrains 1 := by
  have hidle : ¬ (4 ≤ q ∨ (!s.oct.enable) = true ∨ ((octPort s q).st ≠ .training ∧ (octPort s q).st ≠ .hello) ∨ s.dbg.tests (10 + 4 * q) 4 = true) := by
    simp [hen, htest, hq, imp_iff_not_or, hst]
  rw [exec, execOcturHello, if_neg hidle, if_neg fun h => hn h.1]
  refine ⟨_, rfl, by rw [octPort_octFault_same], by rw [octPort_octFault_same]; simp [tickFresh], ?_⟩
  rw [octPort_octFault_same, octPort_emit]
  exact (congrArg (fun x : OctPort => satAdd 8 x.retrains 1) (octPort_setOct_same s q { octPort s q with st := .hello, peerModule := m % 16, peerPort := pq % 4 }) :)

theorem octurRetrain_trains (hen : s.oct.enable = true) (hf : (octPort s q).st = .fault) :
    ∃ t, exec (.octurRetrain q) s = .next t ∧ octPort t q = { octPort s q with st := .training } ∧ t.up = max s.up ((octPort s q).faultAt + 10000000) ∧
      { t with oct := s.oct, icu := s.icu, up := s.up, now := s.now } = s := by
  refine ⟨_, if_neg (by simp [hf, hen]), octPort_setOct_same _ _ _, ?_, rfl⟩
  simp [advanceUp_up]

theorem foldl_emit_length (hb : s.dbg.boundary = false) (l : List (Nat × BitVec 128 × List Byte)) :
    (l.foldl (fun s u => emit s (.packet q u.2.1 u.2.2)) s).out.length = s.out.length + l.length := by
  induction l generalizing s with
  | nil => rfl
  | cons u l ih =>
    have hsent : (emit s (.packet q u.2.1 u.2.2)).out.length = s.out.length + 1 := by simp [emit, hb]
    rw [List.foldl_cons, ih (by simp [hb]), hsent, List.length_cons]
    omega

/-- A replay that is not the eighth of its packet sends the buffered packets again (R576). -/
theorem octurReplay_sends {sq : Nat} (hup : (octPort s q).st = .up) (hb : s.dbg.boundary = false) (hrest : (octPort s q).unacked.dropWhile (fun u => u.1 ≠ sq) ≠ [])
    (hnew : (octPort s q).replayCount = 0 ∨ (octPort s q).replaySeq ≠ sq) :
    ∃ t, exec (.octurReplay q sq) s = .next t ∧ octPort t q = { octPort s q with replays := satAdd 16 (octPort s q).replays 1, replayCount := 1, replaySeq := sq } ∧
      t.out.length = s.out.length + ((octPort s q).unacked.dropWhile (fun u => u.1 ≠ sq)).length := by
  have hcount : ¬ ((octPort s q).replayCount ≠ 0 ∧ (octPort s q).replaySeq = sq) := fun ⟨h0, hsq⟩ => hnew.elim h0 fun hne => hne hsq
  rw [exec, execOcturReplay, if_neg (by simp only [hup, ne_eq, not_true, false_or]; exact hrest)]
  simp only [if_neg hcount, if_neg (show ¬ 8 ≤ 1 by decide)]
  refine ⟨_, rfl, ?_, ?_⟩
  · rw [foldl_keeps (fun t => octPort t q) _ fun t u => octPort_emit t _ q]
    exact octPort_setOct_same s q _
  · rw [foldl_emit_length (by simp [hb])]
    simp

theorem octurReplay_eighth {sq : Nat} (hup : (octPort s q).st = .up) (hrest : (octPort s q).unacked.dropWhile (fun u => u.1 ≠ sq) ≠ [])
    (h7 : (octPort s q).replayCount = 7) (hsq : (octPort s q).replaySeq = sq) : ∃ t, exec (.octurReplay q sq) s = .next t ∧ (octPort t q).st = .fault := by
  rw [exec, execOcturReplay, if_neg (by simp only [hup, ne_eq, not_true, false_or]; exact hrest)]
  simp only [h7, hsq, if_pos (show 7 ≠ 0 ∧ True by decide), if_pos (show 8 ≤ 7 + 1 by decide)]
  exact ⟨_, rfl, by rw [octPort_octFault_same]⟩

theorem octurAckTimeout_fault (hup : (octPort s q).st = .up) (hun : (octPort s q).unacked ≠ []) :
    ∃ t, exec (.octurAckTimeout q) s = .next t ∧ (octPort t q).st = .fault ∧ (octPort t q).retrains = satAdd 8 (octPort s q).retrains 1 ∧
      { t with oct := s.oct, safe := s.safe, icu := s.icu, sic := s.sic } = s :=
  ⟨octFault s q 0x0170, if_neg (by simp [hup, hun]), by rw [octPort_octFault_same], by rw [octPort_octFault_same], octFault_frame s q _⟩

end Port

/-! ### Packets in transit -/

section Transit
variable {s : State} {p : OctPacket}

theorem packetForward_crcNak (hup : (octPort s p.port).st = .up) (hq : p.port < 4) (hdst : p.dst ≠ s.oct.module) (hcrc : p.crcOk = false) : CrcNak (.octurPacketForward p) s p := by
  rw [CrcNak, exec, execOcturPacketForward, if_neg (by simp [hup, hdst]; omega), if_pos (by simp [hcrc])]

/-- A packet in transit leaves at the port of its route where that port is UP, and ends here where it is not (R577). -/
theorem packetForward_routed {r : Nat} (hup : (octPort s p.port).st = .up) (hq : p.port < 4) (hdst : p.dst ≠ s.oct.module) (hcrc : p.crcOk = true) (htype : p.type ≤ 9)
    (hr : octRoute s.oct p.dst = some r) : exec (.octurPacketForward p) s =
      .next (if (octPort s r).st = .up then octSend s r (BitVec.ofNat 128 (setBits p.header.toNat 20 4 (p.f 2 4 4 + 1))) p.payload else s) := by
  rw [exec, execOcturPacketForward, if_neg (by simp [hup, hdst]; omega), if_neg (by simp [hcrc]), if_neg (by omega), hr]
  by_cases h : (octPort s r).st = .up
  · simp [Option.filter, h]
  · simp [Option.filter, h]

end Transit

/-! ### The link time -/

/-- One step of OCTUR_TIME_SEND: an UP port sends the module's time and distance (R581). -/
def timeToPort (s : State) (p : Nat) : State :=
  if (octPort s p).st = .up then octSend s p (octHeader 7 2 0 (octPort s p).peerModule s.oct.module 1 0 0 0 0 (octDistance s)) [] else s

theorem timeToPort_keeps (s : State) (p : Nat) : (timeToPort s p).mem = s.mem ∧ (timeToPort s p).tb = s.tb := by
  rw [timeToPort]
  split <;> simp

theorem timeToPort_other (s : State) {p q : Nat} (h : q ≠ p) : octPort (timeToPort s p) q = octPort s q := by
  rw [timeToPort]
  split
  · exact octPort_octSend_other s _ _ h
  · rfl

theorem timeToPort_same (s : State) (q : Nat) :
    ((octPort s q).st = .up → (octPort (timeToPort s q) q).seq = ((octPort s q).seq + 1) % 256) ∧ ((octPort s q).st ≠ .up → octPort (timeToPort s q) q = octPort s q) := by
  constructor
  · intro h
    rw [timeToPort, if_pos h, octPort_octSend_same]
  · intro h
    rw [timeToPort, if_neg h]

theorem timeToPorts_other {q : Nat} (l : List Nat) (s : State) (h : q ∉ l) : octPort (l.foldl timeToPort s) q = octPort s q := by
  induction l generalizing s with
  | nil => rfl
  | cons p l ih =>
    obtain ⟨hne, hrest⟩ := not_or.mp (List.mem_cons.not.mp h)
    rw [List.foldl_cons, ih _ hrest, timeToPort_other s hne]

/-- Among distinct ports each sends once. -/
theorem timeToPorts_same {q : Nat} (l : List Nat) (s : State) (hl : l.Nodup) (h : q ∈ l) :
    ((octPort s q).st = .up → (octPort (l.foldl timeToPort s) q).seq = ((octPort s q).seq + 1) % 256) ∧
      ((octPort s q).st ≠ .up → octPort (l.foldl timeToPort s) q = octPort s q) := by
  induction l generalizing s with
  | nil => exact absurd h (by simp)
  | cons p l ih =>
    obtain ⟨hp, hrest⟩ := List.nodup_cons.mp hl
    rw [List.foldl_cons]
    by_cases hq : q = p
    · subst hq
      rw [timeToPorts_other l _ hp]
      exact timeToPort_same s q
    · have hin : q ∈ l := (List.mem_cons.mp h).resolve_left hq
      rw [← timeToPort_other s hq]
      exact ih _ hrest hin

theorem octurTimeSend_sends {s : State} {q : Nat} (hq : q < 4) :
    ∃ t, exec .octurTimeSend s = .next t ∧ ((octPort s q).st = .up → (octPort t q).seq = ((octPort s q).seq + 1) % 256) ∧
      ((octPort s q).st ≠ .up → octPort t q = octPort s q) ∧ t.mem = s.mem ∧ t.tb = s.tb := by
  have hsend : ∀ u : State, (∀ r, octPort u r = octPort s r) → u.mem = s.mem → u.tb = s.tb →
      ((octPort s q).st = .up → (octPort ((List.range 4).foldl timeToPort u) q).seq = ((octPort s q).seq + 1) % 256) ∧
      ((octPort s q).st ≠ .up → octPort ((List.range 4).foldl timeToPort u) q = octPort s q) ∧
      ((List.range 4).foldl timeToPort u).mem = s.mem ∧ ((List.range 4).foldl timeToPort u).tb = s.tb := by
    intro u hport hmem htb
    obtain ⟨hup, hdown⟩ := timeToPorts_same (List.range 4) u List.nodup_range (List.mem_range.mpr hq)
    rw [hport] at hup hdown
    exact ⟨hup, hdown, (foldl_keeps State.mem _ (fun t x => (timeToPort_keeps t x).1) _ u).trans hmem, (foldl_keeps State.tb _ (fun t x => (timeToPort_keeps t x).2) _ u).trans htb⟩
  exact ⟨_, rfl, hsend _ (fun r => by split <;> rfl) (by split <;> rfl) (by split <;> rfl)⟩

section Time
variable {s : State} {p : OctPacket} {ta tb tc td : Int} {ga gb : Nat}

theorem time_unheard (harr : Arrives s p 7) (h : octurHeard s = false ∨ p.port ≠ s.tb.octurPort) : exec (.time p ta tb tc td ga gb) s = .next s := by
  rw [exec, execTime, octTake_arrives harr (by decide)]
  exact congrArg Host.Outcome.next (if_pos (by simpa using h))

/-- A TIME packet of the selected port of a heard link gives an offset sample unless its distance is 15 or the step generations differ (R581). -/
theorem time_heard (harr : Arrives s p 7) (hh : octurHeard s = true) (hp : p.port = s.tb.octurPort) :
    ∀ u, u = (if octurTimed s = true then { s with oct.distance := min 15 (p.op % 16 + 1) } else s) → exec (.time p ta tb tc td ga gb) s = .next (if 15 ≤ p.op % 16 ∨ ga ≠ gb then u
      else servoSample u 3 (((tb - ta) - (td - tc)) / 2 - (BitVec.ofNat 32 (octPort s p.port).asym).toInt)) := by
  intro u hu
  have hport : octPort u p.port = octPort s p.port := by rw [hu]; split <;> rfl
  rw [exec, execTime, octTake_arrives harr (by decide), ← hport, hu]
  exact congrArg Host.Outcome.next (if_neg (by simp [hh, hp]))

end Time

/-- Settles O58: a port follows its HELLO, its faults, its NAKs and its acknowledgements; a packet in transit follows its route; and the ports carry the time. -/
theorem octurLink : Obligations.OcturLink := by
  unfold Obligations.OcturLink
  intro s q x hx hq
  subst hx
  refine ⟨fun hen hst htest m pq cols rows torus => ⟨octurHello_up hq hen hst htest, octurHello_fault hq hen hst htest⟩,
    fun hen m pq cols rows torus => ⟨if_pos (.inr (.inl (by simp [hen]))), if_pos (.inr (by simp [hen]))⟩, octurRetrain_trains, fun h => if_pos (.inl h),
    fun hup hb sq rest hrest => ?_, fun h => if_pos (.inl h), fun h => if_pos (.inr h), octurAckTimeout_fault, ?_, octurTimeSend_sends hq, ?_⟩
  · subst hrest
    exact ⟨fun h => if_pos (.inr h), octurReplay_sends hup hb, octurReplay_eighth hup⟩
  · intro p hp hup
    subst hp
    refine ⟨fun h => if_pos (.inr (.inr h)), packetForward_crcNak hup hq, fun r hd hc ht hr hdown => ?_, fun r hd hc ht hr hr' => ?_⟩
    · rw [packetForward_routed hup hq hd hc ht hr, if_neg hdown]
    · rw [packetForward_routed hup hq hd hc ht hr, if_pos hr']
  · intro p ta tb tc td ga gb harr
    refine ⟨time_unheard harr, fun u hu hh hp => ⟨fun hdrop => ?_, fun hd hg => ?_⟩⟩
    · rw [time_heard harr hh hp u hu, if_pos hdrop]
    · rw [time_heard harr hh hp u hu, if_neg (by rw [not_or, not_not]; exact ⟨by omega, hg⟩)]

/-! ## Octur requests and answers -/

/-! ### Octur requests and answers (R99, R576, R578, R579, R582) -/

/-- An answer leaves at a port or is lost; it touches neither memory nor knots. -/
theorem octAnswer_keeps (s : State) (p : OctPacket) (type vc len op : Nat) (pl : List Byte) :
    (octAnswer s p type vc len op pl).mem = s.mem ∧ (octAnswer s p type vc len op pl).mmu = s.mmu ∧ (octAnswer s p type vc len op pl).knots = s.knots ∧
      (octAnswer s p type vc len op pl).power = s.power := by
  rw [octAnswer]
  split <;> simp

/-- With no held signal a request that is over is only erased. -/
theorem octDone_none {s : State} (r : OctReq) (h : s.oct.held = []) : octDone s r = { s with oct.requests := s.oct.requests.erase r } := by
  rw [octDone, dueHeld, h, List.foldl_nil, ← h]

theorem gateSignal_sent {s : State} {x : HeldSignal} (hw : writesOpen s x.src x.module = false) (hheld : s.oct.held = []) : gateSignal s x = sendSignal s x := by
  simp [gateSignal, hw, hheld]

theorem dueHeld_one {s : State} {x : HeldSignal} (h : s.oct.held = [x]) : dueHeld s = gateSignal { s with oct.held := [] } x := by
  rw [dueHeld, h, List.foldl_cons, List.foldl_nil]

theorem octDone_one {s : State} {r : OctReq} {x : HeldSignal} (h : s.oct.held = [x]) (hw : writesOpen { s with oct.requests := s.oct.requests.erase r } x.src x.module = false) :
    octDone s r = sendSignal { s with oct.requests := s.oct.requests.erase r, oct.held := [] } x :=
  (dueHeld_one (s := { s with oct.requests := s.oct.requests.erase r }) h).trans (gateSignal_sent hw rfl)

section Requests
variable {s : State} {p : OctPacket} {b : Bool} {r : OctReq}

theorem answers_crcNak (hup : (octPort s p.port).st = .up) (hport : p.port < 4) (hcrc : p.crcOk = false) :
    CrcNak (.rdReq p b) s p ∧ CrcNak (.wrReq p b) s p ∧ CrcNak (.rdResp p) s p ∧ CrcNak (.wrAck p) s p ∧ CrcNak (.knotAdd p) s p ∧ CrcNak (.knotAck p) s p ∧
      CrcNak (.resetCmd p) s p ∧ CrcNak (.resetAck p) s p := by
  have hnak : ∀ (type : Nat) (act : State → State), Host.Outcome.next (φ := Fault) (ρ := Refusal) (octTake s p type act) =
      .next (emit (setOct s p.port { octPort s p.port with crc := satAdd 16 (octPort s p.port).crc 1 }) (.nak p.port)) :=
    fun type act => congrArg Host.Outcome.next (octTake_of_crc hup hport hcrc)
  exact ⟨hnak 1 _, hnak 3 _, hnak 2 _, hnak 4 _, hnak 5 _, hnak 6 _, hnak 8 _, hnak 9 _⟩

theorem answers_down (hdown : (octPort s p.port).st ≠ .up) :
    exec (.rdReq p b) s = .next s ∧ exec (.wrReq p b) s = .next s ∧ exec (.rdResp p) s = .next s ∧ exec (.wrAck p) s = .next s ∧ exec (.knotAdd p) s = .next s ∧
      exec (.knotAck p) s = .next s ∧ exec (.resetCmd p) s = .next s ∧ exec (.resetAck p) s = .next s := by
  have hno : ∀ (type : Nat) (act : State → State), Host.Outcome.next (φ := Fault) (ρ := Refusal) (octTake s p type act) = .next s :=
    fun type act => congrArg Host.Outcome.next (octTake_of_down hdown)
  exact ⟨hno 1 _, hno 3 _, hno 2 _, hno 4 _, hno 5 _, hno 6 _, hno 8 _, hno 9 _⟩

/-! ### Remote accesses -/

theorem rdReq_answered (harr : Arrives s p 1) (hok : octCheck s p false p.len = stOk) (hclean : poisonedIn s p.addr p.len = none) :
    exec (.rdReq p false) s = .next (octAnswer (cacheTouch s p.did p.guarded false p.addr p.len) p 2 1 (p.len / 4) stOk (Memory.reads s.mem (Space.key .dram p.addr) p.len)) := by
  have hclean' : poisonedIn (cacheTouch s p.did p.guarded false p.addr p.len) p.addr p.len = none := hclean
  rw [exec, execRdReq, octTake_arrives harr (by decide)]
  simp only [Bool.false_eq_true, if_false, hok, ne_eq, not_true, hclean']
  rfl

theorem rdReq_denied {st : Nat} (harr : Arrives s p 1) (hst : octCheck s p false p.len = st) (hne : st ≠ stOk) :
    exec (.rdReq p false) s = .next (octAnswer (octDenied s p false st) p 2 1 0 st []) := by
  rw [exec, execRdReq, octTake_arrives harr (by decide)]
  simp only [Bool.false_eq_true, if_false, hst, if_pos hne]

theorem wrReq_written (harr : Arrives s p 3) (hok : octCheck s p true p.payload.length = stOk) :
    ∃ t, exec (.wrReq p false) s = .next t ∧ t.mem = Memory.writes s.mem (Space.key .dram p.addr) p.payload ∧
      ∀ a, (a < Space.key .dram p.addr ∨ Space.key .dram p.addr + p.payload.length ≤ a) → Memory.read t.mem a = Memory.read s.mem a := by
  let t := octAnswer (dramWrite (cacheTouch s p.did p.guarded true p.addr p.payload.length) p.addr p.payload) p 4 1 0 stOk []
  have hmem : t.mem = Memory.writes s.mem (Space.key .dram p.addr) p.payload := by
    rw [(octAnswer_keeps _ _ _ _ _ _ _).1, dramWrite, (clearPoison_keeps _ _ _).2.2.2.2.2.2.1]
    simp
  refine ⟨t, ?_, hmem, fun a ha => ?_⟩
  · rw [exec, execWrReq, octTake_arrives harr (by decide)]
    simp only [Bool.false_eq_true, if_false, hok, ne_eq, not_true]
    rfl
  · rw [hmem, Memory.read_writes_outside _ _ ha]

/-- A denied access leaves its fault in MMU_FAULT of the sender's DID and touches no byte. -/
theorem octDenied_fault (write : Bool) (st : Nat) :
    (octDenied s p write st).mem = s.mem ∧ (Tbl.at MmuFault.reset (octDenied s p write st).mmu.faults p.did).valid = true := by
  rw [octDenied]
  refine ⟨?_, ?_⟩
  · split <;> simp
  · simp [memFault]

theorem wrReq_denied (harr : Arrives s p 3) (hne : octCheck s p true p.payload.length ≠ stOk) :
    ∃ t, exec (.wrReq p false) s = .next t ∧ t.mem = s.mem ∧ (Tbl.at MmuFault.reset t.mmu.faults p.did).valid = true := by
  obtain ⟨hmem, hvalid⟩ := octDenied_fault (s := s) (p := p) true (octCheck s p true p.payload.length)
  obtain ⟨hm, hf, -⟩ := octAnswer_keeps (octDenied s p true (octCheck s p true p.payload.length)) p 4 1 0 (octCheck s p true p.payload.length) []
  rw [exec, execWrReq, octTake_arrives harr (by decide)]
  simp only [Bool.false_eq_true, if_false, if_pos hne]
  exact ⟨_, rfl, hm.trans hmem, by rw [hf]; exact hvalid⟩

/-! ### Remote signals -/

theorem knotAdd_added (harr : Arrives s p 5) (hcycle : s.knots.cycle = none) (hok : signalCheck s p.did p.guarded (p.f 6 0 13) = stOk) (hpois : (knotOf s (p.f 6 0 13)).st ≠ .poisoned) :
    ∃ t, exec (.knotAdd p) s = .next t ∧ (knotOf t (p.f 6 0 13)).value = (knotOf s (p.f 6 0 13)).value + BitVec.ofNat 32 p.op ∧
      (∀ j, j ≠ p.f 6 0 13 → knotOf t j = knotOf s j) := by
  let x : Signal := { knot := p.f 6 0 13, set := false, value := BitVec.ofNat 32 p.op, did := 16 + p.src, unit := 0, index := 0 }
  have happly : applySignal s x = setKnot s (p.f 6 0 13) ((knotOf s (p.f 6 0 13)).value + BitVec.ofNat 32 p.op) := by
    simp only [applySignal, hcycle]
    exact applyCycle_single s x hpois
  let t := octAnswer (applySignal s x) p 6 2 0 stOk []
  have hknot : ∀ j, knotOf t j = knotOf (setKnot s (p.f 6 0 13) ((knotOf s (p.f 6 0 13)).value + BitVec.ofNat 32 p.op)) j := fun j => by
    rw [← happly, knotOf, (octAnswer_keeps _ _ _ _ _ _ _).2.2.1, knotOf]
  refine ⟨t, ?_, by rw [hknot, knotOf_setKnot_same], fun j hj => (hknot j).trans (knotOf_setKnot_other _ hj)⟩
  rw [exec, execKnotAdd, octTake_arrives harr (by decide)]
  exact congrArg Host.Outcome.next (if_pos hok)

theorem knotAdd_denied (harr : Arrives s p 5) (hne : signalCheck s p.did p.guarded (p.f 6 0 13) ≠ stOk) : ∃ t, exec (.knotAdd p) s = .next t ∧ t.knots = s.knots := by
  rw [exec, execKnotAdd, octTake_arrives harr (by decide)]
  refine ⟨_, congrArg Host.Outcome.next (if_neg hne), ?_⟩
  rw [(octAnswer_keeps _ _ _ _ _ _ _).2.2.1]
  exact (raise_frame _ _).1

/-! ### Answers -/

theorem answers_unasked (hnone : octRequestOf s p = none) :
    (Arrives s p 2 → exec (.rdResp p) s = .next s) ∧ (Arrives s p 4 → exec (.wrAck p) s = .next s) ∧ (Arrives s p 6 → exec (.knotAck p) s = .next s) ∧
      (Arrives s p 9 → exec (.resetAck p) s = .next s) := by
  refine ⟨fun h => ?_, fun h => ?_, fun h => ?_, fun h => ?_⟩
  · rw [exec, execRdResp, octTake_arrives h (by decide), hnone]
  · rw [exec, execWrAck, octTake_arrives h (by decide), hnone]
  · rw [exec, execKnotAck, octTake_arrives h (by decide), hnone]
  · rw [exec, execResetAck, octTake_arrives h (by decide), hnone]

variable (hr : octRequestOf s p = some r)
include hr

theorem rdResp_done (h : Arrives s p 2) (hk : r.kind = .read) : exec (.rdResp p) s = .next (octDone s r) := by
  rw [exec, execRdResp, octTake_arrives h (by decide), hr]
  exact congrArg Host.Outcome.next (if_pos hk)

theorem wrAck_done (h : Arrives s p 4) (hk : r.kind = .write) : exec (.wrAck p) s = .next (octDone s r) := by
  rw [exec, execWrAck, octTake_arrives h (by decide), hr]
  exact congrArg Host.Outcome.next (if_pos hk)

theorem knotAck_done {k : Nat} {g : Bool} (h : Arrives s p 6) (hk : r.kind = .knot k g) :
    exec (.knotAck p) s = .next (if p.status = stOk then octDone s r else raiseUndelivered (octDone s r) r.module k r.did g) := by
  rw [exec, execKnotAck, octTake_arrives h (by decide), hr]
  simp only [hk]

theorem resetAck_done {d : Desc} (h : Arrives s p 9) (hk : r.kind = .reset d) :
    exec (.resetAck p) s = .next (finishDesc (octDone s r) d (if p.status = stOk then stOk else stNotAuth) 0 0 0) := by
  rw [exec, execResetAck, octTake_arrives h (by decide), hr]
  simp only [hk]

theorem knotAck_clauses {k : Nat} {g : Bool} (hheld : s.oct.held = []) (h : Arrives s p 6) (hk : r.kind = .knot k g) :
    (p.status = stOk → exec (.knotAck p) s = .next { s with oct.requests := s.oct.requests.erase r }) ∧
      (p.status ≠ stOk → ∃ t, exec (.knotAck p) s = .next t ∧ t.oct.requests = s.oct.requests.erase r ∧ t.oct.knotsLost = satAdd 16 s.oct.knotsLost 1) := by
  rw [knotAck_done hr h hk, octDone_none r hheld]
  refine ⟨fun hst => by rw [if_pos hst], fun hst => ⟨_, congrArg Host.Outcome.next (if_neg hst), ?_, ?_⟩⟩ <;> simp [raiseUndelivered]

end Requests

/-! ### Requests without an answer, and the resets of peers -/

section Resets
variable {s : State} {p : OctPacket} {r : OctReq} {d : Desc}

theorem requestTimeout_unknown {tag : Nat} (h : s.oct.requests.find? (fun r => r.tag == tag) = none) : exec (.octurRequestTimeout tag) s = .next s := by
  rw [exec, execOcturRequestTimeout, h]

theorem requestTimeout_access {tag : Nat} (h : s.oct.requests.find? (fun r => r.tag == tag) = some r) (hheld : s.oct.held = []) (hk : r.kind = .read ∨ r.kind = .write) :
    ∃ t, exec (.octurRequestTimeout tag) s = .next t ∧ t.oct.requests = s.oct.requests.erase r ∧ t.oct.unreachable = satAdd 16 s.oct.unreachable 1 ∧
      t.up = max s.up (r.issued + 100000) := by
  let u : State := { advanceUp s (r.issued + 100000) with oct.held := [], oct.requests := s.oct.requests.erase r }
  have hreach : exec (.octurRequestTimeout tag) s = .next (raiseUnreachable u r.module r.did) := by
    rw [exec, execOcturRequestTimeout, h]
    dsimp only
    rw [octDone_none r (by simp [hheld])]
    cases hk with
    | inl hread => simp [u, hread, hheld]
    | inr hwrite => simp [u, hwrite, hheld]
  refine ⟨_, hreach, by simp [raiseUnreachable, u], by simp [raiseUnreachable, u], ?_⟩
  rw [← advanceUp_up]
  simp [raiseUnreachable, u]

theorem octReset_unreachable (hacc : Accepted s d (infoOctReset s d)) (hroute : octRoute s.oct (dfld d 16 0 4) = none) :
    exec (.octReset d) s = .next (finishDesc (raiseUnreachable (markStarted s d) (dfld d 16 0 4) d.did) d stTranslation 0 0 0) := by
  refine congrArg Host.Outcome.next (runDesc_of_done hacc ?_)
  simp only [markStarted_keeps, hroute, Option.filter_none]
  rfl

theorem octReset_sent {q : Nat} (hacc : Accepted s d (infoOctReset s d)) (hroute : octRoute s.oct (dfld d 16 0 4) = some q) (hup : (octPort s q).st = .up) :
    ∃ t x, exec (.octReset d) s = .next t ∧ t.oct.requests = s.oct.requests ++ [x] ∧ x.kind = .reset d ∧ x.module = dfld d 16 0 4 ∧ x.issued = s.up := by
  let x : OctReq := { tag := s.oct.nextTag % 65536, module := dfld d 16 0 4, did := d.did, kind := .reset d, issued := s.up, src := none }
  let u : State := { markStarted s d with oct.nextTag := s.oct.nextTag + 1, oct.requests := s.oct.requests ++ [x] }
  let t : State := octSend u q (octHeader 8 2 0 (dfld d 16 0 4) s.oct.module d.did 0 0 (s.oct.nextTag % 65536) 0 0) []
  refine ⟨t, x, congrArg Host.Outcome.next (runDesc_of_later hacc ?_), by rw [octSend_oct], rfl, rfl, rfl⟩
  have hfilter : (some q).filter (fun p => (octPort (markStarted s d) p).st == .up) = some q := by
    simp [Option.filter, octPort_of_oct (show (markStarted s d).oct = s.oct by simp), hup]
  simp only [markStarted_keeps, hroute, hfilter, t, u, x]

theorem resetCmd_refused (harr : Arrives s p 8) (h : octurAccepts s p.did = false) : ∃ t, exec (.resetCmd p) s = .next t ∧ t.power = s.power ∧ t.mem = s.mem := by
  rw [exec, execResetCmd, octTake_arrives harr (by decide)]
  refine ⟨_, congrArg Host.Outcome.next (if_neg (by simp [h])), ?_, ?_⟩
  · rw [(octAnswer_keeps _ _ _ _ _ _ _).2.2.2]
    simp
  · rw [(octAnswer_keeps _ _ _ _ _ _ _).1]
    simp

/-- The target of an accepted reset command answers, and its reset is that of cause 7 (R582). -/
theorem resetCmd_resets (harr : Arrives s p 8) (h : octurAccepts s p.did = true) (hpow : logicPowered s = true) (hseq : s.power.seqCause = none) :
    ∃ t, exec (.resetCmd p) s = .next t ∧ t.power.lastCause = 7 ∧ Tbl.at 0 t.power.counts 7 = satAdd 16 (Tbl.at 0 s.power.counts 7) 1 := by
  let u := octAnswer s p 9 2 0 stOk []
  have hpower : u.power = s.power := (octAnswer_keeps _ _ _ _ _ _ _).2.2.2
  have hpow' : logicPowered u = true := by rw [logicPowered, hpower]; exact hpow
  obtain ⟨hcount, -, hlast, -⟩ := assertCause_new (s := u) (k := 7) (by rw [hpower, hseq])
  refine ⟨assertCause u 7, ?_, hlast, by rw [hcount, hpower]⟩
  rw [exec, execResetCmd, octTake_arrives harr (by decide), if_pos h]
  exact congrArg Host.Outcome.next (if_pos hpow')

end Resets

/-- Settles O59: a packet acts by its type where its CRC and its checks are right; an answer ends its request and lets the signals that waited for it leave. -/
theorem octurRequests : Obligations.OcturRequests := by
  unfold Obligations.OcturRequests
  intro s p b d r
  refine ⟨answers_crcNak, answers_down, fun h => ⟨rdReq_answered h, fun st => rdReq_denied h⟩, fun h => ⟨wrReq_written h, wrReq_denied h⟩,
    fun h hc => ⟨knotAdd_added h hc, knotAdd_denied h⟩, answers_unasked, fun hr hheld => ⟨fun h hk => ?_, fun h hk => ?_, fun k g => knotAck_clauses hr hheld, fun h hk => ?_⟩,
    fun x hr hheld h hk hw => by rw [wrAck_done hr h hk, octDone_one hheld hw], fun tag => ⟨requestTimeout_unknown, requestTimeout_access⟩,
    fun h => ⟨octReset_unreachable h, fun q => octReset_sent h⟩, fun h => ⟨resetCmd_refused h, resetCmd_resets h⟩⟩
  · rw [rdResp_done hr h hk, octDone_none r hheld]
  · rw [wrAck_done hr h hk, octDone_none r hheld]
  · rw [resetAck_done hr h hk, octDone_none r hheld]

end Sys2Proof.Machine
